-- ==== Sys2Proof/Word.lean ====
section
/-! DEFINITION. The words the device is built from: the 32-bit register (R3) and the byte of memory. -/

namespace Sys2Proof

/-- A register of the device: 32 bits wide, little-endian (R3). -/
abbrev Word := BitVec 32

/-- One byte of memory. -/
abbrev Byte := BitVec 8

end Sys2Proof
end

