-- ==== Sys2Proof/Syntax.lean ====
section
/-! DEFINITION. The commands of the block: one constructor of `Instr` for each row of spec/opcode_table.json, with the
operands the row's rules speak of. A register write carries the world that issues it (R332) and the value; an event
carries what the outside decides (a sink's reply, a measured delay, the words a read returned). -/

namespace Sys2Proof

/-- The two worlds (R332). -/
inductive World where
  | secure | normal
deriving DecidableEq, Repr

/-- Who issues a transaction (FE_MASTER.KIND, R400). -/
inductive MasterKind where
  | fabric | core | guest | debug
deriving DecidableEq, Repr

/-- A requester: its kind, its number, its session (guest ports) and the world it carries (R332). -/
structure Master where
  /-- kind of requester -/
  kind : MasterKind
  /-- requester port, core or guest port -/
  id : Fin 64
  /-- session, for a guest -/
  session : Fin 256
  /-- world carried -/
  world : World
deriving DecidableEq, Repr

/-- The two memory sides, by MSIDE instance (R35). -/
abbrev Side := Fin 2

/-- What went wrong with a read of DRAM as inline ECC saw it (R211). -/
inductive EccResult where
  | clean | corrected | uncorrectable
deriving DecidableEq, Repr

/-- How the scan that a GROUP frame ends goes on: whether its report's records miss the next BEAT (R284), and the haptic channels
on which another trigger of the same clock wins over a press cue of it (R301). -/
structure ScanEnd where
  /-- the records cannot be written before the next BEAT -/
  late : Bool
  /-- channels whose press cue loses -/
  beaten : List (Fin 16)
deriving DecidableEq, Repr

/-- A session's haptic doorbell: the session, whether another trigger of the same clock wins over it (R301), and the slot boundaries at
which its start cannot be made (R32). -/
structure Bell where
  /-- session of the page -/
  session : Fin 256
  /-- another trigger of the clock wins on the channel -/
  beaten : Bool
  /-- slot boundaries missed -/
  missed : Nat
deriving DecidableEq, Repr

/-- What a channel's own accesses to a line find (R211): what inline ECC saw of the read, and what link ECC corrected on the
wires of the read and, as the devices report it, of the write. -/
structure LineEcc where
  /-- inline ECC of the read -/
  inline : EccResult
  /-- read link corrections -/
  read : Nat := 0
  /-- write link corrections -/
  write : Nat := 0
deriving DecidableEq, Repr

/-- A sink that is plugged into a port: whether it supports TPS3 (R90). -/
structure Plug where
  /-- port -/
  port : Fin 8
  /-- the sink's capabilities name TPS3 -/
  tps3 : Bool
deriving DecidableEq, Repr

/-- What mode register 4 of a channel reports: at most 85 °C, above that and at most 105 °C, or above 105 °C (R223). -/
inductive TempBand where
  | cool | warm | hot
deriving DecidableEq, Repr

/-- The way an access takes to a layer's guest registers: through the layer's block, by a world, or through a handle of
a session's page (R109, R110). -/
inductive LayerDoor where
  | block (n : Fin 64) (w : World)
  | page (session : Fin 256) (handle : Fin 16)
deriving DecidableEq, Repr

/-- A layer whose tables load: a general one, or a protected one (R128, R172). -/
inductive TableOwner where
  | layer (n : Fin 64)
  | prot (n : Fin 8)
deriving DecidableEq, Repr

/-- A layer's fetch that comes late for a line: the layer, by how many nanoseconds beyond its target, and the lowest rank
that went ahead of it (R37, R39, R119). -/
structure LateLayer where
  /-- layer -/
  layer : Fin 64
  /-- nanoseconds beyond the latency target -/
  ns : Nat
  /-- rank yielded to -/
  yielded : Nat
deriving DecidableEq, Repr

/-- A PCIe configuration request to a function: a read or a write of a word, a write of SR-IOV's VF Enable and NumVFs of the
physical function, or one of the MSI-X control word (R43, R46, R52). -/
inductive CfgReq where
  | read (off : BitVec 12)
  | write (off : BitVec 12) (v : Word)
  | setNumVfs (n : Fin 16)
  | msixControl (enable mask : Bool)
deriving DecidableEq, Repr

/-- A resource with an owner register (R68). -/
inductive Owned where
  | layer (n : Fin 64)
  | scaler (n : Fin 24)
  | haptic (n : Fin 16)
  | stream (k : Fin 24)
  | zone (n : Fin 8) (k : Fin 32)
deriving DecidableEq, Repr

/-- The registers of a session's window (R63). -/
inductive WinReg where
  | dev | goff | ctrl
deriving DecidableEq, Repr

/-- Who clears the logbook: a world, or a session through its page (R431). -/
inductive LogClearer where
  | world (w : World)
  | session (n : Fin 256)
deriving DecidableEq, Repr

/-- A place in a function's BAR0 (a slot's page and an offset in it) or BAR4 (R45, R46). -/
inductive BarPlace where
  | page (p : Fin 4) (f slot : Fin 16) (off : BitVec 12)
  | msix (p : Fin 4) (f : Fin 16) (off : BitVec 13)
deriving DecidableEq, Repr

/-- Where a register write goes: to the register grid, from a requester, at an offset from 0x10_0000_0000 (R35), or to a BAR
of a function, from its host (R45). -/
inductive RegTarget where
  | grid (m : Master) (off : BitVec 32)
  | bar (b : BarPlace)
deriving DecidableEq, Repr

/-- Where a read goes: to an address of the 40-bit map, from a requester, or to a BAR of a function, from its host. -/
inductive ReadTarget where
  | addr (m : Master) (a : BitVec 40)
  | bar (b : BarPlace)
deriving DecidableEq, Repr

/-- What the debug module does under a DMI access (R357). -/
inductive DmiOp where
  | halt (c : Fin 5)
  | resume (c : Fin 5)
  | step (c : Fin 5)
  | readGpr (c : Fin 5) (r : Fin 32)
  | writeGpr (c : Fin 5) (r : Fin 32) (v : BitVec 64)
  | readCsr (c : Fin 5) (w : World) (n : BitVec 12)
  | writeCsr (c : Fin 5) (w : World) (n : BitVec 12) (v : BitVec 64)
  | readFpr (c : Fin 5) (r : Fin 32)
  | writeFpr (c : Fin 5) (r : Fin 32) (v : BitVec 64)
  | pcSample (c : Fin 5)
  | busRead (w : World) (a : BitVec 40) (len : Nat)
  | busWrite (w : World) (a : BitVec 40) (bytes : List Byte)
deriving DecidableEq, Repr

/-- What self-test finds in a large SRAM macro: failing rows and columns (R452). -/
structure MacroFail where
  /-- macro -/
  index : Fin 212
  /-- failing rows -/
  rows : Nat
  /-- failing columns -/
  cols : Nat
deriving DecidableEq, Repr

/-- What a start finds that the state does not hold: the board's and the parts' side of it (R373). -/
structure StartFacts where
  /-- the core supplies were powered on since the latest start -/
  corePower : Bool
  /-- memory fitted on Side A, in units of 4 GB less one (R209) -/
  sideA : Fin 4
  /-- memory fitted on Side B -/
  sideB : Fin 4
  /-- what self-test finds (R452) -/
  fails : List MacroFail
  /-- flash offsets whose read gets no data within 1 µs (R367) -/
  dead : List (BitVec 29)
  /-- flash offsets that give no data when memory sections are read again (R373) -/
  deadAgain : List (BitVec 29)
  /-- flash offsets that read wrong when memory sections are read again -/
  badAgain : List (BitVec 29)
deriving DecidableEq, Repr

/-- One command. -/
inductive Instr where
  /-- REGISTER_WRITE, R7: A write to a register that has no row of its own acts as its access type states. -/
  | registerWrite (t : RegTarget) (bytes : List Byte)
  /-- FABRIC_READ, R217: A memory read request is routed to a side, to the mirrored view, to SRAM or to ROM and served. -/
  | fabricRead (t : ReadTarget) (len : Nat)
  /-- FABRIC_WRITE, R216: A memory write request is accepted by one or both sides and counts as one write for ordering. -/
  | fabricWrite (m : Master) (a : BitVec 40) (bytes : List Byte)
  /-- DRAM_READ_RETURN, R211: Read data returns from a channel and is checked and corrected by inline ECC. -/
  | dramReadReturn (n : Side) (ch : Fin 8) (id : Nat) (ecc : EccResult) (link ns : Nat) (srOk : Bool)
  /-- CA_PARITY_ERROR, R234: A command/address parity error in the controller-to-PHY path freezes the side. -/
  | caParityError (n : Side) (srOk : Bool)
  /-- BEAT, R17: The drumbeat falls, advancing the drumbeat number and pacing scans, blocks and frames. -/
  | beat
  /-- DRUM_IN_EDGE, R22: A qualifying rising edge on DRUM_IN produces a beat 160 ns later. -/
  | drumInEdge (sinceBeatNs : Nat)
  /-- DRUM_IN_MISSING, R23: No qualifying edge by 1.001 periods, so the beat is taken from the internal divider. -/
  | drumInMissing
  /-- DRUM_CTRL_WRITE, R24: A write to DRUM_0_CTRL selects the source and leaves holdover, unless a unit runs. -/
  | drumCtrlWrite (w : World) (v : Word)
  /-- DRUM_DIV_INT_WRITE, R20: A write to DIV_INT is held in the register without being taken. -/
  | drumDivIntWrite (w : World) (v : Word)
  /-- DRUM_DIV_FRAC_WRITE, R20: A write to DIV_FRAC makes the divider take the new setting, or refuses it with CFG_ERR. -/
  | drumDivFracWrite (w : World) (v : Word)
  /-- BREACH_CLR, R40: A write to SYS_0_BREACH_CLR clears the chosen breach counters. -/
  | breachClr (w : World) (v : Word)
  /-- HAPTIC_SLOT_BOUNDARY, R30: A haptic slot boundary starts pending doorbell effects and retries waiting starts. -/
  | hapticSlotBoundary
  /-- CONFIG_REQUEST, R43: A PCIe configuration request is answered with Retry Status or answered normally. -/
  | configRequest (p : Fin 4) (f : Fin 16) (r : CfgReq)
  /-- BAR2_READ, R48: A guest BAR2 read is translated through the session's windows and charged against its quota. -/
  | bar2Read (p : Fin 4) (f slot : Fin 16) (off : BitVec 34) (len : Nat)
  /-- BAR2_WRITE, R48: A guest BAR2 write is translated through the windows, charged against quota and performed or refused. -/
  | bar2Write (p : Fin 4) (f slot : Fin 16) (off : BitVec 34) (bytes : List Byte)
  /-- QUOTA_CREDIT, R66: Tokens are credited every 1 µs and a waiting transaction whose cost is covered is performed. -/
  | quotaCredit
  /-- GP_RELEASE, R43: Writing GP_n_CTRL.RELEASE = 1 makes the port answer configuration requests normally. -/
  | gpRelease (p : Fin 4) (w : World) (v : Word)
  /-- GP_LINK_DOWN, R52: A port link leaves L0 other than by L2 entry, and its sessions detach. -/
  | gpLinkDown (p : Fin 4) (l2 : Bool)
  /-- GP_LINK_UP, R52: A function becomes available again and its sessions attach. -/
  | gpLinkUp (p : Fin 4) (speed : Fin 4) (width : Fin 3)
  /-- FLR, R52: A function-level reset detaches the sessions bound to the function. -/
  | flr (p : Fin 4) (f : Fin 16)
  /-- PERST_ASSERT, R52: PERST_N is asserted on a port and its sessions detach. -/
  | perstAssert (p : Fin 4)
  /-- SESSION_CTRL_WRITE, R51: A write to SESS_n_CTRL binds, activates or turns off a session, or is refused with BIND_ERR. -/
  | sessionCtrlWrite (n : Fin 256) (w : World) (v : Word)
  /-- SESS_WIN_WRITE, R63: A window register write sets VALID after its checks, changes GUEST_RO, clears VALID or is refused. -/
  | sessWinWrite (n : Fin 256) (k : Fin 16) (r : WinReg) (w : World) (v : Word)
  /-- SEM_WRITE, R57: A write sets a session semaphore value. -/
  | semWrite (n : Fin 256) (k : Fin 16) (v : Word)
  /-- SEM_ADD, R57: A write adds its value to a semaphore, modulo 2^32. -/
  | semAdd (n : Fin 256) (k : Fin 16) (v : Word)
  /-- HAPTIC_DOORBELL, R58: A DB_HAPTIC write requests an effect on an owned haptic handle. -/
  | hapticDoorbell (b : Bell) (v : Word)
  /-- TQ_CTRL_WRITE, R59: A write to TQ_CTRL enables the touch queue after its ring check, or is refused. -/
  | tqCtrlWrite (n : Fin 256) (v : Word)
  /-- TQ_BASE_WRITE, R59: A write to TQ_BASE sets the ring start, and is ignored while the queue runs. -/
  | tqBaseWrite (n : Fin 256) (v : Word)
  /-- AUDIO_STREAM_START, R61: Writing AS_a_CTRL.START starts a guest audio stream after its ring check. -/
  | audioStreamStart (n : Fin 256) (a : Fin 8) (v : Word)
  /-- IRQ_ENABLE_WRITE, R62: A write to IRQ_ENABLE may send the session's MSI-X message. -/
  | irqEnableWrite (n : Fin 256) (v : Word)
  /-- QUOTA_WRITE, R66: A write to SESS_n_QUOTA sets the rate and fills the bucket. -/
  | quotaWrite (n : Fin 256) (w : World) (v : Word)
  /-- OWNER_WRITE, R68: A resource owner register write assigns or releases the resource, or is refused. -/
  | ownerWrite (o : Owned) (w : World) (v : Word)
  /-- SCREEN_START, R72: Writing RUN = 1 to a stopped screen checks its settings and holds its pipe, or refuses the start. -/
  | screenStart (n : Fin 8) (w : World) (v : Word)
  /-- SCREEN_STOP, R73: Writing RUN = 0 requests a stop at the screen's next latch. -/
  | screenStop (n : Fin 8) (w : World) (v : Word)
  /-- SCREEN_START_LATCH, R72: The start latch falls and the screen begins running. -/
  | screenStartLatch (n : Fin 8)
  /-- LATCH, R75: At the latch clock, shadows are copied, fences are tested, and swaps and timing decisions are taken. -/
  | latch (n : Fin 8)
  /-- PIPE_FETCH_START, R78: A pipe starts fetching the next frame at line V_TOTAL − 8. -/
  | pipeFetchStart (n : Fin 8)
  /-- SCANOUT_LINE, R118: Scan-out of a line begins, and composition of the line eight ahead may begin. -/
  | scanoutLine (n : Fin 8) (line : BitVec 14) (last : Bool) (late : List LateLayer) (bare : Bool) (sxtNs sxtYield : Nat) (faults : List (BitVec 13 × Word))
  /-- LOWER_ENABLE, R79: Writing SCREEN_n_LOWER.EN = 1 allows refresh lowering, or is refused. -/
  | lowerEnable (n : Fin 8) (w : World) (v : Word)
  /-- RETIME_REQUEST, R83: Writing RETIME.GO checks the staging set and makes a RETIME pending. -/
  | retimeRequest (n : Fin 8) (w : World) (v : Word)
  /-- RETIME_COMPLETE, R87: The RETIME link work ends and the staging set is copied into the timing registers. -/
  | retimeComplete (n : Fin 8) (ok : Bool)
  /-- DP_TRAIN, R90: Writing LINK_CTRL.TRAIN starts link training at RATE and LANES. -/
  | dpTrain (p : Fin 8) (w : World) (v : Word)
  /-- DP_TRAIN_DONE, R91: Training ends with LINK_OK, fallback or TRAIN_FAIL. -/
  | dpTrainDone (p : Fin 8) (ok : Bool)
  /-- HPD_IRQ, R93: A short HPD low pulse makes the port read the DPCD status and retrain, degrade or report. -/
  | hpdIrq (p : Fin 8) (lost : BitVec 4)
  /-- DEGRADE_DONE, R95: A degrade reaches video on the degraded link or LINK_UNUSABLE. -/
  | degradeDone (p : Fin 8) (lane0 lane1 : Bool)
  /-- HPD_UNPLUG, R92: HPD stays low beyond 2 ms, which stops the link and sets UNPLUG. -/
  | hpdUnplug (p : Fin 8)
  /-- HPD_REPLUG, R92: HPD rises again and, with AUTO_RELINK, the port retrains. -/
  | hpdReplug (p : Plug)
  /-- AUX_NATIVE_WRITE, R97: An AUX command with REQ 0x8 writes the DPCD. -/
  | auxNativeWrite (p : Fin 8) (w : World) (v : Word)
  /-- AUX_NATIVE_READ, R97: An AUX command with REQ 0x9 reads the DPCD. -/
  | auxNativeRead (p : Fin 8) (w : World) (v : Word)
  /-- AUX_I2C_WRITE, R97: An AUX command with REQ 0x0 performs an I2C-over-AUX write. -/
  | auxI2cWrite (p : Fin 8) (w : World) (v : Word)
  /-- AUX_I2C_READ, R97: An AUX command with REQ 0x1 performs an I2C-over-AUX read. -/
  | auxI2cRead (p : Fin 8) (w : World) (v : Word)
  /-- AUX_I2C_WRITE_MOT, R97: An AUX command with REQ 0x4 performs an I2C-over-AUX write with MOT. -/
  | auxI2cWriteMot (p : Fin 8) (w : World) (v : Word)
  /-- AUX_I2C_READ_MOT, R97: An AUX command with REQ 0x5 performs an I2C-over-AUX read with MOT. -/
  | auxI2cReadMot (p : Fin 8) (w : World) (v : Word)
  /-- I2C_WRITE, R97: A panel I2C command 0x0 writes to a device. -/
  | i2cWrite (p : Fin 8) (w : World) (v : Word)
  /-- I2C_READ, R97: A panel I2C command 0x1 reads from a device. -/
  | i2cRead (p : Fin 8) (w : World) (v : Word)
  /-- I2C_WRITE_READ, R97: A panel I2C command 0x2 writes one byte, then does a repeated start and a read. -/
  | i2cWriteRead (p : Fin 8) (w : World) (v : Word)
  /-- AUX_DEFER_RETRY, R97: After a DEFER the port retries the AUX transaction 400 µs later. -/
  | auxDeferRetry (p : Fin 8)
  /-- AUX_TRANSACTION_END, R97: An AUX or I2C transaction ends with its reply and DONE is set. -/
  | auxTransactionEnd (p : Fin 8) (i2c : Bool) (reply : Fin 3) (moved : Fin 17) (data : List Byte)
  /-- AUX_TIMEOUT, R97: No reply arrives in time and TIMEOUT is set. -/
  | auxTimeout (p : Fin 8) (i2c : Bool)
  /-- PANEL_ON, R99: Writing PANEL_ON = 1 requests panel power. -/
  | panelOn (p : Fin 8) (w : World) (v : Word) (rested : Bool)
  /-- PANEL_VDD_RISE, R99: A held power-on request drives PNL_VDD_EN high once T_OFF_MIN has passed. -/
  | panelVddRise (p : Fin 8)
  /-- PANEL_HPD_TIMEOUT, R99: HPD has not risen within T_HPD, so SEQ_ERR is set. -/
  | panelHpdTimeout (p : Fin 8)
  /-- PANEL_OFF, R101: Writing PANEL_ON = 0 on a stopped screen begins the panel power-down. -/
  | panelOff (p : Fin 8) (w : World) (v : Word)
  /-- PANEL_POWER_DOWN_STEP, R101: A power-down delay expires and the link stops or PNL_VDD_EN goes low. -/
  | panelPowerDownStep (p : Fin 8)
  /-- BL_ON, R100: Writing BL_ON = 1 requests the backlight. -/
  | blOn (p : Fin 8) (w : World) (v : Word)
  /-- BL_OFF, R100: Writing BL_ON = 0 takes BL_EN low at once. -/
  | blOff (p : Fin 8) (w : World) (v : Word)
  /-- BL_ENABLE_DELAY, R100: Valid video has been sent for T_VIDEO_BL and BL_EN goes high. -/
  | blEnableDelay (p : Fin 8)
  /-- BL_PWM_PERIOD, R103: A backlight PWM period starts and takes the new duty, period and polarity. -/
  | blPwmPeriod (p : Fin 8)
  /-- LAYER_BIND_WRITE, R108: A write to LAYER_n_BIND binds the layer to a screen, or is refused. -/
  | layerBindWrite (n : Fin 64) (w : World) (v : Word)
  /-- LAYER_COMMIT_GO, R122: A GO write checks the shadows and makes the commit PENDING or REJECTED. -/
  | layerCommitGo (d : LayerDoor) (v : Word)
  /-- LAYER_COMMIT_CANCEL, R124: A CANCEL write rejects a pending commit with CANCELLED. -/
  | layerCommitCancel (d : LayerDoor) (v : Word)
  /-- TABLE_LOAD_DONE, R128: A coefficient or palette table load completes and the commit may apply. -/
  | tableLoadDone (o : TableOwner)
  /-- VIN_ENABLE, R144: Writing VIN_n_CTRL.EN = 1 starts the receiver after its checks, or is refused. -/
  | vinEnable (n : Fin 4) (w : World) (v : Word)
  /-- VIN_LINE_PACKET, R146: A CSI-2 long packet of a line is received and written to the buffer. -/
  | vinLinePacket (n : Fin 4) (vc : BitVec 2) (dt : BitVec 6) (header : EccResult) (payload : List Byte) (crcOk : Bool) (late : Option Nat)
  /-- VIN_FRAME_END, R146: A frame end packet makes a complete frame the latest, or discards the frame. -/
  | vinFrameEnd (n : Fin 4) (vc : BitVec 2)
  /-- VIN_NO_SIGNAL, R146: No complete frame has arrived within TIMEOUT and NO_SIGNAL is set. -/
  | vinNoSignal (n : Fin 4)
  /-- OUT_COMMIT_GO, R160: A write of OUT_COMMIT.GO, with or without LUT_SWAP, makes an output commit pending. -/
  | outCommitGo (n : Fin 8) (w : World) (v : Word)
  /-- PROT_COMMIT_GO, R172: A GO write on a protected layer checks it and makes the commit pending or rejected. -/
  | protCommitGo (n : Fin 8) (w : World) (v : Word)
  /-- PROT_COMMIT_CANCEL, R172: A CANCEL write withdraws a pending protected commit. -/
  | protCommitCancel (n : Fin 8) (w : World) (v : Word)
  /-- VOUCH, R176: A write to PROT_n_VOUCH with the current frame number is accepted as a vouch. -/
  | vouch (n : Fin 8) (w : World) (v : Word)
  /-- SXT_SELFTEST, R182: Writing SELFTEST.GO starts a sextant self-test where it is allowed. -/
  | sxtSelftest (k : Fin 2) (w : World) (v : Word)
  /-- SXT_SELFTEST_DONE, R182: The self-test ends and the sextant returns to its state or becomes FAILED. -/
  | sxtSelftestDone (k : Fin 2) (pass : Bool)
  /-- SXT_TILE_ROW_ARRIVE, R180: A sextant tile row arrives and is checked before use. -/
  | sxtTileRowArrive (n : Fin 8) (k : Fin 4) (y : Fin 2880) (t : Fin 40)
  /-- SXT_LOCKSTEP_FAIL, R186: The sextant engine pair disagrees and every screen falls back until the reserve takes it. -/
  | sxtLockstepFail (k : Fin 2)
  /-- CMP_TEST, R189: Writing CMP_TEST.GO requests the comparator test. -/
  | cmpTest (p : Fin 8) (w : World) (v : Word)
  /-- CMP_TEST_RUN, R189: The comparator test runs in the next vertical blanking and sets PASS and DONE. -/
  | cmpTestRun (p : Fin 8) (pass : Bool)
  /-- HARBOUR_FORCE, R193: A write of HARB_CTRL.FORCE shows or ends the forced whole-screen harbour image. -/
  | harbourForce (p : Fin 8) (w : World) (v : Word)
  /-- WATCH_COMPARE, R200: The signatures of a watched frame are compared once both are complete. -/
  | watchCompare (n : Fin 8) (diff : Word) (late : Bool)
  /-- HIT_MAP_SWAP, R205: The new hit map replaces the old one 64 µs after the latch. -/
  | hitMapSwap (n : Fin 8)
  /-- MIRROR_ENTRY_WRITE, R214: A mirror region entry write is checked and takes effect, or is refused with CFG_ERR. -/
  | mirrorEntryWrite (w : World) (k : Fin 32) (size : Bool) (v : Word)
  /-- MEM_TRAIN_DONE, R219: Side training completes, or the side freezes with cause TRAIN. -/
  | memTrainDone (n : Side) (lanes : List (BitVec 128 × BitVec 128)) (verify : Bool) (ppr : BitVec 4) (srOk : Bool)
  /-- MEM_INIT_DONE, R213: Zero initialisation of a side completes and waiting reads proceed. -/
  | memInitDone (n : Side)
  /-- DQS_TRACK, R221: Every 100 ms each channel moves its delays towards the measured drift. -/
  | dqsTrack (n : Side) (ch : Fin 8) (rd0 wr0 rd1 wr1 : BitVec 8)
  /-- REFRESH_DUE, R222: A per-bank refresh falls due and the channel's debt increases. -/
  | refreshDue (n : Side) (ch : Fin 8)
  /-- MR4_POLL, R223: Every 1 ms each channel reads mode register 4. -/
  | mr4Poll (n : Side) (ch : Fin 8)
  /-- MR4_RESULT, R223: The mode register 4 reading sets the refresh rate, or freezes the side with cause TEMP. -/
  | mr4Result (n : Side) (ch : Fin 8) (band : TempBand) (srOk : Bool)
  /-- CHANNEL_SCHEDULE, R231: A channel chooses and issues its next command by urgency, rank and age. -/
  | channelSchedule (n : Side) (ch : Fin 8) (ns : Nat) (bank : Option (Fin 16)) (ecc : LineEcc) (srOk : Bool)
  /-- RH_WINDOW_END, R226: A refresh window ends and the row-disturbance tables clear. -/
  | rhWindowEnd (n : Side) (ch : Fin 8)
  /-- URGENCY_RISE, R230: A request's waiting time crosses a fraction of its target and its urgency rises. -/
  | urgencyRise (n : Side) (ch : Fin 8) (id ns : Nat)
  /-- TARGET_EXPIRY, R230: A request is still outstanding after its latency target and breaches it. -/
  | targetExpiry (n : Side) (ch : Fin 8) (id ns : Nat)
  /-- QOS_CLR, R230: A write to QOS_n_CLR clears the port's breach, drop and latency counters. -/
  | qosClr (p : Fin 40) (w : World) (v : Word)
  /-- SIDE_RELEASE, R241: Writing RELEASE starts self-refresh exit and retraining of a frozen side, or is refused. -/
  | sideRelease (n : Side) (w : World) (v : Word)
  /-- SIDE_RETRAIN_DONE, R241: Retraining during a release ends and the side enters RESYNC or returns to FROZEN. -/
  | sideRetrainDone (n : Side) (lanes : List (BitVec 128 × BitVec 128)) (verify : Bool)
  /-- RESYNC_GRANULE_DONE, R241: A granule copy completes, its dirty bit clears, and the side becomes ACTIVE when none remain. -/
  | resyncGranuleDone (n : Side) (g : BitVec 13)
  /-- PATROL_SCRUB, R245: The patrol scrub reads a line and writes back any correction. -/
  | patrolScrub (n : Side) (off : BitVec 34) (ecc : LineEcc) (srOk : Bool)
  /-- TSL_ENABLE, R259: Writing TSL_n_CTRL.EN = 1 starts link bring-up. -/
  | tslEnable (n : Fin 8) (w : World) (v : Word)
  /-- TSL_DISABLE, R259: Writing TSL_n_CTRL.EN = 0 stops the link. -/
  | tslDisable (n : Fin 8) (w : World) (v : Word)
  /-- TSL_ALIGNED, R259: 64 valid aligned upstream symbols have arrived and IDENT_REQ is sent. -/
  | tslAligned (n : Fin 8)
  /-- TSL_IDENT, R259: A valid IDENT frame is received, CONFIG is sent and the link is UP. -/
  | tslIdent (n : Fin 8) (body : List Byte) (crc : BitVec 16)
  /-- TSL_BRINGUP_TIMEOUT, R259: Bring-up has not completed in 100 ms, so RESET is sent and alignment restarts. -/
  | tslBringupTimeout (n : Fin 8)
  /-- TSL_OPEN, R262: An OPEN mark is placed to open integration of a group. -/
  | tslOpen (n : Fin 8) (phase : Fin 80) (instant : Nat)
  /-- TSL_CLOSE, R262: A CLOSE mark is placed to pause integration. -/
  | tslClose (n : Fin 8) (phase : Fin 80) (instant : Nat)
  /-- TSL_CONV, R262: A CONV mark ends a group's conversion. -/
  | tslConv (n : Fin 8) (phase : Fin 80) (instant : Nat)
  /-- TSL_GROUP, R256: An upstream GROUP frame is received and checked. -/
  | tslGroup (n : Fin 8) (body : List Byte) (crc : BitVec 16) (e : ScanEnd)
  /-- TSL_CODE_ERROR, R250: A code violation, disparity error or unknown control symbol is received. -/
  | tslCodeError (n : Fin 8) (inFrame : Bool)
  /-- TSL_ABORT, R250: An ABORT symbol makes the receiver discard the frame in progress. -/
  | tslAbort (n : Fin 8)
  /-- TSL_GROUP_TIMEOUT, R257: A GROUP frame misses its deadline after CONV. -/
  | tslGroupTimeout (n : Fin 8)
  /-- TSL_SILENCE, R261: No valid upstream symbol arrives for 100 µs and the link is lost. -/
  | tslSilence (n : Fin 8)
  /-- TSL_LOST, R261: Eight consecutive discarded scans lose the link, release contacts and restart bring-up. -/
  | tslLost (n : Fin 8)
  /-- TOUCH_ENABLE, R264: Writing TOUCH_n_CTRL.EN = 1 checks the budgets and starts the engine. -/
  | touchEnable (n : Fin 8) (w : World) (v : Word)
  /-- TOUCH_DISABLE, R264: Writing EN = 0 releases contacts with SUSPENDED and turns the engine off. -/
  | touchDisable (n : Fin 8) (w : World) (v : Word)
  /-- TOUCH_SELFTEST, R281: Writing SELFTEST in SERVICE runs the open and short self-test. -/
  | touchSelftest (n : Fin 8) (w : World) (v : Word)
  /-- TOUCH_RECAPTURE, R278: Writing RECAPTURE releases contacts, clears obstructions and enters RECOVERY. -/
  | touchRecapture (n : Fin 8) (w : World) (v : Word)
  /-- TOUCH_HOLD_LIMIT, R277: A contact active for HOLD_LIMIT seconds is released as OBSTRUCTED. -/
  | touchHoldLimit (n : Fin 8) (id : Fin 20)
  /-- BASELINE_LOAD, R288: Writing BL_CMD.LOAD requests a baseline image load. -/
  | baselineLoad (n : Fin 8) (w : World) (v : Word)
  /-- BASELINE_LOAD_RUN, R288: The load is carried out once the link is UP, setting STORED_VALID or LOAD_REJECTED. -/
  | baselineLoadRun (n : Fin 8)
  /-- BASELINE_DUMP, R288: Writing BL_CMD.DUMP writes the baselines at the end of a report. -/
  | baselineDump (n : Fin 8) (w : World) (v : Word)
  /-- HV_ON, R292: Writing HV_ON = 1 raises HV_EN. -/
  | hvOn (w : World) (v : Word)
  /-- HV_OFF, R292: Writing HV_ON = 0 takes every channel to IDLE and schedules HV_EN to fall. -/
  | hvOff (w : World) (v : Word)
  /-- HV_READY, R292: HV_EN has been high for HV_SETTLE and HV_READY becomes 1. -/
  | hvReady
  /-- HV_EN_FALL, R292: HV_EN falls 1 ms after HV_ON is cleared. -/
  | hvEnFall
  /-- HAPTIC_LIB_LOAD, R293: Writing LIB_CMD.LOAD reads the library into the shadow store. -/
  | hapticLibLoad (w : World) (v : Word)
  /-- HAPTIC_LIB_LOAD_DONE, R293: The load ends and the library becomes active or is rejected. -/
  | hapticLibLoadDone
  /-- HAPTIC_PWM_PERIOD, R290: A 4 µs PWM period advances the phase and sets the gate duty. -/
  | hapticPwmPeriod (n : Fin 16)
  /-- HAPTIC_ADC_SAMPLE, R291: The ADC samples a channel's sense input. -/
  | hapticAdcSample (n : Fin 16) (code : BitVec 12)
  /-- BRAKE_TIMEOUT, R297: Braking has run 8 ms and the gates go low. -/
  | brakeTimeout (n : Fin 16)
  /-- HAP_TRIG_EDGE, R298: A qualifying edge on a trigger pin starts its effect as URGENT. -/
  | hapTrigEdge (edges levels : BitVec 4) (beaten : List (Fin 16))
  /-- AUDIO_ENABLE, R305: Writing AUD_0_CTRL.EN = 1 starts the audio unit at the next beat, or is refused. -/
  | audioEnable (w : World) (v : Word)
  /-- AUDIO_DISABLE, R312: Writing EN = 0 stops the unit, unless a TDM port is enabled. -/
  | audioDisable (w : World) (v : Word)
  /-- AUDIO_BLOCK, R306: A block boundary takes guest samples, mixes and stages the block. -/
  | audioBlock (late : List (Fin 24)) (stagedLate : Bool)
  /-- AUDIO_STREAM_DEADLINE, R308: A stream's samples have not returned by B(k) + 500 µs and it contributes silence. -/
  | audioStreamDeadline (k : Fin 24)
  /-- TDM_ENABLE, R312: Writing TDM_n_CTRL.EN = 1 starts the port at the next block boundary, or is refused. -/
  | tdmEnable (n : Fin 2) (w : World) (v : Word)
  /-- TDM_DISABLE, R312: Writing EN = 0 stops the TDM port. -/
  | tdmDisable (n : Fin 2) (w : World) (v : Word)
  /-- TDM_FRAME, R320: A TDM port frame passes and the direct routes move their samples. -/
  | tdmFrame (n : Fin 2) (din : List Word)
  /-- NODE_WRITE, R315: A node gain code is written and waits for a zero crossing. -/
  | nodeWrite (o : Fin 48) (k : Fin 64) (w : World) (v : Word)
  /-- NODE_GAIN_TIMEOUT, R315: No zero crossing within ZC_TIMEOUT, so the new code takes effect. -/
  | nodeGainTimeout (o : Fin 48) (k : Fin 64)
  /-- EQ_SWAP, R319: Writing SWAP exchanges an output's equaliser banks at the next block boundary. -/
  | eqSwap (o : Fin 48) (w : World) (v : Word)
  /-- DIRECT_ROUTE_ENABLE, R321: Setting a direct route's EN is checked and takes effect at the next block boundary. -/
  | directRouteEnable (r : Fin 8) (w : World) (v : Word)
  /-- BELL_SOUND, R324: Writing SOUND = 1 starts a bell voice's cadence. -/
  | bellSound (v : Fin 4) (w : World) (x : Word)
  /-- BELL_STOP, R324: Writing STOP = 1 ends the voice at the next block boundary. -/
  | bellStop (v : Fin 4) (w : World) (x : Word)
  /-- BELL_CADENCE, R324: An ON or OFF period of the cadence ends. -/
  | bellCadence (v : Fin 4)
  /-- CORE_RELEASE, R331: Writing MC_n_CTRL.RUN = 1 releases a core, or is refused for a duplicate HARTID or a worn core. -/
  | coreRelease (n : Fin 5) (w : World) (v : Word)
  /-- CORE_HOLD, R329: Writing RUN = 0 holds the core in reset at once. -/
  | coreHold (n : Fin 5) (w : World) (v : Word)
  /-- ARRAY_ERROR, R389: An on-chip array reports a corrected or uncorrectable error to the collector. -/
  | arrayError (g : Fin 96) (ue srOk : Bool)
  /-- WGATE, R337: A WGATE instruction opens a gate into the secure world, or traps as illegal. -/
  | wgate (c : Fin 5) (g : Fin 64)
  /-- WRET, R339: WRET returns to the normal world, scrubbing or restoring registers by KIND. -/
  | wret (c : Fin 5) (us : Nat)
  /-- SECURE_INTERRUPT, R338: A secure interrupt pre-empts a core in the normal world, saving its registers. -/
  | secureInterrupt (k : Fin 512)
  /-- RES_ARM, R341: Setting RES_ARM starts timing secure residency. -/
  | resArm (w : World) (v : Word)
  /-- RESIDENCY_EXPIRE, R342: A secure entry reaches its residency limit and the core is forced back. -/
  | residencyExpire (c : Fin 5)
  /-- SWDT_ARM, R344: Setting SWDT_ARM arms the secure watchdog. -/
  | swdtArm (w : World) (v : Word)
  /-- SWDT_KICK, R344: A write to SWDT_KICK restarts the watchdog period. -/
  | swdtKick (w : World)
  /-- SWDT_HALF_PERIOD, R344: Half of the watchdog period passes and source 124 is raised. -/
  | swdtHalfPeriod
  /-- SWDT_EXPIRE, R344: The secure watchdog expires and secure services are marked down. -/
  | swdtExpire
  /-- SECURE_RESTART, R345: 1 ms after DOWN, or after a failed attempt, the device restarts the secure world. -/
  | secureRestart (romOk : Bool)
  /-- RESTART_TIMEOUT, R346: A restart has not set UP within RESTART_TIMEOUT and fails. -/
  | restartTimeout
  /-- SECURE_UP, R346: Writing UP ends a restart and clears DOWN and FAILS. -/
  | secureUp (w : World) (v : Word)
  /-- INTERRUPT_DELIVER, R349: A pending source is delivered to a target core's context. -/
  | interruptDeliver (c : Fin 5) (x : Fin 3)
  /-- IRQ_CLAIM, R348: A CLAIM write claims the context's top source. -/
  | irqClaim (c : Fin 5) (x : Fin 3) (w : World) (v : Word)
  /-- IRQ_COMPLETE, R348: A DONE write completes a source in service. -/
  | irqComplete (c : Fin 5) (x : Fin 3) (w : World) (v : Word)
  /-- SOFTWARE_INTERRUPT, R348: A write to IC_0_SWI makes a software source pending. -/
  | softwareInterrupt (w : World) (v : Word)
  /-- OWNER_CLAIM, R352: The secure world sets an owner bit and claims the instance, unless refused. -/
  | ownerClaim (u : Fin 33) (k : Fin 8) (w : World) (v : Word)
  /-- OWNER_RELEASE, R352: The secure world clears an owner bit and releases the instance. -/
  | ownerRelease (u : Fin 33) (k : Fin 8) (w : World) (v : Word)
  /-- GATE_REQUEST, R354: Setting a GATE bit requests that an instance be gated. -/
  | gateRequest (u : Fin 33) (k : Fin 8) (w : World) (v : Word)
  /-- GATE_TAKE_EFFECT, R354: A held gate request takes effect once the instance is unclaimed and idle. -/
  | gateTakeEffect (u : Fin 33) (k : Fin 256)
  /-- GATE_WITHDRAW, R355: Clearing a GATE bit withdraws the request or ungates the instance. -/
  | gateWithdraw (u : Fin 33) (k : Fin 8) (w : World) (v : Word)
  /-- IDCODE, R356: The JTAG IDCODE instruction selects the identification register. -/
  | idcode
  /-- SAMPLE_PRELOAD, R356: SAMPLE/PRELOAD observes the boundary register. -/
  | samplePreload
  /-- EXTEST, R356: EXTEST drives the pins from the boundary register while RESET_N is low. -/
  | extest
  /-- HIGHZ, R356: HIGHZ places the pins high-impedance while RESET_N is low. -/
  | highz
  /-- CLAMP, R356: CLAMP holds the pins from the boundary register while RESET_N is low. -/
  | clamp
  /-- DTMCS, R356: DTMCS accesses the RISC-V debug transport control. -/
  | dtmcs
  /-- DMI, R357: DMI accesses the debug module, subject to the four enables. -/
  | dmi (op : DmiOp)
  /-- UNLOCK_CHAL, R358: UNLOCK_CHAL reads a challenge, drawing a new one where due. -/
  | unlockChal (stale : Bool)
  /-- UNLOCK_TOKEN, R358: A token is shifted into UNLOCK_TOKEN for verification. -/
  | unlockToken (bytes : List Byte)
  /-- UNLOCK_TOKEN_VERIFIED, R358: Token verification ends, opening enables or counting a failure. -/
  | unlockTokenVerified
  /-- UNLOCK_STATUS, R356: UNLOCK_STATUS returns the enables, failures, busy and lockout bits. -/
  | unlockStatus
  /-- BYPASS, R356: BYPASS, or any unknown code, selects the 1-bit register. -/
  | bypass (code : BitVec 5)
  /-- DEBUG_NORMAL_EN, R358: The secure world opens NI or NNI through DBG_0_NORMAL_EN. -/
  | debugNormalEn (w : World) (v : Word)
  /-- RESET_RELEASE, R373: Reset is released and the boot ROM runs the start sequence. -/
  | resetRelease (f : StartFacts)
  /-- RESET_N_ASSERT, R457: RESET_N is driven low and every pin goes high-impedance. -/
  | resetNAssert
  /-- VAON_POWER_ON, R466: VAON powers on and the always-on domain resets. -/
  | vaonPowerOn
  /-- SCRIPT_WRITE, R371: A script WRITE command performs a 32-bit register write. -/
  | scriptWrite
  /-- SCRIPT_MODIFY, R371: A script MODIFY command reads a register and writes back masked bits. -/
  | scriptModify
  /-- SCRIPT_POLL, R371: A script POLL command waits for a masked register value. -/
  | scriptPoll
  /-- SCRIPT_POLL_TIMEOUT, R372: A poll times out, logging if OPTIONAL and otherwise failing the start. -/
  | scriptPollTimeout
  /-- SCRIPT_DELAY, R371: A script DELAY command waits PARAM µs. -/
  | scriptDelay
  /-- SCRIPT_END, R371: A script END command ends the script. -/
  | scriptEnd
  /-- UNDERWAY, R375: Writing BOOT_0_CTRL.UNDERWAY declares underway and clears COUNT. -/
  | underway (w : World) (v : Word)
  /-- START_TIMEOUT, R376: Underway is not declared within 20 s, so START_FAIL is raised. -/
  | startTimeout
  /-- START_RESET, R376: 1 s after a failed start the device takes a start reset. -/
  | startReset
  /-- ANCHOR_CLEAR, R383: Writing ANCHOR_CLEAR in anchor mode sets COUNT to 0. -/
  | anchorClear (w : World) (v : Word)
  /-- FLASH_READ, R384: A BOOT_0_FLASH_CMD read moves bytes from flash to device memory. -/
  | flashRead (w : World) (v : Word)
  /-- FLASH_PROGRAM, R384: A flash program command writes bytes in page-sized pieces, unless refused. -/
  | flashProgram (w : World) (v : Word)
  /-- FLASH_ERASE_4K, R384: A 4 KB erase command erases flash, unless refused. -/
  | flashErase4k (w : World) (v : Word)
  /-- FLASH_ERASE_64K, R384: A 64 KB erase command erases flash, unless refused. -/
  | flashErase64k (w : World) (v : Word)
  /-- FLASH_CMD_DONE, R384: A flash command ends and DONE is set. -/
  | flashCmdDone
  /-- FLASH_TIMEOUT, R384: A page or erase stays busy past 500 ms and ends the command with TIMEOUT. -/
  | flashTimeout (done : Nat)
  /-- FAULT_EVENT, R387: A collector input raises an event, which is classed, recorded and reacted to. -/
  | faultEvent (k : Fin 448) (addr : BitVec 40) (type : Fin 6) (m : Master)
  /-- FAULT_CLASS_WRITE, R390: A CLASS write is clamped to the input's range. -/
  | faultClassWrite (k : Fin 448) (w : World) (v : Word)
  /-- REQUEST_C3, R388: Writing FLT_0_REQUEST.C3 raises SW_C3. -/
  | requestC3 (w : World) (v : Word)
  /-- REQUEST_SCREEN, R388: Writing a SCREENS bit raises SW_SCREEN_n. -/
  | requestScreen (n : Fin 8) (w : World) (v : Word)
  /-- FAULT_RELEASE, R397: A FLT_0_RELEASE write ends a C2 reaction of a scope, or is refused. -/
  | faultRelease (w : World) (v : Word) (clash : Bool)
  /-- FLT_SELF_MISMATCH, R399: The collector copies disagree, raising FLT_SELF and clearing HEALTHY. -/
  | fltSelfMismatch
  /-- TOLL_ARM, R401: Setting TOLL_CTRL.ARM starts the toll and counts as a kick. -/
  | tollArm (w : World) (v : Word)
  /-- TOLL_KICK, R401: A write to TOLL_KICK restarts the kick window, and may resume the toll. -/
  | tollKick (w : World)
  /-- TOLL_TOGGLE, R401: ALIVE toggles at the toll's half period. -/
  | tollToggle
  /-- TOLL_WINDOW_EXPIRE, R402: No kick arrives within WINDOW and the toll stops. -/
  | tollWindowExpire
  /-- SAFE_OK, R403: Setting SAFE_OK drives SAFE_N high, except in anchor mode. -/
  | safeOk (w : World) (v : Word)
  /-- FLT_SELFTEST, R404: Writing SELFTEST.GO starts the collector self-test. -/
  | fltSelftest (w : World) (v : Word)
  /-- FLT_SELFTEST_DONE, R404: The collector self-test ends with PASS, or is abandoned. -/
  | fltSelftestDone (ok : Bool)
  /-- SUPPLY_WARNING, R405: A qualified supply warning begins and the brownout actions are taken. -/
  | supplyWarning (pf : Bool)
  /-- SUPPLY_WARNING_END, R405: Neither warning source holds any more and the recovery interval starts. -/
  | supplyWarningEnd
  /-- BROWNOUT_END, R406: RECOVER_MS passes without a warning, so held writes and full duty resume. -/
  | brownoutEnd (us : Nat) (holds : List Nat)
  /-- SUPPLY_FAIL, R407: A brownout still holds at 50 ms and SUPPLY_FAIL is raised. -/
  | supplyFail
  /-- CRC_GO, R414: Writing GO checks the parameters and starts the descriptor chain. -/
  | crcGo (n : Fin 18) (w : World) (v : Word)
  /-- CRC_COMPUTE, R412: A COMPUTE descriptor is taken and its chunk values are written out. -/
  | crcCompute (n : Fin 18)
  /-- CRC_CHECK, R412: A CHECK descriptor is taken and its chunk values are compared with stored entries. -/
  | crcCheck (n : Fin 18)
  /-- CRC_DESCRIPTOR_DONE, R415: A descriptor completes and the next is fetched, or the chain ends with DONE. -/
  | crcDescriptorDone (n : Fin 18)
  /-- CRC_ABORT, R417: Writing ABORT stops read issue and ends the chain with ABORTED. -/
  | crcAbort (n : Fin 18) (w : World) (v : Word)
  /-- CRC_SELFTEST, R419: Writing SELFTEST runs the unit over the known check values. -/
  | crcSelftest (n : Fin 18) (w : World) (v : Word)
  /-- CRC_SELFTEST_DONE, R419: The self-test ends and ST_DONE and ST_PASS are set. -/
  | crcSelftestDone (n : Fin 18) (ok : Bool)
  /-- RTC_TICK, R420: A 32.768 kHz crystal cycle advances FRAC and SEC. -/
  | rtcTick
  /-- RTC_TRIM, R421: Every 1,048,576 cycles TRIM advances are added or omitted. -/
  | rtcTrim
  /-- RTC_OSC_STOP, R422: No crystal cycle arrives for 1 ms, which sets OSC_STOP and clears VALID. -/
  | rtcOscStop
  /-- RTC_SET, R423: Writing SET = 1 requests a load of the new time. -/
  | rtcSet (w : World) (v : Word)
  /-- RTC_SNAP, R424: Writing SNAP copies SEC and FRAC into the snapshot registers. -/
  | rtcSnap (w : World) (v : Word)
  /-- LOG_WRITER_TAKE, R427: The logbook writer takes a queue entry and writes its record. -/
  | logWriterTake
  /-- LOG_TOKEN_REFILL, R429: A rate bucket gains a token every PERIOD ms. -/
  | logTokenRefill (code : BitVec 16)
  /-- LOG_WRITE, R428: A WR_GO write stages a firmware record into the queue, or is refused. -/
  | logWrite (x : Fin 2) (w : World) (v : Word)
  /-- LOG_WRITE_FOLD, R430: A WR_GO write with FOLD adds to the newest matching record's REPEAT. -/
  | logWriteFold (x : Fin 2) (w : World) (v : Word)
  /-- LOG_CLEAR, R431: A clear sets BASE past HEAD and writes LOG_CLEARED. -/
  | logClear (c : LogClearer)
  /-- BBOX_APPEND, R444: Writing APPEND queues the staged record, or refuses it. -/
  | bboxAppend (w : World) (v : Word)
  /-- BBOX_FLUSH_NOW, R438: Writing FLUSH_NOW commits the pending records. -/
  | bboxFlushNow (w : World) (v : Word)
  /-- BBOX_FLUSH_TIMER, R438: The oldest pending record reaches FLUSH age and a commit starts. -/
  | bboxFlushTimer
  /-- BBOX_PROGRAM_DONE, R438: A flash program of records completes and is verified. -/
  | bboxProgramDone
  /-- BBOX_ERASE_DONE, R437: A 4 KB erase of the page ahead completes. -/
  | bboxEraseDone
  /-- BBOX_LATE, R440: A warning commit exceeds 3 ms, which sets LATE and writes BBOX_LATE. -/
  | bboxLate (us : Nat)
  /-- WEAR_SAMPLE, R447: Once per second each ageing monitor samples its margin. -/
  | wearSample (margins : List (BitVec 16)) (temp : BitVec 16)
  /-- WORN_WRITE, R447: The secure world sets a WORN mark by writing WEAR_0_WORN. -/
  | wornWrite (w : World) (v : Word)
  /-- OTP_BURN, R453: Writing OTP_CMD.GO burns a macro's soft repairs into OTP, or is refused. -/
  | otpBurn (w : World) (v : Word)
  /-- OTP_BURN_DONE, R453: The OTP burn ends and DONE is set. -/
  | otpBurnDone (n : Nat)
  /-- VIN_FRAME_START, R146: A CSI-2 frame start short packet begins a frame, and the receiver chooses a buffer that is neither the latest nor shown by the bound layer. -/
  | vinFrameStart (n : Fin 4) (vc : BitVec 2)
deriving DecidableEq, Repr

end Sys2Proof
end

