-- ==== Sys2Proof/Machine/Bits.lean ====
section
/-! DEFINITION. Bit fields of registers, saturating counts, sign extension and byte order: the small helpers every
unit uses. -/

namespace Sys2Proof.Machine

/-- The place of a register: its offset from the register space at 0x10_0000_0000, from the unit code of R35, the
instance (one 64 KB block each) and the offset in the block (spec/00_scope.md, Registers; R35). -/
abbrev reg (unit inst off : Nat) : Nat := 0x1000000 * unit + 0x10000 * inst + off

/-- One bit field of one register. -/
structure Fld where
  /-- the register's place -/
  addr : Nat
  /-- the field's lowest bit -/
  lo : Nat
  /-- the field's width in bits -/
  width : Nat
deriving DecidableEq, Repr

/-- The bits of `w` from `lo` up, `n` of them, as a number. -/
def getBits (w : Word) (lo n : Nat) : Nat := (w.toNat >>> lo) % 2 ^ n

/-- `w` with the `n` bits from `lo` up replaced by the low bits of `v`. -/
def setBits (w : Word) (lo n v : Nat) : Word :=
  let m : Word := BitVec.ofNat 32 (2 ^ n - 1) <<< lo
  (w &&& ~~~m) ||| ((BitVec.ofNat 32 v <<< lo) &&& m)

/-- A count that stops at the top of an `n`-bit field. -/
def satAdd (n a b : Nat) : Nat := min (a + b) (2 ^ n - 1)

/-- A signed number held in the low `n` bits. -/
def sext (n v : Nat) : Int :=
  let x := v % 2 ^ n
  if x < 2 ^ (n - 1) then (x : Int) else (x : Int) - (2 ^ n : Nat)

/-- The low `n` bits of a signed number. -/
def toBits (n : Nat) (v : Int) : Nat := (v % ((2 ^ n : Nat) : Int)).toNat

/-- A number held between two bounds. -/
def clampNat (lo hi v : Nat) : Nat := if v < lo then lo else if hi < v then hi else v

/-- A signed number held between two bounds. -/
def clampInt (lo hi v : Int) : Int := if v < lo then lo else if hi < v then hi else v

/-- Division of signed numbers by a power of two, rounding down: the arithmetic shift right. -/
def asr (v : Int) (n : Nat) : Int := v / ((2 ^ n : Nat) : Int)

/-- The number that bytes spell, the first byte lowest (little-endian, R3). -/
def leNat : List Byte → Nat
  | [] => 0
  | b :: bs => b.toNat + 256 * leNat bs

/-- The number that bytes spell, the first byte highest (big-endian). -/
def beNat (bs : List Byte) : Nat := bs.foldl (fun a b => 256 * a + b.toNat) 0

/-- The lowest `n` bytes of a number, the lowest first. -/
def leBytes : Nat → Nat → List Byte
  | 0, _ => []
  | n + 1, v => BitVec.ofNat 8 v :: leBytes n (v / 256)

/-- The lowest `n` bytes of a number, the highest first. -/
def beBytes (n v : Nat) : List Byte := (leBytes n v).reverse

/-- A byte of a list by its place, as a number; 0 beyond the end. -/
def byteAt (bs : List Byte) (i : Nat) : Nat := (bs.getD i 0).toNat

/-- Bytes of a list as a little-endian number, by place and length. -/
def leAt (bs : List Byte) (i n : Nat) : Nat := leNat ((bs.drop i).take n)

/-- Ceiling division. -/
def ceilDiv (a b : Nat) : Nat := (a + b - 1) / b

/-- Whether bit `i` of a number is 1. -/
def bitOf (v i : Nat) : Bool := v / 2 ^ i % 2 == 1

/-- A number with its bit `i` set. -/
def setBitOf (v i : Nat) : Nat := if bitOf v i then v else v + 2 ^ i

/-- A number with its bit `i` cleared. -/
def clearBitOf (v i : Nat) : Nat := if bitOf v i then v - 2 ^ i else v

/-- How many of the low `n` bits are 1. -/
def popCount (n v : Nat) : Nat := ((List.range n).filter (bitOf v)).length

/-- 1 for true, 0 for false: a one-bit field's value. -/
def b2n (b : Bool) : Nat := if b then 1 else 0

/-- R10: frame number `a` is later than `b`, modulo 2³². -/
def frameLater (a b : Nat) : Bool :=
  let d := (a + 2 ^ 32 - b % 2 ^ 32) % 2 ^ 32
  1 ≤ d && d ≤ 2 ^ 31 - 1

/-- The first element of `0, 1, …, n - 1` that a test picks. -/
def firstBelow (n : Nat) (p : Nat → Bool) : Option Nat := (List.range n).find? p

end Sys2Proof.Machine
end

