-- ==== Sys2Proof/Machine/CrcMath.lean ====
section
/-! DEFINITION. The check-value calculation of R408, with the parameter sets the device's own check values use
(R174, R253). -/

namespace Sys2Proof.Machine

/-- The parameters of a check value (R408). -/
structure CrcParams where
  /-- W, 8 to 64 -/
  width : Nat
  /-- polynomial in normal form, the top term implied -/
  poly : Nat
  /-- initial value -/
  init : Nat
  /-- final XOR -/
  xorout : Nat
  /-- input bytes reflected -/
  refin : Bool
  /-- output reflected -/
  refout : Bool
deriving DecidableEq, Repr

/-- The low `n` bits of a number in reverse order. -/
def reflectBits (n v : Nat) : Nat :=
  (List.range n).foldl (fun a i => a * 2 + v / 2 ^ i % 2) 0

/-- One shift of the register (R408). -/
def crcShift (p : CrcParams) (r : Nat) : Nat :=
  if r / 2 ^ (p.width - 1) % 2 = 1 then ((r * 2) ^^^ p.poly) % 2 ^ p.width else (r * 2) % 2 ^ p.width

/-- One byte fed to the register (R408). -/
def crcByte (p : CrcParams) (r : Nat) (b : Byte) : Nat :=
  let v := if p.refin then reflectBits 8 b.toNat else b.toNat
  let r := r ^^^ (v * 2 ^ (p.width - 8))
  crcShift p (crcShift p (crcShift p (crcShift p (crcShift p (crcShift p (crcShift p (crcShift p r)))))))

/-- R408: the check value of a byte sequence. -/
def crc (p : CrcParams) (bytes : List Byte) : Nat :=
  let r := bytes.foldl (crcByte p) p.init
  (if p.refout then reflectBits p.width r else r) ^^^ p.xorout

/-- CRC-32C (R174). -/
def crc32cParams : CrcParams :=
  { width := 32, poly := 0x1EDC6F41, init := 0xFFFFFFFF, xorout := 0xFFFFFFFF, refin := true, refout := true }

/-- The other sets of the table of known check values (R408, R253). -/
def crc8Params : CrcParams := { width := 8, poly := 0x07, init := 0, xorout := 0, refin := false, refout := false }
/-- CRC-16/CCITT with initial value 0xFFFF, as on the Silvos link (R253). -/
def crc16Params : CrcParams :=
  { width := 16, poly := 0x1021, init := 0xFFFF, xorout := 0, refin := false, refout := false }
/-- CRC-32. -/
def crc32Params : CrcParams :=
  { width := 32, poly := 0x04C11DB7, init := 0xFFFFFFFF, xorout := 0xFFFFFFFF, refin := true, refout := true }
/-- CRC-64/XZ. -/
def crc64Params : CrcParams :=
  { width := 64, poly := 0x42F0E1EBA9EA3693, init := 0xFFFFFFFFFFFFFFFF, xorout := 0xFFFFFFFFFFFFFFFF, refin := true,
    refout := true }

/-- CRC-32C of bytes (R174). -/
def crc32c (bytes : List Byte) : Nat := crc crc32cParams bytes

/-- CRC-16/CCITT of bytes (R253). -/
def crc16 (bytes : List Byte) : Nat := crc crc16Params bytes

/-- The nine bytes "123456789" of the known check values. -/
def crcTestBytes : List Byte := [0x31, 0x32, 0x33, 0x34, 0x35, 0x36, 0x37, 0x38, 0x39]

/-- R174: the 16-byte prefix that folds an address and a sequence number in. -/
def checkPrefix (addr seq : Nat) : List Byte := leBytes 8 addr ++ leBytes 8 seq

end Sys2Proof.Machine
end

