-- ==== Sys2Proof/Config.lean ====
section
/-! DEFINITION. What one part of the device fixes and the spec does not: fuses, ROM, fonts, random draws and the
free values. Every constant here is opaque: a claim about the model holds whatever its value is. -/

namespace Sys2Proof.Config

/-- A free value: what the spec leaves open and the device goes on from. Each use takes the next number of the
state's counter (log entry 1). -/
opaque freeValue : Nat → BitVec 64

/-- The grade fuse of SYS_0_ID (R1, R2): the spec names its codes and leaves the part open (log entry 2). -/
opaque gradeFuse : BitVec 4

/-- The unit code of large SRAM macro m (WEAR_0_MACRO_m.UNIT reads 'by macro', R452; log entry 3). -/
opaque macroUnit : Nat → BitVec 8

/-- The instance of large SRAM macro m (R452; log entry 3). -/
opaque macroInstance : Nat → BitVec 8

/-- The hard repairs of macro m held in OTP: rows in the high three bits, columns in the low two (R452, R453). -/
opaque macroHardRows : Nat → BitVec 3

/-- The hard column repairs of macro m held in OTP (R452, R453). -/
opaque macroHardCols : Nat → BitVec 2

/-- The bytes of the boot ROM, by offset (the address map of R33 names the ROM; the spec does not list its bytes). -/
opaque bootRom : Nat → BitVec 8

/-- The port's font of hexadecimal digits (R191): row 0 to 15 of a digit, the leftmost pixel in bit 7; the spec does not
draw it. -/
opaque harbourFont : Nat → Nat → BitVec 8

/-- The device serial read through UNLOCK_CHAL (R356, R434). -/
opaque deviceSerial : BitVec 64

/-- Ihlavo Devices' PCI vendor identifier, fused at test (R46). -/
opaque vendorId : BitVec 16

/-- Where the MSI-X capability lies among words 16 to 63 of a function's configuration space: the spec gives the capability (R46) and
no place (log entry 6). -/
opaque msixPlace : Fin 46

/-- Where the first of the two extended capabilities lies among words 64 to 1023, the gap after it, and whether it is SR-IOV (R46) or
Advanced Error Reporting (R48): the spec gives no place, and the two do not overlap (log entry 6). -/
opaque extPlace : Fin 925
/-- The gap after the first extended capability. -/
opaque extGap : Nat
/-- Whether SR-IOV is the first extended capability. -/
opaque sriovFirst : Bool

/-- The first word of the MSI-X capability. -/
def msixWord : Nat := 16 + msixPlace.val

/-- The first word of the extended capability that comes first, and of the other, which leaves it room. -/
def extWord (first : Bool) : Nat :=
  if first then 64 + extPlace.val else 64 + (extPlace.val + 18 + extGap % (925 - extPlace.val))

/-- The first word of the SR-IOV capability of the physical function. -/
def sriovWord : Nat := extWord sriovFirst

/-- The first word of the Advanced Error Reporting capability. -/
def aerWord : Nat := extWord (!sriovFirst)

/-- What mtval and stval hold after an illegal-instruction trap, by the instruction's word: the RISC-V privileged
architecture leaves it to the implementation, and the spec does not say. -/
opaque illegalTval : BitVec 32 → BitVec 64

/-- How many triggers a core has (R357): the spec gives triggers and no number. -/
opaque triggerCount : BitVec 5

/-- The 32-bit identification register of the JTAG port (R356): the spec gives no value. -/
opaque idcode : BitVec 32

/-- The key hash held in OTP for debug tokens (R358): SHA-256 of the key, as a number. -/
opaque tokenKeyHash : BitVec 256

/-- The key hash held in OTP for slots (R366): SHA-384 of the key, as a number. -/
opaque slotKeyHash : BitVec 384

end Sys2Proof.Config
end

