-- ==== Sys2Proof/Machine/FaultTable.lean ====
section
/-! DEFINITION. The fault collector's table of inputs: source unit and instance (R483, R484), span, whether the
condition lasts, and the class with its range (R388, R389). -/

namespace Sys2Proof.Machine

/-- One input of the collector as R388 and R483 give it. -/
structure FltInput where
  /-- unit code of the source -/
  unit : Nat
  /-- instance, or the first of an array group; 0xFF for every instance -/
  inst : Nat
  /-- number of instances minus 1, for array groups -/
  span : Nat := 0
  /-- the input has a lasting condition -/
  level : Bool := false
  /-- reset class -/
  cls : Nat := 0
  /-- lowest class of the range -/
  lo : Nat := 0
  /-- highest class of the range -/
  hi : Nat := 0
deriving DecidableEq, Repr

/-- The unit, first instance and span of array group g (R484). -/
def arrayGroup (g : Nat) : Nat × Nat × Nat :=
  if g ≤ 9 then (0x03, g, 0)
  else if g ≤ 11 then (0x0A, g - 10, 0)
  else if g ≤ 16 then (0x16, g - 12, 0)
  else if g = 17 then (0x00, 0, 0)
  else if g ≤ 25 then (0x02, g - 18, 0)
  else if g ≤ 33 then (0x04, g - 26, 0)
  else if g ≤ 41 then (0x07, g - 34, 0)
  else if g ≤ 45 then (0x09, g - 42, 0)
  else if g ≤ 53 then (0x06, 8 * (g - 46), 7)
  else if g ≤ 65 then (0x08, 2 * (g - 54), 1)
  else if g ≤ 67 then (0x0B, g - 66, 0)
  else if g = 68 then (0x12, 0, 0)
  else if g ≤ 76 then (0x0F, g - 69, 0)
  else if g ≤ 84 then (0x10, g - 77, 0)
  else if g = 85 then (0x13, 0, 0)
  else if g = 86 then (0x14, 0, 1)
  else if g = 87 then (0x15, 0, 0)
  else if g = 88 then (0x05, 0, 0)
  else if g = 89 then (0x0C, 0, 39)
  else if g = 90 then (0x0D, 0, 3)
  else if g = 91 then (0x0E, 0, 255)
  else if g = 92 then (0x18, 0, 0)
  else if g = 93 then (0x1A, 0, 0)
  else if g = 94 then (0x1B, 0, 0)
  else (0x19, 0, 17)

/-- The reset class of ARRAY_UE for a unit (R389): C1 where a reserve exists, C2 where the scope is smaller than the
device, C3 elsewhere. -/
def arrayUeClass (unit : Nat) : Nat :=
  match unit with
  | 0x03 | 0x0A | 0x16 => 1
  | 0x02 | 0x07 | 0x04 | 0x06 | 0x08 | 0x09 | 0x0B | 0x12 | 0x0F | 0x10 | 0x13 | 0x14 | 0x15 => 2
  | _ => 3

/-- R388 with R483: the table of inputs; an input not listed is never raised. -/
def fltInput (k : Nat) : Option FltInput :=
  if k ≤ 2 then some { unit := 0x00, inst := 0 }
  else if k = 3 then some { unit := 0x01, inst := 0, level := true, cls := 1, lo := 1, hi := 3 }
  else if k = 4 then some { unit := 0x20, inst := 0, level := true, cls := 1, lo := 1, hi := 1 }
  else if k = 5 then some { unit := 0x20, inst := 0, cls := 3, lo := 3, hi := 3 }
  else if k = 6 then some { unit := 0x00, inst := 0, level := true, cls := 1, lo := 1, hi := 3 }
  else if k = 7 then some { unit := 0x0A, inst := 0xFF, level := true, cls := 2, lo := 2, hi := 3 }
  else if k = 8 then some { unit := 0x0B, inst := 0xFF, cls := 3, lo := 3, hi := 3 }
  else if k ≤ 10 then some { unit := 0x1E, inst := 0, cls := 3, lo := 3, hi := 3 }
  else if k ≤ 12 then some { unit := 0x18, inst := 0, cls := 3, lo := 3, hi := 3 }
  else if k < 16 then none
  else if k ≤ 23 then some { unit := 0x02, inst := k - 16, cls := 2, lo := 2, hi := 3 }
  else if k < 32 then none
  else if k ≤ 41 then some { unit := 0x03, inst := k - 32, cls := 1, lo := 1, hi := 3 }
  else if k ≤ 51 then some { unit := 0x03, inst := k - 42, cls := 1, lo := 1, hi := 3 }
  else if k ≤ 61 then some { unit := 0x03, inst := k - 52, cls := 1, lo := 1, hi := 1 }
  else if k < 64 then none
  else if k ≤ 71 then some { unit := 0x02, inst := k - 64, level := true, cls := 1, lo := 1, hi := 2 }
  else if k ≤ 73 then some { unit := 0x0A, inst := k - 72, cls := 1, lo := 1, hi := 3 }
  else if k ≤ 75 then some { unit := 0x0A, inst := k - 74, cls := 1, lo := 1, hi := 3 }
  else if k < 80 then none
  else if k ≤ 87 then some { unit := 0x07, inst := k - 80, cls := 2, lo := 2, hi := 3 }
  else if k ≤ 95 then some { unit := 0x07, inst := k - 88, level := true }
  else if k ≤ 103 then some { unit := 0x04, inst := k - 96, level := true, cls := 2, lo := 2, hi := 3 }
  else if k ≤ 111 then some { unit := 0x04, inst := k - 104, level := true, cls := 1, lo := 1, hi := 2 }
  else if k ≤ 119 then some { unit := 0x04, inst := k - 112, level := true }
  else if k < 128 then none
  else if k ≤ 129 then some { unit := 0x0B, inst := k - 128, level := true, cls := 2, lo := 2, hi := 3 }
  else if k ≤ 131 then some { unit := 0x0B, inst := k - 130 }
  else if k ≤ 133 then some { unit := 0x0B, inst := k - 132 }
  else if k ≤ 135 then some { unit := 0x0B, inst := k - 134 }
  else if k < 144 then none
  else if k ≤ 148 then some { unit := 0x16, inst := k - 144, cls := 1, lo := 1, hi := 3 }
  else if k < 160 then none
  else if k ≤ 167 then some { unit := 0x0F, inst := k - 160, level := true, hi := 2 }
  else if k ≤ 175 then some { unit := 0x10, inst := k - 168 }
  else if k ≤ 183 then some { unit := 0x10, inst := k - 176 }
  else if k ≤ 191 then some { unit := 0x10, inst := k - 184, hi := 2 }
  else if k ≤ 207 then some { unit := 0x11, inst := k - 192, level := true, cls := 2, lo := 2, hi := 3 }
  else if k < 256 then none
  else if k ≤ 351 then
    let g := arrayGroup (k - 256)
    some { unit := g.1, inst := g.2.1, span := g.2.2 }
  else if k ≤ 447 then
    let g := arrayGroup (k - 352)
    let c := arrayUeClass g.1
    some { unit := g.1, inst := g.2.1, span := g.2.2, cls := c, lo := c, hi := 3 }
  else none

/-- What FLT_0_IN_k_CFG holds after reset (R388, R483, R484); 0 for an input that is not used. -/
def fltCfgReset (k : Nat) : Word :=
  match fltInput k with
  | none => 0
  | some f => BitVec.ofNat 32 (f.span * 2 ^ 24 + f.hi * 2 ^ 22 + f.lo * 2 ^ 20 + b2n f.level * 2 ^ 19
      + f.cls * 2 ^ 16 + f.unit * 2 ^ 8 + f.inst)

end Sys2Proof.Machine
end

