-- ==== Sys2Proof/Machine/RegReset.lean ====
section
/-! DEFINITION. A row of the register map, and the reset values that a rule gives by instance or by index rather than
as one number. -/

namespace Sys2Proof.Machine

/-- How a register's reset value depends on its instance or index. -/
inductive ResetRule where
  | none | fuse | sess01 | inst | mtxA | mtxB | coefH | coefV | lut | sxt | harbCol | qos | tslFreq | hpf | eq
  | icWorld | own | mc | flt | sramMacro
deriving DecidableEq, Repr

/-- One row of a register table: a register, or an array of registers, of every instance of a unit. -/
structure RegRow where
  /-- the spec's name -/
  name : String
  /-- offset in the block -/
  off : Nat
  /-- dimensions of an array, outermost first: count and stride -/
  dims : List (Nat × Nat)
  /-- RW bits -/
  rw : Word := 0
  /-- W1C bits -/
  w1c : Word := 0
  /-- W1S bits -/
  w1s : Word := 0
  /-- RWL bits -/
  rwl : Word := 0
  /-- WO bits -/
  wo : Word := 0
  /-- RWS bits -/
  rws : Word := 0
  /-- the part of the reset value that is one number -/
  reset : Word := 0
  /-- the part that depends on instance or index -/
  special : ResetRule := .none
deriving DecidableEq, Repr

/-- The indices at which a row's array holds offset `d` past its start. -/
def rowIndex : List (Nat × Nat) → Nat → Option (List Nat)
  | [], d => if d = 0 then some [] else none
  | (c, st) :: ds, d =>
    if d / st < c then (rowIndex ds (d % st)).map (d / st :: ·) else none

/-- The first row of a table that holds an offset, with the indices it holds it at. -/
def findRow : List RegRow → Nat → Option (RegRow × List Nat)
  | [], _ => none
  | r :: rs, off =>
    if off < r.off then findRow rs off
    else match rowIndex r.dims (off - r.off) with
      | some ix => some (r, ix)
      | none => findRow rs off

/-- The class of requester port p while it serves nothing (R229). -/
def portClass (p : Nat) : Nat :=
  if p ≤ 9 then 7 else if p ≤ 11 then 0 else if p ≤ 15 then 5 else if p ≤ 23 then 6
  else if p = 24 then 2 else if p = 25 then 3 else if p = 26 then 4 else 7

/-- The rank under R37 of a class code (R229). -/
def classRank (c : Nat) : Nat := c + 3

/-- The latency target of requester port p at reset (QOS_n_CFG.TARGET, R232). -/
def portTarget (p : Nat) : Nat :=
  if p ≤ 11 then 1000000
  else match portClass p with
    | 2 => 100000 | 3 => 5000 | 4 => 50000 | 5 => 100000 | 6 => 20000 | _ => 1000000

/-- The number of instances of the units whose owner is secure and fixed (R350). -/
def fixedSecure (u : Nat) : Nat :=
  match u with
  | 0x07 => 8 | 0x0A => 2 | 0x15 => 1 | 0x18 => 1 | 0x1B => 1 | 0x0B => 2 | 0x0C => 40 | 0x16 => 5 | 0x1D => 1
  | 0x1E => 1 | 0x1C => 1 | _ => 0

/-- Whether a source's event belongs to the secure world at reset (the source table of IC_0). -/
def icSecureSource (k : Nat) : Bool :=
  (1 ≤ k && k ≤ 8) || (33 ≤ k && k ≤ 54) || k == 99 || k == 119 || k == 120 || k == 121 || k == 123
  || k == 124 || k == 125 || (128 ≤ k && k ≤ 191)

/-- R318: the coefficients b0, b1, b2, a1, a2 of the high-pass at 20 × k Hz, times 2²⁸, rounded to nearest. -/
def hpfRom : List (List Int) := [
  [0, 0, 0, 0, 0],
  [267938988, -535877975, 267938988, -535877057, 267443437],
  [267443437, -534886875, 267443437, -534883209, 266455085],
  [266948804, -533897608, 266948804, -533889374, 265470385],
  [266455085, -532910170, 266455085, -532895559, 264489324],
  [265962279, -531924558, 265962279, -531901772, 263511889],
  [265470385, -530940769, 265470385, -530908017, 262538066],
  [264979400, -529958799, 264979400, -529914301, 261567841]] ++ [
  [264489323, -528978645, 264489323, -528920632, 260601202],
  [264000152, -528000303, 264000152, -527927014, 259638136],
  [263511885, -527023770, 263511885, -526933455, 258678628],
  [263024521, -526049042, 263024521, -525939961, 257722667],
  [262538058, -525076115, 262538058, -524946537, 256770238],
  [262052494, -524104987, 262052494, -523953189, 255821329],
  [261567827, -523135653, 261567827, -522959924, 254875927],
  [261084055, -522168111, 261084055, -521966747, 253934019]]

/-- Coefficient c of the high-pass with corner k (R318). -/
def hpfCoef (k c : Nat) : Int := (hpfRom.getD k []).getD c 0

/-- The part of a register's reset value that depends on its instance and indices. -/
def ResetRule.eval (r : ResetRule) (unit off inst : Nat) (ix : List Nat) : Word :=
  let i := ix.getD 0 0
  match r with
  | .none => 0
  | .fuse => Config.gradeFuse.zeroExtend 32 <<< 12
  | .sess01 => if inst ≤ 1 then 1 else 0
  | .inst =>
    -- SESS PAGE_ID, SCREEN CTRL (PIPE and PORT), TOUCH CTRL (SCREEN)
    if unit = 0x02 then BitVec.ofNat 32 (inst * 2 ^ 8 + inst * 2 ^ 4)
    else if unit = 0x10 then BitVec.ofNat 32 (inst * 2 ^ 16)
    else BitVec.ofNat 32 inst
  | .mtxA => if i = 0 then 0x1000 else if i = 1 then 0x10000000 else 0
  | .mtxB => if i = 2 then 0x1000 else 0
  | .coefH => if i % 4 = 1 then 0x04000000 else 0
  | .coefV => if i % 3 = 1 then 0x00000400 else 0
  | .lut => BitVec.ofNat 32 (16 * ix.getD 1 0)
  | .sxt => if inst = 0 then 0x00FF0000 else 1
  | .harbCol => if i = 0 then BitVec.ofNat 32 (0x40 * 2 ^ 20 + 0x40 * 2 ^ 10 + 0x40)
      else BitVec.ofNat 32 (0x3FF * 2 ^ 20 + 0x2C0 * 2 ^ 10)
  | .qos => BitVec.ofNat 32 (b2n (inst ≤ 11) * 2 ^ 31 + portClass inst * 2 ^ 28 + portTarget inst)
  | .tslFreq => BitVec.ofNat 32 (180 + 20 * i)
  | .hpf => BitVec.ofInt 32 (hpfCoef i (ix.getD 1 0))
  | .eq => if ix.getD 3 0 = 0 then 0x10000000 else 0
  | .icWorld => if icSecureSource i then 0x40000000 else 0
  | .own => BitVec.ofNat 32 ((2 ^ fixedSecure i - 1) / 2 ^ (32 * ix.getD 1 0))
  | .mc => if off = 0 then BitVec.ofNat 32 (inst * 2 ^ 8 + b2n (inst == 0))
      else if inst = 0 then 0x9 else 0
  | .flt => fltCfgReset i
  | .sramMacro => (Config.macroUnit i).zeroExtend 32 <<< 24 ||| (Config.macroInstance i).zeroExtend 32 <<< 16
      ||| (Config.macroHardRows i).zeroExtend 32 <<< 13 ||| (Config.macroHardCols i).zeroExtend 32 <<< 8

end Sys2Proof.Machine
end

