-- ==== Sys2Proof/Machine/RegMap.lean ====
section
/-! DEFINITION. The register map: for every unit, each register's place, the bits of each access type (R7), and its
reset value, read from the register tables of the spec's chapters. A bit in no mask is reserved (R5) or read-only. -/

namespace Sys2Proof.Machine

/-- Registers of SYS. -/
def rowsSYS : List RegRow := [
  { name := "ID", off := 0x0, dims := [], reset := 0x8c00a10#32, special := .fuse },
  { name := "BREACH", off := 0x108, dims := [(9, 4)], reset := 0x3f00#32 },
  { name := "BREACH_CLR", off := 0x140, dims := [], wo := 0x7fc#32 },
  { name := "SEC_CTRL", off := 0x400, dims := [], rw := 0x7fff0008#32, w1s := 0x80000013#32, reset := 0x3e80008#32 },
  { name := "SEC_STATUS", off := 0x404, dims := [], w1c := 0x2#32 },
  { name := "SWDT", off := 0x408, dims := [], rw := 0xffff#32, reset := 0x64#32 },
  { name := "SWDT_KICK", off := 0x40c, dims := [], wo := 0xffffffff#32 },
  { name := "SRAM_SPLIT", off := 0x410, dims := [], rwl := 0x7f#32, reset := 0x40#32 },
  { name := "SEC_ENTRY", off := 0x418, dims := [], rwl := 0xffffffff#32, reset := 0xff00000#32 },
  { name := "OWN_STATUS", off := 0x4c0, dims := [], w1c := 0x1#32 },
  { name := "SECMEM_BASE", off := 0x440, dims := [(16, 8)], rwl := 0x3fff#32 },
  { name := "SECMEM_SIZE", off := 0x444, dims := [(16, 8)], rwl := 0x80003fff#32 },
  { name := "OWN", off := 0x1000, dims := [(33, 64), (8, 4)], rw := 0xffffffff#32, special := .own }]

/-- Registers of DRUM. -/
def rowsDRUM : List RegRow := [
  { name := "CTRL", off := 0x0, dims := [], rw := 0x7#32 },
  { name := "DIV_INT", off := 0x4, dims := [], rw := 0x3ffff#32, reset := 0x196e6#32 },
  { name := "DIV_FRAC", off := 0x8, dims := [], rw := 0xffffffff#32, reset := 0x30002#32 },
  { name := "STATUS", off := 0xc, dims := [], w1c := 0x1c#32 },
  { name := "COUNT_LO", off := 0x10, dims := [] },
  { name := "COUNT_HI", off := 0x14, dims := [] }]

/-- Registers of GP. -/
def rowsGP : List RegRow := [
  { name := "CTRL", off := 0x0, dims := [], w1s := 0x80000000#32, rwl := 0x1f0f33#32, reset := 0x190f30#32 },
  { name := "STATUS", off := 0x4, dims := [], w1c := 0x30000#32 },
  { name := "SUBSYS", off := 0x8, dims := [], rwl := 0xffffffff#32 }]

/-- Registers of SESS, part 1. -/
def rowsSESS0 : List RegRow := [
  { name := "CTRL", off := 0x1000, dims := [], w1s := 0x80000000#32, rwl := 0xff31f#32, special := .sess01 },
  { name := "STATUS", off := 0x1004, dims := [], w1c := 0x700#32, special := .sess01 },
  { name := "QUOTA", off := 0x1008, dims := [], rwl := 0xfff#32 },
  { name := "PAGE_ID", off := 0x0, dims := [], special := .inst },
  { name := "PAGE_STATUS", off := 0x4, dims := [], w1c := 0xe#32 },
  { name := "RES_LAYER", off := 0x20, dims := [] },
  { name := "RES_OTHER", off := 0x24, dims := [] },
  { name := "SEM", off := 0x100, dims := [(16, 4)], rw := 0xffffffff#32 },
  { name := "SEM_ADD", off := 0x140, dims := [(16, 4)], wo := 0xffffffff#32 },
  { name := "DB_HAPTIC", off := 0x10, dims := [], wo := 0x13f03#32 },
  { name := "TQ_BASE", off := 0x200, dims := [], rw := 0xfffffff#32 },
  { name := "TQ_CTRL", off := 0x204, dims := [], rw := 0xf0001#32, reset := 0x40000#32 },
  { name := "TQ_WR", off := 0x208, dims := [] },
  { name := "TQ_RD", off := 0x20c, dims := [], rw := 0xfff#32 },
  { name := "TQ_STATUS", off := 0x210, dims := [], w1c := 0x1#32 },
  { name := "AS_BASE", off := 0x300, dims := [(8, 32)], rw := 0xfffffff#32 },
  { name := "AS_CTRL", off := 0x304, dims := [(8, 32)], rw := 0xffff0001#32, reset := 0x20000#32 },
  { name := "AS_RD", off := 0x308, dims := [(8, 32)] },
  { name := "AS_WR", off := 0x30c, dims := [(8, 32)], rw := 0x3fffff#32 },
  { name := "AS_STATUS", off := 0x310, dims := [(8, 32)] }]

/-- Registers of SESS, part 2. -/
def rowsSESS1 : List RegRow := [
  { name := "IRQ_STATUS", off := 0xd00, dims := [], w1c := 0xff0f#32 },
  { name := "IRQ_ENABLE", off := 0xd04, dims := [], rw := 0xff0f#32 },
  { name := "IRQ_VECTOR", off := 0xd08, dims := [], rw := 0x1f#32 },
  { name := "RD_SEQ", off := 0xe08, dims := [], rw := 0xffffffff#32 },
  { name := "WIN_DEV", off := 0x1100, dims := [(16, 16)], rwl := 0x7ffff#32 },
  { name := "WIN_GOFF", off := 0x1104, dims := [(16, 16)], rwl := 0x1fff#32 },
  { name := "WIN_CTRL", off := 0x1108, dims := [(16, 16)], rwl := 0x33fff#32 },
  { name := "LOGV_HEAD", off := 0xe00, dims := [], reset := 0xffffffff#32 },
  { name := "LOGV_BASE", off := 0xe04, dims := [] },
  { name := "LOGV_CLEAR", off := 0xe0c, dims := [], wo := 0x1#32 },
  { name := "LOGV_RD_W", off := 0xe20, dims := [(8, 4)] }]

/-- Registers of SESS. -/
def rowsSESS : List RegRow := rowsSESS0 ++ rowsSESS1

/-- Registers of LAYER, part 1. -/
def rowsLAYER0 : List RegRow := [
  { name := "OWNER", off := 0xfff0, dims := [], w1c := 0x40000000#32, w1s := 0x80000000#32, rwl := 0xf1ff#32 },
  { name := "BIND", off := 0x100, dims := [], w1c := 0x40000000#32, w1s := 0x80000000#32, rwl := 0x1df7#32 },
  { name := "READY_POLICY", off := 0x104, dims := [], rwl := 0x3ff#32, reset := 0x8#32 },
  { name := "FILL", off := 0x108, dims := [], rwl := 0xffffffff#32, reset := 0xff000000#32 },
  { name := "ACT_ADDR", off := 0x110, dims := [(3, 4)] },
  { name := "CTRL", off := 0x0, dims := [], rws := 0x1f7f7#32 },
  { name := "SRC_ADDR", off := 0x4, dims := [(3, 4)], rws := 0x3ffffff#32 },
  { name := "SRC_STRIDE", off := 0x10, dims := [], rws := 0xffffffff#32 },
  { name := "SRC_POS", off := 0x14, dims := [], rws := 0xffffffff#32 },
  { name := "SRC_SIZE", off := 0x18, dims := [], rws := 0xffffffff#32 },
  { name := "DST_POS", off := 0x1c, dims := [], rws := 0xffffffff#32 },
  { name := "DST_SIZE", off := 0x20, dims := [], rws := 0xffffffff#32 },
  { name := "SCALE", off := 0x24, dims := [], rws := 0x1f7#32 },
  { name := "COEF_ADDR", off := 0x28, dims := [], rws := 0x3ffffff#32 },
  { name := "PAL_ADDR", off := 0x2c, dims := [], rws := 0x3ffffff#32 },
  { name := "BLEND", off := 0x30, dims := [], rws := 0x303ff#32, reset := 0x3ff#32 },
  { name := "CSC_CTRL", off := 0x34, dims := [], rws := 0x3#32 },
  { name := "MTX_A", off := 0x38, dims := [(3, 8)], rws := 0xffffffff#32, special := .mtxA },
  { name := "MTX_B", off := 0x3c, dims := [(3, 8)], rws := 0x1fffffff#32, special := .mtxB },
  { name := "COMMIT", off := 0x60, dims := [], wo := 0xff#32 }]

/-- Registers of LAYER, part 2. -/
def rowsLAYER1 : List RegRow := [
  { name := "COMMIT_FRAME", off := 0x64, dims := [], rw := 0xffffffff#32 },
  { name := "FENCE_VALUE", off := 0x68, dims := [], rw := 0xffffffff#32 },
  { name := "COMMIT_STATUS", off := 0x6c, dims := [] },
  { name := "APPLIED_FRAME", off := 0x70, dims := [], reset := 0xffffffff#32 },
  { name := "STATUS", off := 0x74, dims := [], w1c := 0xf#32 },
  { name := "VIN_FRAME", off := 0x78, dims := [] },
  { name := "ACT_CTRL", off := 0x200, dims := [] },
  { name := "ACT_SRC_ADDR", off := 0x204, dims := [(3, 4)] },
  { name := "ACT_SRC_STRIDE", off := 0x210, dims := [] },
  { name := "ACT_SRC_POS", off := 0x214, dims := [] },
  { name := "ACT_SRC_SIZE", off := 0x218, dims := [] },
  { name := "ACT_DST_POS", off := 0x21c, dims := [] },
  { name := "ACT_DST_SIZE", off := 0x220, dims := [] },
  { name := "ACT_SCALE", off := 0x224, dims := [] },
  { name := "ACT_COEF_ADDR", off := 0x228, dims := [] },
  { name := "ACT_PAL_ADDR", off := 0x22c, dims := [] },
  { name := "ACT_BLEND", off := 0x230, dims := [], reset := 0x3ff#32 },
  { name := "ACT_CSC_CTRL", off := 0x234, dims := [] },
  { name := "ACT_MTX_A", off := 0x238, dims := [(3, 8)], special := .mtxA },
  { name := "ACT_MTX_B", off := 0x23c, dims := [(3, 8)], special := .mtxB }]

/-- Registers of LAYER. -/
def rowsLAYER : List RegRow := rowsLAYER0 ++ rowsLAYER1

/-- Registers of SCL. -/
def rowsSCL : List RegRow := [
  { name := "OWNER", off := 0xfff0, dims := [], w1c := 0x40000000#32, w1s := 0x80000000#32, rwl := 0xf1ff#32 },
  { name := "STATUS", off := 0x0, dims := [] },
  { name := "COEF_AH", off := 0x1000, dims := [(256, 4)], special := .coefH },
  { name := "COEF_AV", off := 0x1400, dims := [(192, 4)], special := .coefV },
  { name := "COEF_BH", off := 0x2000, dims := [(256, 4)], special := .coefH },
  { name := "COEF_BV", off := 0x2400, dims := [(192, 4)], special := .coefV }]

/-- Registers of HC. -/
def rowsHC : List RegRow := [
  { name := "OWNER", off := 0xfff0, dims := [], w1c := 0x40000000#32, w1s := 0x80000000#32, rwl := 0xf1ff#32 },
  { name := "CTRL", off := 0x0, dims := [], rw := 0xff0001#32, reset := 0x400000#32 },
  { name := "STATUS", off := 0x4, dims := [], w1c := 0x380#32 },
  { name := "TRACK", off := 0x8, dims := [], rw := 0xffffffff#32, reset := 0x7d00050#32 },
  { name := "FREQ", off := 0xc, dims := [] },
  { name := "COUNTS", off := 0x10, dims := [] },
  { name := "DROPS", off := 0x14, dims := [] },
  { name := "SENSE", off := 0x18, dims := [] }]

/-- Registers of AUD. -/
def rowsAUD : List RegRow := [
  { name := "STREAM_OWNER", off := 0xff00, dims := [(24, 4)], w1c := 0x40000000#32, w1s := 0x80000000#32, rwl := 0xf1ff#32 },
  { name := "CTRL", off := 0x0, dims := [], rw := 0x1#32 },
  { name := "STATUS", off := 0x4, dims := [], w1c := 0x6#32 },
  { name := "STAGE", off := 0x8, dims := [], rw := 0xffffffff#32 },
  { name := "ZC", off := 0xc, dims := [], rw := 0x3f#32, reset := 0xa#32 },
  { name := "LOOP", off := 0x10, dims := [], rw := 0xf0ffffff#32 },
  { name := "COUNTS", off := 0x14, dims := [] },
  { name := "DIRECT", off := 0x20, dims := [(8, 4)], rw := 0x80001f1f#32 },
  { name := "HPF_ROM", off := 0x200, dims := [(16, 32), (5, 4)], special := .hpf },
  { name := "NODE", off := 0x1000, dims := [(48, 256), (64, 4)], rw := 0xffff#32, reset := 0x8000#32 },
  { name := "NODE_LIVE", off := 0x4000, dims := [(48, 256), (64, 4)], reset := 0x8000#32 },
  { name := "EQ", off := 0x8000, dims := [(48, 512), (2, 256), (8, 20), (5, 4)], rw := 0xffffffff#32, special := .eq },
  { name := "EQ_CTRL", off := 0xe000, dims := [(48, 4)], rw := 0x1#32, w1s := 0x2#32 }]

/-- Registers of TOUCH, part 1. -/
def rowsTOUCH0 : List RegRow := [
  { name := "ZONE_OWNER", off := 0xff00, dims := [(32, 4)], w1c := 0x40000000#32, w1s := 0x80000000#32, rwl := 0xf1ff#32 },
  { name := "CTRL", off := 0x0, dims := [], rw := 0x70001#32, w1s := 0xc#32, special := .inst },
  { name := "STATUS", off := 0x4, dims := [], w1c := 0x1e#32 },
  { name := "THRESH", off := 0x8, dims := [], rw := 0xfff0ffff#32, reset := 0x28200040#32 },
  { name := "TRACK", off := 0xc, dims := [], rw := 0xffffffff#32, reset := 0x788208#32 },
  { name := "LISTEN", off := 0x10, dims := [], rw := 0xffff#32, reset := 0x10#32 },
  { name := "MAP_X", off := 0x14, dims := [], rw := 0xffffff#32, reset := 0x10000#32 },
  { name := "MAP_Y", off := 0x18, dims := [], rw := 0xffffff#32, reset := 0x10000#32 },
  { name := "MAP_OFF", off := 0x1c, dims := [], rw := 0xffffffff#32 },
  { name := "ORIENT", off := 0x20, dims := [], rw := 0x7#32 },
  { name := "SELFTEST", off := 0x24, dims := [], rw := 0xffff00ff#32, reset := 0x1000080#32 },
  { name := "ST_RESULT", off := 0x28, dims := [], w1c := 0x2#32 },
  { name := "ST_FAULT", off := 0x30, dims := [(16, 4)] },
  { name := "COUNTS", off := 0x70, dims := [] },
  { name := "COUNTS2", off := 0x74, dims := [] },
  { name := "BL_INDEX", off := 0x78, dims := [], rw := 0x7fff#32 },
  { name := "BL_DATA", off := 0x7c, dims := [] },
  { name := "RAW", off := 0x80, dims := [] },
  { name := "BL_ADDR", off := 0x84, dims := [], rw := 0xffffffff#32 },
  { name := "BL_CMD", off := 0x88, dims := [], w1c := 0x3#32, w1s := 0x18#32 }]

/-- Registers of TOUCH, part 2. -/
def rowsTOUCH1 : List RegRow := [
  { name := "ZONE_A", off := 0x100, dims := [(32, 16)], rw := 0xffffffff#32 },
  { name := "ZONE_B", off := 0x104, dims := [(32, 16)], rw := 0xffffffff#32 },
  { name := "ZONE_CTRL", off := 0x108, dims := [(32, 16)], rw := 0x3ff3#32 },
  { name := "SZONE_A", off := 0x400, dims := [(4, 16)], rw := 0xffffffff#32 },
  { name := "SZONE_B", off := 0x404, dims := [(4, 16)], rw := 0xffffffff#32 },
  { name := "SZONE_CTRL", off := 0x408, dims := [(4, 16)], rw := 0x3ff3#32 }]

/-- Registers of TOUCH. -/
def rowsTOUCH : List RegRow := rowsTOUCH0 ++ rowsTOUCH1

/-- Registers of SCREEN, part 1. -/
def rowsSCREEN0 : List RegRow := [
  { name := "CTRL", off := 0x0, dims := [], rw := 0x10f71#32, special := .inst },
  { name := "TIMING_H", off := 0x10, dims := [], rw := 0xffffffff#32 },
  { name := "TIMING_HS", off := 0x14, dims := [], rw := 0x8fffffff#32 },
  { name := "TIMING_V", off := 0x18, dims := [], rw := 0xffffffff#32 },
  { name := "TIMING_VS", off := 0x1c, dims := [], rw := 0x8fffffff#32 },
  { name := "TIMING_BEAT", off := 0x20, dims := [], rw := 0x3fff001f#32 },
  { name := "VRR", off := 0x24, dims := [], rw := 0xffffffff#32 },
  { name := "STATUS", off := 0x30, dims := [], w1c := 0x60000#32 },
  { name := "FRAME", off := 0x34, dims := [], reset := 0xffffffff#32 },
  { name := "LATCH_DRUM", off := 0x38, dims := [] },
  { name := "LOWER", off := 0x40, dims := [], rw := 0xff0f01#32, reset := 0x1e0200#32 },
  { name := "RT_TIMING_H", off := 0x50, dims := [], rw := 0xffffffff#32 },
  { name := "RT_TIMING_HS", off := 0x54, dims := [], rw := 0x8fffffff#32 },
  { name := "RT_TIMING_V", off := 0x58, dims := [], rw := 0xffffffff#32 },
  { name := "RT_TIMING_VS", off := 0x5c, dims := [], rw := 0x8fffffff#32 },
  { name := "RT_TIMING_BEAT", off := 0x60, dims := [], rw := 0x3fff001f#32 },
  { name := "RT_VRR", off := 0x64, dims := [], rw := 0xffffffff#32 },
  { name := "RT_LINK", off := 0x68, dims := [], rw := 0x10037#32, reset := 0x26#32 },
  { name := "RETIME", off := 0x70, dims := [], w1c := 0x30000#32, w1s := 0x1#32 },
  { name := "OUT_CTRL", off := 0x100, dims := [], rws := 0x333#32, reset := 0x100#32 }]

/-- Registers of SCREEN, part 2. -/
def rowsSCREEN1 : List RegRow := [
  { name := "BG", off := 0x104, dims := [], rws := 0x3fffffff#32 },
  { name := "OMTX_A", off := 0x108, dims := [(3, 8)], rws := 0xffffffff#32, special := .mtxA },
  { name := "OMTX_B", off := 0x10c, dims := [(3, 8)], rws := 0x1fffffff#32, special := .mtxB },
  { name := "OUT_COMMIT", off := 0x120, dims := [], wo := 0x3#32 },
  { name := "OUT_STATUS", off := 0x124, dims := [], w1c := 0x10#32 },
  { name := "OUT_FRAME", off := 0x128, dims := [], reset := 0xffffffff#32 },
  { name := "LUT", off := 0x1000, dims := [(3, 4096), (1024, 4)], rw := 0x3fff#32, special := .lut },
  { name := "LUTA", off := 0x4000, dims := [(3, 4096), (1024, 4)], special := .lut },
  { name := "WATCH", off := 0x220, dims := [], w1c := 0x2#32 },
  { name := "WATCH_LAST", off := 0x224, dims := [], reset := 0xffffffff#32 },
  { name := "HIT_PROBE", off := 0x210, dims := [(2, 8)], rw := 0x1ff01ff#32 },
  { name := "HIT_OWNER", off := 0x214, dims := [(2, 8)], reset := 0x300#32 },
  { name := "PROT_CFG", off := 0x200, dims := [], w1s := 0x80000000#32, rwl := 0xf0101#32, reset := 0x40100#32 },
  { name := "ACT_OUT_CTRL", off := 0x180, dims := [], reset := 0x100#32 },
  { name := "ACT_BG", off := 0x184, dims := [] },
  { name := "ACT_OMTX_A", off := 0x188, dims := [(3, 8)], special := .mtxA },
  { name := "ACT_OMTX_B", off := 0x18c, dims := [(3, 8)], special := .mtxB }]

/-- Registers of SCREEN. -/
def rowsSCREEN : List RegRow := rowsSCREEN0 ++ rowsSCREEN1

/-- Registers of DPO, part 1. -/
def rowsDPO0 : List RegRow := [
  { name := "CTRL", off := 0x0, dims := [], rw := 0x701ff#32, reset := 0x70000#32 },
  { name := "LINK_CTRL", off := 0x4, dims := [], rw := 0x37#32, w1s := 0x100#32, reset := 0x26#32 },
  { name := "LINK_STATUS", off := 0x8, dims := [], w1c := 0x7c0000#32 },
  { name := "AUX_CMD", off := 0x20, dims := [], rw := 0xffffff0f#32 },
  { name := "AUX_DATA", off := 0x24, dims := [(4, 4)], rw := 0xffffffff#32 },
  { name := "AUX_STATUS", off := 0x34, dims := [], w1c := 0x6#32 },
  { name := "I2C_CMD", off := 0x40, dims := [], rw := 0xf0007f0f#32 },
  { name := "I2C_DATA", off := 0x44, dims := [(4, 4)], rw := 0xffffffff#32 },
  { name := "I2C_STATUS", off := 0x54, dims := [], w1c := 0x6#32 },
  { name := "I2C_CFG", off := 0x58, dims := [], rw := 0x1#32 },
  { name := "PWRSEQ", off := 0x60, dims := [], rw := 0xffffffff#32, reset := 0xfa32c8c8#32 },
  { name := "PANEL", off := 0x64, dims := [], rw := 0x3#32, w1c := 0x100#32 },
  { name := "BL_PWM", off := 0x70, dims := [], rw := 0xc00fffff#32, reset := 0x2710#32 },
  { name := "BL_DUTY", off := 0x74, dims := [], rw := 0xffffffff#32, reset := 0x40000000#32 },
  { name := "CMP_STATUS", off := 0x120, dims := [], w1c := 0x70#32 },
  { name := "CMP_FIRST", off := 0x124, dims := [] },
  { name := "CMP_FIRST_FRAME", off := 0x128, dims := [] },
  { name := "CMP_COUNT", off := 0x12c, dims := [] },
  { name := "CMP_TEST", off := 0x130, dims := [], w1c := 0x2#32, w1s := 0x1#32 },
  { name := "HARB_CTRL", off := 0x100, dims := [], rw := 0x113#32, reset := 0x12#32 }]

/-- Registers of DPO, part 2. -/
def rowsDPO1 : List RegRow := [
  { name := "HARB_COL", off := 0x104, dims := [(2, 4)], rw := 0x3fffffff#32, special := .harbCol },
  { name := "HARB_GLYPH", off := 0x10c, dims := [], rw := 0xffffffff#32, reset := 0x100010#32 },
  { name := "HARB_STATUS", off := 0x110, dims := [] },
  { name := "HARB_PAT", off := 0x8000, dims := [(8192, 4)], rw := 0xffffffff#32 }]

/-- Registers of DPO. -/
def rowsDPO : List RegRow := rowsDPO0 ++ rowsDPO1

/-- Registers of XBAR. -/
def rowsXBAR : List RegRow := [
  { name := "MAP", off := 0x0, dims := [(8, 4)], reset := 0xf00#32 },
  { name := "SWAPS", off := 0x40, dims := [] },
  { name := "WATCH", off := 0x80, dims := [], rw := 0x1ff#32, reset := 0x1ff#32 }]

/-- Registers of VIN. -/
def rowsVIN : List RegRow := [
  { name := "CTRL", off := 0x0, dims := [], rw := 0xff0137#32, reset := 0x640004#32 },
  { name := "SIZE", off := 0x4, dims := [], rw := 0xffffffff#32 },
  { name := "BUF", off := 0x10, dims := [(3, 4)], rw := 0xffffffff#32 },
  { name := "STRIDE", off := 0x1c, dims := [], rw := 0xffff#32 },
  { name := "STATUS", off := 0x20, dims := [], w1c := 0x3f#32, reset := 0x340#32 },
  { name := "FRAMES", off := 0x24, dims := [] },
  { name := "DISCARDS", off := 0x28, dims := [] }]

/-- Registers of PROT, part 1. -/
def rowsPROT0 : List RegRow := [
  { name := "CTRL", off := 0x0, dims := [], rws := 0xf7#32 },
  { name := "SEQ", off := 0x4, dims := [], rws := 0xffffffff#32 },
  { name := "PAL_ADDR", off := 0x8, dims := [], rws := 0xffffffff#32 },
  { name := "PAL_CRC", off := 0xc, dims := [], rws := 0xffffffff#32 },
  { name := "RECT_POS", off := 0x10, dims := [(4, 32)], rws := 0xffffffff#32 },
  { name := "RECT_SIZE", off := 0x14, dims := [(4, 32)], rws := 0xffffffff#32 },
  { name := "RECT_SRC", off := 0x18, dims := [(4, 32)], rws := 0xffffffff#32 },
  { name := "RECT_STRIDE", off := 0x1c, dims := [(4, 32)], rws := 0xffff#32 },
  { name := "RECT_CHK", off := 0x20, dims := [(4, 32)], rws := 0xffffffff#32 },
  { name := "COMMIT", off := 0x90, dims := [], wo := 0x7#32 },
  { name := "COMMIT_FRAME", off := 0x94, dims := [], rw := 0xffffffff#32 },
  { name := "COMMIT_STATUS", off := 0x98, dims := [] },
  { name := "APPLIED_FRAME", off := 0x9c, dims := [], reset := 0xffffffff#32 },
  { name := "VOUCH", off := 0xa0, dims := [], rw := 0xffffffff#32, reset := 0xffffffff#32 },
  { name := "STATUS", off := 0xa4, dims := [], w1c := 0x64#32 },
  { name := "ACT_CTRL", off := 0x200, dims := [] },
  { name := "ACT_SEQ", off := 0x204, dims := [] },
  { name := "ACT_PAL_ADDR", off := 0x208, dims := [] },
  { name := "ACT_PAL_CRC", off := 0x20c, dims := [] },
  { name := "ACT_RECT_POS", off := 0x210, dims := [(4, 32)] }]

/-- Registers of PROT, part 2. -/
def rowsPROT1 : List RegRow := [
  { name := "ACT_RECT_SIZE", off := 0x214, dims := [(4, 32)] },
  { name := "ACT_RECT_SRC", off := 0x218, dims := [(4, 32)] },
  { name := "ACT_RECT_STRIDE", off := 0x21c, dims := [(4, 32)] },
  { name := "ACT_RECT_CHK", off := 0x220, dims := [(4, 32)] }]

/-- Registers of PROT. -/
def rowsPROT : List RegRow := rowsPROT0 ++ rowsPROT1

/-- Registers of SXT. -/
def rowsSXT : List RegRow := [
  { name := "STATUS", off := 0x0, dims := [], w1c := 0x100#32, special := .sxt },
  { name := "SELFTEST", off := 0x4, dims := [], w1c := 0x2#32, w1s := 0x1#32 },
  { name := "CHECKS", off := 0x8, dims := [] },
  { name := "CHECK_FAILS", off := 0xc, dims := [] }]

/-- Registers of PIPE. -/
def rowsPIPE : List RegRow := [
  { name := "STATUS", off := 0x0, dims := [], w1c := 0x30000#32, reset := 0x1#32 },
  { name := "SIG", off := 0x4, dims := [] }]

/-- Registers of QOS. -/
def rowsQOS : List RegRow := [
  { name := "CFG", off := 0x0, dims := [], rw := 0xfffff#32, special := .qos },
  { name := "STATUS", off := 0x4, dims := [] },
  { name := "MAXLAT", off := 0x8, dims := [] },
  { name := "CLR", off := 0xc, dims := [], wo := 0x1#32 }]

/-- Registers of MSIDE, part 1. -/
def rowsMSIDE0 : List RegRow := [
  { name := "CFG", off := 0x0, dims := [], w1s := 0x80000000#32, rwl := 0xff33#32, reset := 0x1820#32 },
  { name := "STATUS", off := 0x4, dims := [], w1c := 0x8#32 },
  { name := "CAP", off := 0x8, dims := [] },
  { name := "REFRESH", off := 0x10, dims := [] },
  { name := "RH_CFG", off := 0x20, dims := [], rwl := 0xffffffff#32, reset := 0x3e80800#32 },
  { name := "RH_LAST", off := 0x24, dims := [] },
  { name := "RH_COUNT", off := 0x28, dims := [] },
  { name := "ECC_STATUS", off := 0x30, dims := [], w1c := 0x3#32 },
  { name := "LINK_ECC", off := 0x34, dims := [] },
  { name := "CE_CFG", off := 0x38, dims := [], rwl := 0xff#32, reset := 0x8#32 },
  { name := "FREEZE_CTRL", off := 0x40, dims := [], rw := 0x100#32, w1s := 0x1#32 },
  { name := "FREEZE_STATUS", off := 0x44, dims := [], w1c := 0x600#32 },
  { name := "FREEZE_ADDR", off := 0x48, dims := [] },
  { name := "FREEZE_DRUM", off := 0x4c, dims := [] },
  { name := "RESYNC", off := 0x50, dims := [] },
  { name := "CE_ROW_A", off := 0x100, dims := [(16, 8)] },
  { name := "CE_ROW_B", off := 0x104, dims := [(16, 8)] },
  { name := "MIRROR_BASE", off := 0x200, dims := [(32, 8)], rwl := 0x3fff#32 },
  { name := "MIRROR_SIZE", off := 0x204, dims := [(32, 8)], rwl := 0x80003fff#32 },
  { name := "TRAIN", off := 0x400, dims := [(16, 4)] }]

/-- Registers of MSIDE, part 2. -/
def rowsMSIDE1 : List RegRow := [
  { name := "TRACK", off := 0x440, dims := [(16, 4)] },
  { name := "PPR", off := 0x500, dims := [(4, 4)], rw := 0x9fffffc0#32 },
  { name := "DIAG", off := 0x2000, dims := [(128, 16), (4, 4)] },
  { name := "DIRTY", off := 0x3000, dims := [(256, 4)] }]

/-- Registers of MSIDE. -/
def rowsMSIDE : List RegRow := rowsMSIDE0 ++ rowsMSIDE1

/-- Registers of TSL. -/
def rowsTSL : List RegRow := [
  { name := "CTRL", off := 0x0, dims := [], rw := 0x1ff0001#32, reset := 0xf00000#32 },
  { name := "STATUS", off := 0x4, dims := [], w1c := 0xfc00#32 },
  { name := "ERRORS", off := 0x8, dims := [] },
  { name := "SCANS", off := 0xc, dims := [] },
  { name := "IDENT_0", off := 0x10, dims := [] },
  { name := "IDENT_1", off := 0x14, dims := [] },
  { name := "IDENT_2", off := 0x18, dims := [] },
  { name := "FREQ", off := 0x20, dims := [(8, 4)], rw := 0xffff#32, special := .tslFreq }]

/-- Registers of HAP. -/
def rowsHAP : List RegRow := [
  { name := "CTRL", off := 0x0, dims := [], rw := 0xffff01#32, reset := 0x146400#32 },
  { name := "STATUS", off := 0x4, dims := [], w1c := 0x30#32 },
  { name := "BUDGET", off := 0x8, dims := [], rw := 0xffff#32, reset := 0x3fc#32 },
  { name := "LIB_ADDR", off := 0xc, dims := [], rw := 0xffffffff#32 },
  { name := "LIB_CRC", off := 0x10, dims := [], rw := 0xffffffff#32 },
  { name := "LIB_CMD", off := 0x14, dims := [], w1s := 0x1#32 },
  { name := "TRIG", off := 0x20, dims := [(4, 4)], rw := 0x80003ff3#32 },
  { name := "LIB", off := 0x1000, dims := [(64, 16), (4, 4)] }]

/-- Registers of TDM. -/
def rowsTDM : List RegRow := [
  { name := "CTRL", off := 0x0, dims := [], rw := 0x1f#32 },
  { name := "STATUS", off := 0x4, dims := [], w1c := 0x6#32 },
  { name := "MASK", off := 0x8, dims := [], rw := 0xffffffff#32 },
  { name := "HPF", off := 0x10, dims := [(16, 4)], rw := 0xf#32 }]

/-- Registers of BELL. -/
def rowsBELL : List RegRow := [
  { name := "DUCK", off := 0x0, dims := [], rw := 0xfff#32, reset := 0xc0#32 },
  { name := "DUCK_IN", off := 0x4, dims := [], rw := 0xffffff#32 },
  { name := "DUCK_OUT_LO", off := 0x8, dims := [], rw := 0xffffffff#32 },
  { name := "DUCK_OUT_HI", off := 0xc, dims := [], rw := 0xffff#32 },
  { name := "PROTECT_LO", off := 0x10, dims := [], rw := 0xffffffff#32 },
  { name := "PROTECT_HI", off := 0x14, dims := [], rw := 0xffff#32 },
  { name := "STATUS", off := 0x18, dims := [], w1c := 0x20#32 },
  { name := "FREQ", off := 0x100, dims := [(4, 32)], rw := 0xffffffff#32, reset := 0x3e80320#32 },
  { name := "LEVEL", off := 0x104, dims := [(4, 32)], rw := 0xffff#32, reset := 0x8000#32 },
  { name := "CADENCE", off := 0x108, dims := [(4, 32)], rw := 0xffffffff#32 },
  { name := "CTRL", off := 0x10c, dims := [(4, 32)], rw := 0xff04#32, w1s := 0x3#32 }]

/-- Registers of IC. -/
def rowsIC : List RegRow := [
  { name := "SRC", off := 0x0, dims := [(512, 4)], rw := 0x1f0107#32, reset := 0x10000#32, special := .icWorld },
  { name := "SWI", off := 0x800, dims := [], wo := 0x1f#32 },
  { name := "CTX_THRESH", off := 0x1000, dims := [(5, 64), (3, 16)], rw := 0x7#32 },
  { name := "CTX_TOP", off := 0x1004, dims := [(5, 64), (3, 16)] },
  { name := "CTX_CLAIM", off := 0x1008, dims := [(5, 64), (3, 16)], wo := 0x1ff#32 },
  { name := "CTX_DONE", off := 0x100c, dims := [(5, 64), (3, 16)], wo := 0x1ff#32 }]

/-- Registers of PWR. -/
def rowsPWR : List RegRow := [
  { name := "GATE", off := 0x0, dims := [(33, 64), (8, 4)], rw := 0xffffffff#32 },
  { name := "HELD", off := 0x1000, dims := [(33, 64), (8, 4)] },
  { name := "WARN_CFG", off := 0x2000, dims := [], w1s := 0x80000000#32, rwl := 0xff0003#32, reset := 0x20001#32 },
  { name := "VIN_CFG", off := 0x2004, dims := [], rwl := 0xffffff#32, reset := 0x140258#32 },
  { name := "WARN_STATUS", off := 0x2008, dims := [], w1c := 0x18#32 },
  { name := "WARN_LAST", off := 0x200c, dims := [] }]

/-- Registers of DBG. -/
def rowsDBG : List RegRow := [
  { name := "EN", off := 0x0, dims := [] },
  { name := "NORMAL_EN", off := 0x4, dims := [], w1s := 0x3#32 }]

/-- Registers of MC. -/
def rowsMC : List RegRow := [
  { name := "CTRL", off := 0x0, dims := [], rw := 0x701#32, special := .mc },
  { name := "STATUS", off := 0x4, dims := [], w1c := 0x300#32, special := .mc },
  { name := "RESID", off := 0x8, dims := [], rw := 0xffff#32, reset := 0x7d0#32 },
  { name := "RESID_MAX", off := 0xc, dims := [] },
  { name := "FORCE_INFO", off := 0x10, dims := [] },
  { name := "TIMECMP_N_LO", off := 0x20, dims := [], rw := 0xffffffff#32, reset := 0xffffffff#32 },
  { name := "TIMECMP_N_HI", off := 0x24, dims := [], rw := 0xffffffff#32, reset := 0xffffffff#32 },
  { name := "TIMECMP_S_LO", off := 0x28, dims := [], rw := 0xffffffff#32, reset := 0xffffffff#32 },
  { name := "TIMECMP_S_HI", off := 0x2c, dims := [], rw := 0xffffffff#32, reset := 0xffffffff#32 }]

/-- Registers of BOOT. -/
def rowsBOOT : List RegRow := [
  { name := "STATUS", off := 0x0, dims := [] },
  { name := "SLOT_SEQ", off := 0x10, dims := [(3, 8)] },
  { name := "SLOT_RESULT", off := 0x14, dims := [(3, 8)] },
  { name := "AON", off := 0x40, dims := [], reset := 0x1000000#32 },
  { name := "CTRL", off := 0x44, dims := [], wo := 0x3#32 },
  { name := "TIMER", off := 0x48, dims := [] },
  { name := "SEC_DIGEST", off := 0x80, dims := [(12, 4)] },
  { name := "NORMAL_ENTRY", off := 0xb0, dims := [] },
  { name := "FLASH_CMD", off := 0x100, dims := [], rw := 0x3ffffff#32, w1s := 0x80000000#32 },
  { name := "FLASH_ADDR", off := 0x104, dims := [], rw := 0x1fffffff#32 },
  { name := "FLASH_BUF", off := 0x108, dims := [], rw := 0xffffffff#32 },
  { name := "FLASH_STATUS", off := 0x10c, dims := [], w1c := 0xe#32 }]

/-- Registers of FLT. -/
def rowsFLT : List RegRow := [
  { name := "CTRL", off := 0x0, dims := [], w1s := 0x80000001#32 },
  { name := "STATUS", off := 0x4, dims := [], w1c := 0x20#32, reset := 0x9#32 },
  { name := "REQUEST", off := 0x8, dims := [], wo := 0x800000ff#32 },
  { name := "RELEASE", off := 0xc, dims := [], wo := 0x7ff#32 },
  { name := "TOLL_CTRL", off := 0x10, dims := [], w1s := 0x10000#32, rwl := 0x2ffff#32, reset := 0x32#32 },
  { name := "TOLL_KICK", off := 0x14, dims := [], wo := 0xffffffff#32 },
  { name := "TOLL_STATUS", off := 0x18, dims := [], w1c := 0x2#32 },
  { name := "SELFTEST", off := 0x1c, dims := [], w1c := 0x2#32, w1s := 0x1#32 },
  { name := "FE_STATUS", off := 0x40, dims := [], w1c := 0x1#32 },
  { name := "FE_ADDR", off := 0x44, dims := [] },
  { name := "FE_INFO", off := 0x48, dims := [] },
  { name := "FE_MASTER", off := 0x4c, dims := [] },
  { name := "FE_NS_LO", off := 0x50, dims := [] },
  { name := "FE_NS_HI", off := 0x54, dims := [] },
  { name := "FE_DRUM_LO", off := 0x58, dims := [] },
  { name := "FE_DRUM_HI", off := 0x5c, dims := [] },
  { name := "IN_CFG", off := 0x1000, dims := [(448, 8)], rwl := 0x30000#32, special := .flt },
  { name := "IN_STATUS", off := 0x1004, dims := [(448, 8)], w1c := 0x2#32 }]

/-- Registers of CRC. -/
def rowsCRC : List RegRow := [
  { name := "CFG", off := 0x0, dims := [], rw := 0x37f#32, reset := 0x320#32 },
  { name := "POLY_LO", off := 0x4, dims := [], rw := 0xffffffff#32, reset := 0x1edc6f41#32 },
  { name := "POLY_HI", off := 0x8, dims := [], rw := 0xffffffff#32 },
  { name := "INIT_LO", off := 0xc, dims := [], rw := 0xffffffff#32, reset := 0xffffffff#32 },
  { name := "INIT_HI", off := 0x10, dims := [], rw := 0xffffffff#32 },
  { name := "XOROUT_LO", off := 0x14, dims := [], rw := 0xffffffff#32, reset := 0xffffffff#32 },
  { name := "XOROUT_HI", off := 0x18, dims := [], rw := 0xffffffff#32 },
  { name := "CTRL", off := 0x20, dims := [], w1s := 0x7#32 },
  { name := "DESC_LO", off := 0x24, dims := [], rw := 0xffffffc0#32 },
  { name := "DESC_HI", off := 0x28, dims := [], rw := 0xff#32 },
  { name := "STATUS", off := 0x30, dims := [], w1c := 0x7e#32 },
  { name := "VALUE_LO", off := 0x34, dims := [] },
  { name := "VALUE_HI", off := 0x38, dims := [] },
  { name := "CHUNKS", off := 0x3c, dims := [] },
  { name := "MISMATCHES", off := 0x40, dims := [] },
  { name := "FIRST_DESC", off := 0x44, dims := [] },
  { name := "FIRST_INDEX", off := 0x48, dims := [] }]

/-- Registers of LOG. -/
def rowsLOG : List RegRow := [
  { name := "HEAD", off := 0x0, dims := [], reset := 0xffffffff#32 },
  { name := "BASE", off := 0x4, dims := [] },
  { name := "RATE", off := 0x8, dims := [], rw := 0xff03ff#32, reset := 0x8000a#32 },
  { name := "CLEAR", off := 0xc, dims := [], wo := 0x1#32 },
  { name := "COUNTS", off := 0x10, dims := [] },
  { name := "RD_SEQ", off := 0x100, dims := [(2, 256)], rw := 0xffffffff#32 },
  { name := "RD_W", off := 0x104, dims := [(2, 256), (8, 4)] },
  { name := "WR_CODE", off := 0x140, dims := [(2, 256)], rw := 0xffffffff#32 },
  { name := "WR_P", off := 0x144, dims := [(2, 256), (4, 4)], rw := 0xffffffff#32 },
  { name := "WR_GO", off := 0x154, dims := [(2, 256)], wo := 0x3#32 },
  { name := "WR_STATUS", off := 0x158, dims := [(2, 256)], w1c := 0x3#32 }]

/-- Registers of BBOX. -/
def rowsBBOX : List RegRow := [
  { name := "CFG", off := 0x0, dims := [], w1s := 0x80000000#32, rwl := 0xffffff#32, reset := 0xa#32 },
  { name := "STATUS", off := 0x4, dims := [], w1c := 0xe0#32 },
  { name := "HEAD", off := 0x8, dims := [] },
  { name := "PAGE_SEQ", off := 0xc, dims := [] },
  { name := "APPEND_KIND", off := 0x10, dims := [], rw := 0xffff#32 },
  { name := "APPEND_D", off := 0x14, dims := [(8, 4)], rw := 0xffffffff#32 },
  { name := "CMD", off := 0x34, dims := [], wo := 0x3#32 },
  { name := "COUNTS", off := 0x38, dims := [] }]

/-- Registers of RTC. -/
def rowsRTC : List RegRow := [
  { name := "STATUS", off := 0x0, dims := [], w1c := 0x4#32 },
  { name := "TRIM", off := 0x4, dims := [], rw := 0xff#32 },
  { name := "SNAP", off := 0x8, dims := [], w1s := 0x1#32 },
  { name := "SNAP_SEC_LO", off := 0xc, dims := [] },
  { name := "SNAP_HI", off := 0x10, dims := [] },
  { name := "SET_SEC_LO", off := 0x14, dims := [], rw := 0xffffffff#32 },
  { name := "SET_HI", off := 0x18, dims := [], rw := 0xffffff00#32 },
  { name := "SET", off := 0x1c, dims := [], w1s := 0x1#32 }]

/-- Registers of WEAR. -/
def rowsWEAR : List RegRow := [
  { name := "CFG", off := 0x0, dims := [], w1s := 0x80000000#32, rwl := 0x1ff00#32, reset := 0x14000#32 },
  { name := "THRESH", off := 0x4, dims := [], rwl := 0xffffffff#32, reset := 0x400028#32 },
  { name := "WORN", off := 0x8, dims := [], w1s := 0xffffffff#32 },
  { name := "WARN", off := 0xc, dims := [] },
  { name := "POWER_ON", off := 0x10, dims := [] },
  { name := "TEMP", off := 0x14, dims := [] },
  { name := "OTP_CMD", off := 0x20, dims := [], rw := 0xff#32, w1s := 0x80000000#32 },
  { name := "OTP_STATUS", off := 0x24, dims := [], w1c := 0x6#32 },
  { name := "MON", off := 0x40, dims := [(32, 4)], reset := 0xffff0000#32 },
  { name := "THERM", off := 0xc0, dims := [(16, 4)] },
  { name := "MACRO", off := 0x1000, dims := [(212, 4)], special := .sramMacro }]

/-- The registers of a unit, by its code of R35. -/
def unitRows (u : Nat) : List RegRow :=
  match u with
  | 0 => rowsSYS
  | 1 => rowsDRUM
  | 13 => rowsGP
  | 14 => rowsSESS
  | 6 => rowsLAYER
  | 8 => rowsSCL
  | 17 => rowsHC
  | 19 => rowsAUD
  | 16 => rowsTOUCH
  | 2 => rowsSCREEN
  | 4 => rowsDPO
  | 5 => rowsXBAR
  | 9 => rowsVIN
  | 7 => rowsPROT
  | 10 => rowsSXT
  | 3 => rowsPIPE
  | 12 => rowsQOS
  | 11 => rowsMSIDE
  | 15 => rowsTSL
  | 18 => rowsHAP
  | 20 => rowsTDM
  | 21 => rowsBELL
  | 23 => rowsIC
  | 32 => rowsPWR
  | 31 => rowsDBG
  | 22 => rowsMC
  | 30 => rowsBOOT
  | 24 => rowsFLT
  | 25 => rowsCRC
  | 26 => rowsLOG
  | 27 => rowsBBOX
  | 28 => rowsRTC
  | 29 => rowsWEAR
  | _ => []

/-- How many instances a unit has (R35). -/
def unitInstances (u : Nat) : Nat :=
  match u with
  | 0 => 1
  | 1 => 1
  | 2 => 8
  | 3 => 10
  | 4 => 8
  | 5 => 1
  | 6 => 64
  | 7 => 8
  | 8 => 24
  | 9 => 4
  | 10 => 2
  | 11 => 2
  | 12 => 40
  | 13 => 4
  | 14 => 256
  | 15 => 8
  | 16 => 8
  | 17 => 16
  | 18 => 1
  | 19 => 1
  | 20 => 2
  | 21 => 1
  | 22 => 5
  | 23 => 1
  | 24 => 1
  | 25 => 18
  | 26 => 1
  | 27 => 1
  | 28 => 1
  | 29 => 1
  | 30 => 1
  | 31 => 1
  | 32 => 1
  | _ => 0

end Sys2Proof.Machine
end

