-- ==== Sys2Proof/Machine/RegNames.lean ====
section
/-! DEFINITION. The register names of the spec, each with its place: `Reg.UNIT_NAME` is a register's address
(offset from 0x10_0000_0000), `Reg.UNIT_NAME_FIELD` one of its bit fields. Unit codes are R35's, offsets and bits
those of the register tables of the chapter named above each group. -/

namespace Sys2Proof.Machine.Reg


/-! ### SYS (spec/00_scope.md) -/

/-- SYS ID, R2. -/
abbrev SYS_ID : Nat := reg 0 0 (0x0)
abbrev SYS_ID_PART : Fld := ⟨SYS_ID, 16, 16⟩
abbrev SYS_ID_GRADE : Fld := ⟨SYS_ID, 12, 4⟩
abbrev SYS_ID_MAJOR : Fld := ⟨SYS_ID, 8, 4⟩
abbrev SYS_ID_MINOR : Fld := ⟨SYS_ID, 4, 4⟩

/-! ### SYS (spec/01_planes_and_drumbeat.md) -/

/-- SYS BREACH, R40. -/
abbrev SYS_BREACH (k : Nat) : Nat := reg 0 0 (0x100 + 4 * k)
abbrev SYS_BREACH_COUNT (k : Nat) : Fld := ⟨SYS_BREACH k, 16, 16⟩
abbrev SYS_BREACH_LAST_PORT (k : Nat) : Fld := ⟨SYS_BREACH k, 8, 6⟩
/-- SYS BREACH_CLR, R40. -/
abbrev SYS_BREACH_CLR : Nat := reg 0 0 (0x140)
abbrev SYS_BREACH_CLR_CLR : Fld := ⟨SYS_BREACH_CLR, 2, 9⟩

/-! ### DRUM (spec/01_planes_and_drumbeat.md) -/

/-- DRUM CTRL, R19. -/
abbrev DRUM_CTRL : Nat := reg 1 0 (0x0)
abbrev DRUM_CTRL_OUT_EN : Fld := ⟨DRUM_CTRL, 2, 1⟩
abbrev DRUM_CTRL_SOURCE : Fld := ⟨DRUM_CTRL, 0, 2⟩
/-- DRUM DIV_INT, R20. -/
abbrev DRUM_DIV_INT : Nat := reg 1 0 (0x4)
abbrev DRUM_DIV_INT_INT : Fld := ⟨DRUM_DIV_INT, 0, 18⟩
/-- DRUM DIV_FRAC, R20. -/
abbrev DRUM_DIV_FRAC : Nat := reg 1 0 (0x8)
abbrev DRUM_DIV_FRAC_DEN : Fld := ⟨DRUM_DIV_FRAC, 16, 16⟩
abbrev DRUM_DIV_FRAC_NUM : Fld := ⟨DRUM_DIV_FRAC, 0, 16⟩
/-- DRUM STATUS, R23. -/
abbrev DRUM_STATUS : Nat := reg 1 0 (0xc)
abbrev DRUM_STATUS_EVENTS : Fld := ⟨DRUM_STATUS, 16, 8⟩
abbrev DRUM_STATUS_DEVIANT_EDGES : Fld := ⟨DRUM_STATUS, 8, 8⟩
abbrev DRUM_STATUS_CFG_ERR : Fld := ⟨DRUM_STATUS, 4, 1⟩
abbrev DRUM_STATUS_WRITE_WHILE_ACTIVE : Fld := ⟨DRUM_STATUS, 3, 1⟩
abbrev DRUM_STATUS_IN_LOST : Fld := ⟨DRUM_STATUS, 2, 1⟩
abbrev DRUM_STATUS_HOLDOVER : Fld := ⟨DRUM_STATUS, 1, 1⟩
abbrev DRUM_STATUS_ACTIVE_SOURCE : Fld := ⟨DRUM_STATUS, 0, 1⟩
/-- DRUM COUNT_LO, R25. -/
abbrev DRUM_COUNT_LO : Nat := reg 1 0 (0x10)
abbrev DRUM_COUNT_LO_COUNT : Fld := ⟨DRUM_COUNT_LO, 0, 32⟩
/-- DRUM COUNT_HI, R25. -/
abbrev DRUM_COUNT_HI : Nat := reg 1 0 (0x14)
abbrev DRUM_COUNT_HI_COUNT : Fld := ⟨DRUM_COUNT_HI, 0, 32⟩

/-! ### GP (spec/02_sessions_and_guest_ports.md) -/

/-- GP CTRL, R43. -/
abbrev GP_CTRL (n : Nat) : Nat := reg 13 n (0x0)
abbrev GP_CTRL_LOCK (n : Nat) : Fld := ⟨GP_CTRL n, 31, 1⟩
abbrev GP_CTRL_APERTURE_LOG2 (n : Nat) : Fld := ⟨GP_CTRL n, 16, 5⟩
abbrev GP_CTRL_TOTAL_VFS (n : Nat) : Fld := ⟨GP_CTRL n, 8, 4⟩
abbrev GP_CTRL_MAX_SPEED (n : Nat) : Fld := ⟨GP_CTRL n, 4, 2⟩
abbrev GP_CTRL_RELEASE (n : Nat) : Fld := ⟨GP_CTRL n, 1, 1⟩
abbrev GP_CTRL_EN (n : Nat) : Fld := ⟨GP_CTRL n, 0, 1⟩
/-- GP STATUS, R52. -/
abbrev GP_STATUS (n : Nat) : Nat := reg 13 n (0x4)
abbrev GP_STATUS_EVENTS (n : Nat) : Fld := ⟨GP_STATUS n, 24, 8⟩
abbrev GP_STATUS_FLR_EVT (n : Nat) : Fld := ⟨GP_STATUS n, 17, 1⟩
abbrev GP_STATUS_LINK_DOWN_EVT (n : Nat) : Fld := ⟨GP_STATUS n, 16, 1⟩
abbrev GP_STATUS_NUM_VFS (n : Nat) : Fld := ⟨GP_STATUS n, 8, 4⟩
abbrev GP_STATUS_PERST (n : Nat) : Fld := ⟨GP_STATUS n, 6, 1⟩
abbrev GP_STATUS_SPEED (n : Nat) : Fld := ⟨GP_STATUS n, 4, 2⟩
abbrev GP_STATUS_WIDTH (n : Nat) : Fld := ⟨GP_STATUS n, 1, 3⟩
abbrev GP_STATUS_LINK_UP (n : Nat) : Fld := ⟨GP_STATUS n, 0, 1⟩
/-- GP SUBSYS, R46. -/
abbrev GP_SUBSYS (n : Nat) : Nat := reg 13 n (0x8)
abbrev GP_SUBSYS_SUBSYS_ID (n : Nat) : Fld := ⟨GP_SUBSYS n, 16, 16⟩
abbrev GP_SUBSYS_SUBSYS_VENDOR (n : Nat) : Fld := ⟨GP_SUBSYS n, 0, 16⟩

/-! ### SESS (spec/02_sessions_and_guest_ports.md) -/

/-- SESS CTRL, R51. -/
abbrev SESS_CTRL (n : Nat) : Nat := reg 14 n (0x1000)
abbrev SESS_CTRL_LOCK (n : Nat) : Fld := ⟨SESS_CTRL n, 31, 1⟩
abbrev SESS_CTRL_SLOT (n : Nat) : Fld := ⟨SESS_CTRL n, 16, 4⟩
abbrev SESS_CTRL_FUNC (n : Nat) : Fld := ⟨SESS_CTRL n, 12, 4⟩
abbrev SESS_CTRL_PORT (n : Nat) : Fld := ⟨SESS_CTRL n, 8, 2⟩
abbrev SESS_CTRL_LOG_ACCESS (n : Nat) : Fld := ⟨SESS_CTRL n, 4, 1⟩
abbrev SESS_CTRL_HAP_URGENT_OK (n : Nat) : Fld := ⟨SESS_CTRL n, 3, 1⟩
abbrev SESS_CTRL_DETACH_ACTION (n : Nat) : Fld := ⟨SESS_CTRL n, 2, 1⟩
abbrev SESS_CTRL_STATE (n : Nat) : Fld := ⟨SESS_CTRL n, 0, 2⟩
/-- SESS STATUS, R52. -/
abbrev SESS_STATUS (n : Nat) : Nat := reg 14 n (0x1004)
abbrev SESS_STATUS_EVENTS (n : Nat) : Fld := ⟨SESS_STATUS n, 24, 8⟩
abbrev SESS_STATUS_WIN_ERR_CODE (n : Nat) : Fld := ⟨SESS_STATUS n, 12, 3⟩
abbrev SESS_STATUS_DETACH_EVT (n : Nat) : Fld := ⟨SESS_STATUS n, 10, 1⟩
abbrev SESS_STATUS_WIN_ERR (n : Nat) : Fld := ⟨SESS_STATUS n, 9, 1⟩
abbrev SESS_STATUS_BIND_ERR (n : Nat) : Fld := ⟨SESS_STATUS n, 8, 1⟩
abbrev SESS_STATUS_QUOTA_HELD (n : Nat) : Fld := ⟨SESS_STATUS n, 1, 1⟩
abbrev SESS_STATUS_ATTACHED (n : Nat) : Fld := ⟨SESS_STATUS n, 0, 1⟩
/-- SESS QUOTA, R66. -/
abbrev SESS_QUOTA (n : Nat) : Nat := reg 14 n (0x1008)
abbrev SESS_QUOTA_UNITS (n : Nat) : Fld := ⟨SESS_QUOTA n, 0, 12⟩
/-- SESS PAGE_ID, R55. -/
abbrev SESS_PAGE_ID (n : Nat) : Nat := reg 14 n (0x0)
abbrev SESS_PAGE_ID_SLOT (n : Nat) : Fld := ⟨SESS_PAGE_ID n, 16, 4⟩
abbrev SESS_PAGE_ID_FUNC (n : Nat) : Fld := ⟨SESS_PAGE_ID n, 12, 4⟩
abbrev SESS_PAGE_ID_PORT (n : Nat) : Fld := ⟨SESS_PAGE_ID n, 8, 2⟩
abbrev SESS_PAGE_ID_SESSION (n : Nat) : Fld := ⟨SESS_PAGE_ID n, 0, 8⟩
/-- SESS PAGE_STATUS, R48. -/
abbrev SESS_PAGE_STATUS (n : Nat) : Nat := reg 14 n (0x4)
abbrev SESS_PAGE_STATUS_EVENTS (n : Nat) : Fld := ⟨SESS_PAGE_STATUS n, 24, 8⟩
abbrev SESS_PAGE_STATUS_CFG_ERR (n : Nat) : Fld := ⟨SESS_PAGE_STATUS n, 3, 1⟩
abbrev SESS_PAGE_STATUS_HANDLE_ERR (n : Nat) : Fld := ⟨SESS_PAGE_STATUS n, 2, 1⟩
abbrev SESS_PAGE_STATUS_BAR2_ERR (n : Nat) : Fld := ⟨SESS_PAGE_STATUS n, 1, 1⟩
abbrev SESS_PAGE_STATUS_QUOTA_HELD (n : Nat) : Fld := ⟨SESS_PAGE_STATUS n, 0, 1⟩
/-- SESS RES_LAYER, R55. -/
abbrev SESS_RES_LAYER (n : Nat) : Nat := reg 14 n (0x20)
abbrev SESS_RES_LAYER_LAYER (n : Nat) : Fld := ⟨SESS_RES_LAYER n, 0, 16⟩
/-- SESS RES_OTHER, R55. -/
abbrev SESS_RES_OTHER (n : Nat) : Nat := reg 14 n (0x24)
abbrev SESS_RES_OTHER_HAPTIC (n : Nat) : Fld := ⟨SESS_RES_OTHER n, 8, 4⟩
abbrev SESS_RES_OTHER_AUDIO (n : Nat) : Fld := ⟨SESS_RES_OTHER n, 0, 8⟩
/-- SESS SEM, R57. -/
abbrev SESS_SEM (n k : Nat) : Nat := reg 14 n (0x100 + 4 * k)
abbrev SESS_SEM_VALUE (n k : Nat) : Fld := ⟨SESS_SEM n k, 0, 32⟩
/-- SESS SEM_ADD, R57. -/
abbrev SESS_SEM_ADD (n k : Nat) : Nat := reg 14 n (0x140 + 4 * k)
abbrev SESS_SEM_ADD_ADD (n k : Nat) : Fld := ⟨SESS_SEM_ADD n k, 0, 32⟩
/-- SESS DB_HAPTIC, R58. -/
abbrev SESS_DB_HAPTIC (n : Nat) : Nat := reg 14 n (0x10)
abbrev SESS_DB_HAPTIC_URGENT (n : Nat) : Fld := ⟨SESS_DB_HAPTIC n, 16, 1⟩
abbrev SESS_DB_HAPTIC_EFFECT (n : Nat) : Fld := ⟨SESS_DB_HAPTIC n, 8, 6⟩
abbrev SESS_DB_HAPTIC_HANDLE (n : Nat) : Fld := ⟨SESS_DB_HAPTIC n, 0, 2⟩
/-- SESS TQ_BASE, R59. -/
abbrev SESS_TQ_BASE (n : Nat) : Nat := reg 14 n (0x200)
abbrev SESS_TQ_BASE_OFFSET (n : Nat) : Fld := ⟨SESS_TQ_BASE n, 0, 28⟩
/-- SESS TQ_CTRL, R59. -/
abbrev SESS_TQ_CTRL (n : Nat) : Nat := reg 14 n (0x204)
abbrev SESS_TQ_CTRL_SIZE_LOG2 (n : Nat) : Fld := ⟨SESS_TQ_CTRL n, 16, 4⟩
abbrev SESS_TQ_CTRL_EN (n : Nat) : Fld := ⟨SESS_TQ_CTRL n, 0, 1⟩
/-- SESS TQ_WR, R60. -/
abbrev SESS_TQ_WR (n : Nat) : Nat := reg 14 n (0x208)
abbrev SESS_TQ_WR_INDEX (n : Nat) : Fld := ⟨SESS_TQ_WR n, 0, 12⟩
/-- SESS TQ_RD, R60. -/
abbrev SESS_TQ_RD (n : Nat) : Nat := reg 14 n (0x20c)
abbrev SESS_TQ_RD_INDEX (n : Nat) : Fld := ⟨SESS_TQ_RD n, 0, 12⟩
/-- SESS TQ_STATUS, R60. -/
abbrev SESS_TQ_STATUS (n : Nat) : Nat := reg 14 n (0x210)
abbrev SESS_TQ_STATUS_DROPPED (n : Nat) : Fld := ⟨SESS_TQ_STATUS n, 8, 16⟩
abbrev SESS_TQ_STATUS_OVERFLOW (n : Nat) : Fld := ⟨SESS_TQ_STATUS n, 0, 1⟩
/-- SESS AS_BASE, R61. -/
abbrev SESS_AS_BASE (n a : Nat) : Nat := reg 14 n (0x300 + 32 * a)
abbrev SESS_AS_BASE_OFFSET (n a : Nat) : Fld := ⟨SESS_AS_BASE n a, 0, 28⟩
/-- SESS AS_CTRL, R61. -/
abbrev SESS_AS_CTRL (n a : Nat) : Nat := reg 14 n (0x304 + 32 * a)
abbrev SESS_AS_CTRL_BLOCKS (n a : Nat) : Fld := ⟨SESS_AS_CTRL n a, 16, 16⟩
abbrev SESS_AS_CTRL_START (n a : Nat) : Fld := ⟨SESS_AS_CTRL n a, 0, 1⟩
/-- SESS AS_RD, R61. -/
abbrev SESS_AS_RD (n a : Nat) : Nat := reg 14 n (0x308 + 32 * a)
abbrev SESS_AS_RD_INDEX (n a : Nat) : Fld := ⟨SESS_AS_RD n a, 0, 22⟩
/-- SESS AS_WR, R61. -/
abbrev SESS_AS_WR (n a : Nat) : Nat := reg 14 n (0x30c + 32 * a)
abbrev SESS_AS_WR_INDEX (n a : Nat) : Fld := ⟨SESS_AS_WR n a, 0, 22⟩
/-- SESS AS_STATUS, R61. -/
abbrev SESS_AS_STATUS (n a : Nat) : Nat := reg 14 n (0x310 + 32 * a)
abbrev SESS_AS_STATUS_UNDERRUNS (n a : Nat) : Fld := ⟨SESS_AS_STATUS n a, 8, 16⟩
abbrev SESS_AS_STATUS_RUNNING (n a : Nat) : Fld := ⟨SESS_AS_STATUS n a, 0, 1⟩
/-- SESS IRQ_STATUS, R62. -/
abbrev SESS_IRQ_STATUS (n : Nat) : Nat := reg 14 n (0xd00)
abbrev SESS_IRQ_STATUS_AS_LOW (n : Nat) : Fld := ⟨SESS_IRQ_STATUS n, 8, 8⟩
abbrev SESS_IRQ_STATUS_BAR2_ERR (n : Nat) : Fld := ⟨SESS_IRQ_STATUS n, 3, 1⟩
abbrev SESS_IRQ_STATUS_COMMIT (n : Nat) : Fld := ⟨SESS_IRQ_STATUS n, 2, 1⟩
abbrev SESS_IRQ_STATUS_TQ_OVERFLOW (n : Nat) : Fld := ⟨SESS_IRQ_STATUS n, 1, 1⟩
abbrev SESS_IRQ_STATUS_TQ_NEW (n : Nat) : Fld := ⟨SESS_IRQ_STATUS n, 0, 1⟩
/-- SESS IRQ_ENABLE, R62. -/
abbrev SESS_IRQ_ENABLE (n : Nat) : Nat := reg 14 n (0xd04)
abbrev SESS_IRQ_ENABLE_AS_LOW (n : Nat) : Fld := ⟨SESS_IRQ_ENABLE n, 8, 8⟩
abbrev SESS_IRQ_ENABLE_BAR2_ERR (n : Nat) : Fld := ⟨SESS_IRQ_ENABLE n, 3, 1⟩
abbrev SESS_IRQ_ENABLE_COMMIT (n : Nat) : Fld := ⟨SESS_IRQ_ENABLE n, 2, 1⟩
abbrev SESS_IRQ_ENABLE_TQ_OVERFLOW (n : Nat) : Fld := ⟨SESS_IRQ_ENABLE n, 1, 1⟩
abbrev SESS_IRQ_ENABLE_TQ_NEW (n : Nat) : Fld := ⟨SESS_IRQ_ENABLE n, 0, 1⟩
/-- SESS IRQ_VECTOR, R62. -/
abbrev SESS_IRQ_VECTOR (n : Nat) : Nat := reg 14 n (0xd08)
abbrev SESS_IRQ_VECTOR_VECTOR (n : Nat) : Fld := ⟨SESS_IRQ_VECTOR n, 0, 5⟩

/-! ### SESS (spec/15_logbook_and_black_box.md) -/

/-- SESS RD_SEQ, R432. -/
abbrev SESS_RD_SEQ (n : Nat) : Nat := reg 14 n (0xe08)
abbrev SESS_RD_SEQ_SEQ (n : Nat) : Fld := ⟨SESS_RD_SEQ n, 0, 32⟩

/-! ### SESS (spec/02_sessions_and_guest_ports.md) -/

/-- SESS WIN_DEV, R63. -/
abbrev SESS_WIN_DEV (n k : Nat) : Nat := reg 14 n (0x1100 + 16 * k)
abbrev SESS_WIN_DEV_DEV (n k : Nat) : Fld := ⟨SESS_WIN_DEV n k, 0, 19⟩
/-- SESS WIN_GOFF, R63. -/
abbrev SESS_WIN_GOFF (n k : Nat) : Nat := reg 14 n (0x1104 + 16 * k)
abbrev SESS_WIN_GOFF_GOFF (n k : Nat) : Fld := ⟨SESS_WIN_GOFF n k, 0, 13⟩
/-- SESS WIN_CTRL, R63. -/
abbrev SESS_WIN_CTRL (n k : Nat) : Nat := reg 14 n (0x1108 + 16 * k)
abbrev SESS_WIN_CTRL_MIRRORED (n k : Nat) : Fld := ⟨SESS_WIN_CTRL n k, 18, 1⟩
abbrev SESS_WIN_CTRL_GUEST_RO (n k : Nat) : Fld := ⟨SESS_WIN_CTRL n k, 17, 1⟩
abbrev SESS_WIN_CTRL_VALID (n k : Nat) : Fld := ⟨SESS_WIN_CTRL n k, 16, 1⟩
abbrev SESS_WIN_CTRL_SIZE (n k : Nat) : Fld := ⟨SESS_WIN_CTRL n k, 0, 14⟩

/-! ### LAYER (spec/02_sessions_and_guest_ports.md) -/

/-- LAYER OWNER, R68. -/
abbrev LAYER_OWNER (n : Nat) : Nat := reg 6 n (0xfff0)
abbrev LAYER_OWNER_LOCK (n : Nat) : Fld := ⟨LAYER_OWNER n, 31, 1⟩
abbrev LAYER_OWNER_REFUSED (n : Nat) : Fld := ⟨LAYER_OWNER n, 30, 1⟩
abbrev LAYER_OWNER_EVENTS (n : Nat) : Fld := ⟨LAYER_OWNER n, 16, 8⟩
abbrev LAYER_OWNER_HANDLE (n : Nat) : Fld := ⟨LAYER_OWNER n, 12, 4⟩
abbrev LAYER_OWNER_VALID (n : Nat) : Fld := ⟨LAYER_OWNER n, 8, 1⟩
abbrev LAYER_OWNER_SESSION (n : Nat) : Fld := ⟨LAYER_OWNER n, 0, 8⟩

/-! ### SCL (spec/02_sessions_and_guest_ports.md) -/

/-- SCL OWNER, R68. -/
abbrev SCL_OWNER (n : Nat) : Nat := reg 8 n (0xfff0)
abbrev SCL_OWNER_LOCK (n : Nat) : Fld := ⟨SCL_OWNER n, 31, 1⟩
abbrev SCL_OWNER_REFUSED (n : Nat) : Fld := ⟨SCL_OWNER n, 30, 1⟩
abbrev SCL_OWNER_EVENTS (n : Nat) : Fld := ⟨SCL_OWNER n, 16, 8⟩
abbrev SCL_OWNER_HANDLE (n : Nat) : Fld := ⟨SCL_OWNER n, 12, 4⟩
abbrev SCL_OWNER_VALID (n : Nat) : Fld := ⟨SCL_OWNER n, 8, 1⟩
abbrev SCL_OWNER_SESSION (n : Nat) : Fld := ⟨SCL_OWNER n, 0, 8⟩

/-! ### HC (spec/02_sessions_and_guest_ports.md) -/

/-- HC OWNER, R68. -/
abbrev HC_OWNER (n : Nat) : Nat := reg 17 n (0xfff0)
abbrev HC_OWNER_LOCK (n : Nat) : Fld := ⟨HC_OWNER n, 31, 1⟩
abbrev HC_OWNER_REFUSED (n : Nat) : Fld := ⟨HC_OWNER n, 30, 1⟩
abbrev HC_OWNER_EVENTS (n : Nat) : Fld := ⟨HC_OWNER n, 16, 8⟩
abbrev HC_OWNER_HANDLE (n : Nat) : Fld := ⟨HC_OWNER n, 12, 4⟩
abbrev HC_OWNER_VALID (n : Nat) : Fld := ⟨HC_OWNER n, 8, 1⟩
abbrev HC_OWNER_SESSION (n : Nat) : Fld := ⟨HC_OWNER n, 0, 8⟩

/-! ### AUD (spec/02_sessions_and_guest_ports.md) -/

/-- AUD STREAM_OWNER, R68. -/
abbrev AUD_STREAM_OWNER (k : Nat) : Nat := reg 19 0 (0xff00 + 4 * k)
abbrev AUD_STREAM_OWNER_LOCK (k : Nat) : Fld := ⟨AUD_STREAM_OWNER k, 31, 1⟩
abbrev AUD_STREAM_OWNER_REFUSED (k : Nat) : Fld := ⟨AUD_STREAM_OWNER k, 30, 1⟩
abbrev AUD_STREAM_OWNER_EVENTS (k : Nat) : Fld := ⟨AUD_STREAM_OWNER k, 16, 8⟩
abbrev AUD_STREAM_OWNER_HANDLE (k : Nat) : Fld := ⟨AUD_STREAM_OWNER k, 12, 4⟩
abbrev AUD_STREAM_OWNER_VALID (k : Nat) : Fld := ⟨AUD_STREAM_OWNER k, 8, 1⟩
abbrev AUD_STREAM_OWNER_SESSION (k : Nat) : Fld := ⟨AUD_STREAM_OWNER k, 0, 8⟩

/-! ### TOUCH (spec/02_sessions_and_guest_ports.md) -/

/-- TOUCH ZONE_OWNER, R68. -/
abbrev TOUCH_ZONE_OWNER (n k : Nat) : Nat := reg 16 n (0xff00 + 4 * k)
abbrev TOUCH_ZONE_OWNER_LOCK (n k : Nat) : Fld := ⟨TOUCH_ZONE_OWNER n k, 31, 1⟩
abbrev TOUCH_ZONE_OWNER_REFUSED (n k : Nat) : Fld := ⟨TOUCH_ZONE_OWNER n k, 30, 1⟩
abbrev TOUCH_ZONE_OWNER_EVENTS (n k : Nat) : Fld := ⟨TOUCH_ZONE_OWNER n k, 16, 8⟩
abbrev TOUCH_ZONE_OWNER_HANDLE (n k : Nat) : Fld := ⟨TOUCH_ZONE_OWNER n k, 12, 4⟩
abbrev TOUCH_ZONE_OWNER_VALID (n k : Nat) : Fld := ⟨TOUCH_ZONE_OWNER n k, 8, 1⟩
abbrev TOUCH_ZONE_OWNER_SESSION (n k : Nat) : Fld := ⟨TOUCH_ZONE_OWNER n k, 0, 8⟩

/-! ### SCREEN (spec/03_screen_timing_and_ports.md) -/

/-- SCREEN CTRL, R71. -/
abbrev SCREEN_CTRL (n : Nat) : Nat := reg 2 n (0x0)
abbrev SCREEN_CTRL_BPC30 (n : Nat) : Fld := ⟨SCREEN_CTRL n, 16, 1⟩
abbrev SCREEN_CTRL_PIPE (n : Nat) : Fld := ⟨SCREEN_CTRL n, 8, 4⟩
abbrev SCREEN_CTRL_PORT (n : Nat) : Fld := ⟨SCREEN_CTRL n, 4, 3⟩
abbrev SCREEN_CTRL_RUN (n : Nat) : Fld := ⟨SCREEN_CTRL n, 0, 1⟩
/-- SCREEN TIMING_H, R69. -/
abbrev SCREEN_TIMING_H (n : Nat) : Nat := reg 2 n (0x10)
abbrev SCREEN_TIMING_H_H_TOTAL (n : Nat) : Fld := ⟨SCREEN_TIMING_H n, 16, 16⟩
abbrev SCREEN_TIMING_H_H_ACTIVE (n : Nat) : Fld := ⟨SCREEN_TIMING_H n, 0, 16⟩
/-- SCREEN TIMING_HS, R69. -/
abbrev SCREEN_TIMING_HS (n : Nat) : Nat := reg 2 n (0x14)
abbrev SCREEN_TIMING_HS_HS_POL (n : Nat) : Fld := ⟨SCREEN_TIMING_HS n, 31, 1⟩
abbrev SCREEN_TIMING_HS_HS_WIDTH (n : Nat) : Fld := ⟨SCREEN_TIMING_HS n, 16, 12⟩
abbrev SCREEN_TIMING_HS_HS_FP (n : Nat) : Fld := ⟨SCREEN_TIMING_HS n, 0, 16⟩
/-- SCREEN TIMING_V, R69. -/
abbrev SCREEN_TIMING_V (n : Nat) : Nat := reg 2 n (0x18)
abbrev SCREEN_TIMING_V_V_TOTAL (n : Nat) : Fld := ⟨SCREEN_TIMING_V n, 16, 16⟩
abbrev SCREEN_TIMING_V_V_ACTIVE (n : Nat) : Fld := ⟨SCREEN_TIMING_V n, 0, 16⟩
/-- SCREEN TIMING_VS, R69. -/
abbrev SCREEN_TIMING_VS (n : Nat) : Nat := reg 2 n (0x1c)
abbrev SCREEN_TIMING_VS_VS_POL (n : Nat) : Fld := ⟨SCREEN_TIMING_VS n, 31, 1⟩
abbrev SCREEN_TIMING_VS_VS_WIDTH (n : Nat) : Fld := ⟨SCREEN_TIMING_VS n, 16, 12⟩
abbrev SCREEN_TIMING_VS_VS_FP (n : Nat) : Fld := ⟨SCREEN_TIMING_VS n, 0, 16⟩
/-- SCREEN TIMING_BEAT, R31. -/
abbrev SCREEN_TIMING_BEAT (n : Nat) : Nat := reg 2 n (0x20)
abbrev SCREEN_TIMING_BEAT_STAGGER (n : Nat) : Fld := ⟨SCREEN_TIMING_BEAT n, 16, 14⟩
abbrev SCREEN_TIMING_BEAT_BEATS (n : Nat) : Fld := ⟨SCREEN_TIMING_BEAT n, 0, 5⟩
/-- SCREEN VRR, R79. -/
abbrev SCREEN_VRR (n : Nat) : Nat := reg 2 n (0x24)
abbrev SCREEN_VRR_VT_MAX (n : Nat) : Fld := ⟨SCREEN_VRR n, 16, 16⟩
abbrev SCREEN_VRR_VT_MIN (n : Nat) : Fld := ⟨SCREEN_VRR n, 0, 16⟩
/-- SCREEN STATUS, R72. -/
abbrev SCREEN_STATUS (n : Nat) : Nat := reg 2 n (0x30)
abbrev SCREEN_STATUS_EVENTS (n : Nat) : Fld := ⟨SCREEN_STATUS n, 24, 8⟩
abbrev SCREEN_STATUS_ERR_CODE (n : Nat) : Fld := ⟨SCREEN_STATUS n, 20, 4⟩
abbrev SCREEN_STATUS_WRITE_WHILE_ACTIVE (n : Nat) : Fld := ⟨SCREEN_STATUS n, 18, 1⟩
abbrev SCREEN_STATUS_CFG_ERR (n : Nat) : Fld := ⟨SCREEN_STATUS n, 17, 1⟩
abbrev SCREEN_STATUS_RUNNING (n : Nat) : Fld := ⟨SCREEN_STATUS n, 16, 1⟩
abbrev SCREEN_STATUS_LOWERED (n : Nat) : Fld := ⟨SCREEN_STATUS n, 15, 1⟩
abbrev SCREEN_STATUS_LINE (n : Nat) : Fld := ⟨SCREEN_STATUS n, 0, 14⟩
/-- SCREEN FRAME, R74. -/
abbrev SCREEN_FRAME (n : Nat) : Nat := reg 2 n (0x34)
abbrev SCREEN_FRAME_FRAME (n : Nat) : Fld := ⟨SCREEN_FRAME n, 0, 32⟩
/-- SCREEN LATCH_DRUM, R75. -/
abbrev SCREEN_LATCH_DRUM (n : Nat) : Nat := reg 2 n (0x38)
abbrev SCREEN_LATCH_DRUM_DRUM (n : Nat) : Fld := ⟨SCREEN_LATCH_DRUM n, 0, 32⟩
/-- SCREEN LOWER, R79. -/
abbrev SCREEN_LOWER (n : Nat) : Nat := reg 2 n (0x40)
abbrev SCREEN_LOWER_FORCED (n : Nat) : Fld := ⟨SCREEN_LOWER n, 31, 1⟩
abbrev SCREEN_LOWER_QUIET (n : Nat) : Fld := ⟨SCREEN_LOWER n, 16, 8⟩
abbrev SCREEN_LOWER_MULT (n : Nat) : Fld := ⟨SCREEN_LOWER n, 8, 4⟩
abbrev SCREEN_LOWER_EN (n : Nat) : Fld := ⟨SCREEN_LOWER n, 0, 1⟩
/-- SCREEN RT_TIMING_H, R83. -/
abbrev SCREEN_RT_TIMING_H (n : Nat) : Nat := reg 2 n (0x50)
abbrev SCREEN_RT_TIMING_H_H_TOTAL (n : Nat) : Fld := ⟨SCREEN_RT_TIMING_H n, 16, 16⟩
abbrev SCREEN_RT_TIMING_H_H_ACTIVE (n : Nat) : Fld := ⟨SCREEN_RT_TIMING_H n, 0, 16⟩
/-- SCREEN RT_TIMING_HS, R83. -/
abbrev SCREEN_RT_TIMING_HS (n : Nat) : Nat := reg 2 n (0x54)
abbrev SCREEN_RT_TIMING_HS_HS_POL (n : Nat) : Fld := ⟨SCREEN_RT_TIMING_HS n, 31, 1⟩
abbrev SCREEN_RT_TIMING_HS_HS_WIDTH (n : Nat) : Fld := ⟨SCREEN_RT_TIMING_HS n, 16, 12⟩
abbrev SCREEN_RT_TIMING_HS_HS_FP (n : Nat) : Fld := ⟨SCREEN_RT_TIMING_HS n, 0, 16⟩
/-- SCREEN RT_TIMING_V, R83. -/
abbrev SCREEN_RT_TIMING_V (n : Nat) : Nat := reg 2 n (0x58)
abbrev SCREEN_RT_TIMING_V_V_TOTAL (n : Nat) : Fld := ⟨SCREEN_RT_TIMING_V n, 16, 16⟩
abbrev SCREEN_RT_TIMING_V_V_ACTIVE (n : Nat) : Fld := ⟨SCREEN_RT_TIMING_V n, 0, 16⟩
/-- SCREEN RT_TIMING_VS, R83. -/
abbrev SCREEN_RT_TIMING_VS (n : Nat) : Nat := reg 2 n (0x5c)
abbrev SCREEN_RT_TIMING_VS_VS_POL (n : Nat) : Fld := ⟨SCREEN_RT_TIMING_VS n, 31, 1⟩
abbrev SCREEN_RT_TIMING_VS_VS_WIDTH (n : Nat) : Fld := ⟨SCREEN_RT_TIMING_VS n, 16, 12⟩
abbrev SCREEN_RT_TIMING_VS_VS_FP (n : Nat) : Fld := ⟨SCREEN_RT_TIMING_VS n, 0, 16⟩
/-- SCREEN RT_TIMING_BEAT, R83. -/
abbrev SCREEN_RT_TIMING_BEAT (n : Nat) : Nat := reg 2 n (0x60)
abbrev SCREEN_RT_TIMING_BEAT_STAGGER (n : Nat) : Fld := ⟨SCREEN_RT_TIMING_BEAT n, 16, 14⟩
abbrev SCREEN_RT_TIMING_BEAT_BEATS (n : Nat) : Fld := ⟨SCREEN_RT_TIMING_BEAT n, 0, 5⟩
/-- SCREEN RT_VRR, R83. -/
abbrev SCREEN_RT_VRR (n : Nat) : Nat := reg 2 n (0x64)
abbrev SCREEN_RT_VRR_VT_MAX (n : Nat) : Fld := ⟨SCREEN_RT_VRR n, 16, 16⟩
abbrev SCREEN_RT_VRR_VT_MIN (n : Nat) : Fld := ⟨SCREEN_RT_VRR n, 0, 16⟩
/-- SCREEN RT_LINK, R83. -/
abbrev SCREEN_RT_LINK (n : Nat) : Nat := reg 2 n (0x68)
abbrev SCREEN_RT_LINK_BPC30 (n : Nat) : Fld := ⟨SCREEN_RT_LINK n, 16, 1⟩
abbrev SCREEN_RT_LINK_LANES (n : Nat) : Fld := ⟨SCREEN_RT_LINK n, 4, 2⟩
abbrev SCREEN_RT_LINK_RATE (n : Nat) : Fld := ⟨SCREEN_RT_LINK n, 0, 3⟩
/-- SCREEN RETIME, R83. -/
abbrev SCREEN_RETIME (n : Nat) : Nat := reg 2 n (0x70)
abbrev SCREEN_RETIME_EVENTS (n : Nat) : Fld := ⟨SCREEN_RETIME n, 24, 8⟩
abbrev SCREEN_RETIME_REFUSED (n : Nat) : Fld := ⟨SCREEN_RETIME n, 17, 1⟩
abbrev SCREEN_RETIME_DONE (n : Nat) : Fld := ⟨SCREEN_RETIME n, 16, 1⟩
abbrev SCREEN_RETIME_CLASS (n : Nat) : Fld := ⟨SCREEN_RETIME n, 8, 2⟩
abbrev SCREEN_RETIME_STATE (n : Nat) : Fld := ⟨SCREEN_RETIME n, 1, 2⟩
abbrev SCREEN_RETIME_GO (n : Nat) : Fld := ⟨SCREEN_RETIME n, 0, 1⟩

/-! ### DPO (spec/03_screen_timing_and_ports.md) -/

/-- DPO CTRL, R89. -/
abbrev DPO_CTRL (n : Nat) : Nat := reg 4 n (0x0)
abbrev DPO_CTRL_MAX_RATE (n : Nat) : Fld := ⟨DPO_CTRL n, 16, 3⟩
abbrev DPO_CTRL_SSC (n : Nat) : Fld := ⟨DPO_CTRL n, 8, 1⟩
abbrev DPO_CTRL_AUDIO_EN (n : Nat) : Fld := ⟨DPO_CTRL n, 7, 1⟩
abbrev DPO_CTRL_HALVE_OK (n : Nat) : Fld := ⟨DPO_CTRL n, 6, 1⟩
abbrev DPO_CTRL_FALLBACK (n : Nat) : Fld := ⟨DPO_CTRL n, 5, 1⟩
abbrev DPO_CTRL_AUTO_RELINK (n : Nat) : Fld := ⟨DPO_CTRL n, 4, 1⟩
abbrev DPO_CTRL_ADAPTIVE_SYNC (n : Nat) : Fld := ⟨DPO_CTRL n, 3, 1⟩
abbrev DPO_CTRL_ASSR (n : Nat) : Fld := ⟨DPO_CTRL n, 2, 1⟩
abbrev DPO_CTRL_EDP (n : Nat) : Fld := ⟨DPO_CTRL n, 1, 1⟩
abbrev DPO_CTRL_EN (n : Nat) : Fld := ⟨DPO_CTRL n, 0, 1⟩
/-- DPO LINK_CTRL, R89. -/
abbrev DPO_LINK_CTRL (n : Nat) : Nat := reg 4 n (0x4)
abbrev DPO_LINK_CTRL_TRAIN (n : Nat) : Fld := ⟨DPO_LINK_CTRL n, 8, 1⟩
abbrev DPO_LINK_CTRL_LANES (n : Nat) : Fld := ⟨DPO_LINK_CTRL n, 4, 2⟩
abbrev DPO_LINK_CTRL_RATE (n : Nat) : Fld := ⟨DPO_LINK_CTRL n, 0, 3⟩
/-- DPO LINK_STATUS, R90. -/
abbrev DPO_LINK_STATUS (n : Nat) : Nat := reg 4 n (0x8)
abbrev DPO_LINK_STATUS_EVENTS (n : Nat) : Fld := ⟨DPO_LINK_STATUS n, 24, 8⟩
abbrev DPO_LINK_STATUS_DEGRADED (n : Nat) : Fld := ⟨DPO_LINK_STATUS n, 23, 1⟩
abbrev DPO_LINK_STATUS_UNPLUG (n : Nat) : Fld := ⟨DPO_LINK_STATUS n, 22, 1⟩
abbrev DPO_LINK_STATUS_IRQ_HPD (n : Nat) : Fld := ⟨DPO_LINK_STATUS n, 21, 1⟩
abbrev DPO_LINK_STATUS_TRAIN_FAIL (n : Nat) : Fld := ⟨DPO_LINK_STATUS n, 20, 1⟩
abbrev DPO_LINK_STATUS_WRITE_WHILE_ACTIVE (n : Nat) : Fld := ⟨DPO_LINK_STATUS n, 19, 1⟩
abbrev DPO_LINK_STATUS_CFG_ERR (n : Nat) : Fld := ⟨DPO_LINK_STATUS n, 18, 1⟩
abbrev DPO_LINK_STATUS_LIVE_RATE (n : Nat) : Fld := ⟨DPO_LINK_STATUS n, 8, 3⟩
abbrev DPO_LINK_STATUS_LIVE_LANES (n : Nat) : Fld := ⟨DPO_LINK_STATUS n, 4, 2⟩
abbrev DPO_LINK_STATUS_HPD (n : Nat) : Fld := ⟨DPO_LINK_STATUS n, 2, 1⟩
abbrev DPO_LINK_STATUS_TRAINING (n : Nat) : Fld := ⟨DPO_LINK_STATUS n, 1, 1⟩
abbrev DPO_LINK_STATUS_LINK_OK (n : Nat) : Fld := ⟨DPO_LINK_STATUS n, 0, 1⟩
/-- DPO AUX_CMD, R97. -/
abbrev DPO_AUX_CMD (n : Nat) : Nat := reg 4 n (0x20)
abbrev DPO_AUX_CMD_REQ (n : Nat) : Fld := ⟨DPO_AUX_CMD n, 28, 4⟩
abbrev DPO_AUX_CMD_ADDR (n : Nat) : Fld := ⟨DPO_AUX_CMD n, 8, 20⟩
abbrev DPO_AUX_CMD_LEN (n : Nat) : Fld := ⟨DPO_AUX_CMD n, 0, 4⟩
/-- DPO AUX_DATA, R97. -/
abbrev DPO_AUX_DATA (n k : Nat) : Nat := reg 4 n (0x24 + 4 * k)
abbrev DPO_AUX_DATA_DATA (n k : Nat) : Fld := ⟨DPO_AUX_DATA n k, 0, 32⟩
/-- DPO AUX_STATUS, R97. -/
abbrev DPO_AUX_STATUS (n : Nat) : Nat := reg 4 n (0x34)
abbrev DPO_AUX_STATUS_EVENTS (n : Nat) : Fld := ⟨DPO_AUX_STATUS n, 24, 8⟩
abbrev DPO_AUX_STATUS_REPLY (n : Nat) : Fld := ⟨DPO_AUX_STATUS n, 16, 2⟩
abbrev DPO_AUX_STATUS_BYTES (n : Nat) : Fld := ⟨DPO_AUX_STATUS n, 8, 5⟩
abbrev DPO_AUX_STATUS_TIMEOUT (n : Nat) : Fld := ⟨DPO_AUX_STATUS n, 2, 1⟩
abbrev DPO_AUX_STATUS_DONE (n : Nat) : Fld := ⟨DPO_AUX_STATUS n, 1, 1⟩
abbrev DPO_AUX_STATUS_BUSY (n : Nat) : Fld := ⟨DPO_AUX_STATUS n, 0, 1⟩
/-- DPO I2C_CMD, R97. -/
abbrev DPO_I2C_CMD (n : Nat) : Nat := reg 4 n (0x40)
abbrev DPO_I2C_CMD_REQ (n : Nat) : Fld := ⟨DPO_I2C_CMD n, 28, 4⟩
abbrev DPO_I2C_CMD_ADDR (n : Nat) : Fld := ⟨DPO_I2C_CMD n, 8, 7⟩
abbrev DPO_I2C_CMD_LEN (n : Nat) : Fld := ⟨DPO_I2C_CMD n, 0, 4⟩
/-- DPO I2C_DATA, R97. -/
abbrev DPO_I2C_DATA (n k : Nat) : Nat := reg 4 n (0x44 + 4 * k)
abbrev DPO_I2C_DATA_DATA (n k : Nat) : Fld := ⟨DPO_I2C_DATA n k, 0, 32⟩
/-- DPO I2C_STATUS, R97. -/
abbrev DPO_I2C_STATUS (n : Nat) : Nat := reg 4 n (0x54)
abbrev DPO_I2C_STATUS_EVENTS (n : Nat) : Fld := ⟨DPO_I2C_STATUS n, 24, 8⟩
abbrev DPO_I2C_STATUS_REPLY (n : Nat) : Fld := ⟨DPO_I2C_STATUS n, 16, 2⟩
abbrev DPO_I2C_STATUS_BYTES (n : Nat) : Fld := ⟨DPO_I2C_STATUS n, 8, 5⟩
abbrev DPO_I2C_STATUS_TIMEOUT (n : Nat) : Fld := ⟨DPO_I2C_STATUS n, 2, 1⟩
abbrev DPO_I2C_STATUS_DONE (n : Nat) : Fld := ⟨DPO_I2C_STATUS n, 1, 1⟩
abbrev DPO_I2C_STATUS_BUSY (n : Nat) : Fld := ⟨DPO_I2C_STATUS n, 0, 1⟩
/-- DPO I2C_CFG, R97. -/
abbrev DPO_I2C_CFG (n : Nat) : Nat := reg 4 n (0x58)
abbrev DPO_I2C_CFG_FMPLUS (n : Nat) : Fld := ⟨DPO_I2C_CFG n, 0, 1⟩
/-- DPO PWRSEQ, R99. -/
abbrev DPO_PWRSEQ (n : Nat) : Nat := reg 4 n (0x60)
abbrev DPO_PWRSEQ_T_OFF_MIN (n : Nat) : Fld := ⟨DPO_PWRSEQ n, 24, 8⟩
abbrev DPO_PWRSEQ_T_VIDEO_VDD (n : Nat) : Fld := ⟨DPO_PWRSEQ n, 16, 8⟩
abbrev DPO_PWRSEQ_T_VIDEO_BL (n : Nat) : Fld := ⟨DPO_PWRSEQ n, 8, 8⟩
abbrev DPO_PWRSEQ_T_HPD (n : Nat) : Fld := ⟨DPO_PWRSEQ n, 0, 8⟩
/-- DPO PANEL, R99. -/
abbrev DPO_PANEL (n : Nat) : Nat := reg 4 n (0x64)
abbrev DPO_PANEL_EVENTS (n : Nat) : Fld := ⟨DPO_PANEL n, 24, 8⟩
abbrev DPO_PANEL_SEQ_ERR (n : Nat) : Fld := ⟨DPO_PANEL n, 8, 1⟩
abbrev DPO_PANEL_BL_EN_LIVE (n : Nat) : Fld := ⟨DPO_PANEL n, 4, 1⟩
abbrev DPO_PANEL_VDD_LIVE (n : Nat) : Fld := ⟨DPO_PANEL n, 3, 1⟩
abbrev DPO_PANEL_BL_ON (n : Nat) : Fld := ⟨DPO_PANEL n, 1, 1⟩
abbrev DPO_PANEL_PANEL_ON (n : Nat) : Fld := ⟨DPO_PANEL n, 0, 1⟩
/-- DPO BL_PWM, R103. -/
abbrev DPO_BL_PWM (n : Nat) : Nat := reg 4 n (0x70)
abbrev DPO_BL_PWM_POL (n : Nat) : Fld := ⟨DPO_BL_PWM n, 31, 1⟩
abbrev DPO_BL_PWM_SYNC (n : Nat) : Fld := ⟨DPO_BL_PWM n, 30, 1⟩
abbrev DPO_BL_PWM_PERIOD (n : Nat) : Fld := ⟨DPO_BL_PWM n, 0, 20⟩
/-- DPO BL_DUTY, R103. -/
abbrev DPO_BL_DUTY (n : Nat) : Nat := reg 4 n (0x74)
abbrev DPO_BL_DUTY_BROWNOUT_DUTY (n : Nat) : Fld := ⟨DPO_BL_DUTY n, 16, 16⟩
abbrev DPO_BL_DUTY_DUTY (n : Nat) : Fld := ⟨DPO_BL_DUTY n, 0, 16⟩

/-! ### XBAR (spec/03_screen_timing_and_ports.md) -/

/-- XBAR MAP, R105. -/
abbrev XBAR_MAP (p : Nat) : Nat := reg 5 0 (0x0 + 4 * p)
abbrev XBAR_MAP_VALID (p : Nat) : Fld := ⟨XBAR_MAP p, 31, 1⟩
abbrev XBAR_MAP_PIPE (p : Nat) : Fld := ⟨XBAR_MAP p, 8, 4⟩
abbrev XBAR_MAP_SCREEN (p : Nat) : Fld := ⟨XBAR_MAP p, 0, 3⟩
/-- XBAR SWAPS, R105. -/
abbrev XBAR_SWAPS : Nat := reg 5 0 (0x40)
abbrev XBAR_SWAPS_COUNT : Fld := ⟨XBAR_SWAPS, 0, 16⟩

/-! ### XBAR (spec/06_protected_content_and_sextant.md) -/

/-- XBAR WATCH, R198. -/
abbrev XBAR_WATCH : Nat := reg 5 0 (0x80)
abbrev XBAR_WATCH_EN : Fld := ⟨XBAR_WATCH, 8, 1⟩
abbrev XBAR_WATCH_SCREENS : Fld := ⟨XBAR_WATCH, 0, 8⟩

/-! ### LAYER (spec/04_layers_and_scaling.md) -/

/-- LAYER BIND, R108. -/
abbrev LAYER_BIND (n : Nat) : Nat := reg 6 n (0x100)
abbrev LAYER_BIND_LOCK (n : Nat) : Fld := ⟨LAYER_BIND n, 31, 1⟩
abbrev LAYER_BIND_REFUSED (n : Nat) : Fld := ⟨LAYER_BIND n, 30, 1⟩
abbrev LAYER_BIND_EVENTS (n : Nat) : Fld := ⟨LAYER_BIND n, 16, 8⟩
abbrev LAYER_BIND_VIN_EN (n : Nat) : Fld := ⟨LAYER_BIND n, 12, 1⟩
abbrev LAYER_BIND_VIN (n : Nat) : Fld := ⟨LAYER_BIND n, 10, 2⟩
abbrev LAYER_BIND_VALID (n : Nat) : Fld := ⟨LAYER_BIND n, 8, 1⟩
abbrev LAYER_BIND_Z (n : Nat) : Fld := ⟨LAYER_BIND n, 4, 4⟩
abbrev LAYER_BIND_SCREEN (n : Nat) : Fld := ⟨LAYER_BIND n, 0, 3⟩
/-- LAYER READY_POLICY, R131. -/
abbrev LAYER_READY_POLICY (n : Nat) : Nat := reg 6 n (0x104)
abbrev LAYER_READY_POLICY_ACTION (n : Nat) : Fld := ⟨LAYER_READY_POLICY n, 8, 2⟩
abbrev LAYER_READY_POLICY_LIMIT (n : Nat) : Fld := ⟨LAYER_READY_POLICY n, 0, 8⟩
/-- LAYER FILL, R132. -/
abbrev LAYER_FILL (n : Nat) : Nat := reg 6 n (0x108)
abbrev LAYER_FILL_A (n : Nat) : Fld := ⟨LAYER_FILL n, 24, 8⟩
abbrev LAYER_FILL_R_FILL (n : Nat) : Fld := ⟨LAYER_FILL n, 16, 8⟩
abbrev LAYER_FILL_G_FILL (n : Nat) : Fld := ⟨LAYER_FILL n, 8, 8⟩
abbrev LAYER_FILL_B_FILL (n : Nat) : Fld := ⟨LAYER_FILL n, 0, 8⟩
/-- LAYER active value of ADDR, R111. -/
abbrev LAYER_ACT_ADDR (n p : Nat) : Nat := reg 6 n (0x110 + 4 * p)
abbrev LAYER_ACT_ADDR_ADDR (n p : Nat) : Fld := ⟨LAYER_ACT_ADDR n p, 0, 32⟩
/-- LAYER CTRL, R112. -/
abbrev LAYER_CTRL (n : Nat) : Nat := reg 6 n (0x0)
abbrev LAYER_CTRL_INPUT (n : Nat) : Fld := ⟨LAYER_CTRL n, 16, 1⟩
abbrev LAYER_CTRL_DECIM_V (n : Nat) : Fld := ⟨LAYER_CTRL n, 14, 2⟩
abbrev LAYER_CTRL_DECIM_H (n : Nat) : Fld := ⟨LAYER_CTRL n, 12, 2⟩
abbrev LAYER_CTRL_SITING_V (n : Nat) : Fld := ⟨LAYER_CTRL n, 10, 1⟩
abbrev LAYER_CTRL_SITING_H (n : Nat) : Fld := ⟨LAYER_CTRL n, 9, 1⟩
abbrev LAYER_CTRL_FORMAT (n : Nat) : Fld := ⟨LAYER_CTRL n, 4, 5⟩
abbrev LAYER_CTRL_PAL_LOAD (n : Nat) : Fld := ⟨LAYER_CTRL n, 2, 1⟩
abbrev LAYER_CTRL_SOURCE (n : Nat) : Fld := ⟨LAYER_CTRL n, 1, 1⟩
abbrev LAYER_CTRL_EN (n : Nat) : Fld := ⟨LAYER_CTRL n, 0, 1⟩
/-- LAYER SRC_ADDR, R113. -/
abbrev LAYER_SRC_ADDR (n p : Nat) : Nat := reg 6 n (0x4 + 4 * p)
abbrev LAYER_SRC_ADDR_OFFSET (n p : Nat) : Fld := ⟨LAYER_SRC_ADDR n p, 0, 26⟩
/-- LAYER SRC_STRIDE, R113. -/
abbrev LAYER_SRC_STRIDE (n : Nat) : Nat := reg 6 n (0x10)
abbrev LAYER_SRC_STRIDE_STRIDE1 (n : Nat) : Fld := ⟨LAYER_SRC_STRIDE n, 16, 16⟩
abbrev LAYER_SRC_STRIDE_STRIDE0 (n : Nat) : Fld := ⟨LAYER_SRC_STRIDE n, 0, 16⟩
/-- LAYER SRC_POS, R122. -/
abbrev LAYER_SRC_POS (n : Nat) : Nat := reg 6 n (0x14)
abbrev LAYER_SRC_POS_Y (n : Nat) : Fld := ⟨LAYER_SRC_POS n, 16, 16⟩
abbrev LAYER_SRC_POS_X (n : Nat) : Fld := ⟨LAYER_SRC_POS n, 0, 16⟩
/-- LAYER SRC_SIZE, R122. -/
abbrev LAYER_SRC_SIZE (n : Nat) : Nat := reg 6 n (0x18)
abbrev LAYER_SRC_SIZE_H (n : Nat) : Fld := ⟨LAYER_SRC_SIZE n, 16, 16⟩
abbrev LAYER_SRC_SIZE_W (n : Nat) : Fld := ⟨LAYER_SRC_SIZE n, 0, 16⟩
/-- LAYER DST_POS, R122. -/
abbrev LAYER_DST_POS (n : Nat) : Nat := reg 6 n (0x1c)
abbrev LAYER_DST_POS_Y (n : Nat) : Fld := ⟨LAYER_DST_POS n, 16, 16⟩
abbrev LAYER_DST_POS_X (n : Nat) : Fld := ⟨LAYER_DST_POS n, 0, 16⟩
/-- LAYER DST_SIZE, R122. -/
abbrev LAYER_DST_SIZE (n : Nat) : Nat := reg 6 n (0x20)
abbrev LAYER_DST_SIZE_H (n : Nat) : Fld := ⟨LAYER_DST_SIZE n, 16, 16⟩
abbrev LAYER_DST_SIZE_W (n : Nat) : Fld := ⟨LAYER_DST_SIZE n, 0, 16⟩
/-- LAYER SCALE, R138. -/
abbrev LAYER_SCALE (n : Nat) : Nat := reg 6 n (0x24)
abbrev LAYER_SCALE_SCALER (n : Nat) : Fld := ⟨LAYER_SCALE n, 4, 5⟩
abbrev LAYER_SCALE_COEF_LOAD (n : Nat) : Fld := ⟨LAYER_SCALE n, 2, 1⟩
abbrev LAYER_SCALE_GANG (n : Nat) : Fld := ⟨LAYER_SCALE n, 1, 1⟩
abbrev LAYER_SCALE_SCL_EN (n : Nat) : Fld := ⟨LAYER_SCALE n, 0, 1⟩
/-- LAYER COEF_ADDR, R142. -/
abbrev LAYER_COEF_ADDR (n : Nat) : Nat := reg 6 n (0x28)
abbrev LAYER_COEF_ADDR_OFFSET (n : Nat) : Fld := ⟨LAYER_COEF_ADDR n, 0, 26⟩
/-- LAYER PAL_ADDR, R129. -/
abbrev LAYER_PAL_ADDR (n : Nat) : Nat := reg 6 n (0x2c)
abbrev LAYER_PAL_ADDR_OFFSET (n : Nat) : Fld := ⟨LAYER_PAL_ADDR n, 0, 26⟩

/-! ### LAYER (spec/05_blending_and_colour.md) -/

/-- LAYER BLEND, R155. -/
abbrev LAYER_BLEND (n : Nat) : Nat := reg 6 n (0x30)
abbrev LAYER_BLEND_ALPHA_MODE (n : Nat) : Fld := ⟨LAYER_BLEND n, 16, 2⟩
abbrev LAYER_BLEND_PLANE_ALPHA (n : Nat) : Fld := ⟨LAYER_BLEND n, 0, 10⟩
/-- LAYER CSC_CTRL, R151. -/
abbrev LAYER_CSC_CTRL (n : Nat) : Nat := reg 6 n (0x34)
abbrev LAYER_CSC_CTRL_RANGE_EXP (n : Nat) : Fld := ⟨LAYER_CSC_CTRL n, 1, 1⟩
abbrev LAYER_CSC_CTRL_MTX_EN (n : Nat) : Fld := ⟨LAYER_CSC_CTRL n, 0, 1⟩
/-- LAYER MTX_A, R152. -/
abbrev LAYER_MTX_A (n i : Nat) : Nat := reg 6 n (0x38 + 8 * i)
abbrev LAYER_MTX_A_C1 (n i : Nat) : Fld := ⟨LAYER_MTX_A n i, 16, 16⟩
abbrev LAYER_MTX_A_C0 (n i : Nat) : Fld := ⟨LAYER_MTX_A n i, 0, 16⟩
/-- LAYER MTX_B, R152. -/
abbrev LAYER_MTX_B (n i : Nat) : Nat := reg 6 n (0x3c + 8 * i)
abbrev LAYER_MTX_B_O (n i : Nat) : Fld := ⟨LAYER_MTX_B n i, 16, 13⟩
abbrev LAYER_MTX_B_C2 (n i : Nat) : Fld := ⟨LAYER_MTX_B n i, 0, 16⟩

/-! ### LAYER (spec/04_layers_and_scaling.md) -/

/-- LAYER COMMIT, R122. -/
abbrev LAYER_COMMIT (n : Nat) : Nat := reg 6 n (0x60)
abbrev LAYER_COMMIT_FENCE_SEM (n : Nat) : Fld := ⟨LAYER_COMMIT n, 4, 4⟩
abbrev LAYER_COMMIT_FENCE_EN (n : Nat) : Fld := ⟨LAYER_COMMIT n, 3, 1⟩
abbrev LAYER_COMMIT_SCHED (n : Nat) : Fld := ⟨LAYER_COMMIT n, 2, 1⟩
abbrev LAYER_COMMIT_CANCEL (n : Nat) : Fld := ⟨LAYER_COMMIT n, 1, 1⟩
abbrev LAYER_COMMIT_GO (n : Nat) : Fld := ⟨LAYER_COMMIT n, 0, 1⟩
/-- LAYER COMMIT_FRAME, R122. -/
abbrev LAYER_COMMIT_FRAME (n : Nat) : Nat := reg 6 n (0x64)
abbrev LAYER_COMMIT_FRAME_FRAME (n : Nat) : Fld := ⟨LAYER_COMMIT_FRAME n, 0, 32⟩
/-- LAYER FENCE_VALUE, R57. -/
abbrev LAYER_FENCE_VALUE (n : Nat) : Nat := reg 6 n (0x68)
abbrev LAYER_FENCE_VALUE_VALUE (n : Nat) : Fld := ⟨LAYER_FENCE_VALUE n, 0, 32⟩
/-- LAYER COMMIT_STATUS, R122. -/
abbrev LAYER_COMMIT_STATUS (n : Nat) : Nat := reg 6 n (0x6c)
abbrev LAYER_COMMIT_STATUS_SEQ (n : Nat) : Fld := ⟨LAYER_COMMIT_STATUS n, 24, 8⟩
abbrev LAYER_COMMIT_STATUS_WAIT (n : Nat) : Fld := ⟨LAYER_COMMIT_STATUS n, 12, 4⟩
abbrev LAYER_COMMIT_STATUS_REASON (n : Nat) : Fld := ⟨LAYER_COMMIT_STATUS n, 4, 4⟩
abbrev LAYER_COMMIT_STATUS_STATE (n : Nat) : Fld := ⟨LAYER_COMMIT_STATUS n, 0, 2⟩
/-- LAYER APPLIED_FRAME, R125. -/
abbrev LAYER_APPLIED_FRAME (n : Nat) : Nat := reg 6 n (0x70)
abbrev LAYER_APPLIED_FRAME_FRAME (n : Nat) : Fld := ⟨LAYER_APPLIED_FRAME n, 0, 32⟩
/-- LAYER STATUS, R131. -/
abbrev LAYER_STATUS (n : Nat) : Nat := reg 6 n (0x74)
abbrev LAYER_STATUS_EVENTS (n : Nat) : Fld := ⟨LAYER_STATUS n, 24, 8⟩
abbrev LAYER_STATUS_DR_COUNT (n : Nat) : Fld := ⟨LAYER_STATUS n, 16, 8⟩
abbrev LAYER_STATUS_READY_STATE (n : Nat) : Fld := ⟨LAYER_STATUS n, 14, 2⟩
abbrev LAYER_STATUS_FROZEN_SRC (n : Nat) : Fld := ⟨LAYER_STATUS n, 5, 1⟩
abbrev LAYER_STATUS_ENABLED (n : Nat) : Fld := ⟨LAYER_STATUS n, 4, 1⟩
abbrev LAYER_STATUS_OFF_SCREEN (n : Nat) : Fld := ⟨LAYER_STATUS n, 3, 1⟩
abbrev LAYER_STATUS_POISON (n : Nat) : Fld := ⟨LAYER_STATUS n, 2, 1⟩
abbrev LAYER_STATUS_LATE_LINE (n : Nat) : Fld := ⟨LAYER_STATUS n, 1, 1⟩
abbrev LAYER_STATUS_WRITE_WHILE_PENDING (n : Nat) : Fld := ⟨LAYER_STATUS n, 0, 1⟩
/-- LAYER VIN_FRAME, R147. -/
abbrev LAYER_VIN_FRAME (n : Nat) : Nat := reg 6 n (0x78)
abbrev LAYER_VIN_FRAME_COUNT (n : Nat) : Fld := ⟨LAYER_VIN_FRAME n, 0, 32⟩

/-! ### SCL (spec/04_layers_and_scaling.md) -/

/-- SCL STATUS, R138. -/
abbrev SCL_STATUS (n : Nat) : Nat := reg 8 n (0x0)
abbrev SCL_STATUS_LOADS (n : Nat) : Fld := ⟨SCL_STATUS n, 16, 8⟩
abbrev SCL_STATUS_LAYER (n : Nat) : Fld := ⟨SCL_STATUS n, 8, 6⟩
abbrev SCL_STATUS_LOADING (n : Nat) : Fld := ⟨SCL_STATUS n, 3, 1⟩
abbrev SCL_STATUS_ACTIVE_BANK (n : Nat) : Fld := ⟨SCL_STATUS n, 2, 1⟩
abbrev SCL_STATUS_GANGED (n : Nat) : Fld := ⟨SCL_STATUS n, 1, 1⟩
abbrev SCL_STATUS_CLAIMED (n : Nat) : Fld := ⟨SCL_STATUS n, 0, 1⟩
/-- SCL COEF_AH, R143. -/
abbrev SCL_COEF_AH (n r : Nat) : Nat := reg 8 n (0x1000 + 4 * r)
abbrev SCL_COEF_AH_ODD (n r : Nat) : Fld := ⟨SCL_COEF_AH n r, 16, 12⟩
abbrev SCL_COEF_AH_EVEN (n r : Nat) : Fld := ⟨SCL_COEF_AH n r, 0, 12⟩
/-- SCL COEF_AV, R143. -/
abbrev SCL_COEF_AV (n r : Nat) : Nat := reg 8 n (0x1400 + 4 * r)
abbrev SCL_COEF_AV_ODD (n r : Nat) : Fld := ⟨SCL_COEF_AV n r, 16, 12⟩
abbrev SCL_COEF_AV_EVEN (n r : Nat) : Fld := ⟨SCL_COEF_AV n r, 0, 12⟩
/-- SCL COEF_BH, R143. -/
abbrev SCL_COEF_BH (n r : Nat) : Nat := reg 8 n (0x2000 + 4 * r)
abbrev SCL_COEF_BH_ODD (n r : Nat) : Fld := ⟨SCL_COEF_BH n r, 16, 12⟩
abbrev SCL_COEF_BH_EVEN (n r : Nat) : Fld := ⟨SCL_COEF_BH n r, 0, 12⟩
/-- SCL COEF_BV, R143. -/
abbrev SCL_COEF_BV (n r : Nat) : Nat := reg 8 n (0x2400 + 4 * r)
abbrev SCL_COEF_BV_ODD (n r : Nat) : Fld := ⟨SCL_COEF_BV n r, 16, 12⟩
abbrev SCL_COEF_BV_EVEN (n r : Nat) : Fld := ⟨SCL_COEF_BV n r, 0, 12⟩

/-! ### VIN (spec/04_layers_and_scaling.md) -/

/-- VIN CTRL, R144. -/
abbrev VIN_CTRL (n : Nat) : Nat := reg 9 n (0x0)
abbrev VIN_CTRL_TIMEOUT (n : Nat) : Fld := ⟨VIN_CTRL n, 16, 8⟩
abbrev VIN_CTRL_DT (n : Nat) : Fld := ⟨VIN_CTRL n, 8, 1⟩
abbrev VIN_CTRL_VC (n : Nat) : Fld := ⟨VIN_CTRL n, 4, 2⟩
abbrev VIN_CTRL_LANES (n : Nat) : Fld := ⟨VIN_CTRL n, 1, 2⟩
abbrev VIN_CTRL_EN (n : Nat) : Fld := ⟨VIN_CTRL n, 0, 1⟩
/-- VIN SIZE, R144. -/
abbrev VIN_SIZE (n : Nat) : Nat := reg 9 n (0x4)
abbrev VIN_SIZE_H (n : Nat) : Fld := ⟨VIN_SIZE n, 16, 16⟩
abbrev VIN_SIZE_W (n : Nat) : Fld := ⟨VIN_SIZE n, 0, 16⟩
/-- VIN BUF, R144. -/
abbrev VIN_BUF (n k : Nat) : Nat := reg 9 n (0x10 + 4 * k)
abbrev VIN_BUF_ADDR (n k : Nat) : Fld := ⟨VIN_BUF n k, 0, 32⟩
/-- VIN STRIDE, R144. -/
abbrev VIN_STRIDE (n : Nat) : Nat := reg 9 n (0x1c)
abbrev VIN_STRIDE_STRIDE (n : Nat) : Fld := ⟨VIN_STRIDE n, 0, 16⟩
/-- VIN STATUS, R146. -/
abbrev VIN_STATUS (n : Nat) : Nat := reg 9 n (0x20)
abbrev VIN_STATUS_EVENTS (n : Nat) : Fld := ⟨VIN_STATUS n, 24, 8⟩
abbrev VIN_STATUS_LATEST (n : Nat) : Fld := ⟨VIN_STATUS n, 8, 2⟩
abbrev VIN_STATUS_NO_SIGNAL (n : Nat) : Fld := ⟨VIN_STATUS n, 6, 1⟩
abbrev VIN_STATUS_WRITE_WHILE_ACTIVE (n : Nat) : Fld := ⟨VIN_STATUS n, 5, 1⟩
abbrev VIN_STATUS_CFG_ERR (n : Nat) : Fld := ⟨VIN_STATUS n, 4, 1⟩
abbrev VIN_STATUS_LATE (n : Nat) : Fld := ⟨VIN_STATUS n, 3, 1⟩
abbrev VIN_STATUS_SIZE_ERR (n : Nat) : Fld := ⟨VIN_STATUS n, 2, 1⟩
abbrev VIN_STATUS_CRC_ERR (n : Nat) : Fld := ⟨VIN_STATUS n, 1, 1⟩
abbrev VIN_STATUS_ECC_ERR (n : Nat) : Fld := ⟨VIN_STATUS n, 0, 1⟩
/-- VIN FRAMES, R146. -/
abbrev VIN_FRAMES (n : Nat) : Nat := reg 9 n (0x24)
abbrev VIN_FRAMES_COUNT (n : Nat) : Fld := ⟨VIN_FRAMES n, 0, 32⟩
/-- VIN DISCARDS, R146. -/
abbrev VIN_DISCARDS (n : Nat) : Nat := reg 9 n (0x28)
abbrev VIN_DISCARDS_ERRORED (n : Nat) : Fld := ⟨VIN_DISCARDS n, 16, 16⟩
abbrev VIN_DISCARDS_OTHER_DT (n : Nat) : Fld := ⟨VIN_DISCARDS n, 0, 16⟩

/-! ### SCREEN (spec/05_blending_and_colour.md) -/

/-- SCREEN OUT_CTRL, R159. -/
abbrev SCREEN_OUT_CTRL (n : Nat) : Nat := reg 2 n (0x100)
abbrev SCREEN_OUT_CTRL_DEPTH (n : Nat) : Fld := ⟨SCREEN_OUT_CTRL n, 8, 2⟩
abbrev SCREEN_OUT_CTRL_DITHER (n : Nat) : Fld := ⟨SCREEN_OUT_CTRL n, 4, 2⟩
abbrev SCREEN_OUT_CTRL_GAMMA_EN (n : Nat) : Fld := ⟨SCREEN_OUT_CTRL n, 1, 1⟩
abbrev SCREEN_OUT_CTRL_OMTX_EN (n : Nat) : Fld := ⟨SCREEN_OUT_CTRL n, 0, 1⟩
/-- SCREEN BG, R159. -/
abbrev SCREEN_BG (n : Nat) : Nat := reg 2 n (0x104)
abbrev SCREEN_BG_R (n : Nat) : Fld := ⟨SCREEN_BG n, 20, 10⟩
abbrev SCREEN_BG_G (n : Nat) : Fld := ⟨SCREEN_BG n, 10, 10⟩
abbrev SCREEN_BG_B (n : Nat) : Fld := ⟨SCREEN_BG n, 0, 10⟩
/-- SCREEN OMTX_A, R163. -/
abbrev SCREEN_OMTX_A (n i : Nat) : Nat := reg 2 n (0x108 + 8 * i)
abbrev SCREEN_OMTX_A_C1 (n i : Nat) : Fld := ⟨SCREEN_OMTX_A n i, 16, 16⟩
abbrev SCREEN_OMTX_A_C0 (n i : Nat) : Fld := ⟨SCREEN_OMTX_A n i, 0, 16⟩
/-- SCREEN OMTX_B, R163. -/
abbrev SCREEN_OMTX_B (n i : Nat) : Nat := reg 2 n (0x10c + 8 * i)
abbrev SCREEN_OMTX_B_O (n i : Nat) : Fld := ⟨SCREEN_OMTX_B n i, 16, 13⟩
abbrev SCREEN_OMTX_B_C2 (n i : Nat) : Fld := ⟨SCREEN_OMTX_B n i, 0, 16⟩
/-- SCREEN OUT_COMMIT, R159. -/
abbrev SCREEN_OUT_COMMIT (n : Nat) : Nat := reg 2 n (0x120)
abbrev SCREEN_OUT_COMMIT_LUT_SWAP (n : Nat) : Fld := ⟨SCREEN_OUT_COMMIT n, 1, 1⟩
abbrev SCREEN_OUT_COMMIT_GO (n : Nat) : Fld := ⟨SCREEN_OUT_COMMIT n, 0, 1⟩
/-- SCREEN OUT_STATUS, R160. -/
abbrev SCREEN_OUT_STATUS (n : Nat) : Nat := reg 2 n (0x124)
abbrev SCREEN_OUT_STATUS_EVENTS (n : Nat) : Fld := ⟨SCREEN_OUT_STATUS n, 24, 8⟩
abbrev SCREEN_OUT_STATUS_WRITE_WHILE_PENDING (n : Nat) : Fld := ⟨SCREEN_OUT_STATUS n, 4, 1⟩
abbrev SCREEN_OUT_STATUS_ACTIVE_BANK (n : Nat) : Fld := ⟨SCREEN_OUT_STATUS n, 2, 1⟩
abbrev SCREEN_OUT_STATUS_STATE (n : Nat) : Fld := ⟨SCREEN_OUT_STATUS n, 0, 2⟩
/-- SCREEN OUT_FRAME, R161. -/
abbrev SCREEN_OUT_FRAME (n : Nat) : Nat := reg 2 n (0x128)
abbrev SCREEN_OUT_FRAME_FRAME (n : Nat) : Fld := ⟨SCREEN_OUT_FRAME n, 0, 32⟩
/-- SCREEN LUT, R162. -/
abbrev SCREEN_LUT (n c k : Nat) : Nat := reg 2 n (0x1000 + 4096 * c + 4 * k)
abbrev SCREEN_LUT_ENTRY (n c k : Nat) : Fld := ⟨SCREEN_LUT n c k, 0, 14⟩
/-- SCREEN LUTA, R162. -/
abbrev SCREEN_LUTA (n c k : Nat) : Nat := reg 2 n (0x4000 + 4096 * c + 4 * k)
abbrev SCREEN_LUTA_ENTRY (n c k : Nat) : Fld := ⟨SCREEN_LUTA n c k, 0, 14⟩

/-! ### PROT (spec/06_protected_content_and_sextant.md) -/

/-- PROT CTRL, R172. -/
abbrev PROT_CTRL (n : Nat) : Nat := reg 7 n (0x0)
abbrev PROT_CTRL_RECT_EN (n : Nat) : Fld := ⟨PROT_CTRL n, 4, 4⟩
abbrev PROT_CTRL_PAL_LOAD (n : Nat) : Fld := ⟨PROT_CTRL n, 2, 1⟩
abbrev PROT_CTRL_FORMAT (n : Nat) : Fld := ⟨PROT_CTRL n, 1, 1⟩
abbrev PROT_CTRL_EN (n : Nat) : Fld := ⟨PROT_CTRL n, 0, 1⟩
/-- PROT SEQ, R174. -/
abbrev PROT_SEQ (n : Nat) : Nat := reg 7 n (0x4)
abbrev PROT_SEQ_SEQ (n : Nat) : Fld := ⟨PROT_SEQ n, 0, 32⟩
/-- PROT PAL_ADDR, R175. -/
abbrev PROT_PAL_ADDR (n : Nat) : Nat := reg 7 n (0x8)
abbrev PROT_PAL_ADDR_ADDR (n : Nat) : Fld := ⟨PROT_PAL_ADDR n, 0, 32⟩
/-- PROT PAL_CRC, R175. -/
abbrev PROT_PAL_CRC (n : Nat) : Nat := reg 7 n (0xc)
abbrev PROT_PAL_CRC_CRC (n : Nat) : Fld := ⟨PROT_PAL_CRC n, 0, 32⟩
/-- PROT RECT_POS, R170. -/
abbrev PROT_RECT_POS (n k : Nat) : Nat := reg 7 n (0x10 + 32 * k)
abbrev PROT_RECT_POS_Y (n k : Nat) : Fld := ⟨PROT_RECT_POS n k, 16, 16⟩
abbrev PROT_RECT_POS_X (n k : Nat) : Fld := ⟨PROT_RECT_POS n k, 0, 16⟩
/-- PROT RECT_SIZE, R170. -/
abbrev PROT_RECT_SIZE (n k : Nat) : Nat := reg 7 n (0x14 + 32 * k)
abbrev PROT_RECT_SIZE_H (n k : Nat) : Fld := ⟨PROT_RECT_SIZE n k, 16, 16⟩
abbrev PROT_RECT_SIZE_W (n k : Nat) : Fld := ⟨PROT_RECT_SIZE n k, 0, 16⟩
/-- PROT RECT_SRC, R170. -/
abbrev PROT_RECT_SRC (n k : Nat) : Nat := reg 7 n (0x18 + 32 * k)
abbrev PROT_RECT_SRC_ADDR (n k : Nat) : Fld := ⟨PROT_RECT_SRC n k, 0, 32⟩
/-- PROT RECT_STRIDE, R170. -/
abbrev PROT_RECT_STRIDE (n k : Nat) : Nat := reg 7 n (0x1c + 32 * k)
abbrev PROT_RECT_STRIDE_STRIDE (n k : Nat) : Fld := ⟨PROT_RECT_STRIDE n k, 0, 16⟩
/-- PROT RECT_CHK, R174. -/
abbrev PROT_RECT_CHK (n k : Nat) : Nat := reg 7 n (0x20 + 32 * k)
abbrev PROT_RECT_CHK_ADDR (n k : Nat) : Fld := ⟨PROT_RECT_CHK n k, 0, 32⟩
/-- PROT COMMIT, R172. -/
abbrev PROT_COMMIT (n : Nat) : Nat := reg 7 n (0x90)
abbrev PROT_COMMIT_SCHED (n : Nat) : Fld := ⟨PROT_COMMIT n, 2, 1⟩
abbrev PROT_COMMIT_CANCEL (n : Nat) : Fld := ⟨PROT_COMMIT n, 1, 1⟩
abbrev PROT_COMMIT_GO (n : Nat) : Fld := ⟨PROT_COMMIT n, 0, 1⟩
/-- PROT COMMIT_FRAME, R172. -/
abbrev PROT_COMMIT_FRAME (n : Nat) : Nat := reg 7 n (0x94)
abbrev PROT_COMMIT_FRAME_FRAME (n : Nat) : Fld := ⟨PROT_COMMIT_FRAME n, 0, 32⟩
/-- PROT COMMIT_STATUS, R172. -/
abbrev PROT_COMMIT_STATUS (n : Nat) : Nat := reg 7 n (0x98)
abbrev PROT_COMMIT_STATUS_SEQ (n : Nat) : Fld := ⟨PROT_COMMIT_STATUS n, 24, 8⟩
abbrev PROT_COMMIT_STATUS_WAIT (n : Nat) : Fld := ⟨PROT_COMMIT_STATUS n, 12, 4⟩
abbrev PROT_COMMIT_STATUS_REASON (n : Nat) : Fld := ⟨PROT_COMMIT_STATUS n, 4, 4⟩
abbrev PROT_COMMIT_STATUS_STATE (n : Nat) : Fld := ⟨PROT_COMMIT_STATUS n, 0, 2⟩
/-- PROT APPLIED_FRAME, R172. -/
abbrev PROT_APPLIED_FRAME (n : Nat) : Nat := reg 7 n (0x9c)
abbrev PROT_APPLIED_FRAME_FRAME (n : Nat) : Fld := ⟨PROT_APPLIED_FRAME n, 0, 32⟩
/-- PROT VOUCH, R176. -/
abbrev PROT_VOUCH (n : Nat) : Nat := reg 7 n (0xa0)
abbrev PROT_VOUCH_FRAME (n : Nat) : Fld := ⟨PROT_VOUCH n, 0, 32⟩
/-- PROT STATUS, R177. -/
abbrev PROT_STATUS (n : Nat) : Nat := reg 7 n (0xa4)
abbrev PROT_STATUS_EVENTS (n : Nat) : Fld := ⟨PROT_STATUS n, 24, 8⟩
abbrev PROT_STATUS_REASON (n : Nat) : Fld := ⟨PROT_STATUS n, 16, 8⟩
abbrev PROT_STATUS_HARBOUR (n : Nat) : Fld := ⟨PROT_STATUS n, 8, 4⟩
abbrev PROT_STATUS_VOUCH_ERR (n : Nat) : Fld := ⟨PROT_STATUS n, 6, 1⟩
abbrev PROT_STATUS_CHECK_FAIL (n : Nat) : Fld := ⟨PROT_STATUS n, 5, 1⟩
abbrev PROT_STATUS_STALE (n : Nat) : Fld := ⟨PROT_STATUS n, 4, 1⟩
abbrev PROT_STATUS_VOUCH_VALID (n : Nat) : Fld := ⟨PROT_STATUS n, 3, 1⟩
abbrev PROT_STATUS_WRITE_WHILE_PENDING (n : Nat) : Fld := ⟨PROT_STATUS n, 2, 1⟩
abbrev PROT_STATUS_ENABLED (n : Nat) : Fld := ⟨PROT_STATUS n, 1, 1⟩

/-! ### SXT (spec/06_protected_content_and_sextant.md) -/

/-- SXT STATUS, R179. -/
abbrev SXT_STATUS (n : Nat) : Nat := reg 10 n (0x0)
abbrev SXT_STATUS_EVENTS (n : Nat) : Fld := ⟨SXT_STATUS n, 24, 8⟩
abbrev SXT_STATUS_SCREENS (n : Nat) : Fld := ⟨SXT_STATUS n, 16, 8⟩
abbrev SXT_STATUS_LOCKSTEP_ERR (n : Nat) : Fld := ⟨SXT_STATUS n, 8, 1⟩
abbrev SXT_STATUS_STATE (n : Nat) : Fld := ⟨SXT_STATUS n, 0, 2⟩
/-- SXT SELFTEST, R182. -/
abbrev SXT_SELFTEST (n : Nat) : Nat := reg 10 n (0x4)
abbrev SXT_SELFTEST_PASS (n : Nat) : Fld := ⟨SXT_SELFTEST n, 2, 1⟩
abbrev SXT_SELFTEST_DONE (n : Nat) : Fld := ⟨SXT_SELFTEST n, 1, 1⟩
abbrev SXT_SELFTEST_GO (n : Nat) : Fld := ⟨SXT_SELFTEST n, 0, 1⟩
/-- SXT CHECKS, R180. -/
abbrev SXT_CHECKS (n : Nat) : Nat := reg 10 n (0x8)
abbrev SXT_CHECKS_COUNT (n : Nat) : Fld := ⟨SXT_CHECKS n, 0, 32⟩
/-- SXT CHECK_FAILS, R180. -/
abbrev SXT_CHECK_FAILS (n : Nat) : Nat := reg 10 n (0xc)
abbrev SXT_CHECK_FAILS_COUNT (n : Nat) : Fld := ⟨SXT_CHECK_FAILS n, 0, 16⟩

/-! ### DPO (spec/06_protected_content_and_sextant.md) -/

/-- DPO CMP_STATUS, R185. -/
abbrev DPO_CMP_STATUS (n : Nat) : Nat := reg 4 n (0x120)
abbrev DPO_CMP_STATUS_EVENTS (n : Nat) : Fld := ⟨DPO_CMP_STATUS n, 24, 8⟩
abbrev DPO_CMP_STATUS_UNLOCALISED (n : Nat) : Fld := ⟨DPO_CMP_STATUS n, 6, 1⟩
abbrev DPO_CMP_STATUS_LOCKSTEP (n : Nat) : Fld := ⟨DPO_CMP_STATUS n, 5, 1⟩
abbrev DPO_CMP_STATUS_PIPE_MISMATCH (n : Nat) : Fld := ⟨DPO_CMP_STATUS n, 4, 1⟩
abbrev DPO_CMP_STATUS_SOURCE (n : Nat) : Fld := ⟨DPO_CMP_STATUS n, 0, 2⟩
/-- DPO CMP_FIRST, R185. -/
abbrev DPO_CMP_FIRST (n : Nat) : Nat := reg 4 n (0x124)
abbrev DPO_CMP_FIRST_LINE (n : Nat) : Fld := ⟨DPO_CMP_FIRST n, 16, 14⟩
abbrev DPO_CMP_FIRST_X (n : Nat) : Fld := ⟨DPO_CMP_FIRST n, 0, 13⟩
/-- DPO CMP_FIRST_FRAME, R185. -/
abbrev DPO_CMP_FIRST_FRAME (n : Nat) : Nat := reg 4 n (0x128)
abbrev DPO_CMP_FIRST_FRAME_FRAME (n : Nat) : Fld := ⟨DPO_CMP_FIRST_FRAME n, 0, 32⟩
/-- DPO CMP_COUNT, R185. -/
abbrev DPO_CMP_COUNT (n : Nat) : Nat := reg 4 n (0x12c)
abbrev DPO_CMP_COUNT_MISMATCH_FRAMES (n : Nat) : Fld := ⟨DPO_CMP_COUNT n, 16, 16⟩
abbrev DPO_CMP_COUNT_CHECKED_FRAMES (n : Nat) : Fld := ⟨DPO_CMP_COUNT n, 0, 16⟩
/-- DPO CMP_TEST, R189. -/
abbrev DPO_CMP_TEST (n : Nat) : Nat := reg 4 n (0x130)
abbrev DPO_CMP_TEST_PASS (n : Nat) : Fld := ⟨DPO_CMP_TEST n, 2, 1⟩
abbrev DPO_CMP_TEST_DONE (n : Nat) : Fld := ⟨DPO_CMP_TEST n, 1, 1⟩
abbrev DPO_CMP_TEST_GO (n : Nat) : Fld := ⟨DPO_CMP_TEST n, 0, 1⟩
/-- DPO HARB_CTRL, R193. -/
abbrev DPO_HARB_CTRL (n : Nat) : Nat := reg 4 n (0x100)
abbrev DPO_HARB_CTRL_FORCE (n : Nat) : Fld := ⟨DPO_HARB_CTRL n, 8, 1⟩
abbrev DPO_HARB_CTRL_GLYPH_EN (n : Nat) : Fld := ⟨DPO_HARB_CTRL n, 4, 1⟩
abbrev DPO_HARB_CTRL_SCALE (n : Nat) : Fld := ⟨DPO_HARB_CTRL n, 0, 2⟩
/-- DPO HARB_COL, R192. -/
abbrev DPO_HARB_COL (n i : Nat) : Nat := reg 4 n (0x104 + 4 * i)
abbrev DPO_HARB_COL_R (n i : Nat) : Fld := ⟨DPO_HARB_COL n i, 20, 10⟩
abbrev DPO_HARB_COL_G (n i : Nat) : Fld := ⟨DPO_HARB_COL n i, 10, 10⟩
abbrev DPO_HARB_COL_B (n i : Nat) : Fld := ⟨DPO_HARB_COL n i, 0, 10⟩
/-- DPO HARB_GLYPH, R191. -/
abbrev DPO_HARB_GLYPH (n : Nat) : Nat := reg 4 n (0x10c)
abbrev DPO_HARB_GLYPH_GLYPH_Y (n : Nat) : Fld := ⟨DPO_HARB_GLYPH n, 16, 16⟩
abbrev DPO_HARB_GLYPH_GLYPH_X (n : Nat) : Fld := ⟨DPO_HARB_GLYPH n, 0, 16⟩
/-- DPO HARB_STATUS, R193. -/
abbrev DPO_HARB_STATUS (n : Nat) : Nat := reg 4 n (0x110)
abbrev DPO_HARB_STATUS_MODE (n : Nat) : Fld := ⟨DPO_HARB_STATUS n, 8, 2⟩
abbrev DPO_HARB_STATUS_REASON (n : Nat) : Fld := ⟨DPO_HARB_STATUS n, 0, 8⟩
/-- DPO HARB_PAT, R190. -/
abbrev DPO_HARB_PAT (n k : Nat) : Nat := reg 4 n (0x8000 + 4 * k)
abbrev DPO_HARB_PAT_BITS (n k : Nat) : Fld := ⟨DPO_HARB_PAT n k, 0, 32⟩

/-! ### PIPE (spec/06_protected_content_and_sextant.md) -/

/-- PIPE STATUS, R195. -/
abbrev PIPE_STATUS (n : Nat) : Nat := reg 3 n (0x0)
abbrev PIPE_STATUS_EVENTS (n : Nat) : Fld := ⟨PIPE_STATUS n, 24, 8⟩
abbrev PIPE_STATUS_WATCH_FAIL (n : Nat) : Fld := ⟨PIPE_STATUS n, 17, 1⟩
abbrev PIPE_STATUS_MISMATCH (n : Nat) : Fld := ⟨PIPE_STATUS n, 16, 1⟩
abbrev PIPE_STATUS_L1_VALID (n : Nat) : Fld := ⟨PIPE_STATUS n, 15, 1⟩
abbrev PIPE_STATUS_L1_SCREEN (n : Nat) : Fld := ⟨PIPE_STATUS n, 12, 3⟩
abbrev PIPE_STATUS_L0_VALID (n : Nat) : Fld := ⟨PIPE_STATUS n, 11, 1⟩
abbrev PIPE_STATUS_L0_SCREEN (n : Nat) : Fld := ⟨PIPE_STATUS n, 8, 3⟩
abbrev PIPE_STATUS_SCREEN (n : Nat) : Fld := ⟨PIPE_STATUS n, 4, 3⟩
abbrev PIPE_STATUS_STATE (n : Nat) : Fld := ⟨PIPE_STATUS n, 0, 3⟩
/-- PIPE SIG, R200. -/
abbrev PIPE_SIG (n : Nat) : Nat := reg 3 n (0x4)
abbrev PIPE_SIG_SIG (n : Nat) : Fld := ⟨PIPE_SIG n, 0, 32⟩

/-! ### SCREEN (spec/06_protected_content_and_sextant.md) -/

/-- SCREEN WATCH, R200. -/
abbrev SCREEN_WATCH (n : Nat) : Nat := reg 2 n (0x220)
abbrev SCREEN_WATCH_COMPARED (n : Nat) : Fld := ⟨SCREEN_WATCH n, 16, 16⟩
abbrev SCREEN_WATCH_VOIDS (n : Nat) : Fld := ⟨SCREEN_WATCH n, 8, 8⟩
abbrev SCREEN_WATCH_MISMATCH (n : Nat) : Fld := ⟨SCREEN_WATCH n, 1, 1⟩
abbrev SCREEN_WATCH_SKIPPED (n : Nat) : Fld := ⟨SCREEN_WATCH n, 0, 1⟩
/-- SCREEN WATCH_LAST, R200. -/
abbrev SCREEN_WATCH_LAST (n : Nat) : Nat := reg 2 n (0x224)
abbrev SCREEN_WATCH_LAST_FRAME (n : Nat) : Fld := ⟨SCREEN_WATCH_LAST n, 0, 32⟩
/-- SCREEN HIT_PROBE, R205. -/
abbrev SCREEN_HIT_PROBE (n x : Nat) : Nat := reg 2 n (0x210 + 8 * x)
abbrev SCREEN_HIT_PROBE_TILE_Y (n x : Nat) : Fld := ⟨SCREEN_HIT_PROBE n x, 16, 9⟩
abbrev SCREEN_HIT_PROBE_TILE_X (n x : Nat) : Fld := ⟨SCREEN_HIT_PROBE n x, 0, 9⟩
/-- SCREEN HIT_OWNER, R205. -/
abbrev SCREEN_HIT_OWNER (n x : Nat) : Nat := reg 2 n (0x214 + 8 * x)
abbrev SCREEN_HIT_OWNER_HIT_FRAME (n x : Nat) : Fld := ⟨SCREEN_HIT_OWNER n x, 10, 22⟩
abbrev SCREEN_HIT_OWNER_OUTSIDE (n x : Nat) : Fld := ⟨SCREEN_HIT_OWNER n x, 9, 1⟩
abbrev SCREEN_HIT_OWNER_NONE (n x : Nat) : Fld := ⟨SCREEN_HIT_OWNER n x, 8, 1⟩
abbrev SCREEN_HIT_OWNER_SESSION (n x : Nat) : Fld := ⟨SCREEN_HIT_OWNER n x, 0, 8⟩
/-- SCREEN PROT_CFG, R207. -/
abbrev SCREEN_PROT_CFG (n : Nat) : Nat := reg 2 n (0x200)
abbrev SCREEN_PROT_CFG_LOCK (n : Nat) : Fld := ⟨SCREEN_PROT_CFG n, 31, 1⟩
abbrev SCREEN_PROT_CFG_FRESH_LIMIT (n : Nat) : Fld := ⟨SCREEN_PROT_CFG n, 16, 4⟩
abbrev SCREEN_PROT_CFG_SAFE_ACTION (n : Nat) : Fld := ⟨SCREEN_PROT_CFG n, 8, 1⟩
abbrev SCREEN_PROT_CFG_STRICT (n : Nat) : Fld := ⟨SCREEN_PROT_CFG n, 0, 1⟩

/-! ### QOS (spec/07_memory_sides.md) -/

/-- QOS CFG, R230. -/
abbrev QOS_CFG (n : Nat) : Nat := reg 12 n (0x0)
abbrev QOS_CFG_AUTO (n : Nat) : Fld := ⟨QOS_CFG n, 31, 1⟩
abbrev QOS_CFG_CLASS (n : Nat) : Fld := ⟨QOS_CFG n, 28, 3⟩
abbrev QOS_CFG_TARGET (n : Nat) : Fld := ⟨QOS_CFG n, 0, 20⟩
/-- QOS STATUS, R230. -/
abbrev QOS_STATUS (n : Nat) : Nat := reg 12 n (0x4)
abbrev QOS_STATUS_BREACHES (n : Nat) : Fld := ⟨QOS_STATUS n, 16, 16⟩
abbrev QOS_STATUS_DROPPED (n : Nat) : Fld := ⟨QOS_STATUS n, 8, 8⟩
abbrev QOS_STATUS_URGENCY (n : Nat) : Fld := ⟨QOS_STATUS n, 0, 2⟩
/-- QOS MAXLAT, R230. -/
abbrev QOS_MAXLAT (n : Nat) : Nat := reg 12 n (0x8)
abbrev QOS_MAXLAT_NS (n : Nat) : Fld := ⟨QOS_MAXLAT n, 0, 32⟩
/-- QOS CLR, R230. -/
abbrev QOS_CLR (n : Nat) : Nat := reg 12 n (0xc)
abbrev QOS_CLR_CLR (n : Nat) : Fld := ⟨QOS_CLR n, 0, 1⟩

/-! ### MSIDE (spec/07_memory_sides.md) -/

/-- MSIDE CFG, R245. -/
abbrev MSIDE_CFG (n : Nat) : Nat := reg 11 n (0x0)
abbrev MSIDE_CFG_LOCK (n : Nat) : Fld := ⟨MSIDE_CFG n, 31, 1⟩
abbrev MSIDE_CFG_SCRUB_HOURS (n : Nat) : Fld := ⟨MSIDE_CFG n, 8, 8⟩
abbrev MSIDE_CFG_RH_ACTION (n : Nat) : Fld := ⟨MSIDE_CFG n, 4, 2⟩
abbrev MSIDE_CFG_RATE (n : Nat) : Fld := ⟨MSIDE_CFG n, 0, 2⟩
/-- MSIDE STATUS, R241. -/
abbrev MSIDE_STATUS (n : Nat) : Nat := reg 11 n (0x4)
abbrev MSIDE_STATUS_EVENTS (n : Nat) : Fld := ⟨MSIDE_STATUS n, 24, 8⟩
abbrev MSIDE_STATUS_RATE_2X (n : Nat) : Fld := ⟨MSIDE_STATUS n, 16, 8⟩
abbrev MSIDE_STATUS_CFG_ERR (n : Nat) : Fld := ⟨MSIDE_STATUS n, 3, 1⟩
abbrev MSIDE_STATUS_STATE (n : Nat) : Fld := ⟨MSIDE_STATUS n, 0, 3⟩
/-- MSIDE CAP, R209. -/
abbrev MSIDE_CAP (n : Nat) : Nat := reg 11 n (0x8)
abbrev MSIDE_CAP_USABLE (n : Nat) : Fld := ⟨MSIDE_CAP n, 8, 16⟩
abbrev MSIDE_CAP_INSTALLED (n : Nat) : Fld := ⟨MSIDE_CAP n, 0, 5⟩
/-- MSIDE REFRESH, R224. -/
abbrev MSIDE_REFRESH (n : Nat) : Nat := reg 11 n (0x10)
abbrev MSIDE_REFRESH_RECOVERIES (n : Nat) : Fld := ⟨MSIDE_REFRESH n, 16, 16⟩
abbrev MSIDE_REFRESH_MAX_DEBT (n : Nat) : Fld := ⟨MSIDE_REFRESH n, 0, 8⟩
/-- MSIDE RH_CFG, R227. -/
abbrev MSIDE_RH_CFG (n : Nat) : Nat := reg 11 n (0x20)
abbrev MSIDE_RH_CFG_THROTTLE_NS (n : Nat) : Fld := ⟨MSIDE_RH_CFG n, 16, 16⟩
abbrev MSIDE_RH_CFG_THRESHOLD (n : Nat) : Fld := ⟨MSIDE_RH_CFG n, 0, 16⟩
/-- MSIDE RH_LAST, R227. -/
abbrev MSIDE_RH_LAST (n : Nat) : Nat := reg 11 n (0x24)
abbrev MSIDE_RH_LAST_CHANNEL (n : Nat) : Fld := ⟨MSIDE_RH_LAST n, 29, 3⟩
abbrev MSIDE_RH_LAST_BANK (n : Nat) : Fld := ⟨MSIDE_RH_LAST n, 25, 4⟩
abbrev MSIDE_RH_LAST_ROW (n : Nat) : Fld := ⟨MSIDE_RH_LAST n, 8, 17⟩
abbrev MSIDE_RH_LAST_ACTION (n : Nat) : Fld := ⟨MSIDE_RH_LAST n, 6, 2⟩
abbrev MSIDE_RH_LAST_PORT (n : Nat) : Fld := ⟨MSIDE_RH_LAST n, 0, 6⟩
/-- MSIDE RH_COUNT, R227. -/
abbrev MSIDE_RH_COUNT (n : Nat) : Nat := reg 11 n (0x28)
abbrev MSIDE_RH_COUNT_NEIGHBOUR (n : Nat) : Fld := ⟨MSIDE_RH_COUNT n, 16, 16⟩
abbrev MSIDE_RH_COUNT_THROTTLE (n : Nat) : Fld := ⟨MSIDE_RH_COUNT n, 0, 16⟩
/-- MSIDE ECC_STATUS, R211. -/
abbrev MSIDE_ECC_STATUS (n : Nat) : Nat := reg 11 n (0x30)
abbrev MSIDE_ECC_STATUS_EVENTS (n : Nat) : Fld := ⟨MSIDE_ECC_STATUS n, 24, 8⟩
abbrev MSIDE_ECC_STATUS_CE_COUNT (n : Nat) : Fld := ⟨MSIDE_ECC_STATUS n, 8, 16⟩
abbrev MSIDE_ECC_STATUS_UE (n : Nat) : Fld := ⟨MSIDE_ECC_STATUS n, 1, 1⟩
abbrev MSIDE_ECC_STATUS_CE (n : Nat) : Fld := ⟨MSIDE_ECC_STATUS n, 0, 1⟩
/-- MSIDE LINK_ECC, R211. -/
abbrev MSIDE_LINK_ECC (n : Nat) : Nat := reg 11 n (0x34)
abbrev MSIDE_LINK_ECC_READ_CORR (n : Nat) : Fld := ⟨MSIDE_LINK_ECC n, 16, 16⟩
abbrev MSIDE_LINK_ECC_WRITE_CORR (n : Nat) : Fld := ⟨MSIDE_LINK_ECC n, 0, 16⟩
/-- MSIDE CE_CFG, R244. -/
abbrev MSIDE_CE_CFG (n : Nat) : Nat := reg 11 n (0x38)
abbrev MSIDE_CE_CFG_CE_THRESH (n : Nat) : Fld := ⟨MSIDE_CE_CFG n, 0, 8⟩
/-- MSIDE FREEZE_CTRL, R241. -/
abbrev MSIDE_FREEZE_CTRL (n : Nat) : Nat := reg 11 n (0x40)
abbrev MSIDE_FREEZE_CTRL_MODE (n : Nat) : Fld := ⟨MSIDE_FREEZE_CTRL n, 8, 1⟩
abbrev MSIDE_FREEZE_CTRL_RELEASE (n : Nat) : Fld := ⟨MSIDE_FREEZE_CTRL n, 0, 1⟩
/-- MSIDE FREEZE_STATUS, R234. -/
abbrev MSIDE_FREEZE_STATUS (n : Nat) : Nat := reg 11 n (0x44)
abbrev MSIDE_FREEZE_STATUS_EVENTS (n : Nat) : Fld := ⟨MSIDE_FREEZE_STATUS n, 24, 8⟩
abbrev MSIDE_FREEZE_STATUS_FREEZES (n : Nat) : Fld := ⟨MSIDE_FREEZE_STATUS n, 16, 8⟩
abbrev MSIDE_FREEZE_STATUS_CAUSE (n : Nat) : Fld := ⟨MSIDE_FREEZE_STATUS n, 12, 4⟩
abbrev MSIDE_FREEZE_STATUS_SR_UNCERTAIN (n : Nat) : Fld := ⟨MSIDE_FREEZE_STATUS n, 11, 1⟩
abbrev MSIDE_FREEZE_STATUS_RELEASE_REFUSED (n : Nat) : Fld := ⟨MSIDE_FREEZE_STATUS n, 10, 1⟩
abbrev MSIDE_FREEZE_STATUS_RETRAIN_FAIL (n : Nat) : Fld := ⟨MSIDE_FREEZE_STATUS n, 9, 1⟩
/-- MSIDE FREEZE_ADDR, R234. -/
abbrev MSIDE_FREEZE_ADDR (n : Nat) : Nat := reg 11 n (0x48)
abbrev MSIDE_FREEZE_ADDR_ADDR (n : Nat) : Fld := ⟨MSIDE_FREEZE_ADDR n, 0, 32⟩
/-- MSIDE FREEZE_DRUM, R234. -/
abbrev MSIDE_FREEZE_DRUM (n : Nat) : Nat := reg 11 n (0x4c)
abbrev MSIDE_FREEZE_DRUM_DRUM (n : Nat) : Fld := ⟨MSIDE_FREEZE_DRUM n, 0, 32⟩
/-- MSIDE RESYNC, R241. -/
abbrev MSIDE_RESYNC (n : Nat) : Nat := reg 11 n (0x50)
abbrev MSIDE_RESYNC_REMAINING (n : Nat) : Fld := ⟨MSIDE_RESYNC n, 0, 14⟩
/-- MSIDE CE_ROW_A, R244. -/
abbrev MSIDE_CE_ROW_A (n k : Nat) : Nat := reg 11 n (0x100 + 8 * k)
abbrev MSIDE_CE_ROW_A_CHANNEL (n k : Nat) : Fld := ⟨MSIDE_CE_ROW_A n k, 29, 3⟩
abbrev MSIDE_CE_ROW_A_BANK (n k : Nat) : Fld := ⟨MSIDE_CE_ROW_A n k, 25, 4⟩
abbrev MSIDE_CE_ROW_A_ROW (n k : Nat) : Fld := ⟨MSIDE_CE_ROW_A n k, 8, 17⟩
abbrev MSIDE_CE_ROW_A_COUNT (n k : Nat) : Fld := ⟨MSIDE_CE_ROW_A n k, 0, 8⟩
/-- MSIDE CE_ROW_B, R244. -/
abbrev MSIDE_CE_ROW_B (n k : Nat) : Nat := reg 11 n (0x104 + 8 * k)
abbrev MSIDE_CE_ROW_B_DRUM (n k : Nat) : Fld := ⟨MSIDE_CE_ROW_B n k, 0, 32⟩
/-- MSIDE MIRROR_BASE, R214. -/
abbrev MSIDE_MIRROR_BASE (n k : Nat) : Nat := reg 11 n (0x200 + 8 * k)
abbrev MSIDE_MIRROR_BASE_GRANULE (n k : Nat) : Fld := ⟨MSIDE_MIRROR_BASE n k, 0, 14⟩
/-- MSIDE MIRROR_SIZE, R214. -/
abbrev MSIDE_MIRROR_SIZE (n k : Nat) : Nat := reg 11 n (0x204 + 8 * k)
abbrev MSIDE_MIRROR_SIZE_VALID (n k : Nat) : Fld := ⟨MSIDE_MIRROR_SIZE n k, 31, 1⟩
abbrev MSIDE_MIRROR_SIZE_GRANULES (n k : Nat) : Fld := ⟨MSIDE_MIRROR_SIZE n k, 0, 14⟩
/-- MSIDE TRAIN, R219. -/
abbrev MSIDE_TRAIN (n b : Nat) : Nat := reg 11 n (0x400 + 4 * b)
abbrev MSIDE_TRAIN_RD_CENTRE (n b : Nat) : Fld := ⟨MSIDE_TRAIN n b, 24, 8⟩
abbrev MSIDE_TRAIN_RD_WIDTH (n b : Nat) : Fld := ⟨MSIDE_TRAIN n b, 16, 8⟩
abbrev MSIDE_TRAIN_WR_CENTRE (n b : Nat) : Fld := ⟨MSIDE_TRAIN n b, 8, 8⟩
abbrev MSIDE_TRAIN_WR_WIDTH (n b : Nat) : Fld := ⟨MSIDE_TRAIN n b, 0, 8⟩
/-- MSIDE TRACK, R221. -/
abbrev MSIDE_TRACK (n b : Nat) : Nat := reg 11 n (0x440 + 4 * b)
abbrev MSIDE_TRACK_RD_OFFSET (n b : Nat) : Fld := ⟨MSIDE_TRACK n b, 8, 8⟩
abbrev MSIDE_TRACK_WR_OFFSET (n b : Nat) : Fld := ⟨MSIDE_TRACK n b, 0, 8⟩
/-- MSIDE PPR, R246. -/
abbrev MSIDE_PPR (n k : Nat) : Nat := reg 11 n (0x500 + 4 * k)
abbrev MSIDE_PPR_VALID (n k : Nat) : Fld := ⟨MSIDE_PPR n k, 31, 1⟩
abbrev MSIDE_PPR_DONE (n k : Nat) : Fld := ⟨MSIDE_PPR n k, 30, 1⟩
abbrev MSIDE_PPR_FAILED (n k : Nat) : Fld := ⟨MSIDE_PPR n k, 29, 1⟩
abbrev MSIDE_PPR_CHANNEL (n k : Nat) : Fld := ⟨MSIDE_PPR n k, 26, 3⟩
abbrev MSIDE_PPR_BANK (n k : Nat) : Fld := ⟨MSIDE_PPR n k, 22, 4⟩
abbrev MSIDE_PPR_ROW (n k : Nat) : Fld := ⟨MSIDE_PPR n k, 6, 16⟩
/-- MSIDE DIAG, R235. -/
abbrev MSIDE_DIAG (n e w : Nat) : Nat := reg 11 n (0x2000 + 16 * e + 4 * w)
abbrev MSIDE_DIAG_WORD (n e w : Nat) : Fld := ⟨MSIDE_DIAG n e w, 0, 32⟩
/-- MSIDE DIRTY, R237. -/
abbrev MSIDE_DIRTY (n w : Nat) : Nat := reg 11 n (0x3000 + 4 * w)
abbrev MSIDE_DIRTY_BITS (n w : Nat) : Fld := ⟨MSIDE_DIRTY n w, 0, 32⟩

/-! ### TSL (spec/08_touch_and_silvos_link.md) -/

/-- TSL CTRL, R259. -/
abbrev TSL_CTRL (n : Nat) : Nat := reg 15 n (0x0)
abbrev TSL_CTRL_MARK_LEAD (n : Nat) : Fld := ⟨TSL_CTRL n, 16, 9⟩
abbrev TSL_CTRL_EN (n : Nat) : Fld := ⟨TSL_CTRL n, 0, 1⟩
/-- TSL STATUS, R261. -/
abbrev TSL_STATUS (n : Nat) : Nat := reg 15 n (0x4)
abbrev TSL_STATUS_EVENTS (n : Nat) : Fld := ⟨TSL_STATUS n, 24, 8⟩
abbrev TSL_STATUS_LOST (n : Nat) : Fld := ⟨TSL_STATUS n, 15, 1⟩
abbrev TSL_STATUS_SEQ_ERR (n : Nat) : Fld := ⟨TSL_STATUS n, 14, 1⟩
abbrev TSL_STATUS_CRC_ERR (n : Nat) : Fld := ⟨TSL_STATUS n, 13, 1⟩
abbrev TSL_STATUS_CODE_ERR (n : Nat) : Fld := ⟨TSL_STATUS n, 12, 1⟩
abbrev TSL_STATUS_TIMEOUT (n : Nat) : Fld := ⟨TSL_STATUS n, 11, 1⟩
abbrev TSL_STATUS_WRITE_WHILE_ACTIVE (n : Nat) : Fld := ⟨TSL_STATUS n, 10, 1⟩
abbrev TSL_STATUS_STATE (n : Nat) : Fld := ⟨TSL_STATUS n, 0, 2⟩
/-- TSL ERRORS, R260. -/
abbrev TSL_ERRORS (n : Nat) : Nat := reg 15 n (0x8)
abbrev TSL_ERRORS_CRC (n : Nat) : Fld := ⟨TSL_ERRORS n, 16, 16⟩
abbrev TSL_ERRORS_CODE (n : Nat) : Fld := ⟨TSL_ERRORS n, 0, 16⟩
/-- TSL SCANS, R260. -/
abbrev TSL_SCANS (n : Nat) : Nat := reg 15 n (0xc)
abbrev TSL_SCANS_SEQ_TIMEOUT (n : Nat) : Fld := ⟨TSL_SCANS n, 16, 16⟩
abbrev TSL_SCANS_DISCARDED (n : Nat) : Fld := ⟨TSL_SCANS n, 0, 16⟩
/-- TSL IDENT_0, R259. -/
abbrev TSL_IDENT_0 (n : Nat) : Nat := reg 15 n (0x10)
abbrev TSL_IDENT_0_VENDOR (n : Nat) : Fld := ⟨TSL_IDENT_0 n, 16, 16⟩
abbrev TSL_IDENT_0_MODEL (n : Nat) : Fld := ⟨TSL_IDENT_0 n, 0, 16⟩
/-- TSL IDENT_1, R259. -/
abbrev TSL_IDENT_1 (n : Nat) : Nat := reg 15 n (0x14)
abbrev TSL_IDENT_1_PROTO (n : Nat) : Fld := ⟨TSL_IDENT_1 n, 24, 8⟩
abbrev TSL_IDENT_1_W (n : Nat) : Fld := ⟨TSL_IDENT_1 n, 8, 9⟩
abbrev TSL_IDENT_1_H (n : Nat) : Fld := ⟨TSL_IDENT_1 n, 0, 8⟩
/-- TSL IDENT_2, R259. -/
abbrev TSL_IDENT_2 (n : Nat) : Nat := reg 15 n (0x18)
abbrev TSL_IDENT_2_SERIAL (n : Nat) : Fld := ⟨TSL_IDENT_2 n, 0, 32⟩
/-- TSL FREQ, R259. -/
abbrev TSL_FREQ (n k : Nat) : Nat := reg 15 n (0x20 + 4 * k)
abbrev TSL_FREQ_KHZ (n k : Nat) : Fld := ⟨TSL_FREQ n k, 0, 16⟩

/-! ### TOUCH (spec/08_touch_and_silvos_link.md) -/

/-- TOUCH CTRL, R264. -/
abbrev TOUCH_CTRL (n : Nat) : Nat := reg 16 n (0x0)
abbrev TOUCH_CTRL_SCREEN (n : Nat) : Fld := ⟨TOUCH_CTRL n, 16, 3⟩
abbrev TOUCH_CTRL_SELFTEST (n : Nat) : Fld := ⟨TOUCH_CTRL n, 3, 1⟩
abbrev TOUCH_CTRL_RECAPTURE (n : Nat) : Fld := ⟨TOUCH_CTRL n, 2, 1⟩
abbrev TOUCH_CTRL_EN (n : Nat) : Fld := ⟨TOUCH_CTRL n, 0, 1⟩
/-- TOUCH STATUS, R264. -/
abbrev TOUCH_STATUS (n : Nat) : Nat := reg 16 n (0x4)
abbrev TOUCH_STATUS_EVENTS (n : Nat) : Fld := ⟨TOUCH_STATUS n, 24, 8⟩
abbrev TOUCH_STATUS_ERR_CODE (n : Nat) : Fld := ⟨TOUCH_STATUS n, 20, 4⟩
abbrev TOUCH_STATUS_NOISE (n : Nat) : Fld := ⟨TOUCH_STATUS n, 16, 1⟩
abbrev TOUCH_STATUS_PHASE (n : Nat) : Fld := ⟨TOUCH_STATUS n, 12, 3⟩
abbrev TOUCH_STATUS_STORED_VALID (n : Nat) : Fld := ⟨TOUCH_STATUS n, 5, 1⟩
abbrev TOUCH_STATUS_QUIET_FALLBACK (n : Nat) : Fld := ⟨TOUCH_STATUS n, 4, 1⟩
abbrev TOUCH_STATUS_OVERRUN (n : Nat) : Fld := ⟨TOUCH_STATUS n, 3, 1⟩
abbrev TOUCH_STATUS_WRITE_WHILE_ACTIVE (n : Nat) : Fld := ⟨TOUCH_STATUS n, 2, 1⟩
abbrev TOUCH_STATUS_CFG_ERR (n : Nat) : Fld := ⟨TOUCH_STATUS n, 1, 1⟩
/-- TOUCH THRESH, R272. -/
abbrev TOUCH_THRESH (n : Nat) : Nat := reg 16 n (0x8)
abbrev TOUCH_THRESH_PALM_PADS (n : Nat) : Fld := ⟨TOUCH_THRESH n, 24, 8⟩
abbrev TOUCH_THRESH_NOISE_MULT (n : Nat) : Fld := ⟨TOUCH_THRESH n, 20, 4⟩
abbrev TOUCH_THRESH_TOUCH_THRESH (n : Nat) : Fld := ⟨TOUCH_THRESH n, 0, 16⟩
/-- TOUCH TRACK, R273. -/
abbrev TOUCH_TRACK (n : Nat) : Nat := reg 16 n (0xc)
abbrev TOUCH_TRACK_HOLD_LIMIT (n : Nat) : Fld := ⟨TOUCH_TRACK n, 16, 16⟩
abbrev TOUCH_TRACK_BL_SHIFT (n : Nat) : Fld := ⟨TOUCH_TRACK n, 12, 4⟩
abbrev TOUCH_TRACK_QUIET_LINES (n : Nat) : Fld := ⟨TOUCH_TRACK n, 8, 4⟩
abbrev TOUCH_TRACK_MOVE_MAX (n : Nat) : Fld := ⟨TOUCH_TRACK n, 0, 8⟩
/-- TOUCH LISTEN, R279. -/
abbrev TOUCH_LISTEN (n : Nat) : Nat := reg 16 n (0x10)
abbrev TOUCH_LISTEN_NOISE_LAST (n : Nat) : Fld := ⟨TOUCH_LISTEN n, 16, 16⟩
abbrev TOUCH_LISTEN_LISTEN_THRESH (n : Nat) : Fld := ⟨TOUCH_LISTEN n, 0, 16⟩
/-- TOUCH MAP_X, R274. -/
abbrev TOUCH_MAP_X (n : Nat) : Nat := reg 16 n (0x14)
abbrev TOUCH_MAP_X_SCALE (n : Nat) : Fld := ⟨TOUCH_MAP_X n, 0, 24⟩
/-- TOUCH MAP_Y, R274. -/
abbrev TOUCH_MAP_Y (n : Nat) : Nat := reg 16 n (0x18)
abbrev TOUCH_MAP_Y_SCALE (n : Nat) : Fld := ⟨TOUCH_MAP_Y n, 0, 24⟩
/-- TOUCH MAP_OFF, R274. -/
abbrev TOUCH_MAP_OFF (n : Nat) : Nat := reg 16 n (0x1c)
abbrev TOUCH_MAP_OFF_OFF_Y (n : Nat) : Fld := ⟨TOUCH_MAP_OFF n, 16, 16⟩
abbrev TOUCH_MAP_OFF_OFF_X (n : Nat) : Fld := ⟨TOUCH_MAP_OFF n, 0, 16⟩
/-- TOUCH ORIENT, R274. -/
abbrev TOUCH_ORIENT (n : Nat) : Nat := reg 16 n (0x20)
abbrev TOUCH_ORIENT_SWAP_XY (n : Nat) : Fld := ⟨TOUCH_ORIENT n, 2, 1⟩
abbrev TOUCH_ORIENT_MIRROR_Y (n : Nat) : Fld := ⟨TOUCH_ORIENT n, 1, 1⟩
abbrev TOUCH_ORIENT_MIRROR_X (n : Nat) : Fld := ⟨TOUCH_ORIENT n, 0, 1⟩
/-- TOUCH SELFTEST, R281. -/
abbrev TOUCH_SELFTEST (n : Nat) : Nat := reg 16 n (0x24)
abbrev TOUCH_SELFTEST_SHORT_THRESH (n : Nat) : Fld := ⟨TOUCH_SELFTEST n, 16, 16⟩
abbrev TOUCH_SELFTEST_OPEN_RATIO (n : Nat) : Fld := ⟨TOUCH_SELFTEST n, 0, 8⟩
/-- TOUCH ST_RESULT, R281. -/
abbrev TOUCH_ST_RESULT (n : Nat) : Nat := reg 16 n (0x28)
abbrev TOUCH_ST_RESULT_SHORTS (n : Nat) : Fld := ⟨TOUCH_ST_RESULT n, 16, 8⟩
abbrev TOUCH_ST_RESULT_OPENS (n : Nat) : Fld := ⟨TOUCH_ST_RESULT n, 8, 8⟩
abbrev TOUCH_ST_RESULT_PASS (n : Nat) : Fld := ⟨TOUCH_ST_RESULT n, 2, 1⟩
abbrev TOUCH_ST_RESULT_DONE (n : Nat) : Fld := ⟨TOUCH_ST_RESULT n, 1, 1⟩
abbrev TOUCH_ST_RESULT_RUNNING (n : Nat) : Fld := ⟨TOUCH_ST_RESULT n, 0, 1⟩
/-- TOUCH ST_FAULT, R281. -/
abbrev TOUCH_ST_FAULT (n k : Nat) : Nat := reg 16 n (0x30 + 4 * k)
abbrev TOUCH_ST_FAULT_VALID (n k : Nat) : Fld := ⟨TOUCH_ST_FAULT n k, 31, 1⟩
abbrev TOUCH_ST_FAULT_KIND (n k : Nat) : Fld := ⟨TOUCH_ST_FAULT n k, 30, 1⟩
abbrev TOUCH_ST_FAULT_PARTNER (n k : Nat) : Fld := ⟨TOUCH_ST_FAULT n k, 16, 2⟩
abbrev TOUCH_ST_FAULT_PAD (n k : Nat) : Fld := ⟨TOUCH_ST_FAULT n k, 0, 15⟩
/-- TOUCH COUNTS, R284. -/
abbrev TOUCH_COUNTS (n : Nat) : Nat := reg 16 n (0x70)
abbrev TOUCH_COUNTS_DROPPED (n : Nat) : Fld := ⟨TOUCH_COUNTS n, 16, 16⟩
abbrev TOUCH_COUNTS_NONE_DROPS (n : Nat) : Fld := ⟨TOUCH_COUNTS n, 0, 16⟩
/-- TOUCH COUNTS2, R273. -/
abbrev TOUCH_COUNTS2 (n : Nat) : Nat := reg 16 n (0x74)
abbrev TOUCH_COUNTS2_EXCESS (n : Nat) : Fld := ⟨TOUCH_COUNTS2 n, 16, 16⟩
abbrev TOUCH_COUNTS2_NOISE_ENTRIES (n : Nat) : Fld := ⟨TOUCH_COUNTS2 n, 8, 8⟩
abbrev TOUCH_COUNTS2_CUE_REFUSED (n : Nat) : Fld := ⟨TOUCH_COUNTS2 n, 4, 4⟩
abbrev TOUCH_COUNTS2_FREQ (n : Nat) : Fld := ⟨TOUCH_COUNTS2 n, 0, 3⟩
/-- TOUCH BL_INDEX, R268. -/
abbrev TOUCH_BL_INDEX (n : Nat) : Nat := reg 16 n (0x78)
abbrev TOUCH_BL_INDEX_PAD (n : Nat) : Fld := ⟨TOUCH_BL_INDEX n, 0, 15⟩
/-- TOUCH BL_DATA, R268. -/
abbrev TOUCH_BL_DATA (n : Nat) : Nat := reg 16 n (0x7c)
abbrev TOUCH_BL_DATA_HELD (n : Nat) : Fld := ⟨TOUCH_BL_DATA n, 31, 1⟩
abbrev TOUCH_BL_DATA_OBSTRUCTED (n : Nat) : Fld := ⟨TOUCH_BL_DATA n, 30, 1⟩
abbrev TOUCH_BL_DATA_FROZEN (n : Nat) : Fld := ⟨TOUCH_BL_DATA n, 29, 1⟩
abbrev TOUCH_BL_DATA_ANTI (n : Nat) : Fld := ⟨TOUCH_BL_DATA n, 28, 1⟩
abbrev TOUCH_BL_DATA_BASELINE (n : Nat) : Fld := ⟨TOUCH_BL_DATA n, 0, 24⟩
/-- TOUCH RAW, R268. -/
abbrev TOUCH_RAW (n : Nat) : Nat := reg 16 n (0x80)
abbrev TOUCH_RAW_COUNT (n : Nat) : Fld := ⟨TOUCH_RAW n, 0, 16⟩
/-- TOUCH BL_ADDR, R288. -/
abbrev TOUCH_BL_ADDR (n : Nat) : Nat := reg 16 n (0x84)
abbrev TOUCH_BL_ADDR_ADDR (n : Nat) : Fld := ⟨TOUCH_BL_ADDR n, 0, 32⟩
/-- TOUCH BL_CMD, R288. -/
abbrev TOUCH_BL_CMD (n : Nat) : Nat := reg 16 n (0x88)
abbrev TOUCH_BL_CMD_LOAD (n : Nat) : Fld := ⟨TOUCH_BL_CMD n, 4, 1⟩
abbrev TOUCH_BL_CMD_DUMP (n : Nat) : Fld := ⟨TOUCH_BL_CMD n, 3, 1⟩
abbrev TOUCH_BL_CMD_BUSY (n : Nat) : Fld := ⟨TOUCH_BL_CMD n, 2, 1⟩
abbrev TOUCH_BL_CMD_LOAD_REJECTED (n : Nat) : Fld := ⟨TOUCH_BL_CMD n, 1, 1⟩
abbrev TOUCH_BL_CMD_DONE (n : Nat) : Fld := ⟨TOUCH_BL_CMD n, 0, 1⟩
/-- TOUCH ZONE_A, R286. -/
abbrev TOUCH_ZONE_A (n k : Nat) : Nat := reg 16 n (0x100 + 16 * k)
abbrev TOUCH_ZONE_A_Y0 (n k : Nat) : Fld := ⟨TOUCH_ZONE_A n k, 16, 16⟩
abbrev TOUCH_ZONE_A_X0 (n k : Nat) : Fld := ⟨TOUCH_ZONE_A n k, 0, 16⟩
/-- TOUCH ZONE_B, R286. -/
abbrev TOUCH_ZONE_B (n k : Nat) : Nat := reg 16 n (0x104 + 16 * k)
abbrev TOUCH_ZONE_B_Y1 (n k : Nat) : Fld := ⟨TOUCH_ZONE_B n k, 16, 16⟩
abbrev TOUCH_ZONE_B_X1 (n k : Nat) : Fld := ⟨TOUCH_ZONE_B n k, 0, 16⟩
/-- TOUCH ZONE_CTRL, R286. -/
abbrev TOUCH_ZONE_CTRL (n k : Nat) : Nat := reg 16 n (0x108 + 16 * k)
abbrev TOUCH_ZONE_CTRL_EFFECT (n k : Nat) : Fld := ⟨TOUCH_ZONE_CTRL n k, 8, 6⟩
abbrev TOUCH_ZONE_CTRL_HC (n k : Nat) : Fld := ⟨TOUCH_ZONE_CTRL n k, 4, 4⟩
abbrev TOUCH_ZONE_CTRL_BUTTON (n k : Nat) : Fld := ⟨TOUCH_ZONE_CTRL n k, 1, 1⟩
abbrev TOUCH_ZONE_CTRL_EN (n k : Nat) : Fld := ⟨TOUCH_ZONE_CTRL n k, 0, 1⟩
/-- TOUCH SZONE_A, R286. -/
abbrev TOUCH_SZONE_A (n k : Nat) : Nat := reg 16 n (0x400 + 16 * k)
abbrev TOUCH_SZONE_A_Y0 (n k : Nat) : Fld := ⟨TOUCH_SZONE_A n k, 16, 16⟩
abbrev TOUCH_SZONE_A_X0 (n k : Nat) : Fld := ⟨TOUCH_SZONE_A n k, 0, 16⟩
/-- TOUCH SZONE_B, R286. -/
abbrev TOUCH_SZONE_B (n k : Nat) : Nat := reg 16 n (0x404 + 16 * k)
abbrev TOUCH_SZONE_B_Y1 (n k : Nat) : Fld := ⟨TOUCH_SZONE_B n k, 16, 16⟩
abbrev TOUCH_SZONE_B_X1 (n k : Nat) : Fld := ⟨TOUCH_SZONE_B n k, 0, 16⟩
/-- TOUCH SZONE_CTRL, R286. -/
abbrev TOUCH_SZONE_CTRL (n k : Nat) : Nat := reg 16 n (0x408 + 16 * k)
abbrev TOUCH_SZONE_CTRL_EFFECT (n k : Nat) : Fld := ⟨TOUCH_SZONE_CTRL n k, 8, 6⟩
abbrev TOUCH_SZONE_CTRL_HC (n k : Nat) : Fld := ⟨TOUCH_SZONE_CTRL n k, 4, 4⟩
abbrev TOUCH_SZONE_CTRL_BUTTON (n k : Nat) : Fld := ⟨TOUCH_SZONE_CTRL n k, 1, 1⟩
abbrev TOUCH_SZONE_CTRL_EN (n k : Nat) : Fld := ⟨TOUCH_SZONE_CTRL n k, 0, 1⟩

/-! ### HAP (spec/09_haptics.md) -/

/-- HAP CTRL, R292. -/
abbrev HAP_CTRL : Nat := reg 18 0 (0x0)
abbrev HAP_CTRL_HV_SETTLE : Fld := ⟨HAP_CTRL, 16, 8⟩
abbrev HAP_CTRL_DEAD_NS : Fld := ⟨HAP_CTRL, 8, 8⟩
abbrev HAP_CTRL_HV_ON : Fld := ⟨HAP_CTRL, 0, 1⟩
/-- HAP STATUS, R293. -/
abbrev HAP_STATUS : Nat := reg 18 0 (0x4)
abbrev HAP_STATUS_EVENTS : Fld := ⟨HAP_STATUS, 24, 8⟩
abbrev HAP_STATUS_LIB_REJECTED : Fld := ⟨HAP_STATUS, 5, 1⟩
abbrev HAP_STATUS_LIB_DONE : Fld := ⟨HAP_STATUS, 4, 1⟩
abbrev HAP_STATUS_LIB_BUSY : Fld := ⟨HAP_STATUS, 3, 1⟩
abbrev HAP_STATUS_LIB_VALID : Fld := ⟨HAP_STATUS, 2, 1⟩
abbrev HAP_STATUS_HV_READY : Fld := ⟨HAP_STATUS, 1, 1⟩
abbrev HAP_STATUS_HV_LIVE : Fld := ⟨HAP_STATUS, 0, 1⟩
/-- HAP BUDGET, R302. -/
abbrev HAP_BUDGET : Nat := reg 18 0 (0x8)
abbrev HAP_BUDGET_IN_USE : Fld := ⟨HAP_BUDGET, 16, 16⟩
abbrev HAP_BUDGET_LIMIT : Fld := ⟨HAP_BUDGET, 0, 16⟩
/-- HAP LIB_ADDR, R293. -/
abbrev HAP_LIB_ADDR : Nat := reg 18 0 (0xc)
abbrev HAP_LIB_ADDR_ADDR : Fld := ⟨HAP_LIB_ADDR, 0, 32⟩
/-- HAP LIB_CRC, R293. -/
abbrev HAP_LIB_CRC : Nat := reg 18 0 (0x10)
abbrev HAP_LIB_CRC_CRC : Fld := ⟨HAP_LIB_CRC, 0, 32⟩
/-- HAP LIB_CMD, R293. -/
abbrev HAP_LIB_CMD : Nat := reg 18 0 (0x14)
abbrev HAP_LIB_CMD_LOAD : Fld := ⟨HAP_LIB_CMD, 0, 1⟩
/-- HAP TRIG, R298. -/
abbrev HAP_TRIG (k : Nat) : Nat := reg 18 0 (0x20 + 4 * k)
abbrev HAP_TRIG_EN (k : Nat) : Fld := ⟨HAP_TRIG k, 31, 1⟩
abbrev HAP_TRIG_EFFECT (k : Nat) : Fld := ⟨HAP_TRIG k, 8, 6⟩
abbrev HAP_TRIG_HC (k : Nat) : Fld := ⟨HAP_TRIG k, 4, 4⟩
abbrev HAP_TRIG_EDGE (k : Nat) : Fld := ⟨HAP_TRIG k, 0, 2⟩
/-- HAP LIB, R294. -/
abbrev HAP_LIB (e w : Nat) : Nat := reg 18 0 (0x1000 + 16 * e + 4 * w)
abbrev HAP_LIB_WORD (e w : Nat) : Fld := ⟨HAP_LIB e w, 0, 32⟩

/-! ### HC (spec/09_haptics.md) -/

/-- HC CTRL, R302. -/
abbrev HC_CTRL (n : Nat) : Nat := reg 17 n (0x0)
abbrev HC_CTRL_WEIGHT (n : Nat) : Fld := ⟨HC_CTRL n, 16, 8⟩
abbrev HC_CTRL_EN (n : Nat) : Fld := ⟨HC_CTRL n, 0, 1⟩
/-- HC STATUS, R299. -/
abbrev HC_STATUS (n : Nat) : Nat := reg 17 n (0x4)
abbrev HC_STATUS_EVENTS (n : Nat) : Fld := ⟨HC_STATUS n, 24, 8⟩
abbrev HC_STATUS_SENSE_FAULT (n : Nat) : Fld := ⟨HC_STATUS n, 9, 1⟩
abbrev HC_STATUS_NO_LOCK (n : Nat) : Fld := ⟨HC_STATUS n, 8, 1⟩
abbrev HC_STATUS_SCALED (n : Nat) : Fld := ⟨HC_STATUS n, 7, 1⟩
abbrev HC_STATUS_LOCKED (n : Nat) : Fld := ⟨HC_STATUS n, 3, 1⟩
abbrev HC_STATUS_STATE (n : Nat) : Fld := ⟨HC_STATUS n, 0, 3⟩
/-- HC TRACK, R296. -/
abbrev HC_TRACK (n : Nat) : Nat := reg 17 n (0x8)
abbrev HC_TRACK_F_MAX (n : Nat) : Fld := ⟨HC_TRACK n, 16, 16⟩
abbrev HC_TRACK_F_MIN (n : Nat) : Fld := ⟨HC_TRACK n, 0, 16⟩
/-- HC FREQ, R296. -/
abbrev HC_FREQ (n : Nat) : Nat := reg 17 n (0xc)
abbrev HC_FREQ_TRACKED (n : Nat) : Fld := ⟨HC_FREQ n, 0, 16⟩
/-- HC COUNTS, R299. -/
abbrev HC_COUNTS (n : Nat) : Nat := reg 17 n (0x10)
abbrev HC_COUNTS_STARTS (n : Nat) : Fld := ⟨HC_COUNTS n, 16, 16⟩
abbrev HC_COUNTS_DISCARDS (n : Nat) : Fld := ⟨HC_COUNTS n, 0, 16⟩
/-- HC DROPS, R302. -/
abbrev HC_DROPS (n : Nat) : Nat := reg 17 n (0x14)
abbrev HC_DROPS_BUDGET_DROP (n : Nat) : Fld := ⟨HC_DROPS n, 16, 16⟩
abbrev HC_DROPS_HV_DROP (n : Nat) : Fld := ⟨HC_DROPS n, 0, 16⟩
/-- HC SENSE, R291. -/
abbrev HC_SENSE (n : Nat) : Nat := reg 17 n (0x18)
abbrev HC_SENSE_CODE (n : Nat) : Fld := ⟨HC_SENSE n, 0, 12⟩

/-! ### AUD (spec/10_audio.md) -/

/-- AUD CTRL, R305. -/
abbrev AUD_CTRL : Nat := reg 19 0 (0x0)
abbrev AUD_CTRL_EN : Fld := ⟨AUD_CTRL, 0, 1⟩
/-- AUD STATUS, R305. -/
abbrev AUD_STATUS : Nat := reg 19 0 (0x4)
abbrev AUD_STATUS_EVENTS : Fld := ⟨AUD_STATUS, 24, 8⟩
abbrev AUD_STATUS_ERR_CODE : Fld := ⟨AUD_STATUS, 20, 4⟩
abbrev AUD_STATUS_WRITE_WHILE_ACTIVE : Fld := ⟨AUD_STATUS, 2, 1⟩
abbrev AUD_STATUS_CFG_ERR : Fld := ⟨AUD_STATUS, 1, 1⟩
abbrev AUD_STATUS_RUNNING : Fld := ⟨AUD_STATUS, 0, 1⟩
/-- AUD STAGE, R309. -/
abbrev AUD_STAGE : Nat := reg 19 0 (0x8)
abbrev AUD_STAGE_ADDR : Fld := ⟨AUD_STAGE, 0, 32⟩
/-- AUD ZC, R315. -/
abbrev AUD_ZC : Nat := reg 19 0 (0xc)
abbrev AUD_ZC_ZC_TIMEOUT : Fld := ⟨AUD_ZC, 0, 6⟩
/-- AUD LOOP, R322. -/
abbrev AUD_LOOP : Nat := reg 19 0 (0x10)
abbrev AUD_LOOP_EN : Fld := ⟨AUD_LOOP, 28, 4⟩
abbrev AUD_LOOP_SRC : Fld := ⟨AUD_LOOP, 0, 24⟩
/-- AUD COUNTS, R309. -/
abbrev AUD_COUNTS : Nat := reg 19 0 (0x14)
abbrev AUD_COUNTS_LATE_BLOCKS : Fld := ⟨AUD_COUNTS, 16, 16⟩
abbrev AUD_COUNTS_LATE_STREAMS : Fld := ⟨AUD_COUNTS, 0, 16⟩
/-- AUD DIRECT, R320. -/
abbrev AUD_DIRECT (r : Nat) : Nat := reg 19 0 (0x20 + 4 * r)
abbrev AUD_DIRECT_EN (r : Nat) : Fld := ⟨AUD_DIRECT r, 31, 1⟩
abbrev AUD_DIRECT_OUT (r : Nat) : Fld := ⟨AUD_DIRECT r, 8, 5⟩
abbrev AUD_DIRECT_IN (r : Nat) : Fld := ⟨AUD_DIRECT r, 0, 5⟩
/-- AUD HPF_ROM, R318. -/
abbrev AUD_HPF_ROM (k c : Nat) : Nat := reg 19 0 (0x200 + 32 * k + 4 * c)
abbrev AUD_HPF_ROM_COEF (k c : Nat) : Fld := ⟨AUD_HPF_ROM k c, 0, 32⟩
/-- AUD NODE, R313. -/
abbrev AUD_NODE (o i : Nat) : Nat := reg 19 0 (0x1000 + 256 * o + 4 * i)
abbrev AUD_NODE_PENDING (o i : Nat) : Fld := ⟨AUD_NODE o i, 16, 1⟩
abbrev AUD_NODE_CODE (o i : Nat) : Fld := ⟨AUD_NODE o i, 0, 16⟩
/-- AUD NODE_LIVE, R325. -/
abbrev AUD_NODE_LIVE (o i : Nat) : Nat := reg 19 0 (0x4000 + 256 * o + 4 * i)
abbrev AUD_NODE_LIVE_CODE (o i : Nat) : Fld := ⟨AUD_NODE_LIVE o i, 0, 16⟩
/-- AUD EQ, R319. -/
abbrev AUD_EQ (o b q c : Nat) : Nat := reg 19 0 (0x8000 + 512 * o + 256 * b + 20 * q + 4 * c)
abbrev AUD_EQ_COEF (o b q c : Nat) : Fld := ⟨AUD_EQ o b q c, 0, 32⟩
/-- AUD EQ_CTRL, R319. -/
abbrev AUD_EQ_CTRL (o : Nat) : Nat := reg 19 0 (0xe000 + 4 * o)
abbrev AUD_EQ_CTRL_ACTIVE (o : Nat) : Fld := ⟨AUD_EQ_CTRL o, 2, 1⟩
abbrev AUD_EQ_CTRL_SWAP (o : Nat) : Fld := ⟨AUD_EQ_CTRL o, 1, 1⟩
abbrev AUD_EQ_CTRL_EN (o : Nat) : Fld := ⟨AUD_EQ_CTRL o, 0, 1⟩

/-! ### TDM (spec/10_audio.md) -/

/-- TDM CTRL, R312. -/
abbrev TDM_CTRL (n : Nat) : Nat := reg 20 n (0x0)
abbrev TDM_CTRL_BCLK_EDGE (n : Nat) : Fld := ⟨TDM_CTRL n, 4, 1⟩
abbrev TDM_CTRL_DELAY (n : Nat) : Fld := ⟨TDM_CTRL n, 3, 1⟩
abbrev TDM_CTRL_FSYNC_POL (n : Nat) : Fld := ⟨TDM_CTRL n, 2, 1⟩
abbrev TDM_CTRL_FSYNC_WIDE (n : Nat) : Fld := ⟨TDM_CTRL n, 1, 1⟩
abbrev TDM_CTRL_EN (n : Nat) : Fld := ⟨TDM_CTRL n, 0, 1⟩
/-- TDM STATUS, R312. -/
abbrev TDM_STATUS (n : Nat) : Nat := reg 20 n (0x4)
abbrev TDM_STATUS_EVENTS (n : Nat) : Fld := ⟨TDM_STATUS n, 24, 8⟩
abbrev TDM_STATUS_ERR_CODE (n : Nat) : Fld := ⟨TDM_STATUS n, 20, 4⟩
abbrev TDM_STATUS_WRITE_WHILE_ACTIVE (n : Nat) : Fld := ⟨TDM_STATUS n, 2, 1⟩
abbrev TDM_STATUS_CFG_ERR (n : Nat) : Fld := ⟨TDM_STATUS n, 1, 1⟩
abbrev TDM_STATUS_RUNNING (n : Nat) : Fld := ⟨TDM_STATUS n, 0, 1⟩
/-- TDM MASK, R311. -/
abbrev TDM_MASK (n : Nat) : Nat := reg 20 n (0x8)
abbrev TDM_MASK_RX_MASK (n : Nat) : Fld := ⟨TDM_MASK n, 16, 16⟩
abbrev TDM_MASK_TX_MASK (n : Nat) : Fld := ⟨TDM_MASK n, 0, 16⟩
/-- TDM HPF, R318. -/
abbrev TDM_HPF (n s : Nat) : Nat := reg 20 n (0x10 + 4 * s)
abbrev TDM_HPF_CORNER (n s : Nat) : Fld := ⟨TDM_HPF n s, 0, 4⟩

/-! ### BELL (spec/10_audio.md) -/

/-- BELL DUCK, R325. -/
abbrev BELL_DUCK : Nat := reg 21 0 (0x0)
abbrev BELL_DUCK_DEPTH : Fld := ⟨BELL_DUCK, 0, 12⟩
/-- BELL DUCK_IN, R325. -/
abbrev BELL_DUCK_IN : Nat := reg 21 0 (0x4)
abbrev BELL_DUCK_IN_INPUTS : Fld := ⟨BELL_DUCK_IN, 0, 24⟩
/-- BELL DUCK_OUT_LO, R325. -/
abbrev BELL_DUCK_OUT_LO : Nat := reg 21 0 (0x8)
abbrev BELL_DUCK_OUT_LO_OUTPUTS : Fld := ⟨BELL_DUCK_OUT_LO, 0, 32⟩
/-- BELL DUCK_OUT_HI, R325. -/
abbrev BELL_DUCK_OUT_HI : Nat := reg 21 0 (0xc)
abbrev BELL_DUCK_OUT_HI_OUTPUTS : Fld := ⟨BELL_DUCK_OUT_HI, 0, 16⟩
/-- BELL PROTECT_LO, R326. -/
abbrev BELL_PROTECT_LO : Nat := reg 21 0 (0x10)
abbrev BELL_PROTECT_LO_OUTPUTS : Fld := ⟨BELL_PROTECT_LO, 0, 32⟩
/-- BELL PROTECT_HI, R326. -/
abbrev BELL_PROTECT_HI : Nat := reg 21 0 (0x14)
abbrev BELL_PROTECT_HI_OUTPUTS : Fld := ⟨BELL_PROTECT_HI, 0, 16⟩
/-- BELL STATUS, R327. -/
abbrev BELL_STATUS : Nat := reg 21 0 (0x18)
abbrev BELL_STATUS_EVENTS : Fld := ⟨BELL_STATUS, 24, 8⟩
abbrev BELL_STATUS_DOWN_STOP : Fld := ⟨BELL_STATUS, 5, 1⟩
abbrev BELL_STATUS_DUCKING : Fld := ⟨BELL_STATUS, 4, 1⟩
abbrev BELL_STATUS_SOUNDING : Fld := ⟨BELL_STATUS, 0, 4⟩
/-- BELL FREQ, R323. -/
abbrev BELL_FREQ (v : Nat) : Nat := reg 21 0 (0x100 + 32 * v)
abbrev BELL_FREQ_F2 (v : Nat) : Fld := ⟨BELL_FREQ v, 16, 16⟩
abbrev BELL_FREQ_F1 (v : Nat) : Fld := ⟨BELL_FREQ v, 0, 16⟩
/-- BELL LEVEL, R323. -/
abbrev BELL_LEVEL (v : Nat) : Nat := reg 21 0 (0x104 + 32 * v)
abbrev BELL_LEVEL_CODE (v : Nat) : Fld := ⟨BELL_LEVEL v, 0, 16⟩
/-- BELL CADENCE, R324. -/
abbrev BELL_CADENCE (v : Nat) : Nat := reg 21 0 (0x108 + 32 * v)
abbrev BELL_CADENCE_OFF_MS (v : Nat) : Fld := ⟨BELL_CADENCE v, 16, 16⟩
abbrev BELL_CADENCE_ON_MS (v : Nat) : Fld := ⟨BELL_CADENCE v, 0, 16⟩
/-- BELL CTRL, R324. -/
abbrev BELL_CTRL (v : Nat) : Nat := reg 21 0 (0x10c + 32 * v)
abbrev BELL_CTRL_COUNT (v : Nat) : Fld := ⟨BELL_CTRL v, 8, 8⟩
abbrev BELL_CTRL_ALT (v : Nat) : Fld := ⟨BELL_CTRL v, 2, 1⟩
abbrev BELL_CTRL_STOP (v : Nat) : Fld := ⟨BELL_CTRL v, 1, 1⟩
abbrev BELL_CTRL_SOUND (v : Nat) : Fld := ⟨BELL_CTRL v, 0, 1⟩

/-! ### IC (spec/11_worlds_and_management_cores.md) -/

/-- IC SRC, R348. -/
abbrev IC_SRC (k : Nat) : Nat := reg 23 0 (0x0 + 4 * k)
abbrev IC_SRC_PENDING (k : Nat) : Fld := ⟨IC_SRC k, 31, 1⟩
abbrev IC_SRC_WORLD (k : Nat) : Fld := ⟨IC_SRC k, 30, 1⟩
abbrev IC_SRC_TARGET (k : Nat) : Fld := ⟨IC_SRC k, 16, 5⟩
abbrev IC_SRC_SMODE (k : Nat) : Fld := ⟨IC_SRC k, 8, 1⟩
abbrev IC_SRC_PRIO (k : Nat) : Fld := ⟨IC_SRC k, 0, 3⟩
/-- IC SWI, R348. -/
abbrev IC_SWI : Nat := reg 23 0 (0x800)
abbrev IC_SWI_N : Fld := ⟨IC_SWI, 0, 5⟩
/-- IC CTX_THRESH, R349. -/
abbrev IC_CTX_THRESH (c x : Nat) : Nat := reg 23 0 (0x1000 + 64 * c + 16 * x)
abbrev IC_CTX_THRESH_THRESH (c x : Nat) : Fld := ⟨IC_CTX_THRESH c x, 0, 3⟩
/-- IC CTX_TOP, R349. -/
abbrev IC_CTX_TOP (c x : Nat) : Nat := reg 23 0 (0x1004 + 64 * c + 16 * x)
abbrev IC_CTX_TOP_SOURCE (c x : Nat) : Fld := ⟨IC_CTX_TOP c x, 0, 9⟩
/-- IC CTX_CLAIM, R348. -/
abbrev IC_CTX_CLAIM (c x : Nat) : Nat := reg 23 0 (0x1008 + 64 * c + 16 * x)
abbrev IC_CTX_CLAIM_SOURCE (c x : Nat) : Fld := ⟨IC_CTX_CLAIM c x, 0, 9⟩
/-- IC CTX_DONE, R348. -/
abbrev IC_CTX_DONE (c x : Nat) : Nat := reg 23 0 (0x100c + 64 * c + 16 * x)
abbrev IC_CTX_DONE_SOURCE (c x : Nat) : Fld := ⟨IC_CTX_DONE c x, 0, 9⟩

/-! ### PWR (spec/11_worlds_and_management_cores.md) -/

/-- PWR GATE, R354. -/
abbrev PWR_GATE (u w : Nat) : Nat := reg 32 0 (0x0 + 64 * u + 4 * w)
abbrev PWR_GATE_REQ (u w : Nat) : Fld := ⟨PWR_GATE u w, 0, 32⟩
/-- PWR HELD, R354. -/
abbrev PWR_HELD (u w : Nat) : Nat := reg 32 0 (0x1000 + 64 * u + 4 * w)
abbrev PWR_HELD_HELD (u w : Nat) : Fld := ⟨PWR_HELD u w, 0, 32⟩

/-! ### DBG (spec/11_worlds_and_management_cores.md) -/

/-- DBG EN, R358. -/
abbrev DBG_EN : Nat := reg 31 0 (0x0)
abbrev DBG_EN_LOCKED_OUT : Fld := ⟨DBG_EN, 7, 1⟩
abbrev DBG_EN_FAILS : Fld := ⟨DBG_EN, 4, 2⟩
abbrev DBG_EN_SNI : Fld := ⟨DBG_EN, 3, 1⟩
abbrev DBG_EN_SI : Fld := ⟨DBG_EN, 2, 1⟩
abbrev DBG_EN_NNI : Fld := ⟨DBG_EN, 1, 1⟩
abbrev DBG_EN_NI : Fld := ⟨DBG_EN, 0, 1⟩
/-- DBG NORMAL_EN, R358. -/
abbrev DBG_NORMAL_EN : Nat := reg 31 0 (0x4)
abbrev DBG_NORMAL_EN_NNI : Fld := ⟨DBG_NORMAL_EN, 1, 1⟩
abbrev DBG_NORMAL_EN_NI : Fld := ⟨DBG_NORMAL_EN, 0, 1⟩

/-! ### SYS (spec/11_worlds_and_management_cores.md) -/

/-- SYS SEC_CTRL, R346. -/
abbrev SYS_SEC_CTRL : Nat := reg 0 0 (0x400)
abbrev SYS_SEC_CTRL_LOCK : Fld := ⟨SYS_SEC_CTRL, 31, 1⟩
abbrev SYS_SEC_CTRL_RESTART_TIMEOUT : Fld := ⟨SYS_SEC_CTRL, 16, 15⟩
abbrev SYS_SEC_CTRL_UP : Fld := ⟨SYS_SEC_CTRL, 4, 1⟩
abbrev SYS_SEC_CTRL_AUTO_RESTART : Fld := ⟨SYS_SEC_CTRL, 3, 1⟩
abbrev SYS_SEC_CTRL_SWDT_ARM : Fld := ⟨SYS_SEC_CTRL, 1, 1⟩
abbrev SYS_SEC_CTRL_RES_ARM : Fld := ⟨SYS_SEC_CTRL, 0, 1⟩
/-- SYS SEC_STATUS, R343. -/
abbrev SYS_SEC_STATUS : Nat := reg 0 0 (0x404)
abbrev SYS_SEC_STATUS_EVENTS : Fld := ⟨SYS_SEC_STATUS, 24, 8⟩
abbrev SYS_SEC_STATUS_CAUSE : Fld := ⟨SYS_SEC_STATUS, 20, 4⟩
abbrev SYS_SEC_STATUS_FAILS : Fld := ⟨SYS_SEC_STATUS, 18, 2⟩
abbrev SYS_SEC_STATUS_RESTARTS : Fld := ⟨SYS_SEC_STATUS, 10, 8⟩
abbrev SYS_SEC_STATUS_CORE : Fld := ⟨SYS_SEC_STATUS, 7, 3⟩
abbrev SYS_SEC_STATUS_DBG_SECURE : Fld := ⟨SYS_SEC_STATUS, 5, 1⟩
abbrev SYS_SEC_STATUS_GAVE_UP : Fld := ⟨SYS_SEC_STATUS, 4, 1⟩
abbrev SYS_SEC_STATUS_RESTARTING : Fld := ⟨SYS_SEC_STATUS, 3, 1⟩
abbrev SYS_SEC_STATUS_DOWN_EVT : Fld := ⟨SYS_SEC_STATUS, 1, 1⟩
abbrev SYS_SEC_STATUS_DOWN : Fld := ⟨SYS_SEC_STATUS, 0, 1⟩
/-- SYS SWDT, R344. -/
abbrev SYS_SWDT : Nat := reg 0 0 (0x408)
abbrev SYS_SWDT_MS : Fld := ⟨SYS_SWDT, 0, 16⟩
/-- SYS SWDT_KICK, R344. -/
abbrev SYS_SWDT_KICK : Nat := reg 0 0 (0x40c)
abbrev SYS_SWDT_KICK_KICK : Fld := ⟨SYS_SWDT_KICK, 0, 32⟩
/-- SYS SRAM_SPLIT, R335. -/
abbrev SYS_SRAM_SPLIT : Nat := reg 0 0 (0x410)
abbrev SYS_SRAM_SPLIT_UNITS : Fld := ⟨SYS_SRAM_SPLIT, 0, 7⟩
/-- SYS SEC_ENTRY, R329. -/
abbrev SYS_SEC_ENTRY : Nat := reg 0 0 (0x418)
abbrev SYS_SEC_ENTRY_ADDR : Fld := ⟨SYS_SEC_ENTRY, 0, 32⟩
/-- SYS OWN_STATUS, R351. -/
abbrev SYS_OWN_STATUS : Nat := reg 0 0 (0x4c0)
abbrev SYS_OWN_STATUS_EVENTS : Fld := ⟨SYS_OWN_STATUS, 24, 8⟩
abbrev SYS_OWN_STATUS_DENIED_WRITES : Fld := ⟨SYS_OWN_STATUS, 8, 16⟩
abbrev SYS_OWN_STATUS_CLAIM_REFUSED : Fld := ⟨SYS_OWN_STATUS, 0, 1⟩
/-- SYS SECMEM_BASE, R335. -/
abbrev SYS_SECMEM_BASE (k : Nat) : Nat := reg 0 0 (0x440 + 8 * k)
abbrev SYS_SECMEM_BASE_GRANULE (k : Nat) : Fld := ⟨SYS_SECMEM_BASE k, 0, 14⟩
/-- SYS SECMEM_SIZE, R335. -/
abbrev SYS_SECMEM_SIZE (k : Nat) : Nat := reg 0 0 (0x444 + 8 * k)
abbrev SYS_SECMEM_SIZE_VALID (k : Nat) : Fld := ⟨SYS_SECMEM_SIZE k, 31, 1⟩
abbrev SYS_SECMEM_SIZE_GRANULES (k : Nat) : Fld := ⟨SYS_SECMEM_SIZE k, 0, 14⟩
/-- SYS OWN, R352. -/
abbrev SYS_OWN (u w : Nat) : Nat := reg 0 0 (0x1000 + 64 * u + 4 * w)
abbrev SYS_OWN_SECURE (u w : Nat) : Fld := ⟨SYS_OWN u w, 0, 32⟩

/-! ### MC (spec/11_worlds_and_management_cores.md) -/

/-- MC CTRL, R331. -/
abbrev MC_CTRL (n : Nat) : Nat := reg 22 n (0x0)
abbrev MC_CTRL_HARTID (n : Nat) : Fld := ⟨MC_CTRL n, 8, 3⟩
abbrev MC_CTRL_RUN (n : Nat) : Fld := ⟨MC_CTRL n, 0, 1⟩
/-- MC STATUS, R330. -/
abbrev MC_STATUS (n : Nat) : Nat := reg 22 n (0x4)
abbrev MC_STATUS_EVENTS (n : Nat) : Fld := ⟨MC_STATUS n, 24, 8⟩
abbrev MC_STATUS_FORCED (n : Nat) : Fld := ⟨MC_STATUS n, 9, 1⟩
abbrev MC_STATUS_FAULT (n : Nat) : Fld := ⟨MC_STATUS n, 8, 1⟩
abbrev MC_STATUS_HALTED (n : Nat) : Fld := ⟨MC_STATUS n, 4, 1⟩
abbrev MC_STATUS_WORLD (n : Nat) : Fld := ⟨MC_STATUS n, 3, 1⟩
abbrev MC_STATUS_STATE (n : Nat) : Fld := ⟨MC_STATUS n, 0, 3⟩
/-- MC RESID, R341. -/
abbrev MC_RESID (n : Nat) : Nat := reg 22 n (0x8)
abbrev MC_RESID_LIMIT (n : Nat) : Fld := ⟨MC_RESID n, 0, 16⟩
/-- MC RESID_MAX, R341. -/
abbrev MC_RESID_MAX (n : Nat) : Nat := reg 22 n (0xc)
abbrev MC_RESID_MAX_US (n : Nat) : Fld := ⟨MC_RESID_MAX n, 0, 32⟩
/-- MC FORCE_INFO, R342. -/
abbrev MC_FORCE_INFO (n : Nat) : Nat := reg 22 n (0x10)
abbrev MC_FORCE_INFO_GATE (n : Nat) : Fld := ⟨MC_FORCE_INFO n, 8, 6⟩
abbrev MC_FORCE_INFO_KIND (n : Nat) : Fld := ⟨MC_FORCE_INFO n, 0, 2⟩
/-- MC TIMECMP_N_LO, R333. -/
abbrev MC_TIMECMP_N_LO (n : Nat) : Nat := reg 22 n (0x20)
abbrev MC_TIMECMP_N_LO_CMP (n : Nat) : Fld := ⟨MC_TIMECMP_N_LO n, 0, 32⟩
/-- MC TIMECMP_N_HI, R333. -/
abbrev MC_TIMECMP_N_HI (n : Nat) : Nat := reg 22 n (0x24)
abbrev MC_TIMECMP_N_HI_CMP (n : Nat) : Fld := ⟨MC_TIMECMP_N_HI n, 0, 32⟩
/-- MC TIMECMP_S_LO, R333. -/
abbrev MC_TIMECMP_S_LO (n : Nat) : Nat := reg 22 n (0x28)
abbrev MC_TIMECMP_S_LO_CMP (n : Nat) : Fld := ⟨MC_TIMECMP_S_LO n, 0, 32⟩
/-- MC TIMECMP_S_HI, R333. -/
abbrev MC_TIMECMP_S_HI (n : Nat) : Nat := reg 22 n (0x2c)
abbrev MC_TIMECMP_S_HI_CMP (n : Nat) : Fld := ⟨MC_TIMECMP_S_HI n, 0, 32⟩

/-! ### BOOT (spec/12_chart_and_start.md) -/

/-- BOOT STATUS, R373. -/
abbrev BOOT_STATUS : Nat := reg 30 0 (0x0)
abbrev BOOT_STATUS_ATTEMPT : Fld := ⟨BOOT_STATUS, 20, 4⟩
abbrev BOOT_STATUS_STAGE : Fld := ⟨BOOT_STATUS, 16, 4⟩
abbrev BOOT_STATUS_SLOT : Fld := ⟨BOOT_STATUS, 8, 3⟩
abbrev BOOT_STATUS_HEADER1 : Fld := ⟨BOOT_STATUS, 2, 1⟩
abbrev BOOT_STATUS_ANCHOR : Fld := ⟨BOOT_STATUS, 1, 1⟩
abbrev BOOT_STATUS_UNDERWAY : Fld := ⟨BOOT_STATUS, 0, 1⟩
/-- BOOT SLOT_SEQ, R367. -/
abbrev BOOT_SLOT_SEQ (k : Nat) : Nat := reg 30 0 (0x10 + 8 * k)
abbrev BOOT_SLOT_SEQ_SEQ (k : Nat) : Fld := ⟨BOOT_SLOT_SEQ k, 0, 32⟩
/-- BOOT SLOT_RESULT, R367. -/
abbrev BOOT_SLOT_RESULT (k : Nat) : Nat := reg 30 0 (0x14 + 8 * k)
abbrev BOOT_SLOT_RESULT_SECTION (k : Nat) : Fld := ⟨BOOT_SLOT_RESULT k, 8, 8⟩
abbrev BOOT_SLOT_RESULT_REASON (k : Nat) : Fld := ⟨BOOT_SLOT_RESULT k, 4, 4⟩
abbrev BOOT_SLOT_RESULT_RESULT (k : Nat) : Fld := ⟨BOOT_SLOT_RESULT k, 0, 2⟩
/-- BOOT AON, R377. -/
abbrev BOOT_AON : Nat := reg 30 0 (0x40)
abbrev BOOT_AON_LAST_CAUSE : Fld := ⟨BOOT_AON, 28, 4⟩
abbrev BOOT_AON_RESET_CAUSE : Fld := ⟨BOOT_AON, 24, 4⟩
abbrev BOOT_AON_WARNED : Fld := ⟨BOOT_AON, 8, 1⟩
abbrev BOOT_AON_RESTORED : Fld := ⟨BOOT_AON, 3, 1⟩
abbrev BOOT_AON_COUNT : Fld := ⟨BOOT_AON, 0, 2⟩
/-- BOOT CTRL, R375. -/
abbrev BOOT_CTRL : Nat := reg 30 0 (0x44)
abbrev BOOT_CTRL_ANCHOR_CLEAR : Fld := ⟨BOOT_CTRL, 1, 1⟩
abbrev BOOT_CTRL_UNDERWAY : Fld := ⟨BOOT_CTRL, 0, 1⟩
/-- BOOT TIMER, R375. -/
abbrev BOOT_TIMER : Nat := reg 30 0 (0x48)
abbrev BOOT_TIMER_MS : Fld := ⟨BOOT_TIMER, 0, 32⟩
/-- BOOT SEC_DIGEST, R373. -/
abbrev BOOT_SEC_DIGEST (w : Nat) : Nat := reg 30 0 (0x80 + 4 * w)
abbrev BOOT_SEC_DIGEST_DIGEST (w : Nat) : Fld := ⟨BOOT_SEC_DIGEST w, 0, 32⟩
/-- BOOT NORMAL_ENTRY, R373. -/
abbrev BOOT_NORMAL_ENTRY : Nat := reg 30 0 (0xb0)
abbrev BOOT_NORMAL_ENTRY_ADDR : Fld := ⟨BOOT_NORMAL_ENTRY, 0, 32⟩
/-- BOOT FLASH_CMD, R384. -/
abbrev BOOT_FLASH_CMD : Nat := reg 30 0 (0x100)
abbrev BOOT_FLASH_CMD_GO : Fld := ⟨BOOT_FLASH_CMD, 31, 1⟩
abbrev BOOT_FLASH_CMD_OP : Fld := ⟨BOOT_FLASH_CMD, 24, 2⟩
abbrev BOOT_FLASH_CMD_LEN : Fld := ⟨BOOT_FLASH_CMD, 0, 24⟩
/-- BOOT FLASH_ADDR, R384. -/
abbrev BOOT_FLASH_ADDR : Nat := reg 30 0 (0x104)
abbrev BOOT_FLASH_ADDR_ADDR : Fld := ⟨BOOT_FLASH_ADDR, 0, 29⟩
/-- BOOT FLASH_BUF, R384. -/
abbrev BOOT_FLASH_BUF : Nat := reg 30 0 (0x108)
abbrev BOOT_FLASH_BUF_BUF : Fld := ⟨BOOT_FLASH_BUF, 0, 32⟩
/-- BOOT FLASH_STATUS, R384. -/
abbrev BOOT_FLASH_STATUS : Nat := reg 30 0 (0x10c)
abbrev BOOT_FLASH_STATUS_EVENTS : Fld := ⟨BOOT_FLASH_STATUS, 24, 8⟩
abbrev BOOT_FLASH_STATUS_TIMEOUT : Fld := ⟨BOOT_FLASH_STATUS, 3, 1⟩
abbrev BOOT_FLASH_STATUS_REFUSED : Fld := ⟨BOOT_FLASH_STATUS, 2, 1⟩
abbrev BOOT_FLASH_STATUS_DONE : Fld := ⟨BOOT_FLASH_STATUS, 1, 1⟩
abbrev BOOT_FLASH_STATUS_BUSY : Fld := ⟨BOOT_FLASH_STATUS, 0, 1⟩

/-! ### FLT (spec/13_faults_and_alive.md) -/

/-- FLT CTRL, R403. -/
abbrev FLT_CTRL : Nat := reg 24 0 (0x0)
abbrev FLT_CTRL_LOCK : Fld := ⟨FLT_CTRL, 31, 1⟩
abbrev FLT_CTRL_SAFE_OK : Fld := ⟨FLT_CTRL, 0, 1⟩
/-- FLT STATUS, R397. -/
abbrev FLT_STATUS : Nat := reg 24 0 (0x4)
abbrev FLT_STATUS_EVENTS : Fld := ⟨FLT_STATUS, 24, 8⟩
abbrev FLT_STATUS_CLASS_SET : Fld := ⟨FLT_STATUS, 20, 4⟩
abbrev FLT_STATUS_RELEASE_REFUSED : Fld := ⟨FLT_STATUS, 5, 1⟩
abbrev FLT_STATUS_SAFE_N_LOW : Fld := ⟨FLT_STATUS, 3, 1⟩
abbrev FLT_STATUS_C3 : Fld := ⟨FLT_STATUS, 2, 1⟩
abbrev FLT_STATUS_BROWNOUT : Fld := ⟨FLT_STATUS, 1, 1⟩
abbrev FLT_STATUS_HEALTHY : Fld := ⟨FLT_STATUS, 0, 1⟩
/-- FLT REQUEST, R388. -/
abbrev FLT_REQUEST : Nat := reg 24 0 (0x8)
abbrev FLT_REQUEST_C3 : Fld := ⟨FLT_REQUEST, 31, 1⟩
abbrev FLT_REQUEST_SCREENS : Fld := ⟨FLT_REQUEST, 0, 8⟩
/-- FLT RELEASE, R397. -/
abbrev FLT_RELEASE : Nat := reg 24 0 (0xc)
abbrev FLT_RELEASE_SCOPE : Fld := ⟨FLT_RELEASE, 8, 3⟩
abbrev FLT_RELEASE_INDEX : Fld := ⟨FLT_RELEASE, 0, 8⟩
/-- FLT TOLL_CTRL, R401. -/
abbrev FLT_TOLL_CTRL : Nat := reg 24 0 (0x10)
abbrev FLT_TOLL_CTRL_RESUME_OK : Fld := ⟨FLT_TOLL_CTRL, 17, 1⟩
abbrev FLT_TOLL_CTRL_ARM : Fld := ⟨FLT_TOLL_CTRL, 16, 1⟩
abbrev FLT_TOLL_CTRL_WINDOW : Fld := ⟨FLT_TOLL_CTRL, 0, 16⟩
/-- FLT TOLL_KICK, R401. -/
abbrev FLT_TOLL_KICK : Nat := reg 24 0 (0x14)
abbrev FLT_TOLL_KICK_KICK : Fld := ⟨FLT_TOLL_KICK, 0, 32⟩
/-- FLT TOLL_STATUS, R402. -/
abbrev FLT_TOLL_STATUS : Nat := reg 24 0 (0x18)
abbrev FLT_TOLL_STATUS_EVENTS : Fld := ⟨FLT_TOLL_STATUS, 24, 8⟩
abbrev FLT_TOLL_STATUS_STOP_CAUSE : Fld := ⟨FLT_TOLL_STATUS, 2, 2⟩
abbrev FLT_TOLL_STATUS_STOPPED : Fld := ⟨FLT_TOLL_STATUS, 1, 1⟩
abbrev FLT_TOLL_STATUS_RUNNING : Fld := ⟨FLT_TOLL_STATUS, 0, 1⟩
/-- FLT SELFTEST, R404. -/
abbrev FLT_SELFTEST : Nat := reg 24 0 (0x1c)
abbrev FLT_SELFTEST_ABANDONED : Fld := ⟨FLT_SELFTEST, 3, 1⟩
abbrev FLT_SELFTEST_PASS : Fld := ⟨FLT_SELFTEST, 2, 1⟩
abbrev FLT_SELFTEST_DONE : Fld := ⟨FLT_SELFTEST, 1, 1⟩
abbrev FLT_SELFTEST_GO : Fld := ⟨FLT_SELFTEST, 0, 1⟩
/-- FLT FE_STATUS, R400. -/
abbrev FLT_FE_STATUS : Nat := reg 24 0 (0x40)
abbrev FLT_FE_STATUS_MORE : Fld := ⟨FLT_FE_STATUS, 16, 16⟩
abbrev FLT_FE_STATUS_VALID : Fld := ⟨FLT_FE_STATUS, 0, 1⟩
/-- FLT FE_ADDR, R400. -/
abbrev FLT_FE_ADDR : Nat := reg 24 0 (0x44)
abbrev FLT_FE_ADDR_ADDR : Fld := ⟨FLT_FE_ADDR, 0, 32⟩
/-- FLT FE_INFO, R400. -/
abbrev FLT_FE_INFO : Nat := reg 24 0 (0x48)
abbrev FLT_FE_INFO_INPUT : Fld := ⟨FLT_FE_INFO, 23, 9⟩
abbrev FLT_FE_INFO_WORLD : Fld := ⟨FLT_FE_INFO, 22, 1⟩
abbrev FLT_FE_INFO_TYPE : Fld := ⟨FLT_FE_INFO, 12, 4⟩
abbrev FLT_FE_INFO_ADDR_HI : Fld := ⟨FLT_FE_INFO, 0, 8⟩
/-- FLT FE_MASTER, R400. -/
abbrev FLT_FE_MASTER : Nat := reg 24 0 (0x4c)
abbrev FLT_FE_MASTER_KIND : Fld := ⟨FLT_FE_MASTER, 14, 2⟩
abbrev FLT_FE_MASTER_ID : Fld := ⟨FLT_FE_MASTER, 8, 6⟩
abbrev FLT_FE_MASTER_SESSION : Fld := ⟨FLT_FE_MASTER, 0, 8⟩
/-- FLT FE_NS_LO, R400. -/
abbrev FLT_FE_NS_LO : Nat := reg 24 0 (0x50)
abbrev FLT_FE_NS_LO_NS : Fld := ⟨FLT_FE_NS_LO, 0, 32⟩
/-- FLT FE_NS_HI, R400. -/
abbrev FLT_FE_NS_HI : Nat := reg 24 0 (0x54)
abbrev FLT_FE_NS_HI_NS : Fld := ⟨FLT_FE_NS_HI, 0, 32⟩
/-- FLT FE_DRUM_LO, R400. -/
abbrev FLT_FE_DRUM_LO : Nat := reg 24 0 (0x58)
abbrev FLT_FE_DRUM_LO_DRUM : Fld := ⟨FLT_FE_DRUM_LO, 0, 32⟩
/-- FLT FE_DRUM_HI, R400. -/
abbrev FLT_FE_DRUM_HI : Nat := reg 24 0 (0x5c)
abbrev FLT_FE_DRUM_HI_DRUM : Fld := ⟨FLT_FE_DRUM_HI, 0, 32⟩
/-- FLT IN_CFG, R388. -/
abbrev FLT_IN_CFG (k : Nat) : Nat := reg 24 0 (0x1000 + 8 * k)
abbrev FLT_IN_CFG_SPAN (k : Nat) : Fld := ⟨FLT_IN_CFG k, 24, 8⟩
abbrev FLT_IN_CFG_MAX (k : Nat) : Fld := ⟨FLT_IN_CFG k, 22, 2⟩
abbrev FLT_IN_CFG_MIN (k : Nat) : Fld := ⟨FLT_IN_CFG k, 20, 2⟩
abbrev FLT_IN_CFG_LEVEL (k : Nat) : Fld := ⟨FLT_IN_CFG k, 19, 1⟩
abbrev FLT_IN_CFG_CLASS (k : Nat) : Fld := ⟨FLT_IN_CFG k, 16, 2⟩
abbrev FLT_IN_CFG_UNIT (k : Nat) : Fld := ⟨FLT_IN_CFG k, 8, 6⟩
abbrev FLT_IN_CFG_INSTANCE (k : Nat) : Fld := ⟨FLT_IN_CFG k, 0, 8⟩
/-- FLT IN_STATUS, R398. -/
abbrev FLT_IN_STATUS (k : Nat) : Nat := reg 24 0 (0x1004 + 8 * k)
abbrev FLT_IN_STATUS_EVENTS (k : Nat) : Fld := ⟨FLT_IN_STATUS k, 24, 8⟩
abbrev FLT_IN_STATUS_TRANSIENT (k : Nat) : Fld := ⟨FLT_IN_STATUS k, 2, 1⟩
abbrev FLT_IN_STATUS_CAUSE (k : Nat) : Fld := ⟨FLT_IN_STATUS k, 1, 1⟩
abbrev FLT_IN_STATUS_LIVE (k : Nat) : Fld := ⟨FLT_IN_STATUS k, 0, 1⟩

/-! ### PWR (spec/13_faults_and_alive.md) -/

/-- PWR WARN_CFG, R405. -/
abbrev PWR_WARN_CFG : Nat := reg 32 0 (0x2000)
abbrev PWR_WARN_CFG_LOCK : Fld := ⟨PWR_WARN_CFG, 31, 1⟩
abbrev PWR_WARN_CFG_RECOVER_MS : Fld := ⟨PWR_WARN_CFG, 16, 8⟩
abbrev PWR_WARN_CFG_VIN_EN : Fld := ⟨PWR_WARN_CFG, 1, 1⟩
abbrev PWR_WARN_CFG_PF_EN : Fld := ⟨PWR_WARN_CFG, 0, 1⟩
/-- PWR VIN_CFG, R405. -/
abbrev PWR_VIN_CFG : Nat := reg 32 0 (0x2004)
abbrev PWR_VIN_CFG_HYST_MV : Fld := ⟨PWR_VIN_CFG, 16, 8⟩
abbrev PWR_VIN_CFG_TRIP_MV : Fld := ⟨PWR_VIN_CFG, 0, 16⟩
/-- PWR WARN_STATUS, R405. -/
abbrev PWR_WARN_STATUS : Nat := reg 32 0 (0x2008)
abbrev PWR_WARN_STATUS_EVENTS : Fld := ⟨PWR_WARN_STATUS, 24, 8⟩
abbrev PWR_WARN_STATUS_ESCALATED : Fld := ⟨PWR_WARN_STATUS, 4, 1⟩
abbrev PWR_WARN_STATUS_WARNED : Fld := ⟨PWR_WARN_STATUS, 3, 1⟩
abbrev PWR_WARN_STATUS_BROWNOUT : Fld := ⟨PWR_WARN_STATUS, 2, 1⟩
abbrev PWR_WARN_STATUS_VIN_LOW : Fld := ⟨PWR_WARN_STATUS, 1, 1⟩
abbrev PWR_WARN_STATUS_PF_LOW : Fld := ⟨PWR_WARN_STATUS, 0, 1⟩
/-- PWR WARN_LAST, R406. -/
abbrev PWR_WARN_LAST : Nat := reg 32 0 (0x200c)
abbrev PWR_WARN_LAST_US : Fld := ⟨PWR_WARN_LAST, 0, 32⟩

/-! ### CRC (spec/14_check_value_units.md) -/

/-- CRC CFG, R408. -/
abbrev CRC_CFG (n : Nat) : Nat := reg 25 n (0x0)
abbrev CRC_CFG_REFOUT (n : Nat) : Fld := ⟨CRC_CFG n, 9, 1⟩
abbrev CRC_CFG_REFIN (n : Nat) : Fld := ⟨CRC_CFG n, 8, 1⟩
abbrev CRC_CFG_WIDTH (n : Nat) : Fld := ⟨CRC_CFG n, 0, 7⟩
/-- CRC POLY_LO, R408. -/
abbrev CRC_POLY_LO (n : Nat) : Nat := reg 25 n (0x4)
abbrev CRC_POLY_LO_POLY (n : Nat) : Fld := ⟨CRC_POLY_LO n, 0, 32⟩
/-- CRC POLY_HI, R408. -/
abbrev CRC_POLY_HI (n : Nat) : Nat := reg 25 n (0x8)
abbrev CRC_POLY_HI_POLY (n : Nat) : Fld := ⟨CRC_POLY_HI n, 0, 32⟩
/-- CRC INIT_LO, R408. -/
abbrev CRC_INIT_LO (n : Nat) : Nat := reg 25 n (0xc)
abbrev CRC_INIT_LO_INIT (n : Nat) : Fld := ⟨CRC_INIT_LO n, 0, 32⟩
/-- CRC INIT_HI, R408. -/
abbrev CRC_INIT_HI (n : Nat) : Nat := reg 25 n (0x10)
abbrev CRC_INIT_HI_INIT (n : Nat) : Fld := ⟨CRC_INIT_HI n, 0, 32⟩
/-- CRC XOROUT_LO, R408. -/
abbrev CRC_XOROUT_LO (n : Nat) : Nat := reg 25 n (0x14)
abbrev CRC_XOROUT_LO_XOROUT (n : Nat) : Fld := ⟨CRC_XOROUT_LO n, 0, 32⟩
/-- CRC XOROUT_HI, R408. -/
abbrev CRC_XOROUT_HI (n : Nat) : Nat := reg 25 n (0x18)
abbrev CRC_XOROUT_HI_XOROUT (n : Nat) : Fld := ⟨CRC_XOROUT_HI n, 0, 32⟩
/-- CRC CTRL, R414. -/
abbrev CRC_CTRL (n : Nat) : Nat := reg 25 n (0x20)
abbrev CRC_CTRL_SELFTEST (n : Nat) : Fld := ⟨CRC_CTRL n, 2, 1⟩
abbrev CRC_CTRL_ABORT (n : Nat) : Fld := ⟨CRC_CTRL n, 1, 1⟩
abbrev CRC_CTRL_GO (n : Nat) : Fld := ⟨CRC_CTRL n, 0, 1⟩
/-- CRC DESC_LO, R414. -/
abbrev CRC_DESC_LO (n : Nat) : Nat := reg 25 n (0x24)
abbrev CRC_DESC_LO_ADDR (n : Nat) : Fld := ⟨CRC_DESC_LO n, 6, 26⟩
/-- CRC DESC_HI, R414. -/
abbrev CRC_DESC_HI (n : Nat) : Nat := reg 25 n (0x28)
abbrev CRC_DESC_HI_ADDR (n : Nat) : Fld := ⟨CRC_DESC_HI n, 0, 8⟩
/-- CRC STATUS, R414. -/
abbrev CRC_STATUS (n : Nat) : Nat := reg 25 n (0x30)
abbrev CRC_STATUS_EVENTS (n : Nat) : Fld := ⟨CRC_STATUS n, 24, 8⟩
abbrev CRC_STATUS_ERR_CODE (n : Nat) : Fld := ⟨CRC_STATUS n, 20, 4⟩
abbrev CRC_STATUS_ST_PASS (n : Nat) : Fld := ⟨CRC_STATUS n, 7, 1⟩
abbrev CRC_STATUS_ST_DONE (n : Nat) : Fld := ⟨CRC_STATUS n, 6, 1⟩
abbrev CRC_STATUS_DESC_IRQ (n : Nat) : Fld := ⟨CRC_STATUS n, 5, 1⟩
abbrev CRC_STATUS_MISMATCH (n : Nat) : Fld := ⟨CRC_STATUS n, 4, 1⟩
abbrev CRC_STATUS_WRITE_WHILE_ACTIVE (n : Nat) : Fld := ⟨CRC_STATUS n, 3, 1⟩
abbrev CRC_STATUS_ERR (n : Nat) : Fld := ⟨CRC_STATUS n, 2, 1⟩
abbrev CRC_STATUS_DONE (n : Nat) : Fld := ⟨CRC_STATUS n, 1, 1⟩
abbrev CRC_STATUS_BUSY (n : Nat) : Fld := ⟨CRC_STATUS n, 0, 1⟩
/-- CRC VALUE_LO, R412. -/
abbrev CRC_VALUE_LO (n : Nat) : Nat := reg 25 n (0x34)
abbrev CRC_VALUE_LO_VALUE (n : Nat) : Fld := ⟨CRC_VALUE_LO n, 0, 32⟩
/-- CRC VALUE_HI, R412. -/
abbrev CRC_VALUE_HI (n : Nat) : Nat := reg 25 n (0x38)
abbrev CRC_VALUE_HI_VALUE (n : Nat) : Fld := ⟨CRC_VALUE_HI n, 0, 32⟩
/-- CRC CHUNKS, R414. -/
abbrev CRC_CHUNKS (n : Nat) : Nat := reg 25 n (0x3c)
abbrev CRC_CHUNKS_COUNT (n : Nat) : Fld := ⟨CRC_CHUNKS n, 0, 32⟩
/-- CRC MISMATCHES, R412. -/
abbrev CRC_MISMATCHES (n : Nat) : Nat := reg 25 n (0x40)
abbrev CRC_MISMATCHES_COUNT (n : Nat) : Fld := ⟨CRC_MISMATCHES n, 0, 32⟩
/-- CRC FIRST_DESC, R412. -/
abbrev CRC_FIRST_DESC (n : Nat) : Nat := reg 25 n (0x44)
abbrev CRC_FIRST_DESC_INDEX (n : Nat) : Fld := ⟨CRC_FIRST_DESC n, 0, 16⟩
/-- CRC FIRST_INDEX, R412. -/
abbrev CRC_FIRST_INDEX (n : Nat) : Nat := reg 25 n (0x48)
abbrev CRC_FIRST_INDEX_INDEX (n : Nat) : Fld := ⟨CRC_FIRST_INDEX n, 0, 32⟩

/-! ### LOG (spec/15_logbook_and_black_box.md) -/

/-- LOG HEAD, R426. -/
abbrev LOG_HEAD : Nat := reg 26 0 (0x0)
abbrev LOG_HEAD_SEQ : Fld := ⟨LOG_HEAD, 0, 32⟩
/-- LOG BASE, R431. -/
abbrev LOG_BASE : Nat := reg 26 0 (0x4)
abbrev LOG_BASE_SEQ : Fld := ⟨LOG_BASE, 0, 32⟩
/-- LOG RATE, R429. -/
abbrev LOG_RATE : Nat := reg 26 0 (0x8)
abbrev LOG_RATE_BURST : Fld := ⟨LOG_RATE, 16, 8⟩
abbrev LOG_RATE_PERIOD : Fld := ⟨LOG_RATE, 0, 10⟩
/-- LOG CLEAR, R431. -/
abbrev LOG_CLEAR : Nat := reg 26 0 (0xc)
abbrev LOG_CLEAR_CLEAR : Fld := ⟨LOG_CLEAR, 0, 1⟩
/-- LOG COUNTS, R427. -/
abbrev LOG_COUNTS : Nat := reg 26 0 (0x10)
abbrev LOG_COUNTS_SUPPRESSED : Fld := ⟨LOG_COUNTS, 16, 16⟩
abbrev LOG_COUNTS_QUEUE_DROPS : Fld := ⟨LOG_COUNTS, 0, 16⟩
/-- LOG RD_SEQ, R432. -/
abbrev LOG_RD_SEQ (w : Nat) : Nat := reg 26 0 (0x100 + 256 * w)
abbrev LOG_RD_SEQ_SEQ (w : Nat) : Fld := ⟨LOG_RD_SEQ w, 0, 32⟩
/-- LOG RD_W, R432. -/
abbrev LOG_RD_W (w j : Nat) : Nat := reg 26 0 (0x104 + 256 * w + 4 * j)
abbrev LOG_RD_W_WORD (w j : Nat) : Fld := ⟨LOG_RD_W w j, 0, 32⟩
/-- LOG WR_CODE, R428. -/
abbrev LOG_WR_CODE (w : Nat) : Nat := reg 26 0 (0x140 + 256 * w)
abbrev LOG_WR_CODE_CODE (w : Nat) : Fld := ⟨LOG_WR_CODE w, 16, 16⟩
abbrev LOG_WR_CODE_UNIT (w : Nat) : Fld := ⟨LOG_WR_CODE w, 8, 8⟩
abbrev LOG_WR_CODE_INSTANCE (w : Nat) : Fld := ⟨LOG_WR_CODE w, 0, 8⟩
/-- LOG WR_P, R428. -/
abbrev LOG_WR_P (w j : Nat) : Nat := reg 26 0 (0x144 + 256 * w + 4 * j)
abbrev LOG_WR_P_P (w j : Nat) : Fld := ⟨LOG_WR_P w j, 0, 32⟩
/-- LOG WR_GO, R428. -/
abbrev LOG_WR_GO (w : Nat) : Nat := reg 26 0 (0x154 + 256 * w)
abbrev LOG_WR_GO_FOLD (w : Nat) : Fld := ⟨LOG_WR_GO w, 1, 1⟩
abbrev LOG_WR_GO_GO (w : Nat) : Fld := ⟨LOG_WR_GO w, 0, 1⟩
/-- LOG WR_STATUS, R428. -/
abbrev LOG_WR_STATUS (w : Nat) : Nat := reg 26 0 (0x158 + 256 * w)
abbrev LOG_WR_STATUS_EVENTS (w : Nat) : Fld := ⟨LOG_WR_STATUS w, 24, 8⟩
abbrev LOG_WR_STATUS_REFUSED (w : Nat) : Fld := ⟨LOG_WR_STATUS w, 1, 1⟩
abbrev LOG_WR_STATUS_FOLDED (w : Nat) : Fld := ⟨LOG_WR_STATUS w, 0, 1⟩

/-! ### BBOX (spec/15_logbook_and_black_box.md) -/

/-- BBOX CFG, R437. -/
abbrev BBOX_CFG : Nat := reg 27 0 (0x0)
abbrev BBOX_CFG_LOCK : Fld := ⟨BBOX_CFG, 31, 1⟩
abbrev BBOX_CFG_SUSPEND_CMD : Fld := ⟨BBOX_CFG, 16, 8⟩
abbrev BBOX_CFG_RESUME_CMD : Fld := ⟨BBOX_CFG, 8, 8⟩
abbrev BBOX_CFG_FLUSH : Fld := ⟨BBOX_CFG, 0, 8⟩
/-- BBOX STATUS, R438. -/
abbrev BBOX_STATUS : Nat := reg 27 0 (0x4)
abbrev BBOX_STATUS_EVENTS : Fld := ⟨BBOX_STATUS, 24, 8⟩
abbrev BBOX_STATUS_PENDING : Fld := ⟨BBOX_STATUS, 16, 5⟩
abbrev BBOX_STATUS_LEDGER_DUE : Fld := ⟨BBOX_STATUS, 8, 1⟩
abbrev BBOX_STATUS_LATE : Fld := ⟨BBOX_STATUS, 7, 1⟩
abbrev BBOX_STATUS_FULL : Fld := ⟨BBOX_STATUS, 6, 1⟩
abbrev BBOX_STATUS_BAD_KIND : Fld := ⟨BBOX_STATUS, 5, 1⟩
abbrev BBOX_STATUS_ERASING : Fld := ⟨BBOX_STATUS, 4, 1⟩
abbrev BBOX_STATUS_SUSPENDED : Fld := ⟨BBOX_STATUS, 3, 1⟩
abbrev BBOX_STATUS_COMMITTING : Fld := ⟨BBOX_STATUS, 2, 1⟩
abbrev BBOX_STATUS_READY : Fld := ⟨BBOX_STATUS, 1, 1⟩
/-- BBOX HEAD, R437. -/
abbrev BBOX_HEAD : Nat := reg 27 0 (0x8)
abbrev BBOX_HEAD_SLOT : Fld := ⟨BBOX_HEAD, 16, 10⟩
abbrev BBOX_HEAD_PAGE : Fld := ⟨BBOX_HEAD, 0, 7⟩
/-- BBOX PAGE_SEQ, R437. -/
abbrev BBOX_PAGE_SEQ : Nat := reg 27 0 (0xc)
abbrev BBOX_PAGE_SEQ_SEQ : Fld := ⟨BBOX_PAGE_SEQ, 0, 32⟩
/-- BBOX APPEND_KIND, R444. -/
abbrev BBOX_APPEND_KIND : Nat := reg 27 0 (0x10)
abbrev BBOX_APPEND_KIND_KIND : Fld := ⟨BBOX_APPEND_KIND, 0, 16⟩
/-- BBOX APPEND_D, R444. -/
abbrev BBOX_APPEND_D (d : Nat) : Nat := reg 27 0 (0x14 + 4 * d)
abbrev BBOX_APPEND_D_PAYLOAD (d : Nat) : Fld := ⟨BBOX_APPEND_D d, 0, 32⟩
/-- BBOX CMD, R444. -/
abbrev BBOX_CMD : Nat := reg 27 0 (0x34)
abbrev BBOX_CMD_FLUSH_NOW : Fld := ⟨BBOX_CMD, 1, 1⟩
abbrev BBOX_CMD_APPEND : Fld := ⟨BBOX_CMD, 0, 1⟩
/-- BBOX COUNTS, R438. -/
abbrev BBOX_COUNTS : Nat := reg 27 0 (0x38)
abbrev BBOX_COUNTS_RECORDS : Fld := ⟨BBOX_COUNTS, 16, 16⟩
abbrev BBOX_COUNTS_PAGES : Fld := ⟨BBOX_COUNTS, 8, 8⟩
abbrev BBOX_COUNTS_C3_OVER : Fld := ⟨BBOX_COUNTS, 0, 8⟩

/-! ### RTC (spec/15_logbook_and_black_box.md) -/

/-- RTC STATUS, R422. -/
abbrev RTC_STATUS : Nat := reg 28 0 (0x0)
abbrev RTC_STATUS_EVENTS : Fld := ⟨RTC_STATUS, 24, 8⟩
abbrev RTC_STATUS_OSC_STOP : Fld := ⟨RTC_STATUS, 2, 1⟩
abbrev RTC_STATUS_SET_PENDING : Fld := ⟨RTC_STATUS, 1, 1⟩
abbrev RTC_STATUS_VALID : Fld := ⟨RTC_STATUS, 0, 1⟩
/-- RTC TRIM, R421. -/
abbrev RTC_TRIM : Nat := reg 28 0 (0x4)
abbrev RTC_TRIM_TRIM : Fld := ⟨RTC_TRIM, 0, 8⟩
/-- RTC SNAP, R424. -/
abbrev RTC_SNAP : Nat := reg 28 0 (0x8)
abbrev RTC_SNAP_SNAP : Fld := ⟨RTC_SNAP, 0, 1⟩
/-- RTC SNAP_SEC_LO, R424. -/
abbrev RTC_SNAP_SEC_LO : Nat := reg 28 0 (0xc)
abbrev RTC_SNAP_SEC_LO_SEC : Fld := ⟨RTC_SNAP_SEC_LO, 0, 32⟩
/-- RTC SNAP_HI, R424. -/
abbrev RTC_SNAP_HI : Nat := reg 28 0 (0x10)
abbrev RTC_SNAP_HI_SEC_HI : Fld := ⟨RTC_SNAP_HI, 24, 8⟩
abbrev RTC_SNAP_HI_FRAC : Fld := ⟨RTC_SNAP_HI, 8, 16⟩
/-- RTC SET_SEC_LO, R423. -/
abbrev RTC_SET_SEC_LO : Nat := reg 28 0 (0x14)
abbrev RTC_SET_SEC_LO_SEC : Fld := ⟨RTC_SET_SEC_LO, 0, 32⟩
/-- RTC SET_HI, R423. -/
abbrev RTC_SET_HI : Nat := reg 28 0 (0x18)
abbrev RTC_SET_HI_SEC_HI : Fld := ⟨RTC_SET_HI, 24, 8⟩
abbrev RTC_SET_HI_FRAC : Fld := ⟨RTC_SET_HI, 8, 16⟩
/-- RTC SET, R423. -/
abbrev RTC_SET : Nat := reg 28 0 (0x1c)
abbrev RTC_SET_SET : Fld := ⟨RTC_SET, 0, 1⟩

/-! ### WEAR (spec/16_reserves_and_wear.md) -/

/-- WEAR CFG, R447. -/
abbrev WEAR_CFG : Nat := reg 29 0 (0x0)
abbrev WEAR_CFG_LOCK : Fld := ⟨WEAR_CFG, 31, 1⟩
abbrev WEAR_CFG_REMAP : Fld := ⟨WEAR_CFG, 16, 1⟩
abbrev WEAR_CFG_PERSIST : Fld := ⟨WEAR_CFG, 8, 8⟩
/-- WEAR THRESH, R447. -/
abbrev WEAR_THRESH : Nat := reg 29 0 (0x4)
abbrev WEAR_THRESH_WARN_THRESH : Fld := ⟨WEAR_THRESH, 16, 16⟩
abbrev WEAR_THRESH_WORN_THRESH : Fld := ⟨WEAR_THRESH, 0, 16⟩
/-- WEAR WORN, R447. -/
abbrev WEAR_WORN : Nat := reg 29 0 (0x8)
abbrev WEAR_WORN_MARK : Fld := ⟨WEAR_WORN, 0, 32⟩
/-- WEAR WARN, R447. -/
abbrev WEAR_WARN : Nat := reg 29 0 (0xc)
abbrev WEAR_WARN_LIVE : Fld := ⟨WEAR_WARN, 0, 32⟩
/-- WEAR POWER_ON, R454. -/
abbrev WEAR_POWER_ON : Nat := reg 29 0 (0x10)
abbrev WEAR_POWER_ON_SEC : Fld := ⟨WEAR_POWER_ON, 0, 32⟩
/-- WEAR TEMP, R454. -/
abbrev WEAR_TEMP : Nat := reg 29 0 (0x14)
abbrev WEAR_TEMP_MAX : Fld := ⟨WEAR_TEMP, 16, 16⟩
abbrev WEAR_TEMP_LIVE : Fld := ⟨WEAR_TEMP, 0, 16⟩
/-- WEAR OTP_CMD, R453. -/
abbrev WEAR_OTP_CMD : Nat := reg 29 0 (0x20)
abbrev WEAR_OTP_CMD_GO : Fld := ⟨WEAR_OTP_CMD, 31, 1⟩
abbrev WEAR_OTP_CMD_MACRO : Fld := ⟨WEAR_OTP_CMD, 0, 8⟩
/-- WEAR OTP_STATUS, R453. -/
abbrev WEAR_OTP_STATUS : Nat := reg 29 0 (0x24)
abbrev WEAR_OTP_STATUS_EVENTS : Fld := ⟨WEAR_OTP_STATUS, 24, 8⟩
abbrev WEAR_OTP_STATUS_USED : Fld := ⟨WEAR_OTP_STATUS, 8, 7⟩
abbrev WEAR_OTP_STATUS_REFUSED : Fld := ⟨WEAR_OTP_STATUS, 2, 1⟩
abbrev WEAR_OTP_STATUS_DONE : Fld := ⟨WEAR_OTP_STATUS, 1, 1⟩
abbrev WEAR_OTP_STATUS_BUSY : Fld := ⟨WEAR_OTP_STATUS, 0, 1⟩
/-- WEAR MON, R447. -/
abbrev WEAR_MON (k : Nat) : Nat := reg 29 0 (0x40 + 4 * k)
abbrev WEAR_MON_LOWEST (k : Nat) : Fld := ⟨WEAR_MON k, 16, 16⟩
abbrev WEAR_MON_MARGIN (k : Nat) : Fld := ⟨WEAR_MON k, 0, 16⟩
/-- WEAR THERM, R454. -/
abbrev WEAR_THERM (b : Nat) : Nat := reg 29 0 (0xc0 + 4 * b)
abbrev WEAR_THERM_SEC (b : Nat) : Fld := ⟨WEAR_THERM b, 0, 32⟩
/-- WEAR MACRO, R452. -/
abbrev WEAR_MACRO (m : Nat) : Nat := reg 29 0 (0x1000 + 4 * m)
abbrev WEAR_MACRO_UNIT (m : Nat) : Fld := ⟨WEAR_MACRO m, 24, 8⟩
abbrev WEAR_MACRO_INSTANCE (m : Nat) : Fld := ⟨WEAR_MACRO m, 16, 8⟩
abbrev WEAR_MACRO_HARD_ROWS (m : Nat) : Fld := ⟨WEAR_MACRO m, 13, 3⟩
abbrev WEAR_MACRO_SOFT_ROWS (m : Nat) : Fld := ⟨WEAR_MACRO m, 10, 3⟩
abbrev WEAR_MACRO_HARD_COLS (m : Nat) : Fld := ⟨WEAR_MACRO m, 8, 2⟩
abbrev WEAR_MACRO_SOFT_COLS (m : Nat) : Fld := ⟨WEAR_MACRO m, 6, 2⟩
abbrev WEAR_MACRO_UNREPAIRABLE (m : Nat) : Fld := ⟨WEAR_MACRO m, 5, 1⟩

/-! ### LAYER (spec/04_layers_and_scaling.md) -/

/-- LAYER active value of CTRL, R111. -/
abbrev LAYER_ACT_CTRL (n : Nat) : Nat := reg 6 n (0x200)
abbrev LAYER_ACT_CTRL_INPUT (n : Nat) : Fld := ⟨LAYER_ACT_CTRL n, 16, 1⟩
abbrev LAYER_ACT_CTRL_DECIM_V (n : Nat) : Fld := ⟨LAYER_ACT_CTRL n, 14, 2⟩
abbrev LAYER_ACT_CTRL_DECIM_H (n : Nat) : Fld := ⟨LAYER_ACT_CTRL n, 12, 2⟩
abbrev LAYER_ACT_CTRL_SITING_V (n : Nat) : Fld := ⟨LAYER_ACT_CTRL n, 10, 1⟩
abbrev LAYER_ACT_CTRL_SITING_H (n : Nat) : Fld := ⟨LAYER_ACT_CTRL n, 9, 1⟩
abbrev LAYER_ACT_CTRL_FORMAT (n : Nat) : Fld := ⟨LAYER_ACT_CTRL n, 4, 5⟩
abbrev LAYER_ACT_CTRL_PAL_LOAD (n : Nat) : Fld := ⟨LAYER_ACT_CTRL n, 2, 1⟩
abbrev LAYER_ACT_CTRL_SOURCE (n : Nat) : Fld := ⟨LAYER_ACT_CTRL n, 1, 1⟩
abbrev LAYER_ACT_CTRL_EN (n : Nat) : Fld := ⟨LAYER_ACT_CTRL n, 0, 1⟩
/-- LAYER active value of SRC_ADDR, R111. -/
abbrev LAYER_ACT_SRC_ADDR (n p : Nat) : Nat := reg 6 n (0x204 + 4 * p)
abbrev LAYER_ACT_SRC_ADDR_OFFSET (n p : Nat) : Fld := ⟨LAYER_ACT_SRC_ADDR n p, 0, 26⟩
/-- LAYER active value of SRC_STRIDE, R111. -/
abbrev LAYER_ACT_SRC_STRIDE (n : Nat) : Nat := reg 6 n (0x210)
abbrev LAYER_ACT_SRC_STRIDE_STRIDE1 (n : Nat) : Fld := ⟨LAYER_ACT_SRC_STRIDE n, 16, 16⟩
abbrev LAYER_ACT_SRC_STRIDE_STRIDE0 (n : Nat) : Fld := ⟨LAYER_ACT_SRC_STRIDE n, 0, 16⟩
/-- LAYER active value of SRC_POS, R111. -/
abbrev LAYER_ACT_SRC_POS (n : Nat) : Nat := reg 6 n (0x214)
abbrev LAYER_ACT_SRC_POS_Y (n : Nat) : Fld := ⟨LAYER_ACT_SRC_POS n, 16, 16⟩
abbrev LAYER_ACT_SRC_POS_X (n : Nat) : Fld := ⟨LAYER_ACT_SRC_POS n, 0, 16⟩
/-- LAYER active value of SRC_SIZE, R111. -/
abbrev LAYER_ACT_SRC_SIZE (n : Nat) : Nat := reg 6 n (0x218)
abbrev LAYER_ACT_SRC_SIZE_H (n : Nat) : Fld := ⟨LAYER_ACT_SRC_SIZE n, 16, 16⟩
abbrev LAYER_ACT_SRC_SIZE_W (n : Nat) : Fld := ⟨LAYER_ACT_SRC_SIZE n, 0, 16⟩
/-- LAYER active value of DST_POS, R111. -/
abbrev LAYER_ACT_DST_POS (n : Nat) : Nat := reg 6 n (0x21c)
abbrev LAYER_ACT_DST_POS_Y (n : Nat) : Fld := ⟨LAYER_ACT_DST_POS n, 16, 16⟩
abbrev LAYER_ACT_DST_POS_X (n : Nat) : Fld := ⟨LAYER_ACT_DST_POS n, 0, 16⟩
/-- LAYER active value of DST_SIZE, R111. -/
abbrev LAYER_ACT_DST_SIZE (n : Nat) : Nat := reg 6 n (0x220)
abbrev LAYER_ACT_DST_SIZE_H (n : Nat) : Fld := ⟨LAYER_ACT_DST_SIZE n, 16, 16⟩
abbrev LAYER_ACT_DST_SIZE_W (n : Nat) : Fld := ⟨LAYER_ACT_DST_SIZE n, 0, 16⟩
/-- LAYER active value of SCALE, R111. -/
abbrev LAYER_ACT_SCALE (n : Nat) : Nat := reg 6 n (0x224)
abbrev LAYER_ACT_SCALE_SCALER (n : Nat) : Fld := ⟨LAYER_ACT_SCALE n, 4, 5⟩
abbrev LAYER_ACT_SCALE_COEF_LOAD (n : Nat) : Fld := ⟨LAYER_ACT_SCALE n, 2, 1⟩
abbrev LAYER_ACT_SCALE_GANG (n : Nat) : Fld := ⟨LAYER_ACT_SCALE n, 1, 1⟩
abbrev LAYER_ACT_SCALE_SCL_EN (n : Nat) : Fld := ⟨LAYER_ACT_SCALE n, 0, 1⟩
/-- LAYER active value of COEF_ADDR, R111. -/
abbrev LAYER_ACT_COEF_ADDR (n : Nat) : Nat := reg 6 n (0x228)
abbrev LAYER_ACT_COEF_ADDR_OFFSET (n : Nat) : Fld := ⟨LAYER_ACT_COEF_ADDR n, 0, 26⟩
/-- LAYER active value of PAL_ADDR, R111. -/
abbrev LAYER_ACT_PAL_ADDR (n : Nat) : Nat := reg 6 n (0x22c)
abbrev LAYER_ACT_PAL_ADDR_OFFSET (n : Nat) : Fld := ⟨LAYER_ACT_PAL_ADDR n, 0, 26⟩
/-- LAYER active value of BLEND, R111. -/
abbrev LAYER_ACT_BLEND (n : Nat) : Nat := reg 6 n (0x230)
abbrev LAYER_ACT_BLEND_ALPHA_MODE (n : Nat) : Fld := ⟨LAYER_ACT_BLEND n, 16, 2⟩
abbrev LAYER_ACT_BLEND_PLANE_ALPHA (n : Nat) : Fld := ⟨LAYER_ACT_BLEND n, 0, 10⟩
/-- LAYER active value of CSC_CTRL, R111. -/
abbrev LAYER_ACT_CSC_CTRL (n : Nat) : Nat := reg 6 n (0x234)
abbrev LAYER_ACT_CSC_CTRL_RANGE_EXP (n : Nat) : Fld := ⟨LAYER_ACT_CSC_CTRL n, 1, 1⟩
abbrev LAYER_ACT_CSC_CTRL_MTX_EN (n : Nat) : Fld := ⟨LAYER_ACT_CSC_CTRL n, 0, 1⟩
/-- LAYER active value of MTX_A, R111. -/
abbrev LAYER_ACT_MTX_A (n i : Nat) : Nat := reg 6 n (0x238 + 8 * i)
abbrev LAYER_ACT_MTX_A_C1 (n i : Nat) : Fld := ⟨LAYER_ACT_MTX_A n i, 16, 16⟩
abbrev LAYER_ACT_MTX_A_C0 (n i : Nat) : Fld := ⟨LAYER_ACT_MTX_A n i, 0, 16⟩
/-- LAYER active value of MTX_B, R111. -/
abbrev LAYER_ACT_MTX_B (n i : Nat) : Nat := reg 6 n (0x23c + 8 * i)
abbrev LAYER_ACT_MTX_B_O (n i : Nat) : Fld := ⟨LAYER_ACT_MTX_B n i, 16, 13⟩
abbrev LAYER_ACT_MTX_B_C2 (n i : Nat) : Fld := ⟨LAYER_ACT_MTX_B n i, 0, 16⟩

/-! ### SCREEN (spec/05_blending_and_colour.md) -/

/-- SCREEN active value of OUT_CTRL, R163. -/
abbrev SCREEN_ACT_OUT_CTRL (n : Nat) : Nat := reg 2 n (0x180)
abbrev SCREEN_ACT_OUT_CTRL_DEPTH (n : Nat) : Fld := ⟨SCREEN_ACT_OUT_CTRL n, 8, 2⟩
abbrev SCREEN_ACT_OUT_CTRL_DITHER (n : Nat) : Fld := ⟨SCREEN_ACT_OUT_CTRL n, 4, 2⟩
abbrev SCREEN_ACT_OUT_CTRL_GAMMA_EN (n : Nat) : Fld := ⟨SCREEN_ACT_OUT_CTRL n, 1, 1⟩
abbrev SCREEN_ACT_OUT_CTRL_OMTX_EN (n : Nat) : Fld := ⟨SCREEN_ACT_OUT_CTRL n, 0, 1⟩
/-- SCREEN active value of BG, R163. -/
abbrev SCREEN_ACT_BG (n : Nat) : Nat := reg 2 n (0x184)
abbrev SCREEN_ACT_BG_R (n : Nat) : Fld := ⟨SCREEN_ACT_BG n, 20, 10⟩
abbrev SCREEN_ACT_BG_G (n : Nat) : Fld := ⟨SCREEN_ACT_BG n, 10, 10⟩
abbrev SCREEN_ACT_BG_B (n : Nat) : Fld := ⟨SCREEN_ACT_BG n, 0, 10⟩
/-- SCREEN active value of OMTX_A, R163. -/
abbrev SCREEN_ACT_OMTX_A (n i : Nat) : Nat := reg 2 n (0x188 + 8 * i)
abbrev SCREEN_ACT_OMTX_A_C1 (n i : Nat) : Fld := ⟨SCREEN_ACT_OMTX_A n i, 16, 16⟩
abbrev SCREEN_ACT_OMTX_A_C0 (n i : Nat) : Fld := ⟨SCREEN_ACT_OMTX_A n i, 0, 16⟩
/-- SCREEN active value of OMTX_B, R163. -/
abbrev SCREEN_ACT_OMTX_B (n i : Nat) : Nat := reg 2 n (0x18c + 8 * i)
abbrev SCREEN_ACT_OMTX_B_O (n i : Nat) : Fld := ⟨SCREEN_ACT_OMTX_B n i, 16, 13⟩
abbrev SCREEN_ACT_OMTX_B_C2 (n i : Nat) : Fld := ⟨SCREEN_ACT_OMTX_B n i, 0, 16⟩

/-! ### PROT (spec/06_protected_content_and_sextant.md) -/

/-- PROT active value of CTRL, R172. -/
abbrev PROT_ACT_CTRL (n : Nat) : Nat := reg 7 n (0x200)
abbrev PROT_ACT_CTRL_RECT_EN (n : Nat) : Fld := ⟨PROT_ACT_CTRL n, 4, 4⟩
abbrev PROT_ACT_CTRL_PAL_LOAD (n : Nat) : Fld := ⟨PROT_ACT_CTRL n, 2, 1⟩
abbrev PROT_ACT_CTRL_FORMAT (n : Nat) : Fld := ⟨PROT_ACT_CTRL n, 1, 1⟩
abbrev PROT_ACT_CTRL_EN (n : Nat) : Fld := ⟨PROT_ACT_CTRL n, 0, 1⟩
/-- PROT active value of SEQ, R172. -/
abbrev PROT_ACT_SEQ (n : Nat) : Nat := reg 7 n (0x204)
abbrev PROT_ACT_SEQ_SEQ (n : Nat) : Fld := ⟨PROT_ACT_SEQ n, 0, 32⟩
/-- PROT active value of PAL_ADDR, R172. -/
abbrev PROT_ACT_PAL_ADDR (n : Nat) : Nat := reg 7 n (0x208)
abbrev PROT_ACT_PAL_ADDR_ADDR (n : Nat) : Fld := ⟨PROT_ACT_PAL_ADDR n, 0, 32⟩
/-- PROT active value of PAL_CRC, R172. -/
abbrev PROT_ACT_PAL_CRC (n : Nat) : Nat := reg 7 n (0x20c)
abbrev PROT_ACT_PAL_CRC_CRC (n : Nat) : Fld := ⟨PROT_ACT_PAL_CRC n, 0, 32⟩
/-- PROT active value of RECT_POS, R172. -/
abbrev PROT_ACT_RECT_POS (n k : Nat) : Nat := reg 7 n (0x210 + 32 * k)
abbrev PROT_ACT_RECT_POS_Y (n k : Nat) : Fld := ⟨PROT_ACT_RECT_POS n k, 16, 16⟩
abbrev PROT_ACT_RECT_POS_X (n k : Nat) : Fld := ⟨PROT_ACT_RECT_POS n k, 0, 16⟩
/-- PROT active value of RECT_SIZE, R172. -/
abbrev PROT_ACT_RECT_SIZE (n k : Nat) : Nat := reg 7 n (0x214 + 32 * k)
abbrev PROT_ACT_RECT_SIZE_H (n k : Nat) : Fld := ⟨PROT_ACT_RECT_SIZE n k, 16, 16⟩
abbrev PROT_ACT_RECT_SIZE_W (n k : Nat) : Fld := ⟨PROT_ACT_RECT_SIZE n k, 0, 16⟩
/-- PROT active value of RECT_SRC, R172. -/
abbrev PROT_ACT_RECT_SRC (n k : Nat) : Nat := reg 7 n (0x218 + 32 * k)
abbrev PROT_ACT_RECT_SRC_ADDR (n k : Nat) : Fld := ⟨PROT_ACT_RECT_SRC n k, 0, 32⟩
/-- PROT active value of RECT_STRIDE, R172. -/
abbrev PROT_ACT_RECT_STRIDE (n k : Nat) : Nat := reg 7 n (0x21c + 32 * k)
abbrev PROT_ACT_RECT_STRIDE_STRIDE (n k : Nat) : Fld := ⟨PROT_ACT_RECT_STRIDE n k, 0, 16⟩
/-- PROT active value of RECT_CHK, R172. -/
abbrev PROT_ACT_RECT_CHK (n k : Nat) : Nat := reg 7 n (0x220 + 32 * k)
abbrev PROT_ACT_RECT_CHK_ADDR (n k : Nat) : Fld := ⟨PROT_ACT_RECT_CHK n k, 0, 32⟩

/-! ### SESS (spec/15_logbook_and_black_box.md) -/

/-- SESS LOGV_HEAD, R432. -/
abbrev SESS_LOGV_HEAD (n : Nat) : Nat := reg 14 n (0xe00)
abbrev SESS_LOGV_HEAD_SEQ (n : Nat) : Fld := ⟨SESS_LOGV_HEAD n, 0, 32⟩
/-- SESS LOGV_BASE, R432. -/
abbrev SESS_LOGV_BASE (n : Nat) : Nat := reg 14 n (0xe04)
abbrev SESS_LOGV_BASE_SEQ (n : Nat) : Fld := ⟨SESS_LOGV_BASE n, 0, 32⟩
/-- SESS LOGV_CLEAR, R431. -/
abbrev SESS_LOGV_CLEAR (n : Nat) : Nat := reg 14 n (0xe0c)
abbrev SESS_LOGV_CLEAR_CLEAR (n : Nat) : Fld := ⟨SESS_LOGV_CLEAR n, 0, 1⟩
/-- SESS LOGV_RD_W, R432. -/
abbrev SESS_LOGV_RD_W (n k : Nat) : Nat := reg 14 n (0xe20 + 4 * k)
abbrev SESS_LOGV_RD_W_WORD (n k : Nat) : Fld := ⟨SESS_LOGV_RD_W n k, 0, 32⟩

end Sys2Proof.Machine.Reg
end

