-- ==== Sys2Proof/Machine/Store.lean ====
section
/-! DEFINITION. Sparse data by number, in one canonical form: a list of entries in strictly rising order of their
key, with no entry equal to what an unlisted key reads as. Registers, memories and the records of the instances of a
unit are all held so; equal contents are then equal lists. -/

namespace Sys2Proof.Machine

/-- What key `k` holds: its entry, or the default where it has none. -/
def sget {β : Type} (d : Nat → β) : List (Nat × β) → Nat → β
  | [], k => d k
  | (j, v) :: m, k => if k = j then v else sget d m k

/-- An entry put in at its place in the order. -/
def sins {β : Type} (k : Nat) (v : β) : List (Nat × β) → List (Nat × β)
  | [] => [(k, v)]
  | (j, w) :: m => if k < j then (k, v) :: (j, w) :: m else (j, w) :: sins k v m

/-- The entries of every key but one. -/
def sdel {β : Type} (k : Nat) : List (Nat × β) → List (Nat × β)
  | [] => []
  | (j, w) :: m => if j = k then sdel k m else (j, w) :: sdel k m

/-- Write: the old entry goes, and a new one is listed unless it equals the default. -/
def sput {β : Type} [DecidableEq β] (d : Nat → β) (m : List (Nat × β)) (k : Nat) (v : β) : List (Nat × β) :=
  if v = d k then sdel k m else sins k v (sdel k m)

/-- The canonical form: keys strictly rising, no entry equal to its default. -/
def swf {β : Type} [DecidableEq β] (d : Nat → β) : List (Nat × β) → Bool
  | [] => true
  | (j, v) :: m => v ≠ d j && m.all (fun p => j < p.1) && swf d m

end Sys2Proof.Machine
end

