-- ==== Sys2Proof/Machine/RegFile.lean ====
section
/-! DEFINITION. The register file: what every register holds after reset, and the reading and writing of registers
and of their bit fields. -/

namespace Sys2Proof.Machine

/-- The row of the register map at a register's place, with its indices. -/
def rowAt (a : Nat) : Option (RegRow × List Nat) :=
  let u := a / 0x1000000
  if a / 0x10000 % 256 < unitInstances u then findRow (unitRows u) (a % 0x10000) else none

/-- The value a register holds after device reset; a place with no register reads 0 (R36). -/
def regReset (a : Nat) : Word :=
  match rowAt a with
  | none => 0
  | some (r, ix) => r.reset ||| r.special.eval (a / 0x1000000) (a % 0x10000) (a / 0x10000 % 256) ix

end Sys2Proof.Machine
end

