-- ==== Sys2Proof/Machine/State.lean ====
section
/-! DEFINITION. The state of the device: every register, every memory, and the state the spec's rules speak of that no
register shows. Plain data throughout. -/

namespace Sys2Proof.Machine

/-- Why a step of the device can stop: the device itself has no such stop. -/
inductive Fault where
  /-- Raised by no command: no rule of the spec stops the device, and every fault the spec names (R387) is an event
  whose reaction is part of the next state. Safe. -/
  | neverRaised
deriving DecidableEq, Repr

/-- Why the model refuses a command. -/
inductive Refusal where
  /-- Raised by the dispatcher for a command with no meaning in the model yet. Safe. -/
  | notModelled (mnemonic : String)
deriving DecidableEq, Repr

/-! ### The logbook (spec/15_logbook_and_black_box.md) -/

/-- An entry of the logbook's queue: a record as its event left it, before it is admitted (R425, R427). -/
structure LogEntry where
  /-- event code (R428) -/
  code : Nat := 0
  /-- source unit code -/
  unit : Nat := 0x1A
  /-- source instance -/
  inst : Nat := 0
  /-- seconds at the event -/
  sec : Nat := 0
  /-- fraction of a second at the event -/
  frac : Nat := 0
  /-- RTC VALID at the event -/
  timeValid : Bool := false
  /-- 0 hardware, 1 secure world, 2 normal world -/
  origin : Nat := 0
  /-- parameter 0 -/
  p0 : Word := 0
  /-- parameter 1 -/
  p1 : Word := 0
  /-- parameter 2 -/
  p2 : Word := 0
  /-- parameter 3 -/
  p3 : Word := 0
  /-- a firmware write with FOLD = 1 (R430) -/
  fold : Bool := false
deriving DecidableEq, Repr

/-- The logbook's state beside its registers. -/
structure LogState where
  /-- entries waiting for the writer, at most 64 (R427) -/
  queue : List LogEntry := []
  /-- words of the ring: slot × 8 + word (R426) -/
  ring : List (Nat × Word) := []
  /-- tokens each bucket holds, by bucket number, where that is not `full` (R429) -/
  tokens : List (Nat × Nat) := []
  /-- tokens a bucket that is not listed holds: all are full at reset, where BURST is 8 -/
  full : Nat := 8
  /-- records each bucket discarded since its previous record (R429) -/
  suppressed : List (Nat × Nat) := []
deriving DecidableEq, Repr

/-- The real-time clock, in the always-on domain (R420). -/
structure RtcState where
  /-- seconds, 40 bits -/
  sec : Nat := 0
  /-- fraction in 1/65,536 s -/
  frac : Nat := 0
  /-- a SET that waits for its crystal cycle: its seconds and fraction (R423) -/
  setTo : Option (Nat × Nat) := none
  /-- crystal cycles whose advance TRIM still omits (R421) -/
  skips : Nat := 0
deriving DecidableEq, Repr

/-- The interrupt controller's state beside its registers (R348). -/
structure IcState where
  /-- sources in service, each with the context that claimed it -/
  inService : List (Nat × Nat) := []
  /-- sources raised again while in service -/
  again : List Nat := []
  /-- secure sources that have pre-empted a core and wait for its claim, each with the core (R349) -/
  sent : List (Nat × Nat) := []
deriving DecidableEq, Repr

/-! ### The drumbeat (spec/01_planes_and_drumbeat.md) -/

/-- The drumbeat's state beside its registers. -/
structure DrumState where
  /-- the divider's setting in use: integer part of the period in 25 MHz periods (R20) -/
  int : Nat := 104166
  /-- numerator in use -/
  num : Nat := 2
  /-- denominator in use -/
  den : Nat := 3
  /-- beats since the grid of ideal instants started; `none` before the first beat (R17, R25) -/
  gridBeat : Option Nat := none
  /-- length of the interval that ended at the latest beat, in 25 MHz periods; 0 before one has (R17) -/
  interval : Nat := 0
  /-- consecutive beats taken under R23 (R24) -/
  missed : Nat := 0
  /-- a qualifying DRUM_IN edge has come and its beat falls 160 ns after it (R22) -/
  edgeDue : Bool := false
  /-- nanoseconds from the beat before it to that edge -/
  edgeNs : Nat := 0
  /-- pulses driven on DRUM_OUT (R21) -/
  outPulses : Nat := 0
deriving DecidableEq, Repr

/-! ### Memory (spec/07_memory_sides.md) -/

/-- A request in a memory channel (R231, R233, R235). -/
structure MemReq where
  /-- the number the fabric gave the request (the model's own) -/
  id : Nat := 0
  /-- a write -/
  write : Bool := false
  /-- device address of its first byte -/
  addr : Nat := 0
  /-- length in bytes -/
  len : Nat := 0
  /-- it came through the mirrored view -/
  mirrored : Bool := false
  /-- requester port (R229) -/
  port : Nat := 0
  /-- who issued it -/
  master : Master
  /-- bank under R210 -/
  bank : Nat := 0
  /-- row under R210 -/
  row : Nat := 0
  /-- nanoseconds waited since acceptance -/
  age : Nat := 0
  /-- urgency, 0 to 3 (R230) -/
  urgency : Nat := 0
  /-- its target was breached (R230) -/
  breached : Bool := false
  /-- its breach is counted in its port's BREACHES (R225, R230) -/
  counted : Bool := false
  /-- part of a line, held by the guest port for the posted writes that fill it (R212) -/
  merging : Bool := false
  /-- lowest rank among what the channel issued ahead of it while it waited (R39); 11 for nothing -/
  ahead : Nat := 11
  /-- the data a read returns, as its acceptance found it (R218) -/
  data : List Byte := []
  /-- number of the transaction its completion answers (the model's own) -/
  tag : Nat := 0
deriving DecidableEq, Repr

/-- One entry of a bank's row-disturbance table (R226). -/
structure RhEntry where
  /-- row -/
  row : Nat
  /-- count -/
  count : Nat
  /-- latest activating port -/
  port : Nat
deriving DecidableEq, Repr

/-- A throttle in force: a port held on a bank, with the time since its previous activate there (R227). -/
structure Throttle where
  /-- bank -/
  bank : Nat
  /-- port -/
  port : Nat
  /-- nanoseconds since the port's previous activate of the bank -/
  since : Nat
deriving DecidableEq, Repr

/-- One memory channel. -/
structure Chan where
  /-- reads accepted and not yet issued, oldest first -/
  readQ : List MemReq := []
  /-- writes accepted and not yet issued, oldest first -/
  writeQ : List MemReq := []
  /-- reads issued whose data has not returned -/
  inFlight : List MemReq := []
  /-- banks served in arrival order until the writes numbered below a bound are issued (R233) -/
  ordered : List (Nat × Nat) := []
  /-- the open row of each bank -/
  openRow : List (Nat × Nat) := []
  /-- per-bank refreshes owed and not issued (R222) -/
  debt : Nat := 0
  /-- refreshing at the 2× rate (R223) -/
  twoX : Bool := false
  /-- consecutive readings of at most 85 °C while at 2× (R223) -/
  cool : Nat := 0
  /-- in debt recovery (R224) -/
  recovery : Bool := false
  /-- bank refreshed last (R224) -/
  lastRefresh : Nat := 0
  /-- a mode register 4 read is out (R223) -/
  mr4Pending : Bool := false
  /-- the last reading was above 105 °C (R241) -/
  hot : Bool := false
  /-- row-disturbance tables, by bank (R226) -/
  rh : List (Nat × List RhEntry) := []
  /-- neighbour rows that wait for their activate and precharge: bank, row (R227) -/
  neighbours : List (Nat × Nat) := []
  /-- throttles in force (R227) -/
  throttles : List Throttle := []
deriving DecidableEq, Repr

/-- What a side holds beside its registers and its bytes. -/
structure SideState where
  /-- channels CH_0 to CH_7 -/
  chans : List (Nat × Chan) := []
  /-- TRAIN_DRIFT was raised since the start (R221) -/
  driftNoted : Bool := false
  /-- a release is under way (R241) -/
  releasing : Bool := false
  /-- the release copies every mirrored granule (MODE = FULL) -/
  full : Bool := false
  /-- granules the copy engine has still to copy (R241) -/
  todo : List Nat := []
  /-- its copy engine stopped for good (R239) -/
  stopped : Bool := false
  /-- lines of the granule under copy that the engine has begun to read (R242) -/
  copied : Nat := 0
  /-- lines the engine has to read again: part of each was written after it read them (R242; log entry 79) -/
  again : List Nat := []
  /-- lines in flight, at most 16, oldest first: each with its bytes as the engine read them (R242) -/
  flight : List (Nat × List Byte) := []
deriving DecidableEq, Repr

/-- How a transaction ends for its requester. -/
inductive ReplyStatus where
  /-- performed -/
  | ok
  /-- not performed, completed with an error response (R33, R335) -/
  | error
  /-- the read returned poison (R236, R238) -/
  | poison
  /-- Unsupported Request (R48) -/
  | unsupported
  /-- Configuration Request Retry Status (R43) -/
  | retry
deriving DecidableEq, Repr

/-- A completion that leaves the device: the model's own output field. -/
structure Reply where
  /-- number of the request it answers -/
  id : Nat := 0
  /-- how it ended -/
  status : ReplyStatus := .ok
  /-- data, for a read -/
  data : List Byte := []
deriving DecidableEq, Repr

/-! ### The black box (R434 to R446) -/

/-- A record that waits for the black-box writer (R438). -/
structure BboxRec where
  /-- KIND -/
  kind : Nat
  /-- 32 payload bytes -/
  payload : List Byte
  /-- 0 hardware writer, 1 boot ROM, 2 secure world -/
  origin : Nat
  /-- seconds at the event -/
  sec : Nat
  /-- fraction at the event -/
  frac : Nat
  /-- RTC VALID at the event -/
  timeValid : Bool
  /-- drumbeat number at the event -/
  drum : Nat
deriving DecidableEq, Repr

/-- The black-box writer's state beside its registers. -/
structure BboxState where
  /-- records not yet programmed and verified, at most 16 (R438) -/
  queue : List BboxRec := []
  /-- a commit is due and runs until nothing is pending (R438) -/
  commitWanted : Bool := false
  /-- records in the flash program under way (R438) -/
  inProgram : Nat := 0
  /-- the program under way writes the header of the next page (R437) -/
  opening : Bool := false
  /-- slot 1,023 of the head page is written (R437) -/
  full : Bool := false
  /-- 4 KB sectors of the page ahead that are erased, 0 to 16 (R437) -/
  erased : Nat := 0
  /-- C3 records appended since device reset (R439) -/
  c3Records : Nat := 0
  /-- flash offset of the partition, BBOX_OFF of the chart header (R434) -/
  offset : Nat := 0
  /-- the partition is known: a chart header was found (R437) -/
  known : Bool := false
  /-- records the warning's commit has programmed (P1 of BBOX_LATE, R433) -/
  committed : Nat := 0
deriving DecidableEq, Repr

/-! ### Pins (spec/17_pins_and_board.md) -/

/-- A pin as the device drives it. -/
inductive Level where
  /-- not driven -/
  | z
  /-- driven low -/
  | low
  /-- driven high -/
  | high
  /-- driven with what it carries: a clock, pulses or data -/
  | data
deriving DecidableEq, Repr

/-! ### Sessions and guest ports (spec/02_sessions_and_guest_ports.md) -/

/-- What a session holds beside its registers. -/
structure SessState where
  /-- tokens in the bucket, in millionths of a byte (R66) -/
  tokens : Nat := 0
  /-- device address of the touch ring, translated when it was enabled (R65) -/
  tqAddr : Nat := 0
  /-- a record was discarded from a full ring and no SYNC has been written since (R60) -/
  tqSync : Bool := false
  /-- device addresses of the audio rings, by handle (R65) -/
  asAddr : List (Nat × Nat) := []
deriving DecidableEq, Repr

/-- A guest transaction that waits at the ingress of its function (R47, R67) or of its port (R405). -/
structure HeldTx where
  /-- BAR it names: 0, 2 or 4 (R45) -/
  bar : Nat := 2
  /-- slot the access names -/
  slot : Nat
  /-- offset in the slot's page or aperture, or in BAR4 -/
  off : Nat
  /-- a write, with its bytes; a read otherwise -/
  write : Bool
  /-- bytes written -/
  bytes : List Byte
  /-- bytes read -/
  len : Nat
  /-- number of the request -/
  id : Nat
deriving DecidableEq, Repr

/-- A PCIe function (R43 to R48). -/
structure FuncState where
  /-- the function is held in a function-level reset (R52) -/
  inReset : Bool := false
  /-- the MSI-X table in BAR4, by word (R46) -/
  table : List (Nat × Word) := []
  /-- pending-bit array (R46) -/
  pba : Nat := 0
  /-- MSI-X Enable of the capability -/
  msixOn : Bool := false
  /-- Function Mask of the capability -/
  msixMask : Bool := false
  /-- AER Unsupported Request status (R48) -/
  urStatus : Bool := false
  /-- addresses the host wrote: words 0 to 5 of the BARs and, of the physical function, 6 to 11 of the VF BARs (R45, R46) -/
  bars : List (Nat × Nat) := []
  /-- VF Enable of the physical function (R46, R52) -/
  vfOn : Bool := false
  /-- NumVFs as the host wrote it (R46, R52) -/
  numVfs : Nat := 0
  /-- transactions that wait, oldest first (R67) -/
  ingress : List HeldTx := []
deriving DecidableEq, Repr

/-- An MSI-X message the device sent (R44, R62). -/
structure MsixMessage where
  /-- port -/
  port : Nat
  /-- function -/
  func : Nat
  /-- message address, low word -/
  addrLo : Word
  /-- message address, high word -/
  addrHi : Word
  /-- message data -/
  data : Word
deriving DecidableEq, Repr

/-! ### Touch engines and Silvos links (spec/08_touch_and_silvos_link.md) -/

/-- An active contact (R273, R282). -/
structure Contact where
  /-- contact ID -/
  id : Nat
  /-- session it is routed to; none in a NONE tile (R285) -/
  session : Option Nat
  /-- pad of its latest peak -/
  pad : Nat
  /-- position in 1/16 pixel -/
  x : Nat
  /-- position in 1/16 pixel -/
  y : Nat
  /-- intensity -/
  inten : Nat
  /-- region's pads -/
  area : Nat
  /-- zone of its records -/
  zone : Nat
  /-- frame number of the hit map used (R282) -/
  hitFrame : Nat
  /-- drumbeat number of its DOWN (R277) -/
  downDrum : Nat
  /-- START_HELD -/
  startHeld : Bool
  /-- BUTTON -/
  button : Bool
  /-- consecutive drive scans without a match (R273) -/
  misses : Nat
  /-- pads of its region at the latest match (R277) -/
  region : List Nat
  /-- position and intensity of its latest record (R283) -/
  sent : Nat × Nat × Nat
  /-- the next report writes a MOVE whatever changed (R283) -/
  resend : Bool
deriving DecidableEq, Repr

/-- A candidate: a peak seen in one scan (R273). -/
structure Candidate where
  /-- pad of its peak -/
  pad : Nat
  /-- filtered delta of its peak -/
  peak : Int
deriving DecidableEq, Repr

/-- A mark on the downstream link (R250). -/
inductive Mark where
  | beat | open | close | conv
deriving DecidableEq, Repr

/-- A mark placed on the link (R251). -/
structure PlacedMark where
  /-- the mark -/
  mark : Mark
  /-- when its last bit leaves the pin, in ns after the beat -/
  time : Int
  /-- its intended instant in ns after the beat -/
  instant : Int
deriving DecidableEq, Repr

/-- The scan of a beat (R255, R262 to R267). -/
structure Scan where
  /-- a scan is under way -/
  active : Bool := false
  /-- drumbeat number of its beat -/
  drum : Nat := 0
  /-- sequence number of its descriptor (R255) -/
  dseq : Nat := 0
  /-- a listen beat: drive off (R265) -/
  listen : Bool := false
  /-- 0 full, 1 half A, 2 half B (R263) -/
  half : Nat := 0
  /-- 0 in phase, 1 pattern A, 2 pattern B (R254) -/
  guard : Nat := 0
  /-- frequency index (R254) -/
  freq : Nat := 0
  /-- quiet sampling (R266) -/
  quiet : Bool := false
  /-- first group of the scan -/
  first : Nat := 0
  /-- groups the scan covers -/
  groups : Nat := 0
  /-- groups received -/
  got : Nat := 0
  /-- conversions ended by a CONV mark -/
  convs : Nat := 0
  /-- integration of the current group is open -/
  isOpen : Bool := false
  /-- windows of the current conversion opened so far -/
  opens : Nat := 0
  /-- where the link's 80 ns symbol grid lies against the beat, in ns (R251) -/
  phase : Nat := 0
  /-- the marks of the scan in the order they leave the pin (R251) -/
  marks : List PlacedMark := []
  /-- counts received, by pad -/
  counts : List (Nat × Nat) := []
  /-- haptic channels on which a press cue of the scan loses to another trigger of its clock (R301) -/
  beaten : List Nat := []
deriving DecidableEq, Repr

/-- A set of obstructed pads, with the consecutive drive scans in which all stayed below RELEASE (R277). -/
structure Obstruction where
  /-- pads -/
  pads : List Nat
  /-- scans below RELEASE -/
  below : Nat
deriving DecidableEq, Repr

/-- A link and its touch engine, beside their registers. -/
structure TouchState where
  /-- the scan of the latest beat -/
  scan : Scan := {}
  /-- sequence number of the next command frame (R253) -/
  seq : Nat := 0
  /-- upstream frames received since the last BEAT (R253) -/
  fseq : Nat := 0
  /-- consecutive discarded scans (R261) -/
  discarded : Nat := 0
  /-- frames the latest command sent downstream, each as its body (the model's own) -/
  sent : List (List Byte) := []
  /-- latest drive count of each pad (R268) -/
  counts : List (Nat × Nat) := []
  /-- baseline of each pad in 16.8 fixed point (R268) -/
  base : List (Nat × Nat) := []
  /-- the baseline that was loaded (R288) -/
  stored : List (Nat × Nat) := []
  /-- a load waits for the link (R288) -/
  loadDue : Bool := false
  /-- a dump waits for the end of a report (R288) -/
  dumpDue : Bool := false
  /-- sums of the counts of a quiet set, by pad (R267) -/
  sums : List (Nat × Nat) := []
  /-- drive scans in the quiet set so far (R267) -/
  quietScans : Nat := 0
  /-- deltas of the last two drive scans, by pad, newest first (R271) -/
  prev1 : List (Nat × Int) := []
  /-- older of the two -/
  prev2 : List (Nat × Int) := []
  /-- START_HELD pads, each with its consecutive drive scans below RELEASE (R275) -/
  held : List (Nat × Nat) := []
  /-- obstructed sets (R277) -/
  obstructed : List Obstruction := []
  /-- consecutive drive scans each pad stayed at or below −RELEASE (R276) -/
  anti : List (Nat × Nat) := []
  /-- pads frozen after the latest scan (R270) -/
  frozen : List Nat := []
  /-- active contacts, by rising ID -/
  contacts : List Contact := []
  /-- candidates -/
  candidates : List Candidate := []
  /-- latest noise figure of each frequency index (R280) -/
  figures : List (Nat × Option Nat) := []
  /-- candidate frequency of the next listen scan (R280) -/
  survey : Nat := 0
  /-- consecutive quiet listen scans in conducted-noise mode (R279) -/
  calm : Nat := 0
  /-- no drive scan has ended since a frequency change (R269) -/
  freshFreq : Bool := false
  /-- the engine has left START since device reset (the phases of the engine) -/
  started : Bool := false
  /-- image of the self-test under way: 0 GUARD = 0, 1 pattern A, 2 pattern B (R281) -/
  stImage : Nat := 0
  /-- mean counts of the GUARD = 0 image (R281) -/
  stBase : List (Nat × Nat) := []
  /-- mean counts of the pattern A image (R281) -/
  stA : List (Nat × Nat) := []
  /-- a scan ended and its report has not been written (R284) -/
  reportDue : Bool := false
  /-- C2 holds the engine HALTED (R394) -/
  contained : Bool := false
deriving DecidableEq, Repr

/-! ### Haptics (spec/09_haptics.md) -/

/-- An effect descriptor (R294). -/
structure HapDesc where
  /-- nominal frequency in Hz, held within 80 to 2,000 -/
  f0 : Nat := 80
  /-- sustain cycles -/
  cycles : Nat := 0
  /-- peak amplitude -/
  level : Nat := 0
  /-- brake cycles, 0 to 4 -/
  brakeMax : Nat := 0
  /-- decay cycles -/
  decay : Nat := 0
  /-- attack cycles -/
  attack : Nat := 0
  /-- resonance is tracked -/
  track : Bool := false
  /-- amplitude of brake cycles -/
  brakeLevel : Nat := 0
  /-- braking ends at or below this reading -/
  brakeThresh : Nat := 0
deriving DecidableEq, Repr

/-- A trigger (R298). -/
structure HapTrigger where
  /-- effect of the library -/
  effect : Nat
  /-- an URGENT trigger -/
  urgent : Bool
  /-- the session whose doorbell it is; none for a pin or a press cue -/
  session : Option Nat
  /-- slot boundaries at which its start will not be made (R32) -/
  late : Nat := 0
  /-- slot boundaries it has missed (R32, R37) -/
  missed : Nat := 0
deriving DecidableEq, Repr

/-- A haptic channel beside its registers (R290, R295 to R303). -/
structure HapState where
  /-- descriptor of the effect that runs, as copied at its start -/
  desc : HapDesc := {}
  /-- cost held (R302) -/
  cost : Nat := 0
  /-- phase accumulator, 32 bits -/
  acc : Nat := 0
  /-- Δ of R290 -/
  delta : Nat := 0
  /-- the motion is the negative of the accumulator's sine: an effect that began at a falling crossing (R300) -/
  inv : Bool := false
  /-- the effect waits for the element's next tracked crossing (R300) -/
  arm : Bool := false
  /-- drive cycle under way -/
  cycle : Nat := 0
  /-- the drive ends at its next cycle boundary (R299) -/
  endAtCycle : Bool := false
  /-- brake cycles driven (R297) -/
  brakes : Nat := 0
  /-- braking is in a window (R297) -/
  window : Bool := false
  /-- braking waits, with both pins low, for the crossing its next window opens at (R297) -/
  wait : Bool := false
  /-- phase passed in the brake cycle or window under way -/
  prog : Nat := 0
  /-- largest reading of the window -/
  peak : Nat := 0
  /-- high time of HAP_n_PH in the current PWM period, in core clocks -/
  ph : Nat := 0
  /-- high time of HAP_n_PL -/
  pl : Nat := 0
  /-- a sense window holds both pins low (R296) -/
  sense : Bool := false
  /-- ADC samples since the effect began -/
  samples : Nat := 0
  /-- latest sample of the open sense window -/
  prev : Option Int := none
  /-- latest crossing, in nanoseconds from the effect's first sample -/
  cross : Option Nat := none
  /-- latest measured half period, in nanoseconds -/
  half : Option Nat := none
  /-- consecutive samples at a stop of the range (R303) -/
  stops : Nat := 0
  /-- a trigger that waits for budget, with the boundaries it was tried at (R302) -/
  waiting : Option (HapTrigger × Nat) := none
  /-- a pending normal trigger (R299) -/
  pending : Option HapTrigger := none
  /-- an URGENT doorbell that starts at the next slot boundary (R298) -/
  urgent : Option HapTrigger := none
deriving DecidableEq, Repr

/-! ### Layers, screens, ports and pipes (spec/03 to spec/06) -/

/-- A frame of a video input as the layer that took it shows it (R147). -/
structure VinShown where
  /-- its buffer, 0 to 2 -/
  buf : Nat
  /-- device address of its first byte -/
  base : Nat
  /-- row pitch in bytes -/
  stride : Nat
  /-- format it is stored in (R481) -/
  fmt : Nat
deriving DecidableEq, Repr

/-- A general layer beside its registers. -/
structure LayerState where
  /-- the PENDING commit's scheduled frame, when it has one (R122) -/
  sched : Option Nat := none
  /-- its fence: semaphore and value (R57) -/
  fence : Option (Nat × Nat) := none
  /-- device addresses of its planes, translated when it was performed (R65) -/
  addrs : List Nat := []
  /-- device addresses of the coefficient and palette tables it loads -/
  tables : Option Nat × Option Nat := (none, none)
  /-- its table loads are not complete (R128) -/
  loading : Bool := false
  /-- entries of the two palette copies (R129) -/
  pal0 : List (Nat × Word) := []
  /-- second copy -/
  pal1 : List (Nat × Word) := []
  /-- the active state uses the second copy -/
  palSecond : Bool := false
  /-- held count (R131) -/
  held : Nat := 0
  /-- DETACH_ACTION NOT_READY holds until a commit is applied (R132) -/
  detached : Bool := false
  /-- the video frame it shows (R147) -/
  vinShown : Option VinShown := none
deriving DecidableEq, Repr

/-- A protected layer beside its registers. -/
structure ProtState where
  /-- the PENDING commit's scheduled frame -/
  sched : Option Nat := none
  /-- its palette load is not complete -/
  loading : Bool := false
  /-- entries of the two palette copies (R129) -/
  pal0 : List (Nat × Word) := []
  /-- second copy -/
  pal1 : List (Nat × Word) := []
  /-- the active state uses the second copy -/
  palSecond : Bool := false
deriving DecidableEq, Repr

/-- A video input beside its registers (R146). -/
structure VinState where
  /-- a frame is being received, into this buffer -/
  buf : Option Nat := none
  /-- lines received -/
  lines : Nat := 0
  /-- a line had the wrong length, or there were too many -/
  sizeBad : Bool := false
  /-- a payload failed its CRC -/
  crcBad : Bool := false
  /-- an uncorrectable header came -/
  eccBad : Bool := false
  /-- its writes could not reach memory in time -/
  late : Bool := false
deriving DecidableEq, Repr

/-- Why a port trains its link. -/
inductive TrainWhy where
  | none | soft | relink | irq | degrade | retime
deriving DecidableEq, Repr

/-- A transaction of the AUX or I2C master. -/
structure AuxState where
  /-- DEFER replies received (R97) -/
  defers : Nat := 0
deriving DecidableEq, Repr

/-- A display port beside its registers. -/
structure PortState where
  /-- why the link trains -/
  why : TrainWhy := .none
  /-- the sink supports TPS3, as its capabilities say when it is plugged in (R90) -/
  tps3 : Bool := true
  /-- training pattern of the latest training: 2, 3 or 4 for TPS2, TPS3 or TPS4 (R90); 0 before one -/
  pattern : Nat := 0
  /-- the port sends its screen's video: from the first frame start with LINK_OK until the link or the video stops (R92) -/
  video : Bool := false
  /-- Audio InfoFrames sent since device reset (R104; the model's own output) -/
  infoFrames : Nat := 0
  /-- Maud and Naud of the latest InfoFrame (R104, log entry 73) -/
  audRatio : Nat × Nat := (0, 0)
  /-- rate code tried -/
  rate : Nat := 6
  /-- lane count tried, coded as LANES -/
  lanes : Nat := 2
  /-- rate and lanes of the latest training that succeeded, for a replug (R92) -/
  last : Option (Nat × Nat) := none
  /-- lanes that failed once already (R93) -/
  failed : List Nat := []
  /-- rate and lanes that training was asked for, from which fallback counts down (R91) -/
  asked : Nat × Nat := (6, 2)
  /-- a degrade runs (R95) -/
  degrading : Bool := false
  /-- power-on is held for T_OFF_MIN or the end of a power-down (R99, R101) -/
  powerHeld : Bool := false
  /-- PNL_VDD_EN has gone low since reset (R99) -/
  wentLow : Bool := false
  /-- the panel is powered and HPD is awaited (R99) -/
  awaitHpd : Bool := false
  /-- power-down: 0 none, 1 the link stops next, 2 VDD falls next (R101) -/
  down : Nat := 0
  /-- the AUX master's transaction -/
  aux : AuxState := {}
  /-- the PWM period in use, in 25 MHz cycles (R103) -/
  pwmPeriod : Nat := 0x2710
  /-- the duty in use, in 1/65,536 -/
  pwmDuty : Nat := 0
  /-- the polarity in use: duty is the low time -/
  pwmLow : Bool := false
  /-- frame at which a forced harbour image began (R191) -/
  forced : Option Nat := none
deriving DecidableEq, Repr

/-- A pipe beside its registers. -/
structure PipeState where
  /-- it is to become SUSPECT after a mismatch when it leaves its screen (R196) -/
  mismatch : Bool := false
  /-- it is to become SUSPECT after a watch mismatch (R202) -/
  watchFail : Bool := false
  /-- its monitor marked it WORN (R447) -/
  worn : Bool := false
  /-- screen its lane 0 watched last (R199) -/
  last0 : Nat := 7
  /-- screen its lane 1 watched last -/
  last1 : Nat := 7
deriving DecidableEq, Repr

/-- A cause of the harbour image in a rectangle (R185, R188). -/
structure RectCause where
  /-- rectangle -/
  rect : Nat
  /-- reason code -/
  reason : Nat
  /-- frame at which it began -/
  frame : Nat
  /-- first line it covers in the current frame -/
  line : Nat
deriving DecidableEq, Repr

/-- A rectangle of the screen. -/
structure Rect where
  /-- left -/
  x : Nat
  /-- top -/
  y : Nat
  /-- width -/
  w : Nat
  /-- height -/
  h : Nat
deriving DecidableEq, Repr

/-- A hit map (R204): what decides its entries. -/
structure HitMap where
  /-- frame number -/
  frame : Nat
  /-- active width -/
  w : Nat
  /-- active height -/
  h : Nat
  /-- enabled protected rectangles -/
  prot : List Rect
  /-- input layers from the highest Z down: owning session and destination -/
  layers : List (Option Nat × Rect)
deriving DecidableEq, Repr

/-- The frame of a screen that is watched (R199 to R202). -/
structure WatchState where
  /-- watching pipe -/
  pipe : Nat
  /-- lane -/
  lane : Nat
  /-- frame -/
  frame : Nat
  /-- the frame is void (R201) -/
  bad : Bool := false
  /-- signature of the serving pipe, once the frame is complete -/
  sig : Option Nat := none
deriving DecidableEq, Repr

/-- A tile row in the sextant's store (R180, R185). -/
inductive TileRow where
  /-- it has not arrived -/
  | absent
  /-- it failed its check, or its read returned poison -/
  | failed
  /-- it passed its check -/
  | passed (bytes : List Byte)
deriving DecidableEq, Repr

/-- A screen beside its registers. -/
structure ScreenState where
  /-- a start passed its checks and waits for its start latch (R72) -/
  starting : Bool := false
  /-- the pipe held for it (R482) -/
  held : Option Nat := none
  /-- RUN = 0 was written: the next latch is the stop latch (R73) -/
  stopping : Bool := false
  /-- video is stopped for a RETIME or for a halved degrade, and a start latch is awaited (R85, R95) -/
  gap : Bool := false
  /-- RUN = 0 was written in the gap (R88) -/
  gapStop : Bool := false
  /-- the link work of the gap has ended (R87) -/
  gapDone : Bool := false
  /-- a degrade has doubled B: the halved timing starts after the next latch (R95) -/
  halve : Bool := false
  /-- consecutive quiet latches (R80) -/
  quiet : Nat := 0
  /-- FORCED has fallen and no latch has come since: R80 and R81 do not apply yet (R82) -/
  forcedTail : Bool := false
  /-- in the blanking between a latch and the frame's first line -/
  blanking : Bool := false
  /-- a stretched blanking ends early (R81) -/
  early : Bool := false
  /-- it needs a new pipe (R196) -/
  needPipe : Bool := false
  /-- pipes that may not be chosen for it (R202) -/
  exclude : List Nat := []
  /-- drumbeat number of the grid beat of the current frame (R27, R31, R84) -/
  frameDrum : Nat := 0
  /-- FRESH_LIMIT as sampled at the latch (R207) -/
  freshLimit : Nat := 4
  /-- STRICT as sampled at the latch -/
  strict : Bool := false
  /-- harmless state of a C2 reaction: HARBOUR or not, and the frame it began at (R194) -/
  c2 : Option (Bool × Nat) := none
  /-- a release ends the C2 reaction at the next latch (R394) -/
  c2Ends : Bool := false
  /-- harmless state of a C3 reaction -/
  c3 : Option (Bool × Nat) := none
  /-- SAFE_ACTION as read when the C3 reaction took effect, of a screen that did not run: the harmless state it starts in (R207) -/
  c3Act : Option Bool := none
  /-- causes of the harbour image in its rectangles -/
  causes : List RectCause := []
  /-- what protected pixels are taken from in this frame: 0 verified pipe, 1 sextant, 2 unverified pipe (R185) -/
  mode : Nat := 0
  /-- a pipe mismatch arose in this frame -/
  mismatch : Bool := false
  /-- every protected pixel of this frame was compared -/
  compared : Bool := true
  /-- the sextant that verifies this frame (R186) -/
  sextant : Option Nat := none
  /-- tile rows that have arrived, by rectangle × 2^24 + row × 64 + tile (R180) -/
  tiles : List (Nat × TileRow) := []
  /-- layers made transparent by poison to the end of the frame, each with the line it was poisoned on (R120) -/
  poisoned : List (Nat × Nat) := []
  /-- the pipe's output buffer of at most 8 lines: each line's number and its pixels, with whether a pixel was composed
  without its protected data (R118, R185) -/
  composed : List (Nat × List (Word × Bool)) := []
  /-- lines of the coming frame whose composition may have begun: 0 until its fetch starts (R78, R118) -/
  ahead : Nat := 0
  /-- pixels of the latest active line sent (the model's own output) -/
  sent : List Word := []
  /-- the running signature of the frame (R200) -/
  sig : Nat := 0xFFFFFFFF
  /-- something in the frame keeps it from being compared by the watch (R201) -/
  bad : Bool := false
  /-- the current hit map (R205) -/
  hit : Option HitMap := none
  /-- the map built at the latest latch, until it replaces the current one -/
  hitNext : Option HitMap := none
  /-- LUT_SWAP of the pending output commit (R159) -/
  lutSwap : Bool := false
  /-- the watched frame -/
  watch : Option WatchState := none
deriving DecidableEq, Repr

/-! ### Audio (spec/10_audio.md) -/

/-- The state of a biquad: its last two inputs and outputs. -/
structure Biquad where
  /-- v[n − 1] -/
  v1 : Int := 0
  /-- v[n − 2] -/
  v2 : Int := 0
  /-- w[n − 1] -/
  w1 : Int := 0
  /-- w[n − 2] -/
  w2 : Int := 0
deriving DecidableEq, Repr

/-- A node of the crosspoint beside its register (R315). -/
structure NodeState where
  /-- the code in effect, ducking apart -/
  code : Nat := 0x8000
  /-- samples since the pending change's interval began; none while no change waits -/
  wait : Option Nat := none
  /-- the ducked code a node keeps from the end of ducking until its return to its own code takes effect (R325) -/
  held : Option Nat := none
deriving DecidableEq, Repr

/-- What a bell voice does (R324). -/
inductive VoicePhase where
  /-- nothing -/
  | idle
  /-- an ON period -/
  | tone
  /-- the ON period is over and the half cycle runs out -/
  | tail
  /-- an OFF period -/
  | rest
deriving DecidableEq, Repr

/-- A bell voice beside its registers (R323, R324). -/
structure Voice where
  /-- what it does -/
  phase : VoicePhase := .idle
  /-- phase accumulator -/
  acc : Nat := 0
  /-- samples left in the period -/
  left : Nat := 0
  /-- ON periods begun -/
  reps : Nat := 0
  /-- it falls silent for good at the end of the tail -/
  final : Bool := false
  /-- SOUND was written: it starts in the next block -/
  startDue : Bool := false
  /-- STOP was written: it ends from the next block boundary -/
  stopDue : Bool := false
deriving DecidableEq, Repr

/-- A TDM port beside its registers (R311, R312, R320). -/
structure TdmState where
  /-- frames passed in the current block -/
  frame : Nat := 0
  /-- slots received since the latest block boundary, newest frame first -/
  rx : List (List Int) := []
  /-- the latest frames' received slots with their frame numbers, newest first, at most four -/
  hist : List (Nat × List Int) := []
  /-- masks in effect: received and sent slots -/
  rxMask : Nat := 0
  /-- sent slots -/
  txMask : Nat := 0
  /-- high-pass corners in effect, by slot -/
  corners : List (Nat × Nat) := []
  /-- slots of the latest frame on DOUT, high-impedance ones absent (the model's own output) -/
  dout : List (Nat × Word) := []
deriving DecidableEq, Repr

/-- The audio unit beside its registers. -/
structure AudState where
  /-- an accepted start waits for the next beat (R305) -/
  startDue : Bool := false
  /-- a disable waits for the next block boundary (R11, R306) -/
  stopDue : Bool := false
  /-- device address of the staging area of the run under way (R305, R309) -/
  stage : Nat := 0
  /-- number of the block under way: block k is processed from B(k) -/
  block : Nat := 0
  /-- the nodes, by 64 × output + input -/
  nodes : List (Nat × NodeState) := []
  /-- last sample of each input (R315) -/
  last : List (Nat × Int) := []
  /-- high-pass state, by input -/
  hpf : List (Nat × Biquad) := []
  /-- equaliser state, by 8 × output + biquad -/
  eq : List (Nat × Biquad) := []
  /-- output blocks of the block staged last, by output (R322) -/
  outs : List (Nat × List Int) := []
  /-- a block was staged last -/
  staged : Bool := false
  /-- number of the block being sent -/
  sending : Nat := 0
  /-- the block being sent is silence (R309) -/
  silent : Bool := true
  /-- streams whose samples for the current block come late (R308) -/
  late : List Nat := []
  /-- ducking of the current block: depth, inputs, outputs (R325) -/
  duck : Option (Nat × Nat × Nat) := none
  /-- direct routes in effect: route, input slot, output slot (R320) -/
  routes : List (Nat × Nat × Nat) := []
  /-- output words the DP ports send in the current block, by output (the model's own output) -/
  dp : List (Nat × List Word) := []
  /-- the TDM ports -/
  tdm : List (Nat × TdmState) := []
  /-- the bell voices -/
  voices : List (Nat × Voice) := []
  /-- secure services went down and the voices have not stopped for it (R327) -/
  downDue : Bool := false
  /-- every output is silenced from the latest block boundary (R328, R394) -/
  quiet : Bool := false
deriving DecidableEq, Repr

/-! ### Check-value units (spec/14_check_value_units.md) -/

/-- A check-value unit beside its registers (R410 to R415). -/
structure CrcState where
  /-- device address of the descriptor under way -/
  desc : Nat := 0
  /-- its position in the chain -/
  index : Nat := 0
  /-- its chunks are done -/
  done : Bool := false
  /-- a HALT ended the chain -/
  halted : Bool := false
  /-- it did so with chunks of the descriptor not computed, so that the descriptor does not complete (R415) -/
  cut : Bool := false
  /-- IRQ of the descriptor whose chunks are done -/
  irq : Bool := false
  /-- its LAST -/
  last : Bool := false
  /-- its NEXT -/
  next : Nat := 0
deriving DecidableEq, Repr

/-! ### Wear (spec/16_reserves_and_wear.md) -/

/-- The ageing monitors and the OTP repairs, beside their registers (R447, R453). -/
structure WearState where
  /-- consecutive samples below WORN_THRESH, by monitor -/
  low : List (Nat × Nat) := []
  /-- rows and columns burnt into OTP by R453, by macro; they outlive a device reset -/
  burnt : List (Nat × (Nat × Nat)) := []
  /-- OTP repair entries used -/
  used : Nat := 0
  /-- a warning began during the burn that runs (R453) -/
  cut : Bool := false
  /-- the macro whose repairs the burn that runs makes lasting (R453) -/
  target : Nat := 0
deriving DecidableEq, Repr

/-! ### Management cores, ownership and debug (spec/11_worlds_and_management_cores.md) -/

/-- A management core beside its registers (R329 to R340): what the world switches, the traps and the debug port act on. -/
structure CoreState where
  /-- program counter -/
  pc : BitVec 64 := 0
  /-- privilege: 0 user, 1 supervisor, 3 machine -/
  priv : Nat := 3
  /-- x1 to x31 by number -/
  x : List (Nat × BitVec 64) := []
  /-- f0 to f31 by number -/
  f : List (Nat × BitVec 64) := []
  /-- fcsr -/
  fcsr : Word := 0
  /-- CSRs of the normal world, by number (R333) -/
  csrN : List (Nat × BitVec 64) := []
  /-- CSRs of the secure world, by number -/
  csrS : List (Nat × BitVec 64) := []
  /-- shadow file: x1 to x31 (R338) -/
  shadowX : List (Nat × BitVec 64) := []
  /-- shadow file: f0 to f31 -/
  shadowF : List (Nat × BitVec 64) := []
  /-- shadow file: fcsr -/
  shadowFcsr : Word := 0
  /-- it holds a normal-world context to return to: it has left the secure world since its release (R343) -/
  context : Bool := false
  /-- its entry into the secure world is timed (R341) -/
  timed : Bool := false
  /-- held in reset by R343, until it is released, fails or is worn -/
  parked : Bool := false
  /-- a halt request that has not taken effect (R357) -/
  haltReq : Bool := false
  /-- it is halted at the boot ROM's restart vector, and the ROM checks the secure image once it resumes; whether the ROM can carry
  the check to its end (R345, R357) -/
  romWaits : Option Bool := none
deriving DecidableEq, Repr

/-- What R334 tags with a world. -/
inductive TagKind where
  /-- a line of an L1 -/
  | l1
  /-- a line of the shared L2 -/
  | l2
  /-- a TLB entry -/
  | tlb
  /-- a branch predictor entry -/
  | branch
  /-- a return-stack entry -/
  | ras
deriving DecidableEq, Repr

/-- A tagged entry of the cores' caches, TLBs and predictors (R334). -/
structure Tagged where
  /-- what it is -/
  kind : TagKind
  /-- the core that holds it; 5 for the shared L2 -/
  core : Nat
  /-- the line, the virtual page or the program address it is for -/
  key : Nat
  /-- the world that created it -/
  world : World
deriving DecidableEq, Repr

/-- A core as its release leaves it; MC_0 runs from the boot ROM (R329). -/
def coreReset (n : Nat) : CoreState := if n = 0 then { pc := 0x0FF0000000 } else {}

/-- The debug port beside its registers (R356 to R358). -/
structure JtagState where
  /-- instruction register; the identification register is selected after the TAP's reset (IEEE 1149.1) -/
  ir : Nat := 1
  /-- bits of the register the latest instruction selected; 0 where the spec gives no length -/
  width : Nat := 32
  /-- what that register captured, as a number (the model's own output) -/
  dr : Nat := 0
  /-- the current challenge, 32 bytes -/
  challenge : List Byte := []
  /-- it has been used for a token -/
  used : Bool := true
  /-- the token that is being verified, after the challenge it is held against; that is empty where none can be used -/
  token : Option (List Byte × List Byte) := none
  /-- what the boundary register holds for the pins, a free value (R356, R457) -/
  cells : Nat := 0
  /-- how boundary scan drives the pins: 0 not, 1 EXTEST, 2 HIGHZ, 3 CLAMP -/
  scan : Nat := 0
deriving DecidableEq, Repr

/-! ### The chart and the start (spec/12_chart_and_start.md) -/

/-- A command of a register script (R371). -/
structure ScriptCmd where
  /-- OP: 1 WRITE, 2 MODIFY, 3 POLL, 4 DELAY, 5 END -/
  op : Nat
  /-- PARAM -/
  param : Nat
  /-- word 1 -/
  a : Word
  /-- word 2 -/
  b : Word
  /-- word 3 -/
  c : Word
deriving DecidableEq, Repr

/-- How the boot flash is driven (R359). -/
inductive FlashMode where
  /-- 1S-1S-1S, at 25 MHz -/
  | single
  /-- quad 1S-4S-4S -/
  | quad
  /-- octal 8D-8D-8D -/
  | octal
deriving DecidableEq, Repr

/-- What the device drives on the flash's pins: the boot ROM before the service mode (R359, R361), and the commands of
BOOT_0_FLASH_CMD in it (R384). -/
inductive FlashOp where
  /-- XSPI_RST_N low for so many µs, then a wait of so many µs -/
  | reset (lowUs waitUs : Nat)
  /-- a read in 1S-1S-1S mode: command, address, bytes -/
  | read (cmd addr len : Nat)
  /-- a command alone, in 1S-1S-1S mode -/
  | command (cmd : Nat)
  /-- a write of a volatile register in 1S-1S-1S mode: command, address, value -/
  | register (cmd addr val : Nat)
  /-- a command alone in the service mode: write enable, a suspend or a resume of an erase, or a read of the status register, repeated
  while it shows busy -/
  | service (cmd : Nat)
  /-- a read in the service mode: command, extension byte of octal mode, address, dummy cycles, bytes -/
  | serviceRead (cmd ext addr dummy len : Nat)
  /-- a page program or an erase in the service mode: command, address, bytes to program -/
  | serviceWrite (cmd addr : Nat) (data : List Byte)
deriving DecidableEq, Repr

/-- The start and the flash command, beside the registers of BOOT_0. -/
structure BootState where
  /-- what has been driven on the flash's pins in this start, oldest first (R359, R361, R384; the model's own output) -/
  flashBus : List FlashOp := []
  /-- the mode in which the flash is driven -/
  flashMode : FlashMode := .single
  /-- the service clock in units of 25 MHz -/
  flashClk : Nat := 1
  /-- the 80 bytes of the header in use; none when no copy is valid (R360, R361) -/
  header : List Byte := []
  /-- commands of the stage's scripts that have not run, in table order (R372) -/
  script : List ScriptCmd := []
  /-- the stage in which the ROM is, as R373 numbers them; 8 or 15 as STAGE after an anchor start or a failure. STAGE shows it,
  but underway shows there too (R375) -/
  romStage : Nat := 0
  /-- slots of the order that have not been tried: 0 A, 1 B, 2 golden (R369) -/
  order : List Nat := []
  /-- flash offsets that give no data within 1 µs in this start (R367) -/
  dead : List Nat := []
  /-- flash offsets that give no data when memory sections are read again -/
  deadAgain : List Nat := []
  /-- flash offsets that read wrong when memory sections are read again -/
  badAgain : List Nat := []
  /-- a start failed under R376: a start reset follows -/
  startFailed : Bool := false
  /-- no chart was found: the ROM waits for reset (R370) -/
  noChart : Bool := false
  /-- the latest start ran in anchor mode (R378); it outlives a device reset -/
  wasAnchor : Bool := false
  /-- VAON was powered on and no start has counted it (R379, R466); it outlives a device reset -/
  vaonOn : Bool := true
  /-- a BOOT_0_FLASH_CMD command runs, where one that only waits does not (R384) -/
  running : Bool := false
  /-- its OP -/
  op : Nat := 0
  /-- its flash offset -/
  addr : Nat := 0
  /-- its length in bytes -/
  len : Nat := 0
  /-- device address of its buffer -/
  buf : Nat := 0
  /-- the secure image the ROM started: its load address and its length (R345, R373) -/
  image : Option (Nat × Nat) := none
deriving DecidableEq, Repr

/-! ### The device -/

/-- The state of the device. -/
structure State where
  /-- commands that wait, first in, first out (the model's own) -/
  pending : List Instr := []
  /-- the register file: every register by its place (R3, R35) -/
  regs : List (Nat × Word) := []
  /-- core clocks since reset release (spec/00_scope.md, Clocks) -/
  clock : Nat := 0
  /-- how many free values have been taken (the model's own, log entry 1) -/
  drawn : Nat := 0
  /-- the logbook -/
  log : LogState := {}
  /-- the real-time clock -/
  rtc : RtcState := {}
  /-- the interrupt controller -/
  ic : IcState := {}
  /-- the drumbeat -/
  drum : DrumState := {}
  /-- gated instances, as unit × 256 + instance (R355) -/
  gated : List Nat := []
  /-- bytes of Side A by side offset; an unlisted byte reads 0 (R213) -/
  memA : List Host.Cell := []
  /-- bytes of Side B by side offset; an unlisted byte reads 0 (R213) -/
  memB : List Host.Cell := []
  /-- management SRAM by offset; an unlisted byte reads 0 (log entry 4) -/
  sram : List Host.Cell := []
  /-- boot flash by offset; an unlisted byte reads 0xFF (log entry 5) -/
  flash : List Host.Cell := []
  /-- the memory sides -/
  sides : List (Nat × SideState) := []
  /-- number of the next fabric request (the model's own) -/
  nextReq : Nat := 0
  /-- completions the latest command that answers its requester sent (the model's own) -/
  replies : List Reply := []
  /-- the black-box writer -/
  bbox : BboxState := {}
  /-- the ALIVE pin (R401) -/
  alive : Level := .z
  /-- screens whose need for a new pipe waits under R197 -/
  exhausted : List Nat := []
  /-- the sessions -/
  sess : List (Nat × SessState) := []
  /-- the PCIe functions, as port × 16 + function -/
  funcs : List (Nat × FuncState) := []
  /-- MSI-X messages sent, oldest first (the model's own output) -/
  msix : List MsixMessage := []
  /-- the Silvos links and touch engines -/
  touch : List (Nat × TouchState) := []
  /-- the haptic channels -/
  hap : List (Nat × HapState) := []
  /-- a library load under way, with its bytes unless the read failed (R293) -/
  hapLib : Option (Option (List Byte)) := none
  /-- the general layers -/
  layers : List (Nat × LayerState) := []
  /-- the protected layers -/
  prots : List (Nat × ProtState) := []
  /-- the video inputs -/
  vins : List (Nat × VinState) := []
  /-- the display ports -/
  ports : List (Nat × PortState) := []
  /-- the pipes -/
  pipes : List (Nat × PipeState) := []
  /-- the screens -/
  screens : List (Nat × ScreenState) := []
  /-- audio is silenced by a C2 or C3 reaction (R328, R394) -/
  audQuiet : Bool := false
  /-- the audio unit -/
  aud : AudState := {}
  /-- the STATE a sextant under self-test returns to (R182) -/
  sxtBack : List (Nat × Nat) := []
  /-- the check-value units -/
  crcs : List (Nat × CrcState) := []
  /-- the ageing monitors and OTP repairs -/
  wear : WearState := {}
  /-- the management cores -/
  cores : List (Nat × CoreState) := []
  /-- the cores' tagged cache lines and entries, latest first (R334) -/
  tags : List Tagged := []
  /-- the core a restart of the secure world runs on (R345) -/
  restartOn : Option Nat := none
  /-- half of the secure watchdog's period has passed since the latest kick (source 124) -/
  swdtHalf : Bool := false
  /-- an attempt to restart the secure world is due (R345) -/
  restartDue : Bool := false
  /-- gate requests the secure world made, as unit × 256 + instance (R355) -/
  gateSecure : List Nat := []
  /-- gate requests whose GATE_HELD record is written (R354) -/
  gateNoted : List Nat := []
  /-- the debug port -/
  jtag : JtagState := {}
  /-- the chart, the start and the flash command -/
  boot : BootState := {}
  /-- the device is out of reset -/
  released : Bool := false
  /-- RESET_N is low (R356, R457) -/
  resetLow : Bool := true
  /-- memory sides whose rails have failed while the device runs: a condition of the board, which no command changes (R457, R463 to
  R465, log entry 97) -/
  railsOut : List (Fin 2) := []
  /-- memory fitted on Side A, in units of 4 GB less one: a fact of the board (R209, log entry 43) -/
  fittedA : Fin 4 := 0
  /-- memory fitted on Side B -/
  fittedB : Fin 4 := 0
  /-- an unfused part, in factory test mode: SYS_0_ID.GRADE reads 0 (R1, R357, log entry 62) -/
  factory : Bool := false
deriving DecidableEq, Repr

/-- The machine right after reset: every register at its reset value, every memory at what it holds when nothing has
written it, the queue empty. -/
def State.reset : State := {}

end Sys2Proof.Machine
end

