-- ==== Sys2Proof/Machine/Ops.lean ====
section
/-! DEFINITION. The named operations every unit uses: reading and writing registers and fields, W1C events with their
counts, interrupt sources, logbook events, guarantee breaches and free values. -/

namespace Sys2Proof.Machine

/-! ### Registers and fields -/

/-- What a register holds. -/
def State.reg (s : State) (a : Nat) : Word := sget regReset s.regs a

/-- A register set to a value. -/
def State.setReg (s : State) (a : Nat) (v : Word) : State := { s with regs := sput regReset s.regs a v }

/-- What a field holds. -/
def State.get (s : State) (f : Fld) : Nat := getBits (s.reg f.addr) f.lo f.width

/-- A field set to the low bits of a value. -/
def State.set (s : State) (f : Fld) (v : Nat) : State := s.setReg f.addr (setBits (s.reg f.addr) f.lo f.width v)

/-- Whether a one-bit field is 1. -/
def State.bit (s : State) (f : Fld) : Bool := s.get f != 0

/-- A field counted up, saturating at its top. -/
def State.count (s : State) (f : Fld) (n : Nat := 1) : State := s.set f (satAdd f.width (s.get f) n)

/-- A field raised to a value when that is larger. -/
def State.raiseTo (s : State) (f : Fld) (v : Nat) : State :=
  if s.get f < v then s.set f (min v (2 ^ f.width - 1)) else s

/-- A register set to its reset value. -/
def State.resetReg (s : State) (a : Nat) : State := s.setReg a (regReset a)

/-- A list of operations, one after another. -/
def State.each {α : Type} (s : State) (l : List α) (f : α → State → State) : State := l.foldl (fun t x => f x t) s

/-- An operation taken only when a condition holds. -/
def State.when (s : State) (b : Bool) (f : State → State) : State := if b then f s else s

/-! ### Free values -/

/-- The next free value (log entry 1): nothing is known of it. -/
def State.draw (s : State) : Nat × State := ((Config.freeValue s.drawn).toNat, { s with drawn := s.drawn + 1 })

/-! ### Interrupt sources (R347, R348) -/

/-- Sources 0, 126, 127 and 480 to 511 are never pending (the source table of IC_0). -/
def sourceUsed (k : Nat) : Bool := 1 ≤ k && k ≤ 479 && k != 126 && k != 127

/-- R348: an event makes its source pending; while the source is in service, the event waits for the completion. -/
def State.raiseIrq (s : State) (k : Nat) : State :=
  if !sourceUsed k then s
  else if s.ic.inService.any (fun p => p.1 == k) then
    { s with ic := { s.ic with again := if s.ic.again.contains k then s.ic.again else k :: s.ic.again } }
  else s.set (Reg.IC_SRC_PENDING k) 1

/-- A W1C event: its flag is set, its register's EVENTS counts it, and the unit's source is raised. -/
def State.event (s : State) (flag events : Fld) (irq : Nat) : State :=
  ((s.set flag 1).count events).raiseIrq irq

/-! ### Logbook events (R424, R427) -/

/-- The drumbeat number (R25). -/
def State.drumbeat (s : State) : Nat := s.get Reg.DRUM_COUNT_HI_COUNT * 2 ^ 32 + s.get Reg.DRUM_COUNT_LO_COUNT

/-- R427: an entry joins the queue of 64; a full queue discards it and counts it in QUEUE_DROPS, which raises source 118. Of
events of one clock, those raised last find it full (DEDUCED, log entry 109). -/
def State.enqueueLog (s : State) (e : LogEntry) : State :=
  if s.log.queue.length < 64 then { s with log := { s.log with queue := s.log.queue ++ [e] } }
  else (s.count Reg.LOG_COUNTS_QUEUE_DROPS).raiseIrq 118

/-- R427: the order of events raised in one clock: by CODE, then by instance. -/
def LogEntry.before (a b : LogEntry) : Bool := decide (a.code < b.code) || (a.code == b.code && decide (a.inst ≤ b.inst))

/-- R427: what `t` has entered into the queue of `s` was raised in one clock: in increasing CODE, then instance. -/
def State.inOrder (t s : State) : State :=
  let n := s.log.queue.length
  { t with log := { t.log with queue := t.log.queue.take n ++ (t.log.queue.drop n).mergeSort LogEntry.before } }

/-- A hardware event for the logbook, with the time that is live in its clock (R424). -/
def State.logEvent (s : State) (code unit inst : Nat) (p0 p1 p2 p3 : Nat) : State :=
  s.enqueueLog
    { code := code, unit := unit, inst := inst, sec := s.rtc.sec, frac := s.rtc.frac,
      timeValid := s.bit Reg.RTC_STATUS_VALID, origin := 0,
      p0 := BitVec.ofNat 32 p0, p1 := BitVec.ofNat 32 p1, p2 := BitVec.ofNat 32 p2, p3 := BitVec.ofNat 32 p3 }

/-! ### Guarantee breaches (R37, R39, R40) -/

/-- A missed guarantee (R37): rank breached, rank yielded to, requester port if one is tied to it, magnitude, and the
affected instance. -/
structure Breach where
  /-- rank breached -/
  rank : Nat
  /-- rank yielded to -/
  yielded : Nat
  /-- requester port -/
  port : Option Nat
  /-- magnitude under R37 -/
  mag : Nat
  /-- unit code of the affected instance -/
  unit : Nat
  /-- instance -/
  inst : Nat
deriving DecidableEq, Repr

/-- R37, R39, R40: the breach writes a GUARANTEE_BREACH record and counts in the register of its rank. -/
def State.breach (s : State) (b : Breach) : State :=
  let s := s.logEvent 0x0001 b.unit b.inst
    ((b.port.getD 0xFF) * 2 ^ 16 + b.yielded * 2 ^ 8 + b.rank)
    (min b.mag 0xFFFFFFFF) (s.drumbeat % 2 ^ 32) (b.unit * 2 ^ 8 + b.inst)
  (s.count (Reg.SYS_BREACH_COUNT b.rank)).set (Reg.SYS_BREACH_LAST_PORT b.rank) (b.port.getD 0x3F)

/-! ### Ownership, gating and the right to write (R350, R351, R355) -/

/-- Whether an instance is owned by the secure world (R350). -/
def State.ownedSecure (s : State) (unit inst : Nat) : Bool :=
  bitOf (s.reg (Reg.SYS_OWN unit (inst / 32))).toNat (inst % 32)

/-- The world an instance's transactions carry (R332, R353). -/
def State.ownerWorld (s : State) (unit inst : Nat) : World := if s.ownedSecure unit inst then .secure else .normal

/-- Whether an instance's clock is stopped (R355). -/
def State.isGated (s : State) (unit inst : Nat) : Bool := s.gated.contains (256 * unit + inst)

/-- R351: a write refused for its world is ignored and counted in DENIED_WRITES. -/
def State.denyWrite (s : State) : State := s.count Reg.SYS_OWN_STATUS_DENIED_WRITES

/-- A write by a world to a register of an instance: denied under R351 where the instance, or the register itself
(`sec`), is secure-owned; ignored by a gated instance (R355); else performed. -/
def State.asWriter (s : State) (w : World) (unit inst : Nat) (sec : Bool) (f : State → State) : State :=
  if w = .normal ∧ (sec || s.ownedSecure unit inst) then s.denyWrite
  else if s.isGated unit inst then s
  else f s

/-! ### The debug enables (R357, R358) -/

/-- The normal enables as NORMAL_EN and a token open them: an invasive one opens its non-invasive one (R356 to R358). -/
def State.dbgOpen (s : State) (scope : Nat) : State :=
  let s := s.when (bitOf scope 0) fun t => (t.set Reg.DBG_EN_NI 1).set Reg.DBG_EN_NNI 1
  let s := s.when (bitOf scope 1) fun t => t.set Reg.DBG_EN_NNI 1
  let s := s.when (bitOf scope 2) fun t => (t.set Reg.DBG_EN_SI 1).set Reg.DBG_EN_SNI 1
  let s := s.when (bitOf scope 3) fun t => t.set Reg.DBG_EN_SNI 1
  s.set Reg.SYS_SEC_STATUS_DBG_SECURE (s.get Reg.DBG_EN_SI ||| s.get Reg.DBG_EN_SNI)

end Sys2Proof.Machine
end

