-- ==== Sys2Proof/Machine/RegOps.lean ====
section
/-! DEFINITION. A write to a register as its access types state it, and the locks of RWL fields (R5, R7, R9, R480). -/

namespace Sys2Proof.Machine

/-- The register whose bit 31 is the LOCK that governs a register's RWL fields: the register tables name it. -/
def lockAddr (a : Nat) : Nat :=
  let u := a / 0x1000000
  let off := a % 0x10000
  let base := a - off
  if u = 0x00 then base + 0x400
  else if u = 0x02 then base + 0x200
  else if u = 0x06 then (if off = 0xFFF0 then a else base + 0x100)
  else if u = 0x0E then base + 0x1000
  else if u = 0x20 then base + 0x2000
  else if u = 0x08 ∨ u = 0x11 ∨ u = 0x13 ∨ u = 0x10 then a
  else base

/-- Whether a register's RWL fields are locked. -/
def State.locked (s : State) (a : Nat) : Bool := bitOf (s.reg (lockAddr a)).toNat 31

/-- R7: what a register holds after a write, by the access types of its row: RW and RWS bits take the written value, RWL
bits too while unlocked, W1C bits are cleared and W1S bits set where the write has a 1; every other bit stays. -/
def rowWrite (r : RegRow) (locked : Bool) (old v : Word) : Word :=
  let m := r.rw ||| r.rws ||| (if locked then 0 else r.rwl)
  ((((old &&& ~~~m) ||| (v &&& m)) &&& ~~~(r.w1c &&& v)) ||| (r.w1s &&& v))

/-- R5, R7, R9, R36: a write to a register that acts as its access types state; an offset with no register ignores it. -/
def State.plainWrite (s : State) (a : Nat) (v : Word) : State :=
  match rowAt a with
  | none => s
  | some (r, _) => s.setReg a (rowWrite r (s.locked a) (s.reg a) v)

/-- R480: whether a write leaves every bit outside a mask, among those software can set in the register, as it is. -/
def State.onlyChanges (s : State) (a : Nat) (mask v : Word) : Bool :=
  match rowAt a with
  | none => true
  | some (r, _) => ((s.reg a ^^^ v) &&& (r.rw ||| r.rwl ||| r.rws) &&& ~~~mask) == 0

/-- A value with one bit set. -/
def withBit (v : Word) (i : Nat) : Word := v ||| BitVec.ofNat 32 (2 ^ i)

/-- A value with one bit clear. -/
def withoutBit (v : Word) (i : Nat) : Word := v &&& ~~~BitVec.ofNat 32 (2 ^ i)

end Sys2Proof.Machine
end

