-- ==== Sys2Proof/Machine/MemOps.lean ====
section
/-! DEFINITION. The address map and the bytes behind it: what an address reaches, which offsets are mirrored or secure,
and the reading and writing of bytes on both sides (R33, R34, R209, R215 to R218, R236, R237, R240, R243, R335). -/

namespace Sys2Proof.Machine

/-- What an address of the 40-bit map reaches (spec/01_planes_and_drumbeat.md, Address map). -/
inductive Region where
  | side (n off : Nat)
  | mirror (off : Nat)
  | sram (off : Nat)
  | rom (off : Nat)
  | regs (off : Nat)
  | undecoded
deriving DecidableEq, Repr

/-- The region of an address. Irreducible: a match on the region of a computed address must not be evaluated by unfolding
its arithmetic. -/
@[irreducible] def region (a : Nat) : Region :=
  if a < 0x0400000000 then .side 0 a
  else if a < 0x0800000000 then .side 1 (a - 0x0400000000)
  else if a < 0x0C00000000 then .mirror (a - 0x0800000000)
  else if 0x0F00000000 ≤ a ∧ a < 0x0F00400000 then .sram (a - 0x0F00000000)
  else if 0x0FF0000000 ≤ a ∧ a < 0x0FF0040000 then .rom (a - 0x0FF0000000)
  else if 0x1000000000 ≤ a ∧ a < 0x1100000000 then .regs (a - 0x1000000000)
  else .undecoded

/-- A granule of 2 MB. -/
def granuleBytes : Nat := 0x200000

/-- The side's record. -/
def State.side (s : State) (n : Nat) : SideState := sget (fun _ => {}) s.sides n

/-- The side's record set. -/
def State.setSide (s : State) (n : Nat) (r : SideState) : State := { s with sides := sput (fun _ => {}) s.sides n r }

/-- A channel of a side. -/
def State.chan (s : State) (n c : Nat) : Chan := sget (fun _ => {}) (s.side n).chans c

/-- A channel of a side set. -/
def State.setChan (s : State) (n c : Nat) (r : Chan) : State :=
  s.setSide n { s.side n with chans := sput (fun _ => {}) (s.side n).chans c r }

/-- MSIDE_n_STATUS.STATE: 0 OFF, 1 TRAINING, 2 INIT, 3 ACTIVE, 4 FROZEN, 5 RESYNC. -/
def State.sideMode (s : State) (n : Nat) : Nat := s.get (Reg.MSIDE_STATUS_STATE n)

/-- Gigabytes fitted on a side. -/
def State.fittedGb (s : State) (n : Nat) : Nat := 4 * ((if n = 0 then s.fittedA.val else s.fittedB.val) + 1)

/-- U in granules: 15/16 of what is installed (R209). It holds before MSIDE_n_CAP shows it, so that the scripts of stage 0
can set regions (R373; DEDUCED, log entry 43). -/
def State.usableGranules (s : State) (n : Nat) : Nat := s.fittedGb n * 480

/-- Usable bytes of a side (R209). -/
def State.usable (s : State) (n : Nat) : Nat := granuleBytes * s.usableGranules n

/-- A side after a freeze and before it is ACTIVE again: FROZEN, TRAINING in a release, or RESYNC (R217, R243). -/
def State.sideDown (s : State) (n : Nat) : Bool :=
  s.sideMode n == 4 || s.sideMode n == 5 || (s.sideMode n == 1 && (s.side n).releasing)

/-- A side that has not finished its start: a read waits for it (R213). -/
def State.sideStarting (s : State) (n : Nat) : Bool :=
  s.sideMode n == 0 || s.sideMode n == 2 || (s.sideMode n == 1 && !(s.side n).releasing)

/-- Whether a side accepts a mirrored write: not while it is FROZEN or TRAINING in a release (R216, R241). -/
def State.sideAccepts (s : State) (n : Nat) : Bool :=
  !(s.sideMode n == 4 || (s.sideMode n == 1 && (s.side n).releasing))

/-- R214: whether a granule of the side offsets lies in a valid entry of the mirror region table. -/
def State.granuleMirrored (s : State) (g : Nat) : Bool :=
  (List.range 32).any fun k =>
    s.bit (Reg.MSIDE_MIRROR_SIZE_VALID 0 k) &&
      decide (s.get (Reg.MSIDE_MIRROR_BASE_GRANULE 0 k) ≤ g
        ∧ g < s.get (Reg.MSIDE_MIRROR_BASE_GRANULE 0 k) + s.get (Reg.MSIDE_MIRROR_SIZE_GRANULES 0 k))

/-- The granules that a range of offsets touches. -/
def granulesOf (off len : Nat) : List Nat :=
  let a := off / granuleBytes
  let b := (off + (len - 1)) / granuleBytes
  (List.range (b - a + 1)).map (a + ·)

/-- R214: whether a whole range of side offsets is mirrored. -/
def State.mirrored (s : State) (off len : Nat) : Bool := (granulesOf off len).all s.granuleMirrored

/-- Whether any byte of a range of side offsets is mirrored (R34). -/
def State.touchesMirrored (s : State) (off len : Nat) : Bool := (granulesOf off len).any s.granuleMirrored

/-- R335: whether a granule of the side offsets lies in a valid SECMEM region. -/
def State.granuleSecure (s : State) (g : Nat) : Bool :=
  (List.range 16).any fun k =>
    s.bit (Reg.SYS_SECMEM_SIZE_VALID k) &&
      decide (s.get (Reg.SYS_SECMEM_BASE_GRANULE k) ≤ g
        ∧ g < s.get (Reg.SYS_SECMEM_BASE_GRANULE k) + s.get (Reg.SYS_SECMEM_SIZE_GRANULES k))

/-- R335: bytes of management SRAM below the split are secure. -/
def State.sramSplit (s : State) : Nat := 0x10000 * min (s.get Reg.SYS_SRAM_SPLIT_UNITS) 64

/-- R335: whether a range holds secure memory. -/
def State.secureMem (s : State) (a len : Nat) : Bool :=
  match region a with
  | .side _ off | .mirror off => (granulesOf off len).any s.granuleSecure
  | .sram off => off < s.sramSplit
  | _ => false

/-- Whether a range lies wholly in installed, decoded memory (R33, R209, R215). -/
def State.installed (s : State) (a len : Nat) : Bool :=
  match region a with
  | .side n off => off + len ≤ s.usable n
  | .mirror off => off + len ≤ s.usable 0 && off + len ≤ s.usable 1 && s.mirrored off len
  | .sram off => off + len ≤ 0x400000
  | .rom off => off + len ≤ 0x40000
  | _ => false

/-- R144, R172, R305: whether a range lies wholly in installed memory: that of a side or of the mirrored view (DEDUCED, log
entry 95). -/
def State.installedRam (s : State) (a len : Nat) : Bool :=
  match region a with
  | .side _ _ | .mirror _ => s.installed a len
  | _ => false

/-! ### Bytes -/

/-- One byte of a side. -/
def State.sideByte (s : State) (n off : Nat) : Byte := sget (fun _ => 0) (if n = 0 then s.memA else s.memB) off

/-- One byte of a side set. -/
def State.setSideByte (s : State) (n off : Nat) (b : Byte) : State :=
  if n = 0 then { s with memA := sput (fun _ => 0) s.memA off b } else { s with memB := sput (fun _ => 0) s.memB off b }

/-- One byte of management SRAM. -/
def State.sramByte (s : State) (off : Nat) : Byte := sget (fun _ => 0) s.sram off

/-- One byte of management SRAM set. -/
def State.setSramByte (s : State) (off : Nat) (b : Byte) : State := { s with sram := sput (fun _ => 0) s.sram off b }

/-- One byte of boot flash; an erased byte reads 0xFF. -/
def State.flashByte (s : State) (off : Nat) : Byte := sget (fun _ => 0xFF) s.flash off

/-- One byte of boot flash set. -/
def State.setFlashByte (s : State) (off : Nat) (b : Byte) : State := { s with flash := sput (fun _ => 0xFF) s.flash off b }

/-- Bytes of a side written from an offset up. -/
def State.putSide (s : State) (n : Nat) : Nat → List Byte → State
  | _, [] => s
  | off, b :: bs => (s.setSideByte n off b).putSide n (off + 1) bs

/-- Bytes of management SRAM written from an offset up. -/
def State.putSram (s : State) : Nat → List Byte → State
  | _, [] => s
  | off, b :: bs => (s.setSramByte off b).putSram (off + 1) bs

/-! ### Addresses (R210) -/

/-- Where a side offset lies (R210). -/
structure DramPlace where
  /-- channel -/
  ch : Nat
  /-- bank -/
  bank : Nat
  /-- row -/
  row : Nat
  /-- byte within the 2 KB page -/
  col : Nat
deriving DecidableEq, Repr

/-- R210: channel, bank, row and column of a side offset. -/
def dramPlace (o : Nat) : DramPlace :=
  let l := o / 64
  let blk := l / 15
  let slot := l % 15
  let q := blk / 8 * 1024 + slot * 64 + o % 64
  let row := q / 2 ^ 15
  { ch := blk % 8, bank := q / 2048 % 16 ^^^ row % 16, row := row, col := q % 2048 }

/-- The pieces of a range of addresses, one for each 64-byte line it touches: address and length. -/
def linePieces (a len : Nat) : List (Nat × Nat) :=
  if len = 0 then []
  else (List.range ((a + (len - 1)) / 64 - a / 64 + 1)).map fun i =>
    let lo := max a ((a / 64 + i) * 64)
    let hi := min (a + len) ((a / 64 + i + 1) * 64)
    (lo, hi - lo)

/-- Whether a write that waits in a side's queues covers an offset. -/
def State.writeWaits (s : State) (n off : Nat) : Bool :=
  (s.chan n (dramPlace off).ch).writeQ.any fun r =>
    let a := if r.mirrored then r.addr - 0x0800000000 else r.addr % 0x0400000000
    decide (a ≤ off ∧ off < a + r.len)

/-- R213, R218: the bytes a read of a side's offsets returns. Before the side's zero initialisation completes they are the zeros it
writes, but for bytes of writes that wait in the side's queues, which are issued after it. -/
def State.sideBytes (s : State) (n off len : Nat) : List Byte :=
  if s.sideStarting n then
    (List.range len).map fun i => if s.writeWaits n (off + i) then s.sideByte n (off + i) else 0
  else (List.range len).map fun i => s.sideByte n (off + i)

/-- R213: whether a write of a range waits for the start of a side it goes to. -/
def State.writeHeld (s : State) (a len : Nat) : Bool :=
  len != 0 && s.installed a len && (match region a with
    | .side n _ => s.sideStarting n
    | .mirror _ => s.sideStarting 0 || s.sideStarting 1
    | _ => false)

/-! ### What waits in the channels (R39) -/

/-- Every request of a channel that is not issued, the reads first. -/
def Chan.waiting (c : Chan) : List MemReq := c.readQ ++ c.writeQ

/-- R39: the rank a waiting request yielded to; its own where nothing of another rank went ahead. -/
def yieldedTo (ahead rank : Nat) : Nat := if ahead = 11 then rank else ahead

/-- R39: the rank a requester port's late data yielded to: the lowest among what the channels issued ahead of the port's requests
that are not complete; `given` where the state holds none of them, and the rank itself where `given` is no rank that a channel can
have issued. -/
def State.portYield (s : State) (port rank given : Nat) : Nat :=
  match ([0, 1].flatMap fun n => (List.range 8).flatMap fun c => (s.chan n c).waiting ++ (s.chan n c).inFlight).filter
      (fun r => r.port == port) with
  | [] => if 2 ≤ given ∧ given ≤ 10 then given else rank
  | rs => yieldedTo (rs.foldl (fun m r => min m r.ahead) 11) rank

/-! ### Reads and writes by a world -/

/-- R217: the side that serves a mirrored read of an offset, with neither side out of service: A where bit 12 is 0. -/
def stripeSide (off : Nat) : Nat := off / 0x1000 % 2

/-- R217, R236: the side that serves a mirrored read; none when both are out of service. -/
def State.servingSide (s : State) (off : Nat) : Option Nat :=
  let n := stripeSide off
  if !s.sideDown n then some n else if !s.sideDown (1 - n) then some (1 - n) else none

/-- R213, R217: whether a read of a range waits for the start of a side that serves it. -/
def State.startWaits (s : State) (a len : Nat) : Bool :=
  len != 0 && s.installed a len && (match region a with
    | .side n _ => s.sideStarting n
    | .mirror off => (List.range (len / 0x1000 + 2)).any fun i =>
        (s.servingSide (off + min (len - 1) (i * 0x1000))).any s.sideStarting
    | _ => false)

/-- How a read of memory ends. -/
inductive RdRes where
  /-- the bytes -/
  | data (bs : List Byte)
  /-- poison (R236, R243) -/
  | poison
  /-- not decoded or not installed (R33) -/
  | decode
  /-- secure memory, refused to the normal world (R335) -/
  | denied
deriving DecidableEq, Repr

/-- What a read of memory by a world gives (R33, R217, R218, R236, R243, R335). -/
def State.readMem (s : State) (w : World) (a len : Nat) : RdRes :=
  if !s.installed a len then .decode
  else if w = .normal ∧ s.secureMem a len then .denied
  else match region a with
    | .side n off => if s.sideDown n then .poison else .data (s.sideBytes n off len)
    | .mirror off =>
      if (List.range len).any (fun i => (s.servingSide (off + i)).isNone) then .poison
      else .data ((List.range len).flatMap fun i => s.sideBytes ((s.servingSide (off + i)).getD 0) (off + i) 1)
    | .sram off => .data ((List.range len).map fun i => s.sramByte (off + i))
    | .rom off => .data ((List.range len).map fun i => Config.bootRom (off + i))
    | _ => .decode

/-- The bytes of a read that succeeds. -/
def State.readBytes (s : State) (w : World) (a len : Nat) : Option (List Byte) :=
  match s.readMem w a len with
  | .data bs => some bs
  | _ => none

/-- How a write of memory ends. -/
inductive WrRes where
  /-- performed -/
  | ok
  /-- not decoded, not installed, or the boot ROM (R33) -/
  | decode
  /-- through a side's range to a mirrored offset (R34) -/
  | mirrored
  /-- secure memory, refused to the normal world (R335) -/
  | denied
  /-- to an unmirrored offset of a side that is out of service (R240) -/
  | dropped
deriving DecidableEq, Repr

/-- R237: a granule's dirty bit is set. -/
def State.markDirty (s : State) (n g : Nat) : State :=
  let a := Reg.MSIDE_DIRTY n (g / 32)
  s.setReg a (s.reg a ||| BitVec.ofNat 32 (2 ^ (g % 32)))

/-- Whether a granule is dirty (R237). -/
def State.isDirty (s : State) (n g : Nat) : Bool := bitOf (s.reg (Reg.MSIDE_DIRTY n (g / 32))).toNat (g % 32)

/-- R242: a mirrored write of some bytes from an offset cancels the copy engine's writes of the lines in flight it reaches; a line
it covers in part only is read again (DEDUCED, log entry 79). -/
def SideState.cancel (r : SideState) (off len : Nat) : SideState :=
  let hit := fun (l : Nat) => decide (64 * l < off + len ∧ off < 64 * l + 64)
  { r with flight := r.flight.filter (fun p => !hit p.1),
           again := r.again ++ (r.flight.map (·.1)).filter fun l => hit l && decide (64 * l < off ∨ off + len < 64 * l + 64) }

/-- R216, R237, R242: a mirrored write reaches each side that accepts it, and marks its granules dirty on one that does
not. -/
def State.putMirrored (s : State) (off : Nat) (bs : List Byte) : State :=
  s.each [0, 1] fun n t =>
    if t.sideAccepts n then (t.putSide n off bs).setSide n ((t.side n).cancel off bs.length) else t.each (granulesOf off bs.length) (fun g u => u.markDirty n g)

/-- A write of memory by a world: how it ends, and the state after it (R33, R34, R216, R237, R240, R335). A write to a side's
own range that is mirrored only in part is discarded whole (DESIGN CHOICE, log entry 99). -/
def State.writeMem (s : State) (w : World) (a : Nat) (bs : List Byte) : WrRes × State :=
  if bs.isEmpty then (.ok, s)
  else match region a with
    | .rom _ => (.decode, s)
    | .side n off =>
      if !s.installed a bs.length then (.decode, s)
      else if s.touchesMirrored off bs.length then (.mirrored, s)
      else if w = .normal ∧ s.secureMem a bs.length then (.denied, s)
      else if s.sideDown n then (.dropped, s)
      else (.ok, s.putSide n off bs)
    | .mirror off =>
      if !s.installed a bs.length then (.decode, s)
      else if w = .normal ∧ s.secureMem a bs.length then (.denied, s)
      else (.ok, s.putMirrored off bs)
    | .sram off =>
      if !s.installed a bs.length then (.decode, s)
      else if w = .normal ∧ s.secureMem a bs.length then (.denied, s)
      else (.ok, s.putSram off bs)
    | _ => (.decode, s)

/-! ### Acceptance (R212, R216, R229, R233) -/

/-- R229: the requester port of a requester. -/
def requesterPort (m : Master) (write : Bool) : Nat :=
  match m.kind with
  | .fabric => m.id.val
  | .core => 27 + m.id.val
  | .guest => 16 + 2 * m.id.val + b2n (!write)
  | .debug => 35

/-- A request enters a channel's queue; a read of a bank and row with a queued write makes the bank serve in arrival order
(R233). -/
def State.accept (s : State) (n off : Nat) (r : MemReq) : State :=
  let pl := dramPlace off
  let c := s.chan n pl.ch
  let r := { r with bank := pl.bank, row := pl.row }
  let c := if r.write then { c with writeQ := c.writeQ ++ [r] }
    else
      let hit := c.writeQ.any fun w => w.bank == pl.bank && w.row == pl.row
      { c with readQ := c.readQ ++ [r],
               ordered := if hit then (pl.bank, r.id) :: c.ordered.filter (fun p => p.1 != pl.bank) else c.ordered }
  s.setChan n pl.ch c

/-- R212: whether a write that the guest port holds is one of those that may fill a line with another. -/
def MemReq.fills (q r : MemReq) : Bool :=
  q.merging && q.port == r.port && q.mirrored == r.mirrored && q.addr / 64 == r.addr / 64 && decide (q.age < 100)

/-- R212: a posted write of part of a line reaches the guest port, which holds it: where it fills the line with those held
before it, within 100 ns, they are one write of the whole line, in the place of the oldest. -/
def State.acceptPosted (s : State) (n off : Nat) (r : MemReq) : State :=
  let c := s.chan n (dramPlace off).ch
  let held := c.writeQ.filter (·.fills r)
  let full := (List.range 64).all fun i =>
    (r :: held).any fun q => decide (q.addr ≤ r.addr / 64 * 64 + i ∧ r.addr / 64 * 64 + i < q.addr + q.len)
  match held, full with
  | oldest :: _, true =>
    let one := fun (q : MemReq) =>
      if !q.fills r then some q
      else if q.id = oldest.id then some { q with addr := r.addr / 64 * 64, len := 64, merging := false } else none
    s.setChan n (dramPlace off).ch { c with writeQ := c.writeQ.filterMap one }
  | _, _ => s.accept n off { r with merging := decide (r.len < 64) }

/-- A write's part for one line enters the write queue of a channel; a posted one of a guest goes by its port's merging. -/
def State.writePiece (s : State) (m : Master) (mirrored : Bool) (n base : Nat) (p : Nat × Nat) : State :=
  let r : MemReq := { id := s.nextReq, write := true, addr := p.1, len := p.2, mirrored := mirrored,
                      port := requesterPort m true, master := m }
  if m.kind = .guest then s.acceptPosted n (p.1 - base) r else s.accept n (p.1 - base) r

/-- The parts of a performed write enter the queues of the sides that accept it (R216). -/
def State.queueWrite (s : State) (m : Master) (a len : Nat) : State :=
  match region a with
  | .side n _ =>
    s.each (linePieces a len) fun p t =>
      { t.writePiece m false n (if n = 0 then 0 else 0x0400000000) p with nextReq := t.nextReq + 1 }
  | .mirror _ =>
    s.each (linePieces a len) fun p t =>
      let u := t.each [0, 1] fun n v => if v.sideAccepts n then v.writePiece m true n 0x0800000000 p else v
      { u with nextReq := t.nextReq + 1 }
  | _ => s

end Sys2Proof.Machine
end

