-- ==== Sys2Proof/Machine/BboxOps.lean ====
section
/-! DEFINITION. The black-box writer: its queue, when it commits, and what it programs into the flash partition (R434 to
R440, R442). -/

namespace Sys2Proof.Machine

/-- Bytes of one page of the partition (R434). -/
def bboxPageBytes : Nat := 0x10000

/-- Flash offset of a slot (R434). -/
def State.bboxSlotAt (s : State) (page slot : Nat) : Nat := s.bbox.offset + page * bboxPageBytes + slot * 64

/-- R435: the CRC of a slot's first 60 bytes behind the prefix of its flash offset and PAGE_SEQ. -/
def bboxCrc (at_ pageSeq : Nat) (body : List Byte) : Nat :=
  crc32c (leBytes 8 at_ ++ leBytes 4 pageSeq ++ leBytes 4 0 ++ body)

/-- R434: a page header. -/
def bboxHeader (at_ pageSeq : Nat) : List Byte :=
  let body : List Byte := [0x47, 0x44, 0x42, 0x42, 0x01, 0, 0, 0] ++ leBytes 8 pageSeq
    ++ leBytes 8 Config.deviceSerial.toNat ++ leBytes 36 0
  body ++ leBytes 4 (bboxCrc at_ pageSeq body)

/-- R434: a record in its slot. -/
def bboxRecord (at_ pageSeq slot : Nat) (r : BboxRec) : List Byte :=
  let body : List Byte := leBytes 2 r.kind ++ leBytes 2 slot ++ leBytes 4 pageSeq ++ leBytes 8 r.drum ++ leBytes 5 r.sec
    ++ leBytes 2 r.frac ++ [BitVec.ofNat 8 (r.origin + 4 * b2n r.timeValid)]
    ++ (r.payload ++ leBytes 32 0).take 32 ++ leBytes 4 0
  body ++ leBytes 4 (bboxCrc at_ pageSeq body)

/-- A flash program clears bits and sets none. -/
def State.programFlash (s : State) : Nat → List Byte → State
  | _, [] => s
  | off, b :: bs => (s.setFlashByte off (s.flashByte off &&& b)).programFlash (off + 1) bs

/-- A flash erase leaves every byte of a range at 0xFF. -/
def State.eraseFlash (s : State) (off len : Nat) : State :=
  { s with flash := s.flash.filter (fun c => !(decide (off ≤ c.1 ∧ c.1 < off + len))) }

/-- Bytes of flash. -/
def State.flashBytes (s : State) (off len : Nat) : List Byte := (List.range len).map fun i => s.flashByte (off + i)

/-- Whether a range of flash is erased. -/
def State.flashErased (s : State) (off len : Nat) : Bool :=
  s.flash.all (fun c => !(decide (off ≤ c.1 ∧ c.1 < off + len)))

/-- A field of the header in use, by its place and length; 0 where no copy is valid (R360). -/
def State.hdr (s : State) (at_ n : Nat) : Nat := leAt s.boot.header at_ n

/-- The device drives the flash's pins. -/
def State.flashDrive (s : State) (op : FlashOp) : State := { s with boot := { s.boot with flashBus := s.boot.flashBus ++ [op] } }

/-- R438: the writer starts a program or an erase with the header's commands: write enable, and the command at a place of the header. -/
def State.bboxDrive (s : State) (cmd addr : Nat) (data : List Byte) : State :=
  (s.flashDrive (.service (s.hdr 14 1))).flashDrive (.serviceWrite (s.hdr cmd 1) addr data)

/-- R384, R438: the polls of the status register that end a program or an erase. -/
def State.bboxPoll (s : State) : State := s.flashDrive (.service (s.hdr 13 1))

/-- R440: a suspended erase goes on, with RESUME_CMD. -/
def State.bboxResume (s : State) : State :=
  if s.bit Reg.BBOX_STATUS_SUSPENDED then
    (s.flashDrive (.service (s.get Reg.BBOX_CFG_RESUME_CMD))).set Reg.BBOX_STATUS_SUSPENDED 0
  else s

/-- The writer's queue set; PENDING follows it (R438). -/
def State.setBboxQueue (s : State) (q : List BboxRec) : State :=
  ({ s with bbox := { s.bbox with queue := q } }).set Reg.BBOX_STATUS_PENDING q.length

/-- R438: how many records the next program covers: consecutive slots within one 256-byte flash page. -/
def State.bboxRun (s : State) : Nat := min s.bbox.queue.length (4 - s.get Reg.BBOX_HEAD_SLOT % 4)

/-- A brownout holds (FLT_0_STATUS.BROWNOUT). -/
def State.brownout (s : State) : Bool := s.bit Reg.FLT_STATUS_BROWNOUT

/-- Whether the writer programs or erases now. -/
def State.bboxActive (s : State) : Bool :=
  s.bit Reg.BBOX_STATUS_COMMITTING || (s.bit Reg.BBOX_STATUS_ERASING && !s.bit Reg.BBOX_STATUS_SUSPENDED)

/-- R384: a BOOT_0_FLASH_CMD command that waits begins once the writer is not active. -/
def State.flashTurn (s : State) : State :=
  if s.bit Reg.BOOT_FLASH_STATUS_BUSY && !s.bboxActive then { s with boot := { s.boot with running := true } } else s

/-- R437: the flash offset of the page ahead of the head. -/
def State.bboxAhead (s : State) : Nat := s.bboxSlotAt ((s.get Reg.BBOX_HEAD_PAGE + 1) % 128) 0

/-- The PAGE_SEQ of the page ahead. -/
def State.bboxNextSeq (s : State) : Nat := (s.get Reg.BBOX_PAGE_SEQ_SEQ + 1) % 2 ^ 32

/-- R434: the bytes of a pending record in the slot of the head page that it takes, by its place in the queue. -/
def State.bboxRecordBytes (s : State) (i : Nat) (r : BboxRec) : List Byte :=
  let slot := s.get Reg.BBOX_HEAD_SLOT + i
  bboxRecord (s.bboxSlotAt (s.get Reg.BBOX_HEAD_PAGE) slot) (s.get Reg.BBOX_PAGE_SEQ_SEQ) slot r

/-- R437: an erase of the next 4 KB of the page ahead starts. -/
def State.bboxErase (s : State) : State :=
  (s.bboxDrive 11 (s.bboxAhead + 4096 * s.bbox.erased) []).set Reg.BBOX_STATUS_ERASING 1

/-- R438: a program of the next records starts, within one 256-byte flash page. -/
def State.bboxProgram (s : State) : State :=
  let n := s.bboxRun
  let data := (s.bbox.queue.take n).zipIdx.flatMap fun p => s.bboxRecordBytes p.2 p.1
  let s := s.bboxDrive 10 (s.bboxSlotAt (s.get Reg.BBOX_HEAD_PAGE) (s.get Reg.BBOX_HEAD_SLOT)) data
  ({ s with bbox := { s.bbox with inProgram := n } }).set Reg.BBOX_STATUS_COMMITTING 1

/-- R437: a program of the header of the next page starts. -/
def State.bboxOpen (s : State) : State :=
  let s := s.bboxDrive 10 s.bboxAhead (bboxHeader s.bboxAhead s.bboxNextSeq)
  ({ s with bbox := { s.bbox with opening := true } }).set Reg.BBOX_STATUS_COMMITTING 1

/-- R437, R438, R440: what the writer does next, when nothing runs in the flash: it programs the next records of a commit,
or opens the next page for them once that page is erased, or erases the page ahead while nothing is pending and no warning
holds. -/
def State.bboxNext (s : State) : State :=
  if !s.bit Reg.BBOX_STATUS_READY || s.bboxActive || s.boot.running then s
  else if s.bbox.commitWanted && !s.bbox.queue.isEmpty then
    if !s.bbox.full then s.bboxProgram
    else if s.bbox.erased ≥ 16 then s.bboxOpen
    else if s.bit Reg.BBOX_STATUS_ERASING then s.bboxResume
    else s.bboxErase
  else if s.bbox.queue.isEmpty && !s.brownout && s.bbox.erased < 16 && !s.bit Reg.BBOX_STATUS_ERASING then
    s.bboxErase
  else s

/-- The writer goes on; where it does not, a flash command that waits begins. -/
def State.bboxAdvance (s : State) : State := s.bboxNext.flashTurn

/-- R438: a commit is due. -/
def State.bboxCommit (s : State) : State :=
  if s.bbox.queue.isEmpty then s
  else ({ s with bbox := { s.bbox with commitWanted := true } }).bboxAdvance

/-- A record enters the queue; four pending, or one of the writer's own, start a commit (R438). -/
def State.bboxEnter (s : State) (r : BboxRec) : State :=
  let s := s.setBboxQueue (s.bbox.queue ++ [r])
  if r.origin = 0 ∨ 4 ≤ s.bbox.queue.length then s.bboxCommit else s

/-- A record with the time and drumbeat of now. -/
def State.bboxStamp (s : State) (kind origin : Nat) (payload : List Byte) : BboxRec :=
  { kind := kind, payload := payload, origin := origin, sec := s.rtc.sec, frac := s.rtc.frac,
    timeValid := s.bit Reg.RTC_STATUS_VALID, drum := s.drumbeat }

/-- R438, R439: the writer's own record, in one of the four entries of the queue that are kept for it; with none free it is lost
(DEDUCED, log entry 94). -/
def State.bboxOwn (s : State) (kind : Nat) (payload : List Byte) : State :=
  if 4 ≤ (s.bbox.queue.filter fun r => r.origin == 0).length then s else s.bboxEnter (s.bboxStamp kind 0 payload)

/-- R437, R442: the header of the next page is written: that page is the head, LEDGER_DUE is set, and the erase of the
page after it is due. -/
def State.bboxOpened (s : State) : State :=
  let page := (s.get Reg.BBOX_HEAD_PAGE + 1) % 128
  let seq := s.bboxNextSeq
  let s := s.bboxPoll.programFlash s.bboxAhead (bboxHeader s.bboxAhead seq)
  let s := ((s.set Reg.BBOX_HEAD_PAGE page).set Reg.BBOX_HEAD_SLOT 1).set Reg.BBOX_PAGE_SEQ_SEQ seq
  let s := (s.count Reg.BBOX_COUNTS_PAGES).set Reg.BBOX_STATUS_COMMITTING 0
  let s := { s with bbox := { s.bbox with opening := false, full := false, erased := 0 } }
  if s.bit Reg.BBOX_STATUS_LEDGER_DUE then s else (s.set Reg.BBOX_STATUS_LEDGER_DUE 1).raiseIrq 119

/-- R437, R438: the records of the program under way are in flash and verified, slot after slot. -/
def State.bboxProgrammed (s : State) : State :=
  let n := s.bbox.inProgram
  let slot := s.get Reg.BBOX_HEAD_SLOT
  let s := s.bboxPoll.each (s.bbox.queue.take n).zipIdx fun p t =>
    t.programFlash (t.bboxSlotAt (t.get Reg.BBOX_HEAD_PAGE) (slot + p.2)) (t.bboxRecordBytes p.2 p.1)
  let s := (s.count Reg.BBOX_COUNTS_RECORDS n).setBboxQueue (s.bbox.queue.drop n)
  let s := (s.set Reg.BBOX_HEAD_SLOT (slot + n)).set Reg.BBOX_STATUS_COMMITTING 0
  { s with bbox := { s.bbox with inProgram := 0, full := decide (1024 ≤ slot + n),
                                 committed := s.bbox.committed + n,
                                 commitWanted := s.bbox.commitWanted && !s.bbox.queue.isEmpty } }

end Sys2Proof.Machine
end

