-- ==== Sys2Proof/Machine/FaultOps.lean ====
section
/-! DEFINITION. What the fault collector records of an event: status, first-error capture, logbook record, reaction
interrupt sources, and the stop of the toll (R387, R398, R400, R402, R433, R439). The reactions themselves are in
Machine/Faults.lean. -/

namespace Sys2Proof.Machine

/-- What first-error capture takes of an access (R400). -/
structure Capture where
  /-- address of the access -/
  addr : Nat
  /-- TYPE: 1 memory read, 2 memory write, 3 fetch, 4 register read, 5 register write -/
  type : Nat
  /-- who made it -/
  master : Master
deriving DecidableEq, Repr

/-- FE_MASTER.KIND of a requester. -/
def masterKindCode : MasterKind → Nat
  | .fabric => 0 | .core => 1 | .guest => 2 | .debug => 3

/-- The WORLD bit of FE_INFO: 1 secure. -/
def worldCode : World → Nat
  | .secure => 1 | .normal => 0

/-- R483: the inputs whose condition lasts (LEVEL = 1). -/
def levelInputs : List Nat :=
  [3, 4, 6, 7] ++ List.range' 64 8 ++ List.range' 88 32 ++ [128, 129] ++ List.range' 160 8 ++ List.range' 192 16

/-- R483: whether an input's lasting condition holds. -/
def State.faultLive (s : State) (k : Nat) : Bool :=
  if k = 3 then s.bit Reg.DRUM_STATUS_HOLDOVER
  else if k = 4 then s.brownout
  else if k = 6 then s.bit Reg.SYS_SEC_STATUS_DOWN
  else if k = 7 then !(s.get (Reg.SXT_STATUS_STATE 0) ≤ 1 || s.get (Reg.SXT_STATUS_STATE 1) ≤ 1)
  else if 64 ≤ k ∧ k ≤ 71 then s.exhausted.contains (k - 64)
  else if 88 ≤ k ∧ k ≤ 95 then s.bit (Reg.PROT_STATUS_STALE (k - 88))
  else if 96 ≤ k ∧ k ≤ 103 then !s.bit (Reg.DPO_LINK_STATUS_LINK_OK (k - 96))
  else if 104 ≤ k ∧ k ≤ 111 then s.bit (Reg.DPO_LINK_STATUS_DEGRADED (k - 104))
  else if 112 ≤ k ∧ k ≤ 119 then !s.bit (Reg.DPO_LINK_STATUS_HPD (k - 112))
  else if 128 ≤ k ∧ k ≤ 129 then s.sideDown (k - 128)
  else if 160 ≤ k ∧ k ≤ 167 then s.get (Reg.TSL_STATUS_STATE (k - 160)) != 3
  else if 192 ≤ k ∧ k ≤ 207 then s.get (Reg.HC_STATUS_STATE (k - 192)) == 4
  else false

/-- R398: a lasting condition ends: TRANSIENT is set while CAUSE is 1. -/
def State.liveFell (s : State) (k : Nat) : State :=
  if s.bit (Reg.FLT_IN_STATUS_CAUSE k) then s.set (Reg.FLT_IN_STATUS_TRANSIENT k) 1 else s

/-- Nanoseconds from reset release: the time CSR, which counts the 25 MHz reference, times 40 (R400). -/
def State.timeNs (s : State) : Nat := s.clock / 40 * 40

/-- R400: first-error capture of an event: filled when nothing is held, else MORE counts. -/
def State.firstError (s : State) (k : Nat) (c : Capture) : State :=
  if s.bit Reg.FLT_FE_STATUS_VALID then s.count Reg.FLT_FE_STATUS_MORE
  else
    let s := ((s.set Reg.FLT_FE_STATUS_VALID 1).set Reg.FLT_FE_STATUS_MORE 0).set Reg.FLT_FE_ADDR_ADDR c.addr
    let s := ((s.set Reg.FLT_FE_INFO_INPUT k).set Reg.FLT_FE_INFO_WORLD (worldCode c.master.world)).set Reg.FLT_FE_INFO_TYPE c.type
    let s := s.set Reg.FLT_FE_INFO_ADDR_HI (c.addr / 2 ^ 32)
    let s := (s.set Reg.FLT_FE_MASTER_KIND (masterKindCode c.master.kind)).set Reg.FLT_FE_MASTER_ID c.master.id.val
    let s := s.set Reg.FLT_FE_MASTER_SESSION (if c.master.kind = .guest then c.master.session.val else 0)
    let s := (s.set Reg.FLT_FE_NS_LO_NS s.timeNs).set Reg.FLT_FE_NS_HI_NS (s.timeNs / 2 ^ 32)
    let s := (s.set Reg.FLT_FE_DRUM_LO_DRUM s.drumbeat).set Reg.FLT_FE_DRUM_HI_DRUM (s.drumbeat / 2 ^ 32)
    s.raiseIrq 132

/-- R387: the class an input has now. -/
def State.faultClass (s : State) (k : Nat) : Nat := s.get (Reg.FLT_IN_CFG_CLASS k)

/-- R439: the C3 record of the black-box writer, up to four per device reset. -/
def State.bboxC3 (s : State) (k : Nat) : State :=
  if 4 ≤ s.bbox.c3Records then s.count Reg.BBOX_COUNTS_C3_OVER
  else
    let s := { s with bbox := { s.bbox with c3Records := s.bbox.c3Records + 1 } }
    let fe := s.bit Reg.FLT_FE_STATUS_VALID
    let w := fun (a : Nat) => leBytes 4 (s.reg a).toNat
    s.bboxOwn 0x0005 (leBytes 2 k ++ [if fe then 1 else 0, 0] ++
      (w Reg.FLT_FE_ADDR ++ w Reg.FLT_FE_INFO ++ w Reg.FLT_FE_MASTER ++ w Reg.FLT_FE_NS_LO ++ w Reg.FLT_FE_NS_HI))

/-- R387, R398, R400, R433: an input raises an event: its status, the capture, the reaction sources of its class, the
logbook record and, for C3, the black-box record. `as` is the class it is handled as, where that is not the class of the
input (R389). A self-test under way is abandoned (R404). -/
def State.faultRecord (s : State) (k : Nat) (c : Option Capture := none) (as : Option Nat := none) : State :=
  let cls := as.getD (s.faultClass k)
  let s := (s.set (Reg.FLT_IN_STATUS_CAUSE k) 1).set (Reg.FLT_IN_STATUS_TRANSIENT k)
    (if s.bit (Reg.FLT_IN_STATUS_CAUSE k) then s.get (Reg.FLT_IN_STATUS_TRANSIENT k) else 0)
  let s := s.count (Reg.FLT_IN_STATUS_EVENTS k)
  let held := s.bit Reg.FLT_FE_STATUS_VALID
  let s := match c with | some cap => s.firstError k cap | none => s
  let captured := c.isSome && !held
  let s := s.raiseIrq (128 + cls)
  let s := s.logEvent (0x0200 + k) (s.get (Reg.FLT_IN_CFG_UNIT k)) (s.get (Reg.FLT_IN_CFG_INSTANCE k))
    (cls + 256 * b2n (s.faultLive k)) (s.drumbeat % 2 ^ 32)
    (if captured then (s.reg Reg.FLT_FE_INFO).toNat else 0) (if captured then (s.reg Reg.FLT_FE_ADDR).toNat else 0)
  let s := if cls = 3 then s.bboxC3 k else s
  if s.bit Reg.FLT_SELFTEST_GO then
    (((s.set Reg.FLT_SELFTEST_GO 0).set Reg.FLT_SELFTEST_DONE 1).set Reg.FLT_SELFTEST_PASS 0).set Reg.FLT_SELFTEST_ABANDONED 1
  else s

/-- R402: the toll stops: ALIVE is driven low, STOPPED and its cause are set, and a TOLL_STOP record is written. -/
def State.stopToll (s : State) (cause : Nat) : State :=
  if !s.bit Reg.FLT_TOLL_STATUS_RUNNING then s
  else
    let s := (s.set Reg.FLT_TOLL_STATUS_RUNNING 0).set Reg.FLT_TOLL_STATUS_STOP_CAUSE cause
    let s := (s.set Reg.FLT_TOLL_STATUS_STOPPED 1).count Reg.FLT_TOLL_STATUS_EVENTS
    let s := { s with alive := .low }
    (s.logEvent 0x0004 0x1A 0 cause 0 0 0).raiseIrq 133

/-! ### The C0 notes of the fabric (R4, R33, R34, R335) -/

/-- REG_ACCESS (R4). -/
def State.noteRegAccess (s : State) (c : Capture) : State := s.faultRecord 0 (some c)
/-- DECODE (R33, R34, R36). -/
def State.noteDecode (s : State) (c : Capture) : State := s.faultRecord 1 (some c)
/-- SECMEM (R335). -/
def State.noteSecmem (s : State) (c : Capture) : State := s.faultRecord 2 (some c)

/-! ### Memory accesses of the data plane (R33, R34, R240, R335) -/

/-- A requester port of the fabric, in the world its unit's owner gives it. -/
def fabricMaster (port : Nat) (w : World) : Master := { kind := .fabric, id := Fin.ofNat 64 port, session := 0, world := w }

/-- A write by a unit of the data plane: where it cannot be performed it is discarded; a write to what is not decoded or
installed, or through a side's range to a mirrored offset, raises DECODE (R33, R34), and one to an unmirrored offset of a
side that is out of service counts in DROPPED (R240). One to a side that has not finished its start waits in the side's queues
(R213, R218). -/
def State.dmaWrite (s : State) (w : World) (port a : Nat) (bs : List Byte) : State :=
  match s.writeMem w a bs with
  | (.ok, t) => if s.writeHeld a bs.length then t.queueWrite (fabricMaster port w) a bs.length else t
  | (.dropped, t) => t.count (Reg.QOS_STATUS_DROPPED port)
  | (.denied, t) => t
  | (_, t) => t.noteDecode { addr := a, type := 2, master := fabricMaster port w }

/-- A read by a unit of the data plane: its bytes, or none where it returns poison (R236, R243, R335) or an error
response (R33). A unit makes none while `State.startWaits` holds its read (R213). -/
def State.dmaRead (s : State) (w : World) (port a len : Nat) : Option (List Byte) × State :=
  match s.readMem w a len with
  | .data bs => (some bs, s)
  | .decode => (none, s.noteDecode { addr := a, type := 1, master := fabricMaster port w })
  | _ => (none, s)

end Sys2Proof.Machine
end

