-- ==== Sys2Proof/Machine/Bbox.lean ====
section
/-! DEFINITION. The commands of the black box (R437, R438, R440, R442, R444). -/

namespace Sys2Proof.Machine

/-- A W1C event of BBOX_0_STATUS; source 119 is raised when LATE or FULL goes from 0 to 1. -/
def State.bboxEvent (s : State) (flag : Fld) (irq : Bool) : State :=
  let rises := !s.bit flag
  let s := (s.set flag 1).count Reg.BBOX_STATUS_EVENTS
  if irq && rises then s.raiseIrq 119 else s

/-- R444: ORIGIN of an appended record: the boot ROM while STAGE is 0x0 to 0x6, the secure world after that. -/
def State.appendOrigin (s : State) : Nat := if s.get Reg.BOOT_STATUS_STAGE ≤ 6 then 1 else 2

/-- R443, R444: whether a KIND may be appended. -/
def kindAllowed (kind origin : Nat) : Bool :=
  (kind == 1 && origin == 1) || kind == 2 || kind == 3 || kind == 0x10 || (kind == 0x11 && origin == 1) || kind == 0x20
    || (0x8000 ≤ kind && kind ≤ 0xFFFE)

/-- R444: whether twelve appended records are pending. -/
def State.appendFull (s : State) : Bool := 12 ≤ (s.bbox.queue.filter fun r => r.origin != 0).length

/-- R438, R442: a record is appended where one of the twelve entries is free, or FULL is set; the next LEDGER append clears
LEDGER_DUE. -/
def State.bboxQueueRecord (s : State) (kind origin : Nat) (payload : List Byte) : State :=
  if s.appendFull then s.bboxEvent Reg.BBOX_STATUS_FULL true
  else
  let s := if kind = 0x20 then s.set Reg.BBOX_STATUS_LEDGER_DUE 0 else s
  s.bboxEnter (s.bboxStamp kind origin payload)

/-- R444: a record of a kind is appended, with ORIGIN as STAGE gives it, or refused. -/
def State.bboxPut (s : State) (kind : Nat) (payload : List Byte) : State :=
  let full := s.appendFull
  let bad := !kindAllowed kind s.appendOrigin
  let s := s.when full (·.bboxEvent Reg.BBOX_STATUS_FULL true)
  let s := s.when bad (·.bboxEvent Reg.BBOX_STATUS_BAD_KIND false)
  if full || bad then s else s.bboxQueueRecord kind s.appendOrigin payload

/-- R444: APPEND queues the staged record, or is refused. -/
def State.bboxAppend (s : State) : State :=
  s.bboxPut (s.get Reg.BBOX_APPEND_KIND_KIND) ((List.range 8).flatMap fun d => leBytes 4 (s.reg (Reg.BBOX_APPEND_D d)).toNat)

/-- BBOX_0_CMD is written. -/
def State.bboxCmdWrite (s : State) (v : Word) : State :=
  let s := if bitOf v.toNat 0 then s.bboxAppend else s
  if bitOf v.toNat 1 then s.bboxCommit else s

/-- BBOX_APPEND. -/
def execBboxAppend (w : World) (v : Word) (s : State) : Host.Outcome State Fault Refusal :=
  .next (s.asWriter w 0x1B 0 false (·.bboxCmdWrite (withBit v 0)))

/-- BBOX_FLUSH_NOW. -/
def execBboxFlushNow (w : World) (v : Word) (s : State) : Host.Outcome State Fault Refusal :=
  .next (s.asWriter w 0x1B 0 false (·.bboxCmdWrite (withBit v 1)))

/-- BBOX_FLUSH_TIMER: the oldest pending record has waited for FLUSH. -/
def execBboxFlushTimer (s : State) : Host.Outcome State Fault Refusal := .next s.bboxCommit

/-- BBOX_PROGRAM_DONE: the program under way is complete and verified. -/
def execBboxProgramDone (s : State) : Host.Outcome State Fault Refusal :=
  .next (if s.bit Reg.BBOX_STATUS_COMMITTING then (if s.bbox.opening then s.bboxOpened else s.bboxProgrammed).bboxAdvance else s)

/-- R437: the 4 KB erase under way completes: the next sector of the page ahead is erased. -/
def State.bboxErased (s : State) : State :=
  if !s.bit Reg.BBOX_STATUS_ERASING || s.bit Reg.BBOX_STATUS_SUSPENDED then s
  else
    let s := s.bboxPoll.eraseFlash (s.bboxAhead + 4096 * s.bbox.erased) 4096
    let s := { s with bbox := { s.bbox with erased := s.bbox.erased + 1 } }
    (s.set Reg.BBOX_STATUS_ERASING 0).bboxAdvance

/-- BBOX_ERASE_DONE. -/
def execBboxEraseDone (s : State) : Host.Outcome State Fault Refusal := .next s.bboxErased

/-- BBOX_LATE: the commit of a warning took so many microseconds, more than 3 ms (R440). -/
def execBboxLate (us : Nat) (s : State) : Host.Outcome State Fault Refusal :=
  .next (if 3000 < us then
      (s.bboxEvent Reg.BBOX_STATUS_LATE true).logEvent 0x000A 0x1A 0 us s.bbox.committed 0 0
    else s)

end Sys2Proof.Machine
end

