-- ==== Sys2Proof/Machine/SessOps.lean ====
section
/-! DEFINITION. What units do with a session: its interrupt bits and MSI-X messages (R62), the translation of its
aperture offsets (R63, R65), and the record ring of its touch queue (R59, R60). -/

namespace Sys2Proof.Machine

/-- A session's record. -/
def State.ses (s : State) (n : Nat) : SessState := sget (fun _ => {}) s.sess n

/-- A session's record set. -/
def State.setSes (s : State) (n : Nat) (r : SessState) : State := { s with sess := sput (fun _ => {}) s.sess n r }

/-- A function's record; its key is port × 16 + function. -/
def State.func (s : State) (f : Nat) : FuncState := sget (fun _ => {}) s.funcs f

/-- A function's record set. -/
def State.setFunc (s : State) (f : Nat) (r : FuncState) : State := { s with funcs := sput (fun _ => {}) s.funcs f r }

/-- The function a session is bound to. -/
def State.sessFunc (s : State) (n : Nat) : Nat := s.get (Reg.SESS_CTRL_PORT n) * 16 + s.get (Reg.SESS_CTRL_FUNC n)

/-- An MSI-X table word as reset leaves it: every vector masked, all else 0 (PCIe base specification; log entry 6). -/
def msixReset (i : Nat) : Word := if i % 4 = 3 then 1 else 0

/-- A word of a function's MSI-X table. -/
def FuncState.word (f : FuncState) (i : Nat) : Word := sget msixReset f.table i

/-- R62: a function's vector is signalled: the message is sent, or its pending bit is set while the vector or the
function is masked; nothing happens while MSI-X is not enabled. -/
def State.msixSend (s : State) (f v : Nat) : State :=
  let r := s.func f
  if !r.msixOn then s
  else if r.msixMask || bitOf (r.word (4 * v + 3)).toNat 0 then s.setFunc f { r with pba := setBitOf r.pba v }
  else { s with msix := s.msix ++ [{ port := f / 16, func := f % 16, addrLo := r.word (4 * v), addrHi := r.word (4 * v + 1),
                                     data := r.word (4 * v + 2) }] }

/-- R62: the session's MSI-X message; sessions 0 and 1 have no function (R49). -/
def State.sessMessage (s : State) (n : Nat) : State :=
  if n ≤ 1 then s else s.msixSend (s.sessFunc n) (s.get (Reg.SESS_IRQ_VECTOR_VECTOR n))

/-- R62: whether a session of a function has an enabled interrupt bit set and names a vector. -/
def State.vectorCause (s : State) (f v : Nat) : Bool :=
  (List.range 256).any fun m => decide (2 ≤ m) && s.sessFunc m == f && s.get (Reg.SESS_IRQ_VECTOR_VECTOR m) == v
    && (s.reg (Reg.SESS_IRQ_STATUS m) &&& s.reg (Reg.SESS_IRQ_ENABLE m)) != 0

/-- R62: IRQ_STATUS is written: bits written 1 clear, and a message that is pending while masked is dropped once nothing causes it
any more (the MSI-X rule of the PCIe base specification). -/
def State.irqStatusWrite (s : State) (n : Nat) (v : Word) : State :=
  let s := s.plainWrite (Reg.SESS_IRQ_STATUS n) v
  let f := s.sessFunc n
  let k := s.get (Reg.SESS_IRQ_VECTOR_VECTOR n)
  if decide (2 ≤ n) && bitOf (s.func f).pba k && !s.vectorCause f k then
    s.setFunc f { s.func f with pba := clearBitOf (s.func f).pba k }
  else s

/-- R62: a bit of IRQ_STATUS is set; on a rise with its ENABLE bit 1 the message is sent. -/
def State.sessIrq (s : State) (n bit : Nat) : State :=
  let a := Reg.SESS_IRQ_STATUS n
  let old := s.reg a
  let s := s.setReg a (old ||| BitVec.ofNat 32 (2 ^ bit))
  if !bitOf old.toNat bit && bitOf (s.reg (Reg.SESS_IRQ_ENABLE n)).toNat bit then s.sessMessage n else s

/-- IRQ_STATUS bit of TQ_NEW. -/
def irqTqNew : Nat := 0
/-- IRQ_STATUS bit of TQ_OVERFLOW. -/
def irqTqOverflow : Nat := 1
/-- IRQ_STATUS bit of COMMIT. -/
def irqCommit : Nat := 2
/-- IRQ_STATUS bit of BAR2_ERR. -/
def irqBar2Err : Nat := 3

/-- An event of PAGE_STATUS. -/
def State.pageEvent (s : State) (n : Nat) (flag : Fld) : State := (s.set flag 1).count (Reg.SESS_PAGE_STATUS_EVENTS n)

/-- An event of SESS_n_STATUS: source 192 + n. -/
def State.sessEvent (s : State) (n : Nat) (flag : Fld) : State := s.event flag (Reg.SESS_STATUS_EVENTS n) (192 + n)

/-! ### Windows (R63, R65) -/

/-- Whether an aperture range lies wholly in a session's valid window k. -/
def State.inWindow (s : State) (n k off len : Nat) : Bool :=
  s.bit (Reg.SESS_WIN_CTRL_VALID n k) &&
    decide (granuleBytes * s.get (Reg.SESS_WIN_GOFF_GOFF n k) ≤ off
      ∧ off + len ≤ granuleBytes * (s.get (Reg.SESS_WIN_GOFF_GOFF n k) + s.get (Reg.SESS_WIN_CTRL_SIZE n k)))

/-- The window that holds an aperture range (R65). -/
def State.windowOf (s : State) (n off len : Nat) : Option Nat := firstBelow 16 (fun k => s.inWindow n k off len)

/-- R65: the device address of an aperture range that lies wholly in one valid window. -/
def State.translate (s : State) (n off len : Nat) : Option Nat :=
  (s.windowOf n off len).map fun k =>
    granuleBytes * s.get (Reg.SESS_WIN_DEV_DEV n k) + (off - granuleBytes * s.get (Reg.SESS_WIN_GOFF_GOFF n k))

/-- R59, R61: the device address of a ring that lies wholly in one valid window the session may write. -/
def State.translateRing (s : State) (n off len : Nat) : Option Nat :=
  match s.windowOf n off len with
  | some k => if s.bit (Reg.SESS_WIN_CTRL_GUEST_RO n k) then none else s.translate n off len
  | none => none

/-! ### The touch queue (R59, R60) -/

/-- Records in a session's ring: 2^SIZE_LOG2, with a reserved code treated as 4. -/
def State.tqSize (s : State) (n : Nat) : Nat :=
  let k := s.get (Reg.SESS_TQ_CTRL_SIZE_LOG2 n)
  2 ^ (if 4 ≤ k ∧ k ≤ 12 then k else 4)

/-- R60: whether the ring is full. -/
def State.tqFull (s : State) (n : Nat) : Bool :=
  (s.get (Reg.SESS_TQ_WR_INDEX n) + 1) % s.tqSize n == s.get (Reg.SESS_TQ_RD_INDEX n)

/-- A record is discarded and counted. -/
def State.tqDrop (s : State) (n : Nat) : State := s.count (Reg.SESS_TQ_STATUS_DROPPED n)

/-- A record is put at TQ_WR, an index modulo the ring size, of a ring with space, and TQ_NEW is set. -/
def State.tqPut (s : State) (w : World) (n : Nat) (rec : List Byte) : State :=
  let i := s.get (Reg.SESS_TQ_WR_INDEX n) % s.tqSize n
  let s := s.dmaWrite w 26 ((s.ses n).tqAddr + 32 * i) rec
  (s.set (Reg.SESS_TQ_WR_INDEX n) ((i + 1) % s.tqSize n)).sessIrq n irqTqNew

/-- R60: a record arrives for a session: discarded while the queue does not run or the ring is full; the first record
after space returns is a SYNC. -/
def State.tqWrite (s : State) (w : World) (n : Nat) (rec sync : List Byte) : State :=
  if !s.bit (Reg.SESS_TQ_CTRL_EN n) then s.tqDrop n
  else if s.tqFull n then
    let s := (s.tqDrop n).set (Reg.SESS_TQ_STATUS_OVERFLOW n) 1
    (s.setSes n { s.ses n with tqSync := true }).sessIrq n irqTqOverflow
  else if (s.ses n).tqSync then
    let s := (s.setSes n { s.ses n with tqSync := false }).tqPut w n sync
    if s.tqFull n then
      let s := (s.tqDrop n).set (Reg.SESS_TQ_STATUS_OVERFLOW n) 1
      (s.setSes n { s.ses n with tqSync := true }).sessIrq n irqTqOverflow
    else s.tqPut w n rec
  else s.tqPut w n rec

end Sys2Proof.Machine
end

