-- ==== Sys2Proof/Machine/Sine.lean ====
section
/-! DEFINITION. Sines to the nearest integer, in integer arithmetic: the tables of R290 and R325. -/

namespace Sys2Proof.Machine

/-- 2^48 × π / 2, rounded. -/
def halfPiFix : Int := 442139859501777

/-- One more term of the sine series: the term of degree k + 2 from the term of degree k, with x² in 48-bit
fixed point. -/
def sineTerm (x2 : Int) (k : Int) (t : Int) : Int := -(t * x2 / 2 ^ 48) / ((k + 1) * (k + 2))

/-- The sine of a quarter-turn fraction i / n, 0 ≤ i ≤ n, in 48-bit fixed point: the series to degree 19. -/
def sineFix (i n : Nat) : Int :=
  let x : Int := halfPiFix * i / n
  let x2 := x * x / 2 ^ 48
  ([1, 3, 5, 7, 9, 11, 13, 15, 17] : List Int).foldl (fun (p : Int × Int) k =>
    let t := sineTerm x2 k p.2
    (p.1 + t, t)) (x, x) |>.1

/-- round(a × sin(2π i / n)) for n a multiple of 4. -/
def sineRound (a i n : Nat) : Int :=
  let q := n / 4
  let i := i % n
  let v := fun (j : Nat) => ((a : Int) * sineFix j q + 2 ^ 47) / 2 ^ 48
  if i ≤ q then v i else if i ≤ 2 * q then v (2 * q - i) else if i ≤ 3 * q then -v (i - 2 * q) else -v (4 * q - i)

end Sys2Proof.Machine
end

