-- ==== Sys2Proof/Machine/HapticOps.lean ====
section
/-! DEFINITION. What triggers, the budget and the phases of an effect do to a haptic channel (R290, R292 to R304). -/

namespace Sys2Proof.Machine

/-- A channel's record. -/
def State.hc (s : State) (n : Nat) : HapState := sget (fun _ => {}) s.hap n

/-- A channel's record set. -/
def State.setHc (s : State) (n : Nat) (r : HapState) : State := { s with hap := sput (fun _ => {}) s.hap n r }

/-- The channels. -/
def hapChannels : List Nat := List.range 16

/-- HC_n_STATUS.STATE: 0 IDLE, 1 WAIT, 2 DRIVE, 3 BRAKE, 4 FAULT. -/
def State.hcState (s : State) (n : Nat) : Nat := s.get (Reg.HC_STATUS_STATE n)

/-- A channel drives or brakes. -/
def State.hcRuns (s : State) (n : Nat) : Bool := s.hcState n == 2 || s.hcState n == 3

/-- An event of HC_n_STATUS: source 80 + n. -/
def State.hcEvent (s : State) (n : Nat) (flag : Fld) : State := s.event flag (Reg.HC_STATUS_EVENTS n) (80 + n)

/-- R294: descriptor e of the active library. -/
def State.hapDesc (s : State) (e : Nat) : HapDesc :=
  let w := fun i => s.reg (Reg.HAP_LIB e i)
  { f0 := clampNat 80 2000 (getBits (w 0) 16 16), cycles := getBits (w 0) 8 8, level := getBits (w 0) 0 8,
    brakeMax := min 4 (getBits (w 1) 24 4), decay := getBits (w 1) 20 4, attack := getBits (w 1) 16 4,
    track := getBits (w 1) 0 1 == 1, brakeLevel := getBits (w 2) 16 8, brakeThresh := getBits (w 2) 0 12 }

/-- Drive cycles of an effect (R295). -/
def HapDesc.total (d : HapDesc) : Nat := d.attack + d.cycles + d.decay

/-- R295: the amplitude of drive cycle c. -/
def HapDesc.amp (d : HapDesc) (c : Nat) : Nat :=
  if c < d.attack then d.level * (c + 1) / (d.attack + 1)
  else if c < d.attack + d.cycles then d.level
  else d.level * (d.total - c) / (d.decay + 1)

/-- R290: Δ for a frequency in 1/16 Hz, rounded. -/
def hapDelta (f16 : Nat) : Nat := (f16 * 2 ^ 33 + 4000000) / 8000000

/-- R290: HAP_n_PH high time for an amplitude and a phase. -/
def hapDuty (amp : Nat) (phase : Nat) (neg : Bool) : Nat :=
  let v := sineRound 32767 (phase / 2 ^ 22) 1024
  let v := if neg then -v else v
  (2000 + asr ((amp : Int) * v * 225 + 2 ^ 19) 20).toNat

/-- The budget in use: the sum of the costs held (R302). -/
def State.hapSetUse (s : State) : State :=
  s.set Reg.HAP_BUDGET_IN_USE ((hapChannels.map (fun n => (s.hc n).cost)).sum)

/-- Both gate pins of a channel low. -/
def State.hapQuiet (s : State) (n : Nat) : State := s.setHc n { s.hc n with ph := 0, pl := 0, sense := false }

/-- A running effect ends: both pins are low, and NO_LOCK is set where it ends without LOCKED (R296). Its cost is held on (R302). -/
def State.hapEnd (s : State) (n : Nat) : State :=
  let noLock := s.hcRuns n && !s.bit (Reg.HC_STATUS_LOCKED n)
  let s := s.setHc n { s.hc n with ph := 0, pl := 0, sense := false, arm := false, endAtCycle := false }
  if noLock then s.hcEvent n (Reg.HC_STATUS_NO_LOCK n) else s

/-- R302, R303: the channel is IDLE: it holds no cost, and no sample of it counts. -/
def State.hapFree (s : State) (n : Nat) : State :=
  (s.setHc n { s.hc n with cost := 0, stops := 0 }).hapSetUse.set (Reg.HC_STATUS_STATE n) 0

/-- The channel becomes IDLE. -/
def State.hapIdle (s : State) (n : Nat) : State := (s.hapEnd n).hapFree n

/-- A trigger is replaced or discarded (R299). -/
def State.hapDiscard (s : State) (n : Nat) (k : Nat := 1) : State := s.count (Reg.HC_COUNTS_DISCARDS n) k

/-- R292, R301: a trigger that loses in its clock is discarded; while HV_READY is 0, HV_DROP counts it too. -/
def State.hapLose (s : State) (n : Nat) : State :=
  (s.hapDiscard n).when (!s.bit Reg.HAP_STATUS_HV_READY) (·.count (Reg.HC_DROPS_HV_DROP n))

/-- The triggers a channel holds are discarded where a test picks them. -/
def State.hapDropHeld (s : State) (n : Nat) (p : HapTrigger → Bool) : State :=
  let r := s.hc n
  let w := match r.waiting with | some t => p t.1 | none => false
  let q := r.pending.any p
  let u := r.urgent.any p
  let s := s.setHc n { r with waiting := if w then none else r.waiting, pending := if q then none else r.pending,
                              urgent := if u then none else r.urgent }
  let s := s.hapDiscard n (b2n w + b2n q + b2n u)
  if w && s.hcState n == 1 then s.set (Reg.HC_STATUS_STATE n) 0 else s

/-- R302 to R304: the channel enters FAULT with both pins low, and holds its cost until it is IDLE again; the triggers it held are
discarded (log entry 20). -/
def State.hapFault (s : State) (n : Nat) : State :=
  let s := ((s.hapEnd n).setHc n { (s.hapEnd n).hc n with stops := 0 }).hapDropHeld n (fun _ => true)
  s.set (Reg.HC_STATUS_STATE n) 4

/-- R297: braking begins `past` of phase after the end of the drive, or the channel is IDLE at once where no brake cycle is
allowed. -/
def State.hapBrake (s : State) (n : Nat) (past : Nat := 0) : State :=
  let r := s.hc n
  if r.desc.brakeMax = 0 then s.hapIdle n
  else
    (s.setHc n { r with brakes := 0, window := false, wait := false, prog := past, peak := 0, endAtCycle := false, sense := false }).set
      (Reg.HC_STATUS_STATE n) 3

/-- The frequency the channel drives at, in 1/16 Hz. -/
def State.hapSetFreq (s : State) (n f16 : Nat) : State :=
  (s.setHc n { s.hc n with delta := hapDelta f16 }).set (Reg.HC_FREQ_TRACKED n) f16

/-- R296: the channel drives at F0, which it has not locked to. -/
def State.hapNominal (s : State) (n : Nat) (d : HapDesc) : State :=
  (s.hapSetFreq n (d.f0 * 16)).set (Reg.HC_STATUS_LOCKED n) 0

/-- R296, R300: an effect of a descriptor begins. On a channel that drives or brakes with LOCKED it waits for the next
tracked crossing; else it begins at phase 0, at the tracked frequency where the channel was LOCKED and tracks, at F0
otherwise. Samples at a stop of the range go on counting where the channel drives or brakes on (R303). -/
def State.hapBegin (s : State) (n : Nat) (d : HapDesc) (cost : Nat) : State :=
  let locked := s.bit (Reg.HC_STATUS_LOCKED n)
  let running := s.hcRuns n
  let s := if running then s.hapEnd n else s
  let r := s.hc n
  let s := (s.setHc n { r with
    desc := d, cost := cost, cycle := 0, endAtCycle := false, brakes := 0, window := false, wait := false, prog := 0, peak := 0,
    samples := 0, prev := none, cross := none, half := none, stops := if running then r.stops else 0,
    arm := running && locked && d.total != 0, acc := if running && locked then r.acc else 0,
    inv := running && locked && r.inv }).hapSetUse
  let s := s.count (Reg.HC_COUNTS_STARTS n)
  let s := if locked && (d.track || running) then s else s.hapNominal n d
  let s := if running && locked then s
    else if d.total = 0 then s else s.set (Reg.HC_STATUS_LOCKED n) 0
  let s := s.set (Reg.HC_STATUS_STATE n) 2
  if d.total = 0 then s.hapBrake n else s

/-- R302: the budget in use without what a channel's own running effect holds. -/
def State.hapOthers (s : State) (n : Nat) : Nat :=
  s.get Reg.HAP_BUDGET_IN_USE - (if s.hcRuns n then (s.hc n).cost else 0)

/-- R302: the cost of a level on a channel. -/
def State.hapCost (s : State) (n level : Nat) : Nat := level * s.get (Reg.HC_CTRL_WEIGHT n) / 64

/-- R302: a start of a level on a channel is admitted. -/
def State.hapFits (s : State) (n level : Nat) : Bool :=
  decide (s.hapOthers n + s.hapCost n level ≤ s.get Reg.HAP_BUDGET_LIMIT)

/-- A start is discarded for want of budget (R299, R302). -/
def State.hapBudgetDrop (s : State) (n : Nat) : State := (s.hapDiscard n).count (Reg.HC_DROPS_BUDGET_DROP n)

/-- R302: a start is admitted, scaled, made to wait, or discarded. -/
def State.hapStart (s : State) (n : Nat) (t : HapTrigger) : State :=
  let d := s.hapDesc t.effect
  if s.hapFits n d.level then s.hapBegin n d (s.hapCost n d.level)
  else if t.urgent then
    let l := min d.level ((s.get Reg.HAP_BUDGET_LIMIT - s.hapOthers n) * 64 / s.get (Reg.HC_CTRL_WEIGHT n))
    if l = 0 then s.hapBudgetDrop n
    else (s.hapBegin n { d with level := l, brakeLevel := d.brakeLevel * l / d.level } (s.hapCost n l)).hcEvent n
      (Reg.HC_STATUS_SCALED n)
  else (s.setHc n { s.hc n with waiting := some (t, 0) }).set (Reg.HC_STATUS_STATE n) 1

/-- R299: a channel's waiting trigger is discarded, and the channel in WAIT is IDLE. -/
def State.hapDropWaiting (s : State) (n : Nat) : State :=
  s.when (s.hcState n == 1) fun s => ((s.setHc n { s.hc n with waiting := none }).hapDiscard n).set (Reg.HC_STATUS_STATE n) 0

/-- R292, R293, R299: a trigger that cannot be taken is discarded and counted; otherwise `none`. -/
def State.hapRefused (s : State) (n : Nat) : Option State :=
  if !s.bit Reg.HAP_STATUS_HV_READY then some ((s.hapDiscard n).count (Reg.HC_DROPS_HV_DROP n))
  else if !s.bit Reg.HAP_STATUS_LIB_VALID || !s.bit (Reg.HC_CTRL_EN n) || s.hcState n == 4 then some (s.hapDiscard n)
  else none

/-- R298, R299: a pin or a press cue, always URGENT, reaches a channel. -/
def State.hapUrgent (s : State) (n effect : Nat) : State :=
  match s.hapRefused n with
  | some t => t
  | none =>
    let t : HapTrigger := { effect := effect, urgent := true, session := none }
    (s.hapDropWaiting n).hapStart n t

/-- R58, R298, R299: a session doorbell reaches a channel; its effect starts at a slot boundary. An URGENT one is held beside a
pending normal trigger, and a later URGENT one replaces it (DESIGN CHOICE, log entry 86). -/
def State.hapBell (s : State) (n : Nat) (t : HapTrigger) : State :=
  match s.hapRefused n with
  | some t => t
  | none =>
    if t.urgent then
      let s := s.hapDropWaiting n
      (s.when (s.hc n).urgent.isSome (·.hapDiscard n)).setHc n { s.hc n with urgent := some t }
    else if s.hcState n = 1 then (s.hapDiscard n).setHc n { s.hc n with waiting := some (t, 0) }
    else
      let s := s.when (s.hc n).pending.isSome (·.hapDiscard n)
      s.setHc n { s.hc n with pending := some t, endAtCycle := (s.hc n).endAtCycle || s.hcState n == 2 }

/-- R20, R30, R37: the length of a number of haptic slots, each a sixteenth of a beat of int + num/den periods of 40 ns, in
microseconds rounded down. -/
def State.hapSlotsUs (s : State) (slots : Nat) : Nat :=
  slots * (s.drum.int * s.drum.den + s.drum.num) / (400 * max 1 s.drum.den)

/-- R32, R37, R39: a start that a slot boundary cannot make is moved to the next one: a breach at rank 6 with the lateness of its
first drive edge so far. -/
def State.hapMiss (s : State) (n : Nat) (t : HapTrigger) : HapTrigger × State :=
  ({ t with late := t.late - 1, missed := t.missed + 1 },
   s.breach { rank := 6, yielded := 6, port := none, mag := s.hapSlotsUs (t.missed + 1), unit := 0x11, inst := n })

/-- R32, R298, R299, R302: what a slot boundary does on one channel to the URGENT doorbell it holds, which replaces a trigger
that waits for budget. -/
def State.hapSlotUrgent (s : State) (n : Nat) : State :=
  match (s.hc n).urgent with
  | some t =>
    if s.hcState n = 4 || s.isGated 0x11 n then s
    else if 0 < t.late then
      let (t, s) := s.hapMiss n t
      s.setHc n { s.hc n with urgent := some t }
    else ((s.setHc n { s.hc n with urgent := none }).hapDropWaiting n).hapStart n t
  | none => s

/-- R32, R299, R302: what a slot boundary does on one channel to its normal triggers: a waiting start is tried again and
discarded at its sixteenth boundary; a pending one starts on an IDLE channel. A start that the boundary cannot make is moved. -/
def State.hapSlotNormal (s : State) (n : Nat) : State :=
  if s.isGated 0x11 n then s
  else match s.hcState n, (s.hc n).waiting, (s.hc n).pending with
  | 1, some (t, k), _ =>
    let d := s.hapDesc t.effect
    if 0 < t.late then
      let (t, s) := s.hapMiss n t
      s.setHc n { s.hc n with waiting := some (t, k) }
    else if s.hapFits n d.level then
      (s.setHc n { s.hc n with waiting := none }).hapBegin n d (s.hapCost n d.level)
    else if 15 ≤ k then
      ((s.setHc n { s.hc n with waiting := none }).set (Reg.HC_STATUS_STATE n) 0).hapBudgetDrop n
    else s.setHc n { s.hc n with waiting := some (t, k + 1) }
  | 0, _, some t =>
    if 0 < t.late then
      let (t, s) := s.hapMiss n t
      s.setHc n { s.hc n with pending := some t }
    else (s.setHc n { s.hc n with pending := none }).hapStart n t
  | _, _, _ => s

/-- R30, R298, R302: a slot boundary: URGENT starts first, the lower channel first among equals; its records enter the queue in the
order of R427. -/
def State.hapSlot (s : State) : State :=
  ((s.each hapChannels (fun n t => t.hapSlotUrgent n)).each hapChannels (fun n t => t.hapSlotNormal n)).inOrder s

/-- R289: the gate pins of a period with a high time; PL takes the rest, less two dead times. -/
def State.hapDrive (s : State) (n duty : Nat) : State :=
  let dead := clampNat 20 200 (s.get Reg.HAP_CTRL_DEAD_NS)
  s.setHc n { s.hc n with ph := duty, pl := 4000 - duty - 2 * dead, sense := false }

/-- R296: whether a phase lies in the 36 µs window around a crossing, nine PWM periods long; the crossing an effect
begins at has none. -/
def HapState.inSense (r : HapState) : Bool :=
  r.desc.track && !(r.cycle == 0 && r.acc < 2 ^ 30) &&
    (let p := r.acc % 2 ^ 31
     decide (2 * min p (2 ^ 31 - p) ≤ 9 * r.delta))

/-- R290, R295, R296: one PWM period of a channel in DRIVE. -/
def State.hapDrivePeriod (s : State) (n : Nat) : State :=
  let r := s.hc n
  let acc := r.acc + r.delta
  if r.arm then
    if acc / 2 ^ 31 ≠ r.acc / 2 ^ 31 then
      let falling := decide (acc < 2 ^ 32) != r.inv
      let s := s.setHc n { r with arm := false, acc := 0, inv := falling }
      let s := if r.desc.track then s else s.hapNominal n r.desc
      s.hapDrive n (hapDuty (r.desc.amp 0) 0 falling)
    else (s.setHc n { r with acc := acc }).hapQuiet n
  else
    let s := if r.inSense then s.setHc n { r with ph := 0, pl := 0, sense := true }
      else s.hapDrive n (hapDuty (r.desc.amp r.cycle) r.acc r.inv)
    let r := { s.hc n with acc := acc % 2 ^ 32 }
    if acc < 2 ^ 32 then s.setHc n r
    else
      let s := s.setHc n { r with cycle := r.cycle + 1 }
      if r.endAtCycle || decide (r.desc.total ≤ r.cycle + 1) then s.hapBrake n r.acc else s

/-- R290, R297: one PWM period of a channel in BRAKE: a cycle at BRAKE_LEVEL in counter-phase, or, from the element's next zero
crossing, a window with both pins low for a quarter of the tracked period. A cycle that ends off a crossing waits for it with both
pins low. -/
def State.hapBrakePeriod (s : State) (n : Nat) : State :=
  let r := s.hc n
  let next := { r with acc := (r.acc + r.delta) % 2 ^ 32, prog := r.prog + r.delta }
  let crosses := (r.acc + r.delta) / 2 ^ 31 != r.acc / 2 ^ 31
  if r.wait then (s.setHc n { next with wait := !crosses, window := crosses, prog := next.acc % 2 ^ 31 }).hapQuiet n
  else if r.window then
    let s := (s.setHc n next).hapQuiet n
    if next.prog < 2 ^ 30 then s
    else if r.peak ≤ r.desc.brakeThresh then s.hapIdle n
    else s.setHc n { s.hc n with window := false, prog := next.prog - 2 ^ 30 }
  else
    let s := (s.setHc n next).hapDrive n (hapDuty r.desc.brakeLevel r.acc (!r.inv))
    if next.prog < 2 ^ 32 then s
    else if r.desc.brakeMax ≤ r.brakes + 1 then (s.setHc n { s.hc n with brakes := r.brakes + 1 }).hapIdle n
    else s.setHc n { s.hc n with brakes := r.brakes + 1, window := crosses, wait := !crosses, prog := next.acc % 2 ^ 31, peak := 0 }

/-- R296: half periods of the tracked range, in nanoseconds. -/
def State.hapHalfRange (s : State) (n : Nat) : Nat × Nat :=
  (500000000 / max 80 (min 2000 (s.get (Reg.HC_TRACK_F_MAX n))), 500000000 / max 80 (min 2000 (s.get (Reg.HC_TRACK_F_MIN n))))

/-- R296: the phase is re-aligned to a crossing `late` ns before now; a cycle that the crossing ends is counted. -/
def State.hapAlign (s : State) (n late : Nat) : State :=
  let r := s.hc n
  let base := (r.acc + 2 ^ 30) / 2 ^ 31 * 2 ^ 31
  let acc := (base + r.delta * late / 4000) % 2 ^ 32
  if base = 2 ^ 32 then
    let s := s.setHc n { r with acc := acc, cycle := r.cycle + 1 }
    if r.endAtCycle || decide (r.desc.total ≤ r.cycle + 1) then s.hapBrake n acc else s
  else s.setHc n { r with acc := acc }

/-- R296: a half period of `h` ns is measured: the channel's next half period is `h` clamped to the tracked range, and LOCKED is
set where it and the half period measured before differ by at most 1/32 of that one. -/
def State.hapMeasured (s : State) (n h : Nat) : State :=
  let (lo, hi) := s.hapHalfRange n
  let next := clampNat lo hi h
  let locked := match (s.hc n).half with | some g => decide (32 * (max h g - min h g) ≤ g) | none => false
  ((s.setHc n { s.hc n with half := some h }).hapSetFreq n ((8000000000 + next / 2) / next)).when locked
    (·.set (Reg.HC_STATUS_LOCKED n) 1)

/-- R296: a crossing found `at_` ns after the effect's first sample, `late` ns before now: the half period since the crossing
before it, where there was one, and the phase. -/
def State.hapCrossing (s : State) (n at_ late : Nat) : State :=
  let before := (s.hc n).cross
  let s := s.setHc n { s.hc n with cross := some at_ }
  (match before with | some c => s.hapMeasured n (at_ - c) | none => s).hapAlign n late

/-- R291, R296, R297: a sample of a channel that drives or brakes, as a signed number about the middle of the range. -/
def State.hapSample (s : State) (n : Nat) (v : Int) : State :=
  let r := { s.hc n with samples := (s.hc n).samples + 1 }
  let s := s.setHc n r
  if s.hcState n = 3 then
    if r.window then s.setHc n { r with peak := max r.peak v.natAbs } else s
  else if !r.sense || r.arm then s.setHc n { r with prev := none }
  else
    let s := s.setHc n { r with prev := some v }
    match r.prev with
    | none => s
    | some p =>
      if decide (p < 0) = decide (v < 0) then s
      else
        let into := 16000 * p.natAbs / (p.natAbs + v.natAbs)
        s.hapCrossing n ((r.samples - 1) * 16000 + into) (16000 - into)

/-- R53, R304: a session detaches: its pending and waiting doorbell triggers are discarded. -/
def State.hapDetach (s : State) (session : Nat) : State :=
  s.each hapChannels (fun n t => t.hapDropHeld n (fun g => g.session == some session))

/-- Whether a C3 reaction holds (R395). -/
def State.c3 (s : State) : Bool := s.bit Reg.FLT_STATUS_C3

/-- HV_EN falls: HV_LIVE and HV_READY are 0. -/
def State.hvFall (s : State) : State := (s.set Reg.HAP_STATUS_HV_LIVE 0).set Reg.HAP_STATUS_HV_READY 0

end Sys2Proof.Machine
end

