-- ==== Sys2Proof/Machine/VisOps.lean ====
section
/-! DEFINITION. Screens, ports, pipes and layers: their records, a screen's timing, the pixel clock, a link's capacity
and the fabric targets (R26, R69 to R72, R78, R89, R232). -/

namespace Sys2Proof.Machine

/-- A screen's record. -/
def State.scr (s : State) (n : Nat) : ScreenState := sget (fun _ => {}) s.screens n
/-- A screen's record set. -/
def State.setScr (s : State) (n : Nat) (r : ScreenState) : State := { s with screens := sput (fun _ => {}) s.screens n r }
/-- A port's record. -/
def State.port (s : State) (n : Nat) : PortState := sget (fun _ => {}) s.ports n
/-- A port's record set. -/
def State.setPort (s : State) (n : Nat) (r : PortState) : State := { s with ports := sput (fun _ => {}) s.ports n r }
/-- A pipe's record. -/
def State.pipe (s : State) (n : Nat) : PipeState := sget (fun _ => {}) s.pipes n
/-- A pipe's record set. -/
def State.setPipe (s : State) (n : Nat) (r : PipeState) : State := { s with pipes := sput (fun _ => {}) s.pipes n r }
/-- A layer's record. -/
def State.lay (s : State) (n : Nat) : LayerState := sget (fun _ => {}) s.layers n
/-- A layer's record set. -/
def State.setLay (s : State) (n : Nat) (r : LayerState) : State := { s with layers := sput (fun _ => {}) s.layers n r }
/-- A protected layer's record. -/
def State.prot (s : State) (n : Nat) : ProtState := sget (fun _ => {}) s.prots n
/-- A protected layer's record set. -/
def State.setProt (s : State) (n : Nat) (r : ProtState) : State := { s with prots := sput (fun _ => {}) s.prots n r }
/-- A video input's record. -/
def State.vin (s : State) (n : Nat) : VinState := sget (fun _ => {}) s.vins n
/-- A video input's record set. -/
def State.setVin (s : State) (n : Nat) (r : VinState) : State := { s with vins := sput (fun _ => {}) s.vins n r }

/-- The screens. -/
def allScreens : List Nat := List.range 8
/-- The general layers. -/
def allLayers : List Nat := List.range 64
/-- The pipes. -/
def allPipes : List Nat := List.range 10

/-- Whether a screen's timing generator runs. -/
def State.running (s : State) (n : Nat) : Bool := s.bit (Reg.SCREEN_STATUS_RUNNING n)

/-- R73, R85, R95, R266: whether a screen runs and its video has not stopped for a RETIME or a halved degrade. -/
def State.sends (s : State) (n : Nat) : Bool := s.running n && !(s.scr n).gap

/-- The lanes of a code, the reserved one read as 4 lanes. -/
def laneCode (l : Nat) : Nat := if l = 3 then 2 else l

/-- SCREEN_n_FRAME. -/
def State.frame (s : State) (n : Nat) : Nat := s.get (Reg.SCREEN_FRAME_FRAME n)

/-- The port a screen names. -/
def State.portOf (s : State) (n : Nat) : Nat := s.get (Reg.SCREEN_CTRL_PORT n)

/-- The running screen that drives a port. -/
def State.screenOn (s : State) (p : Nat) : Option Nat :=
  if s.bit (Reg.XBAR_MAP_VALID p) then some (s.get (Reg.XBAR_MAP_SCREEN p)) else none

/-- The pipe that serves a running screen. -/
def State.pipeOf (s : State) (n : Nat) : Nat := s.get (Reg.XBAR_MAP_PIPE (s.portOf n))

/-- The screen of a port under R483. -/
def State.portScreen (s : State) (p : Nat) : Option Nat :=
  match s.screenOn p with
  | some n => some n
  | none => firstBelow 8 (fun n => s.portOf n == p)

/-- An event of SCREEN_n_STATUS: source 17 + n. -/
def State.scrEvent (s : State) (n : Nat) (flag : Fld) : State := s.event flag (Reg.SCREEN_STATUS_EVENTS n) (17 + n)

/-- CFG_ERR of a screen with its code. -/
def State.scrRefuse (s : State) (n code : Nat) : State :=
  (s.set (Reg.SCREEN_STATUS_ERR_CODE n) code).scrEvent n (Reg.SCREEN_STATUS_CFG_ERR n)

/-- An event of DPO_n_LINK_STATUS: source 25 + n. -/
def State.linkEvent (s : State) (n : Nat) (flag : Fld) : State := s.event flag (Reg.DPO_LINK_STATUS_EVENTS n) (25 + n)

/-! ### Links -/

/-- TRAINING of a port, which LINK_CTRL.TRAIN reads too. -/
def State.setTraining (s : State) (p : Nat) (b : Bool) : State :=
  (s.set (Reg.DPO_LINK_STATUS_TRAINING p) (b2n b)).set (Reg.DPO_LINK_CTRL_TRAIN p) (b2n b)

/-- R90: the pattern of a training at a rate code: TPS4 at 8.1 Gb/s; below it TPS3, or TPS2 where the sink lacks TPS3. -/
def State.trainPattern (s : State) (p rate : Nat) : Nat := if rate = 7 then 4 else if (s.port p).tps3 then 3 else 2

/-- A port's link is trained, with the pattern of its rate (R90), and symbol-locked at a rate and lane count; the lasting condition of LINK_UNUSABLE ends
(R483). -/
def State.linkUp (s : State) (p rate lanes : Nat) : State :=
  let was := s.bit (Reg.DPO_LINK_STATUS_LINK_OK p)
  let s := ((s.setPort p { s.port p with pattern := s.trainPattern p rate }).setTraining p false).set (Reg.DPO_LINK_STATUS_LINK_OK p) 1
  let s := (s.set (Reg.DPO_LINK_STATUS_LIVE_RATE p) rate).set (Reg.DPO_LINK_STATUS_LIVE_LANES p) lanes
  if was then s else s.liveFell (96 + p)

/-- A port's link carries no video: LINK_OK is 0, and video resumes at the first frame start after it is 1 again (R92).
LIVE_RATE and LIVE_LANES keep those of the last link (DESIGN CHOICE, log entry 27). -/
def State.linkStop (s : State) (p : Nat) : State :=
  (s.setPort p { s.port p with video := false }).set (Reg.DPO_LINK_STATUS_LINK_OK p) 0

/-- A port's link is down. -/
def State.linkDown (s : State) (p : Nat) : State := (s.setTraining p false).linkStop p

/-- A port trains its link at a rate and lane count. -/
def State.trainAt (s : State) (p : Nat) (why : TrainWhy) (rate lanes : Nat) : State :=
  let s := s.setPort p { s.port p with why := why, rate := rate, lanes := lanes, pattern := s.trainPattern p rate }
  (s.linkStop p).setTraining p true

/-- DEGRADED of a port ends (R96). -/
def State.clearDegraded (s : State) (p : Nat) : State :=
  if s.bit (Reg.DPO_LINK_STATUS_DEGRADED p) then (s.set (Reg.DPO_LINK_STATUS_DEGRADED p) 0).liveFell (104 + p) else s

/-! ### Timing (R26, R69, R72) -/

/-- A screen's timing settings. -/
structure Timing where
  /-- H_TOTAL -/
  hTotal : Nat
  /-- H_ACTIVE -/
  hActive : Nat
  /-- HS_POL -/
  hsPol : Nat
  /-- HS_WIDTH -/
  hsWidth : Nat
  /-- HS_FP -/
  hsFp : Nat
  /-- V_TOTAL -/
  vTotal : Nat
  /-- V_ACTIVE -/
  vActive : Nat
  /-- VS_POL -/
  vsPol : Nat
  /-- VS_WIDTH -/
  vsWidth : Nat
  /-- VS_FP -/
  vsFp : Nat
  /-- STAGGER -/
  stagger : Nat
  /-- BEATS -/
  beats : Nat
  /-- VT_MIN -/
  vtMin : Nat
  /-- VT_MAX -/
  vtMax : Nat
  /-- BPC30 -/
  bpc30 : Nat
deriving DecidableEq, Repr

/-- The timing in the timing registers. -/
def State.timing (s : State) (n : Nat) : Timing :=
  { hTotal := s.get (Reg.SCREEN_TIMING_H_H_TOTAL n), hActive := s.get (Reg.SCREEN_TIMING_H_H_ACTIVE n),
    hsPol := s.get (Reg.SCREEN_TIMING_HS_HS_POL n), hsWidth := s.get (Reg.SCREEN_TIMING_HS_HS_WIDTH n),
    hsFp := s.get (Reg.SCREEN_TIMING_HS_HS_FP n), vTotal := s.get (Reg.SCREEN_TIMING_V_V_TOTAL n),
    vActive := s.get (Reg.SCREEN_TIMING_V_V_ACTIVE n), vsPol := s.get (Reg.SCREEN_TIMING_VS_VS_POL n),
    vsWidth := s.get (Reg.SCREEN_TIMING_VS_VS_WIDTH n), vsFp := s.get (Reg.SCREEN_TIMING_VS_VS_FP n),
    stagger := s.get (Reg.SCREEN_TIMING_BEAT_STAGGER n), beats := s.get (Reg.SCREEN_TIMING_BEAT_BEATS n),
    vtMin := s.get (Reg.SCREEN_VRR_VT_MIN n), vtMax := s.get (Reg.SCREEN_VRR_VT_MAX n),
    bpc30 := s.get (Reg.SCREEN_CTRL_BPC30 n) }

/-- The timing in the staging set (R83). -/
def State.rtTiming (s : State) (n : Nat) : Timing :=
  { hTotal := s.get (Reg.SCREEN_RT_TIMING_H_H_TOTAL n), hActive := s.get (Reg.SCREEN_RT_TIMING_H_H_ACTIVE n),
    hsPol := s.get (Reg.SCREEN_RT_TIMING_HS_HS_POL n), hsWidth := s.get (Reg.SCREEN_RT_TIMING_HS_HS_WIDTH n),
    hsFp := s.get (Reg.SCREEN_RT_TIMING_HS_HS_FP n), vTotal := s.get (Reg.SCREEN_RT_TIMING_V_V_TOTAL n),
    vActive := s.get (Reg.SCREEN_RT_TIMING_V_V_ACTIVE n), vsPol := s.get (Reg.SCREEN_RT_TIMING_VS_VS_POL n),
    vsWidth := s.get (Reg.SCREEN_RT_TIMING_VS_VS_WIDTH n), vsFp := s.get (Reg.SCREEN_RT_TIMING_VS_VS_FP n),
    stagger := s.get (Reg.SCREEN_RT_TIMING_BEAT_STAGGER n), beats := s.get (Reg.SCREEN_RT_TIMING_BEAT_BEATS n),
    vtMin := s.get (Reg.SCREEN_RT_VRR_VT_MIN n), vtMax := s.get (Reg.SCREEN_RT_VRR_VT_MAX n),
    bpc30 := s.get (Reg.SCREEN_RT_LINK_BPC30 n) }

/-- A fraction of natural numbers. -/
structure Frac where
  /-- numerator -/
  num : Nat
  /-- denominator -/
  den : Nat
deriving DecidableEq, Repr

/-- The sum of two fractions. -/
def Frac.add (a b : Frac) : Frac := { num := a.num * b.den + b.num * a.den, den := a.den * b.den }

/-- Whether a fraction is at most a number. -/
def Frac.leNat (a : Frac) (n : Nat) : Bool := a.num ≤ n * a.den

/-- Whether a fraction is at least a number. -/
def Frac.geNat (a : Frac) (n : Nat) : Bool := n * a.den ≤ a.num

/-- R20, R26: the drumbeat's rate in Hz: 25 MHz divided by int + num/den. -/
def State.beatRate (s : State) : Frac :=
  { num := 25000000 * s.drum.den, den := s.drum.int * s.drum.den + s.drum.num }

/-- R26: the pixel clock of a timing, H_TOTAL × V_TOTAL × f_beat / B. -/
def State.pixClock (s : State) (t : Timing) : Frac :=
  { num := t.hTotal * t.vTotal * s.beatRate.num, den := s.beatRate.den * max t.beats 1 }

/-- Bits per pixel on the link. -/
def Timing.bpp (t : Timing) : Nat := if t.bpc30 = 1 then 30 else 24

/-- R89: the rate of a code, in Mb/s. -/
def linkRate (code : Nat) : Nat :=
  match code with
  | 0 => 1620 | 1 => 2160 | 2 => 2430 | 3 => 2700 | 4 => 3240 | 5 => 4320 | 6 => 5400 | _ => 8100

/-- Lanes of a LANES code; the reserved code is treated as 4 lanes. -/
def laneCount (code : Nat) : Nat := if code = 0 then 1 else if code = 1 then 2 else 4

/-- R72: the capacity of lanes × rate × 0.8, in bits per second. -/
def linkCapacity (rate lanes : Nat) : Nat := laneCount lanes * linkRate rate * 800000

/-- Whether a link carries a timing (R72, R91, R94). -/
def State.carries (s : State) (t : Timing) (rate lanes : Nat) : Bool :=
  let f := s.pixClock t
  decide (f.num * t.bpp ≤ linkCapacity rate lanes * f.den)

/-- R72, 0x1: every horizontal field lies in its range. -/
def Timing.okH (t : Timing) : Bool :=
  decide (t.hActive % 2 = 0 ∧ 256 ≤ t.hActive ∧ t.hActive ≤ 5120 ∧ t.hTotal % 2 = 0 ∧ t.hActive + 64 ≤ t.hTotal
    ∧ t.hTotal ≤ 8190 ∧ 1 ≤ t.hsWidth ∧ t.hsFp + t.hsWidth < t.hTotal - t.hActive)

/-- R72, 0x2: every vertical field lies in its range. -/
def Timing.okV (t : Timing) : Bool :=
  decide (128 ≤ t.vActive ∧ t.vActive ≤ 2880 ∧ t.vActive + 10 ≤ t.vTotal ∧ t.vTotal ≤ 16383 ∧ 1 ≤ t.vsWidth
    ∧ t.vsFp + t.vsWidth < t.vTotal - t.vActive)

/-- R72, 0x3. -/
def Timing.okBeat (t : Timing) : Bool := decide (1 ≤ t.beats ∧ t.beats ≤ 16 ∧ t.stagger < t.vTotal)

/-- R72, 0x4. -/
def State.okClock (s : State) (t : Timing) : Bool :=
  let f := s.pixClock t
  f.geNat 25000000 && f.leNat (if t.bpc30 = 1 then 864000000 else 1080000000)

/-- R72, 0x6: the pixel clocks of all running screens but one, with a timing for that one, are at most 6,000 MHz. -/
def State.okTotal (s : State) (n : Nat) (t : Timing) : Bool :=
  (((allScreens.filter (fun m => m != n && s.running m)).map (fun m => s.pixClock (s.timing m))).foldl Frac.add
    (s.pixClock t)).leNat 6000000000

/-- R72: the first check a timing fails, for a link of a rate and lane count; the port's LINK_OK and exclusive use
(0x7) are given. -/
def State.timingErr (s : State) (n : Nat) (t : Timing) (linkOk : Bool) (rate lanes : Nat) : Option Nat :=
  if !t.okH then some 1
  else if !t.okV then some 2
  else if !t.okBeat then some 3
  else if !s.okClock t then some 4
  else if !linkOk then some 7
  else if !s.carries t rate lanes then some 5
  else if !s.okTotal n t then some 6
  else none

/-! ### Fabric targets (R229, R232) -/

/-- R232: the target of a pipe or sextant port for a timing, in ns; TARGET goes up to 1,000,000, and a T beyond it is held there
(DEDUCED, log entry 80). -/
def State.fetchTarget (s : State) (t : Timing) : Nat :=
  let f := s.pixClock t
  let a := 7 * t.hTotal * 1000000000 * f.den * 165
  let b := (t.hActive * 100 + 165000) * f.num
  min 1000000 ((a - b) / (165 * f.num))

/-- R229, R232: the class and target of every pipe and sextant port, as they follow from the screens that run. -/
def State.qosUpdate (s : State) : State :=
  let s := s.each allPipes fun p t =>
    let serving := t.get (Reg.PIPE_STATUS_STATE p) == 0
    let t := t.set (Reg.QOS_CFG_CLASS p) (if serving then 1 else 7)
    t.set (Reg.QOS_CFG_TARGET p)
      (if serving then t.fetchTarget (t.timing (t.get (Reg.PIPE_STATUS_SCREEN p))) else 1000000)
  let ts := (allScreens.filter (fun n => s.running n && s.bit (Reg.PROT_STATUS_ENABLED n))).map
    (fun n => s.fetchTarget (s.timing n))
  let t := ts.foldl min 1000000
  s.each [10, 11] fun p u => u.set (Reg.QOS_CFG_TARGET p) t

/-! ### Harmless states and causes -/

/-- Whether a reaction holds a port's backlight released (R102). -/
def State.blReleased (s : State) (p : Nat) : Bool :=
  s.c3 || allScreens.any (fun n => s.portOf n == p && (s.scr n).c2.isSome)

/-- BL_EN of a port goes low. -/
def State.blLow (s : State) (p : Nat) : State := s.set (Reg.DPO_PANEL_BL_EN_LIVE p) 0

/-- R194: whether a screen's harmless state is the harbour image. -/
def State.safeHarbour (s : State) (n : Nat) : Bool := s.bit (Reg.SCREEN_PROT_CFG_SAFE_ACTION n)

/-- The port's harbour source is raised where a screen's harmless state is the harbour image (log entry 26). -/
def State.harbourIrq (s : State) (n : Nat) : State := if s.safeHarbour n then s.raiseIrq (33 + s.portOf n) else s

/-- R394: a C2 reaction for a screen: it enters its harmless state, which raises source 136 + n (R397), unless it is in it
already; BL_EN of its port is released. -/
def State.containScreen (s : State) (n : Nat) : State :=
  let s := if (s.scr n).c2.isSome then s.setScr n { s.scr n with c2Ends := false }
    else ((s.setScr n { s.scr n with c2 := some (s.safeHarbour n, s.frame n) }).harbourIrq n).raiseIrq (136 + n)
  s.blLow (s.portOf n)

/-- What a whole screen sends in place of its content. -/
inductive Whole where
  | none | blank | harbour (reason frame : Nat)
deriving DecidableEq, Repr

/-- R193, R194, R381: what governs a port whose screen is n: in anchor mode reason 9, SAFE_ACTION ignored, so whatever
reactions hold (DEDUCED, log entry 74); otherwise the lowest-numbered reason among the causes that hold. -/
def State.whole (s : State) (n : Nat) : Whole :=
  if s.bit Reg.BOOT_STATUS_ANCHOR then .harbour 9 0
  else match (s.scr n).c2, (s.scr n).c3 with
    | some (h, f), _ => if h then .harbour 7 f else .blank
    | none, some (h, f) => if h then .harbour 8 f else .blank
    | none, none =>
      match (s.port (s.portOf n)).forced with
      | some f => .harbour 10 f
      | none => .none

/-- R188: the highest reason that covers a rectangle at a line. -/
def State.rectReason (s : State) (n k line : Nat) : Option RectCause :=
  ((s.scr n).causes.filter (fun c => c.rect == k && decide (c.line ≤ line))).foldl
    (fun b c => match b with
      | none => some c
      | some d => if d.reason < c.reason then some c else some d) none

/-- A cause of the harbour image in a rectangle begins; where the same reason stands there already, it holds from the earlier of
the two lines (R185). -/
def State.addCause (s : State) (n : Nat) (c : RectCause) : State :=
  let r := s.scr n
  let same := fun (d : RectCause) => d.rect == c.rect && d.reason == c.reason
  if r.causes.any same then
    s.setScr n { r with causes := r.causes.map fun d => if same d then { d with line := min d.line c.line } else d }
  else (s.setScr n { r with causes := r.causes ++ [c] }).raiseIrq (33 + s.portOf n)

/-- The causes a test picks end. -/
def State.dropCauses (s : State) (n : Nat) (p : RectCause → Bool) : State :=
  s.setScr n { s.scr n with causes := (s.scr n).causes.filter (fun c => !p c) }

/-- The rectangles of the active state that are shown: EN and RECT_EN. -/
def State.liveRects (s : State) (n : Nat) : List Nat :=
  if s.bit (Reg.PROT_ACT_CTRL_EN n) then (List.range 4).filter (fun k => bitOf (s.get (Reg.PROT_ACT_CTRL_RECT_EN n)) k)
  else []

/-- A rectangle of the active state. -/
def State.actRect (s : State) (n k : Nat) : Rect :=
  { x := s.get (Reg.PROT_ACT_RECT_POS_X n k), y := s.get (Reg.PROT_ACT_RECT_POS_Y n k),
    w := s.get (Reg.PROT_ACT_RECT_SIZE_W n k), h := s.get (Reg.PROT_ACT_RECT_SIZE_H n k) }

/-- Whether a pixel lies in a rectangle. -/
def Rect.holds (r : Rect) (x y : Nat) : Bool := decide (r.x ≤ x ∧ x < r.x + r.w ∧ r.y ≤ y ∧ y < r.y + r.h)

/-- Whether two rectangles share a pixel. -/
def Rect.overlaps (a b : Rect) : Bool := decide (a.x < b.x + b.w ∧ b.x < a.x + a.w ∧ a.y < b.y + b.h ∧ b.y < a.y + a.h)

/-- Whether a rectangle lies wholly in an area. -/
def Rect.inside (r : Rect) (w h : Nat) : Bool := decide (r.x + r.w ≤ w ∧ r.y + r.h ≤ h)

/-- An event of PROT_n_STATUS; it raises no interrupt source of its own. -/
def State.protEvent (s : State) (n : Nat) (flag : Fld) : State := (s.set flag 1).count (Reg.PROT_STATUS_EVENTS n)

/-- An event of DPO_n_CMP_STATUS: source 33 + n. -/
def State.cmpEvent (s : State) (p : Nat) (flag : Fld) : State := s.event flag (Reg.DPO_CMP_STATUS_EVENTS p) (33 + p)

/-- The sextant that is ACTIVE. -/
def State.activeSextant (s : State) : Option Nat := firstBelow 2 (fun k => s.get (Reg.SXT_STATUS_STATE k) == 0)

end Sys2Proof.Machine
end

