-- ==== Sys2Proof/Machine/TouchOps.lean ====
section
/-! DEFINITION. Contacts and their records: the 32-byte record of R282, and the release of contacts with a flag (R261,
R277, R278, R394). -/

namespace Sys2Proof.Machine

/-- A link and engine's record. -/
def State.tch (s : State) (n : Nat) : TouchState := sget (fun _ => {}) s.touch n

/-- A link and engine's record set. -/
def State.setTch (s : State) (n : Nat) (r : TouchState) : State := { s with touch := sput (fun _ => {}) s.touch n r }

/-- Record types (R282). -/
def recDown : Nat := 1
/-- MOVE. -/
def recMove : Nat := 2
/-- UP. -/
def recUp : Nat := 3
/-- SYNC. -/
def recSync : Nat := 4

/-- Flag bits of a record (R282). -/
def flagStartHeld : Nat := 0x001
/-- OBSTRUCTED. -/
def flagObstructed : Nat := 0x002
/-- PALM. -/
def flagPalm : Nat := 0x004
/-- PROTECTED. -/
def flagProtected : Nat := 0x008
/-- LOST. -/
def flagLost : Nat := 0x010
/-- SUSPENDED. -/
def flagSuspended : Nat := 0x020
/-- NOISE. -/
def flagNoise : Nat := 0x040
/-- HALF. -/
def flagHalf : Nat := 0x080
/-- BUTTON. -/
def flagButton : Nat := 0x100

/-- R282: a record of a contact of panel n. -/
def touchRecord (n type flags drum : Nat) (c : Contact) : List Byte :=
  leBytes 4 (type * 2 ^ 24 + c.id * 2 ^ 16 + n * 2 ^ 12 + flags) ++ leBytes 4 c.x ++ leBytes 4 (c.inten * 2 ^ 16 + c.y)
    ++ leBytes 4 c.hitFrame ++ leBytes 8 drum ++ leBytes 4 (c.area * 2 ^ 8 + c.zone) ++ leBytes 4 0

/-- R60, R282: the SYNC record of a session on panel n: the IDs it holds down. -/
def syncRecord (n drum : Nat) (ids : List Nat) : List Byte :=
  leBytes 4 (recSync * 2 ^ 24 + n * 2 ^ 12) ++ leBytes 4 (ids.foldl (fun a i => setBitOf a i) 0) ++ leBytes 8 0
    ++ leBytes 8 drum ++ leBytes 4 0xFF ++ leBytes 4 0

/-- The flags that stand in every record of a contact: START_HELD, BUTTON, NOISE of the engine's mode, and HALF where its
peak lies in the half that was not scanned (R263). -/
def State.contactFlags (s : State) (n : Nat) (c : Contact) : Nat :=
  (if c.startHeld then flagStartHeld else 0) + (if c.button then flagButton else 0)
    + (if s.bit (Reg.TOUCH_STATUS_NOISE n) then flagNoise else 0)
    + (let k := (s.tch n).scan
       if k.half ≠ 0 ∧ ¬(k.first ≤ c.pad / 128 ∧ c.pad / 128 < k.first + k.groups) then flagHalf else 0)

/-! ### Routing (R205, R206, R285, R286) -/

/-- The screen an engine is associated with. -/
def State.tScreen (s : State) (n : Nat) : Nat := s.get (Reg.TOUCH_CTRL_SCREEN n)

/-- The hit map of the associated screen, while it runs (R205, R285). -/
def State.hitNow (s : State) (n : Nat) : Option HitMap :=
  if s.running (s.tScreen n) then (s.scr (s.tScreen n)).hit else none

/-- Whether a zone holds a pixel; its corners are inclusive. -/
def zoneHolds (a b : Word) (x y : Nat) : Bool :=
  decide (getBits a 0 16 ≤ x ∧ x ≤ getBits b 0 16 ∧ getBits a 16 16 ≤ y ∧ y ≤ getBits b 16 16)

/-- R286: the zone of a session's record at a place: 0x80 + k for a secure zone, 0xFF for none. -/
def State.zoneAt (s : State) (n session x y : Nat) : Nat :=
  let px := x / 16
  let py := y / 16
  if session = 0 then
    match firstBelow 4 (fun k => s.bit (Reg.TOUCH_SZONE_CTRL_EN n k)
        && zoneHolds (s.reg (Reg.TOUCH_SZONE_A n k)) (s.reg (Reg.TOUCH_SZONE_B n k)) px py) with
    | some k => 0x80 + k
    | none => 0xFF
  else
    (firstBelow 32 fun k => s.bit (Reg.TOUCH_ZONE_CTRL_EN n k) && s.bit (Reg.TOUCH_ZONE_OWNER_VALID n k)
      && s.get (Reg.TOUCH_ZONE_OWNER_SESSION n k) == session
      && zoneHolds (s.reg (Reg.TOUCH_ZONE_A n k)) (s.reg (Reg.TOUCH_ZONE_B n k)) px py).getD 0xFF

/-- The zone of a contact's record; 0xFF where it goes to no session. -/
def State.contactZone (s : State) (n : Nat) (c : Contact) : Nat :=
  match c.session with
  | some k => s.zoneAt n k c.x c.y
  | none => 0xFF

/-- What a record of a contact says that is taken at its report: the map's frame and the zone. -/
def State.stamp (s : State) (n : Nat) (c : Contact) : Contact :=
  { c with hitFrame := ((s.hitNow n).map (·.frame)).getD c.hitFrame, zone := s.contactZone n c }

/-- A record of a contact goes to its session's queue (R60, R282); a contact in a NONE tile has none (R285). A SYNC
written ahead of it makes the next report write a MOVE for every ID it names (R283), also where the ring has no room left for the record itself. -/
def State.contactRecord (s : State) (n type flags : Nat) (c : Contact) : State :=
  match c.session with
  | none => s
  | some k =>
    let drum := (s.tch n).scan.drum
    let ids := ((s.tch n).contacts.filter (fun d => d.session == some k)).map (·.id)
    let sync := (s.ses k).tqSync && s.bit (Reg.SESS_TQ_CTRL_EN k) && !s.tqFull k
    let s := s.tqWrite (s.ownerWorld 0x10 n) k (touchRecord n type (flags ||| s.contactFlags n c) drum c)
      (syncRecord n drum ids)
    if sync then
      let t := s.tch n
      s.setTch n { t with contacts := t.contacts.map fun d => if d.session == some k then { d with resend := true } else d }
    else s

/-- Every contact of a panel is released with a flag (R261, R278, R281, R394): an UP record each, in rising ID,
with the map's frame and the zone of its moment. -/
def State.releaseContacts (s : State) (n flags : Nat) : State :=
  let cs := (s.tch n).contacts
  let s := s.each cs (fun c t => t.contactRecord n recUp flags (t.stamp n c))
  s.setTch n { s.tch n with contacts := [], candidates := [] }

/-- R260: the scan of the beat is discarded, and counted; `seqTime` where SEQ_ERR or TIMEOUT discards it. -/
def State.scanDiscard (s : State) (n : Nat) (seqTime : Bool) : State :=
  let t := s.tch n
  if !t.scan.active then s
  else
    let s := s.setTch n { t with scan := { t.scan with active := false }, discarded := t.discarded + 1 }
    (s.count (Reg.TSL_SCANS_DISCARDED n)).when seqTime (·.count (Reg.TSL_SCANS_SEQ_TIMEOUT n))

/-- R266: a screen stops: the scans that sample in its blankings are discarded. -/
def State.quietStopped (s : State) (n : Nat) : State :=
  s.each (List.range 8) fun k t =>
    if (t.tch k).scan.quiet && t.get (Reg.TOUCH_CTRL_SCREEN k) == n then t.scanDiscard k false else t

/-- An engine whose scan, self-test or recapture ends without a result. -/
def State.touchAbandon (s : State) (n : Nat) : State :=
  let s := s.setTch n { s.tch n with scan := { (s.tch n).scan with active := false }, reportDue := false }
  ((s.set (Reg.TOUCH_CTRL_SELFTEST n) 0).set (Reg.TOUCH_CTRL_RECAPTURE n) 0).set (Reg.TOUCH_ST_RESULT_RUNNING n) 0

end Sys2Proof.Machine
end

