-- ==== Sys2Proof/Machine/Faults.lean ====
section
/-! DEFINITION. Reactions: containment of a C2 scope and the C3 safe state, and the raising of an input with its reaction
(R387 to R396, R389, R483). -/

namespace Sys2Proof.Machine

/-- A scope with a harmless state of its own (R394). -/
inductive Scope where
  | screen (n : Nat) | haptic (n : Nat) | touch (n : Nat) | audio
deriving DecidableEq, Repr

/-- R394: a touch engine goes to PHASE HALTED and every contact is released with LOST; a scan, a self-test or a recapture ends
without a result. -/
def State.touchHalt (s : State) (n : Nat) : State :=
  let s := (s.releaseContacts n flagLost).touchAbandon n
  (s.setTch n { s.tch n with contained := true }).set (Reg.TOUCH_STATUS_PHASE n) 6

/-- R394: a scope goes to its harmless state. -/
def State.contain (s : State) : Scope → State
  | .screen n => s.containScreen n
  | .haptic n => if s.hcState n = 4 then s else s.hapFault n
  | .touch n => s.touchHalt n
  | .audio => { s with audQuiet := true }

/-- R207, R395: what the C3 reaction does to a screen: one that runs goes to its harmless state, and the others will start in the
one that SAFE_ACTION selects now. -/
def State.c3Screen (s : State) (n : Nat) : State :=
  if !s.running n then s.setScr n { s.scr n with c3Act := some ((s.scr n).c3Act.getD (s.safeHarbour n)) }
  else if (s.scr n).c3.isNone then (s.setScr n { s.scr n with c3 := some (s.safeHarbour n, s.frame n) }).harbourIrq n
  else s

/-- R395: the C3 reaction takes effect: safe state of every running screen, backlights released, haptic channels in
FAULT and HV_EN low, SAFE_N low, the toll stopped, audio silenced. -/
def State.c3React (s : State) : State :=
  let s := s.set Reg.FLT_STATUS_C3 1
  let s := s.each allScreens fun n t => t.c3Screen n
  let s := s.each allScreens fun p t => t.blLow p
  let s := s.each hapChannels fun n t => if t.hcState n = 4 then t else t.hapFault n
  let s := s.hvFall
  let s := (s.set Reg.FLT_CTRL_SAFE_OK 0).set Reg.FLT_STATUS_SAFE_N_LOW 1
  { s.stopToll 1 with audQuiet := true }

/-- The screens to which a layer or scaler instance of a group is bound, or that show a video input (R389). -/
def State.layersBound (s : State) (p : Nat → Bool) : List Nat :=
  allScreens.filter fun n =>
    allLayers.any fun l => s.bit (Reg.LAYER_BIND_VALID l) && s.get (Reg.LAYER_BIND_SCREEN l) == n && p l

/-- R389: the scopes of an uncorrectable error in array group g. -/
def State.arrayScopes (s : State) (g : Nat) : List Scope :=
  let (u, i, span) := arrayGroup g
  let has := fun k => decide (i ≤ k ∧ k ≤ i + span)
  if u = 0x02 ∨ u = 0x07 then [.screen i]
  else if u = 0x04 then (s.portScreen i).toList.map .screen
  else if u = 0x06 then (s.layersBound has).map .screen
  else if u = 0x08 then
    (s.layersBound (fun l => (List.range 24).any fun k =>
      has k && s.bit (Reg.SCL_STATUS_CLAIMED k) && s.get (Reg.SCL_STATUS_LAYER k) == l)).map .screen
  else if u = 0x09 then
    (s.layersBound (fun l => s.bit (Reg.LAYER_BIND_VIN_EN l) && s.get (Reg.LAYER_BIND_VIN l) == i)).map .screen
  else if u = 0x12 then hapChannels.map .haptic
  else if u = 0x0F ∨ u = 0x10 then [.touch i]
  else if u = 0x13 ∨ u = 0x14 ∨ u = 0x15 then [.audio]
  else if u = 0x03 then
    (allScreens.filter (fun n => s.running n && s.pipeOf n == i)).map .screen
  else []

/-- R388, R389: the scopes of an input that have a harmless state under R394. A pipe and a port are taken as the screen
they drive (R392); a device, a sextant, a core, a rectangle and a memory side have none here (log entry 21). -/
def State.scopes (s : State) (k : Nat) : List Scope :=
  if 16 ≤ k ∧ k ≤ 23 then [.screen (k - 16)]
  else if 32 ≤ k ∧ k ≤ 51 then
    (allScreens.filter (fun n => s.running n && s.pipeOf n == (if k < 42 then k - 32 else k - 42))).map .screen
  else if 64 ≤ k ∧ k ≤ 71 then [.screen (k - 64)]
  else if 96 ≤ k ∧ k ≤ 111 then (s.portScreen ((k - 96) % 8)).toList.map .screen
  else if 160 ≤ k ∧ k ≤ 167 then [.touch (k - 160)]
  else if 184 ≤ k ∧ k ≤ 191 then [.touch (k - 184)]
  else if 192 ≤ k ∧ k ≤ 207 then [.haptic (k - 192)]
  else if 352 ≤ k ∧ k ≤ 447 then s.arrayScopes (k - 352)
  else []

/-- R389: an ARRAY_UE input of class C2 whose scope is a screen and which has none is handled as C0. -/
def State.emptyScope (s : State) (k : Nat) : Bool :=
  let u := (arrayGroup (k - 352)).1
  if 352 ≤ k ∧ k ≤ 447 then
    (u == 0x02 || u == 0x07 || u == 0x04 || u == 0x06 || u == 0x08 || u == 0x09) && s.faultClass k == 2
      && (s.arrayScopes (k - 352)).isEmpty
  else 96 ≤ k && k ≤ 111 && s.faultClass k == 2 && (s.portScreen ((k - 96) % 8)).isNone

/-- R387, R391, R393: an input raises an event and its reaction takes effect. -/
def State.raiseFault (s : State) (k : Nat) (c : Option Capture := none) : State :=
  let cls := s.faultClass k
  if s.emptyScope k then s.faultRecord k c (some 0)
  else
    let scopes := if 2 ≤ cls then s.scopes k else []
    let t := (s.faultRecord k c).each scopes (fun x t => t.contain x)
    if cls = 3 then t.c3React.inOrder s else t

end Sys2Proof.Machine
end

