-- ==== Sys2Proof/Machine/Pixel.lean ====
section
/-! DEFINITION. The path of a pixel, to the last bit: unpacking and expansion, chroma upsampling, decimation and scaling,
range expansion and matrices, blending, gamma, dither and replication, and the harbour image (R112 to R117, R133 to R137,
R147, R149 to R157, R163 to R171, R181, R190 to R192, R481). -/

namespace Sys2Proof.Machine

/-- Three components and an alpha: 12-bit components, alpha 0 to 1,024. -/
structure Px where
  /-- R or Y -/
  c0 : Int
  /-- G or U -/
  c1 : Int
  /-- B or V -/
  c2 : Int
  /-- alpha -/
  a : Int
deriving DecidableEq, Repr

/-! ### Expansion (R149, R150) -/

/-- 8-bit R, G or B to 12 bits. -/
def exp8 (c : Nat) : Nat := c * 16 + c / 16
/-- 10-bit R, G or B to 12 bits. -/
def exp10 (c : Nat) : Nat := c * 4 + c / 256
/-- 5-bit R or B to 12 bits. -/
def exp5 (c : Nat) : Nat := c * 128 + c * 4 + c / 8
/-- 6-bit G to 12 bits. -/
def exp6 (c : Nat) : Nat := c * 64 + c
/-- 8-bit alpha. -/
def alpha8 (a : Nat) : Nat := (a + a / 128) * 4
/-- 2-bit alpha. -/
def alpha2 (a : Nat) : Nat := if a = 0 then 0 else if a = 1 then 341 else if a = 2 then 683 else 1024
/-- 10-bit plane alpha. -/
def alpha10 (a : Nat) : Nat := a + a / 512

/-- A pixel of natural components. -/
def Px.of (r g b a : Nat) : Px := { c0 := r, c1 := g, c2 := b, a := a }

/-- An ARGB8888 word as a pixel. -/
def argbPx (w : Nat) : Px := .of (exp8 (w / 2 ^ 16 % 256)) (exp8 (w / 2 ^ 8 % 256)) (exp8 (w % 256)) (alpha8 (w / 2 ^ 24 % 256))

/-- A 10-bit-per-component word, R in [29:20], as a pixel. -/
def rgb30Px (w : Nat) : Px := .of (exp10 (w / 2 ^ 20 % 1024)) (exp10 (w / 2 ^ 10 % 1024)) (exp10 (w % 1024)) 1024

/-! ### Where a layer's pixels come from -/

/-- A layer's buffer and crop. -/
structure Source where
  /-- world of the fetch -/
  world : World
  /-- format code (R112, R481) -/
  fmt : Nat
  /-- addresses of planes 0, 1 and 2 -/
  base : List Nat
  /-- pitch of plane 0 in bytes -/
  stride0 : Nat
  /-- pitch of planes 1 and 2 in bytes -/
  stride1 : Nat
  /-- crop -/
  crop : Rect
  /-- interstitial horizontally -/
  sitH : Bool
  /-- interstitial vertically -/
  sitV : Bool
deriving DecidableEq, Repr

/-- A format of the YUV family. -/
def fmtYuv (f : Nat) : Bool := 8 ≤ f
/-- A format with horizontal chroma subsampling. -/
def fmtSubH (f : Nat) : Bool := 8 ≤ f && f ≤ 14
/-- A 4:2:0 format. -/
def fmtSubV (f : Nat) : Bool := f == 9 || f == 10 || f == 12 || f == 14
/-- A reserved format code (R112). -/
def fmtReserved (f : Nat) : Bool := f == 6 || f == 7 || 16 ≤ f
/-- Planes of a format. -/
def fmtPlanes (f : Nat) : Nat := if f = 14 ∨ f = 15 then 3 else if 9 ≤ f ∧ f ≤ 13 then 2 else 1

/-- R113: row bytes of a plane for the crop's right edge. -/
def rowBytes (f p w : Nat) : Nat :=
  if p = 0 then
    (if f = 0 ∨ f = 1 ∨ f = 2 ∨ f = 4 then 4 * w else if f = 3 ∨ f = 8 ∨ f = 12 ∨ f = 13 then 2 * w else w)
  else if f = 12 ∨ f = 13 then 2 * w else if f = 14 then w / 2 else w

/-- R113: rows of a plane for the crop's bottom edge. -/
def planeRows (f p h : Nat) : Nat := if p = 0 then h else if fmtSubV f then h / 2 else h

/-- The format a video input stores frames in (R481). -/
def State.vinFormat (s : State) (v : Nat) : Nat := if s.bit (Reg.VIN_CTRL_DT v) then 1 else 8

/-- The buffer and crop of a layer's active state; none for a video input that has given no frame. -/
def State.layerSource (s : State) (l : Nat) : Option Source :=
  let crop : Rect := { x := s.get (Reg.LAYER_ACT_SRC_POS_X l), y := s.get (Reg.LAYER_ACT_SRC_POS_Y l),
                       w := s.get (Reg.LAYER_ACT_SRC_SIZE_W l), h := s.get (Reg.LAYER_ACT_SRC_SIZE_H l) }
  let sitH := s.bit (Reg.LAYER_ACT_CTRL_SITING_H l)
  let sitV := s.bit (Reg.LAYER_ACT_CTRL_SITING_V l)
  let world := World.normal
  if s.bit (Reg.LAYER_ACT_CTRL_SOURCE l) then
    (s.lay l).vinShown.map fun f =>
      { world := world, fmt := f.fmt, base := [f.base], stride0 := f.stride, stride1 := 0, crop := crop, sitH := sitH, sitV := sitV }
  else
    some { world := world, fmt := s.get (Reg.LAYER_ACT_CTRL_FORMAT l),
           base := [0, 1, 2].map (fun p => 256 * s.get (Reg.LAYER_ACT_ADDR_ADDR l p)),
           stride0 := s.get (Reg.LAYER_ACT_SRC_STRIDE_STRIDE0 l) * 64,
           stride1 := s.get (Reg.LAYER_ACT_SRC_STRIDE_STRIDE1 l) * 64, crop := crop, sitH := sitH, sitV := sitV }

/-- A little-endian number read from memory; none where the read returns poison, or waits for a side's start (R213). -/
def State.fetch (s : State) (w : World) (a len : Nat) : Option Nat :=
  if s.startWaits a len then none else (s.readBytes w a len).map leNat

/-- A palette entry of a layer's active copy (R129). -/
def LayerState.entry (r : LayerState) (i : Nat) : Nat :=
  (sget (fun _ => (0 : Word)) (if r.palSecond then r.pal1 else r.pal0) i).toNat

/-- A palette entry of a protected layer's active copy (R129, R171). -/
def ProtState.entry (r : ProtState) (i : Nat) : Nat :=
  (sget (fun _ => (0 : Word)) (if r.palSecond then r.pal1 else r.pal0) i).toNat

/-- R112: the pixel of an RGB or indexed format at a column and row of its buffer. -/
def State.rgbAt (s : State) (l : Nat) (c : Source) (x y : Nat) : Option Px :=
  let row := c.base.headD 0 + y * c.stride0
  match c.fmt with
  | 0 => (s.fetch c.world (row + 4 * x) 4).map argbPx
  | 1 => (s.fetch c.world (row + 4 * x) 4).map fun w => { argbPx w with a := 1024 }
  | 2 => (s.fetch c.world (row + 4 * x) 4).map fun w =>
      .of (exp8 (w % 256)) (exp8 (w / 2 ^ 8 % 256)) (exp8 (w / 2 ^ 16 % 256)) (alpha8 (w / 2 ^ 24 % 256))
  | 3 => (s.fetch c.world (row + 2 * x) 2).map fun w =>
      .of (exp5 (w / 2 ^ 11 % 32)) (exp6 (w / 2 ^ 5 % 64)) (exp5 (w % 32)) 1024
  | 4 => (s.fetch c.world (row + 4 * x) 4).map fun w => { rgb30Px w with a := alpha2 (w / 2 ^ 30 % 4) }
  | _ => (s.fetch c.world (row + x) 1).map fun i => argbPx ((s.lay l).entry i)

/-- R112, R149: the 12-bit Y of a YUV format. -/
def State.lumaAt (s : State) (c : Source) (x y : Nat) : Option Int :=
  let row := c.base.headD 0 + y * c.stride0
  match c.fmt with
  | 8 => (s.fetch c.world (row + 2 * x) 1).map fun v => (v * 16 : Int)
  | 12 | 13 => (s.fetch c.world (row + 2 * x) 2).map fun v => (v / 64 % 1024 * 4 : Int)
  | _ => (s.fetch c.world (row + x) 1).map fun v => (v * 16 : Int)

/-- R112, R149: a 12-bit chroma sample, U or V, at a chroma column and row. -/
def State.chromaAt (s : State) (c : Source) (v : Bool) (i j : Nat) : Option Int :=
  let b0 := c.base.headD 0
  let b1 := c.base.getD 1 0 + j * c.stride1
  let b2 := c.base.getD 2 0 + j * c.stride1
  let sw := b2n v
  let eight := fun (a : Nat) => (s.fetch c.world a 1).map fun u => (u * 16 : Int)
  match c.fmt with
  | 8 => eight (b0 + j * c.stride0 + 4 * i + 1 + 2 * sw)
  | 10 => eight (b1 + 2 * i + 1 - sw)
  | 12 | 13 => (s.fetch c.world (b1 + 4 * i + 2 * sw) 2).map fun u => (u / 64 % 1024 * 4 : Int)
  | 14 | 15 => eight ((if v then b2 else b1) + i)
  | _ => eight (b1 + 2 * i + sw)

/-- R115: the filter of one direction at luma position p over samples given by index. -/
def upsample (inter : Bool) (p : Nat) (get : Int → Option Int) : Option Int := do
  let i : Int := ((p / 2 : Nat) : Int)
  if !inter && p % 2 == 0 then get i
  else
    let (c, t0, t1, t2, t3) : Int × Int × Int × Int × Int :=
      if !inter then (i - 1, -4, 36, 36, -4)
      else if p % 2 = 0 then (i - 2, -2, 15, 55, -4) else (i - 1, -4, 55, 15, -2)
    let a ← get c
    let b ← get (c + 1)
    let d ← get (c + 2)
    let e ← get (c + 3)
    return clampInt 0 4095 (asr (t0 * a + t1 * b + t2 * d + t3 * e + 32) 6)

/-- R114 to R116: U or V at a luma position, vertical direction first. -/
def State.chromaFull (s : State) (c : Source) (v : Bool) (x y : Nat) : Option Int :=
  let loX := c.crop.x / 2
  let hiX := (c.crop.x + c.crop.w) / 2 - 1
  let loY := c.crop.y / 2
  let hiY := (c.crop.y + c.crop.h) / 2 - 1
  let col := fun (i : Nat) =>
    if fmtSubV c.fmt then upsample c.sitV y fun j => s.chromaAt c v i (clampInt loY hiY j).toNat
    else s.chromaAt c v i y
  if fmtSubH c.fmt then upsample c.sitH x fun i => col (clampInt loX hiX i).toNat else col x

/-- A source pixel at full resolution (stages 2 and 3 of the path). -/
def State.srcPx (s : State) (l : Nat) (c : Source) (x y : Nat) : Option Px :=
  if fmtYuv c.fmt then do
    let a ← s.lumaAt c x y
    let u ← s.chromaFull c false x y
    let v ← s.chromaFull c true x y
    return { c0 := a, c1 := u, c2 := v, a := 1024 }
  else s.rgbAt l c x y

/-- The sum of two pixels, component by component. -/
def Px.add (p q : Px) : Px := { c0 := p.c0 + q.c0, c1 := p.c1 + q.c1, c2 := p.c2 + q.c2, a := p.a + q.a }

/-- A pixel with one operation on every component. -/
def Px.map (f : Int → Int) (p : Px) : Px := { c0 := f p.c0, c1 := f p.c1, c2 := f p.c2, a := f p.a }

/-- R133: a pre-decimation factor; the reserved code never reaches here. -/
def decim (code : Nat) : Nat := 2 ^ min code 2

/-- R137: a pixel of the decimated source. -/
def State.decPx (s : State) (l : Nat) (c : Source) (nh nv x y : Nat) : Option Px := do
  let ps ← (List.range nh).mapM fun i => s.srcPx l c (c.crop.x + nh * x + i) (c.crop.y + nv * y)
  let t := ps.foldl Px.add (Px.of 0 0 0 0)
  return t.map fun v => (v + (nh / 2 : Nat)) / (nh : Nat)

/-! ### Scaling (R133 to R136) -/

/-- R133: a step. -/
def scaleStep (src dst : Nat) : Nat := 65536 * src / dst

/-- R134: the source position of a destination column or row. -/
def scalePos (step x : Nat) : Int := (x * step : Nat) + (((step : Int) - 65536) / 2)

/-- A coefficient of a scaler's active bank: phase, tap, horizontal or vertical (R141, R142). -/
def State.sclCoef (s : State) (k : Nat) (horiz : Bool) (phase tap : Nat) : Int :=
  let m := if horiz then 4 * phase + tap / 2 else 3 * phase + tap / 2
  let b := s.bit (Reg.SCL_STATUS_ACTIVE_BANK k)
  let w := s.reg (if horiz then (if b then Reg.SCL_COEF_BH k m else Reg.SCL_COEF_AH k m)
    else (if b then Reg.SCL_COEF_BV k m else Reg.SCL_COEF_AV k m))
  sext 12 (getBits w (if tap % 2 = 0 then 0 else 16) 12)

/-- R136: the end of a filter: rounding, the shift, and the bounds of each component. -/
def Px.filterEnd (p : Px) : Px :=
  let f := fun v => clampInt 0 4095 (asr (v + 512) 10)
  { c0 := f p.c0, c1 := f p.c1, c2 := f p.c2, a := clampInt 0 1024 (asr (p.a + 512) 10) }

/-- R136: one filter: a sum of weighted pixels. -/
def filterSum (taps : Nat) (coef : Nat → Int) (get : Nat → Option Px) : Option Px := do
  let ps ← (List.range taps).mapM get
  return (ps.zipIdx.foldl (fun t q => t.add (q.1.map (coef q.2 * ·))) (Px.of 0 0 0 0)).filterEnd

/-- R134 to R136: a pixel of the scaled layer. A ganged pair reads the even scaler's bank (DESIGN CHOICE, log entry 106). -/
def State.scaledPx (s : State) (l : Nat) (c : Source) (k nh nv dw dh x y : Nat) : Option Px :=
  let sw := c.crop.w / nh
  let sh := c.crop.h / nv
  let ph := scalePos (scaleStep sw dw) x
  let pv := scalePos (scaleStep sh dh) y
  let phaseH := (asr ph 10 % 64).toNat
  let phaseV := (asr pv 10 % 64).toNat
  let col := fun (cx : Nat) =>
    filterSum 6 (s.sclCoef k false phaseV) fun j =>
      s.decPx l c nh nv cx (clampInt 0 ((sh : Int) - 1) (asr pv 16 - 2 + j)).toNat
  filterSum 8 (s.sclCoef k true phaseH) fun i => col (clampInt 0 ((sw : Int) - 1) (asr ph 16 - 3 + i)).toNat

/-! ### Range expansion and matrices (R151, R152) -/

/-- R151: the luma rule. -/
def rangeLuma (c : Int) : Int := clampInt 0 4095 (asr ((c - 256) * 4787 + 2048) 12)
/-- R151: the chroma rule. -/
def rangeChroma (c : Int) : Int := clampInt 0 4095 (asr ((c - 2048) * 4680 + 2048) 12 + 2048)

/-- R151: range expansion of a pixel. -/
def rangePx (yuv : Bool) (p : Px) : Px :=
  if yuv then { p with c0 := rangeLuma p.c0, c1 := rangeChroma p.c1, c2 := rangeChroma p.c2 }
  else { p with c0 := rangeLuma p.c0, c1 := rangeLuma p.c1, c2 := rangeLuma p.c2 }

/-- R152: one row of a matrix: the words A and B of the row. -/
def matrixRow (a b : Word) (p : Px) : Int :=
  let c0 := sext 16 (getBits a 0 16)
  let c1 := sext 16 (getBits a 16 16)
  let c2 := sext 16 (getBits b 0 16)
  let o := sext 13 (getBits b 16 13)
  clampInt 0 4095 (asr (c0 * p.c0 + c1 * p.c1 + c2 * p.c2 + 4096 * o + 2048) 12)

/-- R152: a matrix of three rows. -/
def matrixPx (rows : Nat → Word × Word) (p : Px) : Px :=
  { c0 := matrixRow (rows 0).1 (rows 0).2 p, c1 := matrixRow (rows 1).1 (rows 1).2 p,
    c2 := matrixRow (rows 2).1 (rows 2).2 p, a := p.a }

/-- R151 to R153: the stages from the scaler to the blender. -/
def State.layerColour (s : State) (l : Nat) (fmt : Nat) (p : Px) : Px :=
  let p := if s.bit (Reg.LAYER_ACT_CSC_CTRL_RANGE_EXP l) then rangePx (fmtYuv fmt) p else p
  if s.bit (Reg.LAYER_ACT_CSC_CTRL_MTX_EN l) then
    matrixPx (fun i => (s.reg (Reg.LAYER_ACT_MTX_A l i), s.reg (Reg.LAYER_ACT_MTX_B l i))) p
  else p

/-- A layer's pixel at a place of its destination rectangle, after the matrix. -/
def State.layerPx (s : State) (l : Nat) (c : Source) (x y : Nat) : Option Px :=
  let nh := decim (s.get (Reg.LAYER_ACT_CTRL_DECIM_H l))
  let nv := decim (s.get (Reg.LAYER_ACT_CTRL_DECIM_V l))
  (if s.bit (Reg.LAYER_ACT_SCALE_SCL_EN l) then
    s.scaledPx l c (s.get (Reg.LAYER_ACT_SCALE_SCALER l)) nh nv (s.get (Reg.LAYER_ACT_DST_SIZE_W l))
      (s.get (Reg.LAYER_ACT_DST_SIZE_H l)) x y
  else s.decPx l c 1 1 x y).map (s.layerColour l c.fmt)

/-! ### Blending (R154 to R157) -/

/-- R155, R156: one component over the component beneath; mode 0 STRAIGHT, 1 PREMULT, 2 OPAQUE. -/
def blendComp (mode : Nat) (s al alpha d : Int) : Int :=
  if mode = 1 then min 4095 (asr (s * al + 512) 10 + asr (d * (1024 - alpha) + 512) 10)
  else min 4095 (asr (s * alpha + d * (1024 - alpha) + 512) 10)

/-- R155, R156: a layer pixel over what lies beneath it. -/
def blendPx (mode : Nat) (al : Int) (p d : Px) : Px :=
  let ap := if mode = 2 then 1024 else p.a
  let alpha := asr (ap * al + 512) 10
  { c0 := blendComp mode p.c0 al alpha d.c0, c1 := blendComp mode p.c1 al alpha d.c1,
    c2 := blendComp mode p.c2 al alpha d.c2, a := 1024 }

/-- What a layer puts into a frame (R119 to R121, R131, R132). -/
inductive Shows where
  | nothing | fill | content
deriving DecidableEq, Repr

/-- R131, R132, R154: how a layer takes part in the frame of a screen, lateness and poison left aside. -/
def State.shows (s : State) (l : Nat) : Shows :=
  if !s.bit (Reg.LAYER_ACT_CTRL_EN l) then .nothing
  else
    let frozen := s.bit (Reg.LAYER_STATUS_FROZEN_SRC l)
    if s.get (Reg.LAYER_STATUS_READY_STATE l) = 2 then
      match s.get (Reg.LAYER_READY_POLICY_ACTION l) with
      | 1 => .fill
      | 2 => if frozen then .nothing else .content
      | _ => .nothing
    else if frozen then .nothing else .content

/-- The layer bound to a screen at a stack position (R107). -/
def State.layerAt (s : State) (n z : Nat) : Option Nat :=
  firstBelow 64 fun l => s.bit (Reg.LAYER_BIND_VALID l) && s.get (Reg.LAYER_BIND_SCREEN l) == n
    && s.get (Reg.LAYER_BIND_Z l) == z

/-- The layers bound to a screen, lowest first. -/
def State.layersOf (s : State) (n : Nat) : List Nat := (List.range 16).filterMap (s.layerAt n)

/-- A layer's destination in its active state. -/
def State.actDst (s : State) (l : Nat) : Rect :=
  { x := s.get (Reg.LAYER_ACT_DST_POS_X l), y := s.get (Reg.LAYER_ACT_DST_POS_Y l),
    w := s.get (Reg.LAYER_ACT_DST_SIZE_W l), h := s.get (Reg.LAYER_ACT_DST_SIZE_H l) }

/-- A layer's contribution to one line. -/
structure LayerLine where
  /-- first pixel -/
  x : Nat
  /-- ALPHA_MODE -/
  mode : Nat
  /-- plane alpha -/
  al : Int
  /-- pixels -/
  px : List Px
deriving DecidableEq, Repr

/-- A layer's contribution to line y, or none where a fetch returned poison (R120). -/
def State.layerLine (s : State) (l y : Nat) : Option LayerLine :=
  let d := s.actDst l
  let line := fun (px : List Px) (mode : Nat) (al : Int) => ({ x := d.x, mode := mode, al := al, px := px } : LayerLine)
  if y < d.y ∨ d.y + d.h ≤ y then some (line [] 0 0)
  else match s.shows l with
    | .nothing => some (line [] 0 0)
    | .fill => some (line (List.replicate d.w (argbPx (s.reg (Reg.LAYER_FILL l)).toNat)) 0 1024)
    | .content =>
      match s.layerSource l with
      | none => some (line [] 0 0)
      | some c =>
        ((List.range d.w).mapM fun x => s.layerPx l c x (y - d.y)).map fun px =>
          line px (s.get (Reg.LAYER_ACT_BLEND_ALPHA_MODE l))
            (alpha10 (s.get (Reg.LAYER_ACT_BLEND_PLANE_ALPHA l)) : Nat)

/-- The state with the start of each side over: what reads that wait for it will find. -/
def State.startsOver (s : State) : State :=
  s.each [0, 1] fun n t => if t.sideStarting n then t.set (Reg.MSIDE_STATUS_STATE n) 3 else t

/-- R213: whether a layer's data for line y waits for a side's start, and returns no poison then. -/
def State.layStarts (s : State) (l y : Nat) : Bool :=
  (s.sideStarting 0 || s.sideStarting 1) && (s.layerLine l y).isNone && (s.startsOver.layerLine l y).isSome

/-- R154: the general layers of one pixel, over the background. -/
def blendStack (bg : Px) (ls : List LayerLine) (x : Nat) : Px :=
  ls.foldl (fun d l => if l.x ≤ x then
    (match l.px[x - l.x]? with | some p => blendPx l.mode l.al p d | none => d) else d) bg

/-! ### Output processing (R163 to R168) -/

/-- An entry of a gamma bank: the active one, or the other. -/
def State.lutAddr (s : State) (n c k : Nat) (active : Bool) : Nat :=
  if s.bit (Reg.SCREEN_OUT_STATUS_ACTIVE_BANK n) != active then Reg.SCREEN_LUTA n c k else Reg.SCREEN_LUT n c k

/-- R164: an entry of the active table. -/
def State.lut (s : State) (n c k : Nat) : Int := ((getBits (s.reg (s.lutAddr n c k true)) 0 14 : Nat) : Int)

/-- R164: gamma. -/
def State.gamma (s : State) (n c : Nat) (x : Int) : Int :=
  if !s.bit (Reg.SCREEN_ACT_OUT_CTRL_GAMMA_EN n) then x * 4
  else
    let i := (x / 4).toNat
    let a := s.lut n c i
    let b := if i = 1023 then 2 * a - s.lut n c 1022 else s.lut n c (i + 1)
    clampInt 0 16383 (a + asr ((b - a) * (x % 4) + 2) 2)

/-- R166: the dither matrix. -/
def ditherM (r c : Nat) : Nat :=
  (([0, 8, 2, 10, 12, 4, 14, 6, 3, 11, 1, 9, 15, 7, 13, 5] : List Nat)[4 * r + c]?).getD 0

/-- R165, R167: dither of a 14-bit value to d bits. -/
def ditherValue (mode d frame x line : Nat) (y : Int) : Int :=
  let k := 14 - d
  let (xp, yp) := match frame % 4 with | 0 => (0, 0) | 1 => (2, 2) | 2 => (2, 0) | _ => (0, 2)
  let t : Int :=
    if mode = 0 then (2 ^ (k - 1) : Nat)
    else
      let m := if mode = 2 then ditherM ((line + yp) % 4) ((x + xp) % 4) else ditherM (line % 4) (x % 4)
      (((2 * m + 1) * 2 ^ k / 32 : Nat) : Int)
  clampInt 0 ((2 ^ d : Nat) - 1) (asr (y + t) k)

/-- R165: the output depth on a link of a number of bits. -/
def outDepth (code link : Nat) : Nat := min link (if code = 0 then 6 else if code = 1 then 8 else 10)

/-- R168: a value of d bits on a link of l bits. -/
def replicate (d l v : Nat) : Nat :=
  if d = 6 ∧ l = 8 then v * 4 + v / 16 else if d = 6 ∧ l = 10 then v * 16 + v / 4
  else if d = 8 ∧ l = 10 then v * 4 + v / 64 else v

/-- Bits per component on a screen's link. -/
def State.linkBits (s : State) (n : Nat) : Nat := if s.bit (Reg.SCREEN_CTRL_BPC30 n) then 10 else 8

/-- R200: a link value as a word: R [29:20], G [19:10], B [9:0]. -/
def pixelWord (r g b : Nat) : Word := BitVec.ofNat 32 (r * 2 ^ 20 + g * 2 ^ 10 + b)

/-- R163 to R168: a composed pixel of a screen as it is sent, for a frame, pixel and line. -/
def State.outPixel (s : State) (n frame x line : Nat) (p : Px) : Word :=
  let p := if s.bit (Reg.SCREEN_ACT_OUT_CTRL_OMTX_EN n) then
      matrixPx (fun i => (s.reg (Reg.SCREEN_ACT_OMTX_A n i), s.reg (Reg.SCREEN_ACT_OMTX_B n i))) p
    else p
  let l := s.linkBits n
  let d := outDepth (s.get (Reg.SCREEN_ACT_OUT_CTRL_DEPTH n)) l
  let mode := let m := s.get (Reg.SCREEN_ACT_OUT_CTRL_DITHER n); if m = 3 then 1 else m
  let f := fun (c : Nat) (v : Int) => replicate d l (ditherValue mode d frame x line (s.gamma n c v)).toNat
  pixelWord (f 0 p.c0) (f 1 p.c1) (f 2 p.c2)

/-! ### Protected pixels (R170, R171, R181) -/

/-- R171: a protected pixel from the bytes of its buffer. -/
def State.protUnpack (s : State) (n : Nat) (v : Nat) : Px :=
  if s.bit (Reg.PROT_ACT_CTRL_FORMAT n) then { argbPx v with a := 1024 }
  else { argbPx ((s.prot n).entry (v % 256)) with a := 1024 }

/-- Bytes of a pixel of a protected layer. -/
def State.protBytes (s : State) (n : Nat) : Nat := if s.bit (Reg.PROT_ACT_CTRL_FORMAT n) then 4 else 1

/-- R174: the address of a buffer row of a rectangle. -/
def State.protRow (s : State) (n k y : Nat) : Nat :=
  256 * s.get (Reg.PROT_ACT_RECT_SRC_ADDR n k) + y * (s.get (Reg.PROT_ACT_RECT_STRIDE_STRIDE n k) * 64)

/-- The pixel a pipe composes in a rectangle; none where its fetch returned poison. -/
def State.protPipePx (s : State) (n k x y : Nat) : Option Px :=
  (s.fetch .normal (s.protRow n k y + x * s.protBytes n) (s.protBytes n)).map (s.protUnpack n)

/-- The rectangle of the active state that holds a pixel. -/
def State.rectAt (s : State) (n x y : Nat) : Option Nat := (s.liveRects n).find? fun k => (s.actRect n k).holds x y

/-! ### The harbour image (R190 to R192) -/

/-- R191: the eight digits of a glyph row. -/
def glyphDigits (screen rect reason frame : Nat) : List Nat :=
  [screen, rect, reason / 16 % 16, reason % 16, frame / 2 ^ 12 % 16, frame / 2 ^ 8 % 16, frame / 16 % 16, frame % 16]

/-- R190: the pattern bit of a screen pixel. -/
def State.patternBit (s : State) (p x y : Nat) : Bool :=
  let sc := 2 ^ s.get (Reg.DPO_HARB_CTRL_SCALE p)
  let row := y / sc % 512
  let col := x / sc % 512
  bitOf (s.reg (Reg.DPO_HARB_PAT p (16 * row + col / 32))).toNat (col % 32)

/-- R191: the glyph row at a place relative to its start: none outside it, else whether the font draws there. -/
def State.glyphBit (s : State) (p : Nat) (digits : List Nat) (dx dy : Nat) : Option Bool :=
  let sc := 2 ^ s.get (Reg.DPO_HARB_CTRL_SCALE p)
  if !s.bit (Reg.DPO_HARB_CTRL_GLYPH_EN p) || decide (64 * sc ≤ dx) || decide (16 * sc ≤ dy) then none
  else
    let gx := dx / sc
    let digit := digits.getD (gx / 8) 0
    some (bitOf (Config.harbourFont digit (dy / sc)).toNat (7 - gx % 8))

/-- R190 to R192: the pixel of the harbour image of port p at (x, y), with the glyph row starting at (gx, gy). -/
def State.harbourPixel (s : State) (p link : Nat) (digits : List Nat) (gx gy x y : Nat) : Word :=
  let glyph := if gx ≤ x ∧ gy ≤ y then s.glyphBit p digits (x - gx) (y - gy) else none
  let on := glyph.getD (s.patternBit p x y)
  let w := (s.reg (Reg.DPO_HARB_COL p (b2n on))).toNat
  let f := fun (v : Nat) => if link = 8 then v / 4 else v
  pixelWord (f (w / 2 ^ 20 % 1024)) (f (w / 2 ^ 10 % 1024)) (f (w % 1024))

end Sys2Proof.Machine
end

