-- ==== Sys2Proof/Machine/LayerOps.lean ====
section
/-! DEFINITION. Layers, scalers and commits: who reaches a layer, the checks of a commit, the claims of scalers, the table
loads, and what a latch applies (R57, R107 to R143, R172, R173). -/

namespace Sys2Proof.Machine

/-! ### Owners -/

/-- The session that owns a layer: its owner register's, or session 0 where the secure world claims it (R15, R68, R352;
log entry 22). -/
def State.layerSession (s : State) (l : Nat) : Option Nat :=
  if s.ownedSecure 0x06 l then some 0
  else if s.bit (Reg.LAYER_OWNER_VALID l) then some (s.get (Reg.LAYER_OWNER_SESSION l)) else none

/-- R109: the layer a session reaches under a handle. -/
def State.layerHandle (s : State) (session handle : Nat) : Option Nat :=
  firstBelow 64 fun l => s.bit (Reg.LAYER_OWNER_VALID l) && s.get (Reg.LAYER_OWNER_SESSION l) == session
    && s.get (Reg.LAYER_OWNER_HANDLE l) == handle

/-- R109, R110, R351, R355: a write of a layer's guest registers through a door: performed on the layer it reaches, or
refused as that door refuses. -/
def State.throughDoor (s : State) (d : LayerDoor) (f : Nat → State → State) : State :=
  match d with
  | .block n w => s.asWriter w 0x06 n false fun s => if s.layerSession n = some 1 then f n s else s
  | .page k h =>
    match s.layerHandle k h with
    | none => s.pageEvent k (Reg.SESS_PAGE_STATUS_HANDLE_ERR k)
    | some n => if s.isGated 0x06 n then s else f n s

/-- An event of LAYER_n_STATUS; a layer has no interrupt source. -/
def State.layEvent (s : State) (l : Nat) (flag : Fld) : State := (s.set flag 1).count (Reg.LAYER_STATUS_EVENTS l)

/-- Whether a commit on a layer is PENDING. -/
def State.layPending (s : State) (l : Nat) : Bool := s.get (Reg.LAYER_COMMIT_STATUS_STATE l) == 1

/-- Whether the screen of a layer runs. -/
def State.layRunning (s : State) (l : Nat) : Bool :=
  s.bit (Reg.LAYER_BIND_VALID l) && s.running (s.get (Reg.LAYER_BIND_SCREEN l))

/-! ### Fences (R57) -/

/-- R57: whether a fence (k, v) of a session is reached. -/
def State.fenceReached (s : State) (session k v : Nat) : Bool :=
  decide ((s.get (Reg.SESS_SEM_VALUE session k) + 2 ^ 32 - v % 2 ^ 32) % 2 ^ 32 ≤ 2 ^ 31 - 1)

/-- Whether the fence of a layer's pending commit, if it has one, is reached. -/
def State.layFenceOk (s : State) (l : Nat) : Bool :=
  match (s.lay l).fence with
  | none => true
  | some (k, v) => s.fenceReached ((s.layerSession l).getD 0) k v

/-- The WAIT code of a pending commit (COMMIT_STATUS.WAIT): where several reasons hold, the tables come first, then the frame, then
the fence (DESIGN CHOICE, log entry 115). A commit with EN = 0 on a layer bound to no screen waits with 5
(DESIGN CHOICE, log entry 108). -/
def State.layWait (s : State) (l : Nat) : Nat :=
  if !s.layPending l then 0
  else if !s.layRunning l then 5
  else if (s.lay l).loading then 4
  else match (s.lay l).sched with
    | some f => if frameLater f ((s.frame (s.get (Reg.LAYER_BIND_SCREEN l)) + 1) % 2 ^ 32) then 2
        else if s.layFenceOk l then 1 else 3
    | none => if s.layFenceOk l then 1 else 3

/-! ### Scaler claims (R138) -/

/-- The scalers a SCALE setting names: one, or a ganged pair. -/
def scalersNamed (en gang : Bool) (k : Nat) : List Nat := if !en then [] else if gang then [k, k + 1] else [k]

/-- The scalers of a layer's shadow setting. -/
def State.shadowScalers (s : State) (l : Nat) : List Nat :=
  scalersNamed (s.bit (Reg.LAYER_SCALE_SCL_EN l)) (s.bit (Reg.LAYER_SCALE_GANG l)) (s.get (Reg.LAYER_SCALE_SCALER l))

/-- The scalers of a layer's active setting. -/
def State.activeScalers (s : State) (l : Nat) : List Nat :=
  scalersNamed (s.bit (Reg.LAYER_ACT_SCALE_SCL_EN l)) (s.bit (Reg.LAYER_ACT_SCALE_GANG l))
    (s.get (Reg.LAYER_ACT_SCALE_SCALER l))

/-- Whether a layer claims a scaler. -/
def State.claims (s : State) (l k : Nat) : Bool :=
  s.bit (Reg.SCL_STATUS_CLAIMED k) && s.get (Reg.SCL_STATUS_LAYER k) == l

/-- R138: whether a layer can claim the scalers its shadow names. -/
def State.canClaim (s : State) (l : Nat) : Bool :=
  let gang := s.bit (Reg.LAYER_SCALE_GANG l)
  let k := s.get (Reg.LAYER_SCALE_SCALER l)
  decide (k < 24) && !(gang && k % 2 == 1) && (s.shadowScalers l).all fun j =>
    (!s.bit (Reg.SCL_STATUS_CLAIMED j) || s.claims l j) &&
      (match s.layerSession l with
        | some 0 => s.ownedSecure 0x08 j
        | some n => s.bit (Reg.SCL_OWNER_VALID j) && s.get (Reg.SCL_OWNER_SESSION j) == n
        | none => false)

/-- R138: the scalers of the shadow are claimed. -/
def State.claimScalers (s : State) (l : Nat) : State :=
  s.each (s.shadowScalers l) fun k t =>
    ((t.set (Reg.SCL_STATUS_CLAIMED k) 1).set (Reg.SCL_STATUS_LAYER k) l).set (Reg.SCL_STATUS_GANGED k)
      (s.get (Reg.LAYER_SCALE_GANG l))

/-- R138, R141: the scalers a layer claims and does not hold in its active state are released; those it holds stand as its active
state has them, with no table on its way. -/
def State.releaseScalers (s : State) (l : Nat) : State :=
  let keep := s.activeScalers l
  s.each (List.range 24) fun k t =>
    t.when (s.claims l k) fun t =>
      let t := t.set (Reg.SCL_STATUS_LOADING k) 0
      if keep.contains k then t.set (Reg.SCL_STATUS_GANGED k) (s.get (Reg.LAYER_ACT_SCALE_GANG l))
      else ((t.set (Reg.SCL_STATUS_CLAIMED k) 0).set (Reg.SCL_STATUS_LAYER k) 0).set (Reg.SCL_STATUS_GANGED k) 0

/-- R141: the scalers a commit's coefficient table goes to. -/
def State.loadScalers (s : State) (l : Nat) : List Nat := (s.shadowScalers l).filter (s.claims l)

/-! ### The checks of a commit (R122) -/

/-- The shadow's crop. -/
def State.shadowCrop (s : State) (l : Nat) : Rect :=
  { x := s.get (Reg.LAYER_SRC_POS_X l), y := s.get (Reg.LAYER_SRC_POS_Y l), w := s.get (Reg.LAYER_SRC_SIZE_W l),
    h := s.get (Reg.LAYER_SRC_SIZE_H l) }

/-- The shadow's destination. -/
def State.shadowDst (s : State) (l : Nat) : Rect :=
  { x := s.get (Reg.LAYER_DST_POS_X l), y := s.get (Reg.LAYER_DST_POS_Y l), w := s.get (Reg.LAYER_DST_SIZE_W l),
    h := s.get (Reg.LAYER_DST_SIZE_H l) }

/-- The format the shadow's rules depend on (R481). -/
def State.shadowFormat (s : State) (l : Nat) : Nat :=
  if s.bit (Reg.LAYER_CTRL_SOURCE l) then s.vinFormat (s.get (Reg.LAYER_BIND_VIN l)) else s.get (Reg.LAYER_CTRL_FORMAT l)

/-- R117 and the decimation factors: BAD_ALIGN. -/
def State.badAlign (s : State) (l : Nat) : Bool :=
  let f := s.shadowFormat l
  let c := s.shadowCrop l
  let nh := decim (s.get (Reg.LAYER_CTRL_DECIM_H l))
  let nv := decim (s.get (Reg.LAYER_CTRL_DECIM_V l))
  (fmtSubH f && (c.x % 2 == 1 || c.w % 2 == 1)) || (fmtSubV f && (c.y % 2 == 1 || c.h % 2 == 1))
    || (s.get (Reg.LAYER_CTRL_DECIM_H l) != 3 && c.w % nh != 0) || (s.get (Reg.LAYER_CTRL_DECIM_V l) != 3 && c.h % nv != 0)

/-- The pitch of a plane of the shadow, in bytes. -/
def State.shadowStride (s : State) (l p : Nat) : Nat :=
  (if p = 0 then s.get (Reg.LAYER_SRC_STRIDE_STRIDE0 l) else s.get (Reg.LAYER_SRC_STRIDE_STRIDE1 l)) * 64

/-- BAD_GEOMETRY. -/
def State.badGeometry (s : State) (l : Nat) : Bool :=
  let c := s.shadowCrop l
  let d := s.shadowDst l
  let t := s.timing (s.get (Reg.LAYER_BIND_SCREEN l))
  let f := s.get (Reg.LAYER_CTRL_FORMAT l)
  let v := s.get (Reg.LAYER_BIND_VIN l)
  c.w == 0 || c.h == 0 || d.w == 0 || d.h == 0 || decide (16384 < c.w) || decide (16384 < c.h)
    || !d.inside t.hActive t.vActive
    || (if s.bit (Reg.LAYER_CTRL_SOURCE l) then !c.inside (s.get (Reg.VIN_SIZE_W v)) (s.get (Reg.VIN_SIZE_H v))
        else (List.range (fmtPlanes f)).any fun p => decide (s.shadowStride l p < rowBytes f p (c.x + c.w)))

/-- The translation of an aperture range of a layer's session (R65). -/
def State.layTranslate (s : State) (l off len : Nat) : Option Nat :=
  match s.layerSession l with
  | some n => s.translate n off len
  | none => none

/-- R122: the translated addresses of the planes the format uses; none where one lies in no window. -/
def State.planeAddrs (s : State) (l : Nat) : Option (List Nat) :=
  if s.bit (Reg.LAYER_CTRL_SOURCE l) then some []
  else
    let f := s.get (Reg.LAYER_CTRL_FORMAT l)
    let c := s.shadowCrop l
    (List.range (fmtPlanes f)).mapM fun p =>
      s.layTranslate l (256 * s.get (Reg.LAYER_SRC_ADDR_OFFSET l p)) (s.shadowStride l p * planeRows f p (c.y + c.h))

/-- Whether the commit loads a coefficient table (R128). -/
def State.loadsCoef (s : State) (l : Nat) : Bool := s.bit (Reg.LAYER_SCALE_COEF_LOAD l)

/-- R122, R128: the translated addresses of the tables to be loaded; none for one that is not, or that lies in no window, which is
BAD_ADDRESS for an enabled layer (a disabled one loads nothing from there: DESIGN CHOICE, log entry 82). -/
def State.tableAddrs (s : State) (l : Nat) : Option Nat × Option Nat :=
  (if s.loadsCoef l then s.layTranslate l (256 * s.get (Reg.LAYER_COEF_ADDR_OFFSET l)) 1792 else none,
   if s.bit (Reg.LAYER_CTRL_PAL_LOAD l) then s.layTranslate l (256 * s.get (Reg.LAYER_PAL_ADDR_OFFSET l)) 1024 else none)

/-- R122: whether a table to be loaded lies in no window. -/
def State.badTables (s : State) (l : Nat) : Bool :=
  (s.loadsCoef l && (s.tableAddrs l).1.isNone) || (s.bit (Reg.LAYER_CTRL_PAL_LOAD l) && (s.tableAddrs l).2.isNone)

/-- The decimated source size of the shadow (R133). -/
def State.shadowDecimated (s : State) (l : Nat) : Nat × Nat :=
  let c := s.shadowCrop l
  (c.w / decim (s.get (Reg.LAYER_CTRL_DECIM_H l)), c.h / decim (s.get (Reg.LAYER_CTRL_DECIM_V l)))

/-- R133: SCALE_RANGE. -/
def State.badScale (s : State) (l : Nat) : Bool :=
  let (sw, sh) := s.shadowDecimated l
  let d := s.shadowDst l
  let dh := s.get (Reg.LAYER_CTRL_DECIM_H l)
  let dv := s.get (Reg.LAYER_CTRL_DECIM_V l)
  let okStep := fun (src dst : Nat) => decide (4096 ≤ scaleStep src dst ∧ scaleStep src dst ≤ 262144)
  dh == 3 || dv == 3 ||
    (if s.bit (Reg.LAYER_SCALE_SCL_EN l) then !(okStep sw d.w && okStep sh d.h)
     else sw != d.w || sh != d.h || dh != 0 || dv != 0)

/-- R139: LINE_BUFFER. -/
def State.badLineBuffer (s : State) (l : Nat) : Bool :=
  s.bit (Reg.LAYER_SCALE_SCL_EN l) &&
    decide ((if s.bit (Reg.LAYER_SCALE_GANG l) then 8192 else 4096) < (s.shadowDecimated l).1)

/-- R140: RATE, with the screen's current timing. -/
def State.badRate (s : State) (l : Nat) : Bool :=
  let (sw, sh) := s.shadowDecimated l
  let t := s.timing (s.get (Reg.LAYER_BIND_SCREEN l))
  let f := s.pixClock t
  s.bit (Reg.LAYER_SCALE_SCL_EN l) &&
    decide (3300000000 * t.hTotal * f.den < sw * ceilDiv sh (s.shadowDst l).h * f.num)

/-- R77: whether a scheduled frame is too late on a screen. -/
def State.tooLate (s : State) (n f : Nat) : Bool := !frameLater f (s.frame n)

/-- R122: the first failing reason of a GO write, in the order of the table. -/
def State.layCheck (s : State) (l : Nat) (v : Word) : Option Nat :=
  let n := s.get (Reg.LAYER_BIND_SCREEN l)
  let vin := s.bit (Reg.LAYER_CTRL_SOURCE l)
  if bitOf v.toNat 2 && s.tooLate n (s.get (Reg.LAYER_COMMIT_FRAME_FRAME l)) then some 1
  else if !s.bit (Reg.LAYER_CTRL_EN l) then none
  else if !s.bit (Reg.LAYER_BIND_VALID l) then some 4
  else if vin && !s.bit (Reg.LAYER_BIND_VIN_EN l) then some 0xD
  else if !vin && fmtReserved (s.get (Reg.LAYER_CTRL_FORMAT l)) then some 5
  else if s.badAlign l then some 6
  else if s.badGeometry l then some 8
  else if (s.planeAddrs l).isNone || s.badTables l then some 7
  else if s.badScale l then some 9
  else if s.bit (Reg.LAYER_SCALE_SCL_EN l) && !s.canClaim l then some 0xA
  else if s.badLineBuffer l then some 0xB
  else if s.layRunning l && s.badRate l then some 0xC
  else none

/-! ### Commit states -/

/-- COMMIT_STATUS.STATE with its reason. -/
def State.layState (s : State) (l st reason : Nat) : State :=
  (s.set (Reg.LAYER_COMMIT_STATUS_STATE l) st).set (Reg.LAYER_COMMIT_STATUS_REASON l) reason

/-- The owning session's IRQ_STATUS.COMMIT (R125). -/
def State.layCommitIrq (s : State) (l : Nat) : State :=
  match s.layerSession l with
  | some n => s.sessIrq n irqCommit
  | none => s

/-- R123 to R125: a PENDING commit becomes REJECTED: its claims and loads end and the session is told. -/
def State.layReject (s : State) (l reason : Nat) : State :=
  let s := s.setLay l { s.lay l with loading := false, sched := none, fence := none }
  ((s.layState l 3 reason).releaseScalers l).layCommitIrq l

/-- R81: whether a screen is in the stretched blanking of a lowered frame, so that a commit or RETIME ends it early. -/
def State.earlyEnd (s : State) (n : Nat) (sched : Option Nat) : State :=
  let r := s.scr n
  let due := match sched with | none => true | some f => f == (s.frame n + 1) % 2 ^ 32
  if s.running n && s.bit (Reg.SCREEN_STATUS_LOWERED n) && r.blanking && due && !s.bit (Reg.SCREEN_LOWER_FORCED n)
      && !r.forcedTail then
    s.setScr n { r with early := true, quiet := 0 }
  else s

/-- R122, R125, R128: a GO write on a layer with no PENDING commit. A table goes to the scalers the shadow names, as far as the layer
has claimed them. A commit with EN = 0 is checked for TOO_LATE alone: one whose planes lie in no window has the address 0, and one
whose scaler cannot be claimed is PENDING without it (DESIGN CHOICE, log entry 115). -/
def State.layGo (s : State) (l : Nat) (v : Word) : State :=
  let s := s.set (Reg.LAYER_COMMIT_STATUS_SEQ l) (s.get (Reg.LAYER_COMMIT_STATUS_SEQ l) + 1)
  let sched := if bitOf v.toNat 2 then some (s.get (Reg.LAYER_COMMIT_FRAME_FRAME l)) else none
  let fence := if bitOf v.toNat 3 then some (getBits v 4 4, s.get (Reg.LAYER_FENCE_VALUE_VALUE l)) else none
  match s.layCheck l v with
  | some reason => (s.layState l 3 reason).layCommitIrq l
  | none =>
    let tables := s.tableAddrs l
    let s := s.setLay l { s.lay l with
      sched := sched, fence := fence, addrs := (s.planeAddrs l).getD [], tables := tables,
      loading := tables.1.isSome || tables.2.isSome }
    let s := if s.bit (Reg.LAYER_SCALE_SCL_EN l) && s.canClaim l then s.claimScalers l else s
    let s := if tables.1.isSome then s.each (s.loadScalers l) fun k t => t.set (Reg.SCL_STATUS_LOADING k) 1 else s
    let s := s.layState l 1 0
    if s.bit (Reg.LAYER_BIND_VALID l) then s.earlyEnd (s.get (Reg.LAYER_BIND_SCREEN l)) sched else s

/-- R122 to R124: LAYER_n_COMMIT is written: CANCEL wins over GO; a GO write while a commit is PENDING is ignored and sets
WRITE_WHILE_PENDING. -/
def State.layCommit (s : State) (l : Nat) (v : Word) : State :=
  if bitOf v.toNat 1 then (if s.layPending l then s.layReject l 3 else s)
  else if bitOf v.toNat 0 then
    if s.layPending l then s.layEvent l (Reg.LAYER_STATUS_WRITE_WHILE_PENDING l) else s.layGo l v
  else s

/-! ### Table loads (R128, R129, R141, R142, R175) -/

/-- R142: whether a 16-bit word is a sign-extended 12-bit value. -/
def coefOk (w : Nat) : Bool := w / 2 ^ 11 = 0 ∨ w / 2 ^ 11 = 31

/-- The n-th 16-bit word of a table. -/
def word16 (bs : List Byte) (n : Nat) : Nat := leNat ((bs.drop (2 * n)).take 2)

/-- R141, R142: a checked table goes into the bank a scaler does not use. -/
def State.loadCoef (s : State) (k : Nat) (bs : List Byte) : State :=
  let b := s.bit (Reg.SCL_STATUS_ACTIVE_BANK k)
  let pair := fun (i : Nat) => BitVec.ofNat 32 (word16 bs i % 2 ^ 12 + word16 bs (i + 1) % 2 ^ 12 * 2 ^ 16)
  let s := s.each (List.range 256) fun r t =>
    t.setReg (if b then Reg.SCL_COEF_AH k r else Reg.SCL_COEF_BH k r) (pair (2 * r))
  let s := s.each (List.range 192) fun r t =>
    t.setReg (if b then Reg.SCL_COEF_AV k r else Reg.SCL_COEF_BV k r) (pair (512 + 2 * r))
  (s.count (Reg.SCL_STATUS_LOADS k)).set (Reg.SCL_STATUS_LOADING k) 0

/-- The words of a palette image. -/
def paletteWords (bs : List Byte) : List (Nat × Word) :=
  ((List.range 256).map fun i => (i, BitVec.ofNat 32 (leNat ((bs.drop (4 * i)).take 4)))).filter (fun p => p.2 != 0)

/-- A table of an address, if there is one, is read. -/
def State.readTable (s : State) (w : World) (port : Nat) (a : Option Nat) (len : Nat) : Option (List Byte) × State :=
  match a with
  | some a => s.dmaRead w port a len
  | none => (some [], s)

/-- R213: whether the read of a table waits for a side's start. -/
def State.tableWaits (s : State) (a : Option Nat) (len : Nat) : Bool := a.any fun a => s.startWaits a len

/-- R128, R213, R332: the tables of a layer's pending commit have been read: both pass and stand ready, or the commit is rejected
with BAD_TABLE and the banks keep what they held. The reads carry the world of the pipe that makes them, or of the layer's unit. -/
def State.layTables (s : State) (l : Nat) : State :=
  if !(s.layPending l && (s.lay l).loading) || s.tableWaits (s.lay l).tables.1 1792 || s.tableWaits (s.lay l).tables.2 1024 then s
  else
    let (w, port) := if s.layRunning l then (World.normal, s.pipeOf (s.get (Reg.LAYER_BIND_SCREEN l))) else (s.ownerWorld 0x06 l, 35)
    let t := (s.lay l).tables
    let (c, s) := s.readTable w port t.1 1792
    let (p, s) := s.readTable w port t.2 1024
    match c, p with
    | some cs, some ps =>
      if t.1.isSome && !(List.range 896).all (fun i => coefOk (word16 cs i)) then s.layReject l 0xE
      else
        let s := if t.1.isSome then s.each (s.loadScalers l) fun k t => t.loadCoef k cs else s
        let r := { s.lay l with loading := false }
        s.setLay l (if t.2.isNone then r else if r.palSecond then { r with pal0 := paletteWords ps }
          else { r with pal1 := paletteWords ps })
    | _, _ => s.layReject l 0xE

/-! ### What a latch does to a layer (R75, R125 to R127, R131, R141, R147) -/

/-- R121, R131: whether the active buffer of a layer lies wholly or partly on a side that is out of service: through a side's
own range, or in the mirrored view with neither side to read. An active state of no rows names no buffer. -/
def State.frozenSource (s : State) (l : Nat) : Bool :=
  match s.layerSource l with
  | none => false
  | some c => (c.base.take (fmtPlanes c.fmt)).zipIdx.any fun (b, p) =>
      let stride := if p = 0 then c.stride0 else c.stride1
      let len := stride * planeRows c.fmt p (c.crop.y + c.crop.h)
      decide (0 < len) && (match region b with
          | .side n _ => s.sideDown n
          | .mirror off => (List.range (len / 0x1000 + 2)).any fun i => (s.servingSide (off + min (len - 1) (i * 0x1000))).isNone
          | _ => false)

/-- A layer's shadows are copied to its active state: registers 0x00 to 0x4C. -/
def State.copyShadows (s : State) (l : Nat) : State :=
  s.each (List.range 20) fun i t => t.setReg (Reg.LAYER_CTRL l + 0x200 + 4 * i) (t.reg (Reg.LAYER_CTRL l + 4 * i))

/-- R125, R129, R138, R141: a commit is applied at the latch of frame f. -/
def State.layApply (s : State) (l f : Nat) : State :=
  let r := s.lay l
  let en := s.bit (Reg.LAYER_CTRL_EN l)
  let s := s.copyShadows l
  let s := s.each (List.range 3) fun p t => t.set (Reg.LAYER_ACT_ADDR_ADDR l p) (r.addrs.getD p 0 / 256)
  let s := s.set (Reg.LAYER_STATUS_ENABLED l) (b2n en)
  let s := if r.tables.1.isSome then
      s.each (s.loadScalers l) fun k t => t.set (Reg.SCL_STATUS_ACTIVE_BANK k) (1 - t.get (Reg.SCL_STATUS_ACTIVE_BANK k))
    else s
  let s := s.setLay l { r with sched := none, fence := none, tables := (none, none), loading := false, detached := false,
                               palSecond := if r.tables.2.isSome then !r.palSecond else r.palSecond }
  let s := s.releaseScalers l
  ((s.layState l 2 0).set (Reg.LAYER_APPLIED_FRAME_FRAME l) f).layCommitIrq l

/-- The frame of a video input that stands in its buffer k. -/
def State.vinFrame (s : State) (v k : Nat) : VinShown :=
  { buf := k, base := 256 * s.get (Reg.VIN_BUF_ADDR v k), stride := s.get (Reg.VIN_STRIDE_STRIDE v) * 64, fmt := s.vinFormat v }

/-- R147: a layer on a video input takes the latest complete frame, with the place and format it has then: what is written to the
receiver's registers later does not change what is shown of it. -/
def State.layTakeVin (s : State) (l : Nat) : State × Bool :=
  let v := s.get (Reg.LAYER_BIND_VIN l)
  let k := s.get (Reg.VIN_STATUS_LATEST v)
  let count := s.get (Reg.VIN_FRAMES_COUNT v)
  if !(s.bit (Reg.LAYER_ACT_CTRL_EN l) && s.bit (Reg.LAYER_ACT_CTRL_SOURCE l)) then
    (s.setLay l { s.lay l with vinShown := none }, false)
  else if k = 3 ∨ ((s.lay l).vinShown.map (·.buf) = some k ∧ s.get (Reg.LAYER_VIN_FRAME_COUNT l) = count) then (s, false)
  else ((s.setLay l { s.lay l with vinShown := some (s.vinFrame v k) }).set (Reg.LAYER_VIN_FRAME_COUNT l) count, true)

/-- R126, R127: what a start latch checks again: the geometry and rate of a pending commit, and the placement of an
enabled layer. -/
def State.layRecheck (s : State) (l : Nat) : State :=
  let t := s.timing (s.get (Reg.LAYER_BIND_SCREEN l))
  let s := if s.layPending l && s.bit (Reg.LAYER_CTRL_EN l) then
      (if s.badGeometry l then s.layReject l 8 else if s.badRate l then s.layReject l 0xC else s)
    else s
  if s.bit (Reg.LAYER_ACT_CTRL_EN l) && !(s.actDst l).inside t.hActive t.vActive then
    ((s.set (Reg.LAYER_ACT_CTRL_EN l) 0).set (Reg.LAYER_STATUS_ENABLED l) 0).layEvent l (Reg.LAYER_STATUS_OFF_SCREEN l)
  else s

/-- R131: the held count and READY_STATE of a layer after a latch at which it was held or not. -/
def State.layHeld (s : State) (l : Nat) (held : Bool) : State :=
  let r := s.lay l
  let k := if held then r.held + 1 else 0
  let s := (s.setLay l { r with held := k }).set (Reg.LAYER_STATUS_DR_COUNT l) (min k 255)
  s.set (Reg.LAYER_STATUS_READY_STATE l)
    (if r.detached then 2 else if k = 0 then 0 else if k ≤ s.get (Reg.LAYER_READY_POLICY_LIMIT l) then 1 else 2)

/-- R75 to R77, R125 to R132: the latch of frame f for one layer of the screen; the flag says whether it keeps the latch from
being quiet (R80). At a start latch the check of OFF_SCREEN comes before the pending commit (DESIGN CHOICE, log entry 107). -/
def State.layLatch (s : State) (l f : Nat) (start : Bool) : State × Bool :=
  let s := if start then s.layRecheck l else s
  let due := s.layPending l && !(s.lay l).loading &&
    (match (s.lay l).sched with | some g => !frameLater g f | none => true)
  let fenced := due && !s.layFenceOk l
  let apply := due && !fenced
  let s := if apply then s.layApply l f else s
  let (s, fresh) := s.layTakeVin l
  let frozen := s.frozenSource l
  let s := s.set (Reg.LAYER_STATUS_FROZEN_SRC l) (b2n frozen)
  let noSignal := s.bit (Reg.LAYER_ACT_CTRL_SOURCE l) && s.bit (Reg.VIN_STATUS_NO_SIGNAL (s.get (Reg.LAYER_BIND_VIN l)))
  (s.layHeld l (fenced || frozen || noSignal), apply || fresh)

/-! ### Protected layers (R172 to R178) -/

/-- Whether a commit on a protected layer is PENDING. -/
def State.protPending (s : State) (n : Nat) : Bool := s.get (Reg.PROT_COMMIT_STATUS_STATE n) == 1

/-- A change of PROT_n_COMMIT_STATUS: source 1 + n. -/
def State.protState (s : State) (n st reason : Nat) : State :=
  ((s.set (Reg.PROT_COMMIT_STATUS_STATE n) st).set (Reg.PROT_COMMIT_STATUS_REASON n) reason).raiseIrq (1 + n)

/-- The enabled rectangles of the shadow. -/
def State.shadowRects (s : State) (n : Nat) : List Nat := (List.range 4).filter fun k => bitOf (s.get (Reg.PROT_CTRL_RECT_EN n)) k

/-- A rectangle of the shadow. -/
def State.protRect (s : State) (n k : Nat) : Rect :=
  { x := s.get (Reg.PROT_RECT_POS_X n k), y := s.get (Reg.PROT_RECT_POS_Y n k), w := s.get (Reg.PROT_RECT_SIZE_W n k),
    h := s.get (Reg.PROT_RECT_SIZE_H n k) }

/-- R172: BAD_GEOMETRY of the shadow. -/
def State.protBadGeometry (s : State) (n : Nat) : Bool :=
  let t := s.timing n
  let ks := s.shadowRects n
  let bpp := if s.bit (Reg.PROT_CTRL_FORMAT n) then 4 else 1
  ks.any (fun k =>
    let r := s.protRect n k
    r.w == 0 || r.h == 0 || !r.inside t.hActive t.vActive
      || decide (s.get (Reg.PROT_RECT_STRIDE_STRIDE n k) * 64 < ceilDiv r.w 128 * 128 * bpp)
      || ks.any (fun j => decide (j < k) && (s.protRect n j).overlaps r))
    || decide (1048576 < (ks.map (fun k => (s.protRect n k).w * (s.protRect n k).h)).sum)

/-- R172: whether a range lies wholly in installed memory of a side or of the mirrored view, and not in a range that R34
forbids. -/
def State.protRange (s : State) (a len : Nat) : Bool :=
  s.installedRam a len && (match region a with
    | .side _ off => !s.touchesMirrored off len
    | _ => true)

/-- R172: BAD_ADDRESS of the shadow. -/
def State.protBadAddress (s : State) (n : Nat) : Bool :=
  (s.shadowRects n).any (fun k =>
    let r := s.protRect n k
    !s.protRange (256 * s.get (Reg.PROT_RECT_SRC_ADDR n k)) (r.h * (s.get (Reg.PROT_RECT_STRIDE_STRIDE n k) * 64))
      || !s.protRange (256 * s.get (Reg.PROT_RECT_CHK_ADDR n k)) (4 * r.h * ceilDiv r.w 128))
    || (s.bit (Reg.PROT_CTRL_PAL_LOAD n) && !s.protRange (256 * s.get (Reg.PROT_PAL_ADDR_ADDR n)) 1024)

/-- R172: the first failing reason of a GO write. -/
def State.protCheck (s : State) (n : Nat) (v : Word) : Option Nat :=
  if bitOf v.toNat 2 && s.tooLate n (s.get (Reg.PROT_COMMIT_FRAME_FRAME n)) then some 1
  else if !s.bit (Reg.PROT_CTRL_EN n) then none
  else if s.protBadGeometry n then some 8
  else if s.protBadAddress n then some 7
  else none

/-- R172: a PENDING protected commit becomes REJECTED. -/
def State.protReject (s : State) (n reason : Nat) : State :=
  (s.setProt n { s.prot n with loading := false, sched := none }).protState n 3 reason

/-- R172: a GO write on a protected layer with no PENDING commit. -/
def State.protGo (s : State) (n : Nat) (v : Word) : State :=
  let s := s.set (Reg.PROT_COMMIT_STATUS_SEQ n) (s.get (Reg.PROT_COMMIT_STATUS_SEQ n) + 1)
  match s.protCheck n v with
  | some reason => s.protState n 3 reason
  | none =>
    let sched := if bitOf v.toNat 2 then some (s.get (Reg.PROT_COMMIT_FRAME_FRAME n)) else none
    let load := s.bit (Reg.PROT_CTRL_PAL_LOAD n)
    ((s.setProt n { s.prot n with sched := sched, loading := load }).protState n 1 0).earlyEnd n sched

/-- R172: PROT_n_COMMIT is written. -/
def State.protCommit (s : State) (n : Nat) (v : Word) : State :=
  if bitOf v.toNat 1 then (if s.protPending n then s.protReject n 3 else s)
  else if bitOf v.toNat 0 then
    if s.protPending n then s.protEvent n (Reg.PROT_STATUS_WRITE_WHILE_PENDING n) else s.protGo n v
  else s

/-- R175: whether a palette passes its check. -/
def State.palOk (s : State) (n : Nat) (bs : List Byte) : Bool :=
  crc32c (checkPrefix (256 * s.get (Reg.PROT_PAL_ADDR_ADDR n)) (s.get (Reg.PROT_SEQ_SEQ n)) ++ bs)
    == s.get (Reg.PROT_PAL_CRC_CRC n)

/-- A failed tile-row or palette check of a sextant is counted. -/
def State.sxtCheckFail (s : State) : State :=
  match s.activeSextant with
  | some k => s.count (Reg.SXT_CHECK_FAILS_COUNT k)
  | none => s

/-- R172, R175: the palette of a pending protected commit has been read through the active sextant's port. -/
def State.protTables (s : State) (n : Nat) : State :=
  if !(s.protPending n && (s.prot n).loading) || s.startWaits (256 * s.get (Reg.PROT_PAL_ADDR_ADDR n)) 1024 then s
  else
    let (p, s) := s.dmaRead .secure (10 + s.activeSextant.getD 0) (256 * s.get (Reg.PROT_PAL_ADDR_ADDR n)) 1024
    match p with
    | some bs =>
      if s.palOk n bs then
        let r := { s.prot n with loading := false }
        s.setProt n (if r.palSecond then { r with pal0 := paletteWords bs } else { r with pal1 := paletteWords bs })
      else ((s.protEvent n (Reg.PROT_STATUS_CHECK_FAIL n)).sxtCheckFail).protReject n 0xE
    | none => (s.protEvent n (Reg.PROT_STATUS_CHECK_FAIL n)).protReject n 0xE

/-- R173, R177, R188: a protected commit is applied at the latch of frame f. -/
def State.protApply (s : State) (n f : Nat) : State :=
  let r := s.prot n
  let was := s.bit (Reg.PROT_ACT_CTRL_EN n)
  let en := s.bit (Reg.PROT_CTRL_EN n)
  let swap := s.bit (Reg.PROT_CTRL_PAL_LOAD n)
  let s := s.each (List.range 36) fun i t => t.setReg (Reg.PROT_CTRL n + 0x200 + 4 * i) (t.reg (Reg.PROT_CTRL n + 4 * i))
  let s := s.set (Reg.PROT_STATUS_ENABLED n) (b2n en)
  let s := if en && !was then s.set (Reg.PROT_STATUS_VOUCH_VALID n) 0 else s
  let s := s.setProt n { r with sched := none, loading := false, palSecond := if swap then !r.palSecond else r.palSecond }
  let s := s.dropCauses n (fun c => c.reason == 2)
  (s.protState n 2 0).set (Reg.PROT_APPLIED_FRAME_FRAME n) f

/-- R172: the latch of frame f for a screen's protected layer; the flag says whether a commit was applied. -/
def State.protLatch (s : State) (n f : Nat) (start : Bool) : State × Bool :=
  let s := if start && s.protPending n && s.bit (Reg.PROT_CTRL_EN n) && s.protBadGeometry n then s.protReject n 8 else s
  let due := s.protPending n && !(s.prot n).loading &&
    (match (s.prot n).sched with | some g => !frameLater g f | none => true)
  if due then (s.protApply n f, true) else (s, false)

/-- R177, R178: the freshness of frame f of an enabled protected layer. -/
def State.protFresh (s : State) (n f : Nat) : State :=
  let stale := !(s.liveRects n).isEmpty || s.bit (Reg.PROT_ACT_CTRL_EN n)
  let fresh := s.bit (Reg.PROT_STATUS_VOUCH_VALID n) &&
    decide ((f + 2 ^ 32 - s.get (Reg.PROT_VOUCH_FRAME n)) % 2 ^ 32 ≤ max 1 (s.scr n).freshLimit)
  let was := s.bit (Reg.PROT_STATUS_STALE n)
  let now := stale && !fresh
  let old := (s.scr n).causes.filter (fun c => c.reason == 1)
  let s := (s.dropCauses n (fun c => c.reason == 1)).set (Reg.PROT_STATUS_STALE n) (b2n now)
  let s := if now then s.each (s.liveRects n) fun k t =>
      t.addCause n { rect := k, reason := 1, line := 0, frame := match old.find? (fun c => c.rect == k) with
        | some c => c.frame
        | none => f }
    else s
  if now && !was then s.raiseFault (88 + n) else if was && !now then s.liveFell (88 + n) else s

end Sys2Proof.Machine
end

