-- ==== Sys2Proof/Machine/PipeOps.lean ====
section
/-! DEFINITION. Pipes: their states, the choice of a new pipe, and the watch (R105, R195 to R203, R482). -/

namespace Sys2Proof.Machine

/-- PIPE_n_STATUS.STATE: 0 SERVING, 1 RESERVE, 2 WATCHING, 3 SUSPECT, 4 WORN. -/
def State.pipeState (s : State) (p : Nat) : Nat := s.get (Reg.PIPE_STATUS_STATE p)

/-- PIPE_n_STATUS.STATE set; a pipe that does not serve is BACKGROUND on its port, with no fetch target (R229, R232). -/
def State.setPipeState (s : State) (p st : Nat) : State :=
  let s := s.set (Reg.PIPE_STATUS_STATE p) st
  if st = 0 then s else (s.set (Reg.QOS_CFG_CLASS p) 7).set (Reg.QOS_CFG_TARGET p) 1000000

/-- An event of PIPE_n_STATUS: source 43 + n. -/
def State.pipeEvent (s : State) (p : Nat) (flag : Fld) : State := s.event flag (Reg.PIPE_STATUS_EVENTS p) (43 + p)

/-- R482: whether a pipe is held for a starting screen. -/
def State.pipeHeld (s : State) (p : Nat) : Bool := allScreens.any fun n => (s.scr n).held == some p

/-- The valid bit of a lane. -/
def laneValid (p lane : Nat) : Fld := if lane = 0 then Reg.PIPE_STATUS_L0_VALID p else Reg.PIPE_STATUS_L1_VALID p
/-- The screen of a lane. -/
def laneScreen (p lane : Nat) : Fld := if lane = 0 then Reg.PIPE_STATUS_L0_SCREEN p else Reg.PIPE_STATUS_L1_SCREEN p

/-- A screen's watch ends; a WATCHING pipe with no lane left is RESERVE. -/
def State.watchEnd (s : State) (n : Nat) : State :=
  match (s.scr n).watch with
  | none => s
  | some w =>
    let s := s.setScr n { s.scr n with watch := none }
    let s := (s.set (laneValid w.pipe w.lane) 0).set (laneScreen w.pipe w.lane) 0
    if s.pipeState w.pipe == 2 && !s.bit (laneValid w.pipe 0) && !s.bit (laneValid w.pipe 1) then s.setPipeState w.pipe 1 else s

/-- R201: a screen's watched frame is void. -/
def State.watchVoid (s : State) (n : Nat) : State :=
  if (s.scr n).watch.isSome then (s.count (Reg.SCREEN_WATCH_VOIDS n)).watchEnd n else s

/-- R196, R482: a pipe abandons its watches, which count as void. -/
def State.pipeUnwatch (s : State) (p : Nat) : State :=
  s.each allScreens fun n t => match (t.scr n).watch with
    | some w => if w.pipe = p then t.watchVoid n else t
    | none => t

/-- R195, R202: a pipe becomes SUSPECT. -/
def State.pipeSuspect (s : State) (p : Nat) (watch : Bool) : State :=
  ((s.pipeUnwatch p).setPipeState p 3).pipeEvent p
    (if watch then Reg.PIPE_STATUS_WATCH_FAIL p else Reg.PIPE_STATUS_MISMATCH p)

/-- R105, R195: a pipe leaves its screen: WORN or SUSPECT where it is marked, RESERVE otherwise. -/
def State.pipeLeave (s : State) (p : Nat) : State :=
  let r := s.pipe p
  let s := (s.setPipe p { r with mismatch := false, watchFail := false }).set (Reg.PIPE_STATUS_SCREEN p) 0
  let s := if r.mismatch then s.pipeSuspect p false else s
  let s := if r.watchFail then s.pipeSuspect p true else s
  if r.worn then s.setPipeState p 4 else if r.mismatch || r.watchFail then s else s.setPipeState p 1

/-- R105, R482: a pipe takes a screen: it is SERVING, and its watches end. -/
def State.pipeTake (s : State) (p n : Nat) : State :=
  let s := s.pipeUnwatch p
  let st := s.pipeState p
  let r := s.pipe p
  let s := s.setPipe p { r with mismatch := r.mismatch || decide (st = 3), worn := r.worn || decide (st = 4) }
  let port := s.portOf n
  ((s.setPipeState p 0).set (Reg.PIPE_STATUS_SCREEN p) n).set (Reg.XBAR_MAP_PIPE port) p

/-- R196, R202: the pipe a screen chooses: the lowest RESERVE pipe that is not held, else the lowest WATCHING one, and none that
is the other party to a watch mismatch, its own or another screen's. -/
def State.choosePipe (s : State) : Option Nat :=
  let free := fun (p : Nat) => !s.pipeHeld p && !allScreens.any fun m => (s.scr m).exclude.contains p
  match allPipes.find? (fun p => s.pipeState p == 1 && free p) with
  | some p => some p
  | none => allPipes.find? (fun p => s.pipeState p == 2 && free p)

/-- R196: a screen needs a new pipe. -/
def State.needPipe (s : State) (n : Nat) : State := s.setScr n { s.scr n with needPipe := true }

/-- R185, R196: a running screen's pipe disagreed with the sextant: PIPE_MISMATCH is raised and the pipe is replaced at the
next latch. -/
def State.pipeMismatch (s : State) (n : Nat) : State :=
  let p := s.pipeOf n
  ((s.setPipe p { s.pipe p with mismatch := true }).needPipe n).raiseFault (32 + p)

/-- R389: an uncorrectable error in a pipe's arrays has the action of PIPE_MISMATCH: a pipe that serves is replaced; one
that does not becomes SUSPECT at once (DEDUCED, log entry 35). -/
def State.pipeArray (s : State) (p : Nat) : State :=
  match allScreens.find? (fun n => s.running n && s.pipeOf n == p) with
  | some n => (s.setPipe p { s.pipe p with mismatch := true }).needPipe n
  | none => if s.pipeState p = 1 || s.pipeState p = 2 then s.pipeSuspect p false else s

/-- R195, R202, R449: the other party to a watch mismatch becomes SUSPECT at the latch. One that a screen has taken since goes on
serving that screen, which needs a new pipe, and becomes SUSPECT when it leaves; a WORN pipe stays WORN. -/
def State.otherSuspect (s : State) (p : Nat) : State :=
  match s.pipeState p with
  | 0 => (s.setPipe p { s.pipe p with watchFail := true }).needPipe (s.get (Reg.PIPE_STATUS_SCREEN p))
  | 3 => s
  | 4 => s.pipeEvent p (Reg.PIPE_STATUS_WATCH_FAIL p)
  | _ => s.pipeSuspect p true

/-- R105, R196, R197, R202: the change of pipe at a latch of a screen that needs one. -/
def State.pipeSwap (s : State) (n : Nat) : State :=
  if !(s.scr n).needPipe then s
  else
    let old := s.pipeOf n
    let s := s.each (s.scr n).exclude fun p t => t.otherSuspect p
    let s := s.setScr n { s.scr n with exclude := [] }
    match s.choosePipe with
    | some p =>
      let s := ((s.pipeTake p n).count Reg.XBAR_SWAPS_COUNT).pipeLeave old
      let s := s.setScr n { s.scr n with needPipe := false }
      if s.exhausted.contains n then { s with exhausted := s.exhausted.filter (· != n) }.liveFell (64 + n) else s
    | none =>
      if s.exhausted.contains n then s else { s with exhausted := n :: s.exhausted }.raiseFault (64 + n)

/-! ### The watch (R198 to R202) -/

/-- R198: whether a screen may be watched. -/
def State.watchable (s : State) (n : Nat) : Bool :=
  s.running n && bitOf (s.get Reg.XBAR_WATCH_SCREENS) n && (s.pixClock (s.timing n)).leNat 825000000

/-- R198: the lanes of the watch, each with its pipe, its number and its screens. -/
def State.watchLanes (s : State) : List (Nat × Nat × List Nat) :=
  if !s.bit Reg.XBAR_WATCH_EN then []
  else
    match allPipes.filter (fun p => (s.pipeState p == 1 || s.pipeState p == 2) && !s.pipeHeld p) with
    | [] => []
    | [p] => [(p, 0, [0, 2, 4, 6]), (p, 1, [1, 3, 5, 7])]
    | p :: q :: _ => [(p, 0, [0, 4]), (p, 1, [1, 5]), (q, 0, [2, 6]), (q, 1, [3, 7])]

/-- R199: the next screen a lane watches, in cyclic order after the one it watched last. -/
def State.laneNext (s : State) (p lane : Nat) (set : List Nat) : Option Nat :=
  let last := if lane = 0 then (s.pipe p).last0 else (s.pipe p).last1
  let order := set.filter (fun m => decide (last < m)) ++ set.filter (fun m => decide (m ≤ last))
  order.find? s.watchable

/-- R198, R199: a frame of a screen starts its fetch: the lane whose turn it is watches it. -/
def State.watchStart (s : State) (n : Nat) : State :=
  let lane := s.watchLanes.find? fun l => l.2.2.contains n
  let s := s.set (Reg.SCREEN_WATCH_SKIPPED n) (b2n (!(lane.isSome && s.watchable n)))
  match lane with
  | none => s
  | some (p, k, set) =>
    let idle := !s.bit (laneValid p k)
    if idle && (s.scr n).watch.isNone && s.laneNext p k set == some n then
      let s := s.setPipe p (if k = 0 then { s.pipe p with last0 := n } else { s.pipe p with last1 := n })
      let s := ((s.setPipeState p 2).set (laneValid p k) 1).set (laneScreen p k) n
      s.setScr n { s.scr n with watch := some { pipe := p, lane := k, frame := s.frame n } }
    else s

/-- R202: the action of a watch mismatch of pipe p: the screen it serves, or watches, needs a new pipe, and the pipe of the watch is
excluded; a pipe that does neither becomes SUSPECT. -/
def State.watchAction (s : State) (p : Nat) : State :=
  let party := fun (n : Nat) => s.running n && (s.pipeOf n == p || (match (s.scr n).watch with | some w => w.pipe == p | none => false))
  match allScreens.find? party with
  | some n =>
    let q := s.pipeOf n
    let other := match (s.scr n).watch with | some w => [w.pipe] | none => []
    let s := s.setPipe q { s.pipe q with watchFail := true }
    s.setScr n { s.scr n with needPipe := true, exclude := other ++ (s.scr n).exclude }
  | none => if s.pipeState p = 1 || s.pipeState p = 2 then s.pipeSuspect p true else s

/-- R200 to R202: the signatures of a screen's watched frame are both complete; `diff` is what differs between them, and
`late` says that a line of the watch was late. The two faults' records enter the queue in the order of R427. -/
def State.watchCompare (s : State) (n : Nat) (diff : Nat) (late : Bool) : State :=
  let s0 := s
  match (s.scr n).watch with
  | none => s
  | some w =>
    match w.sig with
    | none => s
    | some _ =>
      if w.bad || late then s.watchVoid n
      else
        let s := (s.count (Reg.SCREEN_WATCH_COMPARED n)).set (Reg.SCREEN_WATCH_LAST_FRAME n) w.frame
        let s := s.watchEnd n
        if diff = 0 || !s.running n then s
        else
          let p := s.pipeOf n
          let s := s.set (Reg.SCREEN_WATCH_MISMATCH n) 1
          let s := s.setPipe p { s.pipe p with watchFail := true }
          let s := s.setScr n { s.scr n with needPipe := true, exclude := w.pipe :: (s.scr n).exclude }
          ((s.raiseFault (42 + min p w.pipe)).raiseFault (42 + max p w.pipe)).inOrder s0

end Sys2Proof.Machine
end

