-- ==== Sys2Proof/Machine/ScreenOps.lean ====
section
/-! DEFINITION. What a screen does at its start, its latches and its stop, and how it carries out a RETIME (R71 to R88,
R95, R204, R207). -/

namespace Sys2Proof.Machine

/-! ### Refresh lowering (R79 to R82) -/

/-- R79: whether a screen may be lowered by a factor. -/
def State.lowerOk (s : State) (n mult : Nat) : Bool :=
  let t := s.timing n
  let m := if mult < 2 then 2 else mult
  s.bit (Reg.DPO_CTRL_ADAPTIVE_SYNC (s.portOf n)) && t.vtMax != 0 && decide (m * t.beats ≤ 16 ∧ m * t.vTotal ≤ t.vtMax)

/-- R80 to R82: the decision of a latch that was quiet or not. -/
def State.lowerDecide (s : State) (n : Nat) (quiet : Bool) : State :=
  let r := s.scr n
  let q := if quiet then r.quiet + 1 else 0
  let ok := s.lowerOk n (s.get (Reg.SCREEN_LOWER_MULT n))
  let low := ok && (s.bit (Reg.SCREEN_LOWER_FORCED n) ||
    (s.bit (Reg.SCREEN_LOWER_EN n) && quiet && decide (max 1 (s.get (Reg.SCREEN_LOWER_QUIET n)) ≤ q)))
  (s.setScr n { r with quiet := q, blanking := true, early := false, forcedTail := false }).set (Reg.SCREEN_STATUS_LOWERED n) (b2n low)

/-! ### The hit map (R204) -/

/-- R204: the hit map of frame f. -/
def State.buildHit (s : State) (n f : Nat) : HitMap :=
  let t := s.timing n
  let takes := fun (l : Nat) => s.bit (Reg.LAYER_ACT_CTRL_EN l) && s.bit (Reg.LAYER_ACT_CTRL_INPUT l)
    && !(s.get (Reg.LAYER_STATUS_READY_STATE l) == 2 && (s.get (Reg.LAYER_READY_POLICY_ACTION l) == 0
      || s.get (Reg.LAYER_READY_POLICY_ACTION l) == 3))
  { frame := f, w := t.hActive, h := t.vActive, prot := (s.liveRects n).map (s.actRect n),
    layers := ((s.layersOf n).filter takes).reverse.map fun l => (s.layerSession l, s.actDst l) }

/-- R204: the entry of a tile: outside the active area; session 0 where a protected rectangle touches the tile; else the
session of the highest layer at the tile's centre. -/
inductive HitEntry where
  | outside | none | session (n : Nat)
deriving DecidableEq, Repr

/-- R204: a map's entry for tile (i, j). -/
def HitMap.entry (m : HitMap) (i j : Nat) : HitEntry :=
  if m.w ≤ 16 * i ∨ m.h ≤ 16 * j then .outside
  else if m.prot.any (fun r => r.overlaps { x := 16 * i, y := 16 * j, w := 16, h := 16 }) then .session 0
  else
    match m.layers.find? (fun p => p.2.holds (min (16 * i + 8) (m.w - 1)) (min (16 * j + 8) (m.h - 1))) with
    | some (some n, _) => .session n
    | _ => .none

/-! ### RETIME (R83 to R88) -/

/-- A request ends refused, with its code. STATUS.CFG_ERR is not set: R83 gives a failed check REFUSED and ERR_CODE (DEDUCED,
log entry 75). -/
def State.retimeRefuse (s : State) (n code : Nat) : State :=
  let s := (s.set (Reg.SCREEN_STATUS_ERR_CODE n) code).set (Reg.SCREEN_RETIME_REFUSED n) 1
  ((s.count (Reg.SCREEN_RETIME_EVENTS n)).set (Reg.SCREEN_RETIME_STATE n) 0).set (Reg.SCREEN_RETIME_GO n) 0

/-- R87: the staging set is copied into the timing registers, and the request is done. -/
def State.retimeDone (s : State) (n : Nat) : State :=
  let s := s.each [0x10, 0x14, 0x18, 0x1C, 0x20, 0x24] fun o t => t.setReg (Machine.reg 2 n o) (t.reg (Machine.reg 2 n (o + 0x40)))
  let s := s.set (Reg.SCREEN_CTRL_BPC30 n) (s.get (Reg.SCREEN_RT_LINK_BPC30 n))
  let s := ((s.set (Reg.SCREEN_RETIME_DONE n) 1).count (Reg.SCREEN_RETIME_EVENTS n)).set (Reg.SCREEN_RETIME_STATE n) 0
  let s := (s.set (Reg.SCREEN_RETIME_GO n) 0).set (Reg.SCREEN_STATUS_LOWERED n) 0
  s.setScr n { s.scr n with quiet := 0 }

/-- R84: the class of a request: 1 SEAMLESS, 2 BLANK_FRAME, 3 RETRAIN. -/
def State.retimeClass (s : State) (n : Nat) : Nat :=
  let p := s.portOf n
  let a := s.timing n
  let b := s.rtTiming n
  let sameLink := s.get (Reg.SCREEN_RT_LINK_RATE n) == s.get (Reg.DPO_LINK_STATUS_LIVE_RATE p)
    && laneCount (s.get (Reg.SCREEN_RT_LINK_LANES n)) == laneCount (s.get (Reg.DPO_LINK_STATUS_LIVE_LANES p))
  let seamless := sameLink && decide (a.bpc30 = b.bpc30 ∧ a.hTotal = b.hTotal ∧ a.hActive = b.hActive ∧ a.hsPol = b.hsPol
    ∧ a.hsWidth = b.hsWidth ∧ a.hsFp = b.hsFp ∧ a.vActive = b.vActive ∧ a.vsWidth = b.vsWidth ∧ a.vsPol = b.vsPol
    ∧ a.stagger = b.stagger ∧ a.vTotal - a.vActive - a.vsFp - a.vsWidth = b.vTotal - b.vActive - b.vsFp - b.vsWidth
    ∧ b.vTotal * a.beats = a.vTotal * b.beats ∧ b.vtMin ≤ b.vTotal ∧ b.vTotal ≤ b.vtMax)
    && s.bit (Reg.DPO_CTRL_ADAPTIVE_SYNC p)
  if seamless then 1 else if sameLink then 2 else 3

/-- R81, R83, R84: RETIME.GO is written. A screen whose stop is pending still runs, so its request is accepted, and the stop
latch refuses it with 0xA (DEDUCED, log entry 75). -/
def State.retimeGo (s : State) (n : Nat) : State :=
  let p := s.portOf n
  if s.get (Reg.SCREEN_RETIME_STATE n) ≠ 0 then s.scrRefuse n 9
  else if !s.running n then s.retimeRefuse n 9
  else if (s.port p).degrading then s.retimeRefuse n 0xC
  else match s.timingErr n (s.rtTiming n) (s.bit (Reg.DPO_LINK_STATUS_LINK_OK p)) (s.get (Reg.SCREEN_RT_LINK_RATE n))
      (s.get (Reg.SCREEN_RT_LINK_LANES n)) with
    | some code => s.retimeRefuse n code
    | none =>
      let s := (s.set (Reg.SCREEN_RETIME_CLASS n) (s.retimeClass n)).set (Reg.SCREEN_RETIME_STATE n) 1
      (s.set (Reg.SCREEN_RETIME_GO n) 1).earlyEnd n none

/-! ### Stop (R73) -/

/-- R394: a C2 reaction that was released ends at the screen's first latch after the release. -/
def State.c2Release (s : State) (n : Nat) : State :=
  if (s.scr n).c2Ends then s.setScr n { s.scr n with c2 := none, c2Ends := false } else s

/-- R73: a screen stops: the port sends the idle pattern and the pipe is freed; nothing is applied. -/
def State.screenHalt (s : State) (n : Nat) : State :=
  let port := s.portOf n
  let s := if s.get (Reg.SCREEN_RETIME_STATE n) = 1 then s.retimeRefuse n 0xA else s
  let s := s.watchVoid n
  let s := s.each (s.scr n).exclude fun p t => t.otherSuspect p
  let s := if s.bit (Reg.XBAR_MAP_VALID port) then s.pipeLeave (s.pipeOf n) else s
  let s := ((s.set (Reg.XBAR_MAP_VALID port) 0).set (Reg.XBAR_MAP_PIPE port) 0xF).set (Reg.XBAR_MAP_SCREEN port) 0
  let halve := (s.scr n).halve
  let s := s.setPort port { s.port port with video := false, degrading := (s.port port).degrading && !halve }
  let s := ((s.set (Reg.SCREEN_STATUS_RUNNING n) 0).set (Reg.SCREEN_STATUS_LOWERED n) 0).set (Reg.SCREEN_CTRL_RUN n) 0
  let s := (s.c2Release n).quietStopped n
  let r := s.scr n
  let s := s.setScr n { r with starting := false, held := none, stopping := false, gap := false, gapStop := false,
                               gapDone := false, halve := false, blanking := false, early := false, needPipe := false,
                               exclude := [], composed := [], ahead := 0, tiles := [], sextant := none, sent := [], mode := 0,
                               poisoned := [] }
  let s := s.dropCauses n (fun c => c.reason == 3 || c.reason == 4 || c.reason == 6)
  let s := if s.exhausted.contains n then { s with exhausted := s.exhausted.filter (· != n) }.liveFell (64 + n) else s
  s.qosUpdate

/-! ### The latch (R75) -/

/-- R159 to R161: an output commit is applied at the latch of frame f. -/
def State.outLatch (s : State) (n f : Nat) : State :=
  if s.get (Reg.SCREEN_OUT_STATUS_STATE n) ≠ 1 then s
  else
    let s := s.each (List.range 8) fun i t => t.setReg (Machine.reg 2 n (0x180 + 4 * i)) (t.reg (Machine.reg 2 n (0x100 + 4 * i)))
    let s := if (s.scr n).lutSwap then
        s.set (Reg.SCREEN_OUT_STATUS_ACTIVE_BANK n) (1 - s.get (Reg.SCREEN_OUT_STATUS_ACTIVE_BANK n)) else s
    let s := s.setScr n { s.scr n with lutSwap := false }
    (s.set (Reg.SCREEN_OUT_STATUS_STATE n) 2).set (Reg.SCREEN_OUT_FRAME_FRAME n) f

/-- R103: a PWM period of a port's backlight starts: it takes the period, held within its range, the duty, and under a
brownout the lower of the two duties. -/
def State.pwmStart (s : State) (p : Nat) : State :=
  let d := s.get (Reg.DPO_BL_DUTY_DUTY p)
  s.setPort p { s.port p with
    pwmPeriod := clampNat 500 250000 (s.get (Reg.DPO_BL_PWM_PERIOD p)),
    pwmDuty := if s.brownout then min d (s.get (Reg.DPO_BL_DUTY_BROWNOUT_DUTY p)) else d,
    pwmLow := s.bit (Reg.DPO_BL_PWM_POL p) }

/-- What every latch clock does, whatever it applies: LATCH_DRUM, LINE, which is V_ACTIVE there (R72, R75), the screen's
source, and the PWM restart of SYNC. -/
def State.latchClock (s : State) (n : Nat) : State :=
  let s := s.set (Reg.SCREEN_STATUS_LINE n) (s.get (Reg.SCREEN_TIMING_V_V_ACTIVE n))
  let s := (s.set (Reg.SCREEN_LATCH_DRUM_DRUM n) s.drumbeat).raiseIrq (9 + n)
  let p := s.portOf n
  if s.bit (Reg.DPO_BL_PWM_SYNC p) then s.pwmStart p else s

/-- R75 to R77, R122 to R132: the layers of a screen at the latch of frame f; the flag says that the latch is quiet. -/
def State.latchLayers (s : State) (n f : Nat) (start : Bool) : State × Bool :=
  (s.layersOf n).foldl (fun p l => let (t, busy) := p.1.layLatch l f start; (t, p.2 && !busy)) (s, true)

/-- R185, R186: the frame that ends counts as checked when every protected pixel of it was compared. The sextant that verified it
has done so; the next frame's is chosen when its fetch starts. -/
def State.frameEnds (s : State) (n : Nat) (start : Bool) : State :=
  let r := s.scr n
  let s := if !start && !(s.liveRects n).isEmpty && r.sextant.isSome && r.compared then
      s.count (Reg.DPO_CMP_COUNT_CHECKED_FRAMES (s.portOf n)) else s
  let s := s.dropCauses n (fun c => c.reason == 3 || c.reason == 4 || c.reason == 6)
  let r := s.scr n
  s.setScr n { r with causes := r.causes.map (fun c => { c with line := 0 }), mode := 0, mismatch := false, sextant := none,
                      sent := [], ahead := 0 }

/-- R75: an ordinary or start latch of a screen: everything that takes effect with the frame it begins. -/
def State.screenLatch (s : State) (n : Nat) (start : Bool) : State :=
  let f := (s.frame n + 1) % 2 ^ 32
  let s := (s.frameEnds n start).c2Release n
  let s := s.setScr n { s.scr n with freshLimit := s.get (Reg.SCREEN_PROT_CFG_FRESH_LIMIT n),
                                     strict := s.bit (Reg.SCREEN_PROT_CFG_STRICT n) }
  let (s, quietL) := s.latchLayers n f start
  let (s, applied) := s.protLatch n f start
  let s := s.protFresh n f
  let s := s.outLatch n f
  let s := if start then s else s.pipeSwap n
  let retimed := s.get (Reg.SCREEN_RETIME_STATE n) == 1 && s.get (Reg.SCREEN_RETIME_CLASS n) == 1
    && (s.scr n).frameDrum % max 1 (s.get (Reg.SCREEN_RT_TIMING_BEAT_BEATS n)) == 0 && !start
  let s := if retimed then s.retimeDone n else s
  let s := s.lowerDecide n (quietL && !applied && !retimed)
  let s := s.setScr n { s.scr n with hitNext := some (s.buildHit n f) }
  let s := (s.set (Reg.SCREEN_FRAME_FRAME n) f).latchClock n
  s.qosUpdate

/-- R84, R85, R95: the latch at which video stops for a RETIME or for a halved degrade: it applies nothing and FRAME
stays; in a RETRAIN the link trains at the new parameters. -/
def State.latchGap (s : State) (n : Nat) (retime : Bool) : State :=
  let p := s.portOf n
  let s := s.watchVoid n
  let s := (s.frameEnds n false).latchClock n
  let s := s.set (Reg.SCREEN_STATUS_LOWERED n) 0
  let s := s.setScr n { s.scr n with gap := true, gapStop := false, gapDone := !retime, composed := [], tiles := [] }
  let s := (s.setPort p { s.port p with video := false }).quietStopped n
  if !retime then s
  else
    let s := s.set (Reg.SCREEN_RETIME_STATE n) 2
    if s.get (Reg.SCREEN_RETIME_CLASS n) = 3 then
      s.trainAt p .retime (s.get (Reg.SCREEN_RT_LINK_RATE n)) (laneCode (s.get (Reg.SCREEN_RT_LINK_LANES n)))
    else s

/-- R73, R75, R84, R95: the latch clock of a running screen. -/
def State.latch (s : State) (n : Nat) : State :=
  if !s.running n || (s.scr n).gap then s
  else if (s.scr n).stopping then ((s.frameEnds n false).latchClock n).screenHalt n
  else if s.get (Reg.SCREEN_RETIME_STATE n) = 1 ∧ s.get (Reg.SCREEN_RETIME_CLASS n) ≠ 1 then s.latchGap n true
  else if (s.scr n).halve then s.latchGap n false
  else s.screenLatch n false

/-! ### Start (R72, R73, R482) -/

/-- R72, 0x8: whether a start may take a pipe. -/
def State.pipeFree (s : State) (n p : Nat) : Bool :=
  decide (p < 10) && (s.pipeState p == 1 || s.pipeState p == 2)
    && !allScreens.any (fun m => m != n && (s.scr m).held == some p)

/-- R72, 0x7: whether the port reports LINK_OK and no other screen drives it or is starting on it (log entry 23). -/
def State.portFree (s : State) (n : Nat) : Bool :=
  let p := s.portOf n
  s.bit (Reg.DPO_LINK_STATUS_LINK_OK p) &&
    !allScreens.any (fun m => m != n && s.portOf m == p && (s.running m || (s.scr m).starting))

/-- R72: the first check a start fails. -/
def State.startErr (s : State) (n : Nat) : Option Nat :=
  let p := s.portOf n
  match s.timingErr n (s.timing n) (s.portFree n) (s.get (Reg.DPO_LINK_STATUS_LIVE_RATE p))
      (s.get (Reg.DPO_LINK_STATUS_LIVE_LANES p)) with
  | some c => some c
  | none => if s.pipeFree n (s.get (Reg.SCREEN_CTRL_PIPE n)) then none else some 8

/-- Whether a pipe is WORN, or is to become WORN when its screen leaves it (R447, R449). -/
def State.pipeWorn (s : State) (p : Nat) : Bool := s.pipeState p == 4 || (s.pipe p).worn

/-- R450: what a write of SCREEN_n_CTRL stores: in place of a WORN pipe, the lowest pipe that is not WORN and that no other
screen names. -/
def State.remapPipe (s : State) (n : Nat) (v : Word) : Word :=
  let p := getBits v 8 4
  if s.bit Reg.WEAR_CFG_REMAP && decide (p < 10) && s.pipeWorn p then
    match allPipes.find? (fun q => !s.pipeWorn q && !allScreens.any (fun m => m != n && s.get (Reg.SCREEN_CTRL_PIPE m) == q)) with
    | some q => setBits v 8 4 q
    | none => v
  else v

/-- R71 to R73, R88: SCREEN_n_CTRL is written. RUN = 0 while a start waits for its start latch cancels it at once, and RUN = 1
in a RETIME's gap changes nothing, a stop asked for there included (DESIGN CHOICE, log entry 75). -/
def State.screenCtrlWrite (s : State) (n : Nat) (v : Word) : State :=
  let a := Reg.SCREEN_CTRL n
  let run := bitOf v.toNat 0
  let st := s.get (Reg.SCREEN_RETIME_STATE n)
  if s.running n || st != 0 then
    if !s.onlyChanges a 1 v then s.scrEvent n (Reg.SCREEN_STATUS_WRITE_WHILE_ACTIVE n)
    else if (s.scr n).gap then
      if run then s else (s.set (Reg.SCREEN_CTRL_RUN n) 0).setScr n { s.scr n with gapStop := true }
    else
      let s := s.set (Reg.SCREEN_CTRL_RUN n) (b2n run)
      let s := if !run && st = 1 then s.retimeRefuse n 0xA else s
      s.setScr n { s.scr n with stopping := !run }
  else
    let s := (s.plainWrite a (s.remapPipe n v)).setScr n { s.scr n with starting := false, held := none }
    if !run then s
    else match s.startErr n with
      | some c => (s.set (Reg.SCREEN_CTRL_RUN n) 0).scrRefuse n c
      | none => s.setScr n { s.scr n with starting := true, held := some (s.get (Reg.SCREEN_CTRL_PIPE n)) }

/-- R207, R394, R395: a screen that starts while a reaction holds sends its harmless state from its start latch, of a C3 reaction the
one that was selected when it took effect, and BL_EN of its port is released. -/
def State.startHarmless (s : State) (n : Nat) : State :=
  let s := if s.c3 || (s.scr n).c2.isSome then s.blLow (s.portOf n) else s
  if s.c3 && (s.scr n).c3.isNone then
    let h := (s.scr n).c3Act.getD (s.safeHarbour n)
    (s.setScr n { s.scr n with c3 := some (h, s.frame n) }).when h (·.raiseIrq (33 + s.portOf n))
  else s

/-- R27, R31, R72: the lines of a screen are counted from the grid beat at or before its start latch until its first line 0. -/
def State.gridFrom (s : State) (n : Nat) : State :=
  s.setScr n { s.scr n with frameDrum := s.drumbeat - s.drumbeat % max 1 (s.timing n).beats }

/-- R183: whether a self-test of the ACTIVE sextant runs. -/
def State.activeUnderTest (s : State) : Bool :=
  (List.range 2).any fun k => s.get (Reg.SXT_STATUS_STATE k) == 3 && s.sxtBack.contains (k, 0)

/-- R72, R85, R87, R88, R95, R482: the start latch of a screen. -/
def State.startLatch (s : State) (n : Nat) : State :=
  let r := s.scr n
  let port := s.portOf n
  if s.activeUnderTest then s
  else if r.gap then
    if !r.gapDone then s
    else if r.gapStop then s.screenHalt n
    else
      let s := if r.halve then
          (s.setPort port { s.port port with degrading := false }).set (Reg.SCREEN_TIMING_BEAT_BEATS n)
            (2 * s.get (Reg.SCREEN_TIMING_BEAT_BEATS n))
        else s
      let s := s.setScr n { s.scr n with gap := false, gapDone := false, halve := false, quiet := 0 }
      (((s.gridFrom n).startHarmless n).pipeSwap n).screenLatch n true
  else
    match r.starting, r.held with
    | true, some p =>
      let s := s.setScr n { r with starting := false, held := none, quiet := 0 }
      let s := ((s.set (Reg.SCREEN_STATUS_RUNNING n) 1).set (Reg.XBAR_MAP_VALID port) 1).set (Reg.XBAR_MAP_SCREEN port) n
      let s := s.pipeTake p n
      let s := if (s.pipe p).mismatch || (s.pipe p).worn || (s.pipe p).watchFail then s.needPipe n else s
      ((s.gridFrom n).startHarmless n).screenLatch n true
    | _, _ => s

/-- R86 to R88: the link work of a RETIME ends, and trained where it had to. The retraining at the old parameters after one that
failed succeeds at once (DESIGN CHOICE, log entry 114). -/
def State.retimeComplete (s : State) (n : Nat) (ok : Bool) : State :=
  let p := s.portOf n
  if s.get (Reg.SCREEN_RETIME_STATE n) ≠ 2 then s
  else
    let train := s.get (Reg.SCREEN_RETIME_CLASS n) == 3
    let s := if !train then s
      else
        let s := s.setPort p { s.port p with why := .none }
        if ok then
          let r := s.get (Reg.SCREEN_RT_LINK_RATE n)
          let l := laneCode (s.get (Reg.SCREEN_RT_LINK_LANES n))
          ((s.setPort p { s.port p with last := some (r, l), failed := [] }).linkUp p r l).clearDegraded p
        else s.linkUp p (s.get (Reg.DPO_LINK_STATUS_LIVE_RATE p)) (s.get (Reg.DPO_LINK_STATUS_LIVE_LANES p))
    let s := s.setScr n { s.scr n with gapDone := true }
    if train && !ok then s.retimeRefuse n 0xB else s.retimeDone n

end Sys2Proof.Machine
end

