-- ==== Sys2Proof/Machine/ScanOps.lean ====
section
/-! DEFINITION. A frame on its way to the port: the start of its fetch, the composition of a line, the sextant's tile rows,
the comparison and what the port sends (R78, R118 to R120, R174, R180, R184 to R188, R193, R199, R200). -/

namespace Sys2Proof.Machine

/-! ### Composition (R118 to R120, R154) -/

/-- R120: a layer's fetch for line y returned poison: it is transparent from that line to the end of the frame. -/
def State.layPoison (s : State) (n l y : Nat) : State :=
  let s := s.setScr n { s.scr n with poisoned := (l, y) :: (s.scr n).poisoned, bad := true }
  s.layEvent l (Reg.LAYER_STATUS_POISON l)

/-- R37, R119: a layer's data for a line is late. -/
def State.layLate (s : State) (n : Nat) (t : LateLayer) : State :=
  let s := s.setScr n { s.scr n with bad := true }
  (s.layEvent t.layer (Reg.LAYER_STATUS_LATE_LINE t.layer)).breach
    { rank := 4, yielded := s.portYield (s.pipeOf n) 4 t.yielded, port := some (s.pipeOf n), mag := t.ns, unit := 0x06, inst := t.layer }

/-- R120: the layers of a screen that are fetched for line y: all but those that poison has made transparent. -/
def State.layersAt (s : State) (n y : Nat) : List Nat :=
  (s.layersOf n).filter fun l => !(s.scr n).poisoned.any fun p => p.1 == l && decide (p.2 ≤ y)

/-- R213: the layers of a screen whose data for line y waits for a side's start. -/
def State.startLayers (s : State) (n y : Nat) : List Nat := (s.layersAt n y).filter fun l => s.layStarts l y

/-- R213: whether a protected rectangle's data for line y waits for a side's start. -/
def State.startRects (s : State) (n y : Nat) : Bool :=
  (s.liveRects n).any fun k =>
    let r := s.actRect n k
    decide (r.y ≤ y ∧ y < r.y + r.h) && s.startWaits (s.protRow n k (y - r.y)) (r.w * s.protBytes n)

/-- Whether line y of a screen stands in its pipe's output buffer. -/
def State.composedLine (s : State) (n y : Nat) : Bool := (s.scr n).composed.any (·.1 == y)

/-- R118, R154: line y of a screen as its pipe composes it into its output buffer, with the layers of a list left out; `bare`
leaves the protected data out. -/
def State.composeLine (s : State) (n y : Nat) (out : List Nat) (bare : Bool) : State :=
  let ls := (s.layersAt n y).filter fun l => !out.contains l
  let rs := ls.map fun l => (l, s.layerLine l y)
  let s := s.each (rs.filter (fun p => p.2.isNone)) fun p t => t.layPoison n p.1 y
  let lines := rs.filterMap (·.2)
  let t := s.timing n
  let bg := rgb30Px (s.reg (Reg.SCREEN_ACT_BG n)).toNat
  let f := s.frame n
  let prot := fun (x : Nat) => (s.rectAt n x y).map fun k =>
    let r := s.actRect n k
    if bare then none else s.protPipePx n k (x - r.x) (y - r.y)
  let px := (List.range t.hActive).map fun x =>
    match prot x with
    | some (some p) => (s.outPixel n f x y p, false)
    | some none => (s.outPixel n f x y (blendStack bg lines x), true)
    | none => (s.outPixel n f x y (blendStack bg lines x), false)
  let r := s.scr n
  s.setScr n { r with composed := r.composed.filter (·.1 != y) ++ [(y, px)], bad := r.bad || px.any (·.2) }

/-- R118, R213: line y is composed unless it stands in the output buffer, or data of it waits for a side's start. -/
def State.composeAhead (s : State) (n y : Nat) : State :=
  if s.composedLine n y || !(s.startLayers n y).isEmpty || s.startRects n y then s else s.composeLine n y [] false

/-- R118, R119: line y is composed now, unless it stands in the output buffer, with what has arrived of it. -/
def State.composeNow (s : State) (n y : Nat) : State :=
  if s.composedLine n y then s else s.composeLine n y (s.startLayers n y) false

/-! ### The sextant (R174, R180, R181) -/

/-- The number of a tile row in a screen's store. -/
def tileKey (k y t : Nat) : Nat := k * 2 ^ 24 + y * 64 + t

/-- Tile rows per buffer row of a rectangle. -/
def State.tileRows (s : State) (n k : Nat) : Nat := ceilDiv (s.actRect n k).w 128

/-- R174: the device address of a tile row and its length in bytes. -/
def State.tileAt (s : State) (n k y t : Nat) : Nat × Nat :=
  (s.protRow n k y + t * 128 * s.protBytes n, 128 * s.protBytes n)

/-- R174: the check value stored for a tile row. -/
def State.tileCheckAt (s : State) (n k y t : Nat) : Nat :=
  256 * s.get (Reg.PROT_ACT_RECT_CHK_ADDR n k) + 4 * (y * s.tileRows n k + t)

/-- R174, R180, R185: a tile row of the sextant arrives and is checked before it is used; one that fails its check or
returns poison shows the harbour image in its rectangle from its line. -/
def State.tileArrive (s : State) (n k y t : Nat) : State :=
  match (s.scr n).sextant with
  | none => s
  | some x =>
    let (a, len) := s.tileAt n k y t
    if s.startWaits a len || s.startWaits (s.tileCheckAt n k y t) 4 then s else
    let (d, s) := s.dmaRead .secure (10 + x) a len
    let (c, s) := s.dmaRead .secure (10 + x) (s.tileCheckAt n k y t) 4
    let s := s.set (Reg.SXT_CHECKS_COUNT x) (s.get (Reg.SXT_CHECKS_COUNT x) + 1)
    let seq := s.get (Reg.PROT_ACT_SEQ_SEQ n)
    let ok := match d, c with
      | some bs, some cs => crc32c (checkPrefix a seq ++ bs) == leNat cs
      | _, _ => false
    if ok then s.setScr n { s.scr n with tiles := sput (fun _ => .absent) (s.scr n).tiles (tileKey k y t) (.passed (d.getD [])) }
    else
      let s := s.setScr n { s.scr n with tiles := sput (fun _ => .absent) (s.scr n).tiles (tileKey k y t) .failed }
      let s := s.count (Reg.SXT_CHECK_FAILS_COUNT x)
      let s := s.protEvent n (Reg.PROT_STATUS_CHECK_FAIL n)
      let s := s.addCause n { rect := k, reason := 2, frame := s.frame n, line := (s.actRect n k).y + y }
      s.raiseFault (80 + n)

/-- A tile row of a screen's store. -/
def State.tileRow (s : State) (n key : Nat) : TileRow := sget (fun _ => .absent) (s.scr n).tiles key

/-- R181: the value the port must send for a protected pixel, from the tile row that holds it. -/
def State.sextantPixel (s : State) (n k x y : Nat) : Option Word :=
  let r := s.actRect n k
  let dx := x - r.x
  let bs := match s.tileRow n (tileKey k (y - r.y) (dx / 128)) with | .passed bs => bs | _ => []
  let b := s.protBytes n
  let px := (bs.drop (dx % 128 * b)).take b
  if px.length = b then some (s.outPixel n (s.frame n) x y (s.protUnpack n (leNat px))) else none

/-- R185: the rectangles that cover line y and whose tile rows for it have not all arrived: those that are late already, or that a
failed sextant left (reasons 0x03 to 0x05), await none. -/
def State.tilesMissing (s : State) (n y : Nat) : List Nat :=
  (s.liveRects n).filter fun k =>
    let r := s.actRect n k
    decide (r.y ≤ y ∧ y < r.y + r.h) && !(s.scr n).causes.any (fun c => c.rect == k && decide (3 ≤ c.reason ∧ c.line ≤ y)) &&
      (List.range (s.tileRows n k)).any fun t => s.tileRow n (tileKey k (y - r.y) t) == .absent

/-- R185: the sextant's data for line y is late in its rectangles: reason 0x06 and a breach at rank 3. -/
def State.tilesLate (s : State) (n y ns yielded : Nat) : State :=
  match (s.scr n).sextant with
  | none => s
  | some x =>
    if (s.scr n).mode = 2 then s
    else s.each (s.tilesMissing n y) fun k t =>
      (t.addCause n { rect := k, reason := 6, frame := t.frame n, line := y }).breach
        { rank := 3, yielded := s.portYield (10 + x) 3 yielded, port := some (10 + x), mag := ns, unit := 0x0A, inst := x }

/-! ### What the port sends (R184, R185, R193) -/

/-- What is known of one pixel at the port: what is sent, whether the pipe disagreed with the sextant there, and whether
it is a protected pixel that was not compared. -/
structure PortPixel where
  /-- value sent -/
  word : Word
  /-- the pipe disagreed -/
  differs : Bool
  /-- a protected pixel not compared -/
  skipped : Bool
deriving DecidableEq, Repr

/-- R185, R193: one pixel of line y; `lacks` says that the pipe composed it without its protected data. -/
def State.portPixel (s : State) (n y x : Nat) (pipe : Word) (lacks : Bool) : PortPixel :=
  let p := s.portOf n
  let l := s.linkBits n
  let r := s.scr n
  let rect := s.rectAt n x y
  match s.whole n, rect with
  | .blank, _ => { word := 0, differs := false, skipped := rect.isSome }
  | .harbour reason f, _ =>
    { word := s.harbourPixel p l (glyphDigits n 15 reason f) (s.get (Reg.DPO_HARB_GLYPH_GLYPH_X p))
        (s.get (Reg.DPO_HARB_GLYPH_GLYPH_Y p)) x y, differs := false, skipped := rect.isSome }
  | .none, none => { word := pipe, differs := false, skipped := false }
  | .none, some k =>
    let d := s.actRect n k
    let harbour := fun (reason f : Nat) => s.harbourPixel p l (glyphDigits n k reason f) d.x d.y x y
    match s.rectReason n k y with
    | some c => { word := harbour c.reason c.frame, differs := false, skipped := true }
    | none =>
      if r.mode = 2 then { word := pipe, differs := false, skipped := true }
      else match s.sextantPixel n k x y with
        | some w => { word := w, differs := !lacks && w != pipe, skipped := lacks }
        | none => { word := harbour 6 (s.frame n), differs := false, skipped := true }

/-- R185: the first pixel of a frame at which the pipe disagrees is recorded, and the pipe is blamed. -/
def State.portMismatch (s : State) (n y x : Nat) : State :=
  let p := s.portOf n
  let s := if s.bit (Reg.DPO_CMP_STATUS_PIPE_MISMATCH p) then s
    else ((s.set (Reg.DPO_CMP_FIRST_LINE p) y).set (Reg.DPO_CMP_FIRST_X p) x).set (Reg.DPO_CMP_FIRST_FRAME_FRAME p) (s.frame n)
  let s := (s.cmpEvent p (Reg.DPO_CMP_STATUS_PIPE_MISMATCH p)).count (Reg.DPO_CMP_COUNT_MISMATCH_FRAMES p)
  (s.setScr n { s.scr n with mode := 1, mismatch := true }).pipeMismatch n

/-- R200: the running signature over a line of pixels. -/
def sigLine (sig : Nat) (px : List Word) : Nat :=
  px.foldl (fun r w => (leBytes 4 w.toNat).foldl (crcByte crc32cParams) r) sig

/-- R200: the signature a running value ends with. -/
def sigEnd (sig : Nat) : Nat := reflectBits 32 sig ^^^ 0xFFFFFFFF

/-- R184, R185, R200: line y is sent; `faults` are pixels at which the pipe hands over another value. -/
def State.sendLine (s : State) (n y : Nat) (faults : List (Nat × Word)) : State :=
  let s := s.composeNow n y
  let line := (((s.scr n).composed.find? (·.1 == y)).map (·.2)).getD []
  let line := line.zipIdx.map fun p => match faults.find? (fun f => f.1 == p.2) with | some f => (f.2, p.1.2) | none => p.1
  let px := line.zipIdx.map fun p => s.portPixel n y p.2 p.1.1 p.1.2
  let first := px.zipIdx.find? (·.1.differs)
  let r := s.scr n
  let s := s.setScr n { r with sent := if (s.port (s.portOf n)).video then px.map (·.word) else [], sig := sigLine r.sig (line.map (·.1)),
                               compared := r.compared && !px.any (·.skipped), composed := r.composed.filter (·.1 != y),
                               tiles := r.tiles.filter (fun t =>
                                 decide (y < (s.actRect n (t.1 / 2 ^ 24)).y + t.1 % 2 ^ 24 / 64)) }
  match first with
  | some (_, x) => if r.mode = 0 then s.portMismatch n y x else s
  | none => s

/-- R199, R200: the last active line of a frame is complete: the pipe's signature stands, and a watched frame awaits its
comparison. -/
def State.frameComplete (s : State) (n : Nat) : State :=
  let r := s.scr n
  let sig := sigEnd r.sig
  let s := s.set (Reg.PIPE_SIG_SIG (s.pipeOf n)) sig
  match r.watch with
  | some w => if w.sig.isSome then s else
      s.setScr n { s.scr n with watch := some { w with sig := some sig, bad := w.bad || r.bad } }
  | none => s

/-- R104: Maud and Naud of a port's audio: 512 × 48 kHz against the link symbol clock, a tenth of the lane rate (PRESUMED, the
formula of DisplayPort 1.4a, log entry 73). -/
def State.maudNaud (s : State) (p : Nat) : Nat × Nat :=
  let a := 512 * 48000
  let b := linkRate (s.get (Reg.DPO_LINK_STATUS_LIVE_RATE p)) * 100000
  (a / Nat.gcd a b, b / Nat.gcd a b)

/-- R27, R31, R92, R104: line 0 of a frame begins. The beat of its grid lies S line times back, and a frame of B beats has V_TOTAL
lines; the port sends video from here on where its link is up, and with AUDIO_EN its Audio InfoFrame. -/
def State.frameStart (s : State) (n : Nat) : State :=
  let t := s.timing n
  let p := s.portOf n
  let up := s.bit (Reg.DPO_LINK_STATUS_LINK_OK p)
  let s := s.setScr n { s.scr n with blanking := false, frameDrum := s.drumbeat - t.stagger * t.beats / t.vTotal }
  let s := s.setPort p { s.port p with video := up }
  if up && s.bit (Reg.DPO_CTRL_AUDIO_EN p) then
    s.setPort p { s.port p with infoFrames := (s.port p).infoFrames + 1, audRatio := s.maudNaud p }
  else s

/-- R119, R213: a layer whose data for a line waits for a side's start is late for it, by a time that the spec does not give: a free
value (log entry 117). -/
def State.layWaits (s : State) (n l : Nat) : State :=
  s.draw.2.layLate n { layer := Fin.ofNat 64 l, ns := s.draw.1, yielded := 0 }

/-- R119, R185, R213: what is composed of line y, whose scan-out comes next, with the layers that are late for it left out, those whose
data waits for a side's start among them; `bare` leaves its protected data out. -/
def State.settleLine (s : State) (n y : Nat) (late : List LateLayer) (bare : Bool) (sxtNs sxtYield : Nat) : State :=
  let late := late.filter (fun d => (s.layersOf n).contains d.layer.val)
  let held := if s.composedLine n y then [] else (s.startLayers n y).filter fun l => !late.any (·.layer.val == l)
  let s := s.each late fun d u => u.layLate n d
  let s := s.each held fun l u => u.layWaits n l
  let s := s.tilesLate n y sxtNs sxtYield
  if late.isEmpty && held.isEmpty && !bare then s.composeNow n y
  else s.composeLine n y (late.map (·.layer.val) ++ held) bare

/-- R118: with scan-out of a line begun, the pipe composes the line eight ahead, counting across the frame boundary from the
start of the frame's fetch. It composes it as soon as it may (DESIGN CHOICE, log entry 83). -/
def State.windowLine (s : State) (n line : Nat) : State :=
  let r := s.scr n
  let t := s.timing n
  if line < t.vActive then if line + 8 < t.vActive then s.composeAhead n (line + 8) else s
  else if r.ahead = 0 ∨ 8 ≤ r.ahead then s
  else (s.setScr n { r with ahead := r.ahead + 1 }).composeAhead n r.ahead

/-- R69, R118 to R120, R185: scan-out of a line begins: the line is sent, the data of the next line, or of line 0 where the
blanking ends with this line, has arrived or is late, and the line eight ahead is composed. -/
def State.scanLine (s : State) (n line : Nat) (last : Bool) (late : List LateLayer) (bare : Bool) (sxtNs sxtYield : Nat)
    (faults : List (Nat × Word)) : State :=
  if !s.running n || (s.scr n).gap then s
  else
    let s0 := s
    let t := s.timing n
    let s := s.set (Reg.SCREEN_STATUS_LINE n) line
    let s := if line = 0 then s.frameStart n else s
    let s := if line < t.vActive then s.sendLine n line faults else s.setScr n { s.scr n with sent := [] }
    let s := if line + 1 = t.vActive then s.frameComplete n else s
    let s :=
      if line + 1 < t.vActive then s.settleLine n (line + 1) late bare sxtNs sxtYield
      else if t.vActive ≤ line && last then s.settleLine n 0 late bare sxtNs sxtYield
      else s
    (s.windowLine n line).inOrder s0

/-- R78, R118, R179, R186, R187, R199: a pipe starts to fetch the next frame: the sextant that is ACTIVE takes the screen, or every
rectangle shows the harbour image where none is; the watch may take the frame, and line 0 is composed. -/
def State.fetchStart (s : State) (n : Nat) : State :=
  if !s.running n || (s.scr n).gap then s
  else
    let rects := s.liveRects n
    let active := s.activeSextant
    let s := s.setScr n { s.scr n with sextant := if rects.isEmpty then none else active, mode := 0, mismatch := false,
                                       compared := true, poisoned := [], sig := 0xFFFFFFFF, bad := false, tiles := [],
                                       composed := [], ahead := 1 }
    let s := s.each [0, 1] fun j t =>
      let v := t.get (Reg.SXT_STATUS_SCREENS j)
      t.set (Reg.SXT_STATUS_SCREENS j) (if active = some j then setBitOf v n else clearBitOf v n)
    let s := if active.isSome then s
      else s.each rects fun k t => t.addCause n { rect := k, reason := 5, frame := t.frame n, line := 0 }
    (s.watchStart n).composeAhead n 0

/-! ### Failures of a sextant (R182, R185 to R187) -/

/-- R187: every live rectangle of a screen takes a cause. -/
def State.causeAll (s : State) (n reason line : Nat) : State :=
  s.each (s.liveRects n) fun k t => t.addCause n { rect := k, reason := reason, frame := t.frame n, line := line }

/-- R185, R186: a sextant that verifies a screen's frame fails: the lockstep row of R185 applies to the rest of that
frame. -/
def State.lockstepScreen (s : State) (n x : Nat) : State :=
  let r := s.scr n
  if !(s.running n && r.sextant == some x && !(s.liveRects n).isEmpty) then s
  else
    let p := s.portOf n
    let s := s.cmpEvent p (Reg.DPO_CMP_STATUS_LOCKSTEP p)
    let line := if r.blanking then 0 else s.get (Reg.SCREEN_STATUS_LINE n)
    if r.mismatch then (s.cmpEvent p (Reg.DPO_CMP_STATUS_UNLOCALISED p)).causeAll n 4 line
    else if r.strict then s.causeAll n 3 line
    else s.setScr n { s.scr n with mode := 2 }

/-- Bits of the screens that do not run: no frame of theirs is verified, and the next one is the ACTIVE sextant's (R186). -/
def State.stoppedMask (s : State) : Nat :=
  (allScreens.filter fun n => !s.running n).foldl (fun v n => setBitOf v n) 0

/-- R398: where an input's live condition held before an action and holds no more after it, it fell. -/
def State.fellSince (t s : State) (k : Nat) : State := if s.faultLive k && !t.faultLive k then t.liveFell k else t

/-- R182: a self-test of a sextant is over without a result of its own, where one ran. -/
def State.sxtTestOver (s : State) (x : Nat) : State :=
  if s.sxtBack.any (·.1 == x) then
    ({ s with sxtBack := s.sxtBack.filter (fun p => p.1 != x) }.set (Reg.SXT_SELFTEST_GO x) 0).set (Reg.SXT_SELFTEST_DONE x) 1
  else s

/-- R182, R183, R186, R187: a sextant is FAILED and verifies no screen that does not run; the reserve, where there is one, becomes
ACTIVE and takes those at once, the others at their next frame's fetch. A self-test of the reserve is abandoned (R182). -/
def State.sextantOut (s : State) (x : Nat) (was : Nat) : State :=
  let s := s.set (Reg.SXT_STATUS_STATE x) 2
  if was ≠ 0 then s
  else
    let y := 1 - x
    let other := s.get (Reg.SXT_STATUS_STATE y)
    let taken := other == 1 || (other == 3 && s.sxtBack.contains (y, 1))
    let m := s.stoppedMask
    let s := s.set (Reg.SXT_STATUS_SCREENS x) (s.get (Reg.SXT_STATUS_SCREENS x) &&& (255 - m))
    if taken then
      let s := s.sxtTestOver y
      let s := s.set (Reg.SXT_STATUS_SCREENS y) (s.get (Reg.SXT_STATUS_SCREENS y) ||| m)
      s.set (Reg.SXT_STATUS_STATE y) 0
    else s

/-- R187: NO_SEXTANT is raised when no sextant is ACTIVE or in reserve. -/
def State.noSextant (s : State) : State :=
  if s.faultLive 7 then s.raiseFault 7 else s

/-- R185, R186: a sextant fails in service: its screens take the lockstep row of R185, and the reserve takes over. -/
def State.sextantLost (s : State) (x : Nat) : State :=
  let was := s.get (Reg.SXT_STATUS_STATE x)
  let s := s.each allScreens fun n t => t.lockstepScreen n x
  let t := (s.sxtTestOver x).sextantOut x (if was = 3 && s.sxtBack.contains (x, 0) then 0 else was)
  (t.set (Reg.SXT_STATUS_SCREENS x) 0).fellSince s 7

/-- Whether a sextant verifies nothing any more: it is FAILED, and no screen waits for the reserve to take it from a worn one (R448). -/
def State.sextantIdle (s : State) (x : Nat) : Bool :=
  s.get (Reg.SXT_STATUS_STATE x) == 2
    && !(bitOf (s.get Reg.WEAR_WORN_MARK) (10 + x) && allScreens.any fun n => s.running n && (s.scr n).sextant == some x)

/-- R185, R186, R448: the engine pair of a sextant disagrees. -/
def State.lockstepFail (s : State) (x : Nat) : State :=
  let was := s.get (Reg.SXT_STATUS_STATE x)
  if s.sextantIdle x then s
  else
    let s0 := s
    let s := s.event (Reg.SXT_STATUS_LOCKSTEP_ERR x) (Reg.SXT_STATUS_EVENTS x) (41 + x)
    let s := (s.sextantLost x).raiseFault (72 + x)
    if was = 0 || was = 3 then s.noSextant.inOrder s0 else s

/-- R389: an uncorrectable error in a sextant's arrays has the action of SXT_LOCKSTEP. -/
def State.sextantArray (s : State) (x : Nat) : State :=
  let was := s.get (Reg.SXT_STATUS_STATE x)
  if s.sextantIdle x then s
  else
    let s := s.sextantLost x
    if was = 0 || was = 3 then s.noSextant else s

end Sys2Proof.Machine
end

