-- ==== Sys2Proof/Machine/Wear.lean ====
section
/-! DEFINITION. Ageing monitors and their marks, OTP repairs, power-on time and temperature (R447 to R454). -/

namespace Sys2Proof.Machine

/-! ### Marks (R447 to R449) -/

/-- R448: a pipe's state becomes WORN, its watches are void, and the running screen it serves needs a new one; whether it serves one. -/
def State.pipeWear (s : State) (p : Nat) : Bool × State :=
  let st := s.pipeState p
  let s := (if st = 2 then s.pipeUnwatch p else s).setPipeState p 4
  let s := s.setPipe p { s.pipe p with worn := true }
  match allScreens.find? (fun n => s.running n && s.pipeOf n == p) with
  | some n => if st = 0 then (true, s.needPipe n) else (false, s)
  | none => (false, s)

/-- R448: what a pipe does in the clock of its mark. -/
def State.pipeMarked (s : State) (p : Nat) : State :=
  if (s.pipeWear p).1 then (s.pipeWear p).2.raiseFault (52 + p) else (s.pipeWear p).2

/-- R448: what a sextant does: it reads FAILED and goes on verifying each screen until the reserve takes it. -/
def State.sextantMarked (s : State) (x : Nat) : State :=
  let was := s.get (Reg.SXT_STATUS_STATE x)
  if was = 2 then s
  else
    let active := was == 0 || (was == 3 && s.sxtBack.contains (x, 0))
    (((s.sxtTestOver x).sextantOut x (if active then 0 else was)).fellSince s 7).noSextant

/-- R447, R448: monitor k becomes WORN. A marked core keeps running; monitors 17 to 31 have no action. -/
def State.wornMark (s : State) (k : Nat) : State :=
  let m := s.get Reg.WEAR_WORN_MARK
  if bitOf m k then s
  else
    let s := s.set Reg.WEAR_WORN_MARK (setBitOf m k)
    let s := if k ≤ 9 then s.pipeMarked k else if k ≤ 11 then s.sextantMarked (k - 10) else s
    s.raiseIrq 121

/-- WEAR_0_WORN is written. -/
def State.wornWrite (s : State) (v : Word) : State :=
  let ks := (List.range 32).filter (bitOf v.toNat)
  let t := s.each ks fun k t => t.wornMark k
  if ks.length ≤ 1 then t else t.inOrder s

/-- WEAR_0_THRESH is written: WARN follows, live, whether each latest sample lies below WARN_THRESH; before the first second
no monitor has one (R447). -/
def State.wearThreshWrite (s : State) (v : Word) : State :=
  let s := s.plainWrite Reg.WEAR_THRESH v
  if s.get Reg.WEAR_POWER_ON_SEC = 0 then s
  else s.set Reg.WEAR_WARN_LIVE (((List.range 32).filter fun k =>
    decide (s.get (Reg.WEAR_MON_MARGIN k) < s.get Reg.WEAR_THRESH_WARN_THRESH)).map (2 ^ ·)).sum

/-- WORN_WRITE. -/
def execWornWrite (w : World) (v : Word) (s : State) : Host.Outcome State Fault Refusal :=
  .next (s.asWriter w 0x1D 0 false (·.wornWrite v))

/-! ### Samples (R447, R454) -/

/-- PERSIST as it is treated. -/
def State.wornPersist (s : State) : Nat := max 1 (s.get Reg.WEAR_CFG_PERSIST)

/-- R447: a monitor samples its margin. -/
def State.monSample (s : State) (k m : Nat) : State :=
  let s := s.set (Reg.WEAR_MON_MARGIN k) m
  let s := if m < s.get (Reg.WEAR_MON_LOWEST k) then s.set (Reg.WEAR_MON_LOWEST k) m else s
  let live := s.get Reg.WEAR_WARN_LIVE
  let s := s.set Reg.WEAR_WARN_LIVE (if m < s.get Reg.WEAR_THRESH_WARN_THRESH then setBitOf live k else clearBitOf live k)
  let n := if m < s.get Reg.WEAR_THRESH_WORN_THRESH then sget (fun _ => 0) s.wear.low k + 1 else 0
  let s := { s with wear := { s.wear with low := sput (fun _ => 0) s.wear.low k n } }
  if s.wornPersist ≤ n then s.wornMark k else s

/-- R454: the bin of a junction temperature in 1/16 °C. -/
def thermalBin (t : Int) : Nat := (clampInt 0 15 ((t + 640) / 160)).toNat

/-- R454: a second is added to the power-on count and to a bin; the first reading is the highest so far. -/
def State.thermalSecond (s : State) (t : BitVec 16) : State :=
  let first := s.get Reg.WEAR_POWER_ON_SEC == 0
  let s := (s.count Reg.WEAR_POWER_ON_SEC).count (Reg.WEAR_THERM_SEC (thermalBin t.toInt))
  let s := s.set Reg.WEAR_TEMP_LIVE t.toNat
  if first || decide (sext 16 (s.get Reg.WEAR_TEMP_MAX) < t.toInt) then s.set Reg.WEAR_TEMP_MAX t.toNat else s

/-- WEAR_SAMPLE: the margins of the 32 monitors and the junction temperature in 1/16 °C; a margin not given is that of the
latest sample. -/
def execWearSample (margins : List (BitVec 16)) (temp : BitVec 16) (s : State) : Host.Outcome State Fault Refusal :=
  .next (((s.each (List.range 32) fun k t =>
    t.monSample k ((margins[k]?).elim (t.get (Reg.WEAR_MON_MARGIN k)) BitVec.toNat)).inOrder s).thermalSecond temp)

/-! ### OTP repairs (R453) -/

/-- An event of WEAR_0_OTP_STATUS; it has no source. -/
def State.otpEvent (s : State) (flag : Fld) : State := (s.set flag 1).count Reg.WEAR_OTP_STATUS_EVENTS

/-- The soft repairs a macro holds: rows and columns. -/
def State.softRepairs (s : State) (m : Nat) : Nat × Nat :=
  if m < 212 then (s.get (Reg.WEAR_MACRO_SOFT_ROWS m), s.get (Reg.WEAR_MACRO_SOFT_COLS m)) else (0, 0)

/-- R453: whether the command to burn a macro is refused. -/
def State.otpRefuses (s : State) (m : Nat) : Bool :=
  let (r, c) := s.softRepairs m
  s.bit Reg.WEAR_OTP_STATUS_BUSY || s.brownout || decide (r + c = 0 ∨ 64 < s.wear.used + r + c)

/-- R453: OTP_CMD is written. MACRO takes its value whatever the burn that runs, which goes on with its own macro (R7). -/
def State.otpCmdWrite (s : State) (v : Word) : State :=
  let m := getBits v 0 8
  let t := s.plainWrite Reg.WEAR_OTP_CMD (withoutBit v 31)
  if !bitOf v.toNat 31 then t
  else if s.otpRefuses m then t.otpEvent Reg.WEAR_OTP_STATUS_REFUSED
  else ({ t with wear := { t.wear with cut := false, target := m } }.set Reg.WEAR_OTP_CMD_GO 1).set Reg.WEAR_OTP_STATUS_BUSY 1

/-- OTP_BURN. -/
def execOtpBurn (w : World) (v : Word) (s : State) : Host.Outcome State Fault Refusal :=
  .next (s.asWriter w 0x1D 0 false (·.otpCmdWrite (withBit v 31)))

/-- R453: a burn ends, rows before columns (DESIGN CHOICE, log entry 40). One that a warning interrupted has burnt n entries, at least
the one begun, and sets REFUSED; any other has burnt all the macro's soft repairs. -/
def State.otpDone (s : State) (n : Nat) : State :=
  if !s.bit Reg.WEAR_OTP_STATUS_BUSY then s
  else
    let m := s.wear.target
    let (r, c) := s.softRepairs m
    let n := if s.wear.cut then max 1 (min n (r + c)) else r + c
    let cut := s.wear.cut
    let old := sget (fun _ => ((0, 0) : Nat × Nat)) s.wear.burnt m
    let rows := min n r
    let s := { s with wear := { s.wear with used := s.wear.used + n,
                                            burnt := sput (fun _ => (0, 0)) s.wear.burnt m (old.1 + rows, old.2 + (n - rows)) } }
    let s := ((s.set Reg.WEAR_OTP_STATUS_USED s.wear.used).set Reg.WEAR_OTP_CMD_GO 0).set Reg.WEAR_OTP_STATUS_BUSY 0
    let s := s.otpEvent Reg.WEAR_OTP_STATUS_DONE
    if cut then s.otpEvent Reg.WEAR_OTP_STATUS_REFUSED else s

/-- OTP_BURN_DONE. -/
def execOtpBurnDone (n : Nat) (s : State) : Host.Outcome State Fault Refusal := .next (s.otpDone n)

end Sys2Proof.Machine
end

