-- ==== Sys2Proof/Machine/BootOps.lean ====
section
/-! DEFINITION. The flash command of BOOT_0, underway and failed starts, and what a device reset leaves (R373, R375 to R378,
R383, R384, R420, R457, R466). -/

namespace Sys2Proof.Machine

/-! ### The chart header (R360) -/

/-- FLASH_SIZE. -/
def State.flashSize (s : State) : Nat := s.hdr 56 4

/-- Flash offset of a slot: 0 A, 1 B, 2 golden. -/
def State.slotOff (s : State) (k : Nat) : Nat := s.hdr (24 + 8 * k) 4

/-- Length of a slot. -/
def State.slotLen (s : State) (k : Nat) : Nat := s.hdr (28 + 8 * k) 4

/-- Bytes of the black-box partition. -/
def bboxBytes : Nat := 0x800000

/-- Bytes of the baseline store. -/
def baseBytes : Nat := 0x400000

/-- Whether two ranges share a place. -/
def spansMeet (a la b lb : Nat) : Bool := decide (a < b + lb ∧ b < a + la)

/-- Whether a flash range meets a header copy. -/
def meetsHeader (a la : Nat) : Bool := spansMeet a la 0 80 || spansMeet a la 0x10000 80

/-! ### Flash commands in service (R384) -/

/-- The erase size of an OP code; 1 for a read or a program. -/
def eraseSize (op : Nat) : Nat := if op = 2 then 0x1000 else if op = 3 then 0x10000 else 1

/-- R384: whether a command is refused. An erase is aligned where its offset and its length are multiples of its size
(DEDUCED, log entry 42). -/
def State.flashRefused (s : State) (op addr len : Nat) : Bool :=
  decide (s.flashSize < addr + len)
    || (op != 0 && !s.bit Reg.BOOT_STATUS_ANCHOR && (meetsHeader addr len || spansMeet addr len (s.slotOff 2) (s.slotLen 2)))
    || (op != 0 && spansMeet addr len s.bbox.offset bboxBytes)
    || addr % eraseSize op != 0 || len % eraseSize op != 0

/-- A W1C event of FLASH_STATUS; BOOT_0 has no source. -/
def State.flashEvent (s : State) (flag : Fld) : State := (s.set flag 1).count Reg.BOOT_FLASH_STATUS_EVENTS

/-- R384: BOOT_0_FLASH_CMD is written; GO while a command is queued or running starts no second one (DEDUCED, log
entry 42). -/
def State.flashCmdWrite (s : State) (v : Word) : State :=
  let busy := s.bit Reg.BOOT_FLASH_STATUS_BUSY
  let s := s.plainWrite Reg.BOOT_FLASH_CMD v
  if busy || !bitOf v.toNat 31 then s
  else
    let op := s.get Reg.BOOT_FLASH_CMD_OP
    let addr := s.get Reg.BOOT_FLASH_ADDR_ADDR
    let len := s.get Reg.BOOT_FLASH_CMD_LEN + 1
    if s.flashRefused op addr len then (s.set Reg.BOOT_FLASH_CMD_GO 0).flashEvent Reg.BOOT_FLASH_STATUS_REFUSED
    else
      let s := { s with boot := { s.boot with op := op, addr := addr, len := len, buf := 256 * s.get Reg.BOOT_FLASH_BUF_BUF } }
      (s.set Reg.BOOT_FLASH_STATUS_BUSY 1).flashTurn

/-- A flash command word with its OP and GO. -/
def flashWord (v : Word) (op : Nat) : Word := withBit (setBits v 24 2 op) 31

/-- FLASH_READ. -/
def execFlashRead (w : World) (v : Word) (s : State) : Host.Outcome State Fault Refusal :=
  .next (s.asWriter w 0x1E 0 false (·.flashCmdWrite (flashWord v 0)))

/-- FLASH_PROGRAM. -/
def execFlashProgram (w : World) (v : Word) (s : State) : Host.Outcome State Fault Refusal :=
  .next (s.asWriter w 0x1E 0 false (·.flashCmdWrite (flashWord v 1)))

/-- FLASH_ERASE_4K. -/
def execFlashErase4k (w : World) (v : Word) (s : State) : Host.Outcome State Fault Refusal :=
  .next (s.asWriter w 0x1E 0 false (·.flashCmdWrite (flashWord v 2)))

/-- FLASH_ERASE_64K. -/
def execFlashErase64k (w : World) (v : Word) (s : State) : Host.Outcome State Fault Refusal :=
  .next (s.asWriter w 0x1E 0 false (·.flashCmdWrite (flashWord v 3)))

/-- So many free bytes (log entry 1). -/
def State.freeBytes (s : State) : Nat → List Byte × State
  | 0 => ([], s)
  | n + 1 =>
    let (v, t) := s.draw
    let (bs, u) := t.freeBytes n
    (BitVec.ofNat 8 v :: bs, u)

/-- Free bytes put into a range of flash. -/
def State.freeFlash (s : State) (off len : Nat) : State :=
  let (bs, t) := s.freeBytes len
  t.each bs.zipIdx fun p u => u.setFlashByte (off + p.2) p.1

/-- The requester port of the boot loader (R229). -/
def bootPort : Nat := 35

/-- The bytes a program takes from its buffer; free where the buffer cannot be read. -/
def State.flashSource (s : State) : List Byte × State :=
  match s.dmaRead .secure bootPort s.boot.buf s.boot.len with
  | (some bs, t) => (bs, t)
  | (none, t) => t.freeBytes t.boot.len

/-- The parts of a program or an erase between two polls of the status register: 256-byte pages, or erase blocks. -/
def flashParts (op addr len : Nat) : List (Nat × Nat) :=
  let size := if op = 1 then 256 else eraseSize op
  (List.range ((addr + (len - 1)) / size - addr / size + 1)).map fun i =>
    let lo := max addr ((addr / size + i) * size)
    (lo, min (addr + len) ((addr / size + i + 1) * size) - lo)

/-- R384: a read in the service mode, with the header's command. -/
def State.flashReadOp (s : State) (addr len : Nat) : FlashOp :=
  .serviceRead (s.hdr 8 1) (if s.boot.flashMode = .octal then s.hdr 9 1 else 0) addr (s.hdr 7 1) len

/-- R384: what is driven for one part of a program or an erase: write enable, the header's command of the OP, and the polls of the
status register. -/
def State.flashPartOps (s : State) (op addr : Nat) (bs : List Byte) (p : Nat × Nat) : List FlashOp :=
  [.service (s.hdr 14 1), .serviceWrite (s.hdr (9 + op) 1) p.1 (if op = 1 then (bs.drop (p.1 - addr)).take p.2 else []),
   .service (s.hdr 13 1)]

/-- The pins of one part driven. -/
def State.flashPartDrive (s : State) (op addr : Nat) (bs : List Byte) (p : Nat × Nat) : State :=
  s.each (s.flashPartOps op addr bs p) fun o t => t.flashDrive o

/-- One part of a program or an erase. -/
def State.flashPart (s : State) (op addr : Nat) (bs : List Byte) (p : Nat × Nat) : State :=
  let s := s.flashPartDrive op addr bs p
  if op = 1 then s.programFlash p.1 ((bs.drop (p.1 - addr)).take p.2) else s.eraseFlash p.1 p.2

/-- A command ends. -/
def State.flashEnd (s : State) : State :=
  let s := { s with boot := { s.boot with running := false } }
  let s := (s.set Reg.BOOT_FLASH_STATUS_BUSY 0).set Reg.BOOT_FLASH_CMD_GO 0
  (s.flashEvent Reg.BOOT_FLASH_STATUS_DONE).bboxAdvance

/-- Whether a flash command runs: one that waited begins once the black-box writer is not active. -/
def State.flashRuns (s : State) : Bool := s.bit Reg.BOOT_FLASH_STATUS_BUSY && (s.boot.running || !s.bboxActive)

/-- R384: the command's effect. -/
def State.flashDone (s : State) : State :=
  if !s.flashRuns || (s.boot.op == 1 && s.startWaits s.boot.buf s.boot.len) then s
  else if s.boot.op = 0 then
    ((s.flashDrive (s.flashReadOp s.boot.addr s.boot.len)).dmaWrite .secure bootPort s.boot.buf
      (s.flashBytes s.boot.addr s.boot.len)).flashEnd
  else
    let (bs, t) := if s.boot.op = 1 then s.flashSource else ([], s)
    (t.each (flashParts s.boot.op s.boot.addr s.boot.len) fun p u => u.flashPart s.boot.op s.boot.addr bs p).flashEnd

/-- FLASH_CMD_DONE. -/
def execFlashCmdDone (s : State) : Host.Outcome State Fault Refusal := .next s.flashDone

/-- R384: a page or an erase is still busy after 500 ms, after so many that ended: what it holds is free. -/
def State.flashTimeout (s : State) (n : Nat) : State :=
  if !s.flashRuns || s.boot.op = 0 then s
  else
    let parts := flashParts s.boot.op s.boot.addr s.boot.len
    let (bs, t) := if s.boot.op = 1 then s.flashSource else ([], s)
    let n := min n (parts.length - 1)
    let t := t.each (parts.take n) fun p u => u.flashPart s.boot.op s.boot.addr bs p
    let t := t.each ((parts.drop n).take 1) fun p u => (u.flashPartDrive s.boot.op s.boot.addr bs p).freeFlash p.1 p.2
    (t.flashEvent Reg.BOOT_FLASH_STATUS_TIMEOUT).flashEnd

/-- FLASH_TIMEOUT. -/
def execFlashTimeout (done : Nat) (s : State) : Host.Outcome State Fault Refusal := .next (s.flashTimeout done)

/-! ### Underway and failed starts (R375, R376, R383) -/

/-- R373: the ROM is in a stage, and STAGE shows it. -/
def State.setStage (s : State) (n : Nat) : State :=
  { s.set Reg.BOOT_STATUS_STAGE n with boot := { s.boot with romStage := n } }

/-- BOOT_0_TIMER: milliseconds since reset release; it stops at underway. -/
def State.bootMs (s : State) : Nat :=
  if s.bit Reg.BOOT_STATUS_UNDERWAY then s.get Reg.BOOT_TIMER_MS else min (s.clock / 1000000) (2 ^ 32 - 1)

/-- BOOT_0_CTRL is written. -/
def State.bootCtrlWrite (s : State) (v : Word) : State :=
  let anchor := s.bit Reg.BOOT_STATUS_ANCHOR
  let s :=
    if bitOf v.toNat 0 && !anchor && !s.bit Reg.BOOT_STATUS_UNDERWAY then
      let ms := s.bootMs
      let slot := s.get Reg.BOOT_STATUS_SLOT
      let seq := if slot = 0 then 0 else s.get (Reg.BOOT_SLOT_SEQ_SEQ (slot - 1))
      let s := (s.set Reg.BOOT_TIMER_MS ms).set Reg.BOOT_STATUS_UNDERWAY 1
      let s := (s.set Reg.BOOT_STATUS_STAGE 7).set Reg.BOOT_AON_COUNT 0
      s.logEvent 0x0006 0x1A 0 ms (256 * slot + s.get Reg.BOOT_STATUS_ATTEMPT) seq 0
    else s
  if bitOf v.toNat 1 && anchor then (s.set Reg.BOOT_AON_COUNT 0).logEvent 0x0007 0x1A 0 0 0 0 0 else s

/-- UNDERWAY. -/
def execUnderway (w : World) (v : Word) (s : State) : Host.Outcome State Fault Refusal :=
  .next (s.asWriter w 0x1E 0 false (·.bootCtrlWrite (withBit v 0)))

/-- ANCHOR_CLEAR. -/
def execAnchorClear (w : World) (v : Word) (s : State) : Host.Outcome State Fault Refusal :=
  .next (s.asWriter w 0x1E 0 false (·.bootCtrlWrite (withBit v 1)))

/-- R376: a start fails with a cause: 1 START_TIMEOUT, 2 SCRIPT. -/
def State.startFail (s : State) (cause : Nat) : State :=
  let s := (s.set Reg.BOOT_AON_LAST_CAUSE cause).setStage 0xF
  ({ s with boot := { s.boot with startFailed := true, script := [] } }).raiseFault 10

/-- R370: no chart: the ROM waits for reset. -/
def State.noChart (s : State) : State :=
  let s := s.setStage 0xF
  ({ s with boot := { s.boot with noChart := true, script := [] } }).raiseFault 9

/-- START_TIMEOUT: underway is not declared 20 s after reset release, outside anchor mode. -/
def execStartTimeout (s : State) : Host.Outcome State Fault Refusal :=
  .next (if s.bit Reg.BOOT_STATUS_UNDERWAY || s.bit Reg.BOOT_STATUS_ANCHOR || s.boot.startFailed then s else s.startFail 1)

/-! ### Resets (R376, R377, R420, R457, R466) -/

/-- What every device reset keeps: the queue, the flash, the macros fitted, the fuses and TCK's domain, the seconds of the
real-time clock, and the board's rails; every register and every other byte is as at reset. -/
def State.deviceFresh (s : State) : State :=
  { pending := s.pending, drawn := s.drawn, nextReq := s.nextReq, flash := s.flash,
    fittedA := s.fittedA, fittedB := s.fittedB, factory := s.factory,
    rtc := { s.rtc with setTo := none },
    wear := { burnt := s.wear.burnt, used := s.wear.used },
    railsOut := s.railsOut, jtag := { s.jtag with token := none, used := true, scan := 0 },
    boot := { wasAnchor := s.boot.wasAnchor, vaonOn := s.boot.vaonOn } }

/-- A device reset: everything but the always-on domain, the flash, what OTP holds and the drumbeat number, which only a
power-on reset clears (R25, log entry 16), is as reset leaves it, with the cause in BOOT_0_AON, where a VAON power-on that no start
has counted stays the cause (R466). In factory test mode all four
debug enables are open (R357). -/
def State.deviceReset (s : State) (cause : Nat) : State :=
  let t := (s.deviceFresh.when s.factory (·.dbgOpen 0xF))
  let t := (t.setReg Reg.BOOT_AON (s.reg Reg.BOOT_AON)).set Reg.BOOT_AON_RESET_CAUSE (if s.boot.vaonOn then 1 else cause)
  let t := (t.setReg Reg.DRUM_COUNT_LO (s.reg Reg.DRUM_COUNT_LO)).setReg Reg.DRUM_COUNT_HI (s.reg Reg.DRUM_COUNT_HI)
  (t.setReg Reg.RTC_TRIM (s.reg Reg.RTC_TRIM)).set Reg.RTC_STATUS_VALID (s.get Reg.RTC_STATUS_VALID)

/-- R25: a power-on reset clears the drumbeat number. -/
def State.drumClear (s : State) : State := (s.setReg Reg.DRUM_COUNT_LO 0).setReg Reg.DRUM_COUNT_HI 0

/-- START_RESET: 1 s after a failed start; RESET_N stays at its level. -/
def execStartReset (s : State) : Host.Outcome State Fault Refusal :=
  .next (if s.boot.startFailed then { s.deviceReset 4 with resetLow := s.resetLow } else s)

/-- RESET_N_ASSERT. -/
def execResetNAssert (s : State) : Host.Outcome State Fault Refusal := .next (s.deviceReset 3)

/-- VAON_POWER_ON: the always-on domain resets, and it alone; the start that follows counts as a VAON power-on (R420, R466). What else
a power-up resets, RESET_N and the start's facts say. -/
def execVaonPowerOn (s : State) : Host.Outcome State Fault Refusal :=
  let t := { s with rtc := { setTo := s.rtc.setTo }, boot := { s.boot with wasAnchor := false, vaonOn := true } }
  .next (((t.resetReg Reg.BOOT_AON).resetReg Reg.RTC_TRIM).set Reg.RTC_STATUS_VALID 0)

end Sys2Proof.Machine
end

