-- ==== Sys2Proof/Machine/Crypto.lean ====
section
/-! DEFINITION. The hash functions and signatures the boot ROM and the debug port check: SHA-256, SHA-384, and ECDSA over
P-256 and P-384 (R358, R363, R366, R367). The spec names them; their definitions are those of FIPS 180-4 and FIPS 186-4
(PRESUMED, log entry 41). -/

namespace Sys2Proof.Machine

/-! ### SHA-2 -/

/-- The round constants of SHA-256. -/
def sha256K : List Nat :=
  [0x428A2F98, 0x71374491, 0xB5C0FBCF, 0xE9B5DBA5, 0x3956C25B, 0x59F111F1, 0x923F82A4, 0xAB1C5ED5] ++
  [0xD807AA98, 0x12835B01, 0x243185BE, 0x550C7DC3, 0x72BE5D74, 0x80DEB1FE, 0x9BDC06A7, 0xC19BF174] ++
  [0xE49B69C1, 0xEFBE4786, 0xFC19DC6, 0x240CA1CC, 0x2DE92C6F, 0x4A7484AA, 0x5CB0A9DC, 0x76F988DA] ++
  [0x983E5152, 0xA831C66D, 0xB00327C8, 0xBF597FC7, 0xC6E00BF3, 0xD5A79147, 0x6CA6351, 0x14292967] ++
  [0x27B70A85, 0x2E1B2138, 0x4D2C6DFC, 0x53380D13, 0x650A7354, 0x766A0ABB, 0x81C2C92E, 0x92722C85] ++
  [0xA2BFE8A1, 0xA81A664B, 0xC24B8B70, 0xC76C51A3, 0xD192E819, 0xD6990624, 0xF40E3585, 0x106AA070] ++
  [0x19A4C116, 0x1E376C08, 0x2748774C, 0x34B0BCB5, 0x391C0CB3, 0x4ED8AA4A, 0x5B9CCA4F, 0x682E6FF3] ++
  [0x748F82EE, 0x78A5636F, 0x84C87814, 0x8CC70208, 0x90BEFFFA, 0xA4506CEB, 0xBEF9A3F7, 0xC67178F2]

/-- The round constants of SHA-384. -/
def sha512K : List Nat :=
  [0x428A2F98D728AE22, 0x7137449123EF65CD, 0xB5C0FBCFEC4D3B2F, 0xE9B5DBA58189DBBC] ++
  [0x3956C25BF348B538, 0x59F111F1B605D019, 0x923F82A4AF194F9B, 0xAB1C5ED5DA6D8118] ++
  [0xD807AA98A3030242, 0x12835B0145706FBE, 0x243185BE4EE4B28C, 0x550C7DC3D5FFB4E2] ++
  [0x72BE5D74F27B896F, 0x80DEB1FE3B1696B1, 0x9BDC06A725C71235, 0xC19BF174CF692694] ++
  [0xE49B69C19EF14AD2, 0xEFBE4786384F25E3, 0xFC19DC68B8CD5B5, 0x240CA1CC77AC9C65] ++
  [0x2DE92C6F592B0275, 0x4A7484AA6EA6E483, 0x5CB0A9DCBD41FBD4, 0x76F988DA831153B5] ++
  [0x983E5152EE66DFAB, 0xA831C66D2DB43210, 0xB00327C898FB213F, 0xBF597FC7BEEF0EE4] ++
  [0xC6E00BF33DA88FC2, 0xD5A79147930AA725, 0x6CA6351E003826F, 0x142929670A0E6E70] ++
  [0x27B70A8546D22FFC, 0x2E1B21385C26C926, 0x4D2C6DFC5AC42AED, 0x53380D139D95B3DF] ++
  [0x650A73548BAF63DE, 0x766A0ABB3C77B2A8, 0x81C2C92E47EDAEE6, 0x92722C851482353B] ++
  [0xA2BFE8A14CF10364, 0xA81A664BBC423001, 0xC24B8B70D0F89791, 0xC76C51A30654BE30] ++
  [0xD192E819D6EF5218, 0xD69906245565A910, 0xF40E35855771202A, 0x106AA07032BBD1B8] ++
  [0x19A4C116B8D2D0C8, 0x1E376C085141AB53, 0x2748774CDF8EEB99, 0x34B0BCB5E19B48A8] ++
  [0x391C0CB3C5C95A63, 0x4ED8AA4AE3418ACB, 0x5B9CCA4F7763E373, 0x682E6FF3D6B2B8A3] ++
  [0x748F82EE5DEFB2FC, 0x78A5636F43172F60, 0x84C87814A1F0AB72, 0x8CC702081A6439EC] ++
  [0x90BEFFFA23631E28, 0xA4506CEBDE82BDE9, 0xBEF9A3F7B2C67915, 0xC67178F2E372532B] ++
  [0xCA273ECEEA26619C, 0xD186B8C721C0C207, 0xEADA7DD6CDE0EB1E, 0xF57D4F7FEE6ED178] ++
  [0x6F067AA72176FBA, 0xA637DC5A2C898A6, 0x113F9804BEF90DAE, 0x1B710B35131C471B] ++
  [0x28DB77F523047D84, 0x32CAAB7B40C72493, 0x3C9EBE0A15C9BEBC, 0x431D67C49C100D4C] ++
  [0x4CC5D4BECB3E42B6, 0x597F299CFC657E2A, 0x5FCB6FAB3AD6FAEC, 0x6C44198C4A475817]

/-- The initial hash value of SHA-256. -/
def sha256H : List Nat :=
  [0x6A09E667, 0xBB67AE85, 0x3C6EF372, 0xA54FF53A, 0x510E527F, 0x9B05688C, 0x1F83D9AB, 0x5BE0CD19]

/-- The initial hash value of SHA-384. -/
def sha384H : List Nat :=
  [0xCBBB9D5DC1059ED8, 0x629A292A367CD507, 0x9159015A3070DD17, 0x152FECD8F70E5939] ++
  [0x67332667FFC00B31, 0x8EB44A8768581511, 0xDB0C2E0D64F98FA7, 0x47B5481DBEFA4FA4]

/-- One member of the SHA-2 family: word size in bits, the rounds' constants, and the amounts of its four sigma functions. -/
structure ShaKind where
  /-- word size -/
  bits : Nat
  /-- constants -/
  k : List Nat
  /-- large sigma 0: three rotations -/
  s0 : Nat × Nat × Nat
  /-- large sigma 1 -/
  s1 : Nat × Nat × Nat
  /-- small sigma 0: two rotations and a shift -/
  g0 : Nat × Nat × Nat
  /-- small sigma 1 -/
  g1 : Nat × Nat × Nat

/-- SHA-256's rounds. -/
def sha256Kind : ShaKind :=
  { bits := 32, k := sha256K, s0 := (2, 13, 22), s1 := (6, 11, 25), g0 := (7, 18, 3), g1 := (17, 19, 10) }

/-- SHA-384's rounds. -/
def sha512Kind : ShaKind :=
  { bits := 64, k := sha512K, s0 := (28, 34, 39), s1 := (14, 18, 41), g0 := (1, 8, 7), g1 := (19, 61, 6) }

/-- Rotation right. -/
def rotr (w n v : Nat) : Nat := (v >>> n ||| v <<< (w - n)) % 2 ^ w

/-- A large sigma function. -/
def ShaKind.big (h : ShaKind) (r : Nat × Nat × Nat) (v : Nat) : Nat :=
  rotr h.bits r.1 v ^^^ rotr h.bits r.2.1 v ^^^ rotr h.bits r.2.2 v

/-- A small sigma function. -/
def ShaKind.small (h : ShaKind) (r : Nat × Nat × Nat) (v : Nat) : Nat :=
  rotr h.bits r.1 v ^^^ rotr h.bits r.2.1 v ^^^ v >>> r.2.2

/-- The message schedule: each step puts the next word at the front of a list that holds the latest first. -/
def ShaKind.schedule (h : ShaKind) (block : List Nat) : List Nat :=
  ((List.range (h.k.length - 16)).foldl (fun (w : List Nat) _ =>
    ((h.small h.g1 (w.getD 1 0) + w.getD 6 0 + h.small h.g0 (w.getD 14 0) + w.getD 15 0) % 2 ^ h.bits) :: w)
    block.reverse).reverse

/-- The eight working variables. -/
structure ShaVars where
  /-- a -/
  a : Nat
  /-- b -/
  b : Nat
  /-- c -/
  c : Nat
  /-- d -/
  d : Nat
  /-- e -/
  e : Nat
  /-- f -/
  f : Nat
  /-- g -/
  g : Nat
  /-- h -/
  h : Nat

/-- One round. -/
def ShaKind.round (h : ShaKind) (v : ShaVars) (kw : Nat × Nat) : ShaVars :=
  let m := 2 ^ h.bits
  let ch := (v.e &&& v.f) ^^^ ((m - 1 - v.e) &&& v.g)
  let t1 := v.h + h.big h.s1 v.e + ch + kw.1 + kw.2
  let maj := (v.a &&& v.b) ^^^ (v.a &&& v.c) ^^^ (v.b &&& v.c)
  { a := (t1 + h.big h.s0 v.a + maj) % m, b := v.a, c := v.b, d := v.c, e := (v.d + t1) % m, f := v.e, g := v.f, h := v.g }

/-- One block. -/
def ShaKind.block (h : ShaKind) (x : List Nat) (block : List Nat) : List Nat :=
  let v := (h.k.zip (h.schedule block)).foldl h.round
    { a := x.getD 0 0, b := x.getD 1 0, c := x.getD 2 0, d := x.getD 3 0, e := x.getD 4 0, f := x.getD 5 0, g := x.getD 6 0,
      h := x.getD 7 0 }
  (x.zip [v.a, v.b, v.c, v.d, v.e, v.f, v.g, v.h]).map fun p => (p.1 + p.2) % 2 ^ h.bits

/-- The message padded to whole blocks. -/
def ShaKind.pad (h : ShaKind) (bs : List Byte) : List Byte :=
  let blk := h.bits * 2
  let zeros := (blk - (bs.length + 1 + h.bits / 4) % blk) % blk
  bs ++ [0x80] ++ List.replicate zeros 0 ++ beBytes (h.bits / 4) (bs.length * 8)

/-- The blocks of a padded message, one after another, each as sixteen words. -/
def ShaKind.run (h : ShaKind) (init : List Nat) (bs : List Byte) : List Nat :=
  let wb := h.bits / 8
  let p := h.pad bs
  ((List.range (p.length / (16 * wb))).foldl (fun (x : List Nat × List Byte) _ =>
    (h.block x.1 ((List.range 16).map fun j => beNat ((x.2.drop (j * wb)).take wb)), x.2.drop (16 * wb))) (init, p)).1

/-- SHA-256. -/
def sha256 (bs : List Byte) : List Byte := (sha256Kind.run sha256H bs).flatMap (beBytes 4)

/-- SHA-384. -/
def sha384 (bs : List Byte) : List Byte := ((sha512Kind.run sha384H bs).take 6).flatMap (beBytes 8)

/-! ### ECDSA -/

/-- A curve y² = x³ − 3x + b over a prime field, with its base point and the order of that point. -/
structure Curve where
  /-- prime -/
  p : Nat
  /-- coefficient b -/
  b : Nat
  /-- base point -/
  g : Nat × Nat
  /-- order -/
  n : Nat
  /-- bits of the order -/
  bits : Nat

/-- P-256. -/
def p256 : Curve :=
  { p := 0xffffffff00000001000000000000000000000000ffffffffffffffffffffffff,
    b := 0x5ac635d8aa3a93e7b3ebbd55769886bc651d06b0cc53b0f63bce3c3e27d2604b,
    g := (0x6b17d1f2e12c4247f8bce6e563a440f277037d812deb33a0f4a13945d898c296,
      0x4fe342e2fe1a7f9b8ee7eb4a7c0f9e162bce33576b315ececbb6406837bf51f5),
    n := 0xffffffff00000000ffffffffffffffffbce6faada7179e84f3b9cac2fc632551, bits := 256 }

/-- P-384. -/
def p384 : Curve :=
  { p := 0xfffffffffffffffffffffffffffffffffffffffffffffffffffffffffffffffeffffffff0000000000000000ffffffff,
    b := 0xb3312fa7e23ee7e4988e056be3f82d19181d9c6efe8141120314088f5013875ac656398d8a2ed19d2a85c8edd3ec2aef,
    g := (0xaa87ca22be8b05378eb1c71ef320ad746e1d3b628ba79b9859f741e082542a385502f25dbf55296c3a545e3872760ab7,
      0x3617de4a96262c6f5d9e98bf9292dc29f8f41dbd289a147ce9da3113b5f0b8c00a60b1ce1d7e819d7a431d7c90ea0e5f),
    n := 0xffffffffffffffffffffffffffffffffffffffffffffffffc7634d81f4372ddf581a0db248b0a77aecec196accc52973,
    bits := 384 }

/-- x^e modulo m. -/
def powMod (m x e bits : Nat) : Nat :=
  (List.range bits).foldr (fun i a => let a := a * a % m; if bitOf e i then a * x % m else a) (1 % m)

/-- The inverse modulo a prime. -/
def invMod (m x bits : Nat) : Nat := powMod m x (m - 2) bits

/-- Subtraction modulo m. -/
def subMod (m a b : Nat) : Nat := (a + (m - b % m)) % m

/-- A point; none is the point at infinity. -/
abbrev Point := Option (Nat × Nat)

/-- The third point of a line with slope l. -/
def Curve.chord (c : Curve) (l : Nat) (a b : Nat × Nat) : Nat × Nat :=
  let x := subMod c.p (l * l) (a.1 + b.1)
  (x, subMod c.p (l * subMod c.p a.1 x) a.2)

/-- The sum of two points. -/
def Curve.add (c : Curve) : Point → Point → Point
  | none, q => q
  | q, none => q
  | some a, some b =>
    if a.1 = b.1 then
      if (a.2 + b.2) % c.p = 0 then none
      else some (c.chord ((3 * subMod c.p (a.1 * a.1) 1) * invMod c.p (2 * a.2) c.bits % c.p) a b)
    else some (c.chord (subMod c.p b.2 a.2 * invMod c.p (subMod c.p b.1 a.1) c.bits % c.p) a b)

/-- A multiple of a point. -/
def Curve.mul (c : Curve) (k : Nat) (q : Point) : Point :=
  (List.range c.bits).foldr (fun i a => let a := c.add a a; if bitOf k i then c.add a q else a) none

/-- Whether a public key is a point of the curve. -/
def Curve.valid (c : Curve) (q : Nat × Nat) : Bool :=
  decide (q.1 < c.p ∧ q.2 < c.p) && q.2 * q.2 % c.p == (q.1 * q.1 * q.1 + subMod c.p c.b (3 * q.1)) % c.p

/-- Whether (r, s) is a signature of a hash under a key. -/
def Curve.verify (c : Curve) (q : Nat × Nat) (hash r s : Nat) : Bool :=
  if !(decide (1 ≤ r ∧ r < c.n ∧ 1 ≤ s ∧ s < c.n) && c.valid q) then false
  else
    let w := invMod c.n s c.bits
    match c.add (c.mul (hash * w % c.n) (some c.g)) (c.mul (r * w % c.n) (some q)) with
    | none => false
    | some x => x.1 % c.n == r

end Sys2Proof.Machine
end

