-- ==== Sys2Proof/Machine/Chart.lean ====
section
/-! DEFINITION. What the boot ROM reads from the flash: the chart header, the black-box journal, and the slots with their
sections and scripts (R360 to R371, R379, R434 to R437, R445, R455, R456). -/

namespace Sys2Proof.Machine

/-- A read of flash by the ROM; none where it gets no data within 1 µs (R367). -/
def State.flashRead (s : State) (off len : Nat) : Option (List Byte) :=
  if s.boot.dead.any (fun d => decide (off ≤ d ∧ d < off + len)) then none else some (s.flashBytes off len)

/-- Whether `n` bytes of a list from `i` up are 0. -/
def zeroAt (bs : List Byte) (i n : Nat) : Bool := ((bs.drop i).take n).all (· == 0)

/-! ### The header (R360, R361) -/

/-- Whether no two of the ranges share a place. -/
def disjoint : List (Nat × Nat) → Bool
  | [] => true
  | p :: ps => ps.all (fun q => !spansMeet p.1 p.2 q.1 q.2) && disjoint ps

/-- The partitions a header names: the slots, the black box and the baseline store. -/
def headerParts (h : List Byte) : List (Nat × Nat) :=
  [(leAt h 24 4, leAt h 28 4), (leAt h 32 4, leAt h 36 4), (leAt h 40 4, leAt h 44 4), (leAt h 48 4, bboxBytes),
   (leAt h 52 4, baseBytes)]

/-- R361: whether the header copy at a flash offset is valid. -/
def headerValid (off : Nat) (h : List Byte) : Bool :=
  let mode := byteAt h 5
  let clk := byteAt h 6
  let parts := headerParts h
  h.take 5 == [0x47, 0x44, 0x43, 0x48, 0x01]
    && crc32c (leBytes 8 off ++ leBytes 8 0 ++ h.take 76) == leAt h 76 4
    && ((mode == 1 && 1 ≤ clk && clk ≤ 4) || (mode == 2 && 1 ≤ clk && clk ≤ 8))
    && zeroAt h 21 3 && zeroAt h 64 12
    && parts.all (fun p => p.1 % 0x10000 == 0 && decide (p.1 + p.2 ≤ leAt h 56 4) && !meetsHeader p.1 p.2)
    && disjoint parts && (parts.take 3).all (fun p => 0x10000 ≤ p.2)

/-- The header copy at a flash offset, where it is valid. -/
def State.headerAt (s : State) (off : Nat) : Option (List Byte) :=
  match s.flashRead off 80 with
  | some h => if headerValid off h then some h else none
  | none => none

/-- R359: XSPI_RST_N is low for 10 µs and the ROM then waits 100 µs; the flash is in 1S-1S-1S mode. -/
def State.flashReset (s : State) : State :=
  ({ s with boot := { s.boot with flashMode := .single, flashClk := 1 } }).flashDrive (.reset 10 100)

/-- R359, R361: the header in use names the service mode: WREN_CMD and ENTER_CMD are sent where ENTER_CMD is not 0x00, and the
flash is driven in that mode from then on. -/
def State.flashService (s : State) : State :=
  let enter := s.hdr 15 1
  let s := if enter = 0 then s
    else (s.flashDrive (.command (s.hdr 14 1))).flashDrive (.register enter (s.hdr 16 4) (s.hdr 20 1))
  { s with boot := { s.boot with flashMode := if s.hdr 5 1 = 2 then .octal else .quad, flashClk := s.hdr 6 1 } }

/-- A header copy is in use: it locates the black box, and the flash goes to its service mode. -/
def State.useHeader (s : State) (bs : List Byte) : State :=
  ({ s with boot := { s.boot with header := bs }, bbox := { s.bbox with offset := leAt bs 48 4, known := true } }).flashService

/-- R359, R361: the flash is reset and the ROM reads the header in 1S-1S-1S mode with command 0x13, and chooses: copy 0, or
copy 1 where copy 0 is not valid. -/
def State.chooseHeader (s : State) : State :=
  let s := s.flashReset.flashDrive (.read 0x13 0 80)
  match s.headerAt 0 with
  | some h => s.useHeader h
  | none =>
    let s := s.flashDrive (.read 0x13 0x10000 80)
    match s.headerAt 0x10000 with
    | some h => (s.useHeader h).set Reg.BOOT_STATUS_HEADER1 1
    | none => s

/-! ### The journal (R434 to R437) -/

/-- PAGE_SEQ of a page whose header is valid (R436). -/
def State.pageSeq (s : State) (page : Nat) : Option Nat :=
  let at_ := s.bboxSlotAt page 0
  let h := s.flashBytes at_ 64
  let seq := leAt h 8 4
  if h.take 5 == [0x47, 0x44, 0x42, 0x42, 0x01] && bboxCrc at_ seq (h.take 60) == leAt h 60 4 then some seq else none

/-- The record in a slot of a page with a PAGE_SEQ, where it is valid (R436): its KIND and its payload. -/
def State.slotRecord (s : State) (page seq slot : Nat) : Option (Nat × List Byte) :=
  let at_ := s.bboxSlotAt page slot
  if s.flashErased at_ 64 then none
  else
    let r := s.flashBytes at_ 64
    if bboxCrc at_ seq (r.take 60) == leAt r 60 4 && leAt r 4 4 == seq && leAt r 2 2 == slot then
      some (leAt r 0 2, (r.drop 24).take 32)
    else none

/-- A page put among pages in order of PAGE_SEQ (R10). -/
def insertPage (x : Nat × Nat) : List (Nat × Nat) → List (Nat × Nat)
  | [] => [x]
  | y :: ys => if frameLater y.2 x.2 then x :: y :: ys else y :: insertPage x ys

/-- The pages with a valid header and their PAGE_SEQ, the latest last. -/
def State.pages (s : State) : List (Nat × Nat) :=
  ((List.range 128).filterMap fun p => (s.pageSeq p).map fun q => (p, q)).foldl (fun l x => insertPage x l) []

/-- The valid records in journal order (R436). -/
def State.journal (s : State) : List (Nat × List Byte) :=
  s.pages.flatMap fun p => (List.range 1023).filterMap fun i => s.slotRecord p.1 p.2 (i + 1)

/-- R379: COUNT as the journal gives it. -/
def journalCount (j : List (Nat × List Byte)) : Nat :=
  let r := j.foldl (fun (c : Nat × Bool) r =>
    if r.1 = 1 then (byteAt r.2 0, false)
    else if r.1 = 2 ∨ r.1 = 3 then (0, false)
    else if r.1 = 4 then (c.1, true)
    else c) (0, false)
  if r.2 then r.1 - 1 else r.1

/-- R456: the WORN mask of the latest complete ledger set. -/
def ledgerWorn (j : List (Nat × List Byte)) : Option Nat :=
  let led := j.filter fun r => r.1 == 0x20
  let has := fun set part => led.any fun r => byteAt r.2 0 == part && byteAt r.2 1 == set
  (led.reverse.find? fun r => byteAt r.2 0 == 0 && has (byteAt r.2 1) 1 && has (byteAt r.2 1) 2).map fun r => leAt r.2 8 4

/-- Side, channel, bank and row of a PPR_REQUEST or a PPR_RESULT (R443). -/
def pprKey (p : List Byte) : Nat × Nat × Nat × Nat := (byteAt p 0, byteAt p 1, byteAt p 2, leAt p 4 4)

/-- R445: the requests with no later result, in journal order. -/
def pprPending : List (Nat × List Byte) → List (Nat × Nat × Nat × Nat)
  | [] => []
  | r :: rs =>
    if r.1 == 0x10 && !(rs.any fun q => q.1 == 0x11 && pprKey q.2 == pprKey r.2) then pprKey r.2 :: pprPending rs
    else pprPending rs

/-- The leading 4 KB sectors of a page that are erased. -/
def State.erasedSectors (s : State) (page : Nat) : Nat :=
  ((List.range 16).takeWhile fun i => s.flashErased (s.bboxSlotAt page 0 + 4096 * i) 4096).length

/-- R434: the black box goes on in a page, from a slot. -/
def State.bboxReady (s : State) (page slot seq : Nat) : State :=
  let t := ((s.set Reg.BBOX_HEAD_PAGE page).set Reg.BBOX_HEAD_SLOT slot).set Reg.BBOX_PAGE_SEQ_SEQ seq
  { t with bbox := { t.bbox with full := decide (1024 ≤ slot), erased := t.erasedSectors ((page + 1) % 128) } }.set
    Reg.BBOX_STATUS_READY 1

/-- R437: the writer's first use after reset: it locates the head, or starts the journal where no header is valid. -/
def State.bboxLocate (s : State) : State :=
  match s.pages.getLast? with
  | some (page, seq) =>
    let used := (List.range 1024).filter fun i => !s.flashErased (s.bboxSlotAt page i) 64
    s.bboxReady page (used.getLast?.getD 0 + 1) seq
  | none =>
    let at_ := s.bboxSlotAt 0 0
    ((s.eraseFlash at_ bboxPageBytes).programFlash at_ (bboxHeader at_ 1)).bboxReady 0 1 1

/-! ### Sections and scripts (R362 to R366, R371) -/

/-- The descriptor's SECTIONS and SLOT_SEQ, where step 1 of R367 passes. -/
def descOk (k : Nat) (d : List Byte) : Bool :=
  let n := leAt d 6 2
  d.take 5 == [0x47, 0x44, 0x53, 0x4C, 0x01] && byteAt d 5 == k + 1 && 1 ≤ n && n ≤ 64 && zeroAt d 12 52

/-- TYPE of a section entry. -/
def secType (e : List Byte) : Nat := byteAt e 0
/-- STAGE of a section entry. -/
def secStage (e : List Byte) : Nat := byteAt e 1 % 2
/-- OFFSET of a section entry. -/
def secOffset (e : List Byte) : Nat := leAt e 4 4
/-- LOAD of a section entry. -/
def secLoad (e : List Byte) : Nat := leAt e 8 5
/-- LENGTH of a section entry. -/
def secLength (e : List Byte) : Nat := leAt e 16 4
/-- DIGEST of a section entry. -/
def secDigest (e : List Byte) : List Byte := (e.drop 32).take 48

/-- Whether a range lies wholly in management SRAM. -/
def inSram (a len : Nat) : Bool := match region a with | .sram off => decide (off + len ≤ 0x400000) | _ => false

/-- Whether a range lies wholly in the range of a side or of the mirrored view. -/
def inMemory (a len : Nat) : Bool :=
  match region a with
  | .side _ off | .mirror off => decide (off + len ≤ 2 ^ 34)
  | _ => false

/-- R365: whether an entry's LOAD and LENGTH suit its TYPE. -/
def loadOk (e : List Byte) : Bool :=
  let a := secLoad e
  let len := secLength e
  match secType e with
  | 1 => inSram a len
  | 2 | 4 => inSram a len || inMemory a len
  | 3 => a == 0
  | 5 => a == 0 && len == 32768
  | _ => false

/-- Whether a section has a place in memory. -/
def secPlaced (e : List Byte) : Bool := secType e == 1 || secType e == 2 || secType e == 4

/-- R363, R365: whether an entry holds by itself, in a slot of a length whose payloads begin at `first`. -/
def entryOk (slotLen seq first : Nat) (e : List Byte) : Bool :=
  let off := secOffset e
  let len := secLength e
  (byteAt e 1 == 0 || (byteAt e 1 == 1 && secType e == 3)) && zeroAt e 2 2 && off % 256 == 0
    && decide (first ≤ off ∧ off + len ≤ slotLen) && zeroAt e 13 3 && 1 ≤ len && len ≤ 16777216 && leAt e 20 4 == seq
    && zeroAt e 28 4 && loadOk e

/-- R365: whether two entries of a slot exclude each other: they overlap, or are two of a type that stands once. -/
def entriesClash (e f : List Byte) : Bool :=
  spansMeet (secOffset e) (secLength e) (secOffset f) (secLength f)
    || (secPlaced e && secPlaced f && spansMeet (secLoad e) (secLength e) (secLoad f) (secLength f))
    || (secType e == secType f && (secType e == 1 || secType e == 2))

/-- The command at a place of a script payload. -/
def scriptCmd (bs : List Byte) (i : Nat) : ScriptCmd :=
  let w := leAt bs (16 * i) 4
  { op := w / 2 ^ 24, param := w % 2 ^ 24, a := BitVec.ofNat 32 (leAt bs (16 * i + 4) 4),
    b := BitVec.ofNat 32 (leAt bs (16 * i + 8) 4), c := BitVec.ofNat 32 (leAt bs (16 * i + 12) 4) }

/-- R371: whether a command's OP is one of the table and its words marked 0 are 0. -/
def cmdOk (c : ScriptCmd) : Bool :=
  match c.op with
  | 1 => c.c == 0
  | 2 | 3 => true
  | 4 => c.a == 0 && c.b == 0 && c.c == 0
  | 5 => c.param == 0 && c.a == 0 && c.b == 0 && c.c == 0
  | _ => false

/-- The commands of a script payload. -/
def scriptCmds (bs : List Byte) : List ScriptCmd := (List.range (bs.length / 16)).map (scriptCmd bs)

/-- R371: whether a payload is a series of commands that ends with END and holds no other END. -/
def scriptOk (bs : List Byte) : Bool :=
  let cs := scriptCmds bs
  bs.length % 16 == 0 && cs.all cmdOk && (cs.getLast?.map (·.op)) == some 5 && cs.dropLast.all (fun c => c.op != 5)

/-! ### Verification of a slot (R367, R368) -/

/-- Why a slot failed: the reason's code, the section's index, and how many sections had been loaded. -/
structure SlotFault where
  /-- REASON -/
  reason : Nat
  /-- SECTION -/
  section_ : Nat := 0
  /-- sections read in steps 4 and 5 -/
  loaded : Nat := 0
deriving DecidableEq, Repr

/-- The descriptor of a slot, where it can be read. -/
def State.slotDesc (s : State) (k : Nat) : Option (List Byte) := s.flashRead (s.slotOff k) 64

/-- SECTIONS as the descriptor in flash has it. -/
def State.slotSections (s : State) (k : Nat) : Nat := leAt (s.flashBytes (s.slotOff k) 64) 6 2

/-- Section entry i of a slot. -/
def State.slotEntry (s : State) (k i : Nat) : List Byte := s.flashBytes (s.slotOff k + 64 + 80 * i) 80

/-- The section entries of a slot, in table order. -/
def State.slotTable (s : State) (k : Nat) : List (List Byte) := (List.range (s.slotSections k)).map (s.slotEntry k)

/-- The payload of a section. -/
def State.payload (s : State) (k : Nat) (e : List Byte) : Option (List Byte) :=
  s.flashRead (s.slotOff k + secOffset e) (secLength e)

/-- R364: the check value of a payload in entry i of slot k. -/
def sectionCrc (k i : Nat) (e bs : List Byte) : Nat :=
  crc32c (leBytes 8 (secLoad e) ++ (e.drop 20).take 4 ++ [BitVec.ofNat 8 (k + 1), BitVec.ofNat 8 i, 0, 0] ++ bs)

/-- Step 2, LAYOUT, over the entries from i up; `before` holds those ahead of them. -/
def State.layoutFault (s : State) (k seq first : Nat) : Nat → List (List Byte) → List (List Byte) → Option SlotFault
  | _, before, [] => if before.any (fun e => secType e == 1) then none else some { reason := 2 }
  | i, before, e :: es =>
    if !entryOk (s.slotLen k) seq first e || before.any (entriesClash e) then some { reason := 2, section_ := i }
    else if secType e = 3 then
      match s.payload k e with
      | none => some { reason := 7 }
      | some bs => if scriptOk bs then s.layoutFault k seq first (i + 1) (before ++ [e]) es
        else some { reason := 2, section_ := i }
    else s.layoutFault k seq first (i + 1) (before ++ [e]) es

/-- Step 4, CRC. -/
def State.crcFault (s : State) (k : Nat) : Nat → List (List Byte) → Option SlotFault
  | _, [] => none
  | i, e :: es =>
    match s.payload k e with
    | none => some { reason := 7, loaded := i + 1 }
    | some bs => if sectionCrc k i e bs == leAt e 24 4 then s.crcFault k (i + 1) es
      else some { reason := 3, section_ := i, loaded := i + 1 }

/-- Step 5, DIGEST; `n` sections were read. -/
def State.digestFault (s : State) (k n : Nat) : Nat → List (List Byte) → Option SlotFault
  | _, [] => none
  | i, e :: es =>
    if sha384 ((s.payload k e).getD []) == secDigest e then s.digestFault k n (i + 1) es
    else some { reason := 4, section_ := i, loaded := n }

/-- R366: whether a KEY, 96 bytes, is the one whose hash OTP holds. -/
def keyOk (key : List Byte) : Bool := beNat (sha384 key) == Config.slotKeyHash.toNat

/-- Step 6, SIGNATURE: whether the signature block verifies over the descriptor and the table. -/
def signatureOk (signed block : List Byte) : Bool :=
  let n := fun i => beNat ((block.drop i).take 48)
  p384.verify (n 0, n 48) (beNat (sha384 signed)) (n 96) (n 144)

/-- R367: the first step that fails for a slot. -/
def State.slotFault (s : State) (k : Nat) : Option SlotFault :=
  match s.slotDesc k with
  | none => some { reason := 7 }
  | some d =>
    if !descOk k d then some { reason := 1 }
    else
      let n := leAt d 6 2
      let first := 64 + 80 * n
      match s.flashRead (s.slotOff k) first with
      | none => some { reason := 7 }
      | some signed =>
        let table := s.slotTable k
        match s.layoutFault k (leAt d 8 4) (first + 192) 0 [] table with
        | some f => some f
        | none =>
          match s.flashRead (s.slotOff k + first) 192 with
          | none => some { reason := 7 }
          | some block =>
            if !keyOk (block.take 96) then some { reason := 5 }
            else
              match s.crcFault k 0 table with
              | some f => some f
              | none =>
                match s.digestFault k n 0 table with
                | some f => some f
                | none => if signatureOk signed block then none else some { reason := 6, loaded := n }

/-- The commands of a slot's scripts of one stage, in table order (R372). -/
def State.slotScript (s : State) (k stage : Nat) : List ScriptCmd :=
  ((s.slotTable k).filter fun e => secType e == 3 && secStage e == stage).flatMap fun e =>
    scriptCmds ((s.payload k e).getD [])

end Sys2Proof.Machine
end

