-- ==== Sys2Proof/Machine/AudioMath.lean ====
section
/-! DEFINITION. The arithmetic of the audio unit: gains (R313), biquads (R317) and the
bell's tones (R323). -/

namespace Sys2Proof.Machine

/-- A 24-bit sample held within its range. -/
def clamp24 (v : Int) : Int := clampInt (-8388608) 8388607 v

/-- The code of a node as the unit takes it: none for mute (R313). -/
def gainCode (code : Nat) : Option Int :=
  let c := sext 16 code
  if c < -1536 then none else some (min c 192)

/-- 10^(1/320) in 192-bit fixed point. -/
def gainStep : Nat := 0x101d9452600bfaacffd3492a12c2f5e8df53e88d9d87fc2ab

/-- A power of `gainStep`, by squaring. -/
def gainPow : Nat → Nat → Nat → Nat
  | 0, _, _ => 2 ^ 192
  | fuel + 1, base, e =>
    let r := gainPow fuel (base * base / 2 ^ 192) (e / 2)
    if e % 2 = 1 then r * base / 2 ^ 192 else r

/-- R313: L(c) = round(2²⁴ × 10^(c / 320)). -/
def gainOf (c : Int) : Nat :=
  let e := (c + 1600).toNat
  let p := gainPow 9 gainStep (e % 320) * 10 ^ (e / 320)
  (2 * (p * 2 ^ 24) + 2 ^ 192 * 10 ^ 5) / (2 * (2 ^ 192 * 10 ^ 5))

/-- The linear gain of a code; 0 for mute. -/
def gainLinear : Option Int → Nat
  | none => 0
  | some c => gainOf c

/-- R325: the code of a ducked node; a DEPTH above 1,536 mutes it. -/
def duckCode (depth : Nat) : Option Int → Option Int
  | none => none
  | some c => if c - depth < -1536 ∨ 1536 < depth then none else some (c - depth)

/-- A code as NODE registers spell it. -/
def codeWord : Option Int → Nat
  | none => 0x8000
  | some c => toBits 16 c

/-- A product with a gain, rounded and held within 24 bits (R320, R323). -/
def scaleSample (x : Int) (l : Nat) : Int := clamp24 (asr (x * l + 2 ^ 23) 24)

/-- R317: one sample through a biquad with coefficients b0, b1, b2, a1, a2. -/
def Biquad.run (f : Biquad) (c : Nat → Int) (v : Int) : Int × Biquad :=
  let w := clampInt (-(2 ^ 31)) (2 ^ 31 - 1)
    (asr (c 0 * v + c 1 * f.v1 + c 2 * f.v2 - c 3 * f.w1 - c 4 * f.w2 + 2 ^ 27) 28)
  (w, { v1 := v, v2 := f.v1, w1 := w, w2 := f.w1 })

/-- R317: a sample through a chain of biquads, each with its coefficients. -/
def chainRun (x : Int) (l : List (Biquad × (Nat → Int))) : Int × List Biquad :=
  let r := l.foldl (fun (p : Int × List Biquad) b => let (w, f) := b.1.run b.2 p.1; (w, p.2 ++ [f])) (256 * x, [])
  (clamp24 (asr (r.1 + 128) 8), r.2)

/-- R323: T[i] of the bell. -/
def bellTable (i : Nat) : Int := sineRound 8388607 i 1024

/-- R323: Δ of a frequency, held within 100 to 8,000 Hz. -/
def bellStep (f : Nat) : Nat := (2 * clampNat 100 8000 f * 2 ^ 32 + 48000) / 96000

end Sys2Proof.Machine
end

