-- ==== Sys2Proof/Machine/AudioOps.lean ====
section
/-! DEFINITION. The crosspoint: its inputs, the bell voices, node gains, the mix, the equalisers and the staging of a
block (R306 to R328). -/

namespace Sys2Proof.Machine

/-- A node's state. -/
def State.node (s : State) (o i : Nat) : NodeState := sget (fun _ => {}) s.aud.nodes (64 * o + i)
/-- A node's state set. -/
def State.setNode (s : State) (o i : Nat) (v : NodeState) : State :=
  { s with aud := { s.aud with nodes := sput (fun _ => {}) s.aud.nodes (64 * o + i) v } }
/-- A TDM port's state. -/
def State.tdm (s : State) (n : Nat) : TdmState := sget (fun _ => {}) s.aud.tdm n
/-- A TDM port's state set. -/
def State.setTdm (s : State) (n : Nat) (v : TdmState) : State :=
  { s with aud := { s.aud with tdm := sput (fun _ => {}) s.aud.tdm n v } }
/-- A voice's state. -/
def State.voice (s : State) (v : Nat) : Voice := sget (fun _ => {}) s.aud.voices v
/-- A voice's state set. -/
def State.setVoice (s : State) (v : Nat) (x : Voice) : State :=
  { s with aud := { s.aud with voices := sput (fun _ => {}) s.aud.voices v x } }

/-- An event of AUD_0_STATUS: source 96. -/
def State.audEvent (s : State) (flag : Fld) : State := s.event flag Reg.AUD_STATUS_EVENTS 96
/-- An event of TDM_n_STATUS: source 97 + n. -/
def State.tdmEvent (s : State) (n : Nat) (flag : Fld) : State := s.event flag (Reg.TDM_STATUS_EVENTS n) (97 + n)
/-- CFG_ERR of the audio unit with its code. -/
def State.audRefuse (s : State) (code : Nat) : State := (s.set Reg.AUD_STATUS_ERR_CODE code).audEvent Reg.AUD_STATUS_CFG_ERR

/-- Whether an output is protected (R326). -/
def State.outProtected (s : State) (o : Nat) : Bool :=
  if o < 32 then bitOf (s.reg Reg.BELL_PROTECT_LO).toNat o else bitOf (s.reg Reg.BELL_PROTECT_HI).toNat (o - 32)

/-- R326: whether a node is secure-owned. -/
def State.nodeSecure (s : State) (o i : Nat) : Bool := s.outProtected o || decide (56 ≤ i ∧ i ≤ 59)

/-- R326: whether CTRL and TX_MASK of a TDM port are secure-owned: the port carries a protected output. -/
def State.tdmSecure (s : State) (n : Nat) : Bool := (List.range 16).any fun k => s.outProtected (16 * n + k)

/-- R309: device address of the staging area a start would use. -/
def State.stageAddr (s : State) : Nat := 256 * s.get Reg.AUD_STAGE_ADDR

/-- R309: device address of a half's word 0, in the staging area the run under way started with. -/
def State.stageHalf (s : State) (block : Nat) : Nat := s.aud.stage + block % 2 * 7680

/-! ### Bell voices (R323 to R327) -/

/-- An ON period begins (R324). -/
def State.voiceOn (s : State) (v : Nat) : State :=
  let x := s.voice v
  s.setVoice v { x with phase := .tone, acc := 0, left := s.get (Reg.BELL_CADENCE_ON_MS v) * 48, reps := x.reps + 1 }

/-- A voice that has fallen silent after its last ON period. -/
def State.voiceOff (s : State) (v : Nat) : State :=
  (s.setVoice v { s.voice v with phase := .idle, left := 0, final := false }).set (Reg.BELL_CTRL_SOUND v) 0

/-- Whether the ON period under way is the last (R324): COUNT of them have begun. -/
def State.voiceLast (s : State) (v : Nat) : Bool :=
  let c := s.get (Reg.BELL_CTRL_COUNT v)
  c != 0 && decide (c ≤ (s.voice v).reps)

/-- R324: an ON or OFF period whose samples are over ends. ON_MS = 0 is a continuous tone. -/
def State.cadenceEnd (s : State) (v : Nat) : State :=
  let x := s.voice v
  if x.left ≠ 0 then s
  else match x.phase with
    | .tone => if s.get (Reg.BELL_CADENCE_ON_MS v) = 0 then s
        else s.setVoice v { x with phase := .tail, final := s.voiceLast v }
    | .rest => s.voiceOn v
    | _ => s

/-- R323: the frequency of the ON period under way. -/
def State.voiceFreq (s : State) (v : Nat) : Nat :=
  if s.bit (Reg.BELL_CTRL_ALT v) && (s.voice v).reps % 2 == 0 then s.get (Reg.BELL_FREQ_F2 v) else s.get (Reg.BELL_FREQ_F1 v)

/-- R323, R324: the next sample of a voice. -/
def State.voiceSample (s : State) (v : Nat) : Int × State :=
  let s := s.cadenceEnd v
  let x := s.voice v
  match x.phase with
  | .idle => (0, s)
  | .rest => (0, s.setVoice v { x with left := x.left - 1 })
  | _ =>
    let y := scaleSample (bellTable (x.acc / 2 ^ 22)) (gainLinear (gainCode (s.get (Reg.BELL_LEVEL_CODE v))))
    let acc := (x.acc + bellStep (s.voiceFreq v)) % 2 ^ 32
    let s := s.setVoice v { x with acc := acc, left := x.left - 1 }
    let turned := acc / 2 ^ 31 != x.acc / 2 ^ 31
    if x.phase = .tail && turned then
      if x.final then (y, s.voiceOff v)
      else
        let off := s.get (Reg.BELL_CADENCE_OFF_MS v) * 48
        (y, if off = 0 then s.voiceOn v else s.setVoice v { s.voice v with phase := .rest, left := off })
    else (y, s)

/-- A number of samples of a voice. -/
def State.voiceSamples (s : State) (v : Nat) : Nat → List Int × State
  | 0 => ([], s)
  | k + 1 =>
    let (x, t) := s.voiceSample v
    let (xs, u) := t.voiceSamples v k
    (x :: xs, u)

/-- A voice at a block boundary: a start and a stop that were written (R324). SOUND reads 1 from its first sample (R479). -/
def State.voiceBoundary (s : State) (v : Nat) : State :=
  let x := s.voice v
  let s := if x.startDue then (s.setVoice v { x with startDue := false, final := false, reps := 0 }).voiceOn v |>.set (Reg.BELL_CTRL_SOUND v) 1 else s
  let x := s.voice v
  if x.stopDue then
    let s := (s.setVoice v { x with stopDue := false }).set (Reg.BELL_CTRL_STOP v) 0
    match x.phase with
    | .tone | .tail => s.setVoice v { s.voice v with phase := .tail, final := true }
    | .rest => s.voiceOff v
    | .idle => s
  else s

/-- Every voice stops at once (R327, R328); a stop that was asked for is taken with it (R479). -/
def State.voicesStop (s : State) : State :=
  s.each [0, 1, 2, 3] fun v t => ((t.setVoice v {}).voiceOff v).set (Reg.BELL_CTRL_STOP v) 0

/-- R327: every voice stops because secure services are down. -/
def State.downStop (s : State) : State :=
  ({ s with aud := { s.aud with downDue := false } }.voicesStop).event Reg.BELL_STATUS_DOWN_STOP Reg.BELL_STATUS_EVENTS 99

/-- SOUNDING of every voice. -/
def State.soundingBits (s : State) : Nat :=
  (List.range 4).foldl (fun a v => if (s.voice v).phase = .idle then a else a + 2 ^ v) 0

/-! ### Inputs (R306, R308, R310, R318, R322) -/

/-- A ring word as a sample. -/
def wordSample (w : Nat) : Int := sext 24 (w / 256)

/-- Ring size of a stream in samples (R61). -/
def State.ringSize (s : State) (n a : Nat) : Nat := 40 * max 2 (s.get (Reg.SESS_AS_CTRL_BLOCKS n a))

/-- The session and handle a stream belongs to. -/
def State.streamOf (s : State) (k : Nat) : Option (Nat × Nat) :=
  if s.bit (Reg.AUD_STREAM_OWNER_VALID k) then
    some (s.get (Reg.AUD_STREAM_OWNER_SESSION k), s.get (Reg.AUD_STREAM_OWNER_HANDLE k) % 8)
  else none

/-- Samples in a stream's ring (R61). -/
def State.ringFill (s : State) (n a : Nat) : Nat :=
  let size := s.ringSize n a
  (s.get (Reg.SESS_AS_WR_INDEX n a) + size - s.get (Reg.SESS_AS_RD_INDEX n a) % size) % size

/-- R61, R308: whether a block boundary reads samples of a stream: it has an owner, runs or starts, and holds a block. -/
def State.streamReads (s : State) (k : Nat) : Bool :=
  match s.streamOf k with
  | some (n, a) => (s.bit (Reg.SESS_AS_CTRL_START n a) || s.bit (Reg.SESS_AS_STATUS_RUNNING n a)) && decide (40 ≤ s.ringFill n a)
  | none => false

/-- R61, R308: the 40 samples of a stream for a block. A late stream contributes silence and its RD still advances; a
stream with fewer than 40 samples in its ring contributes silence, and an underrun is counted. -/
def State.streamTake (s : State) (k : Nat) (late : Bool) : List Int × State :=
  let none40 : List Int := List.replicate 40 0
  match s.streamOf k with
  | none => (none40, s)
  | some (n, a) =>
    let s := if s.bit (Reg.SESS_AS_CTRL_START n a) then s.set (Reg.SESS_AS_STATUS_RUNNING n a) 1 else s
    if !s.bit (Reg.SESS_AS_STATUS_RUNNING n a) then (none40, s)
    else
      let size := s.ringSize n a
      let rd := s.get (Reg.SESS_AS_RD_INDEX n a)
      let fill := s.ringFill n a
      if fill < 40 then (none40, s.count (Reg.SESS_AS_STATUS_UNDERRUNS n a))
      else
        let addr := sget (fun _ => 0) (s.ses n).asAddr a + 4 * (rd % size)
        let (r, s) := s.dmaRead (s.ownerWorld 0x13 0) 24 addr 160
        let s := s.set (Reg.SESS_AS_RD_INDEX n a) ((rd + 40) % size)
        let s := if fill - 40 < 80 then s.sessIrq n (8 + a) else s
        match r, late || s.startWaits addr 160 with
        | some bs, false => ((List.range 40).map fun j => wordSample (leAt bs (4 * j) 4), s)
        | _, _ => (none40, s)

/-- R318: 40 samples of a TDM slot through its high-pass; corner 0 passes them by, and the filter keeps its state. -/
def State.hpfRun (s : State) (input corner : Nat) (xs : List Int) : List Int × State :=
  if corner = 0 then (xs, s)
  else
    let f := sget (fun _ => {}) s.aud.hpf input
    let r := xs.foldl (fun (p : List Int × Biquad) x =>
      let (y, fs) := chainRun x [(p.2, hpfCoef corner)]
      (p.1 ++ [y], fs.headD {})) ([], f)
    (r.1, { s with aud := { s.aud with hpf := sput (fun _ => {}) s.aud.hpf input r.2 } })

/-- The 40 samples of a TDM input slot received since the latest boundary. -/
def TdmState.slot (t : TdmState) (k : Nat) : List Int :=
  (List.range 40).map fun j => (t.rx.reverse.getD j []).getD k 0

/-- R322: what a loopback feeds: its output's previous block. -/
def State.loopback (s : State) (k : Nat) : List Int :=
  let src := s.reg Reg.AUD_LOOP |>.toNat
  let o := src / 2 ^ (6 * k) % 64
  if bitOf src (28 + k) ∧ o < 48 ∧ !s.aud.routes.any (fun r => r.2.2 == o) then
    sget (fun _ => List.replicate 40 0) s.aud.outs o
  else List.replicate 40 0

/-- The samples of the 24 streams of a block. -/
def State.takeStreams (s : State) (late : List Nat) : List (List Int) × State :=
  (List.range 24).foldl (fun (p : List (List Int) × State) k =>
    let (xs, t) := p.2.streamTake k (late.contains k); (p.1 ++ [xs], t)) ([], s)

/-- The samples of the 32 slots of the TDM ports, each through its input's high-pass filter. -/
def State.takeSlots (s : State) : List (List Int) × State :=
  (List.range 32).foldl (fun (p : List (List Int) × State) k =>
    let port := p.2.tdm (k / 16)
    let (xs, t) := p.2.hpfRun (24 + k) (sget (fun _ => 0) port.corners (k % 16)) (port.slot (k % 16))
    (p.1 ++ [xs], t)) ([], s)

/-- The samples of the four voices. -/
def State.takeBells (s : State) : List (List Int) × State :=
  (List.range 4).foldl (fun (p : List (List Int) × State) v =>
    let (xs, t) := p.2.voiceSamples v 40; (p.1 ++ [xs], t)) ([], s)

/-- The 64 inputs of a block, by number (R306, R310). -/
def State.takeInputs (s : State) (late : List Nat) : List (List Int) × State :=
  let loops := (List.range 4).map s.loopback
  let streams := s.takeStreams late
  let slots := streams.2.takeSlots
  let bells := slots.2.takeBells
  (streams.1 ++ slots.1 ++ bells.1 ++ loops, bells.2)

/-! ### Node gains (R313 to R316, R325) -/

/-- ZC_TIMEOUT in samples (R315). -/
def State.zcSamples (s : State) : Nat := clampNat 1 50 (s.get Reg.AUD_ZC_ZC_TIMEOUT) * 48

/-- Whether a node is ducked in the current block (R325). -/
def State.nodeDucked (s : State) (o i : Nat) : Option Nat :=
  match s.aud.duck with
  | some (d, ins, outs) => if i < 24 ∧ bitOf ins i ∧ bitOf outs o then some d else none
  | none => none

/-- R325: a code of a node as it takes effect, ducking included. -/
def State.nodeCode (s : State) (o i code : Nat) : Option Int :=
  match s.nodeDucked o i with
  | some d => duckCode d (gainCode code)
  | none => gainCode code

/-- R325: the code of a node in effect: its own, ducked in a ducked block, and after ducking the ducked one until its return takes
effect. -/
def State.nodeNow (s : State) (o i : Nat) : Option Int :=
  let nd := s.node o i
  s.nodeCode o i (if (s.nodeDucked o i).isSome then nd.code else nd.held.getD nd.code)

/-- NODE_LIVE: the live effective code. -/
def State.nodeLive (s : State) (o i : Nat) : Word := BitVec.ofNat 32 (codeWord (s.nodeNow o i))

/-- R315: the first sample of a block at which a pending change may take effect: x[n] = 0, or x[n] and x[n − 1] differ in
sign, or the interval ends with it. -/
def changeAt (limit : Nat) : Nat → Int → List Int → Option Nat
  | _, _, [] => none
  | wait, prev, x :: xs =>
    if x = 0 ∨ (prev < 0 ∧ 0 < x) ∨ (0 < prev ∧ x < 0) ∨ limit ≤ wait + 1 then some 0
    else (changeAt limit (wait + 1) x xs).map (· + 1)

/-- R315: a node in a block: its gain at each of the 40 samples, and its state after them. -/
def State.nodeRun (s : State) (o i : Nat) (xs : List Int) : List Nat × State :=
  let nd := s.node o i
  let now := gainLinear (s.nodeNow o i)
  match nd.wait with
  | none => (List.replicate 40 now, s)
  | some w =>
    let new := s.get (Reg.AUD_NODE_CODE o i)
    match changeAt s.zcSamples w (sget (fun _ => 0) s.aud.last i) xs with
    | some t => (List.replicate t now ++ List.replicate (40 - t) (gainLinear (s.nodeCode o i new)),
        (s.setNode o i { code := new, wait := none }).set (Reg.AUD_NODE_PENDING o i) 0)
    | none => (List.replicate 40 now, s.setNode o i { nd with wait := some (w + 40) })

/-- R315, R325: ducking ends, and each ducked node's return to its own code waits as a change does. -/
def State.duckEnd (s : State) : State :=
  match s.aud.duck with
  | none => s
  | some (d, ins, outs) =>
    let keys := (s.aud.nodes.map (·.1)).filter fun k => k % 64 < 24 && bitOf ins (k % 64) && bitOf outs (k / 64)
    let s := { s with aud := { s.aud with duck := none } }
    s.each keys fun k t =>
      let nd := t.node (k / 64) (k % 64)
      let code := codeWord (duckCode d (gainCode nd.code))
      let same := gainCode code == gainCode (t.get (Reg.AUD_NODE_CODE (k / 64) (k % 64)))
      if same && nd.wait.isNone then t
      else (t.setNode (k / 64) (k % 64) { nd with held := some code, wait := some (nd.wait.getD 0) }).set
        (Reg.AUD_NODE_PENDING (k / 64) (k % 64)) 1

/-- R325: the ducking of the block that begins. -/
def State.duckBoundary (s : State) : State :=
  if s.soundingBits = 0 then s.duckEnd.set Reg.BELL_STATUS_DUCKING 0
  else
    let outs := s.get Reg.BELL_DUCK_OUT_LO_OUTPUTS + 2 ^ 32 * s.get Reg.BELL_DUCK_OUT_HI_OUTPUTS
    ({ s with aud := { s.aud with
        duck := some (s.get Reg.BELL_DUCK_DEPTH, s.get Reg.BELL_DUCK_IN_INPUTS, outs) } }).set Reg.BELL_STATUS_DUCKING 1

/-! ### The mix and the outputs (R309, R314, R319, R320) -/

/-- R314: the mix of 40 samples of an output. -/
def mixBlock (terms : List (List Int × List Nat)) : List Int :=
  (List.range 40).map fun j =>
    clamp24 (asr ((terms.map fun (t : List Int × List Nat) => t.1.getD j 0 * ((t.2.getD j 0 : Nat) : Int)).sum + 2 ^ 23) 24)

/-- The equaliser's coefficients of an output's active bank. -/
def State.eqCoefs (s : State) (o q c : Nat) : Int := sext 32 (s.get (Reg.AUD_EQ_COEF o (s.get (Reg.AUD_EQ_CTRL_ACTIVE o)) q c))

/-- R319: the equaliser of an output over 40 samples. -/
def State.eqRun (s : State) (o : Nat) (xs : List Int) : List Int × State :=
  if !s.bit (Reg.AUD_EQ_CTRL_EN o) then (xs, s)
  else
    let fs := (List.range 8).map fun q => sget (fun _ => ({} : Biquad)) s.aud.eq (8 * o + q)
    let cs := (List.range 8).map (fun q => s.eqCoefs o q)
    let r := xs.foldl (fun (p : List Int × List Biquad) x =>
      let (y, gs) := chainRun x (p.2.zip cs); (p.1 ++ [y], gs)) ([], fs)
    (r.1, { s with aud := { s.aud with
      eq := r.2.zipIdx.foldl (fun m f => sput (fun _ => {}) m (8 * o + f.2) f.1) s.aud.eq } })

/-- One output's block: the nodes that are not at rest on mute, the mix, and the equaliser. -/
def State.outputRun (s : State) (inputs : List (List Int)) (o : Nat) : List Int × State :=
  let (terms, s) := (List.range 64).foldl (fun (p : List (List Int × List Nat) × State) i =>
    let nd := p.2.node o i
    if nd.wait.isNone && nd.code == 0x8000 then p
    else
      let xs := inputs.getD i []
      let (ls, t) := p.2.nodeRun o i xs
      (p.1 ++ [(xs, ls)], t)) ([], s)
  s.eqRun o (mixBlock terms)

/-- R309: a block's outputs in the staging area: output o's sample j at word 40 × o + j. -/
def stageBytes (outs : List (List Int)) : List Byte :=
  outs.flatMap fun xs => xs.flatMap fun x => leBytes 4 (toBits 24 x * 256)

/-- A word of the block being sent, as the ports read it from the staging area, its sample in [31:8] and 0 below (R311); silence where the block is silence or the
area cannot be read. -/
def State.sentWord (s : State) (o j : Nat) : Word × State :=
  let a := s.stageHalf s.aud.sending + 4 * (40 * o + j)
  if s.aud.silent || s.aud.quiet || s.startWaits a 4 then (0, s)
  else
    let (r, s) := s.dmaRead (s.ownerWorld 0x13 0) 24 a 4
    (match r with | some bs => BitVec.ofNat 32 (leNat bs / 256 * 256) | none => 0, s)

/-- The 40 words of an output in the block being sent. -/
def State.sentWords (s : State) (o : Nat) : List Word × State :=
  (List.range 40).foldl (fun (q : List Word × State) j =>
    let (w, u) := q.2.sentWord o j; (q.1 ++ [w], u)) ([], s)

/-- The DP ports' outputs that are sent: those of the running screens whose port has AUDIO_EN = 1 and its link up. -/
def State.dpOuts (s : State) : List Nat :=
  (List.range 16).filter fun k =>
    let n := k / 2
    let p := s.get (Reg.SCREEN_CTRL_PORT n)
    s.bit (Reg.SCREEN_STATUS_RUNNING n) && s.bit (Reg.DPO_CTRL_AUDIO_EN p) && s.bit (Reg.DPO_LINK_STATUS_LINK_OK p)

/-- R104: what the DP port of a screen sends of its two outputs in the block; a port whose link is down, or with
AUDIO_EN = 0, sends none. -/
def State.dpSend (s : State) : State :=
  let r := s.dpOuts.foldl (fun (p : List (Nat × List Word) × State) k =>
    let (ws, t) := p.2.sentWords (32 + k); (p.1 ++ [(32 + k, ws)], t)) ([], s)
  { r.2 with aud := { r.2.aud with dp := r.1 } }

/-! ### Block boundaries (R306, R309, R312, R319, R320, R327, R328) -/

/-- A TDM port that was disabled stops: it keeps nothing of its latest frame but the slots received for the block that ends. -/
def State.tdmStop (s : State) (n : Nat) : State :=
  (s.setTdm n { s.tdm n with hist := [], dout := [], frame := 0 }).set (Reg.TDM_STATUS_RUNNING n) 0

/-- A stream stops taking blocks (R61). -/
def State.streamStop (s : State) (k : Nat) : State :=
  match s.streamOf k with
  | some (n, a) => s.set (Reg.SESS_AS_STATUS_RUNNING n a) 0
  | none => s

/-- The audio unit stops: no output is sent and no stream takes blocks; a stop of the voices that waited for a boundary is
taken (R327). Its TDM ports, disabled before it (R312), stop with it, and RUNNING of each stream falls (DESIGN CHOICE, log entry
98). -/
def State.audStop (s : State) : State :=
  let s := (s.set Reg.AUD_STATUS_RUNNING 0).when s.aud.downDue (·.downStop)
  let s := s.each [0, 1] fun n t => (t.tdmStop n).setTdm n { (t.tdmStop n).tdm n with rx := [] }
  let s := s.each (List.range 24) fun k t => t.streamStop k
  { s with aud := { s.aud with stopDue := false, staged := false, silent := true, dp := [] } }

/-- R354: the clock of an audio unit or a TDM port stops, and with it a block that was still being sent. -/
def State.audioGated (s : State) (u i : Nat) : State :=
  if u = 0x13 then s.audStop else if u = 0x14 then (s.tdmStop i).setTdm i {} else s

/-- What takes effect at a boundary: TDM starts and stops, masks and corners, equaliser banks, direct routes, stops of the voices. -/
def State.audBoundary (s : State) : State :=
  let s := s.each [0, 1] fun n t =>
    let t := if t.bit (Reg.TDM_CTRL_EN n) then t.set (Reg.TDM_STATUS_RUNNING n) 1
      else t.when (t.bit (Reg.TDM_STATUS_RUNNING n)) (·.tdmStop n)
    t.setTdm n { t.tdm n with
      frame := 0, rxMask := t.get (Reg.TDM_MASK_RX_MASK n), txMask := t.get (Reg.TDM_MASK_TX_MASK n),
      corners := ((List.range 16).map fun k => (k, t.get (Reg.TDM_HPF_CORNER n k))).filter (·.2 != 0) }
  let s := s.each (List.range 48) fun o t =>
    if t.bit (Reg.AUD_EQ_CTRL_SWAP o) then
      (t.set (Reg.AUD_EQ_CTRL_ACTIVE o) (1 - t.get (Reg.AUD_EQ_CTRL_ACTIVE o))).set (Reg.AUD_EQ_CTRL_SWAP o) 0
    else t
  let routes := (List.range 8).filterMap fun r =>
    if s.bit (Reg.AUD_DIRECT_EN r) then some (r, s.get (Reg.AUD_DIRECT_IN r), s.get (Reg.AUD_DIRECT_OUT r)) else none
  let s := { s with aud := { s.aud with routes := routes, quiet := s.audQuiet } }
  let s := s.each [0, 1, 2, 3] fun v t => t.voiceBoundary v
  let s := s.when s.aud.downDue (·.downStop)
  let s := if s.aud.quiet then s.voicesStop else s
  (s.set Reg.BELL_STATUS_SOUNDING s.soundingBits).duckBoundary

/-- R309: the block staged last is sent from this boundary, or silence in its place with a breach when it is late. -/
def State.audSend (s : State) (stagedLate : Bool) : State :=
  let late := stagedLate && s.aud.staged
  let s := { s with aud := { s.aud with silent := late || !s.aud.staged, sending := s.aud.block - 1 } }
  let s := if late then
      (s.breach { rank := 5, yielded := 5, port := some 24, mag := 40, unit := 0x13, inst := 0 }).count
        Reg.AUD_COUNTS_LATE_BLOCKS
    else s
  s.dpSend

/-- The 48 outputs of a block. -/
def State.outputsRun (s : State) (inputs : List (List Int)) : List (List Int) × State :=
  (List.range 48).foldl (fun (p : List (List Int) × State) o =>
    let (xs, t) := p.2.outputRun inputs o; (p.1 ++ [xs], t)) ([], s)

/-- R306, R309: the outputs `outs` of a block whose inputs were `inputs` are staged, and the block ends. -/
def State.audioStage (s : State) (late : List Nat) (inputs outs : List (List Int)) : State :=
  let s := s.dmaWrite (s.ownerWorld 0x13 0) 24 (s.stageHalf s.aud.block) (stageBytes outs)
  let last := inputs.zipIdx.foldl (fun m x => sput (fun _ => (0 : Int)) m x.2 (x.1.getLastD 0)) s.aud.last
  let blocks := outs.zipIdx.foldl (fun m x => sput (fun _ => List.replicate 40 (0 : Int)) m x.2 x.1) s.aud.outs
  let s := { s with aud := { s.aud with
    last := last, outs := blocks, staged := true, block := s.aud.block + 1, late := late } }
  let s := s.each [0, 1] fun n t => t.setTdm n { t.tdm n with rx := [] }
  s.set Reg.BELL_STATUS_SOUNDING s.soundingBits

/-- R306, R308: the samples of a block are taken and mixed, and its outputs staged; of the late streams those count that were read. -/
def State.audioMix (s : State) (late : List Nat) : State :=
  let taken := s.takeInputs late
  let mixed := taken.2.outputsRun taken.1
  mixed.2.audioStage (late.filter s.streamReads) taken.1 mixed.1

/-- R306: a block boundary: the block staged last goes out, and the block's samples are taken, mixed and staged; a unit that was
disabled stops here in place of it (R11). -/
def State.audioBlock (s : State) (late : List Nat) (stagedLate : Bool) : State :=
  if !s.bit Reg.AUD_STATUS_RUNNING then s
  else if s.aud.stopDue then s.audStop
  else ((s.audBoundary).audSend stagedLate).audioMix late

end Sys2Proof.Machine
end

