-- ==== Sys2Proof/Machine/CoreOps.lean ====
section
/-! DEFINITION. The management cores as the world switches see them: the world bit, the two CSR copies, traps, entering
and leaving the secure world, secure services down, and the restart of the secure world (R329 to R346). The programs the
cores run are outside the model; the RISC-V layout of the CSRs and of trap entry is the family's (log entry 34). -/

namespace Sys2Proof.Machine

/-- A core's record. -/
def State.core (s : State) (c : Nat) : CoreState := sget coreReset s.cores c

/-- A core's record set. -/
def State.setCore (s : State) (c : Nat) (r : CoreState) : State := { s with cores := sput coreReset s.cores c r }

/-- The five cores. -/
def allCores : List Nat := List.range 5

/-! ### CSRs -/

/-- Reset values of a CSR copy that are not 0: mstatus and misa of RV64GC with supervisor and user modes (log entry 34). -/
def csrReset (a : Nat) : BitVec 64 :=
  if a = 0x300 then 0xA00000000 else if a = 0x301 then 0x800000000014112D else 0

/-- A CSR of one world's copy. -/
def CoreState.csr (r : CoreState) (w : World) (a : Nat) : BitVec 64 :=
  sget csrReset (match w with | .secure => r.csrS | .normal => r.csrN) a

/-- A CSR of one world's copy set. -/
def CoreState.setCsr (r : CoreState) (w : World) (a : Nat) (v : BitVec 64) : CoreState :=
  match w with
  | .secure => { r with csrS := sput csrReset r.csrS a v }
  | .normal => { r with csrN := sput csrReset r.csrN a v }

/-- mstatus. -/
def csrMstatus : Nat := 0x300
/-- wgvec. -/
def csrWgvec : Nat := 0x7C0
/-- wgepc. -/
def csrWgepc : Nat := 0x7C1
/-- wgstatus. -/
def csrWgstatus : Nat := 0x7C2
/-- wgmask. -/
def csrWgmask : Nat := 0x7C3
/-- wgumask. -/
def csrWgumask : Nat := 0x7C4

/-- A 64-bit value with `n` bits from `lo` replaced. -/
def put64 (v : BitVec 64) (lo n x : Nat) : BitVec 64 :=
  let m : BitVec 64 := BitVec.ofNat 64 (2 ^ n - 1) <<< lo
  (v &&& ~~~m) ||| ((BitVec.ofNat 64 x <<< lo) &&& m)

/-- The `n` bits from `lo` of a 64-bit value. -/
def get64 (v : BitVec 64) (lo n : Nat) : Nat := (v.toNat >>> lo) % 2 ^ n

/-- The key of tdata`j` of trigger `i` in a CSR copy: past the 12-bit numbers (log entry 88). -/
def trigKey (i j : Nat) : Nat := 0x1000 + 4 * i + j

/-- Whether an execution trigger of a world's copy matches where the core stands: a type 2 trigger that enters debug mode, for
the core's privilege, with tdata2 at the pc (PRESUMED: the layout of the External Debug Support 0.13.2, log entry 88). -/
def CoreState.trips (r : CoreState) (w : World) : Bool :=
  let l := match w with | .secure => r.csrS | .normal => r.csrN
  l.any fun p => decide (0x1000 ≤ p.1) && p.1 % 4 == 1 && get64 p.2 60 4 == 2 && get64 p.2 12 4 == 1 && get64 p.2 2 1 == 1
    && get64 p.2 (if r.priv = 0 then 3 else if r.priv = 1 then 4 else 6) 1 == 1 && r.csr w (p.1 + 1) == r.pc

/-- A field of mstatus set. -/
def CoreState.setStatus (r : CoreState) (w : World) (lo n x : Nat) : CoreState :=
  r.setCsr w csrMstatus (put64 (r.csr w csrMstatus) lo n x)

/-- An integer register; x0 reads 0. -/
def CoreState.gpr (r : CoreState) (i : Nat) : BitVec 64 := if i = 0 then 0 else sget (fun _ => 0) r.x i

/-- An integer register set; a write to x0 is discarded. -/
def CoreState.setGpr (r : CoreState) (i : Nat) (v : BitVec 64) : CoreState :=
  if i = 0 then r else { r with x := sput (fun _ => 0) r.x i v }

/-! ### The state of a core -/

/-- Whether a core runs: RUNNING and not halted. -/
def State.coreRuns (s : State) (c : Nat) : Bool := s.get (Reg.MC_STATUS_STATE c) == 1 && !s.bit (Reg.MC_STATUS_HALTED c)

/-- The world a core is in. -/
def State.coreWorld (s : State) (c : Nat) : World := if s.bit (Reg.MC_STATUS_WORLD c) then .secure else .normal

/-- Whether a RUNNING core, halted or not, is in the secure world. -/
def State.inSecure (s : State) (c : Nat) : Bool := s.get (Reg.MC_STATUS_STATE c) == 1 && s.bit (Reg.MC_STATUS_WORLD c)

/-- An event of MC_n_STATUS; MC has no source of its own. -/
def State.coreEvent (s : State) (c : Nat) (flag : Fld) : State := (s.set flag 1).count (Reg.MC_STATUS_EVENTS c)

/-- Whether the invasive enable of a world is open (R357). -/
def State.invasive (s : State) : World → Bool
  | .secure => s.bit Reg.DBG_EN_SI
  | .normal => s.bit Reg.DBG_EN_NI

/-- Whether the non-invasive enable of a world is open. -/
def State.nonInvasive (s : State) : World → Bool
  | .secure => s.bit Reg.DBG_EN_SNI
  | .normal => s.bit Reg.DBG_EN_NNI

/-- R357: a halt request that waits, or a trigger that matches, halts the core once it is in a world whose enable is open. -/
def State.haltCheck (s : State) (c : Nat) : State :=
  if ((s.core c).haltReq || (s.core c).trips (s.coreWorld c)) && s.get (Reg.MC_STATUS_STATE c) == 1 && s.invasive (s.coreWorld c) then
    (s.setCore c { s.core c with haltReq := false }).set (Reg.MC_STATUS_HALTED c) 1
  else s

/-! ### CSRs as they are read and written -/

/-- A CSR as the core or a debugger reads it: mhartid is MC_n_CTRL.HARTID (R331), time counts the 25 MHz reference, the user
counters are their machine aliases, fcsr is one register for both worlds, and a debugger's dpc and dcsr are the halted core's
pc and privilege. -/
def State.csrRead (s : State) (c : Nat) (w : World) (a : Nat) : BitVec 64 :=
  let r := s.core c
  if a = 0xF14 then BitVec.ofNat 64 (s.get (Reg.MC_CTRL_HARTID c))
  else if a = 0xC01 then BitVec.ofNat 64 (s.clock / 40)
  else if 0xC00 ≤ a ∧ a < 0xC20 then r.csr w (a - 0x100)
  else if a = 1 then BitVec.ofNat 64 (getBits r.fcsr 0 5)
  else if a = 2 then BitVec.ofNat 64 (getBits r.fcsr 5 3)
  else if a = 3 then r.fcsr.zeroExtend 64
  else if a = 0x7B0 then BitVec.ofNat 64 (0x40000000 + r.priv)
  else if a = 0x7B1 then r.pc
  else if a = 0x7A1 ∨ a = 0x7A2 then r.csr w (trigKey (r.csr w 0x7A0).toNat (a - 0x7A0))
  else r.csr w a

/-- A CSR written by a debugger; numbers whose two high bits are 1 are read-only, and tselect takes the number of a trigger
only (PRESUMED, log entries 34 and 88). -/
def State.csrWrite (s : State) (c : Nat) (w : World) (a : Nat) (v : BitVec 64) : State :=
  let r := s.core c
  if 0xC00 ≤ a then s
  else s.setCore c
    (if a = 1 then { r with fcsr := setBits r.fcsr 0 5 v.toNat }
     else if a = 2 then { r with fcsr := setBits r.fcsr 5 3 v.toNat }
     else if a = 3 then { r with fcsr := BitVec.ofNat 32 (v.toNat % 256) }
     else if a = 0x7B0 then (if v.toNat % 4 = 2 then r else { r with priv := v.toNat % 4 })
     else if a = 0x7B1 then { r with pc := v }
     else if a = 0x7A0 then (if v.toNat < Config.triggerCount.toNat then r.setCsr w a v else r)
     else if a = 0x7A1 ∨ a = 0x7A2 then r.setCsr w (trigKey (r.csr w 0x7A0).toNat (a - 0x7A0)) v
     else r.setCsr w a v)

/-! ### Counters (R333) -/

/-- A machine counter of a world's copy advances, unless mcountinhibit stops it. -/
def CoreState.bump (r : CoreState) (w : World) (n v : Nat) : CoreState :=
  if get64 (r.csr w 0x320) n 1 = 1 then r else r.setCsr w (0xB00 + n) (r.csr w (0xB00 + n) + BitVec.ofNat 64 v)

/-- R333: one core clock of a core: the counters of the world it runs in advance, and no other's. The core runs at 1.2 GHz;
what retires in the clock, and how often a counted event happens, is the program's: free values (log entry 89). -/
def State.coreTick (s : State) (c : Nat) : State :=
  if !s.coreRuns c then s
  else
    let w := s.coreWorld c
    let (i, t) := s.draw
    let r := ((t.core c).bump w 0 (s.clock * 6 / 5 - (s.clock - 1) * 6 / 5)).bump w 2 i
    (t.setCore c r).each ((List.range' 3 29).filter fun n => r.csr w (0x320 + n) != 0) fun n u =>
      let (v, u) := u.draw
      u.setCore c ((u.core c).bump w n v)

/-! ### Tagged entries (R334) -/

/-- How many entries of a kind a core holds, or the cores together: 1,024 lines of the two L1s and 16,384 of the L2, 64 bytes each;
of the others the model keeps all (log entry 90). -/
def tagRoom : TagKind → Option Nat
  | .l1 => some 1024
  | .l2 => some 16384
  | _ => none

/-- R334: a lookup matches only entries of the current world. -/
def State.tagHit (s : State) (k : TagKind) (c key : Nat) (w : World) : Bool :=
  s.tags.contains { kind := k, core := c, key := key, world := w }

/-- R334: an entry is made where the lookup finds none of the current world, tagged with it; the oldest of a full array goes. -/
def State.tagMake (s : State) (k : TagKind) (c key : Nat) (w : World) : State :=
  if s.tagHit k c key w then s
  else
    let mine := s.tags.filter fun t => t.kind == k && t.core == c
    let rest := s.tags.filter fun t => !(t.kind == k && t.core == c)
    let kept := match tagRoom k with | some n => mine.take (n - 1) | none => mine
    { s with tags := { kind := k, core := c, key := key, world := w } :: kept ++ rest }

/-- The entries of a core go as it is held in reset. -/
def State.tagDrop (s : State) (c : Nat) : State := { s with tags := s.tags.filter fun t => t.core != c }

/-! ### Traps inside one world (RISC-V privileged architecture 1.12) -/

/-- A trap into machine mode. -/
def CoreState.trapM (r : CoreState) (w : World) (cause : BitVec 64) (tval : BitVec 64) : CoreState :=
  let st := r.csr w csrMstatus
  let tv := r.csr w 0x305
  let r := ((r.setCsr w 0x341 r.pc).setCsr w 0x342 cause).setCsr w 0x343 tval
  let r := ((r.setStatus w 11 2 r.priv).setStatus w 7 1 (get64 st 3 1)).setStatus w 3 1 0
  let base := tv &&& ~~~3
  let irq := 2 ^ 63 ≤ cause.toNat
  { r with priv := 3, pc := if irq ∧ get64 tv 0 2 = 1 then base + (cause &&& 0x3F) * 4 else base }

/-- A trap into supervisor mode. -/
def CoreState.trapS (r : CoreState) (w : World) (cause : BitVec 64) (tval : BitVec 64) : CoreState :=
  let st := r.csr w csrMstatus
  let tv := r.csr w 0x105
  let r := ((r.setCsr w 0x141 r.pc).setCsr w 0x142 cause).setCsr w 0x143 tval
  let r := ((r.setStatus w 8 1 r.priv).setStatus w 5 1 (get64 st 1 1)).setStatus w 1 1 0
  let base := tv &&& ~~~3
  let irq := 2 ^ 63 ≤ cause.toNat
  { r with priv := 1, pc := if irq ∧ get64 tv 0 2 = 1 then base + (cause &&& 0x3F) * 4 else base }

/-- The illegal-instruction trap (R336, R339), delegated to supervisor mode where medeleg bit 2 says so. -/
def CoreState.illegal (r : CoreState) (w : World) (word : Word) : CoreState :=
  let tval := Config.illegalTval word
  if r.priv ≤ 1 ∧ get64 (r.csr w 0x302) 2 1 = 1 then r.trapS w 2 tval else r.trapM w 2 tval

/-- An external interrupt's cause: 11 machine, 9 supervisor. -/
def irqCause (k : Nat) : BitVec 64 := 0x8000000000000000 + BitVec.ofNat 64 k

/-! ### Entering and leaving the secure world (R337 to R342) -/

/-- wgstatus of an entry. -/
def wgStatus (kind priv gate : Nat) : BitVec 64 := BitVec.ofNat 64 (kind + 4 * priv + 256 * gate)

/-- An entry into the secure world: the return point and the entry's kind are recorded, and the world bit is set. -/
def State.enterSecure (s : State) (c kind gate : Nat) (epc : BitVec 64) : State :=
  let r := s.core c
  let r := (r.setCsr .secure csrWgepc epc).setCsr .secure csrWgstatus (wgStatus kind r.priv gate)
  (s.setCore c { r with timed := s.bit Reg.SYS_SEC_CTRL_RES_ARM }).set (Reg.MC_STATUS_WORLD c) 1

/-- R338, 1: the registers are saved into the shadow file. -/
def CoreState.save (r : CoreState) : CoreState := { r with shadowX := r.x, shadowF := r.f, shadowFcsr := r.fcsr }

/-- R338: a secure interrupt pre-empts a core in the normal world. -/
def State.secureEntry (s : State) (c : Nat) : State :=
  let pc := (s.core c).pc
  let s := (s.setCore c (s.core c).save).enterSecure c 1 0 pc
  (s.setCore c ((s.core c).trapM .secure (irqCause 11) 0)).haltCheck c

/-- R339: the registers on return, by KIND; code 3 is treated as 1. -/
def CoreState.restore (r : CoreState) (kind : Nat) : CoreState :=
  if kind = 0 then
    let r := { r with x := r.x.filter (fun p => decide (10 ≤ p.1 ∧ p.1 ≤ 13)), f := [], fcsr := 0 }
    if get64 (r.csr .normal csrMstatus) 13 2 = 0 then r else r.setStatus .normal 13 2 1
  else { r with x := r.shadowX, f := r.shadowF, fcsr := r.shadowFcsr }

/-- A core that leaves the secure world, or is reset, no longer serves the sources that pre-empted it (R349). -/
def State.sentDrop (s : State) (c : Nat) : State :=
  { s with ic := { s.ic with sent := s.ic.sent.filter (fun p => p.2 != c) } }

/-- R339: the return to the normal world. -/
def State.leaveSecure (s : State) (c : Nat) : State :=
  let s := s.sentDrop c
  let r := s.core c
  let st := r.csr .secure csrWgstatus
  let r := r.restore (get64 st 0 2)
  let r := { r with pc := r.csr .secure csrWgepc, priv := get64 st 2 2, context := true, timed := false }
  ((s.setCore c r).set (Reg.MC_STATUS_WORLD c) 0).haltCheck c

/-- R343: a core with no normal-world context is held in reset. -/
def State.park (s : State) (c : Nat) : State :=
  let s := (s.sentDrop c).tagDrop c
  let s := s.setCore c { coreReset c with parked := true, haltReq := (s.core c).haltReq }
  (((s.set (Reg.MC_CTRL_RUN c) 0).set (Reg.MC_STATUS_STATE c) 0).set (Reg.MC_STATUS_WORLD c) 0).set (Reg.MC_STATUS_HALTED c) 0

/-- R342, R343: a core is forced out of the secure world; a gate entry returns −1. -/
def State.forceBack (s : State) (c : Nat) : State :=
  if !(s.core c).context then s.park c
  else
    let st := (s.core c).csr .secure csrWgstatus
    let s := (s.set (Reg.MC_FORCE_INFO_KIND c) (get64 st 0 2)).set (Reg.MC_FORCE_INFO_GATE c) (get64 st 8 6)
    let s := s.leaveSecure c
    let r := s.core c
    let s := if get64 st 0 2 = 0 then
        s.setCore c ((((r.setGpr 10 0xFFFFFFFFFFFFFFFF).setGpr 11 0).setGpr 12 0).setGpr 13 0)
      else s
    (s.coreEvent c (Reg.MC_STATUS_FORCED c)).raiseIrq 125

/-! ### Secure services down and the restart (R343 to R346) -/

/-- The core a restart runs on leaves secure world: its context returns, or it parks. -/
def State.restartLeave (s : State) : State :=
  match s.restartOn with
  | some c => if s.inSecure c then (if (s.core c).context then s.leaveSecure c else s.park c) else s
  | none => s

/-- R346: a restart fails: its core goes back, FAILS counts, and after three failures services stay down. -/
def State.restartFail (s : State) : State :=
  let s := s.restartLeave
  let fails := s.get Reg.SYS_SEC_STATUS_FAILS + 1
  let s := (s.set Reg.SYS_SEC_STATUS_FAILS fails).set Reg.SYS_SEC_STATUS_RESTARTING 0
  let s := { s with restartOn := none, restartDue := decide (fails < 3) }
  if 3 ≤ fails then s.set Reg.SYS_SEC_STATUS_GAVE_UP 1 else s

/-- R343: a cause marks secure services down: 1 residency, 2 watchdog, 3 core fault. Every other core in the secure world is
forced back or held. A cause that arises during a restart makes the restart fail too, and its core goes back under R346. -/
def State.secureDown (s : State) (cause core : Nat) : State :=
  let was := s.bit Reg.SYS_SEC_STATUS_DOWN
  let s := (s.set Reg.SYS_SEC_STATUS_CAUSE cause).set Reg.SYS_SEC_STATUS_CORE core
  let s := ((s.set Reg.SYS_SEC_STATUS_DOWN 1).set Reg.SYS_SEC_STATUS_DOWN_EVT 1).count Reg.SYS_SEC_STATUS_EVENTS
  let s := (s.raiseFault 6).each (allCores.filter fun c => s.inSecure c && s.restartOn != some c) fun c t => t.forceBack c
  let s := if s.bit Reg.AUD_STATUS_RUNNING then { s with aud := { s.aud with downDue := true } } else s.downStop
  if s.bit Reg.SYS_SEC_STATUS_RESTARTING then s.restartFail
  else if was then s
  else { s with restartDue := s.bit Reg.SYS_SEC_CTRL_AUTO_RESTART && !s.bit Reg.SYS_SEC_STATUS_GAVE_UP }

/-- R330: a core's register file or L1 array reports an uncorrectable error. -/
def State.coreFail (s : State) (c : Nat) : State :=
  let secure := s.inSecure c
  let s0 := s
  let s := s.sentDrop c
  let s := s.setCore c { s.core c with parked := false }
  let s := (s.set (Reg.MC_STATUS_STATE c) 2).coreEvent c (Reg.MC_STATUS_FAULT c)
  let s := s.raiseFault (144 + c)
  if secure then (s.secureDown 3 c).inOrder s0 else s

end Sys2Proof.Machine
end

