-- ==== Sys2Proof/Machine/CrcUnits.lean ====
section
/-! DEFINITION. The check-value units: parameters, descriptors, the walk, and the commands (R408 to R419). -/

namespace Sys2Proof.Machine

/-- A unit's record. -/
def State.crcU (s : State) (n : Nat) : CrcState := sget (fun _ => {}) s.crcs n

/-- A unit's record set. -/
def State.setCrcU (s : State) (n : Nat) (r : CrcState) : State := { s with crcs := sput (fun _ => {}) s.crcs n r }

/-- The parameters a unit's registers hold (R408). -/
def State.crcParams (s : State) (n : Nat) : CrcParams :=
  { width := s.get (Reg.CRC_CFG_WIDTH n),
    poly := s.get (Reg.CRC_POLY_LO_POLY n) + 2 ^ 32 * s.get (Reg.CRC_POLY_HI_POLY n),
    init := s.get (Reg.CRC_INIT_LO_INIT n) + 2 ^ 32 * s.get (Reg.CRC_INIT_HI_INIT n),
    xorout := s.get (Reg.CRC_XOROUT_LO_XOROUT n) + 2 ^ 32 * s.get (Reg.CRC_XOROUT_HI_XOROUT n),
    refin := s.bit (Reg.CRC_CFG_REFIN n), refout := s.bit (Reg.CRC_CFG_REFOUT n) }

/-- R414: the check of the parameters at GO. -/
def CrcParams.good (p : CrcParams) : Bool :=
  decide (8 ≤ p.width ∧ p.width ≤ 64 ∧ p.poly < 2 ^ p.width ∧ p.init < 2 ^ p.width ∧ p.xorout < 2 ^ p.width)

/-- Whether a unit runs a chain. -/
def State.crcBusy (s : State) (n : Nat) : Bool := s.bit (Reg.CRC_STATUS_BUSY n)

/-- An event of CRC_n_STATUS; the source is raised where a flag that has one goes from 0 to 1. -/
def State.crcEvent (s : State) (n : Nat) (flag : Fld) (irq : Bool) : State :=
  let rises := !s.bit flag
  let s := (s.set flag 1).count (Reg.CRC_STATUS_EVENTS n)
  if irq && rises then s.raiseIrq (100 + n) else s

/-- The fabric port of a unit's DMA. -/
def crcPort (n : Nat) : Nat := if n ≤ 8 then 32 else 33

/-- A descriptor (R410). -/
structure CrcDesc where
  /-- the sixteen words -/
  words : List Nat
deriving DecidableEq, Repr

/-- Word i of a descriptor. -/
def CrcDesc.w (d : CrcDesc) (i : Nat) : Nat := d.words.getD i 0
/-- SRC. -/
def CrcDesc.src (d : CrcDesc) : Nat := d.w 0 + 2 ^ 32 * (d.w 1 % 256)
/-- ROW_BYTES. -/
def CrcDesc.rowBytes (d : CrcDesc) : Nat := d.w 2
/-- ROWS. -/
def CrcDesc.rows (d : CrcDesc) : Nat := d.w 4 % 65536
/-- STRIDE; ignored with one row. -/
def CrcDesc.stride (d : CrcDesc) : Nat := if d.rows = 1 then 0 else d.w 3
/-- CHUNK_LOG2. -/
def CrcDesc.chunkLog (d : CrcDesc) : Nat := d.w 4 / 65536 % 256
/-- OP. -/
def CrcDesc.op (d : CrcDesc) : Nat := d.w 5 / 2 ^ 28
/-- ADDR_SRC. -/
def CrcDesc.addrSrc (d : CrcDesc) : Nat := d.w 5 / 2 ^ 26 % 4
/-- IRQ. -/
def CrcDesc.irq (d : CrcDesc) : Bool := bitOf (d.w 5) 25
/-- LAST. -/
def CrcDesc.last (d : CrcDesc) : Bool := bitOf (d.w 5) 24
/-- FOLD_S_LEN. -/
def CrcDesc.foldLen (d : CrcDesc) : Nat := d.w 5 / 2 ^ 20 % 8
/-- HALT, of a CHECK. -/
def CrcDesc.halt (d : CrcDesc) : Bool := bitOf (d.w 5) 19
/-- FOLD_ADDR. -/
def CrcDesc.foldAddr (d : CrcDesc) : Nat := d.w 6 + 2 ^ 32 * d.w 7
/-- FOLD_SEQ. -/
def CrcDesc.foldSeq (d : CrcDesc) : Nat := d.w 8 + 2 ^ 32 * d.w 9
/-- RES. -/
def CrcDesc.res (d : CrcDesc) : Nat := d.w 10 + 2 ^ 32 * (d.w 11 % 256)
/-- NEXT. -/
def CrcDesc.next (d : CrcDesc) : Nat := d.w 14 + 2 ^ 32 * (d.w 15 % 256)

/-- Chunks in a row (R411); the whole walk is one with CHUNK_LOG2 = 0. -/
def CrcDesc.perRow (d : CrcDesc) : Nat := if d.chunkLog = 0 then 1 else d.rowBytes / 2 ^ d.chunkLog

/-- Chunks of the walk. -/
def CrcDesc.chunks (d : CrcDesc) : Nat := if d.chunkLog = 0 then 1 else d.rows * d.perRow

/-- The span of source bytes. -/
def CrcDesc.span (d : CrcDesc) : Nat := (d.rows - 1) * d.stride + d.rowBytes

/-- E: bytes of a result entry (R411). -/
def CrcParams.entry (p : CrcParams) : Nat := if p.width ≤ 32 then 4 else 8

/-- R413: whether a descriptor is refused with BAD_DESC. A ROW_BYTES above its range of R410 counts as a reserved code
(DEDUCED, log entry 39). -/
def CrcDesc.bad (d : CrcDesc) (e : Nat) : Bool :=
  (d.op != 1 && d.op != 2) || d.addrSrc == 3 || 5 ≤ d.foldLen
    || !(d.chunkLog == 0 || (3 ≤ d.chunkLog && d.chunkLog ≤ 24))
    || d.w 1 / 256 != 0 || d.w 4 / 2 ^ 24 != 0 || bitOf (d.w 5) 23 || d.w 5 % 2 ^ 19 != 0 || d.w 11 / 256 != 0
    || d.w 12 != 0 || d.w 13 != 0 || d.w 14 % 64 != 0 || d.w 15 / 256 != 0
    || d.rows == 0 || d.rowBytes == 0 || 2 ^ 24 < d.rowBytes
    || (1 < d.rows && d.stride < d.rowBytes)
    || (d.chunkLog != 0 && d.rowBytes % 2 ^ d.chunkLog != 0)
    || decide (d.res < d.src + d.span ∧ d.src < d.res + e * d.chunks)

/-- R413: whether a descriptor is refused with RANGE: also where a COMPUTE would write its results through a side's range to
mirrored offsets (R34). -/
def State.crcRange (s : State) (d : CrcDesc) (e : Nat) : Bool :=
  let inside := fun (a len : Nat) => match region a with
    | .side _ _ | .mirror _ | .sram _ => s.installed a len
    | _ => false
  let shut := d.op == 1 && (match region d.res with | .side _ off => s.touchesMirrored off (e * d.chunks) | _ => false)
  !(inside d.src d.span && inside d.res (e * d.chunks) && (d.last || inside d.next 64)) || shut

/-- The pieces of source memory of chunk i, and the address and the offset its prefix folds (R409, R411). -/
def CrcDesc.chunkAt (d : CrcDesc) (i : Nat) : List (Nat × Nat) × Nat × Nat :=
  if d.chunkLog = 0 then ((List.range d.rows).map fun r => (d.src + r * d.stride, d.rowBytes), d.src, 0)
  else
    let r := i / d.perRow
    let c := i % d.perRow * 2 ^ d.chunkLog
    ([(d.src + r * d.stride + c, 2 ^ d.chunkLog)], d.src + r * d.stride + c, r * d.rowBytes + c)

/-- R409: the fold prefix of a chunk. -/
def CrcDesc.prefixOf (d : CrcDesc) (addr off : Nat) : List Byte :=
  (if d.addrSrc = 1 then leBytes 8 addr else if d.addrSrc = 2 then leBytes 8 ((d.foldAddr + off) % 2 ^ 64) else [])
    ++ leBytes (match d.foldLen with | 0 => 0 | 1 => 1 | 2 => 2 | 3 => 4 | _ => 8) d.foldSeq

/-- Bytes of several pieces of memory, in order; none when a read returns poison or an error. -/
def State.crcFetch (s : State) (w : World) (port : Nat) (l : List (Nat × Nat)) : Option (List Byte) × State :=
  l.foldl (fun p x =>
    match p.1 with
    | none => p
    | some bs =>
      let r := p.2.dmaRead w port x.1 x.2
      (r.1.map (bs ++ ·), r.2)) (some [], s)

/-- A chain ends in error. -/
def State.crcFail (s : State) (n code : Nat) : State :=
  let s := ((s.set (Reg.CRC_STATUS_BUSY n) 0).set (Reg.CRC_CTRL_GO n) 0).set (Reg.CRC_STATUS_ERR_CODE n) code
  s.crcEvent n (Reg.CRC_STATUS_ERR n) true

/-- R415: a chain ends. -/
def State.crcFinish (s : State) (n : Nat) : State :=
  ((s.set (Reg.CRC_STATUS_BUSY n) 0).set (Reg.CRC_CTRL_GO n) 0).crcEvent n (Reg.CRC_STATUS_DONE n) true

/-- R412: a CHECK chunk that differs. -/
def State.crcMismatch (s : State) (n i : Nat) : State :=
  let s := if s.get (Reg.CRC_MISMATCHES_COUNT n) = 0 then
      (s.set (Reg.CRC_FIRST_DESC_INDEX n) (s.crcU n).index).set (Reg.CRC_FIRST_INDEX_INDEX n) i
    else s
  (s.count (Reg.CRC_MISMATCHES_COUNT n)).crcEvent n (Reg.CRC_STATUS_MISMATCH n) false

/-- R411, R412, R416: one chunk of a descriptor: computed, and its entry written or compared. -/
def State.crcChunk (s : State) (n : Nat) (w : World) (d : CrcDesc) (i : Nat) : State :=
  if !s.crcBusy n || (s.crcU n).halted then s
  else
    let p := s.crcParams n
    let (pieces, addr, off) := d.chunkAt i
    let r := s.crcFetch w (crcPort n) pieces
    let s := r.2
    match r.1 with
    | none => s.crcFail n 4
    | some bs =>
      let v := crc p (d.prefixOf addr off ++ bs)
      let at_ := d.res + p.entry * i
      let close := fun (t : State) =>
        ((t.set (Reg.CRC_VALUE_LO_VALUE n) v).set (Reg.CRC_VALUE_HI_VALUE n) (v / 2 ^ 32)).count (Reg.CRC_CHUNKS_COUNT n)
      if d.op = 1 then close (s.dmaWrite w (crcPort n) at_ (leBytes p.entry v))
      else
        let r := s.dmaRead w (crcPort n) at_ p.entry
        let s := r.2
        match r.1 with
        | none => s.crcFail n 4
        | some e =>
          let s := close s
          if leNat e = v then s
          else
            let s := s.crcMismatch n i
            if d.halt then s.setCrcU n { s.crcU n with halted := true, cut := decide (i + 1 < d.chunks) } else s

/-- R410: the descriptor a unit is to take, read from memory. -/
def State.crcTake (s : State) (n : Nat) (w : World) : Option CrcDesc × State :=
  let r := s.dmaRead w (crcPort n) (s.crcU n).desc 64
  (r.1.map fun bs => { words := (List.range 16).map fun i => leAt bs (4 * i) 4 }, r.2)

/-- R213: whether a read of a descriptor's walk waits for a side's start. -/
def State.crcWaits (s : State) (d : CrcDesc) (entry : Nat) : Bool :=
  (List.range d.chunks).any fun i =>
    (d.chunkAt i).1.any (fun x => s.startWaits x.1 x.2) || (d.op == 2 && s.startWaits (d.res + entry * i) entry)

/-- R213, R411 to R413, R416: a descriptor whose OP is `op` is taken and its walk is done; one that is refused ends the chain. A
descriptor that cannot be read ends it with POISON (DEDUCED, log entry 39). -/
def State.crcRun (s : State) (n op : Nat) : State :=
  if !s.crcBusy n || (s.crcU n).done || s.startWaits (s.crcU n).desc 64 then s
  else
    let w := s.ownerWorld 0x19 n
    let r := s.crcTake n w
    let t := r.2
    match r.1 with
    | none => t.crcFail n 4
    | some d =>
      let e := (s.crcParams n).entry
      if d.bad e then t.crcFail n 2
      else if t.crcRange d e then t.crcFail n 3
      else if d.op ≠ op || s.crcWaits d e then s
      else
        let t := t.each (List.range d.chunks) fun i u => u.crcChunk n w d i
        t.setCrcU n { t.crcU n with done := true, irq := d.irq, last := d.last, next := d.next }

/-- CRC_COMPUTE. -/
def execCrcCompute (n : Fin 18) (s : State) : Host.Outcome State Fault Refusal := .next (s.crcRun n 1)

/-- CRC_CHECK. -/
def execCrcCheck (n : Fin 18) (s : State) : Host.Outcome State Fault Refusal := .next (s.crcRun n 2)

/-- R415: a descriptor completes; the next is fetched, or the chain ends. -/
def State.crcNext (s : State) (n : Nat) : State :=
  if !s.crcBusy n || !(s.crcU n).done then s
  else
    let r := s.crcU n
    let s := if r.irq && !r.cut then s.crcEvent n (Reg.CRC_STATUS_DESC_IRQ n) true else s
    if r.halted || r.last then s.crcFinish n
    else s.setCrcU n { desc := r.next, index := r.index + 1 }

/-- CRC_DESCRIPTOR_DONE. -/
def execCrcDescriptorDone (n : Fin 18) (s : State) : Host.Outcome State Fault Refusal := .next (s.crcNext n)

/-- R414: GO starts a chain, unless a parameter is bad. -/
def State.crcGo (s : State) (n : Nat) : State :=
  if !(s.crcParams n).good then
    (s.set (Reg.CRC_STATUS_ERR_CODE n) 1).crcEvent n (Reg.CRC_STATUS_ERR n) true
  else
    let s := (s.set (Reg.CRC_STATUS_BUSY n) 1).set (Reg.CRC_CTRL_GO n) 1
    let s := (s.set (Reg.CRC_CHUNKS_COUNT n) 0).set (Reg.CRC_MISMATCHES_COUNT n) 0
    s.setCrcU n { desc := s.get (Reg.CRC_DESC_LO_ADDR n) * 64 + 2 ^ 32 * s.get (Reg.CRC_DESC_HI_ADDR n) }

/-- R414, R417, R419: CRC_n_CTRL is written. -/
def State.crcCtrlWrite (s : State) (n : Nat) (v : Word) : State :=
  let busy := s.crcBusy n
  let go := bitOf v.toNat 0 && !bitOf v.toNat 1
  let test := bitOf v.toNat 2
  let s := if bitOf v.toNat 1 && busy then s.crcFail n 5 else s
  let s := if go && !busy then s.crcGo n else s
  let s := if test && !busy then s.set (Reg.CRC_CTRL_SELFTEST n) 1 else s
  if busy && (go || test) then s.crcEvent n (Reg.CRC_STATUS_WRITE_WHILE_ACTIVE n) false else s

/-- CRC_GO. -/
def execCrcGo (n : Fin 18) (w : World) (v : Word) (s : State) : Host.Outcome State Fault Refusal :=
  .next (s.asWriter w 0x19 n false (·.crcCtrlWrite n (withBit v 0)))

/-- CRC_ABORT. -/
def execCrcAbort (n : Fin 18) (w : World) (v : Word) (s : State) : Host.Outcome State Fault Refusal :=
  .next (s.asWriter w 0x19 n false (·.crcCtrlWrite n (withBit v 1)))

/-- CRC_SELFTEST. -/
def execCrcSelftest (n : Fin 18) (w : World) (v : Word) (s : State) : Host.Outcome State Fault Refusal :=
  .next (s.asWriter w 0x19 n false (·.crcCtrlWrite n (withBit v 2)))

/-- R414: CFG, POLY, INIT, XOROUT or DESC is written: not while the unit runs. -/
def State.crcCfgWrite (s : State) (n a : Nat) (v : Word) : State :=
  if s.crcBusy n then s.crcEvent n (Reg.CRC_STATUS_WRITE_WHILE_ACTIVE n) false else s.plainWrite a v

/-- R419: the self-test ends; `ok` says that the unit's five values match. -/
def execCrcSelftestDone (n : Fin 18) (ok : Bool) (s : State) : Host.Outcome State Fault Refusal :=
  .next (if s.bit (Reg.CRC_CTRL_SELFTEST n) then
      ((s.set (Reg.CRC_CTRL_SELFTEST n) 0).set (Reg.CRC_STATUS_ST_PASS n) (b2n ok)).crcEvent n (Reg.CRC_STATUS_ST_DONE n) true
    else s)

end Sys2Proof.Machine
end

