-- ==== Sys2Proof/Machine/Drum.lean ====
section
/-! DEFINITION. The drumbeat's registers and sources, and the breach counters (spec/01_planes_and_drumbeat.md). -/

namespace Sys2Proof.Machine

/-- R19: whether any screen, touch engine, audio port or haptic channel runs. A channel in WAIT counts, since its effect waits only
for budget (DEDUCED, log entry 10). -/
def State.drumUsersRun (s : State) : Bool :=
  (List.range 8).any (fun n => s.bit (Reg.SCREEN_STATUS_RUNNING n))
  || (List.range 8).any (fun n => s.bit (Reg.TOUCH_CTRL_EN n))
  || s.bit Reg.AUD_STATUS_RUNNING || s.bit (Reg.TDM_STATUS_RUNNING 0) || s.bit (Reg.TDM_STATUS_RUNNING 1)
  || (List.range 16).any (fun n => let st := s.get (Reg.HC_STATUS_STATE n); 1 ≤ st && st ≤ 3)

/-- An event of DRUM_0_STATUS (source 122). -/
def State.drumEvent (s : State) (flag : Fld) : State := s.event flag Reg.DRUM_STATUS_EVENTS 122

/-- SOURCE as it is treated: 1 DRUM_IN, all else the internal divider (DRUM_0_CTRL). -/
def drumSource (v : Word) : Nat := if getBits v 0 2 = 1 then 1 else 0

/-- R17: the grid of ideal instants starts again at the latest beat. -/
def State.drumGridRestart (s : State) : State :=
  { s with drum := { s.drum with gridBeat := s.drum.gridBeat.map (fun _ => 0) } }

/-- R19, R24: a performed write of DRUM_0_CTRL sets OUT_EN and SOURCE, leaves holdover (whose end is an end of input 3's condition,
R398), and starts the grid again where SOURCE changes to the internal divider (R17). What was counted of DRUM_IN under R22 and R23
starts anew where SOURCE changes or holdover ends. -/
def State.drumCtrlWrite (s : State) (v : Word) : State :=
  if s.drumUsersRun then s.drumEvent Reg.DRUM_STATUS_WRITE_WHILE_ACTIVE
  else
    let old := drumSource (s.reg Reg.DRUM_CTRL)
    let new := drumSource v
    let held := s.bit Reg.DRUM_STATUS_HOLDOVER
    let s := (s.setReg Reg.DRUM_CTRL (v &&& 7)).when held fun t => (t.set Reg.DRUM_STATUS_HOLDOVER 0).liveFell 3
    let s := s.set Reg.DRUM_STATUS_ACTIVE_SOURCE new
    let s := if old = new ∧ held = false then s else { s with drum := { s.drum with missed := 0, edgeDue := false } }
    if old = 1 ∧ new = 0 then s.drumGridRestart else s

/-- R19, R20: DIV_INT holds the written value; the divider does not take it yet. -/
def State.drumDivIntWrite (s : State) (v : Word) : State :=
  if s.drumUsersRun then s.drumEvent Reg.DRUM_STATUS_WRITE_WHILE_ACTIVE
  else s.set Reg.DRUM_DIV_INT_INT v.toNat

/-- R20: whether a setting's rate lies within 100 Hz to 480 Hz and its fraction is proper. -/
def divSettingOk (int num den : Nat) : Bool :=
  den != 0 && num < den && 25000000 * den ≤ 480 * (int * den + num) && 100 * (int * den + num) ≤ 25000000 * den

/-- R20: DIV_FRAC makes the divider take the written pair with the INT held, or both registers return to the setting
in use and CFG_ERR is set. -/
def State.drumDivFracWrite (s : State) (v : Word) : State :=
  if s.drumUsersRun then s.drumEvent Reg.DRUM_STATUS_WRITE_WHILE_ACTIVE
  else
    let int := s.get Reg.DRUM_DIV_INT_INT
    let den := getBits v 16 16
    let num := getBits v 0 16
    if divSettingOk int num den then
      ({ s with drum := { s.drum with int := int, num := num, den := den } }.setReg Reg.DRUM_DIV_FRAC v).drumGridRestart
    else
      (((s.set Reg.DRUM_DIV_INT_INT s.drum.int).set Reg.DRUM_DIV_FRAC_DEN s.drum.den).set
        Reg.DRUM_DIV_FRAC_NUM s.drum.num).drumEvent Reg.DRUM_STATUS_CFG_ERR

/-- R22: whether an edge `ns` nanoseconds after the previous beat comes between 0.999 and 1.001 of the programmed
period of (int + num/den) periods of 40 ns. -/
def DrumState.qualifies (d : DrumState) (ns : Nat) : Bool :=
  let period := 40 * (d.int * d.den + d.num)
  999 * period ≤ 1000 * d.den * ns && 1000 * d.den * ns ≤ 1001 * period

/-- R17: 25 MHz reference edges from the start of the grid to the ideal instant `k`, rounded up to an edge. -/
def DrumState.edgeOf (d : DrumState) (k : Nat) : Nat := ceilDiv (k * (d.int * d.den + d.num)) d.den

/-- R24: holdover: the beats come from the divider, DRUM_IN_LOST is raised, and the grid starts again. -/
def State.drumLost (s : State) : State :=
  let s := (s.set Reg.DRUM_STATUS_HOLDOVER 1).set Reg.DRUM_STATUS_ACTIVE_SOURCE 0
  ((s.drumEvent Reg.DRUM_STATUS_IN_LOST).raiseFault 3).drumGridRestart

/-- DRUM_0_CTRL is written (R19, R24). -/
def execDrumCtrlWrite (w : World) (v : Word) (s : State) : Host.Outcome State Fault Refusal :=
  .next (s.asWriter w 0x01 0 false (·.drumCtrlWrite v))

/-- DRUM_0_DIV_INT is written (R19, R20). -/
def execDrumDivIntWrite (w : World) (v : Word) (s : State) : Host.Outcome State Fault Refusal :=
  .next (s.asWriter w 0x01 0 false (·.drumDivIntWrite v))

/-- DRUM_0_DIV_FRAC is written (R19, R20). -/
def execDrumDivFracWrite (w : World) (v : Word) (s : State) : Host.Outcome State Fault Refusal :=
  .next (s.asWriter w 0x01 0 false (·.drumDivFracWrite v))

/-- R22, R23: a rising edge on DRUM_IN `sinceBeatNs` after the previous beat; with DRUM_IN in use a qualifying edge
makes a beat fall 160 ns later, and any other edge is ignored. -/
def State.drumInEdge (s : State) (sinceBeatNs : Nat) : State :=
  if s.bit Reg.DRUM_STATUS_ACTIVE_SOURCE && s.drum.qualifies sinceBeatNs then
    { s with drum := { s.drum with edgeDue := true, edgeNs := sinceBeatNs, missed := 0 } }
  else s

/-- An edge comes on DRUM_IN (R22, R23). -/
def execDrumInEdge (sinceBeatNs : Nat) (s : State) : Host.Outcome State Fault Refusal :=
  .next (s.drumInEdge sinceBeatNs)

/-- R40: SYS_0_BREACH_CLR clears the counters its bits name and sets their LAST_PORT to 0x3F. -/
def State.breachClr (s : State) (v : Word) : State :=
  s.each [2, 3, 4, 5, 6, 7, 8, 9, 10] (fun k t =>
    t.when (bitOf v.toNat k) (fun t => (t.set (Reg.SYS_BREACH_COUNT k) 0).set (Reg.SYS_BREACH_LAST_PORT k) 0x3F))

/-- SYS_0_BREACH_CLR is written (R40). -/
def execBreachClr (w : World) (v : Word) (s : State) : Host.Outcome State Fault Refusal :=
  .next (s.asWriter w 0x00 0 false (·.breachClr v))

end Sys2Proof.Machine
end

