-- ==== Sys2Proof/Machine/Haptics.lean ====
section
/-! DEFINITION. The haptic unit's commands (spec/09_haptics.md). -/

namespace Sys2Proof.Machine

/-- An event of HAP_0_STATUS: source 79. -/
def State.hapEvent (s : State) (flag : Fld) : State := s.event flag Reg.HAP_STATUS_EVENTS 79

/-- A haptic slot boundary falls (R30, R298, R302). -/
def execHapticSlotBoundary (s : State) : Host.Outcome State Fault Refusal := .next s.hapSlot

/-- R292: HAP_0_CTRL is written; with HV_ON = 1 HV_EN is high unless a C3 reaction holds or the device is in anchor
mode. -/
def State.hvOn (s : State) (v : Word) : State :=
  let s := s.plainWrite Reg.HAP_CTRL (withBit v 0)
  if s.c3 || s.bit Reg.BOOT_STATUS_ANCHOR then s else s.set Reg.HAP_STATUS_HV_LIVE 1

/-- R292: HV_ON = 0 takes every channel to IDLE with both pins low and discards the triggers it held (log entry 20); a
channel in FAULT stays there (R303). -/
def State.hvOff (s : State) (v : Word) : State :=
  let s := s.plainWrite Reg.HAP_CTRL (withoutBit v 0)
  s.each hapChannels fun n t =>
    if t.hcState n = 4 then t
    else
      let t := (t.hapIdle n).hapDropHeld n (fun _ => true)
      t.set (Reg.HC_STATUS_STATE n) 0

/-- HAP_0_CTRL is written with HV_ON = 1. -/
def execHvOn (w : World) (v : Word) (s : State) : Host.Outcome State Fault Refusal :=
  .next (s.asWriter w 0x12 0 false (·.hvOn v))

/-- HAP_0_CTRL is written with HV_ON = 0. -/
def execHvOff (w : World) (v : Word) (s : State) : Host.Outcome State Fault Refusal :=
  .next (s.asWriter w 0x12 0 false (·.hvOff v))

/-- R292: HV_EN has been high for HV_SETTLE. -/
def execHvReady (s : State) : Host.Outcome State Fault Refusal :=
  .next (if s.bit Reg.HAP_STATUS_HV_LIVE then s.set Reg.HAP_STATUS_HV_READY 1 else s)

/-- R292: 1 ms after HV_ON was cleared HV_EN falls. -/
def execHvEnFall (s : State) : Host.Outcome State Fault Refusal :=
  .next (if s.bit Reg.HAP_CTRL_HV_ON then s else s.hvFall)

/-- R213, R293: 1,024 bytes are read into the shadow store through port 25, or the read waits for a side's start. -/
def State.hapLibRead (s : State) : State :=
  let a := 256 * s.get Reg.HAP_LIB_ADDR_ADDR
  if s.startWaits a 1024 then s
  else
    let r := s.dmaRead (s.ownerWorld 0x12 0) 25 a 1024
    { r.2 with hapLib := some r.1 }

/-- R293: LIB_CMD.LOAD starts a load. -/
def State.hapLibLoad (s : State) (v : Word) : State :=
  if bitOf v.toNat 0 && !s.bit Reg.HAP_STATUS_LIB_BUSY then
    (s.hapLibRead.set Reg.HAP_STATUS_LIB_BUSY 1).set Reg.HAP_LIB_CMD_LOAD 1
  else s

/-- HAP_0_LIB_CMD is written. -/
def execHapticLibLoad (w : World) (v : Word) (s : State) : Host.Outcome State Fault Refusal :=
  .next (s.asWriter w 0x12 0 false (·.hapLibLoad v))

/-- R293, R294: the words of a library become active. -/
def State.hapLibTake (s : State) (bs : List Byte) : State :=
  s.each (List.range 256) fun i t =>
    t.setReg (Reg.HAP_LIB (i / 4) (i % 4)) (BitVec.ofNat 32 (leNat ((bs.drop (4 * i)).take 4)))

/-- R293: the load ends: a library whose check value is right becomes active in one clock; any other is rejected. A read that
waited is made first, and the load does not end while it waits. -/
def State.hapLibDone (s : State) : State :=
  let s := s.when (s.bit Reg.HAP_STATUS_LIB_BUSY && s.hapLib.isNone) (·.hapLibRead)
  match s.hapLib with
  | none => s
  | some r =>
    let s := ({ s with hapLib := none }.set Reg.HAP_STATUS_LIB_BUSY 0).set Reg.HAP_LIB_CMD_LOAD 0
    let s := match r with
      | some bs =>
        if crc32c bs = s.get Reg.HAP_LIB_CRC_CRC then (s.hapLibTake bs).set Reg.HAP_STATUS_LIB_VALID 1
        else s.hapEvent Reg.HAP_STATUS_LIB_REJECTED
      | none => s.hapEvent Reg.HAP_STATUS_LIB_REJECTED
    s.hapEvent Reg.HAP_STATUS_LIB_DONE

/-- A library load ends. -/
def execHapticLibLoadDone (s : State) : Host.Outcome State Fault Refusal := .next s.hapLibDone

/-- R290, R295 to R297, R300, R355: a PWM period of a channel starts; a gated channel, whose clock is stopped, has none. -/
def execHapticPwmPeriod (n : Fin 16) (s : State) : Host.Outcome State Fault Refusal :=
  .next (if s.isGated 0x11 n then s else if s.hcState n = 2 then s.hapDrivePeriod n else if s.hcState n = 3 then s.hapBrakePeriod n
    else s.hapQuiet n)

/-- R303: HAP_SENSE: the channel enters FAULT and the fault is raised. -/
def State.hapSense (s : State) (n : Nat) : State := ((s.hapFault n).hcEvent n (Reg.HC_STATUS_SENSE_FAULT n)).raiseFault (192 + n)

/-- R291, R303: the ADC samples HAP_n_SNS; the fourth consecutive sample at a stop of the range raises HAP_SENSE. -/
def State.hapAdc (s : State) (n : Nat) (code : Nat) : State :=
  if s.isGated 0x11 n then s
  else
  let s := s.set (Reg.HC_SENSE_CODE n) code
  if !s.hcRuns n then s
  else
    let stops := if code ≤ 16 ∨ 4079 ≤ code then (s.hc n).stops + 1 else 0
    let s := s.setHc n { s.hc n with stops := stops }
    if 4 ≤ stops then s.hapSense n
    else s.hapSample n ((code : Int) - 2048)

/-- A sample of a channel's sense input. -/
def execHapticAdcSample (n : Fin 16) (code : BitVec 12) (s : State) : Host.Outcome State Fault Refusal :=
  .next (s.hapAdc n code.toNat)

/-- R297: 8 ms have passed since braking began. -/
def execBrakeTimeout (n : Fin 16) (s : State) : Host.Outcome State Fault Refusal :=
  .next (if s.hcState n = 3 && !s.isGated 0x11 n then s.hapIdle n else s)

/-- R298: whether an edge of pin k to a level qualifies under EDGE. -/
def State.trigEdge (s : State) (k : Nat) (rising : Bool) : Bool :=
  s.bit (Reg.HAP_TRIG_EN k) &&
    (match s.get (Reg.HAP_TRIG_EDGE k) with | 1 => !rising | 2 => true | _ => rising)

/-- R298, R301, R302: pins hold new levels for 1 µs in one clock: each channel takes the lowest of its pins, the lower channel starts
first, and every other trigger that reached a channel in that clock is discarded and counted: `beaten` names the channels of the
cues and doorbells among them that no command of their own reports as beaten. -/
def State.hapTrigEdges (s : State) (edges levels : Nat) (beaten : List (Fin 16)) : State :=
  let hit := (List.range 4).filter fun k => bitOf edges k && s.trigEdge k (bitOf levels k)
  let chan := fun k => s.get (Reg.HAP_TRIG_HC k)
  let first := fun k => !hit.any (fun j => decide (j < k) && chan j == chan k)
  let wins := hapChannels.filterMap fun c => (hit.filter first).find? (chan · == c)
  let s := s.each wins fun k t => t.hapUrgent (chan k) (t.get (Reg.HAP_TRIG_EFFECT k))
  let s := s.each (hit.filter (fun k => !first k)) fun k t => t.hapLose (chan k)
  s.each (beaten.filter (fun n => hit.any (fun k => chan k == n.val))) fun n t => t.hapLose n

/-- Edges come on the trigger pins. -/
def execHapTrigEdge (edges levels : BitVec 4) (beaten : List (Fin 16)) (s : State) : Host.Outcome State Fault Refusal :=
  .next (s.hapTrigEdges edges.toNat levels.toNat beaten)

/-- The channel a session owns under a handle. -/
def State.hapHandle (s : State) (session handle : Nat) : Option Nat :=
  firstBelow 16 fun n => s.bit (Reg.HC_OWNER_VALID n) && s.get (Reg.HC_OWNER_SESSION n) == session
    && s.get (Reg.HC_OWNER_HANDLE n) == handle

/-- R58, R301: DB_HAPTIC of a session's page is written; a doorbell that loses in its clock is discarded. -/
def State.hapDoorbell (s : State) (session : Nat) (beaten : Bool) (missed : Nat) (v : Word) : State :=
  match s.hapHandle session (getBits v 0 2) with
  | none => s.pageEvent session (Reg.SESS_PAGE_STATUS_HANDLE_ERR session)
  | some n =>
    if beaten then s.hapLose n
    else s.hapBell n { effect := getBits v 8 6, urgent := bitOf v.toNat 16 && s.bit (Reg.SESS_CTRL_HAP_URGENT_OK session),
                       session := some session, late := missed }

/-- A session's DB_HAPTIC is written. -/
def execHapticDoorbell (b : Bell) (v : Word) (s : State) : Host.Outcome State Fault Refusal :=
  .next (s.hapDoorbell b.session b.beaten b.missed v)

end Sys2Proof.Machine
end

