-- ==== Sys2Proof/Machine/Audio.lean ====
section
/-! DEFINITION. The commands of the audio unit, the TDM ports and the bell generator (R305 to R328). -/

namespace Sys2Proof.Machine

/-- R29: the divider settings at which the audio unit starts: the integer part, numerator and denominator of the table. -/
def audioRates : List (Nat × Nat × Nat) :=
  [(250000, 0, 1), (229166, 2, 3), (208333, 1, 3), (187500, 0, 1), (166666, 2, 3), (145833, 1, 3), (125000, 0, 1),
   (104166, 2, 3), (83333, 1, 3), (62500, 0, 1)]

/-- Whether the divider in use is one of them; a whole number of periods has no fraction, whatever its denominator
(log entry 32). -/
def DrumState.audioRate (d : DrumState) : Bool :=
  audioRates.any fun r => r.1 == d.int && (if r.2.1 = 0 then d.num == 0 else d.num == r.2.1 && d.den == r.2.2)

/-- A write to AUD_0_CTRL (R305, R312). A running unit that is disabled sends its block to the end and stops at the next block
boundary (R11; DESIGN CHOICE, log entry 98). -/
def State.audCtrlWrite (s : State) (v : Word) : State :=
  let was := s.bit Reg.AUD_CTRL_EN
  let en := bitOf v.toNat 0
  if !was && en then
    if !s.drum.audioRate then s.audRefuse 1
    else if !s.installedRam s.stageAddr 15360 then s.audRefuse 2
    else
      let s := s.set Reg.AUD_CTRL_EN 1
      { s with aud := { s.aud with startDue := true } }
  else if was && !en then
    if s.bit (Reg.TDM_CTRL_EN 0) || s.bit (Reg.TDM_CTRL_EN 1) then s.audEvent Reg.AUD_STATUS_WRITE_WHILE_ACTIVE
    else
      let s := s.set Reg.AUD_CTRL_EN 0
      { s with aud := { s.aud with startDue := false, stopDue := s.bit Reg.AUD_STATUS_RUNNING } }
  else s

/-- AUDIO_ENABLE. -/
def execAudioEnable (w : World) (v : Word) (s : State) : Host.Outcome State Fault Refusal :=
  .next (s.asWriter w 0x13 0 false (·.audCtrlWrite (withBit v 0)))

/-- AUDIO_DISABLE. -/
def execAudioDisable (w : World) (v : Word) (s : State) : Host.Outcome State Fault Refusal :=
  .next (s.asWriter w 0x13 0 false (·.audCtrlWrite (withoutBit v 0)))

/-- R29, R305, R317: an accepted start takes effect at a beat, with every filter's state clear. A divider written since the start was
accepted is checked again there, and a rate outside the table refuses the start as at the write (DEDUCED, log entry 87). A run
that was to stop at the same boundary stops first. -/
def State.audioBeat (s : State) : State :=
  if s.aud.startDue && !s.drum.audioRate then
    ({ s with aud := { s.aud with startDue := false } }.set Reg.AUD_CTRL_EN 0).audRefuse 1
  else if s.aud.startDue then
    let s := s.when s.aud.stopDue (·.audStop)
    ({ s with aud := { s.aud with
        startDue := false, stage := s.stageAddr, block := 0, hpf := [], eq := [], outs := [], last := [], staged := false, silent := true,
        late := [] } }).set Reg.AUD_STATUS_RUNNING 1
  else s

/-- AUDIO_BLOCK: a block boundary. `late` names the streams whose samples have not all returned 500 µs later, and
`stagedLate` says that the block staged last is not wholly staged. -/
def execAudioBlock (late : List (Fin 24)) (stagedLate : Bool) (s : State) : Host.Outcome State Fault Refusal :=
  .next (s.audioBlock (late.map (·.val)) stagedLate)

/-- R308: a stream whose samples have not returned in time: the breach of its block. -/
def State.streamDeadline (s : State) (k : Nat) : State :=
  if s.aud.late.contains k then
    let s := { s with aud := { s.aud with late := s.aud.late.filter (· != k) } }
    (s.breach { rank := 5, yielded := 5, port := some 24, mag := 40, unit := 0x13, inst := 0 }).count
      Reg.AUD_COUNTS_LATE_STREAMS
  else s

/-- AUDIO_STREAM_DEADLINE. -/
def execAudioStreamDeadline (k : Fin 24) (s : State) : Host.Outcome State Fault Refusal := .next (s.streamDeadline k)

/-- A write to TDM_n_CTRL (R312). A running port that is disabled stops at the next block boundary (R11; DESIGN CHOICE, log entry
98), and none is enabled while the unit is about to stop. -/
def State.tdmCtrlWrite (s : State) (n : Nat) (v : Word) : State :=
  let a := Reg.TDM_CTRL n
  let was := s.bit (Reg.TDM_CTRL_EN n)
  let en := bitOf v.toNat 0
  if was && !s.onlyChanges a 1 v then s.tdmEvent n (Reg.TDM_STATUS_WRITE_WHILE_ACTIVE n)
  else if !was && en && (!s.bit Reg.AUD_STATUS_RUNNING || s.aud.stopDue) then
    (s.set (Reg.TDM_STATUS_ERR_CODE n) 3).tdmEvent n (Reg.TDM_STATUS_CFG_ERR n)
  else s.plainWrite a v

/-- TDM_ENABLE. -/
def execTdmEnable (n : Fin 2) (w : World) (v : Word) (s : State) : Host.Outcome State Fault Refusal :=
  .next (s.asWriter w 0x14 n (s.tdmSecure n) (·.tdmCtrlWrite n (withBit v 0)))

/-- TDM_DISABLE. -/
def execTdmDisable (n : Fin 2) (w : World) (v : Word) (s : State) : Host.Outcome State Fault Refusal :=
  .next (s.asWriter w 0x14 n (s.tdmSecure n) (·.tdmCtrlWrite n (withoutBit v 0)))

/-- R320: what a direct route sends in port frame f: its input slot of frame f − 3, with the gain of its node. -/
def State.routeSample (s : State) (frame input output : Nat) : Int :=
  let h := (s.tdm (input / 16)).hist.find? fun p => p.1 + 3 == frame
  let x := match h with | some p => p.2.getD (input % 16) 0 | none => 0
  scaleSample x (gainLinear (gainCode (s.node output (24 + input)).code))

/-- What a TDM port sends in a slot of a frame: a direct route's sample, or the block's staged word (R309, R320, R328). -/
def State.tdmSlot (s : State) (n k j frame : Nat) : Word × State :=
  match s.aud.routes.find? (fun r => r.2.2 == 16 * n + k) with
  | some (_, i, o) => (if s.aud.quiet then 0 else BitVec.ofNat 32 (toBits 24 (s.routeSample frame i o) * 256), s)
  | none => s.sentWord (16 * n + k) j

/-- R311, R320: a port frame: its slots are received, and those its TX_MASK names are sent. -/
def State.tdmFrame (s : State) (n : Nat) (din : List Word) : State :=
  let t := s.tdm n
  if !s.bit (Reg.TDM_STATUS_RUNNING n) || !decide (t.frame < 40) then s
  else
    let frame := 40 * s.aud.block + t.frame
    let rx := (List.range 16).map fun k => if bitOf t.rxMask k then wordSample (din.getD k 0).toNat else 0
    let (dout, s) := (List.range 16).foldl (fun (p : List (Nat × Word) × State) k =>
      if bitOf t.txMask k then
        let (w, u) := p.2.tdmSlot n k t.frame frame
        (p.1 ++ [(k, w)], u)
      else p) ([], s)
    s.setTdm n { t with frame := t.frame + 1, rx := rx :: t.rx, hist := ((frame, rx) :: t.hist).take 4, dout := dout }

/-- TDM_FRAME: `din` is what the slots carry on DIN. -/
def execTdmFrame (n : Fin 2) (din : List Word) (s : State) : Host.Outcome State Fault Refusal := .next (s.tdmFrame n din)

/-- R315, R316: a node's code is written: the change waits for a zero crossing, and a change that waits already keeps its
deadline. -/
def State.nodeWrite (s : State) (o i : Nat) (v : Word) : State :=
  let nd := s.node o i
  let s := s.set (Reg.AUD_NODE_CODE o i) v.toNat
  if nd.wait.isNone && s.get (Reg.AUD_NODE_CODE o i) == nd.code then s
  else (s.setNode o i { nd with wait := some (nd.wait.getD 0) }).set (Reg.AUD_NODE_PENDING o i) 1

/-- NODE_WRITE. -/
def execNodeWrite (o : Fin 48) (i : Fin 64) (w : World) (v : Word) (s : State) : Host.Outcome State Fault Refusal :=
  .next (s.asWriter w 0x13 0 (s.nodeSecure o i) (·.nodeWrite o i v))

/-- R315: the interval of a pending change has passed: the code takes effect. -/
def State.nodeTimeout (s : State) (o i : Nat) : State :=
  match (s.node o i).wait with
  | some w =>
    if s.zcSamples ≤ w then
      (s.setNode o i { code := s.get (Reg.AUD_NODE_CODE o i), wait := none }).set (Reg.AUD_NODE_PENDING o i) 0
    else s
  | none => s

/-- NODE_GAIN_TIMEOUT: within a block the change falls at its own sample (AUDIO_BLOCK); here a change whose interval is
over already, as when ZC_TIMEOUT was lowered. -/
def execNodeGainTimeout (o : Fin 48) (i : Fin 64) (s : State) : Host.Outcome State Fault Refusal := .next (s.nodeTimeout o i)

/-- EQ_SWAP: a write to EQ_o_CTRL; the banks change places at the next block boundary (R319). -/
def execEqSwap (o : Fin 48) (w : World) (v : Word) (s : State) : Host.Outcome State Fault Refusal :=
  .next (s.asWriter w 0x13 0 (s.outProtected o) (·.plainWrite (Reg.AUD_EQ_CTRL o) (withBit v 1)))

/-- R321: a write to DIRECT_r. -/
def State.directWrite (s : State) (r : Nat) (v : Word) : State :=
  let o := getBits v 8 5
  if bitOf v.toNat 31 && (s.outProtected o || (List.range 8).any (fun q =>
      q != r && s.bit (Reg.AUD_DIRECT_EN q) && s.get (Reg.AUD_DIRECT_OUT q) == o)) then s.audRefuse 4
  else s.plainWrite (Reg.AUD_DIRECT r) v

/-- DIRECT_ROUTE_ENABLE. -/
def execDirectRouteEnable (r : Fin 8) (w : World) (v : Word) (s : State) : Host.Outcome State Fault Refusal :=
  .next (s.asWriter w 0x13 0 false (·.directWrite r (withBit v 31)))

/-- A write to CTRL_v of the bell: SOUND starts the voice in the next block and STOP ends it there (R324). SOUND itself reads 1
while the voice is SOUNDING, not before. -/
def State.bellCtrlWrite (s : State) (v : Nat) (x : Word) : State :=
  let s := (s.plainWrite (Reg.BELL_CTRL v) x).set (Reg.BELL_CTRL_SOUND v) (s.get (Reg.BELL_CTRL_SOUND v))
  let s := if bitOf x.toNat 0 then s.setVoice v { s.voice v with startDue := true } else s
  if bitOf x.toNat 1 then s.setVoice v { s.voice v with stopDue := true } else s

/-- BELL_SOUND. -/
def execBellSound (v : Fin 4) (w : World) (x : Word) (s : State) : Host.Outcome State Fault Refusal :=
  .next (s.asWriter w 0x15 0 true (·.bellCtrlWrite v (withBit x 0)))

/-- BELL_STOP. -/
def execBellStop (v : Fin 4) (w : World) (x : Word) (s : State) : Host.Outcome State Fault Refusal :=
  .next (s.asWriter w 0x15 0 true (·.bellCtrlWrite v (withBit x 1)))

/-- BELL_CADENCE: a period of a voice whose samples are over ends (R324); within a block it falls at its own sample. -/
def execBellCadence (v : Fin 4) (s : State) : Host.Outcome State Fault Refusal := .next (s.cadenceEnd v)

end Sys2Proof.Machine
end

