-- ==== Sys2Proof/Machine/Layers.lean ====
section
/-! DEFINITION. The commands of layers and video inputs: binding, commits, table loads and the CSI-2 receiver
(spec/04_layers_and_scaling.md). -/

namespace Sys2Proof.Machine

/-! ### Layers -/

/-- R108: whether a write of LAYER_n_BIND with value v is refused. A locked register takes no field, so that a write of it makes no
binding that could clash. -/
def State.bindRefused (s : State) (n : Nat) (v : Word) : Bool :=
  let locked := s.locked (Reg.LAYER_BIND n)
  s.bit (Reg.LAYER_ACT_CTRL_EN n) || s.layPending n
    || (!locked && bitOf v.toNat 8 && allLayers.any fun m =>
        m != n && s.bit (Reg.LAYER_BIND_VALID m) && s.get (Reg.LAYER_BIND_SCREEN m) == getBits v 0 3
          && s.get (Reg.LAYER_BIND_Z m) == getBits v 4 4)
    || (!locked && bitOf v.toNat 12 && allLayers.any fun m =>
        m != n && s.bit (Reg.LAYER_BIND_VIN_EN m) && s.get (Reg.LAYER_BIND_VIN m) == getBits v 10 2)

/-- R108: LAYER_n_BIND is written. A refused write leaves every field, LOCK among them. -/
def State.bindWrite (s : State) (n : Nat) (v : Word) : State :=
  if s.bindRefused n v then (s.set (Reg.LAYER_BIND_REFUSED n) 1).count (Reg.LAYER_BIND_EVENTS n)
  else s.plainWrite (Reg.LAYER_BIND n) v

/-- LAYER_n_BIND is written (R107, R108, R148). -/
def execLayerBindWrite (n : Fin 64) (w : World) (v : Word) (s : State) : Host.Outcome State Fault Refusal :=
  .next (s.asWriter w 0x06 n.val false (·.bindWrite n.val v))

/-- LAYER_n_COMMIT is written with GO = 1 (R122, R123). -/
def execLayerCommitGo (d : LayerDoor) (v : Word) (s : State) : Host.Outcome State Fault Refusal :=
  .next (s.throughDoor d fun n t => t.layCommit n (withBit v 0))

/-- LAYER_n_COMMIT is written with CANCEL = 1 (R122, R124). -/
def execLayerCommitCancel (d : LayerDoor) (v : Word) (s : State) : Host.Outcome State Fault Refusal :=
  .next (s.throughDoor d fun n t => t.layCommit n (withBit v 1))

/-- The tables of a pending commit have been read (R128, R129, R141, R142, R172, R175). -/
def execTableLoadDone (o : TableOwner) (s : State) : Host.Outcome State Fault Refusal :=
  .next (match o with
    | .layer n => s.layTables n.val
    | .prot n => s.protTables n.val)

/-! ### Video inputs (R144 to R148) -/

/-- An event of VIN_n_STATUS: source 55 + n. -/
def State.vinEvent (s : State) (n : Nat) (flag : Fld) : State := s.event flag (Reg.VIN_STATUS_EVENTS n) (55 + n)

/-- R144: whether EN = 1 in a write of VIN_n_CTRL is refused. -/
def State.vinRefused (s : State) (n : Nat) (v : Word) : Bool :=
  let w := s.get (Reg.VIN_SIZE_W n)
  let h := s.get (Reg.VIN_SIZE_H n)
  let rgb := bitOf v.toNat 8
  let stride := s.get (Reg.VIN_STRIDE_STRIDE n) * 64
  decide (w < 2 ∨ 4096 < w ∨ h < 1 ∨ 2880 < h) || (!rgb && w % 2 == 1)
    || decide (stride < (if rgb then 4 else 2) * w)
    || (List.range 3).any fun k =>
        !s.installedRam (256 * s.get (Reg.VIN_BUF_ADDR n k)) (h * stride)

/-- R144, R145: VIN_n_CTRL is written: while the receiver runs EN alone may change; EN = 1 passes its checks or the write is
refused. EN = 0 drops the frame being received. A refused write writes nothing (DESIGN CHOICE, log entry 105). -/
def State.vinCtrlWrite (s : State) (n : Nat) (v : Word) : State :=
  let a := Reg.VIN_CTRL n
  if s.bit (Reg.VIN_CTRL_EN n) then
    if !s.onlyChanges a 1 v then s.vinEvent n (Reg.VIN_STATUS_WRITE_WHILE_ACTIVE n)
    else if bitOf v.toNat 0 then s
    else (s.plainWrite a v).setVin n {}
  else if bitOf v.toNat 0 && s.vinRefused n v then s.vinEvent n (Reg.VIN_STATUS_CFG_ERR n)
  else s.plainWrite a v

/-- VIN_n_CTRL is written with EN = 1 (R144, R145). -/
def execVinEnable (n : Fin 4) (w : World) (v : Word) (s : State) : Host.Outcome State Fault Refusal :=
  .next (s.asWriter w 0x09 n.val false (·.vinCtrlWrite n.val (withBit v 0)))

/-- R146: a frame is discarded: each of its causes is flagged, and it counts once. -/
def State.vinDiscard (s : State) (n : Nat) : State :=
  let r := s.vin n
  let s := s.when r.eccBad fun s => s.vinEvent n (Reg.VIN_STATUS_ECC_ERR n)
  let s := s.when r.crcBad fun s => s.vinEvent n (Reg.VIN_STATUS_CRC_ERR n)
  let s := s.when r.sizeBad fun s => s.vinEvent n (Reg.VIN_STATUS_SIZE_ERR n)
  let s := s.when r.late fun s => s.vinEvent n (Reg.VIN_STATUS_LATE n)
  (s.count (Reg.VIN_DISCARDS_ERRORED n)).setVin n {}

/-- The layer a video input is bound to (R108, R148). -/
def State.vinLayer (s : State) (n : Nat) : Option Nat :=
  firstBelow 64 fun l => s.bit (Reg.LAYER_BIND_VIN_EN l) && s.get (Reg.LAYER_BIND_VIN l) == n

/-- R146: the buffers that are neither the latest nor shown by the bound layer. -/
def State.vinFree (s : State) (n : Nat) : List Nat :=
  let shown := (s.vinLayer n).bind fun l => (s.lay l).vinShown.map (·.buf)
  [0, 1, 2].filter fun k => k != s.get (Reg.VIN_STATUS_LATEST n) && shown != some k

/-- R146: a frame starts on the virtual channel taken; which of two free buffers it takes is a free value. A frame that was
still being received has no frame end and is discarded for its line count. -/
def State.vinStart (s : State) (n vc : Nat) : State :=
  if !(s.bit (Reg.VIN_CTRL_EN n) && s.get (Reg.VIN_CTRL_VC n) == vc) then s
  else
    let s := if (s.vin n).buf.isSome then (s.setVin n { s.vin n with sizeBad := true }).vinDiscard n else s
    match s.vinFree n with
    | [] => s
    | [k] => s.setVin n { buf := some k }
    | ks => let (d, t) := s.draw; t.setVin n { buf := some (ks.getD (d % ks.length) 0) }

/-- A frame start short packet comes on virtual channel `vc` (R146). -/
def execVinFrameStart (n : Fin 4) (vc : BitVec 2) (s : State) : Host.Outcome State Fault Refusal :=
  .next (s.vinStart n.val vc.toNat)

/-- The order of a line's bytes in memory: UYVY pairs become YUYV, and three bytes of RGB888 become a pixel of XRGB8888
with 0xFF on top (VIN_n_CTRL.DT; the order on the link is that of CSI-2, log entry 24). -/
def vinBytes (rgb : Bool) : List Byte → List Byte
  | a :: b :: c :: d :: rest =>
    if rgb then a :: b :: c :: 0xFF :: vinBytes rgb (d :: rest) else b :: a :: d :: c :: vinBytes rgb rest
  | [a, b, c] => if rgb then [a, b, c, 0xFF] else [b, a]
  | [a, b] => if rgb then [] else [b, a]
  | _ => []

/-- R37, R146, R147, R332: a long packet of a frame: its line is written to the frame's buffer, as a receiver of the normal world, and what is wrong with it is
held against the frame; a line whose write cannot reach memory in time discards the frame. An uncorrectable header where no frame is
being received flags and counts nothing (DESIGN CHOICE, log entry 116). -/
def State.vinLine (s : State) (n vc dt : Nat) (header : EccResult) (payload : List Byte) (crcOk : Bool)
    (late : Option Nat) : State :=
  if !s.bit (Reg.VIN_CTRL_EN n) then s
  else if header = .uncorrectable then
    if (s.vin n).buf.isSome then s.setVin n { s.vin n with eccBad := true } else s
  else
    let rgb := s.bit (Reg.VIN_CTRL_DT n)
    if s.get (Reg.VIN_CTRL_VC n) != vc || dt != (if rgb then 0x24 else 0x1E) then s.count (Reg.VIN_DISCARDS_OTHER_DT n)
    else match (s.vin n).buf with
      | none => s
      | some k =>
        let r := s.vin n
        let w := s.get (Reg.VIN_SIZE_W n)
        let h := s.get (Reg.VIN_SIZE_H n)
        match late with
        | some yielded =>
          ((s.setVin n { r with late := true }).vinDiscard n).breach
            { rank := 8, yielded := s.portYield (12 + n) 8 yielded, port := some (12 + n), mag := 1, unit := 0x09, inst := n }
        | none =>
          let bs := (vinBytes rgb payload).take ((if rgb then 4 else 2) * w)
          let s := if r.lines < h && !bs.isEmpty then
              s.dmaWrite .normal (12 + n)
                (256 * s.get (Reg.VIN_BUF_ADDR n k) + r.lines * (s.get (Reg.VIN_STRIDE_STRIDE n) * 64)) bs
            else s
          s.setVin n { r with lines := r.lines + 1, crcBad := r.crcBad || !crcOk,
                              sizeBad := r.sizeBad || decide (h ≤ r.lines) || payload.length != (if rgb then 3 else 2) * w }

/-- A long packet comes: virtual channel, data type, what its header's ECC found, its payload, whether its CRC holds, and,
where its write could not reach memory in time, the rank it yielded to (R37, R146). -/
def execVinLinePacket (n : Fin 4) (vc : BitVec 2) (dt : BitVec 6) (header : EccResult) (payload : List Byte) (crcOk : Bool)
    (late : Option Nat) (s : State) : Host.Outcome State Fault Refusal :=
  .next (s.vinLine n.val vc.toNat dt.toNat header payload crcOk late)

/-- R146: the frame end of the frame being received: a complete frame is the latest. -/
def State.vinEnd (s : State) (n vc : Nat) : State :=
  if !(s.bit (Reg.VIN_CTRL_EN n) && s.get (Reg.VIN_CTRL_VC n) == vc) then s
  else
    let r := s.vin n
    match r.buf with
    | none => s
    | some k =>
      let size := r.sizeBad || r.lines != s.get (Reg.VIN_SIZE_H n)
      if size || r.crcBad || r.eccBad then (s.setVin n { r with sizeBad := size }).vinDiscard n
      else
        let s := (s.setVin n {}).set (Reg.VIN_STATUS_LATEST n) k
        (s.set (Reg.VIN_FRAMES_COUNT n) (s.get (Reg.VIN_FRAMES_COUNT n) + 1)).set (Reg.VIN_STATUS_NO_SIGNAL n) 0

/-- A frame end short packet comes on virtual channel `vc` (R146). -/
def execVinFrameEnd (n : Fin 4) (vc : BitVec 2) (s : State) : Host.Outcome State Fault Refusal :=
  .next (s.vinEnd n.val vc.toNat)

/-- No complete frame has arrived within TIMEOUT (VIN_n_STATUS.NO_SIGNAL). -/
def execVinNoSignal (n : Fin 4) (s : State) : Host.Outcome State Fault Refusal :=
  .next (s.set (Reg.VIN_STATUS_NO_SIGNAL n.val) 1)

end Sys2Proof.Machine
end

