-- ==== Sys2Proof/Machine/Guest.lean ====
section
/-! DEFINITION. Guest ports and sessions: functions and links, attach and detach, the session page, windows, the BAR2 path
with its quota, and owner registers (R43 to R68). -/

namespace Sys2Proof.Machine

/-! ### Functions and links (R43, R46, R52) -/

/-- The guest sessions. -/
def guestSessions : List Nat := (List.range 254).map (· + 2)

/-- Whether a function is available: enabled, out of reset, and on a link in L0 (R52). -/
def State.funcAvailable (s : State) (p f : Nat) : Bool :=
  s.bit (Reg.GP_STATUS_LINK_UP p) && !s.bit (Reg.GP_STATUS_PERST p) && decide (f ≤ s.get (Reg.GP_STATUS_NUM_VFS p))
    && !(s.func (p * 16 + f)).inReset

/-- Whether a session is ACTIVE; codes other than 1 are OFF (SESS_n_CTRL). -/
def State.sessActive (s : State) (n : Nat) : Bool := s.get (Reg.SESS_CTRL_STATE n) == 1

/-- Whether a session is attached. -/
def State.attached (s : State) (n : Nat) : Bool := s.bit (Reg.SESS_STATUS_ATTACHED n)

/-- R66: the depth of a session's bucket, in millionths of a token: 2 × UNITS × 67,108,864 / f_beat. -/
def State.bucketDepth (s : State) (n : Nat) : Nat :=
  let f := s.beatRate
  2 * s.get (Reg.SESS_QUOTA_UNITS n) * 67108864 * 1000000 * f.den / f.num

/-- R66: a full bucket. -/
def State.fillBucket (s : State) (n : Nat) : State := s.setSes n { s.ses n with tokens := s.bucketDepth n }

/-- Registers of a range return to their reset values, but for those kept. -/
def State.resetRange (s : State) (lo len : Nat) (keep : Nat → Bool) : State :=
  { s with regs := s.regs.filter fun p => !(decide (lo ≤ p.1) && decide (p.1 < lo + len)) || keep p.1 }

/-- R53: what the page keeps at a detach. -/
def pageKeeps (n a : Nat) : Bool :=
  a == Reg.SESS_PAGE_ID n || a == Reg.SESS_RES_LAYER n || a == Reg.SESS_RES_OTHER n || a == Reg.SESS_TQ_STATUS n
    || (List.range 8).any fun k => a == Reg.SESS_AS_STATUS n k

/-- The layers a session owns through handles. -/
def State.sessLayers (s : State) (n : Nat) : List Nat :=
  (List.range 64).filter fun l => s.bit (Reg.LAYER_OWNER_VALID l) && s.get (Reg.LAYER_OWNER_SESSION l) == n

/-- R53: the layer registers a page shows return to their reset values: the shadows, COMMIT_FRAME and FENCE_VALUE. -/
def State.resetShadows (s : State) (l : Nat) : State :=
  let s := s.each (List.range 20) fun i t => t.resetReg (Reg.LAYER_CTRL l + 4 * i)
  (s.resetReg (Reg.LAYER_COMMIT_FRAME l)).resetReg (Reg.LAYER_FENCE_VALUE l)

/-- Records that wait in a session's touch queue, which a detach discards and counts. A queue whose EN is 0 holds none of the
device's: what was left unread in it is not counted (DESIGN CHOICE, log entry 81). -/
def State.tqFill (s : State) (n : Nat) : Nat :=
  let size := s.tqSize n
  if s.bit (Reg.SESS_TQ_CTRL_EN n) then (s.get (Reg.SESS_TQ_WR_INDEX n) + size - s.get (Reg.SESS_TQ_RD_INDEX n) % size) % size
  else 0

/-- R53: the session page returns to its reset values; the records of its queue are discarded and counted. -/
def State.pageReset (s : State) (n : Nat) : State :=
  let lost := s.tqFill n
  let s := s.resetRange (Reg.SESS_PAGE_ID n) 0x1000 (pageKeeps n)
  let s := (s.count (Reg.SESS_TQ_STATUS_DROPPED n) lost).set (Reg.SESS_TQ_STATUS_OVERFLOW n) 0
  let s := s.each (List.range 8) fun a t => t.set (Reg.SESS_AS_STATUS_RUNNING n a) 0
  let s := s.setSes n { s.ses n with tqSync := false }
  s.each (s.sessLayers n) fun l t => t.resetShadows l

/-- The guest transactions that wait for a session's slot are dropped. A read among them gets no completion (DESIGN CHOICE, log
entry 100). -/
def State.dropIngress (s : State) (n : Nat) : State :=
  let f := s.sessFunc n
  let slot := s.get (Reg.SESS_CTRL_SLOT n)
  let r := s.func f
  ((s.setFunc f { r with ingress := r.ingress.filter (·.slot != slot) }).set (Reg.SESS_STATUS_QUOTA_HELD n) 0).set
    (Reg.SESS_PAGE_STATUS_QUOTA_HELD n) 0

/-- R53, R54: a session detaches: its page is reset, its commits are rejected with DETACHED, its streams stop, its doorbell
triggers that have not started are discarded, and with DETACH_ACTION NOT_READY its layers take their action at the next
latch. -/
def State.detach (s : State) (n : Nat) : State :=
  let s := (s.dropIngress n).set (Reg.SESS_STATUS_ATTACHED n) 0
  let s := s.pageReset n
  let s := s.each (s.sessLayers n) fun l t =>
    let t := if t.layPending l then t.layReject l 2 else t
    if t.bit (Reg.SESS_CTRL_DETACH_ACTION n) then t.setLay l { t.lay l with detached := true } else t
  (s.hapDetach n).sessEvent n (Reg.SESS_STATUS_DETACH_EVT n)

/-- R52, R66: a session attaches, with a full bucket. -/
def State.attach (s : State) (n : Nat) : State := (s.set (Reg.SESS_STATUS_ATTACHED n) 1).fillBucket n

/-- R52: what a write of SESS_n_CTRL does to an attachment: STATE written OFF detaches, and STATE ACTIVE attaches where the function
is available; it leaves a session attached whose link stands in L2. -/
def State.attachWrite (s : State) (n : Nat) : State :=
  if s.attached n then (if s.sessActive n then s else s.detach n)
  else if s.sessActive n && s.funcAvailable (s.get (Reg.SESS_CTRL_PORT n)) (s.get (Reg.SESS_CTRL_FUNC n)) then s.attach n
  else s

/-- R52: a guest session attaches or detaches as its state and its function say. -/
def State.attachCheck (s : State) (n : Nat) : State :=
  let want := s.sessActive n && s.funcAvailable (s.get (Reg.SESS_CTRL_PORT n)) (s.get (Reg.SESS_CTRL_FUNC n))
  if want && !s.attached n then s.attach n
  else if !want && s.attached n then s.detach n
  else s

/-- R52: every guest session of a port is looked at again. -/
def State.attachPort (s : State) (p : Nat) : State :=
  s.each (guestSessions.filter fun n => s.get (Reg.SESS_CTRL_PORT n) == p && (s.sessActive n || s.attached n)) fun n t =>
    t.attachCheck n

/-- An event of GP_n_STATUS: source 59 + n. -/
def State.gpEvent (s : State) (p : Nat) (flag : Fld) : State := s.event flag (Reg.GP_STATUS_EVENTS p) (59 + p)

/-- A function returns to its reset state. -/
def State.funcReset (s : State) (p f : Nat) (held : Bool) : State := s.setFunc (p * 16 + f) { inReset := held }

/-- The virtual functions above a number are disabled, and NumVFs is set to it. -/
def State.setVfs (s : State) (p k : Nat) : State :=
  let old := s.get (Reg.GP_STATUS_NUM_VFS p)
  let s := (s.set (Reg.GP_STATUS_NUM_VFS p) k).attachPort p
  s.each ((List.range 16).filter fun f => decide (k < f ∧ f ≤ old)) fun f t => t.funcReset p f false

/-- The link of a port leaves L0. After an entry to L2 its sessions stay as they are, and ATTACHED, which is live, reads
its link (R52). -/
def State.gpDown (s : State) (p : Nat) (l2 : Bool) : State :=
  if !s.bit (Reg.GP_STATUS_LINK_UP p) then s
  else
    let s := ((s.set (Reg.GP_STATUS_LINK_UP p) 0).set (Reg.GP_STATUS_WIDTH p) 0).set (Reg.GP_STATUS_SPEED p) 0
    if l2 then s else (s.gpEvent p (Reg.GP_STATUS_LINK_DOWN_EVT p)).attachPort p

/-- GP_LINK_DOWN. -/
def execGpLinkDown (p : Fin 4) (l2 : Bool) (s : State) : Host.Outcome State Fault Refusal := .next (s.gpDown p l2)

/-- R43, R52: the link of an enabled port reaches L0, at a speed and width (coded as GP_n_STATUS), PERST_N being deasserted;
every function is out of its reset, and the sessions attach. -/
def State.gpUp (s : State) (p speed width : Nat) : State :=
  if !s.bit (Reg.GP_CTRL_EN p) then s
  else
    let s := (s.set (Reg.GP_STATUS_LINK_UP p) 1).set (Reg.GP_STATUS_PERST p) 0
    let s := (s.set (Reg.GP_STATUS_SPEED p) (min speed (s.get (Reg.GP_CTRL_MAX_SPEED p)))).set (Reg.GP_STATUS_WIDTH p) (2 ^ width)
    (s.each (List.range 16) fun f t => t.setFunc (p * 16 + f) { t.func (p * 16 + f) with inReset := false }).attachPort p

/-- GP_LINK_UP: the width is 1, 2 or 4 lanes. -/
def execGpLinkUp (p : Fin 4) (speed : Fin 4) (width : Fin 3) (s : State) : Host.Outcome State Fault Refusal :=
  .next (s.gpUp p speed width)

/-- R52, R53: a function-level reset: the function's state is reset and its sessions detach; one of the physical function
disables the virtual functions (PCIe base specification, log entry 33). They attach again at GP_LINK_UP. -/
def State.flr (s : State) (p f : Nat) : State :=
  if !s.funcAvailable p f then s
  else
    let s := s.gpEvent p (Reg.GP_STATUS_FLR_EVT p)
    let s := ((s.setFunc (p * 16 + f) { s.func (p * 16 + f) with inReset := true }).attachPort p).funcReset p f true
    if f = 0 then s.setVfs p 0 else s

/-- FLR. -/
def execFlr (p : Fin 4) (f : Fin 16) (s : State) : Host.Outcome State Fault Refusal := .next (s.flr p f)

/-- R52: PERST_N of a port is asserted: its link leaves L0, its sessions detach and its functions are reset. -/
def State.perst (s : State) (p : Nat) : State :=
  let s := ((s.set (Reg.GP_STATUS_PERST p) 1).attachPort p).gpDown p false
  (s.setVfs p 0).each (List.range 16) fun f t => t.funcReset p f false

/-- PERST_ASSERT. -/
def execPerstAssert (p : Fin 4) (s : State) : Host.Outcome State Fault Refusal := .next (s.perst p)

/-- A write to GP_n_CTRL (R43): RELEASE stays 1 once it is, and EN = 0 returns the link to Detect. -/
def State.gpCtrlWrite (s : State) (p : Nat) (v : Word) : State :=
  let a := Reg.GP_CTRL p
  let rel := s.get (Reg.GP_CTRL_RELEASE p)
  let s := s.plainWrite a v
  let s := if rel = 1 then s.set (Reg.GP_CTRL_RELEASE p) 1 else s
  if s.bit (Reg.GP_CTRL_EN p) then s else s.gpDown p false

/-- GP_RELEASE. -/
def execGpRelease (p : Fin 4) (w : World) (v : Word) (s : State) : Host.Outcome State Fault Refusal :=
  .next (s.asWriter w 0x0D p false (·.gpCtrlWrite p (withBit v 1)))

/-! ### Configuration requests (R43, R46) -/

/-- R46, R62: vectors that were pending and are no longer masked are sent. -/
def State.msixFlush (s : State) (f : Nat) : State :=
  s.each (List.range 32) fun v t =>
    let r := t.func f
    if bitOf r.pba v && r.msixOn && !r.msixMask && !bitOf (r.word (4 * v + 3)).toNat 0 then
      (t.setFunc f { r with pba := clearBitOf r.pba v }).msixSend f v
    else t

/-- A completion that leaves the device, with the number of its request. -/
def State.hostReply (s : State) (r : Reply) : State := { s with replies := s.replies ++ [r] }

/-- R45: word i of a function's BAR registers, of which each BAR takes two, for the address the host wrote: below the BAR's size
it reads its type, 64-bit, and prefetchable for BAR2 alone. -/
def State.barWord (s : State) (p i addr : Nat) : Nat :=
  let log := if i / 2 = 0 then 16 else if i / 2 = 1 then 4 + clampNat 25 34 (s.get (Reg.GP_CTRL_APERTURE_LOG2 p)) else 13
  let type := if i / 2 = 1 then 0xC else 4
  if i % 2 = 0 then addr % 2 ^ 32 / 2 ^ min log 32 * 2 ^ min log 32 + type
  else addr % 2 ^ 32 / 2 ^ (log - 32) * 2 ^ (log - 32)

/-- R46: a word of the MSI-X capability: 32 entries, the table at offset 0 and the pending bits at 0x1000 of BAR4; `next` is the
place of the next capability. -/
def FuncState.msixCapWord (r : FuncState) (i next : Nat) : Nat :=
  if i = 0 then 0x11 + next % 2 ^ 8 * 2 ^ 8 + (31 + b2n r.msixMask * 2 ^ 14 + b2n r.msixOn * 2 ^ 15) * 2 ^ 16
  else if i = 1 then 4 else 0x1000 + 4

/-- A BAR word as the host wrote it; 0 before (PRESUMED, log entry 6). -/
def FuncState.bar (r : FuncState) (i : Nat) : Nat := sget (fun _ => 0) r.bars i

/-- A number with bit i replaced. -/
def withFlag (x i : Nat) (b : Bool) : Nat := x / 2 ^ (i + 1) * 2 ^ (i + 1) + b2n b * 2 ^ i + x % 2 ^ i

/-- R46: a word of the SR-IOV capability that the spec gives, VF Enable among free bits; none for the others, among them the header
of the capability. -/
def State.sriovWord (s : State) (p i free : Nat) : Option Nat :=
  let total := s.get (Reg.GP_CTRL_TOTAL_VFS p)
  let r := s.func (p * 16)
  if i = 2 then some (withFlag (free % 2 ^ 32) 0 r.vfOn)
  else if i = 3 then some (total * 2 ^ 16 + total)
  else if i = 4 then some r.numVfs
  else if i = 6 then some (0x08C1 * 2 ^ 16)
  else if 9 ≤ i ∧ i < 15 then some (s.barWord p (i - 9) (r.bar (i - 3)))
  else none

/-- R45, R46, R48: a word of a function's configuration space: the identifiers, the BARs, the MSI-X and SR-IOV capabilities and the
Unsupported Request status of AER as the spec gives them, where they lie; a virtual function's own BARs read 0, since they stand in
the SR-IOV capability (PRESUMED, log entry 6). The rest of the space is that of the PCIe base specification, which the spec does not
give: free values. -/
def State.configWord (s : State) (p f off : Nat) : Nat × State :=
  let sub := s.get (Reg.GP_SUBSYS_SUBSYS_ID p) * 2 ^ 16 + s.get (Reg.GP_SUBSYS_SUBSYS_VENDOR p)
  let i := off / 4
  let (v, t) := s.draw
  let m := Config.msixWord
  let c := Config.sriovWord
  if i = 0 then (if f = 0 then 0x08C0 * 2 ^ 16 + Config.vendorId.toNat else 0xFFFFFFFF, s)
  else if i = 2 then (0x038000 * 2 ^ 8 + 0xA1, s)
  else if 4 ≤ i ∧ i < 10 then (if f = 0 then s.barWord p (i - 4) ((s.func (p * 16)).bar (i - 4)) else 0, s)
  else if i = 11 then (sub, s)
  else if m ≤ i ∧ i < m + 3 then ((s.func (p * 16 + f)).msixCapWord (i - m) v, t)
  else if f = 0 ∧ c ≤ i ∧ i < c + 15 then
    match s.sriovWord p (i - c) v with
    | some w => (w, t)
    | none => (v % 2 ^ 32, t)
  else if i = Config.aerWord + 1 then (withFlag (v % 2 ^ 32) 20 (s.func (p * 16 + f)).urStatus, t)
  else (v % 2 ^ 32, t)

/-- R46, R52: VF Enable and NumVFs of the physical function are written: the virtual functions are those of NumVFs while VF
Enable is 1. A NumVFs above TOTAL_VFS is not taken. -/
def State.vfWrite (s : State) (p : Nat) (on : Bool) (k : Nat) : State :=
  if s.get (Reg.GP_CTRL_TOTAL_VFS p) < k then s
  else (s.setFunc (p * 16) { s.func (p * 16) with vfOn := on, numVfs := k }).setVfs p (if on then k else 0)

/-- R46, R62: the MSI-X control word of a function is written. -/
def State.msixControl (s : State) (f : Nat) (on mask : Bool) : State :=
  (s.setFunc f { s.func f with msixOn := on, msixMask := mask }).msixFlush f

/-- R45, R46: a BAR of a function, or of its virtual functions, is written. -/
def State.barWrite (s : State) (key k : Nat) (v : Word) : State :=
  s.setFunc key { s.func key with bars := sput (fun _ => 0) (s.func key).bars k v.toNat }

/-- R43, R45, R46, R48: a word of a function's configuration space is written. The address of a BAR, the MSI-X control word, VF
Enable, NumVFs and the Unsupported Request status of AER take effect; a write of any other word has none that the spec gives
(PRESUMED, log entry 6). -/
def State.configWrite (s : State) (p f off : Nat) (v : Word) : State :=
  let key := p * 16 + f
  let r := s.func key
  let i := off / 4
  let m := Config.msixWord
  let c := Config.sriovWord
  if 4 ≤ i ∧ i < 10 then (if f = 0 then s.barWrite key (i - 4) v else s)
  else if m ≤ i ∧ i < m + 3 then s.when (i == m) (·.msixControl key (bitOf v.toNat 31) (bitOf v.toNat 30))
  else if f = 0 ∧ c ≤ i ∧ i < c + 15 then
    if i = c + 2 then s.vfWrite p (bitOf v.toNat 0) r.numVfs
    else if i = c + 4 then s.vfWrite p r.vfOn (getBits v 0 16)
    else if c + 9 ≤ i then s.barWrite key (i - (c + 3)) v
    else s
  else if i = Config.aerWord + 1 then s.setFunc key { r with urStatus := r.urStatus && !bitOf v.toNat 20 }
  else s

/-- R43: a configuration request to a function of a port. While the link is down none arrives; before release the answer
is Retry Status; a function that does not exist answers Unsupported Request. -/
def State.configRequest (s : State) (p f : Nat) (r : CfgReq) : State :=
  let id := s.nextReq
  let s := { s with nextReq := id + 1, replies := [] }
  if !s.bit (Reg.GP_STATUS_LINK_UP p) then s
  else if !s.bit (Reg.GP_CTRL_RELEASE p) then s.hostReply { id := id, status := .retry }
  else if s.get (Reg.GP_STATUS_NUM_VFS p) < f then s.hostReply { id := id, status := .unsupported }
  else match r with
    | .read off =>
      let (v, s) := s.configWord p f off.toNat
      s.hostReply { id := id, data := leBytes 4 v }
    | .write off v => (s.configWrite p f off.toNat v).hostReply { id := id }
    | .setNumVfs n => (s.when (f == 0) (·.vfWrite p (n.val != 0) n)).hostReply { id := id }
    | .msixControl on mask => (s.msixControl (p * 16 + f) on mask).hostReply { id := id }

/-- CONFIG_REQUEST. -/
def execConfigRequest (p : Fin 4) (f : Fin 16) (r : CfgReq) (s : State) : Host.Outcome State Fault Refusal :=
  .next (s.configRequest p f r)

/-! ### Session configuration (R51, R63, R64, R66) -/

/-- SESS_n_CTRL is written (R51, R52). Sessions 0 and 1 keep STATE, and nothing of theirs attaches or detaches (R49). Their
PORT, FUNC and SLOT are stored and ignored (DESIGN CHOICE, log entry 102). -/
def State.sessCtrlWrite (s : State) (n : Nat) (v : Word) : State :=
  let a := Reg.SESS_CTRL n
  if n ≤ 1 then
    let st := s.get (Reg.SESS_CTRL_STATE n)
    (s.plainWrite a v).set (Reg.SESS_CTRL_STATE n) st
  else if s.locked a then s.plainWrite a v
  else
    let bind := fun (x : Word) => (getBits x 8 2, getBits x 12 4, getBits x 16 4)
    let was := s.sessActive n
    let now := getBits v 0 2 == 1
    let clash := !was && now && guestSessions.any fun m => m != n && s.sessActive m && bind (s.reg (Reg.SESS_CTRL m)) == bind v
    if clash || (was && bind v != bind (s.reg a)) then s.sessEvent n (Reg.SESS_STATUS_BIND_ERR n)
    else
      let id := ((s.set (Reg.SESS_PAGE_ID_PORT n) (getBits v 8 2)).set (Reg.SESS_PAGE_ID_FUNC n) (getBits v 12 4)).set
        (Reg.SESS_PAGE_ID_SLOT n) (getBits v 16 4)
      (id.plainWrite a v).attachWrite n

/-- SESSION_CTRL_WRITE. Session 0's block is the secure world's (SESS_n). -/
def execSessionCtrlWrite (n : Fin 256) (w : World) (v : Word) (s : State) : Host.Outcome State Fault Refusal :=
  .next (s.asWriter w 0x0E n (n.val == 0) (·.sessCtrlWrite n v))

/-- SESS_n_QUOTA is written: the bucket is full (R66). -/
def State.quotaWrite (s : State) (n : Nat) (v : Word) : State :=
  if s.locked (Reg.SESS_QUOTA n) then s else (s.plainWrite (Reg.SESS_QUOTA n) v).fillBucket n

/-- QUOTA_WRITE. -/
def execQuotaWrite (n : Fin 256) (w : World) (v : Word) (s : State) : Host.Outcome State Fault Refusal :=
  .next (s.asWriter w 0x0E n (n.val == 0) (·.quotaWrite n v))

/-- APERTURE_LOG2 as it is treated; 2^34 for sessions 0 and 1 (R49). -/
def State.apertureLog2 (s : State) (n : Nat) : Nat :=
  if n ≤ 1 then 34 else clampNat 25 34 (s.get (Reg.GP_CTRL_APERTURE_LOG2 (s.get (Reg.SESS_CTRL_PORT n))))

/-- The granules of side offsets a device range uses on each side: `(sides, first, count)`. -/
def devGranules (dev size : Nat) : Option (List Nat × Nat) :=
  match region (granuleBytes * dev) with
  | .side n off => if off + granuleBytes * size ≤ 2 ^ 34 then some ([n], off / granuleBytes) else none
  | .mirror off => if off + granuleBytes * size ≤ 2 ^ 34 then some ([0, 1], off / granuleBytes) else none
  | _ => none

/-- Whether two ranges of n and m units overlap. -/
def rangesMeet (a n b m : Nat) : Bool := decide (a < b + m ∧ b < a + n ∧ 0 < n ∧ 0 < m)

/-- R63, 0b001: the device range does not lie wholly in installed memory of a side or of the mirrored view, or lies in what
the mirror region table marks mirrored. -/
def State.winBadRange (s : State) (dev size : Nat) : Bool :=
  match region (granuleBytes * dev) with
  | .side _ off => !s.installed (granuleBytes * dev) (granuleBytes * size) || s.touchesMirrored off (granuleBytes * size)
  | .mirror _ => !s.installed (granuleBytes * dev) (granuleBytes * size)
  | _ => true

/-- R63, 0b010: the device range overlaps a valid window of another session. -/
def State.winTaken (s : State) (n dev size : Nat) : Bool :=
  match devGranules dev size with
  | none => false
  | some (sides, g) => (List.range 256).any fun m => m != n && (List.range 16).any fun k =>
      s.bit (Reg.SESS_WIN_CTRL_VALID m k) &&
        match devGranules (s.get (Reg.SESS_WIN_DEV_DEV m k)) (s.get (Reg.SESS_WIN_CTRL_SIZE m k)) with
        | some (sides', g') => sides.any sides'.contains && rangesMeet g size g' (s.get (Reg.SESS_WIN_CTRL_SIZE m k))
        | none => false

/-- R63: the first check that fails when window k of session n is to become valid with SIZE. -/
def State.winCheck (s : State) (n k size : Nat) : Option Nat :=
  let dev := s.get (Reg.SESS_WIN_DEV_DEV n k)
  let goff := s.get (Reg.SESS_WIN_GOFF_GOFF n k)
  if s.winBadRange dev size then some 1
  else if s.winTaken n dev size then some 2
  else if 2 ^ s.apertureLog2 n < granuleBytes * (goff + size) then some 3
  else if (List.range 16).any (fun j => j != k && s.bit (Reg.SESS_WIN_CTRL_VALID n j)
      && rangesMeet goff size (s.get (Reg.SESS_WIN_GOFF_GOFF n j)) (s.get (Reg.SESS_WIN_CTRL_SIZE n j))) then some 4
  else if size = 0 then some 5
  else none

/-- WIN_ERR with its code. -/
def State.winRefuse (s : State) (n code : Nat) : State :=
  (s.set (Reg.SESS_STATUS_WIN_ERR_CODE n) code).sessEvent n (Reg.SESS_STATUS_WIN_ERR n)

/-- The place of a window register. -/
def winRegAddr (r : WinReg) (n k : Nat) : Nat :=
  match r with
  | .dev => Reg.SESS_WIN_DEV n k
  | .goff => Reg.SESS_WIN_GOFF n k
  | .ctrl => Reg.SESS_WIN_CTRL n k

/-- Whether a window's device address is in mirrored memory. -/
def State.winMirrored (s : State) (n k : Nat) : Bool :=
  match region (granuleBytes * s.get (Reg.SESS_WIN_DEV_DEV n k)) with | .mirror _ => true | _ => false

/-- R57: a write to SESS_WIN_CTRL: the checks run where VALID becomes 1, and a valid window keeps its SIZE. One that clears
VALID and changes SIZE is refused (DESIGN CHOICE, log entry 101). MIRRORED of a window that is not valid reads 0 (DESIGN CHOICE, log
entry 112). -/
def State.winCtrlWrite (s : State) (n k : Nat) (v : Word) : State :=
  let a := winRegAddr .ctrl n k
  let size := getBits v 0 14
  if s.bit (Reg.SESS_WIN_CTRL_VALID n k) then
    if size ≠ s.get (Reg.SESS_WIN_CTRL_SIZE n k) then s.winRefuse n 6
    else if bitOf v.toNat 16 then s.plainWrite a v
    else (s.plainWrite a v).set (Reg.SESS_WIN_CTRL_MIRRORED n k) 0
  else if bitOf v.toNat 16 then
    match s.winCheck n k size with
    | some code => s.winRefuse n code
    | none => (s.plainWrite a v).set (Reg.SESS_WIN_CTRL_MIRRORED n k) (b2n (s.winMirrored n k))
  else s.plainWrite a v

/-- R63, R64: a window register is written. -/
def State.winWrite (s : State) (n k : Nat) (r : WinReg) (v : Word) : State :=
  let a := winRegAddr r n k
  let valid := s.bit (Reg.SESS_WIN_CTRL_VALID n k)
  if s.locked a then s
  else match r with
    | .dev => if valid then (if getBits v 0 19 = s.get (Reg.SESS_WIN_DEV_DEV n k) then s else s.winRefuse n 6) else s.plainWrite a v
    | .goff => if valid then (if getBits v 0 13 = s.get (Reg.SESS_WIN_GOFF_GOFF n k) then s else s.winRefuse n 6) else s.plainWrite a v
    | .ctrl => s.winCtrlWrite n k v

/-- SESS_WIN_WRITE. -/
def execSessWinWrite (n : Fin 256) (k : Fin 16) (r : WinReg) (w : World) (v : Word) (s : State) :
    Host.Outcome State Fault Refusal :=
  .next (s.asWriter w 0x0E n (n.val == 0) (·.winWrite n k r v))

/-! ### The session page (R57, R59, R61, R62) -/

/-- SEM_WRITE. -/
def execSemWrite (n : Fin 256) (k : Fin 16) (v : Word) (s : State) : Host.Outcome State Fault Refusal :=
  .next (s.setReg (Reg.SESS_SEM n k) v)

/-- SEM_ADD: the value is added modulo 2³² (R57). -/
def execSemAdd (n : Fin 256) (k : Fin 16) (v : Word) (s : State) : Host.Outcome State Fault Refusal :=
  .next (s.setReg (Reg.SESS_SEM n k) (s.reg (Reg.SESS_SEM n k) + v))

/-- R59: TQ_CTRL is written. TQ_WR and TQ_RD keep their values when EN goes from 0 to 1 (DESIGN CHOICE, log entry 81). -/
def State.tqCtrlWrite (s : State) (n : Nat) (v : Word) : State :=
  let a := Reg.SESS_TQ_CTRL n
  let was := s.bit (Reg.SESS_TQ_CTRL_EN n)
  if was && getBits v 16 4 != s.get (Reg.SESS_TQ_CTRL_SIZE_LOG2 n) then s.pageEvent n (Reg.SESS_PAGE_STATUS_CFG_ERR n)
  else if !was && bitOf v.toNat 0 then
    let s := s.plainWrite a (withoutBit v 0)
    match s.translateRing n (s.get (Reg.SESS_TQ_BASE_OFFSET n) * 64) (32 * s.tqSize n) with
    | none => s.pageEvent n (Reg.SESS_PAGE_STATUS_CFG_ERR n)
    | some d =>
      let s := (s.plainWrite a v).set (Reg.SESS_TQ_STATUS_DROPPED n) 0
      s.setSes n { s.ses n with tqAddr := d, tqSync := false }
  else s.plainWrite a v

/-- TQ_CTRL_WRITE. -/
def execTqCtrlWrite (n : Fin 256) (v : Word) (s : State) : Host.Outcome State Fault Refusal := .next (s.tqCtrlWrite n v)

/-- R59, R480: TQ_BASE is written. -/
def State.tqBaseWrite (s : State) (n : Nat) (v : Word) : State :=
  if s.bit (Reg.SESS_TQ_CTRL_EN n) then
    if getBits v 0 28 = s.get (Reg.SESS_TQ_BASE_OFFSET n) then s else s.pageEvent n (Reg.SESS_PAGE_STATUS_CFG_ERR n)
  else s.plainWrite (Reg.SESS_TQ_BASE n) v

/-- TQ_BASE_WRITE. -/
def execTqBaseWrite (n : Fin 256) (v : Word) (s : State) : Host.Outcome State Fault Refusal := .next (s.tqBaseWrite n v)

/-- Whether a session owns an audio handle. -/
def State.ownsAudio (s : State) (n a : Nat) : Bool := bitOf (s.get (Reg.SESS_RES_OTHER_AUDIO n)) a

/-- R59, R61: AS_a_CTRL is written. START written 0 stops the stream at once (DESIGN CHOICE, log entry 81). A write that
would change BLOCKS while START = 1 is ignored and sets CFG_ERR, and AS_a_RD keeps its value where START goes from 0 to 1 (DESIGN
CHOICE, log entry 111). -/
def State.asCtrlWrite (s : State) (n a : Nat) (v : Word) : State :=
  let r := Reg.SESS_AS_CTRL n a
  let was := s.bit (Reg.SESS_AS_CTRL_START n a)
  if !s.ownsAudio n a then s.pageEvent n (Reg.SESS_PAGE_STATUS_HANDLE_ERR n)
  else if was && getBits v 16 16 != s.get (Reg.SESS_AS_CTRL_BLOCKS n a) then s.pageEvent n (Reg.SESS_PAGE_STATUS_CFG_ERR n)
  else if !was && bitOf v.toNat 0 then
    let s := s.plainWrite r (withoutBit v 0)
    match s.translateRing n (s.get (Reg.SESS_AS_BASE_OFFSET n a) * 64) (4 * s.ringSize n a) with
    | none => s.pageEvent n (Reg.SESS_PAGE_STATUS_CFG_ERR n)
    | some d =>
      let s := (s.plainWrite r v).set (Reg.SESS_AS_STATUS_UNDERRUNS n a) 0
      s.setSes n { s.ses n with asAddr := sput (fun _ => 0) (s.ses n).asAddr a d }
  else
    let s := s.plainWrite r v
    if bitOf v.toNat 0 then s else s.set (Reg.SESS_AS_STATUS_RUNNING n a) 0

/-- AUDIO_STREAM_START. -/
def execAudioStreamStart (n : Fin 256) (a : Fin 8) (v : Word) (s : State) : Host.Outcome State Fault Refusal :=
  .next (s.asCtrlWrite n a (withBit v 0))

/-- R61: AS_a_BASE is written: one that would change it while START = 1 is ignored and sets CFG_ERR, as R59 has it of a touch queue
(DESIGN CHOICE, log entry 111). -/
def State.asBaseWrite (s : State) (n a : Nat) (v : Word) : State :=
  if !s.ownsAudio n a then s.pageEvent n (Reg.SESS_PAGE_STATUS_HANDLE_ERR n)
  else if s.bit (Reg.SESS_AS_CTRL_START n a) then
    if getBits v 0 28 = s.get (Reg.SESS_AS_BASE_OFFSET n a) then s else s.pageEvent n (Reg.SESS_PAGE_STATUS_CFG_ERR n)
  else s.plainWrite (Reg.SESS_AS_BASE n a) v

/-- R61: AS_a_WR is written. -/
def State.asWrWrite (s : State) (n a : Nat) (v : Word) : State :=
  if s.ownsAudio n a then s.plainWrite (Reg.SESS_AS_WR n a) v else s.pageEvent n (Reg.SESS_PAGE_STATUS_HANDLE_ERR n)

/-- R62: IRQ_ENABLE is written: a bit that rises while its STATUS bit is 1 sends the message, once for the write. -/
def State.irqEnableWrite (s : State) (n : Nat) (v : Word) : State :=
  let a := Reg.SESS_IRQ_ENABLE n
  let old := s.reg a
  let s := s.plainWrite a v
  if (s.reg a &&& ~~~old &&& s.reg (Reg.SESS_IRQ_STATUS n)) != 0 then s.sessMessage n else s

/-- IRQ_ENABLE_WRITE. -/
def execIrqEnableWrite (n : Fin 256) (v : Word) (s : State) : Host.Outcome State Fault Refusal :=
  .next (s.irqEnableWrite n v)

/-! ### Owner registers (R68) -/

/-- The place of an owner register. -/
def ownedAddr : Owned → Nat
  | .layer n => Reg.LAYER_OWNER n
  | .scaler n => Reg.SCL_OWNER n
  | .haptic n => Reg.HC_OWNER n
  | .stream k => Reg.AUD_STREAM_OWNER k
  | .zone n k => Reg.TOUCH_ZONE_OWNER n k

/-- The unit and instance it belongs to. -/
def ownedUnit : Owned → Nat × Nat
  | .layer n => (0x06, n)
  | .scaler n => (0x08, n)
  | .haptic n => (0x11, n)
  | .stream _ => (0x13, 0)
  | .zone n _ => (0x10, n)

/-- Handles of the kind: below this number. -/
def ownedHandles : Owned → Nat
  | .layer _ => 16
  | .haptic _ => 4
  | .stream _ => 8
  | .scaler _ => 1
  | .zone _ _ => 1

/-- Owner registers of the same kind, where handles are used. -/
def ownedPeers : Owned → List Nat
  | .layer _ => (List.range 64).map fun n => Reg.LAYER_OWNER n
  | .haptic _ => (List.range 16).map fun n => Reg.HC_OWNER n
  | .stream _ => (List.range 24).map fun k => Reg.AUD_STREAM_OWNER k
  | .scaler _ => []
  | .zone _ _ => []

/-- R68: whether a resource is idle. -/
def State.ownedIdle (s : State) : Owned → Bool
  | .layer n => !s.bit (Reg.LAYER_ACT_CTRL_EN n) && !s.layPending n
  | .scaler n => !s.bit (Reg.SCL_STATUS_CLAIMED n)
  | .haptic n => let st := s.get (Reg.HC_STATUS_STATE n); !(st == 2 || st == 3)
  | .stream k => match s.streamOf k with | some (n, a) => !s.bit (Reg.SESS_AS_STATUS_RUNNING n a) | none => true
  | .zone n k => !s.bit (Reg.TOUCH_ZONE_CTRL_EN n k)

/-- RES_LAYER and RES_OTHER of a session follow an owner register (R55). -/
def State.resBit (s : State) (o : Owned) (session handle : Nat) (b : Bool) : State :=
  let put := fun (f : Fld) => s.set f (if b then setBitOf (s.get f) handle else clearBitOf (s.get f) handle)
  match o with
  | .layer _ => put (Reg.SESS_RES_LAYER_LAYER session)
  | .haptic _ => put (Reg.SESS_RES_OTHER_HAPTIC session)
  | .stream _ => put (Reg.SESS_RES_OTHER_AUDIO session)
  | _ => s

/-- R68: whether a write of an owner register is refused. -/
def State.ownerRefused (s : State) (o : Owned) (v : Word) : Bool :=
  let x := s.reg (ownedAddr o)
  let key := fun (x : Word) => (getBits x 0 8, getBits x 12 4)
  bitOf v.toNat 8 && (getBits v 0 8 == 0 || decide ((ownedHandles o) ≤ getBits v 12 4)
      || (ownedPeers o).any fun a => a != (ownedAddr o) && bitOf (s.reg a).toNat 8 && key (s.reg a) == key v)
    || ((key v != key x || bitOf v.toNat 8 != bitOf x.toNat 8) && !s.ownedIdle o)

/-- R68: an owner register is written. -/
def State.ownerWrite (s : State) (o : Owned) (v : Word) : State :=
  let a := (ownedAddr o)
  if s.locked a then s.plainWrite a v
  else if s.ownerRefused o v then s.setReg a (setBits (withBit (s.reg a) 30) 16 8 (satAdd 8 (getBits (s.reg a) 16 8) 1))
  else
    let x := s.reg a
    let s := if bitOf x.toNat 8 then s.resBit o (getBits x 0 8) (getBits x 12 4) false else s
    let s := s.plainWrite a v
    if bitOf v.toNat 8 then s.resBit o (getBits v 0 8) (getBits v 12 4) true else s

/-- OWNER_WRITE. -/
def execOwnerWrite (o : Owned) (w : World) (v : Word) (s : State) : Host.Outcome State Fault Refusal :=
  .next (s.asWriter w (ownedUnit o).1 (ownedUnit o).2 false (·.ownerWrite o v))

end Sys2Proof.Machine
end

