-- ==== Sys2Proof/Machine/TouchImage.lean ====
section
/-! DEFINITION. The image of a touch engine: deltas, the filter, peaks, regions and positions, as formulas over the pads of a
grid (R247, R267, R268, R270 to R274, R279, R281). -/

namespace Sys2Proof.Machine

/-- A grid of pads (R247). -/
structure Grid where
  /-- columns -/
  w : Nat
  /-- rows -/
  h : Nat
deriving DecidableEq, Repr

/-- Pads of a grid. -/
def Grid.pads (g : Grid) : Nat := g.w * g.h

/-- Conversion groups of a grid (R247). -/
def Grid.groups (g : Grid) : Nat := ceilDiv g.pads 128

/-- The pad at a place, where there is one. -/
def Grid.at (g : Grid) (i j : Int) : Option Nat :=
  if 0 ≤ i ∧ i < g.w ∧ 0 ≤ j ∧ j < g.h then some (j.toNat * g.w + i.toNat) else none

/-- Column of a pad. -/
def Grid.col (g : Grid) (p : Nat) : Nat := p % max g.w 1
/-- Row of a pad. -/
def Grid.row (g : Grid) (p : Nat) : Nat := p / max g.w 1

/-- The Chebyshev distance of two pads. -/
def Grid.dist (g : Grid) (p q : Nat) : Nat :=
  max ((g.col p : Int) - g.col q).natAbs ((g.row p : Int) - g.row q).natAbs

/-- The pads at given steps from a pad. -/
def Grid.around (g : Grid) (p : Nat) (steps : List (Int × Int)) : List Nat :=
  steps.filterMap fun d => g.at (g.col p + d.1) (g.row p + d.2)

/-- The four orthogonal steps: left, right, up, down. -/
def orthSteps : List (Int × Int) := [(-1, 0), (1, 0), (0, -1), (0, 1)]
/-- The four diagonal steps. -/
def diagSteps : List (Int × Int) := [(-1, -1), (1, -1), (-1, 1), (1, 1)]

/-- The 8-neighbours of a pad that lie in the grid. -/
def Grid.near (g : Grid) (p : Nat) : List Nat := g.around p (orthSteps ++ diagSteps)

/-- R268: the delta of a pad from a 16.8 value and its 16.8 baseline. -/
def deltaOf (v b : Nat) : Int := clampInt (-32768) 32767 (asr ((v : Int) - b + 128) 8)

/-- The middle of three numbers (R271). -/
def median3 (a b c : Int) : Int := max (min a b) (min (max a b) c)

/-- R271: the filtered deltas of a grid. -/
def Grid.filtered (g : Grid) (d : Array Int) : Array Int :=
  ((List.range g.pads).map fun p =>
    let own := d.getD p 0
    let at_ := fun (s : Int × Int) => match g.at (g.col p + s.1) (g.row p + s.2) with | some q => d.getD q 0 | none => own
    asr (4 * own + 2 * (orthSteps.map at_).sum + (diagSteps.map at_).sum + 8) 4).toArray

/-- R272, 1: the peaks of the filtered deltas at a threshold, by rising pad. -/
def Grid.peaks (g : Grid) (f : Array Int) (t : Int) : List Nat :=
  (List.range g.pads).filter fun p =>
    let v := f.getD p 0
    decide (t ≤ v) && (g.near p).all fun q => if q < p then decide (f.getD q 0 < v) else decide (f.getD q 0 ≤ v)

/-- One round of growth of a region. -/
def Grid.growOnce (g : Grid) (f : Array Int) (rel : Int) (set : List Nat) : List Nat :=
  (set.flatMap g.near).foldl (fun acc q => if decide (rel ≤ f.getD q 0) && !acc.contains q then acc ++ [q] else acc) set

/-- R272, 2: the region of a pad: the 8-connected pads at or above RELEASE, itself among them. -/
def Grid.region (g : Grid) (f : Array Int) (rel : Int) (p : Nat) : List Nat :=
  (List.range g.pads).foldl (fun set _ => let next := g.growOnce f rel set; if next.length = set.length then set else next) [p]

/-- A peak with its region. -/
structure Peak where
  /-- pad -/
  pad : Nat
  /-- filtered delta -/
  value : Int
  /-- pads of its region -/
  region : List Nat
  /-- the region is a palm (R272, 3) -/
  palm : Bool
  /-- the region is water (R272, 4) -/
  water : Bool
deriving DecidableEq, Repr

/-- R272: the peaks of an image, each with its region and what the region is. -/
def Grid.detect (g : Grid) (f : Array Int) (t rel : Int) (palmPads : Nat) : List Peak :=
  (g.peaks f t).map fun p =>
    let r := g.region f rel p
    let top := (r.map fun q => f.getD q 0).foldl max (f.getD p 0)
    let sum := (r.map fun q => f.getD q 0).sum
    { pad := p, value := f.getD p 0, region := r, palm := decide (palmPads < r.length),
      water := decide (6 ≤ r.length ∧ 2 * top * r.length < 3 * sum) }

/-- How R274 maps pads to the screen. -/
structure TouchMap where
  /-- SCALE_X -/
  scaleX : Nat
  /-- SCALE_Y -/
  scaleY : Nat
  /-- OFF_X -/
  offX : Int
  /-- OFF_Y -/
  offY : Int
  /-- MIRROR_X -/
  mirrorX : Bool
  /-- MIRROR_Y -/
  mirrorY : Bool
  /-- SWAP_XY -/
  swap : Bool
  /-- width of the active area -/
  width : Nat
  /-- height of the active area -/
  height : Nat
deriving DecidableEq, Repr

/-- A place on the screen in 1/16 pixel, with the intensity (R274). -/
structure Spot where
  /-- X -/
  x : Nat
  /-- Y -/
  y : Nat
  /-- intensity -/
  inten : Nat
deriving DecidableEq, Repr

/-- R274: the position in 1/256 pad along one axis. -/
def axisPos (p : Nat) (sw s : Int) : Int := 256 * p + (512 * sw + s) / (2 * s)

/-- R274: the position and intensity of a contact at a peak. -/
def Grid.spot (g : Grid) (f : Array Int) (m : TouchMap) (p : Nat) : Spot :=
  let at_ := fun (dx dy : Int) => match g.at (g.col p + dx) (g.row p + dy) with
    | some q => max (f.getD q 0) 0
    | none => 0
  let steps : List Int := [-1, 0, 1]
  let s := (steps.flatMap fun dy => steps.map fun dx => at_ dx dy).sum
  let sx := (steps.flatMap fun dy => steps.map fun dx => at_ dx dy * dx).sum
  let sy := (steps.flatMap fun dy => steps.map fun dx => at_ dx dy * dy).sum
  let ux := axisPos (g.col p) sx s
  let uy := axisPos (g.row p) sy s
  let ux := if m.mirrorX then 256 * ((g.w : Int) - 1) - ux else ux
  let uy := if m.mirrorY then 256 * ((g.h : Int) - 1) - uy else uy
  let (ux, uy) := if m.swap then (uy, ux) else (ux, uy)
  let x := asr (ux * m.scaleX + 32768) 16 + m.offX
  let y := asr (uy * m.scaleY + 32768) 16 + m.offY
  { x := (clampInt 0 (16 * (m.width : Int) - 1) x).toNat, y := (clampInt 0 (16 * (m.height : Int) - 1) y).toNat,
    inten := (min (asr s 4) 65535).toNat }

/-- R279: the noise figure of a listen scan over the groups it covered. -/
def Grid.noiseFigure (g : Grid) (c : Array Nat) (first groups : Nat) : Nat :=
  let pairs := (List.range g.pads).filter fun p => decide (1 ≤ p ∧ p % 128 ≠ 0 ∧ first ≤ p / 128 ∧ p / 128 < first + groups)
  if pairs.isEmpty then 0
  else (pairs.map fun p => ((c.getD p 0 : Int) - c.getD (p - 1) 0).natAbs).sum / pairs.length

/-- R270: the pads frozen about a region: its pads and every pad at Chebyshev distance 1. -/
def Grid.freeze (g : Grid) (region : List Nat) : List Nat :=
  (region ++ (region.flatMap g.near).filter (fun q => !region.contains q)).eraseDups

/-- R270: division towards zero. -/
def quotZero (a b : Int) : Int := Int.tdiv a b

end Sys2Proof.Machine
end

