-- ==== Sys2Proof/Machine/TouchEngine.lean ====
section
/-! DEFINITION. A touch engine: its budgets and phases, tracking and reports, the baseline, noise and self-test (R263 to
R288). -/

namespace Sys2Proof.Machine

/-- PHASE of an engine: 0 OFF, 1 LINKING, 2 START, 3 SERVICE, 4 SELF_TEST, 5 RECOVERY, 6 HALTED. -/
def State.tPhase (s : State) (n : Nat) : Nat := s.get (Reg.TOUCH_STATUS_PHASE n)

/-- PHASE set. -/
def State.setTPhase (s : State) (n p : Nat) : State := s.set (Reg.TOUCH_STATUS_PHASE n) p

/-- An event of TOUCH_n_STATUS: source 71 + n. -/
def State.touchEvent (s : State) (n : Nat) (flag : Fld) : State := s.event flag (Reg.TOUCH_STATUS_EVENTS n) (71 + n)

/-- CFG_ERR of an engine with its code. -/
def State.touchRefuse (s : State) (n code : Nat) : State :=
  (s.set (Reg.TOUCH_STATUS_ERR_CODE n) code).touchEvent n (Reg.TOUCH_STATUS_CFG_ERR n)

/-- TSL_n_STATUS.STATE: 0 DOWN, 1 ALIGNING, 2 IDENT, 3 UP. -/
def State.linkState (s : State) (n : Nat) : Nat := s.get (Reg.TSL_STATUS_STATE n)

/-- The grid of the head (R247, R256). -/
def State.grid (s : State) (n : Nat) : Grid := { w := s.get (Reg.TSL_IDENT_1_W n), h := s.get (Reg.TSL_IDENT_1_H n) }

/-- R263: whether scans cover half the grid: f_beat above 240 Hz and more than 16,384 pads. -/
def State.halfScans (s : State) (n : Nat) : Bool :=
  let f := s.beatRate
  decide (240 * f.den < f.num) && decide (16384 < (s.grid n).pads)

/-- R264: G_s, the groups of one scan. -/
def State.scanGroups (s : State) (n : Nat) : Nat :=
  let g := (s.grid n).groups
  if s.halfScans n then ceilDiv g 2 else g

/-- QUIET_LINES as it is treated. -/
def State.quietLines (s : State) (n : Nat) : Nat := clampNat 1 8 (s.get (Reg.TOUCH_TRACK_QUIET_LINES n))

/-- R264: the code of the budget that fails: 1 normal, 2 quiet. -/
def State.budgetErr (s : State) (n : Nat) : Option Nat :=
  let gs := s.scanGroups n
  let f := s.beatRate
  let t := s.timing (s.tScreen n)
  let p := s.pixClock t
  let q := s.quietLines n
  -- t_line = H_TOTAL × p.den / p.num seconds
  let lines := fun (k : Nat) => k * t.hTotal * p.den
  if 1000000 * f.den < (530 + 12 * gs) * f.num then
    some 1
  else if s.running (s.tScreen n) &&
      !(decide ((530 * p.num + 1000000 * lines (gs * q + 1)) * f.num ≤ 1000000 * p.num * f.den)
        && decide (10 * p.num ≤ lines q * 1000000)
        && decide (520 * p.num ≤ (t.hTotal - t.hActive) * p.den * 1000000000)) then some 2
  else none

/-- A quiet set starts (R267). -/
def State.quietStart (s : State) (n : Nat) : State := s.setTch n { s.tch n with sums := [], quietScans := 0 }

/-- START at the first enable after device reset, RECOVERY at any later link-up (the phases of the engine). -/
def State.touchBegin (s : State) (n : Nat) : State :=
  let first := !(s.tch n).started
  let s := s.setTch n { s.tch n with started := true }
  (s.quietStart n).setTPhase n (if first then 2 else 5)

/-- R264: the link is UP and the engine enabled: the checks, and the phase that follows; a load that waits is carried out
before START begins (R288). -/
def State.touchLinked (s : State) (n : Nat) : State :=
  if !(s.bit (Reg.TOUCH_CTRL_EN n) && s.linkState n == 3) || (s.tch n).contained then s
  else
    let g := s.grid n
    if !decide (1 ≤ g.w ∧ g.w ≤ 256 ∧ 1 ≤ g.h ∧ g.h ≤ 128) then (s.setTPhase n 6).touchRefuse n 3
    else match s.budgetErr n with
      | some c => (s.setTPhase n 6).touchRefuse n c
      | none => if (s.tch n).loadDue then s.setTPhase n 1 else s.touchBegin n

/-! ### Routing and reports (R60, R205, R206, R282 to R286) -/

/-- The entry of the map at a place in 1/16 pixel (R285). -/
def State.hitAt (s : State) (n x y : Nat) : HitEntry :=
  match s.hitNow n with
  | some m => m.entry (x / 256) (y / 256)
  | none => .none

/-- A contact replaced in the list, or put in by its ID. -/
def State.putContact (s : State) (n : Nat) (c : Contact) : State :=
  let cs := (s.tch n).contacts.filter (·.id != c.id)
  s.setTch n { s.tch n with contacts := cs.filter (fun d => decide (d.id < c.id)) ++ c :: cs.filter (fun d => decide (c.id < d.id)) }

/-- A contact taken out of the list. -/
def State.dropContact (s : State) (n id : Nat) : State :=
  s.setTch n { s.tch n with contacts := (s.tch n).contacts.filter (·.id != id) }

/-- R286, R301: the press cue of a DOWN: whether it is raised, and the state after it. -/
def State.pressCue (s : State) (n : Nat) (c : Contact) : Bool × State :=
  if c.zone = 0xFF || c.startHeld then (false, s)
  else
    let secure := decide (0x80 ≤ c.zone)
    let k := c.zone % 0x80
    let ctrl := s.reg (if secure then Reg.TOUCH_SZONE_CTRL n k else Reg.TOUCH_ZONE_CTRL n k)
    let hc := getBits ctrl 4 4
    if !bitOf ctrl.toNat 1 then (false, s)
    else if secure || (s.bit (Reg.HC_OWNER_VALID hc) && c.session == some (s.get (Reg.HC_OWNER_SESSION hc))) then
      (true, if (s.tch n).scan.beaten.contains hc then s.hapLose hc else s.hapUrgent hc (getBits ctrl 8 6))
    else (false, s.count (Reg.TOUCH_COUNTS2_CUE_REFUSED n))

/-- R273, R282, R285, R286: a contact is reported DOWN. -/
def State.contactDown (s : State) (n : Nat) (c : Contact) : State :=
  let session := match s.hitAt n c.x c.y with | .session k => some k | _ => none
  let s := if session.isNone then s.count (Reg.TOUCH_COUNTS_NONE_DROPS n) else s
  let c := s.stamp n { c with session := session }
  let (cue, s) := s.pressCue n c
  let c := { c with button := cue, sent := (c.x, c.y, c.inten) }
  (s.putContact n c).contactRecord n recDown 0 c

/-- A contact is reported UP with flags. -/
def State.contactUp (s : State) (n flags : Nat) (c : Contact) : State :=
  let c := s.stamp n c
  (s.dropContact n c.id).contactRecord n recUp flags c

/-- R206, R283: an active contact in a report: its MOVE, where there is one, or its release when it enters a protected
tile. -/
def State.contactMove (s : State) (n : Nat) (resend : Bool) (c : Contact) : State :=
  let guest := match c.session with | some k => decide (2 ≤ k) | none => false
  if guest && s.hitAt n c.x c.y == .session 0 then
    let c := s.stamp n c
    (s.putContact n { c with session := none }).contactRecord n recUp flagProtected c
  else
    let c := s.stamp n c
    let moved := c.x != c.sent.1 || c.y != c.sent.2.1 || decide (4 ≤ ((c.inten : Int) - c.sent.2.2).natAbs)
    if moved || resend then
      (s.putContact n { c with sent := (c.x, c.y, c.inten) }).contactRecord n recMove 0 c
    else s.putContact n c

/-- R273, 1: the pairs of tracks and peaks that match: each track is its order and its pad. -/
def matchPairs (g : Grid) (move : Nat) (tracks : List (Nat × Nat)) (peaks : List Peak) : List (Nat × Peak) :=
  let all := (tracks.flatMap fun t => peaks.map fun p => (g.dist t.2 p.pad, t.1, p)).filter fun x => decide (x.1 ≤ move)
  let le := fun (a b : Nat × Nat × Peak) =>
    decide (a.1 < b.1) || (a.1 == b.1 && (decide (a.2.1 < b.2.1) || (a.2.1 == b.2.1 && decide (a.2.2.pad ≤ b.2.2.pad))))
  (all.mergeSort le).foldl (fun acc x =>
    if acc.any (fun m => m.1 == x.2.1 || m.2.pad == x.2.2.pad) then acc else acc ++ [(x.2.1, x.2.2)]) []

/-- R274: the mapping of an engine. -/
def State.touchMap (s : State) (n : Nat) : TouchMap :=
  let t := s.timing (s.tScreen n)
  { scaleX := s.get (Reg.TOUCH_MAP_X_SCALE n), scaleY := s.get (Reg.TOUCH_MAP_Y_SCALE n),
    offX := sext 16 (s.get (Reg.TOUCH_MAP_OFF_OFF_X n)), offY := sext 16 (s.get (Reg.TOUCH_MAP_OFF_OFF_Y n)),
    mirrorX := s.bit (Reg.TOUCH_ORIENT_MIRROR_X n), mirrorY := s.bit (Reg.TOUCH_ORIENT_MIRROR_Y n),
    swap := s.bit (Reg.TOUCH_ORIENT_SWAP_XY n), width := t.hActive, height := t.vActive }

/-- A contact at a peak. -/
def State.contactAt (s : State) (n : Nat) (f : Array Int) (p : Peak) (c : Contact) : Contact :=
  let m := (s.grid n).spot f (s.touchMap n) p.pad
  { c with pad := p.pad, x := m.x, y := m.y, inten := m.inten, area := min 255 p.region.length, region := p.region, misses := 0 }

/-- A new contact with an ID. -/
def newContact (id drum : Nat) (held : Bool) : Contact :=
  { id := id, session := none, pad := 0, x := 0, y := 0, inten := 0, area := 0, zone := 0xFF, hitFrame := 0,
    downDrum := drum, startHeld := held, button := false, misses := 0, region := [], sent := (0, 0, 0), resend := false }

/-- The lowest IDs from 0 to 19 that a list does not hold. -/
def freeIds (used : List Nat) : List Nat := (List.range 20).filter (fun i => !used.contains i)

/-- What becomes of an active contact in a scan. -/
inductive Fate where
  | stay (c : Contact) | up (flags : Nat) (c : Contact)
deriving DecidableEq, Repr

/-- R272, R273, R275, R283: contacts and candidates follow the peaks of a drive scan, and the report's records are
written. A palm's peak takes the contact that matches into it also where its region is water. A SYNC of the report before asks for a MOVE in this one, and a SYNC of this one for a MOVE in the next. -/
def State.touchTrack (s : State) (n : Nat) (f : Array Int) (peaks : List Peak) : State :=
  let t := s.tch n
  let g := s.grid n
  let live := peaks.filter fun p => p.palm || !p.water
  let tracks := t.contacts.map (fun c => (c.id, c.pad)) ++ t.candidates.zipIdx.map (fun c => (20 + c.2, c.1.pad))
  let ms := matchPairs g (s.get (Reg.TOUCH_TRACK_MOVE_MAX n)) tracks live
  let matched := fun (key : Nat) => (ms.find? (·.1 == key)).map (·.2)
  let fates : List Fate := t.contacts.map fun (c : Contact) => match matched c.id with
    | some p => if p.palm then Fate.up flagPalm c else Fate.stay (s.contactAt n f p c)
    | none => if 1 ≤ c.misses then Fate.up 0 c else Fate.stay { c with misses := c.misses + 1 }
  let stay : List Contact := fates.filterMap fun (x : Fate) => match x with | Fate.stay c => some c | Fate.up _ _ => none
  let confirmed := (List.range t.candidates.length).filterMap fun i => (matched (20 + i)).bind fun p => if p.palm then none else some p
  let rest := (live.filter fun p => !p.palm && !ms.any (fun m => m.2.pad == p.pad)).mergeSort
    fun a b => decide (b.value < a.value) || (a.value == b.value && decide (a.pad ≤ b.pad))
  let held := rest.filter fun p => t.held.any (·.1 == p.pad)
  let others := rest.filter fun p => !t.held.any (·.1 == p.pad)
  let downs := confirmed.map (fun p => (p, false)) ++ held.map (fun p => (p, true))
  let ids := freeIds (stay.map (·.id))
  let fresh := (downs.zip ids).map fun x => s.contactAt n f x.1.1 (newContact x.2 t.scan.drum x.1.2)
  let room := 20 - (stay.length + fresh.length)
  let s := s.count (Reg.TOUCH_COUNTS2_EXCESS n) ((others.length - room) + (downs.length - fresh.length))
  let s := s.setTch n { s.tch n with candidates := (others.take room).map fun p => { pad := p.pad, peak := p.value } }
  let resend := (t.contacts.filter (·.resend)).map (·.id)
  let s := s.setTch n { s.tch n with contacts := t.contacts.map fun c => { c with resend := false } }
  s.each (List.range 20) fun i u =>
    let u := match fates.find? (fun (x : Fate) => match x with | Fate.up _ c => c.id == i | Fate.stay _ => false) with
      | some (Fate.up fl c) => u.contactUp n fl c
      | _ => u
    let u := match fresh.find? (fun c => c.id == i) with
      | some c => u.contactDown n c
      | none => u
    match stay.find? (fun c => c.id == i) with
    | some c => u.contactMove n (resend.contains i) { c with resend := (u.tch n).contacts.any fun d => d.id == i && d.resend }
    | none => u

/-! ### The baseline (R268 to R270, R275 to R277) -/

/-- A pad's value in a list by pad. -/
def padNat (l : List (Nat × Nat)) (p : Nat) : Nat := sget (fun _ => 0) l p
/-- An array over the pads of a grid from a list by pad. -/
def padArray (n : Nat) (l : List (Nat × Nat)) : Array Nat :=
  l.foldl (fun a p => a.setIfInBounds p.1 p.2) (Array.replicate n 0)
/-- A list by pad from an array, without zeros. -/
def padList (a : Array Nat) : List (Nat × Nat) := (a.toList.zipIdx.map fun p => (p.2, p.1)).filter (·.2 != 0)

/-- Pads of the sets that are obstructed. -/
def TouchState.obstructedPads (t : TouchState) : List Nat := t.obstructed.flatMap (·.pads)

/-- TOUCH_THRESH in use (R272). -/
def State.touchT (s : State) (n : Nat) : Int :=
  (s.get (Reg.TOUCH_THRESH_TOUCH_THRESH n) : Nat) *
    (if s.bit (Reg.TOUCH_STATUS_NOISE n) then clampNat 1 8 (s.get (Reg.TOUCH_THRESH_NOISE_MULT n)) else 1 : Nat)
/-- RELEASE in use (R269). -/
def State.touchRelease (s : State) (n : Nat) : Int :=
  (s.get (Reg.TOUCH_THRESH_TOUCH_THRESH n) / 2 : Nat) *
    (if s.bit (Reg.TOUCH_STATUS_NOISE n) then clampNat 1 8 (s.get (Reg.TOUCH_THRESH_NOISE_MULT n)) else 1 : Nat)

/-- R269: a baseline moved towards a value by BL_SHIFT. -/
def baseStep (shift v b : Nat) : Nat := ((b : Int) + asr ((v : Int) - b) shift).toNat % 2 ^ 24

/-- The frozen sets of a scan: about each contact's region, each obstructed set, and the START_HELD pads (R270, R275,
R277). -/
def State.frozenSets (s : State) (n : Nat) : List (List Nat) :=
  let t := s.tch n
  (t.contacts.map fun c => (s.grid n).freeze c.region) ++ t.obstructed.map (·.pads)
    ++ (if t.held.isEmpty then [] else [t.held.map (·.1)])

/-- R269, R270: the baselines after a drive scan in SERVICE. A pad of two frozen sets takes the mean of the first of them, in the
order contacts by ID, obstructed sets, START_HELD pads (DESIGN CHOICE, log entry 85). -/
def State.baselineUpdate (s : State) (n : Nat) (d : Array Int) (vals : Array Nat) : State :=
  let t := s.tch n
  let g := s.grid n
  let sets := s.frozenSets n
  let frozen := sets.flatten
  let rel := s.touchRelease n
  let shift := clampNat 4 12 (s.get (Reg.TOUCH_TRACK_BL_SHIFT n))
  let base := padArray g.pads t.base
  let may := fun (p : Nat) => !t.freshFreq && !frozen.contains p && decide ((d.getD p 0).natAbs < rel.natAbs)
  let new := ((List.range g.pads).map fun p =>
    let b := base.getD p 0
    if may p then baseStep shift (vals.getD p 0) b else b).toArray
  let shiftOf := fun (set : List Nat) =>
    let ring := ((set.flatMap g.near).eraseDups).filter fun q => !set.contains q && may q
    if ring.isEmpty then (0 : Int)
    else quotZero (ring.map fun q => (new.getD q 0 : Int) - base.getD q 0).sum ring.length
  let moves := sets.map fun set => (set, shiftOf set)
  let new := frozen.eraseDups.foldl (fun a p => match moves.find? (·.1.contains p) with
    | some m => a.setIfInBounds p (((a.getD p 0 : Int) + m.2).toNat % 2 ^ 24)
    | none => a) new
  s.setTch n { t with base := padList new, frozen := frozen, freshFreq := false }

/-- R275 to R277: what a drive scan's deltas do to START_HELD pads, to pads below their baseline, and to obstructed sets. A pad
below its baseline is recaptured whether or not a baseline is stored (DEDUCED, log entry 96). -/
def State.padHistories (s : State) (n : Nat) (d f : Array Int) (vals : Array Nat) : State :=
  let t := s.tch n
  let g := s.grid n
  let rel := s.touchRelease n
  let base := padArray g.pads t.base
  let held := t.held.map fun h => (h.1, if decide (f.getD h.1 0 < rel) then h.2 + 1 else 0)
  let freed := (held.filter (fun h => decide (2 ≤ h.2))).map (·.1)
  let b := s.beatRate
  let need := ceilDiv b.num (2 * b.den)
  let hollow := (List.range g.pads).filterMap fun p =>
      if decide (f.getD p 0 ≤ -rel) then some (p, padNat t.anti p + 1) else none
  let filled := (hollow.filter (fun h => decide (need ≤ h.2))).map (·.1)
  let base := (freed ++ filled).foldl (fun a p => a.setIfInBounds p (vals.getD p 0)) base
  let obs := t.obstructed.map fun o =>
    { o with below := if o.pads.all (fun p => decide (d.getD p 0 < rel)) then o.below + 1 else 0 }
  s.setTch n { t with held := held.filter (fun h => decide (h.2 < 2)), anti := hollow.filter (fun h => decide (h.2 < need)),
                      base := padList base, obstructed := obs.filter (fun o => decide (o.below < 2)) }

/-- R288: the baseline image as it lies in memory. -/
def State.baselineImage (s : State) (n : Nat) : List Byte :=
  let g := s.grid n
  let base := padArray g.pads (s.tch n).base
  let words := (List.range g.pads).flatMap fun p => leBytes 4 (base.getD p 0)
  leBytes 2 g.w ++ leBytes 1 g.h ++ [0x01] ++ leBytes 4 (s.get (Reg.TSL_IDENT_2_SERIAL n)) ++ leBytes 4 (crc32c words)
    ++ leBytes 4 0 ++ words

/-- A load or dump ends (R288, R479): its bit falls, DONE is set, and BUSY stays while the other one is pending. -/
def State.blDone (s : State) (n : Nat) (cmd : Fld) : State :=
  let s := (s.set cmd 0).set (Reg.TOUCH_BL_CMD_BUSY n) (b2n ((s.tch n).loadDue || (s.tch n).dumpDue))
  (s.set (Reg.TOUCH_BL_CMD_DONE n) 1).raiseIrq (71 + n)

/-- R288: a dump that waits is written at the end of a report. -/
def State.dumpRun (s : State) (n : Nat) : State :=
  if !(s.tch n).dumpDue then s
  else
    let s := s.dmaWrite (s.ownerWorld 0x10 n) 26 (256 * s.get (Reg.TOUCH_BL_ADDR_ADDR n)) (s.baselineImage n)
    (s.setTch n { s.tch n with dumpDue := false }).blDone n (Reg.TOUCH_BL_CMD_DUMP n)

/-- R213, R288: a load: W, H, SERIAL and the CRC of the image are checked, and nothing else of it. -/
def State.loadRun (s : State) (n : Nat) : State :=
  let g := s.grid n
  let a := 256 * s.get (Reg.TOUCH_BL_ADDR_ADDR n)
  if s.startWaits a (16 + 4 * g.pads) then s else
  let (r, s) := s.dmaRead (s.ownerWorld 0x10 n) 26 a (16 + 4 * g.pads)
  let s := s.setTch n { s.tch n with loadDue := false }
  match r with
  | some bs =>
    let words := bs.drop 16
    let ok := leNat (bs.take 2) == g.w && leNat ((bs.drop 2).take 1) == g.h
      && leNat ((bs.drop 4).take 4) == s.get (Reg.TSL_IDENT_2_SERIAL n) && leNat ((bs.drop 8).take 4) == crc32c words
    if ok then
      let img := (List.range g.pads).map fun p => (p, leNat ((words.drop (4 * p)).take 3))
      ((s.setTch n { s.tch n with stored := img.filter (·.2 != 0) }).set (Reg.TOUCH_STATUS_STORED_VALID n) 1).blDone n
        (Reg.TOUCH_BL_CMD_LOAD n)
    else (s.set (Reg.TOUCH_BL_CMD_LOAD_REJECTED n) 1).blDone n (Reg.TOUCH_BL_CMD_LOAD n)
  | none => (s.set (Reg.TOUCH_BL_CMD_LOAD_REJECTED n) 1).blDone n (Reg.TOUCH_BL_CMD_LOAD n)

/-! ### The end of a scan -/

/-- R272, 5: the filtered deltas with the obstructed pads at 0. -/
def clearPads (f : Array Int) (pads : List Nat) : Array Int := pads.foldl (fun a p => a.setIfInBounds p 0) f

/-- R268, R269, R271 to R276, R283: a drive scan in SERVICE. `late` says that its records cannot be written before the next
BEAT: its report is dropped there, and contacts keep their last reported state (R32, R284). -/
def State.driveScan (s : State) (n : Nat) (late : Bool) : State :=
  let t := s.tch n
  let g := s.grid n
  let noise := s.bit (Reg.TOUCH_STATUS_NOISE n)
  let vals := (padArray g.pads t.counts).map (· * 256)
  let base := padArray g.pads t.base
  let d := ((List.range g.pads).map fun p => deltaOf (vals.getD p 0) (base.getD p 0)).toArray
  let old := fun (l : List (Nat × Int)) (p : Nat) => sget (fun _ => 0) l p
  let obs := t.obstructedPads
  let m := ((List.range g.pads).map fun p =>
    if noise then median3 (d.getD p 0) (old t.prev1 p) (old t.prev2 p) else d.getD p 0).toArray
  let f := clearPads (g.filtered m) obs
  let peaks := g.detect f (s.touchT n) (s.touchRelease n) (s.get (Reg.TOUCH_THRESH_PALM_PADS n))
  let s := if late then s.setTch n { s.tch n with reportDue := true } else (s.touchTrack n f peaks).dumpRun n
  let s := (s.baselineUpdate n d vals).padHistories n d f vals
  let deltas := ((List.range g.pads).map fun p => (p, d.getD p 0)).filter (·.2 != 0)
  s.setTch n { s.tch n with prev1 := deltas, prev2 := t.prev1 }

/-- R279: conducted-noise mode begins: the entry is counted and raises the note. -/
def State.noiseEnter (s : State) (n : Nat) : State :=
  let s := s.setTch n { s.tch n with calm := 0 }
  ((s.set (Reg.TOUCH_STATUS_NOISE n) 1).count (Reg.TOUCH_COUNTS2_NOISE_ENTRIES n)).raiseFault (176 + n)

/-- R279, R280: a listen scan. -/
def State.listenScan (s : State) (n : Nat) : State :=
  let t := s.tch n
  let g := s.grid n
  let fig := g.noiseFigure (padArray g.pads t.scan.counts) t.scan.first t.scan.groups
  let thr := s.get (Reg.TOUCH_LISTEN_LISTEN_THRESH n)
  let was := s.bit (Reg.TOUCH_STATUS_NOISE n)
  let cur := s.get (Reg.TOUCH_COUNTS2_FREQ n)
  let s := s.set (Reg.TOUCH_LISTEN_NOISE_LAST n) fig
  let figs := sput (fun _ => none) t.figures t.scan.freq (some fig)
  let calm := if decide (fig ≤ thr / 2) then t.calm + 1 else 0
  let s := s.setTch n { t with figures := figs, calm := calm, survey := t.scan.freq }
  if !was then
    if thr < fig then s.noiseEnter n else s
  else
    let fig := fun (k : Nat) => sget (fun _ => none) figs k
    let best := (List.range 8).foldl (fun (b : Option (Nat × Nat)) k =>
      if k = cur then b
      else match fig k, b with
        | some v, some (_, w) => if v < w then some (k, v) else b
        | some v, none => some (k, v)
        | none, _ => b) none
    let s := match best, fig cur with
      | some (k, v), some c =>
        if 4 * v < 3 * c then (s.set (Reg.TOUCH_COUNTS2_FREQ n) k).setTch n { s.tch n with freshFreq := true } else s
      | _, _ => s
    if 4 ≤ calm then s.set (Reg.TOUCH_STATUS_NOISE n) 0 else s

/-- R281: the partner of a shorted pad: the 4-neighbour of the opposite sign with the largest difference, coded left, right,
up, down; none where no neighbour has the opposite sign. -/
def Grid.partner (g : Grid) (diff : Array Int) (p : Nat) : Option Nat :=
  let own := diff.getD p 0
  let opp := orthSteps.zipIdx.filterMap fun st => (g.at (g.col p + st.1.1) (g.row p + st.1.2)).bind fun q =>
    let v := diff.getD q 0
    if decide (own < 0 ∧ 0 < v ∨ 0 < own ∧ v < 0) then some (st.2, v.natAbs) else none
  (opp.foldl (fun (b : Option (Nat × Nat)) x => match b with
    | none => some x
    | some y => if y.2 < x.2 then some x else some y) none).map (·.1)

/-- R281: the result of a self-test from its three images. -/
def State.selfTestResult (s : State) (n : Nat) (imgB : Array Nat) : State :=
  let t := s.tch n
  let g := s.grid n
  let img := padArray g.pads t.stBase
  let imgA := padArray g.pads t.stA
  let base := padArray g.pads (if s.bit (Reg.TOUCH_STATUS_STORED_VALID n) then t.stored else t.base)
  let ratio := s.get (Reg.TOUCH_SELFTEST_OPEN_RATIO n)
  let diff := ((List.range g.pads).map fun p => (imgA.getD p 0 : Int) - imgB.getD p 0).toArray
  let faults := (List.range g.pads).flatMap fun p =>
    (if img.getD p 0 < base.getD p 0 * ratio / 256 then [(p, 0)] else [])
      ++ (if 256 * s.get (Reg.TOUCH_SELFTEST_SHORT_THRESH n) < (diff.getD p 0).natAbs then [(p, 1)] else [])
  let s := s.each (List.range 16) fun k u => u.setReg (Reg.TOUCH_ST_FAULT n k) 0
  let s := s.each (faults.take 16).zipIdx fun e u =>
    let ((p, kind), k) := e
    let (part, u) := if kind = 0 then (0, u) else match g.partner diff p with
      | some c => (c, u)
      | none => let (v, u) := u.draw; (v % 4, u)
    let u := (u.set (Reg.TOUCH_ST_FAULT_VALID n k) 1).set (Reg.TOUCH_ST_FAULT_KIND n k) kind
    (u.set (Reg.TOUCH_ST_FAULT_PARTNER n k) part).set (Reg.TOUCH_ST_FAULT_PAD n k) p
  let opens := (faults.filter (·.2 == 0)).length
  let shorts := (faults.filter (·.2 == 1)).length
  let s := (s.set (Reg.TOUCH_ST_RESULT_OPENS n) (min 255 opens)).set (Reg.TOUCH_ST_RESULT_SHORTS n) (min 255 shorts)
  let s := (s.set (Reg.TOUCH_ST_RESULT_PASS n) (b2n faults.isEmpty)).set (Reg.TOUCH_ST_RESULT_RUNNING n) 0
  let s := ((s.set (Reg.TOUCH_ST_RESULT_DONE n) 1).raiseIrq (71 + n)).set (Reg.TOUCH_CTRL_SELFTEST n) 0
  let s := (s.quietStart n).setTPhase n 5
  if faults.isEmpty then s else s.raiseFault (184 + n)

/-- R275 to R278: START or RECOVERY takes its quiet image. Pads that are obstructed keep their baseline, are never START_HELD and yield
no peak. The image's delta stands for each of its drive scans, so that the median of R271 over the last three is that delta
(DEDUCED, log entry 85). -/
def State.startImage (s : State) (n : Nat) (img : Array Nat) (late : Bool) : State :=
  let t := s.tch n
  let g := s.grid n
  let start := s.tPhase n == 2
  let ref := if !start then some t.base else if s.bit (Reg.TOUCH_STATUS_STORED_VALID n) then some t.stored else none
  let refs := padArray g.pads (ref.getD [])
  let thr := s.get (Reg.TOUCH_THRESH_TOUCH_THRESH n)
  let obs := t.obstructedPads
  let old := padArray g.pads t.base
  let heldPads := if ref.isNone then [] else
    (List.range g.pads).filter fun p => !obs.contains p && decide ((thr : Int) ≤ deltaOf (img.getD p 0) (refs.getD p 0))
  let base := ((List.range g.pads).map fun p =>
    if obs.contains p then old.getD p 0 else if heldPads.contains p then refs.getD p 0 else img.getD p 0).toArray
  let d := ((List.range g.pads).map fun p => deltaOf (img.getD p 0) (base.getD p 0)).toArray
  let deltas := ((List.range g.pads).map fun p => (p, d.getD p 0)).filter (·.2 != 0)
  let s := s.setTch n { t with base := padList base, held := heldPads.map fun p => (p, 0), prev1 := deltas, prev2 := deltas, anti := [] }
  let f := clearPads (g.filtered d) obs
  let peaks := g.detect f (s.touchT n) (s.touchRelease n) (s.get (Reg.TOUCH_THRESH_PALM_PADS n))
  let s := if late then s.setTch n { s.tch n with reportDue := true } else s.touchTrack n f peaks
  (s.set (Reg.TOUCH_CTRL_RECAPTURE n) 0).setTPhase n 3

/-- R267, R275 to R278, R281: a drive scan of a quiet phase; the eighth completes an image in 16.8 fixed point. -/
def State.quietScan (s : State) (n : Nat) (late : Bool) : State :=
  let t := s.tch n
  let g := s.grid n
  let sums := padArray g.pads t.sums
  let cnt := padArray g.pads t.counts
  let sums := ((List.range g.pads).map fun p => sums.getD p 0 + cnt.getD p 0).toArray
  if t.quietScans + 1 < 8 then s.setTch n { t with sums := padList sums, quietScans := t.quietScans + 1 }
  else
    let img := sums.map (· * 32)
    let s := s.quietStart n
    if s.tPhase n = 4 then
      if t.stImage = 0 then s.setTch n { s.tch n with stImage := 1, stBase := padList img }
      else if t.stImage = 1 then s.setTch n { s.tch n with stImage := 2, stA := padList img }
      else s.selfTestResult n img
    else s.startImage n img late

/-- The last group of a scan has been received: the scan is processed. The pads of the groups it took have their new counts, a count of
0 among them, and those of the other half theirs of its last scan (R263). A drive scan of a quiet phase is a scan after a frequency
change too (R269). -/
def State.scanEnd (s : State) (n : Nat) (late : Bool) : State :=
  let t := s.tch n
  let taken := fun (p : Nat) => decide (t.scan.first ≤ p / 128 ∧ p / 128 < t.scan.first + t.scan.groups)
  let counts := if t.scan.listen then t.counts
    else padList ((List.range (s.grid n).pads).map fun p => if taken p then padNat t.scan.counts p else padNat t.counts p).toArray
  let ph := s.tPhase n
  let s := s.setTch n { t with scan := { t.scan with active := false }, discarded := 0, counts := counts,
                               freshFreq := t.freshFreq && ph == 3 }
  if ph = 3 then (if t.scan.listen then s.listenScan n else s.driveScan n late)
  else if ph = 2 || ph = 4 || ph = 5 then s.quietScan n late
  else s

end Sys2Proof.Machine
end

