-- ==== Sys2Proof/Machine/Touch.lean ====
section
/-! DEFINITION. The Silvos links and the commands of the touch engines (R248 to R288). -/

namespace Sys2Proof.Machine

/-! ### The link (R250 to R261) -/

/-- An event of TSL_n_STATUS: source 63 + n. -/
def State.tslEvent (s : State) (n : Nat) (flag : Fld) : State := s.event flag (Reg.TSL_STATUS_EVENTS n) (63 + n)

/-- STATE of the link set. -/
def State.setLink (s : State) (n v : Nat) : State := s.set (Reg.TSL_STATUS_STATE n) v

/-- A command of the link begins: what it sends is new. -/
def State.linkBegin (s : State) (n : Nat) : State := s.setTch n { s.tch n with sent := [] }

/-- R253, R254: a command frame goes downstream: SEQ, CMD, LEN, the payload and the CRC of these, low byte first. -/
def State.tslSend (s : State) (n cmd : Nat) (payload : List Byte) : State :=
  let t := s.tch n
  let body := leBytes 1 t.seq ++ leBytes 1 cmd ++ leBytes 1 payload.length ++ payload
  s.setTch n { t with sent := t.sent ++ [body ++ leBytes 2 (crc16 body)], seq := (t.seq + 1) % 256 }

/-- R253: the CRC of an upstream frame, with FSEQ folded in ahead of the body. -/
def State.upCrc (s : State) (n : Nat) (body : List Byte) : Nat := crc16 (leBytes 2 (s.tch n).fseq ++ body)

/-- The head has sent an upstream frame: FSEQ counts it, whatever becomes of it and whatever the link's state (R253). -/
def State.upCount (s : State) (n : Nat) : State := s.setTch n { s.tch n with fseq := ((s.tch n).fseq + 1) % 2 ^ 16 }

/-- R259, 1: the link starts to align. FSEQ goes on: only a BEAT starts it again, and a RESET, after which the head is as at
power-up (R253, R254). -/
def State.tslAlign (s : State) (n : Nat) : State := (s.setLink n 1).setTch n { s.tch n with discarded := 0 }

/-- The engine of a link that has stopped waits for it. -/
def State.touchUnlinked (s : State) (n : Nat) : State :=
  let ph := s.tPhase n
  let s := s.touchAbandon n
  if 2 ≤ ph ∧ ph ≤ 5 then s.setTPhase n 1 else s

/-- R261: the link is lost; it is not UP any more when the note is raised (R483). -/
def State.tslLose (s : State) (n : Nat) : State :=
  let s := s.tslEvent n (Reg.TSL_STATUS_LOST n)
  (((s.releaseContacts n flagLost).touchUnlinked n).tslAlign n).raiseFault (160 + n)

/-- A write to TSL_n_CTRL: while the link is enabled, its MARK_LEAD alone is ignored (R259, R287). -/
def State.tslCtrlWrite (s : State) (n : Nat) (v : Word) : State :=
  let a := Reg.TSL_CTRL n
  let was := s.bit (Reg.TSL_CTRL_EN n)
  let en := bitOf v.toNat 0
  let lead := s.get (Reg.TSL_CTRL_MARK_LEAD n)
  let s := s.when (was && getBits v 16 9 != lead) (·.tslEvent n (Reg.TSL_STATUS_WRITE_WHILE_ACTIVE n))
  let s := s.plainWrite a (if was then setBits v 16 9 lead else v)
  if !was && en then s.tslAlign n
  else if was && !en then (s.touchUnlinked n).setLink n 0
  else s

/-- TSL_ENABLE. -/
def execTslEnable (n : Fin 8) (w : World) (v : Word) (s : State) : Host.Outcome State Fault Refusal :=
  .next (s.asWriter w 0x0F n false fun t => (t.linkBegin n).tslCtrlWrite n (withBit v 0))

/-- TSL_DISABLE. -/
def execTslDisable (n : Fin 8) (w : World) (v : Word) (s : State) : Host.Outcome State Fault Refusal :=
  .next (s.asWriter w 0x0F n false fun t => (t.linkBegin n).tslCtrlWrite n (withoutBit v 0))

/-- R259, 2: 64 aligned symbols have come. -/
def State.tslAligned (s : State) (n : Nat) : State :=
  if s.linkState n = 1 then ((s.linkBegin n).tslSend n 0x01 []).setLink n 2 else s

/-- TSL_ALIGNED. -/
def execTslAligned (n : Fin 8) (s : State) : Host.Outcome State Fault Refusal := .next (s.tslAligned n)

/-- CONFIG's payload: the drive frequencies, held within 50 to 1,000 kHz (R254). -/
def State.configPayload (s : State) (n : Nat) : List Byte :=
  (List.range 8).flatMap fun k => leBytes 2 (clampNat 50 1000 (s.get (Reg.TSL_FREQ_KHZ n k)))

/-- R253, R259: a frame has failed its CRC. -/
def State.crcError (s : State) (n : Nat) : State :=
  (s.tslEvent n (Reg.TSL_STATUS_CRC_ERR n)).count (Reg.TSL_ERRORS_CRC n)

/-- R259, 3: an IDENT frame comes; a valid one makes the link UP, and the engine that waits goes on (R264). A width that the
register's nine bits cannot hold reads as 511, which R247 refuses as well (log entry 31). -/
def State.tslIdent (s : State) (n : Nat) (body : List Byte) (crc : Nat) : State :=
  let s := s.linkBegin n
  let good := s.upCrc n body == crc
  let s := s.upCount n
  if s.linkState n = 0 then s
  else
    if !good then s.crcError n
    else if s.linkState n ≠ 2 ∨ body.length ≠ 13 ∨ byteAt body 0 ≠ 0x01 ∨ byteAt body 5 ≠ 0x01 then s
    else
      let f := fun (i k : Nat) => leNat ((body.drop i).take k)
      let s := (s.set (Reg.TSL_IDENT_0_VENDOR n) (f 1 2)).set (Reg.TSL_IDENT_0_MODEL n) (f 3 2)
      let s := (s.set (Reg.TSL_IDENT_1_PROTO n) (f 5 1)).set (Reg.TSL_IDENT_1_W n) (min 511 (f 6 2))
      let s := (s.set (Reg.TSL_IDENT_1_H n) (f 8 1)).set (Reg.TSL_IDENT_2_SERIAL n) (f 9 4)
      let s := (s.tslSend n 0x02 (s.configPayload n)).setLink n 3
      (s.liveFell (160 + n)).touchLinked n

/-- TSL_IDENT. -/
def execTslIdent (n : Fin 8) (body : List Byte) (crc : BitVec 16) (s : State) : Host.Outcome State Fault Refusal :=
  .next (s.tslIdent n body crc.toNat)

/-- R259: bring-up has not completed in 100 ms. -/
def State.tslBringupTimeout (s : State) (n : Nat) : State :=
  if s.linkState n = 1 ∨ s.linkState n = 2 then 
    let s := ((s.linkBegin n).tslSend n 0x0F []).tslAlign n
    s.setTch n { s.tch n with fseq := 0 }
  else s

/-- TSL_BRINGUP_TIMEOUT. -/
def execTslBringupTimeout (n : Fin 8) (s : State) : Host.Outcome State Fault Refusal := .next (s.tslBringupTimeout n)

/-! ### Marks (R251, R262, R266) -/

/-- R251: when a mark's last bit leaves the pin, for symbol boundaries at `phase` modulo 80 ns: the first boundary at or
after MARK_LEAD before the intended instant, and for CLOSE the last at or before it. -/
def markTime (lead phase : Nat) (instant : Int) (close : Bool) : Int :=
  let x := instant - lead - phase
  phase + (if close then x / 80 * 80 else -(-x / 80 * 80))

/-- R251: the order of marks whose intended instants are equal. -/
def Mark.order : Mark → Nat
  | .close => 0 | .conv => 1 | .beat => 2 | .open => 3

/-- R251: whether a mark leaves the pin before another: on one boundary the earlier intended instant goes first, and of equal ones
CLOSE, CONV, BEAT, OPEN. -/
def PlacedMark.before (a b : PlacedMark) : Bool :=
  decide (a.time < b.time) || (a.time == b.time && (decide (a.instant < b.instant)
    || (a.instant == b.instant && decide (a.mark.order ≤ b.mark.order))))

/-- A mark placed among the marks of its scan. -/
def State.placeMark (s : State) (n : Nat) (m : PlacedMark) (sc : Scan) : State :=
  s.setTch n { s.tch n with scan := { sc with marks := sc.marks.filter (fun k => k.before m) ++ m :: sc.marks.filter (fun k => !k.before m) } }

/-- R266: a time on the screen's lines against the beat of the scan, in ns times the returned denominator: `p` pixels after the start
of line `i`, counted from the grid beat of the frame. -/
def State.lineTime (s : State) (n i p : Nat) : Int × Nat :=
  let screen := s.tScreen n
  let t := s.timing screen
  let c := s.pixClock t
  let f := s.beatRate
  let beats := (s.tch n).scan.drum - (s.scr screen).frameDrum
  ((((i * t.hTotal + p) * c.den * f.num * 1000000000 : Nat) : Int) - ((beats * f.den * c.num * 1000000000 : Nat) : Int), c.num * f.num)

/-- R266: the first line whose blanking, as the port sends it, starts at least 20 µs after the beat. -/
def State.firstQuietLine (s : State) (n : Nat) : Nat :=
  let t := s.timing (s.tScreen n)
  let (b, d) := s.lineTime n 0 (t.hActive + 8)
  let (l, _) := s.lineTime n 1 (t.hActive + 8)
  ceilDiv ((20000 * d : Nat) - b).toNat (max 1 (l - b).toNat)

/-- R184, R266: whether an instant is the one at which a mark of quiet sampling is intended, to the ns: OPEN 80 ns after pixel
H_ACTIVE of its line, CLOSE 80 ns before pixel 0 of the next one, both after the port's 8 pixels, and CONV not before the last
CLOSE. -/
def State.quietInstant (s : State) (n : Nat) (m : Mark) (instant : Nat) : Bool :=
  let k := (s.tch n).scan
  let line := s.firstQuietLine n + k.convs * s.quietLines n + k.opens
  let at_ := fun (x : Int × Nat) (off : Int) => decide ((((instant : Int) - off) * x.2 - x.1).natAbs < x.2)
  match m with
  | .open => at_ (s.lineTime n line ((s.timing (s.tScreen n)).hActive + 8)) 80
  | .close => at_ (s.lineTime n line 8) (-80)
  | .conv => k.marks.all fun c => c.mark != .close || decide (c.instant ≤ instant)
  | .beat => true

/-- Windows of one conversion: QUIET_LINES in quiet sampling, one otherwise (R262, R266). -/
def State.windows (s : State) (n : Nat) : Nat := if (s.tch n).scan.quiet then s.quietLines n else 1

/-- R251, R262, R266: a mark of the scan under way, on the link's symbol grid, whose phase against the beat stands since BEAT. Its
intended instant is `20 µs + 12 µs × k` and the offset in normal sampling, and the one that the screen's lines give in quiet
sampling. A screen that has stopped discards the scan. -/
def State.tslMark (s : State) (n : Nat) (m : Mark) (instant : Nat) : State :=
  let s := s.linkBegin n
  let k := (s.tch n).scan
  let lead := s.get (Reg.TSL_CTRL_MARK_LEAD n)
  if !k.active then s
  else if k.quiet && !s.sends (s.tScreen n) then s.scanDiscard n false
  else if k.quiet && !s.quietInstant n m instant then s
  else
    let t := fun (off : Nat) =>
      let x : Int := if k.quiet then (instant : Int) else ((20000 + 12000 * k.convs + off : Nat) : Int)
      ({ mark := m, time := markTime lead k.phase x (m == .close), instant := x } : PlacedMark)
    match m with
    | .open => if !k.isOpen ∧ k.opens < s.windows n ∧ k.convs < k.groups then
        s.placeMark n (t 1000) { k with isOpen := true, opens := k.opens + 1 } else s
    | .close => if k.isOpen then s.placeMark n (t 11000) { k with isOpen := false } else s
    | .conv => if !k.isOpen ∧ k.opens = s.windows n then
        s.placeMark n (t 12000) { k with opens := 0, convs := k.convs + 1 } else s
    | .beat => s

/-- TSL_OPEN. The phase of the symbol grid is the one BEAT found it at; the operand that repeats it is not read (log entry 81). -/
def execTslOpen (n : Fin 8) (_phase : Fin 80) (instant : Nat) (s : State) : Host.Outcome State Fault Refusal :=
  .next (s.tslMark n .open instant)

/-- TSL_CLOSE. The phase of the symbol grid is the one BEAT found it at; the operand that repeats it is not read (log entry 81). -/
def execTslClose (n : Fin 8) (_phase : Fin 80) (instant : Nat) (s : State) : Host.Outcome State Fault Refusal :=
  .next (s.tslMark n .close instant)

/-- TSL_CONV. The phase of the symbol grid is the one BEAT found it at; the operand that repeats it is not read (log entry 81). -/
def execTslConv (n : Fin 8) (_phase : Fin 80) (instant : Nat) (s : State) : Host.Outcome State Fault Refusal :=
  .next (s.tslMark n .conv instant)

/-! ### Upstream frames and errors (R256 to R261) -/

/-- The counts of a GROUP frame, by pad (R256). -/
def groupCounts (pads group : Nat) (body : List Byte) : List (Nat × Nat) :=
  (List.range 128).filterMap fun i =>
    let p := group * 128 + i
    if p < pads then some (p, leNat ((body.drop (5 + 2 * i)).take 2)) else none

/-- R256, R260: a GROUP frame comes; the scan's last one ends the scan. -/
def State.tslGroup (s : State) (n : Nat) (body : List Byte) (crc : Nat) (e : ScanEnd) : State :=
  let s := s.linkBegin n
  let good := s.upCrc n body == crc
  let s := s.upCount n
  if s.linkState n ≠ 3 then s
  else
    if !good then (s.crcError n).scanDiscard n false
    else if body.length ≠ 261 ∨ byteAt body 0 ≠ 0x10 then s
    else
      let k := (s.tch n).scan
      let g := leNat ((body.drop 3).take 2)
      if !k.active then s
      else if byteAt body 1 ≠ k.dseq ∨ g ≠ k.first + k.got then
        (s.tslEvent n (Reg.TSL_STATUS_SEQ_ERR n)).scanDiscard n true
      else
        let counts := (groupCounts (s.grid n).pads g body).foldl (fun l p => sput (fun _ => 0) l p.1 p.2) k.counts
        let s := s.setTch n { s.tch n with scan := { k with got := k.got + 1, counts := counts, beaten := e.beaten.map (·.val) } }
        if k.got + 1 = k.groups then s.scanEnd n e.late else s

/-- TSL_GROUP. -/
def execTslGroup (n : Fin 8) (body : List Byte) (crc : BitVec 16) (e : ScanEnd) (s : State) :
    Host.Outcome State Fault Refusal := .next (s.tslGroup n body crc.toNat e)

/-- R250, R253, R260: a code error; in a GROUP frame, which the head has sent all the same, it discards the scan. -/
def State.tslCodeError (s : State) (n : Nat) (inFrame : Bool) : State :=
  let s := (s.linkBegin n).when inFrame (·.upCount n)
  if s.linkState n = 0 then s
  else
    let s := (s.tslEvent n (Reg.TSL_STATUS_CODE_ERR n)).count (Reg.TSL_ERRORS_CODE n)
    s.when inFrame (·.scanDiscard n false)

/-- TSL_CODE_ERROR. -/
def execTslCodeError (n : Fin 8) (inFrame : Bool) (s : State) : Host.Outcome State Fault Refusal :=
  .next (s.tslCodeError n inFrame)

/-- TSL_ABORT: the frame in progress, of which nothing has been taken, is discarded without counting an error (R250). -/
def execTslAbort (n : Fin 8) (s : State) : Host.Outcome State Fault Refusal := .next (s.linkBegin n)

/-- R257, R260: a GROUP frame misses its deadline. -/
def State.tslGroupTimeout (s : State) (n : Nat) : State :=
  if (s.tch n).scan.active then ((s.linkBegin n).tslEvent n (Reg.TSL_STATUS_TIMEOUT n)).scanDiscard n true else s

/-- TSL_GROUP_TIMEOUT. -/
def execTslGroupTimeout (n : Fin 8) (s : State) : Host.Outcome State Fault Refusal := .next (s.tslGroupTimeout n)

/-- R261: no valid symbol for 100 µs. -/
def State.tslSilence (s : State) (n : Nat) : State := if s.linkState n = 3 then (s.linkBegin n).tslLose n else s

/-- TSL_SILENCE. -/
def execTslSilence (n : Fin 8) (s : State) : Host.Outcome State Fault Refusal := .next (s.tslSilence n)

/-- R261: eight consecutive discarded scans. -/
def State.tslLost (s : State) (n : Nat) : State :=
  if s.linkState n = 3 ∧ 8 ≤ (s.tch n).discarded then (s.linkBegin n).tslLose n else s

/-- TSL_LOST. -/
def execTslLost (n : Fin 8) (s : State) : Host.Outcome State Fault Refusal := .next (s.tslLost n)

/-! ### The beat of an engine (R255, R263, R265, R280, R284) -/

/-- The frequency index a scan uses: in conducted-noise mode a listen scan measures the next candidate (R280). -/
def State.scanFreq (s : State) (n : Nat) (listen : Bool) : Nat :=
  let cur := s.get (Reg.TOUCH_COUNTS2_FREQ n)
  if listen && s.bit (Reg.TOUCH_STATUS_NOISE n) then
    let next := ((s.tch n).survey + 1) % 8
    if next = cur then (next + 1) % 8 else next
  else cur

/-- R255, R284: what a beat does on a panel: a report not written is dropped, the SCAN frame goes out, and the scan starts
with the BEAT mark, on the first symbol boundary of the link at or after its moment. -/
def State.touchBeat (s : State) (n : Nat) : State :=
  let s := s.linkBegin n
  if s.linkState n ≠ 3 then s
  else
    let s := s.tslGroupTimeout n
    let s := if (s.tch n).reportDue then
        let s := s.setTch n { s.tch n with reportDue := false }
        let s := (s.touchEvent n (Reg.TOUCH_STATUS_OVERRUN n)).count (Reg.TOUCH_COUNTS_DROPPED n)
        s.breach { rank := 7, yielded := 7, port := none, mag := 1, unit := 0x10, inst := n }
      else s
    let ph := s.tPhase n
    if ph < 2 ∨ 5 < ph then s
    else
      let drum := s.drumbeat
      let listen := ph == 3 && drum % 16 == 15
      let g := s.grid n
      let half := if s.halfScans n then drum % 2 + 1 else 0
      let first := if half = 2 then ceilDiv g.groups 2 else 0
      let groups := if half = 0 then g.groups else if half = 1 then ceilDiv g.groups 2 else g.groups - first
      let guard := if ph = 4 then (s.tch n).stImage else 0
      let freq := s.scanFreq n listen
      let runs := s.sends (s.tScreen n)
      let s := s.when (ph != 3 && !runs) (·.touchEvent n (Reg.TOUCH_STATUS_QUIET_FALLBACK n))
      let dseq := (s.tch n).seq
      let s := s.tslSend n 0x03 (leBytes 1 (half + (if listen then 0 else 4) + 8 * guard) ++ leBytes 1 freq)
      let (v, s) := s.draw
      let phase := v % 80
      let scan : Scan :=
        { active := true, drum := drum, dseq := dseq, listen := listen, half := half, guard := guard, freq := freq,
          quiet := ph != 3 && runs, first := first, groups := groups,
          phase := phase,
          marks := [{ mark := .beat, time := markTime (s.get (Reg.TSL_CTRL_MARK_LEAD n)) phase 0 false, instant := 0 }] }
      s.setTch n { s.tch n with fseq := 0, scan := scan }

/-! ### Commands of an engine (R264, R277, R278, R281, R287, R288) -/

/-- The self-test begins (R281). -/
def State.selfTestStart (s : State) (n : Nat) : State :=
  let s := (s.releaseContacts n flagSuspended).setTch n { (s.releaseContacts n flagSuspended).tch n with stImage := 0 }
  let s := ((s.set (Reg.TOUCH_CTRL_SELFTEST n) 1).set (Reg.TOUCH_ST_RESULT_RUNNING n) 1).quietStart n
  let s := s.setTch n { s.tch n with scan := { (s.tch n).scan with active := false } }
  s.setTPhase n 4

/-- R278: RECAPTURE. -/
def State.recaptureStart (s : State) (n : Nat) : State :=
  let s := s.releaseContacts n flagSuspended
  let s := s.setTch n { s.tch n with obstructed := [], scan := { (s.tch n).scan with active := false } }
  ((s.set (Reg.TOUCH_CTRL_RECAPTURE n) 1).quietStart n).setTPhase n 5

/-- A write to TOUCH_n_CTRL: while the engine is enabled, its SCREEN alone is ignored; an engine that C2 holds stays HALTED
(R264, R278, R281, R287, R394). -/
def State.touchCtrlWrite (s : State) (n : Nat) (v : Word) : State :=
  let was := s.bit (Reg.TOUCH_CTRL_EN n)
  let en := bitOf v.toNat 0
  let screen := s.tScreen n
  let s := s.when (was && getBits v 16 3 != screen) (·.touchEvent n (Reg.TOUCH_STATUS_WRITE_WHILE_ACTIVE n))
  let s := s.plainWrite (Reg.TOUCH_CTRL n) (withoutBit (withoutBit (if was then setBits v 16 3 screen else v) 2) 3)
  let held := (s.tch n).contained
  let s := if was && !en then
      let t := (s.releaseContacts n flagSuspended).touchAbandon n
      if held then t else t.setTPhase n 0
    else if !was && en && !held then (s.setTPhase n 1).touchLinked n
    else s
  let s := if bitOf v.toNat 3 then
      if s.tPhase n = 3 then s.selfTestStart n else s.touchRefuse n 4
    else s
  if bitOf v.toNat 2 then
    if s.tPhase n = 3 then s.recaptureStart n else s.touchRefuse n 4
  else s

/-- TOUCH_ENABLE. -/
def execTouchEnable (n : Fin 8) (w : World) (v : Word) (s : State) : Host.Outcome State Fault Refusal :=
  .next (s.asWriter w 0x10 n false (·.touchCtrlWrite n (withBit v 0)))

/-- TOUCH_DISABLE. -/
def execTouchDisable (n : Fin 8) (w : World) (v : Word) (s : State) : Host.Outcome State Fault Refusal :=
  .next (s.asWriter w 0x10 n false (·.touchCtrlWrite n (withoutBit v 0)))

/-- TOUCH_SELFTEST. -/
def execTouchSelftest (n : Fin 8) (w : World) (v : Word) (s : State) : Host.Outcome State Fault Refusal :=
  .next (s.asWriter w 0x10 n false (·.touchCtrlWrite n (withBit v 3)))

/-- TOUCH_RECAPTURE. -/
def execTouchRecapture (n : Fin 8) (w : World) (v : Word) (s : State) : Host.Outcome State Fault Refusal :=
  .next (s.asWriter w 0x10 n false (·.touchCtrlWrite n (withBit v 2)))

/-- R277: a contact is released as an obstruction, and its pads are obstructed. -/
def State.touchObstruct (s : State) (n : Nat) (c : Contact) : State :=
  let s := s.contactUp n flagObstructed c
  let s := s.setTch n { s.tch n with obstructed := (s.tch n).obstructed ++ [{ pads := c.region, below := 0 }] }
  s.raiseFault (168 + n)

/-- R277: a contact has been active for HOLD_LIMIT seconds, counted in drumbeats. -/
def State.touchHoldLimit (s : State) (n id : Nat) : State :=
  let lim := s.get (Reg.TOUCH_TRACK_HOLD_LIMIT n)
  match (s.tch n).contacts.find? (fun c => c.id == id) with
  | some c =>
    if lim ≠ 0 ∧ lim * s.beatRate.num ≤ (s.drumbeat - c.downDrum) * s.beatRate.den then s.touchObstruct n c else s
  | none => s

/-- TOUCH_HOLD_LIMIT. -/
def execTouchHoldLimit (n : Fin 8) (id : Fin 20) (s : State) : Host.Outcome State Fault Refusal :=
  .next (s.touchHoldLimit n id)

/-- A write to BL_CMD (R288). -/
def State.blCmdWrite (s : State) (n : Nat) (v : Word) : State :=
  let ph := s.tPhase n
  let a := Reg.TOUCH_BL_CMD n
  let s := s.setReg a (s.reg a &&& ~~~(v &&& 3))
  let s := if bitOf v.toNat 4 then
      if ph ≤ 1 then
        ((s.set (Reg.TOUCH_BL_CMD_LOAD n) 1).set (Reg.TOUCH_BL_CMD_BUSY n) 1).setTch n { s.tch n with loadDue := true }
      else s.touchEvent n (Reg.TOUCH_STATUS_WRITE_WHILE_ACTIVE n)
    else s
  if bitOf v.toNat 3 then
    if ph = 3 then
      ((s.set (Reg.TOUCH_BL_CMD_DUMP n) 1).set (Reg.TOUCH_BL_CMD_BUSY n) 1).setTch n { s.tch n with dumpDue := true }
    else s.touchEvent n (Reg.TOUCH_STATUS_WRITE_WHILE_ACTIVE n)
  else s

/-- BASELINE_LOAD. -/
def execBaselineLoad (n : Fin 8) (w : World) (v : Word) (s : State) : Host.Outcome State Fault Refusal :=
  .next (s.asWriter w 0x10 n false (·.blCmdWrite n (withBit v 4)))

/-- BASELINE_DUMP. -/
def execBaselineDump (n : Fin 8) (w : World) (v : Word) (s : State) : Host.Outcome State Fault Refusal :=
  .next (s.asWriter w 0x10 n false (·.blCmdWrite n (withBit v 3)))

/-- R288: a load that waits is carried out once the link is UP, and an engine that waits for it goes on to its quiet
phase. -/
def State.baselineLoadRun (s : State) (n : Nat) : State :=
  if (s.tch n).loadDue ∧ s.linkState n = 3 then
    let s := s.loadRun n
    if s.tPhase n = 1 ∧ s.bit (Reg.TOUCH_CTRL_EN n) then s.touchLinked n else s
  else s

/-- BASELINE_LOAD_RUN. -/
def execBaselineLoadRun (n : Fin 8) (s : State) : Host.Outcome State Fault Refusal := .next (s.baselineLoadRun n)

/-- R287: a write to a register of TSL_n or TOUCH_n that its enable keeps as it is. -/
def State.touchHeldWrite (s : State) (enabled : Bool) (flag events : Fld) (irq a : Nat) (v : Word) : State :=
  if enabled then s.event flag events irq else s.plainWrite a v

end Sys2Proof.Machine
end

