-- ==== Sys2Proof/Machine/SideOps.lean ====
section
/-! DEFINITION. The memory sides: the mapping of R210, the channels' queues, their choice of the next command, freezes and
what they resolve (R210, R222 to R231, R233 to R240, R244). -/

namespace Sys2Proof.Machine

/-- The rank of a requester port (R37, R229). -/
def State.portRank (s : State) (p : Nat) : Nat := classRank (s.get (Reg.QOS_CFG_CLASS p))

/-- The latency target of a port in ns (R230). -/
def State.portTargetNs (s : State) (p : Nat) : Nat := s.get (Reg.QOS_CFG_TARGET p)

/-- R230: the urgency of a request that has waited `ns` against a target. -/
def urgencyAt (t ns : Nat) : Nat :=
  if t * 9 / 10 ≤ ns then 3 else if t * 3 / 4 ≤ ns then 2 else if t / 2 ≤ ns then 1 else 0

/-- An operation on every request of a channel that is not issued. -/
def Chan.mapWaiting (c : Chan) (f : MemReq → MemReq) : Chan := { c with readQ := c.readQ.map f, writeQ := c.writeQ.map f }

/-- QOS_p_STATUS.URGENCY: the highest urgency among a port's outstanding requests. -/
def State.portUrgency (s : State) (p : Nat) : Nat :=
  (([0, 1].flatMap fun n => (List.range 8).flatMap fun c => (s.chan n c).waiting ++ (s.chan n c).inFlight).filter
    (fun r => r.port == p)).foldl (fun m r => max m r.urgency) 0

/-! ### Events of a side (source 53 + n) -/

/-- An event of a side's ECC status. -/
def State.eccEvent (s : State) (n : Nat) (flag : Fld) : State := s.event flag (Reg.MSIDE_ECC_STATUS_EVENTS n) (53 + n)

/-- An event of a side's freeze status. -/
def State.freezeEvent (s : State) (n : Nat) (flag : Fld) : State := s.event flag (Reg.MSIDE_FREEZE_STATUS_EVENTS n) (53 + n)

/-! ### Reads (R213, R217, R218) -/

/-- The completion of a request. -/
def State.reply (s : State) (r : Reply) : State := { s with replies := s.replies ++ [r] }

/-- One line's part of a read enters the channel of the side that serves it; its data is what the latest writes left
(R213, R218). Its completion answers the transaction it belongs to, or itself. -/
def State.readPiece (s : State) (m : Master) (mirrored : Bool) (n : Nat) (base : Nat) (tag : Option Nat) (p : Nat × Nat) : State :=
  let off := p.1 - base
  let n := if mirrored then (s.servingSide off).getD n else n
  let r : MemReq := { id := s.nextReq, addr := p.1, len := p.2, mirrored := mirrored, port := requesterPort m false, master := m,
                      data := s.sideBytes n off p.2, tag := tag.getD s.nextReq }
  { s.accept n off r with nextReq := s.nextReq + 1 }

/-- The parts of a read enter the queues of the sides that serve them (R217). -/
def State.queueRead (s : State) (m : Master) (a len : Nat) (tag : Option Nat) : State :=
  match region a with
  | .side n _ => s.each (linePieces a len) fun p t => t.readPiece m false n (if n = 0 then 0 else 0x0400000000) tag p
  | .mirror _ => s.each (linePieces a len) fun p t => t.readPiece m true 0 0x0800000000 tag p
  | _ => s

/-! ### Corrected rows (R244) -/

/-- R244: a corrected read of a row. -/
def State.ceRow (s : State) (n ch bank row : Nat) : State :=
  let s := (s.eccEvent n (Reg.MSIDE_ECC_STATUS_CE n)).count (Reg.MSIDE_ECC_STATUS_CE_COUNT n)
  let count := fun (k : Nat) => s.get (Reg.MSIDE_CE_ROW_A_COUNT n k)
  let same := firstBelow 16 fun k => count k != 0 && s.get (Reg.MSIDE_CE_ROW_A_CHANNEL n k) == ch
    && s.get (Reg.MSIDE_CE_ROW_A_BANK n k) == bank && s.get (Reg.MSIDE_CE_ROW_A_ROW n k) == row
  let (k, c, s) := match same with
    | some k => (k, min 255 (count k + 1), s)
    | none =>
      let k := match firstBelow 16 (fun k => count k == 0) with
        | some k => k
        | none => (List.range 16).foldl (fun b k => if count k < count b then k else b) 0
      let s := ((s.set (Reg.MSIDE_CE_ROW_A_CHANNEL n k) ch).set (Reg.MSIDE_CE_ROW_A_BANK n k) bank).set
        (Reg.MSIDE_CE_ROW_A_ROW n k) row
      (k, 1, s.set (Reg.MSIDE_CE_ROW_B_DRUM n k) s.drumbeat)
  let old := if same.isSome then count k else 0
  let s := s.set (Reg.MSIDE_CE_ROW_A_COUNT n k) c
  if c = max 1 (s.get (Reg.MSIDE_CE_CFG_CE_THRESH n)) ∧ old < c then s.raiseFault (134 + n) else s

/-! ### Freeze (R234 to R240) -/

/-- R235: one entry of the diagnosis buffer. -/
def diagWords (ch : Nat) (r : MemReq) : List Nat :=
  [r.addr / 64 % 2 ^ 32,
   min r.age 0xFFFF * 2 ^ 16 + 2 ^ 10 + b2n r.mirrored * 2 ^ 9 + b2n r.write * 2 ^ 8 + r.port * 4 + r.addr / 2 ^ 38 % 4,
   ch * 2 ^ 29 + r.bank * 2 ^ 25 + r.row % 2 ^ 17 * 2 ^ 8, 0]

/-- Requests of every channel of a side, each with its channel, in the order in which they were accepted. -/
def State.sideQueue (s : State) (n : Nat) (f : Chan → List MemReq) : List (Nat × MemReq) :=
  ((List.range 8).flatMap fun c => (f (s.chan n c)).map fun r => (c, r)).mergeSort fun a b => decide (a.2.id ≤ b.2.id)

/-- R235: a queue is captured into 64 entries of the diagnosis buffer. -/
def State.captureQueue (s : State) (n base : Nat) (q : List (Nat × MemReq)) : State :=
  s.each (List.range 64) fun i t =>
    let ws := match q[i]? with | some (c, r) => diagWords c r | none => [0, 0, 0, 0]
    t.each ws.zipIdx fun p u => u.setReg (Reg.MSIDE_DIAG n (base + i) p.2) (BitVec.ofNat 32 p.1)

/-- R233, R236, R237: what is outstanding at a frozen side resolves: a mirrored read is issued again to the other side, where it
arrives after every request accepted there, an
unmirrored one returns poison, which a guest sees as Unsupported Request (R238), and each mirrored write not yet issued marks
its granule dirty. -/
def State.resolveSide (s : State) (n : Nat) : State :=
  let reads := s.sideQueue n fun c => c.readQ ++ c.inFlight
  let writes := s.sideQueue n fun c => c.writeQ
  let s := s.each (List.range 8) fun c t =>
    t.setChan n c { t.chan n c with readQ := [], writeQ := [], inFlight := [], ordered := [], openRow := [],
                                    neighbours := [], throttles := [], recovery := false }
  let s := s.each writes fun p t =>
    if p.2.mirrored then t.each (granulesOf (p.2.addr - 0x0800000000) p.2.len) fun g u => u.markDirty n g else t
  s.each reads fun p t =>
    if p.2.mirrored && !t.sideDown (1 - n) then
      { t.accept (1 - n) (p.2.addr - 0x0800000000) { p.2 with id := t.nextReq } with nextReq := t.nextReq + 1 }
    else t.reply { id := p.2.tag, status := if p.2.master.kind = .guest then .unsupported else .poison }

/-- R239: the copy engine of a side in RESYNC stops for good, because its source can no longer be read. -/
def State.engineStop (s : State) (n : Nat) : State :=
  if s.sideMode n = 5 then s.setSide n { s.side n with stopped := true, flight := [] } else s

/-- R234, R235: a side freezes: with a cause code, the line that caused it, if there is one, and whether every channel
confirms self-refresh entry. -/
def State.freezeSide (s : State) (n cause : Nat) (line : Option Nat) (srOk : Bool) : State :=
  if s.sideMode n = 4 then s
  else
    let s0 := s
    let other := 1 - n
    let s := s.captureQueue n 0 (s.sideQueue n fun c => c.readQ)
    let s := s.captureQueue n 64 (s.sideQueue n fun c => c.writeQ)
    let s := (s.set (Reg.MSIDE_STATUS_STATE n) 4).set (Reg.MSIDE_FREEZE_CTRL_RELEASE n) 0
    let s := s.setSide n { s.side n with releasing := false, todo := [], copied := 0, again := [], flight := [] }
    let s := (s.set (Reg.MSIDE_FREEZE_STATUS_CAUSE n) cause).count (Reg.MSIDE_FREEZE_STATUS_FREEZES n)
    let s := (s.set (Reg.MSIDE_FREEZE_STATUS_SR_UNCERTAIN n) (b2n !srOk)).count (Reg.MSIDE_FREEZE_STATUS_EVENTS n)
    let s := s.set (Reg.MSIDE_FREEZE_ADDR_ADDR n) (line.getD 0 / 256)
    let s := (s.set (Reg.MSIDE_FREEZE_DRUM_DRUM n) s.drumbeat).set (Reg.MSIDE_RESYNC_REMAINING n) 0
    let s := ((s.resolveSide n).raiseIrq (53 + n)).raiseFault (128 + n)
    if s.sideDown other then
      ((s.engineStop other).raiseFault 8).inOrder s0
    else s

/-- Every usable granule of a side is marked dirty (R220). -/
def State.allDirty (s : State) (n : Nat) : State := s.each (List.range (s.usableGranules n)) fun g t => t.markDirty n g

/-- R211: link corrections of reads, and of writes as the devices report them, are counted; they decide nothing else. -/
def State.linkFixed (s : State) (n read write : Nat) : State :=
  (s.count (Reg.MSIDE_LINK_ECC_READ_CORR n) read).count (Reg.MSIDE_LINK_ECC_WRITE_CORR n) write

/-- R211, R234, R244: what inline ECC found in a read of a line of a side. -/
def State.eccRead (s : State) (n off : Nat) (ecc : EccResult) (srOk : Bool) : State :=
  let pl := dramPlace off
  match ecc with
  | .clean => s
  | .corrected => s.ceRow n pl.ch pl.bank pl.row
  | .uncorrectable =>
    (s.eccEvent n (Reg.MSIDE_ECC_STATUS_UE n)).freezeSide n 1 (some ((n * 0x0400000000 + off) / 64 * 64)) srOk

/-! ### Row disturbance (R226 to R228) -/

/-- R226: a row of a bank's table is counted for an activate by a port; the table, and the count the row reached. -/
def rhCount (t : List RhEntry) (row port : Nat) : List RhEntry × Nat :=
  match t.find? (fun e => e.row == row) with
  | some e => (t.map fun d => if d.row == row then { d with count := d.count + 1, port := port } else d, e.count + 1)
  | none =>
    if t.length < 32 then (t ++ [{ row := row, count := 1, port := port }], 1)
    else
      let low := t.foldl (fun m e => min m e.count) ((t.map (·.count)).headD 0)
      match t.findIdx? (fun e => e.count == low) with
      | some i => (t.set i { row := row, count := low + 1, port := port }, low + 1)
      | none => (t, 0)

/-- R227, R228: the action taken for a port: 0 NEIGHBOUR, 1 THROTTLE, 2 BOTH. -/
def State.rhAction (s : State) (n port : Nat) : Nat :=
  if s.get (Reg.QOS_CFG_CLASS port) ≤ 1 then 0 else min 2 (s.get (Reg.MSIDE_CFG_RH_ACTION n))

/-- R227, R228: a row's count reaches the threshold in an activate by a port: the count returns to 0, RH_ACTION is taken, and
ROW_DISTURB is raised. -/
def State.rowDisturb (s : State) (n ch bank row port : Nat) : State :=
  let c := s.chan n ch
  let t := (sget (fun _ => []) c.rh bank).map fun (e : RhEntry) => if e.row == row then { e with count := 0 } else e
  let act := s.rhAction n port
  let rows := ([row + 1, row + 2] ++ (if 2 ≤ row then [row - 1, row - 2] else if 1 ≤ row then [row - 1] else []))
  let nb := if act = 1 then [] else rows.map fun r => (bank, r)
  let held := c.throttles.any fun (x : Throttle) => x.bank == bank && x.port == port
  let th := if act = 0 || held then [] else [({ bank := bank, port := port, since := 0 } : Throttle)]
  let s := s.setChan n ch { c with rh := sput (fun _ => []) c.rh bank t, neighbours := c.neighbours ++ nb,
                                   throttles := c.throttles ++ th }
  let s := s.count (Reg.MSIDE_RH_COUNT_THROTTLE n) th.length
  let s := ((s.set (Reg.MSIDE_RH_LAST_CHANNEL n) ch).set (Reg.MSIDE_RH_LAST_BANK n) bank).set (Reg.MSIDE_RH_LAST_ROW n) row
  let s := (s.set (Reg.MSIDE_RH_LAST_ACTION n) act).set (Reg.MSIDE_RH_LAST_PORT n) port
  s.raiseFault (132 + n)

/-- R226 to R228: a port activates a row of a channel's bank. -/
def State.activate (s : State) (n ch bank row port : Nat) : State :=
  let c := s.chan n ch
  let (t, k) := rhCount (sget (fun _ => []) c.rh bank) row port
  let limit := max 64 (s.get (Reg.MSIDE_RH_CFG_THRESHOLD n))
  let c := { c with openRow := sput (fun _ => 0x20000) c.openRow bank row,
                    throttles := c.throttles.map fun (x : Throttle) =>
                      if x.bank == bank && x.port == port then { x with since := 0 } else x }
  let s := s.setChan n ch { c with rh := sput (fun _ => []) c.rh bank t }
  if k < limit then s else s.rowDisturb n ch bank row port

/-! ### The channel's choice (R222, R224, R225, R231, R233) -/

/-- The open row of a bank; 2^17 for none. -/
def Chan.open (c : Chan) (bank : Nat) : Nat := sget (fun _ => 0x20000) c.openRow bank

/-- R212, R227, R233: whether a request may be issued: the guest port does not hold it, its bank does not serve in arrival order
with an older request ahead of it, and its port is not throttled on the bank. -/
def Chan.mayIssue (c : Chan) (throttleNs : Nat) (r : MemReq) : Bool :=
  let inOrder := match c.ordered.find? (fun p => p.1 == r.bank) with
    | none => true
    | some (_, bound) =>
      !c.writeQ.any (fun w => w.bank == r.bank && decide (w.id < bound))
        || !c.waiting.any (fun q => q.bank == r.bank && decide (q.id < r.id))
  inOrder && !(r.merging && decide (r.age < 100)) && (c.open r.bank == r.row
    || !c.throttles.any fun x => x.bank == r.bank && x.port == r.port && decide (x.since < throttleNs))

/-- R231: whether a request goes before another: higher urgency, then lower rank, then older. -/
def State.goesBefore (s : State) (a b : MemReq) : Bool :=
  if a.urgency ≠ b.urgency then decide (b.urgency < a.urgency)
  else if s.portRank a.port ≠ s.portRank b.port then decide (s.portRank a.port < s.portRank b.port)
  else decide (a.id < b.id)

/-- R227, R228: the spacing under which a throttled port's activates are held; a port of class PROTECTED or SCANOUT is never
held, a throttle begun in another class included. -/
def State.throttleNs (s : State) (n port : Nat) : Nat :=
  if s.get (Reg.QOS_CFG_CLASS port) ≤ 1 then 0 else s.get (Reg.MSIDE_RH_CFG_THROTTLE_NS n)

/-- R231: the request a channel issues next. -/
def State.choose (s : State) (n ch : Nat) : Option MemReq :=
  let c := s.chan n ch
  let cand := c.waiting.filter fun r => c.mayIssue (s.throttleNs n r.port) r
  let best := fun (l : List MemReq) => l.foldl (fun (b : Option MemReq) r => match b with
    | none => some r
    | some x => if s.goesBefore r x then some r else some x) none
  match best cand with
  | none => none
  | some top =>
    let hits := cand.filter fun r => r.urgency == top.urgency && s.portRank r.port == s.portRank top.port
      && c.open r.bank == r.row && !c.waiting.any (fun q => q.bank == r.bank && decide (r.urgency < q.urgency))
    match best hits with
    | some h => some h
    | none => some top

/-- R39: a command of a rank went ahead of every request that waits in a channel. -/
def Chan.passed (c : Chan) (rank : Nat) : Chan := c.mapWaiting fun r => { r with ahead := min r.ahead rank }

/-- R225, R230: a request's breach is counted in its port's BREACHES, once. -/
def State.countBreach (s : State) (r : MemReq) : State := if r.counted then s else s.count (Reg.QOS_STATUS_BREACHES r.port)

/-- R225: the end of a debt recovery for a rank: each request of it that waits has breached a target of 0, and one record names the
port of the one that waited longest. -/
def State.recoveryBreach (s : State) (n ch rank : Nat) : State :=
  let rs := (s.chan n ch).waiting.filter fun r => s.portRank r.port == rank
  let s := s.each rs fun r t => t.countBreach r
  let s := s.setChan n ch ((s.chan n ch).mapWaiting fun r =>
    if s.portRank r.port = rank then { r with counted := true, urgency := 3 } else r)
  match rs.foldl (fun (b : Option MemReq) r => match b with
      | none => some r
      | some x => if x.age < r.age then some r else some x) none with
  | none => s
  | some r => s.breach
      { rank := rank, yielded := yieldedTo r.ahead rank, port := some r.port, mag := r.age, unit := 0x0B, inst := n }

/-- R222, R224, R225: a per-bank refresh is issued. -/
def State.refreshIssue (s : State) (n ch bank : Nat) : State :=
  let c := s.chan n ch
  let c := { c.passed 2 with debt := c.debt - 1, lastRefresh := bank,
                             openRow := sput (fun _ => 0x20000) c.openRow bank 0x20000 }
  let s := s.setChan n ch c
  if c.recovery && decide (c.debt ≤ 4) then
    ((s.setChan n ch { c with recovery := false }).recoveryBreach n ch 3).recoveryBreach n ch 4
  else s

/-- R227: a neighbour row of a disturbed row is activated and precharged. -/
def State.neighbourIssue (s : State) (n ch : Nat) : State :=
  let c := s.chan n ch
  match c.neighbours with
  | [] => s
  | (bank, _) :: rest =>
    (s.setChan n ch { c.passed 2 with neighbours := rest, openRow := sput (fun _ => 0x20000) c.openRow bank 0x20000 }).count
      (Reg.MSIDE_RH_COUNT_NEIGHBOUR n)

/-- The side offset of a request's first byte. -/
def MemReq.offset (r : MemReq) : Nat := if r.mirrored then r.addr - 0x0800000000 else r.addr % 0x0400000000

/-- R212, R226, R231: a request is issued. A write of fewer than 64 bytes reads its line first; where that read is
uncorrectable, the write is still in its queue when the side freezes, and is not issued (R237). -/
def State.requestIssue (s : State) (n ch : Nat) (r : MemReq) (ecc : EccResult) (srOk : Bool) : State :=
  let c := s.chan n ch
  let act := c.open r.bank != r.row
  if r.write && decide (r.len < 64) && ecc == .uncorrectable then
    if act then ((s.activate n ch r.bank r.row r.port).eccRead n r.offset ecc srOk).inOrder s else s.eccRead n r.offset ecc srOk
  else
  let c := { c with readQ := c.readQ.filter (·.id != r.id), writeQ := c.writeQ.filter (·.id != r.id) }
  let c := c.passed (s.portRank r.port)
  let c := { c with inFlight := if r.write then c.inFlight else c.inFlight ++ [r],
                    ordered := c.ordered.filter fun p => c.writeQ.any fun w => w.bank == p.1 && decide (w.id < p.2) }
  let s := s.setChan n ch c
  let t := if act then s.activate n ch r.bank r.row r.port else s
  if r.write then
    let t := t.raiseTo (Reg.QOS_MAXLAT_NS r.port) r.age
    if r.len < 64 then (if act then (t.eccRead n r.offset ecc srOk).inOrder s else t.eccRead n r.offset ecc srOk) else t
  else t

/-- R222 to R233: a channel issues its next command, `ns` nanoseconds after its previous one. `bank` is a bank that is idle
for a refresh, if there is one; `ecc` is what a write's transfers find: its read half, which a read-modify-write has, and the write. -/
def State.schedule (s : State) (n ch ns : Nat) (bank : Option Nat) (ecc : LineEcc) (srOk : Bool) : State :=
  let c := s.chan n ch
  let c := { c.mapWaiting (fun r => { r with age := r.age + ns }) with
    throttles := c.throttles.map fun (x : Throttle) => { x with since := x.since + ns } }
  let s := s.setChan n ch c
  let m := s.sideMode n
  let due := bank.getD ((c.lastRefresh + 1) % 16)
  if !(m = 2 || m = 3 || m = 5) then s
  else if c.recovery then (if due = c.lastRefresh then s else s.refreshIssue n ch due)
  else if 8 ≤ c.debt then s.refreshIssue n ch due
  else if !c.neighbours.isEmpty then s.neighbourIssue n ch
  else if c.debt ≠ 0 ∧ bank.isSome then s.refreshIssue n ch due
  else if m = 2 then s
  else match s.choose n ch with
    | some r =>
      let s := if r.write then s.linkFixed n (if r.len < 64 then ecc.read else 0) ecc.write else s
      s.requestIssue n ch r ecc.inline srOk
    | none => s

/-! ### Training (R219 to R221, R246) -/

/-- R219: the widest run of passing steps of a sweep over 128 steps: where it starts and how long it is, the first of equal
ones. -/
def widestRun (pass : Nat) : Nat × Nat :=
  let r := (List.range 128).foldl (fun (p : (Nat × Nat) × (Nat × Nat)) i =>
    let (best, cur) := p
    if bitOf pass i then
      let cur := if cur.2 = 0 then (i, 1) else (cur.1, cur.2 + 1)
      (if best.2 < cur.2 then cur else best, cur)
    else (best, (0, 0))) ((0, 0), (0, 0))
  r.1

/-- R219: the centre of a run, rounded down. -/
def runCentre (r : Nat × Nat) : Nat := if r.2 = 0 then 0 else (2 * r.1 + r.2 - 1) / 2

/-- R219: the sweeps of the sixteen byte lanes set the delays and eye widths; whether every width is at least 16 steps. -/
def State.trainLanes (s : State) (n : Nat) (lanes : List (Nat × Nat)) : State × Bool :=
  let runs := (List.range 16).map fun b =>
    let l := lanes.getD b (0, 0)
    (b, widestRun l.1, widestRun l.2)
  let s := s.each runs fun p t =>
    let t := (t.set (Reg.MSIDE_TRAIN_RD_CENTRE n p.1) (runCentre p.2.1)).set (Reg.MSIDE_TRAIN_RD_WIDTH n p.1) p.2.1.2
    let t := (t.set (Reg.MSIDE_TRAIN_WR_CENTRE n p.1) (runCentre p.2.2)).set (Reg.MSIDE_TRAIN_WR_WIDTH n p.1) p.2.2.2
    t.setReg (Reg.MSIDE_TRACK n p.1) 0
  (s, runs.all fun p => decide (16 ≤ p.2.1.2 ∧ 16 ≤ p.2.2.2))

end Sys2Proof.Machine
end

