-- ==== Sys2Proof/Machine/Worlds.lean ====
section
/-! DEFINITION. Management cores, the two worlds and the interrupt controller: the commands of R329 to R349, and array
errors (R389). -/

namespace Sys2Proof.Machine

/-! ### Cores (R329 to R331, R389) -/

/-- Whether a core is marked WORN by its ageing monitor (WEAR_0_WORN, R447). -/
def State.coreWorn (s : State) (c : Nat) : Bool := bitOf (s.get Reg.WEAR_WORN_MARK) (12 + c)

/-- R329: a core is released in the secure world and machine mode at SEC_ENTRY. -/
def State.coreStart (s : State) (c : Nat) (pc : BitVec 64) : State :=
  let s := (s.sentDrop c).tagDrop c
  let s := s.setCore c { ({} : CoreState) with pc := pc, haltReq := (s.core c).haltReq }
  (((s.set (Reg.MC_CTRL_RUN c) 1).set (Reg.MC_STATUS_STATE c) 1).set (Reg.MC_STATUS_WORLD c) 1).haltCheck c

/-- RUN = 0: a core is held in reset at once; a marked one is then WORN, also where it was in RESET already (R448), and a FAILED
one stays FAILED. -/
def State.coreHold (s : State) (c : Nat) : State :=
  if s.get (Reg.MC_STATUS_STATE c) = 0 && s.coreWorn c then (s.setCore c { s.core c with parked := false }).set (Reg.MC_STATUS_STATE c) 3
  else if s.get (Reg.MC_STATUS_STATE c) = 1 then
    let s := (s.sentDrop c).tagDrop c
    let s := s.setCore c { ({} : CoreState) with haltReq := (s.core c).haltReq }
    ((s.set (Reg.MC_STATUS_STATE c) (if s.coreWorn c then 3 else 0)).set (Reg.MC_STATUS_WORLD c) 0).set (Reg.MC_STATUS_HALTED c) 0
  else s

/-- R331: whether another RUNNING core has a HARTID. -/
def State.hartTaken (s : State) (c hart : Nat) : Bool :=
  allCores.any fun d => d != c && s.get (Reg.MC_STATUS_STATE d) == 1 && s.get (Reg.MC_CTRL_HARTID d) == hart

/-- R329 to R331, R447: MC_n_CTRL is written. -/
def State.mcCtrlWrite (s : State) (c : Nat) (v : Word) : State :=
  let a := Reg.MC_CTRL c
  let state := s.get (Reg.MC_STATUS_STATE c)
  if bitOf v.toNat 0 then
    if 2 ≤ state || (state = 0 && s.coreWorn c) || s.hartTaken c (getBits v 8 3) then s.coreEvent c (Reg.MC_STATUS_FAULT c)
    else
      let s := s.plainWrite a v
      if state = 0 then s.coreStart c (BitVec.ofNat 64 (256 * s.get Reg.SYS_SEC_ENTRY_ADDR)) else s
  else (s.plainWrite a v).coreHold c

/-- CORE_RELEASE. -/
def execCoreRelease (n : Fin 5) (w : World) (v : Word) (s : State) : Host.Outcome State Fault Refusal :=
  .next (s.asWriter w 0x16 n false (·.mcCtrlWrite n (withBit v 0)))

/-- CORE_HOLD. -/
def execCoreHold (n : Fin 5) (w : World) (v : Word) (s : State) : Host.Outcome State Fault Refusal :=
  .next (s.asWriter w 0x16 n false (·.mcCtrlWrite n (withoutBit v 0)))

/-- R389: the unit's action on an uncorrectable error in array group g. A side's freeze names no cause code for it: a free
value. -/
def State.arrayAction (s : State) (g : Nat) (srOk : Bool) : State :=
  if g ≤ 9 then s.pipeArray g
  else if g ≤ 11 then s.sextantArray (g - 10)
  else if g ≤ 16 then s.coreFail (g - 12)
  else if g = 66 ∨ g = 67 then let (v, t) := s.draw; t.freezeSide (g - 66) (v % 16) none srOk
  else s

/-- ARRAY_ERROR: a corrected or an uncorrectable error in an array group. -/
def execArrayError (g : Fin 96) (ue srOk : Bool) (s : State) : Host.Outcome State Fault Refusal :=
  .next (if !ue then s.raiseFault (256 + g)
    else if g.val ≤ 16 ∨ g.val = 66 ∨ g.val = 67 then ((s.raiseFault (352 + g)).arrayAction g srOk).inOrder s
    else s.raiseFault (352 + g))

/-! ### World gates and returns (R336 to R342) -/

/-- The word of WGATE g. -/
def wgateWord (g : Nat) : Word := BitVec.ofNat 32 (g * 2 ^ 20 + 0x0B)

/-- The word of WRET. -/
def wretWord : Word := 0x100B

/-- R336: whether the masks let a core call a gate. -/
def CoreState.gateOpen (r : CoreState) (g : Nat) : Bool :=
  get64 (r.csr .secure csrWgmask) g 1 == 1 && (r.priv != 0 || get64 (r.csr .secure csrWgumask) g 1 == 1)

/-- R336, R337, R343: a core executes WGATE g. -/
def State.wgate (s : State) (c g : Nat) : State :=
  if !s.coreRuns c then s
  else
    let r := s.core c
    let s :=
      if s.coreWorld c = .secure then s.setCore c (r.illegal .secure (wgateWord g))
      else if !r.gateOpen g then s.setCore c (r.illegal .normal (wgateWord g))
      else if s.bit Reg.SYS_SEC_STATUS_DOWN then
        s.setCore c { r.setGpr 10 0xFFFFFFFFFFFFFFFE with pc := r.pc + 4 }
      else
        let s := s.enterSecure c 0 g (r.pc + 4)
        let r := (s.core c).setStatus .secure 3 1 0
        s.setCore c { r with priv := 3, pc := (r.csr .secure csrWgvec &&& ~~~0xFFF) + BitVec.ofNat 64 (64 * g) }
    s.haltCheck c

/-- WGATE. -/
def execWgate (c : Fin 5) (g : Fin 64) (s : State) : Host.Outcome State Fault Refusal := .next (s.wgate c g)

/-- R339, R341: a core executes WRET, so many microseconds after the entry's first secure instruction. -/
def State.wret (s : State) (c us : Nat) : State :=
  if !s.coreRuns c then s
  else if s.coreWorld c = .normal then (s.setCore c ((s.core c).illegal .normal wretWord)).haltCheck c
  else
    let s := if (s.core c).timed then s.raiseTo (Reg.MC_RESID_MAX_US c) us else s
    s.leaveSecure c

/-- WRET. -/
def execWret (c : Fin 5) (us : Nat) (s : State) : Host.Outcome State Fault Refusal := .next (s.wret c us)

/-- LIMIT as it is treated: below 100 as 100. -/
def State.residLimit (s : State) (c : Nat) : Nat := max 100 (s.get (Reg.MC_RESID_LIMIT c))

/-- R341 to R343: a timed entry reaches its limit. -/
def State.residencyExpire (s : State) (c : Nat) : State :=
  if s.inSecure c && (s.core c).timed && !s.bit (Reg.MC_STATUS_HALTED c) then
    ((s.raiseTo (Reg.MC_RESID_MAX_US c) (s.residLimit c)).forceBack c).secureDown 1 c
  else s

/-- RESIDENCY_EXPIRE. -/
def execResidencyExpire (c : Fin 5) (s : State) : Host.Outcome State Fault Refusal := .next (s.residencyExpire c)

/-! ### SEC_CTRL, the watchdog and the restart (R341 to R346) -/

/-- R346: UP ends a restart. -/
def State.secureUp (s : State) : State :=
  if !s.bit Reg.SYS_SEC_STATUS_RESTARTING then s
  else
    let s := ((s.set Reg.SYS_SEC_STATUS_RESTARTING 0).set Reg.SYS_SEC_STATUS_DOWN 0).set Reg.SYS_SEC_STATUS_FAILS 0
    ({ s with restartOn := none }).liveFell 6

/-- SYS_0_SEC_CTRL is written: UP is an action and reads 0. -/
def State.secCtrlWrite (s : State) (v : Word) : State :=
  let t := s.plainWrite Reg.SYS_SEC_CTRL (withoutBit v 4)
  if bitOf v.toNat 4 then t.secureUp else t

/-- RES_ARM. -/
def execResArm (w : World) (v : Word) (s : State) : Host.Outcome State Fault Refusal :=
  .next (s.asWriter w 0x00 0 true (·.secCtrlWrite (withBit v 0)))

/-- SWDT_ARM. -/
def execSwdtArm (w : World) (v : Word) (s : State) : Host.Outcome State Fault Refusal :=
  .next (s.asWriter w 0x00 0 true (·.secCtrlWrite (withBit v 1)))

/-- SECURE_UP. -/
def execSecureUp (w : World) (v : Word) (s : State) : Host.Outcome State Fault Refusal :=
  .next (s.asWriter w 0x00 0 true (·.secCtrlWrite (withBit v 4)))

/-- R344: SWDT_KICK is written: the period begins anew. -/
def State.swdtKick (s : State) : State := { s with swdtHalf := false }

/-- SWDT_KICK. -/
def execSwdtKick (w : World) (s : State) : Host.Outcome State Fault Refusal :=
  .next (s.asWriter w 0x00 0 true (·.swdtKick))

/-- R344: whether the watchdog counts: armed, services up, and no core halted with a secure enable open. -/
def State.swdtCounts (s : State) : Bool :=
  s.bit Reg.SYS_SEC_CTRL_SWDT_ARM && !s.bit Reg.SYS_SEC_STATUS_DOWN
    && !((s.bit Reg.DBG_EN_SI || s.bit Reg.DBG_EN_SNI) && allCores.any fun c => s.bit (Reg.MC_STATUS_HALTED c))

/-- SWDT_HALF_PERIOD: source 124, once for a period. -/
def execSwdtHalfPeriod (s : State) : Host.Outcome State Fault Refusal :=
  .next (if s.swdtCounts && !s.swdtHalf then ({ s with swdtHalf := true }).raiseIrq 124 else s)

/-- SWDT_EXPIRE: services go down with cause 2, which names no core. -/
def execSwdtExpire (s : State) : Host.Outcome State Fault Refusal :=
  .next (if s.swdtCounts then ({ s with swdtHalf := false }).secureDown 2 7 else s)

/-- R345: the core an attempt runs on: the lowest RUNNING one, else the lowest that R343 holds in reset. -/
def State.restartCore (s : State) : Option Nat :=
  match allCores.find? fun c => s.get (Reg.MC_STATUS_STATE c) == 1 with
  | some c => some c
  | none => allCores.find? fun c => (s.core c).parked && s.get (Reg.MC_STATUS_STATE c) == 0

/-- R338, R345, R357: the entry of KIND 2 on a core, at the boot ROM's restart vector, with the secure CSR copy at reset. A halt
request that waited for the secure world takes effect there. -/
def State.restartEntry (s : State) (c : Nat) : State :=
  let r := s.core c
  let s := if r.parked then s.coreStart c 0 else s
  let r := (s.core c).save
  let s := s.setCore c { r with csrS := [] }
  let s := if r.context then s.enterSecure c 2 0 r.pc else s
  ((s.setCore c { s.core c with priv := 3, pc := 0x0FF0000400, timed := false }).set (Reg.MC_STATUS_WORLD c) 1).haltCheck c

/-- R345: whether the secure image in secure memory has the SHA-384 digest recorded at start. -/
def State.imageOk (s : State) : Bool :=
  match s.boot.image with
  | none => false
  | some (a, n) =>
    match s.readBytes .secure a n with
    | none => false
    | some bs => beNat (sha384 bs) == beNat ((List.range 12).flatMap fun w => leBytes 4 (s.reg (Reg.BOOT_SEC_DIGEST w)).toNat)

/-- R345: the ROM enters the image's restart entry, at LOAD + 0x40 (R365). -/
def State.imageEnter (s : State) (c : Nat) : State :=
  match s.boot.image with
  | some (a, _) => s.setCore c { s.core c with pc := BitVec.ofNat 64 (a + 0x40) }
  | none => s

/-- R345, R346: the ROM checks the secure image on a core and enters it, or the restart fails. -/
def State.romCheck (s : State) (c : Nat) (romOk : Bool) : State :=
  if romOk && s.imageOk then s.imageEnter c else s.restartFail

/-- R345, R357: a core that was halted at the boot ROM's restart vector resumes there, and the ROM goes on with its check. -/
def State.romResume (s : State) (c : Nat) : State :=
  match (s.core c).romWaits with
  | none => s
  | some ok =>
    let t := s.setCore c { s.core c with romWaits := none }
    if s.restartOn = some c ∧ (s.core c).pc = 0x0FF0000400 then t.romCheck c ok else t

/-- R345, R346, R357: an attempt to restart the secure world. The ROM checks the secure image; `romOk` is false where it cannot carry
the check to its end. A halted core executes nothing: an attempt waits while the core it would run on is halted, and one that a halt
request stops at its entry goes on when the core resumes (DESIGN CHOICE, log entry 113). -/
def State.secureRestart (s : State) (romOk : Bool) : State :=
  if !s.restartDue then s
  else
    let t := ({ s with restartDue := false }).count Reg.SYS_SEC_STATUS_RESTARTS
    match s.restartCore with
    | none => t.restartFail
    | some c =>
      if s.bit (Reg.MC_STATUS_HALTED c) then s
      else
        let t := ({ t with restartOn := some c }).set Reg.SYS_SEC_STATUS_RESTARTING 1
        let t := t.restartEntry c
        if t.bit (Reg.MC_STATUS_HALTED c) then t.setCore c { t.core c with romWaits := some romOk }
        else (t.setCore c { t.core c with romWaits := none }).romCheck c romOk

/-- SECURE_RESTART. -/
def execSecureRestart (romOk : Bool) (s : State) : Host.Outcome State Fault Refusal := .next (s.secureRestart romOk)

/-- RESTART_TIMEOUT. -/
def execRestartTimeout (s : State) : Host.Outcome State Fault Refusal :=
  .next (if s.bit Reg.SYS_SEC_STATUS_RESTARTING then s.restartFail else s)

/-! ### Interrupts (R347 to R349) -/

/-- The unit instance whose owner a source's world follows (the source table of IC_0); none where the table names a
world. -/
def sourceOwner (k : Nat) : Option (Nat × Nat) :=
  if 9 ≤ k ∧ k ≤ 24 then some (0x02, (k - 9) % 8)
  else if 25 ≤ k ∧ k ≤ 32 then some (0x04, k - 25)
  else if 55 ≤ k ∧ k ≤ 58 then some (0x09, k - 55)
  else if 63 ≤ k ∧ k ≤ 70 then some (0x0F, k - 63)
  else if 71 ≤ k ∧ k ≤ 78 then some (0x10, k - 71)
  else if k = 79 then some (0x12, 0)
  else if 80 ≤ k ∧ k ≤ 95 then some (0x11, k - 80)
  else if k = 96 then some (0x13, 0)
  else if k = 97 ∨ k = 98 then some (0x14, k - 97)
  else if 100 ≤ k ∧ k ≤ 117 then some (0x19, k - 100)
  else none

/-- R347: whether a source is the secure world's. Session 0's block, and so its source, is secure (DEDUCED, log
entry 36). -/
def State.sourceSecure (s : State) (k : Nat) : Bool :=
  if 448 ≤ k ∧ k ≤ 479 then s.bit (Reg.IC_SRC_WORLD k)
  else match sourceOwner k with
    | some (u, i) => s.ownedSecure u i
    | none => icSecureSource k || k == 192

/-- The world of a source. -/
def State.sourceWorld (s : State) (k : Nat) : World := if s.sourceSecure k then .secure else .normal

/-- The world that reaches a context: 0 secure machine, 1 normal machine, 2 normal supervisor. -/
def contextWorld (x : Nat) : World := if x = 0 then .secure else .normal

/-- R349: the core that a secure source pre-empts: the lowest-numbered of its targets that runs in the normal world. -/
def State.preempted (s : State) (k : Nat) : Option Nat :=
  allCores.find? fun c => bitOf (s.get (Reg.IC_SRC_TARGET k)) c && s.coreRuns c && !s.inSecure c

/-- R349: whether a secure source goes to a core: to the one it has pre-empted until that core claims it (DEDUCED, log
entry 91); else to its lowest-numbered target in the normal world; and where no target is there, to every target in the secure
world. -/
def State.goesTo (s : State) (k c : Nat) : Bool :=
  match s.ic.sent.find? (fun p => p.1 == k) with
  | some (_, d) => c == d
  | none =>
    match s.preempted k with
    | some d => c == d
    | none => s.inSecure c

/-- R348, R349: whether a source can be delivered to a context: a normal one only while the core runs in the normal world. Secure
sources are not delivered while services are down (R343). -/
def State.deliverable (s : State) (c x k : Nat) : Bool :=
  s.bit (Reg.IC_SRC_PENDING k) && s.get (Reg.IC_SRC_PRIO k) != 0 && bitOf (s.get (Reg.IC_SRC_TARGET k)) c
    && decide (s.get (Reg.IC_CTX_THRESH_THRESH c x) < s.get (Reg.IC_SRC_PRIO k))
    && decide (s.sourceWorld k = contextWorld x)
    && (if x = 0 then !s.bit Reg.SYS_SEC_STATUS_DOWN && s.goesTo k c
        else s.coreRuns c && !s.inSecure c && s.get (Reg.IC_SRC_SMODE k) == x - 1)

/-- The higher PRIO, then the lower number, of two sources; 0 is none. -/
def State.betterSource (s : State) (a b : Nat) : Nat :=
  if a = 0 then b else if s.get (Reg.IC_SRC_PRIO a) < s.get (Reg.IC_SRC_PRIO b) then b else a

/-- TOP of a context: the highest deliverable pending source; 0 when none. -/
def State.topSource (s : State) (c x : Nat) : Nat :=
  ((List.range 480).filter (s.deliverable c x)).foldl s.betterSource 0

/-- R338, R349: source k pre-empts its core, where it is what the controller delivers there. -/
def State.secureInterrupt (s : State) (k : Nat) : State :=
  match s.preempted k with
  | none => s
  | some c =>
    if k ≠ 0 ∧ s.topSource c 0 = k then { s with ic := { s.ic with sent := (k, c) :: s.ic.sent } }.secureEntry c else s

/-- SECURE_INTERRUPT. -/
def execSecureInterrupt (k : Fin 512) (s : State) : Host.Outcome State Fault Refusal := .next (s.secureInterrupt k)

/-- Whether a core takes a normal machine-level external interrupt: by privilege, MIE and its enable. -/
def CoreState.takesM (r : CoreState) (bit : Nat) : Bool :=
  (r.priv < 3 || get64 (r.csr .normal csrMstatus) 3 1 == 1) && get64 (r.csr .normal 0x304) bit 1 == 1

/-- Whether a core takes a normal supervisor-level one in supervisor mode, where mideleg delegates it. -/
def CoreState.takesS (r : CoreState) : Bool :=
  (r.priv == 0 || (r.priv == 1 && get64 (r.csr .normal csrMstatus) 1 1 == 1)) && get64 (r.csr .normal 0x304) 9 1 == 1

/-- R340, R349: the trap a context's top source causes on its core. -/
def State.interruptDeliver (s : State) (c x : Nat) : State :=
  let k := s.topSource c x
  let r := s.core c
  if k = 0 || !s.coreRuns c then s
  else
    let s :=
      if x = 0 then
        if s.inSecure c && get64 (r.csr .secure csrMstatus) 3 1 == 1 then
          s.setCore c (r.trapM .secure (irqCause 11) 0)
        else s
      else if s.inSecure c then s
      else if x = 1 then (if r.takesM 11 then s.setCore c (r.trapM .normal (irqCause 11) 0) else s)
      else if get64 (r.csr .normal 0x303) 9 1 == 1 then
        (if r.takesS then s.setCore c (r.trapS .normal (irqCause 9) 0) else s)
      else (if r.takesM 9 then s.setCore c (r.trapM .normal (irqCause 9) 0) else s)
    s.haltCheck c

/-- INTERRUPT_DELIVER. -/
def execInterruptDeliver (c : Fin 5) (x : Fin 3) (s : State) : Host.Outcome State Fault Refusal :=
  .next (s.interruptDeliver c x)

/-- R348: CLAIM is written. -/
def State.irqClaim (s : State) (c x : Nat) (w : World) (v : Word) : State :=
  let k := getBits v 0 9
  if w ≠ contextWorld x || k = 0 || s.topSource c x ≠ k then s
  else
    ({ s with ic := { s.ic with inService := (k, 3 * c + x) :: s.ic.inService, sent := s.ic.sent.filter (·.1 != k) } }).set
      (Reg.IC_SRC_PENDING k) 0

/-- IRQ_CLAIM. -/
def execIrqClaim (c : Fin 5) (x : Fin 3) (w : World) (v : Word) (s : State) : Host.Outcome State Fault Refusal :=
  .next (s.irqClaim c x w v)

/-- A source leaves service; an event raised meanwhile makes it pending again. -/
def State.endService (s : State) (k : Nat) (pend : Bool) : State :=
  let again := s.ic.again.contains k
  let s := { s with ic := { s.ic with inService := s.ic.inService.filter (·.1 != k), again := s.ic.again.filter (· != k) } }
  if pend || again then s.set (Reg.IC_SRC_PENDING k) 1 else s

/-- R348: DONE is written. -/
def State.irqComplete (s : State) (c x : Nat) (w : World) (v : Word) : State :=
  let k := getBits v 0 9
  if w = contextWorld x && s.ic.inService.contains (k, 3 * c + x) then s.endService k false else s

/-- IRQ_COMPLETE. -/
def execIrqComplete (c : Fin 5) (x : Fin 3) (w : World) (v : Word) (s : State) : Host.Outcome State Fault Refusal :=
  .next (s.irqComplete c x w v)

/-- IC_0_SWI is written. -/
def State.swiWrite (s : State) (w : World) (v : Word) : State :=
  let k := 448 + getBits v 0 5
  if s.sourceWorld k = w then s.raiseIrq k else s

/-- SOFTWARE_INTERRUPT. -/
def execSoftwareInterrupt (w : World) (v : Word) (s : State) : Host.Outcome State Fault Refusal := .next (s.swiWrite w v)

/-- R347: a source whose world has changed is withdrawn from the world that lost it and stays pending in the other. -/
def State.sourceMoved (s : State) (k : Nat) : State :=
  let s := { s with ic := { s.ic with sent := s.ic.sent.filter (·.1 != k) } }
  if s.ic.inService.any (·.1 == k) then s.endService k true else s

/-- A source's register is written, by its own world only; WORLD of a software source is the secure world's to set. -/
def State.sourceWrite (s : State) (k : Nat) (w : World) (v : Word) : State :=
  let soft := decide (448 ≤ k ∧ k ≤ 479)
  let mine := decide (s.sourceWorld k = w)
  let was := s.sourceSecure k
  let s := if mine then s.plainWrite (Reg.IC_SRC k) v else s
  let s := if soft && w = .secure then s.set (Reg.IC_SRC_WORLD k) (getBits v 30 1) else s
  if s.sourceSecure k != was then s.sourceMoved k else s

end Sys2Proof.Machine
end

