-- ==== Sys2Proof/Machine/OwnGate.lean ====
section
/-! DEFINITION. Ownership of unit instances by the two worlds, and the gating of their clocks (R350 to R355). -/

namespace Sys2Proof.Machine

/-- R350: the units whose instances the secure world may claim. -/
def claimable (u : Nat) : Bool := [0x02, 0x04, 0x06, 0x08, 0x09, 0x0F, 0x10, 0x11, 0x12, 0x13, 0x14, 0x19].contains u

/-- R354: the instances that can be gated. -/
def gateable (u i : Nat) : Bool :=
  ([0x04, 0x08, 0x09, 0x0F, 0x10, 0x11, 0x13, 0x14].contains u && decide (i < unitInstances u)) || (u == 0x19 && decide (i ≤ 15))

/-- The owner registers of an instance (R68). -/
def instanceOwners (u i : Nat) : List Nat :=
  if u = 0x06 then [Reg.LAYER_OWNER i]
  else if u = 0x08 then [Reg.SCL_OWNER i]
  else if u = 0x11 then [Reg.HC_OWNER i]
  else if u = 0x13 then (List.range 24).map fun k => Reg.AUD_STREAM_OWNER k
  else if u = 0x10 then (List.range 32).map fun k => Reg.TOUCH_ZONE_OWNER i k
  else []

/-- R352: whether an instance is assigned to a session. -/
def State.assigned (s : State) (u i : Nat) : Bool := (instanceOwners u i).any fun a => bitOf (s.reg a).toNat 8

/-! ### Gating (R354, R355) -/

/-- R354: whether every EN, RUN and GO field of an instance reads 0. -/
def State.unitIdle (s : State) (u i : Nat) : Bool :=
  if u = 0x04 then !s.bit (Reg.DPO_CTRL_EN i) && !s.bit (Reg.DPO_CMP_TEST_GO i)
  else if u = 0x09 then !s.bit (Reg.VIN_CTRL_EN i)
  else if u = 0x0F then !s.bit (Reg.TSL_CTRL_EN i)
  else if u = 0x10 then
    !s.bit (Reg.TOUCH_CTRL_EN i) && (List.range 32).all (fun k => !s.bit (Reg.TOUCH_ZONE_CTRL_EN i k))
      && (List.range 4).all (fun k => !s.bit (Reg.TOUCH_SZONE_CTRL_EN i k))
  else if u = 0x11 then !s.bit (Reg.HC_CTRL_EN i)
  else if u = 0x13 then
    !s.bit Reg.AUD_CTRL_EN && !s.bit Reg.AUD_LOOP_EN && (List.range 8).all (fun r => !s.bit (Reg.AUD_DIRECT_EN r))
      && (List.range 48).all (fun o => !s.bit (Reg.AUD_EQ_CTRL_EN o))
  else if u = 0x14 then !s.bit (Reg.TDM_CTRL_EN i)
  else if u = 0x19 then !s.bit (Reg.CRC_CTRL_GO i)
  else true

/-- R354: a requested gate takes effect where its instance is idle and not claimed (a request of the secure world is held
only for idleness, R355); else it is held, with a record the first time a claim holds it. The record's unit is the
instance's (DEDUCED, log entry 37). -/
def State.gateTry (s : State) (u i : Nat) : State :=
  let key := 256 * u + i
  let b := i % 32
  let held := Reg.PWR_HELD_HELD u (i / 32)
  if !bitOf (s.get (Reg.PWR_GATE_REQ u (i / 32))) b || s.gated.contains key then s
  else
    let claim := s.ownedSecure u i && !s.gateSecure.contains key
    if s.unitIdle u i && !claim then
      (({ s with gated := key :: s.gated }).set held (clearBitOf (s.get held) b)).audioGated u i
    else
      let s := s.set held (setBitOf (s.get held) b)
      if claim && !s.gateNoted.contains key then
        ({ s with gateNoted := key :: s.gateNoted }).logEvent 0x0002 u i (256 * u + i) 0 0 0
      else s

/-- R9: the owner registers of an instance whose LOCK is set: only a reset of the device releases them. -/
def State.lockedOwners (s : State) (u i : Nat) : List Nat := (instanceOwners u i).filter fun a => bitOf (s.reg a).toNat 31

/-- R394 to R396: what a reaction holds of an instance outlives its gating: a haptic channel in FAULT and a touch engine that is
HALTED under C2 stay so until their release, the channel with the cost it holds (R302). -/
def State.reactionHeld (s : State) (t : State) (u i : Nat) : State :=
  if u = 0x11 ∧ s.hcState i = 4 then (t.setHc i { t.hc i with cost := (s.hc i).cost }).set (Reg.HC_STATUS_STATE i) 4
  else if u = 0x10 ∧ (s.tch i).contained then
    (t.setTch i { t.tch i with contained := true }).set (Reg.TOUCH_STATUS_PHASE i) 6
  else t

/-- R355: the state an ungated instance holds beside its registers is that of reset. -/
def State.resetHidden (s : State) (u i : Nat) : State :=
  if u = 0x04 then { s with ports := sdel i s.ports }
  else if u = 0x09 then { s with vins := sdel i s.vins }
  else if u = 0x0F then
    let t := s.tch i
    s.setTch i { t with scan := {}, seq := 0, fseq := 0, discarded := 0, sent := [] }
  else if u = 0x10 then
    let t := s.tch i
    s.setTch i { scan := t.scan, seq := t.seq, fseq := t.fseq, discarded := t.discarded, sent := t.sent }
  else if u = 0x11 then { s with hap := sdel i s.hap }
  else if u = 0x13 then { s with aud := { s.aud with startDue := false, stopDue := false, nodes := [], last := [], hpf := [], eq := [],
                                                     outs := [], staged := false, late := [], duck := none, routes := [],
                                                     dp := [] } }
  else if u = 0x14 then { s with aud := { s.aud with tdm := sdel i s.aud.tdm } }
  else if u = 0x19 then { s with crcs := sdel i s.crcs }
  else s

/-- The resources of an instance, by owner register. -/
def instanceOwned (u i : Nat) : List Owned :=
  if u = 0x11 then [.haptic (Fin.ofNat 16 i)]
  else if u = 0x13 then (List.range 24).map fun k => .stream (Fin.ofNat 24 k)
  else []

/-- R355: an instance's clock runs again: its registers hold their reset values, and so do the resource bits of the sessions its
owner registers named. A locked owner register keeps what it holds (R9), a reaction goes on (R396), and the haptic budget in use is
that of the costs held (R302). A condition of a fault input
that held before and does not hold at the reset values fell (R398). -/
def State.ungate (s : State) (u i : Nat) : State :=
  let s0 := s
  let s := s.each (instanceOwned u i) fun o t =>
    let x := t.reg (ownedAddr o)
    if bitOf x.toNat 8 && !bitOf x.toNat 31 then t.resBit o (getBits x 0 8) (getBits x 12 4) false else t
  let s := { s with gated := s.gated.filter (· != 256 * u + i) }
  let t := s0.reactionHeld
    ((s.resetRange (0x1000000 * u + 0x10000 * i) 0x10000 (fun a => (s.lockedOwners u i).contains a)).resetHidden u i) u i
  let t := t.when (u == 0x11 || u == 0x12) (·.hapSetUse)
  t.each levelInputs fun k v => v.fellSince s0 k

/-- Writing REQ = 0 withdraws a held request, or ungates the instance. -/
def State.gateWithdraw (s : State) (u i : Nat) : State :=
  let key := 256 * u + i
  let held := Reg.PWR_HELD_HELD u (i / 32)
  let s := s.set held (clearBitOf (s.get held) (i % 32))
  let s := { s with gateSecure := s.gateSecure.filter (· != key), gateNoted := s.gateNoted.filter (· != key) }
  if s.gated.contains key then s.ungate u i else s

/-- PWR_0_GATE_u_k is written by a world. -/
def State.gateWrite (s : State) (u k : Nat) (w : World) (v : Word) : State :=
  let f := Reg.PWR_GATE_REQ u k
  s.each (List.range 32) fun b t =>
    let i := 32 * k + b
    let want := bitOf v.toNat b
    let have_ := bitOf (t.get f) b
    if !gateable u i || want == have_ then t
    else if want then
      let t := t.set f (setBitOf (t.get f) b)
      let t := if w = .secure then { t with gateSecure := (256 * u + i) :: t.gateSecure } else t
      t.gateTry u i
    else (t.set f (clearBitOf (t.get f) b)).gateWithdraw u i

/-- GATE_REQUEST: the bits written 1 are requested beside those that stand. -/
def execGateRequest (u : Fin 33) (k : Fin 8) (w : World) (v : Word) (s : State) : Host.Outcome State Fault Refusal :=
  .next (s.gateWrite u k w (s.reg (Reg.PWR_GATE u k) ||| v))

/-- GATE_WITHDRAW: the requests of the bits written 1 here are withdrawn (REQ = 0), the others stand. -/
def execGateWithdraw (u : Fin 33) (k : Fin 8) (w : World) (v : Word) (s : State) : Host.Outcome State Fault Refusal :=
  .next (s.gateWrite u k w (s.reg (Reg.PWR_GATE u k) &&& ~~~v))

/-- GATE_TAKE_EFFECT: a held request is looked at again. -/
def execGateTakeEffect (u : Fin 33) (i : Fin 256) (s : State) : Host.Outcome State Fault Refusal :=
  .next (if gateable u i then s.gateTry u i else s)

/-! ### Claims (R347, R352, R353) -/

/-- R347: the sources of an instance whose owner has changed. -/
def State.sourcesMoved (s : State) (u i : Nat) : State :=
  s.each ((List.range 118).filter fun k => sourceOwner k == some (u, i)) fun k t => t.sourceMoved k

/-- R352: one bit of an owner register rises or falls. -/
def State.ownBit (s : State) (u i : Nat) (want : Bool) : State :=
  let f := Reg.SYS_OWN_SECURE u (i / 32)
  let b := i % 32
  if want == bitOf (s.get f) b then s
  else if want then
    if s.assigned u i then (s.set Reg.SYS_OWN_STATUS_CLAIM_REFUSED 1).count Reg.SYS_OWN_STATUS_EVENTS
    else ((s.set f (setBitOf (s.get f) b)).sourcesMoved u i).gateTry u i
  else ((s.set f (clearBitOf (s.get f) b)).sourcesMoved u i).gateTry u i

/-- SYS_0_OWN_u_k is written by the secure world. -/
def State.ownWrite (s : State) (u k : Nat) (v : Word) : State :=
  if !claimable u then s
  else s.each ((List.range 32).filter fun b => decide (32 * k + b < unitInstances u)) fun b t =>
    t.ownBit u (32 * k + b) (bitOf v.toNat b)

/-- OWNER_CLAIM: the bits written 1 are claimed beside those that stand. -/
def execOwnerClaim (u : Fin 33) (k : Fin 8) (w : World) (v : Word) (s : State) : Host.Outcome State Fault Refusal :=
  .next (s.asWriter w 0x00 0 true fun t => t.ownWrite u k (t.reg (Reg.SYS_OWN u k) ||| v))

/-- OWNER_RELEASE: the bits written 1 here are released (written 0), the others stand. -/
def execOwnerRelease (u : Fin 33) (k : Fin 8) (w : World) (v : Word) (s : State) : Host.Outcome State Fault Refusal :=
  .next (s.asWriter w 0x00 0 true fun t => t.ownWrite u k (t.reg (Reg.SYS_OWN u k) &&& ~~~v))

end Sys2Proof.Machine
end

