-- ==== Sys2Proof/Machine/Ports.lean ====
section
/-! DEFINITION. The display ports' commands: training, fallback and degrade, HPD, the AUX and I2C masters, panel power and
the backlight (spec/03_screen_timing_and_ports.md, R89 to R103). -/

namespace Sys2Proof.Machine

/-! ### Training and fallback (R89 to R91) -/

/-- R89: DPO_n_CTRL is written: while the port's screen runs AUDIO_EN alone may change. A port whose PHY is not powered
has no link (log entry 27). -/
def State.dpoCtrlWrite (s : State) (p : Nat) (v : Word) : State :=
  let a := Reg.DPO_CTRL p
  if (s.screenOn p).isSome && !s.onlyChanges a 0x80 v then s.linkEvent p (Reg.DPO_LINK_STATUS_WRITE_WHILE_ACTIVE p)
  else
    let s := s.plainWrite a v
    if s.bit (Reg.DPO_CTRL_EN p) then s else s.linkDown p

/-- The rate codes of DP mode (R89). -/
def dpRate (c : Nat) : Bool := c = 0 || c = 3 || c = 6 || c = 7

/-- R89, R90: DPO_n_LINK_CTRL is written: ignored while the port's screen runs; TRAIN starts training, unless DP mode does
not have its rate. -/
def State.linkCtrlWrite (s : State) (p : Nat) (v : Word) : State :=
  if (s.screenOn p).isSome then s.linkEvent p (Reg.DPO_LINK_STATUS_WRITE_WHILE_ACTIVE p)
  else
    let s := s.plainWrite (Reg.DPO_LINK_CTRL p) (withoutBit v 8)
    if !bitOf v.toNat 8 then s
    else
      let rate := s.get (Reg.DPO_LINK_CTRL_RATE p)
      let lanes := laneCode (s.get (Reg.DPO_LINK_CTRL_LANES p))
      if !s.bit (Reg.DPO_CTRL_EDP p) && !dpRate rate then s.linkEvent p (Reg.DPO_LINK_STATUS_CFG_ERR p)
      else (s.setPort p { s.port p with asked := (rate, lanes), failed := [] }).trainAt p .soft rate lanes

/-- DPO_n_LINK_CTRL is written with TRAIN = 1 (R89, R90). -/
def execDpTrain (p : Fin 8) (w : World) (v : Word) (s : State) : Host.Outcome State Fault Refusal :=
  .next (s.asWriter w 0x04 p.val false (·.linkCtrlWrite p.val (withBit v 8)))

/-- R91: whether fallback may try a configuration: a rate the port has, at most MAX_RATE, that carries the port's running
screen. -/
def State.mayTry (s : State) (p rate lanes : Nat) : Bool :=
  (s.bit (Reg.DPO_CTRL_EDP p) || dpRate rate) && decide (rate ≤ s.get (Reg.DPO_CTRL_MAX_RATE p)) &&
    (match s.screenOn p with
      | some n => s.carries (s.timing n) rate lanes
      | none => true)

/-- R91: the configurations of a request in the order in which they are tried: fewer lanes at its rate, then each lower
rate, where the lanes start again from the lane count asked for (DESIGN CHOICE, log entry 76). -/
def fallbackOrder (rate lanes : Nat) : List (Nat × Nat) :=
  (List.range (rate + 1)).reverse.flatMap fun c => (List.range (lanes + 1)).reverse.map fun l => (c, l)

/-- R91: the configuration tried after the one that failed. -/
def State.nextTry (s : State) (p : Nat) : Option (Nat × Nat) :=
  let r := s.port p
  (((fallbackOrder r.asked.1 r.asked.2).dropWhile (· != (r.rate, r.lanes))).drop 1).find? fun c => s.mayTry p c.1 c.2

/-- R94, R95: a degrade begins: a pending RETIME of the port's screen is withdrawn, and the lanes are trained. The doubling of B
that an earlier degrade left to a latch gives way to this one's search. -/
def State.degradeStart (s : State) (p : Nat) : State :=
  let s := match s.screenOn p with
    | some n =>
      let s := if (s.scr n).gap then s else s.setScr n { s.scr n with halve := false }
      if s.get (Reg.SCREEN_RETIME_STATE n) = 1 then s.retimeRefuse n 0xC else s
    | none => s
  (s.setPort p { s.port p with degrading := true }).trainAt p .degrade (s.get (Reg.DPO_LINK_STATUS_LIVE_RATE p))
    (s.get (Reg.DPO_LINK_STATUS_LIVE_LANES p))

/-- R90, R91, R93, R96: training of a port ends. A retraining after an IRQ_HPD that fails is the lane's second failure
(log entry 28). The lanes a degrade dropped are tested again by a TRAIN request or a RETRAIN, which train the link from its
start; the start of a screen trains nothing (DEDUCED, log entry 76). -/
def State.trainDone (s : State) (p : Nat) (ok : Bool) : State :=
  let r := s.port p
  let trained := ok && s.bit (Reg.DPO_CTRL_EN p)
  match r.why with
  | .soft | .relink =>
    if trained then
      let s := s.setPort p { r with why := .none, last := some (r.rate, r.lanes) }
      let s := s.linkUp p r.rate r.lanes
      if r.why = .soft then s.clearDegraded p else s
    else
      match (if s.bit (Reg.DPO_CTRL_FALLBACK p) then s.nextTry p else none) with
      | some (c, l) => s.trainAt p r.why c l
      | none => ((s.setPort p { r with why := .none }).linkDown p).linkEvent p (Reg.DPO_LINK_STATUS_TRAIN_FAIL p)
  | .irq =>
    if trained then (s.setPort p { r with why := .none }).linkUp p r.rate r.lanes
    else s.degradeStart p
  | _ => s

/-- Training of a port ends; `ok` says that the link trained (R90, R91). -/
def execDpTrainDone (p : Fin 8) (ok : Bool) (s : State) : Host.Outcome State Fault Refusal := .next (s.trainDone p.val ok)

/-! ### HPD and degrade (R92 to R96) -/

/-- R93: an IRQ_HPD, with the lanes that have lost clock recovery, equalisation or symbol lock as DPCD reports them. A lane's
failure stays noted until a TRAIN, a RETRAIN or a degrade (DESIGN CHOICE, log entry 104). -/
def State.hpdIrq (s : State) (p lost : Nat) : State :=
  if !(s.bit (Reg.DPO_LINK_STATUS_HPD p)) then s
  else
    let used := laneCount (s.get (Reg.DPO_LINK_STATUS_LIVE_LANES p))
    let bad := (List.range used).filter (bitOf lost)
    if !s.bit (Reg.DPO_LINK_STATUS_LINK_OK p) || bad.isEmpty then s.linkEvent p (Reg.DPO_LINK_STATUS_IRQ_HPD p)
    else
      let r := s.port p
      if bad.any r.failed.contains then s.degradeStart p
      else (s.setPort p { r with failed := r.failed ++ bad }).trainAt p .irq (s.get (Reg.DPO_LINK_STATUS_LIVE_RATE p))
        (s.get (Reg.DPO_LINK_STATUS_LIVE_LANES p))

/-- HPD was low for 0.25 ms to 2 ms; `lost` names the lanes DPCD 0x00200 to 0x00205 reports as failing (R92, R93). -/
def execHpdIrq (p : Fin 8) (lost : BitVec 4) (s : State) : Host.Outcome State Fault Refusal :=
  .next (s.hpdIrq p.val lost.toNat)

/-- R94: the lowest rate up to MAX_RATE that carries a timing at a lane count; where no screen runs, nothing is to be carried and
the lowest rate is taken (DEDUCED, log entry 76). -/
def State.lowestRate (s : State) (p : Nat) (t : Option Timing) (lanes : Nat) : Option Nat :=
  (List.range (s.get (Reg.DPO_CTRL_MAX_RATE p) + 1)).find? fun c =>
    (s.bit (Reg.DPO_CTRL_EDP p) || dpRate c) && (match t with | some t => s.carries t c lanes | none => true)

/-- R94, R95: a degrade ends at a rate and lane count. Where B doubles it still runs, for a RETIME request, until the start latch
of the halved timing. -/
def State.degraded (s : State) (p rate lanes : Nat) (halve : Bool) : State :=
  let s := s.setPort p { s.port p with degrading := halve, why := .none, last := some (rate, lanes), failed := [] }
  ((s.linkUp p rate lanes).set (Reg.DPO_LINK_STATUS_DEGRADED p) 1).raiseFault (104 + p)

/-- R94, R95: no configuration carries the screen: LINK_UNUSABLE, the screen stops and the link stays down. -/
def State.unusable (s : State) (p : Nat) : State :=
  let on := s.screenOn p
  let s := ((s.setPort p { s.port p with degrading := false, why := .none }).linkDown p).raiseFault (96 + p)
  match on with
  | some n => s.screenHalt n
  | none => s

/-- R94: the lanes a degrade keeps, coded as LANES: 0 and 1 when both train, lane 0 when only it trains. -/
def keptLanes (lane0 lane1 : Bool) (live : Nat) : Option Nat :=
  if lane0 && lane1 && live != 0 then some 1 else if lane0 then some 0 else none

/-- R94: whether a degrade may end at a rate and lane count: CTRL.FALLBACK allows a change of them. With
FALLBACK = 0 only a search that ends at the live rate and lanes keeps the link: where R94's search finds a lower rate, it is
unusable, though the live rate would carry the screen (DEDUCED, log entry 29). -/
def State.mayDegrade (s : State) (p rate lanes : Nat) : Bool :=
  s.bit (Reg.DPO_CTRL_FALLBACK p)
    || (rate == s.get (Reg.DPO_LINK_STATUS_LIVE_RATE p) && lanes == s.get (Reg.DPO_LINK_STATUS_LIVE_LANES p))

/-- R94, R95: a degrade has tested its lanes: its search; where lane 0 does not train, no configuration is left (DEDUCED, log
entry 76). -/
def State.degradeDone (s : State) (p : Nat) (lane0 lane1 : Bool) : State :=
  if !((s.port p).degrading && (s.port p).why == .degrade) then s
  else
    match keptLanes lane0 lane1 (s.get (Reg.DPO_LINK_STATUS_LIVE_LANES p)) with
    | none => s.unusable p
    | some l =>
      let on := s.screenOn p
      let t := on.map s.timing
      match s.lowestRate p t l with
      | some c => if s.mayDegrade p c l then s.degraded p c l false else s.unusable p
      | none =>
        match on, t with
        | some n, some t =>
          if s.bit (Reg.DPO_CTRL_HALVE_OK p) && decide (2 * t.beats ≤ 16) then
            match s.lowestRate p (some { t with beats := 2 * t.beats }) l with
            | some c => if s.mayDegrade p c l then (s.setScr n { s.scr n with halve := true }).degraded p c l true else s.unusable p
            | none => s.unusable p
          else s.unusable p
        | _, _ => s.unusable p

/-- A degrade reaches the end of its training: whether lanes 0 and 1 train (R94, R95). -/
def execDegradeDone (p : Fin 8) (lane0 lane1 : Bool) (s : State) : Host.Outcome State Fault Refusal :=
  .next (s.degradeDone p.val lane0 lane1)

/-- R92: HPD has been low for more than 2 ms: the link stops, UNPLUG is set and a C0 note is raised. -/
def State.unplug (s : State) (p : Nat) : State :=
  if !s.bit (Reg.DPO_LINK_STATUS_HPD p) then s
  else
    let r := s.port p
    let s := (s.setPort p { r with degrading := false, why := if r.why = .retime then .retime else .none }).linkDown p
    ((s.set (Reg.DPO_LINK_STATUS_HPD p) 0).linkEvent p (Reg.DPO_LINK_STATUS_UNPLUG p)).raiseFault (112 + p)

/-- HPD stays low beyond 2 ms (R92). -/
def execHpdUnplug (p : Fin 8) (s : State) : Host.Outcome State Fault Refusal := .next (s.unplug p.val)

/-- R92, R99: HPD rises, with a sink that supports TPS3 or does not; with AUTO_RELINK the port retrains at its last parameters. -/
def State.replug (s : State) (p : Nat) (tps3 : Bool) : State :=
  if s.bit (Reg.DPO_LINK_STATUS_HPD p) then s
  else
    let s := (s.set (Reg.DPO_LINK_STATUS_HPD p) 1).liveFell (112 + p)
    let s := s.setPort p { s.port p with awaitHpd := false, tps3 := tps3 }
    match (s.port p).last with
    | some (c, l) =>
      if s.bit (Reg.DPO_CTRL_AUTO_RELINK p) && (s.port p).why = .none then
        (s.setPort p { s.port p with asked := (c, l) }).trainAt p .relink c l
      else s
    | none => s

/-- HPD rises again (R90, R92, R99). -/
def execHpdReplug (p : Plug) (s : State) : Host.Outcome State Fault Refusal := .next (s.replug p.port.val p.tps3)

/-! ### The AUX and I2C masters (R97, R98) -/

/-- R97: AUX_CMD or I2C_CMD is written: it starts a transaction, or is ignored while one is queued or runs. -/
def State.auxCmd (s : State) (p : Nat) (i2c : Bool) (v : Word) : State :=
  let busy := if i2c then Reg.DPO_I2C_STATUS_BUSY p else Reg.DPO_AUX_STATUS_BUSY p
  if s.bit busy then s.linkEvent p (Reg.DPO_LINK_STATUS_CFG_ERR p)
  else
    let s := s.plainWrite (if i2c then Reg.DPO_I2C_CMD p else Reg.DPO_AUX_CMD p) v
    let s := if i2c then s else s.setPort p { s.port p with aux := {} }
    s.set busy 1

/-- R97: AUX_DATA_k or I2C_DATA_k is written. -/
def State.auxData (s : State) (p : Nat) (i2c : Bool) (a : Nat) (v : Word) : State :=
  if s.bit (if i2c then Reg.DPO_I2C_STATUS_BUSY p else Reg.DPO_AUX_STATUS_BUSY p) then
    s.linkEvent p (Reg.DPO_LINK_STATUS_CFG_ERR p)
  else s.plainWrite a v

/-- DPO_n_AUX_CMD is written with request code 0x8 (R97). -/
def execAuxNativeWrite (p : Fin 8) (w : World) (v : Word) (s : State) : Host.Outcome State Fault Refusal :=
  .next (s.asWriter w 0x04 p.val false (·.auxCmd p.val false (setBits v 28 4 8)))
/-- DPO_n_AUX_CMD is written with request code 0x9 (R97). -/
def execAuxNativeRead (p : Fin 8) (w : World) (v : Word) (s : State) : Host.Outcome State Fault Refusal :=
  .next (s.asWriter w 0x04 p.val false (·.auxCmd p.val false (setBits v 28 4 9)))
/-- DPO_n_AUX_CMD is written with request code 0x0 (R97). -/
def execAuxI2cWrite (p : Fin 8) (w : World) (v : Word) (s : State) : Host.Outcome State Fault Refusal :=
  .next (s.asWriter w 0x04 p.val false (·.auxCmd p.val false (setBits v 28 4 0)))
/-- DPO_n_AUX_CMD is written with request code 0x1 (R97). -/
def execAuxI2cRead (p : Fin 8) (w : World) (v : Word) (s : State) : Host.Outcome State Fault Refusal :=
  .next (s.asWriter w 0x04 p.val false (·.auxCmd p.val false (setBits v 28 4 1)))
/-- DPO_n_AUX_CMD is written with request code 0x4 (R97). -/
def execAuxI2cWriteMot (p : Fin 8) (w : World) (v : Word) (s : State) : Host.Outcome State Fault Refusal :=
  .next (s.asWriter w 0x04 p.val false (·.auxCmd p.val false (setBits v 28 4 4)))
/-- DPO_n_AUX_CMD is written with request code 0x5 (R97). -/
def execAuxI2cReadMot (p : Fin 8) (w : World) (v : Word) (s : State) : Host.Outcome State Fault Refusal :=
  .next (s.asWriter w 0x04 p.val false (·.auxCmd p.val false (setBits v 28 4 5)))
/-- DPO_n_I2C_CMD is written with code 0x0 (R97). -/
def execI2cWrite (p : Fin 8) (w : World) (v : Word) (s : State) : Host.Outcome State Fault Refusal :=
  .next (s.asWriter w 0x04 p.val false (·.auxCmd p.val true (setBits v 28 4 0)))
/-- DPO_n_I2C_CMD is written with code 0x1 (R97). -/
def execI2cRead (p : Fin 8) (w : World) (v : Word) (s : State) : Host.Outcome State Fault Refusal :=
  .next (s.asWriter w 0x04 p.val false (·.auxCmd p.val true (setBits v 28 4 1)))
/-- DPO_n_I2C_CMD is written with code 0x2 (R97). -/
def execI2cWriteRead (p : Fin 8) (w : World) (v : Word) (s : State) : Host.Outcome State Fault Refusal :=
  .next (s.asWriter w 0x04 p.val false (·.auxCmd p.val true (setBits v 28 4 2)))

/-- R98: whether the AUX master's transaction can move: the port does not use AUX for training or for a degrade. -/
def State.auxFree (s : State) (p : Nat) : Bool :=
  s.bit (Reg.DPO_AUX_STATUS_BUSY p) && !s.bit (Reg.DPO_LINK_STATUS_TRAINING p)

/-- R97: a DEFER is retried 400 µs later, up to 7 times. -/
def State.auxDefer (s : State) (p : Nat) : State :=
  if s.auxFree p && decide ((s.port p).aux.defers < 7) then
    s.setPort p { s.port p with aux := { defers := (s.port p).aux.defers + 1 } }
  else s

/-- After a DEFER the port retries the AUX transaction (R97). -/
def execAuxDeferRetry (p : Fin 8) (s : State) : Host.Outcome State Fault Refusal := .next (s.auxDefer p.val)

/-- Whether a request code reads: AUX 0x1, 0x5 and 0x9; I2C all but 0x0. -/
def reqReads (i2c : Bool) (req : Nat) : Bool := if i2c then req != 0 else req = 1 || req = 5 || req = 9

/-- Bytes put into the four data registers from their first on. -/
def State.putData (s : State) (base : Nat → Nat) : Nat → List Byte → State
  | _, [] => s
  | i, b :: bs =>
    (s.setReg (base (i / 4)) (setBits (s.reg (base (i / 4))) (8 * (i % 4)) 8 b.toNat)).putData base (i + 1) bs

/-- R97: a transaction ends with its reply: BYTES, the bytes read, and DONE. DEFER ends an AUX transaction after its seven
retries only. -/
def State.auxEnd (s : State) (p : Nat) (i2c : Bool) (reply moved : Nat) (data : List Byte) : State :=
  let ok := if i2c then s.bit (Reg.DPO_I2C_STATUS_BUSY p) && reply != 2
    else s.auxFree p && (reply != 2 || (s.port p).aux.defers == 7)
  if !ok then s
  else
    let cmd := s.reg (if i2c then Reg.DPO_I2C_CMD p else Reg.DPO_AUX_CMD p)
    let n := min moved (getBits cmd 0 4 + 1)
    let bs := data.take n
    let reads := reqReads i2c (getBits cmd 28 4)
    let n := if reads then bs.length else n
    let s := if reads then s.putData (fun k => if i2c then Reg.DPO_I2C_DATA p k else Reg.DPO_AUX_DATA p k) 0 bs else s
    if i2c then
      (((((s.set (Reg.DPO_I2C_STATUS_REPLY p) reply).set (Reg.DPO_I2C_STATUS_BYTES p) n).set
        (Reg.DPO_I2C_STATUS_BUSY p) 0).set (Reg.DPO_I2C_STATUS_DONE p) 1).count (Reg.DPO_I2C_STATUS_EVENTS p))
    else
      (((((s.set (Reg.DPO_AUX_STATUS_REPLY p) reply).set (Reg.DPO_AUX_STATUS_BYTES p) n).set
        (Reg.DPO_AUX_STATUS_BUSY p) 0).set (Reg.DPO_AUX_STATUS_DONE p) 1).count (Reg.DPO_AUX_STATUS_EVENTS p))

/-- A transaction of the AUX master, or of the I2C master, ends: its reply, the bytes moved and the bytes read (R97). -/
def execAuxTransactionEnd (p : Fin 8) (i2c : Bool) (reply : Fin 3) (moved : Fin 17) (data : List Byte) (s : State) :
    Host.Outcome State Fault Refusal :=
  .next (s.auxEnd p.val i2c reply.val moved.val data)

/-- No reply, or a clock stretch beyond 10 ms: TIMEOUT is set and the transaction is over. BYTES and REPLY keep those of the
transaction before, and DONE is not set (DESIGN CHOICE, log entry 103). -/
def State.auxTimeout (s : State) (p : Nat) (i2c : Bool) : State :=
  if i2c then
    if !s.bit (Reg.DPO_I2C_STATUS_BUSY p) then s
    else ((s.set (Reg.DPO_I2C_STATUS_BUSY p) 0).set (Reg.DPO_I2C_STATUS_TIMEOUT p) 1).count (Reg.DPO_I2C_STATUS_EVENTS p)
  else if !s.auxFree p then s
  else ((s.set (Reg.DPO_AUX_STATUS_BUSY p) 0).set (Reg.DPO_AUX_STATUS_TIMEOUT p) 1).count (Reg.DPO_AUX_STATUS_EVENTS p)

/-- No reply arrives in time (R97). -/
def execAuxTimeout (p : Fin 8) (i2c : Bool) (s : State) : Host.Outcome State Fault Refusal := .next (s.auxTimeout p.val i2c)

/-! ### Panel power and backlight (R99 to R103) -/

/-- PNL_VDD_EN goes high, and HPD is awaited. -/
def State.vddRise (s : State) (p : Nat) : State :=
  (s.setPort p { s.port p with powerHeld := false, awaitHpd := !s.bit (Reg.DPO_LINK_STATUS_HPD p) }).set
    (Reg.DPO_PANEL_VDD_LIVE p) 1

/-- R99 to R101: DPO_n_PANEL is written; `rested` says that T_OFF_MIN has passed since PNL_VDD_EN last went low. -/
def State.panelWrite (s : State) (p : Nat) (v : Word) (rested : Bool) : State :=
  let on := bitOf v.toNat 0
  if !on && (s.screenOn p).isSome then s.linkEvent p (Reg.DPO_LINK_STATUS_WRITE_WHILE_ACTIVE p)
  else
    let was := s.bit (Reg.DPO_PANEL_PANEL_ON p)
    let s := s.plainWrite (Reg.DPO_PANEL p) v
    let s := if bitOf v.toNat 1 && on then s else s.blLow p
    let r := s.port p
    let vdd := s.bit (Reg.DPO_PANEL_VDD_LIVE p)
    if on then
      if was then s
      else if vdd && r.down = 0 then s
      else if r.down = 0 && (rested || !r.wentLow) then s.vddRise p
      else s.setPort p { r with powerHeld := true }
    else if !was then s
    else s.setPort p { r with powerHeld := false, awaitHpd := false,
                              down := if vdd then (if r.down = 0 then 1 else r.down) else 0 }

/-- DPO_n_PANEL is written with PANEL_ON = 1 (R99, R101). -/
def execPanelOn (p : Fin 8) (w : World) (v : Word) (rested : Bool) (s : State) : Host.Outcome State Fault Refusal :=
  .next (s.asWriter w 0x04 p.val false (·.panelWrite p.val (withBit v 0) rested))

/-- DPO_n_PANEL is written with PANEL_ON = 0 (R101). -/
def execPanelOff (p : Fin 8) (w : World) (v : Word) (s : State) : Host.Outcome State Fault Refusal :=
  .next (s.asWriter w 0x04 p.val false (·.panelWrite p.val (withoutBit v 0) false))

/-- DPO_n_PANEL is written with BL_ON = 1 (R100). -/
def execBlOn (p : Fin 8) (w : World) (v : Word) (s : State) : Host.Outcome State Fault Refusal :=
  .next (s.asWriter w 0x04 p.val false (·.panelWrite p.val (withBit v 1) false))

/-- DPO_n_PANEL is written with BL_ON = 0 (R100). -/
def execBlOff (p : Fin 8) (w : World) (v : Word) (s : State) : Host.Outcome State Fault Refusal :=
  .next (s.asWriter w 0x04 p.val false (·.panelWrite p.val (withoutBit v 1) false))

/-- T_OFF_MIN has passed for a held power-on request (R99, R101). -/
def execPanelVddRise (p : Fin 8) (s : State) : Host.Outcome State Fault Refusal :=
  .next (if (s.port p.val).powerHeld && (s.port p.val).down = 0 then s.vddRise p.val else s)

/-- HPD has not risen within T_HPD: SEQ_ERR is set and the panel stays powered (R99). -/
def execPanelHpdTimeout (p : Fin 8) (s : State) : Host.Outcome State Fault Refusal :=
  .next (if (s.port p.val).awaitHpd then
      (s.setPort p.val { s.port p.val with awaitHpd := false }).event (Reg.DPO_PANEL_SEQ_ERR p.val)
        (Reg.DPO_PANEL_EVENTS p.val) (25 + p.val)
    else s)

/-- R101: a delay of the power-down expires: the link stops, then PNL_VDD_EN goes low. -/
def State.powerDownStep (s : State) (p : Nat) : State :=
  let r := s.port p
  if r.down = 1 then (s.setPort p { r with down := 2, why := .none, degrading := false }).linkDown p
  else if r.down = 2 then (s.setPort p { r with down := 0, wentLow := true }).set (Reg.DPO_PANEL_VDD_LIVE p) 0
  else s

/-- A power-down delay of a panel expires (R101). -/
def execPanelPowerDownStep (p : Fin 8) (s : State) : Host.Outcome State Fault Refusal := .next (s.powerDownStep p.val)

/-- R100: whether a port sends valid video. -/
def State.videoValid (s : State) (p : Nat) : Bool :=
  s.bit (Reg.DPO_LINK_STATUS_LINK_OK p) && (s.port p).video && (s.screenOn p).isSome

/-- Valid video has been sent for T_VIDEO_BL: BL_EN goes high, where it is requested and no reaction holds it released
(R100, R102). -/
def execBlEnableDelay (p : Fin 8) (s : State) : Host.Outcome State Fault Refusal :=
  .next (if s.bit (Reg.DPO_PANEL_BL_ON p.val) && s.videoValid p.val && !s.blReleased p.val then
      s.set (Reg.DPO_PANEL_BL_EN_LIVE p.val) 1
    else s)

/-- A PWM period of a port's backlight starts (R103). -/
def execBlPwmPeriod (p : Fin 8) (s : State) : Host.Outcome State Fault Refusal := .next (s.pwmStart p.val)

end Sys2Proof.Machine
end

