-- ==== Sys2Proof/Machine/FaultCmds.lean ====
section
/-! DEFINITION. The commands of the fault collector, the toll and SAFE_N, and the supply ride-through (R387 to R407). -/

namespace Sys2Proof.Machine

/-! ### Events, classes, requests and releases (R387 to R397) -/

/-- R390: IN_k_CFG is written: CLASS is held within the input's range. -/
def State.classWrite (s : State) (k : Nat) (v : Word) : State :=
  if s.bit Reg.FLT_CTRL_LOCK then s
  else s.set (Reg.FLT_IN_CFG_CLASS k) (clampNat (s.get (Reg.FLT_IN_CFG_MIN k)) (s.get (Reg.FLT_IN_CFG_MAX k)) (getBits v 16 2))

/-- FAULT_CLASS_WRITE. -/
def execFaultClassWrite (k : Fin 448) (w : World) (v : Word) (s : State) : Host.Outcome State Fault Refusal :=
  .next (s.asWriter w 0x18 0 false (·.classWrite k v))

/-- FLT_0_REQUEST is written: every input it names is raised in the clock of the write. -/
def State.requestWrite (s : State) (v : Word) : State :=
  let ks := (if bitOf v.toNat 31 then [12] else []) ++ (allScreens.filter (bitOf v.toNat)).map (16 + ·)
  let t := s.each ks fun k t => t.raiseFault k
  if ks.length ≤ 1 then t else t.inOrder s

/-- REQUEST_C3. -/
def execRequestC3 (w : World) (v : Word) (s : State) : Host.Outcome State Fault Refusal :=
  .next (s.asWriter w 0x18 0 false (·.requestWrite (withBit v 31)))

/-- REQUEST_SCREEN: one screen's bit is written 1. -/
def execRequestScreen (n : Fin 8) (w : World) (v : Word) (s : State) : Host.Outcome State Fault Refusal :=
  .next (s.asWriter w 0x18 0 false (·.requestWrite (withBit v n)))

/-- The scope a release names, where it is in a C2 reaction (R394, R397). -/
def State.releaseScope (s : State) (v : Word) : Option Scope :=
  let i := getBits v 0 8
  match getBits v 8 3 with
  | 0 => if i < 8 ∧ (s.scr i).c2.isSome ∧ !(s.scr i).c2Ends then some (.screen i) else none
  | 1 => if i < 16 ∧ s.hcState i = 4 then some (.haptic i) else none
  | 2 => if i < 8 ∧ (s.tch i).contained then some (.touch i) else none
  | 3 => if s.audQuiet then some .audio else none
  | _ => none

/-- R394: the release of a scope. A screen shows its content from its next latch; one that does not run is released at
once. -/
def State.scopeRelease (s : State) : Scope → State
  | .screen n => if s.running n then s.setScr n { s.scr n with c2Ends := true } else s.setScr n { s.scr n with c2 := none }
  | .haptic n => (s.hapFree n).liveFell (192 + n)
  | .touch n =>
    let s := s.setTch n { s.tch n with contained := false }
    if s.bit (Reg.TOUCH_CTRL_EN n) then
      (if s.linkState n = 3 then (s.quietStart n).setTPhase n 5 else s.setTPhase n 1)
    else s.setTPhase n 0
  | .audio => { s with audQuiet := false }

/-- R397: FLT_0_RELEASE is written; `clash` says that an event of a C2 input with the same scope is raised in the same
clock. -/
def State.releaseWrite (s : State) (v : Word) (clash : Bool) : State :=
  match s.releaseScope v with
  | some x => if s.bit Reg.FLT_STATUS_C3 || clash then
        (s.set Reg.FLT_STATUS_RELEASE_REFUSED 1).count Reg.FLT_STATUS_EVENTS
      else s.scopeRelease x
  | none => (s.set Reg.FLT_STATUS_RELEASE_REFUSED 1).count Reg.FLT_STATUS_EVENTS

/-- FAULT_RELEASE. -/
def execFaultRelease (w : World) (v : Word) (clash : Bool) (s : State) : Host.Outcome State Fault Refusal :=
  .next (s.asWriter w 0x18 0 false (·.releaseWrite v clash))

/-- R399, R402: the copies of the collector disagree. -/
def State.selfMismatch (s : State) : State := ((s.set Reg.FLT_STATUS_HEALTHY 0).stopToll 3).raiseFault 11

/-- FLT_SELF_MISMATCH. -/
def execFltSelfMismatch (s : State) : Host.Outcome State Fault Refusal := .next s.selfMismatch

/-! ### The toll and SAFE_N (R401 to R403) -/

/-- R401: the conditions of the toll other than the kick window. -/
def State.tollMay (s : State) : Bool := s.bit Reg.FLT_STATUS_HEALTHY && !s.bit Reg.FLT_STATUS_C3

/-- The toll starts; ALIVE begins low (DEDUCED, log entry 38). -/
def State.tollStart (s : State) : State := { s.set Reg.FLT_TOLL_STATUS_RUNNING (b2n s.tollMay) with alive := .low }

/-- R401: FLT_0_TOLL_CTRL is written. -/
def State.tollCtrlWrite (s : State) (v : Word) : State :=
  let was := s.bit Reg.FLT_TOLL_CTRL_ARM
  let s := s.plainWrite Reg.FLT_TOLL_CTRL v
  if !was && s.bit Reg.FLT_TOLL_CTRL_ARM then s.tollStart else s

/-- TOLL_ARM. -/
def execTollArm (w : World) (v : Word) (s : State) : Host.Outcome State Fault Refusal :=
  .next (s.asWriter w 0x18 0 false (·.tollCtrlWrite (withBit v 16)))

/-- R401, R402: a kick: with RESUME_OK = 1 it starts a toll again that the kick window stopped. -/
def State.tollKick (s : State) : State :=
  if s.bit Reg.FLT_TOLL_CTRL_ARM && !s.bit Reg.FLT_TOLL_STATUS_RUNNING && s.get Reg.FLT_TOLL_STATUS_STOP_CAUSE == 2
      && s.bit Reg.FLT_TOLL_CTRL_RESUME_OK && s.tollMay then s.tollStart
  else s

/-- TOLL_KICK. -/
def execTollKick (w : World) (s : State) : Host.Outcome State Fault Refusal :=
  .next (s.asWriter w 0x18 0 false (·.tollKick))

/-- TOLL_TOGGLE: ALIVE toggles while the toll runs. -/
def execTollToggle (s : State) : Host.Outcome State Fault Refusal :=
  .next (if s.bit Reg.FLT_TOLL_STATUS_RUNNING then { s with alive := if s.alive = .high then .low else .high } else s)

/-- TOLL_WINDOW_EXPIRE: no kick came within WINDOW. -/
def execTollWindowExpire (s : State) : Host.Outcome State Fault Refusal := .next (s.stopToll 2)

/-- R403, R458: how the device drives SAFE_N: high-impedance in reset, high only while SAFE_OK = 1, low at all other times. -/
def State.safeN (s : State) : Level := if !s.released then .z else if s.bit Reg.FLT_CTRL_SAFE_OK then .high else .low

/-- R403: FLT_0_CTRL is written: SAFE_OK is ignored in anchor mode and while a C3 reaction holds. -/
def State.fltCtrlWrite (s : State) (v : Word) : State :=
  let barred := s.bit Reg.BOOT_STATUS_ANCHOR || s.bit Reg.FLT_STATUS_C3
  let s := s.plainWrite Reg.FLT_CTRL (if barred then withoutBit v 0 else v)
  s.set Reg.FLT_STATUS_SAFE_N_LOW (1 - s.get Reg.FLT_CTRL_SAFE_OK)

/-- SAFE_OK. -/
def execSafeOk (w : World) (v : Word) (s : State) : Host.Outcome State Fault Refusal :=
  .next (s.asWriter w 0x18 0 false (·.fltCtrlWrite (withBit v 0)))

/-! ### The collector's self-test (R404) -/

/-- FLT_SELFTEST: GO is written. -/
def execFltSelftest (w : World) (v : Word) (s : State) : Host.Outcome State Fault Refusal :=
  .next (s.asWriter w 0x18 0 false (·.plainWrite Reg.FLT_SELFTEST (withBit v 0)))

/-- FLT_SELFTEST_DONE: 200 µs have passed; the sequence gave the signature or not. -/
def execFltSelftestDone (ok : Bool) (s : State) : Host.Outcome State Fault Refusal :=
  .next (if s.bit Reg.FLT_SELFTEST_GO then
      (((s.set Reg.FLT_SELFTEST_GO 0).set Reg.FLT_SELFTEST_DONE 1).set Reg.FLT_SELFTEST_PASS (b2n ok)).set
        Reg.FLT_SELFTEST_ABANDONED 0
    else s)

/-! ### Supply ride-through (R378, R405 to R407, R440) -/

/-- An event of PWR_0_WARN_STATUS: source 123. -/
def State.pwrEvent (s : State) (flag : Fld) : State := s.event flag Reg.PWR_WARN_STATUS_EVENTS 123

/-- R378: a warning before underway. -/
def State.warnedStart (s : State) (pf : Bool) : State :=
  if s.bit Reg.BOOT_STATUS_UNDERWAY then s
  else
    (s.set Reg.BOOT_AON_WARNED 1).bboxOwn 0x0004
      [BitVec.ofNat 8 (if pf then 1 else 2), BitVec.ofNat 8 (s.get Reg.BOOT_AON_COUNT)]

/-- R440: the black-box writer suspends its erase, where a suspend command is named, and commits what is pending. -/
def State.bboxWarn (s : State) : State :=
  let s := { s with bbox := { s.bbox with committed := 0 } }
  let cmd := s.get Reg.BBOX_CFG_SUSPEND_CMD
  let s := s.when (s.bit Reg.BBOX_STATUS_ERASING && !s.bit Reg.BBOX_STATUS_SUSPENDED && cmd != 0) fun t =>
    (t.flashDrive (.service cmd)).set Reg.BBOX_STATUS_SUSPENDED 1
  s.bboxCommit

/-- R405, R453: a brownout begins; a burn that runs is interrupted. -/
def State.brownoutBegin (s : State) : State :=
  let s := { s with wear := { s.wear with cut := s.wear.cut || s.bit Reg.WEAR_OTP_STATUS_BUSY } }
  let s := ((s.set Reg.PWR_WARN_STATUS_BROWNOUT 1).set Reg.FLT_STATUS_BROWNOUT 1).raiseFault 4
  let s := s.pwrEvent Reg.PWR_WARN_STATUS_WARNED
  s.each allScreens fun n t => t.set (Reg.SCREEN_LOWER_FORCED n) 1

/-- R405: a warning begins, from PF_WARN_N or from VIN_SENSE. -/
def State.supplyWarning (s : State) (pf : Bool) : State :=
  if !(if pf then s.bit Reg.PWR_WARN_CFG_PF_EN else s.bit Reg.PWR_WARN_CFG_VIN_EN) then s
  else
    let fresh := !s.bit Reg.PWR_WARN_STATUS_PF_LOW && !s.bit Reg.PWR_WARN_STATUS_VIN_LOW
    let s := s.set (if pf then Reg.PWR_WARN_STATUS_PF_LOW else Reg.PWR_WARN_STATUS_VIN_LOW) 1
    if !fresh then s
    else
      let s := s.warnedStart pf
      let s := if s.brownout then s
        else
          s.brownoutBegin
      s.bboxWarn

/-- SUPPLY_WARNING. -/
def execSupplyWarning (pf : Bool) (s : State) : Host.Outcome State Fault Refusal := .next (s.supplyWarning pf)

/-- SUPPLY_WARNING_END: neither source holds any more. -/
def execSupplyWarningEnd (s : State) : Host.Outcome State Fault Refusal :=
  .next ((s.set Reg.PWR_WARN_STATUS_PF_LOW 0).set Reg.PWR_WARN_STATUS_VIN_LOW 0)

/-- R407: SUPPLY_FAIL. -/
def State.supplyFail (s : State) : State := (s.pwrEvent Reg.PWR_WARN_STATUS_ESCALATED).raiseFault 5

/-- SUPPLY_FAIL: the brownout still holds 50 ms after it began (R407). -/
def execSupplyFail (s : State) : Host.Outcome State Fault Refusal := .next (if s.brownout then s.supplyFail else s)

/-! ### An input raises an event (R387 to R389) -/

/-- R185, R188: the action of PROT_CHECK: the live rectangles of a running screen show the harbour image with reason 0x02 from the
line it sends; the event names no tile row (log entry 93). -/
def State.protCheckAction (s : State) (n : Nat) : State :=
  if !s.running n then s
  else (s.each (s.liveRects n) fun k t =>
    t.addCause n { rect := k, reason := 2, frame := t.frame n, line := t.get (Reg.SCREEN_STATUS_LINE n) }).protEvent n
      (Reg.PROT_STATUS_CHECK_FAIL n)

/-- R182: the action of a self-test that fails: the sextant is FAILED, and the reserve takes every screen. -/
def State.sextantTestAction (s : State) (x : Nat) : State :=
  let was := s.get (Reg.SXT_STATUS_STATE x)
  if was = 2 then s
  else
    let act := if was = 3 && s.sxtBack.contains (x, 0) then 0 else was
    ((((s.sxtTestOver x).set (Reg.SXT_SELFTEST_PASS x) 0).sextantOut x act).fellSince s 7).noSextant

/-- R187: no sextant is left: each reads FAILED, so every rectangle shows the harbour image from its screen's next fetch. -/
def State.sextantsGone (s : State) : State :=
  s.each [0, 1] fun x t =>
    let was := t.get (Reg.SXT_STATUS_STATE x)
    if was = 2 then t else (t.sxtTestOver x).sextantOut x (if was = 3 && t.sxtBack.contains (x, 0) then 0 else was)

/-- R177: a protected layer goes stale in the frame that is sent: its rectangles show the harbour image with reason 0x01. -/
def State.protStale (s : State) (n : Nat) : State :=
  if s.bit (Reg.PROT_STATUS_STALE n) then s
  else (s.set (Reg.PROT_STATUS_STALE n) 1).each (s.liveRects n) fun k t =>
    t.addCause n { rect := k, reason := 1, line := t.get (Reg.SCREEN_STATUS_LINE n), frame := t.frame n }

/-- R227: a row of a side is disturbed that the event does not name: its channel, bank and row and the port that activated it are free. -/
def State.rowDisturbed (s : State) (n : Nat) : State :=
  let (v, s) := s.draw
  let (p, s) := s.draw
  s.rowDisturb n (v % 8) (v / 8 % 16) (v / 128 % 2 ^ 17) (p % 40)

/-- R277: an obstruction with no contact named: a contact of the panel, which one is free. -/
def State.touchObstructed (s : State) (n : Nat) : State :=
  let (v, t) := s.draw
  match (t.tch n).contacts[v % (t.tch n).contacts.length]? with
  | some c => t.touchObstruct n c
  | none => s.raiseFault (168 + n)

/-- R387: an input that its unit's own operation raises, with the unit's action: none where the input is raised by itself. The
event of FAULT_EVENT names nothing else of what the unit saw: what the action needs more of it is what the registers hold, or a
free value (log entry 93). -/
def State.unitEvent (s : State) (k : Nat) : Option State :=
  if k = 3 then some s.drumLost
  else if k = 4 then some (if s.brownout then s.raiseFault 4 else s.brownoutBegin.bboxWarn)
  else if k = 5 then some s.supplyFail
  else if k = 6 then some (s.secureDown (s.get Reg.SYS_SEC_STATUS_CAUSE) (s.get Reg.SYS_SEC_STATUS_CORE))
  else if k = 7 then some (s.sextantsGone.raiseFault 7)
  else if k = 8 then some ((s.each [0, 1] fun n t => t.engineStop n).raiseFault 8)
  else if k = 9 then some s.noChart
  else if k = 10 then some (s.startFail (s.get Reg.BOOT_AON_LAST_CAUSE))
  else if k = 11 then some s.selfMismatch
  else if 64 ≤ k ∧ k ≤ 71 then
    let n := k - 64
    some ({ s.needPipe n with exhausted := if s.exhausted.contains n then s.exhausted else n :: s.exhausted }.raiseFault k)
  else if 88 ≤ k ∧ k ≤ 95 then some ((s.protStale (k - 88)).raiseFault k)
  else if 96 ≤ k ∧ k ≤ 103 then some (s.unusable (k - 96))
  else if 104 ≤ k ∧ k ≤ 111 then some ((s.set (Reg.DPO_LINK_STATUS_DEGRADED (k - 104)) 1).raiseFault k)
  else if 112 ≤ k ∧ k ≤ 119 ∧ s.bit (Reg.DPO_LINK_STATUS_HPD (k - 112)) then some (s.unplug (k - 112))
  else if 128 ≤ k ∧ k ≤ 129 then let (v, t) := s.draw; some (t.freezeSide (k - 128) (v % 16) none true)
  else if 130 ≤ k ∧ k ≤ 131 then some ((s.setSide (k - 130) { s.side (k - 130) with driftNoted := true }).raiseFault k)
  else if 132 ≤ k ∧ k ≤ 133 then some (s.rowDisturbed (k - 132))
  else if 144 ≤ k ∧ k ≤ 148 then some (s.coreFail (k - 144))
  else if 160 ≤ k ∧ k ≤ 167 ∧ s.linkState (k - 160) ≠ 0 then some (s.tslLose (k - 160))
  else if 168 ≤ k ∧ k ≤ 175 then some (s.touchObstructed (k - 168))
  else if 176 ≤ k ∧ k ≤ 183 ∧ s.bit (Reg.TOUCH_STATUS_NOISE (k - 176)) = false then some (s.noiseEnter (k - 176))
  else if 184 ≤ k ∧ k ≤ 191 then some ((s.set (Reg.TOUCH_ST_RESULT_PASS (k - 184)) 0).raiseFault k)
  else if 192 ≤ k ∧ k ≤ 207 then some (s.hapSense (k - 192))
  else none

/-- What an input's unit does when the input is raised: the action its chapter states. -/
def State.inputAction (s : State) (k : Nat) : State :=
  if 32 ≤ k ∧ k ≤ 41 then s.pipeArray (k - 32)
  else if 42 ≤ k ∧ k ≤ 51 then s.watchAction (k - 42)
  else if 52 ≤ k ∧ k ≤ 61 then
    ((s.set Reg.WEAR_WORN_MARK (setBitOf (s.get Reg.WEAR_WORN_MARK) (k - 52))).pipeWear (k - 52)).2.raiseIrq 121
  else if 72 ≤ k ∧ k ≤ 73 then s.sextantArray (k - 72)
  else if 74 ≤ k ∧ k ≤ 75 then s.sextantTestAction (k - 74)
  else if 80 ≤ k ∧ k ≤ 87 then s.protCheckAction (k - 80)
  else if 352 ≤ k ∧ k ≤ 447 then s.arrayAction (k - 352) true
  else s

/-- R387 to R389: input k raises an event, with what the access was for an input with capture (inputs 0 to 2), and its unit takes
its action; an input that is not used is never raised. -/
def State.faultEvent (s : State) (k : Nat) (c : Capture) : State :=
  if (fltInput k).isNone then s
  else match s.unitEvent k with
    | some t => t
    | none =>
      let t := s.raiseFault k (if k ≤ 2 then some c else none)
      if 72 ≤ k ∧ k ≤ 75 ∨ 352 ≤ k then (t.inputAction k).inOrder s else t.inputAction k

/-- FAULT_EVENT: the address, the TYPE code and the requester are those of the access, for an input with capture. -/
def execFaultEvent (k : Fin 448) (addr : BitVec 40) (type : Fin 6) (m : Master) (s : State) : Host.Outcome State Fault Refusal :=
  .next (s.faultEvent k { addr := addr.toNat, type := type, master := m })

end Sys2Proof.Machine
end

