-- ==== Sys2Proof/Machine/RtcLog.lean ====
section
/-! DEFINITION. The commands of the real-time clock and of the logbook (R420 to R433). -/

namespace Sys2Proof.Machine

/-! ### The real-time clock (R420 to R424) -/

/-- SEC and FRAC as one count of 1/65,536 s. -/
def RtcState.time (r : RtcState) : Nat := 65536 * r.sec + r.frac

/-- SEC, 40 bits, and FRAC set from one count. -/
def RtcState.setTime (r : RtcState) (t : Nat) : RtcState := { r with sec := t / 65536 % 2 ^ 40, frac := t % 65536 }

/-- R423: a SET that waits is loaded, and the RTC_SET record is written. -/
def State.rtcLoad (s : State) (sec frac : Nat) : State :=
  let old := s.rtc.sec
  let s := { s with rtc := { s.rtc with sec := sec, frac := frac, setTo := none } }
  let s := ((s.set Reg.RTC_STATUS_SET_PENDING 0).set Reg.RTC_SET_SET 0).set Reg.RTC_STATUS_VALID 1
  s.logEvent 0x0009 0x1A 0 old sec (old / 2 ^ 32 * 2 ^ 8 + sec / 2 ^ 32) 0

/-- R420, R421, R423: a crystal cycle. -/
def State.rtcTick (s : State) : State :=
  match s.rtc.setTo with
  | some (sec, frac) => s.rtcLoad sec frac
  | none =>
    if 0 < s.rtc.skips then { s with rtc := { s.rtc with skips := s.rtc.skips - 1 } }
    else { s with rtc := s.rtc.setTime (s.rtc.time + 2) }

/-- RTC_TICK. -/
def execRtcTick (s : State) : Host.Outcome State Fault Refusal := .next s.rtcTick

/-- R421: every 1,048,576 cycles: TRIM advances are added, or so many of the next are omitted. -/
def State.rtcTrim (s : State) : State :=
  let t := sext 8 (s.get Reg.RTC_TRIM_TRIM)
  if t < 0 then { s with rtc := { s.rtc with skips := s.rtc.skips + (-t).toNat } }
  else { s with rtc := s.rtc.setTime (s.rtc.time + 2 * t.toNat) }

/-- RTC_TRIM. -/
def execRtcTrim (s : State) : Host.Outcome State Fault Refusal := .next s.rtcTrim

/-- RTC_OSC_STOP: no crystal cycle for 1 ms (R422). -/
def execRtcOscStop (s : State) : Host.Outcome State Fault Refusal :=
  .next ((s.event Reg.RTC_STATUS_OSC_STOP Reg.RTC_STATUS_EVENTS 120).set Reg.RTC_STATUS_VALID 0)

/-- RTC_0_SET is written: SET = 1 requests a load of SET_SEC_LO and SET_HI (R423). -/
def State.rtcSetWrite (s : State) (v : Word) : State :=
  if bitOf v.toNat 0 then
    let sec := s.get Reg.RTC_SET_HI_SEC_HI * 2 ^ 32 + s.get Reg.RTC_SET_SEC_LO_SEC
    let s := { s with rtc := { s.rtc with setTo := some (sec, s.get Reg.RTC_SET_HI_FRAC) } }
    (s.set Reg.RTC_SET_SET 1).set Reg.RTC_STATUS_SET_PENDING 1
  else s

/-- RTC_SET. -/
def execRtcSet (w : World) (v : Word) (s : State) : Host.Outcome State Fault Refusal :=
  .next (s.asWriter w 0x1C 0 false (·.rtcSetWrite (withBit v 0)))

/-- RTC_0_SNAP is written: SNAP = 1 copies the time (R424); it reads 0 once taken (R479). -/
def State.rtcSnapWrite (s : State) (v : Word) : State :=
  if bitOf v.toNat 0 then
    ((s.set Reg.RTC_SNAP_SEC_LO_SEC s.rtc.sec).set Reg.RTC_SNAP_HI_SEC_HI (s.rtc.sec / 2 ^ 32)).set Reg.RTC_SNAP_HI_FRAC s.rtc.frac
  else s

/-- RTC_SNAP. -/
def execRtcSnap (w : World) (v : Word) (s : State) : Host.Outcome State Fault Refusal :=
  .next (s.asWriter w 0x1C 0 false (·.rtcSnapWrite (withBit v 0)))

/-! ### The logbook's records (R425, R426, R429) -/

/-- Word i of the ring's slot for a sequence number. -/
def State.logWord (s : State) (seq i : Nat) : Word := sget (fun _ => 0) s.log.ring (seq % 4096 * 8 + i)

/-- A word of a slot set. -/
def State.setLogWord (s : State) (seq i : Nat) (v : Word) : State :=
  { s with log := { s.log with ring := sput (fun _ => 0) s.log.ring (seq % 4096 * 8 + i) v } }

/-- R425: the words of a record. -/
def LogEntry.words (e : LogEntry) (suppressed seq : Nat) : List Word :=
  [BitVec.ofNat 32 (e.code * 2 ^ 16 + e.unit * 2 ^ 8 + e.inst), BitVec.ofNat 32 e.sec,
   BitVec.ofNat 32 (e.sec / 2 ^ 32 % 256 * 2 ^ 24 + e.frac * 2 ^ 8 + min suppressed 255), e.p0, e.p1, e.p2, e.p3,
   BitVec.ofNat 32 (2 ^ 31 + e.origin * 2 ^ 29 + b2n e.timeValid * 2 ^ 28 + seq % 2 ^ 16)]

/-- R429: the bucket of a code: one for each hardware code, 256 for the firmware codes. -/
def logBucket (code : Nat) : Nat := if code < 0x1000 then code else 0x1000 + code % 256

/-- BURST as it is treated. -/
def State.logBurst (s : State) : Nat := max 1 (s.get Reg.LOG_RATE_BURST)

/-- R426: a record is admitted: it takes the next sequence number. -/
def State.logAdmit (s : State) (e : LogEntry) : State :=
  let b := logBucket e.code
  let seq := (s.get Reg.LOG_HEAD_SEQ + 1) % 2 ^ 32
  let s := s.each (e.words (sget (fun _ => 0) s.log.suppressed b) seq).zipIdx fun p t => t.setLogWord seq p.2 p.1
  let s := { s with log := { s.log with suppressed := sput (fun _ => 0) s.log.suppressed b 0 } }
  s.set Reg.LOG_HEAD_SEQ seq

/-- A W1C event of a set's WR_STATUS; the logbook has no source for it. -/
def State.logWrEvent (s : State) (x : Nat) (flag : Fld) : State := (s.set flag 1).count (Reg.LOG_WR_STATUS_EVENTS x)

/-- R430: whether a write with FOLD folds into the newest record. -/
def State.folds (s : State) (e : LogEntry) : Bool :=
  let head := s.get Reg.LOG_HEAD_SEQ
  let d := (head + 2 ^ 32 - s.get Reg.LOG_BASE_SEQ) % 2 ^ 32
  decide (d < 2 ^ 31) && s.logWord head 0 == BitVec.ofNat 32 (e.code * 2 ^ 16 + e.unit * 2 ^ 8 + e.inst)
    && getBits (s.logWord head 7) 29 2 == e.origin

/-- R430: REPEAT of the newest record counts up. -/
def State.logFold (s : State) (x : Nat) : State :=
  let head := s.get Reg.LOG_HEAD_SEQ
  let w := s.logWord head 7
  (s.setLogWord head 7 (setBits w 16 12 (satAdd 12 (getBits w 16 12) 1))).logWrEvent x (Reg.LOG_WR_STATUS_FOLDED x)

/-- Tokens a bucket holds. -/
def State.logTokens (s : State) (b : Nat) : Nat := sget (fun _ => s.log.full) s.log.tokens b

/-- Tokens of a bucket set. -/
def State.setLogTokens (s : State) (b n : Nat) : State :=
  { s with log := { s.log with tokens := sput (fun _ => s.log.full) s.log.tokens b n } }

/-- LOG_0_RATE is written: a bucket holds at most BURST tokens, and a higher BURST gives it none (R429). -/
def State.logRateWrite (s : State) (v : Word) : State :=
  let s := s.plainWrite Reg.LOG_RATE v
  let full := min s.log.full s.logBurst
  { s with log := { s.log with full := full,
                               tokens := (s.log.tokens.map fun p => (p.1, min p.2 s.logBurst)).filter fun p => p.2 != full } }

/-- R427, R429, R430: the writer takes the entry at the head of the queue: one with FOLD folds where it may. LOG_CLEARED is exempt
from the limit. -/
def State.logTake (s : State) : State :=
  match s.log.queue with
  | [] => s
  | e :: rest =>
    let s := { s with log := { s.log with queue := rest } }
    let b := logBucket e.code
    if e.fold && s.folds e then s.logFold (e.origin - 1)
    else if e.code = 0x0008 then s.logAdmit e
    else if 0 < s.logTokens b then (s.setLogTokens b (s.logTokens b - 1)).logAdmit e
    else
      ({ s with log := { s.log with
          suppressed := sput (fun _ => 0) s.log.suppressed b (sget (fun _ => 0) s.log.suppressed b + 1) } }).count
        Reg.LOG_COUNTS_SUPPRESSED

/-- LOG_WRITER_TAKE. -/
def execLogWriterTake (s : State) : Host.Outcome State Fault Refusal := .next s.logTake

/-- R429: the bucket of a code gains a token, up to BURST. -/
def State.logRefill (s : State) (code : Nat) : State :=
  let b := logBucket code
  s.setLogTokens b (min (s.logTokens b + 1) s.logBurst)

/-- LOG_TOKEN_REFILL: the bucket is named by a code it serves. -/
def execLogTokenRefill (code : BitVec 16) (s : State) : Host.Outcome State Fault Refusal := .next (s.logRefill code.toNat)

/-! ### Firmware records (R428, R430) -/

/-- The entry a staging set holds: set 0 is the secure world's, set 1 the normal world's. -/
def State.stagedEntry (s : State) (x : Nat) : LogEntry :=
  { code := s.get (Reg.LOG_WR_CODE_CODE x), unit := s.get (Reg.LOG_WR_CODE_UNIT x), inst := s.get (Reg.LOG_WR_CODE_INSTANCE x),
    sec := s.rtc.sec, frac := s.rtc.frac, timeValid := s.bit Reg.RTC_STATUS_VALID, origin := x + 1,
    p0 := s.reg (Reg.LOG_WR_P x 0), p1 := s.reg (Reg.LOG_WR_P x 1), p2 := s.reg (Reg.LOG_WR_P x 2), p3 := s.reg (Reg.LOG_WR_P x 3) }

/-- R427, R428, R430: WR_GO of a set is written: the record joins the queue, and the writer decides whether it folds. -/
def State.logGoWrite (s : State) (x : Nat) (v : Word) : State :=
  if !bitOf v.toNat 0 then s
  else
    let e := s.stagedEntry x
    if e.code < 0x1000 then s.logWrEvent x (Reg.LOG_WR_STATUS_REFUSED x)
    else s.enqueueLog { e with fold := bitOf v.toNat 1 }

/-- LOG_WRITE: WR_GO of a set with FOLD = 0. -/
def execLogWrite (x : Fin 2) (w : World) (v : Word) (s : State) : Host.Outcome State Fault Refusal :=
  .next (s.asWriter w 0x1A 0 (x.val == 0) (·.logGoWrite x (withoutBit (withBit v 0) 1)))

/-- LOG_WRITE_FOLD: WR_GO of a set with FOLD = 1. -/
def execLogWriteFold (x : Fin 2) (w : World) (v : Word) (s : State) : Host.Outcome State Fault Refusal :=
  .next (s.asWriter w 0x1A 0 (x.val == 0) (·.logGoWrite x (withBit (withBit v 0) 1)))

/-! ### Clearing and reading (R431, R432) -/

/-- R431: how many records are valid: those from BASE to HEAD, at most 4,096. -/
def State.logValid (s : State) : Nat :=
  let d := (s.get Reg.LOG_HEAD_SEQ + 2 ^ 32 - s.get Reg.LOG_BASE_SEQ) % 2 ^ 32
  if d < 2 ^ 31 then min (d + 1) 4096 else 0

/-- R431: a clear, by an ORIGIN and for a session its number. -/
def State.logClear (s : State) (origin session : Nat) : State :=
  let n := s.logValid
  (s.set Reg.LOG_BASE_SEQ ((s.get Reg.LOG_HEAD_SEQ + 1) % 2 ^ 32)).logEvent 0x0008 0x1A 0 (session * 2 ^ 8 + origin) n 0 0

/-- LOG_0_CLEAR is written by a world. -/
def State.logClearWrite (s : State) (w : World) (v : Word) : State :=
  if bitOf v.toNat 0 then s.logClear (if w = .secure then 1 else 2) 0 else s

/-- LOG_CLEAR of a session's page is written: a session without log access does nothing. -/
def State.logClearPage (s : State) (n : Nat) (v : Word) : State :=
  if bitOf v.toNat 0 && s.bit (Reg.SESS_CTRL_LOG_ACCESS n) then s.logClear 3 n else s

/-- LOG_CLEAR. -/
def execLogClear (c : LogClearer) (s : State) : Host.Outcome State Fault Refusal :=
  .next (match c with
    | .world w => s.logClearWrite w 1
    | .session n => s.logClearPage n 1)

/-- R432: word i of a record as a read window returns it. -/
def State.logRead (s : State) (seq i : Nat) : Word :=
  let w := s.logWord seq i
  if i ≠ 7 then w
  else
    let head := s.get Reg.LOG_HEAD_SEQ
    let base := s.get Reg.LOG_BASE_SEQ
    let behind := (head + 2 ^ 32 - seq) % 2 ^ 32
    let inside := decide (behind ≤ (head + 2 ^ 32 - base) % 2 ^ 32 ∧ (head + 2 ^ 32 - base) % 2 ^ 32 < 2 ^ 31 ∧ behind ≤ 4095)
    if inside && getBits w 0 16 == seq % 2 ^ 16 then w else withoutBit w 31

end Sys2Proof.Machine
end

