-- ==== Sys2Proof/Machine/Page.lean ====
section
/-! DEFINITION. The session page and a layer's guest registers: what a 32-bit read of them returns and what a 32-bit write
does (R4, R6, R36, R55, R57 to R62, R109 to R111, R123, R431, R432, R478). -/

namespace Sys2Proof.Machine

/-- R3, R4, R478: the 32-bit accesses that an access of a width covers, by their place; none where it is not performed. -/
def wordSplit (a len : Nat) : Option (List Nat) :=
  if 4 ≤ len ∧ len % 4 = 0 ∧ a % len = 0 then some ((List.range (len / 4)).map fun i => a + 4 * i) else none

/-! ### A layer's guest registers (R109, R123) -/

/-- A write to offset x of a layer's guest registers, by one who may write them. -/
def State.layGuestWrite (s : State) (l x : Nat) (v : Word) : State :=
  let a := Reg.LAYER_CTRL l + x
  if x = 0x60 then s.layCommit l v
  else if s.layPending l && decide (x < 0x60 ∨ x = 0x64 ∨ x = 0x68) then
    (if (rowAt a).isSome then s.layEvent l (Reg.LAYER_STATUS_WRITE_WHILE_PENDING l) else s)
  else s.plainWrite a v

/-- A read of offset x of a layer's guest registers: WAIT and FROZEN_SRC are live (R121). -/
def State.layGuestView (s : State) (l x : Nat) : Word :=
  let w := s.reg (Reg.LAYER_CTRL l + x)
  if x = 0x6C then setBits w 12 4 (s.layWait l)
  else if x = 0x74 then setBits w (Reg.LAYER_STATUS_FROZEN_SRC l).lo 1 (b2n (s.frozenSource l))
  else w

/-! ### The session page (R55) -/

/-- The layer handle and block offset of a page offset from 0x400 to 0xBFF. -/
def pageHandle (off : Nat) : Nat × Nat := ((off - 0x400) / 0x80, (off - 0x400) % 0x80)

/-- R61: a write to the audio registers of a handle. Through a handle that the session does not own it is not performed and sets
HANDLE_ERR, where a read sets nothing (R6; DESIGN CHOICE, log entry 111). -/
def State.pageAudioWrite (s : State) (n h x : Nat) (v : Word) : State :=
  if x = 0 then s.asBaseWrite n h v
  else if x = 4 then s.asCtrlWrite n h v
  else if x = 0xC then s.asWrWrite n h v
  else if (x = 8 ∨ x = 0x10) ∧ !s.ownsAudio n h then s.pageEvent n (Reg.SESS_PAGE_STATUS_HANDLE_ERR n)
  else s

/-- A 32-bit write to an offset of session n's page. -/
def State.pageWrite (s : State) (n off : Nat) (v : Word) : State :=
  let a := Reg.SESS_PAGE_ID n + off
  if 0x400 ≤ off ∧ off < 0xC00 then
    let (h, x) := pageHandle off
    s.throughDoor (.page (Fin.ofNat 256 n) (Fin.ofNat 16 h)) fun l t => t.layGuestWrite l x v
  else if 0x300 ≤ off ∧ off < 0x400 then s.pageAudioWrite n ((off - 0x300) / 0x20) ((off - 0x300) % 0x20) v
  else if off = 0x010 then s.hapDoorbell n false 0 v
  else if 0x140 ≤ off ∧ off < 0x180 then
    let k := (off - 0x140) / 4
    s.setReg (Reg.SESS_SEM n k) (s.reg (Reg.SESS_SEM n k) + v)
  else if off = 0x200 then s.tqBaseWrite n v
  else if off = 0x204 then s.tqCtrlWrite n v
  else if off = 0xD00 then s.irqStatusWrite n v
  else if off = 0xD04 then s.irqEnableWrite n v
  else if off = 0xE0C then s.logClearPage n v
  else if 0xE00 ≤ off ∧ !s.bit (Reg.SESS_CTRL_LOG_ACCESS n) then s
  else s.plainWrite a v

/-- What a 32-bit read of an offset of session n's page returns. -/
def State.pageView (s : State) (n off : Nat) : Word :=
  if 0x400 ≤ off ∧ off < 0xC00 then
    let (h, x) := pageHandle off
    match s.layerHandle n h with
    | none => 0
    | some l => if s.isGated 0x06 l then 0 else s.layGuestView l x
  else if 0x300 ≤ off ∧ off < 0x400 then
    (if s.ownsAudio n ((off - 0x300) / 0x20) then s.reg (Reg.SESS_PAGE_ID n + off) else 0)
  else if 0xE00 ≤ off ∧ off < 0x1000 then
    if !s.bit (Reg.SESS_CTRL_LOG_ACCESS n) then 0
    else if off = 0xE00 then s.reg Reg.LOG_HEAD
    else if off = 0xE04 then s.reg Reg.LOG_BASE
    else if off = 0xE08 then s.reg (Reg.SESS_RD_SEQ n)
    else if 0xE20 ≤ off ∧ off < 0xE40 then s.logRead (s.get (Reg.SESS_RD_SEQ_SEQ n)) ((off - 0xE20) / 4)
    else 0
  else s.reg (Reg.SESS_PAGE_ID n + off)

/-- R109: a read through a layer handle the session does not own sets HANDLE_ERR; no other read has an effect (R6), nor
one through an audio handle the session does not own (DESIGN CHOICE, log entry 111). -/
def State.pageReadEffect (s : State) (n off : Nat) : State :=
  if 0x400 ≤ off ∧ off < 0xC00 ∧ (s.layerHandle n (pageHandle off).1).isNone then
    s.pageEvent n (Reg.SESS_PAGE_STATUS_HANDLE_ERR n)
  else s

end Sys2Proof.Machine
end

