-- ==== Sys2Proof/Machine/Ingress.lean ====
section
/-! DEFINITION. A guest's accesses to the BARs of a function, the token buckets of its sessions and the transactions that
wait for them or for the end of a brownout (R45 to R48, R66, R67, R240, R335, R405, R406). -/

namespace Sys2Proof.Machine

/-! ### BAR2 (R48, R66, R335, R405) -/

/-- R45: the session bound to a slot of a function. -/
def State.boundSession (s : State) (p f slot : Nat) : Option Nat :=
  guestSessions.find? fun n => s.sessActive n && s.get (Reg.SESS_CTRL_PORT n) == p && s.get (Reg.SESS_CTRL_FUNC n) == f
    && s.get (Reg.SESS_CTRL_SLOT n) == slot

/-- R48, R335: a guest's access to memory, of a number, is refused in a session. -/
def State.guestRefuse (s : State) (n id : Nat) (write : Bool) : State :=
  let f := s.sessFunc n
  let s := (s.pageEvent n (Reg.SESS_PAGE_STATUS_BAR2_ERR n)).sessIrq n irqBar2Err
  (s.when write fun t => t.setFunc f { t.func f with urStatus := true }).hostReply { id := id, status := .unsupported }

/-- R48, R335: a BAR2 access of a session is refused. -/
def State.bar2Refuse (s : State) (n : Nat) (t : HeldTx) : State := s.guestRefuse n t.id t.write

/-- What a BAR2 access comes to: refused, waiting, or performed at a device address for a cost in tokens. -/
inductive Bar2Way where
  | refuse
  | wait
  | go (addr cost : Nat)
deriving DecidableEq, Repr

/-- R48, R66, R405: how a session's BAR2 access stands. -/
def State.bar2Way (s : State) (n : Nat) (t : HeldTx) : Bar2Way :=
  let len := if t.write then t.bytes.length else t.len
  if s.get (Reg.SESS_QUOTA_UNITS n) = 0 then .refuse
  else match s.windowOf n t.off len with
    | none => .refuse
    | some k =>
      if t.write && s.bit (Reg.SESS_WIN_CTRL_GUEST_RO n k) then .refuse
      else
        let cost := if t.write && s.bit (Reg.SESS_WIN_CTRL_MIRRORED n k) then 2 * len else len
        if (t.write && s.bit Reg.PWR_WARN_STATUS_BROWNOUT) || (s.ses n).tokens < 1000000 * cost then .wait
        else .go ((s.translate n t.off len).getD 0) cost

/-- A BAR2 access is performed: its cost is taken, and it goes to memory, where its parts wait in the channels (R66, R67, R216 to
R218, R238, R240, R335). A read is completed part by part as its data returns. -/
def State.bar2Go (s : State) (n addr cost : Nat) (t : HeldTx) : State :=
  let s := s.setSes n { s.ses n with tokens := (s.ses n).tokens - 1000000 * cost }
  let port := 16 + 2 * s.get (Reg.SESS_CTRL_PORT n)
  let m : Master := { kind := .guest, id := Fin.ofNat 64 (s.get (Reg.SESS_CTRL_PORT n)), session := Fin.ofNat 256 n, world := .normal }
  if t.write then
    let r := s.writeMem .normal addr t.bytes
    let u := r.2
    match r.1 with
    | .ok => (u.queueWrite m addr t.bytes.length).hostReply { id := t.id }
    | .dropped =>
      (((u.count (Reg.QOS_STATUS_DROPPED port)).pageEvent n (Reg.SESS_PAGE_STATUS_BAR2_ERR n)).sessIrq n irqBar2Err).hostReply
        { id := t.id }
    | .denied => u.bar2Refuse n t
    | _ => (u.noteDecode { addr := addr, type := 2, master := m }).hostReply { id := t.id, status := .error }
  else
    match s.readMem .normal addr t.len with
    | .data _ => s.queueRead m addr t.len (some t.id)
    | .denied => s.bar2Refuse n t
    | .decode => (s.noteDecode { addr := addr, type := 1, master := m }).hostReply { id := t.id, status := .error }
    | .poison => s.hostReply { id := t.id, status := .unsupported }

/-- QUOTA_HELD of a session, in both registers. -/
def State.setQuotaHeld (s : State) (n : Nat) (b : Bool) : State :=
  (s.set (Reg.SESS_STATUS_QUOTA_HELD n) (b2n b)).set (Reg.SESS_PAGE_STATUS_QUOTA_HELD n) (b2n b)

/-! ### BAR0 and BAR4 (R4, R45, R46, R478) -/

/-- A guest's 32-bit accesses of an access to a register; none where R4 does not perform it: a read then returns 0, and the
fabric notes it. -/
def State.guestRegs (s : State) (f : Nat) (session : Option Nat) (a : Nat) (t : HeldTx) (wr : Nat → Word → State → State)
    (rd : Nat → State → Word × State) : State :=
  let m : Master := { kind := .guest, id := Fin.ofNat 64 (f / 16), session := Fin.ofNat 256 (session.getD 0), world := .normal }
  let len := if t.write then t.bytes.length else t.len
  match wordSplit t.off len with
  | none =>
    let s := s.noteRegAccess { addr := a + t.off, type := if t.write then 5 else 4, master := m }
    s.hostReply { id := t.id, data := if t.write then [] else List.replicate len 0 }
  | some ws =>
    if t.write then
      (s.each ws fun x u => wr x (BitVec.ofNat 32 (leAt t.bytes (x - t.off) 4)) u).hostReply { id := t.id }
    else
      let (bs, u) := ws.foldl (fun (p : List Byte × State) x => let (v, u) := rd x p.2; (p.1 ++ leBytes 4 v.toNat, u)) ([], s)
      u.hostReply { id := t.id, data := bs }

/-- A BAR0 access to the page of a bound session. -/
def State.bar0Go (s : State) (f n : Nat) (t : HeldTx) : State :=
  s.guestRegs f (some n) (0x1000000000 + Reg.SESS_PAGE_ID n) t (fun x v u => u.pageWrite n x v)
    fun x u => (u.pageView n x, u.pageReadEffect n x)

/-- A BAR4 access of a function: the MSI-X table, of whose vector control words bit 0 alone is not reserved, and the
pending-bit array, which is read only. -/
def State.bar4Go (s : State) (f : Nat) (t : HeldTx) : State :=
  s.guestRegs f none 0 t
    (fun x v u =>
      if 0x200 ≤ x then u
      else
        let r := u.func f
        let v := if x / 4 % 4 = 3 then v &&& 1 else v
        (u.setFunc f { r with table := sput msixReset r.table (x / 4) v }).msixFlush f)
    fun x u => (if x < 0x200 then (u.func f).word (x / 4) else if x = 0x1000 then BitVec.ofNat 32 (u.func f).pba else 0, u)

/-! ### The ingress of a function (R47, R67) -/

/-- The head of a function's ingress is looked at: it goes, is refused, or goes on waiting. What follows waits behind it,
so that a write to BAR0 finds the earlier writes to BAR2 in memory (R47; log entry 44). -/
def State.ingressHead (s : State) (f : Nat) : Option State :=
  match (s.func f).ingress with
  | [] => none
  | t :: rest =>
    let u := s.setFunc f { s.func f with ingress := rest }
    if t.bar = 4 then some (u.bar4Go f t)
    else match s.boundSession (f / 16) (f % 16) t.slot with
    | none => some (u.hostReply { id := t.id, data := if t.write then [] else List.replicate t.len 0 })
    | some n =>
      if t.bar = 0 then some (u.bar0Go f n t)
      else match s.bar2Way n t with
      | .wait => none
      | .refuse => some ((u.setQuotaHeld n false).bar2Refuse n t)
      | .go a c => some ((u.setQuotaHeld n false).bar2Go n a c t)

/-- R67, R406: what waits at a function's ingress is performed, in order, as far as it can be. -/
def State.drainIngress (s : State) (f : Nat) : Nat → State
  | 0 => s
  | k + 1 =>
    match s.ingressHead f with
    | some t => t.drainIngress f k
    | none => s

/-- What waits at a function's ingress for tokens marks its session QUOTA_HELD. -/
def State.markHeld (s : State) (f : Nat) : State :=
  match (s.func f).ingress with
  | [] => s
  | t :: _ =>
    match s.boundSession (f / 16) (f % 16) t.slot with
    | some n => if t.bar ≠ 2 || (t.write && s.bit Reg.PWR_WARN_STATUS_BROWNOUT) then s else s.setQuotaHeld n true
    | none => s

/-- R45, R47, R67: an access to a BAR joins its function's ingress and is performed when its turn comes; a slot with no bound
session reads 0 and ignores writes. -/
def State.guestAccess (s : State) (p f : Nat) (t : HeldTx) : State :=
  let t := { t with id := s.nextReq }
  let s := { s with nextReq := s.nextReq + 1, replies := [] }
  let k := p * 16 + f
  if !s.funcAvailable p f || !s.bit (Reg.GP_CTRL_RELEASE p) then s
  else
    let r := s.func k
    let s := s.setFunc k { r with ingress := r.ingress ++ [t] }
    (s.drainIngress k (r.ingress.length + 1)).markHeld k

/-- A place in BAR0 or BAR4 of a function accessed by its host. -/
def State.barAccess (s : State) (b : BarPlace) (write : Bool) (bytes : List Byte) (len : Nat) : State :=
  match b with
  | .page p f slot off =>
    s.guestAccess p f { bar := 0, slot := slot, off := off.toNat, write := write, bytes := bytes, len := len, id := 0 }
  | .msix p f off => s.guestAccess p f { bar := 4, slot := 16, off := off.toNat, write := write, bytes := bytes, len := len, id := 0 }

/-- BAR2_READ. -/
def execBar2Read (p : Fin 4) (f slot : Fin 16) (off : BitVec 34) (len : Nat) (s : State) : Host.Outcome State Fault Refusal :=
  .next (s.guestAccess p f { slot := slot, off := off.toNat, write := false, bytes := [], len := len, id := 0 })

/-- BAR2_WRITE. -/
def execBar2Write (p : Fin 4) (f slot : Fin 16) (off : BitVec 34) (bytes : List Byte) (s : State) :
    Host.Outcome State Fault Refusal :=
  .next (s.guestAccess p f { slot := slot, off := off.toNat, write := true, bytes := bytes, len := 0, id := 0 })

/-- The functions that hold transactions at their ingress. -/
def State.heldFuncs (s : State) : List Nat := (s.funcs.filter fun p => !p.2.ingress.isEmpty).map (·.1)

/-- Every ingress is performed as far as it can be. -/
def State.drainAll (s : State) : State :=
  s.each s.heldFuncs fun f t => (t.drainIngress f (t.func f).ingress.length).markHeld f

/-- R66, R67: 1 µs of tokens for every session, and the transactions their tokens now cover. -/
def State.quotaCredit (s : State) : State :=
  let s := { s with replies := [] }
  (s.each (guestSessions.filter fun n => s.get (Reg.SESS_QUOTA_UNITS n) != 0) fun n t =>
    t.setSes n { t.ses n with
      tokens := min (t.bucketDepth n) ((t.ses n).tokens + t.get (Reg.SESS_QUOTA_UNITS n) * 67108864) }).drainAll

/-- QUOTA_CREDIT. -/
def execQuotaCredit (s : State) : Host.Outcome State Fault Refusal := .next s.quotaCredit

/-! ### The end of a brownout (R406) -/

/-- Whether a guest port holds a write at an ingress. -/
def State.holdsWrite (s : State) (p : Nat) : Bool :=
  (List.range 16).any fun f => (s.func (p * 16 + f)).ingress.any fun t => t.bar == 2 && t.write

/-- R406: the brownout ends after so many microseconds, with the hold of each guest port's writes in microseconds. -/
def State.brownoutEnd (s : State) (us : Nat) (holds : List Nat) : State :=
  if !s.brownout || s.bit Reg.PWR_WARN_STATUS_PF_LOW || s.bit Reg.PWR_WARN_STATUS_VIN_LOW then s
  else
    let held := (List.range 4).filter s.holdsWrite
    let s := ((s.set Reg.PWR_WARN_STATUS_BROWNOUT 0).set Reg.FLT_STATUS_BROWNOUT 0).liveFell 4
    let s := (s.set Reg.PWR_WARN_LAST_US (min us 0xFFFFFFFF)).each allScreens fun n t =>
      (t.setScr n { t.scr n with forcedTail := t.bit (Reg.SCREEN_LOWER_FORCED n) }).set (Reg.SCREEN_LOWER_FORCED n) 0
    let s := ({ s with replies := [] }).drainAll
    let s := s.each held fun p t =>
      t.breach { rank := 9, yielded := 1, port := some (16 + 2 * p), mag := holds.getD p us, unit := 0x0D, inst := p }
    s.bboxResume.bboxAdvance

/-- BROWNOUT_END. -/
def execBrownoutEnd (us : Nat) (holds : List Nat) (s : State) : Host.Outcome State Fault Refusal :=
  .next (s.brownoutEnd us holds)

end Sys2Proof.Machine
end

