-- ==== Sys2Proof/Machine/MemSides.lean ====
section
/-! DEFINITION. The commands of the memory sides and of the fabric's quality of service (spec/07_memory_sides.md). -/

namespace Sys2Proof.Machine

/-- Whether a side is in service or on its way to it: TRAINING, INIT, ACTIVE or RESYNC. -/
def State.sideUp (s : State) (n : Nat) : Bool :=
  s.sideMode n == 1 || s.sideMode n == 2 || s.sideMode n == 3 || s.sideMode n == 5

/-- R211, R218, R230: the data of a read returns from a channel. -/
def State.readReturn (s : State) (n ch id : Nat) (ecc : EccResult) (link ns : Nat) (srOk : Bool) : State :=
  let c := s.chan n ch
  match c.inFlight.find? (·.id == id) with
  | none => s
  | some r =>
    let s := s.count (Reg.MSIDE_LINK_ECC_READ_CORR n) link
    if ecc = .uncorrectable then s.eccRead n r.offset ecc srOk
    else
      let s := s.setChan n ch { c with inFlight := c.inFlight.filter (·.id != id) }
      let s := (s.eccRead n r.offset ecc srOk).raiseTo (Reg.QOS_MAXLAT_NS r.port) ns
      s.reply { id := r.tag, status := .ok, data := r.data }

/-- Read data returns: its request, what inline ECC found, how many link corrections there were, and the read's latency in
nanoseconds (R211, R234 to R236, R244). -/
def execDramReadReturn (n : Side) (ch : Fin 8) (id : Nat) (ecc : EccResult) (link ns : Nat) (srOk : Bool) (s : State) :
    Host.Outcome State Fault Refusal :=
  .next (s.readReturn n.val ch.val id ecc link ns srOk)

/-- A command/address parity error: the side freezes (R234). -/
def execCaParityError (n : Side) (srOk : Bool) (s : State) : Host.Outcome State Fault Refusal :=
  .next (if s.sideUp n.val then s.freezeSide n.val 2 none srOk else s)

/-! ### The mirror region table (R214, R215) -/

/-- R214: whether entry k with a base and a size passes its checks. -/
def State.mirrorOk (s : State) (k base size : Nat) : Bool :=
  size != 0 && decide (base + size ≤ s.usableGranules 0 ∧ base + size ≤ s.usableGranules 1) &&
    (List.range 32).all fun j => j == k || !s.bit (Reg.MSIDE_MIRROR_SIZE_VALID 0 j) ||
      (let b := s.get (Reg.MSIDE_MIRROR_BASE_GRANULE 0 j)
       let z := s.get (Reg.MSIDE_MIRROR_SIZE_GRANULES 0 j)
       decide (b + z ≤ base ∨ base + size ≤ b))

/-- R214: MIRROR_k_BASE, or MIRROR_k_SIZE, is written. -/
def State.mirrorWrite (s : State) (k : Nat) (size : Bool) (v : Word) : State :=
  let a := if size then Reg.MSIDE_MIRROR_SIZE 0 k else Reg.MSIDE_MIRROR_BASE 0 k
  if s.locked a then s
  else
    let valid := if size then bitOf v.toNat 31 else s.bit (Reg.MSIDE_MIRROR_SIZE_VALID 0 k)
    let b := if size then s.get (Reg.MSIDE_MIRROR_BASE_GRANULE 0 k) else getBits v 0 14
    let z := if size then getBits v 0 14 else s.get (Reg.MSIDE_MIRROR_SIZE_GRANULES 0 k)
    if valid && !s.mirrorOk k b z then s.event (Reg.MSIDE_STATUS_CFG_ERR 0) (Reg.MSIDE_STATUS_EVENTS 0) 53
    else s.plainWrite a v

/-- A mirror region entry is written (R214, R215). -/
def execMirrorEntryWrite (w : World) (k : Fin 32) (size : Bool) (v : Word) (s : State) : Host.Outcome State Fault Refusal :=
  .next (s.asWriter w 0x0B 0 false (·.mirrorWrite k.val size v))

/-! ### Start and training (R213, R219 to R221, R246) -/

/-- R246: hard post-package repair of the valid entries; each bit of `ok` says whether an entry's repair succeeded. -/
def State.pprRun (s : State) (n ok : Nat) : State :=
  s.each (List.range 4) fun k t =>
    if !t.bit (Reg.MSIDE_PPR_VALID n k) then t
    else ((t.set (Reg.MSIDE_PPR_VALID n k) 0).set (Reg.MSIDE_PPR_DONE n k) (b2n (bitOf ok k))).set
      (Reg.MSIDE_PPR_FAILED n k) (b2n !bitOf ok k)

/-- R213, R219, R220, R246: the start's training of a side ends: zero initialisation follows, or the side freezes with cause
TRAIN and every granule dirty. -/
def State.trainDoneSide (s : State) (n : Nat) (lanes : List (Nat × Nat)) (verify : Bool) (ppr : Nat) (srOk : Bool) : State :=
  if !(s.sideMode n = 1 && !(s.side n).releasing) then s
  else
    let s := (s.set (Reg.MSIDE_CAP_INSTALLED n) (s.fittedGb n)).set (Reg.MSIDE_CAP_USABLE n) (s.usableGranules n)
    let s := s.pprRun n ppr
    let (s, wide) := s.trainLanes n lanes
    if wide && verify then s.set (Reg.MSIDE_STATUS_STATE n) 2
    else (s.freezeSide n 4 none srOk).allDirty n

/-- The bytes of a side. -/
def State.sideMem (s : State) (n : Nat) : List Host.Cell := if n = 0 then s.memA else s.memB

/-- The bytes of a side that a test picks stay; the others read 0. -/
def State.keepSide (s : State) (n : Nat) (p : Host.Cell → Bool) : State :=
  if n = 0 then { s with memA := s.memA.filter p } else { s with memB := s.memB.filter p }

/-- R213: zero initialisation of a side completes: every byte of it is 0 but those of writes that wait in its queues, which are
issued after it, and the side is ACTIVE, so that the reads that waited can be issued. -/
def State.initDone (s : State) (n : Nat) : State :=
  if s.sideMode n ≠ 2 then s else (s.keepSide n fun c => s.writeWaits n c.1).set (Reg.MSIDE_STATUS_STATE n) 3

/-- R221: a delay's offset moves towards the measured drift by at most 4 steps. -/
def trackStep (off drift : Int) : Int := off + clampInt (-4) 4 (drift - off)

/-- Whether a side's channels run and refresh: in INIT, ACTIVE and RESYNC. -/
def State.channelsRun (s : State) (n : Nat) : Bool := s.sideMode n == 2 || s.sideMode n == 3 || s.sideMode n == 5

/-- R221: a channel moves the delays of its two byte lanes; an offset beyond 16 steps raises TRAIN_DRIFT once per start. -/
def State.dqsTrack (s : State) (n ch : Nat) (d : List (Int × Int)) : State :=
  if !s.channelsRun n then s
  else
    let offs := [0, 1].map fun i =>
      let b := 2 * ch + i
      let m := d.getD i (0, 0)
      (b, trackStep (sext 8 (s.get (Reg.MSIDE_TRACK_RD_OFFSET n b))) m.1,
        trackStep (sext 8 (s.get (Reg.MSIDE_TRACK_WR_OFFSET n b))) m.2)
    let s := s.each offs fun p t =>
      (t.set (Reg.MSIDE_TRACK_RD_OFFSET n p.1) (toBits 8 p.2.1)).set (Reg.MSIDE_TRACK_WR_OFFSET n p.1) (toBits 8 p.2.2)
    if offs.any (fun p => decide (16 < p.2.1.natAbs ∨ 16 < p.2.2.natAbs)) && !(s.side n).driftNoted then
      (s.setSide n { s.side n with driftNoted := true }).raiseFault (130 + n)
    else s

/-- A channel has measured the drift of its byte lanes, in steps (R221). -/
def execDqsTrack (n : Side) (ch : Fin 8) (rd0 wr0 rd1 wr1 : BitVec 8) (s : State) : Host.Outcome State Fault Refusal :=
  .next (s.dqsTrack n.val ch.val [(rd0.toInt, wr0.toInt), (rd1.toInt, wr1.toInt)])

/-! ### Refresh (R222 to R225) -/

/-- R222: a per-bank refresh falls due. One owed beyond the 8 that may be postponed is a breach at rank 2 (R37), but not in a
debt recovery, which is the reaction to it (R225; DEDUCED, log entry 78). -/
def State.refreshDue (s : State) (n ch : Nat) : State :=
  if !s.channelsRun n then s
  else
    let c := s.chan n ch
    let s := (s.setChan n ch { c with debt := c.debt + 1 }).raiseTo (Reg.MSIDE_REFRESH_MAX_DEBT n) (c.debt + 1)
    if 8 ≤ c.debt ∧ c.recovery = false then
      s.breach { rank := 2, yielded := 2, port := none, mag := c.debt + 1 - 8, unit := 0x0B, inst := n }
    else s

/-- A per-bank refresh of a channel falls due (R222). -/
def execRefreshDue (n : Side) (ch : Fin 8) (s : State) : Host.Outcome State Fault Refusal := .next (s.refreshDue n.val ch.val)

/-- A channel reads mode register 4 (R223): on every side that is not OFF, a frozen one included, whose last reading a release
looks at (R241). -/
def execMr4Poll (n : Side) (ch : Fin 8) (s : State) : Host.Outcome State Fault Refusal :=
  .next (if s.sideMode n.val ≠ 0 then
      s.setChan n.val ch.val { s.chan n.val ch.val with mr4Pending := true }
    else s)

/-- RATE_2X of a channel. -/
def State.setRate2x (s : State) (n ch : Nat) (b : Bool) : State :=
  let v := s.get (Reg.MSIDE_STATUS_RATE_2X n)
  s.set (Reg.MSIDE_STATUS_RATE_2X n) (if b then setBitOf v ch else clearBitOf v ch)

/-- R223, R224: a reading of mode register 4. -/
def State.mr4Result (s : State) (n ch : Nat) (band : TempBand) (srOk : Bool) : State :=
  let c := s.chan n ch
  if !c.mr4Pending then s
  else
    let c := { c with mr4Pending := false, hot := decide (band = .hot) }
    match band with
    | .hot => (s.setChan n ch { c with cool := 0 }).freezeSide n 3 none srOk
    | .warm =>
      if c.twoX then s.setChan n ch { c with cool := 0 }
      else
        let debt := 2 * c.debt
        let s := s.setChan n ch { c with twoX := true, cool := 0, debt := debt, recovery := decide (4 < debt) }
        let s := (s.setRate2x n ch true).raiseTo (Reg.MSIDE_REFRESH_MAX_DEBT n) debt
        if 4 < debt then s.count (Reg.MSIDE_REFRESH_RECOVERIES n) else s
    | .cool =>
      if !c.twoX then s.setChan n ch c
      else if c.cool + 1 < 16 then s.setChan n ch { c with cool := c.cool + 1 }
      else (s.setChan n ch { c with twoX := false, cool := 0, debt := (c.debt + 1) / 2 }).setRate2x n ch false

/-- The data of a mode register 4 read returns (R223, R224). -/
def execMr4Result (n : Side) (ch : Fin 8) (band : TempBand) (srOk : Bool) (s : State) : Host.Outcome State Fault Refusal :=
  .next (s.mr4Result n.val ch.val band srOk)

/-! ### Channels and quality of service (R225 to R233) -/

/-- A channel issues its next command (R222, R224 to R227, R231, R233). -/
def execChannelSchedule (n : Side) (ch : Fin 8) (ns : Nat) (bank : Option (Fin 16)) (ecc : LineEcc) (srOk : Bool)
    (s : State) : Host.Outcome State Fault Refusal :=
  .next (s.schedule n.val ch.val ns (bank.map (·.val)) ecc srOk)

/-- A refresh window of a channel ends: its row-disturbance tables clear and its throttles end (R226, R227). -/
def execRhWindowEnd (n : Side) (ch : Fin 8) (s : State) : Host.Outcome State Fault Refusal :=
  .next (s.setChan n.val ch.val { s.chan n.val ch.val with rh := [], throttles := [] })

/-- R230: a request has been outstanding for `ns`: its urgency follows. The target of one that waits in a channel's debt recovery
is taken as 0 (R225). -/
def State.urgencyRise (s : State) (n ch id ns : Nat) : State :=
  let f := fun (waits : Bool) (r : MemReq) => if r.id = id then
      let t := if waits then 0 else s.portTargetNs r.port
      { r with age := max r.age ns, urgency := max r.urgency (urgencyAt t ns) } else r
  let c := s.chan n ch
  s.setChan n ch { c.mapWaiting (f c.recovery) with inFlight := c.inFlight.map (f false) }

/-- A request's waiting time crosses a fraction of its target (R230). -/
def execUrgencyRise (n : Side) (ch : Fin 8) (id ns : Nat) (s : State) : Host.Outcome State Fault Refusal :=
  .next (s.urgencyRise n.val ch.val id ns)

/-- R37, R230: the magnitude of a breach of a rank by an excess in ns: nanoseconds, or microseconds for the ranks R37
measures in them (log entry 30). -/
def excessOf (rank ns : Nat) : Nat := if rank = 6 ∨ rank = 9 ∨ rank = 10 then ns / 1000 else ns

/-- R39, R225, R230: a request is outstanding `ns` after its issue, beyond its target: a breach, once. The target of one that waits
in a channel's debt recovery is taken as 0; a breach of that target at rank 3 or 4 is counted, and its record is that of the
recovery's end. The record names the memory side as the affected instance (DESIGN CHOICE, log entry 110). -/
def State.targetExpiry (s : State) (n ch id ns : Nat) : State :=
  let c := s.chan n ch
  match (c.waiting ++ c.inFlight).find? (·.id == id) with
  | none => s
  | some r =>
    let zero := c.recovery && c.waiting.any (·.id == id)
    let t := if zero then 0 else s.portTargetNs r.port
    if r.breached || decide (ns ≤ t) then s
    else
      let rank := s.portRank r.port
      let later := zero && (rank == 3 || rank == 4)
      let f := fun (q : MemReq) => if q.id = id then { q with breached := !later, counted := true, urgency := 3 } else q
      let s := (s.setChan n ch { c.mapWaiting f with inFlight := c.inFlight.map f }).countBreach r
      if later then s
      else s.breach
        { rank := rank, yielded := yieldedTo r.ahead rank, port := some r.port, mag := excessOf rank (ns - t), unit := 0x0B,
          inst := n }

/-- A request is still outstanding after its latency target (R39, R230). -/
def execTargetExpiry (n : Side) (ch : Fin 8) (id ns : Nat) (s : State) : Host.Outcome State Fault Refusal :=
  .next (s.targetExpiry n.val ch.val id ns)

/-- R230: QOS_p_CLR is written. -/
def State.qosClr (s : State) (p : Nat) (v : Word) : State :=
  if !bitOf v.toNat 0 then s
  else ((s.set (Reg.QOS_STATUS_BREACHES p) 0).set (Reg.QOS_STATUS_DROPPED p) 0).set (Reg.QOS_MAXLAT_NS p) 0

/-- QOS_p_CLR is written (R230). -/
def execQosClr (p : Fin 40) (w : World) (v : Word) (s : State) : Host.Outcome State Fault Refusal :=
  .next (s.asWriter w 0x0C p.val false (·.qosClr p.val v))

/-! ### Release and resync (R241 to R243, R245) -/

/-- R241: whether a release of a side is refused. -/
def State.releaseRefused (s : State) (n : Nat) (full : Bool) : Bool :=
  let cause := s.get (Reg.MSIDE_FREEZE_STATUS_CAUSE n)
  s.sideMode n != 4 || (cause == 3 && (List.range 8).any fun c => (s.chan n c).hot)
    || (!full && (s.bit (Reg.MSIDE_FREEZE_STATUS_SR_UNCERTAIN n) || cause == 4))

/-- R241: MSIDE_n_FREEZE_CTRL is written: RELEASE = 1 starts a release, or is refused. -/
def State.freezeCtrlWrite (s : State) (n : Nat) (v : Word) : State :=
  let s := s.plainWrite (Reg.MSIDE_FREEZE_CTRL n) (withoutBit v 0)
  let full := s.bit (Reg.MSIDE_FREEZE_CTRL_MODE n)
  if !bitOf v.toNat 0 then s
  else if s.releaseRefused n full then s.freezeEvent n (Reg.MSIDE_FREEZE_STATUS_RELEASE_REFUSED n)
  else
    let s := (s.set (Reg.MSIDE_FREEZE_CTRL_RELEASE n) 1).set (Reg.MSIDE_STATUS_STATE n) 1
    (s.set (Reg.MSIDE_FREEZE_STATUS_SR_UNCERTAIN n) 0).setSide n { s.side n with releasing := true, full := full }

/-- MSIDE_n_FREEZE_CTRL is written with RELEASE = 1 (R241). -/
def execSideRelease (n : Side) (w : World) (v : Word) (s : State) : Host.Outcome State Fault Refusal :=
  .next (s.asWriter w 0x0B n.val false (·.freezeCtrlWrite n.val (withBit v 0)))

/-- R241: a release reaches its end: the side is ACTIVE. -/
def State.sideActive (s : State) (n : Nat) : State :=
  let s := (s.set (Reg.MSIDE_STATUS_STATE n) 3).set (Reg.MSIDE_FREEZE_CTRL_RELEASE n) 0
  (s.setSide n { s.side n with releasing := false, full := false, todo := [], copied := 0, again := [], flight := [] }).liveFell (128 + n)

/-- R241, R243: the granules a release copies, and, for MODE = FULL, the unmirrored range initialised to zero with its dirty bits
clear. A side whose copy engine stopped for good stays RESYNC (R239). -/
def State.resyncStart (s : State) (n : Nat) : State :=
  let gs := List.range (s.usableGranules n)
  let s := s.set (Reg.MSIDE_STATUS_STATE n) 5
  let s := if !(s.side n).full then s
    else
      let s := s.keepSide n fun c => s.granuleMirrored (c.1 / granuleBytes)
      s.each (List.range 256) fun w t => t.setReg (Reg.MSIDE_DIRTY n w)
        (BitVec.ofNat 32 ((List.range 32).foldl (fun v b =>
          if t.isDirty n (32 * w + b) && t.granuleMirrored (32 * w + b) then setBitOf v b else v) 0))
  let todo := gs.filter fun g => if (s.side n).full then s.granuleMirrored g else s.isDirty n g
  let s := (s.setSide n { s.side n with todo := todo, copied := 0, again := [], flight := [] }).set
    (Reg.MSIDE_RESYNC_REMAINING n) todo.length
  if todo.isEmpty && !(s.side n).stopped then s.sideActive n else s

/-- R241: retraining of a side in a release ends. -/
def State.retrainDone (s : State) (n : Nat) (lanes : List (Nat × Nat)) (verify : Bool) : State :=
  if !(s.sideMode n = 1 && (s.side n).releasing) then s
  else
    let (s, wide) := s.trainLanes n lanes
    if wide && verify then s.resyncStart n
    else
      let s := (s.set (Reg.MSIDE_STATUS_STATE n) 4).set (Reg.MSIDE_FREEZE_CTRL_RELEASE n) 0
      (s.setSide n { s.side n with releasing := false }).freezeEvent n (Reg.MSIDE_FREEZE_STATUS_RETRAIN_FAIL n)

/-- Retraining in a release ends: the passing steps of each lane and the verification's result (R241). -/
def execSideRetrainDone (n : Side) (lanes : List (BitVec 128 × BitVec 128)) (verify : Bool) (s : State) :
    Host.Outcome State Fault Refusal :=
  .next (s.retrainDone n.val (lanes.map fun l => (l.1.toNat, l.2.toNat)) verify)

/-- Lines of a granule. -/
def granuleLines : Nat := granuleBytes / 64

/-- The next line a side's copy engine reads, of the granule it copies. -/
def SideState.nextLine (r : SideState) : Option Nat :=
  match r.again, r.todo with
  | l :: _, _ => some l
  | [], g :: _ => if r.copied < granuleLines then some (granuleLines * g + r.copied) else none
  | [], [] => none

/-- R239, R242: one core clock of a side's copy engine: with 16 lines in flight, or none left to read, it writes the oldest; it reads
the next line from the other side. One line a clock is the model's pace (DESIGN CHOICE, log entry 79). -/
def State.copyClock (s : State) (n : Nat) : State :=
  if s.sideMode n ≠ 5 || (s.side n).stopped || s.sideDown (1 - n) then s
  else
    let next := (s.side n).nextLine
    let s := match (s.side n).flight with
      | (l, bs) :: rest =>
        if 16 ≤ rest.length + 1 || next.isNone then
          let t := s.putSide n (64 * l) bs
          t.setSide n { t.side n with flight := rest }
        else s
      | [] => s
    match next with
    | none => s
    | some l =>
      let r := s.side n
      s.setSide n { r with flight := r.flight ++ [(l, s.sideBytes (1 - n) (64 * l) 64)], again := r.again.drop 1,
                           copied := if r.again.isEmpty then r.copied + 1 else r.copied }

/-- R239, R241: the copy engine has copied a granule from the other side: each line of it that the engine had not written yet, and
that no mirrored write made needless, is written. -/
def State.granuleDone (s : State) (n g : Nat) : State :=
  let r := s.side n
  if s.sideMode n ≠ 5 || r.stopped || !r.todo.contains g || s.sideDown (1 - n) then s
  else
    let inG := fun (c : Host.Cell) => c.1 / granuleBytes == g
    let s := (s.keepSide n (!inG ·)).each ((s.sideMem (1 - n)).filter inG) fun c t => t.setSideByte n c.1 c.2
    let a := Reg.MSIDE_DIRTY n (g / 32)
    let s := s.setReg a (withoutBit (s.reg a) (g % 32))
    let todo := r.todo.filter (· != g)
    let s := (s.setSide n { r with todo := todo, again := r.again.filter (· / granuleLines != g),
                                   copied := if r.todo.head? = some g then 0 else r.copied,
                                   flight := r.flight.filter (·.1 / granuleLines != g) }).set (Reg.MSIDE_RESYNC_REMAINING n) todo.length
    if todo.isEmpty then s.sideActive n else s

/-- The copy of a granule completes (R241, R243). -/
def execResyncGranuleDone (n : Side) (g : BitVec 13) (s : State) : Host.Outcome State Fault Refusal :=
  .next (s.granuleDone n.val g.toNat)

/-- The patrol scrub has read a line of a side, and written back what it corrected (R211, R234, R244, R245). -/
def execPatrolScrub (n : Side) (off : BitVec 34) (ecc : LineEcc) (srOk : Bool) (s : State) :
    Host.Outcome State Fault Refusal :=
  .next (if s.sideMode n.val = 3 ∧ off.toNat < s.usable n.val then
      (s.linkFixed n.val ecc.read (if ecc.inline = .corrected then ecc.write else 0)).eccRead n.val off.toNat ecc.inline srOk
    else s)

end Sys2Proof.Machine
end

