-- ==== Sys2Proof/Machine/Protected.lean ====
section
/-! DEFINITION. The commands of protected layers, the sextant, the comparator test and the forced harbour image
(spec/06_protected_content_and_sextant.md). -/

namespace Sys2Proof.Machine

/-- PROT_n_COMMIT is written with GO = 1 (R123, R172). -/
def execProtCommitGo (n : Fin 8) (w : World) (v : Word) (s : State) : Host.Outcome State Fault Refusal :=
  .next (s.asWriter w 0x07 n.val false (·.protCommit n.val (withBit v 0)))

/-- PROT_n_COMMIT is written with CANCEL = 1 (R124, R172). -/
def execProtCommitCancel (n : Fin 8) (w : World) (v : Word) (s : State) : Host.Outcome State Fault Refusal :=
  .next (s.asWriter w 0x07 n.val false (·.protCommit n.val (withBit v 1)))

/-- R176: PROT_n_VOUCH is written: the current frame number is accepted, and any other value sets VOUCH_ERR. -/
def State.vouch (s : State) (n : Nat) (v : Word) : State :=
  if s.reg (Reg.SCREEN_FRAME n) = v then (s.setReg (Reg.PROT_VOUCH n) v).set (Reg.PROT_STATUS_VOUCH_VALID n) 1
  else s.protEvent n (Reg.PROT_STATUS_VOUCH_ERR n)

/-- PROT_n_VOUCH is written (R176). -/
def execVouch (n : Fin 8) (w : World) (v : Word) (s : State) : Host.Outcome State Fault Refusal :=
  .next (s.asWriter w 0x07 n.val false (·.vouch n.val v))

/-! ### The sextant's self-test (R182, R183, R187) -/

/-- R182: a self-test starts. -/
def State.sxtTest (s : State) (k : Nat) : State :=
  let st := s.get (Reg.SXT_STATUS_STATE k)
  if st = 1 ∨ (st = 0 ∧ !allScreens.any s.running) then
    ({ s with sxtBack := s.sxtBack ++ [(k, st)] }.set (Reg.SXT_STATUS_STATE k) 3).set (Reg.SXT_SELFTEST_GO k) 1
  else s

/-- R182: SXT_n_SELFTEST is written. -/
def State.sxtTestWrite (s : State) (k : Nat) (v : Word) : State :=
  let s := s.plainWrite (Reg.SXT_SELFTEST k) (withoutBit v 0)
  if bitOf v.toNat 0 then s.sxtTest k else s

/-- SXT_n_SELFTEST is written with GO = 1 (R182). -/
def execSxtSelftest (k : Fin 2) (w : World) (v : Word) (s : State) : Host.Outcome State Fault Refusal :=
  .next (s.asWriter w 0x0A k.val false (·.sxtTestWrite k.val (withBit v 0)))

/-- R182, R183, R187: a self-test ends: the sextant returns to its state, or is FAILED. Where both are under test and the
ACTIVE one fails, the other one returns as ACTIVE and takes every screen. -/
def State.sxtTestDone (s : State) (k : Nat) (pass : Bool) : State :=
  match s.sxtBack.find? (·.1 == k) with
  | none => s
  | some (_, back) =>
    let s0 := s
    let s := { s with sxtBack := s.sxtBack.filter (·.1 != k) }
    let s := ((s.set (Reg.SXT_SELFTEST_GO k) 0).set (Reg.SXT_SELFTEST_DONE k) 1).set (Reg.SXT_SELFTEST_PASS k) (b2n pass)
    let s := s.raiseIrq (41 + k)
    if pass then
      let s := if back = 0 then s.set (Reg.SXT_STATUS_SCREENS k) 0xFF else s
      (s.set (Reg.SXT_STATUS_STATE k) back).fellSince s0 7
    else
      let y := 1 - k
      let other := s.get (Reg.SXT_STATUS_STATE y)
      let s := if back = 0 ∧ other = 3 then
          { s with sxtBack := s.sxtBack.map fun (p : Nat × Nat) => if p.1 = y then (y, 0) else p }.set (Reg.SXT_STATUS_STATE k) 2
            |>.set (Reg.SXT_STATUS_SCREENS k) 0
        else s.sextantOut k back
      let s := (s.fellSince s0 7).raiseFault (74 + k)
      if other = 2 then s.noSextant.inOrder s0 else s

/-- A self-test of a sextant ends (R182, R183, R187). -/
def execSxtSelftestDone (k : Fin 2) (pass : Bool) (s : State) : Host.Outcome State Fault Refusal :=
  .next (s.sxtTestDone k.val pass)

/-- A tile row of rectangle k, buffer row y, tile row t of a screen's frame arrives at the sextant (R174, R180, R185). -/
def execSxtTileRowArrive (n : Fin 8) (k : Fin 4) (y : Fin 2880) (t : Fin 40) (s : State) :
    Host.Outcome State Fault Refusal :=
  .next (if (s.liveRects n.val).contains k.val && decide (y.val < (s.actRect n.val k.val).h ∧ t.val < s.tileRows n.val k.val)
    then s.tileArrive n.val k.val y.val t.val else s)

/-- The engine pair of a sextant disagrees (R185 to R187). -/
def execSxtLockstepFail (k : Fin 2) (s : State) : Host.Outcome State Fault Refusal := .next (s.lockstepFail k.val)

/-! ### The comparator test (R189) and the forced harbour image (R193) -/

/-- R189: DPO_n_CMP_TEST is written: GO requests the test. -/
def State.cmpTestWrite (s : State) (p : Nat) (v : Word) : State :=
  let s := s.plainWrite (Reg.DPO_CMP_TEST p) (withoutBit v 0)
  if bitOf v.toNat 0 then s.set (Reg.DPO_CMP_TEST_GO p) 1 else s

/-- DPO_n_CMP_TEST is written with GO = 1 (R189). -/
def execCmpTest (p : Fin 8) (w : World) (v : Word) (s : State) : Host.Outcome State Fault Refusal :=
  .next (s.asWriter w 0x04 p.val true (·.cmpTestWrite p.val (withBit v 0)))

/-- R189: a requested test runs in a vertical blanking of the port's screen, or at once on a stopped one; `pass` says that
the comparator flagged exactly the known pixels. -/
def State.cmpTestRun (s : State) (p : Nat) (pass : Bool) : State :=
  let blank := match s.screenOn p with
    | none => true
    | some n => (s.scr n).blanking || (s.scr n).gap
        || decide (s.get (Reg.SCREEN_TIMING_V_V_ACTIVE n) ≤ s.get (Reg.SCREEN_STATUS_LINE n))
  if s.bit (Reg.DPO_CMP_TEST_GO p) && blank then
    ((s.set (Reg.DPO_CMP_TEST_GO p) 0).set (Reg.DPO_CMP_TEST_DONE p) 1).set (Reg.DPO_CMP_TEST_PASS p) (b2n pass)
  else s

/-- The comparator test of a port runs (R189). -/
def execCmpTestRun (p : Fin 8) (pass : Bool) (s : State) : Host.Outcome State Fault Refusal := .next (s.cmpTestRun p.val pass)

/-- R191, R193: DPO_n_HARB_CTRL is written: FORCE = 1 begins the whole-screen harbour image at the frame that is sent, and
FORCE = 0 ends it. -/
def State.harbWrite (s : State) (p : Nat) (v : Word) : State :=
  let s := s.plainWrite (Reg.DPO_HARB_CTRL p) v
  if !s.bit (Reg.DPO_HARB_CTRL_FORCE p) then s.setPort p { s.port p with forced := none }
  else if (s.port p).forced.isSome then s
  else (s.setPort p { s.port p with forced := some (((s.portScreen p).map s.frame).getD 0) }).raiseIrq (33 + p)

/-- DPO_n_HARB_CTRL is written (R193). -/
def execHarbourForce (p : Fin 8) (w : World) (v : Word) (s : State) : Host.Outcome State Fault Refusal :=
  .next (s.asWriter w 0x04 p.val true (·.harbWrite p.val v))

end Sys2Proof.Machine
end

