-- ==== Sys2Proof/Machine/Screens.lean ====
section
/-! DEFINITION. The commands of a screen: start, stop, latch, fetch, scan-out, refresh lowering, RETIME, output commits,
the watch and the hit map (spec/03_screen_timing_and_ports.md, spec/05_blending_and_colour.md,
spec/06_protected_content_and_sextant.md). -/

namespace Sys2Proof.Machine

/-- SCREEN_n_CTRL is written with RUN = 1 (R71, R72, R450, R482). -/
def execScreenStart (n : Fin 8) (w : World) (v : Word) (s : State) : Host.Outcome State Fault Refusal :=
  .next (s.asWriter w 0x02 n.val false (·.screenCtrlWrite n.val (withBit v 0)))

/-- SCREEN_n_CTRL is written with RUN = 0 (R71, R73, R88). -/
def execScreenStop (n : Fin 8) (w : World) (v : Word) (s : State) : Host.Outcome State Fault Refusal :=
  .next (s.asWriter w 0x02 n.val false (·.screenCtrlWrite n.val (withoutBit v 0)))

/-- The start latch of a screen falls (R72, R85, R95, R482). -/
def execScreenStartLatch (n : Fin 8) (s : State) : Host.Outcome State Fault Refusal := .next ((s.startLatch n.val).inOrder s)

/-- The latch clock of a running screen (R73, R75 to R77). -/
def execLatch (n : Fin 8) (s : State) : Host.Outcome State Fault Refusal := .next ((s.latch n.val).inOrder s)

/-- The pipe of a screen starts to fetch the frame after the latch (R78, R186, R199). -/
def execPipeFetchStart (n : Fin 8) (s : State) : Host.Outcome State Fault Refusal := .next (s.fetchStart n.val)

/-- Scan-out of a line begins (R69, R118 to R120, R184, R185, R193, R200). -/
def execScanoutLine (n : Fin 8) (line : BitVec 14) (last : Bool) (late : List LateLayer) (bare : Bool)
    (sxtNs sxtYield : Nat) (faults : List (BitVec 13 × Word)) (s : State) : Host.Outcome State Fault Refusal :=
  .next (s.scanLine n.val line.toNat last late bare sxtNs sxtYield (faults.map fun f => (f.1.toNat, f.2)))

/-- R79: SCREEN_n_LOWER is written: with EN = 1 the checks are made with the written factor, and a refused write changes
nothing but CFG_ERR. -/
def State.lowerWrite (s : State) (n : Nat) (v : Word) : State :=
  if bitOf v.toNat 0 && !s.lowerOk n (getBits v 8 4) then s.scrEvent n (Reg.SCREEN_STATUS_CFG_ERR n)
  else s.plainWrite (Reg.SCREEN_LOWER n) v

/-- SCREEN_n_LOWER is written with EN = 1 (R79). -/
def execLowerEnable (n : Fin 8) (w : World) (v : Word) (s : State) : Host.Outcome State Fault Refusal :=
  .next (s.asWriter w 0x02 n.val false (·.lowerWrite n.val (withBit v 0)))

/-- SCREEN_n_RETIME is written: its W1C bits clear, and GO requests (R83). -/
def State.retimeWrite (s : State) (n : Nat) (v : Word) : State :=
  let s := s.plainWrite (Reg.SCREEN_RETIME n) (withoutBit v 0)
  if bitOf v.toNat 0 then s.retimeGo n else s

/-- SCREEN_n_RETIME is written with GO = 1 (R81, R83, R84). -/
def execRetimeRequest (n : Fin 8) (w : World) (v : Word) (s : State) : Host.Outcome State Fault Refusal :=
  .next (s.asWriter w 0x02 n.val false (·.retimeWrite n.val (withBit v 0)))

/-- The link work of a RETIME ends; `ok` says that a retraining succeeded (R86 to R88). -/
def execRetimeComplete (n : Fin 8) (ok : Bool) (s : State) : Host.Outcome State Fault Refusal :=
  .next (s.retimeComplete n.val ok)

/-- R159, R160: SCREEN_n_OUT_COMMIT is written. -/
def State.outCommit (s : State) (n : Nat) (v : Word) : State :=
  if !bitOf v.toNat 0 then s
  else if s.get (Reg.SCREEN_OUT_STATUS_STATE n) = 1 then
    (s.set (Reg.SCREEN_OUT_STATUS_WRITE_WHILE_PENDING n) 1).count (Reg.SCREEN_OUT_STATUS_EVENTS n)
  else (s.setScr n { s.scr n with lutSwap := bitOf v.toNat 1 }).set (Reg.SCREEN_OUT_STATUS_STATE n) 1

/-- SCREEN_n_OUT_COMMIT is written with GO = 1 (R158 to R160). -/
def execOutCommitGo (n : Fin 8) (w : World) (v : Word) (s : State) : Host.Outcome State Fault Refusal :=
  .next (s.asWriter w 0x02 n.val true (·.outCommit n.val (withBit v 0)))

/-- Both signatures of a watched frame are complete; `diff` is what differs between them (R200 to R202). -/
def execWatchCompare (n : Fin 8) (diff : Word) (late : Bool) (s : State) : Host.Outcome State Fault Refusal :=
  .next (s.watchCompare n.val diff.toNat late)

/-- R205: the new hit map replaces the old one. -/
def State.hitSwap (s : State) (n : Nat) : State :=
  match (s.scr n).hitNext with
  | some m => s.setScr n { s.scr n with hit := some m, hitNext := none }
  | none => s

/-- The hit map built at the latest latch replaces the current one, 64 µs after the latch (R205). -/
def execHitMapSwap (n : Fin 8) (s : State) : Host.Outcome State Fault Refusal := .next (s.hitSwap n.val)

end Sys2Proof.Machine
end

