-- ==== Sys2Proof/Machine/RegWrite.lean ====
section
/-! DEFINITION. A 32-bit write to the register grid: who may write, and which registers act beyond their access types; the
others are written as their access types state (R5, R7, R9, R35, R36, R351, R355, R480). -/

namespace Sys2Proof.Machine

/-- The unit code of a place in the register space (R35). -/
def gridUnit (a : Nat) : Nat := a / 0x1000000

/-- Its instance. -/
def gridInst (a : Nat) : Nat := a / 0x10000 % 256

/-- Its offset in the instance's block. -/
def gridOff (a : Nat) : Nat := a % 0x10000

/-- Whether a place lies in the block of an instance that exists (R35, R36). -/
def blockExists (a : Nat) : Bool := decide (gridInst a < unitInstances (gridUnit a))

/-- R55, R109: whether a place of a session's block is one of its layer handles, through which the page shows the guest registers of
the layer that the handle names. -/
def handlePlace (a : Nat) : Bool := gridUnit a == 0x0E && decide (0x400 ≤ gridOff a ∧ gridOff a < 0xC00)

/-- Whether anything answers at a place of the register space: a register, or a layer handle of a session page. -/
def gridMapped (a : Nat) : Bool := (rowAt a).isSome || handlePlace a

/-! ### The right to reach a register (R158, R326, R350, R351) -/

/-- Whether a register is named secure-owned at register level. -/
def State.regSecure (s : State) (u i off : Nat) : Bool :=
  match u with
  | 0x00 => decide ((0x400 ≤ off ∧ off < 0x500) ∨ (0x1000 ≤ off ∧ off < 0x1900))
  | 0x02 => decide ((0x100 ≤ off ∧ off < 0x204) ∨ (0x218 ≤ off ∧ off < 0x220) ∨ (0x1000 ≤ off ∧ off < 0x7000))
  | 0x04 => decide ((0x100 ≤ off ∧ off ≤ 0x110) ∨ (0x120 ≤ off ∧ off ≤ 0x130) ∨ 0x8000 ≤ off)
  | 0x05 => off == 0x80
  | 0x0E => i == 0
  | 0x10 => decide (0x400 ≤ off ∧ off < 0x440)
  | 0x13 =>
    if 0x1000 ≤ off ∧ off < 0x7000 then s.nodeSecure ((off - 0x1000) % 0x3000 / 0x100) (off % 0x100 / 4)
    else if 0x8000 ≤ off ∧ off < 0xE000 then s.outProtected ((off - 0x8000) / 0x200)
    else if 0xE000 ≤ off ∧ off < 0xE0C0 then s.outProtected ((off - 0xE000) / 4)
    else false
  | 0x14 => off == 0 && s.tdmSecure i
  | 0x1A => decide (0x100 ≤ off ∧ off < 0x200)
  | 0x1F => off == 4
  | 0x20 => decide (0x2000 ≤ off ∧ off ≤ 0x200C)
  | _ => false

/-- Whether the normal world is kept from a register: TIMECMP_N alone is its own in a block of MC. -/
def State.regDenied (s : State) (u i off : Nat) : Bool :=
  (s.ownedSecure u i && !(u == 0x16 && (off == 0x20 || off == 0x24))) || s.regSecure u i off

/-! ### SYS, DBG and PWR -/

/-- Whether an entry of the secure regions becomes VALID with a base and a size (SYS_0_SECMEM_k). -/
def State.secmemOk (s : State) (base size : Nat) : Bool :=
  size != 0 && decide (base + size ≤ s.usableGranules 0 ∧ base + size ≤ s.usableGranules 1)

/-- SYS_0_SECMEM_k_BASE or _SIZE is written: an entry that does not fit is not VALID (log entry 45). -/
def State.secmemWrite (s : State) (a k : Nat) (v : Word) : State :=
  let s := s.plainWrite a v
  let ok := s.secmemOk (s.get (Reg.SYS_SECMEM_BASE_GRANULE k)) (s.get (Reg.SYS_SECMEM_SIZE_GRANULES k))
  if s.bit (Reg.SYS_SECMEM_SIZE_VALID k) && !ok then s.set (Reg.SYS_SECMEM_SIZE_VALID k) 0 else s

/-- A write to SYS_0. -/
def State.sysWrite (s : State) (off : Nat) (v : Word) : State :=
  let a := Machine.reg 0x00 0 off
  if off = 0x140 then s.breachClr v
  else if off = 0x400 then s.secCtrlWrite v
  else if off = 0x40C then s.swdtKick
  else if 0x440 ≤ off ∧ off < 0x4C0 then s.secmemWrite a ((off - 0x440) / 8) v
  else if 0x1000 ≤ off then s.ownWrite ((off - 0x1000) / 0x40) (off % 0x40 / 4) v
  else s.plainWrite a v

/-- DBG_0_NORMAL_EN is written (R358). -/
def State.dbgNormalWrite (s : State) (v : Word) : State :=
  let t := s.plainWrite Reg.DBG_NORMAL_EN v
  t.dbgOpen (getBits v 0 2)

/-- A write to PWR_0. -/
def State.pwrWrite (s : State) (w : World) (off : Nat) (v : Word) : State :=
  if off < 0x840 then s.gateWrite (off / 0x40) (off % 0x40 / 4) w v else s.plainWrite (Machine.reg 0x20 0 off) v

/-! ### Screens, ports, layers and their kin -/

/-- A write to DRUM_0. -/
def State.drumWrite (s : State) (off : Nat) (v : Word) : State :=
  if off = 0 then s.drumCtrlWrite v
  else if off = 4 then s.drumDivIntWrite v
  else if off = 8 then s.drumDivFracWrite v
  else s.plainWrite (Machine.reg 0x01 0 off) v

/-- A write that OUT_COMMIT keeps while it is PENDING (R160). -/
def State.outShadowWrite (s : State) (n a : Nat) (v : Word) : State :=
  if s.get (Reg.SCREEN_OUT_STATUS_STATE n) = 1 then
    (s.set (Reg.SCREEN_OUT_STATUS_WRITE_WHILE_PENDING n) 1).count (Reg.SCREEN_OUT_STATUS_EVENTS n)
  else s.plainWrite a v

/-- R162: an entry of the inactive gamma bank is written. -/
def State.lutWrite (s : State) (n c k : Nat) (v : Word) : State :=
  if s.get (Reg.SCREEN_OUT_STATUS_STATE n) = 1 then s.outShadowWrite n 0 v
  else s.setReg (s.lutAddr n c k false) (v &&& 0x3FFF)

/-- A write to SCREEN_n (R71, R83, R158 to R162). -/
def State.screenWrite (s : State) (n off : Nat) (v : Word) : State :=
  let a := Machine.reg 0x02 n off
  if off = 0 then s.screenCtrlWrite n v
  else if 0x10 ≤ off ∧ off ≤ 0x24 then
    if s.running n || s.get (Reg.SCREEN_RETIME_STATE n) != 0 then s.scrEvent n (Reg.SCREEN_STATUS_WRITE_WHILE_ACTIVE n)
    else s.plainWrite a v
  else if off = 0x40 then s.lowerWrite n v
  else if 0x50 ≤ off ∧ off ≤ 0x68 then
    if s.get (Reg.SCREEN_RETIME_STATE n) != 0 then s.scrEvent n (Reg.SCREEN_STATUS_WRITE_WHILE_ACTIVE n)
    else s.plainWrite a v
  else if off = 0x70 then s.retimeWrite n v
  else if 0x100 ≤ off ∧ off ≤ 0x11C then s.outShadowWrite n a v
  else if off = 0x120 then s.outCommit n v
  else if 0x1000 ≤ off ∧ off < 0x4000 then s.lutWrite n ((off - 0x1000) / 0x1000) (off % 0x1000 / 4) v
  else s.plainWrite a v

/-- A write to DPO_p. PANEL_ON here finds T_OFF_MIN not yet passed since a power-down; PANEL_VDD_RISE ends the wait. -/
def State.dpoWrite (s : State) (p off : Nat) (v : Word) : State :=
  let a := Machine.reg 0x04 p off
  if off = 0 then s.dpoCtrlWrite p v
  else if off = 0x04 then s.linkCtrlWrite p v
  else if off = 0x20 then s.auxCmd p false v
  else if 0x24 ≤ off ∧ off ≤ 0x30 then s.auxData p false a v
  else if off = 0x40 then s.auxCmd p true v
  else if 0x44 ≤ off ∧ off ≤ 0x50 then s.auxData p true a v
  else if off = 0x64 then s.panelWrite p v false
  else if off = 0x100 then s.harbWrite p v
  else if off = 0x130 then s.cmpTestWrite p v
  else s.plainWrite a v

/-- A write to LAYER_n (R108 to R111). -/
def State.layerWrite (s : State) (w : World) (n off : Nat) (v : Word) : State :=
  if off < 0x80 then s.throughDoor (.block (Fin.ofNat 64 n) w) fun l t => t.layGuestWrite l off v
  else if off = 0x100 then s.bindWrite n v
  else if off = 0xFFF0 then s.ownerWrite (.layer (Fin.ofNat 64 n)) v
  else s.plainWrite (Machine.reg 0x06 n off) v

/-- A write to PROT_n (R172, R176). -/
def State.protWrite (s : State) (n off : Nat) (v : Word) : State :=
  let a := Machine.reg 0x07 n off
  if off = 0x90 then s.protCommit n v
  else if off < 0x90 ∨ off = 0x94 then
    if s.protPending n then s.protEvent n (Reg.PROT_STATUS_WRITE_WHILE_PENDING n) else s.plainWrite a v
  else if off = 0xA0 then s.vouch n v
  else s.plainWrite a v

/-- A write to VIN_n (R144, R145). -/
def State.vinWrite (s : State) (n off : Nat) (v : Word) : State :=
  let a := Machine.reg 0x09 n off
  if off = 0 then s.vinCtrlWrite n v
  else if off = 4 ∨ (0x10 ≤ off ∧ off ≤ 0x1C) then
    if s.bit (Reg.VIN_CTRL_EN n) then s.vinEvent n (Reg.VIN_STATUS_WRITE_WHILE_ACTIVE n) else s.plainWrite a v
  else s.plainWrite a v

/-- A write to MSIDE_n; the mirror region table lies in instance 0 alone (R214). -/
def State.msideWrite (s : State) (n off : Nat) (v : Word) : State :=
  if 0x200 ≤ off ∧ off < 0x300 then
    (if n = 0 then s.mirrorWrite ((off - 0x200) / 8) (off % 8 == 4) v else s)
  else if off = 0x40 then s.freezeCtrlWrite n v
  else s.plainWrite (Machine.reg 0x0B n off) v

/-- A write to QOS_p: TARGET is clamped to 100 ns to 1 ms, and is read-only where the class is set by hardware (R230). -/
def State.qosWrite (s : State) (p off : Nat) (v : Word) : State :=
  if off = 0 then
    (if s.bit (Reg.QOS_CFG_AUTO p) then s else s.set (Reg.QOS_CFG_TARGET p) (clampNat 100 1000000 (getBits v 0 20)))
  else if off = 0xC then s.qosClr p v
  else s.plainWrite (Machine.reg 0x0C p off) v

/-- A write to SESS_n: its page, or its configuration. -/
def State.sessWrite (s : State) (n off : Nat) (v : Word) : State :=
  if off < 0x1000 then s.pageWrite n off v
  else if off = 0x1000 then s.sessCtrlWrite n v
  else if off = 0x1008 then s.quotaWrite n v
  else if 0x1100 ≤ off ∧ off < 0x1200 then
    let k := (off - 0x1100) / 0x10
    if off % 0x10 = 0 then s.winWrite n k .dev v
    else if off % 0x10 = 4 then s.winWrite n k .goff v
    else s.winWrite n k .ctrl v
  else s.plainWrite (Machine.reg 0x0E n off) v

/-! ### Touch, haptics and audio -/

/-- A write to TSL_n (R259, R287). -/
def State.tslWrite (s : State) (n off : Nat) (v : Word) : State :=
  let a := Machine.reg 0x0F n off
  if off = 0 then (s.linkBegin n).tslCtrlWrite n v
  else if 0x20 ≤ off ∧ off < 0x40 then
    s.touchHeldWrite (s.bit (Reg.TSL_CTRL_EN n)) (Reg.TSL_STATUS_WRITE_WHILE_ACTIVE n) (Reg.TSL_STATUS_EVENTS n) (63 + n) a v
  else s.plainWrite a v

/-- A write to TOUCH_n (R264, R287, R288). -/
def State.touchWrite (s : State) (n off : Nat) (v : Word) : State :=
  let a := Machine.reg 0x10 n off
  if off = 0 then s.touchCtrlWrite n v
  else if 0x08 ≤ off ∧ off ≤ 0x24 then
    s.touchHeldWrite (s.bit (Reg.TOUCH_CTRL_EN n)) (Reg.TOUCH_STATUS_WRITE_WHILE_ACTIVE n) (Reg.TOUCH_STATUS_EVENTS n) (71 + n) a v
  else if off = 0x88 then s.blCmdWrite n v
  else if 0xFF00 ≤ off then s.ownerWrite (.zone (Fin.ofNat 8 n) (Fin.ofNat 32 ((off - 0xFF00) / 4))) v
  else s.plainWrite a v

/-- A write to HC_n: WEIGHT is taken in IDLE alone (R302; log entry 46). -/
def State.hcWrite (s : State) (n off : Nat) (v : Word) : State :=
  if off = 0 then
    let t := s.set (Reg.HC_CTRL_EN n) (getBits v 0 1)
    if s.hcState n = 0 then t.set (Reg.HC_CTRL_WEIGHT n) (getBits v 16 8) else t
  else if off = 0xFFF0 then s.ownerWrite (.haptic (Fin.ofNat 16 n)) v
  else s.plainWrite (Machine.reg 0x11 n off) v

/-- A write to HAP_0. -/
def State.hapWrite (s : State) (off : Nat) (v : Word) : State :=
  if off = 0 then (if bitOf v.toNat 0 then s.hvOn v else s.hvOff v)
  else if off = 0x14 then s.hapLibLoad v
  else s.plainWrite (Machine.reg 0x12 0 off) v

/-- A write to AUD_0: STAGE not while EN is 1, and the coefficients of the inactive bank alone (R309, R319). -/
def State.audWrite (s : State) (off : Nat) (v : Word) : State :=
  let a := Machine.reg 0x13 0 off
  if off = 0 then s.audCtrlWrite v
  else if off = 8 then (if s.bit Reg.AUD_CTRL_EN then s else s.plainWrite a v)
  else if 0x20 ≤ off ∧ off < 0x40 then s.directWrite ((off - 0x20) / 4) v
  else if 0x1000 ≤ off ∧ off < 0x4000 then s.nodeWrite ((off - 0x1000) / 0x100) (off % 0x100 / 4) v
  else if 0x8000 ≤ off ∧ off < 0xE000 then
    (if s.get (Reg.AUD_EQ_CTRL_ACTIVE ((off - 0x8000) / 0x200)) = off / 0x100 % 2 then s else s.plainWrite a v)
  else if 0xFF00 ≤ off then s.ownerWrite (.stream (Fin.ofNat 24 ((off - 0xFF00) / 4))) v
  else s.plainWrite a v

/-! ### Cores, faults and records -/

/-- A write to IC_0: a source by its own world, a context by its own world (R347 to R349). -/
def State.icWrite (s : State) (w : World) (off : Nat) (v : Word) : State :=
  if off < 0x800 then s.sourceWrite (off / 4) w v
  else if off = 0x800 then s.swiWrite w v
  else
    let c := (off - 0x1000) / 0x40
    let x := off % 0x40 / 0x10
    if off % 0x10 = 8 then s.irqClaim c x w v
    else if off % 0x10 = 0xC then s.irqComplete c x w v
    else if w = contextWorld x then s.plainWrite (Machine.reg 0x17 0 off) v
    else s

/-- A write to FLT_0; clearing CAUSE clears TRANSIENT (R398). -/
def State.fltWrite (s : State) (off : Nat) (v : Word) : State :=
  let a := Machine.reg 0x18 0 off
  if off = 0 then s.fltCtrlWrite v
  else if off = 8 then s.requestWrite v
  else if off = 0xC then s.releaseWrite v false
  else if off = 0x10 then s.tollCtrlWrite v
  else if off = 0x14 then s.tollKick
  else if 0x1000 ≤ off then
    let k := (off - 0x1000) / 8
    if off % 8 = 0 then s.classWrite k v
    else
      let t := s.plainWrite a v
      if bitOf v.toNat 1 then t.set (Reg.FLT_IN_STATUS_TRANSIENT k) 0 else t
  else s.plainWrite a v

/-- A write to CRC_n (R414). -/
def State.crcWrite (s : State) (n off : Nat) (v : Word) : State :=
  let a := Machine.reg 0x19 n off
  if off = 0x20 then s.crcCtrlWrite n v
  else if off < 0x2C then s.crcCfgWrite n a v
  else s.plainWrite a v

/-- A write to LOG_0 (R428 to R431). -/
def State.logRegWrite (s : State) (w : World) (off : Nat) (v : Word) : State :=
  let a := Machine.reg 0x1A 0 off
  if off = 8 then (if w = .normal then s else s.logRateWrite v)
  else if off = 0xC then s.logClearWrite w v
  else if off = 0x154 then s.logGoWrite 0 v
  else if off = 0x254 then s.logGoWrite 1 v
  else s.plainWrite a v

/-! ### The grid -/

/-- A write to a register that exists, by one who may write it, of an instance whose clock runs. -/
def State.unitWrite (s : State) (w : World) (u i off : Nat) (v : Word) : State :=
  let a := Machine.reg u i off
  match u with
  | 0x00 => s.sysWrite off v
  | 0x01 => s.drumWrite off v
  | 0x02 => s.screenWrite i off v
  | 0x04 => s.dpoWrite i off v
  | 0x06 => s.layerWrite w i off v
  | 0x07 => s.protWrite i off v
  | 0x08 => if off = 0xFFF0 then s.ownerWrite (.scaler (Fin.ofNat 24 i)) v else s.plainWrite a v
  | 0x09 => s.vinWrite i off v
  | 0x0A => if off = 4 then s.sxtTestWrite i v else s.plainWrite a v
  | 0x0B => s.msideWrite i off v
  | 0x0C => s.qosWrite i off v
  | 0x0D => if off = 0 then s.gpCtrlWrite i v else s.plainWrite a v
  | 0x0E => s.sessWrite i off v
  | 0x0F => s.tslWrite i off v
  | 0x10 => s.touchWrite i off v
  | 0x11 => s.hcWrite i off v
  | 0x12 => s.hapWrite off v
  | 0x13 => s.audWrite off v
  | 0x14 => if off = 0 then s.tdmCtrlWrite i v else s.plainWrite a v
  | 0x15 => if 0x100 ≤ off ∧ off % 0x20 = 0xC then s.bellCtrlWrite ((off - 0x100) / 0x20) v else s.plainWrite a v
  | 0x16 => if off = 0 then s.mcCtrlWrite i v else s.plainWrite a v
  | 0x17 => s.icWrite w off v
  | 0x18 => s.fltWrite off v
  | 0x19 => s.crcWrite i off v
  | 0x1A => s.logRegWrite w off v
  | 0x1B => if off = 0x34 then s.bboxCmdWrite v else s.plainWrite a v
  | 0x1C => if off = 8 then s.rtcSnapWrite v else if off = 0x1C then s.rtcSetWrite v else s.plainWrite a v
  | 0x1D => if off = 4 then s.wearThreshWrite v else if off = 8 then s.wornWrite v else if off = 0x20 then s.otpCmdWrite v else s.plainWrite a v
  | 0x1E => if off = 0x44 then s.bootCtrlWrite v else if off = 0x100 then s.flashCmdWrite v else s.plainWrite a v
  | 0x1F => if off = 4 then s.dbgNormalWrite v else s.plainWrite a v
  | 0x20 => s.pwrWrite w off v
  | _ => s.plainWrite a v

/-- R351: a write the normal world may not make. TX_MASK of a protected TDM port stays, and RX_MASK beside it is written
(R326; log entry 47). -/
def State.deniedWrite (s : State) (u i off : Nat) (v : Word) : State :=
  if u = 0x14 ∧ off = 8 ∧ !s.isGated u i then (s.set (Reg.TDM_MASK_RX_MASK i) (getBits v 16 16)).denyWrite else s.denyWrite

/-- A 32-bit write by a world to an aligned place of the register space, in the block of an instance that exists. -/
def State.regWrite (s : State) (w : World) (a : Nat) (v : Word) : State :=
  let u := gridUnit a
  let i := gridInst a
  let off := gridOff a
  if !gridMapped a then s
  else if w = .normal ∧ (s.regDenied u i off || (u == 0x14 && off == 8 && s.tdmSecure i && !s.ownedSecure u i)) then
    (if s.ownedSecure u i && u == 0x14 then s.denyWrite else s.deniedWrite u i off v)
  else if s.isGated u i then s
  else s.unitWrite w u i off v

end Sys2Proof.Machine
end

