-- ==== Sys2Proof/Machine/RegView.lean ====
section
/-! DEFINITION. What a 32-bit read of the register grid returns: the value held, with the fields the tables call live
(R6, R7, R36, R111, R185, R193, R205, R230, R268, R325, R348, R349, R351, R355, R375, R398, R432). -/

namespace Sys2Proof.Machine

/-- HARB_STATUS of a port (R193). -/
def State.harbStatus (s : State) (p : Nat) : Word :=
  match s.portScreen p with
  | none => (match (s.port p).forced with | some _ => 0x20A | none => 0)
  | some n =>
    match s.whole n with
    | .harbour r _ => BitVec.ofNat 32 (0x200 + r)
    | .blank => 0
    | .none =>
      let line := s.get (Reg.SCREEN_STATUS_LINE n)
      let rs := (s.liveRects n).filterMap fun k => (s.rectReason n k line).map fun (c : RectCause) => c.reason
      if rs.isEmpty then 0 else BitVec.ofNat 32 (0x100 + rs.foldl max 0)

/-- The WAIT code of a protected layer's pending commit (R172). -/
def State.protWait (s : State) (n : Nat) : Nat :=
  if !s.protPending n then 0
  else if !s.running n then 5
  else if (s.prot n).loading then 4
  else match (s.prot n).sched with
    | some f => if frameLater f ((s.frame n + 1) % 2 ^ 32) then 2 else 1
    | none => 1

/-- The rectangles of a protected layer that show the harbour image, each with its reason. -/
def State.harbouring (s : State) (n : Nat) : List (Nat × Nat) :=
  (s.liveRects n).filterMap fun k =>
    (s.rectReason n k (s.get (Reg.SCREEN_STATUS_LINE n))).map fun (c : RectCause) => (k, c.reason)

/-- PROT_n_STATUS with HARBOUR and REASON live. -/
def State.protStatus (s : State) (n : Nat) : Word :=
  let hs := s.harbouring n
  let w := setBits (s.reg (Reg.PROT_STATUS n)) 8 4 ((hs.map fun h => 2 ^ h.1).sum)
  setBits w 16 8 (match hs with | h :: _ => h.2 | [] => 0)

/-- CMP_STATUS of a port with SOURCE live: the harbour image where a rectangle shows it (log entry 48). -/
def State.cmpStatus (s : State) (p : Nat) : Word :=
  let w := s.reg (Reg.DPO_CMP_STATUS p)
  match s.portScreen p with
  | none => w
  | some n => setBits w 0 2 (if !(s.harbouring n).isEmpty then 3 else (s.scr n).mode)

/-- HIT_OWNER of a probe (R205): outside, and without a map, the entry is NONE. -/
def State.hitOwner (s : State) (n x : Nat) : Word :=
  match (s.scr n).hit with
  | none => 0x300
  | some m =>
    let f := m.frame % 2 ^ 22 * 2 ^ 10
    match m.entry (s.get (Reg.SCREEN_HIT_PROBE_TILE_X n x)) (s.get (Reg.SCREEN_HIT_PROBE_TILE_Y n x)) with
    | .outside => BitVec.ofNat 32 (f + 0x300)
    | .none => BitVec.ofNat 32 (f + 0x100)
    | .session k => BitVec.ofNat 32 (f + k)

/-- BL_DATA of an engine for the pad of BL_INDEX (R268, R270, R275 to R277). -/
def State.blData (s : State) (n : Nat) : Word :=
  let t := s.tch n
  let p := s.get (Reg.TOUCH_BL_INDEX_PAD n)
  BitVec.ofNat 32 (b2n (t.held.any (·.1 == p)) * 2 ^ 31 + b2n (t.obstructed.any (·.pads.contains p)) * 2 ^ 30
    + b2n (t.frozen.contains p) * 2 ^ 29 + b2n (t.anti.any (·.1 == p)) * 2 ^ 28 + (sget (fun _ => 0) t.base p) % 2 ^ 24)

/-- FLT_0_STATUS with CLASS_SET live. -/
def State.fltStatus (s : State) : Word :=
  let set_ := (List.range 4).filter fun c => (List.range 448).any fun k =>
    s.bit (Reg.FLT_IN_STATUS_CAUSE k) && s.faultClass k == c
  setBits (s.reg Reg.FLT_STATUS) 20 4 ((set_.map fun c => 2 ^ c).sum)

/-- A source's register as a world reads it (R347). -/
def State.sourceView (s : State) (w : World) (k : Nat) : Word :=
  if s.sourceWorld k = w then setBits (s.reg (Reg.IC_SRC k)) 30 1 (b2n (s.sourceSecure k)) else 0

/-- SESS_n_STATUS: ATTACHED is live, and of a guest session follows its link (R52). -/
def State.sessStatus (s : State) (n : Nat) : Word :=
  let w := s.reg (Reg.SESS_STATUS n)
  if n ≤ 1 then w else setBits w 0 1 (b2n (s.attached n && s.bit (Reg.GP_STATUS_LINK_UP (s.get (Reg.SESS_CTRL_PORT n)))))

/-- A read of IC_0. -/
def State.icView (s : State) (w : World) (off : Nat) : Word :=
  if off < 0x800 then s.sourceView w (off / 4)
  else if 0x1000 ≤ off then
    let c := (off - 0x1000) / 0x40
    let x := off % 0x40 / 0x10
    if w ≠ contextWorld x then 0
    else if off % 0x10 = 4 then BitVec.ofNat 32 (s.topSource c x)
    else s.reg (Machine.reg 0x17 0 off)
  else s.reg (Machine.reg 0x17 0 off)

/-- A read of LOG_0: the read windows show the records (R432). -/
def State.logView (s : State) (off : Nat) : Word :=
  if 0x104 ≤ off ∧ off ≤ 0x120 then s.logRead (s.get (Reg.LOG_RD_SEQ_SEQ 0)) ((off - 0x104) / 4)
  else if 0x204 ≤ off ∧ off ≤ 0x220 then s.logRead (s.get (Reg.LOG_RD_SEQ_SEQ 1)) ((off - 0x204) / 4)
  else s.reg (Machine.reg 0x1A 0 off)

/-- A read of SCREEN_n. -/
def State.screenView (s : State) (n off : Nat) : Word :=
  if off = 0x214 then s.hitOwner n 0
  else if off = 0x21C then s.hitOwner n 1
  else if 0x1000 ≤ off ∧ off < 0x7000 then
    s.reg (s.lutAddr n ((off - 0x1000) % 0x3000 / 0x1000) (off % 0x1000 / 4) (decide (0x4000 ≤ off)))
  else s.reg (Machine.reg 0x02 n off)

/-- A read of FLT_0: LIVE is live. -/
def State.fltView (s : State) (off : Nat) : Word :=
  if off = 4 then s.fltStatus
  else if 0x1000 ≤ off ∧ off % 8 = 4 then
    setBits (s.reg (Machine.reg 0x18 0 off)) 0 1 (b2n (s.faultLive ((off - 0x1000) / 8)))
  else s.reg (Machine.reg 0x18 0 off)

/-- A read of a register that exists, by one who may read it, of an instance whose clock runs. -/
def State.unitView (s : State) (w : World) (u i off : Nat) : Word :=
  let held := s.reg (Machine.reg u i off)
  match u with
  | 0x00 => if off = 0 ∧ s.factory then setBits held 12 4 0 else held
  | 0x02 => s.screenView i off
  | 0x04 => if off = 0x110 then s.harbStatus i else if off = 0x120 then s.cmpStatus i else held
  | 0x06 => if off < 0x80 then s.layGuestView i off else held
  | 0x07 => if off = 0xA4 then s.protStatus i else if off = 0x98 then setBits held 12 4 (s.protWait i) else held
  | 0x0B => if 0x200 ≤ off ∧ off < 0x300 ∧ i ≠ 0 then 0 else held
  | 0x0C => if off = 4 then setBits held 0 2 (s.portUrgency i) else held
  | 0x0E => if off < 0x1000 then s.pageView i off else if off = 0x1004 then s.sessStatus i else held
  | 0x10 =>
    if off = 0x7C then s.blData i
    else if off = 0x80 then BitVec.ofNat 32 (sget (fun _ => 0) (s.tch i).counts (s.get (Reg.TOUCH_BL_INDEX_PAD i)))
    else held
  | 0x14 => if off = 8 ∧ w = .normal ∧ s.tdmSecure i then held &&& 0xFFFF0000 else held
  | 0x13 => if 0x4000 ≤ off ∧ off < 0x7000 then s.nodeLive ((off - 0x4000) / 0x100) (off % 0x100 / 4) else held
  | 0x17 => s.icView w off
  | 0x18 => s.fltView off
  | 0x1A => s.logView off
  | 0x1E => if off = 0x48 then BitVec.ofNat 32 s.bootMs else held
  | _ => held

/-- R7: the write-only bits of a register read 0. -/
def woMask (a : Nat) : Word := match rowAt a with | some (r, _) => r.wo | none => 0

/-- What a 32-bit read by a world of an aligned place of the register space returns. -/
def State.regView (s : State) (w : World) (a : Nat) : Word :=
  let u := gridUnit a
  let i := gridInst a
  let off := gridOff a
  if !gridMapped a then 0
  else if w = .normal ∧ s.regDenied u i off then 0
  else if s.isGated u i then 0
  else s.unitView w u i off &&& ~~~woMask a

/-- R6, R109: what a read of the register space does beside returning its value. -/
def State.regReadEffect (s : State) (w : World) (a : Nat) : State :=
  if gridUnit a = 0x0E ∧ gridOff a < 0x1000 ∧ !(w = .normal ∧ gridInst a = 0) then s.pageReadEffect (gridInst a) (gridOff a)
  else s

end Sys2Proof.Machine
end

