-- ==== Sys2Proof/Machine/Fabric.lean ====
section
/-! DEFINITION. The fabric: accesses to registers of any width, reads and writes of the 40-bit address map, and where they
wait (R3, R4, R33 to R36, R213, R216 to R218, R236, R240, R243, R335, R400, R478). -/

namespace Sys2Proof.Machine

/-! ### Who asks (R332) -/

/-- R332, R350: a world that one of some instances of a unit carries: the one named, where one of them is owned by it. -/
def State.sharedWorld (s : State) (unit : Nat) (is : List Nat) (w : World) : World :=
  if is.any (fun i => s.ownerWorld unit i == w) then w else s.ownerWorld unit (is.headD 0)

/-- R332: the world a requester's transactions carry: a core's world bit; the normal world for pipes, VIN receivers and guest ports;
the secure world for sextants; the owner world of its unit for the others. A port that several instances share (26, 32 to 35)
carries the world the command names, where an instance behind it is owned by that world (log entry 84); the debug port carries the
secure world only under SNI or SI (R357). -/
def State.worldOf (s : State) (m : Master) : World :=
  match m.kind with
  | .guest => .normal
  | .debug => if m.world = .secure && s.nonInvasive .secure then .secure else .normal
  | .core => s.coreWorld m.id
  | .fabric =>
    let p := m.id.val
    if p ≤ 9 then .normal else if p ≤ 11 then .secure else if p ≤ 23 then .normal
    else if p = 24 then s.ownerWorld 0x13 0 else if p = 25 then s.ownerWorld 0x12 0
    else if 27 ≤ p ∧ p ≤ 31 then s.coreWorld (p - 27)
    else if p = 26 then s.sharedWorld 0x10 (List.range 8) m.world
    else if p = 32 then s.sharedWorld 0x19 (List.range 9) m.world
    else if p = 33 then s.sharedWorld 0x19 (List.range' 9 9) m.world
    else if p = 36 ∨ p = 38 then s.ownerWorld 0x0B 0 else if p = 37 ∨ p = 39 then s.ownerWorld 0x0B 1
    else m.world

/-- R332: a requester with the world it carries. -/
def State.carrier (s : State) (m : Master) : Master := { m with world := s.worldOf m }

/-- R357: whether a requester may make an access at all: the debug port may under the enables of the world it carries. -/
def State.mayAccess (s : State) (m : Master) (write : Bool) : Bool :=
  m.kind != .debug || (if write then s.invasive m.world else s.nonInvasive m.world)

/-! ### Registers -/

/-- The next number for a request, with the replies of the latest command gone. -/
def State.newReq (s : State) : Nat × State := (s.nextReq, { s with nextReq := s.nextReq + 1, replies := [] })

/-- Whether a requester reaches the register grid: cores and the debug port do (R36; log entry 49). -/
def gridRequester (m : Master) : Bool := m.kind == .core || m.kind == .debug

/-- A write of some width to the register grid. -/
def State.gridWrite (s : State) (m : Master) (off : Nat) (bs : List Byte) : State :=
  let (id, s) := s.newReq
  let a := 0x1000000000 + off
  if !gridRequester m || !blockExists off then
    (s.noteDecode { addr := a, type := 5, master := m }).reply { id := id, status := .error }
  else match wordSplit off bs.length with
    | none => (s.noteRegAccess { addr := a, type := 5, master := m }).reply { id := id }
    | some ws => (s.each ws fun x t => t.regWrite m.world x (BitVec.ofNat 32 (leAt bs (x - off) 4))).reply { id := id }

/-- A read of some width of the register grid. -/
def State.gridRead (s : State) (m : Master) (off len : Nat) : State :=
  let (id, s) := s.newReq
  let a := 0x1000000000 + off
  if !gridRequester m || !blockExists off then
    (s.noteDecode { addr := a, type := 4, master := m }).reply { id := id, status := .error, data := List.replicate len 0 }
  else match wordSplit off len with
    | none => (s.noteRegAccess { addr := a, type := 4, master := m }).reply { id := id, data := List.replicate len 0 }
    | some ws =>
      let bs := ws.flatMap fun x => leBytes 4 (s.regView m.world x).toNat
      (s.each ws fun x t => t.regReadEffect m.world x).reply { id := id, data := bs }

/-- R357: an access that the debug enables do not allow has no effect and answers 0 (log entry 51). -/
def State.refuseDebug (s : State) (len : Nat) : State :=
  let (id, s) := s.newReq
  s.reply { id := id, data := List.replicate len 0 }

/-- REGISTER_WRITE. -/
def execRegisterWrite (t : RegTarget) (bytes : List Byte) (s : State) : Host.Outcome State Fault Refusal :=
  .next (match t with
    | .grid m off =>
      if s.mayAccess (s.carrier m) true then s.gridWrite (s.carrier m) off.toNat bytes else s.refuseDebug 0
    | .bar b => s.barAccess b true bytes 0)

/-! ### Memory -/

/-- The core a requester is, if it is one: by name, or by its fabric port (R216). -/
def masterCore (m : Master) : Option Nat :=
  match m.kind with
  | .core => if m.id.val < 5 then some m.id else none
  | .fabric => if 27 ≤ m.id.val ∧ m.id.val ≤ 31 then some (m.id.val - 27) else none
  | _ => none

/-- R48, R335: a transaction of the normal world to secure memory is refused as its requester is: a core, by name or by its fabric
port, and the debug port; a guest; or a unit of the data plane. -/
def State.refuseSecure (s : State) (id a len : Nat) (m : Master) (write : Bool) : State :=
  match m.kind, masterCore m with
  | .guest, _ => s.guestRefuse m.session id write
  | .fabric, none => if write then s.reply { id := id } else s.reply { id := id, status := .poison }
  | _, _ => (s.noteSecmem { addr := a, type := if write then 2 else 1, master := m }).reply
      { id := id, status := .error, data := if write then [] else List.replicate len 0 }

/-- Whether a read of memory is answered with poison at once: its side, or the side that serves it, is out of service (R236, R243). -/
def State.readPoisoned (s : State) (a len : Nat) : Bool :=
  match region a with
  | .side n _ => s.sideDown n
  | .mirror off => (List.range len).any fun i => (s.servingSide (off + i)).isNone
  | _ => false

/-- A read of memory by a requester. -/
def State.memRead (s : State) (m : Master) (a len : Nat) : State :=
  if !s.installed a len then
    let (id, s) := s.newReq
    (s.noteDecode { addr := a, type := 1, master := m }).reply { id := id, status := .error, data := List.replicate len 0 }
  else if m.world = .normal ∧ s.secureMem a len then
    let (id, s) := s.newReq
    s.refuseSecure id a len m false
  else if s.readPoisoned a len then
    let (id, s) := s.newReq
    s.reply { id := id, status := .poison }
  else
    match region a with
    | .side _ _ | .mirror _ => ({ s with replies := [] }).queueRead m a len none
    | _ =>
      let bs := (s.readBytes m.world a len).getD []
      let (id, s) := s.newReq
      s.reply { id := id, data := bs }

/-- R334: the TLB entry of a core's access made below machine mode under Sv39, in the world's copy of satp; the virtual page is the
program's: a free value (log entry 90). -/
def State.tagPage (s : State) (c : Nat) (w : World) : State :=
  if (s.core c).priv < 3 ∧ get64 ((s.core c).csr w 0x180) 60 4 = 8 then
    let (v, t) := s.draw
    t.tagMake .tlb c (v % 2 ^ 27) w
  else s

/-- R334: the lines a core's read of memory brings into its L1 and the shared L2, tagged with its world, where the read is
performed. -/
def State.tagLines (s : State) (m : Master) (a len : Nat) : State :=
  match masterCore m with
  | none => s
  | some c =>
    if len = 0 || !s.installed a len || (decide (m.world = .normal) && s.secureMem a len) || s.readPoisoned a len then s
    else (s.tagPage c m.world).each (List.range ((a + len - 1) / 64 - a / 64 + 1)) fun i t =>
      (t.tagMake .l1 c (a / 64 + i) m.world).tagMake .l2 5 (a / 64 + i) m.world

/-- FABRIC_READ. -/
def execFabricRead (t : ReadTarget) (len : Nat) (s : State) : Host.Outcome State Fault Refusal :=
  .next (match t with
    | .addr m a =>
      if !s.mayAccess (s.carrier m) false then s.refuseDebug len
      else match region a.toNat with
      | .regs off => s.gridRead (s.carrier m) off len
      | _ => (s.tagLines (s.carrier m) a.toNat len).memRead (s.carrier m) a.toNat len
    | .bar b => s.barAccess b false [] len)

/-- A write of memory by a requester. -/
def State.memWrite (s : State) (m : Master) (a : Nat) (bs : List Byte) : State :=
  let (id, s) := s.newReq
  let r := s.writeMem m.world a bs
  let t := r.2
  match r.1 with
  | .ok => (t.queueWrite m a bs.length).reply { id := id }
  | .dropped => (t.count (Reg.QOS_STATUS_DROPPED (requesterPort m true))).reply { id := id }
  | .denied => t.refuseSecure id a bs.length m true
  | _ => (t.noteDecode { addr := a, type := 2, master := m }).reply { id := id, status := .error }

/-- FABRIC_WRITE. -/
def execFabricWrite (m : Master) (a : BitVec 40) (bytes : List Byte) (s : State) : Host.Outcome State Fault Refusal :=
  .next (if !s.mayAccess (s.carrier m) true then s.refuseDebug 0 else match region a.toNat with
    | .regs off => s.gridWrite (s.carrier m) off bytes
    | _ => s.memWrite (s.carrier m) a.toNat bytes)

end Sys2Proof.Machine
end

