-- ==== Sys2Proof/Machine/BootSeq.lean ====
section
/-! DEFINITION. The start sequence: reset release, the boot ROM's stages, register scripts, and the end of training and
initialisation, after which the ROM goes on (R183, R329, R345, R359 to R386, R437, R443 to R445, R451, R452). -/

namespace Sys2Proof.Machine

/-! ### Self-test of the arrays (R452) -/

/-- The array group that holds a unit's instance; HAP_0's holds the haptic channels (R484). -/
def groupOf (unit inst : Nat) : Option Nat :=
  if unit = 0x11 then some 68 else firstBelow 96 fun g => let (u, i, span) := arrayGroup g; u == unit && decide (i ≤ inst ∧ inst ≤ i + span)

/-- R452: what becomes of the unit of an unrepairable macro. -/
def State.macroDead (s : State) (m : Nat) : State :=
  let s := s.set (Reg.WEAR_MACRO_UNREPAIRABLE m) 1
  let u := s.get (Reg.WEAR_MACRO_UNIT m)
  let i := s.get (Reg.WEAR_MACRO_INSTANCE m)
  if u = 0x03 then s.setPipeState i 3
  else if u = 0x0A then (s.sextantOut i (s.get (Reg.SXT_STATUS_STATE i))).noSextant
  else if u = 0x16 then s.set (Reg.MC_STATUS_STATE i) 2
  else match groupOf u i with
    | some g => (s.raiseFault (352 + g)).arrayAction g true
    | none => s

/-- R452: the hard repairs of a macro are those of the fuses and those burnt since (R453). -/
def State.macroHard (s : State) (m rows cols : Nat) : State :=
  (s.set (Reg.WEAR_MACRO_HARD_ROWS m) (s.get (Reg.WEAR_MACRO_HARD_ROWS m) + rows)).set (Reg.WEAR_MACRO_HARD_COLS m)
    (s.get (Reg.WEAR_MACRO_HARD_COLS m) + cols)

/-- R452: self-test has found failing rows and columns in a macro: the spares that remain of 4 rows and 2 columns take
them. -/
def State.macroTest (s : State) (f : MacroFail) : State :=
  let m := f.index.val
  let r := 4 - s.get (Reg.WEAR_MACRO_HARD_ROWS m)
  let c := 2 - s.get (Reg.WEAR_MACRO_HARD_COLS m)
  let s := (s.set (Reg.WEAR_MACRO_SOFT_ROWS m) (min f.rows r)).set (Reg.WEAR_MACRO_SOFT_COLS m) (min f.cols c)
  if r < f.rows ∨ c < f.cols then s.macroDead m else s

/-- R452: built-in self-test. -/
def State.selfTests (s : State) (fails : List MacroFail) : State :=
  let s := s.set Reg.WEAR_OTP_STATUS_USED s.wear.used
  let s := s.each s.wear.burnt fun p t => t.macroHard p.1 p.2.1 p.2.2
  (s.each fails fun f t => t.macroTest f).inOrder s

/-! ### Step 4: the start count and the START record (R377 to R380, R443, R451) -/

/-- R377 to R380: COUNT is read, or restored; an excuse is applied; ATTEMPT is recorded and COUNT goes up. -/
def State.startCount (s : State) : State :=
  let cause := s.get Reg.BOOT_AON_RESET_CAUSE
  let restored := cause == 1 && s.bbox.known
  let count := if restored then journalCount s.journal else s.get Reg.BOOT_AON_COUNT
  let excused := s.bit Reg.BOOT_AON_WARNED && (cause == 1 || cause == 2) && !s.boot.wasAnchor
  let attempt := min 3 (if excused then count - 1 else count)
  let anchor := attempt == 3
  let s := (s.set Reg.BOOT_AON_WARNED 0).set Reg.BOOT_AON_RESTORED (b2n restored)
  let s := (s.set Reg.BOOT_STATUS_ATTEMPT attempt).set Reg.BOOT_AON_COUNT (min 3 (attempt + 1))
  let s := { s.set Reg.BOOT_STATUS_ANCHOR (b2n anchor) with boot := { s.boot with wasAnchor := anchor, vaonOn := false } }
  if !s.bbox.known then s
  else s.bboxLocate.bboxQueueRecord 1 1 [BitVec.ofNat 8 (min 3 (attempt + 1)), BitVec.ofNat 8 attempt, BitVec.ofNat 8 cause,
    BitVec.ofNat 8 (b2n restored + 2 * b2n excused + 4 * b2n anchor)]

/-- R451: the worn marks of the latest complete ledger set; the journal as it was when the head was located. -/
def State.wornRestore (s : State) (j : List (Nat × List Byte)) : State :=
  match ledgerWorn j with
  | some m => s.wornWrite (BitVec.ofNat 32 m)
  | none => s

/-- R369: the newer of slots A and B, 0 or 1: the one whose descriptor passes step 1 and whose SLOT_SEQ is later. -/
def State.newerSlot (s : State) : Nat :=
  let seq := fun k => match s.slotDesc k with
    | some d => if descOk k d then some (leAt d 8 4) else none
    | none => none
  match seq 0, seq 1 with
  | some a, some b => if frameLater b a then 1 else 0
  | none, some _ => 1
  | _, none => 0

/-- The order of slots for an ATTEMPT (R369). -/
def State.slotOrder (s : State) : List Nat :=
  let n := s.newerSlot
  match s.get Reg.BOOT_STATUS_ATTEMPT with
  | 0 => [n, 1 - n, 2]
  | 1 => [1 - n, n, 2]
  | 2 => [2, n, 1 - n]
  | _ => [2]

/-- SLOT_SEQ of the descriptors that are read: a slot's own when it is tried, and A's and B's for the order. -/
def State.noteSeq (s : State) (k : Nat) : State :=
  match s.slotDesc k with
  | some d => s.set (Reg.BOOT_SLOT_SEQ_SEQ k) (leAt d 8 4)
  | none => s

/-! ### Slots (R367, R373) -/

/-- R367: a slot fails: its RESULT says why, and the management SRAM it had loaded is cleared. -/
def State.slotFailed (s : State) (k : Nat) (f : SlotFault) : State :=
  let table := (s.slotTable k).take f.loaded
  let s := (s.set (Reg.BOOT_SLOT_RESULT_RESULT k) 2).set (Reg.BOOT_SLOT_RESULT_REASON k) f.reason
  let s := (s.set (Reg.BOOT_SLOT_RESULT_SECTION k) f.section_).set Reg.BOOT_STATUS_SLOT 0
  s.each table fun e t =>
    match region (secLoad e) with
    | .sram off => if secPlaced e then t.putSram off (List.replicate (secLength e) 0) else t
    | _ => t

/-- R381: the NORMAL_IMAGE is not loaded in anchor mode. -/
def State.secLoaded (s : State) (e : List Byte) : Bool :=
  secPlaced e && !(secType e == 2 && s.bit Reg.BOOT_STATUS_ANCHOR)

/-- R373, step 5: a slot has passed: its SRAM sections are loaded, and a HARBOUR payload goes to every port's store. -/
def State.slotPassed (s : State) (k : Nat) : State :=
  let s := ((s.set (Reg.BOOT_SLOT_RESULT_RESULT k) 1).set (Reg.BOOT_SLOT_RESULT_REASON k) 0).set
    (Reg.BOOT_SLOT_RESULT_SECTION k) 0
  let s := s.set Reg.BOOT_STATUS_SLOT (k + 1)
  s.each (s.slotTable k) fun e t =>
    let bs := (t.payload k e).getD []
    if secType e = 5 then
      t.each (List.range 8) fun p u => u.each (List.range 8192) fun i v =>
        v.setReg (Reg.DPO_HARB_PAT p i) (BitVec.ofNat 32 (leAt bs (4 * i) 4))
    else match region (secLoad e) with
      | .sram off => if t.secLoaded e then t.putSram off bs else t
      | _ => t

/-- The slot that runs; 0 for A. -/
def State.runSlot (s : State) : Nat := s.get Reg.BOOT_STATUS_SLOT - 1

/-! ### Stage 6: the jump (R373, R382) -/

/-- R382: GP_0 and session 255 for the maintenance host; whether window 0 was accepted. -/
def State.anchorSession (s : State) : Bool × State :=
  let gp := setBits (setBits (s.reg (Reg.GP_CTRL 0)) 16 5 25) 8 4 0 ||| 0x3
  let s := (s.gpCtrlWrite 0 gp).gpCtrlWrite 0 (withBit gp 31)
  let dev : Word := if s.sideMode 0 = 3 then 0 else 0x2000
  let ctrl : Word := 0x11
  let s := ((s.winWrite 255 0 .dev dev).winWrite 255 0 .goff 0).winWrite 255 0 .ctrl 0x10010
  let s := ((s.sessCtrlWrite 255 ctrl).quotaWrite 255 64).sessCtrlWrite 255 (withBit ctrl 31)
  (s.bit (Reg.SESS_WIN_CTRL_VALID 255 0), s)

/-- R372: MC_0 jumps to an address, in M mode. -/
def State.jumpTo (s : State) (a : Nat) : State := s.setCore 0 { s.core 0 with pc := BitVec.ofNat 64 a, priv := 3 }

/-- R373: the digest and the entries are recorded and MC_0 jumps to the secure image's start entry in machine mode. A start that a
script has declared underway shows so from then on (R375). -/
def State.stage6 (s : State) : State :=
  let s := s.setStage 6
  let table := s.slotTable s.runSlot
  let image := (table.find? fun e => secType e == 1).getD []
  let normal := (table.find? fun e => secType e == 2 && s.secLoaded e).map secLoad
  let s := s.each (List.range 12) fun w t =>
    t.setReg (Reg.BOOT_SEC_DIGEST w) (BitVec.ofNat 32 (leAt (secDigest image) (4 * w) 4))
  let s := s.setReg Reg.BOOT_NORMAL_ENTRY (BitVec.ofNat 32 (normal.getD 0 / 256))
  let s := { s with boot := { s.boot with image := some (secLoad image, secLength image) } }
  if !s.bit Reg.BOOT_STATUS_ANCHOR then (s.jumpTo (secLoad image)).when (s.bit Reg.BOOT_STATUS_UNDERWAY) (·.set Reg.BOOT_STATUS_STAGE 7)
  else
    let r := s.anchorSession
    if r.1 then (r.2.jumpTo (secLoad image)).setStage 8 else r.2.noChart

/-! ### Stages 4 and 5 (R373, R385, R386) -/

/-- Whether one of some flash offsets lies in a range. -/
def anyIn (l : List Nat) (off len : Nat) : Bool := l.any fun d => decide (off ≤ d ∧ d < off + len)

/-- R365: whether a section in memory lies in an installed, usable range under R33 and R34, with the mirror table as the stage-0
scripts have left it. -/
def State.secFits (s : State) (e : List Byte) : Bool := s.protRange (secLoad e) (secLength e)

/-- R373: the sections in memory are read a second time, checked and written to their LOAD. One whose range is not usable fails the
slot under LAYOUT: the mirror table is there only now (R365; DEDUCED, log entry 92). -/
def State.loadMemory (s : State) (k n : Nat) : Nat → List (List Byte) → Option SlotFault × State
  | _, [] => (none, s)
  | i, e :: es =>
    if !s.secLoaded e || inSram (secLoad e) (secLength e) then s.loadMemory k n (i + 1) es
    else
      let off := s.slotOff k + secOffset e
      let bs := s.flashBytes off (secLength e)
      if !s.secFits e then (some { reason := 2, section_ := i, loaded := n }, s)
      else if anyIn s.boot.deadAgain off (secLength e) then (some { reason := 7, loaded := n }, s)
      else if anyIn s.boot.badAgain off (secLength e) || sectionCrc k i e bs != leAt e 24 4 then
        (some { reason := 8, section_ := i, loaded := n }, s)
      else (s.dmaWrite .secure bootPort (secLoad e) bs).loadMemory k n (i + 1) es

/-- GEN of a half of the baseline store at a flash offset, where its header is valid (R385). -/
def State.halfGen (s : State) (off : Nat) : Option Nat :=
  let h := s.flashBytes off 16
  if h.take 4 == [0x47, 0x44, 0x42, 0x4C] && zeroAt h 9 3
      && crc32c (leBytes 8 off ++ (h.drop 4).take 4 ++ [0, 0, 0, 0] ++ h.take 12) == leAt h 12 4 then some (leAt h 4 4)
  else none

/-- R386: the half of a group whose images are copied. -/
def State.groupHalf (s : State) (g : Nat) : Option Nat :=
  let a := s.hdr 52 4 + 0x200000 * g
  let b := a + 0x100000
  match s.halfGen a, s.halfGen b with
  | some x, some y => some (if frameLater y x then b else a)
  | some _, none => some a
  | none, some _ => some b
  | none, none => none

/-- R386: the images of the valid half of each group are copied to the staging area. -/
def State.stageBaselines (s : State) : State :=
  s.each [0, 1] fun g t =>
    match t.groupHalf g with
    | none => t
    | some h => t.each ((List.range 4).filter (bitOf (byteAt (t.flashBytes h 16) 8))) fun k u =>
        u.dmaWrite .secure bootPort (u.hdr 60 4 * 256 + 0x30000 * (4 * g + k)) (u.flashBytes (h + 0x10000 + 0x30000 * k) 0x30000)

/-- Stage 5: the stage-1 scripts of the slot wait to run; with none the ROM jumps. -/
def State.stage5 (s : State) : State :=
  let s := s.setStage 5
  let cs := s.slotScript s.runSlot 1
  if cs.isEmpty then s.stage6 else { s with boot := { s.boot with script := cs } }

/-- Stage 4: memory sections and baselines. A section that fails fails the slot, and the ROM goes on with `next`. -/
def State.stage4 (s : State) (next : State → State) : State :=
  let s := s.setStage 4
  let k := s.runSlot
  let r := s.loadMemory k (s.slotSections k) 0 (s.slotTable k)
  match r.1 with
  | some f => next (r.2.slotFailed k f)
  | none => r.2.stageBaselines.stage5

/-! ### Stages 1 to 3 (R372, R373, R445) -/

/-- Whether a side has ended its start, in service or not. -/
def State.sideSettled (s : State) (n : Nat) : Bool := s.sideMode n == 3 || s.sideMode n == 4 || s.sideMode n == 5

/-- R445: the first four pending repairs of a side go into MSIDE_n_PPR_k. -/
def State.pprLoad (s : State) (n : Nat) : State :=
  s.each (((pprPending s.journal).filter fun r => r.1 == n).take 4).zipIdx fun p t =>
    let (_, ch, bank, row) := p.1
    let t := ((t.setReg (Reg.MSIDE_PPR n p.2) 0).set (Reg.MSIDE_PPR_VALID n p.2) 1).set (Reg.MSIDE_PPR_CHANNEL n p.2) ch
    (t.set (Reg.MSIDE_PPR_BANK n p.2) bank).set (Reg.MSIDE_PPR_ROW n p.2) row

/-- Stage 3: the sides that are off take their repairs and train; where none is, the ROM goes on. -/
def State.stage3 (s : State) (next : State → State) : State :=
  let s := s.setStage 3
  let s := s.each [0, 1] fun n t =>
    if t.sideMode n = 0 then (t.pprLoad n).set (Reg.MSIDE_STATUS_STATE n) 1 else t
  if s.sideSettled 0 && s.sideSettled 1 then s.stage4 next else s

/-- Stage 2: the stage-0 scripts of the slot wait to run; with none the ROM goes on. -/
def State.stage2 (s : State) (next : State → State) : State :=
  let s := s.setStage 2
  let cs := s.slotScript s.runSlot 0
  if cs.isEmpty then s.stage3 next else { s with boot := { s.boot with script := cs } }

/-- Stage 1: the slots that are left of the order are verified; the first that passes runs (R367, R369, R370). -/
def State.startSlots (s : State) : List Nat → State
  | [] => s.noChart
  | k :: ks =>
    let s := (s.setStage 1).noteSeq k
    match s.slotFault k with
    | some f => (s.slotFailed k f).startSlots ks
    | none => ({ s.slotPassed k with boot := { s.boot with order := ks } }).stage2 fun t => t.startSlots ks

/-- The ROM goes on with the slots of the order that are left. -/
def State.nextSlot (s : State) : State := s.startSlots s.boot.order

/-! ### Reset release -/

/-- The facts of a start enter the state; where the core supplies were powered on, the drumbeat number is clear (R25). -/
def State.startFacts (s : State) (f : StartFacts) : State :=
  let s := { s with released := true, resetLow := false, clock := 0, fittedA := f.sideA, fittedB := f.sideB,
                    jtag := { s.jtag with scan := 0 },
                    boot := { s.boot with dead := f.dead.map BitVec.toNat, deadAgain := f.deadAgain.map BitVec.toNat,
                                          badAgain := f.badAgain.map BitVec.toNat } }
  let s := if f.corePower then s.drumClear else s
  if f.corePower && !s.boot.vaonOn then s.set Reg.BOOT_AON_RESET_CAUSE 2 else s

/-- R373, steps 4 and 5: the boot ROM on MC_0. -/
def State.bootRom (s : State) : State :=
  let s := (s.sxtTestWrite 0 1).sxtTestWrite 1 1
  let s := s.chooseHeader
  let j := if s.bbox.known then s.journal else []
  let s := s.startCount.wornRestore j
  if !s.bbox.known then s.noChart
  else
    let order := s.slotOrder
    (s.each (if order.length = 1 then [] else [0, 1]) fun k t => t.noteSeq k).startSlots order

/-- R373: reset is released. A FAILED MC_0 runs no ROM (R330, R452). -/
def State.resetRelease (s : State) (f : StartFacts) : State :=
  if s.released then s
  else
    let s := (s.startFacts f).selfTests f.fails
    if s.coreRuns 0 then s.bootRom else s

/-- RESET_RELEASE. -/
def execResetRelease (f : StartFacts) (s : State) : Host.Outcome State Fault Refusal := .next (s.resetRelease f)

/-! ### Training and initialisation end (R213, R219, R220, R246, R373) -/

/-- Once both sides have ended their start, the ROM goes on to stage 4. -/
def State.romGoOn (s : State) : State :=
  if s.boot.romStage = 3 ∧ s.coreRuns 0 ∧ s.sideSettled 0 ∧ s.sideSettled 1 then s.stage4 State.nextSlot else s

/-- One core clock with no command: the counters of the running cores advance (R333), the copy engines of a resync go on (R242), and
the ROM goes on where it waited for the sides (DESIGN CHOICE, log entry 7). -/
def State.tick (s : State) : State :=
  (({ s with clock := s.clock + 1 }.each allCores fun c t => t.coreTick c).each [0, 1] fun n t => t.copyClock n).romGoOn

/-- R443 to R445: the boot ROM appends a PPR_RESULT for each repair of a side that was attempted. -/
def State.pprRecords (s : State) (n ok : Nat) : State :=
  s.each ((List.range 4).filter fun k => s.bit (Reg.MSIDE_PPR_VALID n k)) fun k t =>
    t.bboxPut 0x11 ([BitVec.ofNat 8 n, BitVec.ofNat 8 (s.get (Reg.MSIDE_PPR_CHANNEL n k)),
      BitVec.ofNat 8 (s.get (Reg.MSIDE_PPR_BANK n k)), 0] ++ leBytes 4 (s.get (Reg.MSIDE_PPR_ROW n k))
      ++ [if bitOf ok k then 1 else 2])

/-- The end of a side's training, in the start. -/
def State.memTrainDone (s : State) (n : Nat) (lanes : List (Nat × Nat)) (verify : Bool) (ppr : Nat) (srOk : Bool) : State :=
  if !(s.sideMode n = 1 && !(s.side n).releasing) then s
  else ((s.pprRecords n ppr).trainDoneSide n lanes verify ppr srOk).romGoOn

/-- MEM_TRAIN_DONE: the passing steps of each byte lane's read and write sweeps, the verification's result, the result of
each repair, and whether every channel confirms self-refresh entry where the side freezes. -/
def execMemTrainDone (n : Side) (lanes : List (BitVec 128 × BitVec 128)) (verify : Bool) (ppr : BitVec 4)
    (srOk : Bool) (s : State) : Host.Outcome State Fault Refusal :=
  .next (s.memTrainDone n.val (lanes.map fun l => (l.1.toNat, l.2.toNat)) verify ppr.toNat srOk)

/-- MEM_INIT_DONE. -/
def execMemInitDone (n : Side) (s : State) : Host.Outcome State Fault Refusal := .next (s.initDone n.val).romGoOn

/-! ### Register scripts (R371, R372, R381) -/

/-- The command at the head of the stage's scripts, while MC_0 runs them. -/
def State.scriptHead (s : State) (op : Nat) : Option ScriptCmd :=
  if !s.coreRuns 0 then none
  else match s.boot.script with
    | c :: _ => if c.op = op then some c else none
    | [] => none

/-- The script goes on with its next command. -/
def State.scriptPop (s : State) : State := { s with boot := { s.boot with script := s.boot.script.tail } }

/-- MC_0 in the secure world, as a requester. -/
def romMaster : Master := { kind := .core, id := 0, session := 0, world := .secure }

/-- R381: whether a script write to a place of the register space is skipped in anchor mode. -/
def anchorSkips (a : Nat) : Bool :=
  let u := gridUnit a
  (decide (0x06 ≤ u ∧ u ≤ 0x09)) || u == 0x0E || (decide (0x0F ≤ u ∧ u ≤ 0x15)) || (u == 0x0D && decide (1 ≤ gridInst a))

/-- A script's write. -/
def State.romWrite (s : State) (a v : Word) : State :=
  if s.bit Reg.BOOT_STATUS_ANCHOR && anchorSkips a.toNat then s
  else s.gridWrite romMaster a.toNat (leBytes 4 v.toNat)

/-- A script's read. -/
def State.romRead (s : State) (a : Word) : Word × State :=
  let t := s.gridRead romMaster a.toNat 4
  (BitVec.ofNat 32 (leNat ((t.replies.map (·.data)).headD [])), t)

/-- SCRIPT_WRITE. -/
def execScriptWrite (s : State) : Host.Outcome State Fault Refusal :=
  .next (match s.scriptHead 1 with
    | some c => s.scriptPop.romWrite c.a c.b
    | none => s)

/-- SCRIPT_MODIFY. -/
def execScriptModify (s : State) : Host.Outcome State Fault Refusal :=
  .next (match s.scriptHead 2 with
    | some c =>
      let (old, t) := s.scriptPop.romRead c.a
      t.romWrite c.a ((old &&& ~~~c.b) ||| (c.c &&& c.b))
    | none => s)

/-- SCRIPT_POLL: the register is read; the script goes on once the value is there. -/
def execScriptPoll (s : State) : Host.Outcome State Fault Refusal :=
  .next (match s.scriptHead 3 with
    | some c =>
      let (v, t) := s.romRead c.a
      if v &&& c.b = c.c then t.scriptPop else t
    | none => s)

/-- R372: a poll times out with the value of its last read: an OPTIONAL one is logged, any other fails the start. -/
def State.pollTimeout (s : State) (c : ScriptCmd) : State :=
  let (v, t) := s.romRead c.a
  if v &&& c.b = c.c then t.scriptPop
  else if bitOf c.param 23 then t.scriptPop.logEvent 0x0005 0x1A 0 c.a.toNat c.b.toNat c.c.toNat v.toNat
  else t.startFail 2

/-- SCRIPT_POLL_TIMEOUT; a last read that finds the value ends the poll. -/
def execScriptPollTimeout (s : State) : Host.Outcome State Fault Refusal :=
  .next (match s.scriptHead 3 with
    | some c => s.pollTimeout c
    | none => s)

/-- SCRIPT_DELAY: PARAM µs have passed. -/
def execScriptDelay (s : State) : Host.Outcome State Fault Refusal :=
  .next (match s.scriptHead 4 with
    | some _ => s.scriptPop
    | none => s)

/-- The scripts of a stage are done: the ROM goes on. -/
def State.scriptsDone (s : State) : State :=
  if s.boot.romStage = 2 then s.stage3 State.nextSlot else s.stage6

/-- SCRIPT_END. -/
def execScriptEnd (s : State) : Host.Outcome State Fault Refusal :=
  .next (match s.scriptHead 5 with
    | some _ => if s.scriptPop.boot.script.isEmpty then s.scriptPop.scriptsDone else s.scriptPop
    | none => s)

end Sys2Proof.Machine
end

