-- ==== Sys2Proof/Machine/Beat.lean ====
section
/-! DEFINITION. The beat: the drumbeat number, and what each beat starts (R17, R21 to R28, R32). -/

namespace Sys2Proof.Machine

/-- R25: the drumbeat number, 64 bits, counts up. -/
def State.drumAdvance (s : State) : State :=
  let d := (s.drumbeat + 1) % 2 ^ 64
  (s.set Reg.DRUM_COUNT_HI_COUNT (d / 2 ^ 32)).set Reg.DRUM_COUNT_LO_COUNT (d % 2 ^ 32)

/-- A beat, `interval` periods of the 25 MHz reference after the beat before it: its number, DRUM_OUT (R21), and what it
starts: a scan on every panel, and an accepted start of the audio unit. -/
def State.beatAt (s : State) (interval : Nat) : State :=
  let s := { s with drum := { s.drum with interval := interval } }.drumAdvance
  let s := if s.bit Reg.DRUM_CTRL_OUT_EN then
      { s with drum := { s.drum with outPulses := s.drum.outPulses + 1 } } else s
  (s.audioBeat).each (List.range 8) fun n t => t.touchBeat n

/-- R17: a beat of the internal divider: it falls on the next ideal instant's reference edge, and the first beat after reset
starts the grid. -/
def State.beatInternal (s : State) : State :=
  match s.drum.gridBeat with
  | none => { s with drum := { s.drum with gridBeat := some 0 } }.beatAt 0
  | some k =>
    { s with drum := { s.drum with gridBeat := some (k + 1) } }.beatAt (s.drum.edgeOf (k + 1) - s.drum.edgeOf k)

/-- R17, R22: BEAT: with the internal source, and in holdover, a beat of the divider; with DRUM_IN in use, the beat of an edge
that has come. -/
def State.beat (s : State) : State :=
  if !s.bit Reg.DRUM_STATUS_ACTIVE_SOURCE then s.beatInternal
  else if s.drum.edgeDue then
    { s with drum := { s.drum with edgeDue := false, gridBeat := some 0 } }.beatAt (ceilDiv (s.drum.edgeNs + 160) 40)
  else s

/-- BEAT. -/
def execBeat (s : State) : Host.Outcome State Fault Refusal := .next s.beat

/-- R23, R24: no qualifying edge by 1.001 of the period: the beat is taken from the divider, on the first reference edge at
or after that instant; the fourth in a row enters holdover. -/
def State.drumInMissing (s : State) : State :=
  if !s.bit Reg.DRUM_STATUS_ACTIVE_SOURCE || s.drum.edgeDue then s
  else
    let d := s.drum
    let s := (s.count Reg.DRUM_STATUS_DEVIANT_EDGES)
    let s := { s with drum := { d with missed := d.missed + 1, gridBeat := some 0 } }
    let s := s.beatAt (ceilDiv (1001 * (d.int * d.den + d.num)) (1000 * d.den))
    if 4 ≤ d.missed + 1 then s.drumLost else s

/-- DRUM_IN_MISSING. -/
def execDrumInMissing (s : State) : Host.Outcome State Fault Refusal := .next s.drumInMissing

end Sys2Proof.Machine
end

