-- ==== Sys2Proof/Machine/Debug.lean ====
section
/-! DEFINITION. The JTAG port and the debug module: its instructions, the four enables, system bus access, and unlock tokens
(R356 to R358). -/

namespace Sys2Proof.Machine

/-! ### Instructions of the port (R356) -/

/-- An instruction selects a register of so many bits that captured a value. -/
def State.jtagSelect (s : State) (code width dr : Nat) : State :=
  { s with jtag := { s.jtag with ir := code, width := width, dr := dr, scan := 0 } }

/-- IDCODE. -/
def execIdcode (s : State) : Host.Outcome State Fault Refusal := .next (s.jtagSelect 0x01 32 Config.idcode.toNat)

/-- The boundary register: the spec gives neither its length nor its cells, so what it captures, and what the board test shifts into
it, are free (log entry 1). -/
def State.boundary (s : State) (code : Nat) : State :=
  let (v, t) := s.draw
  let (cells, t) := t.draw
  let t := t.jtagSelect code 0 v
  { t with jtag := { t.jtag with cells := cells } }

/-- SAMPLE/PRELOAD. -/
def execSamplePreload (s : State) : Host.Outcome State Fault Refusal := .next (s.boundary 0x02)

/-- The 1-bit register. -/
def State.bypass (s : State) (code : Nat) : State := s.jtagSelect code 1 0

/-- How boundary scan drives the pins from an instruction on. -/
def State.setScan (s : State) (k : Nat) : State := { s with jtag := { s.jtag with scan := k } }

/-- EXTEST: honoured only while RESET_N is low. -/
def execExtest (s : State) : Host.Outcome State Fault Refusal :=
  .next (if s.released || !s.resetLow then s.bypass 0x00 else (s.boundary 0x00).setScan 1)

/-- HIGHZ: it selects the 1-bit register (IEEE 1149.1), and is honoured only while RESET_N is low. -/
def execHighz (s : State) : Host.Outcome State Fault Refusal :=
  .next (if s.released || !s.resetLow then s.bypass 0x03 else (s.bypass 0x03).setScan 2)

/-- CLAMP: as HIGHZ, with the pins from the boundary register. -/
def execClamp (s : State) : Host.Outcome State Fault Refusal :=
  .next (if s.released || !s.resetLow then s.bypass 0x04 else (s.bypass 0x04).setScan 3)

/-- DTMCS: the spec does not give the fields of the transport's control register, so what it captures is free (log
entry 1). -/
def execDtmcs (s : State) : Host.Outcome State Fault Refusal :=
  let (v, t) := s.draw
  .next (t.jtagSelect 0x10 32 (v % 2 ^ 32))

/-- The codes of R356 that are instructions of their own. -/
def jtagCodes : List Nat := [0x00, 0x01, 0x02, 0x03, 0x04, 0x10, 0x11, 0x18, 0x19, 0x1A]

/-- BYPASS: code 0x1F, and every code that is no other instruction's. -/
def execBypass (code : BitVec 5) (s : State) : Host.Outcome State Fault Refusal :=
  .next (if jtagCodes.contains code.toNat then s else s.bypass code.toNat)

/-- UNLOCK_STATUS. -/
def execUnlockStatus (s : State) : Host.Outcome State Fault Refusal :=
  .next (s.jtagSelect 0x1A 8 (getBits (s.reg Reg.DBG_EN) 0 4 + s.get Reg.DBG_EN_FAILS * 16 + b2n s.jtag.token.isSome * 64
    + s.get Reg.DBG_EN_LOCKED_OUT * 128))

/-! ### The debug module (R357) -/

/-- Whether the debugger may act on a halted core's registers. -/
def State.debugs (s : State) (c : Nat) : Bool := s.bit (Reg.MC_STATUS_HALTED c) && s.invasive (s.coreWorld c)

/-- What the debug module answers. -/
def State.dmiAnswer (s : State) (v : Nat) : State := { s with jtag := { s.jtag with dr := v } }

/-- A step of a halted core: the instruction it runs is outside the model, so where it stands after it is free, and whether it
makes a branch predictor or a return-stack entry of its world (R334; log entries 50 and 90). -/
def State.debugStep (s : State) (c : Nat) : State :=
  let (v, t) := s.draw
  let (b, t) := t.draw
  let pc := (t.core c).pc.toNat
  let w := t.coreWorld c
  let made := (t.when (bitOf b 0) (·.tagMake .branch c pc w)).when (bitOf b 1) (·.tagMake .ras c pc w)
  ({ t with tags := made.tags }).setCore c { t.core c with pc := BitVec.ofNat 64 v }

/-- The requester of the debug port in a world. -/
def debugMaster (w : World) : Master := { kind := .debug, id := 0, session := 0, world := w }

/-- A system bus read; what comes back at once is the answer. -/
def State.debugRead (s : State) (w : World) (a len : Nat) : State :=
  let s := match region a with
    | .regs off => s.gridRead (debugMaster w) off len
    | _ => s.memRead (debugMaster w) a len
  s.dmiAnswer (leNat (s.replies.flatMap (fun (r : Reply) => r.data)))

/-- A system bus write. -/
def State.debugWrite (s : State) (w : World) (a : Nat) (bs : List Byte) : State :=
  match region a with
  | .regs off => s.gridWrite (debugMaster w) off bs
  | _ => s.memWrite (debugMaster w) a bs

/-- A DMI access; one that its enables do not allow has no effect and answers 0 (log entry 51). -/
def State.dmi (s : State) (op : DmiOp) : State :=
  let s := s.jtagSelect 0x11 0 0
  match op with
  | .halt c => (s.setCore c { s.core c with haltReq := true }).haltCheck c
  | .resume c => if s.debugs c then (s.set (Reg.MC_STATUS_HALTED c) 0).romResume c else s
  | .step c => if s.debugs c then s.debugStep c else s
  | .readGpr c r => if s.debugs c then s.dmiAnswer ((s.core c).gpr r).toNat else s
  | .writeGpr c r v => if s.debugs c then s.setCore c ((s.core c).setGpr r v) else s
  | .readCsr c w n => if s.debugs c && s.invasive w then s.dmiAnswer (s.csrRead c w n.toNat).toNat else s
  | .writeCsr c w n v => if s.debugs c && s.invasive w then s.csrWrite c w n.toNat v else s
  | .readFpr c r => if s.debugs c then s.dmiAnswer (sget (fun _ => 0) (s.core c).f r.val).toNat else s
  | .writeFpr c r v => if s.debugs c then s.setCore c { s.core c with f := sput (fun _ => 0) (s.core c).f r v } else s
  | .pcSample c => if s.nonInvasive (s.coreWorld c) then s.dmiAnswer (s.core c).pc.toNat else s
  | .busRead w a len => if s.nonInvasive w then s.debugRead w a.toNat len else s
  | .busWrite w a bs => if s.invasive w then s.debugWrite w a.toNat bs else s

/-- DMI. -/
def execDmi (op : DmiOp) (s : State) : Host.Outcome State Fault Refusal := .next (s.dmi op)

/-! ### Tokens (R358) -/

/-- A challenge of 32 random bytes, drawn anew. -/
def State.drawChallenge (s : State) : State :=
  let (a, s) := s.draw
  let (b, s) := s.draw
  let (c, s) := s.draw
  let (d, s) := s.draw
  { s with jtag := { s.jtag with challenge := leBytes 8 a ++ leBytes 8 b ++ leBytes 8 c ++ leBytes 8 d, used := false } }

/-- The 8 bytes of the device serial, as UNLOCK_CHAL shows them. -/
def serialBytes : List Byte := leBytes 8 Config.deviceSerial.toNat

/-- UNLOCK_CHAL: `stale` says that the challenge is 300 s old. -/
def execUnlockChal (stale : Bool) (s : State) : Host.Outcome State Fault Refusal :=
  let t := if s.jtag.used || stale then s.drawChallenge else s
  .next (t.jtagSelect 0x18 320 (leNat (t.jtag.challenge ++ serialBytes)))

/-- A token is shifted in: the challenge counts as used. Tokens are refused after three failures, and while one is being
verified. -/
def State.tokenShift (s : State) (bs : List Byte) : State :=
  let t := s.jtagSelect 0x19 1536 (leNat bs)
  if s.bit Reg.DBG_EN_LOCKED_OUT || s.jtag.token.isSome then t
  else { t with jtag := { t.jtag with token := some (if s.jtag.used then [] else s.jtag.challenge, bs), used := true } }

/-- UNLOCK_TOKEN. -/
def execUnlockToken (bytes : List Byte) (s : State) : Host.Outcome State Fault Refusal := .next (s.tokenShift bytes)

/-- A part of a token. -/
def part (bs : List Byte) (i n : Nat) : List Byte := (bs.drop i).take n

/-- Whether a token passes against a challenge (log entry 41). -/
def tokenPasses (challenge bs : List Byte) : Bool :=
  bs.length == 192 && part bs 0 4 == [0x47, 0x44, 0x55, 0x4C] && decide (byteAt bs 4 < 16) && byteAt bs 5 == 1
    && part bs 6 2 == [0, 0] && challenge != [] && part bs 8 32 == challenge && part bs 40 8 == serialBytes
    && part bs 48 16 == List.replicate 16 0 && beNat (sha256 (part bs 64 64)) == Config.tokenKeyHash.toNat
    && p256.verify (beNat (part bs 64 32), beNat (part bs 96 32)) (beNat (sha256 (bs.take 128))) (beNat (part bs 128 32))
        (beNat (part bs 160 32))

/-- A token fails: three failures lock tokens out. -/
def State.tokenFails (s : State) : State :=
  let s := s.count Reg.DBG_EN_FAILS
  if s.get Reg.DBG_EN_FAILS = 3 then s.set Reg.DBG_EN_LOCKED_OUT 1 else s

/-- The verification of a token ends. -/
def State.tokenVerified (s : State) : State :=
  match s.jtag.token with
  | none => s
  | some (ch, bs) =>
    let s := { s with jtag := { s.jtag with token := none } }
    if !tokenPasses ch bs then s.tokenFails
    else
      let key := sha256 (part bs 64 64)
      (s.dbgOpen (byteAt bs 4)).logEvent 0x0003 0x1A 0 (byteAt bs 4) (leAt key 0 4) (leAt key 4 4) (leAt key 8 4)

/-- UNLOCK_TOKEN_VERIFIED. -/
def execUnlockTokenVerified (s : State) : Host.Outcome State Fault Refusal := .next s.tokenVerified

/-- DEBUG_NORMAL_EN: DBG_0_NORMAL_EN is written. -/
def execDebugNormalEn (w : World) (v : Word) (s : State) : Host.Outcome State Fault Refusal :=
  .next (s.asWriter w 0x1F 0 true (·.dbgNormalWrite v))

end Sys2Proof.Machine
end

