-- ==== Sys2Proof/Machine/Dispatch.lean ====
section
/-! DEFINITION. One arm for each command: its meaning, called by its full name. -/

namespace Sys2Proof.Machine

/-- The effect of a command on everything but the queue. -/
def exec (i : Instr) (s : State) : Host.Outcome State Fault Refusal :=
  match i with
  | .registerWrite t bytes => Sys2Proof.Machine.execRegisterWrite t bytes s
  | .fabricRead t len => Sys2Proof.Machine.execFabricRead t len s
  | .fabricWrite m a bytes => Sys2Proof.Machine.execFabricWrite m a bytes s
  | .dramReadReturn n ch id ecc link ns srOk => Sys2Proof.Machine.execDramReadReturn n ch id ecc link ns srOk s
  | .caParityError n srOk => Sys2Proof.Machine.execCaParityError n srOk s
  | .beat => Sys2Proof.Machine.execBeat s
  | .drumInEdge sinceBeatNs => Sys2Proof.Machine.execDrumInEdge sinceBeatNs s
  | .drumInMissing => Sys2Proof.Machine.execDrumInMissing s
  | .drumCtrlWrite w v => Sys2Proof.Machine.execDrumCtrlWrite w v s
  | .drumDivIntWrite w v => Sys2Proof.Machine.execDrumDivIntWrite w v s
  | .drumDivFracWrite w v => Sys2Proof.Machine.execDrumDivFracWrite w v s
  | .breachClr w v => Sys2Proof.Machine.execBreachClr w v s
  | .hapticSlotBoundary => Sys2Proof.Machine.execHapticSlotBoundary s
  | .configRequest p f r => Sys2Proof.Machine.execConfigRequest p f r s
  | .bar2Read p f slot off len => Sys2Proof.Machine.execBar2Read p f slot off len s
  | .bar2Write p f slot off bytes => Sys2Proof.Machine.execBar2Write p f slot off bytes s
  | .quotaCredit => Sys2Proof.Machine.execQuotaCredit s
  | .gpRelease p w v => Sys2Proof.Machine.execGpRelease p w v s
  | .gpLinkDown p l2 => Sys2Proof.Machine.execGpLinkDown p l2 s
  | .gpLinkUp p speed width => Sys2Proof.Machine.execGpLinkUp p speed width s
  | .flr p f => Sys2Proof.Machine.execFlr p f s
  | .perstAssert p => Sys2Proof.Machine.execPerstAssert p s
  | .sessionCtrlWrite n w v => Sys2Proof.Machine.execSessionCtrlWrite n w v s
  | .sessWinWrite n k r w v => Sys2Proof.Machine.execSessWinWrite n k r w v s
  | .semWrite n k v => Sys2Proof.Machine.execSemWrite n k v s
  | .semAdd n k v => Sys2Proof.Machine.execSemAdd n k v s
  | .hapticDoorbell b v => Sys2Proof.Machine.execHapticDoorbell b v s
  | .tqCtrlWrite n v => Sys2Proof.Machine.execTqCtrlWrite n v s
  | .tqBaseWrite n v => Sys2Proof.Machine.execTqBaseWrite n v s
  | .audioStreamStart n a v => Sys2Proof.Machine.execAudioStreamStart n a v s
  | .irqEnableWrite n v => Sys2Proof.Machine.execIrqEnableWrite n v s
  | .quotaWrite n w v => Sys2Proof.Machine.execQuotaWrite n w v s
  | .ownerWrite o w v => Sys2Proof.Machine.execOwnerWrite o w v s
  | .screenStart n w v => Sys2Proof.Machine.execScreenStart n w v s
  | .screenStop n w v => Sys2Proof.Machine.execScreenStop n w v s
  | .screenStartLatch n => Sys2Proof.Machine.execScreenStartLatch n s
  | .latch n => Sys2Proof.Machine.execLatch n s
  | .pipeFetchStart n => Sys2Proof.Machine.execPipeFetchStart n s
  | .scanoutLine n line last late bare sxtNs sxtYield faults => Sys2Proof.Machine.execScanoutLine n line last late bare sxtNs sxtYield faults s
  | .lowerEnable n w v => Sys2Proof.Machine.execLowerEnable n w v s
  | .retimeRequest n w v => Sys2Proof.Machine.execRetimeRequest n w v s
  | .retimeComplete n ok => Sys2Proof.Machine.execRetimeComplete n ok s
  | .dpTrain p w v => Sys2Proof.Machine.execDpTrain p w v s
  | .dpTrainDone p ok => Sys2Proof.Machine.execDpTrainDone p ok s
  | .hpdIrq p lost => Sys2Proof.Machine.execHpdIrq p lost s
  | .degradeDone p lane0 lane1 => Sys2Proof.Machine.execDegradeDone p lane0 lane1 s
  | .hpdUnplug p => Sys2Proof.Machine.execHpdUnplug p s
  | .hpdReplug p => Sys2Proof.Machine.execHpdReplug p s
  | .auxNativeWrite p w v => Sys2Proof.Machine.execAuxNativeWrite p w v s
  | .auxNativeRead p w v => Sys2Proof.Machine.execAuxNativeRead p w v s
  | .auxI2cWrite p w v => Sys2Proof.Machine.execAuxI2cWrite p w v s
  | .auxI2cRead p w v => Sys2Proof.Machine.execAuxI2cRead p w v s
  | .auxI2cWriteMot p w v => Sys2Proof.Machine.execAuxI2cWriteMot p w v s
  | .auxI2cReadMot p w v => Sys2Proof.Machine.execAuxI2cReadMot p w v s
  | .i2cWrite p w v => Sys2Proof.Machine.execI2cWrite p w v s
  | .i2cRead p w v => Sys2Proof.Machine.execI2cRead p w v s
  | .i2cWriteRead p w v => Sys2Proof.Machine.execI2cWriteRead p w v s
  | .auxDeferRetry p => Sys2Proof.Machine.execAuxDeferRetry p s
  | .auxTransactionEnd p i2c reply moved data => Sys2Proof.Machine.execAuxTransactionEnd p i2c reply moved data s
  | .auxTimeout p i2c => Sys2Proof.Machine.execAuxTimeout p i2c s
  | .panelOn p w v rested => Sys2Proof.Machine.execPanelOn p w v rested s
  | .panelVddRise p => Sys2Proof.Machine.execPanelVddRise p s
  | .panelHpdTimeout p => Sys2Proof.Machine.execPanelHpdTimeout p s
  | .panelOff p w v => Sys2Proof.Machine.execPanelOff p w v s
  | .panelPowerDownStep p => Sys2Proof.Machine.execPanelPowerDownStep p s
  | .blOn p w v => Sys2Proof.Machine.execBlOn p w v s
  | .blOff p w v => Sys2Proof.Machine.execBlOff p w v s
  | .blEnableDelay p => Sys2Proof.Machine.execBlEnableDelay p s
  | .blPwmPeriod p => Sys2Proof.Machine.execBlPwmPeriod p s
  | .layerBindWrite n w v => Sys2Proof.Machine.execLayerBindWrite n w v s
  | .layerCommitGo d v => Sys2Proof.Machine.execLayerCommitGo d v s
  | .layerCommitCancel d v => Sys2Proof.Machine.execLayerCommitCancel d v s
  | .tableLoadDone o => Sys2Proof.Machine.execTableLoadDone o s
  | .vinEnable n w v => Sys2Proof.Machine.execVinEnable n w v s
  | .vinLinePacket n vc dt header payload crcOk late => Sys2Proof.Machine.execVinLinePacket n vc dt header payload crcOk late s
  | .vinFrameEnd n vc => Sys2Proof.Machine.execVinFrameEnd n vc s
  | .vinNoSignal n => Sys2Proof.Machine.execVinNoSignal n s
  | .outCommitGo n w v => Sys2Proof.Machine.execOutCommitGo n w v s
  | .protCommitGo n w v => Sys2Proof.Machine.execProtCommitGo n w v s
  | .protCommitCancel n w v => Sys2Proof.Machine.execProtCommitCancel n w v s
  | .vouch n w v => Sys2Proof.Machine.execVouch n w v s
  | .sxtSelftest k w v => Sys2Proof.Machine.execSxtSelftest k w v s
  | .sxtSelftestDone k pass => Sys2Proof.Machine.execSxtSelftestDone k pass s
  | .sxtTileRowArrive n k y t => Sys2Proof.Machine.execSxtTileRowArrive n k y t s
  | .sxtLockstepFail k => Sys2Proof.Machine.execSxtLockstepFail k s
  | .cmpTest p w v => Sys2Proof.Machine.execCmpTest p w v s
  | .cmpTestRun p pass => Sys2Proof.Machine.execCmpTestRun p pass s
  | .harbourForce p w v => Sys2Proof.Machine.execHarbourForce p w v s
  | .watchCompare n diff late => Sys2Proof.Machine.execWatchCompare n diff late s
  | .hitMapSwap n => Sys2Proof.Machine.execHitMapSwap n s
  | .mirrorEntryWrite w k size v => Sys2Proof.Machine.execMirrorEntryWrite w k size v s
  | .memTrainDone n lanes verify ppr srOk => Sys2Proof.Machine.execMemTrainDone n lanes verify ppr srOk s
  | .memInitDone n => Sys2Proof.Machine.execMemInitDone n s
  | .dqsTrack n ch rd0 wr0 rd1 wr1 => Sys2Proof.Machine.execDqsTrack n ch rd0 wr0 rd1 wr1 s
  | .refreshDue n ch => Sys2Proof.Machine.execRefreshDue n ch s
  | .mr4Poll n ch => Sys2Proof.Machine.execMr4Poll n ch s
  | .mr4Result n ch band srOk => Sys2Proof.Machine.execMr4Result n ch band srOk s
  | .channelSchedule n ch ns bank ecc srOk => Sys2Proof.Machine.execChannelSchedule n ch ns bank ecc srOk s
  | .rhWindowEnd n ch => Sys2Proof.Machine.execRhWindowEnd n ch s
  | .urgencyRise n ch id ns => Sys2Proof.Machine.execUrgencyRise n ch id ns s
  | .targetExpiry n ch id ns => Sys2Proof.Machine.execTargetExpiry n ch id ns s
  | .qosClr p w v => Sys2Proof.Machine.execQosClr p w v s
  | .sideRelease n w v => Sys2Proof.Machine.execSideRelease n w v s
  | .sideRetrainDone n lanes verify => Sys2Proof.Machine.execSideRetrainDone n lanes verify s
  | .resyncGranuleDone n g => Sys2Proof.Machine.execResyncGranuleDone n g s
  | .patrolScrub n off ecc srOk => Sys2Proof.Machine.execPatrolScrub n off ecc srOk s
  | .tslEnable n w v => Sys2Proof.Machine.execTslEnable n w v s
  | .tslDisable n w v => Sys2Proof.Machine.execTslDisable n w v s
  | .tslAligned n => Sys2Proof.Machine.execTslAligned n s
  | .tslIdent n body crc => Sys2Proof.Machine.execTslIdent n body crc s
  | .tslBringupTimeout n => Sys2Proof.Machine.execTslBringupTimeout n s
  | .tslOpen n phase instant => Sys2Proof.Machine.execTslOpen n phase instant s
  | .tslClose n phase instant => Sys2Proof.Machine.execTslClose n phase instant s
  | .tslConv n phase instant => Sys2Proof.Machine.execTslConv n phase instant s
  | .tslGroup n body crc e => Sys2Proof.Machine.execTslGroup n body crc e s
  | .tslCodeError n inFrame => Sys2Proof.Machine.execTslCodeError n inFrame s
  | .tslAbort n => Sys2Proof.Machine.execTslAbort n s
  | .tslGroupTimeout n => Sys2Proof.Machine.execTslGroupTimeout n s
  | .tslSilence n => Sys2Proof.Machine.execTslSilence n s
  | .tslLost n => Sys2Proof.Machine.execTslLost n s
  | .touchEnable n w v => Sys2Proof.Machine.execTouchEnable n w v s
  | .touchDisable n w v => Sys2Proof.Machine.execTouchDisable n w v s
  | .touchSelftest n w v => Sys2Proof.Machine.execTouchSelftest n w v s
  | .touchRecapture n w v => Sys2Proof.Machine.execTouchRecapture n w v s
  | .touchHoldLimit n id => Sys2Proof.Machine.execTouchHoldLimit n id s
  | .baselineLoad n w v => Sys2Proof.Machine.execBaselineLoad n w v s
  | .baselineLoadRun n => Sys2Proof.Machine.execBaselineLoadRun n s
  | .baselineDump n w v => Sys2Proof.Machine.execBaselineDump n w v s
  | .hvOn w v => Sys2Proof.Machine.execHvOn w v s
  | .hvOff w v => Sys2Proof.Machine.execHvOff w v s
  | .hvReady => Sys2Proof.Machine.execHvReady s
  | .hvEnFall => Sys2Proof.Machine.execHvEnFall s
  | .hapticLibLoad w v => Sys2Proof.Machine.execHapticLibLoad w v s
  | .hapticLibLoadDone => Sys2Proof.Machine.execHapticLibLoadDone s
  | .hapticPwmPeriod n => Sys2Proof.Machine.execHapticPwmPeriod n s
  | .hapticAdcSample n code => Sys2Proof.Machine.execHapticAdcSample n code s
  | .brakeTimeout n => Sys2Proof.Machine.execBrakeTimeout n s
  | .hapTrigEdge edges levels beaten => Sys2Proof.Machine.execHapTrigEdge edges levels beaten s
  | .audioEnable w v => Sys2Proof.Machine.execAudioEnable w v s
  | .audioDisable w v => Sys2Proof.Machine.execAudioDisable w v s
  | .audioBlock late stagedLate => Sys2Proof.Machine.execAudioBlock late stagedLate s
  | .audioStreamDeadline k => Sys2Proof.Machine.execAudioStreamDeadline k s
  | .tdmEnable n w v => Sys2Proof.Machine.execTdmEnable n w v s
  | .tdmDisable n w v => Sys2Proof.Machine.execTdmDisable n w v s
  | .tdmFrame n din => Sys2Proof.Machine.execTdmFrame n din s
  | .nodeWrite o k w v => Sys2Proof.Machine.execNodeWrite o k w v s
  | .nodeGainTimeout o k => Sys2Proof.Machine.execNodeGainTimeout o k s
  | .eqSwap o w v => Sys2Proof.Machine.execEqSwap o w v s
  | .directRouteEnable r w v => Sys2Proof.Machine.execDirectRouteEnable r w v s
  | .bellSound v w x => Sys2Proof.Machine.execBellSound v w x s
  | .bellStop v w x => Sys2Proof.Machine.execBellStop v w x s
  | .bellCadence v => Sys2Proof.Machine.execBellCadence v s
  | .coreRelease n w v => Sys2Proof.Machine.execCoreRelease n w v s
  | .coreHold n w v => Sys2Proof.Machine.execCoreHold n w v s
  | .arrayError g ue srOk => Sys2Proof.Machine.execArrayError g ue srOk s
  | .wgate c g => Sys2Proof.Machine.execWgate c g s
  | .wret c us => Sys2Proof.Machine.execWret c us s
  | .secureInterrupt k => Sys2Proof.Machine.execSecureInterrupt k s
  | .resArm w v => Sys2Proof.Machine.execResArm w v s
  | .residencyExpire c => Sys2Proof.Machine.execResidencyExpire c s
  | .swdtArm w v => Sys2Proof.Machine.execSwdtArm w v s
  | .swdtKick w => Sys2Proof.Machine.execSwdtKick w s
  | .swdtHalfPeriod => Sys2Proof.Machine.execSwdtHalfPeriod s
  | .swdtExpire => Sys2Proof.Machine.execSwdtExpire s
  | .secureRestart romOk => Sys2Proof.Machine.execSecureRestart romOk s
  | .restartTimeout => Sys2Proof.Machine.execRestartTimeout s
  | .secureUp w v => Sys2Proof.Machine.execSecureUp w v s
  | .interruptDeliver c x => Sys2Proof.Machine.execInterruptDeliver c x s
  | .irqClaim c x w v => Sys2Proof.Machine.execIrqClaim c x w v s
  | .irqComplete c x w v => Sys2Proof.Machine.execIrqComplete c x w v s
  | .softwareInterrupt w v => Sys2Proof.Machine.execSoftwareInterrupt w v s
  | .ownerClaim u k w v => Sys2Proof.Machine.execOwnerClaim u k w v s
  | .ownerRelease u k w v => Sys2Proof.Machine.execOwnerRelease u k w v s
  | .gateRequest u k w v => Sys2Proof.Machine.execGateRequest u k w v s
  | .gateTakeEffect u k => Sys2Proof.Machine.execGateTakeEffect u k s
  | .gateWithdraw u k w v => Sys2Proof.Machine.execGateWithdraw u k w v s
  | .idcode => Sys2Proof.Machine.execIdcode s
  | .samplePreload => Sys2Proof.Machine.execSamplePreload s
  | .extest => Sys2Proof.Machine.execExtest s
  | .highz => Sys2Proof.Machine.execHighz s
  | .clamp => Sys2Proof.Machine.execClamp s
  | .dtmcs => Sys2Proof.Machine.execDtmcs s
  | .dmi op => Sys2Proof.Machine.execDmi op s
  | .unlockChal stale => Sys2Proof.Machine.execUnlockChal stale s
  | .unlockToken bytes => Sys2Proof.Machine.execUnlockToken bytes s
  | .unlockTokenVerified => Sys2Proof.Machine.execUnlockTokenVerified s
  | .unlockStatus => Sys2Proof.Machine.execUnlockStatus s
  | .bypass code => Sys2Proof.Machine.execBypass code s
  | .debugNormalEn w v => Sys2Proof.Machine.execDebugNormalEn w v s
  | .resetRelease f => Sys2Proof.Machine.execResetRelease f s
  | .resetNAssert => Sys2Proof.Machine.execResetNAssert s
  | .vaonPowerOn => Sys2Proof.Machine.execVaonPowerOn s
  | .scriptWrite => Sys2Proof.Machine.execScriptWrite s
  | .scriptModify => Sys2Proof.Machine.execScriptModify s
  | .scriptPoll => Sys2Proof.Machine.execScriptPoll s
  | .scriptPollTimeout => Sys2Proof.Machine.execScriptPollTimeout s
  | .scriptDelay => Sys2Proof.Machine.execScriptDelay s
  | .scriptEnd => Sys2Proof.Machine.execScriptEnd s
  | .underway w v => Sys2Proof.Machine.execUnderway w v s
  | .startTimeout => Sys2Proof.Machine.execStartTimeout s
  | .startReset => Sys2Proof.Machine.execStartReset s
  | .anchorClear w v => Sys2Proof.Machine.execAnchorClear w v s
  | .flashRead w v => Sys2Proof.Machine.execFlashRead w v s
  | .flashProgram w v => Sys2Proof.Machine.execFlashProgram w v s
  | .flashErase4k w v => Sys2Proof.Machine.execFlashErase4k w v s
  | .flashErase64k w v => Sys2Proof.Machine.execFlashErase64k w v s
  | .flashCmdDone => Sys2Proof.Machine.execFlashCmdDone s
  | .flashTimeout done => Sys2Proof.Machine.execFlashTimeout done s
  | .faultEvent k addr type m => Sys2Proof.Machine.execFaultEvent k addr type m s
  | .faultClassWrite k w v => Sys2Proof.Machine.execFaultClassWrite k w v s
  | .requestC3 w v => Sys2Proof.Machine.execRequestC3 w v s
  | .requestScreen n w v => Sys2Proof.Machine.execRequestScreen n w v s
  | .faultRelease w v clash => Sys2Proof.Machine.execFaultRelease w v clash s
  | .fltSelfMismatch => Sys2Proof.Machine.execFltSelfMismatch s
  | .tollArm w v => Sys2Proof.Machine.execTollArm w v s
  | .tollKick w => Sys2Proof.Machine.execTollKick w s
  | .tollToggle => Sys2Proof.Machine.execTollToggle s
  | .tollWindowExpire => Sys2Proof.Machine.execTollWindowExpire s
  | .safeOk w v => Sys2Proof.Machine.execSafeOk w v s
  | .fltSelftest w v => Sys2Proof.Machine.execFltSelftest w v s
  | .fltSelftestDone ok => Sys2Proof.Machine.execFltSelftestDone ok s
  | .supplyWarning pf => Sys2Proof.Machine.execSupplyWarning pf s
  | .supplyWarningEnd => Sys2Proof.Machine.execSupplyWarningEnd s
  | .brownoutEnd us holds => Sys2Proof.Machine.execBrownoutEnd us holds s
  | .supplyFail => Sys2Proof.Machine.execSupplyFail s
  | .crcGo n w v => Sys2Proof.Machine.execCrcGo n w v s
  | .crcCompute n => Sys2Proof.Machine.execCrcCompute n s
  | .crcCheck n => Sys2Proof.Machine.execCrcCheck n s
  | .crcDescriptorDone n => Sys2Proof.Machine.execCrcDescriptorDone n s
  | .crcAbort n w v => Sys2Proof.Machine.execCrcAbort n w v s
  | .crcSelftest n w v => Sys2Proof.Machine.execCrcSelftest n w v s
  | .crcSelftestDone n ok => Sys2Proof.Machine.execCrcSelftestDone n ok s
  | .rtcTick => Sys2Proof.Machine.execRtcTick s
  | .rtcTrim => Sys2Proof.Machine.execRtcTrim s
  | .rtcOscStop => Sys2Proof.Machine.execRtcOscStop s
  | .rtcSet w v => Sys2Proof.Machine.execRtcSet w v s
  | .rtcSnap w v => Sys2Proof.Machine.execRtcSnap w v s
  | .logWriterTake => Sys2Proof.Machine.execLogWriterTake s
  | .logTokenRefill code => Sys2Proof.Machine.execLogTokenRefill code s
  | .logWrite x w v => Sys2Proof.Machine.execLogWrite x w v s
  | .logWriteFold x w v => Sys2Proof.Machine.execLogWriteFold x w v s
  | .logClear c => Sys2Proof.Machine.execLogClear c s
  | .bboxAppend w v => Sys2Proof.Machine.execBboxAppend w v s
  | .bboxFlushNow w v => Sys2Proof.Machine.execBboxFlushNow w v s
  | .bboxFlushTimer => Sys2Proof.Machine.execBboxFlushTimer s
  | .bboxProgramDone => Sys2Proof.Machine.execBboxProgramDone s
  | .bboxEraseDone => Sys2Proof.Machine.execBboxEraseDone s
  | .bboxLate us => Sys2Proof.Machine.execBboxLate us s
  | .wearSample margins temp => Sys2Proof.Machine.execWearSample margins temp s
  | .wornWrite w v => Sys2Proof.Machine.execWornWrite w v s
  | .otpBurn w v => Sys2Proof.Machine.execOtpBurn w v s
  | .otpBurnDone n => Sys2Proof.Machine.execOtpBurnDone n s
  | .vinFrameStart n vc => Sys2Proof.Machine.execVinFrameStart n vc s

end Sys2Proof.Machine
end

