-- ==== Sys2Proof/Machine/Pins.lean ====
section
/-! DEFINITION. The output-capable pins and how the device drives each of them: high-impedance, a level, or what it carries (R356,
R457, R458, R461). Every level follows from State; the driver enables that the spec does not name are a choice (log entry 97). -/

namespace Sys2Proof.Machine

/-- The output-capable pins of R461. -/
inductive OutPin where
  /-- BL_EN_p -/
  | blEn (p : Fin 8)
  /-- BL_PWM_p -/
  | blPwm (p : Fin 8)
  /-- PNL_VDD_EN_p -/
  | pnlVddEn (p : Fin 8)
  /-- PNL_SCL_p and PNL_SDA_p, open-drain -/
  | pnlI2c (p : Fin 8) (sda : Bool)
  /-- DP_p_ML0 to ML3 -/
  | dpMain (p : Fin 8) (lane : Fin 4)
  /-- DP_p_AUX -/
  | dpAux (p : Fin 8)
  /-- HAP_n_PH -/
  | hapPh (n : Fin 16)
  /-- HAP_n_PL -/
  | hapPl (n : Fin 16)
  /-- HV_EN -/
  | hvEn
  /-- TSL_DN_n -/
  | tslDn (n : Fin 8)
  /-- GP_p_TX0 to TX3 -/
  | gpTx (p : Fin 4) (lane : Fin 4)
  /-- TDM_n_BCLK -/
  | tdmBclk (n : Fin 2)
  /-- TDM_n_FSYNC -/
  | tdmFsync (n : Fin 2)
  /-- TDM_n_DOUT -/
  | tdmDout (n : Fin 2)
  /-- XSPI_CLK -/
  | xspiClk
  /-- XSPI_CS_N -/
  | xspiCsN
  /-- XSPI_RST_N -/
  | xspiRstN
  /-- XSPI_IO0 to IO7 -/
  | xspiIo (k : Fin 8)
  /-- ALIVE -/
  | alive
  /-- SAFE_N -/
  | safeN
  /-- DRUM_OUT -/
  | drumOut
  /-- UART_TX -/
  | uartTx
  /-- TDO -/
  | tdo
  /-- MA_RESET_N, MB_RESET_N -/
  | memResetN (side : Side)
  /-- the balls of a channel of a side, MA_CHc and MB_CHc -/
  | memChannel (side : Side) (ch : Fin 8)
deriving DecidableEq, Repr

/-- The place of a pin among the pins, which tells boundary-scan cells apart. -/
def OutPin.index : OutPin → Nat
  | .blEn p => p | .blPwm p => 8 + p | .pnlVddEn p => 16 + p
  | .pnlI2c p sda => 24 + 2 * p + b2n sda | .dpAux p => 40 + p | .dpMain p l => 48 + 4 * p + l
  | .hapPh n => 80 + n | .hapPl n => 96 + n | .tslDn n => 112 + n | .gpTx p l => 120 + 4 * p + l
  | .tdmBclk n => 136 + n | .tdmFsync n => 138 + n | .tdmDout n => 140 + n
  | .xspiIo k => 142 + k | .memChannel m c => 150 + 8 * m.val + c | .memResetN m => 166 + m.val
  | .xspiClk => 168 | .xspiCsN => 169 | .xspiRstN => 170 | .hvEn => 171 | .alive => 172 | .safeN => 173 | .drumOut => 174
  | .uartTx => 175 | .tdo => 176

/-- The unit and instance that own a pin, where the spec names a unit of its registers for it. -/
def OutPin.owner : OutPin → Option (Nat × Nat)
  | .blEn p | .blPwm p | .pnlVddEn p | .pnlI2c p _ | .dpMain p _ | .dpAux p => some (0x04, p)
  | .hapPh n | .hapPl n => some (0x11, n)
  | .hvEn => some (0x12, 0)
  | .tslDn n => some (0x0F, n)
  | .gpTx p _ => some (0x0D, p)
  | .tdmBclk n | .tdmFsync n | .tdmDout n => some (0x14, n)
  | .xspiClk | .xspiCsN | .xspiRstN | .xspiIo _ => some (0x1E, 0)
  | .drumOut => some (0x01, 0)
  | .memResetN m | .memChannel m _ => some (0x0B, m.val)
  | .alive | .safeN => some (0x18, 0)
  | .uartTx | .tdo => none

/-- What EXTEST and CLAMP drive on a pin: its cells of the boundary register, whose contents are free (log entry 1). -/
def OutPin.scanLevel (p : OutPin) (cells : Nat) : Level :=
  match cells / 3 ^ p.index % 3 with
  | 0 => .z | 1 => .low | _ => .high

/-- R99 to R101: whether a port drives its panel's sideband: while it is enabled, or its panel is on or being powered down. -/
def State.panelDriven (s : State) (p : Nat) : Bool :=
  s.bit (Reg.DPO_CTRL_EN p) || s.bit (Reg.DPO_PANEL_PANEL_ON p) || s.bit (Reg.DPO_PANEL_VDD_LIVE p)

/-- R102, R394, R395: whether a reaction holds BL_EN of a port low. -/
def State.backlightHeld (s : State) (p : Nat) : Bool :=
  s.c3 || allScreens.any fun n => s.portOf n == p && (s.scr n).c2.isSome

/-- A level of a driven pin. -/
def levelOf (b : Bool) : Level := if b then .high else .low

/-- A pin that carries data while its driver is on. -/
def dataWhile (b : Bool) : Level := if b then .data else .z

/-- Whether a command is an instruction of the JTAG port, which a scan shifts in and whose register it shifts (R356). -/
def jtagScan : Instr → Bool
  | .idcode | .samplePreload | .extest | .highz | .clamp | .dtmcs | .dmi _ | .unlockChal _ | .unlockToken _ | .unlockStatus
  | .bypass _ => true
  | _ => false

/-- R457, R461: whether the port is in Shift-IR or Shift-DR: the command that is to be taken next is the scan under way (DESIGN CHOICE,
log entry 97). -/
def State.shifting (s : State) : Bool := s.pending.head?.any jtagScan

/-- R457: whether the bank of a pin is without supply. The rails of a memory side may fail while the device runs; any other rail is up
whenever RESET_N is high (R464, R465). -/
def State.pinUnpowered (s : State) : OutPin → Bool
  | .memResetN m | .memChannel m _ => s.railsOut.contains m
  | _ => false

/-- How the unit that owns a pin drives it, outside reset and gating. -/
def State.unitLevel (s : State) : OutPin → Level
  | .blEn p => if s.panelDriven p || s.backlightHeld p then levelOf (s.bit (Reg.DPO_PANEL_BL_EN_LIVE p)) else .z
  | .blPwm p => dataWhile (s.panelDriven p)
  | .pnlVddEn p => if s.panelDriven p then levelOf (s.bit (Reg.DPO_PANEL_VDD_LIVE p)) else .z
  | .pnlI2c p _ => dataWhile (s.bit (Reg.DPO_I2C_STATUS_BUSY p))
  | .dpMain p _ => dataWhile (s.bit (Reg.DPO_CTRL_EN p))
  | .dpAux p => dataWhile (s.bit (Reg.DPO_CTRL_EN p) && s.bit (Reg.DPO_AUX_STATUS_BUSY p))
  | .hapPh n => if s.hcState n = 4 then .low
      else if s.bit (Reg.HC_CTRL_EN n) || s.hcRuns n then (if (s.hc n).ph = 0 then .low else .data) else .z
  | .hapPl n => if s.hcState n = 4 then .low
      else if s.bit (Reg.HC_CTRL_EN n) || s.hcRuns n then (if (s.hc n).pl = 0 then .low else .data) else .z
  | .hvEn => if s.bit Reg.HAP_STATUS_HV_LIVE then .high else if s.bit Reg.HAP_CTRL_HV_ON || s.c3 then .low else .z
  | .tslDn n => dataWhile (s.bit (Reg.TSL_CTRL_EN n))
  | .gpTx p _ => dataWhile (s.bit (Reg.GP_CTRL_EN p))
  | .tdmBclk n | .tdmFsync n | .tdmDout n => dataWhile (s.bit (Reg.TDM_CTRL_EN n) || s.bit (Reg.TDM_STATUS_RUNNING n))
  | .xspiClk => if s.boot.flashBus.isEmpty then .z else .low
  | .xspiCsN | .xspiRstN => if s.boot.flashBus.isEmpty then .z else .high
  | .xspiIo _ => dataWhile (s.flashRuns || s.bboxActive)
  | .alive => s.alive
  | .safeN => s.safeN
  | .drumOut => dataWhile (s.bit Reg.DRUM_CTRL_OUT_EN)
  | .uartTx => .z
  | .tdo => dataWhile s.shifting
  | .memResetN m => if s.sideMode m.val = 0 then .z else .high
  | .memChannel m _ => dataWhile (s.sideMode m.val != 0)

/-- Whether the unit that owns a pin is gated (R355). -/
def State.pinGated (s : State) (p : OutPin) : Bool := p.owner.any fun o => s.isGated o.1 o.2

/-- R394, R395, R402, R403, R458: whether a pin is driven even where its unit is disabled or gated: ALIVE and SAFE_N, and a pin that a
reaction holds. -/
def State.pinHeld (s : State) : OutPin → Bool
  | .blEn p => s.backlightHeld p
  | .hapPh n | .hapPl n => s.hcState n == 4
  | .hvEn => s.c3
  | .alive | .safeN => true
  | _ => false

/-- R457, R458: how the device drives a pin. One whose bank has no supply is high-impedance. Before reset release only boundary scan
drives any, while RESET_N is low, and TDO, which has no cell, what a scan shifts out; then its unit does, unless the unit is gated.
When its unit drives it is log entry 97. -/
def State.pinLevel (s : State) (p : OutPin) : Level :=
  if s.pinUnpowered p then .z
  else if p = .tdo then s.unitLevel p
  else if !s.released then
    (if s.resetLow ∧ (s.jtag.scan = 1 ∨ s.jtag.scan = 3) then p.scanLevel s.jtag.cells else .z)
  else if s.pinGated p && !s.pinHeld p then .z
  else s.unitLevel p

end Sys2Proof.Machine
end

