-- ==== Sys2Proof/Safety.lean ====
section
/-! DEFINITION. What the claims are stated in: the canonical form of the stores, which fields of which registers a command
sets, what it leaves alone, and when a writer is admitted. -/

namespace Sys2Proof.Machine

/-- The canonical form of memory: addresses strictly rising, no entry equal to what an unlisted address reads as. -/
abbrev Memory.wf (d : Byte) (m : List Host.Cell) : Bool := swf (fun _ => d) m

/-- The stores of the state are canonical: the register file and the bytes of both sides, of management SRAM and of the
boot flash. -/
def State.stores (s : State) : Bool :=
  swf regReset s.regs && Memory.wf 0 s.memA && Memory.wf 0 s.memB && Memory.wf 0 s.sram && Memory.wf 0xFF s.flash

/-- A step has a next state. -/
def State.goesOn (s : State) : Prop := ∃ t, step s = .next t

/-! ### What a command sets and what it leaves alone -/

/-- A whole register as one field. -/
def whole (a : Nat) : Fld := { addr := a, lo := 0, width := 32 }

/-- Whether a field holds bit `i` of the register at `a`. -/
def Fld.covers (f : Fld) (a i : Nat) : Bool := f.addr == a && decide (f.lo ≤ i ∧ i < f.lo + f.width)

/-- A bit of a register after a list of fields is set: the first field of the list that holds the bit gives it, and a bit
that none holds stays as it was. -/
def bitAfter (l : List (Fld × Nat)) (a i : Nat) (old : Bool) : Bool :=
  match l.find? (fun p => p.1.covers a i) with
  | some p => p.2.testBit (i - p.1.lo)
  | none => old

/-- The registers of `t` are those of `s` with the listed fields set to the listed values. -/
def State.RegsSet (s : State) (l : List (Fld × Nat)) (t : State) : Prop :=
  ∀ a i, i < 32 → (t.reg a).getLsbD i = bitAfter l a i ((s.reg a).getLsbD i)

/-- State `t` is state `s` with the listed fields of its registers set to the listed values, and with nothing else changed:
no other bit of any register, no byte of any memory, and no other field of the state. -/
def State.SetsOnly (s : State) (l : List (Fld × Nat)) (t : State) : Prop :=
  s.RegsSet l t ∧ { t with regs := s.regs } = s

/-- The command `c` in state `s` completes, and leaves state `u` with the listed fields set and nothing else changed. -/
def Does (c : Instr) (s u : State) (l : List (Fld × Nat)) : Prop := ∃ t, exec c s = .next t ∧ u.SetsOnly l t

/-- A counting field after one more event: it stops at its top. -/
def State.more (s : State) (f : Fld) : Nat := satAdd f.width (s.get f) 1

/-- R351, R355: a world's write to a register of an instance is performed: neither the register (`sec`) nor the instance is
the secure world's alone where the writer is of the normal world, and the instance's clock runs. -/
def State.Admits (s : State) (w : World) (unit inst : Nat) (sec : Bool) : Prop :=
  (w = .normal → sec = false ∧ s.ownedSecure unit inst = false) ∧ s.isGated unit inst = false

/-- The bytes of every memory read the same in two states: both sides, management SRAM and the boot flash. -/
def State.SameBytes (s t : State) : Prop :=
  (∀ n off, t.sideByte n off = s.sideByte n off) ∧ (∀ off, t.sramByte off = s.sramByte off) ∧
    (∀ off, t.flashByte off = s.flashByte off)

/-- Side `k` reads in state `t` as in `s`, but for `bs` from offset `off` up. -/
def State.SideTook (s : State) (k off : Nat) (bs : List Byte) (t : State) : Prop :=
  ∀ o, t.sideByte k o = if off ≤ o ∧ o < off + bs.length then bs.getD (o - off) 0 else s.sideByte k o

/-- Management SRAM reads in state `t` as in `s`, but for `bs` from offset `off` up. -/
def State.SramTook (s : State) (off : Nat) (bs : List Byte) (t : State) : Prop :=
  ∀ o, t.sramByte o = if off ≤ o ∧ o < off + bs.length then bs.getD (o - off) 0 else s.sramByte o

/-- The boot flash reads in state `t` as in `s`. -/
def State.FlashSame (s t : State) : Prop := ∀ o, t.flashByte o = s.flashByte o

/-- The boot flash reads in state `t` as in `s`, but for `bs` from offset `off` up. -/
def State.FlashTook (s : State) (off : Nat) (bs : List Byte) (t : State) : Prop :=
  ∀ o, t.flashByte o = if off ≤ o ∧ o < off + bs.length then bs.getD (o - off) 0 else s.flashByte o

/-- Side `k` reads in state `t` as in `s` where `keep` says so, and 0 elsewhere. -/
def State.SideZeroed (s : State) (k : Nat) (keep : Nat → Bool) (t : State) : Prop :=
  ∀ o, t.sideByte k o = if keep o = true then s.sideByte k o else 0

/-- Side `k` reads in state `t` as in `s`, but that the `len` bytes from offset `lo` up read as those of side `j`. -/
def State.SideCopied (s : State) (j k lo len : Nat) (t : State) : Prop :=
  ∀ o, t.sideByte k o = if lo ≤ o ∧ o < lo + len then s.sideByte j o else s.sideByte k o

/-- The command `c` in state `s` completes in a state of which `q` is true. -/
def Leads (c : Instr) (s : State) (q : State → Prop) : Prop := ∃ t, exec c s = .next t ∧ q t

/-- A step of state `s` has a next state, of which `q` is true. -/
def LeadsStep (s : State) (q : State → Prop) : Prop := ∃ t, step s = .next t ∧ q t

/-- The command `c` in state `s` completes with exactly the listed fields of the registers set, with every byte of every
memory as it was, and with `q` true of the state it leaves. -/
def SetsAnd (c : Instr) (s : State) (l : List (Fld × Nat)) (q : State → Prop) : Prop :=
  ∃ t, exec c s = .next t ∧ s.RegsSet l t ∧ s.SameBytes t ∧ q t

/-- The command `c` in state `s` completes by the operation `f` on state `u` with the listed fields set: `f` is one of the
shared operations, such as the raising of a fault input (R387). -/
def DoesThen (c : Instr) (s u : State) (l : List (Fld × Nat)) (f : State → State) : Prop :=
  ∃ t, u.SetsOnly l t ∧ exec c s = .next (f t)

/-- R348: no event waits behind a source that is in service. -/
def State.SourceFree (s : State) (k : Nat) : Prop := s.ic.inService.any (fun p => p.1 == k) = false

/-- R53, R54: state `t` follows state `s` by the detach of session `n`. Its page holds its reset values, but for the resources it owns,
the counts of lost touch records and of underruns, and IRQ_STATUS, which says whether a commit of its layers was cancelled; each of its
layers has its shadows at reset and a commit that was PENDING REJECTED with DETACHED, and follows DETACH_ACTION. Its windows, its quota,
what it owns and every byte of memory are as they were. -/
def State.Detached (s : State) (n : Nat) (t : State) : Prop :=
  let page := Reg.SESS_PAGE_ID n
  let mine := (List.range 64).filter fun l => s.bit (Reg.LAYER_OWNER_VALID l) && s.get (Reg.LAYER_OWNER_SESSION l) == n
  let pending := fun (l : Nat) => s.get (Reg.LAYER_COMMIT_STATUS_STATE l) == 1
  let told := mine.any fun l => pending l && !s.ownedSecure 0x06 l
  let streams := (List.range 8).map fun a => 0x310 + 0x20 * a
  t.attached n = false ∧ t.bit (Reg.SESS_STATUS_DETACH_EVT n) = true ∧ s.SameBytes t ∧
    (∀ i < 0x400, 4 * i ∉ [0, 0x20, 0x24, 0x210, 0xD00] ++ streams → t.reg (page + 4 * i) = regReset (page + 4 * i)) ∧
    t.reg (Reg.SESS_RES_LAYER n) = s.reg (Reg.SESS_RES_LAYER n) ∧ t.reg (Reg.SESS_RES_OTHER n) = s.reg (Reg.SESS_RES_OTHER n) ∧
    t.reg (Reg.SESS_IRQ_STATUS n) = (if told then 4 else 0) ∧ t.bit (Reg.SESS_TQ_STATUS_OVERFLOW n) = false ∧
    t.get (Reg.SESS_TQ_STATUS_DROPPED n) = satAdd 16 (s.get (Reg.SESS_TQ_STATUS_DROPPED n)) (s.tqFill n) ∧
    (∀ a < 8, t.bit (Reg.SESS_AS_STATUS_RUNNING n a) = false ∧
      t.get (Reg.SESS_AS_STATUS_UNDERRUNS n a) = s.get (Reg.SESS_AS_STATUS_UNDERRUNS n a)) ∧
    (∀ l ∈ mine, (∀ i < 20, t.reg (Reg.LAYER_CTRL l + 4 * i) = regReset (Reg.LAYER_CTRL l + 4 * i)) ∧
      t.reg (Reg.LAYER_COMMIT_FRAME l) = 0 ∧ t.reg (Reg.LAYER_FENCE_VALUE l) = 0 ∧
      t.reg (Reg.LAYER_STATUS l) = s.reg (Reg.LAYER_STATUS l) ∧ t.reg (Reg.LAYER_APPLIED_FRAME l) = s.reg (Reg.LAYER_APPLIED_FRAME l) ∧
      (if pending l then t.get (Reg.LAYER_COMMIT_STATUS_STATE l) = 3 ∧ t.get (Reg.LAYER_COMMIT_STATUS_REASON l) = 2
        else t.reg (Reg.LAYER_COMMIT_STATUS l) = s.reg (Reg.LAYER_COMMIT_STATUS l)) ∧
      (t.bit (Reg.SESS_CTRL_DETACH_ACTION n) = true → (t.lay l).detached = true) ∧ t.reg (Reg.LAYER_OWNER l) = s.reg (Reg.LAYER_OWNER l)) ∧
    t.reg (Reg.SESS_QUOTA n) = s.reg (Reg.SESS_QUOTA n) ∧
    (∀ k < 16, t.get (Reg.SESS_WIN_DEV_DEV n k) = s.get (Reg.SESS_WIN_DEV_DEV n k) ∧
      t.get (Reg.SESS_WIN_GOFF_GOFF n k) = s.get (Reg.SESS_WIN_GOFF_GOFF n k) ∧
      t.reg (winRegAddr .ctrl n k) = s.reg (winRegAddr .ctrl n k))

/-- R366 to R368: how a slot is judged. One whose descriptor cannot be read, or breaks R362, fails at once; of one that passes every
step, the key is the one OTP knows, the signature verifies over the descriptor and the table, and each section's entry, check value, digest
and, for a script, commands are as they must be. -/
def State.SlotJudged (s : State) (k : Nat) : Prop :=
  match s.slotDesc k with
  | none => s.slotFault k = some { reason := 7 }
  | some d =>
    let sections := leAt d 6 2
    let block := s.flashBytes (s.slotOff k + (64 + 80 * sections)) 192
    (descOk k d = false → s.slotFault k = some { reason := 1 }) ∧
    (s.slotFault k = none → descOk k d = true ∧ keyOk (block.take 96) = true ∧
      signatureOk (s.flashBytes (s.slotOff k) (64 + 80 * sections)) block = true ∧
      ∀ i < sections,
        let e := s.slotEntry k i
        let bs := s.flashBytes (s.slotOff k + secOffset e) (secLength e)
        entryOk (s.slotLen k) (leAt d 8 4) (64 + 80 * sections + 192) e = true ∧ sectionCrc k i e bs = leAt e 24 4 ∧
          sha384 bs = secDigest e ∧ (secType e = 3 → scriptOk bs = true))

/-- SLOT_SEQ of a slot whose descriptor passes step 1 of R367. -/
def State.slotSeq (s : State) (k : Nat) : Option Nat :=
  match s.slotDesc k with
  | some d => if descOk k d then some (leAt d 8 4) else none
  | none => none

/-- R369: the slots in the order of an ATTEMPT. -/
def State.orderAt (s : State) (attempt : Nat) : List Nat :=
  let newer := match s.slotSeq 0, s.slotSeq 1 with
    | some a, some b => if frameLater b a then 1 else 0
    | none, some _ => 1
    | _, none => 0
  match attempt with
  | 0 => [newer, 1 - newer, 2]
  | 1 => [1 - newer, newer, 2]
  | 2 => [2, newer, 1 - newer]
  | _ => [2]

/-- R367, R369, R370, R372, R373: the boot ROM, with the header and the flash of `s`, has tried the slots in the order of ATTEMPT and left
state `t`. Each that fails shows why; the first that passes runs its stage-0 scripts, or without any both sides, where they are off, train;
where none passes, the ROM waits with NO_CHART. -/
def State.SlotsTried (s t : State) : Prop :=
  let order := s.orderAt (t.get Reg.BOOT_STATUS_ATTEMPT)
  let failed := order.takeWhile fun k => (s.slotFault k).isSome
  (∀ k ∈ failed, t.get (Reg.BOOT_SLOT_RESULT_RESULT k) = 2 ∧
    (s.slotFault k).map (fun x => (x.reason, x.section_ % 256)) =
      some (t.get (Reg.BOOT_SLOT_RESULT_REASON k), t.get (Reg.BOOT_SLOT_RESULT_SECTION k))) ∧
  match order.drop failed.length with
  | [] => t.get Reg.BOOT_STATUS_STAGE = 0xF ∧ t.boot.noChart = true ∧ t.bit (Reg.FLT_IN_STATUS_CAUSE 9) = true
  | k :: _ => t.get (Reg.BOOT_SLOT_RESULT_RESULT k) = 1 ∧ t.get Reg.BOOT_STATUS_SLOT = k + 1 ∧
    (s.slotScript k 0 ≠ [] → t.get Reg.BOOT_STATUS_STAGE = 2 ∧ t.boot.script = s.slotScript k 0) ∧
    (s.slotScript k 0 = [] → s.sideMode 0 = 0 → s.sideMode 1 = 0 →
      t.get Reg.BOOT_STATUS_STAGE = 3 ∧ t.sideMode 0 = 1 ∧ t.sideMode 1 = 1)

/-- Whether a read of memory gave data. -/
def RdRes.isData : RdRes → Bool
  | .data _ => true
  | _ => false

/-- The bytes a read of memory gave. -/
def RdRes.bytes : RdRes → List Byte
  | .data bs => bs
  | _ => []

/-- Whether an address is management SRAM's. -/
def Region.isSram : Region → Bool
  | .sram _ => true
  | _ => false

/-- R427: the logbook's queue takes an entry. -/
def State.LogRoom (s : State) : Prop := s.log.queue.length < 64

/-- R351, R355: of the commands `cs` that write a register of an instance, those of the normal world are denied and counted where
the instance or the register (`sec`) is the secure world's, and any other has no effect where the instance is gated. -/
def State.Refuses (s : State) (w : World) (unit inst : Nat) (sec : Bool) (cs : List Instr) : Prop :=
  (w = .normal → sec = true ∨ s.ownedSecure unit inst = true → ∀ c ∈ cs,
    Does c s s [(Reg.SYS_OWN_STATUS_DENIED_WRITES, s.more Reg.SYS_OWN_STATUS_DENIED_WRITES)]) ∧
  (w = .secure ∨ (sec = false ∧ s.ownedSecure unit inst = false) → s.isGated unit inst = true → ∀ c ∈ cs, Does c s s [])

end Sys2Proof.Machine
end

