-- ==== Sys2Proof/Certificates/Slice0/Obligations.lean ====
section
/-! DEFINITION. The statements for the provers: what each command does, what each step keeps and what reset leaves. -/

open Sys2Proof Sys2Proof.Machine

/-- The queue (log entries 7, 12): a step takes the command at the front of the queue and answers its effect on the state whose queue is
the rest; with an empty queue one core clock passes, and the queue stays empty. The block never stops: every state has a next one,
whatever its queue holds. The readings and choices of the model behind it: log entry 89. -/
def Obligations.StepTakesTheFrontCommand : Prop :=
  (∀ (s : State) (c : Instr) (rest : List Instr),
    step { s with pending := c :: rest } = exec c { s with pending := rest } ∧
    (s.pending = [] → step s = .next s.tick ∧ (s.tick).pending = []) ∧
    (s.tick).clock = s.clock + 1) ∧
  (∀ (s : State), s.goesOn)

/-- The stores stay canonical (log entry 61): from every state whose register file and memories are in their one canonical form,
whatever command is in front, the state after a step has them so. The readings and choices of the model behind it: log entries 4, 5,
9. -/
def Obligations.StoresStayCanonical : Prop := ∀ (s t : State), s.stores = true → step s = .next t → t.stores = true

/-- R18, R25, R74, R129, R143, R317, R319, R329, R420: reset. The queue is empty and the stores are canonical; the drumbeat number is 0
and the divider stands at 240 Hz; every frame count is 0xFFFF_FFFF; the palettes hold zeros; both coefficient banks of every scaler
hold the point-sampling set; every filter passes its input; MC_0 alone runs, in the secure world; the real-time clock is 0. The
readings and choices of the model behind it: log entry 8. -/
def Obligations.ResetStateHoldsTheStatedValues : Prop := ∀ (n : Fin 8) (layer : Fin 64) (k : Fin 256) (h : Fin 256) (j : Fin 192) (o : Fin 48) (b : Fin 2)
    (q : Fin 8) (c : Fin 5) (m : Fin 5) (scl : Fin 24),
  let s := State.reset
  s.stores = true ∧ s.pending = [] ∧ s.clock = 0 ∧
  s.drumbeat = 0 ∧ s.drum.gridBeat = none ∧ s.beatRate.num = 240 * s.beatRate.den ∧ s.get Reg.DRUM_STATUS_ACTIVE_SOURCE = 0 ∧
  s.get (Reg.SCREEN_FRAME_FRAME n) = 0xFFFFFFFF ∧
  sget (fun _ => 0) (s.lay layer).pal0 k = 0 ∧ sget (fun _ => 0) (s.lay layer).pal1 k = 0 ∧
  sget (fun _ => 0) (s.prot n).pal0 k = 0 ∧ sget (fun _ => 0) (s.prot n).pal1 k = 0 ∧
  s.get (Reg.SCL_COEF_AH_EVEN scl h) = 0 ∧ s.get (Reg.SCL_COEF_AH_ODD scl h) = (if h.val % 4 = 1 then 1024 else 0) ∧
  s.get (Reg.SCL_COEF_BH_EVEN scl h) = 0 ∧ s.get (Reg.SCL_COEF_BH_ODD scl h) = (if h.val % 4 = 1 then 1024 else 0) ∧
  s.get (Reg.SCL_COEF_AV_ODD scl j) = 0 ∧ s.get (Reg.SCL_COEF_AV_EVEN scl j) = (if j.val % 3 = 1 then 1024 else 0) ∧
  s.get (Reg.SCL_COEF_BV_ODD scl j) = 0 ∧ s.get (Reg.SCL_COEF_BV_EVEN scl j) = (if j.val % 3 = 1 then 1024 else 0) ∧
  s.get (Reg.AUD_EQ_COEF o b q c) = (if c.val = 0 then 2 ^ 28 else 0) ∧
  s.coreRuns m = decide (m.val = 0) ∧ s.coreWorld 0 = .secure ∧ (s.core 0).pc = 0x0FF0000000 ∧ s.bit (Reg.MC_CTRL_RUN m) = decide (m.val = 0) ∧
  s.rtc.sec = 0 ∧ s.rtc.frac = 0 ∧ s.get Reg.RTC_TRIM_TRIM = 0 ∧ s.get Reg.RTC_STATUS_VALID = 0

/-- R351, R355: a write that a command names, by its world. Where the writer is of the normal world and the instance is the secure
world's, or the register itself is, the write is ignored and counted in DENIED_WRITES. Otherwise, where the instance is gated, the
write is ignored, without a fault and uncounted. The readings and choices of the model behind it: log entry 13. -/
def Obligations.WritersAreAdmittedByWorldAndGate : Prop := ∀ (s : State) (w : World) (v : Word) (b : Bool) (d : Side)
    (n2 : Fin 2) (n4 : Fin 4) (n5 : Fin 5) (n8 : Fin 8) (n18 : Fin 18) (n32 : Fin 32) (n33 : Fin 33) (n40 : Fin 40)
    (n48 : Fin 48) (n64 : Fin 64) (n256 : Fin 256) (n448 : Fin 448),
  s.Refuses w 0x13 0 false
    [Instr.audioEnable w v, .audioDisable w v, .directRouteEnable n8 w v] ∧
  s.Refuses w 0x14 n2.val (s.tdmSecure n2)
    [Instr.tdmEnable n2 w v, .tdmDisable n2 w v] ∧
  s.Refuses w 0x13 0 (s.nodeSecure n48 n64)
    [Instr.nodeWrite n48 n64 w v] ∧
  s.Refuses w 0x13 0 (s.outProtected n48)
    [Instr.eqSwap n48 w v] ∧
  s.Refuses w 0x15 0 true
    [Instr.bellSound n4 w v, .bellStop n4 w v] ∧
  s.Refuses w 0x1B 0 false
    [Instr.bboxAppend w v, .bboxFlushNow w v] ∧
  s.Refuses w 0x1E 0 false
    [Instr.flashRead w v, .flashProgram w v, .flashErase4k w v, .flashErase64k w v, .underway w v, .anchorClear w v] ∧
  s.Refuses w 0x19 n18.val false
    [Instr.crcGo n18 w v, .crcAbort n18 w v, .crcSelftest n18 w v] ∧
  s.Refuses w 0x1F 0 true
    [Instr.debugNormalEn w v] ∧
  s.Refuses w 0x01 0 false
    [Instr.drumCtrlWrite w v, .drumDivIntWrite w v, .drumDivFracWrite w v] ∧
  s.Refuses w 0x00 0 false
    [Instr.breachClr w v] ∧
  s.Refuses w 0x18 0 false
    [Instr.faultClassWrite n448 w v, .requestC3 w v, .requestScreen n8 w v, .faultRelease w v b, .tollArm w v,
      .tollKick w, .safeOk w v, .fltSelftest w v] ∧
  s.Refuses w 0x0D n4.val false
    [Instr.gpRelease n4 w v] ∧
  s.Refuses w 0x0E n256.val (n256.val == 0)
    [Instr.sessionCtrlWrite n256 w v, .quotaWrite n256 w v] ∧
  s.Refuses w 0x12 0 false
    [Instr.hvOn w v, .hvOff w v, .hapticLibLoad w v] ∧
  s.Refuses w 0x06 n64.val false
    [Instr.layerBindWrite n64 w v] ∧
  s.Refuses w 0x09 n4.val false
    [Instr.vinEnable n4 w v] ∧
  s.Refuses w 0x0B 0 false
    [Instr.mirrorEntryWrite w n32 b v] ∧
  s.Refuses w 0x0C n40.val false
    [Instr.qosClr n40 w v] ∧
  s.Refuses w 0x0B d.val false
    [Instr.sideRelease d w v] ∧
  s.Refuses w 0x00 0 true
    [Instr.ownerClaim n33 n8 w v, .ownerRelease n33 n8 w v, .resArm w v, .swdtArm w v, .secureUp w v, .swdtKick w] ∧
  s.Refuses w 0x04 n8.val false
    [Instr.dpTrain n8 w v, .auxNativeWrite n8 w v, .auxNativeRead n8 w v, .auxI2cWrite n8 w v, .auxI2cRead n8 w v,
      .auxI2cWriteMot n8 w v, .auxI2cReadMot n8 w v, .i2cWrite n8 w v, .i2cRead n8 w v, .i2cWriteRead n8 w v,
      .panelOn n8 w v b, .panelOff n8 w v, .blOn n8 w v, .blOff n8 w v] ∧
  s.Refuses w 0x07 n8.val false
    [Instr.protCommitGo n8 w v, .protCommitCancel n8 w v, .vouch n8 w v] ∧
  s.Refuses w 0x0A n2.val false
    [Instr.sxtSelftest n2 w v] ∧
  s.Refuses w 0x04 n8.val true
    [Instr.cmpTest n8 w v, .harbourForce n8 w v] ∧
  s.Refuses w 0x1C 0 false
    [Instr.rtcSet w v, .rtcSnap w v] ∧
  s.Refuses w 0x1A 0 (n2.val == 0)
    [Instr.logWrite n2 w v, .logWriteFold n2 w v] ∧
  s.Refuses w 0x02 n8.val false
    [Instr.screenStart n8 w v, .screenStop n8 w v, .lowerEnable n8 w v, .retimeRequest n8 w v] ∧
  s.Refuses w 0x02 n8.val true
    [Instr.outCommitGo n8 w v] ∧
  s.Refuses w 0x0F n8.val false
    [Instr.tslEnable n8 w v, .tslDisable n8 w v] ∧
  s.Refuses w 0x10 n8.val false
    [Instr.touchEnable n8 w v, .touchDisable n8 w v, .touchSelftest n8 w v, .touchRecapture n8 w v, .baselineLoad n8 w v,
      .baselineDump n8 w v] ∧
  s.Refuses w 0x1D 0 false
    [Instr.wornWrite w v, .otpBurn w v] ∧
  s.Refuses w 0x16 n5.val false
    [Instr.coreRelease n5 w v, .coreHold n5 w v]

/-- R17, R19, R20, R24, R398: while nothing paced by the drumbeat runs, a write of DRUM_0_CTRL sets OUT_EN and SOURCE, leaves holdover,
whose end sets TRANSIENT of a raised DRUM_IN_LOST, and puts the source in use; the grid starts again where SOURCE changes from
DRUM_IN to the internal divider, and what was counted of DRUM_IN starts anew only where SOURCE changes or holdover ends; a write of
DIV_INT is held; a write of DIV_FRAC makes the divider take the pair, or, where the pair is out of range, both registers return to
the setting in use and CFG_ERR is raised. While something runs each of the three writes changes nothing but the WRITE_WHILE_ACTIVE
event. The readings and choices of the model behind it: log entries 10, 25. -/
def Obligations.DrumWritesTakeEffectOnlyWhenStopped : Prop := ∀ (s : State) (w : World) (v : Word), s.Admits w 0x01 0 false →
  (s.drumUsersRun = false →
    (let old := decide (getBits (s.reg Reg.DRUM_CTRL) 0 2 = 1)
     let new := decide (getBits v 0 2 = 1)
     let held := s.bit Reg.DRUM_STATUS_HOLDOVER
     let fell := if held = true ∧ s.bit (Reg.FLT_IN_STATUS_CAUSE 3) = true then [(Reg.FLT_IN_STATUS_TRANSIENT 3, 1)] else []
     Does (.drumCtrlWrite w v) s
      { s with drum := { s.drum with
          missed := if old = new ∧ held = false then s.drum.missed else 0,
          edgeDue := if old = new ∧ held = false then s.drum.edgeDue else false,
          gridBeat := if old = true ∧ new = false then s.drum.gridBeat.map (fun _ => 0) else s.drum.gridBeat } }
      ([(Reg.DRUM_STATUS_ACTIVE_SOURCE, if new then 1 else 0)] ++ fell ++
       [(Reg.DRUM_STATUS_HOLDOVER, 0), (whole Reg.DRUM_CTRL, (v &&& 7).toNat)])) ∧
    Does (.drumDivIntWrite w v) s s [(Reg.DRUM_DIV_INT_INT, v.toNat)] ∧
    (divSettingOk (s.get Reg.DRUM_DIV_INT_INT) (getBits v 0 16) (getBits v 16 16) = true →
      Does (.drumDivFracWrite w v) s
        { s with drum := { s.drum with
            int := s.get Reg.DRUM_DIV_INT_INT, num := getBits v 0 16, den := getBits v 16 16,
            gridBeat := s.drum.gridBeat.map (fun _ => 0) } }
        [(whole Reg.DRUM_DIV_FRAC, v.toNat)]) ∧
    (divSettingOk (s.get Reg.DRUM_DIV_INT_INT) (getBits v 0 16) (getBits v 16 16) = false → s.SourceFree 122 →
      Does (.drumDivFracWrite w v) s s
        [(Reg.IC_SRC_PENDING 122, 1), (Reg.DRUM_STATUS_EVENTS, s.more Reg.DRUM_STATUS_EVENTS),
         (Reg.DRUM_STATUS_CFG_ERR, 1), (Reg.DRUM_DIV_FRAC_NUM, s.drum.num), (Reg.DRUM_DIV_FRAC_DEN, s.drum.den),
         (Reg.DRUM_DIV_INT_INT, s.drum.int)])) ∧
  (s.drumUsersRun = true → s.SourceFree 122 →
    (let ignored := [(Reg.IC_SRC_PENDING 122, 1), (Reg.DRUM_STATUS_EVENTS, s.more Reg.DRUM_STATUS_EVENTS),
      (Reg.DRUM_STATUS_WRITE_WHILE_ACTIVE, 1)]
     Does (.drumCtrlWrite w v) s s ignored ∧ Does (.drumDivIntWrite w v) s s ignored ∧ Does (.drumDivFracWrite w v) s s ignored))

/-- R17, R21, R25, R28, R255, R284, R305: a beat counts the 64-bit drumbeat number up by one, gives DRUM_OUT its pulse where OUT_EN is
1, and moves the grid of ideal instants on by one; the first beat after reset starts the grid. With the internal divider in use, no
start of the audio unit waiting and no Silvos link in RUN, a beat does nothing else to the registers or the memories. With DRUM_IN
in use, a beat falls where a qualifying edge has come, and none falls before that (R22). An accepted start of the audio unit takes
effect at a beat, with its filters clear and its staging area fixed, or is refused there where the divider's rate has left the
table. A panel whose link is in RUN and whose engine scans starts a scan at a beat: its SCAN frame goes out, of the half of the
grid, the listen scan and the frequency that the beat's number and the engine's phase give, and its BEAT mark is placed; a report
that was not written by then is dropped and counted. R22, R23, R24: with DRUM_IN in use an edge between 0.999 and 1.001 of the
programmed period after the previous beat is taken for the next beat, and any other edge is ignored. Where no such edge has come,
the beat is taken from the divider and DEVIANT_EDGES counts; the fourth such beat in a row enters holdover, in which the divider is
the source in use, and raises IN_LOST and fault input 3. R40: a write of SYS_0_BREACH_CLR clears the counters whose bits it sets, of
ranks 2 to 10, and sets their LAST_PORT to 0x3F; it changes nothing else. (A breach counted in the clock of the clear, R40, is a
command of its own that comes after it, log entry 12, and is not said here.) The readings and choices of the model behind it: log
entry 25. -/
def Obligations.BeatCountsUpAndFollowsDrumIn : Prop :=
  (∀ (s : State) (n : Fin 8),
    let falls := !s.bit Reg.DRUM_STATUS_ACTIVE_SOURCE || s.drum.edgeDue
    let number := (s.drumbeat + 1) % 2 ^ 64
    let r := s.tch n
    let ph := s.get (Reg.TOUCH_STATUS_PHASE n)
    let listen := ph == 3 && number % 16 == 15
    let half := if s.halfScans n then number % 2 + 1 else 0
    let all := (s.grid n).groups
    let freq := s.scanFreq n listen
    let guard := if ph = 4 then r.stImage else 0
    let head : List Byte := [BitVec.ofNat 8 r.seq, 3, 2, BitVec.ofNat 8 (half + (if listen then 0 else 4) + 8 * guard), BitVec.ofNat 8 freq]
    (falls = true → s.aud.startDue = true →
      (s.drum.audioRate = false → Leads .beat s fun t => t.aud.startDue = false ∧ t.bit Reg.AUD_CTRL_EN = false ∧
        t.bit Reg.AUD_STATUS_CFG_ERR = true ∧ t.get Reg.AUD_STATUS_ERR_CODE = 1 ∧
        t.bit Reg.AUD_STATUS_RUNNING = s.bit Reg.AUD_STATUS_RUNNING ∧ t.drumbeat = number) ∧
      (s.drum.audioRate = true → Leads .beat s fun t => t.aud.startDue = false ∧ t.bit Reg.AUD_STATUS_RUNNING = true ∧ t.aud.block = 0 ∧
        t.aud.stage = 256 * s.get Reg.AUD_STAGE_ADDR ∧ t.aud.hpf = [] ∧ t.aud.eq = [] ∧ t.aud.staged = false ∧ t.aud.silent = true ∧
        t.aud.stopDue = false ∧ t.drumbeat = number)) ∧
    (falls = true → s.get (Reg.TSL_STATUS_STATE n) = 3 →
      (r.reportDue = true → Leads .beat s fun t => (t.tch n).reportDue = false ∧ t.bit (Reg.TOUCH_STATUS_OVERRUN n) = true ∧
        t.get (Reg.TOUCH_COUNTS_DROPPED n) = s.more (Reg.TOUCH_COUNTS_DROPPED n)) ∧
      (2 ≤ ph → ph ≤ 5 → Leads .beat s fun t =>
        let k := (t.tch n).scan
        k.active = true ∧ k.drum = number ∧ k.dseq = r.seq ∧ k.listen = listen ∧ k.half = half ∧ k.freq = freq ∧ k.got = 0 ∧ k.convs = 0 ∧
          k.isOpen = false ∧ k.quiet = (ph != 3 && s.sends (s.get (Reg.TOUCH_CTRL_SCREEN n))) ∧
          k.first = (if half = 2 then (all + 1) / 2 else 0) ∧
          k.groups = (if half = 0 then all else if half = 1 then (all + 1) / 2 else all - (all + 1) / 2) ∧
          k.phase < 80 ∧ k.marks.map (·.mark) = [.beat] ∧ k.marks.map (·.instant) = [0] ∧
          (∀ m ∈ k.marks, -(s.get (Reg.TSL_CTRL_MARK_LEAD n) : Int) ≤ m.time ∧ m.time < 80 - (s.get (Reg.TSL_CTRL_MARK_LEAD n) : Int) ∧
            (m.time - k.phase) % 80 = 0) ∧
          (t.tch n).sent = [head ++ leBytes 2 (crc16 head)] ∧ (t.tch n).fseq = 0 ∧ (t.tch n).seq = (r.seq + 1) % 256) ∧
      (ph < 2 ∨ 5 < ph → Leads .beat s fun t => (t.tch n).scan.active = false ∧ (t.tch n).sent = [])) ∧
    (s.aud.startDue = false → (∀ m < 8, s.linkState m ≠ 3) →
    (s.bit Reg.DRUM_STATUS_ACTIVE_SOURCE = false →
      SetsAnd .beat s
        [(Reg.DRUM_COUNT_LO_COUNT, (s.drumbeat + 1) % 2 ^ 64 % 2 ^ 32), (Reg.DRUM_COUNT_HI_COUNT, (s.drumbeat + 1) % 2 ^ 64 / 2 ^ 32)]
        fun t => t.drum.gridBeat = some (match s.drum.gridBeat with | none => 0 | some k => k + 1) ∧
          t.drum.interval = (match s.drum.gridBeat with | none => 0 | some k => s.drum.edgeOf (k + 1) - s.drum.edgeOf k) ∧
          t.drum.outPulses = s.drum.outPulses + (if s.bit Reg.DRUM_CTRL_OUT_EN then 1 else 0)) ∧
    (s.bit Reg.DRUM_STATUS_ACTIVE_SOURCE = true → s.drum.edgeDue = true →
      SetsAnd .beat s
        [(Reg.DRUM_COUNT_LO_COUNT, (s.drumbeat + 1) % 2 ^ 64 % 2 ^ 32), (Reg.DRUM_COUNT_HI_COUNT, (s.drumbeat + 1) % 2 ^ 64 / 2 ^ 32)]
        fun t => t.drum.gridBeat = some 0 ∧ t.drum.edgeDue = false ∧ t.drum.interval = ceilDiv (s.drum.edgeNs + 160) 40) ∧
    (s.bit Reg.DRUM_STATUS_ACTIVE_SOURCE = true → s.drum.edgeDue = false → Does .beat s s []))) ∧
  (∀ (s : State) (ns : Nat),
    (s.bit Reg.DRUM_STATUS_ACTIVE_SOURCE = true →
      999 * (40 * (s.drum.int * s.drum.den + s.drum.num)) ≤ 1000 * s.drum.den * ns →
      1000 * s.drum.den * ns ≤ 1001 * (40 * (s.drum.int * s.drum.den + s.drum.num)) →
      Does (.drumInEdge ns) s { s with drum := { s.drum with edgeDue := true, edgeNs := ns, missed := 0 } } []) ∧
    (¬ (s.bit Reg.DRUM_STATUS_ACTIVE_SOURCE = true ∧
        999 * (40 * (s.drum.int * s.drum.den + s.drum.num)) ≤ 1000 * s.drum.den * ns ∧
        1000 * s.drum.den * ns ≤ 1001 * (40 * (s.drum.int * s.drum.den + s.drum.num))) → Does (.drumInEdge ns) s s []) ∧
    (s.bit Reg.DRUM_STATUS_ACTIVE_SOURCE = true → s.drum.edgeDue = false → s.aud.startDue = false →
      (∀ n < 8, s.linkState n ≠ 3) →
      (s.drum.missed < 3 →
        SetsAnd .drumInMissing s
          [(Reg.DRUM_COUNT_LO_COUNT, (s.drumbeat + 1) % 2 ^ 64 % 2 ^ 32),
           (Reg.DRUM_COUNT_HI_COUNT, (s.drumbeat + 1) % 2 ^ 64 / 2 ^ 32),
           (Reg.DRUM_STATUS_DEVIANT_EDGES, s.more Reg.DRUM_STATUS_DEVIANT_EDGES)]
          fun t => t.drum.missed = s.drum.missed + 1 ∧ t.drum.gridBeat = some 0) ∧
      (3 ≤ s.drum.missed → s.SourceFree 122 →
        DoesThen .drumInMissing s
          (({ s with drum := { s.drum with
              missed := s.drum.missed + 1, gridBeat := some 0,
              interval := ceilDiv (1001 * (s.drum.int * s.drum.den + s.drum.num)) (1000 * s.drum.den),
              outPulses := s.drum.outPulses + (if s.bit Reg.DRUM_CTRL_OUT_EN then 1 else 0) } } : State).each (List.range 8)
            fun n t => t.linkBegin n)
          [(Reg.IC_SRC_PENDING 122, 1), (Reg.DRUM_STATUS_EVENTS, s.more Reg.DRUM_STATUS_EVENTS), (Reg.DRUM_STATUS_IN_LOST, 1),
           (Reg.DRUM_STATUS_ACTIVE_SOURCE, 0), (Reg.DRUM_STATUS_HOLDOVER, 1),
           (Reg.DRUM_COUNT_LO_COUNT, (s.drumbeat + 1) % 2 ^ 64 % 2 ^ 32),
           (Reg.DRUM_COUNT_HI_COUNT, (s.drumbeat + 1) % 2 ^ 64 / 2 ^ 32),
           (Reg.DRUM_STATUS_DEVIANT_EDGES, s.more Reg.DRUM_STATUS_DEVIANT_EDGES)]
          fun t => (t.raiseFault 3).drumGridRestart))) ∧
  (∀ (s : State) (w : World) (v : Word), s.Admits w 0x00 0 false →
    Does (.breachClr w v) s s
      ([10, 9, 8, 7, 6, 5, 4, 3, 2].flatMap fun k =>
        if bitOf v.toNat k then [(Reg.SYS_BREACH_LAST_PORT k, 0x3F), (Reg.SYS_BREACH_COUNT k, 0)] else []))

/-- R33, R216, R237, R240, R335: a write of bytes by a requester. To management SRAM it writes those bytes and answers its requester; to
an unmirrored place of a side in service it writes those bytes of that side; in the mirrored view it writes them on each side that
accepts mirrored writes, and on a side that does not it writes none and marks their granules dirty (R237). It changes no register
but those dirty bits, and no other byte. A write to an unmirrored place of a side that is frozen or resyncing changes no byte and
counts in DROPPED of its requester's port (R240). The world a requester carries is a core's world bit, normal for pipes, video
inputs and guest ports, and secure for sextants (R332); the debug port carries the secure world under SNI or SI alone, and a write
that its enables do not allow has no effect (R357). R33, R34, R335, R400: an access to an address that is not decoded, and a write
through a side's range to a mirrored offset, is not performed: it raises fault input 1 (DECODE) with its address and requester, and
a read returns zeros. A normal-world write of secure management SRAM by a unit of the data plane is discarded without a fault; by a
core it raises fault input 2 (SECMEM) and ends in an error. Nothing is written in any of these. The readings and choices of the
model behind it: log entries 4, 49, 67, 84, 99. -/
def Obligations.FabricWriteStoresOrIsRefused : Prop :=
  (∀ (s : State) (m : Master) (off : Nat) (n : Side) (bs : List Byte),
    let c := s.carrier m
    (m.kind = .core → c.world = s.coreWorld m.id) ∧
    (m.kind = .guest ∨ (m.kind = .fabric ∧ (m.id.val ≤ 9 ∨ 12 ≤ m.id.val ∧ m.id.val ≤ 23)) → c.world = .normal) ∧
    (m.kind = .fabric → m.id = 10 ∨ m.id = 11 → c.world = .secure) ∧
    (m.kind = .debug → c.world = if m.world = .secure ∧ s.bit Reg.DBG_EN_SNI = true then .secure else .normal) ∧
    (s.mayAccess c true = false → m.kind = .debug ∧ s.invasive c.world = false ∧
      Does (.fabricWrite m (BitVec.ofNat 40 off) bs) s { s with nextReq := s.nextReq + 1, replies := [{ id := s.nextReq }] } []) ∧
    (1 ≤ bs.length → s.mayAccess c true = true →
    (off + bs.length ≤ 0x400000 → (c.world = .normal → s.sramSplit ≤ off) →
      Leads (.fabricWrite m (BitVec.ofNat 40 (0x0F00000000 + off)) bs) s fun t => s.SramTook off bs t ∧ s.SideTook 0 0 [] t ∧
        s.SideTook 1 0 [] t ∧ s.FlashSame t ∧ s.RegsSet [] t ∧ t.replies = [{ id := s.nextReq }]) ∧
    (off + bs.length ≤ s.usable n → s.touchesMirrored off bs.length = false → s.sideDown n = false →
      (c.world = .normal → (granulesOf off bs.length).any s.granuleSecure = false) →
      Leads (.fabricWrite m (BitVec.ofNat 40 (n.val * 0x0400000000 + off)) bs) s fun t => s.SideTook n off bs t ∧
        s.SideTook (1 - n.val) 0 [] t ∧ s.SramTook 0 [] t ∧ s.FlashSame t ∧ s.RegsSet [] t ∧
        t.replies = [{ id := s.nextReq }]) ∧
    (off + bs.length ≤ s.usable 0 → off + bs.length ≤ s.usable 1 → s.mirrored off bs.length = true →
      (c.world = .normal → (granulesOf off bs.length).any s.granuleSecure = false) →
      Leads (.fabricWrite m (BitVec.ofNat 40 (0x0800000000 + off)) bs) s fun t => t.replies = [{ id := s.nextReq }] ∧
        (∀ k < 2, if s.sideAccepts k then s.SideTook k off bs t
          else s.SideTook k 0 [] t ∧ ∀ g ∈ granulesOf off bs.length, t.isDirty k g = true) ∧
        s.RegsSet ((List.range 2).flatMap fun k => if s.sideAccepts k then [] else (granulesOf off bs.length).map fun g =>
          (({ addr := Reg.MSIDE_DIRTY k (g / 32), lo := g % 32, width := 1 } : Fld), 1)) t ∧
        s.SramTook 0 [] t ∧ s.FlashSame t) ∧
    (off + bs.length ≤ s.usable n → s.touchesMirrored off bs.length = false → s.sideDown n = true →
      (c.world = .normal → (granulesOf off bs.length).any s.granuleSecure = false) →
      let dropped := Reg.QOS_STATUS_DROPPED (match m.kind with
        | .fabric => m.id.val | .core => 27 + m.id.val | .guest => 16 + 2 * m.id.val | .debug => 35)
      Does (.fabricWrite m (BitVec.ofNat 40 (n.val * 0x0400000000 + off)) bs) s
        { s with nextReq := s.nextReq + 1, replies := [{ id := s.nextReq }] } [(dropped, s.more dropped)]))) ∧
  (∀ (s : State) (m : Master) (off : Nat) (n : Side) (bs : List Byte) (len : Nat),
    1 ≤ bs.length → 1 ≤ len → s.mayAccess (s.carrier m) true = true → s.mayAccess (s.carrier m) false = true →
    (0x0F00400000 ≤ off → off < 0x0FF0000000 →
      exec (.fabricWrite m (BitVec.ofNat 40 off) bs) s = .next ((({ s with nextReq := s.nextReq + 1, replies := [] } : State).noteDecode
        { addr := off, type := 2, master := s.carrier m }).reply { id := s.nextReq, status := .error }) ∧
      exec (.fabricRead (.addr m (BitVec.ofNat 40 off)) len) s =
        .next ((({ s with nextReq := s.nextReq + 1, replies := [] } : State).noteDecode
          { addr := off, type := 1, master := s.carrier m }).reply
          { id := s.nextReq, status := .error, data := List.replicate len 0 })) ∧
    (off + bs.length ≤ s.usable n → s.touchesMirrored off bs.length = true →
      exec (.fabricWrite m (BitVec.ofNat 40 (n.val * 0x0400000000 + off)) bs) s =
        .next ((({ s with nextReq := s.nextReq + 1, replies := [] } : State).noteDecode
          { addr := n.val * 0x0400000000 + off, type := 2, master := s.carrier m }).reply { id := s.nextReq, status := .error })) ∧
    (off + bs.length ≤ 0x400000 → (s.carrier m).world = .normal → off < s.sramSplit →
      (m.kind = .fabric → masterCore m = none → Does (.fabricWrite m (BitVec.ofNat 40 (0x0F00000000 + off)) bs) s
        { s with nextReq := s.nextReq + 1, replies := [{ id := s.nextReq }] } []) ∧
      ((masterCore m).isSome = true → exec (.fabricWrite m (BitVec.ofNat 40 (0x0F00000000 + off)) bs) s =
        .next ((({ s with nextReq := s.nextReq + 1, replies := [] } : State).noteSecmem
          { addr := 0x0F00000000 + off, type := 2, master := s.carrier m }).reply { id := s.nextReq, status := .error }))))

/-- R33, R217, R218, R236, R334: a read of management SRAM returns its bytes and changes nothing but the tagged lines of a core: after a
core's read a lookup in its world finds the line, and no lookup in the other world finds more than it did. A read within one 64-byte
line of a side in service enters a channel of that side with the bytes that side holds; in the mirrored view the side is the one
that bit 12 of the offset names, or the other while that side is frozen or resyncing. A read that only sides out of service could
serve returns poison. R211, R218, R230, R244: where a read's data returns clean from a channel, the request leaves the channel and
its requester is answered with the bytes the latest writes had left; the link corrections count and the port's longest latency
follows. Data that inline ECC has corrected is returned too, and its row enters the corrected-row table (R244). Where it finds an
uncorrectable error, ECC_STATUS.UE is raised and the side freezes with cause 1 (R234). The readings and choices of the model behind
it: log entries 84, 90. -/
def Obligations.FabricReadReturnsTheBytes : Prop :=
  (∀ (s : State) (m : Master) (off : Nat) (n : Side) (len : Nat),
    let tagged := s.tagLines (s.carrier m) (0x0F00000000 + off) len
    1 ≤ len → off % 64 + len ≤ 64 → s.mayAccess (s.carrier m) false = true →
    (off + len ≤ 0x400000 → ((s.carrier m).world = .normal → s.sramSplit ≤ off) →
      Does (.fabricRead (.addr m (BitVec.ofNat 40 (0x0F00000000 + off))) len) s
        { tagged with nextReq := s.nextReq + 1,
                      replies := [{ id := s.nextReq, data := (List.range len).map fun i => s.sramByte (off + i) }] } [] ∧
      (m.kind ≠ .core → m.kind ≠ .fabric → tagged = s) ∧
      (m.kind = .core → m.id.val < 5 →
        Leads (.fabricRead (.addr m (BitVec.ofNat 40 (0x0F00000000 + off))) len) s fun t =>
          (t.tagHit .l1 m.id ((0x0F00000000 + off) / 64) (s.coreWorld m.id) &&
            t.tagHit .l2 5 ((0x0F00000000 + off) / 64) (s.coreWorld m.id)) = true ∧
          (∀ w ∈ [World.normal, .secure], w ≠ s.coreWorld m.id → ∀ k ∈ [TagKind.l1, .l2, .tlb], ∀ i ∈ List.range 6,
            t.tagHit k i ((0x0F00000000 + off) / 64) w = true → s.tagHit k i ((0x0F00000000 + off) / 64) w = true))) ∧
    (((s.carrier m).world = .normal → (granulesOf off len).any s.granuleSecure = false) →
      (off + len ≤ s.usable n →
        (s.sideDown n = true →
          Does (.fabricRead (.addr m (BitVec.ofNat 40 (n.val * 0x0400000000 + off))) len) s
            { s with nextReq := s.nextReq + 1, replies := [{ id := s.nextReq, status := .poison }] } []) ∧
        (s.sideDown n = false → s.sideStarting n = false →
          SetsAnd (.fabricRead (.addr m (BitVec.ofNat 40 (n.val * 0x0400000000 + off))) len) s [] fun t => t.replies = [] ∧
            ∃ r ∈ (t.chan n (dramPlace off).ch).readQ, r.id = s.nextReq ∧ r.len = len ∧
              r.addr = n.val * 0x0400000000 + off ∧ r.mirrored = false ∧
              r.tag = s.nextReq ∧
              r.data = (List.range len).map fun i => s.sideByte n (off + i))) ∧
      (off + len ≤ s.usable 0 → off + len ≤ s.usable 1 → s.mirrored off len = true →
        let own := off / 0x1000 % 2
        let k := if s.sideDown own then 1 - own else own
        (s.sideDown 0 = true → s.sideDown 1 = true → Does (.fabricRead (.addr m (BitVec.ofNat 40 (0x0800000000 + off))) len) s
          { s with nextReq := s.nextReq + 1, replies := [{ id := s.nextReq, status := .poison }] } []) ∧
        (s.sideDown k = false → s.sideStarting k = false →
          SetsAnd (.fabricRead (.addr m (BitVec.ofNat 40 (0x0800000000 + off))) len) s [] fun t => t.replies = [] ∧
            ∃ r ∈ (t.chan k (dramPlace off).ch).readQ, r.id = s.nextReq ∧ r.len = len ∧ r.addr = 0x0800000000 + off ∧
              r.mirrored = true ∧ r.tag = s.nextReq ∧ r.data = (List.range len).map fun i => s.sideByte k (off + i))))) ∧
  (∀ (s : State) (n : Side) (ch : Fin 8) (id link ns : Nat) (ok : Bool),
    match (s.chan n ch).inFlight.find? (·.id == id) with
    | none => Does (.dramReadReturn n ch id .clean link ns ok) s s []
    | some r =>
      SetsAnd (.dramReadReturn n ch id .clean link ns ok) s
        [(Reg.QOS_MAXLAT_NS r.port, max (s.get (Reg.QOS_MAXLAT_NS r.port)) (min ns (2 ^ 32 - 1))),
         (Reg.MSIDE_LINK_ECC_READ_CORR n, satAdd 16 (s.get (Reg.MSIDE_LINK_ECC_READ_CORR n)) link)]
        (fun t => t.replies = s.replies ++ [{ id := r.tag, status := .ok, data := r.data }] ∧
          (t.chan n ch).inFlight = (s.chan n ch).inFlight.filter (·.id != id) ∧ (t.chan n ch).readQ = (s.chan n ch).readQ) ∧
      DoesThen (.dramReadReturn n ch id .corrected link ns ok) s
        (s.setChan n ch { s.chan n ch with inFlight := (s.chan n ch).inFlight.filter (·.id != id) })
        [(Reg.MSIDE_LINK_ECC_READ_CORR n, satAdd 16 (s.get (Reg.MSIDE_LINK_ECC_READ_CORR n)) link)]
        (fun t => ((t.ceRow n (dramPlace r.offset).ch (dramPlace r.offset).bank (dramPlace r.offset).row).raiseTo
          (Reg.QOS_MAXLAT_NS r.port) ns).reply { id := r.tag, data := r.data }) ∧
      (s.SourceFree (53 + n) → DoesThen (.dramReadReturn n ch id .uncorrectable link ns ok) s s
        [(Reg.IC_SRC_PENDING (53 + n), 1), (Reg.MSIDE_ECC_STATUS_EVENTS n, s.more (Reg.MSIDE_ECC_STATUS_EVENTS n)),
         (Reg.MSIDE_ECC_STATUS_UE n, 1),
         (Reg.MSIDE_LINK_ECC_READ_CORR n, satAdd 16 (s.get (Reg.MSIDE_LINK_ECC_READ_CORR n)) link)]
        fun t => t.freezeSide n 1 (some ((n.val * 0x0400000000 + r.offset) / 64 * 64)) ok))

/-- R5, R7, R9, R36, R351, R478: a 32-bit write by a core or the debug port, to a register that acts only as its access types state, of
an instance that exists and whose clock runs, by one who may write it. RW and RWS bits take the written value, RWL bits while their
LOCK is clear, W1C bits clear and W1S bits set where a 1 is written, and every other bit stays; nothing else changes. The registers
are those of XBAR and PIPE, of SCL but its owner, of RTC but SNAP and SET, and of WEAR but WORN and OTP_CMD. A 32-bit read of one of
these registers, by one who may read it, returns what it holds, with its WO bits 0, and changes nothing; outside the layer handles
of a session's page a read of an offset that holds no register, by the normal world of what is the secure world's, or of an instance
whose clock is stopped returns 0 without a fault and changes no register. R4, R33, R35, R36, R478: a register access of 1 to 3
bytes, and one of 4 or 8 whose address is no multiple of its width, is not performed and raises fault input 0 (REG_ACCESS): a read
returns 0. One to an instance or unit code that does not exist, and one by a requester other than the cores and the debug port, is
handled as R33 states. A write of 32 bits has the effect of its register, an access of 64 bits is performed as the two accesses of
32 bits that it covers, the lower address first, and a write to an offset of an instance that holds no register is ignored without a
fault. Every write completes, whatever its place and its width, and is numbered. The readings and choices of the model behind it:
log entries 49, 58, 59, 67. -/
def Obligations.RegisterAccessFollowsAccessTypes : Prop :=
  (∀ (s : State) (m : Master) (u i o : Nat) (v : Word),
    let a := Machine.reg u i o
    let denied := decide ((s.carrier m).world = .normal) && s.regDenied u i o
    let read : Instr := .fabricRead (.addr m (BitVec.ofNat 40 (0x1000000000 + a))) 4
    let answer := fun (x : Word) => ({ s with nextReq := s.nextReq + 1, replies := [{ id := s.nextReq, data := leBytes 4 x.toNat }] } : State)
    m.kind = .core ∨ m.kind = .debug → i < unitInstances u → o < 0x10000 → o % 4 = 0 →
    (s.mayAccess (s.carrier m) false = true → ¬(u = 0x0E ∧ 0x400 ≤ o ∧ o < 0xC00) → (rowAt a).isNone = true ∨ denied = true ∨ s.isGated u i = true →
      SetsAnd read s [] fun t => t.replies = [{ id := s.nextReq, data := [0, 0, 0, 0] }] ∧ s.SameBytes t) ∧
    ((u = 0x03 ∨ u = 0x05 ∨ (u = 0x08 ∧ o ≠ 0xFFF0) ∨ (u = 0x1C ∧ o ≠ 8 ∧ o ≠ 0x1C) ∨ (u = 0x1D ∧ o ≠ 8 ∧ o ≠ 0x20)) →
    denied = false → s.isGated u i = false →
    match rowAt a with
    | none => True
    | some (r, _) =>
      (s.mayAccess (s.carrier m) false = true → Does read s (answer (s.reg a &&& ~~~r.wo)) []) ∧
      (s.mayAccess (s.carrier m) true = true → SetsAnd (.registerWrite (.grid m (BitVec.ofNat 32 (Machine.reg u i o))) (leBytes 4 v.toNat)) s
        [(whole (Machine.reg u i o), (rowWrite r (s.locked (Machine.reg u i o)) (s.reg (Machine.reg u i o)) v).toNat)]
        fun t => t.replies = [{ id := s.nextReq }] ∧ ∀ b < 32, (t.reg (Machine.reg u i o)).getLsbD b =
          (((if r.rw.getLsbD b || r.rws.getLsbD b || (r.rwl.getLsbD b && !s.locked (Machine.reg u i o)) then v.getLsbD b
            else (s.reg (Machine.reg u i o)).getLsbD b) && !(r.w1c.getLsbD b && v.getLsbD b)) ||
            (r.w1s.getLsbD b && v.getLsbD b))))) ∧
  (∀ (s : State) (m : Master) (u i o len : Nat) (v x : Word) (bs : List Byte),
    u < 256 → i < 256 → o < 0x10000 →
    let a := Machine.reg u i o
    let c := s.carrier m
    let after : State := { s with nextReq := s.nextReq + 1, replies := [] }
    let write := fun (bs : List Byte) => exec (.registerWrite (.grid m (BitVec.ofNat 32 a)) bs) s
    let read := fun (len : Nat) => exec (.fabricRead (.addr m (BitVec.ofNat 40 (0x1000000000 + a))) len) s
    let zeros := fun (len : Nat) => List.replicate len (0 : Byte)
    let mayWrite := s.mayAccess c true
    let mayRead := s.mayAccess c false
    let uses := m.kind == .core || m.kind == .debug
    let narrow := fun (k : Nat) => decide ((1 ≤ k ∧ k ≤ 3) ∨ ((k = 4 ∨ k = 8) ∧ o % k ≠ 0))
    (uses = true → i < unitInstances u →
      (mayWrite = true → narrow bs.length = true → write bs =
        .next ((after.noteRegAccess { addr := 0x1000000000 + a, type := 5, master := c }).reply { id := s.nextReq })) ∧
      (mayRead = true → narrow len = true → read len =
        .next ((after.noteRegAccess { addr := 0x1000000000 + a, type := 4, master := c }).reply { id := s.nextReq, data := zeros len })) ∧
      (mayWrite = true → o % 4 = 0 → write (leBytes 4 v.toNat) = .next ((after.regWrite c.world a v).reply { id := s.nextReq })) ∧
      (mayWrite = true → o % 8 = 0 → write (leBytes 4 v.toNat ++ leBytes 4 x.toNat) =
        .next (((after.regWrite c.world a v).regWrite c.world (a + 4) x).reply { id := s.nextReq })) ∧
      (mayRead = true → o % 8 = 0 → ¬(u = 0x0E ∧ 0x400 ≤ o ∧ o < 0xC00) →
        read 8 = .next (after.reply
          { id := s.nextReq, data := leBytes 4 (s.regView c.world a).toNat ++ leBytes 4 (s.regView c.world (a + 4)).toNat })) ∧
      (mayWrite = true → o % 4 = 0 → rowAt a = none → ¬(u = 0x0E ∧ 0x400 ≤ o ∧ o < 0xC00) →
        Does (.registerWrite (.grid m (BitVec.ofNat 32 a)) (leBytes 4 v.toNat)) s
          { s with nextReq := s.nextReq + 1, replies := [{ id := s.nextReq }] } [])) ∧
    (uses = false ∨ unitInstances u ≤ i →
      (mayWrite = true → write bs =
        .next ((after.noteDecode { addr := 0x1000000000 + a, type := 5, master := c }).reply { id := s.nextReq, status := .error })) ∧
      (mayRead = true → read len =
        .next ((after.noteDecode { addr := 0x1000000000 + a, type := 4, master := c }).reply
          { id := s.nextReq, status := .error, data := zeros len }))) ∧
    exec (.fabricWrite m (BitVec.ofNat 40 (0x1000000000 + a)) bs) s = exec (.registerWrite (.grid m (BitVec.ofNat 32 a)) bs) s ∧
    (∀ g ∈ [Instr.registerWrite (.grid m x) bs, .fabricWrite m (BitVec.ofNat 40 (x.toNat * 0x100 + v.toNat % 0x100)) bs],
      Leads g s fun t => s.nextReq + 1 ≤ t.nextReq ∧ t.pending = s.pending))

/-- R234 to R237: a parity error freezes a side that is in service or on its way to it. The diagnosis buffer takes the waiting reads and
writes, the side is FROZEN with its cause, its instant and SR_UNCERTAIN where self-refresh entry is not confirmed; then what was
outstanding resolves, the side's source is raised, and its fault input; and where the other side is out of service too, BOTH_SIDES.
A side that is OFF or FROZEN stays as it is. R214: while the table is unlocked, an entry whose VALID would be 0 takes its base or
size, and so does one whose range is of at least one granule, lies in installed memory on both sides and overlaps no other valid
entry; a write of the base or the size of an entry that would be valid and fails those checks is refused with CFG_ERR and changes
neither. While it is locked a write does nothing. The readings and choices of the model behind it: log entries 25, 43, 57, 70. -/
def Obligations.ParityErrorFreezesASide : Prop :=
  (∀ (s : State) (n : Side) (ok : Bool),
    (s.sideMode n = 1 ∨ s.sideMode n = 2 ∨ s.sideMode n = 3 ∨ s.sideMode n = 5 →
      DoesThen (.caParityError n ok) s
        (((s.captureQueue n 0 (s.sideQueue n fun c => c.readQ)).captureQueue n 64 (s.sideQueue n fun c => c.writeQ)).setSide n
          { s.side n with releasing := false, todo := [], copied := 0, again := [], flight := [] })
        [(Reg.MSIDE_RESYNC_REMAINING n, 0), (Reg.MSIDE_FREEZE_DRUM_DRUM n, s.drumbeat), (Reg.MSIDE_FREEZE_ADDR_ADDR n, 0),
         (Reg.MSIDE_FREEZE_STATUS_EVENTS n, s.more (Reg.MSIDE_FREEZE_STATUS_EVENTS n)),
         (Reg.MSIDE_FREEZE_STATUS_SR_UNCERTAIN n, b2n !ok),
         (Reg.MSIDE_FREEZE_STATUS_FREEZES n, s.more (Reg.MSIDE_FREEZE_STATUS_FREEZES n)), (Reg.MSIDE_FREEZE_STATUS_CAUSE n, 2),
         (Reg.MSIDE_FREEZE_CTRL_RELEASE n, 0), (Reg.MSIDE_STATUS_STATE n, 4)]
        fun t =>
          let v := ((t.resolveSide n).raiseIrq (53 + n)).raiseFault (128 + n)
          if v.sideDown (1 - n.val) then
            ((if v.sideMode (1 - n.val) = 5 then v.setSide (1 - n.val) { v.side (1 - n.val) with stopped := true, flight := [] }
              else v).raiseFault 8).inOrder s
          else v) ∧
    (s.sideMode n = 0 ∨ s.sideMode n = 4 → Does (.caParityError n ok) s s [])) ∧
  (∀ (s : State) (w : World) (k : Fin 32) (v : Word), s.Admits w 0x0B 0 false →
    (s.bit (Reg.MSIDE_CFG_LOCK 0) = true → Does (.mirrorEntryWrite w k false v) s s [] ∧ Does (.mirrorEntryWrite w k true v) s s []) ∧
    (s.bit (Reg.MSIDE_CFG_LOCK 0) = false →
      ((s.bit (Reg.MSIDE_MIRROR_SIZE_VALID 0 k) = false ∨
          s.mirrorOk k (getBits v 0 14) (s.get (Reg.MSIDE_MIRROR_SIZE_GRANULES 0 k)) = true) →
        Does (.mirrorEntryWrite w k false v) s s [(Reg.MSIDE_MIRROR_BASE_GRANULE 0 k, getBits v 0 14)]) ∧
      (getBits v 31 1 = 0 ∨ s.mirrorOk k (s.get (Reg.MSIDE_MIRROR_BASE_GRANULE 0 k)) (getBits v 0 14) = true →
        Does (.mirrorEntryWrite w k true v) s s
          [(Reg.MSIDE_MIRROR_SIZE_GRANULES 0 k, getBits v 0 14), (Reg.MSIDE_MIRROR_SIZE_VALID 0 k, getBits v 31 1)]) ∧
      (getBits v 31 1 = 1 → s.mirrorOk k (s.get (Reg.MSIDE_MIRROR_BASE_GRANULE 0 k)) (getBits v 0 14) = false → s.SourceFree 53 →
        Does (.mirrorEntryWrite w k true v) s s
          [(Reg.IC_SRC_PENDING 53, 1), (Reg.MSIDE_STATUS_EVENTS 0, s.more (Reg.MSIDE_STATUS_EVENTS 0)),
           (Reg.MSIDE_STATUS_CFG_ERR 0, 1)]) ∧
      (s.bit (Reg.MSIDE_MIRROR_SIZE_VALID 0 k) = true → s.mirrorOk k (getBits v 0 14) (s.get (Reg.MSIDE_MIRROR_SIZE_GRANULES 0 k)) = false →
        s.SourceFree 53 → Does (.mirrorEntryWrite w k false v) s s
          [(Reg.IC_SRC_PENDING 53, 1), (Reg.MSIDE_STATUS_EVENTS 0, s.more (Reg.MSIDE_STATUS_EVENTS 0)),
           (Reg.MSIDE_STATUS_CFG_ERR 0, 1)])))

/-- R213, R219, R241: the ends of a side's training. In the start, with every eye at least 16 steps wide and the verification passed,
the delays and widths of the sixteen byte lanes are those of the widest runs, the tracking offsets are 0, the installed and usable
memory are shown and the side zero-initialises; once that ends every byte of the side that no waiting write covers reads 0 and the
side is ACTIVE. In a release with dirty granules to copy the side goes to RESYNC; a retraining that fails leaves it FROZEN with
RETRAIN_FAIL. (Where the boot ROM waits for both sides and they have ended their start, it goes on, R372: that is not said here.)
The readings and choices of the model behind it: log entries 43, 70. -/
def Obligations.SideTrainingEndsAsItsEyesSay : Prop := ∀ (s : State) (n : Side) (lanes : List (BitVec 128 × BitVec 128)) (ppr : BitVec 4) (ok : Bool),
  let wide := ∀ b < 16, 16 ≤ (widestRun (lanes.getD b (0, 0)).1.toNat).2 ∧ 16 ≤ (widestRun (lanes.getD b (0, 0)).2.toNat).2
  let delays := (List.range 16).reverse.flatMap fun b =>
    let rd := widestRun (lanes.getD b (0, 0)).1.toNat
    let wr := widestRun (lanes.getD b (0, 0)).2.toNat
    [(whole (Reg.MSIDE_TRACK n b), 0), (Reg.MSIDE_TRAIN_WR_WIDTH n b, wr.2), (Reg.MSIDE_TRAIN_WR_CENTRE n b, runCentre wr),
     (Reg.MSIDE_TRAIN_RD_WIDTH n b, rd.2), (Reg.MSIDE_TRAIN_RD_CENTRE n b, runCentre rd)]
  (s.sideMode n = 1 → (s.side n).releasing = false → (∀ k < 4, s.bit (Reg.MSIDE_PPR_VALID n k) = false) → wide →
    Does (.memTrainDone n lanes true ppr ok) s s
      ((Reg.MSIDE_STATUS_STATE n, 2) :: delays ++
        [(Reg.MSIDE_CAP_USABLE n, s.usableGranules n), (Reg.MSIDE_CAP_INSTALLED n, s.fittedGb n)])) ∧
  (s.sideMode n = 2 → (s.boot.romStage = 3 → s.coreRuns 0 = true → s.sideSettled (1 - n.val) = false) →
    Leads (.memInitDone n) s fun t => s.RegsSet [(Reg.MSIDE_STATUS_STATE n, 3)] t ∧
      s.SideZeroed n (fun o => s.writeWaits n o) t ∧ s.SideTook (1 - n.val) 0 [] t ∧ s.SramTook 0 [] t ∧ s.FlashSame t) ∧
  (s.sideMode n = 1 → (s.side n).releasing = true → (s.side n).full = false →
    ((List.range (s.usableGranules n)).filter fun g => s.isDirty n g) ≠ [] → wide →
    Does (.sideRetrainDone n lanes true) s
      (s.setSide n { s.side n with todo := (List.range (s.usableGranules n)).filter fun g => s.isDirty n g })
      ((Reg.MSIDE_RESYNC_REMAINING n, ((List.range (s.usableGranules n)).filter fun g => s.isDirty n g).length) ::
        (Reg.MSIDE_STATUS_STATE n, 5) :: delays)) ∧
  (s.sideMode n = 1 → (s.side n).releasing = true → s.SourceFree (53 + n) →
    Does (.sideRetrainDone n lanes false) s (s.setSide n { s.side n with releasing := false })
      ([(Reg.IC_SRC_PENDING (53 + n), 1), (Reg.MSIDE_FREEZE_STATUS_EVENTS n, s.more (Reg.MSIDE_FREEZE_STATUS_EVENTS n)),
        (Reg.MSIDE_FREEZE_STATUS_RETRAIN_FAIL n, 1), (Reg.MSIDE_FREEZE_CTRL_RELEASE n, 0), (Reg.MSIDE_STATUS_STATE n, 4)] ++
        delays))

/-- R221, R222, R223, R224, R37: the channel's own work. A refresh that falls due is owed, and MAX_DEBT follows; one beyond the eight
that may be postponed is a breach at rank 2, outside a debt recovery. A poll of mode register 4 is out until its data returns; a
reading above 85 °C doubles the rate and the debt, and a debt beyond 4 enters recovery; the sixteenth reading of at most 85 °C
halves them again; a reading above 105 °C freezes the side with cause 3. A channel's delays move towards the measured drift by at
most 4 steps at a time. The readings and choices of the model behind it: log entry 78. -/
def Obligations.ChannelKeepsItsRefreshAndDrift : Prop := ∀ (s : State) (n : Side) (ch : Fin 8) (rd0 wr0 rd1 wr1 : BitVec 8) (ok : Bool),
  let c := s.chan n ch
  (s.sideMode n = 2 ∨ s.sideMode n = 3 ∨ s.sideMode n = 5 →
    let owed := [(Reg.MSIDE_REFRESH_MAX_DEBT n, max (s.get (Reg.MSIDE_REFRESH_MAX_DEBT n)) (min (c.debt + 1) 255))]
    let u := s.setChan n ch { c with debt := c.debt + 1 }
    (c.debt < 8 ∨ c.recovery = true → Does (.refreshDue n ch) s u owed) ∧
    (8 ≤ c.debt → c.recovery = false → DoesThen (.refreshDue n ch) s u owed fun t =>
      t.breach { rank := 2, yielded := 2, port := none, mag := c.debt - 7, unit := 0x0B, inst := n })) ∧
  (s.sideMode n ≠ 0 → Does (.mr4Poll n ch) s (s.setChan n ch { c with mr4Pending := true }) []) ∧
  (s.sideMode n = 0 → Does (.mr4Poll n ch) s s []) ∧
  (c.mr4Pending = true →
    DoesThen (.mr4Result n ch .hot ok) s (s.setChan n ch { c with mr4Pending := false, hot := true, cool := 0 }) []
      (fun t => t.freezeSide n 3 none ok) ∧
    (c.twoX = true → Does (.mr4Result n ch .warm ok) s (s.setChan n ch { c with mr4Pending := false, hot := false, cool := 0 }) []) ∧
    (c.twoX = false →
      Does (.mr4Result n ch .warm ok) s
        (s.setChan n ch { c with mr4Pending := false, hot := false, twoX := true, cool := 0, debt := 2 * c.debt,
                                 recovery := decide (4 < 2 * c.debt) })
        ((if 4 < 2 * c.debt then [(Reg.MSIDE_REFRESH_RECOVERIES n, s.more (Reg.MSIDE_REFRESH_RECOVERIES n))] else []) ++
          [(Reg.MSIDE_REFRESH_MAX_DEBT n, max (s.get (Reg.MSIDE_REFRESH_MAX_DEBT n)) (min (2 * c.debt) 255)),
           (Reg.MSIDE_STATUS_RATE_2X n, setBitOf (s.get (Reg.MSIDE_STATUS_RATE_2X n)) ch)]) ∧
      Does (.mr4Result n ch .cool ok) s (s.setChan n ch { c with mr4Pending := false, hot := false }) []) ∧
    (c.twoX = true → c.cool < 15 →
      Does (.mr4Result n ch .cool ok) s (s.setChan n ch { c with mr4Pending := false, hot := false, cool := c.cool + 1 }) []) ∧
    (c.twoX = true → 15 ≤ c.cool →
      Does (.mr4Result n ch .cool ok) s
        (s.setChan n ch { c with mr4Pending := false, hot := false, twoX := false, cool := 0, debt := (c.debt + 1) / 2 })
        [(Reg.MSIDE_STATUS_RATE_2X n, clearBitOf (s.get (Reg.MSIDE_STATUS_RATE_2X n)) ch)])) ∧
  (s.sideMode n = 2 ∨ s.sideMode n = 3 ∨ s.sideMode n = 5 →
    let o := fun (f : Fld) (d : BitVec 8) => trackStep (sext 8 (s.get f)) d.toInt
    let b := 2 * ch.val
    let moved := [(Reg.MSIDE_TRACK_WR_OFFSET n (b + 1), toBits 8 (o (Reg.MSIDE_TRACK_WR_OFFSET n (b + 1)) wr1)),
      (Reg.MSIDE_TRACK_RD_OFFSET n (b + 1), toBits 8 (o (Reg.MSIDE_TRACK_RD_OFFSET n (b + 1)) rd1)),
      (Reg.MSIDE_TRACK_WR_OFFSET n b, toBits 8 (o (Reg.MSIDE_TRACK_WR_OFFSET n b) wr0)),
      (Reg.MSIDE_TRACK_RD_OFFSET n b, toBits 8 (o (Reg.MSIDE_TRACK_RD_OFFSET n b) rd0))]
    ((∀ x ∈ [o (Reg.MSIDE_TRACK_RD_OFFSET n b) rd0, o (Reg.MSIDE_TRACK_WR_OFFSET n b) wr0,
        o (Reg.MSIDE_TRACK_RD_OFFSET n (b + 1)) rd1, o (Reg.MSIDE_TRACK_WR_OFFSET n (b + 1)) wr1], x.natAbs ≤ 16) →
      Does (.dqsTrack n ch rd0 wr0 rd1 wr1) s s moved) ∧
    (16 < (o (Reg.MSIDE_TRACK_RD_OFFSET n b) rd0).natAbs → (s.side n).driftNoted = false →
      DoesThen (.dqsTrack n ch rd0 wr0 rd1 wr1) s (s.setSide n { s.side n with driftNoted := true }) moved
        fun t => t.raiseFault (130 + n)))

/-- R211, R222, R225, R226, R227, R231, R233, R234, R244, R245: what a channel issues next. A debt recovery issues refreshes alone, and
ends with the records of R225 once the debt is 4; a debt of eight refreshes goes first, then the neighbours of disturbed rows, then
a refresh of an idle bank that is owed; then the request that R231 chooses. A read leaves its queue and is in flight; a write leaves
its queue, and counts the link corrections of its transfers; one of less than a line reads the line first, whose inline errors are
noted as those of a read are. A row that is not open is activated, and is counted: at the threshold it is disturbed. On an idle side
nothing is issued. The patrol scrub of a line that reads clean changes nothing else, and one that reads corrected updates the
corrected-row table. The readings and choices of the model behind it: log entries 70, 110. -/
def Obligations.ChannelIssuesTheRequestRulesPick : Prop := ∀ (s : State) (n : Side) (ch : Fin 8) (ns : Nat) (bank : Option (Fin 16)) (ecc : LineEcc)
    (ok : Bool) (off : BitVec 34),
  let c := s.chan n ch
  let aged : Chan := { c.mapWaiting (fun r => { r with age := r.age + ns }) with
    throttles := c.throttles.map fun (x : Throttle) => { x with since := x.since + ns } }
  let u := s.setChan n ch aged
  let issue : Instr := .channelSchedule n ch ns bank ecc ok
  let serves := s.sideMode n == 2 || s.sideMode n == 3 || s.sideMode n == 5
  let due := (bank.map (·.val)).getD ((c.lastRefresh + 1) % 16)
  let refreshed : Chan := { aged.passed 2 with debt := c.debt - 1, lastRefresh := due,
                                               openRow := sput (fun _ => 0x20000) c.openRow due 0x20000 }
  let quiet := serves && !c.recovery && decide (c.debt < 8)
  let free := quiet && c.neighbours.isEmpty && (c.debt == 0 || bank.isNone)
  let took := fun (r : MemReq) =>
    let q : Chan := { aged with readQ := aged.readQ.filter (·.id != r.id), writeQ := aged.writeQ.filter (·.id != r.id) }
    ({ q.passed (s.portRank r.port) with
      inFlight := if r.write then c.inFlight else c.inFlight ++ [r],
      ordered := c.ordered.filter fun p => (q.passed (s.portRank r.port)).writeQ.any fun w => w.bank == p.1 && decide (w.id < p.2) } : Chan)
  let counted := fun (r : MemReq) => rhCount (sget (fun _ => []) c.rh r.bank) r.row r.port
  let opened := fun (r : MemReq) =>
    ({ took r with openRow := sput (fun _ => 0x20000) c.openRow r.bank r.row, rh := sput (fun _ => []) c.rh r.bank (counted r).1,
                   throttles := aged.throttles.map fun (x : Throttle) =>
                     if x.bank == r.bank && x.port == r.port then { x with since := 0 } else x } : Chan)
  let disturbs := fun (r : MemReq) => decide (max 64 (s.get (Reg.MSIDE_RH_CFG_THRESHOLD n)) ≤ (counted r).2)
  let corrected := fun (r : MemReq) =>
    [(Reg.MSIDE_LINK_ECC_WRITE_CORR n, satAdd 16 (s.get (Reg.MSIDE_LINK_ECC_WRITE_CORR n)) ecc.write),
     (Reg.MSIDE_LINK_ECC_READ_CORR n, satAdd 16 (s.get (Reg.MSIDE_LINK_ECC_READ_CORR n)) (if r.len < 64 then ecc.read else 0))]
  let latest := fun (r : MemReq) => (Reg.QOS_MAXLAT_NS r.port, max (s.get (Reg.QOS_MAXLAT_NS r.port)) (min r.age (2 ^ 32 - 1)))
  (serves = true → c.recovery = true →
    (due = c.lastRefresh → Does issue s u []) ∧
    (due ≠ c.lastRefresh → 5 < c.debt → Does issue s (s.setChan n ch refreshed) []) ∧
    (due ≠ c.lastRefresh → c.debt ≤ 5 → DoesThen issue s (s.setChan n ch { refreshed with recovery := false }) []
      fun t => (t.recoveryBreach n ch 3).recoveryBreach n ch 4)) ∧
  (serves = true → c.recovery = false → 8 ≤ c.debt → Does issue s (s.setChan n ch refreshed) []) ∧
  (quiet = true → ∀ x ∈ c.neighbours.head?, Does issue s
    (s.setChan n ch { aged.passed 2 with neighbours := c.neighbours.tail, openRow := sput (fun _ => 0x20000) c.openRow x.1 0x20000 })
    [(Reg.MSIDE_RH_COUNT_NEIGHBOUR n, s.more (Reg.MSIDE_RH_COUNT_NEIGHBOUR n))]) ∧
  (quiet = true → c.neighbours = [] → c.debt ≠ 0 → bank ≠ none → Does issue s (s.setChan n ch refreshed) []) ∧
  (free = true → s.sideMode n = 2 → Does issue s u []) ∧
  (free = true → s.sideMode n ≠ 2 →
    match u.choose n ch with
    | none => Does issue s u []
    | some r => r ∈ aged.waiting ∧
      (r.write = false → c.open r.bank = r.row → Does issue s (s.setChan n ch (took r)) []) ∧
      (r.write = false → c.open r.bank ≠ r.row →
        (disturbs r = false → Does issue s (s.setChan n ch (opened r)) []) ∧
        (disturbs r = true → DoesThen issue s (s.setChan n ch (opened r)) [] (·.rowDisturb n ch r.bank r.row r.port))) ∧
      (r.write = true → 64 ≤ r.len →
        (c.open r.bank = r.row → Does issue s (s.setChan n ch (took r)) (latest r :: corrected r)) ∧
        (c.open r.bank ≠ r.row → disturbs r = false → Does issue s (s.setChan n ch (opened r)) (latest r :: corrected r)) ∧
        (c.open r.bank ≠ r.row → disturbs r = true → DoesThen issue s (s.setChan n ch (opened r)) (corrected r)
          fun t => (t.rowDisturb n ch r.bank r.row r.port).raiseTo (Reg.QOS_MAXLAT_NS r.port) r.age)) ∧
      (r.write = true → r.len < 64 → c.open r.bank = r.row →
        (ecc.inline = .clean → Does issue s (s.setChan n ch (took r)) (latest r :: corrected r)) ∧
        (ecc.inline = .corrected → DoesThen issue s (s.setChan n ch (took r)) (latest r :: corrected r)
          (·.ceRow n (dramPlace r.offset).ch (dramPlace r.offset).bank (dramPlace r.offset).row)) ∧
        (ecc.inline = .uncorrectable → s.SourceFree (53 + n) → DoesThen issue s u
          ([(Reg.IC_SRC_PENDING (53 + n), 1), (Reg.MSIDE_ECC_STATUS_EVENTS n, s.more (Reg.MSIDE_ECC_STATUS_EVENTS n)),
            (Reg.MSIDE_ECC_STATUS_UE n, 1)] ++ corrected r)
          fun t => t.freezeSide n 1 (some ((n.val * 0x0400000000 + r.offset) / 64 * 64)) ok))) ∧
  (serves = false → Does issue s u []) ∧
  (s.sideMode n = 3 → off.toNat < s.usable n →
    Does (.patrolScrub n off { inline := .clean, read := ecc.read, write := ecc.write } ok) s s
      [(Reg.MSIDE_LINK_ECC_READ_CORR n, satAdd 16 (s.get (Reg.MSIDE_LINK_ECC_READ_CORR n)) ecc.read)] ∧
    DoesThen (.patrolScrub n off { inline := .corrected, read := ecc.read, write := ecc.write } ok) s s
      [(Reg.MSIDE_LINK_ECC_WRITE_CORR n, satAdd 16 (s.get (Reg.MSIDE_LINK_ECC_WRITE_CORR n)) ecc.write),
       (Reg.MSIDE_LINK_ECC_READ_CORR n, satAdd 16 (s.get (Reg.MSIDE_LINK_ECC_READ_CORR n)) ecc.read)]
      fun t => t.ceRow n (dramPlace off.toNat).ch (dramPlace off.toNat).bank (dramPlace off.toNat).row)

/-- R225, R226, R227, R230, R39: a refresh window's end clears the channel's row-disturbance tables and throttles; a request's urgency
follows its wait against its port's target; a request that outlives its target is breached once: its port's BREACHES count and a
breach of its rank is recorded with the rank it yielded to. A request that waits in its channel's debt recovery has the target 0,
whose breach at ranks 3 and 4 is counted but recorded at the recovery's end alone; each request counts once. QOS_p_CLR clears its
port's counts. The readings and choices of the model behind it: log entries 30, 80. -/
def Obligations.UrgencyAndThrottlesFollowTargets : Prop := ∀ (s : State) (n : Side) (ch : Fin 8) (id ns : Nat) (p : Fin 40) (w : World) (v : Word),
  let c := s.chan n ch
  let target := fun (waits : Bool) (p : Nat) => if waits = true ∧ c.recovery = true then 0 else s.get (Reg.QOS_CFG_TARGET p)
  let risen := fun (waits : Bool) (r : MemReq) => if r.id = id then
    { r with age := max r.age ns, urgency := max r.urgency (urgencyAt (target waits r.port) ns) } else r
  let late := fun (zero : Bool) (q : MemReq) => if q.id = id then { q with breached := !zero, counted := true, urgency := 3 } else q
  Does (.rhWindowEnd n ch) s (s.setChan n ch { c with rh := [], throttles := [] }) [] ∧
  Does (.urgencyRise n ch id ns) s
    (s.setChan n ch { c with readQ := c.readQ.map (risen true), writeQ := c.writeQ.map (risen true),
                             inFlight := c.inFlight.map (risen false) }) [] ∧
  (match (c.readQ ++ c.writeQ ++ c.inFlight).find? (·.id == id) with
    | none => Does (.targetExpiry n ch id ns) s s []
    | some r =>
      let waits := (c.readQ ++ c.writeQ).any (·.id == id)
      let excess := ns - target waits r.port
      let rank := s.portRank r.port
      let zero := waits && c.recovery && (rank == 3 || rank == 4)
      let u := s.setChan n ch { c with readQ := c.readQ.map (late zero), writeQ := c.writeQ.map (late zero),
                                       inFlight := c.inFlight.map (late zero) }
      let counts := if r.counted = true then [] else [(Reg.QOS_STATUS_BREACHES r.port, s.more (Reg.QOS_STATUS_BREACHES r.port))]
      (r.breached = true ∨ excess = 0 → Does (.targetExpiry n ch id ns) s s []) ∧
      (r.breached = false → 0 < excess → zero = true → Does (.targetExpiry n ch id ns) s u counts) ∧
      (r.breached = false → 0 < excess → zero = false →
        DoesThen (.targetExpiry n ch id ns) s u counts
          fun t => t.breach { rank := rank, yielded := yieldedTo r.ahead rank, port := some r.port,
                              mag := excessOf rank excess, unit := 0x0B, inst := n })) ∧
  (s.Admits w 0x0C p false → getBits v 0 1 = 1 → Does (.qosClr p w v) s s
    [(Reg.QOS_MAXLAT_NS p, 0), (Reg.QOS_STATUS_DROPPED p, 0), (Reg.QOS_STATUS_BREACHES p, 0)]) ∧
  (s.Admits w 0x0C p false → getBits v 0 1 = 0 → Does (.qosClr p w v) s s [])

/-- R241, R242, R243, R245: a release of a FROZEN side is accepted unless its cause was MEM_TEMP and a channel still reads above 105 °C,
or its mode copies the dirty granules alone and the side's contents cannot be trusted; it goes to TRAINING with RELEASE at 1. One
that is refused raises RELEASE_REFUSED. In RESYNC each granule that the copy engine ends reads as the other side does, its dirty bit
is clear, and the count of those that remain falls; with the last one the side is ACTIVE. The readings and choices of the model
behind it: log entries 25, 70, 79. -/
def Obligations.SideReleaseStartsTheCopy : Prop := ∀ (s : State) (n : Side) (w : World) (v : Word) (g : BitVec 13),
  (s.Admits w 0x0B n false →
    (s.releaseRefused n (bitOf v.toNat 8) = false →
      Does (.sideRelease n w v) s (s.setSide n { s.side n with releasing := true, full := bitOf v.toNat 8 })
        [(Reg.MSIDE_FREEZE_STATUS_SR_UNCERTAIN n, 0), (Reg.MSIDE_STATUS_STATE n, 1), (Reg.MSIDE_FREEZE_CTRL_RELEASE n, 1),
         (Reg.MSIDE_FREEZE_CTRL_MODE n, getBits v 8 1)]) ∧
    (s.releaseRefused n (bitOf v.toNat 8) = true → s.SourceFree (53 + n) →
      Does (.sideRelease n w v) s s
        [(Reg.IC_SRC_PENDING (53 + n), 1), (Reg.MSIDE_FREEZE_STATUS_EVENTS n, s.more (Reg.MSIDE_FREEZE_STATUS_EVENTS n)),
         (Reg.MSIDE_FREEZE_STATUS_RELEASE_REFUSED n, 1), (Reg.MSIDE_FREEZE_CTRL_MODE n, getBits v 8 1)])) ∧
  (s.stores = true → s.sideMode n = 5 → (s.side n).stopped = false → g.toNat ∈ (s.side n).todo → s.sideDown (1 - n.val) = false →
    let rest := (s.side n).todo.filter (· != g.toNat)
    Leads (.resyncGranuleDone n g) s fun t =>
      (t.side n).todo = rest ∧ t.isDirty n g.toNat = false ∧ t.get (Reg.MSIDE_RESYNC_REMAINING n) = rest.length % 2 ^ 14 ∧
      (rest = [] → t.sideMode n = 3) ∧
      s.SideCopied (1 - n.val) n (granuleBytes * g.toNat) granuleBytes t ∧
      s.SideTook (1 - n.val) 0 [] t ∧ s.SramTook 0 [] t ∧ s.FlashSame t)

/-- R43, R45, R46, R48: a configuration request to a guest port. While its link is down none arrives. Before the port's release the
answer is Retry Status, and one for a function that does not exist is Unsupported Request. After the release a read returns the
identifiers of R46; in the physical function's words 4 to 9 the types and sizes of the three BARs under the addresses that were
written, of which a virtual function's read 0; and in the MSI-X, SR-IOV and error reporting capabilities, where the PCIe base
specification lets them lie (log entry 6), the table's and pending bits' places in BAR4, the VF Device ID, VF Enable, NumVFs and the
Unsupported Request status. A write after the release is answered: of a BAR it takes the address, NumVFs within TOTAL_VFS and VF
Enable set NUM_VFS, the MSI-X control word of a function follows it, a 1 clears the Unsupported Request status, and any other word
stays. The release itself sets RELEASE, and an enabled port keeps its link. The readings and choices of the model behind it: log
entry 33. -/
def Obligations.ConfigRequestsAreAnswered : Prop := ∀ (s : State) (p : Fin 4) (f n : Fin 16) (off : BitVec 12) (on mask : Bool) (r : CfgReq)
    (w : World) (v : Word),
  let u : State := { s with nextReq := s.nextReq + 1, replies := [] }
  let up := s.bit (Reg.GP_STATUS_LINK_UP p)
  let answers := s.bit (Reg.GP_CTRL_RELEASE p) && decide (f.val ≤ s.get (Reg.GP_STATUS_NUM_VFS p))
  (up = false → Does (.configRequest p f r) s u []) ∧
  (up = true → s.bit (Reg.GP_CTRL_RELEASE p) = false →
    Does (.configRequest p f r) s { u with replies := [{ id := s.nextReq, status := .retry }] } []) ∧
  (up = true → s.bit (Reg.GP_CTRL_RELEASE p) = true → s.get (Reg.GP_STATUS_NUM_VFS p) < f.val →
    Does (.configRequest p f r) s { u with replies := [{ id := s.nextReq, status := .unsupported }] } []) ∧
  (up = true → answers = true → f.val = 0 →
    Does (.configRequest p f (.read 0)) s
      { u with replies := [{ id := s.nextReq, data := leBytes 4 (0x08C0 * 2 ^ 16 + Config.vendorId.toNat) }] } [] ∧
    (n.val ≤ s.get (Reg.GP_CTRL_TOTAL_VFS p) →
      DoesThen (.configRequest p f (.setNumVfs n)) s (u.setFunc (p * 16) { s.func (p * 16) with vfOn := n.val != 0, numVfs := n }) [] fun t => (t.setVfs p n).hostReply { id := s.nextReq }) ∧
    (s.get (Reg.GP_CTRL_TOTAL_VFS p) < n.val →
      Does (.configRequest p f (.setNumVfs n)) s { u with replies := [{ id := s.nextReq }] } [])) ∧
  (up = true → answers = true → 0 < f.val →
    Does (.configRequest p f (.read 0)) s { u with replies := [{ id := s.nextReq, data := [0xFF, 0xFF, 0xFF, 0xFF] }] } []) ∧
  (up = true → answers = true →
    Does (.configRequest p f (.read 8)) s { u with replies := [{ id := s.nextReq, data := [0xA1, 0x00, 0x80, 0x03] }] } [] ∧
    Does (.configRequest p f (.read 0x2C)) s
      { u with replies := [{ id := s.nextReq, data := leBytes 2 (s.get (Reg.GP_SUBSYS_SUBSYS_VENDOR p)) ++
                                                       leBytes 2 (s.get (Reg.GP_SUBSYS_SUBSYS_ID p)) }] } [] ∧
    (∀ i : Fin 6, f.val = 0 →
      let log := if i.val / 2 = 0 then 16 else if i.val / 2 = 1 then 4 + clampNat 25 34 (s.get (Reg.GP_CTRL_APERTURE_LOG2 p)) else 13
      let size := if i.val % 2 = 0 then 2 ^ min log 32 else 2 ^ (log - 32)
      let place := sget (fun _ => 0) (s.func (p * 16)).bars i.val % 2 ^ 32
      Does (.configRequest p f (.read (16 + 4 * BitVec.ofNat 12 i))) s
        { u with replies := [{ id := s.nextReq, data := leBytes 4 (place - place % size +
          (if i.val % 2 = 1 then 0 else if i.val / 2 = 1 then 0xC else 4)) }] } []) ∧
    (∀ i : Fin 6, 0 < f.val → Does (.configRequest p f (.read (16 + 4 * BitVec.ofNat 12 i))) s
      { u with replies := [{ id := s.nextReq, data := [0, 0, 0, 0] }] } []) ∧
    (off.toNat / 4 ≠ 0 → off.toNat / 4 ≠ 2 → off.toNat / 4 < 4 ∨ 9 < off.toNat / 4 → off.toNat / 4 ≠ 11 →
      let k := off.toNat / 4
      let m := Config.msixWord
      SetsAnd (.configRequest p f (.read off)) s [] fun t => t.drawn = s.drawn + 1 ∧ t.replies.length = 1 ∧
        (k = m + 1 → t.replies = [{ id := s.nextReq, data := [4, 0, 0, 0] }]) ∧
        (k = m + 2 → t.replies = [{ id := s.nextReq, data := [4, 0x10, 0, 0] }]) ∧
        (f.val = 0 → k = Config.sriovWord + 6 →
          t.replies = [{ id := s.nextReq, data := [0, 0, 0xC1, 0x08] }]) ∧
        (f.val = 0 → k = Config.sriovWord + 4 →
          t.replies = [{ id := s.nextReq, data := leBytes 4 (s.func (p * 16)).numVfs }]) ∧
        (f.val = 0 → k = Config.sriovWord + 2 →
          ∃ x, t.replies = [{ id := s.nextReq, data := leBytes 4 x }] ∧ bitOf x 0 = (s.func (p * 16)).vfOn) ∧
        (k = Config.aerWord + 1 →
          ∃ x, t.replies = [{ id := s.nextReq, data := leBytes 4 x }] ∧ bitOf x 20 = (s.func (p * 16 + f)).urStatus)) ∧
    (let k := off.toNat / 4
     let m := Config.msixWord
     let c := Config.sriovWord
     let key := p.val * 16 + f.val
     let g := s.func key
     let total := s.get (Reg.GP_CTRL_TOTAL_VFS p)
     let bar := 4 ≤ k ∧ k ≤ 9
     let msix := m ≤ k ∧ k ≤ m + 2
     let sriov := f.val = 0 ∧ c ≤ k ∧ k ≤ c + 14
     let aer := k = Config.aerWord + 1
     let answer : State := { u with replies := [{ id := s.nextReq }] }
     let place := fun (i : Nat) => answer.setFunc key { g with bars := sput (fun _ => 0) g.bars i v.toNat }
     let vfs := fun (on : Bool) (q : Nat) => DoesThen (.configRequest p f (.write off v)) s
       (u.setFunc key { g with vfOn := on, numVfs := q }) [] fun t => (t.setVfs p (if on then q else 0)).hostReply { id := s.nextReq }
     let write := Does (.configRequest p f (.write off v)) s
     (bar → (f.val = 0 → write (place (k - 4)) []) ∧ (0 < f.val → write answer [])) ∧
     (msix → (k ≠ m → write answer []) ∧ (k = m → g.pba = 0 →
       write (answer.setFunc key { g with msixOn := bitOf v.toNat 31, msixMask := bitOf v.toNat 30 }) [])) ∧
     (sriov → (k = c + 2 → g.numVfs ≤ total → vfs (bitOf v.toNat 0) g.numVfs) ∧ (k = c + 2 → total < g.numVfs → write answer []) ∧
       (k = c + 4 → getBits v 0 16 ≤ total → vfs g.vfOn (getBits v 0 16)) ∧ (k = c + 4 → total < getBits v 0 16 → write answer []) ∧
       (c + 9 ≤ k → write (place (k - (c + 3))) []) ∧ (k < c + 9 → k ≠ c + 2 → k ≠ c + 4 → write answer [])) ∧
     (aer → write (answer.setFunc key { g with urStatus := g.urStatus && !bitOf v.toNat 20 }) []) ∧
     (¬ bar → ¬ msix → ¬ sriov → ¬ aer → write answer [])) ∧
    ((s.func (p * 16 + f)).pba = 0 →
      SetsAnd (.configRequest p f (.msixControl on mask)) s [] fun t => t.replies = [{ id := s.nextReq }] ∧ t.msix = s.msix ∧
        t.func (p * 16 + f) = { s.func (p * 16 + f) with msixOn := on, msixMask := mask })) ∧
  (s.Admits w 0x0D p false → s.locked (Reg.GP_CTRL p) = false → bitOf v.toNat 0 = true →
    Does (.gpRelease p w v) s s
      [(Reg.GP_CTRL_LOCK p, getBits v 31 1), (Reg.GP_CTRL_APERTURE_LOG2 p, getBits v 16 5), (Reg.GP_CTRL_TOTAL_VFS p, getBits v 8 4),
       (Reg.GP_CTRL_MAX_SPEED p, getBits v 4 2), (Reg.GP_CTRL_RELEASE p, 1), (Reg.GP_CTRL_EN p, 1)])

/-- R43, R52: a port's link. When the link of an enabled port reaches L0, LINK_UP, WIDTH and SPEED, which MAX_SPEED bounds, follow it;
the link of a port that is not enabled stays in Detect. When it leaves L0 they clear, and LINK_DOWN_EVT is raised but for an entry
to L2. A function-level reset is counted in FLR_EVT and resets the function's MSI-X, an assertion of PERST_N does so for every
function and clears NUM_VFS, and a function that is not available takes no reset. R52, R53: which guest sessions of a port are
attached after an event of the port. After its link reaches L0, those that are ACTIVE on an enabled function, and no others; after
its link leaves L0 other than by L2 entry, or PERST_N is asserted, none; after a function-level reset, none of that function, nor
any of the port's where it is the physical function. A session that was attached and is not any more is detached as R53 says, its
PAGE_ID kept. The sessions of other ports stay as they were. The readings and choices of the model behind it: log entries 19, 25,
27, 33, 100. -/
def Obligations.GuestLinkEventsAttachAndDetach : Prop :=
  (∀ (s : State) (p : Fin 4) (sp : Fin 4) (wd : Fin 3) (f : Fin 16),
    (s.bit (Reg.GP_CTRL_EN p) = true →
      DoesThen (.gpLinkUp p sp wd) s
        (s.each (List.range 16) fun f t => t.setFunc (p * 16 + f) { t.func (p * 16 + f) with inReset := false })
        [(Reg.GP_STATUS_WIDTH p, 2 ^ wd.val), (Reg.GP_STATUS_SPEED p, min sp.val (s.get (Reg.GP_CTRL_MAX_SPEED p))),
         (Reg.GP_STATUS_PERST p, 0), (Reg.GP_STATUS_LINK_UP p, 1)] (·.attachPort p)) ∧
    (s.bit (Reg.GP_CTRL_EN p) = false → Does (.gpLinkUp p sp wd) s s []) ∧
    (s.bit (Reg.GP_STATUS_LINK_UP p) = true →
      Does (.gpLinkDown p true) s s [(Reg.GP_STATUS_SPEED p, 0), (Reg.GP_STATUS_WIDTH p, 0), (Reg.GP_STATUS_LINK_UP p, 0)] ∧
      (s.SourceFree (59 + p) →
        DoesThen (.gpLinkDown p false) s s
          [(Reg.IC_SRC_PENDING (59 + p), 1), (Reg.GP_STATUS_EVENTS p, s.more (Reg.GP_STATUS_EVENTS p)),
           (Reg.GP_STATUS_LINK_DOWN_EVT p, 1), (Reg.GP_STATUS_SPEED p, 0), (Reg.GP_STATUS_WIDTH p, 0),
           (Reg.GP_STATUS_LINK_UP p, 0)] (·.attachPort p))) ∧
    (s.bit (Reg.GP_STATUS_LINK_UP p) = false → Does (.gpLinkDown p false) s s [] ∧ Does (.gpLinkDown p true) s s []) ∧
    (s.funcAvailable p f = true →
      Leads (.flr p f) s fun t => t.bit (Reg.GP_STATUS_FLR_EVT p) = true ∧
        t.get (Reg.GP_STATUS_EVENTS p) = s.more (Reg.GP_STATUS_EVENTS p) ∧ t.func (p * 16 + f) = { inReset := true } ∧
        t.get (Reg.GP_STATUS_NUM_VFS p) = (if f.val = 0 then 0 else s.get (Reg.GP_STATUS_NUM_VFS p)) ∧
        t.get (Reg.GP_STATUS_LINK_UP p) = s.get (Reg.GP_STATUS_LINK_UP p)) ∧
    (s.funcAvailable p f = false → Does (.flr p f) s s []) ∧
    Leads (.perstAssert p) s fun t => t.bit (Reg.GP_STATUS_PERST p) = true ∧ t.bit (Reg.GP_STATUS_LINK_UP p) = false ∧
      t.get (Reg.GP_STATUS_WIDTH p) = (if s.bit (Reg.GP_STATUS_LINK_UP p) then 0 else s.get (Reg.GP_STATUS_WIDTH p)) ∧
      t.get (Reg.GP_STATUS_NUM_VFS p) = 0 ∧ (∀ k < 16, t.func (p * 16 + k) = {})) ∧
  (∀ (s : State) (p : Fin 4) (sp : Fin 4) (wd : Fin 3) (f : Fin 16) (n : Fin 256),
    2 ≤ n.val →
    (s.get (Reg.SESS_CTRL_PORT n) = p →
      (s.bit (Reg.GP_CTRL_EN p) = true → Leads (.gpLinkUp p sp wd) s fun t =>
        t.attached n = (s.sessActive n && decide (s.get (Reg.SESS_CTRL_FUNC n) ≤ s.get (Reg.GP_STATUS_NUM_VFS p)))) ∧
      (s.bit (Reg.GP_STATUS_LINK_UP p) = true → Leads (.gpLinkDown p false) s fun t => t.attached n = false) ∧
      (Leads (.perstAssert p) s fun t => t.attached n = false) ∧
      (s.funcAvailable p f = true → f.val = 0 ∨ s.get (Reg.SESS_CTRL_FUNC n) = f → Leads (.flr p f) s fun t => t.attached n = false) ∧
      (s.attached n = true →
        let gone := fun (t : State) => s.Detached n t ∧ t.reg (Reg.SESS_PAGE_ID n) = s.reg (Reg.SESS_PAGE_ID n)
        (s.bit (Reg.GP_STATUS_LINK_UP p) = true → Leads (.gpLinkDown p false) s gone) ∧ Leads (.perstAssert p) s gone ∧
        (s.funcAvailable p f = true → f.val = 0 ∨ s.get (Reg.SESS_CTRL_FUNC n) = f → Leads (.flr p f) s gone))) ∧
    (s.get (Reg.SESS_CTRL_PORT n) ≠ p →
      (Leads (.gpLinkUp p sp wd) s fun t => t.attached n = s.attached n) ∧
      (Leads (.gpLinkDown p false) s fun t => t.attached n = s.attached n) ∧
      (Leads (.perstAssert p) s fun t => t.attached n = s.attached n) ∧
      (Leads (.flr p f) s fun t => t.attached n = s.attached n)))

/-- R51, R52, R53, R66: a write to a guest session's control register whose fields are not locked takes its values and the page shows
its binding. An attached session detaches, as R53 says, only where its state is written other than ACTIVE; one that is not attached
attaches where its state is ACTIVE and its function available. A write that would bind two ACTIVE sessions alike, or change the
binding of an ACTIVE one, changes no field of the register and sets BIND_ERR. A write of the quota fills the bucket. The readings
and choices of the model behind it: log entries 19, 54, 100, 102. -/
def Obligations.SessionControlWriteBindsASession : Prop := ∀ (s : State) (n : Fin 256) (w : World) (v : Word),
  let bind := fun (x : Word) => (getBits x 8 2, getBits x 12 4, getBits x 16 4)
  let others := (List.range 256).filter fun m => decide (2 ≤ m) && m != n.val && s.sessActive m
  s.Admits w 0x0E n false →
  (2 ≤ n.val → s.locked (Reg.SESS_CTRL n) = false →
    ((s.sessActive n = true → bind v = bind (s.reg (Reg.SESS_CTRL n))) →
      (getBits v 0 2 = 1 → s.sessActive n = true ∨ others.all (fun m => bind (s.reg (Reg.SESS_CTRL m)) != bind v) = true) →
      let active := getBits v 0 2 = 1
      let there := s.funcAvailable (getBits v 8 2) (getBits v 12 4) = true
      let taken :=
        [(Reg.SESS_CTRL_LOCK n, getBits v 31 1), (Reg.SESS_CTRL_SLOT n, getBits v 16 4), (Reg.SESS_CTRL_FUNC n, getBits v 12 4),
         (Reg.SESS_CTRL_PORT n, getBits v 8 2), (Reg.SESS_CTRL_LOG_ACCESS n, getBits v 4 1),
         (Reg.SESS_CTRL_HAP_URGENT_OK n, getBits v 3 1), (Reg.SESS_CTRL_DETACH_ACTION n, getBits v 2 1),
         (Reg.SESS_CTRL_STATE n, getBits v 0 2), (Reg.SESS_PAGE_ID_SLOT n, getBits v 16 4),
         (Reg.SESS_PAGE_ID_FUNC n, getBits v 12 4), (Reg.SESS_PAGE_ID_PORT n, getBits v 8 2)]
      ((s.attached n = true ∧ active) ∨ (s.attached n = false ∧ (¬ active ∨ ¬ there)) → Does (.sessionCtrlWrite n w v) s s taken) ∧
      (s.attached n = true → ¬ active → DoesThen (.sessionCtrlWrite n w v) s s taken (·.detach n) ∧
        Leads (.sessionCtrlWrite n w v) s (s.Detached n)) ∧
      (s.attached n = false → active → there → DoesThen (.sessionCtrlWrite n w v) s s taken (·.attach n))) ∧
    ((s.sessActive n = true ∧ bind v ≠ bind (s.reg (Reg.SESS_CTRL n))) ∨
        (s.sessActive n = false ∧ getBits v 0 2 = 1 ∧ others.any (fun m => bind (s.reg (Reg.SESS_CTRL m)) == bind v) = true) →
      s.SourceFree (192 + n) →
      Does (.sessionCtrlWrite n w v) s s
        [(Reg.IC_SRC_PENDING (192 + n), 1), (Reg.SESS_STATUS_EVENTS n, s.more (Reg.SESS_STATUS_EVENTS n)),
         (Reg.SESS_STATUS_BIND_ERR n, 1)])) ∧
  (0 < n.val → s.locked (Reg.SESS_QUOTA n) = false →
    SetsAnd (.quotaWrite n w v) s [(Reg.SESS_QUOTA_UNITS n, getBits v 0 12)] fun t =>
      (t.ses n).tokens = 2 * getBits v 0 12 * 67108864 * 1000000 * s.beatRate.den / s.beatRate.num) ∧
  (0 < n.val → s.locked (Reg.SESS_QUOTA n) = true → Does (.quotaWrite n w v) s s [])

/-- R63, R64: a write to a window register of a session whose fields are not locked. A register of a window that is not valid takes its
value; a write that makes it valid is checked, sets MIRRORED by where its device memory lies, and is refused as a whole with the
code of the first check that fails; a write that would move or resize a valid window is refused with code 6, and one that leaves it
valid may change GUEST_RO. A window that lies outside memory, overlaps one of another session, passes the aperture, overlaps another
valid window of its own session, or is empty, fails its check with code 1, 2, 3, 4 or 5. The readings and choices of the model
behind it: log entries 19, 101, 112. -/
def Obligations.WindowWritesAreCheckedWhole : Prop := ∀ (s : State) (n : Fin 256) (k : Fin 16) (w : World) (v : Word),
  let refused := fun (code : Nat) =>
    [(Reg.IC_SRC_PENDING (192 + n), 1), (Reg.SESS_STATUS_EVENTS n, s.more (Reg.SESS_STATUS_EVENTS n)),
     (Reg.SESS_STATUS_WIN_ERR n, 1), (Reg.SESS_STATUS_WIN_ERR_CODE n, code)]
  let size := getBits v 0 14
  let dev := s.get (Reg.SESS_WIN_DEV_DEV n k)
  let goff := s.get (Reg.SESS_WIN_GOFF_GOFF n k)
  let meets := fun (j : Nat) => j ≠ k.val ∧ s.bit (Reg.SESS_WIN_CTRL_VALID n j) = true ∧ 0 < size ∧ 0 < s.get (Reg.SESS_WIN_CTRL_SIZE n j) ∧
    goff < s.get (Reg.SESS_WIN_GOFF_GOFF n j) + s.get (Reg.SESS_WIN_CTRL_SIZE n j) ∧ s.get (Reg.SESS_WIN_GOFF_GOFF n j) < goff + size
  0 < n.val → s.Admits w 0x0E n false → s.locked (Reg.SESS_CTRL n) = false → s.SourceFree (192 + n) →
  (s.bit (Reg.SESS_WIN_CTRL_VALID n k) = false →
    Does (.sessWinWrite n k .dev w v) s s [(Reg.SESS_WIN_DEV_DEV n k, getBits v 0 19)] ∧
    Does (.sessWinWrite n k .goff w v) s s [(Reg.SESS_WIN_GOFF_GOFF n k, getBits v 0 13)] ∧
    (getBits v 16 1 = 0 → Does (.sessWinWrite n k .ctrl w v) s s
      [(Reg.SESS_WIN_CTRL_GUEST_RO n k, getBits v 17 1), (Reg.SESS_WIN_CTRL_VALID n k, 0), (Reg.SESS_WIN_CTRL_SIZE n k, size)]) ∧
    (getBits v 16 1 = 1 →
      (s.winBadRange dev size = true → Does (.sessWinWrite n k .ctrl w v) s s (refused 1)) ∧
      (s.winBadRange dev size = false →
        (s.winTaken n dev size = true → Does (.sessWinWrite n k .ctrl w v) s s (refused 2)) ∧
        (s.winTaken n dev size = false →
          (2 ^ s.apertureLog2 n < granuleBytes * (goff + size) → Does (.sessWinWrite n k .ctrl w v) s s (refused 3)) ∧
          (granuleBytes * (goff + size) ≤ 2 ^ s.apertureLog2 n → (∃ j < 16, meets j) → Does (.sessWinWrite n k .ctrl w v) s s (refused 4)) ∧
          (granuleBytes * (goff + size) ≤ 2 ^ s.apertureLog2 n → (∀ j < 16, ¬ meets j) →
            (size = 0 → Does (.sessWinWrite n k .ctrl w v) s s (refused 5)) ∧
            (size ≠ 0 → Does (.sessWinWrite n k .ctrl w v) s s
              [(Reg.SESS_WIN_CTRL_GUEST_RO n k, getBits v 17 1), (Reg.SESS_WIN_CTRL_VALID n k, 1), (Reg.SESS_WIN_CTRL_SIZE n k, size),
               (Reg.SESS_WIN_CTRL_MIRRORED n k, b2n (s.winMirrored n k))])))))) ∧
  (s.bit (Reg.SESS_WIN_CTRL_VALID n k) = true →
    (getBits v 0 19 ≠ dev → Does (.sessWinWrite n k .dev w v) s s (refused 6)) ∧
    (getBits v 0 13 ≠ goff → Does (.sessWinWrite n k .goff w v) s s (refused 6)) ∧
    (size ≠ s.get (Reg.SESS_WIN_CTRL_SIZE n k) → Does (.sessWinWrite n k .ctrl w v) s s (refused 6)) ∧
    (size = s.get (Reg.SESS_WIN_CTRL_SIZE n k) → getBits v 16 1 = 0 → Does (.sessWinWrite n k .ctrl w v) s s
      [(Reg.SESS_WIN_CTRL_MIRRORED n k, 0), (Reg.SESS_WIN_CTRL_GUEST_RO n k, getBits v 17 1), (Reg.SESS_WIN_CTRL_VALID n k, 0)]) ∧
    (size = s.get (Reg.SESS_WIN_CTRL_SIZE n k) → getBits v 16 1 = 1 → Does (.sessWinWrite n k .ctrl w v) s s
      [(Reg.SESS_WIN_CTRL_GUEST_RO n k, getBits v 17 1)]))

/-- R57, R59, R61, R62: the session page. A semaphore takes the value written, or the sum modulo 2³². Setting EN of the touch queue, or
START of an audio stream the session owns, starts it where its ring lies wholly in one window the session may write, with its count
of losses cleared; where it does not, CFG_ERR is set and it stays off. TQ_BASE follows a write while the queue is off, and sets
CFG_ERR while it runs. IRQ_ENABLE takes the value written, and a bit that rises over a set status bit sends the message, once. The
readings and choices of the model behind it: log entries 19, 25, 81, 111. -/
def Obligations.SessionPageWritesTakeEffect : Prop := ∀ (s : State) (n : Fin 256) (k : Fin 16) (a : Fin 8) (v : Word),
  let cfgErr := [(Reg.SESS_PAGE_STATUS_EVENTS n, s.more (Reg.SESS_PAGE_STATUS_EVENTS n)), (Reg.SESS_PAGE_STATUS_CFG_ERR n, 1)]
  let ring := 2 ^ (if 4 ≤ getBits v 16 4 ∧ getBits v 16 4 ≤ 12 then getBits v 16 4 else 4)
  Does (.semWrite n k v) s s [(whole (Reg.SESS_SEM n k), v.toNat)] ∧
  Does (.semAdd n k v) s s [(whole (Reg.SESS_SEM n k), ((s.reg (Reg.SESS_SEM n k)).toNat + v.toNat) % 2 ^ 32)] ∧
  (s.bit (Reg.SESS_TQ_CTRL_EN n) = false →
    Does (.tqBaseWrite n v) s s [(Reg.SESS_TQ_BASE_OFFSET n, getBits v 0 28)] ∧
    (getBits v 0 1 = 0 → Does (.tqCtrlWrite n v) s s [(Reg.SESS_TQ_CTRL_SIZE_LOG2 n, getBits v 16 4)]) ∧
    (getBits v 0 1 = 1 →
      match s.translateRing n (s.get (Reg.SESS_TQ_BASE_OFFSET n) * 64) (32 * ring) with
      | none => Does (.tqCtrlWrite n v) s s ((Reg.SESS_TQ_CTRL_SIZE_LOG2 n, getBits v 16 4) :: cfgErr)
      | some d => Does (.tqCtrlWrite n v) s (s.setSes n { s.ses n with tqAddr := d, tqSync := false })
          [(Reg.SESS_TQ_STATUS_DROPPED n, 0), (Reg.SESS_TQ_CTRL_SIZE_LOG2 n, getBits v 16 4), (Reg.SESS_TQ_CTRL_EN n, 1)])) ∧
  (s.bit (Reg.SESS_TQ_CTRL_EN n) = true →
    (getBits v 0 28 ≠ s.get (Reg.SESS_TQ_BASE_OFFSET n) → Does (.tqBaseWrite n v) s s cfgErr) ∧
    (getBits v 16 4 ≠ s.get (Reg.SESS_TQ_CTRL_SIZE_LOG2 n) → Does (.tqCtrlWrite n v) s s cfgErr) ∧
    (getBits v 16 4 = s.get (Reg.SESS_TQ_CTRL_SIZE_LOG2 n) →
      Does (.tqCtrlWrite n v) s s [(Reg.SESS_TQ_CTRL_EN n, getBits v 0 1)])) ∧
  (s.ownsAudio n a = false → Does (.audioStreamStart n a v) s s
    [(Reg.SESS_PAGE_STATUS_EVENTS n, s.more (Reg.SESS_PAGE_STATUS_EVENTS n)), (Reg.SESS_PAGE_STATUS_HANDLE_ERR n, 1)]) ∧
  (s.ownsAudio n a = true → s.bit (Reg.SESS_AS_CTRL_START n a) = false →
    match s.translateRing n (s.get (Reg.SESS_AS_BASE_OFFSET n a) * 64) (4 * (40 * clampNat 2 65535 (getBits v 16 16))) with
    | none => Does (.audioStreamStart n a v) s s ((Reg.SESS_AS_CTRL_BLOCKS n a, getBits v 16 16) :: cfgErr)
    | some d => Does (.audioStreamStart n a v) s (s.setSes n { s.ses n with asAddr := sput (fun _ => 0) (s.ses n).asAddr a d })
        [(Reg.SESS_AS_STATUS_UNDERRUNS n a, 0), (Reg.SESS_AS_CTRL_BLOCKS n a, getBits v 16 16), (Reg.SESS_AS_CTRL_START n a, 1)]) ∧
  (let e := [(Reg.SESS_IRQ_ENABLE_AS_LOW n, getBits v 8 8), (Reg.SESS_IRQ_ENABLE_BAR2_ERR n, getBits v 3 1),
     (Reg.SESS_IRQ_ENABLE_COMMIT n, getBits v 2 1), (Reg.SESS_IRQ_ENABLE_TQ_OVERFLOW n, getBits v 1 1),
     (Reg.SESS_IRQ_ENABLE_TQ_NEW n, getBits v 0 1)]
   ((∀ b < 32, (v.getLsbD b = true ∧ (b < 4 ∨ (8 ≤ b ∧ b < 16))) → (s.reg (Reg.SESS_IRQ_ENABLE n)).getLsbD b = false →
      (s.reg (Reg.SESS_IRQ_STATUS n)).getLsbD b = false) → Does (.irqEnableWrite n v) s s e) ∧
   ((v &&& 0xFF0F &&& ~~~s.reg (Reg.SESS_IRQ_ENABLE n) &&& s.reg (Reg.SESS_IRQ_STATUS n)) ≠ 0 →
      DoesThen (.irqEnableWrite n v) s s e (·.sessMessage n)))

/-- R292, R293, R303: the drive supply and the effect library. With HV_ON written 1, HV_EN rises unless a C3 reaction holds or the
device is in anchor mode; HV_READY follows when it has settled. With HV_ON written 0 every channel but one in FAULT is IDLE with
both pins low and holds no trigger, and HV_EN falls later. A load reads 1,024 bytes into the shadow store, at once or when the start
of the side it reads has ended (R213); when it ends, a library whose check value is LIB_CRC becomes active and any other is
rejected. The readings and choices of the model behind it: log entries 20, 25. -/
def Obligations.HapticSupplyAndLibraryLoad : Prop := ∀ (s : State) (w : World) (v : Word),
  let busy := s.bit Reg.HAP_STATUS_LIB_BUSY
  let waits := s.startWaits (256 * s.get Reg.HAP_LIB_ADDR_ADDR) 1024
  let read := s.dmaRead (s.ownerWorld 0x12 0) 25 (256 * s.get Reg.HAP_LIB_ADDR_ADDR) 1024
  (s.Admits w 0x12 0 false →
    let ctrl := [(Reg.HAP_CTRL_HV_SETTLE, getBits v 16 8), (Reg.HAP_CTRL_DEAD_NS, getBits v 8 8), (Reg.HAP_CTRL_HV_ON, 1)]
    (s.c3 = false → s.bit Reg.BOOT_STATUS_ANCHOR = false → Does (.hvOn w v) s s ((Reg.HAP_STATUS_HV_LIVE, 1) :: ctrl)) ∧
    (s.c3 = true ∨ s.bit Reg.BOOT_STATUS_ANCHOR = true → Does (.hvOn w v) s s ctrl) ∧
    (Leads (.hvOff w v) s fun t => t.bit Reg.HAP_CTRL_HV_ON = false ∧ t.get Reg.HAP_STATUS_HV_LIVE = s.get Reg.HAP_STATUS_HV_LIVE ∧
      s.SameBytes t ∧ ∀ n < 16,
        if s.hcState n = 4 then t.hcState n = 4 ∧ t.hc n = s.hc n
        else t.hcState n = 0 ∧ (t.hc n).ph = 0 ∧ (t.hc n).pl = 0 ∧ (t.hc n).cost = 0 ∧ (t.hc n).waiting = none ∧ (t.hc n).pending = none ∧
          (t.hc n).urgent = none) ∧
    (getBits v 0 1 = 1 → s.bit Reg.HAP_STATUS_LIB_BUSY = false →
      (waits = false → Does (.hapticLibLoad w v) s { read.2 with hapLib := some read.1 }
        [(Reg.HAP_STATUS_LIB_BUSY, 1), (Reg.HAP_LIB_CMD_LOAD, 1)]) ∧
      (waits = true → Does (.hapticLibLoad w v) s s [(Reg.HAP_STATUS_LIB_BUSY, 1), (Reg.HAP_LIB_CMD_LOAD, 1)])) ∧
    (getBits v 0 1 = 0 ∨ s.bit Reg.HAP_STATUS_LIB_BUSY = true → Does (.hapticLibLoad w v) s s [])) ∧
  (s.bit Reg.HAP_STATUS_HV_LIVE = true → Does .hvReady s s [(Reg.HAP_STATUS_HV_READY, 1)]) ∧
  (s.bit Reg.HAP_STATUS_HV_LIVE = false → Does .hvReady s s []) ∧
  (s.bit Reg.HAP_CTRL_HV_ON = false → Does .hvEnFall s s [(Reg.HAP_STATUS_HV_READY, 0), (Reg.HAP_STATUS_HV_LIVE, 0)]) ∧
  (s.bit Reg.HAP_CTRL_HV_ON = true → Does .hvEnFall s s []) ∧
  (s.SourceFree 79 →
    match s.hapLib with
    | none => (busy = false ∨ waits = true → Does .hapticLibLoadDone s s []) ∧
      (busy = true → waits = false →
        exec .hapticLibLoadDone s = exec .hapticLibLoadDone { read.2 with hapLib := some read.1 })
    | some r =>
      let ended := [(Reg.HAP_STATUS_LIB_DONE, 1), (Reg.HAP_STATUS_LIB_BUSY, 0), (Reg.HAP_LIB_CMD_LOAD, 0), (Reg.IC_SRC_PENDING 79, 1)]
      let good := r.any fun bs => crc32c bs == s.get Reg.HAP_LIB_CRC_CRC
      (good = true → Does .hapticLibLoadDone s { s with hapLib := none }
        ((Reg.HAP_STATUS_EVENTS, s.more Reg.HAP_STATUS_EVENTS) :: (Reg.HAP_STATUS_LIB_VALID, 1) :: ended ++
          (List.range 256).map fun i => (whole (Reg.HAP_LIB (i / 4) (i % 4)), leNat (((r.getD []).drop (4 * i)).take 4)))) ∧
      (good = false → Does .hapticLibLoadDone s { s with hapLib := none }
        ((Reg.HAP_STATUS_EVENTS, satAdd 8 (s.get Reg.HAP_STATUS_EVENTS) 2) :: (Reg.HAP_STATUS_LIB_REJECTED, 1) :: ended)))

/-- R289, R290, R291, R295, R297, R302, R303, R355: a channel's PWM periods and samples. In DRIVE, outside a sense window, the pins
carry the period whose high time follows the amplitude and the sine of the phase, less two dead times, and the phase moves on by Δ;
in BRAKE they carry BRAKE_LEVEL in counter-phase; in any other state both are low. A brake cycle that is not the last is followed by
a window, which opens at the element's next zero crossing. A sample stands in SENSE.CODE. Eight milliseconds after braking began the
channel is IDLE, with its cost free, and NO_LOCK is set where the effect ends without LOCKED. The fourth sample in a row at a stop
of the range raises HAP_SENSE, and the channel is in FAULT, its cost held until its release (R302). A channel whose clock is gated
does none of this. (The phase of an effect that follows the resonance, and the windows of a DRIVE, are not said here.) The readings
and choices of the model behind it: log entries 1, 12, 25. -/
def Obligations.HapticChannelPlaysItsPeriods : Prop := ∀ (s : State) (n : Fin 16) (code : BitVec 12),
  let r := s.hc n
  let dead := clampNat 20 200 (s.get Reg.HAP_CTRL_DEAD_NS)
  let duty := hapDuty (r.desc.amp r.cycle) r.acc r.inv
  let back := hapDuty r.desc.brakeLevel r.acc (!r.inv)
  let crosses := (r.acc + r.delta) / 2 ^ 31 != r.acc / 2 ^ 31
  (s.isGated 0x11 n = true → ∀ c ∈ [Instr.hapticPwmPeriod n, .hapticAdcSample n code, .brakeTimeout n], Does c s s []) ∧
  (s.isGated 0x11 n = false →
  (s.hcState n = 2 → r.arm = false → r.desc.track = false → r.acc + r.delta < 2 ^ 32 →
    Does (.hapticPwmPeriod n) s
      (s.setHc n { r with ph := duty, pl := 4000 - duty - 2 * dead, sense := false, acc := r.acc + r.delta }) []) ∧
  (s.hcState n = 2 → r.arm = false → r.desc.track = false → 2 ^ 32 ≤ r.acc + r.delta → r.endAtCycle = false →
    r.cycle + 1 < r.desc.total →
    Does (.hapticPwmPeriod n) s
      (s.setHc n { r with ph := duty, pl := 4000 - duty - 2 * dead, sense := false, acc := (r.acc + r.delta) % 2 ^ 32,
                          cycle := r.cycle + 1 }) []) ∧
  (s.hcState n = 3 → r.wait = true →
    Does (.hapticPwmPeriod n) s
      (s.setHc n { r with ph := 0, pl := 0, sense := false, acc := (r.acc + r.delta) % 2 ^ 32, wait := !crosses, window := crosses,
                          prog := (r.acc + r.delta) % 2 ^ 32 % 2 ^ 31 }) []) ∧
  (s.hcState n = 3 → r.wait = false → r.window = false → 2 ^ 32 ≤ r.prog + r.delta → r.brakes + 1 < r.desc.brakeMax →
    Does (.hapticPwmPeriod n) s
      (s.setHc n { r with ph := back, pl := 4000 - back - 2 * dead, sense := false, acc := (r.acc + r.delta) % 2 ^ 32,
                          brakes := r.brakes + 1, wait := !crosses, window := crosses, prog := (r.acc + r.delta) % 2 ^ 32 % 2 ^ 31,
                          peak := 0 }) []) ∧
  (s.hcState n = 3 → r.wait = false → r.window = false → r.prog + r.delta < 2 ^ 32 →
    Does (.hapticPwmPeriod n) s
      (s.setHc n { r with ph := back, pl := 4000 - back - 2 * dead, sense := false, acc := (r.acc + r.delta) % 2 ^ 32,
                          prog := r.prog + r.delta }) []) ∧
  (s.hcState n ≠ 2 → s.hcState n ≠ 3 → Does (.hapticPwmPeriod n) s (s.setHc n { r with ph := 0, pl := 0, sense := false }) [] ∧
    Does (.hapticAdcSample n code) s s [(Reg.HC_SENSE_CODE n, code.toNat)] ∧ Does (.brakeTimeout n) s s []) ∧
  (s.hcState n = 3 → r.desc.track = false →
    (let ended := s.setHc n { r with cost := 0, ph := 0, pl := 0, sense := false, arm := false, endAtCycle := false, stops := 0 }
     let inUse := (hapChannels.map fun k => if k = n.val then 0 else (s.hc k).cost).sum
     (s.bit (Reg.HC_STATUS_LOCKED n) = true →
       Does (.brakeTimeout n) s ended [(Reg.HC_STATUS_STATE n, 0), (Reg.HAP_BUDGET_IN_USE, inUse)]) ∧
     (s.bit (Reg.HC_STATUS_LOCKED n) = false → s.SourceFree (80 + n) →
       Does (.brakeTimeout n) s ended
         [(Reg.HC_STATUS_STATE n, 0), (Reg.IC_SRC_PENDING (80 + n), 1), (Reg.HC_STATUS_EVENTS n, s.more (Reg.HC_STATUS_EVENTS n)),
          (Reg.HC_STATUS_NO_LOCK n, 1), (Reg.HAP_BUDGET_IN_USE, inUse)])) ∧
    (16 < code.toNat → code.toNat < 4079 →
      Does (.hapticAdcSample n code) s
        (s.setHc n { r with stops := 0, samples := r.samples + 1,
                            peak := if r.window then max r.peak ((code.toNat : Int) - 2048).natAbs else r.peak })
        [(Reg.HC_SENSE_CODE n, code.toNat)]) ∧
    (code.toNat ≤ 16 ∨ 4079 ≤ code.toNat → r.stops = 3 → r.waiting = none → r.pending = none → r.urgent = none →
      s.bit (Reg.HC_STATUS_LOCKED n) = true → s.SourceFree (80 + n) →
      DoesThen (.hapticAdcSample n code) s
        (s.setHc n { r with ph := 0, pl := 0, sense := false, arm := false, endAtCycle := false, stops := 0 })
        [(Reg.IC_SRC_PENDING (80 + n), 1), (Reg.HC_STATUS_EVENTS n, s.more (Reg.HC_STATUS_EVENTS n)),
         (Reg.HC_STATUS_SENSE_FAULT n, 1), (Reg.HC_STATUS_STATE n, 4), (Reg.HC_SENSE_CODE n, code.toNat)]
        fun t => t.raiseFault (192 + n))))

/-- R32, R58, R292, R298, R299, R301, R302: what triggers an effect. A doorbell through a handle the session does not own sets
HANDLE_ERR; one that reaches a channel which cannot take it, or that another trigger of its clock beats, is dropped and counted, in
HV_DROP too while HV_READY is 0; one that reaches an IDLE channel is held until a slot boundary, an URGENT one beside the pending
normal one. An edge that qualifies on the one pin of a channel starts its effect at once where the budget admits its cost, and at a
slot boundary the pending trigger of an IDLE channel does, or it moves to the next boundary with a breach at rank 6; a boundary with
nothing held changes nothing. The readings and choices of the model behind it: log entries 20, 46, 86. -/
def Obligations.HapticTriggerStartsOrIsDiscarded : Prop := ∀ (s : State) (n : Fin 16) (bell : Bell) (v : Word) (k : Fin 4) (levels : BitVec 4),
  let session := bell.session
  let e := getBits v 8 6
  let urgent := bitOf v.toNat 16 && s.bit (Reg.SESS_CTRL_HAP_URGENT_OK session)
  (match s.hapHandle session (getBits v 0 2) with
    | none => Does (.hapticDoorbell bell v) s s
        [(Reg.SESS_PAGE_STATUS_EVENTS session, s.more (Reg.SESS_PAGE_STATUS_EVENTS session)),
         (Reg.SESS_PAGE_STATUS_HANDLE_ERR session, 1)]
    | some c =>
      (bell.beaten = true → s.bit Reg.HAP_STATUS_HV_READY = true →
        Does (.hapticDoorbell bell v) s s [(Reg.HC_COUNTS_DISCARDS c, s.more (Reg.HC_COUNTS_DISCARDS c))]) ∧
      (s.bit Reg.HAP_STATUS_HV_READY = false → Does (.hapticDoorbell bell v) s s
        [(Reg.HC_DROPS_HV_DROP c, s.more (Reg.HC_DROPS_HV_DROP c)), (Reg.HC_COUNTS_DISCARDS c, s.more (Reg.HC_COUNTS_DISCARDS c))]) ∧
      (bell.beaten = false → s.bit Reg.HAP_STATUS_HV_READY = true →
        (s.bit Reg.HAP_STATUS_LIB_VALID = false ∨ s.bit (Reg.HC_CTRL_EN c) = false ∨ s.hcState c = 4 →
          Does (.hapticDoorbell bell v) s s [(Reg.HC_COUNTS_DISCARDS c, s.more (Reg.HC_COUNTS_DISCARDS c))]) ∧
        (s.bit Reg.HAP_STATUS_LIB_VALID = true → s.bit (Reg.HC_CTRL_EN c) = true → s.hcState c = 0 →
          let g : HapTrigger := { effect := e, urgent := urgent, session := some session, late := bell.missed }
          (urgent = true → (s.hc c).urgent = none →
            Does (.hapticDoorbell bell v) s (s.setHc c { s.hc c with urgent := some g }) []) ∧
          (urgent = false → (s.hc c).pending = none →
            Does (.hapticDoorbell bell v) s (s.setHc c { s.hc c with pending := some g }) [])))) ∧
  (s.bit (Reg.HAP_TRIG_EN k) = false → Does (.hapTrigEdge (BitVec.ofNat 4 (2 ^ k.val)) levels []) s s []) ∧
  (s.bit (Reg.HAP_TRIG_EN k) = true → s.get (Reg.HAP_TRIG_EDGE k) = 2 → s.get (Reg.HAP_TRIG_HC k) = n →
    s.bit Reg.HAP_STATUS_HV_READY = true → s.bit Reg.HAP_STATUS_LIB_VALID = true → s.bit (Reg.HC_CTRL_EN n) = true →
    s.hcState n = 0 →
    let d := s.hapDesc (s.get (Reg.HAP_TRIG_EFFECT k))
    s.hapOthers n + s.hapCost n d.level ≤ s.get Reg.HAP_BUDGET_LIMIT →
    exec (.hapTrigEdge (BitVec.ofNat 4 (2 ^ k.val)) levels []) s = .next (s.hapBegin n d (s.hapCost n d.level)) ∧
    (d.total ≠ 0 → d.track = false →
      SetsAnd (.hapTrigEdge (BitVec.ofNat 4 (2 ^ k.val)) levels []) s
        [(Reg.HC_STATUS_STATE n, 2), (Reg.HC_STATUS_LOCKED n, 0), (Reg.HC_FREQ_TRACKED n, d.f0 * 16),
         (Reg.HC_COUNTS_STARTS n, s.more (Reg.HC_COUNTS_STARTS n)),
         (Reg.HAP_BUDGET_IN_USE, (hapChannels.map fun c => if c = n.val then s.hapCost n d.level else (s.hc c).cost).sum)]
        fun t => (t.hc n).desc = d ∧ (t.hc n).acc = 0 ∧ (t.hc n).cycle = 0 ∧ (t.hc n).delta = hapDelta (d.f0 * 16) ∧
          (t.hc n).cost = s.hapCost n d.level)) ∧
  ((∀ c < 16, (s.hc c).pending = none ∧ (s.hc c).urgent = none ∧ s.hcState c ≠ 1) → Does .hapticSlotBoundary s s []) ∧
  ((∀ c < 16, (c ≠ n.val → (s.hc c).pending = none) ∧ (s.hc c).urgent = none ∧ s.hcState c ≠ 1) → s.hcState n = 0 → s.isGated 0x11 n = false →
    match (s.hc n).pending with
    | none => True
    | some t =>
      (0 < t.late → DoesThen .hapticSlotBoundary s s [] fun u =>
        (u.breach { rank := 6, yielded := 6, port := none, mag := s.hapSlotsUs (t.missed + 1), unit := 0x11, inst := n }).setHc n
          { s.hc n with pending := some { t with late := t.late - 1, missed := t.missed + 1 } }) ∧
      (t.late = 0 → t.urgent = false → (s.hapDesc t.effect).total ≠ 0 →
        s.hapOthers n + s.hapCost n (s.hapDesc t.effect).level ≤ s.get Reg.HAP_BUDGET_LIMIT →
        exec .hapticSlotBoundary s =
          .next ((s.setHc n { s.hc n with pending := none }).hapBegin n (s.hapDesc t.effect)
            (s.hapCost n (s.hapDesc t.effect).level))))

/-- R350, R351, R352: claims. The secure world sets and clears bits of a unit's owner register where the unit is one of the claimable
and the instance exists; a claim of an instance that a session holds is refused and counted; and nothing else changes where no
interrupt of the instance is in service and no gate is requested. A write by the normal world changes nothing but DENIED_WRITES. -/
def Obligations.ClaimsSetAndClearTheOwner : Prop := ∀ (s : State) (u : Fin 33) (k : Fin 8) (v : Word) (b : Fin 32),
  let f : Fld := { addr := Reg.SYS_OWN u k, lo := b, width := 1 }
  let one : Word := BitVec.ofNat 32 (2 ^ b.val)
  let i := 32 * k.val + b.val
  let still := s.ic.inService.isEmpty && !bitOf (s.reg (Reg.PWR_GATE u k)).toNat b
  s.isGated 0 0 = false →
  (∀ c ∈ [Instr.ownerClaim u k .normal v, .ownerRelease u k .normal v],
    Does c s s [(Reg.SYS_OWN_STATUS_DENIED_WRITES, s.more Reg.SYS_OWN_STATUS_DENIED_WRITES)]) ∧
  (claimable u = false ∨ unitInstances u ≤ 32 * k.val → Does (.ownerClaim u k .secure v) s s [] ∧ Does (.ownerRelease u k .secure v) s s []) ∧
  (claimable u = true → i < unitInstances u →
    (s.get f = 1 → Does (.ownerClaim u k .secure one) s s [] ∧
      (still = true → Does (.ownerRelease u k .secure one) s s [(f, 0)])) ∧
    (s.get f = 0 → Does (.ownerRelease u k .secure one) s s [] ∧
      (s.assigned u i = true → Does (.ownerClaim u k .secure one) s s
        [(Reg.SYS_OWN_STATUS_EVENTS, s.more Reg.SYS_OWN_STATUS_EVENTS), (Reg.SYS_OWN_STATUS_CLAIM_REFUSED, 1)]) ∧
      (s.assigned u i = false → still = true → Does (.ownerClaim u k .secure one) s s [(f, 1)])) ∧
    (Leads (.ownerClaim u k .secure v) s fun t =>
      t.get f = (if s.get f = 1 ∨ (v.getLsbD b = true ∧ s.assigned u i = false) then 1 else 0) ∧ s.SameBytes t) ∧
    (Leads (.ownerRelease u k .secure v) s fun t => t.get f = (if v.getLsbD b then 0 else s.get f) ∧ s.SameBytes t))

/-- R354, R355: gating. A request for an instance that can be gated takes effect at once where the instance is idle and not claimed by
the secure world, or was requested by it; else it is held, and a claim that holds it is logged once. A held request takes effect
when what held it is gone; the clock of an audio unit or a TDM port stops with the block that was being sent. A withdrawal clears
the request; an instance whose clock starts again holds its reset values, but that a locked owner register stays (R9), a haptic
channel in FAULT stays there, and a touch engine that C2 holds stays HALTED (R396). The readings and choices of the model behind it:
log entry 37. -/
def Obligations.GateRequestsWaitForIdleness : Prop := ∀ (s : State) (u : Fin 33) (k : Fin 8) (b : Fin 32) (w : World),
  let i := 32 * k.val + b.val
  let key := 256 * u.val + i
  let req : Fld := { addr := Reg.PWR_GATE u k, lo := b, width := 1 }
  let held : Fld := { addr := Reg.PWR_HELD u k, lo := b, width := 1 }
  let one : Word := BitVec.ofNat 32 (2 ^ b.val)
  let asked : State := if w = .secure then { s with gateSecure := key :: s.gateSecure } else s
  let claimed := s.ownedSecure u i && w == .normal && !s.gateSecure.contains key
  let stays := fun (a : Nat) => (instanceOwners u i).contains a && (s.reg a).getLsbD 31
  let haptic := u == 0x11 && s.get (Reg.HC_STATUS_STATE i) == 4
  let touch := u == 0x10 && (s.tch i).contained
  (gateable u i = false → Does (.gateRequest u k w one) s s [] ∧ Does (.gateWithdraw u k w one) s s [] ∧
    Does (.gateTakeEffect u (Fin.ofNat 256 i)) s s []) ∧
  (gateable u i = true → s.isGated u i = false →
    (s.get req = 0 → Does (.gateWithdraw u k w one) s s [] ∧ Does (.gateTakeEffect u (Fin.ofNat 256 i)) s s [] ∧
      (s.unitIdle u i = true → claimed = false →
        DoesThen (.gateRequest u k w one) s { asked with gated := key :: s.gated } [(held, 0), (req, 1)] (·.audioGated u i)) ∧
      (s.unitIdle u i = false → claimed = false → Does (.gateRequest u k w one) s asked [(held, 1), (req, 1)]) ∧
      (claimed = true → s.gateNoted.contains key = false →
        DoesThen (.gateRequest u k w one) s { asked with gateNoted := key :: s.gateNoted } [(held, 1), (req, 1)]
          fun t => t.logEvent 0x0002 u i key 0 0 0)) ∧
    (s.get req = 1 → Does (.gateRequest u k w one) s s [] ∧
      Does (.gateWithdraw u k w one) s
        { s with gateSecure := s.gateSecure.filter (· != key), gateNoted := s.gateNoted.filter (· != key) } [(held, 0), (req, 0)] ∧
      (s.unitIdle u i = true → s.ownedSecure u i = false →
        DoesThen (.gateTakeEffect u (Fin.ofNat 256 i)) s { s with gated := key :: s.gated } [(held, 0)] (·.audioGated u i)))) ∧
  (u ≠ 0x13 → u ≠ 0x14 → s.audioGated u i = s) ∧
  (gateable u i = true → s.isGated u i = true → s.get req = 1 →
    Does (.gateTakeEffect u (Fin.ofNat 256 i)) s s [] ∧
    Leads (.gateWithdraw u k w one) s fun t => t.isGated u i = false ∧ t.get req = 0 ∧
      (haptic = false → touch = false → ∀ p ∈ s.regs, p.1 / 0x10000 = key →
        t.reg p.1 = if stays p.1 then s.reg p.1 else if p.1 = Reg.HAP_BUDGET then t.reg p.1 else regReset p.1) ∧
      (u.val = 0x11 ∨ u.val = 0x12 → t.get Reg.HAP_BUDGET_IN_USE = (hapChannels.map fun n => (t.hc n).cost).sum % 65536) ∧
      (haptic = true → t.get (Reg.HC_STATUS_STATE i) = 4) ∧
      (touch = true → (t.tch i).contained = true ∧ t.get (Reg.TOUCH_STATUS_PHASE i) = 6) ∧ s.SameBytes t)

/-- R356: the instructions of the JTAG port. Each selects its register with what it captures: the identification code, the enables and
failures, one bit of 0; what the boundary register and the transport's control register capture is free. EXTEST, HIGHZ and CLAMP
drive the pins only while RESET_N is low, EXTEST and CLAMP from the boundary register and HIGHZ not at all, and select the one-bit
register otherwise, also after a START_RESET that left RESET_N high; TDO has no cell, and a pin whose bank has no supply is not
driven. Nothing else of the device changes. R357, R358: debug access and its unlocking. A request to halt waits until the core's
world has its invasive enable open; a halted core's registers answer and change only then; the PC sample needs the world's
non-invasive enable. A challenge is drawn anew where it was used or is stale; a token shifted in uses it up, and none is taken after
the lockout or while one is verified; one that fails counts, and the third failure locks tokens out; one that passes opens the
enables of its scope and is logged. NORMAL_EN opens NI and NNI for the secure world. The readings and choices of the model behind
it: log entries 1, 50, 51, 60, 88, 90, 97. -/
def Obligations.JtagSelectsAndDebugNeedsItsEnable : Prop :=
  (∀ (s : State) (code : BitVec 5) (pin : OutPin),
    let sel := fun (code width dr : Nat) => { s.jtag with ir := code, width := width, dr := dr, scan := 0 }
    let selected := fun (code width scan draws : Nat) (t : State) => t.drawn = s.drawn + draws ∧ t.jtag.ir = code ∧
      t.jtag.width = width ∧ t.jtag.scan = scan ∧ { t with drawn := s.drawn, jtag := s.jtag } = s
    Does .idcode s { s with jtag := sel 0x01 32 Config.idcode.toNat } [] ∧
    Does .unlockStatus s { s with jtag := sel 0x1A 8 (getBits (s.reg Reg.DBG_EN) 0 4 + s.get Reg.DBG_EN_FAILS * 16 +
      b2n s.jtag.token.isSome * 64 + s.get Reg.DBG_EN_LOCKED_OUT * 128) } [] ∧
    Leads .samplePreload s (selected 0x02 0 0 2) ∧ Leads .dtmcs s (selected 0x10 32 0 1) ∧
    (s.released = true ∨ s.resetLow = false → Does .extest s { s with jtag := sel 0x00 1 0 } [] ∧ Does .highz s { s with jtag := sel 0x03 1 0 } [] ∧
      Does .clamp s { s with jtag := sel 0x04 1 0 } []) ∧
    (s.released = false → s.resetLow = true → Leads .extest s (selected 0x00 0 1 2) ∧ Does .highz s { s with jtag := { sel 0x03 1 0 with scan := 2 } } [] ∧
      Does .clamp s { s with jtag := { sel 0x04 1 0 with scan := 3 } } []) ∧
    (s.released = false → s.resetLow = true → pin ≠ .tdo → s.pinUnpowered pin = false →
      (Leads .extest s fun t => t.pinLevel pin = pin.scanLevel t.jtag.cells) ∧
      (Leads .clamp s fun t => t.pinLevel pin = pin.scanLevel s.jtag.cells) ∧ (Leads .highz s fun t => t.pinLevel pin = .z)) ∧
    (∀ c ∈ [Instr.extest, .clamp, .highz],
      (s.pinUnpowered pin = true → Leads c s fun t => t.pinLevel pin = .z) ∧
      (s.released = false → s.resetLow = false → pin ≠ .tdo → Leads c s fun t => t.pinLevel pin = .z) ∧
      (s.shifting = false → Leads c s fun t => t.pinLevel .tdo = .z) ∧ (s.shifting = true → Leads c s fun t => t.pinLevel .tdo = .data)) ∧
    (jtagCodes.contains code.toNat = false → Does (.bypass code) s { s with jtag := sel code.toNat 1 0 } []) ∧
    (jtagCodes.contains code.toNat = true → Does (.bypass code) s s [])) ∧
  (∀ (s : State) (c : Fin 5) (r : Fin 32) (x : BitVec 64) (bs : List Byte) (v : Word),
    let sel := fun (code width dr : Nat) => { s.jtag with ir := code, width := width, dr := dr, scan := 0 }
    let d : State := { s with jtag := sel 0x11 0 0 }
    let opened := fun (scope : Nat) =>
      let ni := s.get Reg.DBG_EN_NI ||| scope % 2
      let nni := s.get Reg.DBG_EN_NNI ||| scope % 2 ||| scope / 2 % 2
      let si := s.get Reg.DBG_EN_SI ||| scope / 4 % 2
      let sni := s.get Reg.DBG_EN_SNI ||| scope / 4 % 2 ||| scope / 8 % 2
      [(Reg.SYS_SEC_STATUS_DBG_SECURE, si ||| sni), (Reg.DBG_EN_SNI, sni), (Reg.DBG_EN_SI, si), (Reg.DBG_EN_NNI, nni), (Reg.DBG_EN_NI, ni)]
    (s.get (Reg.MC_STATUS_STATE c) = 1 → s.invasive (s.coreWorld c) = true →
      Does (.dmi (.halt c)) s (d.setCore c { s.core c with haltReq := false }) [(Reg.MC_STATUS_HALTED c, 1)]) ∧
    (s.get (Reg.MC_STATUS_STATE c) ≠ 1 ∨ s.invasive (s.coreWorld c) = false →
      Does (.dmi (.halt c)) s (d.setCore c { s.core c with haltReq := true }) []) ∧
    (s.debugs c = true → Does (.dmi (.resume c)) s d [(Reg.MC_STATUS_HALTED c, 0)] ∧
      Does (.dmi (.readGpr c r)) s { s with jtag := sel 0x11 0 ((s.core c).gpr r).toNat } [] ∧
      Does (.dmi (.writeGpr c r x)) s (d.setCore c ((s.core c).setGpr r x)) [] ∧
      Does (.dmi (.readFpr c r)) s { s with jtag := sel 0x11 0 (sget (fun _ => 0) (s.core c).f r.val).toNat } [] ∧
      (Leads (.dmi (.writeFpr c r x)) s fun t => s.SameBytes t ∧ ∀ q : Fin 32,
        sget (fun _ => 0) (t.core c).f q.val = if q = r then x else sget (fun _ => 0) (s.core c).f q.val) ∧
      (s.invasive .secure = true → Does (.dmi (.readCsr c .secure 0xF14)) s
        { s with jtag := sel 0x11 0 (s.get (Reg.MC_CTRL_HARTID c)) } [] ∧
        Does (.dmi (.readCsr c .secure 0x7B1)) s { s with jtag := sel 0x11 0 (s.core c).pc.toNat } [])) ∧
    (s.debugs c = false → ∀ op ∈ [DmiOp.resume c, .step c, .readGpr c r, .writeGpr c r x, .readFpr c r, .writeFpr c r x, .readCsr c .secure 0x300,
      .writeCsr c .normal 0x300 x], Does (.dmi op) s d []) ∧
    (s.nonInvasive (s.coreWorld c) = true → Does (.dmi (.pcSample c)) s { s with jtag := sel 0x11 0 (s.core c).pc.toNat } []) ∧
    (s.nonInvasive (s.coreWorld c) = false → Does (.dmi (.pcSample c)) s d []) ∧
    (s.jtag.used = false → Does (.unlockChal false) s
      { s with jtag := sel 0x18 320 (leNat (s.jtag.challenge ++ leBytes 8 Config.deviceSerial.toNat)) } []) ∧
    (∀ stale ∈ [true, s.jtag.used], stale = true → Leads (.unlockChal stale) s fun t => t.drawn = s.drawn + 4 ∧
      t.jtag.used = false ∧ t.jtag.challenge.length = 32 ∧ t.jtag.ir = 0x18 ∧ t.jtag.width = 320 ∧
      { t with drawn := s.drawn, jtag := s.jtag } = s) ∧
    (s.bit Reg.DBG_EN_LOCKED_OUT = true ∨ s.jtag.token.isSome = true →
      Does (.unlockToken bs) s { s with jtag := sel 0x19 1536 (leNat bs) } []) ∧
    (s.bit Reg.DBG_EN_LOCKED_OUT = false → s.jtag.token = none → s.jtag.used = false →
      Does (.unlockToken bs) s
        { s with jtag := { sel 0x19 1536 (leNat bs) with token := some (s.jtag.challenge, bs), used := true } } []) ∧
    (match s.jtag.token with
      | none => Does .unlockTokenVerified s s []
      | some (ch, tok) =>
        let u : State := { s with jtag := { s.jtag with token := none } }
        (tokenPasses ch tok = false → Does .unlockTokenVerified s u
          ((if s.get Reg.DBG_EN_FAILS = 2 ∨ s.get Reg.DBG_EN_FAILS = 3 then [(Reg.DBG_EN_LOCKED_OUT, 1)] else []) ++
            [(Reg.DBG_EN_FAILS, s.more Reg.DBG_EN_FAILS)])) ∧
        (tokenPasses ch tok = true → DoesThen .unlockTokenVerified s u (opened (byteAt tok 4)) fun t =>
          t.logEvent 0x0003 0x1A 0 (byteAt tok 4) (leAt (sha256 (part tok 64 64)) 0 4) (leAt (sha256 (part tok 64 64)) 4 4)
            (leAt (sha256 (part tok 64 64)) 8 4))) ∧
    (s.isGated 0x1F 0 = false → Does (.debugNormalEn .secure v) s s (opened (getBits v 0 2) ++
      [(Reg.DBG_NORMAL_EN_NNI, s.get Reg.DBG_NORMAL_EN_NNI ||| getBits v 1 1),
       (Reg.DBG_NORMAL_EN_NI, s.get Reg.DBG_NORMAL_EN_NI ||| getBits v 0 1)])))

/-- R329, R330, R331, R333, R389, R448: a core's release starts it in the secure world and machine mode at SEC_ENTRY, with no RUNNING
core of its HARTID beside it; a core that is FAILED or WORN, or whose HARTID is taken, is refused with FAULT; a hold takes it out of
the machine at once, and leaves a marked one WORN, which then waits for no restart of the secure world. An array error is a fault
input of its group, and an uncorrectable one of a core's arrays fails the core. In an idle clock the cycle counter of the world a
running core is in advances at 1.2 GHz unless mcountinhibit stops it, and no CSR of the other world's copy changes (a clock in which
the boot ROM goes on is not said here). The readings and choices of the model behind it: log entries 9, 34, 89, 90. -/
def Obligations.CoreReleaseHoldAndFailure : Prop := ∀ (s : State) (c d : Fin 5) (w : World) (v : Word) (g : Fin 96) (srOk : Bool),
  let ctrl := fun (run : Nat) => [(Reg.MC_CTRL_RUN c, run), (Reg.MC_CTRL_HARTID c, getBits v 8 3)]
  let bare := (s.sentDrop c).tagDrop c
  (s.Admits w 0x16 c false →
    (s.get (Reg.MC_STATUS_STATE c) = 0 → s.coreWorn c = false → s.hartTaken c (getBits v 8 3) = false → (s.core c).haltReq = false →
      Does (.coreRelease c w v) s (bare.setCore c { pc := BitVec.ofNat 64 (256 * s.get Reg.SYS_SEC_ENTRY_ADDR) })
        ([(Reg.MC_STATUS_WORLD c, 1), (Reg.MC_STATUS_STATE c, 1)] ++ ctrl 1)) ∧
    (s.get (Reg.MC_STATUS_STATE c) = 1 → s.hartTaken c (getBits v 8 3) = false → Does (.coreRelease c w v) s s (ctrl 1)) ∧
    (2 ≤ s.get (Reg.MC_STATUS_STATE c) ∨ (s.get (Reg.MC_STATUS_STATE c) = 0 ∧ s.coreWorn c = true) ∨
        (d ≠ c ∧ s.get (Reg.MC_STATUS_STATE d) = 1 ∧ s.get (Reg.MC_CTRL_HARTID d) = getBits v 8 3) →
      Does (.coreRelease c w v) s s
        [(Reg.MC_STATUS_EVENTS c, s.more (Reg.MC_STATUS_EVENTS c)), (Reg.MC_STATUS_FAULT c, 1)]) ∧
    (s.get (Reg.MC_STATUS_STATE c) = 1 →
      Does (.coreHold c w v) s (bare.setCore c { haltReq := (s.core c).haltReq })
        ([(Reg.MC_STATUS_HALTED c, 0), (Reg.MC_STATUS_WORLD c, 0), (Reg.MC_STATUS_STATE c, if s.coreWorn c then 3 else 0)] ++ ctrl 0)) ∧
    (s.get (Reg.MC_STATUS_STATE c) = 0 → s.coreWorn c = true →
      Does (.coreHold c w v) s (s.setCore c { s.core c with parked := false }) ((Reg.MC_STATUS_STATE c, 3) :: ctrl 0)) ∧
    (s.get (Reg.MC_STATUS_STATE c) = 0 ∧ s.coreWorn c = false ∨ 2 ≤ s.get (Reg.MC_STATUS_STATE c) →
      Does (.coreHold c w v) s s (ctrl 0))) ∧
  DoesThen (.arrayError g false srOk) s s [] (·.raiseFault (256 + g)) ∧
  (68 ≤ g.val ∨ (17 ≤ g.val ∧ g.val < 66) → DoesThen (.arrayError g true srOk) s s [] (·.raiseFault (352 + g))) ∧
  (Leads (.arrayError (Fin.ofNat 96 (12 + c.val)) true srOk) s fun t => t.get (Reg.MC_STATUS_STATE c) = 2 ∧
    (s.inSecure c = false → (t.core c).parked = false) ∧ t.restartCore ≠ some c.val ∧
    t.bit (Reg.MC_STATUS_FAULT c) = true ∧ t.bit (Reg.FLT_IN_STATUS_CAUSE (352 + 12 + c)) = true ∧
    t.bit (Reg.FLT_IN_STATUS_CAUSE (144 + c)) = true ∧
    (s.inSecure c = true → t.bit Reg.SYS_SEC_STATUS_DOWN = true ∧ t.bit Reg.SYS_SEC_STATUS_DOWN_EVT = true ∧
      t.get Reg.SYS_SEC_STATUS_CAUSE = 3 ∧ (s.restartOn = none → ∀ e < 5, t.inSecure e = false))) ∧
  (s.pending = [] → s.boot.romStage ≠ 3 →
    LeadsStep s fun t => (s.coreRuns c = false → t.core c = s.core c) ∧
      (s.coreRuns c = true →
        let x := s.coreWorld c
        (t.core c).csr x 0xB00 = (s.core c).csr x 0xB00 +
          (if get64 ((s.core c).csr x 0x320) 0 1 = 1 then 0 else BitVec.ofNat 64 ((s.clock + 1) * 6 / 5 - s.clock * 6 / 5)) ∧
        (x = .normal → (t.core c).csrS = (s.core c).csrS) ∧ (x = .secure → (t.core c).csrN = (s.core c).csrN)))

/-- R336, R337, R339, R343: the world gates. A running core in the normal world that executes WGATE g, where the masks let it, is in the
secure world and machine mode at the gate's place under wgvec with interrupts off, its registers as they were, and wgepc and
wgstatus say where it came from; with services down a0 is −2 and it goes on; where the masks do not let it, or in the secure world,
it takes the illegal-instruction exception, as WRET does in the normal world. The readings and choices of the model behind it: log
entry 34. -/
def Obligations.WorldGateEntersAndReturns : Prop := ∀ (s : State) (c : Fin 5) (g : Fin 64) (us : Nat),
  let r := s.core c
  let entered := ((r.setCsr .secure csrWgepc (r.pc + 4)).setCsr .secure csrWgstatus (wgStatus 0 r.priv g)).setStatus .secure 3 1 0
  let trapped := fun (w : World) (word : Word) => if r.priv ≤ 1 ∧ get64 (r.csr w 0x302) 2 1 = 1
    then r.trapS w 2 (Config.illegalTval word) else r.trapM w 2 (Config.illegalTval word)
  r.haltReq = false →
  (s.coreRuns c = true →
    (s.coreWorld c = .normal →
      (r.gateOpen g = true → s.bit Reg.SYS_SEC_STATUS_DOWN = false →
        Does (.wgate c g) s
          (s.setCore c { entered with priv := 3, pc := (r.csr .secure csrWgvec &&& ~~~0xFFF) + BitVec.ofNat 64 (64 * g),
                                      timed := s.bit Reg.SYS_SEC_CTRL_RES_ARM }) [(Reg.MC_STATUS_WORLD c, 1)]) ∧
      (r.gateOpen g = true → s.bit Reg.SYS_SEC_STATUS_DOWN = true →
        Does (.wgate c g) s (s.setCore c { r.setGpr 10 0xFFFFFFFFFFFFFFFE with pc := r.pc + 4 }) []) ∧
      (r.gateOpen g = false → Does (.wgate c g) s (s.setCore c (trapped .normal (BitVec.ofNat 32 (g * 2 ^ 20 + 0x0B)))) []) ∧
      Does (.wret c us) s (s.setCore c (trapped .normal 0x100B)) []) ∧
    (s.coreWorld c = .secure →
      Does (.wgate c g) s (s.setCore c (trapped .secure (BitVec.ofNat 32 (g * 2 ^ 20 + 0x0B)))) [] ∧
      (r.timed = false → SetsAnd (.wret c us) s [(Reg.MC_STATUS_WORLD c, 0)] fun t =>
        (t.core c).pc = r.csr .secure csrWgepc ∧ (t.core c).priv = get64 (r.csr .secure csrWgstatus) 2 2 ∧
        (get64 (r.csr .secure csrWgstatus) 0 2 = 0 →
          ∀ x < 32, (t.core c).gpr x = if 10 ≤ x ∧ x ≤ 13 then r.gpr x else 0) ∧
        (get64 (r.csr .secure csrWgstatus) 0 2 ≠ 0 →
          ∀ x < 32, (t.core c).gpr x = if x = 0 then 0 else sget (fun _ => 0) r.shadowX x)))) ∧
  (s.coreRuns c = false → Does (.wgate c g) s s [] ∧ Does (.wret c us) s s [])

/-- R338, R339, R349: a secure source that is what the controller delivers pre-empts the lowest-numbered of its targets that runs in the
normal world: the core is in the secure world and machine mode, and a WRET right after it gives back its registers, its pc, its mode
and the normal world's CSRs as they were. Where no target runs in the normal world, no core is pre-empted. R347, R348, R349: the
interrupt controller. A context's top source can be delivered there, and no other that can has a higher priority, or an equal one
and a lower number; a claim of it by the context's world puts it in service and clears PENDING, and any other claim does nothing;
its completion ends the service; a software source is raised by its own world. A core in the normal world takes the trap of its
machine context where that is enabled. The readings and choices of the model behind it: log entries 36, 52, 91. -/
def Obligations.InterruptsFollowWorldAndPriority : Prop :=
  (∀ (s : State) (k : Fin 512) (us : Nat),
    match s.preempted k with
    | none => Does (.secureInterrupt k) s s []
    | some c =>
      (s.topSource c 0 ≠ k → Does (.secureInterrupt k) s s []) ∧
      (k.val ≠ 0 → s.topSource c 0 = k → (s.core c).haltReq = false → (s.core c).priv < 4 →
        Leads (.secureInterrupt k) s fun t => t.coreWorld c = .secure ∧ (t.core c).priv = 3 ∧
          t.ic.sent = (k.val, c) :: s.ic.sent ∧ (t.core c).csr .secure csrWgepc = (s.core c).pc ∧ s.SameBytes t ∧
          Leads (.wret (Fin.ofNat 5 c) us) t fun u => u.coreWorld c = .normal ∧ (u.core c).pc = (s.core c).pc ∧
            (u.core c).priv = (s.core c).priv ∧ (u.core c).x = (s.core c).x ∧ (u.core c).f = (s.core c).f ∧
            (u.core c).fcsr = (s.core c).fcsr ∧ (u.core c).csrN = (s.core c).csrN)) ∧
  (∀ (s : State) (c : Fin 5) (x : Fin 3) (w : World) (v : Word),
    let k := s.topSource c x
    let r := s.core c
    (s.bit (Reg.IC_SRC_PENDING 0) = false →
      (k = 0 → ∀ j < 480, s.deliverable c x j = false) ∧
      (k ≠ 0 → s.deliverable c x k = true ∧ ∀ j < 480, s.deliverable c x j = true →
        s.get (Reg.IC_SRC_PRIO j) < s.get (Reg.IC_SRC_PRIO k) ∨ (s.get (Reg.IC_SRC_PRIO j) = s.get (Reg.IC_SRC_PRIO k) ∧ k ≤ j))) ∧
    (k ≠ 0 → w = contextWorld x → getBits v 0 9 = k →
      Does (.irqClaim c x w v) s
        { s with ic := { s.ic with inService := (k, 3 * c.val + x.val) :: s.ic.inService, sent := s.ic.sent.filter (·.1 != k) } }
        [(Reg.IC_SRC_PENDING k, 0)]) ∧
    (k = 0 ∨ w ≠ contextWorld x ∨ getBits v 0 9 ≠ k → Does (.irqClaim c x w v) s s []) ∧
    (let j := getBits v 0 9
     (w = contextWorld x → s.ic.inService.contains (j, 3 * c.val + x.val) = true → s.ic.again.contains j = false →
        Does (.irqComplete c x w v) s
          { s with ic := { s.ic with inService := s.ic.inService.filter (·.1 != j), again := s.ic.again.filter (· != j) } } []) ∧
     (w = contextWorld x → s.ic.inService.contains (j, 3 * c.val + x.val) = true → s.ic.again.contains j = true →
        Does (.irqComplete c x w v) s
          { s with ic := { s.ic with inService := s.ic.inService.filter (·.1 != j), again := s.ic.again.filter (· != j) } }
          [(Reg.IC_SRC_PENDING j, 1)]) ∧
     (w ≠ contextWorld x ∨ s.ic.inService.contains (j, 3 * c.val + x.val) = false → Does (.irqComplete c x w v) s s [])) ∧
    (s.SourceFree (448 + getBits v 0 5) → s.sourceWorld (448 + getBits v 0 5) = w →
      Does (.softwareInterrupt w v) s s [(Reg.IC_SRC_PENDING (448 + getBits v 0 5), 1)]) ∧
    (s.sourceWorld (448 + getBits v 0 5) ≠ w → Does (.softwareInterrupt w v) s s []) ∧
    (s.topSource c 1 ≠ 0 → s.coreRuns c = true → s.coreWorld c = .normal → r.haltReq = false →
      (r.takesM 11 = true → Does (.interruptDeliver c 1) s (s.setCore c (r.trapM .normal 0x800000000000000B 0)) []) ∧
      (r.takesM 11 = false → Does (.interruptDeliver c 1) s s [])) ∧
    (k = 0 ∨ s.coreRuns c = false → Does (.interruptDeliver c x) s s []))

/-- R341, R342, R343, R344: residency and the secure watchdog. RES_ARM, SWDT_ARM and UP are set by the secure world's write; a kick
begins the period anew; half of a period that counts raises source 124, once. A timed entry that reaches its limit sends its core
back to the normal world with FORCED, a gate entry returning −1, and marks services down with cause 1; the watchdog's expiry marks
them down with cause 2; every other core leaves the secure world. R345, R346, R357: an attempt to restart the secure world enters it
by KIND 2 on the lowest-numbered core that runs, with the secure CSR copy at reset, and counts in RESTARTS; the boot ROM enters the
secure image at LOAD + 0x40 where its digest is the recorded one, and the attempt fails where it is not; with none due nothing
happens. An attempt that times out fails: FAILS counts, another is due, and after the third failure services stay down with GAVE_UP.
A halted core executes nothing: an attempt waits while the core it would run on is halted, and one that a halt request stops at its
entry waits there at the restart vector (the model's choice, log entry 113). The readings and choices of the model behind it: log
entry 53. -/
def Obligations.SecureWorldIsWatchedAndRestarted : Prop :=
  (∀ (s : State) (c : Fin 5) (w : World) (v : Word),
    let ctrl := fun (arm swdt : Nat) =>
      [(Reg.SYS_SEC_CTRL_LOCK, s.get Reg.SYS_SEC_CTRL_LOCK ||| getBits v 31 1), (Reg.SYS_SEC_CTRL_RESTART_TIMEOUT, getBits v 16 15),
       (Reg.SYS_SEC_CTRL_AUTO_RESTART, getBits v 3 1), (Reg.SYS_SEC_CTRL_SWDT_ARM, s.get Reg.SYS_SEC_CTRL_SWDT_ARM ||| swdt),
       (Reg.SYS_SEC_CTRL_RES_ARM, s.get Reg.SYS_SEC_CTRL_RES_ARM ||| arm)]
    (s.isGated 0 0 = false →
      (getBits v 4 1 = 0 → Does (.resArm .secure v) s s (ctrl 1 (getBits v 1 1)) ∧ Does (.swdtArm .secure v) s s (ctrl (getBits v 0 1) 1)) ∧
      (s.bit Reg.SYS_SEC_STATUS_RESTARTING = false → Does (.secureUp .secure v) s s (ctrl (getBits v 0 1) (getBits v 1 1))) ∧
      (s.bit Reg.SYS_SEC_STATUS_RESTARTING = true →
        DoesThen (.secureUp .secure v) s { s with restartOn := none }
          ([(Reg.SYS_SEC_STATUS_FAILS, 0), (Reg.SYS_SEC_STATUS_DOWN, 0), (Reg.SYS_SEC_STATUS_RESTARTING, 0)] ++
            ctrl (getBits v 0 1) (getBits v 1 1)) (·.liveFell 6)) ∧
      Does (.swdtKick .secure) s { s with swdtHalf := false } []) ∧
    (s.swdtCounts = true → s.swdtHalf = false → s.SourceFree 124 →
      Does .swdtHalfPeriod s { s with swdtHalf := true } [(Reg.IC_SRC_PENDING 124, 1)]) ∧
    (s.swdtCounts = false ∨ s.swdtHalf = true → Does .swdtHalfPeriod s s []) ∧
    (s.swdtCounts = false → Does .swdtExpire s s []) ∧
    (s.inSecure c = false ∨ (s.core c).timed = false ∨ s.bit (Reg.MC_STATUS_HALTED c) = true → Does (.residencyExpire c) s s []) ∧
    (s.bit Reg.SYS_SEC_STATUS_DOWN = false → s.bit Reg.SYS_SEC_STATUS_RESTARTING = false →
      (s.swdtCounts = true → Leads .swdtExpire s fun t => t.bit Reg.SYS_SEC_STATUS_DOWN = true ∧ t.get Reg.SYS_SEC_STATUS_CAUSE = 2 ∧
        t.bit Reg.SYS_SEC_STATUS_DOWN_EVT = true ∧ t.bit (Reg.FLT_IN_STATUS_CAUSE 6) = true ∧ (s.restartOn = none → ∀ d < 5, t.inSecure d = false)) ∧
      (s.inSecure c = true → (s.core c).timed = true → s.bit (Reg.MC_STATUS_HALTED c) = false → (s.core c).context = true →
        (s.core c).haltReq = false →
        Leads (.residencyExpire c) s fun t => t.bit Reg.SYS_SEC_STATUS_DOWN = true ∧ t.get Reg.SYS_SEC_STATUS_CAUSE = 1 ∧
          t.get Reg.SYS_SEC_STATUS_CORE = c ∧ t.coreWorld c = .normal ∧ t.bit (Reg.MC_STATUS_FORCED c) = true ∧
          (t.core c).pc = (s.core c).csr .secure csrWgepc ∧ s.residLimit c ≤ t.get (Reg.MC_RESID_MAX_US c) ∧
          (get64 ((s.core c).csr .secure csrWgstatus) 0 2 = 0 → (t.core c).gpr 10 = 0xFFFFFFFFFFFFFFFF)))) ∧
  (∀ (s : State) (romOk : Bool),
    let failed := [(Reg.SYS_SEC_STATUS_RESTARTING, 0), (Reg.SYS_SEC_STATUS_FAILS, s.get Reg.SYS_SEC_STATUS_FAILS + 1)]
    (s.restartDue = false → Does (.secureRestart romOk) s s []) ∧
    (s.restartDue = true →
      let begun := [(Reg.SYS_SEC_STATUS_RESTARTS, s.more Reg.SYS_SEC_STATUS_RESTARTS)]
      match s.restartCore with
      | none => s.restartOn = none → s.get Reg.SYS_SEC_STATUS_FAILS < 2 → Does (.secureRestart romOk) s s (failed ++ begun)
      | some c => (s.bit (Reg.MC_STATUS_HALTED c) = true → Does (.secureRestart romOk) s s []) ∧
        (s.bit (Reg.MC_STATUS_HALTED c) = false → (s.core c).haltReq = true → s.invasive .secure = true → s.get (Reg.MC_STATUS_STATE c) = 1 →
          Leads (.secureRestart romOk) s fun t => t.bit (Reg.MC_STATUS_HALTED c) = true ∧ (t.core c).romWaits = some romOk ∧
            (t.core c).pc = 0x0FF0000400 ∧ (t.core c).priv = 3 ∧ t.restartOn = some c ∧ t.bit Reg.SYS_SEC_STATUS_RESTARTING = true) ∧
        (s.bit (Reg.MC_STATUS_HALTED c) = false → s.invasive .secure = false → (s.core c).parked = false →
        (s.imageOk = true → SetsAnd (.secureRestart true) s
          ([(Reg.MC_STATUS_WORLD c, 1), (Reg.SYS_SEC_STATUS_RESTARTING, 1)] ++ begun)
          fun t => t.restartOn = some c ∧ t.restartDue = false ∧
            (t.core c).pc = BitVec.ofNat 64 ((s.boot.image.getD (0, 0)).1 + 0x40) ∧ (t.core c).priv = 3 ∧
            (t.core c).csr .secure csrMstatus = 0xA00000000 ∧ (t.core c).shadowX = (s.core c).x) ∧
        (s.imageOk = false → (s.core c).context = true → s.get (Reg.MC_STATUS_STATE c) = 1 → Leads (.secureRestart romOk) s fun t => t.restartOn = none ∧ t.coreWorld c = .normal ∧
          t.bit Reg.SYS_SEC_STATUS_RESTARTING = false ∧ t.get Reg.SYS_SEC_STATUS_FAILS = (s.get Reg.SYS_SEC_STATUS_FAILS + 1) % 4))) ∧
    (s.bit Reg.SYS_SEC_STATUS_RESTARTING = false → Does .restartTimeout s s []) ∧
    (s.bit Reg.SYS_SEC_STATUS_RESTARTING = true → s.restartOn = none →
      (s.get Reg.SYS_SEC_STATUS_FAILS < 2 → Does .restartTimeout s { s with restartDue := true } failed) ∧
      (s.get Reg.SYS_SEC_STATUS_FAILS = 2 → Does .restartTimeout s { s with restartDue := false }
        ((Reg.SYS_SEC_STATUS_GAVE_UP, 1) :: failed))))

/-- R387, R398, R400, R433: an event of a fault input of class C0 or C1 whose unit takes no action of its own. CAUSE is set, TRANSIENT
clears where CAUSE was clear, EVENTS counts, the interrupt source of its class is raised and a FAULT record joins the logbook's
queue; an input with capture also fills the first-error registers where they hold nothing. A CLASS write is held within the input's
range, and is ignored once the collector is locked. An input that is not used is never raised. An event of an input whose unit takes
an action takes it: a core's fails the core, a side's freezes the side, one of both sides stops a copy engine that runs, a port's
degrades or unplugs its link, a protected layer's makes it stale, a touch engine's enters the noise mode. The readings and choices
of the model behind it: log entries 25, 30, 93, 109. -/
def Obligations.FaultEventIsRecorded : Prop := ∀ (s : State) (k : Fin 448) (addr : BitVec 40) (type : Fin 6) (m : Master) (w : World) (v : Word),
  let cls := s.faultClass k
  let recorded := [(Reg.IC_SRC_PENDING (128 + cls), 1), (Reg.FLT_IN_STATUS_EVENTS k, s.more (Reg.FLT_IN_STATUS_EVENTS k)),
    (Reg.FLT_IN_STATUS_TRANSIENT k, if s.bit (Reg.FLT_IN_STATUS_CAUSE k) then s.get (Reg.FLT_IN_STATUS_TRANSIENT k) else 0),
    (Reg.FLT_IN_STATUS_CAUSE k, 1)]
  let ns := s.clock / 40 * 40
  let captured := [(Reg.IC_SRC_PENDING 132, 1), (whole Reg.FLT_FE_DRUM_HI, s.drumbeat / 2 ^ 32), (whole Reg.FLT_FE_DRUM_LO, s.drumbeat % 2 ^ 32),
    (whole Reg.FLT_FE_NS_HI, ns / 2 ^ 32), (whole Reg.FLT_FE_NS_LO, ns % 2 ^ 32),
    (Reg.FLT_FE_MASTER_SESSION, if m.kind = .guest then m.session.val else 0), (Reg.FLT_FE_MASTER_ID, m.id.val),
    (Reg.FLT_FE_MASTER_KIND, masterKindCode m.kind), (Reg.FLT_FE_INFO_ADDR_HI, addr.toNat / 2 ^ 32), (Reg.FLT_FE_INFO_TYPE, type),
    (Reg.FLT_FE_INFO_WORLD, worldCode m.world), (Reg.FLT_FE_INFO_INPUT, k), (whole Reg.FLT_FE_ADDR, addr.toNat % 2 ^ 32),
    (Reg.FLT_FE_STATUS_MORE, 0), (Reg.FLT_FE_STATUS_VALID, 1)]
  let entry : LogEntry := { code := 0x0200 + k, unit := s.get (Reg.FLT_IN_CFG_UNIT k), inst := s.get (Reg.FLT_IN_CFG_INSTANCE k),
                            sec := s.rtc.sec, frac := s.rtc.frac, timeValid := s.bit Reg.RTC_STATUS_VALID, origin := 0,
                            p0 := BitVec.ofNat 32 (cls + 256 * b2n (s.faultLive k)), p1 := BitVec.ofNat 32 s.drumbeat, p2 := 0, p3 := 0 }
  let acts : Bool := [(3, 11), (32, 61), (64, 75), (80, 119), (128, 133), (144, 148), (160, 207), (352, 447)].any
    fun p => decide (p.1 ≤ k.val ∧ k.val ≤ p.2)
  ((fltInput k).isNone = true → Does (.faultEvent k addr type m) s s []) ∧
  (∀ c : Fin 5, Leads (.faultEvent (Fin.ofNat 448 (144 + c.val)) addr type m) s fun t => t.get (Reg.MC_STATUS_STATE c) = 2 ∧
    t.bit (Reg.FLT_IN_STATUS_CAUSE (144 + c)) = true) ∧
  (∀ n : Side, s.sideMode n = 1 ∨ s.sideMode n = 2 ∨ s.sideMode n = 3 ∨ s.sideMode n = 5 →
    Leads (.faultEvent (Fin.ofNat 448 (128 + n.val)) addr type m) s fun t => t.sideMode n = 4 ∧
      t.bit (Reg.FLT_IN_STATUS_CAUSE (128 + n)) = true) ∧
  (s.sideMode 0 = 5 ∨ s.sideMode 1 = 5 → Leads (.faultEvent 8 addr type m) s fun t => t.bit (Reg.FLT_IN_STATUS_CAUSE 8) = true ∧
    ∀ n < 2, s.sideMode n = 5 → (t.side n).stopped = true ∧ (t.side n).flight = []) ∧
  (∀ n : Side, Leads (.faultEvent (Fin.ofNat 448 (132 + n.val)) addr type m) s fun t => t.bit (Reg.FLT_IN_STATUS_CAUSE (132 + n)) = true) ∧
  (∀ p : Fin 8,
    (Leads (.faultEvent (Fin.ofNat 448 (88 + p.val)) addr type m) s fun t => t.bit (Reg.PROT_STATUS_STALE p) = true ∧
      t.bit (Reg.FLT_IN_STATUS_CAUSE (88 + p)) = true) ∧
    (Leads (.faultEvent (Fin.ofNat 448 (104 + p.val)) addr type m) s fun t => t.bit (Reg.DPO_LINK_STATUS_DEGRADED p) = true ∧
      t.bit (Reg.FLT_IN_STATUS_CAUSE (104 + p)) = true) ∧
    (Leads (.faultEvent (Fin.ofNat 448 (112 + p.val)) addr type m) s fun t => t.bit (Reg.DPO_LINK_STATUS_HPD p) = false ∧
      t.bit (Reg.FLT_IN_STATUS_CAUSE (112 + p)) = true) ∧
    (Leads (.faultEvent (Fin.ofNat 448 (176 + p.val)) addr type m) s fun t => t.bit (Reg.TOUCH_STATUS_NOISE p) = true ∧
      t.bit (Reg.FLT_IN_STATUS_CAUSE (176 + p)) = true)) ∧
  (cls ≤ 1 → s.bit Reg.FLT_SELFTEST_GO = false → s.SourceFree (128 + cls) → s.SourceFree 132 → s.LogRoom →
    (3 ≤ k.val → acts = false → (fltInput k).isSome = true →
      Does (.faultEvent k addr type m) s { s with log := { s.log with queue := s.log.queue ++ [entry] } } recorded) ∧
    (k.val ≤ 2 → s.bit Reg.FLT_FE_STATUS_VALID = true →
      Does (.faultEvent k addr type m) s { s with log := { s.log with queue := s.log.queue ++ [entry] } }
        ((Reg.FLT_FE_STATUS_MORE, s.more Reg.FLT_FE_STATUS_MORE) :: recorded)) ∧
    (k.val ≤ 2 → s.bit Reg.FLT_FE_STATUS_VALID = false →
      SetsAnd (.faultEvent k addr type m) s (captured ++ recorded) fun t =>
        t.log.queue.length = s.log.queue.length + 1 ∧ { t with regs := s.regs, log := s.log } = s)) ∧
  (s.Admits w 0x18 0 false →
    (s.bit Reg.FLT_CTRL_LOCK = false → s.get (Reg.FLT_IN_CFG_MIN k) ≤ s.get (Reg.FLT_IN_CFG_MAX k) →
      Does (.faultClassWrite k w v) s s [(Reg.FLT_IN_CFG_CLASS k,
        max (s.get (Reg.FLT_IN_CFG_MIN k)) (min (s.get (Reg.FLT_IN_CFG_MAX k)) (getBits v 16 2)))]) ∧
    (s.bit Reg.FLT_CTRL_LOCK = true → Does (.faultClassWrite k w v) s s []))

/-- R388, R391, R393, R394, R395, R399: reactions. A request of C3 whose input has that class takes the device to its safe state: C3 and
SAFE_N_LOW are set, haptic channels are in FAULT with HV_EN low, the toll stops and audio is silent. A request for screens raises
their inputs, in order, and one of class C2 contains its screen, whose backlight is released. A disagreement of the collector's
copies clears HEALTHY and stops the toll. The readings and choices of the model behind it: log entries 21, 97, 109. -/
def Obligations.FaultReactionsContainTheirScope : Prop := ∀ (s : State) (n : Fin 8) (w : World) (v : Word),
  (s.Admits w 0x18 0 false →
    (getBits v 0 8 = 0 → s.faultClass 12 = 3 →
      Leads (.requestC3 w v) s fun t => t.bit Reg.FLT_STATUS_C3 = true ∧ t.bit Reg.FLT_STATUS_SAFE_N_LOW = true ∧
        t.bit Reg.FLT_CTRL_SAFE_OK = false ∧ t.bit (Reg.FLT_IN_STATUS_CAUSE 12) = true ∧ t.bit Reg.HAP_STATUS_HV_LIVE = false ∧
        t.bit Reg.FLT_TOLL_STATUS_RUNNING = false ∧ t.audQuiet = true ∧ (∀ c < 16, t.hcState c = 4) ∧
        (∀ p < 8, t.get (Reg.DPO_PANEL_BL_EN_LIVE p) = 0) ∧ (∀ x < 8, s.running x = true → (t.scr x).c3.isSome = true) ∧
        (s.bit Reg.FLT_TOLL_STATUS_RUNNING = true → t.alive = .low) ∧
        (s.released = true → t.pinLevel .safeN = .low ∧ t.pinLevel .hvEn = .low ∧ (∀ p : Fin 8, t.pinLevel (.blEn p) = .low) ∧
          ∀ c : Fin 16, t.pinLevel (.hapPh c) = .low ∧ t.pinLevel (.hapPl c) = .low)) ∧
    (let named := (if bitOf v.toNat 31 then [12] else []) ++ ((List.range 8).filter fun k => k == n.val || bitOf v.toNat k).map (16 + ·)
      let t := s.each named fun k t => t.raiseFault k
      exec (.requestScreen n w v) s = .next (if named.length ≤ 1 then t else t.inOrder s)) ∧
    (getBits v 0 8 = 0 → bitOf v.toNat 31 = false → s.faultClass (16 + n) = 2 →
      Leads (.requestScreen n w v) s fun t => t.bit (Reg.FLT_IN_STATUS_CAUSE (16 + n)) = true ∧ (t.scr n).c2.isSome = true ∧
        t.get (Reg.DPO_PANEL_BL_EN_LIVE (s.portOf n)) = 0 ∧ s.SameBytes t ∧ ∀ k < 8, k ≠ n.val → (t.scr k).c2 = (s.scr k).c2)) ∧
  (s.bit Reg.FLT_TOLL_STATUS_RUNNING = false →
    DoesThen .fltSelfMismatch s s [(Reg.FLT_STATUS_HEALTHY, 0)] (·.raiseFault 11)) ∧
  (Leads .fltSelfMismatch s fun t => t.bit Reg.FLT_STATUS_HEALTHY = false ∧ t.bit Reg.FLT_TOLL_STATUS_RUNNING = false ∧
    t.bit (Reg.FLT_IN_STATUS_CAUSE 11) = true)

/-- R278, R394, R397, R398: a release of a scope that is in a C2 reaction ends it: a running screen shows its content from its next
latch, a stopped one holds no reaction any more; a haptic channel is IDLE, and its input's condition has fallen (R398); a touch
engine that is enabled enters RECOVERY, or LINKING where its link does not run (R278), and one that is not is IDLE; audio sounds
again. It is refused, and counted, where the scope it names is in none, where a C3 reaction holds, where its SCOPE code is reserved,
or where an event of the scope comes in the same clock, which an operand of the command says (log entry 12). -/
def Obligations.FaultReleaseEndsAReaction : Prop := ∀ (s : State) (w : World) (v : Word) (clash : Bool),
  let refused := [(Reg.FLT_STATUS_EVENTS, s.more Reg.FLT_STATUS_EVENTS), (Reg.FLT_STATUS_RELEASE_REFUSED, 1)]
  let i := getBits v 0 8
  s.Admits w 0x18 0 false →
  (s.bit Reg.FLT_STATUS_C3 = true ∨ clash = true ∨ 4 ≤ getBits v 8 3 → Does (.faultRelease w v clash) s s refused) ∧
  (s.bit Reg.FLT_STATUS_C3 = false → clash = false →
    (getBits v 8 3 = 0 → i < 8 → (s.scr i).c2.isSome = true → (s.scr i).c2Ends = false →
      (s.running i = true → Does (.faultRelease w v clash) s (s.setScr i { s.scr i with c2Ends := true }) []) ∧
      (s.running i = false → Does (.faultRelease w v clash) s (s.setScr i { s.scr i with c2 := none }) [])) ∧
    (getBits v 8 3 = 0 → 8 ≤ i ∨ (s.scr i).c2 = none → Does (.faultRelease w v clash) s s refused) ∧
    (getBits v 8 3 = 1 → i < 16 → s.hcState i = 4 →
      DoesThen (.faultRelease w v clash) s s [(Reg.HC_STATUS_STATE i, 0)] (·.liveFell (192 + i))) ∧
    (getBits v 8 3 = 1 → 16 ≤ i ∨ s.hcState i ≠ 4 → Does (.faultRelease w v clash) s s refused) ∧
    (getBits v 8 3 = 2 → i < 8 → (s.tch i).contained = true → s.bit (Reg.TOUCH_CTRL_EN i) = false →
      Does (.faultRelease w v clash) s (s.setTch i { s.tch i with contained := false }) [(Reg.TOUCH_STATUS_PHASE i, 0)]) ∧
    (getBits v 8 3 = 2 → i < 8 → (s.tch i).contained = true → s.bit (Reg.TOUCH_CTRL_EN i) = true →
      Leads (.faultRelease w v clash) s fun t => (t.tch i).contained = false ∧
        t.get (Reg.TOUCH_STATUS_PHASE i) = if s.get (Reg.TSL_STATUS_STATE i) = 3 then 5 else 1) ∧
    (getBits v 8 3 = 2 → 8 ≤ i ∨ (s.tch i).contained = false → Does (.faultRelease w v clash) s s refused) ∧
    (getBits v 8 3 = 3 → s.audQuiet = true → Does (.faultRelease w v clash) s { s with audQuiet := false } []) ∧
    (getBits v 8 3 = 3 → s.audQuiet = false → Does (.faultRelease w v clash) s s refused))

/-- R401, R402, R403, R404: the toll, SAFE_N and the self-test. The write that arms the toll starts it with ALIVE low, where the
collector is healthy and no C3 reaction holds; ALIVE toggles while it runs; a window without a kick stops it, with ALIVE low,
STOPPED set and a TOLL_STOP record; a kick starts it again only after such a stop and with RESUME_OK. SAFE_OK drives SAFE_N high but
in anchor mode and under C3. A self-test ends with PASS as its signature was. The readings and choices of the model behind it: log
entries 38, 72. -/
def Obligations.TollRunsStopsAndResumes : Prop := ∀ (s : State) (w : World) (v : Word) (ok : Bool),
  let may := s.bit Reg.FLT_STATUS_HEALTHY && !s.bit Reg.FLT_STATUS_C3
  let ctrl := [(Reg.FLT_TOLL_CTRL_RESUME_OK, getBits v 17 1), (Reg.FLT_TOLL_CTRL_ARM, 1), (Reg.FLT_TOLL_CTRL_WINDOW, getBits v 0 16)]
  let barred := s.bit Reg.BOOT_STATUS_ANCHOR || s.bit Reg.FLT_STATUS_C3
  (s.Admits w 0x18 0 false →
    (s.bit Reg.FLT_CTRL_LOCK = false →
      (s.bit Reg.FLT_TOLL_CTRL_ARM = false →
        Does (.tollArm w v) s { s with alive := .low } ((Reg.FLT_TOLL_STATUS_RUNNING, b2n may) :: ctrl)) ∧
      (s.bit Reg.FLT_TOLL_CTRL_ARM = true → Does (.tollArm w v) s s ctrl)) ∧
    (s.bit Reg.FLT_CTRL_LOCK = true → s.bit Reg.FLT_TOLL_CTRL_ARM = true → Does (.tollArm w v) s s []) ∧
    (s.bit Reg.FLT_TOLL_CTRL_ARM = true → s.bit Reg.FLT_TOLL_STATUS_RUNNING = false → s.get Reg.FLT_TOLL_STATUS_STOP_CAUSE = 2 →
      s.bit Reg.FLT_TOLL_CTRL_RESUME_OK = true → may = true →
      Does (.tollKick w) s { s with alive := .low } [(Reg.FLT_TOLL_STATUS_RUNNING, 1)]) ∧
    (s.bit Reg.FLT_TOLL_CTRL_ARM = false ∨ s.bit Reg.FLT_TOLL_STATUS_RUNNING = true ∨ s.get Reg.FLT_TOLL_STATUS_STOP_CAUSE ≠ 2 ∨
      s.bit Reg.FLT_TOLL_CTRL_RESUME_OK = false ∨ may = false → Does (.tollKick w) s s []) ∧
    (barred = false → Does (.safeOk w v) s s [(Reg.FLT_STATUS_SAFE_N_LOW, 0), (Reg.FLT_CTRL_SAFE_OK, 1),
      (Reg.FLT_CTRL_LOCK, s.get Reg.FLT_CTRL_LOCK ||| getBits v 31 1)]) ∧
    (barred = true → Does (.safeOk w v) s s [(Reg.FLT_STATUS_SAFE_N_LOW, 1 - s.get Reg.FLT_CTRL_SAFE_OK),
      (Reg.FLT_CTRL_LOCK, s.get Reg.FLT_CTRL_LOCK ||| getBits v 31 1)]) ∧
    Does (.fltSelftest w v) s s [(Reg.FLT_SELFTEST_GO, 1), (Reg.FLT_SELFTEST_DONE, if getBits v 1 1 = 1 then 0 else s.get Reg.FLT_SELFTEST_DONE)]) ∧
  (s.bit Reg.FLT_SELFTEST_GO = true → Does (.fltSelftestDone ok) s s
    [(Reg.FLT_SELFTEST_ABANDONED, 0), (Reg.FLT_SELFTEST_PASS, b2n ok), (Reg.FLT_SELFTEST_DONE, 1), (Reg.FLT_SELFTEST_GO, 0)]) ∧
  (s.bit Reg.FLT_SELFTEST_GO = false → Does (.fltSelftestDone ok) s s []) ∧
  (s.bit Reg.FLT_TOLL_STATUS_RUNNING = true →
    Does .tollToggle s { s with alive := if s.alive = .high then .low else .high } [] ∧
    (s.SourceFree 133 → s.LogRoom →
      SetsAnd .tollWindowExpire s
        [(Reg.IC_SRC_PENDING 133, 1), (Reg.FLT_TOLL_STATUS_EVENTS, s.more Reg.FLT_TOLL_STATUS_EVENTS), (Reg.FLT_TOLL_STATUS_STOPPED, 1),
         (Reg.FLT_TOLL_STATUS_STOP_CAUSE, 2), (Reg.FLT_TOLL_STATUS_RUNNING, 0)]
        fun t => t.alive = .low ∧ t.log.queue.length = s.log.queue.length + 1 ∧
          (t.log.queue.drop s.log.queue.length).all (fun e => e.code == 0x0004 && e.p0 == 2) = true)) ∧
  (s.bit Reg.FLT_TOLL_STATUS_RUNNING = false → Does .tollToggle s s [] ∧ Does .tollWindowExpire s s [])

/-- R378, R405, R406, R407: supply ride-through. A warning from a source that is enabled sets its flag; the first of them begins a
brownout, with WARNED, fault input 4 and every screen's lower forced, and before underway notes WARNED in the always-on domain. A
brownout that still holds at 50 ms raises fault input 5. When it ends, the flags clear and the lowers are free. The readings and
choices of the model behind it: log entries 12, 25. -/
def Obligations.SupplyWarningBeginsABrownout : Prop := ∀ (s : State) (pf : Bool) (us : Nat) (holds : List Nat),
  let flag := if pf then Reg.PWR_WARN_STATUS_PF_LOW else Reg.PWR_WARN_STATUS_VIN_LOW
  let enabled := s.bit (if pf then Reg.PWR_WARN_CFG_PF_EN else Reg.PWR_WARN_CFG_VIN_EN)
  let low := s.bit Reg.PWR_WARN_STATUS_PF_LOW || s.bit Reg.PWR_WARN_STATUS_VIN_LOW
  (enabled = false → Does (.supplyWarning pf) s s []) ∧
  (enabled = true → low = true → Does (.supplyWarning pf) s s [(flag, 1)]) ∧
  (enabled = true → low = false → s.brownout = false →
    Leads (.supplyWarning pf) s fun t => t.bit flag = true ∧ t.bit Reg.PWR_WARN_STATUS_BROWNOUT = true ∧ t.brownout = true ∧
      t.bit Reg.PWR_WARN_STATUS_WARNED = true ∧ t.get Reg.PWR_WARN_STATUS_EVENTS = s.more Reg.PWR_WARN_STATUS_EVENTS ∧
      t.bit (Reg.FLT_IN_STATUS_CAUSE 4) = true ∧ (∀ n < 8, t.get (Reg.SCREEN_LOWER_FORCED n) = 1) ∧
      (s.bit Reg.BOOT_STATUS_UNDERWAY = false → t.get Reg.BOOT_AON_WARNED = 1) ∧
      (s.bit Reg.BBOX_STATUS_ERASING = true → s.bit Reg.BBOX_STATUS_SUSPENDED = false → s.get Reg.BBOX_CFG_SUSPEND_CMD ≠ 0 →
        (s.boot.flashBus ++ [FlashOp.service (s.get Reg.BBOX_CFG_SUSPEND_CMD)]).isPrefixOf t.boot.flashBus = true) ∧
      (s.bit Reg.BBOX_STATUS_ERASING = true → s.bit Reg.BBOX_STATUS_SUSPENDED = false → s.get Reg.BBOX_CFG_SUSPEND_CMD = 0 →
        t.bit Reg.BBOX_STATUS_SUSPENDED = false)) ∧
  Does .supplyWarningEnd s s [(Reg.PWR_WARN_STATUS_PF_LOW, 0), (Reg.PWR_WARN_STATUS_VIN_LOW, 0)] ∧
  (s.brownout = false → Does .supplyFail s s [] ∧ Does (.brownoutEnd us holds) s s []) ∧
  (s.brownout = true → s.SourceFree 123 → DoesThen .supplyFail s s
    [(Reg.IC_SRC_PENDING 123, 1), (Reg.PWR_WARN_STATUS_EVENTS, s.more Reg.PWR_WARN_STATUS_EVENTS), (Reg.PWR_WARN_STATUS_ESCALATED, 1)]
    (·.raiseFault 5)) ∧
  (s.brownout = true → low = true → Does (.brownoutEnd us holds) s s []) ∧
  (s.brownout = true → low = false → Leads (.brownoutEnd us holds) s fun t => t.brownout = false ∧
    t.bit Reg.PWR_WARN_STATUS_BROWNOUT = false ∧ t.get Reg.PWR_WARN_LAST_US = min us 0xFFFFFFFF ∧
    t.bit Reg.BBOX_STATUS_SUSPENDED = false ∧ (∀ n < 8, t.get (Reg.SCREEN_LOWER_FORCED n) = 0) ∧
    (s.bit Reg.BBOX_STATUS_SUSPENDED = true →
      (s.boot.flashBus ++ [FlashOp.service (s.get Reg.BBOX_CFG_RESUME_CMD)]).isPrefixOf t.boot.flashBus = true))

/-- R414, R415, R417, R419: the control of a check-value unit. GO with good parameters starts its chain at DESC with its counts cleared;
with a bad parameter it is refused with ERR_CODE 1; GO or SELFTEST while a chain runs sets WRITE_WHILE_ACTIVE and does nothing else.
ABORT ends the chain with ERR_CODE 5. A descriptor that is done raises DESC_IRQ where it asks for it, unless a HALT cut it short;
then the next is fetched, or the chain ends with DONE. A self-test ends with ST_PASS as its values were. The readings and choices of
the model behind it: log entry 39. -/
def Obligations.CheckValueChainIsControlled : Prop := ∀ (s : State) (n : Fin 18) (w : World) (v : Word) (ok : Bool),
  let r := s.crcU n
  let irq := if s.bit (Reg.CRC_STATUS_ERR n) then [] else [(Reg.IC_SRC_PENDING (100 + n), 1)]
  let stopped := fun (code : Nat) => irq ++ [(Reg.CRC_STATUS_EVENTS n, s.more (Reg.CRC_STATUS_EVENTS n)), (Reg.CRC_STATUS_ERR n, 1),
    (Reg.CRC_STATUS_ERR_CODE n, code)]
  let active := [(Reg.CRC_STATUS_EVENTS n, s.more (Reg.CRC_STATUS_EVENTS n)), (Reg.CRC_STATUS_WRITE_WHILE_ACTIVE n, 1)]
  let idle := [(Reg.CRC_CTRL_GO n, 0), (Reg.CRC_STATUS_BUSY n, 0)]
  s.SourceFree (100 + n) →
  (s.Admits w 0x19 n false →
    (s.crcBusy n = false →
      (getBits v 1 2 = 0 → (s.crcParams n).good = true →
        Does (.crcGo n w v) s
          (s.setCrcU n { desc := s.get (Reg.CRC_DESC_LO_ADDR n) * 64 + 2 ^ 32 * s.get (Reg.CRC_DESC_HI_ADDR n) })
          [(Reg.CRC_MISMATCHES_COUNT n, 0), (Reg.CRC_CHUNKS_COUNT n, 0), (Reg.CRC_CTRL_GO n, 1), (Reg.CRC_STATUS_BUSY n, 1)]) ∧
      (getBits v 1 2 = 0 → (s.crcParams n).good = false → Does (.crcGo n w v) s s (stopped 1)) ∧
      (getBits v 2 1 = 0 → Does (.crcAbort n w v) s s []) ∧
      (getBits v 0 1 = 0 → Does (.crcSelftest n w v) s s [(Reg.CRC_CTRL_SELFTEST n, 1)])) ∧
    (s.crcBusy n = true →
      (getBits v 1 1 = 0 → Does (.crcGo n w v) s s active ∧ Does (.crcSelftest n w v) s s active) ∧
      (getBits v 2 1 = 0 → Does (.crcAbort n w v) s s (stopped 5 ++ idle)))) ∧
  (s.crcBusy n = false ∨ r.done = false → Does (.crcDescriptorDone n) s s []) ∧
  (s.crcBusy n = true → r.done = true → r.irq = false ∨ r.cut = true →
    (r.halted = false → r.last = false → Does (.crcDescriptorDone n) s (s.setCrcU n { desc := r.next, index := r.index + 1 }) []) ∧
    (r.halted = true ∨ r.last = true → s.bit (Reg.CRC_STATUS_DONE n) = false →
      Does (.crcDescriptorDone n) s s
        ([(Reg.IC_SRC_PENDING (100 + n), 1), (Reg.CRC_STATUS_EVENTS n, s.more (Reg.CRC_STATUS_EVENTS n)), (Reg.CRC_STATUS_DONE n, 1)] ++ idle))) ∧
  (s.crcBusy n = true → r.done = true → r.irq = true → r.cut = false → r.halted = false → r.last = false → s.bit (Reg.CRC_STATUS_DESC_IRQ n) = false →
    Does (.crcDescriptorDone n) s (s.setCrcU n { desc := r.next, index := r.index + 1 })
      [(Reg.IC_SRC_PENDING (100 + n), 1), (Reg.CRC_STATUS_EVENTS n, s.more (Reg.CRC_STATUS_EVENTS n)), (Reg.CRC_STATUS_DESC_IRQ n, 1)]) ∧
  (s.crcBusy n = true → r.done = true → r.irq = true → r.cut = false → r.halted = true ∨ r.last = true →
    s.bit (Reg.CRC_STATUS_DESC_IRQ n) = false → s.bit (Reg.CRC_STATUS_DONE n) = false →
    Does (.crcDescriptorDone n) s s
      ([(Reg.IC_SRC_PENDING (100 + n), 1), (Reg.CRC_STATUS_EVENTS n, satAdd 8 (s.get (Reg.CRC_STATUS_EVENTS n)) 2),
        (Reg.CRC_STATUS_DESC_IRQ n, 1), (Reg.CRC_STATUS_DONE n, 1)] ++ idle)) ∧
  (s.bit (Reg.CRC_CTRL_SELFTEST n) = true → s.bit (Reg.CRC_STATUS_ST_DONE n) = true →
    Does (.crcSelftestDone n ok) s s [(Reg.CRC_STATUS_EVENTS n, s.more (Reg.CRC_STATUS_EVENTS n)), (Reg.CRC_STATUS_ST_DONE n, 1),
      (Reg.CRC_STATUS_ST_PASS n, b2n ok), (Reg.CRC_CTRL_SELFTEST n, 0)]) ∧
  (s.bit (Reg.CRC_CTRL_SELFTEST n) = true → s.bit (Reg.CRC_STATUS_ST_DONE n) = false →
    Does (.crcSelftestDone n ok) s s [(Reg.IC_SRC_PENDING (100 + n), 1), (Reg.CRC_STATUS_EVENTS n, s.more (Reg.CRC_STATUS_EVENTS n)),
      (Reg.CRC_STATUS_ST_DONE n, 1), (Reg.CRC_STATUS_ST_PASS n, b2n ok), (Reg.CRC_CTRL_SELFTEST n, 0)]) ∧
  (s.bit (Reg.CRC_CTRL_SELFTEST n) = false → Does (.crcSelftestDone n ok) s s [])

/-- R409, R410, R411, R412, R413: a descriptor of a chain that runs. One that breaks R413 ends the chain with ERR_CODE 2 or 3, and one
that reads poison with 4. A COMPUTE of one chunk writes the check value of its prefix and its bytes to RES, in the entry's width,
and shows it; a CHECK compares it with what stands there, and a difference counts in MISMATCHES with the first one's place, and
halts the chain where HALT asks for it. A walk of several chunks or rows does so chunk by chunk, each behind its own prefix, with an
entry for each; it is said here where the source and the results lie in different memories. A descriptor of the other OP is left for
its own command, and a walk whose reads wait for the start of a memory side goes on after it (R213). The readings and choices of the
model behind it: log entry 39. -/
def Obligations.CheckValueWalkCoversItsBytes : Prop := ∀ (s : State) (n : Fin 18),
  let r := s.crcU n
  let w := s.ownerWorld 0x19 n
  let p := s.crcParams n
  let e := if p.width ≤ 32 then 4 else 8
  let failed := fun (code : Nat) =>
    [(Reg.IC_SRC_PENDING (100 + n), 1), (Reg.CRC_STATUS_EVENTS n, s.more (Reg.CRC_STATUS_EVENTS n)), (Reg.CRC_STATUS_ERR n, 1),
     (Reg.CRC_STATUS_ERR_CODE n, code), (Reg.CRC_CTRL_GO n, 0), (Reg.CRC_STATUS_BUSY n, 0)]
  (s.crcBusy n = false ∨ r.done = true ∨ s.startWaits r.desc 64 = true → Does (.crcCompute n) s s [] ∧ Does (.crcCheck n) s s []) ∧
  (s.crcBusy n = true → r.done = false → s.startWaits r.desc 64 = false → r.halted = false → s.bit (Reg.CRC_STATUS_ERR n) = false → s.SourceFree (100 + n) →
    match s.readMem w r.desc 64 with
    | .poison => Does (.crcCompute n) s s (failed 4) ∧ Does (.crcCheck n) s s (failed 4)
    | .data bs =>
      let d : CrcDesc := { words := (List.range 16).map fun i => leAt bs (4 * i) 4 }
      (d.bad e = true → Does (.crcCompute n) s s (failed 2) ∧ Does (.crcCheck n) s s (failed 2)) ∧
      (d.bad e = false → s.crcRange d e = true → Does (.crcCompute n) s s (failed 3) ∧ Does (.crcCheck n) s s (failed 3)) ∧
      (d.bad e = false → s.crcRange d e = false →
        (d.op = 1 → Does (.crcCheck n) s s []) ∧ (d.op = 2 → Does (.crcCompute n) s s []) ∧
        (s.crcWaits d e = true → Does (.crcCheck n) s s [] ∧ Does (.crcCompute n) s s []) ∧
        (s.crcWaits d e = false → d.chunkLog = 0 → d.rows = 1 →
          match s.readMem w d.src d.rowBytes with
          | .data src =>
            let v := crc p (d.prefixOf d.src 0 ++ src)
            let shown := [(Reg.CRC_CHUNKS_COUNT n, s.more (Reg.CRC_CHUNKS_COUNT n)), (whole (Reg.CRC_VALUE_HI n), v / 2 ^ 32),
              (whole (Reg.CRC_VALUE_LO n), v % 2 ^ 32)]
            let ended : CrcState := { r with done := true, irq := d.irq, last := d.last, next := d.next }
            (d.op = 1 → Does (.crcCompute n) s ((s.dmaWrite w (crcPort n) d.res (leBytes e v)).setCrcU n ended) shown) ∧
            (d.op = 2 → match s.readMem w d.res e with
              | .data stored =>
                (leNat stored = v → Does (.crcCheck n) s (s.setCrcU n ended) shown) ∧
                (leNat stored ≠ v → s.get (Reg.CRC_MISMATCHES_COUNT n) = 0 →
                  Does (.crcCheck n) s (s.setCrcU n { ended with halted := d.halt, cut := if d.halt then false else r.cut })
                    ([(Reg.CRC_STATUS_EVENTS n, s.more (Reg.CRC_STATUS_EVENTS n)), (Reg.CRC_STATUS_MISMATCH n, 1),
                      (Reg.CRC_MISMATCHES_COUNT n, 1), (Reg.CRC_FIRST_INDEX_INDEX n, 0), (Reg.CRC_FIRST_DESC_INDEX n, r.index)] ++ shown))
              | _ => True)
          | .poison => d.op = 1 → Does (.crcCompute n) s (s.setCrcU n { r with done := true, irq := d.irq, last := d.last, next := d.next })
              (failed 4)
          | _ => True) ∧
        (s.crcWaits d e = false → ((List.range d.chunks).all fun i => (d.chunkAt i).1.all fun x => (s.readMem w x.1 x.2).isData) = true →
          let value := fun (i : Nat) => crc p (d.prefixOf (d.chunkAt i).2.1 (d.chunkAt i).2.2 ++ (d.chunkAt i).1.flatMap fun x => (s.readMem w x.1 x.2).bytes)
          let shown := fun (k : Nat) => [(Reg.CRC_CHUNKS_COUNT n, satAdd 32 (s.get (Reg.CRC_CHUNKS_COUNT n)) k),
            (whole (Reg.CRC_VALUE_HI n), value (k - 1) / 2 ^ 32), (whole (Reg.CRC_VALUE_LO n), value (k - 1) % 2 ^ 32)]
          let ended : CrcState := { r with done := true, irq := d.irq, last := d.last, next := d.next }
          let stored := fun (i : Nat) => leNat (s.readMem w (d.res + e * i) e).bytes
          let differs := (List.range d.chunks).filter fun i => stored i ≠ value i
          let told := fun (k : Nat) => [(Reg.CRC_STATUS_EVENTS n, satAdd 8 (s.get (Reg.CRC_STATUS_EVENTS n)) k), (Reg.CRC_STATUS_MISMATCH n, 1),
            (Reg.CRC_MISMATCHES_COUNT n, k), (Reg.CRC_FIRST_INDEX_INDEX n, differs.headD 0), (Reg.CRC_FIRST_DESC_INDEX n, r.index)]
          (d.op = 1 → (region d.src).isSram ≠ (region d.res).isSram → Does (.crcCompute n) s
            (((List.range d.chunks).foldl (fun u i => u.dmaWrite w (crcPort n) (d.res + e * i) (leBytes e (value i))) s).setCrcU n ended)
            (shown d.chunks)) ∧
          (d.op = 2 → (∀ i < d.chunks, (s.readMem w (d.res + e * i) e).isData = true) →
            s.get (Reg.CRC_MISMATCHES_COUNT n) = 0 →
            (differs = [] → Does (.crcCheck n) s (s.setCrcU n ended) (shown d.chunks)) ∧
            (differs ≠ [] → d.halt = false → Does (.crcCheck n) s (s.setCrcU n ended) (told differs.length ++ shown d.chunks)) ∧
            (differs ≠ [] → d.halt = true → Does (.crcCheck n) s
              (s.setCrcU n { ended with halted := true, cut := decide (differs.headD 0 + 1 < d.chunks) })
              (told 1 ++ shown (differs.headD 0 + 1))))))
    | _ => True)

/-- R420, R421, R422, R423, R424: the real-time clock. A crystal cycle adds two to the fraction, unless TRIM still omits it; a load that
waits takes the place of the cycle's count, with VALID set and an RTC_SET record. TRIM advances are added, or so many cycles are
omitted. A stop of the oscillator raises OSC_STOP and clears VALID. SNAP copies the time, and SET asks for a load. The readings and
choices of the model behind it: log entry 71. -/
def Obligations.RealTimeClockCountsAndLoads : Prop := ∀ (s : State) (w : World) (v : Word),
  let later := fun (k : Nat) => { s.rtc with sec := (65536 * s.rtc.sec + s.rtc.frac + k) / 65536 % 2 ^ 40,
                                             frac := (65536 * s.rtc.sec + s.rtc.frac + k) % 65536 }
  let trim := sext 8 (s.get Reg.RTC_TRIM_TRIM)
  (s.rtc.setTo = none →
    (s.rtc.skips = 0 → Does .rtcTick s { s with rtc := later 2 } []) ∧
    (0 < s.rtc.skips → Does .rtcTick s { s with rtc := { s.rtc with skips := s.rtc.skips - 1 } } [])) ∧
  (match s.rtc.setTo with
    | none => True
    | some (sec, frac) => s.LogRoom →
      SetsAnd .rtcTick s [(Reg.RTC_STATUS_VALID, 1), (Reg.RTC_SET_SET, 0), (Reg.RTC_STATUS_SET_PENDING, 0)] fun t =>
        t.rtc = { s.rtc with sec := sec, frac := frac, setTo := none } ∧ t.log.queue.length = s.log.queue.length + 1 ∧
        (t.log.queue.drop s.log.queue.length).all (fun e => e.code == 0x0009 && e.sec == sec && e.p0 == BitVec.ofNat 32 s.rtc.sec) = true) ∧
  (0 ≤ trim → Does .rtcTrim s { s with rtc := later (2 * trim.toNat) } []) ∧
  (trim < 0 → Does .rtcTrim s { s with rtc := { s.rtc with skips := s.rtc.skips + trim.natAbs } } []) ∧
  (s.SourceFree 120 → Does .rtcOscStop s s
    [(Reg.RTC_STATUS_VALID, 0), (Reg.IC_SRC_PENDING 120, 1), (Reg.RTC_STATUS_EVENTS, s.more Reg.RTC_STATUS_EVENTS), (Reg.RTC_STATUS_OSC_STOP, 1)]) ∧
  (s.Admits w 0x1C 0 false →
    Does (.rtcSet w v) s { s with rtc := { s.rtc with
        setTo := some (s.get Reg.RTC_SET_HI_SEC_HI * 2 ^ 32 + s.get Reg.RTC_SET_SEC_LO_SEC, s.get Reg.RTC_SET_HI_FRAC) } }
      [(Reg.RTC_STATUS_SET_PENDING, 1), (Reg.RTC_SET_SET, 1)] ∧
    Does (.rtcSnap w v) s s [(Reg.RTC_SNAP_HI_FRAC, s.rtc.frac), (Reg.RTC_SNAP_HI_SEC_HI, s.rtc.sec / 2 ^ 32), (Reg.RTC_SNAP_SEC_LO_SEC, s.rtc.sec)])

/-- R425, R426, R427, R429, R430: the logbook's writer takes the entry at the head of its queue. One written with FOLD that is like the
newest record counts up that record's REPEAT instead. Where the bucket of any other has a token, or the entry is LOG_CLEARED, it
becomes the record of the next sequence number, in that number's slot, and every other slot keeps its words; where the bucket is
empty it is counted as suppressed. A refill gives a bucket a token, up to BURST. The readings and choices of the model behind it:
log entry 71. -/
def Obligations.LogbookWriterAdmitsAndWrites : Prop := ∀ (s : State) (code : BitVec 16) (j : Fin 4096),
  let seq := (s.get Reg.LOG_HEAD_SEQ + 1) % 2 ^ 32
  let burst := max 1 (s.get Reg.LOG_RATE_BURST)
  let tokens := fun (t : State) (b : Nat) => sget (fun _ => t.log.full) t.log.tokens b
  let head := s.get Reg.LOG_HEAD_SEQ
  let suppressed := fun (t : State) (b : Nat) => sget (fun _ => 0) t.log.suppressed b
  (match s.log.queue with
    | [] => Does .logWriterTake s s []
    | e :: rest =>
      let b := logBucket e.code
      (∀ x : Fin 2, e.fold = true → s.folds e = true → e.origin = x.val + 1 →
        SetsAnd .logWriterTake s
          [(Reg.LOG_WR_STATUS_EVENTS x, s.more (Reg.LOG_WR_STATUS_EVENTS x)), (Reg.LOG_WR_STATUS_FOLDED x, 1)] fun t =>
          t.log.queue = rest ∧ t.log.tokens = s.log.tokens ∧
          getBits (t.logWord head 7) 16 12 = min 4095 (getBits (s.logWord head 7) 16 12 + 1) ∧
          getBits (t.logWord head 7) 28 4 = getBits (s.logWord head 7) 28 4 ∧ ∀ i < 7, t.logWord head i = s.logWord head i) ∧
      (e.fold = false ∨ s.folds e = false → e.code = 0x0008 ∨ 0 < tokens s b →
        SetsAnd .logWriterTake s [(Reg.LOG_HEAD_SEQ, seq)] fun t => t.log.queue = rest ∧ suppressed t b = 0 ∧
          tokens t b = (if e.code = 0x0008 then tokens s b else tokens s b - 1) ∧
          t.logWord seq 0 = BitVec.ofNat 32 (e.code * 2 ^ 16 + e.unit * 2 ^ 8 + e.inst) ∧
          t.logWord seq 1 = BitVec.ofNat 32 e.sec ∧
          t.logWord seq 2 = BitVec.ofNat 32 (e.sec / 2 ^ 32 % 256 * 2 ^ 24 + e.frac * 2 ^ 8 + min (suppressed s b) 255) ∧
          t.logWord seq 3 = e.p0 ∧ t.logWord seq 4 = e.p1 ∧ t.logWord seq 5 = e.p2 ∧ t.logWord seq 6 = e.p3 ∧
          t.logWord seq 7 = BitVec.ofNat 32 (2 ^ 31 + e.origin * 2 ^ 29 + b2n e.timeValid * 2 ^ 28 + seq % 2 ^ 16) ∧
          (j.val ≠ seq % 4096 → ∀ i < 8, t.logWord j i = s.logWord j i)) ∧
      (e.fold = false ∨ s.folds e = false → e.code ≠ 0x0008 → tokens s b = 0 →
        SetsAnd .logWriterTake s [(Reg.LOG_COUNTS_SUPPRESSED, s.more Reg.LOG_COUNTS_SUPPRESSED)] fun t =>
          t.log.queue = rest ∧ suppressed t b = suppressed s b + 1 ∧ t.log.ring = s.log.ring ∧ t.log.tokens = s.log.tokens)) ∧
  SetsAnd (.logTokenRefill code) s [] fun t => { t with log := s.log } = s ∧ t.log.queue = s.log.queue ∧ t.log.ring = s.log.ring ∧
    tokens t (logBucket code.toNat) = min burst (tokens s (logBucket code.toNat) + 1)

/-- R427, R428, R431: firmware records and clears. A record of a firmware code joins the queue; one of a hardware code is refused; a
full queue discards it, counts it and raises source 118; FOLD goes with it to the writer. A clear sets BASE past HEAD, with a
LOG_CLEARED record that says who cleared how many; a session without log access clears nothing. The readings and choices of the
model behind it: log entries 71, 109. -/
def Obligations.LogbookTakesFirmwareRecords : Prop := ∀ (s : State) (x : Fin 2) (n : Fin 256) (w : World) (v : Word),
  let e := s.stagedEntry x
  let head := s.get Reg.LOG_HEAD_SEQ
  let refused := [(Reg.LOG_WR_STATUS_EVENTS x, s.more (Reg.LOG_WR_STATUS_EVENTS x)), (Reg.LOG_WR_STATUS_REFUSED x, 1)]
  let queued := fun (fold : Bool) => { s with log := { s.log with queue := s.log.queue ++ [{ e with fold := fold }] } }
  (s.Admits w 0x1A 0 (x.val == 0) →
    (e.code < 0x1000 → Does (.logWrite x w v) s s refused ∧ Does (.logWriteFold x w v) s s refused) ∧
    (0x1000 ≤ e.code →
      (s.LogRoom → Does (.logWrite x w v) s (queued false) [] ∧ Does (.logWriteFold x w v) s (queued true) []) ∧
      (64 ≤ s.log.queue.length → s.SourceFree 118 →
        let dropped := [(Reg.IC_SRC_PENDING 118, 1), (Reg.LOG_COUNTS_QUEUE_DROPS, s.more Reg.LOG_COUNTS_QUEUE_DROPS)]
        Does (.logWrite x w v) s s dropped ∧ Does (.logWriteFold x w v) s s dropped))) ∧
  (s.LogRoom →
    (SetsAnd (.logClear (.world w)) s [(Reg.LOG_BASE_SEQ, (head + 1) % 2 ^ 32)] fun t =>
      (t.log.queue.drop s.log.queue.length).map (fun e => (e.code, e.p0, e.p1)) =
        [(0x0008, if w = .secure then 1 else 2, BitVec.ofNat 32 s.logValid)] ∧ t.log.ring = s.log.ring) ∧
    (s.bit (Reg.SESS_CTRL_LOG_ACCESS n) = true →
      SetsAnd (.logClear (.session n)) s [(Reg.LOG_BASE_SEQ, (head + 1) % 2 ^ 32)] fun t =>
        (t.log.queue.drop s.log.queue.length).map (fun e => (e.code, e.p0)) = [(0x0008, BitVec.ofNat 32 (n.val * 2 ^ 8 + 3))])) ∧
  (s.bit (Reg.SESS_CTRL_LOG_ACCESS n) = false → Does (.logClear (.session n)) s s [])

/-- R384, R437, R438, R440, R442, R443, R444: the black box. An append of a KIND that may be appended joins the queue, and the fourth
pending record starts a commit; a wrong KIND or a full queue is refused with its flag. A flush commits what is pending. A program
that completes writes its records into their slots and no other byte; one that opens a page writes the page's header. A 4 KB erase
that completes leaves its sector at 0xFF and no other byte changed. Each program and erase is driven on the flash bus with the
commands of the chart header, a write enable before it and a status read at its end; a suspended erase goes on with RESUME_CMD. A
warning commit of more than 3 ms sets LATE with its record. The readings and choices of the model behind it: log entry 94. -/
def Obligations.BlackBoxAppendsAndCommits : Prop := ∀ (s : State) (w : World) (v : Word) (us : Nat),
  let kind := s.get Reg.BBOX_APPEND_KIND_KIND
  let bad := !kindAllowed kind s.appendOrigin
  let rec_ := s.bboxStamp kind s.appendOrigin ((List.range 8).flatMap fun d => leBytes 4 (s.reg (Reg.BBOX_APPEND_D d)).toNat)
  let page := s.get Reg.BBOX_HEAD_PAGE
  let slot := s.get Reg.BBOX_HEAD_SLOT
  let seq := s.get Reg.BBOX_PAGE_SEQ_SEQ
  let next := (page + 1) % 128
  (s.Admits w 0x1B 0 false →
    (getBits v 1 1 = 0 →
      (s.appendFull = false → bad = false → s.bbox.queue.length < 3 →
        Does (.bboxAppend w v) s { s with bbox := { s.bbox with queue := s.bbox.queue ++ [rec_] } }
          ((if kind = 0x20 then [(Reg.BBOX_STATUS_LEDGER_DUE, 0)] else []) ++ [(Reg.BBOX_STATUS_PENDING, s.bbox.queue.length + 1)])) ∧
      (s.appendFull = false → bad = false → s.bbox.queue.length = 3 →
        DoesThen (.bboxAppend w v) s { s with bbox := { s.bbox with queue := s.bbox.queue ++ [rec_], commitWanted := true } }
          ((if kind = 0x20 then [(Reg.BBOX_STATUS_LEDGER_DUE, 0)] else []) ++ [(Reg.BBOX_STATUS_PENDING, 4)]) (·.bboxAdvance)) ∧
      (s.appendFull = false → bad = true →
        Does (.bboxAppend w v) s s [(Reg.BBOX_STATUS_EVENTS, s.more Reg.BBOX_STATUS_EVENTS), (Reg.BBOX_STATUS_BAD_KIND, 1)]) ∧
      (s.appendFull = true → bad = false → s.bit Reg.BBOX_STATUS_FULL = false → s.SourceFree 119 →
        Does (.bboxAppend w v) s s
          [(Reg.IC_SRC_PENDING 119, 1), (Reg.BBOX_STATUS_EVENTS, s.more Reg.BBOX_STATUS_EVENTS), (Reg.BBOX_STATUS_FULL, 1)])) ∧
    (getBits v 0 1 = 0 → s.bbox.queue = [] → Does (.bboxFlushNow w v) s s []) ∧
    (getBits v 0 1 = 0 → s.bbox.queue ≠ [] →
      DoesThen (.bboxFlushNow w v) s { s with bbox := { s.bbox with commitWanted := true } } [] (·.bboxAdvance))) ∧
  (s.bit Reg.BBOX_STATUS_READY = true → s.bboxActive = false → s.boot.running = false → s.bbox.queue ≠ [] →
    s.bit Reg.BOOT_FLASH_STATUS_BUSY = false →
    let run := min s.bbox.queue.length (4 - slot % 4)
    let data := (s.bbox.queue.take run).zipIdx.flatMap fun p => bboxRecord (s.bboxSlotAt page (slot + p.2)) seq (slot + p.2) p.1
    let drives := fun (ops : List FlashOp) (b : BboxState) => { s with boot := { s.boot with flashBus := s.boot.flashBus ++ ops }, bbox := b }
    let enable := FlashOp.service (s.hdr 14 1)
    (s.bbox.full = false → Does .bboxFlushTimer s
      (drives [enable, .serviceWrite (s.hdr 10 1) (s.bboxSlotAt page slot) data] { s.bbox with commitWanted := true, inProgram := run })
      [(Reg.BBOX_STATUS_COMMITTING, 1)]) ∧
    (s.bbox.full = true → 16 ≤ s.bbox.erased → Does .bboxFlushTimer s
      (drives [enable, .serviceWrite (s.hdr 10 1) (s.bboxSlotAt next 0) (bboxHeader (s.bboxSlotAt next 0) ((seq + 1) % 2 ^ 32))]
        { s.bbox with commitWanted := true, opening := true }) [(Reg.BBOX_STATUS_COMMITTING, 1)]) ∧
    (s.bbox.full = true → s.bbox.erased < 16 → s.bit Reg.BBOX_STATUS_ERASING = false → Does .bboxFlushTimer s
      (drives [enable, .serviceWrite (s.hdr 11 1) (s.bboxSlotAt next 0 + 4096 * s.bbox.erased) []] { s.bbox with commitWanted := true })
      [(Reg.BBOX_STATUS_ERASING, 1)]) ∧
    (s.bbox.full = true → s.bbox.erased < 16 → s.bit Reg.BBOX_STATUS_ERASING = true → Does .bboxFlushTimer s
      (drives [.service (s.get Reg.BBOX_CFG_RESUME_CMD)] { s.bbox with commitWanted := true }) [(Reg.BBOX_STATUS_SUSPENDED, 0)])) ∧
  (s.bit Reg.BBOX_STATUS_COMMITTING = true → Leads .bboxProgramDone s fun t =>
    (s.boot.flashBus ++ [FlashOp.service (s.hdr 13 1)]).isPrefixOf t.boot.flashBus = true) ∧
  (s.bbox.queue = [] → Does .bboxFlushTimer s s []) ∧
  (s.bbox.queue ≠ [] → DoesThen .bboxFlushTimer s { s with bbox := { s.bbox with commitWanted := true } } [] (·.bboxAdvance)) ∧
  (s.bit Reg.BBOX_STATUS_COMMITTING = false → Does .bboxProgramDone s s []) ∧
  (s.bit Reg.BBOX_STATUS_COMMITTING = true → s.bbox.opening = false → s.bbox.inProgram = 1 →
    match s.bbox.queue with
    | [] => True
    | r :: rest => s.flashErased (s.bboxSlotAt page slot) 64 = true → r.payload.length = 32 →
      Leads .bboxProgramDone s fun t =>
        s.FlashTook (s.bboxSlotAt page slot) (bboxRecord (s.bboxSlotAt page slot) seq slot r) t ∧ t.bbox.queue = rest ∧
        t.get Reg.BBOX_HEAD_SLOT = (slot + 1) % 1024 ∧ t.get Reg.BBOX_COUNTS_RECORDS = s.more Reg.BBOX_COUNTS_RECORDS ∧
        s.SideTook 0 0 [] t ∧ s.SideTook 1 0 [] t ∧ s.SramTook 0 [] t) ∧
  (s.bit Reg.BBOX_STATUS_COMMITTING = true → s.bbox.opening = true → s.flashErased (s.bboxSlotAt next 0) 64 = true →
    Leads .bboxProgramDone s fun t =>
      s.FlashTook (s.bboxSlotAt next 0) (bboxHeader (s.bboxSlotAt next 0) ((seq + 1) % 2 ^ 32)) t ∧ t.get Reg.BBOX_HEAD_PAGE = next ∧
      t.get Reg.BBOX_HEAD_SLOT = 1 ∧ t.get Reg.BBOX_PAGE_SEQ_SEQ = (seq + 1) % 2 ^ 32 ∧ t.bit Reg.BBOX_STATUS_LEDGER_DUE = true) ∧
  (s.bit Reg.BBOX_STATUS_ERASING = false ∨ s.bit Reg.BBOX_STATUS_SUSPENDED = true → Does .bboxEraseDone s s []) ∧
  (s.bit Reg.BBOX_STATUS_ERASING = true → s.bit Reg.BBOX_STATUS_SUSPENDED = false →
    Leads .bboxEraseDone s fun t =>
      s.FlashTook (s.bboxSlotAt next 0 + 4096 * s.bbox.erased) (List.replicate 4096 0xFF) t ∧ t.bbox.erased = s.bbox.erased + 1 ∧
      (s.boot.flashBus ++ [FlashOp.service (s.hdr 13 1)]).isPrefixOf t.boot.flashBus = true) ∧
  (us ≤ 3000 → Does (.bboxLate us) s s []) ∧
  (3000 < us → s.bit Reg.BBOX_STATUS_LATE = false → s.SourceFree 119 → s.LogRoom →
    SetsAnd (.bboxLate us) s
      [(Reg.IC_SRC_PENDING 119, 1), (Reg.BBOX_STATUS_EVENTS, s.more Reg.BBOX_STATUS_EVENTS), (Reg.BBOX_STATUS_LATE, 1)] fun t =>
      (t.log.queue.drop s.log.queue.length).map (fun e => (e.code, e.p0, e.p1)) =
        [(0x000A, BitVec.ofNat 32 us, BitVec.ofNat 32 s.bbox.committed)])

/-- R447, R448, R453, R454: wear. A sample gives each of the 32 monitors its own margin: the margin is shown with the lowest so far and
whether it warns, and the run of samples below WORN_THRESH goes on or ends, monitor by monitor; a monitor whose run reaches PERSIST,
treated as at least 1, becomes WORN and no other does. It adds a second to the power-on count and to a temperature bin. A mark, once
set, stays, raises source 121 and takes a pipe out of service. A burn of a macro's soft repairs is refused where none is left to
burn, where OTP has no room, in a brownout or while one runs; MACRO takes its value in each case, and a burn that runs goes on with
its own macro; it ends with DONE and the entries used. One that a warning has interrupted has burnt at least the entry begun, and
sets REFUSED. The readings and choices of the model behind it: log entries 40, 66, 68. -/
def Obligations.WearSamplesAndRepairs : Prop := ∀ (s : State) (margins : List (BitVec 16)) (temp : BitVec 16) (w : World) (v : Word) (k : Fin 32) (n : Nat),
  let macro_ := getBits v 0 8
  let r := (s.softRepairs macro_).1
  let c := (s.softRepairs macro_).2
  let bin := thermalBin temp.toInt
  let margin := fun (k : Nat) => (margins.getD k 0).toNat
  let run := fun (k : Nat) => if margin k < s.get Reg.WEAR_THRESH_WORN_THRESH then sget (fun _ => 0) s.wear.low k + 1 else 0
  let worn := fun (k : Nat) => decide (max 1 (s.get Reg.WEAR_CFG_PERSIST) ≤ run k)
  let warns := fun (k : Nat) => decide (margin k < s.get Reg.WEAR_THRESH_WARN_THRESH)
  (margins.length = 32 → (∀ k < 32, worn k = true → bitOf (s.get Reg.WEAR_WORN_MARK) k = true) →
    SetsAnd (.wearSample margins temp) s
      ([(Reg.WEAR_TEMP_MAX, if s.get Reg.WEAR_POWER_ON_SEC = 0 ∨ sext 16 (s.get Reg.WEAR_TEMP_MAX) < temp.toInt then temp.toNat
          else s.get Reg.WEAR_TEMP_MAX),
        (Reg.WEAR_TEMP_LIVE, temp.toNat), (Reg.WEAR_THERM_SEC bin, s.more (Reg.WEAR_THERM_SEC bin)),
        (Reg.WEAR_POWER_ON_SEC, s.more Reg.WEAR_POWER_ON_SEC),
        (Reg.WEAR_WARN_LIVE, (((List.range 32).filter warns).map (2 ^ ·)).sum)] ++
        (List.range 32).flatMap fun k =>
          [(Reg.WEAR_MON_LOWEST k, min (margin k) (s.get (Reg.WEAR_MON_LOWEST k))), (Reg.WEAR_MON_MARGIN k, margin k)])
      fun t => ∀ k < 32, sget (fun _ => 0) t.wear.low k = run k) ∧
  (margins.length = 32 →
    Leads (.wearSample margins temp) s fun t => ∀ k < 32, t.get (Reg.WEAR_MON_MARGIN k) = margin k ∧
      t.get (Reg.WEAR_MON_LOWEST k) = min (margin k) (s.get (Reg.WEAR_MON_LOWEST k)) ∧
      bitOf (t.get Reg.WEAR_WARN_LIVE) k = warns k ∧ sget (fun _ => 0) t.wear.low k = run k ∧
      bitOf (t.get Reg.WEAR_WORN_MARK) k = (bitOf (s.get Reg.WEAR_WORN_MARK) k || worn k)) ∧
  (s.Admits w 0x1D 0 false →
    (Leads (.wornWrite w v) s fun t => t.get Reg.WEAR_WORN_MARK = s.get Reg.WEAR_WORN_MARK ||| v.toNat ∧
      ∀ p < 10, bitOf v.toNat p = true → bitOf (s.get Reg.WEAR_WORN_MARK) p = false → t.pipeState p = 4) ∧
    (12 ≤ k.val → bitOf (s.get Reg.WEAR_WORN_MARK) k = false → s.SourceFree 121 →
      Does (.wornWrite w (BitVec.ofNat 32 (2 ^ k.val))) s s [(Reg.IC_SRC_PENDING 121, 1), ({ addr := Reg.WEAR_WORN, lo := k, width := 1 }, 1)]) ∧
    (bitOf (s.get Reg.WEAR_WORN_MARK) k = true → Does (.wornWrite w (BitVec.ofNat 32 (2 ^ k.val))) s s []) ∧
    (s.bit Reg.WEAR_OTP_STATUS_BUSY = true → Does (.otpBurn w v) s s
      [(Reg.WEAR_OTP_STATUS_EVENTS, s.more Reg.WEAR_OTP_STATUS_EVENTS), (Reg.WEAR_OTP_STATUS_REFUSED, 1), (Reg.WEAR_OTP_CMD_MACRO, macro_)]) ∧
    (s.bit Reg.WEAR_OTP_STATUS_BUSY = false →
      (s.brownout = true ∨ r + c = 0 ∨ 64 < s.wear.used + r + c → Does (.otpBurn w v) s s
        [(Reg.WEAR_OTP_STATUS_EVENTS, s.more Reg.WEAR_OTP_STATUS_EVENTS), (Reg.WEAR_OTP_STATUS_REFUSED, 1), (Reg.WEAR_OTP_CMD_MACRO, macro_)]) ∧
      (s.brownout = false → r + c ≠ 0 → s.wear.used + r + c ≤ 64 → Does (.otpBurn w v) s { s with wear := { s.wear with cut := false, target := macro_ } }
        [(Reg.WEAR_OTP_CMD_GO, 1), (Reg.WEAR_OTP_STATUS_BUSY, 1), (Reg.WEAR_OTP_CMD_MACRO, macro_)]))) ∧
  (s.bit Reg.WEAR_OTP_STATUS_BUSY = false → Does (.otpBurnDone n) s s []) ∧
  (s.bit Reg.WEAR_OTP_STATUS_BUSY = true →
    let x := s.wear.target
    let total := (s.softRepairs x).1 + (s.softRepairs x).2
    s.wear.used + total ≤ 64 →
    (s.wear.cut = false →
      SetsAnd (.otpBurnDone n) s
        [(Reg.WEAR_OTP_STATUS_EVENTS, s.more Reg.WEAR_OTP_STATUS_EVENTS), (Reg.WEAR_OTP_STATUS_DONE, 1), (Reg.WEAR_OTP_STATUS_BUSY, 0),
         (Reg.WEAR_OTP_CMD_GO, 0), (Reg.WEAR_OTP_STATUS_USED, s.wear.used + total)] fun t => t.wear.used = s.wear.used + total) ∧
    (s.wear.cut = true → 1 ≤ total →
      Leads (.otpBurnDone n) s fun t => t.bit Reg.WEAR_OTP_STATUS_DONE = true ∧ t.bit Reg.WEAR_OTP_STATUS_REFUSED = true ∧
        t.bit Reg.WEAR_OTP_STATUS_BUSY = false ∧ s.wear.used + 1 ≤ t.wear.used ∧ t.wear.used ≤ s.wear.used + total ∧
        (1 ≤ n → n ≤ total → t.wear.used = s.wear.used + n)))

/-- R11, R29, R305, R312, R321: what starts and stops the audio unit, its TDM ports and its direct routes. An enable is accepted where
the divider is one of R29's settings and the staging area is memory, and takes effect at a beat; it is refused with its code
otherwise. A disable drops a start that waits and has a running unit stop at its next block boundary (log entry 98), unless a TDM
port is enabled. A TDM port is enabled only while the unit runs and is not to stop, and one that is disabled runs on to that
boundary. A direct route to a protected output, or to one that another route feeds, is refused. R323, R324, R326: the bell voices.
The secure world starts and stops a voice, from the next block on, and SOUND follows the voice, not the write (R479). An ON period
whose samples are over turns to its tail, the last one where COUNT periods have begun; an OFF period that is over begins the next ON
period; an ON_MS of 0 goes on. The readings and choices of the model behind it: log entries 17, 25, 32, 47, 87, 95. -/
def Obligations.AudioUnitStartsAndBellsRing : Prop :=
  (∀ (s : State) (n : Fin 2) (r : Fin 8) (w : World) (v : Word),
    let refused := fun (code : Nat) => [(Reg.IC_SRC_PENDING 96, 1), (Reg.AUD_STATUS_EVENTS, s.more Reg.AUD_STATUS_EVENTS),
      (Reg.AUD_STATUS_CFG_ERR, 1), (Reg.AUD_STATUS_ERR_CODE, code)]
    let ports := s.bit (Reg.TDM_CTRL_EN 0) || s.bit (Reg.TDM_CTRL_EN 1)
    let ctrl := fun (en : Nat) => [(Reg.TDM_CTRL_BCLK_EDGE n, getBits v 4 1), (Reg.TDM_CTRL_DELAY n, getBits v 3 1),
      (Reg.TDM_CTRL_FSYNC_POL n, getBits v 2 1), (Reg.TDM_CTRL_FSYNC_WIDE n, getBits v 1 1), (Reg.TDM_CTRL_EN n, en)]
    let same := decide (getBits v 1 4 = getBits (s.reg (Reg.TDM_CTRL n)) 1 4)
    (s.Admits w 0x13 0 false → s.SourceFree 96 →
      (s.bit Reg.AUD_CTRL_EN = false →
        (s.drum.audioRate = false → Does (.audioEnable w v) s s (refused 1)) ∧
        (s.drum.audioRate = true → s.installedRam s.stageAddr 15360 = false → Does (.audioEnable w v) s s (refused 2)) ∧
        (s.drum.audioRate = true → s.installedRam s.stageAddr 15360 = true →
          Does (.audioEnable w v) s { s with aud := { s.aud with startDue := true } } [(Reg.AUD_CTRL_EN, 1)]) ∧
        Does (.audioDisable w v) s s []) ∧
      (s.bit Reg.AUD_CTRL_EN = true →
        Does (.audioEnable w v) s s [] ∧
        (ports = true → Does (.audioDisable w v) s s
          [(Reg.IC_SRC_PENDING 96, 1), (Reg.AUD_STATUS_EVENTS, s.more Reg.AUD_STATUS_EVENTS), (Reg.AUD_STATUS_WRITE_WHILE_ACTIVE, 1)]) ∧
        (ports = false → Does (.audioDisable w v) s
          { s with aud := { s.aud with startDue := false, stopDue := s.bit Reg.AUD_STATUS_RUNNING } } [(Reg.AUD_CTRL_EN, 0)])) ∧
      (let o := getBits v 8 5
       let busy := s.outProtected o || (List.range 8).any fun q => q != r.val && s.bit (Reg.AUD_DIRECT_EN q) && s.get (Reg.AUD_DIRECT_OUT q) == o
       (busy = true → Does (.directRouteEnable r w v) s s (refused 4)) ∧
       (busy = false → Does (.directRouteEnable r w v) s s
          [(Reg.AUD_DIRECT_EN r, 1), (Reg.AUD_DIRECT_OUT r, o), (Reg.AUD_DIRECT_IN r, getBits v 0 5)]))) ∧
    (s.Admits w 0x14 n (s.tdmSecure n) → s.SourceFree (97 + n) →
      (s.bit (Reg.TDM_CTRL_EN n) = false →
        (s.bit Reg.AUD_STATUS_RUNNING = true → s.aud.stopDue = false → Does (.tdmEnable n w v) s s (ctrl 1)) ∧
        (s.bit Reg.AUD_STATUS_RUNNING = false ∨ s.aud.stopDue = true → Does (.tdmEnable n w v) s s
          [(Reg.IC_SRC_PENDING (97 + n), 1), (Reg.TDM_STATUS_EVENTS n, s.more (Reg.TDM_STATUS_EVENTS n)), (Reg.TDM_STATUS_CFG_ERR n, 1),
           (Reg.TDM_STATUS_ERR_CODE n, 3)]) ∧
        Does (.tdmDisable n w v) s s (ctrl 0)) ∧
      (s.bit (Reg.TDM_CTRL_EN n) = true →
        (same = true → Does (.tdmEnable n w v) s s (ctrl 1) ∧ Does (.tdmDisable n w v) s s (ctrl 0)) ∧
        (same = false → ∀ c ∈ [Instr.tdmEnable n w v, .tdmDisable n w v], Does c s s
          [(Reg.IC_SRC_PENDING (97 + n), 1), (Reg.TDM_STATUS_EVENTS n, s.more (Reg.TDM_STATUS_EVENTS n)),
           (Reg.TDM_STATUS_WRITE_WHILE_ACTIVE n, 1)])))) ∧
  (∀ (s : State) (v : Fin 4) (x : Word),
    let b := s.voice v
    let ctrl := fun (stop : Nat) => [(Reg.BELL_CTRL_COUNT v, getBits x 8 8), (Reg.BELL_CTRL_ALT v, getBits x 2 1),
      (Reg.BELL_CTRL_STOP v, s.get (Reg.BELL_CTRL_STOP v) ||| stop)]
    let on := s.get (Reg.BELL_CADENCE_ON_MS v)
    let count := s.get (Reg.BELL_CTRL_COUNT v)
    (s.isGated 0x15 0 = false →
      (getBits x 1 1 = 0 → Does (.bellSound v .secure x) s (s.setVoice v { b with startDue := true }) (ctrl 0)) ∧
      (getBits x 0 1 = 0 → Does (.bellStop v .secure x) s (s.setVoice v { b with stopDue := true }) (ctrl 1)) ∧
      (getBits x 0 2 = 3 → Does (.bellStop v .secure x) s (s.setVoice v { b with startDue := true, stopDue := true }) (ctrl 1))) ∧
    (b.left ≠ 0 → Does (.bellCadence v) s s []) ∧
    (b.left = 0 →
      (b.phase = .tone → on ≠ 0 → Does (.bellCadence v) s
        (s.setVoice v { b with phase := .tail, final := decide (count ≠ 0 ∧ count ≤ b.reps) }) []) ∧
      (b.phase = .tone → on = 0 → Does (.bellCadence v) s s []) ∧
      (b.phase = .rest → Does (.bellCadence v) s
        (s.setVoice v { b with phase := .tone, acc := 0, left := on * 48, reps := b.reps + 1 }) []) ∧
      (b.phase = .idle ∨ b.phase = .tail → Does (.bellCadence v) s s [])))

/-- R11, R306, R308, R309, R311, R314, R315, R319, R320, R323, R324, R479: blocks and samples. While the unit does not run, a boundary
and a frame do nothing. A unit that is to stop stops at a boundary, its TDM ports, its streams and what it sends with it (log entry
98). At a boundary of another the block staged last is sent and the next is staged, so that an output all of whose nodes are at rest
on mute but one carries that node's input times its gain, rounded and clamped. A bell voice whose start waits begins its tone with
the block, of its first frequency, level and duration, and an idle voice gives no sample. A late stream is a breach of rank 5. A TDM
port that is enabled runs from a boundary on, and one that is disabled stops there. A frame of a port takes the slots its RX_MASK
names and sends those its TX_MASK names: the block's staged word, a direct route's sample, or silence. A gain code waits for a zero
crossing, at most ZC_TIMEOUT, and a swap of equaliser banks for a boundary. The readings and choices of the model behind it: log
entry 17. -/
def Obligations.AudioBlocksAndFrames : Prop := ∀ (s : State) (n : Fin 2) (k : Fin 24) (o : Fin 48) (i : Fin 64) (z : Fin 4) (j : Fin 16)
    (w : World) (v : Word) (late : List (Fin 24)) (stagedLate : Bool) (din : List Word),
  let nd := s.node o i
  let boundary := (s.audBoundary).audSend stagedLate
  let b := s.voice z
  let step := bellStep (s.get (Reg.BELL_FREQ_F1 z))
  let code := s.get (Reg.BELL_LEVEL_CODE z)
  let level := gainLinear (gainCode code)
  (s.bit Reg.AUD_STATUS_RUNNING = false → Does (.audioBlock late stagedLate) s s []) ∧
  (s.bit Reg.AUD_STATUS_RUNNING = true → s.aud.stopDue = true → Leads (.audioBlock late stagedLate) s fun t =>
    t.bit Reg.AUD_STATUS_RUNNING = false ∧ t.aud.stopDue = false ∧ t.aud.staged = false ∧ t.aud.silent = true ∧ t.aud.dp = [] ∧
      t.bit (Reg.TDM_STATUS_RUNNING n) = false ∧ (t.tdm n).dout = [] ∧
      (∀ p ∈ s.streamOf k, t.bit (Reg.SESS_AS_STATUS_RUNNING p.1 p.2) = false) ∧ s.SameBytes t) ∧
  (s.bit Reg.AUD_STATUS_RUNNING = true → s.aud.stopDue = false →
    (Leads (.audioBlock late stagedLate) s fun t => t.bit (Reg.TDM_STATUS_RUNNING n) = s.bit (Reg.TDM_CTRL_EN n)) ∧
    (b.startDue = true → b.stopDue = false → s.gated = [] → s.aud.downDue = false →
      (Leads (.audioBlock late stagedLate) s fun t => t.bit (Reg.BELL_CTRL_SOUND z) = true ∧ bitOf (t.get Reg.BELL_STATUS_SOUNDING) z = true ∧
        t.voice z = { phase := .tone, acc := 40 * step % 2 ^ 32, left := s.get (Reg.BELL_CADENCE_ON_MS z) * 48 - 40, reps := 1 }) ∧
      (∀ m < 40, ((boundary.takeInputs (late.map (·.val))).1.getD (56 + z) []).getD m 0 =
        clamp24 (asr (bellTable (m * step % 2 ^ 32 / 2 ^ 22) * (level : Int) + 2 ^ 23) 24))) ∧
    (b.startDue = false → b.phase = .idle → ∀ m < 40, ((boundary.takeInputs (late.map (·.val))).1.getD (56 + z) []).getD m 0 = 0) ∧
    Leads (.audioBlock late stagedLate) s fun t => t.aud.block = s.aud.block + 1 ∧ t.aud.staged = true ∧ t.aud.sending = s.aud.block - 1 ∧
      t.aud.silent = (!s.aud.staged || stagedLate) ∧
      (s.bit (Reg.AUD_EQ_CTRL_EN o) = false → nd.wait = none → s.nodeDucked o i = none →
        (∀ j < 64, j ≠ i.val → s.node o j = {}) → boundary.nodeDucked o i = none → boundary.node o i = nd →
        (∀ j < 64, j ≠ i.val → boundary.node o j = {}) →
        sget (fun _ => List.replicate 40 0) t.aud.outs o = (List.range 40).map fun m =>
          clamp24 (asr ((((boundary.takeInputs (late.map (·.val))).1.getD i []).getD m 0) *
            ((if nd.code = 0x8000 then 0 else gainLinear (gainCode nd.code) : Nat) : Int) + 2 ^ 23) 24))) ∧
  (s.aud.late.contains k.val = true →
    DoesThen (.audioStreamDeadline k) s { s with aud := { s.aud with late := s.aud.late.filter (· != k.val) } } []
      fun t => (t.breach { rank := 5, yielded := 5, port := some 24, mag := 40, unit := 0x13, inst := 0 }).count Reg.AUD_COUNTS_LATE_STREAMS) ∧
  (s.aud.late.contains k.val = false → Does (.audioStreamDeadline k) s s []) ∧
  (s.bit (Reg.TDM_STATUS_RUNNING n) = false ∨ 40 ≤ (s.tdm n).frame → Does (.tdmFrame n din) s s []) ∧
  (s.bit (Reg.TDM_STATUS_RUNNING n) = true → (s.tdm n).frame < 40 → (s.tdm n).txMask = 0 →
    let t := s.tdm n
    let rx := (List.range 16).map fun j => if bitOf t.rxMask j then sext 24 ((din.getD j 0).toNat / 256) else 0
    Does (.tdmFrame n din) s
      (s.setTdm n { t with frame := t.frame + 1, rx := rx :: t.rx, hist := ((40 * s.aud.block + t.frame, rx) :: t.hist).take 4,
                           dout := [] }) []) ∧
  (s.bit (Reg.TDM_STATUS_RUNNING n) = true → (s.tdm n).frame < 40 →
    let t := s.tdm n
    let out := 16 * n.val + j.val
    let route := s.aud.routes.find? fun r => r.2.2 == out
    let a := s.aud.stage + s.aud.sending % 2 * 7680 + 4 * (40 * out + t.frame)
    let hush := s.aud.silent || s.aud.quiet || s.startWaits a 4
    let sends := fun (x : Word) => Leads (.tdmFrame n din) s fun u => (u.tdm n).dout.find? (·.1 == j.val) = some (j.val, x)
    (Leads (.tdmFrame n din) s fun u => (u.tdm n).dout.map (·.1) = (List.range 16).filter (bitOf t.txMask ·)) ∧
    (bitOf t.txMask j = true →
      (route = none → hush = true → sends 0) ∧
      (route = none → hush = false → ∀ bs ∈ s.readBytes (s.ownerWorld 0x13 0) a 4, sends (BitVec.ofNat 32 (leNat bs / 256 * 256))) ∧
      (∀ r ∈ route, s.aud.quiet = true → sends 0) ∧
      (∀ r ∈ route, s.aud.quiet = false →
        let x := (((s.tdm (r.2.1 / 16)).hist.find? fun p => p.1 + 3 == 40 * s.aud.block + t.frame).map fun p => p.2.getD (r.2.1 % 16) 0).getD 0
        sends (BitVec.ofNat 32 (toBits 24 (scaleSample x (gainLinear (gainCode (s.node out (24 + r.2.1)).code))) * 256))))) ∧
  (s.Admits w 0x13 0 (s.nodeSecure o i) →
    (nd.wait = none → getBits v 0 16 = nd.code → Does (.nodeWrite o i w v) s s [(Reg.AUD_NODE_CODE o i, getBits v 0 16)]) ∧
    (nd.wait.isSome = true ∨ getBits v 0 16 ≠ nd.code →
      Does (.nodeWrite o i w v) s (s.setNode o i { nd with wait := some (nd.wait.getD 0) })
        [(Reg.AUD_NODE_PENDING o i, 1), (Reg.AUD_NODE_CODE o i, getBits v 0 16)])) ∧
  (s.Admits w 0x13 0 (s.outProtected o) →
    Does (.eqSwap o w v) s s [(Reg.AUD_EQ_CTRL_SWAP o, 1), (Reg.AUD_EQ_CTRL_EN o, getBits v 0 1)]) ∧
  (match nd.wait with
    | none => Does (.nodeGainTimeout o i) s s []
    | some x =>
      let limit := clampNat 1 50 (s.get Reg.AUD_ZC_ZC_TIMEOUT) * 48
      (limit ≤ x → Does (.nodeGainTimeout o i) s (s.setNode o i { code := s.get (Reg.AUD_NODE_CODE o i), wait := none })
        [(Reg.AUD_NODE_PENDING o i, 0)]) ∧
      (x < limit → Does (.nodeGainTimeout o i) s s []))

/-- R9, R55, R68: the owner register of any resource. A write that assigns an idle resource to a session, or releases it, takes its
values, and the sessions' resource bits follow; one that the rule forbids (session 0, a handle past its kind's, a handle already
used, a change of a resource that is not idle) sets REFUSED, counts, and changes nothing else. A locked owner register keeps its
fields. A write of a session's control register, whether the session attaches or detaches by it, leaves every owner register. -/
def Obligations.OwnerRegisterAssignsAResource : Prop := ∀ (s : State) (o : Owned) (w : World) (v : Word) (n : Fin 256),
  let a := ownedAddr o
  let x := s.reg a
  let fld := fun (lo width : Nat) => ({ addr := a, lo := lo, width := width } : Fld)
  let key := fun (y : Word) => (getBits y 0 8, getBits y 12 4)
  let idle := match o with
    | .layer n => !s.bit (Reg.LAYER_ACT_CTRL_EN n) && !s.layPending n
    | .scaler n => !s.bit (Reg.SCL_STATUS_CLAIMED n)
    | .haptic n => s.hcState n != 2 && s.hcState n != 3
    | .stream k => match s.streamOf k with | some (n, q) => !s.bit (Reg.SESS_AS_STATUS_RUNNING n q) | none => true
    | .zone n k => !s.bit (Reg.TOUCH_ZONE_CTRL_EN n k)
  let bad := decide (getBits v 8 1 = 1) && (decide (getBits v 0 8 = 0 ∨ ownedHandles o ≤ getBits v 12 4) ||
    (ownedPeers o).any fun b => b != a && decide (getBits (s.reg b) 8 1 = 1) && key (s.reg b) == key v)
  let changes := decide (key v ≠ key x ∨ getBits v 8 1 ≠ getBits x 8 1)
  let owned := fun (y : Word) (b : Nat) => if getBits y 8 1 = 0 then [] else match o with
    | .layer _ => [(({ addr := Reg.SESS_RES_LAYER (getBits y 0 8), lo := getBits y 12 4, width := 1 } : Fld), b)]
    | .haptic _ => [({ addr := Reg.SESS_RES_OTHER (getBits y 0 8), lo := 8 + getBits y 12 4, width := 1 }, b)]
    | .stream _ => [({ addr := Reg.SESS_RES_OTHER (getBits y 0 8), lo := getBits y 12 4, width := 1 }, b)]
    | _ => []
  let cleared := (fld 30 1, if getBits v 30 1 = 1 then 0 else getBits x 30 1)
  (s.Admits w (ownedUnit o).1 (ownedUnit o).2 false → getBits x 31 1 = 1 → Does (.ownerWrite o w v) s s [cleared]) ∧
  (s.Admits w (ownedUnit o).1 (ownedUnit o).2 false → getBits x 31 1 = 0 →
    (bad = true ∨ (changes = true ∧ idle = false) →
      Does (.ownerWrite o w v) s s [(fld 16 8, satAdd 8 (getBits x 16 8) 1), (fld 30 1, 1)]) ∧
    (bad = false → changes = false ∨ idle = true → getBits x 8 1 = 0 ∨ getBits x 12 4 < ownedHandles o →
      Does (.ownerWrite o w v) s s
        (owned v 1 ++ owned x 0 ++ [(fld 31 1, getBits v 31 1), cleared, (fld 12 4, getBits v 12 4), (fld 8 1, getBits v 8 1),
          (fld 0 8, getBits v 0 8)]))) ∧
  Leads (.sessionCtrlWrite n w v) s fun t => t.reg a = x

/-- R25, R357, R359, R361, R366 to R370, R373, R375 to R378, R383, R420, R457, R466: starts and resets. A release of reset always
completes: the facts of the start stand, and no other command's is lost. With a valid header the ROM resets the flash and reads it,
uses copy 0 before copy 1, and tries the slots in the order of ATTEMPT: each that fails shows its first failing step, a slot that
passes meets every one of them, and the first that passes has its stage-0 scripts run, or with none the sides train; where none
passes, NO_CHART is raised. A start whose flash holds no valid header raises NO_CHART and waits, with ATTEMPT and COUNT as R377 and
R378 say. RESET_N and a start reset leave every register but those of the always-on domain at its reset value, every output-capable
pin high-impedance, and the flash, the real-time clock and the drumbeat number as they were; a VAON power-on resets the always-on
domain and nothing else, and stays the cause until a start has counted it. A part in factory test mode has its debug enables open.
The secure world declares underway once, outside anchor mode; a start of 20 s without it fails; ANCHOR_CLEAR clears COUNT in anchor
mode alone. The readings and choices of the model behind it: log entries 5, 11, 14, 15, 16, 77, 92, 97. -/
def Obligations.StartsAndResetsOfTheDevice : Prop := ∀ (s : State) (f : StartFacts) (w : World) (v : Word) (pin : OutPin),
  let cause := if f.corePower && !s.boot.vaonOn then 2 else s.get Reg.BOOT_AON_RESET_CAUSE
  let facts : State := { s with released := true, resetLow := false, clock := 0, fittedA := f.sideA, fittedB := f.sideB, jtag := { s.jtag with scan := 0 },
                                boot := { s.boot with dead := f.dead.map BitVec.toNat, deadAgain := f.deadAgain.map BitVec.toNat,
                                                      badAgain := f.badAgain.map BitVec.toNat } }
  let excused := s.bit Reg.BOOT_AON_WARNED && (cause == 1 || cause == 2) && !s.boot.wasAnchor
  let attempt := min 3 (if excused then s.get Reg.BOOT_AON_COUNT - 1 else s.get Reg.BOOT_AON_COUNT)
  let keeps := fun (t : State) => s.FlashSame t ∧ t.pending = s.pending ∧ t.released = false ∧ t.wear.used = s.wear.used ∧
    t.wear.burnt = s.wear.burnt ∧ t.factory = s.factory ∧ t.gated = [] ∧ t.boot.startFailed = false ∧ t.pinLevel pin = .z
  let afterReset := fun (code : Nat) (t : State) => keeps t ∧ t.rtc.sec = s.rtc.sec ∧ t.rtc.frac = s.rtc.frac ∧
    (∀ a : Nat, a ≠ Reg.BOOT_AON → a ≠ Reg.RTC_TRIM → a ≠ Reg.RTC_STATUS → a ≠ Reg.DRUM_COUNT_LO → a ≠ Reg.DRUM_COUNT_HI →
      s.factory = false ∨ (a ≠ Reg.DBG_EN ∧ a ≠ Reg.SYS_SEC_STATUS) → t.reg a = regReset a) ∧ t.drumbeat = s.drumbeat ∧
    (s.factory = true → t.bit Reg.DBG_EN_NI = true ∧ t.bit Reg.DBG_EN_NNI = true ∧ t.bit Reg.DBG_EN_SI = true ∧ t.bit Reg.DBG_EN_SNI = true) ∧
    t.get Reg.BOOT_AON_RESET_CAUSE = (if s.boot.vaonOn then 1 else code) ∧ t.boot.vaonOn = s.boot.vaonOn ∧ t.get Reg.BOOT_AON_COUNT = s.get Reg.BOOT_AON_COUNT ∧
    t.get Reg.BOOT_AON_WARNED = s.get Reg.BOOT_AON_WARNED ∧ t.get Reg.BOOT_AON_LAST_CAUSE = s.get Reg.BOOT_AON_LAST_CAUSE ∧
    t.reg Reg.RTC_TRIM = s.reg Reg.RTC_TRIM ∧ t.get Reg.RTC_STATUS_VALID = s.get Reg.RTC_STATUS_VALID
  let entry : LogEntry := { sec := s.rtc.sec, frac := s.rtc.frac, timeValid := s.bit Reg.RTC_STATUS_VALID }
  let ms := min (s.clock / 1000000) (2 ^ 32 - 1)
  let slot := s.get Reg.BOOT_STATUS_SLOT
  (s.released = true → Does (.resetRelease f) s s []) ∧
  (s.released = false → Leads (.resetRelease f) s fun t => t.released = true ∧ t.resetLow = false ∧ t.clock = 0 ∧ t.pending = s.pending ∧
    t.fittedA = f.sideA ∧ t.fittedB = f.sideB ∧ t.boot.dead = f.dead.map BitVec.toNat ∧ t.wear.used = s.wear.used ∧ t.wear.burnt = s.wear.burnt ∧
    t.get Reg.WEAR_OTP_STATUS_USED = s.wear.used % 128) ∧
  (s.released = false → f.fails = [] → s.wear.burnt = [] → s.coreRuns 0 = true →
    match (facts.headerAt 0).map fun h => ((0 : Nat), h), (facts.headerAt 0x10000).map fun h => ((1 : Nat), h) with
    | none, none => True
    | x, y =>
      let copy := (x.getD (y.getD (0, []))).1
      let h := (x.getD (y.getD (0, []))).2
      let chart : State := State.bboxLocate
        { facts with boot := { facts.boot with header := h }, bbox := { s.bbox with offset := leAt h 48 4, known := true } }
      Leads (.resetRelease f) s fun t => chart.SlotsTried t ∧ t.boot.header = h ∧ t.bbox.offset = leAt h 48 4 ∧
        (copy = 1 → t.bit Reg.BOOT_STATUS_HEADER1 = true) ∧
        (s.boot.flashBus ++ [FlashOp.reset 10 100, FlashOp.read 0x13 0 80] ++
          (if copy = 1 then [FlashOp.read 0x13 0x10000 80] else [])).isPrefixOf t.boot.flashBus = true ∧
        t.boot.flashMode = (if byteAt h 5 = 2 then .octal else .quad) ∧ t.boot.flashClk = byteAt h 6 ∧
        (cause ≠ 1 → t.get Reg.BOOT_STATUS_ATTEMPT = attempt) ∧ t.get Reg.BOOT_AON_COUNT = min 3 (t.get Reg.BOOT_STATUS_ATTEMPT + 1) ∧
        t.bit Reg.BOOT_STATUS_ANCHOR = decide (t.get Reg.BOOT_STATUS_ATTEMPT = 3)) ∧
  (∀ k < 3, s.SlotJudged k) ∧
  (s.released = false → f.fails = [] → s.wear.burnt = [] →
    (s.coreRuns 0 = false → Does (.resetRelease f) s facts
      [(Reg.WEAR_OTP_STATUS_USED, s.wear.used), (Reg.BOOT_AON_RESET_CAUSE, cause)]) ∧
    (s.coreRuns 0 = true → facts.headerAt 0 = none → facts.headerAt 0x10000 = none → s.bbox.known = false →
      Leads (.resetRelease f) s fun t => t.get Reg.BOOT_STATUS_STAGE = 0xF ∧ t.boot.noChart = true ∧ t.bit (Reg.FLT_IN_STATUS_CAUSE 9) = true ∧
        t.get Reg.BOOT_STATUS_ATTEMPT = attempt ∧ t.get Reg.BOOT_AON_COUNT = min 3 (attempt + 1) ∧
        t.bit Reg.BOOT_STATUS_ANCHOR = decide (attempt = 3) ∧ t.bit Reg.BOOT_AON_WARNED = false ∧ t.get Reg.BOOT_AON_RESET_CAUSE = cause)) ∧
  Leads .resetNAssert s (afterReset 3) ∧
  (s.boot.startFailed = true → Leads .startReset s (afterReset 4)) ∧
  (s.boot.startFailed = false → Does .startReset s s []) ∧
  SetsAnd .vaonPowerOn s [(Reg.RTC_STATUS_VALID, 0), ({ addr := Reg.RTC_TRIM, lo := 0, width := 32 }, 0),
      ({ addr := Reg.BOOT_AON, lo := 0, width := 32 }, 0x1000000)]
    (fun t => t.rtc = { sec := 0, frac := 0, skips := 0, setTo := s.rtc.setTo } ∧ t.boot = { s.boot with wasAnchor := false, vaonOn := true } ∧
      t.drumbeat = s.drumbeat) ∧
  (s.bit Reg.BOOT_STATUS_UNDERWAY = true ∨ s.bit Reg.BOOT_STATUS_ANCHOR = true ∨ s.boot.startFailed = true →
    Does .startTimeout s s []) ∧
  (s.bit Reg.BOOT_STATUS_UNDERWAY = false → s.bit Reg.BOOT_STATUS_ANCHOR = false → s.boot.startFailed = false →
    DoesThen .startTimeout s { s with boot := { s.boot with startFailed := true, script := [], romStage := 0xF } }
      [(Reg.BOOT_STATUS_STAGE, 0xF), (Reg.BOOT_AON_LAST_CAUSE, 1)] (·.raiseFault 10)) ∧
  (s.Admits w 0x1E 0 false → s.LogRoom →
    (s.bit Reg.BOOT_STATUS_ANCHOR = false → s.bit Reg.BOOT_STATUS_UNDERWAY = false →
      Does (.underway w v) s
        { s with log := { s.log with queue := s.log.queue ++
          [{ entry with code := 0x0006, p0 := BitVec.ofNat 32 ms, p1 := BitVec.ofNat 32 (256 * slot + s.get Reg.BOOT_STATUS_ATTEMPT),
                        p2 := BitVec.ofNat 32 (if slot = 0 then 0 else s.get (Reg.BOOT_SLOT_SEQ_SEQ (slot - 1))) }] } }
        [(Reg.BOOT_AON_COUNT, 0), (Reg.BOOT_STATUS_STAGE, 7), (Reg.BOOT_STATUS_UNDERWAY, 1), (Reg.BOOT_TIMER_MS, ms)]) ∧
    (s.bit Reg.BOOT_STATUS_ANCHOR = false → s.bit Reg.BOOT_STATUS_UNDERWAY = true → Does (.underway w v) s s []) ∧
    (s.bit Reg.BOOT_STATUS_ANCHOR = true → getBits v 1 1 = 0 → Does (.underway w v) s s []) ∧
    (s.bit Reg.BOOT_STATUS_ANCHOR = true →
      Does (.anchorClear w v) s { s with log := { s.log with queue := s.log.queue ++ [{ entry with code := 0x0007 }] } }
        [(Reg.BOOT_AON_COUNT, 0)]) ∧
    (s.bit Reg.BOOT_STATUS_ANCHOR = false → getBits v 0 1 = 0 → Does (.anchorClear w v) s s []))

/-- R371, R372, R373, R376, R381: register scripts. While MC_0 runs, the command at the head of the scripts takes its effect when its
own event comes, as a 32-bit access of MC_0 in the secure world, and no other does. A poll goes on once the masked value is there;
at its timeout an OPTIONAL one writes a SCRIPT_POLL record and goes on, and any other fails the start. In anchor mode writes to the
units of R381 are skipped. The end of the stage-0 scripts starts training, and the end of the stage-1 scripts the jump to the secure
image: in anchor mode with GP_0 and session 255 set up for the maintenance host as R382 says, or NO_CHART where its window is
refused. The readings and choices of the model behind it: log entry 15. -/
def Obligations.ScriptCommandsTakeTheirEffect : Prop := ∀ (s : State) (c : ScriptCmd) (rest : List ScriptCmd),
  let pop : State := { s with boot := { s.boot with script := rest } }
  let got := fun (t : State) => BitVec.ofNat 32 (leNat ((t.replies.map (·.data)).headD []))
  let from_ := fun (t : State) => t.gridRead romMaster c.a.toNat 4
  let seen := from_ s
  let seenPop : State := { seen with boot := { seen.boot with script := seen.boot.script.tail } }
  let found := decide (got seen &&& c.b = c.c)
  let skipped := s.bit Reg.BOOT_STATUS_ANCHOR && anchorSkips c.a.toNat
  let image := ((s.slotTable (s.get Reg.BOOT_STATUS_SLOT - 1)).find? fun e => secType e == 1).getD []
  let all := [(Instr.scriptWrite, 1), (.scriptModify, 2), (.scriptPoll, 3), (.scriptPollTimeout, 3), (.scriptDelay, 4), (.scriptEnd, 5)]
  (s.coreRuns 0 = false ∨ s.boot.script = [] → ∀ i ∈ all, Does i.1 s s []) ∧
  (s.coreRuns 0 = true → s.boot.script = c :: rest →
    (∀ i ∈ all, i.2 ≠ c.op → Does i.1 s s []) ∧
    (c.op = 1 → skipped = true → Does .scriptWrite s pop []) ∧
    (c.op = 1 → skipped = false → DoesThen .scriptWrite s pop [] (·.gridWrite romMaster c.a.toNat (leBytes 4 c.b.toNat))) ∧
    (c.op = 2 → skipped = true → exec .scriptModify s = .next (from_ pop)) ∧
    (c.op = 2 → skipped = false → DoesThen .scriptModify s (from_ pop) []
        (·.gridWrite romMaster c.a.toNat (leBytes 4 ((got (from_ pop) &&& ~~~c.b) ||| (c.c &&& c.b)).toNat))) ∧
    (c.op = 3 →
      (found = true → Does .scriptPoll s seenPop [] ∧ Does .scriptPollTimeout s seenPop []) ∧
      (found = false → exec .scriptPoll s = .next seen ∧
        (bitOf c.param 23 = true → seen.LogRoom → Does .scriptPollTimeout s
          { seenPop with log := { seen.log with queue := seen.log.queue ++
            [{ code := 0x0005, sec := seen.rtc.sec, frac := seen.rtc.frac, timeValid := seen.bit Reg.RTC_STATUS_VALID,
               p0 := c.a, p1 := c.b, p2 := c.c, p3 := got seen }] } } []) ∧
        (bitOf c.param 23 = false → DoesThen .scriptPollTimeout s
          { seen with boot := { seen.boot with startFailed := true, script := [], romStage := 0xF } }
          [(Reg.BOOT_STATUS_STAGE, 0xF), (Reg.BOOT_AON_LAST_CAUSE, 2)] (·.raiseFault 10)))) ∧
    (c.op = 4 → Does .scriptDelay s pop []) ∧
    (c.op = 5 → rest ≠ [] → Does .scriptEnd s pop []) ∧
    (c.op = 5 → rest = [] →
      (s.boot.romStage = 2 → s.sideMode 0 = 0 → s.sideMode 1 = 0 →
        Leads .scriptEnd s fun t => t.get Reg.BOOT_STATUS_STAGE = 3 ∧ t.sideMode 0 = 1 ∧ t.sideMode 1 = 1 ∧ s.SameBytes t ∧
          t.boot = { pop.boot with romStage := 3 }) ∧
      (s.boot.romStage = 5 → s.bit Reg.BOOT_STATUS_ANCHOR = false →
        Leads .scriptEnd s fun t => t.get Reg.BOOT_STATUS_STAGE = (if s.bit Reg.BOOT_STATUS_UNDERWAY then 7 else 6) ∧ (t.core 0).priv = 3 ∧
          (t.core 0).pc = BitVec.ofNat 64 (secLoad image) ∧ s.SameBytes t ∧
          t.boot = { pop.boot with romStage := 6, image := some (secLoad image, secLength image) }) ∧
      (s.boot.romStage = 5 → s.bit Reg.BOOT_STATUS_ANCHOR = true → s.bit (Reg.GP_CTRL_LOCK 0) = false →
        (∀ n < 256, (2 ≤ n → s.sessActive n = false) ∧ ∀ k < 16, s.bit (Reg.SESS_WIN_CTRL_VALID n k) = false) →
        s.bit (Reg.SESS_CTRL_LOCK 255) = false →
        let dev := if s.sideMode 0 = 3 then 0 else 0x2000
        Leads .scriptEnd s fun t =>
          t.get (Reg.GP_CTRL_EN 0) = 1 ∧ t.get (Reg.GP_CTRL_TOTAL_VFS 0) = 0 ∧ t.get (Reg.GP_CTRL_APERTURE_LOG2 0) = 25 ∧
          t.get (Reg.GP_CTRL_RELEASE 0) = 1 ∧ t.get (Reg.GP_CTRL_LOCK 0) = 1 ∧ t.get (Reg.SESS_QUOTA_UNITS 255) = 64 ∧
          t.get (Reg.SESS_CTRL_STATE 255) = 1 ∧ t.get (Reg.SESS_CTRL_PORT 255) = 0 ∧ t.get (Reg.SESS_CTRL_FUNC 255) = 0 ∧
          t.get (Reg.SESS_CTRL_SLOT 255) = 0 ∧ t.get (Reg.SESS_CTRL_LOG_ACCESS 255) = 1 ∧ t.get (Reg.SESS_CTRL_DETACH_ACTION 255) = 0 ∧
          t.get (Reg.SESS_CTRL_LOCK 255) = 1 ∧
          (if s.installed (dev * 0x200000) 0x2000000 = true ∧ s.touchesMirrored 0 0x2000000 = false then
            t.get (Reg.SESS_WIN_CTRL_VALID 255 0) = 1 ∧ t.get (Reg.SESS_WIN_CTRL_SIZE 255 0) = 16 ∧
            t.get (Reg.SESS_WIN_GOFF_GOFF 255 0) = 0 ∧ t.get (Reg.SESS_WIN_DEV_DEV 255 0) = dev ∧
            t.get Reg.BOOT_STATUS_STAGE = 8 ∧ (t.core 0).pc = BitVec.ofNat 64 (secLoad image) ∧ (t.core 0).priv = 3
           else t.bit (Reg.SESS_WIN_CTRL_VALID 255 0) = false ∧ t.get Reg.BOOT_STATUS_STAGE = 0xF ∧ t.boot.noChart = true ∧
            t.bit (Reg.FLT_IN_STATUS_CAUSE 9) = true))))

/-- R384: flash commands. A command is refused beyond FLASH_SIZE, in the black box, for a program or an erase in the header copies or
the golden slot outside anchor mode, or for an unaligned erase; otherwise BUSY is set, and the command runs unless the black-box
writer is active. When it ends, a read has put the flash bytes at BUF, a program has cleared bits of its range, an erase has set its
range to 0xFF, and DONE is set. A page or an erase that stays busy sets TIMEOUT and ends the command; nothing outside its range
changes. The readings and choices of the model behind it: log entry 42. -/
def Obligations.FlashCommandsReadProgramErase : Prop := ∀ (s : State) (w : World) (v : Word) (n off : Nat),
  let addr := s.get Reg.BOOT_FLASH_ADDR_ADDR
  let len := getBits v 0 24 + 1
  let meets := fun (a la : Nat) => decide (addr < a + la ∧ a < addr + len)
  let size := fun (op : Nat) => if op = 2 then 0x1000 else if op = 3 then 0x10000 else 1
  let refused := fun (op : Nat) => decide (s.flashSize < addr + len) ||
    (op != 0 && !s.bit Reg.BOOT_STATUS_ANCHOR && (meets 0 80 || meets 0x10000 80 || meets (s.slotOff 2) (s.slotLen 2))) ||
    (op != 0 && meets s.bbox.offset 0x800000) || addr % size op != 0 || len % size op != 0
  let fields := fun (op : Nat) => [(Reg.BOOT_FLASH_CMD_OP, op), (Reg.BOOT_FLASH_CMD_LEN, getBits v 0 24)]
  let b := s.boot
  let bad := fun (op : Nat) => [(Reg.BOOT_FLASH_STATUS_EVENTS, s.more Reg.BOOT_FLASH_STATUS_EVENTS),
    (Reg.BOOT_FLASH_STATUS_REFUSED, 1), (Reg.BOOT_FLASH_CMD_GO, 0)] ++ fields op
  let busy := fun (op : Nat) => [(Reg.BOOT_FLASH_STATUS_BUSY, 1), (Reg.BOOT_FLASH_CMD_GO, 1)] ++ fields op
  let taken := fun (op : Nat) =>
    ({ s with boot := { b with op := op, addr := addr, len := len, buf := 256 * s.get Reg.BOOT_FLASH_BUF_BUF,
                               running := b.running || !s.bboxActive } } : State)
  let wrote := s.writeMem .secure b.buf (s.flashBytes b.addr b.len)
  let ended := fun (t : State) => t.bit Reg.BOOT_FLASH_STATUS_DONE = true ∧ t.bit Reg.BOOT_FLASH_STATUS_BUSY = false ∧
    t.bit Reg.BOOT_FLASH_CMD_GO = false ∧ t.boot.running = false
  (s.Admits w 0x1E 0 false →
    (s.bit Reg.BOOT_FLASH_STATUS_BUSY = true →
      Does (.flashRead w v) s s ((Reg.BOOT_FLASH_CMD_GO, 1) :: fields 0) ∧
      Does (.flashProgram w v) s s ((Reg.BOOT_FLASH_CMD_GO, 1) :: fields 1) ∧
      Does (.flashErase4k w v) s s ((Reg.BOOT_FLASH_CMD_GO, 1) :: fields 2) ∧
      Does (.flashErase64k w v) s s ((Reg.BOOT_FLASH_CMD_GO, 1) :: fields 3)) ∧
    (s.bit Reg.BOOT_FLASH_STATUS_BUSY = false →
      (refused 0 = true → Does (.flashRead w v) s s (bad 0)) ∧
      (refused 1 = true → Does (.flashProgram w v) s s (bad 1)) ∧
      (refused 2 = true → Does (.flashErase4k w v) s s (bad 2)) ∧
      (refused 3 = true → Does (.flashErase64k w v) s s (bad 3)) ∧
      (refused 0 = false → Does (.flashRead w v) s (taken 0) (busy 0)) ∧
      (refused 1 = false → Does (.flashProgram w v) s (taken 1) (busy 1)) ∧
      (refused 2 = false → Does (.flashErase4k w v) s (taken 2) (busy 2)) ∧
      (refused 3 = false → Does (.flashErase64k w v) s (taken 3) (busy 3)))) ∧
  (s.flashRuns = false → Does .flashCmdDone s s [] ∧ Does (.flashTimeout n) s s []) ∧
  (s.flashRuns = true →
    (b.op = 1 → s.startWaits b.buf b.len = true → Does .flashCmdDone s s []) ∧
    (b.op = 0 → wrote.1 = .ok →
      DoesThen .flashCmdDone s { (if s.startWaits b.buf b.len then
          wrote.2.queueWrite (fabricMaster bootPort .secure) b.buf b.len else wrote.2) with
          boot := { b with running := false, flashBus := b.flashBus ++
            [.serviceRead (s.hdr 8 1) (if b.flashMode = .octal then s.hdr 9 1 else 0) b.addr (s.hdr 7 1) b.len] } }
        [(Reg.BOOT_FLASH_STATUS_EVENTS, s.more Reg.BOOT_FLASH_STATUS_EVENTS), (Reg.BOOT_FLASH_STATUS_DONE, 1), (Reg.BOOT_FLASH_CMD_GO, 0),
         (Reg.BOOT_FLASH_STATUS_BUSY, 0)] (·.bboxAdvance)) ∧
    (b.op = 0 → Does (.flashTimeout n) s s []) ∧
    (b.op = 0 → region b.buf = .sram off → s.installed b.buf b.len = true →
      Leads .flashCmdDone s fun t => s.SramTook off (s.flashBytes b.addr b.len) t ∧ s.FlashSame t ∧ ended t) ∧
    (b.op = 1 → s.startWaits b.buf b.len = false → (s.readBytes .secure b.buf b.len).isSome = true →
      Leads .flashCmdDone s fun t => ended t ∧ s.FlashTook b.addr
        (List.zipWith (· &&& ·) (s.flashBytes b.addr b.len) ((s.readBytes .secure b.buf b.len).getD [])) t) ∧
    (b.op = 2 ∨ b.op = 3 →
      Leads .flashCmdDone s fun t => ended t ∧ s.FlashTook b.addr (List.replicate b.len 0xFF) t ∧
        (b.flashBus ++ (flashParts b.op b.addr b.len).flatMap fun p => [FlashOp.service (s.hdr 14 1),
          FlashOp.serviceWrite (s.hdr (if b.op = 2 then 11 else 12) 1) p.1 [], FlashOp.service (s.hdr 13 1)]).isPrefixOf t.boot.flashBus = true) ∧
    (1 ≤ b.op → b.op ≤ 3 →
      Leads (.flashTimeout n) s fun t => ended t ∧ t.bit Reg.BOOT_FLASH_STATUS_TIMEOUT = true ∧
        ∀ o : Nat, o < b.addr ∨ b.addr + b.len ≤ o → t.flashByte o = s.flashByte o))

/-- R4, R45, R46, R48, R65, R66, R67, R335, R405, R478: a guest's accesses to its memory and its registers, where nothing waits before
them. A 32-bit access to BAR0 acts on the page of the session bound to its slot, and one to BAR4 on the table of its function; one
that R4 does not perform raises fault input 0. An access to a function that is not available, or on a port that is not released,
reaches nothing; one to a slot with no session reads 0. One outside every window, with no quota, or a write to a read-only window is
refused with BAR2_ERR. One that its tokens do not cover waits, marked QUOTA_HELD; a write in a brownout waits. One that they cover
takes its cost, double for a mirrored write, and goes to memory's channels. Every microsecond credits each session's tokens, up to
the depth of its bucket. The readings and choices of the model behind it: log entry 44. -/
def Obligations.GuestMemoryPassesItsWindow : Prop := ∀ (s : State) (p : Fin 4) (f slot : Fin 16) (off : BitVec 34) (len : Nat) (bytes : List Byte) (k : Fin 16)
    (n : Fin 256) (o : BitVec 12) (x : BitVec 13) (v : Word),
  let g := p.val * 16 + f.val
  let r := s.func g
  let u : State := { s with nextReq := s.nextReq + 1, replies := [] }
  let open_ := s.funcAvailable p f && s.bit (Reg.GP_CTRL_RELEASE p)
  let port := 16 + 2 * p.val
  let units := s.get (Reg.SESS_QUOTA_UNITS n)
  let ro := s.bit (Reg.SESS_WIN_CTRL_GUEST_RO n k)
  let tokens := (s.ses n).tokens
  let held := fun (h : Nat) => [(Reg.SESS_PAGE_STATUS_QUOTA_HELD n, h), (Reg.SESS_STATUS_QUOTA_HELD n, h)]
  let at_ := 0x200000 * s.get (Reg.SESS_WIN_DEV_DEV n k) + (off.toNat - 0x200000 * s.get (Reg.SESS_WIN_GOFF_GOFF n k))
  let got := (s.readBytes .normal at_ len).getD []
  let wrote := s.writeMem .normal at_ bytes
  let m : Master := { kind := .guest, id := Fin.ofNat 64 p, session := n, world := .normal }
  let spend := fun (t : State) (cost : Nat) (a : List Reply) =>
    ({ t with nextReq := s.nextReq + 1, replies := a }.setFunc g r).setSes n { s.ses n with tokens := tokens - 1000000 * cost }
  let wcost := if s.bit (Reg.SESS_WIN_CTRL_MIRRORED n k) then 2 * bytes.length else bytes.length
  let short : List (Fld × Nat) := [({ addr := Reg.SESS_IRQ_STATUS n, lo := irqBar2Err, width := 1 }, 1),
    (Reg.SESS_PAGE_STATUS_EVENTS n, s.more (Reg.SESS_PAGE_STATUS_EVENTS n)), (Reg.SESS_PAGE_STATUS_BAR2_ERR n, 1)] ++ held 0
  (open_ = false → Does (.bar2Read p f slot off len) s u [] ∧ Does (.bar2Write p f slot off bytes) s u []) ∧
  (open_ = true → r.ingress = [] → s.boundSession p f slot = none →
    Does (.bar2Read p f slot off len) s ({ u with replies := [{ id := s.nextReq, data := List.replicate len 0 }] }.setFunc g r) [] ∧
    Does (.bar2Write p f slot off bytes) s ({ u with replies := [{ id := s.nextReq }] }.setFunc g r) []) ∧
  (open_ = true → r.ingress = [] → s.boundSession p f slot = some n.val →
    (bitOf (s.reg (Reg.SESS_IRQ_ENABLE n)).toNat irqBar2Err = false →
      (units = 0 ∨ s.windowOf n off.toNat len = none →
        Does (.bar2Read p f slot off len) s ({ u with replies := [{ id := s.nextReq, status := .unsupported }] }.setFunc g r) short) ∧
      (units = 0 ∨ s.windowOf n off.toNat bytes.length = none ∨ (s.windowOf n off.toNat bytes.length = some k.val ∧ ro = true) →
        Does (.bar2Write p f slot off bytes) s ({ u with replies := [{ id := s.nextReq, status := .unsupported }] }.setFunc g { r with urStatus := true }) short)) ∧
    (units ≠ 0 → s.windowOf n off.toNat len = some k.val →
      (tokens < 1000000 * len →
        Does (.bar2Read p f slot off len) s (u.setFunc g { r with ingress := [{ slot := slot, off := off.toNat, write := false, bytes := [], len := len, id := s.nextReq }] })
          (held 1)) ∧
      (1000000 * len ≤ tokens → s.readBytes .normal at_ len = some got →
        DoesThen (.bar2Read p f slot off len) s (spend s len []) (held 0) (·.queueRead m at_ len (some s.nextReq))) ∧
      (1000000 * len ≤ tokens → s.readMem .normal at_ len = .poison →
        Does (.bar2Read p f slot off len) s (spend s len [{ id := s.nextReq, status := .unsupported }]) (held 0))) ∧
    (units ≠ 0 → ro = false → s.windowOf n off.toNat bytes.length = some k.val →
      (s.bit Reg.PWR_WARN_STATUS_BROWNOUT = true ∨ tokens < 1000000 * wcost →
        Does (.bar2Write p f slot off bytes) s (u.setFunc g { r with ingress := [{ slot := slot, off := off.toNat, write := true, bytes := bytes, len := 0, id := s.nextReq }] })
          (if s.bit Reg.PWR_WARN_STATUS_BROWNOUT then [] else held 1)) ∧
      (s.bit Reg.PWR_WARN_STATUS_BROWNOUT = false → 1000000 * wcost ≤ tokens →
        (wrote.1 = .ok → DoesThen (.bar2Write p f slot off bytes) s (spend wrote.2 wcost []) (held 0) fun t =>
          (t.queueWrite m at_ bytes.length).hostReply { id := s.nextReq }) ∧
        (wrote.1 = .dropped → bitOf (s.reg (Reg.SESS_IRQ_ENABLE n)).toNat irqBar2Err = false →
          Does (.bar2Write p f slot off bytes) s (spend s wcost [{ id := s.nextReq }]) ((Reg.QOS_STATUS_DROPPED port, s.more (Reg.QOS_STATUS_DROPPED port)) :: short))))) ∧
  (let page : BarPlace := .page p f slot o
   let msix : BarPlace := .msix p f x
   let done := fun (t : State) (a : List Byte) => (t.hostReply { id := s.nextReq, data := a }).markHeld g
   let by_ := fun (q : Nat) => ({ kind := .guest, id := Fin.ofNat 64 (g / 16), session := Fin.ofNat 256 q, world := .normal } : Master)
   let at0 := 0x1000000000 + Reg.SESS_PAGE_ID n + o.toNat
   (open_ = false → ∀ b ∈ [page, msix], Does (.registerWrite (.bar b) bytes) s u [] ∧ Does (.fabricRead (.bar b) len) s u []) ∧
   (open_ = true → r.ingress = [] →
    (s.boundSession p f slot = none →
      Does (.registerWrite (.bar page) bytes) s ({ u with replies := [{ id := s.nextReq }] }.setFunc g r) [] ∧
      Does (.fabricRead (.bar page) len) s ({ u with replies := [{ id := s.nextReq, data := List.replicate len 0 }] }.setFunc g r) []) ∧
    (s.boundSession p f slot = some n.val →
      (wordSplit o.toNat bytes.length = none → exec (.registerWrite (.bar page) bytes) s =
        .next (done ((u.setFunc g r).noteRegAccess { addr := at0, type := 5, master := by_ n }) [])) ∧
      (wordSplit o.toNat len = none → exec (.fabricRead (.bar page) len) s =
        .next (done ((u.setFunc g r).noteRegAccess { addr := at0, type := 4, master := by_ n }) (List.replicate len 0))) ∧
      (o.toNat % 4 = 0 →
        exec (.registerWrite (.bar page) (leBytes 4 v.toNat)) s = .next (done ((u.setFunc g r).pageWrite n o.toNat v) []) ∧
        exec (.fabricRead (.bar page) 4) s = .next (done ((u.setFunc g r).pageReadEffect n o.toNat)
          (leBytes 4 ((u.setFunc g r).pageView n o.toNat).toNat)))) ∧
    (wordSplit x.toNat bytes.length = none → exec (.registerWrite (.bar msix) bytes) s =
      .next (done ((u.setFunc g r).noteRegAccess { addr := x.toNat, type := 5, master := by_ 0 }) [])) ∧
    (x.toNat % 4 = 0 → 0x200 ≤ x.toNat → exec (.registerWrite (.bar msix) (leBytes 4 v.toNat)) s = .next (done (u.setFunc g r) [])) ∧
    (x.toNat % 4 = 0 → x.toNat < 0x200 →
      exec (.registerWrite (.bar msix) (leBytes 4 v.toNat)) s = .next (done ((u.setFunc g
        { r with table := sput msixReset r.table (x.toNat / 4) (if x.toNat / 4 % 4 = 3 then v &&& 1 else v) }).msixFlush g) []) ∧
      exec (.fabricRead (.bar msix) 4) s = .next (done (u.setFunc g r) (leBytes 4 (r.word (x.toNat / 4)).toNat))))) ∧
  (∀ b ∈ [BarPlace.page p f slot o, .msix p f x], Leads (.registerWrite (.bar b) bytes) s fun t => s.nextReq + 1 ≤ t.nextReq ∧ t.pending = s.pending) ∧
  (s.heldFuncs = [] → SetsAnd .quotaCredit s [] fun t => t.replies = [] ∧ ∀ n < 256, t.ses n =
    if 2 ≤ n ∧ s.get (Reg.SESS_QUOTA_UNITS n) ≠ 0 then
      { s.ses n with tokens := min (s.bucketDepth n) ((s.ses n).tokens + s.get (Reg.SESS_QUOTA_UNITS n) * 67108864) }
    else s.ses n)

/-- R71 to R73, R75, R85, R88, R450, R480, R482: a screen's start and stop. While REMAP is set, the lowest pipe that is not WORN and
that no other screen names is stored in place of a WORN one. A start of a stopped screen is checked in the order of R72: it holds
its pipe until its start latch, or is refused with its code and RUN = 0. The start latch takes the pipe and the port, and the screen
runs from the next frame number on; it waits while the ACTIVE sextant is under test. On a running screen a write that changes
another field is ignored with WRITE_WHILE_ACTIVE, and RUN alone requests or withdraws the stop at the next latch. The readings and
choices of the model behind it: log entries 23, 56, 75. -/
def Obligations.ScreenStartsAndStops : Prop := ∀ (s : State) (n : Fin 8) (q : Fin 10) (w : World) (v : Word),
  let r := s.scr n
  let busy := s.running n || s.get (Reg.SCREEN_RETIME_STATE n) != 0
  let named := getBits v 8 4
  let stored := if s.bit Reg.WEAR_CFG_REMAP && decide (named < 10) && s.pipeWorn named then
      ((List.range 10).find? fun q => !s.pipeWorn q && !(List.range 8).any fun m => m != n.val && s.get (Reg.SCREEN_CTRL_PIPE m) == q).getD named
    else named
  let fields := fun (x : Word) (run : Nat) => [(Reg.SCREEN_CTRL_BPC30 n, getBits x 16 1), (Reg.SCREEN_CTRL_PIPE n, stored),
    (Reg.SCREEN_CTRL_PORT n, getBits x 4 3), (Reg.SCREEN_CTRL_RUN n, run)]
  let on := s.plainWrite (Reg.SCREEN_CTRL n) (setBits (withBit v 0) 8 4 stored)
  let err := on.startErr n
  let other := getBits v 16 1 != s.get (Reg.SCREEN_CTRL_BPC30 n) || getBits v 8 4 != s.get (Reg.SCREEN_CTRL_PIPE n) ||
    getBits v 4 3 != s.get (Reg.SCREEN_CTRL_PORT n)
  let ignored := [(Reg.IC_SRC_PENDING (17 + n), 1), (Reg.SCREEN_STATUS_EVENTS n, s.more (Reg.SCREEN_STATUS_EVENTS n)),
    (Reg.SCREEN_STATUS_WRITE_WHILE_ACTIVE n, 1)]
  let port := s.portOf n
  let p := q.val
  (s.Admits w 0x02 n false →
    (busy = false →
      (err = none → Does (.screenStart n w v) s (s.setScr n { r with starting := true, held := some stored }) (fields v 1)) ∧
      (s.SourceFree (17 + n) → ∀ c ∈ err, Does (.screenStart n w v) s (s.setScr n { r with starting := false, held := none })
        ([(Reg.IC_SRC_PENDING (17 + n), 1), (Reg.SCREEN_STATUS_EVENTS n, s.more (Reg.SCREEN_STATUS_EVENTS n)),
          (Reg.SCREEN_STATUS_CFG_ERR n, 1), (Reg.SCREEN_STATUS_ERR_CODE n, c)] ++ fields v 0)) ∧
      Does (.screenStop n w v) s (s.setScr n { r with starting := false, held := none }) (fields v 0)) ∧
    (busy = true →
      (other = true → s.SourceFree (17 + n) → Does (.screenStart n w v) s s ignored ∧ Does (.screenStop n w v) s s ignored) ∧
      (other = false → r.gap = true → Does (.screenStart n w v) s s [] ∧
        Does (.screenStop n w v) s (s.setScr n { r with gapStop := true }) [(Reg.SCREEN_CTRL_RUN n, 0)]) ∧
      (other = false → r.gap = false →
        Does (.screenStart n w v) s (s.setScr n { r with stopping := false }) [(Reg.SCREEN_CTRL_RUN n, 1)] ∧
        (s.get (Reg.SCREEN_RETIME_STATE n) ≠ 1 →
          Does (.screenStop n w v) s (s.setScr n { r with stopping := true }) [(Reg.SCREEN_CTRL_RUN n, 0)]) ∧
        (s.get (Reg.SCREEN_RETIME_STATE n) = 1 →
          Does (.screenStop n w v) s (s.setScr n { r with stopping := true })
            [(Reg.SCREEN_RETIME_GO n, 0), (Reg.SCREEN_RETIME_STATE n, 0), (Reg.SCREEN_RETIME_EVENTS n, s.more (Reg.SCREEN_RETIME_EVENTS n)),
             (Reg.SCREEN_RETIME_REFUSED n, 1), (Reg.SCREEN_STATUS_ERR_CODE n, 0xA), (Reg.SCREEN_CTRL_RUN n, 0)])))) ∧
  (s.activeUnderTest = true ∨ (r.gap = true ∧ r.gapDone = false) ∨ (r.gap = false ∧ (r.starting = false ∨ r.held = none)) →
    Does (.screenStartLatch n) s s []) ∧
  (s.activeUnderTest = false → r.gap = false → r.starting = true → r.held = some q.val →
    Leads (.screenStartLatch n) s fun t => t.running n = true ∧ (t.scr n).starting = false ∧ (t.scr n).held = none ∧
      t.frame n = (s.frame n + 1) % 2 ^ 32 ∧ t.get (Reg.SCREEN_LATCH_DRUM_DRUM n) = s.drumbeat % 2 ^ 32 ∧ t.screenOn port = some n.val ∧
      t.get (Reg.SCREEN_STATUS_LINE n) = (s.timing n).vActive ∧
      ((s.pipe p).mismatch = false → (s.pipe p).worn = false → (s.pipe p).watchFail = false → 1 ≤ s.pipeState p → s.pipeState p ≤ 2 →
        r.needPipe = false → t.pipeOf n = p ∧ t.pipeState p = 0 ∧ t.get (Reg.PIPE_STATUS_SCREEN p) = n.val)) ∧
  (s.activeUnderTest = false → r.gap = true → r.gapDone = true → r.gapStop = false →
    Leads (.screenStartLatch n) s fun t => (t.scr n).gap = false ∧ t.frame n = (s.frame n + 1) % 2 ^ 32 ∧
      t.get (Reg.SCREEN_LATCH_DRUM_DRUM n) = s.drumbeat % 2 ^ 32 ∧
      (r.halve = true → t.get (Reg.SCREEN_TIMING_BEAT_BEATS n) = 2 * s.get (Reg.SCREEN_TIMING_BEAT_BEATS n) % 32)) ∧
  (s.activeUnderTest = false → r.gap = true → r.gapDone = true → r.gapStop = true →
    Leads (.screenStartLatch n) s fun t => t.running n = false ∧ t.bit (Reg.SCREEN_CTRL_RUN n) = false ∧ t.frame n = s.frame n)

/-- R73, R75, R79, R83 to R88, R158 to R160, R204, R205: latches. A latch of a running screen raises FRAME by one, notes the drumbeat,
takes a pending output commit, and builds the hit map that replaces the old one later; at a stop latch the screen stops, and at one
that carries out a RETIME with a gap video stops and FRAME stays. A RETIME of a running screen whose staging set passes its checks
becomes pending, and its completion copies the set; others are refused with their code. Refresh lowering is enabled where R79
allows. The readings and choices of the model behind it: log entries 26, 75, 83, 114. -/
def Obligations.LatchTakesWhatIsDue : Prop := ∀ (s : State) (n : Fin 8) (w : World) (v : Word) (ok : Bool),
  let r := s.scr n
  let st := s.get (Reg.SCREEN_RETIME_STATE n)
  let cls := s.get (Reg.SCREEN_RETIME_CLASS n)
  let clocked := fun (t : State) => t.get (Reg.SCREEN_LATCH_DRUM_DRUM n) = s.drumbeat % 2 ^ 32
  let p := s.portOf n
  let kept := s.get (Reg.SCREEN_RETIME_REFUSED n) * (1 - getBits v 17 1)
  let done := s.get (Reg.SCREEN_RETIME_DONE n) * (1 - getBits v 16 1)
  let retimeErr := s.timingErr n (s.rtTiming n) (s.bit (Reg.DPO_LINK_STATUS_LINK_OK p)) (s.get (Reg.SCREEN_RT_LINK_RATE n)) (s.get (Reg.SCREEN_RT_LINK_LANES n))
  let refused := fun (code : Nat) => [(Reg.SCREEN_RETIME_GO n, 0), (Reg.SCREEN_RETIME_STATE n, 0),
    (Reg.SCREEN_RETIME_EVENTS n, s.more (Reg.SCREEN_RETIME_EVENTS n)), (Reg.SCREEN_RETIME_REFUSED n, 1), (Reg.SCREEN_STATUS_ERR_CODE n, code)]
  (s.running n = false ∨ r.gap = true → Does (.latch n) s s []) ∧
  (s.running n = true → r.gap = false → r.stopping = true →
    Leads (.latch n) s fun t => t.running n = false ∧ t.bit (Reg.SCREEN_CTRL_RUN n) = false ∧ t.frame n = s.frame n ∧ clocked t ∧
      t.screenOn p = none ∧ (t.scr n).stopping = false ∧ (t.scr n).sent = [] ∧ s.SameBytes t) ∧
  (s.running n = true → r.gap = false → r.stopping = false → st = 1 → cls ≠ 1 →
    Leads (.latch n) s fun t => t.running n = true ∧ t.frame n = s.frame n ∧ clocked t ∧ (t.scr n).gap = true ∧
      t.get (Reg.SCREEN_RETIME_STATE n) = 2 ∧ (cls = 3 → t.bit (Reg.DPO_LINK_STATUS_TRAINING p) = true ∧ t.bit (Reg.DPO_LINK_STATUS_LINK_OK p) = false)) ∧
  (s.running n = true → r.gap = false → r.stopping = false → st ≠ 1 → r.halve = false →
    (s.SourceFree (9 + n) → Leads (.latch n) s fun t => t.bit (Reg.IC_SRC_PENDING (9 + n)) = true) ∧
    Leads (.latch n) s fun t => t.running n = true ∧ t.frame n = (s.frame n + 1) % 2 ^ 32 ∧ clocked t ∧ ((t.scr n).hitNext.map (·.frame)) = some ((s.frame n + 1) % 2 ^ 32) ∧
      (s.get (Reg.SCREEN_OUT_STATUS_STATE n) = 1 → t.get (Reg.SCREEN_OUT_STATUS_STATE n) = 2 ∧
        t.get (Reg.SCREEN_OUT_FRAME_FRAME n) = (s.frame n + 1) % 2 ^ 32 ∧
        t.get (Reg.SCREEN_OUT_STATUS_ACTIVE_BANK n) = (if r.lutSwap then 1 - s.get (Reg.SCREEN_OUT_STATUS_ACTIVE_BANK n) else s.get (Reg.SCREEN_OUT_STATUS_ACTIVE_BANK n)) ∧
        (∀ i < 8, t.reg (Reg.SCREEN_OUT_CTRL n + 0x80 + 4 * i) = s.reg (Reg.SCREEN_OUT_CTRL n + 4 * i)))) ∧
  (s.Admits w 0x02 n false →
    (s.lowerOk n (getBits v 8 4) = true → Does (.lowerEnable n w v) s s
      [(Reg.SCREEN_LOWER_QUIET n, getBits v 16 8), (Reg.SCREEN_LOWER_MULT n, getBits v 8 4), (Reg.SCREEN_LOWER_EN n, 1)]) ∧
    (s.lowerOk n (getBits v 8 4) = false → s.SourceFree (17 + n) → Does (.lowerEnable n w v) s s
      [(Reg.IC_SRC_PENDING (17 + n), 1), (Reg.SCREEN_STATUS_EVENTS n, s.more (Reg.SCREEN_STATUS_EVENTS n)), (Reg.SCREEN_STATUS_CFG_ERR n, 1)]) ∧
    (st ≠ 0 → s.SourceFree (17 + n) → Does (.retimeRequest n w v) s s
      [(Reg.IC_SRC_PENDING (17 + n), 1), (Reg.SCREEN_STATUS_EVENTS n, s.more (Reg.SCREEN_STATUS_EVENTS n)), (Reg.SCREEN_STATUS_CFG_ERR n, 1),
       (Reg.SCREEN_STATUS_ERR_CODE n, 9), (Reg.SCREEN_RETIME_REFUSED n, kept), (Reg.SCREEN_RETIME_DONE n, done)]) ∧
    (st = 0 → s.running n = false → Does (.retimeRequest n w v) s s (refused 9 ++ [(Reg.SCREEN_RETIME_DONE n, done)])) ∧
    (st = 0 → s.running n = true → (s.port p).degrading = true →
      Does (.retimeRequest n w v) s s (refused 0xC ++ [(Reg.SCREEN_RETIME_DONE n, done)])) ∧
    (st = 0 → s.running n = true → (s.port p).degrading = false →
      (∀ c ∈ retimeErr, Does (.retimeRequest n w v) s s (refused c ++ [(Reg.SCREEN_RETIME_DONE n, done)])) ∧
      (retimeErr = none → s.bit (Reg.SCREEN_STATUS_LOWERED n) = false → Does (.retimeRequest n w v) s s
        [(Reg.SCREEN_RETIME_GO n, 1), (Reg.SCREEN_RETIME_STATE n, 1), (Reg.SCREEN_RETIME_CLASS n, s.retimeClass n),
         (Reg.SCREEN_RETIME_REFUSED n, kept), (Reg.SCREEN_RETIME_DONE n, done)]))) ∧
  (st ≠ 2 → Does (.retimeComplete n ok) s s []) ∧
  (st = 2 → cls ≠ 3 → Does (.retimeComplete n ok) s (s.setScr n { r with gapDone := true, quiet := 0 })
    ([(Reg.SCREEN_STATUS_LOWERED n, 0), (Reg.SCREEN_RETIME_GO n, 0), (Reg.SCREEN_RETIME_STATE n, 0),
      (Reg.SCREEN_RETIME_EVENTS n, s.more (Reg.SCREEN_RETIME_EVENTS n)), (Reg.SCREEN_RETIME_DONE n, 1),
      (Reg.SCREEN_CTRL_BPC30 n, s.get (Reg.SCREEN_RT_LINK_BPC30 n))] ++
     [0x10, 0x14, 0x18, 0x1C, 0x20, 0x24].map fun o => (whole (Machine.reg 2 n o), (s.reg (Machine.reg 2 n (o + 0x40))).toNat))) ∧
  (st = 2 → cls = 3 →
    Leads (.retimeComplete n ok) s fun t => (t.scr n).gapDone = true ∧ t.get (Reg.SCREEN_RETIME_STATE n) = 0 ∧
      t.bit (Reg.DPO_LINK_STATUS_LINK_OK p) = true ∧ (if ok then t.bit (Reg.SCREEN_RETIME_DONE n) = true ∧
        t.get (Reg.DPO_LINK_STATUS_LIVE_LANES p) = (if s.get (Reg.SCREEN_RT_LINK_LANES n) = 3 then 2 else s.get (Reg.SCREEN_RT_LINK_LANES n)) ∧
        t.get (Reg.DPO_LINK_STATUS_LIVE_RATE p) = s.get (Reg.SCREEN_RT_LINK_RATE n)
       else t.bit (Reg.SCREEN_RETIME_REFUSED n) = true ∧ t.get (Reg.SCREEN_STATUS_ERR_CODE n) = 0xB ∧
        t.get (Reg.DPO_LINK_STATUS_LIVE_RATE p) = s.get (Reg.DPO_LINK_STATUS_LIVE_RATE p))) ∧
  (s.Admits w 0x02 n true →
    (s.get (Reg.SCREEN_OUT_STATUS_STATE n) = 1 → Does (.outCommitGo n w v) s s
      [(Reg.SCREEN_OUT_STATUS_EVENTS n, s.more (Reg.SCREEN_OUT_STATUS_EVENTS n)), (Reg.SCREEN_OUT_STATUS_WRITE_WHILE_PENDING n, 1)]) ∧
    (s.get (Reg.SCREEN_OUT_STATUS_STATE n) ≠ 1 →
      Does (.outCommitGo n w v) s (s.setScr n { r with lutSwap := bitOf v.toNat 1 }) [(Reg.SCREEN_OUT_STATUS_STATE n, 1)])) ∧
  (r.hitNext = none → Does (.hitMapSwap n) s s []) ∧
  (∀ m ∈ r.hitNext, Does (.hitMapSwap n) s (s.setScr n { r with hit := some m, hitNext := none }) [])

/-- R69, R78, R92, R118, R119, R184 to R187, R193, R199 to R202: a frame on its way. Scan-out of a line shows its number in LINE and
sends the line that was composed for it, where the port sends video, as it does from a frame's start with its link up: on a screen
with no protected rectangle, no fault and no harmless state, as the pipe composed it. Inside a protected rectangle that shows no
harbour image the port sends the sextant's value of every pixel that it verifies, and the pipe's elsewhere; the first pixel of a
frame where the pipe hands over another value than the sextant's raises PIPE_MISMATCH and has the pipe replaced. The next line, and
the line eight ahead where no data of it waits for a side's start, are then composed. A layer's late line is flagged and is a breach
of rank 4. At the start of a fetch the ACTIVE sextant takes the frame, or every live rectangle shows the harbour image where there
is none. A watched frame whose signatures agree is counted, one that was disturbed is void, and a difference raises the fault of
both pipes. The readings and choices of the model behind it: log entries 26, 48, 73, 83, 117. -/
def Obligations.ScanOutSendsComparedLines : Prop := ∀ (s : State) (n : Fin 8) (line : BitVec 14) (last bare late : Bool) (ll : LateLayer) (k : Fin 4)
    (ns yi : Nat) (px : List (Word × Bool)) (diff : Word) (fx : BitVec 13) (fw : Word),
  let r := s.scr n
  let t0 := s.timing n
  let y := line.toNat
  let idle := !s.running n || r.gap
  let starts := fun (i : Nat) => ((s.layersOf n).any fun l => s.layStarts l i) || s.startRects n i
  let video := if y = 0 then s.bit (Reg.DPO_LINK_STATUS_LINK_OK (s.portOf n)) else (s.port (s.portOf n)).video
  let c := r.watch.getD { pipe := 0, lane := 0, frame := 0 }
  (idle = true → Does (.scanoutLine n line last [ll] bare ns yi []) s s [] ∧ Does (.pipeFetchStart n) s s []) ∧
  (s.running n = true → r.gap = false →
    (Leads (.scanoutLine n line last [] bare ns yi []) s fun t => t.get (Reg.SCREEN_STATUS_LINE n) = y ∧ t.frame n = s.frame n ∧ s.SameBytes t) ∧
    (t0.vActive ≤ y → Leads (.scanoutLine n line last [] bare ns yi []) s fun t => (t.scr n).sent = []) ∧
    (y < t0.vActive → s.liveRects n = [] → s.whole n = .none → r.composed.find? (·.1 == y) = some (y, px) →
      (video = true → Leads (.scanoutLine n line last [] bare ns yi []) s fun t => (t.scr n).sent = px.map (·.1)) ∧
      (video = false → Leads (.scanoutLine n line last [] bare ns yi []) s fun t => (t.scr n).sent = [])) ∧
    (let pipe := fun (x : Nat) => if x = fx.toNat then fw else (px.getD x (0, false)).1
     let port := s.portOf n
     let live := fun (x : Nat) => match s.rectAt n x y with | some k => (s.rectReason n k y).isNone | none => false
     let verified := fun (x : Nat) => match s.rectAt n x y with
       | some k => if live x && r.mode != 2 then s.sextantPixel n k x y else none
       | none => none
     let differs := (List.range px.length).filter fun x => (verified x).any fun w => !(px.getD x (0, false)).2 && w != pipe x
     y < t0.vActive → s.whole n = .none → r.composed.find? (·.1 == y) = some (y, px) → video = true →
      (Leads (.scanoutLine n line last [] bare ns yi [(fx, fw)]) s fun t => (t.scr n).sent.length = px.length ∧ ∀ x < px.length,
        ((verified x).isSome = true → some ((t.scr n).sent.getD x 0) = verified x) ∧
        (s.rectAt n x y = none ∨ (live x = true ∧ r.mode = 2) → (t.scr n).sent.getD x 0 = pipe x)) ∧
      (differs = [] ∨ r.mode ≠ 0 → Leads (.scanoutLine n line last [] bare ns yi [(fx, fw)]) s fun t =>
        t.reg (Reg.DPO_CMP_STATUS port) = s.reg (Reg.DPO_CMP_STATUS port) ∧ t.reg (Reg.DPO_CMP_COUNT port) = s.reg (Reg.DPO_CMP_COUNT port) ∧
        t.reg (Reg.DPO_CMP_FIRST port) = s.reg (Reg.DPO_CMP_FIRST port) ∧ (t.scr n).mode = r.mode) ∧
      (differs ≠ [] → r.mode = 0 → Leads (.scanoutLine n line last [] bare ns yi [(fx, fw)]) s fun t =>
        t.bit (Reg.DPO_CMP_STATUS_PIPE_MISMATCH port) = true ∧ (t.scr n).mode = 1 ∧ (t.scr n).mismatch = true ∧ (t.scr n).needPipe = true ∧
        t.get (Reg.DPO_CMP_COUNT_MISMATCH_FRAMES port) = s.more (Reg.DPO_CMP_COUNT_MISMATCH_FRAMES port) ∧
        (t.pipe (s.pipeOf n)).mismatch = true ∧ (s.pipeOf n < 10 → t.bit (Reg.FLT_IN_STATUS_CAUSE (32 + s.pipeOf n)) = true) ∧
        (s.bit (Reg.DPO_CMP_STATUS_PIPE_MISMATCH port) = false → t.get (Reg.DPO_CMP_FIRST_LINE port) = y ∧
          t.get (Reg.DPO_CMP_FIRST_X port) = differs.headD 0 % 2 ^ 13 ∧ t.get (Reg.DPO_CMP_FIRST_FRAME_FRAME port) = s.frame n))) ∧
    (y + 1 < t0.vActive → Leads (.scanoutLine n line last [] bare ns yi []) s fun t =>
      (t.scr n).composed.any (·.1 == y + 1) = true ∧ (t.scr n).composed.any (·.1 == y) = false ∧
      (r.composed.any (·.1 == y + 1) = false →
        ((t.scr n).composed.find? (·.1 == y + 1)).map (·.2.length) = some t0.hActive) ∧
      (y + 8 < t0.vActive → starts (y + 8) = false → (t.scr n).composed.any (·.1 == y + 8) = true)) ∧
    (y + 1 < t0.vActive → (s.layersOf n).contains ll.layer.val = true → s.LogRoom →
      Leads (.scanoutLine n line last [ll] bare ns yi []) s fun t => t.bit (Reg.LAYER_STATUS_LATE_LINE ll.layer) = true ∧
        s.get (Reg.SYS_BREACH_COUNT 4) ≤ t.get (Reg.SYS_BREACH_COUNT 4) ∧ s.log.queue.length < t.log.queue.length) ∧
    (Leads (.pipeFetchStart n) s fun t => (t.scr n).sextant = (if s.liveRects n = [] then none else s.activeSextant) ∧
      (t.scr n).compared = true ∧ (t.scr n).mode = 0 ∧ (t.scr n).mismatch = false ∧ (t.scr n).tiles = [] ∧
      (t.scr n).composed.map (·.1) = (if starts 0 then [] else [0]) ∧ (t.scr n).ahead = 1 ∧ s.SameBytes t ∧
      (∀ x < 2, bitOf (t.get (Reg.SXT_STATUS_SCREENS x)) n = decide (s.activeSextant = some x)) ∧
      (s.liveRects n = [] ∨ s.activeSextant ≠ none → (t.scr n).causes = r.causes) ∧
      (k.val ∈ s.liveRects n → s.activeSextant = none → (t.scr n).causes.any (fun c => c.rect == k.val && c.reason == 5) = true))) ∧
  (r.watch = none → Does (.watchCompare n diff late) s s []) ∧
  (r.watch.isSome = true → c.sig = none → Does (.watchCompare n diff late) s s []) ∧
  (r.watch.isSome = true → c.sig ≠ none →
    (c.bad = true ∨ late = true → Leads (.watchCompare n diff late) s fun t => (t.scr n).watch = none ∧
      t.get (Reg.SCREEN_WATCH_VOIDS n) = s.more (Reg.SCREEN_WATCH_VOIDS n) ∧ t.get (Reg.SCREEN_WATCH_COMPARED n) = s.get (Reg.SCREEN_WATCH_COMPARED n)) ∧
    (c.bad = false → late = false → diff = 0 → Leads (.watchCompare n diff late) s fun t => (t.scr n).watch = none ∧
      t.get (Reg.SCREEN_WATCH_COMPARED n) = s.more (Reg.SCREEN_WATCH_COMPARED n) ∧ t.get (Reg.SCREEN_WATCH_LAST_FRAME n) = c.frame % 2 ^ 32 ∧
      t.get (Reg.SCREEN_WATCH_MISMATCH n) = s.get (Reg.SCREEN_WATCH_MISMATCH n)) ∧
    (c.bad = false → late = false → diff ≠ 0 → s.running n = true → s.pipeOf n < 10 → c.pipe < 10 →
      Leads (.watchCompare n diff late) s fun t => t.bit (Reg.SCREEN_WATCH_MISMATCH n) = true ∧
        t.bit (Reg.FLT_IN_STATUS_CAUSE (42 + s.pipeOf n)) = true ∧ t.bit (Reg.FLT_IN_STATUS_CAUSE (42 + c.pipe)) = true ∧
        (t.pipe (s.pipeOf n)).watchFail = true ∧ (t.scr n).needPipe = true))

/-- R89 to R96: a port's link. TRAIN on a port that no screen uses starts training at RATE and LANES, unless DP mode lacks the rate; it
is ignored while its screen runs. Training that ends well reports LINK_OK with the live rate and lanes; one that fails goes on with
the next configuration of R91, or reports TRAIN_FAIL. An IRQ_HPD with a lost lane retrains the link, the first time, and begins a
degrade the second; others are reported. A degrade ends on a working configuration with DEGRADED and its fault, or LINK_UNUSABLE
stops the screen (that FALLBACK = 0 keeps a degrade from a change of rate or lanes is the model's reading, log entry 29). An
unplugged port is down, with UNPLUG and its note; a replugged one, whose sink supports TPS3 or does not, retrains at its last
parameters with AUTO_RELINK. Training takes TPS4 at 8.1 Gb/s, else TPS3, or TPS2 for a sink without TPS3. The readings and choices
of the model behind it: log entries 27, 28, 73, 76, 104. -/
def Obligations.PortLinkTrainsDegradesAndRelinks : Prop := ∀ (s : State) (p : Fin 8) (w : World) (v : Word) (ok lane0 lane1 tps3 : Bool) (lost : BitVec 4),
  let r := s.port p
  let raised := fun (flag : Fld) => [(Reg.IC_SRC_PENDING (25 + p), 1), (Reg.DPO_LINK_STATUS_EVENTS p, s.more (Reg.DPO_LINK_STATUS_EVENTS p)), (flag, 1)]
  let training := [(Reg.DPO_LINK_CTRL_TRAIN p, 1), (Reg.DPO_LINK_STATUS_TRAINING p, 1), (Reg.DPO_LINK_STATUS_LINK_OK p, 0)]
  let down := [(Reg.DPO_LINK_STATUS_LINK_OK p, 0), (Reg.DPO_LINK_CTRL_TRAIN p, 0), (Reg.DPO_LINK_STATUS_TRAINING p, 0)]
  let ends := fun (k : Nat) => (Reg.FLT_IN_STATUS_TRANSIENT k, if s.bit (Reg.FLT_IN_STATUS_CAUSE k) then 1 else s.get (Reg.FLT_IN_STATUS_TRANSIENT k))
  let up := fun (rate lanes : Nat) => [ends (96 + p), (Reg.DPO_LINK_STATUS_LIVE_LANES p, lanes), (Reg.DPO_LINK_STATUS_LIVE_RATE p, rate),
    (Reg.DPO_LINK_STATUS_LINK_OK p, 1), (Reg.DPO_LINK_CTRL_TRAIN p, 0), (Reg.DPO_LINK_STATUS_TRAINING p, 0)]
  let rate := getBits v 0 3
  let lanes := if getBits v 4 2 = 3 then 2 else getBits v 4 2
  let fields := [(Reg.DPO_LINK_CTRL_LANES p, getBits v 4 2), (Reg.DPO_LINK_CTRL_RATE p, rate)]
  let has := s.bit (Reg.DPO_CTRL_EDP p) || rate == 0 || rate == 3 || rate == 6 || rate == 7
  let trained := ok && s.bit (Reg.DPO_CTRL_EN p)
  let down0 := !s.bit (Reg.DPO_LINK_STATUS_LINK_OK p)
  let live := (s.get (Reg.DPO_LINK_STATUS_LIVE_RATE p), s.get (Reg.DPO_LINK_STATUS_LIVE_LANES p))
  let used := laneCount live.2
  let bad := (List.range used).filter fun i => lost.getLsbD i
  let next := s.nextTry p
  let first := next.getD (0, 0)
  let keep := if lane0 && lane1 && live.2 != 0 then 1 else 0
  let tries := fun (q : PortState) (rate lanes : Nat) =>
    { q with rate := rate, lanes := lanes, pattern := if rate = 7 then 4 else if q.tps3 then 3 else 2, video := false }
  let pat := fun (rate : Nat) => if rate = 7 then 4 else if r.tps3 then 3 else 2
  let may := fun (rate : Nat) => s.bit (Reg.DPO_CTRL_FALLBACK p) || (rate == live.1 && keep == live.2)
  let found := s.lowestRate p ((s.screenOn p).map s.timing) keep
  let halvable := s.bit (Reg.DPO_CTRL_HALVE_OK p)
  let on := (s.screenOn p).getD 0
  let t0 := s.timing on
  let halved := s.lowestRate p (some { t0 with beats := 2 * t0.beats }) keep
  (s.Admits w 0x04 p false → s.SourceFree (25 + p) →
    (s.screenOn p ≠ none → Does (.dpTrain p w v) s s (raised (Reg.DPO_LINK_STATUS_WRITE_WHILE_ACTIVE p))) ∧
    (s.screenOn p = none → has = false → Does (.dpTrain p w v) s s (raised (Reg.DPO_LINK_STATUS_CFG_ERR p) ++ fields)) ∧
    (s.screenOn p = none → has = true → Does (.dpTrain p w v) s
      (s.setPort p (tries { r with asked := (rate, lanes), failed := [], why := .soft } rate lanes)) (training ++ fields))) ∧
  (r.why = .soft ∨ r.why = .relink →
    (trained = true → down0 = true → Does (.dpTrainDone p ok) s (s.setPort p { r with why := .none, last := some (r.rate, r.lanes), pattern := pat r.rate })
      (if r.why = .soft ∧ s.bit (Reg.DPO_LINK_STATUS_DEGRADED p) = true then
        [ends (104 + p), (Reg.DPO_LINK_STATUS_DEGRADED p, 0)] ++ up r.rate r.lanes else up r.rate r.lanes)) ∧
    (trained = false → s.bit (Reg.DPO_CTRL_FALLBACK p) = true → next.isSome = true →
      Does (.dpTrainDone p ok) s (s.setPort p (tries r first.1 first.2)) training) ∧
    (trained = false → s.bit (Reg.DPO_CTRL_FALLBACK p) = false ∨ next = none → s.SourceFree (25 + p) →
      Does (.dpTrainDone p ok) s (s.setPort p { r with why := .none, video := false }) (raised (Reg.DPO_LINK_STATUS_TRAIN_FAIL p) ++ down))) ∧
  (r.why = .irq →
    (trained = true → down0 = true → Does (.dpTrainDone p ok) s (s.setPort p { r with why := .none, pattern := pat r.rate }) (up r.rate r.lanes)) ∧
    (trained = false → exec (.dpTrainDone p ok) s = .next (s.degradeStart p))) ∧
  (r.why = .none ∨ r.why = .degrade ∨ r.why = .retime → Does (.dpTrainDone p ok) s s []) ∧
  (s.bit (Reg.DPO_LINK_STATUS_HPD p) = false → Does (.hpdIrq p lost) s s [] ∧ Does (.hpdUnplug p) s s []) ∧
  (s.bit (Reg.DPO_LINK_STATUS_HPD p) = true →
    (s.SourceFree (25 + p) → down0 = true ∨ bad = [] → Does (.hpdIrq p lost) s s (raised (Reg.DPO_LINK_STATUS_IRQ_HPD p))) ∧
    (down0 = false → bad ≠ [] → bad.any r.failed.contains = false →
      Does (.hpdIrq p lost) s (s.setPort p (tries { r with failed := r.failed ++ bad, why := .irq } live.1 live.2)) training) ∧
    (down0 = false → bad.any r.failed.contains = true →
      Leads (.hpdIrq p lost) s fun t => (t.port p).degrading = true ∧ (t.port p).why = .degrade ∧ t.bit (Reg.DPO_LINK_STATUS_TRAINING p) = true ∧
        t.bit (Reg.DPO_LINK_STATUS_LINK_OK p) = false ∧ (s.screenOn p ≠ none → s.get (Reg.SCREEN_RETIME_STATE on) = 1 →
          t.bit (Reg.SCREEN_RETIME_REFUSED on) = true ∧ t.get (Reg.SCREEN_STATUS_ERR_CODE on) = 0xC)) ∧
    (s.SourceFree (25 + p) →
      DoesThen (.hpdUnplug p) s (s.setPort p { r with degrading := false, video := false, why := if r.why = .retime then .retime else .none })
        (raised (Reg.DPO_LINK_STATUS_UNPLUG p) ++ (Reg.DPO_LINK_STATUS_HPD p, 0) :: down) (·.raiseFault (112 + p))) ∧
    Does (.hpdReplug { port := p, tps3 := tps3 }) s s []) ∧
  (s.bit (Reg.DPO_LINK_STATUS_HPD p) = false →
    (r.last = none ∨ s.bit (Reg.DPO_CTRL_AUTO_RELINK p) = false ∨ r.why ≠ .none →
      Does (.hpdReplug { port := p, tps3 := tps3 }) s (s.setPort p { r with awaitHpd := false, tps3 := tps3 }) [ends (112 + p), (Reg.DPO_LINK_STATUS_HPD p, 1)]) ∧
    (s.bit (Reg.DPO_CTRL_AUTO_RELINK p) = true → r.why = .none → ∀ c ∈ r.last,
      Does (.hpdReplug { port := p, tps3 := tps3 }) s (s.setPort p (tries { r with awaitHpd := false, asked := c, why := .relink, tps3 := tps3 } c.1 c.2))
        (training ++ [ends (112 + p), (Reg.DPO_LINK_STATUS_HPD p, 1)]))) ∧
  (r.degrading = false ∨ r.why ≠ .degrade → Does (.degradeDone p lane0 lane1) s s []) ∧
  (r.degrading = true → r.why = .degrade → lane0 = false ∨ found.any (fun c => !may c) = true ∨ (found = none ∧ halvable = false) →
    Leads (.degradeDone p lane0 lane1) s fun t => t.bit (Reg.DPO_LINK_STATUS_LINK_OK p) = false ∧ (t.port p).degrading = false ∧
      t.bit (Reg.FLT_IN_STATUS_CAUSE (96 + p)) = true ∧ (s.screenOn p ≠ none → t.running on = false)) ∧
  (r.degrading = true → r.why = .degrade → lane0 = true → ∀ c ∈ found, may c = true →
    Leads (.degradeDone p lane0 lane1) s fun t => t.bit (Reg.DPO_LINK_STATUS_LINK_OK p) = true ∧ t.bit (Reg.DPO_LINK_STATUS_DEGRADED p) = true ∧
      t.get (Reg.DPO_LINK_STATUS_LIVE_RATE p) = c % 8 ∧ t.get (Reg.DPO_LINK_STATUS_LIVE_LANES p) = keep ∧ (t.port p).degrading = false ∧ (t.port p).pattern = pat c ∧
      (t.port p).last = some (c, keep) ∧ t.bit (Reg.FLT_IN_STATUS_CAUSE (104 + p)) = true) ∧
  (r.degrading = true → r.why = .degrade → lane0 = true → found = none → halvable = true → s.screenOn p ≠ none →
    (2 * t0.beats ≤ 16 → ∀ c ∈ halved, may c = true → Leads (.degradeDone p lane0 lane1) s fun t => t.bit (Reg.DPO_LINK_STATUS_LINK_OK p) = true ∧
      t.bit (Reg.DPO_LINK_STATUS_DEGRADED p) = true ∧ t.get (Reg.DPO_LINK_STATUS_LIVE_RATE p) = c % 8 ∧ (t.scr on).halve = true ∧ (t.port p).degrading = true ∧
      t.running on = s.running on) ∧
    (16 < 2 * t0.beats ∨ halved.all (fun c => !may c) = true → Leads (.degradeDone p lane0 lane1) s fun t => t.bit (Reg.DPO_LINK_STATUS_LINK_OK p) = false ∧
      t.running on = false))

/-- R97, R98: the AUX and I2C masters of a port. A command sets BUSY with its request, address and length; one that comes while a
transaction is queued or runs is ignored with CFG_ERR. A transaction ends with its reply, BYTES and DONE, and a read leaves its
bytes in the data registers from the first on; a DEFER ends an AUX transaction after its seventh retry alone; without a reply
TIMEOUT is set. While the port trains, its AUX transaction waits. The readings and choices of the model behind it: log entry 103. -/
def Obligations.PortSideChannelTransactions : Prop := ∀ (s : State) (p : Fin 8) (w : World) (v : Word) (reply : Fin 3) (moved : Fin 17) (data : List Byte),
  let r := s.port p
  let refused := [(Reg.IC_SRC_PENDING (25 + p), 1), (Reg.DPO_LINK_STATUS_EVENTS p, s.more (Reg.DPO_LINK_STATUS_EVENTS p)),
    (Reg.DPO_LINK_STATUS_CFG_ERR p, 1)]
  let auxStart := fun (req : Nat) => [(Reg.DPO_AUX_STATUS_BUSY p, 1), (Reg.DPO_AUX_CMD_REQ p, req), (Reg.DPO_AUX_CMD_ADDR p, getBits v 8 20),
    (Reg.DPO_AUX_CMD_LEN p, getBits v 0 4)]
  let i2cStart := fun (req : Nat) => [(Reg.DPO_I2C_STATUS_BUSY p, 1), (Reg.DPO_I2C_CMD_REQ p, req), (Reg.DPO_I2C_CMD_ADDR p, getBits v 8 7),
    (Reg.DPO_I2C_CMD_LEN p, getBits v 0 4)]
  let auxBusy := s.bit (Reg.DPO_AUX_STATUS_BUSY p)
  let i2cBusy := s.bit (Reg.DPO_I2C_STATUS_BUSY p)
  let free := auxBusy && !s.bit (Reg.DPO_LINK_STATUS_TRAINING p)
  let reads := s.get (Reg.DPO_AUX_CMD_REQ p) == 1 || s.get (Reg.DPO_AUX_CMD_REQ p) == 5 || s.get (Reg.DPO_AUX_CMD_REQ p) == 9
  let ireads := s.get (Reg.DPO_I2C_CMD_REQ p) != 0
  let most := min moved.val (s.get (Reg.DPO_AUX_CMD_LEN p) + 1)
  let imost := min moved.val (s.get (Reg.DPO_I2C_CMD_LEN p) + 1)
  let final := reply.val != 2 || r.aux.defers == 7
  let auxDone := fun (n : Nat) => [(Reg.DPO_AUX_STATUS_EVENTS p, s.more (Reg.DPO_AUX_STATUS_EVENTS p)), (Reg.DPO_AUX_STATUS_DONE p, 1),
    (Reg.DPO_AUX_STATUS_BUSY p, 0), (Reg.DPO_AUX_STATUS_BYTES p, n), (Reg.DPO_AUX_STATUS_REPLY p, reply.val)]
  let i2cDone := fun (n : Nat) => [(Reg.DPO_I2C_STATUS_EVENTS p, s.more (Reg.DPO_I2C_STATUS_EVENTS p)), (Reg.DPO_I2C_STATUS_DONE p, 1),
    (Reg.DPO_I2C_STATUS_BUSY p, 0), (Reg.DPO_I2C_STATUS_BYTES p, n), (Reg.DPO_I2C_STATUS_REPLY p, reply.val)]
  let into := fun (base : Nat → Nat) (n : Nat) => ((data.take n).zipIdx.map fun b =>
    (({ addr := base (b.2 / 4), lo := 8 * (b.2 % 4), width := 8 } : Fld), b.1.toNat)).reverse
  (s.Admits w 0x04 p false →
    (auxBusy = true → s.SourceFree (25 + p) →
      Does (.auxNativeWrite p w v) s s refused ∧ Does (.auxNativeRead p w v) s s refused ∧ Does (.auxI2cWrite p w v) s s refused ∧
      Does (.auxI2cRead p w v) s s refused ∧ Does (.auxI2cWriteMot p w v) s s refused ∧ Does (.auxI2cReadMot p w v) s s refused) ∧
    (auxBusy = false →
      Does (.auxNativeWrite p w v) s (s.setPort p { r with aux := {} }) (auxStart 8) ∧
      Does (.auxNativeRead p w v) s (s.setPort p { r with aux := {} }) (auxStart 9) ∧
      Does (.auxI2cWrite p w v) s (s.setPort p { r with aux := {} }) (auxStart 0) ∧
      Does (.auxI2cRead p w v) s (s.setPort p { r with aux := {} }) (auxStart 1) ∧
      Does (.auxI2cWriteMot p w v) s (s.setPort p { r with aux := {} }) (auxStart 4) ∧
      Does (.auxI2cReadMot p w v) s (s.setPort p { r with aux := {} }) (auxStart 5)) ∧
    (i2cBusy = true → s.SourceFree (25 + p) →
      Does (.i2cWrite p w v) s s refused ∧ Does (.i2cRead p w v) s s refused ∧ Does (.i2cWriteRead p w v) s s refused) ∧
    (i2cBusy = false →
      Does (.i2cWrite p w v) s s (i2cStart 0) ∧ Does (.i2cRead p w v) s s (i2cStart 1) ∧ Does (.i2cWriteRead p w v) s s (i2cStart 2))) ∧
  (free = true → r.aux.defers < 7 → Does (.auxDeferRetry p) s (s.setPort p { r with aux := { defers := r.aux.defers + 1 } }) []) ∧
  (free = false ∨ 7 ≤ r.aux.defers → Does (.auxDeferRetry p) s s []) ∧
  (free = false ∨ final = false → Does (.auxTransactionEnd p false reply moved data) s s []) ∧
  (free = true → final = true →
    (reads = false → Does (.auxTransactionEnd p false reply moved data) s s (auxDone most)) ∧
    (reads = true → Does (.auxTransactionEnd p false reply moved data) s s
      (auxDone (data.take most).length ++ into (Reg.DPO_AUX_DATA p) most))) ∧
  (i2cBusy = false ∨ reply.val = 2 → Does (.auxTransactionEnd p true reply moved data) s s []) ∧
  (i2cBusy = true → reply.val ≠ 2 →
    (ireads = false → Does (.auxTransactionEnd p true reply moved data) s s (i2cDone imost)) ∧
    (ireads = true → Does (.auxTransactionEnd p true reply moved data) s s
      (i2cDone (data.take imost).length ++ into (Reg.DPO_I2C_DATA p) imost))) ∧
  (free = true → Does (.auxTimeout p false) s s
    [(Reg.DPO_AUX_STATUS_EVENTS p, s.more (Reg.DPO_AUX_STATUS_EVENTS p)), (Reg.DPO_AUX_STATUS_TIMEOUT p, 1), (Reg.DPO_AUX_STATUS_BUSY p, 0)]) ∧
  (free = false → Does (.auxTimeout p false) s s []) ∧
  (i2cBusy = true → Does (.auxTimeout p true) s s
    [(Reg.DPO_I2C_STATUS_EVENTS p, s.more (Reg.DPO_I2C_STATUS_EVENTS p)), (Reg.DPO_I2C_STATUS_TIMEOUT p, 1), (Reg.DPO_I2C_STATUS_BUSY p, 0)]) ∧
  (i2cBusy = false → Does (.auxTimeout p true) s s [])

/-- R99 to R103: a panel's power and backlight. Power-on raises PNL_VDD_EN at once where the panel has rested, or is held until it has;
a panel that does not raise HPD in time sets SEQ_ERR and stays powered. Power-off is refused while the port's screen runs; it takes
the backlight low at once, then the link stops, and then PNL_VDD_EN goes low. The backlight goes high after T_VIDEO_BL of valid
video where it is requested and no reaction holds it released. A PWM period takes the period within its range, the duty and the
polarity. The readings and choices of the model behind it: log entries 12, 27. -/
def Obligations.PanelPowersInSequence : Prop := ∀ (s : State) (p : Fin 8) (w : World) (v : Word) (rested : Bool),
  let r := s.port p
  let was := s.bit (Reg.DPO_PANEL_PANEL_ON p)
  let vdd := s.bit (Reg.DPO_PANEL_VDD_LIVE p)
  let fields := fun (bl on : Nat) => [(Reg.DPO_PANEL_SEQ_ERR p, if getBits v 8 1 = 1 then 0 else s.get (Reg.DPO_PANEL_SEQ_ERR p)),
    (Reg.DPO_PANEL_BL_ON p, bl), (Reg.DPO_PANEL_PANEL_ON p, on)]
  let onFields := if getBits v 1 1 = 1 then fields 1 1 else (Reg.DPO_PANEL_BL_EN_LIVE p, 0) :: fields 0 1
  let duty := s.get (Reg.DPO_BL_DUTY_DUTY p)
  let video := s.bit (Reg.DPO_LINK_STATUS_LINK_OK p) && r.video && (s.screenOn p).isSome
  let held := s.bit Reg.FLT_STATUS_C3 || (List.range 8).any fun n => s.portOf n == p.val && (s.scr n).c2.isSome
  (s.Admits w 0x04 p false →
    (was = true ∨ (vdd = true ∧ r.down = 0) → Does (.panelOn p w v rested) s s onFields) ∧
    (was = false → r.down = 0 → vdd = false → rested = true ∨ r.wentLow = false →
      Does (.panelOn p w v rested) s (s.setPort p { r with powerHeld := false, awaitHpd := !s.bit (Reg.DPO_LINK_STATUS_HPD p) })
        ((Reg.DPO_PANEL_VDD_LIVE p, 1) :: onFields)) ∧
    (was = false → r.down ≠ 0 ∨ (vdd = false ∧ rested = false ∧ r.wentLow = true) →
      Does (.panelOn p w v rested) s (s.setPort p { r with powerHeld := true }) onFields) ∧
    (s.screenOn p ≠ none → s.SourceFree (25 + p) → Does (.panelOff p w v) s s
      [(Reg.IC_SRC_PENDING (25 + p), 1), (Reg.DPO_LINK_STATUS_EVENTS p, s.more (Reg.DPO_LINK_STATUS_EVENTS p)),
       (Reg.DPO_LINK_STATUS_WRITE_WHILE_ACTIVE p, 1)]) ∧
    (s.screenOn p = none →
      (was = false → Does (.panelOff p w v) s s ((Reg.DPO_PANEL_BL_EN_LIVE p, 0) :: fields (getBits v 1 1) 0)) ∧
      (was = true → Does (.panelOff p w v) s
        (s.setPort p { r with powerHeld := false, awaitHpd := false, down := if vdd then (if r.down = 0 then 1 else r.down) else 0 })
        ((Reg.DPO_PANEL_BL_EN_LIVE p, 0) :: fields (getBits v 1 1) 0))) ∧
    (getBits v 0 1 = 1 → was = true → Does (.blOn p w v) s s (fields 1 1) ∧ Does (.blOff p w v) s s ((Reg.DPO_PANEL_BL_EN_LIVE p, 0) :: fields 0 1)) ∧
    (getBits v 0 1 = 1 → exec (.blOn p w v) s = exec (.panelOn p w (withBit v 1) false) s ∧
      exec (.blOff p w v) s = exec (.panelOn p w (withoutBit v 1) false) s) ∧
    (getBits v 0 1 = 0 → exec (.blOn p w v) s = exec (.panelOff p w (withBit v 1)) s ∧
      exec (.blOff p w v) s = exec (.panelOff p w (withoutBit v 1)) s)) ∧
  (r.powerHeld = true → r.down = 0 → Does (.panelVddRise p) s
    (s.setPort p { r with powerHeld := false, awaitHpd := !s.bit (Reg.DPO_LINK_STATUS_HPD p) }) [(Reg.DPO_PANEL_VDD_LIVE p, 1)]) ∧
  (r.powerHeld = false ∨ r.down ≠ 0 → Does (.panelVddRise p) s s []) ∧
  (r.awaitHpd = true → s.SourceFree (25 + p) → Does (.panelHpdTimeout p) s (s.setPort p { r with awaitHpd := false })
    [(Reg.IC_SRC_PENDING (25 + p), 1), (Reg.DPO_PANEL_EVENTS p, s.more (Reg.DPO_PANEL_EVENTS p)), (Reg.DPO_PANEL_SEQ_ERR p, 1)]) ∧
  (r.awaitHpd = false → Does (.panelHpdTimeout p) s s []) ∧
  (r.down = 1 → Does (.panelPowerDownStep p) s (s.setPort p { r with down := 2, why := .none, degrading := false, video := false })
    [(Reg.DPO_LINK_STATUS_LINK_OK p, 0), (Reg.DPO_LINK_CTRL_TRAIN p, 0), (Reg.DPO_LINK_STATUS_TRAINING p, 0)]) ∧
  (r.down = 2 → Does (.panelPowerDownStep p) s (s.setPort p { r with down := 0, wentLow := true }) [(Reg.DPO_PANEL_VDD_LIVE p, 0)]) ∧
  (r.down ≠ 1 → r.down ≠ 2 → Does (.panelPowerDownStep p) s s []) ∧
  (s.bit (Reg.DPO_PANEL_BL_ON p) = true → video = true → held = false → Does (.blEnableDelay p) s s [(Reg.DPO_PANEL_BL_EN_LIVE p, 1)]) ∧
  (s.bit (Reg.DPO_PANEL_BL_ON p) = false ∨ video = false ∨ held = true → Does (.blEnableDelay p) s s []) ∧
  Does (.blPwmPeriod p) s (s.setPort p { r with
    pwmPeriod := max 500 (min 250000 (s.get (Reg.DPO_BL_PWM_PERIOD p))),
    pwmDuty := if s.bit Reg.FLT_STATUS_BROWNOUT then min duty (s.get (Reg.DPO_BL_DUTY_BROWNOUT_DUTY p)) else duty,
    pwmLow := s.bit (Reg.DPO_BL_PWM_POL p) }) []

/-- R57, R75 to R77, R107 to R110, R122 to R126, R128, R129, R131: binding and commits of general layers. A binding that R108 forbids is
refused with REFUSED and leaves the register, a locked one too; another is stored. A GO write on the layer that its door reaches is
checked in the order of R122: the commit is PENDING, with the translated addresses of planes and tables, or REJECTED with its
reason, which the session's COMMIT interrupt tells; while one is PENDING it is ignored. CANCEL rejects a PENDING commit and releases
what the active state does not hold. The block door reaches the layers of session 1 alone, and a door that reaches no layer changes
none. A palette that has been read waits in the copy that is not shown, a coefficient table in the bank that is not used; a table
that cannot be read, or holds no coefficients, rejects its commit with BAD_TABLE. At a latch of its screen a PENDING commit that has
its tables, whose frame has come and whose fence is reached is applied, with APPLIED_FRAME the new frame; any other leaves the
active state as it was, and a layer held so counts the latch against its limit. At a start latch a commit that breaks the geometry
or the rate is rejected. The readings and choices of the model behind it: log entries 22, 82, 107, 108, 115. -/
def Obligations.LayerCommitAppliesWhenDue : Prop := ∀ (s : State) (n : Fin 64) (d : LayerDoor) (k : Fin 256) (h : Fin 16) (w : World) (v : Word)
    (x : Fin 8) (p : Fin 10),
  let locked := s.bit (Reg.LAYER_BIND_LOCK n)
  let refused := s.bit (Reg.LAYER_ACT_CTRL_EN n) || s.get (Reg.LAYER_COMMIT_STATUS_STATE n) == 1 ||
    (!locked && bitOf v.toNat 8 && (List.range 64).any fun m => m != n.val && s.bit (Reg.LAYER_BIND_VALID m) &&
      s.get (Reg.LAYER_BIND_SCREEN m) == getBits v 0 3 && s.get (Reg.LAYER_BIND_Z m) == getBits v 4 4) ||
    (!locked && bitOf v.toNat 12 && (List.range 64).any fun m => m != n.val && s.bit (Reg.LAYER_BIND_VIN_EN m) && s.get (Reg.LAYER_BIND_VIN m) == getBits v 10 2)
  let cleared := (Reg.LAYER_BIND_REFUSED n, if getBits v 30 1 = 1 then 0 else s.get (Reg.LAYER_BIND_REFUSED n))
  let mayWrite := fun (m : Nat) (x : World) => x = .normal → s.ownedSecure 0x06 m = false
  let reach : Option Nat := match d with
    | .block m _ => if s.isGated 0x06 m then none else if s.layerSession m = some 1 then some m.val else none
    | .page q x => (s.layerHandle q x).filter fun m => !s.isGated 0x06 m
  let denied := match d with | .block m .normal => s.ownedSecure 0x06 m | _ => false
  let astray := match d with | .page q x => (s.layerHandle q x).isNone | _ => false
  let l := reach.getD 0
  let r := s.lay l
  let pending := s.get (Reg.LAYER_COMMIT_STATUS_STATE l) == 1
  let seq := (Reg.LAYER_COMMIT_STATUS_SEQ l, s.get (Reg.LAYER_COMMIT_STATUS_SEQ l) + 1)
  let err := s.layCheck l (withBit v 0)
  let sched := if bitOf v.toNat 2 then some (s.get (Reg.LAYER_COMMIT_FRAME_FRAME l)) else none
  let fence := if bitOf v.toNat 3 then some (getBits v 4 4, s.get (Reg.LAYER_FENCE_VALUE_VALUE l)) else none
  let tables := s.tableAddrs l
  let starting := fun (a : Option Nat) (len : Nat) => a.any fun x => s.startWaits x len
  let waits := s.get (Reg.LAYER_COMMIT_STATUS_STATE n) == 1 && (s.lay n).loading && !starting (s.lay n).tables.1 1792
    && !starting (s.lay n).tables.2 1024
  let entry := fun (bs : List Byte) (i : Nat) => BitVec.ofNat 32 (leNat ((bs.drop (4 * i)).take 4))
  let half := fun (bs : List Byte) (i : Nat) => leNat ((bs.drop (2 * i)).take 2)
  let shown := s.bit (Reg.LAYER_BIND_VALID n) && s.bit (Reg.SCREEN_STATUS_RUNNING (s.get (Reg.LAYER_BIND_SCREEN n)))
  let table := fun (a len : Nat) => s.readBytes (if shown then .normal else s.ownerWorld 0x06 n) a len
  let loaded := s.shadowScalers n |>.filter fun j => s.bit (Reg.SCL_STATUS_CLAIMED j) && s.get (Reg.SCL_STATUS_LAYER j) == n.val
  (mayWrite n w → s.isGated 0x06 n = false →
    (refused = true → Does (.layerBindWrite n w v) s s
      [(Reg.LAYER_BIND_EVENTS n, s.more (Reg.LAYER_BIND_EVENTS n)), (Reg.LAYER_BIND_REFUSED n, 1)]) ∧
    (locked = false → refused = false → Does (.layerBindWrite n w v) s s
      [(Reg.LAYER_BIND_LOCK n, getBits v 31 1), cleared, (Reg.LAYER_BIND_VIN_EN n, getBits v 12 1), (Reg.LAYER_BIND_VIN n, getBits v 10 2),
       (Reg.LAYER_BIND_VALID n, getBits v 8 1), (Reg.LAYER_BIND_Z n, getBits v 4 4), (Reg.LAYER_BIND_SCREEN n, getBits v 0 3)]) ∧
    (locked = true → refused = false → Does (.layerBindWrite n w v) s s [cleared])) ∧
  (denied = true → ∀ c ∈ [Instr.layerCommitGo d v, .layerCommitCancel d v], Does c s s
    [(Reg.SYS_OWN_STATUS_DENIED_WRITES, s.more Reg.SYS_OWN_STATUS_DENIED_WRITES)]) ∧
  (astray = true → s.layerHandle k h = none → ∀ c ∈ [Instr.layerCommitGo (.page k h) v, .layerCommitCancel (.page k h) v], Does c s s
    [(Reg.SESS_PAGE_STATUS_EVENTS k, s.more (Reg.SESS_PAGE_STATUS_EVENTS k)), (Reg.SESS_PAGE_STATUS_HANDLE_ERR k, 1)]) ∧
  (denied = false → astray = false → reach = none → Does (.layerCommitGo d v) s s [] ∧ Does (.layerCommitCancel d v) s s []) ∧
  (denied = false → reach.isSome = true →
    (getBits v 1 1 = 0 →
      (pending = true → Does (.layerCommitGo d v) s s
        [(Reg.LAYER_STATUS_EVENTS l, s.more (Reg.LAYER_STATUS_EVENTS l)), (Reg.LAYER_STATUS_WRITE_WHILE_PENDING l, 1)]) ∧
      (pending = false → ∀ c ∈ err, ∀ q ∈ s.layerSession l, DoesThen (.layerCommitGo d v) s s
        [(Reg.LAYER_COMMIT_STATUS_REASON l, c), (Reg.LAYER_COMMIT_STATUS_STATE l, 3), seq] (·.sessIrq q 2)) ∧
      (pending = false → err = none → s.bit (Reg.LAYER_SCALE_SCL_EN l) = false →
        s.bit (Reg.LAYER_BIND_VALID l) = false ∨ s.bit (Reg.SCREEN_STATUS_LOWERED (s.get (Reg.LAYER_BIND_SCREEN l))) = false →
        Does (.layerCommitGo d v) s
          (s.setLay l { r with sched := sched, fence := fence, addrs := (s.planeAddrs l).getD [], tables := tables,
                               loading := tables.1.isSome || tables.2.isSome })
          [(Reg.LAYER_COMMIT_STATUS_REASON l, 0), (Reg.LAYER_COMMIT_STATUS_STATE l, 1), seq]) ∧
      (pending = false → err = none → Leads (.layerCommitGo d v) s fun t => t.get (Reg.LAYER_COMMIT_STATUS_STATE l) = 1 ∧
        t.get (Reg.LAYER_COMMIT_STATUS_REASON l) = 0 ∧ (t.lay l).sched = sched ∧ (t.lay l).fence = fence ∧ (t.lay l).tables = tables ∧
        (t.lay l).loading = (tables.1.isSome || tables.2.isSome) ∧ s.SameBytes t ∧
        (s.canClaim l = true → ∀ j ∈ s.shadowScalers l, t.bit (Reg.SCL_STATUS_CLAIMED j) = true ∧ t.get (Reg.SCL_STATUS_LAYER j) = l % 64 ∧
          t.bit (Reg.SCL_STATUS_GANGED j) = s.bit (Reg.LAYER_SCALE_GANG l) ∧ (tables.1.isSome = true → t.bit (Reg.SCL_STATUS_LOADING j) = true)))) ∧
    (pending = false → Does (.layerCommitCancel d v) s s []) ∧
    (pending = true → Leads (.layerCommitCancel d v) s fun t => t.get (Reg.LAYER_COMMIT_STATUS_STATE l) = 3 ∧
      t.get (Reg.LAYER_COMMIT_STATUS_REASON l) = 3 ∧ (t.lay l).loading = false ∧ (t.lay l).sched = none ∧ (t.lay l).fence = none ∧ s.SameBytes t ∧
      ∀ j < 24, s.bit (Reg.SCL_STATUS_CLAIMED j) = true → s.get (Reg.SCL_STATUS_LAYER j) = l →
        t.bit (Reg.SCL_STATUS_LOADING j) = false ∧ t.bit (Reg.SCL_STATUS_CLAIMED j) = (s.activeScalers l).contains j)) ∧
  (waits = false → Does (.tableLoadDone (.layer n)) s s []) ∧
  (waits = true → (s.lay n).tables = (none, none) → Does (.tableLoadDone (.layer n)) s (s.setLay n { s.lay n with loading := false }) []) ∧
  (waits = true → (s.lay n).tables.1 = none → ∀ a ∈ (s.lay n).tables.2,
    (∀ bs ∈ table a 1024, Leads (.tableLoadDone (.layer n)) s fun t => (t.lay n).loading = false ∧ t.get (Reg.LAYER_COMMIT_STATUS_STATE n) = 1 ∧
      (∀ i < 256, sget (fun _ => 0) (if (s.lay n).palSecond then (t.lay n).pal0 else (t.lay n).pal1) i = entry bs i) ∧
      (if (s.lay n).palSecond then (t.lay n).pal1 = (s.lay n).pal1 else (t.lay n).pal0 = (s.lay n).pal0)) ∧
    (table a 1024 = none → Leads (.tableLoadDone (.layer n)) s fun t => (t.lay n).loading = false ∧
      t.get (Reg.LAYER_COMMIT_STATUS_STATE n) = 3 ∧ t.get (Reg.LAYER_COMMIT_STATUS_REASON n) = 0xE ∧ (t.lay n).pal0 = (s.lay n).pal0 ∧
      (t.lay n).pal1 = (s.lay n).pal1)) ∧
  (waits = true → (s.lay n).tables.2 = none → ∀ a ∈ (s.lay n).tables.1, ∀ bs ∈ table a 1792,
    ((List.range 896).all (fun i => half bs i / 2 ^ 11 == 0 || half bs i / 2 ^ 11 == 31) = true →
      Leads (.tableLoadDone (.layer n)) s fun t => (t.lay n).loading = false ∧ t.get (Reg.LAYER_COMMIT_STATUS_STATE n) = 1 ∧
        ∀ j ∈ loaded, t.bit (Reg.SCL_STATUS_LOADING j) = false ∧ t.get (Reg.SCL_STATUS_LOADS j) = s.more (Reg.SCL_STATUS_LOADS j) ∧
          ∀ i < 256, t.reg (if s.bit (Reg.SCL_STATUS_ACTIVE_BANK j) then Reg.SCL_COEF_AH j i else Reg.SCL_COEF_BH j i) =
            BitVec.ofNat 32 (half bs (2 * i) % 2 ^ 12 + half bs (2 * i + 1) % 2 ^ 12 * 2 ^ 16)) ∧
    ((List.range 896).any (fun i => half bs i / 2 ^ 11 != 0 && half bs i / 2 ^ 11 != 31) = true →
      Leads (.tableLoadDone (.layer n)) s fun t => (t.lay n).loading = false ∧ t.get (Reg.LAYER_COMMIT_STATUS_STATE n) = 3 ∧
        t.get (Reg.LAYER_COMMIT_STATUS_REASON n) = 0xE)) ∧
  (bitOf v.toNat 2 = true → frameLater (s.get (Reg.LAYER_COMMIT_FRAME_FRAME n)) (s.frame (s.get (Reg.LAYER_BIND_SCREEN n))) = false →
    s.bit (Reg.LAYER_BIND_VALID n) = true → s.layCheck n v = some 1) ∧
  (let z := s.scr x
   let ordinary := s.running x && !z.gap && !z.stopping && s.get (Reg.SCREEN_RETIME_STATE x) != 1 && !z.halve && (s.layersOf x).contains n.val
   let f := (s.frame x + 1) % 2 ^ 32
   let y := s.lay n
   let waitsOn := s.get (Reg.LAYER_COMMIT_STATUS_STATE n) == 1
   let due := waitsOn && !y.loading && (match y.sched with | some g => !frameLater g f | none => true)
   let reached := match y.fence with | some (i, value) => s.fenceReached ((s.layerSession n).getD 0) i value | none => true
   let held := (due && !reached) || s.frozenSource n
   let count := if held then y.held + 1 else 0
   let active := fun (i : Nat) => Reg.LAYER_CTRL n + 0x200 + 4 * i
   ordinary = true →
    (due = true → reached = true → Leads (.latch x) s fun t => t.get (Reg.LAYER_COMMIT_STATUS_STATE n) = 2 ∧
      t.get (Reg.LAYER_COMMIT_STATUS_REASON n) = 0 ∧ t.get (Reg.LAYER_APPLIED_FRAME_FRAME n) = f ∧ t.get (Reg.SCREEN_FRAME_FRAME x) = f ∧
      t.bit (Reg.LAYER_STATUS_ENABLED n) = s.bit (Reg.LAYER_CTRL_EN n) ∧
      (∀ i < 20, t.reg (active i) = s.reg (Reg.LAYER_CTRL n + 4 * i) ∧ t.reg (Reg.LAYER_CTRL n + 4 * i) = s.reg (Reg.LAYER_CTRL n + 4 * i)) ∧
      (∀ i < 3, t.get (Reg.LAYER_ACT_ADDR_ADDR n i) = y.addrs.getD i 0 / 256 % 2 ^ 32) ∧
      (t.lay n).sched = none ∧ (t.lay n).fence = none ∧ (t.lay n).palSecond = (if y.tables.2.isSome then !y.palSecond else y.palSecond) ∧
      (∀ q ∈ s.layerSession n, bitOf (t.reg (Reg.SESS_IRQ_STATUS q)).toNat 2 = true) ∧
      (t.frozenSource n = false → s.bit (Reg.LAYER_CTRL_SOURCE n) = false →
        t.get (Reg.LAYER_STATUS_DR_COUNT n) = 0 ∧ t.get (Reg.LAYER_STATUS_READY_STATE n) = 0) ∧ s.SameBytes t) ∧
    (due = false ∨ reached = false → Leads (.latch x) s fun t =>
      t.reg (Reg.LAYER_COMMIT_STATUS n) = s.reg (Reg.LAYER_COMMIT_STATUS n) ∧ t.reg (Reg.LAYER_APPLIED_FRAME n) = s.reg (Reg.LAYER_APPLIED_FRAME n) ∧
      (∀ i < 20, t.reg (active i) = s.reg (active i)) ∧ (∀ i < 3, t.reg (Reg.LAYER_ACT_ADDR n i) = s.reg (Reg.LAYER_ACT_ADDR n i)) ∧
      (t.lay n).sched = y.sched ∧ (t.lay n).fence = y.fence ∧ (t.lay n).tables = y.tables ∧ s.SameBytes t ∧
      (s.bit (Reg.LAYER_ACT_CTRL_SOURCE n) = false →
        (t.lay n).held = count ∧ t.get (Reg.LAYER_STATUS_DR_COUNT n) = min count 255 ∧
        t.bit (Reg.LAYER_STATUS_FROZEN_SRC n) = s.frozenSource n ∧
        t.get (Reg.LAYER_STATUS_READY_STATE n) = (if y.detached then 2 else if count = 0 then 0
          else if count ≤ s.get (Reg.LAYER_READY_POLICY_LIMIT n) then 1 else 2)))) ∧
  (s.activeUnderTest = false → (s.scr x).gap = false → (s.scr x).starting = true → (s.scr x).held = some p.val →
    (s.layersOf x).contains n.val = true → s.get (Reg.LAYER_COMMIT_STATUS_STATE n) = 1 → s.bit (Reg.LAYER_CTRL_EN n) = true →
    (s.badGeometry n = true → Leads (.screenStartLatch x) s fun t => t.get (Reg.LAYER_COMMIT_STATUS_STATE n) = 3 ∧
      t.get (Reg.LAYER_COMMIT_STATUS_REASON n) = 8) ∧
    (s.badGeometry n = false → s.badRate n = true → Leads (.screenStartLatch x) s fun t => t.get (Reg.LAYER_COMMIT_STATUS_STATE n) = 3 ∧
      t.get (Reg.LAYER_COMMIT_STATUS_REASON n) = 0xC))

/-- R37, R144 to R147: video inputs. A receiver is enabled where its size, stride and buffers pass the checks of R144, and refused with
CFG_ERR otherwise; while it runs a write that changes more than EN is ignored. A frame start chooses a buffer that is neither the
latest nor shown. A line of the data type and channel taken is written to the buffer; others are counted, and a line whose write
comes too late discards the frame at a breach of rank 8. A frame end makes a complete frame the latest; any other frame is discarded
and counted. The readings and choices of the model behind it: log entries 24, 25, 69, 95, 105, 116. -/
def Obligations.VideoInputReceivesFrames : Prop := ∀ (s : State) (n : Fin 4) (w : World) (v : Word) (vc : BitVec 2) (dt : BitVec 6) (bs : List Byte)
    (crcOk : Bool) (late : Option Nat) (yi : Nat),
  let r := s.vin n
  let en := s.bit (Reg.VIN_CTRL_EN n)
  let rgb := s.bit (Reg.VIN_CTRL_DT n)
  let mine := en && s.get (Reg.VIN_CTRL_VC n) == vc.toNat
  let ours := s.get (Reg.VIN_CTRL_VC n) == vc.toNat && dt.toNat == (if rgb then 0x24 else 0x1E)
  let raised := fun (flag : Fld) => [(Reg.IC_SRC_PENDING (55 + n), 1), (Reg.VIN_STATUS_EVENTS n, s.more (Reg.VIN_STATUS_EVENTS n)), (flag, 1)]
  let fields := [(Reg.VIN_CTRL_TIMEOUT n, getBits v 16 8), (Reg.VIN_CTRL_DT n, getBits v 8 1), (Reg.VIN_CTRL_VC n, getBits v 4 2),
    (Reg.VIN_CTRL_LANES n, getBits v 1 2), (Reg.VIN_CTRL_EN n, 1)]
  let free := s.vinFree n
  let size := s.get (Reg.VIN_SIZE_H n)
  let k := r.buf.getD 0
  let good := !r.sizeBad && !r.crcBad && !r.eccBad && r.lines == size
  let at_ := 256 * s.get (Reg.VIN_BUF_ADDR n k) + r.lines * (s.get (Reg.VIN_STRIDE_STRIDE n) * 64)
  let line := (vinBytes rgb bs).take ((if rgb then 4 else 2) * s.get (Reg.VIN_SIZE_W n))
  let wrote := s.writeMem .normal at_ line
  let queued := if s.startWaits at_ line.length then wrote.2.queueWrite (fabricMaster (12 + n) .normal) at_ line.length else wrote.2
  let held := { r with lines := r.lines + 1, crcBad := r.crcBad || !crcOk,
                       sizeBad := r.sizeBad || decide (size ≤ r.lines) || bs.length != (if rgb then 3 else 2) * s.get (Reg.VIN_SIZE_W n) }
  (s.Admits w 0x09 n false →
    (en = true → s.SourceFree (55 + n) → s.onlyChanges (Reg.VIN_CTRL n) 1 (withBit v 0) = false →
      Does (.vinEnable n w v) s s (raised (Reg.VIN_STATUS_WRITE_WHILE_ACTIVE n))) ∧
    (en = true → s.onlyChanges (Reg.VIN_CTRL n) 1 (withBit v 0) = true → Does (.vinEnable n w v) s s []) ∧
    (en = false → s.vinRefused n (withBit v 0) = true → s.SourceFree (55 + n) → Does (.vinEnable n w v) s s (raised (Reg.VIN_STATUS_CFG_ERR n))) ∧
    (en = false → s.vinRefused n (withBit v 0) = false → Does (.vinEnable n w v) s s fields)) ∧
  (mine = false → Does (.vinFrameStart n vc) s s [] ∧ Does (.vinFrameEnd n vc) s s []) ∧
  (mine = true →
    (r.buf = none → ∀ q < 3, free = [q] → Does (.vinFrameStart n vc) s (s.setVin n { buf := some q }) []) ∧
    (r.buf = none → 2 ≤ free.length → SetsAnd (.vinFrameStart n vc) s [] fun t => t.drawn = s.drawn + 1 ∧
      (t.vin n).buf.any (fun q => free.contains q) = true ∧ { t.vin n with buf := none } = {}) ∧
    (r.buf.isSome = true → Leads (.vinFrameStart n vc) s fun t =>
      t.get (Reg.VIN_DISCARDS_ERRORED n) = s.more (Reg.VIN_DISCARDS_ERRORED n) ∧ t.bit (Reg.VIN_STATUS_SIZE_ERR n) = true ∧
      (t.vin n).lines = 0 ∧ (t.vin n).buf.any (fun q => free.contains q) = true) ∧
    (r.buf = none → Does (.vinFrameEnd n vc) s s []) ∧
    (r.buf.isSome = true → good = true → Does (.vinFrameEnd n vc) s (s.setVin n {})
      [(Reg.VIN_STATUS_NO_SIGNAL n, 0), (Reg.VIN_FRAMES_COUNT n, s.get (Reg.VIN_FRAMES_COUNT n) + 1), (Reg.VIN_STATUS_LATEST n, k)]) ∧
    (r.buf.isSome = true → good = false → Leads (.vinFrameEnd n vc) s fun t => t.vin n = {} ∧
      t.get (Reg.VIN_DISCARDS_ERRORED n) = s.more (Reg.VIN_DISCARDS_ERRORED n) ∧ t.get (Reg.VIN_STATUS_LATEST n) = s.get (Reg.VIN_STATUS_LATEST n) ∧
      t.get (Reg.VIN_FRAMES_COUNT n) = s.get (Reg.VIN_FRAMES_COUNT n) ∧ (r.crcBad = true → t.bit (Reg.VIN_STATUS_CRC_ERR n) = true) ∧
      (r.eccBad = true → t.bit (Reg.VIN_STATUS_ECC_ERR n) = true) ∧
      (r.sizeBad = true ∨ r.lines ≠ size → t.bit (Reg.VIN_STATUS_SIZE_ERR n) = true))) ∧
  (en = false → Does (.vinLinePacket n vc dt .clean bs crcOk late) s s []) ∧
  (en = true →
    (r.buf = none → Does (.vinLinePacket n vc dt .uncorrectable bs crcOk late) s s []) ∧
    (r.buf.isSome = true → Does (.vinLinePacket n vc dt .uncorrectable bs crcOk late) s (s.setVin n { r with eccBad := true }) []) ∧
    (∀ e ∈ [EccResult.clean, .corrected],
      (ours = false → Does (.vinLinePacket n vc dt e bs crcOk late) s s [(Reg.VIN_DISCARDS_OTHER_DT n, s.more (Reg.VIN_DISCARDS_OTHER_DT n))]) ∧
      (ours = true → r.buf = none → Does (.vinLinePacket n vc dt e bs crcOk late) s s []) ∧
      (ours = true → r.buf.isSome = true → size ≤ r.lines ∨ line = [] → Does (.vinLinePacket n vc dt e bs crcOk none) s (s.setVin n held) []) ∧
      (ours = true → r.buf.isSome = true → r.lines < size → line ≠ [] → wrote.1 = .ok →
        Does (.vinLinePacket n vc dt e bs crcOk none) s (queued.setVin n held) []) ∧
      (ours = true → r.buf.isSome = true → s.LogRoom → Leads (.vinLinePacket n vc dt e bs crcOk (some yi)) s fun t => t.vin n = {} ∧
        t.bit (Reg.VIN_STATUS_LATE n) = true ∧ t.get (Reg.VIN_DISCARDS_ERRORED n) = s.more (Reg.VIN_DISCARDS_ERRORED n) ∧
        t.get (Reg.SYS_BREACH_COUNT 8) = s.more (Reg.SYS_BREACH_COUNT 8) ∧ t.log.queue.length = s.log.queue.length + 1 ∧ s.SameBytes t))) ∧
  Does (.vinNoSignal n) s s [(Reg.VIN_STATUS_NO_SIGNAL n, 1)]

/-- R123, R124, R172, R174 to R177, R180, R182 to R187, R189, R191, R193: protected layers and the sextant. A GO write of a protected
layer becomes PENDING or REJECTED, and raises the layer's source; CANCEL rejects a PENDING commit. The current frame number alone
vouches. A tile row is stored after its check, and one that fails shows the harbour image and raises its fault. A self-test takes a
sextant that is in reserve, or ACTIVE while no screen runs; a sextant that fails gives its place to the reserve. The comparator test
runs in a blanking. FORCE begins and ends the whole-screen harbour image. At a latch of its screen a PENDING commit that has its
palette and whose frame has come is applied, and the frame is fresh where the latest vouch is not too old, else STALE shows it, with
fault input 88 + n where it rises and every rectangle that is shown a harbour image of reason 1. A sextant that fails verifies no
screen that does not run. (A GO for a lowered screen is not said here.) The readings and choices of the model behind it: log entries
25, 26. -/
def Obligations.ProtectedContentIsVouched : Prop := ∀ (s : State) (n : Fin 8) (k : Fin 2) (q : Fin 4) (y : Fin 2880) (t0 : Fin 40) (w : World) (v : Word)
    (pass : Bool),
  let r := s.prot n
  let pending := s.get (Reg.PROT_COMMIT_STATUS_STATE n) == 1
  let seq := (Reg.PROT_COMMIT_STATUS_SEQ n, s.get (Reg.PROT_COMMIT_STATUS_SEQ n) + 1)
  let became := fun (st reason : Nat) => [(Reg.IC_SRC_PENDING (1 + n), 1), (Reg.PROT_COMMIT_STATUS_REASON n, reason), (Reg.PROT_COMMIT_STATUS_STATE n, st)]
  let err := s.protCheck n (withBit v 0)
  let load := s.bit (Reg.PROT_CTRL_PAL_LOAD n)
  let sched := if bitOf v.toNat 2 then some (s.get (Reg.PROT_COMMIT_FRAME_FRAME n)) else none
  let palette := s.readBytes .secure (256 * s.get (Reg.PROT_PAL_ADDR_ADDR n)) 1024
  let palGood := palette.any fun bs => s.palOk n bs
  let loads := pending && r.loading && !s.startWaits (256 * s.get (Reg.PROT_PAL_ADDR_ADDR n)) 1024
  let st := s.get (Reg.SXT_STATUS_STATE k)
  let other := s.get (Reg.SXT_STATUS_STATE (1 - k))
  let testable := st == 1 || (st == 0 && !(List.range 8).any s.running)
  let w1c := fun (f : Fld) => (f, if getBits v f.lo 1 = 1 then 0 else s.get f)
  let back := s.sxtBack.find? fun p => p.1 == k.val
  let rows := (s.actRect n q).h
  let inside := (s.liveRects n).contains q.val && decide (y.val < rows) && decide (t0.val < s.tileRows n q)
  let x := (s.scr n).sextant
  let at_ := s.tileAt n q y t0
  let got := s.readBytes .secure at_.1 at_.2
  let want := s.readBytes .secure (s.tileCheckAt n q y t0) 4
  let waits := s.startWaits at_.1 at_.2 || s.startWaits (s.tileCheckAt n q y t0) 4
  let checks := got.isSome && want.isSome && crc32c (checkPrefix at_.1 (s.get (Reg.PROT_ACT_SEQ_SEQ n)) ++ got.getD []) == leNat (want.getD [])
  let fell := if st ≤ 1 ∨ other ≤ 1 then [] else
    [(Reg.FLT_IN_STATUS_TRANSIENT 7, if s.bit (Reg.FLT_IN_STATUS_CAUSE 7) then 1 else s.get (Reg.FLT_IN_STATUS_TRANSIENT 7))]
  let idle := st == 2 && !(bitOf (s.get Reg.WEAR_WORN_MARK) (10 + k) && (List.range 8).any fun m => s.running m && (s.scr m).sextant == some k.val)
  let blank := match s.screenOn n with
    | none => true
    | some m => (s.scr m).blanking || (s.scr m).gap || decide (s.get (Reg.SCREEN_TIMING_V_V_ACTIVE m) ≤ s.get (Reg.SCREEN_STATUS_LINE m))
  let image := [(Reg.DPO_HARB_CTRL_FORCE n, getBits v 8 1), (Reg.DPO_HARB_CTRL_GLYPH_EN n, getBits v 4 1), (Reg.DPO_HARB_CTRL_SCALE n, getBits v 0 2)]
  let forced := (s.port n).forced
  (s.Admits w 0x07 n false →
    (pending = true → getBits v 1 1 = 0 → Does (.protCommitGo n w v) s s
      [(Reg.PROT_STATUS_EVENTS n, s.more (Reg.PROT_STATUS_EVENTS n)), (Reg.PROT_STATUS_WRITE_WHILE_PENDING n, 1)]) ∧
    (pending = false → getBits v 1 1 = 0 → s.SourceFree (1 + n) →
      (∀ c ∈ err, Does (.protCommitGo n w v) s s (became 3 c ++ [seq])) ∧
      (err = none → s.bit (Reg.SCREEN_STATUS_LOWERED n) = false →
        Does (.protCommitGo n w v) s (s.setProt n { r with sched := sched, loading := load }) (became 1 0 ++ [seq]))) ∧
    (pending = false → Does (.protCommitCancel n w v) s s []) ∧
    (pending = true → s.SourceFree (1 + n) →
      Does (.protCommitCancel n w v) s (s.setProt n { r with loading := false, sched := none }) (became 3 3)) ∧
    (s.reg (Reg.SCREEN_FRAME n) = v → Does (.vouch n w v) s s [(Reg.PROT_STATUS_VOUCH_VALID n, 1), (whole (Reg.PROT_VOUCH n), v.toNat)]) ∧
    (s.reg (Reg.SCREEN_FRAME n) ≠ v → Does (.vouch n w v) s s
      [(Reg.PROT_STATUS_EVENTS n, s.more (Reg.PROT_STATUS_EVENTS n)), (Reg.PROT_STATUS_VOUCH_ERR n, 1)])) ∧
  (let z := s.scr n
   let ordinary := s.running n && !z.gap && !z.stopping && s.get (Reg.SCREEN_RETIME_STATE n) != 1 && !z.halve
   let f := (s.frame n + 1) % 2 ^ 32
   let due := pending && !r.loading && (match r.sched with | some g => !frameLater g f | none => true)
   let active := fun (i : Nat) => Reg.PROT_CTRL n + 0x200 + 4 * i
   let fresh := s.bit (Reg.PROT_STATUS_VOUCH_VALID n) &&
     decide ((f + 2 ^ 32 - s.get (Reg.PROT_VOUCH_FRAME n)) % 2 ^ 32 ≤ max 1 (s.get (Reg.SCREEN_PROT_CFG_FRESH_LIMIT n)))
   ordinary = true →
    (due = true → Leads (.latch n) s fun t => t.get (Reg.PROT_COMMIT_STATUS_STATE n) = 2 ∧ t.get (Reg.PROT_COMMIT_STATUS_REASON n) = 0 ∧
      t.get (Reg.PROT_APPLIED_FRAME_FRAME n) = f ∧ (s.SourceFree (1 + n) → t.bit (Reg.IC_SRC_PENDING (1 + n)) = true) ∧
      (∀ i < 36, t.reg (active i) = s.reg (Reg.PROT_CTRL n + 4 * i)) ∧ t.bit (Reg.PROT_STATUS_ENABLED n) = s.bit (Reg.PROT_CTRL_EN n) ∧
      (t.prot n).sched = none ∧ (t.prot n).palSecond = (if load then !r.palSecond else r.palSecond) ∧
      t.bit (Reg.PROT_STATUS_VOUCH_VALID n) = (s.bit (Reg.PROT_STATUS_VOUCH_VALID n) &&
        !(s.bit (Reg.PROT_CTRL_EN n) && !s.bit (Reg.PROT_ACT_CTRL_EN n))) ∧ s.SameBytes t) ∧
    (due = false → Leads (.latch n) s fun t => t.reg (Reg.PROT_COMMIT_STATUS n) = s.reg (Reg.PROT_COMMIT_STATUS n) ∧
      t.reg (Reg.PROT_APPLIED_FRAME n) = s.reg (Reg.PROT_APPLIED_FRAME n) ∧ (∀ i < 36, t.reg (active i) = s.reg (active i)) ∧
      t.prot n = r ∧ s.SameBytes t ∧
      (s.bit (Reg.PROT_ACT_CTRL_EN n) = true → t.bit (Reg.PROT_STATUS_STALE n) = !fresh ∧
        (fresh = false → s.bit (Reg.PROT_STATUS_STALE n) = false → t.bit (Reg.FLT_IN_STATUS_CAUSE (88 + n)) = true) ∧
        ∀ i < 4, (t.scr n).causes.any (fun c => c.rect == i && c.reason == 1) = (!fresh && (s.liveRects n).contains i)))) ∧
  (loads = false → Does (.tableLoadDone (.prot n)) s s []) ∧
  (loads = true → Leads (.tableLoadDone (.prot n)) s fun t => (t.prot n).loading = false ∧ s.SameBytes t ∧
    t.get (Reg.PROT_COMMIT_STATUS_STATE n) = (if palGood then 1 else 3) ∧ (palGood = false → t.get (Reg.PROT_COMMIT_STATUS_REASON n) = 0xE ∧ t.bit (Reg.PROT_STATUS_CHECK_FAIL n) = true)) ∧
  (inside = false ∨ x = none ∨ waits = true → Does (.sxtTileRowArrive n q y t0) s s []) ∧
  (inside = true → waits = false → ∀ j ∈ x,
    (checks = true → Does (.sxtTileRowArrive n q y t0) s
      (s.setScr n { s.scr n with tiles := sput (fun _ => .absent) (s.scr n).tiles (tileKey q y t0) (.passed (got.getD [])) })
      [(Reg.SXT_CHECKS_COUNT j, s.get (Reg.SXT_CHECKS_COUNT j) + 1)]) ∧
    (got.isSome = true → want.isSome = true → checks = false → Leads (.sxtTileRowArrive n q y t0) s fun t =>
      t.bit (Reg.PROT_STATUS_CHECK_FAIL n) = true ∧ t.get (Reg.SXT_CHECK_FAILS_COUNT j) = s.more (Reg.SXT_CHECK_FAILS_COUNT j) ∧
      t.bit (Reg.FLT_IN_STATUS_CAUSE (80 + n)) = true ∧ (t.scr n).causes.any (fun c => c.rect == q.val && c.reason == 2) = true ∧
      t.tileRow n (tileKey q y t0) = .failed ∧ s.SameBytes t)) ∧
  (s.Admits w 0x0A k false →
    (testable = true → Does (.sxtSelftest k w v) s { s with sxtBack := s.sxtBack ++ [(k.val, st)] }
      [(Reg.SXT_SELFTEST_GO k, 1), (Reg.SXT_STATUS_STATE k, 3), w1c (Reg.SXT_SELFTEST_DONE k)]) ∧
    (testable = false → Does (.sxtSelftest k w v) s s [w1c (Reg.SXT_SELFTEST_DONE k)])) ∧
  (back = none → Does (.sxtSelftestDone k pass) s s []) ∧
  (∀ b ∈ back,
    (b.2 ≤ 1 → s.SourceFree (41 + k) → Does (.sxtSelftestDone k true) s { s with sxtBack := s.sxtBack.filter fun p => p.1 != k.val }
      (fell ++ [(Reg.SXT_STATUS_STATE k, b.2), (Reg.SXT_STATUS_SCREENS k, if b.2 = 0 then 0xFF else s.get (Reg.SXT_STATUS_SCREENS k)),
       (Reg.IC_SRC_PENDING (41 + k), 1), (Reg.SXT_SELFTEST_PASS k, 1), (Reg.SXT_SELFTEST_DONE k, 1),
       (Reg.SXT_SELFTEST_GO k, 0)])) ∧
    Leads (.sxtSelftestDone k false) s fun t => t.get (Reg.SXT_STATUS_STATE k) = 2 ∧ t.bit (Reg.SXT_SELFTEST_DONE k) = true ∧
      t.bit (Reg.SXT_SELFTEST_PASS k) = false ∧ t.bit (Reg.FLT_IN_STATUS_CAUSE (74 + k)) = true ∧
      (b.2 = 0 → other = 1 → t.get (Reg.SXT_STATUS_STATE (1 - k)) = 0) ∧
      (b.2 = 0 → ∀ m < 8, s.running m = false → bitOf (t.get (Reg.SXT_STATUS_SCREENS k)) m = false) ∧ s.SameBytes t) ∧
  (idle = true → Does (.sxtLockstepFail k) s s []) ∧
  (idle = false → Leads (.sxtLockstepFail k) s fun t => t.get (Reg.SXT_STATUS_STATE k) = 2 ∧ t.bit (Reg.SXT_STATUS_LOCKSTEP_ERR k) = true ∧
    t.bit (Reg.FLT_IN_STATUS_CAUSE (72 + k)) = true ∧ t.get (Reg.SXT_STATUS_SCREENS k) = 0 ∧
    (st = 0 → other = 1 → t.get (Reg.SXT_STATUS_STATE (1 - k)) = 0) ∧
    (st = 0 → other = 2 → t.bit (Reg.FLT_IN_STATUS_CAUSE 7) = true) ∧ s.SameBytes t) ∧
  (s.Admits w 0x04 n true →
    Does (.cmpTest n w v) s s [(Reg.DPO_CMP_TEST_GO n, 1), w1c (Reg.DPO_CMP_TEST_DONE n)] ∧
    (getBits v 8 1 = 0 → Does (.harbourForce n w v) s (s.setPort n { s.port n with forced := none }) image) ∧
    (getBits v 8 1 = 1 → forced.isSome = true → Does (.harbourForce n w v) s s image) ∧
    (getBits v 8 1 = 1 → forced = none → s.SourceFree (33 + n) → Does (.harbourForce n w v) s
      (s.setPort n { s.port n with forced := some (((s.portScreen n).map s.frame).getD 0) }) ((Reg.IC_SRC_PENDING (33 + n), 1) :: image))) ∧
  (s.bit (Reg.DPO_CMP_TEST_GO n) = true → blank = true → Does (.cmpTestRun n pass) s s
    [(Reg.DPO_CMP_TEST_PASS n, b2n pass), (Reg.DPO_CMP_TEST_DONE n, 1), (Reg.DPO_CMP_TEST_GO n, 0)]) ∧
  (s.bit (Reg.DPO_CMP_TEST_GO n) = false ∨ blank = false → Does (.cmpTestRun n pass) s s [])

/-- R250, R251, R253 to R262: a Silvos link. EN starts the alignment; 64 aligned symbols send IDENT_REQ, a valid IDENT frame fills the
identity, sends CONFIG and makes the link UP, and 100 ms without it send RESET. While EN is 1 a change of MARK_LEAD alone is
ignored. A mark is placed among the marks of its scan at the first symbol boundary at or after its instant less MARK_LEAD, a CLOSE
at the last one at or before it; in quiet sampling its instant is the one the screen's lines give, and a screen that has stopped
discards the scan. FSEQ counts every frame the head has sent. A frame that fails its CRC, a code error in a frame, a wrong sequence
and a missed deadline are flagged, and discard the scan; a GROUP frame in order is taken. Silence, or eight discarded scans, lose
the link, which releases the contacts and aligns again. The readings and choices of the model behind it: log entries 18, 25, 31, 81. -/
def Obligations.SilvosLinkCarriesScans : Prop := ∀ (s : State) (n : Fin 8) (w : World) (v : Word) (body : List Byte) (crc : BitVec 16) (inFrame : Bool) (e : ScanEnd)
    (phase : Fin 80) (instant : Nat),
  let r := s.tch n
  let silent : State := s.setTch n { r with sent := [] }
  let st := s.get (Reg.TSL_STATUS_STATE n)
  let lead := s.get (Reg.TSL_CTRL_MARK_LEAD n)
  let was := s.bit (Reg.TSL_CTRL_EN n)
  let same := getBits v 16 9 == lead
  let ph := s.get (Reg.TOUCH_STATUS_PHASE n)
  let fields := fun (en : Nat) => [(Reg.TSL_CTRL_MARK_LEAD n, getBits v 16 9), (Reg.TSL_CTRL_EN n, en)]
  let raised := fun (flag : Fld) => [(Reg.IC_SRC_PENDING (63 + n), 1), (Reg.TSL_STATUS_EVENTS n, s.more (Reg.TSL_STATUS_EVENTS n)), (flag, 1)]
  let frame := fun (cmd : Nat) (payload : List Byte) =>
    let head : List Byte := [BitVec.ofNat 8 r.seq, BitVec.ofNat 8 cmd, BitVec.ofNat 8 payload.length] ++ payload
    head ++ leBytes 2 (crc16 head)
  let next := (r.seq + 1) % 256
  let counted := (r.fseq + 1) % 2 ^ 16
  let good := crc16 (leBytes 2 r.fseq ++ body) == crc.toNat
  let ident := st == 2 && body.length == 13 && byteAt body 0 == 1 && byteAt body 5 == 1
  let at_ := fun (i k : Nat) => leNat ((body.drop i).take k)
  let k := r.scan
  let running := { r with sent := [], fseq := counted }
  let stopped := { k with active := false }
  let group := body.length == 261 && byteAt body 0 == 0x10
  let inOrder := byteAt body 1 == k.dseq && at_ 3 2 == k.first + k.got
  let discards := if k.active then [(Reg.TSL_SCANS_DISCARDED n, s.more (Reg.TSL_SCANS_DISCARDED n))] else []
  let bothDiscards := [(Reg.TSL_SCANS_SEQ_TIMEOUT n, s.more (Reg.TSL_SCANS_SEQ_TIMEOUT n)), (Reg.TSL_SCANS_DISCARDED n, s.more (Reg.TSL_SCANS_DISCARDED n))]
  let windows := if k.quiet then max 1 (min 8 (s.get (Reg.TOUCH_TRACK_QUIET_LINES n))) else 1
  let shown := s.running (s.get (Reg.TOUCH_CTRL_SCREEN n))
  let intended := fun (off : Nat) => if k.quiet then (instant : Int) else ((20000 + 12000 * k.convs + off : Nat) : Int)
  let placed := fun (m : Mark) (off : Nat) =>
    let x := intended off - (lead : Int)
    let grid := (k.phase : Int)
    ({ mark := m, time := if m = .close then x - (x - grid) % 80 else x + (grid - x) % 80, instant := intended off } : PlacedMark)
  let rank : Mark → Nat := fun m => match m with | .close => 0 | .conv => 1 | .beat => 2 | .open => 3
  let goesFirst := fun (a b : PlacedMark) => decide (a.time < b.time ∨ (a.time = b.time ∧ (a.instant < b.instant ∨
    (a.instant = b.instant ∧ rank a.mark ≤ rank b.mark))))
  let among := fun (m : PlacedMark) => k.marks.filter (fun a => goesFirst a m) ++ m :: k.marks.filter (fun a => !goesFirst a m)
  let due := fun (m : Mark) => k.active && (!k.quiet || (shown && s.quietInstant n m instant))
  let note := if same then [] else raised (Reg.TSL_STATUS_WRITE_WHILE_ACTIVE n)
  (s.Admits w 0x0F n false →
    (was = false → Does (.tslEnable n w v) s (s.setTch n { r with sent := [], discarded := 0 }) ((Reg.TSL_STATUS_STATE n, 1) :: fields 1) ∧
      Does (.tslDisable n w v) s silent (fields 0)) ∧
    (was = true → same = true ∨ s.SourceFree (63 + n) → Does (.tslEnable n w v) s silent note ∧
      Does (.tslDisable n w v) s (s.setTch n { r with sent := [], scan := stopped, reportDue := false })
        ([(Reg.TSL_CTRL_EN n, 0), (Reg.TSL_STATUS_STATE n, 0), (Reg.TOUCH_STATUS_PHASE n, if 2 ≤ ph ∧ ph ≤ 5 then 1 else ph),
          (Reg.TOUCH_ST_RESULT_RUNNING n, 0), (Reg.TOUCH_CTRL_RECAPTURE n, 0), (Reg.TOUCH_CTRL_SELFTEST n, 0)] ++ note))) ∧
  (st = 1 → Does (.tslAligned n) s (s.setTch n { r with sent := [frame 1 []], seq := next }) [(Reg.TSL_STATUS_STATE n, 2)]) ∧
  (st ≠ 1 → Does (.tslAligned n) s s []) ∧
  (st = 1 ∨ st = 2 → Does (.tslBringupTimeout n) s
    (s.setTch n { r with sent := [frame 0x0F []], seq := next, fseq := 0, discarded := 0 }) [(Reg.TSL_STATUS_STATE n, 1)]) ∧
  (st = 0 ∨ st = 3 → Does (.tslBringupTimeout n) s s []) ∧
  (st = 0 → Does (.tslIdent n body crc) s (s.setTch n running) [] ∧
    Does (.tslCodeError n inFrame) s (s.setTch n (if inFrame then running else { r with sent := [] })) []) ∧
  (st ≠ 0 →
    (good = false → s.SourceFree (63 + n) → Does (.tslIdent n body crc) s (s.setTch n running)
      ((Reg.TSL_ERRORS_CRC n, s.more (Reg.TSL_ERRORS_CRC n)) :: raised (Reg.TSL_STATUS_CRC_ERR n))) ∧
    (good = true → ident = false → Does (.tslIdent n body crc) s (s.setTch n running) []) ∧
    (good = true → ident = true →
      (Leads (.tslIdent n body crc) s fun t => t.get (Reg.TSL_STATUS_STATE n) = 3) ∧
      (s.bit (Reg.TOUCH_CTRL_EN n) = false → s.bit (Reg.FLT_IN_STATUS_CAUSE (160 + n)) = false → Does (.tslIdent n body crc) s
        (s.setTch n { running with sent := [frame 2 ((List.range 8).flatMap fun q => leBytes 2 (max 50 (min 1000 (s.get (Reg.TSL_FREQ_KHZ n q)))))],
                                   seq := next })
        [(Reg.TSL_STATUS_STATE n, 3), (Reg.TSL_IDENT_2_SERIAL n, at_ 9 4), (Reg.TSL_IDENT_1_H n, at_ 8 1), (Reg.TSL_IDENT_1_W n, min 511 (at_ 6 2)),
         (Reg.TSL_IDENT_1_PROTO n, at_ 5 1), (Reg.TSL_IDENT_0_MODEL n, at_ 3 2), (Reg.TSL_IDENT_0_VENDOR n, at_ 1 2)])) ∧
    (s.SourceFree (63 + n) →
      (inFrame = false ∨ k.active = false → Does (.tslCodeError n inFrame) s (s.setTch n (if inFrame then running else { r with sent := [] }))
        ((Reg.TSL_ERRORS_CODE n, s.more (Reg.TSL_ERRORS_CODE n)) :: raised (Reg.TSL_STATUS_CODE_ERR n))) ∧
      (inFrame = true → k.active = true → Does (.tslCodeError n inFrame) s
        (s.setTch n { running with scan := stopped, discarded := r.discarded + 1 })
        (discards ++ (Reg.TSL_ERRORS_CODE n, s.more (Reg.TSL_ERRORS_CODE n)) :: raised (Reg.TSL_STATUS_CODE_ERR n))))) ∧
  Does (.tslAbort n) s silent [] ∧
  (k.active = false → Does (.tslGroupTimeout n) s s [] ∧ Does (.tslOpen n phase instant) s silent [] ∧
    Does (.tslClose n phase instant) s silent [] ∧ Does (.tslConv n phase instant) s silent []) ∧
  (k.active = true → s.SourceFree (63 + n) → Does (.tslGroupTimeout n) s
    (s.setTch n { r with sent := [], scan := stopped, discarded := r.discarded + 1 }) (bothDiscards ++ raised (Reg.TSL_STATUS_TIMEOUT n))) ∧
  (due .open = true →
    (k.isOpen = false → k.opens < windows → k.convs < k.groups → Does (.tslOpen n phase instant) s
      (s.setTch n { r with sent := [], scan := { k with isOpen := true, opens := k.opens + 1, marks := among (placed .open 1000) } }) []) ∧
    (k.isOpen = true ∨ windows ≤ k.opens ∨ k.groups ≤ k.convs → Does (.tslOpen n phase instant) s silent [])) ∧
  (due .close = true →
    (k.isOpen = true → Does (.tslClose n phase instant) s
      (s.setTch n { r with sent := [], scan := { k with isOpen := false, marks := among (placed .close 11000) } }) []) ∧
    (k.isOpen = false → Does (.tslClose n phase instant) s silent [])) ∧
  (due .conv = true →
    (k.isOpen = false → k.opens = windows → Does (.tslConv n phase instant) s
      (s.setTch n { r with sent := [], scan := { k with opens := 0, convs := k.convs + 1, marks := among (placed .conv 12000) } }) []) ∧
    (k.isOpen = true ∨ k.opens ≠ windows → Does (.tslConv n phase instant) s silent [])) ∧
  (k.active = true → k.quiet = true → shown = true →
    (s.quietInstant n .open instant = false → Does (.tslOpen n phase instant) s silent []) ∧
    (s.quietInstant n .close instant = false → Does (.tslClose n phase instant) s silent []) ∧
    (s.quietInstant n .conv instant = false → Does (.tslConv n phase instant) s silent [])) ∧
  (k.active = true → k.quiet = true → shown = false →
    ∀ c ∈ [Instr.tslOpen n phase instant, .tslClose n phase instant, .tslConv n phase instant], Does c s
      (s.setTch n { r with sent := [], scan := stopped, discarded := r.discarded + 1 }) discards) ∧
  (st ≠ 3 → Does (.tslGroup n body crc e) s (s.setTch n running) [] ∧ Does (.tslSilence n) s s [] ∧ Does (.tslLost n) s s []) ∧
  (st = 3 →
    (good = false → s.SourceFree (63 + n) → Does (.tslGroup n body crc e) s
      (s.setTch n (if k.active then { running with scan := stopped, discarded := r.discarded + 1 } else running))
      (discards ++ (Reg.TSL_ERRORS_CRC n, s.more (Reg.TSL_ERRORS_CRC n)) :: raised (Reg.TSL_STATUS_CRC_ERR n))) ∧
    (good = true → group = false ∨ k.active = false → Does (.tslGroup n body crc e) s (s.setTch n running) []) ∧
    (good = true → group = true → k.active = true → inOrder = false → s.SourceFree (63 + n) → Does (.tslGroup n body crc e) s
      (s.setTch n { running with scan := stopped, discarded := r.discarded + 1 }) (bothDiscards ++ raised (Reg.TSL_STATUS_SEQ_ERR n))) ∧
    (good = true → group = true → k.active = true → inOrder = true →
      (k.got + 1 ≠ k.groups → SetsAnd (.tslGroup n body crc e) s [] fun t => (t.tch n).scan.got = k.got + 1 ∧ (t.tch n).scan.active = true ∧
        (t.tch n).fseq = counted ∧ (t.tch n).scan.beaten = e.beaten.map (·.val) ∧ ∀ i < 128, (k.first + k.got) * 128 + i < (s.grid n).pads →
          sget (fun _ => 0) (t.tch n).scan.counts ((k.first + k.got) * 128 + i) = at_ (5 + 2 * i) 2) ∧
      (k.got + 1 = k.groups → Leads (.tslGroup n body crc e) s fun t => (t.tch n).scan.active = false ∧ (t.tch n).discarded = 0)) ∧
    (Leads (.tslSilence n) s fun t => t.bit (Reg.TSL_STATUS_LOST n) = true ∧ t.get (Reg.TSL_STATUS_STATE n) = 1 ∧ (t.tch n).contacts = [] ∧
    (t.tch n).discarded = 0 ∧ (t.tch n).scan.active = false ∧ t.bit (Reg.FLT_IN_STATUS_CAUSE (160 + n)) = true) ∧
    (8 ≤ r.discarded → Leads (.tslLost n) s fun t => t.bit (Reg.TSL_STATUS_LOST n) = true ∧ t.get (Reg.TSL_STATUS_STATE n) = 1 ∧ (t.tch n).contacts = [] ∧
    (t.tch n).discarded = 0 ∧ (t.tch n).scan.active = false ∧ t.bit (Reg.FLT_IN_STATUS_CAUSE (160 + n)) = true) ∧
    (r.discarded < 8 → Does (.tslLost n) s s []))

/-- R247, R264, R267 to R279, R281 to R288: a touch engine. An enable is checked once the link is UP: a grid out of range or a budget
that does not hold halts the engine with its code; otherwise it starts, or waits for a baseline load. A disable releases the
contacts; an engine that C2 holds stays HALTED. While EN is 1 a change of SCREEN alone is ignored. A self-test and a recapture run
from SERVICE alone. A contact held for HOLD_LIMIT is released, and its pads are obstructed. A baseline load waits for the link, and
takes an image whose size, serial number and check value match; a dump is requested in SERVICE. At the last group of a drive scan in
SERVICE the deltas of its counts follow R268, and the baselines of pads that no contact holds move by BL_SHIFT, those about a
contact by the mean of the ring about them. A peak becomes a candidate without a report, a matched candidate a contact with the
lowest free ID and a DOWN, a matched contact follows its peak with a MOVE where something changed, a palm or a second missed scan
releases it with an UP, and a contact that enters a protected tile is released too; a report that comes too late changes no contact
and writes nothing. A listen scan takes the noise figure alone. In a quiet phase eight drive scans make one image, which becomes the
baseline but for the pads touched at the start. The readings and choices of the model behind it: log entries 18, 25, 72, 85, 96. -/
def Obligations.TouchEngineChecksItsEnable : Prop := ∀ (s : State) (n : Fin 8) (w : World) (v : Word) (id : Fin 20) (body : List Byte) (crc : BitVec 16)
    (e : ScanEnd),
  let r := s.tch n
  let was := s.bit (Reg.TOUCH_CTRL_EN n)
  let ph := s.get (Reg.TOUCH_STATUS_PHASE n)
  let screen := s.get (Reg.TOUCH_CTRL_SCREEN n)
  let up := s.get (Reg.TSL_STATUS_STATE n) == 3
  let raised := fun (flag : Fld) => [(Reg.IC_SRC_PENDING (71 + n), 1), (Reg.TOUCH_STATUS_EVENTS n, s.more (Reg.TOUCH_STATUS_EVENTS n)), (flag, 1)]
  let refused := fun (code : Nat) => raised (Reg.TOUCH_STATUS_CFG_ERR n) ++ [(Reg.TOUCH_STATUS_ERR_CODE n, code)]
  let fields := fun (en : Nat) => [(Reg.TOUCH_CTRL_SCREEN n, getBits v 16 3), (Reg.TOUCH_CTRL_EN n, en)]
  let same := getBits v 16 3 == screen
  let note := if same then [] else raised (Reg.TOUCH_STATUS_WRITE_WHILE_ACTIVE n)
  let plain := getBits v 2 2 == 0
  let width := s.get (Reg.TSL_IDENT_1_W n)
  let height := s.get (Reg.TSL_IDENT_1_H n)
  let fits := decide (1 ≤ width ∧ width ≤ 256 ∧ 1 ≤ height ∧ height ≤ 128)
  let placed := s.set (Reg.TOUCH_CTRL_SCREEN n) (getBits v 16 3)
  let budget := placed.budgetErr n
  let begun := { r with started := true, sums := [], quietScans := 0 }
  let lim := s.get (Reg.TOUCH_TRACK_HOLD_LIMIT n)
  let held := r.contacts.find? fun c => c.id == id.val
  let c0 := held.getD (newContact 0 0 false)
  let past := lim != 0 && decide (lim * s.beatRate.num ≤ (s.drumbeat - c0.downDrum) * s.beatRate.den)
  let cleared := fun (f : Fld) => (f, if getBits v f.lo 1 = 1 then 0 else s.get f)
  let w1c := [cleared (Reg.TOUCH_BL_CMD_LOAD_REJECTED n), cleared (Reg.TOUCH_BL_CMD_DONE n)]
  let pads := width * height
  let image := (s.readBytes (s.ownerWorld 0x10 n) (256 * s.get (Reg.TOUCH_BL_ADDR_ADDR n)) (16 + 4 * pads)).getD []
  let word := fun (i k : Nat) => leNat ((image.drop i).take k)
  let matches_ := decide (image ≠ []) && word 0 2 == width && word 2 1 == height &&
    word 4 4 == s.get (Reg.TSL_IDENT_2_SERIAL n) && word 8 4 == crc32c (image.drop 16)
  let k := r.scan
  let g := s.grid n
  let group := k.first + k.got
  let at_ := fun (i j : Nat) => leNat ((body.drop i).take j)
  let ends := up && crc16 (leBytes 2 r.fseq ++ body) == crc.toNat && body.length == 261 && byteAt body 0 == 0x10 && k.active &&
    byteAt body 1 == k.dseq && at_ 3 2 == group && k.got + 1 == k.groups
  let listen := k.listen
  let drive := ends && ph == 3 && !listen
  let taken := fun (p : Nat) => if p / 128 = group then at_ (5 + 2 * (p % 128)) 2 else padNat k.counts p
  let count := fun (p : Nat) => if k.first ≤ p / 128 ∧ p / 128 ≤ group then taken p else padNat r.counts p
  let at24 := fun (l : List (Nat × Nat)) (p : Nat) => (padArray pads l).getD p 0
  let above := fun (p : Nat) => ((256 * count p : Nat) : Int) - (at24 r.base p : Int)
  let delta := fun (p : Nat) => max (-32768) (min 32767 ((above p + 128) / 256))
  let noise := s.bit (Reg.TOUCH_STATUS_NOISE n)
  let old := fun (l : List (Nat × Int)) (p : Nat) => sget (fun _ => 0) l p
  let middle := fun (x y z : Int) => x + y + z - max x (max y z) - min x (min y z)
  let steady := fun (p : Nat) => if noise then middle (delta p) (old r.prev1 p) (old r.prev2 p) else delta p
  let F := clearPads (g.filtered ((List.range pads).map steady).toArray) r.obstructedPads
  let rel := s.touchRelease n
  let all := g.detect F (s.touchT n) rel (s.get (Reg.TOUCH_THRESH_PALM_PADS n))
  let live := all.filter fun p => p.palm || !p.water
  let level := (List.range pads).all fun p => decide (-rel < F.getD p 0)
  let near := fun (a b : Nat) => decide (g.dist a b ≤ s.get (Reg.TOUCH_TRACK_MOVE_MAX n))
  let spot := fun (p : Peak) => g.spot F (s.touchMap n) p.pad
  let shown := fun (c : Contact) => (c.id, c.pad, ({ x := c.x, y := c.y, inten := c.inten } : Spot), c.area, c.misses)
  let seen := fun (i : Nat) (p : Peak) => (i, p.pad, spot p, min 255 p.region.length, 0)
  let shift := max 4 (min 12 (s.get (Reg.TOUCH_TRACK_BL_SHIFT n)))
  let step := fun (p : Nat) => (at24 r.base p : Int) + above p / 2 ^ shift
  let moves := fun (p : Nat) => !r.freshFreq && decide ((delta p).natAbs < rel.natAbs)
  let candidate := fun (p : Peak) => ({ pad := p.pad, peak := p.value } : Candidate)
  let one := r.contacts.headD (newContact 0 0 false)
  let aimed := r.candidates.headD { pad := 0, peak := 0 }
  let p0 := live.headD { pad := 0, value := 0, region := [], palm := false, water := false }
  let alone := live.length == 1
  let frozen := (List.range pads).filter fun p => one.region.any fun q => p == q || g.dist p q == 1 && (g.near q).contains p
  let ring := (List.range pads).filter fun p => !frozen.contains p && moves p && frozen.any fun q => (g.near q).contains p
  let hit := s.hitAt n (spot p0).x (spot p0).y
  let q := match hit with | .session j => j | _ => 0
  let mine := one.session.getD 0
  let zone := fun (j x y : Nat) => s.zoneAt n j x y
  let runs := fun (j : Nat) => s.bit (Reg.SESS_TQ_CTRL_EN j) && !s.tqFull j && !(s.ses j).tqSync
  let frameOr := fun (x : Nat) => ((s.hitNow n).map (·.frame)).getD x
  let note32 := if noise then 0x40 else 0
  let kept := (if one.startHeld then 1 else 0) + (if one.button then 0x100 else 0) + note32
  let record := fun (type i flags : Nat) (x : Spot) (frame area zone : Nat) =>
    leBytes 4 (type * 2 ^ 24 + i * 2 ^ 16 + n.val * 2 ^ 12 + flags) ++ leBytes 4 x.x ++ leBytes 4 (x.inten * 2 ^ 16 + x.y) ++
      leBytes 4 frame ++ leBytes 8 k.drum ++ leBytes 4 (area * 2 ^ 8 + zone) ++ leBytes 4 0
  let put := fun (j : Nat) (bytes : List Byte) =>
    s.dmaWrite (s.ownerWorld 0x10 n) 26 ((s.ses j).tqAddr + 32 * (s.get (Reg.SESS_TQ_WR_INDEX j) % s.tqSize j)) bytes
  let advanced := fun (j : Nat) (t : State) =>
    t.get (Reg.SESS_TQ_WR_INDEX j) = (s.get (Reg.SESS_TQ_WR_INDEX j) % s.tqSize j + 1) % s.tqSize j % 2 ^ 16
  let place := spot p0
  let moved := place.x != one.sent.1 || place.y != one.sent.2.1 || decide (4 ≤ ((place.inten : Int) - one.sent.2.2).natAbs)
  let pairs := ((List.range pads).filter fun p => decide (p % 128 ≠ 0 ∧ k.first ≤ p / 128 ∧ p / 128 ≤ group)).map fun p =>
    ((taken p : Int) - taken (p - 1)).natAbs
  let figure := pairs.sum / max 1 pairs.length
  let thr := s.get (Reg.TOUCH_LISTEN_LISTEN_THRESH n)
  let sum8 := fun (p : Nat) => at24 r.sums p + count p
  let stored := ph == 5 || s.bit (Reg.TOUCH_STATUS_STORED_VALID n)
  let ref := fun (p : Nat) => at24 (if ph = 5 then r.base else r.stored) p
  let touched := fun (p : Nat) => stored && decide (s.get (Reg.TOUCH_THRESH_TOUCH_THRESH n) ≤
    max (-32768) (min 32767 (((32 * sum8 p : Nat) - (ref p : Int) + 128) / 256)))
  (s.Admits w 0x10 n false →
    (plain = true → was = true → same = true ∨ s.SourceFree (71 + n) → Does (.touchEnable n w v) s s note) ∧
    (plain = true → was = false → r.contained = true → Does (.touchEnable n w v) s s (fields 1)) ∧
    (plain = true → was = false → r.contained = false →
      (up = false → Does (.touchEnable n w v) s s ((Reg.TOUCH_STATUS_PHASE n, 1) :: fields 1)) ∧
      (up = true → fits = false → s.SourceFree (71 + n) → Does (.touchEnable n w v) s s (refused 3 ++ (Reg.TOUCH_STATUS_PHASE n, 6) :: fields 1)) ∧
      (up = true → fits = true → s.SourceFree (71 + n) → ∀ e ∈ budget,
        Does (.touchEnable n w v) s s (refused e ++ (Reg.TOUCH_STATUS_PHASE n, 6) :: fields 1)) ∧
      (up = true → fits = true → budget = none → r.loadDue = true → Does (.touchEnable n w v) s s ((Reg.TOUCH_STATUS_PHASE n, 1) :: fields 1)) ∧
      (up = true → fits = true → budget = none → r.loadDue = false → Does (.touchEnable n w v) s (s.setTch n begun)
        ((Reg.TOUCH_STATUS_PHASE n, if r.started then 5 else 2) :: fields 1))) ∧
    (plain = true → was = false → Does (.touchDisable n w v) s s (fields 0)) ∧
    (plain = true → was = true → Leads (.touchDisable n w v) s fun t => t.get (Reg.TOUCH_STATUS_PHASE n) = (if r.contained then ph else 0) ∧
      t.bit (Reg.TOUCH_CTRL_EN n) = false ∧ t.get (Reg.TOUCH_CTRL_SCREEN n) = screen ∧
      (same = false → t.bit (Reg.TOUCH_STATUS_WRITE_WHILE_ACTIVE n) = true) ∧ (t.tch n).contacts = [] ∧ (t.tch n).candidates = [] ∧
      (t.tch n).scan.active = false ∧ t.bit (Reg.TOUCH_CTRL_SELFTEST n) = false ∧ t.bit (Reg.TOUCH_CTRL_RECAPTURE n) = false) ∧
    (was = true → getBits v 0 1 = 1 →
      (getBits v 2 1 = 0 → ph ≠ 3 → same = true → s.SourceFree (71 + n) → Does (.touchSelftest n w v) s s (refused 4)) ∧
      (getBits v 2 1 = 0 → ph = 3 → Leads (.touchSelftest n w v) s fun t => t.get (Reg.TOUCH_STATUS_PHASE n) = 4 ∧
        t.bit (Reg.TOUCH_CTRL_SELFTEST n) = true ∧ t.bit (Reg.TOUCH_ST_RESULT_RUNNING n) = true ∧ (t.tch n).contacts = [] ∧
        (t.tch n).stImage = 0 ∧ (t.tch n).quietScans = 0 ∧ (t.tch n).scan.active = false ∧ t.get (Reg.TOUCH_CTRL_SCREEN n) = screen ∧
        (same = false → t.bit (Reg.TOUCH_STATUS_WRITE_WHILE_ACTIVE n) = true)) ∧
      (getBits v 3 1 = 0 → ph ≠ 3 → same = true → s.SourceFree (71 + n) → Does (.touchRecapture n w v) s s (refused 4)) ∧
      (getBits v 3 1 = 0 → ph = 3 → Leads (.touchRecapture n w v) s fun t => t.get (Reg.TOUCH_STATUS_PHASE n) = 5 ∧
        t.bit (Reg.TOUCH_CTRL_RECAPTURE n) = true ∧ (t.tch n).contacts = [] ∧ (t.tch n).obstructed = [] ∧ (t.tch n).quietScans = 0 ∧
        (t.tch n).scan.active = false ∧ t.get (Reg.TOUCH_CTRL_SCREEN n) = screen ∧
        (same = false → t.bit (Reg.TOUCH_STATUS_WRITE_WHILE_ACTIVE n) = true))) ∧
    (getBits v 3 1 = 0 → ph ≤ 1 → Does (.baselineLoad n w v) s (s.setTch n { r with loadDue := true })
      ([(Reg.TOUCH_BL_CMD_BUSY n, 1), (Reg.TOUCH_BL_CMD_LOAD n, 1)] ++ w1c)) ∧
    (getBits v 3 1 = 0 → 2 ≤ ph → s.SourceFree (71 + n) → Does (.baselineLoad n w v) s s (raised (Reg.TOUCH_STATUS_WRITE_WHILE_ACTIVE n) ++ w1c)) ∧
    (getBits v 4 1 = 0 → ph = 3 → Does (.baselineDump n w v) s (s.setTch n { r with dumpDue := true })
      ([(Reg.TOUCH_BL_CMD_BUSY n, 1), (Reg.TOUCH_BL_CMD_DUMP n, 1)] ++ w1c)) ∧
    (getBits v 4 1 = 0 → ph ≠ 3 → s.SourceFree (71 + n) → Does (.baselineDump n w v) s s (raised (Reg.TOUCH_STATUS_WRITE_WHILE_ACTIVE n) ++ w1c))) ∧
  (held = none ∨ past = false → Does (.touchHoldLimit n id) s s []) ∧
  (held.isSome = true → past = true → Leads (.touchHoldLimit n id) s fun t => t.bit (Reg.FLT_IN_STATUS_CAUSE (168 + n)) = true ∧
    (t.tch n).contacts.any (fun c => c.id == id.val) = false ∧ (t.tch n).obstructed.any (fun o => o.pads == c0.region) = true) ∧
  (r.loadDue = false ∨ up = false → Does (.baselineLoadRun n) s s []) ∧
  (r.loadDue = true → up = true → Leads (.baselineLoadRun n) s fun t => (t.tch n).loadDue = false ∧ t.bit (Reg.TOUCH_BL_CMD_DONE n) = true ∧
    t.bit (Reg.TOUCH_BL_CMD_BUSY n) = r.dumpDue ∧ t.bit (Reg.TOUCH_BL_CMD_LOAD n) = false ∧ s.SameBytes t ∧
    (if matches_ then t.bit (Reg.TOUCH_STATUS_STORED_VALID n) = true ∧
        ∀ p < pads, sget (fun _ => 0) (t.tch n).stored p = leNat ((image.drop (16 + 4 * p)).take 3)
      else t.bit (Reg.TOUCH_BL_CMD_LOAD_REJECTED n) = true ∧ (t.tch n).stored = r.stored)) ∧
  (drive = true →
    (Leads (.tslGroup n body crc e) s fun t => (t.tch n).scan.active = false ∧ (t.tch n).discarded = 0 ∧ (t.tch n).freshFreq = false ∧
      (t.tch n).prev2 = r.prev1 ∧ ∀ p < pads, at24 (t.tch n).counts p = count p ∧ old (t.tch n).prev1 p = delta p) ∧
    (r.contacts = [] → r.obstructed = [] → r.held = [] → live = [] → level = true → Leads (.tslGroup n body crc e) s fun t =>
      (t.tch n).contacts = [] ∧ (e.late = false → (t.tch n).candidates = []) ∧
      ∀ p < pads, at24 (t.tch n).base p = if moves p then (step p).toNat % 2 ^ 24 else at24 r.base p) ∧
    (e.late = true → Leads (.tslGroup n body crc e) s fun t => (t.tch n).reportDue = true ∧ (t.tch n).contacts = r.contacts ∧
      (t.tch n).candidates = r.candidates ∧ s.SameBytes t ∧
      (r.contacts.length = 1 → r.obstructed = [] → r.held = [] → level = true → ∀ p < pads, at24 (t.tch n).base p =
        if p ∈ frozen then ((at24 r.base p : Int) + Int.tdiv (ring.map fun x => ((step x).toNat % 2 ^ 24 : Nat) - (at24 r.base x : Int)).sum
          ring.length).toNat % 2 ^ 24
        else if moves p then (step p).toNat % 2 ^ 24 else at24 r.base p)) ∧
    (e.late = false →
      (r.contacts = [] → r.candidates = [] → r.held = [] → Leads (.tslGroup n body crc e) s fun t => (t.tch n).contacts = [] ∧
        (t.tch n).candidates = (((live.filter fun p => !p.palm).mergeSort fun a b =>
          decide (b.value < a.value) || (a.value == b.value && decide (a.pad ≤ b.pad))).take 20).map candidate) ∧
      (r.contacts = [] → r.candidates.length = 1 → r.held = [] → alone = true → p0.palm = false → near aimed.pad p0.pad = true →
        (Leads (.tslGroup n body crc e) s fun t => (t.tch n).candidates = [] ∧ (t.tch n).contacts.map shown = [seen 0 p0]) ∧
        (hit = .session q → runs q = true → zone q place.x place.y = 0xFF → k.half = 0 → r.dumpDue = false → Leads (.tslGroup n body crc e) s fun t =>
          (put q (record 1 0 note32 place (frameOr 0) (min 255 p0.region.length) 0xFF)).SameBytes t ∧ advanced q t)) ∧
      (r.contacts.length = 1 → r.candidates.length = 1 → one.id < 20 → one.misses = 0 → alone = true → p0.palm = false →
        near aimed.pad p0.pad = true → near one.pad p0.pad = false → Leads (.tslGroup n body crc e) s fun t =>
        (t.tch n).candidates = [] ∧ (t.tch n).contacts.length = 2 ∧ (t.tch n).contacts.any (fun c => c.id == one.id && c.misses == 1) = true ∧
        (t.tch n).contacts.any (fun c => shown c == seen (if one.id = 0 then 1 else 0) p0) = true) ∧
      (r.contacts.length = 1 → r.candidates = [] → one.id < 20 → r.dumpDue = false →
        (alone = true → near one.pad p0.pad = true →
          (p0.palm = true → Leads (.tslGroup n body crc e) s fun t => (t.tch n).contacts = []) ∧
          (p0.palm = false → (Leads (.tslGroup n body crc e) s fun t => (t.tch n).candidates = [] ∧
              (t.tch n).contacts.map shown = [seen one.id p0]) ∧
            (hit ≠ .session 0 → moved = false → one.resend = false → Leads (.tslGroup n body crc e) s fun t => s.SameBytes t) ∧
            (hit ≠ .session 0 → moved = true → one.session.isSome = true → runs mine = true → k.half = 0 → Leads (.tslGroup n body crc e) s fun t =>
              (put mine (record 2 one.id kept place (frameOr one.hitFrame) (min 255 p0.region.length) (zone mine place.x place.y))).SameBytes t ∧
              advanced mine t) ∧
            (hit = .session 0 → 2 ≤ mine → runs mine = true → k.half = 0 → Leads (.tslGroup n body crc e) s fun t =>
              (put mine (record 3 one.id (kept + 8) place (frameOr one.hitFrame) (min 255 p0.region.length) (zone mine place.x place.y))).SameBytes t ∧
              advanced mine t ∧ (t.tch n).contacts.all (fun c => c.session.isNone) = true))) ∧
        (live = [] →
          (one.misses = 0 → hit ≠ .session 0 → Leads (.tslGroup n body crc e) s fun t => (t.tch n).contacts.map (fun c => (c.id, c.pad, c.misses)) =
            [(one.id, one.pad, 1)]) ∧
          (1 ≤ one.misses → (Leads (.tslGroup n body crc e) s fun t => (t.tch n).contacts = []) ∧
            (one.session.isSome = true → runs mine = true → k.half = 0 → Leads (.tslGroup n body crc e) s fun t =>
              (put mine (record 3 one.id kept { x := one.x, y := one.y, inten := one.inten } (frameOr one.hitFrame) one.area
                (zone mine one.x one.y))).SameBytes t ∧ advanced mine t)))))) ∧
  (ends = true → ph = 3 → listen = true → Leads (.tslGroup n body crc e) s fun t =>
    t.get (Reg.TOUCH_LISTEN_NOISE_LAST n) = figure ∧ (t.tch n).contacts = r.contacts ∧ (t.tch n).candidates = r.candidates ∧
    (t.tch n).counts = r.counts ∧ (t.tch n).base = r.base ∧ s.SameBytes t ∧
    (noise = false → t.bit (Reg.TOUCH_STATUS_NOISE n) = decide (thr < figure) ∧ t.get (Reg.TOUCH_COUNTS2_FREQ n) = s.get (Reg.TOUCH_COUNTS2_FREQ n) ∧
      (thr < figure → t.bit (Reg.FLT_IN_STATUS_CAUSE (176 + n)) = true ∧
        t.get (Reg.TOUCH_COUNTS2_NOISE_ENTRIES n) = s.more (Reg.TOUCH_COUNTS2_NOISE_ENTRIES n))) ∧
    (noise = true → t.bit (Reg.TOUCH_STATUS_NOISE n) = !(decide (figure ≤ thr / 2) && decide (3 ≤ r.calm)))) ∧
  (ends = true → listen = false → ph = 2 ∨ ph = 4 ∨ ph = 5 → r.quietScans < 7 → Leads (.tslGroup n body crc e) s fun t =>
    (t.tch n).quietScans = r.quietScans + 1 ∧ t.get (Reg.TOUCH_STATUS_PHASE n) = ph ∧ (t.tch n).contacts = r.contacts ∧
    (t.tch n).base = r.base ∧ s.SameBytes t ∧ ∀ p < pads, at24 (t.tch n).sums p = sum8 p) ∧
  (ends = true → listen = false → ph = 2 ∨ ph = 5 → 7 ≤ r.quietScans → Leads (.tslGroup n body crc e) s fun t =>
    (t.tch n).quietScans = 0 ∧ (t.tch n).sums = [] ∧ t.get (Reg.TOUCH_STATUS_PHASE n) = 3 ∧ t.bit (Reg.TOUCH_CTRL_RECAPTURE n) = false ∧
    (e.late = true → (t.tch n).reportDue = true ∧ (t.tch n).contacts = r.contacts) ∧
    (r.obstructed = [] → (t.tch n).held = ((List.range pads).filter touched).map (fun p => (p, 0)) ∧
      ∀ p < pads, at24 (t.tch n).base p = if touched p then ref p else 32 * sum8 p))
end

