-- ==== Sys2Proof/Laws/Bits.lean ====
section
/-! SUPPORT. Bit fields of a register: what each bit is after a field is set, and what a field reads. -/

namespace Sys2Proof.Machine

theorem testBit_getBits (w : Word) (lo n j : Nat) : (getBits w lo n).testBit j = (decide (j < n) && w.getLsbD (lo + j)) := by
  simp [getBits, Nat.testBit_mod_two_pow, Nat.testBit_shiftRight, BitVec.testBit_toNat]

/-- A bit of a register after a field of it is set. -/
theorem getLsbD_setBits (w : Word) (lo n v i : Nat) (hi : i < 32) :
    (setBits w lo n v).getLsbD i = if lo ≤ i ∧ i < lo + n then v.testBit (i - lo) else w.getLsbD i := by
  have hm : (BitVec.ofNat 32 (2 ^ n - 1) <<< lo).getLsbD i = decide (lo ≤ i ∧ i < lo + n) := by
    rw [BitVec.getLsbD_shiftLeft, BitVec.getLsbD_ofNat, Nat.testBit_two_pow_sub_one]
    by_cases h : lo ≤ i
    · have : ¬ i < lo := by omega
      have h32 : i - lo < 32 := by omega
      by_cases h2 : i < lo + n
      · have : i - lo < n := by omega
        simp_all
      · have : ¬ i - lo < n := by omega
        simp [h2, this]
    · simp [h]
  have hv : (BitVec.ofNat 32 v <<< lo).getLsbD i = (decide (lo ≤ i) && v.testBit (i - lo)) := by
    rw [BitVec.getLsbD_shiftLeft, BitVec.getLsbD_ofNat]
    by_cases h : lo ≤ i
    · have : ¬ i < lo := by omega
      have h32 : i - lo < 32 := by omega
      simp [h, hi, h32, this]
    · have : i < lo := by omega
      simp [h, this]
  unfold setBits
  rw [BitVec.getLsbD_or, BitVec.getLsbD_and, BitVec.getLsbD_and, BitVec.getLsbD_not, hm, hv]
  by_cases h : lo ≤ i ∧ i < lo + n
  · simp [h]
  · simp [h, hi]

/-- A field reads what was written to it. -/
theorem getBits_setBits_same (w : Word) (lo n v : Nat) (h : lo + n ≤ 32) : getBits (setBits w lo n v) lo n = v % 2 ^ n := by
  refine Nat.eq_of_testBit_eq fun j => ?_
  rw [testBit_getBits, Nat.testBit_mod_two_pow]
  by_cases hj : j < n
  · rw [getLsbD_setBits _ _ _ _ _ (by omega)]
    have : lo ≤ lo + j ∧ lo + j < lo + n := by omega
    simp [this]
  · simp [hj]

/-- A field reads what it read before where the field written does not overlap it. -/
theorem getBits_setBits_other (w : Word) (lo n v lo' n' : Nat) (h : lo' + n' ≤ 32) (h' : lo' + n' ≤ lo ∨ lo + n ≤ lo') :
    getBits (setBits w lo n v) lo' n' = getBits w lo' n' := by
  refine Nat.eq_of_testBit_eq fun j => ?_
  rw [testBit_getBits, testBit_getBits]
  by_cases hj : j < n'
  · rw [getLsbD_setBits _ _ _ _ _ (by omega)]
    have : ¬ (lo ≤ lo' + j ∧ lo' + j < lo + n) := by omega
    simp only [this, if_false]
  · simp [hj]

theorem getBits_lt (w : Word) (lo n : Nat) : getBits w lo n < 2 ^ n := Nat.mod_lt _ (Nat.two_pow_pos n)

end Sys2Proof.Machine
end

