-- ==== Sys2Proof/Laws/Store.lean ====
section
/-! SUPPORT. Sparse stores: what is read after a write, and the canonical form that every write keeps. -/

namespace Sys2Proof.Machine

variable {β : Type} {d : Nat → β}

theorem sget_sdel_same (m : List (Nat × β)) (k : Nat) : sget d (sdel k m) k = d k := by
  induction m with
  | nil => rfl
  | cons p m ih =>
    obtain ⟨j, w⟩ := p
    by_cases h : j = k
    · simp [sdel, h, ih]
    · simp [sdel, sget, h, ih, Ne.symm h]

theorem sget_sdel_other (m : List (Nat × β)) {k j : Nat} (h : j ≠ k) : sget d (sdel k m) j = sget d m j := by
  induction m with
  | nil => rfl
  | cons p m ih =>
    obtain ⟨i, w⟩ := p
    by_cases hi : i = k
    · subst hi; simp [sdel, sget, ih, h]
    · simp [sdel, sget, hi, ih]

theorem sget_sins_other (m : List (Nat × β)) {k j : Nat} (v : β) (h : j ≠ k) : sget d (sins k v m) j = sget d m j := by
  induction m with
  | nil => simp [sins, sget, h]
  | cons p m ih => obtain ⟨i, w⟩ := p; by_cases hi : k < i <;> simp [sins, sget, hi, ih, h]

theorem sget_sins_same (m : List (Nat × β)) (k : Nat) (v : β) (h : ∀ p ∈ m, p.1 ≠ k) : sget d (sins k v m) k = v := by
  induction m with
  | nil => simp [sins, sget]
  | cons p m ih =>
    obtain ⟨i, w⟩ := p
    have hi : i ≠ k := h (i, w) (by simp)
    by_cases hk : k < i
    · simp [sins, sget, hk]
    · simp [sins, sget, hk, Ne.symm hi, ih fun q hq => h q (by simp [hq])]

theorem sdel_key (m : List (Nat × β)) (k : Nat) : ∀ p ∈ sdel k m, p.1 ≠ k := by
  induction m with
  | nil => simp [sdel]
  | cons p m ih =>
    obtain ⟨j, w⟩ := p
    by_cases h : j = k
    · simpa [sdel, h] using ih
    · intro q hq
      simp only [sdel, h, if_false, List.mem_cons] at hq
      rcases hq with rfl | hq
      · exact h
      · exact ih q hq

theorem sdel_mem {m : List (Nat × β)} {k : Nat} {p : Nat × β} (h : p ∈ sdel k m) : p ∈ m := by
  induction m with
  | nil => simp [sdel] at h
  | cons q m ih =>
    obtain ⟨j, w⟩ := q
    by_cases hj : j = k
    · simp only [sdel, hj, if_true] at h; exact List.mem_cons_of_mem _ (ih h)
    · simp only [sdel, hj, if_false, List.mem_cons] at h
      rcases h with rfl | h
      · simp
      · exact List.mem_cons_of_mem _ (ih h)

theorem sins_mem {m : List (Nat × β)} {k : Nat} {v : β} {p : Nat × β} (h : p ∈ sins k v m) : p = (k, v) ∨ p ∈ m := by
  induction m with
  | nil => simpa [sins] using h
  | cons q m ih =>
    obtain ⟨j, w⟩ := q
    by_cases hj : k < j
    · simpa [sins, hj] using h
    · simp only [sins, hj, if_false, List.mem_cons] at h
      rcases h with rfl | h
      · simp
      · rcases ih h with h | h
        · exact .inl h
        · exact .inr (List.mem_cons_of_mem _ h)

variable [DecidableEq β]

/-- A read of the written key gives the value written. -/
theorem sget_sput_same (m : List (Nat × β)) (k : Nat) (v : β) : sget d (sput d m k v) k = v := by
  unfold sput
  split
  · rename_i h; rw [sget_sdel_same, h]
  · exact sget_sins_same _ _ _ (sdel_key m k)

/-- A read of another key gives what it gave before. -/
theorem sget_sput_other (m : List (Nat × β)) {k j : Nat} (v : β) (h : j ≠ k) : sget d (sput d m k v) j = sget d m j := by
  unfold sput
  split
  · exact sget_sdel_other m h
  · rw [sget_sins_other _ _ h, sget_sdel_other m h]

theorem sget_sput (m : List (Nat × β)) (k j : Nat) (v : β) :
    sget d (sput d m k v) j = if j = k then v else sget d m j := by
  split
  · rename_i h; rw [h, sget_sput_same]
  · rename_i h; exact sget_sput_other m v h

/-! ### The canonical form -/

theorem swf_cons {j : Nat} {v : β} {m : List (Nat × β)} :
    swf d ((j, v) :: m) = true ↔ v ≠ d j ∧ (∀ p ∈ m, j < p.1) ∧ swf d m = true := by
  simp [swf, and_assoc]

theorem swf_sdel {m : List (Nat × β)} (k : Nat) (h : swf d m = true) : swf d (sdel k m) = true := by
  induction m with
  | nil => rfl
  | cons p m ih =>
    obtain ⟨j, w⟩ := p
    obtain ⟨h1, h2, h3⟩ := swf_cons.1 h
    by_cases hj : j = k
    · simpa [sdel, hj] using ih h3
    · simp only [sdel, hj, if_false]
      exact swf_cons.2 ⟨h1, fun q hq => h2 q (sdel_mem hq), ih h3⟩

theorem swf_sins {m : List (Nat × β)} {k : Nat} {v : β} (hv : v ≠ d k) (hk : ∀ p ∈ m, p.1 ≠ k) (h : swf d m = true) :
    swf d (sins k v m) = true := by
  induction m with
  | nil => exact swf_cons.2 ⟨hv, by simp, rfl⟩
  | cons p m ih =>
    obtain ⟨j, w⟩ := p
    obtain ⟨h1, h2, h3⟩ := swf_cons.1 h
    have hj : j ≠ k := hk (j, w) (by simp)
    by_cases hlt : k < j
    · simp only [sins, hlt, if_true]
      refine swf_cons.2 ⟨hv, fun q hq => ?_, h⟩
      rcases List.mem_cons.1 hq with rfl | hq
      · exact hlt
      · exact lt_trans hlt (h2 q hq)
    · simp only [sins, hlt, if_false]
      refine swf_cons.2 ⟨h1, fun q hq => ?_, ih (fun q hq => hk q (by simp [hq])) h3⟩
      rcases sins_mem hq with rfl | hq
      · exact lt_of_le_of_ne (not_lt.1 hlt) hj
      · exact h2 q hq

/-- A write keeps the canonical form. -/
theorem swf_sput {m : List (Nat × β)} (k : Nat) (v : β) (h : swf d m = true) : swf d (sput d m k v) = true := by
  unfold sput
  split
  · exact swf_sdel k h
  · rename_i hv; exact swf_sins hv (sdel_key m k) (swf_sdel k h)

/-- Taking entries out keeps the canonical form. -/
theorem swf_filter {m : List (Nat × β)} (p : Nat × β → Bool) (h : swf d m = true) : swf d (m.filter p) = true := by
  induction m with
  | nil => rfl
  | cons q m ih =>
    obtain ⟨j, w⟩ := q
    obtain ⟨h1, h2, h3⟩ := swf_cons.1 h
    by_cases hp : p (j, w)
    · rw [List.filter_cons_of_pos hp]
      exact swf_cons.2 ⟨h1, fun q hq => h2 q (List.mem_filter.1 hq).1, ih h3⟩
    · rw [List.filter_cons_of_neg hp]; exact ih h3

end Sys2Proof.Machine
end

