-- ==== Sys2Proof/Laws/State.lean ====
section
/-! SUPPORT. State: one lemma for each field and each shared update of registers, and what registers and fields read after
one. -/

namespace Sys2Proof.Machine

/-! ### Registers and fields -/

@[simp] theorem State.reg_setReg (s : State) (a b : Nat) (v : Word) : (s.setReg a v).reg b = if b = a then v else s.reg b :=
  sget_sput _ _ _ _

theorem State.reg_congr {s t : State} (h : t.regs = s.regs) (a : Nat) : t.reg a = s.reg a := by
  unfold State.reg; rw [h]

theorem State.get_congr {s t : State} (h : t.regs = s.regs) (f : Fld) : t.get f = s.get f := by
  unfold State.get; rw [State.reg_congr h]

theorem State.reg_set (s : State) (f : Fld) (v a : Nat) :
    (s.set f v).reg a = if a = f.addr then setBits (s.reg f.addr) f.lo f.width v else s.reg a := State.reg_setReg _ _ _ _

/-- A field reads the low bits of the value it was set to. -/
theorem State.get_set_same (s : State) (f : Fld) (v : Nat) (h : f.lo + f.width ≤ 32) :
    (s.set f v).get f = v % 2 ^ f.width := by
  unfold State.get; rw [State.reg_set, if_pos rfl, getBits_setBits_same _ _ _ _ h]

/-- A field of another register reads what it read. -/
theorem State.get_set_other (s : State) (f g : Fld) (v : Nat) (h : g.addr ≠ f.addr) : (s.set f v).get g = s.get g := by
  unfold State.get; rw [State.reg_set, if_neg h]

/-- A field of the same register that does not overlap reads what it read. -/
theorem State.get_set_apart (s : State) (f g : Fld) (v : Nat) (hg : g.lo + g.width ≤ 32)
    (h : g.lo + g.width ≤ f.lo ∨ f.lo + f.width ≤ g.lo) : (s.set f v).get g = s.get g := by
  by_cases ha : g.addr = f.addr
  · unfold State.get; rw [State.reg_set, if_pos ha, getBits_setBits_other _ _ _ _ _ _ hg h, ha]
  · exact State.get_set_other s f g v ha

/-- A field that does not share a bit with the field set reads what it read. -/
theorem State.get_set_ne (s : State) (f g : Fld) (v : Nat) (hg : g.lo + g.width ≤ 32)
    (h : g.addr ≠ f.addr ∨ g.lo + g.width ≤ f.lo ∨ f.lo + f.width ≤ g.lo) : (s.set f v).get g = s.get g :=
  h.elim (State.get_set_other s f g v) (State.get_set_apart s f g v hg)

theorem State.get_lt (s : State) (f : Fld) : s.get f < 2 ^ f.width := getBits_lt _ _ _

theorem State.count_eq (s : State) (f : Fld) (n : Nat) : s.count f n = s.set f (satAdd f.width (s.get f) n) := rfl

/-! ### setReg changes the registers alone -/

@[simp] theorem State.setReg_pending (s : State) (a : Nat) (v : Word) : (s.setReg a v).pending = s.pending := rfl
@[simp] theorem State.setReg_clock (s : State) (a : Nat) (v : Word) : (s.setReg a v).clock = s.clock := rfl
@[simp] theorem State.setReg_drawn (s : State) (a : Nat) (v : Word) : (s.setReg a v).drawn = s.drawn := rfl
@[simp] theorem State.setReg_log (s : State) (a : Nat) (v : Word) : (s.setReg a v).log = s.log := rfl
@[simp] theorem State.setReg_rtc (s : State) (a : Nat) (v : Word) : (s.setReg a v).rtc = s.rtc := rfl
@[simp] theorem State.setReg_ic (s : State) (a : Nat) (v : Word) : (s.setReg a v).ic = s.ic := rfl
@[simp] theorem State.setReg_drum (s : State) (a : Nat) (v : Word) : (s.setReg a v).drum = s.drum := rfl
@[simp] theorem State.setReg_gated (s : State) (a : Nat) (v : Word) : (s.setReg a v).gated = s.gated := rfl
@[simp] theorem State.setReg_memA (s : State) (a : Nat) (v : Word) : (s.setReg a v).memA = s.memA := rfl
@[simp] theorem State.setReg_memB (s : State) (a : Nat) (v : Word) : (s.setReg a v).memB = s.memB := rfl
@[simp] theorem State.setReg_sram (s : State) (a : Nat) (v : Word) : (s.setReg a v).sram = s.sram := rfl
@[simp] theorem State.setReg_flash (s : State) (a : Nat) (v : Word) : (s.setReg a v).flash = s.flash := rfl
@[simp] theorem State.setReg_sides (s : State) (a : Nat) (v : Word) : (s.setReg a v).sides = s.sides := rfl
@[simp] theorem State.setReg_nextReq (s : State) (a : Nat) (v : Word) : (s.setReg a v).nextReq = s.nextReq := rfl
@[simp] theorem State.setReg_replies (s : State) (a : Nat) (v : Word) : (s.setReg a v).replies = s.replies := rfl
@[simp] theorem State.setReg_bbox (s : State) (a : Nat) (v : Word) : (s.setReg a v).bbox = s.bbox := rfl
@[simp] theorem State.setReg_alive (s : State) (a : Nat) (v : Word) : (s.setReg a v).alive = s.alive := rfl
@[simp] theorem State.setReg_exhausted (s : State) (a : Nat) (v : Word) : (s.setReg a v).exhausted = s.exhausted := rfl
@[simp] theorem State.setReg_sess (s : State) (a : Nat) (v : Word) : (s.setReg a v).sess = s.sess := rfl
@[simp] theorem State.setReg_funcs (s : State) (a : Nat) (v : Word) : (s.setReg a v).funcs = s.funcs := rfl
@[simp] theorem State.setReg_msix (s : State) (a : Nat) (v : Word) : (s.setReg a v).msix = s.msix := rfl
@[simp] theorem State.setReg_touch (s : State) (a : Nat) (v : Word) : (s.setReg a v).touch = s.touch := rfl
@[simp] theorem State.setReg_hap (s : State) (a : Nat) (v : Word) : (s.setReg a v).hap = s.hap := rfl
@[simp] theorem State.setReg_hapLib (s : State) (a : Nat) (v : Word) : (s.setReg a v).hapLib = s.hapLib := rfl
@[simp] theorem State.setReg_layers (s : State) (a : Nat) (v : Word) : (s.setReg a v).layers = s.layers := rfl
@[simp] theorem State.setReg_prots (s : State) (a : Nat) (v : Word) : (s.setReg a v).prots = s.prots := rfl
@[simp] theorem State.setReg_vins (s : State) (a : Nat) (v : Word) : (s.setReg a v).vins = s.vins := rfl
@[simp] theorem State.setReg_ports (s : State) (a : Nat) (v : Word) : (s.setReg a v).ports = s.ports := rfl
@[simp] theorem State.setReg_pipes (s : State) (a : Nat) (v : Word) : (s.setReg a v).pipes = s.pipes := rfl
@[simp] theorem State.setReg_screens (s : State) (a : Nat) (v : Word) : (s.setReg a v).screens = s.screens := rfl
@[simp] theorem State.setReg_audQuiet (s : State) (a : Nat) (v : Word) : (s.setReg a v).audQuiet = s.audQuiet := rfl
@[simp] theorem State.setReg_aud (s : State) (a : Nat) (v : Word) : (s.setReg a v).aud = s.aud := rfl
@[simp] theorem State.setReg_sxtBack (s : State) (a : Nat) (v : Word) : (s.setReg a v).sxtBack = s.sxtBack := rfl
@[simp] theorem State.setReg_crcs (s : State) (a : Nat) (v : Word) : (s.setReg a v).crcs = s.crcs := rfl
@[simp] theorem State.setReg_wear (s : State) (a : Nat) (v : Word) : (s.setReg a v).wear = s.wear := rfl
@[simp] theorem State.setReg_cores (s : State) (a : Nat) (v : Word) : (s.setReg a v).cores = s.cores := rfl
@[simp] theorem State.setReg_tags (s : State) (a : Nat) (v : Word) : (s.setReg a v).tags = s.tags := rfl
@[simp] theorem State.setReg_restartOn (s : State) (a : Nat) (v : Word) : (s.setReg a v).restartOn = s.restartOn := rfl
@[simp] theorem State.setReg_swdtHalf (s : State) (a : Nat) (v : Word) : (s.setReg a v).swdtHalf = s.swdtHalf := rfl
@[simp] theorem State.setReg_restartDue (s : State) (a : Nat) (v : Word) : (s.setReg a v).restartDue = s.restartDue := rfl
@[simp] theorem State.setReg_gateSecure (s : State) (a : Nat) (v : Word) : (s.setReg a v).gateSecure = s.gateSecure := rfl
@[simp] theorem State.setReg_gateNoted (s : State) (a : Nat) (v : Word) : (s.setReg a v).gateNoted = s.gateNoted := rfl
@[simp] theorem State.setReg_jtag (s : State) (a : Nat) (v : Word) : (s.setReg a v).jtag = s.jtag := rfl
@[simp] theorem State.setReg_resetLow (s : State) (a : Nat) (v : Word) : (s.setReg a v).resetLow = s.resetLow := rfl
@[simp] theorem State.setReg_railsOut (s : State) (a : Nat) (v : Word) : (s.setReg a v).railsOut = s.railsOut := rfl
@[simp] theorem State.setReg_boot (s : State) (a : Nat) (v : Word) : (s.setReg a v).boot = s.boot := rfl
@[simp] theorem State.setReg_released (s : State) (a : Nat) (v : Word) : (s.setReg a v).released = s.released := rfl
@[simp] theorem State.setReg_fittedA (s : State) (a : Nat) (v : Word) : (s.setReg a v).fittedA = s.fittedA := rfl
@[simp] theorem State.setReg_fittedB (s : State) (a : Nat) (v : Word) : (s.setReg a v).fittedB = s.fittedB := rfl
@[simp] theorem State.setReg_factory (s : State) (a : Nat) (v : Word) : (s.setReg a v).factory = s.factory := rfl

/-! ### set changes the registers alone -/

@[simp] theorem State.set_pending (s : State) (f : Fld) (v : Nat) : (s.set f v).pending = s.pending := rfl
@[simp] theorem State.set_clock (s : State) (f : Fld) (v : Nat) : (s.set f v).clock = s.clock := rfl
@[simp] theorem State.set_drawn (s : State) (f : Fld) (v : Nat) : (s.set f v).drawn = s.drawn := rfl
@[simp] theorem State.set_log (s : State) (f : Fld) (v : Nat) : (s.set f v).log = s.log := rfl
@[simp] theorem State.set_rtc (s : State) (f : Fld) (v : Nat) : (s.set f v).rtc = s.rtc := rfl
@[simp] theorem State.set_ic (s : State) (f : Fld) (v : Nat) : (s.set f v).ic = s.ic := rfl
@[simp] theorem State.set_drum (s : State) (f : Fld) (v : Nat) : (s.set f v).drum = s.drum := rfl
@[simp] theorem State.set_gated (s : State) (f : Fld) (v : Nat) : (s.set f v).gated = s.gated := rfl
@[simp] theorem State.set_memA (s : State) (f : Fld) (v : Nat) : (s.set f v).memA = s.memA := rfl
@[simp] theorem State.set_memB (s : State) (f : Fld) (v : Nat) : (s.set f v).memB = s.memB := rfl
@[simp] theorem State.set_sram (s : State) (f : Fld) (v : Nat) : (s.set f v).sram = s.sram := rfl
@[simp] theorem State.set_flash (s : State) (f : Fld) (v : Nat) : (s.set f v).flash = s.flash := rfl
@[simp] theorem State.set_sides (s : State) (f : Fld) (v : Nat) : (s.set f v).sides = s.sides := rfl
@[simp] theorem State.set_nextReq (s : State) (f : Fld) (v : Nat) : (s.set f v).nextReq = s.nextReq := rfl
@[simp] theorem State.set_replies (s : State) (f : Fld) (v : Nat) : (s.set f v).replies = s.replies := rfl
@[simp] theorem State.set_bbox (s : State) (f : Fld) (v : Nat) : (s.set f v).bbox = s.bbox := rfl
@[simp] theorem State.set_alive (s : State) (f : Fld) (v : Nat) : (s.set f v).alive = s.alive := rfl
@[simp] theorem State.set_exhausted (s : State) (f : Fld) (v : Nat) : (s.set f v).exhausted = s.exhausted := rfl
@[simp] theorem State.set_sess (s : State) (f : Fld) (v : Nat) : (s.set f v).sess = s.sess := rfl
@[simp] theorem State.set_funcs (s : State) (f : Fld) (v : Nat) : (s.set f v).funcs = s.funcs := rfl
@[simp] theorem State.set_msix (s : State) (f : Fld) (v : Nat) : (s.set f v).msix = s.msix := rfl
@[simp] theorem State.set_touch (s : State) (f : Fld) (v : Nat) : (s.set f v).touch = s.touch := rfl
@[simp] theorem State.set_hap (s : State) (f : Fld) (v : Nat) : (s.set f v).hap = s.hap := rfl
@[simp] theorem State.set_hapLib (s : State) (f : Fld) (v : Nat) : (s.set f v).hapLib = s.hapLib := rfl
@[simp] theorem State.set_layers (s : State) (f : Fld) (v : Nat) : (s.set f v).layers = s.layers := rfl
@[simp] theorem State.set_prots (s : State) (f : Fld) (v : Nat) : (s.set f v).prots = s.prots := rfl
@[simp] theorem State.set_vins (s : State) (f : Fld) (v : Nat) : (s.set f v).vins = s.vins := rfl
@[simp] theorem State.set_ports (s : State) (f : Fld) (v : Nat) : (s.set f v).ports = s.ports := rfl
@[simp] theorem State.set_pipes (s : State) (f : Fld) (v : Nat) : (s.set f v).pipes = s.pipes := rfl
@[simp] theorem State.set_screens (s : State) (f : Fld) (v : Nat) : (s.set f v).screens = s.screens := rfl
@[simp] theorem State.set_audQuiet (s : State) (f : Fld) (v : Nat) : (s.set f v).audQuiet = s.audQuiet := rfl
@[simp] theorem State.set_aud (s : State) (f : Fld) (v : Nat) : (s.set f v).aud = s.aud := rfl
@[simp] theorem State.set_sxtBack (s : State) (f : Fld) (v : Nat) : (s.set f v).sxtBack = s.sxtBack := rfl
@[simp] theorem State.set_crcs (s : State) (f : Fld) (v : Nat) : (s.set f v).crcs = s.crcs := rfl
@[simp] theorem State.set_wear (s : State) (f : Fld) (v : Nat) : (s.set f v).wear = s.wear := rfl
@[simp] theorem State.set_cores (s : State) (f : Fld) (v : Nat) : (s.set f v).cores = s.cores := rfl
@[simp] theorem State.set_tags (s : State) (f : Fld) (v : Nat) : (s.set f v).tags = s.tags := rfl
@[simp] theorem State.set_restartOn (s : State) (f : Fld) (v : Nat) : (s.set f v).restartOn = s.restartOn := rfl
@[simp] theorem State.set_swdtHalf (s : State) (f : Fld) (v : Nat) : (s.set f v).swdtHalf = s.swdtHalf := rfl
@[simp] theorem State.set_restartDue (s : State) (f : Fld) (v : Nat) : (s.set f v).restartDue = s.restartDue := rfl
@[simp] theorem State.set_gateSecure (s : State) (f : Fld) (v : Nat) : (s.set f v).gateSecure = s.gateSecure := rfl
@[simp] theorem State.set_gateNoted (s : State) (f : Fld) (v : Nat) : (s.set f v).gateNoted = s.gateNoted := rfl
@[simp] theorem State.set_jtag (s : State) (f : Fld) (v : Nat) : (s.set f v).jtag = s.jtag := rfl
@[simp] theorem State.set_resetLow (s : State) (f : Fld) (v : Nat) : (s.set f v).resetLow = s.resetLow := rfl
@[simp] theorem State.set_railsOut (s : State) (f : Fld) (v : Nat) : (s.set f v).railsOut = s.railsOut := rfl
@[simp] theorem State.set_boot (s : State) (f : Fld) (v : Nat) : (s.set f v).boot = s.boot := rfl
@[simp] theorem State.set_released (s : State) (f : Fld) (v : Nat) : (s.set f v).released = s.released := rfl
@[simp] theorem State.set_fittedA (s : State) (f : Fld) (v : Nat) : (s.set f v).fittedA = s.fittedA := rfl
@[simp] theorem State.set_fittedB (s : State) (f : Fld) (v : Nat) : (s.set f v).fittedB = s.fittedB := rfl
@[simp] theorem State.set_factory (s : State) (f : Fld) (v : Nat) : (s.set f v).factory = s.factory := rfl

/-! ### count changes the registers alone -/

@[simp] theorem State.count_pending (s : State) (f : Fld) (n : Nat) : (s.count f n).pending = s.pending := rfl
@[simp] theorem State.count_clock (s : State) (f : Fld) (n : Nat) : (s.count f n).clock = s.clock := rfl
@[simp] theorem State.count_drawn (s : State) (f : Fld) (n : Nat) : (s.count f n).drawn = s.drawn := rfl
@[simp] theorem State.count_log (s : State) (f : Fld) (n : Nat) : (s.count f n).log = s.log := rfl
@[simp] theorem State.count_rtc (s : State) (f : Fld) (n : Nat) : (s.count f n).rtc = s.rtc := rfl
@[simp] theorem State.count_ic (s : State) (f : Fld) (n : Nat) : (s.count f n).ic = s.ic := rfl
@[simp] theorem State.count_drum (s : State) (f : Fld) (n : Nat) : (s.count f n).drum = s.drum := rfl
@[simp] theorem State.count_gated (s : State) (f : Fld) (n : Nat) : (s.count f n).gated = s.gated := rfl
@[simp] theorem State.count_memA (s : State) (f : Fld) (n : Nat) : (s.count f n).memA = s.memA := rfl
@[simp] theorem State.count_memB (s : State) (f : Fld) (n : Nat) : (s.count f n).memB = s.memB := rfl
@[simp] theorem State.count_sram (s : State) (f : Fld) (n : Nat) : (s.count f n).sram = s.sram := rfl
@[simp] theorem State.count_flash (s : State) (f : Fld) (n : Nat) : (s.count f n).flash = s.flash := rfl
@[simp] theorem State.count_sides (s : State) (f : Fld) (n : Nat) : (s.count f n).sides = s.sides := rfl
@[simp] theorem State.count_nextReq (s : State) (f : Fld) (n : Nat) : (s.count f n).nextReq = s.nextReq := rfl
@[simp] theorem State.count_replies (s : State) (f : Fld) (n : Nat) : (s.count f n).replies = s.replies := rfl
@[simp] theorem State.count_bbox (s : State) (f : Fld) (n : Nat) : (s.count f n).bbox = s.bbox := rfl
@[simp] theorem State.count_alive (s : State) (f : Fld) (n : Nat) : (s.count f n).alive = s.alive := rfl
@[simp] theorem State.count_exhausted (s : State) (f : Fld) (n : Nat) : (s.count f n).exhausted = s.exhausted := rfl
@[simp] theorem State.count_sess (s : State) (f : Fld) (n : Nat) : (s.count f n).sess = s.sess := rfl
@[simp] theorem State.count_funcs (s : State) (f : Fld) (n : Nat) : (s.count f n).funcs = s.funcs := rfl
@[simp] theorem State.count_msix (s : State) (f : Fld) (n : Nat) : (s.count f n).msix = s.msix := rfl
@[simp] theorem State.count_touch (s : State) (f : Fld) (n : Nat) : (s.count f n).touch = s.touch := rfl
@[simp] theorem State.count_hap (s : State) (f : Fld) (n : Nat) : (s.count f n).hap = s.hap := rfl
@[simp] theorem State.count_hapLib (s : State) (f : Fld) (n : Nat) : (s.count f n).hapLib = s.hapLib := rfl
@[simp] theorem State.count_layers (s : State) (f : Fld) (n : Nat) : (s.count f n).layers = s.layers := rfl
@[simp] theorem State.count_prots (s : State) (f : Fld) (n : Nat) : (s.count f n).prots = s.prots := rfl
@[simp] theorem State.count_vins (s : State) (f : Fld) (n : Nat) : (s.count f n).vins = s.vins := rfl
@[simp] theorem State.count_ports (s : State) (f : Fld) (n : Nat) : (s.count f n).ports = s.ports := rfl
@[simp] theorem State.count_pipes (s : State) (f : Fld) (n : Nat) : (s.count f n).pipes = s.pipes := rfl
@[simp] theorem State.count_screens (s : State) (f : Fld) (n : Nat) : (s.count f n).screens = s.screens := rfl
@[simp] theorem State.count_audQuiet (s : State) (f : Fld) (n : Nat) : (s.count f n).audQuiet = s.audQuiet := rfl
@[simp] theorem State.count_aud (s : State) (f : Fld) (n : Nat) : (s.count f n).aud = s.aud := rfl
@[simp] theorem State.count_sxtBack (s : State) (f : Fld) (n : Nat) : (s.count f n).sxtBack = s.sxtBack := rfl
@[simp] theorem State.count_crcs (s : State) (f : Fld) (n : Nat) : (s.count f n).crcs = s.crcs := rfl
@[simp] theorem State.count_wear (s : State) (f : Fld) (n : Nat) : (s.count f n).wear = s.wear := rfl
@[simp] theorem State.count_cores (s : State) (f : Fld) (n : Nat) : (s.count f n).cores = s.cores := rfl
@[simp] theorem State.count_tags (s : State) (f : Fld) (n : Nat) : (s.count f n).tags = s.tags := rfl
@[simp] theorem State.count_restartOn (s : State) (f : Fld) (n : Nat) : (s.count f n).restartOn = s.restartOn := rfl
@[simp] theorem State.count_swdtHalf (s : State) (f : Fld) (n : Nat) : (s.count f n).swdtHalf = s.swdtHalf := rfl
@[simp] theorem State.count_restartDue (s : State) (f : Fld) (n : Nat) : (s.count f n).restartDue = s.restartDue := rfl
@[simp] theorem State.count_gateSecure (s : State) (f : Fld) (n : Nat) : (s.count f n).gateSecure = s.gateSecure := rfl
@[simp] theorem State.count_gateNoted (s : State) (f : Fld) (n : Nat) : (s.count f n).gateNoted = s.gateNoted := rfl
@[simp] theorem State.count_jtag (s : State) (f : Fld) (n : Nat) : (s.count f n).jtag = s.jtag := rfl
@[simp] theorem State.count_resetLow (s : State) (f : Fld) (n : Nat) : (s.count f n).resetLow = s.resetLow := rfl
@[simp] theorem State.count_railsOut (s : State) (f : Fld) (n : Nat) : (s.count f n).railsOut = s.railsOut := rfl
@[simp] theorem State.count_boot (s : State) (f : Fld) (n : Nat) : (s.count f n).boot = s.boot := rfl
@[simp] theorem State.count_released (s : State) (f : Fld) (n : Nat) : (s.count f n).released = s.released := rfl
@[simp] theorem State.count_fittedA (s : State) (f : Fld) (n : Nat) : (s.count f n).fittedA = s.fittedA := rfl
@[simp] theorem State.count_fittedB (s : State) (f : Fld) (n : Nat) : (s.count f n).fittedB = s.fittedB := rfl
@[simp] theorem State.count_factory (s : State) (f : Fld) (n : Nat) : (s.count f n).factory = s.factory := rfl

/-! ### resetReg changes the registers alone -/

@[simp] theorem State.resetReg_pending (s : State) (a : Nat) : (s.resetReg a).pending = s.pending := rfl
@[simp] theorem State.resetReg_clock (s : State) (a : Nat) : (s.resetReg a).clock = s.clock := rfl
@[simp] theorem State.resetReg_drawn (s : State) (a : Nat) : (s.resetReg a).drawn = s.drawn := rfl
@[simp] theorem State.resetReg_log (s : State) (a : Nat) : (s.resetReg a).log = s.log := rfl
@[simp] theorem State.resetReg_rtc (s : State) (a : Nat) : (s.resetReg a).rtc = s.rtc := rfl
@[simp] theorem State.resetReg_ic (s : State) (a : Nat) : (s.resetReg a).ic = s.ic := rfl
@[simp] theorem State.resetReg_drum (s : State) (a : Nat) : (s.resetReg a).drum = s.drum := rfl
@[simp] theorem State.resetReg_gated (s : State) (a : Nat) : (s.resetReg a).gated = s.gated := rfl
@[simp] theorem State.resetReg_memA (s : State) (a : Nat) : (s.resetReg a).memA = s.memA := rfl
@[simp] theorem State.resetReg_memB (s : State) (a : Nat) : (s.resetReg a).memB = s.memB := rfl
@[simp] theorem State.resetReg_sram (s : State) (a : Nat) : (s.resetReg a).sram = s.sram := rfl
@[simp] theorem State.resetReg_flash (s : State) (a : Nat) : (s.resetReg a).flash = s.flash := rfl
@[simp] theorem State.resetReg_sides (s : State) (a : Nat) : (s.resetReg a).sides = s.sides := rfl
@[simp] theorem State.resetReg_nextReq (s : State) (a : Nat) : (s.resetReg a).nextReq = s.nextReq := rfl
@[simp] theorem State.resetReg_replies (s : State) (a : Nat) : (s.resetReg a).replies = s.replies := rfl
@[simp] theorem State.resetReg_bbox (s : State) (a : Nat) : (s.resetReg a).bbox = s.bbox := rfl
@[simp] theorem State.resetReg_alive (s : State) (a : Nat) : (s.resetReg a).alive = s.alive := rfl
@[simp] theorem State.resetReg_exhausted (s : State) (a : Nat) : (s.resetReg a).exhausted = s.exhausted := rfl
@[simp] theorem State.resetReg_sess (s : State) (a : Nat) : (s.resetReg a).sess = s.sess := rfl
@[simp] theorem State.resetReg_funcs (s : State) (a : Nat) : (s.resetReg a).funcs = s.funcs := rfl
@[simp] theorem State.resetReg_msix (s : State) (a : Nat) : (s.resetReg a).msix = s.msix := rfl
@[simp] theorem State.resetReg_touch (s : State) (a : Nat) : (s.resetReg a).touch = s.touch := rfl
@[simp] theorem State.resetReg_hap (s : State) (a : Nat) : (s.resetReg a).hap = s.hap := rfl
@[simp] theorem State.resetReg_hapLib (s : State) (a : Nat) : (s.resetReg a).hapLib = s.hapLib := rfl
@[simp] theorem State.resetReg_layers (s : State) (a : Nat) : (s.resetReg a).layers = s.layers := rfl
@[simp] theorem State.resetReg_prots (s : State) (a : Nat) : (s.resetReg a).prots = s.prots := rfl
@[simp] theorem State.resetReg_vins (s : State) (a : Nat) : (s.resetReg a).vins = s.vins := rfl
@[simp] theorem State.resetReg_ports (s : State) (a : Nat) : (s.resetReg a).ports = s.ports := rfl
@[simp] theorem State.resetReg_pipes (s : State) (a : Nat) : (s.resetReg a).pipes = s.pipes := rfl
@[simp] theorem State.resetReg_screens (s : State) (a : Nat) : (s.resetReg a).screens = s.screens := rfl
@[simp] theorem State.resetReg_audQuiet (s : State) (a : Nat) : (s.resetReg a).audQuiet = s.audQuiet := rfl
@[simp] theorem State.resetReg_aud (s : State) (a : Nat) : (s.resetReg a).aud = s.aud := rfl
@[simp] theorem State.resetReg_sxtBack (s : State) (a : Nat) : (s.resetReg a).sxtBack = s.sxtBack := rfl
@[simp] theorem State.resetReg_crcs (s : State) (a : Nat) : (s.resetReg a).crcs = s.crcs := rfl
@[simp] theorem State.resetReg_wear (s : State) (a : Nat) : (s.resetReg a).wear = s.wear := rfl
@[simp] theorem State.resetReg_cores (s : State) (a : Nat) : (s.resetReg a).cores = s.cores := rfl
@[simp] theorem State.resetReg_tags (s : State) (a : Nat) : (s.resetReg a).tags = s.tags := rfl
@[simp] theorem State.resetReg_restartOn (s : State) (a : Nat) : (s.resetReg a).restartOn = s.restartOn := rfl
@[simp] theorem State.resetReg_swdtHalf (s : State) (a : Nat) : (s.resetReg a).swdtHalf = s.swdtHalf := rfl
@[simp] theorem State.resetReg_restartDue (s : State) (a : Nat) : (s.resetReg a).restartDue = s.restartDue := rfl
@[simp] theorem State.resetReg_gateSecure (s : State) (a : Nat) : (s.resetReg a).gateSecure = s.gateSecure := rfl
@[simp] theorem State.resetReg_gateNoted (s : State) (a : Nat) : (s.resetReg a).gateNoted = s.gateNoted := rfl
@[simp] theorem State.resetReg_jtag (s : State) (a : Nat) : (s.resetReg a).jtag = s.jtag := rfl
@[simp] theorem State.resetReg_resetLow (s : State) (a : Nat) : (s.resetReg a).resetLow = s.resetLow := rfl
@[simp] theorem State.resetReg_railsOut (s : State) (a : Nat) : (s.resetReg a).railsOut = s.railsOut := rfl
@[simp] theorem State.resetReg_boot (s : State) (a : Nat) : (s.resetReg a).boot = s.boot := rfl
@[simp] theorem State.resetReg_released (s : State) (a : Nat) : (s.resetReg a).released = s.released := rfl
@[simp] theorem State.resetReg_fittedA (s : State) (a : Nat) : (s.resetReg a).fittedA = s.fittedA := rfl
@[simp] theorem State.resetReg_fittedB (s : State) (a : Nat) : (s.resetReg a).fittedB = s.fittedB := rfl
@[simp] theorem State.resetReg_factory (s : State) (a : Nat) : (s.resetReg a).factory = s.factory := rfl

/-! ### A free value advances its counter alone -/

@[simp] theorem State.draw_pending (s : State) : s.draw.2.pending = s.pending := rfl
@[simp] theorem State.draw_regs (s : State) : s.draw.2.regs = s.regs := rfl
@[simp] theorem State.draw_clock (s : State) : s.draw.2.clock = s.clock := rfl
@[simp] theorem State.draw_log (s : State) : s.draw.2.log = s.log := rfl
@[simp] theorem State.draw_rtc (s : State) : s.draw.2.rtc = s.rtc := rfl
@[simp] theorem State.draw_ic (s : State) : s.draw.2.ic = s.ic := rfl
@[simp] theorem State.draw_drum (s : State) : s.draw.2.drum = s.drum := rfl
@[simp] theorem State.draw_gated (s : State) : s.draw.2.gated = s.gated := rfl
@[simp] theorem State.draw_memA (s : State) : s.draw.2.memA = s.memA := rfl
@[simp] theorem State.draw_memB (s : State) : s.draw.2.memB = s.memB := rfl
@[simp] theorem State.draw_sram (s : State) : s.draw.2.sram = s.sram := rfl
@[simp] theorem State.draw_flash (s : State) : s.draw.2.flash = s.flash := rfl
@[simp] theorem State.draw_sides (s : State) : s.draw.2.sides = s.sides := rfl
@[simp] theorem State.draw_nextReq (s : State) : s.draw.2.nextReq = s.nextReq := rfl
@[simp] theorem State.draw_replies (s : State) : s.draw.2.replies = s.replies := rfl
@[simp] theorem State.draw_bbox (s : State) : s.draw.2.bbox = s.bbox := rfl
@[simp] theorem State.draw_alive (s : State) : s.draw.2.alive = s.alive := rfl
@[simp] theorem State.draw_exhausted (s : State) : s.draw.2.exhausted = s.exhausted := rfl
@[simp] theorem State.draw_sess (s : State) : s.draw.2.sess = s.sess := rfl
@[simp] theorem State.draw_funcs (s : State) : s.draw.2.funcs = s.funcs := rfl
@[simp] theorem State.draw_msix (s : State) : s.draw.2.msix = s.msix := rfl
@[simp] theorem State.draw_touch (s : State) : s.draw.2.touch = s.touch := rfl
@[simp] theorem State.draw_hap (s : State) : s.draw.2.hap = s.hap := rfl
@[simp] theorem State.draw_hapLib (s : State) : s.draw.2.hapLib = s.hapLib := rfl
@[simp] theorem State.draw_layers (s : State) : s.draw.2.layers = s.layers := rfl
@[simp] theorem State.draw_prots (s : State) : s.draw.2.prots = s.prots := rfl
@[simp] theorem State.draw_vins (s : State) : s.draw.2.vins = s.vins := rfl
@[simp] theorem State.draw_ports (s : State) : s.draw.2.ports = s.ports := rfl
@[simp] theorem State.draw_pipes (s : State) : s.draw.2.pipes = s.pipes := rfl
@[simp] theorem State.draw_screens (s : State) : s.draw.2.screens = s.screens := rfl
@[simp] theorem State.draw_audQuiet (s : State) : s.draw.2.audQuiet = s.audQuiet := rfl
@[simp] theorem State.draw_aud (s : State) : s.draw.2.aud = s.aud := rfl
@[simp] theorem State.draw_sxtBack (s : State) : s.draw.2.sxtBack = s.sxtBack := rfl
@[simp] theorem State.draw_crcs (s : State) : s.draw.2.crcs = s.crcs := rfl
@[simp] theorem State.draw_wear (s : State) : s.draw.2.wear = s.wear := rfl
@[simp] theorem State.draw_cores (s : State) : s.draw.2.cores = s.cores := rfl
@[simp] theorem State.draw_tags (s : State) : s.draw.2.tags = s.tags := rfl
@[simp] theorem State.draw_restartOn (s : State) : s.draw.2.restartOn = s.restartOn := rfl
@[simp] theorem State.draw_swdtHalf (s : State) : s.draw.2.swdtHalf = s.swdtHalf := rfl
@[simp] theorem State.draw_restartDue (s : State) : s.draw.2.restartDue = s.restartDue := rfl
@[simp] theorem State.draw_gateSecure (s : State) : s.draw.2.gateSecure = s.gateSecure := rfl
@[simp] theorem State.draw_gateNoted (s : State) : s.draw.2.gateNoted = s.gateNoted := rfl
@[simp] theorem State.draw_jtag (s : State) : s.draw.2.jtag = s.jtag := rfl
@[simp] theorem State.draw_resetLow (s : State) : s.draw.2.resetLow = s.resetLow := rfl
@[simp] theorem State.draw_railsOut (s : State) : s.draw.2.railsOut = s.railsOut := rfl
@[simp] theorem State.draw_boot (s : State) : s.draw.2.boot = s.boot := rfl
@[simp] theorem State.draw_released (s : State) : s.draw.2.released = s.released := rfl
@[simp] theorem State.draw_fittedA (s : State) : s.draw.2.fittedA = s.fittedA := rfl
@[simp] theorem State.draw_fittedB (s : State) : s.draw.2.fittedB = s.fittedB := rfl
@[simp] theorem State.draw_factory (s : State) : s.draw.2.factory = s.factory := rfl

/-! ### inOrder sorts what the logbook's queue has gained and changes nothing else -/

@[simp] theorem State.inOrder_regs (t s : State) : (t.inOrder s).regs = t.regs := rfl
@[simp] theorem State.inOrder_drawn (t s : State) : (t.inOrder s).drawn = t.drawn := rfl
@[simp] theorem State.inOrder_pending (t s : State) : (t.inOrder s).pending = t.pending := rfl
@[simp] theorem State.inOrder_clock (t s : State) : (t.inOrder s).clock = t.clock := rfl
@[simp] theorem State.inOrder_rtc (t s : State) : (t.inOrder s).rtc = t.rtc := rfl
@[simp] theorem State.inOrder_ic (t s : State) : (t.inOrder s).ic = t.ic := rfl
@[simp] theorem State.inOrder_drum (t s : State) : (t.inOrder s).drum = t.drum := rfl
@[simp] theorem State.inOrder_gated (t s : State) : (t.inOrder s).gated = t.gated := rfl
@[simp] theorem State.inOrder_memA (t s : State) : (t.inOrder s).memA = t.memA := rfl
@[simp] theorem State.inOrder_memB (t s : State) : (t.inOrder s).memB = t.memB := rfl
@[simp] theorem State.inOrder_sram (t s : State) : (t.inOrder s).sram = t.sram := rfl
@[simp] theorem State.inOrder_flash (t s : State) : (t.inOrder s).flash = t.flash := rfl
@[simp] theorem State.inOrder_sides (t s : State) : (t.inOrder s).sides = t.sides := rfl
@[simp] theorem State.inOrder_nextReq (t s : State) : (t.inOrder s).nextReq = t.nextReq := rfl
@[simp] theorem State.inOrder_replies (t s : State) : (t.inOrder s).replies = t.replies := rfl
@[simp] theorem State.inOrder_bbox (t s : State) : (t.inOrder s).bbox = t.bbox := rfl
@[simp] theorem State.inOrder_alive (t s : State) : (t.inOrder s).alive = t.alive := rfl
@[simp] theorem State.inOrder_exhausted (t s : State) : (t.inOrder s).exhausted = t.exhausted := rfl
@[simp] theorem State.inOrder_sess (t s : State) : (t.inOrder s).sess = t.sess := rfl
@[simp] theorem State.inOrder_funcs (t s : State) : (t.inOrder s).funcs = t.funcs := rfl
@[simp] theorem State.inOrder_msix (t s : State) : (t.inOrder s).msix = t.msix := rfl
@[simp] theorem State.inOrder_touch (t s : State) : (t.inOrder s).touch = t.touch := rfl
@[simp] theorem State.inOrder_hap (t s : State) : (t.inOrder s).hap = t.hap := rfl
@[simp] theorem State.inOrder_hapLib (t s : State) : (t.inOrder s).hapLib = t.hapLib := rfl
@[simp] theorem State.inOrder_layers (t s : State) : (t.inOrder s).layers = t.layers := rfl
@[simp] theorem State.inOrder_prots (t s : State) : (t.inOrder s).prots = t.prots := rfl
@[simp] theorem State.inOrder_vins (t s : State) : (t.inOrder s).vins = t.vins := rfl
@[simp] theorem State.inOrder_ports (t s : State) : (t.inOrder s).ports = t.ports := rfl
@[simp] theorem State.inOrder_pipes (t s : State) : (t.inOrder s).pipes = t.pipes := rfl
@[simp] theorem State.inOrder_screens (t s : State) : (t.inOrder s).screens = t.screens := rfl
@[simp] theorem State.inOrder_audQuiet (t s : State) : (t.inOrder s).audQuiet = t.audQuiet := rfl
@[simp] theorem State.inOrder_aud (t s : State) : (t.inOrder s).aud = t.aud := rfl
@[simp] theorem State.inOrder_sxtBack (t s : State) : (t.inOrder s).sxtBack = t.sxtBack := rfl
@[simp] theorem State.inOrder_crcs (t s : State) : (t.inOrder s).crcs = t.crcs := rfl
@[simp] theorem State.inOrder_wear (t s : State) : (t.inOrder s).wear = t.wear := rfl
@[simp] theorem State.inOrder_cores (t s : State) : (t.inOrder s).cores = t.cores := rfl
@[simp] theorem State.inOrder_tags (t s : State) : (t.inOrder s).tags = t.tags := rfl
@[simp] theorem State.inOrder_restartOn (t s : State) : (t.inOrder s).restartOn = t.restartOn := rfl
@[simp] theorem State.inOrder_swdtHalf (t s : State) : (t.inOrder s).swdtHalf = t.swdtHalf := rfl
@[simp] theorem State.inOrder_restartDue (t s : State) : (t.inOrder s).restartDue = t.restartDue := rfl
@[simp] theorem State.inOrder_gateSecure (t s : State) : (t.inOrder s).gateSecure = t.gateSecure := rfl
@[simp] theorem State.inOrder_gateNoted (t s : State) : (t.inOrder s).gateNoted = t.gateNoted := rfl
@[simp] theorem State.inOrder_jtag (t s : State) : (t.inOrder s).jtag = t.jtag := rfl
@[simp] theorem State.inOrder_resetLow (t s : State) : (t.inOrder s).resetLow = t.resetLow := rfl
@[simp] theorem State.inOrder_railsOut (t s : State) : (t.inOrder s).railsOut = t.railsOut := rfl
@[simp] theorem State.inOrder_boot (t s : State) : (t.inOrder s).boot = t.boot := rfl
@[simp] theorem State.inOrder_released (t s : State) : (t.inOrder s).released = t.released := rfl
@[simp] theorem State.inOrder_fittedA (t s : State) : (t.inOrder s).fittedA = t.fittedA := rfl
@[simp] theorem State.inOrder_fittedB (t s : State) : (t.inOrder s).fittedB = t.fittedB := rfl
@[simp] theorem State.inOrder_factory (t s : State) : (t.inOrder s).factory = t.factory := rfl
@[simp] theorem State.inOrder_reg (t s : State) (a : Nat) : (t.inOrder s).reg a = t.reg a := rfl
@[simp] theorem State.inOrder_get (t s : State) (f : Fld) : (t.inOrder s).get f = t.get f := rfl
@[simp] theorem State.inOrder_bit (t s : State) (f : Fld) : (t.inOrder s).bit f = t.bit f := rfl

/-- Where at most one entry has joined the queue, there is nothing to sort. -/
theorem State.inOrder_eq {t s : State} (h : (t.log.queue.drop s.log.queue.length).length ≤ 1) : t.inOrder s = t := by
  have e : (t.log.queue.drop s.log.queue.length).mergeSort LogEntry.before = t.log.queue.drop s.log.queue.length := by
    match hl : t.log.queue.drop s.log.queue.length with
    | [] => simp
    | [x] => simp
    | x :: y :: l => rw [hl] at h; simp at h
  unfold State.inOrder
  simp only [e, List.take_append_drop]

/-- R46, R48: the capabilities of a function's configuration space lie where PCIe has room for them, and apart. -/
theorem config_words_apart : 16 ≤ Config.msixWord ∧ Config.msixWord + 2 < 64 ∧ 64 ≤ Config.sriovWord ∧ Config.sriovWord + 15 < 1024 ∧
    64 ≤ Config.aerWord ∧ Config.aerWord + 17 < 1024 ∧
    (Config.sriovWord + 17 < Config.aerWord ∨ Config.aerWord + 17 < Config.sriovWord) := by
  have h1 := Config.msixPlace.isLt
  have h2 := Config.extPlace.isLt
  have h3 := Nat.mod_lt Config.extGap (show 0 < 925 - Config.extPlace.val by omega)
  simp only [Config.msixWord, Config.sriovWord, Config.aerWord, Config.extWord]
  cases Config.sriovFirst <;> simp <;> omega

end Sys2Proof.Machine
end

