-- ==== Sys2Proof/Laws/Does.lean ====
section
/-! SUPPORT. How it is shown which fields a command sets: SetsOnly is built up one set, one register, one change of other
fields at a time. -/

namespace Sys2Proof.Machine

theorem bitAfter_nil (a i : Nat) (b : Bool) : bitAfter [] a i b = b := rfl

theorem bitAfter_cons (f : Fld) (v : Nat) (l : List (Fld × Nat)) (a i : Nat) (b : Bool) :
    bitAfter ((f, v) :: l) a i b = if f.covers a i then v.testBit (i - f.lo) else bitAfter l a i b := by
  unfold bitAfter
  rw [List.find?_cons]
  cases h : f.covers a i <;> simp

/-- The registers of `t` are those that `r` gives with a list of fields set. -/
def RegBits (r : Nat → Word) (l : List (Fld × Nat)) (t : State) : Prop :=
  ∀ a i, i < 32 → (t.reg a).getLsbD i = bitAfter l a i ((r a).getLsbD i)

theorem regBits_refl (s : State) : RegBits s.reg [] s := fun _ _ _ => rfl

/-- A field is set after the others. -/
theorem regBits_set {r : Nat → Word} {t : State} {l : List (Fld × Nat)} {f : Fld} {v : Nat} (h : RegBits r l t) :
    RegBits r ((f, v) :: l) (t.set f v) := by
  intro a i hi
  rw [bitAfter_cons, State.reg_set]
  by_cases ha : a = f.addr
  · subst ha
    rw [if_pos rfl, getLsbD_setBits _ _ _ _ _ hi]
    by_cases hc : f.lo ≤ i ∧ i < f.lo + f.width
    · simp [Fld.covers, hc]
    · rw [if_neg hc, h _ _ hi]; simp only [Fld.covers, hc]; simp
  · rw [if_neg ha, h _ _ hi]
    simp [Fld.covers, Ne.symm ha]

/-- A whole register is set after the others. -/
theorem regBits_setReg {r : Nat → Word} {t : State} {l : List (Fld × Nat)} {a n : Nat} {v : Word} (h : RegBits r l t)
    (hv : n = v.toNat) : RegBits r ((whole a, n) :: l) (t.setReg a v) := by
  subst hv
  intro b i hi
  rw [bitAfter_cons, State.reg_setReg]
  by_cases hb : b = a
  · subst hb; rw [if_pos rfl, if_pos (by simp [Fld.covers, whole, hi]), BitVec.testBit_toNat]; rfl
  · rw [if_neg hb, h _ _ hi]; simp [Fld.covers, whole, Ne.symm hb]

/-- Fields other than the registers change besides. -/
theorem regBits_congr {r : Nat → Word} {t t' : State} {l : List (Fld × Nat)} (h : RegBits r l t) (e : t'.regs = t.regs) :
    RegBits r l t' := by
  intro a i hi
  rw [State.reg_congr e]; exact h a i hi

/-- A field set again leaves no trace of the value it had been set to. -/
theorem regBits_drop {r : Nat → Word} {t : State} {l m : List (Fld × Nat)} {f : Fld} {v w : Nat}
    (h : RegBits r (l ++ (f, v) :: m) t) (hl : (f, w) ∈ l) : RegBits r (l ++ m) t := by
  intro a i hi
  rw [h a i hi]
  unfold bitAfter
  rw [List.find?_append, List.find?_append, List.find?_cons]
  by_cases hc : f.covers a i
  · have : (l.find? fun p => p.1.covers a i).isSome := List.find?_isSome.2 ⟨(f, w), hl, hc⟩
    obtain ⟨p, hp⟩ := Option.isSome_iff_exists.1 this
    simp [hp]
  · simp [hc]

/-- The registers, and everything else. -/
theorem setsOnly_intro {u t : State} {l : List (Fld × Nat)} {r : Nat → Word} (h : RegBits r l t) (hr : u.reg = r)
    (he : { t with regs := u.regs } = u) : u.SetsOnly l t := ⟨by subst hr; exact h, he⟩

/-- A field reads what the first entry for it says. -/
theorem setsOnly_get {u t : State} {l : List (Fld × Nat)} {f : Fld} {v : Nat} (h : u.SetsOnly ((f, v) :: l) t)
    (hf : f.lo + f.width ≤ 32) : t.get f = v % 2 ^ f.width := by
  refine Nat.eq_of_testBit_eq fun j => ?_
  unfold State.get
  rw [testBit_getBits, Nat.testBit_mod_two_pow]
  by_cases hj : j < f.width
  · rw [h.1 _ _ (by omega), bitAfter_cons]
    have hc : f.covers f.addr (f.lo + j) = true := by simp [Fld.covers, hj]
    simp [hc]
  · simp [hj]

theorem setsOnly_sameBytes {u t : State} {l : List (Fld × Nat)} (h : u.SetsOnly l t) : u.SameBytes t := by
  have e := h.2
  have hA : t.memA = u.memA := by rw [← e]
  have hB : t.memB = u.memB := by rw [← e]
  have hS : t.sram = u.sram := by rw [← e]
  have hF : t.flash = u.flash := by rw [← e]
  refine ⟨fun n off => ?_, fun off => ?_, fun off => ?_⟩
  · unfold State.sideByte; rw [hA, hB]
  · unfold State.sramByte; rw [hS]
  · unfold State.flashByte; rw [hF]

/-! ### Who may write -/

theorem asWriter_admits {s : State} {w : World} {unit inst : Nat} {sec : Bool} (h : s.Admits w unit inst sec)
    (f : State → State) : s.asWriter w unit inst sec f = f s := by
  unfold State.asWriter
  rw [if_neg (by rintro ⟨hw, hs⟩; simp [h.1 hw] at hs), if_neg (by simp [h.2])]

theorem raiseIrq_free {s : State} {k : Nat} (hk : sourceUsed k = true) (h : s.SourceFree k) :
    s.raiseIrq k = s.set (Reg.IC_SRC_PENDING k) 1 := by
  unfold State.SourceFree at h
  unfold State.raiseIrq
  rw [if_neg (by simp [hk]), if_neg (by simp [h])]

end Sys2Proof.Machine
end

