-- ==== Sys2Proof/Laws/Keep.lean ====
section
/-! SUPPORT. What is kept: a property of the state that is closed under the device's own primitive changes holds after every
operation. One lemma for each operation; the invariants and the frames of memory are instances. -/

namespace Sys2Proof.Machine

/-- A property closed under changes of registers and of every field but the stores of bytes. -/
structure Keeps (P : State → Prop) : Prop where
  /-- a register is set -/
  reg : ∀ {s : State} (a : Nat) (v : Word), P s → P (s.setReg a v)
  /-- registers of a range return to their reset values -/
  range : ∀ {s : State} (lo len : Nat) (k : Nat → Bool), P s → P (s.resetRange lo len k)
  /-- fields other than the registers and the bytes change -/
  other : ∀ {s t : State}, P s → t.regs = s.regs → t.memA = s.memA → t.memB = s.memB → t.sram = s.sram → t.flash = s.flash → P t

/-- A property closed under changes of bytes too. -/
structure KeepsMem (P : State → Prop) : Prop extends Keeps P where
  /-- a byte of a side is set -/
  side : ∀ {s : State} (n off : Nat) (b : Byte), P s → P (s.setSideByte n off b)
  /-- bytes of a side return to 0 -/
  clear : ∀ {s : State} (n : Nat) (p : Host.Cell → Bool), P s → P (s.keepSide n p)
  /-- a byte of management SRAM is set -/
  sram : ∀ {s : State} (off : Nat) (b : Byte), P s → P (s.setSramByte off b)
  /-- a byte of flash is set -/
  flash : ∀ {s : State} (off : Nat) (b : Byte), P s → P (s.setFlashByte off b)
  /-- flash is erased -/
  erase : ∀ {s : State} (off len : Nat), P s → P (s.eraseFlash off len)

/-- A property closed under device reset too. -/
structure KeepsAll (P : State → Prop) : Prop extends KeepsMem P where
  /-- everything but the flash is as reset leaves it -/
  fresh : ∀ {s t : State}, P s → t.regs = [] → t.memA = [] → t.memB = [] → t.sram = [] → t.flash = s.flash → P t

section
variable {P : State → Prop}

/-- Fields that hold no register and no byte are set. -/
theorem mk_iff (h : Keeps P) {s : State} (pending' : List Instr) (clock' : Nat) (drawn' : Nat) (log' : LogState) (rtc' : RtcState) (ic' : IcState) (drum' : DrumState) (gated' : List Nat) (sides' : List (Nat × SideState)) (nextReq' : Nat) (replies' : List Reply) (bbox' : BboxState) (alive' : Level) (exhausted' : List Nat) (sess' : List (Nat × SessState)) (funcs' : List (Nat × FuncState)) (msix' : List MsixMessage) (touch' : List (Nat × TouchState)) (hap' : List (Nat × HapState)) (hapLib' : Option (Option (List Byte))) (layers' : List (Nat × LayerState)) (prots' : List (Nat × ProtState)) (vins' : List (Nat × VinState)) (ports' : List (Nat × PortState)) (pipes' : List (Nat × PipeState)) (screens' : List (Nat × ScreenState)) (audQuiet' : Bool) (aud' : AudState) (sxtBack' : List (Nat × Nat)) (crcs' : List (Nat × CrcState)) (wear' : WearState) (cores' : List (Nat × CoreState)) (tags' : List Tagged) (restartOn' : Option Nat) (swdtHalf' : Bool) (restartDue' : Bool) (gateSecure' : List Nat) (gateNoted' : List Nat) (jtag' : JtagState) (boot' : BootState) (released' : Bool) (fittedA' : Fin 4) (fittedB' : Fin 4) (factory' : Bool) (resetLow' : Bool) (railsOut' : List (Fin 2)) :
    P { pending := pending', regs := s.regs, clock := clock', drawn := drawn', log := log', rtc := rtc', ic := ic', drum := drum', gated := gated', memA := s.memA, memB := s.memB, sram := s.sram, flash := s.flash, sides := sides', nextReq := nextReq', replies := replies', bbox := bbox', alive := alive', exhausted := exhausted', sess := sess', funcs := funcs', msix := msix', touch := touch', hap := hap', hapLib := hapLib', layers := layers', prots := prots', vins := vins', ports := ports', pipes := pipes', screens := screens', audQuiet := audQuiet', aud := aud', sxtBack := sxtBack', crcs := crcs', wear := wear', cores := cores', tags := tags', restartOn := restartOn', swdtHalf := swdtHalf', restartDue := restartDue', gateSecure := gateSecure', gateNoted := gateNoted', jtag := jtag', boot := boot', released := released', fittedA := fittedA', fittedB := fittedB', factory := factory', resetLow := resetLow', railsOut := railsOut' } ↔ P s :=
  ⟨fun hs => h.other hs rfl rfl rfl rfl rfl, fun hs => h.other hs rfl rfl rfl rfl rfl⟩

theorem ite_keeps {c : Prop} [Decidable c] {s t : State} (hs : P s) (ht : P t) : P (if c then s else t) := by
  split <;> assumption

theorem each_keeps {α : Type} {f : α → State → State} (hf : ∀ x t, P t → P (f x t)) {s : State} (hs : P s) (l : List α) :
    P (s.each l f) := by
  unfold State.each
  induction l generalizing s with
  | nil => exact hs
  | cons x l ih => exact ih (hf x s hs)

theorem when_keeps {f : State → State} (hf : ∀ t, P t → P (f t)) {s : State} (hs : P s) (b : Bool) : P (s.when b f) := by
  unfold State.when; split
  · exact hf s hs
  · exact hs

theorem foldlSnd_keeps {α β : Type} {f : β × State → α → β × State} (hf : ∀ p x, P p.2 → P (f p x).2) {p : β × State}
    (hp : P p.2) (l : List α) : P (l.foldl f p).2 := by
  induction l generalizing p with
  | nil => exact hp
  | cons x l ih => exact ih (hf p x hp)

theorem foldl_keeps {α : Type} {f : State → α → State} (hf : ∀ t x, P t → P (f t x)) {s : State} (hs : P s) (l : List α) :
    P (l.foldl f s) := by
  induction l generalizing s with
  | nil => exact hs
  | cons x l ih => exact ih (hf s x hs)

theorem draw_keeps (h : Keeps P) {s : State} (hs : P s) : P s.draw.2 := h.other hs rfl rfl rfl rfl rfl

theorem setReg_keeps (h : Keeps P) {s : State} (hs : P s) (a : Nat) (v : Word) : P (s.setReg a v) := h.reg a v hs

theorem resetRange_keeps (h : Keeps P) {s : State} (hs : P s) (lo len : Nat) (k : Nat → Bool) : P (s.resetRange lo len k) :=
  h.range lo len k hs

theorem setSideByte_keeps (h : KeepsMem P) {s : State} (hs : P s) (n off : Nat) (b : Byte) : P (s.setSideByte n off b) :=
  h.side n off b hs

theorem keepSide_keeps (h : KeepsMem P) {s : State} (hs : P s) (n : Nat) (p : Host.Cell → Bool) : P (s.keepSide n p) :=
  h.clear n p hs

theorem setSramByte_keeps (h : KeepsMem P) {s : State} (hs : P s) (off : Nat) (b : Byte) : P (s.setSramByte off b) :=
  h.sram off b hs

theorem setFlashByte_keeps (h : KeepsMem P) {s : State} (hs : P s) (off : Nat) (b : Byte) : P (s.setFlashByte off b) :=
  h.flash off b hs

theorem eraseFlash_keeps (h : KeepsMem P) {s : State} (hs : P s) (off len : Nat) : P (s.eraseFlash off len) :=
  h.erase off len hs

end

end Sys2Proof.Machine
end

