-- ==== Sys2Proof/Laws/KeepOps.lean ====
section
/-! SUPPORT. What is kept: the shared operations over registers, memory, the black box, the faults and the sessions. -/

namespace Sys2Proof.Machine

section
variable {P : State → Prop}

/-! ### Ops -/

theorem set_keeps (h : Keeps P) {s : State} (f : Fld) (v : Nat) (hs : P s) : P (State.set s f v) := by
  unfold State.set
  repeat' first
    | with_reducible assumption
    | intro _
    | with_reducible apply setReg_keeps h

theorem count_keeps (h : Keeps P) {s : State} (f : Fld) (n : Nat) (hs : P s) : P (State.count s f n) := by
  unfold State.count
  repeat' first
    | with_reducible assumption
    | intro _
    | with_reducible apply set_keeps h

theorem raiseTo_keeps (h : Keeps P) {s : State} (f : Fld) (v : Nat) (hs : P s) : P (State.raiseTo s f v) := by
  unfold State.raiseTo
  repeat' first
    | with_reducible assumption
    | intro _
    | with_reducible apply set_keeps h
    | with_reducible apply ite_keeps

theorem resetReg_keeps (h : Keeps P) {s : State} (a : Nat) (hs : P s) : P (State.resetReg s a) := by
  unfold State.resetReg
  repeat' first
    | with_reducible assumption
    | intro _
    | with_reducible apply setReg_keeps h

theorem raiseIrq_keeps (h : Keeps P) {s : State} (k : Nat) (hs : P s) : P (State.raiseIrq s k) := by
  unfold State.raiseIrq
  repeat' first
    | with_reducible assumption
    | intro _
    | with_reducible apply set_keeps h
    | with_reducible apply ite_keeps
    | simp only [↓mk_iff h]

theorem event_keeps (h : Keeps P) {s : State} (flag : Fld) (events : Fld) (irq : Nat) (hs : P s) : P (State.event s flag events irq) := by
  unfold State.event
  repeat' first
    | with_reducible assumption
    | intro _
    | with_reducible apply count_keeps h
    | with_reducible apply raiseIrq_keeps h
    | with_reducible apply set_keeps h

theorem enqueueLog_keeps (h : Keeps P) {s : State} (e : LogEntry) (hs : P s) : P (State.enqueueLog s e) := by
  unfold State.enqueueLog
  repeat' first
    | with_reducible assumption
    | intro _
    | with_reducible apply count_keeps h
    | with_reducible apply raiseIrq_keeps h
    | with_reducible apply ite_keeps
    | simp only [↓mk_iff h]

theorem inOrder_keeps (h : Keeps P) {t : State} (s : State) (hs : P t) : P (State.inOrder t s) := by
  unfold State.inOrder
  repeat' first
    | with_reducible assumption
    | intro _
    | (extract_lets +onlyGivenNames u; clear_value u)
    | with_reducible apply ite_keeps
    | simp only [↓mk_iff h]

theorem logEvent_keeps (h : Keeps P) {s : State} (code : Nat) (unit : Nat) (inst : Nat) (p0 : Nat) (p1 : Nat) (p2 : Nat) (p3 : Nat) (hs : P s) : P (State.logEvent s code unit inst p0 p1 p2 p3) := by
  unfold State.logEvent
  repeat' first
    | with_reducible assumption
    | intro _
    | with_reducible apply enqueueLog_keeps h

theorem breach_keeps (h : Keeps P) {s : State} (b : Breach) (hs : P s) : P (State.breach s b) := by
  unfold State.breach
  repeat' first
    | with_reducible assumption
    | intro _
    | (extract_lets +onlyGivenNames u; refine (fun (_ : P u) => ?_) ?_; (on_goal 1 => clear_value u); (on_goal 2 => subst u))
    | with_reducible apply count_keeps h
    | with_reducible apply logEvent_keeps h
    | with_reducible apply set_keeps h

theorem denyWrite_keeps (h : Keeps P) {s : State} (hs : P s) : P (State.denyWrite s) := by
  unfold State.denyWrite
  repeat' first
    | with_reducible assumption
    | intro _
    | with_reducible apply count_keeps h

theorem asWriter_keeps (h : Keeps P) {s : State} (w : World) (unit : Nat) (inst : Nat) (sec : Bool) (f : State → State) (hs : P s) (h_f : ∀ t, P t → P (f t)) : P (State.asWriter s w unit inst sec f) := by
  unfold State.asWriter
  repeat' first
    | with_reducible assumption
    | intro _
    | with_reducible apply denyWrite_keeps h
    | with_reducible apply ite_keeps
    | simp only [↓mk_iff h]
    | apply h_f

theorem dbgOpen_keeps (h : Keeps P) {s : State} (scope : Nat) (hs : P s) : P (State.dbgOpen s scope) := by
  unfold State.dbgOpen
  repeat' first
    | with_reducible assumption
    | intro _
    | (extract_lets +onlyGivenNames u; refine (fun (_ : P u) => ?_) ?_; (on_goal 1 => clear_value u); (on_goal 2 => subst u))
    | with_reducible apply set_keeps h
    | with_reducible apply when_keeps

/-! ### RegOps -/

theorem plainWrite_keeps (h : Keeps P) {s : State} (a : Nat) (v : Word) (hs : P s) : P (State.plainWrite s a v) := by
  unfold State.plainWrite
  repeat' first
    | with_reducible assumption
    | intro _
    | with_reducible apply setReg_keeps h
    | with_reducible apply ite_keeps
    | simp only [↓mk_iff h]
    | split

/-! ### MemOps -/

theorem setSide_keeps (h : Keeps P) {s : State} (n : Nat) (r : SideState) (hs : P s) : P (State.setSide s n r) := by
  unfold State.setSide
  repeat' first
    | with_reducible assumption
    | intro _
    | with_reducible apply ite_keeps
    | simp only [↓mk_iff h]

theorem setChan_keeps (h : Keeps P) {s : State} (n : Nat) (c : Nat) (r : Chan) (hs : P s) : P (State.setChan s n c r) := by
  unfold State.setChan
  repeat' first
    | with_reducible assumption
    | intro _
    | with_reducible apply setSide_keeps h

theorem putSide_keeps (h : KeepsMem P) {s : State} (hs : P s) (n off : Nat) (bs : List Byte) : P (s.putSide n off bs) := by
  induction bs generalizing s off with
  | nil => exact hs
  | cons b bs ih => exact ih (h.side n off b hs) (off + 1)

theorem putSram_keeps (h : KeepsMem P) {s : State} (hs : P s) (off : Nat) (bs : List Byte) : P (s.putSram off bs) := by
  induction bs generalizing s off with
  | nil => exact hs
  | cons b bs ih => exact ih (h.sram off b hs) (off + 1)

theorem markDirty_keeps (h : Keeps P) {s : State} (n : Nat) (g : Nat) (hs : P s) : P (State.markDirty s n g) := by
  unfold State.markDirty
  repeat' first
    | with_reducible assumption
    | intro _
    | (extract_lets +onlyGivenNames u; clear_value u)
    | with_reducible apply setReg_keeps h

theorem putMirrored_keeps (h : KeepsMem P) {s : State} (off : Nat) (bs : List Byte) (hs : P s) : P (State.putMirrored s off bs) := by
  unfold State.putMirrored
  repeat' first
    | with_reducible assumption
    | intro _
    | with_reducible apply each_keeps
    | with_reducible apply markDirty_keeps h.toKeeps
    | with_reducible apply putSide_keeps h
    | with_reducible apply setSide_keeps h.toKeeps
    | with_reducible apply ite_keeps

theorem writeMem_keeps (h : KeepsMem P) {s : State} (w : World) (a : Nat) (bs : List Byte) (hs : P s) : P (State.writeMem s w a bs).2 := by
  unfold State.writeMem
  repeat' first
    | with_reducible assumption
    | intro _
    | with_reducible apply putMirrored_keeps h
    | with_reducible apply putSide_keeps h
    | with_reducible apply putSram_keeps h
    | with_reducible apply ite_keeps
    | simp only [↓mk_iff h.toKeeps]
    | split

theorem accept_keeps (h : Keeps P) {s : State} (n : Nat) (off : Nat) (r : MemReq) (hs : P s) : P (State.accept s n off r) := by
  unfold State.accept
  repeat' first
    | with_reducible assumption
    | intro _
    | (extract_lets +onlyGivenNames u; clear_value u)
    | with_reducible apply setChan_keeps h

theorem acceptPosted_keeps (h : Keeps P) {s : State} (n : Nat) (off : Nat) (r : MemReq) (hs : P s) : P (State.acceptPosted s n off r) := by
  unfold State.acceptPosted
  repeat' first
    | with_reducible assumption
    | intro _
    | (extract_lets +onlyGivenNames u; clear_value u)
    | with_reducible apply accept_keeps h
    | with_reducible apply setChan_keeps h
    | with_reducible apply ite_keeps
    | split

theorem writePiece_keeps (h : Keeps P) {s : State} (m : Master) (mirrored : Bool) (n : Nat) (base : Nat) (p : Nat × Nat) (hs : P s) : P (State.writePiece s m mirrored n base p) := by
  unfold State.writePiece
  repeat' first
    | with_reducible assumption
    | intro _
    | (extract_lets +onlyGivenNames u; clear_value u)
    | with_reducible apply accept_keeps h
    | with_reducible apply acceptPosted_keeps h
    | with_reducible apply ite_keeps

theorem queueWrite_keeps (h : Keeps P) {s : State} (m : Master) (a : Nat) (len : Nat) (hs : P s) : P (State.queueWrite s m a len) := by
  unfold State.queueWrite
  repeat' first
    | with_reducible assumption
    | intro _
    | with_reducible apply each_keeps
    | with_reducible apply writePiece_keeps h
    | with_reducible apply ite_keeps
    | simp only [↓mk_iff h]
    | split

/-! ### BboxOps -/

theorem programFlash_keeps (h : KeepsMem P) {s : State} (hs : P s) (off : Nat) (bs : List Byte) : P (s.programFlash off bs) := by
  induction bs generalizing s off with
  | nil => exact hs
  | cons b bs ih => exact ih (h.flash off _ hs) (off + 1)

theorem flashDrive_keeps (h : Keeps P) {s : State} (op : FlashOp) (hs : P s) : P (State.flashDrive s op) := by
  unfold State.flashDrive
  repeat' first
    | with_reducible assumption
    | intro _
    | with_reducible apply ite_keeps
    | simp only [↓mk_iff h]

theorem bboxDrive_keeps (h : Keeps P) {s : State} (cmd : Nat) (addr : Nat) (data : List Byte) (hs : P s) : P (State.bboxDrive s cmd addr data) := by
  unfold State.bboxDrive
  repeat' first
    | with_reducible assumption
    | intro _
    | with_reducible apply flashDrive_keeps h

theorem bboxPoll_keeps (h : Keeps P) {s : State} (hs : P s) : P (State.bboxPoll s) := by
  unfold State.bboxPoll
  repeat' first
    | with_reducible assumption
    | intro _
    | with_reducible apply flashDrive_keeps h

theorem bboxResume_keeps (h : Keeps P) {s : State} (hs : P s) : P (State.bboxResume s) := by
  unfold State.bboxResume
  repeat' first
    | with_reducible assumption
    | intro _
    | with_reducible apply flashDrive_keeps h
    | with_reducible apply set_keeps h
    | with_reducible apply ite_keeps

theorem setBboxQueue_keeps (h : Keeps P) {s : State} (q : List BboxRec) (hs : P s) : P (State.setBboxQueue s q) := by
  unfold State.setBboxQueue
  repeat' first
    | with_reducible assumption
    | intro _
    | with_reducible apply set_keeps h
    | with_reducible apply ite_keeps
    | simp only [↓mk_iff h]

theorem flashTurn_keeps (h : Keeps P) {s : State} (hs : P s) : P (State.flashTurn s) := by
  unfold State.flashTurn
  repeat' first
    | with_reducible assumption
    | intro _
    | with_reducible apply ite_keeps
    | simp only [↓mk_iff h]

theorem bboxErase_keeps (h : Keeps P) {s : State} (hs : P s) : P (State.bboxErase s) := by
  unfold State.bboxErase
  repeat' first
    | with_reducible assumption
    | intro _
    | with_reducible apply bboxDrive_keeps h
    | with_reducible apply set_keeps h

theorem bboxProgram_keeps (h : Keeps P) {s : State} (hs : P s) : P (State.bboxProgram s) := by
  unfold State.bboxProgram
  repeat' first
    | with_reducible assumption
    | intro _
    | (extract_lets +onlyGivenNames u; refine (fun (_ : P u) => ?_) ?_; (on_goal 1 => clear_value u); (on_goal 2 => subst u))
    | (extract_lets +onlyGivenNames u; clear_value u)
    | with_reducible apply bboxDrive_keeps h
    | with_reducible apply set_keeps h
    | with_reducible apply ite_keeps
    | simp only [↓mk_iff h]

theorem bboxOpen_keeps (h : Keeps P) {s : State} (hs : P s) : P (State.bboxOpen s) := by
  unfold State.bboxOpen
  repeat' first
    | with_reducible assumption
    | intro _
    | (extract_lets +onlyGivenNames u; refine (fun (_ : P u) => ?_) ?_; (on_goal 1 => clear_value u); (on_goal 2 => subst u))
    | (extract_lets +onlyGivenNames u; clear_value u)
    | with_reducible apply bboxDrive_keeps h
    | with_reducible apply set_keeps h
    | with_reducible apply ite_keeps
    | simp only [↓mk_iff h]

theorem bboxNext_keeps (h : Keeps P) {s : State} (hs : P s) : P (State.bboxNext s) := by
  unfold State.bboxNext
  repeat' first
    | with_reducible assumption
    | intro _
    | with_reducible apply bboxErase_keeps h
    | with_reducible apply bboxOpen_keeps h
    | with_reducible apply bboxProgram_keeps h
    | with_reducible apply bboxResume_keeps h
    | with_reducible apply ite_keeps

theorem bboxAdvance_keeps (h : Keeps P) {s : State} (hs : P s) : P (State.bboxAdvance s) := by
  unfold State.bboxAdvance
  repeat' first
    | with_reducible assumption
    | intro _
    | with_reducible apply bboxNext_keeps h
    | with_reducible apply flashTurn_keeps h

theorem bboxCommit_keeps (h : Keeps P) {s : State} (hs : P s) : P (State.bboxCommit s) := by
  unfold State.bboxCommit
  repeat' first
    | with_reducible assumption
    | intro _
    | with_reducible apply bboxAdvance_keeps h
    | with_reducible apply ite_keeps
    | simp only [↓mk_iff h]

theorem bboxEnter_keeps (h : Keeps P) {s : State} (r : BboxRec) (hs : P s) : P (State.bboxEnter s r) := by
  unfold State.bboxEnter
  repeat' first
    | with_reducible assumption
    | intro _
    | (extract_lets +onlyGivenNames u; refine (fun (_ : P u) => ?_) ?_; (on_goal 1 => clear_value u); (on_goal 2 => subst u))
    | with_reducible apply bboxCommit_keeps h
    | with_reducible apply setBboxQueue_keeps h
    | with_reducible apply ite_keeps

theorem bboxOwn_keeps (h : Keeps P) {s : State} (kind : Nat) (payload : List Byte) (hs : P s) : P (State.bboxOwn s kind payload) := by
  unfold State.bboxOwn
  repeat' first
    | with_reducible assumption
    | intro _
    | with_reducible apply bboxEnter_keeps h
    | with_reducible apply ite_keeps

theorem bboxOpened_keeps (h : KeepsMem P) {s : State} (hs : P s) : P (State.bboxOpened s) := by
  unfold State.bboxOpened
  repeat' first
    | with_reducible assumption
    | intro _
    | (extract_lets +onlyGivenNames u; refine (fun (_ : P u) => ?_) ?_; (on_goal 1 => clear_value u); (on_goal 2 => subst u))
    | (extract_lets +onlyGivenNames u; clear_value u)
    | with_reducible apply bboxPoll_keeps h.toKeeps
    | with_reducible apply count_keeps h.toKeeps
    | with_reducible apply programFlash_keeps h
    | with_reducible apply raiseIrq_keeps h.toKeeps
    | with_reducible apply set_keeps h.toKeeps
    | with_reducible apply ite_keeps
    | simp only [↓mk_iff h.toKeeps]

theorem bboxProgrammed_keeps (h : KeepsMem P) {s : State} (hs : P s) : P (State.bboxProgrammed s) := by
  unfold State.bboxProgrammed
  repeat' first
    | with_reducible assumption
    | intro _
    | (extract_lets +onlyGivenNames u; refine (fun (_ : P u) => ?_) ?_; (on_goal 1 => clear_value u); (on_goal 2 => subst u))
    | (extract_lets +onlyGivenNames u; clear_value u)
    | with_reducible apply bboxPoll_keeps h.toKeeps
    | with_reducible apply count_keeps h.toKeeps
    | with_reducible apply each_keeps
    | with_reducible apply programFlash_keeps h
    | with_reducible apply set_keeps h.toKeeps
    | with_reducible apply setBboxQueue_keeps h.toKeeps
    | with_reducible apply ite_keeps
    | simp only [↓mk_iff h.toKeeps]

/-! ### FaultOps -/

theorem liveFell_keeps (h : Keeps P) {s : State} (k : Nat) (hs : P s) : P (State.liveFell s k) := by
  unfold State.liveFell
  repeat' first
    | with_reducible assumption
    | intro _
    | with_reducible apply set_keeps h
    | with_reducible apply ite_keeps

theorem firstError_keeps (h : Keeps P) {s : State} (k : Nat) (c : Capture) (hs : P s) : P (State.firstError s k c) := by
  unfold State.firstError
  repeat' first
    | with_reducible assumption
    | intro _
    | (extract_lets +onlyGivenNames u; refine (fun (_ : P u) => ?_) ?_; (on_goal 1 => clear_value u); (on_goal 2 => subst u))
    | with_reducible apply count_keeps h
    | with_reducible apply raiseIrq_keeps h
    | with_reducible apply set_keeps h
    | with_reducible apply ite_keeps

theorem bboxC3_keeps (h : Keeps P) {s : State} (k : Nat) (hs : P s) : P (State.bboxC3 s k) := by
  unfold State.bboxC3
  repeat' first
    | with_reducible assumption
    | intro _
    | (extract_lets +onlyGivenNames u; refine (fun (_ : P u) => ?_) ?_; (on_goal 1 => clear_value u); (on_goal 2 => subst u))
    | (extract_lets +onlyGivenNames u; clear_value u)
    | with_reducible apply bboxOwn_keeps h
    | with_reducible apply count_keeps h
    | with_reducible apply ite_keeps
    | simp only [↓mk_iff h]

theorem faultRecord_keeps (h : Keeps P) {s : State} (k : Nat) (c : Option Capture) (as : Option Nat) (hs : P s) : P (State.faultRecord s k c as) := by
  unfold State.faultRecord
  repeat' first
    | with_reducible assumption
    | intro _
    | (extract_lets +onlyGivenNames u; refine (fun (_ : P u) => ?_) ?_; (on_goal 1 => clear_value u); (on_goal 2 => subst u))
    | (extract_lets +onlyGivenNames u; clear_value u)
    | with_reducible apply bboxC3_keeps h
    | with_reducible apply count_keeps h
    | with_reducible apply firstError_keeps h
    | with_reducible apply logEvent_keeps h
    | with_reducible apply raiseIrq_keeps h
    | with_reducible apply set_keeps h
    | with_reducible apply ite_keeps
    | simp only [↓mk_iff h]
    | split

theorem stopToll_keeps (h : Keeps P) {s : State} (cause : Nat) (hs : P s) : P (State.stopToll s cause) := by
  unfold State.stopToll
  repeat' first
    | with_reducible assumption
    | intro _
    | (extract_lets +onlyGivenNames u; refine (fun (_ : P u) => ?_) ?_; (on_goal 1 => clear_value u); (on_goal 2 => subst u))
    | with_reducible apply count_keeps h
    | with_reducible apply logEvent_keeps h
    | with_reducible apply raiseIrq_keeps h
    | with_reducible apply set_keeps h
    | with_reducible apply ite_keeps
    | simp only [↓mk_iff h]

theorem noteRegAccess_keeps (h : Keeps P) {s : State} (c : Capture) (hs : P s) : P (State.noteRegAccess s c) := by
  unfold State.noteRegAccess
  repeat' first
    | with_reducible assumption
    | intro _
    | with_reducible apply faultRecord_keeps h

theorem noteDecode_keeps (h : Keeps P) {s : State} (c : Capture) (hs : P s) : P (State.noteDecode s c) := by
  unfold State.noteDecode
  repeat' first
    | with_reducible assumption
    | intro _
    | with_reducible apply faultRecord_keeps h

theorem noteSecmem_keeps (h : Keeps P) {s : State} (c : Capture) (hs : P s) : P (State.noteSecmem s c) := by
  unfold State.noteSecmem
  repeat' first
    | with_reducible assumption
    | intro _
    | with_reducible apply faultRecord_keeps h

theorem dmaWrite_keeps (h : KeepsMem P) {s : State} (w : World) (port : Nat) (a : Nat) (bs : List Byte) (hs : P s) :
    P (State.dmaWrite s w port a bs) := by
  have k := writeMem_keeps h w a bs hs
  unfold State.dmaWrite
  split <;> rename_i e <;> rw [e] at k
  · exact ite_keeps (queueWrite_keeps h.toKeeps _ _ _ k) k
  · exact count_keeps h.toKeeps _ _ k
  · exact k
  · exact noteDecode_keeps h.toKeeps _ k

theorem dmaRead_keeps (h : Keeps P) {s : State} (w : World) (port : Nat) (a : Nat) (len : Nat) (hs : P s) : P (State.dmaRead s w port a len).2 := by
  unfold State.dmaRead
  repeat' first
    | with_reducible assumption
    | intro _
    | with_reducible apply noteDecode_keeps h
    | with_reducible apply ite_keeps
    | simp only [↓mk_iff h]
    | split

/-! ### SessOps -/

theorem setSes_keeps (h : Keeps P) {s : State} (n : Nat) (r : SessState) (hs : P s) : P (State.setSes s n r) := by
  unfold State.setSes
  repeat' first
    | with_reducible assumption
    | intro _
    | with_reducible apply ite_keeps
    | simp only [↓mk_iff h]

theorem setFunc_keeps (h : Keeps P) {s : State} (f : Nat) (r : FuncState) (hs : P s) : P (State.setFunc s f r) := by
  unfold State.setFunc
  repeat' first
    | with_reducible assumption
    | intro _
    | with_reducible apply ite_keeps
    | simp only [↓mk_iff h]

theorem msixSend_keeps (h : Keeps P) {s : State} (f : Nat) (v : Nat) (hs : P s) : P (State.msixSend s f v) := by
  unfold State.msixSend
  repeat' first
    | with_reducible assumption
    | intro _
    | (extract_lets +onlyGivenNames u; clear_value u)
    | with_reducible apply setFunc_keeps h
    | with_reducible apply ite_keeps
    | simp only [↓mk_iff h]

theorem sessMessage_keeps (h : Keeps P) {s : State} (n : Nat) (hs : P s) : P (State.sessMessage s n) := by
  unfold State.sessMessage
  repeat' first
    | with_reducible assumption
    | intro _
    | with_reducible apply msixSend_keeps h
    | with_reducible apply ite_keeps

theorem irqStatusWrite_keeps (h : Keeps P) {s : State} (n : Nat) (v : Word) (hs : P s) : P (State.irqStatusWrite s n v) := by
  unfold State.irqStatusWrite
  repeat' first
    | with_reducible assumption
    | intro _
    | (extract_lets +onlyGivenNames u; refine (fun (_ : P u) => ?_) ?_; (on_goal 1 => clear_value u); (on_goal 2 => subst u))
    | (extract_lets +onlyGivenNames u; clear_value u)
    | with_reducible apply plainWrite_keeps h
    | with_reducible apply setFunc_keeps h
    | with_reducible apply ite_keeps

theorem sessIrq_keeps (h : Keeps P) {s : State} (n : Nat) (bit : Nat) (hs : P s) : P (State.sessIrq s n bit) := by
  unfold State.sessIrq
  repeat' first
    | with_reducible assumption
    | intro _
    | (extract_lets +onlyGivenNames u; refine (fun (_ : P u) => ?_) ?_; (on_goal 1 => clear_value u); (on_goal 2 => subst u))
    | (extract_lets +onlyGivenNames u; clear_value u)
    | with_reducible apply sessMessage_keeps h
    | with_reducible apply setReg_keeps h
    | with_reducible apply ite_keeps

theorem pageEvent_keeps (h : Keeps P) {s : State} (n : Nat) (flag : Fld) (hs : P s) : P (State.pageEvent s n flag) := by
  unfold State.pageEvent
  repeat' first
    | with_reducible assumption
    | intro _
    | with_reducible apply count_keeps h
    | with_reducible apply set_keeps h

theorem sessEvent_keeps (h : Keeps P) {s : State} (n : Nat) (flag : Fld) (hs : P s) : P (State.sessEvent s n flag) := by
  unfold State.sessEvent
  repeat' first
    | with_reducible assumption
    | intro _
    | with_reducible apply event_keeps h

theorem tqDrop_keeps (h : Keeps P) {s : State} (n : Nat) (hs : P s) : P (State.tqDrop s n) := by
  unfold State.tqDrop
  repeat' first
    | with_reducible assumption
    | intro _
    | with_reducible apply count_keeps h

theorem tqPut_keeps (h : KeepsMem P) {s : State} (w : World) (n : Nat) (rec : List Byte) (hs : P s) : P (State.tqPut s w n rec) := by
  unfold State.tqPut
  repeat' first
    | with_reducible assumption
    | intro _
    | (extract_lets +onlyGivenNames u; refine (fun (_ : P u) => ?_) ?_; (on_goal 1 => clear_value u); (on_goal 2 => subst u))
    | (extract_lets +onlyGivenNames u; clear_value u)
    | with_reducible apply dmaWrite_keeps h
    | with_reducible apply sessIrq_keeps h.toKeeps
    | with_reducible apply set_keeps h.toKeeps

theorem tqWrite_keeps (h : KeepsMem P) {s : State} (w : World) (n : Nat) (rec : List Byte) (sync : List Byte) (hs : P s) : P (State.tqWrite s w n rec sync) := by
  unfold State.tqWrite
  repeat' first
    | with_reducible assumption
    | intro _
    | (extract_lets +onlyGivenNames u; refine (fun (_ : P u) => ?_) ?_; (on_goal 1 => clear_value u); (on_goal 2 => subst u))
    | (extract_lets +onlyGivenNames u; clear_value u)
    | with_reducible apply sessIrq_keeps h.toKeeps
    | with_reducible apply set_keeps h.toKeeps
    | with_reducible apply setSes_keeps h.toKeeps
    | with_reducible apply tqDrop_keeps h.toKeeps
    | with_reducible apply tqPut_keeps h
    | with_reducible apply ite_keeps

end

end Sys2Proof.Machine
end

