-- ==== Sys2Proof/Laws/KeepSound.lean ====
section
/-! SUPPORT. What is kept: the audio engine, the black-box triggers and the haptic channels. -/

namespace Sys2Proof.Machine

section
variable {P : State → Prop}

/-! ### AudioOps -/

theorem setNode_keeps (h : Keeps P) {s : State} (o : Nat) (i : Nat) (v : NodeState) (hs : P s) : P (State.setNode s o i v) := by
  unfold State.setNode
  repeat' first
    | with_reducible assumption
    | intro _
    | with_reducible apply ite_keeps
    | simp only [↓mk_iff h]

theorem setTdm_keeps (h : Keeps P) {s : State} (n : Nat) (v : TdmState) (hs : P s) : P (State.setTdm s n v) := by
  unfold State.setTdm
  repeat' first
    | with_reducible assumption
    | intro _
    | with_reducible apply ite_keeps
    | simp only [↓mk_iff h]

theorem setVoice_keeps (h : Keeps P) {s : State} (v : Nat) (x : Voice) (hs : P s) : P (State.setVoice s v x) := by
  unfold State.setVoice
  repeat' first
    | with_reducible assumption
    | intro _
    | with_reducible apply ite_keeps
    | simp only [↓mk_iff h]

theorem audEvent_keeps (h : Keeps P) {s : State} (flag : Fld) (hs : P s) : P (State.audEvent s flag) := by
  unfold State.audEvent
  repeat' first
    | with_reducible assumption
    | intro _
    | with_reducible apply event_keeps h

theorem tdmEvent_keeps (h : Keeps P) {s : State} (n : Nat) (flag : Fld) (hs : P s) : P (State.tdmEvent s n flag) := by
  unfold State.tdmEvent
  repeat' first
    | with_reducible assumption
    | intro _
    | with_reducible apply event_keeps h

theorem audRefuse_keeps (h : Keeps P) {s : State} (code : Nat) (hs : P s) : P (State.audRefuse s code) := by
  unfold State.audRefuse
  repeat' first
    | with_reducible assumption
    | intro _
    | with_reducible apply audEvent_keeps h
    | with_reducible apply set_keeps h

theorem voiceOn_keeps (h : Keeps P) {s : State} (v : Nat) (hs : P s) : P (State.voiceOn s v) := by
  unfold State.voiceOn
  repeat' first
    | with_reducible assumption
    | intro _
    | (extract_lets +onlyGivenNames u; clear_value u)
    | with_reducible apply setVoice_keeps h

theorem voiceOff_keeps (h : Keeps P) {s : State} (v : Nat) (hs : P s) : P (State.voiceOff s v) := by
  unfold State.voiceOff
  repeat' first
    | with_reducible assumption
    | intro _
    | with_reducible apply set_keeps h
    | with_reducible apply setVoice_keeps h

theorem cadenceEnd_keeps (h : Keeps P) {s : State} (v : Nat) (hs : P s) : P (State.cadenceEnd s v) := by
  unfold State.cadenceEnd
  repeat' first
    | with_reducible assumption
    | intro _
    | (extract_lets +onlyGivenNames u; clear_value u)
    | with_reducible apply setVoice_keeps h
    | with_reducible apply voiceOn_keeps h
    | with_reducible apply ite_keeps
    | simp only [↓mk_iff h]
    | split

theorem voiceSample_keeps (h : Keeps P) {s : State} (v : Nat) (hs : P s) : P (State.voiceSample s v).2 := by
  unfold State.voiceSample
  repeat' first
    | with_reducible assumption
    | intro _
    | (extract_lets +onlyGivenNames u; refine (fun (_ : P u) => ?_) ?_; (on_goal 1 => clear_value u); (on_goal 2 => subst u))
    | (extract_lets +onlyGivenNames u; clear_value u)
    | with_reducible apply cadenceEnd_keeps h
    | with_reducible apply setVoice_keeps h
    | with_reducible apply voiceOff_keeps h
    | with_reducible apply voiceOn_keeps h
    | with_reducible apply ite_keeps
    | simp only [↓mk_iff h]
    | split

theorem voiceSamples_keeps (h : Keeps P) {s : State} (hs : P s) (v k : Nat) : P (s.voiceSamples v k).2 := by
  induction k generalizing s with
  | zero => exact hs
  | succ n ih => exact ih (voiceSample_keeps h v hs)

theorem voiceBoundary_keeps (h : Keeps P) {s : State} (v : Nat) (hs : P s) : P (State.voiceBoundary s v) := by
  unfold State.voiceBoundary
  repeat' first
    | with_reducible assumption
    | intro _
    | (extract_lets +onlyGivenNames u; refine (fun (_ : P u) => ?_) ?_; (on_goal 1 => clear_value u); (on_goal 2 => subst u))
    | (extract_lets +onlyGivenNames u; clear_value u)
    | with_reducible apply set_keeps h
    | with_reducible apply setVoice_keeps h
    | with_reducible apply voiceOff_keeps h
    | with_reducible apply voiceOn_keeps h
    | with_reducible apply ite_keeps
    | simp only [↓mk_iff h]
    | split

theorem voicesStop_keeps (h : Keeps P) {s : State} (hs : P s) : P (State.voicesStop s) := by
  unfold State.voicesStop
  repeat' first
    | with_reducible assumption
    | intro _
    | with_reducible apply each_keeps
    | with_reducible apply set_keeps h
    | with_reducible apply setVoice_keeps h
    | with_reducible apply voiceOff_keeps h

theorem downStop_keeps (h : Keeps P) {s : State} (hs : P s) : P (State.downStop s) := by
  unfold State.downStop
  repeat' first
    | with_reducible assumption
    | intro _
    | with_reducible apply event_keeps h
    | with_reducible apply voicesStop_keeps h
    | with_reducible apply ite_keeps
    | simp only [↓mk_iff h]

theorem streamTake_keeps (h : Keeps P) {s : State} (k : Nat) (late : Bool) (hs : P s) : P (State.streamTake s k late).2 := by
  unfold State.streamTake
  repeat' first
    | with_reducible assumption
    | intro _
    | (extract_lets +onlyGivenNames u; clear_value u)
    | with_reducible apply count_keeps h
    | with_reducible apply dmaRead_keeps h
    | with_reducible apply sessIrq_keeps h
    | with_reducible apply set_keeps h
    | with_reducible apply ite_keeps
    | simp only [↓mk_iff h]
    | split

theorem hpfRun_keeps (h : Keeps P) {s : State} (input : Nat) (corner : Nat) (xs : List Int) (hs : P s) : P (State.hpfRun s input corner xs).2 := by
  unfold State.hpfRun
  repeat' first
    | with_reducible assumption
    | intro _
    | (extract_lets +onlyGivenNames u; clear_value u)
    | with_reducible apply ite_keeps
    | simp only [↓mk_iff h]
    | with_reducible apply foldlSnd_keeps
    | with_reducible apply foldl_keeps
    | split

theorem takeStreams_keeps (h : Keeps P) {s : State} (late : List Nat) (hs : P s) : P (State.takeStreams s late).2 := by
  unfold State.takeStreams
  generalize List.range 24 = l
  refine foldlSnd_keeps (fun p k hp => ?_) hs l
  with_reducible apply streamTake_keeps h; exact hp

theorem takeSlots_keeps (h : Keeps P) {s : State} (hs : P s) : P (State.takeSlots s).2 := by
  unfold State.takeSlots
  generalize List.range 32 = l
  refine foldlSnd_keeps (fun p k hp => ?_) hs l
  with_reducible apply hpfRun_keeps h; exact hp

theorem takeBells_keeps (h : Keeps P) {s : State} (hs : P s) : P (State.takeBells s).2 := by
  unfold State.takeBells
  generalize List.range 4 = l
  refine foldlSnd_keeps (fun p v hp => ?_) hs l
  with_reducible apply voiceSamples_keeps h; exact hp

theorem takeInputs_keeps (h : Keeps P) {s : State} (late : List Nat) (hs : P s) : P (State.takeInputs s late).2 := by
  unfold State.takeInputs
  dsimp only
  exact takeBells_keeps h (takeSlots_keeps h (takeStreams_keeps h late hs))

theorem nodeRun_keeps (h : Keeps P) {s : State} (o : Nat) (i : Nat) (xs : List Int) (hs : P s) : P (State.nodeRun s o i xs).2 := by
  unfold State.nodeRun
  repeat' first
    | with_reducible assumption
    | intro _
    | (extract_lets +onlyGivenNames u; clear_value u)
    | with_reducible apply set_keeps h
    | with_reducible apply setNode_keeps h
    | with_reducible apply ite_keeps
    | simp only [↓mk_iff h]
    | split

theorem duckEnd_keeps (h : Keeps P) {s : State} (hs : P s) : P (State.duckEnd s) := by
  unfold State.duckEnd
  repeat' first
    | with_reducible assumption
    | intro _
    | (extract_lets +onlyGivenNames u; refine (fun (_ : P u) => ?_) ?_; (on_goal 1 => clear_value u); (on_goal 2 => subst u))
    | (extract_lets +onlyGivenNames u; clear_value u)
    | with_reducible apply each_keeps
    | with_reducible apply set_keeps h
    | with_reducible apply setNode_keeps h
    | with_reducible apply ite_keeps
    | simp only [↓mk_iff h]
    | split

theorem duckBoundary_keeps (h : Keeps P) {s : State} (hs : P s) : P (State.duckBoundary s) := by
  unfold State.duckBoundary
  repeat' first
    | with_reducible assumption
    | intro _
    | (extract_lets +onlyGivenNames u; clear_value u)
    | with_reducible apply duckEnd_keeps h
    | with_reducible apply set_keeps h
    | with_reducible apply ite_keeps
    | simp only [↓mk_iff h]

theorem eqRun_keeps (h : Keeps P) {s : State} (o : Nat) (xs : List Int) (hs : P s) : P (State.eqRun s o xs).2 := by
  unfold State.eqRun
  repeat' first
    | with_reducible assumption
    | intro _
    | (extract_lets +onlyGivenNames u; clear_value u)
    | with_reducible apply ite_keeps
    | simp only [↓mk_iff h]
    | with_reducible apply foldlSnd_keeps
    | with_reducible apply foldl_keeps
    | split

theorem outputRun_keeps (h : Keeps P) {s : State} (inputs : List (List Int)) (o : Nat) (hs : P s) :
    P (State.outputRun s inputs o).2 := by
  unfold State.outputRun
  generalize List.range 64 = l
  refine eqRun_keeps h _ _ (foldlSnd_keeps (fun p k hp => ?_) hs _)
  dsimp only
  split
  · exact hp
  · exact nodeRun_keeps h _ _ _ hp

theorem sentWord_keeps (h : Keeps P) {s : State} (o : Nat) (j : Nat) (hs : P s) : P (State.sentWord s o j).2 := by
  unfold State.sentWord
  repeat' first
    | with_reducible assumption
    | intro _
    | (extract_lets +onlyGivenNames u; clear_value u)
    | with_reducible apply dmaRead_keeps h
    | with_reducible apply ite_keeps
    | simp only [↓mk_iff h]
    | split

theorem sentWords_keeps (h : Keeps P) {s : State} (o : Nat) (hs : P s) : P (State.sentWords s o).2 := by
  unfold State.sentWords
  generalize List.range 40 = l
  refine foldlSnd_keeps (fun p k hp => ?_) hs l
  with_reducible apply sentWord_keeps h; exact hp

theorem dpSend_keeps (h : Keeps P) {s : State} (hs : P s) : P (State.dpSend s) := by
  unfold State.dpSend
  have k : ∀ l : List Nat, P (l.foldl (fun (p : List (Nat × List Word) × State) k =>
      let (ws, t) := p.2.sentWords (32 + k); (p.1 ++ [(32 + k, ws)], t)) ([], s)).2 := fun l => by
    refine foldlSnd_keeps (fun p k hp => ?_) hs l
    with_reducible apply sentWords_keeps h; exact hp
  exact h.other (k s.dpOuts) rfl rfl rfl rfl rfl

theorem tdmStop_keeps (h : Keeps P) {s : State} (n : Nat) (hs : P s) : P (State.tdmStop s n) := by
  unfold State.tdmStop
  repeat' first
    | with_reducible assumption
    | intro _
    | with_reducible apply set_keeps h
    | with_reducible apply setTdm_keeps h

theorem streamStop_keeps (h : Keeps P) {s : State} (k : Nat) (hs : P s) : P (State.streamStop s k) := by
  unfold State.streamStop
  repeat' first
    | with_reducible assumption
    | intro _
    | with_reducible apply set_keeps h
    | with_reducible apply ite_keeps
    | simp only [↓mk_iff h]
    | split

theorem audStop_keeps (h : Keeps P) {s : State} (hs : P s) : P (State.audStop s) := by
  unfold State.audStop
  repeat' first
    | with_reducible assumption
    | intro _
    | (extract_lets +onlyGivenNames u; refine (fun (_ : P u) => ?_) ?_; (on_goal 1 => clear_value u); (on_goal 2 => subst u))
    | (extract_lets +onlyGivenNames u; clear_value u)
    | with_reducible apply downStop_keeps h
    | with_reducible apply each_keeps
    | with_reducible apply set_keeps h
    | with_reducible apply setTdm_keeps h
    | with_reducible apply streamStop_keeps h
    | with_reducible apply tdmStop_keeps h
    | with_reducible apply when_keeps
    | with_reducible apply ite_keeps
    | simp only [↓mk_iff h]

theorem audioGated_keeps (h : Keeps P) {s : State} (u : Nat) (i : Nat) (hs : P s) : P (State.audioGated s u i) := by
  unfold State.audioGated
  repeat' first
    | with_reducible assumption
    | intro _
    | with_reducible apply audStop_keeps h
    | with_reducible apply setTdm_keeps h
    | with_reducible apply tdmStop_keeps h
    | with_reducible apply ite_keeps

theorem audBoundary_keeps (h : Keeps P) {s : State} (hs : P s) : P (State.audBoundary s) := by
  unfold State.audBoundary
  repeat' first
    | with_reducible assumption
    | intro _
    | (extract_lets +onlyGivenNames u; refine (fun (_ : P u) => ?_) ?_; (on_goal 1 => clear_value u); (on_goal 2 => subst u))
    | (extract_lets +onlyGivenNames u; clear_value u)
    | with_reducible apply downStop_keeps h
    | with_reducible apply duckBoundary_keeps h
    | with_reducible apply each_keeps
    | with_reducible apply set_keeps h
    | with_reducible apply setTdm_keeps h
    | with_reducible apply tdmStop_keeps h
    | with_reducible apply voiceBoundary_keeps h
    | with_reducible apply voicesStop_keeps h
    | with_reducible apply when_keeps
    | with_reducible apply ite_keeps
    | simp only [↓mk_iff h]

theorem audSend_keeps (h : Keeps P) {s : State} (stagedLate : Bool) (hs : P s) : P (State.audSend s stagedLate) := by
  unfold State.audSend
  repeat' first
    | with_reducible assumption
    | intro _
    | (extract_lets +onlyGivenNames u; refine (fun (_ : P u) => ?_) ?_; (on_goal 1 => clear_value u); (on_goal 2 => subst u))
    | (extract_lets +onlyGivenNames u; clear_value u)
    | with_reducible apply breach_keeps h
    | with_reducible apply count_keeps h
    | with_reducible apply dpSend_keeps h
    | with_reducible apply ite_keeps
    | simp only [↓mk_iff h]

theorem outputsRun_keeps (h : Keeps P) {s : State} (inputs : List (List Int)) (hs : P s) : P (State.outputsRun s inputs).2 := by
  unfold State.outputsRun
  generalize List.range 48 = l
  refine foldlSnd_keeps (fun p k hp => ?_) hs l
  with_reducible apply outputRun_keeps h; exact hp

theorem audioStage_keeps (h : KeepsMem P) {s : State} (late : List Nat) (inputs : List (List Int)) (outs : List (List Int)) (hs : P s) : P (State.audioStage s late inputs outs) := by
  unfold State.audioStage
  repeat' first
    | with_reducible assumption
    | intro _
    | (extract_lets +onlyGivenNames u; refine (fun (_ : P u) => ?_) ?_; (on_goal 1 => clear_value u); (on_goal 2 => subst u))
    | (extract_lets +onlyGivenNames u; clear_value u)
    | with_reducible apply dmaWrite_keeps h
    | with_reducible apply each_keeps
    | with_reducible apply set_keeps h.toKeeps
    | with_reducible apply setTdm_keeps h.toKeeps
    | with_reducible apply ite_keeps
    | simp only [↓mk_iff h.toKeeps]

theorem audioMix_keeps (h : KeepsMem P) {s : State} (late : List Nat) (hs : P s) : P (State.audioMix s late) := by
  unfold State.audioMix
  dsimp only
  exact audioStage_keeps h _ _ _ (outputsRun_keeps h.toKeeps _ (takeInputs_keeps h.toKeeps late hs))

theorem audioBlock_keeps (h : KeepsMem P) {s : State} (late : List Nat) (stagedLate : Bool) (hs : P s) :
    P (State.audioBlock s late stagedLate) := by
  unfold State.audioBlock
  exact ite_keeps hs (ite_keeps (audStop_keeps h.toKeeps hs)
    (audioMix_keeps h late (audSend_keeps h.toKeeps stagedLate (audBoundary_keeps h.toKeeps hs))))

/-! ### Audio -/

theorem audCtrlWrite_keeps (h : Keeps P) {s : State} (v : Word) (hs : P s) : P (State.audCtrlWrite s v) := by
  unfold State.audCtrlWrite
  repeat' first
    | with_reducible assumption
    | intro _
    | (extract_lets +onlyGivenNames u; refine (fun (_ : P u) => ?_) ?_; (on_goal 1 => clear_value u); (on_goal 2 => subst u))
    | (extract_lets +onlyGivenNames u; clear_value u)
    | with_reducible apply audEvent_keeps h
    | with_reducible apply audRefuse_keeps h
    | with_reducible apply set_keeps h
    | with_reducible apply ite_keeps
    | simp only [↓mk_iff h]

theorem execAudioEnable_keeps (h : Keeps P) (w : World) (v : Word) {s : State} (hs : P s) {t' : State}
    (e : execAudioEnable w v s = .next t') : P t' := by
  unfold execAudioEnable at e
  injection e with e
  subst e
  repeat' first
    | with_reducible assumption
    | intro _
    | with_reducible apply asWriter_keeps h
    | with_reducible apply audCtrlWrite_keeps h

theorem execAudioDisable_keeps (h : Keeps P) (w : World) (v : Word) {s : State} (hs : P s) {t' : State}
    (e : execAudioDisable w v s = .next t') : P t' := by
  unfold execAudioDisable at e
  injection e with e
  subst e
  repeat' first
    | with_reducible assumption
    | intro _
    | with_reducible apply asWriter_keeps h
    | with_reducible apply audCtrlWrite_keeps h

theorem audioBeat_keeps (h : Keeps P) {s : State} (hs : P s) : P (State.audioBeat s) := by
  unfold State.audioBeat
  repeat' first
    | with_reducible assumption
    | intro _
    | (extract_lets +onlyGivenNames u; refine (fun (_ : P u) => ?_) ?_; (on_goal 1 => clear_value u); (on_goal 2 => subst u))
    | (extract_lets +onlyGivenNames u; clear_value u)
    | with_reducible apply audRefuse_keeps h
    | with_reducible apply audStop_keeps h
    | with_reducible apply set_keeps h
    | with_reducible apply when_keeps
    | with_reducible apply ite_keeps
    | simp only [↓mk_iff h]

theorem execAudioBlock_keeps (h : KeepsMem P) (late : List (Fin 24)) (stagedLate : Bool) {s : State} (hs : P s) {t' : State}
    (e : execAudioBlock late stagedLate s = .next t') : P t' := by
  unfold execAudioBlock at e
  injection e with e
  subst e
  repeat' first
    | with_reducible assumption
    | intro _
    | with_reducible apply audioBlock_keeps h

theorem streamDeadline_keeps (h : Keeps P) {s : State} (k : Nat) (hs : P s) : P (State.streamDeadline s k) := by
  unfold State.streamDeadline
  repeat' first
    | with_reducible assumption
    | intro _
    | (extract_lets +onlyGivenNames u; refine (fun (_ : P u) => ?_) ?_; (on_goal 1 => clear_value u); (on_goal 2 => subst u))
    | (extract_lets +onlyGivenNames u; clear_value u)
    | with_reducible apply breach_keeps h
    | with_reducible apply count_keeps h
    | with_reducible apply ite_keeps
    | simp only [↓mk_iff h]

theorem execAudioStreamDeadline_keeps (h : Keeps P) (k : Fin 24) {s : State} (hs : P s) {t' : State}
    (e : execAudioStreamDeadline k s = .next t') : P t' := by
  unfold execAudioStreamDeadline at e
  injection e with e
  subst e
  repeat' first
    | with_reducible assumption
    | intro _
    | with_reducible apply streamDeadline_keeps h

theorem tdmCtrlWrite_keeps (h : Keeps P) {s : State} (n : Nat) (v : Word) (hs : P s) : P (State.tdmCtrlWrite s n v) := by
  unfold State.tdmCtrlWrite
  repeat' first
    | with_reducible assumption
    | intro _
    | (extract_lets +onlyGivenNames u; clear_value u)
    | with_reducible apply plainWrite_keeps h
    | with_reducible apply set_keeps h
    | with_reducible apply tdmEvent_keeps h
    | with_reducible apply ite_keeps

theorem execTdmEnable_keeps (h : Keeps P) (n : Fin 2) (w : World) (v : Word) {s : State} (hs : P s) {t' : State}
    (e : execTdmEnable n w v s = .next t') : P t' := by
  unfold execTdmEnable at e
  injection e with e
  subst e
  repeat' first
    | with_reducible assumption
    | intro _
    | with_reducible apply asWriter_keeps h
    | with_reducible apply tdmCtrlWrite_keeps h

theorem execTdmDisable_keeps (h : Keeps P) (n : Fin 2) (w : World) (v : Word) {s : State} (hs : P s) {t' : State}
    (e : execTdmDisable n w v s = .next t') : P t' := by
  unfold execTdmDisable at e
  injection e with e
  subst e
  repeat' first
    | with_reducible assumption
    | intro _
    | with_reducible apply asWriter_keeps h
    | with_reducible apply tdmCtrlWrite_keeps h

theorem tdmSlot_keeps (h : Keeps P) {s : State} (n : Nat) (k : Nat) (j : Nat) (frame : Nat) (hs : P s) : P (State.tdmSlot s n k j frame).2 := by
  unfold State.tdmSlot
  repeat' first
    | with_reducible assumption
    | intro _
    | with_reducible apply sentWord_keeps h
    | with_reducible apply ite_keeps
    | simp only [↓mk_iff h]
    | split

theorem tdmFrame_keeps (h : Keeps P) {s : State} (n : Nat) (din : List Word) (hs : P s) : P (State.tdmFrame s n din) := by
  unfold State.tdmFrame
  repeat' first
    | with_reducible assumption
    | intro _
    | (extract_lets +onlyGivenNames u; clear_value u)
    | with_reducible apply setTdm_keeps h
    | with_reducible apply tdmSlot_keeps h
    | with_reducible apply ite_keeps
    | simp only [↓mk_iff h]
    | with_reducible apply foldlSnd_keeps
    | with_reducible apply foldl_keeps
    | split

theorem execTdmFrame_keeps (h : Keeps P) (n : Fin 2) (din : List Word) {s : State} (hs : P s) {t' : State}
    (e : execTdmFrame n din s = .next t') : P t' := by
  unfold execTdmFrame at e
  injection e with e
  subst e
  repeat' first
    | with_reducible assumption
    | intro _
    | with_reducible apply tdmFrame_keeps h

theorem nodeWrite_keeps (h : Keeps P) {s : State} (o : Nat) (i : Nat) (v : Word) (hs : P s) : P (State.nodeWrite s o i v) := by
  unfold State.nodeWrite
  repeat' first
    | with_reducible assumption
    | intro _
    | (extract_lets +onlyGivenNames u; refine (fun (_ : P u) => ?_) ?_; (on_goal 1 => clear_value u); (on_goal 2 => subst u))
    | (extract_lets +onlyGivenNames u; clear_value u)
    | with_reducible apply set_keeps h
    | with_reducible apply setNode_keeps h
    | with_reducible apply ite_keeps

theorem execNodeWrite_keeps (h : Keeps P) (o : Fin 48) (i : Fin 64) (w : World) (v : Word) {s : State} (hs : P s) {t' : State}
    (e : execNodeWrite o i w v s = .next t') : P t' := by
  unfold execNodeWrite at e
  injection e with e
  subst e
  repeat' first
    | with_reducible assumption
    | intro _
    | with_reducible apply asWriter_keeps h
    | with_reducible apply nodeWrite_keeps h

theorem nodeTimeout_keeps (h : Keeps P) {s : State} (o : Nat) (i : Nat) (hs : P s) : P (State.nodeTimeout s o i) := by
  unfold State.nodeTimeout
  repeat' first
    | with_reducible assumption
    | intro _
    | with_reducible apply set_keeps h
    | with_reducible apply setNode_keeps h
    | with_reducible apply ite_keeps
    | simp only [↓mk_iff h]
    | split

theorem execNodeGainTimeout_keeps (h : Keeps P) (o : Fin 48) (i : Fin 64) {s : State} (hs : P s) {t' : State}
    (e : execNodeGainTimeout o i s = .next t') : P t' := by
  unfold execNodeGainTimeout at e
  injection e with e
  subst e
  repeat' first
    | with_reducible assumption
    | intro _
    | with_reducible apply nodeTimeout_keeps h

theorem execEqSwap_keeps (h : Keeps P) (o : Fin 48) (w : World) (v : Word) {s : State} (hs : P s) {t' : State}
    (e : execEqSwap o w v s = .next t') : P t' := by
  unfold execEqSwap at e
  injection e with e
  subst e
  repeat' first
    | with_reducible assumption
    | intro _
    | with_reducible apply asWriter_keeps h
    | with_reducible apply plainWrite_keeps h

theorem directWrite_keeps (h : Keeps P) {s : State} (r : Nat) (v : Word) (hs : P s) : P (State.directWrite s r v) := by
  unfold State.directWrite
  repeat' first
    | with_reducible assumption
    | intro _
    | (extract_lets +onlyGivenNames u; clear_value u)
    | with_reducible apply audRefuse_keeps h
    | with_reducible apply plainWrite_keeps h
    | with_reducible apply ite_keeps

theorem execDirectRouteEnable_keeps (h : Keeps P) (r : Fin 8) (w : World) (v : Word) {s : State} (hs : P s) {t' : State}
    (e : execDirectRouteEnable r w v s = .next t') : P t' := by
  unfold execDirectRouteEnable at e
  injection e with e
  subst e
  repeat' first
    | with_reducible assumption
    | intro _
    | with_reducible apply asWriter_keeps h
    | with_reducible apply directWrite_keeps h

theorem bellCtrlWrite_keeps (h : Keeps P) {s : State} (v : Nat) (x : Word) (hs : P s) : P (State.bellCtrlWrite s v x) := by
  unfold State.bellCtrlWrite
  repeat' first
    | with_reducible assumption
    | intro _
    | (extract_lets +onlyGivenNames u; refine (fun (_ : P u) => ?_) ?_; (on_goal 1 => clear_value u); (on_goal 2 => subst u))
    | (extract_lets +onlyGivenNames u; clear_value u)
    | with_reducible apply plainWrite_keeps h
    | with_reducible apply set_keeps h
    | with_reducible apply setVoice_keeps h
    | with_reducible apply ite_keeps

theorem execBellSound_keeps (h : Keeps P) (v : Fin 4) (w : World) (x : Word) {s : State} (hs : P s) {t' : State}
    (e : execBellSound v w x s = .next t') : P t' := by
  unfold execBellSound at e
  injection e with e
  subst e
  repeat' first
    | with_reducible assumption
    | intro _
    | with_reducible apply asWriter_keeps h
    | with_reducible apply bellCtrlWrite_keeps h

theorem execBellStop_keeps (h : Keeps P) (v : Fin 4) (w : World) (x : Word) {s : State} (hs : P s) {t' : State}
    (e : execBellStop v w x s = .next t') : P t' := by
  unfold execBellStop at e
  injection e with e
  subst e
  repeat' first
    | with_reducible assumption
    | intro _
    | with_reducible apply asWriter_keeps h
    | with_reducible apply bellCtrlWrite_keeps h

theorem execBellCadence_keeps (h : Keeps P) (v : Fin 4) {s : State} (hs : P s) {t' : State}
    (e : execBellCadence v s = .next t') : P t' := by
  unfold execBellCadence at e
  injection e with e
  subst e
  repeat' first
    | with_reducible assumption
    | intro _
    | with_reducible apply cadenceEnd_keeps h

/-! ### Bbox -/

theorem bboxEvent_keeps (h : Keeps P) {s : State} (flag : Fld) (irq : Bool) (hs : P s) : P (State.bboxEvent s flag irq) := by
  unfold State.bboxEvent
  repeat' first
    | with_reducible assumption
    | intro _
    | (extract_lets +onlyGivenNames u; refine (fun (_ : P u) => ?_) ?_; (on_goal 1 => clear_value u); (on_goal 2 => subst u))
    | (extract_lets +onlyGivenNames u; clear_value u)
    | with_reducible apply count_keeps h
    | with_reducible apply raiseIrq_keeps h
    | with_reducible apply set_keeps h
    | with_reducible apply ite_keeps

theorem bboxQueueRecord_keeps (h : Keeps P) {s : State} (kind : Nat) (origin : Nat) (payload : List Byte) (hs : P s) : P (State.bboxQueueRecord s kind origin payload) := by
  unfold State.bboxQueueRecord
  repeat' first
    | with_reducible assumption
    | intro _
    | (extract_lets +onlyGivenNames u; refine (fun (_ : P u) => ?_) ?_; (on_goal 1 => clear_value u); (on_goal 2 => subst u))
    | with_reducible apply bboxEnter_keeps h
    | with_reducible apply bboxEvent_keeps h
    | with_reducible apply set_keeps h
    | with_reducible apply ite_keeps

theorem bboxPut_keeps (h : Keeps P) {s : State} (kind : Nat) (payload : List Byte) (hs : P s) : P (State.bboxPut s kind payload) := by
  unfold State.bboxPut
  repeat' first
    | with_reducible assumption
    | intro _
    | (extract_lets +onlyGivenNames u; refine (fun (_ : P u) => ?_) ?_; (on_goal 1 => clear_value u); (on_goal 2 => subst u))
    | (extract_lets +onlyGivenNames u; clear_value u)
    | with_reducible apply bboxEvent_keeps h
    | with_reducible apply bboxQueueRecord_keeps h
    | with_reducible apply when_keeps
    | with_reducible apply ite_keeps

theorem bboxAppend_keeps (h : Keeps P) {s : State} (hs : P s) : P (State.bboxAppend s) := by
  unfold State.bboxAppend
  repeat' first
    | with_reducible assumption
    | intro _
    | with_reducible apply bboxPut_keeps h

theorem bboxCmdWrite_keeps (h : Keeps P) {s : State} (v : Word) (hs : P s) : P (State.bboxCmdWrite s v) := by
  unfold State.bboxCmdWrite
  repeat' first
    | with_reducible assumption
    | intro _
    | (extract_lets +onlyGivenNames u; refine (fun (_ : P u) => ?_) ?_; (on_goal 1 => clear_value u); (on_goal 2 => subst u))
    | with_reducible apply bboxAppend_keeps h
    | with_reducible apply bboxCommit_keeps h
    | with_reducible apply ite_keeps

theorem execBboxAppend_keeps (h : Keeps P) (w : World) (v : Word) {s : State} (hs : P s) {t' : State}
    (e : execBboxAppend w v s = .next t') : P t' := by
  unfold execBboxAppend at e
  injection e with e
  subst e
  repeat' first
    | with_reducible assumption
    | intro _
    | with_reducible apply asWriter_keeps h
    | with_reducible apply bboxCmdWrite_keeps h

theorem execBboxFlushNow_keeps (h : Keeps P) (w : World) (v : Word) {s : State} (hs : P s) {t' : State}
    (e : execBboxFlushNow w v s = .next t') : P t' := by
  unfold execBboxFlushNow at e
  injection e with e
  subst e
  repeat' first
    | with_reducible assumption
    | intro _
    | with_reducible apply asWriter_keeps h
    | with_reducible apply bboxCmdWrite_keeps h

theorem execBboxFlushTimer_keeps (h : Keeps P) {s : State} (hs : P s) {t' : State}
    (e : execBboxFlushTimer s = .next t') : P t' := by
  unfold execBboxFlushTimer at e
  injection e with e
  subst e
  repeat' first
    | with_reducible assumption
    | intro _
    | with_reducible apply bboxCommit_keeps h

theorem execBboxProgramDone_keeps (h : KeepsMem P) {s : State} (hs : P s) {t' : State}
    (e : execBboxProgramDone s = .next t') : P t' := by
  unfold execBboxProgramDone at e
  injection e with e
  subst e
  repeat' first
    | with_reducible assumption
    | intro _
    | with_reducible apply bboxAdvance_keeps h.toKeeps
    | with_reducible apply bboxOpened_keeps h
    | with_reducible apply bboxProgrammed_keeps h
    | with_reducible apply ite_keeps

theorem bboxErased_keeps (h : KeepsMem P) {s : State} (hs : P s) : P (State.bboxErased s) := by
  unfold State.bboxErased
  repeat' first
    | with_reducible assumption
    | intro _
    | (extract_lets +onlyGivenNames u; refine (fun (_ : P u) => ?_) ?_; (on_goal 1 => clear_value u); (on_goal 2 => subst u))
    | (extract_lets +onlyGivenNames u; clear_value u)
    | with_reducible apply bboxAdvance_keeps h.toKeeps
    | with_reducible apply bboxPoll_keeps h.toKeeps
    | with_reducible apply eraseFlash_keeps h
    | with_reducible apply set_keeps h.toKeeps
    | with_reducible apply ite_keeps
    | simp only [↓mk_iff h.toKeeps]

theorem execBboxEraseDone_keeps (h : KeepsMem P) {s : State} (hs : P s) {t' : State}
    (e : execBboxEraseDone s = .next t') : P t' := by
  unfold execBboxEraseDone at e
  injection e with e
  subst e
  repeat' first
    | with_reducible assumption
    | intro _
    | with_reducible apply bboxErased_keeps h

theorem execBboxLate_keeps (h : Keeps P) (us : Nat) {s : State} (hs : P s) {t' : State}
    (e : execBboxLate us s = .next t') : P t' := by
  unfold execBboxLate at e
  injection e with e
  subst e
  repeat' first
    | with_reducible assumption
    | intro _
    | with_reducible apply bboxEvent_keeps h
    | with_reducible apply logEvent_keeps h
    | with_reducible apply ite_keeps

/-! ### HapticOps -/

theorem setHc_keeps (h : Keeps P) {s : State} (n : Nat) (r : HapState) (hs : P s) : P (State.setHc s n r) := by
  unfold State.setHc
  repeat' first
    | with_reducible assumption
    | intro _
    | with_reducible apply ite_keeps
    | simp only [↓mk_iff h]

theorem hcEvent_keeps (h : Keeps P) {s : State} (n : Nat) (flag : Fld) (hs : P s) : P (State.hcEvent s n flag) := by
  unfold State.hcEvent
  repeat' first
    | with_reducible assumption
    | intro _
    | with_reducible apply event_keeps h

theorem hapSetUse_keeps (h : Keeps P) {s : State} (hs : P s) : P (State.hapSetUse s) := by
  unfold State.hapSetUse
  repeat' first
    | with_reducible assumption
    | intro _
    | with_reducible apply set_keeps h

theorem hapQuiet_keeps (h : Keeps P) {s : State} (n : Nat) (hs : P s) : P (State.hapQuiet s n) := by
  unfold State.hapQuiet
  repeat' first
    | with_reducible assumption
    | intro _
    | with_reducible apply setHc_keeps h

theorem hapEnd_keeps (h : Keeps P) {s : State} (n : Nat) (hs : P s) : P (State.hapEnd s n) := by
  unfold State.hapEnd
  repeat' first
    | with_reducible assumption
    | intro _
    | (extract_lets +onlyGivenNames u; refine (fun (_ : P u) => ?_) ?_; (on_goal 1 => clear_value u); (on_goal 2 => subst u))
    | (extract_lets +onlyGivenNames u; clear_value u)
    | with_reducible apply hcEvent_keeps h
    | with_reducible apply setHc_keeps h
    | with_reducible apply ite_keeps

theorem hapFree_keeps (h : Keeps P) {s : State} (n : Nat) (hs : P s) : P (State.hapFree s n) := by
  unfold State.hapFree
  repeat' first
    | with_reducible assumption
    | intro _
    | with_reducible apply hapSetUse_keeps h
    | with_reducible apply set_keeps h
    | with_reducible apply setHc_keeps h

theorem hapIdle_keeps (h : Keeps P) {s : State} (n : Nat) (hs : P s) : P (State.hapIdle s n) := by
  unfold State.hapIdle
  repeat' first
    | with_reducible assumption
    | intro _
    | with_reducible apply hapEnd_keeps h
    | with_reducible apply hapFree_keeps h

theorem hapDiscard_keeps (h : Keeps P) {s : State} (n : Nat) (k : Nat) (hs : P s) : P (State.hapDiscard s n k) := by
  unfold State.hapDiscard
  repeat' first
    | with_reducible assumption
    | intro _
    | with_reducible apply count_keeps h

theorem hapLose_keeps (h : Keeps P) {s : State} (n : Nat) (hs : P s) : P (State.hapLose s n) := by
  unfold State.hapLose
  repeat' first
    | with_reducible assumption
    | intro _
    | with_reducible apply count_keeps h
    | with_reducible apply hapDiscard_keeps h
    | with_reducible apply when_keeps

theorem hapDropHeld_keeps (h : Keeps P) {s : State} (n : Nat) (p : HapTrigger → Bool) (hs : P s) : P (State.hapDropHeld s n p) := by
  unfold State.hapDropHeld
  repeat' first
    | with_reducible assumption
    | intro _
    | (extract_lets +onlyGivenNames u; refine (fun (_ : P u) => ?_) ?_; (on_goal 1 => clear_value u); (on_goal 2 => subst u))
    | (extract_lets +onlyGivenNames u; clear_value u)
    | with_reducible apply hapDiscard_keeps h
    | with_reducible apply set_keeps h
    | with_reducible apply setHc_keeps h
    | with_reducible apply ite_keeps

theorem hapFault_keeps (h : Keeps P) {s : State} (n : Nat) (hs : P s) : P (State.hapFault s n) := by
  unfold State.hapFault
  repeat' first
    | with_reducible assumption
    | intro _
    | (extract_lets +onlyGivenNames u; refine (fun (_ : P u) => ?_) ?_; (on_goal 1 => clear_value u); (on_goal 2 => subst u))
    | (extract_lets +onlyGivenNames u; clear_value u)
    | with_reducible apply hapDropHeld_keeps h
    | with_reducible apply hapEnd_keeps h
    | with_reducible apply set_keeps h
    | with_reducible apply setHc_keeps h

theorem hapBrake_keeps (h : Keeps P) {s : State} (n : Nat) (past : Nat) (hs : P s) : P (State.hapBrake s n past) := by
  unfold State.hapBrake
  repeat' first
    | with_reducible assumption
    | intro _
    | (extract_lets +onlyGivenNames u; clear_value u)
    | with_reducible apply hapIdle_keeps h
    | with_reducible apply set_keeps h
    | with_reducible apply setHc_keeps h
    | with_reducible apply ite_keeps

theorem hapSetFreq_keeps (h : Keeps P) {s : State} (n : Nat) (f16 : Nat) (hs : P s) : P (State.hapSetFreq s n f16) := by
  unfold State.hapSetFreq
  repeat' first
    | with_reducible assumption
    | intro _
    | with_reducible apply set_keeps h
    | with_reducible apply setHc_keeps h

theorem hapNominal_keeps (h : Keeps P) {s : State} (n : Nat) (d : HapDesc) (hs : P s) : P (State.hapNominal s n d) := by
  unfold State.hapNominal
  repeat' first
    | with_reducible assumption
    | intro _
    | with_reducible apply hapSetFreq_keeps h
    | with_reducible apply set_keeps h

theorem hapBegin_keeps (h : Keeps P) {s : State} (n : Nat) (d : HapDesc) (cost : Nat) (hs : P s) : P (State.hapBegin s n d cost) := by
  unfold State.hapBegin
  repeat' first
    | with_reducible assumption
    | intro _
    | (extract_lets +onlyGivenNames u; refine (fun (_ : P u) => ?_) ?_; (on_goal 1 => clear_value u); (on_goal 2 => subst u))
    | (extract_lets +onlyGivenNames u; clear_value u)
    | with_reducible apply count_keeps h
    | with_reducible apply hapBrake_keeps h
    | with_reducible apply hapEnd_keeps h
    | with_reducible apply hapNominal_keeps h
    | with_reducible apply hapSetUse_keeps h
    | with_reducible apply set_keeps h
    | with_reducible apply setHc_keeps h
    | with_reducible apply ite_keeps

theorem hapBudgetDrop_keeps (h : Keeps P) {s : State} (n : Nat) (hs : P s) : P (State.hapBudgetDrop s n) := by
  unfold State.hapBudgetDrop
  repeat' first
    | with_reducible assumption
    | intro _
    | with_reducible apply count_keeps h
    | with_reducible apply hapDiscard_keeps h

theorem hapStart_keeps (h : Keeps P) {s : State} (n : Nat) (t : HapTrigger) (hs : P s) : P (State.hapStart s n t) := by
  unfold State.hapStart
  repeat' first
    | with_reducible assumption
    | intro _
    | (extract_lets +onlyGivenNames u; clear_value u)
    | with_reducible apply hapBegin_keeps h
    | with_reducible apply hapBudgetDrop_keeps h
    | with_reducible apply hcEvent_keeps h
    | with_reducible apply set_keeps h
    | with_reducible apply setHc_keeps h
    | with_reducible apply ite_keeps

theorem hapDropWaiting_keeps (h : Keeps P) {s : State} (n : Nat) (hs : P s) : P (State.hapDropWaiting s n) := by
  unfold State.hapDropWaiting
  repeat' first
    | with_reducible assumption
    | intro _
    | with_reducible apply hapDiscard_keeps h
    | with_reducible apply set_keeps h
    | with_reducible apply setHc_keeps h
    | with_reducible apply when_keeps

theorem hapRefused_keeps (h : Keeps P) {s t : State} (n : Nat) (hs : P s) (e : s.hapRefused n = some t) : P t := by
  unfold State.hapRefused at e
  split at e
  · cases e; exact count_keeps h _ _ (hapDiscard_keeps h _ _ hs)
  · split at e
    · cases e; exact hapDiscard_keeps h _ _ hs
    · cases e

theorem hapUrgent_keeps (h : Keeps P) {s : State} (n : Nat) (effect : Nat) (hs : P s) : P (State.hapUrgent s n effect) := by
  unfold State.hapUrgent
  split
  · exact hapRefused_keeps h n hs (by assumption)
  · dsimp only
    exact hapStart_keeps h _ _ (hapDropWaiting_keeps h _ hs)

theorem hapBell_keeps (h : Keeps P) {s : State} (n : Nat) (t : HapTrigger) (hs : P s) : P (State.hapBell s n t) := by
  unfold State.hapBell
  split
  · exact hapRefused_keeps h n hs (by assumption)
  · dsimp only
    refine ite_keeps ?_ (ite_keeps (setHc_keeps h _ _ (hapDiscard_keeps h _ _ hs)) ?_)
    · exact setHc_keeps h _ _ (when_keeps (fun t ht => hapDiscard_keeps h _ _ ht)
        (when_keeps (fun t ht => set_keeps h _ _ (hapDiscard_keeps h _ _ (setHc_keeps h _ _ ht))) hs _) _)
    · exact setHc_keeps h _ _ (when_keeps (fun t ht => hapDiscard_keeps h _ _ ht) hs _)

theorem hapMiss_keeps (h : Keeps P) {s : State} (n : Nat) (t : HapTrigger) (hs : P s) : P (State.hapMiss s n t).2 := by
  unfold State.hapMiss
  repeat' first
    | with_reducible assumption
    | intro _
    | with_reducible apply breach_keeps h

theorem hapSlotUrgent_keeps (h : Keeps P) {s : State} (n : Nat) (hs : P s) : P (State.hapSlotUrgent s n) := by
  unfold State.hapSlotUrgent
  repeat' first
    | with_reducible assumption
    | intro _
    | (extract_lets +onlyGivenNames u; clear_value u)
    | with_reducible apply hapDropWaiting_keeps h
    | with_reducible apply hapMiss_keeps h
    | with_reducible apply hapStart_keeps h
    | with_reducible apply setHc_keeps h
    | with_reducible apply ite_keeps
    | split

theorem hapSlotNormal_keeps (h : Keeps P) {s : State} (n : Nat) (hs : P s) : P (State.hapSlotNormal s n) := by
  unfold State.hapSlotNormal
  repeat' first
    | with_reducible assumption
    | intro _
    | (extract_lets +onlyGivenNames u; clear_value u)
    | with_reducible apply hapBegin_keeps h
    | with_reducible apply hapBudgetDrop_keeps h
    | with_reducible apply hapMiss_keeps h
    | with_reducible apply hapStart_keeps h
    | with_reducible apply set_keeps h
    | with_reducible apply setHc_keeps h
    | with_reducible apply ite_keeps
    | split

theorem hapSlot_keeps (h : Keeps P) {s : State} (hs : P s) : P (State.hapSlot s) := by
  unfold State.hapSlot
  repeat' first
    | with_reducible assumption
    | intro _
    | with_reducible apply each_keeps
    | with_reducible apply hapSlotNormal_keeps h
    | with_reducible apply hapSlotUrgent_keeps h
    | with_reducible apply inOrder_keeps h

theorem hapDrive_keeps (h : Keeps P) {s : State} (n : Nat) (duty : Nat) (hs : P s) : P (State.hapDrive s n duty) := by
  unfold State.hapDrive
  repeat' first
    | with_reducible assumption
    | intro _
    | (extract_lets +onlyGivenNames u; clear_value u)
    | with_reducible apply setHc_keeps h

theorem hapDrivePeriod_keeps (h : Keeps P) {s : State} (n : Nat) (hs : P s) : P (State.hapDrivePeriod s n) := by
  unfold State.hapDrivePeriod
  repeat' first
    | with_reducible assumption
    | intro _
    | (extract_lets +onlyGivenNames u; refine (fun (_ : P u) => ?_) ?_; (on_goal 1 => clear_value u); (on_goal 2 => subst u))
    | (extract_lets +onlyGivenNames u; clear_value u)
    | with_reducible apply hapBrake_keeps h
    | with_reducible apply hapDrive_keeps h
    | with_reducible apply hapNominal_keeps h
    | with_reducible apply hapQuiet_keeps h
    | with_reducible apply setHc_keeps h
    | with_reducible apply ite_keeps

theorem hapBrakePeriod_keeps (h : Keeps P) {s : State} (n : Nat) (hs : P s) : P (State.hapBrakePeriod s n) := by
  unfold State.hapBrakePeriod
  repeat' first
    | with_reducible assumption
    | intro _
    | (extract_lets +onlyGivenNames u; refine (fun (_ : P u) => ?_) ?_; (on_goal 1 => clear_value u); (on_goal 2 => subst u))
    | (extract_lets +onlyGivenNames u; clear_value u)
    | with_reducible apply hapDrive_keeps h
    | with_reducible apply hapIdle_keeps h
    | with_reducible apply hapQuiet_keeps h
    | with_reducible apply setHc_keeps h
    | with_reducible apply ite_keeps

theorem hapAlign_keeps (h : Keeps P) {s : State} (n : Nat) (late : Nat) (hs : P s) : P (State.hapAlign s n late) := by
  unfold State.hapAlign
  repeat' first
    | with_reducible assumption
    | intro _
    | (extract_lets +onlyGivenNames u; refine (fun (_ : P u) => ?_) ?_; (on_goal 1 => clear_value u); (on_goal 2 => subst u))
    | (extract_lets +onlyGivenNames u; clear_value u)
    | with_reducible apply hapBrake_keeps h
    | with_reducible apply setHc_keeps h
    | with_reducible apply ite_keeps

theorem hapMeasured_keeps (h : Keeps P) {s : State} (n : Nat) (g : Nat) (hs : P s) : P (State.hapMeasured s n g) := by
  unfold State.hapMeasured
  exact when_keeps (fun t ht => set_keeps h _ _ ht) (hapSetFreq_keeps h _ _ (setHc_keeps h _ _ hs)) _

theorem hapCrossing_keeps (h : Keeps P) {s : State} (n : Nat) (at_ : Nat) (late : Nat) (hs : P s) : P (State.hapCrossing s n at_ late) := by
  unfold State.hapCrossing
  repeat' first
    | with_reducible assumption
    | intro _
    | (extract_lets +onlyGivenNames u; refine (fun (_ : P u) => ?_) ?_; (on_goal 1 => clear_value u); (on_goal 2 => subst u))
    | (extract_lets +onlyGivenNames u; clear_value u)
    | with_reducible apply hapAlign_keeps h
    | with_reducible apply hapMeasured_keeps h
    | with_reducible apply setHc_keeps h
    | with_reducible apply ite_keeps
    | simp only [↓mk_iff h]
    | split

theorem hapSample_keeps (h : Keeps P) {s : State} (n : Nat) (v : Int) (hs : P s) : P (State.hapSample s n v) := by
  unfold State.hapSample
  repeat' first
    | with_reducible assumption
    | intro _
    | (extract_lets +onlyGivenNames u; refine (fun (_ : P u) => ?_) ?_; (on_goal 1 => clear_value u); (on_goal 2 => subst u))
    | (extract_lets +onlyGivenNames u; clear_value u)
    | with_reducible apply hapCrossing_keeps h
    | with_reducible apply setHc_keeps h
    | with_reducible apply ite_keeps
    | split

theorem hapDetach_keeps (h : Keeps P) {s : State} (session : Nat) (hs : P s) : P (State.hapDetach s session) := by
  unfold State.hapDetach
  repeat' first
    | with_reducible assumption
    | intro _
    | with_reducible apply each_keeps
    | with_reducible apply hapDropHeld_keeps h

theorem hvFall_keeps (h : Keeps P) {s : State} (hs : P s) : P (State.hvFall s) := by
  unfold State.hvFall
  repeat' first
    | with_reducible assumption
    | intro _
    | with_reducible apply set_keeps h

end

end Sys2Proof.Machine
end

