-- ==== Sys2Proof/Laws/KeepPixels.lean ====
section
/-! SUPPORT. What is kept: the faults, the drumbeat, layers, pipes, screens and scan-out. -/

namespace Sys2Proof.Machine

section
variable {P : State → Prop}

/-! ### VisOps -/

theorem setScr_keeps (h : Keeps P) {s : State} (n : Nat) (r : ScreenState) (hs : P s) : P (State.setScr s n r) := by
  unfold State.setScr
  repeat' first
    | with_reducible assumption
    | intro _
    | with_reducible apply ite_keeps
    | simp only [↓mk_iff h]

theorem setPort_keeps (h : Keeps P) {s : State} (n : Nat) (r : PortState) (hs : P s) : P (State.setPort s n r) := by
  unfold State.setPort
  repeat' first
    | with_reducible assumption
    | intro _
    | with_reducible apply ite_keeps
    | simp only [↓mk_iff h]

theorem setPipe_keeps (h : Keeps P) {s : State} (n : Nat) (r : PipeState) (hs : P s) : P (State.setPipe s n r) := by
  unfold State.setPipe
  repeat' first
    | with_reducible assumption
    | intro _
    | with_reducible apply ite_keeps
    | simp only [↓mk_iff h]

theorem setLay_keeps (h : Keeps P) {s : State} (n : Nat) (r : LayerState) (hs : P s) : P (State.setLay s n r) := by
  unfold State.setLay
  repeat' first
    | with_reducible assumption
    | intro _
    | with_reducible apply ite_keeps
    | simp only [↓mk_iff h]

theorem setProt_keeps (h : Keeps P) {s : State} (n : Nat) (r : ProtState) (hs : P s) : P (State.setProt s n r) := by
  unfold State.setProt
  repeat' first
    | with_reducible assumption
    | intro _
    | with_reducible apply ite_keeps
    | simp only [↓mk_iff h]

theorem setVin_keeps (h : Keeps P) {s : State} (n : Nat) (r : VinState) (hs : P s) : P (State.setVin s n r) := by
  unfold State.setVin
  repeat' first
    | with_reducible assumption
    | intro _
    | with_reducible apply ite_keeps
    | simp only [↓mk_iff h]

theorem scrEvent_keeps (h : Keeps P) {s : State} (n : Nat) (flag : Fld) (hs : P s) : P (State.scrEvent s n flag) := by
  unfold State.scrEvent
  repeat' first
    | with_reducible assumption
    | intro _
    | with_reducible apply event_keeps h

theorem scrRefuse_keeps (h : Keeps P) {s : State} (n : Nat) (code : Nat) (hs : P s) : P (State.scrRefuse s n code) := by
  unfold State.scrRefuse
  repeat' first
    | with_reducible assumption
    | intro _
    | with_reducible apply scrEvent_keeps h
    | with_reducible apply set_keeps h

theorem linkEvent_keeps (h : Keeps P) {s : State} (n : Nat) (flag : Fld) (hs : P s) : P (State.linkEvent s n flag) := by
  unfold State.linkEvent
  repeat' first
    | with_reducible assumption
    | intro _
    | with_reducible apply event_keeps h

theorem setTraining_keeps (h : Keeps P) {s : State} (p : Nat) (b : Bool) (hs : P s) : P (State.setTraining s p b) := by
  unfold State.setTraining
  repeat' first
    | with_reducible assumption
    | intro _
    | with_reducible apply set_keeps h

theorem linkUp_keeps (h : Keeps P) {s : State} (p : Nat) (rate : Nat) (lanes : Nat) (hs : P s) : P (State.linkUp s p rate lanes) := by
  unfold State.linkUp
  repeat' first
    | with_reducible assumption
    | intro _
    | (extract_lets +onlyGivenNames u; refine (fun (_ : P u) => ?_) ?_; (on_goal 1 => clear_value u); (on_goal 2 => subst u))
    | (extract_lets +onlyGivenNames u; clear_value u)
    | with_reducible apply liveFell_keeps h
    | with_reducible apply set_keeps h
    | with_reducible apply setPort_keeps h
    | with_reducible apply setTraining_keeps h
    | with_reducible apply ite_keeps

theorem linkStop_keeps (h : Keeps P) {s : State} (p : Nat) (hs : P s) : P (State.linkStop s p) := by
  unfold State.linkStop
  repeat' first
    | with_reducible assumption
    | intro _
    | with_reducible apply set_keeps h
    | with_reducible apply setPort_keeps h

theorem linkDown_keeps (h : Keeps P) {s : State} (p : Nat) (hs : P s) : P (State.linkDown s p) := by
  unfold State.linkDown
  repeat' first
    | with_reducible assumption
    | intro _
    | with_reducible apply linkStop_keeps h
    | with_reducible apply setTraining_keeps h

theorem trainAt_keeps (h : Keeps P) {s : State} (p : Nat) (why : TrainWhy) (rate : Nat) (lanes : Nat) (hs : P s) : P (State.trainAt s p why rate lanes) := by
  unfold State.trainAt
  repeat' first
    | with_reducible assumption
    | intro _
    | (extract_lets +onlyGivenNames u; refine (fun (_ : P u) => ?_) ?_; (on_goal 1 => clear_value u); (on_goal 2 => subst u))
    | (extract_lets +onlyGivenNames u; clear_value u)
    | with_reducible apply linkStop_keeps h
    | with_reducible apply setPort_keeps h
    | with_reducible apply setTraining_keeps h

theorem clearDegraded_keeps (h : Keeps P) {s : State} (p : Nat) (hs : P s) : P (State.clearDegraded s p) := by
  unfold State.clearDegraded
  repeat' first
    | with_reducible assumption
    | intro _
    | with_reducible apply liveFell_keeps h
    | with_reducible apply set_keeps h
    | with_reducible apply ite_keeps

theorem qosUpdate_keeps (h : Keeps P) {s : State} (hs : P s) : P (State.qosUpdate s) := by
  unfold State.qosUpdate
  repeat' first
    | with_reducible assumption
    | intro _
    | (extract_lets +onlyGivenNames u; refine (fun (_ : P u) => ?_) ?_; (on_goal 1 => clear_value u); (on_goal 2 => subst u))
    | (extract_lets +onlyGivenNames u; clear_value u)
    | with_reducible apply each_keeps
    | with_reducible apply set_keeps h

theorem blLow_keeps (h : Keeps P) {s : State} (p : Nat) (hs : P s) : P (State.blLow s p) := by
  unfold State.blLow
  repeat' first
    | with_reducible assumption
    | intro _
    | with_reducible apply set_keeps h

theorem harbourIrq_keeps (h : Keeps P) {s : State} (n : Nat) (hs : P s) : P (State.harbourIrq s n) := by
  unfold State.harbourIrq
  repeat' first
    | with_reducible assumption
    | intro _
    | with_reducible apply raiseIrq_keeps h
    | with_reducible apply ite_keeps

theorem containScreen_keeps (h : Keeps P) {s : State} (n : Nat) (hs : P s) : P (State.containScreen s n) := by
  unfold State.containScreen
  repeat' first
    | with_reducible assumption
    | intro _
    | (extract_lets +onlyGivenNames u; refine (fun (_ : P u) => ?_) ?_; (on_goal 1 => clear_value u); (on_goal 2 => subst u))
    | (extract_lets +onlyGivenNames u; clear_value u)
    | with_reducible apply blLow_keeps h
    | with_reducible apply harbourIrq_keeps h
    | with_reducible apply raiseIrq_keeps h
    | with_reducible apply setScr_keeps h
    | with_reducible apply ite_keeps

theorem addCause_keeps (h : Keeps P) {s : State} (n : Nat) (c : RectCause) (hs : P s) : P (State.addCause s n c) := by
  unfold State.addCause
  repeat' first
    | with_reducible assumption
    | intro _
    | (extract_lets +onlyGivenNames u; clear_value u)
    | with_reducible apply raiseIrq_keeps h
    | with_reducible apply setScr_keeps h
    | with_reducible apply ite_keeps

theorem dropCauses_keeps (h : Keeps P) {s : State} (n : Nat) (p : RectCause → Bool) (hs : P s) : P (State.dropCauses s n p) := by
  unfold State.dropCauses
  repeat' first
    | with_reducible assumption
    | intro _
    | with_reducible apply setScr_keeps h

theorem protEvent_keeps (h : Keeps P) {s : State} (n : Nat) (flag : Fld) (hs : P s) : P (State.protEvent s n flag) := by
  unfold State.protEvent
  repeat' first
    | with_reducible assumption
    | intro _
    | with_reducible apply count_keeps h
    | with_reducible apply set_keeps h

theorem cmpEvent_keeps (h : Keeps P) {s : State} (p : Nat) (flag : Fld) (hs : P s) : P (State.cmpEvent s p flag) := by
  unfold State.cmpEvent
  repeat' first
    | with_reducible assumption
    | intro _
    | with_reducible apply event_keeps h

/-! ### TouchOps -/

theorem setTch_keeps (h : Keeps P) {s : State} (n : Nat) (r : TouchState) (hs : P s) : P (State.setTch s n r) := by
  unfold State.setTch
  repeat' first
    | with_reducible assumption
    | intro _
    | with_reducible apply ite_keeps
    | simp only [↓mk_iff h]

theorem contactRecord_keeps (h : KeepsMem P) {s : State} (n : Nat) (type : Nat) (flags : Nat) (c : Contact) (hs : P s) : P (State.contactRecord s n type flags c) := by
  unfold State.contactRecord
  repeat' first
    | with_reducible assumption
    | intro _
    | (extract_lets +onlyGivenNames u; refine (fun (_ : P u) => ?_) ?_; (on_goal 1 => clear_value u); (on_goal 2 => subst u))
    | (extract_lets +onlyGivenNames u; refine (fun (_ : P u.2) => ?_) ?_; (on_goal 1 => clear_value u); (on_goal 2 => subst u))
    | (extract_lets +onlyGivenNames u; clear_value u)
    | with_reducible apply setTch_keeps h.toKeeps
    | with_reducible apply tqWrite_keeps h
    | with_reducible apply ite_keeps
    | simp only [↓mk_iff h.toKeeps]
    | split

theorem releaseContacts_keeps (h : KeepsMem P) {s : State} (n : Nat) (flags : Nat) (hs : P s) : P (State.releaseContacts s n flags) := by
  unfold State.releaseContacts
  repeat' first
    | with_reducible assumption
    | intro _
    | (extract_lets +onlyGivenNames u; refine (fun (_ : P u) => ?_) ?_; (on_goal 1 => clear_value u); (on_goal 2 => subst u))
    | (extract_lets +onlyGivenNames u; clear_value u)
    | with_reducible apply contactRecord_keeps h
    | with_reducible apply each_keeps
    | with_reducible apply setTch_keeps h.toKeeps

theorem scanDiscard_keeps (h : Keeps P) {s : State} (n : Nat) (seqTime : Bool) (hs : P s) : P (State.scanDiscard s n seqTime) := by
  unfold State.scanDiscard
  repeat' first
    | with_reducible assumption
    | intro _
    | (extract_lets +onlyGivenNames u; refine (fun (_ : P u) => ?_) ?_; (on_goal 1 => clear_value u); (on_goal 2 => subst u))
    | (extract_lets +onlyGivenNames u; clear_value u)
    | with_reducible apply count_keeps h
    | with_reducible apply setTch_keeps h
    | with_reducible apply when_keeps
    | with_reducible apply ite_keeps

theorem quietStopped_keeps (h : Keeps P) {s : State} (n : Nat) (hs : P s) : P (State.quietStopped s n) := by
  unfold State.quietStopped
  repeat' first
    | with_reducible assumption
    | intro _
    | with_reducible apply each_keeps
    | with_reducible apply scanDiscard_keeps h
    | with_reducible apply ite_keeps

theorem touchAbandon_keeps (h : Keeps P) {s : State} (n : Nat) (hs : P s) : P (State.touchAbandon s n) := by
  unfold State.touchAbandon
  repeat' first
    | with_reducible assumption
    | intro _
    | (extract_lets +onlyGivenNames u; refine (fun (_ : P u) => ?_) ?_; (on_goal 1 => clear_value u); (on_goal 2 => subst u))
    | (extract_lets +onlyGivenNames u; clear_value u)
    | with_reducible apply set_keeps h
    | with_reducible apply setTch_keeps h

/-! ### Faults -/

theorem touchHalt_keeps (h : KeepsMem P) {s : State} (n : Nat) (hs : P s) : P (State.touchHalt s n) := by
  unfold State.touchHalt
  repeat' first
    | with_reducible assumption
    | intro _
    | (extract_lets +onlyGivenNames u; refine (fun (_ : P u) => ?_) ?_; (on_goal 1 => clear_value u); (on_goal 2 => subst u))
    | (extract_lets +onlyGivenNames u; clear_value u)
    | with_reducible apply releaseContacts_keeps h
    | with_reducible apply set_keeps h.toKeeps
    | with_reducible apply setTch_keeps h.toKeeps
    | with_reducible apply touchAbandon_keeps h.toKeeps

theorem contain_keeps (h : KeepsMem P) {s : State} (hs : P s) (x : Scope) : P (s.contain x) := by
  cases x with
  | screen n => exact containScreen_keeps h.toKeeps n hs
  | haptic n => exact ite_keeps hs (hapFault_keeps h.toKeeps n hs)
  | touch n => exact touchHalt_keeps h n hs
  | audio => exact h.other hs rfl rfl rfl rfl rfl

theorem c3Screen_keeps (h : Keeps P) {s : State} (n : Nat) (hs : P s) : P (State.c3Screen s n) := by
  unfold State.c3Screen
  repeat' first
    | with_reducible assumption
    | intro _
    | with_reducible apply harbourIrq_keeps h
    | with_reducible apply setScr_keeps h
    | with_reducible apply ite_keeps

theorem c3React_keeps (h : Keeps P) {s : State} (hs : P s) : P (State.c3React s) := by
  unfold State.c3React
  repeat' first
    | with_reducible assumption
    | intro _
    | (extract_lets +onlyGivenNames u; refine (fun (_ : P u) => ?_) ?_; (on_goal 1 => clear_value u); (on_goal 2 => subst u))
    | with_reducible apply blLow_keeps h
    | with_reducible apply c3Screen_keeps h
    | with_reducible apply each_keeps
    | with_reducible apply hapFault_keeps h
    | with_reducible apply hvFall_keeps h
    | with_reducible apply set_keeps h
    | with_reducible apply stopToll_keeps h
    | with_reducible apply ite_keeps
    | simp only [↓mk_iff h]

theorem raiseFault_keeps (h : KeepsMem P) {s : State} (k : Nat) (c : Option Capture) (hs : P s) : P (State.raiseFault s k c) := by
  unfold State.raiseFault
  repeat' first
    | with_reducible assumption
    | intro _
    | (extract_lets +onlyGivenNames u; refine (fun (_ : P u) => ?_) ?_; (on_goal 1 => clear_value u); (on_goal 2 => subst u))
    | (extract_lets +onlyGivenNames u; clear_value u)
    | with_reducible apply c3React_keeps h.toKeeps
    | with_reducible apply contain_keeps h
    | with_reducible apply each_keeps
    | with_reducible apply faultRecord_keeps h.toKeeps
    | with_reducible apply inOrder_keeps h.toKeeps
    | with_reducible apply ite_keeps

/-! ### Drum -/

theorem drumEvent_keeps (h : Keeps P) {s : State} (flag : Fld) (hs : P s) : P (State.drumEvent s flag) := by
  unfold State.drumEvent
  repeat' first
    | with_reducible assumption
    | intro _
    | with_reducible apply event_keeps h

theorem drumGridRestart_keeps (h : Keeps P) {s : State} (hs : P s) : P (State.drumGridRestart s) := by
  unfold State.drumGridRestart
  repeat' first
    | with_reducible assumption
    | intro _
    | with_reducible apply ite_keeps
    | simp only [↓mk_iff h]

theorem drumCtrlWrite_keeps (h : Keeps P) {s : State} (v : Word) (hs : P s) : P (State.drumCtrlWrite s v) := by
  unfold State.drumCtrlWrite
  repeat' first
    | with_reducible assumption
    | intro _
    | (extract_lets +onlyGivenNames u; refine (fun (_ : P u) => ?_) ?_; (on_goal 1 => clear_value u); (on_goal 2 => subst u))
    | (extract_lets +onlyGivenNames u; clear_value u)
    | with_reducible apply drumEvent_keeps h
    | with_reducible apply drumGridRestart_keeps h
    | with_reducible apply liveFell_keeps h
    | with_reducible apply set_keeps h
    | with_reducible apply setReg_keeps h
    | with_reducible apply when_keeps
    | with_reducible apply ite_keeps
    | simp only [↓mk_iff h]

theorem drumDivIntWrite_keeps (h : Keeps P) {s : State} (v : Word) (hs : P s) : P (State.drumDivIntWrite s v) := by
  unfold State.drumDivIntWrite
  repeat' first
    | with_reducible assumption
    | intro _
    | with_reducible apply drumEvent_keeps h
    | with_reducible apply set_keeps h
    | with_reducible apply ite_keeps

theorem drumDivFracWrite_keeps (h : Keeps P) {s : State} (v : Word) (hs : P s) : P (State.drumDivFracWrite s v) := by
  unfold State.drumDivFracWrite
  repeat' first
    | with_reducible assumption
    | intro _
    | (extract_lets +onlyGivenNames u; clear_value u)
    | with_reducible apply drumEvent_keeps h
    | with_reducible apply drumGridRestart_keeps h
    | with_reducible apply set_keeps h
    | with_reducible apply setReg_keeps h
    | with_reducible apply ite_keeps
    | simp only [↓mk_iff h]

theorem drumLost_keeps (h : KeepsMem P) {s : State} (hs : P s) : P (State.drumLost s) := by
  unfold State.drumLost
  repeat' first
    | with_reducible assumption
    | intro _
    | (extract_lets +onlyGivenNames u; refine (fun (_ : P u) => ?_) ?_; (on_goal 1 => clear_value u); (on_goal 2 => subst u))
    | with_reducible apply drumEvent_keeps h.toKeeps
    | with_reducible apply drumGridRestart_keeps h.toKeeps
    | with_reducible apply raiseFault_keeps h
    | with_reducible apply set_keeps h.toKeeps

theorem execDrumCtrlWrite_keeps (h : Keeps P) (w : World) (v : Word) {s : State} (hs : P s) {t' : State}
    (e : execDrumCtrlWrite w v s = .next t') : P t' := by
  unfold execDrumCtrlWrite at e
  injection e with e
  subst e
  repeat' first
    | with_reducible assumption
    | intro _
    | with_reducible apply asWriter_keeps h
    | with_reducible apply drumCtrlWrite_keeps h

theorem execDrumDivIntWrite_keeps (h : Keeps P) (w : World) (v : Word) {s : State} (hs : P s) {t' : State}
    (e : execDrumDivIntWrite w v s = .next t') : P t' := by
  unfold execDrumDivIntWrite at e
  injection e with e
  subst e
  repeat' first
    | with_reducible assumption
    | intro _
    | with_reducible apply asWriter_keeps h
    | with_reducible apply drumDivIntWrite_keeps h

theorem execDrumDivFracWrite_keeps (h : Keeps P) (w : World) (v : Word) {s : State} (hs : P s) {t' : State}
    (e : execDrumDivFracWrite w v s = .next t') : P t' := by
  unfold execDrumDivFracWrite at e
  injection e with e
  subst e
  repeat' first
    | with_reducible assumption
    | intro _
    | with_reducible apply asWriter_keeps h
    | with_reducible apply drumDivFracWrite_keeps h

theorem drumInEdge_keeps (h : Keeps P) {s : State} (sinceBeatNs : Nat) (hs : P s) : P (State.drumInEdge s sinceBeatNs) := by
  unfold State.drumInEdge
  repeat' first
    | with_reducible assumption
    | intro _
    | with_reducible apply ite_keeps
    | simp only [↓mk_iff h]

theorem execDrumInEdge_keeps (h : Keeps P) (sinceBeatNs : Nat) {s : State} (hs : P s) {t' : State}
    (e : execDrumInEdge sinceBeatNs s = .next t') : P t' := by
  unfold execDrumInEdge at e
  injection e with e
  subst e
  repeat' first
    | with_reducible assumption
    | intro _
    | with_reducible apply drumInEdge_keeps h

theorem breachClr_keeps (h : Keeps P) {s : State} (v : Word) (hs : P s) : P (State.breachClr s v) := by
  unfold State.breachClr
  repeat' first
    | with_reducible assumption
    | intro _
    | with_reducible apply each_keeps
    | with_reducible apply set_keeps h
    | with_reducible apply when_keeps

theorem execBreachClr_keeps (h : Keeps P) (w : World) (v : Word) {s : State} (hs : P s) {t' : State}
    (e : execBreachClr w v s = .next t') : P t' := by
  unfold execBreachClr at e
  injection e with e
  subst e
  repeat' first
    | with_reducible assumption
    | intro _
    | with_reducible apply asWriter_keeps h
    | with_reducible apply breachClr_keeps h

/-! ### LayerOps -/

theorem throughDoor_keeps (h : Keeps P) {s : State} (d : LayerDoor) (f : Nat → State → State) (hs : P s) (h_f : ∀ x0 t, P t → P (f x0 t)) : P (State.throughDoor s d f) := by
  unfold State.throughDoor
  repeat' first
    | with_reducible assumption
    | intro _
    | with_reducible apply asWriter_keeps h
    | with_reducible apply pageEvent_keeps h
    | with_reducible apply ite_keeps
    | simp only [↓mk_iff h]
    | apply h_f
    | split

theorem layEvent_keeps (h : Keeps P) {s : State} (l : Nat) (flag : Fld) (hs : P s) : P (State.layEvent s l flag) := by
  unfold State.layEvent
  repeat' first
    | with_reducible assumption
    | intro _
    | with_reducible apply count_keeps h
    | with_reducible apply set_keeps h

theorem claimScalers_keeps (h : Keeps P) {s : State} (l : Nat) (hs : P s) : P (State.claimScalers s l) := by
  unfold State.claimScalers
  repeat' first
    | with_reducible assumption
    | intro _
    | with_reducible apply each_keeps
    | with_reducible apply set_keeps h

theorem releaseScalers_keeps (h : Keeps P) {s : State} (l : Nat) (hs : P s) : P (State.releaseScalers s l) := by
  unfold State.releaseScalers
  repeat' first
    | with_reducible assumption
    | intro _
    | (extract_lets +onlyGivenNames u; refine (fun (_ : P u) => ?_) ?_; (on_goal 1 => clear_value u); (on_goal 2 => subst u))
    | (extract_lets +onlyGivenNames u; clear_value u)
    | with_reducible apply each_keeps
    | with_reducible apply set_keeps h
    | with_reducible apply when_keeps
    | with_reducible apply ite_keeps

theorem layState_keeps (h : Keeps P) {s : State} (l : Nat) (st : Nat) (reason : Nat) (hs : P s) : P (State.layState s l st reason) := by
  unfold State.layState
  repeat' first
    | with_reducible assumption
    | intro _
    | with_reducible apply set_keeps h

theorem layCommitIrq_keeps (h : Keeps P) {s : State} (l : Nat) (hs : P s) : P (State.layCommitIrq s l) := by
  unfold State.layCommitIrq
  repeat' first
    | with_reducible assumption
    | intro _
    | with_reducible apply sessIrq_keeps h
    | with_reducible apply ite_keeps
    | simp only [↓mk_iff h]
    | split

theorem layReject_keeps (h : Keeps P) {s : State} (l : Nat) (reason : Nat) (hs : P s) : P (State.layReject s l reason) := by
  unfold State.layReject
  repeat' first
    | with_reducible assumption
    | intro _
    | (extract_lets +onlyGivenNames u; refine (fun (_ : P u) => ?_) ?_; (on_goal 1 => clear_value u); (on_goal 2 => subst u))
    | (extract_lets +onlyGivenNames u; clear_value u)
    | with_reducible apply layCommitIrq_keeps h
    | with_reducible apply layState_keeps h
    | with_reducible apply releaseScalers_keeps h
    | with_reducible apply setLay_keeps h

theorem earlyEnd_keeps (h : Keeps P) {s : State} (n : Nat) (sched : Option Nat) (hs : P s) : P (State.earlyEnd s n sched) := by
  unfold State.earlyEnd
  repeat' first
    | with_reducible assumption
    | intro _
    | (extract_lets +onlyGivenNames u; clear_value u)
    | with_reducible apply setScr_keeps h
    | with_reducible apply ite_keeps

theorem layGo_keeps (h : Keeps P) {s : State} (l : Nat) (v : Word) (hs : P s) : P (State.layGo s l v) := by
  unfold State.layGo
  repeat' first
    | with_reducible assumption
    | intro _
    | (extract_lets +onlyGivenNames u; refine (fun (_ : P u) => ?_) ?_; (on_goal 1 => clear_value u); (on_goal 2 => subst u))
    | (extract_lets +onlyGivenNames u; clear_value u)
    | with_reducible apply claimScalers_keeps h
    | with_reducible apply each_keeps
    | with_reducible apply earlyEnd_keeps h
    | with_reducible apply layCommitIrq_keeps h
    | with_reducible apply layState_keeps h
    | with_reducible apply set_keeps h
    | with_reducible apply setLay_keeps h
    | with_reducible apply ite_keeps
    | simp only [↓mk_iff h]
    | split

theorem layCommit_keeps (h : Keeps P) {s : State} (l : Nat) (v : Word) (hs : P s) : P (State.layCommit s l v) := by
  unfold State.layCommit
  repeat' first
    | with_reducible assumption
    | intro _
    | with_reducible apply layEvent_keeps h
    | with_reducible apply layGo_keeps h
    | with_reducible apply layReject_keeps h
    | with_reducible apply ite_keeps

theorem loadCoef_keeps (h : Keeps P) {s : State} (k : Nat) (bs : List Byte) (hs : P s) : P (State.loadCoef s k bs) := by
  unfold State.loadCoef
  repeat' first
    | with_reducible assumption
    | intro _
    | (extract_lets +onlyGivenNames u; refine (fun (_ : P u) => ?_) ?_; (on_goal 1 => clear_value u); (on_goal 2 => subst u))
    | (extract_lets +onlyGivenNames u; clear_value u)
    | with_reducible apply count_keeps h
    | with_reducible apply each_keeps
    | with_reducible apply set_keeps h
    | with_reducible apply setReg_keeps h

theorem readTable_keeps (h : Keeps P) {s : State} (w : World) (port : Nat) (a : Option Nat) (len : Nat) (hs : P s) : P (State.readTable s w port a len).2 := by
  unfold State.readTable
  repeat' first
    | with_reducible assumption
    | intro _
    | with_reducible apply dmaRead_keeps h
    | with_reducible apply ite_keeps
    | simp only [↓mk_iff h]
    | split

theorem layTables_keeps (h : Keeps P) {s : State} (l : Nat) (hs : P s) : P (State.layTables s l) := by
  unfold State.layTables
  repeat' first
    | with_reducible assumption
    | intro _
    | (extract_lets +onlyGivenNames u; clear_value u)
    | with_reducible apply each_keeps
    | with_reducible apply layReject_keeps h
    | with_reducible apply loadCoef_keeps h
    | with_reducible apply readTable_keeps h
    | with_reducible apply setLay_keeps h
    | with_reducible apply ite_keeps
    | simp only [↓mk_iff h]
    | split

theorem copyShadows_keeps (h : Keeps P) {s : State} (l : Nat) (hs : P s) : P (State.copyShadows s l) := by
  unfold State.copyShadows
  repeat' first
    | with_reducible assumption
    | intro _
    | with_reducible apply each_keeps
    | with_reducible apply setReg_keeps h

theorem layApply_keeps (h : Keeps P) {s : State} (l : Nat) (f : Nat) (hs : P s) : P (State.layApply s l f) := by
  unfold State.layApply
  repeat' first
    | with_reducible assumption
    | intro _
    | (extract_lets +onlyGivenNames u; refine (fun (_ : P u) => ?_) ?_; (on_goal 1 => clear_value u); (on_goal 2 => subst u))
    | (extract_lets +onlyGivenNames u; clear_value u)
    | with_reducible apply copyShadows_keeps h
    | with_reducible apply each_keeps
    | with_reducible apply layCommitIrq_keeps h
    | with_reducible apply layState_keeps h
    | with_reducible apply releaseScalers_keeps h
    | with_reducible apply set_keeps h
    | with_reducible apply setLay_keeps h
    | with_reducible apply ite_keeps

theorem layTakeVin_keeps (h : Keeps P) {s : State} (l : Nat) (hs : P s) : P (State.layTakeVin s l).1 := by
  unfold State.layTakeVin
  repeat' first
    | with_reducible assumption
    | intro _
    | (extract_lets +onlyGivenNames u; clear_value u)
    | with_reducible apply set_keeps h
    | with_reducible apply setLay_keeps h
    | with_reducible apply ite_keeps
    | simp only [↓mk_iff h]
    | split

theorem layRecheck_keeps (h : Keeps P) {s : State} (l : Nat) (hs : P s) : P (State.layRecheck s l) := by
  unfold State.layRecheck
  repeat' first
    | with_reducible assumption
    | intro _
    | (extract_lets +onlyGivenNames u; refine (fun (_ : P u) => ?_) ?_; (on_goal 1 => clear_value u); (on_goal 2 => subst u))
    | (extract_lets +onlyGivenNames u; clear_value u)
    | with_reducible apply layEvent_keeps h
    | with_reducible apply layReject_keeps h
    | with_reducible apply set_keeps h
    | with_reducible apply ite_keeps

theorem layHeld_keeps (h : Keeps P) {s : State} (l : Nat) (held : Bool) (hs : P s) : P (State.layHeld s l held) := by
  unfold State.layHeld
  repeat' first
    | with_reducible assumption
    | intro _
    | (extract_lets +onlyGivenNames u; refine (fun (_ : P u) => ?_) ?_; (on_goal 1 => clear_value u); (on_goal 2 => subst u))
    | (extract_lets +onlyGivenNames u; clear_value u)
    | with_reducible apply set_keeps h
    | with_reducible apply setLay_keeps h

theorem layLatch_keeps (h : Keeps P) {s : State} (l : Nat) (f : Nat) (start : Bool) (hs : P s) : P (State.layLatch s l f start).1 := by
  unfold State.layLatch
  repeat' first
    | with_reducible assumption
    | intro _
    | (extract_lets +onlyGivenNames u; refine (fun (_ : P u) => ?_) ?_; (on_goal 1 => clear_value u); (on_goal 2 => subst u))
    | (extract_lets +onlyGivenNames u; clear_value u)
    | with_reducible apply layApply_keeps h
    | with_reducible apply layHeld_keeps h
    | with_reducible apply layRecheck_keeps h
    | with_reducible apply layTakeVin_keeps h
    | with_reducible apply set_keeps h
    | with_reducible apply ite_keeps

theorem protState_keeps (h : Keeps P) {s : State} (n : Nat) (st : Nat) (reason : Nat) (hs : P s) : P (State.protState s n st reason) := by
  unfold State.protState
  repeat' first
    | with_reducible assumption
    | intro _
    | with_reducible apply raiseIrq_keeps h
    | with_reducible apply set_keeps h

theorem protReject_keeps (h : Keeps P) {s : State} (n : Nat) (reason : Nat) (hs : P s) : P (State.protReject s n reason) := by
  unfold State.protReject
  repeat' first
    | with_reducible assumption
    | intro _
    | with_reducible apply protState_keeps h
    | with_reducible apply setProt_keeps h

theorem protGo_keeps (h : Keeps P) {s : State} (n : Nat) (v : Word) (hs : P s) : P (State.protGo s n v) := by
  unfold State.protGo
  repeat' first
    | with_reducible assumption
    | intro _
    | (extract_lets +onlyGivenNames u; refine (fun (_ : P u) => ?_) ?_; (on_goal 1 => clear_value u); (on_goal 2 => subst u))
    | (extract_lets +onlyGivenNames u; clear_value u)
    | with_reducible apply earlyEnd_keeps h
    | with_reducible apply protState_keeps h
    | with_reducible apply set_keeps h
    | with_reducible apply setProt_keeps h
    | with_reducible apply ite_keeps
    | simp only [↓mk_iff h]
    | split

theorem protCommit_keeps (h : Keeps P) {s : State} (n : Nat) (v : Word) (hs : P s) : P (State.protCommit s n v) := by
  unfold State.protCommit
  repeat' first
    | with_reducible assumption
    | intro _
    | with_reducible apply protEvent_keeps h
    | with_reducible apply protGo_keeps h
    | with_reducible apply protReject_keeps h
    | with_reducible apply ite_keeps

theorem sxtCheckFail_keeps (h : Keeps P) {s : State} (hs : P s) : P (State.sxtCheckFail s) := by
  unfold State.sxtCheckFail
  repeat' first
    | with_reducible assumption
    | intro _
    | with_reducible apply count_keeps h
    | with_reducible apply ite_keeps
    | simp only [↓mk_iff h]
    | split

theorem protTables_keeps (h : Keeps P) {s : State} (n : Nat) (hs : P s) : P (State.protTables s n) := by
  unfold State.protTables
  repeat' first
    | with_reducible assumption
    | intro _
    | with_reducible apply dmaRead_keeps h
    | with_reducible apply protEvent_keeps h
    | with_reducible apply protReject_keeps h
    | with_reducible apply setProt_keeps h
    | with_reducible apply sxtCheckFail_keeps h
    | with_reducible apply ite_keeps
    | simp only [↓mk_iff h]
    | split

theorem protApply_keeps (h : Keeps P) {s : State} (n : Nat) (f : Nat) (hs : P s) : P (State.protApply s n f) := by
  unfold State.protApply
  repeat' first
    | with_reducible assumption
    | intro _
    | (extract_lets +onlyGivenNames u; refine (fun (_ : P u) => ?_) ?_; (on_goal 1 => clear_value u); (on_goal 2 => subst u))
    | (extract_lets +onlyGivenNames u; clear_value u)
    | with_reducible apply dropCauses_keeps h
    | with_reducible apply each_keeps
    | with_reducible apply protState_keeps h
    | with_reducible apply set_keeps h
    | with_reducible apply setProt_keeps h
    | with_reducible apply setReg_keeps h
    | with_reducible apply ite_keeps

theorem protLatch_keeps (h : Keeps P) {s : State} (n : Nat) (f : Nat) (start : Bool) (hs : P s) : P (State.protLatch s n f start).1 := by
  unfold State.protLatch
  repeat' first
    | with_reducible assumption
    | intro _
    | (extract_lets +onlyGivenNames u; refine (fun (_ : P u) => ?_) ?_; (on_goal 1 => clear_value u); (on_goal 2 => subst u))
    | (extract_lets +onlyGivenNames u; clear_value u)
    | with_reducible apply protApply_keeps h
    | with_reducible apply protReject_keeps h
    | with_reducible apply ite_keeps
    | simp only [↓mk_iff h]
    | split

theorem protFresh_keeps (h : KeepsMem P) {s : State} (n : Nat) (f : Nat) (hs : P s) : P (State.protFresh s n f) := by
  unfold State.protFresh
  repeat' first
    | with_reducible assumption
    | intro _
    | (extract_lets +onlyGivenNames u; refine (fun (_ : P u) => ?_) ?_; (on_goal 1 => clear_value u); (on_goal 2 => subst u))
    | (extract_lets +onlyGivenNames u; clear_value u)
    | with_reducible apply addCause_keeps h.toKeeps
    | with_reducible apply dropCauses_keeps h.toKeeps
    | with_reducible apply each_keeps
    | with_reducible apply liveFell_keeps h.toKeeps
    | with_reducible apply raiseFault_keeps h
    | with_reducible apply set_keeps h.toKeeps
    | with_reducible apply ite_keeps

/-! ### PipeOps -/

theorem setPipeState_keeps (h : Keeps P) {s : State} (p : Nat) (st : Nat) (hs : P s) : P (State.setPipeState s p st) := by
  unfold State.setPipeState
  repeat' first
    | with_reducible assumption
    | intro _
    | (extract_lets +onlyGivenNames u; refine (fun (_ : P u) => ?_) ?_; (on_goal 1 => clear_value u); (on_goal 2 => subst u))
    | with_reducible apply set_keeps h
    | with_reducible apply ite_keeps

theorem pipeEvent_keeps (h : Keeps P) {s : State} (p : Nat) (flag : Fld) (hs : P s) : P (State.pipeEvent s p flag) := by
  unfold State.pipeEvent
  repeat' first
    | with_reducible assumption
    | intro _
    | with_reducible apply event_keeps h

theorem watchEnd_keeps (h : Keeps P) {s : State} (n : Nat) (hs : P s) : P (State.watchEnd s n) := by
  unfold State.watchEnd
  repeat' first
    | with_reducible assumption
    | intro _
    | (extract_lets +onlyGivenNames u; refine (fun (_ : P u) => ?_) ?_; (on_goal 1 => clear_value u); (on_goal 2 => subst u))
    | (extract_lets +onlyGivenNames u; clear_value u)
    | with_reducible apply set_keeps h
    | with_reducible apply setPipeState_keeps h
    | with_reducible apply setScr_keeps h
    | with_reducible apply ite_keeps
    | split

theorem watchVoid_keeps (h : Keeps P) {s : State} (n : Nat) (hs : P s) : P (State.watchVoid s n) := by
  unfold State.watchVoid
  repeat' first
    | with_reducible assumption
    | intro _
    | with_reducible apply count_keeps h
    | with_reducible apply watchEnd_keeps h
    | with_reducible apply ite_keeps

theorem pipeUnwatch_keeps (h : Keeps P) {s : State} (p : Nat) (hs : P s) : P (State.pipeUnwatch s p) := by
  unfold State.pipeUnwatch
  repeat' first
    | with_reducible assumption
    | intro _
    | with_reducible apply each_keeps
    | with_reducible apply watchVoid_keeps h
    | with_reducible apply ite_keeps
    | simp only [↓mk_iff h]
    | split

theorem pipeSuspect_keeps (h : Keeps P) {s : State} (p : Nat) (watch : Bool) (hs : P s) : P (State.pipeSuspect s p watch) := by
  unfold State.pipeSuspect
  repeat' first
    | with_reducible assumption
    | intro _
    | with_reducible apply pipeEvent_keeps h
    | with_reducible apply pipeUnwatch_keeps h
    | with_reducible apply setPipeState_keeps h

theorem pipeLeave_keeps (h : Keeps P) {s : State} (p : Nat) (hs : P s) : P (State.pipeLeave s p) := by
  unfold State.pipeLeave
  repeat' first
    | with_reducible assumption
    | intro _
    | (extract_lets +onlyGivenNames u; refine (fun (_ : P u) => ?_) ?_; (on_goal 1 => clear_value u); (on_goal 2 => subst u))
    | (extract_lets +onlyGivenNames u; clear_value u)
    | with_reducible apply pipeSuspect_keeps h
    | with_reducible apply set_keeps h
    | with_reducible apply setPipe_keeps h
    | with_reducible apply setPipeState_keeps h
    | with_reducible apply ite_keeps

theorem pipeTake_keeps (h : Keeps P) {s : State} (p : Nat) (n : Nat) (hs : P s) : P (State.pipeTake s p n) := by
  unfold State.pipeTake
  repeat' first
    | with_reducible assumption
    | intro _
    | (extract_lets +onlyGivenNames u; refine (fun (_ : P u) => ?_) ?_; (on_goal 1 => clear_value u); (on_goal 2 => subst u))
    | (extract_lets +onlyGivenNames u; clear_value u)
    | with_reducible apply pipeUnwatch_keeps h
    | with_reducible apply set_keeps h
    | with_reducible apply setPipe_keeps h
    | with_reducible apply setPipeState_keeps h

theorem needPipe_keeps (h : Keeps P) {s : State} (n : Nat) (hs : P s) : P (State.needPipe s n) := by
  unfold State.needPipe
  repeat' first
    | with_reducible assumption
    | intro _
    | with_reducible apply setScr_keeps h

theorem pipeMismatch_keeps (h : KeepsMem P) {s : State} (n : Nat) (hs : P s) : P (State.pipeMismatch s n) := by
  unfold State.pipeMismatch
  repeat' first
    | with_reducible assumption
    | intro _
    | (extract_lets +onlyGivenNames u; clear_value u)
    | with_reducible apply needPipe_keeps h.toKeeps
    | with_reducible apply raiseFault_keeps h
    | with_reducible apply setPipe_keeps h.toKeeps

theorem pipeArray_keeps (h : Keeps P) {s : State} (p : Nat) (hs : P s) : P (State.pipeArray s p) := by
  unfold State.pipeArray
  repeat' first
    | with_reducible assumption
    | intro _
    | with_reducible apply needPipe_keeps h
    | with_reducible apply pipeSuspect_keeps h
    | with_reducible apply setPipe_keeps h
    | with_reducible apply ite_keeps
    | split

theorem otherSuspect_keeps (h : Keeps P) {s : State} (p : Nat) (hs : P s) : P (State.otherSuspect s p) := by
  unfold State.otherSuspect
  repeat' first
    | with_reducible assumption
    | intro _
    | with_reducible apply needPipe_keeps h
    | with_reducible apply pipeEvent_keeps h
    | with_reducible apply pipeSuspect_keeps h
    | with_reducible apply setPipe_keeps h
    | with_reducible apply ite_keeps
    | split

theorem pipeSwap_keeps (h : KeepsMem P) {s : State} (n : Nat) (hs : P s) : P (State.pipeSwap s n) := by
  unfold State.pipeSwap
  repeat' first
    | with_reducible assumption
    | intro _
    | (extract_lets +onlyGivenNames u; refine (fun (_ : P u) => ?_) ?_; (on_goal 1 => clear_value u); (on_goal 2 => subst u))
    | (extract_lets +onlyGivenNames u; clear_value u)
    | with_reducible apply count_keeps h.toKeeps
    | with_reducible apply each_keeps
    | with_reducible apply liveFell_keeps h.toKeeps
    | with_reducible apply needPipe_keeps h.toKeeps
    | with_reducible apply otherSuspect_keeps h.toKeeps
    | with_reducible apply pipeLeave_keeps h.toKeeps
    | with_reducible apply pipeTake_keeps h.toKeeps
    | with_reducible apply raiseFault_keeps h
    | with_reducible apply setScr_keeps h.toKeeps
    | with_reducible apply ite_keeps
    | simp only [↓mk_iff h.toKeeps]
    | split

theorem watchStart_keeps (h : Keeps P) {s : State} (n : Nat) (hs : P s) : P (State.watchStart s n) := by
  unfold State.watchStart
  repeat' first
    | with_reducible assumption
    | intro _
    | (extract_lets +onlyGivenNames u; refine (fun (_ : P u) => ?_) ?_; (on_goal 1 => clear_value u); (on_goal 2 => subst u))
    | (extract_lets +onlyGivenNames u; clear_value u)
    | with_reducible apply set_keeps h
    | with_reducible apply setPipe_keeps h
    | with_reducible apply setPipeState_keeps h
    | with_reducible apply setScr_keeps h
    | with_reducible apply ite_keeps
    | split

theorem watchAction_keeps (h : Keeps P) {s : State} (p : Nat) (hs : P s) : P (State.watchAction s p) := by
  unfold State.watchAction
  repeat' first
    | with_reducible assumption
    | intro _
    | (extract_lets +onlyGivenNames u; refine (fun (_ : P u) => ?_) ?_; (on_goal 1 => clear_value u); (on_goal 2 => subst u))
    | (extract_lets +onlyGivenNames u; refine (fun (_ : P u.2) => ?_) ?_; (on_goal 1 => clear_value u); (on_goal 2 => subst u))
    | (extract_lets +onlyGivenNames u; clear_value u)
    | with_reducible apply pipeSuspect_keeps h
    | with_reducible apply setPipe_keeps h
    | with_reducible apply setScr_keeps h
    | with_reducible apply ite_keeps
    | simp only [↓mk_iff h]
    | split

theorem watchCompare_keeps (h : KeepsMem P) {s : State} (n : Nat) (diff : Nat) (late : Bool) (hs : P s) : P (State.watchCompare s n diff late) := by
  unfold State.watchCompare
  repeat' first
    | with_reducible assumption
    | intro _
    | (extract_lets +onlyGivenNames u; refine (fun (_ : P u) => ?_) ?_; (on_goal 1 => clear_value u); (on_goal 2 => subst u))
    | with_reducible apply count_keeps h.toKeeps
    | with_reducible apply inOrder_keeps h.toKeeps
    | with_reducible apply raiseFault_keeps h
    | with_reducible apply set_keeps h.toKeeps
    | with_reducible apply setPipe_keeps h.toKeeps
    | with_reducible apply setScr_keeps h.toKeeps
    | with_reducible apply watchEnd_keeps h.toKeeps
    | with_reducible apply watchVoid_keeps h.toKeeps
    | with_reducible apply ite_keeps
    | split

/-! ### ScreenOps -/

theorem lowerDecide_keeps (h : Keeps P) {s : State} (n : Nat) (quiet : Bool) (hs : P s) : P (State.lowerDecide s n quiet) := by
  unfold State.lowerDecide
  repeat' first
    | with_reducible assumption
    | intro _
    | (extract_lets +onlyGivenNames u; clear_value u)
    | with_reducible apply set_keeps h
    | with_reducible apply setScr_keeps h

theorem retimeRefuse_keeps (h : Keeps P) {s : State} (n : Nat) (code : Nat) (hs : P s) : P (State.retimeRefuse s n code) := by
  unfold State.retimeRefuse
  repeat' first
    | with_reducible assumption
    | intro _
    | (extract_lets +onlyGivenNames u; refine (fun (_ : P u) => ?_) ?_; (on_goal 1 => clear_value u); (on_goal 2 => subst u))
    | with_reducible apply count_keeps h
    | with_reducible apply set_keeps h

theorem retimeDone_keeps (h : Keeps P) {s : State} (n : Nat) (hs : P s) : P (State.retimeDone s n) := by
  unfold State.retimeDone
  repeat' first
    | with_reducible assumption
    | intro _
    | (extract_lets +onlyGivenNames u; refine (fun (_ : P u) => ?_) ?_; (on_goal 1 => clear_value u); (on_goal 2 => subst u))
    | (extract_lets +onlyGivenNames u; clear_value u)
    | with_reducible apply count_keeps h
    | with_reducible apply each_keeps
    | with_reducible apply set_keeps h
    | with_reducible apply setReg_keeps h
    | with_reducible apply setScr_keeps h

theorem retimeGo_keeps (h : Keeps P) {s : State} (n : Nat) (hs : P s) : P (State.retimeGo s n) := by
  unfold State.retimeGo
  repeat' first
    | with_reducible assumption
    | intro _
    | (extract_lets +onlyGivenNames u; refine (fun (_ : P u) => ?_) ?_; (on_goal 1 => clear_value u); (on_goal 2 => subst u))
    | (extract_lets +onlyGivenNames u; clear_value u)
    | with_reducible apply earlyEnd_keeps h
    | with_reducible apply retimeRefuse_keeps h
    | with_reducible apply scrRefuse_keeps h
    | with_reducible apply set_keeps h
    | with_reducible apply ite_keeps
    | simp only [↓mk_iff h]
    | split

theorem c2Release_keeps (h : Keeps P) {s : State} (n : Nat) (hs : P s) : P (State.c2Release s n) := by
  unfold State.c2Release
  repeat' first
    | with_reducible assumption
    | intro _
    | with_reducible apply setScr_keeps h
    | with_reducible apply ite_keeps

theorem screenHalt_keeps (h : Keeps P) {s : State} (n : Nat) (hs : P s) : P (State.screenHalt s n) := by
  unfold State.screenHalt
  repeat' first
    | with_reducible assumption
    | intro _
    | (extract_lets +onlyGivenNames u; refine (fun (_ : P u) => ?_) ?_; (on_goal 1 => clear_value u); (on_goal 2 => subst u))
    | (extract_lets +onlyGivenNames u; clear_value u)
    | with_reducible apply c2Release_keeps h
    | with_reducible apply dropCauses_keeps h
    | with_reducible apply each_keeps
    | with_reducible apply liveFell_keeps h
    | with_reducible apply otherSuspect_keeps h
    | with_reducible apply pipeLeave_keeps h
    | with_reducible apply qosUpdate_keeps h
    | with_reducible apply quietStopped_keeps h
    | with_reducible apply retimeRefuse_keeps h
    | with_reducible apply set_keeps h
    | with_reducible apply setPort_keeps h
    | with_reducible apply setScr_keeps h
    | with_reducible apply watchVoid_keeps h
    | with_reducible apply ite_keeps
    | simp only [↓mk_iff h]

theorem outLatch_keeps (h : Keeps P) {s : State} (n : Nat) (f : Nat) (hs : P s) : P (State.outLatch s n f) := by
  unfold State.outLatch
  repeat' first
    | with_reducible assumption
    | intro _
    | (extract_lets +onlyGivenNames u; refine (fun (_ : P u) => ?_) ?_; (on_goal 1 => clear_value u); (on_goal 2 => subst u))
    | (extract_lets +onlyGivenNames u; clear_value u)
    | with_reducible apply each_keeps
    | with_reducible apply set_keeps h
    | with_reducible apply setReg_keeps h
    | with_reducible apply setScr_keeps h
    | with_reducible apply ite_keeps

theorem pwmStart_keeps (h : Keeps P) {s : State} (p : Nat) (hs : P s) : P (State.pwmStart s p) := by
  unfold State.pwmStart
  repeat' first
    | with_reducible assumption
    | intro _
    | (extract_lets +onlyGivenNames u; clear_value u)
    | with_reducible apply setPort_keeps h

theorem latchClock_keeps (h : Keeps P) {s : State} (n : Nat) (hs : P s) : P (State.latchClock s n) := by
  unfold State.latchClock
  repeat' first
    | with_reducible assumption
    | intro _
    | (extract_lets +onlyGivenNames u; refine (fun (_ : P u) => ?_) ?_; (on_goal 1 => clear_value u); (on_goal 2 => subst u))
    | (extract_lets +onlyGivenNames u; clear_value u)
    | with_reducible apply pwmStart_keeps h
    | with_reducible apply raiseIrq_keeps h
    | with_reducible apply set_keeps h
    | with_reducible apply ite_keeps

theorem latchLayers_keeps (h : Keeps P) {s : State} (n : Nat) (f : Nat) (start : Bool) (hs : P s) :
    P (State.latchLayers s n f start).1 := by
  unfold State.latchLayers
  generalize s.layersOf n = l
  have k : ∀ (l : List Nat) (p : State × Bool), P p.1 → P (l.foldl (fun p l =>
      let (t, busy) := p.1.layLatch l f start; (t, p.2 && !busy)) p).1 := fun l => by
    induction l with
    | nil => exact fun p hp => hp
    | cons x l ih => exact fun p hp => ih _ (layLatch_keeps h _ _ _ hp)
  exact k l (s, true) hs

theorem frameEnds_keeps (h : Keeps P) {s : State} (n : Nat) (start : Bool) (hs : P s) : P (State.frameEnds s n start) := by
  unfold State.frameEnds
  repeat' first
    | with_reducible assumption
    | intro _
    | (extract_lets +onlyGivenNames u; refine (fun (_ : P u) => ?_) ?_; (on_goal 1 => clear_value u); (on_goal 2 => subst u))
    | (extract_lets +onlyGivenNames u; clear_value u)
    | with_reducible apply count_keeps h
    | with_reducible apply dropCauses_keeps h
    | with_reducible apply setScr_keeps h
    | with_reducible apply ite_keeps

theorem screenLatch_keeps (h : KeepsMem P) {s : State} (n : Nat) (start : Bool) (hs : P s) : P (State.screenLatch s n start) := by
  unfold State.screenLatch
  repeat' first
    | with_reducible assumption
    | intro _
    | (extract_lets +onlyGivenNames u; refine (fun (_ : P u) => ?_) ?_; (on_goal 1 => clear_value u); (on_goal 2 => subst u))
    | (extract_lets +onlyGivenNames u; clear_value u)
    | with_reducible apply c2Release_keeps h.toKeeps
    | with_reducible apply frameEnds_keeps h.toKeeps
    | with_reducible apply latchClock_keeps h.toKeeps
    | with_reducible apply latchLayers_keeps h.toKeeps
    | with_reducible apply lowerDecide_keeps h.toKeeps
    | with_reducible apply outLatch_keeps h.toKeeps
    | with_reducible apply pipeSwap_keeps h
    | with_reducible apply protFresh_keeps h
    | with_reducible apply protLatch_keeps h.toKeeps
    | with_reducible apply qosUpdate_keeps h.toKeeps
    | with_reducible apply retimeDone_keeps h.toKeeps
    | with_reducible apply set_keeps h.toKeeps
    | with_reducible apply setScr_keeps h.toKeeps
    | with_reducible apply ite_keeps

theorem latchGap_keeps (h : Keeps P) {s : State} (n : Nat) (retime : Bool) (hs : P s) : P (State.latchGap s n retime) := by
  unfold State.latchGap
  repeat' first
    | with_reducible assumption
    | intro _
    | (extract_lets +onlyGivenNames u; refine (fun (_ : P u) => ?_) ?_; (on_goal 1 => clear_value u); (on_goal 2 => subst u))
    | (extract_lets +onlyGivenNames u; clear_value u)
    | with_reducible apply frameEnds_keeps h
    | with_reducible apply latchClock_keeps h
    | with_reducible apply quietStopped_keeps h
    | with_reducible apply set_keeps h
    | with_reducible apply setPort_keeps h
    | with_reducible apply setScr_keeps h
    | with_reducible apply trainAt_keeps h
    | with_reducible apply watchVoid_keeps h
    | with_reducible apply ite_keeps

theorem latch_keeps (h : KeepsMem P) {s : State} (n : Nat) (hs : P s) : P (State.latch s n) := by
  unfold State.latch
  repeat' first
    | with_reducible assumption
    | intro _
    | with_reducible apply frameEnds_keeps h.toKeeps
    | with_reducible apply latchClock_keeps h.toKeeps
    | with_reducible apply latchGap_keeps h.toKeeps
    | with_reducible apply screenHalt_keeps h.toKeeps
    | with_reducible apply screenLatch_keeps h
    | with_reducible apply ite_keeps

theorem screenCtrlWrite_keeps (h : Keeps P) {s : State} (n : Nat) (v : Word) (hs : P s) : P (State.screenCtrlWrite s n v) := by
  unfold State.screenCtrlWrite
  repeat' first
    | with_reducible assumption
    | intro _
    | (extract_lets +onlyGivenNames u; refine (fun (_ : P u) => ?_) ?_; (on_goal 1 => clear_value u); (on_goal 2 => subst u))
    | (extract_lets +onlyGivenNames u; clear_value u)
    | with_reducible apply plainWrite_keeps h
    | with_reducible apply retimeRefuse_keeps h
    | with_reducible apply scrEvent_keeps h
    | with_reducible apply scrRefuse_keeps h
    | with_reducible apply set_keeps h
    | with_reducible apply setScr_keeps h
    | with_reducible apply ite_keeps
    | simp only [↓mk_iff h]
    | split

theorem startHarmless_keeps (h : Keeps P) {s : State} (n : Nat) (hs : P s) : P (State.startHarmless s n) := by
  unfold State.startHarmless
  repeat' first
    | with_reducible assumption
    | intro _
    | (extract_lets +onlyGivenNames u; refine (fun (_ : P u) => ?_) ?_; (on_goal 1 => clear_value u); (on_goal 2 => subst u))
    | (extract_lets +onlyGivenNames u; clear_value u)
    | with_reducible apply blLow_keeps h
    | with_reducible apply raiseIrq_keeps h
    | with_reducible apply setScr_keeps h
    | with_reducible apply when_keeps
    | with_reducible apply ite_keeps

theorem gridFrom_keeps (h : Keeps P) {s : State} (n : Nat) (hs : P s) : P (State.gridFrom s n) := by
  unfold State.gridFrom
  repeat' first
    | with_reducible assumption
    | intro _
    | with_reducible apply setScr_keeps h

theorem startLatch_keeps (h : KeepsMem P) {s : State} (n : Nat) (hs : P s) : P (State.startLatch s n) := by
  unfold State.startLatch
  repeat' first
    | with_reducible assumption
    | intro _
    | (extract_lets +onlyGivenNames u; refine (fun (_ : P u) => ?_) ?_; (on_goal 1 => clear_value u); (on_goal 2 => subst u))
    | (extract_lets +onlyGivenNames u; clear_value u)
    | with_reducible apply gridFrom_keeps h.toKeeps
    | with_reducible apply needPipe_keeps h.toKeeps
    | with_reducible apply pipeSwap_keeps h
    | with_reducible apply pipeTake_keeps h.toKeeps
    | with_reducible apply screenHalt_keeps h.toKeeps
    | with_reducible apply screenLatch_keeps h
    | with_reducible apply set_keeps h.toKeeps
    | with_reducible apply setPort_keeps h.toKeeps
    | with_reducible apply setScr_keeps h.toKeeps
    | with_reducible apply startHarmless_keeps h.toKeeps
    | with_reducible apply ite_keeps
    | split

theorem retimeComplete_keeps (h : Keeps P) {s : State} (n : Nat) (ok : Bool) (hs : P s) : P (State.retimeComplete s n ok) := by
  unfold State.retimeComplete
  repeat' first
    | with_reducible assumption
    | intro _
    | (extract_lets +onlyGivenNames u; refine (fun (_ : P u) => ?_) ?_; (on_goal 1 => clear_value u); (on_goal 2 => subst u))
    | (extract_lets +onlyGivenNames u; clear_value u)
    | with_reducible apply clearDegraded_keeps h
    | with_reducible apply linkUp_keeps h
    | with_reducible apply retimeDone_keeps h
    | with_reducible apply retimeRefuse_keeps h
    | with_reducible apply setPort_keeps h
    | with_reducible apply setScr_keeps h
    | with_reducible apply ite_keeps

/-! ### ScanOps -/

theorem layPoison_keeps (h : Keeps P) {s : State} (n : Nat) (l : Nat) (y : Nat) (hs : P s) : P (State.layPoison s n l y) := by
  unfold State.layPoison
  repeat' first
    | with_reducible assumption
    | intro _
    | (extract_lets +onlyGivenNames u; refine (fun (_ : P u) => ?_) ?_; (on_goal 1 => clear_value u); (on_goal 2 => subst u))
    | (extract_lets +onlyGivenNames u; clear_value u)
    | with_reducible apply layEvent_keeps h
    | with_reducible apply setScr_keeps h

theorem layLate_keeps (h : Keeps P) {s : State} (n : Nat) (t : LateLayer) (hs : P s) : P (State.layLate s n t) := by
  unfold State.layLate
  repeat' first
    | with_reducible assumption
    | intro _
    | (extract_lets +onlyGivenNames u; refine (fun (_ : P u) => ?_) ?_; (on_goal 1 => clear_value u); (on_goal 2 => subst u))
    | (extract_lets +onlyGivenNames u; clear_value u)
    | with_reducible apply breach_keeps h
    | with_reducible apply layEvent_keeps h
    | with_reducible apply setScr_keeps h

theorem composeLine_keeps (h : Keeps P) {s : State} (n : Nat) (y : Nat) (out : List Nat) (bare : Bool) (hs : P s) : P (State.composeLine s n y out bare) := by
  unfold State.composeLine
  repeat' first
    | with_reducible assumption
    | intro _
    | (extract_lets +onlyGivenNames u; refine (fun (_ : P u) => ?_) ?_; (on_goal 1 => clear_value u); (on_goal 2 => subst u))
    | (extract_lets +onlyGivenNames u; clear_value u)
    | with_reducible apply each_keeps
    | with_reducible apply layPoison_keeps h
    | with_reducible apply setScr_keeps h

theorem composeAhead_keeps (h : Keeps P) {s : State} (n : Nat) (y : Nat) (hs : P s) : P (State.composeAhead s n y) := by
  unfold State.composeAhead
  repeat' first
    | with_reducible assumption
    | intro _
    | with_reducible apply composeLine_keeps h
    | with_reducible apply ite_keeps

theorem composeNow_keeps (h : Keeps P) {s : State} (n : Nat) (y : Nat) (hs : P s) : P (State.composeNow s n y) := by
  unfold State.composeNow
  repeat' first
    | with_reducible assumption
    | intro _
    | with_reducible apply composeLine_keeps h
    | with_reducible apply ite_keeps

theorem tileArrive_keeps (h : KeepsMem P) {s : State} (n : Nat) (k : Nat) (y : Nat) (t : Nat) (hs : P s) : P (State.tileArrive s n k y t) := by
  unfold State.tileArrive
  repeat' first
    | with_reducible assumption
    | intro _
    | with_reducible apply addCause_keeps h.toKeeps
    | with_reducible apply count_keeps h.toKeeps
    | with_reducible apply dmaRead_keeps h.toKeeps
    | with_reducible apply protEvent_keeps h.toKeeps
    | with_reducible apply raiseFault_keeps h
    | with_reducible apply set_keeps h.toKeeps
    | with_reducible apply setScr_keeps h.toKeeps
    | with_reducible apply ite_keeps
    | split

theorem tilesLate_keeps (h : Keeps P) {s : State} (n : Nat) (y : Nat) (ns : Nat) (yielded : Nat) (hs : P s) : P (State.tilesLate s n y ns yielded) := by
  unfold State.tilesLate
  repeat' first
    | with_reducible assumption
    | intro _
    | with_reducible apply addCause_keeps h
    | with_reducible apply breach_keeps h
    | with_reducible apply each_keeps
    | with_reducible apply ite_keeps
    | simp only [↓mk_iff h]
    | split

theorem portMismatch_keeps (h : KeepsMem P) {s : State} (n : Nat) (y : Nat) (x : Nat) (hs : P s) : P (State.portMismatch s n y x) := by
  unfold State.portMismatch
  repeat' first
    | with_reducible assumption
    | intro _
    | (extract_lets +onlyGivenNames u; refine (fun (_ : P u) => ?_) ?_; (on_goal 1 => clear_value u); (on_goal 2 => subst u))
    | (extract_lets +onlyGivenNames u; clear_value u)
    | with_reducible apply cmpEvent_keeps h.toKeeps
    | with_reducible apply count_keeps h.toKeeps
    | with_reducible apply pipeMismatch_keeps h
    | with_reducible apply set_keeps h.toKeeps
    | with_reducible apply setScr_keeps h.toKeeps
    | with_reducible apply ite_keeps

theorem sendLine_keeps (h : KeepsMem P) {s : State} (n : Nat) (y : Nat) (faults : List (Nat × Word)) (hs : P s) : P (State.sendLine s n y faults) := by
  unfold State.sendLine
  repeat' first
    | with_reducible assumption
    | intro _
    | (extract_lets +onlyGivenNames u; refine (fun (_ : P u) => ?_) ?_; (on_goal 1 => clear_value u); (on_goal 2 => subst u))
    | (extract_lets +onlyGivenNames u; clear_value u)
    | with_reducible apply composeNow_keeps h.toKeeps
    | with_reducible apply portMismatch_keeps h
    | with_reducible apply setScr_keeps h.toKeeps
    | with_reducible apply ite_keeps
    | simp only [↓mk_iff h.toKeeps]
    | split

theorem frameComplete_keeps (h : Keeps P) {s : State} (n : Nat) (hs : P s) : P (State.frameComplete s n) := by
  unfold State.frameComplete
  repeat' first
    | with_reducible assumption
    | intro _
    | (extract_lets +onlyGivenNames u; refine (fun (_ : P u) => ?_) ?_; (on_goal 1 => clear_value u); (on_goal 2 => subst u))
    | (extract_lets +onlyGivenNames u; clear_value u)
    | with_reducible apply set_keeps h
    | with_reducible apply setScr_keeps h
    | with_reducible apply ite_keeps
    | simp only [↓mk_iff h]
    | split

theorem frameStart_keeps (h : Keeps P) {s : State} (n : Nat) (hs : P s) : P (State.frameStart s n) := by
  unfold State.frameStart
  repeat' first
    | with_reducible assumption
    | intro _
    | (extract_lets +onlyGivenNames u; refine (fun (_ : P u) => ?_) ?_; (on_goal 1 => clear_value u); (on_goal 2 => subst u))
    | (extract_lets +onlyGivenNames u; clear_value u)
    | with_reducible apply setPort_keeps h
    | with_reducible apply setScr_keeps h
    | with_reducible apply ite_keeps

theorem layWaits_keeps (h : Keeps P) {s : State} (n : Nat) (l : Nat) (hs : P s) : P (State.layWaits s n l) := by
  unfold State.layWaits
  repeat' first
    | with_reducible assumption
    | intro _
    | with_reducible apply draw_keeps h
    | with_reducible apply layLate_keeps h

theorem settleLine_keeps (h : Keeps P) {s : State} (n : Nat) (y : Nat) (late : List LateLayer) (bare : Bool) (sxtNs : Nat) (sxtYield : Nat) (hs : P s) : P (State.settleLine s n y late bare sxtNs sxtYield) := by
  unfold State.settleLine
  repeat' first
    | with_reducible assumption
    | intro _
    | (extract_lets +onlyGivenNames u; refine (fun (_ : P u) => ?_) ?_; (on_goal 1 => clear_value u); (on_goal 2 => subst u))
    | (extract_lets +onlyGivenNames u; clear_value u)
    | with_reducible apply composeLine_keeps h
    | with_reducible apply composeNow_keeps h
    | with_reducible apply each_keeps
    | with_reducible apply layLate_keeps h
    | with_reducible apply layWaits_keeps h
    | with_reducible apply tilesLate_keeps h
    | with_reducible apply ite_keeps

theorem windowLine_keeps (h : Keeps P) {s : State} (n : Nat) (line : Nat) (hs : P s) : P (State.windowLine s n line) := by
  unfold State.windowLine
  repeat' first
    | with_reducible assumption
    | intro _
    | (extract_lets +onlyGivenNames u; clear_value u)
    | with_reducible apply composeAhead_keeps h
    | with_reducible apply setScr_keeps h
    | with_reducible apply ite_keeps

theorem scanLine_keeps (h : KeepsMem P) {s : State} (n : Nat) (line : Nat) (last : Bool) (late : List LateLayer) (bare : Bool) (sxtNs : Nat) (sxtYield : Nat) (faults : List (Nat × Word)) (hs : P s) : P (State.scanLine s n line last late bare sxtNs sxtYield faults) := by
  unfold State.scanLine
  repeat' first
    | with_reducible assumption
    | intro _
    | (extract_lets +onlyGivenNames u; refine (fun (_ : P u) => ?_) ?_; (on_goal 1 => clear_value u); (on_goal 2 => subst u))
    | (extract_lets +onlyGivenNames u; clear_value u)
    | with_reducible apply frameComplete_keeps h.toKeeps
    | with_reducible apply frameStart_keeps h.toKeeps
    | with_reducible apply inOrder_keeps h.toKeeps
    | with_reducible apply sendLine_keeps h
    | with_reducible apply set_keeps h.toKeeps
    | with_reducible apply setScr_keeps h.toKeeps
    | with_reducible apply settleLine_keeps h.toKeeps
    | with_reducible apply windowLine_keeps h.toKeeps
    | with_reducible apply ite_keeps

theorem fetchStart_keeps (h : Keeps P) {s : State} (n : Nat) (hs : P s) : P (State.fetchStart s n) := by
  unfold State.fetchStart
  repeat' first
    | with_reducible assumption
    | intro _
    | (extract_lets +onlyGivenNames u; refine (fun (_ : P u) => ?_) ?_; (on_goal 1 => clear_value u); (on_goal 2 => subst u))
    | (extract_lets +onlyGivenNames u; clear_value u)
    | with_reducible apply addCause_keeps h
    | with_reducible apply composeAhead_keeps h
    | with_reducible apply each_keeps
    | with_reducible apply set_keeps h
    | with_reducible apply setScr_keeps h
    | with_reducible apply watchStart_keeps h
    | with_reducible apply ite_keeps

theorem causeAll_keeps (h : Keeps P) {s : State} (n : Nat) (reason : Nat) (line : Nat) (hs : P s) : P (State.causeAll s n reason line) := by
  unfold State.causeAll
  repeat' first
    | with_reducible assumption
    | intro _
    | with_reducible apply addCause_keeps h
    | with_reducible apply each_keeps

theorem lockstepScreen_keeps (h : Keeps P) {s : State} (n : Nat) (x : Nat) (hs : P s) : P (State.lockstepScreen s n x) := by
  unfold State.lockstepScreen
  repeat' first
    | with_reducible assumption
    | intro _
    | (extract_lets +onlyGivenNames u; refine (fun (_ : P u) => ?_) ?_; (on_goal 1 => clear_value u); (on_goal 2 => subst u))
    | (extract_lets +onlyGivenNames u; clear_value u)
    | with_reducible apply causeAll_keeps h
    | with_reducible apply cmpEvent_keeps h
    | with_reducible apply setScr_keeps h
    | with_reducible apply ite_keeps

theorem fellSince_keeps (h : Keeps P) {t : State} (s : State) (k : Nat) (hs : P t) : P (State.fellSince t s k) := by
  unfold State.fellSince
  repeat' first
    | with_reducible assumption
    | intro _
    | with_reducible apply liveFell_keeps h
    | with_reducible apply ite_keeps

theorem sxtTestOver_keeps (h : Keeps P) {s : State} (x : Nat) (hs : P s) : P (State.sxtTestOver s x) := by
  unfold State.sxtTestOver
  repeat' first
    | with_reducible assumption
    | intro _
    | with_reducible apply set_keeps h
    | with_reducible apply ite_keeps
    | simp only [↓mk_iff h]

theorem sextantOut_keeps (h : Keeps P) {s : State} (x : Nat) (was : Nat) (hs : P s) : P (State.sextantOut s x was) := by
  unfold State.sextantOut
  repeat' first
    | with_reducible assumption
    | intro _
    | (extract_lets +onlyGivenNames u; refine (fun (_ : P u) => ?_) ?_; (on_goal 1 => clear_value u); (on_goal 2 => subst u))
    | (extract_lets +onlyGivenNames u; clear_value u)
    | with_reducible apply set_keeps h
    | with_reducible apply sxtTestOver_keeps h
    | with_reducible apply ite_keeps

theorem noSextant_keeps (h : KeepsMem P) {s : State} (hs : P s) : P (State.noSextant s) := by
  unfold State.noSextant
  repeat' first
    | with_reducible assumption
    | intro _
    | with_reducible apply raiseFault_keeps h
    | with_reducible apply ite_keeps

theorem sextantLost_keeps (h : Keeps P) {s : State} (x : Nat) (hs : P s) : P (State.sextantLost s x) := by
  unfold State.sextantLost
  repeat' first
    | with_reducible assumption
    | intro _
    | (extract_lets +onlyGivenNames u; refine (fun (_ : P u) => ?_) ?_; (on_goal 1 => clear_value u); (on_goal 2 => subst u))
    | (extract_lets +onlyGivenNames u; clear_value u)
    | with_reducible apply each_keeps
    | with_reducible apply fellSince_keeps h
    | with_reducible apply lockstepScreen_keeps h
    | with_reducible apply set_keeps h
    | with_reducible apply sextantOut_keeps h
    | with_reducible apply sxtTestOver_keeps h

theorem lockstepFail_keeps (h : KeepsMem P) {s : State} (x : Nat) (hs : P s) : P (State.lockstepFail s x) := by
  unfold State.lockstepFail
  repeat' first
    | with_reducible assumption
    | intro _
    | (extract_lets +onlyGivenNames u; refine (fun (_ : P u) => ?_) ?_; (on_goal 1 => clear_value u); (on_goal 2 => subst u))
    | (extract_lets +onlyGivenNames u; clear_value u)
    | with_reducible apply event_keeps h.toKeeps
    | with_reducible apply inOrder_keeps h.toKeeps
    | with_reducible apply noSextant_keeps h
    | with_reducible apply raiseFault_keeps h
    | with_reducible apply sextantLost_keeps h.toKeeps
    | with_reducible apply ite_keeps

theorem sextantArray_keeps (h : KeepsMem P) {s : State} (x : Nat) (hs : P s) : P (State.sextantArray s x) := by
  unfold State.sextantArray
  repeat' first
    | with_reducible assumption
    | intro _
    | (extract_lets +onlyGivenNames u; refine (fun (_ : P u) => ?_) ?_; (on_goal 1 => clear_value u); (on_goal 2 => subst u))
    | (extract_lets +onlyGivenNames u; clear_value u)
    | with_reducible apply noSextant_keeps h
    | with_reducible apply sextantLost_keeps h.toKeeps
    | with_reducible apply ite_keeps

end

end Sys2Proof.Machine
end

