-- ==== Sys2Proof/Laws/KeepTouch.lean ====
section
/-! SUPPORT. What is kept: touch, beats, wear and the resets. -/

namespace Sys2Proof.Machine

section
variable {P : State → Prop}

/-! ### TouchEngine -/

theorem setTPhase_keeps (h : Keeps P) {s : State} (n : Nat) (p : Nat) (hs : P s) : P (State.setTPhase s n p) := by
  unfold State.setTPhase
  repeat' first
    | with_reducible assumption
    | intro _
    | with_reducible apply set_keeps h

theorem touchEvent_keeps (h : Keeps P) {s : State} (n : Nat) (flag : Fld) (hs : P s) : P (State.touchEvent s n flag) := by
  unfold State.touchEvent
  repeat' first
    | with_reducible assumption
    | intro _
    | with_reducible apply event_keeps h

theorem touchRefuse_keeps (h : Keeps P) {s : State} (n : Nat) (code : Nat) (hs : P s) : P (State.touchRefuse s n code) := by
  unfold State.touchRefuse
  repeat' first
    | with_reducible assumption
    | intro _
    | with_reducible apply set_keeps h
    | with_reducible apply touchEvent_keeps h

theorem quietStart_keeps (h : Keeps P) {s : State} (n : Nat) (hs : P s) : P (State.quietStart s n) := by
  unfold State.quietStart
  repeat' first
    | with_reducible assumption
    | intro _
    | with_reducible apply setTch_keeps h

theorem touchBegin_keeps (h : Keeps P) {s : State} (n : Nat) (hs : P s) : P (State.touchBegin s n) := by
  unfold State.touchBegin
  repeat' first
    | with_reducible assumption
    | intro _
    | (extract_lets +onlyGivenNames u; refine (fun (_ : P u) => ?_) ?_; (on_goal 1 => clear_value u); (on_goal 2 => subst u))
    | (extract_lets +onlyGivenNames u; clear_value u)
    | with_reducible apply quietStart_keeps h
    | with_reducible apply setTPhase_keeps h
    | with_reducible apply setTch_keeps h

theorem touchLinked_keeps (h : Keeps P) {s : State} (n : Nat) (hs : P s) : P (State.touchLinked s n) := by
  unfold State.touchLinked
  repeat' first
    | with_reducible assumption
    | intro _
    | (extract_lets +onlyGivenNames u; clear_value u)
    | with_reducible apply setTPhase_keeps h
    | with_reducible apply touchBegin_keeps h
    | with_reducible apply touchRefuse_keeps h
    | with_reducible apply ite_keeps
    | simp only [↓mk_iff h]
    | split

theorem putContact_keeps (h : Keeps P) {s : State} (n : Nat) (c : Contact) (hs : P s) : P (State.putContact s n c) := by
  unfold State.putContact
  repeat' first
    | with_reducible assumption
    | intro _
    | (extract_lets +onlyGivenNames u; clear_value u)
    | with_reducible apply setTch_keeps h

theorem dropContact_keeps (h : Keeps P) {s : State} (n : Nat) (id : Nat) (hs : P s) : P (State.dropContact s n id) := by
  unfold State.dropContact
  repeat' first
    | with_reducible assumption
    | intro _
    | with_reducible apply setTch_keeps h

theorem pressCue_keeps (h : Keeps P) {s : State} (n : Nat) (c : Contact) (hs : P s) : P (State.pressCue s n c).2 := by
  unfold State.pressCue
  repeat' first
    | with_reducible assumption
    | intro _
    | (extract_lets +onlyGivenNames u; clear_value u)
    | with_reducible apply count_keeps h
    | with_reducible apply hapLose_keeps h
    | with_reducible apply hapUrgent_keeps h
    | with_reducible apply ite_keeps
    | simp only [↓mk_iff h]
    | split

theorem contactDown_keeps (h : KeepsMem P) {s : State} (n : Nat) (c : Contact) (hs : P s) : P (State.contactDown s n c) := by
  unfold State.contactDown
  repeat' first
    | with_reducible assumption
    | intro _
    | (extract_lets +onlyGivenNames u; refine (fun (_ : P u) => ?_) ?_; (on_goal 1 => clear_value u); (on_goal 2 => subst u))
    | (extract_lets +onlyGivenNames u; clear_value u)
    | with_reducible apply contactRecord_keeps h
    | with_reducible apply count_keeps h.toKeeps
    | with_reducible apply pressCue_keeps h.toKeeps
    | with_reducible apply putContact_keeps h.toKeeps
    | with_reducible apply ite_keeps

theorem contactUp_keeps (h : KeepsMem P) {s : State} (n : Nat) (flags : Nat) (c : Contact) (hs : P s) : P (State.contactUp s n flags c) := by
  unfold State.contactUp
  repeat' first
    | with_reducible assumption
    | intro _
    | (extract_lets +onlyGivenNames u; clear_value u)
    | with_reducible apply contactRecord_keeps h
    | with_reducible apply dropContact_keeps h.toKeeps

theorem contactMove_keeps (h : KeepsMem P) {s : State} (n : Nat) (resend : Bool) (c : Contact) (hs : P s) : P (State.contactMove s n resend c) := by
  unfold State.contactMove
  repeat' first
    | with_reducible assumption
    | intro _
    | (extract_lets +onlyGivenNames u; clear_value u)
    | with_reducible apply contactRecord_keeps h
    | with_reducible apply putContact_keeps h.toKeeps
    | with_reducible apply ite_keeps

theorem touchTrack_keeps (h : KeepsMem P) {s : State} (n : Nat) (f : Array Int) (peaks : List Peak) (hs : P s) : P (State.touchTrack s n f peaks) := by
  unfold State.touchTrack
  repeat' first
    | with_reducible assumption
    | intro _
    | (extract_lets +onlyGivenNames u; refine (fun (_ : P u) => ?_) ?_; (on_goal 1 => clear_value u); (on_goal 2 => subst u))
    | (extract_lets +onlyGivenNames u; clear_value u)
    | with_reducible apply contactDown_keeps h
    | with_reducible apply contactMove_keeps h
    | with_reducible apply contactUp_keeps h
    | with_reducible apply count_keeps h.toKeeps
    | with_reducible apply each_keeps
    | with_reducible apply setTch_keeps h.toKeeps
    | with_reducible apply ite_keeps
    | simp only [↓mk_iff h.toKeeps]
    | split

theorem baselineUpdate_keeps (h : Keeps P) {s : State} (n : Nat) (d : Array Int) (vals : Array Nat) (hs : P s) : P (State.baselineUpdate s n d vals) := by
  unfold State.baselineUpdate
  repeat' first
    | with_reducible assumption
    | intro _
    | (extract_lets +onlyGivenNames u; clear_value u)
    | with_reducible apply setTch_keeps h

theorem padHistories_keeps (h : Keeps P) {s : State} (n : Nat) (d : Array Int) (f : Array Int) (vals : Array Nat) (hs : P s) : P (State.padHistories s n d f vals) := by
  unfold State.padHistories
  repeat' first
    | with_reducible assumption
    | intro _
    | (extract_lets +onlyGivenNames u; clear_value u)
    | with_reducible apply setTch_keeps h

theorem blDone_keeps (h : Keeps P) {s : State} (n : Nat) (cmd : Fld) (hs : P s) : P (State.blDone s n cmd) := by
  unfold State.blDone
  repeat' first
    | with_reducible assumption
    | intro _
    | (extract_lets +onlyGivenNames u; refine (fun (_ : P u) => ?_) ?_; (on_goal 1 => clear_value u); (on_goal 2 => subst u))
    | with_reducible apply raiseIrq_keeps h
    | with_reducible apply set_keeps h

theorem dumpRun_keeps (h : KeepsMem P) {s : State} (n : Nat) (hs : P s) : P (State.dumpRun s n) := by
  unfold State.dumpRun
  repeat' first
    | with_reducible assumption
    | intro _
    | (extract_lets +onlyGivenNames u; refine (fun (_ : P u) => ?_) ?_; (on_goal 1 => clear_value u); (on_goal 2 => subst u))
    | (extract_lets +onlyGivenNames u; clear_value u)
    | with_reducible apply blDone_keeps h.toKeeps
    | with_reducible apply dmaWrite_keeps h
    | with_reducible apply setTch_keeps h.toKeeps
    | with_reducible apply ite_keeps

theorem loadRun_keeps (h : Keeps P) {s : State} (n : Nat) (hs : P s) : P (State.loadRun s n) := by
  unfold State.loadRun
  repeat' first
    | with_reducible assumption
    | intro _
    | (extract_lets +onlyGivenNames u; clear_value u)
    | with_reducible apply blDone_keeps h
    | with_reducible apply dmaRead_keeps h
    | with_reducible apply set_keeps h
    | with_reducible apply setTch_keeps h
    | with_reducible apply ite_keeps
    | simp only [↓mk_iff h]
    | split

theorem driveScan_keeps (h : KeepsMem P) {s : State} (n : Nat) (late : Bool) (hs : P s) : P (State.driveScan s n late) := by
  unfold State.driveScan
  repeat' first
    | with_reducible assumption
    | intro _
    | (extract_lets +onlyGivenNames u; refine (fun (_ : P u) => ?_) ?_; (on_goal 1 => clear_value u); (on_goal 2 => subst u))
    | (extract_lets +onlyGivenNames u; clear_value u)
    | with_reducible apply baselineUpdate_keeps h.toKeeps
    | with_reducible apply dumpRun_keeps h
    | with_reducible apply padHistories_keeps h.toKeeps
    | with_reducible apply setTch_keeps h.toKeeps
    | with_reducible apply touchTrack_keeps h
    | with_reducible apply ite_keeps

theorem noiseEnter_keeps (h : KeepsMem P) {s : State} (n : Nat) (hs : P s) : P (State.noiseEnter s n) := by
  unfold State.noiseEnter
  repeat' first
    | with_reducible assumption
    | intro _
    | (extract_lets +onlyGivenNames u; refine (fun (_ : P u) => ?_) ?_; (on_goal 1 => clear_value u); (on_goal 2 => subst u))
    | (extract_lets +onlyGivenNames u; clear_value u)
    | with_reducible apply count_keeps h.toKeeps
    | with_reducible apply raiseFault_keeps h
    | with_reducible apply set_keeps h.toKeeps
    | with_reducible apply setTch_keeps h.toKeeps

theorem listenScan_keeps (h : KeepsMem P) {s : State} (n : Nat) (hs : P s) : P (State.listenScan s n) := by
  unfold State.listenScan
  repeat' first
    | with_reducible assumption
    | intro _
    | (extract_lets +onlyGivenNames u; refine (fun (_ : P u) => ?_) ?_; (on_goal 1 => clear_value u); (on_goal 2 => subst u))
    | (extract_lets +onlyGivenNames u; clear_value u)
    | with_reducible apply noiseEnter_keeps h
    | with_reducible apply set_keeps h.toKeeps
    | with_reducible apply setTch_keeps h.toKeeps
    | with_reducible apply ite_keeps
    | simp only [↓mk_iff h.toKeeps]
    | with_reducible apply foldlSnd_keeps
    | with_reducible apply foldl_keeps
    | split

theorem selfTestResult_keeps (h : KeepsMem P) {s : State} (n : Nat) (imgB : Array Nat) (hs : P s) : P (State.selfTestResult s n imgB) := by
  unfold State.selfTestResult
  repeat' first
    | with_reducible assumption
    | intro _
    | (extract_lets +onlyGivenNames u; refine (fun (_ : P u) => ?_) ?_; (on_goal 1 => clear_value u); (on_goal 2 => subst u))
    | (extract_lets +onlyGivenNames u; clear_value u)
    | with_reducible apply draw_keeps h.toKeeps
    | with_reducible apply each_keeps
    | with_reducible apply quietStart_keeps h.toKeeps
    | with_reducible apply raiseFault_keeps h
    | with_reducible apply raiseIrq_keeps h.toKeeps
    | with_reducible apply set_keeps h.toKeeps
    | with_reducible apply setReg_keeps h.toKeeps
    | with_reducible apply setTPhase_keeps h.toKeeps
    | with_reducible apply ite_keeps
    | simp only [↓mk_iff h.toKeeps]
    | split

theorem startImage_keeps (h : KeepsMem P) {s : State} (n : Nat) (img : Array Nat) (late : Bool) (hs : P s) : P (State.startImage s n img late) := by
  unfold State.startImage
  repeat' first
    | with_reducible assumption
    | intro _
    | (extract_lets +onlyGivenNames u; refine (fun (_ : P u) => ?_) ?_; (on_goal 1 => clear_value u); (on_goal 2 => subst u))
    | (extract_lets +onlyGivenNames u; clear_value u)
    | with_reducible apply set_keeps h.toKeeps
    | with_reducible apply setTPhase_keeps h.toKeeps
    | with_reducible apply setTch_keeps h.toKeeps
    | with_reducible apply touchTrack_keeps h
    | with_reducible apply ite_keeps

theorem quietScan_keeps (h : KeepsMem P) {s : State} (n : Nat) (late : Bool) (hs : P s) : P (State.quietScan s n late) := by
  unfold State.quietScan
  repeat' first
    | with_reducible assumption
    | intro _
    | (extract_lets +onlyGivenNames u; refine (fun (_ : P u) => ?_) ?_; (on_goal 1 => clear_value u); (on_goal 2 => subst u))
    | (extract_lets +onlyGivenNames u; clear_value u)
    | with_reducible apply quietStart_keeps h.toKeeps
    | with_reducible apply selfTestResult_keeps h
    | with_reducible apply setTch_keeps h.toKeeps
    | with_reducible apply startImage_keeps h
    | with_reducible apply ite_keeps

theorem scanEnd_keeps (h : KeepsMem P) {s : State} (n : Nat) (late : Bool) (hs : P s) : P (State.scanEnd s n late) := by
  unfold State.scanEnd
  repeat' first
    | with_reducible assumption
    | intro _
    | (extract_lets +onlyGivenNames u; refine (fun (_ : P u) => ?_) ?_; (on_goal 1 => clear_value u); (on_goal 2 => subst u))
    | (extract_lets +onlyGivenNames u; clear_value u)
    | with_reducible apply driveScan_keeps h
    | with_reducible apply listenScan_keeps h
    | with_reducible apply quietScan_keeps h
    | with_reducible apply setTch_keeps h.toKeeps
    | with_reducible apply ite_keeps

/-! ### Touch -/

theorem tslEvent_keeps (h : Keeps P) {s : State} (n : Nat) (flag : Fld) (hs : P s) : P (State.tslEvent s n flag) := by
  unfold State.tslEvent
  repeat' first
    | with_reducible assumption
    | intro _
    | with_reducible apply event_keeps h

theorem setLink_keeps (h : Keeps P) {s : State} (n : Nat) (v : Nat) (hs : P s) : P (State.setLink s n v) := by
  unfold State.setLink
  repeat' first
    | with_reducible assumption
    | intro _
    | with_reducible apply set_keeps h

theorem linkBegin_keeps (h : Keeps P) {s : State} (n : Nat) (hs : P s) : P (State.linkBegin s n) := by
  unfold State.linkBegin
  repeat' first
    | with_reducible assumption
    | intro _
    | with_reducible apply setTch_keeps h

theorem tslSend_keeps (h : Keeps P) {s : State} (n : Nat) (cmd : Nat) (payload : List Byte) (hs : P s) : P (State.tslSend s n cmd payload) := by
  unfold State.tslSend
  repeat' first
    | with_reducible assumption
    | intro _
    | (extract_lets +onlyGivenNames u; clear_value u)
    | with_reducible apply setTch_keeps h

theorem upCount_keeps (h : Keeps P) {s : State} (n : Nat) (hs : P s) : P (State.upCount s n) := by
  unfold State.upCount
  repeat' first
    | with_reducible assumption
    | intro _
    | with_reducible apply setTch_keeps h

theorem tslAlign_keeps (h : Keeps P) {s : State} (n : Nat) (hs : P s) : P (State.tslAlign s n) := by
  unfold State.tslAlign
  repeat' first
    | with_reducible assumption
    | intro _
    | with_reducible apply setLink_keeps h
    | with_reducible apply setTch_keeps h

theorem touchUnlinked_keeps (h : Keeps P) {s : State} (n : Nat) (hs : P s) : P (State.touchUnlinked s n) := by
  unfold State.touchUnlinked
  repeat' first
    | with_reducible assumption
    | intro _
    | (extract_lets +onlyGivenNames u; refine (fun (_ : P u) => ?_) ?_; (on_goal 1 => clear_value u); (on_goal 2 => subst u))
    | (extract_lets +onlyGivenNames u; clear_value u)
    | with_reducible apply setTPhase_keeps h
    | with_reducible apply touchAbandon_keeps h
    | with_reducible apply ite_keeps

theorem tslLose_keeps (h : KeepsMem P) {s : State} (n : Nat) (hs : P s) : P (State.tslLose s n) := by
  unfold State.tslLose
  repeat' first
    | with_reducible assumption
    | intro _
    | (extract_lets +onlyGivenNames u; refine (fun (_ : P u) => ?_) ?_; (on_goal 1 => clear_value u); (on_goal 2 => subst u))
    | with_reducible apply raiseFault_keeps h
    | with_reducible apply releaseContacts_keeps h
    | with_reducible apply touchUnlinked_keeps h.toKeeps
    | with_reducible apply tslAlign_keeps h.toKeeps
    | with_reducible apply tslEvent_keeps h.toKeeps

theorem tslCtrlWrite_keeps (h : Keeps P) {s : State} (n : Nat) (v : Word) (hs : P s) : P (State.tslCtrlWrite s n v) := by
  unfold State.tslCtrlWrite
  repeat' first
    | with_reducible assumption
    | intro _
    | (extract_lets +onlyGivenNames u; refine (fun (_ : P u) => ?_) ?_; (on_goal 1 => clear_value u); (on_goal 2 => subst u))
    | (extract_lets +onlyGivenNames u; clear_value u)
    | with_reducible apply plainWrite_keeps h
    | with_reducible apply setLink_keeps h
    | with_reducible apply touchUnlinked_keeps h
    | with_reducible apply tslAlign_keeps h
    | with_reducible apply tslEvent_keeps h
    | with_reducible apply when_keeps
    | with_reducible apply ite_keeps

theorem execTslEnable_keeps (h : Keeps P) (n : Fin 8) (w : World) (v : Word) {s : State} (hs : P s) {t' : State}
    (e : execTslEnable n w v s = .next t') : P t' := by
  unfold execTslEnable at e
  injection e with e
  subst e
  repeat' first
    | with_reducible assumption
    | intro _
    | with_reducible apply asWriter_keeps h
    | with_reducible apply linkBegin_keeps h
    | with_reducible apply tslCtrlWrite_keeps h

theorem execTslDisable_keeps (h : Keeps P) (n : Fin 8) (w : World) (v : Word) {s : State} (hs : P s) {t' : State}
    (e : execTslDisable n w v s = .next t') : P t' := by
  unfold execTslDisable at e
  injection e with e
  subst e
  repeat' first
    | with_reducible assumption
    | intro _
    | with_reducible apply asWriter_keeps h
    | with_reducible apply linkBegin_keeps h
    | with_reducible apply tslCtrlWrite_keeps h

theorem tslAligned_keeps (h : Keeps P) {s : State} (n : Nat) (hs : P s) : P (State.tslAligned s n) := by
  unfold State.tslAligned
  repeat' first
    | with_reducible assumption
    | intro _
    | with_reducible apply linkBegin_keeps h
    | with_reducible apply setLink_keeps h
    | with_reducible apply tslSend_keeps h
    | with_reducible apply ite_keeps

theorem execTslAligned_keeps (h : Keeps P) (n : Fin 8) {s : State} (hs : P s) {t' : State}
    (e : execTslAligned n s = .next t') : P t' := by
  unfold execTslAligned at e
  injection e with e
  subst e
  repeat' first
    | with_reducible assumption
    | intro _
    | with_reducible apply tslAligned_keeps h

theorem crcError_keeps (h : Keeps P) {s : State} (n : Nat) (hs : P s) : P (State.crcError s n) := by
  unfold State.crcError
  repeat' first
    | with_reducible assumption
    | intro _
    | with_reducible apply count_keeps h
    | with_reducible apply tslEvent_keeps h

theorem tslIdent_keeps (h : Keeps P) {s : State} (n : Nat) (body : List Byte) (crc : Nat) (hs : P s) : P (State.tslIdent s n body crc) := by
  unfold State.tslIdent
  repeat' first
    | with_reducible assumption
    | intro _
    | (extract_lets +onlyGivenNames u; refine (fun (_ : P u) => ?_) ?_; (on_goal 1 => clear_value u); (on_goal 2 => subst u))
    | (extract_lets +onlyGivenNames u; clear_value u)
    | with_reducible apply crcError_keeps h
    | with_reducible apply linkBegin_keeps h
    | with_reducible apply liveFell_keeps h
    | with_reducible apply set_keeps h
    | with_reducible apply setLink_keeps h
    | with_reducible apply touchLinked_keeps h
    | with_reducible apply tslSend_keeps h
    | with_reducible apply upCount_keeps h
    | with_reducible apply ite_keeps

theorem execTslIdent_keeps (h : Keeps P) (n : Fin 8) (body : List Byte) (crc : BitVec 16) {s : State} (hs : P s) {t' : State}
    (e : execTslIdent n body crc s = .next t') : P t' := by
  unfold execTslIdent at e
  injection e with e
  subst e
  repeat' first
    | with_reducible assumption
    | intro _
    | with_reducible apply tslIdent_keeps h

theorem tslBringupTimeout_keeps (h : Keeps P) {s : State} (n : Nat) (hs : P s) : P (State.tslBringupTimeout s n) := by
  unfold State.tslBringupTimeout
  repeat' first
    | with_reducible assumption
    | intro _
    | (extract_lets +onlyGivenNames u; refine (fun (_ : P u) => ?_) ?_; (on_goal 1 => clear_value u); (on_goal 2 => subst u))
    | (extract_lets +onlyGivenNames u; clear_value u)
    | with_reducible apply linkBegin_keeps h
    | with_reducible apply setTch_keeps h
    | with_reducible apply tslAlign_keeps h
    | with_reducible apply tslSend_keeps h
    | with_reducible apply ite_keeps

theorem execTslBringupTimeout_keeps (h : Keeps P) (n : Fin 8) {s : State} (hs : P s) {t' : State}
    (e : execTslBringupTimeout n s = .next t') : P t' := by
  unfold execTslBringupTimeout at e
  injection e with e
  subst e
  repeat' first
    | with_reducible assumption
    | intro _
    | with_reducible apply tslBringupTimeout_keeps h

theorem placeMark_keeps (h : Keeps P) {s : State} (n : Nat) (m : PlacedMark) (sc : Scan) (hs : P s) : P (State.placeMark s n m sc) := by
  unfold State.placeMark
  repeat' first
    | with_reducible assumption
    | intro _
    | with_reducible apply setTch_keeps h

theorem tslMark_keeps (h : Keeps P) {s : State} (n : Nat) (m : Mark) (instant : Nat) (hs : P s) : P (State.tslMark s n m instant) := by
  unfold State.tslMark
  repeat' first
    | with_reducible assumption
    | intro _
    | (extract_lets +onlyGivenNames u; refine (fun (_ : P u) => ?_) ?_; (on_goal 1 => clear_value u); (on_goal 2 => subst u))
    | (extract_lets +onlyGivenNames u; clear_value u)
    | with_reducible apply beat_keeps h
    | with_reducible apply linkBegin_keeps h
    | with_reducible apply placeMark_keeps h
    | with_reducible apply scanDiscard_keeps h
    | with_reducible apply ite_keeps
    | simp only [↓mk_iff h]
    | split

theorem execTslOpen_keeps (h : Keeps P) (n : Fin 8) (_phase : Fin 80) (instant : Nat) {s : State} (hs : P s) {t' : State}
    (e : execTslOpen n _phase instant s = .next t') : P t' := by
  unfold execTslOpen at e
  injection e with e
  subst e
  repeat' first
    | with_reducible assumption
    | intro _
    | with_reducible apply tslMark_keeps h

theorem execTslClose_keeps (h : Keeps P) (n : Fin 8) (_phase : Fin 80) (instant : Nat) {s : State} (hs : P s) {t' : State}
    (e : execTslClose n _phase instant s = .next t') : P t' := by
  unfold execTslClose at e
  injection e with e
  subst e
  repeat' first
    | with_reducible assumption
    | intro _
    | with_reducible apply tslMark_keeps h

theorem execTslConv_keeps (h : Keeps P) (n : Fin 8) (_phase : Fin 80) (instant : Nat) {s : State} (hs : P s) {t' : State}
    (e : execTslConv n _phase instant s = .next t') : P t' := by
  unfold execTslConv at e
  injection e with e
  subst e
  repeat' first
    | with_reducible assumption
    | intro _
    | with_reducible apply tslMark_keeps h

theorem tslGroup_keeps (h : KeepsMem P) {s : State} (n : Nat) (body : List Byte) (crc : Nat) (e : ScanEnd) (hs : P s) : P (State.tslGroup s n body crc e) := by
  unfold State.tslGroup
  repeat' first
    | with_reducible assumption
    | intro _
    | (extract_lets +onlyGivenNames u; refine (fun (_ : P u) => ?_) ?_; (on_goal 1 => clear_value u); (on_goal 2 => subst u))
    | (extract_lets +onlyGivenNames u; clear_value u)
    | with_reducible apply crcError_keeps h.toKeeps
    | with_reducible apply linkBegin_keeps h.toKeeps
    | with_reducible apply scanDiscard_keeps h.toKeeps
    | with_reducible apply scanEnd_keeps h
    | with_reducible apply setTch_keeps h.toKeeps
    | with_reducible apply tslEvent_keeps h.toKeeps
    | with_reducible apply upCount_keeps h.toKeeps
    | with_reducible apply ite_keeps

theorem execTslGroup_keeps (h : KeepsMem P) (n : Fin 8) (body : List Byte) (crc : BitVec 16) (e : ScanEnd) {s : State} (hs : P s) {t' : State}
    (e : execTslGroup n body crc e s = .next t') : P t' := by
  unfold execTslGroup at e
  injection e with e
  subst e
  repeat' first
    | with_reducible assumption
    | intro _
    | with_reducible apply tslGroup_keeps h

theorem tslCodeError_keeps (h : Keeps P) {s : State} (n : Nat) (inFrame : Bool) (hs : P s) : P (State.tslCodeError s n inFrame) := by
  unfold State.tslCodeError
  repeat' first
    | with_reducible assumption
    | intro _
    | (extract_lets +onlyGivenNames u; refine (fun (_ : P u) => ?_) ?_; (on_goal 1 => clear_value u); (on_goal 2 => subst u))
    | with_reducible apply count_keeps h
    | with_reducible apply linkBegin_keeps h
    | with_reducible apply scanDiscard_keeps h
    | with_reducible apply tslEvent_keeps h
    | with_reducible apply upCount_keeps h
    | with_reducible apply when_keeps
    | with_reducible apply ite_keeps

theorem execTslCodeError_keeps (h : Keeps P) (n : Fin 8) (inFrame : Bool) {s : State} (hs : P s) {t' : State}
    (e : execTslCodeError n inFrame s = .next t') : P t' := by
  unfold execTslCodeError at e
  injection e with e
  subst e
  repeat' first
    | with_reducible assumption
    | intro _
    | with_reducible apply tslCodeError_keeps h

theorem execTslAbort_keeps (h : Keeps P) (n : Fin 8) {s : State} (hs : P s) {t' : State}
    (e : execTslAbort n s = .next t') : P t' := by
  unfold execTslAbort at e
  injection e with e
  subst e
  repeat' first
    | with_reducible assumption
    | intro _
    | with_reducible apply linkBegin_keeps h

theorem tslGroupTimeout_keeps (h : Keeps P) {s : State} (n : Nat) (hs : P s) : P (State.tslGroupTimeout s n) := by
  unfold State.tslGroupTimeout
  repeat' first
    | with_reducible assumption
    | intro _
    | with_reducible apply linkBegin_keeps h
    | with_reducible apply scanDiscard_keeps h
    | with_reducible apply tslEvent_keeps h
    | with_reducible apply ite_keeps

theorem execTslGroupTimeout_keeps (h : Keeps P) (n : Fin 8) {s : State} (hs : P s) {t' : State}
    (e : execTslGroupTimeout n s = .next t') : P t' := by
  unfold execTslGroupTimeout at e
  injection e with e
  subst e
  repeat' first
    | with_reducible assumption
    | intro _
    | with_reducible apply tslGroupTimeout_keeps h

theorem tslSilence_keeps (h : KeepsMem P) {s : State} (n : Nat) (hs : P s) : P (State.tslSilence s n) := by
  unfold State.tslSilence
  repeat' first
    | with_reducible assumption
    | intro _
    | with_reducible apply linkBegin_keeps h.toKeeps
    | with_reducible apply tslLose_keeps h
    | with_reducible apply ite_keeps

theorem execTslSilence_keeps (h : KeepsMem P) (n : Fin 8) {s : State} (hs : P s) {t' : State}
    (e : execTslSilence n s = .next t') : P t' := by
  unfold execTslSilence at e
  injection e with e
  subst e
  repeat' first
    | with_reducible assumption
    | intro _
    | with_reducible apply tslSilence_keeps h

theorem tslLost_keeps (h : KeepsMem P) {s : State} (n : Nat) (hs : P s) : P (State.tslLost s n) := by
  unfold State.tslLost
  repeat' first
    | with_reducible assumption
    | intro _
    | with_reducible apply linkBegin_keeps h.toKeeps
    | with_reducible apply tslLose_keeps h
    | with_reducible apply ite_keeps

theorem execTslLost_keeps (h : KeepsMem P) (n : Fin 8) {s : State} (hs : P s) {t' : State}
    (e : execTslLost n s = .next t') : P t' := by
  unfold execTslLost at e
  injection e with e
  subst e
  repeat' first
    | with_reducible assumption
    | intro _
    | with_reducible apply tslLost_keeps h

theorem touchBeat_keeps (h : Keeps P) {s : State} (n : Nat) (hs : P s) : P (State.touchBeat s n) := by
  unfold State.touchBeat
  repeat' first
    | with_reducible assumption
    | intro _
    | (extract_lets +onlyGivenNames u; refine (fun (_ : P u) => ?_) ?_; (on_goal 1 => clear_value u); (on_goal 2 => subst u))
    | (extract_lets +onlyGivenNames u; clear_value u)
    | with_reducible apply beat_keeps h
    | with_reducible apply breach_keeps h
    | with_reducible apply count_keeps h
    | with_reducible apply draw_keeps h
    | with_reducible apply linkBegin_keeps h
    | with_reducible apply setTch_keeps h
    | with_reducible apply touchEvent_keeps h
    | with_reducible apply tslGroupTimeout_keeps h
    | with_reducible apply tslSend_keeps h
    | with_reducible apply when_keeps
    | with_reducible apply ite_keeps

theorem selfTestStart_keeps (h : KeepsMem P) {s : State} (n : Nat) (hs : P s) : P (State.selfTestStart s n) := by
  unfold State.selfTestStart
  repeat' first
    | with_reducible assumption
    | intro _
    | (extract_lets +onlyGivenNames u; refine (fun (_ : P u) => ?_) ?_; (on_goal 1 => clear_value u); (on_goal 2 => subst u))
    | (extract_lets +onlyGivenNames u; clear_value u)
    | with_reducible apply quietStart_keeps h.toKeeps
    | with_reducible apply releaseContacts_keeps h
    | with_reducible apply set_keeps h.toKeeps
    | with_reducible apply setTPhase_keeps h.toKeeps
    | with_reducible apply setTch_keeps h.toKeeps

theorem recaptureStart_keeps (h : KeepsMem P) {s : State} (n : Nat) (hs : P s) : P (State.recaptureStart s n) := by
  unfold State.recaptureStart
  repeat' first
    | with_reducible assumption
    | intro _
    | (extract_lets +onlyGivenNames u; refine (fun (_ : P u) => ?_) ?_; (on_goal 1 => clear_value u); (on_goal 2 => subst u))
    | (extract_lets +onlyGivenNames u; clear_value u)
    | with_reducible apply quietStart_keeps h.toKeeps
    | with_reducible apply releaseContacts_keeps h
    | with_reducible apply set_keeps h.toKeeps
    | with_reducible apply setTPhase_keeps h.toKeeps
    | with_reducible apply setTch_keeps h.toKeeps

theorem touchCtrlWrite_keeps (h : KeepsMem P) {s : State} (n : Nat) (v : Word) (hs : P s) : P (State.touchCtrlWrite s n v) := by
  unfold State.touchCtrlWrite
  repeat' first
    | with_reducible assumption
    | intro _
    | (extract_lets +onlyGivenNames u; refine (fun (_ : P u) => ?_) ?_; (on_goal 1 => clear_value u); (on_goal 2 => subst u))
    | (extract_lets +onlyGivenNames u; clear_value u)
    | with_reducible apply plainWrite_keeps h.toKeeps
    | with_reducible apply recaptureStart_keeps h
    | with_reducible apply releaseContacts_keeps h
    | with_reducible apply selfTestStart_keeps h
    | with_reducible apply setTPhase_keeps h.toKeeps
    | with_reducible apply touchAbandon_keeps h.toKeeps
    | with_reducible apply touchEvent_keeps h.toKeeps
    | with_reducible apply touchLinked_keeps h.toKeeps
    | with_reducible apply touchRefuse_keeps h.toKeeps
    | with_reducible apply when_keeps
    | with_reducible apply ite_keeps

theorem execTouchEnable_keeps (h : KeepsMem P) (n : Fin 8) (w : World) (v : Word) {s : State} (hs : P s) {t' : State}
    (e : execTouchEnable n w v s = .next t') : P t' := by
  unfold execTouchEnable at e
  injection e with e
  subst e
  repeat' first
    | with_reducible assumption
    | intro _
    | with_reducible apply asWriter_keeps h.toKeeps
    | with_reducible apply touchCtrlWrite_keeps h

theorem execTouchDisable_keeps (h : KeepsMem P) (n : Fin 8) (w : World) (v : Word) {s : State} (hs : P s) {t' : State}
    (e : execTouchDisable n w v s = .next t') : P t' := by
  unfold execTouchDisable at e
  injection e with e
  subst e
  repeat' first
    | with_reducible assumption
    | intro _
    | with_reducible apply asWriter_keeps h.toKeeps
    | with_reducible apply touchCtrlWrite_keeps h

theorem execTouchSelftest_keeps (h : KeepsMem P) (n : Fin 8) (w : World) (v : Word) {s : State} (hs : P s) {t' : State}
    (e : execTouchSelftest n w v s = .next t') : P t' := by
  unfold execTouchSelftest at e
  injection e with e
  subst e
  repeat' first
    | with_reducible assumption
    | intro _
    | with_reducible apply asWriter_keeps h.toKeeps
    | with_reducible apply touchCtrlWrite_keeps h

theorem execTouchRecapture_keeps (h : KeepsMem P) (n : Fin 8) (w : World) (v : Word) {s : State} (hs : P s) {t' : State}
    (e : execTouchRecapture n w v s = .next t') : P t' := by
  unfold execTouchRecapture at e
  injection e with e
  subst e
  repeat' first
    | with_reducible assumption
    | intro _
    | with_reducible apply asWriter_keeps h.toKeeps
    | with_reducible apply touchCtrlWrite_keeps h

theorem touchObstruct_keeps (h : KeepsMem P) {s : State} (n : Nat) (c : Contact) (hs : P s) : P (State.touchObstruct s n c) := by
  unfold State.touchObstruct
  repeat' first
    | with_reducible assumption
    | intro _
    | (extract_lets +onlyGivenNames u; refine (fun (_ : P u) => ?_) ?_; (on_goal 1 => clear_value u); (on_goal 2 => subst u))
    | (extract_lets +onlyGivenNames u; clear_value u)
    | with_reducible apply contactUp_keeps h
    | with_reducible apply raiseFault_keeps h
    | with_reducible apply setTch_keeps h.toKeeps

theorem touchHoldLimit_keeps (h : KeepsMem P) {s : State} (n : Nat) (id : Nat) (hs : P s) : P (State.touchHoldLimit s n id) := by
  unfold State.touchHoldLimit
  repeat' first
    | with_reducible assumption
    | intro _
    | (extract_lets +onlyGivenNames u; clear_value u)
    | with_reducible apply touchObstruct_keeps h
    | with_reducible apply ite_keeps
    | simp only [↓mk_iff h.toKeeps]
    | split

theorem execTouchHoldLimit_keeps (h : KeepsMem P) (n : Fin 8) (id : Fin 20) {s : State} (hs : P s) {t' : State}
    (e : execTouchHoldLimit n id s = .next t') : P t' := by
  unfold execTouchHoldLimit at e
  injection e with e
  subst e
  repeat' first
    | with_reducible assumption
    | intro _
    | with_reducible apply touchHoldLimit_keeps h

theorem blCmdWrite_keeps (h : Keeps P) {s : State} (n : Nat) (v : Word) (hs : P s) : P (State.blCmdWrite s n v) := by
  unfold State.blCmdWrite
  repeat' first
    | with_reducible assumption
    | intro _
    | (extract_lets +onlyGivenNames u; refine (fun (_ : P u) => ?_) ?_; (on_goal 1 => clear_value u); (on_goal 2 => subst u))
    | (extract_lets +onlyGivenNames u; clear_value u)
    | with_reducible apply set_keeps h
    | with_reducible apply setReg_keeps h
    | with_reducible apply setTch_keeps h
    | with_reducible apply touchEvent_keeps h
    | with_reducible apply ite_keeps

theorem execBaselineLoad_keeps (h : Keeps P) (n : Fin 8) (w : World) (v : Word) {s : State} (hs : P s) {t' : State}
    (e : execBaselineLoad n w v s = .next t') : P t' := by
  unfold execBaselineLoad at e
  injection e with e
  subst e
  repeat' first
    | with_reducible assumption
    | intro _
    | with_reducible apply asWriter_keeps h
    | with_reducible apply blCmdWrite_keeps h

theorem execBaselineDump_keeps (h : Keeps P) (n : Fin 8) (w : World) (v : Word) {s : State} (hs : P s) {t' : State}
    (e : execBaselineDump n w v s = .next t') : P t' := by
  unfold execBaselineDump at e
  injection e with e
  subst e
  repeat' first
    | with_reducible assumption
    | intro _
    | with_reducible apply asWriter_keeps h
    | with_reducible apply blCmdWrite_keeps h

theorem baselineLoadRun_keeps (h : Keeps P) {s : State} (n : Nat) (hs : P s) : P (State.baselineLoadRun s n) := by
  unfold State.baselineLoadRun
  repeat' first
    | with_reducible assumption
    | intro _
    | (extract_lets +onlyGivenNames u; refine (fun (_ : P u) => ?_) ?_; (on_goal 1 => clear_value u); (on_goal 2 => subst u))
    | with_reducible apply loadRun_keeps h
    | with_reducible apply touchLinked_keeps h
    | with_reducible apply ite_keeps

theorem execBaselineLoadRun_keeps (h : Keeps P) (n : Fin 8) {s : State} (hs : P s) {t' : State}
    (e : execBaselineLoadRun n s = .next t') : P t' := by
  unfold execBaselineLoadRun at e
  injection e with e
  subst e
  repeat' first
    | with_reducible assumption
    | intro _
    | with_reducible apply baselineLoadRun_keeps h

theorem touchHeldWrite_keeps (h : Keeps P) {s : State} (enabled : Bool) (flag : Fld) (events : Fld) (irq : Nat) (a : Nat) (v : Word) (hs : P s) : P (State.touchHeldWrite s enabled flag events irq a v) := by
  unfold State.touchHeldWrite
  repeat' first
    | with_reducible assumption
    | intro _
    | with_reducible apply event_keeps h
    | with_reducible apply plainWrite_keeps h
    | with_reducible apply ite_keeps

/-! ### Beat -/

theorem drumAdvance_keeps (h : Keeps P) {s : State} (hs : P s) : P (State.drumAdvance s) := by
  unfold State.drumAdvance
  repeat' first
    | with_reducible assumption
    | intro _
    | (extract_lets +onlyGivenNames u; clear_value u)
    | with_reducible apply set_keeps h

theorem beatAt_keeps (h : Keeps P) {s : State} (interval : Nat) (hs : P s) : P (State.beatAt s interval) := by
  unfold State.beatAt
  repeat' first
    | with_reducible assumption
    | intro _
    | (extract_lets +onlyGivenNames u; refine (fun (_ : P u) => ?_) ?_; (on_goal 1 => clear_value u); (on_goal 2 => subst u))
    | (extract_lets +onlyGivenNames u; clear_value u)
    | with_reducible apply audioBeat_keeps h
    | with_reducible apply drumAdvance_keeps h
    | with_reducible apply each_keeps
    | with_reducible apply touchBeat_keeps h
    | with_reducible apply ite_keeps
    | simp only [↓mk_iff h]

theorem beatInternal_keeps (h : Keeps P) {s : State} (hs : P s) : P (State.beatInternal s) := by
  unfold State.beatInternal
  repeat' first
    | with_reducible assumption
    | intro _
    | with_reducible apply beatAt_keeps h
    | with_reducible apply ite_keeps
    | simp only [↓mk_iff h]
    | split

theorem beat_keeps (h : Keeps P) {s : State} (hs : P s) : P (State.beat s) := by
  unfold State.beat
  repeat' first
    | with_reducible assumption
    | intro _
    | with_reducible apply beatAt_keeps h
    | with_reducible apply beatInternal_keeps h
    | with_reducible apply ite_keeps
    | simp only [↓mk_iff h]

theorem execBeat_keeps (h : Keeps P) {s : State} (hs : P s) {t' : State}
    (e : execBeat s = .next t') : P t' := by
  unfold execBeat at e
  injection e with e
  subst e
  repeat' first
    | with_reducible assumption
    | intro _
    | with_reducible apply beat_keeps h

theorem drumInMissing_keeps (h : KeepsMem P) {s : State} (hs : P s) : P (State.drumInMissing s) := by
  unfold State.drumInMissing
  repeat' first
    | with_reducible assumption
    | intro _
    | (extract_lets +onlyGivenNames u; refine (fun (_ : P u) => ?_) ?_; (on_goal 1 => clear_value u); (on_goal 2 => subst u))
    | (extract_lets +onlyGivenNames u; clear_value u)
    | with_reducible apply beatAt_keeps h.toKeeps
    | with_reducible apply count_keeps h.toKeeps
    | with_reducible apply drumLost_keeps h
    | with_reducible apply ite_keeps
    | simp only [↓mk_iff h.toKeeps]

theorem execDrumInMissing_keeps (h : KeepsMem P) {s : State} (hs : P s) {t' : State}
    (e : execDrumInMissing s = .next t') : P t' := by
  unfold execDrumInMissing at e
  injection e with e
  subst e
  repeat' first
    | with_reducible assumption
    | intro _
    | with_reducible apply drumInMissing_keeps h

/-! ### Wear -/

theorem pipeWear_keeps (h : Keeps P) {s : State} (p : Nat) (hs : P s) : P (State.pipeWear s p).2 := by
  unfold State.pipeWear
  repeat' first
    | with_reducible assumption
    | intro _
    | (extract_lets +onlyGivenNames u; refine (fun (_ : P u) => ?_) ?_; (on_goal 1 => clear_value u); (on_goal 2 => subst u))
    | (extract_lets +onlyGivenNames u; clear_value u)
    | with_reducible apply needPipe_keeps h
    | with_reducible apply pipeUnwatch_keeps h
    | with_reducible apply setPipe_keeps h
    | with_reducible apply setPipeState_keeps h
    | with_reducible apply ite_keeps
    | simp only [↓mk_iff h]
    | split

theorem pipeMarked_keeps (h : KeepsMem P) {s : State} (p : Nat) (hs : P s) : P (State.pipeMarked s p) := by
  unfold State.pipeMarked
  repeat' first
    | with_reducible assumption
    | intro _
    | with_reducible apply pipeWear_keeps h.toKeeps
    | with_reducible apply raiseFault_keeps h
    | with_reducible apply ite_keeps

theorem sextantMarked_keeps (h : KeepsMem P) {s : State} (x : Nat) (hs : P s) : P (State.sextantMarked s x) := by
  unfold State.sextantMarked
  repeat' first
    | with_reducible assumption
    | intro _
    | (extract_lets +onlyGivenNames u; clear_value u)
    | with_reducible apply fellSince_keeps h.toKeeps
    | with_reducible apply noSextant_keeps h
    | with_reducible apply sextantOut_keeps h.toKeeps
    | with_reducible apply sxtTestOver_keeps h.toKeeps
    | with_reducible apply ite_keeps

theorem wornMark_keeps (h : KeepsMem P) {s : State} (k : Nat) (hs : P s) : P (State.wornMark s k) := by
  unfold State.wornMark
  repeat' first
    | with_reducible assumption
    | intro _
    | (extract_lets +onlyGivenNames u; refine (fun (_ : P u) => ?_) ?_; (on_goal 1 => clear_value u); (on_goal 2 => subst u))
    | (extract_lets +onlyGivenNames u; clear_value u)
    | with_reducible apply pipeMarked_keeps h
    | with_reducible apply raiseIrq_keeps h.toKeeps
    | with_reducible apply set_keeps h.toKeeps
    | with_reducible apply sextantMarked_keeps h
    | with_reducible apply ite_keeps

theorem wornWrite_keeps (h : KeepsMem P) {s : State} (v : Word) (hs : P s) : P (State.wornWrite s v) := by
  unfold State.wornWrite
  repeat' first
    | with_reducible assumption
    | intro _
    | (extract_lets +onlyGivenNames u; refine (fun (_ : P u) => ?_) ?_; (on_goal 1 => clear_value u); (on_goal 2 => subst u))
    | (extract_lets +onlyGivenNames u; clear_value u)
    | with_reducible apply each_keeps
    | with_reducible apply inOrder_keeps h.toKeeps
    | with_reducible apply wornMark_keeps h
    | with_reducible apply ite_keeps

theorem wearThreshWrite_keeps (h : Keeps P) {s : State} (v : Word) (hs : P s) : P (State.wearThreshWrite s v) := by
  unfold State.wearThreshWrite
  repeat' first
    | with_reducible assumption
    | intro _
    | (extract_lets +onlyGivenNames u; refine (fun (_ : P u) => ?_) ?_; (on_goal 1 => clear_value u); (on_goal 2 => subst u))
    | with_reducible apply plainWrite_keeps h
    | with_reducible apply set_keeps h
    | with_reducible apply ite_keeps

theorem execWornWrite_keeps (h : KeepsMem P) (w : World) (v : Word) {s : State} (hs : P s) {t' : State}
    (e : execWornWrite w v s = .next t') : P t' := by
  unfold execWornWrite at e
  injection e with e
  subst e
  repeat' first
    | with_reducible assumption
    | intro _
    | with_reducible apply asWriter_keeps h.toKeeps
    | with_reducible apply wornWrite_keeps h

theorem monSample_keeps (h : KeepsMem P) {s : State} (k : Nat) (m : Nat) (hs : P s) : P (State.monSample s k m) := by
  unfold State.monSample
  repeat' first
    | with_reducible assumption
    | intro _
    | (extract_lets +onlyGivenNames u; refine (fun (_ : P u) => ?_) ?_; (on_goal 1 => clear_value u); (on_goal 2 => subst u))
    | (extract_lets +onlyGivenNames u; clear_value u)
    | with_reducible apply set_keeps h.toKeeps
    | with_reducible apply wornMark_keeps h
    | with_reducible apply ite_keeps
    | simp only [↓mk_iff h.toKeeps]

theorem thermalSecond_keeps (h : Keeps P) {s : State} (t : BitVec 16) (hs : P s) : P (State.thermalSecond s t) := by
  unfold State.thermalSecond
  repeat' first
    | with_reducible assumption
    | intro _
    | (extract_lets +onlyGivenNames u; refine (fun (_ : P u) => ?_) ?_; (on_goal 1 => clear_value u); (on_goal 2 => subst u))
    | (extract_lets +onlyGivenNames u; clear_value u)
    | with_reducible apply count_keeps h
    | with_reducible apply set_keeps h
    | with_reducible apply ite_keeps

theorem execWearSample_keeps (h : KeepsMem P) (margins : List (BitVec 16)) (temp : BitVec 16) {s : State} (hs : P s) {t' : State}
    (e : execWearSample margins temp s = .next t') : P t' := by
  unfold execWearSample at e
  injection e with e
  subst e
  repeat' first
    | with_reducible assumption
    | intro _
    | with_reducible apply each_keeps
    | with_reducible apply inOrder_keeps h.toKeeps
    | with_reducible apply monSample_keeps h
    | with_reducible apply thermalSecond_keeps h.toKeeps

theorem otpEvent_keeps (h : Keeps P) {s : State} (flag : Fld) (hs : P s) : P (State.otpEvent s flag) := by
  unfold State.otpEvent
  repeat' first
    | with_reducible assumption
    | intro _
    | with_reducible apply count_keeps h
    | with_reducible apply set_keeps h

theorem otpCmdWrite_keeps (h : Keeps P) {s : State} (v : Word) (hs : P s) : P (State.otpCmdWrite s v) := by
  unfold State.otpCmdWrite
  repeat' first
    | with_reducible assumption
    | intro _
    | (extract_lets +onlyGivenNames u; refine (fun (_ : P u) => ?_) ?_; (on_goal 1 => clear_value u); (on_goal 2 => subst u))
    | (extract_lets +onlyGivenNames u; clear_value u)
    | with_reducible apply otpEvent_keeps h
    | with_reducible apply plainWrite_keeps h
    | with_reducible apply set_keeps h
    | with_reducible apply ite_keeps
    | simp only [↓mk_iff h]

theorem execOtpBurn_keeps (h : Keeps P) (w : World) (v : Word) {s : State} (hs : P s) {t' : State}
    (e : execOtpBurn w v s = .next t') : P t' := by
  unfold execOtpBurn at e
  injection e with e
  subst e
  repeat' first
    | with_reducible assumption
    | intro _
    | with_reducible apply asWriter_keeps h
    | with_reducible apply otpCmdWrite_keeps h

theorem otpDone_keeps (h : Keeps P) {s : State} (n : Nat) (hs : P s) : P (State.otpDone s n) := by
  unfold State.otpDone
  repeat' first
    | with_reducible assumption
    | intro _
    | (extract_lets +onlyGivenNames u; clear_value u)
    | with_reducible apply otpEvent_keeps h
    | with_reducible apply set_keeps h
    | with_reducible apply ite_keeps
    | simp only [↓mk_iff h]

theorem execOtpBurnDone_keeps (h : Keeps P) (n : Nat) {s : State} (hs : P s) {t' : State}
    (e : execOtpBurnDone n s = .next t') : P t' := by
  unfold execOtpBurnDone at e
  injection e with e
  subst e
  repeat' first
    | with_reducible assumption
    | intro _
    | with_reducible apply otpDone_keeps h

/-! ### BootOps -/

theorem flashEvent_keeps (h : Keeps P) {s : State} (flag : Fld) (hs : P s) : P (State.flashEvent s flag) := by
  unfold State.flashEvent
  repeat' first
    | with_reducible assumption
    | intro _
    | with_reducible apply count_keeps h
    | with_reducible apply set_keeps h

theorem flashCmdWrite_keeps (h : Keeps P) {s : State} (v : Word) (hs : P s) : P (State.flashCmdWrite s v) := by
  unfold State.flashCmdWrite
  repeat' first
    | with_reducible assumption
    | intro _
    | (extract_lets +onlyGivenNames u; refine (fun (_ : P u) => ?_) ?_; (on_goal 1 => clear_value u); (on_goal 2 => subst u))
    | (extract_lets +onlyGivenNames u; clear_value u)
    | with_reducible apply flashEvent_keeps h
    | with_reducible apply flashTurn_keeps h
    | with_reducible apply plainWrite_keeps h
    | with_reducible apply set_keeps h
    | with_reducible apply ite_keeps
    | simp only [↓mk_iff h]

theorem execFlashRead_keeps (h : Keeps P) (w : World) (v : Word) {s : State} (hs : P s) {t' : State}
    (e : execFlashRead w v s = .next t') : P t' := by
  unfold execFlashRead at e
  injection e with e
  subst e
  repeat' first
    | with_reducible assumption
    | intro _
    | with_reducible apply asWriter_keeps h
    | with_reducible apply flashCmdWrite_keeps h

theorem execFlashProgram_keeps (h : Keeps P) (w : World) (v : Word) {s : State} (hs : P s) {t' : State}
    (e : execFlashProgram w v s = .next t') : P t' := by
  unfold execFlashProgram at e
  injection e with e
  subst e
  repeat' first
    | with_reducible assumption
    | intro _
    | with_reducible apply asWriter_keeps h
    | with_reducible apply flashCmdWrite_keeps h

theorem execFlashErase4k_keeps (h : Keeps P) (w : World) (v : Word) {s : State} (hs : P s) {t' : State}
    (e : execFlashErase4k w v s = .next t') : P t' := by
  unfold execFlashErase4k at e
  injection e with e
  subst e
  repeat' first
    | with_reducible assumption
    | intro _
    | with_reducible apply asWriter_keeps h
    | with_reducible apply flashCmdWrite_keeps h

theorem execFlashErase64k_keeps (h : Keeps P) (w : World) (v : Word) {s : State} (hs : P s) {t' : State}
    (e : execFlashErase64k w v s = .next t') : P t' := by
  unfold execFlashErase64k at e
  injection e with e
  subst e
  repeat' first
    | with_reducible assumption
    | intro _
    | with_reducible apply asWriter_keeps h
    | with_reducible apply flashCmdWrite_keeps h

theorem freeBytes_keeps (h : Keeps P) {s : State} (hs : P s) (n : Nat) : P (s.freeBytes n).2 := by
  induction n generalizing s with
  | zero => exact hs
  | succ n ih => exact ih (draw_keeps h hs)

theorem freeFlash_keeps (h : KeepsMem P) {s : State} (off : Nat) (len : Nat) (hs : P s) : P (State.freeFlash s off len) := by
  unfold State.freeFlash
  repeat' first
    | with_reducible assumption
    | intro _
    | with_reducible apply each_keeps
    | with_reducible apply freeBytes_keeps h.toKeeps
    | with_reducible apply setFlashByte_keeps h

theorem flashSource_keeps (h : Keeps P) {s : State} (hs : P s) : P (State.flashSource s).2 := by
  have k := dmaRead_keeps h .secure bootPort s.boot.buf s.boot.len hs
  unfold State.flashSource
  split <;> rename_i e <;> rw [e] at k
  · exact k
  · exact freeBytes_keeps h k _

theorem flashPartDrive_keeps (h : Keeps P) {s : State} (op : Nat) (addr : Nat) (bs : List Byte) (p : Nat × Nat) (hs : P s) : P (State.flashPartDrive s op addr bs p) := by
  unfold State.flashPartDrive
  repeat' first
    | with_reducible assumption
    | intro _
    | with_reducible apply each_keeps
    | with_reducible apply flashDrive_keeps h

theorem flashPart_keeps (h : KeepsMem P) {s : State} (op : Nat) (addr : Nat) (bs : List Byte) (p : Nat × Nat) (hs : P s) : P (State.flashPart s op addr bs p) := by
  unfold State.flashPart
  repeat' first
    | with_reducible assumption
    | intro _
    | (extract_lets +onlyGivenNames u; refine (fun (_ : P u) => ?_) ?_; (on_goal 1 => clear_value u); (on_goal 2 => subst u))
    | with_reducible apply eraseFlash_keeps h
    | with_reducible apply flashPartDrive_keeps h.toKeeps
    | with_reducible apply programFlash_keeps h
    | with_reducible apply ite_keeps

theorem flashEnd_keeps (h : Keeps P) {s : State} (hs : P s) : P (State.flashEnd s) := by
  unfold State.flashEnd
  repeat' first
    | with_reducible assumption
    | intro _
    | (extract_lets +onlyGivenNames u; refine (fun (_ : P u) => ?_) ?_; (on_goal 1 => clear_value u); (on_goal 2 => subst u))
    | (extract_lets +onlyGivenNames u; clear_value u)
    | with_reducible apply bboxAdvance_keeps h
    | with_reducible apply flashEvent_keeps h
    | with_reducible apply set_keeps h
    | with_reducible apply ite_keeps
    | simp only [↓mk_iff h]

theorem flashDone_keeps (h : KeepsMem P) {s : State} (hs : P s) : P (State.flashDone s) := by
  unfold State.flashDone
  repeat' first
    | with_reducible assumption
    | intro _
    | with_reducible apply dmaWrite_keeps h
    | with_reducible apply each_keeps
    | with_reducible apply flashDrive_keeps h.toKeeps
    | with_reducible apply flashEnd_keeps h.toKeeps
    | with_reducible apply flashPart_keeps h
    | with_reducible apply flashSource_keeps h.toKeeps
    | with_reducible apply ite_keeps
    | simp only [↓mk_iff h.toKeeps]
    | split

theorem execFlashCmdDone_keeps (h : KeepsMem P) {s : State} (hs : P s) {t' : State}
    (e : execFlashCmdDone s = .next t') : P t' := by
  unfold execFlashCmdDone at e
  injection e with e
  subst e
  repeat' first
    | with_reducible assumption
    | intro _
    | with_reducible apply flashDone_keeps h

theorem flashTimeout_keeps (h : KeepsMem P) {s : State} (n : Nat) (hs : P s) : P (State.flashTimeout s n) := by
  unfold State.flashTimeout
  repeat' first
    | with_reducible assumption
    | intro _
    | (extract_lets +onlyGivenNames u; clear_value u)
    | with_reducible apply each_keeps
    | with_reducible apply flashEnd_keeps h.toKeeps
    | with_reducible apply flashEvent_keeps h.toKeeps
    | with_reducible apply flashPart_keeps h
    | with_reducible apply flashPartDrive_keeps h.toKeeps
    | with_reducible apply flashSource_keeps h.toKeeps
    | with_reducible apply freeFlash_keeps h
    | with_reducible apply ite_keeps
    | simp only [↓mk_iff h.toKeeps]
    | split

theorem execFlashTimeout_keeps (h : KeepsMem P) (done : Nat) {s : State} (hs : P s) {t' : State}
    (e : execFlashTimeout done s = .next t') : P t' := by
  unfold execFlashTimeout at e
  injection e with e
  subst e
  repeat' first
    | with_reducible assumption
    | intro _
    | with_reducible apply flashTimeout_keeps h

theorem setStage_keeps (h : Keeps P) {s : State} (n : Nat) (hs : P s) : P (State.setStage s n) := by
  unfold State.setStage
  repeat' first
    | with_reducible assumption
    | intro _
    | with_reducible apply set_keeps h
    | with_reducible apply ite_keeps
    | simp only [↓mk_iff h]

theorem bootCtrlWrite_keeps (h : Keeps P) {s : State} (v : Word) (hs : P s) : P (State.bootCtrlWrite s v) := by
  unfold State.bootCtrlWrite
  repeat' first
    | with_reducible assumption
    | intro _
    | (extract_lets +onlyGivenNames u; refine (fun (_ : P u) => ?_) ?_; (on_goal 1 => clear_value u); (on_goal 2 => subst u))
    | (extract_lets +onlyGivenNames u; clear_value u)
    | with_reducible apply logEvent_keeps h
    | with_reducible apply set_keeps h
    | with_reducible apply ite_keeps

theorem execUnderway_keeps (h : Keeps P) (w : World) (v : Word) {s : State} (hs : P s) {t' : State}
    (e : execUnderway w v s = .next t') : P t' := by
  unfold execUnderway at e
  injection e with e
  subst e
  repeat' first
    | with_reducible assumption
    | intro _
    | with_reducible apply asWriter_keeps h
    | with_reducible apply bootCtrlWrite_keeps h

theorem execAnchorClear_keeps (h : Keeps P) (w : World) (v : Word) {s : State} (hs : P s) {t' : State}
    (e : execAnchorClear w v s = .next t') : P t' := by
  unfold execAnchorClear at e
  injection e with e
  subst e
  repeat' first
    | with_reducible assumption
    | intro _
    | with_reducible apply asWriter_keeps h
    | with_reducible apply bootCtrlWrite_keeps h

theorem startFail_keeps (h : KeepsMem P) {s : State} (cause : Nat) (hs : P s) : P (State.startFail s cause) := by
  unfold State.startFail
  repeat' first
    | with_reducible assumption
    | intro _
    | (extract_lets +onlyGivenNames u; refine (fun (_ : P u) => ?_) ?_; (on_goal 1 => clear_value u); (on_goal 2 => subst u))
    | (extract_lets +onlyGivenNames u; clear_value u)
    | with_reducible apply raiseFault_keeps h
    | with_reducible apply set_keeps h.toKeeps
    | with_reducible apply setStage_keeps h.toKeeps
    | with_reducible apply ite_keeps
    | simp only [↓mk_iff h.toKeeps]

theorem noChart_keeps (h : KeepsMem P) {s : State} (hs : P s) : P (State.noChart s) := by
  unfold State.noChart
  repeat' first
    | with_reducible assumption
    | intro _
    | (extract_lets +onlyGivenNames u; refine (fun (_ : P u) => ?_) ?_; (on_goal 1 => clear_value u); (on_goal 2 => subst u))
    | (extract_lets +onlyGivenNames u; clear_value u)
    | with_reducible apply raiseFault_keeps h
    | with_reducible apply setStage_keeps h.toKeeps
    | with_reducible apply ite_keeps
    | simp only [↓mk_iff h.toKeeps]

theorem execStartTimeout_keeps (h : KeepsMem P) {s : State} (hs : P s) {t' : State}
    (e : execStartTimeout s = .next t') : P t' := by
  unfold execStartTimeout at e
  injection e with e
  subst e
  repeat' first
    | with_reducible assumption
    | intro _
    | with_reducible apply startFail_keeps h
    | with_reducible apply ite_keeps

theorem deviceFresh_keeps (h : KeepsAll P) {s : State} (hs : P s) : P (State.deviceFresh s) :=
  h.fresh hs rfl rfl rfl rfl rfl

theorem deviceReset_keeps (h : KeepsAll P) {s : State} (cause : Nat) (hs : P s) : P (State.deviceReset s cause) := by
  unfold State.deviceReset
  repeat' first
    | with_reducible assumption
    | intro _
    | (extract_lets +onlyGivenNames u; refine (fun (_ : P u) => ?_) ?_; (on_goal 1 => clear_value u); (on_goal 2 => subst u))
    | with_reducible apply dbgOpen_keeps h.toKeepsMem.toKeeps
    | with_reducible apply deviceFresh_keeps h
    | with_reducible apply set_keeps h.toKeepsMem.toKeeps
    | with_reducible apply setReg_keeps h.toKeepsMem.toKeeps
    | with_reducible apply when_keeps

theorem drumClear_keeps (h : Keeps P) {s : State} (hs : P s) : P (State.drumClear s) := by
  unfold State.drumClear
  repeat' first
    | with_reducible assumption
    | intro _
    | with_reducible apply setReg_keeps h

theorem execStartReset_keeps (h : KeepsAll P) {s : State} (hs : P s) {t' : State}
    (e : execStartReset s = .next t') : P t' := by
  unfold execStartReset at e
  injection e with e
  subst e
  repeat' first
    | with_reducible assumption
    | intro _
    | with_reducible apply deviceReset_keeps h
    | with_reducible apply ite_keeps
    | simp only [↓mk_iff h.toKeepsMem.toKeeps]

theorem execResetNAssert_keeps (h : KeepsAll P) {s : State} (hs : P s) {t' : State}
    (e : execResetNAssert s = .next t') : P t' := by
  unfold execResetNAssert at e
  injection e with e
  subst e
  repeat' first
    | with_reducible assumption
    | intro _
    | with_reducible apply deviceReset_keeps h

theorem execVaonPowerOn_keeps (h : KeepsAll P) {s : State} (hs : P s) {t' : State}
    (e : execVaonPowerOn s = .next t') : P t' := by
  unfold execVaonPowerOn at e
  injection e with e
  subst e
  repeat' first
    | with_reducible assumption
    | intro _
    | (extract_lets +onlyGivenNames u; clear_value u)
    | with_reducible apply resetReg_keeps h.toKeepsMem.toKeeps
    | with_reducible apply set_keeps h.toKeepsMem.toKeeps
    | with_reducible apply ite_keeps
    | simp only [↓mk_iff h.toKeepsMem.toKeeps]

/-! ### Chart -/

theorem flashReset_keeps (h : Keeps P) {s : State} (hs : P s) : P (State.flashReset s) := by
  unfold State.flashReset
  repeat' first
    | with_reducible assumption
    | intro _
    | with_reducible apply flashDrive_keeps h
    | with_reducible apply ite_keeps
    | simp only [↓mk_iff h]

theorem flashService_keeps (h : Keeps P) {s : State} (hs : P s) : P (State.flashService s) := by
  unfold State.flashService
  repeat' first
    | with_reducible assumption
    | intro _
    | (extract_lets +onlyGivenNames u; refine (fun (_ : P u) => ?_) ?_; (on_goal 1 => clear_value u); (on_goal 2 => subst u))
    | (extract_lets +onlyGivenNames u; clear_value u)
    | with_reducible apply flashDrive_keeps h
    | with_reducible apply ite_keeps
    | simp only [↓mk_iff h]

theorem useHeader_keeps (h : Keeps P) {s : State} (bs : List Byte) (hs : P s) : P (State.useHeader s bs) := by
  unfold State.useHeader
  repeat' first
    | with_reducible assumption
    | intro _
    | with_reducible apply flashService_keeps h
    | with_reducible apply ite_keeps
    | simp only [↓mk_iff h]

theorem chooseHeader_keeps (h : Keeps P) {s : State} (hs : P s) : P (State.chooseHeader s) := by
  have q := flashDrive_keeps h (.read 0x13 0 80) (flashReset_keeps h hs)
  unfold State.chooseHeader
  dsimp only
  split
  · exact useHeader_keeps h _ q
  · split
    · exact set_keeps h _ _ (useHeader_keeps h _ (flashDrive_keeps h _ q))
    · exact flashDrive_keeps h _ q

theorem bboxReady_keeps (h : Keeps P) {s : State} (page : Nat) (slot : Nat) (seq : Nat) (hs : P s) : P (State.bboxReady s page slot seq) := by
  unfold State.bboxReady
  repeat' first
    | with_reducible assumption
    | intro _
    | (extract_lets +onlyGivenNames u; refine (fun (_ : P u) => ?_) ?_; (on_goal 1 => clear_value u); (on_goal 2 => subst u))
    | (extract_lets +onlyGivenNames u; clear_value u)
    | with_reducible apply set_keeps h
    | with_reducible apply ite_keeps
    | simp only [↓mk_iff h]

theorem bboxLocate_keeps (h : KeepsMem P) {s : State} (hs : P s) : P (State.bboxLocate s) := by
  unfold State.bboxLocate
  repeat' first
    | with_reducible assumption
    | intro _
    | (extract_lets +onlyGivenNames u; clear_value u)
    | with_reducible apply bboxReady_keeps h.toKeeps
    | with_reducible apply eraseFlash_keeps h
    | with_reducible apply programFlash_keeps h
    | with_reducible apply ite_keeps
    | split

end

end Sys2Proof.Machine
end

