-- ==== Sys2Proof/Laws/KeepScreens.lean ====
section
/-! SUPPORT. What is kept: the screens, the ports, protected content, the memory sides and the layers. -/

namespace Sys2Proof.Machine

section
variable {P : State → Prop}

/-! ### Screens -/

theorem execScreenStart_keeps (h : Keeps P) (n : Fin 8) (w : World) (v : Word) {s : State} (hs : P s) {t' : State}
    (e : execScreenStart n w v s = .next t') : P t' := by
  unfold execScreenStart at e
  injection e with e
  subst e
  repeat' first
    | with_reducible assumption
    | intro _
    | with_reducible apply asWriter_keeps h
    | with_reducible apply screenCtrlWrite_keeps h

theorem execScreenStop_keeps (h : Keeps P) (n : Fin 8) (w : World) (v : Word) {s : State} (hs : P s) {t' : State}
    (e : execScreenStop n w v s = .next t') : P t' := by
  unfold execScreenStop at e
  injection e with e
  subst e
  repeat' first
    | with_reducible assumption
    | intro _
    | with_reducible apply asWriter_keeps h
    | with_reducible apply screenCtrlWrite_keeps h

theorem execScreenStartLatch_keeps (h : KeepsMem P) (n : Fin 8) {s : State} (hs : P s) {t' : State}
    (e : execScreenStartLatch n s = .next t') : P t' := by
  unfold execScreenStartLatch at e
  injection e with e
  subst e
  repeat' first
    | with_reducible assumption
    | intro _
    | with_reducible apply inOrder_keeps h.toKeeps
    | with_reducible apply startLatch_keeps h

theorem execLatch_keeps (h : KeepsMem P) (n : Fin 8) {s : State} (hs : P s) {t' : State}
    (e : execLatch n s = .next t') : P t' := by
  unfold execLatch at e
  injection e with e
  subst e
  repeat' first
    | with_reducible assumption
    | intro _
    | with_reducible apply inOrder_keeps h.toKeeps
    | with_reducible apply latch_keeps h

theorem execPipeFetchStart_keeps (h : Keeps P) (n : Fin 8) {s : State} (hs : P s) {t' : State}
    (e : execPipeFetchStart n s = .next t') : P t' := by
  unfold execPipeFetchStart at e
  injection e with e
  subst e
  repeat' first
    | with_reducible assumption
    | intro _
    | with_reducible apply fetchStart_keeps h

theorem execScanoutLine_keeps (h : KeepsMem P) (n : Fin 8) (line : BitVec 14) (last : Bool) (late : List LateLayer) (bare : Bool) (sxtNs : Nat) (sxtYield : Nat) (faults : List (BitVec 13 × Word)) {s : State} (hs : P s) {t' : State}
    (e : execScanoutLine n line last late bare sxtNs sxtYield faults s = .next t') : P t' := by
  unfold execScanoutLine at e
  injection e with e
  subst e
  repeat' first
    | with_reducible assumption
    | intro _
    | with_reducible apply scanLine_keeps h

theorem lowerWrite_keeps (h : Keeps P) {s : State} (n : Nat) (v : Word) (hs : P s) : P (State.lowerWrite s n v) := by
  unfold State.lowerWrite
  repeat' first
    | with_reducible assumption
    | intro _
    | with_reducible apply plainWrite_keeps h
    | with_reducible apply scrEvent_keeps h
    | with_reducible apply ite_keeps

theorem execLowerEnable_keeps (h : Keeps P) (n : Fin 8) (w : World) (v : Word) {s : State} (hs : P s) {t' : State}
    (e : execLowerEnable n w v s = .next t') : P t' := by
  unfold execLowerEnable at e
  injection e with e
  subst e
  repeat' first
    | with_reducible assumption
    | intro _
    | with_reducible apply asWriter_keeps h
    | with_reducible apply lowerWrite_keeps h

theorem retimeWrite_keeps (h : Keeps P) {s : State} (n : Nat) (v : Word) (hs : P s) : P (State.retimeWrite s n v) := by
  unfold State.retimeWrite
  repeat' first
    | with_reducible assumption
    | intro _
    | (extract_lets +onlyGivenNames u; refine (fun (_ : P u) => ?_) ?_; (on_goal 1 => clear_value u); (on_goal 2 => subst u))
    | with_reducible apply plainWrite_keeps h
    | with_reducible apply retimeGo_keeps h
    | with_reducible apply ite_keeps

theorem execRetimeRequest_keeps (h : Keeps P) (n : Fin 8) (w : World) (v : Word) {s : State} (hs : P s) {t' : State}
    (e : execRetimeRequest n w v s = .next t') : P t' := by
  unfold execRetimeRequest at e
  injection e with e
  subst e
  repeat' first
    | with_reducible assumption
    | intro _
    | with_reducible apply asWriter_keeps h
    | with_reducible apply retimeWrite_keeps h

theorem execRetimeComplete_keeps (h : Keeps P) (n : Fin 8) (ok : Bool) {s : State} (hs : P s) {t' : State}
    (e : execRetimeComplete n ok s = .next t') : P t' := by
  unfold execRetimeComplete at e
  injection e with e
  subst e
  repeat' first
    | with_reducible assumption
    | intro _
    | with_reducible apply retimeComplete_keeps h

theorem outCommit_keeps (h : Keeps P) {s : State} (n : Nat) (v : Word) (hs : P s) : P (State.outCommit s n v) := by
  unfold State.outCommit
  repeat' first
    | with_reducible assumption
    | intro _
    | with_reducible apply count_keeps h
    | with_reducible apply set_keeps h
    | with_reducible apply setScr_keeps h
    | with_reducible apply ite_keeps

theorem execOutCommitGo_keeps (h : Keeps P) (n : Fin 8) (w : World) (v : Word) {s : State} (hs : P s) {t' : State}
    (e : execOutCommitGo n w v s = .next t') : P t' := by
  unfold execOutCommitGo at e
  injection e with e
  subst e
  repeat' first
    | with_reducible assumption
    | intro _
    | with_reducible apply asWriter_keeps h
    | with_reducible apply outCommit_keeps h

theorem execWatchCompare_keeps (h : KeepsMem P) (n : Fin 8) (diff : Word) (late : Bool) {s : State} (hs : P s) {t' : State}
    (e : execWatchCompare n diff late s = .next t') : P t' := by
  unfold execWatchCompare at e
  injection e with e
  subst e
  repeat' first
    | with_reducible assumption
    | intro _
    | with_reducible apply watchCompare_keeps h

theorem hitSwap_keeps (h : Keeps P) {s : State} (n : Nat) (hs : P s) : P (State.hitSwap s n) := by
  unfold State.hitSwap
  repeat' first
    | with_reducible assumption
    | intro _
    | with_reducible apply setScr_keeps h
    | with_reducible apply ite_keeps
    | split

theorem execHitMapSwap_keeps (h : Keeps P) (n : Fin 8) {s : State} (hs : P s) {t' : State}
    (e : execHitMapSwap n s = .next t') : P t' := by
  unfold execHitMapSwap at e
  injection e with e
  subst e
  repeat' first
    | with_reducible assumption
    | intro _
    | with_reducible apply hitSwap_keeps h

/-! ### Ports -/

theorem dpoCtrlWrite_keeps (h : Keeps P) {s : State} (p : Nat) (v : Word) (hs : P s) : P (State.dpoCtrlWrite s p v) := by
  unfold State.dpoCtrlWrite
  repeat' first
    | with_reducible assumption
    | intro _
    | (extract_lets +onlyGivenNames u; refine (fun (_ : P u) => ?_) ?_; (on_goal 1 => clear_value u); (on_goal 2 => subst u))
    | (extract_lets +onlyGivenNames u; clear_value u)
    | with_reducible apply linkDown_keeps h
    | with_reducible apply linkEvent_keeps h
    | with_reducible apply plainWrite_keeps h
    | with_reducible apply ite_keeps

theorem linkCtrlWrite_keeps (h : Keeps P) {s : State} (p : Nat) (v : Word) (hs : P s) : P (State.linkCtrlWrite s p v) := by
  unfold State.linkCtrlWrite
  repeat' first
    | with_reducible assumption
    | intro _
    | (extract_lets +onlyGivenNames u; refine (fun (_ : P u) => ?_) ?_; (on_goal 1 => clear_value u); (on_goal 2 => subst u))
    | (extract_lets +onlyGivenNames u; clear_value u)
    | with_reducible apply linkEvent_keeps h
    | with_reducible apply plainWrite_keeps h
    | with_reducible apply setPort_keeps h
    | with_reducible apply trainAt_keeps h
    | with_reducible apply ite_keeps

theorem execDpTrain_keeps (h : Keeps P) (p : Fin 8) (w : World) (v : Word) {s : State} (hs : P s) {t' : State}
    (e : execDpTrain p w v s = .next t') : P t' := by
  unfold execDpTrain at e
  injection e with e
  subst e
  repeat' first
    | with_reducible assumption
    | intro _
    | with_reducible apply asWriter_keeps h
    | with_reducible apply linkCtrlWrite_keeps h

theorem degradeStart_keeps (h : Keeps P) {s : State} (p : Nat) (hs : P s) : P (State.degradeStart s p) := by
  unfold State.degradeStart
  repeat' first
    | with_reducible assumption
    | intro _
    | (extract_lets +onlyGivenNames u; refine (fun (_ : P u) => ?_) ?_; (on_goal 1 => clear_value u); (on_goal 2 => subst u))
    | (extract_lets +onlyGivenNames u; clear_value u)
    | with_reducible apply retimeRefuse_keeps h
    | with_reducible apply setPort_keeps h
    | with_reducible apply setScr_keeps h
    | with_reducible apply trainAt_keeps h
    | with_reducible apply ite_keeps
    | simp only [↓mk_iff h]
    | split

theorem trainDone_keeps (h : Keeps P) {s : State} (p : Nat) (ok : Bool) (hs : P s) : P (State.trainDone s p ok) := by
  unfold State.trainDone
  repeat' first
    | with_reducible assumption
    | intro _
    | (extract_lets +onlyGivenNames u; refine (fun (_ : P u) => ?_) ?_; (on_goal 1 => clear_value u); (on_goal 2 => subst u))
    | (extract_lets +onlyGivenNames u; clear_value u)
    | with_reducible apply clearDegraded_keeps h
    | with_reducible apply degradeStart_keeps h
    | with_reducible apply linkDown_keeps h
    | with_reducible apply linkEvent_keeps h
    | with_reducible apply linkUp_keeps h
    | with_reducible apply setPort_keeps h
    | with_reducible apply trainAt_keeps h
    | with_reducible apply ite_keeps
    | simp only [↓mk_iff h]
    | split

theorem execDpTrainDone_keeps (h : Keeps P) (p : Fin 8) (ok : Bool) {s : State} (hs : P s) {t' : State}
    (e : execDpTrainDone p ok s = .next t') : P t' := by
  unfold execDpTrainDone at e
  injection e with e
  subst e
  repeat' first
    | with_reducible assumption
    | intro _
    | with_reducible apply trainDone_keeps h

theorem hpdIrq_keeps (h : Keeps P) {s : State} (p : Nat) (lost : Nat) (hs : P s) : P (State.hpdIrq s p lost) := by
  unfold State.hpdIrq
  repeat' first
    | with_reducible assumption
    | intro _
    | (extract_lets +onlyGivenNames u; clear_value u)
    | with_reducible apply degradeStart_keeps h
    | with_reducible apply linkEvent_keeps h
    | with_reducible apply setPort_keeps h
    | with_reducible apply trainAt_keeps h
    | with_reducible apply ite_keeps

theorem execHpdIrq_keeps (h : Keeps P) (p : Fin 8) (lost : BitVec 4) {s : State} (hs : P s) {t' : State}
    (e : execHpdIrq p lost s = .next t') : P t' := by
  unfold execHpdIrq at e
  injection e with e
  subst e
  repeat' first
    | with_reducible assumption
    | intro _
    | with_reducible apply hpdIrq_keeps h

theorem degraded_keeps (h : KeepsMem P) {s : State} (p : Nat) (rate : Nat) (lanes : Nat) (halve : Bool) (hs : P s) : P (State.degraded s p rate lanes halve) := by
  unfold State.degraded
  repeat' first
    | with_reducible assumption
    | intro _
    | (extract_lets +onlyGivenNames u; refine (fun (_ : P u) => ?_) ?_; (on_goal 1 => clear_value u); (on_goal 2 => subst u))
    | (extract_lets +onlyGivenNames u; clear_value u)
    | with_reducible apply linkUp_keeps h.toKeeps
    | with_reducible apply raiseFault_keeps h
    | with_reducible apply set_keeps h.toKeeps
    | with_reducible apply setPort_keeps h.toKeeps

theorem unusable_keeps (h : KeepsMem P) {s : State} (p : Nat) (hs : P s) : P (State.unusable s p) := by
  unfold State.unusable
  repeat' first
    | with_reducible assumption
    | intro _
    | (extract_lets +onlyGivenNames u; refine (fun (_ : P u) => ?_) ?_; (on_goal 1 => clear_value u); (on_goal 2 => subst u))
    | (extract_lets +onlyGivenNames u; clear_value u)
    | with_reducible apply linkDown_keeps h.toKeeps
    | with_reducible apply raiseFault_keeps h
    | with_reducible apply screenHalt_keeps h.toKeeps
    | with_reducible apply setPort_keeps h.toKeeps
    | with_reducible apply ite_keeps
    | simp only [↓mk_iff h.toKeeps]
    | split

theorem degradeDone_keeps (h : KeepsMem P) {s : State} (p : Nat) (lane0 : Bool) (lane1 : Bool) (hs : P s) : P (State.degradeDone s p lane0 lane1) := by
  unfold State.degradeDone
  repeat' first
    | with_reducible assumption
    | intro _
    | (extract_lets +onlyGivenNames u; clear_value u)
    | with_reducible apply degraded_keeps h
    | with_reducible apply setScr_keeps h.toKeeps
    | with_reducible apply unusable_keeps h
    | with_reducible apply ite_keeps
    | split

theorem execDegradeDone_keeps (h : KeepsMem P) (p : Fin 8) (lane0 : Bool) (lane1 : Bool) {s : State} (hs : P s) {t' : State}
    (e : execDegradeDone p lane0 lane1 s = .next t') : P t' := by
  unfold execDegradeDone at e
  injection e with e
  subst e
  repeat' first
    | with_reducible assumption
    | intro _
    | with_reducible apply degradeDone_keeps h

theorem unplug_keeps (h : KeepsMem P) {s : State} (p : Nat) (hs : P s) : P (State.unplug s p) := by
  unfold State.unplug
  repeat' first
    | with_reducible assumption
    | intro _
    | (extract_lets +onlyGivenNames u; refine (fun (_ : P u) => ?_) ?_; (on_goal 1 => clear_value u); (on_goal 2 => subst u))
    | (extract_lets +onlyGivenNames u; clear_value u)
    | with_reducible apply linkDown_keeps h.toKeeps
    | with_reducible apply linkEvent_keeps h.toKeeps
    | with_reducible apply raiseFault_keeps h
    | with_reducible apply set_keeps h.toKeeps
    | with_reducible apply setPort_keeps h.toKeeps
    | with_reducible apply ite_keeps

theorem execHpdUnplug_keeps (h : KeepsMem P) (p : Fin 8) {s : State} (hs : P s) {t' : State}
    (e : execHpdUnplug p s = .next t') : P t' := by
  unfold execHpdUnplug at e
  injection e with e
  subst e
  repeat' first
    | with_reducible assumption
    | intro _
    | with_reducible apply unplug_keeps h

theorem replug_keeps (h : Keeps P) {s : State} (p : Nat) (tps3 : Bool) (hs : P s) : P (State.replug s p tps3) := by
  unfold State.replug
  repeat' first
    | with_reducible assumption
    | intro _
    | (extract_lets +onlyGivenNames u; refine (fun (_ : P u) => ?_) ?_; (on_goal 1 => clear_value u); (on_goal 2 => subst u))
    | (extract_lets +onlyGivenNames u; clear_value u)
    | with_reducible apply liveFell_keeps h
    | with_reducible apply set_keeps h
    | with_reducible apply setPort_keeps h
    | with_reducible apply trainAt_keeps h
    | with_reducible apply ite_keeps
    | simp only [↓mk_iff h]
    | split

theorem execHpdReplug_keeps (h : Keeps P) (p : Plug) {s : State} (hs : P s) {t' : State}
    (e : execHpdReplug p s = .next t') : P t' := by
  unfold execHpdReplug at e
  injection e with e
  subst e
  repeat' first
    | with_reducible assumption
    | intro _
    | with_reducible apply replug_keeps h

theorem auxCmd_keeps (h : Keeps P) {s : State} (p : Nat) (i2c : Bool) (v : Word) (hs : P s) : P (State.auxCmd s p i2c v) := by
  unfold State.auxCmd
  repeat' first
    | with_reducible assumption
    | intro _
    | (extract_lets +onlyGivenNames u; refine (fun (_ : P u) => ?_) ?_; (on_goal 1 => clear_value u); (on_goal 2 => subst u))
    | (extract_lets +onlyGivenNames u; clear_value u)
    | with_reducible apply linkEvent_keeps h
    | with_reducible apply plainWrite_keeps h
    | with_reducible apply set_keeps h
    | with_reducible apply setPort_keeps h
    | with_reducible apply ite_keeps

theorem auxData_keeps (h : Keeps P) {s : State} (p : Nat) (i2c : Bool) (a : Nat) (v : Word) (hs : P s) : P (State.auxData s p i2c a v) := by
  unfold State.auxData
  repeat' first
    | with_reducible assumption
    | intro _
    | with_reducible apply linkEvent_keeps h
    | with_reducible apply plainWrite_keeps h
    | with_reducible apply ite_keeps

theorem execAuxNativeWrite_keeps (h : Keeps P) (p : Fin 8) (w : World) (v : Word) {s : State} (hs : P s) {t' : State}
    (e : execAuxNativeWrite p w v s = .next t') : P t' := by
  unfold execAuxNativeWrite at e
  injection e with e
  subst e
  repeat' first
    | with_reducible assumption
    | intro _
    | with_reducible apply asWriter_keeps h
    | with_reducible apply auxCmd_keeps h

theorem execAuxNativeRead_keeps (h : Keeps P) (p : Fin 8) (w : World) (v : Word) {s : State} (hs : P s) {t' : State}
    (e : execAuxNativeRead p w v s = .next t') : P t' := by
  unfold execAuxNativeRead at e
  injection e with e
  subst e
  repeat' first
    | with_reducible assumption
    | intro _
    | with_reducible apply asWriter_keeps h
    | with_reducible apply auxCmd_keeps h

theorem execAuxI2cWrite_keeps (h : Keeps P) (p : Fin 8) (w : World) (v : Word) {s : State} (hs : P s) {t' : State}
    (e : execAuxI2cWrite p w v s = .next t') : P t' := by
  unfold execAuxI2cWrite at e
  injection e with e
  subst e
  repeat' first
    | with_reducible assumption
    | intro _
    | with_reducible apply asWriter_keeps h
    | with_reducible apply auxCmd_keeps h

theorem execAuxI2cRead_keeps (h : Keeps P) (p : Fin 8) (w : World) (v : Word) {s : State} (hs : P s) {t' : State}
    (e : execAuxI2cRead p w v s = .next t') : P t' := by
  unfold execAuxI2cRead at e
  injection e with e
  subst e
  repeat' first
    | with_reducible assumption
    | intro _
    | with_reducible apply asWriter_keeps h
    | with_reducible apply auxCmd_keeps h

theorem execAuxI2cWriteMot_keeps (h : Keeps P) (p : Fin 8) (w : World) (v : Word) {s : State} (hs : P s) {t' : State}
    (e : execAuxI2cWriteMot p w v s = .next t') : P t' := by
  unfold execAuxI2cWriteMot at e
  injection e with e
  subst e
  repeat' first
    | with_reducible assumption
    | intro _
    | with_reducible apply asWriter_keeps h
    | with_reducible apply auxCmd_keeps h

theorem execAuxI2cReadMot_keeps (h : Keeps P) (p : Fin 8) (w : World) (v : Word) {s : State} (hs : P s) {t' : State}
    (e : execAuxI2cReadMot p w v s = .next t') : P t' := by
  unfold execAuxI2cReadMot at e
  injection e with e
  subst e
  repeat' first
    | with_reducible assumption
    | intro _
    | with_reducible apply asWriter_keeps h
    | with_reducible apply auxCmd_keeps h

theorem execI2cWrite_keeps (h : Keeps P) (p : Fin 8) (w : World) (v : Word) {s : State} (hs : P s) {t' : State}
    (e : execI2cWrite p w v s = .next t') : P t' := by
  unfold execI2cWrite at e
  injection e with e
  subst e
  repeat' first
    | with_reducible assumption
    | intro _
    | with_reducible apply asWriter_keeps h
    | with_reducible apply auxCmd_keeps h

theorem execI2cRead_keeps (h : Keeps P) (p : Fin 8) (w : World) (v : Word) {s : State} (hs : P s) {t' : State}
    (e : execI2cRead p w v s = .next t') : P t' := by
  unfold execI2cRead at e
  injection e with e
  subst e
  repeat' first
    | with_reducible assumption
    | intro _
    | with_reducible apply asWriter_keeps h
    | with_reducible apply auxCmd_keeps h

theorem execI2cWriteRead_keeps (h : Keeps P) (p : Fin 8) (w : World) (v : Word) {s : State} (hs : P s) {t' : State}
    (e : execI2cWriteRead p w v s = .next t') : P t' := by
  unfold execI2cWriteRead at e
  injection e with e
  subst e
  repeat' first
    | with_reducible assumption
    | intro _
    | with_reducible apply asWriter_keeps h
    | with_reducible apply auxCmd_keeps h

theorem auxDefer_keeps (h : Keeps P) {s : State} (p : Nat) (hs : P s) : P (State.auxDefer s p) := by
  unfold State.auxDefer
  repeat' first
    | with_reducible assumption
    | intro _
    | with_reducible apply setPort_keeps h
    | with_reducible apply ite_keeps

theorem execAuxDeferRetry_keeps (h : Keeps P) (p : Fin 8) {s : State} (hs : P s) {t' : State}
    (e : execAuxDeferRetry p s = .next t') : P t' := by
  unfold execAuxDeferRetry at e
  injection e with e
  subst e
  repeat' first
    | with_reducible assumption
    | intro _
    | with_reducible apply auxDefer_keeps h

theorem putData_keeps (h : Keeps P) {s : State} (hs : P s) (base : Nat → Nat) (i : Nat) (bs : List Byte) :
    P (s.putData base i bs) := by
  induction bs generalizing s i with
  | nil => exact hs
  | cons b bs ih => exact ih (h.reg _ _ hs) (i + 1)

theorem auxEnd_keeps (h : Keeps P) {s : State} (p : Nat) (i2c : Bool) (reply : Nat) (moved : Nat) (data : List Byte) (hs : P s) : P (State.auxEnd s p i2c reply moved data) := by
  unfold State.auxEnd
  repeat' first
    | with_reducible assumption
    | intro _
    | (extract_lets +onlyGivenNames u; refine (fun (_ : P u) => ?_) ?_; (on_goal 1 => clear_value u); (on_goal 2 => subst u))
    | (extract_lets +onlyGivenNames u; clear_value u)
    | with_reducible apply count_keeps h
    | with_reducible apply putData_keeps h
    | with_reducible apply set_keeps h
    | with_reducible apply ite_keeps

theorem execAuxTransactionEnd_keeps (h : Keeps P) (p : Fin 8) (i2c : Bool) (reply : Fin 3) (moved : Fin 17) (data : List Byte) {s : State} (hs : P s) {t' : State}
    (e : execAuxTransactionEnd p i2c reply moved data s = .next t') : P t' := by
  unfold execAuxTransactionEnd at e
  injection e with e
  subst e
  repeat' first
    | with_reducible assumption
    | intro _
    | with_reducible apply auxEnd_keeps h

theorem auxTimeout_keeps (h : Keeps P) {s : State} (p : Nat) (i2c : Bool) (hs : P s) : P (State.auxTimeout s p i2c) := by
  unfold State.auxTimeout
  repeat' first
    | with_reducible assumption
    | intro _
    | with_reducible apply count_keeps h
    | with_reducible apply set_keeps h
    | with_reducible apply ite_keeps

theorem execAuxTimeout_keeps (h : Keeps P) (p : Fin 8) (i2c : Bool) {s : State} (hs : P s) {t' : State}
    (e : execAuxTimeout p i2c s = .next t') : P t' := by
  unfold execAuxTimeout at e
  injection e with e
  subst e
  repeat' first
    | with_reducible assumption
    | intro _
    | with_reducible apply auxTimeout_keeps h

theorem vddRise_keeps (h : Keeps P) {s : State} (p : Nat) (hs : P s) : P (State.vddRise s p) := by
  unfold State.vddRise
  repeat' first
    | with_reducible assumption
    | intro _
    | with_reducible apply set_keeps h
    | with_reducible apply setPort_keeps h

theorem panelWrite_keeps (h : Keeps P) {s : State} (p : Nat) (v : Word) (rested : Bool) (hs : P s) : P (State.panelWrite s p v rested) := by
  unfold State.panelWrite
  repeat' first
    | with_reducible assumption
    | intro _
    | (extract_lets +onlyGivenNames u; refine (fun (_ : P u) => ?_) ?_; (on_goal 1 => clear_value u); (on_goal 2 => subst u))
    | (extract_lets +onlyGivenNames u; clear_value u)
    | with_reducible apply blLow_keeps h
    | with_reducible apply linkEvent_keeps h
    | with_reducible apply plainWrite_keeps h
    | with_reducible apply setPort_keeps h
    | with_reducible apply vddRise_keeps h
    | with_reducible apply ite_keeps

theorem execPanelOn_keeps (h : Keeps P) (p : Fin 8) (w : World) (v : Word) (rested : Bool) {s : State} (hs : P s) {t' : State}
    (e : execPanelOn p w v rested s = .next t') : P t' := by
  unfold execPanelOn at e
  injection e with e
  subst e
  repeat' first
    | with_reducible assumption
    | intro _
    | with_reducible apply asWriter_keeps h
    | with_reducible apply panelWrite_keeps h

theorem execPanelOff_keeps (h : Keeps P) (p : Fin 8) (w : World) (v : Word) {s : State} (hs : P s) {t' : State}
    (e : execPanelOff p w v s = .next t') : P t' := by
  unfold execPanelOff at e
  injection e with e
  subst e
  repeat' first
    | with_reducible assumption
    | intro _
    | with_reducible apply asWriter_keeps h
    | with_reducible apply panelWrite_keeps h

theorem execBlOn_keeps (h : Keeps P) (p : Fin 8) (w : World) (v : Word) {s : State} (hs : P s) {t' : State}
    (e : execBlOn p w v s = .next t') : P t' := by
  unfold execBlOn at e
  injection e with e
  subst e
  repeat' first
    | with_reducible assumption
    | intro _
    | with_reducible apply asWriter_keeps h
    | with_reducible apply panelWrite_keeps h

theorem execBlOff_keeps (h : Keeps P) (p : Fin 8) (w : World) (v : Word) {s : State} (hs : P s) {t' : State}
    (e : execBlOff p w v s = .next t') : P t' := by
  unfold execBlOff at e
  injection e with e
  subst e
  repeat' first
    | with_reducible assumption
    | intro _
    | with_reducible apply asWriter_keeps h
    | with_reducible apply panelWrite_keeps h

theorem execPanelVddRise_keeps (h : Keeps P) (p : Fin 8) {s : State} (hs : P s) {t' : State}
    (e : execPanelVddRise p s = .next t') : P t' := by
  unfold execPanelVddRise at e
  injection e with e
  subst e
  repeat' first
    | with_reducible assumption
    | intro _
    | with_reducible apply vddRise_keeps h
    | with_reducible apply ite_keeps

theorem execPanelHpdTimeout_keeps (h : Keeps P) (p : Fin 8) {s : State} (hs : P s) {t' : State}
    (e : execPanelHpdTimeout p s = .next t') : P t' := by
  unfold execPanelHpdTimeout at e
  injection e with e
  subst e
  repeat' first
    | with_reducible assumption
    | intro _
    | with_reducible apply event_keeps h
    | with_reducible apply setPort_keeps h
    | with_reducible apply ite_keeps

theorem powerDownStep_keeps (h : Keeps P) {s : State} (p : Nat) (hs : P s) : P (State.powerDownStep s p) := by
  unfold State.powerDownStep
  repeat' first
    | with_reducible assumption
    | intro _
    | (extract_lets +onlyGivenNames u; clear_value u)
    | with_reducible apply linkDown_keeps h
    | with_reducible apply set_keeps h
    | with_reducible apply setPort_keeps h
    | with_reducible apply ite_keeps

theorem execPanelPowerDownStep_keeps (h : Keeps P) (p : Fin 8) {s : State} (hs : P s) {t' : State}
    (e : execPanelPowerDownStep p s = .next t') : P t' := by
  unfold execPanelPowerDownStep at e
  injection e with e
  subst e
  repeat' first
    | with_reducible assumption
    | intro _
    | with_reducible apply powerDownStep_keeps h

theorem execBlEnableDelay_keeps (h : Keeps P) (p : Fin 8) {s : State} (hs : P s) {t' : State}
    (e : execBlEnableDelay p s = .next t') : P t' := by
  unfold execBlEnableDelay at e
  injection e with e
  subst e
  repeat' first
    | with_reducible assumption
    | intro _
    | with_reducible apply set_keeps h
    | with_reducible apply ite_keeps

theorem execBlPwmPeriod_keeps (h : Keeps P) (p : Fin 8) {s : State} (hs : P s) {t' : State}
    (e : execBlPwmPeriod p s = .next t') : P t' := by
  unfold execBlPwmPeriod at e
  injection e with e
  subst e
  repeat' first
    | with_reducible assumption
    | intro _
    | with_reducible apply pwmStart_keeps h

/-! ### Protected -/

theorem execProtCommitGo_keeps (h : Keeps P) (n : Fin 8) (w : World) (v : Word) {s : State} (hs : P s) {t' : State}
    (e : execProtCommitGo n w v s = .next t') : P t' := by
  unfold execProtCommitGo at e
  injection e with e
  subst e
  repeat' first
    | with_reducible assumption
    | intro _
    | with_reducible apply asWriter_keeps h
    | with_reducible apply protCommit_keeps h

theorem execProtCommitCancel_keeps (h : Keeps P) (n : Fin 8) (w : World) (v : Word) {s : State} (hs : P s) {t' : State}
    (e : execProtCommitCancel n w v s = .next t') : P t' := by
  unfold execProtCommitCancel at e
  injection e with e
  subst e
  repeat' first
    | with_reducible assumption
    | intro _
    | with_reducible apply asWriter_keeps h
    | with_reducible apply protCommit_keeps h

theorem vouch_keeps (h : Keeps P) {s : State} (n : Nat) (v : Word) (hs : P s) : P (State.vouch s n v) := by
  unfold State.vouch
  repeat' first
    | with_reducible assumption
    | intro _
    | with_reducible apply protEvent_keeps h
    | with_reducible apply set_keeps h
    | with_reducible apply setReg_keeps h
    | with_reducible apply ite_keeps

theorem execVouch_keeps (h : Keeps P) (n : Fin 8) (w : World) (v : Word) {s : State} (hs : P s) {t' : State}
    (e : execVouch n w v s = .next t') : P t' := by
  unfold execVouch at e
  injection e with e
  subst e
  repeat' first
    | with_reducible assumption
    | intro _
    | with_reducible apply asWriter_keeps h
    | with_reducible apply vouch_keeps h

theorem sxtTest_keeps (h : Keeps P) {s : State} (k : Nat) (hs : P s) : P (State.sxtTest s k) := by
  unfold State.sxtTest
  repeat' first
    | with_reducible assumption
    | intro _
    | (extract_lets +onlyGivenNames u; clear_value u)
    | with_reducible apply set_keeps h
    | with_reducible apply ite_keeps
    | simp only [↓mk_iff h]

theorem sxtTestWrite_keeps (h : Keeps P) {s : State} (k : Nat) (v : Word) (hs : P s) : P (State.sxtTestWrite s k v) := by
  unfold State.sxtTestWrite
  repeat' first
    | with_reducible assumption
    | intro _
    | (extract_lets +onlyGivenNames u; refine (fun (_ : P u) => ?_) ?_; (on_goal 1 => clear_value u); (on_goal 2 => subst u))
    | with_reducible apply plainWrite_keeps h
    | with_reducible apply sxtTest_keeps h
    | with_reducible apply ite_keeps

theorem execSxtSelftest_keeps (h : Keeps P) (k : Fin 2) (w : World) (v : Word) {s : State} (hs : P s) {t' : State}
    (e : execSxtSelftest k w v s = .next t') : P t' := by
  unfold execSxtSelftest at e
  injection e with e
  subst e
  repeat' first
    | with_reducible assumption
    | intro _
    | with_reducible apply asWriter_keeps h
    | with_reducible apply sxtTestWrite_keeps h

theorem sxtTestDone_keeps (h : KeepsMem P) {s : State} (k : Nat) (pass : Bool) (hs : P s) : P (State.sxtTestDone s k pass) := by
  unfold State.sxtTestDone
  repeat' first
    | with_reducible assumption
    | intro _
    | (extract_lets +onlyGivenNames u; refine (fun (_ : P u) => ?_) ?_; (on_goal 1 => clear_value u); (on_goal 2 => subst u))
    | (extract_lets +onlyGivenNames u; clear_value u)
    | with_reducible apply fellSince_keeps h.toKeeps
    | with_reducible apply inOrder_keeps h.toKeeps
    | with_reducible apply noSextant_keeps h
    | with_reducible apply raiseFault_keeps h
    | with_reducible apply raiseIrq_keeps h.toKeeps
    | with_reducible apply set_keeps h.toKeeps
    | with_reducible apply sextantOut_keeps h.toKeeps
    | with_reducible apply ite_keeps
    | simp only [↓mk_iff h.toKeeps]
    | split

theorem execSxtSelftestDone_keeps (h : KeepsMem P) (k : Fin 2) (pass : Bool) {s : State} (hs : P s) {t' : State}
    (e : execSxtSelftestDone k pass s = .next t') : P t' := by
  unfold execSxtSelftestDone at e
  injection e with e
  subst e
  repeat' first
    | with_reducible assumption
    | intro _
    | with_reducible apply sxtTestDone_keeps h

theorem execSxtTileRowArrive_keeps (h : KeepsMem P) (n : Fin 8) (k : Fin 4) (y : Fin 2880) (t : Fin 40) {s : State} (hs : P s) {t' : State}
    (e : execSxtTileRowArrive n k y t s = .next t') : P t' := by
  unfold execSxtTileRowArrive at e
  injection e with e
  subst e
  repeat' first
    | with_reducible assumption
    | intro _
    | with_reducible apply tileArrive_keeps h
    | with_reducible apply ite_keeps

theorem execSxtLockstepFail_keeps (h : KeepsMem P) (k : Fin 2) {s : State} (hs : P s) {t' : State}
    (e : execSxtLockstepFail k s = .next t') : P t' := by
  unfold execSxtLockstepFail at e
  injection e with e
  subst e
  repeat' first
    | with_reducible assumption
    | intro _
    | with_reducible apply lockstepFail_keeps h

theorem cmpTestWrite_keeps (h : Keeps P) {s : State} (p : Nat) (v : Word) (hs : P s) : P (State.cmpTestWrite s p v) := by
  unfold State.cmpTestWrite
  repeat' first
    | with_reducible assumption
    | intro _
    | (extract_lets +onlyGivenNames u; refine (fun (_ : P u) => ?_) ?_; (on_goal 1 => clear_value u); (on_goal 2 => subst u))
    | with_reducible apply plainWrite_keeps h
    | with_reducible apply set_keeps h
    | with_reducible apply ite_keeps

theorem execCmpTest_keeps (h : Keeps P) (p : Fin 8) (w : World) (v : Word) {s : State} (hs : P s) {t' : State}
    (e : execCmpTest p w v s = .next t') : P t' := by
  unfold execCmpTest at e
  injection e with e
  subst e
  repeat' first
    | with_reducible assumption
    | intro _
    | with_reducible apply asWriter_keeps h
    | with_reducible apply cmpTestWrite_keeps h

theorem cmpTestRun_keeps (h : Keeps P) {s : State} (p : Nat) (pass : Bool) (hs : P s) : P (State.cmpTestRun s p pass) := by
  unfold State.cmpTestRun
  repeat' first
    | with_reducible assumption
    | intro _
    | (extract_lets +onlyGivenNames u; clear_value u)
    | with_reducible apply set_keeps h
    | with_reducible apply ite_keeps

theorem execCmpTestRun_keeps (h : Keeps P) (p : Fin 8) (pass : Bool) {s : State} (hs : P s) {t' : State}
    (e : execCmpTestRun p pass s = .next t') : P t' := by
  unfold execCmpTestRun at e
  injection e with e
  subst e
  repeat' first
    | with_reducible assumption
    | intro _
    | with_reducible apply cmpTestRun_keeps h

theorem harbWrite_keeps (h : Keeps P) {s : State} (p : Nat) (v : Word) (hs : P s) : P (State.harbWrite s p v) := by
  unfold State.harbWrite
  repeat' first
    | with_reducible assumption
    | intro _
    | (extract_lets +onlyGivenNames u; refine (fun (_ : P u) => ?_) ?_; (on_goal 1 => clear_value u); (on_goal 2 => subst u))
    | (extract_lets +onlyGivenNames u; clear_value u)
    | with_reducible apply plainWrite_keeps h
    | with_reducible apply raiseIrq_keeps h
    | with_reducible apply setPort_keeps h
    | with_reducible apply ite_keeps

theorem execHarbourForce_keeps (h : Keeps P) (p : Fin 8) (w : World) (v : Word) {s : State} (hs : P s) {t' : State}
    (e : execHarbourForce p w v s = .next t') : P t' := by
  unfold execHarbourForce at e
  injection e with e
  subst e
  repeat' first
    | with_reducible assumption
    | intro _
    | with_reducible apply asWriter_keeps h
    | with_reducible apply harbWrite_keeps h

/-! ### SideOps -/

theorem eccEvent_keeps (h : Keeps P) {s : State} (n : Nat) (flag : Fld) (hs : P s) : P (State.eccEvent s n flag) := by
  unfold State.eccEvent
  repeat' first
    | with_reducible assumption
    | intro _
    | with_reducible apply event_keeps h

theorem freezeEvent_keeps (h : Keeps P) {s : State} (n : Nat) (flag : Fld) (hs : P s) : P (State.freezeEvent s n flag) := by
  unfold State.freezeEvent
  repeat' first
    | with_reducible assumption
    | intro _
    | with_reducible apply event_keeps h

theorem reply_keeps (h : Keeps P) {s : State} (r : Reply) (hs : P s) : P (State.reply s r) := by
  unfold State.reply
  repeat' first
    | with_reducible assumption
    | intro _
    | with_reducible apply ite_keeps
    | simp only [↓mk_iff h]

theorem readPiece_keeps (h : Keeps P) {s : State} (m : Master) (mirrored : Bool) (n : Nat) (base : Nat) (tag : Option Nat) (p : Nat × Nat) (hs : P s) : P (State.readPiece s m mirrored n base tag p) := by
  unfold State.readPiece
  repeat' first
    | with_reducible assumption
    | intro _
    | (extract_lets +onlyGivenNames u; refine (fun (_ : P u) => ?_) ?_; (on_goal 1 => clear_value u); (on_goal 2 => subst u))
    | (extract_lets +onlyGivenNames u; clear_value u)
    | with_reducible apply accept_keeps h
    | with_reducible apply ite_keeps
    | simp only [↓mk_iff h]

theorem queueRead_keeps (h : Keeps P) {s : State} (m : Master) (a : Nat) (len : Nat) (tag : Option Nat) (hs : P s) : P (State.queueRead s m a len tag) := by
  unfold State.queueRead
  repeat' first
    | with_reducible assumption
    | intro _
    | with_reducible apply each_keeps
    | with_reducible apply readPiece_keeps h
    | with_reducible apply ite_keeps
    | simp only [↓mk_iff h]
    | split

theorem ceRow_keeps (h : KeepsMem P) {s : State} (n : Nat) (ch : Nat) (bank : Nat) (row : Nat) (hs : P s) : P (State.ceRow s n ch bank row) := by
  unfold State.ceRow
  repeat' first
    | with_reducible assumption
    | intro _
    | (extract_lets +onlyGivenNames u; refine (fun (_ : P u) => ?_) ?_; (on_goal 1 => clear_value u); (on_goal 2 => subst u))
    | (extract_lets +onlyGivenNames u; clear_value u)
    | with_reducible apply count_keeps h.toKeeps
    | with_reducible apply eccEvent_keeps h.toKeeps
    | with_reducible apply raiseFault_keeps h
    | with_reducible apply set_keeps h.toKeeps
    | with_reducible apply ite_keeps
    | simp only [↓mk_iff h.toKeeps]
    | with_reducible apply foldlSnd_keeps
    | with_reducible apply foldl_keeps
    | split

theorem captureQueue_keeps (h : Keeps P) {s : State} (n : Nat) (base : Nat) (q : List (Nat × MemReq)) (hs : P s) : P (State.captureQueue s n base q) := by
  unfold State.captureQueue
  repeat' first
    | with_reducible assumption
    | intro _
    | (extract_lets +onlyGivenNames u; clear_value u)
    | with_reducible apply each_keeps
    | with_reducible apply setReg_keeps h

theorem resolveSide_keeps (h : Keeps P) {s : State} (n : Nat) (hs : P s) : P (State.resolveSide s n) := by
  unfold State.resolveSide
  repeat' first
    | with_reducible assumption
    | intro _
    | (extract_lets +onlyGivenNames u; refine (fun (_ : P u) => ?_) ?_; (on_goal 1 => clear_value u); (on_goal 2 => subst u))
    | (extract_lets +onlyGivenNames u; clear_value u)
    | with_reducible apply accept_keeps h
    | with_reducible apply each_keeps
    | with_reducible apply markDirty_keeps h
    | with_reducible apply reply_keeps h
    | with_reducible apply setChan_keeps h
    | with_reducible apply ite_keeps
    | simp only [↓mk_iff h]

theorem engineStop_keeps (h : Keeps P) {s : State} (n : Nat) (hs : P s) : P (State.engineStop s n) := by
  unfold State.engineStop
  repeat' first
    | with_reducible assumption
    | intro _
    | with_reducible apply setSide_keeps h
    | with_reducible apply ite_keeps

theorem freezeSide_keeps (h : KeepsMem P) {s : State} (n : Nat) (cause : Nat) (line : Option Nat) (srOk : Bool) (hs : P s) : P (State.freezeSide s n cause line srOk) := by
  unfold State.freezeSide
  repeat' first
    | with_reducible assumption
    | intro _
    | (extract_lets +onlyGivenNames u; refine (fun (_ : P u) => ?_) ?_; (on_goal 1 => clear_value u); (on_goal 2 => subst u))
    | (extract_lets +onlyGivenNames u; clear_value u)
    | with_reducible apply captureQueue_keeps h.toKeeps
    | with_reducible apply count_keeps h.toKeeps
    | with_reducible apply engineStop_keeps h.toKeeps
    | with_reducible apply inOrder_keeps h.toKeeps
    | with_reducible apply raiseFault_keeps h
    | with_reducible apply raiseIrq_keeps h.toKeeps
    | with_reducible apply resolveSide_keeps h.toKeeps
    | with_reducible apply set_keeps h.toKeeps
    | with_reducible apply setSide_keeps h.toKeeps
    | with_reducible apply ite_keeps

theorem allDirty_keeps (h : Keeps P) {s : State} (n : Nat) (hs : P s) : P (State.allDirty s n) := by
  unfold State.allDirty
  repeat' first
    | with_reducible assumption
    | intro _
    | with_reducible apply each_keeps
    | with_reducible apply markDirty_keeps h

theorem linkFixed_keeps (h : Keeps P) {s : State} (n : Nat) (read : Nat) (write : Nat) (hs : P s) : P (State.linkFixed s n read write) := by
  unfold State.linkFixed
  repeat' first
    | with_reducible assumption
    | intro _
    | with_reducible apply count_keeps h

theorem eccRead_keeps (h : KeepsMem P) {s : State} (n : Nat) (off : Nat) (ecc : EccResult) (srOk : Bool) (hs : P s) : P (State.eccRead s n off ecc srOk) := by
  unfold State.eccRead
  repeat' first
    | with_reducible assumption
    | intro _
    | (extract_lets +onlyGivenNames u; clear_value u)
    | with_reducible apply ceRow_keeps h
    | with_reducible apply eccEvent_keeps h.toKeeps
    | with_reducible apply freezeSide_keeps h
    | with_reducible apply ite_keeps
    | simp only [↓mk_iff h.toKeeps]
    | split

theorem rowDisturb_keeps (h : KeepsMem P) {s : State} (n : Nat) (ch : Nat) (bank : Nat) (row : Nat) (port : Nat) (hs : P s) : P (State.rowDisturb s n ch bank row port) := by
  unfold State.rowDisturb
  repeat' first
    | with_reducible assumption
    | intro _
    | (extract_lets +onlyGivenNames u; refine (fun (_ : P u) => ?_) ?_; (on_goal 1 => clear_value u); (on_goal 2 => subst u))
    | (extract_lets +onlyGivenNames u; clear_value u)
    | with_reducible apply count_keeps h.toKeeps
    | with_reducible apply raiseFault_keeps h
    | with_reducible apply set_keeps h.toKeeps
    | with_reducible apply setChan_keeps h.toKeeps

theorem activate_keeps (h : KeepsMem P) {s : State} (n : Nat) (ch : Nat) (bank : Nat) (row : Nat) (port : Nat) (hs : P s) : P (State.activate s n ch bank row port) := by
  unfold State.activate
  repeat' first
    | with_reducible assumption
    | intro _
    | (extract_lets +onlyGivenNames u; clear_value u)
    | with_reducible apply rowDisturb_keeps h
    | with_reducible apply setChan_keeps h.toKeeps
    | with_reducible apply ite_keeps

theorem countBreach_keeps (h : Keeps P) {s : State} (r : MemReq) (hs : P s) : P (State.countBreach s r) := by
  unfold State.countBreach
  repeat' first
    | with_reducible assumption
    | intro _
    | with_reducible apply count_keeps h
    | with_reducible apply ite_keeps

theorem recoveryBreach_keeps (h : Keeps P) {s : State} (n : Nat) (ch : Nat) (rank : Nat) (hs : P s) : P (State.recoveryBreach s n ch rank) := by
  unfold State.recoveryBreach
  repeat' first
    | with_reducible assumption
    | intro _
    | (extract_lets +onlyGivenNames u; refine (fun (_ : P u) => ?_) ?_; (on_goal 1 => clear_value u); (on_goal 2 => subst u))
    | (extract_lets +onlyGivenNames u; clear_value u)
    | with_reducible apply breach_keeps h
    | with_reducible apply countBreach_keeps h
    | with_reducible apply each_keeps
    | with_reducible apply setChan_keeps h
    | with_reducible apply ite_keeps
    | simp only [↓mk_iff h]
    | with_reducible apply foldlSnd_keeps
    | with_reducible apply foldl_keeps
    | split

theorem refreshIssue_keeps (h : Keeps P) {s : State} (n : Nat) (ch : Nat) (bank : Nat) (hs : P s) : P (State.refreshIssue s n ch bank) := by
  unfold State.refreshIssue
  repeat' first
    | with_reducible assumption
    | intro _
    | (extract_lets +onlyGivenNames u; refine (fun (_ : P u) => ?_) ?_; (on_goal 1 => clear_value u); (on_goal 2 => subst u))
    | (extract_lets +onlyGivenNames u; clear_value u)
    | with_reducible apply recoveryBreach_keeps h
    | with_reducible apply setChan_keeps h
    | with_reducible apply ite_keeps

theorem neighbourIssue_keeps (h : Keeps P) {s : State} (n : Nat) (ch : Nat) (hs : P s) : P (State.neighbourIssue s n ch) := by
  unfold State.neighbourIssue
  repeat' first
    | with_reducible assumption
    | intro _
    | (extract_lets +onlyGivenNames u; clear_value u)
    | with_reducible apply count_keeps h
    | with_reducible apply setChan_keeps h
    | with_reducible apply ite_keeps
    | simp only [↓mk_iff h]
    | split

theorem requestIssue_keeps (h : KeepsMem P) {s : State} (n : Nat) (ch : Nat) (r : MemReq) (ecc : EccResult) (srOk : Bool) (hs : P s) : P (State.requestIssue s n ch r ecc srOk) := by
  unfold State.requestIssue
  repeat' first
    | with_reducible assumption
    | intro _
    | (extract_lets +onlyGivenNames u; refine (fun (_ : P u) => ?_) ?_; (on_goal 1 => clear_value u); (on_goal 2 => subst u))
    | (extract_lets +onlyGivenNames u; clear_value u)
    | with_reducible apply activate_keeps h
    | with_reducible apply eccRead_keeps h
    | with_reducible apply inOrder_keeps h.toKeeps
    | with_reducible apply raiseTo_keeps h.toKeeps
    | with_reducible apply setChan_keeps h.toKeeps
    | with_reducible apply ite_keeps

theorem schedule_keeps (h : KeepsMem P) {s : State} (n : Nat) (ch : Nat) (ns : Nat) (bank : Option Nat) (ecc : LineEcc) (srOk : Bool) (hs : P s) : P (State.schedule s n ch ns bank ecc srOk) := by
  unfold State.schedule
  repeat' first
    | with_reducible assumption
    | intro _
    | (extract_lets +onlyGivenNames u; refine (fun (_ : P u) => ?_) ?_; (on_goal 1 => clear_value u); (on_goal 2 => subst u))
    | (extract_lets +onlyGivenNames u; clear_value u)
    | with_reducible apply linkFixed_keeps h.toKeeps
    | with_reducible apply neighbourIssue_keeps h.toKeeps
    | with_reducible apply refreshIssue_keeps h.toKeeps
    | with_reducible apply requestIssue_keeps h
    | with_reducible apply setChan_keeps h.toKeeps
    | with_reducible apply ite_keeps
    | split

theorem trainLanes_keeps (h : Keeps P) {s : State} (n : Nat) (lanes : List (Nat × Nat)) (hs : P s) : P (State.trainLanes s n lanes).1 := by
  unfold State.trainLanes
  repeat' first
    | with_reducible assumption
    | intro _
    | (extract_lets +onlyGivenNames u; refine (fun (_ : P u) => ?_) ?_; (on_goal 1 => clear_value u); (on_goal 2 => subst u))
    | (extract_lets +onlyGivenNames u; clear_value u)
    | with_reducible apply each_keeps
    | with_reducible apply set_keeps h
    | with_reducible apply setReg_keeps h

/-! ### MemSides -/

theorem readReturn_keeps (h : KeepsMem P) {s : State} (n : Nat) (ch : Nat) (id : Nat) (ecc : EccResult) (link : Nat) (ns : Nat) (srOk : Bool) (hs : P s) : P (State.readReturn s n ch id ecc link ns srOk) := by
  unfold State.readReturn
  repeat' first
    | with_reducible assumption
    | intro _
    | (extract_lets +onlyGivenNames u; refine (fun (_ : P u) => ?_) ?_; (on_goal 1 => clear_value u); (on_goal 2 => subst u))
    | (extract_lets +onlyGivenNames u; clear_value u)
    | with_reducible apply count_keeps h.toKeeps
    | with_reducible apply eccRead_keeps h
    | with_reducible apply raiseTo_keeps h.toKeeps
    | with_reducible apply reply_keeps h.toKeeps
    | with_reducible apply setChan_keeps h.toKeeps
    | with_reducible apply ite_keeps
    | split

theorem execDramReadReturn_keeps (h : KeepsMem P) (n : Side) (ch : Fin 8) (id : Nat) (ecc : EccResult) (link : Nat) (ns : Nat) (srOk : Bool) {s : State} (hs : P s) {t' : State}
    (e : execDramReadReturn n ch id ecc link ns srOk s = .next t') : P t' := by
  unfold execDramReadReturn at e
  injection e with e
  subst e
  repeat' first
    | with_reducible assumption
    | intro _
    | with_reducible apply readReturn_keeps h

theorem execCaParityError_keeps (h : KeepsMem P) (n : Side) (srOk : Bool) {s : State} (hs : P s) {t' : State}
    (e : execCaParityError n srOk s = .next t') : P t' := by
  unfold execCaParityError at e
  injection e with e
  subst e
  repeat' first
    | with_reducible assumption
    | intro _
    | with_reducible apply freezeSide_keeps h
    | with_reducible apply ite_keeps

theorem mirrorWrite_keeps (h : Keeps P) {s : State} (k : Nat) (size : Bool) (v : Word) (hs : P s) : P (State.mirrorWrite s k size v) := by
  unfold State.mirrorWrite
  repeat' first
    | with_reducible assumption
    | intro _
    | (extract_lets +onlyGivenNames u; clear_value u)
    | with_reducible apply event_keeps h
    | with_reducible apply plainWrite_keeps h
    | with_reducible apply ite_keeps

theorem execMirrorEntryWrite_keeps (h : Keeps P) (w : World) (k : Fin 32) (size : Bool) (v : Word) {s : State} (hs : P s) {t' : State}
    (e : execMirrorEntryWrite w k size v s = .next t') : P t' := by
  unfold execMirrorEntryWrite at e
  injection e with e
  subst e
  repeat' first
    | with_reducible assumption
    | intro _
    | with_reducible apply asWriter_keeps h
    | with_reducible apply mirrorWrite_keeps h

theorem pprRun_keeps (h : Keeps P) {s : State} (n : Nat) (ok : Nat) (hs : P s) : P (State.pprRun s n ok) := by
  unfold State.pprRun
  repeat' first
    | with_reducible assumption
    | intro _
    | with_reducible apply each_keeps
    | with_reducible apply set_keeps h
    | with_reducible apply ite_keeps

theorem trainDoneSide_keeps (h : KeepsMem P) {s : State} (n : Nat) (lanes : List (Nat × Nat)) (verify : Bool) (ppr : Nat) (srOk : Bool) (hs : P s) : P (State.trainDoneSide s n lanes verify ppr srOk) := by
  unfold State.trainDoneSide
  repeat' first
    | with_reducible assumption
    | intro _
    | (extract_lets +onlyGivenNames u; refine (fun (_ : P u) => ?_) ?_; (on_goal 1 => clear_value u); (on_goal 2 => subst u))
    | with_reducible apply allDirty_keeps h.toKeeps
    | with_reducible apply freezeSide_keeps h
    | with_reducible apply pprRun_keeps h.toKeeps
    | with_reducible apply set_keeps h.toKeeps
    | with_reducible apply trainLanes_keeps h.toKeeps
    | with_reducible apply ite_keeps

theorem initDone_keeps (h : KeepsMem P) {s : State} (n : Nat) (hs : P s) : P (State.initDone s n) := by
  unfold State.initDone
  repeat' first
    | with_reducible assumption
    | intro _
    | with_reducible apply keepSide_keeps h
    | with_reducible apply set_keeps h.toKeeps
    | with_reducible apply ite_keeps

theorem dqsTrack_keeps (h : KeepsMem P) {s : State} (n : Nat) (ch : Nat) (d : List (Int × Int)) (hs : P s) : P (State.dqsTrack s n ch d) := by
  unfold State.dqsTrack
  repeat' first
    | with_reducible assumption
    | intro _
    | (extract_lets +onlyGivenNames u; refine (fun (_ : P u) => ?_) ?_; (on_goal 1 => clear_value u); (on_goal 2 => subst u))
    | (extract_lets +onlyGivenNames u; clear_value u)
    | with_reducible apply each_keeps
    | with_reducible apply raiseFault_keeps h
    | with_reducible apply set_keeps h.toKeeps
    | with_reducible apply setSide_keeps h.toKeeps
    | with_reducible apply ite_keeps

theorem execDqsTrack_keeps (h : KeepsMem P) (n : Side) (ch : Fin 8) (rd0 : BitVec 8) (wr0 : BitVec 8) (rd1 : BitVec 8) (wr1 : BitVec 8) {s : State} (hs : P s) {t' : State}
    (e : execDqsTrack n ch rd0 wr0 rd1 wr1 s = .next t') : P t' := by
  unfold execDqsTrack at e
  injection e with e
  subst e
  repeat' first
    | with_reducible assumption
    | intro _
    | with_reducible apply dqsTrack_keeps h

theorem refreshDue_keeps (h : Keeps P) {s : State} (n : Nat) (ch : Nat) (hs : P s) : P (State.refreshDue s n ch) := by
  unfold State.refreshDue
  repeat' first
    | with_reducible assumption
    | intro _
    | (extract_lets +onlyGivenNames u; refine (fun (_ : P u) => ?_) ?_; (on_goal 1 => clear_value u); (on_goal 2 => subst u))
    | (extract_lets +onlyGivenNames u; clear_value u)
    | with_reducible apply breach_keeps h
    | with_reducible apply raiseTo_keeps h
    | with_reducible apply setChan_keeps h
    | with_reducible apply ite_keeps

theorem execRefreshDue_keeps (h : Keeps P) (n : Side) (ch : Fin 8) {s : State} (hs : P s) {t' : State}
    (e : execRefreshDue n ch s = .next t') : P t' := by
  unfold execRefreshDue at e
  injection e with e
  subst e
  repeat' first
    | with_reducible assumption
    | intro _
    | with_reducible apply refreshDue_keeps h

theorem execMr4Poll_keeps (h : Keeps P) (n : Side) (ch : Fin 8) {s : State} (hs : P s) {t' : State}
    (e : execMr4Poll n ch s = .next t') : P t' := by
  unfold execMr4Poll at e
  injection e with e
  subst e
  repeat' first
    | with_reducible assumption
    | intro _
    | with_reducible apply setChan_keeps h
    | with_reducible apply ite_keeps

theorem setRate2x_keeps (h : Keeps P) {s : State} (n : Nat) (ch : Nat) (b : Bool) (hs : P s) : P (State.setRate2x s n ch b) := by
  unfold State.setRate2x
  repeat' first
    | with_reducible assumption
    | intro _
    | (extract_lets +onlyGivenNames u; clear_value u)
    | with_reducible apply set_keeps h

theorem mr4Result_keeps (h : KeepsMem P) {s : State} (n : Nat) (ch : Nat) (band : TempBand) (srOk : Bool) (hs : P s) : P (State.mr4Result s n ch band srOk) := by
  unfold State.mr4Result
  repeat' first
    | with_reducible assumption
    | intro _
    | (extract_lets +onlyGivenNames u; refine (fun (_ : P u) => ?_) ?_; (on_goal 1 => clear_value u); (on_goal 2 => subst u))
    | (extract_lets +onlyGivenNames u; clear_value u)
    | with_reducible apply count_keeps h.toKeeps
    | with_reducible apply freezeSide_keeps h
    | with_reducible apply raiseTo_keeps h.toKeeps
    | with_reducible apply setChan_keeps h.toKeeps
    | with_reducible apply setRate2x_keeps h.toKeeps
    | with_reducible apply ite_keeps
    | simp only [↓mk_iff h.toKeeps]
    | split

theorem execMr4Result_keeps (h : KeepsMem P) (n : Side) (ch : Fin 8) (band : TempBand) (srOk : Bool) {s : State} (hs : P s) {t' : State}
    (e : execMr4Result n ch band srOk s = .next t') : P t' := by
  unfold execMr4Result at e
  injection e with e
  subst e
  repeat' first
    | with_reducible assumption
    | intro _
    | with_reducible apply mr4Result_keeps h

theorem execChannelSchedule_keeps (h : KeepsMem P) (n : Side) (ch : Fin 8) (ns : Nat) (bank : Option (Fin 16)) (ecc : LineEcc) (srOk : Bool) {s : State} (hs : P s) {t' : State}
    (e : execChannelSchedule n ch ns bank ecc srOk s = .next t') : P t' := by
  unfold execChannelSchedule at e
  injection e with e
  subst e
  repeat' first
    | with_reducible assumption
    | intro _
    | with_reducible apply schedule_keeps h

theorem execRhWindowEnd_keeps (h : Keeps P) (n : Side) (ch : Fin 8) {s : State} (hs : P s) {t' : State}
    (e : execRhWindowEnd n ch s = .next t') : P t' := by
  unfold execRhWindowEnd at e
  injection e with e
  subst e
  repeat' first
    | with_reducible assumption
    | intro _
    | with_reducible apply setChan_keeps h

theorem urgencyRise_keeps (h : Keeps P) {s : State} (n : Nat) (ch : Nat) (id : Nat) (ns : Nat) (hs : P s) : P (State.urgencyRise s n ch id ns) := by
  unfold State.urgencyRise
  repeat' first
    | with_reducible assumption
    | intro _
    | (extract_lets +onlyGivenNames u; clear_value u)
    | with_reducible apply setChan_keeps h

theorem execUrgencyRise_keeps (h : Keeps P) (n : Side) (ch : Fin 8) (id : Nat) (ns : Nat) {s : State} (hs : P s) {t' : State}
    (e : execUrgencyRise n ch id ns s = .next t') : P t' := by
  unfold execUrgencyRise at e
  injection e with e
  subst e
  repeat' first
    | with_reducible assumption
    | intro _
    | with_reducible apply urgencyRise_keeps h

theorem targetExpiry_keeps (h : Keeps P) {s : State} (n : Nat) (ch : Nat) (id : Nat) (ns : Nat) (hs : P s) : P (State.targetExpiry s n ch id ns) := by
  unfold State.targetExpiry
  repeat' first
    | with_reducible assumption
    | intro _
    | (extract_lets +onlyGivenNames u; refine (fun (_ : P u) => ?_) ?_; (on_goal 1 => clear_value u); (on_goal 2 => subst u))
    | (extract_lets +onlyGivenNames u; refine (fun (_ : P u.2) => ?_) ?_; (on_goal 1 => clear_value u); (on_goal 2 => subst u))
    | (extract_lets +onlyGivenNames u; clear_value u)
    | with_reducible apply breach_keeps h
    | with_reducible apply countBreach_keeps h
    | with_reducible apply setChan_keeps h
    | with_reducible apply ite_keeps
    | simp only [↓mk_iff h]
    | split

theorem execTargetExpiry_keeps (h : Keeps P) (n : Side) (ch : Fin 8) (id : Nat) (ns : Nat) {s : State} (hs : P s) {t' : State}
    (e : execTargetExpiry n ch id ns s = .next t') : P t' := by
  unfold execTargetExpiry at e
  injection e with e
  subst e
  repeat' first
    | with_reducible assumption
    | intro _
    | with_reducible apply targetExpiry_keeps h

theorem qosClr_keeps (h : Keeps P) {s : State} (p : Nat) (v : Word) (hs : P s) : P (State.qosClr s p v) := by
  unfold State.qosClr
  repeat' first
    | with_reducible assumption
    | intro _
    | with_reducible apply set_keeps h
    | with_reducible apply ite_keeps

theorem execQosClr_keeps (h : Keeps P) (p : Fin 40) (w : World) (v : Word) {s : State} (hs : P s) {t' : State}
    (e : execQosClr p w v s = .next t') : P t' := by
  unfold execQosClr at e
  injection e with e
  subst e
  repeat' first
    | with_reducible assumption
    | intro _
    | with_reducible apply asWriter_keeps h
    | with_reducible apply qosClr_keeps h

theorem freezeCtrlWrite_keeps (h : Keeps P) {s : State} (n : Nat) (v : Word) (hs : P s) : P (State.freezeCtrlWrite s n v) := by
  unfold State.freezeCtrlWrite
  repeat' first
    | with_reducible assumption
    | intro _
    | (extract_lets +onlyGivenNames u; refine (fun (_ : P u) => ?_) ?_; (on_goal 1 => clear_value u); (on_goal 2 => subst u))
    | (extract_lets +onlyGivenNames u; clear_value u)
    | with_reducible apply freezeEvent_keeps h
    | with_reducible apply plainWrite_keeps h
    | with_reducible apply set_keeps h
    | with_reducible apply setSide_keeps h
    | with_reducible apply ite_keeps

theorem execSideRelease_keeps (h : Keeps P) (n : Side) (w : World) (v : Word) {s : State} (hs : P s) {t' : State}
    (e : execSideRelease n w v s = .next t') : P t' := by
  unfold execSideRelease at e
  injection e with e
  subst e
  repeat' first
    | with_reducible assumption
    | intro _
    | with_reducible apply asWriter_keeps h
    | with_reducible apply freezeCtrlWrite_keeps h

theorem sideActive_keeps (h : Keeps P) {s : State} (n : Nat) (hs : P s) : P (State.sideActive s n) := by
  unfold State.sideActive
  repeat' first
    | with_reducible assumption
    | intro _
    | (extract_lets +onlyGivenNames u; refine (fun (_ : P u) => ?_) ?_; (on_goal 1 => clear_value u); (on_goal 2 => subst u))
    | (extract_lets +onlyGivenNames u; clear_value u)
    | with_reducible apply liveFell_keeps h
    | with_reducible apply set_keeps h
    | with_reducible apply setSide_keeps h

theorem resyncStart_keeps (h : KeepsMem P) {s : State} (n : Nat) (hs : P s) : P (State.resyncStart s n) := by
  unfold State.resyncStart
  repeat' first
    | with_reducible assumption
    | intro _
    | (extract_lets +onlyGivenNames u; refine (fun (_ : P u) => ?_) ?_; (on_goal 1 => clear_value u); (on_goal 2 => subst u))
    | (extract_lets +onlyGivenNames u; clear_value u)
    | with_reducible apply each_keeps
    | with_reducible apply keepSide_keeps h
    | with_reducible apply set_keeps h.toKeeps
    | with_reducible apply setReg_keeps h.toKeeps
    | with_reducible apply setSide_keeps h.toKeeps
    | with_reducible apply sideActive_keeps h.toKeeps
    | with_reducible apply ite_keeps

theorem retrainDone_keeps (h : KeepsMem P) {s : State} (n : Nat) (lanes : List (Nat × Nat)) (verify : Bool) (hs : P s) : P (State.retrainDone s n lanes verify) := by
  unfold State.retrainDone
  repeat' first
    | with_reducible assumption
    | intro _
    | (extract_lets +onlyGivenNames u; refine (fun (_ : P u) => ?_) ?_; (on_goal 1 => clear_value u); (on_goal 2 => subst u))
    | (extract_lets +onlyGivenNames u; clear_value u)
    | with_reducible apply freezeEvent_keeps h.toKeeps
    | with_reducible apply resyncStart_keeps h
    | with_reducible apply set_keeps h.toKeeps
    | with_reducible apply setSide_keeps h.toKeeps
    | with_reducible apply trainLanes_keeps h.toKeeps
    | with_reducible apply ite_keeps

theorem execSideRetrainDone_keeps (h : KeepsMem P) (n : Side) (lanes : List (BitVec 128 × BitVec 128)) (verify : Bool) {s : State} (hs : P s) {t' : State}
    (e : execSideRetrainDone n lanes verify s = .next t') : P t' := by
  unfold execSideRetrainDone at e
  injection e with e
  subst e
  repeat' first
    | with_reducible assumption
    | intro _
    | with_reducible apply retrainDone_keeps h

theorem copyClock_keeps (h : KeepsMem P) {s : State} (n : Nat) (hs : P s) : P (State.copyClock s n) := by
  unfold State.copyClock
  repeat' first
    | with_reducible assumption
    | intro _
    | (extract_lets +onlyGivenNames u; refine (fun (_ : P u) => ?_) ?_; (on_goal 1 => clear_value u); (on_goal 2 => subst u))
    | (extract_lets +onlyGivenNames u; clear_value u)
    | with_reducible apply putSide_keeps h
    | with_reducible apply setSide_keeps h.toKeeps
    | with_reducible apply ite_keeps
    | simp only [↓mk_iff h.toKeeps]
    | split

theorem granuleDone_keeps (h : KeepsMem P) {s : State} (n : Nat) (g : Nat) (hs : P s) : P (State.granuleDone s n g) := by
  unfold State.granuleDone
  repeat' first
    | with_reducible assumption
    | intro _
    | (extract_lets +onlyGivenNames u; refine (fun (_ : P u) => ?_) ?_; (on_goal 1 => clear_value u); (on_goal 2 => subst u))
    | (extract_lets +onlyGivenNames u; clear_value u)
    | with_reducible apply each_keeps
    | with_reducible apply keepSide_keeps h
    | with_reducible apply set_keeps h.toKeeps
    | with_reducible apply setReg_keeps h.toKeeps
    | with_reducible apply setSide_keeps h.toKeeps
    | with_reducible apply setSideByte_keeps h
    | with_reducible apply sideActive_keeps h.toKeeps
    | with_reducible apply ite_keeps

theorem execResyncGranuleDone_keeps (h : KeepsMem P) (n : Side) (g : BitVec 13) {s : State} (hs : P s) {t' : State}
    (e : execResyncGranuleDone n g s = .next t') : P t' := by
  unfold execResyncGranuleDone at e
  injection e with e
  subst e
  repeat' first
    | with_reducible assumption
    | intro _
    | with_reducible apply granuleDone_keeps h

theorem execPatrolScrub_keeps (h : KeepsMem P) (n : Side) (off : BitVec 34) (ecc : LineEcc) (srOk : Bool) {s : State} (hs : P s) {t' : State}
    (e : execPatrolScrub n off ecc srOk s = .next t') : P t' := by
  unfold execPatrolScrub at e
  injection e with e
  subst e
  repeat' first
    | with_reducible assumption
    | intro _
    | with_reducible apply eccRead_keeps h
    | with_reducible apply linkFixed_keeps h.toKeeps
    | with_reducible apply ite_keeps

/-! ### Layers -/

theorem bindWrite_keeps (h : Keeps P) {s : State} (n : Nat) (v : Word) (hs : P s) : P (State.bindWrite s n v) := by
  unfold State.bindWrite
  repeat' first
    | with_reducible assumption
    | intro _
    | with_reducible apply count_keeps h
    | with_reducible apply plainWrite_keeps h
    | with_reducible apply set_keeps h
    | with_reducible apply ite_keeps

theorem execLayerBindWrite_keeps (h : Keeps P) (n : Fin 64) (w : World) (v : Word) {s : State} (hs : P s) {t' : State}
    (e : execLayerBindWrite n w v s = .next t') : P t' := by
  unfold execLayerBindWrite at e
  injection e with e
  subst e
  repeat' first
    | with_reducible assumption
    | intro _
    | with_reducible apply asWriter_keeps h
    | with_reducible apply bindWrite_keeps h

theorem execLayerCommitGo_keeps (h : Keeps P) (d : LayerDoor) (v : Word) {s : State} (hs : P s) {t' : State}
    (e : execLayerCommitGo d v s = .next t') : P t' := by
  unfold execLayerCommitGo at e
  injection e with e
  subst e
  repeat' first
    | with_reducible assumption
    | intro _
    | with_reducible apply layCommit_keeps h
    | with_reducible apply throughDoor_keeps h

theorem execLayerCommitCancel_keeps (h : Keeps P) (d : LayerDoor) (v : Word) {s : State} (hs : P s) {t' : State}
    (e : execLayerCommitCancel d v s = .next t') : P t' := by
  unfold execLayerCommitCancel at e
  injection e with e
  subst e
  repeat' first
    | with_reducible assumption
    | intro _
    | with_reducible apply layCommit_keeps h
    | with_reducible apply throughDoor_keeps h

theorem execTableLoadDone_keeps (h : Keeps P) (o : TableOwner) {s : State} (hs : P s) {t' : State}
    (e : execTableLoadDone o s = .next t') : P t' := by
  unfold execTableLoadDone at e
  injection e with e
  subst e
  repeat' first
    | with_reducible assumption
    | intro _
    | with_reducible apply layTables_keeps h
    | with_reducible apply protTables_keeps h
    | with_reducible apply ite_keeps
    | simp only [↓mk_iff h]
    | split

theorem vinEvent_keeps (h : Keeps P) {s : State} (n : Nat) (flag : Fld) (hs : P s) : P (State.vinEvent s n flag) := by
  unfold State.vinEvent
  repeat' first
    | with_reducible assumption
    | intro _
    | with_reducible apply event_keeps h

theorem vinCtrlWrite_keeps (h : Keeps P) {s : State} (n : Nat) (v : Word) (hs : P s) : P (State.vinCtrlWrite s n v) := by
  unfold State.vinCtrlWrite
  repeat' first
    | with_reducible assumption
    | intro _
    | (extract_lets +onlyGivenNames u; clear_value u)
    | with_reducible apply plainWrite_keeps h
    | with_reducible apply setVin_keeps h
    | with_reducible apply vinEvent_keeps h
    | with_reducible apply ite_keeps

theorem execVinEnable_keeps (h : Keeps P) (n : Fin 4) (w : World) (v : Word) {s : State} (hs : P s) {t' : State}
    (e : execVinEnable n w v s = .next t') : P t' := by
  unfold execVinEnable at e
  injection e with e
  subst e
  repeat' first
    | with_reducible assumption
    | intro _
    | with_reducible apply asWriter_keeps h
    | with_reducible apply vinCtrlWrite_keeps h

theorem vinDiscard_keeps (h : Keeps P) {s : State} (n : Nat) (hs : P s) : P (State.vinDiscard s n) := by
  unfold State.vinDiscard
  repeat' first
    | with_reducible assumption
    | intro _
    | (extract_lets +onlyGivenNames u; refine (fun (_ : P u) => ?_) ?_; (on_goal 1 => clear_value u); (on_goal 2 => subst u))
    | (extract_lets +onlyGivenNames u; clear_value u)
    | with_reducible apply count_keeps h
    | with_reducible apply setVin_keeps h
    | with_reducible apply vinEvent_keeps h
    | with_reducible apply when_keeps

theorem vinStart_keeps (h : Keeps P) {s : State} (n : Nat) (vc : Nat) (hs : P s) : P (State.vinStart s n vc) := by
  unfold State.vinStart
  repeat' first
    | with_reducible assumption
    | intro _
    | (extract_lets +onlyGivenNames u; refine (fun (_ : P u) => ?_) ?_; (on_goal 1 => clear_value u); (on_goal 2 => subst u))
    | (extract_lets +onlyGivenNames u; clear_value u)
    | with_reducible apply draw_keeps h
    | with_reducible apply setVin_keeps h
    | with_reducible apply vinDiscard_keeps h
    | with_reducible apply ite_keeps
    | split

theorem execVinFrameStart_keeps (h : Keeps P) (n : Fin 4) (vc : BitVec 2) {s : State} (hs : P s) {t' : State}
    (e : execVinFrameStart n vc s = .next t') : P t' := by
  unfold execVinFrameStart at e
  injection e with e
  subst e
  repeat' first
    | with_reducible assumption
    | intro _
    | with_reducible apply vinStart_keeps h

theorem vinLine_keeps (h : KeepsMem P) {s : State} (n : Nat) (vc : Nat) (dt : Nat) (header : EccResult) (payload : List Byte) (crcOk : Bool) (late : Option Nat) (hs : P s) : P (State.vinLine s n vc dt header payload crcOk late) := by
  unfold State.vinLine
  repeat' first
    | with_reducible assumption
    | intro _
    | (extract_lets +onlyGivenNames u; refine (fun (_ : P u) => ?_) ?_; (on_goal 1 => clear_value u); (on_goal 2 => subst u))
    | (extract_lets +onlyGivenNames u; refine (fun (_ : P u.2) => ?_) ?_; (on_goal 1 => clear_value u); (on_goal 2 => subst u))
    | (extract_lets +onlyGivenNames u; clear_value u)
    | with_reducible apply breach_keeps h.toKeeps
    | with_reducible apply count_keeps h.toKeeps
    | with_reducible apply dmaWrite_keeps h
    | with_reducible apply setVin_keeps h.toKeeps
    | with_reducible apply vinDiscard_keeps h.toKeeps
    | with_reducible apply ite_keeps
    | simp only [↓mk_iff h.toKeeps]
    | split

theorem execVinLinePacket_keeps (h : KeepsMem P) (n : Fin 4) (vc : BitVec 2) (dt : BitVec 6) (header : EccResult) (payload : List Byte) (crcOk : Bool) (late : Option Nat) {s : State} (hs : P s) {t' : State}
    (e : execVinLinePacket n vc dt header payload crcOk late s = .next t') : P t' := by
  unfold execVinLinePacket at e
  injection e with e
  subst e
  repeat' first
    | with_reducible assumption
    | intro _
    | with_reducible apply vinLine_keeps h

theorem vinEnd_keeps (h : Keeps P) {s : State} (n : Nat) (vc : Nat) (hs : P s) : P (State.vinEnd s n vc) := by
  unfold State.vinEnd
  repeat' first
    | with_reducible assumption
    | intro _
    | (extract_lets +onlyGivenNames u; refine (fun (_ : P u) => ?_) ?_; (on_goal 1 => clear_value u); (on_goal 2 => subst u))
    | (extract_lets +onlyGivenNames u; refine (fun (_ : P u.2) => ?_) ?_; (on_goal 1 => clear_value u); (on_goal 2 => subst u))
    | (extract_lets +onlyGivenNames u; clear_value u)
    | with_reducible apply set_keeps h
    | with_reducible apply setVin_keeps h
    | with_reducible apply vinDiscard_keeps h
    | with_reducible apply ite_keeps
    | simp only [↓mk_iff h]
    | split

theorem execVinFrameEnd_keeps (h : Keeps P) (n : Fin 4) (vc : BitVec 2) {s : State} (hs : P s) {t' : State}
    (e : execVinFrameEnd n vc s = .next t') : P t' := by
  unfold execVinFrameEnd at e
  injection e with e
  subst e
  repeat' first
    | with_reducible assumption
    | intro _
    | with_reducible apply vinEnd_keeps h

theorem execVinNoSignal_keeps (h : Keeps P) (n : Fin 4) {s : State} (hs : P s) {t' : State}
    (e : execVinNoSignal n s = .next t') : P t' := by
  unfold execVinNoSignal at e
  injection e with e
  subst e
  repeat' first
    | with_reducible assumption
    | intro _
    | with_reducible apply set_keeps h

end

end Sys2Proof.Machine
end

