-- ==== Sys2Proof/Laws/KeepGuests.lean ====
section
/-! SUPPORT. What is kept: guest ports, haptics, the clock and log, and the session page. -/

namespace Sys2Proof.Machine

section
variable {P : State → Prop}

/-! ### Guest -/

theorem fillBucket_keeps (h : Keeps P) {s : State} (n : Nat) (hs : P s) : P (State.fillBucket s n) := by
  unfold State.fillBucket
  repeat' first
    | with_reducible assumption
    | intro _
    | with_reducible apply setSes_keeps h

theorem resetShadows_keeps (h : Keeps P) {s : State} (l : Nat) (hs : P s) : P (State.resetShadows s l) := by
  unfold State.resetShadows
  repeat' first
    | with_reducible assumption
    | intro _
    | (extract_lets +onlyGivenNames u; refine (fun (_ : P u) => ?_) ?_; (on_goal 1 => clear_value u); (on_goal 2 => subst u))
    | with_reducible apply each_keeps
    | with_reducible apply resetReg_keeps h

theorem pageReset_keeps (h : Keeps P) {s : State} (n : Nat) (hs : P s) : P (State.pageReset s n) := by
  unfold State.pageReset
  repeat' first
    | with_reducible assumption
    | intro _
    | (extract_lets +onlyGivenNames u; refine (fun (_ : P u) => ?_) ?_; (on_goal 1 => clear_value u); (on_goal 2 => subst u))
    | (extract_lets +onlyGivenNames u; clear_value u)
    | with_reducible apply count_keeps h
    | with_reducible apply each_keeps
    | with_reducible apply resetRange_keeps h
    | with_reducible apply resetShadows_keeps h
    | with_reducible apply set_keeps h
    | with_reducible apply setSes_keeps h

theorem dropIngress_keeps (h : Keeps P) {s : State} (n : Nat) (hs : P s) : P (State.dropIngress s n) := by
  unfold State.dropIngress
  repeat' first
    | with_reducible assumption
    | intro _
    | (extract_lets +onlyGivenNames u; clear_value u)
    | with_reducible apply set_keeps h
    | with_reducible apply setFunc_keeps h

theorem detach_keeps (h : Keeps P) {s : State} (n : Nat) (hs : P s) : P (State.detach s n) := by
  unfold State.detach
  repeat' first
    | with_reducible assumption
    | intro _
    | (extract_lets +onlyGivenNames u; refine (fun (_ : P u) => ?_) ?_; (on_goal 1 => clear_value u); (on_goal 2 => subst u))
    | (extract_lets +onlyGivenNames u; clear_value u)
    | with_reducible apply dropIngress_keeps h
    | with_reducible apply each_keeps
    | with_reducible apply hapDetach_keeps h
    | with_reducible apply layReject_keeps h
    | with_reducible apply pageReset_keeps h
    | with_reducible apply sessEvent_keeps h
    | with_reducible apply set_keeps h
    | with_reducible apply setLay_keeps h
    | with_reducible apply ite_keeps

theorem attach_keeps (h : Keeps P) {s : State} (n : Nat) (hs : P s) : P (State.attach s n) := by
  unfold State.attach
  repeat' first
    | with_reducible assumption
    | intro _
    | with_reducible apply fillBucket_keeps h
    | with_reducible apply set_keeps h

theorem attachWrite_keeps (h : Keeps P) {s : State} (n : Nat) (hs : P s) : P (State.attachWrite s n) := by
  unfold State.attachWrite
  repeat' first
    | with_reducible assumption
    | intro _
    | with_reducible apply attach_keeps h
    | with_reducible apply detach_keeps h
    | with_reducible apply ite_keeps

theorem attachCheck_keeps (h : Keeps P) {s : State} (n : Nat) (hs : P s) : P (State.attachCheck s n) := by
  unfold State.attachCheck
  repeat' first
    | with_reducible assumption
    | intro _
    | (extract_lets +onlyGivenNames u; clear_value u)
    | with_reducible apply attach_keeps h
    | with_reducible apply detach_keeps h
    | with_reducible apply ite_keeps

theorem attachPort_keeps (h : Keeps P) {s : State} (p : Nat) (hs : P s) : P (State.attachPort s p) := by
  unfold State.attachPort
  repeat' first
    | with_reducible assumption
    | intro _
    | with_reducible apply attachCheck_keeps h
    | with_reducible apply each_keeps

theorem gpEvent_keeps (h : Keeps P) {s : State} (p : Nat) (flag : Fld) (hs : P s) : P (State.gpEvent s p flag) := by
  unfold State.gpEvent
  repeat' first
    | with_reducible assumption
    | intro _
    | with_reducible apply event_keeps h

theorem funcReset_keeps (h : Keeps P) {s : State} (p : Nat) (f : Nat) (held : Bool) (hs : P s) : P (State.funcReset s p f held) := by
  unfold State.funcReset
  repeat' first
    | with_reducible assumption
    | intro _
    | with_reducible apply setFunc_keeps h

theorem setVfs_keeps (h : Keeps P) {s : State} (p : Nat) (k : Nat) (hs : P s) : P (State.setVfs s p k) := by
  unfold State.setVfs
  repeat' first
    | with_reducible assumption
    | intro _
    | (extract_lets +onlyGivenNames u; refine (fun (_ : P u) => ?_) ?_; (on_goal 1 => clear_value u); (on_goal 2 => subst u))
    | (extract_lets +onlyGivenNames u; clear_value u)
    | with_reducible apply attachPort_keeps h
    | with_reducible apply each_keeps
    | with_reducible apply funcReset_keeps h
    | with_reducible apply set_keeps h

theorem gpDown_keeps (h : Keeps P) {s : State} (p : Nat) (l2 : Bool) (hs : P s) : P (State.gpDown s p l2) := by
  unfold State.gpDown
  repeat' first
    | with_reducible assumption
    | intro _
    | (extract_lets +onlyGivenNames u; refine (fun (_ : P u) => ?_) ?_; (on_goal 1 => clear_value u); (on_goal 2 => subst u))
    | with_reducible apply attachPort_keeps h
    | with_reducible apply gpEvent_keeps h
    | with_reducible apply set_keeps h
    | with_reducible apply ite_keeps

theorem execGpLinkDown_keeps (h : Keeps P) (p : Fin 4) (l2 : Bool) {s : State} (hs : P s) {t' : State}
    (e : execGpLinkDown p l2 s = .next t') : P t' := by
  unfold execGpLinkDown at e
  injection e with e
  subst e
  repeat' first
    | with_reducible assumption
    | intro _
    | with_reducible apply gpDown_keeps h

theorem gpUp_keeps (h : Keeps P) {s : State} (p : Nat) (speed : Nat) (width : Nat) (hs : P s) : P (State.gpUp s p speed width) := by
  unfold State.gpUp
  repeat' first
    | with_reducible assumption
    | intro _
    | (extract_lets +onlyGivenNames u; refine (fun (_ : P u) => ?_) ?_; (on_goal 1 => clear_value u); (on_goal 2 => subst u))
    | (extract_lets +onlyGivenNames u; clear_value u)
    | with_reducible apply attachPort_keeps h
    | with_reducible apply each_keeps
    | with_reducible apply set_keeps h
    | with_reducible apply setFunc_keeps h
    | with_reducible apply ite_keeps

theorem execGpLinkUp_keeps (h : Keeps P) (p : Fin 4) (speed : Fin 4) (width : Fin 3) {s : State} (hs : P s) {t' : State}
    (e : execGpLinkUp p speed width s = .next t') : P t' := by
  unfold execGpLinkUp at e
  injection e with e
  subst e
  repeat' first
    | with_reducible assumption
    | intro _
    | with_reducible apply gpUp_keeps h

theorem flr_keeps (h : Keeps P) {s : State} (p : Nat) (f : Nat) (hs : P s) : P (State.flr s p f) := by
  unfold State.flr
  repeat' first
    | with_reducible assumption
    | intro _
    | (extract_lets +onlyGivenNames u; refine (fun (_ : P u) => ?_) ?_; (on_goal 1 => clear_value u); (on_goal 2 => subst u))
    | (extract_lets +onlyGivenNames u; clear_value u)
    | with_reducible apply attachPort_keeps h
    | with_reducible apply funcReset_keeps h
    | with_reducible apply gpEvent_keeps h
    | with_reducible apply setFunc_keeps h
    | with_reducible apply setVfs_keeps h
    | with_reducible apply ite_keeps

theorem execFlr_keeps (h : Keeps P) (p : Fin 4) (f : Fin 16) {s : State} (hs : P s) {t' : State}
    (e : execFlr p f s = .next t') : P t' := by
  unfold execFlr at e
  injection e with e
  subst e
  repeat' first
    | with_reducible assumption
    | intro _
    | with_reducible apply flr_keeps h

theorem perst_keeps (h : Keeps P) {s : State} (p : Nat) (hs : P s) : P (State.perst s p) := by
  unfold State.perst
  repeat' first
    | with_reducible assumption
    | intro _
    | (extract_lets +onlyGivenNames u; refine (fun (_ : P u) => ?_) ?_; (on_goal 1 => clear_value u); (on_goal 2 => subst u))
    | with_reducible apply attachPort_keeps h
    | with_reducible apply each_keeps
    | with_reducible apply funcReset_keeps h
    | with_reducible apply gpDown_keeps h
    | with_reducible apply set_keeps h
    | with_reducible apply setVfs_keeps h

theorem execPerstAssert_keeps (h : Keeps P) (p : Fin 4) {s : State} (hs : P s) {t' : State}
    (e : execPerstAssert p s = .next t') : P t' := by
  unfold execPerstAssert at e
  injection e with e
  subst e
  repeat' first
    | with_reducible assumption
    | intro _
    | with_reducible apply perst_keeps h

theorem gpCtrlWrite_keeps (h : Keeps P) {s : State} (p : Nat) (v : Word) (hs : P s) : P (State.gpCtrlWrite s p v) := by
  unfold State.gpCtrlWrite
  repeat' first
    | with_reducible assumption
    | intro _
    | (extract_lets +onlyGivenNames u; refine (fun (_ : P u) => ?_) ?_; (on_goal 1 => clear_value u); (on_goal 2 => subst u))
    | (extract_lets +onlyGivenNames u; clear_value u)
    | with_reducible apply gpDown_keeps h
    | with_reducible apply plainWrite_keeps h
    | with_reducible apply set_keeps h
    | with_reducible apply ite_keeps

theorem execGpRelease_keeps (h : Keeps P) (p : Fin 4) (w : World) (v : Word) {s : State} (hs : P s) {t' : State}
    (e : execGpRelease p w v s = .next t') : P t' := by
  unfold execGpRelease at e
  injection e with e
  subst e
  repeat' first
    | with_reducible assumption
    | intro _
    | with_reducible apply asWriter_keeps h
    | with_reducible apply gpCtrlWrite_keeps h

theorem msixFlush_keeps (h : Keeps P) {s : State} (f : Nat) (hs : P s) : P (State.msixFlush s f) := by
  unfold State.msixFlush
  repeat' first
    | with_reducible assumption
    | intro _
    | (extract_lets +onlyGivenNames u; clear_value u)
    | with_reducible apply each_keeps
    | with_reducible apply msixSend_keeps h
    | with_reducible apply setFunc_keeps h
    | with_reducible apply ite_keeps

theorem hostReply_keeps (h : Keeps P) {s : State} (r : Reply) (hs : P s) : P (State.hostReply s r) := by
  unfold State.hostReply
  repeat' first
    | with_reducible assumption
    | intro _
    | with_reducible apply ite_keeps
    | simp only [↓mk_iff h]

theorem configWord_keeps (h : Keeps P) {s : State} (p : Nat) (f : Nat) (off : Nat) (hs : P s) : P (State.configWord s p f off).2 := by
  unfold State.configWord
  repeat' first
    | with_reducible assumption
    | intro _
    | (extract_lets +onlyGivenNames u; clear_value u)
    | with_reducible apply draw_keeps h
    | with_reducible apply ite_keeps
    | simp only [↓mk_iff h]
    | split

theorem vfWrite_keeps (h : Keeps P) {s : State} (p : Nat) (on : Bool) (k : Nat) (hs : P s) : P (State.vfWrite s p on k) := by
  unfold State.vfWrite
  repeat' first
    | with_reducible assumption
    | intro _
    | with_reducible apply setFunc_keeps h
    | with_reducible apply setVfs_keeps h
    | with_reducible apply ite_keeps

theorem msixControl_keeps (h : Keeps P) {s : State} (f : Nat) (on : Bool) (mask : Bool) (hs : P s) : P (State.msixControl s f on mask) := by
  unfold State.msixControl
  repeat' first
    | with_reducible assumption
    | intro _
    | with_reducible apply msixFlush_keeps h
    | with_reducible apply setFunc_keeps h

theorem barWrite_keeps (h : Keeps P) {s : State} (key : Nat) (k : Nat) (v : Word) (hs : P s) : P (State.barWrite s key k v) := by
  unfold State.barWrite
  repeat' first
    | with_reducible assumption
    | intro _
    | with_reducible apply setFunc_keeps h

theorem configWrite_keeps (h : Keeps P) {s : State} (p : Nat) (f : Nat) (off : Nat) (v : Word) (hs : P s) : P (State.configWrite s p f off v) := by
  unfold State.configWrite
  repeat' first
    | with_reducible assumption
    | intro _
    | (extract_lets +onlyGivenNames u; clear_value u)
    | with_reducible apply barWrite_keeps h
    | with_reducible apply msixControl_keeps h
    | with_reducible apply setFunc_keeps h
    | with_reducible apply vfWrite_keeps h
    | with_reducible apply when_keeps
    | with_reducible apply ite_keeps

theorem configRequest_keeps (h : Keeps P) {s : State} (p : Nat) (f : Nat) (r : CfgReq) (hs : P s) : P (State.configRequest s p f r) := by
  unfold State.configRequest
  repeat' first
    | with_reducible assumption
    | intro _
    | (extract_lets +onlyGivenNames u; refine (fun (_ : P u) => ?_) ?_; (on_goal 1 => clear_value u); (on_goal 2 => subst u))
    | (extract_lets +onlyGivenNames u; clear_value u)
    | with_reducible apply configWord_keeps h
    | with_reducible apply configWrite_keeps h
    | with_reducible apply hostReply_keeps h
    | with_reducible apply msixControl_keeps h
    | with_reducible apply vfWrite_keeps h
    | with_reducible apply when_keeps
    | with_reducible apply ite_keeps
    | simp only [↓mk_iff h]
    | split

theorem execConfigRequest_keeps (h : Keeps P) (p : Fin 4) (f : Fin 16) (r : CfgReq) {s : State} (hs : P s) {t' : State}
    (e : execConfigRequest p f r s = .next t') : P t' := by
  unfold execConfigRequest at e
  injection e with e
  subst e
  repeat' first
    | with_reducible assumption
    | intro _
    | with_reducible apply configRequest_keeps h

theorem sessCtrlWrite_keeps (h : Keeps P) {s : State} (n : Nat) (v : Word) (hs : P s) : P (State.sessCtrlWrite s n v) := by
  unfold State.sessCtrlWrite
  repeat' first
    | with_reducible assumption
    | intro _
    | (extract_lets +onlyGivenNames u; refine (fun (_ : P u) => ?_) ?_; (on_goal 1 => clear_value u); (on_goal 2 => subst u))
    | (extract_lets +onlyGivenNames u; clear_value u)
    | with_reducible apply attachWrite_keeps h
    | with_reducible apply plainWrite_keeps h
    | with_reducible apply sessEvent_keeps h
    | with_reducible apply set_keeps h
    | with_reducible apply ite_keeps

theorem execSessionCtrlWrite_keeps (h : Keeps P) (n : Fin 256) (w : World) (v : Word) {s : State} (hs : P s) {t' : State}
    (e : execSessionCtrlWrite n w v s = .next t') : P t' := by
  unfold execSessionCtrlWrite at e
  injection e with e
  subst e
  repeat' first
    | with_reducible assumption
    | intro _
    | with_reducible apply asWriter_keeps h
    | with_reducible apply sessCtrlWrite_keeps h

theorem quotaWrite_keeps (h : Keeps P) {s : State} (n : Nat) (v : Word) (hs : P s) : P (State.quotaWrite s n v) := by
  unfold State.quotaWrite
  repeat' first
    | with_reducible assumption
    | intro _
    | with_reducible apply fillBucket_keeps h
    | with_reducible apply plainWrite_keeps h
    | with_reducible apply ite_keeps

theorem execQuotaWrite_keeps (h : Keeps P) (n : Fin 256) (w : World) (v : Word) {s : State} (hs : P s) {t' : State}
    (e : execQuotaWrite n w v s = .next t') : P t' := by
  unfold execQuotaWrite at e
  injection e with e
  subst e
  repeat' first
    | with_reducible assumption
    | intro _
    | with_reducible apply asWriter_keeps h
    | with_reducible apply quotaWrite_keeps h

theorem winRefuse_keeps (h : Keeps P) {s : State} (n : Nat) (code : Nat) (hs : P s) : P (State.winRefuse s n code) := by
  unfold State.winRefuse
  repeat' first
    | with_reducible assumption
    | intro _
    | with_reducible apply sessEvent_keeps h
    | with_reducible apply set_keeps h

theorem winCtrlWrite_keeps (h : Keeps P) {s : State} (n : Nat) (k : Nat) (v : Word) (hs : P s) : P (State.winCtrlWrite s n k v) := by
  unfold State.winCtrlWrite
  repeat' first
    | with_reducible assumption
    | intro _
    | (extract_lets +onlyGivenNames u; clear_value u)
    | with_reducible apply plainWrite_keeps h
    | with_reducible apply set_keeps h
    | with_reducible apply winRefuse_keeps h
    | with_reducible apply ite_keeps
    | simp only [↓mk_iff h]
    | split

theorem winWrite_keeps (h : Keeps P) {s : State} (n : Nat) (k : Nat) (r : WinReg) (v : Word) (hs : P s) : P (State.winWrite s n k r v) := by
  unfold State.winWrite
  repeat' first
    | with_reducible assumption
    | intro _
    | (extract_lets +onlyGivenNames u; clear_value u)
    | with_reducible apply plainWrite_keeps h
    | with_reducible apply winCtrlWrite_keeps h
    | with_reducible apply winRefuse_keeps h
    | with_reducible apply ite_keeps
    | simp only [↓mk_iff h]
    | split

theorem execSessWinWrite_keeps (h : Keeps P) (n : Fin 256) (k : Fin 16) (r : WinReg) (w : World) (v : Word) {s : State} (hs : P s) {t' : State}
    (e : execSessWinWrite n k r w v s = .next t') : P t' := by
  unfold execSessWinWrite at e
  injection e with e
  subst e
  repeat' first
    | with_reducible assumption
    | intro _
    | with_reducible apply asWriter_keeps h
    | with_reducible apply winWrite_keeps h

theorem execSemWrite_keeps (h : Keeps P) (n : Fin 256) (k : Fin 16) (v : Word) {s : State} (hs : P s) {t' : State}
    (e : execSemWrite n k v s = .next t') : P t' := by
  unfold execSemWrite at e
  injection e with e
  subst e
  repeat' first
    | with_reducible assumption
    | intro _
    | with_reducible apply setReg_keeps h

theorem execSemAdd_keeps (h : Keeps P) (n : Fin 256) (k : Fin 16) (v : Word) {s : State} (hs : P s) {t' : State}
    (e : execSemAdd n k v s = .next t') : P t' := by
  unfold execSemAdd at e
  injection e with e
  subst e
  repeat' first
    | with_reducible assumption
    | intro _
    | with_reducible apply setReg_keeps h

theorem tqCtrlWrite_keeps (h : Keeps P) {s : State} (n : Nat) (v : Word) (hs : P s) : P (State.tqCtrlWrite s n v) := by
  unfold State.tqCtrlWrite
  repeat' first
    | with_reducible assumption
    | intro _
    | (extract_lets +onlyGivenNames u; refine (fun (_ : P u) => ?_) ?_; (on_goal 1 => clear_value u); (on_goal 2 => subst u))
    | (extract_lets +onlyGivenNames u; clear_value u)
    | with_reducible apply pageEvent_keeps h
    | with_reducible apply plainWrite_keeps h
    | with_reducible apply set_keeps h
    | with_reducible apply setSes_keeps h
    | with_reducible apply ite_keeps
    | simp only [↓mk_iff h]
    | split

theorem execTqCtrlWrite_keeps (h : Keeps P) (n : Fin 256) (v : Word) {s : State} (hs : P s) {t' : State}
    (e : execTqCtrlWrite n v s = .next t') : P t' := by
  unfold execTqCtrlWrite at e
  injection e with e
  subst e
  repeat' first
    | with_reducible assumption
    | intro _
    | with_reducible apply tqCtrlWrite_keeps h

theorem tqBaseWrite_keeps (h : Keeps P) {s : State} (n : Nat) (v : Word) (hs : P s) : P (State.tqBaseWrite s n v) := by
  unfold State.tqBaseWrite
  repeat' first
    | with_reducible assumption
    | intro _
    | with_reducible apply pageEvent_keeps h
    | with_reducible apply plainWrite_keeps h
    | with_reducible apply ite_keeps

theorem execTqBaseWrite_keeps (h : Keeps P) (n : Fin 256) (v : Word) {s : State} (hs : P s) {t' : State}
    (e : execTqBaseWrite n v s = .next t') : P t' := by
  unfold execTqBaseWrite at e
  injection e with e
  subst e
  repeat' first
    | with_reducible assumption
    | intro _
    | with_reducible apply tqBaseWrite_keeps h

theorem asCtrlWrite_keeps (h : Keeps P) {s : State} (n : Nat) (a : Nat) (v : Word) (hs : P s) : P (State.asCtrlWrite s n a v) := by
  unfold State.asCtrlWrite
  repeat' first
    | with_reducible assumption
    | intro _
    | (extract_lets +onlyGivenNames u; refine (fun (_ : P u) => ?_) ?_; (on_goal 1 => clear_value u); (on_goal 2 => subst u))
    | (extract_lets +onlyGivenNames u; clear_value u)
    | with_reducible apply pageEvent_keeps h
    | with_reducible apply plainWrite_keeps h
    | with_reducible apply set_keeps h
    | with_reducible apply setSes_keeps h
    | with_reducible apply ite_keeps
    | simp only [↓mk_iff h]
    | split

theorem execAudioStreamStart_keeps (h : Keeps P) (n : Fin 256) (a : Fin 8) (v : Word) {s : State} (hs : P s) {t' : State}
    (e : execAudioStreamStart n a v s = .next t') : P t' := by
  unfold execAudioStreamStart at e
  injection e with e
  subst e
  repeat' first
    | with_reducible assumption
    | intro _
    | with_reducible apply asCtrlWrite_keeps h

theorem asBaseWrite_keeps (h : Keeps P) {s : State} (n : Nat) (a : Nat) (v : Word) (hs : P s) : P (State.asBaseWrite s n a v) := by
  unfold State.asBaseWrite
  repeat' first
    | with_reducible assumption
    | intro _
    | with_reducible apply pageEvent_keeps h
    | with_reducible apply plainWrite_keeps h
    | with_reducible apply ite_keeps

theorem asWrWrite_keeps (h : Keeps P) {s : State} (n : Nat) (a : Nat) (v : Word) (hs : P s) : P (State.asWrWrite s n a v) := by
  unfold State.asWrWrite
  repeat' first
    | with_reducible assumption
    | intro _
    | with_reducible apply pageEvent_keeps h
    | with_reducible apply plainWrite_keeps h
    | with_reducible apply ite_keeps

theorem irqEnableWrite_keeps (h : Keeps P) {s : State} (n : Nat) (v : Word) (hs : P s) : P (State.irqEnableWrite s n v) := by
  unfold State.irqEnableWrite
  repeat' first
    | with_reducible assumption
    | intro _
    | (extract_lets +onlyGivenNames u; refine (fun (_ : P u) => ?_) ?_; (on_goal 1 => clear_value u); (on_goal 2 => subst u))
    | (extract_lets +onlyGivenNames u; clear_value u)
    | with_reducible apply plainWrite_keeps h
    | with_reducible apply sessMessage_keeps h
    | with_reducible apply ite_keeps

theorem execIrqEnableWrite_keeps (h : Keeps P) (n : Fin 256) (v : Word) {s : State} (hs : P s) {t' : State}
    (e : execIrqEnableWrite n v s = .next t') : P t' := by
  unfold execIrqEnableWrite at e
  injection e with e
  subst e
  repeat' first
    | with_reducible assumption
    | intro _
    | with_reducible apply irqEnableWrite_keeps h

theorem resBit_keeps (h : Keeps P) {s : State} (o : Owned) (session : Nat) (handle : Nat) (b : Bool) (hs : P s) :
    P (State.resBit s o session handle b) := by
  unfold State.resBit
  dsimp only
  split
  · exact set_keeps h _ _ hs
  · exact set_keeps h _ _ hs
  · exact set_keeps h _ _ hs
  · exact hs

theorem ownerWrite_keeps (h : Keeps P) {s : State} (o : Owned) (v : Word) (hs : P s) : P (State.ownerWrite s o v) := by
  unfold State.ownerWrite
  repeat' first
    | with_reducible assumption
    | intro _
    | (extract_lets +onlyGivenNames u; refine (fun (_ : P u) => ?_) ?_; (on_goal 1 => clear_value u); (on_goal 2 => subst u))
    | (extract_lets +onlyGivenNames u; clear_value u)
    | with_reducible apply plainWrite_keeps h
    | with_reducible apply resBit_keeps h
    | with_reducible apply setReg_keeps h
    | with_reducible apply ite_keeps

theorem execOwnerWrite_keeps (h : Keeps P) (o : Owned) (w : World) (v : Word) {s : State} (hs : P s) {t' : State}
    (e : execOwnerWrite o w v s = .next t') : P t' := by
  unfold execOwnerWrite at e
  injection e with e
  subst e
  repeat' first
    | with_reducible assumption
    | intro _
    | with_reducible apply asWriter_keeps h
    | with_reducible apply ownerWrite_keeps h

/-! ### Haptics -/

theorem hapEvent_keeps (h : Keeps P) {s : State} (flag : Fld) (hs : P s) : P (State.hapEvent s flag) := by
  unfold State.hapEvent
  repeat' first
    | with_reducible assumption
    | intro _
    | with_reducible apply event_keeps h

theorem execHapticSlotBoundary_keeps (h : Keeps P) {s : State} (hs : P s) {t' : State}
    (e : execHapticSlotBoundary s = .next t') : P t' := by
  unfold execHapticSlotBoundary at e
  injection e with e
  subst e
  repeat' first
    | with_reducible assumption
    | intro _
    | with_reducible apply hapSlot_keeps h

theorem hvOn_keeps (h : Keeps P) {s : State} (v : Word) (hs : P s) : P (State.hvOn s v) := by
  unfold State.hvOn
  repeat' first
    | with_reducible assumption
    | intro _
    | (extract_lets +onlyGivenNames u; refine (fun (_ : P u) => ?_) ?_; (on_goal 1 => clear_value u); (on_goal 2 => subst u))
    | with_reducible apply plainWrite_keeps h
    | with_reducible apply set_keeps h
    | with_reducible apply ite_keeps

theorem hvOff_keeps (h : Keeps P) {s : State} (v : Word) (hs : P s) : P (State.hvOff s v) := by
  unfold State.hvOff
  repeat' first
    | with_reducible assumption
    | intro _
    | (extract_lets +onlyGivenNames u; refine (fun (_ : P u) => ?_) ?_; (on_goal 1 => clear_value u); (on_goal 2 => subst u))
    | with_reducible apply each_keeps
    | with_reducible apply hapDropHeld_keeps h
    | with_reducible apply hapIdle_keeps h
    | with_reducible apply plainWrite_keeps h
    | with_reducible apply set_keeps h
    | with_reducible apply ite_keeps

theorem execHvOn_keeps (h : Keeps P) (w : World) (v : Word) {s : State} (hs : P s) {t' : State}
    (e : execHvOn w v s = .next t') : P t' := by
  unfold execHvOn at e
  injection e with e
  subst e
  repeat' first
    | with_reducible assumption
    | intro _
    | with_reducible apply asWriter_keeps h
    | with_reducible apply hvOn_keeps h

theorem execHvOff_keeps (h : Keeps P) (w : World) (v : Word) {s : State} (hs : P s) {t' : State}
    (e : execHvOff w v s = .next t') : P t' := by
  unfold execHvOff at e
  injection e with e
  subst e
  repeat' first
    | with_reducible assumption
    | intro _
    | with_reducible apply asWriter_keeps h
    | with_reducible apply hvOff_keeps h

theorem execHvReady_keeps (h : Keeps P) {s : State} (hs : P s) {t' : State}
    (e : execHvReady s = .next t') : P t' := by
  unfold execHvReady at e
  injection e with e
  subst e
  repeat' first
    | with_reducible assumption
    | intro _
    | with_reducible apply set_keeps h
    | with_reducible apply ite_keeps

theorem execHvEnFall_keeps (h : Keeps P) {s : State} (hs : P s) {t' : State}
    (e : execHvEnFall s = .next t') : P t' := by
  unfold execHvEnFall at e
  injection e with e
  subst e
  repeat' first
    | with_reducible assumption
    | intro _
    | with_reducible apply hvFall_keeps h
    | with_reducible apply ite_keeps

theorem hapLibRead_keeps (h : Keeps P) {s : State} (hs : P s) : P (State.hapLibRead s) := by
  unfold State.hapLibRead
  repeat' first
    | with_reducible assumption
    | intro _
    | (extract_lets +onlyGivenNames u; refine (fun (_ : P u) => ?_) ?_; (on_goal 1 => clear_value u); (on_goal 2 => subst u))
    | (extract_lets +onlyGivenNames u; refine (fun (_ : P u.2) => ?_) ?_; (on_goal 1 => clear_value u); (on_goal 2 => subst u))
    | (extract_lets +onlyGivenNames u; clear_value u)
    | with_reducible apply dmaRead_keeps h
    | with_reducible apply ite_keeps
    | simp only [↓mk_iff h]

theorem hapLibLoad_keeps (h : Keeps P) {s : State} (v : Word) (hs : P s) : P (State.hapLibLoad s v) := by
  unfold State.hapLibLoad
  repeat' first
    | with_reducible assumption
    | intro _
    | with_reducible apply hapLibRead_keeps h
    | with_reducible apply set_keeps h
    | with_reducible apply ite_keeps

theorem execHapticLibLoad_keeps (h : Keeps P) (w : World) (v : Word) {s : State} (hs : P s) {t' : State}
    (e : execHapticLibLoad w v s = .next t') : P t' := by
  unfold execHapticLibLoad at e
  injection e with e
  subst e
  repeat' first
    | with_reducible assumption
    | intro _
    | with_reducible apply asWriter_keeps h
    | with_reducible apply hapLibLoad_keeps h

theorem hapLibTake_keeps (h : Keeps P) {s : State} (bs : List Byte) (hs : P s) : P (State.hapLibTake s bs) := by
  unfold State.hapLibTake
  repeat' first
    | with_reducible assumption
    | intro _
    | with_reducible apply each_keeps
    | with_reducible apply setReg_keeps h

theorem hapLibDone_keeps (h : Keeps P) {s : State} (hs : P s) : P (State.hapLibDone s) := by
  unfold State.hapLibDone
  repeat' first
    | with_reducible assumption
    | intro _
    | (extract_lets +onlyGivenNames u; refine (fun (_ : P u) => ?_) ?_; (on_goal 1 => clear_value u); (on_goal 2 => subst u))
    | with_reducible apply hapEvent_keeps h
    | with_reducible apply hapLibRead_keeps h
    | with_reducible apply hapLibTake_keeps h
    | with_reducible apply set_keeps h
    | with_reducible apply when_keeps
    | with_reducible apply ite_keeps
    | simp only [↓mk_iff h]
    | split

theorem execHapticLibLoadDone_keeps (h : Keeps P) {s : State} (hs : P s) {t' : State}
    (e : execHapticLibLoadDone s = .next t') : P t' := by
  unfold execHapticLibLoadDone at e
  injection e with e
  subst e
  repeat' first
    | with_reducible assumption
    | intro _
    | with_reducible apply hapLibDone_keeps h

theorem execHapticPwmPeriod_keeps (h : Keeps P) (n : Fin 16) {s : State} (hs : P s) {t' : State}
    (e : execHapticPwmPeriod n s = .next t') : P t' := by
  unfold execHapticPwmPeriod at e
  injection e with e
  subst e
  repeat' first
    | with_reducible assumption
    | intro _
    | with_reducible apply hapBrakePeriod_keeps h
    | with_reducible apply hapDrivePeriod_keeps h
    | with_reducible apply hapQuiet_keeps h
    | with_reducible apply ite_keeps

theorem hapSense_keeps (h : KeepsMem P) {s : State} (n : Nat) (hs : P s) : P (State.hapSense s n) := by
  unfold State.hapSense
  repeat' first
    | with_reducible assumption
    | intro _
    | with_reducible apply hapFault_keeps h.toKeeps
    | with_reducible apply hcEvent_keeps h.toKeeps
    | with_reducible apply raiseFault_keeps h

theorem hapAdc_keeps (h : KeepsMem P) {s : State} (n : Nat) (code : Nat) (hs : P s) : P (State.hapAdc s n code) := by
  unfold State.hapAdc
  repeat' first
    | with_reducible assumption
    | intro _
    | (extract_lets +onlyGivenNames u; refine (fun (_ : P u) => ?_) ?_; (on_goal 1 => clear_value u); (on_goal 2 => subst u))
    | (extract_lets +onlyGivenNames u; clear_value u)
    | with_reducible apply hapSample_keeps h.toKeeps
    | with_reducible apply hapSense_keeps h
    | with_reducible apply set_keeps h.toKeeps
    | with_reducible apply setHc_keeps h.toKeeps
    | with_reducible apply ite_keeps

theorem execHapticAdcSample_keeps (h : KeepsMem P) (n : Fin 16) (code : BitVec 12) {s : State} (hs : P s) {t' : State}
    (e : execHapticAdcSample n code s = .next t') : P t' := by
  unfold execHapticAdcSample at e
  injection e with e
  subst e
  repeat' first
    | with_reducible assumption
    | intro _
    | with_reducible apply hapAdc_keeps h

theorem execBrakeTimeout_keeps (h : Keeps P) (n : Fin 16) {s : State} (hs : P s) {t' : State}
    (e : execBrakeTimeout n s = .next t') : P t' := by
  unfold execBrakeTimeout at e
  injection e with e
  subst e
  repeat' first
    | with_reducible assumption
    | intro _
    | with_reducible apply hapIdle_keeps h
    | with_reducible apply ite_keeps

theorem hapTrigEdges_keeps (h : Keeps P) {s : State} (edges : Nat) (levels : Nat) (beaten : List (Fin 16)) (hs : P s) : P (State.hapTrigEdges s edges levels beaten) := by
  unfold State.hapTrigEdges
  repeat' first
    | with_reducible assumption
    | intro _
    | (extract_lets +onlyGivenNames u; refine (fun (_ : P u) => ?_) ?_; (on_goal 1 => clear_value u); (on_goal 2 => subst u))
    | (extract_lets +onlyGivenNames u; clear_value u)
    | with_reducible apply each_keeps
    | with_reducible apply hapLose_keeps h
    | with_reducible apply hapUrgent_keeps h

theorem execHapTrigEdge_keeps (h : Keeps P) (edges : BitVec 4) (levels : BitVec 4) (beaten : List (Fin 16)) {s : State} (hs : P s) {t' : State}
    (e : execHapTrigEdge edges levels beaten s = .next t') : P t' := by
  unfold execHapTrigEdge at e
  injection e with e
  subst e
  repeat' first
    | with_reducible assumption
    | intro _
    | with_reducible apply hapTrigEdges_keeps h

theorem hapDoorbell_keeps (h : Keeps P) {s : State} (session : Nat) (beaten : Bool) (missed : Nat) (v : Word) (hs : P s) : P (State.hapDoorbell s session beaten missed v) := by
  unfold State.hapDoorbell
  repeat' first
    | with_reducible assumption
    | intro _
    | with_reducible apply hapBell_keeps h
    | with_reducible apply hapLose_keeps h
    | with_reducible apply pageEvent_keeps h
    | with_reducible apply ite_keeps
    | simp only [↓mk_iff h]
    | split

theorem execHapticDoorbell_keeps (h : Keeps P) (b : Bell) (v : Word) {s : State} (hs : P s) {t' : State}
    (e : execHapticDoorbell b v s = .next t') : P t' := by
  unfold execHapticDoorbell at e
  injection e with e
  subst e
  repeat' first
    | with_reducible assumption
    | intro _
    | with_reducible apply hapDoorbell_keeps h

/-! ### RtcLog -/

theorem rtcLoad_keeps (h : Keeps P) {s : State} (sec : Nat) (frac : Nat) (hs : P s) : P (State.rtcLoad s sec frac) := by
  unfold State.rtcLoad
  repeat' first
    | with_reducible assumption
    | intro _
    | (extract_lets +onlyGivenNames u; refine (fun (_ : P u) => ?_) ?_; (on_goal 1 => clear_value u); (on_goal 2 => subst u))
    | (extract_lets +onlyGivenNames u; clear_value u)
    | with_reducible apply logEvent_keeps h
    | with_reducible apply set_keeps h
    | with_reducible apply ite_keeps
    | simp only [↓mk_iff h]

theorem rtcTick_keeps (h : Keeps P) {s : State} (hs : P s) : P (State.rtcTick s) := by
  unfold State.rtcTick
  repeat' first
    | with_reducible assumption
    | intro _
    | with_reducible apply rtcLoad_keeps h
    | with_reducible apply ite_keeps
    | simp only [↓mk_iff h]
    | split

theorem execRtcTick_keeps (h : Keeps P) {s : State} (hs : P s) {t' : State}
    (e : execRtcTick s = .next t') : P t' := by
  unfold execRtcTick at e
  injection e with e
  subst e
  repeat' first
    | with_reducible assumption
    | intro _
    | with_reducible apply rtcTick_keeps h

theorem rtcTrim_keeps (h : Keeps P) {s : State} (hs : P s) : P (State.rtcTrim s) := by
  unfold State.rtcTrim
  repeat' first
    | with_reducible assumption
    | intro _
    | (extract_lets +onlyGivenNames u; clear_value u)
    | with_reducible apply ite_keeps
    | simp only [↓mk_iff h]

theorem execRtcTrim_keeps (h : Keeps P) {s : State} (hs : P s) {t' : State}
    (e : execRtcTrim s = .next t') : P t' := by
  unfold execRtcTrim at e
  injection e with e
  subst e
  repeat' first
    | with_reducible assumption
    | intro _
    | with_reducible apply rtcTrim_keeps h

theorem execRtcOscStop_keeps (h : Keeps P) {s : State} (hs : P s) {t' : State}
    (e : execRtcOscStop s = .next t') : P t' := by
  unfold execRtcOscStop at e
  injection e with e
  subst e
  repeat' first
    | with_reducible assumption
    | intro _
    | with_reducible apply event_keeps h
    | with_reducible apply set_keeps h

theorem rtcSetWrite_keeps (h : Keeps P) {s : State} (v : Word) (hs : P s) : P (State.rtcSetWrite s v) := by
  unfold State.rtcSetWrite
  repeat' first
    | with_reducible assumption
    | intro _
    | (extract_lets +onlyGivenNames u; refine (fun (_ : P u) => ?_) ?_; (on_goal 1 => clear_value u); (on_goal 2 => subst u))
    | (extract_lets +onlyGivenNames u; clear_value u)
    | with_reducible apply set_keeps h
    | with_reducible apply ite_keeps
    | simp only [↓mk_iff h]

theorem execRtcSet_keeps (h : Keeps P) (w : World) (v : Word) {s : State} (hs : P s) {t' : State}
    (e : execRtcSet w v s = .next t') : P t' := by
  unfold execRtcSet at e
  injection e with e
  subst e
  repeat' first
    | with_reducible assumption
    | intro _
    | with_reducible apply asWriter_keeps h
    | with_reducible apply rtcSetWrite_keeps h

theorem rtcSnapWrite_keeps (h : Keeps P) {s : State} (v : Word) (hs : P s) : P (State.rtcSnapWrite s v) := by
  unfold State.rtcSnapWrite
  repeat' first
    | with_reducible assumption
    | intro _
    | with_reducible apply set_keeps h
    | with_reducible apply ite_keeps

theorem execRtcSnap_keeps (h : Keeps P) (w : World) (v : Word) {s : State} (hs : P s) {t' : State}
    (e : execRtcSnap w v s = .next t') : P t' := by
  unfold execRtcSnap at e
  injection e with e
  subst e
  repeat' first
    | with_reducible assumption
    | intro _
    | with_reducible apply asWriter_keeps h
    | with_reducible apply rtcSnapWrite_keeps h

theorem setLogWord_keeps (h : Keeps P) {s : State} (seq : Nat) (i : Nat) (v : Word) (hs : P s) : P (State.setLogWord s seq i v) := by
  unfold State.setLogWord
  repeat' first
    | with_reducible assumption
    | intro _
    | with_reducible apply ite_keeps
    | simp only [↓mk_iff h]

theorem logAdmit_keeps (h : Keeps P) {s : State} (e : LogEntry) (hs : P s) : P (State.logAdmit s e) := by
  unfold State.logAdmit
  repeat' first
    | with_reducible assumption
    | intro _
    | (extract_lets +onlyGivenNames u; refine (fun (_ : P u) => ?_) ?_; (on_goal 1 => clear_value u); (on_goal 2 => subst u))
    | (extract_lets +onlyGivenNames u; clear_value u)
    | with_reducible apply each_keeps
    | with_reducible apply set_keeps h
    | with_reducible apply setLogWord_keeps h
    | with_reducible apply ite_keeps
    | simp only [↓mk_iff h]

theorem logWrEvent_keeps (h : Keeps P) {s : State} (x : Nat) (flag : Fld) (hs : P s) : P (State.logWrEvent s x flag) := by
  unfold State.logWrEvent
  repeat' first
    | with_reducible assumption
    | intro _
    | with_reducible apply count_keeps h
    | with_reducible apply set_keeps h

theorem logFold_keeps (h : Keeps P) {s : State} (x : Nat) (hs : P s) : P (State.logFold s x) := by
  unfold State.logFold
  repeat' first
    | with_reducible assumption
    | intro _
    | (extract_lets +onlyGivenNames u; clear_value u)
    | with_reducible apply logWrEvent_keeps h
    | with_reducible apply setLogWord_keeps h

theorem setLogTokens_keeps (h : Keeps P) {s : State} (b : Nat) (n : Nat) (hs : P s) : P (State.setLogTokens s b n) := by
  unfold State.setLogTokens
  repeat' first
    | with_reducible assumption
    | intro _
    | with_reducible apply ite_keeps
    | simp only [↓mk_iff h]

theorem logRateWrite_keeps (h : Keeps P) {s : State} (v : Word) (hs : P s) : P (State.logRateWrite s v) := by
  unfold State.logRateWrite
  repeat' first
    | with_reducible assumption
    | intro _
    | (extract_lets +onlyGivenNames u; refine (fun (_ : P u) => ?_) ?_; (on_goal 1 => clear_value u); (on_goal 2 => subst u))
    | (extract_lets +onlyGivenNames u; clear_value u)
    | with_reducible apply plainWrite_keeps h
    | with_reducible apply ite_keeps
    | simp only [↓mk_iff h]

theorem logTake_keeps (h : Keeps P) {s : State} (hs : P s) : P (State.logTake s) := by
  unfold State.logTake
  repeat' first
    | with_reducible assumption
    | intro _
    | (extract_lets +onlyGivenNames u; clear_value u)
    | with_reducible apply count_keeps h
    | with_reducible apply logAdmit_keeps h
    | with_reducible apply logFold_keeps h
    | with_reducible apply setLogTokens_keeps h
    | with_reducible apply ite_keeps
    | simp only [↓mk_iff h]
    | split

theorem execLogWriterTake_keeps (h : Keeps P) {s : State} (hs : P s) {t' : State}
    (e : execLogWriterTake s = .next t') : P t' := by
  unfold execLogWriterTake at e
  injection e with e
  subst e
  repeat' first
    | with_reducible assumption
    | intro _
    | with_reducible apply logTake_keeps h

theorem logRefill_keeps (h : Keeps P) {s : State} (code : Nat) (hs : P s) : P (State.logRefill s code) := by
  unfold State.logRefill
  repeat' first
    | with_reducible assumption
    | intro _
    | (extract_lets +onlyGivenNames u; clear_value u)
    | with_reducible apply setLogTokens_keeps h

theorem execLogTokenRefill_keeps (h : Keeps P) (code : BitVec 16) {s : State} (hs : P s) {t' : State}
    (e : execLogTokenRefill code s = .next t') : P t' := by
  unfold execLogTokenRefill at e
  injection e with e
  subst e
  repeat' first
    | with_reducible assumption
    | intro _
    | with_reducible apply logRefill_keeps h

theorem logGoWrite_keeps (h : Keeps P) {s : State} (x : Nat) (v : Word) (hs : P s) : P (State.logGoWrite s x v) := by
  unfold State.logGoWrite
  repeat' first
    | with_reducible assumption
    | intro _
    | (extract_lets +onlyGivenNames u; clear_value u)
    | with_reducible apply enqueueLog_keeps h
    | with_reducible apply logWrEvent_keeps h
    | with_reducible apply ite_keeps

theorem execLogWrite_keeps (h : Keeps P) (x : Fin 2) (w : World) (v : Word) {s : State} (hs : P s) {t' : State}
    (e : execLogWrite x w v s = .next t') : P t' := by
  unfold execLogWrite at e
  injection e with e
  subst e
  repeat' first
    | with_reducible assumption
    | intro _
    | with_reducible apply asWriter_keeps h
    | with_reducible apply logGoWrite_keeps h

theorem execLogWriteFold_keeps (h : Keeps P) (x : Fin 2) (w : World) (v : Word) {s : State} (hs : P s) {t' : State}
    (e : execLogWriteFold x w v s = .next t') : P t' := by
  unfold execLogWriteFold at e
  injection e with e
  subst e
  repeat' first
    | with_reducible assumption
    | intro _
    | with_reducible apply asWriter_keeps h
    | with_reducible apply logGoWrite_keeps h

theorem logClear_keeps (h : Keeps P) {s : State} (origin : Nat) (session : Nat) (hs : P s) : P (State.logClear s origin session) := by
  unfold State.logClear
  repeat' first
    | with_reducible assumption
    | intro _
    | (extract_lets +onlyGivenNames u; clear_value u)
    | with_reducible apply logEvent_keeps h
    | with_reducible apply set_keeps h

theorem logClearWrite_keeps (h : Keeps P) {s : State} (w : World) (v : Word) (hs : P s) : P (State.logClearWrite s w v) := by
  unfold State.logClearWrite
  repeat' first
    | with_reducible assumption
    | intro _
    | with_reducible apply logClear_keeps h
    | with_reducible apply ite_keeps

theorem logClearPage_keeps (h : Keeps P) {s : State} (n : Nat) (v : Word) (hs : P s) : P (State.logClearPage s n v) := by
  unfold State.logClearPage
  repeat' first
    | with_reducible assumption
    | intro _
    | with_reducible apply logClear_keeps h
    | with_reducible apply ite_keeps

theorem execLogClear_keeps (h : Keeps P) (c : LogClearer) {s : State} (hs : P s) {t' : State}
    (e : execLogClear c s = .next t') : P t' := by
  unfold execLogClear at e
  injection e with e
  subst e
  repeat' first
    | with_reducible assumption
    | intro _
    | with_reducible apply logClearPage_keeps h
    | with_reducible apply logClearWrite_keeps h
    | with_reducible apply ite_keeps
    | simp only [↓mk_iff h]
    | split

/-! ### Page -/

theorem layGuestWrite_keeps (h : Keeps P) {s : State} (l : Nat) (x : Nat) (v : Word) (hs : P s) : P (State.layGuestWrite s l x v) := by
  unfold State.layGuestWrite
  repeat' first
    | with_reducible assumption
    | intro _
    | (extract_lets +onlyGivenNames u; clear_value u)
    | with_reducible apply layCommit_keeps h
    | with_reducible apply layEvent_keeps h
    | with_reducible apply plainWrite_keeps h
    | with_reducible apply ite_keeps

theorem pageAudioWrite_keeps (h : Keeps P) {s : State} (n x y : Nat) (v : Word) (hs : P s) : P (State.pageAudioWrite s n x y v) := by
  unfold State.pageAudioWrite
  exact ite_keeps (asBaseWrite_keeps h _ _ _ hs) (ite_keeps (asCtrlWrite_keeps h _ _ _ hs) (ite_keeps (asWrWrite_keeps h _ _ _ hs)
    (ite_keeps (pageEvent_keeps h _ _ hs) hs)))

theorem pageWrite_keeps (h : Keeps P) {s : State} (n : Nat) (off : Nat) (v : Word) (hs : P s) : P (State.pageWrite s n off v) := by
  unfold State.pageWrite
  repeat' first
    | with_reducible assumption
    | intro _
    | (extract_lets +onlyGivenNames u; clear_value u)
    | with_reducible apply hapDoorbell_keeps h
    | with_reducible apply irqEnableWrite_keeps h
    | with_reducible apply irqStatusWrite_keeps h
    | with_reducible apply layGuestWrite_keeps h
    | with_reducible apply logClearPage_keeps h
    | with_reducible apply pageAudioWrite_keeps h
    | with_reducible apply plainWrite_keeps h
    | with_reducible apply setReg_keeps h
    | with_reducible apply throughDoor_keeps h
    | with_reducible apply tqBaseWrite_keeps h
    | with_reducible apply tqCtrlWrite_keeps h
    | with_reducible apply ite_keeps

theorem pageReadEffect_keeps (h : Keeps P) {s : State} (n : Nat) (off : Nat) (hs : P s) : P (State.pageReadEffect s n off) := by
  unfold State.pageReadEffect
  repeat' first
    | with_reducible assumption
    | intro _
    | with_reducible apply pageEvent_keeps h
    | with_reducible apply ite_keeps

end

end Sys2Proof.Machine
end

