-- ==== Sys2Proof/Laws/KeepWorlds.lean ====
section
/-! SUPPORT. What is kept: the management cores, the worlds, the gate, the faults, the ingress and the check value units. -/

namespace Sys2Proof.Machine

section
variable {P : State → Prop}

/-! ### CoreOps -/

theorem setCore_keeps (h : Keeps P) {s : State} (c : Nat) (r : CoreState) (hs : P s) : P (State.setCore s c r) := by
  unfold State.setCore
  repeat' first
    | with_reducible assumption
    | intro _
    | with_reducible apply ite_keeps
    | simp only [↓mk_iff h]

theorem coreEvent_keeps (h : Keeps P) {s : State} (c : Nat) (flag : Fld) (hs : P s) : P (State.coreEvent s c flag) := by
  unfold State.coreEvent
  repeat' first
    | with_reducible assumption
    | intro _
    | with_reducible apply count_keeps h
    | with_reducible apply set_keeps h

theorem haltCheck_keeps (h : Keeps P) {s : State} (c : Nat) (hs : P s) : P (State.haltCheck s c) := by
  unfold State.haltCheck
  repeat' first
    | with_reducible assumption
    | intro _
    | with_reducible apply set_keeps h
    | with_reducible apply setCore_keeps h
    | with_reducible apply ite_keeps

theorem csrWrite_keeps (h : Keeps P) {s : State} (c : Nat) (w : World) (a : Nat) (v : BitVec 64) (hs : P s) : P (State.csrWrite s c w a v) := by
  unfold State.csrWrite
  repeat' first
    | with_reducible assumption
    | intro _
    | (extract_lets +onlyGivenNames u; clear_value u)
    | with_reducible apply setCore_keeps h
    | with_reducible apply ite_keeps

theorem coreTick_keeps (h : Keeps P) {s : State} (c : Nat) (hs : P s) : P (State.coreTick s c) := by
  unfold State.coreTick
  repeat' first
    | with_reducible assumption
    | intro _
    | (extract_lets +onlyGivenNames u; clear_value u)
    | with_reducible apply draw_keeps h
    | with_reducible apply each_keeps
    | with_reducible apply setCore_keeps h
    | with_reducible apply ite_keeps

theorem tagMake_keeps (h : Keeps P) {s : State} (k : TagKind) (c : Nat) (key : Nat) (w : World) (hs : P s) : P (State.tagMake s k c key w) := by
  unfold State.tagMake
  repeat' first
    | with_reducible assumption
    | intro _
    | (extract_lets +onlyGivenNames u; clear_value u)
    | with_reducible apply ite_keeps
    | simp only [↓mk_iff h]

theorem tagDrop_keeps (h : Keeps P) {s : State} (c : Nat) (hs : P s) : P (State.tagDrop s c) := by
  unfold State.tagDrop
  repeat' first
    | with_reducible assumption
    | intro _
    | with_reducible apply ite_keeps
    | simp only [↓mk_iff h]

theorem enterSecure_keeps (h : Keeps P) {s : State} (c : Nat) (kind : Nat) (gate : Nat) (epc : BitVec 64) (hs : P s) : P (State.enterSecure s c kind gate epc) := by
  unfold State.enterSecure
  repeat' first
    | with_reducible assumption
    | intro _
    | (extract_lets +onlyGivenNames u; clear_value u)
    | with_reducible apply set_keeps h
    | with_reducible apply setCore_keeps h

theorem secureEntry_keeps (h : Keeps P) {s : State} (c : Nat) (hs : P s) : P (State.secureEntry s c) := by
  unfold State.secureEntry
  repeat' first
    | with_reducible assumption
    | intro _
    | (extract_lets +onlyGivenNames u; refine (fun (_ : P u) => ?_) ?_; (on_goal 1 => clear_value u); (on_goal 2 => subst u))
    | (extract_lets +onlyGivenNames u; clear_value u)
    | with_reducible apply enterSecure_keeps h
    | with_reducible apply haltCheck_keeps h
    | with_reducible apply setCore_keeps h

theorem sentDrop_keeps (h : Keeps P) {s : State} (c : Nat) (hs : P s) : P (State.sentDrop s c) := by
  unfold State.sentDrop
  repeat' first
    | with_reducible assumption
    | intro _
    | with_reducible apply ite_keeps
    | simp only [↓mk_iff h]

theorem leaveSecure_keeps (h : Keeps P) {s : State} (c : Nat) (hs : P s) : P (State.leaveSecure s c) := by
  unfold State.leaveSecure
  repeat' first
    | with_reducible assumption
    | intro _
    | (extract_lets +onlyGivenNames u; refine (fun (_ : P u) => ?_) ?_; (on_goal 1 => clear_value u); (on_goal 2 => subst u))
    | (extract_lets +onlyGivenNames u; clear_value u)
    | with_reducible apply haltCheck_keeps h
    | with_reducible apply sentDrop_keeps h
    | with_reducible apply set_keeps h
    | with_reducible apply setCore_keeps h

theorem park_keeps (h : Keeps P) {s : State} (c : Nat) (hs : P s) : P (State.park s c) := by
  unfold State.park
  repeat' first
    | with_reducible assumption
    | intro _
    | (extract_lets +onlyGivenNames u; refine (fun (_ : P u) => ?_) ?_; (on_goal 1 => clear_value u); (on_goal 2 => subst u))
    | (extract_lets +onlyGivenNames u; clear_value u)
    | with_reducible apply sentDrop_keeps h
    | with_reducible apply set_keeps h
    | with_reducible apply setCore_keeps h
    | with_reducible apply tagDrop_keeps h

theorem forceBack_keeps (h : Keeps P) {s : State} (c : Nat) (hs : P s) : P (State.forceBack s c) := by
  unfold State.forceBack
  repeat' first
    | with_reducible assumption
    | intro _
    | (extract_lets +onlyGivenNames u; refine (fun (_ : P u) => ?_) ?_; (on_goal 1 => clear_value u); (on_goal 2 => subst u))
    | (extract_lets +onlyGivenNames u; clear_value u)
    | with_reducible apply coreEvent_keeps h
    | with_reducible apply leaveSecure_keeps h
    | with_reducible apply park_keeps h
    | with_reducible apply raiseIrq_keeps h
    | with_reducible apply set_keeps h
    | with_reducible apply setCore_keeps h
    | with_reducible apply ite_keeps

theorem restartLeave_keeps (h : Keeps P) {s : State} (hs : P s) : P (State.restartLeave s) := by
  unfold State.restartLeave
  repeat' first
    | with_reducible assumption
    | intro _
    | with_reducible apply leaveSecure_keeps h
    | with_reducible apply park_keeps h
    | with_reducible apply ite_keeps
    | simp only [↓mk_iff h]
    | split

theorem restartFail_keeps (h : Keeps P) {s : State} (hs : P s) : P (State.restartFail s) := by
  unfold State.restartFail
  repeat' first
    | with_reducible assumption
    | intro _
    | (extract_lets +onlyGivenNames u; refine (fun (_ : P u) => ?_) ?_; (on_goal 1 => clear_value u); (on_goal 2 => subst u))
    | (extract_lets +onlyGivenNames u; clear_value u)
    | with_reducible apply restartLeave_keeps h
    | with_reducible apply set_keeps h
    | with_reducible apply ite_keeps
    | simp only [↓mk_iff h]

theorem secureDown_keeps (h : KeepsMem P) {s : State} (cause : Nat) (core : Nat) (hs : P s) : P (State.secureDown s cause core) := by
  unfold State.secureDown
  repeat' first
    | with_reducible assumption
    | intro _
    | (extract_lets +onlyGivenNames u; refine (fun (_ : P u) => ?_) ?_; (on_goal 1 => clear_value u); (on_goal 2 => subst u))
    | (extract_lets +onlyGivenNames u; clear_value u)
    | with_reducible apply count_keeps h.toKeeps
    | with_reducible apply downStop_keeps h.toKeeps
    | with_reducible apply each_keeps
    | with_reducible apply forceBack_keeps h.toKeeps
    | with_reducible apply raiseFault_keeps h
    | with_reducible apply restartFail_keeps h.toKeeps
    | with_reducible apply set_keeps h.toKeeps
    | with_reducible apply ite_keeps
    | simp only [↓mk_iff h.toKeeps]

theorem coreFail_keeps (h : KeepsMem P) {s : State} (c : Nat) (hs : P s) : P (State.coreFail s c) := by
  unfold State.coreFail
  repeat' first
    | with_reducible assumption
    | intro _
    | (extract_lets +onlyGivenNames u; refine (fun (_ : P u) => ?_) ?_; (on_goal 1 => clear_value u); (on_goal 2 => subst u))
    | (extract_lets +onlyGivenNames u; clear_value u)
    | with_reducible apply coreEvent_keeps h.toKeeps
    | with_reducible apply inOrder_keeps h.toKeeps
    | with_reducible apply raiseFault_keeps h
    | with_reducible apply secureDown_keeps h
    | with_reducible apply sentDrop_keeps h.toKeeps
    | with_reducible apply set_keeps h.toKeeps
    | with_reducible apply setCore_keeps h.toKeeps
    | with_reducible apply ite_keeps

/-! ### Worlds -/

theorem coreStart_keeps (h : Keeps P) {s : State} (c : Nat) (pc : BitVec 64) (hs : P s) : P (State.coreStart s c pc) := by
  unfold State.coreStart
  repeat' first
    | with_reducible assumption
    | intro _
    | (extract_lets +onlyGivenNames u; refine (fun (_ : P u) => ?_) ?_; (on_goal 1 => clear_value u); (on_goal 2 => subst u))
    | (extract_lets +onlyGivenNames u; clear_value u)
    | with_reducible apply haltCheck_keeps h
    | with_reducible apply sentDrop_keeps h
    | with_reducible apply set_keeps h
    | with_reducible apply setCore_keeps h
    | with_reducible apply tagDrop_keeps h

theorem coreHold_keeps (h : Keeps P) {s : State} (c : Nat) (hs : P s) : P (State.coreHold s c) := by
  unfold State.coreHold
  repeat' first
    | with_reducible assumption
    | intro _
    | (extract_lets +onlyGivenNames u; refine (fun (_ : P u) => ?_) ?_; (on_goal 1 => clear_value u); (on_goal 2 => subst u))
    | (extract_lets +onlyGivenNames u; clear_value u)
    | with_reducible apply sentDrop_keeps h
    | with_reducible apply set_keeps h
    | with_reducible apply setCore_keeps h
    | with_reducible apply tagDrop_keeps h
    | with_reducible apply ite_keeps

theorem mcCtrlWrite_keeps (h : Keeps P) {s : State} (c : Nat) (v : Word) (hs : P s) : P (State.mcCtrlWrite s c v) := by
  unfold State.mcCtrlWrite
  repeat' first
    | with_reducible assumption
    | intro _
    | (extract_lets +onlyGivenNames u; refine (fun (_ : P u) => ?_) ?_; (on_goal 1 => clear_value u); (on_goal 2 => subst u))
    | (extract_lets +onlyGivenNames u; clear_value u)
    | with_reducible apply coreEvent_keeps h
    | with_reducible apply coreHold_keeps h
    | with_reducible apply coreStart_keeps h
    | with_reducible apply plainWrite_keeps h
    | with_reducible apply ite_keeps

theorem execCoreRelease_keeps (h : Keeps P) (n : Fin 5) (w : World) (v : Word) {s : State} (hs : P s) {t' : State}
    (e : execCoreRelease n w v s = .next t') : P t' := by
  unfold execCoreRelease at e
  injection e with e
  subst e
  repeat' first
    | with_reducible assumption
    | intro _
    | with_reducible apply asWriter_keeps h
    | with_reducible apply mcCtrlWrite_keeps h

theorem execCoreHold_keeps (h : Keeps P) (n : Fin 5) (w : World) (v : Word) {s : State} (hs : P s) {t' : State}
    (e : execCoreHold n w v s = .next t') : P t' := by
  unfold execCoreHold at e
  injection e with e
  subst e
  repeat' first
    | with_reducible assumption
    | intro _
    | with_reducible apply asWriter_keeps h
    | with_reducible apply mcCtrlWrite_keeps h

theorem arrayAction_keeps (h : KeepsMem P) {s : State} (g : Nat) (srOk : Bool) (hs : P s) : P (State.arrayAction s g srOk) := by
  unfold State.arrayAction
  repeat' first
    | with_reducible assumption
    | intro _
    | with_reducible apply coreFail_keeps h
    | with_reducible apply draw_keeps h.toKeeps
    | with_reducible apply freezeSide_keeps h
    | with_reducible apply pipeArray_keeps h.toKeeps
    | with_reducible apply sextantArray_keeps h
    | with_reducible apply ite_keeps

theorem execArrayError_keeps (h : KeepsMem P) (g : Fin 96) (ue : Bool) (srOk : Bool) {s : State} (hs : P s) {t' : State}
    (e : execArrayError g ue srOk s = .next t') : P t' := by
  unfold execArrayError at e
  injection e with e
  subst e
  repeat' first
    | with_reducible assumption
    | intro _
    | with_reducible apply arrayAction_keeps h
    | with_reducible apply inOrder_keeps h.toKeeps
    | with_reducible apply raiseFault_keeps h
    | with_reducible apply ite_keeps

theorem wgate_keeps (h : Keeps P) {s : State} (c : Nat) (g : Nat) (hs : P s) : P (State.wgate s c g) := by
  unfold State.wgate
  repeat' first
    | with_reducible assumption
    | intro _
    | (extract_lets +onlyGivenNames u; refine (fun (_ : P u) => ?_) ?_; (on_goal 1 => clear_value u); (on_goal 2 => subst u))
    | (extract_lets +onlyGivenNames u; clear_value u)
    | with_reducible apply enterSecure_keeps h
    | with_reducible apply haltCheck_keeps h
    | with_reducible apply setCore_keeps h
    | with_reducible apply ite_keeps

theorem execWgate_keeps (h : Keeps P) (c : Fin 5) (g : Fin 64) {s : State} (hs : P s) {t' : State}
    (e : execWgate c g s = .next t') : P t' := by
  unfold execWgate at e
  injection e with e
  subst e
  repeat' first
    | with_reducible assumption
    | intro _
    | with_reducible apply wgate_keeps h

theorem wret_keeps (h : Keeps P) {s : State} (c : Nat) (us : Nat) (hs : P s) : P (State.wret s c us) := by
  unfold State.wret
  repeat' first
    | with_reducible assumption
    | intro _
    | (extract_lets +onlyGivenNames u; refine (fun (_ : P u) => ?_) ?_; (on_goal 1 => clear_value u); (on_goal 2 => subst u))
    | with_reducible apply haltCheck_keeps h
    | with_reducible apply leaveSecure_keeps h
    | with_reducible apply raiseTo_keeps h
    | with_reducible apply setCore_keeps h
    | with_reducible apply ite_keeps

theorem execWret_keeps (h : Keeps P) (c : Fin 5) (us : Nat) {s : State} (hs : P s) {t' : State}
    (e : execWret c us s = .next t') : P t' := by
  unfold execWret at e
  injection e with e
  subst e
  repeat' first
    | with_reducible assumption
    | intro _
    | with_reducible apply wret_keeps h

theorem residencyExpire_keeps (h : KeepsMem P) {s : State} (c : Nat) (hs : P s) : P (State.residencyExpire s c) := by
  unfold State.residencyExpire
  repeat' first
    | with_reducible assumption
    | intro _
    | with_reducible apply forceBack_keeps h.toKeeps
    | with_reducible apply raiseTo_keeps h.toKeeps
    | with_reducible apply secureDown_keeps h
    | with_reducible apply ite_keeps

theorem execResidencyExpire_keeps (h : KeepsMem P) (c : Fin 5) {s : State} (hs : P s) {t' : State}
    (e : execResidencyExpire c s = .next t') : P t' := by
  unfold execResidencyExpire at e
  injection e with e
  subst e
  repeat' first
    | with_reducible assumption
    | intro _
    | with_reducible apply residencyExpire_keeps h

theorem secureUp_keeps (h : Keeps P) {s : State} (hs : P s) : P (State.secureUp s) := by
  unfold State.secureUp
  repeat' first
    | with_reducible assumption
    | intro _
    | (extract_lets +onlyGivenNames u; refine (fun (_ : P u) => ?_) ?_; (on_goal 1 => clear_value u); (on_goal 2 => subst u))
    | with_reducible apply liveFell_keeps h
    | with_reducible apply set_keeps h
    | with_reducible apply ite_keeps
    | simp only [↓mk_iff h]

theorem secCtrlWrite_keeps (h : Keeps P) {s : State} (v : Word) (hs : P s) : P (State.secCtrlWrite s v) := by
  unfold State.secCtrlWrite
  repeat' first
    | with_reducible assumption
    | intro _
    | (extract_lets +onlyGivenNames u; refine (fun (_ : P u) => ?_) ?_; (on_goal 1 => clear_value u); (on_goal 2 => subst u))
    | with_reducible apply plainWrite_keeps h
    | with_reducible apply secureUp_keeps h
    | with_reducible apply ite_keeps

theorem execResArm_keeps (h : Keeps P) (w : World) (v : Word) {s : State} (hs : P s) {t' : State}
    (e : execResArm w v s = .next t') : P t' := by
  unfold execResArm at e
  injection e with e
  subst e
  repeat' first
    | with_reducible assumption
    | intro _
    | with_reducible apply asWriter_keeps h
    | with_reducible apply secCtrlWrite_keeps h

theorem execSwdtArm_keeps (h : Keeps P) (w : World) (v : Word) {s : State} (hs : P s) {t' : State}
    (e : execSwdtArm w v s = .next t') : P t' := by
  unfold execSwdtArm at e
  injection e with e
  subst e
  repeat' first
    | with_reducible assumption
    | intro _
    | with_reducible apply asWriter_keeps h
    | with_reducible apply secCtrlWrite_keeps h

theorem execSecureUp_keeps (h : Keeps P) (w : World) (v : Word) {s : State} (hs : P s) {t' : State}
    (e : execSecureUp w v s = .next t') : P t' := by
  unfold execSecureUp at e
  injection e with e
  subst e
  repeat' first
    | with_reducible assumption
    | intro _
    | with_reducible apply asWriter_keeps h
    | with_reducible apply secCtrlWrite_keeps h

theorem swdtKick_keeps (h : Keeps P) {s : State} (hs : P s) : P (State.swdtKick s) := by
  unfold State.swdtKick
  repeat' first
    | with_reducible assumption
    | intro _
    | with_reducible apply ite_keeps
    | simp only [↓mk_iff h]

theorem execSwdtKick_keeps (h : Keeps P) (w : World) {s : State} (hs : P s) {t' : State}
    (e : execSwdtKick w s = .next t') : P t' := by
  unfold execSwdtKick at e
  injection e with e
  subst e
  repeat' first
    | with_reducible assumption
    | intro _
    | with_reducible apply asWriter_keeps h
    | with_reducible apply swdtKick_keeps h

theorem execSwdtHalfPeriod_keeps (h : Keeps P) {s : State} (hs : P s) {t' : State}
    (e : execSwdtHalfPeriod s = .next t') : P t' := by
  unfold execSwdtHalfPeriod at e
  injection e with e
  subst e
  repeat' first
    | with_reducible assumption
    | intro _
    | with_reducible apply raiseIrq_keeps h
    | with_reducible apply ite_keeps
    | simp only [↓mk_iff h]

theorem execSwdtExpire_keeps (h : KeepsMem P) {s : State} (hs : P s) {t' : State}
    (e : execSwdtExpire s = .next t') : P t' := by
  unfold execSwdtExpire at e
  injection e with e
  subst e
  repeat' first
    | with_reducible assumption
    | intro _
    | with_reducible apply secureDown_keeps h
    | with_reducible apply ite_keeps
    | simp only [↓mk_iff h.toKeeps]

theorem restartEntry_keeps (h : Keeps P) {s : State} (c : Nat) (hs : P s) : P (State.restartEntry s c) := by
  unfold State.restartEntry
  repeat' first
    | with_reducible assumption
    | intro _
    | (extract_lets +onlyGivenNames u; refine (fun (_ : P u) => ?_) ?_; (on_goal 1 => clear_value u); (on_goal 2 => subst u))
    | (extract_lets +onlyGivenNames u; clear_value u)
    | with_reducible apply coreStart_keeps h
    | with_reducible apply enterSecure_keeps h
    | with_reducible apply haltCheck_keeps h
    | with_reducible apply set_keeps h
    | with_reducible apply setCore_keeps h
    | with_reducible apply ite_keeps

theorem imageEnter_keeps (h : Keeps P) {s : State} (c : Nat) (hs : P s) : P (State.imageEnter s c) := by
  unfold State.imageEnter
  repeat' first
    | with_reducible assumption
    | intro _
    | with_reducible apply setCore_keeps h
    | with_reducible apply ite_keeps
    | split

theorem romCheck_keeps (h : Keeps P) {s : State} (c : Nat) (romOk : Bool) (hs : P s) : P (State.romCheck s c romOk) := by
  unfold State.romCheck
  repeat' first
    | with_reducible assumption
    | intro _
    | with_reducible apply imageEnter_keeps h
    | with_reducible apply restartFail_keeps h
    | with_reducible apply ite_keeps

theorem romResume_keeps (h : Keeps P) {s : State} (c : Nat) (hs : P s) : P (State.romResume s c) := by
  unfold State.romResume
  repeat' first
    | with_reducible assumption
    | intro _
    | (extract_lets +onlyGivenNames u; refine (fun (_ : P u) => ?_) ?_; (on_goal 1 => clear_value u); (on_goal 2 => subst u))
    | (extract_lets +onlyGivenNames u; clear_value u)
    | with_reducible apply romCheck_keeps h
    | with_reducible apply setCore_keeps h
    | with_reducible apply ite_keeps
    | simp only [↓mk_iff h]
    | split

theorem secureRestart_keeps (h : Keeps P) {s : State} (romOk : Bool) (hs : P s) : P (State.secureRestart s romOk) := by
  unfold State.secureRestart
  repeat' first
    | with_reducible assumption
    | intro _
    | (extract_lets +onlyGivenNames u; refine (fun (_ : P u) => ?_) ?_; (on_goal 1 => clear_value u); (on_goal 2 => subst u))
    | with_reducible apply count_keeps h
    | with_reducible apply restartEntry_keeps h
    | with_reducible apply restartFail_keeps h
    | with_reducible apply romCheck_keeps h
    | with_reducible apply set_keeps h
    | with_reducible apply setCore_keeps h
    | with_reducible apply ite_keeps
    | simp only [↓mk_iff h]
    | split

theorem execSecureRestart_keeps (h : Keeps P) (romOk : Bool) {s : State} (hs : P s) {t' : State}
    (e : execSecureRestart romOk s = .next t') : P t' := by
  unfold execSecureRestart at e
  injection e with e
  subst e
  repeat' first
    | with_reducible assumption
    | intro _
    | with_reducible apply secureRestart_keeps h

theorem execRestartTimeout_keeps (h : Keeps P) {s : State} (hs : P s) {t' : State}
    (e : execRestartTimeout s = .next t') : P t' := by
  unfold execRestartTimeout at e
  injection e with e
  subst e
  repeat' first
    | with_reducible assumption
    | intro _
    | with_reducible apply restartFail_keeps h
    | with_reducible apply ite_keeps

theorem secureInterrupt_keeps (h : Keeps P) {s : State} (k : Nat) (hs : P s) : P (State.secureInterrupt s k) := by
  unfold State.secureInterrupt
  repeat' first
    | with_reducible assumption
    | intro _
    | with_reducible apply secureEntry_keeps h
    | with_reducible apply ite_keeps
    | simp only [↓mk_iff h]
    | split

theorem execSecureInterrupt_keeps (h : Keeps P) (k : Fin 512) {s : State} (hs : P s) {t' : State}
    (e : execSecureInterrupt k s = .next t') : P t' := by
  unfold execSecureInterrupt at e
  injection e with e
  subst e
  repeat' first
    | with_reducible assumption
    | intro _
    | with_reducible apply secureInterrupt_keeps h

theorem interruptDeliver_keeps (h : Keeps P) {s : State} (c : Nat) (x : Nat) (hs : P s) : P (State.interruptDeliver s c x) := by
  unfold State.interruptDeliver
  repeat' first
    | with_reducible assumption
    | intro _
    | (extract_lets +onlyGivenNames u; refine (fun (_ : P u) => ?_) ?_; (on_goal 1 => clear_value u); (on_goal 2 => subst u))
    | (extract_lets +onlyGivenNames u; clear_value u)
    | with_reducible apply haltCheck_keeps h
    | with_reducible apply setCore_keeps h
    | with_reducible apply ite_keeps

theorem execInterruptDeliver_keeps (h : Keeps P) (c : Fin 5) (x : Fin 3) {s : State} (hs : P s) {t' : State}
    (e : execInterruptDeliver c x s = .next t') : P t' := by
  unfold execInterruptDeliver at e
  injection e with e
  subst e
  repeat' first
    | with_reducible assumption
    | intro _
    | with_reducible apply interruptDeliver_keeps h

theorem irqClaim_keeps (h : Keeps P) {s : State} (c : Nat) (x : Nat) (w : World) (v : Word) (hs : P s) : P (State.irqClaim s c x w v) := by
  unfold State.irqClaim
  repeat' first
    | with_reducible assumption
    | intro _
    | (extract_lets +onlyGivenNames u; clear_value u)
    | with_reducible apply set_keeps h
    | with_reducible apply ite_keeps
    | simp only [↓mk_iff h]

theorem execIrqClaim_keeps (h : Keeps P) (c : Fin 5) (x : Fin 3) (w : World) (v : Word) {s : State} (hs : P s) {t' : State}
    (e : execIrqClaim c x w v s = .next t') : P t' := by
  unfold execIrqClaim at e
  injection e with e
  subst e
  repeat' first
    | with_reducible assumption
    | intro _
    | with_reducible apply irqClaim_keeps h

theorem endService_keeps (h : Keeps P) {s : State} (k : Nat) (pend : Bool) (hs : P s) : P (State.endService s k pend) := by
  unfold State.endService
  repeat' first
    | with_reducible assumption
    | intro _
    | (extract_lets +onlyGivenNames u; refine (fun (_ : P u) => ?_) ?_; (on_goal 1 => clear_value u); (on_goal 2 => subst u))
    | (extract_lets +onlyGivenNames u; clear_value u)
    | with_reducible apply set_keeps h
    | with_reducible apply ite_keeps
    | simp only [↓mk_iff h]

theorem irqComplete_keeps (h : Keeps P) {s : State} (c : Nat) (x : Nat) (w : World) (v : Word) (hs : P s) : P (State.irqComplete s c x w v) := by
  unfold State.irqComplete
  repeat' first
    | with_reducible assumption
    | intro _
    | (extract_lets +onlyGivenNames u; clear_value u)
    | with_reducible apply endService_keeps h
    | with_reducible apply ite_keeps

theorem execIrqComplete_keeps (h : Keeps P) (c : Fin 5) (x : Fin 3) (w : World) (v : Word) {s : State} (hs : P s) {t' : State}
    (e : execIrqComplete c x w v s = .next t') : P t' := by
  unfold execIrqComplete at e
  injection e with e
  subst e
  repeat' first
    | with_reducible assumption
    | intro _
    | with_reducible apply irqComplete_keeps h

theorem swiWrite_keeps (h : Keeps P) {s : State} (w : World) (v : Word) (hs : P s) : P (State.swiWrite s w v) := by
  unfold State.swiWrite
  repeat' first
    | with_reducible assumption
    | intro _
    | (extract_lets +onlyGivenNames u; clear_value u)
    | with_reducible apply raiseIrq_keeps h
    | with_reducible apply ite_keeps

theorem execSoftwareInterrupt_keeps (h : Keeps P) (w : World) (v : Word) {s : State} (hs : P s) {t' : State}
    (e : execSoftwareInterrupt w v s = .next t') : P t' := by
  unfold execSoftwareInterrupt at e
  injection e with e
  subst e
  repeat' first
    | with_reducible assumption
    | intro _
    | with_reducible apply swiWrite_keeps h

theorem sourceMoved_keeps (h : Keeps P) {s : State} (k : Nat) (hs : P s) : P (State.sourceMoved s k) := by
  unfold State.sourceMoved
  repeat' first
    | with_reducible assumption
    | intro _
    | (extract_lets +onlyGivenNames u; refine (fun (_ : P u) => ?_) ?_; (on_goal 1 => clear_value u); (on_goal 2 => subst u))
    | (extract_lets +onlyGivenNames u; clear_value u)
    | with_reducible apply endService_keeps h
    | with_reducible apply ite_keeps
    | simp only [↓mk_iff h]

theorem sourceWrite_keeps (h : Keeps P) {s : State} (k : Nat) (w : World) (v : Word) (hs : P s) : P (State.sourceWrite s k w v) := by
  unfold State.sourceWrite
  repeat' first
    | with_reducible assumption
    | intro _
    | (extract_lets +onlyGivenNames u; refine (fun (_ : P u) => ?_) ?_; (on_goal 1 => clear_value u); (on_goal 2 => subst u))
    | (extract_lets +onlyGivenNames u; clear_value u)
    | with_reducible apply plainWrite_keeps h
    | with_reducible apply set_keeps h
    | with_reducible apply sourceMoved_keeps h
    | with_reducible apply ite_keeps

/-! ### OwnGate -/

theorem gateTry_keeps (h : Keeps P) {s : State} (u : Nat) (i : Nat) (hs : P s) : P (State.gateTry s u i) := by
  unfold State.gateTry
  repeat' first
    | with_reducible assumption
    | intro _
    | (extract_lets +onlyGivenNames u; refine (fun (_ : P u) => ?_) ?_; (on_goal 1 => clear_value u); (on_goal 2 => subst u))
    | (extract_lets +onlyGivenNames u; clear_value u)
    | with_reducible apply audioGated_keeps h
    | with_reducible apply logEvent_keeps h
    | with_reducible apply set_keeps h
    | with_reducible apply ite_keeps
    | simp only [↓mk_iff h]

theorem reactionHeld_keeps (h : Keeps P) {s : State} (t : State) (u i : Nat) (ht : P t) : P (State.reactionHeld s t u i) := by
  unfold State.reactionHeld
  exact ite_keeps (set_keeps h _ _ (setHc_keeps h _ _ ht)) (ite_keeps (set_keeps h _ _ (setTch_keeps h _ _ ht)) ht)

theorem resetHidden_keeps (h : Keeps P) {s : State} (u : Nat) (i : Nat) (hs : P s) : P (State.resetHidden s u i) := by
  unfold State.resetHidden
  repeat' first
    | with_reducible assumption
    | intro _
    | (extract_lets +onlyGivenNames u; clear_value u)
    | with_reducible apply setTch_keeps h
    | with_reducible apply ite_keeps
    | simp only [↓mk_iff h]

theorem ungate_keeps (h : Keeps P) {s : State} (u : Nat) (i : Nat) (hs : P s) : P (State.ungate s u i) := by
  unfold State.ungate
  repeat' first
    | with_reducible assumption
    | intro _
    | (extract_lets +onlyGivenNames u; refine (fun (_ : P u) => ?_) ?_; (on_goal 1 => clear_value u); (on_goal 2 => subst u))
    | (extract_lets +onlyGivenNames u; clear_value u)
    | with_reducible apply each_keeps
    | with_reducible apply fellSince_keeps h
    | with_reducible apply hapSetUse_keeps h
    | with_reducible apply reactionHeld_keeps h
    | with_reducible apply resBit_keeps h
    | with_reducible apply resetHidden_keeps h
    | with_reducible apply resetRange_keeps h
    | with_reducible apply when_keeps
    | with_reducible apply ite_keeps
    | simp only [↓mk_iff h]

theorem gateWithdraw_keeps (h : Keeps P) {s : State} (u : Nat) (i : Nat) (hs : P s) : P (State.gateWithdraw s u i) := by
  unfold State.gateWithdraw
  repeat' first
    | with_reducible assumption
    | intro _
    | (extract_lets +onlyGivenNames u; refine (fun (_ : P u) => ?_) ?_; (on_goal 1 => clear_value u); (on_goal 2 => subst u))
    | (extract_lets +onlyGivenNames u; clear_value u)
    | with_reducible apply set_keeps h
    | with_reducible apply ungate_keeps h
    | with_reducible apply ite_keeps
    | simp only [↓mk_iff h]

theorem gateWrite_keeps (h : Keeps P) {s : State} (u : Nat) (k : Nat) (w : World) (v : Word) (hs : P s) : P (State.gateWrite s u k w v) := by
  unfold State.gateWrite
  repeat' first
    | with_reducible assumption
    | intro _
    | (extract_lets +onlyGivenNames u; refine (fun (_ : P u) => ?_) ?_; (on_goal 1 => clear_value u); (on_goal 2 => subst u))
    | (extract_lets +onlyGivenNames u; clear_value u)
    | with_reducible apply each_keeps
    | with_reducible apply gateTry_keeps h
    | with_reducible apply gateWithdraw_keeps h
    | with_reducible apply set_keeps h
    | with_reducible apply ite_keeps
    | simp only [↓mk_iff h]

theorem execGateRequest_keeps (h : Keeps P) (u : Fin 33) (k : Fin 8) (w : World) (v : Word) {s : State} (hs : P s) {t' : State}
    (e : execGateRequest u k w v s = .next t') : P t' := by
  unfold execGateRequest at e
  injection e with e
  subst e
  repeat' first
    | with_reducible assumption
    | intro _
    | with_reducible apply gateWrite_keeps h

theorem execGateWithdraw_keeps (h : Keeps P) (u : Fin 33) (k : Fin 8) (w : World) (v : Word) {s : State} (hs : P s) {t' : State}
    (e : execGateWithdraw u k w v s = .next t') : P t' := by
  unfold execGateWithdraw at e
  injection e with e
  subst e
  repeat' first
    | with_reducible assumption
    | intro _
    | with_reducible apply gateWrite_keeps h

theorem execGateTakeEffect_keeps (h : Keeps P) (u : Fin 33) (i : Fin 256) {s : State} (hs : P s) {t' : State}
    (e : execGateTakeEffect u i s = .next t') : P t' := by
  unfold execGateTakeEffect at e
  injection e with e
  subst e
  repeat' first
    | with_reducible assumption
    | intro _
    | with_reducible apply gateTry_keeps h
    | with_reducible apply ite_keeps

theorem sourcesMoved_keeps (h : Keeps P) {s : State} (u : Nat) (i : Nat) (hs : P s) : P (State.sourcesMoved s u i) := by
  unfold State.sourcesMoved
  repeat' first
    | with_reducible assumption
    | intro _
    | with_reducible apply each_keeps
    | with_reducible apply sourceMoved_keeps h

theorem ownBit_keeps (h : Keeps P) {s : State} (u : Nat) (i : Nat) (want : Bool) (hs : P s) : P (State.ownBit s u i want) := by
  unfold State.ownBit
  repeat' first
    | with_reducible assumption
    | intro _
    | (extract_lets +onlyGivenNames u; clear_value u)
    | with_reducible apply count_keeps h
    | with_reducible apply gateTry_keeps h
    | with_reducible apply set_keeps h
    | with_reducible apply sourcesMoved_keeps h
    | with_reducible apply ite_keeps

theorem ownWrite_keeps (h : Keeps P) {s : State} (u : Nat) (k : Nat) (v : Word) (hs : P s) : P (State.ownWrite s u k v) := by
  unfold State.ownWrite
  repeat' first
    | with_reducible assumption
    | intro _
    | with_reducible apply each_keeps
    | with_reducible apply ownBit_keeps h
    | with_reducible apply ite_keeps

theorem execOwnerClaim_keeps (h : Keeps P) (u : Fin 33) (k : Fin 8) (w : World) (v : Word) {s : State} (hs : P s) {t' : State}
    (e : execOwnerClaim u k w v s = .next t') : P t' := by
  unfold execOwnerClaim at e
  injection e with e
  subst e
  repeat' first
    | with_reducible assumption
    | intro _
    | with_reducible apply asWriter_keeps h
    | with_reducible apply ownWrite_keeps h

theorem execOwnerRelease_keeps (h : Keeps P) (u : Fin 33) (k : Fin 8) (w : World) (v : Word) {s : State} (hs : P s) {t' : State}
    (e : execOwnerRelease u k w v s = .next t') : P t' := by
  unfold execOwnerRelease at e
  injection e with e
  subst e
  repeat' first
    | with_reducible assumption
    | intro _
    | with_reducible apply asWriter_keeps h
    | with_reducible apply ownWrite_keeps h

/-! ### FaultCmds -/

theorem classWrite_keeps (h : Keeps P) {s : State} (k : Nat) (v : Word) (hs : P s) : P (State.classWrite s k v) := by
  unfold State.classWrite
  repeat' first
    | with_reducible assumption
    | intro _
    | with_reducible apply set_keeps h
    | with_reducible apply ite_keeps

theorem execFaultClassWrite_keeps (h : Keeps P) (k : Fin 448) (w : World) (v : Word) {s : State} (hs : P s) {t' : State}
    (e : execFaultClassWrite k w v s = .next t') : P t' := by
  unfold execFaultClassWrite at e
  injection e with e
  subst e
  repeat' first
    | with_reducible assumption
    | intro _
    | with_reducible apply asWriter_keeps h
    | with_reducible apply classWrite_keeps h

theorem requestWrite_keeps (h : KeepsMem P) {s : State} (v : Word) (hs : P s) : P (State.requestWrite s v) := by
  unfold State.requestWrite
  repeat' first
    | with_reducible assumption
    | intro _
    | (extract_lets +onlyGivenNames u; refine (fun (_ : P u) => ?_) ?_; (on_goal 1 => clear_value u); (on_goal 2 => subst u))
    | (extract_lets +onlyGivenNames u; clear_value u)
    | with_reducible apply each_keeps
    | with_reducible apply inOrder_keeps h.toKeeps
    | with_reducible apply raiseFault_keeps h
    | with_reducible apply ite_keeps

theorem execRequestC3_keeps (h : KeepsMem P) (w : World) (v : Word) {s : State} (hs : P s) {t' : State}
    (e : execRequestC3 w v s = .next t') : P t' := by
  unfold execRequestC3 at e
  injection e with e
  subst e
  repeat' first
    | with_reducible assumption
    | intro _
    | with_reducible apply asWriter_keeps h.toKeeps
    | with_reducible apply requestWrite_keeps h

theorem execRequestScreen_keeps (h : KeepsMem P) (n : Fin 8) (w : World) (v : Word) {s : State} (hs : P s) {t' : State}
    (e : execRequestScreen n w v s = .next t') : P t' := by
  unfold execRequestScreen at e
  injection e with e
  subst e
  repeat' first
    | with_reducible assumption
    | intro _
    | with_reducible apply asWriter_keeps h.toKeeps
    | with_reducible apply requestWrite_keeps h

theorem scopeRelease_keeps (h : Keeps P) {s : State} (hs : P s) (x : Scope) : P (s.scopeRelease x) := by
  cases x with
  | screen n => exact ite_keeps (setScr_keeps h _ _ hs) (setScr_keeps h _ _ hs)
  | haptic n => exact liveFell_keeps h _ (hapFree_keeps h _ hs)
  | touch n =>
    have k := setTch_keeps h n { s.tch n with contained := false } hs
    exact ite_keeps (ite_keeps (setTPhase_keeps h _ _ (quietStart_keeps h _ k)) (setTPhase_keeps h _ _ k)) (setTPhase_keeps h _ _ k)
  | audio => exact h.other hs rfl rfl rfl rfl rfl

theorem releaseWrite_keeps (h : Keeps P) {s : State} (v : Word) (clash : Bool) (hs : P s) : P (State.releaseWrite s v clash) := by
  unfold State.releaseWrite
  repeat' first
    | with_reducible assumption
    | intro _
    | with_reducible apply count_keeps h
    | with_reducible apply scopeRelease_keeps h
    | with_reducible apply set_keeps h
    | with_reducible apply ite_keeps
    | simp only [↓mk_iff h]
    | split

theorem execFaultRelease_keeps (h : Keeps P) (w : World) (v : Word) (clash : Bool) {s : State} (hs : P s) {t' : State}
    (e : execFaultRelease w v clash s = .next t') : P t' := by
  unfold execFaultRelease at e
  injection e with e
  subst e
  repeat' first
    | with_reducible assumption
    | intro _
    | with_reducible apply asWriter_keeps h
    | with_reducible apply releaseWrite_keeps h

theorem selfMismatch_keeps (h : KeepsMem P) {s : State} (hs : P s) : P (State.selfMismatch s) := by
  unfold State.selfMismatch
  repeat' first
    | with_reducible assumption
    | intro _
    | with_reducible apply raiseFault_keeps h
    | with_reducible apply set_keeps h.toKeeps
    | with_reducible apply stopToll_keeps h.toKeeps

theorem execFltSelfMismatch_keeps (h : KeepsMem P) {s : State} (hs : P s) {t' : State}
    (e : execFltSelfMismatch s = .next t') : P t' := by
  unfold execFltSelfMismatch at e
  injection e with e
  subst e
  repeat' first
    | with_reducible assumption
    | intro _
    | with_reducible apply selfMismatch_keeps h

theorem tollStart_keeps (h : Keeps P) {s : State} (hs : P s) : P (State.tollStart s) := by
  unfold State.tollStart
  repeat' first
    | with_reducible assumption
    | intro _
    | with_reducible apply set_keeps h
    | with_reducible apply ite_keeps
    | simp only [↓mk_iff h]

theorem tollCtrlWrite_keeps (h : Keeps P) {s : State} (v : Word) (hs : P s) : P (State.tollCtrlWrite s v) := by
  unfold State.tollCtrlWrite
  repeat' first
    | with_reducible assumption
    | intro _
    | (extract_lets +onlyGivenNames u; refine (fun (_ : P u) => ?_) ?_; (on_goal 1 => clear_value u); (on_goal 2 => subst u))
    | (extract_lets +onlyGivenNames u; clear_value u)
    | with_reducible apply plainWrite_keeps h
    | with_reducible apply tollStart_keeps h
    | with_reducible apply ite_keeps

theorem execTollArm_keeps (h : Keeps P) (w : World) (v : Word) {s : State} (hs : P s) {t' : State}
    (e : execTollArm w v s = .next t') : P t' := by
  unfold execTollArm at e
  injection e with e
  subst e
  repeat' first
    | with_reducible assumption
    | intro _
    | with_reducible apply asWriter_keeps h
    | with_reducible apply tollCtrlWrite_keeps h

theorem tollKick_keeps (h : Keeps P) {s : State} (hs : P s) : P (State.tollKick s) := by
  unfold State.tollKick
  repeat' first
    | with_reducible assumption
    | intro _
    | with_reducible apply tollStart_keeps h
    | with_reducible apply ite_keeps

theorem execTollKick_keeps (h : Keeps P) (w : World) {s : State} (hs : P s) {t' : State}
    (e : execTollKick w s = .next t') : P t' := by
  unfold execTollKick at e
  injection e with e
  subst e
  repeat' first
    | with_reducible assumption
    | intro _
    | with_reducible apply asWriter_keeps h
    | with_reducible apply tollKick_keeps h

theorem execTollToggle_keeps (h : Keeps P) {s : State} (hs : P s) {t' : State}
    (e : execTollToggle s = .next t') : P t' := by
  unfold execTollToggle at e
  injection e with e
  subst e
  repeat' first
    | with_reducible assumption
    | intro _
    | with_reducible apply ite_keeps
    | simp only [↓mk_iff h]

theorem execTollWindowExpire_keeps (h : Keeps P) {s : State} (hs : P s) {t' : State}
    (e : execTollWindowExpire s = .next t') : P t' := by
  unfold execTollWindowExpire at e
  injection e with e
  subst e
  repeat' first
    | with_reducible assumption
    | intro _
    | with_reducible apply stopToll_keeps h

theorem fltCtrlWrite_keeps (h : Keeps P) {s : State} (v : Word) (hs : P s) : P (State.fltCtrlWrite s v) := by
  unfold State.fltCtrlWrite
  repeat' first
    | with_reducible assumption
    | intro _
    | (extract_lets +onlyGivenNames u; refine (fun (_ : P u) => ?_) ?_; (on_goal 1 => clear_value u); (on_goal 2 => subst u))
    | (extract_lets +onlyGivenNames u; clear_value u)
    | with_reducible apply plainWrite_keeps h
    | with_reducible apply set_keeps h

theorem execSafeOk_keeps (h : Keeps P) (w : World) (v : Word) {s : State} (hs : P s) {t' : State}
    (e : execSafeOk w v s = .next t') : P t' := by
  unfold execSafeOk at e
  injection e with e
  subst e
  repeat' first
    | with_reducible assumption
    | intro _
    | with_reducible apply asWriter_keeps h
    | with_reducible apply fltCtrlWrite_keeps h

theorem execFltSelftest_keeps (h : Keeps P) (w : World) (v : Word) {s : State} (hs : P s) {t' : State}
    (e : execFltSelftest w v s = .next t') : P t' := by
  unfold execFltSelftest at e
  injection e with e
  subst e
  repeat' first
    | with_reducible assumption
    | intro _
    | with_reducible apply asWriter_keeps h
    | with_reducible apply plainWrite_keeps h

theorem execFltSelftestDone_keeps (h : Keeps P) (ok : Bool) {s : State} (hs : P s) {t' : State}
    (e : execFltSelftestDone ok s = .next t') : P t' := by
  unfold execFltSelftestDone at e
  injection e with e
  subst e
  repeat' first
    | with_reducible assumption
    | intro _
    | with_reducible apply set_keeps h
    | with_reducible apply ite_keeps

theorem pwrEvent_keeps (h : Keeps P) {s : State} (flag : Fld) (hs : P s) : P (State.pwrEvent s flag) := by
  unfold State.pwrEvent
  repeat' first
    | with_reducible assumption
    | intro _
    | with_reducible apply event_keeps h

theorem warnedStart_keeps (h : Keeps P) {s : State} (pf : Bool) (hs : P s) : P (State.warnedStart s pf) := by
  unfold State.warnedStart
  repeat' first
    | with_reducible assumption
    | intro _
    | with_reducible apply bboxOwn_keeps h
    | with_reducible apply set_keeps h
    | with_reducible apply ite_keeps

theorem bboxWarn_keeps (h : Keeps P) {s : State} (hs : P s) : P (State.bboxWarn s) := by
  unfold State.bboxWarn
  repeat' first
    | with_reducible assumption
    | intro _
    | (extract_lets +onlyGivenNames u; refine (fun (_ : P u) => ?_) ?_; (on_goal 1 => clear_value u); (on_goal 2 => subst u))
    | (extract_lets +onlyGivenNames u; clear_value u)
    | with_reducible apply bboxCommit_keeps h
    | with_reducible apply flashDrive_keeps h
    | with_reducible apply set_keeps h
    | with_reducible apply when_keeps
    | with_reducible apply ite_keeps
    | simp only [↓mk_iff h]

theorem brownoutBegin_keeps (h : KeepsMem P) {s : State} (hs : P s) : P (State.brownoutBegin s) := by
  unfold State.brownoutBegin
  repeat' first
    | with_reducible assumption
    | intro _
    | (extract_lets +onlyGivenNames u; refine (fun (_ : P u) => ?_) ?_; (on_goal 1 => clear_value u); (on_goal 2 => subst u))
    | (extract_lets +onlyGivenNames u; clear_value u)
    | with_reducible apply each_keeps
    | with_reducible apply pwrEvent_keeps h.toKeeps
    | with_reducible apply raiseFault_keeps h
    | with_reducible apply set_keeps h.toKeeps
    | with_reducible apply ite_keeps
    | simp only [↓mk_iff h.toKeeps]

theorem supplyWarning_keeps (h : KeepsMem P) {s : State} (pf : Bool) (hs : P s) : P (State.supplyWarning s pf) := by
  unfold State.supplyWarning
  repeat' first
    | with_reducible assumption
    | intro _
    | (extract_lets +onlyGivenNames u; refine (fun (_ : P u) => ?_) ?_; (on_goal 1 => clear_value u); (on_goal 2 => subst u))
    | (extract_lets +onlyGivenNames u; clear_value u)
    | with_reducible apply bboxWarn_keeps h.toKeeps
    | with_reducible apply brownoutBegin_keeps h
    | with_reducible apply set_keeps h.toKeeps
    | with_reducible apply warnedStart_keeps h.toKeeps
    | with_reducible apply ite_keeps

theorem execSupplyWarning_keeps (h : KeepsMem P) (pf : Bool) {s : State} (hs : P s) {t' : State}
    (e : execSupplyWarning pf s = .next t') : P t' := by
  unfold execSupplyWarning at e
  injection e with e
  subst e
  repeat' first
    | with_reducible assumption
    | intro _
    | with_reducible apply supplyWarning_keeps h

theorem execSupplyWarningEnd_keeps (h : Keeps P) {s : State} (hs : P s) {t' : State}
    (e : execSupplyWarningEnd s = .next t') : P t' := by
  unfold execSupplyWarningEnd at e
  injection e with e
  subst e
  repeat' first
    | with_reducible assumption
    | intro _
    | with_reducible apply set_keeps h

theorem supplyFail_keeps (h : KeepsMem P) {s : State} (hs : P s) : P (State.supplyFail s) := by
  unfold State.supplyFail
  repeat' first
    | with_reducible assumption
    | intro _
    | with_reducible apply pwrEvent_keeps h.toKeeps
    | with_reducible apply raiseFault_keeps h

theorem execSupplyFail_keeps (h : KeepsMem P) {s : State} (hs : P s) {t' : State}
    (e : execSupplyFail s = .next t') : P t' := by
  unfold execSupplyFail at e
  injection e with e
  subst e
  repeat' first
    | with_reducible assumption
    | intro _
    | with_reducible apply supplyFail_keeps h
    | with_reducible apply ite_keeps

theorem protCheckAction_keeps (h : Keeps P) {s : State} (n : Nat) (hs : P s) : P (State.protCheckAction s n) := by
  unfold State.protCheckAction
  repeat' first
    | with_reducible assumption
    | intro _
    | with_reducible apply addCause_keeps h
    | with_reducible apply each_keeps
    | with_reducible apply protEvent_keeps h
    | with_reducible apply ite_keeps

theorem sextantTestAction_keeps (h : KeepsMem P) {s : State} (x : Nat) (hs : P s) : P (State.sextantTestAction s x) := by
  unfold State.sextantTestAction
  repeat' first
    | with_reducible assumption
    | intro _
    | (extract_lets +onlyGivenNames u; clear_value u)
    | with_reducible apply fellSince_keeps h.toKeeps
    | with_reducible apply noSextant_keeps h
    | with_reducible apply set_keeps h.toKeeps
    | with_reducible apply sextantOut_keeps h.toKeeps
    | with_reducible apply sxtTestOver_keeps h.toKeeps
    | with_reducible apply ite_keeps

theorem sextantsGone_keeps (h : Keeps P) {s : State} (hs : P s) : P (State.sextantsGone s) := by
  unfold State.sextantsGone
  repeat' first
    | with_reducible assumption
    | intro _
    | (extract_lets +onlyGivenNames u; clear_value u)
    | with_reducible apply each_keeps
    | with_reducible apply sextantOut_keeps h
    | with_reducible apply sxtTestOver_keeps h
    | with_reducible apply ite_keeps

theorem protStale_keeps (h : Keeps P) {s : State} (n : Nat) (hs : P s) : P (State.protStale s n) := by
  unfold State.protStale
  repeat' first
    | with_reducible assumption
    | intro _
    | with_reducible apply addCause_keeps h
    | with_reducible apply each_keeps
    | with_reducible apply set_keeps h
    | with_reducible apply ite_keeps

theorem rowDisturbed_keeps (h : KeepsMem P) {s : State} (n : Nat) (hs : P s) : P (State.rowDisturbed s n) := by
  unfold State.rowDisturbed
  repeat' first
    | with_reducible assumption
    | intro _
    | with_reducible apply draw_keeps h.toKeeps
    | with_reducible apply rowDisturb_keeps h

theorem touchObstructed_keeps (h : KeepsMem P) {s : State} (n : Nat) (hs : P s) : P (State.touchObstructed s n) := by
  unfold State.touchObstructed
  repeat' first
    | with_reducible assumption
    | intro _
    | with_reducible apply draw_keeps h.toKeeps
    | with_reducible apply raiseFault_keeps h
    | with_reducible apply touchObstruct_keeps h
    | with_reducible apply ite_keeps
    | simp only [↓mk_iff h.toKeeps]
    | split

theorem unitEvent_keeps (h : KeepsMem P) {s u : State} (k : Nat) (hs : P s) (e : s.unitEvent k = some u) : P u := by
  have step : ∀ {c : Prop} [Decidable c] {a : State} {b : Option State}, P a → (b = some u → P u) →
      (if c then some a else b) = some u → P u := fun {c} _ {a} {b} ha hb e => by
    by_cases hc : c
    · rw [if_pos hc] at e; injection e with e; exact e ▸ ha
    · rw [if_neg hc] at e; exact hb e
  unfold State.unitEvent at e
  refine step (drumLost_keeps h hs) (fun e => ?_) e
  refine step (ite_keeps (raiseFault_keeps h _ _ hs) (bboxWarn_keeps h.toKeeps (brownoutBegin_keeps h hs))) (fun e => ?_) e
  refine step (supplyFail_keeps h hs) (fun e => ?_) e
  refine step (secureDown_keeps h _ _ hs) (fun e => ?_) e
  refine step (raiseFault_keeps h _ _ (sextantsGone_keeps h.toKeeps hs)) (fun e => ?_) e
  refine step (raiseFault_keeps h _ _ (each_keeps (fun n _ ht => engineStop_keeps h.toKeeps n ht) hs _)) (fun e => ?_) e
  refine step (noChart_keeps h hs) (fun e => ?_) e
  refine step (startFail_keeps h _ hs) (fun e => ?_) e
  refine step (selfMismatch_keeps h hs) (fun e => ?_) e
  have q : P _ := h.other (t := { s.needPipe (k - 64) with exhausted := if s.exhausted.contains (k - 64) then s.exhausted else (k - 64) :: s.exhausted }) (needPipe_keeps h.toKeeps (k - 64) hs) rfl rfl rfl rfl rfl
  refine step (raiseFault_keeps h _ _ q) (fun e => ?_) e
  refine step (raiseFault_keeps h _ _ (protStale_keeps h.toKeeps _ hs)) (fun e => ?_) e
  refine step (unusable_keeps h _ hs) (fun e => ?_) e
  refine step (raiseFault_keeps h _ _ (set_keeps h.toKeeps _ _ hs)) (fun e => ?_) e
  refine step (unplug_keeps h _ hs) (fun e => ?_) e
  refine step (freezeSide_keeps h _ _ _ _ (draw_keeps h.toKeeps hs)) (fun e => ?_) e
  refine step (raiseFault_keeps h _ _ (setSide_keeps h.toKeeps _ _ hs)) (fun e => ?_) e
  refine step (rowDisturbed_keeps h _ hs) (fun e => ?_) e
  refine step (coreFail_keeps h _ hs) (fun e => ?_) e
  refine step (tslLose_keeps h _ hs) (fun e => ?_) e
  refine step (touchObstructed_keeps h _ hs) (fun e => ?_) e
  refine step (noiseEnter_keeps h _ hs) (fun e => ?_) e
  refine step (raiseFault_keeps h _ _ (set_keeps h.toKeeps _ _ hs)) (fun e => ?_) e
  refine step (hapSense_keeps h _ hs) (fun e => ?_) e
  cases e

theorem inputAction_keeps (h : KeepsMem P) {s : State} (k : Nat) (hs : P s) : P (State.inputAction s k) := by
  unfold State.inputAction
  repeat' first
    | with_reducible assumption
    | intro _
    | with_reducible apply arrayAction_keeps h
    | with_reducible apply pipeArray_keeps h.toKeeps
    | with_reducible apply pipeWear_keeps h.toKeeps
    | with_reducible apply protCheckAction_keeps h.toKeeps
    | with_reducible apply raiseIrq_keeps h.toKeeps
    | with_reducible apply set_keeps h.toKeeps
    | with_reducible apply sextantArray_keeps h
    | with_reducible apply sextantTestAction_keeps h
    | with_reducible apply watchAction_keeps h.toKeeps
    | with_reducible apply ite_keeps

theorem faultEvent_keeps (h : KeepsMem P) {s : State} (k : Nat) (c : Capture) (hs : P s) : P (State.faultEvent s k c) := by
  unfold State.faultEvent
  split
  · exact hs
  · split
    · exact unitEvent_keeps h k hs (by assumption)
    · have q := inputAction_keeps h k (raiseFault_keeps h k (if k ≤ 2 then some c else none) hs)
      exact ite_keeps (inOrder_keeps h.toKeeps _ q) q

theorem execFaultEvent_keeps (h : KeepsMem P) (k : Fin 448) (addr : BitVec 40) (type : Fin 6) (m : Master) {s : State} (hs : P s) {t' : State}
    (e : execFaultEvent k addr type m s = .next t') : P t' := by
  unfold execFaultEvent at e
  injection e with e
  subst e
  repeat' first
    | with_reducible assumption
    | intro _
    | with_reducible apply faultEvent_keeps h

/-! ### Ingress -/

theorem guestRefuse_keeps (h : Keeps P) {s : State} (n : Nat) (id : Nat) (write : Bool) (hs : P s) : P (State.guestRefuse s n id write) := by
  unfold State.guestRefuse
  repeat' first
    | with_reducible assumption
    | intro _
    | (extract_lets +onlyGivenNames u; refine (fun (_ : P u) => ?_) ?_; (on_goal 1 => clear_value u); (on_goal 2 => subst u))
    | (extract_lets +onlyGivenNames u; clear_value u)
    | with_reducible apply hostReply_keeps h
    | with_reducible apply pageEvent_keeps h
    | with_reducible apply sessIrq_keeps h
    | with_reducible apply setFunc_keeps h
    | with_reducible apply when_keeps

theorem bar2Refuse_keeps (h : Keeps P) {s : State} (n : Nat) (t : HeldTx) (hs : P s) : P (State.bar2Refuse s n t) := by
  unfold State.bar2Refuse
  repeat' first
    | with_reducible assumption
    | intro _
    | with_reducible apply guestRefuse_keeps h

theorem bar2Go_keeps (h : KeepsMem P) {s : State} (n : Nat) (addr : Nat) (cost : Nat) (t : HeldTx) (hs : P s) : P (State.bar2Go s n addr cost t) := by
  unfold State.bar2Go
  repeat' first
    | with_reducible assumption
    | intro _
    | (extract_lets +onlyGivenNames u; refine (fun (_ : P u) => ?_) ?_; (on_goal 1 => clear_value u); (on_goal 2 => subst u))
    | (extract_lets +onlyGivenNames u; refine (fun (_ : P u.2) => ?_) ?_; (on_goal 1 => clear_value u); (on_goal 2 => subst u))
    | (extract_lets +onlyGivenNames u; clear_value u)
    | with_reducible apply bar2Refuse_keeps h.toKeeps
    | with_reducible apply count_keeps h.toKeeps
    | with_reducible apply hostReply_keeps h.toKeeps
    | with_reducible apply noteDecode_keeps h.toKeeps
    | with_reducible apply pageEvent_keeps h.toKeeps
    | with_reducible apply queueRead_keeps h.toKeeps
    | with_reducible apply queueWrite_keeps h.toKeeps
    | with_reducible apply sessIrq_keeps h.toKeeps
    | with_reducible apply setSes_keeps h.toKeeps
    | with_reducible apply writeMem_keeps h
    | with_reducible apply ite_keeps
    | simp only [↓mk_iff h.toKeeps]
    | split

theorem setQuotaHeld_keeps (h : Keeps P) {s : State} (n : Nat) (b : Bool) (hs : P s) : P (State.setQuotaHeld s n b) := by
  unfold State.setQuotaHeld
  repeat' first
    | with_reducible assumption
    | intro _
    | with_reducible apply set_keeps h

theorem guestRegs_keeps (h : Keeps P) {s : State} (f : Nat) (session : Option Nat) (a : Nat) (t : HeldTx)
    (wr : Nat → Word → State → State) (rd : Nat → State → Word × State) (hs : P s) (h_wr : ∀ x v t, P t → P (wr x v t))
    (h_rd : ∀ x t, P t → P (rd x t).2) : P (State.guestRegs s f session a t wr rd) := by
  unfold State.guestRegs
  dsimp only
  split
  · exact hostReply_keeps h _ (noteRegAccess_keeps h _ hs)
  · exact ite_keeps (hostReply_keeps h _ (each_keeps (fun x u hu => h_wr x _ u hu) hs _))
      (hostReply_keeps h _ (foldlSnd_keeps (f := fun p x => (p.1 ++ leBytes 4 (BitVec.toNat (rd x p.2).1), (rd x p.2).2))
        (p := ([], s)) (fun p x hp => h_rd x p.2 hp) hs _))

theorem bar0Go_keeps (h : Keeps P) {s : State} (f : Nat) (n : Nat) (t : HeldTx) (hs : P s) : P (State.bar0Go s f n t) := by
  unfold State.bar0Go
  repeat' first
    | with_reducible assumption
    | intro _
    | with_reducible apply guestRegs_keeps h
    | with_reducible apply pageReadEffect_keeps h
    | with_reducible apply pageWrite_keeps h

theorem bar4Go_keeps (h : Keeps P) {s : State} (f : Nat) (t : HeldTx) (hs : P s) : P (State.bar4Go s f t) := by
  unfold State.bar4Go
  repeat' first
    | with_reducible assumption
    | intro _
    | (extract_lets +onlyGivenNames u; clear_value u)
    | with_reducible apply guestRegs_keeps h
    | with_reducible apply msixFlush_keeps h
    | with_reducible apply setFunc_keeps h
    | with_reducible apply ite_keeps

theorem ingressHead_keeps (h : KeepsMem P) {s u : State} (f : Nat) (hs : P s) (e : s.ingressHead f = some u) : P u := by
  unfold State.ingressHead at e
  split at e
  · cases e
  · rename_i r _
    have k := setFunc_keeps h.toKeeps f { s.func f with ingress := r } hs
    dsimp only at e
    split at e
    · cases e; exact bar4Go_keeps h.toKeeps _ _ k
    · split at e
      · cases e; exact hostReply_keeps h.toKeeps _ k
      · split at e
        · cases e; exact bar0Go_keeps h.toKeeps _ _ _ k
        · split at e
          · cases e
          · cases e; exact bar2Refuse_keeps h.toKeeps _ _ (setQuotaHeld_keeps h.toKeeps _ _ k)
          · cases e; exact bar2Go_keeps h _ _ _ _ (setQuotaHeld_keeps h.toKeeps _ _ k)

theorem drainIngress_keeps (h : KeepsMem P) {s : State} (hs : P s) (f k : Nat) : P (s.drainIngress f k) := by
  induction k generalizing s with
  | zero => exact hs
  | succ k ih =>
    unfold State.drainIngress
    split
    · exact ih (ingressHead_keeps h f hs (by assumption))
    · exact hs

theorem markHeld_keeps (h : Keeps P) {s : State} (f : Nat) (hs : P s) : P (State.markHeld s f) := by
  unfold State.markHeld
  repeat' first
    | with_reducible assumption
    | intro _
    | with_reducible apply setQuotaHeld_keeps h
    | with_reducible apply ite_keeps
    | simp only [↓mk_iff h]
    | split

theorem guestAccess_keeps (h : KeepsMem P) {s : State} (p : Nat) (f : Nat) (t : HeldTx) (hs : P s) : P (State.guestAccess s p f t) := by
  unfold State.guestAccess
  repeat' first
    | with_reducible assumption
    | intro _
    | (extract_lets +onlyGivenNames u; refine (fun (_ : P u) => ?_) ?_; (on_goal 1 => clear_value u); (on_goal 2 => subst u))
    | (extract_lets +onlyGivenNames u; clear_value u)
    | with_reducible apply drainIngress_keeps h
    | with_reducible apply markHeld_keeps h.toKeeps
    | with_reducible apply setFunc_keeps h.toKeeps
    | with_reducible apply ite_keeps
    | simp only [↓mk_iff h.toKeeps]

theorem barAccess_keeps (h : KeepsMem P) {s : State} (b : BarPlace) (write : Bool) (bytes : List Byte) (len : Nat) (hs : P s) : P (State.barAccess s b write bytes len) := by
  unfold State.barAccess
  repeat' first
    | with_reducible assumption
    | intro _
    | with_reducible apply guestAccess_keeps h
    | with_reducible apply ite_keeps
    | simp only [↓mk_iff h.toKeeps]
    | split

theorem execBar2Read_keeps (h : KeepsMem P) (p : Fin 4) (f : Fin 16) (slot : Fin 16) (off : BitVec 34) (len : Nat) {s : State} (hs : P s) {t' : State}
    (e : execBar2Read p f slot off len s = .next t') : P t' := by
  unfold execBar2Read at e
  injection e with e
  subst e
  repeat' first
    | with_reducible assumption
    | intro _
    | with_reducible apply guestAccess_keeps h

theorem execBar2Write_keeps (h : KeepsMem P) (p : Fin 4) (f : Fin 16) (slot : Fin 16) (off : BitVec 34) (bytes : List Byte) {s : State} (hs : P s) {t' : State}
    (e : execBar2Write p f slot off bytes s = .next t') : P t' := by
  unfold execBar2Write at e
  injection e with e
  subst e
  repeat' first
    | with_reducible assumption
    | intro _
    | with_reducible apply guestAccess_keeps h

theorem drainAll_keeps (h : KeepsMem P) {s : State} (hs : P s) : P (State.drainAll s) := by
  unfold State.drainAll
  repeat' first
    | with_reducible assumption
    | intro _
    | with_reducible apply drainIngress_keeps h
    | with_reducible apply each_keeps
    | with_reducible apply markHeld_keeps h.toKeeps

theorem quotaCredit_keeps (h : KeepsMem P) {s : State} (hs : P s) : P (State.quotaCredit s) := by
  unfold State.quotaCredit
  repeat' first
    | with_reducible assumption
    | intro _
    | (extract_lets +onlyGivenNames u; refine (fun (_ : P u) => ?_) ?_; (on_goal 1 => clear_value u); (on_goal 2 => subst u))
    | (extract_lets +onlyGivenNames u; clear_value u)
    | with_reducible apply drainAll_keeps h
    | with_reducible apply each_keeps
    | with_reducible apply setSes_keeps h.toKeeps
    | with_reducible apply ite_keeps
    | simp only [↓mk_iff h.toKeeps]

theorem execQuotaCredit_keeps (h : KeepsMem P) {s : State} (hs : P s) {t' : State}
    (e : execQuotaCredit s = .next t') : P t' := by
  unfold execQuotaCredit at e
  injection e with e
  subst e
  repeat' first
    | with_reducible assumption
    | intro _
    | with_reducible apply quotaCredit_keeps h

theorem brownoutEnd_keeps (h : KeepsMem P) {s : State} (us : Nat) (holds : List Nat) (hs : P s) : P (State.brownoutEnd s us holds) := by
  unfold State.brownoutEnd
  repeat' first
    | with_reducible assumption
    | intro _
    | (extract_lets +onlyGivenNames u; refine (fun (_ : P u) => ?_) ?_; (on_goal 1 => clear_value u); (on_goal 2 => subst u))
    | (extract_lets +onlyGivenNames u; clear_value u)
    | with_reducible apply bboxAdvance_keeps h.toKeeps
    | with_reducible apply bboxResume_keeps h.toKeeps
    | with_reducible apply breach_keeps h.toKeeps
    | with_reducible apply drainAll_keeps h
    | with_reducible apply each_keeps
    | with_reducible apply liveFell_keeps h.toKeeps
    | with_reducible apply set_keeps h.toKeeps
    | with_reducible apply setScr_keeps h.toKeeps
    | with_reducible apply ite_keeps
    | simp only [↓mk_iff h.toKeeps]

theorem execBrownoutEnd_keeps (h : KeepsMem P) (us : Nat) (holds : List Nat) {s : State} (hs : P s) {t' : State}
    (e : execBrownoutEnd us holds s = .next t') : P t' := by
  unfold execBrownoutEnd at e
  injection e with e
  subst e
  repeat' first
    | with_reducible assumption
    | intro _
    | with_reducible apply brownoutEnd_keeps h

/-! ### CrcUnits -/

theorem setCrcU_keeps (h : Keeps P) {s : State} (n : Nat) (r : CrcState) (hs : P s) : P (State.setCrcU s n r) := by
  unfold State.setCrcU
  repeat' first
    | with_reducible assumption
    | intro _
    | with_reducible apply ite_keeps
    | simp only [↓mk_iff h]

theorem crcEvent_keeps (h : Keeps P) {s : State} (n : Nat) (flag : Fld) (irq : Bool) (hs : P s) : P (State.crcEvent s n flag irq) := by
  unfold State.crcEvent
  repeat' first
    | with_reducible assumption
    | intro _
    | (extract_lets +onlyGivenNames u; refine (fun (_ : P u) => ?_) ?_; (on_goal 1 => clear_value u); (on_goal 2 => subst u))
    | (extract_lets +onlyGivenNames u; clear_value u)
    | with_reducible apply count_keeps h
    | with_reducible apply raiseIrq_keeps h
    | with_reducible apply set_keeps h
    | with_reducible apply ite_keeps

theorem crcFetch_keeps (h : Keeps P) {s : State} (w : World) (port : Nat) (l : List (Nat × Nat)) (hs : P s) : P (State.crcFetch s w port l).2 := by
  unfold State.crcFetch
  repeat' first
    | with_reducible assumption
    | intro _
    | with_reducible apply dmaRead_keeps h
    | with_reducible apply ite_keeps
    | simp only [↓mk_iff h]
    | with_reducible apply foldlSnd_keeps
    | with_reducible apply foldl_keeps
    | split

theorem crcFail_keeps (h : Keeps P) {s : State} (n : Nat) (code : Nat) (hs : P s) : P (State.crcFail s n code) := by
  unfold State.crcFail
  repeat' first
    | with_reducible assumption
    | intro _
    | (extract_lets +onlyGivenNames u; refine (fun (_ : P u) => ?_) ?_; (on_goal 1 => clear_value u); (on_goal 2 => subst u))
    | with_reducible apply crcEvent_keeps h
    | with_reducible apply set_keeps h

theorem crcFinish_keeps (h : Keeps P) {s : State} (n : Nat) (hs : P s) : P (State.crcFinish s n) := by
  unfold State.crcFinish
  repeat' first
    | with_reducible assumption
    | intro _
    | with_reducible apply crcEvent_keeps h
    | with_reducible apply set_keeps h

theorem crcMismatch_keeps (h : Keeps P) {s : State} (n : Nat) (i : Nat) (hs : P s) : P (State.crcMismatch s n i) := by
  unfold State.crcMismatch
  repeat' first
    | with_reducible assumption
    | intro _
    | (extract_lets +onlyGivenNames u; refine (fun (_ : P u) => ?_) ?_; (on_goal 1 => clear_value u); (on_goal 2 => subst u))
    | with_reducible apply count_keeps h
    | with_reducible apply crcEvent_keeps h
    | with_reducible apply set_keeps h
    | with_reducible apply ite_keeps

theorem crcChunk_keeps (h : KeepsMem P) {s : State} (n : Nat) (w : World) (d : CrcDesc) (i : Nat) (hs : P s) : P (State.crcChunk s n w d i) := by
  unfold State.crcChunk
  repeat' first
    | with_reducible assumption
    | intro _
    | (extract_lets +onlyGivenNames u; clear_value u)
    | with_reducible apply count_keeps h.toKeeps
    | with_reducible apply crcFail_keeps h.toKeeps
    | with_reducible apply crcFetch_keeps h.toKeeps
    | with_reducible apply crcMismatch_keeps h.toKeeps
    | with_reducible apply dmaRead_keeps h.toKeeps
    | with_reducible apply dmaWrite_keeps h
    | with_reducible apply set_keeps h.toKeeps
    | with_reducible apply setCrcU_keeps h.toKeeps
    | with_reducible apply ite_keeps
    | simp only [↓mk_iff h.toKeeps]
    | split

theorem crcTake_keeps (h : Keeps P) {s : State} (n : Nat) (w : World) (hs : P s) : P (State.crcTake s n w).2 := by
  unfold State.crcTake
  repeat' first
    | with_reducible assumption
    | intro _
    | (extract_lets +onlyGivenNames u; refine (fun (_ : P u.2) => ?_) ?_; (on_goal 1 => clear_value u); (on_goal 2 => subst u))
    | with_reducible apply dmaRead_keeps h

theorem crcRun_keeps (h : KeepsMem P) {s : State} (n : Nat) (op : Nat) (hs : P s) : P (State.crcRun s n op) := by
  unfold State.crcRun
  repeat' first
    | with_reducible assumption
    | intro _
    | (extract_lets +onlyGivenNames u; refine (fun (_ : P u) => ?_) ?_; (on_goal 1 => clear_value u); (on_goal 2 => subst u))
    | (extract_lets +onlyGivenNames u; refine (fun (_ : P u.2) => ?_) ?_; (on_goal 1 => clear_value u); (on_goal 2 => subst u))
    | (extract_lets +onlyGivenNames u; clear_value u)
    | with_reducible apply crcChunk_keeps h
    | with_reducible apply crcFail_keeps h.toKeeps
    | with_reducible apply crcTake_keeps h.toKeeps
    | with_reducible apply each_keeps
    | with_reducible apply setCrcU_keeps h.toKeeps
    | with_reducible apply ite_keeps
    | split

theorem execCrcCompute_keeps (h : KeepsMem P) (n : Fin 18) {s : State} (hs : P s) {t' : State}
    (e : execCrcCompute n s = .next t') : P t' := by
  unfold execCrcCompute at e
  injection e with e
  subst e
  repeat' first
    | with_reducible assumption
    | intro _
    | with_reducible apply crcRun_keeps h

theorem execCrcCheck_keeps (h : KeepsMem P) (n : Fin 18) {s : State} (hs : P s) {t' : State}
    (e : execCrcCheck n s = .next t') : P t' := by
  unfold execCrcCheck at e
  injection e with e
  subst e
  repeat' first
    | with_reducible assumption
    | intro _
    | with_reducible apply crcRun_keeps h

theorem crcNext_keeps (h : Keeps P) {s : State} (n : Nat) (hs : P s) : P (State.crcNext s n) := by
  unfold State.crcNext
  repeat' first
    | with_reducible assumption
    | intro _
    | (extract_lets +onlyGivenNames u; refine (fun (_ : P u) => ?_) ?_; (on_goal 1 => clear_value u); (on_goal 2 => subst u))
    | (extract_lets +onlyGivenNames u; clear_value u)
    | with_reducible apply crcEvent_keeps h
    | with_reducible apply crcFinish_keeps h
    | with_reducible apply setCrcU_keeps h
    | with_reducible apply ite_keeps

theorem execCrcDescriptorDone_keeps (h : Keeps P) (n : Fin 18) {s : State} (hs : P s) {t' : State}
    (e : execCrcDescriptorDone n s = .next t') : P t' := by
  unfold execCrcDescriptorDone at e
  injection e with e
  subst e
  repeat' first
    | with_reducible assumption
    | intro _
    | with_reducible apply crcNext_keeps h

theorem crcGo_keeps (h : Keeps P) {s : State} (n : Nat) (hs : P s) : P (State.crcGo s n) := by
  unfold State.crcGo
  repeat' first
    | with_reducible assumption
    | intro _
    | (extract_lets +onlyGivenNames u; refine (fun (_ : P u) => ?_) ?_; (on_goal 1 => clear_value u); (on_goal 2 => subst u))
    | with_reducible apply crcEvent_keeps h
    | with_reducible apply set_keeps h
    | with_reducible apply setCrcU_keeps h
    | with_reducible apply ite_keeps

theorem crcCtrlWrite_keeps (h : Keeps P) {s : State} (n : Nat) (v : Word) (hs : P s) : P (State.crcCtrlWrite s n v) := by
  unfold State.crcCtrlWrite
  repeat' first
    | with_reducible assumption
    | intro _
    | (extract_lets +onlyGivenNames u; refine (fun (_ : P u) => ?_) ?_; (on_goal 1 => clear_value u); (on_goal 2 => subst u))
    | (extract_lets +onlyGivenNames u; clear_value u)
    | with_reducible apply crcEvent_keeps h
    | with_reducible apply crcFail_keeps h
    | with_reducible apply crcGo_keeps h
    | with_reducible apply set_keeps h
    | with_reducible apply ite_keeps

theorem execCrcGo_keeps (h : Keeps P) (n : Fin 18) (w : World) (v : Word) {s : State} (hs : P s) {t' : State}
    (e : execCrcGo n w v s = .next t') : P t' := by
  unfold execCrcGo at e
  injection e with e
  subst e
  repeat' first
    | with_reducible assumption
    | intro _
    | with_reducible apply asWriter_keeps h
    | with_reducible apply crcCtrlWrite_keeps h

theorem execCrcAbort_keeps (h : Keeps P) (n : Fin 18) (w : World) (v : Word) {s : State} (hs : P s) {t' : State}
    (e : execCrcAbort n w v s = .next t') : P t' := by
  unfold execCrcAbort at e
  injection e with e
  subst e
  repeat' first
    | with_reducible assumption
    | intro _
    | with_reducible apply asWriter_keeps h
    | with_reducible apply crcCtrlWrite_keeps h

theorem execCrcSelftest_keeps (h : Keeps P) (n : Fin 18) (w : World) (v : Word) {s : State} (hs : P s) {t' : State}
    (e : execCrcSelftest n w v s = .next t') : P t' := by
  unfold execCrcSelftest at e
  injection e with e
  subst e
  repeat' first
    | with_reducible assumption
    | intro _
    | with_reducible apply asWriter_keeps h
    | with_reducible apply crcCtrlWrite_keeps h

theorem crcCfgWrite_keeps (h : Keeps P) {s : State} (n : Nat) (a : Nat) (v : Word) (hs : P s) : P (State.crcCfgWrite s n a v) := by
  unfold State.crcCfgWrite
  repeat' first
    | with_reducible assumption
    | intro _
    | with_reducible apply crcEvent_keeps h
    | with_reducible apply plainWrite_keeps h
    | with_reducible apply ite_keeps

theorem execCrcSelftestDone_keeps (h : Keeps P) (n : Fin 18) (ok : Bool) {s : State} (hs : P s) {t' : State}
    (e : execCrcSelftestDone n ok s = .next t') : P t' := by
  unfold execCrcSelftestDone at e
  injection e with e
  subst e
  repeat' first
    | with_reducible assumption
    | intro _
    | with_reducible apply crcEvent_keeps h
    | with_reducible apply set_keeps h
    | with_reducible apply ite_keeps

end

end Sys2Proof.Machine
end

