-- ==== Sys2Proof/Laws/KeepGrid.lean ====
section
/-! SUPPORT. What is kept: register writes, the register grid, the start and debug. -/

namespace Sys2Proof.Machine

section
variable {P : State → Prop}

/-! ### RegWrite -/

theorem secmemWrite_keeps (h : Keeps P) {s : State} (a : Nat) (k : Nat) (v : Word) (hs : P s) : P (State.secmemWrite s a k v) := by
  unfold State.secmemWrite
  repeat' first
    | with_reducible assumption
    | intro _
    | (extract_lets +onlyGivenNames u; refine (fun (_ : P u) => ?_) ?_; (on_goal 1 => clear_value u); (on_goal 2 => subst u))
    | (extract_lets +onlyGivenNames u; clear_value u)
    | with_reducible apply plainWrite_keeps h
    | with_reducible apply set_keeps h
    | with_reducible apply ite_keeps

theorem sysWrite_keeps (h : Keeps P) {s : State} (off : Nat) (v : Word) (hs : P s) : P (State.sysWrite s off v) := by
  unfold State.sysWrite
  repeat' first
    | with_reducible assumption
    | intro _
    | (extract_lets +onlyGivenNames u; clear_value u)
    | with_reducible apply breachClr_keeps h
    | with_reducible apply ownWrite_keeps h
    | with_reducible apply plainWrite_keeps h
    | with_reducible apply secCtrlWrite_keeps h
    | with_reducible apply secmemWrite_keeps h
    | with_reducible apply swdtKick_keeps h
    | with_reducible apply ite_keeps

theorem dbgNormalWrite_keeps (h : Keeps P) {s : State} (v : Word) (hs : P s) : P (State.dbgNormalWrite s v) := by
  unfold State.dbgNormalWrite
  repeat' first
    | with_reducible assumption
    | intro _
    | (extract_lets +onlyGivenNames u; refine (fun (_ : P u) => ?_) ?_; (on_goal 1 => clear_value u); (on_goal 2 => subst u))
    | with_reducible apply dbgOpen_keeps h
    | with_reducible apply plainWrite_keeps h

theorem pwrWrite_keeps (h : Keeps P) {s : State} (w : World) (off : Nat) (v : Word) (hs : P s) : P (State.pwrWrite s w off v) := by
  unfold State.pwrWrite
  repeat' first
    | with_reducible assumption
    | intro _
    | with_reducible apply gateWrite_keeps h
    | with_reducible apply plainWrite_keeps h
    | with_reducible apply ite_keeps

theorem drumWrite_keeps (h : Keeps P) {s : State} (off : Nat) (v : Word) (hs : P s) : P (State.drumWrite s off v) := by
  unfold State.drumWrite
  repeat' first
    | with_reducible assumption
    | intro _
    | with_reducible apply drumCtrlWrite_keeps h
    | with_reducible apply drumDivFracWrite_keeps h
    | with_reducible apply drumDivIntWrite_keeps h
    | with_reducible apply plainWrite_keeps h
    | with_reducible apply ite_keeps

theorem outShadowWrite_keeps (h : Keeps P) {s : State} (n : Nat) (a : Nat) (v : Word) (hs : P s) : P (State.outShadowWrite s n a v) := by
  unfold State.outShadowWrite
  repeat' first
    | with_reducible assumption
    | intro _
    | with_reducible apply count_keeps h
    | with_reducible apply plainWrite_keeps h
    | with_reducible apply set_keeps h
    | with_reducible apply ite_keeps

theorem lutWrite_keeps (h : Keeps P) {s : State} (n : Nat) (c : Nat) (k : Nat) (v : Word) (hs : P s) : P (State.lutWrite s n c k v) := by
  unfold State.lutWrite
  repeat' first
    | with_reducible assumption
    | intro _
    | with_reducible apply outShadowWrite_keeps h
    | with_reducible apply setReg_keeps h
    | with_reducible apply ite_keeps

theorem screenWrite_keeps (h : Keeps P) {s : State} (n : Nat) (off : Nat) (v : Word) (hs : P s) : P (State.screenWrite s n off v) := by
  unfold State.screenWrite
  repeat' first
    | with_reducible assumption
    | intro _
    | (extract_lets +onlyGivenNames u; clear_value u)
    | with_reducible apply lowerWrite_keeps h
    | with_reducible apply lutWrite_keeps h
    | with_reducible apply outCommit_keeps h
    | with_reducible apply outShadowWrite_keeps h
    | with_reducible apply plainWrite_keeps h
    | with_reducible apply retimeWrite_keeps h
    | with_reducible apply scrEvent_keeps h
    | with_reducible apply screenCtrlWrite_keeps h
    | with_reducible apply ite_keeps

theorem dpoWrite_keeps (h : Keeps P) {s : State} (p : Nat) (off : Nat) (v : Word) (hs : P s) : P (State.dpoWrite s p off v) := by
  unfold State.dpoWrite
  repeat' first
    | with_reducible assumption
    | intro _
    | (extract_lets +onlyGivenNames u; clear_value u)
    | with_reducible apply auxCmd_keeps h
    | with_reducible apply auxData_keeps h
    | with_reducible apply cmpTestWrite_keeps h
    | with_reducible apply dpoCtrlWrite_keeps h
    | with_reducible apply harbWrite_keeps h
    | with_reducible apply linkCtrlWrite_keeps h
    | with_reducible apply panelWrite_keeps h
    | with_reducible apply plainWrite_keeps h
    | with_reducible apply ite_keeps

theorem layerWrite_keeps (h : Keeps P) {s : State} (w : World) (n : Nat) (off : Nat) (v : Word) (hs : P s) : P (State.layerWrite s w n off v) := by
  unfold State.layerWrite
  repeat' first
    | with_reducible assumption
    | intro _
    | with_reducible apply bindWrite_keeps h
    | with_reducible apply layGuestWrite_keeps h
    | with_reducible apply ownerWrite_keeps h
    | with_reducible apply plainWrite_keeps h
    | with_reducible apply throughDoor_keeps h
    | with_reducible apply ite_keeps

theorem protWrite_keeps (h : Keeps P) {s : State} (n : Nat) (off : Nat) (v : Word) (hs : P s) : P (State.protWrite s n off v) := by
  unfold State.protWrite
  repeat' first
    | with_reducible assumption
    | intro _
    | (extract_lets +onlyGivenNames u; clear_value u)
    | with_reducible apply plainWrite_keeps h
    | with_reducible apply protCommit_keeps h
    | with_reducible apply protEvent_keeps h
    | with_reducible apply vouch_keeps h
    | with_reducible apply ite_keeps

theorem vinWrite_keeps (h : Keeps P) {s : State} (n : Nat) (off : Nat) (v : Word) (hs : P s) : P (State.vinWrite s n off v) := by
  unfold State.vinWrite
  repeat' first
    | with_reducible assumption
    | intro _
    | (extract_lets +onlyGivenNames u; clear_value u)
    | with_reducible apply plainWrite_keeps h
    | with_reducible apply vinCtrlWrite_keeps h
    | with_reducible apply vinEvent_keeps h
    | with_reducible apply ite_keeps

theorem msideWrite_keeps (h : Keeps P) {s : State} (n : Nat) (off : Nat) (v : Word) (hs : P s) : P (State.msideWrite s n off v) := by
  unfold State.msideWrite
  repeat' first
    | with_reducible assumption
    | intro _
    | with_reducible apply freezeCtrlWrite_keeps h
    | with_reducible apply mirrorWrite_keeps h
    | with_reducible apply plainWrite_keeps h
    | with_reducible apply ite_keeps

theorem qosWrite_keeps (h : Keeps P) {s : State} (p : Nat) (off : Nat) (v : Word) (hs : P s) : P (State.qosWrite s p off v) := by
  unfold State.qosWrite
  repeat' first
    | with_reducible assumption
    | intro _
    | with_reducible apply plainWrite_keeps h
    | with_reducible apply qosClr_keeps h
    | with_reducible apply set_keeps h
    | with_reducible apply ite_keeps

theorem sessWrite_keeps (h : Keeps P) {s : State} (n : Nat) (off : Nat) (v : Word) (hs : P s) : P (State.sessWrite s n off v) := by
  unfold State.sessWrite
  repeat' first
    | with_reducible assumption
    | intro _
    | (extract_lets +onlyGivenNames u; clear_value u)
    | with_reducible apply pageWrite_keeps h
    | with_reducible apply plainWrite_keeps h
    | with_reducible apply quotaWrite_keeps h
    | with_reducible apply sessCtrlWrite_keeps h
    | with_reducible apply winWrite_keeps h
    | with_reducible apply ite_keeps

theorem tslWrite_keeps (h : Keeps P) {s : State} (n : Nat) (off : Nat) (v : Word) (hs : P s) : P (State.tslWrite s n off v) := by
  unfold State.tslWrite
  repeat' first
    | with_reducible assumption
    | intro _
    | (extract_lets +onlyGivenNames u; clear_value u)
    | with_reducible apply linkBegin_keeps h
    | with_reducible apply plainWrite_keeps h
    | with_reducible apply touchHeldWrite_keeps h
    | with_reducible apply tslCtrlWrite_keeps h
    | with_reducible apply ite_keeps

theorem touchWrite_keeps (h : KeepsMem P) {s : State} (n : Nat) (off : Nat) (v : Word) (hs : P s) : P (State.touchWrite s n off v) := by
  unfold State.touchWrite
  repeat' first
    | with_reducible assumption
    | intro _
    | (extract_lets +onlyGivenNames u; clear_value u)
    | with_reducible apply blCmdWrite_keeps h.toKeeps
    | with_reducible apply ownerWrite_keeps h.toKeeps
    | with_reducible apply plainWrite_keeps h.toKeeps
    | with_reducible apply touchCtrlWrite_keeps h
    | with_reducible apply touchHeldWrite_keeps h.toKeeps
    | with_reducible apply ite_keeps

theorem hcWrite_keeps (h : Keeps P) {s : State} (n : Nat) (off : Nat) (v : Word) (hs : P s) : P (State.hcWrite s n off v) := by
  unfold State.hcWrite
  repeat' first
    | with_reducible assumption
    | intro _
    | (extract_lets +onlyGivenNames u; refine (fun (_ : P u) => ?_) ?_; (on_goal 1 => clear_value u); (on_goal 2 => subst u))
    | with_reducible apply ownerWrite_keeps h
    | with_reducible apply plainWrite_keeps h
    | with_reducible apply set_keeps h
    | with_reducible apply ite_keeps

theorem hapWrite_keeps (h : Keeps P) {s : State} (off : Nat) (v : Word) (hs : P s) : P (State.hapWrite s off v) := by
  unfold State.hapWrite
  repeat' first
    | with_reducible assumption
    | intro _
    | with_reducible apply hapLibLoad_keeps h
    | with_reducible apply hvOff_keeps h
    | with_reducible apply hvOn_keeps h
    | with_reducible apply plainWrite_keeps h
    | with_reducible apply ite_keeps

theorem audWrite_keeps (h : Keeps P) {s : State} (off : Nat) (v : Word) (hs : P s) : P (State.audWrite s off v) := by
  unfold State.audWrite
  repeat' first
    | with_reducible assumption
    | intro _
    | (extract_lets +onlyGivenNames u; clear_value u)
    | with_reducible apply audCtrlWrite_keeps h
    | with_reducible apply directWrite_keeps h
    | with_reducible apply nodeWrite_keeps h
    | with_reducible apply ownerWrite_keeps h
    | with_reducible apply plainWrite_keeps h
    | with_reducible apply ite_keeps

theorem icWrite_keeps (h : Keeps P) {s : State} (w : World) (off : Nat) (v : Word) (hs : P s) : P (State.icWrite s w off v) := by
  unfold State.icWrite
  repeat' first
    | with_reducible assumption
    | intro _
    | (extract_lets +onlyGivenNames u; clear_value u)
    | with_reducible apply irqClaim_keeps h
    | with_reducible apply irqComplete_keeps h
    | with_reducible apply plainWrite_keeps h
    | with_reducible apply sourceWrite_keeps h
    | with_reducible apply swiWrite_keeps h
    | with_reducible apply ite_keeps

theorem fltWrite_keeps (h : KeepsMem P) {s : State} (off : Nat) (v : Word) (hs : P s) : P (State.fltWrite s off v) := by
  unfold State.fltWrite
  repeat' first
    | with_reducible assumption
    | intro _
    | (extract_lets +onlyGivenNames u; refine (fun (_ : P u) => ?_) ?_; (on_goal 1 => clear_value u); (on_goal 2 => subst u))
    | (extract_lets +onlyGivenNames u; clear_value u)
    | with_reducible apply classWrite_keeps h.toKeeps
    | with_reducible apply fltCtrlWrite_keeps h.toKeeps
    | with_reducible apply plainWrite_keeps h.toKeeps
    | with_reducible apply releaseWrite_keeps h.toKeeps
    | with_reducible apply requestWrite_keeps h
    | with_reducible apply set_keeps h.toKeeps
    | with_reducible apply tollCtrlWrite_keeps h.toKeeps
    | with_reducible apply tollKick_keeps h.toKeeps
    | with_reducible apply ite_keeps

theorem crcWrite_keeps (h : Keeps P) {s : State} (n : Nat) (off : Nat) (v : Word) (hs : P s) : P (State.crcWrite s n off v) := by
  unfold State.crcWrite
  repeat' first
    | with_reducible assumption
    | intro _
    | (extract_lets +onlyGivenNames u; clear_value u)
    | with_reducible apply crcCfgWrite_keeps h
    | with_reducible apply crcCtrlWrite_keeps h
    | with_reducible apply plainWrite_keeps h
    | with_reducible apply ite_keeps

theorem logRegWrite_keeps (h : Keeps P) {s : State} (w : World) (off : Nat) (v : Word) (hs : P s) : P (State.logRegWrite s w off v) := by
  unfold State.logRegWrite
  repeat' first
    | with_reducible assumption
    | intro _
    | (extract_lets +onlyGivenNames u; clear_value u)
    | with_reducible apply logClearWrite_keeps h
    | with_reducible apply logGoWrite_keeps h
    | with_reducible apply logRateWrite_keeps h
    | with_reducible apply plainWrite_keeps h
    | with_reducible apply ite_keeps

theorem unitWrite_keeps (h : KeepsMem P) {s : State} (w : World) (u : Nat) (i : Nat) (off : Nat) (v : Word) (hs : P s) : P (State.unitWrite s w u i off v) := by
  unfold State.unitWrite
  repeat' first
    | with_reducible assumption
    | intro _
    | (extract_lets +onlyGivenNames u; clear_value u)
    | with_reducible apply audWrite_keeps h.toKeeps
    | with_reducible apply bboxCmdWrite_keeps h.toKeeps
    | with_reducible apply bellCtrlWrite_keeps h.toKeeps
    | with_reducible apply bootCtrlWrite_keeps h.toKeeps
    | with_reducible apply crcWrite_keeps h.toKeeps
    | with_reducible apply dbgNormalWrite_keeps h.toKeeps
    | with_reducible apply dpoWrite_keeps h.toKeeps
    | with_reducible apply drumWrite_keeps h.toKeeps
    | with_reducible apply flashCmdWrite_keeps h.toKeeps
    | with_reducible apply fltWrite_keeps h
    | with_reducible apply gpCtrlWrite_keeps h.toKeeps
    | with_reducible apply hapWrite_keeps h.toKeeps
    | with_reducible apply hcWrite_keeps h.toKeeps
    | with_reducible apply icWrite_keeps h.toKeeps
    | with_reducible apply layerWrite_keeps h.toKeeps
    | with_reducible apply logRegWrite_keeps h.toKeeps
    | with_reducible apply mcCtrlWrite_keeps h.toKeeps
    | with_reducible apply msideWrite_keeps h.toKeeps
    | with_reducible apply otpCmdWrite_keeps h.toKeeps
    | with_reducible apply ownerWrite_keeps h.toKeeps
    | with_reducible apply plainWrite_keeps h.toKeeps
    | with_reducible apply protWrite_keeps h.toKeeps
    | with_reducible apply pwrWrite_keeps h.toKeeps
    | with_reducible apply qosWrite_keeps h.toKeeps
    | with_reducible apply rtcSetWrite_keeps h.toKeeps
    | with_reducible apply rtcSnapWrite_keeps h.toKeeps
    | with_reducible apply screenWrite_keeps h.toKeeps
    | with_reducible apply sessWrite_keeps h.toKeeps
    | with_reducible apply sxtTestWrite_keeps h.toKeeps
    | with_reducible apply sysWrite_keeps h.toKeeps
    | with_reducible apply tdmCtrlWrite_keeps h.toKeeps
    | with_reducible apply touchWrite_keeps h
    | with_reducible apply tslWrite_keeps h.toKeeps
    | with_reducible apply vinWrite_keeps h.toKeeps
    | with_reducible apply wearThreshWrite_keeps h.toKeeps
    | with_reducible apply wornWrite_keeps h
    | with_reducible apply ite_keeps
    | simp only [↓mk_iff h.toKeeps]
    | split

theorem deniedWrite_keeps (h : Keeps P) {s : State} (u : Nat) (i : Nat) (off : Nat) (v : Word) (hs : P s) : P (State.deniedWrite s u i off v) := by
  unfold State.deniedWrite
  repeat' first
    | with_reducible assumption
    | intro _
    | with_reducible apply denyWrite_keeps h
    | with_reducible apply set_keeps h
    | with_reducible apply ite_keeps

theorem regWrite_keeps (h : KeepsMem P) {s : State} (w : World) (a : Nat) (v : Word) (hs : P s) : P (State.regWrite s w a v) := by
  unfold State.regWrite
  repeat' first
    | with_reducible assumption
    | intro _
    | (extract_lets +onlyGivenNames u; clear_value u)
    | with_reducible apply deniedWrite_keeps h.toKeeps
    | with_reducible apply denyWrite_keeps h.toKeeps
    | with_reducible apply unitWrite_keeps h
    | with_reducible apply ite_keeps

/-! ### RegView -/

theorem regReadEffect_keeps (h : Keeps P) {s : State} (w : World) (a : Nat) (hs : P s) : P (State.regReadEffect s w a) := by
  unfold State.regReadEffect
  repeat' first
    | with_reducible assumption
    | intro _
    | with_reducible apply pageReadEffect_keeps h
    | with_reducible apply ite_keeps

/-! ### Fabric -/

theorem newReq_keeps (h : Keeps P) {s : State} (hs : P s) : P (State.newReq s).2 := by
  unfold State.newReq
  repeat' first
    | with_reducible assumption
    | intro _
    | with_reducible apply ite_keeps
    | simp only [↓mk_iff h]

theorem gridWrite_keeps (h : KeepsMem P) {s : State} (m : Master) (off : Nat) (bs : List Byte) (hs : P s) : P (State.gridWrite s m off bs) := by
  unfold State.gridWrite
  repeat' first
    | with_reducible assumption
    | intro _
    | (extract_lets +onlyGivenNames u; clear_value u)
    | with_reducible apply each_keeps
    | with_reducible apply newReq_keeps h.toKeeps
    | with_reducible apply noteDecode_keeps h.toKeeps
    | with_reducible apply noteRegAccess_keeps h.toKeeps
    | with_reducible apply regWrite_keeps h
    | with_reducible apply reply_keeps h.toKeeps
    | with_reducible apply ite_keeps
    | simp only [↓mk_iff h.toKeeps]
    | split

theorem gridRead_keeps (h : Keeps P) {s : State} (m : Master) (off : Nat) (len : Nat) (hs : P s) : P (State.gridRead s m off len) := by
  unfold State.gridRead
  repeat' first
    | with_reducible assumption
    | intro _
    | (extract_lets +onlyGivenNames u; clear_value u)
    | with_reducible apply each_keeps
    | with_reducible apply newReq_keeps h
    | with_reducible apply noteDecode_keeps h
    | with_reducible apply noteRegAccess_keeps h
    | with_reducible apply regReadEffect_keeps h
    | with_reducible apply reply_keeps h
    | with_reducible apply ite_keeps
    | split

theorem refuseDebug_keeps (h : Keeps P) {s : State} (len : Nat) (hs : P s) : P (State.refuseDebug s len) := by
  unfold State.refuseDebug
  repeat' first
    | with_reducible assumption
    | intro _
    | with_reducible apply newReq_keeps h
    | with_reducible apply reply_keeps h

theorem execRegisterWrite_keeps (h : KeepsMem P) (t : RegTarget) (bytes : List Byte) {s : State} (hs : P s) {t' : State}
    (e : execRegisterWrite t bytes s = .next t') : P t' := by
  unfold execRegisterWrite at e
  injection e with e
  subst e
  repeat' first
    | with_reducible assumption
    | intro _
    | with_reducible apply barAccess_keeps h
    | with_reducible apply gridWrite_keeps h
    | with_reducible apply refuseDebug_keeps h.toKeeps
    | with_reducible apply ite_keeps
    | simp only [↓mk_iff h.toKeeps]
    | split

theorem refuseSecure_keeps (h : Keeps P) {s : State} (id : Nat) (a : Nat) (len : Nat) (m : Master) (write : Bool) (hs : P s) : P (State.refuseSecure s id a len m write) := by
  unfold State.refuseSecure
  repeat' first
    | with_reducible assumption
    | intro _
    | with_reducible apply guestRefuse_keeps h
    | with_reducible apply noteSecmem_keeps h
    | with_reducible apply reply_keeps h
    | with_reducible apply ite_keeps
    | simp only [↓mk_iff h]
    | split

theorem memRead_keeps (h : Keeps P) {s : State} (m : Master) (a : Nat) (len : Nat) (hs : P s) : P (State.memRead s m a len) := by
  unfold State.memRead
  repeat' first
    | with_reducible assumption
    | intro _
    | (extract_lets +onlyGivenNames u; clear_value u)
    | with_reducible apply newReq_keeps h
    | with_reducible apply noteDecode_keeps h
    | with_reducible apply queueRead_keeps h
    | with_reducible apply refuseSecure_keeps h
    | with_reducible apply reply_keeps h
    | with_reducible apply ite_keeps
    | simp only [↓mk_iff h]
    | split

theorem tagPage_keeps (h : Keeps P) {s : State} (c : Nat) (w : World) (hs : P s) : P (State.tagPage s c w) := by
  unfold State.tagPage
  repeat' first
    | with_reducible assumption
    | intro _
    | with_reducible apply draw_keeps h
    | with_reducible apply tagMake_keeps h
    | with_reducible apply ite_keeps

theorem tagLines_keeps (h : Keeps P) {s : State} (m : Master) (a : Nat) (len : Nat) (hs : P s) : P (State.tagLines s m a len) := by
  unfold State.tagLines
  repeat' first
    | with_reducible assumption
    | intro _
    | with_reducible apply each_keeps
    | with_reducible apply tagMake_keeps h
    | with_reducible apply tagPage_keeps h
    | with_reducible apply ite_keeps
    | simp only [↓mk_iff h]
    | split

theorem execFabricRead_keeps (h : KeepsMem P) (t : ReadTarget) (len : Nat) {s : State} (hs : P s) {t' : State}
    (e : execFabricRead t len s = .next t') : P t' := by
  unfold execFabricRead at e
  injection e with e
  subst e
  repeat' first
    | with_reducible assumption
    | intro _
    | with_reducible apply barAccess_keeps h
    | with_reducible apply gridRead_keeps h.toKeeps
    | with_reducible apply memRead_keeps h.toKeeps
    | with_reducible apply refuseDebug_keeps h.toKeeps
    | with_reducible apply tagLines_keeps h.toKeeps
    | with_reducible apply ite_keeps
    | simp only [↓mk_iff h.toKeeps]
    | split

theorem memWrite_keeps (h : KeepsMem P) {s : State} (m : Master) (a : Nat) (bs : List Byte) (hs : P s) : P (State.memWrite s m a bs) := by
  unfold State.memWrite
  repeat' first
    | with_reducible assumption
    | intro _
    | with_reducible apply count_keeps h.toKeeps
    | with_reducible apply newReq_keeps h.toKeeps
    | with_reducible apply noteDecode_keeps h.toKeeps
    | with_reducible apply queueWrite_keeps h.toKeeps
    | with_reducible apply refuseSecure_keeps h.toKeeps
    | with_reducible apply reply_keeps h.toKeeps
    | with_reducible apply writeMem_keeps h
    | with_reducible apply ite_keeps
    | simp only [↓mk_iff h.toKeeps]
    | split

theorem execFabricWrite_keeps (h : KeepsMem P) (m : Master) (a : BitVec 40) (bytes : List Byte) {s : State} (hs : P s) {t' : State}
    (e : execFabricWrite m a bytes s = .next t') : P t' := by
  unfold execFabricWrite at e
  injection e with e
  subst e
  repeat' first
    | with_reducible assumption
    | intro _
    | with_reducible apply gridWrite_keeps h
    | with_reducible apply memWrite_keeps h
    | with_reducible apply refuseDebug_keeps h.toKeeps
    | with_reducible apply ite_keeps
    | simp only [↓mk_iff h.toKeeps]
    | split

/-! ### BootSeq -/

theorem macroDead_keeps (h : KeepsMem P) {s : State} (m : Nat) (hs : P s) : P (State.macroDead s m) := by
  unfold State.macroDead
  repeat' first
    | with_reducible assumption
    | intro _
    | (extract_lets +onlyGivenNames u; refine (fun (_ : P u) => ?_) ?_; (on_goal 1 => clear_value u); (on_goal 2 => subst u))
    | (extract_lets +onlyGivenNames u; clear_value u)
    | with_reducible apply arrayAction_keeps h
    | with_reducible apply noSextant_keeps h
    | with_reducible apply raiseFault_keeps h
    | with_reducible apply set_keeps h.toKeeps
    | with_reducible apply setPipeState_keeps h.toKeeps
    | with_reducible apply sextantOut_keeps h.toKeeps
    | with_reducible apply ite_keeps
    | simp only [↓mk_iff h.toKeeps]
    | split

theorem macroHard_keeps (h : Keeps P) {s : State} (m : Nat) (rows : Nat) (cols : Nat) (hs : P s) : P (State.macroHard s m rows cols) := by
  unfold State.macroHard
  repeat' first
    | with_reducible assumption
    | intro _
    | with_reducible apply set_keeps h

theorem macroTest_keeps (h : KeepsMem P) {s : State} (f : MacroFail) (hs : P s) : P (State.macroTest s f) := by
  unfold State.macroTest
  repeat' first
    | with_reducible assumption
    | intro _
    | (extract_lets +onlyGivenNames u; refine (fun (_ : P u) => ?_) ?_; (on_goal 1 => clear_value u); (on_goal 2 => subst u))
    | (extract_lets +onlyGivenNames u; clear_value u)
    | with_reducible apply macroDead_keeps h
    | with_reducible apply set_keeps h.toKeeps
    | with_reducible apply ite_keeps

theorem selfTests_keeps (h : KeepsMem P) {s : State} (fails : List MacroFail) (hs : P s) : P (State.selfTests s fails) := by
  unfold State.selfTests
  repeat' first
    | with_reducible assumption
    | intro _
    | (extract_lets +onlyGivenNames u; refine (fun (_ : P u) => ?_) ?_; (on_goal 1 => clear_value u); (on_goal 2 => subst u))
    | with_reducible apply each_keeps
    | with_reducible apply inOrder_keeps h.toKeeps
    | with_reducible apply macroHard_keeps h.toKeeps
    | with_reducible apply macroTest_keeps h
    | with_reducible apply set_keeps h.toKeeps

theorem startCount_keeps (h : KeepsMem P) {s : State} (hs : P s) : P (State.startCount s) := by
  unfold State.startCount
  repeat' first
    | with_reducible assumption
    | intro _
    | (extract_lets +onlyGivenNames u; refine (fun (_ : P u) => ?_) ?_; (on_goal 1 => clear_value u); (on_goal 2 => subst u))
    | (extract_lets +onlyGivenNames u; clear_value u)
    | with_reducible apply bboxLocate_keeps h
    | with_reducible apply bboxQueueRecord_keeps h.toKeeps
    | with_reducible apply set_keeps h.toKeeps
    | with_reducible apply ite_keeps
    | simp only [↓mk_iff h.toKeeps]

theorem wornRestore_keeps (h : KeepsMem P) {s : State} (j : List (Nat × List Byte)) (hs : P s) : P (State.wornRestore s j) := by
  unfold State.wornRestore
  repeat' first
    | with_reducible assumption
    | intro _
    | with_reducible apply wornWrite_keeps h
    | with_reducible apply ite_keeps
    | simp only [↓mk_iff h.toKeeps]
    | split

theorem noteSeq_keeps (h : Keeps P) {s : State} (k : Nat) (hs : P s) : P (State.noteSeq s k) := by
  unfold State.noteSeq
  repeat' first
    | with_reducible assumption
    | intro _
    | with_reducible apply set_keeps h
    | with_reducible apply ite_keeps
    | simp only [↓mk_iff h]
    | split

theorem slotFailed_keeps (h : KeepsMem P) {s : State} (k : Nat) (f : SlotFault) (hs : P s) : P (State.slotFailed s k f) := by
  unfold State.slotFailed
  repeat' first
    | with_reducible assumption
    | intro _
    | (extract_lets +onlyGivenNames u; refine (fun (_ : P u) => ?_) ?_; (on_goal 1 => clear_value u); (on_goal 2 => subst u))
    | (extract_lets +onlyGivenNames u; clear_value u)
    | with_reducible apply each_keeps
    | with_reducible apply putSram_keeps h
    | with_reducible apply set_keeps h.toKeeps
    | with_reducible apply ite_keeps
    | simp only [↓mk_iff h.toKeeps]
    | split

theorem slotPassed_keeps (h : KeepsMem P) {s : State} (k : Nat) (hs : P s) : P (State.slotPassed s k) := by
  unfold State.slotPassed
  repeat' first
    | with_reducible assumption
    | intro _
    | (extract_lets +onlyGivenNames u; refine (fun (_ : P u) => ?_) ?_; (on_goal 1 => clear_value u); (on_goal 2 => subst u))
    | (extract_lets +onlyGivenNames u; clear_value u)
    | with_reducible apply each_keeps
    | with_reducible apply putSram_keeps h
    | with_reducible apply set_keeps h.toKeeps
    | with_reducible apply setReg_keeps h.toKeeps
    | with_reducible apply ite_keeps
    | simp only [↓mk_iff h.toKeeps]
    | split

theorem anchorSession_keeps (h : Keeps P) {s : State} (hs : P s) : P (State.anchorSession s).2 := by
  unfold State.anchorSession
  repeat' first
    | with_reducible assumption
    | intro _
    | (extract_lets +onlyGivenNames u; refine (fun (_ : P u) => ?_) ?_; (on_goal 1 => clear_value u); (on_goal 2 => subst u))
    | (extract_lets +onlyGivenNames u; clear_value u)
    | with_reducible apply gpCtrlWrite_keeps h
    | with_reducible apply quotaWrite_keeps h
    | with_reducible apply sessCtrlWrite_keeps h
    | with_reducible apply winWrite_keeps h

theorem jumpTo_keeps (h : Keeps P) {s : State} (a : Nat) (hs : P s) : P (State.jumpTo s a) := by
  unfold State.jumpTo
  repeat' first
    | with_reducible assumption
    | intro _
    | with_reducible apply setCore_keeps h

theorem stage6_keeps (h : KeepsMem P) {s : State} (hs : P s) : P (State.stage6 s) := by
  unfold State.stage6
  repeat' first
    | with_reducible assumption
    | intro _
    | (extract_lets +onlyGivenNames u; refine (fun (_ : P u) => ?_) ?_; (on_goal 1 => clear_value u); (on_goal 2 => subst u))
    | (extract_lets +onlyGivenNames u; refine (fun (_ : P u.2) => ?_) ?_; (on_goal 1 => clear_value u); (on_goal 2 => subst u))
    | (extract_lets +onlyGivenNames u; clear_value u)
    | with_reducible apply anchorSession_keeps h.toKeeps
    | with_reducible apply each_keeps
    | with_reducible apply jumpTo_keeps h.toKeeps
    | with_reducible apply noChart_keeps h
    | with_reducible apply set_keeps h.toKeeps
    | with_reducible apply setReg_keeps h.toKeeps
    | with_reducible apply setStage_keeps h.toKeeps
    | with_reducible apply when_keeps
    | with_reducible apply ite_keeps
    | simp only [↓mk_iff h.toKeeps]

theorem loadMemory_keeps (h : KeepsMem P) {s : State} (hs : P s) (k n i : Nat) (es : List (List Byte)) :
    P (s.loadMemory k n i es).2 := by
  induction es generalizing s i with
  | nil => exact hs
  | cons e es ih =>
    unfold State.loadMemory
    split
    · exact ih hs (i + 1)
    · dsimp only
      split
      · exact hs
      · split
        · exact hs
        · split
          · exact hs
          · exact ih (dmaWrite_keeps h _ _ _ _ hs) (i + 1)

theorem stageBaselines_keeps (h : KeepsMem P) {s : State} (hs : P s) : P (State.stageBaselines s) := by
  unfold State.stageBaselines
  repeat' first
    | with_reducible assumption
    | intro _
    | with_reducible apply dmaWrite_keeps h
    | with_reducible apply each_keeps
    | with_reducible apply ite_keeps
    | simp only [↓mk_iff h.toKeeps]
    | split

theorem stage5_keeps (h : KeepsMem P) {s : State} (hs : P s) : P (State.stage5 s) := by
  unfold State.stage5
  repeat' first
    | with_reducible assumption
    | intro _
    | (extract_lets +onlyGivenNames u; refine (fun (_ : P u) => ?_) ?_; (on_goal 1 => clear_value u); (on_goal 2 => subst u))
    | (extract_lets +onlyGivenNames u; clear_value u)
    | with_reducible apply setStage_keeps h.toKeeps
    | with_reducible apply stage6_keeps h
    | with_reducible apply ite_keeps
    | simp only [↓mk_iff h.toKeeps]

theorem stage4_keeps (h : KeepsMem P) {s : State} (next : State → State) (hs : P s) (h_next : ∀ t, P t → P (next t)) : P (State.stage4 s next) := by
  unfold State.stage4
  repeat' first
    | with_reducible assumption
    | intro _
    | (extract_lets +onlyGivenNames u; refine (fun (_ : P u) => ?_) ?_; (on_goal 1 => clear_value u); (on_goal 2 => subst u))
    | (extract_lets +onlyGivenNames u; refine (fun (_ : P u.2) => ?_) ?_; (on_goal 1 => clear_value u); (on_goal 2 => subst u))
    | (extract_lets +onlyGivenNames u; clear_value u)
    | with_reducible apply loadMemory_keeps h
    | with_reducible apply setStage_keeps h.toKeeps
    | with_reducible apply slotFailed_keeps h
    | with_reducible apply stage5_keeps h
    | with_reducible apply stageBaselines_keeps h
    | with_reducible apply ite_keeps
    | simp only [↓mk_iff h.toKeeps]
    | apply h_next
    | split

theorem pprLoad_keeps (h : Keeps P) {s : State} (n : Nat) (hs : P s) : P (State.pprLoad s n) := by
  unfold State.pprLoad
  repeat' first
    | with_reducible assumption
    | intro _
    | with_reducible apply each_keeps
    | with_reducible apply set_keeps h
    | with_reducible apply setReg_keeps h

theorem stage3_keeps (h : KeepsMem P) {s : State} (next : State → State) (hs : P s) (h_next : ∀ t, P t → P (next t)) : P (State.stage3 s next) := by
  unfold State.stage3
  repeat' first
    | with_reducible assumption
    | intro _
    | (extract_lets +onlyGivenNames u; refine (fun (_ : P u) => ?_) ?_; (on_goal 1 => clear_value u); (on_goal 2 => subst u))
    | with_reducible apply each_keeps
    | with_reducible apply pprLoad_keeps h.toKeeps
    | with_reducible apply set_keeps h.toKeeps
    | with_reducible apply setStage_keeps h.toKeeps
    | with_reducible apply stage4_keeps h
    | with_reducible apply ite_keeps

theorem stage2_keeps (h : KeepsMem P) {s : State} (next : State → State) (hs : P s) (h_next : ∀ t, P t → P (next t)) : P (State.stage2 s next) := by
  unfold State.stage2
  repeat' first
    | with_reducible assumption
    | intro _
    | (extract_lets +onlyGivenNames u; refine (fun (_ : P u) => ?_) ?_; (on_goal 1 => clear_value u); (on_goal 2 => subst u))
    | (extract_lets +onlyGivenNames u; clear_value u)
    | with_reducible apply setStage_keeps h.toKeeps
    | with_reducible apply stage3_keeps h
    | with_reducible apply ite_keeps
    | simp only [↓mk_iff h.toKeeps]

theorem startSlots_keeps (h : KeepsMem P) {s : State} (hs : P s) (ks : List Nat) : P (s.startSlots ks) := by
  induction ks generalizing s with
  | nil => exact noChart_keeps h hs
  | cons k ks ih =>
    have q := noteSeq_keeps h.toKeeps k (setStage_keeps h.toKeeps 1 hs)
    unfold State.startSlots
    dsimp only
    split
    · exact ih (slotFailed_keeps h _ _ q)
    · exact stage2_keeps h _ (h.other (slotPassed_keeps h _ q) rfl rfl rfl rfl rfl) fun t ht => ih ht

theorem nextSlot_keeps (h : KeepsMem P) {s : State} (hs : P s) : P (State.nextSlot s) := by
  unfold State.nextSlot
  repeat' first
    | with_reducible assumption
    | intro _
    | with_reducible apply startSlots_keeps h

theorem startFacts_keeps (h : Keeps P) {s : State} (f : StartFacts) (hs : P s) : P (State.startFacts s f) := by
  unfold State.startFacts
  repeat' first
    | with_reducible assumption
    | intro _
    | (extract_lets +onlyGivenNames u; refine (fun (_ : P u) => ?_) ?_; (on_goal 1 => clear_value u); (on_goal 2 => subst u))
    | (extract_lets +onlyGivenNames u; clear_value u)
    | with_reducible apply drumClear_keeps h
    | with_reducible apply set_keeps h
    | with_reducible apply ite_keeps
    | simp only [↓mk_iff h]

theorem bootRom_keeps (h : KeepsMem P) {s : State} (hs : P s) : P (State.bootRom s) := by
  unfold State.bootRom
  repeat' first
    | with_reducible assumption
    | intro _
    | (extract_lets +onlyGivenNames u; refine (fun (_ : P u) => ?_) ?_; (on_goal 1 => clear_value u); (on_goal 2 => subst u))
    | (extract_lets +onlyGivenNames u; clear_value u)
    | with_reducible apply chooseHeader_keeps h.toKeeps
    | with_reducible apply each_keeps
    | with_reducible apply noChart_keeps h
    | with_reducible apply noteSeq_keeps h.toKeeps
    | with_reducible apply startCount_keeps h
    | with_reducible apply startSlots_keeps h
    | with_reducible apply sxtTestWrite_keeps h.toKeeps
    | with_reducible apply wornRestore_keeps h
    | with_reducible apply ite_keeps

theorem resetRelease_keeps (h : KeepsMem P) {s : State} (f : StartFacts) (hs : P s) : P (State.resetRelease s f) := by
  unfold State.resetRelease
  repeat' first
    | with_reducible assumption
    | intro _
    | (extract_lets +onlyGivenNames u; refine (fun (_ : P u) => ?_) ?_; (on_goal 1 => clear_value u); (on_goal 2 => subst u))
    | with_reducible apply bootRom_keeps h
    | with_reducible apply selfTests_keeps h
    | with_reducible apply startFacts_keeps h.toKeeps
    | with_reducible apply ite_keeps

theorem execResetRelease_keeps (h : KeepsMem P) (f : StartFacts) {s : State} (hs : P s) {t' : State}
    (e : execResetRelease f s = .next t') : P t' := by
  unfold execResetRelease at e
  injection e with e
  subst e
  repeat' first
    | with_reducible assumption
    | intro _
    | with_reducible apply resetRelease_keeps h

theorem romGoOn_keeps (h : KeepsMem P) {s : State} (hs : P s) : P (State.romGoOn s) := by
  unfold State.romGoOn
  repeat' first
    | with_reducible assumption
    | intro _
    | with_reducible apply nextSlot_keeps h
    | with_reducible apply stage4_keeps h
    | with_reducible apply ite_keeps

theorem tick_keeps (h : KeepsMem P) {s : State} (hs : P s) : P (State.tick s) := by
  unfold State.tick
  repeat' first
    | with_reducible assumption
    | intro _
    | with_reducible apply copyClock_keeps h
    | with_reducible apply coreTick_keeps h.toKeeps
    | with_reducible apply each_keeps
    | with_reducible apply romGoOn_keeps h
    | with_reducible apply ite_keeps
    | simp only [↓mk_iff h.toKeeps]

theorem pprRecords_keeps (h : Keeps P) {s : State} (n : Nat) (ok : Nat) (hs : P s) : P (State.pprRecords s n ok) := by
  unfold State.pprRecords
  repeat' first
    | with_reducible assumption
    | intro _
    | with_reducible apply bboxPut_keeps h
    | with_reducible apply each_keeps

theorem memTrainDone_keeps (h : KeepsMem P) {s : State} (n : Nat) (lanes : List (Nat × Nat)) (verify : Bool) (ppr : Nat) (srOk : Bool) (hs : P s) : P (State.memTrainDone s n lanes verify ppr srOk) := by
  unfold State.memTrainDone
  repeat' first
    | with_reducible assumption
    | intro _
    | with_reducible apply pprRecords_keeps h.toKeeps
    | with_reducible apply romGoOn_keeps h
    | with_reducible apply trainDoneSide_keeps h
    | with_reducible apply ite_keeps

theorem execMemTrainDone_keeps (h : KeepsMem P) (n : Side) (lanes : List (BitVec 128 × BitVec 128)) (verify : Bool) (ppr : BitVec 4) (srOk : Bool) {s : State} (hs : P s) {t' : State}
    (e : execMemTrainDone n lanes verify ppr srOk s = .next t') : P t' := by
  unfold execMemTrainDone at e
  injection e with e
  subst e
  repeat' first
    | with_reducible assumption
    | intro _
    | with_reducible apply memTrainDone_keeps h

theorem execMemInitDone_keeps (h : KeepsMem P) (n : Side) {s : State} (hs : P s) {t' : State}
    (e : execMemInitDone n s = .next t') : P t' := by
  unfold execMemInitDone at e
  injection e with e
  subst e
  repeat' first
    | with_reducible assumption
    | intro _
    | with_reducible apply initDone_keeps h
    | with_reducible apply romGoOn_keeps h

theorem scriptPop_keeps (h : Keeps P) {s : State} (hs : P s) : P (State.scriptPop s) := by
  unfold State.scriptPop
  repeat' first
    | with_reducible assumption
    | intro _
    | with_reducible apply ite_keeps
    | simp only [↓mk_iff h]

theorem romWrite_keeps (h : KeepsMem P) {s : State} (a : Word) (v : Word) (hs : P s) : P (State.romWrite s a v) := by
  unfold State.romWrite
  repeat' first
    | with_reducible assumption
    | intro _
    | with_reducible apply gridWrite_keeps h
    | with_reducible apply ite_keeps

theorem romRead_keeps (h : Keeps P) {s : State} (a : Word) (hs : P s) : P (State.romRead s a).2 := by
  unfold State.romRead
  repeat' first
    | with_reducible assumption
    | intro _
    | (extract_lets +onlyGivenNames u; refine (fun (_ : P u) => ?_) ?_; (on_goal 1 => clear_value u); (on_goal 2 => subst u))
    | with_reducible apply gridRead_keeps h

theorem execScriptWrite_keeps (h : KeepsMem P) {s : State} (hs : P s) {t' : State}
    (e : execScriptWrite s = .next t') : P t' := by
  unfold execScriptWrite at e
  injection e with e
  subst e
  repeat' first
    | with_reducible assumption
    | intro _
    | with_reducible apply romWrite_keeps h
    | with_reducible apply scriptPop_keeps h.toKeeps
    | with_reducible apply ite_keeps
    | simp only [↓mk_iff h.toKeeps]
    | split

theorem execScriptModify_keeps (h : KeepsMem P) {s : State} (hs : P s) {t' : State}
    (e : execScriptModify s = .next t') : P t' := by
  unfold execScriptModify at e
  injection e with e
  subst e
  repeat' first
    | with_reducible assumption
    | intro _
    | with_reducible apply romRead_keeps h.toKeeps
    | with_reducible apply romWrite_keeps h
    | with_reducible apply scriptPop_keeps h.toKeeps
    | with_reducible apply ite_keeps
    | split

theorem execScriptPoll_keeps (h : Keeps P) {s : State} (hs : P s) {t' : State}
    (e : execScriptPoll s = .next t') : P t' := by
  unfold execScriptPoll at e
  injection e with e
  subst e
  repeat' first
    | with_reducible assumption
    | intro _
    | with_reducible apply romRead_keeps h
    | with_reducible apply scriptPop_keeps h
    | with_reducible apply ite_keeps
    | split

theorem pollTimeout_keeps (h : KeepsMem P) {s : State} (c : ScriptCmd) (hs : P s) : P (State.pollTimeout s c) := by
  unfold State.pollTimeout
  repeat' first
    | with_reducible assumption
    | intro _
    | with_reducible apply logEvent_keeps h.toKeeps
    | with_reducible apply romRead_keeps h.toKeeps
    | with_reducible apply scriptPop_keeps h.toKeeps
    | with_reducible apply startFail_keeps h
    | with_reducible apply ite_keeps

theorem execScriptPollTimeout_keeps (h : KeepsMem P) {s : State} (hs : P s) {t' : State}
    (e : execScriptPollTimeout s = .next t') : P t' := by
  unfold execScriptPollTimeout at e
  injection e with e
  subst e
  repeat' first
    | with_reducible assumption
    | intro _
    | with_reducible apply pollTimeout_keeps h
    | with_reducible apply ite_keeps
    | simp only [↓mk_iff h.toKeeps]
    | split

theorem execScriptDelay_keeps (h : Keeps P) {s : State} (hs : P s) {t' : State}
    (e : execScriptDelay s = .next t') : P t' := by
  unfold execScriptDelay at e
  injection e with e
  subst e
  repeat' first
    | with_reducible assumption
    | intro _
    | with_reducible apply scriptPop_keeps h
    | with_reducible apply ite_keeps
    | simp only [↓mk_iff h]
    | split

theorem scriptsDone_keeps (h : KeepsMem P) {s : State} (hs : P s) : P (State.scriptsDone s) := by
  unfold State.scriptsDone
  repeat' first
    | with_reducible assumption
    | intro _
    | with_reducible apply nextSlot_keeps h
    | with_reducible apply stage3_keeps h
    | with_reducible apply stage6_keeps h
    | with_reducible apply ite_keeps

theorem execScriptEnd_keeps (h : KeepsMem P) {s : State} (hs : P s) {t' : State}
    (e : execScriptEnd s = .next t') : P t' := by
  unfold execScriptEnd at e
  injection e with e
  subst e
  repeat' first
    | with_reducible assumption
    | intro _
    | with_reducible apply scriptPop_keeps h.toKeeps
    | with_reducible apply scriptsDone_keeps h
    | with_reducible apply ite_keeps
    | simp only [↓mk_iff h.toKeeps]
    | split

/-! ### Debug -/

theorem jtagSelect_keeps (h : Keeps P) {s : State} (code : Nat) (width : Nat) (dr : Nat) (hs : P s) : P (State.jtagSelect s code width dr) := by
  unfold State.jtagSelect
  repeat' first
    | with_reducible assumption
    | intro _
    | with_reducible apply ite_keeps
    | simp only [↓mk_iff h]

theorem execIdcode_keeps (h : Keeps P) {s : State} (hs : P s) {t' : State}
    (e : execIdcode s = .next t') : P t' := by
  unfold execIdcode at e
  injection e with e
  subst e
  repeat' first
    | with_reducible assumption
    | intro _
    | with_reducible apply jtagSelect_keeps h

theorem boundary_keeps (h : Keeps P) {s : State} (code : Nat) (hs : P s) : P (State.boundary s code) := by
  unfold State.boundary
  repeat' first
    | with_reducible assumption
    | intro _
    | with_reducible apply draw_keeps h
    | with_reducible apply jtagSelect_keeps h
    | with_reducible apply ite_keeps
    | simp only [↓mk_iff h]

theorem execSamplePreload_keeps (h : Keeps P) {s : State} (hs : P s) {t' : State}
    (e : execSamplePreload s = .next t') : P t' := by
  unfold execSamplePreload at e
  injection e with e
  subst e
  repeat' first
    | with_reducible assumption
    | intro _
    | with_reducible apply boundary_keeps h

theorem bypass_keeps (h : Keeps P) {s : State} (code : Nat) (hs : P s) : P (State.bypass s code) := by
  unfold State.bypass
  repeat' first
    | with_reducible assumption
    | intro _
    | with_reducible apply jtagSelect_keeps h

theorem setScan_keeps (h : Keeps P) {s : State} (k : Nat) (hs : P s) : P (State.setScan s k) := by
  unfold State.setScan
  repeat' first
    | with_reducible assumption
    | intro _
    | with_reducible apply ite_keeps
    | simp only [↓mk_iff h]

theorem execExtest_keeps (h : Keeps P) {s : State} (hs : P s) {t' : State}
    (e : execExtest s = .next t') : P t' := by
  unfold execExtest at e
  injection e with e
  subst e
  repeat' first
    | with_reducible assumption
    | intro _
    | with_reducible apply boundary_keeps h
    | with_reducible apply bypass_keeps h
    | with_reducible apply setScan_keeps h
    | with_reducible apply ite_keeps

theorem execHighz_keeps (h : Keeps P) {s : State} (hs : P s) {t' : State}
    (e : execHighz s = .next t') : P t' := by
  unfold execHighz at e
  injection e with e
  subst e
  repeat' first
    | with_reducible assumption
    | intro _
    | with_reducible apply bypass_keeps h
    | with_reducible apply setScan_keeps h
    | with_reducible apply ite_keeps

theorem execClamp_keeps (h : Keeps P) {s : State} (hs : P s) {t' : State}
    (e : execClamp s = .next t') : P t' := by
  unfold execClamp at e
  injection e with e
  subst e
  repeat' first
    | with_reducible assumption
    | intro _
    | with_reducible apply bypass_keeps h
    | with_reducible apply setScan_keeps h
    | with_reducible apply ite_keeps

theorem execDtmcs_keeps (h : Keeps P) {s : State} (hs : P s) {t' : State}
    (e : execDtmcs s = .next t') : P t' := by
  unfold execDtmcs at e
  injection e with e
  subst e
  repeat' first
    | with_reducible assumption
    | intro _
    | with_reducible apply draw_keeps h
    | with_reducible apply jtagSelect_keeps h
    | with_reducible apply ite_keeps
    | simp only [↓mk_iff h]

theorem execBypass_keeps (h : Keeps P) (code : BitVec 5) {s : State} (hs : P s) {t' : State}
    (e : execBypass code s = .next t') : P t' := by
  unfold execBypass at e
  injection e with e
  subst e
  repeat' first
    | with_reducible assumption
    | intro _
    | with_reducible apply bypass_keeps h
    | with_reducible apply ite_keeps

theorem execUnlockStatus_keeps (h : Keeps P) {s : State} (hs : P s) {t' : State}
    (e : execUnlockStatus s = .next t') : P t' := by
  unfold execUnlockStatus at e
  injection e with e
  subst e
  repeat' first
    | with_reducible assumption
    | intro _
    | with_reducible apply jtagSelect_keeps h

theorem dmiAnswer_keeps (h : Keeps P) {s : State} (v : Nat) (hs : P s) : P (State.dmiAnswer s v) := by
  unfold State.dmiAnswer
  repeat' first
    | with_reducible assumption
    | intro _
    | with_reducible apply ite_keeps
    | simp only [↓mk_iff h]

theorem debugStep_keeps (h : Keeps P) {s : State} (c : Nat) (hs : P s) : P (State.debugStep s c) := by
  unfold State.debugStep
  repeat' first
    | with_reducible assumption
    | intro _
    | with_reducible apply draw_keeps h
    | with_reducible apply setCore_keeps h
    | with_reducible apply tagMake_keeps h
    | with_reducible apply when_keeps
    | with_reducible apply ite_keeps
    | simp only [↓mk_iff h]

theorem debugRead_keeps (h : Keeps P) {s : State} (w : World) (a : Nat) (len : Nat) (hs : P s) : P (State.debugRead s w a len) := by
  unfold State.debugRead
  repeat' first
    | with_reducible assumption
    | intro _
    | (extract_lets +onlyGivenNames u; refine (fun (_ : P u) => ?_) ?_; (on_goal 1 => clear_value u); (on_goal 2 => subst u))
    | with_reducible apply dmiAnswer_keeps h
    | with_reducible apply gridRead_keeps h
    | with_reducible apply memRead_keeps h
    | with_reducible apply ite_keeps
    | simp only [↓mk_iff h]
    | split

theorem debugWrite_keeps (h : KeepsMem P) {s : State} (w : World) (a : Nat) (bs : List Byte) (hs : P s) : P (State.debugWrite s w a bs) := by
  unfold State.debugWrite
  repeat' first
    | with_reducible assumption
    | intro _
    | with_reducible apply gridWrite_keeps h
    | with_reducible apply memWrite_keeps h
    | with_reducible apply ite_keeps
    | simp only [↓mk_iff h.toKeeps]
    | split

theorem dmi_keeps (h : KeepsMem P) {s : State} (op : DmiOp) (hs : P s) : P (State.dmi s op) := by
  unfold State.dmi
  repeat' first
    | with_reducible assumption
    | intro _
    | (extract_lets +onlyGivenNames u; refine (fun (_ : P u) => ?_) ?_; (on_goal 1 => clear_value u); (on_goal 2 => subst u))
    | with_reducible apply csrWrite_keeps h.toKeeps
    | with_reducible apply debugRead_keeps h.toKeeps
    | with_reducible apply debugStep_keeps h.toKeeps
    | with_reducible apply debugWrite_keeps h
    | with_reducible apply dmiAnswer_keeps h.toKeeps
    | with_reducible apply haltCheck_keeps h.toKeeps
    | with_reducible apply jtagSelect_keeps h.toKeeps
    | with_reducible apply romResume_keeps h.toKeeps
    | with_reducible apply set_keeps h.toKeeps
    | with_reducible apply setCore_keeps h.toKeeps
    | with_reducible apply ite_keeps
    | split

theorem execDmi_keeps (h : KeepsMem P) (op : DmiOp) {s : State} (hs : P s) {t' : State}
    (e : execDmi op s = .next t') : P t' := by
  unfold execDmi at e
  injection e with e
  subst e
  repeat' first
    | with_reducible assumption
    | intro _
    | with_reducible apply dmi_keeps h

theorem drawChallenge_keeps (h : Keeps P) {s : State} (hs : P s) : P (State.drawChallenge s) := by
  unfold State.drawChallenge
  repeat' first
    | with_reducible assumption
    | intro _
    | with_reducible apply draw_keeps h
    | with_reducible apply ite_keeps
    | simp only [↓mk_iff h]

theorem execUnlockChal_keeps (h : Keeps P) (stale : Bool) {s : State} (hs : P s) {t' : State}
    (e : execUnlockChal stale s = .next t') : P t' := by
  unfold execUnlockChal at e
  injection e with e
  subst e
  repeat' first
    | with_reducible assumption
    | intro _
    | with_reducible apply drawChallenge_keeps h
    | with_reducible apply jtagSelect_keeps h
    | with_reducible apply ite_keeps

theorem tokenShift_keeps (h : Keeps P) {s : State} (bs : List Byte) (hs : P s) : P (State.tokenShift s bs) := by
  unfold State.tokenShift
  repeat' first
    | with_reducible assumption
    | intro _
    | (extract_lets +onlyGivenNames u; refine (fun (_ : P u) => ?_) ?_; (on_goal 1 => clear_value u); (on_goal 2 => subst u))
    | (extract_lets +onlyGivenNames u; clear_value u)
    | with_reducible apply jtagSelect_keeps h
    | with_reducible apply ite_keeps
    | simp only [↓mk_iff h]

theorem execUnlockToken_keeps (h : Keeps P) (bytes : List Byte) {s : State} (hs : P s) {t' : State}
    (e : execUnlockToken bytes s = .next t') : P t' := by
  unfold execUnlockToken at e
  injection e with e
  subst e
  repeat' first
    | with_reducible assumption
    | intro _
    | with_reducible apply tokenShift_keeps h

theorem tokenFails_keeps (h : Keeps P) {s : State} (hs : P s) : P (State.tokenFails s) := by
  unfold State.tokenFails
  repeat' first
    | with_reducible assumption
    | intro _
    | (extract_lets +onlyGivenNames u; refine (fun (_ : P u) => ?_) ?_; (on_goal 1 => clear_value u); (on_goal 2 => subst u))
    | with_reducible apply count_keeps h
    | with_reducible apply set_keeps h
    | with_reducible apply ite_keeps

theorem tokenVerified_keeps (h : Keeps P) {s : State} (hs : P s) : P (State.tokenVerified s) := by
  unfold State.tokenVerified
  repeat' first
    | with_reducible assumption
    | intro _
    | (extract_lets +onlyGivenNames u; refine (fun (_ : P u) => ?_) ?_; (on_goal 1 => clear_value u); (on_goal 2 => subst u))
    | (extract_lets +onlyGivenNames u; clear_value u)
    | with_reducible apply dbgOpen_keeps h
    | with_reducible apply logEvent_keeps h
    | with_reducible apply tokenFails_keeps h
    | with_reducible apply ite_keeps
    | simp only [↓mk_iff h]
    | split

theorem execUnlockTokenVerified_keeps (h : Keeps P) {s : State} (hs : P s) {t' : State}
    (e : execUnlockTokenVerified s = .next t') : P t' := by
  unfold execUnlockTokenVerified at e
  injection e with e
  subst e
  repeat' first
    | with_reducible assumption
    | intro _
    | with_reducible apply tokenVerified_keeps h

theorem execDebugNormalEn_keeps (h : Keeps P) (w : World) (v : Word) {s : State} (hs : P s) {t' : State}
    (e : execDebugNormalEn w v s = .next t') : P t' := by
  unfold execDebugNormalEn at e
  injection e with e
  subst e
  repeat' first
    | with_reducible assumption
    | intro _
    | with_reducible apply asWriter_keeps h
    | with_reducible apply dbgNormalWrite_keeps h

/-! ### Step -/

theorem withFetchWord_keeps (h : Keeps P) {s : State} (nbits : Nat) (w : Nat) (hs : P s) : P (State.withFetchWord s nbits w) := by
  unfold State.withFetchWord
  repeat' first
    | with_reducible assumption
    | intro _
    | with_reducible apply ite_keeps
    | simp only [↓mk_iff h]
    | split

end

end Sys2Proof.Machine
end

