-- ==== Sys2Proof/Laws/Memory.lean ====
section
/-! SUPPORT. Memory: a byte reads what was written to it and every other byte reads what it read; the canonical form of every
store is kept by every primitive change, and State.reset has it. -/

namespace Sys2Proof.Machine

/-! ### Bytes -/

theorem sideByte_set (s : State) (n m off o : Nat) (b : Byte) :
    (s.setSideByte n off b).sideByte m o = if (m = 0 ↔ n = 0) ∧ o = off then b else s.sideByte m o := by
  unfold State.setSideByte State.sideByte
  by_cases hn : n = 0 <;> by_cases hm : m = 0 <;> simp [hn, hm, sget_sput]

theorem sramByte_set (s : State) (off o : Nat) (b : Byte) :
    (s.setSramByte off b).sramByte o = if o = off then b else s.sramByte o := sget_sput _ _ _ _

theorem flashByte_set (s : State) (off o : Nat) (b : Byte) :
    (s.setFlashByte off b).flashByte o = if o = off then b else s.flashByte o := sget_sput _ _ _ _

/-- A byte of a side after bytes are written from an offset up. -/
theorem sideByte_put (s : State) (n m off o : Nat) (bs : List Byte) :
    (s.putSide n off bs).sideByte m o =
      if (m = 0 ↔ n = 0) ∧ off ≤ o ∧ o < off + bs.length then bs.getD (o - off) 0 else s.sideByte m o := by
  induction bs generalizing s off with
  | nil => rw [if_neg (by intro h; simp only [List.length_nil] at h; omega)]; rfl
  | cons b bs ih =>
    rw [State.putSide, ih, sideByte_set]
    by_cases hn : (m = 0 ↔ n = 0)
    · by_cases h1 : off + 1 ≤ o ∧ o < off + 1 + bs.length
      · have h2 : off ≤ o ∧ o < off + (bs.length + 1) := by omega
        have h3 : o - off = (o - (off + 1)) + 1 := by omega
        simp [hn, h1, h2, h3]
      · by_cases h2 : o = off
        · subst h2; simp [hn]
        · have h3 : ¬ (off ≤ o ∧ o < off + (bs.length + 1)) := by omega
          rw [if_neg fun h => h1 h.2, if_neg fun h => h2 h.2, if_neg fun h => h3 h.2]
    · simp [hn]

/-- A byte of management SRAM after bytes are written from an offset up. -/
theorem sramByte_put (s : State) (off o : Nat) (bs : List Byte) :
    (s.putSram off bs).sramByte o = if off ≤ o ∧ o < off + bs.length then bs.getD (o - off) 0 else s.sramByte o := by
  induction bs generalizing s off with
  | nil => rw [if_neg (by intro h; simp only [List.length_nil] at h; omega)]; rfl
  | cons b bs ih =>
    rw [State.putSram, ih, sramByte_set]
    by_cases h1 : off + 1 ≤ o ∧ o < off + 1 + bs.length
    · have h2 : off ≤ o ∧ o < off + (bs.length + 1) := by omega
      have h3 : o - off = (o - (off + 1)) + 1 := by omega
      simp [h1, h2, h3]
    · by_cases h2 : o = off
      · subst h2; simp
      · have h3 : ¬ (off ≤ o ∧ o < off + (bs.length + 1)) := by omega
        have h4 : ¬ (off ≤ o ∧ o < off + (b :: bs).length) := h3
        rw [if_neg h1, if_neg h2, if_neg h4]

theorem sameBytes_of_eq {s t : State} (ha : t.memA = s.memA) (hb : t.memB = s.memB) (hs : t.sram = s.sram)
    (hf : t.flash = s.flash) : s.SameBytes t := by
  refine ⟨fun n off => ?_, fun off => ?_, fun off => ?_⟩
  · unfold State.sideByte; rw [ha, hb]
  · unfold State.sramByte; rw [hs]
  · unfold State.flashByte; rw [hf]

/-! ### The canonical form -/

theorem stores_iff (s : State) : s.stores = true ↔ swf regReset s.regs = true ∧ Memory.wf 0 s.memA = true ∧
    Memory.wf 0 s.memB = true ∧ Memory.wf 0 s.sram = true ∧ Memory.wf 0xFF s.flash = true := by
  simp [State.stores, and_assoc]

theorem stores_setReg {s : State} (a : Nat) (v : Word) (h : s.stores = true) : (s.setReg a v).stores = true := by
  rw [stores_iff] at h ⊢; exact ⟨swf_sput _ _ h.1, h.2⟩

theorem stores_setSideByte {s : State} (n off : Nat) (b : Byte) (h : s.stores = true) :
    (s.setSideByte n off b).stores = true := by
  rw [stores_iff] at h ⊢
  obtain ⟨hr, ha, hb, hx⟩ := h
  unfold State.setSideByte
  split
  · exact ⟨hr, swf_sput _ _ ha, hb, hx⟩
  · exact ⟨hr, ha, swf_sput _ _ hb, hx⟩

theorem stores_setSramByte {s : State} (off : Nat) (b : Byte) (h : s.stores = true) : (s.setSramByte off b).stores = true := by
  rw [stores_iff] at h ⊢
  exact ⟨h.1, h.2.1, h.2.2.1, swf_sput _ _ h.2.2.2.1, h.2.2.2.2⟩

theorem stores_setFlashByte {s : State} (off : Nat) (b : Byte) (h : s.stores = true) :
    (s.setFlashByte off b).stores = true := by
  rw [stores_iff] at h ⊢
  exact ⟨h.1, h.2.1, h.2.2.1, h.2.2.2.1, swf_sput _ _ h.2.2.2.2⟩

theorem stores_eraseFlash {s : State} (off len : Nat) (h : s.stores = true) : (s.eraseFlash off len).stores = true := by
  rw [stores_iff] at h ⊢
  exact ⟨h.1, h.2.1, h.2.2.1, h.2.2.2.1, swf_filter _ h.2.2.2.2⟩

theorem stores_keepSide {s : State} (n : Nat) (p : Host.Cell → Bool) (h : s.stores = true) :
    (s.keepSide n p).stores = true := by
  rw [stores_iff] at h ⊢
  obtain ⟨hr, ha, hb, hx⟩ := h
  unfold State.keepSide
  split
  · exact ⟨hr, swf_filter _ ha, hb, hx⟩
  · exact ⟨hr, ha, swf_filter _ hb, hx⟩

theorem stores_resetRange {s : State} (lo len : Nat) (k : Nat → Bool) (h : s.stores = true) :
    (s.resetRange lo len k).stores = true := by
  rw [stores_iff] at h ⊢
  exact ⟨swf_filter _ h.1, h.2⟩

end Sys2Proof.Machine
end

