-- ==== Sys2Proof/WellFormed.lean ====
section
/-! DEFINITION. Commands the device can be given: what the operands' types leave open is held to the spec's own bounds. -/

namespace Sys2Proof

/-- A range of the 40-bit address map that holds at least one byte (R33). -/
def rangeOk (a : BitVec 40) (len : Nat) : Bool := decide (1 ≤ len ∧ a.toNat + len ≤ 2 ^ 40)

/-- A debug-bus access moves at least one byte (R357). -/
def DmiOp.wf : DmiOp → Bool
  | .busRead _ a len => rangeOk a len
  | .busWrite _ a bs => rangeOk a bs.length
  | _ => true

/-- Whether a command is well formed. -/
def Instr.wf : Instr → Bool
  | .registerWrite _ bytes => decide (1 ≤ bytes.length)
  | .fabricRead (.addr _ a) len => rangeOk a len
  | .fabricRead (.bar _) len => decide (1 ≤ len)
  | .fabricWrite _ a bytes => rangeOk a bytes.length
  | .bar2Read _ _ _ _ len => decide (1 ≤ len)
  | .bar2Write _ _ _ _ bytes => decide (1 ≤ bytes.length)
  | .memTrainDone _ lanes _ _ _ => lanes.length == 16
  | .sideRetrainDone _ lanes _ => lanes.length == 16
  | .auxTransactionEnd _ _ _ _ data => decide (data.length ≤ 16)
  | .vinLinePacket _ _ _ _ payload _ _ => decide (payload.length < 2 ^ 16)
  | .tdmFrame _ din => decide (din.length ≤ 16)
  | .wearSample margins _ => decide (margins.length ≤ 32)
  | .unlockToken bytes => bytes.length == 192
  | .dmi op => op.wf
  | .resetRelease f => decide ((f.fails.map (·.index)).Nodup)
  | _ => true

end Sys2Proof
end

