-- ==== Sys2Proof/Tests/Slice0.lean ====
section
/-! SUPPORT. Tests of the model: ill-formed commands that each check refuses, commands of each family on small states, and for
every statement states that meet its premises together. -/

namespace Sys2Proof

open Machine

set_option Elab.async false

/-- The reset state with some fields set. -/
def st (l : List (Fld × Nat)) : State := l.foldl (fun s p => s.set p.1 p.2) State.reset

theorem crcShift_fits (r : Nat) : crcShift crc16Params r < 65536 := by
  unfold crcShift
  split <;> exact Nat.mod_lt _ (by decide)

theorem crc16_fits (bs : List Byte) : crc16 bs < 65536 := by
  have h : ∀ (l : List Byte) (r : Nat), r < 65536 → l.foldl (crcByte crc16Params) r < 65536 := by
    intro l
    induction l with
    | nil => exact fun r h => h
    | cons b l ih => exact fun r _ => ih _ (crcShift_fits _)
  have := h bs 0xFFFF (by decide)
  simpa [crc16, crc, crc16Params] using this

/-- A frame that carries its own check value. -/
theorem crc16_own (f : Nat) (b : List Byte) (h : f = 0) :
    (crc16 (leBytes 2 f ++ b) == (BitVec.ofNat 16 (crc16 (leBytes 2 0 ++ b))).toNat) = true := by
  subst h
  have := crc16_fits (leBytes 2 0 ++ b)
  simp only [BitVec.toNat_ofNat, beq_iff_eq]
  omega

/-! Well-formedness: each check refuses a command that breaks it. -/

def secureCore : Master := ⟨.core, 0, 0, .secure⟩
def someStart (l : List MacroFail) : StartFacts :=
  { corePower := true, sideA := 0, sideB := 0, fails := l, dead := [], deadAgain := [], badAgain := [] }

theorem test_wf_register_write_empty : (Instr.registerWrite (.grid secureCore 0) []).wf = false := by decide
theorem test_wf_fabric_read_empty : (Instr.fabricRead (.addr secureCore 0) 0).wf = false := by decide
theorem test_wf_fabric_read_past_the_map :
    (Instr.fabricRead (.addr secureCore 0xFFFFFFFFFF) 2).wf = false := by decide +kernel
theorem test_wf_bar_read_empty : (Instr.fabricRead (.bar (.page 0 0 0 0)) 0).wf = false := by decide
theorem test_wf_fabric_write_empty : (Instr.fabricWrite secureCore 0 []).wf = false := by decide
theorem test_wf_fabric_write_past_the_map :
    (Instr.fabricWrite secureCore 0xFFFFFFFFFF [0, 0]).wf = false := by decide +kernel
theorem test_wf_bar2_read_empty : (Instr.bar2Read 0 0 0 0 0).wf = false := by decide
theorem test_wf_bar2_write_empty : (Instr.bar2Write 0 0 0 0 []).wf = false := by decide
theorem test_wf_training_lanes : (Instr.memTrainDone 0 (List.replicate 15 (0, 0)) true 0 true).wf = false := by decide
theorem test_wf_retraining_lanes : (Instr.sideRetrainDone 0 (List.replicate 17 (0, 0)) true).wf = false := by decide
theorem test_wf_aux_data : (Instr.auxTransactionEnd 0 false 0 0 (List.replicate 17 0)).wf = false := by decide
theorem test_wf_line_packet :
    (Instr.vinLinePacket 0 0 0 .clean (List.replicate 65536 0) true none).wf = false := by
  have h (p : List Byte) : (Instr.vinLinePacket 0 0 0 .clean p true none).wf = decide (p.length < 2 ^ 16) := rfl
  rw [h, List.length_replicate]
  decide
theorem test_wf_tdm_slots : (Instr.tdmFrame 0 (List.replicate 17 0)).wf = false := by decide
theorem test_wf_wear_margins : (Instr.wearSample (List.replicate 33 0) 0).wf = false := by decide
theorem test_wf_unlock_token : (Instr.unlockToken (List.replicate 191 0)).wf = false := by decide +kernel
theorem test_wf_bus_read_empty : (Instr.dmi (.busRead .secure 0 0)).wf = false := by decide
theorem test_wf_bus_write_empty : (Instr.dmi (.busWrite .secure 0 [])).wf = false := by decide
theorem test_wf_macro_twice : (Instr.resetRelease (someStart [⟨3, 1, 0⟩, ⟨3, 0, 1⟩])).wf = false := by decide

/-- A command that every check admits. -/
theorem test_wf_beat : Instr.beat.wf = true := by decide

/-! Worked values of the spec. -/

/-- The known check values of R408's table. -/
theorem test_crc8_known : crc crc8Params crcTestBytes = 0xF4 := by decide +kernel
theorem test_crc16_known : crc16 crcTestBytes = 0x29B1 := by decide +kernel
theorem test_crc32_known : crc crc32Params crcTestBytes = 0xCBF43926 := by decide +kernel
theorem test_crc32c_known : crc32c crcTestBytes = 0xE3069283 := by decide +kernel
theorem test_crc64_known : crc crc64Params crcTestBytes = 0x995DC9BBDF1939FA := by decide +kernel

/-- The prefix of tile row 2 of row 17 of PROT_2's rectangle 0 (06_protected_content_and_sextant.md). -/
theorem test_tile_prefix : checkPrefix 0x087000AE00 0x1F4A =
    [0x00, 0xAE, 0x00, 0x70, 0x08, 0, 0, 0, 0x4A, 0x1F, 0, 0, 0, 0, 0, 0] := by decide

/-- The second line of LAYER_20's buffer (07_memory_sides.md). -/
theorem test_dram_place : dramPlace 0x42000040 = { ch := 1, bank := 0, row := 4505, col := 1664 } := by decide +kernel

/-- Session 17's bucket at 60 units (02_sessions_and_guest_ports.md), which the model counts in millionths of a token. -/
theorem test_bucket_depth : (st [(Reg.SESS_QUOTA_UNITS 17, 60)]).bucketDepth 17 = 1000000 * 33554432 := by decide +kernel

/-- Small commands on a state built from reset: the semaphore addition wraps modulo 2³² (R57); the drumbeat number carries from its
low word into its high one (R17). -/
theorem test_sem_add_wraps :
    (match exec (.semAdd 3 2 5) ((State.reset).setReg (Reg.SESS_SEM 3 2) 0xFFFFFFFE) with
      | .next t => t.reg (Reg.SESS_SEM 3 2) | _ => 0) = 3 := by decide +kernel
theorem test_beat_carries :
    (match exec .beat (st [(Reg.DRUM_COUNT_LO_COUNT, 0xFFFFFFFF), (Reg.DRUM_COUNT_HI_COUNT, 6)]) with
      | .next t => (t.get Reg.DRUM_COUNT_LO_COUNT, t.get Reg.DRUM_COUNT_HI_COUNT) | _ => (1, 1)) = (0, 7) := by decide +kernel

/-- No row of the table gives its command bits. -/
theorem test_no_row_has_bits (n w : Nat) : decodeTableWord n w = none := rfl

/-! States that meet premises which stand inside a case of their statement, and states for statements without a set of field values
of their own. -/

theorem witness_StoresStayCanonical :
    State.reset.stores = true ∧ step State.reset = .next State.reset.tick :=
  ⟨by decide +kernel, rfl⟩

/-- A normal writer at an instance the secure world holds, and any writer at an instance whose clock is stopped. -/
theorem witness_WritersAreAdmittedByWorldAndGate :
    (st [({ addr := Reg.SYS_OWN 0x04 0, lo := 7, width := 1 }, 1)]).ownedSecure 0x04 7 = true ∧
    State.reset.ownedSecure 0x04 7 = false ∧ ({ State.reset with gated := [256 * 4 + 7] } : State).isGated 0x04 7 = true := by
  decide +kernel

def wLog (tokens code : Nat) : State :=
  { State.reset with log := { queue := [{ code := code }], tokens := [(logBucket code, tokens)] } }

/-- A queued firmware record that repeats the newest one. -/
def wFold : State :=
  let e : LogEntry := { code := 0x1000, unit := 0x16, inst := 2, origin := 1, fold := true }
  ({ st [(Reg.LOG_HEAD_SEQ, 1)] with log := { queue := [e] } } : State).setLogWord 1 0 0x10001602 |>.setLogWord 1 7 0xA0000001

/-- An admitted record, one that needs no token, one whose bucket is empty, and one that folds. -/
theorem witness_LogbookWriterAdmitsAndWrites :
    (wLog 1 0x1000).log.queue = [{ code := 0x1000 }] ∧
    0 < sget (fun _ => (wLog 1 0x1000).log.full) (wLog 1 0x1000).log.tokens (logBucket 0x1000) ∧
    (wLog 0 0x0008).log.queue = [{ code := 0x0008 }] ∧
    (wLog 0 0x1000).log.queue = [{ code := 0x1000 }] ∧
    sget (fun _ => (wLog 0 0x1000).log.full) (wLog 0 0x1000).log.tokens (logBucket 0x1000) = 0 ∧
    wFold.log.queue.all (fun e => e.fold && wFold.folds e && e.origin == 1) = true ∧ wFold.log.queue ≠ [] := by
  decide +kernel

theorem witness_RealTimeClockCountsAndLoads_set :
    ({ State.reset with rtc := { setTo := some (7, 9) } } : State).rtc.setTo = some (7, 9) ∧
    State.LogRoom { State.reset with rtc := { setTo := some (7, 9) } } := by
  unfold State.LogRoom
  decide +kernel

/-- A unit whose descriptor at the start of SRAM asks for `op` over eight bytes, with its result at 0x0F_0000_2000. -/
def wCrc (op rows chunk src xorout : Nat) (status : List (Fld × Nat)) : State :=
  (({ (st ([({ addr := Reg.SYS_OWN 0x19 0, lo := 0, width := 1 }, 1), (Reg.CRC_STATUS_BUSY 0, 1), (Reg.CRC_CFG_WIDTH 0, 32),
      (Reg.CRC_POLY_LO_POLY 0, 0), (Reg.CRC_XOROUT_LO_XOROUT 0, xorout)] ++ status)) with
    sram := [(1, BitVec.ofNat 8 (src / 256 % 256)), (4, BitVec.ofNat 8 (src / 2 ^ 32)), (8, 8), (16, BitVec.ofNat 8 rows),
      (18, BitVec.ofNat 8 chunk), (23, BitVec.ofNat 8 (16 * op + 1)), (41, 0x20), (44, 0x0F)].filter (·.2 != 0) } : State)).setCrcU 0
    { desc := 0xF00000000 }
def wDesc (s : State) : CrcDesc :=
  { words := (List.range 16).map fun i => leAt ((s.readBytes .secure 0xF00000000 64).getD []) (4 * i) 4 }

/-- Descriptors that are bad, that reach outside memory, that compute, and that check with and without a mismatch. -/
theorem witness_CheckValueWalkCoversItsBytes_runs :
    (∀ op ∈ [1, 2], ∀ x ∈ [0, 1], ∀ s ∈ [wCrc op 1 0 0xF00001000 x []],
      s.crcBusy 0 = true ∧ (s.crcU 0).done = false ∧ (s.crcU 0).halted = false ∧ s.bit (Reg.CRC_STATUS_ERR 0) = false ∧
      s.SourceFree 100 ∧ (s.readBytes (s.ownerWorld 0x19 0) (s.crcU 0).desc 64).isSome = true ∧ (wDesc s).bad 4 = false ∧
      s.crcRange (wDesc s) 4 = false ∧ (wDesc s).op = op ∧ (wDesc s).chunkLog = 0 ∧ (wDesc s).rows = 1 ∧
      s.readBytes .secure (wDesc s).src 8 = some (List.replicate 8 0) ∧ s.readBytes .secure (wDesc s).res 4 = some [0, 0, 0, 0] ∧
      crc (s.crcParams 0) ((wDesc s).prefixOf (wDesc s).src 0 ++ List.replicate 8 0) = x ∧
      s.get (Reg.CRC_MISMATCHES_COUNT 0) = 0) ∧
    (wDesc (wCrc 3 1 0 0xF00001000 0 [])).bad 4 = true ∧
    (wDesc (wCrc 1 1 0 0xE00001000 0 [])).bad 4 = false ∧ (wCrc 1 1 0 0xE00001000 0 []).crcRange (wDesc (wCrc 1 1 0 0xE00001000 0 [])) 4 = true := by
  unfold State.SourceFree
  decide +kernel

/-- A descriptor that reads as poison: its side is frozen. -/
theorem witness_CheckValueWalkCoversItsBytes_poison :
    (((st [(Reg.CRC_STATUS_BUSY 0, 1), (Reg.MSIDE_STATUS_STATE 0, 4)]).setCrcU 0 { desc := 0 }).readMem .secure 0 64 = .poison) := by
  decide +kernel

/-- A write that waits and hits an open row is what the channel picks. -/
def wReq : MemReq := { id := 4, write := true, len := 64, master := secureCore, bank := 2, row := 9 }
def wChan : State := (st [(Reg.MSIDE_STATUS_STATE 0, 3)]).setChan 0 0 { writeQ := [wReq], openRow := [(2, 9)] }

theorem witness_ChannelIssuesTheRequestRulesPick_hit :
    wChan.sideMode 0 = 3 ∧ (wChan.chan 0 0).recovery = false ∧ (wChan.chan 0 0).debt = 0 ∧ (wChan.chan 0 0).neighbours = [] ∧
    wChan.choose 0 0 = some wReq ∧ wReq.write = true ∧ wReq.len = 64 ∧ (wChan.chan 0 0).open wReq.bank = wReq.row := by
  decide +kernel

def wFlight (breached : Bool) : State :=
  (st [(Reg.MSIDE_STATUS_STATE 0, 3)]).setChan 0 0 { inFlight := [{ wReq with write := false, breached := breached }] }

theorem witness_FabricReadReturnsTheBytes_return :
    ((wFlight false).chan 0 0).inFlight.find? (·.id == 4) = some { wReq with write := false } ∧ (wFlight false).SourceFree 53 := by
  unfold State.SourceFree
  decide +kernel

theorem witness_UrgencyAndThrottlesFollowTargets_late :
    ((wFlight true).chan 0 0).inFlight.find? (·.id == 4) = some { wReq with write := false, breached := true } ∧
    ((wFlight false).chan 0 0).inFlight.find? (·.id == 4) = some { wReq with write := false } ∧
    (wFlight false).get (Reg.QOS_CFG_TARGET 0) < 2 ^ 20 := by
  decide +kernel

/-- A read that waits on a channel in debt recovery. -/
def wWait (port : Nat) : State :=
  (st [(Reg.MSIDE_STATUS_STATE 0, 3)]).setChan 0 0 { recovery := true, readQ := [{ wReq with write := false, port := port }] }

theorem witness_UrgencyAndThrottlesFollowTargets_recovery :
    ((wWait 10).chan 0 0).recovery = true ∧ ((wWait 10).chan 0 0).readQ.find? (·.id == 4) = some { wReq with write := false, port := 10 } ∧
    ((wWait 10).portRank 10 = 3 ∨ (wWait 10).portRank 10 = 4) ∧
    ((wWait 27).chan 0 0).readQ.find? (·.id == 4) = some { wReq with write := false, port := 27 } ∧
    (wWait 27).portRank 27 ≠ 3 ∧ (wWait 27).portRank 27 ≠ 4 := by
  decide +kernel

/-- A window that holds both rings. -/
def wRing : State := st [(Reg.SESS_WIN_CTRL_VALID 2 0, 1), (Reg.SESS_WIN_CTRL_SIZE 2 0, 1), (Reg.SESS_RES_OTHER_AUDIO 2, 1)]

theorem witness_SessionPageWritesTakeEffect_rings :
    wRing.bit (Reg.SESS_TQ_CTRL_EN 2) = false ∧ wRing.ownsAudio 2 0 = true ∧ wRing.bit (Reg.SESS_AS_CTRL_START 2 0) = false ∧
    wRing.translateRing 2 (wRing.get (Reg.SESS_TQ_BASE_OFFSET 2) * 64) (32 * 16) = some 0 ∧
    wRing.translateRing 2 (wRing.get (Reg.SESS_AS_BASE_OFFSET 2 0) * 64) (4 * (40 * clampNat 2 65535 2)) = some 0 ∧
    State.reset.translateRing 3 0 (32 * 16) = none := by
  decide +kernel

def wLib (bs : Option (List Byte)) (c : Nat) : State := { st [(Reg.HAP_LIB_CRC_CRC, c)] with hapLib := some bs }

theorem witness_HapticSupplyAndLibraryLoad_ends :
    (wLib (some crcTestBytes) 0xE3069283).SourceFree 79 ∧ (wLib none 0).SourceFree 79 ∧
    (some crcTestBytes).any (fun bs => crc32c bs == (wLib (some crcTestBytes) 0xE3069283).get Reg.HAP_LIB_CRC_CRC) = true ∧
    (none : Option (List Byte)).any (fun bs => crc32c bs == (wLib none 0).get Reg.HAP_LIB_CRC_CRC) = false := by
  unfold State.SourceFree
  decide +kernel

def wHap (l : List (Fld × Nat)) : State := st ([(Reg.HC_OWNER_VALID 3, 1), (Reg.HC_OWNER_SESSION 3, 9)] ++ l)
def wPend (late : Nat) : State := ((st [(Reg.HAP_BUDGET_LIMIT, 1000)]).setReg (Reg.HAP_LIB 0 0) 0x00C80240).setHc 3
  { pending := some { effect := 0, urgent := false, session := some 9, late := late } }

theorem witness_HapticTriggerStartsOrIsDiscarded_bell :
    (wHap []).hapHandle 9 0 = some 3 ∧ (wHap []).bit Reg.HAP_STATUS_HV_READY = false ∧
    (wHap [(Reg.HAP_STATUS_HV_READY, 1)]).hapHandle 9 0 = some 3 ∧ (wHap [(Reg.HAP_STATUS_HV_READY, 1)]).bit Reg.HAP_STATUS_LIB_VALID = false ∧
    (wHap [(Reg.HAP_STATUS_HV_READY, 1), (Reg.HAP_STATUS_LIB_VALID, 1), (Reg.HC_CTRL_EN 3, 1)]).hapHandle 9 0 = some 3 ∧
    (wHap [(Reg.HAP_STATUS_HV_READY, 1), (Reg.HAP_STATUS_LIB_VALID, 1), (Reg.HC_CTRL_EN 3, 1)]).hcState 3 = 0 ∧
    ((wHap []).hc 3).pending = none ∧ ((wHap []).hc 3).urgent = none ∧ (wHap [(Reg.SESS_CTRL_HAP_URGENT_OK 9, 1)]).hapHandle 9 0 = some 3 ∧
    (wHap [(Reg.SESS_CTRL_HAP_URGENT_OK 9, 1)]).bit (Reg.SESS_CTRL_HAP_URGENT_OK 9) = true := by
  decide +kernel

/-- A trigger that waits for its slot boundary, on time and one boundary late. -/
theorem witness_HapticTriggerStartsOrIsDiscarded_pending :
    ∀ late ∈ [0, 1], (∀ c < 16, c ≠ 3 → ((wPend late).hc c).pending = none) ∧
    (∀ c < 16, ((wPend late).hc c).urgent = none ∧ (wPend late).hcState c ≠ 1) ∧
    ((wPend late).hc 3).pending = some { effect := 0, urgent := false, session := some 9, late := late } ∧ (wPend late).hcState 3 = 0 ∧
    ((wPend late).hapDesc 0).total ≠ 0 ∧ (wPend late).hapOthers 3 + (wPend late).hapCost 3 ((wPend late).hapDesc 0).level ≤
      (wPend late).get Reg.HAP_BUDGET_LIMIT := by
  decide +kernel

/-- A token against no challenge fails. -/
theorem witness_JtagSelectsAndDebugNeedsItsEnable_token :
    ({ State.reset with jtag := { token := some ([], []) } } : State).jtag.token = some ([], []) ∧ tokenPasses [] [] = false :=
  ⟨rfl, by unfold tokenPasses; simp⟩

def wIrq (top : Bool) : State :=
  (st ([(Reg.MC_STATUS_STATE 0, 1), (Reg.MC_STATUS_WORLD 0, 0), (Reg.IC_SRC_TARGET 120, 1), (Reg.IC_SRC_SMODE 120, 1)] ++
    if top then [(Reg.IC_SRC_PENDING 120, 1), (Reg.IC_SRC_PRIO 120, 3)] else [])).setCore 0 { priv := 3 }

theorem witness_InterruptsFollowWorldAndPriority_preempts :
    (wIrq true).preempted 120 = some 0 ∧ (wIrq true).topSource 0 0 = 120 ∧ ((wIrq true).core 0).haltReq = false ∧
    ((wIrq true).core 0).priv < 4 ∧ (wIrq false).preempted 120 = some 0 ∧ (wIrq false).topSource 0 0 ≠ 120 := by
  decide +kernel

theorem witness_SecureWorldIsWatchedAndRestarted_restarts :
    ({ State.reset with restartDue := true } : State).restartCore = some 0 ∧ (State.reset.core 0).parked = false ∧
    ({ st [(Reg.MC_STATUS_STATE 0, 0)] with restartDue := true } : State).restartCore = none := by
  decide +kernel

def wBox : State := { st [(Reg.BBOX_STATUS_COMMITTING, 1)] with
  bbox := { queue := [⟨2, List.replicate 32 0, 0, 0, 0, false, 0⟩], inProgram := 1 } }

theorem witness_BlackBoxAppendsAndCommits_program :
    wBox.bit Reg.BBOX_STATUS_COMMITTING = true ∧ wBox.bbox.opening = false ∧ wBox.bbox.inProgram = 1 ∧
    wBox.bbox.queue = [⟨2, List.replicate 32 0, 0, 0, 0, false, 0⟩] ∧
    wBox.flashErased (wBox.bboxSlotAt (wBox.get Reg.BBOX_HEAD_PAGE) (wBox.get Reg.BBOX_HEAD_SLOT)) 64 = true := by
  decide +kernel

/-- A gain change that waits past its timeout, and one that has just begun. -/
theorem witness_AudioBlocksAndFrames_waits :
    ((State.reset.setNode 0 0 { wait := some 9999 }).node 0 0).wait = some 9999 ∧
    clampNat 1 50 ((State.reset.setNode 0 0 { wait := some 9999 }).get Reg.AUD_ZC_ZC_TIMEOUT) * 48 ≤ 9999 ∧
    ((State.reset.setNode 0 0 { wait := some 0 }).node 0 0).wait = some 0 ∧
    0 < clampNat 1 50 ((State.reset.setNode 0 0 { wait := some 0 }).get Reg.AUD_ZC_ZC_TIMEOUT) * 48 := by
  decide +kernel

theorem winCtrl_reset (m k : Nat) (hm : m < 256) (hk : k < 16) : regReset (Reg.SESS_WIN_CTRL m k) = 0 := by
  have h1 : Reg.SESS_WIN_CTRL m k / 0x1000000 = 14 := by unfold Reg.SESS_WIN_CTRL reg; omega
  have h2 : Reg.SESS_WIN_CTRL m k % 0x10000 = 0x1108 + 16 * k := by unfold Reg.SESS_WIN_CTRL reg; omega
  have h3 : Reg.SESS_WIN_CTRL m k / 0x10000 % 256 = m := by unfold Reg.SESS_WIN_CTRL reg; omega
  have h4 : ∀ k < 16, (match findRow (unitRows 14) (0x1108 + 16 * k) with
      | some (r, _) => decide (r.reset = 0 ∧ r.special = .none) | none => true) = true := by decide +kernel
  have h5 : m < unitInstances 14 := hm
  have h6 := h4 k hk
  unfold regReset rowAt
  simp only [h1, h2, h3, h5, if_true]
  split
  · rfl
  · rename_i r ix h
    rw [h] at h6
    simp only [decide_eq_true_eq] at h6
    rw [h6.1, h6.2]
    simp [ResetRule.eval]

theorem reset_winValid (m k : Nat) (hm : m < 256) (hk : k < 16) : State.reset.bit (Reg.SESS_WIN_CTRL_VALID m k) = false := by
  have h : State.reset.reg (Reg.SESS_WIN_CTRL m k) = 0 := winCtrl_reset m k hm hk
  unfold State.bit State.get
  rw [h]
  rfl

/-- No window of another session is valid: none is taken. -/
theorem notTaken (s : State) (n dev size : Nat)
    (h : ∀ m < 256, m ≠ n → ∀ k < 16, s.bit (Reg.SESS_WIN_CTRL_VALID m k) = false) :
    s.winTaken n dev size = false := by
  unfold State.winTaken
  split
  · rfl
  · rw [List.any_eq_false]
    intro m hm hx
    rw [Bool.and_eq_true, List.any_eq_true] at hx
    obtain ⟨hn, k, hk, hx⟩ := hx
    rw [Bool.and_eq_true, h m (List.mem_range.mp hm) (by simpa using hn) k (List.mem_range.mp hk)] at hx
    cases hx.1

def wNarrow : State := st [(Reg.SESS_WIN_GOFF_GOFF 2 0, 0x1FFF), (Reg.GP_CTRL_APERTURE_LOG2 0, 25)]

theorem wNarrow_noWindow : ∀ m < 256, ∀ k < 16, wNarrow.bit (Reg.SESS_WIN_CTRL_VALID m k) = false := by
  intro m hm k hk
  have h := reset_winValid m k hm hk
  unfold State.bit at h ⊢
  rw [← h]
  congr 1
  show ((State.reset.set (Reg.SESS_WIN_GOFF_GOFF 2 0) 0x1FFF).set (Reg.GP_CTRL_APERTURE_LOG2 0) 25).get _ = _
  rw [State.get_set_other, State.get_set_other]
  · show 0x1000000 * 14 + 0x10000 * m + (0x1108 + 16 * k) ≠ _
    unfold Reg.SESS_WIN_GOFF_GOFF Reg.SESS_WIN_GOFF reg
    simp only
    omega
  · show 0x1000000 * 14 + 0x10000 * m + (0x1108 + 16 * k) ≠ _
    unfold Reg.GP_CTRL_APERTURE_LOG2 Reg.GP_CTRL reg
    simp only
    omega

theorem witness_WindowWritesAreCheckedWhole_free :
  (wNarrow.Admits .secure 14 2 false ∧ wNarrow.Admits .secure 14 1 false ∧ wNarrow.locked (Reg.SESS_CTRL 2) = false ∧
    wNarrow.locked (Reg.SESS_CTRL 1) = false ∧ wNarrow.SourceFree 194 ∧ wNarrow.SourceFree 193 ∧
    wNarrow.winBadRange (wNarrow.get (Reg.SESS_WIN_DEV_DEV 2 0)) (getBits (65537 : Word) 0 14) = false ∧
    wNarrow.winBadRange (wNarrow.get (Reg.SESS_WIN_DEV_DEV 1 0)) (getBits (65537 : Word) 0 14) = false ∧
    2 ^ wNarrow.apertureLog2 2 < (wNarrow.get (Reg.SESS_WIN_GOFF_GOFF 2 0) + getBits (65537 : Word) 0 14) * granuleBytes ∧
    (wNarrow.get (Reg.SESS_WIN_GOFF_GOFF 1 0) + getBits (65537 : Word) 0 14) * granuleBytes ≤ 2 ^ wNarrow.apertureLog2 1) ∧
  wNarrow.winTaken 2 (wNarrow.get (Reg.SESS_WIN_DEV_DEV 2 0)) (getBits (65537 : Word) 0 14) = false ∧
  wNarrow.winTaken 1 (wNarrow.get (Reg.SESS_WIN_DEV_DEV 1 0)) (getBits (65537 : Word) 0 14) = false ∧
  (∀ j < 16, ¬ (j ≠ 0 ∧ wNarrow.bit (Reg.SESS_WIN_CTRL_VALID 1 j) = true ∧ 0 < getBits (65537 : Word) 0 14 ∧
    0 < wNarrow.get (Reg.SESS_WIN_CTRL_SIZE 1 j) ∧
    wNarrow.get (Reg.SESS_WIN_GOFF_GOFF 1 0) < wNarrow.get (Reg.SESS_WIN_GOFF_GOFF 1 j) + wNarrow.get (Reg.SESS_WIN_CTRL_SIZE 1 j) ∧
    wNarrow.get (Reg.SESS_WIN_GOFF_GOFF 1 j) < wNarrow.get (Reg.SESS_WIN_GOFF_GOFF 1 0) + getBits (65537 : Word) 0 14)) ∧
  getBits (65537 : Word) 0 14 ≠ 0 := by
  refine ⟨?_, notTaken _ _ _ _ fun m hm _ => wNarrow_noWindow m hm, notTaken _ _ _ _ fun m hm _ => wNarrow_noWindow m hm,
    fun j hj h => ?_, by decide⟩
  · unfold State.Admits State.SourceFree
    decide +kernel
  · rw [wNarrow_noWindow 1 (by decide) j hj] at h
    exact absurd h.2.1 (by decide)

/-- A window of SIZE 0 fails the fifth check alone. -/
theorem witness_WindowWritesAreCheckedWhole_empty :
  (wNarrow.Admits .secure 14 1 false ∧ wNarrow.locked (Reg.SESS_CTRL 1) = false ∧ wNarrow.SourceFree 193 ∧
    wNarrow.bit (Reg.SESS_WIN_CTRL_VALID 1 0) = false ∧
    wNarrow.winBadRange (wNarrow.get (Reg.SESS_WIN_DEV_DEV 1 0)) (getBits (65536 : Word) 0 14) = false ∧
    granuleBytes * (wNarrow.get (Reg.SESS_WIN_GOFF_GOFF 1 0) + getBits (65536 : Word) 0 14) ≤ 2 ^ wNarrow.apertureLog2 1 ∧
    getBits (65536 : Word) 0 14 = 0) ∧
  wNarrow.winTaken 1 (wNarrow.get (Reg.SESS_WIN_DEV_DEV 1 0)) (getBits (65536 : Word) 0 14) = false := by
  refine ⟨?_, notTaken _ _ _ _ fun m hm _ => wNarrow_noWindow m hm⟩
  unfold State.Admits State.SourceFree
  decide +kernel

/-- Session 1 with its window 1 valid. -/
def wOwnWindow : State := (wNarrow.set (Reg.SESS_WIN_CTRL_VALID 1 1) 1).set (Reg.SESS_WIN_CTRL_SIZE 1 1) 1

theorem wOwnWindow_others (m : Nat) (hm : m < 256) (hn : m ≠ 1) (k : Nat) (hk : k < 16) :
    wOwnWindow.bit (Reg.SESS_WIN_CTRL_VALID m k) = false := by
  have h := wNarrow_noWindow m hm k hk
  have ha : 0x1000000 * 14 + 0x10000 * m + (0x1108 + 16 * k) ≠ 0x1000000 * 14 + 0x10000 * 1 + (0x1108 + 16 * 1) := by omega
  unfold State.bit at h ⊢
  rw [← h]
  congr 1
  unfold wOwnWindow
  rw [State.get_set_other _ _ _ _ ha, State.get_set_other _ _ _ _ ha]

theorem witness_WindowWritesAreCheckedWhole_meets :
  (wOwnWindow.Admits .secure 14 1 false ∧ wOwnWindow.locked (Reg.SESS_CTRL 1) = false ∧ wOwnWindow.SourceFree 193 ∧
    wOwnWindow.bit (Reg.SESS_WIN_CTRL_VALID 1 0) = false ∧
    wOwnWindow.winBadRange (wOwnWindow.get (Reg.SESS_WIN_DEV_DEV 1 0)) (getBits (65537 : Word) 0 14) = false ∧
    granuleBytes * (wOwnWindow.get (Reg.SESS_WIN_GOFF_GOFF 1 0) + getBits (65537 : Word) 0 14) ≤ 2 ^ wOwnWindow.apertureLog2 1 ∧
    (1 ≠ 0 ∧ wOwnWindow.bit (Reg.SESS_WIN_CTRL_VALID 1 1) = true ∧ 0 < getBits (65537 : Word) 0 14 ∧
      0 < wOwnWindow.get (Reg.SESS_WIN_CTRL_SIZE 1 1) ∧
      wOwnWindow.get (Reg.SESS_WIN_GOFF_GOFF 1 0) <
        wOwnWindow.get (Reg.SESS_WIN_GOFF_GOFF 1 1) + wOwnWindow.get (Reg.SESS_WIN_CTRL_SIZE 1 1) ∧
      wOwnWindow.get (Reg.SESS_WIN_GOFF_GOFF 1 1) < wOwnWindow.get (Reg.SESS_WIN_GOFF_GOFF 1 0) + getBits (65537 : Word) 0 14)) ∧
  wOwnWindow.winTaken 1 (wOwnWindow.get (Reg.SESS_WIN_DEV_DEV 1 0)) (getBits (65537 : Word) 0 14) = false := by
  refine ⟨?_, notTaken _ _ _ _ fun m hm hn => wOwnWindow_others m hm hn⟩
  unfold State.Admits State.SourceFree
  decide +kernel

def wBurn : State := (State.reset.set (Reg.WEAR_MACRO_SOFT_ROWS 0) 1).set (Reg.WEAR_MACRO_SOFT_COLS 0) 1

theorem wBurn_reg (a : Nat) (h : a ≠ Reg.WEAR_MACRO 0) : wBurn.reg a = State.reset.reg a := by
  unfold wBurn
  rw [State.reg_set, if_neg h, State.reg_set, if_neg h]

theorem wBurn_repairs : wBurn.softRepairs 0 = (1, 1) := by
  have hc : wBurn.get (Reg.WEAR_MACRO_SOFT_COLS 0) = 1 := State.get_set_same _ _ _ (by decide)
  have hr : wBurn.get (Reg.WEAR_MACRO_SOFT_ROWS 0) = 1 := by
    unfold wBurn
    rw [State.get_set_apart _ _ (Reg.WEAR_MACRO_SOFT_ROWS 0) _ (by decide) (by decide)]
    exact State.get_set_same _ _ _ (by decide)
  show (wBurn.get (Reg.WEAR_MACRO_SOFT_ROWS 0), wBurn.get (Reg.WEAR_MACRO_SOFT_COLS 0)) = (1, 1)
  rw [hc, hr]

theorem witness_WearSamplesAndRepairs_burn :
  wBurn.Admits .secure 29 0 false ∧ wBurn.bit Reg.WEAR_OTP_STATUS_BUSY = false ∧ wBurn.brownout = false ∧
    (wBurn.softRepairs (getBits (0 : Word) 0 8)).1 + (wBurn.softRepairs (getBits (0 : Word) 0 8)).2 ≠ 0 ∧
    wBurn.wear.used + (wBurn.softRepairs (getBits (0 : Word) 0 8)).1 + (wBurn.softRepairs (getBits (0 : Word) 0 8)).2 ≤ 64 := by
  have h0 : getBits (0 : Word) 0 8 = 0 := by decide
  rw [h0, wBurn_repairs]
  refine ⟨?_, ?_, ?_, by decide, ?_⟩
  · exact ⟨(nomatch ·), rfl⟩
  · unfold State.bit State.get
    rw [wBurn_reg _ (by decide)]
    decide +kernel
  · unfold State.brownout State.bit State.get
    rw [wBurn_reg _ (by decide)]
    decide +kernel
  · exact (by decide +kernel : State.reset.wear.used + 1 + 1 ≤ 64)

/-- A burn of macro 0's two repairs that a warning has interrupted. -/
def wCut : State :=
  { wBurn.set Reg.WEAR_OTP_STATUS_BUSY 1 with wear := { State.reset.wear with cut := true, target := 0 } }

theorem witness_WearSamplesAndRepairs_cut :
  wCut.bit Reg.WEAR_OTP_STATUS_BUSY = true ∧ wCut.wear.cut = true ∧
    wCut.wear.used + ((wCut.softRepairs wCut.wear.target).1 + (wCut.softRepairs wCut.wear.target).2) ≤
      64 ∧
    1 ≤ (wCut.softRepairs wCut.wear.target).1 + (wCut.softRepairs wCut.wear.target).2 := by
  have hm : wCut.wear.target = 0 := rfl
  have hs : wCut.softRepairs 0 = (1, 1) := by
    rw [← wBurn_repairs]
    unfold State.softRepairs
    have e : ∀ f : Fld, f.addr = Reg.WEAR_MACRO 0 → wCut.get f = wBurn.get f := fun f hf => by
      show (wBurn.set Reg.WEAR_OTP_STATUS_BUSY 1).get f = _
      rw [State.get_set_other _ _ _ _ (by rw [hf]; decide)]
    rw [if_pos (by decide), if_pos (by decide), e _ rfl, e _ rfl]
  have hb : wCut.bit Reg.WEAR_OTP_STATUS_BUSY = true := by
    unfold State.bit
    rw [show wCut.get Reg.WEAR_OTP_STATUS_BUSY =
      (wBurn.set Reg.WEAR_OTP_STATUS_BUSY 1).get Reg.WEAR_OTP_STATUS_BUSY from rfl]
    rw [State.get_set_same _ _ _ (by decide)]
    decide
  rw [hm, hs]
  exact ⟨hb, rfl, (by decide +kernel : State.reset.wear.used + (1 + 1) ≤ 64), by decide⟩

/-- The check value of a tile row of 128 zero bytes, sixteen bytes at a time. -/
theorem crc_of_tile : crc32c (checkPrefix 0xF00000000 0 ++ List.replicate 128 0) = 1838332284 := by
  let z : List Byte := List.replicate 16 0
  have e : List.replicate 128 (0 : Byte) = z ++ (z ++ (z ++ (z ++ (z ++ (z ++ (z ++ z)))))) := by decide +kernel
  have c (r : Nat) (t : Nat) (h : z.foldl (crcByte crc32cParams) r = t) (l : List Byte) :
      (z ++ l).foldl (crcByte crc32cParams) r = l.foldl (crcByte crc32cParams) t := by rw [List.foldl_append, h]
  unfold crc32c crc
  rw [e, List.foldl_append,
    show (checkPrefix 0xF00000000 0).foldl (crcByte crc32cParams) crc32cParams.init = 796466597 by decide +kernel,
    c 796466597 4209558504 (by decide +kernel), c 4209558504 2276436479 (by decide +kernel),
    c 2276436479 3294955592 (by decide +kernel), c 3294955592 2531120925 (by decide +kernel),
    c 2531120925 3351629589 (by decide +kernel), c 3351629589 457823163 (by decide +kernel),
    c 457823163 3240999688 (by decide +kernel),
    show z.foldl (crcByte crc32cParams) 3240999688 = 3244471881 by decide +kernel]
  decide +kernel

/-- A rectangle of one tile row of zeros at the start of SRAM, with a check word. -/
def wTile (word : Nat) : State :=
  { (st [(Reg.PROT_ACT_CTRL_EN 0, 1), (Reg.PROT_ACT_CTRL_RECT_EN 0, 1), (Reg.PROT_ACT_RECT_SIZE_W 0 0, 128),
      (Reg.PROT_ACT_RECT_SIZE_H 0 0, 1), (Reg.PROT_ACT_RECT_SRC_ADDR 0 0, 0xF000000), (Reg.PROT_ACT_RECT_CHK_ADDR 0 0, 0xF001000)]) with
    screens := [(0, { State.reset.scr 0 with sextant := some 0 })],
    sram := ((List.range 4).map fun i => (0x100000 + i, (leBytes 4 word).getD i 0)).filter (·.2 != 0) }

theorem wTile_row (word : Nat) (h : word = 0 ∨ word = 1838332284) :
    (wTile word).tileAt 0 0 0 0 = (0xF00000000, 128) ∧
    (wTile word).readBytes .secure ((wTile word).tileAt 0 0 0 0).1 ((wTile word).tileAt 0 0 0 0).2 = some (List.replicate 128 0) ∧
    (wTile word).readBytes .secure ((wTile word).tileCheckAt 0 0 0 0) 4 = some (leBytes 4 word) ∧
    (wTile word).get (Reg.PROT_ACT_SEQ_SEQ 0) = 0 := by
  rcases h with rfl | rfl <;> decide +kernel

/-- Whether the tile row's check value is the stored one. -/
def tileGood (s : State) : Bool :=
  (s.readBytes .secure (s.tileAt 0 0 0 0).1 (s.tileAt 0 0 0 0).2).isSome && (s.readBytes .secure (s.tileCheckAt 0 0 0 0) 4).isSome &&
    crc32c (checkPrefix (s.tileAt 0 0 0 0).1 (s.get (Reg.PROT_ACT_SEQ_SEQ 0)) ++
      (s.readBytes .secure (s.tileAt 0 0 0 0).1 (s.tileAt 0 0 0 0).2).getD []) ==
      leNat ((s.readBytes .secure (s.tileCheckAt 0 0 0 0) 4).getD [])

theorem tileGood_wTile (word : Nat) (h : word = 0 ∨ word = 1838332284) :
    tileGood (wTile word) = (1838332284 == leNat (leBytes 4 word)) := by
  obtain ⟨ha, hb, hc, hs⟩ := wTile_row word h
  unfold tileGood
  rw [hb, hc, hs, ha]
  simp only [Option.isSome_some, Bool.true_and, Option.getD_some]
  rw [crc_of_tile]

/-- Tile rows that carry their own check value, and that do not. -/
theorem witness_ProtectedContentIsVouched_tile :
    (∀ word ∈ [0, 1838332284], (wTile word).SourceFree (41 + 0) ∧ ((wTile word).scr 0).sextant = some 0 ∧
      ((wTile word).liveRects 0).contains 0 = true ∧ 0 < ((wTile word).actRect 0 0).h ∧ 0 < (wTile word).tileRows 0 0 ∧
      ((wTile word).get (Reg.PROT_COMMIT_STATUS_STATE 0) == 1) = false ∧
      ((wTile word).startWaits ((wTile word).tileAt 0 0 0 0).1 ((wTile word).tileAt 0 0 0 0).2 ||
        (wTile word).startWaits ((wTile word).tileCheckAt 0 0 0 0) 4) = false) ∧
    tileGood (wTile 0) = false ∧ tileGood (wTile 1838332284) = true := by
  refine ⟨?_, ?_, ?_⟩
  · unfold State.SourceFree
    decide +kernel
  · rw [tileGood_wTile 0 (.inl rfl)]
    decide
  · rw [tileGood_wTile _ (.inr rfl)]
    decide +kernel

def wTouchEngineChecksItsEnable1 : State := st [(Reg.TOUCH_CTRL_EN 0, 1), (Reg.TOUCH_CTRL_SCREEN 0, 0)]
def wTouchEngineChecksItsEnable2 : State := (st [(Reg.TOUCH_CTRL_EN 0, 0)]).setTch 0 { State.reset.tch 0 with contained := true }
def wTouchEngineChecksItsEnable3 : State := (st [(Reg.TOUCH_TRACK_HOLD_LIMIT 0, 1), (Reg.DRUM_COUNT_LO_COUNT, 1000)]).setTch 0 { State.reset.tch 0 with contacts := [newContact 3 0 false] }
def wTouchEngineChecksItsEnable4 : State := (st [(Reg.TOUCH_CTRL_EN 0, 0), (Reg.TSL_STATUS_STATE 0, 3),
  (Reg.TSL_IDENT_1_W 0, 0)]).setTch 0 { State.reset.tch 0 with contained := false }
def wTouchEngineChecksItsEnable5 : State := (st [(Reg.TOUCH_CTRL_EN 0, 0), (Reg.TSL_STATUS_STATE 0, 3),
  (Reg.TSL_IDENT_1_W 0, 1), (Reg.TSL_IDENT_1_H 0, 1)]).setTch 0 { State.reset.tch 0 with contained := false }
def wTouchEngineChecksItsEnable6 : State := (st [(Reg.TOUCH_CTRL_EN 0, 0), (Reg.TSL_STATUS_STATE 0, 3),
  (Reg.TSL_IDENT_1_W 0, 1), (Reg.TSL_IDENT_1_H 0, 1)]).setTch 0 { State.reset.tch 0 with contained := false, loadDue := true }
def wTouchEngineChecksItsEnable7 : State := (st [(Reg.TOUCH_CTRL_EN 0, 0), (Reg.TSL_STATUS_STATE 0, 3),
  (Reg.TSL_IDENT_1_W 0, 1), (Reg.TSL_IDENT_1_H 0, 1)]).setTch 0 { State.reset.tch 0 with contained := false, loadDue := false }
def wTouchEngineChecksItsEnable8 : State := st [(Reg.TOUCH_CTRL_EN 0, 1), (Reg.TOUCH_STATUS_PHASE 0, 4),
  (Reg.TOUCH_CTRL_SCREEN 0, 0)]
def wTouchEngineChecksItsEnable9 : State := st [(Reg.TOUCH_CTRL_EN 0, 1), (Reg.TOUCH_STATUS_PHASE 0, 3)]

set_option synthInstance.maxHeartbeats 400000 in
set_option synthInstance.maxSize 4000 in
theorem witness_TouchEngineChecksItsEnable :
  wTouchEngineChecksItsEnable1.Admits World.secure 16 0 false ∧ wTouchEngineChecksItsEnable1.bit
    (Reg.TOUCH_CTRL_EN 0) = true ∧ ((getBits (0 : BitVec 32) 16 3 == wTouchEngineChecksItsEnable1.get
    (Reg.TOUCH_CTRL_SCREEN 0)) = true ∨ wTouchEngineChecksItsEnable1.SourceFree (71 + 0)) ∧ wTouchEngineChecksItsEnable1.get
    (Reg.TOUCH_STATUS_PHASE 0) ≤ 1 ∧ wTouchEngineChecksItsEnable1.get (Reg.TOUCH_STATUS_PHASE 0) ≠ 3 ∧ wTouchEngineChecksItsEnable1.SourceFree (71 + 0)
    ∧ (List.find? (fun c => c.id == 0) (wTouchEngineChecksItsEnable1.tch 0).contacts = none ∨ (wTouchEngineChecksItsEnable1.get
    (Reg.TOUCH_TRACK_HOLD_LIMIT 0) != 0 && decide (wTouchEngineChecksItsEnable1.get
    (Reg.TOUCH_TRACK_HOLD_LIMIT 0) * wTouchEngineChecksItsEnable1.beatRate.num ≤ (wTouchEngineChecksItsEnable1.drumbeat - ((List.find? (fun c => c.id
    == 0) (wTouchEngineChecksItsEnable1.tch 0).contacts).getD (newContact 0 0 false)).downDrum) * wTouchEngineChecksItsEnable1.beatRate.den))
    = false) ∧ ((wTouchEngineChecksItsEnable1.tch 0).loadDue = false ∨ (wTouchEngineChecksItsEnable1.get
    (Reg.TSL_STATUS_STATE 0) == 3) = false) ∧
  wTouchEngineChecksItsEnable2.Admits World.secure 16 0 false ∧ wTouchEngineChecksItsEnable2.bit
    (Reg.TOUCH_CTRL_EN 0) = false ∧ (wTouchEngineChecksItsEnable2.tch 0).contained = true ∧
  wTouchEngineChecksItsEnable3.Admits World.secure 16 0 false ∧ wTouchEngineChecksItsEnable3.bit
    (Reg.TOUCH_CTRL_EN 0) = false ∧ (wTouchEngineChecksItsEnable3.tch 0).contained = false ∧ (wTouchEngineChecksItsEnable3.get
    (Reg.TSL_STATUS_STATE 0) == 3) = false ∧ (List.find? (fun c => c.id == 3) (wTouchEngineChecksItsEnable3.tch 0).contacts).isSome
    = true ∧ (wTouchEngineChecksItsEnable3.get (Reg.TOUCH_TRACK_HOLD_LIMIT 0) != 0 && decide (wTouchEngineChecksItsEnable3.get
    (Reg.TOUCH_TRACK_HOLD_LIMIT 0) * wTouchEngineChecksItsEnable3.beatRate.num ≤ (wTouchEngineChecksItsEnable3.drumbeat - ((List.find? (fun c => c.id
    == 3) (wTouchEngineChecksItsEnable3.tch 0).contacts).getD (newContact 0 0 false)).downDrum) * wTouchEngineChecksItsEnable3.beatRate.den))
    = true ∧
  wTouchEngineChecksItsEnable4.Admits World.secure 16 0 false ∧ wTouchEngineChecksItsEnable4.bit
    (Reg.TOUCH_CTRL_EN 0) = false ∧ (wTouchEngineChecksItsEnable4.tch 0).contained = false ∧ (wTouchEngineChecksItsEnable4.get
    (Reg.TSL_STATUS_STATE 0) == 3) = true ∧ (decide (1 ≤ wTouchEngineChecksItsEnable4.get (Reg.TSL_IDENT_1_W 0)
    ∧ wTouchEngineChecksItsEnable4.get (Reg.TSL_IDENT_1_W 0) ≤ 256 ∧ 1 ≤ wTouchEngineChecksItsEnable4.get
    (Reg.TSL_IDENT_1_H 0) ∧ wTouchEngineChecksItsEnable4.get (Reg.TSL_IDENT_1_H 0) ≤ 128) = false) ∧ wTouchEngineChecksItsEnable4.SourceFree (71 + 0) ∧
  wTouchEngineChecksItsEnable5.Admits World.secure 16 0 false ∧ wTouchEngineChecksItsEnable5.bit
    (Reg.TOUCH_CTRL_EN 0) = false ∧ (wTouchEngineChecksItsEnable5.tch 0).contained = false ∧ (wTouchEngineChecksItsEnable5.get
    (Reg.TSL_STATUS_STATE 0) == 3) = true ∧ (decide (1 ≤ wTouchEngineChecksItsEnable5.get (Reg.TSL_IDENT_1_W 0)
    ∧ wTouchEngineChecksItsEnable5.get (Reg.TSL_IDENT_1_W 0) ≤ 256 ∧ 1 ≤ wTouchEngineChecksItsEnable5.get
    (Reg.TSL_IDENT_1_H 0) ∧ wTouchEngineChecksItsEnable5.get (Reg.TSL_IDENT_1_H 0) ≤ 128) = true) ∧ wTouchEngineChecksItsEnable5.SourceFree (71 + 0) ∧
  wTouchEngineChecksItsEnable6.Admits World.secure 16 0 false ∧ wTouchEngineChecksItsEnable6.bit
    (Reg.TOUCH_CTRL_EN 0) = false ∧ (wTouchEngineChecksItsEnable6.tch 0).contained = false ∧ (wTouchEngineChecksItsEnable6.get
    (Reg.TSL_STATUS_STATE 0) == 3) = true ∧ (decide (1 ≤ wTouchEngineChecksItsEnable6.get (Reg.TSL_IDENT_1_W 0)
    ∧ wTouchEngineChecksItsEnable6.get (Reg.TSL_IDENT_1_W 0) ≤ 256 ∧ 1 ≤ wTouchEngineChecksItsEnable6.get
    (Reg.TSL_IDENT_1_H 0) ∧ wTouchEngineChecksItsEnable6.get (Reg.TSL_IDENT_1_H 0) ≤ 128) = true) ∧ (wTouchEngineChecksItsEnable6.set
    (Reg.TOUCH_CTRL_SCREEN 0) (getBits (0 : BitVec 32) 16 3)).budgetErr 0 = none ∧ (wTouchEngineChecksItsEnable6.tch 0).loadDue
    = true ∧
  wTouchEngineChecksItsEnable7.Admits World.secure 16 0 false ∧ wTouchEngineChecksItsEnable7.bit
    (Reg.TOUCH_CTRL_EN 0) = false ∧ (wTouchEngineChecksItsEnable7.tch 0).contained = false ∧ (wTouchEngineChecksItsEnable7.get
    (Reg.TSL_STATUS_STATE 0) == 3) = true ∧ (decide (1 ≤ wTouchEngineChecksItsEnable7.get (Reg.TSL_IDENT_1_W 0)
    ∧ wTouchEngineChecksItsEnable7.get (Reg.TSL_IDENT_1_W 0) ≤ 256 ∧ 1 ≤ wTouchEngineChecksItsEnable7.get
    (Reg.TSL_IDENT_1_H 0) ∧ wTouchEngineChecksItsEnable7.get (Reg.TSL_IDENT_1_H 0) ≤ 128) = true) ∧ (wTouchEngineChecksItsEnable7.set
    (Reg.TOUCH_CTRL_SCREEN 0) (getBits (0 : BitVec 32) 16 3)).budgetErr 0 = none ∧ (wTouchEngineChecksItsEnable7.tch 0).loadDue
    = false ∧
  wTouchEngineChecksItsEnable8.Admits World.secure 16 0 false ∧ wTouchEngineChecksItsEnable8.bit
    (Reg.TOUCH_CTRL_EN 0) = true ∧ wTouchEngineChecksItsEnable8.get (Reg.TOUCH_STATUS_PHASE 0) ≠ 3 ∧ (getBits (1 : Word) 16 3
    == wTouchEngineChecksItsEnable8.get (Reg.TOUCH_CTRL_SCREEN 0)) = true ∧ wTouchEngineChecksItsEnable8.SourceFree (71 + 0)
    ∧ 2 ≤ wTouchEngineChecksItsEnable8.get (Reg.TOUCH_STATUS_PHASE 0) ∧
  wTouchEngineChecksItsEnable9.Admits World.secure 16 0 false ∧ wTouchEngineChecksItsEnable9.bit
    (Reg.TOUCH_CTRL_EN 0) = true ∧ wTouchEngineChecksItsEnable9.get (Reg.TOUCH_STATUS_PHASE 0) = 3 := by
  try unfold State.Admits
  try unfold State.SourceFree
  try unfold State.LogRoom
  decide +kernel

/-! The end of a scan of a touch engine, on a grid of two by two pads whose counts are 0. -/

/-- A GROUP frame of a dark image. -/
def scanBody : List Byte := [16, 0, 0, 0, 0] ++ List.replicate 256 0

/-- Its check value. -/
def scanCrc : BitVec 16 := BitVec.ofNat 16 (crc16 (leBytes 2 0 ++ scanBody))

/-- Whether the frame ends a scan of engine 0. -/
def scanEnds (s : State) : Bool :=
  let r := s.tch 0
  let k := r.scan
  let at_ := fun (i j : Nat) => leNat ((scanBody.drop i).take j)
  s.get (Reg.TSL_STATUS_STATE 0) == 3 && crc16 (leBytes 2 r.fseq ++ scanBody) == scanCrc.toNat && scanBody.length == 261 &&
    byteAt scanBody 0 == 0x10 && k.active && byteAt scanBody 1 == k.dseq && at_ 3 2 == k.first + k.got && k.got + 1 == k.groups

theorem scanEnds_of (s : State) (h : (s.tch 0).fseq = 0)
    (e : (s.get (Reg.TSL_STATUS_STATE 0) == 3 && (s.tch 0).scan.active && (s.tch 0).scan.dseq == 0 &&
      (s.tch 0).scan.first + (s.tch 0).scan.got == 0 && (s.tch 0).scan.got + 1 == (s.tch 0).scan.groups) = true) : scanEnds s = true := by
  have c := crc16_own (s.tch 0).fseq scanBody h
  simp only [Bool.and_eq_true, beq_iff_eq] at e
  obtain ⟨⟨⟨⟨h1, h2⟩, h3⟩, h4⟩, h5⟩ := e
  unfold scanEnds scanCrc
  simp only
  rw [c, h1, h2, h3, h4, h5]
  simp only [beq_self_eq_true, Bool.and_true]
  decide +kernel

/-- The filtered deltas of the image, and its peaks that count. -/
def scanImage (s : State) : Array Int :=
  let r := s.tch 0
  let k := r.scan
  let taken := fun (p : Nat) => if p / 128 = k.first + k.got then leNat ((scanBody.drop (5 + 2 * (p % 128))).take 2) else padNat k.counts p
  let count := fun (p : Nat) => if k.first ≤ p / 128 ∧ p / 128 ≤ k.first + k.got then taken p else padNat r.counts p
  let above := fun (p : Nat) => ((256 * count p : Nat) : Int) - ((padArray 4 r.base).getD p 0 : Int)
  let delta := fun (p : Nat) => max (-32768) (min 32767 ((above p + 128) / 256))
  clearPads ((s.grid 0).filtered ((List.range 4).map delta).toArray) r.obstructedPads

/-- The peaks of the image that are no water. -/
def scanLive (s : State) : List Peak :=
  ((s.grid 0).detect (scanImage s) (s.touchT 0) (s.touchRelease 0) (s.get (Reg.TOUCH_THRESH_PALM_PADS 0))).filter fun p => p.palm || !p.water

/-- An engine in SERVICE at the last group of a scan. -/
def wScan (thresh : Nat) (l : List (Fld × Nat)) (r : TouchState → TouchState) : State :=
  (st ([(Reg.TSL_STATUS_STATE 0, 3), (Reg.TOUCH_STATUS_PHASE 0, 3), (Reg.TSL_IDENT_1_W 0, 2), (Reg.TSL_IDENT_1_H 0, 2),
    (Reg.TOUCH_TRACK_MOVE_MAX 0, 0), (Reg.TOUCH_THRESH_TOUCH_THRESH 0, thresh), (Reg.TOUCH_THRESH_PALM_PADS 0, 16)] ++ l)).setTch 0
    (r { State.reset.tch 0 with scan.active := true, scan.groups := 1 })

/-- A drive scan in SERVICE ends, without noise. -/
def scanDrive (s : State) : Bool :=
  (s.get (Reg.TOUCH_STATUS_PHASE 0) == 3) && !(s.tch 0).scan.listen && (s.tch 0).held.isEmpty && (s.tch 0).obstructed.isEmpty &&
    !s.bit (Reg.TOUCH_STATUS_NOISE 0) && (s.tch 0).scan.half == 0 && !(s.tch 0).dumpDue && (s.grid 0).pads == 4

/-- The image lies above the release level below the baseline. -/
def scanLevel (s : State) : Bool := (List.range 4).all fun p => decide (-(s.touchRelease 0) < (scanImage s).getD p 0)

/-- Session 2 takes records, and the screen of engine 0 runs with a map of one layer. -/
def wRouted (prot : List Rect) (s : State) : State :=
  (((s.set (Reg.SCREEN_STATUS_RUNNING 0) 1).set (Reg.SESS_TQ_CTRL_EN 2) 1).set (Reg.SESS_TQ_RD_INDEX 2) 5 |>.setScr 0
    { s.scr 0 with hit := some { frame := 7, w := 32, h := 32, prot := prot, layers := [(some 2, { x := 0, y := 0, w := 32, h := 32 })] } })

/-- Where the one peak of the image lies on the screen. -/
def scanHit (s : State) : HitEntry :=
  let m := (s.grid 0).spot (scanImage s) (s.touchMap 0) ((scanLive s).headD ⟨0, 0, [], false, false⟩).pad
  s.hitAt 0 m.x m.y

/-- A session whose queue takes a record. -/
def scanRuns (s : State) (q : Nat) : Bool := s.bit (Reg.SESS_TQ_CTRL_EN q) && !s.tqFull q && !(s.ses q).tqSync

/-- A contact and a candidate at pad 0. -/
def scanContact : Contact := newContact 0 0 false
/-- A candidate at pad 0. -/
def scanCandidate : Candidate := { pad := 0, peak := 0 }

def wCalm : State := wScan 2 [] id
def wHeld : State := wScan 2 [] fun r => { r with contacts := [scanContact] }
def wLost : State := wRouted [] (wScan 2 [] fun r => { r with contacts := [{ scanContact with misses := 1, session := some 2 }] })
def wFresh : State := wScan 0 [] id
def wSeen : State := wRouted [] (wScan 0 [] fun r => { r with candidates := [scanCandidate] })
def wTwo : State := wScan 0 [] fun r => { r with contacts := [{ scanContact with pad := 3 }], candidates := [scanCandidate] }
def wPalm : State := wScan 0 [(Reg.TOUCH_THRESH_PALM_PADS 0, 0)] fun r => { r with contacts := [scanContact] }
def wStill : State := wRouted [] (wScan 0 [] fun r => { r with contacts := [{ scanContact with session := some 2 }] })
def wMoves : State := wRouted [] (wScan 0 [] fun r => { r with contacts := [{ scanContact with session := some 2, sent := (1, 0, 0) }] })
def wEnters : State := wRouted [{ x := 0, y := 0, w := 32, h := 32 }]
  (wScan 0 [] fun r => { r with contacts := [{ scanContact with session := some 2 }] })
def wListen : State := wScan 2 [] fun r => { r with scan.listen := true }
def wListenNoise : State := wScan 2 [(Reg.TOUCH_STATUS_NOISE 0, 1)] fun r => { r with scan.listen := true }
def wQuiet (done : Nat) : State := wScan 2 [(Reg.TOUCH_STATUS_PHASE 0, 2)] fun r => { r with quietScans := done }

/-- Every one of them is a scan that ends with this frame. -/
theorem witness_TouchEngineChecksItsEnable_ends :
    ∀ s ∈ [wCalm, wHeld, wLost, wFresh, wSeen, wTwo, wPalm, wStill, wMoves, wEnters, wListen, wListenNoise, wQuiet 0, wQuiet 7],
      scanEnds s = true := by
  intro s h
  simp only [List.mem_cons, List.not_mem_nil, or_false] at h
  rcases h with rfl | rfl | rfl | rfl | rfl | rfl | rfl | rfl | rfl | rfl | rfl | rfl | rfl | rfl <;>
    exact scanEnds_of _ (by decide +kernel) (by decide +kernel)

theorem witness_TouchEngineChecksItsEnable_calm :
    (scanDrive wCalm && scanDrive wHeld && scanDrive wLost) = true ∧ (wCalm.tch 0).contacts = [] ∧
    (∀ s ∈ [wCalm, wHeld, wLost], scanLive s = [] ∧ scanLevel s = true ∧ (s.tch 0).candidates = []) ∧
    (wHeld.tch 0).contacts.length = 1 ∧ ((wHeld.tch 0).contacts.all fun c => c.misses == 0 && decide (c.id < 20)) = true ∧
    scanHit wHeld ≠ .session 0 ∧ ((wLost.tch 0).contacts.all fun c => c.misses == 1 && c.session == some 2 && decide (c.id < 20)) = true ∧
    scanRuns wLost 2 = true := by decide +kernel

theorem witness_TouchEngineChecksItsEnable_peak :
    (∀ s ∈ [wFresh, wSeen, wTwo, wPalm, wStill, wMoves, wEnters], scanDrive s = true ∧ ((scanLive s).length == 1) = true ∧
      (scanLive s).all (fun p => p.pad == 0 && p.palm == decide (s = wPalm)) = true) ∧
    ((wFresh.tch 0).contacts = [] ∧ (wFresh.tch 0).candidates = []) ∧
    ((wSeen.tch 0).contacts = [] ∧ (wSeen.tch 0).candidates = [scanCandidate] ∧ scanHit wSeen = .session 2 ∧ scanRuns wSeen 2 = true ∧
      wSeen.zoneAt 0 2 0 0 = 0xFF) ∧
    ((wTwo.tch 0).contacts.length = 1 ∧ (wTwo.tch 0).candidates = [scanCandidate] ∧ (wTwo.grid 0).dist 3 0 = 1 ∧
      wTwo.get (Reg.TOUCH_TRACK_MOVE_MAX 0) = 0) ∧
    (∀ s ∈ [wPalm, wStill, wMoves, wEnters], (s.tch 0).contacts.length = 1 ∧ (s.tch 0).candidates = [] ∧
      (s.tch 0).contacts.all (fun c => c.pad == 0 && decide (c.id < 20) && !c.resend) = true) ∧
    scanHit wStill = .session 2 ∧ scanHit wMoves = .session 2 ∧ scanHit wEnters = .session 0 ∧
    (scanRuns wMoves 2 && scanRuns wEnters 2) = true ∧
    ((wStill.grid 0).spot (scanImage wStill) (wStill.touchMap 0) 0) = { x := 0, y := 0, inten := 0 } ∧
    ((wMoves.grid 0).spot (scanImage wMoves) (wMoves.touchMap 0) 0) = { x := 0, y := 0, inten := 0 } := by decide +kernel

theorem witness_TouchEngineChecksItsEnable_quiet :
    wListen.get (Reg.TOUCH_STATUS_PHASE 0) = 3 ∧ (wListen.tch 0).scan.listen = true ∧ wListen.bit (Reg.TOUCH_STATUS_NOISE 0) = false ∧
    wListenNoise.bit (Reg.TOUCH_STATUS_NOISE 0) = true ∧
    (∀ s ∈ [wQuiet 0, wQuiet 7], s.get (Reg.TOUCH_STATUS_PHASE 0) = 2 ∧ (s.tch 0).scan.listen = false ∧ (s.tch 0).obstructed = []) ∧
    ((wQuiet 0).tch 0).quietScans < 7 ∧ 7 ≤ ((wQuiet 7).tch 0).quietScans := by decide +kernel

/-! The capabilities lie where the implementation has them (log entry 6): an access of each of their words exists. -/

/-- The offset of a word of configuration space. -/
def capOff (word : Nat) : BitVec 12 := BitVec.ofNat 12 (4 * word)

theorem capOff_word {word : Nat} (h : word < 1024) : (capOff word).toNat / 4 = word := by
  unfold capOff
  rw [BitVec.toNat_ofNat]
  omega

def wHost : State := st [(Reg.GP_STATUS_LINK_UP 0, 1), (Reg.GP_CTRL_RELEASE 0, 1), (Reg.GP_CTRL_TOTAL_VFS 0, 0)]
def wHostOver : State := wHost.setFunc 0 { State.reset.func 0 with numVfs := 3 }

theorem witness_ConfigRequestsAreAnswered_words :
    (∀ s ∈ [wHost, wHostOver], s.bit (Reg.GP_STATUS_LINK_UP 0) = true ∧ s.bit (Reg.GP_CTRL_RELEASE 0) = true ∧ (s.func 0).pba = 0) ∧
    (wHost.func 0).numVfs ≤ wHost.get (Reg.GP_CTRL_TOTAL_VFS 0) ∧ wHostOver.get (Reg.GP_CTRL_TOTAL_VFS 0) < (wHostOver.func 0).numVfs ∧
    getBits (0 : Word) 0 16 ≤ wHost.get (Reg.GP_CTRL_TOTAL_VFS 0) ∧ wHost.get (Reg.GP_CTRL_TOTAL_VFS 0) < getBits (5 : Word) 0 16 ∧
    (∀ i < 3, (capOff (Config.msixWord + i)).toNat / 4 = Config.msixWord + i) ∧
    (∀ i < 15, (capOff (Config.sriovWord + i)).toNat / 4 = Config.sriovWord + i) ∧
    (capOff (Config.aerWord + 1)).toNat / 4 = Config.aerWord + 1 ∧
    (capOff 1).toNat / 4 < 4 ∧ (capOff 1).toNat / 4 < Config.msixWord ∧ (capOff 1).toNat / 4 < Config.sriovWord ∧
    (capOff 1).toNat / 4 ≠ Config.aerWord + 1 := by
  have h := config_words_apart
  have h1 := capOff_word (word := 1) (by omega)
  refine ⟨by decide +kernel, by decide +kernel, by decide +kernel, by decide +kernel, by decide +kernel,
    fun i hi => capOff_word (by omega), fun i hi => capOff_word (by omega), capOff_word (by omega), ?_, ?_, ?_, ?_⟩ <;> omega

/-! States that meet the premises of the statements, one theorem per statement. -/

def wStepTakesTheFrontCommand1 : State := { st [] with pending := [] }

set_option synthInstance.maxHeartbeats 400000 in
set_option synthInstance.maxSize 4000 in
theorem witness_StepTakesTheFrontCommand :
  wStepTakesTheFrontCommand1.pending = [] := by
  try unfold State.Admits
  try unfold State.SourceFree
  try unfold State.LogRoom
  decide +kernel

def wDrumWritesTakeEffectOnlyWhenStopped1 : State := st [(Reg.SCREEN_STATUS_RUNNING (nat_lit 0), 0),
  (Reg.SCREEN_STATUS_RUNNING (nat_lit 1), 0), (Reg.TOUCH_CTRL_EN (nat_lit 0), 0), (Reg.TOUCH_CTRL_EN (nat_lit 1), 0),
  (Reg.AUD_STATUS_RUNNING, 0), (Reg.TDM_STATUS_RUNNING 0, 0), (Reg.TDM_STATUS_RUNNING 1, 0)]
def wDrumWritesTakeEffectOnlyWhenStopped2 : State := st [(Reg.SCREEN_STATUS_RUNNING (nat_lit 0), 0),
  (Reg.SCREEN_STATUS_RUNNING (nat_lit 1), 0), (Reg.TOUCH_CTRL_EN (nat_lit 0), 0), (Reg.TOUCH_CTRL_EN (nat_lit 1), 0),
  (Reg.AUD_STATUS_RUNNING, 0), (Reg.TDM_STATUS_RUNNING 0, 0), (Reg.TDM_STATUS_RUNNING 1, 0)]
def wDrumWritesTakeEffectOnlyWhenStopped3 : State := st [(Reg.SCREEN_STATUS_RUNNING (nat_lit 0), 1)]

set_option synthInstance.maxHeartbeats 400000 in
set_option synthInstance.maxSize 4000 in
theorem witness_DrumWritesTakeEffectOnlyWhenStopped :
  wDrumWritesTakeEffectOnlyWhenStopped1.Admits World.secure 1 0 false ∧ wDrumWritesTakeEffectOnlyWhenStopped1.drumUsersRun
    = false ∧ divSettingOk (wDrumWritesTakeEffectOnlyWhenStopped1.get Reg.DRUM_DIV_INT_INT) (getBits (0 : BitVec 32) 0 16) (getBits (0 : BitVec 32) 16 16)
    = false ∧ wDrumWritesTakeEffectOnlyWhenStopped1.SourceFree 122 ∧
  wDrumWritesTakeEffectOnlyWhenStopped2.Admits World.secure 1 0 false ∧ wDrumWritesTakeEffectOnlyWhenStopped2.drumUsersRun
    = false ∧ divSettingOk (wDrumWritesTakeEffectOnlyWhenStopped2.get Reg.DRUM_DIV_INT_INT) (getBits (65536 : Word) 0 16) (getBits (65536 : Word) 16 16)
    = true ∧
  wDrumWritesTakeEffectOnlyWhenStopped3.Admits World.secure 1 0 false ∧ wDrumWritesTakeEffectOnlyWhenStopped3.drumUsersRun
    = true ∧ wDrumWritesTakeEffectOnlyWhenStopped3.SourceFree 122 := by
  try unfold State.Admits
  try unfold State.SourceFree
  try unfold State.LogRoom
  decide +kernel

def wBeatCountsUpAndFollowsDrumIn1 : State := { st [(Reg.DRUM_STATUS_ACTIVE_SOURCE, 0)] with aud.startDue := true, drum.int := 250001 }
def wBeatCountsUpAndFollowsDrumIn2 : State := { st [(Reg.DRUM_STATUS_ACTIVE_SOURCE, 0)] with aud.startDue := true, drum.int := 229166 }
def wBeatCountsUpAndFollowsDrumIn3 : State := (st [(Reg.DRUM_STATUS_ACTIVE_SOURCE, 0), (Reg.TSL_STATUS_STATE 0, 3)]).setTch 0 { State.reset.tch 0 with reportDue := true }
def wBeatCountsUpAndFollowsDrumIn4 : State := st [(Reg.DRUM_STATUS_ACTIVE_SOURCE, 0), (Reg.TSL_STATUS_STATE 0, 3),
  (Reg.TOUCH_STATUS_PHASE 0, 2)]
def wBeatCountsUpAndFollowsDrumIn5 : State := { st [(Reg.DRUM_STATUS_ACTIVE_SOURCE, 0)] with aud.startDue := false }
def wBeatCountsUpAndFollowsDrumIn6 : State := { st [(Reg.DRUM_STATUS_ACTIVE_SOURCE, 1)] with aud.startDue := false, drum.edgeDue := true }
def wBeatCountsUpAndFollowsDrumIn7 : State := st [(Reg.DRUM_STATUS_ACTIVE_SOURCE, 1)]
def wBeatCountsUpAndFollowsDrumIn8 : State := st [(Reg.DRUM_STATUS_ACTIVE_SOURCE, 1)]
def wBeatCountsUpAndFollowsDrumIn9 : State := st [(Reg.DRUM_STATUS_ACTIVE_SOURCE, 0)]
def wBeatCountsUpAndFollowsDrumIn10 : State := { st [(Reg.DRUM_STATUS_ACTIVE_SOURCE, 1)] with drum.edgeDue := false, aud.startDue := false, drum.missed := 3 }
def wBeatCountsUpAndFollowsDrumIn11 : State := st []

set_option synthInstance.maxHeartbeats 400000 in
set_option synthInstance.maxSize 4000 in
theorem witness_BeatCountsUpAndFollowsDrumIn :
  (!wBeatCountsUpAndFollowsDrumIn1.bit Reg.DRUM_STATUS_ACTIVE_SOURCE || wBeatCountsUpAndFollowsDrumIn1.drum.edgeDue)
    = true ∧ wBeatCountsUpAndFollowsDrumIn1.aud.startDue = true ∧ wBeatCountsUpAndFollowsDrumIn1.drum.audioRate
    = false ∧
  (!wBeatCountsUpAndFollowsDrumIn2.bit Reg.DRUM_STATUS_ACTIVE_SOURCE || wBeatCountsUpAndFollowsDrumIn2.drum.edgeDue)
    = true ∧ wBeatCountsUpAndFollowsDrumIn2.aud.startDue = true ∧ wBeatCountsUpAndFollowsDrumIn2.drum.audioRate
    = true ∧
  (!wBeatCountsUpAndFollowsDrumIn3.bit Reg.DRUM_STATUS_ACTIVE_SOURCE || wBeatCountsUpAndFollowsDrumIn3.drum.edgeDue)
    = true ∧ wBeatCountsUpAndFollowsDrumIn3.get (Reg.TSL_STATUS_STATE 0) = 3 ∧ (wBeatCountsUpAndFollowsDrumIn3.tch 0).reportDue
    = true ∧ (wBeatCountsUpAndFollowsDrumIn3.get (Reg.TOUCH_STATUS_PHASE 0) < 2 ∨ 5 < wBeatCountsUpAndFollowsDrumIn3.get
    (Reg.TOUCH_STATUS_PHASE 0)) ∧
  (!wBeatCountsUpAndFollowsDrumIn4.bit Reg.DRUM_STATUS_ACTIVE_SOURCE || wBeatCountsUpAndFollowsDrumIn4.drum.edgeDue)
    = true ∧ wBeatCountsUpAndFollowsDrumIn4.get (Reg.TSL_STATUS_STATE 0) = 3 ∧ 2 ≤ wBeatCountsUpAndFollowsDrumIn4.get
    (Reg.TOUCH_STATUS_PHASE 0) ∧ wBeatCountsUpAndFollowsDrumIn4.get (Reg.TOUCH_STATUS_PHASE 0) ≤ 5 ∧
  wBeatCountsUpAndFollowsDrumIn5.aud.startDue = false ∧ (∀ (m : Nat), m < 8 → wBeatCountsUpAndFollowsDrumIn5.linkState m
    ≠ 3) ∧ wBeatCountsUpAndFollowsDrumIn5.bit Reg.DRUM_STATUS_ACTIVE_SOURCE = false ∧
  wBeatCountsUpAndFollowsDrumIn6.aud.startDue = false ∧ (∀ (m : Nat), m < 8 → wBeatCountsUpAndFollowsDrumIn6.linkState m
    ≠ 3) ∧ wBeatCountsUpAndFollowsDrumIn6.bit Reg.DRUM_STATUS_ACTIVE_SOURCE = true ∧ wBeatCountsUpAndFollowsDrumIn6.drum.edgeDue
    = true ∧
  wBeatCountsUpAndFollowsDrumIn7.aud.startDue = false ∧ (∀ (m : Nat), m < 8 → wBeatCountsUpAndFollowsDrumIn7.linkState m
    ≠ 3) ∧ wBeatCountsUpAndFollowsDrumIn7.bit Reg.DRUM_STATUS_ACTIVE_SOURCE = true ∧ wBeatCountsUpAndFollowsDrumIn7.drum.edgeDue
    = false ∧ (∀ (n : Nat), n < 8 → wBeatCountsUpAndFollowsDrumIn7.linkState n ≠ 3) ∧ wBeatCountsUpAndFollowsDrumIn7.drum.missed
    < 3 ∧
  wBeatCountsUpAndFollowsDrumIn8.bit Reg.DRUM_STATUS_ACTIVE_SOURCE = true ∧ 999 * (40 * (wBeatCountsUpAndFollowsDrumIn8.drum.int * wBeatCountsUpAndFollowsDrumIn8.drum.den + wBeatCountsUpAndFollowsDrumIn8.drum.num))
    ≤ 1000 * wBeatCountsUpAndFollowsDrumIn8.drum.den * 4166680 ∧ 1000 * wBeatCountsUpAndFollowsDrumIn8.drum.den * 4166680
    ≤ 1001 * (40 * (wBeatCountsUpAndFollowsDrumIn8.drum.int * wBeatCountsUpAndFollowsDrumIn8.drum.den + wBeatCountsUpAndFollowsDrumIn8.drum.num)) ∧
  (¬(wBeatCountsUpAndFollowsDrumIn9.bit Reg.DRUM_STATUS_ACTIVE_SOURCE = true ∧ 999 * (40 * (wBeatCountsUpAndFollowsDrumIn9.drum.int * wBeatCountsUpAndFollowsDrumIn9.drum.den + wBeatCountsUpAndFollowsDrumIn9.drum.num))
    ≤ 1000 * wBeatCountsUpAndFollowsDrumIn9.drum.den * 0 ∧ 1000 * wBeatCountsUpAndFollowsDrumIn9.drum.den * 0
    ≤ 1001 * (40 * (wBeatCountsUpAndFollowsDrumIn9.drum.int * wBeatCountsUpAndFollowsDrumIn9.drum.den + wBeatCountsUpAndFollowsDrumIn9.drum.num)))) ∧
  wBeatCountsUpAndFollowsDrumIn10.bit Reg.DRUM_STATUS_ACTIVE_SOURCE = true ∧ wBeatCountsUpAndFollowsDrumIn10.drum.edgeDue
    = false ∧ wBeatCountsUpAndFollowsDrumIn10.aud.startDue = false ∧ (∀ (n : Nat), n < 8 → wBeatCountsUpAndFollowsDrumIn10.linkState n
    ≠ 3) ∧ 3 ≤ wBeatCountsUpAndFollowsDrumIn10.drum.missed ∧ wBeatCountsUpAndFollowsDrumIn10.SourceFree 122 ∧
  wBeatCountsUpAndFollowsDrumIn11.Admits World.secure 0 0 false := by
  try unfold State.Admits
  try unfold State.SourceFree
  try unfold State.LogRoom
  decide +kernel

def wFabricWriteStoresOrIsRefused1 : State := st [(Reg.MSIDE_STATUS_STATE 0, 3), (Reg.MSIDE_STATUS_STATE 1, 3),
  (Reg.MSIDE_MIRROR_SIZE_VALID 0 0, 1), (Reg.MSIDE_MIRROR_SIZE_GRANULES 0 0, 1)]
def wFabricWriteStoresOrIsRefused2 : State := st []
def wFabricWriteStoresOrIsRefused3 : State := st []
def wFabricWriteStoresOrIsRefused4 : State := st []
def wFabricWriteStoresOrIsRefused5 : State := st [(Reg.MSIDE_STATUS_STATE 1, 4)]
def wFabricWriteStoresOrIsRefused6 : State := st []
def wFabricWriteStoresOrIsRefused7 : State := st [(Reg.MSIDE_MIRROR_SIZE_VALID 0 0, 1),
  (Reg.MSIDE_MIRROR_SIZE_GRANULES 0 0, 1)]
def wFabricWriteStoresOrIsRefused8 : State := st [(Reg.SYS_SRAM_SPLIT_UNITS, 1)]
def wFabricWriteStoresOrIsRefused9 : State := st [(Reg.SYS_SRAM_SPLIT_UNITS, 1), (Reg.MC_STATUS_WORLD 0, 0)]

set_option synthInstance.maxHeartbeats 400000 in
set_option synthInstance.maxSize 4000 in
theorem witness_FabricWriteStoresOrIsRefused :
  wFabricWriteStoresOrIsRefused1.mayAccess (wFabricWriteStoresOrIsRefused1.carrier { kind := MasterKind.core, id := (0 : Fin 64), session := (0 : Fin 256), world := World.secure : Master }) true
    = true ∧ ((wFabricWriteStoresOrIsRefused1.carrier { kind := MasterKind.core, id := (0 : Fin 64), session := (0 : Fin 256), world := World.secure : Master }).world
    = World.normal → wFabricWriteStoresOrIsRefused1.sramSplit ≤ 0) ∧ 0 + [(1 : Byte), (2 : Byte)].length ≤ wFabricWriteStoresOrIsRefused1.usable 0
    ∧ 0 + [(1 : Byte), (2 : Byte)].length ≤ wFabricWriteStoresOrIsRefused1.usable 1 ∧ wFabricWriteStoresOrIsRefused1.mirrored 0 [(1 : Byte), (2 : Byte)].length
    = true ∧ ((wFabricWriteStoresOrIsRefused1.carrier { kind := MasterKind.core, id := (0 : Fin 64), session := (0 : Fin 256), world := World.secure : Master }).world
    = World.normal → (granulesOf 0 [(1 : Byte), (2 : Byte)].length).any wFabricWriteStoresOrIsRefused1.granuleSecure
    = false) ∧
  ({ kind := MasterKind.fabric, id := (0 : Fin 64), session := (0 : Fin 256), world := World.secure : Master }.kind
    = MasterKind.guest ∨ { kind := MasterKind.fabric, id := (0 : Fin 64), session := (0 : Fin 256), world := World.secure : Master }.kind
    = MasterKind.fabric ∧ (0 ≤ 9 ∨ 12 ≤ 0 ∧ 0 ≤ 23)) ∧
  wFabricWriteStoresOrIsRefused3.mayAccess (wFabricWriteStoresOrIsRefused3.carrier { kind := MasterKind.fabric, id := (10 : Fin 64), session := (0 : Fin 256), world := World.normal : Master }) true
    = true ∧ 0 + [(1 : Byte)].length ≤ wFabricWriteStoresOrIsRefused3.usable 0 ∧ wFabricWriteStoresOrIsRefused3.touchesMirrored 0 [(1 : Byte)].length
    = false ∧ wFabricWriteStoresOrIsRefused3.sideDown 0 = false ∧ ((wFabricWriteStoresOrIsRefused3.carrier { kind := MasterKind.fabric, id := (10 : Fin 64), session := (0 : Fin 256), world := World.normal : Master }).world
    = World.normal → (granulesOf 0 [(1 : Byte)].length).any wFabricWriteStoresOrIsRefused3.granuleSecure = false) ∧
  wFabricWriteStoresOrIsRefused4.mayAccess (wFabricWriteStoresOrIsRefused4.carrier { kind := MasterKind.debug, id := (0 : Fin 64), session := (0 : Fin 256), world := World.secure : Master }) true
    = false ∧
  wFabricWriteStoresOrIsRefused5.mayAccess (wFabricWriteStoresOrIsRefused5.carrier { kind := MasterKind.fabric, id := (0 : Fin 64), session := (0 : Fin 256), world := World.secure : Master }) true
    = true ∧ 1 + [(0 : BitVec 8)].length ≤ wFabricWriteStoresOrIsRefused5.usable 1 ∧ wFabricWriteStoresOrIsRefused5.touchesMirrored 1 [(0 : BitVec 8)].length
    = false ∧ wFabricWriteStoresOrIsRefused5.sideDown 1 = true ∧ ((wFabricWriteStoresOrIsRefused5.carrier { kind := MasterKind.fabric, id := (0 : Fin 64), session := (0 : Fin 256), world := World.secure : Master }).world
    = World.normal → (granulesOf 1 [(0 : BitVec 8)].length).any wFabricWriteStoresOrIsRefused5.granuleSecure = false) ∧
  wFabricWriteStoresOrIsRefused6.mayAccess (wFabricWriteStoresOrIsRefused6.carrier { kind := MasterKind.fabric, id := (0 : Fin 64), session := (0 : Fin 256), world := World.secure : Master }) true
    = true ∧ wFabricWriteStoresOrIsRefused6.mayAccess (wFabricWriteStoresOrIsRefused6.carrier { kind := MasterKind.fabric, id := (0 : Fin 64), session := (0 : Fin 256), world := World.secure : Master }) false
    = true ∧
  wFabricWriteStoresOrIsRefused7.mayAccess (wFabricWriteStoresOrIsRefused7.carrier { kind := MasterKind.core, id := (0 : Fin 64), session := (0 : Fin 256), world := World.secure : Master }) true
    = true ∧ wFabricWriteStoresOrIsRefused7.mayAccess (wFabricWriteStoresOrIsRefused7.carrier { kind := MasterKind.core, id := (0 : Fin 64), session := (0 : Fin 256), world := World.secure : Master }) false
    = true ∧ 0 + [(1 : Byte), (2 : Byte)].length ≤ wFabricWriteStoresOrIsRefused7.usable 0 ∧ wFabricWriteStoresOrIsRefused7.touchesMirrored 0 [(1 : Byte), (2 : Byte)].length
    = true ∧
  wFabricWriteStoresOrIsRefused8.mayAccess (wFabricWriteStoresOrIsRefused8.carrier { kind := MasterKind.fabric, id := (0 : Fin 64), session := (0 : Fin 256), world := World.normal : Master }) true
    = true ∧ wFabricWriteStoresOrIsRefused8.mayAccess (wFabricWriteStoresOrIsRefused8.carrier { kind := MasterKind.fabric, id := (0 : Fin 64), session := (0 : Fin 256), world := World.normal : Master }) false
    = true ∧ (wFabricWriteStoresOrIsRefused8.carrier { kind := MasterKind.fabric, id := (0 : Fin 64), session := (0 : Fin 256), world := World.normal : Master }).world
    = World.normal ∧ 0 < wFabricWriteStoresOrIsRefused8.sramSplit ∧
  wFabricWriteStoresOrIsRefused9.mayAccess (wFabricWriteStoresOrIsRefused9.carrier { kind := MasterKind.core, id := (0 : Fin 64), session := (0 : Fin 256), world := World.normal : Master }) true
    = true ∧ wFabricWriteStoresOrIsRefused9.mayAccess (wFabricWriteStoresOrIsRefused9.carrier { kind := MasterKind.core, id := (0 : Fin 64), session := (0 : Fin 256), world := World.normal : Master }) false
    = true ∧ (wFabricWriteStoresOrIsRefused9.carrier { kind := MasterKind.core, id := (0 : Fin 64), session := (0 : Fin 256), world := World.normal : Master }).world
    = World.normal ∧ 0 < wFabricWriteStoresOrIsRefused9.sramSplit := by
  try unfold State.Admits
  try unfold State.SourceFree
  try unfold State.LogRoom
  decide +kernel

def wFabricReadReturnsTheBytes1 : State := st [(Reg.MSIDE_STATUS_STATE 0, 3)]
def wFabricReadReturnsTheBytes2 : State := st [(Reg.DBG_EN_SI, 1), (Reg.DBG_EN_NI, 1), (Reg.DBG_EN_SNI, 1),
  (Reg.DBG_EN_NNI, 1)]
def wFabricReadReturnsTheBytes3 : State := st [(Reg.MSIDE_STATUS_STATE 0, 4), (Reg.MSIDE_STATUS_STATE 1, 4),
  (Reg.MSIDE_MIRROR_SIZE_VALID 0 0, 1), (Reg.MSIDE_MIRROR_SIZE_GRANULES 0 0, 1)]
def wFabricReadReturnsTheBytes4 : State := st [(Reg.MSIDE_STATUS_STATE 0, 3), (Reg.MSIDE_STATUS_STATE 1, 3),
  (Reg.MSIDE_MIRROR_SIZE_VALID 0 0, 1), (Reg.MSIDE_MIRROR_SIZE_GRANULES 0 0, 1)]

set_option synthInstance.maxHeartbeats 400000 in
set_option synthInstance.maxSize 4000 in
theorem witness_FabricReadReturnsTheBytes :
  wFabricReadReturnsTheBytes1.mayAccess (wFabricReadReturnsTheBytes1.carrier { kind := MasterKind.core, id := (0 : Fin 64), session := (0 : Fin 256), world := World.secure : Master }) false
    = true ∧ ((wFabricReadReturnsTheBytes1.carrier { kind := MasterKind.core, id := (0 : Fin 64), session := (0 : Fin 256), world := World.secure : Master }).world
    = World.normal → wFabricReadReturnsTheBytes1.sramSplit ≤ 0) ∧ ((wFabricReadReturnsTheBytes1.carrier { kind := MasterKind.core, id := (0 : Fin 64), session := (0 : Fin 256), world := World.secure : Master }).world
    = World.normal → (granulesOf 0 64).any wFabricReadReturnsTheBytes1.granuleSecure = false) ∧ 0 + 64 ≤ wFabricReadReturnsTheBytes1.usable 0
    ∧ wFabricReadReturnsTheBytes1.sideDown 0 = false ∧ wFabricReadReturnsTheBytes1.sideStarting 0 = false ∧
  wFabricReadReturnsTheBytes2.mayAccess (wFabricReadReturnsTheBytes2.carrier { kind := MasterKind.debug, id := (0 : Fin 64), session := (0 : Fin 256), world := World.secure : Master }) false
    = true ∧ ((wFabricReadReturnsTheBytes2.carrier { kind := MasterKind.debug, id := (0 : Fin 64), session := (0 : Fin 256), world := World.secure : Master }).world
    = World.normal → wFabricReadReturnsTheBytes2.sramSplit ≤ 0) ∧
  wFabricReadReturnsTheBytes3.mayAccess (wFabricReadReturnsTheBytes3.carrier { kind := MasterKind.core, id := (0 : Fin 64), session := (0 : Fin 256), world := World.secure : Master }) false
    = true ∧ ((wFabricReadReturnsTheBytes3.carrier { kind := MasterKind.core, id := (0 : Fin 64), session := (0 : Fin 256), world := World.secure : Master }).world
    = World.normal → (granulesOf 0 64).any wFabricReadReturnsTheBytes3.granuleSecure = false) ∧ 0 + 64 ≤ wFabricReadReturnsTheBytes3.usable 0
    ∧ wFabricReadReturnsTheBytes3.sideDown 0 = true ∧ 0 + 64 ≤ wFabricReadReturnsTheBytes3.usable 1 ∧ wFabricReadReturnsTheBytes3.mirrored 0 64
    = true ∧ wFabricReadReturnsTheBytes3.sideDown 1 = true ∧
  wFabricReadReturnsTheBytes4.mayAccess (wFabricReadReturnsTheBytes4.carrier { kind := MasterKind.core, id := (0 : Fin 64), session := (0 : Fin 256), world := World.secure : Master }) false
    = true ∧ ((wFabricReadReturnsTheBytes4.carrier { kind := MasterKind.core, id := (0 : Fin 64), session := (0 : Fin 256), world := World.secure : Master }).world
    = World.normal → (granulesOf 0 64).any wFabricReadReturnsTheBytes4.granuleSecure = false) ∧ 0 + 64 ≤ wFabricReadReturnsTheBytes4.usable 0
    ∧ 0 + 64 ≤ wFabricReadReturnsTheBytes4.usable 1 ∧ wFabricReadReturnsTheBytes4.mirrored 0 64 = true ∧ wFabricReadReturnsTheBytes4.sideDown (if wFabricReadReturnsTheBytes4.sideDown ((0 / 4096 : Nat) % 2)
    = true then 1 - (0 / 4096 : Nat) % 2 else (0 / 4096 : Nat) % 2) = false ∧ wFabricReadReturnsTheBytes4.sideStarting (if wFabricReadReturnsTheBytes4.sideDown ((0 / 4096 : Nat) % 2)
    = true then 1 - (0 / 4096 : Nat) % 2 else (0 / 4096 : Nat) % 2) = false := by
  try unfold State.Admits
  try unfold State.SourceFree
  try unfold State.LogRoom
  decide +kernel

def wRegisterAccessFollowsAccessTypes1 : State := st []
def wRegisterAccessFollowsAccessTypes2 : State := st []
def wRegisterAccessFollowsAccessTypes3 : State := st []
def wRegisterAccessFollowsAccessTypes4 : State := st []
def wRegisterAccessFollowsAccessTypes5 : State := st []

set_option synthInstance.maxHeartbeats 400000 in
set_option synthInstance.maxSize 4000 in
theorem witness_RegisterAccessFollowsAccessTypes :
  wRegisterAccessFollowsAccessTypes1.mayAccess (wRegisterAccessFollowsAccessTypes1.carrier { kind := MasterKind.core, id := (0 : Fin 64), session := (0 : Fin 256), world := World.secure : Master }) false
    = true ∧ ((rowAt (reg 3 0 65280)).isNone = true ∨ (decide ((wRegisterAccessFollowsAccessTypes1.carrier { kind := MasterKind.core, id := (0 : Fin 64), session := (0 : Fin 256), world := World.secure : Master }).world
    = World.normal) && wRegisterAccessFollowsAccessTypes1.regDenied 3 0 65280) = true ∨ wRegisterAccessFollowsAccessTypes1.isGated 3 0
    = true) ∧ (decide ((wRegisterAccessFollowsAccessTypes1.carrier { kind := MasterKind.core, id := (0 : Fin 64), session := (0 : Fin 256), world := World.secure : Master }).world
    = World.normal) && wRegisterAccessFollowsAccessTypes1.regDenied 3 0 65280) = false ∧ wRegisterAccessFollowsAccessTypes1.isGated 3 0
    = false ∧
  wRegisterAccessFollowsAccessTypes2.mayAccess (wRegisterAccessFollowsAccessTypes2.carrier { kind := MasterKind.core, id := (0 : Fin 64), session := (0 : Fin 256), world := World.secure : Master }) true
    = true ∧ wRegisterAccessFollowsAccessTypes2.mayAccess (wRegisterAccessFollowsAccessTypes2.carrier { kind := MasterKind.core, id := (0 : Fin 64), session := (0 : Fin 256), world := World.secure : Master }) false
    = true ∧
  wRegisterAccessFollowsAccessTypes3.mayAccess (wRegisterAccessFollowsAccessTypes3.carrier { kind := MasterKind.core, id := (0 : Fin 64), session := (0 : Fin 256), world := World.secure : Master }) true
    = true ∧
  wRegisterAccessFollowsAccessTypes4.mayAccess (wRegisterAccessFollowsAccessTypes4.carrier { kind := MasterKind.core, id := (0 : Fin 64), session := (0 : Fin 256), world := World.secure : Master }) true
    = true ∧ wRegisterAccessFollowsAccessTypes4.mayAccess (wRegisterAccessFollowsAccessTypes4.carrier { kind := MasterKind.core, id := (0 : Fin 64), session := (0 : Fin 256), world := World.secure : Master }) false
    = true ∧
  29 < 256 ∧ 0 < 256 ∧ 0 < 65536 := by
  try unfold State.Admits
  try unfold State.SourceFree
  try unfold State.LogRoom
  decide +kernel

def wParityErrorFreezesASide1 : State := st [(Reg.MSIDE_STATUS_STATE 0, 1)]
def wParityErrorFreezesASide2 : State := st [(Reg.MSIDE_STATUS_STATE 0, 0)]
def wParityErrorFreezesASide3 : State := st [(Reg.MSIDE_CFG_LOCK 0, 1)]
def wParityErrorFreezesASide4 : State := st [(Reg.MSIDE_CFG_LOCK 0, 0), (Reg.MSIDE_MIRROR_SIZE_VALID 0 0, 0)]
def wParityErrorFreezesASide5 : State := st [(Reg.MSIDE_CFG_LOCK 0, 0)]
def wParityErrorFreezesASide6 : State := st [(Reg.MSIDE_MIRROR_SIZE_VALID 0 0, 1),
  (Reg.MSIDE_MIRROR_SIZE_GRANULES 0 0, 1)]

set_option synthInstance.maxHeartbeats 400000 in
set_option synthInstance.maxSize 4000 in
theorem witness_ParityErrorFreezesASide :
  (wParityErrorFreezesASide1.sideMode 0 = 1 ∨ wParityErrorFreezesASide1.sideMode 0 = 2 ∨ wParityErrorFreezesASide1.sideMode 0
    = 3 ∨ wParityErrorFreezesASide1.sideMode 0 = 5) ∧
  (wParityErrorFreezesASide2.sideMode 0 = 0 ∨ wParityErrorFreezesASide2.sideMode 0 = 4) ∧
  wParityErrorFreezesASide3.Admits World.secure 11 0 false ∧ wParityErrorFreezesASide3.bit (Reg.MSIDE_CFG_LOCK 0)
    = true ∧
  wParityErrorFreezesASide4.Admits World.secure 11 0 false ∧ wParityErrorFreezesASide4.bit (Reg.MSIDE_CFG_LOCK 0)
    = false ∧ (wParityErrorFreezesASide4.bit (Reg.MSIDE_MIRROR_SIZE_VALID 0 0) = false ∨ wParityErrorFreezesASide4.mirrorOk 0 (getBits (0 : BitVec 32) 0 14) (wParityErrorFreezesASide4.get
    (Reg.MSIDE_MIRROR_SIZE_GRANULES 0 0)) = true) ∧ (getBits (0 : BitVec 32) 31 1 = 0 ∨ wParityErrorFreezesASide4.mirrorOk 0 (wParityErrorFreezesASide4.get
    (Reg.MSIDE_MIRROR_BASE_GRANULE 0 0)) (getBits (0 : BitVec 32) 0 14) = true) ∧
  wParityErrorFreezesASide5.Admits World.secure 11 0 false ∧ wParityErrorFreezesASide5.bit (Reg.MSIDE_CFG_LOCK 0)
    = false ∧ wParityErrorFreezesASide5.mirrorOk 0 (wParityErrorFreezesASide5.get
    (Reg.MSIDE_MIRROR_BASE_GRANULE 0 0)) (getBits (2147483648 : Word) 0 14) = false ∧ wParityErrorFreezesASide5.SourceFree 53 ∧
  wParityErrorFreezesASide6.Admits World.secure 11 0 false ∧ wParityErrorFreezesASide6.bit (Reg.MSIDE_CFG_LOCK 0)
    = false ∧ wParityErrorFreezesASide6.bit (Reg.MSIDE_MIRROR_SIZE_VALID 0 0) = true ∧ wParityErrorFreezesASide6.mirrorOk 0 (getBits (16383 : Word) 0 14) (wParityErrorFreezesASide6.get
    (Reg.MSIDE_MIRROR_SIZE_GRANULES 0 0)) = false ∧ wParityErrorFreezesASide6.SourceFree 53 := by
  try unfold State.Admits
  try unfold State.SourceFree
  try unfold State.LogRoom
  decide +kernel

def wSideTrainingEndsAsItsEyesSay1 : State := st [(Reg.MSIDE_STATUS_STATE 0, 1)]
def wSideTrainingEndsAsItsEyesSay2 : State := st [(Reg.MSIDE_STATUS_STATE 0, 2)]
def wSideTrainingEndsAsItsEyesSay3 : State := (st [(Reg.MSIDE_STATUS_STATE 0, 1)]).setReg (Reg.MSIDE_DIRTY 0 0) 1 |>.setSide 0 { State.reset.side 0 with releasing := true }

set_option synthInstance.maxHeartbeats 400000 in
set_option synthInstance.maxSize 4000 in
theorem witness_SideTrainingEndsAsItsEyesSay :
  wSideTrainingEndsAsItsEyesSay1.sideMode 0 = 1 ∧ (wSideTrainingEndsAsItsEyesSay1.side 0).releasing = false ∧ (∀ (k : Nat), k
    < 4 → wSideTrainingEndsAsItsEyesSay1.bit (Reg.MSIDE_PPR_VALID 0 k) = false) ∧
  wSideTrainingEndsAsItsEyesSay2.sideMode 0 = 2 ∧ (wSideTrainingEndsAsItsEyesSay2.boot.romStage = 3 → wSideTrainingEndsAsItsEyesSay2.coreRuns 0
    = true → wSideTrainingEndsAsItsEyesSay2.sideSettled (1 - 0) = false) ∧
  wSideTrainingEndsAsItsEyesSay3.sideMode 0 = 1 ∧ (wSideTrainingEndsAsItsEyesSay3.side 0).releasing = true ∧ (wSideTrainingEndsAsItsEyesSay3.side 0).full
    = false ∧ List.filter (fun g => wSideTrainingEndsAsItsEyesSay3.isDirty 0 g) (List.range (wSideTrainingEndsAsItsEyesSay3.usableGranules 0))
    ≠ [] ∧ wSideTrainingEndsAsItsEyesSay3.SourceFree (53 + 0) := by
  try unfold State.Admits
  try unfold State.SourceFree
  try unfold State.LogRoom
  decide +kernel

def wChannelKeepsItsRefreshAndDrift1 : State := st [(Reg.MSIDE_STATUS_STATE 0, 3), (Reg.MSIDE_TRACK_RD_OFFSET 0 0, 15)]
def wChannelKeepsItsRefreshAndDrift2 : State := (st [(Reg.MSIDE_STATUS_STATE 0, 2)]).setChan 0 0 { State.reset.chan 0 0 with debt := 8, recovery := false }
def wChannelKeepsItsRefreshAndDrift3 : State := st [(Reg.MSIDE_STATUS_STATE 0, 0)]
def wChannelKeepsItsRefreshAndDrift4 : State := (st []).setChan 0 0 { State.reset.chan 0 0 with mr4Pending := true }
def wChannelKeepsItsRefreshAndDrift5 : State := (st []).setChan 0 0 { State.reset.chan 0 0 with mr4Pending := true, twoX := true }
def wChannelKeepsItsRefreshAndDrift6 : State := (st []).setChan 0 0 { State.reset.chan 0 0 with mr4Pending := true, twoX := true, cool := 15 }

set_option synthInstance.maxHeartbeats 400000 in
set_option synthInstance.maxSize 4000 in
theorem witness_ChannelKeepsItsRefreshAndDrift :
  (wChannelKeepsItsRefreshAndDrift1.sideMode 0 = 2 ∨ wChannelKeepsItsRefreshAndDrift1.sideMode 0 = 3 ∨ wChannelKeepsItsRefreshAndDrift1.sideMode 0
    = 5) ∧ ((wChannelKeepsItsRefreshAndDrift1.chan 0 0).debt < 8 ∨ (wChannelKeepsItsRefreshAndDrift1.chan 0 0).recovery
    = true) ∧ wChannelKeepsItsRefreshAndDrift1.sideMode 0 ≠ 0 ∧ 16 < (trackStep (sext 8 (wChannelKeepsItsRefreshAndDrift1.get
    (Reg.MSIDE_TRACK_RD_OFFSET 0 (2 * 0)))) (BitVec.toInt (100 : BitVec 8))).natAbs ∧ (wChannelKeepsItsRefreshAndDrift1.side 0).driftNoted
    = false ∧
  (wChannelKeepsItsRefreshAndDrift2.sideMode 0 = 2 ∨ wChannelKeepsItsRefreshAndDrift2.sideMode 0 = 3 ∨ wChannelKeepsItsRefreshAndDrift2.sideMode 0
    = 5) ∧ 8 ≤ (wChannelKeepsItsRefreshAndDrift2.chan 0 0).debt ∧ (wChannelKeepsItsRefreshAndDrift2.chan 0 0).recovery
    = false ∧ (∀ (x : Int), x ∈ [trackStep (sext 8 (wChannelKeepsItsRefreshAndDrift2.get
    (Reg.MSIDE_TRACK_RD_OFFSET 0 (2 * 0)))) (BitVec.toInt (0 : BitVec 8)), trackStep (sext 8 (wChannelKeepsItsRefreshAndDrift2.get
    (Reg.MSIDE_TRACK_WR_OFFSET 0 (2 * 0)))) (BitVec.toInt (0 : BitVec 8)), trackStep (sext 8 (wChannelKeepsItsRefreshAndDrift2.get
    (Reg.MSIDE_TRACK_RD_OFFSET 0 (2 * 0 + 1)))) (BitVec.toInt (0 : BitVec 8)), trackStep (sext 8 (wChannelKeepsItsRefreshAndDrift2.get
    (Reg.MSIDE_TRACK_WR_OFFSET 0 (2 * 0 + 1)))) (BitVec.toInt (0 : BitVec 8))] → x.natAbs ≤ 16) ∧
  wChannelKeepsItsRefreshAndDrift3.sideMode 0 = 0 ∧
  (wChannelKeepsItsRefreshAndDrift4.chan 0 0).mr4Pending = true ∧ (wChannelKeepsItsRefreshAndDrift4.chan 0 0).twoX
    = false ∧
  (wChannelKeepsItsRefreshAndDrift5.chan 0 0).mr4Pending = true ∧ (wChannelKeepsItsRefreshAndDrift5.chan 0 0).twoX
    = true ∧ (wChannelKeepsItsRefreshAndDrift5.chan 0 0).cool < 15 ∧
  (wChannelKeepsItsRefreshAndDrift6.chan 0 0).mr4Pending = true ∧ (wChannelKeepsItsRefreshAndDrift6.chan 0 0).twoX
    = true ∧ 15 ≤ (wChannelKeepsItsRefreshAndDrift6.chan 0 0).cool := by
  try unfold State.Admits
  try unfold State.SourceFree
  try unfold State.LogRoom
  decide +kernel

def wChannelIssuesTheRequestRulesPick1 : State := (st [(Reg.MSIDE_STATUS_STATE 0, 3)]).setChan 0 0 { State.reset.chan 0 0 with recovery := true, lastRefresh := 0 }
def wChannelIssuesTheRequestRulesPick2 : State := (st [(Reg.MSIDE_STATUS_STATE 0, 2)]).setChan 0 0 { State.reset.chan 0 0 with recovery := true, lastRefresh := 1, debt := 6 }
def wChannelIssuesTheRequestRulesPick3 : State := (st [(Reg.MSIDE_STATUS_STATE 0, 2)]).setChan 0 0 { State.reset.chan 0 0 with recovery := true, lastRefresh := 1, debt := 5 }
def wChannelIssuesTheRequestRulesPick4 : State := (st [(Reg.MSIDE_STATUS_STATE 0, 2)]).setChan 0 0 { State.reset.chan 0 0 with recovery := false, debt := 8 }
def wChannelIssuesTheRequestRulesPick5 : State := (st [(Reg.MSIDE_STATUS_STATE 0, 3)]).setChan 0 0 { State.reset.chan 0 0 with debt := 1 }
def wChannelIssuesTheRequestRulesPick6 : State := (st [(Reg.MSIDE_STATUS_STATE 0, 3)]).setChan 0 0 { State.reset.chan 0 0 with debt := 1 }
def wChannelIssuesTheRequestRulesPick7 : State := (st [(Reg.MSIDE_STATUS_STATE 0, 2)]).setChan 0 0 { State.reset.chan 0 0 with recovery := false, debt := 7, neighbours := [] }
def wChannelIssuesTheRequestRulesPick8 : State := (st [(Reg.MSIDE_STATUS_STATE 0, 3)]).setChan 0 0 { State.reset.chan 0 0 with recovery := false, debt := 7, neighbours := [] }
def wChannelIssuesTheRequestRulesPick9 : State := st [(Reg.MSIDE_STATUS_STATE 0, 0)]

set_option synthInstance.maxHeartbeats 400000 in
set_option synthInstance.maxSize 4000 in
theorem witness_ChannelIssuesTheRequestRulesPick :
  (wChannelIssuesTheRequestRulesPick1.sideMode 0 == 2 || wChannelIssuesTheRequestRulesPick1.sideMode 0 == 3 || wChannelIssuesTheRequestRulesPick1.sideMode 0
    == 5) = true ∧ (wChannelIssuesTheRequestRulesPick1.chan 0 0).recovery = true ∧ (Option.map (fun (x : Fin 16) => x.val) (some (0 : Fin 16))).getD (((wChannelIssuesTheRequestRulesPick1.chan 0 0).lastRefresh + 1) % 16)
    = (wChannelIssuesTheRequestRulesPick1.chan 0 0).lastRefresh ∧ wChannelIssuesTheRequestRulesPick1.sideMode 0
    = 3 ∧ BitVec.toNat (0 : BitVec 34) < wChannelIssuesTheRequestRulesPick1.usable 0 ∧
  (wChannelIssuesTheRequestRulesPick2.sideMode 0 == 2 || wChannelIssuesTheRequestRulesPick2.sideMode 0 == 3 || wChannelIssuesTheRequestRulesPick2.sideMode 0
    == 5) = true ∧ (wChannelIssuesTheRequestRulesPick2.chan 0 0).recovery = true ∧ (Option.map (fun (x : Fin 16) => x.val) none).getD (((wChannelIssuesTheRequestRulesPick2.chan 0 0).lastRefresh + 1) % 16)
    ≠ (wChannelIssuesTheRequestRulesPick2.chan 0 0).lastRefresh ∧ 5 < (wChannelIssuesTheRequestRulesPick2.chan 0 0).debt ∧
  (wChannelIssuesTheRequestRulesPick3.sideMode 0 == 2 || wChannelIssuesTheRequestRulesPick3.sideMode 0 == 3 || wChannelIssuesTheRequestRulesPick3.sideMode 0
    == 5) = true ∧ (wChannelIssuesTheRequestRulesPick3.chan 0 0).recovery = true ∧ (Option.map (fun (x : Fin 16) => x.val) none).getD (((wChannelIssuesTheRequestRulesPick3.chan 0 0).lastRefresh + 1) % 16)
    ≠ (wChannelIssuesTheRequestRulesPick3.chan 0 0).lastRefresh ∧ (wChannelIssuesTheRequestRulesPick3.chan 0 0).debt
    ≤ 5 ∧
  (wChannelIssuesTheRequestRulesPick4.sideMode 0 == 2 || wChannelIssuesTheRequestRulesPick4.sideMode 0 == 3 || wChannelIssuesTheRequestRulesPick4.sideMode 0
    == 5) = true ∧ (wChannelIssuesTheRequestRulesPick4.chan 0 0).recovery = false ∧ 8 ≤ (wChannelIssuesTheRequestRulesPick4.chan 0 0).debt ∧
  ((wChannelIssuesTheRequestRulesPick5.sideMode 0 == 2 || wChannelIssuesTheRequestRulesPick5.sideMode 0 == 3
    || wChannelIssuesTheRequestRulesPick5.sideMode 0 == 5) && !(wChannelIssuesTheRequestRulesPick5.chan 0 0).recovery
    && decide ((wChannelIssuesTheRequestRulesPick5.chan 0 0).debt < 8)) = true ∧
  ((wChannelIssuesTheRequestRulesPick6.sideMode 0 == 2 || wChannelIssuesTheRequestRulesPick6.sideMode 0 == 3
    || wChannelIssuesTheRequestRulesPick6.sideMode 0 == 5) && !(wChannelIssuesTheRequestRulesPick6.chan 0 0).recovery
    && decide ((wChannelIssuesTheRequestRulesPick6.chan 0 0).debt < 8)) = true ∧ (wChannelIssuesTheRequestRulesPick6.chan 0 0).neighbours
    = [] ∧ (wChannelIssuesTheRequestRulesPick6.chan 0 0).debt ≠ 0 ∧
  ((wChannelIssuesTheRequestRulesPick7.sideMode 0 == 2 || wChannelIssuesTheRequestRulesPick7.sideMode 0 == 3
    || wChannelIssuesTheRequestRulesPick7.sideMode 0 == 5) && !(wChannelIssuesTheRequestRulesPick7.chan 0 0).recovery
    && decide ((wChannelIssuesTheRequestRulesPick7.chan 0 0).debt < 8) && (wChannelIssuesTheRequestRulesPick7.chan 0 0).neighbours.isEmpty
    && ((wChannelIssuesTheRequestRulesPick7.chan 0 0).debt == 0 || (none : Option (Fin 16)).isNone)) = true ∧ wChannelIssuesTheRequestRulesPick7.sideMode 0
    = 2 ∧
  ((wChannelIssuesTheRequestRulesPick8.sideMode 0 == 2 || wChannelIssuesTheRequestRulesPick8.sideMode 0 == 3
    || wChannelIssuesTheRequestRulesPick8.sideMode 0 == 5) && !(wChannelIssuesTheRequestRulesPick8.chan 0 0).recovery
    && decide ((wChannelIssuesTheRequestRulesPick8.chan 0 0).debt < 8) && (wChannelIssuesTheRequestRulesPick8.chan 0 0).neighbours.isEmpty
    && ((wChannelIssuesTheRequestRulesPick8.chan 0 0).debt == 0 || (none : Option (Fin 16)).isNone)) = true ∧ wChannelIssuesTheRequestRulesPick8.sideMode 0
    ≠ 2 ∧
  (wChannelIssuesTheRequestRulesPick9.sideMode 0 == 2 || wChannelIssuesTheRequestRulesPick9.sideMode 0 == 3 || wChannelIssuesTheRequestRulesPick9.sideMode 0
    == 5) = false := by
  try unfold State.Admits
  try unfold State.SourceFree
  try unfold State.LogRoom
  decide +kernel

def wUrgencyAndThrottlesFollowTargets1 : State := st []
def wUrgencyAndThrottlesFollowTargets2 : State := st []

set_option synthInstance.maxHeartbeats 400000 in
set_option synthInstance.maxSize 4000 in
theorem witness_UrgencyAndThrottlesFollowTargets :
  wUrgencyAndThrottlesFollowTargets1.Admits World.secure 12 0 false ∧
  wUrgencyAndThrottlesFollowTargets2.Admits World.secure 12 0 false := by
  try unfold State.Admits
  try unfold State.SourceFree
  try unfold State.LogRoom
  decide +kernel

def wSideReleaseStartsTheCopy1 : State := st [(Reg.MSIDE_STATUS_STATE 0, 4)]
def wSideReleaseStartsTheCopy2 : State := st []
def wSideReleaseStartsTheCopy3 : State := (st [(Reg.MSIDE_STATUS_STATE 0, 5), (Reg.MSIDE_STATUS_STATE (1 - 0), 0)]).setSide 0 { State.reset.side 0 with stopped := false }

set_option synthInstance.maxHeartbeats 400000 in
set_option synthInstance.maxSize 4000 in
theorem witness_SideReleaseStartsTheCopy :
  wSideReleaseStartsTheCopy1.Admits World.secure 11 0 false ∧ wSideReleaseStartsTheCopy1.releaseRefused 0 (bitOf (BitVec.toNat (0 : Word)) 8)
    = false ∧
  wSideReleaseStartsTheCopy2.Admits World.secure 11 0 false ∧ wSideReleaseStartsTheCopy2.releaseRefused 0 (bitOf (BitVec.toNat (0 : BitVec 32)) 8)
    = true ∧ wSideReleaseStartsTheCopy2.SourceFree (53 + 0) ∧
  wSideReleaseStartsTheCopy3.stores = true ∧ wSideReleaseStartsTheCopy3.sideMode 0 = 5 ∧ (wSideReleaseStartsTheCopy3.side 0).stopped
    = false ∧ wSideReleaseStartsTheCopy3.sideDown (1 - 0) = false := by
  try unfold State.Admits
  try unfold State.SourceFree
  try unfold State.LogRoom
  decide +kernel

def wConfigRequestsAreAnswered1 : State := st [(Reg.GP_STATUS_LINK_UP 0, 0)]
def wConfigRequestsAreAnswered2 : State := st [(Reg.GP_STATUS_LINK_UP 0, 1), (Reg.GP_CTRL_RELEASE 0, 0)]
def wConfigRequestsAreAnswered3 : State := st [(Reg.GP_STATUS_LINK_UP 0, 1), (Reg.GP_CTRL_RELEASE 0, 1),
  (Reg.GP_STATUS_NUM_VFS 0, 0)]
def wConfigRequestsAreAnswered4 : State := st [(Reg.GP_STATUS_LINK_UP 0, 1), (Reg.GP_CTRL_RELEASE 0, 1)]
def wConfigRequestsAreAnswered5 : State := st [(Reg.GP_STATUS_LINK_UP 0, 1), (Reg.GP_CTRL_RELEASE 0, 1),
  (Reg.GP_STATUS_NUM_VFS 0, 0), (Reg.GP_CTRL_TOTAL_VFS 0, 0)]
def wConfigRequestsAreAnswered6 : State := st [(Reg.GP_STATUS_LINK_UP 0, 1), (Reg.GP_CTRL_RELEASE 0, 1),
  (Reg.GP_STATUS_NUM_VFS 0, 1)]
def wConfigRequestsAreAnswered7 : State := st [(Reg.GP_STATUS_LINK_UP 0, 1), (Reg.GP_CTRL_RELEASE 0, 1)]
def wConfigRequestsAreAnswered8 : State := st [(Reg.GP_STATUS_LINK_UP 0, 1), (Reg.GP_CTRL_RELEASE 0, 1),
  (Reg.GP_STATUS_NUM_VFS 0, 1)]
def wConfigRequestsAreAnswered9 : State := st [(Reg.GP_STATUS_LINK_UP 0, 1), (Reg.GP_CTRL_RELEASE 0, 1)]
def wConfigRequestsAreAnswered10 : State := st []

set_option synthInstance.maxHeartbeats 400000 in
set_option synthInstance.maxSize 4000 in
theorem witness_ConfigRequestsAreAnswered :
  wConfigRequestsAreAnswered1.bit (Reg.GP_STATUS_LINK_UP 0) = false ∧
  wConfigRequestsAreAnswered2.bit (Reg.GP_STATUS_LINK_UP 0) = true ∧ wConfigRequestsAreAnswered2.bit
    (Reg.GP_CTRL_RELEASE 0) = false ∧
  wConfigRequestsAreAnswered3.bit (Reg.GP_STATUS_LINK_UP 0) = true ∧ wConfigRequestsAreAnswered3.bit
    (Reg.GP_CTRL_RELEASE 0) = true ∧ wConfigRequestsAreAnswered3.get (Reg.GP_STATUS_NUM_VFS 0) < 1 ∧
  wConfigRequestsAreAnswered4.bit (Reg.GP_STATUS_LINK_UP 0) = true ∧ (wConfigRequestsAreAnswered4.bit
    (Reg.GP_CTRL_RELEASE 0) && decide (0 ≤ wConfigRequestsAreAnswered4.get (Reg.GP_STATUS_NUM_VFS 0))) = true
    ∧ 0 ≤ wConfigRequestsAreAnswered4.get (Reg.GP_CTRL_TOTAL_VFS 0) ∧ (wConfigRequestsAreAnswered4.func (0 * 16 + 0)).pba
    = 0 ∧
  wConfigRequestsAreAnswered5.bit (Reg.GP_STATUS_LINK_UP 0) = true ∧ (wConfigRequestsAreAnswered5.bit
    (Reg.GP_CTRL_RELEASE 0) && decide (0 ≤ wConfigRequestsAreAnswered5.get (Reg.GP_STATUS_NUM_VFS 0))) = true
    ∧ wConfigRequestsAreAnswered5.get (Reg.GP_CTRL_TOTAL_VFS 0) < 1 ∧
  wConfigRequestsAreAnswered6.bit (Reg.GP_STATUS_LINK_UP 0) = true ∧ (wConfigRequestsAreAnswered6.bit
    (Reg.GP_CTRL_RELEASE 0) && decide (1 ≤ wConfigRequestsAreAnswered6.get (Reg.GP_STATUS_NUM_VFS 0))) = true ∧
  wConfigRequestsAreAnswered7.bit (Reg.GP_STATUS_LINK_UP 0) = true ∧ (wConfigRequestsAreAnswered7.bit
    (Reg.GP_CTRL_RELEASE 0) && decide (0 ≤ wConfigRequestsAreAnswered7.get (Reg.GP_STATUS_NUM_VFS 0))) = true ∧
  wConfigRequestsAreAnswered8.bit (Reg.GP_STATUS_LINK_UP 0) = true ∧ (wConfigRequestsAreAnswered8.bit
    (Reg.GP_CTRL_RELEASE 0) && decide (1 ≤ wConfigRequestsAreAnswered8.get (Reg.GP_STATUS_NUM_VFS 0))) = true ∧
  wConfigRequestsAreAnswered9.bit (Reg.GP_STATUS_LINK_UP 0) = true ∧ (wConfigRequestsAreAnswered9.bit
    (Reg.GP_CTRL_RELEASE 0) && decide (0 ≤ wConfigRequestsAreAnswered9.get (Reg.GP_STATUS_NUM_VFS 0))) = true ∧
  wConfigRequestsAreAnswered10.Admits World.secure 13 1 false ∧ wConfigRequestsAreAnswered10.locked
    (Reg.GP_CTRL 1) = false := by
  try unfold State.Admits
  try unfold State.SourceFree
  try unfold State.LogRoom
  decide +kernel

def wGuestLinkEventsAttachAndDetach1 : State := st [(Reg.GP_CTRL_EN 0, 1)]
def wGuestLinkEventsAttachAndDetach2 : State := st [(Reg.GP_CTRL_EN 0, 0)]
def wGuestLinkEventsAttachAndDetach3 : State := st [(Reg.GP_STATUS_LINK_UP 0, 1)]
def wGuestLinkEventsAttachAndDetach4 : State := st [(Reg.SESS_CTRL_PORT 2, 0), (Reg.GP_CTRL_EN 0, 1)]
def wGuestLinkEventsAttachAndDetach5 : State := st [(Reg.SESS_CTRL_PORT 2, 0), (Reg.GP_STATUS_LINK_UP 0, 1)]
def wGuestLinkEventsAttachAndDetach6 : State := st [(Reg.SESS_CTRL_PORT 2, 0), (Reg.SESS_STATUS_ATTACHED 2, 1),
  (Reg.GP_STATUS_LINK_UP 0, 1)]
def wGuestLinkEventsAttachAndDetach7 : State := st [(Reg.SESS_CTRL_PORT 2, 2)]

set_option synthInstance.maxHeartbeats 400000 in
set_option synthInstance.maxSize 4000 in
theorem witness_GuestLinkEventsAttachAndDetach :
  wGuestLinkEventsAttachAndDetach1.bit (Reg.GP_CTRL_EN 0) = true ∧ wGuestLinkEventsAttachAndDetach1.bit
    (Reg.GP_STATUS_LINK_UP 0) = false ∧ wGuestLinkEventsAttachAndDetach1.funcAvailable 0 0 = false ∧
  wGuestLinkEventsAttachAndDetach2.bit (Reg.GP_CTRL_EN 0) = false ∧
  wGuestLinkEventsAttachAndDetach3.bit (Reg.GP_STATUS_LINK_UP 0) = true ∧ wGuestLinkEventsAttachAndDetach3.SourceFree (59 + 0)
    ∧ wGuestLinkEventsAttachAndDetach3.funcAvailable 0 0 = true ∧
  wGuestLinkEventsAttachAndDetach4.get (Reg.SESS_CTRL_PORT 2) = 0 ∧ wGuestLinkEventsAttachAndDetach4.bit
    (Reg.GP_CTRL_EN 0) = true ∧
  wGuestLinkEventsAttachAndDetach5.get (Reg.SESS_CTRL_PORT 2) = 0 ∧ wGuestLinkEventsAttachAndDetach5.bit
    (Reg.GP_STATUS_LINK_UP 0) = true ∧ wGuestLinkEventsAttachAndDetach5.funcAvailable 0 0 = true ∧ (0 = 0 ∨ wGuestLinkEventsAttachAndDetach5.get
    (Reg.SESS_CTRL_FUNC 2) = 0) ∧
  wGuestLinkEventsAttachAndDetach6.get (Reg.SESS_CTRL_PORT 2) = 0 ∧ wGuestLinkEventsAttachAndDetach6.attached 2
    = true ∧ wGuestLinkEventsAttachAndDetach6.bit (Reg.GP_STATUS_LINK_UP 0) = true ∧ wGuestLinkEventsAttachAndDetach6.funcAvailable 0 0
    = true ∧ (0 = 0 ∨ wGuestLinkEventsAttachAndDetach6.get (Reg.SESS_CTRL_FUNC 2) = 0) ∧
  wGuestLinkEventsAttachAndDetach7.get (Reg.SESS_CTRL_PORT 2) ≠ 1 := by
  try unfold State.Admits
  try unfold State.SourceFree
  try unfold State.LogRoom
  decide +kernel

def wSessionControlWriteBindsASession1 : State := st [(Reg.SESS_STATUS_ATTACHED 2, 1)]
def wSessionControlWriteBindsASession2 : State := st [(Reg.SESS_STATUS_ATTACHED 2, 1)]
def wSessionControlWriteBindsASession3 : State := (st [(Reg.SESS_STATUS_ATTACHED 2, 0), (Reg.GP_STATUS_LINK_UP (getBits (1 : Word) 8 2), 1),
  (Reg.GP_STATUS_PERST (getBits (1 : Word) 8 2), 0), (Reg.GP_STATUS_NUM_VFS (getBits (1 : Word) 8 2), 0)]).setFunc (getBits (1 : Word) 8 2 * 16 + getBits (1 : Word) 12 4) { State.reset.func (getBits (1 : Word) 8 2 * 16 + getBits (1 : Word) 12 4) with inReset := false }
def wSessionControlWriteBindsASession4 : State := st [(Reg.SESS_CTRL_STATE 2, 1)]
def wSessionControlWriteBindsASession5 : State := st [(Reg.SESS_CTRL_LOCK 1, 1)]

set_option synthInstance.maxHeartbeats 400000 in
set_option synthInstance.maxSize 4000 in
theorem witness_SessionControlWriteBindsASession :
  wSessionControlWriteBindsASession1.Admits World.secure 14 2 false ∧ wSessionControlWriteBindsASession1.locked
    (Reg.SESS_CTRL 2) = false ∧ (wSessionControlWriteBindsASession1.sessActive 2 = true → (getBits (1 : Word) 8 2, getBits (1 : Word) 12 4, getBits (1 : Word) 16 4)
    = (getBits (wSessionControlWriteBindsASession1.reg (Reg.SESS_CTRL 2)) 8 2, getBits (wSessionControlWriteBindsASession1.reg
    (Reg.SESS_CTRL 2)) 12 4, getBits (wSessionControlWriteBindsASession1.reg (Reg.SESS_CTRL 2)) 16 4)) ∧ (getBits (1 : Word) 0 2
    = 1 → wSessionControlWriteBindsASession1.sessActive 2 = true ∨ ((List.filter (fun m => decide (2 ≤ m) && m != 2
    && wSessionControlWriteBindsASession1.sessActive m) (List.range 256)).all fun m => (getBits (wSessionControlWriteBindsASession1.reg
    (Reg.SESS_CTRL m)) 8 2, getBits (wSessionControlWriteBindsASession1.reg (Reg.SESS_CTRL m)) 12 4, getBits (wSessionControlWriteBindsASession1.reg
    (Reg.SESS_CTRL m)) 16 4) != (getBits (1 : Word) 8 2, getBits (1 : Word) 12 4, getBits (1 : Word) 16 4)) = true)
    ∧ (wSessionControlWriteBindsASession1.attached 2 = true ∧ getBits (1 : Word) 0 2 = 1 ∨ wSessionControlWriteBindsASession1.attached 2
    = false ∧ (¬getBits (1 : Word) 0 2 = 1 ∨ ¬wSessionControlWriteBindsASession1.funcAvailable (getBits (1 : Word) 8 2) (getBits (1 : Word) 12 4)
    = true)) ∧ wSessionControlWriteBindsASession1.locked (Reg.SESS_QUOTA 2) = false ∧
  wSessionControlWriteBindsASession2.Admits World.secure 14 2 false ∧ wSessionControlWriteBindsASession2.locked
    (Reg.SESS_CTRL 2) = false ∧ (wSessionControlWriteBindsASession2.sessActive 2 = true → (getBits (2 : Word) 8 2, getBits (2 : Word) 12 4, getBits (2 : Word) 16 4)
    = (getBits (wSessionControlWriteBindsASession2.reg (Reg.SESS_CTRL 2)) 8 2, getBits (wSessionControlWriteBindsASession2.reg
    (Reg.SESS_CTRL 2)) 12 4, getBits (wSessionControlWriteBindsASession2.reg (Reg.SESS_CTRL 2)) 16 4)) ∧ (getBits (2 : Word) 0 2
    = 1 → wSessionControlWriteBindsASession2.sessActive 2 = true ∨ ((List.filter (fun m => decide (2 ≤ m) && m != 2
    && wSessionControlWriteBindsASession2.sessActive m) (List.range 256)).all fun m => (getBits (wSessionControlWriteBindsASession2.reg
    (Reg.SESS_CTRL m)) 8 2, getBits (wSessionControlWriteBindsASession2.reg (Reg.SESS_CTRL m)) 12 4, getBits (wSessionControlWriteBindsASession2.reg
    (Reg.SESS_CTRL m)) 16 4) != (getBits (2 : Word) 8 2, getBits (2 : Word) 12 4, getBits (2 : Word) 16 4)) = true)
    ∧ wSessionControlWriteBindsASession2.attached 2 = true ∧
  wSessionControlWriteBindsASession3.Admits World.secure 14 2 false ∧ wSessionControlWriteBindsASession3.locked
    (Reg.SESS_CTRL 2) = false ∧ (wSessionControlWriteBindsASession3.sessActive 2 = true → (getBits (1 : Word) 8 2, getBits (1 : Word) 12 4, getBits (1 : Word) 16 4)
    = (getBits (wSessionControlWriteBindsASession3.reg (Reg.SESS_CTRL 2)) 8 2, getBits (wSessionControlWriteBindsASession3.reg
    (Reg.SESS_CTRL 2)) 12 4, getBits (wSessionControlWriteBindsASession3.reg (Reg.SESS_CTRL 2)) 16 4)) ∧ (getBits (1 : Word) 0 2
    = 1 → wSessionControlWriteBindsASession3.sessActive 2 = true ∨ ((List.filter (fun m => decide (2 ≤ m) && m != 2
    && wSessionControlWriteBindsASession3.sessActive m) (List.range 256)).all fun m => (getBits (wSessionControlWriteBindsASession3.reg
    (Reg.SESS_CTRL m)) 8 2, getBits (wSessionControlWriteBindsASession3.reg (Reg.SESS_CTRL m)) 12 4, getBits (wSessionControlWriteBindsASession3.reg
    (Reg.SESS_CTRL m)) 16 4) != (getBits (1 : Word) 8 2, getBits (1 : Word) 12 4, getBits (1 : Word) 16 4)) = true)
    ∧ wSessionControlWriteBindsASession3.attached 2 = false ∧ wSessionControlWriteBindsASession3.funcAvailable (getBits (1 : Word) 8 2) (getBits (1 : Word) 12 4)
    = true ∧
  wSessionControlWriteBindsASession4.Admits World.secure 14 2 false ∧ wSessionControlWriteBindsASession4.locked
    (Reg.SESS_CTRL 2) = false ∧ (wSessionControlWriteBindsASession4.sessActive 2 = true ∧ (getBits (4294967295 : BitVec 32) 8 2, getBits (4294967295 : BitVec 32) 12 4, getBits (4294967295 : BitVec 32) 16 4)
    ≠ (getBits (wSessionControlWriteBindsASession4.reg (Reg.SESS_CTRL 2)) 8 2, getBits (wSessionControlWriteBindsASession4.reg
    (Reg.SESS_CTRL 2)) 12 4, getBits (wSessionControlWriteBindsASession4.reg (Reg.SESS_CTRL 2)) 16 4) ∨ wSessionControlWriteBindsASession4.sessActive 2
    = false ∧ getBits (4294967295 : BitVec 32) 0 2 = 1 ∧ ((List.filter (fun m => decide (2 ≤ m) && m != 2 && wSessionControlWriteBindsASession4.sessActive m)
    (List.range 256)).any fun m => (getBits (wSessionControlWriteBindsASession4.reg (Reg.SESS_CTRL m)) 8 2, getBits (wSessionControlWriteBindsASession4.reg
    (Reg.SESS_CTRL m)) 12 4, getBits (wSessionControlWriteBindsASession4.reg (Reg.SESS_CTRL m)) 16 4) == (getBits (4294967295 : BitVec 32) 8 2, getBits (4294967295 : BitVec 32) 12 4, getBits (4294967295 : BitVec 32) 16 4))
    = true) ∧ wSessionControlWriteBindsASession4.SourceFree (192 + 2) ∧
  wSessionControlWriteBindsASession5.Admits World.secure 14 1 false ∧ wSessionControlWriteBindsASession5.locked
    (Reg.SESS_QUOTA 1) = true := by
  try unfold State.Admits
  try unfold State.SourceFree
  try unfold State.LogRoom
  decide +kernel

def wWindowWritesAreCheckedWhole1 : State := st [(Reg.SESS_WIN_DEV_DEV 2 0, 0x7FFFF)]
def wWindowWritesAreCheckedWhole2 : State := st [(Reg.SESS_WIN_CTRL_VALID 1 0, 0)]
def wWindowWritesAreCheckedWhole3 : State := st [(Reg.SESS_WIN_CTRL_VALID 3 0, 1), (Reg.SESS_WIN_CTRL_SIZE 3 0, 1)]
def wWindowWritesAreCheckedWhole8 : State := st [(Reg.SESS_WIN_CTRL_VALID 2 0, 1), (Reg.SESS_WIN_CTRL_SIZE 2 0, 1)]
def wWindowWritesAreCheckedWhole9 : State := st [(Reg.SESS_WIN_CTRL_VALID 1 0, 1), (Reg.SESS_WIN_CTRL_SIZE 1 0, 1)]
def wWindowWritesAreCheckedWhole10 : State := st [(Reg.SESS_WIN_CTRL_VALID 1 0, 1), (Reg.SESS_WIN_CTRL_SIZE 1 0, 0)]

set_option synthInstance.maxHeartbeats 400000 in
set_option synthInstance.maxSize 4000 in
theorem witness_WindowWritesAreCheckedWhole :
  wWindowWritesAreCheckedWhole1.Admits World.secure 14 2 false ∧ wWindowWritesAreCheckedWhole1.locked
    (Reg.SESS_CTRL 2) = false ∧ wWindowWritesAreCheckedWhole1.SourceFree (192 + 2) ∧ wWindowWritesAreCheckedWhole1.bit
    (Reg.SESS_WIN_CTRL_VALID 2 0) = false ∧ wWindowWritesAreCheckedWhole1.winBadRange (wWindowWritesAreCheckedWhole1.get
    (Reg.SESS_WIN_DEV_DEV 2 0)) (getBits (65537 : Word) 0 14) = true ∧
  wWindowWritesAreCheckedWhole2.Admits World.secure 14 1 false ∧ wWindowWritesAreCheckedWhole2.locked
    (Reg.SESS_CTRL 1) = false ∧ wWindowWritesAreCheckedWhole2.SourceFree (192 + 1) ∧ wWindowWritesAreCheckedWhole2.bit
    (Reg.SESS_WIN_CTRL_VALID 1 0) = false ∧
  wWindowWritesAreCheckedWhole3.Admits World.secure 14 2 false ∧ wWindowWritesAreCheckedWhole3.locked
    (Reg.SESS_CTRL 2) = false ∧ wWindowWritesAreCheckedWhole3.SourceFree (192 + 2) ∧ wWindowWritesAreCheckedWhole3.bit
    (Reg.SESS_WIN_CTRL_VALID 2 0) = false ∧ wWindowWritesAreCheckedWhole3.winBadRange (wWindowWritesAreCheckedWhole3.get
    (Reg.SESS_WIN_DEV_DEV 2 0)) (getBits (65537 : Word) 0 14) = false ∧ wWindowWritesAreCheckedWhole3.winTaken 2 (wWindowWritesAreCheckedWhole3.get
    (Reg.SESS_WIN_DEV_DEV 2 0)) (getBits (65537 : Word) 0 14) = true ∧
  wWindowWritesAreCheckedWhole8.Admits World.secure 14 2 false ∧ wWindowWritesAreCheckedWhole8.locked
    (Reg.SESS_CTRL 2) = false ∧ wWindowWritesAreCheckedWhole8.SourceFree (192 + 2) ∧ wWindowWritesAreCheckedWhole8.bit
    (Reg.SESS_WIN_CTRL_VALID 2 0) = true ∧ getBits (196609 : Word) 0 19 ≠ wWindowWritesAreCheckedWhole8.get
    (Reg.SESS_WIN_DEV_DEV 2 0) ∧ getBits (196609 : Word) 0 13 ≠ wWindowWritesAreCheckedWhole8.get
    (Reg.SESS_WIN_GOFF_GOFF 2 0) ∧ getBits (196609 : Word) 0 14 = wWindowWritesAreCheckedWhole8.get
    (Reg.SESS_WIN_CTRL_SIZE 2 0) ∧
  wWindowWritesAreCheckedWhole9.Admits World.secure 14 1 false ∧ wWindowWritesAreCheckedWhole9.locked
    (Reg.SESS_CTRL 1) = false ∧ wWindowWritesAreCheckedWhole9.SourceFree (192 + 1) ∧ wWindowWritesAreCheckedWhole9.bit
    (Reg.SESS_WIN_CTRL_VALID 1 0) = true ∧ getBits (2 : Word) 0 14 ≠ wWindowWritesAreCheckedWhole9.get
    (Reg.SESS_WIN_CTRL_SIZE 1 0) ∧
  wWindowWritesAreCheckedWhole10.Admits World.secure 14 1 false ∧ wWindowWritesAreCheckedWhole10.locked
    (Reg.SESS_CTRL 1) = false ∧ wWindowWritesAreCheckedWhole10.SourceFree (192 + 1) ∧ wWindowWritesAreCheckedWhole10.bit
    (Reg.SESS_WIN_CTRL_VALID 1 0) = true ∧ getBits (0 : BitVec 32) 0 14 = wWindowWritesAreCheckedWhole10.get
    (Reg.SESS_WIN_CTRL_SIZE 1 0) := by
  try unfold State.Admits
  try unfold State.SourceFree
  try unfold State.LogRoom
  decide +kernel

def wSessionPageWritesTakeEffect1 : State := st [(Reg.SESS_RES_OTHER_AUDIO 2, 1), (Reg.SESS_WIN_CTRL_VALID 2 0, 1),
  (Reg.SESS_WIN_CTRL_SIZE 2 0, 1), (Reg.SESS_QUOTA_UNITS 2, 1)]
def wSessionPageWritesTakeEffect2 : State := (st []).setReg (Reg.SESS_IRQ_STATUS 2) 1
def wSessionPageWritesTakeEffect3 : State := st [(Reg.SESS_TQ_CTRL_EN 0, 1), (Reg.SESS_TQ_BASE_OFFSET 0, 1)]
def wSessionPageWritesTakeEffect4 : State := st [(Reg.SESS_TQ_CTRL_EN 0, 1), (Reg.SESS_TQ_CTRL_SIZE_LOG2 0, 0)]

set_option synthInstance.maxHeartbeats 400000 in
set_option synthInstance.maxSize 4000 in
theorem witness_SessionPageWritesTakeEffect :
  wSessionPageWritesTakeEffect1.bit (Reg.SESS_TQ_CTRL_EN 2) = false ∧ wSessionPageWritesTakeEffect1.ownsAudio 2 0
    = true ∧ wSessionPageWritesTakeEffect1.bit (Reg.SESS_AS_CTRL_START 2 0) = false ∧ (∀ (b : Nat), b < 32 → BitVec.getLsbD (0 : Word) b
    = true ∧ (b < 4 ∨ 8 ≤ b ∧ b < 16) → BitVec.getLsbD (wSessionPageWritesTakeEffect1.reg (Reg.SESS_IRQ_ENABLE 2)) b
    = false → BitVec.getLsbD (wSessionPageWritesTakeEffect1.reg (Reg.SESS_IRQ_STATUS 2)) b = false) ∧
  wSessionPageWritesTakeEffect2.bit (Reg.SESS_TQ_CTRL_EN 2) = false ∧ wSessionPageWritesTakeEffect2.ownsAudio 2 0
    = false ∧ (1 : Word) &&& (65295 : Word) &&& ~~~wSessionPageWritesTakeEffect2.reg (Reg.SESS_IRQ_ENABLE 2) &&& wSessionPageWritesTakeEffect2.reg
    (Reg.SESS_IRQ_STATUS 2) ≠ (0 : Word) ∧
  wSessionPageWritesTakeEffect3.bit (Reg.SESS_TQ_CTRL_EN 0) = true ∧ getBits (2 : Word) 0 28 ≠ wSessionPageWritesTakeEffect3.get
    (Reg.SESS_TQ_BASE_OFFSET 0) ∧ getBits (2 : Word) 16 4 ≠ wSessionPageWritesTakeEffect3.get
    (Reg.SESS_TQ_CTRL_SIZE_LOG2 0) ∧
  wSessionPageWritesTakeEffect4.bit (Reg.SESS_TQ_CTRL_EN 0) = true ∧ getBits (0 : BitVec 32) 16 4 = wSessionPageWritesTakeEffect4.get
    (Reg.SESS_TQ_CTRL_SIZE_LOG2 0) := by
  try unfold State.Admits
  try unfold State.SourceFree
  try unfold State.LogRoom
  decide +kernel

def wHapticSupplyAndLibraryLoad1 : State := st [(Reg.MSIDE_STATUS_STATE 0, 3)]
def wHapticSupplyAndLibraryLoad2 : State := st [(Reg.FLT_STATUS_C3, 1)]
def wHapticSupplyAndLibraryLoad3 : State := st []
def wHapticSupplyAndLibraryLoad4 : State := st [(Reg.HAP_STATUS_HV_LIVE, 1)]
def wHapticSupplyAndLibraryLoad5 : State := st [(Reg.HAP_CTRL_HV_ON, 1)]

set_option synthInstance.maxHeartbeats 400000 in
set_option synthInstance.maxSize 4000 in
theorem witness_HapticSupplyAndLibraryLoad :
  wHapticSupplyAndLibraryLoad1.Admits World.secure 18 0 false ∧ wHapticSupplyAndLibraryLoad1.c3 = false ∧ wHapticSupplyAndLibraryLoad1.bit Reg.BOOT_STATUS_ANCHOR
    = false ∧ wHapticSupplyAndLibraryLoad1.bit Reg.HAP_STATUS_LIB_BUSY = false ∧ wHapticSupplyAndLibraryLoad1.startWaits (256 * wHapticSupplyAndLibraryLoad1.get Reg.HAP_LIB_ADDR_ADDR) 1024
    = false ∧ wHapticSupplyAndLibraryLoad1.bit Reg.HAP_STATUS_HV_LIVE = false ∧ wHapticSupplyAndLibraryLoad1.bit Reg.HAP_CTRL_HV_ON
    = false ∧ wHapticSupplyAndLibraryLoad1.SourceFree 79 ∧
  wHapticSupplyAndLibraryLoad2.Admits World.secure 18 0 false ∧ (wHapticSupplyAndLibraryLoad2.c3 = true ∨ wHapticSupplyAndLibraryLoad2.bit Reg.BOOT_STATUS_ANCHOR
    = true) ∧ (getBits (0 : BitVec 32) 0 1 = 0 ∨ wHapticSupplyAndLibraryLoad2.bit Reg.HAP_STATUS_LIB_BUSY = true) ∧
  wHapticSupplyAndLibraryLoad3.Admits World.secure 18 0 false ∧ wHapticSupplyAndLibraryLoad3.bit Reg.HAP_STATUS_LIB_BUSY
    = false ∧ wHapticSupplyAndLibraryLoad3.startWaits (256 * wHapticSupplyAndLibraryLoad3.get Reg.HAP_LIB_ADDR_ADDR) 1024
    = true ∧
  wHapticSupplyAndLibraryLoad4.bit Reg.HAP_STATUS_HV_LIVE = true ∧
  wHapticSupplyAndLibraryLoad5.bit Reg.HAP_CTRL_HV_ON = true := by
  try unfold State.Admits
  try unfold State.SourceFree
  try unfold State.LogRoom
  decide +kernel

def wHapticChannelPlaysItsPeriods1 : State := { st [] with gated := [256 * 17 + 0] }
def wHapticChannelPlaysItsPeriods2 : State := ({ st [(Reg.HC_STATUS_STATE 0, 2)] with gated := [] }).setHc 0 { State.reset.hc 0 with arm := false, desc.track := false }
def wHapticChannelPlaysItsPeriods3 : State := (st [(Reg.HC_STATUS_STATE 0, 2)]).setHc 0 { State.reset.hc 0 with acc := 4294967295, delta := 1, desc := { cycles := 2 } }
def wHapticChannelPlaysItsPeriods4 : State := ({ st [(Reg.HC_STATUS_STATE 0, 3)] with gated := [] }).setHc 0 { State.reset.hc 0 with wait := true }
def wHapticChannelPlaysItsPeriods5 : State := (st [(Reg.HC_STATUS_STATE 0, 3)]).setHc 0 { State.reset.hc 0 with prog := 4294967295, delta := 1, desc := { brakeMax := 2 } }
def wHapticChannelPlaysItsPeriods6 : State := ({ st [(Reg.HC_STATUS_STATE 0, 3)] with gated := [] }).setHc 0 { State.reset.hc 0 with wait := false, window := false }
def wHapticChannelPlaysItsPeriods7 : State := { st [(Reg.HC_STATUS_STATE 0, 0)] with gated := [] }
def wHapticChannelPlaysItsPeriods8 : State := ({ st [(Reg.HC_STATUS_STATE 0, 3), (Reg.HC_STATUS_LOCKED 0, 1)] with gated := [] }).setHc 0 { State.reset.hc 0 with desc.track := false }
def wHapticChannelPlaysItsPeriods9 : State := ({ st [(Reg.HC_STATUS_STATE 0, 3)] with gated := [] }).setHc 0 { State.reset.hc 0 with desc.track := false }
def wHapticChannelPlaysItsPeriods10 : State := ({ st [(Reg.HC_STATUS_STATE 0, 3), (Reg.HC_STATUS_LOCKED 0, 1)] with gated := [] }).setHc 0 { State.reset.hc 0 with desc.track := false, stops := 3, waiting := none, pending := none, urgent := none }

set_option synthInstance.maxHeartbeats 400000 in
set_option synthInstance.maxSize 4000 in
theorem witness_HapticChannelPlaysItsPeriods :
  wHapticChannelPlaysItsPeriods1.isGated 17 0 = true ∧
  wHapticChannelPlaysItsPeriods2.isGated 17 0 = false ∧ wHapticChannelPlaysItsPeriods2.hcState 0 = 2 ∧ (wHapticChannelPlaysItsPeriods2.hc 0).arm
    = false ∧ (wHapticChannelPlaysItsPeriods2.hc 0).desc.track = false ∧ (wHapticChannelPlaysItsPeriods2.hc 0).acc + (wHapticChannelPlaysItsPeriods2.hc 0).delta
    < 2 ^ 32 ∧
  wHapticChannelPlaysItsPeriods3.isGated 17 0 = false ∧ wHapticChannelPlaysItsPeriods3.hcState 0 = 2 ∧ (wHapticChannelPlaysItsPeriods3.hc 0).arm
    = false ∧ (wHapticChannelPlaysItsPeriods3.hc 0).desc.track = false ∧ 2 ^ 32 ≤ (wHapticChannelPlaysItsPeriods3.hc 0).acc + (wHapticChannelPlaysItsPeriods3.hc 0).delta
    ∧ (wHapticChannelPlaysItsPeriods3.hc 0).endAtCycle = false ∧ (wHapticChannelPlaysItsPeriods3.hc 0).cycle + 1
    < (wHapticChannelPlaysItsPeriods3.hc 0).desc.total ∧
  wHapticChannelPlaysItsPeriods4.isGated 17 0 = false ∧ wHapticChannelPlaysItsPeriods4.hcState 0 = 3 ∧ (wHapticChannelPlaysItsPeriods4.hc 0).wait
    = true ∧ (wHapticChannelPlaysItsPeriods4.hc 0).desc.track = false ∧ wHapticChannelPlaysItsPeriods4.bit
    (Reg.HC_STATUS_LOCKED 0) = false ∧ wHapticChannelPlaysItsPeriods4.SourceFree (80 + 0) ∧
  wHapticChannelPlaysItsPeriods5.isGated 17 0 = false ∧ wHapticChannelPlaysItsPeriods5.hcState 0 = 3 ∧ (wHapticChannelPlaysItsPeriods5.hc 0).wait
    = false ∧ (wHapticChannelPlaysItsPeriods5.hc 0).window = false ∧ 2 ^ 32 ≤ (wHapticChannelPlaysItsPeriods5.hc 0).prog + (wHapticChannelPlaysItsPeriods5.hc 0).delta
    ∧ (wHapticChannelPlaysItsPeriods5.hc 0).brakes + 1 < (wHapticChannelPlaysItsPeriods5.hc 0).desc.brakeMax ∧
  wHapticChannelPlaysItsPeriods6.isGated 17 0 = false ∧ wHapticChannelPlaysItsPeriods6.hcState 0 = 3 ∧ (wHapticChannelPlaysItsPeriods6.hc 0).wait
    = false ∧ (wHapticChannelPlaysItsPeriods6.hc 0).window = false ∧ (wHapticChannelPlaysItsPeriods6.hc 0).prog + (wHapticChannelPlaysItsPeriods6.hc 0).delta
    < 2 ^ 32 ∧
  wHapticChannelPlaysItsPeriods7.isGated 17 0 = false ∧ wHapticChannelPlaysItsPeriods7.hcState 0 ≠ 2 ∧ wHapticChannelPlaysItsPeriods7.hcState 0
    ≠ 3 ∧
  wHapticChannelPlaysItsPeriods8.isGated 17 0 = false ∧ wHapticChannelPlaysItsPeriods8.hcState 0 = 3 ∧ (wHapticChannelPlaysItsPeriods8.hc 0).desc.track
    = false ∧ wHapticChannelPlaysItsPeriods8.bit (Reg.HC_STATUS_LOCKED 0) = true ∧
  wHapticChannelPlaysItsPeriods9.isGated 17 0 = false ∧ wHapticChannelPlaysItsPeriods9.hcState 0 = 3 ∧ (wHapticChannelPlaysItsPeriods9.hc 0).desc.track
    = false ∧
  wHapticChannelPlaysItsPeriods10.isGated 17 0 = false ∧ wHapticChannelPlaysItsPeriods10.hcState 0 = 3 ∧ (wHapticChannelPlaysItsPeriods10.hc 0).desc.track
    = false ∧ (wHapticChannelPlaysItsPeriods10.hc 0).stops = 3 ∧ (wHapticChannelPlaysItsPeriods10.hc 0).waiting
    = none ∧ (wHapticChannelPlaysItsPeriods10.hc 0).pending = none ∧ (wHapticChannelPlaysItsPeriods10.hc 0).urgent
    = none ∧ wHapticChannelPlaysItsPeriods10.bit (Reg.HC_STATUS_LOCKED 0) = true ∧ wHapticChannelPlaysItsPeriods10.SourceFree (80 + 0) := by
  try unfold State.Admits
  try unfold State.SourceFree
  try unfold State.LogRoom
  decide +kernel

def wHapticTriggerStartsOrIsDiscarded1 : State := st [(Reg.HAP_TRIG_EN 0, 0)]
def wHapticTriggerStartsOrIsDiscarded2 : State := (st [(Reg.HAP_TRIG_EN 0, 1), (Reg.HAP_TRIG_EDGE 0, 2),
  (Reg.HAP_STATUS_HV_READY, 1), (Reg.HAP_STATUS_LIB_VALID, 1), (Reg.HC_CTRL_EN 0, 1), (Reg.HAP_BUDGET_LIMIT, 1000)]).setReg
  (Reg.HAP_LIB 0 0) 0x00C80240

set_option synthInstance.maxHeartbeats 400000 in
set_option synthInstance.maxSize 4000 in
theorem witness_HapticTriggerStartsOrIsDiscarded :
  wHapticTriggerStartsOrIsDiscarded1.bit (Reg.HAP_TRIG_EN 0) = false ∧ (∀ (c : Nat), c < 16 → (wHapticTriggerStartsOrIsDiscarded1.hc c).pending
    = none ∧ (wHapticTriggerStartsOrIsDiscarded1.hc c).urgent = none ∧ wHapticTriggerStartsOrIsDiscarded1.hcState c
    ≠ 1) ∧ (∀ (c : Nat), c < 16 → (c ≠ 0 → (wHapticTriggerStartsOrIsDiscarded1.hc c).pending = none) ∧ (wHapticTriggerStartsOrIsDiscarded1.hc c).urgent
    = none ∧ wHapticTriggerStartsOrIsDiscarded1.hcState c ≠ 1) ∧ wHapticTriggerStartsOrIsDiscarded1.hcState 0
    = 0 ∧ wHapticTriggerStartsOrIsDiscarded1.isGated 17 0 = false ∧
  wHapticTriggerStartsOrIsDiscarded2.bit (Reg.HAP_TRIG_EN 0) = true ∧ wHapticTriggerStartsOrIsDiscarded2.get
    (Reg.HAP_TRIG_EDGE 0) = 2 ∧ wHapticTriggerStartsOrIsDiscarded2.get (Reg.HAP_TRIG_HC 0) = 0 ∧ wHapticTriggerStartsOrIsDiscarded2.bit Reg.HAP_STATUS_HV_READY
    = true ∧ wHapticTriggerStartsOrIsDiscarded2.bit Reg.HAP_STATUS_LIB_VALID = true ∧ wHapticTriggerStartsOrIsDiscarded2.bit
    (Reg.HC_CTRL_EN 0) = true ∧ wHapticTriggerStartsOrIsDiscarded2.hcState 0 = 0 ∧ wHapticTriggerStartsOrIsDiscarded2.hapOthers 0 + wHapticTriggerStartsOrIsDiscarded2.hapCost 0 (wHapticTriggerStartsOrIsDiscarded2.hapDesc (wHapticTriggerStartsOrIsDiscarded2.get
    (Reg.HAP_TRIG_EFFECT 0))).level ≤ wHapticTriggerStartsOrIsDiscarded2.get Reg.HAP_BUDGET_LIMIT ∧ (wHapticTriggerStartsOrIsDiscarded2.hapDesc (wHapticTriggerStartsOrIsDiscarded2.get
    (Reg.HAP_TRIG_EFFECT 0))).total ≠ 0 ∧ (wHapticTriggerStartsOrIsDiscarded2.hapDesc (wHapticTriggerStartsOrIsDiscarded2.get
    (Reg.HAP_TRIG_EFFECT 0))).track = false := by
  try unfold State.Admits
  try unfold State.SourceFree
  try unfold State.LogRoom
  decide +kernel

def wClaimsSetAndClearTheOwner1 : State := st [(({ addr := Reg.SYS_OWN 4 0, lo := 0, width := 1 } : Fld), 1)]
def wClaimsSetAndClearTheOwner2 : State := { st [] with gated := [] }
def wClaimsSetAndClearTheOwner3 : State := st [(({ addr := Reg.SYS_OWN 4 0, lo := 0, width := 1 } : Fld), 1)]
def wClaimsSetAndClearTheOwner4 : State := st []
def wClaimsSetAndClearTheOwner5 : State := st [(Reg.HC_OWNER_VALID 0, 1)]

set_option synthInstance.maxHeartbeats 400000 in
set_option synthInstance.maxSize 4000 in
theorem witness_ClaimsSetAndClearTheOwner :
  wClaimsSetAndClearTheOwner1.isGated 0 0 = false ∧
  wClaimsSetAndClearTheOwner2.isGated 0 0 = false ∧
  wClaimsSetAndClearTheOwner3.isGated 0 0 = false ∧ wClaimsSetAndClearTheOwner3.get { addr := Reg.SYS_OWN 4 0, lo := 0, width := 1 : Fld }
    = 1 ∧ (wClaimsSetAndClearTheOwner3.ic.inService.isEmpty && !bitOf (BitVec.toNat (wClaimsSetAndClearTheOwner3.reg
    (Reg.PWR_GATE 4 0))) 0) = true ∧
  wClaimsSetAndClearTheOwner4.isGated 0 0 = false ∧ wClaimsSetAndClearTheOwner4.get { addr := Reg.SYS_OWN 4 0, lo := 0, width := 1 : Fld }
    = 0 ∧ wClaimsSetAndClearTheOwner4.assigned 4 (32 * 0 + 0) = false ∧ (wClaimsSetAndClearTheOwner4.ic.inService.isEmpty
    && !bitOf (BitVec.toNat (wClaimsSetAndClearTheOwner4.reg (Reg.PWR_GATE 4 0))) 0) = true ∧
  wClaimsSetAndClearTheOwner5.isGated 0 0 = false ∧ wClaimsSetAndClearTheOwner5.get { addr := Reg.SYS_OWN 17 0, lo := 0, width := 1 : Fld }
    = 0 ∧ wClaimsSetAndClearTheOwner5.assigned 17 (32 * 0 + 0) = true := by
  try unfold State.Admits
  try unfold State.SourceFree
  try unfold State.LogRoom
  decide +kernel

def wGateRequestsWaitForIdleness1 : State := st []
def wGateRequestsWaitForIdleness2 : State := st [(Reg.DPO_CTRL_EN 0, 1)]
def wGateRequestsWaitForIdleness3 : State := { st [({ addr := Reg.PWR_GATE 25 0, lo := 0, width := 1 : Fld }, 0)] with gated := [] }
def wGateRequestsWaitForIdleness4 : State := st [(({ addr := Reg.SYS_OWN 4 0, lo := 0, width := 1 } : Fld), 1)]
def wGateRequestsWaitForIdleness5 : State := { st [({ addr := Reg.PWR_GATE 25 0, lo := 0, width := 1 : Fld }, 1)] with gated := [] }
def wGateRequestsWaitForIdleness6 : State := { st [({ addr := Reg.PWR_GATE 25 0, lo := 0, width := 1 : Fld }, 1)] with gated := [256 * 25 + (32 * 0 + 0)] }

set_option synthInstance.maxHeartbeats 400000 in
set_option synthInstance.maxSize 4000 in
theorem witness_GateRequestsWaitForIdleness :
  gateable 26 (32 * 0 + 0) = false ∧ (26 : Fin 33) ≠ (19 : Fin 33) ∧ (26 : Fin 33) ≠ (20 : Fin 33) ∧
  wGateRequestsWaitForIdleness2.isGated 4 (32 * 0 + 0) = false ∧ wGateRequestsWaitForIdleness2.get { addr := Reg.PWR_GATE 4 0, lo := 0, width := 1 : Fld }
    = 0 ∧ wGateRequestsWaitForIdleness2.unitIdle 4 (32 * 0 + 0) = false ∧ (wGateRequestsWaitForIdleness2.ownedSecure 4 (32 * 0 + 0)
    && World.secure == World.normal && !wGateRequestsWaitForIdleness2.gateSecure.contains (256 * 4 + (32 * 0 + 0)))
    = false ∧
  wGateRequestsWaitForIdleness3.isGated 25 (32 * 0 + 0) = false ∧ wGateRequestsWaitForIdleness3.get { addr := Reg.PWR_GATE 25 0, lo := 0, width := 1 : Fld }
    = 0 ∧ wGateRequestsWaitForIdleness3.unitIdle 25 (32 * 0 + 0) = true ∧ (wGateRequestsWaitForIdleness3.ownedSecure 25 (32 * 0 + 0)
    && World.secure == World.normal && !wGateRequestsWaitForIdleness3.gateSecure.contains (256 * 25 + (32 * 0 + 0)))
    = false ∧
  wGateRequestsWaitForIdleness4.isGated 4 (32 * 0 + 0) = false ∧ wGateRequestsWaitForIdleness4.get { addr := Reg.PWR_GATE 4 0, lo := 0, width := 1 : Fld }
    = 0 ∧ (wGateRequestsWaitForIdleness4.ownedSecure 4 (32 * 0 + 0) && World.normal == World.normal && !wGateRequestsWaitForIdleness4.gateSecure.contains (256 * 4 + (32 * 0 + 0)))
    = true ∧ wGateRequestsWaitForIdleness4.gateNoted.contains (256 * 4 + (32 * 0 + 0)) = false ∧
  wGateRequestsWaitForIdleness5.isGated 25 (32 * 0 + 0) = false ∧ wGateRequestsWaitForIdleness5.get { addr := Reg.PWR_GATE 25 0, lo := 0, width := 1 : Fld }
    = 1 ∧ wGateRequestsWaitForIdleness5.unitIdle 25 (32 * 0 + 0) = true ∧ wGateRequestsWaitForIdleness5.ownedSecure 25 (32 * 0 + 0)
    = false ∧
  wGateRequestsWaitForIdleness6.isGated 25 (32 * 0 + 0) = true ∧ wGateRequestsWaitForIdleness6.get { addr := Reg.PWR_GATE 25 0, lo := 0, width := 1 : Fld }
    = 1 := by
  try unfold State.Admits
  try unfold State.SourceFree
  try unfold State.LogRoom
  decide +kernel

def wJtagSelectsAndDebugNeedsItsEnable1 : State := { st [] with released := true }
def wJtagSelectsAndDebugNeedsItsEnable2 : State := { st [] with railsOut := [0] }
def wJtagSelectsAndDebugNeedsItsEnable3 : State := { st [] with released := false, resetLow := true }
def wJtagSelectsAndDebugNeedsItsEnable4 : State := { st [] with railsOut := [0] }
def wJtagSelectsAndDebugNeedsItsEnable5 : State := { st [] with released := false, resetLow := false }
def wJtagSelectsAndDebugNeedsItsEnable6 : State := { st [] with pending := [.idcode] }
def wJtagSelectsAndDebugNeedsItsEnable7 : State := st []
def wJtagSelectsAndDebugNeedsItsEnable8 : State := st [(Reg.MC_STATUS_STATE 0, 1), (Reg.DBG_EN_SI, 1),
  (Reg.DBG_EN_NI, 1), (Reg.DBG_EN_SNI, 1), (Reg.DBG_EN_NNI, 1)]
def wJtagSelectsAndDebugNeedsItsEnable9 : State := st [(Reg.MC_STATUS_STATE 0, 2)]
def wJtagSelectsAndDebugNeedsItsEnable10 : State := st [(Reg.MC_STATUS_STATE 0, 1), (Reg.MC_STATUS_HALTED 0, 1),
  (Reg.DBG_EN_SI, 1), (Reg.DBG_EN_NI, 1), (Reg.DBG_EN_SNI, 1)]
def wJtagSelectsAndDebugNeedsItsEnable11 : State := st [(Reg.MC_STATUS_STATE 0, 1), (Reg.DBG_EN_SI, 1),
  (Reg.DBG_EN_NI, 1), (Reg.DBG_EN_SNI, 1), (Reg.DBG_EN_NNI, 1)]
def wJtagSelectsAndDebugNeedsItsEnable12 : State := { st [] with jtag.used := false }
def wJtagSelectsAndDebugNeedsItsEnable13 : State := st []
def wJtagSelectsAndDebugNeedsItsEnable14 : State := st [(Reg.DBG_EN_LOCKED_OUT, 1)]

set_option synthInstance.maxHeartbeats 400000 in
set_option synthInstance.maxSize 4000 in
theorem witness_JtagSelectsAndDebugNeedsItsEnable :
  (wJtagSelectsAndDebugNeedsItsEnable1.released = true ∨ wJtagSelectsAndDebugNeedsItsEnable1.resetLow = false) ∧
  wJtagSelectsAndDebugNeedsItsEnable2.released = false ∧ wJtagSelectsAndDebugNeedsItsEnable2.resetLow = true ∧
  wJtagSelectsAndDebugNeedsItsEnable3.released = false ∧ wJtagSelectsAndDebugNeedsItsEnable3.resetLow = true ∧ wJtagSelectsAndDebugNeedsItsEnable3.pinUnpowered OutPin.hvEn
    = false ∧
  wJtagSelectsAndDebugNeedsItsEnable4.pinUnpowered (OutPin.memResetN (0 : Side)) = true ∧ wJtagSelectsAndDebugNeedsItsEnable4.shifting
    = false ∧
  wJtagSelectsAndDebugNeedsItsEnable5.released = false ∧ wJtagSelectsAndDebugNeedsItsEnable5.resetLow = false ∧
  wJtagSelectsAndDebugNeedsItsEnable6.shifting = true ∧
  jtagCodes.contains (BitVec.toNat (31 : BitVec 5)) = false ∧
  wJtagSelectsAndDebugNeedsItsEnable8.get (Reg.MC_STATUS_STATE 0) = 1 ∧ wJtagSelectsAndDebugNeedsItsEnable8.invasive (wJtagSelectsAndDebugNeedsItsEnable8.coreWorld 0)
    = true ∧ wJtagSelectsAndDebugNeedsItsEnable8.nonInvasive (wJtagSelectsAndDebugNeedsItsEnable8.coreWorld 0)
    = true ∧ wJtagSelectsAndDebugNeedsItsEnable8.isGated 31 0 = false ∧
  (wJtagSelectsAndDebugNeedsItsEnable9.get (Reg.MC_STATUS_STATE 0) ≠ 1 ∨ wJtagSelectsAndDebugNeedsItsEnable9.invasive (wJtagSelectsAndDebugNeedsItsEnable9.coreWorld 0)
    = false) ∧ wJtagSelectsAndDebugNeedsItsEnable9.nonInvasive (wJtagSelectsAndDebugNeedsItsEnable9.coreWorld 0)
    = false ∧
  wJtagSelectsAndDebugNeedsItsEnable10.debugs 0 = true ∧ wJtagSelectsAndDebugNeedsItsEnable10.invasive World.secure
    = true ∧
  wJtagSelectsAndDebugNeedsItsEnable11.debugs 0 = false ∧
  wJtagSelectsAndDebugNeedsItsEnable12.jtag.used = false ∧ wJtagSelectsAndDebugNeedsItsEnable12.bit Reg.DBG_EN_LOCKED_OUT
    = false ∧ wJtagSelectsAndDebugNeedsItsEnable12.jtag.token = none ∧
  true = true ∧
  (wJtagSelectsAndDebugNeedsItsEnable14.bit Reg.DBG_EN_LOCKED_OUT = true ∨ wJtagSelectsAndDebugNeedsItsEnable14.jtag.token.isSome
    = true) := by
  try unfold State.Admits
  try unfold State.SourceFree
  try unfold State.LogRoom
  decide +kernel

def wCoreReleaseHoldAndFailure1 : State := (st [(Reg.MC_STATUS_STATE 3, 0), (Reg.MC_CTRL_HARTID (nat_lit 3), 2)]).setCore 3 { State.reset.core 3 with haltReq := false }
def wCoreReleaseHoldAndFailure2 : State := st [(Reg.MC_STATUS_STATE 3, 1), (Reg.MC_CTRL_HARTID (nat_lit 3), 2)]
def wCoreReleaseHoldAndFailure3 : State := st [(Reg.WEAR_WORN_MARK, 8192)]
def wCoreReleaseHoldAndFailure4 : State := st []

set_option synthInstance.maxHeartbeats 400000 in
set_option synthInstance.maxSize 4000 in
theorem witness_CoreReleaseHoldAndFailure :
  wCoreReleaseHoldAndFailure1.Admits World.secure 22 3 false ∧ wCoreReleaseHoldAndFailure1.get
    (Reg.MC_STATUS_STATE 3) = 0 ∧ wCoreReleaseHoldAndFailure1.coreWorn 3 = false ∧ wCoreReleaseHoldAndFailure1.hartTaken 3 (getBits (256 : Word) 8 3)
    = false ∧ (wCoreReleaseHoldAndFailure1.core 3).haltReq = false ∧ (wCoreReleaseHoldAndFailure1.get
    (Reg.MC_STATUS_STATE 3) = 0 ∧ wCoreReleaseHoldAndFailure1.coreWorn 3 = false ∨ 2 ≤ wCoreReleaseHoldAndFailure1.get
    (Reg.MC_STATUS_STATE 3)) ∧ wCoreReleaseHoldAndFailure1.pending = [] ∧ wCoreReleaseHoldAndFailure1.boot.romStage
    ≠ 3 ∧
  wCoreReleaseHoldAndFailure2.Admits World.secure 22 3 false ∧ wCoreReleaseHoldAndFailure2.get
    (Reg.MC_STATUS_STATE 3) = 1 ∧ wCoreReleaseHoldAndFailure2.hartTaken 3 (getBits (256 : Word) 8 3) = false ∧
  wCoreReleaseHoldAndFailure3.Admits World.secure 22 1 false ∧ (2 ≤ wCoreReleaseHoldAndFailure3.get
    (Reg.MC_STATUS_STATE 1) ∨ wCoreReleaseHoldAndFailure3.get (Reg.MC_STATUS_STATE 1) = 0 ∧ wCoreReleaseHoldAndFailure3.coreWorn 1
    = true ∨ (0 : Fin 5) ≠ (1 : Fin 5) ∧ wCoreReleaseHoldAndFailure3.get (Reg.MC_STATUS_STATE 0) = 1 ∧ wCoreReleaseHoldAndFailure3.get
    (Reg.MC_CTRL_HARTID 0) = getBits (0 : Word) 8 3) ∧ wCoreReleaseHoldAndFailure3.get (Reg.MC_STATUS_STATE 1)
    = 0 ∧ wCoreReleaseHoldAndFailure3.coreWorn 1 = true ∧
  (68 ≤ 68 ∨ 17 ≤ 68 ∧ 68 < 66) := by
  try unfold State.Admits
  try unfold State.SourceFree
  try unfold State.LogRoom
  decide +kernel

def wWorldGateEntersAndReturns1 : State := (st [(Reg.MC_STATUS_STATE 0, 1), (Reg.MC_STATUS_WORLD 0, 0),
  (Reg.SYS_SEC_STATUS_DOWN, 0)]).setCore 0 { State.reset.core 0 with csrS := [(csrWgmask, 1)] }
def wWorldGateEntersAndReturns2 : State := (st [(Reg.MC_STATUS_STATE 0, 1), (Reg.MC_STATUS_WORLD 0, 0),
  (Reg.SYS_SEC_STATUS_DOWN, 1)]).setCore 0 { State.reset.core 0 with csrS := [(csrWgmask, 1)] }
def wWorldGateEntersAndReturns3 : State := (st [(Reg.MC_STATUS_STATE 1, 1), (Reg.MC_STATUS_HALTED 1, 0)]).setCore 1 { State.reset.core 1 with haltReq := false }
def wWorldGateEntersAndReturns4 : State := (st [(Reg.MC_STATUS_STATE 0, 1), (Reg.MC_STATUS_HALTED 0, 0)]).setCore 0 { State.reset.core 0 with haltReq := false }
def wWorldGateEntersAndReturns5 : State := (st [(Reg.MC_STATUS_STATE 0, 2)]).setCore 0 { State.reset.core 0 with haltReq := false }

set_option synthInstance.maxHeartbeats 400000 in
set_option synthInstance.maxSize 4000 in
theorem witness_WorldGateEntersAndReturns :
  (wWorldGateEntersAndReturns1.core 0).haltReq = false ∧ wWorldGateEntersAndReturns1.coreRuns 0 = true ∧ wWorldGateEntersAndReturns1.coreWorld 0
    = World.normal ∧ (wWorldGateEntersAndReturns1.core 0).gateOpen 0 = true ∧ wWorldGateEntersAndReturns1.bit Reg.SYS_SEC_STATUS_DOWN
    = false ∧
  (wWorldGateEntersAndReturns2.core 0).haltReq = false ∧ wWorldGateEntersAndReturns2.coreRuns 0 = true ∧ wWorldGateEntersAndReturns2.coreWorld 0
    = World.normal ∧ (wWorldGateEntersAndReturns2.core 0).gateOpen 0 = true ∧ wWorldGateEntersAndReturns2.bit Reg.SYS_SEC_STATUS_DOWN
    = true ∧
  (wWorldGateEntersAndReturns3.core 1).haltReq = false ∧ wWorldGateEntersAndReturns3.coreRuns 1 = true ∧ wWorldGateEntersAndReturns3.coreWorld 1
    = World.normal ∧ (wWorldGateEntersAndReturns3.core 1).gateOpen 1 = false ∧
  (wWorldGateEntersAndReturns4.core 0).haltReq = false ∧ wWorldGateEntersAndReturns4.coreRuns 0 = true ∧ wWorldGateEntersAndReturns4.coreWorld 0
    = World.secure ∧ (wWorldGateEntersAndReturns4.core 0).timed = false ∧
  (wWorldGateEntersAndReturns5.core 0).haltReq = false ∧ wWorldGateEntersAndReturns5.coreRuns 0 = false := by
  try unfold State.Admits
  try unfold State.SourceFree
  try unfold State.LogRoom
  decide +kernel

def wInterruptsFollowWorldAndPriority1 : State := st [(Reg.IC_SRC_PENDING 17, 1), (Reg.IC_SRC_PRIO 17, 3),
  (Reg.IC_SRC_TARGET 17, 1), (Reg.IC_SRC_SMODE 17, 0)]
def wInterruptsFollowWorldAndPriority2 : State := (st [(Reg.IC_SRC_PENDING 17, 1), (Reg.IC_SRC_PRIO 17, 3),
  (Reg.IC_SRC_TARGET 17, 1), (Reg.IC_SRC_SMODE 17, 0), (Reg.MC_STATUS_STATE 0, 1), (Reg.MC_STATUS_WORLD 0, 0)]).setCore 0 { State.reset.core 0 with priv := 0, csrN := [(0x304, 0x800)] }
def wInterruptsFollowWorldAndPriority3 : State := st [(Reg.IC_SRC_PENDING 17, 1), (Reg.IC_SRC_PRIO 17, 3),
  (Reg.IC_SRC_TARGET 17, 1), (Reg.IC_SRC_SMODE 17, 0), (Reg.MC_STATUS_STATE 0, 1), (Reg.MC_STATUS_WORLD 0, 0),
  (Reg.IC_SRC_PENDING 18, 1), (Reg.IC_SRC_PRIO 18, 2), (Reg.IC_SRC_TARGET 18, 1), (Reg.IC_SRC_SMODE 18, 0)]
def wInterruptsFollowWorldAndPriority4 : State := st [(Reg.IC_SRC_PENDING 17, 1), (Reg.IC_SRC_PRIO 17, 3),
  (Reg.IC_SRC_TARGET 17, 1), (Reg.IC_SRC_SMODE 17, 0)]
def wInterruptsFollowWorldAndPriority5 : State := { st [] with ic.inService := [(getBits (0 : BitVec 32) 0 9, 3 * 0 + 0)], ic.again := [] }
def wInterruptsFollowWorldAndPriority6 : State := { st [] with ic.inService := [(getBits (0 : BitVec 32) 0 9, 3 * 0 + 0)], ic.again := [getBits (0 : BitVec 32) 0 9] }
def wInterruptsFollowWorldAndPriority7 : State := (st [(Reg.IC_SRC_PENDING 17, 1), (Reg.IC_SRC_PRIO 17, 3),
  (Reg.IC_SRC_TARGET 17, 1), (Reg.IC_SRC_SMODE 17, 0), (Reg.MC_STATUS_STATE 0, 1), (Reg.MC_STATUS_WORLD 0, 0)]).setCore 0 { State.reset.core 0 with priv := 0 }

set_option synthInstance.maxHeartbeats 400000 in
set_option synthInstance.maxSize 4000 in
theorem witness_InterruptsFollowWorldAndPriority :
  wInterruptsFollowWorldAndPriority1.bit (Reg.IC_SRC_PENDING 0) = false ∧ wInterruptsFollowWorldAndPriority1.topSource 0 1
    = 0 ∧
  wInterruptsFollowWorldAndPriority2.bit (Reg.IC_SRC_PENDING 0) = false ∧ wInterruptsFollowWorldAndPriority2.topSource 0 1
    ≠ 0 ∧ getBits (17 : Word) 0 9 = wInterruptsFollowWorldAndPriority2.topSource 0 1 ∧ (World.normal ≠ contextWorld 1
    ∨ wInterruptsFollowWorldAndPriority2.ic.inService.contains (getBits (17 : Word) 0 9, 3 * 0 + 1) = false) ∧ wInterruptsFollowWorldAndPriority2.SourceFree (448 + getBits (17 : Word) 0 5)
    ∧ wInterruptsFollowWorldAndPriority2.sourceWorld (448 + getBits (17 : Word) 0 5) = World.normal ∧ wInterruptsFollowWorldAndPriority2.coreRuns 0
    = true ∧ wInterruptsFollowWorldAndPriority2.coreWorld 0 = World.normal ∧ (wInterruptsFollowWorldAndPriority2.core 0).haltReq
    = false ∧ (wInterruptsFollowWorldAndPriority2.core 0).takesM 11 = true ∧
  wInterruptsFollowWorldAndPriority3.bit (Reg.IC_SRC_PENDING 0) = false ∧ wInterruptsFollowWorldAndPriority3.topSource 0 1
    ≠ 0 ∧ wInterruptsFollowWorldAndPriority3.deliverable 0 1 18 = true ∧
  (wInterruptsFollowWorldAndPriority4.topSource 0 1 = 0 ∨ World.normal ≠ contextWorld 1 ∨ getBits (17 : Word) 0 9
    ≠ wInterruptsFollowWorldAndPriority4.topSource 0 1) ∧ (wInterruptsFollowWorldAndPriority4.topSource 0 1 = 0
    ∨ wInterruptsFollowWorldAndPriority4.coreRuns 0 = false) ∧
  wInterruptsFollowWorldAndPriority5.ic.inService.contains (getBits (0 : BitVec 32) 0 9, 3 * 0 + 0) = true ∧ wInterruptsFollowWorldAndPriority5.ic.again.contains (getBits (0 : BitVec 32) 0 9)
    = false ∧ wInterruptsFollowWorldAndPriority5.sourceWorld (448 + getBits (0 : BitVec 32) 0 5) ≠ World.secure ∧
  wInterruptsFollowWorldAndPriority6.ic.inService.contains (getBits (0 : BitVec 32) 0 9, 3 * 0 + 0) = true ∧ wInterruptsFollowWorldAndPriority6.ic.again.contains (getBits (0 : BitVec 32) 0 9)
    = true ∧
  wInterruptsFollowWorldAndPriority7.topSource 0 1 ≠ 0 ∧ wInterruptsFollowWorldAndPriority7.coreRuns 0 = true
    ∧ wInterruptsFollowWorldAndPriority7.coreWorld 0 = World.normal ∧ (wInterruptsFollowWorldAndPriority7.core 0).haltReq
    = false ∧ (wInterruptsFollowWorldAndPriority7.core 0).takesM 11 = false := by
  try unfold State.Admits
  try unfold State.SourceFree
  try unfold State.LogRoom
  decide +kernel

def wSecureWorldIsWatchedAndRestarted1 : State := { st [] with gated := [] }
def wSecureWorldIsWatchedAndRestarted2 : State := { st [(Reg.SYS_SEC_STATUS_RESTARTING, 1)] with gated := [] }
def wSecureWorldIsWatchedAndRestarted3 : State := { st [(Reg.SYS_SEC_CTRL_SWDT_ARM, 1), (Reg.SYS_SEC_STATUS_DOWN, 0), (Reg.DBG_EN_SI, 0), (Reg.DBG_EN_SNI, 0)] with swdtHalf := false }
def wSecureWorldIsWatchedAndRestarted4 : State := (st [(Reg.SYS_SEC_STATUS_DOWN, 0),
  (Reg.SYS_SEC_STATUS_RESTARTING, 0), (Reg.MC_STATUS_STATE 0, 1), (Reg.MC_STATUS_WORLD 0, 1),
  (Reg.MC_STATUS_HALTED 0, 0)]).setCore 0 { State.reset.core 0 with timed := true, context := true, haltReq := false }
def wSecureWorldIsWatchedAndRestarted5 : State := { st [] with restartDue := false }
def wSecureWorldIsWatchedAndRestarted6 : State := { st [] with restartDue := true }
def wSecureWorldIsWatchedAndRestarted7 : State := { st [(Reg.SYS_SEC_STATUS_RESTARTING, 1), (Reg.SYS_SEC_STATUS_FAILS, 1)] with restartOn := none }
def wSecureWorldIsWatchedAndRestarted8 : State := { st [(Reg.SYS_SEC_STATUS_RESTARTING, 1), (Reg.SYS_SEC_STATUS_FAILS, 2)] with restartOn := none }

set_option synthInstance.maxHeartbeats 400000 in
set_option synthInstance.maxSize 4000 in
theorem witness_SecureWorldIsWatchedAndRestarted :
  wSecureWorldIsWatchedAndRestarted1.isGated 0 0 = false ∧ wSecureWorldIsWatchedAndRestarted1.bit Reg.SYS_SEC_STATUS_RESTARTING
    = false ∧ (wSecureWorldIsWatchedAndRestarted1.swdtCounts = false ∨ wSecureWorldIsWatchedAndRestarted1.swdtHalf
    = true) ∧ wSecureWorldIsWatchedAndRestarted1.swdtCounts = false ∧ (wSecureWorldIsWatchedAndRestarted1.inSecure 0
    = false ∨ (wSecureWorldIsWatchedAndRestarted1.core 0).timed = false ∨ wSecureWorldIsWatchedAndRestarted1.bit
    (Reg.MC_STATUS_HALTED 0) = true) ∧
  wSecureWorldIsWatchedAndRestarted2.isGated 0 0 = false ∧ wSecureWorldIsWatchedAndRestarted2.bit Reg.SYS_SEC_STATUS_RESTARTING
    = true ∧
  wSecureWorldIsWatchedAndRestarted3.swdtCounts = true ∧ wSecureWorldIsWatchedAndRestarted3.swdtHalf = false ∧ wSecureWorldIsWatchedAndRestarted3.SourceFree 124
    ∧ wSecureWorldIsWatchedAndRestarted3.bit Reg.SYS_SEC_STATUS_DOWN = false ∧ wSecureWorldIsWatchedAndRestarted3.bit Reg.SYS_SEC_STATUS_RESTARTING
    = false ∧
  wSecureWorldIsWatchedAndRestarted4.bit Reg.SYS_SEC_STATUS_DOWN = false ∧ wSecureWorldIsWatchedAndRestarted4.bit Reg.SYS_SEC_STATUS_RESTARTING
    = false ∧ wSecureWorldIsWatchedAndRestarted4.inSecure 0 = true ∧ (wSecureWorldIsWatchedAndRestarted4.core 0).timed
    = true ∧ wSecureWorldIsWatchedAndRestarted4.bit (Reg.MC_STATUS_HALTED 0) = false ∧ (wSecureWorldIsWatchedAndRestarted4.core 0).context
    = true ∧ (wSecureWorldIsWatchedAndRestarted4.core 0).haltReq = false ∧
  wSecureWorldIsWatchedAndRestarted5.restartDue = false ∧ wSecureWorldIsWatchedAndRestarted5.bit Reg.SYS_SEC_STATUS_RESTARTING
    = false ∧
  wSecureWorldIsWatchedAndRestarted6.restartDue = true ∧
  wSecureWorldIsWatchedAndRestarted7.bit Reg.SYS_SEC_STATUS_RESTARTING = true ∧ wSecureWorldIsWatchedAndRestarted7.restartOn
    = none ∧ wSecureWorldIsWatchedAndRestarted7.get Reg.SYS_SEC_STATUS_FAILS < 2 ∧
  wSecureWorldIsWatchedAndRestarted8.bit Reg.SYS_SEC_STATUS_RESTARTING = true ∧ wSecureWorldIsWatchedAndRestarted8.restartOn
    = none ∧ wSecureWorldIsWatchedAndRestarted8.get Reg.SYS_SEC_STATUS_FAILS = 2 := by
  try unfold State.Admits
  try unfold State.SourceFree
  try unfold State.LogRoom
  decide +kernel

def wFaultEventIsRecorded1 : State := st []
def wFaultEventIsRecorded2 : State := st [(Reg.MSIDE_STATUS_STATE 0, 1)]
def wFaultEventIsRecorded3 : State := st [(Reg.MSIDE_STATUS_STATE 0, 5)]
def wFaultEventIsRecorded4 : State := st []
def wFaultEventIsRecorded5 : State := st [(Reg.FLT_SELFTEST_GO, 0), (Reg.FLT_FE_STATUS_VALID, 1)]
def wFaultEventIsRecorded6 : State := st [(Reg.FLT_CTRL_LOCK, 1)]

set_option synthInstance.maxHeartbeats 400000 in
set_option synthInstance.maxSize 4000 in
theorem witness_FaultEventIsRecorded :
  wFaultEventIsRecorded1.Admits World.secure 24 0 false ∧ wFaultEventIsRecorded1.bit Reg.FLT_CTRL_LOCK = false
    ∧ wFaultEventIsRecorded1.get (Reg.FLT_IN_CFG_MIN 13) ≤ wFaultEventIsRecorded1.get (Reg.FLT_IN_CFG_MAX 13) ∧
  (wFaultEventIsRecorded2.sideMode 0 = 1 ∨ wFaultEventIsRecorded2.sideMode 0 = 2 ∨ wFaultEventIsRecorded2.sideMode 0
    = 3 ∨ wFaultEventIsRecorded2.sideMode 0 = 5) ∧
  (wFaultEventIsRecorded3.sideMode 0 = 5 ∨ wFaultEventIsRecorded3.sideMode 1 = 5) ∧ wFaultEventIsRecorded3.faultClass 0
    ≤ 1 ∧ wFaultEventIsRecorded3.bit Reg.FLT_SELFTEST_GO = false ∧ wFaultEventIsRecorded3.SourceFree (128 + wFaultEventIsRecorded3.faultClass 0)
    ∧ wFaultEventIsRecorded3.SourceFree 132 ∧ wFaultEventIsRecorded3.LogRoom ∧ wFaultEventIsRecorded3.bit Reg.FLT_FE_STATUS_VALID
    = false ∧
  wFaultEventIsRecorded4.faultClass 256 ≤ 1 ∧ wFaultEventIsRecorded4.bit Reg.FLT_SELFTEST_GO = false ∧ wFaultEventIsRecorded4.SourceFree (128 + wFaultEventIsRecorded4.faultClass 256)
    ∧ wFaultEventIsRecorded4.SourceFree 132 ∧ wFaultEventIsRecorded4.LogRoom ∧
  wFaultEventIsRecorded5.faultClass 2 ≤ 1 ∧ wFaultEventIsRecorded5.bit Reg.FLT_SELFTEST_GO = false ∧ wFaultEventIsRecorded5.SourceFree (128 + wFaultEventIsRecorded5.faultClass 2)
    ∧ wFaultEventIsRecorded5.SourceFree 132 ∧ wFaultEventIsRecorded5.LogRoom ∧ wFaultEventIsRecorded5.bit Reg.FLT_FE_STATUS_VALID
    = true ∧
  wFaultEventIsRecorded6.Admits World.secure 24 0 false ∧ wFaultEventIsRecorded6.bit Reg.FLT_CTRL_LOCK = true := by
  try unfold State.Admits
  try unfold State.SourceFree
  try unfold State.LogRoom
  decide +kernel

def wFaultReactionsContainTheirScope1 : State := st [(Reg.FLT_IN_CFG_CLASS 12, 3)]

set_option synthInstance.maxHeartbeats 400000 in
set_option synthInstance.maxSize 4000 in
theorem witness_FaultReactionsContainTheirScope :
  wFaultReactionsContainTheirScope1.Admits World.secure 24 0 false ∧ wFaultReactionsContainTheirScope1.faultClass 12
    = 3 ∧ wFaultReactionsContainTheirScope1.faultClass (16 + 0) = 2 ∧ wFaultReactionsContainTheirScope1.bit Reg.FLT_TOLL_STATUS_RUNNING
    = false := by
  try unfold State.Admits
  try unfold State.SourceFree
  try unfold State.LogRoom
  decide +kernel

def wFaultReleaseEndsAReaction1 : State := st [(Reg.FLT_STATUS_C3, 1)]
def wFaultReleaseEndsAReaction2 : State := (st [(Reg.FLT_STATUS_C3, 0), (Reg.SCREEN_STATUS_RUNNING (getBits (7 : Word) 0 8), 1)]).setScr (getBits (7 : Word) 0 8) { State.reset.scr (getBits (7 : Word) 0 8) with c2 := (some (false, 0)), c2Ends := false }
def wFaultReleaseEndsAReaction3 : State := (st [(Reg.FLT_STATUS_C3, 0), (Reg.SCREEN_STATUS_RUNNING (getBits (7 : Word) 0 8), 0)]).setScr (getBits (7 : Word) 0 8) { State.reset.scr (getBits (7 : Word) 0 8) with c2 := (some (false, 0)), c2Ends := false }
def wFaultReleaseEndsAReaction4 : State := st [(Reg.FLT_STATUS_C3, 0)]
def wFaultReleaseEndsAReaction5 : State := st [(Reg.FLT_STATUS_C3, 0), (Reg.HC_STATUS_STATE (getBits (271 : Word) 0 8), 4)]
def wFaultReleaseEndsAReaction6 : State := st [(Reg.FLT_STATUS_C3, 0)]
def wFaultReleaseEndsAReaction7 : State := (st [(Reg.FLT_STATUS_C3, 0), (Reg.TOUCH_CTRL_EN (getBits (519 : Word) 0 8), 0)]).setTch (getBits (519 : Word) 0 8) { State.reset.tch (getBits (519 : Word) 0 8) with contained := true }
def wFaultReleaseEndsAReaction8 : State := (st [(Reg.FLT_STATUS_C3, 0), (Reg.TOUCH_CTRL_EN (getBits (519 : Word) 0 8), 1)]).setTch (getBits (519 : Word) 0 8) { State.reset.tch (getBits (519 : Word) 0 8) with contained := true }
def wFaultReleaseEndsAReaction9 : State := st [(Reg.FLT_STATUS_C3, 0)]
def wFaultReleaseEndsAReaction10 : State := { st [(Reg.FLT_STATUS_C3, 0)] with audQuiet := true }
def wFaultReleaseEndsAReaction11 : State := { st [(Reg.FLT_STATUS_C3, 0)] with audQuiet := false }

set_option synthInstance.maxHeartbeats 400000 in
set_option synthInstance.maxSize 4000 in
theorem witness_FaultReleaseEndsAReaction :
  wFaultReleaseEndsAReaction1.Admits World.secure 24 0 false ∧ (wFaultReleaseEndsAReaction1.bit Reg.FLT_STATUS_C3
    = true ∨ false = true ∨ 4 ≤ getBits (0 : BitVec 32) 8 3) ∧
  wFaultReleaseEndsAReaction2.Admits World.secure 24 0 false ∧ wFaultReleaseEndsAReaction2.bit Reg.FLT_STATUS_C3
    = false ∧ (wFaultReleaseEndsAReaction2.scr (getBits (7 : Word) 0 8)).c2.isSome = true ∧ (wFaultReleaseEndsAReaction2.scr (getBits (7 : Word) 0 8)).c2Ends
    = false ∧ wFaultReleaseEndsAReaction2.running (getBits (7 : Word) 0 8) = true ∧
  wFaultReleaseEndsAReaction3.Admits World.secure 24 0 false ∧ wFaultReleaseEndsAReaction3.bit Reg.FLT_STATUS_C3
    = false ∧ (wFaultReleaseEndsAReaction3.scr (getBits (7 : Word) 0 8)).c2.isSome = true ∧ (wFaultReleaseEndsAReaction3.scr (getBits (7 : Word) 0 8)).c2Ends
    = false ∧ wFaultReleaseEndsAReaction3.running (getBits (7 : Word) 0 8) = false ∧
  wFaultReleaseEndsAReaction4.Admits World.secure 24 0 false ∧ wFaultReleaseEndsAReaction4.bit Reg.FLT_STATUS_C3
    = false ∧ (8 ≤ getBits (8 : Word) 0 8 ∨ (wFaultReleaseEndsAReaction4.scr (getBits (8 : Word) 0 8)).c2 = none) ∧
  wFaultReleaseEndsAReaction5.Admits World.secure 24 0 false ∧ wFaultReleaseEndsAReaction5.bit Reg.FLT_STATUS_C3
    = false ∧ wFaultReleaseEndsAReaction5.hcState (getBits (271 : Word) 0 8) = 4 ∧
  wFaultReleaseEndsAReaction6.Admits World.secure 24 0 false ∧ wFaultReleaseEndsAReaction6.bit Reg.FLT_STATUS_C3
    = false ∧ (16 ≤ getBits (272 : Word) 0 8 ∨ wFaultReleaseEndsAReaction6.hcState (getBits (272 : Word) 0 8)
    ≠ 4) ∧
  wFaultReleaseEndsAReaction7.Admits World.secure 24 0 false ∧ wFaultReleaseEndsAReaction7.bit Reg.FLT_STATUS_C3
    = false ∧ (wFaultReleaseEndsAReaction7.tch (getBits (519 : Word) 0 8)).contained = true ∧ wFaultReleaseEndsAReaction7.bit
    (Reg.TOUCH_CTRL_EN (getBits (519 : Word) 0 8)) = false ∧
  wFaultReleaseEndsAReaction8.Admits World.secure 24 0 false ∧ wFaultReleaseEndsAReaction8.bit Reg.FLT_STATUS_C3
    = false ∧ (wFaultReleaseEndsAReaction8.tch (getBits (519 : Word) 0 8)).contained = true ∧ wFaultReleaseEndsAReaction8.bit
    (Reg.TOUCH_CTRL_EN (getBits (519 : Word) 0 8)) = true ∧
  wFaultReleaseEndsAReaction9.Admits World.secure 24 0 false ∧ wFaultReleaseEndsAReaction9.bit Reg.FLT_STATUS_C3
    = false ∧ (8 ≤ getBits (520 : Word) 0 8 ∨ (wFaultReleaseEndsAReaction9.tch (getBits (520 : Word) 0 8)).contained
    = false) ∧
  wFaultReleaseEndsAReaction10.Admits World.secure 24 0 false ∧ wFaultReleaseEndsAReaction10.bit Reg.FLT_STATUS_C3
    = false ∧ wFaultReleaseEndsAReaction10.audQuiet = true ∧
  wFaultReleaseEndsAReaction11.Admits World.secure 24 0 false ∧ wFaultReleaseEndsAReaction11.bit Reg.FLT_STATUS_C3
    = false ∧ wFaultReleaseEndsAReaction11.audQuiet = false := by
  try unfold State.Admits
  try unfold State.SourceFree
  try unfold State.LogRoom
  decide +kernel

def wTollRunsStopsAndResumes1 : State := st [(Reg.FLT_CTRL_LOCK, 0), (Reg.FLT_TOLL_CTRL_ARM, 0)]
def wTollRunsStopsAndResumes2 : State := st [(Reg.FLT_CTRL_LOCK, 0), (Reg.FLT_TOLL_CTRL_ARM, 1)]
def wTollRunsStopsAndResumes3 : State := st [(Reg.FLT_CTRL_LOCK, 1), (Reg.FLT_TOLL_CTRL_ARM, 1)]
def wTollRunsStopsAndResumes4 : State := st [(Reg.FLT_TOLL_CTRL_ARM, 1), (Reg.FLT_TOLL_STATUS_RUNNING, 0),
  (Reg.FLT_TOLL_STATUS_STOP_CAUSE, 2), (Reg.FLT_TOLL_CTRL_RESUME_OK, 1), (Reg.FLT_STATUS_HEALTHY, 1),
  (Reg.FLT_STATUS_C3, 0)]
def wTollRunsStopsAndResumes5 : State := st [(Reg.BOOT_STATUS_ANCHOR, 1)]
def wTollRunsStopsAndResumes6 : State := st [(Reg.FLT_SELFTEST_GO, 1)]
def wTollRunsStopsAndResumes7 : State := st [(Reg.FLT_TOLL_STATUS_RUNNING, 1)]

set_option synthInstance.maxHeartbeats 400000 in
set_option synthInstance.maxSize 4000 in
theorem witness_TollRunsStopsAndResumes :
  wTollRunsStopsAndResumes1.Admits World.secure 24 0 false ∧ wTollRunsStopsAndResumes1.bit Reg.FLT_CTRL_LOCK = false
    ∧ wTollRunsStopsAndResumes1.bit Reg.FLT_TOLL_CTRL_ARM = false ∧ (wTollRunsStopsAndResumes1.bit Reg.FLT_TOLL_CTRL_ARM
    = false ∨ wTollRunsStopsAndResumes1.bit Reg.FLT_TOLL_STATUS_RUNNING = true ∨ wTollRunsStopsAndResumes1.get Reg.FLT_TOLL_STATUS_STOP_CAUSE
    ≠ 2 ∨ wTollRunsStopsAndResumes1.bit Reg.FLT_TOLL_CTRL_RESUME_OK = false ∨ (wTollRunsStopsAndResumes1.bit Reg.FLT_STATUS_HEALTHY
    && !wTollRunsStopsAndResumes1.bit Reg.FLT_STATUS_C3) = false) ∧ (wTollRunsStopsAndResumes1.bit Reg.BOOT_STATUS_ANCHOR
    || wTollRunsStopsAndResumes1.bit Reg.FLT_STATUS_C3) = false ∧ wTollRunsStopsAndResumes1.bit Reg.FLT_SELFTEST_GO
    = false ∧ wTollRunsStopsAndResumes1.bit Reg.FLT_TOLL_STATUS_RUNNING = false ∧
  wTollRunsStopsAndResumes2.Admits World.secure 24 0 false ∧ wTollRunsStopsAndResumes2.bit Reg.FLT_CTRL_LOCK = false
    ∧ wTollRunsStopsAndResumes2.bit Reg.FLT_TOLL_CTRL_ARM = true ∧
  wTollRunsStopsAndResumes3.Admits World.secure 24 0 false ∧ wTollRunsStopsAndResumes3.bit Reg.FLT_CTRL_LOCK = true
    ∧ wTollRunsStopsAndResumes3.bit Reg.FLT_TOLL_CTRL_ARM = true ∧
  wTollRunsStopsAndResumes4.Admits World.secure 24 0 false ∧ wTollRunsStopsAndResumes4.bit Reg.FLT_TOLL_CTRL_ARM
    = true ∧ wTollRunsStopsAndResumes4.bit Reg.FLT_TOLL_STATUS_RUNNING = false ∧ wTollRunsStopsAndResumes4.get Reg.FLT_TOLL_STATUS_STOP_CAUSE
    = 2 ∧ wTollRunsStopsAndResumes4.bit Reg.FLT_TOLL_CTRL_RESUME_OK = true ∧ (wTollRunsStopsAndResumes4.bit Reg.FLT_STATUS_HEALTHY
    && !wTollRunsStopsAndResumes4.bit Reg.FLT_STATUS_C3) = true ∧
  wTollRunsStopsAndResumes5.Admits World.secure 24 0 false ∧ (wTollRunsStopsAndResumes5.bit Reg.BOOT_STATUS_ANCHOR
    || wTollRunsStopsAndResumes5.bit Reg.FLT_STATUS_C3) = true ∧
  wTollRunsStopsAndResumes6.bit Reg.FLT_SELFTEST_GO = true ∧
  wTollRunsStopsAndResumes7.bit Reg.FLT_TOLL_STATUS_RUNNING = true ∧ wTollRunsStopsAndResumes7.SourceFree 133
    ∧ wTollRunsStopsAndResumes7.LogRoom := by
  try unfold State.Admits
  try unfold State.SourceFree
  try unfold State.LogRoom
  decide +kernel

def wSupplyWarningBeginsABrownout1 : State := st [(if false = true then Reg.PWR_WARN_CFG_PF_EN else Reg.PWR_WARN_CFG_VIN_EN, 0)]
def wSupplyWarningBeginsABrownout2 : State := st [(if false = true then Reg.PWR_WARN_CFG_PF_EN else Reg.PWR_WARN_CFG_VIN_EN, 1),
  (Reg.PWR_WARN_STATUS_PF_LOW, 1)]
def wSupplyWarningBeginsABrownout3 : State := st [(if false = true then Reg.PWR_WARN_CFG_PF_EN else Reg.PWR_WARN_CFG_VIN_EN, 1),
  (Reg.PWR_WARN_STATUS_PF_LOW, 0), (Reg.PWR_WARN_STATUS_VIN_LOW, 0), (Reg.FLT_STATUS_BROWNOUT, 0)]
def wSupplyWarningBeginsABrownout4 : State := st [(Reg.FLT_STATUS_BROWNOUT, 1)]
def wSupplyWarningBeginsABrownout5 : State := st [(Reg.FLT_STATUS_BROWNOUT, 1), (Reg.PWR_WARN_STATUS_PF_LOW, 1)]

set_option synthInstance.maxHeartbeats 400000 in
set_option synthInstance.maxSize 4000 in
theorem witness_SupplyWarningBeginsABrownout :
  wSupplyWarningBeginsABrownout1.bit (if false = true then Reg.PWR_WARN_CFG_PF_EN else Reg.PWR_WARN_CFG_VIN_EN)
    = false ∧ wSupplyWarningBeginsABrownout1.brownout = false ∧
  wSupplyWarningBeginsABrownout2.bit (if false = true then Reg.PWR_WARN_CFG_PF_EN else Reg.PWR_WARN_CFG_VIN_EN)
    = true ∧ (wSupplyWarningBeginsABrownout2.bit Reg.PWR_WARN_STATUS_PF_LOW || wSupplyWarningBeginsABrownout2.bit Reg.PWR_WARN_STATUS_VIN_LOW)
    = true ∧
  wSupplyWarningBeginsABrownout3.bit (if false = true then Reg.PWR_WARN_CFG_PF_EN else Reg.PWR_WARN_CFG_VIN_EN)
    = true ∧ (wSupplyWarningBeginsABrownout3.bit Reg.PWR_WARN_STATUS_PF_LOW || wSupplyWarningBeginsABrownout3.bit Reg.PWR_WARN_STATUS_VIN_LOW)
    = false ∧ wSupplyWarningBeginsABrownout3.brownout = false ∧
  wSupplyWarningBeginsABrownout4.brownout = true ∧ wSupplyWarningBeginsABrownout4.SourceFree 123 ∧ (wSupplyWarningBeginsABrownout4.bit Reg.PWR_WARN_STATUS_PF_LOW
    || wSupplyWarningBeginsABrownout4.bit Reg.PWR_WARN_STATUS_VIN_LOW) = false ∧
  wSupplyWarningBeginsABrownout5.brownout = true ∧ (wSupplyWarningBeginsABrownout5.bit Reg.PWR_WARN_STATUS_PF_LOW
    || wSupplyWarningBeginsABrownout5.bit Reg.PWR_WARN_STATUS_VIN_LOW) = true := by
  try unfold State.Admits
  try unfold State.SourceFree
  try unfold State.LogRoom
  decide +kernel

def wCheckValueChainIsControlled1 : State := st [(Reg.CRC_STATUS_BUSY 0, 0)]
def wCheckValueChainIsControlled2 : State := st [(Reg.CRC_CFG_WIDTH 0, 7)]
def wCheckValueChainIsControlled3 : State := st [(Reg.CRC_STATUS_BUSY 0, 1)]
def wCheckValueChainIsControlled4 : State := (st [(Reg.CRC_STATUS_BUSY 0, 1)]).setCrcU 0 { State.reset.crcU 0 with done := true, irq := false, halted := false, last := false }
def wCheckValueChainIsControlled5 : State := (st [(Reg.CRC_STATUS_BUSY 0, 1), (Reg.CRC_STATUS_DONE 0, 0)]).setCrcU 0 { State.reset.crcU 0 with done := true, irq := false, halted := true }
def wCheckValueChainIsControlled6 : State := (st [(Reg.CRC_STATUS_BUSY 0, 1), (Reg.CRC_STATUS_DESC_IRQ 0, 0)]).setCrcU 0 { State.reset.crcU 0 with done := true, irq := true, cut := false, halted := false, last := false }
def wCheckValueChainIsControlled7 : State := (st [(Reg.CRC_STATUS_BUSY 0, 1), (Reg.CRC_STATUS_DESC_IRQ 0, 0),
  (Reg.CRC_STATUS_DONE 0, 0)]).setCrcU 0 { State.reset.crcU 0 with done := true, irq := true, cut := false, halted := true }
def wCheckValueChainIsControlled8 : State := st [(Reg.CRC_CTRL_SELFTEST 0, 1), (Reg.CRC_STATUS_ST_DONE 0, 1)]
def wCheckValueChainIsControlled9 : State := st [(Reg.CRC_CTRL_SELFTEST 0, 1), (Reg.CRC_STATUS_ST_DONE 0, 0)]

set_option synthInstance.maxHeartbeats 400000 in
set_option synthInstance.maxSize 4000 in
theorem witness_CheckValueChainIsControlled :
  wCheckValueChainIsControlled1.SourceFree (100 + 0) ∧ wCheckValueChainIsControlled1.Admits World.secure 25 0 false
    ∧ wCheckValueChainIsControlled1.crcBusy 0 = false ∧ (wCheckValueChainIsControlled1.crcParams 0).good = true
    ∧ (wCheckValueChainIsControlled1.crcBusy 0 = false ∨ (wCheckValueChainIsControlled1.crcU 0).done = false)
    ∧ wCheckValueChainIsControlled1.bit (Reg.CRC_CTRL_SELFTEST 0) = false ∧
  wCheckValueChainIsControlled2.SourceFree (100 + 0) ∧ wCheckValueChainIsControlled2.Admits World.secure 25 0 false
    ∧ wCheckValueChainIsControlled2.crcBusy 0 = false ∧ (wCheckValueChainIsControlled2.crcParams 0).good = false ∧
  wCheckValueChainIsControlled3.SourceFree (100 + 0) ∧ wCheckValueChainIsControlled3.Admits World.secure 25 0 false
    ∧ wCheckValueChainIsControlled3.crcBusy 0 = true ∧
  wCheckValueChainIsControlled4.SourceFree (100 + 0) ∧ wCheckValueChainIsControlled4.crcBusy 0 = true ∧ (wCheckValueChainIsControlled4.crcU 0).done
    = true ∧ ((wCheckValueChainIsControlled4.crcU 0).irq = false ∨ (wCheckValueChainIsControlled4.crcU 0).cut
    = true) ∧ (wCheckValueChainIsControlled4.crcU 0).halted = false ∧ (wCheckValueChainIsControlled4.crcU 0).last
    = false ∧
  wCheckValueChainIsControlled5.SourceFree (100 + 0) ∧ wCheckValueChainIsControlled5.crcBusy 0 = true ∧ (wCheckValueChainIsControlled5.crcU 0).done
    = true ∧ ((wCheckValueChainIsControlled5.crcU 0).irq = false ∨ (wCheckValueChainIsControlled5.crcU 0).cut
    = true) ∧ ((wCheckValueChainIsControlled5.crcU 0).halted = true ∨ (wCheckValueChainIsControlled5.crcU 0).last
    = true) ∧ wCheckValueChainIsControlled5.bit (Reg.CRC_STATUS_DONE 0) = false ∧
  wCheckValueChainIsControlled6.SourceFree (100 + 0) ∧ wCheckValueChainIsControlled6.crcBusy 0 = true ∧ (wCheckValueChainIsControlled6.crcU 0).done
    = true ∧ (wCheckValueChainIsControlled6.crcU 0).irq = true ∧ (wCheckValueChainIsControlled6.crcU 0).cut = false
    ∧ (wCheckValueChainIsControlled6.crcU 0).halted = false ∧ (wCheckValueChainIsControlled6.crcU 0).last = false
    ∧ wCheckValueChainIsControlled6.bit (Reg.CRC_STATUS_DESC_IRQ 0) = false ∧
  wCheckValueChainIsControlled7.SourceFree (100 + 0) ∧ wCheckValueChainIsControlled7.crcBusy 0 = true ∧ (wCheckValueChainIsControlled7.crcU 0).done
    = true ∧ (wCheckValueChainIsControlled7.crcU 0).irq = true ∧ (wCheckValueChainIsControlled7.crcU 0).cut = false
    ∧ ((wCheckValueChainIsControlled7.crcU 0).halted = true ∨ (wCheckValueChainIsControlled7.crcU 0).last = true)
    ∧ wCheckValueChainIsControlled7.bit (Reg.CRC_STATUS_DESC_IRQ 0) = false ∧ wCheckValueChainIsControlled7.bit
    (Reg.CRC_STATUS_DONE 0) = false ∧
  wCheckValueChainIsControlled8.SourceFree (100 + 0) ∧ wCheckValueChainIsControlled8.bit
    (Reg.CRC_CTRL_SELFTEST 0) = true ∧ wCheckValueChainIsControlled8.bit (Reg.CRC_STATUS_ST_DONE 0) = true ∧
  wCheckValueChainIsControlled9.SourceFree (100 + 0) ∧ wCheckValueChainIsControlled9.bit
    (Reg.CRC_CTRL_SELFTEST 0) = true ∧ wCheckValueChainIsControlled9.bit (Reg.CRC_STATUS_ST_DONE 0) = false := by
  try unfold State.Admits
  try unfold State.SourceFree
  try unfold State.LogRoom
  decide +kernel

def wCheckValueWalkCoversItsBytes1 : State := st [(Reg.CRC_STATUS_BUSY 0, 0)]

set_option synthInstance.maxHeartbeats 400000 in
set_option synthInstance.maxSize 4000 in
theorem witness_CheckValueWalkCoversItsBytes :
  (wCheckValueWalkCoversItsBytes1.crcBusy 0 = false ∨ (wCheckValueWalkCoversItsBytes1.crcU 0).done = true ∨ wCheckValueWalkCoversItsBytes1.startWaits (wCheckValueWalkCoversItsBytes1.crcU 0).desc 64
    = true) := by
  try unfold State.Admits
  try unfold State.SourceFree
  try unfold State.LogRoom
  decide +kernel

def wRealTimeClockCountsAndLoads1 : State := st [(Reg.RTC_TRIM_TRIM, 0xFF)]
def wRealTimeClockCountsAndLoads2 : State := { st [] with rtc.setTo := none, rtc.skips := 1 }

set_option synthInstance.maxHeartbeats 400000 in
set_option synthInstance.maxSize 4000 in
theorem witness_RealTimeClockCountsAndLoads :
  wRealTimeClockCountsAndLoads1.rtc.setTo = none ∧ wRealTimeClockCountsAndLoads1.rtc.skips = 0 ∧ sext 8 (wRealTimeClockCountsAndLoads1.get Reg.RTC_TRIM_TRIM)
    < (0 : Int) ∧ wRealTimeClockCountsAndLoads1.SourceFree 120 ∧ wRealTimeClockCountsAndLoads1.Admits World.secure 28 0 false ∧
  wRealTimeClockCountsAndLoads2.rtc.setTo = none ∧ 0 < wRealTimeClockCountsAndLoads2.rtc.skips ∧ (0 : Int) ≤ sext 8 (wRealTimeClockCountsAndLoads2.get Reg.RTC_TRIM_TRIM) := by
  try unfold State.Admits
  try unfold State.SourceFree
  try unfold State.LogRoom
  decide +kernel

def wLogbookTakesFirmwareRecords1 : State := st []
def wLogbookTakesFirmwareRecords2 : State := st [(Reg.LOG_WR_CODE_CODE 0, 0x1000)]
def wLogbookTakesFirmwareRecords3 : State := { st [(Reg.LOG_WR_CODE_CODE 0, 0x1000)] with log.queue := List.replicate 64 {} }
def wLogbookTakesFirmwareRecords4 : State := st [(Reg.SESS_CTRL_LOG_ACCESS 0, 1)]

set_option synthInstance.maxHeartbeats 400000 in
set_option synthInstance.maxSize 4000 in
theorem witness_LogbookTakesFirmwareRecords :
  wLogbookTakesFirmwareRecords1.Admits World.secure 26 0 (0 == 0) ∧ (wLogbookTakesFirmwareRecords1.stagedEntry 0).code
    < 4096 ∧ wLogbookTakesFirmwareRecords1.LogRoom ∧ wLogbookTakesFirmwareRecords1.bit
    (Reg.SESS_CTRL_LOG_ACCESS 0) = false ∧
  wLogbookTakesFirmwareRecords2.Admits World.secure 26 0 (0 == 0) ∧ 4096 ≤ (wLogbookTakesFirmwareRecords2.stagedEntry 0).code
    ∧ wLogbookTakesFirmwareRecords2.LogRoom ∧
  wLogbookTakesFirmwareRecords3.Admits World.secure 26 0 (0 == 0) ∧ 4096 ≤ (wLogbookTakesFirmwareRecords3.stagedEntry 0).code
    ∧ 64 ≤ wLogbookTakesFirmwareRecords3.log.queue.length ∧ wLogbookTakesFirmwareRecords3.SourceFree 118 ∧
  wLogbookTakesFirmwareRecords4.LogRoom ∧ wLogbookTakesFirmwareRecords4.bit (Reg.SESS_CTRL_LOG_ACCESS 0) = true := by
  try unfold State.Admits
  try unfold State.SourceFree
  try unfold State.LogRoom
  decide +kernel

def wBlackBoxAppendsAndCommits1 : State := st [(Reg.BBOX_APPEND_KIND_KIND, 1)]
def wBlackBoxAppendsAndCommits2 : State := { st [(Reg.BBOX_APPEND_KIND_KIND, 2)] with bbox.queue := List.replicate 3 ⟨2, [], 1, 0, 0, false, 0⟩ }
def wBlackBoxAppendsAndCommits3 : State := st [(Reg.BBOX_APPEND_KIND_KIND, 0)]
def wBlackBoxAppendsAndCommits4 : State := { st [(Reg.BBOX_APPEND_KIND_KIND, 2)] with bbox.queue := List.replicate 12 ⟨2, [], 1, 0, 0, false, 0⟩ }
def wBlackBoxAppendsAndCommits5 : State := { st [(Reg.BBOX_STATUS_READY, 1), (Reg.BBOX_STATUS_COMMITTING, 0), (Reg.BBOX_STATUS_ERASING, 0), (Reg.BOOT_FLASH_STATUS_BUSY, 0)] with boot.running := false, bbox.queue := [⟨0, [], 0, 0, 0, false, 0⟩], bbox.full := false }
def wBlackBoxAppendsAndCommits6 : State := { st [(Reg.BBOX_STATUS_READY, 1), (Reg.BBOX_STATUS_COMMITTING, 0), (Reg.BBOX_STATUS_ERASING, 0), (Reg.BOOT_FLASH_STATUS_BUSY, 0)] with boot.running := false, bbox.queue := [⟨0, [], 0, 0, 0, false, 0⟩], bbox.full := true, bbox.erased := 16 }
def wBlackBoxAppendsAndCommits7 : State := { st [(Reg.BBOX_STATUS_READY, 1), (Reg.BBOX_STATUS_COMMITTING, 0), (Reg.BBOX_STATUS_ERASING, 0), (Reg.BOOT_FLASH_STATUS_BUSY, 0)] with boot.running := false, bbox.queue := [⟨0, [], 0, 0, 0, false, 0⟩], bbox.full := true, bbox.erased := 15 }
def wBlackBoxAppendsAndCommits8 : State := { st [(Reg.BBOX_STATUS_READY, 1), (Reg.BBOX_STATUS_COMMITTING, 0), (Reg.BBOX_STATUS_SUSPENDED, 1), (Reg.BOOT_FLASH_STATUS_BUSY, 0), (Reg.BBOX_STATUS_ERASING, 1)] with boot.running := false, bbox.queue := [⟨0, [], 0, 0, 0, false, 0⟩], bbox.full := true, bbox.erased := 15 }
def wBlackBoxAppendsAndCommits9 : State := st [(Reg.BBOX_STATUS_COMMITTING, 1)]
def wBlackBoxAppendsAndCommits10 : State := { st [(Reg.BBOX_STATUS_COMMITTING, 1)] with bbox.opening := false, bbox.inProgram := 1 }
def wBlackBoxAppendsAndCommits11 : State := { st [(Reg.BBOX_STATUS_COMMITTING, 1)] with bbox.opening := true }
def wBlackBoxAppendsAndCommits12 : State := st [(Reg.BBOX_STATUS_ERASING, 1), (Reg.BBOX_STATUS_SUSPENDED, 0)]
def wBlackBoxAppendsAndCommits13 : State := st [(Reg.BBOX_STATUS_LATE, 0)]

set_option synthInstance.maxHeartbeats 400000 in
set_option synthInstance.maxSize 4000 in
theorem witness_BlackBoxAppendsAndCommits :
  wBlackBoxAppendsAndCommits1.Admits World.secure 27 0 false ∧ wBlackBoxAppendsAndCommits1.appendFull = false
    ∧ (!kindAllowed (wBlackBoxAppendsAndCommits1.get Reg.BBOX_APPEND_KIND_KIND) wBlackBoxAppendsAndCommits1.appendOrigin)
    = false ∧ wBlackBoxAppendsAndCommits1.bbox.queue.length < 3 ∧ wBlackBoxAppendsAndCommits1.bbox.queue = []
    ∧ wBlackBoxAppendsAndCommits1.bit Reg.BBOX_STATUS_COMMITTING = false ∧ (wBlackBoxAppendsAndCommits1.bit Reg.BBOX_STATUS_ERASING
    = false ∨ wBlackBoxAppendsAndCommits1.bit Reg.BBOX_STATUS_SUSPENDED = true) ∧
  wBlackBoxAppendsAndCommits2.Admits World.secure 27 0 false ∧ wBlackBoxAppendsAndCommits2.appendFull = false
    ∧ (!kindAllowed (wBlackBoxAppendsAndCommits2.get Reg.BBOX_APPEND_KIND_KIND) wBlackBoxAppendsAndCommits2.appendOrigin)
    = false ∧ wBlackBoxAppendsAndCommits2.bbox.queue.length = 3 ∧ wBlackBoxAppendsAndCommits2.bbox.queue ≠ [] ∧
  wBlackBoxAppendsAndCommits3.Admits World.secure 27 0 false ∧ wBlackBoxAppendsAndCommits3.appendFull = false
    ∧ (!kindAllowed (wBlackBoxAppendsAndCommits3.get Reg.BBOX_APPEND_KIND_KIND) wBlackBoxAppendsAndCommits3.appendOrigin)
    = true ∧
  wBlackBoxAppendsAndCommits4.Admits World.secure 27 0 false ∧ wBlackBoxAppendsAndCommits4.appendFull = true ∧ (!kindAllowed (wBlackBoxAppendsAndCommits4.get Reg.BBOX_APPEND_KIND_KIND) wBlackBoxAppendsAndCommits4.appendOrigin)
    = false ∧ wBlackBoxAppendsAndCommits4.bit Reg.BBOX_STATUS_FULL = false ∧ wBlackBoxAppendsAndCommits4.SourceFree 119 ∧
  wBlackBoxAppendsAndCommits5.bit Reg.BBOX_STATUS_READY = true ∧ wBlackBoxAppendsAndCommits5.bboxActive = false
    ∧ wBlackBoxAppendsAndCommits5.boot.running = false ∧ wBlackBoxAppendsAndCommits5.bbox.queue ≠ [] ∧ wBlackBoxAppendsAndCommits5.bit Reg.BOOT_FLASH_STATUS_BUSY
    = false ∧ wBlackBoxAppendsAndCommits5.bbox.full = false ∧
  wBlackBoxAppendsAndCommits6.bit Reg.BBOX_STATUS_READY = true ∧ wBlackBoxAppendsAndCommits6.bboxActive = false
    ∧ wBlackBoxAppendsAndCommits6.boot.running = false ∧ wBlackBoxAppendsAndCommits6.bbox.queue ≠ [] ∧ wBlackBoxAppendsAndCommits6.bit Reg.BOOT_FLASH_STATUS_BUSY
    = false ∧ wBlackBoxAppendsAndCommits6.bbox.full = true ∧ 16 ≤ wBlackBoxAppendsAndCommits6.bbox.erased ∧
  wBlackBoxAppendsAndCommits7.bit Reg.BBOX_STATUS_READY = true ∧ wBlackBoxAppendsAndCommits7.bboxActive = false
    ∧ wBlackBoxAppendsAndCommits7.boot.running = false ∧ wBlackBoxAppendsAndCommits7.bbox.queue ≠ [] ∧ wBlackBoxAppendsAndCommits7.bit Reg.BOOT_FLASH_STATUS_BUSY
    = false ∧ wBlackBoxAppendsAndCommits7.bbox.full = true ∧ wBlackBoxAppendsAndCommits7.bbox.erased < 16 ∧ wBlackBoxAppendsAndCommits7.bit Reg.BBOX_STATUS_ERASING
    = false ∧
  wBlackBoxAppendsAndCommits8.bit Reg.BBOX_STATUS_READY = true ∧ wBlackBoxAppendsAndCommits8.bboxActive = false
    ∧ wBlackBoxAppendsAndCommits8.boot.running = false ∧ wBlackBoxAppendsAndCommits8.bbox.queue ≠ [] ∧ wBlackBoxAppendsAndCommits8.bit Reg.BOOT_FLASH_STATUS_BUSY
    = false ∧ wBlackBoxAppendsAndCommits8.bbox.full = true ∧ wBlackBoxAppendsAndCommits8.bbox.erased < 16 ∧ wBlackBoxAppendsAndCommits8.bit Reg.BBOX_STATUS_ERASING
    = true ∧
  wBlackBoxAppendsAndCommits9.bit Reg.BBOX_STATUS_COMMITTING = true ∧
  wBlackBoxAppendsAndCommits10.bit Reg.BBOX_STATUS_COMMITTING = true ∧ wBlackBoxAppendsAndCommits10.bbox.opening
    = false ∧ wBlackBoxAppendsAndCommits10.bbox.inProgram = 1 ∧
  wBlackBoxAppendsAndCommits11.bit Reg.BBOX_STATUS_COMMITTING = true ∧ wBlackBoxAppendsAndCommits11.bbox.opening
    = true ∧ wBlackBoxAppendsAndCommits11.flashErased (wBlackBoxAppendsAndCommits11.bboxSlotAt ((wBlackBoxAppendsAndCommits11.get Reg.BBOX_HEAD_PAGE + 1) % 128) 0) 64
    = true ∧
  wBlackBoxAppendsAndCommits12.bit Reg.BBOX_STATUS_ERASING = true ∧ wBlackBoxAppendsAndCommits12.bit Reg.BBOX_STATUS_SUSPENDED
    = false ∧
  wBlackBoxAppendsAndCommits13.bit Reg.BBOX_STATUS_LATE = false ∧ wBlackBoxAppendsAndCommits13.SourceFree 119
    ∧ wBlackBoxAppendsAndCommits13.LogRoom := by
  try unfold State.Admits
  try unfold State.SourceFree
  try unfold State.LogRoom
  decide +kernel

def wWearSamplesAndRepairs1 : State := st []
def wWearSamplesAndRepairs2 : State := st []
def wWearSamplesAndRepairs3 : State := st [(Reg.WEAR_WORN_MARK, 1)]
def wWearSamplesAndRepairs4 : State := { st [(Reg.WEAR_OTP_STATUS_BUSY, 1)] with wear.target := 255 }

set_option synthInstance.maxHeartbeats 400000 in
set_option synthInstance.maxSize 4000 in
theorem witness_WearSamplesAndRepairs :
  (∀ (k : Nat), k < 32 → decide (max 1 (wWearSamplesAndRepairs1.get Reg.WEAR_CFG_PERSIST) ≤ if ((List.replicate 32 (65535 : BitVec 16)).getD k (0 : BitVec 16)).toNat
    < wWearSamplesAndRepairs1.get Reg.WEAR_THRESH_WORN_THRESH then sget (fun x => 0) wWearSamplesAndRepairs1.wear.low k + 1 else 0)
    = true → bitOf (wWearSamplesAndRepairs1.get Reg.WEAR_WORN_MARK) k = true) ∧ wWearSamplesAndRepairs1.Admits World.secure 29 0 false
    ∧ wWearSamplesAndRepairs1.bit Reg.WEAR_OTP_STATUS_BUSY = false ∧ (wWearSamplesAndRepairs1.brownout = true
    ∨ (wWearSamplesAndRepairs1.softRepairs (getBits (255 : Word) 0 8)).fst + (wWearSamplesAndRepairs1.softRepairs (getBits (255 : Word) 0 8)).snd
    = 0 ∨ 64 < wWearSamplesAndRepairs1.wear.used + (wWearSamplesAndRepairs1.softRepairs (getBits (255 : Word) 0 8)).fst + (wWearSamplesAndRepairs1.softRepairs (getBits (255 : Word) 0 8)).snd) ∧
  wWearSamplesAndRepairs2.Admits World.secure 29 0 false ∧ bitOf (wWearSamplesAndRepairs2.get Reg.WEAR_WORN_MARK) 12
    = false ∧ wWearSamplesAndRepairs2.SourceFree 121 ∧
  wWearSamplesAndRepairs3.Admits World.secure 29 0 false ∧ bitOf (wWearSamplesAndRepairs3.get Reg.WEAR_WORN_MARK) 0
    = true ∧
  wWearSamplesAndRepairs4.Admits World.secure 29 0 false ∧ wWearSamplesAndRepairs4.bit Reg.WEAR_OTP_STATUS_BUSY
    = true ∧ wWearSamplesAndRepairs4.wear.used + ((wWearSamplesAndRepairs4.softRepairs wWearSamplesAndRepairs4.wear.target).fst + (wWearSamplesAndRepairs4.softRepairs wWearSamplesAndRepairs4.wear.target).snd)
    ≤ 64 ∧ wWearSamplesAndRepairs4.wear.cut = false := by
  try unfold State.Admits
  try unfold State.SourceFree
  try unfold State.LogRoom
  decide +kernel

def wAudioUnitStartsAndBellsRing1 : State := { st [(Reg.AUD_CTRL_EN, 0)] with drum.int := 250001 }
def wAudioUnitStartsAndBellsRing2 : State := { st [(Reg.AUD_STAGE_ADDR, 0xE000000)] with drum.int := 229166, drum.num := 2, drum.den := 3 }
def wAudioUnitStartsAndBellsRing3 : State := { st [(Reg.MSIDE_STATUS_STATE 0, 3), (Reg.MSIDE_CAP_USABLE 0, 480), (Reg.MSIDE_CAP_INSTALLED 0, 1), (Reg.AUD_STAGE_ADDR, 16)] with drum.int := 229166, drum.num := 2, drum.den := 3 }
def wAudioUnitStartsAndBellsRing4 : State := st [(Reg.AUD_CTRL_EN, 1)]
def wAudioUnitStartsAndBellsRing5 : State := st [(Reg.AUD_CTRL_EN, 1), (Reg.TDM_CTRL_EN 0, 1)]
def wAudioUnitStartsAndBellsRing6 : State := st [(Reg.AUD_DIRECT_EN (nat_lit 0), 1), (Reg.AUD_DIRECT_OUT (nat_lit 0), 0)]
def wAudioUnitStartsAndBellsRing7 : State := { st [(Reg.TDM_CTRL_EN 0, 0), (Reg.AUD_STATUS_RUNNING, 1)] with aud.stopDue := false }
def wAudioUnitStartsAndBellsRing8 : State := st [(Reg.TDM_CTRL_EN 0, 1)]
def wAudioUnitStartsAndBellsRing9 : State := { st [] with gated := [] }
def wAudioUnitStartsAndBellsRing10 : State := { st [] with gated := [] }
def wAudioUnitStartsAndBellsRing11 : State := (st []).setVoice 0 { State.reset.voice 0 with left := 1 }
def wAudioUnitStartsAndBellsRing12 : State := (st [(Reg.BELL_CADENCE_ON_MS 0, 1)]).setVoice 0 { State.reset.voice 0 with left := 0, phase := VoicePhase.tone }
def wAudioUnitStartsAndBellsRing13 : State := (st [(Reg.BELL_CADENCE_ON_MS 0, 0)]).setVoice 0 { State.reset.voice 0 with left := 0, phase := VoicePhase.tone }
def wAudioUnitStartsAndBellsRing14 : State := (st []).setVoice 0 { State.reset.voice 0 with left := 0, phase := VoicePhase.rest }

set_option synthInstance.maxHeartbeats 400000 in
set_option synthInstance.maxSize 4000 in
theorem witness_AudioUnitStartsAndBellsRing :
  wAudioUnitStartsAndBellsRing1.Admits World.secure 19 0 false ∧ wAudioUnitStartsAndBellsRing1.SourceFree 96 ∧ wAudioUnitStartsAndBellsRing1.bit Reg.AUD_CTRL_EN
    = false ∧ wAudioUnitStartsAndBellsRing1.drum.audioRate = false ∧ (wAudioUnitStartsAndBellsRing1.outProtected (getBits (0 : BitVec 32) 8 5)
    || (List.range 8).any fun q => q != 0 && wAudioUnitStartsAndBellsRing1.bit (Reg.AUD_DIRECT_EN q) && wAudioUnitStartsAndBellsRing1.get
    (Reg.AUD_DIRECT_OUT q) == getBits (0 : BitVec 32) 8 5) = false ∧ wAudioUnitStartsAndBellsRing1.Admits World.secure 20 0 (wAudioUnitStartsAndBellsRing1.tdmSecure 0)
    ∧ wAudioUnitStartsAndBellsRing1.SourceFree (97 + 0) ∧ wAudioUnitStartsAndBellsRing1.bit (Reg.TDM_CTRL_EN 0)
    = false ∧ (wAudioUnitStartsAndBellsRing1.bit Reg.AUD_STATUS_RUNNING = false ∨ wAudioUnitStartsAndBellsRing1.aud.stopDue
    = true) ∧
  wAudioUnitStartsAndBellsRing2.Admits World.secure 19 0 false ∧ wAudioUnitStartsAndBellsRing2.SourceFree 96 ∧ wAudioUnitStartsAndBellsRing2.bit Reg.AUD_CTRL_EN
    = false ∧ wAudioUnitStartsAndBellsRing2.drum.audioRate = true ∧ wAudioUnitStartsAndBellsRing2.installedRam wAudioUnitStartsAndBellsRing2.stageAddr 15360
    = false ∧
  wAudioUnitStartsAndBellsRing3.Admits World.secure 19 0 false ∧ wAudioUnitStartsAndBellsRing3.SourceFree 96 ∧ wAudioUnitStartsAndBellsRing3.bit Reg.AUD_CTRL_EN
    = false ∧ wAudioUnitStartsAndBellsRing3.drum.audioRate = true ∧ wAudioUnitStartsAndBellsRing3.installedRam wAudioUnitStartsAndBellsRing3.stageAddr 15360
    = true ∧
  wAudioUnitStartsAndBellsRing4.Admits World.secure 19 0 false ∧ wAudioUnitStartsAndBellsRing4.SourceFree 96 ∧ wAudioUnitStartsAndBellsRing4.bit Reg.AUD_CTRL_EN
    = true ∧ (wAudioUnitStartsAndBellsRing4.bit (Reg.TDM_CTRL_EN 0) || wAudioUnitStartsAndBellsRing4.bit
    (Reg.TDM_CTRL_EN 1)) = false ∧
  wAudioUnitStartsAndBellsRing5.Admits World.secure 19 0 false ∧ wAudioUnitStartsAndBellsRing5.SourceFree 96 ∧ wAudioUnitStartsAndBellsRing5.bit Reg.AUD_CTRL_EN
    = true ∧ (wAudioUnitStartsAndBellsRing5.bit (Reg.TDM_CTRL_EN 0) || wAudioUnitStartsAndBellsRing5.bit
    (Reg.TDM_CTRL_EN 1)) = true ∧ wAudioUnitStartsAndBellsRing5.Admits World.secure 20 0 (wAudioUnitStartsAndBellsRing5.tdmSecure 0)
    ∧ wAudioUnitStartsAndBellsRing5.SourceFree (97 + 0) ∧ wAudioUnitStartsAndBellsRing5.bit (Reg.TDM_CTRL_EN 0)
    = true ∧ decide (getBits (0 : BitVec 32) 1 4 = getBits (wAudioUnitStartsAndBellsRing5.reg (Reg.TDM_CTRL 0)) 1 4)
    = true ∧
  wAudioUnitStartsAndBellsRing6.Admits World.secure 19 0 false ∧ wAudioUnitStartsAndBellsRing6.SourceFree 96 ∧ (wAudioUnitStartsAndBellsRing6.outProtected (getBits (0 : BitVec 32) 8 5)
    || (List.range 8).any fun q => q != 1 && wAudioUnitStartsAndBellsRing6.bit (Reg.AUD_DIRECT_EN q) && wAudioUnitStartsAndBellsRing6.get
    (Reg.AUD_DIRECT_OUT q) == getBits (0 : BitVec 32) 8 5) = true ∧
  wAudioUnitStartsAndBellsRing7.Admits World.secure 20 0 (wAudioUnitStartsAndBellsRing7.tdmSecure 0) ∧ wAudioUnitStartsAndBellsRing7.SourceFree (97 + 0)
    ∧ wAudioUnitStartsAndBellsRing7.bit (Reg.TDM_CTRL_EN 0) = false ∧ wAudioUnitStartsAndBellsRing7.bit Reg.AUD_STATUS_RUNNING
    = true ∧ wAudioUnitStartsAndBellsRing7.aud.stopDue = false ∧
  wAudioUnitStartsAndBellsRing8.Admits World.secure 20 0 (wAudioUnitStartsAndBellsRing8.tdmSecure 0) ∧ wAudioUnitStartsAndBellsRing8.SourceFree (97 + 0)
    ∧ wAudioUnitStartsAndBellsRing8.bit (Reg.TDM_CTRL_EN 0) = true ∧ decide (getBits (4 : Word) 1 4 = getBits (wAudioUnitStartsAndBellsRing8.reg
    (Reg.TDM_CTRL 0)) 1 4) = false ∧
  wAudioUnitStartsAndBellsRing9.isGated 21 0 = false ∧ (wAudioUnitStartsAndBellsRing9.voice 0).left = 0 ∧ ((wAudioUnitStartsAndBellsRing9.voice 0).phase
    = VoicePhase.idle ∨ (wAudioUnitStartsAndBellsRing9.voice 0).phase = VoicePhase.tail) ∧
  wAudioUnitStartsAndBellsRing10.isGated 21 0 = false ∧
  (wAudioUnitStartsAndBellsRing11.voice 0).left ≠ 0 ∧
  (wAudioUnitStartsAndBellsRing12.voice 0).left = 0 ∧ (wAudioUnitStartsAndBellsRing12.voice 0).phase = VoicePhase.tone
    ∧ wAudioUnitStartsAndBellsRing12.get (Reg.BELL_CADENCE_ON_MS 0) ≠ 0 ∧
  (wAudioUnitStartsAndBellsRing13.voice 0).left = 0 ∧ (wAudioUnitStartsAndBellsRing13.voice 0).phase = VoicePhase.tone
    ∧ wAudioUnitStartsAndBellsRing13.get (Reg.BELL_CADENCE_ON_MS 0) = 0 ∧
  (wAudioUnitStartsAndBellsRing14.voice 0).left = 0 ∧ (wAudioUnitStartsAndBellsRing14.voice 0).phase = VoicePhase.rest := by
  try unfold State.Admits
  try unfold State.SourceFree
  try unfold State.LogRoom
  decide +kernel

def wAudioBlocksAndFrames1 : State := { (st [(Reg.TDM_STATUS_RUNNING 0, 1), (Reg.MSIDE_STATUS_STATE 0, 3)]).setTdm 0 { State.reset.tdm 0 with txMask := 1, frame := 0 } with aud.silent := true }
def wAudioBlocksAndFrames2 : State := { st [(Reg.AUD_STATUS_RUNNING, 1)] with aud.stopDue := true }
def wAudioBlocksAndFrames3 : State := { st [(Reg.AUD_STATUS_RUNNING, 1)] with aud.stopDue := false }
def wAudioBlocksAndFrames4 : State := ({ st [(Reg.AUD_STATUS_RUNNING, 1)] with aud.stopDue := false, gated := [], aud.downDue := false }).setVoice 0 { State.reset.voice 0 with startDue := true, stopDue := false }
def wAudioBlocksAndFrames5 : State := ({ st [(Reg.AUD_STATUS_RUNNING, 1)] with aud.stopDue := false, gated := [], aud.downDue := false }).setVoice 0 { State.reset.voice 0 with startDue := true, stopDue := false }
def wAudioBlocksAndFrames6 : State := ({ st [(Reg.AUD_STATUS_RUNNING, 1)] with aud.stopDue := false }).setVoice 0 { State.reset.voice 0 with startDue := false, phase := VoicePhase.idle }
def wAudioBlocksAndFrames7 : State := { st [] with aud.late := [0] }
def wAudioBlocksAndFrames8 : State := st [(Reg.TDM_STATUS_RUNNING 0, 1)]
def wAudioBlocksAndFrames9 : State := { (st [(Reg.TDM_STATUS_RUNNING 0, 1), (Reg.MSIDE_STATUS_STATE 0, 3)]).setTdm 0 { State.reset.tdm 0 with txMask := 1, frame := 0 } with aud.silent := false, aud.quiet := false }
def wAudioBlocksAndFrames10 : State := { (st [(Reg.TDM_STATUS_RUNNING 0, 1), (Reg.MSIDE_STATUS_STATE 0, 3)]).setTdm 0 { State.reset.tdm 0 with txMask := 1, frame := 0 } with aud.quiet := true }
def wAudioBlocksAndFrames11 : State := (st []).setNode 0 0 { State.reset.node 0 0 with wait := none, code := 0 }

set_option synthInstance.maxHeartbeats 400000 in
set_option synthInstance.maxSize 4000 in
theorem witness_AudioBlocksAndFrames :
  wAudioBlocksAndFrames1.bit Reg.AUD_STATUS_RUNNING = false ∧ wAudioBlocksAndFrames1.aud.late.contains 0 = false
    ∧ wAudioBlocksAndFrames1.bit (Reg.TDM_STATUS_RUNNING 0) = true ∧ (wAudioBlocksAndFrames1.tdm 0).frame < 40
    ∧ bitOf (wAudioBlocksAndFrames1.tdm 0).txMask 0 = true ∧ List.find? (fun r => r.snd.snd == 16 * 0 + 0) wAudioBlocksAndFrames1.aud.routes
    = none ∧ (wAudioBlocksAndFrames1.aud.silent || wAudioBlocksAndFrames1.aud.quiet || wAudioBlocksAndFrames1.startWaits (wAudioBlocksAndFrames1.aud.stage + wAudioBlocksAndFrames1.aud.sending % 2 * 7680 + 4 * (40 * (16 * 0 + 0) + (wAudioBlocksAndFrames1.tdm 0).frame)) 4)
    = true ∧ wAudioBlocksAndFrames1.Admits World.secure 19 0 (wAudioBlocksAndFrames1.nodeSecure 0 0) ∧ ((wAudioBlocksAndFrames1.node 0 0).wait.isSome
    = true ∨ getBits (0 : Word) 0 16 ≠ (wAudioBlocksAndFrames1.node 0 0).code) ∧ wAudioBlocksAndFrames1.Admits World.secure 19 0 (wAudioBlocksAndFrames1.outProtected 0) ∧
  wAudioBlocksAndFrames2.bit Reg.AUD_STATUS_RUNNING = true ∧ wAudioBlocksAndFrames2.aud.stopDue = true ∧ (wAudioBlocksAndFrames2.bit
    (Reg.TDM_STATUS_RUNNING 0) = false ∨ 40 ≤ (wAudioBlocksAndFrames2.tdm 0).frame) ∧
  wAudioBlocksAndFrames3.bit Reg.AUD_STATUS_RUNNING = true ∧ wAudioBlocksAndFrames3.aud.stopDue = false ∧
  wAudioBlocksAndFrames4.bit Reg.AUD_STATUS_RUNNING = true ∧ wAudioBlocksAndFrames4.aud.stopDue = false ∧ (wAudioBlocksAndFrames4.voice 0).startDue
    = true ∧ (wAudioBlocksAndFrames4.voice 0).stopDue = false ∧ wAudioBlocksAndFrames4.gated = [] ∧ wAudioBlocksAndFrames4.aud.downDue
    = false ∧
  wAudioBlocksAndFrames5.bit Reg.AUD_STATUS_RUNNING = true ∧ wAudioBlocksAndFrames5.aud.stopDue = false ∧ (wAudioBlocksAndFrames5.voice 0).startDue
    = true ∧ (wAudioBlocksAndFrames5.voice 0).stopDue = false ∧ wAudioBlocksAndFrames5.gated = [] ∧ wAudioBlocksAndFrames5.aud.downDue
    = false ∧
  wAudioBlocksAndFrames6.bit Reg.AUD_STATUS_RUNNING = true ∧ wAudioBlocksAndFrames6.aud.stopDue = false ∧ (wAudioBlocksAndFrames6.voice 0).startDue
    = false ∧ (wAudioBlocksAndFrames6.voice 0).phase = VoicePhase.idle ∧
  wAudioBlocksAndFrames7.aud.late.contains 0 = true ∧
  wAudioBlocksAndFrames8.bit (Reg.TDM_STATUS_RUNNING 0) = true ∧ (wAudioBlocksAndFrames8.tdm 0).frame < 40 ∧ (wAudioBlocksAndFrames8.tdm 0).txMask
    = 0 ∧
  wAudioBlocksAndFrames9.bit (Reg.TDM_STATUS_RUNNING 0) = true ∧ (wAudioBlocksAndFrames9.tdm 0).frame < 40 ∧ bitOf (wAudioBlocksAndFrames9.tdm 0).txMask 0
    = true ∧ List.find? (fun r => r.snd.snd == 16 * 0 + 0) wAudioBlocksAndFrames9.aud.routes = none ∧ (wAudioBlocksAndFrames9.aud.silent
    || wAudioBlocksAndFrames9.aud.quiet || wAudioBlocksAndFrames9.startWaits (wAudioBlocksAndFrames9.aud.stage + wAudioBlocksAndFrames9.aud.sending % 2 * 7680 + 4 * (40 * (16 * 0 + 0) + (wAudioBlocksAndFrames9.tdm 0).frame)) 4)
    = false ∧ wAudioBlocksAndFrames9.aud.quiet = false ∧
  wAudioBlocksAndFrames10.bit (Reg.TDM_STATUS_RUNNING 0) = true ∧ (wAudioBlocksAndFrames10.tdm 0).frame < 40 ∧ bitOf (wAudioBlocksAndFrames10.tdm 0).txMask 0
    = true ∧ wAudioBlocksAndFrames10.aud.quiet = true ∧
  wAudioBlocksAndFrames11.Admits World.secure 19 0 (wAudioBlocksAndFrames11.nodeSecure 0 0) ∧ (wAudioBlocksAndFrames11.node 0 0).wait
    = none ∧ getBits (0 : BitVec 32) 0 16 = (wAudioBlocksAndFrames11.node 0 0).code := by
  try unfold State.Admits
  try unfold State.SourceFree
  try unfold State.LogRoom
  decide +kernel

def wOwnerRegisterAssignsAResource1 : State := st [(Reg.HC_OWNER_LOCK 0, 1)]
def wOwnerRegisterAssignsAResource2 : State := st [(Reg.HC_STATUS_STATE 0, 3)]
def wOwnerRegisterAssignsAResource3 : State := st [(Reg.HC_STATUS_STATE 0, 1)]

set_option synthInstance.maxHeartbeats 400000 in
set_option synthInstance.maxSize 4000 in
theorem witness_OwnerRegisterAssignsAResource :
  wOwnerRegisterAssignsAResource1.Admits World.secure (ownedUnit (Owned.haptic (0 : Fin 16))).fst (ownedUnit (Owned.haptic (0 : Fin 16))).snd false
    ∧ getBits (wOwnerRegisterAssignsAResource1.reg (ownedAddr (Owned.haptic (0 : Fin 16)))) 31 1 = 1 ∧
  wOwnerRegisterAssignsAResource2.Admits World.secure (ownedUnit (Owned.haptic (0 : Fin 16))).fst (ownedUnit (Owned.haptic (0 : Fin 16))).snd false
    ∧ getBits (wOwnerRegisterAssignsAResource2.reg (ownedAddr (Owned.haptic (0 : Fin 16)))) 31 1 = 0 ∧ ((decide (getBits (258 : Word) 8 1
    = 1) && (decide (getBits (258 : Word) 0 8 = 0 ∨ ownedHandles (Owned.haptic (0 : Fin 16)) ≤ getBits (258 : Word) 12 4)
    || (ownedPeers (Owned.haptic (0 : Fin 16))).any fun b => b != ownedAddr (Owned.haptic (0 : Fin 16)) && decide (getBits (wOwnerRegisterAssignsAResource2.reg b) 8 1
    = 1) && (getBits (wOwnerRegisterAssignsAResource2.reg b) 0 8, getBits (wOwnerRegisterAssignsAResource2.reg b) 12 4)
    == (getBits (258 : Word) 0 8, getBits (258 : Word) 12 4))) = true ∨ decide ((getBits (258 : Word) 0 8, getBits (258 : Word) 12 4)
    ≠ (getBits (wOwnerRegisterAssignsAResource2.reg (ownedAddr (Owned.haptic (0 : Fin 16)))) 0 8, getBits (wOwnerRegisterAssignsAResource2.reg (ownedAddr (Owned.haptic (0 : Fin 16)))) 12 4)
    ∨ getBits (258 : Word) 8 1 ≠ getBits (wOwnerRegisterAssignsAResource2.reg (ownedAddr (Owned.haptic (0 : Fin 16)))) 8 1)
    = true ∧ (wOwnerRegisterAssignsAResource2.hcState 0 != 2 && wOwnerRegisterAssignsAResource2.hcState 0 != 3)
    = false) ∧
  wOwnerRegisterAssignsAResource3.Admits World.secure (ownedUnit (Owned.haptic (0 : Fin 16))).fst (ownedUnit (Owned.haptic (0 : Fin 16))).snd false
    ∧ getBits (wOwnerRegisterAssignsAResource3.reg (ownedAddr (Owned.haptic (0 : Fin 16)))) 31 1 = 0 ∧ ((decide (getBits (258 : Word) 8 1
    = 1) && (decide (getBits (258 : Word) 0 8 = 0 ∨ ownedHandles (Owned.haptic (0 : Fin 16)) ≤ getBits (258 : Word) 12 4)
    || (ownedPeers (Owned.haptic (0 : Fin 16))).any fun b => b != ownedAddr (Owned.haptic (0 : Fin 16)) && decide (getBits (wOwnerRegisterAssignsAResource3.reg b) 8 1
    = 1) && (getBits (wOwnerRegisterAssignsAResource3.reg b) 0 8, getBits (wOwnerRegisterAssignsAResource3.reg b) 12 4)
    == (getBits (258 : Word) 0 8, getBits (258 : Word) 12 4))) = false) ∧ (decide ((getBits (258 : Word) 0 8, getBits (258 : Word) 12 4)
    ≠ (getBits (wOwnerRegisterAssignsAResource3.reg (ownedAddr (Owned.haptic (0 : Fin 16)))) 0 8, getBits (wOwnerRegisterAssignsAResource3.reg (ownedAddr (Owned.haptic (0 : Fin 16)))) 12 4)
    ∨ getBits (258 : Word) 8 1 ≠ getBits (wOwnerRegisterAssignsAResource3.reg (ownedAddr (Owned.haptic (0 : Fin 16)))) 8 1)
    = false ∨ (wOwnerRegisterAssignsAResource3.hcState 0 != 2 && wOwnerRegisterAssignsAResource3.hcState 0 != 3)
    = true) ∧ (getBits (wOwnerRegisterAssignsAResource3.reg (ownedAddr (Owned.haptic (0 : Fin 16)))) 8 1 = 0 ∨ getBits (wOwnerRegisterAssignsAResource3.reg (ownedAddr (Owned.haptic (0 : Fin 16)))) 12 4
    < ownedHandles (Owned.haptic (0 : Fin 16))) := by
  try unfold State.Admits
  try unfold State.SourceFree
  try unfold State.LogRoom
  decide +kernel

def wStartsAndResetsOfTheDevice1 : State := { st [] with released := true }
def wStartsAndResetsOfTheDevice2 : State := { st [] with released := false }
def wStartsAndResetsOfTheDevice3 : State := st []
def wStartsAndResetsOfTheDevice4 : State := { st [(Reg.MC_STATUS_STATE 0, 2)] with released := false, wear.burnt := [] }
def wStartsAndResetsOfTheDevice5 : State := { st [] with boot.startFailed := true }
def wStartsAndResetsOfTheDevice6 : State := st [(Reg.BOOT_STATUS_ANCHOR, 0), (Reg.BOOT_STATUS_UNDERWAY, 1)]
def wStartsAndResetsOfTheDevice7 : State := st [(Reg.BOOT_STATUS_ANCHOR, 1)]

set_option synthInstance.maxHeartbeats 400000 in
set_option synthInstance.maxSize 4000 in
theorem witness_StartsAndResetsOfTheDevice :
  wStartsAndResetsOfTheDevice1.released = true ∧ wStartsAndResetsOfTheDevice1.boot.startFailed = false ∧ wStartsAndResetsOfTheDevice1.bit Reg.BOOT_STATUS_UNDERWAY
    = false ∧ wStartsAndResetsOfTheDevice1.bit Reg.BOOT_STATUS_ANCHOR = false ∧ wStartsAndResetsOfTheDevice1.Admits World.secure 30 0 false
    ∧ wStartsAndResetsOfTheDevice1.LogRoom ∧
  wStartsAndResetsOfTheDevice2.released = false ∧ wStartsAndResetsOfTheDevice2.wear.burnt = [] ∧ wStartsAndResetsOfTheDevice2.coreRuns 0
    = true ∧ { pending := wStartsAndResetsOfTheDevice2.pending, regs := wStartsAndResetsOfTheDevice2.regs, drawn := wStartsAndResetsOfTheDevice2.drawn, log := wStartsAndResetsOfTheDevice2.log, rtc := wStartsAndResetsOfTheDevice2.rtc, ic := wStartsAndResetsOfTheDevice2.ic, drum := wStartsAndResetsOfTheDevice2.drum, gated := wStartsAndResetsOfTheDevice2.gated, memA := wStartsAndResetsOfTheDevice2.memA, memB := wStartsAndResetsOfTheDevice2.memB, sram := wStartsAndResetsOfTheDevice2.sram, flash := wStartsAndResetsOfTheDevice2.flash, sides := wStartsAndResetsOfTheDevice2.sides, nextReq := wStartsAndResetsOfTheDevice2.nextReq, replies := wStartsAndResetsOfTheDevice2.replies, bbox := wStartsAndResetsOfTheDevice2.bbox, alive := wStartsAndResetsOfTheDevice2.alive, exhausted := wStartsAndResetsOfTheDevice2.exhausted, sess := wStartsAndResetsOfTheDevice2.sess, funcs := wStartsAndResetsOfTheDevice2.funcs, msix := wStartsAndResetsOfTheDevice2.msix, touch := wStartsAndResetsOfTheDevice2.touch, hap := wStartsAndResetsOfTheDevice2.hap, hapLib := wStartsAndResetsOfTheDevice2.hapLib, layers := wStartsAndResetsOfTheDevice2.layers, prots := wStartsAndResetsOfTheDevice2.prots, vins := wStartsAndResetsOfTheDevice2.vins, ports := wStartsAndResetsOfTheDevice2.ports, pipes := wStartsAndResetsOfTheDevice2.pipes, screens := wStartsAndResetsOfTheDevice2.screens, audQuiet := wStartsAndResetsOfTheDevice2.audQuiet, aud := wStartsAndResetsOfTheDevice2.aud, sxtBack := wStartsAndResetsOfTheDevice2.sxtBack, crcs := wStartsAndResetsOfTheDevice2.crcs, wear := wStartsAndResetsOfTheDevice2.wear, cores := wStartsAndResetsOfTheDevice2.cores, tags := wStartsAndResetsOfTheDevice2.tags, restartOn := wStartsAndResetsOfTheDevice2.restartOn, swdtHalf := wStartsAndResetsOfTheDevice2.swdtHalf, restartDue := wStartsAndResetsOfTheDevice2.restartDue, gateSecure := wStartsAndResetsOfTheDevice2.gateSecure, gateNoted := wStartsAndResetsOfTheDevice2.gateNoted, jtag := { ir := wStartsAndResetsOfTheDevice2.jtag.ir, width := wStartsAndResetsOfTheDevice2.jtag.width, dr := wStartsAndResetsOfTheDevice2.jtag.dr, challenge := wStartsAndResetsOfTheDevice2.jtag.challenge, used := wStartsAndResetsOfTheDevice2.jtag.used, token := wStartsAndResetsOfTheDevice2.jtag.token, cells := wStartsAndResetsOfTheDevice2.jtag.cells : JtagState }, boot := { flashBus := wStartsAndResetsOfTheDevice2.boot.flashBus, flashMode := wStartsAndResetsOfTheDevice2.boot.flashMode, flashClk := wStartsAndResetsOfTheDevice2.boot.flashClk, header := wStartsAndResetsOfTheDevice2.boot.header, script := wStartsAndResetsOfTheDevice2.boot.script, romStage := wStartsAndResetsOfTheDevice2.boot.romStage, order := wStartsAndResetsOfTheDevice2.boot.order, dead := List.map BitVec.toNat { corePower := false, sideA := (0 : Fin 4), sideB := (0 : Fin 4), fails := [], dead := [], deadAgain := [], badAgain := [] : StartFacts }.dead, deadAgain := List.map BitVec.toNat { corePower := false, sideA := (0 : Fin 4), sideB := (0 : Fin 4), fails := [], dead := [], deadAgain := [], badAgain := [] : StartFacts }.deadAgain, badAgain := List.map BitVec.toNat { corePower := false, sideA := (0 : Fin 4), sideB := (0 : Fin 4), fails := [], dead := [], deadAgain := [], badAgain := [] : StartFacts }.badAgain, startFailed := wStartsAndResetsOfTheDevice2.boot.startFailed, noChart := wStartsAndResetsOfTheDevice2.boot.noChart, wasAnchor := wStartsAndResetsOfTheDevice2.boot.wasAnchor, vaonOn := wStartsAndResetsOfTheDevice2.boot.vaonOn, running := wStartsAndResetsOfTheDevice2.boot.running, op := wStartsAndResetsOfTheDevice2.boot.op, addr := wStartsAndResetsOfTheDevice2.boot.addr, len := wStartsAndResetsOfTheDevice2.boot.len, buf := wStartsAndResetsOfTheDevice2.boot.buf, image := wStartsAndResetsOfTheDevice2.boot.image : BootState }, released := true, resetLow := false, railsOut := wStartsAndResetsOfTheDevice2.railsOut, factory := wStartsAndResetsOfTheDevice2.factory : Machine.State }.headerAt 0
    = none ∧ { pending := wStartsAndResetsOfTheDevice2.pending, regs := wStartsAndResetsOfTheDevice2.regs, drawn := wStartsAndResetsOfTheDevice2.drawn, log := wStartsAndResetsOfTheDevice2.log, rtc := wStartsAndResetsOfTheDevice2.rtc, ic := wStartsAndResetsOfTheDevice2.ic, drum := wStartsAndResetsOfTheDevice2.drum, gated := wStartsAndResetsOfTheDevice2.gated, memA := wStartsAndResetsOfTheDevice2.memA, memB := wStartsAndResetsOfTheDevice2.memB, sram := wStartsAndResetsOfTheDevice2.sram, flash := wStartsAndResetsOfTheDevice2.flash, sides := wStartsAndResetsOfTheDevice2.sides, nextReq := wStartsAndResetsOfTheDevice2.nextReq, replies := wStartsAndResetsOfTheDevice2.replies, bbox := wStartsAndResetsOfTheDevice2.bbox, alive := wStartsAndResetsOfTheDevice2.alive, exhausted := wStartsAndResetsOfTheDevice2.exhausted, sess := wStartsAndResetsOfTheDevice2.sess, funcs := wStartsAndResetsOfTheDevice2.funcs, msix := wStartsAndResetsOfTheDevice2.msix, touch := wStartsAndResetsOfTheDevice2.touch, hap := wStartsAndResetsOfTheDevice2.hap, hapLib := wStartsAndResetsOfTheDevice2.hapLib, layers := wStartsAndResetsOfTheDevice2.layers, prots := wStartsAndResetsOfTheDevice2.prots, vins := wStartsAndResetsOfTheDevice2.vins, ports := wStartsAndResetsOfTheDevice2.ports, pipes := wStartsAndResetsOfTheDevice2.pipes, screens := wStartsAndResetsOfTheDevice2.screens, audQuiet := wStartsAndResetsOfTheDevice2.audQuiet, aud := wStartsAndResetsOfTheDevice2.aud, sxtBack := wStartsAndResetsOfTheDevice2.sxtBack, crcs := wStartsAndResetsOfTheDevice2.crcs, wear := wStartsAndResetsOfTheDevice2.wear, cores := wStartsAndResetsOfTheDevice2.cores, tags := wStartsAndResetsOfTheDevice2.tags, restartOn := wStartsAndResetsOfTheDevice2.restartOn, swdtHalf := wStartsAndResetsOfTheDevice2.swdtHalf, restartDue := wStartsAndResetsOfTheDevice2.restartDue, gateSecure := wStartsAndResetsOfTheDevice2.gateSecure, gateNoted := wStartsAndResetsOfTheDevice2.gateNoted, jtag := { ir := wStartsAndResetsOfTheDevice2.jtag.ir, width := wStartsAndResetsOfTheDevice2.jtag.width, dr := wStartsAndResetsOfTheDevice2.jtag.dr, challenge := wStartsAndResetsOfTheDevice2.jtag.challenge, used := wStartsAndResetsOfTheDevice2.jtag.used, token := wStartsAndResetsOfTheDevice2.jtag.token, cells := wStartsAndResetsOfTheDevice2.jtag.cells : JtagState }, boot := { flashBus := wStartsAndResetsOfTheDevice2.boot.flashBus, flashMode := wStartsAndResetsOfTheDevice2.boot.flashMode, flashClk := wStartsAndResetsOfTheDevice2.boot.flashClk, header := wStartsAndResetsOfTheDevice2.boot.header, script := wStartsAndResetsOfTheDevice2.boot.script, romStage := wStartsAndResetsOfTheDevice2.boot.romStage, order := wStartsAndResetsOfTheDevice2.boot.order, dead := List.map BitVec.toNat { corePower := false, sideA := (0 : Fin 4), sideB := (0 : Fin 4), fails := [], dead := [], deadAgain := [], badAgain := [] : StartFacts }.dead, deadAgain := List.map BitVec.toNat { corePower := false, sideA := (0 : Fin 4), sideB := (0 : Fin 4), fails := [], dead := [], deadAgain := [], badAgain := [] : StartFacts }.deadAgain, badAgain := List.map BitVec.toNat { corePower := false, sideA := (0 : Fin 4), sideB := (0 : Fin 4), fails := [], dead := [], deadAgain := [], badAgain := [] : StartFacts }.badAgain, startFailed := wStartsAndResetsOfTheDevice2.boot.startFailed, noChart := wStartsAndResetsOfTheDevice2.boot.noChart, wasAnchor := wStartsAndResetsOfTheDevice2.boot.wasAnchor, vaonOn := wStartsAndResetsOfTheDevice2.boot.vaonOn, running := wStartsAndResetsOfTheDevice2.boot.running, op := wStartsAndResetsOfTheDevice2.boot.op, addr := wStartsAndResetsOfTheDevice2.boot.addr, len := wStartsAndResetsOfTheDevice2.boot.len, buf := wStartsAndResetsOfTheDevice2.boot.buf, image := wStartsAndResetsOfTheDevice2.boot.image : BootState }, released := true, resetLow := false, railsOut := wStartsAndResetsOfTheDevice2.railsOut, factory := wStartsAndResetsOfTheDevice2.factory : Machine.State }.headerAt 65536
    = none ∧ wStartsAndResetsOfTheDevice2.bbox.known = false ∧
  2 < 3 ∧
  wStartsAndResetsOfTheDevice4.released = false ∧ wStartsAndResetsOfTheDevice4.wear.burnt = [] ∧ wStartsAndResetsOfTheDevice4.coreRuns 0
    = false ∧
  wStartsAndResetsOfTheDevice5.boot.startFailed = true ∧ (wStartsAndResetsOfTheDevice5.bit Reg.BOOT_STATUS_UNDERWAY
    = true ∨ wStartsAndResetsOfTheDevice5.bit Reg.BOOT_STATUS_ANCHOR = true ∨ wStartsAndResetsOfTheDevice5.boot.startFailed
    = true) ∧
  wStartsAndResetsOfTheDevice6.Admits World.secure 30 0 false ∧ wStartsAndResetsOfTheDevice6.LogRoom ∧ wStartsAndResetsOfTheDevice6.bit Reg.BOOT_STATUS_ANCHOR
    = false ∧ wStartsAndResetsOfTheDevice6.bit Reg.BOOT_STATUS_UNDERWAY = true ∧
  wStartsAndResetsOfTheDevice7.Admits World.secure 30 0 false ∧ wStartsAndResetsOfTheDevice7.LogRoom ∧ wStartsAndResetsOfTheDevice7.bit Reg.BOOT_STATUS_ANCHOR
    = true := by
  try unfold State.Admits
  try unfold State.SourceFree
  try unfold State.LogRoom
  decide +kernel

def wScriptCommandsTakeTheirEffect1 : State := st [(Reg.MC_STATUS_STATE 0, 2)]
def wScriptCommandsTakeTheirEffect2 : State := { st [(Reg.BOOT_STATUS_ANCHOR, 1)] with boot.script := [⟨1, 0, 0x1000000, 0xFFFFFFFF, 0⟩] }
def wScriptCommandsTakeTheirEffect3 : State := { st [(Reg.BOOT_STATUS_ANCHOR, 1)] with boot.script := [⟨1, 0, 0x06000000, 0xFFFFFFFF, 0⟩] }
def wScriptCommandsTakeTheirEffect4 : State := { st [(Reg.BOOT_STATUS_ANCHOR, 1)] with boot.script := [⟨1, 0, 0x1000000, 0xFFFFFFFF, 0⟩] }
def wScriptCommandsTakeTheirEffect5 : State := { st [(Reg.BOOT_STATUS_ANCHOR, 1)] with boot.script := [⟨2, 0, 0x06000000, 0xFFFFFFFF, 0⟩] }
def wScriptCommandsTakeTheirEffect6 : State := { st [(Reg.BOOT_STATUS_ANCHOR, 1)] with boot.script := [⟨2, 0, 0x1000000, 0xFFFFFFFF, 0⟩] }
def wScriptCommandsTakeTheirEffect7 : State := { st [] with boot.script := [⟨3, 0, 0x02000000, 0xFFFFFFFF, 0⟩] }
def wScriptCommandsTakeTheirEffect8 : State := { st [] with boot.script := [⟨3, 0x800000, 0x02000000, 0xFFFFFFFF, 1⟩] }
def wScriptCommandsTakeTheirEffect9 : State := { st [] with boot.script := [⟨3, 0, 0x02000000, 0xFFFFFFFF, 1⟩] }
def wScriptCommandsTakeTheirEffect10 : State := { st [] with boot.script := [⟨4, 0, 0x1D000000, 0xFFFFFFFF, 0⟩] }
def wScriptCommandsTakeTheirEffect11 : State := { st [] with boot.script := [⟨5, 0, 0x1D000000, 0xFFFFFFFF, 0⟩] ++ [⟨1, 0, 0, 0, 0⟩] }
def wScriptCommandsTakeTheirEffect12 : State := { st [] with boot.romStage := 2, boot.script := [⟨5, 0, 0x1D000000, 0xFFFFFFFF, 0⟩] }
def wScriptCommandsTakeTheirEffect13 : State := { st [] with boot.romStage := 5, boot.script := [⟨5, 0, 0x1D000000, 0xFFFFFFFF, 0⟩] }
def wScriptCommandsTakeTheirEffect14 : State := { st [(Reg.BOOT_STATUS_ANCHOR, 1)] with boot.romStage := 5, boot.script := [⟨5, 0, 0x1D000000, 0xFFFFFFFF, 0⟩] }

set_option synthInstance.maxHeartbeats 400000 in
set_option synthInstance.maxSize 4000 in
theorem witness_ScriptCommandsTakeTheirEffect :
  (wScriptCommandsTakeTheirEffect1.coreRuns 0 = false ∨ wScriptCommandsTakeTheirEffect1.boot.script = []) ∧
  wScriptCommandsTakeTheirEffect2.coreRuns 0 = true ∧ wScriptCommandsTakeTheirEffect2.boot.script = [{ op := 1, param := 0, a := (16777216 : Word), b := (4294967295 : Word), c := (0 : Word) : ScriptCmd }] ∧
  wScriptCommandsTakeTheirEffect3.coreRuns 0 = true ∧ wScriptCommandsTakeTheirEffect3.boot.script = [{ op := 1, param := 0, a := (100663296 : Word), b := (4294967295 : Word), c := (0 : Word) : ScriptCmd }]
    ∧ (wScriptCommandsTakeTheirEffect3.bit Reg.BOOT_STATUS_ANCHOR && anchorSkips (BitVec.toNat { op := 1, param := 0, a := (100663296 : Word), b := (4294967295 : Word), c := (0 : Word) : ScriptCmd }.a))
    = true ∧
  wScriptCommandsTakeTheirEffect4.coreRuns 0 = true ∧ wScriptCommandsTakeTheirEffect4.boot.script = [{ op := 1, param := 0, a := (16777216 : Word), b := (4294967295 : Word), c := (0 : Word) : ScriptCmd }]
    ∧ (wScriptCommandsTakeTheirEffect4.bit Reg.BOOT_STATUS_ANCHOR && anchorSkips (BitVec.toNat { op := 1, param := 0, a := (16777216 : Word), b := (4294967295 : Word), c := (0 : Word) : ScriptCmd }.a))
    = false ∧
  wScriptCommandsTakeTheirEffect5.coreRuns 0 = true ∧ wScriptCommandsTakeTheirEffect5.boot.script = [{ op := 2, param := 0, a := (100663296 : Word), b := (4294967295 : Word), c := (0 : Word) : ScriptCmd }]
    ∧ (wScriptCommandsTakeTheirEffect5.bit Reg.BOOT_STATUS_ANCHOR && anchorSkips (BitVec.toNat { op := 2, param := 0, a := (100663296 : Word), b := (4294967295 : Word), c := (0 : Word) : ScriptCmd }.a))
    = true ∧
  wScriptCommandsTakeTheirEffect6.coreRuns 0 = true ∧ wScriptCommandsTakeTheirEffect6.boot.script = [{ op := 2, param := 0, a := (16777216 : Word), b := (4294967295 : Word), c := (0 : Word) : ScriptCmd }]
    ∧ (wScriptCommandsTakeTheirEffect6.bit Reg.BOOT_STATUS_ANCHOR && anchorSkips (BitVec.toNat { op := 2, param := 0, a := (16777216 : Word), b := (4294967295 : Word), c := (0 : Word) : ScriptCmd }.a))
    = false ∧
  wScriptCommandsTakeTheirEffect7.coreRuns 0 = true ∧ wScriptCommandsTakeTheirEffect7.boot.script = [{ op := 3, param := 0, a := (33554432 : Word), b := (4294967295 : Word), c := (0 : Word) : ScriptCmd }]
    ∧ decide (BitVec.ofNat 32 (leNat ((List.map (fun x => x.data) (wScriptCommandsTakeTheirEffect7.gridRead romMaster (BitVec.toNat { op := 3, param := 0, a := (33554432 : Word), b := (4294967295 : Word), c := (0 : Word) : ScriptCmd }.a) 4).replies).headD [])) &&& { op := 3, param := 0, a := (33554432 : Word), b := (4294967295 : Word), c := (0 : Word) : ScriptCmd }.b
    = { op := 3, param := 0, a := (33554432 : Word), b := (4294967295 : Word), c := (0 : Word) : ScriptCmd }.c)
    = true ∧
  wScriptCommandsTakeTheirEffect8.coreRuns 0 = true ∧ wScriptCommandsTakeTheirEffect8.boot.script = [{ op := 3, param := 8388608, a := (33554432 : Word), b := (4294967295 : Word), c := (1 : Word) : ScriptCmd }]
    ∧ decide (BitVec.ofNat 32 (leNat ((List.map (fun x => x.data) (wScriptCommandsTakeTheirEffect8.gridRead romMaster (BitVec.toNat { op := 3, param := 8388608, a := (33554432 : Word), b := (4294967295 : Word), c := (1 : Word) : ScriptCmd }.a) 4).replies).headD [])) &&& { op := 3, param := 8388608, a := (33554432 : Word), b := (4294967295 : Word), c := (1 : Word) : ScriptCmd }.b
    = { op := 3, param := 8388608, a := (33554432 : Word), b := (4294967295 : Word), c := (1 : Word) : ScriptCmd }.c)
    = false ∧ (wScriptCommandsTakeTheirEffect8.gridRead romMaster (BitVec.toNat { op := 3, param := 8388608, a := (33554432 : Word), b := (4294967295 : Word), c := (1 : Word) : ScriptCmd }.a) 4).LogRoom ∧
  wScriptCommandsTakeTheirEffect9.coreRuns 0 = true ∧ wScriptCommandsTakeTheirEffect9.boot.script = [{ op := 3, param := 0, a := (33554432 : Word), b := (4294967295 : Word), c := (1 : Word) : ScriptCmd }]
    ∧ decide (BitVec.ofNat 32 (leNat ((List.map (fun x => x.data) (wScriptCommandsTakeTheirEffect9.gridRead romMaster (BitVec.toNat { op := 3, param := 0, a := (33554432 : Word), b := (4294967295 : Word), c := (1 : Word) : ScriptCmd }.a) 4).replies).headD [])) &&& { op := 3, param := 0, a := (33554432 : Word), b := (4294967295 : Word), c := (1 : Word) : ScriptCmd }.b
    = { op := 3, param := 0, a := (33554432 : Word), b := (4294967295 : Word), c := (1 : Word) : ScriptCmd }.c)
    = false ∧
  wScriptCommandsTakeTheirEffect10.coreRuns 0 = true ∧ wScriptCommandsTakeTheirEffect10.boot.script = [{ op := 4, param := 0, a := (486539264 : Word), b := (4294967295 : Word), c := (0 : Word) : ScriptCmd }] ∧
  wScriptCommandsTakeTheirEffect11.coreRuns 0 = true ∧ wScriptCommandsTakeTheirEffect11.boot.script = [{ op := 5, param := 0, a := (486539264 : Word), b := (4294967295 : Word), c := (0 : Word) : ScriptCmd }, { op := 1, param := 0, a := (0 : Word), b := (0 : Word), c := (0 : Word) : ScriptCmd }] ∧
  wScriptCommandsTakeTheirEffect12.coreRuns 0 = true ∧ wScriptCommandsTakeTheirEffect12.boot.script = [{ op := 5, param := 0, a := (486539264 : Word), b := (4294967295 : Word), c := (0 : Word) : ScriptCmd }]
    ∧ wScriptCommandsTakeTheirEffect12.boot.romStage = 2 ∧ wScriptCommandsTakeTheirEffect12.sideMode 0 = 0 ∧ wScriptCommandsTakeTheirEffect12.sideMode 1
    = 0 ∧
  wScriptCommandsTakeTheirEffect13.coreRuns 0 = true ∧ wScriptCommandsTakeTheirEffect13.boot.script = [{ op := 5, param := 0, a := (486539264 : Word), b := (4294967295 : Word), c := (0 : Word) : ScriptCmd }]
    ∧ wScriptCommandsTakeTheirEffect13.boot.romStage = 5 ∧ wScriptCommandsTakeTheirEffect13.bit Reg.BOOT_STATUS_ANCHOR
    = false ∧
  wScriptCommandsTakeTheirEffect14.coreRuns 0 = true ∧ wScriptCommandsTakeTheirEffect14.boot.script = [{ op := 5, param := 0, a := (486539264 : Word), b := (4294967295 : Word), c := (0 : Word) : ScriptCmd }]
    ∧ wScriptCommandsTakeTheirEffect14.boot.romStage = 5 ∧ wScriptCommandsTakeTheirEffect14.bit Reg.BOOT_STATUS_ANCHOR
    = true ∧ wScriptCommandsTakeTheirEffect14.bit (Reg.GP_CTRL_LOCK 0) = false ∧ (∀ (n : Nat), n < 256 → (2 ≤ n → wScriptCommandsTakeTheirEffect14.sessActive n
    = false) ∧ ∀ (k : Nat), k < 16 → wScriptCommandsTakeTheirEffect14.bit (Reg.SESS_WIN_CTRL_VALID n k) = false)
    ∧ wScriptCommandsTakeTheirEffect14.bit (Reg.SESS_CTRL_LOCK 255) = false := by
  try unfold State.Admits
  try unfold State.SourceFree
  try unfold State.LogRoom
  decide +kernel

def wFlashCommandsReadProgramErase1 : State := { st [(Reg.BOOT_FLASH_STATUS_BUSY, 1)] with boot.running := true, boot.op := 0, boot.buf := 0xF00000000, boot.len := 4 }
def wFlashCommandsReadProgramErase2 : State := st [(Reg.BOOT_FLASH_STATUS_BUSY, 0)]
def wFlashCommandsReadProgramErase3 : State := { st [(Reg.BOOT_FLASH_ADDR_ADDR, 0x1000000)] with boot.header := List.replicate 56 0 ++ [0, 0, 0, 8, 0, 0, 0, 0], bbox.offset := 0x4000000 }
def wFlashCommandsReadProgramErase4 : State := { st [(Reg.BOOT_FLASH_ADDR_ADDR, 0x1000000)] with boot.header := List.replicate 56 0 ++ [0, 0, 0, 8, 0, 0, 0, 0], bbox.offset := 0x4000000 }
def wFlashCommandsReadProgramErase5 : State := { st [(Reg.BOOT_FLASH_ADDR_ADDR, 0x1000000)] with boot.header := List.replicate 56 0 ++ [0, 0, 0, 8, 0, 0, 0, 0], bbox.offset := 0x4000000 }
def wFlashCommandsReadProgramErase6 : State := { st [(Reg.BOOT_FLASH_STATUS_BUSY, 1)] with boot.running := true, boot.op := 1, boot.len := 1 }
def wFlashCommandsReadProgramErase7 : State := { st [(Reg.BOOT_FLASH_STATUS_BUSY, 1)] with boot.running := true, boot.op := 1, boot.len := 0 }
def wFlashCommandsReadProgramErase8 : State := { st [(Reg.BOOT_FLASH_STATUS_BUSY, 1)] with boot.running := true, boot.op := 2 }

set_option synthInstance.maxHeartbeats 400000 in
set_option synthInstance.maxSize 4000 in
theorem witness_FlashCommandsReadProgramErase :
  wFlashCommandsReadProgramErase1.Admits World.secure 30 0 false ∧ wFlashCommandsReadProgramErase1.bit Reg.BOOT_FLASH_STATUS_BUSY
    = true ∧ wFlashCommandsReadProgramErase1.flashRuns = true ∧ wFlashCommandsReadProgramErase1.boot.op = 0 ∧ (wFlashCommandsReadProgramErase1.writeMem World.secure wFlashCommandsReadProgramErase1.boot.buf (wFlashCommandsReadProgramErase1.flashBytes wFlashCommandsReadProgramErase1.boot.addr wFlashCommandsReadProgramErase1.boot.len)).fst
    = WrRes.ok ∧ region wFlashCommandsReadProgramErase1.boot.buf = Region.sram 0 ∧ wFlashCommandsReadProgramErase1.installed wFlashCommandsReadProgramErase1.boot.buf wFlashCommandsReadProgramErase1.boot.len
    = true ∧
  wFlashCommandsReadProgramErase2.Admits World.secure 30 0 false ∧ wFlashCommandsReadProgramErase2.bit Reg.BOOT_FLASH_STATUS_BUSY
    = false ∧ ((decide (wFlashCommandsReadProgramErase2.flashSize < wFlashCommandsReadProgramErase2.get Reg.BOOT_FLASH_ADDR_ADDR + (getBits (0 : BitVec 32) 0 24 + 1))
    || 0 != 0 && !wFlashCommandsReadProgramErase2.bit Reg.BOOT_STATUS_ANCHOR && (decide (wFlashCommandsReadProgramErase2.get Reg.BOOT_FLASH_ADDR_ADDR
    < 0 + 80 ∧ 0 < wFlashCommandsReadProgramErase2.get Reg.BOOT_FLASH_ADDR_ADDR + (getBits (0 : BitVec 32) 0 24 + 1))
    || decide (wFlashCommandsReadProgramErase2.get Reg.BOOT_FLASH_ADDR_ADDR < 65536 + 80 ∧ 65536 < wFlashCommandsReadProgramErase2.get Reg.BOOT_FLASH_ADDR_ADDR + (getBits (0 : BitVec 32) 0 24 + 1))
    || decide (wFlashCommandsReadProgramErase2.get Reg.BOOT_FLASH_ADDR_ADDR < wFlashCommandsReadProgramErase2.slotOff 2 + wFlashCommandsReadProgramErase2.slotLen 2
    ∧ wFlashCommandsReadProgramErase2.slotOff 2 < wFlashCommandsReadProgramErase2.get Reg.BOOT_FLASH_ADDR_ADDR + (getBits (0 : BitVec 32) 0 24 + 1)))
    || 0 != 0 && decide (wFlashCommandsReadProgramErase2.get Reg.BOOT_FLASH_ADDR_ADDR < wFlashCommandsReadProgramErase2.bbox.offset + 8388608
    ∧ wFlashCommandsReadProgramErase2.bbox.offset < wFlashCommandsReadProgramErase2.get Reg.BOOT_FLASH_ADDR_ADDR + (getBits (0 : BitVec 32) 0 24 + 1))
    || (wFlashCommandsReadProgramErase2.get Reg.BOOT_FLASH_ADDR_ADDR % if 0 = 2 then 4096 else if 0 = 3 then 65536 else 1) != 0
    || ((getBits (0 : BitVec 32) 0 24 + 1) % if 0 = 2 then 4096 else if 0 = 3 then 65536 else 1) != 0) = true)
    ∧ ((decide (wFlashCommandsReadProgramErase2.flashSize < wFlashCommandsReadProgramErase2.get Reg.BOOT_FLASH_ADDR_ADDR + (getBits (0 : BitVec 32) 0 24 + 1))
    || 1 != 0 && !wFlashCommandsReadProgramErase2.bit Reg.BOOT_STATUS_ANCHOR && (decide (wFlashCommandsReadProgramErase2.get Reg.BOOT_FLASH_ADDR_ADDR
    < 0 + 80 ∧ 0 < wFlashCommandsReadProgramErase2.get Reg.BOOT_FLASH_ADDR_ADDR + (getBits (0 : BitVec 32) 0 24 + 1))
    || decide (wFlashCommandsReadProgramErase2.get Reg.BOOT_FLASH_ADDR_ADDR < 65536 + 80 ∧ 65536 < wFlashCommandsReadProgramErase2.get Reg.BOOT_FLASH_ADDR_ADDR + (getBits (0 : BitVec 32) 0 24 + 1))
    || decide (wFlashCommandsReadProgramErase2.get Reg.BOOT_FLASH_ADDR_ADDR < wFlashCommandsReadProgramErase2.slotOff 2 + wFlashCommandsReadProgramErase2.slotLen 2
    ∧ wFlashCommandsReadProgramErase2.slotOff 2 < wFlashCommandsReadProgramErase2.get Reg.BOOT_FLASH_ADDR_ADDR + (getBits (0 : BitVec 32) 0 24 + 1)))
    || 1 != 0 && decide (wFlashCommandsReadProgramErase2.get Reg.BOOT_FLASH_ADDR_ADDR < wFlashCommandsReadProgramErase2.bbox.offset + 8388608
    ∧ wFlashCommandsReadProgramErase2.bbox.offset < wFlashCommandsReadProgramErase2.get Reg.BOOT_FLASH_ADDR_ADDR + (getBits (0 : BitVec 32) 0 24 + 1))
    || (wFlashCommandsReadProgramErase2.get Reg.BOOT_FLASH_ADDR_ADDR % if 1 = 2 then 4096 else if 1 = 3 then 65536 else 1) != 0
    || ((getBits (0 : BitVec 32) 0 24 + 1) % if 1 = 2 then 4096 else if 1 = 3 then 65536 else 1) != 0) = true)
    ∧ ((decide (wFlashCommandsReadProgramErase2.flashSize < wFlashCommandsReadProgramErase2.get Reg.BOOT_FLASH_ADDR_ADDR + (getBits (0 : BitVec 32) 0 24 + 1))
    || 2 != 0 && !wFlashCommandsReadProgramErase2.bit Reg.BOOT_STATUS_ANCHOR && (decide (wFlashCommandsReadProgramErase2.get Reg.BOOT_FLASH_ADDR_ADDR
    < 0 + 80 ∧ 0 < wFlashCommandsReadProgramErase2.get Reg.BOOT_FLASH_ADDR_ADDR + (getBits (0 : BitVec 32) 0 24 + 1))
    || decide (wFlashCommandsReadProgramErase2.get Reg.BOOT_FLASH_ADDR_ADDR < 65536 + 80 ∧ 65536 < wFlashCommandsReadProgramErase2.get Reg.BOOT_FLASH_ADDR_ADDR + (getBits (0 : BitVec 32) 0 24 + 1))
    || decide (wFlashCommandsReadProgramErase2.get Reg.BOOT_FLASH_ADDR_ADDR < wFlashCommandsReadProgramErase2.slotOff 2 + wFlashCommandsReadProgramErase2.slotLen 2
    ∧ wFlashCommandsReadProgramErase2.slotOff 2 < wFlashCommandsReadProgramErase2.get Reg.BOOT_FLASH_ADDR_ADDR + (getBits (0 : BitVec 32) 0 24 + 1)))
    || 2 != 0 && decide (wFlashCommandsReadProgramErase2.get Reg.BOOT_FLASH_ADDR_ADDR < wFlashCommandsReadProgramErase2.bbox.offset + 8388608
    ∧ wFlashCommandsReadProgramErase2.bbox.offset < wFlashCommandsReadProgramErase2.get Reg.BOOT_FLASH_ADDR_ADDR + (getBits (0 : BitVec 32) 0 24 + 1))
    || (wFlashCommandsReadProgramErase2.get Reg.BOOT_FLASH_ADDR_ADDR % if 2 = 2 then 4096 else if 2 = 3 then 65536 else 1) != 0
    || ((getBits (0 : BitVec 32) 0 24 + 1) % if 2 = 2 then 4096 else if 2 = 3 then 65536 else 1) != 0) = true)
    ∧ ((decide (wFlashCommandsReadProgramErase2.flashSize < wFlashCommandsReadProgramErase2.get Reg.BOOT_FLASH_ADDR_ADDR + (getBits (0 : BitVec 32) 0 24 + 1))
    || 3 != 0 && !wFlashCommandsReadProgramErase2.bit Reg.BOOT_STATUS_ANCHOR && (decide (wFlashCommandsReadProgramErase2.get Reg.BOOT_FLASH_ADDR_ADDR
    < 0 + 80 ∧ 0 < wFlashCommandsReadProgramErase2.get Reg.BOOT_FLASH_ADDR_ADDR + (getBits (0 : BitVec 32) 0 24 + 1))
    || decide (wFlashCommandsReadProgramErase2.get Reg.BOOT_FLASH_ADDR_ADDR < 65536 + 80 ∧ 65536 < wFlashCommandsReadProgramErase2.get Reg.BOOT_FLASH_ADDR_ADDR + (getBits (0 : BitVec 32) 0 24 + 1))
    || decide (wFlashCommandsReadProgramErase2.get Reg.BOOT_FLASH_ADDR_ADDR < wFlashCommandsReadProgramErase2.slotOff 2 + wFlashCommandsReadProgramErase2.slotLen 2
    ∧ wFlashCommandsReadProgramErase2.slotOff 2 < wFlashCommandsReadProgramErase2.get Reg.BOOT_FLASH_ADDR_ADDR + (getBits (0 : BitVec 32) 0 24 + 1)))
    || 3 != 0 && decide (wFlashCommandsReadProgramErase2.get Reg.BOOT_FLASH_ADDR_ADDR < wFlashCommandsReadProgramErase2.bbox.offset + 8388608
    ∧ wFlashCommandsReadProgramErase2.bbox.offset < wFlashCommandsReadProgramErase2.get Reg.BOOT_FLASH_ADDR_ADDR + (getBits (0 : BitVec 32) 0 24 + 1))
    || (wFlashCommandsReadProgramErase2.get Reg.BOOT_FLASH_ADDR_ADDR % if 3 = 2 then 4096 else if 3 = 3 then 65536 else 1) != 0
    || ((getBits (0 : BitVec 32) 0 24 + 1) % if 3 = 2 then 4096 else if 3 = 3 then 65536 else 1) != 0) = true)
    ∧ wFlashCommandsReadProgramErase2.flashRuns = false ∧
  wFlashCommandsReadProgramErase3.Admits World.secure 30 0 false ∧ wFlashCommandsReadProgramErase3.bit Reg.BOOT_FLASH_STATUS_BUSY
    = false ∧ ((decide (wFlashCommandsReadProgramErase3.flashSize < wFlashCommandsReadProgramErase3.get Reg.BOOT_FLASH_ADDR_ADDR + (getBits (0 : Word) 0 24 + 1))
    || 0 != 0 && !wFlashCommandsReadProgramErase3.bit Reg.BOOT_STATUS_ANCHOR && (decide (wFlashCommandsReadProgramErase3.get Reg.BOOT_FLASH_ADDR_ADDR
    < 0 + 80 ∧ 0 < wFlashCommandsReadProgramErase3.get Reg.BOOT_FLASH_ADDR_ADDR + (getBits (0 : Word) 0 24 + 1))
    || decide (wFlashCommandsReadProgramErase3.get Reg.BOOT_FLASH_ADDR_ADDR < 65536 + 80 ∧ 65536 < wFlashCommandsReadProgramErase3.get Reg.BOOT_FLASH_ADDR_ADDR + (getBits (0 : Word) 0 24 + 1))
    || decide (wFlashCommandsReadProgramErase3.get Reg.BOOT_FLASH_ADDR_ADDR < wFlashCommandsReadProgramErase3.slotOff 2 + wFlashCommandsReadProgramErase3.slotLen 2
    ∧ wFlashCommandsReadProgramErase3.slotOff 2 < wFlashCommandsReadProgramErase3.get Reg.BOOT_FLASH_ADDR_ADDR + (getBits (0 : Word) 0 24 + 1)))
    || 0 != 0 && decide (wFlashCommandsReadProgramErase3.get Reg.BOOT_FLASH_ADDR_ADDR < wFlashCommandsReadProgramErase3.bbox.offset + 8388608
    ∧ wFlashCommandsReadProgramErase3.bbox.offset < wFlashCommandsReadProgramErase3.get Reg.BOOT_FLASH_ADDR_ADDR + (getBits (0 : Word) 0 24 + 1))
    || (wFlashCommandsReadProgramErase3.get Reg.BOOT_FLASH_ADDR_ADDR % if 0 = 2 then 4096 else if 0 = 3 then 65536 else 1) != 0
    || ((getBits (0 : Word) 0 24 + 1) % if 0 = 2 then 4096 else if 0 = 3 then 65536 else 1) != 0) = false) ∧ ((decide (wFlashCommandsReadProgramErase3.flashSize
    < wFlashCommandsReadProgramErase3.get Reg.BOOT_FLASH_ADDR_ADDR + (getBits (0 : Word) 0 24 + 1)) || 1 != 0
    && !wFlashCommandsReadProgramErase3.bit Reg.BOOT_STATUS_ANCHOR && (decide (wFlashCommandsReadProgramErase3.get Reg.BOOT_FLASH_ADDR_ADDR
    < 0 + 80 ∧ 0 < wFlashCommandsReadProgramErase3.get Reg.BOOT_FLASH_ADDR_ADDR + (getBits (0 : Word) 0 24 + 1))
    || decide (wFlashCommandsReadProgramErase3.get Reg.BOOT_FLASH_ADDR_ADDR < 65536 + 80 ∧ 65536 < wFlashCommandsReadProgramErase3.get Reg.BOOT_FLASH_ADDR_ADDR + (getBits (0 : Word) 0 24 + 1))
    || decide (wFlashCommandsReadProgramErase3.get Reg.BOOT_FLASH_ADDR_ADDR < wFlashCommandsReadProgramErase3.slotOff 2 + wFlashCommandsReadProgramErase3.slotLen 2
    ∧ wFlashCommandsReadProgramErase3.slotOff 2 < wFlashCommandsReadProgramErase3.get Reg.BOOT_FLASH_ADDR_ADDR + (getBits (0 : Word) 0 24 + 1)))
    || 1 != 0 && decide (wFlashCommandsReadProgramErase3.get Reg.BOOT_FLASH_ADDR_ADDR < wFlashCommandsReadProgramErase3.bbox.offset + 8388608
    ∧ wFlashCommandsReadProgramErase3.bbox.offset < wFlashCommandsReadProgramErase3.get Reg.BOOT_FLASH_ADDR_ADDR + (getBits (0 : Word) 0 24 + 1))
    || (wFlashCommandsReadProgramErase3.get Reg.BOOT_FLASH_ADDR_ADDR % if 1 = 2 then 4096 else if 1 = 3 then 65536 else 1) != 0
    || ((getBits (0 : Word) 0 24 + 1) % if 1 = 2 then 4096 else if 1 = 3 then 65536 else 1) != 0) = false) ∧
  wFlashCommandsReadProgramErase4.Admits World.secure 30 0 false ∧ wFlashCommandsReadProgramErase4.bit Reg.BOOT_FLASH_STATUS_BUSY
    = false ∧ ((decide (wFlashCommandsReadProgramErase4.flashSize < wFlashCommandsReadProgramErase4.get Reg.BOOT_FLASH_ADDR_ADDR + (getBits (4095 : Word) 0 24 + 1))
    || 2 != 0 && !wFlashCommandsReadProgramErase4.bit Reg.BOOT_STATUS_ANCHOR && (decide (wFlashCommandsReadProgramErase4.get Reg.BOOT_FLASH_ADDR_ADDR
    < 0 + 80 ∧ 0 < wFlashCommandsReadProgramErase4.get Reg.BOOT_FLASH_ADDR_ADDR + (getBits (4095 : Word) 0 24 + 1))
    || decide (wFlashCommandsReadProgramErase4.get Reg.BOOT_FLASH_ADDR_ADDR < 65536 + 80 ∧ 65536 < wFlashCommandsReadProgramErase4.get Reg.BOOT_FLASH_ADDR_ADDR + (getBits (4095 : Word) 0 24 + 1))
    || decide (wFlashCommandsReadProgramErase4.get Reg.BOOT_FLASH_ADDR_ADDR < wFlashCommandsReadProgramErase4.slotOff 2 + wFlashCommandsReadProgramErase4.slotLen 2
    ∧ wFlashCommandsReadProgramErase4.slotOff 2 < wFlashCommandsReadProgramErase4.get Reg.BOOT_FLASH_ADDR_ADDR + (getBits (4095 : Word) 0 24 + 1)))
    || 2 != 0 && decide (wFlashCommandsReadProgramErase4.get Reg.BOOT_FLASH_ADDR_ADDR < wFlashCommandsReadProgramErase4.bbox.offset + 8388608
    ∧ wFlashCommandsReadProgramErase4.bbox.offset < wFlashCommandsReadProgramErase4.get Reg.BOOT_FLASH_ADDR_ADDR + (getBits (4095 : Word) 0 24 + 1))
    || (wFlashCommandsReadProgramErase4.get Reg.BOOT_FLASH_ADDR_ADDR % if 2 = 2 then 4096 else if 2 = 3 then 65536 else 1) != 0
    || ((getBits (4095 : Word) 0 24 + 1) % if 2 = 2 then 4096 else if 2 = 3 then 65536 else 1) != 0) = false) ∧
  wFlashCommandsReadProgramErase5.Admits World.secure 30 0 false ∧ wFlashCommandsReadProgramErase5.bit Reg.BOOT_FLASH_STATUS_BUSY
    = false ∧ ((decide (wFlashCommandsReadProgramErase5.flashSize < wFlashCommandsReadProgramErase5.get Reg.BOOT_FLASH_ADDR_ADDR + (getBits (65535 : Word) 0 24 + 1))
    || 3 != 0 && !wFlashCommandsReadProgramErase5.bit Reg.BOOT_STATUS_ANCHOR && (decide (wFlashCommandsReadProgramErase5.get Reg.BOOT_FLASH_ADDR_ADDR
    < 0 + 80 ∧ 0 < wFlashCommandsReadProgramErase5.get Reg.BOOT_FLASH_ADDR_ADDR + (getBits (65535 : Word) 0 24 + 1))
    || decide (wFlashCommandsReadProgramErase5.get Reg.BOOT_FLASH_ADDR_ADDR < 65536 + 80 ∧ 65536 < wFlashCommandsReadProgramErase5.get Reg.BOOT_FLASH_ADDR_ADDR + (getBits (65535 : Word) 0 24 + 1))
    || decide (wFlashCommandsReadProgramErase5.get Reg.BOOT_FLASH_ADDR_ADDR < wFlashCommandsReadProgramErase5.slotOff 2 + wFlashCommandsReadProgramErase5.slotLen 2
    ∧ wFlashCommandsReadProgramErase5.slotOff 2 < wFlashCommandsReadProgramErase5.get Reg.BOOT_FLASH_ADDR_ADDR + (getBits (65535 : Word) 0 24 + 1)))
    || 3 != 0 && decide (wFlashCommandsReadProgramErase5.get Reg.BOOT_FLASH_ADDR_ADDR < wFlashCommandsReadProgramErase5.bbox.offset + 8388608
    ∧ wFlashCommandsReadProgramErase5.bbox.offset < wFlashCommandsReadProgramErase5.get Reg.BOOT_FLASH_ADDR_ADDR + (getBits (65535 : Word) 0 24 + 1))
    || (wFlashCommandsReadProgramErase5.get Reg.BOOT_FLASH_ADDR_ADDR % if 3 = 2 then 4096 else if 3 = 3 then 65536 else 1) != 0
    || ((getBits (65535 : Word) 0 24 + 1) % if 3 = 2 then 4096 else if 3 = 3 then 65536 else 1) != 0) = false) ∧
  wFlashCommandsReadProgramErase6.flashRuns = true ∧ wFlashCommandsReadProgramErase6.boot.op = 1 ∧ wFlashCommandsReadProgramErase6.startWaits wFlashCommandsReadProgramErase6.boot.buf wFlashCommandsReadProgramErase6.boot.len
    = true ∧ 1 ≤ wFlashCommandsReadProgramErase6.boot.op ∧ wFlashCommandsReadProgramErase6.boot.op ≤ 3 ∧
  wFlashCommandsReadProgramErase7.flashRuns = true ∧ wFlashCommandsReadProgramErase7.boot.op = 1 ∧ wFlashCommandsReadProgramErase7.startWaits wFlashCommandsReadProgramErase7.boot.buf wFlashCommandsReadProgramErase7.boot.len
    = false ∧ (wFlashCommandsReadProgramErase7.readBytes World.secure wFlashCommandsReadProgramErase7.boot.buf wFlashCommandsReadProgramErase7.boot.len).isSome
    = true ∧
  wFlashCommandsReadProgramErase8.flashRuns = true ∧ (wFlashCommandsReadProgramErase8.boot.op = 2 ∨ wFlashCommandsReadProgramErase8.boot.op
    = 3) := by
  try unfold State.Admits
  try unfold State.SourceFree
  try unfold State.LogRoom
  decide +kernel

def wGuestMemoryPassesItsWindow1 : State := st [(Reg.GP_STATUS_LINK_UP 0, 0)]
def wGuestMemoryPassesItsWindow2 : State := (st [(Reg.GP_STATUS_LINK_UP 0, 1), (Reg.GP_STATUS_PERST 0, 0),
  (Reg.GP_STATUS_NUM_VFS 0, 0), (Reg.GP_CTRL_RELEASE 0, 1)]).setFunc (0 * 16 + 0) { State.reset.func (0 * 16 + 0) with inReset := false, ingress := [] }
def wGuestMemoryPassesItsWindow3 : State := st [(Reg.GP_STATUS_LINK_UP 0, 1), (Reg.GP_CTRL_RELEASE 0, 1),
  (Reg.SESS_CTRL_STATE 2, 1)]
def wGuestMemoryPassesItsWindow4 : State := st [(Reg.GP_STATUS_LINK_UP 0, 1), (Reg.GP_CTRL_RELEASE 0, 1),
  (Reg.SESS_CTRL_STATE 2, 1), (Reg.SESS_WIN_CTRL_VALID 2 0, 1), (Reg.SESS_WIN_CTRL_SIZE 2 0, 1),
  (Reg.SESS_QUOTA_UNITS 2, 1)]
def wGuestMemoryPassesItsWindow5 : State := (st [(Reg.GP_STATUS_LINK_UP 0, 1), (Reg.GP_CTRL_RELEASE 0, 1),
  (Reg.SESS_CTRL_STATE 2, 1), (Reg.SESS_WIN_CTRL_VALID 2 0, 1), (Reg.SESS_WIN_CTRL_SIZE 2 0, 1),
  (Reg.SESS_QUOTA_UNITS 2, 1), (Reg.MSIDE_STATUS_STATE 0, 3)]).setSes 2 { State.reset.ses 2 with tokens := 64000000 }
def wGuestMemoryPassesItsWindow6 : State := (st [(Reg.GP_STATUS_LINK_UP 0, 1), (Reg.GP_CTRL_RELEASE 0, 1),
  (Reg.SESS_CTRL_STATE 2, 1), (Reg.SESS_WIN_CTRL_VALID 2 0, 1), (Reg.SESS_WIN_CTRL_SIZE 2 0, 1),
  (Reg.SESS_QUOTA_UNITS 2, 1), (Reg.MSIDE_STATUS_STATE 0, 4)]).setSes 2 { State.reset.ses 2 with tokens := 64000000 }
def wGuestMemoryPassesItsWindow7 : State := st [(Reg.GP_STATUS_LINK_UP 0, 0)]
def wGuestMemoryPassesItsWindow8 : State := st [(Reg.GP_STATUS_LINK_UP 0, 1), (Reg.GP_CTRL_RELEASE 0, 1),
  (Reg.SESS_CTRL_STATE 2, 1)]
def wGuestMemoryPassesItsWindow9 : State := (st [(Reg.GP_STATUS_LINK_UP 0, 1), (Reg.GP_STATUS_PERST 0, 0),
  (Reg.GP_STATUS_NUM_VFS 0, 0), (Reg.GP_CTRL_RELEASE 0, 1)]).setFunc (0 * 16 + 0) { State.reset.func (0 * 16 + 0) with inReset := false, ingress := [] }

set_option synthInstance.maxHeartbeats 400000 in
set_option synthInstance.maxSize 4000 in
theorem witness_GuestMemoryPassesItsWindow :
  (wGuestMemoryPassesItsWindow1.funcAvailable 0 0 && wGuestMemoryPassesItsWindow1.bit (Reg.GP_CTRL_RELEASE 0))
    = false ∧ wGuestMemoryPassesItsWindow1.heldFuncs = [] ∧
  (wGuestMemoryPassesItsWindow2.funcAvailable 0 0 && wGuestMemoryPassesItsWindow2.bit (Reg.GP_CTRL_RELEASE 0))
    = true ∧ (wGuestMemoryPassesItsWindow2.func (0 * 16 + 0)).ingress = [] ∧ wGuestMemoryPassesItsWindow2.boundSession 0 0 0
    = none ∧
  (wGuestMemoryPassesItsWindow3.funcAvailable 0 0 && wGuestMemoryPassesItsWindow3.bit (Reg.GP_CTRL_RELEASE 0))
    = true ∧ (wGuestMemoryPassesItsWindow3.func (0 * 16 + 0)).ingress = [] ∧ wGuestMemoryPassesItsWindow3.boundSession 0 0 0
    = some 2 ∧ bitOf (BitVec.toNat (wGuestMemoryPassesItsWindow3.reg (Reg.SESS_IRQ_ENABLE 2))) irqBar2Err = false
    ∧ (wGuestMemoryPassesItsWindow3.get (Reg.SESS_QUOTA_UNITS 2) = 0 ∨ wGuestMemoryPassesItsWindow3.windowOf 2 (BitVec.toNat (0 : BitVec 34)) 8
    = none) ∧ (wGuestMemoryPassesItsWindow3.get (Reg.SESS_QUOTA_UNITS 2) = 0 ∨ wGuestMemoryPassesItsWindow3.windowOf 2 (BitVec.toNat (0 : BitVec 34)) ([] : List Byte).length
    = none ∨ wGuestMemoryPassesItsWindow3.windowOf 2 (BitVec.toNat (0 : BitVec 34)) ([] : List Byte).length = some 0
    ∧ wGuestMemoryPassesItsWindow3.bit (Reg.SESS_WIN_CTRL_GUEST_RO 2 0) = true) ∧
  (wGuestMemoryPassesItsWindow4.funcAvailable 0 0 && wGuestMemoryPassesItsWindow4.bit (Reg.GP_CTRL_RELEASE 0))
    = true ∧ (wGuestMemoryPassesItsWindow4.func (0 * 16 + 0)).ingress = [] ∧ wGuestMemoryPassesItsWindow4.boundSession 0 0 0
    = some 2 ∧ wGuestMemoryPassesItsWindow4.get (Reg.SESS_QUOTA_UNITS 2) ≠ 0 ∧ wGuestMemoryPassesItsWindow4.windowOf 2 (BitVec.toNat (0 : BitVec 34)) 8
    = some 0 ∧ (wGuestMemoryPassesItsWindow4.ses 2).tokens < 1000000 * 8 ∧ wGuestMemoryPassesItsWindow4.bit
    (Reg.SESS_WIN_CTRL_GUEST_RO 2 0) = false ∧ wGuestMemoryPassesItsWindow4.windowOf 2 (BitVec.toNat (0 : BitVec 34)) [(1 : Byte)].length
    = some 0 ∧ (wGuestMemoryPassesItsWindow4.bit Reg.PWR_WARN_STATUS_BROWNOUT = true ∨ (wGuestMemoryPassesItsWindow4.ses 2).tokens
    < 1000000 * if wGuestMemoryPassesItsWindow4.bit (Reg.SESS_WIN_CTRL_MIRRORED 2 0) = true then 2 * [(1 : Byte)].length else [(1 : Byte)].length) ∧
  (wGuestMemoryPassesItsWindow5.funcAvailable 0 0 && wGuestMemoryPassesItsWindow5.bit (Reg.GP_CTRL_RELEASE 0))
    = true ∧ (wGuestMemoryPassesItsWindow5.func (0 * 16 + 0)).ingress = [] ∧ wGuestMemoryPassesItsWindow5.boundSession 0 0 0
    = some 2 ∧ wGuestMemoryPassesItsWindow5.get (Reg.SESS_QUOTA_UNITS 2) ≠ 0 ∧ wGuestMemoryPassesItsWindow5.windowOf 2 (BitVec.toNat (0 : BitVec 34)) 8
    = some 0 ∧ 1000000 * 8 ≤ (wGuestMemoryPassesItsWindow5.ses 2).tokens ∧ wGuestMemoryPassesItsWindow5.readBytes World.normal (2097152 * wGuestMemoryPassesItsWindow5.get
    (Reg.SESS_WIN_DEV_DEV 2 0) + (BitVec.toNat (0 : BitVec 34) - 2097152 * wGuestMemoryPassesItsWindow5.get
    (Reg.SESS_WIN_GOFF_GOFF 2 0))) 8 = some ((wGuestMemoryPassesItsWindow5.readBytes World.normal (2097152 * wGuestMemoryPassesItsWindow5.get
    (Reg.SESS_WIN_DEV_DEV 2 0) + (BitVec.toNat (0 : BitVec 34) - 2097152 * wGuestMemoryPassesItsWindow5.get
    (Reg.SESS_WIN_GOFF_GOFF 2 0))) 8).getD []) ∧ wGuestMemoryPassesItsWindow5.bit (Reg.SESS_WIN_CTRL_GUEST_RO 2 0)
    = false ∧ wGuestMemoryPassesItsWindow5.windowOf 2 (BitVec.toNat (0 : BitVec 34)) [(1 : Byte)].length = some 0
    ∧ wGuestMemoryPassesItsWindow5.bit Reg.PWR_WARN_STATUS_BROWNOUT = false ∧ (1000000 * if wGuestMemoryPassesItsWindow5.bit
    (Reg.SESS_WIN_CTRL_MIRRORED 2 0) = true then 2 * [(1 : Byte)].length else [(1 : Byte)].length) ≤ (wGuestMemoryPassesItsWindow5.ses 2).tokens
    ∧ (wGuestMemoryPassesItsWindow5.writeMem World.normal (2097152 * wGuestMemoryPassesItsWindow5.get
    (Reg.SESS_WIN_DEV_DEV 2 0) + (BitVec.toNat (0 : BitVec 34) - 2097152 * wGuestMemoryPassesItsWindow5.get
    (Reg.SESS_WIN_GOFF_GOFF 2 0))) [(1 : Byte)]).fst = WrRes.ok ∧
  (wGuestMemoryPassesItsWindow6.funcAvailable 0 0 && wGuestMemoryPassesItsWindow6.bit (Reg.GP_CTRL_RELEASE 0))
    = true ∧ (wGuestMemoryPassesItsWindow6.func (0 * 16 + 0)).ingress = [] ∧ wGuestMemoryPassesItsWindow6.boundSession 0 0 0
    = some 2 ∧ wGuestMemoryPassesItsWindow6.get (Reg.SESS_QUOTA_UNITS 2) ≠ 0 ∧ wGuestMemoryPassesItsWindow6.windowOf 2 (BitVec.toNat (0 : BitVec 34)) 8
    = some 0 ∧ 1000000 * 8 ≤ (wGuestMemoryPassesItsWindow6.ses 2).tokens ∧ wGuestMemoryPassesItsWindow6.readMem World.normal (2097152 * wGuestMemoryPassesItsWindow6.get
    (Reg.SESS_WIN_DEV_DEV 2 0) + (BitVec.toNat (0 : BitVec 34) - 2097152 * wGuestMemoryPassesItsWindow6.get
    (Reg.SESS_WIN_GOFF_GOFF 2 0))) 8 = RdRes.poison ∧ wGuestMemoryPassesItsWindow6.bit
    (Reg.SESS_WIN_CTRL_GUEST_RO 2 0) = false ∧ wGuestMemoryPassesItsWindow6.windowOf 2 (BitVec.toNat (0 : BitVec 34)) [(1 : Byte)].length
    = some 0 ∧ wGuestMemoryPassesItsWindow6.bit Reg.PWR_WARN_STATUS_BROWNOUT = false ∧ (1000000 * if wGuestMemoryPassesItsWindow6.bit
    (Reg.SESS_WIN_CTRL_MIRRORED 2 0) = true then 2 * [(1 : Byte)].length else [(1 : Byte)].length) ≤ (wGuestMemoryPassesItsWindow6.ses 2).tokens
    ∧ (wGuestMemoryPassesItsWindow6.writeMem World.normal (2097152 * wGuestMemoryPassesItsWindow6.get
    (Reg.SESS_WIN_DEV_DEV 2 0) + (BitVec.toNat (0 : BitVec 34) - 2097152 * wGuestMemoryPassesItsWindow6.get
    (Reg.SESS_WIN_GOFF_GOFF 2 0))) [(1 : Byte)]).fst = WrRes.dropped ∧ bitOf (BitVec.toNat (wGuestMemoryPassesItsWindow6.reg
    (Reg.SESS_IRQ_ENABLE 2))) irqBar2Err = false ∧
  (wGuestMemoryPassesItsWindow7.funcAvailable 0 0 && wGuestMemoryPassesItsWindow7.bit (Reg.GP_CTRL_RELEASE 0))
    = false ∧
  (wGuestMemoryPassesItsWindow8.funcAvailable 0 0 && wGuestMemoryPassesItsWindow8.bit (Reg.GP_CTRL_RELEASE 0))
    = true ∧ (wGuestMemoryPassesItsWindow8.func (0 * 16 + 0)).ingress = [] ∧ wGuestMemoryPassesItsWindow8.boundSession 0 0 0
    = some 2 ∧
  (wGuestMemoryPassesItsWindow9.funcAvailable 0 0 && wGuestMemoryPassesItsWindow9.bit (Reg.GP_CTRL_RELEASE 0))
    = true ∧ (wGuestMemoryPassesItsWindow9.func (0 * 16 + 0)).ingress = [] := by
  try unfold State.Admits
  try unfold State.SourceFree
  try unfold State.LogRoom
  decide +kernel

def wScreenStartsAndStops1 : State := st [(Reg.DPO_LINK_STATUS_LINK_OK 0, 1), (Reg.DPO_LINK_STATUS_LIVE_RATE 0, 3),
  (Reg.DPO_LINK_STATUS_LIVE_LANES 0, 2), (Reg.PIPE_STATUS_STATE 0, 1), (Reg.WEAR_CFG_REMAP, 0),
  (Reg.SCREEN_TIMING_H_H_TOTAL 0, 2200), (Reg.SCREEN_TIMING_H_H_ACTIVE 0, 1920),
  (Reg.SCREEN_TIMING_HS_HS_WIDTH 0, 44), (Reg.SCREEN_TIMING_HS_HS_FP 0, 88), (Reg.SCREEN_TIMING_V_V_TOTAL 0, 1125),
  (Reg.SCREEN_TIMING_V_V_ACTIVE 0, 1080), (Reg.SCREEN_TIMING_VS_VS_WIDTH 0, 5), (Reg.SCREEN_TIMING_VS_VS_FP 0, 4),
  (Reg.SCREEN_TIMING_BEAT_BEATS 0, 4)]
def wScreenStartsAndStops2 : State := st [(Reg.DPO_LINK_STATUS_LINK_OK 0, 1), (Reg.DPO_LINK_STATUS_LIVE_RATE 0, 3),
  (Reg.DPO_LINK_STATUS_LIVE_LANES 0, 2), (Reg.PIPE_STATUS_STATE 0, 1), (Reg.WEAR_CFG_REMAP, 0),
  (Reg.SCREEN_TIMING_H_H_TOTAL 0, 2200), (Reg.SCREEN_TIMING_H_H_ACTIVE 0, 1920),
  (Reg.SCREEN_TIMING_HS_HS_WIDTH 0, 44), (Reg.SCREEN_TIMING_HS_HS_FP 0, 88), (Reg.SCREEN_TIMING_V_V_TOTAL 0, 1125),
  (Reg.SCREEN_TIMING_V_V_ACTIVE 0, 1080), (Reg.SCREEN_TIMING_VS_VS_WIDTH 0, 5), (Reg.SCREEN_TIMING_VS_VS_FP 0, 4),
  (Reg.SCREEN_TIMING_BEAT_BEATS 0, 4)]
def wScreenStartsAndStops3 : State := st [(Reg.SCREEN_STATUS_RUNNING 0, 1), (Reg.SCREEN_CTRL_BPC30 0, 1)]
def wScreenStartsAndStops4 : State := (st [(Reg.SCREEN_STATUS_RUNNING 0, 1), (Reg.SCREEN_CTRL_BPC30 0, 0),
  (Reg.SCREEN_CTRL_PIPE 0, 0), (Reg.SCREEN_CTRL_PORT 0, 0)]).setScr 0 { State.reset.scr 0 with gap := true }
def wScreenStartsAndStops5 : State := (st [(Reg.SCREEN_STATUS_RUNNING 0, 1), (Reg.SCREEN_CTRL_BPC30 0, 0),
  (Reg.SCREEN_CTRL_PIPE 0, 0), (Reg.SCREEN_CTRL_PORT 0, 0)]).setScr 0 { State.reset.scr 0 with gap := false }
def wScreenStartsAndStops6 : State := (st [(Reg.SCREEN_STATUS_RUNNING 0, 1), (Reg.SCREEN_CTRL_BPC30 0, 0),
  (Reg.SCREEN_CTRL_PIPE 0, 0), (Reg.SCREEN_CTRL_PORT 0, 0), (Reg.SCREEN_RETIME_STATE 0, 1)]).setScr 0 { State.reset.scr 0 with gap := false }
def wScreenStartsAndStops7 : State := (st [(Reg.SXT_STATUS_STATE (nat_lit 0), 4), (Reg.SXT_STATUS_STATE (nat_lit 1), 4)]).setScr 0 { State.reset.scr 0 with gap := false, starting := true, held := some 0 }
def wScreenStartsAndStops8 : State := (st [(Reg.SXT_STATUS_STATE (nat_lit 0), 4), (Reg.SXT_STATUS_STATE (nat_lit 1), 4)]).setScr 0 { State.reset.scr 0 with gap := true, gapDone := true, gapStop := false }
def wScreenStartsAndStops9 : State := (st [(Reg.SXT_STATUS_STATE (nat_lit 0), 4), (Reg.SXT_STATUS_STATE (nat_lit 1), 4)]).setScr 0 { State.reset.scr 0 with gap := true, gapDone := true, gapStop := true }

set_option synthInstance.maxHeartbeats 400000 in
set_option synthInstance.maxSize 4000 in
theorem witness_ScreenStartsAndStops :
  wScreenStartsAndStops1.Admits World.secure 2 0 false ∧ (wScreenStartsAndStops1.running 0 || wScreenStartsAndStops1.get
    (Reg.SCREEN_RETIME_STATE 0) != 0) = false ∧ (wScreenStartsAndStops1.plainWrite (Reg.SCREEN_CTRL 0) (setBits (withBit (0 : Word) 0) 8 4 (if (wScreenStartsAndStops1.bit Reg.WEAR_CFG_REMAP
    && decide (getBits (0 : Word) 8 4 < 10) && wScreenStartsAndStops1.pipeWorn (getBits (0 : Word) 8 4)) = true then
    (List.find? (fun q => !wScreenStartsAndStops1.pipeWorn q && !(List.range 8).any fun m => m != 0 && wScreenStartsAndStops1.get
    (Reg.SCREEN_CTRL_PIPE m) == q) (List.range 10)).getD (getBits (0 : Word) 8 4) else getBits (0 : Word) 8 4))).startErr 0
    = none ∧ (wScreenStartsAndStops1.activeUnderTest = true ∨ (wScreenStartsAndStops1.scr 0).gap = true ∧ (wScreenStartsAndStops1.scr 0).gapDone
    = false ∨ (wScreenStartsAndStops1.scr 0).gap = false ∧ ((wScreenStartsAndStops1.scr 0).starting = false ∨ (wScreenStartsAndStops1.scr 0).held
    = none)) ∧
  wScreenStartsAndStops2.Admits World.secure 2 0 false ∧ (wScreenStartsAndStops2.running 0 || wScreenStartsAndStops2.get
    (Reg.SCREEN_RETIME_STATE 0) != 0) = false ∧ wScreenStartsAndStops2.SourceFree (17 + 0) ∧
  wScreenStartsAndStops3.Admits World.secure 2 0 false ∧ (wScreenStartsAndStops3.running 0 || wScreenStartsAndStops3.get
    (Reg.SCREEN_RETIME_STATE 0) != 0) = true ∧ (getBits (0 : BitVec 32) 16 1 != wScreenStartsAndStops3.get
    (Reg.SCREEN_CTRL_BPC30 0) || getBits (0 : BitVec 32) 8 4 != wScreenStartsAndStops3.get
    (Reg.SCREEN_CTRL_PIPE 0) || getBits (0 : BitVec 32) 4 3 != wScreenStartsAndStops3.get
    (Reg.SCREEN_CTRL_PORT 0)) = true ∧ wScreenStartsAndStops3.SourceFree (17 + 0) ∧
  wScreenStartsAndStops4.Admits World.secure 2 0 false ∧ (wScreenStartsAndStops4.running 0 || wScreenStartsAndStops4.get
    (Reg.SCREEN_RETIME_STATE 0) != 0) = true ∧ (getBits (0 : BitVec 32) 16 1 != wScreenStartsAndStops4.get
    (Reg.SCREEN_CTRL_BPC30 0) || getBits (0 : BitVec 32) 8 4 != wScreenStartsAndStops4.get
    (Reg.SCREEN_CTRL_PIPE 0) || getBits (0 : BitVec 32) 4 3 != wScreenStartsAndStops4.get
    (Reg.SCREEN_CTRL_PORT 0)) = false ∧ (wScreenStartsAndStops4.scr 0).gap = true ∧
  wScreenStartsAndStops5.Admits World.secure 2 0 false ∧ (wScreenStartsAndStops5.running 0 || wScreenStartsAndStops5.get
    (Reg.SCREEN_RETIME_STATE 0) != 0) = true ∧ (getBits (0 : BitVec 32) 16 1 != wScreenStartsAndStops5.get
    (Reg.SCREEN_CTRL_BPC30 0) || getBits (0 : BitVec 32) 8 4 != wScreenStartsAndStops5.get
    (Reg.SCREEN_CTRL_PIPE 0) || getBits (0 : BitVec 32) 4 3 != wScreenStartsAndStops5.get
    (Reg.SCREEN_CTRL_PORT 0)) = false ∧ (wScreenStartsAndStops5.scr 0).gap = false ∧ wScreenStartsAndStops5.get
    (Reg.SCREEN_RETIME_STATE 0) ≠ 1 ∧
  wScreenStartsAndStops6.Admits World.secure 2 0 false ∧ (wScreenStartsAndStops6.running 0 || wScreenStartsAndStops6.get
    (Reg.SCREEN_RETIME_STATE 0) != 0) = true ∧ (getBits (0 : BitVec 32) 16 1 != wScreenStartsAndStops6.get
    (Reg.SCREEN_CTRL_BPC30 0) || getBits (0 : BitVec 32) 8 4 != wScreenStartsAndStops6.get
    (Reg.SCREEN_CTRL_PIPE 0) || getBits (0 : BitVec 32) 4 3 != wScreenStartsAndStops6.get
    (Reg.SCREEN_CTRL_PORT 0)) = false ∧ (wScreenStartsAndStops6.scr 0).gap = false ∧ wScreenStartsAndStops6.get
    (Reg.SCREEN_RETIME_STATE 0) = 1 ∧
  wScreenStartsAndStops7.activeUnderTest = false ∧ (wScreenStartsAndStops7.scr 0).gap = false ∧ (wScreenStartsAndStops7.scr 0).starting
    = true ∧ (wScreenStartsAndStops7.scr 0).held = some 0 ∧
  wScreenStartsAndStops8.activeUnderTest = false ∧ (wScreenStartsAndStops8.scr 0).gap = true ∧ (wScreenStartsAndStops8.scr 0).gapDone
    = true ∧ (wScreenStartsAndStops8.scr 0).gapStop = false ∧
  wScreenStartsAndStops9.activeUnderTest = false ∧ (wScreenStartsAndStops9.scr 0).gap = true ∧ (wScreenStartsAndStops9.scr 0).gapDone
    = true ∧ (wScreenStartsAndStops9.scr 0).gapStop = true := by
  try unfold State.Admits
  try unfold State.SourceFree
  try unfold State.LogRoom
  decide +kernel

def wLatchTakesWhatIsDue1 : State := st [(Reg.DPO_CTRL_ADAPTIVE_SYNC 0, 1), (Reg.SCREEN_VRR_VT_MAX 0, 16383),
  (Reg.SCREEN_TIMING_BEAT_BEATS 0, 1)]
def wLatchTakesWhatIsDue2 : State := (st [(Reg.SCREEN_STATUS_RUNNING 0, 1)]).setScr 0 { State.reset.scr 0 with gap := false, stopping := true }
def wLatchTakesWhatIsDue3 : State := (st [(Reg.SCREEN_STATUS_RUNNING 0, 1), (Reg.SCREEN_RETIME_STATE 0, 1),
  (Reg.SCREEN_RETIME_CLASS 0, 2)]).setScr 0 { State.reset.scr 0 with gap := false, stopping := false }
def wLatchTakesWhatIsDue4 : State := (st [(Reg.SCREEN_STATUS_RUNNING 0, 1)]).setPort 0 { State.reset.port 0 with degrading := true }
def wLatchTakesWhatIsDue5 : State := st [(Reg.SCREEN_STATUS_RUNNING 0, 1)]
def wLatchTakesWhatIsDue6 : State := st [(Reg.SCREEN_STATUS_RUNNING 0, 1), (Reg.DPO_LINK_STATUS_LINK_OK 0, 1),
  (Reg.SCREEN_RT_LINK_RATE 0, 3), (Reg.SCREEN_RT_LINK_LANES 0, 2), (Reg.SCREEN_RT_TIMING_H_H_TOTAL 0, 2200),
  (Reg.SCREEN_RT_TIMING_H_H_ACTIVE 0, 1920), (Reg.SCREEN_RT_TIMING_HS_HS_WIDTH 0, 44),
  (Reg.SCREEN_RT_TIMING_HS_HS_FP 0, 88), (Reg.SCREEN_RT_TIMING_V_V_TOTAL 0, 1125),
  (Reg.SCREEN_RT_TIMING_V_V_ACTIVE 0, 1080), (Reg.SCREEN_RT_TIMING_VS_VS_WIDTH 0, 5),
  (Reg.SCREEN_RT_TIMING_VS_VS_FP 0, 4), (Reg.SCREEN_RT_TIMING_BEAT_BEATS 0, 4)]
def wLatchTakesWhatIsDue7 : State := st [(Reg.SCREEN_RETIME_STATE 0, 2), (Reg.SCREEN_RETIME_CLASS 0, 4)]
def wLatchTakesWhatIsDue8 : State := st [(Reg.SCREEN_RETIME_STATE 0, 2), (Reg.SCREEN_RETIME_CLASS 0, 3)]
def wLatchTakesWhatIsDue9 : State := st [(Reg.SCREEN_OUT_STATUS_STATE 0, 1)]

set_option synthInstance.maxHeartbeats 400000 in
set_option synthInstance.maxSize 4000 in
theorem witness_LatchTakesWhatIsDue :
  (wLatchTakesWhatIsDue1.running 0 = false ∨ (wLatchTakesWhatIsDue1.scr 0).gap = true) ∧ wLatchTakesWhatIsDue1.Admits World.secure 2 0 false
    ∧ wLatchTakesWhatIsDue1.lowerOk 0 (getBits (512 : Word) 8 4) = true ∧ wLatchTakesWhatIsDue1.get
    (Reg.SCREEN_RETIME_STATE 0) = 0 ∧ wLatchTakesWhatIsDue1.running 0 = false ∧ wLatchTakesWhatIsDue1.get
    (Reg.SCREEN_RETIME_STATE 0) ≠ 2 ∧ wLatchTakesWhatIsDue1.Admits World.secure 2 0 true ∧ wLatchTakesWhatIsDue1.get
    (Reg.SCREEN_OUT_STATUS_STATE 0) ≠ 1 ∧ (wLatchTakesWhatIsDue1.scr 0).hitNext = none ∧
  wLatchTakesWhatIsDue2.running 0 = true ∧ (wLatchTakesWhatIsDue2.scr 0).gap = false ∧ (wLatchTakesWhatIsDue2.scr 0).stopping
    = true ∧ wLatchTakesWhatIsDue2.Admits World.secure 2 0 false ∧ wLatchTakesWhatIsDue2.lowerOk 0 (getBits (0 : BitVec 32) 8 4)
    = false ∧ wLatchTakesWhatIsDue2.SourceFree (17 + 0) ∧
  wLatchTakesWhatIsDue3.running 0 = true ∧ (wLatchTakesWhatIsDue3.scr 0).gap = false ∧ (wLatchTakesWhatIsDue3.scr 0).stopping
    = false ∧ wLatchTakesWhatIsDue3.get (Reg.SCREEN_RETIME_STATE 0) = 1 ∧ wLatchTakesWhatIsDue3.get
    (Reg.SCREEN_RETIME_CLASS 0) ≠ 1 ∧ wLatchTakesWhatIsDue3.Admits World.secure 2 0 false ∧ wLatchTakesWhatIsDue3.get
    (Reg.SCREEN_RETIME_STATE 0) ≠ 0 ∧ wLatchTakesWhatIsDue3.SourceFree (17 + 0) ∧
  wLatchTakesWhatIsDue4.running 0 = true ∧ (wLatchTakesWhatIsDue4.scr 0).gap = false ∧ (wLatchTakesWhatIsDue4.scr 0).stopping
    = false ∧ wLatchTakesWhatIsDue4.get (Reg.SCREEN_RETIME_STATE 0) ≠ 1 ∧ (wLatchTakesWhatIsDue4.scr 0).halve
    = false ∧ wLatchTakesWhatIsDue4.SourceFree (9 + 0) ∧ wLatchTakesWhatIsDue4.Admits World.secure 2 0 false ∧ wLatchTakesWhatIsDue4.get
    (Reg.SCREEN_RETIME_STATE 0) = 0 ∧ (wLatchTakesWhatIsDue4.port (wLatchTakesWhatIsDue4.portOf 0)).degrading
    = true ∧
  wLatchTakesWhatIsDue5.Admits World.secure 2 0 false ∧ wLatchTakesWhatIsDue5.get (Reg.SCREEN_RETIME_STATE 0)
    = 0 ∧ wLatchTakesWhatIsDue5.running 0 = true ∧ (wLatchTakesWhatIsDue5.port (wLatchTakesWhatIsDue5.portOf 0)).degrading
    = false ∧
  wLatchTakesWhatIsDue6.Admits World.secure 2 0 false ∧ wLatchTakesWhatIsDue6.get (Reg.SCREEN_RETIME_STATE 0)
    = 0 ∧ wLatchTakesWhatIsDue6.running 0 = true ∧ (wLatchTakesWhatIsDue6.port (wLatchTakesWhatIsDue6.portOf 0)).degrading
    = false ∧ wLatchTakesWhatIsDue6.timingErr 0 (wLatchTakesWhatIsDue6.rtTiming 0) (wLatchTakesWhatIsDue6.bit
    (Reg.DPO_LINK_STATUS_LINK_OK (wLatchTakesWhatIsDue6.portOf 0))) (wLatchTakesWhatIsDue6.get
    (Reg.SCREEN_RT_LINK_RATE 0)) (wLatchTakesWhatIsDue6.get (Reg.SCREEN_RT_LINK_LANES 0)) = none ∧ wLatchTakesWhatIsDue6.bit
    (Reg.SCREEN_STATUS_LOWERED 0) = false ∧
  wLatchTakesWhatIsDue7.get (Reg.SCREEN_RETIME_STATE 0) = 2 ∧ wLatchTakesWhatIsDue7.get
    (Reg.SCREEN_RETIME_CLASS 0) ≠ 3 ∧
  wLatchTakesWhatIsDue8.get (Reg.SCREEN_RETIME_STATE 0) = 2 ∧ wLatchTakesWhatIsDue8.get
    (Reg.SCREEN_RETIME_CLASS 0) = 3 ∧
  wLatchTakesWhatIsDue9.Admits World.secure 2 0 true ∧ wLatchTakesWhatIsDue9.get (Reg.SCREEN_OUT_STATUS_STATE 0)
    = 1 := by
  try unfold State.Admits
  try unfold State.SourceFree
  try unfold State.LogRoom
  decide +kernel

def wScanOutSendsComparedLines1 : State := st [(Reg.SCREEN_STATUS_RUNNING 0, 0)]
def wScanOutSendsComparedLines2 : State := (st [(Reg.SCREEN_STATUS_RUNNING 0, 1),
  (Reg.SCREEN_TIMING_V_V_ACTIVE 0, 1080)]).setScr 0 { State.reset.scr 0 with composed := [(0, [(7, false)])] }
def wScanOutSendsComparedLines3 : State := (st [(Reg.SCREEN_STATUS_RUNNING 0, 1)]).setScr 0 { State.reset.scr 0 with gap := false }
def wScanOutSendsComparedLines4 : State := (st [(Reg.SCREEN_STATUS_RUNNING 0, 1),
  (Reg.SCREEN_TIMING_V_V_ACTIVE 0, 1080), (Reg.DPO_LINK_STATUS_LINK_OK 0, 1)]).setScr 0 { State.reset.scr 0 with composed := [(0, [(7, false)])] }
def wScanOutSendsComparedLines5 : State := (st [(Reg.SCREEN_STATUS_RUNNING 0, 1),
  (Reg.SCREEN_TIMING_V_V_ACTIVE 0, 1080), (Reg.DPO_LINK_STATUS_LINK_OK 0, 1), (Reg.PROT_ACT_CTRL_EN 0, 1),
  (Reg.PROT_ACT_CTRL_RECT_EN 0, 1), (Reg.PROT_ACT_RECT_SIZE_W 0 0, 2), (Reg.PROT_ACT_RECT_SIZE_H 0 0, 3)]).setScr 0 { State.reset.scr 0 with sextant := some 0, tiles := [(0, .passed [7, 7])], composed := [(0, [(5, false)])] }
def wScanOutSendsComparedLines6 : State := st [(Reg.SCREEN_STATUS_RUNNING 0, 1), (Reg.SCREEN_TIMING_V_V_ACTIVE 0, 1080),
  (Reg.LAYER_BIND_VALID 0, 1)]
def wScanOutSendsComparedLines7 : State := (st []).setScr 0 { State.reset.scr 0 with watch := (some ⟨0, 0, 0, false, none⟩) }
def wScanOutSendsComparedLines8 : State := (st [(Reg.SCREEN_STATUS_RUNNING 0, 1),
  (Reg.SCREEN_TIMING_V_V_ACTIVE 0, 1080), (Reg.XBAR_MAP_PIPE 0, 0)]).setScr 0 { State.reset.scr 0 with watch := some { pipe := 0, lane := 0, frame := 0, sig := some 0, bad := true } }
def wScanOutSendsComparedLines9 : State := (st [(Reg.SCREEN_STATUS_RUNNING 0, 1),
  (Reg.SCREEN_TIMING_V_V_ACTIVE 0, 1080), (Reg.XBAR_MAP_PIPE 0, 0)]).setScr 0 { State.reset.scr 0 with watch := some { pipe := 0, lane := 0, frame := 0, sig := some 0, bad := false } }
def wScanOutSendsComparedLines10 : State := (st [(Reg.SCREEN_STATUS_RUNNING 0, 1),
  (Reg.SCREEN_TIMING_V_V_ACTIVE 0, 1080), (Reg.XBAR_MAP_PIPE 0, 0)]).setScr 0 { State.reset.scr 0 with watch := some { pipe := 0, lane := 0, frame := 0, sig := some 0, bad := false } }

set_option synthInstance.maxHeartbeats 400000 in
set_option synthInstance.maxSize 4000 in
theorem witness_ScanOutSendsComparedLines :
  (!wScanOutSendsComparedLines1.running 0 || (wScanOutSendsComparedLines1.scr 0).gap) = true ∧ (wScanOutSendsComparedLines1.scr 0).watch
    = none ∧
  wScanOutSendsComparedLines2.running 0 = true ∧ (wScanOutSendsComparedLines2.scr 0).gap = false ∧ BitVec.toNat (0 : BitVec 14)
    < (wScanOutSendsComparedLines2.timing 0).vActive ∧ wScanOutSendsComparedLines2.liveRects 0 = [] ∧ wScanOutSendsComparedLines2.whole 0
    = Whole.none ∧ List.find? (fun x => x.fst == BitVec.toNat (0 : BitVec 14)) (wScanOutSendsComparedLines2.scr 0).composed
    = some (BitVec.toNat (0 : BitVec 14), [((7 : Word), false)]) ∧ (if BitVec.toNat (0 : BitVec 14) = 0 then wScanOutSendsComparedLines2.bit
    (Reg.DPO_LINK_STATUS_LINK_OK (wScanOutSendsComparedLines2.portOf 0)) else (wScanOutSendsComparedLines2.port (wScanOutSendsComparedLines2.portOf 0)).video)
    = false ∧ BitVec.toNat (0 : BitVec 14) + 1 < (wScanOutSendsComparedLines2.timing 0).vActive ∧
  wScanOutSendsComparedLines3.running 0 = true ∧ (wScanOutSendsComparedLines3.scr 0).gap = false ∧ (wScanOutSendsComparedLines3.timing 0).vActive
    ≤ BitVec.toNat (0 : BitVec 14) ∧
  wScanOutSendsComparedLines4.running 0 = true ∧ (wScanOutSendsComparedLines4.scr 0).gap = false ∧ BitVec.toNat (0 : BitVec 14)
    < (wScanOutSendsComparedLines4.timing 0).vActive ∧ wScanOutSendsComparedLines4.liveRects 0 = [] ∧ wScanOutSendsComparedLines4.whole 0
    = Whole.none ∧ List.find? (fun x => x.fst == BitVec.toNat (0 : BitVec 14)) (wScanOutSendsComparedLines4.scr 0).composed
    = some (BitVec.toNat (0 : BitVec 14), [((7 : Word), false)]) ∧ (if BitVec.toNat (0 : BitVec 14) = 0 then wScanOutSendsComparedLines4.bit
    (Reg.DPO_LINK_STATUS_LINK_OK (wScanOutSendsComparedLines4.portOf 0)) else (wScanOutSendsComparedLines4.port (wScanOutSendsComparedLines4.portOf 0)).video)
    = true ∧ (List.filter (fun x => Option.any (fun w => !([((7 : Word), false)].getD x ((0 : Word), false)).snd
    && w != if x = BitVec.toNat (0 : BitVec 13) then (0 : BitVec 32) else ([((7 : Word), false)].getD x ((0 : Word), false)).fst) (match wScanOutSendsComparedLines4.rectAt 0 x (BitVec.toNat (0 : BitVec 14)) with | some k => if ((match wScanOutSendsComparedLines4.rectAt 0 x (BitVec.toNat (0 : BitVec 14)) with | some k => (wScanOutSendsComparedLines4.rectReason 0 k (BitVec.toNat (0 : BitVec 14))).isNone | none => false) && (wScanOutSendsComparedLines4.scr 0).mode != 2) = true then wScanOutSendsComparedLines4.sextantPixel 0 k x (BitVec.toNat (0 : BitVec 14)) else none | none => none))
    (List.range [((7 : Word), false)].length) = [] ∨ (wScanOutSendsComparedLines4.scr 0).mode ≠ 0) ∧
  wScanOutSendsComparedLines5.running 0 = true ∧ (wScanOutSendsComparedLines5.scr 0).gap = false ∧ BitVec.toNat (0 : BitVec 14)
    < (wScanOutSendsComparedLines5.timing 0).vActive ∧ wScanOutSendsComparedLines5.whole 0 = Whole.none ∧ List.find? (fun x => x.fst
    == BitVec.toNat (0 : BitVec 14)) (wScanOutSendsComparedLines5.scr 0).composed = some (BitVec.toNat (0 : BitVec 14), [((5 : Word), false)])
    ∧ (if BitVec.toNat (0 : BitVec 14) = 0 then wScanOutSendsComparedLines5.bit (Reg.DPO_LINK_STATUS_LINK_OK (wScanOutSendsComparedLines5.portOf 0)) else (wScanOutSendsComparedLines5.port (wScanOutSendsComparedLines5.portOf 0)).video)
    = true ∧ (List.filter (fun x => Option.any (fun w => !([((5 : Word), false)].getD x ((0 : Word), false)).snd
    && w != if x = BitVec.toNat (1 : BitVec 13) then (9 : Word) else ([((5 : Word), false)].getD x ((0 : Word), false)).fst) (match wScanOutSendsComparedLines5.rectAt 0 x (BitVec.toNat (0 : BitVec 14)) with | some k => if ((match wScanOutSendsComparedLines5.rectAt 0 x (BitVec.toNat (0 : BitVec 14)) with | some k => (wScanOutSendsComparedLines5.rectReason 0 k (BitVec.toNat (0 : BitVec 14))).isNone | none => false) && (wScanOutSendsComparedLines5.scr 0).mode != 2) = true then wScanOutSendsComparedLines5.sextantPixel 0 k x (BitVec.toNat (0 : BitVec 14)) else none | none => none))
    (List.range [((5 : Word), false)].length) ≠ []) ∧ (wScanOutSendsComparedLines5.scr 0).mode = 0 ∧
  wScanOutSendsComparedLines6.running 0 = true ∧ (wScanOutSendsComparedLines6.scr 0).gap = false ∧ BitVec.toNat (0 : BitVec 14) + 1
    < (wScanOutSendsComparedLines6.timing 0).vActive ∧ (wScanOutSendsComparedLines6.layersOf 0).contains 0 = true
    ∧ wScanOutSendsComparedLines6.LogRoom ∧
  (wScanOutSendsComparedLines7.scr 0).watch.isSome = true ∧ ((wScanOutSendsComparedLines7.scr 0).watch.getD { pipe := 0, lane := 0, frame := 0 : WatchState }).sig
    = none ∧
  (wScanOutSendsComparedLines8.scr 0).watch.isSome = true ∧ ((wScanOutSendsComparedLines8.scr 0).watch.getD { pipe := 0, lane := 0, frame := 0 : WatchState }).sig
    ≠ none ∧ (((wScanOutSendsComparedLines8.scr 0).watch.getD { pipe := 0, lane := 0, frame := 0 : WatchState }).bad
    = true ∨ false = true) ∧
  (wScanOutSendsComparedLines9.scr 0).watch.isSome = true ∧ ((wScanOutSendsComparedLines9.scr 0).watch.getD { pipe := 0, lane := 0, frame := 0 : WatchState }).sig
    ≠ none ∧ ((wScanOutSendsComparedLines9.scr 0).watch.getD { pipe := 0, lane := 0, frame := 0 : WatchState }).bad
    = false ∧
  (wScanOutSendsComparedLines10.scr 0).watch.isSome = true ∧ ((wScanOutSendsComparedLines10.scr 0).watch.getD { pipe := 0, lane := 0, frame := 0 : WatchState }).sig
    ≠ none ∧ ((wScanOutSendsComparedLines10.scr 0).watch.getD { pipe := 0, lane := 0, frame := 0 : WatchState }).bad
    = false ∧ wScanOutSendsComparedLines10.running 0 = true ∧ wScanOutSendsComparedLines10.pipeOf 0 < 10 ∧ ((wScanOutSendsComparedLines10.scr 0).watch.getD { pipe := 0, lane := 0, frame := 0 : WatchState }).pipe
    < 10 := by
  try unfold State.Admits
  try unfold State.SourceFree
  try unfold State.LogRoom
  decide +kernel

def wPortLinkTrainsDegradesAndRelinks1 : State := st [(Reg.XBAR_MAP_VALID 0, 1)]
def wPortLinkTrainsDegradesAndRelinks2 : State := st [(Reg.DPO_CTRL_EDP 0, 0)]
def wPortLinkTrainsDegradesAndRelinks3 : State := (st [(Reg.DPO_LINK_STATUS_HPD 0, 1),
  (Reg.DPO_LINK_STATUS_LINK_OK 0, 1)]).setPort 0 { State.reset.port 0 with failed := [0] }
def wPortLinkTrainsDegradesAndRelinks4 : State := (st [(Reg.DPO_CTRL_EN 0, 1), (Reg.DPO_LINK_STATUS_LINK_OK 0, 0)]).setPort 0 { State.reset.port 0 with why := TrainWhy.soft }
def wPortLinkTrainsDegradesAndRelinks5 : State := (st [(Reg.DPO_CTRL_FALLBACK 0, 1)]).setPort 0 { State.reset.port 0 with why := TrainWhy.soft }
def wPortLinkTrainsDegradesAndRelinks6 : State := (st [(Reg.DPO_CTRL_FALLBACK 0, 0)]).setPort 0 { State.reset.port 0 with why := TrainWhy.soft }
def wPortLinkTrainsDegradesAndRelinks7 : State := (st [(Reg.DPO_CTRL_EN 0, 1), (Reg.DPO_LINK_STATUS_LINK_OK 0, 0)]).setPort 0 { State.reset.port 0 with why := TrainWhy.irq }
def wPortLinkTrainsDegradesAndRelinks8 : State := (st []).setPort 0 { State.reset.port 0 with why := TrainWhy.irq }
def wPortLinkTrainsDegradesAndRelinks9 : State := st [(Reg.DPO_LINK_STATUS_HPD 0, 1),
  (Reg.DPO_LINK_STATUS_LINK_OK 0, 0)]
def wPortLinkTrainsDegradesAndRelinks10 : State := st [(Reg.DPO_LINK_STATUS_HPD 1, 1),
  (Reg.DPO_LINK_STATUS_LINK_OK 1, 1)]
def wPortLinkTrainsDegradesAndRelinks11 : State := (st [(Reg.DPO_LINK_STATUS_HPD 0, 0),
  (Reg.DPO_CTRL_AUTO_RELINK 0, 1)]).setPort 0 { State.reset.port 0 with why := TrainWhy.none }
def wPortLinkTrainsDegradesAndRelinks12 : State := (st []).setPort 0 { State.reset.port 0 with degrading := true, why := TrainWhy.degrade }
def wPortLinkTrainsDegradesAndRelinks13 : State := (st [(Reg.DPO_CTRL_FALLBACK 0, 1), (Reg.DPO_CTRL_HALVE_OK 0, 1),
  (Reg.XBAR_MAP_VALID 0, 1), (Reg.SCREEN_TIMING_H_H_TOTAL 0, 2200), (Reg.SCREEN_TIMING_H_H_ACTIVE 0, 1920),
  (Reg.SCREEN_TIMING_HS_HS_WIDTH 0, 44), (Reg.SCREEN_TIMING_HS_HS_FP 0, 88), (Reg.SCREEN_TIMING_V_V_TOTAL 0, 1125),
  (Reg.SCREEN_TIMING_V_V_ACTIVE 0, 1080), (Reg.SCREEN_TIMING_VS_VS_WIDTH 0, 5), (Reg.SCREEN_TIMING_VS_VS_FP 0, 4),
  (Reg.SCREEN_TIMING_BEAT_BEATS 0, 1)]).setPort 0 { State.reset.port 0 with degrading := true, why := .degrade }
def wPortLinkTrainsDegradesAndRelinks14 : State := (st [(Reg.DPO_CTRL_FALLBACK 0, 1), (Reg.DPO_CTRL_HALVE_OK 0, 1),
  (Reg.XBAR_MAP_VALID 0, 1), (Reg.SCREEN_TIMING_H_H_TOTAL 0, 2200), (Reg.SCREEN_TIMING_H_H_ACTIVE 0, 1920),
  (Reg.SCREEN_TIMING_HS_HS_WIDTH 0, 44), (Reg.SCREEN_TIMING_HS_HS_FP 0, 88), (Reg.SCREEN_TIMING_V_V_TOTAL 0, 1125),
  (Reg.SCREEN_TIMING_V_V_ACTIVE 0, 1080), (Reg.SCREEN_TIMING_VS_VS_WIDTH 0, 5), (Reg.SCREEN_TIMING_VS_VS_FP 0, 4),
  (Reg.SCREEN_TIMING_BEAT_BEATS 0, 1)]).setPort 0 { State.reset.port 0 with degrading := true, why := .degrade }

set_option synthInstance.maxHeartbeats 400000 in
set_option synthInstance.maxSize 4000 in
theorem witness_PortLinkTrainsDegradesAndRelinks :
  wPortLinkTrainsDegradesAndRelinks1.Admits World.secure 4 0 false ∧ wPortLinkTrainsDegradesAndRelinks1.SourceFree (25 + 0)
    ∧ wPortLinkTrainsDegradesAndRelinks1.screenOn 0 ≠ none ∧ ((wPortLinkTrainsDegradesAndRelinks1.port 0).why
    = TrainWhy.none ∨ (wPortLinkTrainsDegradesAndRelinks1.port 0).why = TrainWhy.degrade ∨ (wPortLinkTrainsDegradesAndRelinks1.port 0).why
    = TrainWhy.retime) ∧ wPortLinkTrainsDegradesAndRelinks1.bit (Reg.DPO_LINK_STATUS_HPD 0) = false ∧ ((wPortLinkTrainsDegradesAndRelinks1.port 0).last
    = none ∨ wPortLinkTrainsDegradesAndRelinks1.bit (Reg.DPO_CTRL_AUTO_RELINK 0) = false ∨ (wPortLinkTrainsDegradesAndRelinks1.port 0).why
    ≠ TrainWhy.none) ∧ ((wPortLinkTrainsDegradesAndRelinks1.port 0).degrading = false ∨ (wPortLinkTrainsDegradesAndRelinks1.port 0).why
    ≠ TrainWhy.degrade) ∧
  wPortLinkTrainsDegradesAndRelinks2.Admits World.secure 4 0 false ∧ wPortLinkTrainsDegradesAndRelinks2.SourceFree (25 + 0)
    ∧ wPortLinkTrainsDegradesAndRelinks2.screenOn 0 = none ∧ (wPortLinkTrainsDegradesAndRelinks2.bit
    (Reg.DPO_CTRL_EDP 0) || getBits (5 : Word) 0 3 == 0 || getBits (5 : Word) 0 3 == 3 || getBits (5 : Word) 0 3
    == 6 || getBits (5 : Word) 0 3 == 7) = false ∧
  wPortLinkTrainsDegradesAndRelinks3.Admits World.secure 4 0 false ∧ wPortLinkTrainsDegradesAndRelinks3.SourceFree (25 + 0)
    ∧ wPortLinkTrainsDegradesAndRelinks3.screenOn 0 = none ∧ (wPortLinkTrainsDegradesAndRelinks3.bit
    (Reg.DPO_CTRL_EDP 0) || getBits (0 : Word) 0 3 == 0 || getBits (0 : Word) 0 3 == 3 || getBits (0 : Word) 0 3
    == 6 || getBits (0 : Word) 0 3 == 7) = true ∧ wPortLinkTrainsDegradesAndRelinks3.bit
    (Reg.DPO_LINK_STATUS_HPD 0) = true ∧ (!wPortLinkTrainsDegradesAndRelinks3.bit (Reg.DPO_LINK_STATUS_LINK_OK 0))
    = false ∧ (List.filter (fun i => BitVec.getLsbD (1 : BitVec 4) i) (List.range (laneCount (wPortLinkTrainsDegradesAndRelinks3.get
    (Reg.DPO_LINK_STATUS_LIVE_RATE 0), wPortLinkTrainsDegradesAndRelinks3.get (Reg.DPO_LINK_STATUS_LIVE_LANES 0)).snd))).any (wPortLinkTrainsDegradesAndRelinks3.port 0).failed.contains
    = true ∧
  ((wPortLinkTrainsDegradesAndRelinks4.port 0).why = TrainWhy.soft ∨ (wPortLinkTrainsDegradesAndRelinks4.port 0).why
    = TrainWhy.relink) ∧ (true && wPortLinkTrainsDegradesAndRelinks4.bit (Reg.DPO_CTRL_EN 0)) = true ∧ (!wPortLinkTrainsDegradesAndRelinks4.bit
    (Reg.DPO_LINK_STATUS_LINK_OK 0)) = true ∧
  ((wPortLinkTrainsDegradesAndRelinks5.port 0).why = TrainWhy.soft ∨ (wPortLinkTrainsDegradesAndRelinks5.port 0).why
    = TrainWhy.relink) ∧ (false && wPortLinkTrainsDegradesAndRelinks5.bit (Reg.DPO_CTRL_EN 0)) = false ∧ wPortLinkTrainsDegradesAndRelinks5.bit
    (Reg.DPO_CTRL_FALLBACK 0) = true ∧ (wPortLinkTrainsDegradesAndRelinks5.nextTry 0).isSome = true ∧
  ((wPortLinkTrainsDegradesAndRelinks6.port 0).why = TrainWhy.soft ∨ (wPortLinkTrainsDegradesAndRelinks6.port 0).why
    = TrainWhy.relink) ∧ (false && wPortLinkTrainsDegradesAndRelinks6.bit (Reg.DPO_CTRL_EN 0)) = false ∧ (wPortLinkTrainsDegradesAndRelinks6.bit
    (Reg.DPO_CTRL_FALLBACK 0) = false ∨ wPortLinkTrainsDegradesAndRelinks6.nextTry 0 = none) ∧ wPortLinkTrainsDegradesAndRelinks6.SourceFree (25 + 0) ∧
  (wPortLinkTrainsDegradesAndRelinks7.port 0).why = TrainWhy.irq ∧ (true && wPortLinkTrainsDegradesAndRelinks7.bit
    (Reg.DPO_CTRL_EN 0)) = true ∧ (!wPortLinkTrainsDegradesAndRelinks7.bit (Reg.DPO_LINK_STATUS_LINK_OK 0)) = true ∧
  (wPortLinkTrainsDegradesAndRelinks8.port 0).why = TrainWhy.irq ∧ (false && wPortLinkTrainsDegradesAndRelinks8.bit
    (Reg.DPO_CTRL_EN 0)) = false ∧
  wPortLinkTrainsDegradesAndRelinks9.bit (Reg.DPO_LINK_STATUS_HPD 0) = true ∧ wPortLinkTrainsDegradesAndRelinks9.SourceFree (25 + 0)
    ∧ ((!wPortLinkTrainsDegradesAndRelinks9.bit (Reg.DPO_LINK_STATUS_LINK_OK 0)) = true ∨ List.filter (fun i => BitVec.getLsbD (0 : BitVec 4) i)
    (List.range (laneCount (wPortLinkTrainsDegradesAndRelinks9.get (Reg.DPO_LINK_STATUS_LIVE_RATE 0), wPortLinkTrainsDegradesAndRelinks9.get
    (Reg.DPO_LINK_STATUS_LIVE_LANES 0)).snd)) = []) ∧
  wPortLinkTrainsDegradesAndRelinks10.bit (Reg.DPO_LINK_STATUS_HPD 1) = true ∧ (!wPortLinkTrainsDegradesAndRelinks10.bit
    (Reg.DPO_LINK_STATUS_LINK_OK 1)) = false ∧ List.filter (fun i => BitVec.getLsbD (1 : BitVec 4) i)
    (List.range (laneCount (wPortLinkTrainsDegradesAndRelinks10.get (Reg.DPO_LINK_STATUS_LIVE_RATE 1), wPortLinkTrainsDegradesAndRelinks10.get
    (Reg.DPO_LINK_STATUS_LIVE_LANES 1)).snd)) ≠ [] ∧ (List.filter (fun i => BitVec.getLsbD (1 : BitVec 4) i)
    (List.range (laneCount (wPortLinkTrainsDegradesAndRelinks10.get (Reg.DPO_LINK_STATUS_LIVE_RATE 1), wPortLinkTrainsDegradesAndRelinks10.get
    (Reg.DPO_LINK_STATUS_LIVE_LANES 1)).snd))).any (wPortLinkTrainsDegradesAndRelinks10.port 1).failed.contains
    = false ∧
  wPortLinkTrainsDegradesAndRelinks11.bit (Reg.DPO_LINK_STATUS_HPD 0) = false ∧ wPortLinkTrainsDegradesAndRelinks11.bit
    (Reg.DPO_CTRL_AUTO_RELINK 0) = true ∧ (wPortLinkTrainsDegradesAndRelinks11.port 0).why = TrainWhy.none ∧
  (wPortLinkTrainsDegradesAndRelinks12.port 0).degrading = true ∧ (wPortLinkTrainsDegradesAndRelinks12.port 0).why
    = TrainWhy.degrade ∧ (false = false ∨ Option.any (fun c => !(wPortLinkTrainsDegradesAndRelinks12.bit
    (Reg.DPO_CTRL_FALLBACK 0) || c == (wPortLinkTrainsDegradesAndRelinks12.get (Reg.DPO_LINK_STATUS_LIVE_RATE 0), wPortLinkTrainsDegradesAndRelinks12.get
    (Reg.DPO_LINK_STATUS_LIVE_LANES 0)).fst && (if (false && false && (wPortLinkTrainsDegradesAndRelinks12.get
    (Reg.DPO_LINK_STATUS_LIVE_RATE 0), wPortLinkTrainsDegradesAndRelinks12.get (Reg.DPO_LINK_STATUS_LIVE_LANES 0)).snd != 0)
    = true then 1 else 0) == (wPortLinkTrainsDegradesAndRelinks12.get (Reg.DPO_LINK_STATUS_LIVE_RATE 0), wPortLinkTrainsDegradesAndRelinks12.get
    (Reg.DPO_LINK_STATUS_LIVE_LANES 0)).snd)) (wPortLinkTrainsDegradesAndRelinks12.lowestRate 0 (Option.map wPortLinkTrainsDegradesAndRelinks12.timing (wPortLinkTrainsDegradesAndRelinks12.screenOn 0)) (if (false
    && false && (wPortLinkTrainsDegradesAndRelinks12.get (Reg.DPO_LINK_STATUS_LIVE_RATE 0), wPortLinkTrainsDegradesAndRelinks12.get
    (Reg.DPO_LINK_STATUS_LIVE_LANES 0)).snd != 0) = true then 1 else 0)) = true ∨ wPortLinkTrainsDegradesAndRelinks12.lowestRate 0 (Option.map wPortLinkTrainsDegradesAndRelinks12.timing (wPortLinkTrainsDegradesAndRelinks12.screenOn 0)) (if (false
    && false && (wPortLinkTrainsDegradesAndRelinks12.get (Reg.DPO_LINK_STATUS_LIVE_RATE 0), wPortLinkTrainsDegradesAndRelinks12.get
    (Reg.DPO_LINK_STATUS_LIVE_LANES 0)).snd != 0) = true then 1 else 0) = none ∧ wPortLinkTrainsDegradesAndRelinks12.bit
    (Reg.DPO_CTRL_HALVE_OK 0) = false) ∧
  (wPortLinkTrainsDegradesAndRelinks13.port 0).degrading = true ∧ (wPortLinkTrainsDegradesAndRelinks13.port 0).why
    = TrainWhy.degrade ∧ (wPortLinkTrainsDegradesAndRelinks13.bit (Reg.DPO_CTRL_FALLBACK 0) || 0 == (wPortLinkTrainsDegradesAndRelinks13.get
    (Reg.DPO_LINK_STATUS_LIVE_RATE 0), wPortLinkTrainsDegradesAndRelinks13.get (Reg.DPO_LINK_STATUS_LIVE_LANES 0)).fst
    && (if (true && false && (wPortLinkTrainsDegradesAndRelinks13.get (Reg.DPO_LINK_STATUS_LIVE_RATE 0), wPortLinkTrainsDegradesAndRelinks13.get
    (Reg.DPO_LINK_STATUS_LIVE_LANES 0)).snd != 0) = true then 1 else 0) == (wPortLinkTrainsDegradesAndRelinks13.get
    (Reg.DPO_LINK_STATUS_LIVE_RATE 0), wPortLinkTrainsDegradesAndRelinks13.get (Reg.DPO_LINK_STATUS_LIVE_LANES 0)).snd)
    = true ∧ wPortLinkTrainsDegradesAndRelinks13.lowestRate 0 (Option.map wPortLinkTrainsDegradesAndRelinks13.timing (wPortLinkTrainsDegradesAndRelinks13.screenOn 0)) (if (true
    && false && (wPortLinkTrainsDegradesAndRelinks13.get (Reg.DPO_LINK_STATUS_LIVE_RATE 0), wPortLinkTrainsDegradesAndRelinks13.get
    (Reg.DPO_LINK_STATUS_LIVE_LANES 0)).snd != 0) = true then 1 else 0) = none ∧ wPortLinkTrainsDegradesAndRelinks13.bit
    (Reg.DPO_CTRL_HALVE_OK 0) = true ∧ wPortLinkTrainsDegradesAndRelinks13.screenOn 0 ≠ none ∧ 2 * (wPortLinkTrainsDegradesAndRelinks13.timing ((wPortLinkTrainsDegradesAndRelinks13.screenOn 0).getD 0)).beats
    ≤ 16 ∧
  (wPortLinkTrainsDegradesAndRelinks14.port 0).degrading = true ∧ (wPortLinkTrainsDegradesAndRelinks14.port 0).why
    = TrainWhy.degrade ∧ wPortLinkTrainsDegradesAndRelinks14.lowestRate 0 (Option.map wPortLinkTrainsDegradesAndRelinks14.timing (wPortLinkTrainsDegradesAndRelinks14.screenOn 0)) (if (true
    && false && (wPortLinkTrainsDegradesAndRelinks14.get (Reg.DPO_LINK_STATUS_LIVE_RATE 0), wPortLinkTrainsDegradesAndRelinks14.get
    (Reg.DPO_LINK_STATUS_LIVE_LANES 0)).snd != 0) = true then 1 else 0) = none ∧ wPortLinkTrainsDegradesAndRelinks14.bit
    (Reg.DPO_CTRL_HALVE_OK 0) = true ∧ wPortLinkTrainsDegradesAndRelinks14.screenOn 0 ≠ none ∧ (16 < 2 * (wPortLinkTrainsDegradesAndRelinks14.timing ((wPortLinkTrainsDegradesAndRelinks14.screenOn 0).getD 0)).beats
    ∨ Option.all (fun c => !(wPortLinkTrainsDegradesAndRelinks14.bit (Reg.DPO_CTRL_FALLBACK 0) || c == (wPortLinkTrainsDegradesAndRelinks14.get
    (Reg.DPO_LINK_STATUS_LIVE_RATE 0), wPortLinkTrainsDegradesAndRelinks14.get (Reg.DPO_LINK_STATUS_LIVE_LANES 0)).fst
    && (if (true && false && (wPortLinkTrainsDegradesAndRelinks14.get (Reg.DPO_LINK_STATUS_LIVE_RATE 0), wPortLinkTrainsDegradesAndRelinks14.get
    (Reg.DPO_LINK_STATUS_LIVE_LANES 0)).snd != 0) = true then 1 else 0) == (wPortLinkTrainsDegradesAndRelinks14.get
    (Reg.DPO_LINK_STATUS_LIVE_RATE 0), wPortLinkTrainsDegradesAndRelinks14.get (Reg.DPO_LINK_STATUS_LIVE_LANES 0)).snd)) (wPortLinkTrainsDegradesAndRelinks14.lowestRate 0 (some { hTotal := (wPortLinkTrainsDegradesAndRelinks14.timing ((wPortLinkTrainsDegradesAndRelinks14.screenOn 0).getD 0)).hTotal, hActive := (wPortLinkTrainsDegradesAndRelinks14.timing ((wPortLinkTrainsDegradesAndRelinks14.screenOn 0).getD 0)).hActive, hsPol := (wPortLinkTrainsDegradesAndRelinks14.timing ((wPortLinkTrainsDegradesAndRelinks14.screenOn 0).getD 0)).hsPol, hsWidth := (wPortLinkTrainsDegradesAndRelinks14.timing ((wPortLinkTrainsDegradesAndRelinks14.screenOn 0).getD 0)).hsWidth, hsFp := (wPortLinkTrainsDegradesAndRelinks14.timing ((wPortLinkTrainsDegradesAndRelinks14.screenOn 0).getD 0)).hsFp, vTotal := (wPortLinkTrainsDegradesAndRelinks14.timing ((wPortLinkTrainsDegradesAndRelinks14.screenOn 0).getD 0)).vTotal, vActive := (wPortLinkTrainsDegradesAndRelinks14.timing ((wPortLinkTrainsDegradesAndRelinks14.screenOn 0).getD 0)).vActive, vsPol := (wPortLinkTrainsDegradesAndRelinks14.timing ((wPortLinkTrainsDegradesAndRelinks14.screenOn 0).getD 0)).vsPol, vsWidth := (wPortLinkTrainsDegradesAndRelinks14.timing ((wPortLinkTrainsDegradesAndRelinks14.screenOn 0).getD 0)).vsWidth, vsFp := (wPortLinkTrainsDegradesAndRelinks14.timing ((wPortLinkTrainsDegradesAndRelinks14.screenOn 0).getD 0)).vsFp, stagger := (wPortLinkTrainsDegradesAndRelinks14.timing ((wPortLinkTrainsDegradesAndRelinks14.screenOn 0).getD 0)).stagger, beats := 2 * (wPortLinkTrainsDegradesAndRelinks14.timing ((wPortLinkTrainsDegradesAndRelinks14.screenOn 0).getD 0)).beats, vtMin := (wPortLinkTrainsDegradesAndRelinks14.timing ((wPortLinkTrainsDegradesAndRelinks14.screenOn 0).getD 0)).vtMin, vtMax := (wPortLinkTrainsDegradesAndRelinks14.timing ((wPortLinkTrainsDegradesAndRelinks14.screenOn 0).getD 0)).vtMax, bpc30 := (wPortLinkTrainsDegradesAndRelinks14.timing ((wPortLinkTrainsDegradesAndRelinks14.screenOn 0).getD 0)).bpc30 : Timing }) (if (true
    && false && (wPortLinkTrainsDegradesAndRelinks14.get (Reg.DPO_LINK_STATUS_LIVE_RATE 0), wPortLinkTrainsDegradesAndRelinks14.get
    (Reg.DPO_LINK_STATUS_LIVE_LANES 0)).snd != 0) = true then 1 else 0)) = true) := by
  try unfold State.Admits
  try unfold State.SourceFree
  try unfold State.LogRoom
  decide +kernel

def wPortSideChannelTransactions1 : State := st [(Reg.DPO_AUX_STATUS_BUSY 0, 1)]
def wPortSideChannelTransactions2 : State := st [(Reg.DPO_AUX_STATUS_BUSY 0, 0)]
def wPortSideChannelTransactions3 : State := st [(Reg.DPO_I2C_STATUS_BUSY 0, 1)]
def wPortSideChannelTransactions4 : State := st [(Reg.DPO_AUX_STATUS_BUSY 0, 1), (Reg.DPO_LINK_STATUS_TRAINING 0, 0),
  (Reg.DPO_AUX_CMD_REQ 0, 1)]
def wPortSideChannelTransactions5 : State := st [(Reg.DPO_I2C_STATUS_BUSY 0, 1), (Reg.DPO_I2C_CMD_REQ 0, 1)]

set_option synthInstance.maxHeartbeats 400000 in
set_option synthInstance.maxSize 4000 in
theorem witness_PortSideChannelTransactions :
  wPortSideChannelTransactions1.Admits World.secure 4 0 false ∧ wPortSideChannelTransactions1.bit
    (Reg.DPO_AUX_STATUS_BUSY 0) = true ∧ wPortSideChannelTransactions1.SourceFree (25 + 0) ∧ wPortSideChannelTransactions1.bit
    (Reg.DPO_I2C_STATUS_BUSY 0) = false ∧ (wPortSideChannelTransactions1.bit (Reg.DPO_AUX_STATUS_BUSY 0) && !wPortSideChannelTransactions1.bit
    (Reg.DPO_LINK_STATUS_TRAINING 0)) = true ∧ (wPortSideChannelTransactions1.port 0).aux.defers < 7 ∧ (0 != 2
    || (wPortSideChannelTransactions1.port 0).aux.defers == 7) = true ∧ (wPortSideChannelTransactions1.get
    (Reg.DPO_AUX_CMD_REQ 0) == 1 || wPortSideChannelTransactions1.get (Reg.DPO_AUX_CMD_REQ 0) == 5 || wPortSideChannelTransactions1.get
    (Reg.DPO_AUX_CMD_REQ 0) == 9) = false ∧ (wPortSideChannelTransactions1.bit (Reg.DPO_I2C_STATUS_BUSY 0) = false
    ∨ 0 = 2) ∧
  wPortSideChannelTransactions2.Admits World.secure 4 0 false ∧ wPortSideChannelTransactions2.bit
    (Reg.DPO_AUX_STATUS_BUSY 0) = false ∧ ((wPortSideChannelTransactions2.bit (Reg.DPO_AUX_STATUS_BUSY 0) && !wPortSideChannelTransactions2.bit
    (Reg.DPO_LINK_STATUS_TRAINING 0)) = false ∨ 7 ≤ (wPortSideChannelTransactions2.port 0).aux.defers) ∧ ((wPortSideChannelTransactions2.bit
    (Reg.DPO_AUX_STATUS_BUSY 0) && !wPortSideChannelTransactions2.bit (Reg.DPO_LINK_STATUS_TRAINING 0)) = false
    ∨ (0 != 2 || (wPortSideChannelTransactions2.port 0).aux.defers == 7) = false) ∧ (wPortSideChannelTransactions2.bit
    (Reg.DPO_AUX_STATUS_BUSY 0) && !wPortSideChannelTransactions2.bit (Reg.DPO_LINK_STATUS_TRAINING 0)) = false ∧
  wPortSideChannelTransactions3.Admits World.secure 4 0 false ∧ wPortSideChannelTransactions3.bit
    (Reg.DPO_I2C_STATUS_BUSY 0) = true ∧ wPortSideChannelTransactions3.SourceFree (25 + 0) ∧ (wPortSideChannelTransactions3.get
    (Reg.DPO_I2C_CMD_REQ 0) != 0) = false ∧
  (wPortSideChannelTransactions4.bit (Reg.DPO_AUX_STATUS_BUSY 0) && !wPortSideChannelTransactions4.bit
    (Reg.DPO_LINK_STATUS_TRAINING 0)) = true ∧ (0 != 2 || (wPortSideChannelTransactions4.port 0).aux.defers == 7)
    = true ∧ (wPortSideChannelTransactions4.get (Reg.DPO_AUX_CMD_REQ 0) == 1 || wPortSideChannelTransactions4.get
    (Reg.DPO_AUX_CMD_REQ 0) == 5 || wPortSideChannelTransactions4.get (Reg.DPO_AUX_CMD_REQ 0) == 9) = true ∧
  wPortSideChannelTransactions5.bit (Reg.DPO_I2C_STATUS_BUSY 0) = true ∧ (wPortSideChannelTransactions5.get
    (Reg.DPO_I2C_CMD_REQ 0) != 0) = true := by
  try unfold State.Admits
  try unfold State.SourceFree
  try unfold State.LogRoom
  decide +kernel

def wPanelPowersInSequence1 : State := st [(Reg.DPO_PANEL_PANEL_ON 0, 1)]
def wPanelPowersInSequence2 : State := (st [(Reg.DPO_PANEL_BL_ON 0, 1), (Reg.DPO_LINK_STATUS_LINK_OK 0, 1),
  (Reg.XBAR_MAP_VALID 0, 1)]).setPort 0 { State.reset.port 0 with video := true }
def wPanelPowersInSequence3 : State := (st [(Reg.DPO_PANEL_PANEL_ON 0, 0)]).setPort 0 { State.reset.port 0 with down := 1 }
def wPanelPowersInSequence4 : State := st [(Reg.DPO_PANEL_PANEL_ON 0, 1)]
def wPanelPowersInSequence5 : State := (st []).setPort 0 { State.reset.port 0 with powerHeld := true, down := 0 }
def wPanelPowersInSequence6 : State := (st []).setPort 0 { State.reset.port 0 with awaitHpd := true }
def wPanelPowersInSequence7 : State := (st []).setPort 0 { State.reset.port 0 with down := 2 }

set_option synthInstance.maxHeartbeats 400000 in
set_option synthInstance.maxSize 4000 in
theorem witness_PanelPowersInSequence :
  wPanelPowersInSequence1.Admits World.secure 4 0 false ∧ (wPanelPowersInSequence1.bit (Reg.DPO_PANEL_PANEL_ON 0)
    = true ∨ wPanelPowersInSequence1.bit (Reg.DPO_PANEL_VDD_LIVE 0) = true ∧ (wPanelPowersInSequence1.port 0).down
    = 0) ∧ wPanelPowersInSequence1.screenOn 0 = none ∧ wPanelPowersInSequence1.bit (Reg.DPO_PANEL_PANEL_ON 0)
    = true ∧ ((wPanelPowersInSequence1.port 0).powerHeld = false ∨ (wPanelPowersInSequence1.port 0).down ≠ 0)
    ∧ (wPanelPowersInSequence1.port 0).awaitHpd = false ∧ (wPanelPowersInSequence1.port 0).down ≠ 1 ∧ (wPanelPowersInSequence1.port 0).down
    ≠ 2 ∧ (wPanelPowersInSequence1.bit (Reg.DPO_PANEL_BL_ON 0) = false ∨ (wPanelPowersInSequence1.bit
    (Reg.DPO_LINK_STATUS_LINK_OK 0) && (wPanelPowersInSequence1.port 0).video && (wPanelPowersInSequence1.screenOn 0).isSome)
    = false ∨ (wPanelPowersInSequence1.bit Reg.FLT_STATUS_C3 || (List.range 8).any fun n => wPanelPowersInSequence1.portOf n
    == 0 && (wPanelPowersInSequence1.scr n).c2.isSome) = true) ∧
  wPanelPowersInSequence2.Admits World.secure 4 0 false ∧ wPanelPowersInSequence2.bit (Reg.DPO_PANEL_PANEL_ON 0)
    = false ∧ (wPanelPowersInSequence2.port 0).down = 0 ∧ wPanelPowersInSequence2.bit (Reg.DPO_PANEL_VDD_LIVE 0)
    = false ∧ (false = true ∨ (wPanelPowersInSequence2.port 0).wentLow = false) ∧ wPanelPowersInSequence2.screenOn 0
    ≠ none ∧ wPanelPowersInSequence2.SourceFree (25 + 0) ∧ wPanelPowersInSequence2.bit (Reg.DPO_PANEL_BL_ON 0)
    = true ∧ (wPanelPowersInSequence2.bit (Reg.DPO_LINK_STATUS_LINK_OK 0) && (wPanelPowersInSequence2.port 0).video
    && (wPanelPowersInSequence2.screenOn 0).isSome) = true ∧ (wPanelPowersInSequence2.bit Reg.FLT_STATUS_C3 ||
    (List.range 8).any fun n => wPanelPowersInSequence2.portOf n == 0 && (wPanelPowersInSequence2.scr n).c2.isSome)
    = false ∧
  wPanelPowersInSequence3.Admits World.secure 4 0 false ∧ wPanelPowersInSequence3.bit (Reg.DPO_PANEL_PANEL_ON 0)
    = false ∧ ((wPanelPowersInSequence3.port 0).down ≠ 0 ∨ wPanelPowersInSequence3.bit (Reg.DPO_PANEL_VDD_LIVE 0)
    = false ∧ false = false ∧ (wPanelPowersInSequence3.port 0).wentLow = true) ∧ wPanelPowersInSequence3.screenOn 0
    = none ∧ (wPanelPowersInSequence3.port 0).down = 1 ∧
  wPanelPowersInSequence4.Admits World.secure 4 0 false ∧ wPanelPowersInSequence4.bit (Reg.DPO_PANEL_PANEL_ON 0)
    = true ∧
  (wPanelPowersInSequence5.port 0).powerHeld = true ∧ (wPanelPowersInSequence5.port 0).down = 0 ∧
  (wPanelPowersInSequence6.port 0).awaitHpd = true ∧ wPanelPowersInSequence6.SourceFree (25 + 0) ∧
  (wPanelPowersInSequence7.port 0).down = 2 := by
  try unfold State.Admits
  try unfold State.SourceFree
  try unfold State.LogRoom
  decide +kernel

def wLayerCommitAppliesWhenDue1 : State := st [(Reg.LAYER_OWNER_VALID 0, 1), (Reg.LAYER_OWNER_SESSION 0, 1),
  (Reg.LAYER_COMMIT_STATUS_STATE 0, 1)]
def wLayerCommitAppliesWhenDue2 : State := st [(({ addr := Reg.SYS_OWN 6 0, lo := 0, width := 1 } : Fld), 1)]
def wLayerCommitAppliesWhenDue3 : State := { st [(Reg.LAYER_BIND_LOCK 0, 1), (Reg.LAYER_ACT_CTRL_EN 0, 0), (Reg.LAYER_COMMIT_STATUS_STATE 0, 2)] with gated := [] }
def wLayerCommitAppliesWhenDue4 : State := st [(({ addr := Reg.SYS_OWN 6 0, lo := 0, width := 1 } : Fld), 1)]
def wLayerCommitAppliesWhenDue5 : State := st []
def wLayerCommitAppliesWhenDue6 : State := st [(Reg.LAYER_OWNER_VALID 0, 1), (Reg.LAYER_OWNER_SESSION 0, 1)]
def wLayerCommitAppliesWhenDue7 : State := st [(Reg.LAYER_OWNER_VALID 0, 1), (Reg.LAYER_OWNER_SESSION 0, 1)]
def wLayerCommitAppliesWhenDue8 : State := (st [(Reg.LAYER_COMMIT_STATUS_STATE 0, 1)]).setLay 0 { State.reset.lay 0 with loading := true, tables := (none, none) }
def wLayerCommitAppliesWhenDue9 : State := (st [(Reg.LAYER_COMMIT_STATUS_STATE 0, 1),
  (Reg.SYS_SRAM_SPLIT_UNITS, 0)]).setLay 0 { State.reset.lay 0 with loading := true, tables := (none, some 0xF00100000) }
def wLayerCommitAppliesWhenDue10 : State := (st [(Reg.LAYER_COMMIT_STATUS_STATE 0, 1)]).setLay 0 { State.reset.lay 0 with loading := true, tables := (none, some 0xE00000000) }
def wLayerCommitAppliesWhenDue11 : State := (st [(Reg.LAYER_COMMIT_STATUS_STATE 0, 1),
  (Reg.SYS_SRAM_SPLIT_UNITS, 0)]).setLay 0 { State.reset.lay 0 with loading := true, tables := (some 0xF00100000, none) }
def wLayerCommitAppliesWhenDue12 : State := ((st [(Reg.LAYER_COMMIT_STATUS_STATE 0, 1),
  (Reg.SYS_SRAM_SPLIT_UNITS, 0)]).setSramByte 0x100001 8).setLay 0 { State.reset.lay 0 with loading := true, tables := (some 0xF00100000, none) }
def wLayerCommitAppliesWhenDue13 : State := st [(Reg.LAYER_BIND_VALID 0, 1), (Reg.LAYER_COMMIT_FRAME_FRAME 0, 0xFFFFFFFF)]
def wLayerCommitAppliesWhenDue14 : State := st [(Reg.LAYER_BIND_VALID 0, 1), (Reg.LAYER_COMMIT_STATUS_STATE 0, 1),
  (Reg.SCREEN_STATUS_RUNNING 0, 1)]
def wLayerCommitAppliesWhenDue15 : State := st [(Reg.LAYER_BIND_VALID 0, 1), (Reg.SCREEN_STATUS_RUNNING 0, 1)]
def wLayerCommitAppliesWhenDue16 : State := (st [(Reg.LAYER_BIND_VALID 0, 1), (Reg.LAYER_COMMIT_STATUS_STATE 0, 1),
  (Reg.LAYER_CTRL_EN 0, 1)]).setScr 0 { State.reset.scr 0 with starting := true, held := some 0 }
def wLayerCommitAppliesWhenDue17 : State := (st [(Reg.LAYER_BIND_VALID 0, 1), (Reg.LAYER_COMMIT_STATUS_STATE 0, 1),
  (Reg.LAYER_CTRL_EN 0, 1), (Reg.LAYER_SCALE_SCL_EN 0, 1), (Reg.LAYER_SRC_SIZE_W 0, 1024),
  (Reg.LAYER_SRC_SIZE_H 0, 16383), (Reg.LAYER_DST_SIZE_W 0, 1), (Reg.LAYER_DST_SIZE_H 0, 1),
  (Reg.LAYER_SRC_STRIDE_STRIDE0 0, 0xFFFFFF), (Reg.LAYER_SRC_STRIDE_STRIDE1 0, 0xFFFFFF),
  (Reg.SCREEN_TIMING_H_H_TOTAL 0, 2200), (Reg.SCREEN_TIMING_H_H_ACTIVE 0, 1920),
  (Reg.SCREEN_TIMING_HS_HS_WIDTH 0, 44), (Reg.SCREEN_TIMING_HS_HS_FP 0, 88), (Reg.SCREEN_TIMING_V_V_TOTAL 0, 1125),
  (Reg.SCREEN_TIMING_V_V_ACTIVE 0, 1080), (Reg.SCREEN_TIMING_VS_VS_WIDTH 0, 5), (Reg.SCREEN_TIMING_VS_VS_FP 0, 4),
  (Reg.SCREEN_TIMING_BEAT_BEATS 0, 4)]).setScr 0 { State.reset.scr 0 with starting := true, held := some 0 }

set_option synthInstance.maxHeartbeats 400000 in
set_option synthInstance.maxSize 4000 in
theorem witness_LayerCommitAppliesWhenDue :
  (World.secure = World.normal → wLayerCommitAppliesWhenDue1.ownedSecure 6 0 = false) ∧ wLayerCommitAppliesWhenDue1.isGated 6 0
    = false ∧ ((wLayerCommitAppliesWhenDue1.bit (Reg.LAYER_ACT_CTRL_EN 0) || wLayerCommitAppliesWhenDue1.get
    (Reg.LAYER_COMMIT_STATUS_STATE 0) == 1 || !wLayerCommitAppliesWhenDue1.bit (Reg.LAYER_BIND_LOCK 0) && bitOf (BitVec.toNat (0 : BitVec 32)) 8
    && (List.range 64).any fun m => m != 0 && wLayerCommitAppliesWhenDue1.bit (Reg.LAYER_BIND_VALID m) && wLayerCommitAppliesWhenDue1.get
    (Reg.LAYER_BIND_SCREEN m) == getBits (0 : BitVec 32) 0 3 && wLayerCommitAppliesWhenDue1.get
    (Reg.LAYER_BIND_Z m) == getBits (0 : BitVec 32) 4 4) || !wLayerCommitAppliesWhenDue1.bit
    (Reg.LAYER_BIND_LOCK 0) && bitOf (BitVec.toNat (0 : BitVec 32)) 12 && (List.range 64).any fun m => m != 0
    && wLayerCommitAppliesWhenDue1.bit (Reg.LAYER_BIND_VIN_EN m) && wLayerCommitAppliesWhenDue1.get
    (Reg.LAYER_BIND_VIN m) == getBits (0 : BitVec 32) 10 2) = true ∧ (match LayerDoor.block (0 : Fin 64) World.normal with | LayerDoor.block m World.normal => wLayerCommitAppliesWhenDue1.ownedSecure 6 m.val | _ => false)
    = false ∧ (match LayerDoor.block (0 : Fin 64) World.normal with | LayerDoor.block m w => if wLayerCommitAppliesWhenDue1.isGated 6 m.val = true then none else if wLayerCommitAppliesWhenDue1.layerSession m.val = some 1 then some m.val else none | LayerDoor.page q x => Option.filter (fun m => !wLayerCommitAppliesWhenDue1.isGated 6 m) (wLayerCommitAppliesWhenDue1.layerHandle q.val x.val)).isSome
    = true ∧ (wLayerCommitAppliesWhenDue1.get (Reg.LAYER_COMMIT_STATUS_STATE ((match LayerDoor.block (0 : Fin 64) World.normal with | LayerDoor.block m w => if wLayerCommitAppliesWhenDue1.isGated 6 m.val = true then none else if wLayerCommitAppliesWhenDue1.layerSession m.val = some 1 then some m.val else none | LayerDoor.page q x => Option.filter (fun m => !wLayerCommitAppliesWhenDue1.isGated 6 m) (wLayerCommitAppliesWhenDue1.layerHandle q.val x.val)).getD 0))
    == 1) = true ∧ (wLayerCommitAppliesWhenDue1.get (Reg.LAYER_COMMIT_STATUS_STATE 0) == 1 && (wLayerCommitAppliesWhenDue1.lay 0).loading
    && !Option.any (fun x => wLayerCommitAppliesWhenDue1.startWaits x 1792) (wLayerCommitAppliesWhenDue1.lay 0).tables.fst
    && !Option.any (fun x => wLayerCommitAppliesWhenDue1.startWaits x 1024) (wLayerCommitAppliesWhenDue1.lay 0).tables.snd)
    = false ∧
  (World.secure = World.normal → wLayerCommitAppliesWhenDue2.ownedSecure 6 0 = false) ∧ wLayerCommitAppliesWhenDue2.isGated 6 0
    = false ∧ wLayerCommitAppliesWhenDue2.bit (Reg.LAYER_BIND_LOCK 0) = false ∧ ((wLayerCommitAppliesWhenDue2.bit
    (Reg.LAYER_ACT_CTRL_EN 0) || wLayerCommitAppliesWhenDue2.get (Reg.LAYER_COMMIT_STATUS_STATE 0) == 1 || !wLayerCommitAppliesWhenDue2.bit
    (Reg.LAYER_BIND_LOCK 0) && bitOf (BitVec.toNat (0 : BitVec 32)) 8 && (List.range 64).any fun m => m != 0
    && wLayerCommitAppliesWhenDue2.bit (Reg.LAYER_BIND_VALID m) && wLayerCommitAppliesWhenDue2.get
    (Reg.LAYER_BIND_SCREEN m) == getBits (0 : BitVec 32) 0 3 && wLayerCommitAppliesWhenDue2.get
    (Reg.LAYER_BIND_Z m) == getBits (0 : BitVec 32) 4 4) || !wLayerCommitAppliesWhenDue2.bit
    (Reg.LAYER_BIND_LOCK 0) && bitOf (BitVec.toNat (0 : BitVec 32)) 12 && (List.range 64).any fun m => m != 0
    && wLayerCommitAppliesWhenDue2.bit (Reg.LAYER_BIND_VIN_EN m) && wLayerCommitAppliesWhenDue2.get
    (Reg.LAYER_BIND_VIN m) == getBits (0 : BitVec 32) 10 2) = false ∧
  (World.secure = World.normal → wLayerCommitAppliesWhenDue3.ownedSecure 6 0 = false) ∧ wLayerCommitAppliesWhenDue3.isGated 6 0
    = false ∧ wLayerCommitAppliesWhenDue3.bit (Reg.LAYER_BIND_LOCK 0) = true ∧ ((wLayerCommitAppliesWhenDue3.bit
    (Reg.LAYER_ACT_CTRL_EN 0) || wLayerCommitAppliesWhenDue3.get (Reg.LAYER_COMMIT_STATUS_STATE 0) == 1 || !wLayerCommitAppliesWhenDue3.bit
    (Reg.LAYER_BIND_LOCK 0) && bitOf (BitVec.toNat (0 : BitVec 32)) 8 && (List.range 64).any fun m => m != 0
    && wLayerCommitAppliesWhenDue3.bit (Reg.LAYER_BIND_VALID m) && wLayerCommitAppliesWhenDue3.get
    (Reg.LAYER_BIND_SCREEN m) == getBits (0 : BitVec 32) 0 3 && wLayerCommitAppliesWhenDue3.get
    (Reg.LAYER_BIND_Z m) == getBits (0 : BitVec 32) 4 4) || !wLayerCommitAppliesWhenDue3.bit
    (Reg.LAYER_BIND_LOCK 0) && bitOf (BitVec.toNat (0 : BitVec 32)) 12 && (List.range 64).any fun m => m != 0
    && wLayerCommitAppliesWhenDue3.bit (Reg.LAYER_BIND_VIN_EN m) && wLayerCommitAppliesWhenDue3.get
    (Reg.LAYER_BIND_VIN m) == getBits (0 : BitVec 32) 10 2) = false ∧ (match LayerDoor.block (0 : Fin 64) World.secure with | LayerDoor.block m World.normal => wLayerCommitAppliesWhenDue3.ownedSecure 6 m.val | _ => false)
    = false ∧ (match LayerDoor.block (0 : Fin 64) World.secure with | LayerDoor.page q x => (wLayerCommitAppliesWhenDue3.layerHandle q.val x.val).isNone | _ => false)
    = false ∧ (match LayerDoor.block (0 : Fin 64) World.secure with | LayerDoor.block m w => if wLayerCommitAppliesWhenDue3.isGated 6 m.val = true then none else if wLayerCommitAppliesWhenDue3.layerSession m.val = some 1 then some m.val else none | LayerDoor.page q x => Option.filter (fun m => !wLayerCommitAppliesWhenDue3.isGated 6 m) (wLayerCommitAppliesWhenDue3.layerHandle q.val x.val))
    = none ∧
  (match LayerDoor.block (0 : Fin 64) World.normal with | LayerDoor.block m World.normal => wLayerCommitAppliesWhenDue4.ownedSecure 6 m.val | _ => false)
    = true ∧
  (match LayerDoor.page (0 : Fin 256) (0 : Fin 16) with | LayerDoor.page q x => (wLayerCommitAppliesWhenDue5.layerHandle q.val x.val).isNone | _ => false)
    = true ∧ wLayerCommitAppliesWhenDue5.layerHandle 0 0 = none ∧
  (match LayerDoor.block (0 : Fin 64) World.normal with | LayerDoor.block m World.normal => wLayerCommitAppliesWhenDue6.ownedSecure 6 m.val | _ => false)
    = false ∧ (match LayerDoor.block (0 : Fin 64) World.normal with | LayerDoor.block m w => if wLayerCommitAppliesWhenDue6.isGated 6 m.val = true then none else if wLayerCommitAppliesWhenDue6.layerSession m.val = some 1 then some m.val else none | LayerDoor.page q x => Option.filter (fun m => !wLayerCommitAppliesWhenDue6.isGated 6 m) (wLayerCommitAppliesWhenDue6.layerHandle q.val x.val)).isSome
    = true ∧ (wLayerCommitAppliesWhenDue6.get (Reg.LAYER_COMMIT_STATUS_STATE ((match LayerDoor.block (0 : Fin 64) World.normal with | LayerDoor.block m w => if wLayerCommitAppliesWhenDue6.isGated 6 m.val = true then none else if wLayerCommitAppliesWhenDue6.layerSession m.val = some 1 then some m.val else none | LayerDoor.page q x => Option.filter (fun m => !wLayerCommitAppliesWhenDue6.isGated 6 m) (wLayerCommitAppliesWhenDue6.layerHandle q.val x.val)).getD 0))
    == 1) = false ∧
  (match LayerDoor.block (0 : Fin 64) World.normal with | LayerDoor.block m World.normal => wLayerCommitAppliesWhenDue7.ownedSecure 6 m.val | _ => false)
    = false ∧ (match LayerDoor.block (0 : Fin 64) World.normal with | LayerDoor.block m w => if wLayerCommitAppliesWhenDue7.isGated 6 m.val = true then none else if wLayerCommitAppliesWhenDue7.layerSession m.val = some 1 then some m.val else none | LayerDoor.page q x => Option.filter (fun m => !wLayerCommitAppliesWhenDue7.isGated 6 m) (wLayerCommitAppliesWhenDue7.layerHandle q.val x.val)).isSome
    = true ∧ (wLayerCommitAppliesWhenDue7.get (Reg.LAYER_COMMIT_STATUS_STATE ((match LayerDoor.block (0 : Fin 64) World.normal with | LayerDoor.block m w => if wLayerCommitAppliesWhenDue7.isGated 6 m.val = true then none else if wLayerCommitAppliesWhenDue7.layerSession m.val = some 1 then some m.val else none | LayerDoor.page q x => Option.filter (fun m => !wLayerCommitAppliesWhenDue7.isGated 6 m) (wLayerCommitAppliesWhenDue7.layerHandle q.val x.val)).getD 0))
    == 1) = false ∧ wLayerCommitAppliesWhenDue7.layCheck ((match LayerDoor.block (0 : Fin 64) World.normal with | LayerDoor.block m w => if wLayerCommitAppliesWhenDue7.isGated 6 m.val = true then none else if wLayerCommitAppliesWhenDue7.layerSession m.val = some 1 then some m.val else none | LayerDoor.page q x => Option.filter (fun m => !wLayerCommitAppliesWhenDue7.isGated 6 m) (wLayerCommitAppliesWhenDue7.layerHandle q.val x.val)).getD 0) (withBit (0 : BitVec 32) 0)
    = none ∧ wLayerCommitAppliesWhenDue7.bit (Reg.LAYER_SCALE_SCL_EN ((match LayerDoor.block (0 : Fin 64) World.normal with | LayerDoor.block m w => if wLayerCommitAppliesWhenDue7.isGated 6 m.val = true then none else if wLayerCommitAppliesWhenDue7.layerSession m.val = some 1 then some m.val else none | LayerDoor.page q x => Option.filter (fun m => !wLayerCommitAppliesWhenDue7.isGated 6 m) (wLayerCommitAppliesWhenDue7.layerHandle q.val x.val)).getD 0))
    = false ∧ (wLayerCommitAppliesWhenDue7.bit (Reg.LAYER_BIND_VALID ((match LayerDoor.block (0 : Fin 64) World.normal with | LayerDoor.block m w => if wLayerCommitAppliesWhenDue7.isGated 6 m.val = true then none else if wLayerCommitAppliesWhenDue7.layerSession m.val = some 1 then some m.val else none | LayerDoor.page q x => Option.filter (fun m => !wLayerCommitAppliesWhenDue7.isGated 6 m) (wLayerCommitAppliesWhenDue7.layerHandle q.val x.val)).getD 0))
    = false ∨ wLayerCommitAppliesWhenDue7.bit (Reg.SCREEN_STATUS_LOWERED (wLayerCommitAppliesWhenDue7.get
    (Reg.LAYER_BIND_SCREEN ((match LayerDoor.block (0 : Fin 64) World.normal with | LayerDoor.block m w => if wLayerCommitAppliesWhenDue7.isGated 6 m.val = true then none else if wLayerCommitAppliesWhenDue7.layerSession m.val = some 1 then some m.val else none | LayerDoor.page q x => Option.filter (fun m => !wLayerCommitAppliesWhenDue7.isGated 6 m) (wLayerCommitAppliesWhenDue7.layerHandle q.val x.val)).getD 0))))
    = false) ∧
  (wLayerCommitAppliesWhenDue8.get (Reg.LAYER_COMMIT_STATUS_STATE 0) == 1 && (wLayerCommitAppliesWhenDue8.lay 0).loading
    && !Option.any (fun x => wLayerCommitAppliesWhenDue8.startWaits x 1792) (wLayerCommitAppliesWhenDue8.lay 0).tables.fst
    && !Option.any (fun x => wLayerCommitAppliesWhenDue8.startWaits x 1024) (wLayerCommitAppliesWhenDue8.lay 0).tables.snd)
    = true ∧ (wLayerCommitAppliesWhenDue8.lay 0).tables = (none, none) ∧
  (wLayerCommitAppliesWhenDue9.get (Reg.LAYER_COMMIT_STATUS_STATE 0) == 1 && (wLayerCommitAppliesWhenDue9.lay 0).loading
    && !Option.any (fun x => wLayerCommitAppliesWhenDue9.startWaits x 1792) (wLayerCommitAppliesWhenDue9.lay 0).tables.fst
    && !Option.any (fun x => wLayerCommitAppliesWhenDue9.startWaits x 1024) (wLayerCommitAppliesWhenDue9.lay 0).tables.snd)
    = true ∧ (wLayerCommitAppliesWhenDue9.lay 0).tables.fst = none ∧
  (wLayerCommitAppliesWhenDue10.get (Reg.LAYER_COMMIT_STATUS_STATE 0) == 1 && (wLayerCommitAppliesWhenDue10.lay 0).loading
    && !Option.any (fun x => wLayerCommitAppliesWhenDue10.startWaits x 1792) (wLayerCommitAppliesWhenDue10.lay 0).tables.fst
    && !Option.any (fun x => wLayerCommitAppliesWhenDue10.startWaits x 1024) (wLayerCommitAppliesWhenDue10.lay 0).tables.snd)
    = true ∧ (wLayerCommitAppliesWhenDue10.lay 0).tables.fst = none ∧ wLayerCommitAppliesWhenDue10.readBytes (if (wLayerCommitAppliesWhenDue10.bit
    (Reg.LAYER_BIND_VALID 0) && wLayerCommitAppliesWhenDue10.bit (Reg.SCREEN_STATUS_RUNNING (wLayerCommitAppliesWhenDue10.get
    (Reg.LAYER_BIND_SCREEN 0)))) = true then World.normal else wLayerCommitAppliesWhenDue10.ownerWorld 6 0) 60129542144 1024
    = none ∧
  (wLayerCommitAppliesWhenDue11.get (Reg.LAYER_COMMIT_STATUS_STATE 0) == 1 && (wLayerCommitAppliesWhenDue11.lay 0).loading
    && !Option.any (fun x => wLayerCommitAppliesWhenDue11.startWaits x 1792) (wLayerCommitAppliesWhenDue11.lay 0).tables.fst
    && !Option.any (fun x => wLayerCommitAppliesWhenDue11.startWaits x 1024) (wLayerCommitAppliesWhenDue11.lay 0).tables.snd)
    = true ∧ (wLayerCommitAppliesWhenDue11.lay 0).tables.snd = none ∧
  (wLayerCommitAppliesWhenDue12.get (Reg.LAYER_COMMIT_STATUS_STATE 0) == 1 && (wLayerCommitAppliesWhenDue12.lay 0).loading
    && !Option.any (fun x => wLayerCommitAppliesWhenDue12.startWaits x 1792) (wLayerCommitAppliesWhenDue12.lay 0).tables.fst
    && !Option.any (fun x => wLayerCommitAppliesWhenDue12.startWaits x 1024) (wLayerCommitAppliesWhenDue12.lay 0).tables.snd)
    = true ∧ (wLayerCommitAppliesWhenDue12.lay 0).tables.snd = none ∧
  frameLater (wLayerCommitAppliesWhenDue13.get (Reg.LAYER_COMMIT_FRAME_FRAME 0)) (wLayerCommitAppliesWhenDue13.frame (wLayerCommitAppliesWhenDue13.get
    (Reg.LAYER_BIND_SCREEN 0))) = false ∧ wLayerCommitAppliesWhenDue13.bit (Reg.LAYER_BIND_VALID 0) = true ∧
  (wLayerCommitAppliesWhenDue14.running 0 && !(wLayerCommitAppliesWhenDue14.scr 0).gap && !(wLayerCommitAppliesWhenDue14.scr 0).stopping
    && wLayerCommitAppliesWhenDue14.get (Reg.SCREEN_RETIME_STATE 0) != 1 && !(wLayerCommitAppliesWhenDue14.scr 0).halve
    && (wLayerCommitAppliesWhenDue14.layersOf 0).contains 0) = true ∧ ((wLayerCommitAppliesWhenDue14.get
    (Reg.LAYER_COMMIT_STATUS_STATE 0) == 1 && !(wLayerCommitAppliesWhenDue14.lay 0).loading && match (wLayerCommitAppliesWhenDue14.lay 0).sched with | some g => !frameLater g ((wLayerCommitAppliesWhenDue14.frame 0 + 1) % 2 ^ 32) | none => true)
    = true) ∧ (match (wLayerCommitAppliesWhenDue14.lay 0).fence with | some (i, value) => wLayerCommitAppliesWhenDue14.fenceReached ((wLayerCommitAppliesWhenDue14.layerSession 0).getD 0) i value | none => true)
    = true ∧
  (wLayerCommitAppliesWhenDue15.running 0 && !(wLayerCommitAppliesWhenDue15.scr 0).gap && !(wLayerCommitAppliesWhenDue15.scr 0).stopping
    && wLayerCommitAppliesWhenDue15.get (Reg.SCREEN_RETIME_STATE 0) != 1 && !(wLayerCommitAppliesWhenDue15.scr 0).halve
    && (wLayerCommitAppliesWhenDue15.layersOf 0).contains 0) = true ∧ ((wLayerCommitAppliesWhenDue15.get
    (Reg.LAYER_COMMIT_STATUS_STATE 0) == 1 && !(wLayerCommitAppliesWhenDue15.lay 0).loading && match (wLayerCommitAppliesWhenDue15.lay 0).sched with | some g => !frameLater g ((wLayerCommitAppliesWhenDue15.frame 0 + 1) % 2 ^ 32) | none => true)
    = false ∨ (match (wLayerCommitAppliesWhenDue15.lay 0).fence with | some (i, value) => wLayerCommitAppliesWhenDue15.fenceReached ((wLayerCommitAppliesWhenDue15.layerSession 0).getD 0) i value | none => true)
    = false) ∧
  wLayerCommitAppliesWhenDue16.activeUnderTest = false ∧ (wLayerCommitAppliesWhenDue16.scr 0).gap = false ∧ (wLayerCommitAppliesWhenDue16.scr 0).starting
    = true ∧ (wLayerCommitAppliesWhenDue16.scr 0).held = some 0 ∧ (wLayerCommitAppliesWhenDue16.layersOf 0).contains 0
    = true ∧ wLayerCommitAppliesWhenDue16.get (Reg.LAYER_COMMIT_STATUS_STATE 0) = 1 ∧ wLayerCommitAppliesWhenDue16.bit
    (Reg.LAYER_CTRL_EN 0) = true ∧ wLayerCommitAppliesWhenDue16.badGeometry 0 = true ∧
  wLayerCommitAppliesWhenDue17.activeUnderTest = false ∧ (wLayerCommitAppliesWhenDue17.scr 0).gap = false ∧ (wLayerCommitAppliesWhenDue17.scr 0).starting
    = true ∧ (wLayerCommitAppliesWhenDue17.scr 0).held = some 0 ∧ (wLayerCommitAppliesWhenDue17.layersOf 0).contains 0
    = true ∧ wLayerCommitAppliesWhenDue17.get (Reg.LAYER_COMMIT_STATUS_STATE 0) = 1 ∧ wLayerCommitAppliesWhenDue17.bit
    (Reg.LAYER_CTRL_EN 0) = true ∧ wLayerCommitAppliesWhenDue17.badGeometry 0 = false ∧ wLayerCommitAppliesWhenDue17.badRate 0
    = true := by
  try unfold State.Admits
  try unfold State.SourceFree
  try unfold State.LogRoom
  decide +kernel

def wVideoInputReceivesFrames1 : State := st [(Reg.VIN_CTRL_EN 0, 1)]
def wVideoInputReceivesFrames2 : State := st [(Reg.VIN_CTRL_EN 0, 1)]
def wVideoInputReceivesFrames3 : State := st [(Reg.VIN_CTRL_EN 0, 0)]
def wVideoInputReceivesFrames4 : State := st [(Reg.MSIDE_STATUS_STATE 0, 3), (Reg.MSIDE_CAP_USABLE 0, 480),
  (Reg.MSIDE_CAP_INSTALLED 0, 1), (Reg.VIN_SIZE_W 0, 2), (Reg.VIN_SIZE_H 0, 1), (Reg.VIN_STRIDE_STRIDE 0, 1),
  (Reg.VIN_BUF_ADDR 0 0, 16), (Reg.VIN_BUF_ADDR 0 1, 17), (Reg.VIN_BUF_ADDR 0 2, 18)]
def wVideoInputReceivesFrames5 : State := (st [(Reg.VIN_CTRL_EN 0, 1), (Reg.VIN_STATUS_LATEST 0, 0),
  (Reg.LAYER_BIND_VALID 0, 1), (Reg.LAYER_BIND_VIN_EN 0, 1)]).setLay 0 { State.reset.lay 0 with vinShown := some ⟨1, 0, 0, 0⟩ }
def wVideoInputReceivesFrames6 : State := (st [(Reg.VIN_CTRL_EN 0, 1)]).setVin 0 { State.reset.vin 0 with buf := some 0 }
def wVideoInputReceivesFrames7 : State := (st [(Reg.VIN_CTRL_EN 0, 1), (Reg.MSIDE_STATUS_STATE 0, 3),
  (Reg.MSIDE_CAP_USABLE 0, 480), (Reg.MSIDE_CAP_INSTALLED 0, 1), (Reg.VIN_SIZE_W 0, 2), (Reg.VIN_SIZE_H 0, 1),
  (Reg.VIN_STRIDE_STRIDE 0, 1), (Reg.VIN_BUF_ADDR 0 0, 16), (Reg.VIN_BUF_ADDR 0 1, 17), (Reg.VIN_BUF_ADDR 0 2, 18)]).setVin 0 { State.reset.vin 0 with buf := some 0 }
def wVideoInputReceivesFrames8 : State := st [(Reg.VIN_CTRL_EN 0, 1)]
def wVideoInputReceivesFrames9 : State := (st [(Reg.VIN_CTRL_EN 0, 1)]).setVin 0 { State.reset.vin 0 with buf := some 0 }
def wVideoInputReceivesFrames10 : State := (st [(Reg.VIN_CTRL_EN 0, 1), (Reg.MSIDE_STATUS_STATE 0, 3),
  (Reg.MSIDE_CAP_USABLE 0, 480), (Reg.MSIDE_CAP_INSTALLED 0, 1), (Reg.VIN_SIZE_W 0, 2), (Reg.VIN_SIZE_H 0, 1),
  (Reg.VIN_STRIDE_STRIDE 0, 1), (Reg.VIN_BUF_ADDR 0 0, 16), (Reg.VIN_BUF_ADDR 0 1, 17), (Reg.VIN_BUF_ADDR 0 2, 18)]).setVin 0 { State.reset.vin 0 with buf := some 0 }

set_option synthInstance.maxHeartbeats 400000 in
set_option synthInstance.maxSize 4000 in
theorem witness_VideoInputReceivesFrames :
  wVideoInputReceivesFrames1.Admits World.secure 9 0 false ∧ wVideoInputReceivesFrames1.bit (Reg.VIN_CTRL_EN 0)
    = true ∧ wVideoInputReceivesFrames1.SourceFree (55 + 0) ∧ wVideoInputReceivesFrames1.onlyChanges
    (Reg.VIN_CTRL 0) (1 : Word) (withBit (0 : Word) 0) = false ∧ (wVideoInputReceivesFrames1.bit
    (Reg.VIN_CTRL_EN 0) && wVideoInputReceivesFrames1.get (Reg.VIN_CTRL_VC 0) == BitVec.toNat (0 : BitVec 2))
    = true ∧ (wVideoInputReceivesFrames1.vin 0).buf = none ∧ 2 ≤ (wVideoInputReceivesFrames1.vinFree 0).length ∧
  wVideoInputReceivesFrames2.Admits World.secure 9 0 false ∧ wVideoInputReceivesFrames2.bit (Reg.VIN_CTRL_EN 0)
    = true ∧ wVideoInputReceivesFrames2.onlyChanges (Reg.VIN_CTRL 0) (1 : Word) (withBit (State.reset.reg
    (Reg.VIN_CTRL 0) ||| (1 : Word)) 0) = true ∧
  wVideoInputReceivesFrames3.Admits World.secure 9 0 false ∧ wVideoInputReceivesFrames3.bit (Reg.VIN_CTRL_EN 0)
    = false ∧ wVideoInputReceivesFrames3.vinRefused 0 (withBit (0 : BitVec 32) 0) = true ∧ wVideoInputReceivesFrames3.SourceFree (55 + 0)
    ∧ (wVideoInputReceivesFrames3.bit (Reg.VIN_CTRL_EN 0) && wVideoInputReceivesFrames3.get (Reg.VIN_CTRL_VC 0)
    == BitVec.toNat (0 : BitVec 2)) = false ∧
  wVideoInputReceivesFrames4.Admits World.secure 9 0 false ∧ wVideoInputReceivesFrames4.bit (Reg.VIN_CTRL_EN 0)
    = false ∧ wVideoInputReceivesFrames4.vinRefused 0 (withBit (0 : Word) 0) = false ∧
  (wVideoInputReceivesFrames5.bit (Reg.VIN_CTRL_EN 0) && wVideoInputReceivesFrames5.get (Reg.VIN_CTRL_VC 0) == BitVec.toNat (0 : BitVec 2))
    = true ∧ (wVideoInputReceivesFrames5.vin 0).buf = none ∧ wVideoInputReceivesFrames5.vinFree 0 = [2] ∧ wVideoInputReceivesFrames5.bit
    (Reg.VIN_CTRL_EN 0) = true ∧ ((wVideoInputReceivesFrames5.get (Reg.VIN_CTRL_VC 0) == BitVec.toNat (0 : BitVec 2)
    && BitVec.toNat (0 : BitVec 6) == if wVideoInputReceivesFrames5.bit (Reg.VIN_CTRL_DT 0) = true then 36 else 30)
    = false) ∧
  (wVideoInputReceivesFrames6.bit (Reg.VIN_CTRL_EN 0) && wVideoInputReceivesFrames6.get (Reg.VIN_CTRL_VC 0) == BitVec.toNat (0 : BitVec 2))
    = true ∧ (wVideoInputReceivesFrames6.vin 0).buf.isSome = true ∧ (!(wVideoInputReceivesFrames6.vin 0).sizeBad
    && !(wVideoInputReceivesFrames6.vin 0).crcBad && !(wVideoInputReceivesFrames6.vin 0).eccBad && (wVideoInputReceivesFrames6.vin 0).lines
    == wVideoInputReceivesFrames6.get (Reg.VIN_SIZE_H 0)) = true ∧ wVideoInputReceivesFrames6.bit
    (Reg.VIN_CTRL_EN 0) = true ∧
  (wVideoInputReceivesFrames7.bit (Reg.VIN_CTRL_EN 0) && wVideoInputReceivesFrames7.get (Reg.VIN_CTRL_VC 0) == BitVec.toNat (0 : BitVec 2))
    = true ∧ (wVideoInputReceivesFrames7.vin 0).buf.isSome = true ∧ (!(wVideoInputReceivesFrames7.vin 0).sizeBad
    && !(wVideoInputReceivesFrames7.vin 0).crcBad && !(wVideoInputReceivesFrames7.vin 0).eccBad && (wVideoInputReceivesFrames7.vin 0).lines
    == wVideoInputReceivesFrames7.get (Reg.VIN_SIZE_H 0)) = false ∧
  wVideoInputReceivesFrames8.bit (Reg.VIN_CTRL_EN 0) = true ∧ ((wVideoInputReceivesFrames8.get
    (Reg.VIN_CTRL_VC 0) == BitVec.toNat (0 : BitVec 2) && BitVec.toNat (30 : BitVec 6) == if wVideoInputReceivesFrames8.bit
    (Reg.VIN_CTRL_DT 0) = true then 36 else 30) = true) ∧ (wVideoInputReceivesFrames8.vin 0).buf = none ∧
  wVideoInputReceivesFrames9.bit (Reg.VIN_CTRL_EN 0) = true ∧ ((wVideoInputReceivesFrames9.get
    (Reg.VIN_CTRL_VC 0) == BitVec.toNat (0 : BitVec 2) && BitVec.toNat (30 : BitVec 6) == if wVideoInputReceivesFrames9.bit
    (Reg.VIN_CTRL_DT 0) = true then 36 else 30) = true) ∧ (wVideoInputReceivesFrames9.vin 0).buf.isSome = true
    ∧ (wVideoInputReceivesFrames9.get (Reg.VIN_SIZE_H 0) ≤ (wVideoInputReceivesFrames9.vin 0).lines ∨ List.take ((if wVideoInputReceivesFrames9.bit
    (Reg.VIN_CTRL_DT 0) = true then 4 else 2) * wVideoInputReceivesFrames9.get (Reg.VIN_SIZE_W 0)) (vinBytes (wVideoInputReceivesFrames9.bit
    (Reg.VIN_CTRL_DT 0)) []) = []) ∧ wVideoInputReceivesFrames9.LogRoom ∧
  wVideoInputReceivesFrames10.bit (Reg.VIN_CTRL_EN 0) = true ∧ ((wVideoInputReceivesFrames10.get
    (Reg.VIN_CTRL_VC 0) == BitVec.toNat (0 : BitVec 2) && BitVec.toNat (30 : BitVec 6) == if wVideoInputReceivesFrames10.bit
    (Reg.VIN_CTRL_DT 0) = true then 36 else 30) = true) ∧ (wVideoInputReceivesFrames10.vin 0).buf.isSome = true
    ∧ (wVideoInputReceivesFrames10.vin 0).lines < wVideoInputReceivesFrames10.get (Reg.VIN_SIZE_H 0) ∧ List.take ((if wVideoInputReceivesFrames10.bit
    (Reg.VIN_CTRL_DT 0) = true then 4 else 2) * wVideoInputReceivesFrames10.get (Reg.VIN_SIZE_W 0)) (vinBytes (wVideoInputReceivesFrames10.bit
    (Reg.VIN_CTRL_DT 0)) [(1 : Byte), (2 : Byte), (3 : Byte), (4 : Byte)]) ≠ [] ∧ (wVideoInputReceivesFrames10.writeMem World.normal (256 * wVideoInputReceivesFrames10.get
    (Reg.VIN_BUF_ADDR 0 ((wVideoInputReceivesFrames10.vin 0).buf.getD 0)) + (wVideoInputReceivesFrames10.vin 0).lines * (wVideoInputReceivesFrames10.get
    (Reg.VIN_STRIDE_STRIDE 0) * 64)) (List.take ((if wVideoInputReceivesFrames10.bit (Reg.VIN_CTRL_DT 0) = true then 4 else 2) * wVideoInputReceivesFrames10.get
    (Reg.VIN_SIZE_W 0)) (vinBytes (wVideoInputReceivesFrames10.bit (Reg.VIN_CTRL_DT 0)) [(1 : Byte), (2 : Byte), (3 : Byte), (4 : Byte)]))).fst
    = WrRes.ok := by
  try unfold State.Admits
  try unfold State.SourceFree
  try unfold State.LogRoom
  decide +kernel

def wProtectedContentIsVouched1 : State := (st [(Reg.PROT_COMMIT_STATUS_STATE 0, 1), (Reg.PROT_PAL_ADDR_ADDR 0, 0xF000000)]).setProt 0 { State.reset.prot 0 with loading := true }
def wProtectedContentIsVouched2 : State := st [(Reg.PROT_ACT_CTRL_EN 0, 1), (Reg.PROT_ACT_CTRL_RECT_EN 0, 1),
  (Reg.PROT_ACT_RECT_SIZE_W 0 0, 128), (Reg.PROT_ACT_RECT_SIZE_H 0 0, 1), (Reg.PROT_ACT_RECT_SRC_ADDR 0 0, 0xF000000),
  (Reg.PROT_ACT_RECT_CHK_ADDR 0 0, 0xF001000)]
def wProtectedContentIsVouched3 : State := st [(Reg.PROT_ACT_CTRL_EN 0, 1), (Reg.PROT_ACT_CTRL_RECT_EN 0, 1),
  (Reg.PROT_ACT_RECT_SIZE_W 0 0, 128), (Reg.PROT_ACT_RECT_SIZE_H 0 0, 1), (Reg.PROT_ACT_RECT_SRC_ADDR 0 0, 0xF000000),
  (Reg.PROT_ACT_RECT_CHK_ADDR 0 0, 0xF001000)]
def wProtectedContentIsVouched4 : State := st []
def wProtectedContentIsVouched5 : State := ((st [(Reg.SCREEN_STATUS_RUNNING 0, 1), (Reg.SCREEN_RETIME_STATE 0, 2),
  (Reg.PROT_COMMIT_STATUS_STATE 0, 1)]).setScr 0 { State.reset.scr 0 with gap := false, stopping := false, halve := false }).setProt 0 { State.reset.prot 0 with loading := false }
def wProtectedContentIsVouched6 : State := (st [(Reg.SCREEN_STATUS_RUNNING 0, 1), (Reg.SCREEN_RETIME_STATE 0, 2),
  (Reg.PROT_COMMIT_STATUS_STATE 0, 2)]).setScr 0 { State.reset.scr 0 with gap := false, stopping := false, halve := false }
def wProtectedContentIsVouched8 : State := st [(Reg.PROT_ACT_CTRL_EN 0, 1), (Reg.PROT_ACT_CTRL_RECT_EN 0, 1),
  (Reg.PROT_ACT_RECT_SIZE_W 0 0, 128), (Reg.PROT_ACT_RECT_SIZE_H 0 0, 1), (Reg.PROT_ACT_RECT_SRC_ADDR 0 0, 0xF000000),
  (Reg.PROT_ACT_RECT_CHK_ADDR 0 0, 0xF001000)]
def wProtectedContentIsVouched9 : State := st [(Reg.SXT_STATUS_STATE 0, 2)]
def wProtectedContentIsVouched10 : State := (st []).setPort 0 { State.reset.port 0 with forced := (some 0) }
def wProtectedContentIsVouched11 : State := st [(Reg.DPO_CMP_TEST_GO 0, 1)]

set_option synthInstance.maxHeartbeats 400000 in
set_option synthInstance.maxSize 4000 in
theorem witness_ProtectedContentIsVouched :
  wProtectedContentIsVouched1.Admits World.secure 7 0 false ∧ (wProtectedContentIsVouched1.get
    (Reg.PROT_COMMIT_STATUS_STATE 0) == 1) = true ∧ wProtectedContentIsVouched1.SourceFree (1 + 0) ∧ wProtectedContentIsVouched1.reg
    (Reg.SCREEN_FRAME 0) ≠ (0 : BitVec 32) ∧ (wProtectedContentIsVouched1.get (Reg.PROT_COMMIT_STATUS_STATE 0)
    == 1 && (wProtectedContentIsVouched1.prot 0).loading && !wProtectedContentIsVouched1.startWaits (256 * wProtectedContentIsVouched1.get
    (Reg.PROT_PAL_ADDR_ADDR 0)) 1024) = true ∧ (((wProtectedContentIsVouched1.liveRects 0).contains 0 && decide (0
    < (wProtectedContentIsVouched1.actRect 0 0).h) && decide (0 < wProtectedContentIsVouched1.tileRows 0 0)) = false
    ∨ (wProtectedContentIsVouched1.scr 0).sextant = none ∨ (wProtectedContentIsVouched1.startWaits (wProtectedContentIsVouched1.tileAt 0 0 0 0).fst (wProtectedContentIsVouched1.tileAt 0 0 0 0).snd
    || wProtectedContentIsVouched1.startWaits (wProtectedContentIsVouched1.tileCheckAt 0 0 0 0) 4) = true) ∧ wProtectedContentIsVouched1.Admits World.secure 10 0 false
    ∧ (wProtectedContentIsVouched1.get (Reg.SXT_STATUS_STATE 0) == 1 || wProtectedContentIsVouched1.get
    (Reg.SXT_STATUS_STATE 0) == 0 && !(List.range 8).any wProtectedContentIsVouched1.running) = true ∧ List.find? (fun p => p.fst
    == 0) wProtectedContentIsVouched1.sxtBack = none ∧ (wProtectedContentIsVouched1.get (Reg.SXT_STATUS_STATE 0)
    == 2 && !(bitOf (wProtectedContentIsVouched1.get Reg.WEAR_WORN_MARK) (10 + 0) && (List.range 8).any fun m => wProtectedContentIsVouched1.running m
    && (wProtectedContentIsVouched1.scr m).sextant == some 0)) = false ∧ wProtectedContentIsVouched1.Admits World.secure 4 0 true
    ∧ (wProtectedContentIsVouched1.bit (Reg.DPO_CMP_TEST_GO 0) = false ∨ (match wProtectedContentIsVouched1.screenOn 0 with | none => true | some m => (wProtectedContentIsVouched1.scr m).blanking || (wProtectedContentIsVouched1.scr m).gap || decide (wProtectedContentIsVouched1.get (Reg.SCREEN_TIMING_V_V_ACTIVE m) ≤ wProtectedContentIsVouched1.get (Reg.SCREEN_STATUS_LINE m)))
    = false) ∧
  wProtectedContentIsVouched2.Admits World.secure 7 0 false ∧ (wProtectedContentIsVouched2.get
    (Reg.PROT_COMMIT_STATUS_STATE 0) == 1) = false ∧ wProtectedContentIsVouched2.SourceFree (1 + 0) ∧ ((wProtectedContentIsVouched2.liveRects 0).contains 0
    && decide (0 < (wProtectedContentIsVouched2.actRect 0 0).h) && decide (0 < wProtectedContentIsVouched2.tileRows 0 0))
    = true ∧ (wProtectedContentIsVouched2.startWaits (wProtectedContentIsVouched2.tileAt 0 0 0 0).fst (wProtectedContentIsVouched2.tileAt 0 0 0 0).snd
    || wProtectedContentIsVouched2.startWaits (wProtectedContentIsVouched2.tileCheckAt 0 0 0 0) 4) = false ∧ (wProtectedContentIsVouched2.readBytes World.secure (wProtectedContentIsVouched2.tileAt 0 0 0 0).fst (wProtectedContentIsVouched2.tileAt 0 0 0 0).snd).isSome
    = true ∧ (wProtectedContentIsVouched2.readBytes World.secure (wProtectedContentIsVouched2.tileCheckAt 0 0 0 0) 4).isSome
    = true ∧ ((wProtectedContentIsVouched2.readBytes World.secure (wProtectedContentIsVouched2.tileAt 0 0 0 0).fst (wProtectedContentIsVouched2.tileAt 0 0 0 0).snd).isSome
    && (wProtectedContentIsVouched2.readBytes World.secure (wProtectedContentIsVouched2.tileCheckAt 0 0 0 0) 4).isSome
    && crc32c (checkPrefix (wProtectedContentIsVouched2.tileAt 0 0 0 0).fst (wProtectedContentIsVouched2.get
    (Reg.PROT_ACT_SEQ_SEQ 0)) ++ (wProtectedContentIsVouched2.readBytes World.secure (wProtectedContentIsVouched2.tileAt 0 0 0 0).fst (wProtectedContentIsVouched2.tileAt 0 0 0 0).snd).getD [])
    == leNat ((wProtectedContentIsVouched2.readBytes World.secure (wProtectedContentIsVouched2.tileCheckAt 0 0 0 0) 4).getD []))
    = false ∧
  wProtectedContentIsVouched3.Admits World.secure 7 0 false ∧ (wProtectedContentIsVouched3.get
    (Reg.PROT_COMMIT_STATUS_STATE 0) == 1) = false ∧ wProtectedContentIsVouched3.SourceFree (1 + 0) ∧ wProtectedContentIsVouched3.protCheck 0 (withBit (0 : BitVec 32) 0)
    = none ∧ wProtectedContentIsVouched3.bit (Reg.SCREEN_STATUS_LOWERED 0) = false ∧ (wProtectedContentIsVouched3.get
    (Reg.PROT_COMMIT_STATUS_STATE 0) == 1 && (wProtectedContentIsVouched3.prot 0).loading && !wProtectedContentIsVouched3.startWaits (256 * wProtectedContentIsVouched3.get
    (Reg.PROT_PAL_ADDR_ADDR 0)) 1024) = false ∧
  wProtectedContentIsVouched4.Admits World.secure 7 7 false ∧ wProtectedContentIsVouched4.reg
    (Reg.SCREEN_FRAME 7) = (4294967295 : BitVec 32) ∧ wProtectedContentIsVouched4.Admits World.secure 4 7 true
    ∧ (wProtectedContentIsVouched4.port 7).forced = none ∧ wProtectedContentIsVouched4.SourceFree (33 + 7) ∧
  (wProtectedContentIsVouched5.running 0 && !(wProtectedContentIsVouched5.scr 0).gap && !(wProtectedContentIsVouched5.scr 0).stopping
    && wProtectedContentIsVouched5.get (Reg.SCREEN_RETIME_STATE 0) != 1 && !(wProtectedContentIsVouched5.scr 0).halve)
    = true ∧ ((wProtectedContentIsVouched5.get (Reg.PROT_COMMIT_STATUS_STATE 0) == 1 && !(wProtectedContentIsVouched5.prot 0).loading
    && match (wProtectedContentIsVouched5.prot 0).sched with | some g => !frameLater g ((wProtectedContentIsVouched5.frame 0 + 1) % 2 ^ 32) | none => true)
    = true) ∧ wProtectedContentIsVouched5.Admits World.secure 10 0 false ∧ (wProtectedContentIsVouched5.get
    (Reg.SXT_STATUS_STATE 0) == 1 || wProtectedContentIsVouched5.get (Reg.SXT_STATUS_STATE 0) == 0 && !(List.range 8).any wProtectedContentIsVouched5.running)
    = false ∧
  (wProtectedContentIsVouched6.running 0 && !(wProtectedContentIsVouched6.scr 0).gap && !(wProtectedContentIsVouched6.scr 0).stopping
    && wProtectedContentIsVouched6.get (Reg.SCREEN_RETIME_STATE 0) != 1 && !(wProtectedContentIsVouched6.scr 0).halve)
    = true ∧ ((wProtectedContentIsVouched6.get (Reg.PROT_COMMIT_STATUS_STATE 0) == 1 && !(wProtectedContentIsVouched6.prot 0).loading
    && match (wProtectedContentIsVouched6.prot 0).sched with | some g => !frameLater g ((wProtectedContentIsVouched6.frame 0 + 1) % 2 ^ 32) | none => true)
    = false) ∧
  wProtectedContentIsVouched8.SourceFree (41 + 0) ∧
  (wProtectedContentIsVouched9.get (Reg.SXT_STATUS_STATE 0) == 2 && !(bitOf (wProtectedContentIsVouched9.get Reg.WEAR_WORN_MARK) (10 + 0)
    && (List.range 8).any fun m => wProtectedContentIsVouched9.running m && (wProtectedContentIsVouched9.scr m).sextant
    == some 0)) = true ∧
  wProtectedContentIsVouched10.Admits World.secure 4 0 true ∧ (wProtectedContentIsVouched10.port 0).forced.isSome
    = true ∧
  wProtectedContentIsVouched11.bit (Reg.DPO_CMP_TEST_GO 0) = true ∧ (match wProtectedContentIsVouched11.screenOn 0 with | none => true | some m => (wProtectedContentIsVouched11.scr m).blanking || (wProtectedContentIsVouched11.scr m).gap || decide (wProtectedContentIsVouched11.get (Reg.SCREEN_TIMING_V_V_ACTIVE m) ≤ wProtectedContentIsVouched11.get (Reg.SCREEN_STATUS_LINE m)))
    = true := by
  try unfold State.Admits
  try unfold State.SourceFree
  try unfold State.LogRoom
  decide +kernel

def wSilvosLinkCarriesScans1 : State := st [(Reg.TSL_STATUS_STATE 0, 2)]
def wSilvosLinkCarriesScans2 : State := st [(Reg.TSL_CTRL_EN 0, 1), (Reg.TSL_CTRL_MARK_LEAD 0, 0)]
def wSilvosLinkCarriesScans3 : State := st [(Reg.TSL_STATUS_STATE 0, 1)]
def wSilvosLinkCarriesScans4 : State := (st [(Reg.TSL_STATUS_STATE 0, 3)]).setTch 0 { State.reset.tch 0 with scan.active := true, scan.opens := 1 }
def wSilvosLinkCarriesScans5 : State := (st [(Reg.TSL_STATUS_STATE 0, 1)]).setTch 0 { State.reset.tch 0 with scan.active := true }
def wSilvosLinkCarriesScans6 : State := (st [(Reg.TSL_STATUS_STATE 0, 3)]).setTch 0 { State.reset.tch 0 with scan.active := true, scan.groups := 2 }
def wSilvosLinkCarriesScans7 : State := (st []).setTch 0 { State.reset.tch 0 with scan.active := true, scan.quiet := false, scan.isOpen := true }
def wSilvosLinkCarriesScans8 : State := (st [(Reg.TSL_STATUS_STATE 0, 3), (Reg.SCREEN_STATUS_RUNNING 0, 1)]).setTch 0 { State.reset.tch 0 with scan.active := true, scan.quiet := true, scan.marks := [⟨.close, 0, 10⟩] }
def wSilvosLinkCarriesScans9 : State := (st [(Reg.TSL_STATUS_STATE 0, 3)]).setTch 0 { State.reset.tch 0 with scan.active := true, scan.quiet := true }
def wSilvosLinkCarriesScans10 : State := (st [(Reg.TSL_STATUS_STATE 0, 3)]).setTch 0 { State.reset.tch 0 with scan.active := false }
def wSilvosLinkCarriesScans11 : State := (st [(Reg.TSL_STATUS_STATE 0, 3)]).setTch 0 { State.reset.tch 0 with scan.active := true, scan.dseq := 1 }
def wSilvosLinkCarriesScans12 : State := (st [(Reg.TSL_STATUS_STATE 0, 3)]).setTch 0 { State.reset.tch 0 with scan.active := true, scan.groups := 1 }
def wSilvosLinkCarriesScans13 : State := (st [(Reg.TSL_STATUS_STATE 0, 3)]).setTch 0 { State.reset.tch 0 with discarded := 8 }

set_option synthInstance.maxHeartbeats 400000 in
set_option synthInstance.maxSize 4000 in
theorem witness_SilvosLinkCarriesScans :
  wSilvosLinkCarriesScans1.Admits World.secure 15 0 false ∧ wSilvosLinkCarriesScans1.bit (Reg.TSL_CTRL_EN 0) = false
    ∧ wSilvosLinkCarriesScans1.get (Reg.TSL_STATUS_STATE 0) ≠ 1 ∧ (wSilvosLinkCarriesScans1.get
    (Reg.TSL_STATUS_STATE 0) = 1 ∨ wSilvosLinkCarriesScans1.get (Reg.TSL_STATUS_STATE 0) = 2) ∧ wSilvosLinkCarriesScans1.get
    (Reg.TSL_STATUS_STATE 0) ≠ 0 ∧ (crc16 (leBytes 2 (wSilvosLinkCarriesScans1.tch 0).fseq ++ [(1 : Byte), (0 : Byte), (0 : Byte), (0 : Byte), (0 : Byte), (1 : Byte), (0 : Byte), (0 : Byte), (0 : Byte), (0 : Byte), (0 : Byte), (0 : Byte), (0 : Byte)])
    == (BitVec.ofNat 16 (crc16 (leBytes 2 0 ++ [(1 : Byte), (0 : Byte), (0 : Byte), (0 : Byte), (0 : Byte), (1 : Byte), (0 : Byte), (0 : Byte), (0 : Byte), (0 : Byte), (0 : Byte), (0 : Byte), (0 : Byte)]))).toNat)
    = true ∧ (wSilvosLinkCarriesScans1.get (Reg.TSL_STATUS_STATE 0) == 2 && [(1 : Byte), (0 : Byte), (0 : Byte), (0 : Byte), (0 : Byte), (1 : Byte), (0 : Byte), (0 : Byte), (0 : Byte), (0 : Byte), (0 : Byte), (0 : Byte), (0 : Byte)].length
    == 13 && byteAt [(1 : Byte), (0 : Byte), (0 : Byte), (0 : Byte), (0 : Byte), (1 : Byte), (0 : Byte), (0 : Byte), (0 : Byte), (0 : Byte), (0 : Byte), (0 : Byte), (0 : Byte)] 0
    == 1 && byteAt [(1 : Byte), (0 : Byte), (0 : Byte), (0 : Byte), (0 : Byte), (1 : Byte), (0 : Byte), (0 : Byte), (0 : Byte), (0 : Byte), (0 : Byte), (0 : Byte), (0 : Byte)] 5
    == 1) = true ∧ wSilvosLinkCarriesScans1.bit (Reg.TOUCH_CTRL_EN 0) = false ∧ wSilvosLinkCarriesScans1.bit
    (Reg.FLT_IN_STATUS_CAUSE (160 + 0)) = false ∧ wSilvosLinkCarriesScans1.SourceFree (63 + 0) ∧ (false = false
    ∨ (wSilvosLinkCarriesScans1.tch 0).scan.active = false) ∧ (wSilvosLinkCarriesScans1.tch 0).scan.active = false
    ∧ wSilvosLinkCarriesScans1.get (Reg.TSL_STATUS_STATE 0) ≠ 3 ∧
  wSilvosLinkCarriesScans2.Admits World.secure 15 0 false ∧ wSilvosLinkCarriesScans2.bit (Reg.TSL_CTRL_EN 0) = true
    ∧ ((getBits (0 : BitVec 32) 16 9 == wSilvosLinkCarriesScans2.get (Reg.TSL_CTRL_MARK_LEAD 0)) = true ∨ wSilvosLinkCarriesScans2.SourceFree (63 + 0))
    ∧ (wSilvosLinkCarriesScans2.get (Reg.TSL_STATUS_STATE 0) = 0 ∨ wSilvosLinkCarriesScans2.get
    (Reg.TSL_STATUS_STATE 0) = 3) ∧ wSilvosLinkCarriesScans2.get (Reg.TSL_STATUS_STATE 0) = 0 ∧
  wSilvosLinkCarriesScans3.get (Reg.TSL_STATUS_STATE 0) = 1 ∧ wSilvosLinkCarriesScans3.get
    (Reg.TSL_STATUS_STATE 0) ≠ 0 ∧ (crc16 (leBytes 2 (wSilvosLinkCarriesScans3.tch 0).fseq ++ [(1 : Byte), (0 : Byte), (0 : Byte), (0 : Byte), (0 : Byte), (1 : Byte), (0 : Byte), (0 : Byte), (0 : Byte), (0 : Byte), (0 : Byte), (0 : Byte), (0 : Byte)])
    == (BitVec.ofNat 16 (crc16 (leBytes 2 0 ++ [(1 : Byte), (0 : Byte), (0 : Byte), (0 : Byte), (0 : Byte), (1 : Byte), (0 : Byte), (0 : Byte), (0 : Byte), (0 : Byte), (0 : Byte), (0 : Byte), (0 : Byte)]))).toNat)
    = true ∧ (wSilvosLinkCarriesScans3.get (Reg.TSL_STATUS_STATE 0) == 2 && [(1 : Byte), (0 : Byte), (0 : Byte), (0 : Byte), (0 : Byte), (1 : Byte), (0 : Byte), (0 : Byte), (0 : Byte), (0 : Byte), (0 : Byte), (0 : Byte), (0 : Byte)].length
    == 13 && byteAt [(1 : Byte), (0 : Byte), (0 : Byte), (0 : Byte), (0 : Byte), (1 : Byte), (0 : Byte), (0 : Byte), (0 : Byte), (0 : Byte), (0 : Byte), (0 : Byte), (0 : Byte)] 0
    == 1 && byteAt [(1 : Byte), (0 : Byte), (0 : Byte), (0 : Byte), (0 : Byte), (1 : Byte), (0 : Byte), (0 : Byte), (0 : Byte), (0 : Byte), (0 : Byte), (0 : Byte), (0 : Byte)] 5
    == 1) = false ∧
  wSilvosLinkCarriesScans4.get (Reg.TSL_STATUS_STATE 0) ≠ 0 ∧ (crc16 (leBytes 2 (wSilvosLinkCarriesScans4.tch 0).fseq ++ [])
    == BitVec.toNat (0 : BitVec 16)) = false ∧ wSilvosLinkCarriesScans4.SourceFree (63 + 0) ∧ (wSilvosLinkCarriesScans4.tch 0).scan.active
    = true ∧ ((wSilvosLinkCarriesScans4.tch 0).scan.active && (!(wSilvosLinkCarriesScans4.tch 0).scan.quiet || wSilvosLinkCarriesScans4.running (wSilvosLinkCarriesScans4.get
    (Reg.TOUCH_CTRL_SCREEN 0)) && wSilvosLinkCarriesScans4.quietInstant 0 Mark.open 0)) = true ∧ ((wSilvosLinkCarriesScans4.tch 0).scan.isOpen
    = true ∨ (if (wSilvosLinkCarriesScans4.tch 0).scan.quiet = true then max 1 (min 8 (wSilvosLinkCarriesScans4.get
    (Reg.TOUCH_TRACK_QUIET_LINES 0))) else 1) ≤ (wSilvosLinkCarriesScans4.tch 0).scan.opens ∨ (wSilvosLinkCarriesScans4.tch 0).scan.groups
    ≤ (wSilvosLinkCarriesScans4.tch 0).scan.convs) ∧ ((wSilvosLinkCarriesScans4.tch 0).scan.active && (!(wSilvosLinkCarriesScans4.tch 0).scan.quiet
    || wSilvosLinkCarriesScans4.running (wSilvosLinkCarriesScans4.get (Reg.TOUCH_CTRL_SCREEN 0)) && wSilvosLinkCarriesScans4.quietInstant 0 Mark.close 0))
    = true ∧ (wSilvosLinkCarriesScans4.tch 0).scan.isOpen = false ∧ ((wSilvosLinkCarriesScans4.tch 0).scan.active
    && (!(wSilvosLinkCarriesScans4.tch 0).scan.quiet || wSilvosLinkCarriesScans4.running (wSilvosLinkCarriesScans4.get
    (Reg.TOUCH_CTRL_SCREEN 0)) && wSilvosLinkCarriesScans4.quietInstant 0 Mark.conv 0)) = true ∧ ((wSilvosLinkCarriesScans4.tch 0).scan.opens
    = if (wSilvosLinkCarriesScans4.tch 0).scan.quiet = true then max 1 (min 8 (wSilvosLinkCarriesScans4.get
    (Reg.TOUCH_TRACK_QUIET_LINES 0))) else 1) ∧ wSilvosLinkCarriesScans4.get (Reg.TSL_STATUS_STATE 0) = 3 ∧ (wSilvosLinkCarriesScans4.tch 0).discarded
    < 8 ∧
  wSilvosLinkCarriesScans5.get (Reg.TSL_STATUS_STATE 0) ≠ 0 ∧ wSilvosLinkCarriesScans5.SourceFree (63 + 0) ∧ (wSilvosLinkCarriesScans5.tch 0).scan.active
    = true ∧ ((wSilvosLinkCarriesScans5.tch 0).scan.active && (!(wSilvosLinkCarriesScans5.tch 0).scan.quiet || wSilvosLinkCarriesScans5.running (wSilvosLinkCarriesScans5.get
    (Reg.TOUCH_CTRL_SCREEN 0)) && wSilvosLinkCarriesScans5.quietInstant 0 Mark.conv 0)) = true ∧ ((wSilvosLinkCarriesScans5.tch 0).scan.isOpen
    = true ∨ (wSilvosLinkCarriesScans5.tch 0).scan.opens ≠ if (wSilvosLinkCarriesScans5.tch 0).scan.quiet = true then max 1 (min 8 (wSilvosLinkCarriesScans5.get
    (Reg.TOUCH_TRACK_QUIET_LINES 0))) else 1) ∧
  ((wSilvosLinkCarriesScans6.tch 0).scan.active && (!(wSilvosLinkCarriesScans6.tch 0).scan.quiet || wSilvosLinkCarriesScans6.running (wSilvosLinkCarriesScans6.get
    (Reg.TOUCH_CTRL_SCREEN 0)) && wSilvosLinkCarriesScans6.quietInstant 0 Mark.open 0)) = true ∧ (wSilvosLinkCarriesScans6.tch 0).scan.isOpen
    = false ∧ ((wSilvosLinkCarriesScans6.tch 0).scan.opens < if (wSilvosLinkCarriesScans6.tch 0).scan.quiet = true then max 1 (min 8 (wSilvosLinkCarriesScans6.get
    (Reg.TOUCH_TRACK_QUIET_LINES 0))) else 1) ∧ (wSilvosLinkCarriesScans6.tch 0).scan.convs < (wSilvosLinkCarriesScans6.tch 0).scan.groups
    ∧ wSilvosLinkCarriesScans6.get (Reg.TSL_STATUS_STATE 0) = 3 ∧ (crc16 (leBytes 2 (wSilvosLinkCarriesScans6.tch 0).fseq ++ ([(16 : Byte), (0 : Byte), (0 : Byte), (0 : Byte), (0 : Byte)] ++ List.replicate 256 (0 : Byte)))
    == (BitVec.ofNat 16 (crc16 (leBytes 2 0 ++ ([(16 : Byte), (0 : Byte), (0 : Byte), (0 : Byte), (0 : Byte)] ++ List.replicate 256 (0 : Byte))))).toNat)
    = true ∧ (wSilvosLinkCarriesScans6.tch 0).scan.active = true ∧ (byteAt ([(16 : Byte), (0 : Byte), (0 : Byte), (0 : Byte), (0 : Byte)] ++ List.replicate 256 (0 : Byte)) 1
    == (wSilvosLinkCarriesScans6.tch 0).scan.dseq && leNat (List.take 2 (List.drop 3 ([(16 : Byte), (0 : Byte), (0 : Byte), (0 : Byte), (0 : Byte)] ++ List.replicate 256 (0 : Byte))))
    == (wSilvosLinkCarriesScans6.tch 0).scan.first + (wSilvosLinkCarriesScans6.tch 0).scan.got) = true ∧ (wSilvosLinkCarriesScans6.tch 0).scan.got + 1
    ≠ (wSilvosLinkCarriesScans6.tch 0).scan.groups ∧
  ((wSilvosLinkCarriesScans7.tch 0).scan.active && (!(wSilvosLinkCarriesScans7.tch 0).scan.quiet || wSilvosLinkCarriesScans7.running (wSilvosLinkCarriesScans7.get
    (Reg.TOUCH_CTRL_SCREEN 0)) && wSilvosLinkCarriesScans7.quietInstant 0 Mark.close 0)) = true ∧ (wSilvosLinkCarriesScans7.tch 0).scan.isOpen
    = true ∧
  (wSilvosLinkCarriesScans8.tch 0).scan.active = true ∧ (wSilvosLinkCarriesScans8.tch 0).scan.quiet = true ∧ wSilvosLinkCarriesScans8.running (wSilvosLinkCarriesScans8.get
    (Reg.TOUCH_CTRL_SCREEN 0)) = true ∧ wSilvosLinkCarriesScans8.quietInstant 0 Mark.open 5 = false ∧ wSilvosLinkCarriesScans8.quietInstant 0 Mark.close 5
    = false ∧ wSilvosLinkCarriesScans8.quietInstant 0 Mark.conv 5 = false ∧
  (wSilvosLinkCarriesScans9.tch 0).scan.active = true ∧ (wSilvosLinkCarriesScans9.tch 0).scan.quiet = true ∧ wSilvosLinkCarriesScans9.running (wSilvosLinkCarriesScans9.get
    (Reg.TOUCH_CTRL_SCREEN 0)) = false ∧
  wSilvosLinkCarriesScans10.get (Reg.TSL_STATUS_STATE 0) = 3 ∧ (crc16 (leBytes 2 (wSilvosLinkCarriesScans10.tch 0).fseq ++ ([(16 : Byte), (0 : Byte), (0 : Byte), (0 : Byte), (0 : Byte)] ++ List.replicate 256 (0 : Byte)))
    == (BitVec.ofNat 16 (crc16 (leBytes 2 0 ++ ([(16 : Byte), (0 : Byte), (0 : Byte), (0 : Byte), (0 : Byte)] ++ List.replicate 256 (0 : Byte))))).toNat)
    = true ∧ ((([(16 : Byte), (0 : Byte), (0 : Byte), (0 : Byte), (0 : Byte)] ++ List.replicate 256 (0 : Byte)).length
    == 261 && byteAt ([(16 : Byte), (0 : Byte), (0 : Byte), (0 : Byte), (0 : Byte)] ++ List.replicate 256 (0 : Byte)) 0
    == 16) = false ∨ (wSilvosLinkCarriesScans10.tch 0).scan.active = false) ∧
  wSilvosLinkCarriesScans11.get (Reg.TSL_STATUS_STATE 0) = 3 ∧ (crc16 (leBytes 2 (wSilvosLinkCarriesScans11.tch 0).fseq ++ ([(16 : Byte), (0 : Byte), (0 : Byte), (0 : Byte), (0 : Byte)] ++ List.replicate 256 (0 : Byte)))
    == (BitVec.ofNat 16 (crc16 (leBytes 2 0 ++ ([(16 : Byte), (0 : Byte), (0 : Byte), (0 : Byte), (0 : Byte)] ++ List.replicate 256 (0 : Byte))))).toNat)
    = true ∧ (wSilvosLinkCarriesScans11.tch 0).scan.active = true ∧ (byteAt ([(16 : Byte), (0 : Byte), (0 : Byte), (0 : Byte), (0 : Byte)] ++ List.replicate 256 (0 : Byte)) 1
    == (wSilvosLinkCarriesScans11.tch 0).scan.dseq && leNat (List.take 2 (List.drop 3 ([(16 : Byte), (0 : Byte), (0 : Byte), (0 : Byte), (0 : Byte)] ++ List.replicate 256 (0 : Byte))))
    == (wSilvosLinkCarriesScans11.tch 0).scan.first + (wSilvosLinkCarriesScans11.tch 0).scan.got) = false ∧ wSilvosLinkCarriesScans11.SourceFree (63 + 0) ∧
  wSilvosLinkCarriesScans12.get (Reg.TSL_STATUS_STATE 0) = 3 ∧ (crc16 (leBytes 2 (wSilvosLinkCarriesScans12.tch 0).fseq ++ ([(16 : Byte), (0 : Byte), (0 : Byte), (0 : Byte), (0 : Byte)] ++ List.replicate 256 (0 : Byte)))
    == (BitVec.ofNat 16 (crc16 (leBytes 2 0 ++ ([(16 : Byte), (0 : Byte), (0 : Byte), (0 : Byte), (0 : Byte)] ++ List.replicate 256 (0 : Byte))))).toNat)
    = true ∧ (wSilvosLinkCarriesScans12.tch 0).scan.active = true ∧ (byteAt ([(16 : Byte), (0 : Byte), (0 : Byte), (0 : Byte), (0 : Byte)] ++ List.replicate 256 (0 : Byte)) 1
    == (wSilvosLinkCarriesScans12.tch 0).scan.dseq && leNat (List.take 2 (List.drop 3 ([(16 : Byte), (0 : Byte), (0 : Byte), (0 : Byte), (0 : Byte)] ++ List.replicate 256 (0 : Byte))))
    == (wSilvosLinkCarriesScans12.tch 0).scan.first + (wSilvosLinkCarriesScans12.tch 0).scan.got) = true ∧ (wSilvosLinkCarriesScans12.tch 0).scan.got + 1
    = (wSilvosLinkCarriesScans12.tch 0).scan.groups ∧
  wSilvosLinkCarriesScans13.get (Reg.TSL_STATUS_STATE 0) = 3 ∧ 8 ≤ (wSilvosLinkCarriesScans13.tch 0).discarded := by
  try unfold State.Admits
  try unfold State.SourceFree
  try unfold State.LogRoom
  repeat' apply And.intro
  all_goals first | exact crc16_own _ _ (by decide +kernel) | decide +kernel

/-- Tables that read, and one that does not. -/
theorem witness_LayerCommitAppliesWhenDue_tables :
    (wLayerCommitAppliesWhenDue9.lay 0).tables.2 = some 0xF00100000 ∧
    wLayerCommitAppliesWhenDue9.readBytes (wLayerCommitAppliesWhenDue9.ownerWorld 6 0) 0xF00100000 1024 = some (List.replicate 1024 0) ∧
    (wLayerCommitAppliesWhenDue10.lay 0).tables.2 = some 0xE00000000 ∧
    (wLayerCommitAppliesWhenDue11.lay 0).tables.1 = some 0xF00100000 ∧
    wLayerCommitAppliesWhenDue11.readBytes (wLayerCommitAppliesWhenDue11.ownerWorld 6 0) 0xF00100000 1792 = some (List.replicate 1792 0) ∧
    (wLayerCommitAppliesWhenDue12.lay 0).tables.1 = some 0xF00100000 ∧
    wLayerCommitAppliesWhenDue12.readBytes (wLayerCommitAppliesWhenDue12.ownerWorld 6 0) 0xF00100000 1792 =
      some (0 :: 8 :: List.replicate 1790 0) := by
  decide +kernel

/-- A degrade that only the halved timing carries, and a replug with a setting to train again. -/
def wHalve : State :=
  (st [(Reg.DPO_CTRL_FALLBACK 0, 1), (Reg.DPO_CTRL_HALVE_OK 0, 1), (Reg.XBAR_MAP_VALID 0, 1), (Reg.SCREEN_TIMING_H_H_TOTAL 0, 4400),
    (Reg.SCREEN_TIMING_H_H_ACTIVE 0, 3840), (Reg.SCREEN_TIMING_V_V_TOTAL 0, 2000), (Reg.SCREEN_TIMING_V_V_ACTIVE 0, 1800),
    (Reg.SCREEN_TIMING_BEAT_BEATS 0, 4)]).setPort 0 { State.reset.port 0 with degrading := true, why := .degrade }
def wReplug : State := (st [(Reg.DPO_CTRL_AUTO_RELINK 0, 1)]).setPort 0 { State.reset.port 0 with last := some (6, 2) }

theorem witness_PortLinkTrainsDegradesAndRelinks_members :
    (wHalve.port 0).degrading = true ∧ (wHalve.port 0).why = .degrade ∧ wHalve.bit (Reg.DPO_CTRL_FALLBACK 0) = true ∧
    wHalve.bit (Reg.DPO_CTRL_HALVE_OK 0) = true ∧ wHalve.screenOn 0 = some 0 ∧
    wHalve.lowestRate 0 ((wHalve.screenOn 0).map wHalve.timing) 0 = none ∧ 2 * (wHalve.timing 0).beats ≤ 16 ∧
    wHalve.lowestRate 0 (some { wHalve.timing 0 with beats := 2 * (wHalve.timing 0).beats }) 0 = some 7 ∧
    wReplug.bit (Reg.DPO_LINK_STATUS_HPD 0) = false ∧ wReplug.bit (Reg.DPO_CTRL_AUTO_RELINK 0) = true ∧ (wReplug.port 0).why = .none ∧
    (wReplug.port 0).last = some (6, 2) := by
  decide +kernel

/-- A RETIME that its timing refuses, and a hit map that waits. -/
def wRetime : State := st [(Reg.SCREEN_STATUS_RUNNING 0, 1)]

theorem witness_LatchTakesWhatIsDue_members :
    wRetime.Admits .secure 0x02 0 false ∧ wRetime.get (Reg.SCREEN_RETIME_STATE 0) = 0 ∧ wRetime.running 0 = true ∧
    (wRetime.port (wRetime.portOf 0)).degrading = false ∧
    wRetime.timingErr 0 (wRetime.rtTiming 0) (wRetime.bit (Reg.DPO_LINK_STATUS_LINK_OK (wRetime.portOf 0)))
      (wRetime.get (Reg.SCREEN_RT_LINK_RATE 0)) (wRetime.get (Reg.SCREEN_RT_LINK_LANES 0)) = some 1 ∧
    ((State.reset.setScr 0 { State.reset.scr 0 with hitNext := some ⟨0, 8, 8, [], []⟩ }).scr 0).hitNext = some ⟨0, 8, 8, [], []⟩ := by
  unfold State.Admits
  decide +kernel

/-- A script command that is not the next one, and no script. -/
theorem witness_ScriptCommandsTakeTheirEffect_members :
    State.reset.boot.script = [] ∧ ({ State.reset with boot.script := [⟨4, 0, 0, 0, 0⟩] } : State).coreRuns 0 = true ∧
    (Instr.scriptWrite, 1).2 ≠ (⟨4, 0, 0, 0, 0⟩ : ScriptCmd).op := by
  decide +kernel

/-- A protected commit that its geometry refuses, and self-tests under way. -/
def wProtBad : State := st [(Reg.PROT_CTRL_EN 0, 1), (Reg.PROT_CTRL_RECT_EN 0, 1)]

theorem witness_ProtectedContentIsVouched_members :
    wProtBad.Admits .secure 0x07 0 false ∧ wProtBad.get (Reg.PROT_COMMIT_STATUS_STATE 0) = 0 ∧ wProtBad.SourceFree 1 ∧
    wProtBad.protCheck 0 (withBit 0 0) = some 8 ∧
    ({ State.reset with sxtBack := [(0, 1)] } : State).sxtBack.find? (fun p => p.1 == 0) = some (0, 1) ∧
    State.SourceFree { State.reset with sxtBack := [(0, 1)] } 41 := by
  unfold State.Admits
  unfold State.SourceFree
  decide +kernel

/-- An enable that a line of the screen refuses. -/
def wBudget : State :=
  st [(Reg.TSL_STATUS_STATE 0, 3), (Reg.TSL_IDENT_1_W 0, 1), (Reg.TSL_IDENT_1_H 0, 1), (Reg.SCREEN_STATUS_RUNNING 0, 1),
    (Reg.SCREEN_TIMING_H_H_TOTAL 0, 2200), (Reg.SCREEN_TIMING_H_H_ACTIVE 0, 2200), (Reg.SCREEN_TIMING_V_V_TOTAL 0, 1125),
    (Reg.SCREEN_TIMING_BEAT_BEATS 0, 4)]

theorem witness_TouchEngineChecksItsEnable_members :
    wBudget.Admits .secure 0x10 0 false ∧ wBudget.bit (Reg.TOUCH_CTRL_EN 0) = false ∧ (wBudget.tch 0).contained = false ∧
    wBudget.SourceFree 71 ∧ (wBudget.set (Reg.TOUCH_CTRL_SCREEN 0) 0).budgetErr 0 = some 2 := by
  unfold State.Admits
  unfold State.SourceFree
  decide +kernel

end Sys2Proof
end

section
/-! PROOF. O9: register reads and writes by access type. WEAR_0_THRESH acts beyond its access types, since WARN follows
it live (R447). -/

namespace Sys2Proof.Machine

/-- The wear unit after a second whose samples were all 0: every monitor's WARN bit is live (R447). -/
def allWarnState : State := (State.reset.set Reg.WEAR_POWER_ON_SEC 1).set Reg.WEAR_WARN_LIVE 0xFFFFFFFF

/-- The core that runs after reset, as a requester. -/
def firstCore : Master := { kind := .core, id := 0, session := 0, world := .secure }

/-- The write of 0 to WEAR_0_THRESH by that core. -/
def clearThresh : Instr := .registerWrite (.grid firstCore (BitVec.ofNat 32 Reg.WEAR_THRESH)) (leBytes 4 0)

theorem allWarnState_warn : allWarnState.reg Reg.WEAR_WARN = 0xFFFFFFFF := by decide +kernel

/-- R447: no margin lies below a threshold of 0, so the write clears every WARN bit. -/
theorem clearThresh_clears_warn : ∃ t, exec clearThresh allWarnState = .next t ∧ t.reg Reg.WEAR_WARN = 0 :=
  ⟨_, rfl, by decide +kernel⟩

/-- Refutes O9: a write of WEAR_0_THRESH, which the statement counts among the registers that act only as their access types state,
changes WEAR_0_WARN too, where a second of samples has passed (R447). -/
theorem not_registerAccessFollowsAccessTypes : ¬ Obligations.RegisterAccessFollowsAccessTypes := by
  intro h
  have hrow : (rowAt Reg.WEAR_THRESH).isSome = true := by decide +kernel
  obtain ⟨⟨r, ix⟩, hr⟩ := Option.isSome_iff_exists.1 hrow
  have hthresh := (h.1 allWarnState firstCore 0x1D 0 4 0 (.inl rfl) (by decide) (by decide) (by decide)).2
    (.inr (.inr (.inr (.inr ⟨rfl, by decide, by decide⟩)))) (by decide +kernel) (by decide +kernel)
  rw [hr] at hthresh
  obtain ⟨t, ht, hregs, -⟩ := hthresh.2 (by decide +kernel)
  obtain ⟨t', ht', hwarn⟩ := clearThresh_clears_warn
  obtain rfl : t' = t := Host.Outcome.next.inj (ht'.symm.trans ht)
  have hbit := hregs Reg.WEAR_WARN 0 (by decide)
  rw [hwarn, allWarnState_warn] at hbit
  simp [bitAfter, Fld.covers, whole] at hbit

end Sys2Proof.Machine
end

section
/-! SUPPORT. What keeps the command queue and the request numbers: the operations that a guest's access reaches. -/

namespace Sys2Proof.Machine

/-- State `t` has the command queue of `s` and has numbered no request more. -/
@[simp] abbrev State.Kept (s t : State) : Prop := t.pending = s.pending ∧ t.nextReq = s.nextReq

theorem State.Kept.trans {s t u : State} (h : s.Kept t) (h' : t.Kept u) : s.Kept u := ⟨h'.1.trans h.1, h'.2.trans h.2⟩

theorem each_kept {α : Type} {f : α → State → State} (h : ∀ x (t : State), t.Kept (f x t)) (s : State) (l : List α) : s.Kept (s.each l f) := by
  unfold State.each
  induction l generalizing s with
  | nil => exact ⟨rfl, rfl⟩
  | cons x l ih => exact ⟨(ih (f x s)).1.trans (h x s).1, (ih (f x s)).2.trans (h x s).2⟩

theorem when_kept {f : State → State} (h : ∀ t : State, t.Kept (f t)) (s : State) (b : Bool) : s.Kept (s.when b f) := by
  unfold State.when
  split
  · exact h s
  · exact ⟨rfl, rfl⟩

section
variable (s : State)

@[simp] theorem setFunc_kept (f : Nat) (r : FuncState) : s.Kept (s.setFunc f r) := ⟨rfl, rfl⟩
@[simp] theorem setSes_kept (n : Nat) (r : SessState) : s.Kept (s.setSes n r) := ⟨rfl, rfl⟩
@[simp] theorem setSide_kept (n : Nat) (r : SideState) : s.Kept (s.setSide n r) := ⟨rfl, rfl⟩
@[simp] theorem setScr_kept (n : Nat) (r : ScreenState) : s.Kept (s.setScr n r) := ⟨rfl, rfl⟩
@[simp] theorem setLay_kept (n : Nat) (r : LayerState) : s.Kept (s.setLay n r) := ⟨rfl, rfl⟩
@[simp] theorem hostReply_kept (r : Reply) : s.Kept (s.hostReply r) := ⟨rfl, rfl⟩
@[simp] theorem pageEvent_kept (n : Nat) (f : Fld) : s.Kept (s.pageEvent n f) := ⟨rfl, rfl⟩
@[simp] theorem layEvent_kept (l : Nat) (f : Fld) : s.Kept (s.layEvent l f) := ⟨rfl, rfl⟩
@[simp] theorem layState_kept (l st reason : Nat) : s.Kept (s.layState l st reason) := ⟨rfl, rfl⟩
@[simp] theorem markDirty_kept (n g : Nat) : s.Kept (s.markDirty n g) := ⟨rfl, rfl⟩
@[simp] theorem setQuotaHeld_kept (n : Nat) (b : Bool) : s.Kept (s.setQuotaHeld n b) := ⟨rfl, rfl⟩
@[simp] theorem flashDrive_kept (op : FlashOp) : s.Kept (s.flashDrive op) := ⟨rfl, rfl⟩
@[simp] theorem bboxDrive_kept (c a : Nat) (d : List Byte) : s.Kept (s.bboxDrive c a d) := ⟨rfl, rfl⟩
@[simp] theorem setBboxQueue_kept (q : List BboxRec) : s.Kept (s.setBboxQueue q) := ⟨rfl, rfl⟩
@[simp] theorem hapDiscard_kept (n k : Nat) : s.Kept (s.hapDiscard n k) := ⟨rfl, rfl⟩

@[simp] theorem plainWrite_kept (a : Nat) (v : Word) : s.Kept (s.plainWrite a v) := by
  unfold State.plainWrite; split <;> simp

@[simp] theorem raiseIrq_kept (k : Nat) : s.Kept (s.raiseIrq k) := by
  unfold State.raiseIrq; dsimp only; split_ifs <;> simp

@[simp] theorem logEvent_kept (code unit inst p0 p1 p2 p3 : Nat) : s.Kept (s.logEvent code unit inst p0 p1 p2 p3) := by
  unfold State.logEvent State.enqueueLog; dsimp only; split_ifs <;> simp

/-! The black-box writer and the fault collector -/

@[simp] theorem flashTurn_kept : s.Kept s.flashTurn := by unfold State.flashTurn; dsimp only; split <;> simp
@[simp] theorem bboxResume_kept : s.Kept s.bboxResume := by unfold State.bboxResume; split <;> simp
@[simp] theorem bboxErase_kept : s.Kept s.bboxErase := by unfold State.bboxErase; simp
@[simp] theorem bboxProgram_kept : s.Kept s.bboxProgram := by unfold State.bboxProgram; simp
@[simp] theorem bboxOpen_kept : s.Kept s.bboxOpen := by unfold State.bboxOpen; simp
@[simp] theorem bboxNext_kept : s.Kept s.bboxNext := by unfold State.bboxNext; split_ifs <;> simp
@[simp] theorem bboxCommit_kept : s.Kept s.bboxCommit := by unfold State.bboxCommit State.bboxAdvance; dsimp only; split <;> simp
@[simp] theorem bboxEnter_kept (r : BboxRec) : s.Kept (s.bboxEnter r) := by unfold State.bboxEnter; dsimp only; split <;> simp
@[simp] theorem bboxOwn_kept (k : Nat) (p : List Byte) : s.Kept (s.bboxOwn k p) := by unfold State.bboxOwn; split <;> simp
@[simp] theorem bboxC3_kept (k : Nat) : s.Kept (s.bboxC3 k) := by unfold State.bboxC3; split <;> simp

@[simp] theorem firstError_kept (k : Nat) (c : Capture) : s.Kept (s.firstError k c) := by
  unfold State.firstError; dsimp only; split <;> simp

@[simp] theorem faultRecord_kept (k : Nat) (c : Option Capture) (as : Option Nat) : s.Kept (s.faultRecord k c as) := by
  unfold State.faultRecord
  cases c <;> dsimp only <;> split_ifs <;> simp

@[simp] theorem noteRegAccess_kept (c : Capture) : s.Kept (s.noteRegAccess c) := faultRecord_kept s 0 (some c) none
@[simp] theorem noteDecode_kept (c : Capture) : s.Kept (s.noteDecode c) := faultRecord_kept s 1 (some c) none

/-! Sessions and functions -/

@[simp] theorem msixSend_kept (f v : Nat) : s.Kept (s.msixSend f v) := by unfold State.msixSend; dsimp only; split_ifs <;> simp
@[simp] theorem sessMessage_kept (n : Nat) : s.Kept (s.sessMessage n) := by unfold State.sessMessage; split <;> simp
@[simp] theorem sessIrq_kept (n bit : Nat) : s.Kept (s.sessIrq n bit) := by unfold State.sessIrq; dsimp only; split <;> simp
@[simp] theorem irqStatusWrite_kept (n : Nat) (v : Word) : s.Kept (s.irqStatusWrite n v) := by
  unfold State.irqStatusWrite; dsimp only; split <;> simp
@[simp] theorem irqEnableWrite_kept (n : Nat) (v : Word) : s.Kept (s.irqEnableWrite n v) := by
  unfold State.irqEnableWrite; dsimp only; split <;> simp
@[simp] theorem tqBaseWrite_kept (n : Nat) (v : Word) : s.Kept (s.tqBaseWrite n v) := by
  unfold State.tqBaseWrite; split_ifs <;> simp
@[simp] theorem tqCtrlWrite_kept (n : Nat) (v : Word) : s.Kept (s.tqCtrlWrite n v) := by
  unfold State.tqCtrlWrite; dsimp only; repeat' split
  all_goals simp
@[simp] theorem asBaseWrite_kept (n a : Nat) (v : Word) : s.Kept (s.asBaseWrite n a v) := by
  unfold State.asBaseWrite; split_ifs <;> simp
@[simp] theorem asCtrlWrite_kept (n a : Nat) (v : Word) : s.Kept (s.asCtrlWrite n a v) := by
  unfold State.asCtrlWrite; dsimp only; repeat' split
  all_goals simp
@[simp] theorem asWrWrite_kept (n a : Nat) (v : Word) : s.Kept (s.asWrWrite n a v) := by
  unfold State.asWrWrite; split <;> simp
@[simp] theorem pageAudioWrite_kept (n h x : Nat) (v : Word) : s.Kept (s.pageAudioWrite n h x v) := by
  unfold State.pageAudioWrite; split_ifs <;> simp
@[simp] theorem logClearPage_kept (n : Nat) (v : Word) : s.Kept (s.logClearPage n v) := by
  unfold State.logClearPage State.logClear; dsimp only; split <;> simp

theorem msixFlush_kept (f : Nat) : s.Kept (s.msixFlush f) := by
  unfold State.msixFlush
  refine each_kept (fun v t => ?_) s _
  dsimp only; split <;> simp

/-! Haptic doorbells -/

@[simp] theorem count_kept (f : Fld) (n : Nat) : s.Kept (s.count f n) := ⟨rfl, rfl⟩

@[simp] theorem hapLose_kept (n : Nat) : s.Kept (s.hapLose n) :=
  (hapDiscard_kept s n 1).trans (when_kept (fun t => count_kept t (Reg.HC_DROPS_HV_DROP n) 1) _ _)

@[simp] theorem hapDropWaiting_kept (n : Nat) : s.Kept (s.hapDropWaiting n) :=
  when_kept (f := fun s => ((s.setHc n { s.hc n with waiting := none }).hapDiscard n).set (Reg.HC_STATUS_STATE n) 0)
    (fun _ => ⟨rfl, rfl⟩) s (s.hcState n == 1)

theorem hapRefused_kept {n : Nat} {t : State} (h : s.hapRefused n = some t) : s.Kept t := by
  unfold State.hapRefused at h
  split at h
  · cases h; exact ⟨rfl, rfl⟩
  · split at h <;> cases h
    exact ⟨rfl, rfl⟩

theorem hapDiscardWhen_kept (n : Nat) (b : Bool) : s.Kept (s.when b (·.hapDiscard n)) :=
  when_kept (fun t => hapDiscard_kept t n 1) s b

@[simp] theorem hapBell_kept (n : Nat) (g : HapTrigger) : s.Kept (s.hapBell n g) := by
  unfold State.hapBell
  cases h : s.hapRefused n with
  | some t => exact hapRefused_kept s h
  | none =>
    dsimp only
    split
    · have hd := hapDiscardWhen_kept (s.hapDropWaiting n) n ((s.hapDropWaiting n).hc n).urgent.isSome
      exact (hapDropWaiting_kept s n).trans hd
    · split
      · exact ⟨rfl, rfl⟩
      · exact hapDiscardWhen_kept s n _

@[simp] theorem hapDoorbell_kept (n : Nat) (b : Bool) (m : Nat) (v : Word) : s.Kept (s.hapDoorbell n b m v) := by
  unfold State.hapDoorbell
  split
  · simp
  · split <;> simp

/-! Layers -/

@[simp] theorem claimScalers_kept (l : Nat) : s.Kept (s.claimScalers l) := each_kept (fun k t => by simp) s _

@[simp] theorem releaseScalers_kept (l : Nat) : s.Kept (s.releaseScalers l) := by
  unfold State.releaseScalers
  refine each_kept (fun k t => when_kept (fun u => ?_) t _) s _
  dsimp only; split <;> simp

@[simp] theorem layCommitIrq_kept (l : Nat) : s.Kept (s.layCommitIrq l) := by unfold State.layCommitIrq; split <;> simp
@[simp] theorem layReject_kept (l reason : Nat) : s.Kept (s.layReject l reason) := by unfold State.layReject; simp
@[simp] theorem earlyEnd_kept (n : Nat) (f : Option Nat) : s.Kept (s.earlyEnd n f) := by
  unfold State.earlyEnd; dsimp only; split <;> split <;> simp

@[simp] theorem layGo_kept (l : Nat) (v : Word) : s.Kept (s.layGo l v) := by
  have hl := fun (t : State) (ks : List Nat) =>
    each_kept (fun k u => (⟨rfl, rfl⟩ : u.Kept (u.set (Reg.SCL_STATUS_LOADING k) 1))) t ks
  unfold State.layGo
  dsimp only
  split
  · simp
  · split_ifs <;> simp [hl]

@[simp] theorem layCommit_kept (l : Nat) (v : Word) : s.Kept (s.layCommit l v) := by
  unfold State.layCommit; split_ifs <;> simp

@[simp] theorem layGuestWrite_kept (l x : Nat) (v : Word) : s.Kept (s.layGuestWrite l x v) := by
  unfold State.layGuestWrite; dsimp only; split_ifs <;> simp

/-! The page of a session -/

@[simp] theorem pageWrite_kept (n off : Nat) (v : Word) : s.Kept (s.pageWrite n off v) := by
  unfold State.pageWrite State.throughDoor
  dsimp only
  repeat' split
  all_goals simp

@[simp] theorem pageReadEffect_kept (n off : Nat) : s.Kept (s.pageReadEffect n off) := by
  unfold State.pageReadEffect; split <;> simp

@[simp] theorem guestRefuse_kept (n id : Nat) (w : Bool) : s.Kept (s.guestRefuse n id w) := by
  have h := fun (t : State) (f : Nat) =>
    when_kept (fun u => setFunc_kept u f { u.func f with urStatus := true }) t w
  unfold State.guestRefuse
  simp [h]

/-! Bytes of memory -/

theorem setSideByte_kept (n off : Nat) (b : Byte) : s.Kept (s.setSideByte n off b) := by
  unfold State.setSideByte; split <;> simp

@[simp] theorem putSide_kept (n off : Nat) (bs : List Byte) : s.Kept (s.putSide n off bs) := by
  induction bs generalizing s off with
  | nil => exact ⟨rfl, rfl⟩
  | cons b bs ih => exact (setSideByte_kept s n off b).trans (ih _ _)

@[simp] theorem putSram_kept (off : Nat) (bs : List Byte) : s.Kept (s.putSram off bs) := by
  induction bs generalizing s off with
  | nil => exact ⟨rfl, rfl⟩
  | cons b bs ih => exact State.Kept.trans (t := s.setSramByte off b) ⟨rfl, rfl⟩ (ih _ _)

@[simp] theorem putMirrored_kept (off : Nat) (bs : List Byte) : s.Kept (s.putMirrored off bs) := by
  refine each_kept (fun n t => ?_) s _
  split
  · simp
  · exact each_kept (fun g u => markDirty_kept u n g) t _

@[simp] theorem writeMem_kept (w : World) (a : Nat) (bs : List Byte) : s.Kept (s.writeMem w a bs).2 := by
  unfold State.writeMem
  split
  · simp
  · split <;> try split_ifs
    all_goals simp

end

/-! ### The queues of the channels -/

/-- State `t` is `s` with requests queued on the sides' channels and numbered. -/
def State.Queued (s t : State) : Prop := s.nextReq ≤ t.nextReq ∧ { t with sides := s.sides, nextReq := s.nextReq } = s

theorem State.Queued.refl (s : State) : s.Queued s := ⟨le_rfl, rfl⟩

theorem State.Queued.trans {s t u : State} (h : s.Queued t) (h' : t.Queued u) : s.Queued u := by
  refine ⟨h.1.trans h'.1, ?_⟩
  have e := congrArg (fun x : State => { x with sides := s.sides, nextReq := s.nextReq }) h'.2
  exact e.trans h.2

theorem State.Queued.pending {s t : State} (h : s.Queued t) : t.pending = s.pending := by
  have e := congrArg State.pending h.2
  exact e

theorem State.Queued.func {s t : State} (h : s.Queued t) (f : Nat) : t.func f = s.func f := by
  have e := congrArg (State.func · f) h.2
  exact e

theorem each_queued {α : Type} {f : α → State → State} (h : ∀ x (t : State), t.Queued (f x t)) (s : State) (l : List α) :
    s.Queued (s.each l f) := by
  unfold State.each
  induction l generalizing s with
  | nil => exact .refl s
  | cons x l ih => exact (h x s).trans (ih _)

/-- Requests are numbered after the parts of one are queued. -/
theorem State.Queued.number {s t : State} (h : s.Queued t) (n : Nat) (hn : s.nextReq ≤ n) : s.Queued { t with nextReq := n } :=
  ⟨hn, h.2⟩

section
variable (s : State)

theorem accept_queued (n off : Nat) (r : MemReq) : s.Queued (s.accept n off r) := ⟨le_rfl, rfl⟩

theorem acceptPosted_queued (n off : Nat) (r : MemReq) : s.Queued (s.acceptPosted n off r) := by
  unfold State.acceptPosted
  dsimp only
  split
  · exact ⟨le_rfl, rfl⟩
  · exact accept_queued s n off _

theorem writePiece_queued (m : Master) (mirrored : Bool) (n base : Nat) (p : Nat × Nat) :
    s.Queued (s.writePiece m mirrored n base p) := by
  unfold State.writePiece
  dsimp only
  split
  · exact acceptPosted_queued s n _ _
  · exact accept_queued s n _ _

theorem queueWrite_queued (m : Master) (a len : Nat) : s.Queued (s.queueWrite m a len) := by
  unfold State.queueWrite
  split
  · exact each_queued (fun p t => (writePiece_queued t m false _ _ p).number _ (Nat.le_succ _)) s _
  · refine each_queued (fun p t => State.Queued.number (each_queued (fun n v => ?_) t _) _ (Nat.le_succ _)) s _
    split
    · exact writePiece_queued v m true n _ p
    · exact .refl v
  · exact .refl s

theorem readPiece_queued (m : Master) (mirrored : Bool) (n base : Nat) (tag : Option Nat) (p : Nat × Nat) :
    s.Queued (s.readPiece m mirrored n base tag p) := (accept_queued s _ _ _).number _ (Nat.le_succ _)

theorem queueRead_queued (m : Master) (a len : Nat) (tag : Option Nat) : s.Queued (s.queueRead m a len tag) := by
  unfold State.queueRead
  split
  · exact each_queued (fun p t => readPiece_queued t m false _ _ tag p) s _
  · exact each_queued (fun p t => readPiece_queued t m true _ _ tag p) s _
  · exact .refl s

end

/-! ### A guest's access keeps the command queue and numbers requests upwards -/

/-- State `t` has the command queue of `s`, and the numbers of its requests go on from those of `s`. -/
def State.Follows (s t : State) : Prop := t.pending = s.pending ∧ s.nextReq ≤ t.nextReq

theorem State.Follows.trans {s t u : State} (h : s.Follows t) (h' : t.Follows u) : s.Follows u :=
  ⟨h'.1.trans h.1, h.2.trans h'.2⟩

theorem State.Kept.follows {s t : State} (h : s.Kept t) : s.Follows t := ⟨h.1, h.2.ge⟩

theorem State.Queued.follows {s t : State} (h : s.Queued t) : s.Follows t := ⟨h.pending, h.1⟩

section
variable (s : State)

/-- A guest's access has come: it is numbered, the earlier completions are gone, and the function's ingress holds `l`. -/
def State.atIngress (g : Nat) (l : List HeldTx) : State :=
  ({ s with nextReq := s.nextReq + 1, replies := [] } : State).setFunc g { s.func g with ingress := l }

theorem guestAccess_closed {p f : Nat} (h : (s.funcAvailable p f && s.bit (Reg.GP_CTRL_RELEASE p)) = false) (t : HeldTx) :
    s.guestAccess p f t = { s with nextReq := s.nextReq + 1, replies := [] } := by
  have hc : (!s.funcAvailable p f || !s.bit (Reg.GP_CTRL_RELEASE p)) = true := by rw [← Bool.not_and, h]; rfl
  exact if_pos hc

theorem guestAccess_open {p f : Nat} (h : (s.funcAvailable p f && s.bit (Reg.GP_CTRL_RELEASE p)) = true) (t : HeldTx) :
    s.guestAccess p f t = ((s.atIngress (p * 16 + f) ((s.func (p * 16 + f)).ingress ++ [{ t with id := s.nextReq }])).drainIngress
      (p * 16 + f) ((s.func (p * 16 + f)).ingress.length + 1)).markHeld (p * 16 + f) := by
  have hc : ¬ (!s.funcAvailable p f || !s.bit (Reg.GP_CTRL_RELEASE p)) = true := by rw [← Bool.not_and, h]; simp
  exact if_neg hc

theorem bar2Go_follows (n addr cost : Nat) (t : HeldTx) : s.Follows (s.bar2Go n addr cost t) := by
  have h0 := setSes_kept s n { s.ses n with tokens := (s.ses n).tokens - 1000000 * cost }
  unfold State.bar2Go
  dsimp only
  generalize s.setSes n { s.ses n with tokens := (s.ses n).tokens - 1000000 * cost } = u at h0 ⊢
  refine h0.follows.trans ?_
  split
  · refine (writeMem_kept u .normal addr t.bytes).follows.trans ?_
    generalize u.writeMem .normal addr t.bytes = r
    split
    · exact (queueWrite_queued r.2 _ addr _).follows.trans (hostReply_kept _ _).follows
    all_goals exact State.Kept.follows (by simp [State.bar2Refuse])
  · split
    · exact (queueRead_queued u _ addr _ _).follows
    all_goals exact State.Kept.follows (by simp [State.bar2Refuse])

theorem guestRegs_kept {wr : Nat → Word → State → State} {rd : Nat → State → Word × State}
    (hw : ∀ x v (u : State), u.Kept (wr x v u)) (hr : ∀ x (u : State), u.Kept (rd x u).2) (f : Nat) (session : Option Nat) (a : Nat)
    (t : HeldTx) : s.Kept (s.guestRegs f session a t wr rd) := by
  have hreads : ∀ (ws : List Nat) (p : List Byte × State),
      p.2.Kept (ws.foldl (fun p x => (p.1 ++ leBytes 4 (rd x p.2).1.toNat, (rd x p.2).2)) p).2 := by
    intro ws
    induction ws with
    | nil => exact fun p => ⟨rfl, rfl⟩
    | cons x ws ih => exact fun p => (hr x p.2).trans (ih _)
  unfold State.guestRegs
  dsimp only
  split
  · simp
  · split
    · exact (each_kept (fun x u => hw x _ u) s _).trans (hostReply_kept _ _)
    · exact (hreads _ ([], s)).trans (hostReply_kept _ _)

theorem bar0Go_kept (f n : Nat) (t : HeldTx) : s.Kept (s.bar0Go f n t) :=
  guestRegs_kept s (fun x v u => pageWrite_kept u n x v) (fun x u => pageReadEffect_kept u n x) f _ _ t

theorem bar4Go_kept (f : Nat) (t : HeldTx) : s.Kept (s.bar4Go f t) := by
  refine guestRegs_kept s (fun x v u => ?_) (fun x u => ⟨rfl, rfl⟩) f _ _ t
  split
  · simp
  · exact (setFunc_kept u f _).trans (msixFlush_kept _ f)

theorem ingressHead_follows {f : Nat} {t : State} (h : s.ingressHead f = some t) : s.Follows t := by
  unfold State.ingressHead at h
  split at h
  · cases h
  · rename_i x rest _
    have hu := setFunc_kept s f { s.func f with ingress := rest }
    dsimp only at h
    generalize s.setFunc f { s.func f with ingress := rest } = u at h hu
    refine hu.follows.trans ?_
    split at h
    · cases h; exact (bar4Go_kept u f x).follows
    · split at h
      · cases h; exact (hostReply_kept u _).follows
      · split at h
        · cases h; exact (bar0Go_kept u f _ x).follows
        · split at h <;> cases h
          · exact ((setQuotaHeld_kept u _ false).trans (guestRefuse_kept _ _ _ _)).follows
          · exact (setQuotaHeld_kept u _ false).follows.trans (bar2Go_follows _ _ _ _ x)

theorem drainIngress_follows (f k : Nat) : s.Follows (s.drainIngress f k) := by
  induction k generalizing s with
  | zero => exact ⟨rfl, le_rfl⟩
  | succ k ih =>
    unfold State.drainIngress
    split
    · exact (ingressHead_follows s ‹_›).trans (ih _)
    · exact ⟨rfl, le_rfl⟩

theorem markHeld_kept (f : Nat) : s.Kept (s.markHeld f) := by
  unfold State.markHeld
  split
  · simp
  · split
    · split <;> simp
    · simp

/-- A guest's access takes one request number, and what it lets go on takes more. -/
theorem guestAccess_follows (p f : Nat) (t : HeldTx) :
    s.nextReq + 1 ≤ (s.guestAccess p f t).nextReq ∧ (s.guestAccess p f t).pending = s.pending := by
  cases h : s.funcAvailable p f && s.bit (Reg.GP_CTRL_RELEASE p) with
  | false => rw [guestAccess_closed s h]; exact ⟨le_rfl, rfl⟩
  | true =>
    rw [guestAccess_open s h, (markHeld_kept _ _).1, (markHeld_kept _ _).2]
    obtain ⟨hp, hn⟩ := drainIngress_follows (s.atIngress (p * 16 + f) ((s.func (p * 16 + f)).ingress ++ [{ t with id := s.nextReq }]))
      (p * 16 + f) ((s.func (p * 16 + f)).ingress.length + 1)
    exact ⟨hn, hp⟩

end

end Sys2Proof.Machine
end

section
/-! SUPPORT. Accesses of memory depend on memory alone, so fields set elsewhere and a cost paid do not change them. -/

namespace Sys2Proof.Machine

/-! ### What an access of memory depends on -/

/-- Two states hold the same memory: the registers of the units up to MSIDE read the same, and the sides, their bytes and management
SRAM are the same. -/
structure State.SameMemory (s t : State) : Prop where
  /-- the registers of the units up to MSIDE -/
  reg : ∀ a < 0x0C000000, t.reg a = s.reg a
  /-- what waits in the sides' channels, and the sides' releases -/
  sides : t.sides = s.sides
  /-- the bytes of Side A -/
  memA : t.memA = s.memA
  /-- the bytes of Side B -/
  memB : t.memB = s.memB
  /-- management SRAM -/
  sram : t.sram = s.sram
  /-- what is fitted on Side A -/
  fittedA : t.fittedA = s.fittedA
  /-- what is fitted on Side B -/
  fittedB : t.fittedB = s.fittedB

theorem msideReg_lt {n o : Nat} (hn : n ≤ 1) (ho : o < 0x10000) : Machine.reg 11 n o < 0x0C000000 := by
  unfold Machine.reg; omega

theorem sysReg_lt {o : Nat} (ho : o < 0x10000) : Machine.reg 0 0 o < 0x0C000000 := by
  unfold Machine.reg; omega

namespace State.SameMemory
variable {s t : State} (h : s.SameMemory t)
include h

theorem get (f : Fld) (hf : f.addr < 0x0C000000) : t.get f = s.get f := by unfold State.get; rw [h.reg _ hf]

theorem bit (f : Fld) (hf : f.addr < 0x0C000000) : t.bit f = s.bit f := by unfold State.bit; rw [h.get f hf]

theorem side (n : Nat) : t.side n = s.side n := by unfold State.side; rw [h.sides]

theorem sideMode {n : Nat} (hn : n ≤ 1) : t.sideMode n = s.sideMode n := h.get _ (msideReg_lt hn (by decide))

theorem sideDown {n : Nat} (hn : n ≤ 1) : t.sideDown n = s.sideDown n := by
  unfold State.sideDown; rw [h.sideMode hn, h.side]

theorem sideStarting {n : Nat} (hn : n ≤ 1) : t.sideStarting n = s.sideStarting n := by
  unfold State.sideStarting; rw [h.sideMode hn, h.side]

theorem sideAccepts {n : Nat} (hn : n ≤ 1) : t.sideAccepts n = s.sideAccepts n := by
  unfold State.sideAccepts; rw [h.sideMode hn, h.side]

theorem usable (n : Nat) : t.usable n = s.usable n := by
  unfold State.usable State.usableGranules State.fittedGb; rw [h.fittedA, h.fittedB]

theorem granuleMirrored : t.granuleMirrored = s.granuleMirrored := by
  funext g
  unfold State.granuleMirrored
  rw [Bool.eq_iff_iff, List.any_eq_true, List.any_eq_true]
  refine exists_congr fun k => and_congr_right fun hk => ?_
  have hk : k < 32 := List.mem_range.1 hk
  rw [h.bit _ (msideReg_lt (by decide) (by omega)), h.get _ (msideReg_lt (by decide) (by omega)), h.get _ (msideReg_lt (by decide) (by omega))]

theorem granuleSecure : t.granuleSecure = s.granuleSecure := by
  funext g
  unfold State.granuleSecure
  rw [Bool.eq_iff_iff, List.any_eq_true, List.any_eq_true]
  refine exists_congr fun k => and_congr_right fun hk => ?_
  have hk : k < 16 := List.mem_range.1 hk
  rw [h.bit _ (sysReg_lt (by omega)), h.get _ (sysReg_lt (by omega)), h.get _ (sysReg_lt (by omega))]

theorem installed (a len : Nat) : t.installed a len = s.installed a len := by
  unfold State.installed State.mirrored; simp only [h.usable, h.granuleMirrored]

theorem touchesMirrored (off len : Nat) : t.touchesMirrored off len = s.touchesMirrored off len := by
  unfold State.touchesMirrored; rw [h.granuleMirrored]

theorem secureMem (a len : Nat) : t.secureMem a len = s.secureMem a len := by
  unfold State.secureMem State.sramSplit
  rw [h.granuleSecure, h.get Reg.SYS_SRAM_SPLIT_UNITS (by decide)]

theorem servingSide (off : Nat) : t.servingSide off = s.servingSide off := by
  have hn : stripeSide off < 2 := Nat.mod_lt _ (by decide)
  unfold State.servingSide
  dsimp only
  rw [h.sideDown (by omega), h.sideDown (by omega)]

theorem sideBytes {n : Nat} (hn : n ≤ 1) (off len : Nat) : t.sideBytes n off len = s.sideBytes n off len := by
  have hb : t.sideByte = s.sideByte := by unfold State.sideByte; rw [h.memA, h.memB]
  have hw : t.writeWaits = s.writeWaits := by unfold State.writeWaits State.chan State.side; rw [h.sides]
  unfold State.sideBytes
  rw [h.sideStarting hn, hb, hw]

end State.SameMemory

theorem region_side_le {a n off : Nat} (h : region a = .side n off) : n ≤ 1 := by
  unfold region at h
  split_ifs at h <;> cases h <;> omega

theorem servingSide_le {s : State} {off : Nat} : (s.servingSide off).getD 0 ≤ 1 := by
  have hn : stripeSide off < 2 := Nat.mod_lt _ (by decide)
  unfold State.servingSide
  dsimp only
  split_ifs <;> simp only [Option.getD_some, Option.getD_none] <;> omega

/-- A read of memory depends on memory alone. -/
theorem State.SameMemory.readMem {s t : State} (h : s.SameMemory t) (w : World) (a len : Nat) :
    t.readMem w a len = s.readMem w a len := by
  unfold State.readMem
  rw [h.installed, h.secureMem]
  cases hr : region a with
  | side n off => dsimp only; rw [h.sideDown (region_side_le hr), h.sideBytes (region_side_le hr)]
  | mirror off => simp only [h.servingSide, h.sideBytes servingSide_le]
  | sram off =>
    have hb : t.sramByte = s.sramByte := by unfold State.sramByte; rw [h.sram]
    dsimp only; rw [hb]
  | rom off => rfl
  | regs off => rfl
  | undecoded => rfl

/-! ### A write of memory beside changes that memory does not see -/

/-- Functions, sessions, request numbers and completions set. -/
def State.withGuests (s : State) (F : List (Nat × FuncState)) (S : List (Nat × SessState)) (N : Nat) (A : List Reply) : State :=
  { s with funcs := F, sess := S, nextReq := N, replies := A }

/-- State `t` is state `s` but for functions, sessions, request numbers, completions and a list of fields of registers beyond those
of MSIDE. -/
structure State.GuestsSet (F : List (Nat × FuncState)) (S : List (Nat × SessState)) (N : Nat) (A : List Reply) (l : List (Fld × Nat))
    (s t : State) : Prop where
  /-- the fields are beyond the registers of MSIDE -/
  beyond : ∀ p ∈ l, 0x0C000000 ≤ p.1.addr
  /-- they alone are set -/
  sets : (s.withGuests F S N A).SetsOnly l t

theorem bitAfter_apart {l : List (Fld × Nat)} {a : Nat} (h : ∀ p ∈ l, p.1.addr ≠ a) (i : Nat) (b : Bool) : bitAfter l a i b = b := by
  unfold bitAfter
  rw [List.find?_eq_none.2 fun p hp => by simp [Fld.covers, h p hp]]

/-- A state that differs in registers alone is that state with other registers. -/
theorem State.SetsOnly.eq {u t : State} {l : List (Fld × Nat)} (h : u.SetsOnly l t) : t = { u with regs := t.regs } := by
  have e := congrArg (fun x : State => { x with regs := t.regs }) h.2
  exact e

section
variable {F : List (Nat × FuncState)} {S : List (Nat × SessState)} {N : Nat} {A : List Reply} {l : List (Fld × Nat)} {s t : State}

theorem State.GuestsSet.sameMemory (h : State.GuestsSet F S N A l s t) : s.SameMemory t := by
  have hreg : ∀ a < 0x0C000000, t.reg a = s.reg a := by
    intro a ha
    refine BitVec.eq_of_getLsbD_eq fun i hi => ?_
    rw [h.sets.1 a i hi, bitAfter_apart fun p hp => by have := h.beyond p hp; omega]
    rfl
  have e := h.sets.eq
  generalize t.regs = R at e
  subst e
  exact ⟨hreg, rfl, rfl, rfl, rfl, rfl, rfl⟩

theorem each_guestsSet {α : Type} {f : α → State → State} {xs : List α}
    (hf : ∀ x ∈ xs, ∀ u v, State.GuestsSet F S N A l u v → State.GuestsSet F S N A l (f x u) (f x v))
    (h : State.GuestsSet F S N A l s t) : State.GuestsSet F S N A l (s.each xs f) (t.each xs f) := by
  unfold State.each
  induction xs generalizing s t with
  | nil => exact h
  | cons x xs ih => exact ih (fun y hy => hf y (.tail _ hy)) (hf x (.head _) s t h)

theorem setSideByte_guestsSet (h : State.GuestsSet F S N A l s t) (n off : Nat) (b : Byte) :
    State.GuestsSet F S N A l (s.setSideByte n off b) (t.setSideByte n off b) := by
  obtain ⟨hb, hr, he⟩ := h
  have e := State.SetsOnly.eq ⟨hr, he⟩
  generalize t.regs = R at e
  subst e
  unfold State.setSideByte
  split
  · exact ⟨hb, hr, rfl⟩
  · exact ⟨hb, hr, rfl⟩

theorem setSramByte_guestsSet (h : State.GuestsSet F S N A l s t) (off : Nat) (b : Byte) :
    State.GuestsSet F S N A l (s.setSramByte off b) (t.setSramByte off b) := by
  obtain ⟨hb, hr, he⟩ := h
  have e := State.SetsOnly.eq ⟨hr, he⟩
  generalize t.regs = R at e
  subst e
  exact ⟨hb, hr, rfl⟩

theorem setSide_guestsSet (h : State.GuestsSet F S N A l s t) (n : Nat) (r : SideState) :
    State.GuestsSet F S N A l (s.setSide n r) (t.setSide n r) := by
  obtain ⟨hb, hr, he⟩ := h
  have e := State.SetsOnly.eq ⟨hr, he⟩
  generalize t.regs = R at e
  subst e
  exact ⟨hb, hr, rfl⟩

/-- A register of the units up to MSIDE is set. -/
theorem setReg_guestsSet (h : State.GuestsSet F S N A l s t) {a : Nat} (ha : a < 0x0C000000) (v : Word) :
    State.GuestsSet F S N A l (s.setReg a v) (t.setReg a v) := by
  refine ⟨h.beyond, fun b i hi => ?_, congrArg (fun x : State => { x with regs := (s.setReg a v).regs }) h.sets.2⟩
  have hs : ((s.setReg a v).withGuests F S N A).reg b = (s.setReg a v).reg b := rfl
  rw [hs, State.reg_setReg, State.reg_setReg]
  by_cases hba : b = a
  · subst hba
    rw [if_pos rfl, if_pos rfl, bitAfter_apart fun p hp => by have := h.beyond p hp; omega]
  · rw [if_neg hba, if_neg hba, h.sets.1 b i hi]
    rfl

theorem putSide_guestsSet (h : State.GuestsSet F S N A l s t) (n off : Nat) (bs : List Byte) :
    State.GuestsSet F S N A l (s.putSide n off bs) (t.putSide n off bs) := by
  induction bs generalizing s t off with
  | nil => exact h
  | cons b bs ih => exact ih (setSideByte_guestsSet h n off b) (off + 1)

theorem putSram_guestsSet (h : State.GuestsSet F S N A l s t) (off : Nat) (bs : List Byte) :
    State.GuestsSet F S N A l (s.putSram off bs) (t.putSram off bs) := by
  induction bs generalizing s t off with
  | nil => exact h
  | cons b bs ih => exact ih (setSramByte_guestsSet h off b) (off + 1)

theorem granulesOf_le {off len g : Nat} (h : g ∈ granulesOf off len) : g ≤ (off + len) / granuleBytes := by
  unfold granulesOf at h
  obtain ⟨i, hi, rfl⟩ := List.mem_map.1 h
  have hi := List.mem_range.1 hi
  have h1 : off / granuleBytes ≤ (off + len) / granuleBytes := Nat.div_le_div_right (by omega)
  have h2 : (off + (len - 1)) / granuleBytes ≤ (off + len) / granuleBytes := Nat.div_le_div_right (by omega)
  omega

theorem usable_le (s : State) (n : Nat) : s.usable n ≤ granuleBytes * 7680 := by
  have hA := s.fittedA.isLt
  have hB := s.fittedB.isLt
  refine Nat.mul_le_mul_left _ ?_
  unfold State.usableGranules State.fittedGb
  split <;> omega

theorem markDirty_guestsSet (h : State.GuestsSet F S N A l s t) {n g : Nat} (hn : n ≤ 1) (hg : g ≤ 7680) :
    State.GuestsSet F S N A l (s.markDirty n g) (t.markDirty n g) := by
  have ha : Reg.MSIDE_DIRTY n (g / 32) < 0x0C000000 := msideReg_lt hn (by omega)
  unfold State.markDirty
  dsimp only
  rw [h.sameMemory.reg _ ha]
  exact setReg_guestsSet h ha _

theorem putMirrored_guestsSet (h : State.GuestsSet F S N A l s t) {off : Nat} {bs : List Byte}
    (hu : off + bs.length ≤ granuleBytes * 7680) : State.GuestsSet F S N A l (s.putMirrored off bs) (t.putMirrored off bs) := by
  refine each_guestsSet (fun n hn u v hv => ?_) h
  have hn : n ≤ 1 := by fin_cases hn <;> decide
  have hp := putSide_guestsSet hv n off bs
  rw [hv.sameMemory.sideAccepts hn]
  split
  · rw [hv.sameMemory.side]
    exact setSide_guestsSet hp n _
  · refine each_guestsSet (fun g hg x y hy => markDirty_guestsSet hy hn ?_) hv
    exact (granulesOf_le hg).trans (Nat.div_le_of_le_mul hu)

/-- A write of memory ends the same, and makes the same change. -/
theorem writeMem_guestsSet (h : State.GuestsSet F S N A l s t) (w : World) (a : Nat) (bs : List Byte) :
    (t.writeMem w a bs).1 = (s.writeMem w a bs).1 ∧ State.GuestsSet F S N A l (s.writeMem w a bs).2 (t.writeMem w a bs).2 := by
  have hm := h.sameMemory
  unfold State.writeMem
  by_cases he : bs.isEmpty = true
  · simp only [he, if_true]; exact ⟨trivial, h⟩
  simp only [he, Bool.false_eq_true, if_false, hm.installed, hm.secureMem, hm.touchesMirrored]
  cases hr : region a with
  | side n off =>
    simp only [hm.sideDown (region_side_le hr)]
    split_ifs
    · exact ⟨rfl, h⟩
    · exact ⟨rfl, h⟩
    · exact ⟨rfl, h⟩
    · exact ⟨rfl, h⟩
    · exact ⟨rfl, putSide_guestsSet h n off bs⟩
  | mirror off =>
    dsimp only
    split_ifs with hi
    · exact ⟨rfl, h⟩
    · exact ⟨rfl, h⟩
    · simp only [Bool.not_eq_true', Bool.not_eq_false, State.installed, hr, Bool.and_eq_true, decide_eq_true_eq] at hi
      exact ⟨rfl, putMirrored_guestsSet h (hi.1.1.trans (usable_le s 0))⟩
  | sram off =>
    dsimp only
    split_ifs
    · exact ⟨rfl, h⟩
    · exact ⟨rfl, h⟩
    · exact ⟨rfl, putSram_guestsSet h off bs⟩
  | rom off => exact ⟨rfl, h⟩
  | regs off => exact ⟨rfl, h⟩
  | undecoded => exact ⟨rfl, h⟩

end

end Sys2Proof.Machine
end

section
/-! SUPPORT. A guest's access at an empty ingress: its session, its refusal, and its way through a window. -/

namespace Sys2Proof.Machine

/-! ### A key written twice -/

section
variable {β : Type} {d : Nat → β}

theorem sdel_of_absent {m : List (Nat × β)} {k : Nat} (h : ∀ p ∈ m, p.1 ≠ k) : sdel k m = m := by
  induction m with
  | nil => rfl
  | cons p m ih =>
    rw [sdel, if_neg (h p (.head _)), ih fun q hq => h q (.tail _ hq)]

theorem sdel_sins_of_absent {m : List (Nat × β)} {k : Nat} (h : ∀ p ∈ m, p.1 ≠ k) (v : β) : sdel k (sins k v m) = m := by
  induction m with
  | nil => simp [sins, sdel]
  | cons p m ih =>
    have hm := ih fun q hq => h q (.tail _ hq)
    unfold sins
    split
    · rw [sdel, if_pos rfl, sdel_of_absent h]
    · rw [sdel, if_neg (h p (.head _)), hm]

/-- The later write of a key is the one that counts. -/
theorem sput_sput [DecidableEq β] (m : List (Nat × β)) (k : Nat) (v w : β) : sput d (sput d m k v) k w = sput d m k w := by
  have h : sdel k (sput d m k v) = sdel k m := by
    unfold sput
    split
    · exact sdel_of_absent (sdel_key m k)
    · exact sdel_sins_of_absent (sdel_key m k) v
  rw [sput, h, sput]

end

theorem func_setFunc (s : State) (g : Nat) (r : FuncState) : (s.setFunc g r).func g = r := sget_sput_same _ _ _

theorem setFunc_setFunc (s : State) (g : Nat) (r r' : FuncState) : (s.setFunc g r).setFunc g r' = s.setFunc g r' := by
  unfold State.setFunc; rw [sput_sput]

/-! ### Fields set, one after another -/

section
variable {u t : State} {l : List (Fld × Nat)}

theorem setsOnly_refl (u : State) : u.SetsOnly [] u := ⟨fun _ _ _ => rfl, rfl⟩

theorem setsOnly_set (h : u.SetsOnly l t) (f : Fld) (v : Nat) : u.SetsOnly ((f, v) :: l) (t.set f v) :=
  ⟨regBits_set (r := u.reg) h.1, h.2⟩

theorem setsOnly_hostReply (h : u.SetsOnly l t) (r : Reply) : (u.hostReply r).SetsOnly l (t.hostReply r) :=
  ⟨h.1, congrArg (State.hostReply · r) h.2⟩

theorem setsOnly_setFunc (h : u.SetsOnly l t) (g : Nat) (r : FuncState) : (u.setFunc g r).SetsOnly l (t.setFunc g r) :=
  ⟨h.1, congrArg (State.setFunc · g r) h.2⟩

theorem setsOnly_setSes (h : u.SetsOnly l t) (n : Nat) (r : SessState) : (u.setSes n r).SetsOnly l (t.setSes n r) :=
  ⟨h.1, congrArg (State.setSes · n r) h.2⟩

/-- A field may be listed before others of other registers. -/
theorem setsOnly_front {m : List (Fld × Nat)} {f : Fld} {v : Nat} (h : u.SetsOnly (l ++ (f, v) :: m) t)
    (hl : ∀ p ∈ l, p.1.addr ≠ f.addr) : u.SetsOnly ((f, v) :: (l ++ m)) t := by
  refine ⟨fun a i hi => (h.1 a i hi).trans ?_, h.2⟩
  by_cases hc : f.covers a i = true
  · have ha : f.addr = a := by simp [Fld.covers] at hc; exact hc.1
    have hn : l.find? (fun p => p.1.covers a i) = none :=
      List.find?_eq_none.2 fun p hp => by simp [Fld.covers, ← ha, hl p hp]
    simp [bitAfter, List.find?_append, hn, hc]
  · simp [bitAfter, List.find?_append, hc]

end

/-- The fields that mark a session QUOTA_HELD, or not. -/
def heldFields (n h : Nat) : List (Fld × Nat) := [(Reg.SESS_PAGE_STATUS_QUOTA_HELD n, h), (Reg.SESS_STATUS_QUOTA_HELD n, h)]

/-- The fields that a refused access to BAR2 sets, with the events of the page as the third number. -/
def refusedFields (n e : Nat) : List (Fld × Nat) :=
  [({ addr := Reg.SESS_IRQ_STATUS n, lo := irqBar2Err, width := 1 }, 1), (Reg.SESS_PAGE_STATUS_EVENTS n, e),
    (Reg.SESS_PAGE_STATUS_BAR2_ERR n, 1)]

theorem setsOnly_quotaHeld (u : State) (n : Nat) (b : Bool) : u.SetsOnly (heldFields n (b2n b)) (u.setQuotaHeld n b) :=
  setsOnly_set (setsOnly_set (setsOnly_refl u) _ _) _ _

/-! ### Bytes of a word -/

theorem leNat_leBytes (n v : Nat) : leNat (leBytes n v) = v % 256 ^ n := by
  induction n generalizing v with
  | zero => simp [leBytes, leNat, Nat.mod_one]
  | succ n ih =>
    rw [leBytes, leNat, ih, BitVec.toNat_ofNat, pow_succ' 256 n, Nat.mod_mul]

theorem length_leBytes (n v : Nat) : (leBytes n v).length = n := by
  induction n generalizing v with
  | zero => rfl
  | succ n ih => rw [leBytes, List.length_cons, ih]

/-- The word that four bytes of it spell. -/
theorem ofNat_leAt_leBytes (v : Word) : BitVec.ofNat 32 (leAt (leBytes 4 v.toNat) 0 4) = v := by
  have h : (leBytes 4 v.toNat).take 4 = leBytes 4 v.toNat := List.take_of_length_le (length_leBytes 4 _).le
  rw [leAt, List.drop_zero, h, leNat_leBytes, Nat.mod_eq_of_lt (b := 256 ^ 4) v.isLt, BitVec.ofNat_toNat, BitVec.setWidth_eq]

theorem wordSplit_word {a : Nat} (h : a % 4 = 0) : wordSplit a 4 = some [a] := by
  simp [wordSplit, h]

/-! ### Sessions -/

section
variable {s : State}

/-- R45: a bound session names the port and the function. -/
theorem boundSession_func {p f slot n : Nat} (h : s.boundSession p f slot = some n) :
    s.get (Reg.SESS_CTRL_PORT n) = p ∧ s.get (Reg.SESS_CTRL_FUNC n) = f := by
  have hn := List.find?_some h
  simp only [Bool.and_eq_true, beq_iff_eq] at hn
  exact ⟨hn.1.1.2, hn.1.2⟩

/-- Setting a bit of a register is setting a field of one bit. -/
theorem setReg_or_bit (a : Nat) {i : Nat} (hi : i < 32) :
    s.setReg a (s.reg a ||| BitVec.ofNat 32 (2 ^ i)) = s.set ⟨a, i, 1⟩ 1 := by
  unfold State.set
  congr 1
  refine BitVec.eq_of_getLsbD_eq fun j hj => ?_
  rw [getLsbD_setBits _ _ _ _ _ hj, BitVec.getLsbD_or, BitVec.getLsbD_ofNat, Nat.testBit_two_pow]
  by_cases h : i = j
  · subst h; simp [hi]
  · have hr : ¬ (i ≤ j ∧ j < i + 1) := by omega
    rw [if_neg hr]
    simp [h]

/-- R62: an interrupt bit that is not enabled is set, and no message is sent. -/
theorem sessIrq_disabled {n bit : Nat} (hb : bit < 32) (h : bitOf (s.reg (Reg.SESS_IRQ_ENABLE n)).toNat bit = false) :
    s.sessIrq n bit = s.set ⟨Reg.SESS_IRQ_STATUS n, bit, 1⟩ 1 := by
  have he : Reg.SESS_IRQ_ENABLE n ≠ Reg.SESS_IRQ_STATUS n := by dsimp only [Reg.SESS_IRQ_ENABLE, Reg.SESS_IRQ_STATUS, Machine.reg]; omega
  unfold State.sessIrq
  dsimp only
  rw [State.reg_setReg, if_neg he, h, Bool.and_false, if_neg (by decide), setReg_or_bit _ hb]

/-- R48: how a refused access to BAR2 leaves a session, without the completion. -/
def State.noteBar2Err (u : State) (n : Nat) : State :=
  (u.pageEvent n (Reg.SESS_PAGE_STATUS_BAR2_ERR n)).set ⟨Reg.SESS_IRQ_STATUS n, irqBar2Err, 1⟩ 1

/-- A field outside the registers of the page's status and of the session's. -/
theorem get_setQuotaHeld (u : State) (n : Nat) (b : Bool) (f : Fld) (h1 : f.addr ≠ Reg.SESS_STATUS n)
    (h2 : f.addr ≠ Reg.SESS_PAGE_STATUS n) : (u.setQuotaHeld n b).get f = u.get f := by
  unfold State.setQuotaHeld
  rw [State.get_set_other _ _ _ _ h2, State.get_set_other _ _ _ _ h1]

theorem reg_setQuotaHeld (u : State) (n : Nat) (b : Bool) {a : Nat} (h1 : a ≠ Reg.SESS_STATUS n) (h2 : a ≠ Reg.SESS_PAGE_STATUS n) :
    (u.setQuotaHeld n b).reg a = u.reg a := by
  unfold State.setQuotaHeld
  rw [State.reg_set, if_neg h2, State.reg_set, if_neg h1]

theorem reg_pageEvent (u : State) (n a : Nat) (h : a ≠ Reg.SESS_PAGE_STATUS n) :
    (u.pageEvent n (Reg.SESS_PAGE_STATUS_BAR2_ERR n)).reg a = u.reg a := by
  unfold State.pageEvent
  rw [State.count_eq, State.reg_set, if_neg h, State.reg_set, if_neg h]

theorem pageReg_ne {n o o' : Nat} (h : o ≠ o') : Machine.reg 14 n o ≠ Machine.reg 14 n o' := by
  unfold Machine.reg; omega

theorem sessIrq_pageEvent {u : State} {n : Nat} (h : bitOf (u.reg (Reg.SESS_IRQ_ENABLE n)).toNat irqBar2Err = false) :
    (u.pageEvent n (Reg.SESS_PAGE_STATUS_BAR2_ERR n)).sessIrq n irqBar2Err = u.noteBar2Err n := by
  refine sessIrq_disabled (by decide) ?_
  rw [reg_pageEvent _ _ _ (pageReg_ne (by decide)), h]

/-- R48: a refused read of BAR2, of a session that does not enable its interrupt. -/
theorem guestRefuse_read {u : State} {n : Nat} (h : bitOf (u.reg (Reg.SESS_IRQ_ENABLE n)).toNat irqBar2Err = false) (id : Nat) :
    u.guestRefuse n id false = (u.noteBar2Err n).hostReply { id := id, status := .unsupported } := by
  unfold State.guestRefuse
  rw [sessIrq_pageEvent h]
  rfl

/-- R48: a refused write sets Unsupported Request of its function besides. -/
theorem guestRefuse_write {u : State} {n : Nat} (h : bitOf (u.reg (Reg.SESS_IRQ_ENABLE n)).toNat irqBar2Err = false) (id : Nat) :
    u.guestRefuse n id true = ((u.noteBar2Err n).setFunc (u.sessFunc n)
      { u.func (u.sessFunc n) with urStatus := true }).hostReply { id := id, status := .unsupported } := by
  unfold State.guestRefuse
  rw [sessIrq_pageEvent h]
  rfl

/-- What a refused access sets, beside what was set before in other fields than the page's events. -/
theorem setsOnly_noteBar2Err {x u : State} {l : List (Fld × Nat)} (h : x.SetsOnly l u) (n : Nat) :
    x.SetsOnly (refusedFields n (u.more (Reg.SESS_PAGE_STATUS_EVENTS n)) ++ l) (u.noteBar2Err n) := by
  have he : (u.set (Reg.SESS_PAGE_STATUS_BAR2_ERR n) 1).get (Reg.SESS_PAGE_STATUS_EVENTS n) = u.get (Reg.SESS_PAGE_STATUS_EVENTS n) :=
    State.get_set_apart _ _ _ _ (show 24 + 8 ≤ 32 by decide) (.inr (show 1 + 1 ≤ 24 by decide))
  have h2 := setsOnly_set (setsOnly_set h (Reg.SESS_PAGE_STATUS_BAR2_ERR n) 1) (Reg.SESS_PAGE_STATUS_EVENTS n)
    (satAdd 8 ((u.set (Reg.SESS_PAGE_STATUS_BAR2_ERR n) 1).get (Reg.SESS_PAGE_STATUS_EVENTS n)) 1)
  have h3 := setsOnly_set h2 ⟨Reg.SESS_IRQ_STATUS n, irqBar2Err, 1⟩ 1
  rw [he] at h3
  unfold State.noteBar2Err State.pageEvent
  rw [State.count_eq, he]
  exact h3

theorem more_setQuotaHeld (u : State) (n : Nat) (b : Bool) :
    (u.setQuotaHeld n b).more (Reg.SESS_PAGE_STATUS_EVENTS n) = u.more (Reg.SESS_PAGE_STATUS_EVENTS n) := by
  unfold State.more State.setQuotaHeld
  rw [State.get_set_apart _ _ _ _ (show 24 + 8 ≤ 32 by decide) (.inr (show 0 + 1 ≤ 24 by decide)),
    State.get_set_other _ _ _ _ (pageReg_ne (by decide))]

theorem enable_setQuotaHeld (u : State) (n : Nat) (b : Bool) :
    (u.setQuotaHeld n b).reg (Reg.SESS_IRQ_ENABLE n) = u.reg (Reg.SESS_IRQ_ENABLE n) :=
  reg_setQuotaHeld u n b (pageReg_ne (by decide)) (pageReg_ne (by decide))

theorem sessFunc_setQuotaHeld (u : State) (n : Nat) (b : Bool) : (u.setQuotaHeld n b).sessFunc n = u.sessFunc n := by
  unfold State.sessFunc
  rw [get_setQuotaHeld _ _ _ _ (pageReg_ne (by decide)) (pageReg_ne (by decide)),
    get_setQuotaHeld _ _ _ _ (pageReg_ne (by decide)) (pageReg_ne (by decide))]

end

/-! ### An access that finds its function's ingress empty -/

/-- A guest's request is taken: it is numbered and the earlier completions are gone. -/
def State.taken (s : State) (g : Nat) : State := ({ s with nextReq := s.nextReq + 1, replies := [] } : State).setFunc g (s.func g)

theorem func_taken (s : State) (g : Nat) : (s.taken g).func g = s.func g := func_setFunc _ _ _

theorem markHeld_idle {x : State} {g : Nat} (h : (x.func g).ingress = []) : x.markHeld g = x := by
  unfold State.markHeld; rw [h]

section
variable {s : State} {g : Nat} (hidle : (s.func g).ingress = [])
include hidle

theorem atIngress_nil : s.atIngress g [] = s.taken g := by
  unfold State.atIngress State.taken
  rw [← hidle]

/-- The head leaves the ingress. -/
theorem atIngress_head (t : HeldTx) :
    (s.atIngress g [t]).setFunc g { (s.atIngress g [t]).func g with ingress := [] } = s.taken g := by
  rw [← atIngress_nil hidle]
  unfold State.atIngress
  rw [func_setFunc, setFunc_setFunc]

/-- What becomes of an access that is alone at its ingress. -/
def State.alone (s : State) (g : Nat) (t : HeldTx) : Option State :=
  if t.bar = 4 then some ((s.taken g).bar4Go g t)
  else match s.boundSession (g / 16) (g % 16) t.slot with
  | none => some ((s.taken g).hostReply { id := t.id, data := if t.write then [] else List.replicate t.len 0 })
  | some n =>
    if t.bar = 0 then some ((s.taken g).bar0Go g n t)
    else match s.bar2Way n t with
    | .wait => none
    | .refuse => some (((s.taken g).setQuotaHeld n false).guestRefuse n t.id t.write)
    | .go a c => some (((s.taken g).setQuotaHeld n false).bar2Go n a c t)

theorem ingressHead_alone (t : HeldTx) : (s.atIngress g [t]).ingressHead g = s.alone g t := by
  have hb : (s.atIngress g [t]).boundSession (g / 16) (g % 16) t.slot = s.boundSession (g / 16) (g % 16) t.slot := rfl
  unfold State.ingressHead State.alone
  rw [show ((s.atIngress g [t]).func g).ingress = [t] from congrArg _ (func_setFunc _ _ _)]
  dsimp only
  rw [atIngress_head hidle, hb]
  rfl

end

/-! ### An access of a function that is available, at an empty ingress -/

section
variable {s : State} {p f : Nat} {t : HeldTx} (hopen : (s.funcAvailable p f && s.bit (Reg.GP_CTRL_RELEASE p)) = true)
  (hidle : (s.func (p * 16 + f)).ingress = [])
include hopen hidle

theorem guestAccess_alone {x : State} (h : s.alone (p * 16 + f) { t with id := s.nextReq } = some x) :
    s.guestAccess p f t = x.markHeld (p * 16 + f) := by
  rw [guestAccess_open s hopen, hidle, List.nil_append, List.length_nil, State.drainIngress, ingressHead_alone hidle, h]
  rfl

theorem guestAccess_waits (h : s.alone (p * 16 + f) { t with id := s.nextReq } = none) :
    s.guestAccess p f t = (s.atIngress (p * 16 + f) [{ t with id := s.nextReq }]).markHeld (p * 16 + f) := by
  rw [guestAccess_open s hopen, hidle, List.nil_append, List.length_nil, State.drainIngress, ingressHead_alone hidle, h]

end

/-! ### How an access to BAR2 stands (R48, R66, R405) -/

section
variable {s : State} {n : Nat} {t : HeldTx}

/-- The bytes an access moves. -/
def HeldTx.size (t : HeldTx) : Nat := if t.write then t.bytes.length else t.len

/-- What it costs through a window. -/
def State.bar2Cost (s : State) (n k : Nat) (t : HeldTx) : Nat :=
  if t.write && s.bit (Reg.SESS_WIN_CTRL_MIRRORED n k) then 2 * t.size else t.size

/-- Where it goes through a window (R65). -/
def State.bar2Addr (s : State) (n k : Nat) (t : HeldTx) : Nat :=
  0x200000 * s.get (Reg.SESS_WIN_DEV_DEV n k) + (t.off - 0x200000 * s.get (Reg.SESS_WIN_GOFF_GOFF n k))

theorem bar2Way_noQuota (h : s.get (Reg.SESS_QUOTA_UNITS n) = 0) : s.bar2Way n t = .refuse := if_pos h

theorem bar2Way_noWindow (h : s.windowOf n t.off t.size = none) : s.bar2Way n t = .refuse := by
  by_cases hu : s.get (Reg.SESS_QUOTA_UNITS n) = 0
  · exact bar2Way_noQuota hu
  · unfold State.bar2Way
    dsimp only
    rw [if_neg hu, ← HeldTx.size, h]

theorem bar2Way_readOnly {k : Nat} (h : s.windowOf n t.off t.size = some k) (ht : t.write = true)
    (hk : s.bit (Reg.SESS_WIN_CTRL_GUEST_RO n k) = true) : s.bar2Way n t = .refuse := by
  by_cases hu : s.get (Reg.SESS_QUOTA_UNITS n) = 0
  · exact bar2Way_noQuota hu
  · unfold State.bar2Way
    dsimp only
    rw [if_neg hu, ← HeldTx.size, h]
    simp [ht, hk]

section
variable {k : Nat} (hu : s.get (Reg.SESS_QUOTA_UNITS n) ≠ 0) (hw : s.windowOf n t.off t.size = some k)
  (hro : (t.write && s.bit (Reg.SESS_WIN_CTRL_GUEST_RO n k)) = false)
include hu hw hro

theorem bar2Way_wait (h : (t.write && s.bit Reg.PWR_WARN_STATUS_BROWNOUT) = true ∨ (s.ses n).tokens < 1000000 * s.bar2Cost n k t) :
    s.bar2Way n t = .wait := by
  unfold State.bar2Way
  dsimp only
  rw [if_neg hu, ← HeldTx.size, hw]
  dsimp only
  rw [if_neg (by simp [hro]), ← State.bar2Cost, if_pos (by simpa using h)]

theorem bar2Way_go (hb : (t.write && s.bit Reg.PWR_WARN_STATUS_BROWNOUT) = false) (h : 1000000 * s.bar2Cost n k t ≤ (s.ses n).tokens) :
    s.bar2Way n t = .go (s.bar2Addr n k t) (s.bar2Cost n k t) := by
  have ha : s.translate n t.off t.size = some (s.bar2Addr n k t) := by unfold State.translate; rw [hw]; rfl
  unfold State.bar2Way
  dsimp only
  rw [if_neg hu, ← HeldTx.size, hw]
  dsimp only
  rw [if_neg (by simp [hro]), ← State.bar2Cost, if_neg (by simp [hb, h]), ha]
  rfl

end
end

end Sys2Proof.Machine
end

section
/-! SUPPORT. Accesses to BAR2: refused (R48), held (R66, R405) and performed (R216, R217, R236, R240). -/

namespace Sys2Proof.Machine

section
variable {s : State} {g : Nat} {t : HeldTx}

theorem alone_msix (ht : t.bar = 4) : s.alone g t = some ((s.taken g).bar4Go g t) := if_pos ht

theorem alone_unbound (ht : t.bar ≠ 4) (hb : s.boundSession (g / 16) (g % 16) t.slot = none) :
    s.alone g t = some ((s.taken g).hostReply { id := t.id, data := if t.write then [] else List.replicate t.len 0 }) := by
  rw [State.alone, if_neg ht, hb]

section
variable {n : Nat} (hb : s.boundSession (g / 16) (g % 16) t.slot = some n)
include hb

theorem alone_page (ht : t.bar = 0) : s.alone g t = some ((s.taken g).bar0Go g n t) := by
  rw [State.alone, if_neg (by omega), hb]
  exact if_pos ht

theorem alone_waits (ht : t.bar = 2) (hw : s.bar2Way n t = .wait) : s.alone g t = none := by
  rw [State.alone, if_neg (by omega), hb]
  dsimp only
  rw [if_neg (by omega), hw]

theorem alone_refused (ht : t.bar = 2) (hw : s.bar2Way n t = .refuse) :
    s.alone g t = some (((s.taken g).setQuotaHeld n false).guestRefuse n t.id t.write) := by
  rw [State.alone, if_neg (by omega), hb]
  dsimp only
  rw [if_neg (by omega), hw]

theorem alone_goes {a c : Nat} (ht : t.bar = 2) (hw : s.bar2Way n t = .go a c) :
    s.alone g t = some (((s.taken g).setQuotaHeld n false).bar2Go n a c t) := by
  rw [State.alone, if_neg (by omega), hb]
  dsimp only
  rw [if_neg (by omega), hw]

end
end

/-! ### An access to BAR2 that is performed -/

/-- A session pays for an access. -/
def State.pay (u : State) (n c : Nat) : State := u.setSes n { u.ses n with tokens := (u.ses n).tokens - 1000000 * c }

/-- A guest port as the requester of a session's access. -/
def guestMaster (p n : Nat) : Master := { kind := .guest, id := Fin.ofNat 64 p, session := Fin.ofNat 256 n, world := .normal }

section
variable {u : State} {n a c : Nat} {t : HeldTx}

theorem bar2Go_read (ht : t.write = false) {bs : List Byte} (h : (u.pay n c).readMem .normal a t.len = .data bs) :
    u.bar2Go n a c t = (u.pay n c).queueRead (guestMaster (u.get (Reg.SESS_CTRL_PORT n)) n) a t.len (some t.id) := by
  unfold State.bar2Go
  dsimp only
  rw [if_neg (by simp [ht]), ← State.pay, h]
  rfl

theorem bar2Go_poison (ht : t.write = false) (h : (u.pay n c).readMem .normal a t.len = .poison) :
    u.bar2Go n a c t = (u.pay n c).hostReply { id := t.id, status := .unsupported } := by
  unfold State.bar2Go
  dsimp only
  rw [if_neg (by simp [ht]), ← State.pay, h]

theorem bar2Go_write (ht : t.write = true) (h : ((u.pay n c).writeMem .normal a t.bytes).1 = .ok) :
    u.bar2Go n a c t = (((u.pay n c).writeMem .normal a t.bytes).2.queueWrite (guestMaster (u.get (Reg.SESS_CTRL_PORT n)) n) a
      t.bytes.length).hostReply { id := t.id } := by
  unfold State.bar2Go
  dsimp only
  rw [if_pos ht, ← State.pay, h]
  rfl

/-- A write of memory that is not performed changes nothing. -/
theorem writeMem_ok_or_same (w : World) (a : Nat) (bs : List Byte) : (u.writeMem w a bs).1 = .ok ∨ (u.writeMem w a bs).2 = u := by
  unfold State.writeMem
  by_cases he : bs.isEmpty = true
  · rw [if_pos he]; exact .inl rfl
  rw [if_neg he]
  cases region a with
  | side n off =>
    dsimp only
    split_ifs
    · exact .inr rfl
    · exact .inr rfl
    · exact .inr rfl
    · exact .inr rfl
    · exact .inl rfl
  | mirror off =>
    dsimp only
    split_ifs
    · exact .inr rfl
    · exact .inr rfl
    · exact .inl rfl
  | sram off =>
    dsimp only
    split_ifs
    · exact .inr rfl
    · exact .inr rfl
    · exact .inl rfl
  | rom off => exact .inr rfl
  | regs off => exact .inr rfl
  | undecoded => exact .inr rfl

theorem bar2Go_dropped (ht : t.write = true) (h : ((u.pay n c).writeMem .normal a t.bytes).1 = .dropped)
    (hen : bitOf (u.reg (Reg.SESS_IRQ_ENABLE n)).toNat irqBar2Err = false) :
    u.bar2Go n a c t = (((u.pay n c).count (Reg.QOS_STATUS_DROPPED (16 + 2 * u.get (Reg.SESS_CTRL_PORT n)))).noteBar2Err n).hostReply
      { id := t.id } := by
  have he : bitOf (((u.pay n c).count (Reg.QOS_STATUS_DROPPED (16 + 2 * u.get (Reg.SESS_CTRL_PORT n)))).reg
      (Reg.SESS_IRQ_ENABLE n)).toNat irqBar2Err = false := by
    have hne : Reg.SESS_IRQ_ENABLE n ≠ (Reg.QOS_STATUS_DROPPED (16 + 2 * u.get (Reg.SESS_CTRL_PORT n))).addr := by
      dsimp only [Reg.SESS_IRQ_ENABLE, Reg.QOS_STATUS_DROPPED, Reg.QOS_STATUS, Machine.reg]; omega
    rw [State.count_eq, State.reg_set, if_neg hne]
    exact hen
  unfold State.bar2Go
  dsimp only
  rw [if_pos ht, ← State.pay, h, (writeMem_ok_or_same _ _ _).resolve_left (by rw [h]; decide)]
  dsimp only
  rw [← sessIrq_pageEvent he]
  rfl

end

/-! ### Accesses to BAR2 -/

theorem func_hostReply (u : State) (r : Reply) (g : Nat) : (u.hostReply r).func g = u.func g := rfl
theorem func_setQuotaHeld (u : State) (n : Nat) (b : Bool) (g : Nat) : (u.setQuotaHeld n b).func g = u.func g := rfl
theorem func_noteBar2Err (u : State) (n g : Nat) : (u.noteBar2Err n).func g = u.func g := rfl
theorem func_count (u : State) (fl : Fld) (k g : Nat) : (u.count fl k).func g = u.func g := rfl
theorem get_taken (s : State) (g : Nat) (fl : Fld) : (s.taken g).get fl = s.get fl := rfl
theorem sessFunc_taken (s : State) (n g : Nat) : (s.taken g).sessFunc n = s.sessFunc n := rfl

/-- The access of a BAR2_READ. -/
def readTx (slot off len id : Nat) : HeldTx := { slot := slot, off := off, write := false, bytes := [], len := len, id := id }

/-- The access of a BAR2_WRITE. -/
def writeTx (slot off : Nat) (bytes : List Byte) (id : Nat) : HeldTx :=
  { slot := slot, off := off, write := true, bytes := bytes, len := 0, id := id }

/-- The number of a function, and its parts. -/
theorem func_div (p f : Nat) (hf : f < 16) : (p * 16 + f) / 16 = p := by omega
theorem func_mod (p f : Nat) (hf : f < 16) : (p * 16 + f) % 16 = f := by omega

section
variable {s : State} {p : Fin 4} {f slot : Fin 16} {off : BitVec 34} {len : Nat} {bytes : List Byte} {n k : Nat}

/-- R43, R52: an access that no function takes is numbered alone. -/
theorem bar2_closed (hclosed : (s.funcAvailable p f && s.bit (Reg.GP_CTRL_RELEASE p)) = false) :
    Does (.bar2Read p f slot off len) s { s with nextReq := s.nextReq + 1, replies := [] } [] ∧
    Does (.bar2Write p f slot off bytes) s { s with nextReq := s.nextReq + 1, replies := [] } [] := by
  refine ⟨⟨_, rfl, ?_⟩, ⟨_, rfl, ?_⟩⟩
  · rw [guestAccess_closed s hclosed]; exact setsOnly_refl _
  · rw [guestAccess_closed s hclosed]; exact setsOnly_refl _

section
variable (hopen : (s.funcAvailable p f && s.bit (Reg.GP_CTRL_RELEASE p)) = true) (hidle : (s.func (p.val * 16 + f.val)).ingress = [])
include hopen hidle

theorem bar2Read_alone {x : State} (h : s.alone (p.val * 16 + f.val) (readTx slot off.toNat len s.nextReq) = some x)
    (hx : x.func (p.val * 16 + f.val) = s.func (p.val * 16 + f.val)) : exec (.bar2Read p f slot off len) s = .next x := by
  have e := guestAccess_alone (t := readTx slot off.toNat len 0) hopen hidle h
  rw [markHeld_idle ((congrArg FuncState.ingress hx).trans hidle)] at e
  exact congrArg _ e

theorem bar2Write_alone {x : State} (h : s.alone (p.val * 16 + f.val) (writeTx slot off.toNat bytes s.nextReq) = some x)
    (hx : (x.func (p.val * 16 + f.val)).ingress = []) : exec (.bar2Write p f slot off bytes) s = .next x := by
  have e := guestAccess_alone (t := writeTx slot off.toNat bytes 0) hopen hidle h
  rw [markHeld_idle hx] at e
  exact congrArg _ e

/-- R45: a slot with no session reads 0 and ignores writes. -/
theorem bar2_unbound (hb : s.boundSession p f slot = none) :
    Does (.bar2Read p f slot off len) s ((s.taken (p.val * 16 + f.val)).hostReply { id := s.nextReq, data := List.replicate len 0 }) [] ∧
    Does (.bar2Write p f slot off bytes) s ((s.taken (p.val * 16 + f.val)).hostReply { id := s.nextReq }) [] := by
  have hb' : s.boundSession ((p.val * 16 + f.val) / 16) ((p.val * 16 + f.val) % 16) slot = none := by
    rw [func_div _ _ f.isLt, func_mod _ _ f.isLt]; exact hb
  have h2 : (2 : Nat) ≠ 4 := by decide
  exact ⟨⟨_, bar2Read_alone hopen hidle (alone_unbound h2 hb') (func_taken s _), setsOnly_refl _⟩,
    ⟨_, bar2Write_alone hopen hidle (alone_unbound h2 hb') ((congrArg FuncState.ingress (func_taken s _)).trans hidle), setsOnly_refl _⟩⟩

section
variable (hb : s.boundSession p f slot = some n)
include hb

omit hopen hidle in
theorem boundSession_parts : s.boundSession ((p.val * 16 + f.val) / 16) ((p.val * 16 + f.val) % 16) slot = some n := by
  rw [func_div _ _ f.isLt, func_mod _ _ f.isLt]; exact hb

omit hopen hidle in
theorem sessFunc_bound : s.sessFunc n = p.val * 16 + f.val := by
  obtain ⟨hp, hf⟩ := boundSession_func hb
  unfold State.sessFunc; rw [hp, hf]

/-- The session's registers after a refusal. -/
def State.refusedOf (s : State) (n g : Nat) : State := ((s.taken g).setQuotaHeld n false).noteBar2Err n

omit hopen hidle hb in
theorem setsOnly_refusedOf (s : State) (n g : Nat) :
    (s.taken g).SetsOnly (refusedFields n (s.more (Reg.SESS_PAGE_STATUS_EVENTS n)) ++ heldFields n 0) (s.refusedOf n g) := by
  have h := setsOnly_noteBar2Err (setsOnly_quotaHeld (s.taken g) n false) n
  rwa [more_setQuotaHeld] at h

section
variable (hen : bitOf (s.reg (Reg.SESS_IRQ_ENABLE n)).toNat irqBar2Err = false)
include hen

omit hopen hidle hb in
theorem enable_held (g : Nat) : bitOf (((s.taken g).setQuotaHeld n false).reg (Reg.SESS_IRQ_ENABLE n)).toNat irqBar2Err = false := by
  rw [enable_setQuotaHeld]; exact hen

/-- R48: a read with no quota or outside every window is refused. -/
theorem bar2Read_refused (hno : s.get (Reg.SESS_QUOTA_UNITS n) = 0 ∨ s.windowOf n off.toNat len = none) :
    Does (.bar2Read p f slot off len) s
      ((s.taken (p.val * 16 + f.val)).hostReply { id := s.nextReq, status := .unsupported })
      (refusedFields n (s.more (Reg.SESS_PAGE_STATUS_EVENTS n)) ++ heldFields n 0) := by
  have hway : s.bar2Way n (readTx slot off.toNat len s.nextReq) = .refuse := by
    rcases hno with h | h
    · exact bar2Way_noQuota h
    · exact bar2Way_noWindow (t := readTx slot off.toNat len s.nextReq) h
  have ha := alone_refused (boundSession_parts hb) rfl hway
  rw [show (readTx slot off.toNat len s.nextReq).write = false from rfl, guestRefuse_read (enable_held hen _)] at ha
  refine ⟨_, bar2Read_alone hopen hidle ha ?_, setsOnly_hostReply (setsOnly_refusedOf s n _) _⟩
  rw [func_hostReply, func_noteBar2Err, func_setQuotaHeld, func_taken]

/-- R48: so is a write, which may not go to a read-only window either. -/
theorem bar2Write_refused (hno : s.get (Reg.SESS_QUOTA_UNITS n) = 0 ∨ s.windowOf n off.toNat bytes.length = none ∨
      (s.windowOf n off.toNat bytes.length = some k ∧ s.bit (Reg.SESS_WIN_CTRL_GUEST_RO n k) = true)) :
    Does (.bar2Write p f slot off bytes) s
      (((s.taken (p.val * 16 + f.val)).setFunc (p.val * 16 + f.val) { s.func (p.val * 16 + f.val) with urStatus := true }).hostReply
        { id := s.nextReq, status := .unsupported })
      (refusedFields n (s.more (Reg.SESS_PAGE_STATUS_EVENTS n)) ++ heldFields n 0) := by
  have hway : s.bar2Way n (writeTx slot off.toNat bytes s.nextReq) = .refuse := by
    rcases hno with h | h | ⟨h, hk⟩
    · exact bar2Way_noQuota h
    · exact bar2Way_noWindow (t := writeTx slot off.toNat bytes s.nextReq) h
    · exact bar2Way_readOnly (t := writeTx slot off.toNat bytes s.nextReq) h rfl hk
  have ha := alone_refused (boundSession_parts hb) rfl hway
  rw [show (writeTx slot off.toNat bytes s.nextReq).write = true from rfl, guestRefuse_write (enable_held hen _), sessFunc_setQuotaHeld,
    sessFunc_taken, sessFunc_bound hb, func_setQuotaHeld, func_taken] at ha
  refine ⟨_, bar2Write_alone hopen hidle ha ?_, setsOnly_hostReply (setsOnly_setFunc (setsOnly_refusedOf s n _) _ _) _⟩
  rw [func_hostReply, func_setFunc]
  exact hidle

end

/-! An access that its tokens do not cover, or a write in a brownout (R66, R405) -/

omit hopen hidle hb in
theorem markHeld_head {x : State} {g : Nat} {t : HeldTx} (ht : t.bar = 2) (hi : (x.func g).ingress = [t])
    (hb : x.boundSession (g / 16) (g % 16) t.slot = some n) :
    x.markHeld g = if t.write && x.bit Reg.PWR_WARN_STATUS_BROWNOUT then x else x.setQuotaHeld n true := by
  unfold State.markHeld
  rw [hi]
  dsimp only
  rw [hb]
  simp [ht]

omit hb in
theorem guestAccess_held {t : HeldTx} (ht : t.bar = 2)
    (hb : s.boundSession ((p.val * 16 + f.val) / 16) ((p.val * 16 + f.val) % 16) t.slot = some n)
    (hw : s.bar2Way n { t with id := s.nextReq } = .wait) :
    s.guestAccess p f t = if t.write && s.bit Reg.PWR_WARN_STATUS_BROWNOUT then s.atIngress (p.val * 16 + f.val) [{ t with id := s.nextReq }]
      else (s.atIngress (p.val * 16 + f.val) [{ t with id := s.nextReq }]).setQuotaHeld n true := by
  rw [guestAccess_waits hopen hidle (alone_waits (t := { t with id := s.nextReq }) hb ht hw)]
  exact markHeld_head (t := { t with id := s.nextReq }) ht (congrArg FuncState.ingress (func_setFunc _ _ _)) hb

section
variable (hu : s.get (Reg.SESS_QUOTA_UNITS n) ≠ 0)
include hu

/-- R66: a read that its tokens do not cover waits, and its session is marked. -/
theorem bar2Read_held (hw : s.windowOf n off.toNat len = some k) (ht : (s.ses n).tokens < 1000000 * len) :
    Does (.bar2Read p f slot off len) s (s.atIngress (p.val * 16 + f.val) [readTx slot off.toNat len s.nextReq]) (heldFields n 1) := by
  have hway : s.bar2Way n (readTx slot off.toNat len s.nextReq) = .wait := bar2Way_wait hu hw rfl (.inr ht)
  refine ⟨_, rfl, ?_⟩
  rw [guestAccess_held hopen hidle rfl (boundSession_parts hb) hway]
  exact setsOnly_quotaHeld _ n true

section
variable (hro : s.bit (Reg.SESS_WIN_CTRL_GUEST_RO n k) = false) (hw : s.windowOf n off.toNat bytes.length = some k)
include hro hw

/-- R66, R405: a write in a brownout waits; another that its tokens do not cover waits, and its session is marked. -/
theorem bar2Write_held (ht : s.bit Reg.PWR_WARN_STATUS_BROWNOUT = true ∨
      (s.ses n).tokens < 1000000 * s.bar2Cost n k (writeTx slot off.toNat bytes s.nextReq)) :
    Does (.bar2Write p f slot off bytes) s (s.atIngress (p.val * 16 + f.val) [writeTx slot off.toNat bytes s.nextReq])
      (if s.bit Reg.PWR_WARN_STATUS_BROWNOUT then [] else heldFields n 1) := by
  have hway : s.bar2Way n (writeTx slot off.toNat bytes s.nextReq) = .wait := bar2Way_wait hu hw (by rw [hro, Bool.and_false]) ht
  refine ⟨_, rfl, ?_⟩
  rw [guestAccess_held hopen hidle rfl (boundSession_parts hb) hway]
  dsimp only
  rw [Bool.true_and]
  split
  · exact setsOnly_refl _
  · exact setsOnly_quotaHeld _ n true

end
end
end
end
end

/-! ### Accesses to BAR2 that are performed -/

/-- A session's bucket after a cost is taken. -/
def State.paid (s : State) (n c : Nat) : SessState := { s.ses n with tokens := (s.ses n).tokens - 1000000 * c }

theorem pay_setQuotaHeld (s : State) (g n c : Nat) (b : Bool) :
    ((s.taken g).setQuotaHeld n b).pay n c = ((s.taken g).setQuotaHeld n b).setSes n (s.paid n c) := rfl

section
variable {s : State} {p : Fin 4} {f slot : Fin 16} {off : BitVec 34} {len : Nat} {bytes : List Byte} {n k c g : Nat}

theorem setsOnly_paid (s : State) (g n c : Nat) :
    ((s.taken g).setSes n (s.paid n c)).SetsOnly (heldFields n 0) (((s.taken g).setQuotaHeld n false).pay n c) := by
  rw [pay_setQuotaHeld]
  exact setsOnly_setSes (setsOnly_quotaHeld _ n false) n _

/-- A state with a function, a session, the request number and the completions as a performed access leaves them. -/
def State.spent (s x : State) (g n c : Nat) : State :=
  (({ x with nextReq := s.nextReq + 1, replies := [] } : State).setFunc g (s.func g)).setSes n (s.paid n c)

theorem guestsSet_paid (s : State) (g n c : Nat) : State.GuestsSet (s.spent s g n c).funcs (s.spent s g n c).sess (s.nextReq + 1) []
    (heldFields n 0) s (((s.taken g).setQuotaHeld n false).pay n c) := by
  refine ⟨fun q hq => ?_, setsOnly_paid s g n c⟩
  simp only [heldFields, List.mem_cons, List.not_mem_nil, or_false] at hq
  rcases hq with rfl | rfl
  · dsimp only [Reg.SESS_PAGE_STATUS, Machine.reg]; omega
  · dsimp only [Reg.SESS_STATUS, Machine.reg]; omega

/-- A write of memory leaves functions and sessions alone. -/
theorem writeMem_guests (s : State) (w : World) (a : Nat) (bs : List Byte) :
    (s.writeMem w a bs).2.funcs = s.funcs ∧ (s.writeMem w a bs).2.sess = s.sess := by
  have h0 : State.GuestsSet s.funcs s.sess s.nextReq s.replies [] s s := ⟨by simp, setsOnly_refl s⟩
  have h := (writeMem_guestsSet h0 w a bs).2.sets.2
  have hf := congrArg State.funcs h
  have hs := congrArg State.sess h
  exact ⟨hf, hs⟩

/-- A write made after the cost is taken is the write of the state before. -/
theorem writeMem_paid (s : State) (g n c : Nat) (a : Nat) (bs : List Byte) :
    ((((s.taken g).setQuotaHeld n false).pay n c).writeMem .normal a bs).1 = (s.writeMem .normal a bs).1 ∧
    (s.spent (s.writeMem .normal a bs).2 g n c).SetsOnly (heldFields n 0)
      ((((s.taken g).setQuotaHeld n false).pay n c).writeMem .normal a bs).2 := by
  obtain ⟨h1, h2⟩ := writeMem_guestsSet (guestsSet_paid s g n c) .normal a bs
  obtain ⟨hf, hs⟩ := writeMem_guests s .normal a bs
  have e : s.spent (s.writeMem .normal a bs).2 g n c =
      (s.writeMem .normal a bs).2.withGuests (s.spent s g n c).funcs (s.spent s g n c).sess (s.nextReq + 1) [] := by
    unfold State.spent State.setFunc State.setSes State.withGuests
    rw [hf, hs]
  rw [e]
  exact ⟨h1, h2.sets⟩

theorem get_pay (u : State) (n c : Nat) (fl : Fld) : (u.pay n c).get fl = u.get fl := rfl
theorem func_pay (u : State) (n c g : Nat) : (u.pay n c).func g = u.func g := rfl

theorem get_port_held (s : State) (g n : Nat) :
    ((s.taken g).setQuotaHeld n false).get (Reg.SESS_CTRL_PORT n) = s.get (Reg.SESS_CTRL_PORT n) :=
  get_setQuotaHeld _ _ _ _ (pageReg_ne (by decide)) (pageReg_ne (by decide))

theorem func_paid (s : State) (g n c : Nat) : (((s.taken g).setQuotaHeld n false).pay n c).func g = s.func g := by
  rw [func_pay, func_setQuotaHeld, func_taken]

theorem droppedReg_ne {q o : Nat} (hq : q < 512) : Machine.reg 12 q 4 ≠ Machine.reg 14 n o := by
  unfold Machine.reg; omega

/-- R240: what a dropped write sets. -/
theorem setsOnly_dropped (s : State) (g n c : Nat) {q : Nat} (hq : q < 512) :
    ((s.taken g).setSes n (s.paid n c)).SetsOnly
      ((Reg.QOS_STATUS_DROPPED q, s.more (Reg.QOS_STATUS_DROPPED q)) ::
        (refusedFields n (s.more (Reg.SESS_PAGE_STATUS_EVENTS n)) ++ heldFields n 0))
      (((((s.taken g).setQuotaHeld n false).pay n c).count (Reg.QOS_STATUS_DROPPED q)).noteBar2Err n) := by
  have hget : (((s.taken g).setQuotaHeld n false).pay n c).get (Reg.QOS_STATUS_DROPPED q) = s.get (Reg.QOS_STATUS_DROPPED q) := by
    rw [get_pay, get_setQuotaHeld _ _ _ _ (droppedReg_ne hq) (droppedReg_ne hq), get_taken]
  have hevents : ((((s.taken g).setQuotaHeld n false).pay n c).set (Reg.QOS_STATUS_DROPPED q) (s.more (Reg.QOS_STATUS_DROPPED q))).get
      (Reg.SESS_PAGE_STATUS_EVENTS n) = ((s.taken g).setQuotaHeld n false).get (Reg.SESS_PAGE_STATUS_EVENTS n) := by
    rw [State.get_set_other _ _ _ _ (droppedReg_ne hq).symm, get_pay]
  have hmore := more_setQuotaHeld (s.taken g) n false
  have h := setsOnly_noteBar2Err (setsOnly_set (setsOnly_paid s g n c) (Reg.QOS_STATUS_DROPPED q) (s.more (Reg.QOS_STATUS_DROPPED q))) n
  rw [State.more, hevents, ← State.more, hmore, State.more, get_taken, ← State.more] at h
  rw [State.count_eq, hget, ← State.more]
  refine setsOnly_front h fun x hx => ?_
  simp only [refusedFields, List.mem_cons, List.not_mem_nil, or_false] at hx
  have hne := fun o => (droppedReg_ne (n := n) (o := o) hq).symm
  rcases hx with rfl | rfl | rfl
  · exact hne 0xd00
  · exact hne 4
  · exact hne 4

variable (hopen : (s.funcAvailable p f && s.bit (Reg.GP_CTRL_RELEASE p)) = true) (hidle : (s.func (p.val * 16 + f.val)).ingress = [])
  (hb : s.boundSession p f slot = some n) (hu : s.get (Reg.SESS_QUOTA_UNITS n) ≠ 0)
include hopen hidle hb hu

section
variable (hw : s.windowOf n off.toNat len = some k) (ht : 1000000 * len ≤ (s.ses n).tokens)
include hw ht

omit hopen hidle in
theorem bar2Read_goes : s.alone (p.val * 16 + f.val) (readTx slot off.toNat len s.nextReq) =
    some (((s.taken (p.val * 16 + f.val)).setQuotaHeld n false).bar2Go n (s.bar2Addr n k (readTx slot off.toNat len s.nextReq)) len
      (readTx slot off.toNat len s.nextReq)) :=
  alone_goes (boundSession_parts hb) rfl (bar2Way_go hu hw rfl rfl ht)

/-- R66, R217: a read that its tokens cover goes to the channels. -/
theorem bar2Read_data {bs : List Byte}
    (hr : s.readMem .normal (s.bar2Addr n k (readTx slot off.toNat len s.nextReq)) len = .data bs) :
    DoesThen (.bar2Read p f slot off len) s ((s.taken (p.val * 16 + f.val)).setSes n (s.paid n len)) (heldFields n 0)
      (·.queueRead (guestMaster p n) (s.bar2Addr n k (readTx slot off.toNat len s.nextReq)) len (some s.nextReq)) := by
  have hr' := ((guestsSet_paid s (p.val * 16 + f.val) n len).sameMemory.readMem .normal _ len).trans hr
  have ha := bar2Read_goes hb hu hw ht
  rw [bar2Go_read rfl hr', get_port_held, (boundSession_func hb).1] at ha
  refine ⟨_, setsOnly_paid s _ n len, bar2Read_alone hopen hidle ha ?_⟩
  rw [(queueRead_queued _ _ _ _ _).func, func_paid]

/-- R236, R243: one from a side that is out of service answers Unsupported Request. -/
theorem bar2Read_poison (hr : s.readMem .normal (s.bar2Addr n k (readTx slot off.toNat len s.nextReq)) len = .poison) :
    Does (.bar2Read p f slot off len) s
      (((s.taken (p.val * 16 + f.val)).setSes n (s.paid n len)).hostReply { id := s.nextReq, status := .unsupported }) (heldFields n 0) := by
  have hr' := ((guestsSet_paid s (p.val * 16 + f.val) n len).sameMemory.readMem .normal _ len).trans hr
  have ha := bar2Read_goes hb hu hw ht
  rw [bar2Go_poison rfl hr'] at ha
  refine ⟨_, bar2Read_alone hopen hidle ha ?_, setsOnly_hostReply (setsOnly_paid s _ n len) _⟩
  rw [func_hostReply, func_paid]

end

section
variable (hro : s.bit (Reg.SESS_WIN_CTRL_GUEST_RO n k) = false) (hw : s.windowOf n off.toNat bytes.length = some k)
  (hbr : s.bit Reg.PWR_WARN_STATUS_BROWNOUT = false)
  (ht : 1000000 * s.bar2Cost n k (writeTx slot off.toNat bytes s.nextReq) ≤ (s.ses n).tokens)
include hro hw hbr ht

omit hopen hidle in
theorem bar2Write_goes : s.alone (p.val * 16 + f.val) (writeTx slot off.toNat bytes s.nextReq) =
    some (((s.taken (p.val * 16 + f.val)).setQuotaHeld n false).bar2Go n (s.bar2Addr n k (writeTx slot off.toNat bytes s.nextReq))
      (s.bar2Cost n k (writeTx slot off.toNat bytes s.nextReq)) (writeTx slot off.toNat bytes s.nextReq)) :=
  alone_goes (boundSession_parts hb) rfl (bar2Way_go hu hw (by rw [hro, Bool.and_false]) (by rw [hbr, Bool.and_false]) ht)

/-- R66, R216: a write that its tokens cover is performed, and goes to the channels. -/
theorem bar2Write_ok
    (hok : (s.writeMem .normal (s.bar2Addr n k (writeTx slot off.toNat bytes s.nextReq)) bytes).1 = .ok) :
    DoesThen (.bar2Write p f slot off bytes) s
      (s.spent (s.writeMem .normal (s.bar2Addr n k (writeTx slot off.toNat bytes s.nextReq)) bytes).2 (p.val * 16 + f.val) n
        (s.bar2Cost n k (writeTx slot off.toNat bytes s.nextReq))) (heldFields n 0)
      fun t => (t.queueWrite (guestMaster p n) (s.bar2Addr n k (writeTx slot off.toNat bytes s.nextReq)) bytes.length).hostReply
        { id := s.nextReq } := by
  obtain ⟨h1, h2⟩ := writeMem_paid s (p.val * 16 + f.val) n (s.bar2Cost n k (writeTx slot off.toNat bytes s.nextReq))
    (s.bar2Addr n k (writeTx slot off.toNat bytes s.nextReq)) bytes
  have ha := bar2Write_goes hb hu hro hw hbr ht
  rw [bar2Go_write rfl (h1.trans hok), get_port_held, (boundSession_func hb).1] at ha
  refine ⟨_, h2, bar2Write_alone hopen hidle ha ?_⟩
  have hf := (writeMem_guests (((s.taken (p.val * 16 + f.val)).setQuotaHeld n false).pay n
    (s.bar2Cost n k (writeTx slot off.toNat bytes s.nextReq))) .normal (s.bar2Addr n k (writeTx slot off.toNat bytes s.nextReq)) bytes).1
  rw [func_hostReply, (queueWrite_queued _ _ _ _).func]
  unfold State.func
  rw [hf]
  exact (congrArg FuncState.ingress (func_paid s _ n _)).trans hidle

/-- R240: one to a side that is out of service is dropped, counted and noted. -/
theorem bar2Write_dropped
    (hd : (s.writeMem .normal (s.bar2Addr n k (writeTx slot off.toNat bytes s.nextReq)) bytes).1 = .dropped)
    (hen : bitOf (s.reg (Reg.SESS_IRQ_ENABLE n)).toNat irqBar2Err = false) :
    Does (.bar2Write p f slot off bytes) s
      (((s.taken (p.val * 16 + f.val)).setSes n (s.paid n (s.bar2Cost n k (writeTx slot off.toNat bytes s.nextReq)))).hostReply
        { id := s.nextReq })
      ((Reg.QOS_STATUS_DROPPED (16 + 2 * p), s.more (Reg.QOS_STATUS_DROPPED (16 + 2 * p))) ::
        (refusedFields n (s.more (Reg.SESS_PAGE_STATUS_EVENTS n)) ++ heldFields n 0)) := by
  have h1 := (writeMem_paid s (p.val * 16 + f.val) n (s.bar2Cost n k (writeTx slot off.toNat bytes s.nextReq))
    (s.bar2Addr n k (writeTx slot off.toNat bytes s.nextReq)) bytes).1
  have ha := bar2Write_goes hb hu hro hw hbr ht
  rw [bar2Go_dropped rfl (h1.trans hd) (enable_held hen _), get_port_held, (boundSession_func hb).1] at ha
  refine ⟨_, bar2Write_alone hopen hidle ha ?_, setsOnly_hostReply ?_ _⟩
  · rw [func_hostReply, func_noteBar2Err]
    rw [func_count, func_paid]
    exact hidle
  · exact setsOnly_dropped s _ n _ (by omega)

end
end

end Sys2Proof.Machine
end

section
/-! SUPPORT. Accesses to BAR0 and BAR4 (R4, R45, R46), and the tokens of a microsecond (R66). -/

namespace Sys2Proof.Machine

/-! ### A guest's access to registers (R4, R45, R46) -/

/-- The requester of a guest's access to registers. -/
def barMaster (g q : Nat) : Master := { kind := .guest, id := Fin.ofNat 64 (g / 16), session := Fin.ofNat 256 q, world := .normal }

section
variable {u : State} {g a : Nat} {q : Option Nat} {t : HeldTx} {wr : Nat → Word → State → State} {rd : Nat → State → Word × State}

theorem guestRegs_write_none (ht : t.write = true) (h : wordSplit t.off t.bytes.length = none) :
    u.guestRegs g q a t wr rd = (u.noteRegAccess { addr := a + t.off, type := 5, master := barMaster g (q.getD 0) }).hostReply
      { id := t.id } := by
  unfold State.guestRegs
  dsimp only
  rw [ht, if_pos rfl, h]
  rfl

theorem guestRegs_read_none (ht : t.write = false) (h : wordSplit t.off t.len = none) :
    u.guestRegs g q a t wr rd = (u.noteRegAccess { addr := a + t.off, type := 4, master := barMaster g (q.getD 0) }).hostReply
      { id := t.id, data := List.replicate t.len 0 } := by
  unfold State.guestRegs
  dsimp only
  rw [ht, if_neg (by decide), h]
  rfl

theorem guestRegs_write_word (ht : t.write = true) {v : Word} (hv : t.bytes = leBytes 4 v.toNat) (h4 : t.off % 4 = 0) :
    u.guestRegs g q a t wr rd = (wr t.off v u).hostReply { id := t.id } := by
  unfold State.guestRegs
  dsimp only
  rw [ht, if_pos rfl, hv, length_leBytes, wordSplit_word h4]
  have hword : (u.each [t.off] fun x u => wr x (BitVec.ofNat 32 (leAt (leBytes 4 v.toNat) (x - t.off) 4)) u) = wr t.off v u := by
    show wr t.off (BitVec.ofNat 32 (leAt (leBytes 4 v.toNat) (t.off - t.off) 4)) u = wr t.off v u
    rw [Nat.sub_self, ofNat_leAt_leBytes]
  exact congrArg (State.hostReply · { id := t.id }) hword

theorem guestRegs_read_word (ht : t.write = false) (hl : t.len = 4) (h4 : t.off % 4 = 0) :
    u.guestRegs g q a t wr rd = (rd t.off u).2.hostReply { id := t.id, data := leBytes 4 (rd t.off u).1.toNat } := by
  unfold State.guestRegs
  dsimp only
  rw [ht, if_neg (by decide), hl, wordSplit_word h4]
  rfl

end

/-- The access of a place in a page or in BAR4. -/
def barTx (bar slot off : Nat) (write : Bool) (bytes : List Byte) (len id : Nat) : HeldTx :=
  { bar := bar, slot := slot, off := off, write := write, bytes := bytes, len := len, id := id }

section
variable {s : State} {p : Fin 4} {f slot : Fin 16} {len : Nat} {bytes : List Byte} {o : BitVec 12} {x : BitVec 13} {v : Word}

theorem exec_page_write : exec (.registerWrite (.bar (.page p f slot o)) bytes) s =
    .next (s.guestAccess p f (barTx 0 slot o.toNat true bytes 0 0)) := rfl

theorem exec_page_read : exec (.fabricRead (.bar (.page p f slot o)) len) s =
    .next (s.guestAccess p f (barTx 0 slot o.toNat false [] len 0)) := rfl

theorem exec_msix_write : exec (.registerWrite (.bar (.msix p f x)) bytes) s =
    .next (s.guestAccess p f (barTx 4 16 x.toNat true bytes 0 0)) := rfl

theorem exec_msix_read : exec (.fabricRead (.bar (.msix p f x)) len) s =
    .next (s.guestAccess p f (barTx 4 16 x.toNat false [] len 0)) := rfl

/-- R43, R52: an access to a BAR that no function takes is numbered alone. -/
theorem bar_closed (hclosed : (s.funcAvailable p f && s.bit (Reg.GP_CTRL_RELEASE p)) = false) :
    ∀ b ∈ [BarPlace.page p f slot o, .msix p f x],
      Does (.registerWrite (.bar b) bytes) s { s with nextReq := s.nextReq + 1, replies := [] } [] ∧
      Does (.fabricRead (.bar b) len) s { s with nextReq := s.nextReq + 1, replies := [] } [] := by
  have hall : ∀ t, (({ s with nextReq := s.nextReq + 1, replies := [] } : State)).SetsOnly [] (s.guestAccess p f t) := fun t => by
    rw [guestAccess_closed s hclosed]; exact setsOnly_refl _
  intro b hb
  simp only [List.mem_cons, List.not_mem_nil, or_false] at hb
  rcases hb with rfl | rfl
  · exact ⟨⟨_, exec_page_write, hall _⟩, ⟨_, exec_page_read, hall _⟩⟩
  · exact ⟨⟨_, exec_msix_write, hall _⟩, ⟨_, exec_msix_read, hall _⟩⟩

/-- An access to a BAR numbers its request and keeps the command queue. -/
theorem bar_follows : ∀ b ∈ [BarPlace.page p f slot o, .msix p f x],
    Leads (.registerWrite (.bar b) bytes) s fun t => s.nextReq + 1 ≤ t.nextReq ∧ t.pending = s.pending := by
  intro b hb
  simp only [List.mem_cons, List.not_mem_nil, or_false] at hb
  rcases hb with rfl | rfl
  · exact ⟨_, exec_page_write, guestAccess_follows s p f _⟩
  · exact ⟨_, exec_msix_write, guestAccess_follows s p f _⟩

section
variable (hopen : (s.funcAvailable p f && s.bit (Reg.GP_CTRL_RELEASE p)) = true) (hidle : (s.func (p.val * 16 + f.val)).ingress = [])
include hopen hidle

theorem page_alone_write {y : State} (h : s.alone (p.val * 16 + f.val) (barTx 0 slot o.toNat true bytes 0 s.nextReq) = some y) :
    exec (.registerWrite (.bar (.page p f slot o)) bytes) s = .next (y.markHeld (p.val * 16 + f.val)) :=
  exec_page_write.trans (congrArg _ (guestAccess_alone (t := barTx 0 slot o.toNat true bytes 0 0) hopen hidle h))

theorem page_alone_read {y : State} (h : s.alone (p.val * 16 + f.val) (barTx 0 slot o.toNat false [] len s.nextReq) = some y) :
    exec (.fabricRead (.bar (.page p f slot o)) len) s = .next (y.markHeld (p.val * 16 + f.val)) :=
  exec_page_read.trans (congrArg _ (guestAccess_alone (t := barTx 0 slot o.toNat false [] len 0) hopen hidle h))

theorem msix_alone_write : exec (.registerWrite (.bar (.msix p f x)) bytes) s = .next (((s.taken (p.val * 16 + f.val)).bar4Go
    (p.val * 16 + f.val) (barTx 4 16 x.toNat true bytes 0 s.nextReq)).markHeld (p.val * 16 + f.val)) :=
  exec_msix_write.trans (congrArg _ (guestAccess_alone (t := barTx 4 16 x.toNat true bytes 0 0) hopen hidle (alone_msix rfl)))

theorem msix_alone_read : exec (.fabricRead (.bar (.msix p f x)) len) s = .next (((s.taken (p.val * 16 + f.val)).bar4Go
    (p.val * 16 + f.val) (barTx 4 16 x.toNat false [] len s.nextReq)).markHeld (p.val * 16 + f.val)) :=
  exec_msix_read.trans (congrArg _ (guestAccess_alone (t := barTx 4 16 x.toNat false [] len 0) hopen hidle (alone_msix rfl)))

/-- R45: the page of a slot with no session reads 0 and ignores writes. -/
theorem page_unbound (hb : s.boundSession p f slot = none) :
    Does (.registerWrite (.bar (.page p f slot o)) bytes) s ((s.taken (p.val * 16 + f.val)).hostReply { id := s.nextReq }) [] ∧
    Does (.fabricRead (.bar (.page p f slot o)) len) s
      ((s.taken (p.val * 16 + f.val)).hostReply { id := s.nextReq, data := List.replicate len 0 }) [] := by
  have hb' : s.boundSession ((p.val * 16 + f.val) / 16) ((p.val * 16 + f.val) % 16) slot = none := by
    rw [func_div _ _ f.isLt, func_mod _ _ f.isLt]; exact hb
  have h0 : (0 : Nat) ≠ 4 := by decide
  have hi : ∀ r, ((s.taken (p.val * 16 + f.val)).hostReply r).markHeld (p.val * 16 + f.val) = (s.taken (p.val * 16 + f.val)).hostReply r :=
    fun r => markHeld_idle (by rw [func_hostReply, func_taken]; exact hidle)
  refine ⟨⟨_, page_alone_write hopen hidle (alone_unbound h0 hb'), ?_⟩, ⟨_, page_alone_read hopen hidle (alone_unbound h0 hb'), ?_⟩⟩
  · rw [hi]; exact setsOnly_refl _
  · rw [hi]; exact setsOnly_refl _

section
variable {n : Nat} (hb : s.boundSession p f slot = some n)
include hb

/-- R4, R45: an access that R4 does not perform raises REG_ACCESS; a 32-bit one acts on the page of the session. -/
theorem page_write_none (h : wordSplit o.toNat bytes.length = none) :
    exec (.registerWrite (.bar (.page p f slot o)) bytes) s = .next ((((s.taken (p.val * 16 + f.val)).noteRegAccess
      { addr := 0x1000000000 + Reg.SESS_PAGE_ID n + o.toNat, type := 5, master := barMaster (p.val * 16 + f.val) n }).hostReply
      { id := s.nextReq }).markHeld (p.val * 16 + f.val)) := by
  rw [page_alone_write hopen hidle (alone_page (boundSession_parts hb) rfl), State.bar0Go, guestRegs_write_none rfl h]
  rfl

theorem page_read_none (h : wordSplit o.toNat len = none) :
    exec (.fabricRead (.bar (.page p f slot o)) len) s = .next ((((s.taken (p.val * 16 + f.val)).noteRegAccess
      { addr := 0x1000000000 + Reg.SESS_PAGE_ID n + o.toNat, type := 4, master := barMaster (p.val * 16 + f.val) n }).hostReply
      { id := s.nextReq, data := List.replicate len 0 }).markHeld (p.val * 16 + f.val)) := by
  rw [page_alone_read hopen hidle (alone_page (boundSession_parts hb) rfl), State.bar0Go, guestRegs_read_none rfl h]
  rfl

theorem page_write_word (h : o.toNat % 4 = 0) :
    exec (.registerWrite (.bar (.page p f slot o)) (leBytes 4 v.toNat)) s = .next ((((s.taken (p.val * 16 + f.val)).pageWrite n
      o.toNat v).hostReply { id := s.nextReq }).markHeld (p.val * 16 + f.val)) := by
  rw [page_alone_write hopen hidle (alone_page (boundSession_parts hb) rfl), State.bar0Go, guestRegs_write_word rfl rfl h]
  rfl

theorem page_read_word (h : o.toNat % 4 = 0) :
    exec (.fabricRead (.bar (.page p f slot o)) 4) s = .next ((((s.taken (p.val * 16 + f.val)).pageReadEffect n o.toNat).hostReply
      { id := s.nextReq, data := leBytes 4 ((s.taken (p.val * 16 + f.val)).pageView n o.toNat).toNat }).markHeld
      (p.val * 16 + f.val)) := by
  rw [page_alone_read hopen hidle (alone_page (boundSession_parts hb) rfl), State.bar0Go, guestRegs_read_word rfl rfl h]
  rfl

end

/-- R4, R46: an access to BAR4 that R4 does not perform raises REG_ACCESS; a 32-bit one acts on the MSI-X table. -/
theorem msix_write_none (h : wordSplit x.toNat bytes.length = none) :
    exec (.registerWrite (.bar (.msix p f x)) bytes) s = .next ((((s.taken (p.val * 16 + f.val)).noteRegAccess
      { addr := x.toNat, type := 5, master := barMaster (p.val * 16 + f.val) 0 }).hostReply { id := s.nextReq }).markHeld
      (p.val * 16 + f.val)) := by
  have ha : 0 + x.toNat = x.toNat := Nat.zero_add _
  rw [msix_alone_write hopen hidle, State.bar4Go, guestRegs_write_none rfl h, show (barTx 4 16 x.toNat true bytes 0 s.nextReq).off = x.toNat from rfl, ha]
  rfl

theorem msix_write_beyond (h : x.toNat % 4 = 0) (hx : 0x200 ≤ x.toNat) :
    exec (.registerWrite (.bar (.msix p f x)) (leBytes 4 v.toNat)) s =
      .next (((s.taken (p.val * 16 + f.val)).hostReply { id := s.nextReq }).markHeld (p.val * 16 + f.val)) := by
  rw [msix_alone_write hopen hidle, State.bar4Go, guestRegs_write_word rfl rfl h,
    if_pos (show 0x200 ≤ (barTx 4 16 x.toNat true (leBytes 4 v.toNat) 0 s.nextReq).off from hx)]
  rfl

theorem msix_write_table (h : x.toNat % 4 = 0) (hx : x.toNat < 0x200) :
    exec (.registerWrite (.bar (.msix p f x)) (leBytes 4 v.toNat)) s = .next ((((({ s with nextReq := s.nextReq + 1, replies := [] } :
      State).setFunc (p.val * 16 + f.val) { s.func (p.val * 16 + f.val) with
        table := sput msixReset (s.func (p.val * 16 + f.val)).table (x.toNat / 4) (if x.toNat / 4 % 4 = 3 then v &&& 1 else v) }).msixFlush
      (p.val * 16 + f.val)).hostReply { id := s.nextReq }).markHeld (p.val * 16 + f.val)) := by
  have hx' : ¬ 0x200 ≤ (barTx 4 16 x.toNat true (leBytes 4 v.toNat) 0 s.nextReq).off := Nat.not_le.2 hx
  rw [msix_alone_write hopen hidle, State.bar4Go, guestRegs_write_word rfl rfl h, if_neg hx']
  dsimp only
  rw [func_taken, State.taken, setFunc_setFunc]
  rfl

theorem msix_read_table (h : x.toNat % 4 = 0) (hx : x.toNat < 0x200) :
    exec (.fabricRead (.bar (.msix p f x)) 4) s = .next (((s.taken (p.val * 16 + f.val)).hostReply
      { id := s.nextReq, data := leBytes 4 ((s.func (p.val * 16 + f.val)).word (x.toNat / 4)).toNat }).markHeld (p.val * 16 + f.val)) := by
  rw [msix_alone_read hopen hidle, State.bar4Go, guestRegs_read_word rfl rfl h]
  dsimp only
  rw [if_pos (show (barTx 4 16 x.toNat false [] 4 s.nextReq).off < 0x200 from hx), func_taken]
  rfl

end
end

/-! ### The tokens of every session (R66) -/

/-- One session's bucket after a microsecond. -/
def State.credited (s : State) (n : Nat) : SessState :=
  { s.ses n with tokens := min (s.bucketDepth n) ((s.ses n).tokens + s.get (Reg.SESS_QUOTA_UNITS n) * 67108864) }

theorem get_setSes (s : State) (m : Nat) (r : SessState) (fl : Fld) : (s.setSes m r).get fl = s.get fl := rfl

theorem bucketDepth_setSes (s : State) (m : Nat) (r : SessState) (n : Nat) : (s.setSes m r).bucketDepth n = s.bucketDepth n := by
  unfold State.bucketDepth
  rw [get_setSes]
  rfl

theorem ses_setSes (s : State) (m n : Nat) (r : SessState) : (s.setSes m r).ses n = if n = m then r else s.ses n := sget_sput _ _ _ _

/-- Crediting one session leaves what another is credited. -/
theorem credited_setSes (s : State) {m n : Nat} (h : n ≠ m) (r : SessState) : (s.setSes m r).credited n = s.credited n := by
  unfold State.credited
  rw [ses_setSes, if_neg h, bucketDepth_setSes, get_setSes]

/-- A session is credited. -/
def State.credit (n : Nat) (s : State) : State := s.setSes n (s.credited n)

theorem setSes_withSess (s : State) (m : Nat) (r : SessState) (S : List (Nat × SessState)) :
    { s.setSes m r with sess := S } = { s with sess := S } := rfl

theorem each_credit_sess (s : State) (ns : List Nat) : ∃ S, s.each ns State.credit = { s with sess := S } := by
  induction ns generalizing s with
  | nil => exact ⟨s.sess, rfl⟩
  | cons m ns ih =>
    obtain ⟨S, hS⟩ := ih (s.setSes m (s.credited m))
    exact ⟨S, hS.trans (setSes_withSess s m _ S)⟩

/-- Sessions credited one after another: each gets what its own bucket had. -/
theorem each_credit_ses {ns : List Nat} (h : ns.Nodup) (s : State) (n : Nat) :
    (s.each ns State.credit).ses n = if n ∈ ns then s.credited n else s.ses n := by
  induction ns generalizing s with
  | nil => rfl
  | cons m ns ih =>
    obtain ⟨hm, hns⟩ := List.nodup_cons.1 h
    have e : s.each (m :: ns) State.credit = (s.setSes m (s.credited m)).each ns State.credit := rfl
    rw [e, ih hns, ses_setSes]
    by_cases hn : n = m
    · subst hn; simp [hm]
    · simp [hn, credited_setSes s hn]

theorem mem_creditable {s : State} {n : Nat} (hn : n < 256) :
    n ∈ guestSessions.filter (fun n => s.get (Reg.SESS_QUOTA_UNITS n) != 0) ↔ 2 ≤ n ∧ s.get (Reg.SESS_QUOTA_UNITS n) ≠ 0 := by
  simp only [guestSessions, List.mem_filter, List.mem_map, List.mem_range, bne_iff_ne, ne_eq]
  refine and_congr_left fun _ => ⟨?_, fun h => ⟨n - 2, by omega, by omega⟩⟩
  rintro ⟨i, _, rfl⟩
  omega

theorem creditable_nodup (s : State) : (guestSessions.filter fun n => s.get (Reg.SESS_QUOTA_UNITS n) != 0).Nodup :=
  (List.nodup_range.map fun a b h => by simpa using h).filter _

theorem exec_quotaCredit (s : State) : exec .quotaCredit s = .next (({ s with replies := [] } : State).each
    (guestSessions.filter fun n => s.get (Reg.SESS_QUOTA_UNITS n) != 0) State.credit).drainAll := rfl

/-- R66: a microsecond credits every session that has a quota, up to the depth of its bucket. -/
theorem quotaCredit_credits {s : State} (h : s.heldFuncs = []) :
    SetsAnd .quotaCredit s [] fun t => t.replies = [] ∧ ∀ n < 256, t.ses n =
      if 2 ≤ n ∧ s.get (Reg.SESS_QUOTA_UNITS n) ≠ 0 then s.credited n else s.ses n := by
  have hses := each_credit_ses (creditable_nodup s) ({ s with replies := [] } : State)
  obtain ⟨S, hS⟩ := each_credit_sess ({ s with replies := [] } : State) (guestSessions.filter fun n => s.get (Reg.SESS_QUOTA_UNITS n) != 0)
  have hdrain : ({ s with replies := [], sess := S } : State).drainAll = { s with replies := [], sess := S } := by
    have hnone : ({ s with replies := [], sess := S } : State).heldFuncs = [] := h
    unfold State.drainAll; rw [hnone]; rfl
  have hexec := exec_quotaCredit s
  rw [hS, hdrain] at hexec
  rw [hS] at hses
  refine ⟨_, hexec, fun a i _ => rfl, sameBytes_of_eq rfl rfl rfl rfl, rfl, fun n hn => ?_⟩
  refine (hses n).trans ?_
  simp only [mem_creditable hn]
  rfl

end Sys2Proof.Machine
end

section
/-! PROOF. O49: guest accesses to memory, assembled from the cases above. -/

namespace Sys2Proof.Machine

theorem bar2Cost_write (s : State) (n k slot off id : Nat) (bytes : List Byte) : s.bar2Cost n k (writeTx slot off bytes id) =
    if s.bit (Reg.SESS_WIN_CTRL_MIRRORED n k) then 2 * bytes.length else bytes.length := by
  unfold State.bar2Cost
  rw [show (writeTx slot off bytes id).write = true from rfl, Bool.true_and]
  rfl

theorem guestMaster_session (p : Nat) (n : Fin 256) :
    guestMaster p n = { kind := .guest, id := Fin.ofNat 64 p, session := n, world := .normal } := by
  unfold guestMaster
  rw [Fin.ofNat_val_eq_self]

theorem readMem_of_readBytes {s : State} {a len : Nat} {bs : List Byte} (h : s.readBytes .normal a len = some bs) :
    s.readMem .normal a len = .data bs := by
  unfold State.readBytes at h
  split at h
  · cases h; assumption
  · cases h

/-- Settles O49: each access finds its function's ingress empty, so what becomes of it is what `State.alone` says. -/
theorem guestMemoryPassesItsWindow : Obligations.GuestMemoryPassesItsWindow := by
  intro s p f slot off len bytes k n o x v
  refine ⟨bar2_closed, bar2_unbound, fun hopen hidle hb => ⟨fun hen => ⟨fun hno => ?_, fun hno => ?_⟩,
    fun hu hw => ⟨fun ht => ?_, fun ht hr => ?_, fun ht hr => ?_⟩,
    fun hu hro hw => ⟨fun ht => ?_, fun hbr ht => ⟨fun hok => ?_, fun hd hen => ?_⟩⟩⟩,
    ⟨bar_closed, fun hopen hidle => ⟨page_unbound hopen hidle, fun hb => ⟨?_, ?_, fun h4 => ⟨?_, ?_⟩⟩, ?_, ?_, fun h4 hx => ⟨?_, ?_⟩⟩⟩,
    bar_follows, quotaCredit_credits⟩
  · exact bar2Read_refused hopen hidle hb hen hno
  · have h := bar2Write_refused hopen hidle hb hen hno
    rw [State.taken, setFunc_setFunc] at h
    exact h
  · exact bar2Read_held hopen hidle hb hu hw ht
  · have h := bar2Read_data hopen hidle hb hu hw ht (readMem_of_readBytes hr)
    rw [guestMaster_session] at h
    exact h
  · exact bar2Read_poison hopen hidle hb hu hw ht hr
  · rw [← bar2Cost_write s n k slot off.toNat s.nextReq bytes] at ht
    exact bar2Write_held hopen hidle hb hu hro hw ht
  · rw [← bar2Cost_write s n k slot off.toNat s.nextReq bytes] at ht
    have h := bar2Write_ok hopen hidle hb hu hro hw hbr ht hok
    rw [guestMaster_session, bar2Cost_write] at h
    exact h
  · rw [← bar2Cost_write s n k slot off.toNat s.nextReq bytes] at ht
    have h := bar2Write_dropped hopen hidle hb hu hro hw hbr ht hd hen
    rw [bar2Cost_write] at h
    exact h
  · exact page_write_none hopen hidle hb
  · exact page_read_none hopen hidle hb
  · exact page_write_word hopen hidle hb h4
  · exact page_read_word hopen hidle hb h4
  · exact msix_write_none hopen hidle
  · exact msix_write_beyond hopen hidle
  · exact msix_write_table hopen hidle h4 hx
  · exact msix_read_table hopen hidle h4 hx

end Sys2Proof.Machine
end

section
/-! SUPPORT. Rules for what a command sets: fields kept, whole registers, events, and changes beside the registers. -/

namespace Sys2Proof.Machine

/-- A change of the state that neither reads nor writes the registers. -/
def Beside (f : State → State) : Prop := ∀ (x : State) (r : List (Nat × Word)), f { x with regs := r } = { f x with regs := r }

section
variable {u t : State} {l : List (Fld × Nat)}

/-- What does not depend on the registers is as it was. -/
theorem State.SetsOnly.proj {β : Type} (h : u.SetsOnly l t) (p : State → β)
    (hp : ∀ (x : State) (r : List (Nat × Word)), p { x with regs := r } = p x) : p t = p u := by rw [h.eq, hp]

theorem setsOnly_beside {f : State → State} (hf : Beside f) (h : u.SetsOnly l t) : (f u).SetsOnly l (f t) := by
  have e : f t = { f u with regs := t.regs } := by rw [← hf]; exact congrArg f h.eq
  refine ⟨fun a i hi => ?_, by rw [e]⟩
  have hu : (f u).reg a = u.reg a := State.reg_congr (congrArg State.regs (hf u u.regs)) a
  have ht : (f t).reg a = t.reg a := State.reg_congr (congrArg State.regs e) a
  rw [hu, ht]
  exact h.1 a i hi

/-- A field listed with the value it holds already. -/
theorem setsOnly_keep (h : u.SetsOnly l t) {f : Fld} {v : Nat} (hv : t.get f = v % 2 ^ f.width) : u.SetsOnly ((f, v) :: l) t := by
  refine ⟨fun a i hi => ?_, h.2⟩
  rw [bitAfter_cons]
  split
  · rename_i hc
    simp only [Fld.covers, Bool.and_eq_true, beq_iff_eq, decide_eq_true_eq] at hc
    obtain ⟨rfl, hlo, hhi⟩ := hc
    have hb := congrArg (Nat.testBit · (i - f.lo)) hv
    simp only [State.get, testBit_getBits, Nat.testBit_mod_two_pow] at hb
    have hd : i - f.lo < f.width := by omega
    rwa [Nat.add_sub_cancel' hlo, decide_eq_true hd, Bool.true_and, Bool.true_and] at hb
  · exact h.1 a i hi

theorem setsOnly_setReg (h : u.SetsOnly l t) (a : Nat) (v : Word) : u.SetsOnly ((whole a, v.toNat) :: l) (t.setReg a v) :=
  ⟨regBits_setReg (r := u.reg) h.1 rfl, h.2⟩

theorem sourceFree_of_setsOnly {k : Nat} (h : u.SetsOnly l t) (hk : u.SourceFree k) : t.SourceFree k := by
  unfold State.SourceFree
  rwa [h.proj State.ic fun _ _ => rfl]

/-- An event: its flag, its register's count and its unit's source (R348). -/
theorem setsOnly_event (h : u.SetsOnly l t) {flag events : Fld} {k : Nat} (hu : sourceUsed k = true) (hk : u.SourceFree k)
    (hw : events.lo + events.width ≤ 32) (hd : events.lo + events.width ≤ flag.lo ∨ flag.lo + flag.width ≤ events.lo) :
    u.SetsOnly ((Reg.IC_SRC_PENDING k, 1) :: (events, t.more events) :: (flag, 1) :: l) (t.event flag events k) := by
  have hc := setsOnly_set (setsOnly_set h flag 1) events (t.more events)
  have hm : (t.set flag 1).count events = (t.set flag 1).set events (t.more events) := by
    rw [State.count_eq, State.get_set_apart _ _ _ _ hw hd]; rfl
  rw [State.event, hm, raiseIrq_free hu (sourceFree_of_setsOnly hc hk)]
  exact setsOnly_set hc _ 1

end

theorem bit_eq_true {s : State} {f : Fld} (hf : f.width = 1) : s.bit f = true ↔ s.get f = 1 := by
  have h := s.get_lt f
  rw [hf] at h
  simp only [State.bit, bne_iff_ne]
  omega

theorem bit_eq_false {s : State} {f : Fld} : s.bit f = false ↔ s.get f = 0 := by simp [State.bit]

end Sys2Proof.Machine
end

section
/-! PROOF. O5: writes of the drumbeat's source and divider. -/

namespace Sys2Proof.Machine

section
variable {s : State} {w : World} {v : Word}

theorem exec_drumWrites (h : s.Admits w 0x01 0 false) :
    exec (.drumCtrlWrite w v) s = .next (s.drumCtrlWrite v) ∧ exec (.drumDivIntWrite w v) s = .next (s.drumDivIntWrite v) ∧
      exec (.drumDivFracWrite w v) s = .next (s.drumDivFracWrite v) :=
  ⟨congrArg _ (asWriter_admits h _), congrArg _ (asWriter_admits h _), congrArg _ (asWriter_admits h _)⟩

theorem setsOnly_drumEvent {l : List (Fld × Nat)} {u t : State} (h : u.SetsOnly l t) (hk : u.SourceFree 122) {flag : Fld}
    (hd : flag.lo + flag.width ≤ 16) :
    u.SetsOnly ((Reg.IC_SRC_PENDING 122, 1) :: (Reg.DRUM_STATUS_EVENTS, t.more Reg.DRUM_STATUS_EVENTS) :: (flag, 1) :: l)
      (t.drumEvent flag) :=
  setsOnly_event h (by decide) hk (by decide) (.inr hd)

/-- R19: while something runs, a write changes nothing but its event. -/
theorem drumWrites_ignored (ha : s.Admits w 0x01 0 false) (hrun : s.drumUsersRun = true) (hk : s.SourceFree 122) :
    let ignored := [(Reg.IC_SRC_PENDING 122, 1), (Reg.DRUM_STATUS_EVENTS, s.more Reg.DRUM_STATUS_EVENTS),
      (Reg.DRUM_STATUS_WRITE_WHILE_ACTIVE, 1)]
    Does (.drumCtrlWrite w v) s s ignored ∧ Does (.drumDivIntWrite w v) s s ignored ∧ Does (.drumDivFracWrite w v) s s ignored := by
  have h := setsOnly_drumEvent (setsOnly_refl s) hk (flag := Reg.DRUM_STATUS_WRITE_WHILE_ACTIVE) (by decide)
  obtain ⟨h1, h2, h3⟩ := exec_drumWrites (v := v) ha
  rw [State.drumCtrlWrite, if_pos hrun] at h1
  rw [State.drumDivIntWrite, if_pos hrun] at h2
  rw [State.drumDivFracWrite, if_pos hrun] at h3
  exact ⟨⟨_, h1, h⟩, ⟨_, h2, h⟩, ⟨_, h3, h⟩⟩

/-- R20: a pair in range is taken with the INT held, and the grid starts again. -/
theorem drumDivFrac_taken (ha : s.Admits w 0x01 0 false) (hrun : s.drumUsersRun = false)
    (hok : divSettingOk (s.get Reg.DRUM_DIV_INT_INT) (getBits v 0 16) (getBits v 16 16) = true) :
    Does (.drumDivFracWrite w v) s
      { s with drum := { s.drum with
          int := s.get Reg.DRUM_DIV_INT_INT, num := getBits v 0 16, den := getBits v 16 16,
          gridBeat := s.drum.gridBeat.map (fun _ => 0) } }
      [(whole Reg.DRUM_DIV_FRAC, v.toNat)] := by
  have h := (exec_drumWrites (v := v) ha).2.2
  rw [State.drumDivFracWrite, if_neg (by simp [hrun])] at h
  dsimp only at h
  rw [if_pos hok] at h
  exact ⟨_, h, setsOnly_setReg (setsOnly_refl _) _ _⟩

/-- R20: with a pair out of range both registers return to the setting in use. -/
theorem drumDivFrac_refused (ha : s.Admits w 0x01 0 false) (hrun : s.drumUsersRun = false)
    (hok : divSettingOk (s.get Reg.DRUM_DIV_INT_INT) (getBits v 0 16) (getBits v 16 16) = false) (hk : s.SourceFree 122) :
    Does (.drumDivFracWrite w v) s s
      [(Reg.IC_SRC_PENDING 122, 1), (Reg.DRUM_STATUS_EVENTS, s.more Reg.DRUM_STATUS_EVENTS),
       (Reg.DRUM_STATUS_CFG_ERR, 1), (Reg.DRUM_DIV_FRAC_NUM, s.drum.num), (Reg.DRUM_DIV_FRAC_DEN, s.drum.den),
       (Reg.DRUM_DIV_INT_INT, s.drum.int)] := by
  have h := (exec_drumWrites (v := v) ha).2.2
  rw [State.drumDivFracWrite, if_neg (by simp [hrun])] at h
  dsimp only at h
  rw [if_neg (by simp [hok])] at h
  have hs := setsOnly_drumEvent (setsOnly_set (setsOnly_set (setsOnly_set (setsOnly_refl s) Reg.DRUM_DIV_INT_INT s.drum.int)
    Reg.DRUM_DIV_FRAC_DEN s.drum.den) Reg.DRUM_DIV_FRAC_NUM s.drum.num) hk (flag := Reg.DRUM_STATUS_CFG_ERR) (by decide)
  have hm : (((s.set Reg.DRUM_DIV_INT_INT s.drum.int).set Reg.DRUM_DIV_FRAC_DEN s.drum.den).set Reg.DRUM_DIV_FRAC_NUM s.drum.num).get
      Reg.DRUM_STATUS_EVENTS = s.get Reg.DRUM_STATUS_EVENTS := by
    rw [State.get_set_other _ _ _ _ (by decide), State.get_set_other _ _ _ _ (by decide), State.get_set_other _ _ _ _ (by decide)]
  rw [State.more, hm] at hs
  exact ⟨_, h, hs⟩

/-- What a performed write of DRUM_0_CTRL does beside the registers (R17, R22 to R24). -/
def DrumState.sourced (d : DrumState) (old new held : Bool) : DrumState :=
  { d with
    missed := if old = new ∧ held = false then d.missed else 0
    edgeDue := if old = new ∧ held = false then d.edgeDue else false
    gridBeat := if old = true ∧ new = false then d.gridBeat.map (fun _ => 0) else d.gridBeat }

/-- The drumbeat's state beside its registers is set. -/
def State.withDrum (s : State) (d : DrumState) : State := { s with drum := d }

theorem sourced_eq (x : State) (old new held : Bool) :
    (let y := if (if old = true then 1 else 0) = (if new = true then 1 else 0) ∧ held = false then x
        else x.withDrum { x.drum with missed := 0, edgeDue := false }
     if (if old = true then 1 else 0) = 1 ∧ (if new = true then 1 else 0) = 0 then y.drumGridRestart else y) =
      x.withDrum (x.drum.sourced old new held) := by
  cases old <;> cases new <;> cases held <;> rfl

theorem drumSource_eq (x : Word) : drumSource x = if decide (getBits x 0 2 = 1) = true then 1 else 0 := by
  simp [drumSource]

/-- R24, R398: a write of DRUM_0_CTRL ends holdover, whose end is an end of input 3's condition. -/
def holdoverFell (s : State) : List (Fld × Nat) :=
  if s.bit Reg.DRUM_STATUS_HOLDOVER = true ∧ s.bit (Reg.FLT_IN_STATUS_CAUSE 3) = true then [(Reg.FLT_IN_STATUS_TRANSIENT 3, 1)] else []

theorem setsOnly_holdoverEnd (s : State) (x : Word) :
    s.SetsOnly (holdoverFell s ++ [(Reg.DRUM_STATUS_HOLDOVER, 0), (whole Reg.DRUM_CTRL, x.toNat)])
      ((s.setReg Reg.DRUM_CTRL x).when (s.bit Reg.DRUM_STATUS_HOLDOVER) fun t => (t.set Reg.DRUM_STATUS_HOLDOVER 0).liveFell 3) := by
  have h := setsOnly_setReg (setsOnly_refl s) Reg.DRUM_CTRL x
  have hne : Reg.DRUM_STATUS ≠ Reg.DRUM_CTRL := by decide
  unfold State.when holdoverFell
  cases hheld : s.bit Reg.DRUM_STATUS_HOLDOVER with
  | false =>
    refine setsOnly_keep h ?_
    rw [State.get, State.reg_setReg, if_neg hne]
    exact bit_eq_false.1 hheld
  | true =>
    have hset := setsOnly_set h Reg.DRUM_STATUS_HOLDOVER 0
    have hcause : ((s.setReg Reg.DRUM_CTRL x).set Reg.DRUM_STATUS_HOLDOVER 0).bit (Reg.FLT_IN_STATUS_CAUSE 3) =
        s.bit (Reg.FLT_IN_STATUS_CAUSE 3) := by
      unfold State.bit
      rw [State.get_set_other _ _ _ _ (by decide), State.get, State.reg_setReg, if_neg (by decide)]
      rfl
    unfold State.liveFell
    dsimp only
    rw [if_pos rfl, hcause]
    cases s.bit (Reg.FLT_IN_STATUS_CAUSE 3) with
    | false => exact hset
    | true => exact setsOnly_set hset _ 1

/-- The registers after a performed write of DRUM_0_CTRL. -/
def State.sourceSet (s : State) (v : Word) : State :=
  ((s.setReg Reg.DRUM_CTRL (v &&& 7)).when (s.bit Reg.DRUM_STATUS_HOLDOVER) fun t =>
    (t.set Reg.DRUM_STATUS_HOLDOVER 0).liveFell 3).set Reg.DRUM_STATUS_ACTIVE_SOURCE
      (if decide (getBits v 0 2 = 1) = true then 1 else 0)

theorem drumCtrlWrite_stopped (hrun : s.drumUsersRun = false) :
    s.drumCtrlWrite v = (s.sourceSet v).withDrum ((s.sourceSet v).drum.sourced (decide (getBits (s.reg Reg.DRUM_CTRL) 0 2 = 1))
      (decide (getBits v 0 2 = 1)) (s.bit Reg.DRUM_STATUS_HOLDOVER)) := by
  rw [State.drumCtrlWrite, if_neg (by simp [hrun])]
  dsimp only
  rw [drumSource_eq, drumSource_eq]
  exact sourced_eq (s.sourceSet v) _ _ _

/-- R17, R22 to R24: the source that a write of DRUM_0_CTRL selects is put in use. -/
theorem drumCtrl_sets (ha : s.Admits w 0x01 0 false) (hrun : s.drumUsersRun = false) :
    Does (.drumCtrlWrite w v) s
      (s.withDrum (s.drum.sourced (decide (getBits (s.reg Reg.DRUM_CTRL) 0 2 = 1)) (decide (getBits v 0 2 = 1))
        (s.bit Reg.DRUM_STATUS_HOLDOVER)))
      ([(Reg.DRUM_STATUS_ACTIVE_SOURCE, if decide (getBits v 0 2 = 1) = true then 1 else 0)] ++ holdoverFell s ++
        [(Reg.DRUM_STATUS_HOLDOVER, 0), (whole Reg.DRUM_CTRL, (v &&& 7).toNat)]) := by
  have h := (exec_drumWrites (v := v) ha).1
  have hs : s.SetsOnly _ (s.sourceSet v) := setsOnly_set (setsOnly_holdoverEnd s (v &&& 7)) _ _
  rw [drumCtrlWrite_stopped hrun, hs.proj State.drum fun _ _ => rfl] at h
  exact ⟨_, h, setsOnly_beside (f := (State.withDrum · _)) (fun _ _ => rfl) hs⟩

end

/-- Settles O5: each write is either ignored, or refused, or taken, as the lemmas above say. -/
theorem drumWritesTakeEffectOnlyWhenStopped : Obligations.DrumWritesTakeEffectOnlyWhenStopped := by
  intro s w v ha
  refine ⟨fun hrun => ⟨drumCtrl_sets ha hrun, ?_, drumDivFrac_taken ha hrun, fun hok hk => drumDivFrac_refused ha hrun hok hk⟩,
    fun hrun hk => drumWrites_ignored ha hrun hk⟩
  have h := (exec_drumWrites (v := v) ha).2.1
  rw [State.drumDivIntWrite, if_neg (by simp [hrun])] at h
  exact ⟨_, h, setsOnly_set (setsOnly_refl s) _ _⟩

end Sys2Proof.Machine
end

section
/-! PROOF. O3: what reset leaves in the registers that the rules state. -/

namespace Sys2Proof.Machine

theorem reset_reg (a : Nat) : State.reset.reg a = regReset a := rfl

/-- The row at an offset of a unit. -/
theorem rowAt_reg {u i o : Nat} (hi : i < unitInstances u) (hi' : i < 256) (ho : o < 0x10000) :
    rowAt (reg u i o) = findRow (unitRows u) o := by
  have h1 : reg u i o / 0x1000000 = u := by unfold reg; omega
  have h2 : reg u i o / 0x10000 % 256 = i := by unfold reg; omega
  have h3 : reg u i o % 0x10000 = o := by unfold reg; omega
  rw [rowAt, h1, h2, h3, if_pos hi]

theorem regReset_reg {u i o : Nat} (hi : i < unitInstances u) (hi' : i < 256) (ho : o < 0x10000) {r : RegRow} {ix : List Nat}
    (h : findRow (unitRows u) o = some (r, ix)) : regReset (reg u i o) = r.reset ||| r.special.eval u o i ix := by
  have h1 : reg u i o / 0x1000000 = u := by unfold reg; omega
  have h2 : reg u i o / 0x10000 % 256 = i := by unfold reg; omega
  have h3 : reg u i o % 0x10000 = o := by unfold reg; omega
  rw [regReset, rowAt_reg hi hi' ho, h]
  dsimp only
  rw [h1, h2, h3]

theorem findRow_skip {r : RegRow} {rs : List RegRow} {o : Nat} (h : rowIndex r.dims (o - r.off) = none) :
    findRow (r :: rs) o = findRow rs o := by
  rw [findRow, h]; split <;> rfl

theorem findRow_before {r : RegRow} {rs : List RegRow} {o : Nat} (h : o < r.off) : findRow (r :: rs) o = findRow rs o := by
  rw [findRow, if_pos h]

theorem findRow_here {r : RegRow} {rs : List RegRow} {o : Nat} {ix : List Nat} (h : rowIndex r.dims (o - r.off) = some ix)
    (hle : r.off ≤ o) : findRow (r :: rs) o = some (r, ix) := by
  rw [findRow, if_neg (by omega), h]

theorem rowIndex_words {c k : Nat} (hk : k < c) : rowIndex [(c, 4)] (4 * k) = some [k] := by
  have h1 : 4 * k / 4 = k := by omega
  have h2 : 4 * k % 4 = 0 := by omega
  simp [rowIndex, h1, h2, hk]

theorem rowIndex_past {c d : Nat} (hd : 4 * c ≤ d) : rowIndex [(c, 4)] d = none := by
  rw [rowIndex, if_neg (by omega)]

theorem rowIndex_single {d : Nat} (hd : 0 < d) : rowIndex [] d = none := by rw [rowIndex, if_neg (by omega)]

section
variable {scl k : Nat} (hs : scl < 24)
include hs

theorem reset_coefAH (hk : k < 256) : regReset (Reg.SCL_COEF_AH scl k) = ResetRule.coefH.eval 8 (0x1000 + 4 * k) scl [k] := by
  have h : findRow (unitRows 8) (0x1000 + 4 * k) = some ({ name := "COEF_AH", off := 0x1000, dims := [(256, 4)], special := .coefH }, [k]) := by
    change findRow rowsSCL _ = _
    unfold rowsSCL
    rw [findRow_before (by simp only; omega), findRow_skip (rowIndex_single (by simp only; omega))]
    exact findRow_here (by simp [rowIndex_words hk]) (by simp)
  rw [regReset_reg hs (by omega) (by omega) h]
  exact BitVec.zero_or

theorem reset_coefAV (hk : k < 192) : regReset (Reg.SCL_COEF_AV scl k) = ResetRule.coefV.eval 8 (0x1400 + 4 * k) scl [k] := by
  have h : findRow (unitRows 8) (0x1400 + 4 * k) = some ({ name := "COEF_AV", off := 0x1400, dims := [(192, 4)], special := .coefV }, [k]) := by
    change findRow rowsSCL _ = _
    unfold rowsSCL
    rw [findRow_before (by simp only; omega), findRow_skip (rowIndex_single (by simp only; omega)),
      findRow_skip (rowIndex_past (by simp only; omega))]
    exact findRow_here (by simp [rowIndex_words hk]) (by simp)
  rw [regReset_reg hs (by omega) (by omega) h]
  exact BitVec.zero_or

theorem reset_coefBH (hk : k < 256) : regReset (Reg.SCL_COEF_BH scl k) = ResetRule.coefH.eval 8 (0x2000 + 4 * k) scl [k] := by
  have h : findRow (unitRows 8) (0x2000 + 4 * k) = some ({ name := "COEF_BH", off := 0x2000, dims := [(256, 4)], special := .coefH }, [k]) := by
    change findRow rowsSCL _ = _
    unfold rowsSCL
    rw [findRow_before (by simp only; omega), findRow_skip (rowIndex_single (by simp only; omega)),
      findRow_skip (rowIndex_past (by simp only; omega)), findRow_skip (rowIndex_past (by simp only; omega))]
    exact findRow_here (by simp [rowIndex_words hk]) (by simp)
  rw [regReset_reg hs (by omega) (by omega) h]
  exact BitVec.zero_or

theorem reset_coefBV (hk : k < 192) : regReset (Reg.SCL_COEF_BV scl k) = ResetRule.coefV.eval 8 (0x2400 + 4 * k) scl [k] := by
  have h : findRow (unitRows 8) (0x2400 + 4 * k) = some ({ name := "COEF_BV", off := 0x2400, dims := [(192, 4)], special := .coefV }, [k]) := by
    change findRow rowsSCL _ = _
    unfold rowsSCL
    rw [findRow_before (by simp only; omega), findRow_skip (rowIndex_single (by simp only; omega)),
      findRow_skip (rowIndex_past (by simp only; omega)), findRow_skip (rowIndex_past (by simp only; omega)),
      findRow_skip (rowIndex_past (by simp only; omega))]
    exact findRow_here (by simp [rowIndex_words hk]) (by simp)
  rw [regReset_reg hs (by omega) (by omega) h]
  exact BitVec.zero_or

end

/-- R129: a horizontal phase passes its second sample, of weight 1024 in the odd half. -/
theorem coefH_halves (o scl k : Nat) : getBits (ResetRule.coefH.eval 8 o scl [k]) 0 12 = 0 ∧
    getBits (ResetRule.coefH.eval 8 o scl [k]) 16 12 = if k % 4 = 1 then 1024 else 0 := by
  simp only [ResetRule.eval, List.getD_cons_zero]
  split <;> decide

/-- R129: a vertical phase passes its second sample, of weight 1024 in the even half. -/
theorem coefV_halves (o scl k : Nat) : getBits (ResetRule.coefV.eval 8 o scl [k]) 16 12 = 0 ∧
    getBits (ResetRule.coefV.eval 8 o scl [k]) 0 12 = if k % 3 = 1 then 1024 else 0 := by
  simp only [ResetRule.eval, List.getD_cons_zero]
  split <;> decide

/-- R317: a biquad of an equaliser passes its input: b0 is 1, in units of 2⁻²⁸. -/
theorem reset_equaliser {o b q c : Nat} (ho : o < 48) (hb : b < 2) (hq : q < 8) (hc : c < 5) :
    State.reset.get (Reg.AUD_EQ_COEF o b q c) = if c = 0 then 2 ^ 28 else 0 := by
  have hix : rowIndex [(48, 512), (2, 256), (8, 20), (5, 4)] (512 * o + 256 * b + 20 * q + 4 * c) = some [o, b, q, c] := by
    have h1 : (512 * o + 256 * b + 20 * q + 4 * c) / 512 = o := by omega
    have h2 : (512 * o + 256 * b + 20 * q + 4 * c) % 512 = 256 * b + 20 * q + 4 * c := by omega
    have h3 : (256 * b + 20 * q + 4 * c) / 256 = b := by omega
    have h4 : (256 * b + 20 * q + 4 * c) % 256 = 20 * q + 4 * c := by omega
    have h5 : (20 * q + 4 * c) / 20 = q := by omega
    have h6 : (20 * q + 4 * c) % 20 = 4 * c := by omega
    rw [rowIndex, h1, if_pos ho, h2, rowIndex, h3, if_pos hb, h4, rowIndex, h5, if_pos hq, h6, rowIndex_words hc]
    rfl
  have h : findRow (unitRows 19) (0x8000 + 512 * o + 256 * b + 20 * q + 4 * c) = some (
      { name := "EQ", off := 0x8000, dims := [(48, 512), (2, 256), (8, 20), (5, 4)], rw := 0xffffffff#32, special := .eq },
      [o, b, q, c]) := by
    change findRow rowsAUD _ = _
    unfold rowsAUD
    rw [findRow_before (by simp only; omega)]
    iterate 6 rw [findRow_skip (rowIndex_single (by simp only; omega))]
    rw [findRow_skip (rowIndex_past (by simp only; omega))]
    iterate 3 rw [findRow_skip (by simp only [rowIndex]; rw [if_neg (by omega)])]
    have hd : 0x8000 + 512 * o + 256 * b + 20 * q + 4 * c - 0x8000 = 512 * o + 256 * b + 20 * q + 4 * c := by omega
    exact findRow_here ((congrArg (rowIndex _) hd).trans hix) (by simp only; omega)
  unfold State.get
  rw [reset_reg, regReset_reg (by decide) (by decide) (by omega) h]
  simp only [ResetRule.eval, List.getD_cons_zero, List.getD_cons_succ]
  split <;> decide

/-- The fields that reset gives by the place of a small unit among its like. -/
theorem reset_smallUnits : (∀ n : Fin 8, State.reset.get (Reg.SCREEN_FRAME_FRAME n) = 0xFFFFFFFF) ∧
    ∀ m : Fin 5, State.reset.coreRuns m = decide (m.val = 0) ∧ State.reset.bit (Reg.MC_CTRL_RUN m) = decide (m.val = 0) := by
  decide +kernel

/-- Settles O3: the register tables give the registers, and the state's own fields are their defaults. -/
theorem resetStateHoldsTheStatedValues : Obligations.ResetStateHoldsTheStatedValues := by
  intro n layer k h j o b q c m scl s
  have hAH := coefH_halves (0x1000 + 4 * h) scl h
  have hBH := coefH_halves (0x2000 + 4 * h) scl h
  have hAV := coefV_halves (0x1400 + 4 * j) scl j
  have hBV := coefV_halves (0x2400 + 4 * j) scl j
  rw [← reset_coefAH scl.isLt h.isLt] at hAH
  rw [← reset_coefBH scl.isLt h.isLt] at hBH
  rw [← reset_coefAV scl.isLt j.isLt] at hAV
  rw [← reset_coefBV scl.isLt j.isLt] at hBV
  obtain ⟨hframe, hcores⟩ := reset_smallUnits
  exact ⟨rfl, rfl, rfl, by decide +kernel, rfl, by decide +kernel, by decide +kernel, hframe n, rfl, rfl, rfl, rfl, hAH.1, hAH.2, hBH.1, hBH.2,
    hAV.1, hAV.2, hBV.1, hBV.2, reset_equaliser o.isLt b.isLt q.isLt c.isLt, (hcores m).1, by decide +kernel, rfl, (hcores m).2,
    rfl, rfl, by decide +kernel, by decide +kernel⟩

end Sys2Proof.Machine
end

section
/-! PROOF. Blocks of the audio unit (O44). The clause of a bell voice whose start waits says the samples of the tone it begins. Where
the audio reaction of a fault holds (`audQuiet`) the boundary that begins the tone stops every voice as well, and the clause does not
leave that state out. -/

namespace Sys2Proof.Machine

/-- A running audio unit with a start of voice 0 waiting, at 1 kHz and level 0 dB, while the audio reaction of a fault class holds. -/
def quietBell : State :=
  { ((State.reset.set Reg.AUD_STATUS_RUNNING 1).set (Reg.BELL_FREQ_F1 0) 1000).set (Reg.BELL_LEVEL_CODE 0) 0 with
    audQuiet := true, aud := { voices := [(0, { startDue := true })] } }

theorem quietBell_starts :
    quietBell.bit Reg.AUD_STATUS_RUNNING = true ∧ quietBell.aud.stopDue = false ∧ (quietBell.voice 0).startDue = true ∧
      (quietBell.voice 0).stopDue = false ∧ quietBell.gated = [] ∧ quietBell.aud.downDue = false := by decide +kernel

/-- The voice gives silence after the boundary that would begin its tone. -/
theorem quietBell_silent :
    (((quietBell.audBoundary.audSend false).takeInputs []).1.getD 56 []).getD 10 0 = 0 := by decide +kernel

/-- The tone of `quietBell`, as the clause states it, is not silence at sample 10. -/
theorem quietBell_tone_loud :
    clamp24 (asr (bellTable (10 * bellStep (quietBell.get (Reg.BELL_FREQ_F1 0)) % 2 ^ 32 / 2 ^ 22) *
      (gainLinear (gainCode (quietBell.get (Reg.BELL_LEVEL_CODE 0))) : Int) + 2 ^ 23) 24) ≠ 0 := by decide +kernel

/-- Refutes O44: in `quietBell` every premise of the bell's clause holds, and sample 10 of the voice is 0 where the clause asks for the
tone. -/
theorem not_audioBlocksAndFrames : ¬ Obligations.AudioBlocksAndFrames := by
  unfold Obligations.AudioBlocksAndFrames
  intro h
  obtain ⟨-, -, hruns, -⟩ := h quietBell 0 0 0 0 0 0 .secure 0 [] false []
  obtain ⟨hrun, hstop, hstart, hkept, hclock, hdown⟩ := quietBell_starts
  obtain ⟨-, hbell, -⟩ := hruns hrun hstop
  obtain ⟨-, htone⟩ := hbell hstart hkept hclock hdown
  exact quietBell_tone_loud ((htone 10 (by omega)).symm.trans quietBell_silent)

end Sys2Proof.Machine
end

section
/-! SUPPORT. Plain register writes, bit by bit: what the access types of a row let a written value do (R7, R480). -/

namespace Sys2Proof.Machine

theorem bitOf_toNat (v : Word) (i : Nat) : bitOf v.toNat i = v.getLsbD i := by
  rw [bitOf, ← BitVec.testBit_toNat, Nat.testBit_eq_decide_div_mod_eq]
  rfl

theorem bitOf_eq_getBits (v : Word) (i : Nat) : bitOf v.toNat i = decide (getBits v i 1 = 1) := by
  rw [bitOf, getBits, Nat.shiftRight_eq_div_pow]
  rfl

theorem getLsbD_withBit (v : Word) (i : Nat) {j : Nat} (hj : j < 32) : (withBit v i).getLsbD j = (v.getLsbD j || decide (i = j)) := by
  rw [withBit, BitVec.getLsbD_or, BitVec.getLsbD_ofNat, Nat.testBit_two_pow, decide_eq_true hj, Bool.true_and]

theorem getLsbD_withoutBit (v : Word) (i : Nat) {j : Nat} (hj : j < 32) :
    (withoutBit v i).getLsbD j = (v.getLsbD j && !decide (i = j)) := by
  rw [withoutBit, BitVec.getLsbD_and, BitVec.getLsbD_not, BitVec.getLsbD_ofNat, Nat.testBit_two_pow, decide_eq_true hj, Bool.true_and,
    Bool.true_and]

/-- Two words with the same bits in a field. -/
theorem getBits_congr {v w : Word} {lo n : Nat} (h : ∀ j < n, v.getLsbD (lo + j) = w.getLsbD (lo + j)) : getBits v lo n = getBits w lo n := by
  refine Nat.eq_of_testBit_eq fun j => ?_
  rw [testBit_getBits, testBit_getBits]
  by_cases hj : j < n
  · rw [h j hj]
  · simp [hj]

theorem getBits_withBit (v : Word) {i lo n : Nat} (hn : lo + n ≤ 32) (hi : i < lo ∨ lo + n ≤ i) :
    getBits (withBit v i) lo n = getBits v lo n :=
  getBits_congr fun j hj => by
    rw [getLsbD_withBit v i (by omega), decide_eq_false (by omega), Bool.or_false]

theorem getBits_withoutBit (v : Word) {i lo n : Nat} (hn : lo + n ≤ 32) (hi : i < lo ∨ lo + n ≤ i) :
    getBits (withoutBit v i) lo n = getBits v lo n :=
  getBits_congr fun j hj => by
    rw [getLsbD_withoutBit v i (by omega), decide_eq_false (by omega), Bool.not_false, Bool.and_true]

theorem getBits_or (v w : Word) (lo n : Nat) : getBits (v ||| w) lo n = getBits v lo n ||| getBits w lo n := by
  refine Nat.eq_of_testBit_eq fun j => ?_
  rw [Nat.testBit_or, testBit_getBits, testBit_getBits, testBit_getBits, BitVec.getLsbD_or]
  cases decide (j < n) <;> rfl

theorem getBits_one (v : Word) (i : Nat) : getBits v i 1 = (v.getLsbD i).toNat := by
  refine Nat.eq_of_testBit_eq fun j => ?_
  rw [testBit_getBits]
  cases j with
  | zero => cases v.getLsbD i <;> simp
  | succ j => cases v.getLsbD i <;> simp [Nat.testBit_succ]

@[simp] theorem getBits_withBit_self (v : Word) {i : Nat} (hi : i < 32) : getBits (withBit v i) i 1 = 1 := by
  rw [getBits_one, getLsbD_withBit v i hi]
  simp

@[simp] theorem getBits_withoutBit_self (v : Word) {i : Nat} (hi : i < 32) : getBits (withoutBit v i) i 1 = 0 := by
  rw [getBits_one, getLsbD_withoutBit v i hi]
  simp

/-- The access types of an address: the bits a write sets (RW and RWS), those under a lock (RWL), W1C and W1S. -/
def rowAccess (a : Nat) : Option (Word × Word × Word × Word) :=
  (rowAt a).map fun p => (p.1.rw ||| p.1.rws, p.1.rwl, p.1.w1c, p.1.w1s)

section
variable {s : State} {a : Nat} {m e v : Word}

theorem plainWrite_of_access (h : rowAccess a = some (m, 0, 0, e)) :
    s.plainWrite a v = s.setReg a (((s.reg a &&& ~~~m) ||| (v &&& m)) ||| (e &&& v)) := by
  obtain ⟨⟨r, ix⟩, hrow, hr⟩ := Option.map_eq_some_iff.1 h
  obtain ⟨hm, hl, hc, he⟩ : r.rw ||| r.rws = m ∧ r.rwl = 0 ∧ r.w1c = 0 ∧ r.w1s = e := by simpa using hr
  have h0 : ∀ x : Word, x &&& ~~~(0 &&& v) = x := fun x => by rw [show (0 : Word) = 0#32 from rfl, BitVec.zero_and, BitVec.not_zero, BitVec.and_allOnes]
  rw [State.plainWrite, hrow]
  simp only [rowWrite, hm, hl, hc, he, ite_self, h0]
  simp

theorem onlyChanges_of_access {l : Word} (h : rowAccess a = some (m, 0, l, e)) (mask : Word) :
    s.onlyChanges a mask v = true ↔ ∀ i < 32, m.getLsbD i = true → mask.getLsbD i = false → v.getLsbD i = (s.reg a).getLsbD i := by
  obtain ⟨⟨r, ix⟩, hrow, hr⟩ := Option.map_eq_some_iff.1 h
  obtain ⟨hm, hl, -⟩ : r.rw ||| r.rws = m ∧ r.rwl = 0 ∧ r.w1c = l ∧ r.w1s = e := by simpa using hr
  have hm' : r.rw ||| r.rwl ||| r.rws = m := by rw [hl]; simpa using hm
  rw [State.onlyChanges, hrow]
  simp only [hm', beq_iff_eq]
  constructor
  · intro h0 i hi hmi hki
    have hb := congrArg (·.getLsbD i) h0
    simp only [BitVec.getLsbD_and, BitVec.getLsbD_xor, BitVec.getLsbD_not, hmi, hki, hi] at hb
    revert hb
    cases v.getLsbD i <;> cases (s.reg a).getLsbD i <;> simp
  · intro hbits
    refine BitVec.eq_of_getLsbD_eq fun i hi => ?_
    have hb := hbits i hi
    simp only [BitVec.getLsbD_and, BitVec.getLsbD_xor, BitVec.getLsbD_not]
    cases hmi : m.getLsbD i <;> cases hki : mask.getLsbD i <;> simp_all

/-- One register takes a word whose bits are those of the listed fields, and its other bits stay. -/
theorem setsOnly_word {fs : List (Fld × Nat)} (hfs : ∀ p ∈ fs, p.1.addr = a)
    (hv : ∀ i < 32, v.getLsbD i = bitAfter fs a i ((s.reg a).getLsbD i)) : s.SetsOnly fs (s.setReg a v) := by
  refine ⟨fun b i hi => ?_, rfl⟩
  rw [State.reg_setReg]
  split
  · next hb => subst hb; exact hv i hi
  · next hb => rw [bitAfter_apart fun p hp => by rw [hfs p hp]; exact Ne.symm hb]

/-- A listed field of this register that takes its bits from a word. -/
theorem bitAfter_cons_getBits (lo n : Nat) (x : Word) (l : List (Fld × Nat)) (i : Nat) (b : Bool) :
    bitAfter ((⟨a, lo, n⟩, getBits x lo n) :: l) a i b = if lo ≤ i ∧ i < lo + n then x.getLsbD i else bitAfter l a i b := by
  rw [bitAfter_cons]
  by_cases h : lo ≤ i ∧ i < lo + n
  · have hd : i - lo < n := by omega
    rw [if_pos h, if_pos (by simp [Fld.covers, h]), testBit_getBits, decide_eq_true hd, Bool.true_and, Nat.add_sub_cancel' h.1]
  · rw [if_neg h, if_neg (by simp only [Fld.covers, h]; simp)]

/-- A write to a register whose only writable bits are those of the listed fields. -/
theorem setsOnly_plainWrite {fs : List (Fld × Nat)} (h : rowAccess a = some (m, 0, 0, 0)) (hfs : ∀ p ∈ fs, p.1.addr = a)
    (hbit : ∀ i < 32, ∀ b, bitAfter fs a i b = if m.getLsbD i = true then v.getLsbD i else b) :
    s.SetsOnly fs (s.plainWrite a v) := by
  rw [plainWrite_of_access h]
  refine setsOnly_word hfs fun i hi => ?_
  rw [hbit i hi, show (0 : Word) = 0#32 from rfl, BitVec.zero_and, BitVec.or_zero]
  simp only [BitVec.getLsbD_or, BitVec.getLsbD_and, BitVec.getLsbD_not, hi]
  cases m.getLsbD i <;> simp

end

end Sys2Proof.Machine
end

section
/-! PROOF. O43: control of the audio unit, its TDM ports and its direct routes, and the bell voices. -/

namespace Sys2Proof.Machine

theorem access_tdmCtrl (n : Fin 2) : rowAccess (Reg.TDM_CTRL n) = some (0x1F, 0, 0, 0) := by revert n; decide +kernel

theorem access_direct (r : Fin 8) : rowAccess (Reg.AUD_DIRECT r) = some (0x80001F1F, 0, 0, 0) := by revert r; decide +kernel

theorem access_bellCtrl (v : Fin 4) : rowAccess (Reg.BELL_CTRL v) = some (0xFF04, 0, 0, 3) := by revert v; decide +kernel

section
variable {l : List (Fld × Nat)} {u t : State}

theorem setsOnly_audEvent (h : u.SetsOnly l t) (hk : u.SourceFree 96) {flag : Fld} (hd : flag.lo + flag.width ≤ 24) :
    u.SetsOnly ((Reg.IC_SRC_PENDING 96, 1) :: (Reg.AUD_STATUS_EVENTS, t.more Reg.AUD_STATUS_EVENTS) :: (flag, 1) :: l) (t.audEvent flag) :=
  setsOnly_event h (by decide) hk (by decide) (.inr hd)

theorem setsOnly_tdmEvent (n : Fin 2) (h : u.SetsOnly l t) (hk : u.SourceFree (97 + n)) {flag : Fld} (hd : flag.lo + flag.width ≤ 24) :
    u.SetsOnly ((Reg.IC_SRC_PENDING (97 + n), 1) :: (Reg.TDM_STATUS_EVENTS n, t.more (Reg.TDM_STATUS_EVENTS n)) :: (flag, 1) :: l)
      (t.tdmEvent n flag) := by
  have hu : ∀ m : Fin 2, sourceUsed (97 + m) = true := by decide
  exact setsOnly_event h (hu n) hk (by simp) (.inr hd)

theorem setsOnly_audRefuse (s : State) (hk : s.SourceFree 96) (code : Nat) :
    s.SetsOnly [(Reg.IC_SRC_PENDING 96, 1), (Reg.AUD_STATUS_EVENTS, s.more Reg.AUD_STATUS_EVENTS), (Reg.AUD_STATUS_CFG_ERR, 1),
      (Reg.AUD_STATUS_ERR_CODE, code)] (s.audRefuse code) := by
  have h := setsOnly_audEvent (setsOnly_set (setsOnly_refl s) Reg.AUD_STATUS_ERR_CODE code) hk (flag := Reg.AUD_STATUS_CFG_ERR) (by decide)
  rwa [State.more, State.get_set_apart _ _ _ _ (by decide) (by decide)] at h

end

/-! ### The unit and its direct routes -/

section
variable {s : State} {w : World} {v : Word}

theorem audCtrlWrite_enable (hoff : s.bit Reg.AUD_CTRL_EN = false) : s.audCtrlWrite (withBit v 0) =
    if !s.drum.audioRate then s.audRefuse 1
    else if !s.installedRam s.stageAddr 15360 then s.audRefuse 2
    else { s.set Reg.AUD_CTRL_EN 1 with aud := { s.aud with startDue := true } } := by
  have h : bitOf (withBit v 0).toNat 0 = true := by rw [bitOf_toNat, getLsbD_withBit v 0 (by omega)]; simp
  rw [State.audCtrlWrite, hoff, h]
  rfl

theorem audCtrlWrite_disable (hon : s.bit Reg.AUD_CTRL_EN = true) : s.audCtrlWrite (withoutBit v 0) =
    if s.bit (Reg.TDM_CTRL_EN 0) || s.bit (Reg.TDM_CTRL_EN 1) then s.audEvent Reg.AUD_STATUS_WRITE_WHILE_ACTIVE
    else { s.set Reg.AUD_CTRL_EN 0 with
      aud := { s.aud with startDue := false, stopDue := s.bit Reg.AUD_STATUS_RUNNING } } := by
  have h : bitOf (withoutBit v 0).toNat 0 = false := by rw [bitOf_toNat, getLsbD_withoutBit v 0 (by omega)]; simp
  have hrun : (s.set Reg.AUD_CTRL_EN 0).bit Reg.AUD_STATUS_RUNNING = s.bit Reg.AUD_STATUS_RUNNING := by
    rw [State.bit, State.get_set_other _ _ _ _ (by decide), State.bit]
  rw [State.audCtrlWrite, hon, h, ← hrun]
  rfl

/-- EN is written with the value it has. -/
theorem audCtrlWrite_same (h : bitOf v.toNat 0 = s.bit Reg.AUD_CTRL_EN) : s.audCtrlWrite v = s := by
  rw [State.audCtrlWrite, h]
  cases s.bit Reg.AUD_CTRL_EN <;> rfl

theorem setsOnly_direct (s : State) (r : Fin 8) (x : Word) : s.SetsOnly
    [(Reg.AUD_DIRECT_EN r, getBits x 31 1), (Reg.AUD_DIRECT_OUT r, getBits x 8 5), (Reg.AUD_DIRECT_IN r, getBits x 0 5)]
    (s.plainWrite (Reg.AUD_DIRECT r) x) := by
  refine setsOnly_plainWrite (access_direct r) (by simp) fun i hi b => ?_
  have hm : ∀ i < 32, (0x80001F1F : Word).getLsbD i = true ↔ (31 ≤ i ∧ i < 31 + 1) ∨ (8 ≤ i ∧ i < 8 + 5) ∨ (0 ≤ i ∧ i < 0 + 5) := by
    decide
  simp only [bitAfter_cons_getBits, bitAfter_nil, hm i hi]
  grind

theorem exec_audioUnit (ha : s.Admits w 0x13 0 false) :
    exec (.audioEnable w v) s = .next (s.audCtrlWrite (withBit v 0)) ∧
      exec (.audioDisable w v) s = .next (s.audCtrlWrite (withoutBit v 0)) :=
  ⟨congrArg _ (asWriter_admits ha _), congrArg _ (asWriter_admits ha _)⟩

theorem bitOf_withBit_self (v : Word) {i : Nat} (hi : i < 32) : bitOf (withBit v i).toNat i = true := by
  rw [bitOf_toNat, getLsbD_withBit v i hi]; simp

theorem bitOf_withoutBit_self (v : Word) {i : Nat} (hi : i < 32) : bitOf (withoutBit v i).toNat i = false := by
  rw [bitOf_toNat, getLsbD_withoutBit v i hi]; simp

/-- R305: an enable of a unit that is disabled: the divider and the staging area are checked. -/
theorem audioEnable_disabled (ha : s.Admits w 0x13 0 false) (hk : s.SourceFree 96) (hoff : s.bit Reg.AUD_CTRL_EN = false) :
    let refused := fun (code : Nat) => [(Reg.IC_SRC_PENDING 96, 1), (Reg.AUD_STATUS_EVENTS, s.more Reg.AUD_STATUS_EVENTS),
      (Reg.AUD_STATUS_CFG_ERR, 1), (Reg.AUD_STATUS_ERR_CODE, code)]
    (s.drum.audioRate = false → Does (.audioEnable w v) s s (refused 1)) ∧
    (s.drum.audioRate = true → s.installedRam s.stageAddr 15360 = false → Does (.audioEnable w v) s s (refused 2)) ∧
    (s.drum.audioRate = true → s.installedRam s.stageAddr 15360 = true →
      Does (.audioEnable w v) s { s with aud := { s.aud with startDue := true } } [(Reg.AUD_CTRL_EN, 1)]) ∧
    Does (.audioDisable w v) s s [] := by
  obtain ⟨he, hd⟩ := exec_audioUnit (v := v) ha
  rw [audCtrlWrite_enable hoff] at he
  rw [audCtrlWrite_same (by rw [hoff, bitOf_withoutBit_self v (by omega)])] at hd
  refine ⟨fun hr => ?_, fun hr hi => ?_, fun hr hi => ?_, ⟨s, hd, setsOnly_refl s⟩⟩
  · rw [hr] at he
    exact ⟨_, he, setsOnly_audRefuse s hk 1⟩
  · rw [hr, hi] at he
    exact ⟨_, he, setsOnly_audRefuse s hk 2⟩
  · rw [hr, hi] at he
    exact ⟨_, he, setsOnly_set (setsOnly_refl _) _ _⟩

/-- R11, R312: a disable of a unit that is enabled. -/
theorem audioDisable_enabled (ha : s.Admits w 0x13 0 false) (hk : s.SourceFree 96) (hon : s.bit Reg.AUD_CTRL_EN = true) :
    let ports := s.bit (Reg.TDM_CTRL_EN 0) || s.bit (Reg.TDM_CTRL_EN 1)
    Does (.audioEnable w v) s s [] ∧
    (ports = true → Does (.audioDisable w v) s s
      [(Reg.IC_SRC_PENDING 96, 1), (Reg.AUD_STATUS_EVENTS, s.more Reg.AUD_STATUS_EVENTS), (Reg.AUD_STATUS_WRITE_WHILE_ACTIVE, 1)]) ∧
    (ports = false → Does (.audioDisable w v) s
      { s with aud := { s.aud with startDue := false, stopDue := s.bit Reg.AUD_STATUS_RUNNING } } [(Reg.AUD_CTRL_EN, 0)]) := by
  obtain ⟨he, hd⟩ := exec_audioUnit (v := v) ha
  rw [audCtrlWrite_same (by rw [hon, bitOf_withBit_self v (by omega)])] at he
  rw [audCtrlWrite_disable hon] at hd
  refine ⟨⟨s, he, setsOnly_refl s⟩, fun hp => ?_, fun hp => ?_⟩
  · rw [if_pos hp] at hd
    exact ⟨_, hd, setsOnly_audEvent (setsOnly_refl s) hk (by decide)⟩
  · rw [if_neg (by simp [hp])] at hd
    exact ⟨_, hd, setsOnly_set (setsOnly_refl _) _ _⟩

/-- R321: a direct route is refused, or its register is written. -/
theorem directRoute_taken (r : Fin 8) (ha : s.Admits w 0x13 0 false) (hk : s.SourceFree 96) :
    let o := getBits v 8 5
    let busy := s.outProtected o || (List.range 8).any fun q => q != r.val && s.bit (Reg.AUD_DIRECT_EN q) && s.get (Reg.AUD_DIRECT_OUT q) == o
    (busy = true → Does (.directRouteEnable r w v) s s [(Reg.IC_SRC_PENDING 96, 1), (Reg.AUD_STATUS_EVENTS, s.more Reg.AUD_STATUS_EVENTS),
      (Reg.AUD_STATUS_CFG_ERR, 1), (Reg.AUD_STATUS_ERR_CODE, 4)]) ∧
    (busy = false → Does (.directRouteEnable r w v) s s
      [(Reg.AUD_DIRECT_EN r, 1), (Reg.AUD_DIRECT_OUT r, o), (Reg.AUD_DIRECT_IN r, getBits v 0 5)]) := by
  have he : exec (.directRouteEnable r w v) s = .next (s.directWrite r (withBit v 31)) := congrArg _ (asWriter_admits ha _)
  rw [State.directWrite, bitOf_withBit_self v (by omega), getBits_withBit v (by omega) (by omega), Bool.true_and] at he
  refine ⟨fun hb => ?_, fun hb => ?_⟩
  · rw [if_pos hb] at he
    exact ⟨_, he, setsOnly_audRefuse s hk 4⟩
  · rw [if_neg (by rw [hb]; exact Bool.false_ne_true)] at he
    have h := setsOnly_direct s r (withBit v 31)
    rw [getBits_withBit_self v (by omega), getBits_withBit v (by omega) (by omega), getBits_withBit v (by omega) (by omega)] at h
    exact ⟨_, he, h⟩

end

/-! ### TDM ports -/

section
variable {s : State} {w : World} {v : Word}

/-- What a plain write of TDM_n_CTRL leaves. -/
def tdmCtrlFields (n : Fin 2) (v : Word) (en : Nat) : List (Fld × Nat) :=
  [(Reg.TDM_CTRL_BCLK_EDGE n, getBits v 4 1), (Reg.TDM_CTRL_DELAY n, getBits v 3 1), (Reg.TDM_CTRL_FSYNC_POL n, getBits v 2 1),
    (Reg.TDM_CTRL_FSYNC_WIDE n, getBits v 1 1), (Reg.TDM_CTRL_EN n, en)]

theorem setsOnly_tdmCtrl (s : State) (n : Fin 2) (x : Word) :
    s.SetsOnly (tdmCtrlFields n x (getBits x 0 1)) (s.plainWrite (Reg.TDM_CTRL n) x) := by
  refine setsOnly_plainWrite (access_tdmCtrl n) (by simp [tdmCtrlFields]) fun i hi b => ?_
  have hm : ∀ i < 32, (0x1F : Word).getLsbD i = true ↔ i < 5 := by decide
  simp only [tdmCtrlFields, bitAfter_cons_getBits, bitAfter_nil, hm i hi]
  grind

theorem tdmCtrlFields_withBit (n : Fin 2) (v : Word) (en : Nat) : tdmCtrlFields n (withBit v 0) en = tdmCtrlFields n v en := by
  have h : ∀ lo, 1 ≤ lo → lo < 32 → getBits (withBit v 0) lo 1 = getBits v lo 1 := fun lo h1 h32 =>
    getBits_withBit v (by omega) (by omega)
  simp [tdmCtrlFields, h]

theorem tdmCtrlFields_withoutBit (n : Fin 2) (v : Word) (en : Nat) : tdmCtrlFields n (withoutBit v 0) en = tdmCtrlFields n v en := by
  have h : ∀ lo, 1 ≤ lo → lo < 32 → getBits (withoutBit v 0) lo 1 = getBits v lo 1 := fun lo h1 h32 =>
    getBits_withoutBit v (by omega) (by omega)
  simp [tdmCtrlFields, h]

/-- R480: the bits of TDM_n_CTRL that a write of EN leaves. -/
theorem tdm_onlyChanges (s : State) (n : Fin 2) (x : Word) :
    s.onlyChanges (Reg.TDM_CTRL n) 1 x = decide (getBits x 1 4 = getBits (s.reg (Reg.TDM_CTRL n)) 1 4) := by
  rw [Bool.eq_iff_iff, onlyChanges_of_access (access_tdmCtrl n), decide_eq_true_iff]
  constructor
  · intro h
    exact getBits_congr fun j hj => h (1 + j) (by omega) (by revert j; decide) (by revert j; decide)
  · intro h i hi hm hk
    have hlt : ∀ i < 32, (0x1F : Word).getLsbD i = true → (1 : Word).getLsbD i = false → 1 ≤ i ∧ i < 5 := by decide
    obtain ⟨h1, h5⟩ := hlt i hi hm hk
    have hb := congrArg (Nat.testBit · (i - 1)) h
    have hd : i - 1 < 4 := by omega
    simpa only [testBit_getBits, Nat.add_sub_cancel' h1, decide_eq_true hd, Bool.true_and] using hb

theorem exec_tdm (n : Fin 2) (ha : s.Admits w 0x14 n (s.tdmSecure n)) :
    exec (.tdmEnable n w v) s = .next (s.tdmCtrlWrite n (withBit v 0)) ∧
      exec (.tdmDisable n w v) s = .next (s.tdmCtrlWrite n (withoutBit v 0)) :=
  ⟨congrArg _ (asWriter_admits ha _), congrArg _ (asWriter_admits ha _)⟩

/-- R312: a port that is disabled. -/
theorem tdm_disabled (n : Fin 2) (ha : s.Admits w 0x14 n (s.tdmSecure n)) (hk : s.SourceFree (97 + n))
    (hoff : s.bit (Reg.TDM_CTRL_EN n) = false) :
    (s.bit Reg.AUD_STATUS_RUNNING = true → s.aud.stopDue = false → Does (.tdmEnable n w v) s s (tdmCtrlFields n v 1)) ∧
    (s.bit Reg.AUD_STATUS_RUNNING = false ∨ s.aud.stopDue = true → Does (.tdmEnable n w v) s s
      [(Reg.IC_SRC_PENDING (97 + n), 1), (Reg.TDM_STATUS_EVENTS n, s.more (Reg.TDM_STATUS_EVENTS n)), (Reg.TDM_STATUS_CFG_ERR n, 1),
       (Reg.TDM_STATUS_ERR_CODE n, 3)]) ∧
    Does (.tdmDisable n w v) s s (tdmCtrlFields n v 0) := by
  obtain ⟨he, hd⟩ := exec_tdm (v := v) n ha
  rw [State.tdmCtrlWrite, hoff, bitOf_withBit_self v (by omega)] at he
  rw [State.tdmCtrlWrite, hoff, bitOf_withoutBit_self v (by omega)] at hd
  refine ⟨fun hr hs => ?_, fun hr => ?_, ⟨_, hd, ?_⟩⟩
  · rw [hr, hs] at he
    have h := setsOnly_tdmCtrl s n (withBit v 0)
    rw [getBits_withBit_self v (by omega), tdmCtrlFields_withBit] at h
    exact ⟨_, he, h⟩
  · have h := setsOnly_tdmEvent n (setsOnly_set (setsOnly_refl s) (Reg.TDM_STATUS_ERR_CODE n) 3) hk
      (flag := Reg.TDM_STATUS_CFG_ERR n) (by simp)
    rw [State.more, State.get_set_apart _ _ _ _ (by simp) (by simp)] at h
    refine ⟨_, ?_, h⟩
    rcases hr with hr | hr <;> simpa [hr] using he
  · have h := setsOnly_tdmCtrl s n (withoutBit v 0)
    rwa [getBits_withoutBit_self v (by omega), tdmCtrlFields_withoutBit] at h

/-- R480: a port that is enabled takes a write that changes EN alone, and flags any other. -/
theorem tdm_enabled (n : Fin 2) (ha : s.Admits w 0x14 n (s.tdmSecure n)) (hk : s.SourceFree (97 + n))
    (hon : s.bit (Reg.TDM_CTRL_EN n) = true) :
    let same := decide (getBits v 1 4 = getBits (s.reg (Reg.TDM_CTRL n)) 1 4)
    (same = true → Does (.tdmEnable n w v) s s (tdmCtrlFields n v 1) ∧ Does (.tdmDisable n w v) s s (tdmCtrlFields n v 0)) ∧
    (same = false → ∀ c ∈ [Instr.tdmEnable n w v, .tdmDisable n w v], Does c s s
      [(Reg.IC_SRC_PENDING (97 + n), 1), (Reg.TDM_STATUS_EVENTS n, s.more (Reg.TDM_STATUS_EVENTS n)),
       (Reg.TDM_STATUS_WRITE_WHILE_ACTIVE n, 1)]) := by
  intro same
  obtain ⟨he, hd⟩ := exec_tdm (v := v) n ha
  rw [State.tdmCtrlWrite, hon, tdm_onlyChanges, getBits_withBit v (by omega) (by omega)] at he
  rw [State.tdmCtrlWrite, hon, tdm_onlyChanges, getBits_withoutBit v (by omega) (by omega)] at hd
  change exec _ s = .next (if (true && !same) = true then _ else _) at he
  change exec _ s = .next (if (true && !same) = true then _ else _) at hd
  refine ⟨fun hs => ?_, fun hs => ?_⟩
  · rw [hs] at he hd
    have h1 := setsOnly_tdmCtrl s n (withBit v 0)
    have h0 := setsOnly_tdmCtrl s n (withoutBit v 0)
    rw [getBits_withBit_self v (by omega), tdmCtrlFields_withBit] at h1
    rw [getBits_withoutBit_self v (by omega), tdmCtrlFields_withoutBit] at h0
    exact ⟨⟨_, he, h1⟩, ⟨_, hd, h0⟩⟩
  · rw [hs] at he hd
    have h := setsOnly_tdmEvent n (setsOnly_refl s) hk (flag := Reg.TDM_STATUS_WRITE_WHILE_ACTIVE n) (by simp)
    simp only [List.mem_cons, List.not_mem_nil, or_false]
    rintro c (rfl | rfl)
    · exact ⟨_, he, h⟩
    · exact ⟨_, hd, h⟩

end

/-! ### Bell voices -/

section
variable {s : State} {v : Fin 4} {x : Word}

@[simp] theorem State.voice_setVoice_same (s : State) (v : Nat) (y : Voice) : (s.setVoice v y).voice v = y := sget_sput_same _ _ _

@[simp] theorem State.setVoice_setVoice (s : State) (v : Nat) (y z : Voice) : (s.setVoice v y).setVoice v z = s.setVoice v z := by
  simp [State.setVoice, sput_sput]

/-- What a write of a voice's CTRL leaves. -/
def bellCtrlFields (s : State) (v : Fin 4) (x : Word) (stop : Nat) : List (Fld × Nat) :=
  [(Reg.BELL_CTRL_COUNT v, getBits x 8 8), (Reg.BELL_CTRL_ALT v, getBits x 2 1),
    (Reg.BELL_CTRL_STOP v, s.get (Reg.BELL_CTRL_STOP v) ||| stop)]

/-- R479: SOUND keeps its value. -/
theorem setsOnly_bellCtrl (s : State) (v : Fin 4) (x : Word) : s.SetsOnly (bellCtrlFields s v x (getBits x 1 1))
    ((s.plainWrite (Reg.BELL_CTRL v) x).set (Reg.BELL_CTRL_SOUND v) (s.get (Reg.BELL_CTRL_SOUND v))) := by
  rw [plainWrite_of_access (access_bellCtrl v)]
  refine ⟨fun b i hi => ?_, rfl⟩
  by_cases hb : b = Reg.BELL_CTRL v
  case neg =>
    rw [State.reg_set, if_neg hb, State.reg_setReg, if_neg hb, bitAfter_apart (by simp [bellCtrlFields, Ne.symm hb])]
  subst hb
  have hor : s.get (Reg.BELL_CTRL_STOP v) ||| getBits x 1 1 = getBits (s.reg (Reg.BELL_CTRL v) ||| x) 1 1 := (getBits_or _ _ _ _).symm
  have hm : ∀ i < 32, (0xFF04 : Word).getLsbD i = decide (i = 2 ∨ (8 ≤ i ∧ i < 16)) := by decide
  have he : ∀ i < 32, (3 : Word).getLsbD i = decide (i < 2) := by decide
  rw [State.reg_set, if_pos rfl, getLsbD_setBits _ _ _ _ _ hi, State.reg_setReg, if_pos rfl, bellCtrlFields, hor]
  simp only [bitAfter_cons_getBits, bitAfter_nil, BitVec.getLsbD_or, BitVec.getLsbD_and, BitVec.getLsbD_not, hi, hm i hi, he i hi,
    State.get, testBit_getBits]
  grind

/-- The registers of a voice's CTRL are written. -/
def State.bellRegs (s : State) (v : Fin 4) (x : Word) : State :=
  (s.plainWrite (Reg.BELL_CTRL v) x).set (Reg.BELL_CTRL_SOUND v) (s.get (Reg.BELL_CTRL_SOUND v))

theorem voice_bellRegs (s : State) (v : Fin 4) (x : Word) : (s.bellRegs v x).voice v = s.voice v :=
  (setsOnly_bellCtrl s v x).proj (State.voice · v) fun _ _ => rfl

theorem bellCtrlWrite_start (h0 : bitOf x.toNat 0 = true) (h1 : bitOf x.toNat 1 = false) :
    s.bellCtrlWrite v x = (s.bellRegs v x).setVoice v { s.voice v with startDue := true } := by
  rw [State.bellCtrlWrite, h0, h1, ← voice_bellRegs s v x]
  rfl

theorem bellCtrlWrite_stop (h0 : bitOf x.toNat 0 = false) (h1 : bitOf x.toNat 1 = true) :
    s.bellCtrlWrite v x = (s.bellRegs v x).setVoice v { s.voice v with stopDue := true } := by
  rw [State.bellCtrlWrite, h0, h1, ← voice_bellRegs s v x]
  rfl

theorem bellCtrlWrite_both (h0 : bitOf x.toNat 0 = true) (h1 : bitOf x.toNat 1 = true) :
    s.bellCtrlWrite v x = (s.bellRegs v x).setVoice v { s.voice v with startDue := true, stopDue := true } := by
  have h : s.bellCtrlWrite v x = ((s.bellRegs v x).setVoice v { (s.bellRegs v x).voice v with startDue := true }).setVoice v
      { ((s.bellRegs v x).setVoice v { (s.bellRegs v x).voice v with startDue := true }).voice v with stopDue := true } := by
    rw [State.bellCtrlWrite, h0, h1]
    rfl
  rw [h, State.voice_setVoice_same, State.setVoice_setVoice, voice_bellRegs]

/-- A write of a voice's CTRL that leaves voice state `y`. -/
theorem setsOnly_bellSet {y : Voice} {stop : Nat} (h : getBits x 1 1 = stop) :
    (s.setVoice v y).SetsOnly (bellCtrlFields s v x stop) ((s.bellRegs v x).setVoice v y) := by
  subst h
  exact setsOnly_beside (f := (State.setVoice · v y)) (fun _ _ => rfl) (setsOnly_bellCtrl s v x)

theorem bellCtrlFields_withBit {i : Nat} (hi : i < 2) (stop : Nat) :
    bellCtrlFields s v (withBit x i) stop = bellCtrlFields s v x stop := by
  rw [bellCtrlFields, getBits_withBit x (by omega) (by omega), getBits_withBit x (by omega) (by omega), bellCtrlFields]

/-- R324, R479: the secure world starts and stops a voice. -/
theorem bell_written (hg : s.isGated 0x15 0 = false) :
    (getBits x 1 1 = 0 → Does (.bellSound v .secure x) s (s.setVoice v { s.voice v with startDue := true }) (bellCtrlFields s v x 0)) ∧
    (getBits x 0 1 = 0 → Does (.bellStop v .secure x) s (s.setVoice v { s.voice v with stopDue := true }) (bellCtrlFields s v x 1)) ∧
    (getBits x 0 2 = 3 → Does (.bellStop v .secure x) s (s.setVoice v { s.voice v with startDue := true, stopDue := true })
      (bellCtrlFields s v x 1)) := by
  have ha : s.Admits .secure 0x15 0 true := ⟨(nomatch ·), hg⟩
  have hsound : exec (.bellSound v .secure x) s = .next (s.bellCtrlWrite v (withBit x 0)) := congrArg _ (asWriter_admits ha _)
  have hstop : exec (.bellStop v .secure x) s = .next (s.bellCtrlWrite v (withBit x 1)) := congrArg _ (asWriter_admits ha _)
  have h00 := bitOf_withBit_self x (i := 0) (by omega)
  have h11 := bitOf_withBit_self x (i := 1) (by omega)
  have h01 : bitOf (withBit x 0).toNat 1 = bitOf x.toNat 1 := by
    rw [bitOf_eq_getBits, bitOf_eq_getBits, getBits_withBit x (by omega) (by omega)]
  have h10 : bitOf (withBit x 1).toNat 0 = bitOf x.toNat 0 := by
    rw [bitOf_eq_getBits, bitOf_eq_getBits, getBits_withBit x (by omega) (by omega)]
  refine ⟨fun h => ?_, fun h => ?_, fun h => ?_⟩
  · rw [bellCtrlWrite_start h00 (by rw [h01, bitOf_eq_getBits, h]; rfl)] at hsound
    rw [← bellCtrlFields_withBit (i := 0) (by omega)]
    exact ⟨_, hsound, setsOnly_bellSet (by rw [getBits_withBit x (by omega) (by omega), h])⟩
  · rw [bellCtrlWrite_stop (by rw [h10, bitOf_eq_getBits, h]; rfl) h11] at hstop
    rw [← bellCtrlFields_withBit (i := 1) (by omega)]
    exact ⟨_, hstop, setsOnly_bellSet (getBits_withBit_self x (by omega))⟩
  · have h0 : bitOf x.toNat 0 = true := by
      have hb : (getBits x 0 2).testBit 0 = x.getLsbD 0 := by simp only [testBit_getBits]; rfl
      rw [bitOf_toNat, ← hb, h]
      rfl
    rw [bellCtrlWrite_both (by rw [h10, h0]) h11] at hstop
    rw [← bellCtrlFields_withBit (i := 1) (by omega)]
    exact ⟨_, hstop, setsOnly_bellSet (getBits_withBit_self x (by omega))⟩

theorem cadenceEnd_tone (hl : (s.voice v).left = 0) (hp : (s.voice v).phase = .tone) : s.cadenceEnd v =
    if s.get (Reg.BELL_CADENCE_ON_MS v) = 0 then s else s.setVoice v { s.voice v with phase := .tail, final := s.voiceLast v } := by
  rw [State.cadenceEnd]
  simp [hl, hp]

theorem cadenceEnd_rest (hl : (s.voice v).left = 0) (hp : (s.voice v).phase = .rest) : s.cadenceEnd v = s.voiceOn v := by
  rw [State.cadenceEnd]
  simp [hl, hp]

theorem cadenceEnd_other (hl : (s.voice v).left = 0) (hp : (s.voice v).phase = .idle ∨ (s.voice v).phase = .tail) :
    s.cadenceEnd v = s := by
  rw [State.cadenceEnd]
  rcases hp with hp | hp <;> simp [hl, hp]

theorem voiceLast_eq (s : State) (v : Nat) :
    s.voiceLast v = decide (s.get (Reg.BELL_CTRL_COUNT v) ≠ 0 ∧ s.get (Reg.BELL_CTRL_COUNT v) ≤ (s.voice v).reps) := by
  rw [Bool.eq_iff_iff]
  simp [State.voiceLast]

/-- R324: what the end of a period does. -/
theorem bellCadence_ends (s : State) (v : Fin 4) :
    let b := s.voice v
    let on := s.get (Reg.BELL_CADENCE_ON_MS v)
    let count := s.get (Reg.BELL_CTRL_COUNT v)
    (b.left ≠ 0 → Does (.bellCadence v) s s []) ∧
    (b.left = 0 →
      (b.phase = .tone → on ≠ 0 → Does (.bellCadence v) s
        (s.setVoice v { b with phase := .tail, final := decide (count ≠ 0 ∧ count ≤ b.reps) }) []) ∧
      (b.phase = .tone → on = 0 → Does (.bellCadence v) s s []) ∧
      (b.phase = .rest → Does (.bellCadence v) s
        (s.setVoice v { b with phase := .tone, acc := 0, left := on * 48, reps := b.reps + 1 }) []) ∧
      (b.phase = .idle ∨ b.phase = .tail → Does (.bellCadence v) s s [])) := by
  have hd : ∀ t, s.cadenceEnd v = t → Does (.bellCadence v) s t [] := fun t ht =>
    ⟨t, congrArg Host.Outcome.next ht, setsOnly_refl t⟩
  refine ⟨fun hl => hd _ (if_pos hl), fun hl => ⟨fun hp ho => hd _ ?_, fun hp ho => hd _ ?_, fun hp => hd _ (cadenceEnd_rest hl hp),
    fun hp => hd _ (cadenceEnd_other hl hp)⟩⟩
  · rw [cadenceEnd_tone hl hp, if_neg ho, voiceLast_eq]
  · rw [cadenceEnd_tone hl hp, if_pos ho]

end

/-- Settles O43. -/
theorem audioUnitStartsAndBellsRing : Obligations.AudioUnitStartsAndBellsRing := by
  refine ⟨fun s n r w v => ⟨fun ha hk => ⟨audioEnable_disabled ha hk, audioDisable_enabled ha hk, directRoute_taken r ha hk⟩,
    fun ha hk => ⟨tdm_disabled n ha hk, tdm_enabled n ha hk⟩⟩, fun s v x => ?_⟩
  obtain ⟨hleft, hends⟩ := bellCadence_ends s v
  exact ⟨bell_written, hleft, hends⟩

end Sys2Proof.Machine
end

section
/-! PROOF. Video inputs (O57). The clause of a line that is written has its write wait in the channels where a READ of its place would
wait (`startWaits`: the one side that serves a mirrored read has not finished its start). A mirrored write goes to both sides, and
the model has it wait while either has not (`writeHeld`, R213, R216). -/

namespace Sys2Proof.Machine

/-- Video input 0 receives YUYV lines of two pixels into the mirrored view; side 0 is ACTIVE and side 1 has not begun its start. -/
def halfStarted : State :=
  ((((((State.reset.set (Reg.MSIDE_STATUS_STATE 0) 3).set (Reg.MSIDE_MIRROR_SIZE_VALID 0 0) 1).set
    (Reg.MSIDE_MIRROR_SIZE_GRANULES 0 0) 1).set (Reg.VIN_CTRL_EN 0) 1).set (Reg.VIN_BUF_ADDR 0 0) 0x8000000).set
      (Reg.VIN_SIZE_W 0) 2).set (Reg.VIN_SIZE_H 0) 1 |>.setVin 0 { buf := some 0 }

/-- The line that arrives. -/
def halfStartedLine : List Byte := [1, 2, 3, 4]

/-- Its bytes in memory. -/
def halfStartedBytes : List Byte :=
  (vinBytes (halfStarted.bit (Reg.VIN_CTRL_DT 0)) halfStartedLine).take
    ((if halfStarted.bit (Reg.VIN_CTRL_DT 0) then 4 else 2) * halfStarted.get (Reg.VIN_SIZE_W 0))

/-- Where it goes. -/
def halfStartedAt : Nat :=
  256 * halfStarted.get (Reg.VIN_BUF_ADDR 0 ((halfStarted.vin 0).buf.getD 0)) +
    (halfStarted.vin 0).lines * (halfStarted.get (Reg.VIN_STRIDE_STRIDE 0) * 64)

theorem halfStarted_receives :
    halfStarted.bit (Reg.VIN_CTRL_EN 0) = true ∧
    (halfStarted.get (Reg.VIN_CTRL_VC 0) == (0 : BitVec 2).toNat &&
      (0x1E : BitVec 6).toNat == (if halfStarted.bit (Reg.VIN_CTRL_DT 0) then 0x24 else 0x1E)) = true ∧
    (halfStarted.vin 0).buf.isSome = true ∧ (halfStarted.vin 0).lines < halfStarted.get (Reg.VIN_SIZE_H 0) ∧ halfStartedBytes ≠ [] ∧
    (halfStarted.writeMem .normal halfStartedAt halfStartedBytes).1 = .ok := by decide +kernel

/-- A read of the place would not wait, and so the clause has no request enter a channel. -/
theorem halfStarted_read_ready : halfStarted.startWaits halfStartedAt halfStartedBytes.length = false ∧
    (halfStarted.writeMem .normal halfStartedAt halfStartedBytes).2.nextReq = 0 := by decide +kernel

/-- The write waits for side 1: one request enters the channels. -/
theorem halfStarted_write_held :
    (halfStarted.vinLine 0 (0 : BitVec 2).toNat (0x1E : BitVec 6).toNat .clean halfStartedLine true none).nextReq = 1 := by decide +kernel

/-- Refutes O57: a line written to the mirrored view of `halfStarted` enters the channels of the sides, which the clause says only where
a read of its place would wait. -/
theorem not_videoInputReceivesFrames : ¬ Obligations.VideoInputReceivesFrames := by
  unfold Obligations.VideoInputReceivesFrames
  intro h
  obtain ⟨-, -, -, -, hruns, -⟩ := h halfStarted 0 .secure 0 0 0x1E halfStartedLine true none 0
  obtain ⟨hen, hours, hbuf, hlines, hbytes, hok⟩ := halfStarted_receives
  obtain ⟨-, -, hheader⟩ := hruns hen
  obtain ⟨-, -, -, hline, -⟩ := hheader .clean (by decide)
  obtain ⟨t, hexec, hsets⟩ := hline hours hbuf hlines hbytes hok
  obtain ⟨hready, hnone⟩ := halfStarted_read_ready
  have ht : t.nextReq = 1 := by
    rw [← Host.Outcome.next.inj hexec]
    exact halfStarted_write_held
  have hu := hsets.proj State.nextReq fun _ _ => rfl
  rw [ht] at hu
  change 1 = (if halfStarted.startWaits halfStartedAt halfStartedBytes.length = true then
    (halfStarted.writeMem .normal halfStartedAt halfStartedBytes).2.queueWrite _ _ _ else
    (halfStarted.writeMem .normal halfStartedAt halfStartedBytes).2).nextReq at hu
  rw [hready, if_neg Bool.false_ne_true, hnone] at hu
  exact absurd hu (by decide)

end Sys2Proof.Machine
end

section
/-! SUPPORT. What an event leaves unchanged: interrupts, logbook records and breaches touch the registers of a few instances, the
pending interrupts and the logbook's queue, and nothing else. -/

namespace Sys2Proof.Machine

/-- State `t` differs from `s` at most in registers of the listed blocks (256 × the unit, plus the place among its
like), in the interrupts that wait behind a service, and in the logbook. -/
structure State.Notes (bs : List Nat) (s t : State) : Prop where
  reg : ∀ a, a / 0x10000 ∉ bs → t.reg a = s.reg a
  rest : { t with regs := s.regs, ic := s.ic, log := s.log } = s

namespace State.Notes

variable {bs cs : List Nat} {s t u : State}

theorem refl (bs : List Nat) (s : State) : s.Notes bs s := ⟨fun _ _ => rfl, rfl⟩

theorem trans (h : s.Notes bs t) (h' : t.Notes bs u) : s.Notes bs u := by
  refine ⟨fun a ha => (h'.reg a ha).trans (h.reg a ha), ?_⟩
  have e : u = { t with regs := u.regs, ic := u.ic, log := u.log } := by
    conv_rhs => rw [← h'.rest]
  rw [e]
  exact h.rest

theorem mono (h : s.Notes bs t) (hb : bs ⊆ cs) : s.Notes cs t := ⟨fun a ha => h.reg a fun hm => ha (hb hm), h.rest⟩

theorem set (h : s.Notes bs t) (f : Fld) (v : Nat) (hf : f.addr / 0x10000 ∈ bs) : s.Notes bs (t.set f v) :=
  ⟨fun a ha => by
    rw [State.reg_set, if_neg (fun e : a = f.addr => ha (e ▸ hf)), h.reg a ha], h.rest⟩

theorem count (h : s.Notes bs t) (f : Fld) (hf : f.addr / 0x10000 ∈ bs) : s.Notes bs (t.count f) := h.set f _ hf

/-- What depends neither on the registers, nor on the interrupts, nor on the logbook is as it was. -/
theorem proj {β : Type} (h : s.Notes bs t) (p : State → β)
    (hp : ∀ (x : State) r i l, p { x with regs := r, ic := i, log := l } = p x) : p t = p s :=
  (hp t s.regs s.ic s.log).symm.trans (congrArg p h.rest)

theorem get (h : s.Notes bs t) {f : Fld} (hf : f.addr / 0x10000 ∉ bs) : t.get f = s.get f := by
  rw [State.get, State.get, h.reg _ hf]

theorem bit (h : s.Notes bs t) {f : Fld} (hf : f.addr / 0x10000 ∉ bs) : t.bit f = s.bit f := by
  rw [State.bit, State.bit, h.get hf]

end State.Notes

theorem block_icSrc {k : Nat} (hk : k ≤ 479) : Reg.IC_SRC k / 0x10000 = 0x1700 := by unfold Reg.IC_SRC reg; omega

theorem block_breach {r : Nat} (hr : r ≤ 10) : Reg.SYS_BREACH r / 0x10000 = 0 := by unfold Reg.SYS_BREACH reg; omega

section
variable {bs : List Nat} {s t : State}

theorem State.Notes.raiseIrq (h : s.Notes bs t) (k : Nat) (hb : 0x1700 ∈ bs) : s.Notes bs (t.raiseIrq k) := by
  unfold State.raiseIrq
  split
  · exact h
  · next hk =>
    have hle : k ≤ 479 := by simp [sourceUsed] at hk; omega
    split
    · exact ⟨h.reg, h.rest⟩
    · refine h.set _ _ ?_
      rwa [block_icSrc hle]

theorem State.Notes.event (h : s.Notes bs t) (flag events : Fld) (k : Nat) (hb : 0x1700 ∈ bs) (hf : flag.addr / 0x10000 ∈ bs)
    (he : events.addr / 0x10000 ∈ bs) : s.Notes bs (t.event flag events k) :=
  ((h.set flag 1 hf).count events he).raiseIrq k hb

theorem State.Notes.enqueueLog (h : s.Notes bs t) (e : LogEntry) (hl : 0x1A00 ∈ bs) (hb : 0x1700 ∈ bs) : s.Notes bs (t.enqueueLog e) := by
  unfold State.enqueueLog
  split
  · exact ⟨h.reg, h.rest⟩
  · exact (h.count _ (by exact hl)).raiseIrq _ hb

theorem State.Notes.breach (h : s.Notes bs t) (b : Breach) (h0 : 0 ∈ bs) (hl : 0x1A00 ∈ bs) (hb : 0x1700 ∈ bs) (hr : b.rank ≤ 10) :
    s.Notes bs (t.breach b) := by
  have hz : (Reg.SYS_BREACH_COUNT b.rank).addr / 0x10000 = 0 := block_breach hr
  exact ((h.enqueueLog _ hl hb).count _ (hz ▸ h0)).set _ _ (hz ▸ h0)

/-! ### The logbook's queue -/

theorem raiseIrq_log (s : State) (k : Nat) : (s.raiseIrq k).log = s.log := by
  unfold State.raiseIrq
  split
  · rfl
  · split <;> rfl

theorem enqueueLog_queue (s : State) (e : LogEntry) :
    (s.enqueueLog e).log.queue = if s.log.queue.length < 64 then s.log.queue ++ [e] else s.log.queue := by
  unfold State.enqueueLog
  split
  · rfl
  · rw [raiseIrq_log]; rfl

theorem breach_queue (s : State) (b : Breach) : ∃ e, (s.breach b).log.queue = if s.log.queue.length < 64 then s.log.queue ++ [e] else s.log.queue :=
  ⟨_, enqueueLog_queue s _⟩

/-- A breach adds one entry at most. -/
theorem breach_drop_le (s : State) (b : Breach) : ((s.breach b).log.queue.drop s.log.queue.length).length ≤ 1 := by
  obtain ⟨e, he⟩ := breach_queue s b
  rw [he]
  split <;> simp

end

end Sys2Proof.Machine
end

section
/-! PROOF. O23: what triggers a haptic effect. -/

namespace Sys2Proof.Machine

/-! ### A command for one element of a list -/

theorem State.each_id {α : Type} {l : List α} {f : α → State → State} {s : State} (h : ∀ x ∈ l, f x s = s) : s.each l f = s := by
  induction l with
  | nil => rfl
  | cons x xs ih =>
    have hx : s.each (x :: xs) f = (f x s).each xs f := rfl
    rw [hx, h x (by simp), ih fun y hy => h y (by simp [hy])]

/-- One element of the list acts, and the others do nothing before it and after it. -/
theorem State.each_single {α : Type} [DecidableEq α] {l : List α} {f : α → State → State} {s : State} {n : α} (hn : n ∈ l) (hl : l.Nodup)
    (hbefore : ∀ x ∈ l, x ≠ n → f x s = s) (hafter : ∀ x ∈ l, x ≠ n → f x (f n s) = f n s) : s.each l f = f n s := by
  induction l with
  | nil => simp at hn
  | cons x xs ih =>
    have hx : s.each (x :: xs) f = (f x s).each xs f := rfl
    obtain ⟨hnot, hxs⟩ := List.nodup_cons.1 hl
    rw [hx]
    by_cases hxn : x = n
    · subst hxn
      exact State.each_id fun y hy => hafter y (by simp [hy]) (ne_of_mem_of_not_mem hy hnot)
    · rw [hbefore x (by simp) hxn]
      exact ih ((List.mem_cons.1 hn).resolve_left (Ne.symm hxn)) hxs (fun y hy => hbefore y (by simp [hy]))
        fun y hy => hafter y (by simp [hy])

/-! ### The record and the state of a channel -/

@[simp] theorem State.hc_setHc_same (s : State) (n : Nat) (r : HapState) : (s.setHc n r).hc n = r := sget_sput_same _ _ _

@[simp] theorem State.setHc_setHc (s : State) (n : Nat) (r q : HapState) : (s.setHc n r).setHc n q = s.setHc n q := by
  simp [State.setHc, sput_sput]

theorem State.hc_setHc_other (s : State) {n c : Nat} (h : c ≠ n) (r : HapState) : (s.setHc n r).hc c = s.hc c := sget_sput_other _ _ h

@[simp] theorem State.setHc_log (s : State) (n : Nat) (r : HapState) : (s.setHc n r).log = s.log := rfl

theorem State.hc_congr {s t : State} (h : t.hap = s.hap) (c : Nat) : t.hc c = s.hc c := by rw [State.hc, h, State.hc]

/-- Between two states the other channels' records and states are the same. -/
def State.OnlyChannel (s : State) (n : Nat) (t : State) : Prop :=
  ∀ c < 16, c ≠ n → t.hc c = s.hc c ∧ t.hcState c = s.hcState c

theorem hcStatus_ne {c n : Nat} (h : c ≠ n) : Reg.HC_STATUS c ≠ Reg.HC_STATUS n := by
  unfold Reg.HC_STATUS reg
  omega

theorem State.OnlyChannel.set {s t : State} {n : Nat} (h : s.OnlyChannel n t) (f : Fld) (v : Nat)
    (hf : ∀ c, c ≠ n → Reg.HC_STATUS c ≠ f.addr) : s.OnlyChannel n (t.set f v) := fun c hlt hc =>
  ⟨(h c hlt hc).1, (State.get_set_other _ _ _ _ (hf c hc)).trans (h c hlt hc).2⟩

theorem State.OnlyChannel.setHc {s t : State} {n : Nat} (h : s.OnlyChannel n t) (r : HapState) : s.OnlyChannel n (t.setHc n r) := fun c hlt hc =>
  ⟨(State.hc_setHc_other _ hc r).trans (h c hlt hc).1, (h c hlt hc).2⟩

/-! ### Doorbells -/

section
variable {s : State} {n : Nat}

theorem hapDiscard_sets (s : State) (n : Nat) :
    s.SetsOnly [(Reg.HC_COUNTS_DISCARDS n, s.more (Reg.HC_COUNTS_DISCARDS n))] (s.hapDiscard n) :=
  setsOnly_set (setsOnly_refl s) _ _

theorem hapDrop_sets (s : State) (n : Nat) :
    s.SetsOnly [(Reg.HC_DROPS_HV_DROP n, s.more (Reg.HC_DROPS_HV_DROP n)), (Reg.HC_COUNTS_DISCARDS n, s.more (Reg.HC_COUNTS_DISCARDS n))]
      ((s.hapDiscard n).count (Reg.HC_DROPS_HV_DROP n)) := by
  have h : (s.hapDiscard n).get (Reg.HC_DROPS_HV_DROP n) = s.get (Reg.HC_DROPS_HV_DROP n) :=
    State.get_set_other _ _ _ _ (by simp)
  have hs := setsOnly_set (hapDiscard_sets s n) (Reg.HC_DROPS_HV_DROP n) ((s.hapDiscard n).more (Reg.HC_DROPS_HV_DROP n))
  rw [State.more, h] at hs
  rw [State.count_eq, h]
  exact hs

theorem hapRefused_unready (h : s.bit Reg.HAP_STATUS_HV_READY = false) :
    s.hapRefused n = some ((s.hapDiscard n).count (Reg.HC_DROPS_HV_DROP n)) := by
  rw [State.hapRefused, h]
  rfl

theorem hapRefused_ready (h : s.bit Reg.HAP_STATUS_HV_READY = true)
    (hno : s.bit Reg.HAP_STATUS_LIB_VALID = false ∨ s.bit (Reg.HC_CTRL_EN n) = false ∨ s.hcState n = 4) :
    s.hapRefused n = some (s.hapDiscard n) := by
  rw [State.hapRefused, h]
  rcases hno with h | h | h <;> simp [h]

theorem hapRefused_none (h : s.bit Reg.HAP_STATUS_HV_READY = true) (hlib : s.bit Reg.HAP_STATUS_LIB_VALID = true)
    (hen : s.bit (Reg.HC_CTRL_EN n) = true) (hidle : s.hcState n = 0) : s.hapRefused n = none := by
  rw [State.hapRefused, h, hlib, hen, hidle]
  rfl

theorem hapLose_unready (h : s.bit Reg.HAP_STATUS_HV_READY = false) :
    s.hapLose n = (s.hapDiscard n).count (Reg.HC_DROPS_HV_DROP n) := by
  rw [State.hapLose, h]
  rfl

theorem hapLose_ready (h : s.bit Reg.HAP_STATUS_HV_READY = true) : s.hapLose n = s.hapDiscard n := by
  rw [State.hapLose, h]
  rfl

theorem hapDropWaiting_idle (hidle : s.hcState n = 0) : s.hapDropWaiting n = s := by
  rw [State.hapDropWaiting, hidle]
  rfl

theorem hapBell_refused {t : State} {g : HapTrigger} (h : s.hapRefused n = some t) : s.hapBell n g = t := by
  rw [State.hapBell, h]

theorem hapBell_urgent {g : HapTrigger} (h : s.hapRefused n = none) (hidle : s.hcState n = 0) (hg : g.urgent = true)
    (hfree : (s.hc n).urgent = none) : s.hapBell n g = s.setHc n { s.hc n with urgent := some g } := by
  rw [State.hapBell, h]
  simp only [hg, if_true, hapDropWaiting_idle hidle, hfree]
  rfl

theorem hapBell_normal {g : HapTrigger} (h : s.hapRefused n = none) (hidle : s.hcState n = 0) (hg : g.urgent = false)
    (hfree : (s.hc n).pending = none) : s.hapBell n g = s.setHc n { s.hc n with pending := some g } := by
  rw [State.hapBell, h]
  have hend : ((s.hc n).endAtCycle || s.hcState n == 2) = (s.hc n).endAtCycle := by simp [hidle]
  simp only [hg, hidle, hfree]
  simp [State.when, hend]

/-- R58, R301: a doorbell through a handle that the session does not own. -/
theorem doorbell_unowned {bell : Bell} {v : Word} (h : s.hapHandle bell.session (getBits v 0 2) = none) :
    Does (.hapticDoorbell bell v) s s
      [(Reg.SESS_PAGE_STATUS_EVENTS bell.session, s.more (Reg.SESS_PAGE_STATUS_EVENTS bell.session)),
       (Reg.SESS_PAGE_STATUS_HANDLE_ERR bell.session, 1)] := by
  have he : exec (.hapticDoorbell bell v) s = .next (s.pageEvent bell.session (Reg.SESS_PAGE_STATUS_HANDLE_ERR bell.session)) := by
    change Host.Outcome.next (s.hapDoorbell _ _ _ _) = _
    rw [State.hapDoorbell, h]
  have hm := State.get_set_apart s (Reg.SESS_PAGE_STATUS_HANDLE_ERR bell.session) (Reg.SESS_PAGE_STATUS_EVENTS bell.session) 1
    (by simp) (by simp)
  refine ⟨_, he, ?_⟩
  rw [State.pageEvent, State.count_eq, hm]
  exact setsOnly_set (setsOnly_set (setsOnly_refl s) _ _) _ _

/-- R58, R298, R299, R301: a doorbell that reaches the channel it names. -/
theorem doorbell_reaches {bell : Bell} {v : Word} {c : Nat} (h : s.hapHandle bell.session (getBits v 0 2) = some c) :
    (bell.beaten = true → s.bit Reg.HAP_STATUS_HV_READY = true →
      Does (.hapticDoorbell bell v) s s [(Reg.HC_COUNTS_DISCARDS c, s.more (Reg.HC_COUNTS_DISCARDS c))]) ∧
    (s.bit Reg.HAP_STATUS_HV_READY = false → Does (.hapticDoorbell bell v) s s
      [(Reg.HC_DROPS_HV_DROP c, s.more (Reg.HC_DROPS_HV_DROP c)), (Reg.HC_COUNTS_DISCARDS c, s.more (Reg.HC_COUNTS_DISCARDS c))]) ∧
    (bell.beaten = false → s.bit Reg.HAP_STATUS_HV_READY = true →
      (s.bit Reg.HAP_STATUS_LIB_VALID = false ∨ s.bit (Reg.HC_CTRL_EN c) = false ∨ s.hcState c = 4 →
        Does (.hapticDoorbell bell v) s s [(Reg.HC_COUNTS_DISCARDS c, s.more (Reg.HC_COUNTS_DISCARDS c))]) ∧
      (s.bit Reg.HAP_STATUS_LIB_VALID = true → s.bit (Reg.HC_CTRL_EN c) = true → s.hcState c = 0 →
        let g : HapTrigger := { effect := getBits v 8 6, urgent := bitOf v.toNat 16 && s.bit (Reg.SESS_CTRL_HAP_URGENT_OK bell.session),
                                session := some bell.session, late := bell.missed }
        (g.urgent = true → (s.hc c).urgent = none →
          Does (.hapticDoorbell bell v) s (s.setHc c { s.hc c with urgent := some g }) []) ∧
        (g.urgent = false → (s.hc c).pending = none →
          Does (.hapticDoorbell bell v) s (s.setHc c { s.hc c with pending := some g }) []))) := by
  have he : ∀ t, (if bell.beaten = true then s.hapLose c else
      s.hapBell c { effect := getBits v 8 6, urgent := bitOf v.toNat 16 && s.bit (Reg.SESS_CTRL_HAP_URGENT_OK bell.session),
                    session := some bell.session, late := bell.missed }) = t → exec (.hapticDoorbell bell v) s = .next t := by
    rintro t rfl
    change Host.Outcome.next (s.hapDoorbell _ _ _ _) = _
    rw [State.hapDoorbell, h]
  refine ⟨fun hb hr => ?_, fun hr => ?_, fun hb hr => ⟨fun hno => ?_, fun hlib hen hidle => ⟨fun hu hfree => ?_, fun hu hfree => ?_⟩⟩⟩
  · exact ⟨_, he _ (by rw [if_pos hb, hapLose_ready hr]), hapDiscard_sets s c⟩
  · refine ⟨_, he _ ?_, hapDrop_sets s c⟩
    split
    · exact hapLose_unready hr
    · exact hapBell_refused (hapRefused_unready hr)
  · exact ⟨_, he _ (by rw [hb, if_neg Bool.false_ne_true, hapBell_refused (hapRefused_ready hr hno)]), hapDiscard_sets s c⟩
  · refine ⟨_, he _ ?_, setsOnly_refl _⟩
    rw [hb, if_neg Bool.false_ne_true, hapBell_urgent (hapRefused_none hr hlib hen hidle) hidle hu hfree]
  · refine ⟨_, he _ ?_, setsOnly_refl _⟩
    rw [hb, if_neg Bool.false_ne_true, hapBell_normal (hapRefused_none hr hlib hen hidle) hidle hu hfree]

end

/-! ### Trigger pins -/

/-- Of the edges of one pin those that qualify are of that pin. -/
theorem filter_oneEdge (k : Fin 4) (p : Nat → Bool) :
    ((List.range 4).filter fun j => bitOf (BitVec.ofNat 4 (2 ^ k.val)).toNat j && p j) = if p k then [k.val] else [] := by
  have h : (List.range 4).filter (bitOf (BitVec.ofNat 4 (2 ^ k.val)).toNat ·) = [k.val] := by revert k; decide
  rw [← List.filter_filter, List.filter_comm, h, List.filter_singleton, Bool.cond_eq_ite]

/-- The channel of a pin is one of the sixteen, once. -/
theorem filterMap_hapChannels (k : Fin 4) (n : Fin 16) :
    (hapChannels.filterMap fun c => if n.val = c then some k.val else none) = [k.val] := by revert k n; decide

section
variable {s : State} {k : Fin 4} {levels : BitVec 4}

theorem exec_hapTrigEdge_none (h : s.bit (Reg.HAP_TRIG_EN k) = false) :
    exec (.hapTrigEdge (BitVec.ofNat 4 (2 ^ k.val)) levels []) s = .next s := by
  have hno : s.trigEdge k (bitOf levels.toNat k) = false := by rw [State.trigEdge, h]; rfl
  change Host.Outcome.next (s.hapTrigEdges _ _ _) = _
  rw [State.hapTrigEdges]
  simp only [filter_oneEdge, hno]
  simp [State.each]

theorem exec_hapTrigEdge_one {n : Fin 16} (h : s.bit (Reg.HAP_TRIG_EN k) = true) (hedge : s.get (Reg.HAP_TRIG_EDGE k) = 2)
    (hn : s.get (Reg.HAP_TRIG_HC k) = n) :
    exec (.hapTrigEdge (BitVec.ofNat 4 (2 ^ k.val)) levels []) s = .next (s.hapUrgent n (s.get (Reg.HAP_TRIG_EFFECT k))) := by
  have hyes : s.trigEdge k (bitOf levels.toNat k) = true := by rw [State.trigEdge, h, hedge]; rfl
  change Host.Outcome.next (s.hapTrigEdges _ _ _) = _
  rw [State.hapTrigEdges]
  simp only [filter_oneEdge, hyes]
  simp [State.each, hn, filterMap_hapChannels]

end

/-! ### A start on an idle channel -/

section
variable {s : State} {n : Nat} {d : HapDesc} {cost : Nat}

/-- The record of an idle channel when an effect begins, before its frequency. -/
def HapState.begun (r : HapState) (d : HapDesc) (cost : Nat) : HapState :=
  { r with desc := d, cost := cost, cycle := 0, endAtCycle := false, brakes := 0, window := false, wait := false, prog := 0, peak := 0,
           samples := 0, prev := none, cross := none, half := none, stops := 0, arm := false, acc := 0, inv := false }

/-- The budget and the count of starts when an effect begins. -/
def State.hapCharged (s : State) (n : Nat) (d : HapDesc) (cost : Nat) : State :=
  (s.setHc n ((s.hc n).begun d cost)).hapSetUse.count (Reg.HC_COUNTS_STARTS n)

theorem hcRuns_idle (hidle : s.hcState n = 0) : s.hcRuns n = false := by rw [State.hcRuns, hidle]; rfl

theorem hapBegin_idle (hidle : s.hcState n = 0) (hd : d.total ≠ 0) : s.hapBegin n d cost =
    (((s.hapCharged n d cost).when (!(s.bit (Reg.HC_STATUS_LOCKED n) && d.track)) (·.hapNominal n d)).set (Reg.HC_STATUS_LOCKED n) 0).set
      (Reg.HC_STATUS_STATE n) 2 := by
  have hrun := hcRuns_idle hidle
  cases hlock : s.bit (Reg.HC_STATUS_LOCKED n) <;> cases htrack : d.track <;>
    simp [State.hapBegin, State.hapCharged, HapState.begun, State.when, hrun, hlock, htrack, hd]

theorem hapBegin_nominal (hidle : s.hcState n = 0) (hd : d.total ≠ 0) (htrack : d.track = false) : s.hapBegin n d cost =
    (((s.hapCharged n d cost).hapNominal n d).set (Reg.HC_STATUS_LOCKED n) 0).set (Reg.HC_STATUS_STATE n) 2 := by
  rw [hapBegin_idle hidle hd, htrack, Bool.and_false]
  rfl

theorem hapCharged_sets (s : State) (n : Nat) (d : HapDesc) (cost : Nat) :
    (s.setHc n ((s.hc n).begun d cost)).SetsOnly [(Reg.HC_COUNTS_STARTS n, s.more (Reg.HC_COUNTS_STARTS n)),
      (Reg.HAP_BUDGET_IN_USE, (hapChannels.map fun c => if c = n then cost else (s.hc c).cost).sum)] (s.hapCharged n d cost) := by
  have huse : (s.setHc n ((s.hc n).begun d cost)).hapSetUse = (s.setHc n ((s.hc n).begun d cost)).set Reg.HAP_BUDGET_IN_USE
      (hapChannels.map fun c => if c = n then cost else (s.hc c).cost).sum := by
    rw [State.hapSetUse]
    congr 3
    funext c
    by_cases hc : c = n
    · subst hc
      rw [State.hc_setHc_same, if_pos rfl]
      rfl
    · rw [State.hc_setHc_other _ hc, if_neg hc]
  have hstarts : ((s.setHc n ((s.hc n).begun d cost)).set Reg.HAP_BUDGET_IN_USE
      (hapChannels.map fun c => if c = n then cost else (s.hc c).cost).sum).get (Reg.HC_COUNTS_STARTS n) =
        s.get (Reg.HC_COUNTS_STARTS n) := State.get_set_other _ _ _ _ (by simp; omega)
  rw [State.hapCharged, huse, State.count_eq, hstarts]
  exact setsOnly_set (setsOnly_set (setsOnly_refl _) _ _) _ _

/-- R296, R300: what the start of an effect that neither waits nor tracks sets. -/
theorem hapBegin_sets (hidle : s.hcState n = 0) (hd : d.total ≠ 0) (htrack : d.track = false) :
    (s.setHc n { (s.hc n).begun d cost with delta := hapDelta (d.f0 * 16) }).SetsOnly
      [(Reg.HC_STATUS_STATE n, 2), (Reg.HC_STATUS_LOCKED n, 0), (Reg.HC_FREQ_TRACKED n, d.f0 * 16),
       (Reg.HC_COUNTS_STARTS n, s.more (Reg.HC_COUNTS_STARTS n)),
       (Reg.HAP_BUDGET_IN_USE, (hapChannels.map fun c => if c = n then cost else (s.hc c).cost).sum)] (s.hapBegin n d cost) := by
  have hc := hapCharged_sets s n d cost
  have hrec : (s.hapCharged n d cost).hc n = (s.hc n).begun d cost :=
    (hc.proj (State.hc · n) fun _ _ => rfl).trans (State.hc_setHc_same _ _ _)
  have hdelta := setsOnly_beside (f := (State.setHc · n { (s.hc n).begun d cost with delta := hapDelta (d.f0 * 16) })) (fun _ _ => rfl) hc
  have hset := setsOnly_set (setsOnly_set (setsOnly_set (setsOnly_set hdelta (Reg.HC_FREQ_TRACKED n) (d.f0 * 16))
    (Reg.HC_STATUS_LOCKED n) 0) (Reg.HC_STATUS_LOCKED n) 0) (Reg.HC_STATUS_STATE n) 2
  rw [State.setHc_setHc] at hset
  rw [hapBegin_nominal hidle hd htrack, State.hapNominal, State.hapSetFreq, hrec]
  exact ⟨regBits_drop (l := [(Reg.HC_STATUS_STATE n, 2), (Reg.HC_STATUS_LOCKED n, 0)]) (w := 0) hset.1 (by simp), hset.2⟩

end

/-! ### Slot boundaries -/

section
variable {s t : State} {n c : Nat}

/-- What a slot boundary does on a channel that holds no trigger. -/
theorem hapSlotNormal_quiet (hp : (s.hc c).pending = none) (hw : s.hcState c ≠ 1) : s.hapSlotNormal c = s := by
  unfold State.hapSlotNormal
  split
  · rfl
  · split
    · next h _ => exact absurd h hw
    · next h => rw [hp] at h; simp at h
    · rfl

theorem hapSlotUrgent_none (hu : (s.hc c).urgent = none) : s.hapSlotUrgent c = s := by rw [State.hapSlotUrgent, hu]

theorem hapSlot_normal (hu : ∀ c < 16, (s.hc c).urgent = none) : s.hapSlot = (s.each hapChannels fun c t => t.hapSlotNormal c).inOrder s := by
  have h : (s.each hapChannels fun c t => t.hapSlotUrgent c) = s := State.each_id fun c hc => hapSlotUrgent_none (hu c (List.mem_range.1 hc))
  rw [State.hapSlot, h]

/-- R32, R298: one channel alone holds a trigger. -/
theorem hapSlot_single (hn : n < 16) (hu : ∀ c < 16, (s.hc c).urgent = none) (hothers : ∀ c < 16, c ≠ n → (s.hc c).pending = none)
    (hwait : ∀ c < 16, s.hcState c ≠ 1) (hstep : s.hapSlotNormal n = t) (hkept : s.OnlyChannel n t)
    (hlog : (t.log.queue.drop s.log.queue.length).length ≤ 1) : s.hapSlot = t := by
  subst hstep
  rw [hapSlot_normal hu, State.each_single (l := hapChannels) (n := n) (List.mem_range.2 hn) List.nodup_range]
  · exact State.inOrder_eq hlog
  · exact fun c hc hcn => hapSlotNormal_quiet (hothers c (List.mem_range.1 hc) hcn) (hwait c (List.mem_range.1 hc))
  · intro c hc hcn
    obtain ⟨hrec, hstate⟩ := hkept c (List.mem_range.1 hc) hcn
    exact hapSlotNormal_quiet (by rw [hrec]; exact hothers c (List.mem_range.1 hc) hcn)
      (by rw [hstate]; exact hwait c (List.mem_range.1 hc))

theorem hapSlotNormal_pending {g : HapTrigger} (hgate : s.isGated 0x11 n = false) (hidle : s.hcState n = 0)
    (hp : (s.hc n).pending = some g) : s.hapSlotNormal n =
      if 0 < g.late then (s.hapMiss n g).2.setHc n { (s.hapMiss n g).2.hc n with pending := some (s.hapMiss n g).1 }
      else (s.setHc n { s.hc n with pending := none }).hapStart n g := by
  rw [State.hapSlotNormal, if_neg (by rw [hgate]; exact Bool.false_ne_true), hidle, hp]
  rfl

/-- The breach of a start that a boundary cannot make. -/
def State.slotBreach (s : State) (n : Nat) (g : HapTrigger) : Breach :=
  { rank := 6, yielded := 6, port := none, mag := s.hapSlotsUs (g.missed + 1), unit := 0x11, inst := n }

theorem hapMissed_step {g : HapTrigger} (hgate : s.isGated 0x11 n = false) (hidle : s.hcState n = 0) (hp : (s.hc n).pending = some g)
    (hlate : 0 < g.late) : s.hapSlotNormal n = (s.breach (s.slotBreach n g)).setHc n
      { s.hc n with pending := some { g with late := g.late - 1, missed := g.missed + 1 } } := by
  have hh : (s.breach (s.slotBreach n g)).hc n = s.hc n :=
    ((State.Notes.refl [0, 0x1A00, 0x1700] s).breach _ (by simp) (by simp) (by simp) (by simp [State.slotBreach])).proj (State.hc · n)
      fun _ _ _ _ => rfl
  rw [hapSlotNormal_pending hgate hidle hp, if_pos hlate, ← hh]
  rfl

theorem hapStart_step {g : HapTrigger} (hgate : s.isGated 0x11 n = false) (hidle : s.hcState n = 0) (hp : (s.hc n).pending = some g)
    (hlate : g.late = 0)
    (hfits : s.hapOthers n + s.hapCost n (s.hapDesc g.effect).level ≤ s.get Reg.HAP_BUDGET_LIMIT) :
    s.hapSlotNormal n = (s.setHc n { s.hc n with pending := none }).hapBegin n (s.hapDesc g.effect)
      (s.hapCost n (s.hapDesc g.effect).level) := by
  have hrun : (s.setHc n { s.hc n with pending := none }).hcRuns n = false := hcRuns_idle hidle
  have hothers : (s.setHc n { s.hc n with pending := none }).hapOthers n = s.hapOthers n := by
    rw [State.hapOthers, hrun, State.hapOthers, hcRuns_idle hidle]
    rfl
  rw [hapSlotNormal_pending hgate hidle hp, if_neg (by omega), State.hapStart, State.hapFits, hothers]
  exact if_pos (decide_eq_true hfits)

/-- The start of an effect leaves the other channels and the logbook. -/
theorem hapBegin_onlyChannel {d : HapDesc} {cost : Nat} (hidle : s.hcState n = 0) (hd : d.total ≠ 0) :
    s.OnlyChannel n (s.hapBegin n d cost) ∧ (s.hapBegin n d cost).log = s.log := by
  have hown : ∀ c, c ≠ n → Reg.HC_STATUS c ≠ Reg.HC_STATUS n := fun c hc => hcStatus_ne hc
  have hbudget : ∀ c, c ≠ n → Reg.HC_STATUS c ≠ Reg.HAP_BUDGET := fun c _ => by unfold Reg.HC_STATUS Reg.HAP_BUDGET reg; omega
  have hcounts : ∀ c, c ≠ n → Reg.HC_STATUS c ≠ Reg.HC_COUNTS n := fun c _ => by unfold Reg.HC_STATUS Reg.HC_COUNTS reg; omega
  have hfreq : ∀ c, c ≠ n → Reg.HC_STATUS c ≠ Reg.HC_FREQ n := fun c _ => by unfold Reg.HC_STATUS Reg.HC_FREQ reg; omega
  have hcharged : s.OnlyChannel n (s.hapCharged n d cost) :=
    ((State.OnlyChannel.setHc (fun _ _ _ => ⟨rfl, rfl⟩) _).set _ _ hbudget).set _ _ hcounts
  rw [hapBegin_idle hidle hd]
  unfold State.when
  split
  · exact ⟨((((hcharged.setHc _).set _ _ hfreq).set _ _ hown).set _ _ hown).set _ _ hown, rfl⟩
  · exact ⟨(hcharged.set _ _ hown).set _ _ hown, rfl⟩

theorem breach_onlyChannel (b : Breach) (hr : b.rank ≤ 10) : s.OnlyChannel n (s.breach b) := by
  have h := (State.Notes.refl [0, 0x1A00, 0x1700] s).breach b (by simp) (by simp) (by simp) hr
  refine fun c hlt _ => ⟨h.proj (State.hc · c) fun _ _ _ _ => rfl, h.get (f := Reg.HC_STATUS_STATE c) ?_⟩
  have hb : Reg.HC_STATUS c / 0x10000 = 0x1100 + c := by unfold Reg.HC_STATUS reg; omega
  change Reg.HC_STATUS c / 0x10000 ∉ _
  rw [hb]
  simp
  omega

/-- R298: an edge starts its effect where the budget admits its cost. -/
theorem hapUrgent_starts {e : Nat} (hready : s.bit Reg.HAP_STATUS_HV_READY = true) (hlib : s.bit Reg.HAP_STATUS_LIB_VALID = true)
    (hen : s.bit (Reg.HC_CTRL_EN n) = true) (hidle : s.hcState n = 0)
    (hfits : s.hapOthers n + s.hapCost n (s.hapDesc e).level ≤ s.get Reg.HAP_BUDGET_LIMIT) :
    s.hapUrgent n e = s.hapBegin n (s.hapDesc e) (s.hapCost n (s.hapDesc e).level) := by
  have hfit : s.hapFits n (s.hapDesc e).level = true := decide_eq_true hfits
  rw [State.hapUrgent, hapRefused_none hready hlib hen hidle]
  simp only [hapDropWaiting_idle hidle, State.hapStart, hfit, if_true]

/-- What a slot boundary does on the one channel that holds a trigger, which is late. -/
theorem hapSlot_misses {g : HapTrigger} (hn : n < 16) (hu : ∀ c < 16, (s.hc c).urgent = none)
    (hothers : ∀ c < 16, c ≠ n → (s.hc c).pending = none) (hwait : ∀ c < 16, s.hcState c ≠ 1)
    (hgate : s.isGated 0x11 n = false) (hidle : s.hcState n = 0) (hp : (s.hc n).pending = some g) (hlate : 0 < g.late) :
    s.hapSlot = (s.breach (s.slotBreach n g)).setHc n
      { s.hc n with pending := some { g with late := g.late - 1, missed := g.missed + 1 } } := by
  refine hapSlot_single hn hu hothers hwait (hapMissed_step hgate hidle hp hlate)
    ((breach_onlyChannel _ (by simp [State.slotBreach])).setHc _) ?_
  rw [State.setHc_log]
  exact breach_drop_le s _

theorem exec_slotBoundary (h : s.hapSlot = t) : exec .hapticSlotBoundary s = .next t := h ▸ rfl

/-- What a slot boundary does on the one channel that holds a trigger, which is not late and fits. -/
theorem hapSlot_starts {g : HapTrigger} (hn : n < 16) (hu : ∀ c < 16, (s.hc c).urgent = none)
    (hothers : ∀ c < 16, c ≠ n → (s.hc c).pending = none) (hwait : ∀ c < 16, s.hcState c ≠ 1)
    (hgate : s.isGated 0x11 n = false) (hidle : s.hcState n = 0) (hp : (s.hc n).pending = some g)
    (hlate : g.late = 0) (hd : (s.hapDesc g.effect).total ≠ 0)
    (hfits : s.hapOthers n + s.hapCost n (s.hapDesc g.effect).level ≤ s.get Reg.HAP_BUDGET_LIMIT) :
    s.hapSlot = (s.setHc n { s.hc n with pending := none }).hapBegin n (s.hapDesc g.effect)
      (s.hapCost n (s.hapDesc g.effect).level) := by
  have hidle' : (s.setHc n { s.hc n with pending := none }).hcState n = 0 := hidle
  obtain ⟨hkept, hlog⟩ := hapBegin_onlyChannel (cost := s.hapCost n (s.hapDesc g.effect).level) hidle' hd
  refine hapSlot_single hn hu hothers hwait (hapStart_step hgate hidle hp hlate hfits) (fun c hlt hc => ?_) ?_
  · obtain ⟨hrec, hstate⟩ := hkept c hlt hc
    exact ⟨hrec.trans (State.hc_setHc_other _ hc _), hstate⟩
  · rw [hlog]
    exact (List.length_drop ..).trans_le (by simp [State.setHc])

end

/-- Settles O23. -/
theorem hapticTriggerStartsOrIsDiscarded : Obligations.HapticTriggerStartsOrIsDiscarded := by
  intro s n bell v k levels
  refine ⟨?_, fun hoff => ⟨s, exec_hapTrigEdge_none hoff, setsOnly_refl s⟩, ?_, fun hnone => ?_, ?_⟩
  · split
    · next h => exact doorbell_unowned h
    · next h => exact doorbell_reaches h
  · intro hon hedge hchan hready hlib hen hidle d hfits
    have hexec : exec (.hapTrigEdge (BitVec.ofNat 4 (2 ^ k.val)) levels []) s = .next (s.hapBegin n d (s.hapCost n d.level)) := by
      rw [exec_hapTrigEdge_one hon hedge hchan, hapUrgent_starts hready hlib hen hidle hfits]
    refine ⟨hexec, fun hd htrack => ⟨_, hexec, ?_⟩⟩
    have hsets := hapBegin_sets (cost := s.hapCost n d.level) hidle hd htrack
    have hrec := (hsets.proj (State.hc · n) fun _ _ => rfl).trans (State.hc_setHc_same _ _ _)
    obtain ⟨hside, hsram, hflash⟩ := setsOnly_sameBytes hsets
    refine ⟨hsets.1, ⟨hside, hsram, hflash⟩, ?_⟩
    dsimp only
    rw [hrec]
    exact ⟨rfl, rfl, rfl, rfl, rfl⟩
  · refine ⟨s, exec_slotBoundary ?_, setsOnly_refl s⟩
    rw [hapSlot_normal fun c hc => (hnone c hc).2.1, State.each_id, State.inOrder_eq (by simp)]
    exact fun c hc => hapSlotNormal_quiet (hnone c (List.mem_range.1 hc)).1 (hnone c (List.mem_range.1 hc)).2.2
  · intro hall hidle hgate
    have hothers : ∀ c < 16, c ≠ n.val → (s.hc c).pending = none := fun c hc => (hall c hc).1
    have hurgent : ∀ c < 16, (s.hc c).urgent = none := fun c hc => (hall c hc).2.1
    have hwait : ∀ c < 16, s.hcState c ≠ 1 := fun c hc => (hall c hc).2.2
    split
    · trivial
    · next g hp =>
      refine ⟨fun hlate => ⟨s, setsOnly_refl s, exec_slotBoundary ?_⟩, fun hlate _ hd hfits => exec_slotBoundary ?_⟩
      · exact hapSlot_misses n.isLt hurgent hothers hwait hgate hidle hp hlate
      · exact hapSlot_starts n.isLt hurgent hothers hwait hgate hidle hp hlate hd hfits

end Sys2Proof.Machine
end

section
/-! SUPPORT. Writes of memory: where an address lies, how a write of it ends, and what a performed write leaves. -/

namespace Sys2Proof.Machine

/-! ### Addresses -/

theorem toNat_addr {a : Nat} (h : a < 2 ^ 40) : (BitVec.ofNat 40 a).toNat = a := by rw [BitVec.toNat_ofNat, Nat.mod_eq_of_lt h]

theorem region_side (n : Side) {off : Nat} (h : off < 0x0400000000) : region (n.val * 0x0400000000 + off) = .side n off := by
  unfold region
  match n with
  | 0 => simp [h]
  | 1 => simp; omega

theorem region_mirror {off : Nat} (h : off < 0x0400000000) : region (0x0800000000 + off) = .mirror off := by
  unfold region
  rw [if_neg (by omega), if_neg (by omega), if_pos (by omega), Nat.add_sub_cancel_left]

theorem region_sram {off : Nat} (h : off < 0x400000) : region (0x0F00000000 + off) = .sram off := by
  unfold region
  rw [if_neg (by omega), if_neg (by omega), if_neg (by omega), if_pos (by omega), Nat.add_sub_cancel_left]

theorem region_undecoded {a : Nat} (h : 0x0F00400000 ≤ a) (h' : a < 0x0FF0000000) : region a = .undecoded := by
  unfold region
  rw [if_neg (by omega), if_neg (by omega), if_neg (by omega), if_neg (by omega), if_neg (by omega), if_neg (by omega)]

/-- An offset below what is usable lies in the side's range. -/
theorem lt_of_usable {s : State} {n off len : Nat} (h : off + len ≤ s.usable n) (hlen : 1 ≤ len) : off < 0x0400000000 := by
  have hu := usable_le s n
  unfold granuleBytes at hu
  omega

/-! ### How a write ends -/

section
variable {s : State} {w : World} {a off : Nat} {bs : List Byte}

theorem isEmpty_of_length (h : 1 ≤ bs.length) : bs.isEmpty = false := by
  cases bs with
  | nil => simp at h
  | cons b bs => rfl

theorem writeMem_sram (hr : region a = .sram off) (hb : 1 ≤ bs.length) (hi : off + bs.length ≤ 0x400000)
    (hs : w = .normal → s.sramSplit ≤ off) : s.writeMem w a bs = (.ok, s.putSram off bs) := by
  have hinst : s.installed a bs.length = true := by simp [State.installed, hr, hi]
  have hsec : ¬(w = .normal ∧ s.secureMem a bs.length = true) := by
    rintro ⟨hw, h⟩
    simp only [State.secureMem, hr, decide_eq_true_eq] at h
    exact absurd (hs hw) (by omega)
  rw [State.writeMem, isEmpty_of_length hb, if_neg Bool.false_ne_true, hr]
  simp only [hinst, hsec]
  rfl

theorem writeMem_sram_denied (hr : region a = .sram off) (hb : 1 ≤ bs.length) (hi : off + bs.length ≤ 0x400000)
    (hw : w = .normal) (hs : off < s.sramSplit) : s.writeMem w a bs = (.denied, s) := by
  have hinst : s.installed a bs.length = true := by simp [State.installed, hr, hi]
  have hsec : w = .normal ∧ s.secureMem a bs.length = true := ⟨hw, by simp [State.secureMem, hr, hs]⟩
  rw [State.writeMem, isEmpty_of_length hb, if_neg Bool.false_ne_true, hr]
  simp only [hinst, if_pos hsec]
  rfl

theorem writeMem_undecoded (hr : region a = .undecoded) (hb : 1 ≤ bs.length) : s.writeMem w a bs = (.decode, s) := by
  rw [State.writeMem, isEmpty_of_length hb, if_neg Bool.false_ne_true, hr]

section
variable {n : Nat} (hr : region a = .side n off) (hb : 1 ≤ bs.length) (hi : off + bs.length ≤ s.usable n)
include hr hb hi

theorem writeMem_side_mirrored (hm : s.touchesMirrored off bs.length = true) : s.writeMem w a bs = (.mirrored, s) := by
  have hinst : s.installed a bs.length = true := by simp [State.installed, hr, hi]
  rw [State.writeMem, isEmpty_of_length hb, if_neg Bool.false_ne_true, hr]
  simp only [hinst, hm]
  rfl

theorem writeMem_side (hm : s.touchesMirrored off bs.length = false)
    (hs : w = .normal → (granulesOf off bs.length).any s.granuleSecure = false) :
    s.writeMem w a bs = if s.sideDown n = true then (.dropped, s) else (.ok, s.putSide n off bs) := by
  have hinst : s.installed a bs.length = true := by simp [State.installed, hr, hi]
  have hsec : ¬(w = .normal ∧ s.secureMem a bs.length = true) := by
    rintro ⟨hw, h⟩
    rw [State.secureMem, hr] at h
    exact absurd (h.symm.trans (hs hw)) (by simp)
  rw [State.writeMem, isEmpty_of_length hb, if_neg Bool.false_ne_true, hr]
  simp only [hinst, hm, if_neg hsec]
  rfl

end

theorem writeMem_mirror (hr : region a = .mirror off) (hb : 1 ≤ bs.length) (h0 : off + bs.length ≤ s.usable 0)
    (h1 : off + bs.length ≤ s.usable 1) (hm : s.mirrored off bs.length = true)
    (hs : w = .normal → (granulesOf off bs.length).any s.granuleSecure = false) :
    s.writeMem w a bs = (.ok, s.putMirrored off bs) := by
  have hinst : s.installed a bs.length = true := by simp [State.installed, hr, h0, h1, hm]
  have hsec : ¬(w = .normal ∧ s.secureMem a bs.length = true) := by
    rintro ⟨hw, h⟩
    rw [State.secureMem, hr] at h
    exact absurd (h.symm.trans (hs hw)) (by simp)
  rw [State.writeMem, isEmpty_of_length hb, if_neg Bool.false_ne_true, hr]
  simp only [hinst, if_neg hsec]
  rfl

end

/-! ### What a performed write leaves -/

theorem putSide_eq (s : State) (n off : Nat) (bs : List Byte) : ∃ A B, s.putSide n off bs = { s with memA := A, memB := B } := by
  induction bs generalizing s off with
  | nil => exact ⟨s.memA, s.memB, rfl⟩
  | cons b bs ih =>
    obtain ⟨A, B, h⟩ := ih (s.setSideByte n off b) (off + 1)
    refine ⟨A, B, ?_⟩
    rw [State.putSide, h, State.setSideByte]
    split <;> rfl

theorem putSram_eq (s : State) (off : Nat) (bs : List Byte) : ∃ M, s.putSram off bs = { s with sram := M } := by
  induction bs generalizing s off with
  | nil => exact ⟨s.sram, rfl⟩
  | cons b bs ih =>
    obtain ⟨M, h⟩ := ih (s.setSramByte off b) (off + 1)
    exact ⟨M, by rw [State.putSram, h]; rfl⟩

section
variable {s t : State}

/-- What does not depend on the sides' queues and on the numbers of requests is as it was. -/
theorem State.Queued.proj {β : Type} (h : s.Queued t) (p : State → β)
    (hp : ∀ (x : State) sd n, p { x with sides := sd, nextReq := n } = p x) : p t = p s :=
  (hp t s.sides s.nextReq).symm.trans (congrArg p h.2)

theorem sideTook_nil {k : Nat} (h : ∀ o, t.sideByte k o = s.sideByte k o) : s.SideTook k 0 [] t := fun o => by
  rw [if_neg (by simp), h]

theorem sramTook_nil (h : ∀ o, t.sramByte o = s.sramByte o) : s.SramTook 0 [] t := fun o => by rw [if_neg (by simp), h]

theorem regsSet_nil (h : ∀ a, t.reg a = s.reg a) : s.RegsSet [] t := fun a i _ => by rw [h, bitAfter_nil]

/-! ### Dirty granules (R237) -/

/-- Where every listed field is one bit that is set, a bit is 1 where a field covers it or it was. -/
theorem bitAfter_ones {l : List (Fld × Nat)} (hl : ∀ p ∈ l, p.2 = 1 ∧ p.1.width = 1) (a i : Nat) (b : Bool) :
    bitAfter l a i b = (l.any (fun p => p.1.covers a i) || b) := by
  induction l with
  | nil => rfl
  | cons p l ih =>
    obtain ⟨hv, hw⟩ := hl p (by simp)
    rw [bitAfter_cons, ih fun q hq => hl q (by simp [hq]), List.any_cons]
    cases hc : p.1.covers a i with
    | false => simp
    | true =>
      simp only [Fld.covers, hw, Bool.and_eq_true, decide_eq_true_eq] at hc
      have h0 : i - p.1.lo = 0 := by omega
      simp [hv, h0]

/-- The dirty bit of a granule. -/
def dirtyBit (n g : Nat) : Fld := { addr := Reg.MSIDE_DIRTY n (g / 32), lo := g % 32, width := 1 }

theorem markDirty_bit (s : State) (n g a : Nat) {i : Nat} (hi : i < 32) :
    ((s.markDirty n g).reg a).getLsbD i = ((dirtyBit n g).covers a i || (s.reg a).getLsbD i) := by
  rw [State.markDirty, State.reg_setReg]
  by_cases ha : a = Reg.MSIDE_DIRTY n (g / 32)
  · subst ha
    have hg : decide (i = g % 32) = (dirtyBit n g).covers (Reg.MSIDE_DIRTY n (g / 32)) i := by
      rw [Bool.eq_iff_iff]
      simp [dirtyBit, Fld.covers]
      omega
    rw [if_pos rfl, BitVec.getLsbD_or, BitVec.getLsbD_ofNat, Nat.testBit_two_pow, decide_eq_true hi, Bool.true_and, ← hg,
      Bool.or_comm]
    congr 1
    exact decide_eq_decide.2 eq_comm
  · rw [if_neg ha]
    simp [dirtyBit, Fld.covers, Ne.symm ha]

theorem markAll_bit (s : State) (n : Nat) (gs : List Nat) (a : Nat) {i : Nat} (hi : i < 32) :
    ((s.each gs fun g u => u.markDirty n g).reg a).getLsbD i = (gs.any (fun g => (dirtyBit n g).covers a i) || (s.reg a).getLsbD i) := by
  induction gs generalizing s with
  | nil => rfl
  | cons g gs ih =>
    have h : (s.each (g :: gs) fun g u => u.markDirty n g) = (s.markDirty n g).each gs fun g u => u.markDirty n g := rfl
    rw [h, ih, markDirty_bit s n g a hi, List.any_cons]
    cases (dirtyBit n g).covers a i <;> simp

theorem markAll_eq (s : State) (n : Nat) (gs : List Nat) :
    ∃ r, (s.each gs fun g u => u.markDirty n g) = { s with regs := r } := by
  induction gs generalizing s with
  | nil => exact ⟨s.regs, rfl⟩
  | cons g gs ih => exact ih (s.markDirty n g)

end

/-! ### Mirrored writes (R216, R237) -/

/-- A mirrored write at one side. -/
def State.mirrorTo (s : State) (n off : Nat) (bs : List Byte) : State :=
  if s.sideAccepts n then (s.putSide n off bs).setSide n ((s.side n).cancel off bs.length)
  else s.each (granulesOf off bs.length) fun g u => u.markDirty n g

theorem putMirrored_eq (s : State) (off : Nat) (bs : List Byte) : s.putMirrored off bs = (s.mirrorTo 0 off bs).mirrorTo 1 off bs := rfl

/-- The dirty bits that a mirrored write sets of a side. -/
def State.mirrorFields (s : State) (off len k : Nat) : List (Fld × Nat) :=
  if s.sideAccepts k then [] else (granulesOf off len).map fun g => (dirtyBit k g, 1)

section
variable {s : State} {n off : Nat} {bs : List Byte}

theorem mirrorTo_eq (s : State) (n off : Nat) (bs : List Byte) :
    ∃ r A B sd, s.mirrorTo n off bs = { s with regs := r, memA := A, memB := B, sides := sd } := by
  unfold State.mirrorTo
  split
  · obtain ⟨A, B, h⟩ := putSide_eq s n off bs
    exact ⟨_, A, B, _, by rw [h]; rfl⟩
  · obtain ⟨r, h⟩ := markAll_eq s n (granulesOf off bs.length)
    exact ⟨r, s.memA, s.memB, s.sides, by rw [h]⟩

theorem mirrorTo_sideByte (s : State) (n m off o : Nat) (bs : List Byte) : (s.mirrorTo n off bs).sideByte m o =
    if s.sideAccepts n = true ∧ (m = 0 ↔ n = 0) ∧ off ≤ o ∧ o < off + bs.length then bs.getD (o - off) 0 else s.sideByte m o := by
  unfold State.mirrorTo
  split
  · next h =>
    have hs : ((s.putSide n off bs).setSide n ((s.side n).cancel off bs.length)).sideByte m o = (s.putSide n off bs).sideByte m o := rfl
    simp only [hs, sideByte_put, h, true_and]
  · next h =>
    obtain ⟨r, hr⟩ := markAll_eq s n (granulesOf off bs.length)
    rw [hr, if_neg fun hc => h hc.1]
    rfl

theorem mirrorTo_bit (s : State) (n off : Nat) (bs : List Byte) (a : Nat) {i : Nat} (hi : i < 32) :
    ((s.mirrorTo n off bs).reg a).getLsbD i =
      ((s.mirrorFields off bs.length n).any (fun p => p.1.covers a i) || (s.reg a).getLsbD i) := by
  unfold State.mirrorTo State.mirrorFields
  split
  · obtain ⟨A, B, h⟩ := putSide_eq s n off bs
    rw [h]
    rfl
  · rw [markAll_bit s n _ a hi, List.any_map]
    rfl

/-- No dirty bit of a granule of the device lies in another register of the sides. -/
theorem mirrorTo_reg_other {a : Nat} (ha : ∀ g ≤ 7680, a ≠ Reg.MSIDE_DIRTY n (g / 32)) (hu : off + bs.length ≤ granuleBytes * 7680) :
    (s.mirrorTo n off bs).reg a = s.reg a := by
  refine BitVec.eq_of_getLsbD_eq fun i hi => ?_
  rw [mirrorTo_bit s n off bs a hi, List.any_eq_false.2, Bool.false_or]
  intro p hp
  unfold State.mirrorFields at hp
  split at hp
  · simp at hp
  · obtain ⟨g, hg, rfl⟩ := List.mem_map.1 hp
    have hle : g ≤ 7680 := (granulesOf_le hg).trans (Nat.div_le_of_le_mul hu)
    simp [dirtyBit, Fld.covers, Ne.symm (ha g hle)]

end

end Sys2Proof.Machine
end

section
/-! PROOF. O7: a fabric write stores its bytes and nothing else, or is refused. -/

namespace Sys2Proof.Machine

/-! ### The requester -/

section
variable {s : State} {m : Master}

theorem carrier_core (h : m.kind = .core) : (s.carrier m).world = s.coreWorld m.id := by
  rw [State.carrier, State.worldOf, h]

theorem carrier_normal (h : m.kind = .guest ∨ (m.kind = .fabric ∧ (m.id.val ≤ 9 ∨ 12 ≤ m.id.val ∧ m.id.val ≤ 23))) :
    (s.carrier m).world = .normal := by
  rw [State.carrier, State.worldOf]
  rcases h with h | ⟨h, hid⟩
  · rw [h]
  · rw [h]
    rcases hid with hid | hid
    · exact if_pos hid
    · dsimp only
      rw [if_neg (by omega), if_neg (by omega), if_pos hid.2]

theorem carrier_sextant (h : m.kind = .fabric) (hid : m.id = 10 ∨ m.id = 11) : (s.carrier m).world = .secure := by
  rw [State.carrier, State.worldOf, h]
  rcases hid with hid | hid <;> rw [hid] <;> rfl

theorem carrier_debug (h : m.kind = .debug) :
    (s.carrier m).world = if m.world = .secure ∧ s.bit Reg.DBG_EN_SNI = true then .secure else .normal := by
  rw [State.carrier, State.worldOf, h]
  dsimp only
  congr 1
  simp [State.nonInvasive]

/-- R357: a write that the debug enables do not allow. -/
theorem fabricWrite_refused {a : BitVec 40} {bs : List Byte} (h : s.mayAccess (s.carrier m) true = false) :
    m.kind = .debug ∧ s.invasive (s.carrier m).world = false ∧
      Does (.fabricWrite m a bs) s { s with nextReq := s.nextReq + 1, replies := [{ id := s.nextReq }] } [] := by
  have hex : exec (.fabricWrite m a bs) s = .next (s.refuseDebug 0) := by
    change Host.Outcome.next (if (!s.mayAccess (s.carrier m) true) = true then _ else _) = _
    rw [h]
    rfl
  simp only [State.mayAccess, Bool.or_eq_false_iff, bne_eq_false_iff_eq, if_true] at h
  exact ⟨h.1, h.2, _, hex, setsOnly_refl _⟩

end

/-! ### A write that reaches memory -/

/-- A request is numbered, and the replies of the latest command are gone. -/
def State.numbered (s : State) : State := { s with nextReq := s.nextReq + 1, replies := [] }

theorem newReq_eq (s : State) : s.newReq = (s.nextReq, s.numbered) := rfl

section
variable {s u : State} {m : Master} {a : Nat} {bs : List Byte}

theorem exec_fabricWrite (hmay : s.mayAccess (s.carrier m) true = true) (ha : a < 2 ^ 40) (hr : ∀ x, region a ≠ .regs x) :
    exec (.fabricWrite m (BitVec.ofNat 40 a) bs) s = .next (s.memWrite (s.carrier m) a bs) := by
  change Host.Outcome.next (if (!s.mayAccess (s.carrier m) true) = true then _ else _) = _
  rw [hmay, toNat_addr ha, if_neg (by simp)]
  split
  · next x h => exact absurd h (hr x)
  · rfl

theorem memWrite_ok (h : s.numbered.writeMem m.world a bs = (.ok, u)) :
    s.memWrite m a bs = (u.queueWrite m a bs.length).reply { id := s.nextReq } := by
  rw [State.memWrite, newReq_eq]
  simp only [h]

theorem memWrite_dropped (h : s.numbered.writeMem m.world a bs = (.dropped, u)) :
    s.memWrite m a bs = (u.count (Reg.QOS_STATUS_DROPPED (requesterPort m true))).reply { id := s.nextReq } := by
  rw [State.memWrite, newReq_eq]
  simp only [h]

theorem memWrite_denied (h : s.numbered.writeMem m.world a bs = (.denied, u)) :
    s.memWrite m a bs = u.refuseSecure s.nextReq a bs.length m true := by
  rw [State.memWrite, newReq_eq]
  simp only [h]

theorem memWrite_decode (h : s.numbered.writeMem m.world a bs = (.decode, u) ∨ s.numbered.writeMem m.world a bs = (.mirrored, u)) :
    s.memWrite m a bs = (u.noteDecode { addr := a, type := 2, master := m }).reply { id := s.nextReq, status := .error } := by
  rw [State.memWrite, newReq_eq]
  rcases h with h | h <;> simp only [h]

/-- What a performed write leaves: the bytes and the registers of `u`, and the requester's answer. -/
theorem queued_reply (r : Reply) (hu : u.replies = []) : let t := (u.queueWrite m a bs.length).reply r
    t.replies = [r] ∧ (∀ b, t.reg b = u.reg b) ∧ (∀ k o, t.sideByte k o = u.sideByte k o) ∧ (∀ o, t.sramByte o = u.sramByte o) ∧
      ∀ o, t.flashByte o = u.flashByte o := by
  have hq := queueWrite_queued u m a bs.length
  have hreplies := hq.proj State.replies fun _ _ _ => rfl
  refine ⟨?_, fun b => hq.proj (State.reg · b) fun _ _ _ => rfl, fun k o => hq.proj (State.sideByte · k o) fun _ _ _ => rfl,
    fun o => hq.proj (State.sramByte · o) fun _ _ _ => rfl, fun o => hq.proj (State.flashByte · o) fun _ _ _ => rfl⟩
  change (u.queueWrite m a bs.length).replies ++ [r] = [r]
  rw [hreplies, hu, List.nil_append]

/-- R33: a write of management SRAM. -/
theorem fabricWrite_sram {off : Nat} (hmay : s.mayAccess (s.carrier m) true = true) (hb : 1 ≤ bs.length) (hi : off + bs.length ≤ 0x400000)
    (hs : (s.carrier m).world = .normal → s.sramSplit ≤ off) :
    Leads (.fabricWrite m (BitVec.ofNat 40 (0x0F00000000 + off)) bs) s fun t => s.SramTook off bs t ∧ s.SideTook 0 0 [] t ∧
      s.SideTook 1 0 [] t ∧ s.FlashSame t ∧ s.RegsSet [] t ∧ t.replies = [{ id := s.nextReq }] := by
  have hr : region (0x0F00000000 + off) = .sram off := region_sram (by omega)
  have hw := writeMem_sram (s := s.numbered) (w := (s.carrier m).world) hr hb hi hs
  obtain ⟨M, hM⟩ := putSram_eq s.numbered off bs
  obtain ⟨hreplies, hreg, hside, hsram, hflash⟩ := queued_reply (u := s.numbered.putSram off bs) (m := s.carrier m) (a := 0x0F00000000 + off)
    (bs := bs) { id := s.nextReq } (by rw [hM]; rfl)
  have hex := exec_fabricWrite (bs := bs) hmay (a := 0x0F00000000 + off) (by omega) (by simp [hr])
  rw [memWrite_ok hw] at hex
  refine ⟨_, hex, fun o => ?_, sideTook_nil fun o => ?_, sideTook_nil fun o => ?_, fun o => ?_, regsSet_nil fun b => ?_, hreplies⟩
  · rw [hsram, sramByte_put]; rfl
  · rw [hside, hM]; rfl
  · rw [hside, hM]; rfl
  · rw [hflash, hM]; rfl
  · rw [hreg, hM]; rfl

section
variable {n : Side} {off : Nat} (hmay : s.mayAccess (s.carrier m) true = true) (hb : 1 ≤ bs.length) (hi : off + bs.length ≤ s.usable n)
include hmay hb hi

theorem exec_fabricWrite_side : exec (.fabricWrite m (BitVec.ofNat 40 (n.val * 0x0400000000 + off)) bs) s =
    .next (s.memWrite (s.carrier m) (n.val * 0x0400000000 + off) bs) := by
  have hlt := lt_of_usable hi hb
  exact exec_fabricWrite hmay (by omega) (by simp [region_side n hlt])

/-- R34: a write through a side's range to a mirrored offset. -/
theorem fabricWrite_touchesMirrored (hm : s.touchesMirrored off bs.length = true) :
    exec (.fabricWrite m (BitVec.ofNat 40 (n.val * 0x0400000000 + off)) bs) s =
      .next ((s.numbered.noteDecode { addr := n.val * 0x0400000000 + off, type := 2, master := s.carrier m }).reply
        { id := s.nextReq, status := .error }) := by
  have hr := region_side n (lt_of_usable hi hb)
  rw [exec_fabricWrite_side hmay hb hi,
    memWrite_decode (.inr (writeMem_side_mirrored (s := s.numbered) (w := (s.carrier m).world) hr hb hi hm))]

section
variable (hm : s.touchesMirrored off bs.length = false)
  (hs : (s.carrier m).world = .normal → (granulesOf off bs.length).any s.granuleSecure = false)
include hm hs

/-- R33: a write to an unmirrored place of a side in service. -/
theorem fabricWrite_side (hup : s.sideDown n = false) :
    Leads (.fabricWrite m (BitVec.ofNat 40 (n.val * 0x0400000000 + off)) bs) s fun t => s.SideTook n off bs t ∧
      s.SideTook (1 - n.val) 0 [] t ∧ s.SramTook 0 [] t ∧ s.FlashSame t ∧ s.RegsSet [] t ∧ t.replies = [{ id := s.nextReq }] := by
  have hr := region_side n (lt_of_usable hi hb)
  have hw := writeMem_side (s := s.numbered) (w := (s.carrier m).world) hr hb hi hm hs
  have hup' : s.numbered.sideDown n = false := hup
  rw [hup', if_neg Bool.false_ne_true] at hw
  obtain ⟨A, B, hAB⟩ := putSide_eq s.numbered n off bs
  obtain ⟨hreplies, hreg, hside, hsram, hflash⟩ := queued_reply (u := s.numbered.putSide n off bs) (m := s.carrier m)
    (a := n.val * 0x0400000000 + off) (bs := bs) { id := s.nextReq } (by rw [hAB]; rfl)
  have hex := exec_fabricWrite_side hmay hb hi
  rw [memWrite_ok hw] at hex
  refine ⟨_, hex, fun o => ?_, sideTook_nil fun o => ?_, sramTook_nil fun o => ?_, fun o => ?_, regsSet_nil fun b => ?_, hreplies⟩
  · rw [hside, sideByte_put]
    simp only [iff_self, true_and]
    rfl
  · rw [hside, sideByte_put, if_neg (by omega)]
    rfl
  · rw [hsram, hAB]; rfl
  · rw [hflash, hAB]; rfl
  · rw [hreg, hAB]; rfl

/-- R240: a write to an unmirrored place of a side that is out of service. -/
theorem fabricWrite_dropped (hdown : s.sideDown n = true) :
    let dropped := Reg.QOS_STATUS_DROPPED (match m.kind with
      | .fabric => m.id.val | .core => 27 + m.id.val | .guest => 16 + 2 * m.id.val | .debug => 35)
    Does (.fabricWrite m (BitVec.ofNat 40 (n.val * 0x0400000000 + off)) bs) s
      { s with nextReq := s.nextReq + 1, replies := [{ id := s.nextReq }] } [(dropped, s.more dropped)] := by
  have hr := region_side n (lt_of_usable hi hb)
  have hw := writeMem_side (s := s.numbered) (w := (s.carrier m).world) hr hb hi hm hs
  have hdown' : s.numbered.sideDown n = true := hdown
  rw [hdown', if_pos rfl] at hw
  have hport : requesterPort (s.carrier m) true = match m.kind with
      | .fabric => m.id.val | .core => 27 + m.id.val | .guest => 16 + 2 * m.id.val | .debug => 35 := by
    rw [requesterPort, State.carrier]
    cases m.kind <;> rfl
  have hex := exec_fabricWrite_side hmay hb hi
  rw [memWrite_dropped hw, hport] at hex
  exact ⟨_, hex, setsOnly_beside (f := (State.reply · { id := s.nextReq })) (fun _ _ => rfl) (setsOnly_set (setsOnly_refl s.numbered) _ _)⟩

end

end

end

/-! ### The mirrored view -/

section
variable {s : State} {off : Nat} {bs : List Byte}

theorem mirrorTo_accepts_other (hu : off + bs.length ≤ granuleBytes * 7680) :
    (s.mirrorTo 0 off bs).sideAccepts 1 = s.sideAccepts 1 := by
  have hreg : (s.mirrorTo 0 off bs).reg (Reg.MSIDE_STATUS 1) = s.reg (Reg.MSIDE_STATUS 1) :=
    mirrorTo_reg_other (fun g hg => by unfold Reg.MSIDE_STATUS Reg.MSIDE_DIRTY reg; omega) hu
  have hside : (s.mirrorTo 0 off bs).side 1 = s.side 1 := by
    unfold State.mirrorTo
    split
    · obtain ⟨A, B, h⟩ := putSide_eq s 0 off bs
      rw [h]
      exact sget_sput_other _ _ (by decide)
    · obtain ⟨r, h⟩ := markAll_eq s 0 (granulesOf off bs.length)
      rw [h]
      rfl
  rw [State.sideAccepts, State.sideAccepts, State.sideMode, State.get, hreg, hside]
  rfl

theorem putMirrored_sideByte (hu : off + bs.length ≤ granuleBytes * 7680) {k : Nat} (hk : k < 2) (o : Nat) :
    (s.putMirrored off bs).sideByte k o =
      if s.sideAccepts k = true ∧ off ≤ o ∧ o < off + bs.length then bs.getD (o - off) 0 else s.sideByte k o := by
  rw [putMirrored_eq, mirrorTo_sideByte, mirrorTo_sideByte, mirrorTo_accepts_other hu]
  obtain rfl | rfl : k = 0 ∨ k = 1 := by omega
  · simp
  · simp

theorem putMirrored_bit (hu : off + bs.length ≤ granuleBytes * 7680) (a : Nat) {i : Nat} (hi : i < 32) :
    ((s.putMirrored off bs).reg a).getLsbD i =
      (((List.range 2).flatMap (s.mirrorFields off bs.length)).any (fun p => p.1.covers a i) || (s.reg a).getLsbD i) := by
  have h1 : (s.mirrorTo 0 off bs).mirrorFields off bs.length 1 = s.mirrorFields off bs.length 1 := by
    rw [State.mirrorFields, mirrorTo_accepts_other hu, State.mirrorFields]
  have hl : (List.range 2).flatMap (s.mirrorFields off bs.length) = s.mirrorFields off bs.length 0 ++ s.mirrorFields off bs.length 1 := by
    simp [List.range_succ]
  rw [putMirrored_eq, mirrorTo_bit _ 1 off bs a hi, mirrorTo_bit s 0 off bs a hi, h1, hl, List.any_append]
  cases (s.mirrorFields off bs.length 0).any fun p => p.1.covers a i <;> simp

theorem mirrorFields_ones (s : State) (off len : Nat) (ks : List Nat) :
    ∀ p ∈ ks.flatMap (s.mirrorFields off len), p.2 = 1 ∧ p.1.width = 1 := by
  intro p hp
  obtain ⟨k, -, hp⟩ := List.mem_flatMap.1 hp
  unfold State.mirrorFields at hp
  split at hp
  · simp at hp
  · obtain ⟨g, -, rfl⟩ := List.mem_map.1 hp
    exact ⟨rfl, rfl⟩

theorem putMirrored_regsSet (hu : off + bs.length ≤ granuleBytes * 7680) :
    s.RegsSet ((List.range 2).flatMap (s.mirrorFields off bs.length)) (s.putMirrored off bs) := fun a i hi => by
  rw [putMirrored_bit hu a hi, bitAfter_ones (mirrorFields_ones s off bs.length _)]

theorem putMirrored_isDirty (hu : off + bs.length ≤ granuleBytes * 7680) {k g : Nat} (hk : k < 2) (hacc : s.sideAccepts k = false)
    (hg : g ∈ granulesOf off bs.length) : (s.putMirrored off bs).isDirty k g = true := by
  have hlt : g % 32 < 32 := Nat.mod_lt _ (by decide)
  rw [State.isDirty, bitOf_toNat, putMirrored_bit hu _ hlt, List.any_eq_true.2, Bool.true_or]
  refine ⟨(dirtyBit k g, 1), List.mem_flatMap.2 ⟨k, List.mem_range.2 hk, ?_⟩, by simp [dirtyBit, Fld.covers]⟩
  rw [State.mirrorFields, hacc, if_neg Bool.false_ne_true]
  exact List.mem_map.2 ⟨g, hg, rfl⟩

theorem putMirrored_rest (s : State) (off : Nat) (bs : List Byte) : (s.putMirrored off bs).replies = s.replies ∧
    (∀ o, (s.putMirrored off bs).sramByte o = s.sramByte o) ∧ ∀ o, (s.putMirrored off bs).flashByte o = s.flashByte o := by
  obtain ⟨r, A, B, sd, h⟩ := mirrorTo_eq s 0 off bs
  obtain ⟨r', A', B', sd', h'⟩ := mirrorTo_eq (s.mirrorTo 0 off bs) 1 off bs
  rw [putMirrored_eq, h', h]
  exact ⟨rfl, fun _ => rfl, fun _ => rfl⟩

/-- R216, R237: a write in the mirrored view. -/
theorem fabricWrite_mirror {m : Master} (hmay : s.mayAccess (s.carrier m) true = true) (hb : 1 ≤ bs.length)
    (h0 : off + bs.length ≤ s.usable 0) (h1 : off + bs.length ≤ s.usable 1) (hm : s.mirrored off bs.length = true)
    (hs : (s.carrier m).world = .normal → (granulesOf off bs.length).any s.granuleSecure = false) :
    Leads (.fabricWrite m (BitVec.ofNat 40 (0x0800000000 + off)) bs) s fun t => t.replies = [{ id := s.nextReq }] ∧
      (∀ k < 2, if s.sideAccepts k then s.SideTook k off bs t
        else s.SideTook k 0 [] t ∧ ∀ g ∈ granulesOf off bs.length, t.isDirty k g = true) ∧
      s.RegsSet ((List.range 2).flatMap (s.mirrorFields off bs.length)) t ∧ s.SramTook 0 [] t ∧ s.FlashSame t := by
  have hlt := lt_of_usable h0 hb
  have hu : off + bs.length ≤ granuleBytes * 7680 := h0.trans (usable_le s 0)
  have hr : region (0x0800000000 + off) = .mirror off := region_mirror hlt
  have hw := writeMem_mirror (s := s.numbered) (w := (s.carrier m).world) hr hb h0 h1 hm hs
  obtain ⟨hrep, hsram', hflash'⟩ := putMirrored_rest s.numbered off bs
  obtain ⟨hreplies, hreg, hside, hsram, hflash⟩ := queued_reply (u := s.numbered.putMirrored off bs) (m := s.carrier m)
    (a := 0x0800000000 + off) (bs := bs) { id := s.nextReq } hrep
  have hex := exec_fabricWrite (bs := bs) hmay (a := 0x0800000000 + off) (by omega) (by simp [hr])
  rw [memWrite_ok hw] at hex
  refine ⟨_, hex, hreplies, fun k hk => ?_, fun a i hi => ?_, sramTook_nil fun o => ?_, fun o => ?_⟩
  · cases hacc : s.sideAccepts k with
    | true =>
      rw [if_pos rfl]
      intro o
      rw [hside, putMirrored_sideByte hu hk, show s.numbered.sideAccepts k = true from hacc]
      simp only [true_and]
      rfl
    | false =>
      rw [if_neg Bool.false_ne_true]
      refine ⟨sideTook_nil fun o => ?_, fun g hg => ?_⟩
      · rw [hside, putMirrored_sideByte hu hk, show s.numbered.sideAccepts k = false from hacc, if_neg (by simp)]
        rfl
      · rw [State.isDirty, hreg]
        exact putMirrored_isDirty (s := s.numbered) hu hk hacc hg
  · rw [hreg]
    exact putMirrored_regsSet (s := s.numbered) hu a i hi
  · rw [hsram, hsram']; rfl
  · rw [hflash, hflash']; rfl

end

/-! ### Accesses that are not performed -/

section
variable {s : State} {m : Master} {off : Nat} {bs : List Byte} {len : Nat}

/-- R33: a write to an address that is not decoded. -/
theorem fabricWrite_undecoded (hmay : s.mayAccess (s.carrier m) true = true) (hb : 1 ≤ bs.length) (h : 0x0F00400000 ≤ off)
    (h' : off < 0x0FF0000000) : exec (.fabricWrite m (BitVec.ofNat 40 off) bs) s =
      .next ((s.numbered.noteDecode { addr := off, type := 2, master := s.carrier m }).reply { id := s.nextReq, status := .error }) := by
  have hr := region_undecoded h h'
  rw [exec_fabricWrite hmay (by omega) (by simp [hr]),
    memWrite_decode (.inl (writeMem_undecoded (s := s.numbered) (w := (s.carrier m).world) hr hb))]

theorem installed_undecoded {a : Nat} (hr : region a = .undecoded) : s.installed a len = false := by rw [State.installed, hr]

theorem tagLines_uninstalled {a : Nat} (h : s.installed a len = false) : s.tagLines m a len = s := by
  unfold State.tagLines
  split
  · rfl
  · rw [h]
    simp

/-- R33: a read of an address that is not decoded. -/
theorem fabricRead_undecoded (hmay : s.mayAccess (s.carrier m) false = true) (h : 0x0F00400000 ≤ off) (h' : off < 0x0FF0000000) :
    exec (.fabricRead (.addr m (BitVec.ofNat 40 off)) len) s =
      .next ((s.numbered.noteDecode { addr := off, type := 1, master := s.carrier m }).reply
        { id := s.nextReq, status := .error, data := List.replicate len 0 }) := by
  have hr := region_undecoded h h'
  have hi : s.installed off len = false := installed_undecoded hr
  change Host.Outcome.next (if (!s.mayAccess (s.carrier m) false) = true then _ else _) = _
  rw [hmay, toNat_addr (by omega), hr, if_neg (by simp)]
  dsimp only
  rw [tagLines_uninstalled hi, State.memRead, hi]
  rfl

/-- R335: a write of the normal world to secure management SRAM. -/
theorem exec_fabricWrite_denied (hmay : s.mayAccess (s.carrier m) true = true) (hb : 1 ≤ bs.length) (hi : off + bs.length ≤ 0x400000)
    (hw : (s.carrier m).world = .normal) (hs : off < s.sramSplit) :
    exec (.fabricWrite m (BitVec.ofNat 40 (0x0F00000000 + off)) bs) s =
      .next (s.numbered.refuseSecure s.nextReq (0x0F00000000 + off) bs.length (s.carrier m) true) := by
  have hr : region (0x0F00000000 + off) = .sram off := region_sram (by omega)
  rw [exec_fabricWrite hmay (by omega) (by simp [hr]), memWrite_denied (writeMem_sram_denied (s := s.numbered) hr hb hi hw hs)]

theorem refuseSecure_unit {id a : Nat} (hk : m.kind = .fabric) (hc : masterCore m = none) :
    s.refuseSecure id a len m true = s.reply { id := id } := by
  rw [State.refuseSecure, hk, hc]
  rfl

theorem refuseSecure_core {id a : Nat} (hc : (masterCore m).isSome = true) :
    s.refuseSecure id a len m true = (s.noteSecmem { addr := a, type := 2, master := m }).reply { id := id, status := .error } := by
  obtain ⟨c, hc⟩ := Option.isSome_iff_exists.1 hc
  have hk : m.kind ≠ .guest := fun h => by simp [masterCore, h] at hc
  rw [State.refuseSecure, hc]
  cases h : m.kind with
  | guest => exact absurd h hk
  | fabric => rfl
  | core => rfl
  | debug => rfl

theorem masterCore_carrier (s : State) (m : Master) : masterCore (s.carrier m) = masterCore m := rfl

end

/-- Settles O7. -/
theorem fabricWriteStoresOrIsRefused : Obligations.FabricWriteStoresOrIsRefused := by
  refine ⟨fun s m off n bs => ?_, fun s m off n bs len hb hlen hmay hread => ⟨fun h h' => ?_, fun hi hm => ?_, fun hi hw hs => ?_⟩⟩
  · exact ⟨carrier_core, carrier_normal, carrier_sextant, carrier_debug, fabricWrite_refused, fun hb hmay =>
      ⟨fabricWrite_sram hmay hb, fun hi hm hup hs => fabricWrite_side hmay hb hi hm hs hup, fabricWrite_mirror hmay hb,
        fun hi hm hdown hs => fabricWrite_dropped hmay hb hi hm hs hdown⟩⟩
  · exact ⟨fabricWrite_undecoded hmay hb h h', fabricRead_undecoded hread h h'⟩
  · exact fabricWrite_touchesMirrored hmay hb hi hm
  · have hex := exec_fabricWrite_denied hmay hb hi hw hs
    refine ⟨fun hk hc => ⟨_, hex, ?_⟩, fun hc => ?_⟩
    · rw [refuseSecure_unit (m := s.carrier m) hk hc]
      exact setsOnly_refl _
    · rw [hex, refuseSecure_core (m := s.carrier m) hc]
      rfl

end Sys2Proof.Machine
end

section
/-! PROOF. O8: a fabric read returns the bytes of memory. -/

namespace Sys2Proof.Machine

/-! ### The tagged lines of a core (R334) -/

/-- State `t` is `s` with other tagged lines, and with free values drawn for their pages. -/
def State.OnlyTags (s t : State) : Prop := { t with tags := s.tags, drawn := s.drawn } = s

section
variable {s t : State}

theorem State.OnlyTags.trans {u : State} (h : s.OnlyTags t) (h' : t.OnlyTags u) : s.OnlyTags u := by
  have e := congrArg (fun x : State => { x with tags := s.tags, drawn := s.drawn }) h'
  exact e.trans h

theorem State.OnlyTags.proj {β : Type} (h : s.OnlyTags t) (p : State → β)
    (hp : ∀ (x : State) T d, p { x with tags := T, drawn := d } = p x) : p t = p s :=
  (hp t s.tags s.drawn).symm.trans (congrArg p h)

theorem tagMake_onlyTags (s : State) (k : TagKind) (c key : Nat) (w : World) : s.OnlyTags (s.tagMake k c key w) := by
  unfold State.tagMake
  split <;> rfl

theorem tagPage_onlyTags (s : State) (c : Nat) (w : World) : s.OnlyTags (s.tagPage c w) := by
  unfold State.tagPage
  split
  · exact State.OnlyTags.trans (t := s.draw.2) rfl (tagMake_onlyTags s.draw.2 .tlb c _ w)
  · rfl

theorem tagLines_onlyTags (s : State) (m : Master) (a len : Nat) : s.OnlyTags (s.tagLines m a len) := by
  unfold State.tagLines
  split
  · rfl
  · next c _ =>
    split
    · rfl
    · refine (tagPage_onlyTags s c m.world).trans ?_
      generalize s.tagPage c m.world = u
      unfold State.each
      induction List.range ((a + len - 1) / 64 - a / 64 + 1) generalizing u with
      | nil => rfl
      | cons i l ih => exact ((tagMake_onlyTags u _ _ _ _).trans (tagMake_onlyTags _ _ _ _ _)).trans (ih _)

theorem tagHit_iff {k : TagKind} {c key : Nat} {w : World} :
    s.tagHit k c key w = true ↔ ({ kind := k, core := c, key := key, world := w } : Tagged) ∈ s.tags := by
  simp [State.tagHit]

theorem tagHit_tagMake (s : State) (k : TagKind) (c key : Nat) (w : World) : (s.tagMake k c key w).tagHit k c key w = true := by
  unfold State.tagMake
  split
  · assumption
  · simp [State.tagHit]

/-- A new entry leaves those of other arrays. -/
theorem tagHit_tagMake_kept {k j : TagKind} {c d key key' : Nat} {w w' : World} (hk : k ≠ j) (h : s.tagHit k c key w = true) :
    (s.tagMake j d key' w').tagHit k c key w = true := by
  unfold State.tagMake
  split
  · exact h
  · rw [tagHit_iff] at h ⊢
    simp [h, hk]

/-- A lookup that finds more after an entry is made finds that entry. -/
theorem tagHit_of_tagMake {k j : TagKind} {c d key key' : Nat} {w w' : World} (hw : w ≠ w')
    (h : (s.tagMake j d key' w').tagHit k c key w = true) : s.tagHit k c key w = true := by
  unfold State.tagMake at h
  split at h
  · exact h
  · rw [tagHit_iff] at h ⊢
    have hne : ({ kind := k, core := c, key := key, world := w } : Tagged) ≠ { kind := j, core := d, key := key', world := w' } := by
      simp [hw]
    rw [List.mem_append, List.mem_cons, or_iff_right hne] at h
    rcases h with h | h
    · split at h
      · exact List.mem_of_mem_filter (List.mem_of_mem_take h)
      · exact List.mem_of_mem_filter h
    · exact List.mem_of_mem_filter h

theorem tagHit_of_tagPage {k : TagKind} {c d key : Nat} {w w' : World} (hw : w ≠ w') (h : (s.tagPage d w').tagHit k c key w = true) :
    s.tagHit k c key w = true := by
  unfold State.tagPage at h
  split at h
  · exact tagHit_of_tagMake (s := s.draw.2) hw h
  · exact h

end

/-! ### Reads within a line -/

theorem lines_one {a len : Nat} (hlen : 1 ≤ len) (hline : a % 64 + len ≤ 64) : (a + (len - 1)) / 64 - a / 64 + 1 = 1 := by omega

theorem linePieces_one {a len : Nat} (hlen : 1 ≤ len) (hline : a % 64 + len ≤ 64) : linePieces a len = [(a, len)] := by
  rw [linePieces, if_neg (by omega), lines_one hlen hline]
  simp only [List.range_one, List.map_cons, List.map_nil, Nat.add_zero]
  rw [show max a (a / 64 * 64) = a by omega, show min (a + len) ((a / 64 + 1) * 64) - a = len by omega]

section
variable {s : State} {m : Master} {a off len : Nat}

theorem exec_fabricRead (hmay : s.mayAccess (s.carrier m) false = true) (ha : a < 2 ^ 40) (hr : ∀ x, region a ≠ .regs x) :
    exec (.fabricRead (.addr m (BitVec.ofNat 40 a)) len) s =
      .next ((s.tagLines (s.carrier m) a len).memRead (s.carrier m) a len) := by
  change Host.Outcome.next (if (!s.mayAccess (s.carrier m) false) = true then _ else _) = _
  rw [hmay, toNat_addr ha, if_neg (by simp)]
  split
  · next x h => exact absurd h (hr x)
  · rfl

theorem installed_sram (hr : region a = .sram off) (hi : off + len ≤ 0x400000) : s.installed a len = true := by
  simp [State.installed, hr, hi]

theorem installed_side {n : Nat} (hr : region a = .side n off) (hi : off + len ≤ s.usable n) : s.installed a len = true := by
  simp [State.installed, hr, hi]

theorem installed_mirror (hr : region a = .mirror off) (h0 : off + len ≤ s.usable 0) (h1 : off + len ≤ s.usable 1)
    (hm : s.mirrored off len = true) : s.installed a len = true := by simp [State.installed, hr, h0, h1, hm]

theorem tagLines_unit (h : masterCore m = none) : s.tagLines m a len = s := by rw [State.tagLines, h]

theorem tagLines_of_poisoned (h : s.readPoisoned a len = true) : s.tagLines m a len = s := by
  unfold State.tagLines
  split
  · rfl
  · rw [h]
    simp

theorem memRead_poison (hi : s.installed a len = true) (hs : ¬(m.world = .normal ∧ s.secureMem a len = true))
    (hp : s.readPoisoned a len = true) : s.memRead m a len = s.numbered.reply { id := s.nextReq, status := .poison } := by
  rw [State.memRead, hi, if_neg (by simp), if_neg hs, if_pos hp]
  rfl

/-- A read that no side out of service serves enters a channel. -/
theorem memRead_queued (hi : s.installed a len = true) (hs : ¬(m.world = .normal ∧ s.secureMem a len = true))
    (hp : s.readPoisoned a len = false) (hr : (∃ n x, region a = .side n x) ∨ ∃ x, region a = .mirror x) :
    s.memRead m a len = ({ s with replies := [] } : State).queueRead m a len none := by
  rw [State.memRead, hi, if_neg (by simp), if_neg hs, if_neg (by simp [hp])]
  rcases hr with ⟨n, x, hr⟩ | ⟨x, hr⟩ <;> rw [hr]

theorem memRead_sram (hr : region a = .sram off) (hi : off + len ≤ 0x400000) (hs : m.world = .normal → s.sramSplit ≤ off) :
    s.memRead m a len = s.numbered.reply { id := s.nextReq, data := (List.range len).map fun i => s.sramByte (off + i) } := by
  have hinst := installed_sram (s := s) hr hi
  have hsec : ¬(m.world = .normal ∧ s.secureMem a len = true) := by
    rintro ⟨hw, h⟩
    simp only [State.secureMem, hr, decide_eq_true_eq] at h
    exact absurd (hs hw) (by omega)
  have hpoison : s.readPoisoned a len = false := by rw [State.readPoisoned, hr]
  have hdata : s.readBytes m.world a len = some ((List.range len).map fun i => s.sramByte (off + i)) := by
    rw [State.readBytes, State.readMem, hinst, if_neg (by simp), if_neg hsec, hr]
  rw [State.memRead, hinst, if_neg (by simp), if_neg hsec, if_neg (by simp [hpoison]), hr]
  simp only [hdata]
  rfl

end

/-! ### Management SRAM -/

section
variable {s : State} {m : Master} {off len : Nat} (hmay : s.mayAccess (s.carrier m) false = true) (hi : off + len ≤ 0x400000) (hlen : 1 ≤ len)
  (hs : (s.carrier m).world = .normal → s.sramSplit ≤ off)
include hmay hi hlen hs

/-- R33, R334: a read of management SRAM. -/
theorem fabricRead_sram : exec (.fabricRead (.addr m (BitVec.ofNat 40 (0x0F00000000 + off))) len) s =
    .next { s.tagLines (s.carrier m) (0x0F00000000 + off) len with
      nextReq := s.nextReq + 1, replies := [{ id := s.nextReq, data := (List.range len).map fun i => s.sramByte (off + i) }] } := by
  have hr : region (0x0F00000000 + off) = .sram off := region_sram (by omega)
  have htags := tagLines_onlyTags s (s.carrier m) (0x0F00000000 + off) len
  have hsplit := htags.proj State.sramSplit fun _ _ _ => rfl
  rw [exec_fabricRead hmay (by omega) (by simp [hr]), memRead_sram hr hi (by rwa [hsplit])]
  have hnext := htags.proj State.nextReq fun _ _ _ => rfl
  have hbyte := htags.proj State.sramByte fun _ _ _ => rfl
  rw [State.numbered, hnext, hbyte]
  rfl

omit hmay in
/-- R334: a core's read brings its line into its L1 and the shared L2, for its world alone. -/
theorem fabricRead_tags (hline : off % 64 + len ≤ 64) (hk : m.kind = .core) (hid : m.id.val < 5) :
    let tagged := s.tagLines (s.carrier m) (0x0F00000000 + off) len
    (tagged.tagHit .l1 m.id ((0x0F00000000 + off) / 64) (s.coreWorld m.id) &&
      tagged.tagHit .l2 5 ((0x0F00000000 + off) / 64) (s.coreWorld m.id)) = true ∧
    ∀ w ≠ s.coreWorld m.id, ∀ k i, tagged.tagHit k i ((0x0F00000000 + off) / 64) w = true →
      s.tagHit k i ((0x0F00000000 + off) / 64) w = true := by
  have hr : region (0x0F00000000 + off) = .sram off := region_sram (by omega)
  have hw : (s.carrier m).world = s.coreWorld m.id := carrier_core hk
  have hcore : masterCore (s.carrier m) = some m.id.val := by rw [masterCore_carrier, masterCore, hk]; exact if_pos hid
  have hinst := installed_sram (s := s) hr hi
  have hsec : (decide ((s.carrier m).world = .normal) && s.secureMem (0x0F00000000 + off) len) = false := by
    simp only [State.secureMem, hr, Bool.and_eq_false_imp, decide_eq_true_eq, decide_eq_false_iff_not, not_lt]
    exact hs
  have hpoison : s.readPoisoned (0x0F00000000 + off) len = false := by rw [State.readPoisoned, hr]
  have hone : List.range ((0x0F00000000 + off + len - 1) / 64 - (0x0F00000000 + off) / 64 + 1) = [0] := by
    rw [show (0x0F00000000 + off + len - 1) / 64 - (0x0F00000000 + off) / 64 + 1 = 1 by omega]
    rfl
  have htagged : s.tagLines (s.carrier m) (0x0F00000000 + off) len =
      ((s.tagPage m.id (s.coreWorld m.id)).tagMake .l1 m.id ((0x0F00000000 + off) / 64) (s.coreWorld m.id)).tagMake .l2 5
        ((0x0F00000000 + off) / 64) (s.coreWorld m.id) := by
    rw [State.tagLines, hcore]
    dsimp only
    rw [if_neg (by rw [hinst, hsec, hpoison]; simp; omega), hone, hw]
    rfl
  rw [htagged]
  refine ⟨Bool.and_eq_true_iff.2 ⟨tagHit_tagMake_kept (by decide) (tagHit_tagMake _ _ _ _ _), tagHit_tagMake _ _ _ _ _⟩, ?_⟩
  exact fun w hne k i h => tagHit_of_tagPage hne (tagHit_of_tagMake hne (tagHit_of_tagMake hne h))

end

/-! ### Reads that enter a channel -/

section
variable {s u t : State} {m : Master} {a off len : Nat}

@[simp] theorem State.chan_setChan_same (s : State) (n c : Nat) (r : Chan) : (s.setChan n c r).chan n c = r := by
  rw [State.chan, State.setChan, State.side, State.setSide, sget_sput_same, sget_sput_same]

theorem accept_readQ {n : Nat} {r : MemReq} (h : r.write = false) : ((s.accept n off r).chan n (dramPlace off).ch).readQ =
    (s.chan n (dramPlace off).ch).readQ ++ [{ r with bank := (dramPlace off).bank, row := (dramPlace off).row }] := by
  unfold State.accept
  simp only [h, State.chan_setChan_same]
  rfl

/-- The request of one line's part of a read, of side `n`. -/
def State.lineRead (s : State) (m : Master) (mirrored : Bool) (n base off len : Nat) : MemReq :=
  { id := s.nextReq, addr := base + off, len := len, mirrored := mirrored, port := requesterPort m false, master := m,
    data := s.sideBytes n off len, tag := s.nextReq, bank := (dramPlace off).bank, row := (dramPlace off).row }

theorem readPiece_readQ (s : State) (m : Master) (mirrored : Bool) (n k base off len : Nat)
    (hk : (if mirrored then (s.servingSide off).getD n else n) = k) :
    s.lineRead m mirrored k base off len ∈ ((s.readPiece m mirrored n base none (base + off, len)).chan k (dramPlace off).ch).readQ := by
  unfold State.readPiece
  dsimp only
  rw [Nat.add_sub_cancel_left, hk]
  change _ ∈ ((s.accept k off _).chan k _).readQ
  rw [accept_readQ rfl]
  exact List.mem_append_right _ (List.mem_singleton.2 rfl)

theorem sideBytes_started {n : Nat} (h : s.sideStarting n = false) :
    s.sideBytes n off len = (List.range len).map fun i => s.sideByte n (off + i) := by
  rw [State.sideBytes, h, if_neg Bool.false_ne_true]

/-- What a read in a channel's queue has changed. -/
theorem queued_setsAnd (htags : s.OnlyTags u) (hq : ({ u with replies := [] } : State).Queued t) :
    s.RegsSet [] t ∧ s.SameBytes t ∧ t.replies = [] := by
  have hreg : t.regs = s.regs := (hq.proj State.regs fun _ _ _ => rfl).trans (htags.proj State.regs fun _ _ _ => rfl)
  refine ⟨regsSet_nil fun b => State.reg_congr hreg b, ⟨fun n o => ?_, fun o => ?_, fun o => ?_⟩, hq.proj State.replies fun _ _ _ => rfl⟩
  · exact (hq.proj (State.sideByte · n o) fun _ _ _ => rfl).trans (htags.proj (State.sideByte · n o) fun _ _ _ => rfl)
  · exact (hq.proj (State.sramByte · o) fun _ _ _ => rfl).trans (htags.proj (State.sramByte · o) fun _ _ _ => rfl)
  · exact (hq.proj (State.flashByte · o) fun _ _ _ => rfl).trans (htags.proj (State.flashByte · o) fun _ _ _ => rfl)

end

section
variable {s : State} {m : Master} {off len : Nat}

/-- The state in which a read enters its channel: the lines are tagged, and the replies of the latest command are gone. -/
def State.readState (s : State) (m : Master) (a len : Nat) : State := { s.tagLines m a len with replies := [] }

/-- What depends neither on the tagged lines, nor on the free values, nor on the replies. -/
theorem readState_proj {β : Type} (s : State) (m : Master) (a len : Nat) (p : State → β)
    (hp : ∀ (x : State) T d r, p { x with tags := T, drawn := d, replies := r } = p x) : p (s.readState m a len) = p s :=
  (hp _ (s.tagLines m a len).tags (s.tagLines m a len).drawn []).trans
    ((tagLines_onlyTags s m a len).proj p fun x T d => hp x T d x.replies)

/-- A read within a line, which a side in service serves: its request in the channel. -/
theorem fabricRead_queues {a n k base : Nat} {mirrored : Bool} (hmay : s.mayAccess (s.carrier m) false = true) (ha : a < 2 ^ 40)
    (hi : s.installed a len = true) (hs : ¬((s.carrier m).world = .normal ∧ s.secureMem a len = true)) (hp : s.readPoisoned a len = false)
    (hr : (∃ n x, region a = .side n x) ∨ ∃ x, region a = .mirror x) (hstart : s.sideStarting k = false) (hbase : a = base + off)
    (hqueue : (s.readState (s.carrier m) a len).queueRead (s.carrier m) a len none =
      (s.readState (s.carrier m) a len).readPiece (s.carrier m) mirrored n base none (a, len))
    (hk : (if mirrored then (s.servingSide off).getD n else n) = k) :
    SetsAnd (.fabricRead (.addr m (BitVec.ofNat 40 a)) len) s [] fun t => t.replies = [] ∧
      ∃ r ∈ (t.chan k (dramPlace off).ch).readQ, r.id = s.nextReq ∧ r.len = len ∧ r.addr = a ∧ r.mirrored = mirrored ∧
        r.tag = s.nextReq ∧ r.data = (List.range len).map fun i => s.sideByte k (off + i) := by
  subst hbase
  have htags := tagLines_onlyTags s (s.carrier m) (base + off) len
  have hi' := (htags.proj (State.installed · (base + off) len) fun _ _ _ => rfl).trans hi
  have hs' := (htags.proj (State.secureMem · (base + off) len) fun _ _ _ => rfl)
  have hp' := (htags.proj (State.readPoisoned · (base + off) len) fun _ _ _ => rfl).trans hp
  have hserve := readState_proj s (s.carrier m) (base + off) len (State.servingSide · off) fun _ _ _ _ => rfl
  have hnext := readState_proj s (s.carrier m) (base + off) len State.nextReq fun _ _ _ _ => rfl
  have hdata := readState_proj s (s.carrier m) (base + off) len (State.sideBytes · k off len) fun _ _ _ _ => rfl
  have hex := exec_fabricRead (len := len) hmay ha (by rcases hr with ⟨n, x, h⟩ | ⟨x, h⟩ <;> simp [h])
  rw [memRead_queued hi' (by rwa [hs']) hp' hr, ← State.readState] at hex
  obtain ⟨hregs, hbytes, hreplies⟩ := queued_setsAnd htags (queueRead_queued (s.readState (s.carrier m) (base + off) len) (s.carrier m)
    (base + off) len none)
  refine ⟨_, hex, hregs, hbytes, hreplies,
    (s.readState (s.carrier m) (base + off) len).lineRead (s.carrier m) mirrored k base off len, ?_, ?_⟩
  · rw [hqueue]
    exact readPiece_readQ _ _ _ n k base off len (by rw [hserve, hk])
  · rw [State.lineRead, hnext, hdata, sideBytes_started hstart]
    exact ⟨rfl, rfl, rfl, rfl, rfl, rfl⟩

/-- R236, R243: a read that only sides out of service could serve. -/
theorem fabricRead_poison {a : Nat} (hmay : s.mayAccess (s.carrier m) false = true) (ha : a < 2 ^ 40) (hr : ∀ x, region a ≠ .regs x)
    (hi : s.installed a len = true) (hs : ¬((s.carrier m).world = .normal ∧ s.secureMem a len = true)) (hp : s.readPoisoned a len = true) :
    Does (.fabricRead (.addr m (BitVec.ofNat 40 a)) len) s
      { s with nextReq := s.nextReq + 1, replies := [{ id := s.nextReq, status := .poison }] } [] := by
  have hex := exec_fabricRead (len := len) hmay ha hr
  rw [tagLines_of_poisoned hp, memRead_poison hi hs hp] at hex
  exact ⟨_, hex, setsOnly_refl _⟩

/-- R335: what the premise on secure granules says of a range of the sides. -/
theorem not_secure {a : Nat} (hr : (∃ n, region a = .side n off) ∨ region a = .mirror off)
    (hs : (s.carrier m).world = .normal → (granulesOf off len).any s.granuleSecure = false) :
    ¬((s.carrier m).world = .normal ∧ s.secureMem a len = true) := by
  rintro ⟨hw, h⟩
  have hany : (granulesOf off len).any s.granuleSecure = true := by
    rcases hr with ⟨n, hr⟩ | hr <;> rwa [State.secureMem, hr] at h
  exact absurd (hany.symm.trans (hs hw)) (by simp)

section
variable (hmay : s.mayAccess (s.carrier m) false = true) (hlen : 1 ≤ len)
  (hs : (s.carrier m).world = .normal → (granulesOf off len).any s.granuleSecure = false)
include hmay hlen hs

omit hmay hlen hs in
theorem sideBase_eq (n : Side) : (if n.val = 0 then 0 else 0x0400000000) = n.val * 0x0400000000 := by revert n; decide

omit hmay hlen hs in
theorem queueRead_side {n : Side} {a : Nat} (hr : region a = .side n off) (hpieces : linePieces a len = [(a, len)]) :
    s.queueRead m a len none = s.readPiece m false n (n.val * 0x0400000000) none (a, len) := by
  rw [← sideBase_eq, State.queueRead, hr, hpieces]
  rfl

/-- R33, R236: a read of one side. -/
theorem fabricRead_side {n : Side} (hline : off % 64 + len ≤ 64) (hi : off + len ≤ s.usable n) :
    (s.sideDown n = true →
      Does (.fabricRead (.addr m (BitVec.ofNat 40 (n.val * 0x0400000000 + off))) len) s
        { s with nextReq := s.nextReq + 1, replies := [{ id := s.nextReq, status := .poison }] } []) ∧
    (s.sideDown n = false → s.sideStarting n = false →
      SetsAnd (.fabricRead (.addr m (BitVec.ofNat 40 (n.val * 0x0400000000 + off))) len) s [] fun t => t.replies = [] ∧
        ∃ r ∈ (t.chan n (dramPlace off).ch).readQ, r.id = s.nextReq ∧ r.len = len ∧
          r.addr = n.val * 0x0400000000 + off ∧ r.mirrored = false ∧
          r.tag = s.nextReq ∧
          r.data = (List.range len).map fun i => s.sideByte n (off + i)) := by
  have hlt := lt_of_usable hi hlen
  have hr := region_side n hlt
  have hinst := installed_side hr hi
  have hsec := not_secure (.inl ⟨_, hr⟩) hs
  have hpoison : s.readPoisoned (n.val * 0x0400000000 + off) len = s.sideDown n := by rw [State.readPoisoned, hr]
  refine ⟨fun hdown => ?_, fun hup hstart => ?_⟩
  · exact fabricRead_poison hmay (by omega) (by simp [hr]) hinst hsec (hpoison.trans hdown)
  · refine fabricRead_queues (n := n) hmay (by omega) hinst hsec (hpoison.trans hup) (.inl ⟨_, _, hr⟩) hstart (mirrored := false) rfl ?_
      (if_neg Bool.false_ne_true)
    exact queueRead_side hr (linePieces_one hlen (by omega))

omit hmay hlen hs in
theorem servingSide_eq (s : State) (o : Nat) : s.servingSide o =
    if s.sideDown (o / 0x1000 % 2) = true then if s.sideDown (1 - o / 0x1000 % 2) = true then none else some (1 - o / 0x1000 % 2)
    else some (o / 0x1000 % 2) := by
  rw [State.servingSide, stripeSide]
  cases s.sideDown (o / 0x1000 % 2) <;> cases s.sideDown (1 - o / 0x1000 % 2) <;> rfl

omit hmay hlen hs in
/-- One of the two sides serves every mirrored read while it is in service. -/
theorem servingSide_isSome {k : Nat} (hk : k < 2) (hup : s.sideDown k = false) (o : Nat) : (s.servingSide o).isSome = true := by
  rw [servingSide_eq]
  obtain h | h : o / 0x1000 % 2 = k ∨ 1 - o / 0x1000 % 2 = k := by omega
  · rw [h, hup]
    rfl
  · rw [h, hup]
    split <;> rfl

/-- R217, R236: a read in the mirrored view. -/
theorem fabricRead_mirror (hline : off % 64 + len ≤ 64) (h0 : off + len ≤ s.usable 0) (h1 : off + len ≤ s.usable 1)
    (hm : s.mirrored off len = true) :
    let own := off / 0x1000 % 2
    let k := if s.sideDown own then 1 - own else own
    (s.sideDown 0 = true → s.sideDown 1 = true → Does (.fabricRead (.addr m (BitVec.ofNat 40 (0x0800000000 + off))) len) s
      { s with nextReq := s.nextReq + 1, replies := [{ id := s.nextReq, status := .poison }] } []) ∧
    (s.sideDown k = false → s.sideStarting k = false →
      SetsAnd (.fabricRead (.addr m (BitVec.ofNat 40 (0x0800000000 + off))) len) s [] fun t => t.replies = [] ∧
        ∃ r ∈ (t.chan k (dramPlace off).ch).readQ, r.id = s.nextReq ∧ r.len = len ∧ r.addr = 0x0800000000 + off ∧
          r.mirrored = true ∧ r.tag = s.nextReq ∧ r.data = (List.range len).map fun i => s.sideByte k (off + i)) := by
  intro own k
  have hlt := lt_of_usable h0 hlen
  have hr : region (0x0800000000 + off) = .mirror off := region_mirror hlt
  have hinst := installed_mirror hr h0 h1 hm
  have hsec := not_secure (.inr hr) hs
  refine ⟨fun hA hB => ?_, fun hup hstart => ?_⟩
  · have hdown : ∀ n < 2, s.sideDown n = true := fun n hn => by
      obtain rfl | rfl : n = 0 ∨ n = 1 := by omega
      · exact hA
      · exact hB
    have hpoison : s.readPoisoned (0x0800000000 + off) len = true := by
      rw [State.readPoisoned, hr, List.any_eq_true]
      refine ⟨0, List.mem_range.2 (by omega), ?_⟩
      rw [servingSide_eq, hdown _ (by omega), hdown _ (by omega)]
      rfl
    exact fabricRead_poison hmay (by omega) (by simp [hr]) hinst hsec hpoison
  · have hk : k < 2 := by simp only [k, own]; split <;> omega
    have hpoison : s.readPoisoned (0x0800000000 + off) len = false := by
      rw [State.readPoisoned, hr, List.any_eq_false]
      intro i _
      rw [Bool.not_eq_true, Option.isNone_eq_false_iff]
      exact servingSide_isSome hk hup _
    have hserve : (s.servingSide off).getD 0 = k := by
      rw [servingSide_eq]
      cases hown : s.sideDown (off / 0x1000 % 2) with
      | false => simp [k, own, hown]
      | true =>
        have hother : s.sideDown (1 - off / 0x1000 % 2) = false := by simpa [k, own, hown] using hup
        simp [k, own, hown, hother]
    refine fabricRead_queues (n := 0) hmay (by omega) hinst hsec hpoison (.inr ⟨_, hr⟩) hstart (mirrored := true) rfl ?_ hserve
    rw [State.queueRead, hr, linePieces_one hlen (by omega)]
    rfl

end

end

/-! ### Data that returns from a channel -/

section
variable {s u t : State} {l : List (Fld × Nat)}

/-- A field is raised to a value, as far as its top allows. -/
theorem setsOnly_raiseTo (h : u.SetsOnly l t) (f : Fld) (v : Nat) :
    u.SetsOnly ((f, max (t.get f) (min v (2 ^ f.width - 1))) :: l) (t.raiseTo f v) := by
  have hlt := t.get_lt f
  unfold State.raiseTo
  split
  · next hv =>
    rw [Nat.max_eq_right (by omega)]
    exact setsOnly_set h f _
  · next hv =>
    rw [Nat.max_eq_left (by omega)]
    exact setsOnly_keep h (Nat.mod_eq_of_lt hlt).symm

end

section
variable {s : State} {n : Side} {ch : Fin 8} {id : Nat} {r : MemReq}

theorem readReturn_none (h : (s.chan n ch).inFlight.find? (·.id == id) = none) (e : EccResult) (link ns : Nat) (ok : Bool) :
    s.readReturn n ch id e link ns ok = s := by
  rw [State.readReturn]
  simp only [h]

/-- A channel without a request whose data returned. -/
def Chan.without (c : Chan) (id : Nat) : Chan := { c with inFlight := c.inFlight.filter (·.id != id) }

theorem exec_dramReadReturn {e : EccResult} {link ns : Nat} {ok : Bool} {t : State} (ht : s.readReturn n ch id e link ns ok = t) :
    exec (.dramReadReturn n ch id e link ns ok) s = .next t := ht ▸ rfl

theorem setsOnly_linkCount (s : State) (n : Side) (link : Nat) : s.SetsOnly
    [(Reg.MSIDE_LINK_ECC_READ_CORR n, satAdd 16 (s.get (Reg.MSIDE_LINK_ECC_READ_CORR n)) link)]
    (s.count (Reg.MSIDE_LINK_ECC_READ_CORR n) link) := setsOnly_set (setsOnly_refl s) _ _

theorem setsOnly_returned (s : State) (n : Side) (ch : Fin 8) (id link : Nat) : (s.setChan n ch ((s.chan n ch).without id)).SetsOnly
    [(Reg.MSIDE_LINK_ECC_READ_CORR n, satAdd 16 (s.get (Reg.MSIDE_LINK_ECC_READ_CORR n)) link)]
    ((s.count (Reg.MSIDE_LINK_ECC_READ_CORR n) link).setChan n ch ((s.chan n ch).without id)) :=
  setsOnly_beside (f := (State.setChan · n ch ((s.chan n ch).without id))) (fun _ _ => rfl) (setsOnly_linkCount s n link)

theorem maxlat_returned (s : State) (n : Side) (ch : Fin 8) (id link p : Nat) :
    ((s.count (Reg.MSIDE_LINK_ECC_READ_CORR n) link).setChan n ch ((s.chan n ch).without id)).get (Reg.QOS_MAXLAT_NS p) =
      s.get (Reg.QOS_MAXLAT_NS p) := by
  have hne : Reg.QOS_MAXLAT p ≠ Reg.MSIDE_LINK_ECC n := by unfold Reg.QOS_MAXLAT Reg.MSIDE_LINK_ECC reg; omega
  exact State.get_set_other s (Reg.MSIDE_LINK_ECC_READ_CORR n) (Reg.QOS_MAXLAT_NS p) _ hne

section
variable (h : (s.chan n ch).inFlight.find? (·.id == id) = some r)
include h

theorem readReturn_clean (link ns : Nat) (ok : Bool) : s.readReturn n ch id .clean link ns ok =
    (((s.count (Reg.MSIDE_LINK_ECC_READ_CORR n) link).setChan n ch ((s.chan n ch).without id)).raiseTo (Reg.QOS_MAXLAT_NS r.port) ns).reply
      { id := r.tag, data := r.data } := by
  rw [State.readReturn]
  simp only [h]
  rfl

theorem readReturn_corrected (link ns : Nat) (ok : Bool) : s.readReturn n ch id .corrected link ns ok =
    ((((s.count (Reg.MSIDE_LINK_ECC_READ_CORR n) link).setChan n ch ((s.chan n ch).without id)).ceRow n (dramPlace r.offset).ch
      (dramPlace r.offset).bank (dramPlace r.offset).row).raiseTo (Reg.QOS_MAXLAT_NS r.port) ns).reply { id := r.tag, data := r.data } := by
  rw [State.readReturn]
  simp only [h]
  rfl

theorem readReturn_uncorrectable (link ns : Nat) (ok : Bool) : s.readReturn n ch id .uncorrectable link ns ok =
    ((s.count (Reg.MSIDE_LINK_ECC_READ_CORR n) link).eccEvent n (Reg.MSIDE_ECC_STATUS_UE n)).freezeSide n 1
      (some ((n.val * 0x0400000000 + r.offset) / 64 * 64)) ok := by
  rw [State.readReturn]
  simp only [h]
  rfl

/-- R211, R218, R230: data that returns clean. -/
theorem dramReadReturn_clean (link ns : Nat) (ok : Bool) : SetsAnd (.dramReadReturn n ch id .clean link ns ok) s
    [(Reg.QOS_MAXLAT_NS r.port, max (s.get (Reg.QOS_MAXLAT_NS r.port)) (min ns (2 ^ 32 - 1))),
     (Reg.MSIDE_LINK_ECC_READ_CORR n, satAdd 16 (s.get (Reg.MSIDE_LINK_ECC_READ_CORR n)) link)]
    (fun t => t.replies = s.replies ++ [{ id := r.tag, status := .ok, data := r.data }] ∧
      (t.chan n ch).inFlight = (s.chan n ch).inFlight.filter (·.id != id) ∧ (t.chan n ch).readQ = (s.chan n ch).readQ) := by
  have hlat := setsOnly_raiseTo (setsOnly_returned s n ch id link) (Reg.QOS_MAXLAT_NS r.port) ns
  rw [maxlat_returned] at hlat
  have hsets := setsOnly_beside (f := (State.reply · { id := r.tag, data := r.data })) (fun _ _ => rfl) hlat
  obtain ⟨hside, hsram, hflash⟩ := setsOnly_sameBytes hsets
  have hreplies := hsets.proj State.replies fun _ _ => rfl
  have hc := (hsets.proj (State.chan · n ch) fun _ _ => rfl).trans (State.chan_setChan_same s n ch _)
  refine ⟨_, exec_dramReadReturn (readReturn_clean h link ns ok), hsets.1, ⟨hside, hsram, hflash⟩, hreplies, ?_, ?_⟩
  · rw [hc]; rfl
  · rw [hc]; rfl

/-- R234: data in which inline ECC finds an uncorrectable error. -/
theorem dramReadReturn_uncorrectable (link ns : Nat) (ok : Bool) (hk : s.SourceFree (53 + n)) :
    DoesThen (.dramReadReturn n ch id .uncorrectable link ns ok) s s
      [(Reg.IC_SRC_PENDING (53 + n), 1), (Reg.MSIDE_ECC_STATUS_EVENTS n, s.more (Reg.MSIDE_ECC_STATUS_EVENTS n)),
       (Reg.MSIDE_ECC_STATUS_UE n, 1),
       (Reg.MSIDE_LINK_ECC_READ_CORR n, satAdd 16 (s.get (Reg.MSIDE_LINK_ECC_READ_CORR n)) link)]
      fun t => t.freezeSide n 1 (some ((n.val * 0x0400000000 + r.offset) / 64 * 64)) ok := by
  have hused : ∀ m : Side, sourceUsed (53 + m) = true := by decide
  have hevent := setsOnly_event (setsOnly_linkCount s n link) (flag := Reg.MSIDE_ECC_STATUS_UE n)
    (events := Reg.MSIDE_ECC_STATUS_EVENTS n) (hused n) hk (by simp) (.inr (by simp))
  have hget : (s.count (Reg.MSIDE_LINK_ECC_READ_CORR n) link).get (Reg.MSIDE_ECC_STATUS_EVENTS n) =
      s.get (Reg.MSIDE_ECC_STATUS_EVENTS n) := State.get_set_other _ _ _ _ (by simp)
  rw [State.more, hget] at hevent
  exact ⟨_, hevent, exec_dramReadReturn (readReturn_uncorrectable h link ns ok)⟩

end

end

/-- Settles O8. -/
theorem fabricReadReturnsTheBytes : Obligations.FabricReadReturnsTheBytes := by
  refine ⟨fun s m off n len => ?_, fun s n ch id link ns ok => ?_⟩
  · intro tagged hlen hline hmay
    refine ⟨fun hi hs => ⟨⟨_, fabricRead_sram hmay hi hlen hs, setsOnly_refl _⟩, fun hcore hfabric => ?_, fun hk hid => ?_⟩,
      fun hs => ⟨fabricRead_side hmay hlen hs hline, fabricRead_mirror hmay hlen hs hline⟩⟩
    · refine tagLines_unit ?_
      rw [masterCore_carrier, masterCore]
      cases hk : m.kind with
      | core => exact absurd hk hcore
      | fabric => exact absurd hk hfabric
      | guest => rfl
      | debug => rfl
    · obtain ⟨hhit, hother⟩ := fabricRead_tags hi hlen hs hline hk hid
      exact ⟨_, fabricRead_sram hmay hi hlen hs, hhit, fun w _ hne k _ i _ => hother w hne k i⟩
  · split
    · next h => exact ⟨s, exec_dramReadReturn (readReturn_none h _ _ _ _), setsOnly_refl s⟩
    · next r h =>
      refine ⟨dramReadReturn_clean h link ns ok, ?_, dramReadReturn_uncorrectable h link ns ok⟩
      exact ⟨_, setsOnly_returned s n ch id link, exec_dramReadReturn (readReturn_corrected h link ns ok)⟩

end Sys2Proof.Machine
end

section
/-! SUPPORT. What a beat may change: the registers of the drumbeat, of the audio unit and of the panels with a running link, and the
records that belong to them. -/

namespace Sys2Proof.Machine

/-- The audio unit's record among the blocks that may change; no register lies there. -/
abbrev audRecord : Nat := 0x10000

/-- State `t` differs from `s` at most in the register blocks that satisfy `B` (256 × the unit, plus the place among its like), in the
records of links whose blocks satisfy it, in the audio unit's record where `B audRecord`, in the interrupts that wait behind a
service, in the logbook and in the values drawn. -/
structure State.Paced (B : Nat → Prop) (s t : State) : Prop where
  reg : ∀ a, ¬ B (a / 0x10000) → t.reg a = s.reg a
  tch : ∀ k, ¬ B (0x1000 + k) → t.tch k = s.tch k
  aud : ¬ B audRecord → t.aud = s.aud
  rest : { t with regs := s.regs, ic := s.ic, log := s.log, touch := s.touch, drawn := s.drawn, aud := s.aud } = s

theorem State.tch_setTch_same (s : State) (n : Nat) (r : TouchState) : (s.setTch n r).tch n = r := sget_sput_same _ _ _

theorem State.tch_setTch_other (s : State) {n k : Nat} (r : TouchState) (h : k ≠ n) : (s.setTch n r).tch k = s.tch k :=
  sget_sput_other _ _ h

theorem State.tch_congr {s t : State} (h : t.touch = s.touch) (k : Nat) : t.tch k = s.tch k := by rw [State.tch, h, State.tch]

theorem State.Notes.tch {bs : List Nat} {s t : State} (h : s.Notes bs t) (k : Nat) : t.tch k = s.tch k :=
  State.tch_congr (h.proj State.touch fun _ _ _ _ => rfl) k

namespace State.Paced

variable {B C : Nat → Prop} {s t u : State}

theorem refl (B : Nat → Prop) (s : State) : s.Paced B s := ⟨fun _ _ => rfl, fun _ _ => rfl, fun _ => rfl, rfl⟩

theorem trans (h : s.Paced B t) (h' : t.Paced B u) : s.Paced B u := by
  refine ⟨fun a ha => (h'.reg a ha).trans (h.reg a ha), fun k hk => (h'.tch k hk).trans (h.tch k hk),
    fun ha => (h'.aud ha).trans (h.aud ha), ?_⟩
  have e : u = { t with regs := u.regs, ic := u.ic, log := u.log, touch := u.touch, drawn := u.drawn, aud := u.aud } := by
    conv_rhs => rw [← h'.rest]
  rw [e]
  exact h.rest

theorem mono (h : s.Paced B t) (hb : ∀ b, B b → C b) : s.Paced C t :=
  ⟨fun a ha => h.reg a (mt (hb _) ha), fun k hk => h.tch k (mt (hb _) hk), fun ha => h.aud (mt (hb _) ha), h.rest⟩

/-- What depends on none of the parts that may change is as it was. -/
theorem proj {β : Type} (h : s.Paced B t) (p : State → β)
    (hp : ∀ (x : State) r i l c d a, p { x with regs := r, ic := i, log := l, touch := c, drawn := d, aud := a } = p x) : p t = p s :=
  (hp t s.regs s.ic s.log s.touch s.drawn s.aud).symm.trans (congrArg p h.rest)

theorem get (h : s.Paced B t) {f : Fld} (hf : ¬ B (f.addr / 0x10000)) : t.get f = s.get f := by
  rw [State.get, State.get, h.reg _ hf]

theorem bit (h : s.Paced B t) {f : Fld} (hf : ¬ B (f.addr / 0x10000)) : t.bit f = s.bit f := by
  rw [State.bit, State.bit, h.get hf]

theorem ofNotes {bs : List Nat} (h : s.Notes bs t) (hb : ∀ b ∈ bs, B b) : s.Paced B t := by
  refine ⟨fun a ha => h.reg a fun hm => ha (hb _ hm), fun k _ => h.tch k, fun _ => h.proj State.aud fun _ _ _ _ => rfl, ?_⟩
  have ht := h.proj State.touch fun _ _ _ _ => rfl
  have hd := h.proj State.drawn fun _ _ _ _ => rfl
  have ha := h.proj State.aud fun _ _ _ _ => rfl
  rw [← ht, ← hd, ← ha]
  exact h.rest

theorem set (s : State) (f : Fld) (v : Nat) (hf : B (f.addr / 0x10000)) : s.Paced B (s.set f v) :=
  ofNotes ((State.Notes.refl [f.addr / 0x10000] s).set f v (List.mem_singleton_self _)) fun b hb => by
    rwa [List.mem_singleton.1 hb]

theorem event (s : State) (flag events : Fld) (k : Nat) (hi : B 0x1700) (hf : B (flag.addr / 0x10000)) (he : B (events.addr / 0x10000)) :
    s.Paced B (s.event flag events k) :=
  ofNotes ((State.Notes.refl [0x1700, flag.addr / 0x10000, events.addr / 0x10000] s).event flag events k (by simp) (by simp) (by simp))
    fun b hb => by
      simp only [List.mem_cons, List.not_mem_nil, or_false] at hb
      obtain rfl | rfl | rfl := hb <;> assumption

theorem breach (s : State) (b : Breach) (hr : b.rank ≤ 10) (h0 : B 0) (hl : B 0x1A00) (hi : B 0x1700) : s.Paced B (s.breach b) :=
  ofNotes ((State.Notes.refl [0, 0x1A00, 0x1700] s).breach b (by simp) (by simp) (by simp) hr) fun b hb => by
    simp only [List.mem_cons, List.not_mem_nil, or_false] at hb
    obtain rfl | rfl | rfl := hb <;> assumption

theorem setTch (s : State) (n : Nat) (r : TouchState) (hn : B (0x1000 + n)) : s.Paced B (s.setTch n r) :=
  ⟨fun _ _ => rfl, fun _ hk => State.tch_setTch_other s r fun e => hk (e ▸ hn), fun _ => rfl, rfl⟩

theorem draw (s : State) : s.Paced B s.draw.2 := ⟨fun _ _ => rfl, fun _ _ => rfl, fun _ => rfl, rfl⟩

theorem setAud (s : State) (a : AudState) (hb : B audRecord) : s.Paced B { s with aud := a } :=
  ⟨fun _ _ => rfl, fun _ _ => rfl, fun h => absurd hb h, rfl⟩

theorem when {f : State → State} (s : State) (b : Bool) (hf : s.Paced B (f s)) : s.Paced B (s.when b f) := by
  cases b with
  | false => exact refl B s
  | true => exact hf

theorem each {α : Type} {f : α → State → State} (l : List α) (hf : ∀ x ∈ l, ∀ t : State, t.Paced B (f x t)) (s : State) :
    s.Paced B (s.each l f) := by
  induction l generalizing s with
  | nil => exact refl B s
  | cons x xs ih => exact (hf x List.mem_cons_self s).trans (ih (fun y hy => hf y (List.mem_cons_of_mem x hy)) (f x s))

end State.Paced

end Sys2Proof.Machine
end

section
/-! SUPPORT. The beat of one panel and of the audio unit: what each may change, and the parts of a panel's beat. -/

namespace Sys2Proof.Machine

/-- The register blocks that the beat of panel `n` may touch: breach counters, IC, LOG, and the panel's link and engine. -/
def panelBlocks (n b : Nat) : Prop := b = 0 ∨ b = 0x1700 ∨ b = 0x1A00 ∨ b = 0x0F00 + n ∨ b = 0x1000 + n

/-- What a stop of the audio unit may touch beside its own registers: its record, IC, the pages of the sessions, the TDM ports and
the bell voices. -/
def stopBlocks (b : Nat) : Prop := b = audRecord ∨ b = 0x1700 ∨ (0x0E00 ≤ b ∧ b < 0x0F00) ∨ (0x1400 ≤ b ∧ b < 0x1600)

/-- What a start of the audio unit may touch. -/
def audioBlocks (b : Nat) : Prop := b = 0x1300 ∨ stopBlocks b

/-- R284: a report that was not written by the beat is dropped. -/
def State.reportDropped (s : State) (n : Nat) : State :=
  if (s.tch n).reportDue then
    ((((s.setTch n { s.tch n with reportDue := false }).touchEvent n (Reg.TOUCH_STATUS_OVERRUN n)).count
      (Reg.TOUCH_COUNTS_DROPPED n))).breach { rank := 7, yielded := 7, port := none, mag := 1, unit := 0x10, inst := n }
  else s

/-- The payload of a SCAN frame (R254). -/
def scanPayload (half : Nat) (listen : Bool) (guard freq : Nat) : List Byte :=
  leBytes 1 (half + (if listen then 0 else 4) + 8 * guard) ++ leBytes 1 freq

/-- R263: the part of the grid that the scan of this beat covers. -/
def State.scanHalf (s : State) (n : Nat) : Nat := if s.halfScans n then s.drumbeat % 2 + 1 else 0

/-- R265: whether the scan of this beat is a listen scan. -/
def State.scanListens (s : State) (n : Nat) : Bool := s.tPhase n == 3 && s.drumbeat % 16 == 15

/-- R266: whether the scan of this beat samples in the blankings of a screen. -/
def State.scanQuiet (s : State) (n : Nat) : Bool := s.tPhase n != 3 && s.sends (s.tScreen n)

/-- The GUARD of a scan's descriptor (R254, R281). -/
def State.scanGuard (s : State) (n : Nat) : Nat := if s.tPhase n = 4 then (s.tch n).stImage else 0

/-- R251, R255, R263: the scan that a beat of state `s` starts on panel `n` with the sequence number of its descriptor, MARK_LEAD, and
the place of the symbol boundaries. -/
def State.beatScan (s : State) (n dseq lead phase : Nat) : Scan :=
  let all := (s.grid n).groups
  let half := s.scanHalf n
  let first := if half = 2 then ceilDiv all 2 else 0
  { active := true, drum := s.drumbeat, dseq := dseq, listen := s.scanListens n, half := half, guard := s.scanGuard n,
    freq := s.scanFreq n (s.scanListens n), quiet := s.scanQuiet n, first := first,
    groups := if half = 0 then all else if half = 1 then ceilDiv all 2 else all - first, phase := phase,
    marks := [{ mark := .beat, time := markTime lead phase 0 false, instant := 0 }] }

/-- R266: an engine that cannot sample in blankings says so. -/
def State.quietFallback (s : State) (n : Nat) : State :=
  s.when (s.tPhase n != 3 && !s.sends (s.tScreen n)) (·.touchEvent n (Reg.TOUCH_STATUS_QUIET_FALLBACK n))

/-- The SCAN frame of a beat is sent. -/
def State.scanSent (s : State) (n : Nat) : State :=
  (s.quietFallback n).tslSend n 0x03 (scanPayload (s.scanHalf n) (s.scanListens n) (s.scanGuard n) (s.scanFreq n (s.scanListens n)))

/-- The scan of a beat starts. -/
def State.scanStart (s : State) (n : Nat) : State :=
  let t := (s.scanSent n).draw.2
  t.setTch n { t.tch n with
    fseq := 0
    scan := s.beatScan n ((s.quietFallback n).tch n).seq (t.get (Reg.TSL_CTRL_MARK_LEAD n)) ((s.scanSent n).draw.1 % 80) }

section
variable {s : State} {n : Nat}

theorem touchBeat_idle (h : s.linkState n ≠ 3) : s.touchBeat n = s.linkBegin n := if_pos h

/-- The state in which the phase of the engine is looked at. -/
def State.beatCleared (s : State) (n : Nat) : State := ((s.linkBegin n).tslGroupTimeout n).reportDropped n

theorem touchBeat_run (h : s.linkState n = 3) :
    s.touchBeat n =
      if (s.beatCleared n).tPhase n < 2 ∨ 5 < (s.beatCleared n).tPhase n then s.beatCleared n else (s.beatCleared n).scanStart n := by
  have hl : ¬ (s.linkBegin n).linkState n ≠ 3 := fun hc => hc h
  exact if_neg hl

/-! ### What the beat of a panel may change -/

theorem block_tsl (n : Nat) {off : Nat} (h : off < 0x10000) : reg 15 n off / 0x10000 = 0x0F00 + n := by unfold reg; omega

theorem block_touch (n : Nat) {off : Nat} (h : off < 0x10000) : reg 16 n off / 0x10000 = 0x1000 + n := by unfold reg; omega

theorem panelBlocks_tsl (n : Nat) {off : Nat} (h : off < 0x10000) : panelBlocks n (reg 15 n off / 0x10000) := by
  rw [block_tsl n h]; exact .inr (.inr (.inr (.inl rfl)))

theorem panelBlocks_touch (n : Nat) {off : Nat} (h : off < 0x10000) : panelBlocks n (reg 16 n off / 0x10000) := by
  rw [block_touch n h]; exact .inr (.inr (.inr (.inr rfl)))

theorem panelBlocks_record (n : Nat) : panelBlocks n (0x1000 + n) := .inr (.inr (.inr (.inr rfl)))

theorem panelBlocks_ic (n : Nat) : panelBlocks n 0x1700 := .inr (.inl rfl)

theorem linkBegin_paced (s : State) (n : Nat) : s.Paced (panelBlocks n) (s.linkBegin n) := .setTch _ _ _ (panelBlocks_record n)

theorem scanDiscard_paced (s : State) (n : Nat) (seqTime : Bool) : s.Paced (panelBlocks n) (s.scanDiscard n seqTime) := by
  unfold State.scanDiscard
  dsimp only
  split
  · exact .refl _ _
  · exact ((State.Paced.setTch _ _ _ (panelBlocks_record n)).trans (.set _ _ _ (panelBlocks_tsl n (by decide)))).trans
      (.when _ _ (.set _ _ _ (panelBlocks_tsl n (by decide))))

theorem tslGroupTimeout_paced (s : State) (n : Nat) : s.Paced (panelBlocks n) (s.tslGroupTimeout n) := by
  unfold State.tslGroupTimeout
  split
  · exact ((linkBegin_paced s n).trans (.event _ _ _ _ (panelBlocks_ic n) (panelBlocks_tsl n (by decide))
      (panelBlocks_tsl n (by decide)))).trans (scanDiscard_paced _ n true)
  · exact .refl _ _

theorem touchEvent_paced (s : State) (n : Nat) (flag : Fld) (h : panelBlocks n (flag.addr / 0x10000)) :
    s.Paced (panelBlocks n) (s.touchEvent n flag) := .event _ _ _ _ (panelBlocks_ic n) h (panelBlocks_touch n (by decide))

theorem reportDropped_paced (s : State) (n : Nat) : s.Paced (panelBlocks n) (s.reportDropped n) := by
  unfold State.reportDropped
  split
  · exact (((State.Paced.setTch _ _ _ (panelBlocks_record n)).trans (touchEvent_paced _ n _ (panelBlocks_touch n (by decide)))).trans
      (.set _ _ _ (panelBlocks_touch n (by decide)))).trans
        (.breach _ _ (Nat.le_of_ble_eq_true rfl) (.inl rfl) (.inr (.inr (.inl rfl))) (panelBlocks_ic n))
  · exact .refl _ _

theorem beatCleared_paced (s : State) (n : Nat) : s.Paced (panelBlocks n) (s.beatCleared n) :=
  ((linkBegin_paced s n).trans (tslGroupTimeout_paced _ n)).trans (reportDropped_paced _ n)

theorem quietFallback_paced (s : State) (n : Nat) : s.Paced (panelBlocks n) (s.quietFallback n) :=
  .when _ _ (touchEvent_paced _ n _ (panelBlocks_touch n (by decide)))

theorem scanStart_paced (s : State) (n : Nat) : s.Paced (panelBlocks n) (s.scanStart n) :=
  (((quietFallback_paced s n).trans (.setTch _ _ _ (panelBlocks_record n))).trans (.draw _)).trans
    (.setTch _ _ _ (panelBlocks_record n))

theorem touchBeat_paced (s : State) (n : Nat) : s.Paced (panelBlocks n) (s.touchBeat n) := by
  by_cases h : s.linkState n = 3
  · rw [touchBeat_run h]
    split
    · exact beatCleared_paced s n
    · exact (beatCleared_paced s n).trans (scanStart_paced _ n)
  · rw [touchBeat_idle h]
    exact linkBegin_paced s n

/-! ### What a start of the audio unit may change -/

theorem stopBlocks_record : stopBlocks audRecord := .inl rfl

theorem stopBlocks_own {b : Nat} (h : 0x1400 ≤ b ∧ b < 0x1600) : stopBlocks b := .inr (.inr (.inr h))

theorem block_sessAsStatus {k a : Nat} (hk : k < 256) (ha : a < 8) : stopBlocks (Reg.SESS_AS_STATUS k a / 0x10000) := by
  refine .inr (.inr (.inl ?_))
  unfold Reg.SESS_AS_STATUS reg
  omega

theorem voicesStop_paced (s : State) : s.Paced stopBlocks s.voicesStop := by
  refine .each _ (fun v hv t => ?_) s
  have hb : stopBlocks ((Reg.BELL_CTRL_SOUND v).addr / 0x10000) := by
    refine stopBlocks_own ?_
    simp only [List.mem_cons, List.not_mem_nil, or_false] at hv
    obtain rfl | rfl | rfl | rfl := hv <;> decide
  exact (((State.Paced.setAud _ _ stopBlocks_record).trans (.setAud _ _ stopBlocks_record)).trans (.set _ _ _ hb)).trans (.set _ _ _ hb)

theorem downStop_paced (s : State) : s.Paced stopBlocks s.downStop :=
  ((State.Paced.setAud s _ stopBlocks_record).trans (voicesStop_paced _)).trans
    (.event _ _ _ _ (.inr (.inl rfl)) (stopBlocks_own (by decide)) (stopBlocks_own (by decide)))

theorem tdmStop_paced (s : State) {k : Nat} (hk : k < 2) : s.Paced stopBlocks (s.tdmStop k) := by
  refine (State.Paced.setAud s _ stopBlocks_record).trans (.set _ _ _ (stopBlocks_own ?_))
  change 0x1400 ≤ (0x1000000 * 20 + 0x10000 * k + 4) / 0x10000 ∧ (0x1000000 * 20 + 0x10000 * k + 4) / 0x10000 < 0x1600
  omega

theorem streamStop_paced (s : State) (k : Nat) : s.Paced stopBlocks (s.streamStop k) := by
  unfold State.streamStop
  split
  next j a h =>
    unfold State.streamOf at h
    split at h
    · obtain ⟨rfl, rfl⟩ := Prod.mk.inj (Option.some.inj h)
      exact .set _ _ _ (block_sessAsStatus (State.get_lt _ _) (Nat.mod_lt _ (by decide)))
    · cases h
  · exact .refl _ _

/-- A stop of the audio unit beside RUNNING. -/
def State.audHalted (s : State) : State :=
  let s := s.when s.aud.downDue (·.downStop)
  let s := s.each [0, 1] fun n t => (t.tdmStop n).setTdm n { (t.tdmStop n).tdm n with rx := [] }
  let s := s.each (List.range 24) fun k t => t.streamStop k
  { s with aud := { s.aud with stopDue := false, staged := false, silent := true, dp := [] } }

theorem audStop_eq (s : State) : s.audStop = (s.set Reg.AUD_STATUS_RUNNING 0).audHalted := rfl

theorem audHalted_paced (s : State) : s.Paced stopBlocks s.audHalted := by
  refine (((State.Paced.when s _ (downStop_paced s)).trans (.each [0, 1] (fun k hk t => ?_) _)).trans
    (.each (List.range 24) (fun k _ t => streamStop_paced t k) _)).trans (.setAud _ _ stopBlocks_record)
  refine (tdmStop_paced t ?_).trans (.setAud _ _ stopBlocks_record)
  simp only [List.mem_cons, List.not_mem_nil, or_false] at hk
  omega

theorem audStop_paced (s : State) : s.Paced audioBlocks s.audStop :=
  (State.Paced.set s Reg.AUD_STATUS_RUNNING 0 (.inl (by decide))).trans ((audHalted_paced _).mono fun _ => .inr)

theorem audRefuse_paced (s : State) (code : Nat) : s.Paced audioBlocks (s.audRefuse code) :=
  (State.Paced.set s Reg.AUD_STATUS_ERR_CODE code (.inl (by decide))).trans
    (.event _ Reg.AUD_STATUS_CFG_ERR Reg.AUD_STATUS_EVENTS 96 (.inr (.inr (.inl rfl))) (.inl (by decide)) (.inl (by decide)))

theorem audioBeat_paced (s : State) : s.Paced audioBlocks s.audioBeat := by
  have ha : audioBlocks audRecord := .inr stopBlocks_record
  unfold State.audioBeat
  split
  · exact ((State.Paced.setAud s _ ha).trans (.set _ Reg.AUD_CTRL_EN 0 (.inl (by decide)))).trans (audRefuse_paced _ 1)
  · split
    · exact ((State.Paced.when s _ (audStop_paced s)).trans (.setAud _ _ ha)).trans (.set _ Reg.AUD_STATUS_RUNNING 1 (.inl (by decide)))
    · exact .refl _ _

end

end Sys2Proof.Machine
end

section
/-! SUPPORT. What a panel with a running link holds after a beat: the fields a scan reads, its report, and its scan. -/

namespace Sys2Proof.Machine

theorem get_raiseIrq_other (s : State) (k : Nat) {f : Fld} (h : f.addr / 0x10000 ≠ 0x1700) : (s.raiseIrq k).get f = s.get f :=
  ((State.Notes.refl [0x1700] s).raiseIrq k (List.mem_singleton_self _)).get fun hm => h (List.mem_singleton.1 hm)

/-- An event leaves every field as it was but its flag, its register's count and the interrupt sources. -/
theorem get_event_ne (s : State) {flag events f : Fld} (k : Nat) (hf : f.lo + f.width ≤ 32) (h : f.addr / 0x10000 ≠ 0x1700)
    (h1 : f.addr ≠ flag.addr ∨ f.lo + f.width ≤ flag.lo ∨ flag.lo + flag.width ≤ f.lo)
    (h2 : f.addr ≠ events.addr ∨ f.lo + f.width ≤ events.lo ∨ events.lo + events.width ≤ f.lo) :
    (s.event flag events k).get f = s.get f := by
  rw [State.event, get_raiseIrq_other _ _ h, State.count_eq, State.get_set_ne _ _ _ _ hf h2, State.get_set_ne _ _ _ _ hf h1]

theorem get_breach_other (s : State) (b : Breach) (hr : b.rank ≤ 10) {f : Fld} (h : f.addr / 0x10000 ∉ [0, 0x1A00, 0x1700]) :
    (s.breach b).get f = s.get f :=
  ((State.Notes.refl _ s).breach b (by simp) (by simp) (by simp) hr).get h

/-- A field of panel `n` that neither a late frame, nor a report that was dropped, nor the start of a scan changes. -/
structure PanelField (n : Nat) (f : Fld) : Prop where
  width : f.lo + f.width ≤ 32
  block : f.addr / 0x10000 = 0x0F00 + n ∨ f.addr / 0x10000 = 0x1000 + n
  status : f.addr ≠ Reg.TOUCH_STATUS n ∨ (5 ≤ f.lo ∧ f.lo + f.width ≤ 24)
  others : f.addr ≠ Reg.TSL_STATUS n ∧ f.addr ≠ Reg.TSL_SCANS n ∧ f.addr ≠ Reg.TOUCH_COUNTS n

section
variable {n : Fin 8}

theorem panelField_ofTouch {off lo w : Nat} (hw : lo + w ≤ 32) (ho : off < 0x10000) (hs : off ≠ 4 ∨ (5 ≤ lo ∧ lo + w ≤ 24))
    (hc : off ≠ 0x70) : PanelField n ⟨reg 16 n off, lo, w⟩ := by
  refine ⟨hw, .inr (block_touch n ho), hs.imp_left fun h => ?_, ?_, ?_, ?_⟩ <;>
    dsimp only [reg, Reg.TOUCH_STATUS, Reg.TSL_STATUS, Reg.TSL_SCANS, Reg.TOUCH_COUNTS] <;> omega

theorem panelField_ofTsl {off lo w : Nat} (hw : lo + w ≤ 32) (ho : off < 0x10000) (hs : off ≠ 4 ∧ off ≠ 0xC) :
    PanelField n ⟨reg 15 n off, lo, w⟩ := by
  refine ⟨hw, .inl (block_tsl n ho), .inl ?_, ?_, ?_, ?_⟩ <;>
    dsimp only [reg, Reg.TOUCH_STATUS, Reg.TSL_STATUS, Reg.TSL_SCANS, Reg.TOUCH_COUNTS] <;> omega

theorem panelField_phase : PanelField n (Reg.TOUCH_STATUS_PHASE n) :=
  panelField_ofTouch (by decide) (by decide) (by decide) (by decide)

theorem panelField_noise : PanelField n (Reg.TOUCH_STATUS_NOISE n) :=
  panelField_ofTouch (by decide) (by decide) (by decide) (by decide)

theorem panelField_freq : PanelField n (Reg.TOUCH_COUNTS2_FREQ n) :=
  panelField_ofTouch (by decide) (by decide) (by decide) (by decide)

theorem panelField_screen : PanelField n (Reg.TOUCH_CTRL_SCREEN n) :=
  panelField_ofTouch (by decide) (by decide) (by decide) (by decide)

theorem panelField_width : PanelField n (Reg.TSL_IDENT_1_W n) := panelField_ofTsl (by decide) (by decide) (by decide)

theorem panelField_height : PanelField n (Reg.TSL_IDENT_1_H n) := panelField_ofTsl (by decide) (by decide) (by decide)

theorem panelField_lead : PanelField n (Reg.TSL_CTRL_MARK_LEAD n) := panelField_ofTsl (by decide) (by decide) (by decide)

variable {f : Fld}

theorem PanelField.notIc (h : PanelField n f) : f.addr / 0x10000 ≠ 0x1700 := by
  have := n.isLt
  obtain hb | hb := h.block <;> omega

theorem PanelField.notBreach (h : PanelField n f) : f.addr / 0x10000 ∉ [0, 0x1A00, 0x1700] := by
  have := n.isLt
  simp only [List.mem_cons, List.not_mem_nil, or_false]
  obtain hb | hb := h.block <;> omega

theorem PanelField.apart (h : PanelField n f) {g : Fld} (hg : g.addr = Reg.TOUCH_STATUS n) (hl : g.lo + g.width ≤ 5 ∨ 24 ≤ g.lo) :
    f.addr ≠ g.addr ∨ f.lo + f.width ≤ g.lo ∨ g.lo + g.width ≤ f.lo := by
  rw [hg]
  exact h.status.imp id fun ⟨h5, h24⟩ => by omega

/-- An event of the engine's status changes no such field. -/
theorem PanelField.get_touchEvent (h : PanelField n f) (s : State) {flag : Fld} (hf : flag.addr = Reg.TOUCH_STATUS n)
    (hl : flag.lo + flag.width ≤ 5) : (s.touchEvent n flag).get f = s.get f :=
  get_event_ne s _ h.width h.notIc (h.apart hf (.inl hl)) (h.apart rfl (.inr (Nat.le_refl 24)))

theorem get_scanDiscard_other (s : State) (b : Bool) (h : f.addr ≠ Reg.TSL_SCANS n) : (s.scanDiscard n b).get f = s.get f := by
  unfold State.scanDiscard
  dsimp only
  split
  · rfl
  · cases b with
    | false => exact State.get_set_other _ _ _ _ h
    | true => exact (State.get_set_other _ (Reg.TSL_SCANS_SEQ_TIMEOUT n) _ _ h).trans (State.get_set_other _ (Reg.TSL_SCANS_DISCARDED n) _ _ h)

/-- A late frame changes no register but the link's status and its counts of scans. -/
theorem get_tslGroupTimeout_other (s : State) (hw : f.lo + f.width ≤ 32) (hi : f.addr / 0x10000 ≠ 0x1700)
    (hs : f.addr ≠ Reg.TSL_STATUS n) (hc : f.addr ≠ Reg.TSL_SCANS n) : (s.tslGroupTimeout n).get f = s.get f := by
  unfold State.tslGroupTimeout
  split
  · rw [get_scanDiscard_other _ _ hc]
    exact get_event_ne _ _ hw hi (.inl hs) (.inl hs)
  · rfl

theorem PanelField.get_tslGroupTimeout (h : PanelField n f) (s : State) : (s.tslGroupTimeout n).get f = s.get f := by
  obtain ⟨hs, hc, -⟩ := h.others
  exact get_tslGroupTimeout_other s h.width h.notIc hs hc

theorem PanelField.get_reportDropped (h : PanelField n f) (s : State) : (s.reportDropped n).get f = s.get f := by
  obtain ⟨-, -, hc⟩ := h.others
  unfold State.reportDropped
  split
  · rw [get_breach_other _ _ (by exact Nat.le_of_ble_eq_true rfl) h.notBreach, State.count_eq, State.get_set_other _ _ _ _ hc,
      h.get_touchEvent _ rfl (Nat.le_of_ble_eq_true rfl)]
    rfl
  · rfl

theorem PanelField.get_beatCleared (h : PanelField n f) (s : State) : (s.beatCleared n).get f = s.get f :=
  (h.get_reportDropped _).trans (h.get_tslGroupTimeout _)

theorem PanelField.get_scanStart (h : PanelField n f) (s : State) : (s.scanStart n).get f = s.get f := by
  change (s.quietFallback n).get f = s.get f
  unfold State.quietFallback State.when
  split
  · exact h.get_touchEvent s rfl (Nat.le_of_ble_eq_true rfl)
  · rfl

end

end Sys2Proof.Machine
end

section
/-! SUPPORT. The scan a beat starts, from the fields that it reads. -/

namespace Sys2Proof.Machine

theorem tch_event (s : State) (flag events : Fld) (k m : Nat) : (s.event flag events k).tch m = s.tch m :=
  ((State.Notes.refl [0x1700, flag.addr / 0x10000, events.addr / 0x10000] s).event flag events k (by simp) (by simp) (by simp)).tch m

theorem tch_breach (s : State) (b : Breach) (hr : b.rank ≤ 10) (m : Nat) : (s.breach b).tch m = s.tch m :=
  ((State.Notes.refl [0, 0x1A00, 0x1700] s).breach b (by simp) (by simp) (by simp) hr).tch m

/-- What a beat leaves of a link's record before the engine's phase is looked at: no scan, nothing sent, no report due; the sequence
number, the survey and the self-test's image stay. -/
structure TouchState.Cleared (r q : TouchState) : Prop where
  active : q.scan.active = false
  sent : q.sent = []
  reportDue : q.reportDue = false
  seq : q.seq = r.seq
  survey : q.survey = r.survey
  stImage : q.stImage = r.stImage

section
variable {s : State} {n : Nat}

theorem tch_linkBegin (s : State) (n : Nat) : (s.linkBegin n).tch n = { s.tch n with sent := [] } := State.tch_setTch_same _ _ _

theorem tch_scanDiscard_active {b : Bool} (h : (s.tch n).scan.active = true) : (s.scanDiscard n b).tch n =
    { s.tch n with scan := { (s.tch n).scan with active := false }, discarded := (s.tch n).discarded + 1 } := by
  unfold State.scanDiscard
  dsimp only
  rw [h]
  cases b <;> exact State.tch_setTch_same _ _ _

/-- A late frame's discard leaves the link's record but for the scan, the count of discards and what was sent. -/
theorem tch_tslGroupTimeout (s : State) (n : Nat) (hs : (s.tch n).sent = []) : ∃ k d, k.active = false ∧
    (s.tslGroupTimeout n).tch n = { s.tch n with scan := k, discarded := d } := by
  unfold State.tslGroupTimeout
  split
  next h =>
    have e : ((s.linkBegin n).tslEvent n (Reg.TSL_STATUS_TIMEOUT n)).tch n = s.tch n := by
      rw [State.tslEvent, tch_event, tch_linkBegin, ← hs]
    rw [tch_scanDiscard_active (by rw [e]; exact h), e]
    exact ⟨_, _, rfl, rfl⟩
  next h => exact ⟨(s.tch n).scan, (s.tch n).discarded, Bool.not_eq_true _ ▸ h, rfl⟩

theorem tch_reportDropped (s : State) (n : Nat) : (s.reportDropped n).tch n = { s.tch n with reportDue := false } := by
  unfold State.reportDropped
  split
  · rw [tch_breach _ _ (by exact Nat.le_of_ble_eq_true rfl)]
    exact (tch_event _ _ _ _ _).trans (State.tch_setTch_same _ _ _)
  next h =>
    rw [Bool.not_eq_true] at h
    rw [← h]

theorem tch_beatCleared (s : State) (n : Nat) : (s.tch n).Cleared ((s.beatCleared n).tch n) := by
  obtain ⟨k, d, hk, e⟩ := tch_tslGroupTimeout (s.linkBegin n) n (by rw [tch_linkBegin])
  rw [State.beatCleared, tch_reportDropped, e, tch_linkBegin]
  exact ⟨hk, rfl, rfl, rfl, rfl, rfl⟩

end

/-! ### The report that was not written -/

section
variable {s : State} {n : Fin 8}

theorem overrun_notIc : Reg.TOUCH_STATUS n / 0x10000 ∉ [0, 0x1A00, 0x1700] := by revert n; decide

theorem dropped_notIc : Reg.TOUCH_COUNTS n / 0x10000 ∉ [0, 0x1A00, 0x1700] := by revert n; decide

theorem status_ne_counts : Reg.TOUCH_STATUS n ≠ Reg.TOUCH_COUNTS n := by revert n; decide

theorem reportDropped_counts (h : (s.tch n).reportDue = true) :
    (s.reportDropped n).get (Reg.TOUCH_STATUS_OVERRUN n) = 1 ∧
      (s.reportDropped n).get (Reg.TOUCH_COUNTS_DROPPED n) = s.more (Reg.TOUCH_COUNTS_DROPPED n) := by
  have hne := status_ne_counts (n := n)
  have hi : Reg.TOUCH_STATUS n / 0x10000 ≠ 0x1700 := fun e => overrun_notIc (n := n) (by rw [e]; decide)
  have hi' : Reg.TOUCH_COUNTS n / 0x10000 ≠ 0x1700 := fun e => dropped_notIc (n := n) (by rw [e]; decide)
  rw [State.reportDropped, if_pos h, get_breach_other _ _ (by exact Nat.le_of_ble_eq_true rfl) overrun_notIc,
    get_breach_other _ _ (by exact Nat.le_of_ble_eq_true rfl) dropped_notIc, State.count_eq]
  constructor
  · rw [State.get_set_other _ _ _ _ hne, State.touchEvent, State.event, get_raiseIrq_other _ _ hi, State.count_eq,
      State.get_set_apart _ _ _ _ (Nat.le_of_ble_eq_true rfl) (.inl (Nat.le_of_ble_eq_true rfl)),
      State.get_set_same _ _ _ (Nat.le_of_ble_eq_true rfl)]
    rfl
  · have e : ((s.setTch n { s.tch n with reportDue := false }).touchEvent n (Reg.TOUCH_STATUS_OVERRUN n)).get
        (Reg.TOUCH_COUNTS_DROPPED n) = s.get (Reg.TOUCH_COUNTS_DROPPED n) :=
      get_event_ne _ _ (Nat.le_of_ble_eq_true rfl) hi' (.inl hne.symm) (.inl hne.symm)
    rw [State.get_set_same _ _ _ (Nat.le_of_ble_eq_true rfl), e]
    have hlt : satAdd 16 (s.get (Reg.TOUCH_COUNTS_DROPPED n)) 1 < 2 ^ 16 := by unfold satAdd; omega
    exact Nat.mod_eq_of_lt hlt

end

end Sys2Proof.Machine
end

section
/-! SUPPORT. The scan that a beat starts, from what it reads. -/

namespace Sys2Proof.Machine

/-- Of what a scan reads, state `z` holds what state `s` holds, at beat `number`. -/
structure State.ScanAlike (s : State) (n : Nat) (number : Nat) (z : State) : Prop where
  field : ∀ f, PanelField n f → z.get f = s.get f
  seq : (z.tch n).seq = (s.tch n).seq
  survey : (z.tch n).survey = (s.tch n).survey
  stImage : (z.tch n).stImage = (s.tch n).stImage
  beat : z.drumbeat = number
  sends : ∀ k < 8, z.sends k = s.sends k
  rate : z.beatRate = s.beatRate

namespace State.ScanAlike

variable {s z : State} {n : Fin 8} {number : Nat} (h : s.ScanAlike n number z)
include h

theorem phase : z.tPhase n = s.get (Reg.TOUCH_STATUS_PHASE n) := h.field _ panelField_phase

theorem grid : z.grid n = s.grid n := by
  rw [State.grid, h.field _ panelField_width, h.field _ panelField_height, State.grid]

theorem half : z.scanHalf n = if s.halfScans n then number % 2 + 1 else 0 := by
  rw [State.scanHalf, State.halfScans, h.rate, h.grid, h.beat, State.halfScans]

theorem listens : z.scanListens n = (s.get (Reg.TOUCH_STATUS_PHASE n) == 3 && number % 16 == 15) := by
  rw [State.scanListens, h.phase, h.beat]

theorem guard : z.scanGuard n = if s.get (Reg.TOUCH_STATUS_PHASE n) = 4 then (s.tch n).stImage else 0 := by
  rw [State.scanGuard, h.phase, h.stImage]

theorem freq (listen : Bool) : z.scanFreq n listen = s.scanFreq n listen := by
  rw [State.scanFreq, State.bit, h.field _ panelField_freq, h.field _ panelField_noise, h.survey, State.scanFreq, State.bit]

theorem quiet : z.scanQuiet n = (s.get (Reg.TOUCH_STATUS_PHASE n) != 3 && s.sends (s.get (Reg.TOUCH_CTRL_SCREEN n))) := by
  rw [State.scanQuiet, h.phase, State.tScreen, h.field _ panelField_screen, h.sends _ (State.get_lt s _)]

end State.ScanAlike

theorem markTime_beat (lead phase : Nat) : -(lead : Int) ≤ markTime lead phase 0 false ∧
    markTime lead phase 0 false < 80 - (lead : Int) ∧ (markTime lead phase 0 false - phase) % 80 = 0 := by
  unfold markTime
  simp only [Bool.false_eq_true, if_false]
  omega

section
variable {s : State} {n : Nat}

theorem tch_quietFallback (s : State) (n : Nat) : (s.quietFallback n).tch n = s.tch n := by
  unfold State.quietFallback State.when
  split
  · exact tch_event _ _ _ _ _
  · rfl

/-- R253, R254: a SCAN frame, from its sequence number, the half, whether it listens, GUARD and the frequency index. -/
def scanFrame (seq half : Nat) (listen : Bool) (guard freq : Nat) : List Byte :=
  let head : List Byte :=
    [BitVec.ofNat 8 seq, 3, 2, BitVec.ofNat 8 (half + (if listen then 0 else 4) + 8 * guard), BitVec.ofNat 8 freq]
  head ++ leBytes 2 (crc16 head)

theorem tch_scanSent (s : State) (n : Nat) : (s.scanSent n).tch n =
    { s.tch n with
      sent := (s.tch n).sent ++
        [scanFrame (s.tch n).seq (s.scanHalf n) (s.scanListens n) (s.scanGuard n) (s.scanFreq n (s.scanListens n))]
      seq := ((s.tch n).seq + 1) % 256 } := by
  rw [State.scanSent, State.tslSend, State.tch_setTch_same, tch_quietFallback]
  rfl

theorem tch_scanStart (s : State) (n : Fin 8) (hs : (s.tch n).sent = []) : ∃ phase < 80, (s.scanStart n).tch n =
    { s.tch n with
      sent := [scanFrame (s.tch n).seq (s.scanHalf n) (s.scanListens n) (s.scanGuard n) (s.scanFreq n (s.scanListens n))]
      seq := ((s.tch n).seq + 1) % 256
      fseq := 0
      scan := s.beatScan n (s.tch n).seq (s.get (Reg.TSL_CTRL_MARK_LEAD n)) phase } := by
  refine ⟨(s.scanSent n).draw.1 % 80, Nat.mod_lt _ (by decide), ?_⟩
  have hlead : (s.scanSent n).draw.2.get (Reg.TSL_CTRL_MARK_LEAD n) = s.get (Reg.TSL_CTRL_MARK_LEAD n) :=
    panelField_lead.get_scanStart s
  have htch : (s.scanSent n).draw.2.tch n = (s.scanSent n).tch n := rfl
  rw [State.scanStart, State.tch_setTch_same, hlead, htch, tch_scanSent, tch_quietFallback, hs]
  rfl

end

end Sys2Proof.Machine
end

section
/-! SUPPORT. A beat as a whole: its number is counted, the audio unit starts, and each panel takes its beat. -/

namespace Sys2Proof.Machine

/-- The beat after state `s` is counted, with the drumbeat's state beside its registers as given (R25). -/
def State.beatCounted (s : State) (d : DrumState) : State := (s.withDrum d).drumAdvance

/-- The number of the next beat (R25). -/
def State.nextBeat (s : State) : Nat := (s.drumbeat + 1) % 2 ^ 64

/-- The drumbeat's state beside its registers at a beat `i` periods after the beat before it (R17, R21). -/
def DrumState.atBeat (d : DrumState) (out : Bool) (i : Nat) : DrumState :=
  { d with interval := i, outPulses := d.outPulses + (if out then 1 else 0) }

section
variable {s : State} {d : DrumState}

theorem beatCounted_get (s : State) (d : DrumState) {f : Fld} (h : f.addr ≠ Reg.DRUM_COUNT_HI ∧ f.addr ≠ Reg.DRUM_COUNT_LO) :
    (s.beatCounted d).get f = s.get f := by
  obtain ⟨hh, hl⟩ := h
  exact (State.get_set_other _ Reg.DRUM_COUNT_LO_COUNT _ _ hl).trans (State.get_set_other _ Reg.DRUM_COUNT_HI_COUNT _ _ hh)

theorem beatCounted_sets (s : State) (d : DrumState) : (s.withDrum d).SetsOnly
    [(Reg.DRUM_COUNT_LO_COUNT, (s.drumbeat + 1) % 2 ^ 64 % 2 ^ 32), (Reg.DRUM_COUNT_HI_COUNT, (s.drumbeat + 1) % 2 ^ 64 / 2 ^ 32)]
    (s.beatCounted d) := setsOnly_set (setsOnly_set (setsOnly_refl _) _ _) _ _

theorem drumAdvance_eq (s : State) : s.drumAdvance =
    (s.set Reg.DRUM_COUNT_HI_COUNT (s.nextBeat / 2 ^ 32)).set Reg.DRUM_COUNT_LO_COUNT (s.nextBeat % 2 ^ 32) := rfl

/-- A 64-bit number is put together again from its halves. -/
theorem halves_join {x : Nat} (h : x < 2 ^ 64) : x / 2 ^ 32 % 2 ^ 32 * 2 ^ 32 + x % 2 ^ 32 % 2 ^ 32 = x := by omega

theorem State.nextBeat_lt (s : State) : s.nextBeat < 2 ^ 64 := Nat.mod_lt _ (by decide)

theorem count_width : Reg.DRUM_COUNT_LO_COUNT.width = 32 := rfl

theorem drumAdvance_drumbeat (s : State) : s.drumAdvance.drumbeat = s.nextBeat := by
  rw [State.drumbeat, drumAdvance_eq, State.get_set_same _ _ _ (by decide), State.get_set_other _ _ _ _ (by decide),
    State.get_set_same _ _ _ (by decide), count_width]
  exact halves_join s.nextBeat_lt

theorem nextBeat_withDrum (s : State) (d : DrumState) : (s.withDrum d).nextBeat = s.nextBeat := by
  have e (f : Fld) : (s.withDrum d).get f = s.get f := rfl
  rw [State.nextBeat, State.drumbeat, e, e, State.nextBeat, State.drumbeat]

theorem set_withDrum (s : State) (d : DrumState) (f : Fld) (v : Nat) : (s.withDrum d).set f v = (s.set f v).withDrum d := rfl

theorem drumAdvance_withDrum (s : State) (d : DrumState) : (s.withDrum d).drumAdvance = s.drumAdvance.withDrum d := by
  rw [drumAdvance_eq, nextBeat_withDrum, set_withDrum, set_withDrum, drumAdvance_eq]

theorem beatCounted_drumbeat (s : State) (d : DrumState) : (s.beatCounted d).drumbeat = s.nextBeat := by
  rw [State.beatCounted, drumAdvance_drumbeat, nextBeat_withDrum]

theorem beatAt_advance (s : State) (d : DrumState) (i : Nat) : (s.withDrum d).beatAt i =
    (let x := s.beatCounted { d with interval := i }
     (if x.bit Reg.DRUM_CTRL_OUT_EN = true then x.withDrum { x.drum with outPulses := x.drum.outPulses + 1 } else x).audioBeat.each
      (List.range 8) fun n t => t.touchBeat n) := rfl

theorem pulse_withDrum (s : State) (d : DrumState) (out : Bool) (i : Nat) :
    (if out = true then (s.withDrum { d with interval := i }).withDrum
      { (s.withDrum { d with interval := i }).drum with outPulses := (s.withDrum { d with interval := i }).drum.outPulses + 1 }
      else s.withDrum { d with interval := i }) = s.withDrum (d.atBeat out i) := by
  cases out <;> rfl

/-- R21: a beat is counted, and DRUM_OUT has its pulse. -/
theorem beatAt_eq (s : State) (d : DrumState) (i : Nat) : (s.withDrum d).beatAt i =
    (s.beatCounted (d.atBeat (s.bit Reg.DRUM_CTRL_OUT_EN) i)).audioBeat.each (List.range 8) fun n t => t.touchBeat n := by
  have hout : (s.beatCounted { d with interval := i }).bit Reg.DRUM_CTRL_OUT_EN = s.bit Reg.DRUM_CTRL_OUT_EN := by
    rw [State.bit, beatCounted_get s _ (by decide), State.bit]
  rw [beatAt_advance]
  dsimp only
  rw [hout, State.beatCounted, State.beatCounted, drumAdvance_withDrum, drumAdvance_withDrum, pulse_withDrum]

/-- The beats of the eight panels, with one of them singled out. -/
theorem each_around (s : State) (n : Fin 8) (f : Nat → State → State) : ∃ before after : List Nat,
    (∀ k ∈ before, k < 8 ∧ k ≠ n) ∧ (∀ k ∈ after, k < 8 ∧ k ≠ n) ∧
      s.each (List.range 8) f = (f n (s.each before f)).each after f := by
  refine ⟨List.range n, List.range' (n + 1) (7 - n), fun k hk => ?_, fun k hk => ?_, ?_⟩
  · have := List.mem_range.1 hk; omega
  · have := List.mem_range'_1.1 hk; omega
  · have e : List.range 8 = List.range n ++ n.val :: List.range' (n + 1) (7 - n) := by revert n; decide
    rw [e, State.each, List.foldl_append]
    rfl

/-- What the beats of the panels other than `n` may touch. -/
def otherBlocks (n b : Nat) : Prop := ∃ k < 8, k ≠ n ∧ panelBlocks k b

theorem others_paced (s : State) {n : Nat} {l : List Nat} (hl : ∀ k ∈ l, k < 8 ∧ k ≠ n) :
    s.Paced (otherBlocks n) (s.each l fun k t => t.touchBeat k) :=
  .each l (fun k hk t => (touchBeat_paced t k).mono fun _ hb => ⟨k, (hl k hk).1, (hl k hk).2, hb⟩) s

end

end Sys2Proof.Machine
end

section
/-! SUPPORT. When a beat falls, what it counts, and what a panel holds after it. -/

namespace Sys2Proof.Machine

/-- The place of a beat on the divider's grid (R17). -/
def DrumState.nextPlace (d : DrumState) : Nat := match d.gridBeat with | none => 0 | some k => k + 1

/-- The interval that a beat of the divider ends (R17). -/
def DrumState.nextInterval (d : DrumState) : Nat := match d.gridBeat with | none => 0 | some k => d.edgeOf (k + 1) - d.edgeOf k

section
variable {s : State}

/-- R17: with the internal divider in use, a beat falls on the grid's next instant. -/
theorem beat_internal (h : s.bit Reg.DRUM_STATUS_ACTIVE_SOURCE = false) :
    s.beat = (s.withDrum { s.drum with gridBeat := some s.drum.nextPlace }).beatAt s.drum.nextInterval := by
  rw [State.beat, if_pos (by rw [h]; rfl), State.beatInternal, DrumState.nextPlace, DrumState.nextInterval]
  cases s.drum.gridBeat <;> rfl

/-- R22: with DRUM_IN in use, a beat falls 160 ns after its edge. -/
theorem beat_external (h : s.bit Reg.DRUM_STATUS_ACTIVE_SOURCE = true) (he : s.drum.edgeDue = true) :
    s.beat = (s.withDrum { s.drum with edgeDue := false, gridBeat := some 0 }).beatAt (ceilDiv (s.drum.edgeNs + 160) 40) := by
  rw [State.beat, if_neg (by rw [h]; decide), if_pos he]
  rfl

/-- R22: with DRUM_IN in use, no beat falls before its edge. -/
theorem beat_none (h : s.bit Reg.DRUM_STATUS_ACTIVE_SOURCE = true) (he : s.drum.edgeDue = false) : s.beat = s := by
  rw [State.beat, if_neg (by rw [h]; decide), if_neg (by rw [he]; decide)]

/-- A beat that falls: it is counted, whatever its source. -/
theorem beat_falls (h : (!s.bit Reg.DRUM_STATUS_ACTIVE_SOURCE || s.drum.edgeDue) = true) : ∃ d : DrumState,
    (d.int = s.drum.int ∧ d.num = s.drum.num ∧ d.den = s.drum.den) ∧
      s.beat = (s.beatCounted d).audioBeat.each (List.range 8) fun n t => t.touchBeat n := by
  cases hs : s.bit Reg.DRUM_STATUS_ACTIVE_SOURCE with
  | false =>
    refine ⟨_, ?_, (beat_internal hs).trans (beatAt_eq s _ _)⟩
    exact ⟨rfl, rfl, rfl⟩
  | true =>
    rw [hs] at h
    refine ⟨_, ?_, (beat_external hs h).trans (beatAt_eq s _ _)⟩
    exact ⟨rfl, rfl, rfl⟩

theorem exec_beat {t : State} (h : s.beat = t) : exec .beat s = .next t := h ▸ rfl

/-! ### A panel in the beat -/

variable {d : DrumState} {n : Fin 8} {l : List Nat}

/-- What the audio unit's start and the beats of the panels other than `n` may touch. -/
def besideBlocks (n b : Nat) : Prop := audioBlocks b ∨ otherBlocks n b

theorem besideBlocks_panel (n : Fin 8) {b : Nat} (hb : b = 0x0F00 + n ∨ b = 0x1000 + n) : ¬ besideBlocks n b := by
  have hn := n.isLt
  unfold besideBlocks audioBlocks stopBlocks audRecord otherBlocks panelBlocks
  rintro (h | ⟨k, hk, hne, h⟩) <;> omega

theorem besideBlocks_low (n : Fin 8) {b : Nat} (h0 : 0 < b) (hb : b < 0x0E00) : ¬ besideBlocks n b := by
  unfold besideBlocks audioBlocks stopBlocks audRecord otherBlocks panelBlocks
  rintro (h | ⟨k, hk, hne, h⟩) <;> omega

/-- The state in which panel `n` takes its beat, after the audio unit and the panels of `l`. -/
def State.beforePanel (s : State) (d : DrumState) (l : List Nat) : State :=
  (s.beatCounted d).audioBeat.each l fun k t => t.touchBeat k

theorem beforePanel_paced (hl : ∀ k ∈ l, k < 8 ∧ k ≠ n) : (s.beatCounted d).Paced (besideBlocks n) (s.beforePanel d l) :=
  ((audioBeat_paced _).mono fun _ => .inl).trans ((others_paced _ hl).mono fun _ => .inr)

theorem otherBlocks_panel (n : Fin 8) {b : Nat} (hb : b = 0x0F00 + n ∨ b = 0x1000 + n) : ¬ otherBlocks n b :=
  fun h => besideBlocks_panel n hb (.inr h)

theorem block_count {f : Fld} (h : f.addr / 0x10000 ≠ 0x0100) : f.addr ≠ Reg.DRUM_COUNT_HI ∧ f.addr ≠ Reg.DRUM_COUNT_LO := by
  constructor <;> rintro e <;> rw [e] at h <;> exact h (by decide)

/-- A field of panel `n` when its beat comes. -/
theorem beforePanel_get (hl : ∀ k ∈ l, k < 8 ∧ k ≠ n) {f : Fld} (hf : f.addr / 0x10000 = 0x0F00 + n ∨ f.addr / 0x10000 = 0x1000 + n) :
    (s.beforePanel d l).get f = s.get f := by
  have hn := n.isLt
  rw [(beforePanel_paced hl).get (besideBlocks_panel n hf), beatCounted_get s d (block_count (by omega))]

theorem beforePanel_tch (hl : ∀ k ∈ l, k < 8 ∧ k ≠ n) : (s.beforePanel d l).tch n = s.tch n :=
  (beforePanel_paced hl).tch n (besideBlocks_panel n (.inr rfl))

/-- What a scan reads is as the command found it, but for the number of the beat. -/
theorem beforePanel_alike (hd : d.int = s.drum.int ∧ d.num = s.drum.num ∧ d.den = s.drum.den) (hl : ∀ k ∈ l, k < 8 ∧ k ≠ n) :
    s.ScanAlike n s.nextBeat ((s.beforePanel d l).beatCleared n) := by
  obtain ⟨hi, hnum, hden⟩ := hd
  have hn := n.isLt
  have hp := beforePanel_paced (s := s) (d := d) hl
  have hc := beatCleared_paced (s.beforePanel d l) n
  have ht := tch_beatCleared (s.beforePanel d l) n
  rw [beforePanel_tch hl] at ht
  have hlow {b : Nat} (h0 : 0 < b) (hb : b < 0x0E00) : ¬ panelBlocks n b := by
    unfold panelBlocks
    omega
  have hdrum : ((s.beforePanel d l).beatCleared n).drum = d :=
    ((hc.proj State.drum fun _ _ _ _ _ _ _ => rfl).trans (hp.proj State.drum fun _ _ _ _ _ _ _ => rfl))
  refine ⟨fun f hf => ?_, ht.seq, ht.survey, ht.stImage, ?_, fun k hk => ?_, ?_⟩
  · exact (hf.get_beatCleared _).trans (beforePanel_get hl hf.block)
  · rw [State.drumbeat, hc.get (hlow (by decide) (by decide)), hc.get (hlow (by decide) (by decide)),
      hp.get (besideBlocks_low n (by decide) (by decide)), hp.get (besideBlocks_low n (by decide) (by decide)),
      ← State.drumbeat, beatCounted_drumbeat]
  · have hb : 0 < Reg.SCREEN_STATUS k / 0x10000 ∧ Reg.SCREEN_STATUS k / 0x10000 < 0x0E00 ∧ Reg.SCREEN_STATUS k / 0x10000 ≠ 0x0100 := by
      unfold Reg.SCREEN_STATUS reg
      omega
    obtain ⟨hb0, hb1, hb2⟩ := hb
    have hrun : ((s.beforePanel d l).beatCleared n).running k = s.running k := by
      rw [State.running, hc.bit (hlow hb0 hb1), hp.bit (besideBlocks_low n hb0 hb1), State.bit, beatCounted_get s d (block_count hb2)]
      rfl
    have hscr : ((s.beforePanel d l).beatCleared n).scr k = s.scr k :=
      (hc.proj (State.scr · k) fun _ _ _ _ _ _ _ => rfl).trans (hp.proj (State.scr · k) fun _ _ _ _ _ _ _ => rfl)
    rw [State.sends, hrun, hscr, State.sends]
  · rw [State.beatRate, hdrum, hi, hnum, hden, State.beatRate]

end

end Sys2Proof.Machine
end

section
/-! SUPPORT. What a beat leaves on a panel whose link is in RUN: its report, and its scan. -/

namespace Sys2Proof.Machine

section
variable {s : State} {n : Fin 8}

/-- The beat of panel `n` alone: state `y` holds of the panel what the command found, and the beat leaves of the panel what the
panel's own beat leaves. -/
structure State.PanelBeat (s : State) (n : Fin 8) (y : State) : Prop where
  field : ∀ f : Fld, (f.addr / 0x10000 = 0x0F00 + n ∨ f.addr / 0x10000 = 0x1000 + n) → y.get f = s.get f
  record : y.tch n = s.tch n
  alike : s.ScanAlike n s.nextBeat (y.beatCleared n)
  after : s.beat.tch n = (y.touchBeat n).tch n
  afterField : ∀ f : Fld, (f.addr / 0x10000 = 0x0F00 + n ∨ f.addr / 0x10000 = 0x1000 + n) → s.beat.get f = (y.touchBeat n).get f

theorem panelBeat_exists (n : Fin 8) (h : (!s.bit Reg.DRUM_STATUS_ACTIVE_SOURCE || s.drum.edgeDue) = true) : ∃ y, s.PanelBeat n y := by
  obtain ⟨d, hd, hbeat⟩ := beat_falls h
  obtain ⟨before, after, hbefore, hafter, he⟩ := each_around (s.beatCounted d).audioBeat n fun k t => t.touchBeat k
  have hp := others_paced ((s.beforePanel d before).touchBeat n) hafter
  refine ⟨s.beforePanel d before, fun f hf => beforePanel_get hbefore hf, beforePanel_tch hbefore, beforePanel_alike hd hbefore, ?_,
    fun f hf => ?_⟩
  · rw [hbeat, he]
    exact hp.tch n (otherBlocks_panel n (.inr rfl))
  · rw [hbeat, he]
    exact hp.get (otherBlocks_panel n hf)

namespace State.PanelBeat

variable {y : State} (h : s.PanelBeat n y)
include h

theorem running (hrun : s.get (Reg.TSL_STATUS_STATE n) = 3) : y.linkState n = 3 :=
  (h.field _ (.inl (block_tsl n (by decide)))).trans hrun

theorem touchBeat_quiet (hrun : s.get (Reg.TSL_STATUS_STATE n) = 3)
    (hph : s.get (Reg.TOUCH_STATUS_PHASE n) < 2 ∨ 5 < s.get (Reg.TOUCH_STATUS_PHASE n)) : y.touchBeat n = y.beatCleared n := by
  rw [touchBeat_run (h.running hrun), h.alike.phase, if_pos hph]

theorem touchBeat_scans (hrun : s.get (Reg.TSL_STATUS_STATE n) = 3) (h2 : 2 ≤ s.get (Reg.TOUCH_STATUS_PHASE n))
    (h5 : s.get (Reg.TOUCH_STATUS_PHASE n) ≤ 5) : y.touchBeat n = (y.beatCleared n).scanStart n := by
  rw [touchBeat_run (h.running hrun), h.alike.phase, if_neg (by omega)]

theorem cleared : (s.tch n).Cleared ((y.beatCleared n).tch n) := h.record ▸ tch_beatCleared y n

end State.PanelBeat

/-! ### The report -/

theorem get_scanStart_status (s : State) : (s.scanStart n).get (Reg.TOUCH_STATUS_OVERRUN n) = s.get (Reg.TOUCH_STATUS_OVERRUN n) := by
  have hi : Reg.TOUCH_STATUS n / 0x10000 ≠ 0x1700 := fun e => overrun_notIc (n := n) (by rw [e]; decide)
  change (s.quietFallback n).get _ = _
  unfold State.quietFallback State.when
  split
  · exact get_event_ne s _ (Nat.le_of_ble_eq_true rfl) hi (.inr (.inl (Nat.le_of_ble_eq_true rfl))) (.inr (.inl (Nat.le_of_ble_eq_true rfl)))
  · rfl

theorem get_scanStart_counts (s : State) : (s.scanStart n).get (Reg.TOUCH_COUNTS_DROPPED n) = s.get (Reg.TOUCH_COUNTS_DROPPED n) := by
  have hi : Reg.TOUCH_COUNTS n / 0x10000 ≠ 0x1700 := fun e => dropped_notIc (n := n) (by rw [e]; decide)
  have hne := (status_ne_counts (n := n)).symm
  change (s.quietFallback n).get _ = _
  unfold State.quietFallback State.when
  split
  · exact get_event_ne s _ (Nat.le_of_ble_eq_true rfl) hi (.inl hne) (.inl hne)
  · rfl

theorem get_tslGroupTimeout_counts (s : State) :
    (s.tslGroupTimeout n).get (Reg.TOUCH_COUNTS_DROPPED n) = s.get (Reg.TOUCH_COUNTS_DROPPED n) := by
  have h : Reg.TOUCH_COUNTS n / 0x10000 ≠ 0x1700 ∧ Reg.TOUCH_COUNTS n ≠ Reg.TSL_STATUS n ∧ Reg.TOUCH_COUNTS n ≠ Reg.TSL_SCANS n := by
    revert n; decide
  obtain ⟨hi, hs, hc⟩ := h
  exact get_tslGroupTimeout_other s (Nat.le_of_ble_eq_true rfl) hi hs hc

theorem reportDue_beatCleared {y : State} (hdue : (y.tch n).reportDue = true) :
    (y.beatCleared n).get (Reg.TOUCH_STATUS_OVERRUN n) = 1 ∧
      (y.beatCleared n).get (Reg.TOUCH_COUNTS_DROPPED n) = y.more (Reg.TOUCH_COUNTS_DROPPED n) := by
  obtain ⟨k, d, -, e⟩ := tch_tslGroupTimeout (y.linkBegin n) n (by rw [tch_linkBegin])
  have hd : (((y.linkBegin n).tslGroupTimeout n).tch n).reportDue = true := by rw [e, tch_linkBegin]; exact hdue
  obtain ⟨ho, hc⟩ := reportDropped_counts hd
  refine ⟨ho, hc.trans ?_⟩
  rw [State.more, get_tslGroupTimeout_counts]
  rfl

/-- R284: a report that was not written by the beat is dropped and counted. -/
theorem beat_dropsReport (hf : (!s.bit Reg.DRUM_STATUS_ACTIVE_SOURCE || s.drum.edgeDue) = true)
    (hrun : s.get (Reg.TSL_STATUS_STATE n) = 3) (hdue : (s.tch n).reportDue = true) :
    (s.beat.tch n).reportDue = false ∧ s.beat.bit (Reg.TOUCH_STATUS_OVERRUN n) = true ∧
      s.beat.get (Reg.TOUCH_COUNTS_DROPPED n) = s.more (Reg.TOUCH_COUNTS_DROPPED n) := by
  obtain ⟨y, h⟩ := panelBeat_exists n hf
  have hcl := h.cleared
  obtain ⟨ho, hc⟩ := reportDue_beatCleared (h.record.symm ▸ hdue : (y.tch n).reportDue = true)
  have hmore : y.more (Reg.TOUCH_COUNTS_DROPPED n) = s.more (Reg.TOUCH_COUNTS_DROPPED n) := by
    rw [State.more, h.field _ (.inr (block_touch n (by decide))), State.more]
  have key : ((y.touchBeat n).tch n).reportDue = false ∧ (y.touchBeat n).get (Reg.TOUCH_STATUS_OVERRUN n) = 1 ∧
      (y.touchBeat n).get (Reg.TOUCH_COUNTS_DROPPED n) = y.more (Reg.TOUCH_COUNTS_DROPPED n) := by
    by_cases hph : s.get (Reg.TOUCH_STATUS_PHASE n) < 2 ∨ 5 < s.get (Reg.TOUCH_STATUS_PHASE n)
    · rw [h.touchBeat_quiet hrun hph]
      exact ⟨hcl.reportDue, ho, hc⟩
    · obtain ⟨phase, -, e⟩ := tch_scanStart (y.beatCleared n) n hcl.sent
      rw [h.touchBeat_scans hrun (by omega) (by omega), e, get_scanStart_status, get_scanStart_counts]
      exact ⟨hcl.reportDue, ho, hc⟩
  obtain ⟨k1, k2, k3⟩ := key
  refine ⟨(congrArg TouchState.reportDue h.after).trans k1, ?_, ?_⟩
  · rw [bit_eq_true rfl, h.afterField _ (.inr (block_touch n (by decide))), k2]
  · rw [h.afterField _ (.inr (block_touch n (by decide))), k3, hmore]

/-! ### The scan -/

/-- A beat starts no scan on a panel whose engine does not scan. -/
theorem beat_noScan (hf : (!s.bit Reg.DRUM_STATUS_ACTIVE_SOURCE || s.drum.edgeDue) = true)
    (hrun : s.get (Reg.TSL_STATUS_STATE n) = 3)
    (hph : s.get (Reg.TOUCH_STATUS_PHASE n) < 2 ∨ 5 < s.get (Reg.TOUCH_STATUS_PHASE n)) :
    (s.beat.tch n).scan.active = false ∧ (s.beat.tch n).sent = [] := by
  obtain ⟨y, h⟩ := panelBeat_exists n hf
  rw [h.after, h.touchBeat_quiet hrun hph]
  exact ⟨h.cleared.active, h.cleared.sent⟩

/-- R255: a beat starts a scan on a panel whose engine scans. -/
theorem beat_startsScan (hf : (!s.bit Reg.DRUM_STATUS_ACTIVE_SOURCE || s.drum.edgeDue) = true)
    (hrun : s.get (Reg.TSL_STATUS_STATE n) = 3) (h2 : 2 ≤ s.get (Reg.TOUCH_STATUS_PHASE n))
    (h5 : s.get (Reg.TOUCH_STATUS_PHASE n) ≤ 5) : ∃ z : State, s.ScanAlike n s.nextBeat z ∧ ∃ phase < 80,
      (s.beat.tch n).scan = z.beatScan n (s.tch n).seq (s.get (Reg.TSL_CTRL_MARK_LEAD n)) phase ∧
      (s.beat.tch n).sent =
        [scanFrame (s.tch n).seq (z.scanHalf n) (z.scanListens n) (z.scanGuard n) (z.scanFreq n (z.scanListens n))] ∧
      (s.beat.tch n).fseq = 0 ∧ (s.beat.tch n).seq = ((s.tch n).seq + 1) % 256 := by
  obtain ⟨y, h⟩ := panelBeat_exists n hf
  obtain ⟨phase, hlt, e⟩ := tch_scanStart (y.beatCleared n) n h.cleared.sent
  rw [h.cleared.seq, h.alike.field _ panelField_lead] at e
  refine ⟨_, h.alike, phase, hlt, ?_⟩
  rw [h.after, h.touchBeat_scans hrun h2 h5, e]
  exact ⟨rfl, rfl, rfl, rfl⟩

end

end Sys2Proof.Machine
end

section
/-! SUPPORT. A start of the audio unit in the beat at which it takes effect or is refused. -/

namespace Sys2Proof.Machine

section
variable {s : State} {d : DrumState}

/-- What the beats of the panels may touch. -/
def allPanels (b : Nat) : Prop := ∃ k < 8, panelBlocks k b

theorem panels_paced (s : State) : s.Paced allPanels (s.each (List.range 8) fun n t => t.touchBeat n) :=
  .each _ (fun k hk t => (touchBeat_paced t k).mono fun _ hb => ⟨k, List.mem_range.1 hk, hb⟩) s

theorem allPanels_own {b : Nat} (h : b = 0x0100 ∨ b = 0x1300 ∨ b = audRecord) : ¬ allPanels b := by
  unfold allPanels panelBlocks
  unfold audRecord at h
  rintro ⟨k, hk, hb⟩
  omega

/-! ### Refused at the beat -/

theorem audioBeat_refused (hdue : s.aud.startDue = true) (hrate : s.drum.audioRate = false) : s.audioBeat =
    ({ s with aud := { s.aud with startDue := false } }.set Reg.AUD_CTRL_EN 0).audRefuse 1 := by
  rw [State.audioBeat, if_pos (by rw [hdue, hrate]; rfl)]

/-- What a refusal leaves of the audio unit's registers. -/
theorem audRefuse_gets (s : State) : (s.audRefuse 1).get Reg.AUD_STATUS_CFG_ERR = 1 ∧ (s.audRefuse 1).get Reg.AUD_STATUS_ERR_CODE = 1 ∧
    (s.audRefuse 1).get Reg.AUD_STATUS_RUNNING = s.get Reg.AUD_STATUS_RUNNING ∧ (s.audRefuse 1).get Reg.AUD_CTRL_EN = s.get Reg.AUD_CTRL_EN := by
  refine ⟨?_, ?_, ?_, ?_⟩
  · rw [State.audRefuse, State.audEvent, State.event, get_raiseIrq_other _ _ (by decide), State.count_eq,
      State.get_set_apart _ _ _ _ (by decide) (by decide), State.get_set_same _ _ _ (by decide)]
    rfl
  · rw [State.audRefuse, State.audEvent, get_event_ne _ _ (by decide) (by decide) (by decide) (by decide),
      State.get_set_same _ _ _ (by decide)]
    rfl
  · rw [State.audRefuse, State.audEvent, get_event_ne _ _ (by decide) (by decide) (by decide) (by decide),
      State.get_set_apart _ _ _ _ (by decide) (by decide)]
  · rw [State.audRefuse, State.audEvent, get_event_ne _ _ (by decide) (by decide) (by decide) (by decide),
      State.get_set_other _ _ _ _ (by decide)]

theorem aud_event (s : State) (flag events : Fld) (k : Nat) : (s.event flag events k).aud = s.aud :=
  ((State.Notes.refl [0x1700, flag.addr / 0x10000, events.addr / 0x10000] s).event flag events k (by simp) (by simp) (by simp)).proj
    State.aud fun _ _ _ _ => rfl

theorem audioBeat_refuses (hdue : s.aud.startDue = true) (hrate : s.drum.audioRate = false) :
    s.audioBeat.aud.startDue = false ∧ s.audioBeat.get Reg.AUD_CTRL_EN = 0 ∧ s.audioBeat.get Reg.AUD_STATUS_CFG_ERR = 1 ∧
      s.audioBeat.get Reg.AUD_STATUS_ERR_CODE = 1 ∧ s.audioBeat.get Reg.AUD_STATUS_RUNNING = s.get Reg.AUD_STATUS_RUNNING := by
  rw [audioBeat_refused hdue hrate]
  obtain ⟨he, hc, hr, hen⟩ := audRefuse_gets ({ s with aud := { s.aud with startDue := false } }.set Reg.AUD_CTRL_EN 0)
  refine ⟨?_, ?_, he, hc, hr.trans (State.get_set_other _ _ _ _ (by decide))⟩
  · rw [State.audRefuse, State.audEvent, aud_event]
    rfl
  · rw [hen, State.get_set_same _ _ _ (by decide)]
    rfl

/-! ### Taken at the beat -/

/-- The state in which a start of the audio unit takes effect: a run that was to stop has stopped. -/
def State.audFree (s : State) : State := s.when s.aud.stopDue (·.audStop)

theorem audioBeat_taken (hdue : s.aud.startDue = true) (hrate : s.drum.audioRate = true) : s.audioBeat =
    { s.audFree with aud := { s.audFree.aud with
        startDue := false, stage := s.audFree.stageAddr, block := 0, hpf := [], eq := [], outs := [], last := [], staged := false,
        silent := true, late := [] } }.set Reg.AUD_STATUS_RUNNING 1 := by
  rw [State.audioBeat, if_neg (by rw [hdue, hrate]; decide), if_pos hdue]
  rfl

theorem audFree_stopDue (s : State) : s.audFree.aud.stopDue = false := by
  unfold State.audFree State.when
  split
  · rfl
  next h => exact Bool.not_eq_true _ ▸ h

theorem audFree_stageAddr (s : State) : s.audFree.stageAddr = 256 * s.get Reg.AUD_STAGE_ADDR := by
  have h0 : ¬ stopBlocks 0x1300 := by unfold stopBlocks; decide
  rw [State.stageAddr, State.audFree, State.when]
  split
  · have hk : s.audStop.get Reg.AUD_STAGE_ADDR = (s.set Reg.AUD_STATUS_RUNNING 0).get Reg.AUD_STAGE_ADDR := (audHalted_paced _).get h0
    exact congrArg (256 * ·) (hk.trans (State.get_set_other _ _ _ _ (by decide)))
  · rfl

theorem audioBeat_starts (hdue : s.aud.startDue = true) (hrate : s.drum.audioRate = true) :
    s.audioBeat.get Reg.AUD_STATUS_RUNNING = 1 ∧
      let a := s.audioBeat.aud
      a.startDue = false ∧ a.block = 0 ∧ a.stage = 256 * s.get Reg.AUD_STAGE_ADDR ∧ a.hpf = [] ∧ a.eq = [] ∧ a.staged = false ∧
        a.silent = true ∧ a.stopDue = false := by
  rw [audioBeat_taken hdue hrate, audFree_stageAddr]
  refine ⟨?_, rfl, rfl, rfl, rfl, rfl, rfl, rfl, audFree_stopDue s⟩
  rw [State.get_set_same _ _ _ (by decide)]
  rfl

/-! ### The whole beat -/

/-- The beat of the audio unit alone: `x` holds of it what the command found, and the beat leaves of it what its own beat leaves. -/
structure State.AudioBeat (s x : State) : Prop where
  record : x.aud = s.aud
  rate : x.drum.audioRate = s.drum.audioRate
  field : ∀ f : Fld, f.addr / 0x10000 = 0x1300 → x.get f = s.get f
  after : s.beat.aud = x.audioBeat.aud
  afterField : ∀ f : Fld, f.addr / 0x10000 = 0x1300 → s.beat.get f = x.audioBeat.get f
  number : s.beat.drumbeat = s.nextBeat

theorem drumbeat_paced {B : Nat → Prop} {t : State} (h : s.Paced B t) (hb : ¬ B 0x0100) : t.drumbeat = s.drumbeat := by
  have hh : t.get Reg.DRUM_COUNT_HI_COUNT = s.get Reg.DRUM_COUNT_HI_COUNT := h.get hb
  have hl : t.get Reg.DRUM_COUNT_LO_COUNT = s.get Reg.DRUM_COUNT_LO_COUNT := h.get hb
  rw [State.drumbeat, hh, hl, State.drumbeat]

theorem audioRate_congr {d e : DrumState} (h : d.int = e.int ∧ d.num = e.num ∧ d.den = e.den) : d.audioRate = e.audioRate := by
  obtain ⟨hi, hn, hd⟩ := h
  rw [DrumState.audioRate, hi, hn, hd, DrumState.audioRate]

theorem audioBeat_exists (h : (!s.bit Reg.DRUM_STATUS_ACTIVE_SOURCE || s.drum.edgeDue) = true) : ∃ x, s.AudioBeat x := by
  obtain ⟨d, hd, hbeat⟩ := beat_falls h
  have hp := panels_paced (s.beatCounted d).audioBeat
  rw [← hbeat] at hp
  have ha : ¬ audioBlocks 0x0100 := by unfold audioBlocks stopBlocks; decide
  refine ⟨s.beatCounted d, rfl, audioRate_congr hd, fun f hf => beatCounted_get s d (block_count (by omega)),
    hp.aud (allPanels_own (.inr (.inr rfl))), fun f hf => hp.get (allPanels_own (.inr (.inl hf))), ?_⟩
  rw [drumbeat_paced hp (allPanels_own (.inl rfl)), drumbeat_paced (audioBeat_paced _) ha, beatCounted_drumbeat]

end

end Sys2Proof.Machine
end

section
/-! SUPPORT. A beat at which no link runs and no start of the audio unit waits; the edges of DRUM_IN; the clearing of breach
counters. -/

namespace Sys2Proof.Machine

/-- Every link's command of the beat begins: nothing is sent. -/
def State.linksBegin (s : State) : State := s.each (List.range 8) fun n t => t.linkBegin n

section
variable {s t u : State} {d : DrumState} {l : List (Fld × Nat)}

theorem each_touchBeat_idle {ns : List Nat} (h : ∀ m ∈ ns, s.linkState m ≠ 3) :
    (s.each ns fun n t => t.touchBeat n) = s.each ns fun n t => t.linkBegin n := by
  induction ns generalizing s with
  | nil => rfl
  | cons n ns ih =>
    have hn : s.touchBeat n = s.linkBegin n := touchBeat_idle (h n List.mem_cons_self)
    have hs : ∀ m ∈ ns, (s.linkBegin n).linkState m ≠ 3 := fun m hm => h m (List.mem_cons_of_mem n hm)
    change (s.touchBeat n).each ns _ = (s.linkBegin n).each ns _
    rw [hn, ih hs]

theorem beside_linkBegins (ns : List Nat) : Beside fun s => s.each ns fun n t => t.linkBegin n := by
  intro x r
  induction ns generalizing x with
  | nil => rfl
  | cons n ns ih => exact ih (x.linkBegin n)

theorem linksBegin_paced (s : State) : s.Paced (fun _ => True) s.linksBegin :=
  .each _ (fun n _ t => (linkBegin_paced t n).mono fun _ _ => trivial) s

theorem each_linkBegin_touch (ns : List Nat) (s : State) : ∃ c, (s.each ns fun n t => t.linkBegin n) = { s with touch := c } := by
  induction ns generalizing s with
  | nil => exact ⟨s.touch, rfl⟩
  | cons n ns ih => exact ih (s.linkBegin n)

theorem linksBegin_regs (s : State) : s.linksBegin.regs = s.regs := by
  obtain ⟨c, e⟩ := each_linkBegin_touch (List.range 8) s
  rw [State.linksBegin, e]

theorem linksBegin_ic (s : State) : s.linksBegin.ic = s.ic := by
  obtain ⟨c, e⟩ := each_linkBegin_touch (List.range 8) s
  rw [State.linksBegin, e]

/-- A beat with no start of the audio unit and no link in RUN is counted, and each link begins its command. -/
theorem beatAt_quiet (i : Nat) (hdue : s.aud.startDue = false) (hlinks : ∀ m < 8, s.linkState m ≠ 3) :
    (s.withDrum d).beatAt i = (s.beatCounted (d.atBeat (s.bit Reg.DRUM_CTRL_OUT_EN) i)).linksBegin := by
  have hx (e : DrumState) : (s.beatCounted e).audioBeat = s.beatCounted e := by
    have hd : (s.beatCounted e).aud.startDue = false := hdue
    rw [State.audioBeat, if_neg (by rw [hd]; exact Bool.false_ne_true), if_neg (by rw [hd]; exact Bool.false_ne_true)]
  rw [beatAt_eq, hx, each_touchBeat_idle, State.linksBegin]
  intro m hm
  have hm8 := List.mem_range.1 hm
  have hb : Reg.TSL_STATUS m / 0x10000 = 0x0F00 + m := block_tsl m (by decide)
  rw [State.linkState, beatCounted_get s _ (block_count (by rw [hb]; omega))]
  exact hlinks m hm8

/-- The fields that a quiet beat sets. -/
theorem setsOnly_quietBeat (h : u.SetsOnly l t) : (u.withDrum d).linksBegin.SetsOnly
    ((Reg.DRUM_COUNT_LO_COUNT, t.nextBeat % 2 ^ 32) :: (Reg.DRUM_COUNT_HI_COUNT, t.nextBeat / 2 ^ 32) :: l) (t.beatCounted d).linksBegin := by
  have hd : (u.withDrum d).SetsOnly l (t.withDrum d) := setsOnly_beside (f := (State.withDrum · d)) (fun _ _ => rfl) h
  have hs := setsOnly_set (setsOnly_set hd Reg.DRUM_COUNT_HI_COUNT (t.nextBeat / 2 ^ 32)) Reg.DRUM_COUNT_LO_COUNT (t.nextBeat % 2 ^ 32)
  rw [State.beatCounted, drumAdvance_eq, nextBeat_withDrum]
  exact setsOnly_beside (f := State.linksBegin) (beside_linkBegins _) hs

/-- What a quiet beat leaves: the fields it sets, and the drumbeat's state beside its registers. -/
theorem setsAnd_quietBeat {c : Instr} {q : State → Prop} (h : (s.withDrum d).linksBegin.SetsOnly l t) (hc : exec c s = .next t)
    (hq : t.drum = d → q t) : SetsAnd c s l q := by
  have hp := linksBegin_paced (s.withDrum d)
  refine ⟨t, hc, fun a i hi => ?_, ?_, hq ?_⟩
  · have e : (s.withDrum d).linksBegin.reg a = s.reg a := State.reg_congr (linksBegin_regs _) a
    rw [← e]
    exact h.1 a i hi
  · refine sameBytes_of_eq ?_ ?_ ?_ ?_
    · exact (h.proj State.memA fun _ _ => rfl).trans (hp.proj State.memA fun _ _ _ _ _ _ _ => rfl)
    · exact (h.proj State.memB fun _ _ => rfl).trans (hp.proj State.memB fun _ _ _ _ _ _ _ => rfl)
    · exact (h.proj State.sram fun _ _ => rfl).trans (hp.proj State.sram fun _ _ _ _ _ _ _ => rfl)
    · exact (h.proj State.flash fun _ _ => rfl).trans (hp.proj State.flash fun _ _ _ _ _ _ _ => rfl)
  · exact (h.proj State.drum fun _ _ => rfl).trans (hp.proj State.drum fun _ _ _ _ _ _ _ => rfl)

/-! ### No edge has come -/

/-- R23: the interval of a beat that is taken from the divider. -/
def DrumState.missInterval (d : DrumState) : Nat := ceilDiv (1001 * (d.int * d.den + d.num)) (1000 * d.den)

/-- R23: the drumbeat's state beside its registers where no edge has come. -/
def DrumState.afterMiss (d : DrumState) : DrumState := { d with missed := d.missed + 1, gridBeat := some 0 }

/-- R23: the beat that is taken from the divider, before the source is looked at. -/
def State.missBeat (s : State) : State :=
  ((s.count Reg.DRUM_STATUS_DEVIANT_EDGES).withDrum s.drum.afterMiss).beatAt s.drum.missInterval

theorem drumInMissing_eq (hact : s.bit Reg.DRUM_STATUS_ACTIVE_SOURCE = true) (hedge : s.drum.edgeDue = false) :
    s.drumInMissing = if 4 ≤ s.drum.missed + 1 then s.missBeat.drumLost else s.missBeat := by
  rw [State.drumInMissing, if_neg (by rw [hact, hedge]; decide)]
  rfl

theorem exec_drumInMissing (h : s.drumInMissing = t) : exec .drumInMissing s = .next t := h ▸ rfl

/-- The drumbeat's state beside its registers after the beat that is taken from the divider. -/
def State.missDrum (s : State) : DrumState := s.drum.afterMiss.atBeat (s.bit Reg.DRUM_CTRL_OUT_EN) s.drum.missInterval

theorem missBeat_quiet (hdue : s.aud.startDue = false) (hlinks : ∀ m < 8, s.linkState m ≠ 3) :
    s.missBeat = ((s.count Reg.DRUM_STATUS_DEVIANT_EDGES).beatCounted s.missDrum).linksBegin := by
  have hout : (s.count Reg.DRUM_STATUS_DEVIANT_EDGES).bit Reg.DRUM_CTRL_OUT_EN = s.bit Reg.DRUM_CTRL_OUT_EN := by
    rw [State.bit, State.count_eq, State.get_set_other _ _ _ _ (by decide), State.bit]
  have hl : ∀ m < 8, (s.count Reg.DRUM_STATUS_DEVIANT_EDGES).linkState m ≠ 3 := fun m hm => by
    have hne : Reg.TSL_STATUS m ≠ Reg.DRUM_STATUS := by unfold Reg.TSL_STATUS Reg.DRUM_STATUS reg; omega
    rw [State.linkState, State.count_eq, State.get_set_other _ _ _ _ hne]
    exact hlinks m hm
  rw [State.missBeat, beatAt_quiet _ (by exact hdue) hl, hout, State.missDrum]

theorem nextBeat_deviant : (s.count Reg.DRUM_STATUS_DEVIANT_EDGES).nextBeat = s.nextBeat := by
  rw [State.nextBeat, State.drumbeat, State.count_eq, State.get_set_other _ _ _ _ (by decide), State.get_set_other _ _ _ _ (by decide),
    State.nextBeat, State.drumbeat]

theorem missBeat_sets (hdue : s.aud.startDue = false) (hlinks : ∀ m < 8, s.linkState m ≠ 3) :
    (s.withDrum s.missDrum).linksBegin.SetsOnly
      [(Reg.DRUM_COUNT_LO_COUNT, s.nextBeat % 2 ^ 32), (Reg.DRUM_COUNT_HI_COUNT, s.nextBeat / 2 ^ 32),
       (Reg.DRUM_STATUS_DEVIANT_EDGES, s.more Reg.DRUM_STATUS_DEVIANT_EDGES)] s.missBeat := by
  have h := setsOnly_quietBeat (d := s.missDrum)
    (setsOnly_set (setsOnly_refl s) Reg.DRUM_STATUS_DEVIANT_EDGES (s.more Reg.DRUM_STATUS_DEVIANT_EDGES))
  rw [missBeat_quiet hdue hlinks, ← nextBeat_deviant]
  exact h

theorem missBeat_events (hdue : s.aud.startDue = false) (hlinks : ∀ m < 8, s.linkState m ≠ 3) :
    s.missBeat.get Reg.DRUM_STATUS_EVENTS = s.get Reg.DRUM_STATUS_EVENTS := by
  rw [missBeat_quiet hdue hlinks, State.get_congr (linksBegin_regs _), beatCounted_get _ _ (by decide), State.count_eq,
    State.get_set_apart _ _ _ _ (by decide) (by decide)]

/-- R24: the fourth beat in a row without an edge enters holdover. -/
theorem drumLost_sets (hdue : s.aud.startDue = false) (hlinks : ∀ m < 8, s.linkState m ≠ 3) (hk : s.SourceFree 122) :
    (s.withDrum s.missDrum).linksBegin.SetsOnly
      [(Reg.IC_SRC_PENDING 122, 1), (Reg.DRUM_STATUS_EVENTS, s.more Reg.DRUM_STATUS_EVENTS), (Reg.DRUM_STATUS_IN_LOST, 1),
       (Reg.DRUM_STATUS_ACTIVE_SOURCE, 0), (Reg.DRUM_STATUS_HOLDOVER, 1),
       (Reg.DRUM_COUNT_LO_COUNT, s.nextBeat % 2 ^ 32), (Reg.DRUM_COUNT_HI_COUNT, s.nextBeat / 2 ^ 32),
       (Reg.DRUM_STATUS_DEVIANT_EDGES, s.more Reg.DRUM_STATUS_DEVIANT_EDGES)]
      (((s.missBeat.set Reg.DRUM_STATUS_HOLDOVER 1).set Reg.DRUM_STATUS_ACTIVE_SOURCE 0).drumEvent Reg.DRUM_STATUS_IN_LOST) := by
  have hfree : (s.withDrum s.missDrum).linksBegin.SourceFree 122 := by
    unfold State.SourceFree
    rwa [linksBegin_ic]
  have h := setsOnly_drumEvent (setsOnly_set (setsOnly_set (missBeat_sets hdue hlinks) Reg.DRUM_STATUS_HOLDOVER 1)
    Reg.DRUM_STATUS_ACTIVE_SOURCE 0) hfree (flag := Reg.DRUM_STATUS_IN_LOST) (by decide)
  rwa [State.more, State.get_set_apart _ _ _ _ (by decide) (by decide), State.get_set_apart _ _ _ _ (by decide) (by decide),
    missBeat_events hdue hlinks] at h

/-! ### An edge comes -/

theorem qualifies_iff (d : DrumState) (ns : Nat) : d.qualifies ns = true ↔
    999 * (40 * (d.int * d.den + d.num)) ≤ 1000 * d.den * ns ∧ 1000 * d.den * ns ≤ 1001 * (40 * (d.int * d.den + d.num)) := by
  simp [DrumState.qualifies]

theorem exec_drumInEdge {ns : Nat} (h : s.drumInEdge ns = t) : exec (.drumInEdge ns) s = .next t := h ▸ rfl

/-! ### The clearing of breach counters -/

/-- R40: what one bit of a write of SYS_0_BREACH_CLR sets. -/
def breachCleared (v : Word) (k : Nat) : List (Fld × Nat) :=
  if bitOf v.toNat k then [(Reg.SYS_BREACH_LAST_PORT k, 0x3F), (Reg.SYS_BREACH_COUNT k, 0)] else []

theorem setsOnly_breachClr (v : Word) (ks : List Nat) (h : u.SetsOnly l t) : u.SetsOnly (ks.reverse.flatMap (breachCleared v) ++ l)
    (t.each ks fun k t => t.when (bitOf v.toNat k) fun t => (t.set (Reg.SYS_BREACH_COUNT k) 0).set (Reg.SYS_BREACH_LAST_PORT k) 0x3F) := by
  induction ks generalizing l t with
  | nil => exact h
  | cons k ks ih =>
    rw [List.reverse_cons, List.flatMap_append, List.append_assoc]
    refine ih ?_
    rw [List.flatMap_singleton, breachCleared]
    dsimp only [State.when]
    split
    · exact setsOnly_set (setsOnly_set h _ 0) _ 0x3F
    · exact h

end

end Sys2Proof.Machine
end

section
/-! PROOF. O6: the beat, the external drumbeat and its loss, and the clearing of breach counters. -/

namespace Sys2Proof.Machine

section
variable {s : State} {n : Fin 8}

/-- R255, R263, R265, R280: the scan that a beat starts, in the terms of the command's own state. -/
theorem beat_scan (hf : (!s.bit Reg.DRUM_STATUS_ACTIVE_SOURCE || s.drum.edgeDue) = true)
    (hrun : s.get (Reg.TSL_STATUS_STATE n) = 3) (h2 : 2 ≤ s.get (Reg.TOUCH_STATUS_PHASE n))
    (h5 : s.get (Reg.TOUCH_STATUS_PHASE n) ≤ 5) {half : Nat} {listen : Bool}
    (hhalf : half = if s.halfScans n then s.nextBeat % 2 + 1 else 0)
    (hlisten : listen = (s.get (Reg.TOUCH_STATUS_PHASE n) == 3 && s.nextBeat % 16 == 15)) :
    let k := (s.beat.tch n).scan
    let all := (s.grid n).groups
    k.active = true ∧ k.drum = s.nextBeat ∧ k.dseq = (s.tch n).seq ∧ k.listen = listen ∧ k.half = half ∧ k.freq = s.scanFreq n listen ∧
      k.got = 0 ∧ k.convs = 0 ∧ k.isOpen = false ∧
      k.quiet = (s.get (Reg.TOUCH_STATUS_PHASE n) != 3 && s.sends (s.get (Reg.TOUCH_CTRL_SCREEN n))) ∧
      k.first = (if half = 2 then (all + 1) / 2 else 0) ∧
      k.groups = (if half = 0 then all else if half = 1 then (all + 1) / 2 else all - (all + 1) / 2) ∧
      k.phase < 80 ∧ k.marks.map (·.mark) = [.beat] ∧ k.marks.map (·.instant) = [0] ∧
      (∀ m ∈ k.marks, -(s.get (Reg.TSL_CTRL_MARK_LEAD n) : Int) ≤ m.time ∧ m.time < 80 - (s.get (Reg.TSL_CTRL_MARK_LEAD n) : Int) ∧
        (m.time - k.phase) % 80 = 0) ∧
      (s.beat.tch n).sent = [scanFrame (s.tch n).seq half listen
        (if s.get (Reg.TOUCH_STATUS_PHASE n) = 4 then (s.tch n).stImage else 0) (s.scanFreq n listen)] ∧
      (s.beat.tch n).fseq = 0 ∧ (s.beat.tch n).seq = ((s.tch n).seq + 1) % 256 := by
  obtain ⟨z, hz, phase, hlt, hscan, hsent, hfseq, hseq⟩ := beat_startsScan hf hrun h2 h5
  rw [hz.half, hz.listens, hz.guard, hz.freq, ← hhalf, ← hlisten] at hsent
  have hle : half ≤ 2 := by rw [hhalf]; split <;> omega
  have hk : z.beatScan n (s.tch n).seq (s.get (Reg.TSL_CTRL_MARK_LEAD n)) phase =
      { active := true, drum := s.nextBeat, dseq := (s.tch n).seq, listen := listen, half := half,
        guard := if s.get (Reg.TOUCH_STATUS_PHASE n) = 4 then (s.tch n).stImage else 0, freq := s.scanFreq n listen,
        quiet := s.get (Reg.TOUCH_STATUS_PHASE n) != 3 && s.sends (s.get (Reg.TOUCH_CTRL_SCREEN n)),
        first := if half = 2 then ceilDiv (s.grid n).groups 2 else 0,
        groups := if half = 0 then (s.grid n).groups else if half = 1 then ceilDiv (s.grid n).groups 2
          else (s.grid n).groups - if half = 2 then ceilDiv (s.grid n).groups 2 else 0,
        phase := phase,
        marks := [{ mark := .beat, time := markTime (s.get (Reg.TSL_CTRL_MARK_LEAD n)) phase 0 false, instant := 0 }] } := by
    rw [State.beatScan, hz.half, hz.listens, hz.guard, hz.freq, hz.quiet, hz.grid, hz.beat, ← hhalf, ← hlisten]
  rw [hscan, hk]
  refine ⟨rfl, rfl, rfl, rfl, rfl, rfl, rfl, rfl, rfl, rfl, rfl, ?_, hlt, rfl, rfl, fun m hm => ?_, hsent, hfseq, hseq⟩
  · by_cases h0 : half = 0
    · simp only [h0, if_true]
    · by_cases h1 : half = 1
      · simp only [h1, if_true, Nat.one_ne_zero, if_false]; rfl
      · have h2 : half = 2 := by omega
        simp only [h2, if_true, OfNat.ofNat_ne_zero, OfNat.ofNat_ne_one, if_false]; rfl
  · rw [List.mem_singleton.1 hm]
    exact markTime_beat _ _

/-- Log entry 87: a start of the audio unit whose rate has left the table is refused at the beat. -/
theorem beat_refusesAudio (hf : (!s.bit Reg.DRUM_STATUS_ACTIVE_SOURCE || s.drum.edgeDue) = true) (hdue : s.aud.startDue = true)
    (hrate : s.drum.audioRate = false) : s.beat.aud.startDue = false ∧ s.beat.bit Reg.AUD_CTRL_EN = false ∧
      s.beat.bit Reg.AUD_STATUS_CFG_ERR = true ∧ s.beat.get Reg.AUD_STATUS_ERR_CODE = 1 ∧
      s.beat.bit Reg.AUD_STATUS_RUNNING = s.bit Reg.AUD_STATUS_RUNNING ∧ s.beat.drumbeat = s.nextBeat := by
  obtain ⟨x, h⟩ := audioBeat_exists hf
  obtain ⟨hs, hen, hce, hcode, hr⟩ := audioBeat_refuses (h.record.symm ▸ hdue : x.aud.startDue = true) (h.rate.trans hrate)
  refine ⟨?_, ?_, ?_, ?_, ?_, h.number⟩
  · rw [h.after, hs]
  · rw [bit_eq_false, h.afterField _ (by decide), hen]
  · rw [bit_eq_true rfl, h.afterField _ (by decide), hce]
  · rw [h.afterField _ (by decide), hcode]
  · rw [State.bit, h.afterField _ (by decide), hr, h.field _ (by decide), State.bit]

/-- R305, R317: an accepted start of the audio unit takes effect at the beat. -/
theorem beat_startsAudio (hf : (!s.bit Reg.DRUM_STATUS_ACTIVE_SOURCE || s.drum.edgeDue) = true) (hdue : s.aud.startDue = true)
    (hrate : s.drum.audioRate = true) : s.beat.aud.startDue = false ∧ s.beat.bit Reg.AUD_STATUS_RUNNING = true ∧ s.beat.aud.block = 0 ∧
      s.beat.aud.stage = 256 * s.get Reg.AUD_STAGE_ADDR ∧ s.beat.aud.hpf = [] ∧ s.beat.aud.eq = [] ∧ s.beat.aud.staged = false ∧
      s.beat.aud.silent = true ∧ s.beat.aud.stopDue = false ∧ s.beat.drumbeat = s.nextBeat := by
  obtain ⟨x, h⟩ := audioBeat_exists hf
  obtain ⟨hr, ha⟩ := audioBeat_starts (h.record.symm ▸ hdue : x.aud.startDue = true) (h.rate.trans hrate)
  obtain ⟨hs, hblock, hstage, hhpf, heq, hstaged, hsilent, hstop⟩ := ha
  rw [h.field _ (by decide)] at hstage
  rw [h.after]
  refine ⟨hs, ?_, hblock, hstage, hhpf, heq, hstaged, hsilent, hstop, h.number⟩
  rw [bit_eq_true rfl, h.afterField _ (by decide), hr]

/-- R17, R21, R25: a quiet beat counts its number, and sets the drumbeat's state beside its registers. -/
theorem beat_quiet {d : DrumState} {i : Nat} {q : State → Prop} (hdue : s.aud.startDue = false) (hlinks : ∀ m < 8, s.linkState m ≠ 3)
    (hbeat : s.beat = (s.withDrum d).beatAt i) (hq : ∀ t : State, t.drum = d.atBeat (s.bit Reg.DRUM_CTRL_OUT_EN) i → q t) :
    SetsAnd .beat s
      [(Reg.DRUM_COUNT_LO_COUNT, (s.drumbeat + 1) % 2 ^ 64 % 2 ^ 32), (Reg.DRUM_COUNT_HI_COUNT, (s.drumbeat + 1) % 2 ^ 64 / 2 ^ 32)] q :=
  setsAnd_quietBeat (setsOnly_quietBeat (setsOnly_refl s)) (exec_beat (hbeat.trans (beatAt_quiet i hdue hlinks))) (hq _)

/-- R23: while fewer than three beats in a row had no edge, the beat is taken from the divider. -/
theorem drumInMissing_counts (hact : s.bit Reg.DRUM_STATUS_ACTIVE_SOURCE = true) (hedge : s.drum.edgeDue = false)
    (hdue : s.aud.startDue = false) (hlinks : ∀ m < 8, s.linkState m ≠ 3) (hm : s.drum.missed < 3) :
    SetsAnd .drumInMissing s
      [(Reg.DRUM_COUNT_LO_COUNT, (s.drumbeat + 1) % 2 ^ 64 % 2 ^ 32), (Reg.DRUM_COUNT_HI_COUNT, (s.drumbeat + 1) % 2 ^ 64 / 2 ^ 32),
       (Reg.DRUM_STATUS_DEVIANT_EDGES, s.more Reg.DRUM_STATUS_DEVIANT_EDGES)]
      fun t => t.drum.missed = s.drum.missed + 1 ∧ t.drum.gridBeat = some 0 := by
  have he := drumInMissing_eq hact hedge
  rw [if_neg (by omega)] at he
  refine setsAnd_quietBeat (missBeat_sets hdue hlinks) (exec_drumInMissing he) fun ht => ?_
  rw [ht]
  exact ⟨rfl, rfl⟩

/-- R24: the fourth beat in a row without an edge enters holdover, raises IN_LOST and fault input 3. -/
theorem drumInMissing_loses (hact : s.bit Reg.DRUM_STATUS_ACTIVE_SOURCE = true) (hedge : s.drum.edgeDue = false)
    (hdue : s.aud.startDue = false) (hlinks : ∀ m < 8, s.linkState m ≠ 3) (hm : 3 ≤ s.drum.missed) (hk : s.SourceFree 122) :
    DoesThen .drumInMissing s (s.withDrum s.missDrum).linksBegin
      [(Reg.IC_SRC_PENDING 122, 1), (Reg.DRUM_STATUS_EVENTS, s.more Reg.DRUM_STATUS_EVENTS), (Reg.DRUM_STATUS_IN_LOST, 1),
       (Reg.DRUM_STATUS_ACTIVE_SOURCE, 0), (Reg.DRUM_STATUS_HOLDOVER, 1),
       (Reg.DRUM_COUNT_LO_COUNT, s.nextBeat % 2 ^ 32), (Reg.DRUM_COUNT_HI_COUNT, s.nextBeat / 2 ^ 32),
       (Reg.DRUM_STATUS_DEVIANT_EDGES, s.more Reg.DRUM_STATUS_DEVIANT_EDGES)]
      fun t => (t.raiseFault 3).drumGridRestart := by
  have he := drumInMissing_eq hact hedge
  rw [if_pos (by omega), State.drumLost] at he
  exact ⟨_, drumLost_sets hdue hlinks hk, exec_drumInMissing he⟩

/-- R22: a qualifying edge is taken for the next beat. -/
theorem drumInEdge_taken {ns : Nat} (hact : s.bit Reg.DRUM_STATUS_ACTIVE_SOURCE = true)
    (hq : s.drum.qualifies ns = true) :
    Does (.drumInEdge ns) s { s with drum := { s.drum with edgeDue := true, edgeNs := ns, missed := 0 } } [] := by
  refine ⟨_, exec_drumInEdge ?_, setsOnly_refl _⟩
  rw [State.drumInEdge, if_pos (by rw [hact, hq]; rfl)]

/-- R22, R23: any other edge is ignored. -/
theorem drumInEdge_ignored {ns : Nat} (h : (s.bit Reg.DRUM_STATUS_ACTIVE_SOURCE && s.drum.qualifies ns) = false) :
    Does (.drumInEdge ns) s s [] := by
  refine ⟨_, exec_drumInEdge ?_, setsOnly_refl _⟩
  rw [State.drumInEdge, if_neg (by rw [h]; decide)]

/-- R40: a write of SYS_0_BREACH_CLR clears the counters whose bits it sets. -/
theorem breachClr_clears {w : World} {v : Word} (ha : s.Admits w 0x00 0 false) :
    Does (.breachClr w v) s s ([10, 9, 8, 7, 6, 5, 4, 3, 2].flatMap (breachCleared v)) := by
  have h := setsOnly_breachClr v [2, 3, 4, 5, 6, 7, 8, 9, 10] (setsOnly_refl s)
  rw [List.append_nil] at h
  exact ⟨_, congrArg Host.Outcome.next (asWriter_admits ha _), h⟩

end

/-- Settles O6: each clause is one of the lemmas above, on the audio unit, on one panel, on a quiet beat, on DRUM_IN, and on the
breach counters. -/
theorem beatCountsUpAndFollowsDrumIn : Obligations.BeatCountsUpAndFollowsDrumIn := by
  refine ⟨fun s n => ⟨fun hf hdue => ⟨fun hrate => ?_, fun hrate => ?_⟩, fun hf hrun => ⟨fun hdue => ?_, fun h2 h5 => ?_, fun hph => ?_⟩,
    fun hdue hlinks => ⟨fun hact => ?_, fun hact he => ?_, fun hact he => ?_⟩⟩, fun s ns => ⟨fun hact hlo hhi => ?_, fun h => ?_,
    fun hact hedge hdue hlinks => ⟨fun hm => ?_, fun hm hk => ?_⟩⟩, fun s w v ha => breachClr_clears ha⟩
  · exact ⟨_, exec_beat rfl, beat_refusesAudio hf hdue hrate⟩
  · exact ⟨_, exec_beat rfl, beat_startsAudio hf hdue hrate⟩
  · exact ⟨_, exec_beat rfl, beat_dropsReport hf hrun hdue⟩
  · exact ⟨_, exec_beat rfl, beat_scan hf hrun h2 h5 rfl rfl⟩
  · exact ⟨_, exec_beat rfl, beat_noScan hf hrun hph⟩
  · refine beat_quiet hdue hlinks (beat_internal hact) fun t ht => ?_
    rw [ht]
    exact ⟨rfl, rfl, rfl⟩
  · refine beat_quiet hdue hlinks (beat_external hact he) fun t ht => ?_
    rw [ht]
    exact ⟨rfl, rfl, rfl⟩
  · exact ⟨s, exec_beat (beat_none hact he), setsOnly_refl s⟩
  · exact drumInEdge_taken hact ((qualifies_iff _ _).2 ⟨hlo, hhi⟩)
  · refine drumInEdge_ignored (Bool.eq_false_iff.2 fun hc => h ?_)
    obtain ⟨hact, hq⟩ := Bool.and_eq_true_iff.1 hc
    exact ⟨hact, (qualifies_iff _ _).1 hq⟩
  · exact drumInMissing_counts hact hedge hdue hlinks hm
  · exact drumInMissing_loses hact hedge hdue hlinks hm hk

end Sys2Proof.Machine
end

section
/-! SUPPORT. Writes of registers with locked, cleared and set-once bits (R7, R9), and one write of fields after another. -/

namespace Sys2Proof.Machine

/-- The access types at an offset of a unit. -/
def unitAccess (u o : Nat) : Option (Word × Word × Word × Word) :=
  (findRow (unitRows u) o).map fun p => (p.1.rw ||| p.1.rws, p.1.rwl, p.1.w1c, p.1.w1s)

theorem rowAccess_reg {u i o : Nat} (hi : i < unitInstances u) (hi' : i < 256) (ho : o < 0x10000) : rowAccess (reg u i o) = unitAccess u o := by
  rw [rowAccess, rowAt_reg hi hi' ho, unitAccess]

section
variable {s : State} {a : Nat} {m r c e v : Word}

/-- R7: a bit of a register after a write. -/
theorem getLsbD_plainWrite (h : rowAccess a = some (m, r, c, e)) {i : Nat} (hi : i < 32) :
    ((s.plainWrite a v).reg a).getLsbD i =
      (((if m.getLsbD i || (r.getLsbD i && !s.locked a) then v.getLsbD i else (s.reg a).getLsbD i) && !(c.getLsbD i && v.getLsbD i)) ||
        (e.getLsbD i && v.getLsbD i)) := by
  obtain ⟨⟨q, ix⟩, hrow, hq⟩ := Option.map_eq_some_iff.1 h
  obtain ⟨hm, hl, hc, he⟩ : q.rw ||| q.rws = m ∧ q.rwl = r ∧ q.w1c = c ∧ q.w1s = e := by simpa using hq
  rw [State.plainWrite, hrow]
  simp only [State.reg_setReg, if_true, rowWrite, hm, hl, hc, he, BitVec.getLsbD_or, BitVec.getLsbD_and, BitVec.getLsbD_not, hi,
    decide_true, Bool.true_and]
  have hr : BitVec.getLsbD (if s.locked a = true then 0 else r) i = (r.getLsbD i && !s.locked a) := by
    cases s.locked a with
    | true => rw [if_pos rfl, Bool.not_true, Bool.and_false]; exact BitVec.getLsbD_zero
    | false => rw [if_neg Bool.false_ne_true, Bool.not_false, Bool.and_true]
  rw [hr]
  cases m.getLsbD i || (r.getLsbD i && !s.locked a) <;> cases v.getLsbD i <;> simp

/-- A write of a register, as the list of the fields that it sets. -/
theorem setsOnly_access (h : rowAccess a = some (m, r, c, e)) {fs : List (Fld × Nat)} (hfs : ∀ p ∈ fs, p.1.addr = a)
    (hbit : ∀ i < 32, bitAfter fs a i ((s.reg a).getLsbD i) =
      (((if m.getLsbD i || (r.getLsbD i && !s.locked a) then v.getLsbD i else (s.reg a).getLsbD i) && !(c.getLsbD i && v.getLsbD i)) ||
        (e.getLsbD i && v.getLsbD i))) : s.SetsOnly fs (s.plainWrite a v) := by
  have hw : s.plainWrite a v = s.setReg a ((s.plainWrite a v).reg a) := by
    obtain ⟨⟨q, ix⟩, hrow, -⟩ := Option.map_eq_some_iff.1 h
    rw [State.plainWrite, hrow]
    simp
  rw [hw]
  exact setsOnly_word hfs fun i hi => (getLsbD_plainWrite h hi).trans (hbit i hi).symm

/-- The fields at the listed places of a register, as a word has them. -/
def fieldsOf (a : Nat) (v : Word) (ps : List (Nat × Nat)) : List (Fld × Nat) := ps.map fun p => (⟨a, p.1, p.2⟩, getBits v p.1 p.2)

/-- Whether one of the listed places holds a bit. -/
def placesHold (ps : List (Nat × Nat)) (i : Nat) : Bool := ps.any fun p => decide (p.1 ≤ i ∧ i < p.1 + p.2)

theorem bitAfter_fieldsOf (ps : List (Nat × Nat)) (i : Nat) (b : Bool) :
    bitAfter (fieldsOf a v ps) a i b = if placesHold ps i then v.getLsbD i else b := by
  induction ps with
  | nil => rfl
  | cons p ps ih =>
    have hcons : fieldsOf a v (p :: ps) = (⟨a, p.1, p.2⟩, getBits v p.1 p.2) :: fieldsOf a v ps := rfl
    rw [hcons, bitAfter_cons_getBits, ih]
    have hany : placesHold (p :: ps) i = (decide (p.1 ≤ i ∧ i < p.1 + p.2) || placesHold ps i) := List.any_cons
    rw [hany]
    by_cases hp : p.1 ≤ i ∧ i < p.1 + p.2
    · rw [if_pos hp, if_pos (by simp [hp])]
    · rw [if_neg hp, decide_eq_false hp, Bool.false_or]

theorem fieldsOf_addr (ps : List (Nat × Nat)) : ∀ p ∈ fieldsOf a v ps, p.1.addr = a := by
  intro p hp
  obtain ⟨q, -, rfl⟩ := List.mem_map.1 hp
  rfl

/-- A write of a register whose fields are not locked: its fields take the value, and so does a bit that is set once, where it is 0. -/
theorem setsOnly_unlocked (h : rowAccess a = some (m, r, 0, e)) (hl : s.locked a = false) (ps : List (Nat × Nat))
    (hps : ∀ i < 32, placesHold ps i = (m ||| r ||| e).getLsbD i) (he : ∀ i < 32, e.getLsbD i = true → (s.reg a).getLsbD i = false) :
    s.SetsOnly (fieldsOf a v ps) (s.plainWrite a v) := by
  refine setsOnly_access h (fieldsOf_addr ps) fun i hi => ?_
  have h0 : (0 : Word).getLsbD i = false := BitVec.getLsbD_zero
  rw [bitAfter_fieldsOf, hps i hi, h0, hl]
  have hei := he i hi
  simp only [BitVec.getLsbD_or]
  cases hb : e.getLsbD i
  · cases m.getLsbD i <;> cases r.getLsbD i <;> simp
  · rw [hei hb]
    cases m.getLsbD i <;> cases r.getLsbD i <;> cases v.getLsbD i <;> simp

end

/-! ### One write of fields after another -/

section
variable {u t x : State} {l k : List (Fld × Nat)}

theorem bitAfter_append (a i : Nat) (b : Bool) : bitAfter (k ++ l) a i b = bitAfter k a i (bitAfter l a i b) := by
  unfold bitAfter
  rw [List.find?_append]
  cases k.find? fun p => p.1.covers a i <;> rfl

theorem State.SetsOnly.trans (h : u.SetsOnly l t) (h' : t.SetsOnly k x) : u.SetsOnly (k ++ l) x := by
  refine ⟨fun a i hi => ?_, ?_⟩
  · rw [h'.1 a i hi, h.1 a i hi, bitAfter_append]
  · have e : x = { t with regs := x.regs } := h'.eq
    rw [e]
    exact h.2

/-- A field whose bits no entry of the list holds. -/
theorem State.SetsOnly.get_apart (h : u.SetsOnly l t) {f : Fld} (hf : f.lo + f.width ≤ 32)
    (hl : ∀ p ∈ l, p.1.addr ≠ f.addr ∨ f.lo + f.width ≤ p.1.lo ∨ p.1.lo + p.1.width ≤ f.lo) : t.get f = u.get f := by
  refine getBits_congr fun j hj => ?_
  rw [h.1 _ _ (by omega)]
  have hn : l.find? (fun p => p.1.covers f.addr (f.lo + j)) = none := by
    refine List.find?_eq_none.2 fun p hp hc => ?_
    simp only [Fld.covers, Bool.and_eq_true, beq_iff_eq, decide_eq_true_eq] at hc
    have := hl p hp
    omega
  rw [bitAfter, hn]

theorem State.SetsOnly.reg_apart (h : u.SetsOnly l t) {a : Nat} (hl : ∀ p ∈ l, p.1.addr ≠ a) : t.reg a = u.reg a :=
  BitVec.eq_of_getLsbD_eq fun i hi => by rw [h.1 a i hi, bitAfter_apart hl]

end

/-- A lock bit of a register that is unlocked is 0. -/
theorem unlocked_bit {s : State} {a : Nat} (h : s.locked a = false) (ha : lockAddr a = a) : (s.reg a).getLsbD 31 = false := by
  rw [State.locked, ha, bitOf_toNat] at h
  exact h

/-- Where the bits of a mask are those of one bit. -/
theorem lockBit {x : Word} (h : x.getLsbD 31 = false) : ∀ i < 32, (0x80000000 : Word).getLsbD i = true → x.getLsbD i = false := by
  intro i hi hb
  have h31 : ∀ i < 32, (0x80000000 : Word).getLsbD i = true → i = 31 := by decide
  rw [h31 i hi hb]
  exact h

end Sys2Proof.Machine
end

section
/-! PROOF. O20: semaphores, rings and interrupts of the session page. -/

namespace Sys2Proof.Machine

theorem access_session {n o : Nat} (hn : n < 256) (ho : o < 0x10000) : rowAccess (reg 14 n o) = unitAccess 14 o := rowAccess_reg hn hn ho

theorem access_tqBase (n : Fin 256) : rowAccess (Reg.SESS_TQ_BASE n) = some (0xFFFFFFF, 0, 0, 0) :=
  (access_session n.isLt (by omega)).trans (by decide +kernel)

theorem access_tqCtrl (n : Fin 256) : rowAccess (Reg.SESS_TQ_CTRL n) = some (0xF0001, 0, 0, 0) :=
  (access_session n.isLt (by omega)).trans (by decide +kernel)

theorem access_asCtrl (n : Fin 256) (a : Fin 8) : rowAccess (Reg.SESS_AS_CTRL n a) = some (0xFFFF0001, 0, 0, 0) := by
  have h : ∀ a : Fin 8, unitAccess 14 (0x304 + 32 * a) = some (0xFFFF0001, 0, 0, 0) := by decide +kernel
  exact (access_session n.isLt (by omega)).trans (h a)

theorem access_irqEnable (n : Fin 256) : rowAccess (Reg.SESS_IRQ_ENABLE n) = some (0xFF0F, 0, 0, 0) :=
  (access_session n.isLt (by omega)).trans (by decide +kernel)

/-- A write of a register without locked bits. -/
theorem setsOnly_open {s : State} {a : Nat} {m v : Word} (h : rowAccess a = some (m, 0, 0, 0)) (ps : List (Nat × Nat))
    (hps : ∀ i < 32, placesHold ps i = m.getLsbD i) : s.SetsOnly (fieldsOf a v ps) (s.plainWrite a v) := by
  refine setsOnly_plainWrite h (fieldsOf_addr ps) fun i hi b => ?_
  rw [bitAfter_fieldsOf, hps i hi]

section
variable (s : State) (n : Fin 256) (k : Fin 16) (a : Fin 8) (v : Word)

theorem setsOnly_tqBase : s.SetsOnly [(Reg.SESS_TQ_BASE_OFFSET n, getBits v 0 28)] (s.plainWrite (Reg.SESS_TQ_BASE n) v) :=
  setsOnly_open (access_tqBase n) [(0, 28)] (by decide)

theorem setsOnly_tqCtrl : s.SetsOnly [(Reg.SESS_TQ_CTRL_SIZE_LOG2 n, getBits v 16 4), (Reg.SESS_TQ_CTRL_EN n, getBits v 0 1)]
    (s.plainWrite (Reg.SESS_TQ_CTRL n) v) :=
  setsOnly_open (access_tqCtrl n) [(16, 4), (0, 1)] (by decide)

theorem setsOnly_asCtrl : s.SetsOnly [(Reg.SESS_AS_CTRL_BLOCKS n a, getBits v 16 16), (Reg.SESS_AS_CTRL_START n a, getBits v 0 1)]
    (s.plainWrite (Reg.SESS_AS_CTRL n a) v) :=
  setsOnly_open (access_asCtrl n a) [(16, 16), (0, 1)] (by decide)

theorem setsOnly_irqEnable : s.SetsOnly [(Reg.SESS_IRQ_ENABLE_AS_LOW n, getBits v 8 8), (Reg.SESS_IRQ_ENABLE_BAR2_ERR n, getBits v 3 1),
     (Reg.SESS_IRQ_ENABLE_COMMIT n, getBits v 2 1), (Reg.SESS_IRQ_ENABLE_TQ_OVERFLOW n, getBits v 1 1),
     (Reg.SESS_IRQ_ENABLE_TQ_NEW n, getBits v 0 1)] (s.plainWrite (Reg.SESS_IRQ_ENABLE n) v) :=
  setsOnly_open (access_irqEnable n) [(8, 8), (3, 1), (2, 1), (1, 1), (0, 1)] (by decide)

end

section
variable {u t : State} {l : List (Fld × Nat)}

/-- A field that is listed last with the value it had. -/
theorem setsOnly_dropLast {f : Fld} {x : Nat} (h : u.SetsOnly (l ++ [(f, x)]) t) (hx : u.get f = x % 2 ^ f.width) : u.SetsOnly l t := by
  have h0 : u.SetsOnly [(f, x)] u := setsOnly_keep (setsOnly_refl u) hx
  refine ⟨fun a i hi => ?_, h.2⟩
  have hi0 := h0.1 a i hi
  rw [h.1 a i hi, bitAfter_append, ← hi0]

/-- A field that is listed last and set again later. -/
theorem setsOnly_withoutLast {f : Fld} {x y : Nat} (h : u.SetsOnly (l ++ [(f, x)]) t) (hl : (f, y) ∈ l) : u.SetsOnly l t := by
  have hr := regBits_drop (r := u.reg) h.1 hl
  rw [List.append_nil] at hr
  exact ⟨hr, h.2⟩

theorem setsOnly_pageEvent (h : u.SetsOnly l t) (n : Nat) {flag : Fld} (hd : flag.lo + flag.width ≤ 24) :
    u.SetsOnly ((Reg.SESS_PAGE_STATUS_EVENTS n, t.more (Reg.SESS_PAGE_STATUS_EVENTS n)) :: (flag, 1) :: l) (t.pageEvent n flag) := by
  have hm : t.pageEvent n flag = (t.set flag 1).set (Reg.SESS_PAGE_STATUS_EVENTS n) (t.more (Reg.SESS_PAGE_STATUS_EVENTS n)) := by
    rw [State.pageEvent, State.count_eq, State.get_set_apart _ _ _ _ (show 24 + 8 ≤ 32 by decide) (.inr hd)]
    rfl
  rw [hm]
  exact setsOnly_set (setsOnly_set h _ _) _ _

end

/-- The fields that CFG_ERR of a session's page sets. -/
def cfgErrFields (s : State) (n : Nat) : List (Fld × Nat) :=
  [(Reg.SESS_PAGE_STATUS_EVENTS n, s.more (Reg.SESS_PAGE_STATUS_EVENTS n)), (Reg.SESS_PAGE_STATUS_CFG_ERR n, 1)]

theorem setsOnly_cfgErr (s : State) (n : Nat) : s.SetsOnly (cfgErrFields s n) (s.pageEvent n (Reg.SESS_PAGE_STATUS_CFG_ERR n)) :=
  setsOnly_pageEvent (setsOnly_refl s) n (Nat.le_of_ble_eq_true rfl)

/-- The translation of a ring depends on the windows of the session alone. -/
theorem translateRing_congr {s t : State} {n : Nat} (h : ∀ a, reg 14 n 0x1000 ≤ a → t.reg a = s.reg a) (off len : Nat) :
    t.translateRing n off len = s.translateRing n off len := by
  have hg : ∀ (o lo w : Nat), 0x1000 ≤ o → t.get ⟨reg 14 n o, lo, w⟩ = s.get ⟨reg 14 n o, lo, w⟩ := fun o lo w ho => by
    have ha : reg 14 n 0x1000 ≤ reg 14 n o := Nat.add_le_add_left ho _
    rw [State.get, State.get, h _ ha]
  have hwin : t.inWindow n = s.inWindow n := by
    funext k off len
    simp only [State.inWindow, State.bit, hg (0x1104 + 16 * k) _ _ (by omega), hg (0x1108 + 16 * k) _ _ (by omega)]
  have hof : t.windowOf n off len = s.windowOf n off len := by unfold State.windowOf; rw [hwin]
  unfold State.translateRing State.translate State.bit
  rw [hof]
  cases s.windowOf n off len with
  | none => rfl
  | some k => simp only [Option.map_some, hg (0x1100 + 16 * k) _ _ (by omega), hg (0x1104 + 16 * k) _ _ (by omega), hg (0x1108 + 16 * k) _ _ (by omega)]

/-- What is set in the page alone leaves the translation of its rings. -/
theorem translateRing_setsOnly {s t : State} {n : Nat} {l : List (Fld × Nat)} (h : s.SetsOnly l t)
    (hl : ∀ p ∈ l, p.1.addr < reg 14 n 0x1000) (off len : Nat) : t.translateRing n off len = s.translateRing n off len :=
  translateRing_congr (fun _ ha => h.reg_apart fun p hp => Nat.ne_of_lt (Nat.lt_of_lt_of_le (hl p hp) ha)) off len

section
variable {s : State} {n : Fin 256} {a : Fin 8} {v : Word}

/-! ### The touch queue (R59) -/

/-- A write of TQ_CTRL that leaves EN at 0. -/
theorem setsOnly_tqCtrl_off (hoff : s.bit (Reg.SESS_TQ_CTRL_EN n) = false) (hv : getBits v 0 1 = 0) :
    s.SetsOnly [(Reg.SESS_TQ_CTRL_SIZE_LOG2 n, getBits v 16 4)] (s.plainWrite (Reg.SESS_TQ_CTRL n) v) := by
  have h := setsOnly_tqCtrl s n v
  rw [hv] at h
  exact setsOnly_dropLast (l := [(Reg.SESS_TQ_CTRL_SIZE_LOG2 n, getBits v 16 4)]) h (bit_eq_false.1 hoff)

/-- The state in which the ring of a touch queue is looked up: SIZE_LOG2 has its new value and EN is still 0. -/
def State.tqSized (s : State) (n : Nat) (v : Word) : State := s.plainWrite (Reg.SESS_TQ_CTRL n) (withoutBit v 0)

theorem setsOnly_tqSized (hoff : s.bit (Reg.SESS_TQ_CTRL_EN n) = false) :
    s.SetsOnly [(Reg.SESS_TQ_CTRL_SIZE_LOG2 n, getBits v 16 4)] (s.tqSized n v) := by
  have h := setsOnly_tqCtrl_off (v := withoutBit v 0) hoff (getBits_withoutBit_self v (by omega))
  rwa [getBits_withoutBit v (by omega) (by omega)] at h

theorem tqSized_ring (hoff : s.bit (Reg.SESS_TQ_CTRL_EN n) = false) :
    (s.tqSized n v).translateRing n ((s.tqSized n v).get (Reg.SESS_TQ_BASE_OFFSET n) * 64) (32 * (s.tqSized n v).tqSize n) =
      s.translateRing n (s.get (Reg.SESS_TQ_BASE_OFFSET n) * 64)
        (32 * 2 ^ (if 4 ≤ getBits v 16 4 ∧ getBits v 16 4 ≤ 12 then getBits v 16 4 else 4)) := by
  have h := setsOnly_tqSized (v := v) hoff
  have hsize : (s.tqSized n v).get (Reg.SESS_TQ_CTRL_SIZE_LOG2 n) = getBits v 16 4 :=
    (setsOnly_get h (Nat.le_of_ble_eq_true rfl)).trans (Nat.mod_eq_of_lt (getBits_lt v 16 4))
  have hbase : (s.tqSized n v).get (Reg.SESS_TQ_BASE_OFFSET n) = s.get (Reg.SESS_TQ_BASE_OFFSET n) :=
    h.get_apart (Nat.le_of_ble_eq_true rfl) (by simp)
  rw [translateRing_setsOnly h (by simp), hbase, State.tqSize, hsize]

theorem tqCtrlWrite_start (hoff : s.bit (Reg.SESS_TQ_CTRL_EN n) = false) (hv : getBits v 0 1 = 1) :
    s.tqCtrlWrite n v = match s.translateRing n (s.get (Reg.SESS_TQ_BASE_OFFSET n) * 64)
        (32 * 2 ^ (if 4 ≤ getBits v 16 4 ∧ getBits v 16 4 ≤ 12 then getBits v 16 4 else 4)) with
      | none => (s.tqSized n v).pageEvent n (Reg.SESS_PAGE_STATUS_CFG_ERR n)
      | some d => (((s.tqSized n v).plainWrite (Reg.SESS_TQ_CTRL n) v).set (Reg.SESS_TQ_STATUS_DROPPED n) 0).setSes n
          { ((((s.tqSized n v).plainWrite (Reg.SESS_TQ_CTRL n) v).set (Reg.SESS_TQ_STATUS_DROPPED n) 0).ses n) with
            tqAddr := d, tqSync := false } := by
  rw [← tqSized_ring hoff, State.tqCtrlWrite]
  simp only [hoff, Bool.false_and, Bool.not_false, Bool.true_and, bitOf_eq_getBits, hv, decide_true, if_true, Bool.false_eq_true, if_false]
  rfl

theorem tqStart (hoff : s.bit (Reg.SESS_TQ_CTRL_EN n) = false) (hv : getBits v 0 1 = 1) :
    match s.translateRing n (s.get (Reg.SESS_TQ_BASE_OFFSET n) * 64)
        (32 * 2 ^ (if 4 ≤ getBits v 16 4 ∧ getBits v 16 4 ≤ 12 then getBits v 16 4 else 4)) with
      | none => Does (.tqCtrlWrite n v) s s ((Reg.SESS_TQ_CTRL_SIZE_LOG2 n, getBits v 16 4) :: cfgErrFields s n)
      | some d => Does (.tqCtrlWrite n v) s (s.setSes n { s.ses n with tqAddr := d, tqSync := false })
          [(Reg.SESS_TQ_STATUS_DROPPED n, 0), (Reg.SESS_TQ_CTRL_SIZE_LOG2 n, getBits v 16 4), (Reg.SESS_TQ_CTRL_EN n, 1)] := by
  have hw : exec (.tqCtrlWrite n v) s = .next (s.tqCtrlWrite n v) := rfl
  rw [tqCtrlWrite_start hoff hv] at hw
  have hsized := setsOnly_tqSized (v := v) hoff
  revert hw
  cases s.translateRing n (s.get (Reg.SESS_TQ_BASE_OFFSET n) * 64)
    (32 * 2 ^ (if 4 ≤ getBits v 16 4 ∧ getBits v 16 4 ≤ 12 then getBits v 16 4 else 4)) with
  | none =>
    intro hw
    have hm : (s.tqSized n v).more (Reg.SESS_PAGE_STATUS_EVENTS n) = s.more (Reg.SESS_PAGE_STATUS_EVENTS n) := by
      rw [State.more, hsized.get_apart (Nat.le_of_ble_eq_true rfl) (by simp)]
      rfl
    have h := setsOnly_pageEvent hsized n (flag := Reg.SESS_PAGE_STATUS_CFG_ERR n) (Nat.le_of_ble_eq_true rfl)
    rw [hm] at h
    exact ⟨_, hw, setsOnly_front (l := cfgErrFields s n) h (by simp [cfgErrFields])⟩
  | some d =>
    intro hw
    have h := setsOnly_set (hsized.trans (setsOnly_tqCtrl _ n v)) (Reg.SESS_TQ_STATUS_DROPPED n) 0
    rw [hv] at h
    have hset := setsOnly_withoutLast (l := [(Reg.SESS_TQ_STATUS_DROPPED n, 0), (Reg.SESS_TQ_CTRL_SIZE_LOG2 n, getBits v 16 4),
      (Reg.SESS_TQ_CTRL_EN n, 1)]) (y := getBits v 16 4) h (by simp)
    exact ⟨_, hw, setsOnly_beside (f := fun x => x.setSes n { x.ses n with tqAddr := d, tqSync := false }) (fun _ _ => rfl) hset⟩

theorem exec_tqWrites : exec (.tqBaseWrite n v) s = .next (s.tqBaseWrite n v) ∧ exec (.tqCtrlWrite n v) s = .next (s.tqCtrlWrite n v) :=
  ⟨rfl, rfl⟩

/-- R59: writes of a queue that is off. -/
theorem tqWrites_off (hoff : s.bit (Reg.SESS_TQ_CTRL_EN n) = false) :
    Does (.tqBaseWrite n v) s s [(Reg.SESS_TQ_BASE_OFFSET n, getBits v 0 28)] ∧
    (getBits v 0 1 = 0 → Does (.tqCtrlWrite n v) s s [(Reg.SESS_TQ_CTRL_SIZE_LOG2 n, getBits v 16 4)]) := by
  obtain ⟨hbase, hctrl⟩ := exec_tqWrites (s := s) (n := n) (v := v)
  rw [State.tqBaseWrite, if_neg (by simp [hoff])] at hbase
  refine ⟨⟨_, hbase, setsOnly_tqBase s n v⟩, fun hv => ?_⟩
  rw [State.tqCtrlWrite] at hctrl
  simp only [hoff, Bool.false_and, Bool.not_false, Bool.true_and, bitOf_eq_getBits, hv, Bool.false_eq_true, if_false, Nat.zero_ne_one,
    decide_false] at hctrl
  exact ⟨_, hctrl, setsOnly_tqCtrl_off hoff hv⟩

/-- R59: writes of a queue that runs. -/
theorem tqWrites_on (hon : s.bit (Reg.SESS_TQ_CTRL_EN n) = true) :
    (getBits v 0 28 ≠ s.get (Reg.SESS_TQ_BASE_OFFSET n) → Does (.tqBaseWrite n v) s s (cfgErrFields s n)) ∧
    (getBits v 16 4 ≠ s.get (Reg.SESS_TQ_CTRL_SIZE_LOG2 n) → Does (.tqCtrlWrite n v) s s (cfgErrFields s n)) ∧
    (getBits v 16 4 = s.get (Reg.SESS_TQ_CTRL_SIZE_LOG2 n) → Does (.tqCtrlWrite n v) s s [(Reg.SESS_TQ_CTRL_EN n, getBits v 0 1)]) := by
  obtain ⟨hbase, hctrl⟩ := exec_tqWrites (s := s) (n := n) (v := v)
  rw [State.tqBaseWrite, if_pos hon] at hbase
  rw [State.tqCtrlWrite] at hctrl
  simp only [hon, Bool.true_and, Bool.not_true, Bool.false_and, Bool.false_eq_true, if_false, bne_iff_ne] at hctrl
  refine ⟨fun hne => ?_, fun hne => ?_, fun he => ?_⟩
  · rw [if_neg hne] at hbase
    exact ⟨_, hbase, setsOnly_cfgErr s n⟩
  · rw [if_pos hne] at hctrl
    exact ⟨_, hctrl, setsOnly_cfgErr s n⟩
  · rw [if_neg (not_not.2 he)] at hctrl
    have h : s.SetsOnly ([(Reg.SESS_TQ_CTRL_EN n, getBits v 0 1)] ++ [(Reg.SESS_TQ_CTRL_SIZE_LOG2 n, getBits v 16 4)]) _ :=
      setsOnly_open (access_tqCtrl n) [(0, 1), (16, 4)] (by decide)
    exact ⟨_, hctrl, setsOnly_dropLast h (he ▸ (Nat.mod_eq_of_lt (getBits_lt v 16 4)).symm)⟩

/-! ### Audio streams (R61) -/

/-- The state in which the ring of a stream is looked up: BLOCKS has its new value and START is still 0. -/
def State.asSized (s : State) (n a : Nat) (v : Word) : State := s.plainWrite (Reg.SESS_AS_CTRL n a) (withoutBit (withBit v 0) 0)

theorem setsOnly_asSized (hoff : s.bit (Reg.SESS_AS_CTRL_START n a) = false) :
    s.SetsOnly [(Reg.SESS_AS_CTRL_BLOCKS n a, getBits v 16 16)] (s.asSized n a v) := by
  have h := setsOnly_asCtrl s n a (withoutBit (withBit v 0) 0)
  rw [getBits_withoutBit_self _ (by omega), getBits_withoutBit _ (by omega) (by omega), getBits_withBit v (by omega) (by omega)] at h
  exact setsOnly_dropLast (l := [(Reg.SESS_AS_CTRL_BLOCKS n a, getBits v 16 16)]) h (bit_eq_false.1 hoff)

theorem asSized_ring (hoff : s.bit (Reg.SESS_AS_CTRL_START n a) = false) :
    (s.asSized n a v).translateRing n ((s.asSized n a v).get (Reg.SESS_AS_BASE_OFFSET n a) * 64) (4 * (s.asSized n a v).ringSize n a) =
      s.translateRing n (s.get (Reg.SESS_AS_BASE_OFFSET n a) * 64) (4 * (40 * clampNat 2 65535 (getBits v 16 16))) := by
  have h := setsOnly_asSized (v := v) hoff
  have hlt := getBits_lt v 16 16
  have hsize : (s.asSized n a v).get (Reg.SESS_AS_CTRL_BLOCKS n a) = getBits v 16 16 :=
    (setsOnly_get h (Nat.le_of_ble_eq_true rfl)).trans (Nat.mod_eq_of_lt hlt)
  have hbase : (s.asSized n a v).get (Reg.SESS_AS_BASE_OFFSET n a) = s.get (Reg.SESS_AS_BASE_OFFSET n a) :=
    h.get_apart (Nat.le_of_ble_eq_true rfl) (by simp)
  have hclamp : max 2 (getBits v 16 16) = clampNat 2 65535 (getBits v 16 16) := by unfold clampNat; split_ifs <;> omega
  have hpage : Reg.SESS_AS_CTRL n a < reg 14 n 0x1000 := Nat.add_lt_add_left (by omega) _
  rw [translateRing_setsOnly h (by simpa using hpage), hbase, State.ringSize, hsize, hclamp]

theorem asCtrlWrite_start (hown : s.ownsAudio n a = true) (hoff : s.bit (Reg.SESS_AS_CTRL_START n a) = false) :
    s.asCtrlWrite n a (withBit v 0) = match s.translateRing n (s.get (Reg.SESS_AS_BASE_OFFSET n a) * 64)
        (4 * (40 * clampNat 2 65535 (getBits v 16 16))) with
      | none => (s.asSized n a v).pageEvent n (Reg.SESS_PAGE_STATUS_CFG_ERR n)
      | some d =>
        let t := ((s.asSized n a v).plainWrite (Reg.SESS_AS_CTRL n a) (withBit v 0)).set (Reg.SESS_AS_STATUS_UNDERRUNS n a) 0
        t.setSes n { t.ses n with asAddr := sput (fun _ => 0) (t.ses n).asAddr a d } := by
  rw [← asSized_ring hoff, State.asCtrlWrite]
  simp only [hown, hoff, Bool.false_and, Bool.not_false, Bool.not_true, Bool.true_and, bitOf_withBit_self v (show 0 < 32 by omega),
    if_true, Bool.false_eq_true, if_false]
  rfl

/-- R61: a start of a stream that the session owns and that is off. -/
theorem audioStart (hown : s.ownsAudio n a = true) (hoff : s.bit (Reg.SESS_AS_CTRL_START n a) = false) :
    match s.translateRing n (s.get (Reg.SESS_AS_BASE_OFFSET n a) * 64) (4 * (40 * clampNat 2 65535 (getBits v 16 16))) with
    | none => Does (.audioStreamStart n a v) s s ((Reg.SESS_AS_CTRL_BLOCKS n a, getBits v 16 16) :: cfgErrFields s n)
    | some d => Does (.audioStreamStart n a v) s (s.setSes n { s.ses n with asAddr := sput (fun _ => 0) (s.ses n).asAddr a d })
        [(Reg.SESS_AS_STATUS_UNDERRUNS n a, 0), (Reg.SESS_AS_CTRL_BLOCKS n a, getBits v 16 16), (Reg.SESS_AS_CTRL_START n a, 1)] := by
  have hw : exec (.audioStreamStart n a v) s = .next (s.asCtrlWrite n a (withBit v 0)) := rfl
  rw [asCtrlWrite_start hown hoff] at hw
  have hsized := setsOnly_asSized (v := v) hoff
  have hne : Reg.SESS_AS_CTRL n a ≠ Reg.SESS_PAGE_STATUS n := pageReg_ne (by omega)
  revert hw
  cases s.translateRing n (s.get (Reg.SESS_AS_BASE_OFFSET n a) * 64) (4 * (40 * clampNat 2 65535 (getBits v 16 16))) with
  | none =>
    intro hw
    have hm : (s.asSized n a v).more (Reg.SESS_PAGE_STATUS_EVENTS n) = s.more (Reg.SESS_PAGE_STATUS_EVENTS n) := by
      rw [State.more, hsized.get_apart (Nat.le_of_ble_eq_true rfl) (by simpa using hne)]
      rfl
    have h := setsOnly_pageEvent hsized n (flag := Reg.SESS_PAGE_STATUS_CFG_ERR n) (Nat.le_of_ble_eq_true rfl)
    rw [hm] at h
    exact ⟨_, hw, setsOnly_front (l := cfgErrFields s n) h (by simpa [cfgErrFields] using Ne.symm hne)⟩
  | some d =>
    intro hw
    have h := setsOnly_set (hsized.trans (setsOnly_asCtrl _ n a (withBit v 0))) (Reg.SESS_AS_STATUS_UNDERRUNS n a) 0
    rw [getBits_withBit_self v (by omega), getBits_withBit v (by omega) (by omega)] at h
    have hset := setsOnly_withoutLast (l := [(Reg.SESS_AS_STATUS_UNDERRUNS n a, 0), (Reg.SESS_AS_CTRL_BLOCKS n a, getBits v 16 16),
      (Reg.SESS_AS_CTRL_START n a, 1)]) (y := getBits v 16 16) h (by simp)
    exact ⟨_, hw, setsOnly_beside (f := fun x => x.setSes n { x.ses n with asAddr := sput (fun _ => 0) (x.ses n).asAddr a d })
      (fun _ _ => rfl) hset⟩

theorem audioStart_notOwned (hown : s.ownsAudio n a = false) : Does (.audioStreamStart n a v) s s
    [(Reg.SESS_PAGE_STATUS_EVENTS n, s.more (Reg.SESS_PAGE_STATUS_EVENTS n)), (Reg.SESS_PAGE_STATUS_HANDLE_ERR n, 1)] := by
  have hw : exec (.audioStreamStart n a v) s = .next (s.asCtrlWrite n a (withBit v 0)) := rfl
  rw [State.asCtrlWrite, hown] at hw
  exact ⟨_, hw, setsOnly_pageEvent (setsOnly_refl s) n (Nat.le_of_ble_eq_true rfl)⟩

/-! ### Interrupts (R62) -/

/-- The fields of IRQ_ENABLE as a word has them. -/
def irqEnableFields (n : Nat) (v : Word) : List (Fld × Nat) :=
  [(Reg.SESS_IRQ_ENABLE_AS_LOW n, getBits v 8 8), (Reg.SESS_IRQ_ENABLE_BAR2_ERR n, getBits v 3 1), (Reg.SESS_IRQ_ENABLE_COMMIT n, getBits v 2 1),
    (Reg.SESS_IRQ_ENABLE_TQ_OVERFLOW n, getBits v 1 1), (Reg.SESS_IRQ_ENABLE_TQ_NEW n, getBits v 0 1)]

/-- The bits of IRQ_STATUS whose ENABLE bit rises with a write. -/
def State.risingCauses (s : State) (n : Nat) (v : Word) : Word :=
  v &&& 0xFF0F &&& ~~~s.reg (Reg.SESS_IRQ_ENABLE n) &&& s.reg (Reg.SESS_IRQ_STATUS n)

theorem irqEnableWrite_eq : s.irqEnableWrite n v =
    if s.risingCauses n v != 0 then (s.plainWrite (Reg.SESS_IRQ_ENABLE n) v).sessMessage n else s.plainWrite (Reg.SESS_IRQ_ENABLE n) v := by
  have hs : (s.plainWrite (Reg.SESS_IRQ_ENABLE n) v).reg (Reg.SESS_IRQ_STATUS n) = s.reg (Reg.SESS_IRQ_STATUS n) :=
    (setsOnly_irqEnable s n v).reg_apart (by simp)
  have hr : (s.plainWrite (Reg.SESS_IRQ_ENABLE n) v).reg (Reg.SESS_IRQ_ENABLE n) &&& ~~~s.reg (Reg.SESS_IRQ_ENABLE n) &&&
      s.reg (Reg.SESS_IRQ_STATUS n) = s.risingCauses n v := by
    refine BitVec.eq_of_getLsbD_eq fun i hi => ?_
    have hb := getLsbD_plainWrite (s := s) (v := v) (access_irqEnable n) hi
    have h0 : (0 : Word).getLsbD i = false := BitVec.getLsbD_zero
    unfold State.risingCauses
    simp only [BitVec.getLsbD_and, BitVec.getLsbD_not, hb, h0, hi, Bool.false_and, Bool.or_false, Bool.not_false, Bool.and_true, decide_true,
      Bool.true_and]
    cases (0xFF0F : Word).getLsbD i <;> cases (s.reg (Reg.SESS_IRQ_ENABLE n)).getLsbD i <;> simp
  rw [State.irqEnableWrite, hs, hr]

/-- R62: nothing rises over a set status bit. -/
theorem irqEnable_quiet (h : ∀ b < 32, (v.getLsbD b = true ∧ (b < 4 ∨ (8 ≤ b ∧ b < 16))) → (s.reg (Reg.SESS_IRQ_ENABLE n)).getLsbD b = false →
      (s.reg (Reg.SESS_IRQ_STATUS n)).getLsbD b = false) : Does (.irqEnableWrite n v) s s (irqEnableFields n v) := by
  have hz : s.risingCauses n v = 0 := by
    refine BitVec.eq_of_getLsbD_eq fun b hb => ?_
    have hm : ∀ b < 32, (0xFF0F : Word).getLsbD b = true → b < 4 ∨ (8 ≤ b ∧ b < 16) := by decide
    have h0 : (0 : Word).getLsbD b = false := BitVec.getLsbD_zero
    rw [h0]
    refine Bool.eq_false_iff.2 fun ht => ?_
    simp only [State.risingCauses, BitVec.getLsbD_and, BitVec.getLsbD_not, Bool.and_eq_true, Bool.not_eq_true'] at ht
    obtain ⟨⟨⟨hv, hmask⟩, -, he⟩, hs⟩ := ht
    exact absurd hs (by rw [h b hb ⟨hv, hm b hb hmask⟩ he]; decide)
  have hw : exec (.irqEnableWrite n v) s = .next (s.irqEnableWrite n v) := rfl
  rw [irqEnableWrite_eq, hz] at hw
  exact ⟨_, hw, setsOnly_irqEnable s n v⟩

/-- R62: a bit rises over a set status bit, and the message is sent. -/
theorem irqEnable_sends (h : s.risingCauses n v ≠ 0) : DoesThen (.irqEnableWrite n v) s s (irqEnableFields n v) (·.sessMessage n) := by
  have hw : exec (.irqEnableWrite n v) s = .next (s.irqEnableWrite n v) := rfl
  rw [irqEnableWrite_eq, if_pos (bne_iff_ne.2 h)] at hw
  exact ⟨_, setsOnly_irqEnable s n v, hw⟩

/-! ### Semaphores (R57) -/

theorem sem_takes (k : Fin 16) : Does (.semWrite n k v) s s [(whole (Reg.SESS_SEM n k), v.toNat)] ∧
    Does (.semAdd n k v) s s [(whole (Reg.SESS_SEM n k), ((s.reg (Reg.SESS_SEM n k)).toNat + v.toNat) % 2 ^ 32)] := by
  have h := setsOnly_setReg (setsOnly_refl s) (Reg.SESS_SEM n k) (s.reg (Reg.SESS_SEM n k) + v)
  rw [BitVec.toNat_add] at h
  exact ⟨⟨_, rfl, setsOnly_setReg (setsOnly_refl s) _ _⟩, ⟨_, rfl, h⟩⟩

end

/-- Settles O20: semaphores, the touch queue, the audio streams and the interrupt enables, each by its lemma above. -/
theorem sessionPageWritesTakeEffect : Obligations.SessionPageWritesTakeEffect := by
  intro s n k a v cfgErr ring
  obtain ⟨hset, hadd⟩ := sem_takes (s := s) (n := n) (v := v) k
  refine ⟨hset, hadd, fun hoff => ?_, fun hon => tqWrites_on hon, fun hown => audioStart_notOwned hown, fun hown hoff => audioStart hown hoff,
    fun h => irqEnable_quiet h, fun h => irqEnable_sends h⟩
  obtain ⟨hbase, hctrl⟩ := tqWrites_off (v := v) hoff
  exact ⟨hbase, hctrl, fun hv => tqStart hoff hv⟩

end Sys2Proof.Machine
end

section
/-! PROOF. O19: the window registers of a session. -/

namespace Sys2Proof.Machine

theorem lockAddr_session {n o : Nat} (hn : n < 256) (ho : o < 0x10000) : lockAddr (reg 14 n o) = Reg.SESS_CTRL n := by
  have h1 : reg 14 n o / 0x1000000 = 14 := by unfold reg; omega
  have h2 : reg 14 n o % 0x10000 = o := by unfold reg; omega
  unfold lockAddr
  simp [h1, h2]

theorem locked_session (s : State) {n o : Nat} (hn : n < 256) (ho : o < 0x10000) : s.locked (reg 14 n o) = s.locked (Reg.SESS_CTRL n) := by
  rw [State.locked, State.locked, lockAddr_session hn ho, lockAddr_session hn (by omega)]

theorem access_winDev (n : Fin 256) (k : Fin 16) : rowAccess (Reg.SESS_WIN_DEV n k) = some (0, 0x7FFFF, 0, 0) := by
  have h : ∀ k : Fin 16, unitAccess 14 (0x1100 + 16 * k) = some (0, 0x7FFFF, 0, 0) := by decide +kernel
  exact (access_session n.isLt (by omega)).trans (h k)

theorem access_winGoff (n : Fin 256) (k : Fin 16) : rowAccess (Reg.SESS_WIN_GOFF n k) = some (0, 0x1FFF, 0, 0) := by
  have h : ∀ k : Fin 16, unitAccess 14 (0x1104 + 16 * k) = some (0, 0x1FFF, 0, 0) := by decide +kernel
  exact (access_session n.isLt (by omega)).trans (h k)

theorem access_winCtrl (n : Fin 256) (k : Fin 16) : rowAccess (Reg.SESS_WIN_CTRL n k) = some (0, 0x33FFF, 0, 0) := by
  have h : ∀ k : Fin 16, unitAccess 14 (0x1108 + 16 * k) = some (0, 0x33FFF, 0, 0) := by decide +kernel
  exact (access_session n.isLt (by omega)).trans (h k)

/-- A write of a register that a lock governs and that has no lock itself. -/
theorem setsOnly_governed {s : State} {a : Nat} {r v : Word} (h : rowAccess a = some (0, r, 0, 0)) (hl : s.locked a = false)
    (ps : List (Nat × Nat)) (hps : ∀ i < 32, placesHold ps i = r.getLsbD i) : s.SetsOnly (fieldsOf a v ps) (s.plainWrite a v) :=
  setsOnly_unlocked h hl ps (fun i hi => by rw [hps i hi]; simp) fun i _ hb => absurd hb (by simp)

theorem setsOnly_sessEvent {u t : State} {l : List (Fld × Nat)} (h : u.SetsOnly l t) (n : Fin 256) (hk : u.SourceFree (192 + n)) {flag : Fld}
    (hd : flag.lo + flag.width ≤ 24) :
    u.SetsOnly ((Reg.IC_SRC_PENDING (192 + n), 1) :: (Reg.SESS_STATUS_EVENTS n, t.more (Reg.SESS_STATUS_EVENTS n)) :: (flag, 1) :: l)
      (t.sessEvent n flag) := by
  have hu : sourceUsed (192 + n) = true := by
    have hlt := n.isLt
    simp only [sourceUsed, Bool.and_eq_true, decide_eq_true_eq, bne_iff_ne]
    omega
  exact setsOnly_event h hu hk (Nat.le_of_ble_eq_true rfl) (.inr hd)

/-- A field that shares no bit with the others may be listed after them. -/
theorem setsOnly_last {u t : State} {l : List (Fld × Nat)} {f : Fld} {v : Nat} (h : u.SetsOnly ((f, v) :: l) t)
    (hl : ∀ p ∈ l, p.1.addr ≠ f.addr ∨ p.1.lo + p.1.width ≤ f.lo ∨ f.lo + f.width ≤ p.1.lo) : u.SetsOnly (l ++ [(f, v)]) t := by
  refine ⟨fun a i hi => (h.1 a i hi).trans ?_, h.2⟩
  rw [bitAfter_append, bitAfter_cons, bitAfter_cons, bitAfter_nil]
  split
  · next hc =>
    have hn : l.find? (fun p => p.1.covers a i) = none := by
      refine List.find?_eq_none.2 fun p hp hc' => ?_
      simp only [Fld.covers, Bool.and_eq_true, beq_iff_eq, decide_eq_true_eq] at hc hc'
      have := hl p hp
      omega
    rw [bitAfter, hn]
  · rfl

/-- The fields that a refused write of a window register sets (R63, R64). -/
def winErrFields (s : State) (n code : Nat) : List (Fld × Nat) :=
  [(Reg.IC_SRC_PENDING (192 + n), 1), (Reg.SESS_STATUS_EVENTS n, s.more (Reg.SESS_STATUS_EVENTS n)), (Reg.SESS_STATUS_WIN_ERR n, 1),
    (Reg.SESS_STATUS_WIN_ERR_CODE n, code)]

theorem setsOnly_winRefuse (s : State) (n : Fin 256) (hk : s.SourceFree (192 + n)) (code : Nat) :
    s.SetsOnly (winErrFields s n code) (s.winRefuse n code) := by
  have h := setsOnly_sessEvent (setsOnly_set (setsOnly_refl s) (Reg.SESS_STATUS_WIN_ERR_CODE n) code) n hk
    (flag := Reg.SESS_STATUS_WIN_ERR n) (Nat.le_of_ble_eq_true rfl)
  have hm : (s.set (Reg.SESS_STATUS_WIN_ERR_CODE n) code).more (Reg.SESS_STATUS_EVENTS n) = s.more (Reg.SESS_STATUS_EVENTS n) := by
    rw [State.more, State.get_set_apart _ _ _ _ (Nat.le_of_ble_eq_true rfl) (.inr (Nat.le_of_ble_eq_true rfl))]
    rfl
  rwa [hm] at h

section
variable {s : State} {n : Fin 256} {k : Fin 16} {w : World} {v : Word}

section
variable (hl : s.locked (Reg.SESS_CTRL n) = false)
include hl

theorem setsOnly_winDev : s.SetsOnly [(Reg.SESS_WIN_DEV_DEV n k, getBits v 0 19)] (s.plainWrite (Reg.SESS_WIN_DEV n k) v) :=
  setsOnly_governed (access_winDev n k) ((locked_session s n.isLt (by omega)).trans hl) [(0, 19)] (by decide)

theorem setsOnly_winGoff : s.SetsOnly [(Reg.SESS_WIN_GOFF_GOFF n k, getBits v 0 13)] (s.plainWrite (Reg.SESS_WIN_GOFF n k) v) :=
  setsOnly_governed (access_winGoff n k) ((locked_session s n.isLt (by omega)).trans hl) [(0, 13)] (by decide)

theorem setsOnly_winCtrl : s.SetsOnly [(Reg.SESS_WIN_CTRL_GUEST_RO n k, getBits v 17 1), (Reg.SESS_WIN_CTRL_VALID n k, getBits v 16 1),
    (Reg.SESS_WIN_CTRL_SIZE n k, getBits v 0 14)] (s.plainWrite (Reg.SESS_WIN_CTRL n k) v) :=
  setsOnly_governed (access_winCtrl n k) ((locked_session s n.isLt (by omega)).trans hl) [(17, 1), (16, 1), (0, 14)] (by decide)

variable (hn : 0 < n.val) (ha : s.Admits w 0x0E n false)
include hn ha

theorem exec_winWrite : exec (.sessWinWrite n k .dev w v) s = .next
      (if s.bit (Reg.SESS_WIN_CTRL_VALID n k) then (if getBits v 0 19 = s.get (Reg.SESS_WIN_DEV_DEV n k) then s else s.winRefuse n 6)
        else s.plainWrite (Reg.SESS_WIN_DEV n k) v) ∧
    exec (.sessWinWrite n k .goff w v) s = .next
      (if s.bit (Reg.SESS_WIN_CTRL_VALID n k) then (if getBits v 0 13 = s.get (Reg.SESS_WIN_GOFF_GOFF n k) then s else s.winRefuse n 6)
        else s.plainWrite (Reg.SESS_WIN_GOFF n k) v) ∧
    exec (.sessWinWrite n k .ctrl w v) s = .next (s.winCtrlWrite n k v) := by
  have hsec : (n.val == 0) = false := beq_false_of_ne (by omega)
  have he : ∀ r, exec (.sessWinWrite n k r w v) s = .next (s.winWrite n k r v) := fun r => by
    have h : exec (.sessWinWrite n k r w v) s = .next (s.asWriter w 0x0E n (n.val == 0) (·.winWrite n k r v)) := rfl
    rw [h, hsec, asWriter_admits ha]
  have hlock : ∀ r, s.locked (winRegAddr r n k) = false := fun r => by
    cases r <;> exact (locked_session s n.isLt (by omega)).trans hl
  refine ⟨?_, ?_, ?_⟩ <;> rw [he, State.winWrite] <;> simp only [hlock, Bool.false_eq_true, if_false] <;> rfl

/-- R63: a register of a window that is not valid takes its value. -/
theorem winWrites_invalid (hv : s.bit (Reg.SESS_WIN_CTRL_VALID n k) = false) :
    Does (.sessWinWrite n k .dev w v) s s [(Reg.SESS_WIN_DEV_DEV n k, getBits v 0 19)] ∧
    Does (.sessWinWrite n k .goff w v) s s [(Reg.SESS_WIN_GOFF_GOFF n k, getBits v 0 13)] ∧
    (getBits v 16 1 = 0 → Does (.sessWinWrite n k .ctrl w v) s s
      [(Reg.SESS_WIN_CTRL_GUEST_RO n k, getBits v 17 1), (Reg.SESS_WIN_CTRL_VALID n k, 0), (Reg.SESS_WIN_CTRL_SIZE n k, getBits v 0 14)]) := by
  obtain ⟨hdev, hgoff, hctrl⟩ := exec_winWrite (k := k) (v := v) hl hn ha
  rw [if_neg (by simp [hv])] at hdev hgoff
  refine ⟨⟨_, hdev, setsOnly_winDev hl⟩, ⟨_, hgoff, setsOnly_winGoff hl⟩, fun h0 => ?_⟩
  rw [State.winCtrlWrite] at hctrl
  simp only [hv, bitOf_eq_getBits, h0, Bool.false_eq_true, if_false, Nat.zero_ne_one, decide_false] at hctrl
  have h := setsOnly_winCtrl (k := k) (v := v) hl
  rw [h0] at h
  exact ⟨_, hctrl, h⟩

/-- R63: a write that makes a window valid: refused with the first check that fails, or taken. -/
theorem winCtrl_validates (hk : s.SourceFree (192 + n)) (hv : s.bit (Reg.SESS_WIN_CTRL_VALID n k) = false) (h1 : getBits v 16 1 = 1) :
    (∀ code, s.winCheck n k (getBits v 0 14) = some code → Does (.sessWinWrite n k .ctrl w v) s s (winErrFields s n code)) ∧
    (s.winCheck n k (getBits v 0 14) = none → Does (.sessWinWrite n k .ctrl w v) s s
      [(Reg.SESS_WIN_CTRL_GUEST_RO n k, getBits v 17 1), (Reg.SESS_WIN_CTRL_VALID n k, 1), (Reg.SESS_WIN_CTRL_SIZE n k, getBits v 0 14),
        (Reg.SESS_WIN_CTRL_MIRRORED n k, b2n (s.winMirrored n k))]) := by
  obtain ⟨-, -, hctrl⟩ := exec_winWrite (k := k) (v := v) hl hn ha
  rw [State.winCtrlWrite] at hctrl
  simp only [hv, bitOf_eq_getBits, h1, Bool.false_eq_true, if_false, decide_true, if_true] at hctrl
  refine ⟨fun code hc => ?_, fun hc => ?_⟩
  · rw [hc] at hctrl
    exact ⟨_, hctrl, setsOnly_winRefuse s n hk code⟩
  · rw [hc] at hctrl
    have h := setsOnly_winCtrl (k := k) (v := v) hl
    rw [h1] at h
    exact ⟨_, hctrl, setsOnly_last (setsOnly_set h (Reg.SESS_WIN_CTRL_MIRRORED n k) (b2n (s.winMirrored n k))) (by simp)⟩

/-- R64: writes of a window that is valid. -/
theorem winWrites_valid (hk : s.SourceFree (192 + n)) (hv : s.bit (Reg.SESS_WIN_CTRL_VALID n k) = true) :
    (getBits v 0 19 ≠ s.get (Reg.SESS_WIN_DEV_DEV n k) → Does (.sessWinWrite n k .dev w v) s s (winErrFields s n 6)) ∧
    (getBits v 0 13 ≠ s.get (Reg.SESS_WIN_GOFF_GOFF n k) → Does (.sessWinWrite n k .goff w v) s s (winErrFields s n 6)) ∧
    (getBits v 0 14 ≠ s.get (Reg.SESS_WIN_CTRL_SIZE n k) → Does (.sessWinWrite n k .ctrl w v) s s (winErrFields s n 6)) ∧
    (getBits v 0 14 = s.get (Reg.SESS_WIN_CTRL_SIZE n k) → getBits v 16 1 = 0 → Does (.sessWinWrite n k .ctrl w v) s s
      [(Reg.SESS_WIN_CTRL_MIRRORED n k, 0), (Reg.SESS_WIN_CTRL_GUEST_RO n k, getBits v 17 1), (Reg.SESS_WIN_CTRL_VALID n k, 0)]) ∧
    (getBits v 0 14 = s.get (Reg.SESS_WIN_CTRL_SIZE n k) → getBits v 16 1 = 1 → Does (.sessWinWrite n k .ctrl w v) s s
      [(Reg.SESS_WIN_CTRL_GUEST_RO n k, getBits v 17 1)]) := by
  obtain ⟨hdev, hgoff, hctrl⟩ := exec_winWrite (k := k) (v := v) hl hn ha
  rw [if_pos hv] at hdev hgoff
  rw [State.winCtrlWrite] at hctrl
  simp only [hv, if_true] at hctrl
  have hlt : getBits v 0 14 = getBits v 0 14 % 2 ^ 14 := (Nat.mod_eq_of_lt (getBits_lt v 0 14)).symm
  refine ⟨fun hne => ?_, fun hne => ?_, fun hne => ?_, fun he h0 => ?_, fun he h1 => ?_⟩
  · rw [if_neg hne] at hdev
    exact ⟨_, hdev, setsOnly_winRefuse s n hk 6⟩
  · rw [if_neg hne] at hgoff
    exact ⟨_, hgoff, setsOnly_winRefuse s n hk 6⟩
  · rw [if_pos hne] at hctrl
    exact ⟨_, hctrl, setsOnly_winRefuse s n hk 6⟩
  · simp only [if_neg (not_not.2 he), bitOf_eq_getBits, h0, Nat.zero_ne_one, decide_false, Bool.false_eq_true, if_false] at hctrl
    have h := setsOnly_dropLast (l := [(Reg.SESS_WIN_CTRL_GUEST_RO n k, getBits v 17 1), (Reg.SESS_WIN_CTRL_VALID n k, getBits v 16 1)])
      (setsOnly_winCtrl (k := k) hl) (he ▸ hlt)
    rw [h0] at h
    exact ⟨_, hctrl, setsOnly_set h _ _⟩
  · simp only [if_neg (not_not.2 he), bitOf_eq_getBits, h1, decide_true, if_true] at hctrl
    have h := setsOnly_dropLast (l := [(Reg.SESS_WIN_CTRL_GUEST_RO n k, getBits v 17 1), (Reg.SESS_WIN_CTRL_VALID n k, getBits v 16 1)])
      (setsOnly_winCtrl (k := k) hl) (he ▸ hlt)
    rw [h1] at h
    exact ⟨_, hctrl, setsOnly_dropLast (l := [(Reg.SESS_WIN_CTRL_GUEST_RO n k, getBits v 17 1)]) h ((bit_eq_true rfl).1 hv)⟩

end

/-! ### The checks (R63) -/

/-- Window `j` of a session is another one than `k`, is valid, and overlaps the `size` granules from GOFF of window `k`. -/
def State.windowMeets (s : State) (n k size j : Nat) : Prop :=
  j ≠ k ∧ s.bit (Reg.SESS_WIN_CTRL_VALID n j) = true ∧ 0 < size ∧ 0 < s.get (Reg.SESS_WIN_CTRL_SIZE n j) ∧
    s.get (Reg.SESS_WIN_GOFF_GOFF n k) < s.get (Reg.SESS_WIN_GOFF_GOFF n j) + s.get (Reg.SESS_WIN_CTRL_SIZE n j) ∧
    s.get (Reg.SESS_WIN_GOFF_GOFF n j) < s.get (Reg.SESS_WIN_GOFF_GOFF n k) + size

theorem overlaps_iff (size : Nat) :
    (List.range 16).any (fun j => j != k && s.bit (Reg.SESS_WIN_CTRL_VALID n j) && rangesMeet (s.get (Reg.SESS_WIN_GOFF_GOFF n k)) size
      (s.get (Reg.SESS_WIN_GOFF_GOFF n j)) (s.get (Reg.SESS_WIN_CTRL_SIZE n j))) = true ↔ ∃ j < 16, s.windowMeets n k size j := by
  simp only [List.any_eq_true, List.mem_range, Bool.and_eq_true, bne_iff_ne, rangesMeet, decide_eq_true_eq, State.windowMeets]
  constructor
  · rintro ⟨j, hj, ⟨hne, hvalid⟩, h1, h2, h3, h4⟩
    exact ⟨j, hj, hne, hvalid, h3, h4, h1, h2⟩
  · rintro ⟨j, hj, hne, hvalid, h3, h4, h1, h2⟩
    exact ⟨j, hj, ⟨hne, hvalid⟩, h1, h2, h3, h4⟩

/-- R63: the codes of the checks, in their order. -/
theorem winCheck_codes (size : Nat) :
    let dev := s.get (Reg.SESS_WIN_DEV_DEV n k)
    let goff := s.get (Reg.SESS_WIN_GOFF_GOFF n k)
    (s.winBadRange dev size = true → s.winCheck n k size = some 1) ∧
    (s.winBadRange dev size = false →
      (s.winTaken n dev size = true → s.winCheck n k size = some 2) ∧
      (s.winTaken n dev size = false →
        (2 ^ s.apertureLog2 n < granuleBytes * (goff + size) → s.winCheck n k size = some 3) ∧
        (granuleBytes * (goff + size) ≤ 2 ^ s.apertureLog2 n → (∃ j < 16, s.windowMeets n k size j) → s.winCheck n k size = some 4) ∧
        (granuleBytes * (goff + size) ≤ 2 ^ s.apertureLog2 n → (∀ j < 16, ¬ s.windowMeets n k size j) →
          s.winCheck n k size = if size = 0 then some 5 else none))) := by
  have hover := overlaps_iff (s := s) (n := n) (k := k) size
  dsimp only
  rw [State.winCheck]
  refine ⟨fun h => if_pos h, fun h => ?_⟩
  rw [if_neg (by simp [h])]
  refine ⟨fun h => if_pos h, fun h => ?_⟩
  rw [if_neg (by simp [h])]
  refine ⟨fun h => if_pos h, fun h hm => ?_, fun h hm => ?_⟩
  · rw [if_neg (Nat.not_lt.2 h), if_pos (hover.2 hm)]
  · rw [if_neg (Nat.not_lt.2 h), if_neg fun hc => ?_]
    obtain ⟨j, hj, hmeets⟩ := hover.1 hc
    exact hm j hj hmeets

end

/-- Settles O19: a window that is not valid is written or checked whole, and one that is valid is not moved. -/
theorem windowWritesAreCheckedWhole : Obligations.WindowWritesAreCheckedWhole := by
  intro s n k w v refused size dev goff meets hn ha hl hk
  refine ⟨fun hv => ?_, fun hv => winWrites_valid hl hn ha hk hv⟩
  obtain ⟨hdev, hgoff, hclear⟩ := winWrites_invalid (k := k) (v := v) hl hn ha hv
  obtain ⟨hbad, hgood⟩ := winCheck_codes (s := s) (n := n) (k := k) size
  refine ⟨hdev, hgoff, hclear, fun h1 => ?_⟩
  obtain ⟨hrefused, htaken⟩ := winCtrl_validates (k := k) hl hn ha hk hv h1
  refine ⟨fun h => hrefused 1 (hbad h), fun h => ?_⟩
  obtain ⟨hother, hown⟩ := hgood h
  refine ⟨fun h => hrefused 2 (hother h), fun h => ?_⟩
  obtain ⟨hpast, hmeets, hlast⟩ := hown h
  refine ⟨fun h => hrefused 3 (hpast h), fun h hm => hrefused 4 (hmeets h hm), fun h hm => ⟨fun h0 => ?_, fun h0 => ?_⟩⟩
  · exact hrefused 5 ((hlast h hm).trans (if_pos h0))
  · exact htaken ((hlast h hm).trans (if_neg h0))

end Sys2Proof.Machine
end

section
/-! SUPPORT. Owner registers (R68): what a write is refused for, and the fields that one sets, the bits of the sessions' resources among
them (R55). -/

namespace Sys2Proof.Machine

theorem access_owner (o : Owned) : rowAccess (ownedAddr o) = some (0, 0xF1FF, 0x40000000, 0x80000000) := by
  cases o with
  | layer n => exact (rowAccess_reg n.isLt (by omega) (by omega)).trans (by decide +kernel)
  | scaler n => exact (rowAccess_reg n.isLt (by omega) (by omega)).trans (by decide +kernel)
  | haptic n => exact (rowAccess_reg n.isLt (by omega) (by omega)).trans (by decide +kernel)
  | stream k =>
    have h : ∀ k : Fin 24, unitAccess 19 (0xff00 + 4 * k) = some (0, 0xF1FF, 0x40000000, 0x80000000) := by decide +kernel
    exact (rowAccess_reg (by decide) (by omega) (by omega)).trans (h k)
  | zone n k =>
    have h : ∀ k : Fin 32, unitAccess 16 (0xff00 + 4 * k) = some (0, 0xF1FF, 0x40000000, 0x80000000) := by decide +kernel
    exact (rowAccess_reg n.isLt (by omega) (by omega)).trans (h k)

theorem unit_reg {u i o : Nat} (hi : i < 256) (ho : o < 0x10000) : reg u i o / 0x1000000 = u := by unfold reg; omega

theorem offset_reg {u i o : Nat} (ho : o < 0x10000) : reg u i o % 0x10000 = o := by unfold reg; omega

theorem lockAddr_owner (o : Owned) : lockAddr (ownedAddr o) = ownedAddr o := by
  cases o with
  | layer n => simp [lockAddr, ownedAddr, unit_reg (u := 6) (i := n) (o := 0xfff0) (by omega) (by omega), offset_reg (u := 6) (i := n) (o := 0xfff0)]
  | scaler n => simp [lockAddr, ownedAddr, unit_reg (u := 8) (i := n) (o := 0xfff0) (by omega) (by omega)]
  | haptic n => simp [lockAddr, ownedAddr, unit_reg (u := 17) (i := n) (o := 0xfff0) (by omega) (by omega)]
  | stream k => simp [lockAddr, ownedAddr, unit_reg (u := 19) (i := 0) (o := 0xff00 + 4 * k) (by omega) (by omega)]
  | zone n k => simp [lockAddr, ownedAddr, unit_reg (u := 16) (i := n) (o := 0xff00 + 4 * k) (by omega) (by omega)]

theorem locked_owner (s : State) (o : Owned) : s.locked (ownedAddr o) = decide (getBits (s.reg (ownedAddr o)) 31 1 = 1) := by
  rw [State.locked, lockAddr_owner, bitOf_eq_getBits]

/-! ### Bits -/

/-- A bit that a write of 1 clears, as a field of what is left of the old value. -/
theorem clearedBit_eq (x v : Word) (i : Nat) : (if getBits v i 1 = 1 then 0 else getBits x i 1) = getBits (x &&& ~~~v) i 1 := by
  rw [getBits_one, getBits_one, getBits_one, BitVec.getLsbD_and, BitVec.getLsbD_not]
  by_cases hi : i < 32
  · cases v.getLsbD i <;> cases x.getLsbD i <;> simp [hi]
  · simp [BitVec.getLsbD_of_ge x i (by omega), hi]

theorem getBits_one_ne (v x : Word) (i : Nat) : (getBits v i 1 ≠ getBits x i 1) ↔ (bitOf v.toNat i != bitOf x.toNat i) = true := by
  rw [getBits_one, getBits_one, bitOf_toNat, bitOf_toNat]
  cases v.getLsbD i <;> cases x.getLsbD i <;> decide

theorem testBit_add_two_pow {x h : Nat} (hx : x.testBit h = false) (i : Nat) : (x + 2 ^ h).testBit i = (decide (i = h) || x.testBit i) := by
  have hlt := Nat.mod_lt x (Nat.two_pow_pos h)
  have heven : x / 2 ^ h % 2 = 0 := by
    rw [Nat.testBit_eq_decide_div_mod_eq, decide_eq_false_iff_not] at hx
    omega
  have hsum : x + 2 ^ h = 2 ^ h * (x / 2 ^ h + 1) + x % 2 ^ h := by
    have := Nat.div_add_mod x (2 ^ h)
    rw [Nat.mul_add, Nat.mul_one]
    omega
  rw [hsum, Nat.testBit_two_pow_mul_add _ hlt]
  conv_rhs => rw [← Nat.div_add_mod x (2 ^ h), Nat.testBit_two_pow_mul_add _ hlt]
  by_cases hi : i < h
  · simp [hi, Nat.ne_of_lt hi]
  · obtain ⟨j, rfl⟩ := Nat.exists_eq_add_of_le (Nat.not_lt.1 hi)
    cases j with
    | zero =>
      have hodd : (x / 2 ^ h + 1) % 2 = 1 := by omega
      simp [hodd]
    | succ j =>
      have : (x / 2 ^ h + 1) / 2 = x / 2 ^ h / 2 := by omega
      simp [Nat.testBit_succ, this]
theorem bitOf_testBit (x i : Nat) : bitOf x i = x.testBit i := by
  rw [bitOf, Nat.testBit_eq_decide_div_mod_eq]
  rfl
theorem testBit_setBitOf (x h i : Nat) : (setBitOf x h).testBit i = (decide (i = h) || x.testBit i) := by
  rw [setBitOf, bitOf_testBit]
  cases hx : x.testBit h with
  | false => exact testBit_add_two_pow hx i
  | true =>
    rw [if_pos rfl]
    by_cases hi : i = h
    · simp [hi, hx]
    · rw [decide_eq_false hi, Bool.false_or]

theorem testBit_clearBitOf (x h i : Nat) : (clearBitOf x h).testBit i = (!decide (i = h) && x.testBit i) := by
  rw [clearBitOf, bitOf_testBit]
  cases hx : x.testBit h with
  | false =>
    rw [if_neg Bool.false_ne_true]
    by_cases hi : i = h
    · simp [hi, hx]
    · rw [decide_eq_false hi]; rfl
  | true =>
    have hle : 2 ^ h ≤ x := Nat.ge_two_pow_of_testBit hx
    obtain ⟨y, rfl⟩ := Nat.exists_eq_add_of_le hle
    have hy : y.testBit h = false := by
      rw [Nat.testBit_two_pow_add_eq] at hx
      simpa using hx
    rw [if_pos rfl, Nat.add_sub_cancel_left, Nat.add_comm, testBit_add_two_pow hy]
    by_cases hi : i = h
    · simp [hi, hy]
    · simp [hi]
/-- A field with a bit set or cleared, bit by bit. -/
theorem testBit_putBit (x h i : Nat) (b : Bool) :
    (if b then setBitOf x h else clearBitOf x h).testBit i = if i = h then b else x.testBit i := by
  cases b
  · rw [if_neg Bool.false_ne_true, testBit_clearBitOf]
    by_cases hi : i = h <;> simp [hi]
  · rw [if_pos rfl, testBit_setBitOf]
    by_cases hi : i = h <;> simp [hi]

/-- A bit of a field replaced is a field of one bit set. -/
theorem set_bitOf (s : State) (f : Fld) {h : Nat} (hw : h < f.width) (b : Bool) :
    s.set f (if b then setBitOf (s.get f) h else clearBitOf (s.get f) h) = s.set ⟨f.addr, f.lo + h, 1⟩ (b2n b) := by
  unfold State.set
  congr 1
  refine BitVec.eq_of_getLsbD_eq fun i hi => ?_
  rw [getLsbD_setBits _ _ _ _ _ hi, getLsbD_setBits _ _ _ _ _ hi, testBit_putBit]
  dsimp only
  by_cases hin : f.lo ≤ i ∧ i < f.lo + f.width
  · rw [if_pos hin]
    by_cases hh : i - f.lo = h
    · rw [if_pos hh, if_pos (by omega), show i - (f.lo + h) = 0 by omega]
      cases b <;> rfl
    · rw [if_neg hh, if_neg (by omega), State.get, testBit_getBits, decide_eq_true (by omega), Bool.true_and,
        Nat.add_sub_cancel' hin.1]
  · rw [if_neg hin, if_neg (by omega)]

end Sys2Proof.Machine
end

section
/-! SUPPORT. What a detach may change (R53, R54): registers at given places, the records of given layers, and of a function what its
ingress queue and its pending messages hold. -/

namespace Sys2Proof.Machine

/-- State `t` differs from `s`, in registers, in layers and in functions, at most at the register places `A`, in the records of the
layers `L`, and in the functions whose MSI-X is on or whose ingress queue holds something; none of them enters or leaves its reset. -/
structure State.Aside (A L : Nat → Prop) (s t : State) : Prop where
  reg : ∀ a, ¬ A a → t.reg a = s.reg a
  lay : ∀ l, ¬ L l → t.lay l = s.lay l
  inReset : ∀ f, (t.func f).inReset = (s.func f).inReset
  func : ∀ f, (s.func f).msixOn = false → (s.func f).ingress = [] → t.func f = s.func f

theorem State.lay_setLay (s : State) (n k : Nat) (r : LayerState) : (s.setLay n r).lay k = if k = n then r else s.lay k := sget_sput _ _ _ _

theorem State.func_setFunc (s : State) (n k : Nat) (r : FuncState) : (s.setFunc n r).func k = if k = n then r else s.func k :=
  sget_sput _ _ _ _

namespace State.Aside

variable {A B L M : Nat → Prop} {s t u : State}

theorem refl (A L : Nat → Prop) (s : State) : s.Aside A L s := ⟨fun _ _ => rfl, fun _ _ => rfl, fun _ => rfl, fun _ _ _ => rfl⟩

theorem trans (h : s.Aside A L t) (h' : t.Aside A L u) : s.Aside A L u :=
  ⟨fun a ha => (h'.reg a ha).trans (h.reg a ha), fun l hl => (h'.lay l hl).trans (h.lay l hl),
    fun f => (h'.inReset f).trans (h.inReset f), fun f hm hi => by
      have e := h.func f hm hi
      rw [← e] at hm hi
      exact (h'.func f hm hi).trans e⟩

theorem mono (h : s.Aside A L t) (hA : ∀ a, A a → B a) (hL : ∀ l, L l → M l) : s.Aside B M t :=
  ⟨fun a ha => h.reg a (mt (hA a) ha), fun l hl => h.lay l (mt (hL l) hl), h.inReset, h.func⟩

theorem get (h : s.Aside A L t) {f : Fld} (hf : ¬ A f.addr) : t.get f = s.get f := by
  rw [State.get, State.get, h.reg _ hf]

theorem bit (h : s.Aside A L t) {f : Fld} (hf : ¬ A f.addr) : t.bit f = s.bit f := by
  rw [State.bit, State.bit, h.get hf]

theorem setReg (h : s.Aside A L t) {a : Nat} (v : Word) (ha : A a) : s.Aside A L (t.setReg a v) :=
  ⟨fun b hb => by rw [State.reg_setReg, if_neg (fun e : b = a => hb (e ▸ ha)), h.reg b hb], h.lay, h.inReset, h.func⟩

theorem set (h : s.Aside A L t) {f : Fld} (v : Nat) (hf : A f.addr) : s.Aside A L (t.set f v) := h.setReg _ hf

theorem count (h : s.Aside A L t) {f : Fld} (n : Nat) (hf : A f.addr) : s.Aside A L (t.count f n) := h.setReg _ hf

theorem resetReg (h : s.Aside A L t) {a : Nat} (ha : A a) : s.Aside A L (t.resetReg a) := h.setReg _ ha

theorem plainWrite (h : s.Aside A L t) {a : Nat} (v : Word) (ha : A a) : s.Aside A L (t.plainWrite a v) := by
  unfold State.plainWrite
  split
  · exact h
  · exact h.setReg _ ha

/-- An operation that leaves the registers, the layers and the functions. -/
theorem same (h : s.Aside A L t) (hr : u.regs = t.regs) (hl : u.layers = t.layers) (hf : u.funcs = t.funcs) : s.Aside A L u := by
  have er : ∀ a, u.reg a = t.reg a := fun a => by rw [State.reg, hr, State.reg]
  have el : ∀ l, u.lay l = t.lay l := fun l => by rw [State.lay, hl, State.lay]
  have ef : ∀ f, u.func f = t.func f := fun f => by rw [State.func, hf, State.func]
  exact ⟨fun a ha => (er a).trans (h.reg a ha), fun l hm => (el l).trans (h.lay l hm), fun f => by rw [ef, h.inReset],
    fun f hm hi => (ef f).trans (h.func f hm hi)⟩

theorem setLay (h : s.Aside A L t) {l : Nat} (r : LayerState) (hl : L l) : s.Aside A L (t.setLay l r) :=
  ⟨h.reg, fun k hk => by rw [State.lay_setLay, if_neg (fun e : k = l => hk (e ▸ hl)), h.lay k hk], h.inReset, h.func⟩

theorem setSes (h : s.Aside A L t) (n : Nat) (r : SessState) : s.Aside A L (t.setSes n r) := h.same rfl rfl rfl

/-- A change of a function that keeps it in or out of reset, and changes nothing in one at rest. -/
theorem setFunc (h : s.Aside A L t) {f : Nat} {r : FuncState} (hr : r.inReset = (t.func f).inReset)
    (hq : (t.func f).msixOn = false → (t.func f).ingress = [] → r = t.func f) : s.Aside A L (t.setFunc f r) := by
  refine h.trans ⟨fun _ _ => rfl, fun _ _ => rfl, fun k => ?_, fun k hm hi => ?_⟩
  · rw [State.func_setFunc]
    split
    · next e => rw [e, hr]
    · rfl
  · rw [State.func_setFunc]
    split
    · next e => subst e; exact hq hm hi
    · rfl

theorem ite {c : Prop} [Decidable c] (h : s.Aside A L t) (h' : s.Aside A L u) : s.Aside A L (if c then t else u) := by
  split
  · exact h
  · exact h'

theorem when (h : s.Aside A L t) {f : State → State} (b : Bool) (hf : b = true → s.Aside A L (f t)) : s.Aside A L (t.when b f) := by
  cases b with
  | false => exact h
  | true => exact hf rfl

theorem each {α : Type} {f : α → State → State} (l : List α) (hf : ∀ x ∈ l, ∀ t : State, s.Aside A L t → s.Aside A L (f x t))
    (h : s.Aside A L t) : s.Aside A L (t.each l f) := by
  induction l generalizing t with
  | nil => exact h
  | cons x xs ih => exact ih (fun y hy => hf y (List.mem_cons_of_mem x hy)) (hf x List.mem_cons_self t h)

end State.Aside

/-! ### What a register holds after a reset of registers -/

theorem sget_filter {β : Type} {d : Nat → β} (keep : Nat → Bool) (m : List (Nat × β)) (k : Nat) :
    sget d (m.filter fun p => keep p.1) k = if keep k then sget d m k else d k := by
  induction m with
  | nil => simp [sget]
  | cons p m ih =>
    rw [List.filter_cons]
    by_cases hk : k = p.1
    · subst hk
      cases hp : keep p.1 with
      | true => simp [sget]
      | false => simp [ih, hp]
    · cases hp : keep p.1 with
      | true => simp [sget, hk, ih]
      | false => simp [sget, hk, ih]

theorem reg_resetRange (s : State) (lo len : Nat) (keep : Nat → Bool) (a : Nat) :
    (s.resetRange lo len keep).reg a = if lo ≤ a ∧ a < lo + len ∧ keep a = false then regReset a else s.reg a := by
  have h := sget_filter (d := regReset) (fun a => !(decide (lo ≤ a) && decide (a < lo + len)) || keep a) s.regs a
  refine h.trans ?_
  cases hk : keep a <;> by_cases hlo : lo ≤ a <;> by_cases hhi : a < lo + len <;> simp [hlo, hhi, State.reg]

theorem State.reg_resetReg (s : State) (a b : Nat) : (s.resetReg a).reg b = if b = a then regReset a else s.reg b := State.reg_setReg _ _ _ _

theorem reg_each_resetReg {α : Type} (g : α → Nat) (l : List α) (s : State) (a : Nat) :
    (s.each l fun x t => t.resetReg (g x)).reg a = if a ∈ l.map g then regReset a else s.reg a := by
  induction l generalizing s with
  | nil => simp [State.each]
  | cons x l ih =>
    refine (ih (s.resetReg (g x))).trans ?_
    rw [State.reg_resetReg, List.map_cons]
    by_cases ha : a = g x <;> simp [ha]

section
variable {A L : Nat → Prop} {s t : State}

theorem State.Aside.raiseIrq (h : s.Aside A L t) {k : Nat} (hk : k ≤ 479 → A (Reg.IC_SRC k)) : s.Aside A L (t.raiseIrq k) := by
  unfold State.raiseIrq
  split
  · exact h
  · next hu =>
    split
    · exact h.same rfl rfl rfl
    · exact h.set _ (hk (by simp [sourceUsed] at hu; omega))

theorem State.Aside.event (h : s.Aside A L t) {flag events : Fld} {k : Nat} (hf : A flag.addr) (he : A events.addr)
    (hk : k ≤ 479 → A (Reg.IC_SRC k)) : s.Aside A L (t.event flag events k) :=
  ((h.set 1 hf).count 1 he).raiseIrq hk

theorem State.Aside.msixSend (h : s.Aside A L t) (f v : Nat) : s.Aside A L (t.msixSend f v) := by
  unfold State.msixSend
  dsimp only
  split
  · exact h
  · next hon =>
    split
    · exact h.setFunc rfl fun hm => absurd hm (by simpa using hon)
    · exact h.same rfl rfl rfl

theorem State.Aside.sessIrq (h : s.Aside A L t) {n bit : Nat} (hn : A (Reg.SESS_IRQ_STATUS n)) : s.Aside A L (t.sessIrq n bit) := by
  unfold State.sessIrq
  have h1 := h.setReg (t.reg (Reg.SESS_IRQ_STATUS n) ||| BitVec.ofNat 32 (2 ^ bit)) hn
  dsimp only
  split
  · unfold State.sessMessage
    split
    · exact h1
    · exact h1.msixSend _ _
  · exact h1

theorem State.Aside.releaseScalers (h : s.Aside A L t) (l : Nat) (hs : ∀ k < 24, A (Reg.SCL_STATUS k)) :
    s.Aside A L (t.releaseScalers l) := by
  unfold State.releaseScalers
  refine State.Aside.each _ (fun k hk u hu => ?_) h
  have hA := hs k (List.mem_range.1 hk)
  refine hu.when _ fun _ => ?_
  dsimp only
  split
  · exact (hu.set _ hA).set _ hA
  · exact (((hu.set _ hA).set _ hA).set _ hA).set _ hA

/-- What a session's COMMIT interrupt goes to depends on who owns the layer. -/
theorem layerSession_congr {l : Nat} (ho : t.ownedSecure 6 l = s.ownedSecure 6 l) (hl : t.reg (Reg.LAYER_OWNER l) = s.reg (Reg.LAYER_OWNER l)) :
    t.layerSession l = s.layerSession l := by
  rw [State.layerSession, State.layerSession, ho, State.bit, State.bit, State.get, State.get, State.get, State.get, hl]

/-- A rejected commit before its session is told. -/
def State.layEnd (s : State) (l reason : Nat) : State :=
  ((s.setLay l { s.lay l with loading := false, sched := none, fence := none }).layState l 3 reason).releaseScalers l

theorem layReject_eq (s : State) (l reason : Nat) : s.layReject l reason = (s.layEnd l reason).layCommitIrq l := rfl

theorem State.Aside.layEnd (h : s.Aside A L t) {l : Nat} (hL : L l) (hc : A (Reg.LAYER_COMMIT_STATUS l))
    (hs : ∀ k < 24, A (Reg.SCL_STATUS k)) (reason : Nat) : s.Aside A L (t.layEnd l reason) :=
  (((h.setLay _ hL).set 3 hc).set reason hc).releaseScalers l hs

theorem layEnd_session (s : State) {l : Nat} (hl : l < 64) (reason : Nat) : (s.layEnd l reason).layerSession l = s.layerSession l := by
  have h := (State.Aside.refl (fun a => a = Reg.LAYER_COMMIT_STATUS l ∨ ∃ k < 24, a = Reg.SCL_STATUS k) (· = l) s).layEnd rfl (.inl rfl)
    (fun k hk => .inr ⟨k, hk, rfl⟩) reason
  refine layerSession_congr ?_ (h.reg _ ?_)
  · rw [State.ownedSecure, State.ownedSecure, h.reg]
    rintro (h | ⟨k, -, h⟩) <;> simp only [Reg.SYS_OWN, Reg.LAYER_COMMIT_STATUS, Reg.SCL_STATUS, reg] at h <;> omega
  · rintro (h | ⟨k, -, h⟩) <;> simp only [Reg.LAYER_OWNER, Reg.LAYER_COMMIT_STATUS, Reg.SCL_STATUS, reg] at h <;> omega

/-- A rejected commit: the layer's record, its COMMIT_STATUS, scalers, and the IRQ_STATUS of the session that owns the layer. -/
theorem State.Aside.layReject (h : s.Aside A L t) {l : Nat} (hl : l < 64) (hL : L l) (hc : A (Reg.LAYER_COMMIT_STATUS l))
    (hs : ∀ k < 24, A (Reg.SCL_STATUS k)) (hi : ∀ n, t.layerSession l = some n → A (Reg.SESS_IRQ_STATUS n)) (reason : Nat) :
    s.Aside A L (t.layReject l reason) := by
  have h1 := h.layEnd hL hc hs reason
  rw [layReject_eq, State.layCommitIrq, layEnd_session t hl]
  cases he : t.layerSession l with
  | none => exact h1
  | some n => exact h1.sessIrq (hi n he)

theorem State.Aside.hapDetach (h : s.Aside A L t) (n : Nat) (hc : ∀ k < 16, A (Reg.HC_COUNTS k)) (hs : ∀ k < 16, A (Reg.HC_STATUS k)) :
    s.Aside A L (t.hapDetach n) := by
  unfold State.hapDetach
  refine State.Aside.each _ (fun k hk u hu => ?_) h
  have hk := List.mem_range.1 hk
  have h1 : ∀ (r : HapState) (c : Nat), s.Aside A L ((u.setHc k r).hapDiscard k c) := fun r c =>
    (hu.same (u := u.setHc k r) rfl rfl rfl).count (f := Reg.HC_COUNTS_DISCARDS k) c (hc k hk)
  exact ((h1 _ _).set (f := Reg.HC_STATUS_STATE k) _ (hs k hk)).ite (h1 _ _)

theorem State.Aside.resetRange (h : s.Aside A L t) {lo len : Nat} {keep : Nat → Bool} (hA : ∀ a, lo ≤ a → a < lo + len → keep a = false → A a) :
    s.Aside A L (t.resetRange lo len keep) :=
  h.trans ⟨fun a ha => by
    rw [reg_resetRange, if_neg]
    rintro ⟨hlo, hhi, hk⟩
    exact ha (hA a hlo hhi hk), fun _ _ => rfl, fun _ => rfl, fun _ _ _ => rfl⟩

theorem State.Aside.dropIngress (h : s.Aside A L t) (n : Nat) (hs : A (Reg.SESS_STATUS n)) (hp : A (Reg.SESS_PAGE_STATUS n)) :
    s.Aside A L (t.dropIngress n) := by
  have h1 : s.Aside A L (t.setFunc (t.sessFunc n) { t.func (t.sessFunc n) with
      ingress := (t.func (t.sessFunc n)).ingress.filter (·.slot != t.get (Reg.SESS_CTRL_SLOT n)) }) := by
    refine h.setFunc rfl fun _ hi => ?_
    rw [hi, List.filter_nil, ← hi]
  exact (h1.set (f := Reg.SESS_STATUS_QUOTA_HELD n) _ hs).set (f := Reg.SESS_PAGE_STATUS_QUOTA_HELD n) _ hp

theorem State.Aside.resetShadows (h : s.Aside A L t) {l : Nat} (hA : ∀ o ≤ 0x68, A (Machine.reg 6 l o)) : s.Aside A L (t.resetShadows l) := by
  unfold State.resetShadows
  have h1 : s.Aside A L (t.each (List.range 20) fun i t => t.resetReg (Reg.LAYER_CTRL l + 4 * i)) :=
    State.Aside.each _ (fun i hi u hu => hu.resetReg (hA (4 * i) (by have := List.mem_range.1 hi; omega))) h
  exact (h1.resetReg (hA _ (by omega))).resetReg (hA _ (by omega))

end

end Sys2Proof.Machine
end

section
/-! SUPPORT. What a detach may change, place by place, and what it leaves: owner registers, the session's own configuration and windows,
guest ports and every other session (R52 to R54). -/

namespace Sys2Proof.Machine

/-- The registers that a detach of session `n`, with the layers `mine`, may change. -/
def detachPlaces (n : Nat) (mine : List Nat) (a : Nat) : Prop :=
  (∃ o, (o < 0x1000 ∨ o = 0x1004) ∧ a = reg 14 n o) ∨ a = Reg.SESS_IRQ_STATUS 0 ∨ (∃ k < 24, a = Reg.SCL_STATUS k) ∨
    (∃ k < 16, a = Reg.HC_COUNTS k ∨ a = Reg.HC_STATUS k) ∨ (∃ k ≤ 479, a = Reg.IC_SRC k) ∨ ∃ l ∈ mine, ∃ o < 0x70, a = reg 6 l o

theorem detachPlaces_reg {n : Nat} {mine : List Nat} {u i o : Nat} (hn : n < 256) (hm : ∀ l ∈ mine, l < 64) (hi : i < 256) (ho : o < 0x10000)
    (h : detachPlaces n mine (reg u i o)) : (u = 14 ∧ i = n ∧ (o < 0x1000 ∨ o = 0x1004)) ∨ (u = 14 ∧ i = 0 ∧ o = 0xd00) ∨ (u = 8 ∧ o = 0) ∨
      (u = 17 ∧ o ≤ 0x10) ∨ (u = 23 ∧ o < 0x8000) ∨ (u = 6 ∧ i ∈ mine ∧ o < 0x70) := by
  obtain ⟨x, hx, h⟩ | h | ⟨k, hk, h⟩ | ⟨k, hk, h | h⟩ | ⟨k, hk, h⟩ | ⟨l, hl, x, hx, h⟩ := h
  · have : u = 14 ∧ i = n ∧ o = x := by unfold reg at h; omega
    omega
  · have : u = 14 ∧ i = 0 ∧ o = 0xd00 := by simp only [Reg.SESS_IRQ_STATUS, reg] at h; omega
    omega
  · have : u = 8 ∧ o = 0 := by simp only [Reg.SCL_STATUS, reg] at h; omega
    omega
  · have : u = 17 ∧ o = 0x10 := by simp only [Reg.HC_COUNTS, reg] at h; omega
    omega
  · have : u = 17 ∧ o = 4 := by simp only [Reg.HC_STATUS, reg] at h; omega
    omega
  · have : u = 23 ∧ o < 0x8000 := by simp only [Reg.IC_SRC, reg] at h; omega
    omega
  · have h64 := hm l hl
    have hh : u = 6 ∧ i = l ∧ o = x := by unfold reg at h; omega
    obtain ⟨rfl, rfl, rfl⟩ := hh
    exact .inr (.inr (.inr (.inr (.inr ⟨rfl, hl, hx⟩))))

section
variable {s t : State} {n : Nat}

theorem sessLayers_lt : ∀ l ∈ s.sessLayers n, l < 64 := fun _ hl => List.mem_range.1 (List.mem_filter.1 hl).1

theorem sessLayers_congr (h : ∀ l < 64, t.reg (Reg.LAYER_OWNER l) = s.reg (Reg.LAYER_OWNER l)) : t.sessLayers n = s.sessLayers n := by
  refine List.filter_congr fun l hl => ?_
  rw [State.bit, State.bit, State.get, State.get, State.get, State.get, h l (List.mem_range.1 hl)]

/-- R125: a session's own layer tells the session, and a layer of the secure world session 0. -/
theorem layerSession_mine {l : Nat} (hl : l ∈ s.sessLayers n) : s.layerSession l = some (if s.ownedSecure 6 l then 0 else n) := by
  have hm := (List.mem_filter.1 hl).2
  rw [Bool.and_eq_true, beq_iff_eq] at hm
  obtain ⟨hv, hs⟩ := hm
  rw [State.layerSession, hv, hs]
  split <;> rfl

/-- R53: a layer without its PENDING commit, which is rejected with DETACHED. -/
def State.layDropped (t : State) (l : Nat) : State := if t.layPending l then t.layReject l 2 else t

/-- R53, R54: a layer of a session that detaches. -/
def State.layDetach (t : State) (n l : Nat) : State :=
  if (t.layDropped l).bit (Reg.SESS_CTRL_DETACH_ACTION n) then (t.layDropped l).setLay l { (t.layDropped l).lay l with detached := true }
  else t.layDropped l

/-- The state in which a session that detaches has its page reset. -/
def State.pageDetached (s : State) (n : Nat) : State := ((s.dropIngress n).set (Reg.SESS_STATUS_ATTACHED n) 0).pageReset n

/-- The state in which a session that detaches has its layers detached. -/
def State.layersDetached (s : State) (n : Nat) : State :=
  (s.pageDetached n).each ((s.pageDetached n).sessLayers n) fun l t => t.layDetach n l

theorem detach_eq (s : State) (n : Nat) :
    s.detach n = ((s.layersDetached n).hapDetach n).sessEvent n (Reg.SESS_STATUS_DETACH_EVT n) := rfl

/-- R53: the session's page at its reset values, with the records of its queue counted, before its layers' registers are reset. -/
def State.queueReset (s : State) (n : Nat) : State :=
  let s := ((s.resetRange (Reg.SESS_PAGE_ID n) 0x1000 (pageKeeps n)).count (Reg.SESS_TQ_STATUS_DROPPED n) (s.tqFill n)).set
    (Reg.SESS_TQ_STATUS_OVERFLOW n) 0
  let s := s.each (List.range 8) fun a t => t.set (Reg.SESS_AS_STATUS_RUNNING n a) 0
  s.setSes n { s.ses n with tqSync := false }

theorem pageReset_eq (s : State) (n : Nat) :
    s.pageReset n = (s.queueReset n).each ((s.queueReset n).sessLayers n) fun l t => t.resetShadows l := rfl

section
variable {A L : Nat → Prop}

theorem State.Aside.layDetach (h : s.Aside A L t) {l : Nat} (hl : l < 64) (hL : L l) (hc : A (Reg.LAYER_COMMIT_STATUS l))
    (hs : ∀ k < 24, A (Reg.SCL_STATUS k)) (hi : ∀ n, t.layerSession l = some n → A (Reg.SESS_IRQ_STATUS n)) :
    s.Aside A L (t.layDetach n l) := by
  have h1 : s.Aside A L (t.layDropped l) := (h.layReject hl hL hc hs hi 2).ite h
  exact (h1.setLay _ hL).ite h1

theorem State.Aside.queueReset (h : s.Aside A L t) (hp : ∀ o < 0x1000, A (Machine.reg 14 n o)) : s.Aside A L (t.queueReset n) := by
  have h1 : s.Aside A L (t.resetRange (Reg.SESS_PAGE_ID n) 0x1000 (pageKeeps n)) := h.resetRange fun a hlo hhi _ => by
    obtain ⟨o, rfl⟩ := Nat.exists_eq_add_of_le hlo
    have he : Reg.SESS_PAGE_ID n + o = Machine.reg 14 n o := by unfold Reg.SESS_PAGE_ID Machine.reg; omega
    rw [he]
    exact hp o (by omega)
  have h2 := (h1.count (f := Reg.SESS_TQ_STATUS_DROPPED n) (t.tqFill n) (hp _ (by omega))).set (f := Reg.SESS_TQ_STATUS_OVERFLOW n) 0
    (hp _ (by omega))
  have h3 := State.Aside.each (List.range 8) (f := fun a t => t.set (Reg.SESS_AS_STATUS_RUNNING n a) 0)
    (fun a ha u hu => hu.set (f := Reg.SESS_AS_STATUS_RUNNING n a) 0 (hp _ (by have := List.mem_range.1 ha; omega))) h2
  exact h3.setSes _ _

theorem State.Aside.pageReset (h : s.Aside A L t) (hp : ∀ o < 0x1000, A (Machine.reg 14 n o))
    (ho : ∀ l < 64, ¬ A (Reg.LAYER_OWNER l)) (hm : ∀ l ∈ s.sessLayers n, ∀ o ≤ 0x68, A (Machine.reg 6 l o)) : s.Aside A L (t.pageReset n) := by
  rw [pageReset_eq]
  have h4 := h.queueReset hp
  refine State.Aside.each _ (fun l hl u hu => hu.resetShadows fun o hle => hm l ?_ o hle) h4
  rwa [← sessLayers_congr fun l hl => h4.reg _ (ho l hl)]

end

theorem ownerPlace (hn : n < 256) {l : Nat} (hl : l < 64) : ¬ detachPlaces n (s.sessLayers n) (Reg.LAYER_OWNER l) := fun h => by
  have := detachPlaces_reg hn sessLayers_lt (by omega) (by omega) h
  omega

/-- What the reset of a page may change: the page, the attachment, and its layers' shadows with COMMIT_FRAME and FENCE_VALUE. -/
def pagePlaces (n : Nat) (mine : List Nat) (a : Nat) : Prop :=
  (∃ o, (o < 0x1000 ∨ o = 0x1004) ∧ a = reg 14 n o) ∨ ∃ l ∈ mine, ∃ o ≤ 0x68, a = reg 6 l o

theorem detachPlaces_of_pagePlaces {mine : List Nat} {a : Nat} (h : pagePlaces n mine a) : detachPlaces n mine a := by
  obtain h | ⟨l, hl, o, ho, e⟩ := h
  · exact .inl h
  · exact .inr (.inr (.inr (.inr (.inr ⟨l, hl, o, by omega, e⟩))))

theorem pageDetached_page (hn : n < 256) : s.Aside (pagePlaces n (s.sessLayers n)) (fun _ => False) (s.pageDetached n) := by
  have hp : ∀ o < 0x1000, pagePlaces n (s.sessLayers n) (reg 14 n o) := fun o ho => .inl ⟨o, .inl ho, rfl⟩
  have hs : pagePlaces n (s.sessLayers n) (Reg.SESS_STATUS n) := .inl ⟨_, .inr rfl, rfl⟩
  exact ((((State.Aside.refl _ _ s).dropIngress n hs (hp _ (by omega))).set (f := Reg.SESS_STATUS_ATTACHED n) 0 hs).pageReset hp
    (fun l hl h => ownerPlace hn hl (detachPlaces_of_pagePlaces h))) fun l hl o ho => .inr ⟨l, hl, o, ho, rfl⟩

theorem pageDetached_aside (hn : n < 256) : s.Aside (detachPlaces n (s.sessLayers n)) (· ∈ s.sessLayers n) (s.pageDetached n) :=
  (pageDetached_page hn).mono (fun _ => detachPlaces_of_pagePlaces) fun _ h => h.elim

theorem layersDetached_aside (hn : n < 256) : s.Aside (detachPlaces n (s.sessLayers n)) (· ∈ s.sessLayers n) (s.layersDetached n) := by
  have h := pageDetached_aside (s := s) hn
  refine State.Aside.each _ (fun l hl t ht => ?_) h
  rw [sessLayers_congr fun l hl => h.reg _ (ownerPlace hn hl)] at hl
  have hlt := sessLayers_lt l hl
  refine ht.layDetach hlt hl (.inr (.inr (.inr (.inr (.inr ⟨l, hl, 0x6c, by omega, rfl⟩)))))
    (fun k hk => .inr (.inr (.inl ⟨k, hk, rfl⟩))) fun m hm => ?_
  have hsame : t.layerSession l = s.layerSession l := by
    refine layerSession_congr ?_ (ht.reg _ (ownerPlace hn hlt))
    rw [State.ownedSecure, State.ownedSecure, ht.reg]
    intro hc
    have := detachPlaces_reg hn sessLayers_lt (by omega) (by omega) hc
    omega
  rw [hsame, layerSession_mine hl, Option.some.injEq] at hm
  subst hm
  split
  · exact .inr (.inl rfl)
  · exact .inl ⟨_, .inl (by omega), rfl⟩

/-- R53, R54: what a detach may change. -/
theorem detach_aside (hn : n < 256) : s.Aside (detachPlaces n (s.sessLayers n)) (· ∈ s.sessLayers n) (s.detach n) := by
  have hs : detachPlaces n (s.sessLayers n) (Reg.SESS_STATUS n) := .inl ⟨_, .inr rfl, rfl⟩
  rw [detach_eq]
  exact ((layersDetached_aside hn).hapDetach n (fun k hk => .inr (.inr (.inr (.inl ⟨k, hk, .inl rfl⟩))))
    fun k hk => .inr (.inr (.inr (.inl ⟨k, hk, .inr rfl⟩)))).event hs hs fun hk => .inr (.inr (.inr (.inr (.inl ⟨_, hk, rfl⟩))))

theorem attach_aside : s.Aside (detachPlaces n (s.sessLayers n)) (· ∈ s.sessLayers n) (s.attach n) :=
  ((State.Aside.refl _ _ s).set (f := Reg.SESS_STATUS_ATTACHED n) 1 (.inl ⟨_, .inr rfl, rfl⟩)).same rfl rfl rfl

theorem attachCheck_aside (hn : n < 256) : s.Aside (detachPlaces n (s.sessLayers n)) (· ∈ s.sessLayers n) (s.attachCheck n) :=
  attach_aside.ite ((detach_aside hn).ite (State.Aside.refl _ _ s))

theorem attachWrite_aside (hn : n < 256) : s.Aside (detachPlaces n (s.sessLayers n)) (· ∈ s.sessLayers n) (s.attachWrite n) :=
  ((State.Aside.refl _ _ s).ite (detach_aside hn)).ite (attach_aside.ite (State.Aside.refl _ _ s))

end

end Sys2Proof.Machine
end

section
/-! PROOF. O45: owner registers. -/

namespace Sys2Proof.Machine

/-- A list's parts of different registers may be listed in either order. -/
theorem setsOnly_swap {u t : State} {k l m : List (Fld × Nat)} (h : u.SetsOnly (k ++ l ++ m) t)
    (hd : ∀ p ∈ l, ∀ q ∈ m, p.1.addr ≠ q.1.addr) : u.SetsOnly (k ++ m ++ l) t := by
  refine ⟨fun a i hi => (h.1 a i hi).trans ?_, h.2⟩
  simp only [bitAfter_append]
  by_cases ha : ∃ p ∈ l, p.1.addr = a
  · obtain ⟨p, hp, rfl⟩ := ha
    rw [bitAfter_apart fun q hq => (hd p hp q hq).symm, bitAfter_apart fun q hq => (hd p hp q hq).symm]
  · have hl : ∀ p ∈ l, p.1.addr ≠ a := fun p hp he => ha ⟨p, hp, he⟩
    rw [bitAfter_apart hl, bitAfter_apart hl]

/-- R55: the bit of a session's resources that an owner register's value stands for. -/
def ownedBits (o : Owned) (y : Word) (b : Nat) : List (Fld × Nat) :=
  if getBits y 8 1 = 0 then [] else match o with
    | .layer _ => [(⟨Reg.SESS_RES_LAYER (getBits y 0 8), getBits y 12 4, 1⟩, b)]
    | .haptic _ => [(⟨Reg.SESS_RES_OTHER (getBits y 0 8), 8 + getBits y 12 4, 1⟩, b)]
    | .stream _ => [(⟨Reg.SESS_RES_OTHER (getBits y 0 8), getBits y 12 4, 1⟩, b)]
    | _ => []

/-- R55: the sessions' resources after an owner register is released or assigned. -/
def State.ownedMoved (s : State) (o : Owned) (y : Word) (b : Bool) : State :=
  if bitOf y.toNat 8 then s.resBit o (getBits y 0 8) (getBits y 12 4) b else s

theorem setsOnly_resBit {s : State} {o : Owned} {y : Word} (h : getBits y 12 4 < ownedHandles o) (b : Bool) (h8 : getBits y 8 1 ≠ 0) :
    s.SetsOnly (ownedBits o y (b2n b)) (s.resBit o (getBits y 0 8) (getBits y 12 4) b) := by
  unfold ownedBits
  rw [if_neg h8]
  have hput : ∀ {f : Fld}, getBits y 12 4 < f.width → s.SetsOnly [(⟨f.addr, f.lo + getBits y 12 4, 1⟩, b2n b)]
      (s.set f (if b then setBitOf (s.get f) (getBits y 12 4) else clearBitOf (s.get f) (getBits y 12 4))) := fun hw => by
    rw [set_bitOf s _ hw b]
    exact setsOnly_set (setsOnly_refl s) _ _
  cases o with
  | layer n =>
    have hs := hput (f := Reg.SESS_RES_LAYER_LAYER (getBits y 0 8)) h
    rwa [Nat.zero_add] at hs
  | haptic n => exact hput (f := Reg.SESS_RES_OTHER_HAPTIC (getBits y 0 8)) h
  | stream n =>
    have hs := hput (f := Reg.SESS_RES_OTHER_AUDIO (getBits y 0 8)) h
    rwa [Nat.zero_add] at hs
  | scaler n => exact setsOnly_refl s
  | zone n k => exact setsOnly_refl s

theorem setsOnly_ownedMoved {s : State} {o : Owned} {y : Word} (h : getBits y 8 1 = 0 ∨ getBits y 12 4 < ownedHandles o) (b : Bool) :
    s.SetsOnly (ownedBits o y (b2n b)) (s.ownedMoved o y b) := by
  rw [State.ownedMoved, bitOf_eq_getBits]
  by_cases h8 : getBits y 8 1 = 0
  · unfold ownedBits
    rw [if_pos h8, h8]
    exact setsOnly_refl s
  · have h1 : getBits y 8 1 = 1 := by have := getBits_lt y 8 1; omega
    rw [if_pos (decide_eq_true h1)]
    exact setsOnly_resBit (h.resolve_left h8) b h8

theorem ownedBits_apart {o o' : Owned} {y : Word} {b : Nat} : ∀ p ∈ ownedBits o y b, p.1.addr ≠ ownedAddr o' := by
  have hu : ∀ n k : Nat, n < 256 → k < 0x10000 → ownedAddr o' ≠ reg 14 n k := fun n k hn hk => by
    cases o' <;> simp only [ownedAddr, Reg.LAYER_OWNER, Reg.SCL_OWNER, Reg.HC_OWNER, Reg.AUD_STREAM_OWNER, Reg.TOUCH_ZONE_OWNER, reg] <;> omega
  have hs := getBits_lt y 0 8
  intro p hp
  unfold ownedBits at hp
  split at hp
  · exact absurd hp List.not_mem_nil
  · cases o <;> simp only [List.mem_singleton, List.not_mem_nil] at hp <;> subst hp <;> exact (hu _ _ hs (by omega)).symm

/-- A write of an owner register, locked or not, as its fields. -/
theorem setsOnly_ownerPlain (s : State) (o : Owned) (v : Word) :
    (getBits (s.reg (ownedAddr o)) 31 1 = 1 → s.SetsOnly
      [(⟨ownedAddr o, 30, 1⟩, if getBits v 30 1 = 1 then 0 else getBits (s.reg (ownedAddr o)) 30 1)] (s.plainWrite (ownedAddr o) v)) ∧
    (getBits (s.reg (ownedAddr o)) 31 1 = 0 → s.SetsOnly
      [(⟨ownedAddr o, 31, 1⟩, getBits v 31 1), (⟨ownedAddr o, 30, 1⟩, if getBits v 30 1 = 1 then 0 else getBits (s.reg (ownedAddr o)) 30 1),
        (⟨ownedAddr o, 12, 4⟩, getBits v 12 4), (⟨ownedAddr o, 8, 1⟩, getBits v 8 1), (⟨ownedAddr o, 0, 8⟩, getBits v 0 8)]
      (s.plainWrite (ownedAddr o) v)) := by
  have hr : ∀ i < 32, (0xF1FF : Word).getLsbD i = decide ((12 ≤ i ∧ i < 12 + 4) ∨ (8 ≤ i ∧ i < 8 + 1) ∨ (0 ≤ i ∧ i < 0 + 8)) := by decide
  have hc : ∀ i < 32, (0x40000000 : Word).getLsbD i = decide (30 ≤ i ∧ i < 30 + 1) := by decide
  have he : ∀ i < 32, (0x80000000 : Word).getLsbD i = decide (31 ≤ i ∧ i < 31 + 1) := by decide
  have h0 : ∀ i, (0 : Word).getLsbD i = false := fun i => BitVec.getLsbD_zero
  rw [clearedBit_eq]
  have hlock : ∀ b, getBits (s.reg (ownedAddr o)) 31 1 = b.toNat → ∀ i < 32, i = 31 → (s.reg (ownedAddr o)).getLsbD i = b := by
    intro b hb i _ h31
    rw [getBits_one] at hb
    cases b <;> simpa [h31] using hb
  constructor <;> intro hx <;> refine setsOnly_access (access_owner o) (by simp) fun i hi => ?_
  · have hb := hlock true hx i hi
    rw [locked_owner, decide_eq_true hx, h0, hr i hi, hc i hi, he i hi]
    simp only [bitAfter_cons_getBits, bitAfter_nil, BitVec.getLsbD_and, BitVec.getLsbD_not, hi]
    generalize (s.reg (ownedAddr o)).getLsbD i = x at *
    grind
  · have hb := hlock false hx i hi
    rw [locked_owner, hx, h0, hr i hi, hc i hi, he i hi]
    simp only [bitAfter_cons_getBits, bitAfter_nil, BitVec.getLsbD_and, BitVec.getLsbD_not, hi]
    generalize (s.reg (ownedAddr o)).getLsbD i = x at *
    grind

/-! ### What a write is refused for (R68) -/

/-- The session and the handle of an owner register's value. -/
def ownedKey (y : Word) : Nat × Nat := (getBits y 0 8, getBits y 12 4)

/-- R68: a value that assigns to session 0, with a handle past its kind's, or with one already used. -/
def State.ownerBad (s : State) (o : Owned) (v : Word) : Bool :=
  decide (getBits v 8 1 = 1) && (decide (getBits v 0 8 = 0 ∨ ownedHandles o ≤ getBits v 12 4) ||
    (ownedPeers o).any fun b => b != ownedAddr o && decide (getBits (s.reg b) 8 1 = 1) && ownedKey (s.reg b) == ownedKey v)

/-- The resource is assigned otherwise. -/
def ownerChanges (x v : Word) : Bool := decide (ownedKey v ≠ ownedKey x ∨ getBits v 8 1 ≠ getBits x 8 1)

theorem ownerRefused_iff (s : State) (o : Owned) (v : Word) : s.ownerRefused o v = true ↔
    s.ownerBad o v = true ∨ (ownerChanges (s.reg (ownedAddr o)) v = true ∧ s.ownedIdle o = false) := by
  have h8 : ∀ y : Word, bitOf y.toNat 8 = decide (getBits y 8 1 = 1) := fun y => bitOf_eq_getBits y 8
  have hz : (getBits v 0 8 == 0 || decide (ownedHandles o ≤ getBits v 12 4)) = decide (getBits v 0 8 = 0 ∨ ownedHandles o ≤ getBits v 12 4) := by
    rw [Bool.decide_or]
    rfl
  have hch : (ownedKey v != ownedKey (s.reg (ownedAddr o)) || bitOf v.toNat 8 != bitOf (s.reg (ownedAddr o)).toNat 8) =
      ownerChanges (s.reg (ownedAddr o)) v := by
    rw [ownerChanges, Bool.eq_iff_iff, Bool.or_eq_true, bne_iff_ne, decide_eq_true_eq, ← getBits_one_ne]
  have he : s.ownerRefused o v = (s.ownerBad o v || (ownerChanges (s.reg (ownedAddr o)) v && !s.ownedIdle o)) := by
    rw [← hch, State.ownerBad, ← hz]
    simp only [State.ownerRefused, ← h8]
    rfl
  rw [he, Bool.or_eq_true, Bool.and_eq_true, Bool.not_eq_true']

theorem ownedIdle_haptic (s : State) (n : Fin 16) : s.ownedIdle (.haptic n) = (s.hcState n != 2 && s.hcState n != 3) := by
  rw [State.ownedIdle, State.hcState]
  exact Bool.not_or _ _

section
variable {s : State} {o : Owned} {w : World} {v : Word} (ha : s.Admits w (ownedUnit o).1 (ownedUnit o).2 false)
include ha

theorem exec_ownerWrite : exec (.ownerWrite o w v) s = .next (s.ownerWrite o v) := congrArg _ (asWriter_admits ha _)

theorem ownerWrite_locked (hx : getBits (s.reg (ownedAddr o)) 31 1 = 1) : Does (.ownerWrite o w v) s s
    [(⟨ownedAddr o, 30, 1⟩, if getBits v 30 1 = 1 then 0 else getBits (s.reg (ownedAddr o)) 30 1)] := by
  have hw := exec_ownerWrite (v := v) ha
  rw [State.ownerWrite, if_pos (by rw [locked_owner, decide_eq_true hx])] at hw
  exact ⟨_, hw, (setsOnly_ownerPlain s o v).1 hx⟩

variable (hx : getBits (s.reg (ownedAddr o)) 31 1 = 0)
include hx

theorem ownerWrite_refused (h : s.ownerRefused o v = true) : Does (.ownerWrite o w v) s s
    [(⟨ownedAddr o, 16, 8⟩, satAdd 8 (getBits (s.reg (ownedAddr o)) 16 8) 1), (⟨ownedAddr o, 30, 1⟩, 1)] := by
  have hw := exec_ownerWrite (v := v) ha
  rw [State.ownerWrite, if_neg (by rw [locked_owner, hx]; simp), if_pos h] at hw
  refine ⟨_, hw, ?_⟩
  have h1 := setsOnly_set (setsOnly_refl s) ⟨ownedAddr o, 30, 1⟩ 1
  rw [← setReg_or_bit _ (by omega)] at h1
  have h2 := setsOnly_set h1 ⟨ownedAddr o, 16, 8⟩ (satAdd 8 (getBits (s.reg (ownedAddr o)) 16 8) 1)
  rw [State.set, State.reg_setReg, if_pos rfl, State.setReg, State.setReg, sput_sput] at h2
  exact h2

theorem ownerWrite_taken (h : s.ownerRefused o v = false)
    (hh : getBits (s.reg (ownedAddr o)) 8 1 = 0 ∨ getBits (s.reg (ownedAddr o)) 12 4 < ownedHandles o) : Does (.ownerWrite o w v) s s
    (ownedBits o v 1 ++ ownedBits o (s.reg (ownedAddr o)) 0 ++
      [(⟨ownedAddr o, 31, 1⟩, getBits v 31 1), (⟨ownedAddr o, 30, 1⟩, if getBits v 30 1 = 1 then 0 else getBits (s.reg (ownedAddr o)) 30 1),
        (⟨ownedAddr o, 12, 4⟩, getBits v 12 4), (⟨ownedAddr o, 8, 1⟩, getBits v 8 1), (⟨ownedAddr o, 0, 8⟩, getBits v 0 8)]) := by
  have hw := exec_ownerWrite (v := v) ha
  rw [State.ownerWrite, if_neg (by rw [locked_owner, hx]; simp), if_neg (by simp [h])] at hw
  have hrel := setsOnly_ownedMoved (s := s) hh false
  have hsame := hrel.reg_apart (ownedBits_apart (o' := o))
  have hput := (setsOnly_ownerPlain (s.ownedMoved o (s.reg (ownedAddr o)) false) o v).2 (hsame.symm ▸ hx)
  rw [hsame] at hput
  have hv : getBits v 8 1 = 0 ∨ getBits v 12 4 < ownedHandles o := by
    by_contra hc
    obtain ⟨h8, hge⟩ := not_or.1 hc
    have h1 : getBits v 8 1 = 1 := by have := getBits_lt v 8 1; omega
    have hbad : s.ownerBad o v = true := by simp [State.ownerBad, h1, Nat.not_lt.1 hge]
    rw [(ownerRefused_iff s o v).2 (.inl hbad)] at h
    exact Bool.noConfusion h
  have hall := (hrel.trans hput).trans (setsOnly_ownedMoved hv true)
  rw [← List.append_assoc] at hall
  refine ⟨_, hw, setsOnly_swap hall fun p hp q hq => ?_⟩
  have hpa : p.1.addr = ownedAddr o := by
    simp only [List.mem_cons, List.not_mem_nil, or_false] at hp
    obtain rfl | rfl | rfl | rfl | rfl := hp <;> rfl
  rw [hpa]
  exact (ownedBits_apart q hq).symm

end

/-! ### What a write of a session's control register leaves (R52, R68) -/

/-- Every place but the owner registers. -/
def notOwner (a : Nat) : Prop := ∀ o, a ≠ ownedAddr o

theorem notOwner_reg {u i o : Nat} (ho : o < 0xFF00) : notOwner (reg u i o) := fun r he => by
  cases r <;> simp only [ownedAddr, Reg.LAYER_OWNER, Reg.SCL_OWNER, Reg.HC_OWNER, Reg.AUD_STREAM_OWNER, Reg.TOUCH_ZONE_OWNER, reg] at he <;>
    omega

theorem notOwner_of_detachPlaces {n a : Nat} {mine : List Nat} (h : detachPlaces n mine a) : notOwner a := by
  obtain ⟨x, hx, rfl⟩ | rfl | ⟨k, hk, rfl⟩ | ⟨k, hk, rfl | rfl⟩ | ⟨k, hk, rfl⟩ | ⟨l, hl, x, hx, rfl⟩ := h
  · exact notOwner_reg (by omega)
  · exact notOwner_reg (by omega)
  · exact notOwner_reg (by omega)
  · exact notOwner_reg (by omega)
  · exact notOwner_reg (by omega)
  · exact notOwner_reg (by omega)
  · exact notOwner_reg (by omega)

theorem sessCtrlWrite_owners (s : State) {n : Nat} (hn : n < 256) (v : Word) : s.Aside notOwner (fun _ => True) (s.sessCtrlWrite n v) := by
  have hsess : ∀ o < 0xFF00, notOwner (reg 14 n o) := fun o ho => notOwner_reg ho
  have hctrl : notOwner (Reg.SESS_CTRL n) := hsess _ (by omega)
  have hid : notOwner (Reg.SESS_PAGE_ID n) := hsess _ (by omega)
  have hrefl := State.Aside.refl notOwner (fun _ => True) s
  have hw := ((((hrefl.set (f := Reg.SESS_PAGE_ID_PORT n) (getBits v 8 2) hid).set (f := Reg.SESS_PAGE_ID_FUNC n) (getBits v 12 4) hid).set
    (f := Reg.SESS_PAGE_ID_SLOT n) (getBits v 16 4) hid).plainWrite v hctrl)
  have htook := hw.trans ((attachWrite_aside hn).mono (fun _ => notOwner_of_detachPlaces) fun _ _ => trivial)
  have hbind := hrefl.event (flag := Reg.SESS_STATUS_BIND_ERR n) (events := Reg.SESS_STATUS_EVENTS n) (k := 192 + n) (hsess _ (by omega))
    (hsess _ (by omega)) fun hk => notOwner_reg (by omega)
  exact ((hrefl.plainWrite v hctrl).set (f := Reg.SESS_CTRL_STATE n) _ hctrl).ite ((hrefl.plainWrite v hctrl).ite (hbind.ite htook))

/-- R68: a write of a session's control register, performed or not, leaves every owner register. -/
theorem sessionCtrlWrite_owners (s : State) (n : Fin 256) (w : World) (v : Word) (o : Owned) :
    Leads (.sessionCtrlWrite n w v) s fun t => t.reg (ownedAddr o) = s.reg (ownedAddr o) := by
  have h : s.Aside notOwner (fun _ => True) (s.asWriter w 0x0E n (n.val == 0) (·.sessCtrlWrite n v)) := by
    have hrefl := State.Aside.refl notOwner (fun _ => True) s
    exact (hrefl.count (f := Reg.SYS_OWN_STATUS_DENIED_WRITES) 1 (notOwner_reg (by omega))).ite
      (hrefl.ite (sessCtrlWrite_owners s n.isLt v))
  exact ⟨_, rfl, h.reg _ fun hne => hne o rfl⟩

/-- Settles O45: a write of an owner register, by what R68 says of it, and a session's control register, by what its write may change. -/
theorem ownerRegisterAssignsAResource : Obligations.OwnerRegisterAssignsAResource := by
  intro s o w v n a x fld key idle bad changes owned cleared
  have hidle : idle = s.ownedIdle o := by
    cases o with
    | haptic n => exact (ownedIdle_haptic s n).symm
    | layer n => rfl
    | scaler n => rfl
    | stream k => rfl
    | zone n k => rfl
  have howned : ∀ y b, owned y b = ownedBits o y b := fun y b => by cases o <;> rfl
  refine ⟨fun ha hx => ownerWrite_locked ha hx, fun ha hx => ⟨fun h => ?_, fun hbad hok hh => ?_⟩, sessionCtrlWrite_owners s n w v o⟩
  · rw [hidle] at h
    exact ownerWrite_refused ha hx ((ownerRefused_iff s o v).2 h)
  · rw [howned, howned]
    refine ownerWrite_taken ha hx (Bool.eq_false_iff.2 fun hr => ?_) hh
    obtain hb | ⟨hc, hi⟩ := (ownerRefused_iff s o v).1 hr
    · exact Bool.false_ne_true (hbad.symm.trans hb)
    · obtain hc' | hi' := hok
      · exact Bool.false_ne_true (hc'.symm.trans hc)
      · exact Bool.false_ne_true (hi.symm.trans (hidle.symm.trans hi'))

end Sys2Proof.Machine
end

section
/-! SUPPORT. What a detach does (R53, R54): the session's page, its IRQ_STATUS, and its layers. -/

namespace Sys2Proof.Machine

section
variable {α : Type} {f : α → State → State} {l : List α} {R : State → State → Prop} (hrefl : ∀ s, R s s)
  (htrans : ∀ s t u, R s t → R t u → R s u)
include hrefl htrans

/-- Operations one after another change no more than a relation allows, where each does not. -/
theorem State.each_related (h : ∀ x ∈ l, ∀ t : State, R t (f x t)) (s : State) : R s (s.each l f) := by
  induction l generalizing s with
  | nil => exact hrefl s
  | cons x xs ih => exact htrans _ _ _ (h x List.mem_cons_self s) (ih (fun y hy => h y (List.mem_cons_of_mem x hy)) (f x s))

/-- Operations one after another, seen from one of them: those before and those after change no more than the relation allows. -/
theorem State.each_around {x : α} (hx : x ∈ l) (hn : l.Nodup) (s : State) (hf : ∀ y ∈ l, y ≠ x → ∀ t : State, R t (f y t)) :
    ∃ w, R s w ∧ R (f x w) (s.each l f) := by
  induction l generalizing s with
  | nil => exact absurd hx List.not_mem_nil
  | cons y ys ih =>
    obtain ⟨hy, hys⟩ := List.nodup_cons.1 hn
    have htail : ∀ z ∈ ys, z ≠ x → ∀ t : State, R t (f z t) := fun z hz => hf z (List.mem_cons_of_mem y hz)
    obtain rfl | hx := List.mem_cons.1 hx
    · exact ⟨s, hrefl s, State.each_related hrefl htrans (fun z hz => htail z hz fun e => hy (e ▸ hz)) _⟩
    · obtain ⟨w, hw, hend⟩ := ih hx hys (f y s) htail
      exact ⟨w, htrans _ _ _ (hf y List.mem_cons_self (fun e => hy (e ▸ hx)) s) hw, hend⟩

end

theorem keeps_sameBytes (s : State) : Keeps s.SameBytes where
  reg _ _ h := h
  range _ _ _ h := h
  other h _ hA hB hS hF := by
    obtain ⟨h1, h2, h3⟩ := sameBytes_of_eq hA hB hS hF
    obtain ⟨g1, g2, g3⟩ := h
    exact ⟨fun n o => (h1 n o).trans (g1 n o), fun o => (h2 o).trans (g2 o), fun o => (h3 o).trans (g3 o)⟩

theorem sameBytes_refl (s : State) : s.SameBytes s := ⟨fun _ _ => rfl, fun _ => rfl, fun _ => rfl⟩

theorem regReset_zero {u i o : Nat} (hi : i < unitInstances u) (hi' : i < 256) (ho : o < 0x10000)
    (h : (findRow (unitRows u) o).map (fun p => (p.1.reset, p.1.special)) = some (0, .none)) : regReset (reg u i o) = 0 := by
  obtain ⟨⟨r, ix⟩, hrow, hr⟩ := Option.map_eq_some_iff.1 h
  obtain ⟨hz, hs⟩ := Prod.mk.injEq .. ▸ hr
  have he : ResetRule.none.eval u o i ix = 0 := by rw [ResetRule.eval]
  rw [regReset_reg hi hi' ho hrow, hz, hs, he]
  rfl

theorem regReset_irqStatus {n : Nat} (hn : n < 256) : regReset (Reg.SESS_IRQ_STATUS n) = 0 :=
  regReset_zero hn hn (by omega) (by decide +kernel)

theorem regReset_commitFrame {l : Nat} (hl : l < 64) : regReset (Reg.LAYER_COMMIT_FRAME l) = 0 :=
  regReset_zero hl (by omega) (by omega) (by decide +kernel)

theorem regReset_fenceValue {l : Nat} (hl : l < 64) : regReset (Reg.LAYER_FENCE_VALUE l) = 0 :=
  regReset_zero hl (by omega) (by omega) (by decide +kernel)

/-! ### The page -/

section
variable {s t : State} {n : Nat}

/-- A page that is reset: every register but those kept holds its reset value, and those kept but two kinds of them are as they were. -/
theorem queueReset_reg {o : Nat} (ho : o < 0x10000) (ht : o ≠ 0x210) (ha : ∀ k < 8, o ≠ 0x310 + 32 * k) :
    (s.queueReset n).reg (reg 14 n o) = if o < 0x1000 ∧ pageKeeps n (reg 14 n o) = false then regReset (reg 14 n o) else s.reg (reg 14 n o) := by
  have h1 : (s.resetRange (Reg.SESS_PAGE_ID n) 0x1000 (pageKeeps n)).Aside
      (fun a => a = Reg.SESS_TQ_STATUS n ∨ ∃ k < 8, a = Reg.SESS_AS_STATUS n k) (fun _ => False) (s.queueReset n) := by
    have h2 := ((State.Aside.refl (fun a => a = Reg.SESS_TQ_STATUS n ∨ ∃ k < 8, a = Reg.SESS_AS_STATUS n k) (fun _ => False)
      (s.resetRange (Reg.SESS_PAGE_ID n) 0x1000 (pageKeeps n))).count (f := Reg.SESS_TQ_STATUS_DROPPED n) (s.tqFill n) (.inl rfl)).set
        (f := Reg.SESS_TQ_STATUS_OVERFLOW n) 0 (.inl rfl)
    exact (State.Aside.each (List.range 8) (f := fun a t => t.set (Reg.SESS_AS_STATUS_RUNNING n a) 0)
      (fun k hk u hu => hu.set (f := Reg.SESS_AS_STATUS_RUNNING n k) 0 (.inr ⟨k, List.mem_range.1 hk, rfl⟩)) h2).setSes _ _
  rw [h1.reg, reg_resetRange]
  · have hp : Reg.SESS_PAGE_ID n ≤ reg 14 n o ∧ (reg 14 n o < Reg.SESS_PAGE_ID n + 0x1000 ↔ o < 0x1000) := by
      unfold Reg.SESS_PAGE_ID reg
      omega
    obtain ⟨hlo, hhi⟩ := hp
    simp only [hlo, hhi, true_and]
  · rintro (h | ⟨k, hk, h⟩)
    · exact ht (by simp only [Reg.SESS_TQ_STATUS, reg] at h; omega)
    · exact ha k hk (by simp only [Reg.SESS_AS_STATUS, reg] at h; omega)

theorem queueReset_other {a : Nat} (h : ∀ o < 0x1000, a ≠ reg 14 n o) : (s.queueReset n).reg a = s.reg a :=
  ((State.Aside.refl (fun a => ∃ o < 0x1000, a = reg 14 n o) (fun _ => False) s).queueReset fun o ho => ⟨o, ho, rfl⟩).reg a
    fun ⟨o, ho, e⟩ => h o ho e

theorem State.get_event (s : State) (flag events f : Fld) (k : Nat) (hk : k ≤ 479 → f.addr ≠ Reg.IC_SRC k) :
    (s.event flag events k).get f = ((s.set flag 1).count events).get f :=
  ((State.Aside.refl (fun a => k ≤ 479 ∧ a = Reg.IC_SRC k) (fun _ => False) _).raiseIrq fun hk => ⟨hk, rfl⟩).get fun h => hk h.1 h.2

theorem keeps_touchStatus : pageKeeps n (Reg.SESS_TQ_STATUS n) = true := by simp [pageKeeps]

theorem keeps_streamStatus {a : Nat} (ha : a < 8) : pageKeeps n (Reg.SESS_AS_STATUS n a) = true := by
  have h : ((List.range 8).any fun k => Reg.SESS_AS_STATUS n a == Reg.SESS_AS_STATUS n k) = true :=
    List.any_eq_true.2 ⟨a, List.mem_range.2 ha, beq_self_eq_true _⟩
  rw [pageKeeps, h, Bool.or_true]

/-- A register that the page keeps, before anything of it is counted or cleared. -/
theorem resetRange_kept {f : Fld} (h : pageKeeps n f.addr = true) :
    (s.resetRange (Reg.SESS_PAGE_ID n) 0x1000 (pageKeeps n)).get f = s.get f := by
  rw [State.get, State.get, reg_resetRange, if_neg]
  rintro ⟨-, -, hk⟩
  exact Bool.false_ne_true (hk.symm.trans h)

theorem queueReset_touch : (s.queueReset n).bit (Reg.SESS_TQ_STATUS_OVERFLOW n) = false ∧
    (s.queueReset n).get (Reg.SESS_TQ_STATUS_DROPPED n) = satAdd 16 (s.get (Reg.SESS_TQ_STATUS_DROPPED n)) (s.tqFill n) := by
  let u := ((s.resetRange (Reg.SESS_PAGE_ID n) 0x1000 (pageKeeps n)).count (Reg.SESS_TQ_STATUS_DROPPED n) (s.tqFill n)).set
    (Reg.SESS_TQ_STATUS_OVERFLOW n) 0
  have h : u.Aside (fun a => ∃ k < 8, a = Reg.SESS_AS_STATUS n k) (fun _ => False) (s.queueReset n) :=
    (State.Aside.each (List.range 8) (f := fun a t => t.set (Reg.SESS_AS_STATUS_RUNNING n a) 0)
      (fun k hk u hu => hu.set (f := Reg.SESS_AS_STATUS_RUNNING n k) 0 ⟨k, List.mem_range.1 hk, rfl⟩) (State.Aside.refl _ _ u)).setSes _ _
  have hne : ¬ ∃ k < 8, Reg.SESS_TQ_STATUS n = Reg.SESS_AS_STATUS n k := by
    rintro ⟨k, -, e⟩
    simp only [Reg.SESS_TQ_STATUS, Reg.SESS_AS_STATUS, reg] at e
    omega
  constructor
  · rw [h.bit hne, State.bit, State.get_set_same _ _ _ (Nat.le_of_ble_eq_true rfl)]
    rfl
  · rw [h.get hne, State.get_set_apart _ _ _ _ (Nat.le_of_ble_eq_true rfl) (by simp), State.count,
      State.get_set_same _ _ _ (Nat.le_of_ble_eq_true rfl), resetRange_kept keeps_touchStatus]
    exact Nat.mod_eq_of_lt (show satAdd 16 _ _ < 2 ^ 16 by unfold satAdd; omega)

theorem queueReset_streams {a : Nat} (ha : a < 8) : (s.queueReset n).bit (Reg.SESS_AS_STATUS_RUNNING n a) = false ∧
    (s.queueReset n).get (Reg.SESS_AS_STATUS_UNDERRUNS n a) = s.get (Reg.SESS_AS_STATUS_UNDERRUNS n a) := by
  let u := ((s.resetRange (Reg.SESS_PAGE_ID n) 0x1000 (pageKeeps n)).count (Reg.SESS_TQ_STATUS_DROPPED n) (s.tqFill n)).set
    (Reg.SESS_TQ_STATUS_OVERFLOW n) 0
  have hap : Reg.SESS_AS_STATUS n a ≠ Reg.SESS_TQ_STATUS n := by simp only [Reg.SESS_TQ_STATUS, Reg.SESS_AS_STATUS, reg]; omega
  obtain ⟨w, hw, hend⟩ := State.each_around (f := fun a t => t.set (Reg.SESS_AS_STATUS_RUNNING n a) 0)
    (R := State.Aside (· ≠ Reg.SESS_AS_STATUS n a) fun _ => False) (State.Aside.refl _ _) (fun _ _ _ => State.Aside.trans) (List.mem_range.2 ha)
    List.nodup_range u fun k _ hk t =>
      (State.Aside.refl _ _ t).set (f := Reg.SESS_AS_STATUS_RUNNING n k) 0 (by simp only [Reg.SESS_AS_STATUS, reg]; omega)
  have h := hend.setSes n { (u.each (List.range 8) fun a t => t.set (Reg.SESS_AS_STATUS_RUNNING n a) 0).ses n with tqSync := false }
  have hend' : ∀ f : Fld, f.addr = Reg.SESS_AS_STATUS n a → (s.queueReset n).get f = (w.set (Reg.SESS_AS_STATUS_RUNNING n a) 0).get f :=
    fun f hf => h.get (by simp [hf])
  constructor
  · rw [State.bit, hend' _ rfl, State.get_set_same _ _ _ (Nat.le_of_ble_eq_true rfl)]
    rfl
  · rw [hend' _ rfl, State.get_set_apart _ _ _ _ (Nat.le_of_ble_eq_true rfl) (by simp), hw.get (by simp)]
    rw [State.get_set_other _ _ _ _ hap, State.count, State.get_set_other _ _ _ _ hap, resetRange_kept (keeps_streamStatus ha)]

end

end Sys2Proof.Machine
end

section
/-! SUPPORT. The layers of a session that detaches (R53, R54, R125): each one's registers and record, and the COMMIT bit of the session. -/

namespace Sys2Proof.Machine

section
variable {s t : State} {n l : Nat}

/-! ### One layer -/

theorem sessIrq_other {a bit : Nat} (ha : a ≠ Reg.SESS_IRQ_STATUS n) : (s.sessIrq n bit).reg a = s.reg a :=
  ((State.Aside.refl (· = Reg.SESS_IRQ_STATUS n) (fun _ => False) s).sessIrq rfl).reg a ha

theorem sessIrq_status (bit : Nat) : (s.sessIrq n bit).reg (Reg.SESS_IRQ_STATUS n) = s.reg (Reg.SESS_IRQ_STATUS n) ||| BitVec.ofNat 32 (2 ^ bit) := by
  have hm : ∀ u : State, (u.sessMessage n).reg (Reg.SESS_IRQ_STATUS n) = u.reg (Reg.SESS_IRQ_STATUS n) := fun u => by
    unfold State.sessMessage
    split
    · rfl
    · exact ((State.Aside.refl (fun _ => False) (fun _ => False) u).msixSend _ _).reg _ id
  unfold State.sessIrq
  dsimp only
  split
  · rw [hm, State.reg_setReg, if_pos rfl]
  · rw [State.reg_setReg, if_pos rfl]

theorem layCommitIrq_other {a : Nat} (ha : ∀ n, a ≠ Reg.SESS_IRQ_STATUS n) : (s.layCommitIrq l).reg a = s.reg a := by
  unfold State.layCommitIrq
  split
  · exact sessIrq_other (ha _)
  · rfl

theorem layState_get (s : State) (l : Nat) {st reason : Nat} (hs : st < 4) (hr : reason < 16) :
    (s.layState l st reason).get (Reg.LAYER_COMMIT_STATUS_STATE l) = st ∧
      (s.layState l st reason).get (Reg.LAYER_COMMIT_STATUS_REASON l) = reason := by
  rw [State.layState, State.get_set_apart _ _ _ _ (Nat.le_of_ble_eq_true rfl) (by simp), State.get_set_same _ _ _ (Nat.le_of_ble_eq_true rfl),
    State.get_set_same _ _ _ (Nat.le_of_ble_eq_true rfl)]
  exact ⟨Nat.mod_eq_of_lt hs, Nat.mod_eq_of_lt hr⟩

/-- R125: what a rejected commit shows. -/
theorem layReject_status (s : State) (l : Nat) {reason : Nat} (hr : reason < 16) : (s.layReject l reason).get (Reg.LAYER_COMMIT_STATUS_STATE l) = 3 ∧
    (s.layReject l reason).get (Reg.LAYER_COMMIT_STATUS_REASON l) = reason := by
  let u := (s.setLay l { s.lay l with loading := false, sched := none, fence := none }).layState l 3 reason
  have h : ∀ f : Fld, f.addr = Reg.LAYER_COMMIT_STATUS l → (s.layReject l reason).get f = u.get f := fun f hf => by
    have h1 := ((State.Aside.refl (fun a => ∃ k < 24, a = Reg.SCL_STATUS k) (fun _ => False) u).releaseScalers l fun k hk => ⟨k, hk, rfl⟩).reg
      (Reg.LAYER_COMMIT_STATUS l) (by
        rintro ⟨k, hk, e⟩
        simp only [Reg.LAYER_COMMIT_STATUS, Reg.SCL_STATUS, reg] at e
        omega)
    have h2 : (s.layReject l reason).reg (Reg.LAYER_COMMIT_STATUS l) = (s.layEnd l reason).reg (Reg.LAYER_COMMIT_STATUS l) := by
      rw [layReject_eq]
      exact layCommitIrq_other fun n e => by
        simp only [Reg.LAYER_COMMIT_STATUS, Reg.SESS_IRQ_STATUS, reg] at e
        omega
    rw [State.get, hf, h2]
    exact (congrArg (getBits · f.lo f.width) h1).trans (by rw [State.get, hf])
  rw [h _ rfl, h _ rfl]
  exact layState_get _ l (by omega) hr

theorem layDetach_reg (t : State) (n l a : Nat) : (t.layDetach n l).reg a = (t.layDropped l).reg a := by
  unfold State.layDetach
  split <;> rfl

/-- R53, R125: a layer whose session detaches: a commit that was PENDING is REJECTED with DETACHED, and the layer follows DETACH_ACTION. -/
theorem layDetach_layer (hl : l < 64) : (if t.layPending l then (t.layDetach n l).get (Reg.LAYER_COMMIT_STATUS_STATE l) = 3 ∧
      (t.layDetach n l).get (Reg.LAYER_COMMIT_STATUS_REASON l) = 2
      else (t.layDetach n l).reg (Reg.LAYER_COMMIT_STATUS l) = t.reg (Reg.LAYER_COMMIT_STATUS l)) ∧
    (t.bit (Reg.SESS_CTRL_DETACH_ACTION n) = true → ((t.layDetach n l).lay l).detached = true) := by
  have hu : t.Aside (· ≠ Reg.SESS_CTRL n) (fun _ => True) (t.layDropped l) := by
    have h0 := State.Aside.refl (· ≠ Reg.SESS_CTRL n) (fun _ => True) t
    refine (h0.layReject hl trivial ?_ (fun k hk => ?_) (fun m _ => ?_) 2).ite h0 <;>
      simp only [Reg.LAYER_COMMIT_STATUS, Reg.SCL_STATUS, Reg.SESS_IRQ_STATUS, Reg.SESS_CTRL, reg] <;> omega
  constructor
  · rw [State.get, State.get, layDetach_reg]
    cases hp : t.layPending l with
    | true =>
      have he : t.layDropped l = t.layReject l 2 := if_pos hp
      rw [if_pos rfl, he]
      exact layReject_status t l (by omega)
    | false =>
      have he : t.layDropped l = t := if_neg (by simp [hp])
      rw [if_neg Bool.false_ne_true, he]
  · intro hb
    have hb' : (t.layDropped l).bit (Reg.SESS_CTRL_DETACH_ACTION n) = true := (hu.bit (by simp)).trans hb
    rw [State.layDetach, if_pos hb', State.lay_setLay, if_pos rfl]

/-- R62, R125: a layer whose commit was PENDING tells its session, where the layer is not the secure world's. -/
theorem layDetach_irq (hl : l ∈ t.sessLayers n) (hn : 0 < n) : (t.layDetach n l).reg (Reg.SESS_IRQ_STATUS n) =
    t.reg (Reg.SESS_IRQ_STATUS n) ||| (if t.layPending l && !t.ownedSecure 6 l then 4 else 0) := by
  have hlt := sessLayers_lt l hl
  have hend : (t.layEnd l 2).reg (Reg.SESS_IRQ_STATUS n) = t.reg (Reg.SESS_IRQ_STATUS n) := by
    refine ((State.Aside.refl (· ≠ Reg.SESS_IRQ_STATUS n) (fun _ => True) t).layEnd trivial ?_ (fun k hk => ?_) 2).reg _ (by simp) <;>
      simp only [Reg.LAYER_COMMIT_STATUS, Reg.SCL_STATUS, Reg.SESS_IRQ_STATUS, reg] <;> omega
  rw [layDetach_reg]
  cases hp : t.layPending l with
  | false =>
    have he : t.layDropped l = t := if_neg (by simp [hp])
    simp [he]
  | true =>
    have he : t.layDropped l = t.layReject l 2 := if_pos hp
    have hs := layerSession_mine hl
    rw [he, layReject_eq, State.layCommitIrq, layEnd_session t hlt]
    cases hsec : t.ownedSecure 6 l with
    | true =>
      have hne : Reg.SESS_IRQ_STATUS n ≠ Reg.SESS_IRQ_STATUS 0 := by simp only [Reg.SESS_IRQ_STATUS, reg]; omega
      rw [hsec, if_pos rfl] at hs
      rw [hs]
      exact (sessIrq_other hne).trans (hend.trans (by simp))
    | false =>
      rw [hsec, if_neg Bool.false_ne_true] at hs
      rw [hs]
      exact (sessIrq_status _).trans (by rw [hend]; rfl)

/-- A layer's detach leaves the commit of another. -/
theorem layDetach_other (t : State) {k : Nat} (hl : l < 64) (hne : l ≠ k) :
    t.Aside (fun a => a ≠ Reg.LAYER_COMMIT_STATUS k ∧ a ≠ Reg.SESS_CTRL n) (· ≠ k) (t.layDetach n l) := by
  refine (State.Aside.refl _ _ t).layDetach hl hne ?_ (fun j hj => ?_) fun m _ => ?_ <;>
    simp only [Reg.LAYER_COMMIT_STATUS, Reg.SCL_STATUS, Reg.SESS_IRQ_STATUS, Reg.SESS_CTRL, reg] <;> omega

/-! ### All of them -/

/-- What the layers of a session that detaches may change. -/
def layerPlaces (n : Nat) (mine : List Nat) (a : Nat) : Prop :=
  a = Reg.SESS_IRQ_STATUS n ∨ a = Reg.SESS_IRQ_STATUS 0 ∨ (∃ k < 24, a = Reg.SCL_STATUS k) ∨ ∃ l ∈ mine, a = Reg.LAYER_COMMIT_STATUS l

theorem not_layerPlaces {mine : List Nat} (hm : ∀ l ∈ mine, l < 64) {u i o : Nat} (hi : i < 256) (ho : o < 0x10000)
    (h : ¬ (u = 14 ∧ o = 0xd00) ∧ ¬ (u = 8 ∧ o = 0) ∧ ¬ (u = 6 ∧ o = 0x6c)) (hn : n < 256) : ¬ layerPlaces n mine (reg u i o) := by
  rintro (e | e | ⟨k, hk, e⟩ | ⟨l, hl, e⟩)
  · simp only [Reg.SESS_IRQ_STATUS, reg] at e; omega
  · simp only [Reg.SESS_IRQ_STATUS, reg] at e; omega
  · simp only [Reg.SCL_STATUS, reg] at e; omega
  · have := hm l hl
    simp only [Reg.LAYER_COMMIT_STATUS, reg] at e; omega

theorem layerPlaces_owner {mine : List Nat} (hm : ∀ l ∈ mine, l < 64) (hn : n < 256) {k : Nat} (hk : k < 64) :
    ¬ layerPlaces n mine (Reg.LAYER_OWNER k) := not_layerPlaces hm (by omega) (by omega) (by omega) hn

/-- One of the layers, after others. -/
theorem layDetach_aside (hn : n < 256) (h : s.Aside (layerPlaces n (s.sessLayers n)) (· ∈ s.sessLayers n) t) (hl : l ∈ s.sessLayers n) :
    s.Aside (layerPlaces n (s.sessLayers n)) (· ∈ s.sessLayers n) (t.layDetach n l) ∧ t.ownedSecure 6 l = s.ownedSecure 6 l ∧
      l ∈ t.sessLayers n := by
  have hlt := sessLayers_lt l hl
  have hown : ∀ k < 64, t.reg (Reg.LAYER_OWNER k) = s.reg (Reg.LAYER_OWNER k) := fun k hk =>
    h.reg _ (layerPlaces_owner sessLayers_lt hn hk)
  have hsec : t.ownedSecure 6 l = s.ownedSecure 6 l := by
    rw [State.ownedSecure, State.ownedSecure, h.reg]
    exact not_layerPlaces sessLayers_lt (by omega) (by omega) (by omega) hn
  have hmine : l ∈ t.sessLayers n := by rwa [sessLayers_congr hown]
  refine ⟨h.layDetach hlt hl (.inr (.inr (.inr ⟨l, hl, rfl⟩))) (fun k hk => .inr (.inr (.inl ⟨k, hk, rfl⟩))) fun m hm => ?_, hsec, hmine⟩
  rw [layerSession_mine hmine, Option.some.injEq] at hm
  subst hm
  split
  · exact .inr (.inl rfl)
  · exact .inl rfl

/-- The IRQ_STATUS of a session after some of its layers. -/
theorem layersDetach_irq (hn : n < 256) (h0 : 0 < n) {xs : List Nat} (hx : ∀ l ∈ xs, l ∈ s.sessLayers n) (hd : xs.Nodup)
    (h : s.Aside (layerPlaces n (s.sessLayers n)) (· ∈ s.sessLayers n) t) (hp : ∀ l ∈ xs, t.layPending l = s.layPending l) :
    (t.each xs fun l t => t.layDetach n l).reg (Reg.SESS_IRQ_STATUS n) =
      t.reg (Reg.SESS_IRQ_STATUS n) ||| (if xs.any fun l => s.layPending l && !s.ownedSecure 6 l then 4 else 0) := by
  induction xs generalizing t with
  | nil => simp [State.each]
  | cons l xs ih =>
    obtain ⟨hl, hd⟩ := List.nodup_cons.1 hd
    obtain ⟨hstep, hsec, hmine⟩ := layDetach_aside hn h (hx l List.mem_cons_self)
    have hrest : ∀ k ∈ xs, (t.layDetach n l).layPending k = s.layPending k := fun k hk => by
      have hkl : l ≠ k := fun e => hl (e ▸ hk)
      have ho := layDetach_other (n := n) t (sessLayers_lt l (hx l List.mem_cons_self)) hkl
      rw [State.layPending, ho.get (by simp)]
      exact hp k (List.mem_cons_of_mem l hk)
    have hi := ih (fun k hk => hx k (List.mem_cons_of_mem l hk)) hd hstep hrest
    refine hi.trans ?_
    rw [layDetach_irq hmine h0, hp l List.mem_cons_self, hsec, BitVec.or_assoc, List.any_cons]
    congr 1
    cases s.layPending l && !s.ownedSecure 6 l <;> cases xs.any fun l => s.layPending l && !s.ownedSecure 6 l <;> rfl

end

end Sys2Proof.Machine
end

section
/-! SUPPORT. A detach as R53 and R54 say it. -/

namespace Sys2Proof.Machine

section
variable {s : State} {n : Nat}

/-! ### The page's registers -/

/-- The state in which a session that detaches has lost its waiting transactions and its attachment. -/
def State.unattached (s : State) (n : Nat) : State := (s.dropIngress n).set (Reg.SESS_STATUS_ATTACHED n) 0

theorem unattached_aside (s : State) (n : Nat) :
    s.Aside (fun a => a = Reg.SESS_STATUS n ∨ a = Reg.SESS_PAGE_STATUS n) (fun _ => False) (s.unattached n) :=
  ((State.Aside.refl _ _ s).dropIngress n (.inl rfl) (.inr rfl)).set (f := Reg.SESS_STATUS_ATTACHED n) 0 (.inl rfl)

theorem unattached_reg (hn : n < 256) {u i o : Nat} (hi : i < 256) (ho : o < 0x10000) (h : u = 14 → o ≠ 4 ∧ o ≠ 0x1004) :
    (s.unattached n).reg (reg u i o) = s.reg (reg u i o) :=
  (unattached_aside s n).reg _ (by simp only [Reg.SESS_STATUS, Reg.SESS_PAGE_STATUS, reg]; omega)

theorem tqFill_unattached (hn : n < 256) : (s.unattached n).tqFill n = s.tqFill n := by
  have hg : ∀ o lo w : Nat, o < 0x1000 → o ≠ 4 → (s.unattached n).get ⟨reg 14 n o, lo, w⟩ = s.get ⟨reg 14 n o, lo, w⟩ := fun o lo w ho h4 => by
    rw [State.get, State.get, unattached_reg hn hn (by omega) (by omega)]
  rw [State.tqFill, State.tqFill, State.bit, State.bit, State.tqSize, State.tqSize, hg _ _ _ (by omega) (by omega), hg _ _ _ (by omega) (by omega),
    hg _ _ _ (by omega) (by omega), hg _ _ _ (by omega) (by omega)]

/-- The registers of a layer that a detach resets. -/
def shadowPlace (l a : Nat) : Prop := (∃ i < 20, a = Reg.LAYER_CTRL l + 4 * i) ∨ a = Reg.LAYER_COMMIT_FRAME l ∨ a = Reg.LAYER_FENCE_VALUE l

theorem shadowPlace_reg {l a : Nat} (h : shadowPlace l a) : ∃ o ≤ 0x68, a = reg 6 l o := by
  obtain ⟨i, hi, rfl⟩ | rfl | rfl := h
  · exact ⟨4 * i, by omega, by simp only [Reg.LAYER_CTRL, reg]; omega⟩
  · exact ⟨0x64, by omega, rfl⟩
  · exact ⟨0x68, by omega, rfl⟩

theorem resetShadows_reg (t : State) {l a : Nat} (h : shadowPlace l a) : (t.resetShadows l).reg a = regReset a := by
  unfold State.resetShadows
  dsimp only
  rw [State.reg_resetReg, State.reg_resetReg, reg_each_resetReg]
  by_cases h1 : a = Reg.LAYER_FENCE_VALUE l
  · rw [if_pos h1, h1]
  · by_cases h2 : a = Reg.LAYER_COMMIT_FRAME l
    · rw [if_neg h1, if_pos h2, h2]
    · obtain ⟨i, hi, e⟩ := h.resolve_right (not_or.2 ⟨h2, h1⟩)
      rw [if_neg h1, if_neg h2, if_pos (List.mem_map.2 ⟨i, List.mem_range.2 hi, e.symm⟩)]

theorem resetShadows_other (t : State) (l : Nat) : t.Aside (fun a => ∃ o ≤ 0x68, a = reg 6 l o) (fun _ => False) (t.resetShadows l) :=
  (State.Aside.refl _ _ t).resetShadows fun o ho => ⟨o, ho, rfl⟩

theorem pageDetached_eq (s : State) (n : Nat) : s.pageDetached n =
    ((s.unattached n).queueReset n).each (((s.unattached n).queueReset n).sessLayers n) fun l t => t.resetShadows l := rfl

/-- The reset of the layers' registers leaves every other. -/
theorem pageDetached_reg {u i o : Nat} (hi : i < 256) (ho : o < 0x10000) (h : u = 6 → 0x68 < o) :
    (s.pageDetached n).reg (reg u i o) = ((s.unattached n).queueReset n).reg (reg u i o) := by
  rw [pageDetached_eq]
  refine (State.Aside.each (A := fun a => ∃ l < 64, ∃ o ≤ 0x68, a = reg 6 l o) (L := fun _ => False) _ (fun l hl t ht => ?_)
    (State.Aside.refl _ _ _)).reg _ ?_
  · exact ht.trans ((resetShadows_other t l).mono (fun a ⟨o, hx, e⟩ => ⟨l, sessLayers_lt l hl, o, hx, e⟩) fun _ h => h)
  · rintro ⟨l, hl, x, hx, e⟩
    simp only [reg] at e
    omega

/-- Every register of the page but those kept and IRQ_STATUS holds its reset value, and what is kept is as it was. -/
theorem pageDetached_page_reg (hn : n < 256) {o : Nat} (ho : o < 0x1000) (ht : o ≠ 0x210) (ha : ∀ k < 8, o ≠ 0x310 + 32 * k) :
    (s.pageDetached n).reg (reg 14 n o) = if o = 0 ∨ o = 0x20 ∨ o = 0x24 then s.reg (reg 14 n o) else regReset (reg 14 n o) := by
  have hk : pageKeeps n (reg 14 n o) = decide (o = 0 ∨ o = 0x20 ∨ o = 0x24) := by
    have hinj : ∀ x, reg 14 n o = reg 14 n x ↔ o = x := fun x => by unfold reg; omega
    have hany : ((List.range 8).any fun k => reg 14 n o == Reg.SESS_AS_STATUS n k) = false := by
      simp only [List.any_eq_false, List.mem_range, beq_iff_eq, hinj]
      exact ha
    have hbeq : ∀ x, (reg 14 n o == reg 14 n x) = decide (o = x) := fun x => by rw [Bool.beq_eq_decide_eq, decide_eq_decide, hinj]
    rw [pageKeeps, hany, hbeq, hbeq, hbeq, hbeq, decide_eq_false ht, Bool.or_false, Bool.or_false, Bool.decide_or, Bool.decide_or, Bool.or_assoc]
  rw [pageDetached_reg hn (by omega) (by omega), queueReset_reg (by omega) ht ha, hk]
  by_cases h : o = 0 ∨ o = 0x20 ∨ o = 0x24
  · rw [if_neg (by simp [h]), if_pos h, unattached_reg hn hn (by omega) (by omega)]
  · rw [if_pos ⟨ho, decide_eq_false h⟩, if_neg h]

theorem queueReset_owner {k : Nat} (hn : n < 256) (hk : k < 64) :
    ((s.unattached n).queueReset n).reg (Reg.LAYER_OWNER k) = s.reg (Reg.LAYER_OWNER k) :=
  (queueReset_other fun o ho => by simp only [Reg.LAYER_OWNER, reg]; omega).trans (unattached_reg hn (by omega) (by omega) (by omega))

theorem pageDetached_shadow (hn : n < 256) {l a : Nat} (hl : l ∈ s.sessLayers n) (h : shadowPlace l a) : (s.pageDetached n).reg a = regReset a := by
  have hmine : l ∈ ((s.unattached n).queueReset n).sessLayers n := by rwa [sessLayers_congr fun k hk => queueReset_owner hn hk]
  obtain ⟨w, -, hend⟩ := State.each_around (f := fun l t => t.resetShadows l) (R := State.Aside (· ≠ a) fun _ => False) (State.Aside.refl _ _)
    (fun _ _ _ => State.Aside.trans) hmine (List.nodup_range.filter _) ((s.unattached n).queueReset n) fun k hk hne t => by
      refine (resetShadows_other t k).mono (fun b ⟨o, ho, e⟩ hb => ?_) fun _ h => h
      obtain ⟨x, hx, ea⟩ := shadowPlace_reg h
      rw [hb, ea] at e
      simp only [reg] at e
      omega
  rw [pageDetached_eq, hend.reg a (by simp), resetShadows_reg w h]

/-! ### After the page -/

/-- What is done after the layers of a session are detached: its haptic triggers are dropped, and the session is told. -/
def endPlaces (n a : Nat) : Prop := a = Reg.SESS_STATUS n ∨ (∃ k < 16, a = Reg.HC_COUNTS k ∨ a = Reg.HC_STATUS k) ∨ ∃ k ≤ 479, a = Reg.IC_SRC k

theorem hapDetached_aside : (s.layersDetached n).Aside (fun a => ∃ k < 16, a = Reg.HC_COUNTS k ∨ a = Reg.HC_STATUS k) (fun _ => False)
    ((s.layersDetached n).hapDetach n) :=
  (State.Aside.refl _ _ _).hapDetach n (fun k hk => ⟨k, hk, .inl rfl⟩) fun k hk => ⟨k, hk, .inr rfl⟩

theorem detach_end : (s.layersDetached n).Aside (endPlaces n) (fun _ => False) (s.detach n) := by
  rw [detach_eq]
  exact (hapDetached_aside.mono (B := endPlaces n) (fun _ h => .inr (.inl h)) fun _ h => h).event (.inl rfl) (.inl rfl)
    fun hk => .inr (.inr ⟨_, hk, rfl⟩)

theorem detach_end_reg (hn : n < 256) {u i o : Nat} (hi : i < 256) (ho : o < 0x10000) (h : u ≠ 17 ∧ u ≠ 23 ∧ ¬ (u = 14 ∧ o = 0x1004)) :
    (s.detach n).reg (reg u i o) = (s.layersDetached n).reg (reg u i o) := by
  refine detach_end.reg _ ?_
  rintro (e | ⟨k, hk, e | e⟩ | ⟨k, hk, e⟩)
  · simp only [Reg.SESS_STATUS, reg] at e; omega
  · simp only [Reg.HC_COUNTS, reg] at e; omega
  · simp only [Reg.HC_STATUS, reg] at e; omega
  · simp only [Reg.IC_SRC, reg] at e; omega

theorem sessLayers_pageDetached (hn : n < 256) : (s.pageDetached n).sessLayers n = s.sessLayers n :=
  sessLayers_congr fun _ hl => (pageDetached_aside hn).reg _ (ownerPlace hn hl)

theorem layersDetached_frame (hn : n < 256) : (s.pageDetached n).Aside (layerPlaces n ((s.pageDetached n).sessLayers n))
    (· ∈ (s.pageDetached n).sessLayers n) (s.layersDetached n) :=
  State.Aside.each _ (fun _ hl _ ht => (layDetach_aside hn ht hl).1) (State.Aside.refl _ _ _)

/-- What the layers' end and what follows it leave. -/
theorem detach_late_reg (hn : n < 256) {u i o : Nat} (hi : i < 256) (ho : o < 0x10000)
    (h : u ≠ 17 ∧ u ≠ 23 ∧ u ≠ 8 ∧ ¬ (u = 14 ∧ (o = 0x1004 ∨ o = 0xd00)) ∧ ¬ (u = 6 ∧ o = 0x6c)) :
    (s.detach n).reg (reg u i o) = (s.pageDetached n).reg (reg u i o) :=
  (detach_end_reg hn hi ho (by omega)).trans ((layersDetached_frame hn).reg _ (not_layerPlaces sessLayers_lt hi ho (by omega) hn))

/-! ### The session is told (R53) -/

theorem detach_told (hn : n < 256) : (s.detach n).attached n = false ∧ (s.detach n).bit (Reg.SESS_STATUS_DETACH_EVT n) = true := by
  have hsrc : 192 + n ≤ 479 → Reg.SESS_STATUS n ≠ Reg.IC_SRC (192 + n) := fun _ => by simp only [Reg.SESS_STATUS, Reg.IC_SRC, reg]; omega
  have hpage : (s.layersDetached n).get (Reg.SESS_STATUS_ATTACHED n) = 0 := by
    have h1 : (s.layersDetached n).reg (Reg.SESS_STATUS n) = (s.unattached n).reg (Reg.SESS_STATUS n) :=
      ((layersDetached_frame hn).reg _ (not_layerPlaces sessLayers_lt hn (by omega) (by omega) hn)).trans
        ((pageDetached_reg hn (by omega) (by omega)).trans (queueReset_other fun o ho => by simp only [reg]; omega))
    rw [State.get, h1]
    exact State.get_set_same _ (Reg.SESS_STATUS_ATTACHED n) 0 (Nat.le_of_ble_eq_true rfl)
  have hend : ((s.layersDetached n).hapDetach n).get (Reg.SESS_STATUS_ATTACHED n) = 0 := by
    rw [hapDetached_aside.get, hpage]
    rintro ⟨k, hk, e | e⟩
    · simp only [Reg.SESS_STATUS, Reg.HC_COUNTS, reg] at e; omega
    · simp only [Reg.SESS_STATUS, Reg.HC_STATUS, reg] at e; omega
  rw [detach_eq, State.attached, State.bit, State.bit, State.sessEvent, State.get_event _ _ _ _ _ hsrc, State.get_event _ _ _ _ _ hsrc, State.count,
    State.get_set_apart _ _ _ _ (Nat.le_of_ble_eq_true rfl) (by simp), State.get_set_apart _ _ _ _ (Nat.le_of_ble_eq_true rfl) (by simp), hend,
    State.get_set_apart _ _ _ _ (Nat.le_of_ble_eq_true rfl) (by simp), State.get_set_same _ _ _ (Nat.le_of_ble_eq_true rfl)]
  exact ⟨rfl, rfl⟩

/-! ### The page, and what it keeps -/

theorem detach_page (hn : n < 256) {o : Nat} (ho : o < 0x1000) (hq : o ≠ 0xd00) (ht : o ≠ 0x210) (ha : ∀ k < 8, o ≠ 0x310 + 32 * k) :
    (s.detach n).reg (reg 14 n o) = if o = 0 ∨ o = 0x20 ∨ o = 0x24 then s.reg (reg 14 n o) else regReset (reg 14 n o) :=
  (detach_late_reg hn hn (by omega) (by omega)).trans (pageDetached_page_reg hn ho ht ha)

theorem detach_touch (hn : n < 256) : (s.detach n).bit (Reg.SESS_TQ_STATUS_OVERFLOW n) = false ∧
    (s.detach n).get (Reg.SESS_TQ_STATUS_DROPPED n) = satAdd 16 (s.get (Reg.SESS_TQ_STATUS_DROPPED n)) (s.tqFill n) := by
  have hreg : (s.detach n).reg (Reg.SESS_TQ_STATUS n) = ((s.unattached n).queueReset n).reg (Reg.SESS_TQ_STATUS n) :=
    (detach_late_reg hn hn (by omega) (by omega)).trans (pageDetached_reg hn (by omega) (by omega))
  obtain ⟨hover, hdrop⟩ := queueReset_touch (s := s.unattached n) (n := n)
  have h0 : (s.unattached n).get (Reg.SESS_TQ_STATUS_DROPPED n) = s.get (Reg.SESS_TQ_STATUS_DROPPED n) := by
    rw [State.get, State.get, unattached_reg hn hn (by omega) (by omega)]
  rw [tqFill_unattached hn, h0] at hdrop
  rw [State.bit, State.get] at hover
  rw [State.get] at hdrop
  rw [State.bit, State.get, State.get, hreg]
  exact ⟨hover, hdrop⟩

theorem detach_streams (hn : n < 256) {a : Nat} (ha : a < 8) : (s.detach n).bit (Reg.SESS_AS_STATUS_RUNNING n a) = false ∧
    (s.detach n).get (Reg.SESS_AS_STATUS_UNDERRUNS n a) = s.get (Reg.SESS_AS_STATUS_UNDERRUNS n a) := by
  have hreg : (s.detach n).reg (Reg.SESS_AS_STATUS n a) = ((s.unattached n).queueReset n).reg (Reg.SESS_AS_STATUS n a) :=
    (detach_late_reg hn hn (by omega) (by omega)).trans (pageDetached_reg hn (by omega) (by omega))
  obtain ⟨hrun, hunder⟩ := queueReset_streams (s := s.unattached n) (n := n) ha
  have h0 : (s.unattached n).get (Reg.SESS_AS_STATUS_UNDERRUNS n a) = s.get (Reg.SESS_AS_STATUS_UNDERRUNS n a) := by
    rw [State.get, State.get, unattached_reg hn hn (by omega) (by omega)]
  rw [h0] at hunder
  rw [State.bit, State.get] at hrun
  rw [State.get] at hunder
  rw [State.bit, State.get, State.get, hreg]
  exact ⟨hrun, hunder⟩

/-! ### IRQ_STATUS and the layers -/

/-- The reset of the page leaves the commits of the layers and who owns them. -/
theorem pageDetached_layer (hn : n < 256) {l : Nat} (hl : l < 64) :
    (s.pageDetached n).reg (Reg.LAYER_COMMIT_STATUS l) = s.reg (Reg.LAYER_COMMIT_STATUS l) ∧
      (s.pageDetached n).ownedSecure 6 l = s.ownedSecure 6 l := by
  constructor
  · exact (pageDetached_reg (by omega) (by omega) (by omega)).trans
      ((queueReset_other fun o ho => by simp only [reg]; omega).trans (unattached_reg hn (by omega) (by omega) (by omega)))
  · rw [State.ownedSecure, State.ownedSecure]
    rw [show (s.pageDetached n).reg (Reg.SYS_OWN 6 (l / 32)) = s.reg (Reg.SYS_OWN 6 (l / 32)) from
      (pageDetached_reg (by omega) (by omega) (by omega)).trans
        ((queueReset_other fun o ho => by simp only [reg]; omega).trans (unattached_reg hn (by omega) (by omega) (by omega)))]

theorem detach_irq (hn : n < 256) (h0 : 0 < n) : (s.detach n).reg (Reg.SESS_IRQ_STATUS n) =
    if (s.sessLayers n).any fun l => s.layPending l && !s.ownedSecure 6 l then 4 else 0 := by
  have hlay : ∀ l ∈ s.sessLayers n, ((s.pageDetached n).layPending l && !(s.pageDetached n).ownedSecure 6 l) =
      (s.layPending l && !s.ownedSecure 6 l) := fun l hl => by
    obtain ⟨hc, ho⟩ := pageDetached_layer (s := s) hn (sessLayers_lt l hl)
    rw [State.layPending, State.layPending, State.get, State.get, hc, ho]
  have hany : ((s.pageDetached n).sessLayers n).any (fun l => (s.pageDetached n).layPending l && !(s.pageDetached n).ownedSecure 6 l) =
      (s.sessLayers n).any fun l => s.layPending l && !s.ownedSecure 6 l := by
    rw [sessLayers_pageDetached hn]
    rw [Bool.eq_iff_iff, List.any_eq_true, List.any_eq_true]
    exact exists_congr fun l => and_congr_right fun hl => by rw [hlay l hl]
  have hpage : (s.pageDetached n).reg (Reg.SESS_IRQ_STATUS n) = 0 := by
    refine (pageDetached_page_reg hn (by omega) (by omega) (by omega)).trans ?_
    rw [if_neg (by omega)]
    exact regReset_irqStatus hn
  have h := layersDetach_irq (s := s.pageDetached n) (t := s.pageDetached n) hn h0 (fun _ hl => hl) (List.nodup_range.filter _)
    (State.Aside.refl _ _ _) fun _ _ => rfl
  rw [hany, hpage] at h
  exact (detach_end_reg hn hn (by omega) (by omega)).trans (h.trans BitVec.zero_or)

theorem detach_commit (hn : n < 256) {l : Nat} (hl : l ∈ s.sessLayers n) :
    (if s.layPending l then (s.detach n).get (Reg.LAYER_COMMIT_STATUS_STATE l) = 3 ∧ (s.detach n).get (Reg.LAYER_COMMIT_STATUS_REASON l) = 2
      else (s.detach n).reg (Reg.LAYER_COMMIT_STATUS l) = s.reg (Reg.LAYER_COMMIT_STATUS l)) ∧
    (s.bit (Reg.SESS_CTRL_DETACH_ACTION n) = true → ((s.detach n).lay l).detached = true) := by
  have hlt := sessLayers_lt l hl
  have hmine : l ∈ (s.pageDetached n).sessLayers n := by rwa [sessLayers_pageDetached hn]
  obtain ⟨w, hw, hend⟩ := State.each_around (f := fun l t => State.layDetach t n l)
    (R := State.Aside (fun a => a ≠ Reg.LAYER_COMMIT_STATUS l ∧ a ≠ Reg.SESS_CTRL n) (· ≠ l)) (State.Aside.refl _ _)
    (fun _ _ _ => State.Aside.trans) hmine (List.nodup_range.filter _) (s.pageDetached n) fun k hk hne t =>
      layDetach_other t (sessLayers_lt k hk) hne
  obtain ⟨hcommit, hlay⟩ := layDetach_layer (t := w) (n := n) hlt
  have hpend : w.layPending l = s.layPending l := by
    rw [State.layPending, State.layPending, hw.get (by simp), State.get, State.get, (pageDetached_layer hn hlt).1]
  have hwreg : w.reg (Reg.LAYER_COMMIT_STATUS l) = s.reg (Reg.LAYER_COMMIT_STATUS l) := (hw.reg _ (by simp)).trans (pageDetached_layer hn hlt).1
  have hctrl : w.reg (Reg.SESS_CTRL n) = s.reg (Reg.SESS_CTRL n) := (hw.reg _ (by simp)).trans
    ((pageDetached_reg hn (by omega) (by omega)).trans
      ((queueReset_other fun o ho => by simp only [reg]; omega).trans (unattached_reg hn hn (by omega) (by omega))))
  have hreg : (s.detach n).reg (Reg.LAYER_COMMIT_STATUS l) = (w.layDetach n l).reg (Reg.LAYER_COMMIT_STATUS l) :=
    (detach_end_reg hn (by omega) (by omega) (by omega)).trans (hend.reg _ (by simp))
  have hrec : (s.detach n).lay l = (w.layDetach n l).lay l := (detach_end.lay l id).trans (hend.lay l (by simp))
  rw [hpend, hwreg] at hcommit
  rw [State.get, State.get, ← hreg] at hcommit
  rw [State.get, State.get, hrec]
  refine ⟨hcommit, fun hb => hlay ?_⟩
  rw [State.bit, State.get, hctrl]
  exact hb

/-- R53: the registers of a layer that its session's detach leaves, and those that it resets. -/
theorem detach_layer (hn : n < 256) {l : Nat} (hl : l ∈ s.sessLayers n) :
    (∀ i < 20, (s.detach n).reg (Reg.LAYER_CTRL l + 4 * i) = regReset (Reg.LAYER_CTRL l + 4 * i)) ∧
    (s.detach n).reg (Reg.LAYER_COMMIT_FRAME l) = 0 ∧ (s.detach n).reg (Reg.LAYER_FENCE_VALUE l) = 0 ∧
    (s.detach n).reg (Reg.LAYER_STATUS l) = s.reg (Reg.LAYER_STATUS l) ∧
    (s.detach n).reg (Reg.LAYER_APPLIED_FRAME l) = s.reg (Reg.LAYER_APPLIED_FRAME l) ∧
    (s.detach n).reg (Reg.LAYER_OWNER l) = s.reg (Reg.LAYER_OWNER l) := by
  have hlt := sessLayers_lt l hl
  have hshadow : ∀ a, shadowPlace l a → (s.detach n).reg a = regReset a := fun a ha => by
    obtain ⟨o, ho, rfl⟩ := shadowPlace_reg ha
    exact (detach_late_reg hn (by omega) (by omega) (by omega)).trans (pageDetached_shadow hn hl ha)
  have hkept : ∀ o, o < 0x10000 → 0x70 ≤ o → (s.detach n).reg (reg 6 l o) = s.reg (reg 6 l o) := fun o ho h => by
    refine (detach_aside hn).reg _ fun hp => ?_
    have := detachPlaces_reg hn sessLayers_lt (by omega) ho hp
    omega
  exact ⟨fun i hi => hshadow _ (.inl ⟨i, hi, rfl⟩), (hshadow _ (.inr (.inl rfl))).trans (regReset_commitFrame hlt),
    (hshadow _ (.inr (.inr rfl))).trans (regReset_fenceValue hlt), hkept _ (by omega) (by omega), hkept _ (by omega) (by omega),
    hkept _ (by omega) (by omega)⟩

/-- R53, R54: a detach, as `State.Detached` says it, and it keeps PAGE_ID. -/
theorem detach_detached (hn : n < 256) (h0 : 0 < n) : s.Detached n (s.detach n) ∧
    (s.detach n).reg (Reg.SESS_PAGE_ID n) = s.reg (Reg.SESS_PAGE_ID n) := by
  obtain ⟨hatt, hevt⟩ := detach_told (s := s) hn
  obtain ⟨hover, hdrop⟩ := detach_touch (s := s) hn
  have hkept : ∀ o, o = 0 ∨ o = 0x20 ∨ o = 0x24 → (s.detach n).reg (reg 14 n o) = s.reg (reg 14 n o) := fun o ho =>
    (detach_page hn (by omega) (by omega) (by omega) (by omega)).trans (if_pos ho)
  have hconf : ∀ o, o < 0x10000 → 0x1008 ≤ o → (s.detach n).reg (reg 14 n o) = s.reg (reg 14 n o) := fun o ho h => by
    refine (detach_aside hn).reg _ fun hp => ?_
    have := detachPlaces_reg hn sessLayers_lt hn ho hp
    omega
  refine ⟨⟨hatt, hevt, detach_keeps (keeps_sameBytes s) n (sameBytes_refl s), fun i hi hne => ?_, hkept _ (by omega), hkept _ (by omega),
    detach_irq hn h0, hover, hdrop, fun a ha => detach_streams hn ha, fun l hl => ?_, hconf _ (by omega) (by omega), fun k hk => ?_⟩,
    hkept _ (by omega)⟩
  · have he : Reg.SESS_PAGE_ID n + 4 * i = reg 14 n (4 * i) := by simp only [Reg.SESS_PAGE_ID, reg]; omega
    simp only [List.cons_append, List.nil_append, List.mem_cons, List.mem_map, List.mem_range, not_or, not_exists, not_and] at hne
    obtain ⟨hid, hlay, hother, htq, hirq, hstreams⟩ := hne
    rw [he, detach_page hn (by omega) hirq htq fun k hk e => hstreams k hk e.symm, if_neg (by omega)]
  · obtain ⟨hshadow, hframe, hfence, hstatus, happlied, howner⟩ := detach_layer (s := s) hn hl
    obtain ⟨hcommit, haction⟩ := detach_commit (s := s) hn hl
    refine ⟨hshadow, hframe, hfence, hstatus, happlied, hcommit, fun hb => haction ?_, howner⟩
    rwa [State.bit, State.get, show (s.detach n).reg (Reg.SESS_CTRL n) = s.reg (Reg.SESS_CTRL n) from ?_] at hb
    refine (detach_aside hn).reg _ fun hp => ?_
    have := detachPlaces_reg hn sessLayers_lt hn (by omega) hp
    omega
  · rw [State.get, State.get, State.get, State.get, hconf _ (by omega) (by omega), hconf _ (by omega) (by omega)]
    exact ⟨rfl, rfl, hconf _ (by omega) (by omega)⟩

end

end Sys2Proof.Machine
end

section
/-! SUPPORT. A detach seen across what does not concern the session: the states before it and after it may differ elsewhere. -/

namespace Sys2Proof.Machine

/-- State `t` has of session `n`, of its page, its windows and the layers `mine`, what `s` has, its binding, its control and its status
apart, and who owns which layer. -/
structure State.Spares (n : Nat) (mine : List Nat) (s t : State) : Prop where
  page : ∀ o < 0x10000, o ≠ 0 ∧ o ≠ 0x1000 ∧ o ≠ 0x1004 → t.reg (Machine.reg 14 n o) = s.reg (Machine.reg 14 n o)
  owner : ∀ l < 64, t.reg (Reg.LAYER_OWNER l) = s.reg (Reg.LAYER_OWNER l)
  secure : ∀ l < 64, t.ownedSecure 6 l = s.ownedSecure 6 l
  layer : ∀ l ∈ mine, ∀ o < 0x10000, t.reg (Machine.reg 6 l o) = s.reg (Machine.reg 6 l o)
  lay : ∀ l ∈ mine, t.lay l = s.lay l
  bytes : s.SameBytes t

namespace State.Spares

variable {n : Nat} {mine : List Nat} {s t u : State}

theorem get (h : s.Spares n mine t) {o lo w : Nat} (ho : o < 0x10000) (h0 : o ≠ 0 ∧ o ≠ 0x1000 ∧ o ≠ 0x1004) :
    t.get ⟨Machine.reg 14 n o, lo, w⟩ = s.get ⟨Machine.reg 14 n o, lo, w⟩ := by
  rw [State.get, State.get, h.page o ho h0]

theorem sessLayers (h : s.Spares n mine t) (m : Nat) : t.sessLayers m = s.sessLayers m := sessLayers_congr h.owner

theorem tqFill (h : s.Spares n mine t) : t.tqFill n = s.tqFill n := by
  rw [State.tqFill, State.tqFill, State.bit, State.bit, State.tqSize, State.tqSize, h.get (by omega) (by omega),
    h.get (by omega) (by omega), h.get (by omega) (by omega),
    h.get (by omega) (by omega)]

theorem layPending (h : s.Spares n mine t) {l : Nat} (hl : l ∈ mine) : t.layPending l = s.layPending l := by
  rw [State.layPending, State.layPending, State.get, State.get, h.layer l hl _ (by omega)]

theorem told (h : s.Spares n mine t) (hm : ∀ l ∈ mine, l < 64) : mine.any (fun l => t.layPending l && !t.ownedSecure 6 l) =
    mine.any fun l => s.layPending l && !s.ownedSecure 6 l := by
  rw [Bool.eq_iff_iff, List.any_eq_true, List.any_eq_true]
  exact exists_congr fun l => and_congr_right fun hl => by rw [h.layPending hl, h.secure l (hm l hl)]

end State.Spares

section
variable {n : Nat} {s t u : State}

theorem sameBytes_trans (h : s.SameBytes u) (h' : u.SameBytes t) : s.SameBytes t := by
  obtain ⟨h1, h2, h3⟩ := h
  obtain ⟨g1, g2, g3⟩ := h'
  exact ⟨fun n o => (g1 n o).trans (h1 n o), fun o => (g2 o).trans (h2 o), fun o => (g3 o).trans (h3 o)⟩

/-- A detach that follows what spares the session. -/
theorem detached_of_before (h : s.Spares n (s.sessLayers n) u) (hd : u.Detached n t) : s.Detached n t := by
  obtain ⟨hatt, hevt, hbytes, hpage, hlay, hother, hirq, hover, hdrop, has, hmine, hquota, hwin⟩ := hd
  have hl : u.sessLayers n = s.sessLayers n := h.sessLayers n
  have hp : ∀ o < 0x10000, o ≠ 0 ∧ o ≠ 0x1000 ∧ o ≠ 0x1004 → u.reg (reg 14 n o) = s.reg (reg 14 n o) := h.page
  refine ⟨hatt, hevt, sameBytes_trans h.bytes hbytes, hpage, hlay.trans (hp _ (by omega) (by omega)),
    hother.trans (hp _ (by omega) (by omega)), ?_, hover, ?_, fun a ha => ?_, fun l hl' => ?_,
    hquota.trans (hp _ (by omega) (by omega)), fun k hk => ?_⟩
  · have htold := h.told sessLayers_lt
    change t.reg (Reg.SESS_IRQ_STATUS n) = if (u.sessLayers n).any (fun l => u.layPending l && !u.ownedSecure 6 l) then 4 else 0 at hirq
    rw [hl, htold] at hirq
    exact hirq
  · rw [hdrop, h.tqFill, h.get (by omega) (by omega)]
  · obtain ⟨hrun, hunder⟩ := has a ha
    exact ⟨hrun, hunder.trans (h.get (by omega) (by omega))⟩
  · have hl' : l ∈ s.sessLayers n := hl'
    obtain ⟨hshadow, hframe, hfence, hstatus, happlied, hcommit, haction, howner⟩ := hmine l (show l ∈ u.sessLayers n by rwa [hl])
    have hr : ∀ o < 0x10000, u.reg (reg 6 l o) = s.reg (reg 6 l o) := h.layer l hl'
    have hcommit : if u.layPending l then t.get (Reg.LAYER_COMMIT_STATUS_STATE l) = 3 ∧ t.get (Reg.LAYER_COMMIT_STATUS_REASON l) = 2
      else t.reg (Reg.LAYER_COMMIT_STATUS l) = u.reg (Reg.LAYER_COMMIT_STATUS l) := hcommit
    rw [h.layPending hl', hr _ (by omega)] at hcommit
    exact ⟨hshadow, hframe, hfence, hstatus.trans (hr _ (by omega)), happlied.trans (hr _ (by omega)), hcommit, haction,
      howner.trans (hr _ (by omega))⟩
  · obtain ⟨hdev, hgoff, hctrl⟩ := hwin k hk
    exact ⟨hdev.trans (h.get (by omega) (by omega)), hgoff.trans (h.get (by omega) (by omega)),
      hctrl.trans (hp _ (by omega) (by omega))⟩

/-- A detach that is followed by what spares the session. -/
theorem detached_of_after (hd : s.Detached n u) (h : u.Spares n (s.sessLayers n) t) (hs : t.reg (Reg.SESS_STATUS n) = u.reg (Reg.SESS_STATUS n))
    (hc : t.reg (Reg.SESS_CTRL n) = u.reg (Reg.SESS_CTRL n)) : s.Detached n t := by
  obtain ⟨hatt, hevt, hbytes, hpage, hlay, hother, hirq, hover, hdrop, has, hmine, hquota, hwin⟩ := hd
  have hp : ∀ o < 0x10000, o ≠ 0 ∧ o ≠ 0x1000 ∧ o ≠ 0x1004 → t.reg (reg 14 n o) = u.reg (reg 14 n o) := h.page
  have hbit : ∀ f : Fld, f.addr = Reg.SESS_STATUS n → t.bit f = u.bit f := fun f hf => by rw [State.bit, State.bit, State.get, State.get, hf, hs]
  have hpb : ∀ o lo w : Nat, o < 0x10000 → o ≠ 0 ∧ o ≠ 0x1000 ∧ o ≠ 0x1004 → t.bit ⟨reg 14 n o, lo, w⟩ = u.bit ⟨reg 14 n o, lo, w⟩ :=
    fun o lo w ho h0 => by rw [State.bit, State.bit, h.get ho h0]
  refine ⟨(hbit _ rfl).trans hatt, (hbit _ rfl).trans hevt, sameBytes_trans hbytes h.bytes, fun i hi hne => ?_,
    (hp _ (by omega) (by omega)).trans hlay, (hp _ (by omega) (by omega)).trans hother, (hp _ (by omega) (by omega)).trans hirq,
    (hpb _ _ _ (by omega) (by omega)).trans hover, (h.get (by omega) (by omega)).trans hdrop, fun a ha => ?_, fun l hl => ?_,
    (hp _ (by omega) (by omega)).trans hquota, fun k hk => ?_⟩
  · have he : Reg.SESS_PAGE_ID n + 4 * i = reg 14 n (4 * i) := by simp only [Reg.SESS_PAGE_ID, reg]; omega
    have h0 : 4 * i ≠ 0 := fun e => hne (by simp [e])
    rw [← hpage i hi hne, he, hp _ (by omega) (by omega)]
  · obtain ⟨hrun, hunder⟩ := has a ha
    exact ⟨(hpb _ _ _ (by omega) (by omega)).trans hrun, (h.get (by omega) (by omega)).trans hunder⟩
  · obtain ⟨hshadow, hframe, hfence, hstatus, happlied, hcommit, haction, howner⟩ := hmine l hl
    have hr : ∀ o < 0x10000, t.reg (reg 6 l o) = u.reg (reg 6 l o) := h.layer l hl
    have hg : ∀ f : Fld, f.addr = Reg.LAYER_COMMIT_STATUS l → t.get f = u.get f := fun f hf => by rw [State.get, State.get, hf, hr _ (by omega)]
    rw [← hg _ rfl, ← hg _ rfl, ← hr _ (by omega)] at hcommit
    refine ⟨fun i hi => ?_, (hr _ (by omega)).trans hframe, (hr _ (by omega)).trans hfence, (hr _ (by omega)).trans hstatus,
      (hr _ (by omega)).trans happlied, hcommit, fun hb => ?_, (hr _ (by omega)).trans howner⟩
    · have he : Reg.LAYER_CTRL l + 4 * i = reg 6 l (4 * i) := by simp only [Reg.LAYER_CTRL, reg]; omega
      rw [← hshadow i hi, he, hr _ (by omega)]
    · rw [h.lay l hl]
      exact haction (by rwa [State.bit, State.get, hc] at hb)
  · obtain ⟨hdev, hgoff, hctrl⟩ := hwin k hk
    exact ⟨(h.get (by omega) (by omega)).trans hdev, (h.get (by omega) (by omega)).trans hgoff, (hp _ (by omega) (by omega)).trans hctrl⟩

end

end Sys2Proof.Machine
end

section
/-! PROOF. O18: the control and quota registers of a session. -/

namespace Sys2Proof.Machine

theorem access_sessCtrl (n : Fin 256) : rowAccess (Reg.SESS_CTRL n) = some (0, 0xFF31F, 0, 0x80000000) :=
  (access_session n.isLt (by omega)).trans (by decide +kernel)

theorem access_quota (n : Fin 256) : rowAccess (Reg.SESS_QUOTA n) = some (0, 0xFFF, 0, 0) :=
  (access_session n.isLt (by omega)).trans (by decide +kernel)

/-- A field of a list none of whose other entries shares a bit with it. -/
theorem State.SetsOnly.get_mem {u t : State} {l : List (Fld × Nat)} (h : u.SetsOnly l t) {f : Fld} {v : Nat} (hm : (f, v) ∈ l)
    (hf : f.lo + f.width ≤ 32)
    (hp : ∀ p ∈ l, p = (f, v) ∨ p.1.addr ≠ f.addr ∨ f.lo + f.width ≤ p.1.lo ∨ p.1.lo + p.1.width ≤ f.lo) : t.get f = v % 2 ^ f.width := by
  have h' : u.SetsOnly ((f, v) :: l) t := by
    refine ⟨fun a i hi => (h.1 a i hi).trans ?_, h.2⟩
    rw [bitAfter_cons]
    split
    · next hc =>
      have hex : (l.find? fun p => p.1.covers a i).isSome := List.find?_isSome.2 ⟨_, hm, hc⟩
      obtain ⟨p, hfind⟩ := Option.isSome_iff_exists.1 hex
      have hpc : p.1.covers a i = true := by simpa using List.find?_some hfind
      have he : p = (f, v) := by
        refine (hp p (List.mem_of_find?_eq_some hfind)).resolve_right fun hd => ?_
        simp only [Fld.covers, Bool.and_eq_true, beq_iff_eq, decide_eq_true_eq] at hc hpc
        omega
      rw [bitAfter, hfind, he]
    · rfl
  exact setsOnly_get h' hf

/-- The binding that a control register's value gives (R51). -/
def sessBind (x : Word) : Nat × Nat × Nat := (getBits x 8 2, getBits x 12 4, getBits x 16 4)

/-- The fields that a write of a session's control register sets, where it is taken (R51). -/
def ctrlFields (n : Nat) (v : Word) : List (Fld × Nat) :=
  [(Reg.SESS_CTRL_LOCK n, getBits v 31 1), (Reg.SESS_CTRL_SLOT n, getBits v 16 4), (Reg.SESS_CTRL_FUNC n, getBits v 12 4),
    (Reg.SESS_CTRL_PORT n, getBits v 8 2), (Reg.SESS_CTRL_LOG_ACCESS n, getBits v 4 1),
    (Reg.SESS_CTRL_HAP_URGENT_OK n, getBits v 3 1), (Reg.SESS_CTRL_DETACH_ACTION n, getBits v 2 1),
    (Reg.SESS_CTRL_STATE n, getBits v 0 2), (Reg.SESS_PAGE_ID_SLOT n, getBits v 16 4),
    (Reg.SESS_PAGE_ID_FUNC n, getBits v 12 4), (Reg.SESS_PAGE_ID_PORT n, getBits v 8 2)]

theorem ctrlFields_addr {n : Nat} {v : Word} : ∀ p ∈ ctrlFields n v, p.1.addr = Reg.SESS_CTRL n ∨ p.1.addr = Reg.SESS_PAGE_ID n := by
  simp [ctrlFields]

/-- A state whose session has a binding written, before its attachment is looked at. -/
def State.ctrlTaken (s : State) (n : Nat) (v : Word) : State :=
  (((s.set (Reg.SESS_PAGE_ID_PORT n) (getBits v 8 2)).set (Reg.SESS_PAGE_ID_FUNC n) (getBits v 12 4)).set
    (Reg.SESS_PAGE_ID_SLOT n) (getBits v 16 4)).plainWrite (Reg.SESS_CTRL n) v

section
variable {s : State} {n : Fin 256} {w : World} {v : Word}

theorem setsOnly_ctrlTaken (hl : s.locked (Reg.SESS_CTRL n) = false) : s.SetsOnly (ctrlFields n v) (s.ctrlTaken n v) := by
  have hid := setsOnly_set (setsOnly_set (setsOnly_set (setsOnly_refl s) (Reg.SESS_PAGE_ID_PORT n) (getBits v 8 2))
    (Reg.SESS_PAGE_ID_FUNC n) (getBits v 12 4)) (Reg.SESS_PAGE_ID_SLOT n) (getBits v 16 4)
  have hlock : lockAddr (Reg.SESS_CTRL n) = Reg.SESS_CTRL n := lockAddr_session n.isLt (by omega)
  have hreg := hid.reg_apart (a := Reg.SESS_CTRL n) (by simp)
  have hbit := unlocked_bit hl hlock
  rw [State.locked, hlock, ← hreg] at hl
  rw [← hreg] at hbit
  exact hid.trans (setsOnly_unlocked (access_sessCtrl n) (by rw [State.locked, hlock]; exact hl)
    [(31, 1), (16, 4), (12, 4), (8, 2), (4, 1), (3, 1), (2, 1), (0, 2)] (by decide) (lockBit hbit))

/-- What the attachment depends on, after the write. -/
theorem ctrlTaken_state (hl : s.locked (Reg.SESS_CTRL n) = false) :
    (s.ctrlTaken n v).sessActive n = decide (getBits v 0 2 = 1) ∧ (s.ctrlTaken n v).attached n = s.attached n ∧
      (s.ctrlTaken n v).funcAvailable ((s.ctrlTaken n v).get (Reg.SESS_CTRL_PORT n)) ((s.ctrlTaken n v).get (Reg.SESS_CTRL_FUNC n)) =
        s.funcAvailable (getBits v 8 2) (getBits v 12 4) := by
  have h := setsOnly_ctrlTaken (v := v) hl
  have hstate : (s.ctrlTaken n v).get (Reg.SESS_CTRL_STATE n) = getBits v 0 2 :=
    (h.get_mem (by simp [ctrlFields]) (Nat.le_of_ble_eq_true rfl) (by simp [ctrlFields])).trans (Nat.mod_eq_of_lt (getBits_lt v 0 2))
  have hport : (s.ctrlTaken n v).get (Reg.SESS_CTRL_PORT n) = getBits v 8 2 :=
    (h.get_mem (by simp [ctrlFields]) (Nat.le_of_ble_eq_true rfl) (by simp [ctrlFields])).trans (Nat.mod_eq_of_lt (getBits_lt v 8 2))
  have hfunc : (s.ctrlTaken n v).get (Reg.SESS_CTRL_FUNC n) = getBits v 12 4 :=
    (h.get_mem (by simp [ctrlFields]) (Nat.le_of_ble_eq_true rfl) (by simp [ctrlFields])).trans (Nat.mod_eq_of_lt (getBits_lt v 12 4))
  have hgp : (s.ctrlTaken n v).reg (Reg.GP_STATUS (getBits v 8 2)) = s.reg (Reg.GP_STATUS (getBits v 8 2)) := by
    have hp := getBits_lt v 8 2
    refine h.reg_apart fun p hm => ?_
    obtain ha | ha := ctrlFields_addr p hm <;> rw [ha] <;> simp only [Reg.SESS_CTRL, Reg.SESS_PAGE_ID, Reg.GP_STATUS, reg] <;> omega
  have hrec : (s.ctrlTaken n v).func = s.func := h.proj State.func fun _ _ => rfl
  refine ⟨by rw [State.sessActive, hstate]; rfl, ?_, ?_⟩
  · rw [State.attached, State.attached, State.bit, State.bit, State.get, State.get, h.reg_apart (by simp [ctrlFields])]
  · rw [hport, hfunc, State.funcAvailable, State.funcAvailable, State.bit, State.bit, State.bit, State.bit, State.get, State.get, State.get,
      State.get, State.get, State.get, hgp, hrec]

/-- The state in which the attachment is looked at has of the session what `s` has, but for its binding. -/
theorem ctrlTaken_spares (hl : s.locked (Reg.SESS_CTRL n) = false) {mine : List Nat} (hm : ∀ l ∈ mine, l < 64) : s.Spares n mine (s.ctrlTaken n v) := by
  have h := setsOnly_ctrlTaken (v := v) hl
  have hreg : ∀ a, a ≠ Reg.SESS_CTRL n → a ≠ Reg.SESS_PAGE_ID n → (s.ctrlTaken n v).reg a = s.reg a := fun a h1 h2 =>
    h.reg_apart fun p hp e => (ctrlFields_addr p hp).elim (fun ha => h1 (e.symm.trans ha)) fun ha => h2 (e.symm.trans ha)
  have hother : ∀ u i o : Nat, u < 14 → i < 256 → o < 0x10000 → (s.ctrlTaken n v).reg (reg u i o) = s.reg (reg u i o) := fun u i o hu hi ho =>
    hreg _ (by simp only [Reg.SESS_CTRL, reg]; omega) (by simp only [Reg.SESS_PAGE_ID, reg]; omega)
  refine ⟨fun o ho h0 => hreg _ (by simp only [Reg.SESS_CTRL, reg]; omega) (by simp only [Reg.SESS_PAGE_ID, reg]; omega),
    fun l hl => hother 6 l _ (by omega) (by omega) (by omega), fun l hl => ?_, fun l hl o ho => ?_, fun l hl => ?_, setsOnly_sameBytes h⟩
  · rw [State.ownedSecure, State.ownedSecure, hother 0 0 _ (by omega) (by omega) (by omega)]
  · exact hother 6 l o (by omega) (by have := hm l hl; omega) ho
  · rw [h.proj State.lay fun _ _ => rfl]

/-- R51: a write of a session's control register that binds two ACTIVE sessions alike, or changes the binding of an ACTIVE one. -/
def State.ctrlRefused (s : State) (n : Nat) (v : Word) : Bool :=
  (!s.sessActive n && getBits v 0 2 == 1 &&
    guestSessions.any fun m => m != n && s.sessActive m && sessBind (s.reg (Reg.SESS_CTRL m)) == sessBind v) ||
  (s.sessActive n && sessBind v != sessBind (s.reg (Reg.SESS_CTRL n)))

/-- The other guest sessions that are ACTIVE. -/
def State.otherActive (s : State) (n : Nat) : List Nat := (List.range 256).filter fun m => decide (2 ≤ m) && m != n && s.sessActive m

theorem guestSessions_any (p : Nat → Bool) : guestSessions.any p = (List.range 256).any fun m => decide (2 ≤ m) && p m := by
  rw [Bool.eq_iff_iff, List.any_eq_true, List.any_eq_true]
  simp only [guestSessions, List.mem_map, List.mem_range, Bool.and_eq_true, decide_eq_true_eq]
  constructor
  · rintro ⟨m, ⟨k, hk, rfl⟩, hm⟩
    exact ⟨k + 2, by omega, by omega, hm⟩
  · rintro ⟨m, hm, h2, hp⟩
    exact ⟨m, ⟨m - 2, by omega, by omega⟩, hp⟩

theorem ctrlRefused_iff : s.ctrlRefused n v = true ↔
    (s.sessActive n = true ∧ sessBind v ≠ sessBind (s.reg (Reg.SESS_CTRL n))) ∨ (s.sessActive n = false ∧ getBits v 0 2 = 1 ∧
      (s.otherActive n).any (fun m => sessBind (s.reg (Reg.SESS_CTRL m)) == sessBind v) = true) := by
  have hany : (guestSessions.any fun m => m != n && s.sessActive m && sessBind (s.reg (Reg.SESS_CTRL m)) == sessBind v) =
      (s.otherActive n).any fun m => sessBind (s.reg (Reg.SESS_CTRL m)) == sessBind v := by
    rw [guestSessions_any, State.otherActive, List.any_filter]
    refine List.any_congr rfl fun m => ?_
    rw [Bool.and_assoc, Bool.and_assoc, Bool.and_assoc]
  rw [State.ctrlRefused, hany, or_comm]
  simp [and_assoc]

theorem sessCtrlWrite_eq (hn : 2 ≤ n.val) (hl : s.locked (Reg.SESS_CTRL n) = false) : s.sessCtrlWrite n v =
    if s.ctrlRefused n v then s.sessEvent n (Reg.SESS_STATUS_BIND_ERR n) else (s.ctrlTaken n v).attachWrite n := by
  rw [State.sessCtrlWrite, if_neg (by omega), if_neg (by simp [hl])]
  rfl

theorem attachWrite_cases (hl : s.locked (Reg.SESS_CTRL n) = false) : (s.ctrlTaken n v).attachWrite n =
    if s.attached n then (if getBits v 0 2 = 1 then s.ctrlTaken n v else (s.ctrlTaken n v).detach n)
    else if getBits v 0 2 = 1 ∧ s.funcAvailable (getBits v 8 2) (getBits v 12 4) = true then (s.ctrlTaken n v).attach n
    else s.ctrlTaken n v := by
  obtain ⟨hactive, hatt, havail⟩ := ctrlTaken_state (v := v) hl
  rw [State.attachWrite, hactive, hatt, havail]
  simp

/-- A session's record is neither a register nor a byte. -/
theorem setSes_sets {t : State} {l : List (Fld × Nat)} (m : Nat) (r : SessState) (h : s.RegsSet l t) (hb : s.SameBytes t) :
    s.RegsSet l (t.setSes m r) ∧ s.SameBytes (t.setSes m r) := ⟨h, hb⟩

theorem fillBucket_sets {t : State} {l : List (Fld × Nat)} (m : Nat) (h : s.RegsSet l t) (hb : s.SameBytes t) :
    s.RegsSet l (t.fillBucket m) ∧ s.SameBytes (t.fillBucket m) := by
  rw [State.fillBucket]
  exact setSes_sets m _ h hb

section
variable (ha : s.Admits w 0x0E n false)
include ha

theorem exec_sessionWrites (hn : 0 < n.val) : exec (.sessionCtrlWrite n w v) s = .next (s.sessCtrlWrite n v) ∧
    exec (.quotaWrite n w v) s = .next (s.quotaWrite n v) := by
  have hsec : (n.val == 0) = false := beq_false_of_ne (by omega)
  have hc : exec (.sessionCtrlWrite n w v) s = .next (s.asWriter w 0x0E n (n.val == 0) (·.sessCtrlWrite n v)) := rfl
  have hq : exec (.quotaWrite n w v) s = .next (s.asWriter w 0x0E n (n.val == 0) (·.quotaWrite n v)) := rfl
  rw [hsec, asWriter_admits ha] at hc hq
  exact ⟨hc, hq⟩

/-- R51 to R53: a write that is taken, and what it does to the attachment. -/
theorem ctrlWrite_taken (hn : 2 ≤ n.val) (hl : s.locked (Reg.SESS_CTRL n) = false) (hr : s.ctrlRefused n v = false) :
    ((s.attached n = true ∧ getBits v 0 2 = 1) ∨ (s.attached n = false ∧
        (getBits v 0 2 ≠ 1 ∨ ¬ s.funcAvailable (getBits v 8 2) (getBits v 12 4) = true)) → Does (.sessionCtrlWrite n w v) s s (ctrlFields n v)) ∧
    (s.attached n = true → getBits v 0 2 ≠ 1 → DoesThen (.sessionCtrlWrite n w v) s s (ctrlFields n v) (·.detach n) ∧
      Leads (.sessionCtrlWrite n w v) s (s.Detached n)) ∧
    (s.attached n = false → getBits v 0 2 = 1 → s.funcAvailable (getBits v 8 2) (getBits v 12 4) = true →
      DoesThen (.sessionCtrlWrite n w v) s s (ctrlFields n v) (·.attach n)) := by
  have hw := (exec_sessionWrites (v := v) ha (by omega)).1
  have hset := setsOnly_ctrlTaken (v := v) hl
  rw [sessCtrlWrite_eq hn hl, hr, if_neg Bool.false_ne_true, attachWrite_cases hl] at hw
  refine ⟨fun h => ?_, fun hatt hact => ?_, fun hatt hact hav => ?_⟩
  · obtain ⟨hatt, hact⟩ | ⟨hatt, hno⟩ := h
    · rw [if_pos hatt, if_pos hact] at hw
      exact ⟨_, hw, hset⟩
    · rw [if_neg (by simp [hatt]), if_neg (by tauto)] at hw
      exact ⟨_, hw, hset⟩
  · rw [if_pos hatt, if_neg hact] at hw
    exact ⟨⟨_, hset, hw⟩, ⟨_, hw, detached_of_before (ctrlTaken_spares hl sessLayers_lt) (detach_detached n.isLt (by omega)).1⟩⟩
  · rw [if_neg (by simp [hatt]), if_pos ⟨hact, hav⟩] at hw
    exact ⟨_, hset, hw⟩

theorem ctrlWrite_refused (hn : 2 ≤ n.val) (hl : s.locked (Reg.SESS_CTRL n) = false) (hr : s.ctrlRefused n v = true) (hk : s.SourceFree (192 + n)) :
    Does (.sessionCtrlWrite n w v) s s [(Reg.IC_SRC_PENDING (192 + n), 1), (Reg.SESS_STATUS_EVENTS n, s.more (Reg.SESS_STATUS_EVENTS n)),
      (Reg.SESS_STATUS_BIND_ERR n, 1)] := by
  have hw := (exec_sessionWrites (v := v) ha (by omega)).1
  rw [sessCtrlWrite_eq hn hl, if_pos hr] at hw
  exact ⟨_, hw, setsOnly_sessEvent (setsOnly_refl s) n hk (Nat.le_of_ble_eq_true rfl)⟩

/-- R66: a write of the quota fills the bucket. -/
theorem quotaWrite_fills (hn : 0 < n.val) (hl : s.locked (Reg.SESS_QUOTA n) = false) :
    SetsAnd (.quotaWrite n w v) s [(Reg.SESS_QUOTA_UNITS n, getBits v 0 12)] fun t =>
      (t.ses n).tokens = 2 * getBits v 0 12 * 67108864 * 1000000 * s.beatRate.den / s.beatRate.num := by
  have hw := (exec_sessionWrites (v := v) ha hn).2
  rw [State.quotaWrite, if_neg (by simp [hl])] at hw
  have hset : s.SetsOnly [(Reg.SESS_QUOTA_UNITS n, getBits v 0 12)] (s.plainWrite (Reg.SESS_QUOTA n) v) :=
    setsOnly_governed (access_quota n) hl [(0, 12)] (by decide)
  obtain ⟨hregs, hbytes⟩ := fillBucket_sets n hset.1 (setsOnly_sameBytes hset)
  refine ⟨_, hw, hregs, hbytes, ?_⟩
  have hunits : (s.plainWrite (Reg.SESS_QUOTA n) v).get (Reg.SESS_QUOTA_UNITS n) = getBits v 0 12 :=
    (setsOnly_get hset (Nat.le_of_ble_eq_true rfl)).trans (Nat.mod_eq_of_lt (getBits_lt v 0 12))
  have hrate : (s.plainWrite (Reg.SESS_QUOTA n) v).beatRate = s.beatRate := hset.proj State.beatRate fun _ _ => rfl
  have htok : (((s.plainWrite (Reg.SESS_QUOTA n) v).fillBucket n).ses n).tokens = (s.plainWrite (Reg.SESS_QUOTA n) v).bucketDepth n := by
    rw [State.fillBucket, State.ses, State.setSes, sget_sput_same]
  exact htok.trans (by rw [State.bucketDepth, hunits, hrate])

theorem quotaWrite_locked (hn : 0 < n.val) (hl : s.locked (Reg.SESS_QUOTA n) = true) : Does (.quotaWrite n w v) s s [] := by
  have hw := (exec_sessionWrites (v := v) ha hn).2
  rw [State.quotaWrite, if_pos hl] at hw
  exact ⟨_, hw, setsOnly_refl s⟩

end

end

/-- Settles O18: what a write of the control register of a guest session takes or refuses, and what it does to the attachment. -/
theorem sessionControlWriteBindsASession : Obligations.SessionControlWriteBindsASession := by
  intro s n w v bind others ha
  refine ⟨fun hn hl => ⟨fun hkeep hfree => ?_, fun hr hk => ctrlWrite_refused ha hn hl (ctrlRefused_iff.2 hr) hk⟩,
    fun hn hl => quotaWrite_fills ha hn hl, fun hn hl => quotaWrite_locked ha hn hl⟩
  refine ctrlWrite_taken ha hn hl (Bool.eq_false_iff.2 fun hr => ?_)
  obtain ⟨hact, hne⟩ | ⟨hact, hnow, hany⟩ := ctrlRefused_iff.1 hr
  · exact hne (hkeep hact)
  · obtain h | hall := hfree hnow
    · exact Bool.false_ne_true (hact.symm.trans h)
    · obtain ⟨m, hm, he⟩ := List.any_eq_true.1 hany
      have hne := List.all_eq_true.1 hall m hm
      exact bne_iff_ne.1 hne (beq_iff_eq.1 he)

end Sys2Proof.Machine
end

section
/-! SUPPORT. The sessions of a port looked at again (R52): what each is left with, and what is left to the sessions of other ports. -/

namespace Sys2Proof.Machine

/-- State `t` has of session `n`, of its page, its binding and status, its windows and its layers, what `s` has. -/
structure State.Apart (n : Nat) (s t : State) : Prop where
  spares : s.Spares n (s.sessLayers n) t
  id : t.reg (Reg.SESS_PAGE_ID n) = s.reg (Reg.SESS_PAGE_ID n)
  ctrl : t.reg (Reg.SESS_CTRL n) = s.reg (Reg.SESS_CTRL n)
  status : t.reg (Reg.SESS_STATUS n) = s.reg (Reg.SESS_STATUS n)

namespace State.Apart

variable {n : Nat} {s t u : State}

theorem refl (n : Nat) (s : State) : s.Apart n s :=
  ⟨⟨fun _ _ _ => rfl, fun _ _ => rfl, fun _ _ => rfl, fun _ _ _ _ => rfl, fun _ _ => rfl, sameBytes_refl s⟩, rfl, rfl, rfl⟩

theorem trans (h : s.Apart n t) (h' : t.Apart n u) : s.Apart n u := by
  obtain ⟨⟨hpage, howner, hsecure, hlayer, hlay, hbytes⟩, hid, hctrl, hstatus⟩ := h
  obtain ⟨⟨hpage', howner', hsecure', hlayer', hlay', hbytes'⟩, hid', hctrl', hstatus'⟩ := h'
  have hm : t.sessLayers n = s.sessLayers n := sessLayers_congr howner
  rw [hm] at hlayer' hlay'
  exact ⟨⟨fun o ho h0 => (hpage' o ho h0).trans (hpage o ho h0), fun l hl => (howner' l hl).trans (howner l hl),
    fun l hl => (hsecure' l hl).trans (hsecure l hl), fun l hl o ho => (hlayer' l hl o ho).trans (hlayer l hl o ho),
    fun l hl => (hlay' l hl).trans (hlay l hl), sameBytes_trans hbytes hbytes'⟩, hid'.trans hid, hctrl'.trans hctrl, hstatus'.trans hstatus⟩

/-- Where every register below the guest ports, of the session, and every layer and byte are as they were. -/
theorem of_regs (h : ∀ u i o : Nat, u ≠ 13 → u ≠ 23 → i < 256 → o < 0x10000 → t.reg (Machine.reg u i o) = s.reg (Machine.reg u i o))
    (hl : ∀ l, t.lay l = s.lay l) (hb : s.SameBytes t) (hn : n < 256) : s.Apart n t :=
  ⟨⟨fun _ ho _ => h _ _ _ (by omega) (by omega) hn ho, fun _ hl => h _ _ _ (by omega) (by omega) (by omega) (by omega),
    fun l hl => by rw [State.ownedSecure, State.ownedSecure, h _ _ _ (by omega) (by omega) (by omega) (by omega)],
    fun l hl o ho => h _ _ _ (by omega) (by omega) (by have := sessLayers_lt l hl; omega) ho,
    fun l _ => hl l, hb⟩,
    h _ _ _ (by omega) (by omega) hn (by omega), h _ _ _ (by omega) (by omega) hn (by omega), h _ _ _ (by omega) (by omega) hn (by omega)⟩

theorem attached (h : s.Apart n t) : t.attached n = s.attached n := by
  rw [State.attached, State.attached, State.bit, State.bit, State.get, State.get, h.status]

theorem sessActive (h : s.Apart n t) : t.sessActive n = s.sessActive n := by
  rw [State.sessActive, State.sessActive, State.get, State.get, h.ctrl]

theorem port (h : s.Apart n t) : t.get (Reg.SESS_CTRL_PORT n) = s.get (Reg.SESS_CTRL_PORT n) := by rw [State.get, State.get, h.ctrl]

theorem function (h : s.Apart n t) : t.get (Reg.SESS_CTRL_FUNC n) = s.get (Reg.SESS_CTRL_FUNC n) := by rw [State.get, State.get, h.ctrl]

end State.Apart

/-- A session detached as R53 says, its PAGE_ID kept. -/
def State.Gone (n : Nat) (s t : State) : Prop := s.Detached n t ∧ t.reg (Reg.SESS_PAGE_ID n) = s.reg (Reg.SESS_PAGE_ID n)

section
variable {n : Nat} {s t u : State}

theorem State.Gone.before (hg : u.Gone n t) (h : s.Apart n u) : s.Gone n t :=
  ⟨detached_of_before h.spares hg.1, hg.2.trans h.id⟩

/-- The layers of a session that is detached are its layers still. -/
theorem sessLayers_of_detached (hd : s.Detached n u) : ∀ l ∈ s.sessLayers n, l ∈ u.sessLayers n := by
  obtain ⟨-, -, -, -, -, -, -, -, -, -, hmine, -, -⟩ := hd
  intro l hl
  obtain ⟨-, -, -, -, -, -, -, howner⟩ := hmine l hl
  obtain ⟨hlt, hown⟩ := List.mem_filter.1 hl
  refine List.mem_filter.2 ⟨hlt, ?_⟩
  rwa [State.bit, State.get, State.get, howner]

theorem State.Gone.after (hg : s.Gone n u) (h : u.Apart n t) : s.Gone n t := by
  obtain ⟨⟨hpage, howner, hsecure, hlayer, hlay, hbytes⟩, hid, hctrl, hstatus⟩ := h
  have hm := sessLayers_of_detached hg.1
  exact ⟨detached_of_after hg.1 ⟨hpage, howner, hsecure, fun l hl => hlayer l (hm l hl), fun l hl => hlay l (hm l hl), hbytes⟩ hstatus hctrl,
    hid.trans hg.2⟩

theorem State.Gone.attached (hg : s.Gone n t) : t.attached n = false := hg.1.1

/-! ### One session looked at again -/

/-- Whether a session is to be attached (R52). -/
def State.wanted (s : State) (n : Nat) : Bool := s.sessActive n && s.funcAvailable (s.get (Reg.SESS_CTRL_PORT n)) (s.get (Reg.SESS_CTRL_FUNC n))

theorem attachCheck_eq (s : State) (n : Nat) : s.attachCheck n =
    if s.wanted n && !s.attached n then s.attach n else if !s.wanted n && s.attached n then s.detach n else s := rfl

/-- Every place but those of the guest ports and the sessions' control registers. -/
def notPort (a : Nat) : Prop := a / 0x1000000 ≠ 13 ∧ ∀ m < 256, a ≠ Reg.SESS_CTRL m

theorem notPort_reg {u i o : Nat} (hu : u ≠ 13) (hi : i < 256) (ho : o < 0x10000) (h : u = 14 → o ≠ 0x1000) : notPort (reg u i o) := by
  refine ⟨by unfold reg; omega, fun m hm e => ?_⟩
  simp only [Reg.SESS_CTRL, reg] at e
  omega

theorem detachPlaces_notPort {mine : List Nat} {a : Nat} (hn : n < 256) (hm : ∀ l ∈ mine, l < 64) (h : detachPlaces n mine a) : notPort a := by
  obtain ⟨x, hx, rfl⟩ | rfl | ⟨k, hk, rfl⟩ | ⟨k, hk, rfl | rfl⟩ | ⟨k, hk, rfl⟩ | ⟨l, hl, x, hx, rfl⟩ := h
  · exact notPort_reg (by omega) hn (by omega) (by omega)
  · exact notPort_reg (by omega) (by omega) (by omega) (by omega)
  · exact notPort_reg (by omega) (by omega) (by omega) (by omega)
  · exact notPort_reg (by omega) (by omega) (by omega) (by omega)
  · exact notPort_reg (by omega) (by omega) (by omega) (by omega)
  · exact notPort_reg (by omega) (by omega) (by omega) (by omega)
  · exact notPort_reg (by omega) (by have := hm l hl; omega) (by omega) (by omega)

theorem not_notPort_port {i o : Nat} (hi : i < 256) (ho : o < 0x10000) : ¬ notPort (reg 13 i o) := fun h => h.1 (by unfold reg; omega)

theorem not_notPort_ctrl (hn : n < 256) : ¬ notPort (Reg.SESS_CTRL n) := fun h => h.2 n hn rfl

theorem attachCheck_ports {m : Nat} (hm : m < 256) : s.Aside notPort (fun _ => True) (s.attachCheck m) :=
  (attachCheck_aside hm).mono (fun _ => detachPlaces_notPort hm sessLayers_lt) fun _ _ => trivial

/-- A layer belongs to one session at most. -/
theorem sessLayers_disjoint {m l : Nat} (hl : l ∈ s.sessLayers n) (hm : l ∈ s.sessLayers m) : m = n := by
  have hn := (List.mem_filter.1 hl).2
  have hm := (List.mem_filter.1 hm).2
  rw [Bool.and_eq_true, beq_iff_eq] at hn hm
  exact hm.2.symm.trans hn.2

/-- Another session looked at again. -/
theorem attachCheck_apart {m : Nat} (hm : m < 256) (hn : n < 256) (h0 : 0 < n) (hne : m ≠ n) : s.Apart n (s.attachCheck m) := by
  have h := attachCheck_aside (s := s) hm
  have hreg : ∀ u i o : Nat, i < 256 → o < 0x10000 → (u = 14 ∧ i = n) ∨ (u = 6 ∧ (i ∈ s.sessLayers n ∨ 0x70 ≤ o)) ∨ u = 0 →
      (s.attachCheck m).reg (reg u i o) = s.reg (reg u i o) := fun u i o hi ho hc => by
    refine h.reg _ fun hp => ?_
    obtain hp | hp | hp | hp | hp | ⟨hu, him, hlt⟩ := detachPlaces_reg hm sessLayers_lt hi ho hp
    · omega
    · omega
    · omega
    · omega
    · omega
    · obtain hc | ⟨-, hin | hge⟩ | hc := hc
      · omega
      · exact hne (sessLayers_disjoint hin him)
      · omega
      · omega
  refine ⟨⟨fun o ho _ => hreg _ _ _ hn ho (.inl ⟨rfl, rfl⟩), fun l hl => hreg _ _ _ (by omega) (by omega) (.inr (.inl ⟨rfl, .inr (by omega)⟩)),
    fun l hl => ?_, fun l hl o ho => ?_, fun l hl => h.lay l fun him => hne (sessLayers_disjoint hl him),
    attachCheck_keeps (keeps_sameBytes s) m (sameBytes_refl s)⟩, hreg _ _ _ hn (by omega) (.inl ⟨rfl, rfl⟩),
    hreg _ _ _ hn (by omega) (.inl ⟨rfl, rfl⟩), hreg _ _ _ hn (by omega) (.inl ⟨rfl, rfl⟩)⟩
  · rw [State.ownedSecure, State.ownedSecure, hreg _ _ _ (by omega) (by omega) (.inr (.inr rfl))]
  · exact hreg _ _ _ (by have := sessLayers_lt l hl; omega) ho (.inr (.inl ⟨rfl, .inl hl⟩))

/-! ### Every session of a port -/

/-- What a look at the sessions of a port leaves to one that it passes over. -/
def State.Passed (n : Nat) (s t : State) : Prop := s.Apart n t ∧ s.Aside notPort (fun _ => True) t

theorem State.Passed.refl (n : Nat) (s : State) : s.Passed n s := ⟨State.Apart.refl n s, State.Aside.refl _ _ s⟩

theorem State.Passed.trans (h : s.Passed n t) (h' : t.Passed n u) : s.Passed n u := ⟨h.1.trans h'.1, h.2.trans h'.2⟩

theorem funcAvailable_ports (h : s.Aside notPort (fun _ => True) t) {p f : Nat} (hp : p < 256) : t.funcAvailable p f = s.funcAvailable p f := by
  have hr : t.reg (Reg.GP_STATUS p) = s.reg (Reg.GP_STATUS p) := h.reg _ (not_notPort_port hp (by omega))
  rw [State.funcAvailable, State.funcAvailable, State.bit, State.bit, State.bit, State.bit, State.get, State.get, State.get, State.get,
    State.get, State.get, hr, h.inReset]

theorem State.Passed.wanted (h : s.Passed n t) : t.wanted n = s.wanted n := by
  have hp := State.get_lt s (Reg.SESS_CTRL_PORT n)
  rw [State.wanted, State.wanted, h.1.sessActive, h.1.port, h.1.function, funcAvailable_ports h.2 (Nat.lt_of_lt_of_le hp (by simp))]

theorem attachPort_ports (s : State) (p : Nat) : s.Aside notPort (fun _ => True) (s.attachPort p) := by
  unfold State.attachPort
  refine State.Aside.each _ (fun m hm t ht => ht.trans (attachCheck_ports ?_)) (State.Aside.refl _ _ s)
  obtain ⟨k, hk, rfl⟩ := List.mem_map.1 (List.mem_filter.1 hm).1
  have := List.mem_range.1 hk
  omega

/-- The sessions that a look at a port's looks at. -/
def State.portSessions (s : State) (p : Nat) : List Nat :=
  guestSessions.filter fun n => s.get (Reg.SESS_CTRL_PORT n) == p && (s.sessActive n || s.attached n)

theorem attachPort_eq (s : State) (p : Nat) : s.attachPort p = s.each (s.portSessions p) fun n t => t.attachCheck n := rfl

theorem portSessions_iff {p : Nat} (h2 : 2 ≤ n) (hn : n < 256) :
    n ∈ s.portSessions p ↔ s.get (Reg.SESS_CTRL_PORT n) = p ∧ (s.sessActive n = true ∨ s.attached n = true) := by
  have hg : n ∈ guestSessions := List.mem_map.2 ⟨n - 2, List.mem_range.2 (by omega), by omega⟩
  simp [State.portSessions, hg]

theorem portSessions_lt {p m : Nat} (h : m ∈ s.portSessions p) : m < 256 := by
  obtain ⟨k, hk, rfl⟩ := List.mem_map.1 (List.mem_filter.1 h).1
  have := List.mem_range.1 hk
  omega

theorem portSessions_nodup (p : Nat) : (s.portSessions p).Nodup :=
  (List.nodup_range.map fun a b (h : a + 2 = b + 2) => by omega).filter _

/-- A session that a look at a port's passes over. -/
theorem attachPort_passed {p : Nat} (hn : n < 256) (h0 : 0 < n) (h : n ∉ s.portSessions p) : s.Passed n (s.attachPort p) := by
  refine ⟨?_, attachPort_ports s p⟩
  rw [attachPort_eq]
  exact State.each_related (State.Apart.refl n) (fun _ _ _ => State.Apart.trans)
    (fun m hm t => attachCheck_apart (portSessions_lt hm) hn h0 fun e => h (e ▸ hm)) s

/-- A session that a look at a port's comes to. -/
theorem attachPort_around {p : Nat} (hn : n < 256) (h0 : 0 < n) (h : n ∈ s.portSessions p) :
    ∃ w, s.Passed n w ∧ (w.attachCheck n).Passed n (s.attachPort p) := by
  rw [attachPort_eq]
  exact State.each_around (State.Passed.refl n) (fun _ _ _ => State.Passed.trans) h (portSessions_nodup p) s
    fun m hm hne t => ⟨attachCheck_apart (portSessions_lt hm) hn h0 hne, attachCheck_ports (portSessions_lt hm)⟩

theorem attach_attached (s : State) (n : Nat) : (s.attach n).attached n = true := by
  have hr : (s.attach n).regs = (s.set (Reg.SESS_STATUS_ATTACHED n) 1).regs := rfl
  have h := State.get_set_same s (Reg.SESS_STATUS_ATTACHED n) 1 (Nat.le_of_ble_eq_true rfl)
  rw [State.get] at h
  rw [State.attached, State.bit, State.get, State.reg_congr hr, h]
  rfl

/-- R52, R53: what a look at a port's sessions does to one of them. -/
theorem attachPort_session {p : Nat} (h2 : 2 ≤ n) (hn : n < 256) (hp : s.get (Reg.SESS_CTRL_PORT n) = p) :
    (s.attachPort p).attached n = s.wanted n ∧ (s.attached n = true → s.wanted n = false → s.Gone n (s.attachPort p)) ∧
      (s.attached n = s.wanted n → s.Passed n (s.attachPort p)) := by
  have h0 : 0 < n := by omega
  by_cases hm : n ∈ s.portSessions p
  · obtain ⟨w, hw, hend⟩ := attachPort_around hn h0 hm
    have heq := attachCheck_eq w n
    rw [hw.wanted, hw.1.attached] at heq
    cases hwant : s.wanted n <;> cases hatt : s.attached n
    · rw [hwant, hatt, if_neg (by simp), if_neg (by simp)] at heq
      rw [heq] at hend
      exact ⟨(hend.1.attached.trans hw.1.attached).trans hatt, fun h => absurd h (by simp), fun _ => hw.trans hend⟩
    · rw [hwant, hatt, if_neg (by simp), if_pos (by simp)] at heq
      rw [heq] at hend
      have hgone : s.Gone n (s.attachPort p) := (State.Gone.before (detach_detached hn h0) hw.1).after hend.1
      exact ⟨hgone.attached, fun _ _ => hgone, fun h => absurd h (by simp)⟩
    · rw [hwant, hatt, if_pos (by simp)] at heq
      rw [heq] at hend
      exact ⟨hend.1.attached.trans (attach_attached w n), fun h => absurd h (by simp), fun h => absurd h (by simp)⟩
    · rw [hwant, hatt, if_neg (by simp), if_neg (by simp)] at heq
      rw [heq] at hend
      exact ⟨(hend.1.attached.trans hw.1.attached).trans hatt, fun _ h => absurd h (by simp), fun _ => hw.trans hend⟩
  · have hpass := attachPort_passed hn h0 hm
    rw [portSessions_iff h2 hn, not_and, not_or, Bool.not_eq_true, Bool.not_eq_true] at hm
    obtain ⟨hact, hatt⟩ := hm hp
    have hwant : s.wanted n = false := by rw [State.wanted, hact, Bool.false_and]
    exact ⟨hpass.1.attached.trans (hatt.trans hwant.symm), fun h => absurd (hatt.symm.trans h) (by simp), fun _ => hpass⟩

end

end Sys2Proof.Machine
end

section
/-! PROOF. O17: the links of guest ports, and the sessions that they attach and detach. -/

namespace Sys2Proof.Machine

/-! ### What an event of a port does beside looking at its sessions -/

/-- State `t` differs from `s` in no register but those of the guest ports and of the interrupt sources, and in no layer and no byte. -/
structure State.Ported (s t : State) : Prop where
  reg : ∀ u i o : Nat, u ≠ 13 → u ≠ 23 → i < 256 → o < 0x10000 → t.reg (Machine.reg u i o) = s.reg (Machine.reg u i o)
  lay : ∀ l, t.lay l = s.lay l
  bytes : s.SameBytes t

namespace State.Ported

variable {s t u : State} {p : Nat}

theorem refl (s : State) : s.Ported s := ⟨fun _ _ _ _ _ _ _ => rfl, fun _ => rfl, sameBytes_refl s⟩

theorem trans (h : s.Ported t) (h' : t.Ported u) : s.Ported u :=
  ⟨fun x i o h1 h2 hi ho => (h'.reg x i o h1 h2 hi ho).trans (h.reg x i o h1 h2 hi ho), fun l => (h'.lay l).trans (h.lay l), sameBytes_trans h.bytes h'.bytes⟩

theorem set (h : s.Ported t) {f : Fld} (v : Nat) (hp : p < 256) (hf : f.addr = Reg.GP_STATUS p) : s.Ported (t.set f v) := by
  refine h.trans ⟨fun x i o h1 _ hi ho => ?_, fun _ => rfl, sameBytes_refl t⟩
  rw [State.reg_set, if_neg]
  rw [hf]
  simp only [Reg.GP_STATUS, Machine.reg]
  omega

theorem setFunc (h : s.Ported t) (f : Nat) (r : FuncState) : s.Ported (t.setFunc f r) :=
  h.trans ⟨fun _ _ _ _ _ _ _ => rfl, fun _ => rfl, sameBytes_refl t⟩

theorem event (h : s.Ported t) {flag events : Fld} {k : Nat} (hp : p < 256) (hf : flag.addr = Reg.GP_STATUS p)
    (he : events.addr = Reg.GP_STATUS p) : s.Ported (t.event flag events k) := by
  have hq := (State.Aside.refl (fun a => ∃ k ≤ 479, a = Reg.IC_SRC k) (fun _ => False) ((t.set flag 1).count events)).raiseIrq (k := k)
    fun hk => ⟨k, hk, rfl⟩
  refine ((h.set 1 hp hf).set _ hp he).trans ⟨fun x i o _ h2 hi ho => hq.reg _ ?_, fun l => hq.lay l id,
    raiseIrq_keeps (keeps_sameBytes _) k (sameBytes_refl _)⟩
  rintro ⟨j, hj, e⟩
  simp only [Reg.IC_SRC, Machine.reg] at e
  omega

theorem apart (h : s.Ported t) {n : Nat} (hn : n < 256) : s.Apart n t := State.Apart.of_regs h.reg h.lay h.bytes hn

end State.Ported

/-! ### Functions one after another -/

section
variable {s : State} {p : Nat}

/-- Every listed function of a port changed. -/
def State.mapFuncs (s : State) (p : Nat) (g : FuncState → FuncState) (l : List Nat) : State :=
  s.each l fun f t => t.setFunc (p * 16 + f) (g (t.func (p * 16 + f)))

theorem mapFuncs_mem (g : FuncState → FuncState) {l : List Nat} (hn : l.Nodup) {k : Nat} (hk : k ∈ l) :
    (s.mapFuncs p g l).func (p * 16 + k) = g (s.func (p * 16 + k)) := by
  obtain ⟨w, hw, hend⟩ := State.each_around (R := fun s t => t.func (p * 16 + k) = s.func (p * 16 + k)) (fun _ => rfl)
    (fun _ _ _ h h' => h'.trans h) hk hn s
    (f := fun f t => t.setFunc (p * 16 + f) (g (t.func (p * 16 + f)))) fun y _ hy t => by rw [State.func_setFunc, if_neg (by omega)]
  rw [State.mapFuncs, hend, State.func_setFunc, if_pos rfl, hw]

theorem mapFuncs_other (g : FuncState → FuncState) {l : List Nat} {k : Nat} (hk : k ∉ l) :
    (s.mapFuncs p g l).func (p * 16 + k) = s.func (p * 16 + k) :=
  State.each_related (R := fun s t => t.func (p * 16 + k) = s.func (p * 16 + k)) (fun _ => rfl) (fun _ _ _ h h' => h'.trans h)
    (fun y hy t => by rw [State.func_setFunc, if_neg (fun e : p * 16 + k = p * 16 + y => hk ((show y = k by omega) ▸ hy))]) s

theorem mapFuncs_ported (g : FuncState → FuncState) (l : List Nat) (s : State) : s.Ported (s.mapFuncs p g l) :=
  State.each_related State.Ported.refl (fun _ _ _ => State.Ported.trans) (fun _ _ t => (State.Ported.refl t).setFunc _ _) s

theorem mapFuncs_reg (g : FuncState → FuncState) (l : List Nat) (s : State) (a : Nat) : (s.mapFuncs p g l).reg a = s.reg a :=
  State.each_related (f := fun f t => t.setFunc (p * 16 + f) (g (t.func (p * 16 + f)))) (R := fun s t => t.reg a = s.reg a) (fun _ => rfl)
    (fun _ _ _ h h' => h'.trans h) (fun _ _ _ => rfl) s

end

theorem beside_each {α : Type} {f : α → State → State} (l : List α) (h : ∀ x, Beside (f x)) : Beside fun t => t.each l f := by
  induction l with
  | nil => exact fun _ _ => rfl
  | cons x xs ih => exact fun t r => (congrArg (fun u : State => u.each xs f) (h x t r)).trans (ih (f x t) r)

/-! ### A session that an event detaches, and one that it passes over -/

/-- A session that is not attached any more, and that was detached as R53 says where it was attached before. -/
structure State.Ended (n : Nat) (s t : State) : Prop where
  out : t.attached n = false
  gone : s.attached n = true → s.Gone n t
  ctrl : t.reg (Reg.SESS_CTRL n) = s.reg (Reg.SESS_CTRL n)

section
variable {n p : Nat} {s t u : State}

theorem State.Ended.before (h : s.Apart n u) (he : u.Ended n t) : s.Ended n t :=
  ⟨he.out, fun hs => (he.gone (h.attached.trans hs)).before h, he.ctrl.trans h.ctrl⟩

theorem State.Ended.after (he : s.Ended n u) (h : u.Apart n t) : s.Ended n t :=
  ⟨h.attached.trans he.out, fun hs => (he.gone hs).after h, h.ctrl.trans he.ctrl⟩

theorem attachPort_ctrl (hn : n < 256) : (s.attachPort p).reg (Reg.SESS_CTRL n) = s.reg (Reg.SESS_CTRL n) :=
  (attachPort_ports s p).reg _ (not_notPort_ctrl hn)

/-- A look that ends a session's attachment, or finds none. -/
theorem attachPort_ended (h2 : 2 ≤ n) (hn : n < 256) (hp : s.get (Reg.SESS_CTRL_PORT n) = p) (hw : s.wanted n = false) :
    s.Ended n (s.attachPort p) := by
  obtain ⟨hatt, hgone, -⟩ := attachPort_session h2 hn hp
  exact ⟨hatt.trans hw, fun hs => hgone hs hw, attachPort_ctrl hn⟩

/-- A look that finds an attachment that has ended. -/
theorem State.Ended.look (he : s.Ended n u) (h2 : 2 ≤ n) (hn : n < 256) (hp : u.get (Reg.SESS_CTRL_PORT n) = p) (hw : u.wanted n = false) :
    s.Ended n (u.attachPort p) :=
  he.after ((attachPort_session h2 hn hp).2.2 (he.out.trans hw.symm)).1

theorem attachPort_other (hn : n < 256) (h2 : 2 ≤ n) (hp : s.get (Reg.SESS_CTRL_PORT n) ≠ p) : s.Apart n (s.attachPort p) :=
  (attachPort_passed hn (by omega) fun hm => hp ((portSessions_iff h2 hn).1 hm).1).1

end

/-! ### The link (R43) -/

/-- Every function of a port out of its reset. -/
def State.funcsUp (s : State) (p : Nat) : State := s.mapFuncs p (fun r => { r with inReset := false }) (List.range 16)

theorem funcsUp_beside (p : Nat) : Beside (·.funcsUp p) := beside_each _ fun _ _ _ => rfl

/-- The fields of GP_n_STATUS at a link in L0. -/
def State.linkFields (s : State) (p sp wd : Nat) : List (Fld × Nat) :=
  [(Reg.GP_STATUS_WIDTH p, 2 ^ wd), (Reg.GP_STATUS_SPEED p, min sp (s.get (Reg.GP_CTRL_MAX_SPEED p))), (Reg.GP_STATUS_PERST p, 0),
    (Reg.GP_STATUS_LINK_UP p, 1)]

/-- The state of a link in L0 before its sessions are looked at. -/
def State.linked (s : State) (p sp wd : Nat) : State :=
  let s := (s.set (Reg.GP_STATUS_LINK_UP p) 1).set (Reg.GP_STATUS_PERST p) 0
  ((s.set (Reg.GP_STATUS_SPEED p) (min sp (s.get (Reg.GP_CTRL_MAX_SPEED p)))).set (Reg.GP_STATUS_WIDTH p) (2 ^ wd)).funcsUp p

section
variable {s : State} {p : Fin 4}

theorem exec_gpLinks (s : State) (p sp : Fin 4) (wd : Fin 3) (f : Fin 16) (l2 : Bool) : exec (.gpLinkUp p sp wd) s = .next (s.gpUp p sp wd) ∧
    exec (.gpLinkDown p l2) s = .next (s.gpDown p l2) ∧ exec (.flr p f) s = .next (s.flr p f) ∧
    exec (.perstAssert p) s = .next (s.perst p) := ⟨rfl, rfl, rfl, rfl⟩

theorem gpUp_eq {sp wd : Nat} (h : s.bit (Reg.GP_CTRL_EN p) = true) : s.gpUp p sp wd = (s.linked p sp wd).attachPort p := by
  rw [State.gpUp, if_neg (by simp [h])]
  rfl

theorem gpUp_disabled {sp wd : Nat} (h : s.bit (Reg.GP_CTRL_EN p) = false) : s.gpUp p sp wd = s := by
  rw [State.gpUp, if_pos (by simp [h])]

theorem setsOnly_linked (sp wd : Nat) : (s.funcsUp p).SetsOnly (s.linkFields p sp wd) (s.linked p sp wd) := by
  have h := setsOnly_set (setsOnly_set (setsOnly_refl s) (Reg.GP_STATUS_LINK_UP p) 1) (Reg.GP_STATUS_PERST p) 0
  have hs : ((s.set (Reg.GP_STATUS_LINK_UP p) 1).set (Reg.GP_STATUS_PERST p) 0).get (Reg.GP_CTRL_MAX_SPEED p) = s.get (Reg.GP_CTRL_MAX_SPEED p) :=
    h.get_apart (Nat.le_of_ble_eq_true rfl) (by simp)
  have h2 := setsOnly_set (setsOnly_set h (Reg.GP_STATUS_SPEED p) (min sp (s.get (Reg.GP_CTRL_MAX_SPEED p)))) (Reg.GP_STATUS_WIDTH p) (2 ^ wd)
  rw [← hs] at h2
  have h3 := setsOnly_beside (funcsUp_beside p) h2
  rw [hs] at h3
  rw [State.linked, hs]
  exact h3

theorem funcsUp_ported (s : State) : s.Ported (s.funcsUp p) := mapFuncs_ported _ _ s

/-- R43: the link of an enabled port reaches L0. -/
theorem gpUp_links (h : s.bit (Reg.GP_CTRL_EN p) = true) (sp : Fin 4) (wd : Fin 3) :
    DoesThen (.gpLinkUp p sp wd) s (s.funcsUp p) (s.linkFields p sp wd) (·.attachPort p) := by
  have hup := (exec_gpLinks s p sp wd 0 false).1
  rw [gpUp_eq h] at hup
  exact ⟨_, setsOnly_linked sp wd, hup⟩

theorem linked_ported (sp wd : Nat) : s.Ported (s.linked p sp wd) := by
  have hp : p.val < 256 := by omega
  have h := ((State.Ported.refl s).set (f := Reg.GP_STATUS_LINK_UP p) 1 hp rfl).set (f := Reg.GP_STATUS_PERST p) 0 hp rfl
  rw [State.linked]
  exact ((h.set (f := Reg.GP_STATUS_SPEED p) _ hp rfl).set (f := Reg.GP_STATUS_WIDTH p) (2 ^ wd) hp rfl).trans (funcsUp_ported _)

theorem funcsUp_reg (a : Nat) : (s.funcsUp p).reg a = s.reg a := mapFuncs_reg _ _ s a

/-- R52: after its link reaches L0 a session is wanted that is ACTIVE on an enabled function. -/
theorem linked_wanted {n : Fin 256} (sp wd : Nat) (hp : s.get (Reg.SESS_CTRL_PORT n) = p) :
    (s.linked p sp wd).wanted n = (s.sessActive n && decide (s.get (Reg.SESS_CTRL_FUNC n) ≤ s.get (Reg.GP_STATUS_NUM_VFS p))) := by
  have ha := (linked_ported (s := s) (p := p) sp wd).apart n.isLt
  have h := setsOnly_linked (s := s) (p := p) sp wd
  have hup : (s.linked p sp wd).get (Reg.GP_STATUS_LINK_UP p) = 1 :=
    h.get_mem (v := 1) (by simp [State.linkFields]) (Nat.le_of_ble_eq_true rfl) (by simp [State.linkFields])
  have hperst : (s.linked p sp wd).get (Reg.GP_STATUS_PERST p) = 0 :=
    h.get_mem (v := 0) (by simp [State.linkFields]) (Nat.le_of_ble_eq_true rfl) (by simp [State.linkFields])
  have hvfs : (s.linked p sp wd).get (Reg.GP_STATUS_NUM_VFS p) = s.get (Reg.GP_STATUS_NUM_VFS p) := by
    rw [h.get_apart (Nat.le_of_ble_eq_true rfl) (by simp [State.linkFields]), State.get, State.get, funcsUp_reg]
  have hfunc : ((s.linked p sp wd).func (p * 16 + s.get (Reg.SESS_CTRL_FUNC n))).inReset = false := by
    rw [h.proj State.func fun _ _ => rfl]
    exact congrArg FuncState.inReset (mapFuncs_mem (fun r => { r with inReset := false }) List.nodup_range
      (List.mem_range.2 (State.get_lt s (Reg.SESS_CTRL_FUNC n))))
  rw [State.wanted, ha.sessActive, ha.port, ha.function, hp, State.funcAvailable, State.bit, State.bit, hup, hperst, hvfs, hfunc]
  simp

/-- The state of a link that has left L0. -/
def State.unlinked (s : State) (p : Nat) : State :=
  ((s.set (Reg.GP_STATUS_LINK_UP p) 0).set (Reg.GP_STATUS_WIDTH p) 0).set (Reg.GP_STATUS_SPEED p) 0

theorem gpDown_up (h : s.bit (Reg.GP_STATUS_LINK_UP p) = true) : s.gpDown p true = s.unlinked p ∧
    s.gpDown p false = ((s.unlinked p).gpEvent p (Reg.GP_STATUS_LINK_DOWN_EVT p)).attachPort p := by
  constructor <;> rw [State.gpDown, if_neg (by simp [h])] <;> rfl

theorem gpDown_down (h : s.bit (Reg.GP_STATUS_LINK_UP p) = false) (l2 : Bool) : s.gpDown p l2 = s := by
  rw [State.gpDown, if_pos (by simp [h])]

theorem setsOnly_unlinked : s.SetsOnly [(Reg.GP_STATUS_SPEED p, 0), (Reg.GP_STATUS_WIDTH p, 0), (Reg.GP_STATUS_LINK_UP p, 0)] (s.unlinked p) :=
  setsOnly_set (setsOnly_set (setsOnly_set (setsOnly_refl s) _ _) _ _) _ _

theorem setsOnly_linkDown (hk : s.SourceFree (59 + p)) : s.SetsOnly
    [(Reg.IC_SRC_PENDING (59 + p), 1), (Reg.GP_STATUS_EVENTS p, s.more (Reg.GP_STATUS_EVENTS p)), (Reg.GP_STATUS_LINK_DOWN_EVT p, 1),
      (Reg.GP_STATUS_SPEED p, 0), (Reg.GP_STATUS_WIDTH p, 0), (Reg.GP_STATUS_LINK_UP p, 0)]
    ((s.unlinked p).gpEvent p (Reg.GP_STATUS_LINK_DOWN_EVT p)) := by
  have hu : ∀ p : Fin 4, sourceUsed (59 + p) = true := by decide +kernel
  have h := setsOnly_event (flag := Reg.GP_STATUS_LINK_DOWN_EVT p) (events := Reg.GP_STATUS_EVENTS p) (setsOnly_unlinked (s := s) (p := p)) (hu p) hk
    (Nat.le_of_ble_eq_true rfl) (.inr (Nat.le_of_ble_eq_true rfl))
  have hm : (s.unlinked p).more (Reg.GP_STATUS_EVENTS p) = s.more (Reg.GP_STATUS_EVENTS p) := by
    rw [State.more, (setsOnly_unlinked (s := s) (p := p)).get_apart (Nat.le_of_ble_eq_true rfl) (by simp)]
    rfl
  rwa [hm] at h

/-! ### What an event shows -/

/-- An event leaves the fields of its register but its flag and its count. -/
theorem gpEvent_get (s : State) (p : Fin 4) {flag f : Fld} (hf : f.addr = Reg.GP_STATUS p) (hw : f.lo + f.width ≤ 24)
    (hd : f.lo + f.width ≤ flag.lo ∨ flag.lo + flag.width ≤ f.lo) : (s.gpEvent p flag).get f = s.get f := by
  have hk : 59 + p.val ≤ 479 → f.addr ≠ Reg.IC_SRC (59 + p) := fun _ => by rw [hf]; simp only [Reg.GP_STATUS, Reg.IC_SRC, reg]; omega
  rw [State.gpEvent, State.get_event _ _ _ _ _ hk, State.count, State.get_set_apart _ _ _ _ (by omega) (.inl hw),
    State.get_set_apart _ _ _ _ (by omega) hd]

theorem gpEvent_shows (s : State) (p : Fin 4) {flag : Fld} (hf : flag.addr = Reg.GP_STATUS p) (hw : flag.lo + flag.width ≤ 24) (h1 : 0 < flag.width) :
    (s.gpEvent p flag).bit flag = true ∧ (s.gpEvent p flag).get (Reg.GP_STATUS_EVENTS p) = s.more (Reg.GP_STATUS_EVENTS p) := by
  have hk : ∀ f : Fld, f.addr = Reg.GP_STATUS p → 59 + p.val ≤ 479 → f.addr ≠ Reg.IC_SRC (59 + p) := fun f hf _ => by
    rw [hf]; simp only [Reg.GP_STATUS, Reg.IC_SRC, reg]; omega
  constructor
  · rw [State.bit, State.gpEvent, State.get_event _ _ _ _ _ (hk _ hf), State.count, State.get_set_apart _ _ _ _ (by omega) (.inl hw),
      State.get_set_same _ _ _ (by omega), Nat.mod_eq_of_lt (Nat.one_lt_two_pow (by omega))]
    rfl
  · rw [State.gpEvent, State.get_event _ _ _ _ _ (hk _ rfl), State.count, State.get_set_same _ _ _ (Nat.le_of_ble_eq_true rfl),
      State.get_set_apart _ _ _ _ (Nat.le_of_ble_eq_true rfl) (.inr hw)]
    exact Nat.mod_eq_of_lt (show satAdd 8 _ _ < 2 ^ 8 by unfold satAdd; omega)

theorem gpEvent_ported {t : State} (h : s.Ported t) {flag : Fld} (hf : flag.addr = Reg.GP_STATUS p) : s.Ported (t.gpEvent p flag) :=
  h.event (by omega) hf rfl

theorem unlinked_ported : s.Ported (s.unlinked p) := by
  have hp : p.val < 256 := by omega
  exact (((State.Ported.refl s).set (f := Reg.GP_STATUS_LINK_UP p) 0 hp rfl).set (f := Reg.GP_STATUS_WIDTH p) 0 hp rfl).set
    (f := Reg.GP_STATUS_SPEED p) 0 hp rfl

theorem linkDown_ported : s.Ported ((s.unlinked p).gpEvent p (Reg.GP_STATUS_LINK_DOWN_EVT p)) := gpEvent_ported unlinked_ported rfl

theorem linkDown_get {f : Fld} (hf : f.addr = Reg.GP_STATUS p) (hw : f.lo + f.width ≤ 24)
    (hd : f.lo + f.width ≤ (Reg.GP_STATUS_LINK_DOWN_EVT p).lo ∨ (Reg.GP_STATUS_LINK_DOWN_EVT p).lo + 1 ≤ f.lo) :
    ((s.unlinked p).gpEvent p (Reg.GP_STATUS_LINK_DOWN_EVT p)).get f = (s.unlinked p).get f := gpEvent_get _ p hf hw hd

/-- No session is wanted on a link that is not in L0, or whose PERST_N is asserted. -/
theorem wanted_of_port {n : Nat} (hp : s.get (Reg.SESS_CTRL_PORT n) = p)
    (h : s.bit (Reg.GP_STATUS_LINK_UP p) = false ∨ s.bit (Reg.GP_STATUS_PERST p) = true) : s.wanted n = false := by
  rw [State.wanted, State.funcAvailable, hp]
  obtain h | h := h <;> simp [h]

theorem wanted_of_func {n : Nat} (hp : s.get (Reg.SESS_CTRL_PORT n) = p) (h : s.funcAvailable p (s.get (Reg.SESS_CTRL_FUNC n)) = false) :
    s.wanted n = false := by
  rw [State.wanted, hp, h, Bool.and_false]

end

/-! ### Fewer virtual functions -/

section
variable {s u : State} {p : Fin 4} {n : Nat}

theorem attachPort_status (s : State) (p q : Nat) {f : Fld} (hq : q < 256) (hf : f.addr = Reg.GP_STATUS q) : (s.attachPort p).get f = s.get f := by
  refine (attachPort_ports s p).get ?_
  rw [hf]
  exact not_notPort_port hq (by omega)

/-- The virtual functions that are disabled, with NumVFs at 0. -/
def vfsAbove (old : Nat) : List Nat := (List.range 16).filter fun f => decide (0 < f ∧ f ≤ old)

theorem setVfs_eq (s : State) (p : Nat) : s.setVfs p 0 =
    ((s.set (Reg.GP_STATUS_NUM_VFS p) 0).attachPort p).mapFuncs p (fun _ => {}) (vfsAbove (s.get (Reg.GP_STATUS_NUM_VFS p))) := rfl

theorem setVfs_get {f : Fld} (hf : f.addr = Reg.GP_STATUS p) : (s.setVfs p 0).get f = (s.set (Reg.GP_STATUS_NUM_VFS p) 0).get f := by
  rw [setVfs_eq, State.get, mapFuncs_reg]
  exact attachPort_status _ _ p (by omega) hf

theorem setVfs_none : (s.setVfs p 0).get (Reg.GP_STATUS_NUM_VFS p) = 0 :=
  (setVfs_get rfl).trans (State.get_set_same _ _ _ (Nat.le_of_ble_eq_true rfl))

theorem setVfs_status {f : Fld} (hf : f.addr = Reg.GP_STATUS p) (hw : f.lo + f.width ≤ 32) (hd : f.lo + f.width ≤ 8 ∨ 12 ≤ f.lo) :
    (s.setVfs p 0).get f = s.get f :=
  (setVfs_get hf).trans (State.get_set_apart _ _ _ _ hw hd)

/-- The physical function, at rest, is left. -/
theorem setVfs_func (hm : (s.func (p * 16 + 0)).msixOn = false) (hi : (s.func (p * 16 + 0)).ingress = []) :
    (s.setVfs p 0).func (p * 16 + 0) = s.func (p * 16 + 0) := by
  rw [setVfs_eq, mapFuncs_other _ (by simp [vfsAbove])]
  exact (attachPort_ports _ _).func _ hm hi

theorem noVfs_ported (s : State) : s.Ported (s.set (Reg.GP_STATUS_NUM_VFS p) 0) :=
  (State.Ported.refl s).set (f := Reg.GP_STATUS_NUM_VFS p) 0 (show p.val < 256 by omega) rfl

section
variable (h2 : 2 ≤ n) (hn : n < 256)
include h2 hn

/-- The look at the sessions of a port whose virtual functions are disabled. -/
theorem setVfs_ended (hp : s.get (Reg.SESS_CTRL_PORT n) = p) (hw : (s.set (Reg.GP_STATUS_NUM_VFS p) 0).wanted n = false) :
    s.Ended n (s.setVfs p 0) := by
  have ha := (noVfs_ported (p := p) s).apart hn
  rw [setVfs_eq]
  exact ((attachPort_ended h2 hn (ha.port.trans hp) hw).before ha).after ((mapFuncs_ported _ _ _).apart hn)

theorem State.Ended.setVfs (he : s.Ended n u) (hp : u.get (Reg.SESS_CTRL_PORT n) = p)
    (hw : (u.set (Reg.GP_STATUS_NUM_VFS p) 0).wanted n = false) : s.Ended n (u.setVfs p 0) := by
  have ha := (noVfs_ported (p := p) u).apart hn
  rw [setVfs_eq]
  exact ((he.after ha).look h2 hn (ha.port.trans hp) hw).after ((mapFuncs_ported _ _ _).apart hn)

theorem setVfs_other (hp : s.get (Reg.SESS_CTRL_PORT n) ≠ p) : s.Apart n (s.setVfs p 0) := by
  have ha := (noVfs_ported (p := p) s).apart hn
  rw [setVfs_eq]
  exact (ha.trans (attachPort_other hn h2 (by rwa [ha.port]))).trans ((mapFuncs_ported _ _ _).apart hn)

end

theorem State.Ended.port (he : s.Ended n u) : u.get (Reg.SESS_CTRL_PORT n) = s.get (Reg.SESS_CTRL_PORT n) := by
  rw [State.get, State.get, he.ctrl]

theorem State.Ended.function (he : s.Ended n u) : u.get (Reg.SESS_CTRL_FUNC n) = s.get (Reg.SESS_CTRL_FUNC n) := by
  rw [State.get, State.get, he.ctrl]

end

/-! ### A function-level reset -/

/-- The state of a function-level reset before the sessions are looked at. -/
def State.flrHeld (s : State) (p f : Nat) : State :=
  (s.gpEvent p (Reg.GP_STATUS_FLR_EVT p)).setFunc (p * 16 + f) { (s.gpEvent p (Reg.GP_STATUS_FLR_EVT p)).func (p * 16 + f) with inReset := true }

/-- The state of a function-level reset before the virtual functions are disabled. -/
def State.flrReset (s : State) (p f : Nat) : State := ((s.flrHeld p f).attachPort p).setFunc (p * 16 + f) { inReset := true }

section
variable {s : State} {p : Fin 4} {f : Fin 16} {n : Nat}

theorem flr_available (h : s.funcAvailable p f = true) : s.flr p f = if f.val = 0 then (s.flrReset p f).setVfs p 0 else s.flrReset p f := by
  rw [State.flr, if_neg (by simp [h])]
  rfl

theorem flr_unavailable (h : s.funcAvailable p f = false) : s.flr p f = s := by
  rw [State.flr, if_pos (by simp [h])]

theorem flrReset_status {g : Fld} (hg : g.addr = Reg.GP_STATUS p) :
    (s.flrReset p f).get g = (s.gpEvent p (Reg.GP_STATUS_FLR_EVT p)).get g :=
  attachPort_status _ _ p (by omega) hg

theorem flrReset_func : (s.flrReset p f).func (p * 16 + f) = { inReset := true } := by
  rw [State.flrReset, State.func_setFunc, if_pos rfl]

theorem flr_func (h : s.funcAvailable p f = true) : (s.flr p f).func (p * 16 + f) = { inReset := true } := by
  rw [flr_available h]
  split
  · next h0 =>
    obtain rfl : f = 0 := Fin.ext h0
    have hf := flrReset_func (s := s) (p := p) (f := 0)
    exact (setVfs_func (congrArg FuncState.msixOn hf) (congrArg FuncState.ingress hf)).trans hf
  · exact flrReset_func

theorem flr_status (h : s.funcAvailable p f = true) : (s.flr p f).bit (Reg.GP_STATUS_FLR_EVT p) = true ∧
    (s.flr p f).get (Reg.GP_STATUS_EVENTS p) = s.more (Reg.GP_STATUS_EVENTS p) ∧
    (s.flr p f).get (Reg.GP_STATUS_NUM_VFS p) = (if f.val = 0 then 0 else s.get (Reg.GP_STATUS_NUM_VFS p)) ∧
    (s.flr p f).get (Reg.GP_STATUS_LINK_UP p) = s.get (Reg.GP_STATUS_LINK_UP p) := by
  obtain ⟨hevt, hcount⟩ := gpEvent_shows s p (flag := Reg.GP_STATUS_FLR_EVT p) rfl (Nat.le_of_ble_eq_true rfl) Nat.one_pos
  have hkeep : ∀ g : Fld, g.addr = Reg.GP_STATUS p → g.lo + g.width ≤ 32 → g.lo + g.width ≤ 8 ∨ 12 ≤ g.lo →
      (s.flr p f).get g = (s.gpEvent p (Reg.GP_STATUS_FLR_EVT p)).get g := fun g hg hw hd => by
    rw [flr_available h]
    split
    · rw [setVfs_status hg hw hd, flrReset_status hg]
    · exact flrReset_status hg
  refine ⟨?_, ?_, ?_, ?_⟩
  · rw [State.bit, hkeep _ rfl (Nat.le_of_ble_eq_true rfl) (.inr (Nat.le_of_ble_eq_true rfl))]
    exact hevt
  · rw [hkeep _ rfl (Nat.le_of_ble_eq_true rfl) (.inr (Nat.le_of_ble_eq_true rfl)), hcount]
  · rw [flr_available h]
    split
    · exact setVfs_none
    · rw [flrReset_status rfl, gpEvent_get s p rfl (Nat.le_of_ble_eq_true rfl) (.inl (Nat.le_of_ble_eq_true rfl))]
  · rw [hkeep _ rfl (Nat.le_of_ble_eq_true rfl) (.inl (Nat.le_of_ble_eq_true rfl)),
      gpEvent_get s p rfl (Nat.le_of_ble_eq_true rfl) (.inl (Nat.le_of_ble_eq_true rfl))]

theorem flrHeld_ported (s : State) : s.Ported (s.flrHeld p f) := (gpEvent_ported (State.Ported.refl s) rfl).setFunc _ _

section
variable (h2 : 2 ≤ n) (hn : n < 256)
include h2 hn

theorem flrReset_other (hp : s.get (Reg.SESS_CTRL_PORT n) ≠ p) : s.Apart n (s.flrReset p f) := by
  have ha := (flrHeld_ported (p := p) (f := f) s).apart hn
  exact (ha.trans (attachPort_other hn h2 (by rwa [ha.port]))).trans (((State.Ported.refl _).setFunc _ _).apart hn)

theorem flr_other (hp : s.get (Reg.SESS_CTRL_PORT n) ≠ p) : s.Apart n (s.flr p f) := by
  cases h : s.funcAvailable p f with
  | false =>
    rw [flr_unavailable h]
    exact State.Apart.refl n s
  | true =>
    have ha := flrReset_other (f := f) h2 hn hp
    rw [flr_available h]
    split
    · exact ha.trans (setVfs_other h2 hn (by rwa [ha.port]))
    · exact ha

/-- A session that is not wanted while its function is held in reset. -/
theorem flrReset_ended (hp : s.get (Reg.SESS_CTRL_PORT n) = p) (hw : (s.flrHeld p f).wanted n = false) : s.Ended n (s.flrReset p f) := by
  have ha := (flrHeld_ported (p := p) (f := f) s).apart hn
  exact ((attachPort_ended h2 hn (ha.port.trans hp) hw).before ha).after (((State.Ported.refl _).setFunc _ _).apart hn)

omit h2 in
theorem flrReset_ctrl : (s.flrReset p f).reg (Reg.SESS_CTRL n) = s.reg (Reg.SESS_CTRL n) :=
  (attachPort_ctrl hn).trans ((flrHeld_ported (p := p) (f := f) s).apart hn).ctrl

omit h2 in
theorem flrReset_port (hp : s.get (Reg.SESS_CTRL_PORT n) = p) : (s.flrReset p f).get (Reg.SESS_CTRL_PORT n) = p := by
  rw [State.get, flrReset_ctrl hn]
  exact hp

omit h2 in
/-- No session is wanted once the physical function is held in reset and the virtual functions are disabled. -/
theorem wanted_flrReset (h0 : f.val = 0) (hp : s.get (Reg.SESS_CTRL_PORT n) = p) :
    ((s.flrReset p f).set (Reg.GP_STATUS_NUM_VFS p) 0).wanted n = false := by
  have ha := (noVfs_ported (p := p) (s.flrReset p f)).apart hn
  refine wanted_of_func (ha.port.trans (flrReset_port hn hp)) ?_
  rw [State.funcAvailable, State.get_set_same _ _ _ (Nat.le_of_ble_eq_true rfl), ha.function]
  by_cases hz : (s.flrReset p f).get (Reg.SESS_CTRL_FUNC n) = 0
  · have hf : ((s.flrReset p f).set (Reg.GP_STATUS_NUM_VFS p) 0).func (p * 16 + f) = { inReset := true } := flrReset_func
    rw [hz.trans h0.symm, hf]
    simp
  · rw [Nat.zero_mod, decide_eq_false (by omega), Bool.and_false, Bool.false_and]

/-- A function-level reset of the physical function. -/
theorem flr_ended_physical (h0 : f.val = 0) (hp : s.get (Reg.SESS_CTRL_PORT n) = p) : s.Ended n ((s.flrReset p f).setVfs p 0) := by
  have ha := (flrHeld_ported (p := p) (f := f) s).apart hn
  have hport := flrReset_port (f := f) hn hp
  have hw := wanted_flrReset hn h0 hp
  cases hheld : (s.flrHeld p f).wanted n with
  | false => exact (flrReset_ended h2 hn hp hheld).setVfs h2 hn hport hw
  | true =>
    have hend := setVfs_ended h2 hn hport hw
    refine ⟨hend.out, fun hs => ?_, hend.ctrl.trans (flrReset_ctrl hn)⟩
    have hpass := (attachPort_session h2 hn (ha.port.trans hp)).2.2 ((ha.attached.trans hs).trans hheld.symm)
    have hall : s.Apart n (s.flrReset p f) := (ha.trans hpass.1).trans (((State.Ported.refl _).setFunc _ _).apart hn)
    exact (hend.gone (hall.attached.trans hs)).before hall

theorem flr_ended (h : s.funcAvailable p f = true) (hp : s.get (Reg.SESS_CTRL_PORT n) = p) (hf : f.val = 0 ∨ s.get (Reg.SESS_CTRL_FUNC n) = f) :
    s.Ended n (s.flr p f) := by
  rw [flr_available h]
  split
  · next h0 => exact flr_ended_physical h2 hn h0 hp
  · next h0 =>
    have ha := (flrHeld_ported (p := p) (f := f) s).apart hn
    refine flrReset_ended h2 hn hp (wanted_of_func (ha.port.trans hp) ?_)
    have hfun : ((s.flrHeld p f).func (p * 16 + f)).inReset = true := by rw [State.flrHeld, State.func_setFunc, if_pos rfl]
    rw [ha.function, hf.resolve_left h0, State.funcAvailable, hfun]
    simp

end

end

/-! ### PERST_N -/

section
variable {s : State} {p : Fin 4} {n : Nat}

/-- The state of PERST_N asserted before the virtual functions are disabled. -/
def State.perstDown (s : State) (p : Nat) : State := ((s.set (Reg.GP_STATUS_PERST p) 1).attachPort p).gpDown p false

theorem perst_eq (s : State) (p : Nat) : s.perst p = ((s.perstDown p).setVfs p 0).mapFuncs p (fun _ => {}) (List.range 16) := rfl

theorem perst_func (s : State) (p : Fin 4) : ∀ k < 16, (s.perst p).func (p * 16 + k) = {} := fun k hk => by
  rw [perst_eq, mapFuncs_mem _ List.nodup_range (List.mem_range.2 hk)]

theorem perst_get {f : Fld} (hf : f.addr = Reg.GP_STATUS p) (hw : f.lo + f.width ≤ 32) (hd : f.lo + f.width ≤ 8 ∨ 12 ≤ f.lo) :
    (s.perst p).get f = (s.perstDown p).get f := by
  rw [perst_eq, State.get, mapFuncs_reg]
  exact setVfs_status hf hw hd

theorem perst_none : (s.perst p).get (Reg.GP_STATUS_NUM_VFS p) = 0 := by
  rw [perst_eq, State.get, mapFuncs_reg]
  exact setVfs_none

/-- What a look leaves of the port before its link goes down. -/
theorem perstLook_get {f : Fld} (hf : f.addr = Reg.GP_STATUS p) :
    ((s.set (Reg.GP_STATUS_PERST p) 1).attachPort p).get f = (s.set (Reg.GP_STATUS_PERST p) 1).get f := attachPort_status _ _ p (by omega) hf

/-- A link that leaves L0, or that was not in it. -/
theorem gpDown_get {f : Fld} (hf : f.addr = Reg.GP_STATUS p) (hw : f.lo + f.width ≤ 16) :
    (s.gpDown p false).get f = if s.bit (Reg.GP_STATUS_LINK_UP p) then (s.unlinked p).get f else s.get f := by
  cases h : s.bit (Reg.GP_STATUS_LINK_UP p) with
  | true =>
    rw [(gpDown_up h).2, attachPort_status _ _ p (by omega) hf, if_pos rfl]
    exact gpEvent_get _ p hf (by omega) (.inl hw)
  | false => rw [gpDown_down h, if_neg Bool.false_ne_true]

theorem unlinked_get : (s.unlinked p).get (Reg.GP_STATUS_LINK_UP p) = 0 ∧ (s.unlinked p).get (Reg.GP_STATUS_WIDTH p) = 0 ∧
    (s.unlinked p).get (Reg.GP_STATUS_PERST p) = s.get (Reg.GP_STATUS_PERST p) := by
  have h := setsOnly_unlinked (s := s) (p := p)
  exact ⟨h.get_mem (v := 0) (by simp) (Nat.le_of_ble_eq_true rfl) (by simp), h.get_mem (v := 0) (by simp) (Nat.le_of_ble_eq_true rfl) (by simp),
    h.get_apart (Nat.le_of_ble_eq_true rfl) (by simp)⟩

theorem perstDown_perst : (s.perstDown p).get (Reg.GP_STATUS_PERST p) = 1 := by
  have h : ((s.set (Reg.GP_STATUS_PERST p) 1).attachPort p).get (Reg.GP_STATUS_PERST p) = 1 :=
    (perstLook_get rfl).trans (State.get_set_same _ _ _ (Nat.le_of_ble_eq_true rfl))
  rw [State.perstDown, gpDown_get rfl (Nat.le_of_ble_eq_true rfl), unlinked_get.2.2, h, ite_self]

theorem perst_status : (s.perst p).bit (Reg.GP_STATUS_PERST p) = true ∧ (s.perst p).bit (Reg.GP_STATUS_LINK_UP p) = false ∧
    (s.perst p).get (Reg.GP_STATUS_WIDTH p) = (if s.bit (Reg.GP_STATUS_LINK_UP p) then 0 else s.get (Reg.GP_STATUS_WIDTH p)) := by
  have hset : ∀ f : Fld, f.addr = Reg.GP_STATUS p → f.lo + f.width ≤ 6 →
      ((s.set (Reg.GP_STATUS_PERST p) 1).attachPort p).get f = s.get f := fun f hf hw => by
    rw [perstLook_get hf, State.get_set_apart _ _ _ _ (by omega) (.inl hw)]
  have hup : ((s.set (Reg.GP_STATUS_PERST p) 1).attachPort p).bit (Reg.GP_STATUS_LINK_UP p) = s.bit (Reg.GP_STATUS_LINK_UP p) := by
    rw [State.bit, State.bit, hset _ rfl (Nat.le_of_ble_eq_true rfl)]
  obtain ⟨hdown, hwidth, -⟩ := unlinked_get (s := (s.set (Reg.GP_STATUS_PERST p) 1).attachPort p) (p := p)
  refine ⟨?_, ?_, ?_⟩
  · rw [State.bit, perst_get rfl (Nat.le_of_ble_eq_true rfl) (.inl (Nat.le_of_ble_eq_true rfl)), perstDown_perst]
    rfl
  · rw [State.bit, perst_get rfl (Nat.le_of_ble_eq_true rfl) (.inl (Nat.le_of_ble_eq_true rfl)), State.perstDown,
      gpDown_get rfl (Nat.le_of_ble_eq_true rfl), hdown, hup, hset _ rfl (Nat.le_of_ble_eq_true rfl)]
    cases h : s.bit (Reg.GP_STATUS_LINK_UP p) with
    | true => rfl
    | false => rw [if_neg Bool.false_ne_true]; exact h
  · rw [perst_get rfl (Nat.le_of_ble_eq_true rfl) (.inl (Nat.le_of_ble_eq_true rfl)), State.perstDown,
      gpDown_get rfl (Nat.le_of_ble_eq_true rfl), hwidth, hup, hset _ rfl (Nat.le_of_ble_eq_true rfl)]

section
variable (h2 : 2 ≤ n) (hn : n < 256)
include h2 hn

theorem gpDown_other (hp : s.get (Reg.SESS_CTRL_PORT n) ≠ p) : s.Apart n (s.gpDown p false) := by
  cases h : s.bit (Reg.GP_STATUS_LINK_UP p) with
  | false =>
    rw [gpDown_down h]
    exact State.Apart.refl n s
  | true =>
    have ha := (linkDown_ported (s := s) (p := p)).apart hn
    rw [(gpDown_up h).2]
    exact ha.trans (attachPort_other hn h2 (by rwa [ha.port]))

omit h2 in
theorem wanted_linkDown (hp : s.get (Reg.SESS_CTRL_PORT n) = p) :
    ((s.unlinked p).gpEvent p (Reg.GP_STATUS_LINK_DOWN_EVT p)).wanted n = false := by
  refine wanted_of_port (((linkDown_ported (s := s) (p := p)).apart hn).port.trans hp) (.inl ?_)
  rw [State.bit, linkDown_get rfl (Nat.le_of_ble_eq_true rfl) (.inl (Nat.le_of_ble_eq_true rfl)), unlinked_get.1]
  rfl

theorem gpDown_ended (h : s.bit (Reg.GP_STATUS_LINK_UP p) = true) (hp : s.get (Reg.SESS_CTRL_PORT n) = p) : s.Ended n (s.gpDown p false) := by
  have ha := (linkDown_ported (s := s) (p := p)).apart hn
  rw [(gpDown_up h).2]
  exact (attachPort_ended h2 hn (ha.port.trans hp) (wanted_linkDown hn hp)).before ha

theorem State.Ended.gpDown {u : State} (he : s.Ended n u) (hp : u.get (Reg.SESS_CTRL_PORT n) = p) : s.Ended n (u.gpDown p false) := by
  cases h : u.bit (Reg.GP_STATUS_LINK_UP p) with
  | false =>
    rw [gpDown_down h]
    exact he
  | true =>
    have ha := (linkDown_ported (s := u) (p := p)).apart hn
    rw [(gpDown_up h).2]
    exact (he.after ha).look h2 hn (ha.port.trans hp) (wanted_linkDown hn hp)

theorem perst_ended (hp : s.get (Reg.SESS_CTRL_PORT n) = p) : s.Ended n (s.perst p) := by
  have hset : s.Ported (s.set (Reg.GP_STATUS_PERST p) 1) :=
    (State.Ported.refl s).set (f := Reg.GP_STATUS_PERST p) 1 (show p.val < 256 by omega) rfl
  have ha := hset.apart hn
  have hlook : s.Ended n ((s.set (Reg.GP_STATUS_PERST p) 1).attachPort p) := by
    refine (attachPort_ended h2 hn (ha.port.trans hp) (wanted_of_port (ha.port.trans hp) (.inr ?_))).before ha
    rw [State.bit, State.get_set_same _ _ _ (Nat.le_of_ble_eq_true rfl)]
    rfl
  have hdown : s.Ended n (s.perstDown p) := hlook.gpDown h2 hn (hlook.port.trans hp)
  have hw : ((s.perstDown p).set (Reg.GP_STATUS_NUM_VFS p) 0).wanted n = false := by
    refine wanted_of_port (((noVfs_ported (p := p) _).apart hn).port.trans (hdown.port.trans hp)) (.inr ?_)
    rw [State.bit, State.get_set_apart _ _ _ _ (Nat.le_of_ble_eq_true rfl) (.inl (Nat.le_of_ble_eq_true rfl)), perstDown_perst]
    rfl
  rw [perst_eq]
  exact (hdown.setVfs h2 hn (hdown.port.trans hp) hw).after ((mapFuncs_ported _ _ _).apart hn)

theorem perst_other (hp : s.get (Reg.SESS_CTRL_PORT n) ≠ p) : s.Apart n (s.perst p) := by
  have hset : s.Ported (s.set (Reg.GP_STATUS_PERST p) 1) :=
    (State.Ported.refl s).set (f := Reg.GP_STATUS_PERST p) 1 (show p.val < 256 by omega) rfl
  have h1 := hset.apart hn
  have h3 := h1.trans (attachPort_other hn h2 (p := p) (by rwa [h1.port]))
  have h4 : s.Apart n (s.perstDown p) := h3.trans (gpDown_other h2 hn (by rwa [h3.port]))
  have h5 := h4.trans (setVfs_other h2 hn (p := p) (by rwa [h4.port]))
  rw [perst_eq]
  exact h5.trans ((mapFuncs_ported _ _ _).apart hn)

theorem gpUp_other (hp : s.get (Reg.SESS_CTRL_PORT n) ≠ p) (sp wd : Nat) : s.Apart n (s.gpUp p sp wd) := by
  cases h : s.bit (Reg.GP_CTRL_EN p) with
  | false =>
    rw [gpUp_disabled h]
    exact State.Apart.refl n s
  | true =>
    have ha := (linked_ported (s := s) (p := p) sp wd).apart hn
    rw [gpUp_eq h]
    exact ha.trans (attachPort_other hn h2 (by rwa [ha.port]))

end

end

/-- Settles O17: what the links of a port and its resets show, and the sessions that they attach and detach. -/
theorem guestLinkEventsAttachAndDetach : Obligations.GuestLinkEventsAttachAndDetach := by
  refine ⟨fun s p sp wd f => ?_, fun s p sp wd f n h2 => ⟨fun hp => ?_, fun hp => ?_⟩⟩
  · obtain ⟨hup, hdown, hflr, hperst⟩ := exec_gpLinks s p sp wd f false
    obtain ⟨-, hdown2, -, -⟩ := exec_gpLinks s p sp wd f true
    refine ⟨fun h => ?_, fun h => ?_, fun h => ⟨?_, fun hk => ?_⟩, fun h => ⟨?_, ?_⟩, fun h => ?_, fun h => ?_, ?_⟩
    · exact gpUp_links h sp wd
    · rw [gpUp_disabled h] at hup
      exact ⟨_, hup, setsOnly_refl s⟩
    · rw [(gpDown_up h).1] at hdown2
      exact ⟨_, hdown2, setsOnly_unlinked⟩
    · rw [(gpDown_up h).2] at hdown
      exact ⟨_, setsOnly_linkDown hk, hdown⟩
    · rw [gpDown_down h] at hdown
      exact ⟨_, hdown, setsOnly_refl s⟩
    · rw [gpDown_down h] at hdown2
      exact ⟨_, hdown2, setsOnly_refl s⟩
    · obtain ⟨hevt, hcount, hvfs, hlink⟩ := flr_status h
      exact ⟨_, hflr, hevt, hcount, flr_func h, hvfs, hlink⟩
    · rw [flr_unavailable h] at hflr
      exact ⟨_, hflr, setsOnly_refl s⟩
    · obtain ⟨hon, hoff, hwidth⟩ := perst_status (s := s) (p := p)
      exact ⟨_, hperst, hon, hoff, hwidth, perst_none, perst_func s p⟩
  · obtain ⟨hup, hdown, hflr, hperst⟩ := exec_gpLinks s p sp wd f false
    have hend := perst_ended h2 n.isLt hp
    refine ⟨fun h => ⟨_, hup, ?_⟩, fun h => ⟨_, hdown, (gpDown_ended h2 n.isLt h hp).out⟩, ⟨_, hperst, hend.out⟩,
      fun h hf => ⟨_, hflr, (flr_ended h2 n.isLt h hp hf).out⟩, fun hatt => ⟨fun h => ⟨_, hdown, (gpDown_ended h2 n.isLt h hp).gone hatt⟩,
        ⟨_, hperst, hend.gone hatt⟩, fun h hf => ⟨_, hflr, (flr_ended h2 n.isLt h hp hf).gone hatt⟩⟩⟩
    have ha := (linked_ported (s := s) (p := p) sp wd).apart n.isLt
    rw [gpUp_eq h]
    exact (attachPort_session h2 n.isLt (ha.port.trans hp)).1.trans (linked_wanted sp wd hp)
  · obtain ⟨hup, hdown, hflr, hperst⟩ := exec_gpLinks s p sp wd f false
    exact ⟨⟨_, hup, (gpUp_other h2 n.isLt hp sp wd).attached⟩, ⟨_, hdown, (gpDown_other h2 n.isLt hp).attached⟩,
      ⟨_, hperst, (perst_other h2 n.isLt hp).attached⟩, ⟨_, hflr, (flr_other h2 n.isLt hp).attached⟩⟩

end Sys2Proof.Machine
end

section
/-! PROOF. O16: configuration requests of guest ports. -/

namespace Sys2Proof.Machine

/-! ### Whether a request is answered (R43) -/

/-- A request answered with data, and nothing else done. -/
def State.answered (s : State) (d : List Byte) : State := { s.numbered with replies := [{ id := s.nextReq, data := d }] }

/-- A request that the port answers. -/
def State.configAnswer (s : State) (p f : Nat) : CfgReq → State
  | .read off => (s.numbered.configWord p f off.toNat).2.hostReply
      { id := s.nextReq, data := leBytes 4 (s.numbered.configWord p f off.toNat).1 }
  | .write off v => (s.numbered.configWrite p f off.toNat v).hostReply { id := s.nextReq }
  | .setNumVfs n => (s.numbered.when (f == 0) (·.vfWrite p (n.val != 0) n)).hostReply { id := s.nextReq }
  | .msixControl on mask => (s.numbered.msixControl (p * 16 + f) on mask).hostReply { id := s.nextReq }

theorem configRequest_eq (s : State) (p f : Nat) (r : CfgReq) : s.configRequest p f r =
    if !s.bit (Reg.GP_STATUS_LINK_UP p) then s.numbered
    else if !s.bit (Reg.GP_CTRL_RELEASE p) then s.numbered.hostReply { id := s.nextReq, status := .retry }
    else if s.get (Reg.GP_STATUS_NUM_VFS p) < f then s.numbered.hostReply { id := s.nextReq, status := .unsupported }
    else s.configAnswer p f r := by
  cases r <;> rfl

section
variable {s : State} {p : Fin 4} {f : Fin 16}

theorem exec_configRequest (s : State) (p : Fin 4) (f : Fin 16) (r : CfgReq) : exec (.configRequest p f r) s = .next (s.configRequest p f r) := rfl

theorem configRequest_down (r : CfgReq) (h : s.bit (Reg.GP_STATUS_LINK_UP p) = false) : Does (.configRequest p f r) s s.numbered [] := by
  have hw := exec_configRequest s p f r
  rw [configRequest_eq, if_pos (by simp [h])] at hw
  exact ⟨_, hw, setsOnly_refl _⟩

/-- A reply to a request that changes nothing. -/
theorem setsOnly_reply (u : State) (r : Reply) (h : u.replies = []) : ({ u with replies := [r] } : State).SetsOnly [] (u.hostReply r) := by
  rw [State.hostReply, h]
  exact setsOnly_refl _

theorem configRequest_held (r : CfgReq) (h : s.bit (Reg.GP_STATUS_LINK_UP p) = true) (hr : s.bit (Reg.GP_CTRL_RELEASE p) = false) :
    Does (.configRequest p f r) s { s.numbered with replies := [{ id := s.nextReq, status := .retry }] } [] := by
  have hw := exec_configRequest s p f r
  rw [configRequest_eq, if_neg (by simp [h]), if_pos (by simp [hr])] at hw
  exact ⟨_, hw, setsOnly_reply _ _ rfl⟩

theorem configRequest_absent (r : CfgReq) (h : s.bit (Reg.GP_STATUS_LINK_UP p) = true) (hr : s.bit (Reg.GP_CTRL_RELEASE p) = true)
    (hf : s.get (Reg.GP_STATUS_NUM_VFS p) < f) :
    Does (.configRequest p f r) s { s.numbered with replies := [{ id := s.nextReq, status := .unsupported }] } [] := by
  have hw := exec_configRequest s p f r
  rw [configRequest_eq, if_neg (by simp [h]), if_neg (by simp [hr]), if_pos hf] at hw
  exact ⟨_, hw, setsOnly_reply _ _ rfl⟩

section
variable (hup : s.bit (Reg.GP_STATUS_LINK_UP p) = true)
  (ha : (s.bit (Reg.GP_CTRL_RELEASE p) && decide (f.val ≤ s.get (Reg.GP_STATUS_NUM_VFS p))) = true)
include hup ha

theorem exec_configAnswer (r : CfgReq) : exec (.configRequest p f r) s = .next (s.configAnswer p f r) := by
  obtain ⟨hr, hf⟩ := Bool.and_eq_true_iff.1 ha
  rw [exec_configRequest, configRequest_eq, if_neg (by simp [hup]), if_neg (by simp [hr]), if_neg (Nat.not_lt.2 (of_decide_eq_true hf))]

/-! ### Reads (R45, R46, R48) -/

/-- A read of a word that the spec gives. -/
theorem configRead_given {off : BitVec 12} {x : Nat} (h : s.numbered.configWord p f off.toNat = (x, s.numbered)) :
    Does (.configRequest p f (.read off)) s (s.answered (leBytes 4 x)) [] := by
  have hw := exec_configAnswer hup ha (.read off)
  rw [State.configAnswer, h] at hw
  exact ⟨_, hw, setsOnly_reply _ _ rfl⟩

/-- A read of a word that the spec gives no more of than the part in question. -/
theorem configRead_drawn {off : BitVec 12} {x : Nat} (h : s.numbered.configWord p f off.toNat = (x, s.numbered.draw.2)) :
    SetsAnd (.configRequest p f (.read off)) s [] fun t =>
      t.drawn = s.drawn + 1 ∧ t.replies = [{ id := s.nextReq, data := leBytes 4 x }] := by
  have hw := exec_configAnswer hup ha (.read off)
  rw [State.configAnswer, h] at hw
  exact ⟨_, hw, regsSet_nil fun _ => rfl, sameBytes_refl s, rfl, rfl⟩

end

/-! ### The words of the configuration space -/

theorem configWord_id (s : State) (p f : Nat) : s.configWord p f 0 = (if f = 0 then 0x08C0 * 2 ^ 16 + Config.vendorId.toNat else 0xFFFFFFFF, s) := rfl

theorem configWord_class (s : State) (p f : Nat) : s.configWord p f 8 = (0x038000 * 2 ^ 8 + 0xA1, s) := rfl

theorem configWord_subsys (s : State) (p f : Nat) :
    s.configWord p f 0x2C = (s.get (Reg.GP_SUBSYS_SUBSYS_ID p) * 2 ^ 16 + s.get (Reg.GP_SUBSYS_SUBSYS_VENDOR p), s) := rfl

theorem configWord_bar (s : State) (p f : Nat) {off : Nat} (h : 4 ≤ off / 4 ∧ off / 4 < 10) :
    s.configWord p f off = (if f = 0 then s.barWord p (off / 4 - 4) ((s.func (p * 16)).bar (off / 4 - 4)) else 0, s) := by
  unfold State.configWord
  dsimp only
  rw [if_neg (by omega), if_neg (by omega), if_pos h]

/-- The words past the header's, with the free value that a read draws. -/
theorem configWord_rest (s : State) (p f : Nat) {off : Nat} (h0 : off / 4 ≠ 0) (h2 : off / 4 ≠ 2) (h4 : off / 4 < 4 ∨ 9 < off / 4)
    (h11 : off / 4 ≠ 11) : s.configWord p f off =
      ((if Config.msixWord ≤ off / 4 ∧ off / 4 < Config.msixWord + 3 then (s.func (p * 16 + f)).msixCapWord (off / 4 - Config.msixWord) s.draw.1
        else if f = 0 ∧ Config.sriovWord ≤ off / 4 ∧ off / 4 < Config.sriovWord + 15 then
          (s.sriovWord p (off / 4 - Config.sriovWord) s.draw.1).getD (s.draw.1 % 2 ^ 32)
        else if off / 4 = Config.aerWord + 1 then withFlag (s.draw.1 % 2 ^ 32) 20 (s.func (p * 16 + f)).urStatus
        else s.draw.1 % 2 ^ 32), s.draw.2) := by
  unfold State.configWord
  dsimp only
  rw [if_neg h0, if_neg h2, if_neg (by omega), if_neg h11]
  split
  · rfl
  · split
    · cases s.sriovWord p (off / 4 - Config.sriovWord) s.draw.1 <;> rfl
    · split <;> rfl

theorem bitOf_withFlag (x i : Nat) (b : Bool) : bitOf (withFlag x i b) i = b := by
  have hlt := Nat.mod_lt x (Nat.two_pow_pos i)
  have he : withFlag x i b = 2 ^ i * (2 * (x / 2 ^ (i + 1)) + b2n b) + x % 2 ^ i := by
    rw [withFlag, Nat.pow_succ]
    ring
  rw [bitOf, he, Nat.mul_add_div (Nat.two_pow_pos i), Nat.div_eq_of_lt hlt, Nat.add_zero, Nat.mul_add_mod]
  cases b <;> rfl

theorem leBytes_halves (x y : Nat) (hx : x < 2 ^ 16) : leBytes 4 (y * 2 ^ 16 + x) = leBytes 2 x ++ leBytes 2 y := by
  have hb : ∀ a b : Nat, a % 256 = b % 256 → BitVec.ofNat 8 a = BitVec.ofNat 8 b := fun a b h => BitVec.eq_of_toNat_eq h
  simp only [leBytes, List.cons_append, List.nil_append]
  rw [hb (y * 2 ^ 16 + x) x (by omega), hb ((y * 2 ^ 16 + x) / 256) (x / 256) (by omega), hb ((y * 2 ^ 16 + x) / 256 / 256) y (by omega),
    hb ((y * 2 ^ 16 + x) / 256 / 256 / 256) (y / 256) (by omega)]

section
variable (hup : s.bit (Reg.GP_STATUS_LINK_UP p) = true)
  (ha : (s.bit (Reg.GP_CTRL_RELEASE p) && decide (f.val ≤ s.get (Reg.GP_STATUS_NUM_VFS p))) = true)
include hup ha

theorem read_identifiers : (f.val = 0 → Does (.configRequest p f (.read 0)) s
      (s.answered (leBytes 4 (0x08C0 * 2 ^ 16 + Config.vendorId.toNat))) []) ∧
    (0 < f.val → Does (.configRequest p f (.read 0)) s
      (s.answered ([0xFF, 0xFF, 0xFF, 0xFF])) []) ∧
    Does (.configRequest p f (.read 8)) s (s.answered ([0xA1, 0x00, 0x80, 0x03])) [] ∧
    Does (.configRequest p f (.read 0x2C)) s
      (s.answered (leBytes 2 (s.get (Reg.GP_SUBSYS_SUBSYS_VENDOR p)) ++ leBytes 2 (s.get (Reg.GP_SUBSYS_SUBSYS_ID p)))) [] := by
  refine ⟨fun h0 => ?_, fun h0 => ?_, ?_, ?_⟩
  · exact configRead_given hup ha ((configWord_id _ p f).trans (by rw [if_pos h0]))
  · have hc : leBytes 4 0xFFFFFFFF = [0xFF, 0xFF, 0xFF, 0xFF] := by decide
    rw [← hc]
    exact configRead_given hup ha ((configWord_id _ p f).trans (by rw [if_neg (by omega)]))
  · have hc : leBytes 4 (0x038000 * 2 ^ 8 + 0xA1) = [0xA1, 0x00, 0x80, 0x03] := by decide
    rw [← hc]
    exact configRead_given hup ha (configWord_class _ p f)
  · rw [← leBytes_halves _ _ (State.get_lt s (Reg.GP_SUBSYS_SUBSYS_VENDOR p))]
    exact configRead_given hup ha (configWord_subsys _ p f)

/-- R45: the words of the BARs. -/
theorem read_bars (i : Fin 6) : (f.val = 0 → Does (.configRequest p f (.read (16 + 4 * BitVec.ofNat 12 i))) s
      (s.answered (leBytes 4 (s.barWord p i ((s.func (p * 16)).bar i)))) []) ∧
    (0 < f.val → Does (.configRequest p f (.read (16 + 4 * BitVec.ofNat 12 i))) s
      (s.answered ([0, 0, 0, 0])) []) := by
  have hall : ∀ i : Fin 6, (16 + 4 * BitVec.ofNat 12 i.val).toNat = 16 + 4 * i.val := by decide
  have ho := hall i
  have hw := configWord_bar s.numbered p f (off := (16 + 4 * BitVec.ofNat 12 i.val).toNat) (by omega)
  have hi : (16 + 4 * BitVec.ofNat 12 i.val).toNat / 4 - 4 = i := by omega
  rw [hi] at hw
  constructor <;> intro h0
  · rw [if_pos h0] at hw
    exact configRead_given hup ha hw
  · rw [if_neg (by omega)] at hw
    exact configRead_given hup ha hw

end

/-- R45: a BAR word, by the size of its BAR and the address that was written. -/
theorem barWord_eq (s : State) (p i addr : Nat) :
    let log := if i / 2 = 0 then 16 else if i / 2 = 1 then 4 + clampNat 25 34 (s.get (Reg.GP_CTRL_APERTURE_LOG2 p)) else 13
    let size := if i % 2 = 0 then 2 ^ min log 32 else 2 ^ (log - 32)
    let place := addr % 2 ^ 32
    s.barWord p i addr = place - place % size + (if i % 2 = 1 then 0 else if i / 2 = 1 then 0xC else 4) := by
  dsimp only
  rw [State.barWord]
  have hdiv : ∀ x m : Nat, x / m * m = x - x % m := fun x m => by
    have := Nat.div_add_mod x m
    rw [Nat.mul_comm]
    omega
  generalize (if i / 2 = 0 then 16 else if i / 2 = 1 then 4 + clampNat 25 34 (s.get (Reg.GP_CTRL_APERTURE_LOG2 p)) else 13) = log
  by_cases h : i % 2 = 0
  · rw [if_pos h, if_pos h, if_neg (by omega : ¬ i % 2 = 1), hdiv]
  · rw [if_neg h, if_neg h, if_pos (by omega : i % 2 = 1), hdiv, Nat.add_zero]

/-- R46, R48: what a read shows of the capabilities. -/
theorem read_capabilities (hup : s.bit (Reg.GP_STATUS_LINK_UP p) = true)
    (ha : (s.bit (Reg.GP_CTRL_RELEASE p) && decide (f.val ≤ s.get (Reg.GP_STATUS_NUM_VFS p))) = true) {off : BitVec 12}
    (h0 : off.toNat / 4 ≠ 0) (h2 : off.toNat / 4 ≠ 2) (h4 : off.toNat / 4 < 4 ∨ 9 < off.toNat / 4) (h11 : off.toNat / 4 ≠ 11) :
    let k := off.toNat / 4
    let m := Config.msixWord
    SetsAnd (.configRequest p f (.read off)) s [] fun t => t.drawn = s.drawn + 1 ∧ t.replies.length = 1 ∧
      (k = m + 1 → t.replies = [{ id := s.nextReq, data := [4, 0, 0, 0] }]) ∧
      (k = m + 2 → t.replies = [{ id := s.nextReq, data := [4, 0x10, 0, 0] }]) ∧
      (f.val = 0 → k = Config.sriovWord + 6 → t.replies = [{ id := s.nextReq, data := [0, 0, 0xC1, 0x08] }]) ∧
      (f.val = 0 → k = Config.sriovWord + 4 → t.replies = [{ id := s.nextReq, data := leBytes 4 (s.func (p * 16)).numVfs }]) ∧
      (f.val = 0 → k = Config.sriovWord + 2 →
        ∃ x, t.replies = [{ id := s.nextReq, data := leBytes 4 x }] ∧ bitOf x 0 = (s.func (p * 16)).vfOn) ∧
      (k = Config.aerWord + 1 → ∃ x, t.replies = [{ id := s.nextReq, data := leBytes 4 x }] ∧ bitOf x 20 = (s.func (p * 16 + f)).urStatus) := by
  obtain ⟨hm16, hm64, hc64, hc1024, ha64, ha1024, hapart⟩ := config_words_apart
  obtain ⟨t, hw, hregs, hbytes, hdrawn, hreply⟩ := configRead_drawn hup ha (configWord_rest s.numbered p f h0 h2 h4 h11)
  intro k m
  refine ⟨t, hw, hregs, hbytes, hdrawn, by rw [hreply]; rfl, fun hk => ?_, fun hk => ?_, fun hf hk => ?_, fun hf hk => ?_, fun hf hk => ?_,
    fun hk => ?_⟩
  · have hi : off.toNat / 4 - Config.msixWord = 1 := by omega
    have hc : leBytes 4 4 = [4, 0, 0, 0] := by decide
    rw [hreply, if_pos (by omega), hi, ← hc]
    rfl
  · have hi : off.toNat / 4 - Config.msixWord = 2 := by omega
    have hc : leBytes 4 0x1004 = [4, 0x10, 0, 0] := by decide
    rw [hreply, if_pos (by omega), hi, ← hc]
    rfl
  · have hi : off.toNat / 4 - Config.sriovWord = 6 := by omega
    have hc : leBytes 4 (0x08C1 * 2 ^ 16) = [0, 0, 0xC1, 0x08] := by decide
    rw [hreply, if_neg (by omega), if_pos (by omega), hi, ← hc]
    rfl
  · have hi : off.toNat / 4 - Config.sriovWord = 4 := by omega
    rw [hreply, if_neg (by omega), if_pos (by omega), hi]
    rfl
  · have hi : off.toNat / 4 - Config.sriovWord = 2 := by omega
    rw [hreply, if_neg (by omega), if_pos (by omega), hi]
    exact ⟨_, rfl, bitOf_withFlag _ 0 _⟩
  · rw [hreply, if_neg (by omega), if_neg (by omega), if_pos (by omega)]
    exact ⟨_, rfl, bitOf_withFlag _ 20 _⟩

/-! ### Writes (R45, R46, R48) -/

theorem configWrite_bar (s : State) (p f : Nat) {off : Nat} (v : Word) (h : 4 ≤ off / 4 ∧ off / 4 ≤ 9) :
    s.configWrite p f off v = if f = 0 then s.barWrite (p * 16 + f) (off / 4 - 4) v else s := by
  unfold State.configWrite
  dsimp only
  rw [if_pos (by omega)]

theorem configWrite_msix (s : State) (p f : Nat) {off : Nat} (v : Word) (h : Config.msixWord ≤ off / 4 ∧ off / 4 ≤ Config.msixWord + 2) :
    s.configWrite p f off v = if off / 4 = Config.msixWord then s.msixControl (p * 16 + f) (bitOf v.toNat 31) (bitOf v.toNat 30) else s := by
  obtain ⟨hm16, -⟩ := config_words_apart
  unfold State.configWrite
  dsimp only
  rw [if_neg (by omega), if_pos (by omega), State.when]
  simp only [beq_iff_eq]

theorem configWrite_sriov (s : State) (p : Nat) {off : Nat} (v : Word) (h : Config.sriovWord ≤ off / 4 ∧ off / 4 ≤ Config.sriovWord + 14) :
    s.configWrite p 0 off v =
      if off / 4 = Config.sriovWord + 2 then s.vfWrite p (bitOf v.toNat 0) (s.func (p * 16)).numVfs
      else if off / 4 = Config.sriovWord + 4 then s.vfWrite p (s.func (p * 16)).vfOn (getBits v 0 16)
      else if Config.sriovWord + 9 ≤ off / 4 then s.barWrite (p * 16) (off / 4 - (Config.sriovWord + 3)) v
      else s := by
  obtain ⟨hm16, hm64, hc64, -⟩ := config_words_apart
  unfold State.configWrite
  dsimp only
  rw [if_neg (by omega), if_neg (by omega), if_pos (by omega)]
  rfl

theorem configWrite_aer (s : State) (p f : Nat) {off : Nat} (v : Word) (h : off / 4 = Config.aerWord + 1) :
    s.configWrite p f off v =
      s.setFunc (p * 16 + f) { s.func (p * 16 + f) with urStatus := (s.func (p * 16 + f)).urStatus && !bitOf v.toNat 20 } := by
  obtain ⟨hm16, hm64, hc64, hc1024, ha64, ha1024, hapart⟩ := config_words_apart
  unfold State.configWrite
  dsimp only
  rw [if_neg (by omega), if_neg (by omega), if_neg (by omega), if_pos h]

theorem configWrite_other (s : State) (p f : Nat) {off : Nat} (v : Word) (hbar : ¬ (4 ≤ off / 4 ∧ off / 4 ≤ 9))
    (hmsix : ¬ (Config.msixWord ≤ off / 4 ∧ off / 4 ≤ Config.msixWord + 2))
    (hsriov : ¬ (f = 0 ∧ Config.sriovWord ≤ off / 4 ∧ off / 4 ≤ Config.sriovWord + 14)) (haer : off / 4 ≠ Config.aerWord + 1) :
    s.configWrite p f off v = s := by
  unfold State.configWrite
  dsimp only
  rw [if_neg (by omega), if_neg (by omega), if_neg (by omega), if_neg haer]

/-- A write of the MSI-X control word while no vector is pending. -/
theorem msixControl_quiet (s : State) (k : Nat) (on mask : Bool) (h : (s.func k).pba = 0) :
    s.msixControl k on mask = s.setFunc k { s.func k with msixOn := on, msixMask := mask } := by
  refine State.each_id fun v _ => ?_
  have hp : bitOf ((s.setFunc k { s.func k with msixOn := on, msixMask := mask }).func k).pba v = false := by
    rw [State.func_setFunc, if_pos rfl, bitOf_testBit]
    exact (congrArg (Nat.testBit · v) h).trans (Nat.zero_testBit v)
  dsimp only
  rw [hp, Bool.false_and, Bool.false_and, Bool.false_and, if_neg Bool.false_ne_true]

section
variable (hup : s.bit (Reg.GP_STATUS_LINK_UP p) = true)
  (ha : (s.bit (Reg.GP_CTRL_RELEASE p) && decide (f.val ≤ s.get (Reg.GP_STATUS_NUM_VFS p))) = true)
include hup ha

/-- A write that is answered. -/
theorem configWrite_does {off : BitVec 12} {v : Word} {t : State} (h : s.numbered.configWrite p f off.toNat v = t) (ht : t.replies = []) :
    Does (.configRequest p f (.write off v)) s { t with replies := [{ id := s.nextReq }] } [] := by
  have hw := exec_configAnswer hup ha (.write off v)
  rw [State.configAnswer, h] at hw
  exact ⟨_, hw, setsOnly_reply _ _ ht⟩

omit hup ha in
theorem vfWrite_above (u : State) (q k : Nat) (on : Bool) (h : u.get (Reg.GP_CTRL_TOTAL_VFS q) < k) : u.vfWrite q on k = u := by
  rw [State.vfWrite, if_pos h]

/-- A write of VF Enable or of NumVFs that is taken. -/
theorem vfWrite_does {r : CfgReq} {on : Bool} {k : Nat} (h : s.configAnswer p f r = (s.numbered.vfWrite p on k).hostReply { id := s.nextReq })
    (hk : k ≤ s.get (Reg.GP_CTRL_TOTAL_VFS p)) :
    DoesThen (.configRequest p f r) s (s.numbered.setFunc (p * 16) { s.func (p * 16) with vfOn := on, numVfs := k }) []
      fun t => (t.setVfs p (if on then k else 0)).hostReply { id := s.nextReq } := by
  have hw := exec_configAnswer hup ha r
  have hv : s.numbered.vfWrite p on k =
      (s.numbered.setFunc (p * 16) { s.func (p * 16) with vfOn := on, numVfs := k }).setVfs p (if on then k else 0) := by
    rw [State.vfWrite, if_neg (Nat.not_lt.2 (show k ≤ s.numbered.get _ from hk))]
    rfl
  rw [h, hv] at hw
  exact ⟨_, setsOnly_refl _, hw⟩

/-- R46: NumVFs written on its own. -/
theorem setNumVfs_does (n : Fin 16) (h0 : f.val = 0) :
    (n.val ≤ s.get (Reg.GP_CTRL_TOTAL_VFS p) → DoesThen (.configRequest p f (.setNumVfs n)) s
      (s.numbered.setFunc (p * 16) { s.func (p * 16) with vfOn := n.val != 0, numVfs := n }) []
      fun t => (t.setVfs p n).hostReply { id := s.nextReq }) ∧
    (s.get (Reg.GP_CTRL_TOTAL_VFS p) < n.val → Does (.configRequest p f (.setNumVfs n)) s (s.answered []) []) := by
  have hwhen : s.configAnswer p f (.setNumVfs n) = (s.numbered.vfWrite p (n.val != 0) n).hostReply { id := s.nextReq } := by
    rw [State.configAnswer, State.when, if_pos (by simp [h0])]
  have hn : (if (n.val != 0) = true then n.val else 0) = n.val := by
    by_cases hz : n.val = 0 <;> simp [hz]
  refine ⟨fun hk => ?_, fun hk => ?_⟩
  · have h := vfWrite_does hup ha hwhen hk
    rwa [hn] at h
  · have hw := exec_configAnswer hup ha (.setNumVfs n)
    rw [hwhen, vfWrite_above s.numbered p n _ hk] at hw
    exact ⟨_, hw, setsOnly_reply _ _ rfl⟩

end

/-- A function changed by a request that is answered. -/
def State.answeredFunc (s : State) (k : Nat) (g : FuncState) : State := (s.answered []).setFunc k g

section
variable (hup : s.bit (Reg.GP_STATUS_LINK_UP p) = true)
  (ha : (s.bit (Reg.GP_CTRL_RELEASE p) && decide (f.val ≤ s.get (Reg.GP_STATUS_NUM_VFS p))) = true) {off : BitVec 12} {v : Word}
include hup ha

/-- A write without effect. -/
theorem write_nothing (h : s.numbered.configWrite p f off.toNat v = s.numbered) : Does (.configRequest p f (.write off v)) s (s.answered []) [] :=
  configWrite_does hup ha h rfl

/-- A write that changes a function. -/
theorem write_func {k : Nat} {g : FuncState} (h : s.numbered.configWrite p f off.toNat v = s.numbered.setFunc k g) :
    Does (.configRequest p f (.write off v)) s (s.answeredFunc k g) [] :=
  configWrite_does hup ha h rfl

theorem write_bar (h : 4 ≤ off.toNat / 4 ∧ off.toNat / 4 ≤ 9) :
    (f.val = 0 → Does (.configRequest p f (.write off v)) s (s.answeredFunc (p * 16 + f)
      { s.func (p * 16 + f) with bars := sput (fun _ => 0) (s.func (p * 16 + f)).bars (off.toNat / 4 - 4) v.toNat }) []) ∧
    (0 < f.val → Does (.configRequest p f (.write off v)) s (s.answered []) []) := by
  have hw := configWrite_bar s.numbered p f v h
  refine ⟨fun h0 => write_func hup ha ?_, fun h0 => write_nothing hup ha ?_⟩
  · rw [hw, if_pos h0]
    rfl
  · rw [hw, if_neg (by omega)]

theorem write_msix (h : Config.msixWord ≤ off.toNat / 4 ∧ off.toNat / 4 ≤ Config.msixWord + 2) :
    (off.toNat / 4 ≠ Config.msixWord → Does (.configRequest p f (.write off v)) s (s.answered []) []) ∧
    (off.toNat / 4 = Config.msixWord → (s.func (p * 16 + f)).pba = 0 → Does (.configRequest p f (.write off v)) s (s.answeredFunc (p * 16 + f)
      { s.func (p * 16 + f) with msixOn := bitOf v.toNat 31, msixMask := bitOf v.toNat 30 }) []) := by
  have hw := configWrite_msix s.numbered p f v h
  refine ⟨fun hk => write_nothing hup ha ?_, fun hk hp => write_func hup ha ?_⟩
  · rw [hw, if_neg hk]
  · rw [hw, if_pos hk]
    exact msixControl_quiet s.numbered (p * 16 + f) _ _ hp

theorem write_sriov (h0 : f.val = 0) (h : Config.sriovWord ≤ off.toNat / 4 ∧ off.toNat / 4 ≤ Config.sriovWord + 14) :
    (off.toNat / 4 = Config.sriovWord + 2 → (s.func (p * 16)).numVfs ≤ s.get (Reg.GP_CTRL_TOTAL_VFS p) →
      DoesThen (.configRequest p f (.write off v)) s
        (s.numbered.setFunc (p * 16) { s.func (p * 16) with vfOn := bitOf v.toNat 0, numVfs := (s.func (p * 16)).numVfs }) []
        fun t => (t.setVfs p (if bitOf v.toNat 0 then (s.func (p * 16)).numVfs else 0)).hostReply { id := s.nextReq }) ∧
    (off.toNat / 4 = Config.sriovWord + 2 → s.get (Reg.GP_CTRL_TOTAL_VFS p) < (s.func (p * 16)).numVfs →
      Does (.configRequest p f (.write off v)) s (s.answered []) []) ∧
    (off.toNat / 4 = Config.sriovWord + 4 → getBits v 0 16 ≤ s.get (Reg.GP_CTRL_TOTAL_VFS p) →
      DoesThen (.configRequest p f (.write off v)) s
        (s.numbered.setFunc (p * 16) { s.func (p * 16) with vfOn := (s.func (p * 16)).vfOn, numVfs := getBits v 0 16 }) []
        fun t => (t.setVfs p (if (s.func (p * 16)).vfOn then getBits v 0 16 else 0)).hostReply { id := s.nextReq }) ∧
    (off.toNat / 4 = Config.sriovWord + 4 → s.get (Reg.GP_CTRL_TOTAL_VFS p) < getBits v 0 16 →
      Does (.configRequest p f (.write off v)) s (s.answered []) []) ∧
    (Config.sriovWord + 9 ≤ off.toNat / 4 → Does (.configRequest p f (.write off v)) s (s.answeredFunc (p * 16)
      { s.func (p * 16) with bars := sput (fun _ => 0) (s.func (p * 16)).bars (off.toNat / 4 - (Config.sriovWord + 3)) v.toNat }) []) ∧
    (off.toNat / 4 < Config.sriovWord + 9 → off.toNat / 4 ≠ Config.sriovWord + 2 → off.toNat / 4 ≠ Config.sriovWord + 4 →
      Does (.configRequest p f (.write off v)) s (s.answered []) []) := by
  have hp : s.numbered.configWrite p f off.toNat v = s.numbered.configWrite p 0 off.toNat v := by rw [h0]
  have hw := hp.trans (configWrite_sriov s.numbered p v h)
  have hans : s.configAnswer p f (.write off v) = (s.numbered.configWrite p f off.toNat v).hostReply { id := s.nextReq } := rfl
  refine ⟨fun hk hv => vfWrite_does hup ha ?_ hv, fun hk hv => write_nothing hup ha ?_, fun hk hv => vfWrite_does hup ha ?_ hv,
    fun hk hv => write_nothing hup ha ?_, fun hk => write_func hup ha ?_, fun hk h2 h4 => write_nothing hup ha ?_⟩
  · rw [hans, hw, if_pos hk]
    rfl
  · rw [hw, if_pos hk]
    exact vfWrite_above _ _ _ _ hv
  · rw [hans, hw, if_neg (by omega), if_pos hk]
    rfl
  · rw [hw, if_neg (by omega), if_pos hk]
    exact vfWrite_above _ _ _ _ hv
  · rw [hw, if_neg (by omega), if_neg (by omega), if_pos hk]
    rfl
  · rw [hw, if_neg h2, if_neg h4, if_neg (by omega)]

theorem write_aer (h : off.toNat / 4 = Config.aerWord + 1) : Does (.configRequest p f (.write off v)) s (s.answeredFunc (p * 16 + f)
    { s.func (p * 16 + f) with urStatus := (s.func (p * 16 + f)).urStatus && !bitOf v.toNat 20 }) [] :=
  write_func hup ha (configWrite_aer s.numbered p f v h)

omit off v in
/-- R46: MSI-X Enable and Function Mask written on their own. -/
theorem msixControl_does (on mask : Bool) (hp : (s.func (p * 16 + f)).pba = 0) :
    SetsAnd (.configRequest p f (.msixControl on mask)) s [] fun t => t.replies = [{ id := s.nextReq }] ∧ t.msix = s.msix ∧
      t.func (p * 16 + f) = { s.func (p * 16 + f) with msixOn := on, msixMask := mask } := by
  have hw := exec_configAnswer hup ha (.msixControl on mask)
  rw [State.configAnswer, msixControl_quiet _ _ _ _ (show (s.numbered.func _).pba = 0 from hp)] at hw
  refine ⟨_, hw, regsSet_nil fun _ => rfl, sameBytes_refl s, rfl, rfl, ?_⟩
  exact (State.func_setFunc s.numbered _ _ _).trans (if_pos rfl)

end

end

/-! ### The release (R43) -/

theorem access_gpCtrl (p : Fin 4) : rowAccess (Reg.GP_CTRL p) = some (0, 0x1F0F33, 0, 0x80000000) := by
  have hu : unitInstances 13 = 4 := by decide
  exact (rowAccess_reg (by omega) (by omega) (by omega)).trans (by decide +kernel)

/-- A field set to the value it has. -/
theorem setsOnly_setSame {u t : State} {l : List (Fld × Nat)} (h : u.SetsOnly l t) {f : Fld} {x : Nat} (hx : t.get f = x % 2 ^ f.width) :
    u.SetsOnly l (t.set f x) := by
  have hkeep := setsOnly_keep (setsOnly_refl t) hx
  have hset := setsOnly_set (setsOnly_refl t) f x
  exact ⟨fun a i hi => by rw [hset.1 a i hi, ← hkeep.1 a i hi, h.1 a i hi], h.2⟩

/-- The fields of a control register that a release takes. -/
def gpCtrlFields (p : Nat) (v : Word) : List (Fld × Nat) :=
  [(Reg.GP_CTRL_LOCK p, getBits v 31 1), (Reg.GP_CTRL_APERTURE_LOG2 p, getBits v 16 5), (Reg.GP_CTRL_TOTAL_VFS p, getBits v 8 4),
    (Reg.GP_CTRL_MAX_SPEED p, getBits v 4 2), (Reg.GP_CTRL_RELEASE p, 1), (Reg.GP_CTRL_EN p, 1)]

theorem setsOnly_gpCtrl {s : State} {p : Fin 4} {v : Word} (hl : s.locked (Reg.GP_CTRL p) = false) (h0 : bitOf v.toNat 0 = true) :
    s.SetsOnly (gpCtrlFields p v) (s.plainWrite (Reg.GP_CTRL p) (withBit v 1)) := by
  have hlock : ∀ p : Fin 4, lockAddr (Reg.GP_CTRL p) = Reg.GP_CTRL p := by decide
  have hset := setsOnly_unlocked (v := withBit v 1) (access_gpCtrl p) hl [(31, 1), (16, 5), (8, 4), (4, 2), (1, 1), (0, 1)] (by decide)
    (lockBit (unlocked_bit hl (hlock p)))
  have hen : getBits v 0 1 = 1 := of_decide_eq_true ((bitOf_eq_getBits v 0).symm.trans h0)
  have hlist : fieldsOf (Reg.GP_CTRL p) (withBit v 1) [(31, 1), (16, 5), (8, 4), (4, 2), (1, 1), (0, 1)] = gpCtrlFields p v := by
    simp only [fieldsOf, List.map_cons, List.map_nil, getBits_withBit v (i := 1) (lo := 31) (n := 1) (by omega) (by omega),
      getBits_withBit v (i := 1) (lo := 16) (n := 5) (by omega) (by omega), getBits_withBit v (i := 1) (lo := 8) (n := 4) (by omega) (by omega),
      getBits_withBit v (i := 1) (lo := 4) (n := 2) (by omega) (by omega), getBits_withBit v (i := 1) (lo := 0) (n := 1) (by omega) (by omega),
      getBits_withBit_self v (i := 1) (by omega), hen]
    rfl
  rw [hlist] at hset
  exact hset

theorem enabled_of_gpCtrlFields {s t : State} {p : Nat} {v : Word} (h : s.SetsOnly (gpCtrlFields p v) t) : t.bit (Reg.GP_CTRL_EN p) = true := by
  have hen := h.get_mem (f := Reg.GP_CTRL_EN p) (v := 1) (by simp [gpCtrlFields]) (Nat.le_of_ble_eq_true rfl) (by simp [gpCtrlFields])
  rw [State.bit, hen]
  rfl

theorem gpRelease_does {s : State} {p : Fin 4} {w : World} {v : Word} (ha : s.Admits w 0x0D p false) (hl : s.locked (Reg.GP_CTRL p) = false)
    (h0 : bitOf v.toNat 0 = true) : Does (.gpRelease p w v) s s (gpCtrlFields p v) := by
  have hw : exec (.gpRelease p w v) s = .next (s.asWriter w 0x0D p false (·.gpCtrlWrite p (withBit v 1))) := rfl
  have hset := setsOnly_gpCtrl hl h0
  have hrel := setsOnly_setSame hset (f := Reg.GP_CTRL_RELEASE p) (x := 1)
    (hset.get_mem (by simp [gpCtrlFields]) (Nat.le_of_ble_eq_true rfl) (by simp [gpCtrlFields]))
  have hkeep : s.SetsOnly (gpCtrlFields p v) (if s.get (Reg.GP_CTRL_RELEASE p) = 1 then
      (s.plainWrite (Reg.GP_CTRL p) (withBit v 1)).set (Reg.GP_CTRL_RELEASE p) 1 else s.plainWrite (Reg.GP_CTRL p) (withBit v 1)) := by
    split
    · exact hrel
    · exact hset
  rw [asWriter_admits ha, State.gpCtrlWrite, if_pos (enabled_of_gpCtrlFields hkeep)] at hw
  exact ⟨_, hw, hkeep⟩

/-- Settles O16: how a guest port answers configuration requests, and what its release sets. -/
theorem configRequestsAreAnswered : Obligations.ConfigRequestsAreAnswered := by
  intro s p f n off on mask r w v u up answers
  refine ⟨configRequest_down r, configRequest_held r, configRequest_absent r,
    fun hup ha h0 => ⟨(read_identifiers hup ha).1 h0, setNumVfs_does hup ha n h0⟩,
    fun hup ha => (read_identifiers hup ha).2.1, fun hup ha => ?_, gpRelease_does⟩
  obtain ⟨-, -, hclass, hsubsys⟩ := read_identifiers hup ha
  refine ⟨hclass, hsubsys, fun i h0 => ?_, fun i => (read_bars hup ha i).2, read_capabilities hup ha, ?_, msixControl_does hup ha on mask⟩
  · have h := (read_bars hup ha i).1 h0
    rw [barWord_eq] at h
    exact h
  · refine ⟨write_bar hup ha, write_msix hup ha, fun h => ?_, write_aer hup ha, fun hbar hmsix hsriov haer =>
      write_nothing hup ha (configWrite_other s.numbered p f v hbar hmsix hsriov haer)⟩
    have hkey : p.val * 16 = p.val * 16 + f.val := by rw [h.1, Nat.add_zero]
    have hw := write_sriov hup ha (v := v) h.1 h.2
    rw [hkey] at hw
    exact hw

end Sys2Proof.Machine
end

section
/-! PROOF. O56, refuted: the latch of a screen whose record excludes a pipe that does not exist. -/

namespace Sys2Proof.Machine

theorem exec_latch (s : State) (x : Fin 8) : exec (.latch x) s = .next ((s.latch x).inOrder s) := rfl

/-- Layer 0 on screen 0 with a commit that is due, while the screen needs a new pipe and its record excludes pipe 768. There are ten pipes;
the place of PIPE_STATUS of a pipe numbered 768 is that of LAYER_0_CTRL. -/
def strayPipeState : State :=
  ((((({} : State).setScr 0 { needPipe := true, exclude := [768] }).set (Reg.SCREEN_STATUS_RUNNING 0) 1).set (Reg.LAYER_BIND_VALID 0) 1).set
    (Reg.LAYER_COMMIT_STATUS_STATE 0) 1).set (Reg.LAYER_CTRL_EN 0) 1

/-- The pipe excluded becomes SUSPECT, which writes its PIPE_STATUS. -/
theorem strayPipe_changesShadow :
    (strayPipeState.latch 0).reg (Reg.LAYER_CTRL 0) = 0x1020003 ∧ strayPipeState.reg (Reg.LAYER_CTRL 0) = 1 := by decide +kernel

/-- Refutes O56: the statement speaks of every state, also of one whose screen record excludes a pipe that does not exist. At the latch
of a commit that is due the change of pipe then writes the shadow register that the statement says is kept. -/
theorem not_layerCommitAppliesWhenDue : ¬ Obligations.LayerCommitAppliesWhenDue := by
  intro h
  obtain ⟨-, -, -, -, -, -, -, -, -, -, hlatch, -⟩ := h strayPipeState 0 (.block 0 .normal) 0 0 .normal 0 0 0
  obtain ⟨happlied, -⟩ := hlatch (by decide +kernel)
  obtain ⟨t, hw, -, -, -, -, -, hshadow, -⟩ := happlied (by decide +kernel) (by decide +kernel)
  have ht : t = (strayPipeState.latch 0).inOrder strayPipeState := Host.Outcome.next.inj (hw.symm.trans (exec_latch strayPipeState 0))
  obtain ⟨hafter, hbefore⟩ := strayPipe_changesShadow
  have hkept := (hshadow 0 (by omega)).2
  rw [ht, State.inOrder_reg] at hkept
  exact absurd (hafter.symm.trans (hkept.trans hbefore)) (by decide)

end Sys2Proof.Machine
end

section
/-! PROOF. O54: the AUX and I2C masters of a port. Both masters have the same registers in another place, so each law is said for both. -/

namespace Sys2Proof.Machine

-- one proof after another: each thread of a proof takes its share of the check's memory
set_option Elab.async false

/-- The fields that an event of a port's link sets. -/
def linkRaised (s : State) (p : Nat) (flag : Fld) : List (Fld × Nat) :=
  [(Reg.IC_SRC_PENDING (25 + p), 1), (Reg.DPO_LINK_STATUS_EVENTS p, s.more (Reg.DPO_LINK_STATUS_EVENTS p)), (flag, 1)]

theorem sourceUsed_low {k : Nat} (h1 : 1 ≤ k) (h : k < 126) : sourceUsed k = true := by
  simp only [sourceUsed, Bool.and_eq_true, decide_eq_true_eq, bne_iff_ne]
  omega

theorem setsOnly_linkEvent {u t : State} {l : List (Fld × Nat)} (h : u.SetsOnly l t) (p : Fin 8) (hk : u.SourceFree (25 + p)) {flag : Fld}
    (hd : flag.lo + flag.width ≤ 24) : u.SetsOnly (linkRaised t p flag ++ l) (t.linkEvent p flag) :=
  setsOnly_event h (sourceUsed_low (by omega) (by omega)) hk (Nat.le_of_ble_eq_true rfl) (.inr hd)

/-- The number of an event after fields of other bits are set. -/
theorem State.SetsOnly.more_apart {u t : State} {l : List (Fld × Nat)} (h : u.SetsOnly l t) {f : Fld} (hf : f.lo + f.width ≤ 32)
    (hl : ∀ p ∈ l, p.1.addr ≠ f.addr ∨ f.lo + f.width ≤ p.1.lo ∨ p.1.lo + p.1.width ≤ f.lo) : t.more f = u.more f := by
  rw [State.more, h.get_apart hf hl, State.more]

/-! ### The masters' registers -/

/-- AUX_CMD or I2C_CMD. -/
def sideCmd (i2c : Bool) (p : Nat) : Nat := if i2c then Reg.DPO_I2C_CMD p else Reg.DPO_AUX_CMD p
/-- AUX_STATUS or I2C_STATUS. -/
def sideStatus (i2c : Bool) (p : Nat) : Nat := if i2c then Reg.DPO_I2C_STATUS p else Reg.DPO_AUX_STATUS p
/-- AUX_DATA_k or I2C_DATA_k. -/
def sideData (i2c : Bool) (p k : Nat) : Nat := if i2c then Reg.DPO_I2C_DATA p k else Reg.DPO_AUX_DATA p k
/-- BUSY of a master. -/
def sideBusy (i2c : Bool) (p : Nat) : Fld := ⟨sideStatus i2c p, 0, 1⟩
/-- EVENTS of a master. -/
def sideEvents (i2c : Bool) (p : Nat) : Fld := ⟨sideStatus i2c p, 24, 8⟩
/-- The bits of a command that hold its address. -/
def addrBits (i2c : Bool) : Nat := if i2c then 7 else 20

theorem access_sideCmd (i2c : Bool) (p : Fin 8) :
    rowAccess (sideCmd i2c p) = some (if i2c then 0xF0007F0F else 0xFFFFFF0F, 0, 0, 0) := by
  revert p; cases i2c <;> decide +kernel

theorem sideData_ne_status (i2c : Bool) (p : Nat) {k : Nat} (hk : k < 4) : sideData i2c p k ≠ sideStatus i2c p := by
  cases i2c
  · show Reg.DPO_AUX_DATA p k ≠ Reg.DPO_AUX_STATUS p
    simp only [Reg.DPO_AUX_DATA, Reg.DPO_AUX_STATUS, reg]
    omega
  · show Reg.DPO_I2C_DATA p k ≠ Reg.DPO_I2C_STATUS p
    simp only [Reg.DPO_I2C_DATA, Reg.DPO_I2C_STATUS, reg]
    omega

section
variable {s : State} {w : World} {v : Word}

/-! ### Commands -/

/-- The fields that the start of a transaction sets. -/
def startFields (i2c : Bool) (p : Nat) (v : Word) (req : Nat) : List (Fld × Nat) :=
  [(sideBusy i2c p, 1), (⟨sideCmd i2c p, 28, 4⟩, req), (⟨sideCmd i2c p, 8, addrBits i2c⟩, getBits v 8 (addrBits i2c)),
    (⟨sideCmd i2c p, 0, 4⟩, getBits v 0 4)]

/-- The state with the retries of the AUX master's transaction at 0; the I2C master has none. -/
def State.retriesNew (s : State) (i2c : Bool) (p : Nat) : State := if i2c then s else s.setPort p { s.port p with aux := {} }

theorem auxCmd_eq (s : State) (p : Nat) (i2c : Bool) (v : Word) : s.auxCmd p i2c v =
    if s.bit (sideBusy i2c p) then s.linkEvent p (Reg.DPO_LINK_STATUS_CFG_ERR p)
    else ((s.plainWrite (sideCmd i2c p) v).retriesNew i2c p).set (sideBusy i2c p) 1 := by cases i2c <;> rfl

theorem auxCmd_busy (i2c : Bool) (p : Fin 8) (hk : s.SourceFree (25 + p)) (hb : s.bit (sideBusy i2c p) = true) :
    s.SetsOnly (linkRaised s p (Reg.DPO_LINK_STATUS_CFG_ERR p)) (s.auxCmd p i2c v) := by
  have h := setsOnly_linkEvent (setsOnly_refl s) p hk (flag := Reg.DPO_LINK_STATUS_CFG_ERR p) (by simp)
  rw [List.append_nil] at h
  rwa [auxCmd_eq, if_pos hb]

theorem setsOnly_command (i2c : Bool) (p : Fin 8) {req : Nat} (hr : req < 16) :
    s.SetsOnly [(⟨sideCmd i2c p, 28, 4⟩, req), (⟨sideCmd i2c p, 8, addrBits i2c⟩, getBits v 8 (addrBits i2c)),
      (⟨sideCmd i2c p, 0, 4⟩, getBits v 0 4)] (s.plainWrite (sideCmd i2c p) (setBits v 28 4 req)) := by
  have h := setsOnly_open (s := s) (v := setBits v 28 4 req) (access_sideCmd i2c p) [(28, 4), (8, addrBits i2c), (0, 4)]
    (by cases i2c <;> decide)
  have ha : addrBits i2c ≤ 20 := by cases i2c <;> decide
  have hreq : getBits (setBits v 28 4 req) 28 4 = req := (getBits_setBits_same _ _ _ _ (by omega)).trans (Nat.mod_eq_of_lt hr)
  simp only [fieldsOf, List.map_cons, List.map_nil, hreq, getBits_setBits_other v 28 4 req 8 (addrBits i2c) (by omega) (by omega),
    getBits_setBits_other v 28 4 req 0 4 (by omega) (by omega)] at h
  exact h

theorem auxCmd_start (i2c : Bool) (p : Fin 8) {req : Nat} (hr : req < 16) (hb : s.bit (sideBusy i2c p) = false) :
    (s.retriesNew i2c p).SetsOnly (startFields i2c p v req) (s.auxCmd p i2c (setBits v 28 4 req)) := by
  have h := setsOnly_command (s := s) (v := v) i2c p hr
  have hnew := setsOnly_beside (f := (·.retriesNew i2c p)) (fun _ _ => by cases i2c <;> rfl) h
  rw [auxCmd_eq, hb]
  exact setsOnly_set hnew (sideBusy i2c p) 1

/-- Commands of the masters, with their request codes. -/
theorem exec_command (p : Fin 8) (ha : s.Admits w 0x04 p false) :
    (∀ c ∈ [(Instr.auxNativeWrite p w v, 8), (.auxNativeRead p w v, 9), (.auxI2cWrite p w v, 0), (.auxI2cRead p w v, 1),
      (.auxI2cWriteMot p w v, 4), (.auxI2cReadMot p w v, 5)], exec c.1 s = .next (s.auxCmd p false (setBits v 28 4 c.2))) ∧
    ∀ c ∈ [(Instr.i2cWrite p w v, 0), (.i2cRead p w v, 1), (.i2cWriteRead p w v, 2)],
      exec c.1 s = .next (s.auxCmd p true (setBits v 28 4 c.2)) := by
  simp only [List.forall_mem_cons, List.not_mem_nil, false_implies, implies_true, and_true]
  exact ⟨⟨congrArg _ (asWriter_admits ha _), congrArg _ (asWriter_admits ha _), congrArg _ (asWriter_admits ha _),
    congrArg _ (asWriter_admits ha _), congrArg _ (asWriter_admits ha _), congrArg _ (asWriter_admits ha _)⟩,
    congrArg _ (asWriter_admits ha _), congrArg _ (asWriter_admits ha _), congrArg _ (asWriter_admits ha _)⟩

/-! ### The end of a transaction -/

/-- The fields that bytes set in data registers, from byte `i` on; the last comes first. -/
def intoFields (base : Nat → Nat) (i : Nat) (bs : List Byte) : List (Fld × Nat) :=
  ((bs.zipIdx i).map fun b => (({ addr := base (b.2 / 4), lo := 8 * (b.2 % 4), width := 8 } : Fld), b.1.toNat)).reverse

theorem setsOnly_putData {u : State} (base : Nat → Nat) (bs : List Byte) : ∀ {t : State} {l : List (Fld × Nat)} (i : Nat),
    u.SetsOnly l t → u.SetsOnly (intoFields base i bs ++ l) (t.putData base i bs) := by
  induction bs with
  | nil => intro t l i h; exact h
  | cons b bs ih =>
    intro t l i h
    have hnext := ih (i + 1) (setsOnly_set h { addr := base (i / 4), lo := 8 * (i % 4), width := 8 } b.toNat)
    have hl : intoFields base i (b :: bs) = intoFields base (i + 1) bs ++ [({ addr := base (i / 4), lo := 8 * (i % 4), width := 8 }, b.toNat)] := by
      simp [intoFields, List.zipIdx_cons]
    rw [hl, List.append_assoc]
    exact hnext

theorem intoFields_addr {base : Nat → Nat} {bs : List Byte} (hlen : bs.length ≤ 16) : ∀ p ∈ intoFields base 0 bs, ∃ k < 4, p.1.addr = base k := by
  intro p hp
  rw [intoFields, List.mem_reverse, List.mem_map] at hp
  obtain ⟨b, hb, rfl⟩ := hp
  have hlt := (List.mem_zipIdx hb).2.1
  exact ⟨b.2 / 4, by omega, rfl⟩

/-- The fields that the end of a transaction sets. -/
def endFields (s : State) (i2c : Bool) (p reply n : Nat) : List (Fld × Nat) :=
  [(sideEvents i2c p, s.more (sideEvents i2c p)), (⟨sideStatus i2c p, 1, 1⟩, 1), (sideBusy i2c p, 0), (⟨sideStatus i2c p, 8, 5⟩, n),
    (⟨sideStatus i2c p, 16, 2⟩, reply)]

/-- A transaction's status at its end. -/
def State.ended (s : State) (i2c : Bool) (p reply n : Nat) : State :=
  ((((s.set ⟨sideStatus i2c p, 16, 2⟩ reply).set ⟨sideStatus i2c p, 8, 5⟩ n).set (sideBusy i2c p) 0).set ⟨sideStatus i2c p, 1, 1⟩ 1).count
    (sideEvents i2c p)

theorem setsOnly_ended {u t : State} {l : List (Fld × Nat)} (h : u.SetsOnly l t) (i2c : Bool) (p reply n : Nat)
    (hl : ∀ x ∈ l, x.1.addr ≠ sideStatus i2c p) : u.SetsOnly (endFields u i2c p reply n ++ l) (t.ended i2c p reply n) := by
  have hset := setsOnly_set (setsOnly_set (setsOnly_set (setsOnly_set h ⟨sideStatus i2c p, 16, 2⟩ reply) ⟨sideStatus i2c p, 8, 5⟩ n)
    (sideBusy i2c p) 0) ⟨sideStatus i2c p, 1, 1⟩ 1
  have hmore := hset.more_apart (f := sideEvents i2c p) (by simp [sideEvents])
    (by simpa [sideEvents, sideBusy] using fun f v hm => Or.inl (hl (f, v) hm))
  have hall := setsOnly_set hset (sideEvents i2c p) (u.more (sideEvents i2c p))
  rw [← hmore] at hall
  rw [endFields, ← hmore]
  exact hall

/-- Whether a transaction of a master may end with a reply. -/
def State.mayEnd (s : State) (i2c : Bool) (p reply : Nat) : Bool :=
  if i2c then s.bit (sideBusy i2c p) && reply != 2 else s.auxFree p && (reply != 2 || (s.port p).aux.defers == 7)

/-- The bytes that a transaction moves at the most. -/
def State.moves (s : State) (i2c : Bool) (p moved : Nat) : Nat := min moved (s.get ⟨sideCmd i2c p, 0, 4⟩ + 1)

/-- The state with the bytes that a transaction has read, where it reads, and the number of its bytes. -/
def State.sideTaken (s : State) (i2c : Bool) (p : Nat) (n : Nat) (data : List Byte) : State × Nat :=
  if reqReads i2c (s.get ⟨sideCmd i2c p, 28, 4⟩) then (s.putData (sideData i2c p) 0 (data.take n), (data.take n).length) else (s, n)

theorem auxEnd_eq (s : State) (p : Nat) (i2c : Bool) (reply moved : Nat) (data : List Byte) : s.auxEnd p i2c reply moved data =
    if !s.mayEnd i2c p reply then s
    else (s.sideTaken i2c p (s.moves i2c p moved) data).1.ended i2c p reply (s.sideTaken i2c p (s.moves i2c p moved) data).2 := by
  rw [State.sideTaken]
  cases i2c
  · cases hr : reqReads false (s.get ⟨sideCmd false p, 28, 4⟩) <;> change reqReads _ (getBits (s.reg (Reg.DPO_AUX_CMD p)) 28 4) = _ at hr
      <;> simp only [State.auxEnd, hr, Bool.false_eq_true, if_false] <;> rfl
  · cases hr : reqReads true (s.get ⟨sideCmd true p, 28, 4⟩) <;> change reqReads _ (getBits (s.reg (Reg.DPO_I2C_CMD p)) 28 4) = _ at hr
      <;> simp only [State.auxEnd, hr, if_true] <;> rfl

theorem auxEnd_not {i2c : Bool} {p reply : Nat} (h : s.mayEnd i2c p reply = false) (moved : Nat) (data : List Byte) :
    s.auxEnd p i2c reply moved data = s := by
  rw [auxEnd_eq, h]
  rfl

theorem auxEnd_writes {i2c : Bool} {p reply : Nat} (h : s.mayEnd i2c p reply = true) (moved : Nat) (data : List Byte)
    (hr : reqReads i2c (s.get ⟨sideCmd i2c p, 28, 4⟩) = false) :
    s.SetsOnly (endFields s i2c p reply (s.moves i2c p moved)) (s.auxEnd p i2c reply moved data) := by
  rw [auxEnd_eq, h, State.sideTaken, hr]
  have hend := setsOnly_ended (setsOnly_refl s) i2c p reply (s.moves i2c p moved) (by simp)
  rwa [List.append_nil] at hend

theorem auxEnd_reads {i2c : Bool} {p reply : Nat} (h : s.mayEnd i2c p reply = true) (moved : Nat) (data : List Byte)
    (hr : reqReads i2c (s.get ⟨sideCmd i2c p, 28, 4⟩) = true) :
    s.SetsOnly (endFields s i2c p reply (data.take (s.moves i2c p moved)).length ++ intoFields (sideData i2c p) 0 (data.take (s.moves i2c p moved)))
      (s.auxEnd p i2c reply moved data) := by
  have hlen : (data.take (s.moves i2c p moved)).length ≤ 16 := by
    have hlt : s.get ⟨sideCmd i2c p, 0, 4⟩ < 16 := s.get_lt ⟨sideCmd i2c p, 0, 4⟩
    rw [List.length_take, State.moves]
    omega
  have hput := setsOnly_putData (sideData i2c p) (data.take (s.moves i2c p moved)) 0 (setsOnly_refl s)
  rw [List.append_nil] at hput
  rw [auxEnd_eq, h, State.sideTaken, hr]
  refine setsOnly_ended hput i2c p reply _ fun x hx => ?_
  obtain ⟨k, hk, hx⟩ := intoFields_addr hlen x hx
  rw [hx]
  exact sideData_ne_status i2c p hk

/-! ### No reply -/

/-- Whether a master's transaction moves. -/
def State.sideMoves (s : State) (i2c : Bool) (p : Nat) : Bool := if i2c then s.bit (sideBusy i2c p) else s.auxFree p

theorem auxTimeout_eq (s : State) (p : Nat) (i2c : Bool) : s.auxTimeout p i2c = if !s.sideMoves i2c p then s
    else ((s.set (sideBusy i2c p) 0).set ⟨sideStatus i2c p, 2, 1⟩ 1).count (sideEvents i2c p) := by cases i2c <;> rfl

theorem auxTimeout_moving {i2c : Bool} {p : Nat} (h : s.sideMoves i2c p = true) :
    s.SetsOnly [(sideEvents i2c p, s.more (sideEvents i2c p)), (⟨sideStatus i2c p, 2, 1⟩, 1), (sideBusy i2c p, 0)] (s.auxTimeout p i2c) := by
  have hset := setsOnly_set (setsOnly_set (setsOnly_refl s) (sideBusy i2c p) 0) ⟨sideStatus i2c p, 2, 1⟩ 1
  have hmore := hset.more_apart (f := sideEvents i2c p) (by simp [sideEvents]) (by simp [sideEvents, sideBusy])
  have hall := setsOnly_set hset (sideEvents i2c p) (s.more (sideEvents i2c p))
  rw [auxTimeout_eq, h]
  rw [← hmore] at hall ⊢
  exact hall

theorem auxTimeout_still {i2c : Bool} {p : Nat} (h : s.sideMoves i2c p = false) : s.auxTimeout p i2c = s := by
  rw [auxTimeout_eq, h]
  rfl

/-! ### A DEFER -/

theorem auxDefer_again {p : Nat} (hf : s.auxFree p = true) (hd : (s.port p).aux.defers < 7) :
    s.auxDefer p = s.setPort p { s.port p with aux := { defers := (s.port p).aux.defers + 1 } } := if_pos (by simp [hf, hd])

theorem auxDefer_over {p : Nat} (h : s.auxFree p = false ∨ 7 ≤ (s.port p).aux.defers) : s.auxDefer p = s := by
  refine if_neg ?_
  rcases h with h | h
  · simp [h]
  · simp [Nat.not_lt.2 h]

end

/-- Settles O54: each command, end, retry and timeout of the two masters, by the laws that hold for both. -/
theorem portSideChannelTransactions : Obligations.PortSideChannelTransactions := by
  intro s p w v reply moved data r refused auxStart i2cStart auxBusy i2cBusy free reads ireads most imost final auxDone i2cDone into
  have hexec := fun ha : s.Admits w 0x04 p false => exec_command (v := v) p ha
  simp only [List.forall_mem_cons, List.not_mem_nil, false_implies, implies_true, and_true] at hexec
  refine ⟨fun ha => ?_, fun hf hd => ⟨_, congrArg Host.Outcome.next (auxDefer_again hf hd), setsOnly_refl _⟩,
    fun h => ⟨_, congrArg Host.Outcome.next (auxDefer_over h), setsOnly_refl _⟩, fun h => ?_, fun hf hfin => ?_, fun h => ?_, fun hb hr => ?_,
    fun h => ⟨_, rfl, auxTimeout_moving (i2c := false) h⟩, fun h => ⟨_, congrArg Host.Outcome.next (auxTimeout_still (i2c := false) h), setsOnly_refl _⟩,
    fun h => ⟨_, rfl, auxTimeout_moving (i2c := true) h⟩, fun h => ⟨_, congrArg Host.Outcome.next (auxTimeout_still (i2c := true) h), setsOnly_refl _⟩⟩
  · obtain ⟨⟨h8, h9, h0, h1, h4, h5⟩, i0, i1, i2⟩ := hexec ha
    have start : ∀ (i2c : Bool) (req : Nat), req < 16 → s.bit (sideBusy i2c p) = false →
        (s.retriesNew i2c p).SetsOnly (startFields i2c p v req) (s.auxCmd p i2c (setBits v 28 4 req)) :=
      fun i2c req hr hb => auxCmd_start i2c p hr hb
    refine ⟨fun hb hk => ?_, fun hb => ?_, fun hb hk => ?_, fun hb => ?_⟩
    · have hbusy := fun x => auxCmd_busy (s := s) (v := x) false p hk hb
      exact ⟨⟨_, h8, hbusy _⟩, ⟨_, h9, hbusy _⟩, ⟨_, h0, hbusy _⟩, ⟨_, h1, hbusy _⟩, ⟨_, h4, hbusy _⟩, ⟨_, h5, hbusy _⟩⟩
    · exact ⟨⟨_, h8, start false 8 (by omega) hb⟩, ⟨_, h9, start false 9 (by omega) hb⟩, ⟨_, h0, start false 0 (by omega) hb⟩,
        ⟨_, h1, start false 1 (by omega) hb⟩, ⟨_, h4, start false 4 (by omega) hb⟩, ⟨_, h5, start false 5 (by omega) hb⟩⟩
    · have hbusy := fun x => auxCmd_busy (s := s) (v := x) true p hk hb
      exact ⟨⟨_, i0, hbusy _⟩, ⟨_, i1, hbusy _⟩, ⟨_, i2, hbusy _⟩⟩
    · exact ⟨⟨_, i0, start true 0 (by omega) hb⟩, ⟨_, i1, start true 1 (by omega) hb⟩, ⟨_, i2, start true 2 (by omega) hb⟩⟩
  · refine ⟨_, congrArg Host.Outcome.next (auxEnd_not (i2c := false) (Bool.and_eq_false_iff.2 h) _ _), setsOnly_refl _⟩
  · have hmay : s.mayEnd false p reply = true := Bool.and_eq_true_iff.2 ⟨hf, hfin⟩
    exact ⟨fun hr => ⟨_, rfl, auxEnd_writes hmay moved data hr⟩, fun hr => ⟨_, rfl, auxEnd_reads hmay moved data hr⟩⟩
  · have hnot : s.mayEnd true p reply = false := by
      refine Bool.and_eq_false_iff.2 (h.imp_right fun h2 => ?_)
      rw [h2]; rfl
    exact ⟨_, congrArg Host.Outcome.next (auxEnd_not hnot _ _), setsOnly_refl _⟩
  · have hmay : s.mayEnd true p reply = true := Bool.and_eq_true_iff.2 ⟨hb, bne_iff_ne.2 hr⟩
    exact ⟨fun hr => ⟨_, rfl, auxEnd_writes hmay moved data hr⟩, fun hr => ⟨_, rfl, auxEnd_reads hmay moved data hr⟩⟩

end Sys2Proof.Machine
end

section
/-! PROOF. O55: power and backlight of a panel. -/

namespace Sys2Proof.Machine

-- one proof after another: each thread of a proof takes its share of the check's memory
set_option Elab.async false

section
variable {u t : State} {l : List (Fld × Nat)}

theorem setsOnly_setPort (h : u.SetsOnly l t) (p : Nat) (r : PortState) : (u.setPort p r).SetsOnly l (t.setPort p r) :=
  setsOnly_beside (f := (·.setPort p r)) (fun _ _ => rfl) h

theorem State.SetsOnly.port (h : u.SetsOnly l t) (p : Nat) : t.port p = u.port p := h.proj (State.port · p) fun _ _ => rfl

@[simp] theorem State.port_setPort_same (s : State) (p : Nat) (r : PortState) : (s.setPort p r).port p = r := sget_sput_same _ _ _

@[simp] theorem State.setPort_setPort (s : State) (p : Nat) (q r : PortState) : (s.setPort p q).setPort p r = s.setPort p r := by
  simp [State.setPort, sput_sput]

/-- A field of another register, or of other bits, reads what it read. -/
theorem State.SetsOnly.bit_apart (h : u.SetsOnly l t) {f : Fld} (hf : f.lo + f.width ≤ 32)
    (hl : ∀ p ∈ l, p.1.addr ≠ f.addr ∨ f.lo + f.width ≤ p.1.lo ∨ p.1.lo + p.1.width ≤ f.lo) : t.bit f = u.bit f := by
  rw [State.bit, h.get_apart hf hl, State.bit]

end

theorem withBit_of_set {v : Word} {i : Nat} (h : getBits v i 1 = 1) : withBit v i = v := by
  have hv : v.getLsbD i = true := by rwa [getBits_one, Bool.toNat_eq_one] at h
  refine BitVec.eq_of_getLsbD_eq fun j hj => ?_
  rw [getLsbD_withBit v i hj]
  by_cases hij : i = j
  · subst hij; rw [hv, Bool.true_or]
  · simp [hij]

theorem withoutBit_of_clear {v : Word} {i : Nat} (h : getBits v i 1 = 0) : withoutBit v i = v := by
  have hv : v.getLsbD i = false := by rwa [getBits_one, Bool.toNat_eq_zero] at h
  refine BitVec.eq_of_getLsbD_eq fun j hj => ?_
  rw [getLsbD_withoutBit v i hj]
  by_cases hij : i = j
  · subst hij; rw [hv, Bool.false_and]
  · simp [hij]

/-! ### DPO_n_PANEL -/

section
variable {s : State} {w : World} {v : Word}

theorem access_panel (p : Fin 8) : rowAccess (Reg.DPO_PANEL p) = some (3, 0, 0x100, 0) := by revert p; decide +kernel

/-- The fields that a write of DPO_n_PANEL sets. -/
def panelFields (s : State) (p : Nat) (v : Word) (bl on : Nat) : List (Fld × Nat) :=
  [(Reg.DPO_PANEL_SEQ_ERR p, if getBits v 8 1 = 1 then 0 else s.get (Reg.DPO_PANEL_SEQ_ERR p)), (Reg.DPO_PANEL_BL_ON p, bl),
    (Reg.DPO_PANEL_PANEL_ON p, on)]

theorem setsOnly_panelPlain (s : State) (p : Fin 8) (v : Word) :
    s.SetsOnly (panelFields s p v (getBits v 1 1) (getBits v 0 1)) (s.plainWrite (Reg.DPO_PANEL p) v) := by
  have h3 : ∀ i < 32, (3 : Word).getLsbD i = decide (i < 2) := by decide
  have h8 : ∀ i < 32, (0x100 : Word).getLsbD i = decide (i = 8) := by decide
  have h0 : ∀ i, (0 : Word).getLsbD i = false := fun i => BitVec.getLsbD_zero
  refine setsOnly_access (access_panel p) (by simp [panelFields]) fun i hi => ?_
  rw [panelFields, State.get, clearedBit_eq, h3 i hi, h8 i hi, h0]
  simp only [bitAfter_cons_getBits, bitAfter_nil, BitVec.getLsbD_and, BitVec.getLsbD_not, hi]
  grind

/-- The fields that a write of DPO_n_PANEL sets, BL_EN among them where the backlight goes low. -/
def panelSets (s : State) (p : Nat) (v : Word) (bl on : Nat) : List (Fld × Nat) :=
  if bl = 1 ∧ on = 1 then panelFields s p v 1 1 else (Reg.DPO_PANEL_BL_EN_LIVE p, 0) :: panelFields s p v bl on

/-- The registers of DPO_n_PANEL and BL_EN after a write. -/
def State.panelRegs (s : State) (p : Nat) (v : Word) : State :=
  if bitOf v.toNat 1 && bitOf v.toNat 0 then s.plainWrite (Reg.DPO_PANEL p) v else (s.plainWrite (Reg.DPO_PANEL p) v).blLow p

theorem setsOnly_panelRegs (s : State) (p : Fin 8) (v : Word) :
    s.SetsOnly (panelSets s p v (getBits v 1 1) (getBits v 0 1)) (s.panelRegs p v) := by
  have h := setsOnly_panelPlain s p v
  rw [State.panelRegs, panelSets, bitOf_eq_getBits, bitOf_eq_getBits]
  by_cases hb : getBits v 1 1 = 1 ∧ getBits v 0 1 = 1
  · obtain ⟨h1, h0⟩ := hb
    rw [h1, h0] at h ⊢
    exact h
  · rw [if_neg hb, if_neg (by simpa using hb)]
    exact setsOnly_set h _ 0

theorem panelSets_addr (p : Nat) (bl on : Nat) :
    ∀ x ∈ panelSets s p v bl on, x.1.addr = Reg.DPO_PANEL p ∧ (x.1.lo + x.1.width ≤ 3 ∨ 4 ≤ x.1.lo) := by
  rw [panelSets]
  split <;> simp [panelFields]

/-- R99 to R101: a write of DPO_n_PANEL that is not refused. -/
theorem panelWrite_eq (p : Fin 8) (rested : Bool) (h : bitOf v.toNat 0 = true ∨ s.screenOn p = none) : s.panelWrite p v rested =
    (let x := s.panelRegs p v
    let r := s.port p
    let vdd := s.bit (Reg.DPO_PANEL_VDD_LIVE p)
    if bitOf v.toNat 0 then
      if s.bit (Reg.DPO_PANEL_PANEL_ON p) then x
      else if vdd && r.down = 0 then x
      else if r.down = 0 && (rested || !r.wentLow) then x.vddRise p
      else x.setPort p { r with powerHeld := true }
    else if !s.bit (Reg.DPO_PANEL_PANEL_ON p) then x
    else x.setPort p { r with powerHeld := false, awaitHpd := false, down := if vdd then (if r.down = 0 then 1 else r.down) else 0 }) := by
  have hset := setsOnly_panelRegs s p v
  have hvdd : (s.panelRegs p v).bit (Reg.DPO_PANEL_VDD_LIVE p) = s.bit (Reg.DPO_PANEL_VDD_LIVE p) :=
    hset.bit_apart (Nat.le_of_ble_eq_true rfl) fun x hx => .inr (.symm (panelSets_addr p _ _ x hx).2)
  have hport := hset.port p
  rw [State.panelWrite, if_neg (by rcases h with h | h <;> simp [h])]
  dsimp only
  rw [← hvdd, ← hport]
  rfl

theorem setsOnly_vddRise {u t : State} {l : List (Fld × Nat)} (h : u.SetsOnly l t) (p : Nat) (hl : ∀ x ∈ l, x.1.addr = Reg.DPO_PANEL p) :
    (u.setPort p { u.port p with powerHeld := false, awaitHpd := !u.bit (Reg.DPO_LINK_STATUS_HPD p) }).SetsOnly
      ((Reg.DPO_PANEL_VDD_LIVE p, 1) :: l) (t.vddRise p) := by
  have hne : Reg.DPO_PANEL p ≠ Reg.DPO_LINK_STATUS p := by
    simp only [Reg.DPO_PANEL, Reg.DPO_LINK_STATUS, reg]
    omega
  have hhpd : t.bit (Reg.DPO_LINK_STATUS_HPD p) = u.bit (Reg.DPO_LINK_STATUS_HPD p) :=
    h.bit_apart (Nat.le_of_ble_eq_true rfl) fun x hx => .inl (by rw [hl x hx]; exact hne)
  rw [State.vddRise, h.port, hhpd]
  exact setsOnly_set (setsOnly_setPort h p _) _ 1

/-! ### Writes that set or clear PANEL_ON and BL_ON -/

theorem panelSets_withBit (p : Nat) {i : Nat} (hi : i < 8) (bl on : Nat) : panelSets s p (withBit v i) bl on = panelSets s p v bl on := by
  simp only [panelSets, panelFields, getBits_withBit v (i := i) (lo := 8) (n := 1) (by omega) (by omega)]

theorem panelSets_withoutBit (p : Nat) {i : Nat} (hi : i < 8) (bl on : Nat) :
    panelSets s p (withoutBit v i) bl on = panelSets s p v bl on := by
  simp only [panelSets, panelFields, getBits_withoutBit v (i := i) (lo := 8) (n := 1) (by omega) (by omega)]

theorem setsOnly_panelOn (s : State) (p : Fin 8) (v : Word) : s.SetsOnly (panelSets s p v (getBits v 1 1) 1) (s.panelRegs p (withBit v 0)) := by
  have h := setsOnly_panelRegs s p (withBit v 0)
  rwa [getBits_withBit_self v (by omega), panelSets_withBit _ (by omega), getBits_withBit v (by omega) (by omega)] at h

theorem setsOnly_panelOff (s : State) (p : Fin 8) (v : Word) : s.SetsOnly (panelSets s p v (getBits v 1 1) 0) (s.panelRegs p (withoutBit v 0)) := by
  have h := setsOnly_panelRegs s p (withoutBit v 0)
  rwa [getBits_withoutBit_self v (by omega), panelSets_withoutBit _ (by omega), getBits_withoutBit v (by omega) (by omega)] at h

theorem exec_panel (p : Fin 8) (ha : s.Admits w 0x04 p false) (rested : Bool) :
    exec (.panelOn p w v rested) s = .next (s.panelWrite p (withBit v 0) rested) ∧
    exec (.panelOff p w v) s = .next (s.panelWrite p (withoutBit v 0) false) ∧
    exec (.blOn p w v) s = .next (s.panelWrite p (withBit v 1) false) ∧
    exec (.blOff p w v) s = .next (s.panelWrite p (withoutBit v 1) false) :=
  ⟨congrArg _ (asWriter_admits ha _), congrArg _ (asWriter_admits ha _), congrArg _ (asWriter_admits ha _),
    congrArg _ (asWriter_admits ha _)⟩

/-- R99: a panel is asked for. -/
theorem panel_on (p : Fin 8) (ha : s.Admits w 0x04 p false) (rested : Bool) :
    let r := s.port p
    let was := s.bit (Reg.DPO_PANEL_PANEL_ON p)
    let vdd := s.bit (Reg.DPO_PANEL_VDD_LIVE p)
    let sets := panelSets s p v (getBits v 1 1) 1
    (was = true ∨ (vdd = true ∧ r.down = 0) → Does (.panelOn p w v rested) s s sets) ∧
    (was = false → r.down = 0 → vdd = false → rested = true ∨ r.wentLow = false → Does (.panelOn p w v rested) s
      (s.setPort p { r with powerHeld := false, awaitHpd := !s.bit (Reg.DPO_LINK_STATUS_HPD p) }) ((Reg.DPO_PANEL_VDD_LIVE p, 1) :: sets)) ∧
    (was = false → r.down ≠ 0 ∨ (vdd = false ∧ rested = false ∧ r.wentLow = true) →
      Does (.panelOn p w v rested) s (s.setPort p { r with powerHeld := true }) sets) := by
  intro r was vdd sets
  obtain ⟨he, -⟩ := exec_panel (v := v) p ha rested
  have h0 : bitOf (withBit v 0).toNat 0 = true := bitOf_withBit_self v (by omega)
  rw [panelWrite_eq p rested (.inl h0), h0] at he
  have hset := setsOnly_panelOn s p v
  refine ⟨fun h => ⟨_, he, ?_⟩, fun hw hd hv hr => ⟨_, he, ?_⟩, fun hw h => ⟨_, he, ?_⟩⟩
  · rcases h with h | ⟨hv, hd⟩
    · simpa only [if_true, show s.bit (Reg.DPO_PANEL_PANEL_ON p) = true from h] using hset
    · simp only [show s.bit (Reg.DPO_PANEL_VDD_LIVE p) = true from hv, show (s.port p).down = 0 from hd, decide_true, Bool.and_self, if_true, ite_self]
      exact hset
  · have hgo : ((s.port p).down = 0 && (rested || !(s.port p).wentLow)) = true := by
      rcases hr with hr | hr
      · simp [show (s.port p).down = 0 from hd, hr]
      · simp [show (s.port p).down = 0 from hd, show (s.port p).wentLow = false from hr]
    simp only [show s.bit (Reg.DPO_PANEL_PANEL_ON p) = false from hw, show s.bit (Reg.DPO_PANEL_VDD_LIVE p) = false from hv, hgo,
      Bool.false_and, Bool.false_eq_true, if_false, if_true]
    exact setsOnly_vddRise hset p fun x hx => (panelSets_addr p _ _ x hx).1
  · have hv : (s.bit (Reg.DPO_PANEL_VDD_LIVE p) && decide ((s.port p).down = 0)) = false := by
      rcases h with h | ⟨hv, -⟩
      · simp [show (s.port p).down ≠ 0 from h]
      · simp [show s.bit (Reg.DPO_PANEL_VDD_LIVE p) = false from hv]
    have hgo : (decide ((s.port p).down = 0) && (rested || !(s.port p).wentLow)) = false := by
      rcases h with h | ⟨-, hr, hl⟩
      · simp [show (s.port p).down ≠ 0 from h]
      · simp [hr, show (s.port p).wentLow = true from hl]
    simp only [show s.bit (Reg.DPO_PANEL_PANEL_ON p) = false from hw, hv, hgo, Bool.false_eq_true, if_false, if_true]
    exact setsOnly_setPort hset p _

/-- R101: a panel is given up. -/
theorem panel_off (p : Fin 8) (ha : s.Admits w 0x04 p false) :
    let r := s.port p
    let was := s.bit (Reg.DPO_PANEL_PANEL_ON p)
    let vdd := s.bit (Reg.DPO_PANEL_VDD_LIVE p)
    let sets := (Reg.DPO_PANEL_BL_EN_LIVE p, 0) :: panelFields s p v (getBits v 1 1) 0
    (s.screenOn p ≠ none → s.SourceFree (25 + p) → Does (.panelOff p w v) s s (linkRaised s p (Reg.DPO_LINK_STATUS_WRITE_WHILE_ACTIVE p))) ∧
    (s.screenOn p = none →
      (was = false → Does (.panelOff p w v) s s sets) ∧
      (was = true → Does (.panelOff p w v) s
        (s.setPort p { r with powerHeld := false, awaitHpd := false, down := if vdd then (if r.down = 0 then 1 else r.down) else 0 }) sets)) := by
  intro r was vdd sets
  obtain ⟨-, he, -⟩ := exec_panel (v := v) p ha false
  have h0 : bitOf (withoutBit v 0).toNat 0 = false := bitOf_withoutBit_self v (by omega)
  refine ⟨fun hon hk => ⟨_, he, ?_⟩, fun hon => ?_⟩
  · have h := setsOnly_linkEvent (setsOnly_refl s) p hk (flag := Reg.DPO_LINK_STATUS_WRITE_WHILE_ACTIVE p) (by simp)
    rw [List.append_nil] at h
    rwa [State.panelWrite, if_pos (by simp [h0, Option.isSome_iff_ne_none, hon])]
  · rw [panelWrite_eq p false (.inr hon), h0] at he
    have hset := setsOnly_panelOff s p v
    rw [panelSets, if_neg (by omega)] at hset
    refine ⟨fun hw => ⟨_, he, ?_⟩, fun hw => ⟨_, he, ?_⟩⟩
    · simp only [show s.bit (Reg.DPO_PANEL_PANEL_ON p) = false from hw, Bool.not_false, Bool.false_eq_true, if_false, if_true]
      exact hset
    · simp only [show s.bit (Reg.DPO_PANEL_PANEL_ON p) = true from hw, Bool.not_true, Bool.false_eq_true, if_false]
      exact setsOnly_setPort hset p _

/-- R100: a write for BL_ON is one for PANEL_ON with the same word. -/
theorem backlight_execs (p : Fin 8) (ha : s.Admits w 0x04 p false) :
    (getBits v 0 1 = 1 → exec (.blOn p w v) s = exec (.panelOn p w (withBit v 1) false) s ∧
      exec (.blOff p w v) s = exec (.panelOn p w (withoutBit v 1) false) s) ∧
    (getBits v 0 1 = 0 → exec (.blOn p w v) s = exec (.panelOff p w (withBit v 1)) s ∧
      exec (.blOff p w v) s = exec (.panelOff p w (withoutBit v 1)) s) := by
  have hx := fun x : Word => exec_panel (v := x) p ha false
  have hin : getBits (withBit v 1) 0 1 = getBits v 0 1 := getBits_withBit v (by omega) (by omega)
  have hout : getBits (withoutBit v 1) 0 1 = getBits v 0 1 := getBits_withoutBit v (by omega) (by omega)
  obtain ⟨-, -, hbl, hbo⟩ := hx v
  obtain ⟨hon, hoff, -⟩ := hx (withBit v 1)
  obtain ⟨hon', hoff', -⟩ := hx (withoutBit v 1)
  refine ⟨fun h => ?_, fun h => ?_⟩
  · rw [hbl, hbo, hon, hon', withBit_of_set (hin.trans h), withBit_of_set (hout.trans h)]
    exact ⟨rfl, rfl⟩
  · rw [hbl, hbo, hoff, hoff', withoutBit_of_clear (hin.trans h), withoutBit_of_clear (hout.trans h)]
    exact ⟨rfl, rfl⟩

/-- R100: BL_ON of a panel that is powered. -/
theorem backlight_does (p : Fin 8) (ha : s.Admits w 0x04 p false) (h0 : getBits v 0 1 = 1) (hw : s.bit (Reg.DPO_PANEL_PANEL_ON p) = true) :
    Does (.blOn p w v) s s (panelFields s p v 1 1) ∧
      Does (.blOff p w v) s s ((Reg.DPO_PANEL_BL_EN_LIVE p, 0) :: panelFields s p v 0 1) := by
  obtain ⟨hbl, hbo⟩ := (backlight_execs (v := v) p ha).1 h0
  obtain ⟨t, he, ht⟩ := (panel_on (v := withBit v 1) p ha false).1 (.inl hw)
  obtain ⟨t', he', ht'⟩ := (panel_on (v := withoutBit v 1) p ha false).1 (.inl hw)
  rw [getBits_withBit_self v (by omega), panelSets_withBit _ (by omega), panelSets, if_pos ⟨rfl, rfl⟩] at ht
  rw [getBits_withoutBit_self v (by omega), panelSets_withoutBit _ (by omega), panelSets, if_neg (by omega)] at ht'
  exact ⟨⟨t, hbl.trans he, ht⟩, t', hbo.trans he', ht'⟩

/-! ### Delays of the sequence, and the PWM -/

theorem setsOnly_portDown {u t : State} {l : List (Fld × Nat)} (h : u.SetsOnly l t) (p : Nat) :
    (u.setPort p { u.port p with video := false }).SetsOnly
      ([(Reg.DPO_LINK_STATUS_LINK_OK p, 0), (Reg.DPO_LINK_CTRL_TRAIN p, 0), (Reg.DPO_LINK_STATUS_TRAINING p, 0)] ++ l) (t.linkDown p) := by
  have htrain := setsOnly_set (setsOnly_set h (Reg.DPO_LINK_STATUS_TRAINING p) 0) (Reg.DPO_LINK_CTRL_TRAIN p) 0
  have hstop := setsOnly_set (setsOnly_setPort htrain p { u.port p with video := false }) (Reg.DPO_LINK_STATUS_LINK_OK p) 0
  rw [← htrain.port] at hstop ⊢
  exact hstop

theorem powerDown_first {p : Nat} (h : (s.port p).down = 1) :
    (s.setPort p { s.port p with down := 2, why := .none, degrading := false, video := false }).SetsOnly
      [(Reg.DPO_LINK_STATUS_LINK_OK p, 0), (Reg.DPO_LINK_CTRL_TRAIN p, 0), (Reg.DPO_LINK_STATUS_TRAINING p, 0)] (s.powerDownStep p) := by
  have hdown := setsOnly_portDown (setsOnly_refl (s.setPort p { s.port p with down := 2, why := .none, degrading := false })) p
  rw [State.setPort_setPort, State.port_setPort_same, List.append_nil] at hdown
  rwa [State.powerDownStep, if_pos h]

theorem powerDown_second {p : Nat} (h : (s.port p).down = 2) :
    (s.setPort p { s.port p with down := 0, wentLow := true }).SetsOnly [(Reg.DPO_PANEL_VDD_LIVE p, 0)] (s.powerDownStep p) := by
  rw [State.powerDownStep, if_neg (by omega), if_pos h]
  exact setsOnly_set (setsOnly_refl _) _ 0

theorem powerDown_not {p : Nat} (h1 : (s.port p).down ≠ 1) (h2 : (s.port p).down ≠ 2) : s.powerDownStep p = s := by
  rw [State.powerDownStep, if_neg h1, if_neg h2]

theorem hpdTimeout_awaited (p : Fin 8) (h : (s.port p).awaitHpd = true) (hk : s.SourceFree (25 + p)) :
    Does (.panelHpdTimeout p) s (s.setPort p { s.port p with awaitHpd := false })
      [(Reg.IC_SRC_PENDING (25 + p), 1), (Reg.DPO_PANEL_EVENTS p, s.more (Reg.DPO_PANEL_EVENTS p)), (Reg.DPO_PANEL_SEQ_ERR p, 1)] :=
  ⟨_, congrArg Host.Outcome.next (if_pos h), setsOnly_event (setsOnly_refl _) (sourceUsed_low (by omega) (by omega)) hk
    (Nat.le_of_ble_eq_true rfl) (.inr (Nat.le_of_ble_eq_true rfl))⟩

theorem blEnable_does (p : Fin 8) :
    let go := s.bit (Reg.DPO_PANEL_BL_ON p) && s.videoValid p && !s.blReleased p
    (go = true → Does (.blEnableDelay p) s s [(Reg.DPO_PANEL_BL_EN_LIVE p, 1)]) ∧ (go = false → Does (.blEnableDelay p) s s []) :=
  ⟨fun h => ⟨_, congrArg Host.Outcome.next (if_pos h), setsOnly_set (setsOnly_refl s) _ 1⟩,
    fun h => ⟨_, congrArg Host.Outcome.next (if_neg (by rw [h]; exact Bool.false_ne_true)), setsOnly_refl s⟩⟩

theorem clampNat_eq (lo hi x : Nat) (h : lo ≤ hi) : clampNat lo hi x = max lo (min hi x) := by
  unfold clampNat
  split_ifs <;> omega

end

/-- Settles O55: each write of DPO_n_PANEL, each delay of the sequence and the PWM period, by the laws above. -/
theorem panelPowersInSequence : Obligations.PanelPowersInSequence := by
  intro s p w v rested r was vdd fields onFields duty video held
  have hsets : panelSets s p v (getBits v 1 1) 1 = onFields := by
    by_cases h1 : getBits v 1 1 = 1
    · rw [panelSets, if_pos ⟨h1, rfl⟩]
      exact (if_pos h1).symm
    · have h0 : getBits v 1 1 = 0 := by
        have := getBits_lt v 1 1
        omega
      rw [panelSets, if_neg (by omega), h0]
      exact (if_neg h1).symm
  refine ⟨fun ha => ?_, fun hp hd => ⟨_, congrArg Host.Outcome.next (if_pos (by simp [show (s.port p).powerHeld = true from hp,
      show (s.port p).down = 0 from hd])), setsOnly_vddRise (setsOnly_refl s) p (by simp)⟩,
    fun h => ⟨_, congrArg Host.Outcome.next (if_neg ?_), setsOnly_refl s⟩, fun h hk => hpdTimeout_awaited p h hk,
    fun h => ⟨_, congrArg Host.Outcome.next (if_neg (by rw [show (s.port p).awaitHpd = false from h]; exact Bool.false_ne_true)), setsOnly_refl s⟩,
    fun h => ⟨_, rfl, powerDown_first h⟩, fun h => ⟨_, rfl, powerDown_second h⟩,
    fun h1 h2 => ⟨_, congrArg Host.Outcome.next (powerDown_not h1 h2), setsOnly_refl s⟩,
    fun hb hv hh => (blEnable_does p).1 ?_, fun h => (blEnable_does p).2 ?_, ⟨_, rfl, ?_⟩⟩
  · obtain ⟨hon, hrise, hheld⟩ := panel_on (v := v) p ha rested
    obtain ⟨hactive, hoff⟩ := panel_off (v := v) p ha
    rw [hsets] at hon hrise hheld
    exact ⟨hon, hrise, hheld, hactive, hoff, fun h0 hw => backlight_does p ha h0 hw, backlight_execs p ha⟩
  · rcases h with h | h
    · simp [show (s.port p).powerHeld = false from h]
    · simp [show (s.port p).down ≠ 0 from h]
  · have hvalid : s.videoValid p = true := hv
    have hrel : s.blReleased p = false := hh
    rw [hb, hvalid, hrel]
    rfl
  · rcases h with h | h | h
    · rw [h, Bool.false_and, Bool.false_and]
    · rw [show s.videoValid p = false from h, Bool.and_false, Bool.false_and]
    · rw [show s.blReleased p = true from h, Bool.not_true, Bool.and_false]
  · rw [State.pwmStart, clampNat_eq _ _ _ (by omega)]
    exact setsOnly_refl _

end Sys2Proof.Machine
end

section
/-! SUPPORT. What an operation leaves alone: registers at given places, and what does not concern the registers, the logbook and the
interrupts. First for any operation, then for the raising of a fault (R387 to R395). -/

namespace Sys2Proof.Machine

-- one proof after another: each thread of a proof takes its share of the check's memory
set_option Elab.async false

/-- A state without its registers, its logbook and the sources that wait for a completion. -/
def State.calm (s : State) : State := { s with regs := [], log := {}, ic := { s.ic with again := [] } }

/-- State `t` follows `s`: its registers differ at most at the places `A`, `q` of what is neither register nor log nor interrupt is as it
was, and no entry has left the log's queue. -/
structure State.Within {β : Type} (A : Nat → Prop) (q : State → β) (s t : State) : Prop where
  reg : ∀ a, ¬ A a → t.reg a = s.reg a
  rest : q t.calm = q s.calm
  queue : s.log.queue.length ≤ t.log.queue.length

theorem raiseIrq_calm (s : State) (k : Nat) : (s.raiseIrq k).calm = s.calm := by
  unfold State.raiseIrq
  split
  · rfl
  · split <;> rfl

theorem reg_raiseIrq_ne (s : State) (k : Nat) {a : Nat} (ha : ∀ k ≤ 479, a ≠ Reg.IC_SRC k) : (s.raiseIrq k).reg a = s.reg a := by
  unfold State.raiseIrq
  split
  · rfl
  · next hu =>
    split
    · rfl
    · have hk : k ≤ 479 := by simp [sourceUsed] at hu; omega
      rw [State.reg_set, if_neg (ha k hk)]

/-- A predicate of places that holds those of the interrupt controller's sources. -/
def HoldsSources (A : Nat → Prop) : Prop := ∀ k ≤ 479, A (Reg.IC_SRC k)

/-- A predicate of places that holds the sources and LOG_0_COUNTS. -/
def HoldsLog (A : Nat → Prop) : Prop := HoldsSources A ∧ A Reg.LOG_COUNTS

namespace State.Within

variable {β γ : Type} {A B : Nat → Prop} {q : State → β} {s t u : State}

theorem refl (A : Nat → Prop) (q : State → β) (s : State) : s.Within A q s := ⟨fun _ _ => rfl, rfl, Nat.le_refl _⟩

theorem trans (h : s.Within A q t) (h' : t.Within A q u) : s.Within A q u :=
  ⟨fun a ha => (h'.reg a ha).trans (h.reg a ha), h'.rest.trans h.rest, h.queue.trans h'.queue⟩

theorem mono (h : s.Within A q t) (hA : ∀ a, A a → B a) : s.Within B q t := ⟨fun a ha => h.reg a (mt (hA a) ha), h.rest, h.queue⟩

/-- Less is left alone. -/
theorem view (h : s.Within A q t) (g : β → γ) : s.Within A (fun x => g (q x)) t := ⟨h.reg, congrArg g h.rest, h.queue⟩

theorem get (h : s.Within A q t) {f : Fld} (hf : ¬ A f.addr) : t.get f = s.get f := by
  rw [State.get, State.get, h.reg _ hf]

theorem bit (h : s.Within A q t) {f : Fld} (hf : ¬ A f.addr) : t.bit f = s.bit f := by
  rw [State.bit, State.bit, h.get hf]

/-- An operation beside the registers and the log. -/
theorem same (h : s.Within A q t) (hr : u.regs = t.regs := by rfl) (hl : u.log = t.log := by rfl) (hq : q u.calm = q t.calm := by rfl) :
    s.Within A q u :=
  ⟨fun a ha => (State.reg_congr hr a).trans (h.reg a ha), hq.trans h.rest, by rw [hl]; exact h.queue⟩

theorem setReg (h : s.Within A q t) {a : Nat} (v : Word) (ha : A a) : s.Within A q (t.setReg a v) :=
  ⟨fun b hb => by rw [State.reg_setReg, if_neg (fun e : b = a => hb (e ▸ ha)), h.reg b hb], h.rest, h.queue⟩

theorem set (h : s.Within A q t) {f : Fld} (v : Nat) (hf : A f.addr) : s.Within A q (t.set f v) := h.setReg _ hf

theorem count (h : s.Within A q t) {f : Fld} (n : Nat) (hf : A f.addr) : s.Within A q (t.count f n) := h.setReg _ hf

theorem ite {c : Prop} [Decidable c] (h : c → s.Within A q t) (h' : ¬ c → s.Within A q u) : s.Within A q (if c then t else u) := by
  split
  · next hc => exact h hc
  · next hc => exact h' hc

theorem each {α : Type} {f : α → State → State} (h : s.Within A q t) (l : List α)
    (hf : ∀ x ∈ l, ∀ t : State, s.Within A q t → s.Within A q (f x t)) : s.Within A q (t.each l f) := by
  induction l generalizing t with
  | nil => exact h
  | cons x xs ih => exact ih (hf x List.mem_cons_self t h) fun y hy => hf y (List.mem_cons_of_mem x hy)

theorem raiseIrq (h : s.Within A q t) (hA : HoldsSources A) (k : Nat) : s.Within A q (t.raiseIrq k) := by
  refine ⟨fun a ha => ?_, by rw [raiseIrq_calm]; exact h.rest, by rw [raiseIrq_log]; exact h.queue⟩
  rw [reg_raiseIrq_ne t k fun j hj e => ha (by rw [e]; exact hA j hj)]
  exact h.reg a ha

theorem event (h : s.Within A q t) (hA : HoldsSources A) {flag events : Fld} (k : Nat) (hf : A flag.addr) (he : A events.addr) :
    s.Within A q (t.event flag events k) := ((h.set 1 hf).count 1 he).raiseIrq hA k

theorem enqueueLog (h : s.Within A q t) (hA : HoldsLog A) (e : LogEntry) : s.Within A q (t.enqueueLog e) := by
  unfold State.enqueueLog
  split
  · refine ⟨h.reg, h.rest, ?_⟩
    rw [List.length_append]
    exact h.queue.trans (Nat.le_add_right _ _)
  · exact (h.count 1 hA.2).raiseIrq hA.1 118

theorem logEvent (h : s.Within A q t) (hA : HoldsLog A) (code unit inst p0 p1 p2 p3 : Nat) :
    s.Within A q (t.logEvent code unit inst p0 p1 p2 p3) := h.enqueueLog hA _

theorem inOrder (h : s.Within A q t) (o : State) : s.Within A q (t.inOrder o) := by
  refine ⟨h.reg, h.rest, ?_⟩
  have hlen : (t.inOrder o).log.queue.length = t.log.queue.length := by
    rw [State.inOrder, List.length_append, (List.mergeSort_perm _ _).length_eq, ← List.length_append, List.take_append_drop]
  rw [hlen]
  exact h.queue

end State.Within

/-! ### Faults -/

/-- What a reaction leaves of a screen's record: all but its harmless states. -/
def ScreenState.unharmed (r : ScreenState) : ScreenState := { r with c2 := none, c2Ends := false, c3 := none, c3Act := none }

/-- What the raising of a fault leaves of a state: all but the black box, the flash bus, ALIVE, the audio unit, the haptic channels and the
harmless states. -/
def State.faultless (s : State) : State × (Nat → ScreenState) :=
  ({ s with bbox := {}, boot := {}, alive := .z, audQuiet := false, hap := [], screens := [] }, fun n => (s.scr n).unharmed)

/-- A status register of a fault input. -/
def inStatusPlace (a : Nat) : Prop := 0x18001004 ≤ a ∧ a < 0x19000000

/-- The places that a reaction may write: those of the units from 0x11 on, but for the inputs' status, and DPO_n_PANEL. -/
def reactPlace (a : Nat) : Prop := (0x11000000 ≤ a ∧ ¬ inStatusPlace a) ∨ (0x04000000 ≤ a ∧ a < 0x05000000 ∧ a % 0x10000 = 0x64)

theorem reactPlace_unit {u o : Nat} (hu : 17 ≤ u) (hu' : u ≠ 24) (ho : o < 0x1000000) : reactPlace (reg u 0 o) := by
  simp only [reactPlace, inStatusPlace, reg]
  omega

theorem reactPlace_flt {o : Nat} (ho : o < 0x1004) : reactPlace (reg 24 0 o) := by
  simp only [reactPlace, inStatusPlace, reg]
  omega

theorem scr_setScr (s : State) (n k : Nat) (r : ScreenState) : (s.setScr n r).scr k = if k = n then r else s.scr k := sget_sput _ _ _ _

theorem faultless_setScr (s : State) (n : Nat) {r : ScreenState} (hr : r.unharmed = (s.scr n).unharmed) :
    (s.setScr n r).faultless = s.faultless := by
  refine Prod.ext rfl (funext fun k => ?_)
  change ((s.setScr n r).scr k).unharmed = (s.scr k).unharmed
  rw [scr_setScr]
  split
  · next e => rw [e, hr]
  · rfl

namespace State.Within

variable {A : Nat → Prop} {s t : State}

theorem holdsLog_of_react (hA : ∀ a, reactPlace a → A a) : HoldsLog A := by
  exact ⟨fun k hk => hA _ (reactPlace_unit (by omega) (by omega) (by omega)), hA _ (reactPlace_unit (by omega) (by omega) (by omega))⟩

/-- The harmless state of a screen changes. -/
theorem setHarm (h : s.Within A faultless t) (n : Nat) {r : ScreenState} (hr : r.unharmed = (t.scr n).unharmed) :
    s.Within A faultless (t.setScr n r) := h.same rfl rfl (faultless_setScr t.calm n hr)

section
variable (h : s.Within A faultless t)
include h

theorem setBbox (b : BboxState) : s.Within A faultless { t with bbox := b } := h.same

theorem flashDrive (op : FlashOp) : s.Within A faultless (t.flashDrive op) := h.same

theorem bboxDrive (cmd addr : Nat) (data : List Byte) : s.Within A faultless (t.bboxDrive cmd addr data) :=
  (h.flashDrive _).flashDrive _

theorem driveAlive : s.Within A faultless { t with alive := .low } := h.same

theorem audioQuiet : s.Within A faultless { t with audQuiet := true } := h.same

end

section
variable (h : s.Within A faultless t) (hA : ∀ a, reactPlace a → A a)
include h hA

theorem setBboxStatus {f : Fld} (v : Nat) (hf : f.addr = Reg.BBOX_STATUS) : s.Within A faultless (t.set f v) :=
  h.set v (hf ▸ hA _ (reactPlace_unit (by omega) (by omega) (by omega)))

theorem bboxErase : s.Within A faultless t.bboxErase := (h.bboxDrive _ _ _).setBboxStatus hA 1 rfl

theorem bboxOpen : s.Within A faultless t.bboxOpen := ((h.bboxDrive _ _ _).setBbox _).setBboxStatus hA 1 rfl

theorem bboxProgram : s.Within A faultless t.bboxProgram := ((h.bboxDrive _ _ _).setBbox _).setBboxStatus hA 1 rfl

theorem bboxResume : s.Within A faultless t.bboxResume := by
  unfold State.bboxResume
  exact ite (fun _ => (h.flashDrive _).setBboxStatus hA 0 rfl) fun _ => h

theorem bboxNext : s.Within A faultless t.bboxNext := by
  unfold State.bboxNext
  refine ite (fun _ => h) fun _ => ite (fun _ => ?_) fun _ => ite (fun _ => h.bboxErase hA) fun _ => h
  exact ite (fun _ => h.bboxProgram hA) fun _ => ite (fun _ => h.bboxOpen hA) fun _ => ite (fun _ => h.bboxResume hA) fun _ => h.bboxErase hA

theorem bboxAdvance : s.Within A faultless t.bboxAdvance := by
  have hn := h.bboxNext hA
  unfold State.bboxAdvance State.flashTurn
  exact ite (fun _ => hn.same) fun _ => hn

theorem bboxCommit : s.Within A faultless t.bboxCommit := by
  unfold State.bboxCommit
  exact ite (fun _ => h) fun _ => (h.setBbox _).bboxAdvance hA

theorem bboxOwn (kind : Nat) (payload : List Byte) : s.Within A faultless (t.bboxOwn kind payload) := by
  unfold State.bboxOwn State.bboxEnter State.setBboxQueue
  refine ite (fun _ => h) fun _ => ?_
  have hq := fun q : List BboxRec => (h.setBbox { t.bbox with queue := q }).setBboxStatus hA (f := Reg.BBOX_STATUS_PENDING) q.length rfl
  exact ite (fun _ => (hq _).bboxCommit hA) fun _ => hq _

theorem bboxC3 (k : Nat) : s.Within A faultless (t.bboxC3 k) := by
  unfold State.bboxC3
  exact ite (fun _ => h.count 1 (hA _ (reactPlace_unit (by omega) (by omega) (by omega)))) fun _ => (h.setBbox _).bboxOwn hA _ _

theorem blLow {p : Nat} (hp : p < 8) : s.Within A faultless (t.blLow p) :=
  h.set 0 (hA _ (by simp only [reactPlace, Reg.DPO_PANEL, Machine.reg]; omega))

theorem harbourIrq (n : Nat) : s.Within A faultless (t.harbourIrq n) := by
  unfold State.harbourIrq
  exact ite (fun _ => h.raiseIrq (holdsLog_of_react hA).1 _) fun _ => h

theorem containScreen (n : Nat) : s.Within A faultless (t.containScreen n) := by
  unfold State.containScreen
  have hin := h.setHarm n (r := { t.scr n with c2 := some (t.safeHarbour n, t.frame n) }) rfl
  have hscr : s.Within A faultless (if (t.scr n).c2.isSome then t.setScr n { t.scr n with c2Ends := false }
      else ((t.setScr n { t.scr n with c2 := some (t.safeHarbour n, t.frame n) }).harbourIrq n).raiseIrq (136 + n)) :=
    ite (fun _ => h.setHarm n rfl) fun _ => (hin.harbourIrq hA n).raiseIrq (holdsLog_of_react hA).1 _
  exact hscr.blLow hA (State.get_lt _ (Reg.SCREEN_CTRL_PORT n))

theorem c3Screen (n : Nat) : s.Within A faultless (t.c3Screen n) := by
  unfold State.c3Screen
  refine ite (fun _ => h.setHarm n rfl) fun _ => ite (fun _ => ?_) fun _ => h
  have hin := h.setHarm n (r := { t.scr n with c3 := some (t.safeHarbour n, t.frame n) }) rfl
  exact hin.harbourIrq hA n

theorem hapFault {n : Nat} (hn : n < 16) : s.Within A faultless (t.hapFault n) := by
  have hhc : ∀ o < 0x10000, A (Machine.reg 17 n o) := fun o ho => hA _ (by simp only [reactPlace, inStatusPlace, Machine.reg]; omega)
  have hst : A (Reg.HC_STATUS n) := hhc 4 (by omega)
  have hcount : A (Reg.HC_COUNTS n) := hhc 0x10 (by omega)
  have hend : s.Within A faultless (t.hapEnd n) := by
    unfold State.hapEnd State.hcEvent
    exact ite (fun _ => (h.same).event (holdsLog_of_react hA).1 _ hst hst) fun _ => h.same
  have hset : s.Within A faultless ((t.hapEnd n).setHc n { (t.hapEnd n).hc n with stops := 0 }) := hend.same
  unfold State.hapFault
  generalize (t.hapEnd n).setHc n { (t.hapEnd n).hc n with stops := 0 } = x at hset
  refine State.Within.set ?_ 4 hst
  unfold State.hapDropHeld State.hapDiscard
  exact ite (fun _ => ((hset.same).count _ hcount).set 0 hst) fun _ => (hset.same).count _ hcount

theorem stopToll (cause : Nat) : s.Within A faultless (t.stopToll cause) := by
  have hst : A Reg.FLT_TOLL_STATUS := hA _ (reactPlace_flt (by omega))
  unfold State.stopToll
  refine ite (fun _ => h) fun _ => State.Within.raiseIrq (State.Within.logEvent ?_ (holdsLog_of_react hA) _ _ _ _ _ _ _) (holdsLog_of_react hA).1 _
  exact ((((h.set _ hst).set _ hst).set _ hst).count _ hst).driveAlive

theorem c3React : s.Within A faultless t.c3React := by
  have hst : A Reg.FLT_STATUS := hA _ (reactPlace_flt (by omega))
  have hctrl : A Reg.FLT_CTRL := hA _ (reactPlace_flt (by omega))
  have hhap : A Reg.HAP_STATUS := hA _ (reactPlace_unit (by omega) (by omega) (by omega))
  have h1 := (h.set (f := Reg.FLT_STATUS_C3) 1 hst).each allScreens fun n _ t ht => ht.c3Screen hA n
  have h2 := h1.each allScreens fun p hp t ht => ht.blLow hA (List.mem_range.1 hp)
  have h3 := h2.each hapChannels (f := fun n t => if t.hcState n = 4 then t else t.hapFault n) fun n hn t ht =>
    ite (fun _ => ht) fun _ => ht.hapFault hA (List.mem_range.1 hn)
  have h4 := (h3.set (f := Reg.HAP_STATUS_HV_LIVE) 0 hhap).set (f := Reg.HAP_STATUS_HV_READY) 0 hhap
  have h5 := (h4.set (f := Reg.FLT_CTRL_SAFE_OK) 0 hctrl).set (f := Reg.FLT_STATUS_SAFE_N_LOW) 1 hst
  exact (h5.stopToll hA 1).audioQuiet

end

end State.Within

/-- R387: the status of an input that has an event. -/
def State.causeNoted (s : State) (k : Nat) : State :=
  ((s.set (Reg.FLT_IN_STATUS_CAUSE k) 1).set (Reg.FLT_IN_STATUS_TRANSIENT k)
    (if s.bit (Reg.FLT_IN_STATUS_CAUSE k) then s.get (Reg.FLT_IN_STATUS_TRANSIENT k) else 0)).count (Reg.FLT_IN_STATUS_EVENTS k)

/-- Inputs whose reaction is contained in screens alone (R388). -/
def screenFault (k : Nat) : Prop := (32 ≤ k ∧ k ≤ 51) ∨ (64 ≤ k ∧ k ≤ 71) ∨ (88 ≤ k ∧ k ≤ 119)

theorem scopes_screenFault {k : Nat} (hk : screenFault k) (s : State) {x : Scope} (hx : x ∈ s.scopes k) : ∃ n, x = .screen n := by
  unfold screenFault at hk
  unfold State.scopes at hx
  rw [if_neg (by omega)] at hx
  by_cases h1 : 32 ≤ k ∧ k ≤ 51
  · rw [if_pos h1, List.mem_map] at hx
    obtain ⟨n, -, rfl⟩ := hx
    exact ⟨n, rfl⟩
  rw [if_neg h1] at hx
  by_cases h2 : 64 ≤ k ∧ k ≤ 71
  · rw [if_pos h2, List.mem_singleton] at hx
    exact ⟨_, hx⟩
  rw [if_neg h2] at hx
  by_cases h3 : 96 ≤ k ∧ k ≤ 111
  · rw [if_pos h3, List.mem_map] at hx
    obtain ⟨n, -, rfl⟩ := hx
    exact ⟨n, rfl⟩
  rw [if_neg h3, if_neg (by omega), if_neg (by omega), if_neg (by omega), if_neg (by omega)] at hx
  cases hx

section
variable {A : Nat → Prop} (hA : ∀ a, reactPlace a → A a)
include hA

theorem within_faultRecord (s : State) (k : Nat) (as : Option Nat) :
    (s.causeNoted k).Within A State.faultless (s.faultRecord k none as) := by
  have hlog := State.Within.holdsLog_of_react hA
  have hself : A Reg.FLT_SELFTEST := hA _ (reactPlace_flt (by omega))
  unfold State.faultRecord
  refine State.Within.ite (fun _ => ?_) fun _ => ?_
  · refine State.Within.set (State.Within.set (State.Within.set (State.Within.set ?_ 0 hself) 1 hself) 0 hself) 1 hself
    exact State.Within.ite (fun _ => (((State.Within.refl _ _ _).raiseIrq hlog.1 _).logEvent hlog _ _ _ _ _ _ _).bboxC3 hA k)
      fun _ => ((State.Within.refl _ _ _).raiseIrq hlog.1 _).logEvent hlog _ _ _ _ _ _ _
  · exact State.Within.ite (fun _ => (((State.Within.refl _ _ _).raiseIrq hlog.1 _).logEvent hlog _ _ _ _ _ _ _).bboxC3 hA k)
      fun _ => ((State.Within.refl _ _ _).raiseIrq hlog.1 _).logEvent hlog _ _ _ _ _ _ _

/-- R387: a fault of a screen, a pipe, a port or protected content changes the input's status, and beside it what a reaction may. -/
theorem within_raiseFault_noted (s : State) {k : Nat} (hk : screenFault k) :
    (s.causeNoted k).Within A State.faultless (s.raiseFault k) := by
  unfold State.raiseFault
  refine State.Within.ite (fun _ => within_faultRecord hA s k _) fun _ => ?_
  have hrec := (within_faultRecord hA s k none).each (if 2 ≤ s.faultClass k then s.scopes k else []) (f := fun x t => t.contain x)
    fun x hx t ht => by
      have hx' : x ∈ s.scopes k := by
        split at hx
        · exact hx
        · cases hx
      obtain ⟨n, rfl⟩ := scopes_screenFault hk s hx'
      exact ht.containScreen hA n
  exact State.Within.ite (fun _ => (hrec.c3React hA).inOrder s) fun _ => hrec

end

/-- The places that the raising of a fault may write. -/
def faultPlace (a : Nat) : Prop := 0x11000000 ≤ a ∨ (0x04000000 ≤ a ∧ a < 0x05000000 ∧ a % 0x10000 = 0x64)

theorem reactPlace_faultPlace (a : Nat) (h : reactPlace a) : faultPlace a := h.imp_left And.left

theorem within_causeNoted (s : State) (k : Nat) : s.Within faultPlace State.faultless (s.causeNoted k) := by
  have hst : faultPlace (Reg.FLT_IN_STATUS k) := .inl (by simp only [Reg.FLT_IN_STATUS, reg]; omega)
  exact (((State.Within.refl _ _ s).set _ hst).set _ hst).count _ hst

theorem within_raiseFault (s : State) {k : Nat} (hk : screenFault k) : s.Within faultPlace State.faultless (s.raiseFault k) :=
  (within_causeNoted s k).trans (within_raiseFault_noted reactPlace_faultPlace s hk)

theorem inStatus_not_react {k : Nat} (hk : k < 448) : ¬ reactPlace (Reg.FLT_IN_STATUS k) := by
  simp only [reactPlace, inStatusPlace, Reg.FLT_IN_STATUS, reg]
  omega

theorem bit_cause_causeNoted (s : State) (j k : Nat) :
    (s.causeNoted k).bit (Reg.FLT_IN_STATUS_CAUSE j) = (decide (j = k) || s.bit (Reg.FLT_IN_STATUS_CAUSE j)) := by
  have hget : (s.causeNoted k).get (Reg.FLT_IN_STATUS_CAUSE j) = (s.set (Reg.FLT_IN_STATUS_CAUSE k) 1).get (Reg.FLT_IN_STATUS_CAUSE j) := by
    rw [State.causeNoted, State.count_eq, State.get_set_apart _ _ _ _ (Nat.le_of_ble_eq_true rfl) (.inl (Nat.le_of_ble_eq_true rfl)),
      State.get_set_apart _ _ _ _ (Nat.le_of_ble_eq_true rfl) (.inl (Nat.le_of_ble_eq_true rfl))]
  rw [State.bit, hget]
  by_cases hj : j = k
  · subst hj
    rw [State.get_set_same _ _ _ (Nat.le_of_ble_eq_true rfl)]
    simp
  · rw [State.get_set_other _ _ _ _ (by simp only [Reg.FLT_IN_STATUS, reg]; omega)]
    simp [hj, State.bit]

/-- R387: CAUSE of the input is set, and one that is set stays. -/
theorem bit_cause_raiseFault (s : State) {j k : Nat} (hk : screenFault k) (hj : j < 448) :
    (s.raiseFault k).bit (Reg.FLT_IN_STATUS_CAUSE j) = (decide (j = k) || s.bit (Reg.FLT_IN_STATUS_CAUSE j)) := by
  rw [(within_raiseFault_noted (fun _ h => h) s hk).bit (inStatus_not_react hj), bit_cause_causeNoted]

end Sys2Proof.Machine
end

section
/-! SUPPORT. What the operations of pipes, and the stop of a screen, leave alone (R73, R105, R195 to R202). -/

namespace Sys2Proof.Machine

-- one proof after another: each thread of a proof takes its share of the check's memory
set_option Elab.async false

/-- What the operations of pipes leave of a screen's record: all but its watch and its need of a pipe. -/
def ScreenState.unwatched (r : ScreenState) : ScreenState := { r with watch := none, needPipe := false, exclude := [] }

/-- What the operations of pipes leave of a state. -/
def State.pipeless (s : State) : State × (Nat → ScreenState) := ({ s with pipes := [], screens := [] }, fun n => (s.scr n).unwatched)

/-- The places that the operations of pipes may write: the first register of each part of the units from the pipes' on, SCREEN_n_WATCH, the
crossbar's and the sources. -/
def pipePlace (a : Nat) : Prop :=
  (0x03000000 ≤ a ∧ a % 0x10000 = 0) ∨ (0x02000000 ≤ a ∧ a < 0x03000000 ∧ a % 0x10000 = 0x220) ∨
    (0x05000000 ≤ a ∧ a < 0x06000000) ∨ (0x17000000 ≤ a ∧ a < 0x18000000)

theorem pipePlace_pipe (p : Nat) : pipePlace (Reg.PIPE_STATUS p) := by
  simp only [pipePlace, Reg.PIPE_STATUS, reg]
  omega

theorem pipePlace_qos (p : Nat) : pipePlace (Reg.QOS_CFG p) := by
  simp only [pipePlace, Reg.QOS_CFG, reg]
  omega

theorem pipePlace_watch {n : Nat} (hn : n < 8) : pipePlace (Reg.SCREEN_WATCH n) := by
  simp only [pipePlace, Reg.SCREEN_WATCH, reg]
  omega

theorem pipePlace_map (s : State) (n : Nat) : pipePlace (Reg.XBAR_MAP (s.portOf n)) := by
  have hp : s.portOf n < 8 := State.get_lt s (Reg.SCREEN_CTRL_PORT n)
  simp only [pipePlace, Reg.XBAR_MAP, reg]
  omega

theorem laneValid_addr (p lane : Nat) : (laneValid p lane).addr = Reg.PIPE_STATUS p := by
  unfold laneValid
  split <;> rfl

theorem laneScreen_addr (p lane : Nat) : (laneScreen p lane).addr = Reg.PIPE_STATUS p := by
  unfold laneScreen
  split <;> rfl

theorem pipeless_setScr (s : State) (n : Nat) {r : ScreenState} (hr : r.unwatched = (s.scr n).unwatched) :
    (s.setScr n r).pipeless = s.pipeless := by
  refine Prod.ext rfl (funext fun k => ?_)
  change ((s.setScr n r).scr k).unwatched = (s.scr k).unwatched
  rw [scr_setScr]
  split
  · next e => rw [e, hr]
  · rfl

namespace State.Within

section
variable {β : Type} {A : Nat → Prop} {q : State → β} {s t : State}

theorem setPort (h : s.Within A q t) {p : Nat} {r : PortState} (hq : q (t.calm.setPort p r) = q t.calm) :
    s.Within A q (t.setPort p r) := h.same rfl rfl hq

theorem setScr (h : s.Within A q t) {n : Nat} {r : ScreenState} (hq : q (t.calm.setScr n r) = q t.calm) :
    s.Within A q (t.setScr n r) := h.same rfl rfl hq

end

section
variable {β : Type} {A : Nat → Prop} {q : State → β} {s t : State} (h : s.Within A q t) (hA : ∀ a, pipePlace a → A a)
include h hA

theorem setPipeState (p st : Nat) : s.Within A q (t.setPipeState p st) := by
  have hs := h.set (f := Reg.PIPE_STATUS_STATE p) st (hA _ (pipePlace_pipe p))
  unfold State.setPipeState
  exact ite (fun _ => hs) fun _ => (hs.set 7 (hA _ (pipePlace_qos p))).set 1000000 (hA _ (pipePlace_qos p))

theorem pipeEvent (p : Nat) {flag : Fld} (hf : flag.addr = Reg.PIPE_STATUS p) : s.Within A q (t.pipeEvent p flag) :=
  h.event (fun k hk => hA _ (by simp only [pipePlace, Reg.IC_SRC, Machine.reg]; omega)) _ (hf ▸ hA _ (pipePlace_pipe p)) (hA _ (pipePlace_pipe p))

end

theorem qosUpdate {β : Type} {A : Nat → Prop} {q : State → β} {s t : State} (h : s.Within A q t) (hA : ∀ p < 12, A (Reg.QOS_CFG p)) :
    s.Within A q t.qosUpdate := by
  unfold State.qosUpdate
  refine State.Within.each (State.Within.each h _ fun p hp u hu => ?_) _ fun p hp u hu => hu.set _ (hA p ?_)
  · have hp : p < 12 := Nat.lt_trans (List.mem_range.1 hp) (by omega)
    exact (hu.set _ (hA p hp)).set _ (hA p hp)
  · simp only [List.mem_cons, List.not_mem_nil, or_false] at hp
    omega

section
variable {A : Nat → Prop} {s t : State}

theorem setWatch (h : s.Within A pipeless t) (n : Nat) {r : ScreenState} (hr : r.unwatched = (t.scr n).unwatched) :
    s.Within A pipeless (t.setScr n r) := h.setScr (pipeless_setScr t.calm n hr)

theorem setPipe (h : s.Within A pipeless t) (p : Nat) (r : PipeState) : s.Within A pipeless (t.setPipe p r) := h.same

theorem needPipe (h : s.Within A pipeless t) (n : Nat) : s.Within A pipeless (t.needPipe n) := h.setWatch n rfl

section
variable (h : s.Within A pipeless t) (hA : ∀ a, pipePlace a → A a)
include h hA

theorem watchEnd (n : Nat) : s.Within A pipeless (t.watchEnd n) := by
  unfold State.watchEnd
  split
  · exact h
  · next w _ =>
    have hl := ((h.setWatch n (r := { t.scr n with watch := none }) rfl).set (f := laneValid w.pipe w.lane) 0
      (by rw [laneValid_addr]; exact hA _ (pipePlace_pipe _))).set (f := laneScreen w.pipe w.lane) 0
      (by rw [laneScreen_addr]; exact hA _ (pipePlace_pipe _))
    exact ite (fun _ => hl.setPipeState hA _ 1) fun _ => hl

theorem watchVoid {n : Nat} (hn : n < 8) : s.Within A pipeless (t.watchVoid n) := by
  unfold State.watchVoid
  exact ite (fun _ => (h.count 1 (hA _ (pipePlace_watch hn))).watchEnd hA n) fun _ => h

theorem pipeUnwatch (p : Nat) : s.Within A pipeless (t.pipeUnwatch p) := by
  unfold State.pipeUnwatch
  refine h.each _ fun n hn u hu => ?_
  split
  · exact ite (fun _ => hu.watchVoid hA (List.mem_range.1 hn)) fun _ => hu
  · exact hu

theorem pipeSuspect (p : Nat) (watch : Bool) : s.Within A pipeless (t.pipeSuspect p watch) := by
  unfold State.pipeSuspect
  exact ((h.pipeUnwatch hA p).setPipeState hA p 3).pipeEvent hA p (by cases watch <;> rfl)

theorem pipeLeave (p : Nat) : s.Within A pipeless (t.pipeLeave p) := by
  unfold State.pipeLeave
  have h0 := (h.setPipe p { t.pipe p with mismatch := false, watchFail := false }).set (f := Reg.PIPE_STATUS_SCREEN p) 0 (hA _ (pipePlace_pipe p))
  have h1 := State.Within.ite (c := (t.pipe p).mismatch = true) (fun _ => h0.pipeSuspect hA p false) fun _ => h0
  have h2 := State.Within.ite (c := (t.pipe p).watchFail = true) (fun _ => h1.pipeSuspect hA p true) fun _ => h1
  exact ite (fun _ => h2.setPipeState hA p 4) fun _ => ite (fun _ => h2) fun _ => h2.setPipeState hA p 1

theorem pipeTake (p n : Nat) : s.Within A pipeless (t.pipeTake p n) := by
  have hu := (h.pipeUnwatch hA p).setPipe p { (t.pipeUnwatch p).pipe p with
    mismatch := ((t.pipeUnwatch p).pipe p).mismatch || decide ((t.pipeUnwatch p).pipeState p = 3),
    worn := ((t.pipeUnwatch p).pipe p).worn || decide ((t.pipeUnwatch p).pipeState p = 4) }
  exact ((hu.setPipeState hA p 0).set (f := Reg.PIPE_STATUS_SCREEN p) n (hA _ (pipePlace_pipe p))).set _ (hA _ (pipePlace_map _ n))

theorem otherSuspect (p : Nat) : s.Within A pipeless (t.otherSuspect p) := by
  unfold State.otherSuspect
  split
  · exact (h.setPipe p _).needPipe _
  · exact h
  · exact h.pipeEvent hA p rfl
  · exact h.pipeSuspect hA p true

end

end

end State.Within

/-- What the operations of pipes leave of the ports and of a screen's doubled B. -/
theorem port_of_pipeless {A : Nat → Prop} {s t : State} (h : s.Within A State.pipeless t) (p : Nat) : t.port p = s.port p :=
  congrArg (fun x : State × (Nat → ScreenState) => x.1.port p) h.rest

theorem port_of_ports {A : Nat → Prop} {s t : State} (h : s.Within A State.ports t) (p : Nat) : t.port p = s.port p :=
  congrArg (fun x : List (Nat × PortState) => sget (fun _ => ({} : PortState)) x p) h.rest

theorem State.port_setPort (s : State) (n k : Nat) (r : PortState) : (s.setPort n r).port k = if k = n then r else s.port k := sget_sput _ _ _ _

/-! ### The stop of a screen (R73) -/

/-- A stop's pending RETIME and its watch. -/
def State.haltBegin (s : State) (n : Nat) : State :=
  let s := if s.get (Reg.SCREEN_RETIME_STATE n) = 1 then s.retimeRefuse n 0xA else s
  let s := s.watchVoid n
  s.each (s.scr n).exclude fun p t => t.otherSuspect p

/-- A stop's pipe and its port. -/
def State.haltPort (s : State) (n port : Nat) : State :=
  let s := if s.bit (Reg.XBAR_MAP_VALID port) then s.pipeLeave (s.pipeOf n) else s
  let s := ((s.set (Reg.XBAR_MAP_VALID port) 0).set (Reg.XBAR_MAP_PIPE port) 0xF).set (Reg.XBAR_MAP_SCREEN port) 0
  let halve := (s.scr n).halve
  s.setPort port { s.port port with video := false, degrading := (s.port port).degrading && !halve }

/-- A stop's registers. -/
def State.haltRegs (s : State) (n : Nat) : State :=
  ((s.set (Reg.SCREEN_STATUS_RUNNING n) 0).set (Reg.SCREEN_STATUS_LOWERED n) 0).set (Reg.SCREEN_CTRL_RUN n) 0

/-- The record of a screen that has stopped. -/
def ScreenState.halted (r : ScreenState) : ScreenState :=
  { r with starting := false, held := none, stopping := false, gap := false, gapStop := false, gapDone := false, halve := false,
           blanking := false, early := false, needPipe := false, exclude := [], composed := [], ahead := 0, tiles := [], sextant := none,
           sent := [], mode := 0, poisoned := [] }

/-- A stop's record. -/
def State.haltRecord (s : State) (n : Nat) : State :=
  let s := (s.c2Release n).quietStopped n
  (s.setScr n (s.scr n).halted).dropCauses n (fun c => c.reason == 3 || c.reason == 4 || c.reason == 6)

/-- R73, R449: the end of a stop. -/
def State.haltEnd (s : State) (n : Nat) : State :=
  let s := if s.exhausted.contains n then { s with exhausted := s.exhausted.filter (· != n) }.liveFell (64 + n) else s
  s.qosUpdate

theorem screenHalt_eq (s : State) (n : Nat) :
    s.screenHalt n = ((((s.haltBegin n).haltPort n (s.portOf n)).haltRegs n).haltRecord n).haltEnd n := rfl

/-- The places that a stop may write before its registers. -/
def haltPlace (n : Nat) (a : Nat) : Prop :=
  pipePlace a ∨ a = Reg.SCREEN_STATUS n ∨ a = Reg.SCREEN_CTRL n ∨ a = Reg.SCREEN_RETIME n ∨
    (0x0F000000 ≤ a ∧ a < 0x10000000) ∨ a = Reg.FLT_IN_STATUS (64 + n)

theorem haltPlace_pipe {n a : Nat} (h : pipePlace a) : haltPlace n a := .inl h

/-- The places that a stop may write after its registers. -/
def haltedPlace (n : Nat) (a : Nat) : Prop :=
  (0x0C000000 ≤ a ∧ a < 0x0D000000 ∧ a % 0x10000 = 0) ∨ (0x0F000000 ≤ a ∧ a < 0x10000000) ∨ a = Reg.FLT_IN_STATUS (64 + n)

theorem haltedPlace_halt {n a : Nat} (h : haltedPlace n a) : haltPlace n a := by
  unfold haltPlace
  rcases h with ⟨h, -, h0⟩ | h
  · exact .inl (.inl ⟨by omega, h0⟩)
  · exact .inr (.inr (.inr (.inr h)))

/-- A state without the records of its screens and of its touch engines. -/
def State.scanless (s : State) : State := { s with screens := [], touch := [] }

theorem scanless_setScr (s : State) (n : Nat) (r : ScreenState) : (s.setScr n r).scanless = s.scanless := rfl

section
variable (s : State) (n : Nat)

theorem within_retimeRefuse {β : Type} {A : Nat → Prop} {q : State → β} {u t : State} (h : u.Within A q t) (code : Nat)
    (hs : A (Reg.SCREEN_STATUS n)) (hr : A (Reg.SCREEN_RETIME n)) : u.Within A q (t.retimeRefuse n code) :=
  ((((h.set _ hs).set _ hr).count _ hr).set _ hr).set _ hr

theorem within_haltBegin (hn : n < 8) : s.Within (haltPlace n) State.pipeless (s.haltBegin n) := by
  unfold State.haltBegin
  have h0 : s.Within (haltPlace n) State.pipeless (if s.get (Reg.SCREEN_RETIME_STATE n) = 1 then s.retimeRefuse n 0xA else s) :=
    State.Within.ite (fun _ => within_retimeRefuse n (State.Within.refl _ _ s) 0xA (.inr (.inl rfl)) (.inr (.inr (.inr (.inl rfl)))))
      fun _ => State.Within.refl _ _ s
  exact (h0.watchVoid (fun _ => haltPlace_pipe) hn).each _ fun p _ t ht => ht.otherSuspect (fun _ => haltPlace_pipe) p

/-- The registers of a screen's port, but for the crossbar's. -/
theorem within_haltPort {β : Type} (q : State → β) (port : Nat) (hp : port < 8)
    (hq : ∀ x : State, x.Within (haltPlace n) q (x.pipeLeave (x.pipeOf n)))
    (hport : ∀ (x : State) (r : PortState), q (x.calm.setPort port r) = q x.calm) :
    s.Within (haltPlace n) q (s.haltPort n port) := by
  have hm : haltPlace n (Reg.XBAR_MAP port) := haltPlace_pipe (by simp only [pipePlace, Reg.XBAR_MAP, reg]; omega)
  unfold State.haltPort
  have h0 : s.Within (haltPlace n) q (if s.bit (Reg.XBAR_MAP_VALID port) then s.pipeLeave (s.pipeOf n) else s) :=
    State.Within.ite (fun _ => hq s) fun _ => State.Within.refl _ _ s
  exact (((h0.set _ hm).set _ hm).set _ hm).setPort (hport _ _)

theorem within_haltRecord : s.Within (haltedPlace n) State.scanless (s.haltRecord n) := by
  have hrel : s.Within (haltedPlace n) State.scanless (s.c2Release n) := by
    unfold State.c2Release
    exact State.Within.ite (fun _ => (State.Within.refl _ _ s).setScr (scanless_setScr _ _ _)) fun _ => State.Within.refl _ _ s
  have hquiet : s.Within (haltedPlace n) State.scanless ((s.c2Release n).quietStopped n) := by
    refine hrel.each _ fun k hk t ht => State.Within.ite (fun _ => ?_) fun _ => ht
    have hscan : haltedPlace n (Reg.TSL_SCANS k) := by
      have := List.mem_range.1 hk
      simp only [haltedPlace, Reg.TSL_SCANS, reg]
      omega
    unfold State.scanDiscard
    exact State.Within.ite (fun _ => ht) fun _ => (State.Within.same ht).count 1 hscan
  exact (hquiet.setScr (scanless_setScr _ _ _)).setScr (scanless_setScr _ _ _)

theorem within_haltEnd {β : Type} (q : State → β) (hq : ∀ (x : State) (e : List Nat), q ({ x with exhausted := e } : State).calm = q x.calm) :
    s.Within (haltedPlace n) q (s.haltEnd n) := by
  have h0 : s.Within (haltedPlace n) q (if s.exhausted.contains n then { s with exhausted := s.exhausted.filter (· != n) }.liveFell (64 + n) else s) := by
    refine State.Within.ite (fun _ => ?_) fun _ => State.Within.refl _ _ s
    have he : s.Within (haltedPlace n) q { s with exhausted := s.exhausted.filter (· != n) } :=
      State.Within.same (State.Within.refl _ _ s) rfl rfl (hq _ _)
    unfold State.liveFell
    exact State.Within.ite (fun _ => he.set 1 (.inr (.inr rfl))) fun _ => he
  refine h0.qosUpdate fun p hp => .inl ?_
  simp only [Reg.QOS_CFG, reg]
  omega

/-- R73: the registers that a stop leaves alone. -/
theorem within_screenHalt (hn : n < 8) : s.Within (haltPlace n) (fun _ => ()) (s.screenHalt n) := by
  have hp : s.portOf n < 8 := State.get_lt s (Reg.SCREEN_CTRL_PORT n)
  have hbegin := (within_haltBegin s n hn).view fun _ => ()
  have hport := within_haltPort (s.haltBegin n) n (fun _ => ()) (s.portOf n) hp
    (fun x => ((State.Within.refl _ _ x).pipeLeave (fun _ => haltPlace_pipe) _).view fun _ => ()) fun _ _ => rfl
  have hregs : (((s.haltBegin n).haltPort n (s.portOf n)).Within (haltPlace n) (fun _ => ())
      (((s.haltBegin n).haltPort n (s.portOf n)).haltRegs n)) :=
    (((State.Within.refl _ _ _).set _ (.inr (.inl rfl))).set _ (.inr (.inl rfl))).set _ (.inr (.inr (.inl rfl)))
  have hend := ((within_haltRecord (((s.haltBegin n).haltPort n (s.portOf n)).haltRegs n) n).view fun _ => ()).trans
    (within_haltEnd _ n (fun _ => ()) fun _ _ => rfl)
  exact (hbegin.trans (hport.trans hregs)).trans (hend.mono fun _ => haltedPlace_halt)

/-- What a stop leaves of a state once its registers are set: the ports' records. -/
theorem within_halted : (((s.haltBegin n).haltPort n (s.portOf n)).haltRegs n).Within (haltedPlace n) State.ports (s.screenHalt n) :=
  ((within_haltRecord _ n).view State.ports).trans (within_haltEnd _ n State.ports fun _ _ => rfl)

theorem screen_not_haltedPlace {o : Nat} (hn : n < 8) (ho : o < 0x10000) : ¬ haltedPlace n (reg 2 n o) := by
  simp only [haltedPlace, Reg.FLT_IN_STATUS, reg]
  omega

/-- R73: a screen that stops does not run, and RUN is 0. -/
theorem screenHalt_stopped (hn : n < 8) :
    (s.screenHalt n).running n = false ∧ (s.screenHalt n).bit (Reg.SCREEN_CTRL_RUN n) = false := by
  have h := within_halted s n
  rw [State.running, h.bit (screen_not_haltedPlace n hn (by omega)), h.bit (screen_not_haltedPlace n hn (by omega))]
  generalize (s.haltBegin n).haltPort n (s.portOf n) = x
  have hne : Reg.SCREEN_STATUS n ≠ Reg.SCREEN_CTRL n := by simp only [Reg.SCREEN_STATUS, Reg.SCREEN_CTRL, reg]; omega
  rw [bit_eq_false, bit_eq_false, State.haltRegs, State.get_set_other _ _ _ _ hne,
    State.get_set_apart _ _ _ _ (Nat.le_of_ble_eq_true rfl) (.inr (Nat.le_of_ble_eq_true rfl)),
    State.get_set_same _ _ _ (Nat.le_of_ble_eq_true rfl), State.get_set_same _ _ _ (Nat.le_of_ble_eq_true rfl), Nat.zero_mod]
  exact ⟨rfl, rfl⟩

/-- R73: the fields of the crossbar that a stop sets. -/
theorem setsOnly_haltMap (s : State) (port : Nat) (r : PortState) (n : Nat) : (s.setPort port r).SetsOnly
    [(Reg.SCREEN_CTRL_RUN n, 0), (Reg.SCREEN_STATUS_LOWERED n, 0), (Reg.SCREEN_STATUS_RUNNING n, 0), (Reg.XBAR_MAP_SCREEN port, 0),
      (Reg.XBAR_MAP_PIPE port, 0xF), (Reg.XBAR_MAP_VALID port, 0)]
    (((((s.set (Reg.XBAR_MAP_VALID port) 0).set (Reg.XBAR_MAP_PIPE port) 0xF).set (Reg.XBAR_MAP_SCREEN port) 0).setPort port r).haltRegs n) :=
  setsOnly_set (setsOnly_set (setsOnly_set (setsOnly_setPort (setsOnly_set (setsOnly_set (setsOnly_set (setsOnly_refl s) _ _) _ _) _ _) port r)
    _ _) _ _) _ _

/-- R73: no screen drives the port of a screen that stops. -/
theorem screenHalt_portFree : (s.screenHalt n).screenOn (s.portOf n) = none := by
  have hp : s.portOf n < 8 := State.get_lt s (Reg.SCREEN_CTRL_PORT n)
  have h := within_halted s n
  have hout : ¬ haltedPlace n (Reg.XBAR_MAP (s.portOf n)) := by simp only [haltedPlace, Reg.FLT_IN_STATUS, Reg.XBAR_MAP, reg]; omega
  rw [State.screenOn, h.bit hout]
  unfold State.haltPort
  rw [bit_eq_false.2 ((setsOnly_haltMap _ _ _ n).get_mem (v := 0) (f := Reg.XBAR_MAP_VALID (s.portOf n)) (by simp) (Nat.le_of_ble_eq_true rfl) ?_)]
  · rfl
  · simp

/-- R95: a stop ends a degrade that waited for the screen, and starts none. -/
theorem screenHalt_degrading {p : Nat} (hn : n < 8) (hd : (s.port p).degrading = false) : ((s.screenHalt n).port p).degrading = false := by
  have hbegin := port_of_pipeless (within_haltBegin s n hn) p
  have hleave : ∀ x : State, (if x.bit (Reg.XBAR_MAP_VALID (s.portOf n)) then x.pipeLeave (x.pipeOf n) else x).port p = x.port p := by
    intro x
    split
    · exact port_of_pipeless ((State.Within.refl _ _ x).pipeLeave (fun _ h => h) _) p
    · rfl
  rw [port_of_ports (within_halted s n)]
  generalize s.haltBegin n = x at hbegin
  generalize hy : (if x.bit (Reg.XBAR_MAP_VALID (s.portOf n)) then x.pipeLeave (x.pipeOf n) else x) = y
  have hport : y.port p = s.port p := by rw [← hy, hleave, hbegin]
  have heq : ∀ r, ((((((y.set (Reg.XBAR_MAP_VALID (s.portOf n)) 0).set (Reg.XBAR_MAP_PIPE (s.portOf n)) 0xF).set
      (Reg.XBAR_MAP_SCREEN (s.portOf n)) 0).setPort (s.portOf n) r).haltRegs n).port p) = if p = s.portOf n then r else y.port p :=
    fun r => ((setsOnly_haltMap y (s.portOf n) r n).port p).trans (State.port_setPort _ _ _ _)
  unfold State.haltPort
  rw [hy]
  dsimp only
  rw [heq]
  split
  · next e =>
    have hd' : (y.port (s.portOf n)).degrading = false := by rw [← e, hport, hd]
    exact (congrArg (· && _) hd').trans (Bool.false_and _)
  · rw [hport, hd]

end

end Sys2Proof.Machine
end

section
/-! PROOF. O53: a port's link. -/

namespace Sys2Proof.Machine

-- one proof after another: each thread of a proof takes its share of the check's memory
set_option Elab.async false

/-! ### Training, and the link up and down -/

/-- The fields that a start of training sets. -/
def trainingFields (p : Nat) : List (Fld × Nat) :=
  [(Reg.DPO_LINK_CTRL_TRAIN p, 1), (Reg.DPO_LINK_STATUS_TRAINING p, 1), (Reg.DPO_LINK_STATUS_LINK_OK p, 0)]

/-- The fields that a link that goes down sets. -/
def downFields (p : Nat) : List (Fld × Nat) :=
  [(Reg.DPO_LINK_STATUS_LINK_OK p, 0), (Reg.DPO_LINK_CTRL_TRAIN p, 0), (Reg.DPO_LINK_STATUS_TRAINING p, 0)]

/-- R398: TRANSIENT of an input whose lasting condition ends. -/
def endsField (s : State) (k : Nat) : Fld × Nat :=
  (Reg.FLT_IN_STATUS_TRANSIENT k, if s.bit (Reg.FLT_IN_STATUS_CAUSE k) then 1 else s.get (Reg.FLT_IN_STATUS_TRANSIENT k))

/-- The fields that a link that comes up sets, beside TRANSIENT. -/
def liveFields (p rate lanes : Nat) : List (Fld × Nat) :=
  [(Reg.DPO_LINK_STATUS_LIVE_LANES p, lanes), (Reg.DPO_LINK_STATUS_LIVE_RATE p, rate), (Reg.DPO_LINK_STATUS_LINK_OK p, 1),
    (Reg.DPO_LINK_CTRL_TRAIN p, 0), (Reg.DPO_LINK_STATUS_TRAINING p, 0)]

/-- R90: the pattern of a training at a rate. -/
def PortState.patternAt (q : PortState) (rate : Nat) : Nat := if rate = 7 then 4 else if q.tps3 then 3 else 2

/-- A record with a configuration that is tried. -/
def PortState.tries (q : PortState) (rate lanes : Nat) : PortState :=
  { q with rate := rate, lanes := lanes, pattern := q.patternAt rate, video := false }

section
variable {u t : State} {l : List (Fld × Nat)}

theorem setsOnly_trainAt (h : u.SetsOnly l t) (p : Nat) (why : TrainWhy) (rate lanes : Nat) :
    (u.setPort p (({ u.port p with why := why } : PortState).tries rate lanes)).SetsOnly (trainingFields p ++ l) (t.trainAt p why rate lanes) := by
  have hset := setsOnly_set (setsOnly_set (setsOnly_set (setsOnly_setPort h p (({ u.port p with why := why } : PortState).tries rate lanes))
    (Reg.DPO_LINK_STATUS_LINK_OK p) 0) (Reg.DPO_LINK_STATUS_TRAINING p) 1) (Reg.DPO_LINK_CTRL_TRAIN p) 1
  rw [← h.port] at hset ⊢
  rw [State.trainAt, State.linkStop, State.port_setPort_same, State.setPort_setPort]
  exact hset

theorem setsOnly_liveFell (h : u.SetsOnly l t) (k : Nat) (hl : ∀ x ∈ l, x.1.addr ≠ Reg.FLT_IN_STATUS k) :
    u.SetsOnly (endsField u k :: l) (t.liveFell k) := by
  have hc : t.bit (Reg.FLT_IN_STATUS_CAUSE k) = u.bit (Reg.FLT_IN_STATUS_CAUSE k) :=
    h.bit_apart (Nat.le_of_ble_eq_true rfl) fun x hx => .inl (hl x hx)
  have ht : t.get (Reg.FLT_IN_STATUS_TRANSIENT k) = u.get (Reg.FLT_IN_STATUS_TRANSIENT k) :=
    h.get_apart (Nat.le_of_ble_eq_true rfl) fun x hx => .inl (hl x hx)
  rw [State.liveFell, endsField, hc]
  split
  · exact setsOnly_set h _ 1
  · refine setsOnly_keep h ?_
    rw [ht, Nat.mod_eq_of_lt (State.get_lt _ _)]

theorem linkFields_addr (p : Nat) : ∀ x ∈ downFields p ++ trainingFields p, x.1.addr = Reg.DPO_LINK_CTRL p ∨ x.1.addr = Reg.DPO_LINK_STATUS p := by
  simp [downFields, trainingFields]

theorem liveFields_addr (p rate lanes : Nat) : ∀ x ∈ liveFields p rate lanes,
    x.1.addr = Reg.DPO_LINK_CTRL p ∨ x.1.addr = Reg.DPO_LINK_STATUS p := by
  simp [liveFields]

theorem link_ne_inStatus {p : Nat} (hp : p < 8) {k a : Nat} (ha : a = Reg.DPO_LINK_CTRL p ∨ a = Reg.DPO_LINK_STATUS p) :
    a ≠ Reg.FLT_IN_STATUS k := by
  simp only [Reg.DPO_LINK_CTRL, Reg.DPO_LINK_STATUS, Reg.FLT_IN_STATUS, reg] at ha ⊢
  omega

/-- A link as it comes up, before its lasting condition ends. -/
def State.linkLive (s : State) (p rate lanes : Nat) : State :=
  ((((s.setPort p { s.port p with pattern := s.trainPattern p rate }).setTraining p false).set (Reg.DPO_LINK_STATUS_LINK_OK p) 1).set
    (Reg.DPO_LINK_STATUS_LIVE_RATE p) rate).set (Reg.DPO_LINK_STATUS_LIVE_LANES p) lanes

theorem linkUp_eq (s : State) (p rate lanes : Nat) : s.linkUp p rate lanes =
    if s.bit (Reg.DPO_LINK_STATUS_LINK_OK p) then s.linkLive p rate lanes else (s.linkLive p rate lanes).liveFell (96 + p) := rfl

theorem setsOnly_linkLive (h : u.SetsOnly l t) (p rate lanes : Nat) :
    (u.setPort p { u.port p with pattern := (u.port p).patternAt rate }).SetsOnly (liveFields p rate lanes ++ l) (t.linkLive p rate lanes) := by
  have hset := setsOnly_set (setsOnly_set (setsOnly_set (setsOnly_set (setsOnly_set
    (setsOnly_setPort h p { u.port p with pattern := (u.port p).patternAt rate }) (Reg.DPO_LINK_STATUS_TRAINING p) 0)
    (Reg.DPO_LINK_CTRL_TRAIN p) 0) (Reg.DPO_LINK_STATUS_LINK_OK p) 1) (Reg.DPO_LINK_STATUS_LIVE_RATE p) rate)
    (Reg.DPO_LINK_STATUS_LIVE_LANES p) lanes
  rw [← h.port] at hset ⊢
  exact hset

theorem setsOnly_linkUp (h : u.SetsOnly l t) {p : Nat} (hp : p < 8) (rate lanes : Nat) (hd : t.bit (Reg.DPO_LINK_STATUS_LINK_OK p) = false)
    (hl : ∀ x ∈ l, x.1.addr ≠ Reg.FLT_IN_STATUS (96 + p)) :
    (u.setPort p { u.port p with pattern := (u.port p).patternAt rate }).SetsOnly (endsField u (96 + p) :: (liveFields p rate lanes ++ l))
      (t.linkUp p rate lanes) := by
  rw [linkUp_eq, hd]
  refine setsOnly_liveFell (setsOnly_linkLive h p rate lanes) (96 + p) fun x hx => ?_
  rcases List.mem_append.1 hx with hx | hx
  · exact link_ne_inStatus hp (liveFields_addr p rate lanes x hx)
  · exact hl x hx

end

/-! ### TRAIN (R89, R90) -/

section
variable {s : State} {w : World} {v : Word}

theorem access_linkCtrl (p : Fin 8) : rowAccess (Reg.DPO_LINK_CTRL p) = some (0x37, 0, 0, 0x100) := by revert p; decide +kernel

/-- The fields of LINK_CTRL that a write takes. -/
def linkCtrlFields (p : Nat) (v : Word) : List (Fld × Nat) :=
  [(Reg.DPO_LINK_CTRL_LANES p, getBits v 4 2), (Reg.DPO_LINK_CTRL_RATE p, getBits v 0 3)]

theorem setsOnly_linkCtrl (s : State) (p : Fin 8) (v : Word) :
    s.SetsOnly (linkCtrlFields p v) (s.plainWrite (Reg.DPO_LINK_CTRL p) (withoutBit (withBit v 8) 8)) := by
  have hm : ∀ i < 32, (0x37 : Word).getLsbD i = decide (i < 3 ∨ (4 ≤ i ∧ i < 6)) := by decide
  have he : ∀ i < 32, (0x100 : Word).getLsbD i = decide (i = 8) := by decide
  have h0 : ∀ i, (0 : Word).getLsbD i = false := fun i => BitVec.getLsbD_zero
  refine setsOnly_access (access_linkCtrl p) (by simp [linkCtrlFields]) fun i hi => ?_
  rw [linkCtrlFields, hm i hi, he i hi, h0, getLsbD_withoutBit _ 8 hi, getLsbD_withBit v 8 hi]
  simp only [bitAfter_cons_getBits, bitAfter_nil]
  grind

theorem linkCtrlFields_addr (p : Nat) (v : Word) : ∀ x ∈ linkCtrlFields p v, x.1.addr = Reg.DPO_LINK_CTRL p ∧ x.1.lo + x.1.width ≤ 6 := by
  simp [linkCtrlFields]

theorem linkCtrl_ne {p o : Nat} (h4 : o ≠ 4) : Reg.DPO_LINK_CTRL p ≠ reg 4 p o := by
  simp only [Reg.DPO_LINK_CTRL, reg]
  omega

/-- R89, R90: TRAIN. -/
theorem dpTrain_does (p : Fin 8) (ha : s.Admits w 0x04 p false) (hk : s.SourceFree (25 + p)) :
    let has := s.bit (Reg.DPO_CTRL_EDP p) || dpRate (getBits v 0 3)
    (s.screenOn p ≠ none → Does (.dpTrain p w v) s s (linkRaised s p (Reg.DPO_LINK_STATUS_WRITE_WHILE_ACTIVE p))) ∧
    (s.screenOn p = none → has = false →
      Does (.dpTrain p w v) s s (linkRaised s p (Reg.DPO_LINK_STATUS_CFG_ERR p) ++ linkCtrlFields p v)) ∧
    (s.screenOn p = none → has = true → Does (.dpTrain p w v) s (s.setPort p (({ s.port p with
        asked := (getBits v 0 3, laneCode (getBits v 4 2)), failed := [], why := .soft } : PortState).tries (getBits v 0 3) (laneCode (getBits v 4 2))))
      (trainingFields p ++ linkCtrlFields p v)) := by
  intro has
  have he : exec (.dpTrain p w v) s = .next (s.linkCtrlWrite p (withBit v 8)) := congrArg _ (asWriter_admits ha _)
  have hset := setsOnly_linkCtrl s p v
  have hrate : (s.plainWrite (Reg.DPO_LINK_CTRL p) (withoutBit (withBit v 8) 8)).get (Reg.DPO_LINK_CTRL_RATE p) = getBits v 0 3 :=
    (hset.get_mem (v := getBits v 0 3) (by simp [linkCtrlFields]) (Nat.le_of_ble_eq_true rfl) (by simp [linkCtrlFields])).trans
      (Nat.mod_eq_of_lt (getBits_lt v 0 3))
  have hlanes : (s.plainWrite (Reg.DPO_LINK_CTRL p) (withoutBit (withBit v 8) 8)).get (Reg.DPO_LINK_CTRL_LANES p) = getBits v 4 2 :=
    (hset.get_mem (v := getBits v 4 2) (by simp [linkCtrlFields]) (Nat.le_of_ble_eq_true rfl) (by simp [linkCtrlFields])).trans
      (Nat.mod_eq_of_lt (getBits_lt v 4 2))
  have hedp : (s.plainWrite (Reg.DPO_LINK_CTRL p) (withoutBit (withBit v 8) 8)).bit (Reg.DPO_CTRL_EDP p) = s.bit (Reg.DPO_CTRL_EDP p) :=
    hset.bit_apart (Nat.le_of_ble_eq_true rfl) fun x hx => .inl (by rw [(linkCtrlFields_addr p v x hx).1]; exact linkCtrl_ne (by omega))
  refine ⟨fun hon => ⟨_, he, ?_⟩, fun hon hno => ⟨_, he, ?_⟩, fun hon hyes => ⟨_, he, ?_⟩⟩
  · have h := setsOnly_linkEvent (setsOnly_refl s) p hk (flag := Reg.DPO_LINK_STATUS_WRITE_WHILE_ACTIVE p) (by simp)
    rw [List.append_nil] at h
    rwa [State.linkCtrlWrite, if_pos (Option.isSome_iff_ne_none.2 hon)]
  all_goals
    rw [State.linkCtrlWrite, hon, bitOf_withBit_self v (by omega)]
    dsimp only
    rw [hrate, hlanes, hedp]
  · have hno' : (!s.bit (Reg.DPO_CTRL_EDP p) && !dpRate (getBits v 0 3)) = true := by rw [← Bool.not_or, show (_ || _) = false from hno]; rfl
    have h := setsOnly_linkEvent hset p hk (flag := Reg.DPO_LINK_STATUS_CFG_ERR p) (by simp)
    rw [linkRaised, hset.more_apart (Nat.le_of_ble_eq_true rfl)
      fun x hx => .inl (by rw [(linkCtrlFields_addr p v x hx).1]; exact linkCtrl_ne (by omega))] at h
    rw [hno']
    exact h
  · have hyes' : (!s.bit (Reg.DPO_CTRL_EDP p) && !dpRate (getBits v 0 3)) = false := by rw [← Bool.not_or, show (_ || _) = true from hyes]; rfl
    rw [hyes']
    have h := setsOnly_trainAt (setsOnly_setPort hset p { s.port p with asked := (getBits v 0 3, laneCode (getBits v 4 2)), failed := [] }) p .soft
      (getBits v 0 3) (laneCode (getBits v 4 2))
    rw [State.setPort_setPort, State.port_setPort_same, ← hset.port] at h
    rw [← hset.port]
    exact h

end

/-! ### The end of training (R90, R91, R93, R96) -/

section
variable {s : State}

/-- The fields that DEGRADED's end sets, where it was set. -/
def clearedFields (s : State) (p : Nat) : List (Fld × Nat) :=
  if s.bit (Reg.DPO_LINK_STATUS_DEGRADED p) then [endsField s (104 + p), (Reg.DPO_LINK_STATUS_DEGRADED p, 0)] else []

theorem setsOnly_clearDegraded {u t : State} {l : List (Fld × Nat)} (h : u.SetsOnly l t) {p : Nat} (hp : p < 8)
    (hd : ∀ x ∈ l, x.1.addr ≠ Reg.DPO_LINK_STATUS p ∨ x.1.lo + x.1.width ≤ 23)
    (hl : ∀ x ∈ l, x.1.addr ≠ Reg.FLT_IN_STATUS (104 + p)) : u.SetsOnly (clearedFields u p ++ l) (t.clearDegraded p) := by
  have hdeg : t.bit (Reg.DPO_LINK_STATUS_DEGRADED p) = u.bit (Reg.DPO_LINK_STATUS_DEGRADED p) :=
    h.bit_apart (Nat.le_of_ble_eq_true rfl) fun x hx => (hd x hx).imp_right .inr
  rw [State.clearDegraded, clearedFields, hdeg]
  split
  · refine setsOnly_liveFell (setsOnly_set h (Reg.DPO_LINK_STATUS_DEGRADED p) 0) (104 + p) fun x hx => ?_
    rcases List.mem_cons.1 hx with rfl | hx
    · exact link_ne_inStatus hp (.inr rfl)
    · exact hl x hx
  · exact h

theorem inStatus_ne {j k : Nat} (h : j ≠ k) : Reg.FLT_IN_STATUS j ≠ Reg.FLT_IN_STATUS k := by
  simp only [Reg.FLT_IN_STATUS, reg]
  omega

/-- A training that ends well. -/
theorem setsOnly_trained (s : State) {p : Nat} (hp : p < 8) (r : PortState) (hd : s.bit (Reg.DPO_LINK_STATUS_LINK_OK p) = false) :
    (s.setPort p { r with pattern := r.patternAt r.rate }).SetsOnly (endsField s (96 + p) :: liveFields p r.rate r.lanes)
      ((s.setPort p r).linkUp p r.rate r.lanes) := by
  have h := setsOnly_linkUp (setsOnly_refl (s.setPort p r)) hp r.rate r.lanes hd (by simp)
  rwa [State.setPort_setPort, State.port_setPort_same, List.append_nil] at h

/-- A training that ends well where a request or a replug began it. -/
theorem trainDone_linked {p : Nat} (hp : p < 8) {ok : Bool} (hw : (s.port p).why = .soft ∨ (s.port p).why = .relink)
    (ht : (ok && s.bit (Reg.DPO_CTRL_EN p)) = true) (hd : s.bit (Reg.DPO_LINK_STATUS_LINK_OK p) = false) :
    (s.setPort p { s.port p with why := .none, last := some ((s.port p).rate, (s.port p).lanes), pattern := (s.port p).patternAt (s.port p).rate }).SetsOnly
      (if (s.port p).why = .soft ∧ s.bit (Reg.DPO_LINK_STATUS_DEGRADED p) = true then
        [endsField s (104 + p), (Reg.DPO_LINK_STATUS_DEGRADED p, 0)] ++ endsField s (96 + p) :: liveFields p (s.port p).rate (s.port p).lanes
        else endsField s (96 + p) :: liveFields p (s.port p).rate (s.port p).lanes)
      (s.trainDone p ok) := by
  have hup := setsOnly_trained s hp { s.port p with why := .none, last := some ((s.port p).rate, (s.port p).lanes) } hd
  have hclear := setsOnly_clearDegraded hup hp (by simp [endsField, liveFields])
    (fun x hx => by
      rcases List.mem_cons.1 hx with rfl | hx
      · exact inStatus_ne (by omega)
      · exact link_ne_inStatus hp (liveFields_addr p _ _ x hx))
  rcases hw with hw | hw
  · rw [State.trainDone, hw]
    dsimp only
    rw [ht, if_pos rfl, if_pos rfl]
    by_cases hdeg : s.bit (Reg.DPO_LINK_STATUS_DEGRADED p) = true
    · rw [if_pos ⟨rfl, hdeg⟩]
      rw [show clearedFields (s.setPort p _) p = _ from if_pos hdeg] at hclear
      exact hclear
    · rw [if_neg (fun h => hdeg h.2)]
      rw [show clearedFields (s.setPort p _) p = _ from if_neg hdeg] at hclear
      exact hclear
  · rw [State.trainDone, hw]
    dsimp only
    rw [ht, if_pos rfl, if_neg (by simp), if_neg (by simp)]
    exact hup

/-- R91: the next configuration is tried. -/
theorem trainDone_next {p : Nat} {ok : Bool} (hw : (s.port p).why = .soft ∨ (s.port p).why = .relink)
    (ht : (ok && s.bit (Reg.DPO_CTRL_EN p)) = false) (hf : s.bit (Reg.DPO_CTRL_FALLBACK p) = true) {c : Nat × Nat} (hn : s.nextTry p = some c) :
    (s.setPort p ((s.port p).tries c.1 c.2)).SetsOnly (trainingFields p) (s.trainDone p ok) := by
  have h := setsOnly_trainAt (setsOnly_refl s) p (s.port p).why c.1 c.2
  rw [List.append_nil] at h
  have he : s.trainDone p ok = s.trainAt p (s.port p).why c.1 c.2 := by
    rcases hw with hw | hw <;> (rw [State.trainDone, hw]; dsimp only; rw [ht, if_neg Bool.false_ne_true, hf, if_pos rfl, hn])
  rw [he]
  exact h

/-- R91: no configuration is left. -/
theorem trainDone_fails {p : Fin 8} {ok : Bool} (hw : (s.port p).why = .soft ∨ (s.port p).why = .relink)
    (ht : (ok && s.bit (Reg.DPO_CTRL_EN p)) = false) (hn : s.bit (Reg.DPO_CTRL_FALLBACK p) = false ∨ s.nextTry p = none)
    (hk : s.SourceFree (25 + p)) :
    (s.setPort p { s.port p with why := .none, video := false }).SetsOnly
      (linkRaised s p (Reg.DPO_LINK_STATUS_TRAIN_FAIL p) ++ downFields p) (s.trainDone p ok) := by
  have hdown := setsOnly_portDown (setsOnly_refl (s.setPort p { s.port p with why := .none })) p
  rw [State.setPort_setPort, State.port_setPort_same, List.append_nil] at hdown
  have h := setsOnly_linkEvent hdown p hk (flag := Reg.DPO_LINK_STATUS_TRAIN_FAIL p) (by simp)
  rw [linkRaised, hdown.more_apart (Nat.le_of_ble_eq_true rfl) (by simp)] at h
  have hnone : (if s.bit (Reg.DPO_CTRL_FALLBACK p) then s.nextTry p else none) = none := by
    rcases hn with hn | hn <;> simp [hn]
  have he : s.trainDone p ok = ((s.setPort p { s.port p with why := .none }).linkDown p).linkEvent p (Reg.DPO_LINK_STATUS_TRAIN_FAIL p) := by
    rcases hw with hw | hw <;> (rw [State.trainDone, hw]; dsimp only; rw [ht, if_neg Bool.false_ne_true, hnone])
  rw [he]
  exact h

theorem trainDone_irq {p : Nat} (hp : p < 8) {ok : Bool} (hw : (s.port p).why = .irq) :
    let trained := ok && s.bit (Reg.DPO_CTRL_EN p)
    (trained = true → s.bit (Reg.DPO_LINK_STATUS_LINK_OK p) = false →
      (s.setPort p { s.port p with why := .none, pattern := (s.port p).patternAt (s.port p).rate }).SetsOnly
        (endsField s (96 + p) :: liveFields p (s.port p).rate (s.port p).lanes) (s.trainDone p ok)) ∧
    (trained = false → s.trainDone p ok = s.degradeStart p) := by
  intro trained
  have he : s.trainDone p ok = if trained then (s.setPort p { s.port p with why := .none }).linkUp p (s.port p).rate (s.port p).lanes
      else s.degradeStart p := by
    rw [State.trainDone, hw]
  refine ⟨fun ht hd => ?_, fun ht => ?_⟩
  · rw [he, ht]
    exact setsOnly_trained s hp { s.port p with why := .none } hd
  · rw [he, ht]
    rfl

theorem trainDone_other {p : Nat} {ok : Bool} (hw : (s.port p).why = .none ∨ (s.port p).why = .degrade ∨ (s.port p).why = .retime) :
    s.trainDone p ok = s := by
  rcases hw with hw | hw | hw <;> rw [State.trainDone, hw]

/-! ### HPD (R92, R93) -/

theorem hpdIrq_reported (p : Fin 8) {lost : Nat} (hh : s.bit (Reg.DPO_LINK_STATUS_HPD p) = true) (hk : s.SourceFree (25 + p))
    (hb : s.bit (Reg.DPO_LINK_STATUS_LINK_OK p) = false ∨
      (List.range (laneCount (s.get (Reg.DPO_LINK_STATUS_LIVE_LANES p)))).filter (bitOf lost) = []) :
    s.SetsOnly (linkRaised s p (Reg.DPO_LINK_STATUS_IRQ_HPD p)) (s.hpdIrq p lost) := by
  have h := setsOnly_linkEvent (setsOnly_refl s) p hk (flag := Reg.DPO_LINK_STATUS_IRQ_HPD p) (by simp)
  rw [List.append_nil] at h
  rw [State.hpdIrq, hh]
  rcases hb with hb | hb <;> simpa [hb] using h

theorem hpdIrq_lost {p lost : Nat} (hh : s.bit (Reg.DPO_LINK_STATUS_HPD p) = true) (hd : s.bit (Reg.DPO_LINK_STATUS_LINK_OK p) = true)
    {bad : List Nat} (hbad : (List.range (laneCount (s.get (Reg.DPO_LINK_STATUS_LIVE_LANES p)))).filter (bitOf lost) = bad) (hb : bad ≠ []) :
    s.hpdIrq p lost = if bad.any (s.port p).failed.contains then s.degradeStart p
      else (s.setPort p { s.port p with failed := (s.port p).failed ++ bad }).trainAt p .irq (s.get (Reg.DPO_LINK_STATUS_LIVE_RATE p))
        (s.get (Reg.DPO_LINK_STATUS_LIVE_LANES p)) := by
  have he : bad.isEmpty = false := List.isEmpty_eq_false_iff.2 hb
  rw [State.hpdIrq, hh, hd]
  dsimp only
  rw [hbad, he]
  rfl

/-- R93: lanes that fail for the first time are trained again. -/
theorem setsOnly_retrain (s : State) (p : Nat) (bad : List Nat) (rate lanes : Nat) :
    (s.setPort p (({ s.port p with failed := (s.port p).failed ++ bad, why := .irq } : PortState).tries rate lanes)).SetsOnly (trainingFields p)
      ((s.setPort p { s.port p with failed := (s.port p).failed ++ bad }).trainAt p .irq rate lanes) := by
  have h := setsOnly_trainAt (setsOnly_refl (s.setPort p { s.port p with failed := (s.port p).failed ++ bad })) p .irq rate lanes
  rwa [State.setPort_setPort, State.port_setPort_same, List.append_nil] at h

/-- What a degrade's begin leaves for the training of the lanes. -/
def State.degradeBegin (s : State) (p : Nat) : State :=
  match s.screenOn p with
  | some n =>
    let s := if (s.scr n).gap then s else s.setScr n { s.scr n with halve := false }
    if s.get (Reg.SCREEN_RETIME_STATE n) = 1 then s.retimeRefuse n 0xC else s
  | none => s

theorem degradeStart_eq (s : State) (p : Nat) : s.degradeStart p =
    ((s.degradeBegin p).setPort p { (s.degradeBegin p).port p with degrading := true }).trainAt p .degrade
      ((s.degradeBegin p).get (Reg.DPO_LINK_STATUS_LIVE_RATE p)) ((s.degradeBegin p).get (Reg.DPO_LINK_STATUS_LIVE_LANES p)) := rfl

/-- R83: the fields that a refused RETIME sets. -/
def retimeRefusedFields (s : State) (n code : Nat) : List (Fld × Nat) :=
  [(Reg.SCREEN_RETIME_GO n, 0), (Reg.SCREEN_RETIME_STATE n, 0), (Reg.SCREEN_RETIME_EVENTS n, s.more (Reg.SCREEN_RETIME_EVENTS n)),
    (Reg.SCREEN_RETIME_REFUSED n, 1), (Reg.SCREEN_STATUS_ERR_CODE n, code)]

theorem setsOnly_retimeRefuse {u t : State} {l : List (Fld × Nat)} (h : u.SetsOnly l t) (n code : Nat) :
    u.SetsOnly (retimeRefusedFields t n code ++ l) (t.retimeRefuse n code) := by
  have hset := setsOnly_set (setsOnly_set h (Reg.SCREEN_STATUS_ERR_CODE n) code) (Reg.SCREEN_RETIME_REFUSED n) 1
  have hmore : ((t.set (Reg.SCREEN_STATUS_ERR_CODE n) code).set (Reg.SCREEN_RETIME_REFUSED n) 1).more (Reg.SCREEN_RETIME_EVENTS n) =
      t.more (Reg.SCREEN_RETIME_EVENTS n) := by
    have hne : Reg.SCREEN_RETIME n ≠ Reg.SCREEN_STATUS n := by simp only [Reg.SCREEN_RETIME, Reg.SCREEN_STATUS, reg]; omega
    rw [State.more, State.get_set_apart _ _ _ _ (Nat.le_of_ble_eq_true rfl) (.inr (Nat.le_of_ble_eq_true rfl)),
      State.get_set_other _ _ _ _ hne, State.more]
  have hall := setsOnly_set (setsOnly_set (setsOnly_set hset (Reg.SCREEN_RETIME_EVENTS n) (t.more (Reg.SCREEN_RETIME_EVENTS n)))
    (Reg.SCREEN_RETIME_STATE n) 0) (Reg.SCREEN_RETIME_GO n) 0
  rw [← hmore] at hall
  rw [retimeRefusedFields, ← hmore]
  exact hall

/-- R94, R95: a degrade begins. -/
theorem degradeStart_leads (s : State) {p : Nat} (hp : p < 8) :
    let t := s.degradeStart p
    (t.port p).degrading = true ∧ (t.port p).why = .degrade ∧ t.bit (Reg.DPO_LINK_STATUS_TRAINING p) = true ∧
      t.bit (Reg.DPO_LINK_STATUS_LINK_OK p) = false ∧ ∀ n, s.screenOn p = some n → s.get (Reg.SCREEN_RETIME_STATE n) = 1 →
        t.bit (Reg.SCREEN_RETIME_REFUSED n) = true ∧ t.get (Reg.SCREEN_STATUS_ERR_CODE n) = 0xC := by
  intro t
  have h : (((s.degradeBegin p).setPort p { (s.degradeBegin p).port p with degrading := true }).setPort p _).SetsOnly _ t :=
    setsOnly_trainAt (setsOnly_refl _) p .degrade _ _
  rw [State.setPort_setPort, State.port_setPort_same, List.append_nil] at h
  have hport := h.port p
  rw [State.port_setPort_same] at hport
  have htrain := h.get_mem (f := Reg.DPO_LINK_STATUS_TRAINING p) (v := 1) (by simp [trainingFields]) (Nat.le_of_ble_eq_true rfl) (by simp [trainingFields])
  have hok := h.get_mem (f := Reg.DPO_LINK_STATUS_LINK_OK p) (v := 0) (by simp [trainingFields]) (Nat.le_of_ble_eq_true rfl) (by simp [trainingFields])
  refine ⟨congrArg PortState.degrading hport, congrArg PortState.why hport, ?_, bit_eq_false.2 hok, fun n hon hst => ?_⟩
  · rw [State.bit, htrain]
    rfl
  · have hapart : ∀ o < 0x10000, ∀ x ∈ trainingFields p, x.1.addr ≠ reg 2 n o := by
      have hn : n < 8 := by
        rw [State.screenOn] at hon
        split at hon
        · cases hon
          exact State.get_lt s (Reg.XBAR_MAP_SCREEN p)
        · cases hon
      intro o ho x hx
      rcases linkFields_addr p x (List.mem_append_right _ hx) with e | e <;> rw [e] <;>
        simp only [Reg.DPO_LINK_CTRL, Reg.DPO_LINK_STATUS, reg] <;> omega
    have hbegin : ∃ x : State, x.get (Reg.SCREEN_RETIME_STATE n) = 1 ∧ s.degradeBegin p = x.retimeRefuse n 0xC := by
      rw [State.degradeBegin, hon]
      refine ⟨if (s.scr n).gap then s else s.setScr n { s.scr n with halve := false }, ?_, if_pos ?_⟩ <;> split <;> exact hst
    obtain ⟨x, -, hx⟩ := hbegin
    have href := setsOnly_retimeRefuse (setsOnly_refl x) n 0xC
    rw [← hx, List.append_nil] at href
    have hrefused := href.get_mem (f := Reg.SCREEN_RETIME_REFUSED n) (v := 1) (by simp [retimeRefusedFields]) (Nat.le_of_ble_eq_true rfl) (by simp [retimeRefusedFields])
    have hcode := href.get_mem (f := Reg.SCREEN_STATUS_ERR_CODE n) (v := 0xC) (by simp [retimeRefusedFields]) (Nat.le_of_ble_eq_true rfl) (by simp [retimeRefusedFields])
    refine ⟨?_, ?_⟩
    · rw [h.bit_apart (Nat.le_of_ble_eq_true rfl) fun y hy => .inl (hapart 0x70 (by omega) y hy)]
      exact (bit_eq_true rfl).2 hrefused
    · rw [h.get_apart (Nat.le_of_ble_eq_true rfl) fun y hy => .inl (hapart 0x30 (by omega) y hy)]
      exact hcode

/-- R92: an unplugged port, before its fault is raised. -/
theorem setsOnly_unplug (p : Fin 8) (hh : s.bit (Reg.DPO_LINK_STATUS_HPD p) = true) (hk : s.SourceFree (25 + p)) :
    DoesThen (.hpdUnplug p) s
      (s.setPort p { s.port p with degrading := false, video := false, why := if (s.port p).why = .retime then .retime else .none })
      (linkRaised s p (Reg.DPO_LINK_STATUS_UNPLUG p) ++ (Reg.DPO_LINK_STATUS_HPD p, 0) :: downFields p) (·.raiseFault (112 + p)) := by
  have hdown := setsOnly_portDown (setsOnly_refl (s.setPort p { s.port p with
    degrading := false, why := if (s.port p).why = .retime then .retime else .none })) p
  rw [State.setPort_setPort, State.port_setPort_same, List.append_nil] at hdown
  have hhpd := setsOnly_set hdown (Reg.DPO_LINK_STATUS_HPD p) 0
  have h := setsOnly_linkEvent hhpd p hk (flag := Reg.DPO_LINK_STATUS_UNPLUG p) (by simp)
  rw [linkRaised, hhpd.more_apart (Nat.le_of_ble_eq_true rfl) (by simp)] at h
  refine ⟨_, h, congrArg Host.Outcome.next ?_⟩
  rw [State.unplug, hh]
  rfl

/-- A port that is plugged in, before it trains. -/
def State.plugged (s : State) (p : Nat) (tps3 : Bool) : State :=
  ((s.set (Reg.DPO_LINK_STATUS_HPD p) 1).liveFell (112 + p)).setPort p { s.port p with awaitHpd := false, tps3 := tps3 }

theorem setsOnly_plugged (s : State) {p : Nat} (hp : p < 8) (tps3 : Bool) :
    (s.setPort p { s.port p with awaitHpd := false, tps3 := tps3 }).SetsOnly [endsField s (112 + p), (Reg.DPO_LINK_STATUS_HPD p, 1)] (s.plugged p tps3) :=
  setsOnly_setPort (setsOnly_liveFell (setsOnly_set (setsOnly_refl s) (Reg.DPO_LINK_STATUS_HPD p) 1) (112 + p)
    (by simpa using link_ne_inStatus hp (.inr rfl))) p _

/-- R92: a port that is plugged in, with the training that AUTO_RELINK begins. -/
theorem replug_eq {p : Nat} (hp : p < 8) (tps3 : Bool) (hh : s.bit (Reg.DPO_LINK_STATUS_HPD p) = false) : s.replug p tps3 =
    match (s.port p).last with
    | some (c, l) =>
      if s.bit (Reg.DPO_CTRL_AUTO_RELINK p) && (s.port p).why = .none then
        ((s.plugged p tps3).setPort p { (s.plugged p tps3).port p with asked := (c, l) }).trainAt p .relink c l
      else s.plugged p tps3
    | none => s.plugged p tps3 := by
  have hfell := setsOnly_liveFell (setsOnly_set (setsOnly_refl s) (Reg.DPO_LINK_STATUS_HPD p) 1) (112 + p)
    (by simpa using link_ne_inStatus hp (.inr rfl))
  have hport : (s.plugged p tps3).port p = { s.port p with awaitHpd := false, tps3 := tps3 } := State.port_setPort_same _ _ _
  have hauto : (s.plugged p tps3).bit (Reg.DPO_CTRL_AUTO_RELINK p) = s.bit (Reg.DPO_CTRL_AUTO_RELINK p) := by
    exact (setsOnly_plugged s hp tps3).bit_apart (f := Reg.DPO_CTRL_AUTO_RELINK p) (Nat.le_of_ble_eq_true rfl) (by simp [endsField])
  have hplug : ((s.set (Reg.DPO_LINK_STATUS_HPD p) 1).liveFell (112 + p)).setPort p
      { ((s.set (Reg.DPO_LINK_STATUS_HPD p) 1).liveFell (112 + p)).port p with awaitHpd := false, tps3 := tps3 } = s.plugged p tps3 := by
    rw [hfell.port, State.plugged]
  rw [State.replug, hh, if_neg Bool.false_ne_true]
  dsimp only
  rw [hplug]
  have hlast : ((s.plugged p tps3).port p).last = (s.port p).last := by rw [hport]
  have hwhy : ((s.plugged p tps3).port p).why = (s.port p).why := by rw [hport]
  rw [hlast, hwhy, hauto] <;> rfl

theorem replug_quiet (p : Fin 8) (tps3 : Bool) (hh : s.bit (Reg.DPO_LINK_STATUS_HPD p) = false)
    (h : (s.port p).last = none ∨ s.bit (Reg.DPO_CTRL_AUTO_RELINK p) = false ∨ (s.port p).why ≠ .none) : s.replug p tps3 = s.plugged p tps3 := by
  rw [replug_eq p.isLt tps3 hh]
  rcases h with h | h | h
  · rw [h]
  · rw [h]
    cases (s.port p).last <;> rfl
  · rw [decide_eq_false h, Bool.and_false]
    cases (s.port p).last <;> rfl

theorem replug_relinks (p : Fin 8) (tps3 : Bool) (hh : s.bit (Reg.DPO_LINK_STATUS_HPD p) = false)
    (ha : s.bit (Reg.DPO_CTRL_AUTO_RELINK p) = true) (hw : (s.port p).why = .none) {c : Nat × Nat} (hc : (s.port p).last = some c) :
    (s.setPort p (({ s.port p with awaitHpd := false, asked := c, why := .relink, tps3 := tps3 } : PortState).tries c.1 c.2)).SetsOnly
      (trainingFields p ++ [endsField s (112 + p), (Reg.DPO_LINK_STATUS_HPD p, 1)]) (s.replug p tps3) := by
  have hplug := setsOnly_plugged s p.isLt tps3
  have hport : (s.plugged p tps3).port p = { s.port p with awaitHpd := false, tps3 := tps3 } := State.port_setPort_same _ _ _
  have h := setsOnly_trainAt (setsOnly_setPort hplug p { (s.plugged p tps3).port p with asked := c }) p .relink c.1 c.2
  rw [State.setPort_setPort, State.setPort_setPort, State.port_setPort_same] at h
  rw [replug_eq p.isLt tps3 hh, hc, ha, hw]
  rw [hport] at h ⊢
  exact h

/-! ### The end of a degrade (R94, R95) -/

theorem screenOn_lt {p n : Nat} (hon : s.screenOn p = some n) : n < 8 := by
  rw [State.screenOn] at hon
  split at hon
  · cases hon
    exact State.get_lt s (Reg.XBAR_MAP_SCREEN p)
  · cases hon

theorem screenFault_port {p : Nat} (hp : p < 8) : screenFault (96 + p) ∧ screenFault (104 + p) ∧ screenFault (112 + p) := by
  unfold screenFault
  omega

theorem link_not_faultPlace {p : Nat} (hp : p < 8) : ¬ faultPlace (Reg.DPO_LINK_STATUS p) := by
  simp only [faultPlace, Reg.DPO_LINK_STATUS, reg]
  omega

theorem link_not_haltPlace {n p : Nat} (hp : p < 8) : ¬ haltPlace n (Reg.DPO_LINK_STATUS p) := by
  simp only [haltPlace, pipePlace, Reg.DPO_LINK_STATUS, Reg.SCREEN_STATUS, Reg.SCREEN_CTRL, Reg.SCREEN_RETIME, Reg.FLT_IN_STATUS, reg]
  omega

theorem portFault_not_haltPlace {n p : Nat} (hn : n < 8) (hp : p < 8) : ¬ haltPlace n (Reg.FLT_IN_STATUS (96 + p)) := by
  simp only [haltPlace, pipePlace, Reg.SCREEN_STATUS, Reg.SCREEN_CTRL, Reg.SCREEN_RETIME, Reg.FLT_IN_STATUS, reg]
  omega

theorem port_of_faultless {A : Nat → Prop} {s t : State} (h : s.Within A State.faultless t) (p : Nat) : t.port p = s.port p :=
  congrArg (fun x : State × (Nat → ScreenState) => x.1.port p) h.rest

/-- R94: a link that is unusable. -/
theorem unusable_leads (s : State) {p : Nat} (hp : p < 8) :
    let t := s.unusable p
    t.bit (Reg.DPO_LINK_STATUS_LINK_OK p) = false ∧ (t.port p).degrading = false ∧ t.bit (Reg.FLT_IN_STATUS_CAUSE (96 + p)) = true ∧
      ∀ n, s.screenOn p = some n → t.running n = false := by
  intro t
  have hdown := setsOnly_portDown (setsOnly_refl (s.setPort p { s.port p with degrading := false, why := .none })) p
  rw [State.setPort_setPort, State.port_setPort_same, List.append_nil] at hdown
  have hok := hdown.get_mem (f := Reg.DPO_LINK_STATUS_LINK_OK p) (v := 0) (by simp) (Nat.le_of_ble_eq_true rfl) (by simp)
  have hport := hdown.port p
  rw [State.port_setPort_same] at hport
  have ht : t = match s.screenOn p with
      | some n => (((s.setPort p { s.port p with degrading := false, why := .none }).linkDown p).raiseFault (96 + p)).screenHalt n
      | none => ((s.setPort p { s.port p with degrading := false, why := .none }).linkDown p).raiseFault (96 + p) := rfl
  generalize (s.setPort p { s.port p with degrading := false, why := .none }).linkDown p = x at hok hport ht
  have hfault := within_raiseFault x (screenFault_port hp).1
  have hok' : (x.raiseFault (96 + p)).bit (Reg.DPO_LINK_STATUS_LINK_OK p) = false := by
    rw [hfault.bit (link_not_faultPlace hp)]
    exact bit_eq_false.2 hok
  have hdeg' : ((x.raiseFault (96 + p)).port p).degrading = false := by rw [port_of_faultless hfault, hport]
  have hcause : (x.raiseFault (96 + p)).bit (Reg.FLT_IN_STATUS_CAUSE (96 + p)) = true := by
    rw [bit_cause_raiseFault x (screenFault_port hp).1 (by omega), decide_eq_true rfl, Bool.true_or]
  cases hon : s.screenOn p with
  | none =>
    rw [hon] at ht
    rw [ht]
    exact ⟨hok', hdeg', hcause, fun n h => by cases h⟩
  | some n =>
    rw [hon] at ht
    have hn := screenOn_lt hon
    have hhalt := within_screenHalt (x.raiseFault (96 + p)) n hn
    rw [ht]
    refine ⟨?_, screenHalt_degrading _ n hn hdeg', ?_, fun m hm => ?_⟩
    · rw [hhalt.bit (link_not_haltPlace hp), hok']
    · rw [hhalt.bit (portFault_not_haltPlace hn hp), hcause]
    · cases hm
      exact (screenHalt_stopped _ n hn).1

/-- R94: a link that a degrade leaves at a lower rate or fewer lanes. -/
theorem degraded_leads (s : State) {p : Nat} (hp : p < 8) (rate lanes : Nat) (halve : Bool) :
    let t := s.degraded p rate lanes halve
    t.bit (Reg.DPO_LINK_STATUS_LINK_OK p) = true ∧ t.bit (Reg.DPO_LINK_STATUS_DEGRADED p) = true ∧
      t.get (Reg.DPO_LINK_STATUS_LIVE_RATE p) = rate % 8 ∧ t.get (Reg.DPO_LINK_STATUS_LIVE_LANES p) = lanes % 4 ∧
      (t.port p).degrading = halve ∧ (t.port p).pattern = (s.port p).patternAt rate ∧ (t.port p).last = some (rate, lanes) ∧
      t.bit (Reg.FLT_IN_STATUS_CAUSE (104 + p)) = true ∧ (∀ n, (t.scr n).halve = (s.scr n).halve) ∧ ∀ n < 8, t.running n = s.running n := by
  intro t
  let r : PortState := { s.port p with degrading := halve, why := .none, last := some (rate, lanes), failed := [] }
  have hlive := setsOnly_linkLive (setsOnly_refl (s.setPort p r)) p rate lanes
  rw [State.setPort_setPort, State.port_setPort_same, List.append_nil] at hlive
  -- the link's lasting condition may end besides
  obtain ⟨l, hup, hl⟩ : ∃ l, (s.setPort p { r with pattern := r.patternAt rate }).SetsOnly (l ++ liveFields p rate lanes) ((s.setPort p r).linkUp p rate lanes) ∧
      ∀ x ∈ l, x.1.addr = Reg.FLT_IN_STATUS (96 + p) := by
    rw [linkUp_eq]
    split
    · exact ⟨[], hlive, by simp⟩
    · exact ⟨[_], setsOnly_liveFell hlive (96 + p) fun x hx => link_ne_inStatus hp (liveFields_addr p _ _ x hx), by simp [endsField]⟩
  have hset := setsOnly_set hup (Reg.DPO_LINK_STATUS_DEGRADED p) 1
  have hne : ∀ x ∈ l, x.1.addr ≠ Reg.DPO_LINK_STATUS p := fun x hx => by
    rw [hl x hx]
    exact (link_ne_inStatus hp (.inr rfl)).symm
  have hget : ∀ {f : Fld} {v : Nat}, (f, v) ∈ (Reg.DPO_LINK_STATUS_DEGRADED p, 1) :: liveFields p rate lanes → f.addr = Reg.DPO_LINK_STATUS p →
      f.lo + f.width ≤ 32 → (∀ y ∈ (Reg.DPO_LINK_STATUS_DEGRADED p, 1) :: liveFields p rate lanes, y = (f, v) ∨ y.1.addr ≠ f.addr ∨
        f.lo + f.width ≤ y.1.lo ∨ y.1.lo + y.1.width ≤ f.lo) →
      (((s.setPort p r).linkUp p rate lanes).set (Reg.DPO_LINK_STATUS_DEGRADED p) 1).get f = v % 2 ^ f.width := by
    intro f v hm hf h32 hp
    refine hset.get_mem (by simpa [or_left_comm] using Or.inr hm) h32 fun y hy => ?_
    rcases List.mem_cons.1 hy with rfl | hy
    · exact hp _ List.mem_cons_self
    · rcases List.mem_append.1 hy with hy | hy
      · exact .inr (.inl (by rw [hf]; exact hne y hy))
      · exact hp y (List.mem_cons_of_mem _ hy)
  have hok := hget (f := Reg.DPO_LINK_STATUS_LINK_OK p) (v := 1) (by simp [liveFields]) rfl (Nat.le_of_ble_eq_true rfl) (by simp [liveFields])
  have hdegr := hget (f := Reg.DPO_LINK_STATUS_DEGRADED p) (v := 1) (by simp) rfl (Nat.le_of_ble_eq_true rfl) (by simp [liveFields])
  have hrate := hget (f := Reg.DPO_LINK_STATUS_LIVE_RATE p) (v := rate) (by simp [liveFields]) rfl (Nat.le_of_ble_eq_true rfl) (by simp [liveFields])
  have hlanes := hget (f := Reg.DPO_LINK_STATUS_LIVE_LANES p) (v := lanes) (by simp [liveFields]) rfl (Nat.le_of_ble_eq_true rfl) (by simp [liveFields])
  have hport := hset.port p
  rw [State.port_setPort_same] at hport
  have hscr : ∀ n, (((s.setPort p r).linkUp p rate lanes).set (Reg.DPO_LINK_STATUS_DEGRADED p) 1).scr n = s.scr n := fun n =>
    hset.proj (State.scr · n) fun _ _ => rfl
  have hrun : ∀ n < 8, (((s.setPort p r).linkUp p rate lanes).set (Reg.DPO_LINK_STATUS_DEGRADED p) 1).running n = s.running n := by
    intro n hn
    refine hset.bit_apart (f := Reg.SCREEN_STATUS_RUNNING n) (Nat.le_of_ble_eq_true rfl) fun y hy => .inl ?_
    have hy' : y.1.addr = Reg.DPO_LINK_CTRL p ∨ y.1.addr = Reg.DPO_LINK_STATUS p ∨ y.1.addr = Reg.FLT_IN_STATUS (96 + p) := by
      rcases List.mem_cons.1 hy with rfl | hy
      · exact .inr (.inl rfl)
      · rcases List.mem_append.1 hy with hy | hy
        · exact .inr (.inr (hl y hy))
        · exact (liveFields_addr p _ _ y hy).imp_right .inl
    rcases hy' with e | e | e <;> rw [e] <;>
      simp only [Reg.DPO_LINK_CTRL, Reg.DPO_LINK_STATUS, Reg.SCREEN_STATUS, Reg.FLT_IN_STATUS, reg] <;> omega
  have ht : t = (((s.setPort p r).linkUp p rate lanes).set (Reg.DPO_LINK_STATUS_DEGRADED p) 1).raiseFault (104 + p) := rfl
  generalize ((s.setPort p r).linkUp p rate lanes).set (Reg.DPO_LINK_STATUS_DEGRADED p) 1 = x at hok hdegr hrate hlanes hport hscr hrun ht
  have hfault := within_raiseFault x (screenFault_port hp).2.1
  have hlink := link_not_faultPlace hp
  have hrunOut : ∀ n < 8, ¬ faultPlace (Reg.SCREEN_STATUS n) := by
    intro n hn
    simp only [faultPlace, Reg.SCREEN_STATUS, reg]
    omega
  rw [ht]
  rw [hfault.bit hlink, hfault.bit hlink, hfault.get hlink, hfault.get hlink, port_of_faultless hfault, hport,
    bit_cause_raiseFault x (screenFault_port hp).2.1 (by omega), decide_eq_true rfl, Bool.true_or]
  refine ⟨(bit_eq_true rfl).2 hok, (bit_eq_true rfl).2 hdegr, hrate, hlanes, rfl, rfl, rfl, rfl, fun n => ?_, fun n hn => ?_⟩
  · have hun : ((x.raiseFault (104 + p)).scr n).unharmed = (x.scr n).unharmed :=
      congrFun (congrArg Prod.snd hfault.rest) n
    exact (congrArg ScreenState.halve hun).trans (by rw [hscr]; rfl)
  · exact (hfault.bit (hrunOut n hn)).trans (hrun n hn)

/-- R94, R95: the search of a degrade that keeps lanes `l`. -/
def State.degradeSearch (s : State) (p l : Nat) : State :=
  match s.lowestRate p ((s.screenOn p).map s.timing) l with
  | some c => if s.mayDegrade p c l then s.degraded p c l false else s.unusable p
  | none =>
    match s.screenOn p with
    | some n =>
      if s.bit (Reg.DPO_CTRL_HALVE_OK p) && decide (2 * (s.timing n).beats ≤ 16) then
        match s.lowestRate p (some { s.timing n with beats := 2 * (s.timing n).beats }) l with
        | some c => if s.mayDegrade p c l then (s.setScr n { s.scr n with halve := true }).degraded p c l true else s.unusable p
        | none => s.unusable p
      else s.unusable p
    | none => s.unusable p

theorem degradeDone_eq {p : Nat} (hd : (s.port p).degrading = true) (hw : (s.port p).why = .degrade) (lane0 lane1 : Bool) :
    s.degradeDone p lane0 lane1 =
      if lane0 then s.degradeSearch p (if lane0 && lane1 && s.get (Reg.DPO_LINK_STATUS_LIVE_LANES p) != 0 then 1 else 0) else s.unusable p := by
  have hkept : keptLanes lane0 lane1 (s.get (Reg.DPO_LINK_STATUS_LIVE_LANES p)) =
      if lane0 then some (if lane0 && lane1 && s.get (Reg.DPO_LINK_STATUS_LIVE_LANES p) != 0 then 1 else 0) else none := by
    unfold keptLanes
    cases lane0
    · rfl
    · cases (true && lane1 && s.get (Reg.DPO_LINK_STATUS_LIVE_LANES p) != 0) <;> rfl
  rw [State.degradeDone, hd, hw, hkept]
  cases lane0
  · rfl
  · rw [State.degradeSearch]
    cases s.screenOn p <;> rfl

section
variable {p l : Nat}

theorem degradeSearch_unusable (h : (s.lowestRate p ((s.screenOn p).map s.timing) l).any (fun c => !s.mayDegrade p c l) = true ∨
    (s.lowestRate p ((s.screenOn p).map s.timing) l = none ∧ s.bit (Reg.DPO_CTRL_HALVE_OK p) = false)) : s.degradeSearch p l = s.unusable p := by
  rw [State.degradeSearch]
  rcases h with h | ⟨hf, hh⟩
  · obtain ⟨c, hc, hm⟩ := (Option.any_eq_true _ _).1 h
    rw [hc]
    exact if_neg (by simpa using hm)
  · rw [hf, hh]
    cases s.screenOn p <;> rfl

theorem degradeSearch_found {c : Nat} (hc : s.lowestRate p ((s.screenOn p).map s.timing) l = some c) (hm : s.mayDegrade p c l = true) :
    s.degradeSearch p l = s.degraded p c l false := by
  rw [State.degradeSearch, hc]
  exact if_pos hm

section
variable {n : Nat} (hf : s.lowestRate p ((s.screenOn p).map s.timing) l = none) (hon : s.screenOn p = some n)
include hf hon

theorem degradeSearch_halved (hh : s.bit (Reg.DPO_CTRL_HALVE_OK p) = true) (hb : 2 * (s.timing n).beats ≤ 16) {c : Nat}
    (hc : s.lowestRate p (some { s.timing n with beats := 2 * (s.timing n).beats }) l = some c) (hm : s.mayDegrade p c l = true) :
    s.degradeSearch p l = (s.setScr n { s.scr n with halve := true }).degraded p c l true := by
  rw [State.degradeSearch, hf, hon]
  dsimp only
  rw [hh, decide_eq_true hb, Bool.and_self, if_pos rfl, hc]
  exact if_pos hm

theorem degradeSearch_notHalved (h : 16 < 2 * (s.timing n).beats ∨
    (s.lowestRate p (some { s.timing n with beats := 2 * (s.timing n).beats }) l).all (fun c => !s.mayDegrade p c l) = true) :
    s.degradeSearch p l = s.unusable p := by
  rw [State.degradeSearch, hf, hon]
  dsimp only
  rcases h with h | h
  · rw [decide_eq_false (by omega), Bool.and_false, if_neg Bool.false_ne_true]
  · split
    · cases hc : s.lowestRate p (some { s.timing n with beats := 2 * (s.timing n).beats }) l with
      | none => rfl
      | some c =>
        rw [hc] at h
        exact if_neg (by simpa using h)
    · rfl

end

end

end

/-- Settles O53: each command of a port's link, and the end of a degrade by where its search leads. -/
theorem portLinkTrainsDegradesAndRelinks : Obligations.PortLinkTrainsDegradesAndRelinks := by
  intro s p w v ok lane0 lane1 tps3 lost r raised training down ends up rate lanes fields has trained down0 live used bad next first keep tries pat may
    found halvable on t0 halved
  have hbad : (List.range (laneCount (s.get (Reg.DPO_LINK_STATUS_LIVE_LANES p)))).filter (bitOf lost.toNat) = bad := by
    refine List.filter_congr fun i _ => ?_
    rw [bitOf_testBit, BitVec.testBit_toNat]
  have hlink : ∀ {b : Bool}, down0 = b → s.bit (Reg.DPO_LINK_STATUS_LINK_OK p) = !b := by
    intro b hb
    rw [← hb]
    exact (Bool.not_not _).symm
  have hdid : ∀ {c : Instr} {t : State}, exec c s = .next t → t = s → Does c s s [] := fun he ht => ⟨_, he, by rw [ht]; exact setsOnly_refl s⟩
  have hhas : has = (s.bit (Reg.DPO_CTRL_EDP p) || dpRate (getBits v 0 3)) := by
    simp only [dpRate, ← Bool.or_assoc]
    rfl
  refine ⟨fun ha hk => ?_, fun hw => ⟨fun ht hd => ⟨_, rfl, trainDone_linked p.isLt hw ht (hlink hd)⟩, fun ht hf hn => ?_,
      fun ht hn hk => ⟨_, rfl, trainDone_fails hw ht hn hk⟩⟩,
    fun hw => ⟨fun ht hd => ⟨_, rfl, (trainDone_irq p.isLt hw).1 ht (hlink hd)⟩, fun ht => congrArg Host.Outcome.next ((trainDone_irq p.isLt hw).2 ht)⟩,
    fun hw => hdid rfl (trainDone_other hw),
    fun hh => ⟨hdid rfl (if_pos (by rw [hh]; rfl)), hdid rfl (if_pos (by rw [hh]; rfl))⟩,
    fun hh => ⟨fun hk hb => ⟨_, rfl, hpdIrq_reported p hh hk (hb.imp hlink fun h => hbad.trans h)⟩, fun hd hne hany => ?_, fun hd hany => ?_,
      setsOnly_unplug p hh, hdid rfl (if_pos hh)⟩,
    fun hh => ⟨fun h => ⟨_, congrArg Host.Outcome.next (replug_quiet p tps3 hh h), setsOnly_plugged s p.isLt tps3⟩,
      fun ha hw c hc => ⟨_, rfl, replug_relinks p tps3 hh ha hw hc⟩⟩,
    fun h => hdid rfl (if_pos ?_), fun hd hw h => ?_, fun hd hw h0 c hc hm => ?_, fun hd hw h0 hf hh hon => ?_⟩
  · obtain ⟨hactive, hlacks, htrains⟩ := dpTrain_does (v := v) p ha hk
    rw [hhas]
    exact ⟨hactive, hlacks, htrains⟩
  · obtain ⟨c, hc⟩ := Option.isSome_iff_exists.1 hn
    have hfirst : first = c := by rw [show first = next.getD (0, 0) from rfl, hc]; rfl
    rw [hfirst]
    exact ⟨_, rfl, trainDone_next hw ht hf hc⟩
  · refine ⟨_, congrArg Host.Outcome.next (hpdIrq_lost hh (hlink hd) hbad hne), ?_⟩
    rw [hany]
    exact setsOnly_retrain s p bad live.1 live.2
  · have hne : bad ≠ [] := by
      intro h
      rw [h] at hany
      cases hany
    obtain ⟨h1, h2, h3, h4, h5⟩ := degradeStart_leads s p.isLt
    refine ⟨_, congrArg Host.Outcome.next ((hpdIrq_lost hh (hlink hd) hbad hne).trans (if_pos hany)), h1, h2, h3, h4, fun hon hst => ?_⟩
    obtain ⟨n, hn⟩ := Option.ne_none_iff_exists'.1 hon
    have hon' : on = n := by rw [show on = (s.screenOn p).getD 0 from rfl, hn]; rfl
    rw [hon'] at hst ⊢
    exact h5 n hn hst
  · rcases h with h | h
    · rw [show (s.port p).degrading = false from h]
      rfl
    · rw [Bool.not_eq_true', Bool.and_eq_false_iff]
      exact .inr (beq_eq_false_iff_ne.2 h)
  · have he : s.degradeDone p lane0 lane1 = s.unusable p := by
      rw [degradeDone_eq hd hw]
      cases h0 : lane0 with
      | false => rfl
      | true =>
        subst h0
        rw [if_pos rfl]
        exact degradeSearch_unusable (h.resolve_left fun h => by cases h)
    obtain ⟨h1, h2, h3, h4⟩ := unusable_leads s p.isLt
    refine ⟨_, congrArg Host.Outcome.next he, h1, h2, h3, fun hon => ?_⟩
    obtain ⟨n, hn⟩ := Option.ne_none_iff_exists'.1 hon
    have hon' : on = n := by rw [show on = (s.screenOn p).getD 0 from rfl, hn]; rfl
    rw [hon']
    exact h4 n hn
  · have he : s.degradeDone p lane0 lane1 = s.degraded p c keep false := by
      rw [degradeDone_eq hd hw, if_pos h0]
      exact degradeSearch_found hc hm
    have hkeep : keep % 4 = keep := Nat.mod_eq_of_lt (by change (if _ then 1 else 0) < 4; split <;> omega)
    obtain ⟨h1, h2, h3, h4, h5, h6, h7, h8, -⟩ := degraded_leads s p.isLt c keep false
    exact ⟨_, congrArg Host.Outcome.next he, h1, h2, h3, h4.trans hkeep, h5, h6, h7, h8⟩
  · obtain ⟨n, hn⟩ := Option.ne_none_iff_exists'.1 hon
    have hon' : on = n := by rw [show on = (s.screenOn p).getD 0 from rfl, hn]; rfl
    have he : s.degradeDone p lane0 lane1 = s.degradeSearch p keep := (degradeDone_eq hd hw lane0 lane1).trans (if_pos h0)
    have hhalved : halved = s.lowestRate p (some { s.timing n with beats := 2 * (s.timing n).beats }) keep := by rw [← hon']
    rw [hhalved, hon', show t0 = s.timing n from congrArg s.timing hon']
    refine ⟨fun hb c hc hm => ?_, fun h => ?_⟩
    · obtain ⟨h1, h2, h3, -, h5, -, -, -, h9, h10⟩ := degraded_leads (s.setScr n { s.scr n with halve := true }) p.isLt c keep true
      refine ⟨_, congrArg Host.Outcome.next (he.trans (degradeSearch_halved hf hn hh hb hc hm)), h1, h2, h3, ?_, h5, h10 n (screenOn_lt hn)⟩
      rw [h9, scr_setScr, if_pos rfl]
    · obtain ⟨h1, -, -, h4⟩ := unusable_leads s p.isLt
      exact ⟨_, congrArg Host.Outcome.next (he.trans (degradeSearch_notHalved hf hn h)), h1, h4 n hn⟩

end Sys2Proof.Machine
end

section
/-! PROOF. O50, refuted: LINE is two bits narrower than V_ACTIVE. -/

namespace Sys2Proof.Machine

-- one proof after another: each thread of a proof takes its share of the check's memory
set_option Elab.async false

/-- Screen 0 waits for its start latch, with pipe 0 held and V_ACTIVE = 0x4000: the register has 16 bits for V_ACTIVE, and LINE has 14. -/
def tallStartState : State :=
  (({} : State).setScr 0 { starting := true, held := some 0 }).set (Reg.SCREEN_TIMING_V_V_ACTIVE 0) 0x4000

theorem exec_screenStartLatch (s : State) (n : Fin 8) : exec (.screenStartLatch n) s = .next ((s.startLatch n).inOrder s) := rfl

/-- The start latch leaves LINE = 0, the low 14 bits of V_ACTIVE. -/
theorem tallStart_line : (tallStartState.startLatch 0).get (Reg.SCREEN_STATUS_LINE 0) = 0 ∧ (tallStartState.timing 0).vActive = 0x4000 := by
  decide +kernel

/-- Refutes O50: the statement says that LINE is V_ACTIVE at a start latch. It speaks of every state, also of one whose V_ACTIVE, which
software may write, needs more than LINE's 14 bits: R72's range for it is checked at the start's write, not at its latch. -/
theorem not_screenStartsAndStops : ¬ Obligations.ScreenStartsAndStops := by
  intro h
  obtain ⟨-, -, hlatch, -⟩ := h tallStartState 0 0 .normal 0
  obtain ⟨t, hw, -, -, -, -, -, -, hline, -⟩ := hlatch (by decide +kernel) (by decide +kernel) (by decide +kernel) (by decide +kernel)
  have ht : t = (tallStartState.startLatch 0).inOrder tallStartState :=
    Host.Outcome.next.inj (hw.symm.trans (exec_screenStartLatch tallStartState 0))
  obtain ⟨hafter, hactive⟩ := tallStart_line
  rw [ht, State.inOrder_get] at hline
  exact absurd (hafter.symm.trans (hline.trans hactive)) (by decide)

end Sys2Proof.Machine
end

section
/-! SUPPORT. What the operations of a latch on layers and protected layers leave alone (R75, R122 to R132, R172 to R178). -/

namespace Sys2Proof.Machine

-- one proof after another: each thread of a proof takes its share of the check's memory
set_option Elab.async false

/-- What the operations of a latch leave of a state, until the latch takes an output commit: the sources in service, and which screens have
a table's bank to swap. -/
def State.latchRest (s : State) : List (Nat × Nat) × (Nat → Bool) := (s.ic.inService, fun k => (s.scr k).lutSwap)

theorem latchRest_setScr (s : State) (n : Nat) {r : ScreenState} (hr : r.lutSwap = (s.scr n).lutSwap) :
    (s.setScr n r).latchRest = s.latchRest := by
  refine Prod.ext rfl (funext fun k => ?_)
  change ((s.setScr n r).scr k).lutSwap = (s.scr k).lutSwap
  rw [scr_setScr]
  split
  · next e => rw [e, hr]
  · rfl

/-- A predicate of places that holds those of the units from the pipes' on. -/
def HoldsHigh (A : Nat → Prop) : Prop := ∀ a, 0x03000000 ≤ a → A a

theorem HoldsHigh.unit {A : Nat → Prop} (hA : HoldsHigh A) {u i o : Nat} (hu : 3 ≤ u) : A (reg u i o) :=
  hA _ (by simp only [reg]; omega)

theorem HoldsHigh.sources {A : Nat → Prop} (hA : HoldsHigh A) : HoldsSources A := fun _ _ => hA.unit (by decide)

namespace State.Within

section
variable {β : Type} {A : Nat → Prop} {q : State → β} {s t : State} (h : s.Within A q t) (hA : HoldsHigh A)
include h hA

theorem setHigh (f : Fld) (v : Nat) {u i o : Nat} (hf : f.addr = Machine.reg u i o := by rfl) (hu : 3 ≤ u := by decide) :
    s.Within A q (t.set f v) := h.set v (hf ▸ hA.unit hu)

theorem countHigh (f : Fld) {u i o : Nat} (hf : f.addr = Machine.reg u i o := by rfl) (hu : 3 ≤ u := by decide) :
    s.Within A q (t.count f) := h.count 1 (hf ▸ hA.unit hu)

theorem liveFell (k : Nat) : s.Within A q (t.liveFell k) := by
  unfold State.liveFell
  exact ite (fun _ => h.setHigh hA _ 1) fun _ => h

end

section
variable {A : Nat → Prop} {s t : State} (h : s.Within A State.latchRest t)
include h

theorem setScreen (n : Nat) {r : ScreenState} (hr : r.lutSwap = (t.scr n).lutSwap) : s.Within A State.latchRest (t.setScr n r) :=
  h.setScr (latchRest_setScr t.calm n hr)

theorem dropCauses (n : Nat) (p : RectCause → Bool) : s.Within A State.latchRest (t.dropCauses n p) := h.setScreen n rfl

theorem c2Release (n : Nat) : s.Within A State.latchRest (t.c2Release n) := by
  unfold State.c2Release
  exact ite (fun _ => h.setScreen n rfl) fun _ => h

theorem setLay (l : Nat) (r : LayerState) : s.Within A State.latchRest (t.setLay l r) := h.same

theorem setProt (n : Nat) (r : ProtState) : s.Within A State.latchRest (t.setProt n r) := h.same

theorem msixSend (f v : Nat) : s.Within A State.latchRest (t.msixSend f v) := by
  unfold State.msixSend
  exact ite (fun _ => h) fun _ => ite (fun _ => h.same) fun _ => h.same

end

section
variable {A : Nat → Prop} {s t : State} (h : s.Within A State.latchRest t) (hA : HoldsHigh A)
include h hA

/-! ### Layers -/

theorem sessIrq (n b : Nat) : s.Within A State.latchRest (t.sessIrq n b) := by
  have hset := h.setReg (a := Reg.SESS_IRQ_STATUS n) (t.reg (Reg.SESS_IRQ_STATUS n) ||| BitVec.ofNat 32 (2 ^ b)) (hA.unit (by decide))
  unfold State.sessIrq State.sessMessage
  exact ite (fun _ => ite (fun _ => hset) fun _ => hset.msixSend _ _) fun _ => hset

theorem layCommitIrq (l : Nat) : s.Within A State.latchRest (t.layCommitIrq l) := by
  unfold State.layCommitIrq
  split
  · exact h.sessIrq hA _ _
  · exact h

theorem layState (l st reason : Nat) : s.Within A State.latchRest (t.layState l st reason) := (h.setHigh hA _ st).setHigh hA _ reason

theorem layEvent (l : Nat) {flag : Fld} (hf : flag.addr = Reg.LAYER_STATUS l) : s.Within A State.latchRest (t.layEvent l flag) :=
  (h.setHigh hA flag 1 hf).countHigh hA _

theorem releaseScalers (l : Nat) : s.Within A State.latchRest (t.releaseScalers l) := by
  unfold State.releaseScalers State.when
  refine h.each _ fun k _ u hu => ite (fun _ => ?_) fun _ => hu
  have hload := hu.setHigh hA (Reg.SCL_STATUS_LOADING k) 0
  exact ite (fun _ => hload.setHigh hA _ _) fun _ => ((hload.setHigh hA _ 0).setHigh hA _ 0).setHigh hA _ 0

theorem layReject (l reason : Nat) : s.Within A State.latchRest (t.layReject l reason) :=
  (((h.setLay l _).layState hA l 3 reason).releaseScalers hA l).layCommitIrq hA l

theorem layRecheck (l : Nat) : s.Within A State.latchRest (t.layRecheck l) := by
  unfold State.layRecheck
  refine ite (fun _ => layEvent (setHigh (setHigh ?_ hA _ 0) hA _ 0) hA l rfl) fun _ => ?_
  all_goals exact ite (fun _ => ite (fun _ => h.layReject hA l 8) fun _ => ite (fun _ => h.layReject hA l 0xC) fun _ => h) fun _ => h

theorem layApply (l f : Nat) : s.Within A State.latchRest (t.layApply l f) := by
  have hcopy : s.Within A State.latchRest (t.copyShadows l) :=
    h.each _ fun i _ u hu => hu.setReg _ (hA _ (by simp only [Reg.LAYER_CTRL, Machine.reg]; omega))
  have haddr := (hcopy.each (List.range 3) (f := fun p u => u.set (Reg.LAYER_ACT_ADDR_ADDR l p) ((t.lay l).addrs.getD p 0 / 256))
    fun p _ u hu => hu.setHigh hA _ _).setHigh hA (Reg.LAYER_STATUS_ENABLED l) (b2n (t.bit (Reg.LAYER_CTRL_EN l)))
  unfold State.layApply
  refine layCommitIrq (setHigh (layState (releaseScalers (setLay ?_ l _) hA l) hA l 2 0) hA _ f) hA l
  exact ite (fun _ => haddr.each _ fun k _ u hu => hu.setHigh hA _ _) fun _ => haddr

theorem layTakeVin (l : Nat) : s.Within A State.latchRest (t.layTakeVin l).1 := by
  unfold State.layTakeVin
  dsimp only
  rw [apply_ite Prod.fst, apply_ite Prod.fst]
  exact ite (fun _ => h.setLay l _) fun _ => ite (fun _ => h) fun _ => (h.setLay l _).setHigh hA _ _

theorem layHeld (l : Nat) (held : Bool) : s.Within A State.latchRest (t.layHeld l held) :=
  ((h.setLay l _).setHigh hA _ _).setHigh hA _ _

theorem layLatch (l f : Nat) (start : Bool) : s.Within A State.latchRest (t.layLatch l f start).1 := by
  unfold State.layLatch
  have hcheck : s.Within A State.latchRest (if start then t.layRecheck l else t) := ite (fun _ => h.layRecheck hA l) fun _ => h
  generalize (if start then t.layRecheck l else t) = u at hcheck
  dsimp only
  exact ((layTakeVin (ite (fun _ => hcheck.layApply hA l f) fun _ => hcheck) hA l).setHigh hA _ _).layHeld hA l _

theorem latchLayers (n f : Nat) (start : Bool) : s.Within A State.latchRest (t.latchLayers n f start).1 := by
  unfold State.latchLayers
  suffices hfold : ∀ (ls : List Nat) (u : State) (b : Bool), s.Within A State.latchRest u → s.Within A State.latchRest (ls.foldl
      (fun p l => let (t, busy) := p.1.layLatch l f start; (t, p.2 && !busy)) (u, b)).1 from hfold _ t true h
  intro ls
  induction ls with
  | nil => exact fun u b hu => hu
  | cons l ls ih => exact fun u b hu => ih _ _ (hu.layLatch hA l f start)

/-! ### Protected layers -/

theorem protState (n st reason : Nat) : s.Within A State.latchRest (t.protState n st reason) :=
  ((h.setHigh hA _ st).setHigh hA _ reason).raiseIrq hA.sources _

theorem protReject (n reason : Nat) : s.Within A State.latchRest (t.protReject n reason) := (h.setProt n _).protState hA n 3 reason

theorem protApply (n f : Nat) : s.Within A State.latchRest (t.protApply n f) := by
  have hcopy := (h.each (List.range 36) (f := fun i t => t.setReg (Reg.PROT_CTRL n + 0x200 + 4 * i) (t.reg (Reg.PROT_CTRL n + 4 * i)))
    fun i _ u hu => hu.setReg _ (hA _ (by simp only [Reg.PROT_CTRL, Machine.reg]; omega))).setHigh hA (Reg.PROT_STATUS_ENABLED n)
      (b2n (t.bit (Reg.PROT_CTRL_EN n)))
  unfold State.protApply
  refine setHigh (protState (dropCauses (setProt ?_ n _) n _) hA n 2 0) hA _ f
  exact ite (fun _ => hcopy.setHigh hA _ 0) fun _ => hcopy

theorem protLatch (n f : Nat) (start : Bool) : s.Within A State.latchRest (t.protLatch n f start).1 := by
  unfold State.protLatch
  dsimp only
  rw [apply_ite Prod.fst]
  have hr : ∀ c : Bool, s.Within A State.latchRest (if c then t.protReject n 8 else t) := fun c => ite (fun _ => h.protReject hA n 8) fun _ => h
  exact ite (fun _ => (hr _).protApply hA n f) fun _ => hr _

theorem addCause (n : Nat) (c : RectCause) : s.Within A State.latchRest (t.addCause n c) := by
  unfold State.addCause
  exact ite (fun _ => h.setScreen n rfl) fun _ =>
    (h.setScreen n (r := { t.scr n with causes := (t.scr n).causes ++ [c] }) rfl).raiseIrq hA.sources _

end

end State.Within

end Sys2Proof.Machine
end

section
/-! SUPPORT. The stages of a latch: its clock, what it begins, and what it ends with (R72, R75, R79 to R82, R204). -/

namespace Sys2Proof.Machine

-- one proof after another: each thread of a proof takes its share of the check's memory
set_option Elab.async false

theorem State.setScr_setScr (s : State) (n : Nat) (q r : ScreenState) : (s.setScr n q).setScr n r = s.setScr n r := by
  simp [State.setScr, sput_sput]

theorem State.SetsOnly.scr {u t : State} {l : List (Fld × Nat)} (h : u.SetsOnly l t) (k : Nat) : t.scr k = u.scr k :=
  h.proj (State.scr · k) fun _ _ => rfl

theorem scr_of_screens {A : Nat → Prop} {s t : State} (h : s.Within A State.screens t) (k : Nat) : t.scr k = s.scr k :=
  congrArg (fun l => sget (fun _ => ({} : ScreenState)) l k) h.rest

/-! ### The latch clock -/

/-- The places of the units from the pipes' on. -/
def highPlace (a : Nat) : Prop := 0x03000000 ≤ a

theorem holdsHigh : HoldsHigh highPlace := fun _ h => h

theorem screen_not_high {n o : Nat} (hn : n < 256) (ho : o < 0x10000) : ¬ highPlace (reg 2 n o) := by
  simp only [highPlace, reg]
  omega

/-- What the latch clock leaves of a state. -/
def State.unclocked (s : State) : List (Nat × Nat) × List (Nat × ScreenState) := (s.ic.inService, s.screens)

/-- LINE and LATCH_DRUM at a latch. -/
def State.latchStamp (s : State) (n : Nat) : State :=
  let s := s.set (Reg.SCREEN_STATUS_LINE n) (s.get (Reg.SCREEN_TIMING_V_V_ACTIVE n))
  s.set (Reg.SCREEN_LATCH_DRUM_DRUM n) s.drumbeat

/-- The PWM restart of SYNC at a latch. -/
def State.pwmSync (s : State) (n : Nat) : State := if s.bit (Reg.DPO_BL_PWM_SYNC (s.portOf n)) then s.pwmStart (s.portOf n) else s

theorem latchClock_eq (s : State) (n : Nat) : s.latchClock n = ((s.latchStamp n).raiseIrq (9 + n)).pwmSync n := rfl

theorem within_pwmSync (s : State) (n : Nat) : s.Within (fun _ => False) State.unclocked (s.pwmSync n) := by
  unfold State.pwmSync State.pwmStart
  exact State.Within.ite (fun _ => (State.Within.refl _ _ s).same) fun _ => State.Within.refl _ _ s

section
variable (s : State) (n : Nat)

/-- What follows the stamp of a latch. -/
theorem within_latchClock : (s.latchStamp n).Within highPlace State.unclocked (s.latchClock n) :=
  ((State.Within.refl _ _ (s.latchStamp n)).raiseIrq holdsHigh.sources (9 + n)).trans ((within_pwmSync _ n).mono fun _ => False.elim)

theorem reg_latchStamp {a : Nat} (h : a ≠ Reg.SCREEN_STATUS n) (h' : a ≠ Reg.SCREEN_LATCH_DRUM n) : (s.latchStamp n).reg a = s.reg a := by
  rw [State.latchStamp, State.reg_set, if_neg h', State.reg_set, if_neg h]

theorem drumbeat_congr {s t : State} (hhi : t.reg Reg.DRUM_COUNT_HI = s.reg Reg.DRUM_COUNT_HI)
    (hlo : t.reg Reg.DRUM_COUNT_LO = s.reg Reg.DRUM_COUNT_LO) : t.drumbeat = s.drumbeat := by
  simp only [State.drumbeat, State.get, hhi, hlo]

/-- R72, R75: what a latch's clock shows in the screen's registers. -/
theorem latchClock_shows (hn : n < 8) :
    (s.latchClock n).get (Reg.SCREEN_LATCH_DRUM_DRUM n) = s.drumbeat % 2 ^ 32 ∧ (s.latchClock n).running n = s.running n ∧
      (s.latchClock n).frame n = s.frame n := by
  have h := within_latchClock s n
  have hout : ∀ o < 0x10000, ¬ highPlace (reg 2 n o) := fun o ho => screen_not_high (by omega) ho
  have hdrum : (s.set (Reg.SCREEN_STATUS_LINE n) (s.get (Reg.SCREEN_TIMING_V_V_ACTIVE n))).drumbeat = s.drumbeat :=
    drumbeat_congr ((State.reg_set _ _ _ _).trans (if_neg (by simp only [Reg.DRUM_COUNT_HI, Reg.SCREEN_STATUS, reg]; omega)))
      ((State.reg_set _ _ _ _).trans (if_neg (by simp only [Reg.DRUM_COUNT_LO, Reg.SCREEN_STATUS, reg]; omega)))
  refine ⟨?_, ?_, ?_⟩
  · rw [h.get (hout _ (by omega)), State.latchStamp, State.get_set_same _ _ _ (Nat.le_of_ble_eq_true rfl), hdrum]
  · rw [State.running, h.bit (hout _ (by omega)), State.latchStamp, State.bit,
      State.get_set_other _ _ _ _ (by simp only [Reg.SCREEN_STATUS, Reg.SCREEN_LATCH_DRUM, reg]; omega),
      State.get_set_apart _ _ _ _ (Nat.le_of_ble_eq_true rfl) (.inr (Nat.le_of_ble_eq_true rfl))]
    rfl
  · rw [State.frame, h.get (hout _ (by omega)), State.latchStamp,
      State.get_set_other _ _ _ _ (by simp only [Reg.SCREEN_FRAME, Reg.SCREEN_LATCH_DRUM, reg]; omega),
      State.get_set_other _ _ _ _ (by simp only [Reg.SCREEN_FRAME, Reg.SCREEN_STATUS, reg]; omega)]
    rfl

/-- The registers of the screens that a latch's clock leaves alone. -/
theorem reg_latchClock {a : Nat} (h : a ≠ Reg.SCREEN_STATUS n) (h' : a ≠ Reg.SCREEN_LATCH_DRUM n) (ha : a < 0x03000000) :
    (s.latchClock n).reg a = s.reg a :=
  ((within_latchClock s n).reg a (Nat.not_le_of_lt ha)).trans (reg_latchStamp s n h h')

/-- R75: the latch raises its source. -/
theorem latchClock_source (hn : n < 8) (hk : s.SourceFree (9 + n)) : (s.latchClock n).bit (Reg.IC_SRC_PENDING (9 + n)) = true := by
  rw [latchClock_eq, (within_pwmSync _ n).bit (not_false), raiseIrq_free (s := s.latchStamp n) (sourceUsed_low (by omega) (by omega)) hk]
  exact (bit_eq_true rfl).2 (State.get_set_same _ _ _ (Nat.le_of_ble_eq_true rfl))

theorem scr_latchClock (k : Nat) : (s.latchClock n).scr k = s.scr k :=
  congrArg (fun x : List (Nat × Nat) × List (Nat × ScreenState) => sget (fun _ => ({} : ScreenState)) x.2 k) (within_latchClock s n).rest

end

/-! ### What a latch applies -/

theorem latchRest_of_faultless {A : Nat → Prop} {s t : State} (h : s.Within A State.faultless t) : s.Within A State.latchRest t :=
  h.view fun x : State × (Nat → ScreenState) => (x.1.ic.inService, fun k => (x.2 k).lutSwap)

theorem latchRest_of_pipeless {A : Nat → Prop} {s t : State} (h : s.Within A State.pipeless t) : s.Within A State.latchRest t :=
  h.view fun x : State × (Nat → ScreenState) => (x.1.ic.inService, fun k => (x.2 k).lutSwap)

theorem faultPlace_high (a : Nat) (h : faultPlace a) : highPlace a := by
  simp only [faultPlace, highPlace] at h ⊢
  omega

namespace State.Within

variable {s t : State}

theorem raiseScreenFault {A : Nat → Prop} (h : s.Within A State.latchRest t) (hA : ∀ a, highPlace a → A a) {k : Nat} (hk : screenFault k) :
    s.Within A State.latchRest (t.raiseFault k) :=
  h.trans ((latchRest_of_faultless (within_raiseFault t hk)).mono fun a ha => hA a (faultPlace_high a ha))

section
variable (h : s.Within highPlace State.latchRest t)
include h

theorem frameEnds (n : Nat) (start : Bool) : s.Within highPlace State.latchRest (t.frameEnds n start) := by
  unfold State.frameEnds
  refine setScreen (dropCauses ?_ n _) n rfl
  exact ite (fun _ => h.countHigh holdsHigh _) fun _ => h

theorem protFresh {n : Nat} (hn : n < 8) (f : Nat) : s.Within highPlace State.latchRest (t.protFresh n f) := by
  have hk : screenFault (88 + n) := .inr (.inr (by omega))
  unfold State.protFresh
  dsimp only
  have hset := fun b => (h.dropCauses n (fun c => c.reason == 1)).setHigh holdsHigh (Reg.PROT_STATUS_STALE n) b
  refine ite (fun _ => raiseScreenFault ?_ (fun _ h => h) hk) fun _ => ite (fun _ => State.Within.liveFell ?_ holdsHigh _) fun _ => ?_
  all_goals exact ite (fun _ => (hset _).each _ fun k _ u hu => hu.addCause holdsHigh n _) fun _ => hset _

end

end State.Within

/-- The frame that ends, and what a latch samples. -/
def State.latchSample (s : State) (n : Nat) (start : Bool) : State :=
  let s := (s.frameEnds n start).c2Release n
  s.setScr n { s.scr n with freshLimit := s.get (Reg.SCREEN_PROT_CFG_FRESH_LIMIT n), strict := s.bit (Reg.SCREEN_PROT_CFG_STRICT n) }

/-- What a latch applies before the output commit, and whether it is quiet. -/
def State.latchBegin (s : State) (n f : Nat) (start : Bool) : State × Bool :=
  let (s, quietL) := (s.latchSample n start).latchLayers n f start
  let (s, applied) := s.protLatch n f start
  (s.protFresh n f, quietL && !applied)

/-- What a latch ends with. -/
def State.latchTail (s : State) (n f : Nat) (quiet : Bool) : State :=
  let s := s.lowerDecide n quiet
  let s := s.setScr n { s.scr n with hitNext := some (s.buildHit n f) }
  ((s.set (Reg.SCREEN_FRAME_FRAME n) f).latchClock n).qosUpdate

theorem within_latchSample (s : State) (n : Nat) (start : Bool) : s.Within highPlace State.latchRest (s.latchSample n start) :=
  (((State.Within.refl highPlace State.latchRest s).frameEnds n start).c2Release n).setScreen n rfl

theorem within_latchBegin (s : State) {n : Nat} (hn : n < 8) (f : Nat) (start : Bool) :
    s.Within highPlace State.latchRest (s.latchBegin n f start).1 :=
  (((within_latchSample s n start).latchLayers holdsHigh n f start).protLatch holdsHigh n f start).protFresh hn f

/-- R75: a latch at which no RETIME is carried out. -/
theorem screenLatch_eq (s : State) (n : Nat) {f : Nat} (hf : (s.frame n + 1) % 2 ^ 32 = f)
    (hst : (((s.latchBegin n f false).1.outLatch n f).pipeSwap n).get (Reg.SCREEN_RETIME_STATE n) ≠ 1) :
    s.screenLatch n false = (((s.latchBegin n f false).1.outLatch n f).pipeSwap n).latchTail n f (s.latchBegin n f false).2 := by
  rcases hl : (s.latchSample n false).latchLayers n f false with ⟨c, quietL⟩
  rcases hp : c.protLatch n f false with ⟨d, applied⟩
  have hb : s.latchBegin n f false = (d.protFresh n f, quietL && !applied) := by
    rw [State.latchBegin, hl]
    dsimp only
    rw [hp]
  rw [hb] at hst ⊢
  dsimp only at hst ⊢
  unfold State.screenLatch
  rw [hf]
  dsimp only
  unfold State.latchSample at hl
  dsimp only at hl
  rw [hl]
  dsimp only
  rw [hp]
  dsimp only
  rw [if_neg Bool.false_ne_true]
  rw [beq_eq_false_iff_ne.2 hst, Bool.false_and, Bool.false_and, Bool.false_and, if_neg Bool.false_ne_true, Bool.not_false, Bool.and_true]
  rfl

/-! ### Registers copied from one place to another -/

/-- Registers that hold none of the sources take copies one after another. -/
theorem setsOnly_copy {α : Type} {u : State} (dst src : α → Nat) (l : List α) : ∀ {t : State} {k : List (Fld × Nat)}, u.SetsOnly k t →
    (∀ x ∈ l, ∀ y ∈ l, src x ≠ dst y) → (l.map dst).Nodup →
    u.SetsOnly ((l.map fun x => (whole (dst x), (t.reg (src x)).toNat)) ++ k) (t.each l fun x t => t.setReg (dst x) (t.reg (src x))) := by
  induction l with
  | nil => exact fun h _ _ => h
  | cons x l ih =>
    intro t k h hs hd
    rw [List.map_cons, List.nodup_cons] at hd
    obtain ⟨hx, hd⟩ := hd
    have hne : ∀ y ∈ l, src y ≠ dst x := fun y hy => hs y (List.mem_cons_of_mem x hy) x List.mem_cons_self
    have hnext := ih (setsOnly_setReg h (dst x) (t.reg (src x)))
      (fun y hy z hz => hs y (List.mem_cons_of_mem x hy) z (List.mem_cons_of_mem x hz)) hd
    have hmap : (l.map fun y => (whole (dst y), ((t.setReg (dst x) (t.reg (src x))).reg (src y)).toNat)) =
        l.map fun y => (whole (dst y), (t.reg (src y)).toNat) :=
      List.map_congr_left fun y hy => by rw [State.reg_setReg, if_neg (hne y hy)]
    rw [hmap] at hnext
    refine setsOnly_front hnext fun p hp he => hx ?_
    obtain ⟨y, hy, rfl⟩ := List.mem_map.1 hp
    exact List.mem_map.2 ⟨y, hy, he⟩

/-- A whole register of a list none of whose other entries is of that register. -/
theorem State.SetsOnly.reg_mem {u t : State} {l : List (Fld × Nat)} (h : u.SetsOnly l t) {a : Nat} {v : Word}
    (hm : (Machine.whole a, v.toNat) ∈ l) (hp : ∀ p ∈ l, p = (Machine.whole a, v.toNat) ∨ p.1.addr ≠ a) : t.reg a = v := by
  have hget : t.get (Machine.whole a) = v.toNat % 2 ^ 32 := h.get_mem hm (Nat.le_refl 32) fun p hpl => (hp p hpl).imp_right .inl
  have hreg : t.get (Machine.whole a) = (t.reg a).toNat % 2 ^ 32 := by simp [State.get, getBits, Machine.whole]
  exact BitVec.eq_of_toNat_eq (by omega)

/-! ### The output commit (R159 to R161) -/

/-- The fields that an output commit sets at the latch of a frame. -/
def outFields (s : State) (n f : Nat) : List (Fld × Nat) :=
  [(Reg.SCREEN_OUT_FRAME_FRAME n, f), (Reg.SCREEN_OUT_STATUS_STATE n, 2), (Reg.SCREEN_OUT_STATUS_ACTIVE_BANK n,
      if (s.scr n).lutSwap then 1 - s.get (Reg.SCREEN_OUT_STATUS_ACTIVE_BANK n) else s.get (Reg.SCREEN_OUT_STATUS_ACTIVE_BANK n))] ++
    (List.range 8).map fun i => (whole (reg 2 n (0x180 + 4 * i)), (s.reg (reg 2 n (0x100 + 4 * i))).toNat)

theorem outLatch_none {s : State} {n : Nat} (h : s.get (Reg.SCREEN_OUT_STATUS_STATE n) ≠ 1) (f : Nat) : s.outLatch n f = s := by
  rw [State.outLatch, if_pos h]

theorem setsOnly_outLatch {s : State} {n : Nat} (h : s.get (Reg.SCREEN_OUT_STATUS_STATE n) = 1) (f : Nat) :
    (s.setScr n { s.scr n with lutSwap := false }).SetsOnly (outFields s n f) (s.outLatch n f) := by
  have hcopy := setsOnly_copy (fun i => reg 2 n (0x180 + 4 * i)) (fun i => reg 2 n (0x100 + 4 * i)) (List.range 8) (setsOnly_refl s)
    (fun i hi j hj => by
      have := List.mem_range.1 hi
      simp only [reg]
      omega)
    ((List.nodup_range).map fun i j hij => by
      simp only [reg] at hij
      omega)
  rw [List.append_nil] at hcopy
  rw [State.outLatch, if_neg (not_not.2 h)]
  dsimp only
  generalize hc : (s.each (List.range 8) fun i t => t.setReg (reg 2 n (0x180 + 4 * i)) (t.reg (reg 2 n (0x100 + 4 * i)))) = c at hcopy ⊢
  have hscr : c.scr n = s.scr n := hcopy.proj (State.scr · n) fun _ _ => rfl
  have hbank : c.get (Reg.SCREEN_OUT_STATUS_ACTIVE_BANK n) = s.get (Reg.SCREEN_OUT_STATUS_ACTIVE_BANK n) :=
    hcopy.get_apart (Nat.le_of_ble_eq_true rfl) fun p hp => .inl (by
      obtain ⟨i, -, rfl⟩ := List.mem_map.1 hp
      show reg 2 n (0x180 + 4 * i) ≠ reg 2 n 0x124
      simp only [reg]
      omega)
  have hset : s.SetsOnly ((Reg.SCREEN_OUT_STATUS_ACTIVE_BANK n, if (s.scr n).lutSwap then 1 - s.get (Reg.SCREEN_OUT_STATUS_ACTIVE_BANK n)
      else s.get (Reg.SCREEN_OUT_STATUS_ACTIVE_BANK n)) ::
        (List.range 8).map fun i => (whole (reg 2 n (0x180 + 4 * i)), (s.reg (reg 2 n (0x100 + 4 * i))).toNat)) (if (c.scr n).lutSwap then
        c.set (Reg.SCREEN_OUT_STATUS_ACTIVE_BANK n) (1 - c.get (Reg.SCREEN_OUT_STATUS_ACTIVE_BANK n)) else c) := by
    rw [hscr, hbank]
    split
    · exact setsOnly_set hcopy _ _
    · exact setsOnly_keep hcopy (hbank.trans (Nat.mod_eq_of_lt (State.get_lt _ _)).symm)
  have hnew := setsOnly_beside (f := fun x => x.setScr n { x.scr n with lutSwap := false }) (fun _ _ => rfl) hset
  exact setsOnly_set (setsOnly_set hnew (Reg.SCREEN_OUT_STATUS_STATE n) 2) (Reg.SCREEN_OUT_FRAME_FRAME n) f

/-! ### The change of pipe -/

/-- The places that a latch may write beside its screen's registers. -/
def latchPlace (a : Nat) : Prop := highPlace a ∨ (0x02000000 ≤ a ∧ a < 0x03000000 ∧ a % 0x10000 = 0x220)

theorem pipePlace_latch (a : Nat) (h : pipePlace a) : latchPlace a := by
  simp only [pipePlace, latchPlace, highPlace] at h ⊢
  omega

theorem screen_not_latch {n o : Nat} (hn : n < 256) (ho : o < 0x10000) (h : o ≠ 0x220) : ¬ latchPlace (reg 2 n o) := by
  simp only [latchPlace, highPlace, reg]
  omega

theorem drum_not_latch : ¬ latchPlace Reg.DRUM_COUNT_HI ∧ ¬ latchPlace Reg.DRUM_COUNT_LO := by
  simp only [latchPlace, highPlace, Reg.DRUM_COUNT_HI, Reg.DRUM_COUNT_LO, reg]
  omega

section
variable {s t : State} (h : s.Within latchPlace State.latchRest t)
include h

theorem State.Within.latchPipe {u : State} (hu : t.Within latchPlace State.pipeless u) : s.Within latchPlace State.latchRest u :=
  h.trans (latchRest_of_pipeless hu)

theorem State.Within.pipeSwap {n : Nat} (hn : n < 8) : s.Within latchPlace State.latchRest (t.pipeSwap n) := by
  have hhigh : HoldsHigh latchPlace := fun _ => .inl
  have hk : screenFault (64 + n) := .inr (.inl (by omega))
  unfold State.pipeSwap
  refine State.Within.ite (fun _ => h) fun _ => ?_
  have hother := h.each (t.scr n).exclude (f := fun p t => t.otherSuspect p) fun p _ u hu =>
    hu.latchPipe ((State.Within.refl _ _ u).otherSuspect pipePlace_latch p)
  dsimp only
  generalize (t.each (t.scr n).exclude fun p t => t.otherSuspect p) = o at hother
  have hnone := hother.setScreen n (r := { o.scr n with exclude := [] }) rfl
  generalize o.setScr n { o.scr n with exclude := [] } = e at hnone
  split
  · next p _ =>
    have htake := (hnone.latchPipe ((State.Within.refl _ _ e).pipeTake pipePlace_latch p n)).countHigh hhigh Reg.XBAR_SWAPS_COUNT
    generalize (e.pipeTake p n).count Reg.XBAR_SWAPS_COUNT = y at htake
    have hleave := htake.latchPipe ((State.Within.refl _ _ y).pipeLeave pipePlace_latch (t.pipeOf n))
    have hdone := hleave.setScreen n (r := { (y.pipeLeave (t.pipeOf n)).scr n with needPipe := false }) rfl
    exact State.Within.ite (fun _ => (State.Within.same hdone).liveFell hhigh _) fun _ => hdone
  · exact State.Within.ite (fun _ => hnone) fun _ => (State.Within.same hnone).raiseScreenFault (fun _ h => .inl h) hk

end

/-! ### The end of a latch -/

section
variable (x : State) (n f : Nat) (quiet : Bool)

/-- A latch's decision on refresh lowering, its hit map and its frame number. -/
def State.latchFrame : State :=
  let s := x.lowerDecide n quiet
  let s := s.setScr n { s.scr n with hitNext := some (s.buildHit n f) }
  s.set (Reg.SCREEN_FRAME_FRAME n) f

theorem latchTail_eq : x.latchTail n f quiet = ((x.latchFrame n f quiet).latchClock n).qosUpdate := rfl

theorem setsOnly_latchFrame : ∃ r v, r.hitNext.map (·.frame) = some f ∧
    (x.setScr n r).SetsOnly [(Reg.SCREEN_FRAME_FRAME n, f), (Reg.SCREEN_STATUS_LOWERED n, v)] (x.latchFrame n f quiet) := by
  obtain ⟨r, v, hlow⟩ : ∃ r v, x.lowerDecide n quiet = (x.setScr n r).set (Reg.SCREEN_STATUS_LOWERED n) v := ⟨_, _, rfl⟩
  refine ⟨{ r with hitNext := some ((x.lowerDecide n quiet).buildHit n f) }, v, rfl, ?_⟩
  have hset := setsOnly_beside (f := fun y => y.setScr n { y.scr n with hitNext := some ((x.lowerDecide n quiet).buildHit n f) })
    (fun _ _ => rfl) (setsOnly_set (setsOnly_refl (x.setScr n r)) (Reg.SCREEN_STATUS_LOWERED n) v)
  rw [← hlow, scr_setScr, if_pos rfl] at hset
  have hframe := setsOnly_set hset (Reg.SCREEN_FRAME_FRAME n) f
  rw [State.setScr_setScr] at hframe
  exact hframe

end

/-- An output commit sets registers of the output stage alone. -/
theorem reg_outLatch (s : State) (n f : Nat) {o : Nat} (ho : o < 0x10000) (hout : o ≠ 0x124 ∧ o ≠ 0x128 ∧ (o < 0x180 ∨ 0x1A0 ≤ o)) :
    (s.outLatch n f).reg (reg 2 n o) = s.reg (reg 2 n o) := by
  by_cases h1 : s.get (Reg.SCREEN_OUT_STATUS_STATE n) = 1
  · refine (setsOnly_outLatch h1 f).reg_apart fun p hp => ?_
    simp only [outFields, List.mem_append, List.mem_cons, List.not_mem_nil, or_false, List.mem_map, List.mem_range] at hp
    rcases hp with (rfl | rfl | rfl) | ⟨i, hi, rfl⟩ <;>
      simp only [whole, Reg.SCREEN_OUT_FRAME, Reg.SCREEN_OUT_STATUS, reg] <;> omega
  · rw [outLatch_none h1]

theorem drumbeat_outLatch (s : State) (n f : Nat) : (s.outLatch n f).drumbeat = s.drumbeat := by
  by_cases h1 : s.get (Reg.SCREEN_OUT_STATUS_STATE n) = 1
  · refine drumbeat_congr ?_ ?_ <;>
    · refine (setsOnly_outLatch h1 f).reg_apart fun p hp => ?_
      simp only [outFields, List.mem_append, List.mem_cons, List.not_mem_nil, or_false, List.mem_map, List.mem_range] at hp
      rcases hp with (rfl | rfl | rfl) | ⟨i, hi, rfl⟩ <;>
        simp only [whole, Reg.SCREEN_OUT_FRAME, Reg.SCREEN_OUT_STATUS, Reg.DRUM_COUNT_HI, Reg.DRUM_COUNT_LO, reg] <;> omega
  · rw [outLatch_none h1]

theorem sourceFree_outLatch {s : State} {k : Nat} (h : s.SourceFree k) (n f : Nat) : (s.outLatch n f).SourceFree k := by
  by_cases h1 : s.get (Reg.SCREEN_OUT_STATUS_STATE n) = 1
  · exact sourceFree_of_setsOnly (setsOnly_outLatch h1 f) h
  · rw [outLatch_none h1]
    exact h

theorem sourceFree_latchRest {A : Nat → Prop} {s t : State} (h : s.Within A State.latchRest t) {k : Nat} (hk : s.SourceFree k) : t.SourceFree k := by
  have hic : t.ic.inService = s.ic.inService := congrArg Prod.fst h.rest
  rwa [State.SourceFree, hic]

theorem lutSwap_latchRest {A : Nat → Prop} {s t : State} (h : s.Within A State.latchRest t) (k : Nat) :
    (t.scr k).lutSwap = (s.scr k).lutSwap := congrFun (congrArg Prod.snd h.rest) k

theorem drumbeat_latch {q : State → β} {s t : State} (h : s.Within latchPlace q t) : t.drumbeat = s.drumbeat :=
  drumbeat_congr (h.reg _ drum_not_latch.1) (h.reg _ drum_not_latch.2)

/-! ### A latch of a running screen (R75) -/

/-- What a latch applies, the output commit and the change of pipe included. -/
def State.latchApplied (s : State) (n f : Nat) : State := ((s.latchBegin n f false).1.outLatch n f).pipeSwap n

section
variable (s : State) {n : Nat} (hn : n < 8)
include hn

theorem within_pipeSwap (x : State) : x.Within latchPlace State.latchRest (x.pipeSwap n) := State.Within.pipeSwap (State.Within.refl _ _ x) hn

theorem within_latchBegin' (f : Nat) : s.Within latchPlace State.latchRest (s.latchBegin n f false).1 :=
  (within_latchBegin s hn f false).mono fun _ => .inl

/-- A register of the screen that is none of its output stage's is as it was after what a latch applies. -/
theorem reg_latchApplied (f : Nat) {o : Nat} (ho : o < 0x10000) (hw : o ≠ 0x220) (hout : o ≠ 0x124 ∧ o ≠ 0x128 ∧ (o < 0x180 ∨ 0x1A0 ≤ o)) :
    (s.latchApplied n f).reg (reg 2 n o) = s.reg (reg 2 n o) := by
  have hl : ¬ latchPlace (reg 2 n o) := screen_not_latch (by omega) ho hw
  rw [State.latchApplied, (within_pipeSwap hn _).reg _ hl, reg_outLatch _ n f ho hout, (within_latchBegin' s hn f).reg _ hl]

theorem drumbeat_latchApplied (f : Nat) : (s.latchApplied n f).drumbeat = s.drumbeat := by
  rw [State.latchApplied, drumbeat_latch (within_pipeSwap hn _), drumbeat_outLatch, drumbeat_latch (within_latchBegin' s hn f)]

theorem sourceFree_latchApplied (f : Nat) {k : Nat} (hk : s.SourceFree k) : (s.latchApplied n f).SourceFree k :=
  sourceFree_latchRest (within_pipeSwap hn _) (sourceFree_outLatch (sourceFree_latchRest (within_latchBegin' s hn f) hk) n f)

/-- R159 to R161: the registers of the output stage after an output commit is taken at a latch. -/
theorem latchApplied_output (f : Nat) (h1 : s.get (Reg.SCREEN_OUT_STATUS_STATE n) = 1) :
    (s.latchApplied n f).get (Reg.SCREEN_OUT_STATUS_STATE n) = 2 ∧ (s.latchApplied n f).get (Reg.SCREEN_OUT_FRAME_FRAME n) = f % 2 ^ 32 ∧
      (s.latchApplied n f).get (Reg.SCREEN_OUT_STATUS_ACTIVE_BANK n) =
        (if (s.scr n).lutSwap then 1 - s.get (Reg.SCREEN_OUT_STATUS_ACTIVE_BANK n) else s.get (Reg.SCREEN_OUT_STATUS_ACTIVE_BANK n)) ∧
      ∀ i < 8, (s.latchApplied n f).reg (reg 2 n (0x180 + 4 * i)) = s.reg (reg 2 n (0x100 + 4 * i)) := by
  have hl : ∀ {o : Nat}, o < 0x200 → ¬ latchPlace (reg 2 n o) := fun ho => screen_not_latch (by omega) (by omega) (by omega)
  have hbegin := within_latchBegin' s hn f
  have hswap := within_pipeSwap hn ((s.latchBegin n f false).1.outLatch n f)
  have h1' := (hbegin.get (f := Reg.SCREEN_OUT_STATUS_STATE n) (hl (by omega))).trans h1
  have hout := setsOnly_outLatch h1' f
  have hlut := lutSwap_latchRest hbegin n
  have hbank := hbegin.get (f := Reg.SCREEN_OUT_STATUS_ACTIVE_BANK n) (hl (by omega))
  have hregs : ∀ i < 8, (s.latchBegin n f false).1.reg (reg 2 n (0x100 + 4 * i)) = s.reg (reg 2 n (0x100 + 4 * i)) :=
    fun i hi => hbegin.reg _ (hl (by omega))
  rw [State.latchApplied, hswap.get (hl (by omega)), hswap.get (hl (by omega)), hswap.get (hl (by omega))]
  generalize (s.latchBegin n f false).1 = b at hout hlut hbank hregs hswap
  generalize b.outLatch n f = x at hout hswap
  rw [← hlut, ← hbank]
  refine ⟨?_, ?_, ?_, fun i hi => (hswap.reg _ (hl (by omega))).trans ((hout.reg_mem ?_ fun p hp => ?_).trans (hregs i hi))⟩
  · exact hout.get_mem (v := 2) (by simp [outFields]) (Nat.le_of_ble_eq_true rfl) (by simp [outFields, whole]; omega)
  · exact hout.get_mem (v := f) (by simp [outFields]) (Nat.le_of_ble_eq_true rfl) (by simp [outFields, whole]; omega)
  · have hlt : b.get (Reg.SCREEN_OUT_STATUS_ACTIVE_BANK n) < 2 := b.get_lt _
    refine (hout.get_mem (f := Reg.SCREEN_OUT_STATUS_ACTIVE_BANK n) (List.mem_append_left _ (List.mem_cons_of_mem _ (List.mem_cons_of_mem _
      List.mem_cons_self))) (Nat.le_of_ble_eq_true rfl) (by simp [outFields, whole]; omega)).trans (Nat.mod_eq_of_lt ?_)
    change _ < 2
    split <;> omega
  · exact List.mem_append_right _ (List.mem_map.2 ⟨i, List.mem_range.2 hi, rfl⟩)
  · rcases List.mem_append.1 hp with hp | hp
    · refine .inr ?_
      simp only [List.mem_cons, List.not_mem_nil, or_false] at hp
      rcases hp with rfl | rfl | rfl <;> simp only [Reg.SCREEN_OUT_FRAME, Reg.SCREEN_OUT_STATUS, reg] <;> omega
    · obtain ⟨j, -, rfl⟩ := List.mem_map.1 hp
      by_cases hij : j = i
      · exact .inl (by rw [hij])
      · refine .inr ?_
        simp only [whole, reg]
        omega

/-- R75: what a latch that carries out no RETIME leaves. -/
theorem screenLatch_leads (hst : s.get (Reg.SCREEN_RETIME_STATE n) ≠ 1) :
    let t := s.screenLatch n false
    let f := (s.frame n + 1) % 2 ^ 32
    (s.SourceFree (9 + n) → t.bit (Reg.IC_SRC_PENDING (9 + n)) = true) ∧
    t.running n = s.running n ∧ t.frame n = f ∧ t.get (Reg.SCREEN_LATCH_DRUM_DRUM n) = s.drumbeat % 2 ^ 32 ∧
      (t.scr n).hitNext.map (·.frame) = some f ∧
      ∀ o, o = 0x124 ∨ o = 0x128 ∨ (0x180 ≤ o ∧ o < 0x1A0) → t.reg (reg 2 n o) = (s.latchApplied n f).reg (reg 2 n o) := by
  intro t f
  have hmod : f % 2 ^ 32 = f := Nat.mod_mod _ _
  have happlied : (s.latchApplied n f).get (Reg.SCREEN_RETIME_STATE n) ≠ 1 := by
    rwa [State.get, reg_latchApplied s hn f (by omega) (by omega) (by omega)]
  have ht : t = (((s.latchApplied n f).latchFrame n f (s.latchBegin n f false).2).latchClock n).qosUpdate := screenLatch_eq s n rfl happlied
  clear_value f t
  have hrun : (s.latchApplied n f).running n = s.running n := by
    rw [State.running, State.bit, State.get, reg_latchApplied s hn f (by omega) (by omega) (by omega)]
    rfl
  have hdrum := drumbeat_latchApplied s hn f
  have hsrc : ∀ {k}, s.SourceFree k → (s.latchApplied n f).SourceFree k := sourceFree_latchApplied s hn f
  generalize s.latchApplied n f = x at ht hrun hdrum hsrc happlied
  generalize (s.latchBegin n f false).2 = quiet at ht
  obtain ⟨r, v, hhit, hset⟩ := setsOnly_latchFrame x n f quiet
  generalize x.latchFrame n f quiet = y at ht hset
  have hq : (y.latchClock n).Within (fun a => ∃ p < 12, a = Reg.QOS_CFG p) State.screens t :=
    ht ▸ State.Within.qosUpdate (State.Within.refl _ _ _) fun p hp => ⟨p, hp, rfl⟩
  have hout : ∀ {o : Nat}, o < 0x10000 → ¬ ∃ p < 12, reg 2 n o = Reg.QOS_CFG p := by
    rintro o ho ⟨p, -, he⟩
    simp only [Reg.QOS_CFG, reg] at he
    omega
  have hfields : ∀ z ∈ [(Reg.SCREEN_FRAME_FRAME n, f), (Reg.SCREEN_STATUS_LOWERED n, v)],
      z.1.addr = Reg.SCREEN_FRAME n ∨ (z.1.addr = Reg.SCREEN_STATUS n ∧ z.1.lo + z.1.width ≤ 16) := by simp
  obtain ⟨hstamp, hrunning, hframe⟩ := latchClock_shows y n hn
  refine ⟨fun hk => ?_, ?_, ?_, ?_, ?_, fun o ho => ?_⟩
  · rw [hq.bit (by rintro ⟨p, hp, he⟩; change reg 23 0 _ = reg 12 p 0 at he; simp only [reg] at he; omega)]
    exact latchClock_source y n hn (sourceFree_of_setsOnly hset (hsrc hk))
  · rw [State.running, hq.bit (hout (by omega)), ← hrun]
    refine hrunning.trans (hset.bit_apart (f := Reg.SCREEN_STATUS_RUNNING n) (Nat.le_of_ble_eq_true rfl) fun z hz => ?_)
    rcases hfields z hz with h | h
    · exact .inl (by rw [h]; simp only [Reg.SCREEN_FRAME, Reg.SCREEN_STATUS, reg]; omega)
    · exact .inr (.inr h.2)
  · rw [State.frame, hq.get (hout (by omega))]
    refine hframe.trans ((hset.get_mem (v := f) (by simp) (Nat.le_of_ble_eq_true rfl) ?_).trans hmod)
    simp only [List.forall_mem_cons, true_or, List.not_mem_nil, false_implies, implies_true, and_true, true_and]
    exact .inr (.inl (by simp only [Reg.SCREEN_FRAME, Reg.SCREEN_STATUS, reg]; omega))
  · rw [hq.get (hout (by omega)), hstamp, ← hdrum]
    refine congrArg (· % 2 ^ 32) (drumbeat_congr (hset.reg_apart fun z hz => ?_) (hset.reg_apart fun z hz => ?_)) <;>
      rcases hfields z hz with h | ⟨h, -⟩ <;>
      rw [h] <;> simp only [Reg.SCREEN_FRAME, Reg.SCREEN_STATUS, Reg.DRUM_COUNT_HI, Reg.DRUM_COUNT_LO, reg] <;> omega
  · have hscr : t.scr n = r := by
      rw [scr_of_screens hq, scr_latchClock, hset.scr, scr_setScr, if_pos rfl]
    exact (congrArg (fun r : ScreenState => r.hitNext.map (·.frame)) hscr).trans hhit
  · rw [hq.reg _ (hout (by omega)), reg_latchClock y n ?_ ?_ ?_]
    · refine hset.reg_apart fun z hz => ?_
      rcases hfields z hz with h | ⟨h, -⟩ <;> rw [h] <;> simp only [Reg.SCREEN_FRAME, Reg.SCREEN_STATUS, reg] <;> omega
    all_goals simp only [Reg.SCREEN_LATCH_DRUM, Reg.SCREEN_STATUS, reg]; omega

end

end Sys2Proof.Machine
end

section
/-! PROOF. O51: requests of refresh lowering, of a RETIME and of an output commit. -/

namespace Sys2Proof.Machine

-- one proof after another: each thread of a proof takes its share of the check's memory
set_option Elab.async false

section
variable {s : State} {w : World} {v : Word}

/-! ### Refresh lowering (R79) -/

theorem access_lower (n : Fin 8) : rowAccess (Reg.SCREEN_LOWER n) = some (0xFF0F01, 0, 0, 0) := by revert n; decide +kernel

theorem setsOnly_scrEvent {u t : State} {l : List (Fld × Nat)} (h : u.SetsOnly l t) (n : Fin 8) (hk : u.SourceFree (17 + n)) {flag : Fld}
    (hd : flag.lo + flag.width ≤ 24) :
    u.SetsOnly ((Reg.IC_SRC_PENDING (17 + n), 1) :: (Reg.SCREEN_STATUS_EVENTS n, t.more (Reg.SCREEN_STATUS_EVENTS n)) :: (flag, 1) :: l)
      (t.scrEvent n flag) :=
  setsOnly_event h (sourceUsed_low (by omega) (by omega)) hk (Nat.le_of_ble_eq_true rfl) (.inr hd)

theorem lowerEnable_does (n : Fin 8) (ha : s.Admits w 0x02 n false) :
    (s.lowerOk n (getBits v 8 4) = true → Does (.lowerEnable n w v) s s
      [(Reg.SCREEN_LOWER_QUIET n, getBits v 16 8), (Reg.SCREEN_LOWER_MULT n, getBits v 8 4), (Reg.SCREEN_LOWER_EN n, 1)]) ∧
    (s.lowerOk n (getBits v 8 4) = false → s.SourceFree (17 + n) → Does (.lowerEnable n w v) s s
      [(Reg.IC_SRC_PENDING (17 + n), 1), (Reg.SCREEN_STATUS_EVENTS n, s.more (Reg.SCREEN_STATUS_EVENTS n)), (Reg.SCREEN_STATUS_CFG_ERR n, 1)]) := by
  have he : exec (.lowerEnable n w v) s = .next (s.lowerWrite n (withBit v 0)) := congrArg _ (asWriter_admits ha _)
  have hmult : getBits (withBit v 0) 8 4 = getBits v 8 4 := getBits_withBit v (by omega) (by omega)
  rw [State.lowerWrite, bitOf_withBit_self v (by omega), hmult, Bool.true_and] at he
  refine ⟨fun hok => ⟨_, he, ?_⟩, fun hno hk => ⟨_, he, ?_⟩⟩
  · have h := setsOnly_open (s := s) (v := withBit v 0) (access_lower n) [(16, 8), (8, 4), (0, 1)] (by decide)
    simp only [fieldsOf, List.map_cons, List.map_nil, hmult, getBits_withBit_self v (i := 0) (by omega),
      getBits_withBit v (i := 0) (lo := 16) (n := 8) (by omega) (by omega)] at h
    rw [hok]
    exact h
  · rw [hno]
    exact setsOnly_scrEvent (setsOnly_refl s) n hk (Nat.le_of_ble_eq_true rfl)

/-! ### RETIME (R83, R84) -/

theorem access_retime (n : Fin 8) : rowAccess (Reg.SCREEN_RETIME n) = some (0, 0, 0x30000, 1) := by revert n; decide +kernel

/-- A bit that a 1 clears, as the product of what it was and of what is not written. -/
theorem keptBit_eq (x v : Word) (i : Nat) : getBits x i 1 * (1 - getBits v i 1) = getBits (x &&& ~~~v) i 1 := by
  rw [← clearedBit_eq]
  have hlt := getBits_lt v i 1
  split
  · next h => rw [h, Nat.sub_self, Nat.mul_zero]
  · next h => rw [show getBits v i 1 = 0 by omega, Nat.sub_zero, Nat.mul_one]

/-- The fields of RETIME that a write clears where its bits are 1. -/
def retimeCleared (s : State) (n : Nat) (v : Word) : List (Fld × Nat) :=
  [(Reg.SCREEN_RETIME_DONE n, s.get (Reg.SCREEN_RETIME_DONE n) * (1 - getBits v 16 1)),
    (Reg.SCREEN_RETIME_REFUSED n, s.get (Reg.SCREEN_RETIME_REFUSED n) * (1 - getBits v 17 1))]

theorem setsOnly_retimeCleared (n : Fin 8) :
    s.SetsOnly (retimeCleared s n v) (s.plainWrite (Reg.SCREEN_RETIME n) (withoutBit (withBit v 0) 0)) := by
  have hc : ∀ i < 32, (0x30000 : Word).getLsbD i = decide (i = 16 ∨ i = 17) := by decide
  have he : ∀ i < 32, (1 : Word).getLsbD i = decide (i = 0) := by decide
  have h0 : ∀ i, (0 : Word).getLsbD i = false := fun i => BitVec.getLsbD_zero
  refine setsOnly_access (access_retime n) (by simp [retimeCleared]) fun i hi => ?_
  rw [retimeCleared, State.get, State.get, keptBit_eq, keptBit_eq, hc i hi, he i hi, h0, getLsbD_withoutBit _ 0 hi, getLsbD_withBit v 0 hi]
  simp only [bitAfter_cons_getBits, bitAfter_nil, BitVec.getLsbD_and, BitVec.getLsbD_not, hi]
  grind

/-- A state that differs in RETIME of a screen alone. -/
theorem retime_apart {n : Nat} {l : List (Fld × Nat)} {x : State} (h : s.SetsOnly l x) (hl : ∀ p ∈ l, p.1.addr = Reg.SCREEN_RETIME n) {a : Nat}
    (ha : a ≠ Reg.SCREEN_RETIME n) : x.reg a = s.reg a := h.reg_apart fun p hp => by rw [hl p hp]; exact ha.symm

theorem timing_congr {x : State} {m : Nat} (h : ∀ o < 0x70, x.reg (reg 2 m o) = s.reg (reg 2 m o)) : x.timing m = s.timing m := by
  simp only [State.timing, State.get, h 0 (by omega), h 0x10 (by omega), h 0x14 (by omega), h 0x18 (by omega), h 0x1C (by omega), h 0x20 (by omega), h 0x24 (by omega)]

theorem rtTiming_congr {x : State} {m : Nat} (h : ∀ o < 0x70, x.reg (reg 2 m o) = s.reg (reg 2 m o)) : x.rtTiming m = s.rtTiming m := by
  simp only [State.rtTiming, State.get, h 0x68 (by omega), h 0x50 (by omega), h 0x54 (by omega), h 0x58 (by omega), h 0x5C (by omega), h 0x60 (by omega), h 0x64 (by omega)]

theorem pixClock_congr {x : State} (h : x.drum = s.drum) (t : Timing) : x.pixClock t = s.pixClock t := by
  rw [State.pixClock, State.pixClock, State.beatRate, State.beatRate, h]

section
variable {x : State} (hd : x.drum = s.drum)
include hd

theorem okClock_congr (t : Timing) : x.okClock t = s.okClock t := by rw [State.okClock, pixClock_congr hd]; rfl

theorem carries_congr (t : Timing) (rate lanes : Nat) : x.carries t rate lanes = s.carries t rate lanes := by
  rw [State.carries, pixClock_congr hd]; rfl

section
variable (ht : ∀ m, x.timing m = s.timing m) (hr : ∀ m, x.running m = s.running m)
include ht hr

theorem okTotal_congr (n : Nat) (t : Timing) : x.okTotal n t = s.okTotal n t := by
  simp only [State.okTotal, pixClock_congr hd, ht, hr]

theorem timingErr_congr (n : Nat) (t : Timing) (linkOk : Bool) (rate lanes : Nat) :
    x.timingErr n t linkOk rate lanes = s.timingErr n t linkOk rate lanes := by
  rw [State.timingErr, okClock_congr hd, carries_congr hd, okTotal_congr hd ht hr]; rfl

end

end

theorem retimeCleared_addr (n : Nat) : ∀ p ∈ retimeCleared s n v, p.1.addr = Reg.SCREEN_RETIME n ∧ 16 ≤ p.1.lo ∧ p.1.lo + p.1.width ≤ 18 := by
  simp [retimeCleared]

theorem exec_retimeRequest (n : Fin 8) (ha : s.Admits w 0x02 n false) :
    exec (.retimeRequest n w v) s = .next ((s.plainWrite (Reg.SCREEN_RETIME n) (withoutBit (withBit v 0) 0)).retimeGo n) := by
  have he : exec (.retimeRequest n w v) s = .next (s.retimeWrite n (withBit v 0)) := congrArg _ (asWriter_admits ha _)
  rw [he, State.retimeWrite, bitOf_withBit_self v (by omega)]
  rfl

/-- The code of the first check that the staging set of a RETIME fails. -/
def State.stagingErr (s : State) (n : Nat) : Option Nat :=
  s.timingErr n (s.rtTiming n) (s.bit (Reg.DPO_LINK_STATUS_LINK_OK (s.portOf n))) (s.get (Reg.SCREEN_RT_LINK_RATE n)) (s.get (Reg.SCREEN_RT_LINK_LANES n))

section
variable {x : State} {n : Fin 8} (h : s.SetsOnly (retimeCleared s n v) x)
include h

theorem cleared_screen (m : Nat) {o : Nat} (ho : o < 0x70) : x.reg (reg 2 m o) = s.reg (reg 2 m o) :=
  retime_apart h (fun p hp => (retimeCleared_addr n p hp).1) (by simp only [Reg.SCREEN_RETIME, reg]; omega)

theorem cleared_port (p : Nat) : x.reg (Reg.DPO_LINK_STATUS p) = s.reg (Reg.DPO_LINK_STATUS p) ∧ x.reg (Reg.DPO_CTRL p) = s.reg (Reg.DPO_CTRL p) := by
  constructor <;> refine retime_apart h (fun p hp => (retimeCleared_addr n p hp).1) ?_ <;>
    simp only [Reg.SCREEN_RETIME, Reg.DPO_LINK_STATUS, Reg.DPO_CTRL, reg] <;> omega

theorem cleared_running (m : Nat) : x.running m = s.running m := by
  rw [State.running, State.bit, State.get, cleared_screen h m (by omega)]; rfl

theorem cleared_portOf (m : Nat) : x.portOf m = s.portOf m := by
  rw [State.portOf, State.get, cleared_screen h m (by omega)]; rfl

theorem cleared_stagingErr : x.stagingErr n = s.stagingErr n := by
  have hreg := fun m o ho => cleared_screen h m (o := o) ho
  rw [State.stagingErr, timingErr_congr (h.proj State.drum fun _ _ => rfl) (fun m => timing_congr (hreg m)) (cleared_running h),
    rtTiming_congr (hreg n), cleared_portOf h, State.bit, State.get, (cleared_port h _).1, State.get, State.get, hreg n 0x68 (by omega)]
  rfl

theorem cleared_class : x.retimeClass n = s.retimeClass n := by
  have hreg := fun m o ho => cleared_screen h m (o := o) ho
  have hlink : ∀ f : Fld, f.addr = Reg.DPO_LINK_STATUS (s.portOf n) → x.get f = s.get f := fun f hf => by
    rw [State.get, State.get, hf, (cleared_port h _).1]
  have hset : ∀ f : Fld, f.addr = Reg.SCREEN_RT_LINK n → x.get f = s.get f := fun f hf => by rw [State.get, State.get, hf, hreg n 0x68 (by omega)]
  have hsync : x.bit (Reg.DPO_CTRL_ADAPTIVE_SYNC (s.portOf n)) = s.bit (Reg.DPO_CTRL_ADAPTIVE_SYNC (s.portOf n)) := by
    rw [State.bit, State.get, (cleared_port h _).2]; rfl
  unfold State.retimeClass
  dsimp only
  rw [cleared_portOf h, timing_congr (hreg n), rtTiming_congr (hreg n), hlink (Reg.DPO_LINK_STATUS_LIVE_RATE _) rfl,
    hlink (Reg.DPO_LINK_STATUS_LIVE_LANES _) rfl, hset (Reg.SCREEN_RT_LINK_RATE n) rfl, hset (Reg.SCREEN_RT_LINK_LANES n) rfl, hsync]

theorem cleared_state : x.get (Reg.SCREEN_RETIME_STATE n) = s.get (Reg.SCREEN_RETIME_STATE n) :=
  h.get_apart (Nat.le_of_ble_eq_true rfl) fun p hp => .inr (.inl (by
    have := (retimeCleared_addr n p hp).2.1
    change 3 ≤ _
    omega))

theorem setsOnly_retimeRefused (code : Nat) :
    s.SetsOnly (retimeRefusedFields s n code ++
        [(Reg.SCREEN_RETIME_DONE n, s.get (Reg.SCREEN_RETIME_DONE n) * (1 - getBits v 16 1))])
      (x.retimeRefuse n code) := by
  have hall := setsOnly_retimeRefuse h n code
  have hmore : x.more (Reg.SCREEN_RETIME_EVENTS n) = s.more (Reg.SCREEN_RETIME_EVENTS n) :=
    h.more_apart (Nat.le_of_ble_eq_true rfl) fun p hp => .inr (.inr (by
      have := (retimeCleared_addr n p hp).2.2
      change _ ≤ 24
      omega))
  rw [retimeRefusedFields, hmore] at hall
  exact setsOnly_withoutLast (l := retimeRefusedFields s n code ++ [_]) (y := 1) hall (by simp [retimeRefusedFields])

end

theorem retimeRequest_does (n : Fin 8) (ha : s.Admits w 0x02 n false) :
    let st := s.get (Reg.SCREEN_RETIME_STATE n)
    let p := s.portOf n
    let kept := s.get (Reg.SCREEN_RETIME_REFUSED n) * (1 - getBits v 17 1)
    let done := s.get (Reg.SCREEN_RETIME_DONE n) * (1 - getBits v 16 1)
    (st ≠ 0 → s.SourceFree (17 + n) → Does (.retimeRequest n w v) s s
      [(Reg.IC_SRC_PENDING (17 + n), 1), (Reg.SCREEN_STATUS_EVENTS n, s.more (Reg.SCREEN_STATUS_EVENTS n)), (Reg.SCREEN_STATUS_CFG_ERR n, 1),
       (Reg.SCREEN_STATUS_ERR_CODE n, 9), (Reg.SCREEN_RETIME_REFUSED n, kept), (Reg.SCREEN_RETIME_DONE n, done)]) ∧
    (∀ code, st = 0 → (s.running n = false ∧ code = 9) ∨ (s.running n = true ∧ (s.port p).degrading = true ∧ code = 0xC) ∨
        (s.running n = true ∧ (s.port p).degrading = false ∧ s.stagingErr n = some code) →
      Does (.retimeRequest n w v) s s (retimeRefusedFields s n code ++ [(Reg.SCREEN_RETIME_DONE n, done)])) ∧
    (st = 0 → s.running n = true → (s.port p).degrading = false → s.stagingErr n = none → s.bit (Reg.SCREEN_STATUS_LOWERED n) = false →
      Does (.retimeRequest n w v) s s [(Reg.SCREEN_RETIME_GO n, 1), (Reg.SCREEN_RETIME_STATE n, 1), (Reg.SCREEN_RETIME_CLASS n, s.retimeClass n),
        (Reg.SCREEN_RETIME_REFUSED n, kept), (Reg.SCREEN_RETIME_DONE n, done)]) := by
  intro st p kept done
  have he := exec_retimeRequest (v := v) n ha
  have h : s.SetsOnly (retimeCleared s n v) _ := setsOnly_retimeCleared n
  generalize s.plainWrite (Reg.SCREEN_RETIME n) (withoutBit (withBit v 0) 0) = x at he h
  have h' : s.SetsOnly [(Reg.SCREEN_RETIME_REFUSED n, kept), (Reg.SCREEN_RETIME_DONE n, done)] x := by
    exact setsOnly_last (f := Reg.SCREEN_RETIME_DONE n) h (by simp)
  have hst := cleared_state h
  have hrun := cleared_running h n
  have hport : x.port (x.portOf n) = s.port p := by rw [cleared_portOf h, h.port]
  have herr := cleared_stagingErr h
  have hgo : x.retimeGo n = if x.get (Reg.SCREEN_RETIME_STATE n) ≠ 0 then x.scrRefuse n 9
      else if !x.running n then x.retimeRefuse n 9
      else if (x.port (x.portOf n)).degrading then x.retimeRefuse n 0xC
      else match x.stagingErr n with
        | some code => x.retimeRefuse n code
        | none => (((x.set (Reg.SCREEN_RETIME_CLASS n) (x.retimeClass n)).set (Reg.SCREEN_RETIME_STATE n) 1).set (Reg.SCREEN_RETIME_GO n) 1).earlyEnd n none := rfl
  rw [hst, hrun, hport, herr] at hgo
  refine ⟨fun h0 hk => ⟨_, he, ?_⟩, fun code h0 hc => ⟨_, he, ?_⟩, fun h0 hr hd hno hlow => ⟨_, he, ?_⟩⟩
  · have hset := setsOnly_set h' (Reg.SCREEN_STATUS_ERR_CODE n) 9
    have hev := setsOnly_scrEvent hset n hk (flag := Reg.SCREEN_STATUS_CFG_ERR n) (Nat.le_of_ble_eq_true rfl)
    rw [hset.more_apart (Nat.le_of_ble_eq_true rfl)
      (by simp only [List.forall_mem_cons]; simp only [Reg.SCREEN_STATUS, Reg.SCREEN_RETIME, reg]; simp)] at hev
    rw [hgo, if_pos h0]
    exact hev
  · have hx : x.retimeGo n = x.retimeRefuse n code := by
      rw [hgo, if_neg (not_not.2 h0)]
      rcases hc with ⟨hr, rfl⟩ | ⟨hr, hd, rfl⟩ | ⟨hr, hd, hc⟩
      · rw [hr]; rfl
      · rw [hr, hd]; rfl
      · rw [hr, hd, hc]; rfl
    rw [hx]
    exact setsOnly_retimeRefused h code
  · have hset := setsOnly_set (setsOnly_set (setsOnly_set h' (Reg.SCREEN_RETIME_CLASS n) (x.retimeClass n)) (Reg.SCREEN_RETIME_STATE n) 1)
      (Reg.SCREEN_RETIME_GO n) 1
    have hlow' := hset.bit_apart (f := Reg.SCREEN_STATUS_LOWERED n) (Nat.le_of_ble_eq_true rfl)
      (by simp only [List.forall_mem_cons]; simp only [Reg.SCREEN_STATUS, Reg.SCREEN_RETIME, reg]; simp)
    rw [hgo, if_neg (not_not.2 h0), hr, hd, hno]
    dsimp only
    rw [State.earlyEnd, hlow', hlow]
    rw [cleared_class h] at hset ⊢
    simpa using hset

/-! ### Output commits and hit maps (R158 to R160, R205) -/

theorem outCommitGo_does (n : Fin 8) (ha : s.Admits w 0x02 n true) :
    (s.get (Reg.SCREEN_OUT_STATUS_STATE n) = 1 → Does (.outCommitGo n w v) s s
      [(Reg.SCREEN_OUT_STATUS_EVENTS n, s.more (Reg.SCREEN_OUT_STATUS_EVENTS n)), (Reg.SCREEN_OUT_STATUS_WRITE_WHILE_PENDING n, 1)]) ∧
    (s.get (Reg.SCREEN_OUT_STATUS_STATE n) ≠ 1 →
      Does (.outCommitGo n w v) s (s.setScr n { s.scr n with lutSwap := bitOf v.toNat 1 }) [(Reg.SCREEN_OUT_STATUS_STATE n, 1)]) := by
  have he : exec (.outCommitGo n w v) s = .next (s.outCommit n (withBit v 0)) := congrArg _ (asWriter_admits ha _)
  have hswap : bitOf (withBit v 0).toNat 1 = bitOf v.toNat 1 := by
    rw [bitOf_eq_getBits, bitOf_eq_getBits, getBits_withBit v (by omega) (by omega)]
  rw [State.outCommit, bitOf_withBit_self v (by omega), hswap] at he
  refine ⟨fun h => ⟨_, he, ?_⟩, fun h => ⟨_, he, ?_⟩⟩
  · have hset := setsOnly_set (setsOnly_refl s) (Reg.SCREEN_OUT_STATUS_WRITE_WHILE_PENDING n) 1
    have hmore := hset.more_apart (f := Reg.SCREEN_OUT_STATUS_EVENTS n) (Nat.le_of_ble_eq_true rfl) (by simp)
    have hcount := setsOnly_set hset (Reg.SCREEN_OUT_STATUS_EVENTS n) (State.more (s.set (Reg.SCREEN_OUT_STATUS_WRITE_WHILE_PENDING n) 1) (Reg.SCREEN_OUT_STATUS_EVENTS n))
    rw [hmore] at hcount
    rw [if_neg (by simp), if_pos h, State.count_eq]
    rw [← hmore] at hcount ⊢
    exact hcount
  · rw [if_neg (by simp), if_neg h]
    exact setsOnly_set (setsOnly_refl _) _ 1

theorem hitMapSwap_does (n : Fin 8) :
    ((s.scr n).hitNext = none → Does (.hitMapSwap n) s s []) ∧
    ∀ m ∈ (s.scr n).hitNext, Does (.hitMapSwap n) s (s.setScr n { s.scr n with hit := some m, hitNext := none }) [] := by
  have he : exec (.hitMapSwap n) s = .next (s.hitSwap n) := rfl
  refine ⟨fun h => ⟨_, he, ?_⟩, fun m hm => ⟨_, he, ?_⟩⟩
  · rw [State.hitSwap, h]
    exact setsOnly_refl s
  · rw [State.hitSwap, Option.mem_def.1 hm]
    exact setsOnly_refl _

/-! ### The end of a RETIME's link work (R86 to R88) -/

/-- The fields that a RETIME's completion sets, where the registers of timing hold those of the staging set. -/
def retimeDoneFields (s : State) (n : Nat) : List (Fld × Nat) :=
  [(Reg.SCREEN_STATUS_LOWERED n, 0), (Reg.SCREEN_RETIME_GO n, 0), (Reg.SCREEN_RETIME_STATE n, 0),
      (Reg.SCREEN_RETIME_EVENTS n, s.more (Reg.SCREEN_RETIME_EVENTS n)), (Reg.SCREEN_RETIME_DONE n, 1),
      (Reg.SCREEN_CTRL_BPC30 n, s.get (Reg.SCREEN_RT_LINK_BPC30 n))] ++
    [0x10, 0x14, 0x18, 0x1C, 0x20, 0x24].map fun o => (whole (reg 2 n o), (s.reg (reg 2 n (o + 0x40))).toNat)

theorem setsOnly_retimeDone (s : State) (n : Nat) :
    (s.setScr n { s.scr n with quiet := 0 }).SetsOnly (retimeDoneFields s n) (s.retimeDone n) := by
  have hcopy := setsOnly_copy (fun o => reg 2 n o) (fun o => reg 2 n (o + 0x40)) [0x10, 0x14, 0x18, 0x1C, 0x20, 0x24] (setsOnly_refl s)
    (by simp [reg]) (by simp [reg])
  rw [List.append_nil] at hcopy
  unfold State.retimeDone
  dsimp only
  generalize hc : (s.each [0x10, 0x14, 0x18, 0x1C, 0x20, 0x24] fun o t => t.setReg (reg 2 n o) (t.reg (reg 2 n (o + 0x40)))) = c at hcopy ⊢
  have hbpc : c.get (Reg.SCREEN_RT_LINK_BPC30 n) = s.get (Reg.SCREEN_RT_LINK_BPC30 n) :=
    hcopy.get_apart (Nat.le_of_ble_eq_true rfl) (by simp [whole, reg])
  have hdone := setsOnly_set (setsOnly_set hcopy (Reg.SCREEN_CTRL_BPC30 n) (s.get (Reg.SCREEN_RT_LINK_BPC30 n))) (Reg.SCREEN_RETIME_DONE n) 1
  have hmore := hdone.more_apart (f := Reg.SCREEN_RETIME_EVENTS n) (Nat.le_of_ble_eq_true rfl) (by simp [whole, reg])
  have hall := setsOnly_set (setsOnly_set (setsOnly_set (setsOnly_set hdone (Reg.SCREEN_RETIME_EVENTS n) (s.more (Reg.SCREEN_RETIME_EVENTS n)))
    (Reg.SCREEN_RETIME_STATE n) 0) (Reg.SCREEN_RETIME_GO n) 0) (Reg.SCREEN_STATUS_LOWERED n) 0
  have hscr := setsOnly_beside (f := fun x => x.setScr n { x.scr n with quiet := 0 }) (fun _ _ => rfl) hall
  rw [hbpc, State.count_eq]
  rw [← hmore] at hscr
  unfold retimeDoneFields
  rw [← hmore]
  exact hscr

theorem retimeComplete_seamless (n : Fin 8) (ok : Bool) (h2 : s.get (Reg.SCREEN_RETIME_STATE n) = 2) (h3 : s.get (Reg.SCREEN_RETIME_CLASS n) ≠ 3) :
    Does (.retimeComplete n ok) s (s.setScr n { s.scr n with gapDone := true, quiet := 0 }) (retimeDoneFields s n) := by
  refine ⟨s.retimeComplete n ok, rfl, ?_⟩
  have hdone := setsOnly_retimeDone (s.setScr n { s.scr n with gapDone := true }) n
  rw [State.setScr_setScr, scr_setScr, if_pos rfl] at hdone
  rw [State.retimeComplete, if_neg (by omega), beq_eq_false_iff_ne.2 h3]
  exact hdone

/-- A link comes up, whatever it was: its live configuration, beside the link's registers and the lasting condition. -/
theorem linkUp_live (x : State) {p : Nat} (hp : p < 8) (rate lanes : Nat) :
    (x.linkUp p rate lanes).get (Reg.DPO_LINK_STATUS_LINK_OK p) = 1 ∧ (x.linkUp p rate lanes).get (Reg.DPO_LINK_STATUS_LIVE_RATE p) = rate % 8 ∧
      (x.linkUp p rate lanes).get (Reg.DPO_LINK_STATUS_LIVE_LANES p) = lanes % 4 := by
  have hlive := setsOnly_linkLive (setsOnly_refl x) p rate lanes
  rw [List.append_nil] at hlive
  have hup : (x.linkLive p rate lanes).Within faultPlace State.screens (x.linkUp p rate lanes) := by
    rw [linkUp_eq]
    refine State.Within.ite (fun _ => State.Within.refl _ _ _) fun _ => ?_
    unfold State.liveFell
    exact State.Within.ite (fun _ => (State.Within.refl _ _ _).set 1 (.inl (by simp only [Reg.FLT_IN_STATUS, reg]; omega)))
      fun _ => State.Within.refl _ _ _
  have hout := link_not_faultPlace hp
  rw [hup.get hout, hup.get hout, hup.get hout]
  exact ⟨hlive.get_mem (v := 1) (by simp [liveFields]) (Nat.le_of_ble_eq_true rfl) (by simp [liveFields]),
    hlive.get_mem (v := rate) (by simp [liveFields]) (Nat.le_of_ble_eq_true rfl) (by simp [liveFields]),
    hlive.get_mem (v := lanes) (by simp [liveFields]) (Nat.le_of_ble_eq_true rfl) (by simp [liveFields])⟩

/-- The end of DEGRADED changes DEGRADED and the lasting condition of its input. -/
theorem clearDegraded_live (x : State) {p : Nat} (hp : p < 8) {f : Fld} (hf : f.addr = Reg.DPO_LINK_STATUS p) (hlo : f.lo + f.width ≤ 23) :
    (x.clearDegraded p).get f = x.get f := by
  have hset := setsOnly_clearDegraded (setsOnly_refl x) hp (by simp) (by simp)
  refine hset.get_apart (by omega) fun y hy => ?_
  rw [List.append_nil, clearedFields] at hy
  split at hy
  · rcases List.mem_cons.1 hy with rfl | hy
    · exact .inl (by rw [hf]; exact (link_ne_inStatus hp (.inr rfl)).symm)
    · rw [List.mem_singleton.1 hy]
      exact .inr (.inl hlo)
  · cases hy

theorem retimeDone_leads (x : State) {n p : Nat} (hn : n < 8) (r : ScreenState) :
    let t := (x.setScr n r).retimeDone n
    (t.scr n).gapDone = r.gapDone ∧ t.get (Reg.SCREEN_RETIME_STATE n) = 0 ∧ t.bit (Reg.SCREEN_RETIME_DONE n) = true ∧
      ∀ f : Fld, f.addr = Reg.DPO_LINK_STATUS p → t.get f = x.get f := by
  intro t
  have h : ((x.setScr n r).setScr n { (x.setScr n r).scr n with quiet := 0 }).SetsOnly (retimeDoneFields (x.setScr n r) n) t := setsOnly_retimeDone _ n
  have hscr := h.scr n
  rw [scr_setScr, if_pos rfl, scr_setScr, if_pos rfl] at hscr
  refine ⟨(congrArg ScreenState.gapDone hscr).trans rfl, ?_, ?_, fun f hf => ?_⟩
  · exact h.get_mem (v := 0) (by simp [retimeDoneFields]) (Nat.le_of_ble_eq_true rfl) (by simp [retimeDoneFields, whole, reg])
  · exact (bit_eq_true rfl).2 (h.get_mem (v := 1) (by simp [retimeDoneFields]) (Nat.le_of_ble_eq_true rfl) (by simp [retimeDoneFields, whole, reg]))
  · have hne : ∀ o < 0x10000, reg 2 n o ≠ f.addr := fun o ho => by
      rw [hf]
      simp only [Reg.DPO_LINK_STATUS, reg]
      omega
    have hreg : t.reg f.addr = x.reg f.addr := h.reg_apart fun y hy => by
      rcases List.mem_append.1 hy with hy | hy
      · simp only [List.mem_cons, List.not_mem_nil, or_false] at hy
        rcases hy with rfl | rfl | rfl | rfl | rfl | rfl <;> exact hne _ (by omega)
      · obtain ⟨o, ho, rfl⟩ := List.mem_map.1 hy
        refine hne _ ?_
        simp only [List.mem_cons, List.not_mem_nil, or_false] at ho
        omega
    rw [State.get, State.get, hreg]

theorem retimeRefuse_leads (x : State) {n p : Nat} (hn : n < 8) (r : ScreenState) (code : Nat) :
    let t := (x.setScr n r).retimeRefuse n code
    t.scr n = r ∧ t.get (Reg.SCREEN_RETIME_STATE n) = 0 ∧ t.bit (Reg.SCREEN_RETIME_REFUSED n) = true ∧
      t.get (Reg.SCREEN_STATUS_ERR_CODE n) = code % 16 ∧ ∀ f : Fld, f.addr = Reg.DPO_LINK_STATUS p → t.get f = x.get f := by
  intro t
  have h : (x.setScr n r).SetsOnly (retimeRefusedFields (x.setScr n r) n code ++ []) t := setsOnly_retimeRefuse (setsOnly_refl _) n code
  rw [List.append_nil] at h
  have hscr := h.scr n
  rw [scr_setScr, if_pos rfl] at hscr
  refine ⟨hscr, ?_, ?_, ?_, fun f hf => ?_⟩
  · exact h.get_mem (v := 0) (by simp [retimeRefusedFields]) (Nat.le_of_ble_eq_true rfl) (by simp [retimeRefusedFields])
  · exact (bit_eq_true rfl).2 (h.get_mem (v := 1) (by simp [retimeRefusedFields]) (Nat.le_of_ble_eq_true rfl) (by simp [retimeRefusedFields]))
  · exact h.get_mem (v := code) (by simp [retimeRefusedFields]) (Nat.le_of_ble_eq_true rfl) (by simp [retimeRefusedFields])
  · have hne : ∀ o < 0x10000, reg 2 n o ≠ f.addr := fun o ho => by
      rw [hf]
      simp only [Reg.DPO_LINK_STATUS, reg]
      omega
    have hreg : t.reg f.addr = x.reg f.addr := h.reg_apart fun y hy => by
      simp only [retimeRefusedFields, List.mem_cons, List.not_mem_nil, or_false] at hy
      rcases hy with rfl | rfl | rfl | rfl | rfl <;> exact hne _ (by omega)
    rw [State.get, State.get, hreg]

/-- The port's record as a retraining ends. -/
def State.retrainEnds (s : State) (p : Nat) : State := s.setPort p { s.port p with why := .none }

/-- R86: a retraining that ended well. -/
def State.retrained (s : State) (n p : Nat) : State :=
  let r := s.get (Reg.SCREEN_RT_LINK_RATE n)
  let l := laneCode (s.get (Reg.SCREEN_RT_LINK_LANES n))
  ((s.setPort p { s.port p with last := some (r, l), failed := [] }).linkUp p r l).clearDegraded p

/-- R88: the link at its old parameters. -/
def State.trainedBack (s : State) (p : Nat) : State :=
  s.linkUp p (s.get (Reg.DPO_LINK_STATUS_LIVE_RATE p)) (s.get (Reg.DPO_LINK_STATUS_LIVE_LANES p))

/-- The end of a RETIME's gap. -/
def State.gapEnds (s : State) (n : Nat) : State := s.setScr n { s.scr n with gapDone := true }

theorem laneCode_lt (s : State) (f : Fld) (hf : f.width = 2) : laneCode (s.get f) < 4 := by
  have h := s.get_lt f
  rw [hf] at h
  unfold laneCode
  split <;> omega

theorem retrained_live (y : State) (n : Nat) {p : Nat} (hp : p < 8) :
    (y.retrained n p).get (Reg.DPO_LINK_STATUS_LINK_OK p) = 1 ∧
      (y.retrained n p).get (Reg.DPO_LINK_STATUS_LIVE_RATE p) = y.get (Reg.SCREEN_RT_LINK_RATE n) ∧
      (y.retrained n p).get (Reg.DPO_LINK_STATUS_LIVE_LANES p) = laneCode (y.get (Reg.SCREEN_RT_LINK_LANES n)) := by
  unfold State.retrained
  dsimp only
  generalize y.setPort p _ = x
  obtain ⟨hok, hr, hl⟩ := linkUp_live x hp (y.get (Reg.SCREEN_RT_LINK_RATE n)) (laneCode (y.get (Reg.SCREEN_RT_LINK_LANES n)))
  generalize x.linkUp p _ _ = u at hok hr hl
  rw [clearDegraded_live u hp rfl (Nat.le_of_ble_eq_true rfl), clearDegraded_live u hp rfl (Nat.le_of_ble_eq_true rfl),
    clearDegraded_live u hp rfl (Nat.le_of_ble_eq_true rfl)]
  exact ⟨hok, hr.trans (Nat.mod_eq_of_lt (State.get_lt _ (Reg.SCREEN_RT_LINK_RATE n))),
    hl.trans (Nat.mod_eq_of_lt (laneCode_lt _ (Reg.SCREEN_RT_LINK_LANES n) rfl))⟩

theorem trainedBack_live (y : State) {p : Nat} (hp : p < 8) :
    (y.trainedBack p).get (Reg.DPO_LINK_STATUS_LINK_OK p) = 1 ∧
      (y.trainedBack p).get (Reg.DPO_LINK_STATUS_LIVE_RATE p) = y.get (Reg.DPO_LINK_STATUS_LIVE_RATE p) := by
  obtain ⟨hok, hr, -⟩ := linkUp_live y hp (y.get (Reg.DPO_LINK_STATUS_LIVE_RATE p)) (y.get (Reg.DPO_LINK_STATUS_LIVE_LANES p))
  exact ⟨hok, hr.trans (Nat.mod_eq_of_lt (State.get_lt _ (Reg.DPO_LINK_STATUS_LIVE_RATE p)))⟩

theorem retimeComplete_eq (s : State) (n : Nat) (ok : Bool) : s.retimeComplete n ok =
    if s.get (Reg.SCREEN_RETIME_STATE n) ≠ 2 then s
    else
      let train := s.get (Reg.SCREEN_RETIME_CLASS n) == 3
      let u := if !train then s else
        if ok then (s.retrainEnds (s.portOf n)).retrained n (s.portOf n) else (s.retrainEnds (s.portOf n)).trainedBack (s.portOf n)
      if train && !ok then (u.gapEnds n).retimeRefuse n 0xB else (u.gapEnds n).retimeDone n := rfl

/-- R86 to R88: the retraining of a RETIME ends. -/
theorem retimeComplete_trained (n : Fin 8) (ok : Bool) (h2 : s.get (Reg.SCREEN_RETIME_STATE n) = 2) (h3 : s.get (Reg.SCREEN_RETIME_CLASS n) = 3) :
    let p := s.portOf n
    let t := s.retimeComplete n ok
    (t.scr n).gapDone = true ∧ t.get (Reg.SCREEN_RETIME_STATE n) = 0 ∧ t.bit (Reg.DPO_LINK_STATUS_LINK_OK p) = true ∧
      if ok then t.bit (Reg.SCREEN_RETIME_DONE n) = true ∧
        t.get (Reg.DPO_LINK_STATUS_LIVE_LANES p) = laneCode (s.get (Reg.SCREEN_RT_LINK_LANES n)) ∧
        t.get (Reg.DPO_LINK_STATUS_LIVE_RATE p) = s.get (Reg.SCREEN_RT_LINK_RATE n)
       else t.bit (Reg.SCREEN_RETIME_REFUSED n) = true ∧ t.get (Reg.SCREEN_STATUS_ERR_CODE n) = 0xB ∧
        t.get (Reg.DPO_LINK_STATUS_LIVE_RATE p) = s.get (Reg.DPO_LINK_STATUS_LIVE_RATE p) := by
  intro p t
  have hp : p < 8 := State.get_lt s (Reg.SCREEN_CTRL_PORT n)
  have htrain : (s.get (Reg.SCREEN_RETIME_CLASS n) == 3) = true := beq_iff_eq.2 h3
  have ht : t = if ok then (((s.retrainEnds p).retrained n p).gapEnds n).retimeDone n
      else (((s.retrainEnds p).trainedBack p).gapEnds n).retimeRefuse n 0xB := by
    refine (retimeComplete_eq s n ok).trans ?_
    rw [if_neg (by omega), htrain]
    cases ok with
    | true => simp only [Bool.not_true, Bool.and_false, Bool.false_eq_true, if_false, if_true, p]
    | false => simp only [Bool.not_true, Bool.not_false, Bool.and_true, Bool.false_eq_true, if_false, if_true, p]
  have hget : ∀ f, (s.retrainEnds p).get f = s.get f := fun _ => rfl
  clear_value t
  generalize s.retrainEnds p = y at ht hget
  cases ok with
  | true =>
    rw [if_pos rfl] at ht ⊢
    obtain ⟨hok, hr, hl⟩ := retrained_live y n hp
    rw [hget] at hr hl
    generalize y.retrained n p = u at ht hok hr hl
    unfold State.gapEnds at ht
    obtain ⟨h1, h2, h3, h4⟩ := retimeDone_leads u (p := p) n.isLt { u.scr n with gapDone := true }
    rw [ht]
    exact ⟨h1, h2, (bit_eq_true rfl).2 ((h4 _ rfl).trans hok), h3, (h4 _ rfl).trans hl, (h4 _ rfl).trans hr⟩
  | false =>
    rw [if_neg Bool.false_ne_true] at ht ⊢
    obtain ⟨hok, hr⟩ := trainedBack_live y hp
    rw [hget] at hr
    generalize y.trainedBack p = u at ht hok hr
    unfold State.gapEnds at ht
    obtain ⟨h1, h2, h3, h4, h5⟩ := retimeRefuse_leads u (p := p) n.isLt { u.scr n with gapDone := true } 0xB
    rw [ht]
    exact ⟨congrArg ScreenState.gapDone h1, h2, (bit_eq_true rfl).2 ((h5 _ rfl).trans hok), h3, h4, (h5 _ rfl).trans hr⟩

end

end Sys2Proof.Machine
end

section
/-! PROOF. O51: the latches of a running screen. -/

namespace Sys2Proof.Machine

-- one proof after another: each thread of a proof takes its share of the check's memory
set_option Elab.async false

/-- R73: the record of a screen that has stopped. -/
theorem screenHalt_record (x : State) (n : Nat) : ((x.screenHalt n).scr n).stopping = false ∧ ((x.screenHalt n).scr n).sent = [] := by
  have hend := within_haltEnd ((((x.haltBegin n).haltPort n (x.portOf n)).haltRegs n).haltRecord n) n State.screens fun _ _ => rfl
  rw [screenHalt_eq, scr_of_screens hend]
  generalize ((x.haltBegin n).haltPort n (x.portOf n)).haltRegs n = y
  unfold State.haltRecord
  dsimp only
  generalize (y.c2Release n).quietStopped n = z
  generalize hr : (z.scr n).halted = r
  have hstop : r.stopping = false ∧ r.sent = [] := by
    rw [← hr]
    exact ⟨rfl, rfl⟩
  rw [State.dropCauses, scr_setScr, if_pos rfl, scr_setScr, if_pos rfl]
  exact hstop

section
variable (s : State) {n : Nat} (hn : n < 8)
include hn

/-- The frame that ends, and the latch's clock. -/
theorem endsAndClock_shows : let x := (s.frameEnds n false).latchClock n
    x.get (Reg.SCREEN_LATCH_DRUM_DRUM n) = s.drumbeat % 2 ^ 32 ∧ x.running n = s.running n ∧ x.frame n = s.frame n ∧ x.portOf n = s.portOf n := by
  intro x
  have hends := (State.Within.refl highPlace State.latchRest s).frameEnds n false
  have hlow : ∀ {a : Nat}, a < 0x03000000 → ¬ highPlace a := fun h => Nat.not_le_of_lt h
  have hscreen : ∀ o < 0x10000, ¬ highPlace (reg 2 n o) := fun o ho => screen_not_high (by omega) ho
  obtain ⟨hdrum, hrun, hframe⟩ := latchClock_shows (s.frameEnds n false) n hn
  refine ⟨hdrum.trans (congrArg (· % 2 ^ 32) (drumbeat_congr (hends.reg _ (hlow (by decide))) (hends.reg _ (hlow (by decide))))),
    hrun.trans (hends.bit (hscreen _ (by omega))), hframe.trans (hends.get (hscreen _ (by omega))), ?_⟩
  have hctrl := reg_latchClock (s.frameEnds n false) n (a := Reg.SCREEN_CTRL n)
    (by simp only [Reg.SCREEN_CTRL, Reg.SCREEN_STATUS, reg]; omega) (by simp only [Reg.SCREEN_CTRL, Reg.SCREEN_LATCH_DRUM, reg]; omega)
    (by simp only [Reg.SCREEN_CTRL, reg]; omega)
  rw [State.portOf, State.get, hctrl, hends.reg _ (hscreen _ (by omega))]
  rfl

/-! ### The stop latch (R73) -/

theorem screen_not_haltPlace {o : Nat} (ho : o < 0x10000) (h : o ≠ 0x220 ∧ o ≠ 0x30 ∧ o ≠ 0 ∧ o ≠ 0x70) : ¬ haltPlace n (reg 2 n o) := by
  simp only [haltPlace, pipePlace, Reg.SCREEN_STATUS, Reg.SCREEN_CTRL, Reg.SCREEN_RETIME, Reg.FLT_IN_STATUS, reg]
  omega

theorem stopLatch_leads : let t := ((s.frameEnds n false).latchClock n).screenHalt n
    t.running n = false ∧ t.bit (Reg.SCREEN_CTRL_RUN n) = false ∧ t.frame n = s.frame n ∧
      t.get (Reg.SCREEN_LATCH_DRUM_DRUM n) = s.drumbeat % 2 ^ 32 ∧ t.screenOn (s.portOf n) = none ∧ (t.scr n).stopping = false ∧
      (t.scr n).sent = [] ∧ s.SameBytes t := by
  intro t
  have hbytes : s.SameBytes t := screenHalt_keeps (keeps_sameBytes s) n (latchClock_keeps (keeps_sameBytes s) n
    (frameEnds_keeps (keeps_sameBytes s) n false (sameBytes_refl s)))
  have ht : t = ((s.frameEnds n false).latchClock n).screenHalt n := rfl
  clear_value t
  obtain ⟨hdrum, -, hframe, hport⟩ := endsAndClock_shows s hn
  generalize (s.frameEnds n false).latchClock n = x at ht hdrum hframe hport
  subst ht
  obtain ⟨hrun, hctrl⟩ := screenHalt_stopped x n hn
  obtain ⟨hstop, hsent⟩ := screenHalt_record x n
  have hhalt := within_screenHalt x n hn
  refine ⟨hrun, hctrl, (hhalt.get (screen_not_haltPlace hn (by omega) (by omega))).trans hframe,
    (hhalt.get (screen_not_haltPlace hn (by omega) (by omega))).trans hdrum, ?_, hstop, hsent, hbytes⟩
  rw [← hport]
  exact screenHalt_portFree x n

/-! ### The latch at which video stops (R84, R85) -/

omit hn in
theorem within_quietStopped : s.Within highPlace State.screens (s.quietStopped n) := by
  refine (State.Within.refl _ _ s).each _ fun k _ t ht => State.Within.ite (fun _ => ?_) fun _ => ht
  unfold State.scanDiscard
  exact State.Within.ite (fun _ => ht) fun _ => (State.Within.same ht).countHigh holdsHigh _

/-- What a latch does at which video stops for a RETIME. -/
def State.gapBegins (s : State) (n : Nat) : State :=
  let p := s.portOf n
  let s := s.watchVoid n
  let s := (s.frameEnds n false).latchClock n
  let s := s.set (Reg.SCREEN_STATUS_LOWERED n) 0
  let s := s.setScr n { s.scr n with gap := true, gapStop := false, gapDone := false, composed := [], tiles := [] }
  (s.setPort p { s.port p with video := false }).quietStopped n

/-- R84: a RETIME's gap; a RETRAIN trains the link. -/
def State.retimeGap (s : State) (n p : Nat) : State :=
  let s := s.set (Reg.SCREEN_RETIME_STATE n) 2
  if s.get (Reg.SCREEN_RETIME_CLASS n) = 3 then
    s.trainAt p .retime (s.get (Reg.SCREEN_RT_LINK_RATE n)) (laneCode (s.get (Reg.SCREEN_RT_LINK_LANES n)))
  else s

omit hn in
theorem latchGap_eq : s.latchGap n true = (s.gapBegins n).retimeGap n (s.portOf n) := rfl

theorem gapBegins_leads : let t := s.gapBegins n
    t.running n = s.running n ∧ t.frame n = s.frame n ∧ t.get (Reg.SCREEN_LATCH_DRUM_DRUM n) = s.drumbeat % 2 ^ 32 ∧
      (t.scr n).gap = true ∧ t.reg (Reg.SCREEN_RETIME n) = s.reg (Reg.SCREEN_RETIME n) := by
  intro t
  have hvoid := ((State.Within.refl _ _ s).watchVoid (fun _ h => h) hn).mono pipePlace_latch
  have hl : ∀ {o : Nat}, o < 0x220 → ¬ latchPlace (reg 2 n o) := fun ho => screen_not_latch (by omega) (by omega) (by omega)
  have ht : t = (s.gapBegins n) := rfl
  clear_value t
  unfold State.gapBegins at ht
  dsimp only at ht
  generalize s.watchVoid n = w at hvoid ht
  obtain ⟨hdrum, hrun, hframe, -⟩ := endsAndClock_shows w hn
  have hretime : ((w.frameEnds n false).latchClock n).reg (Reg.SCREEN_RETIME n) = w.reg (Reg.SCREEN_RETIME n) := by
    rw [reg_latchClock _ n (by simp only [Reg.SCREEN_RETIME, Reg.SCREEN_STATUS, reg]; omega)
      (by simp only [Reg.SCREEN_RETIME, Reg.SCREEN_LATCH_DRUM, reg]; omega) (by simp only [Reg.SCREEN_RETIME, reg]; omega)]
    exact ((State.Within.refl highPlace State.latchRest w).frameEnds n false).reg _ (screen_not_high (by omega) (by omega))
  generalize (w.frameEnds n false).latchClock n = x at ht hdrum hrun hframe hretime
  have hlow := setsOnly_set (setsOnly_refl x) (Reg.SCREEN_STATUS_LOWERED n) 0
  generalize x.set (Reg.SCREEN_STATUS_LOWERED n) 0 = y at ht hlow
  generalize hr : ({ y.scr n with gap := true, gapStop := false, gapDone := false, composed := [], tiles := [] } : ScreenState) = r at ht
  have hgap : r.gap = true := by rw [← hr]
  have hquiet := within_quietStopped (n := n) ((y.setScr n r).setPort (s.portOf n) { (y.setScr n r).port (s.portOf n) with video := false })
  rw [← ht] at hquiet
  have hreg : ∀ o < 0x10000, t.reg (reg 2 n o) = y.reg (reg 2 n o) := fun o ho => hquiet.reg _ (screen_not_high (by omega) ho)
  have hscr : t.scr n = r := by
    rw [scr_of_screens hquiet]
    exact (scr_setScr y n n r).trans (if_pos rfl)
  refine ⟨?_, ?_, ?_, by rw [hscr, hgap], ?_⟩
  · rw [State.running, State.bit, State.get, hreg _ (by omega)]
    exact (hlow.bit_apart (f := Reg.SCREEN_STATUS_RUNNING n) (Nat.le_of_ble_eq_true rfl) (by simp)).trans
      (hrun.trans (hvoid.bit (hl (by omega))))
  · rw [State.frame, State.get, hreg _ (by omega)]
    exact (hlow.get_apart (f := Reg.SCREEN_FRAME_FRAME n) (Nat.le_of_ble_eq_true rfl) (by simp)).trans
      (hframe.trans (hvoid.get (hl (by omega))))
  · rw [State.get, hreg _ (by omega)]
    refine (hlow.get_apart (f := Reg.SCREEN_LATCH_DRUM_DRUM n) (Nat.le_of_ble_eq_true rfl) (by simp)).trans
      (hdrum.trans (congrArg (· % 2 ^ 32) (drumbeat_latch hvoid)))
  · rw [hreg _ (by omega), hlow.reg_apart (by simp [reg]), hretime]
    exact hvoid.reg _ (hl (by omega))

theorem gapLatch_leads : let t := s.latchGap n true
    t.running n = s.running n ∧ t.frame n = s.frame n ∧ t.get (Reg.SCREEN_LATCH_DRUM_DRUM n) = s.drumbeat % 2 ^ 32 ∧
      (t.scr n).gap = true ∧ t.get (Reg.SCREEN_RETIME_STATE n) = 2 ∧ (s.get (Reg.SCREEN_RETIME_CLASS n) = 3 →
        t.bit (Reg.DPO_LINK_STATUS_TRAINING (s.portOf n)) = true ∧ t.bit (Reg.DPO_LINK_STATUS_LINK_OK (s.portOf n)) = false) := by
  intro t
  have hp : s.portOf n < 8 := State.get_lt s (Reg.SCREEN_CTRL_PORT n)
  obtain ⟨hrun, hframe, hdrum, hgap, hretime⟩ := gapBegins_leads s hn
  have ht : t = (s.gapBegins n).retimeGap n (s.portOf n) := latchGap_eq s
  clear_value t
  generalize s.gapBegins n = g at ht hrun hframe hdrum hgap hretime
  generalize s.portOf n = p at ht hp ⊢
  have hclass : (g.set (Reg.SCREEN_RETIME_STATE n) 2).get (Reg.SCREEN_RETIME_CLASS n) = s.get (Reg.SCREEN_RETIME_CLASS n) := by
    rw [State.get_set_apart _ _ _ _ (Nat.le_of_ble_eq_true rfl) (.inr (Nat.le_of_ble_eq_true rfl)), State.get, hretime]
    rfl
  have hset := setsOnly_set (setsOnly_refl g) (Reg.SCREEN_RETIME_STATE n) 2
  rw [State.retimeGap, hclass] at ht
  -- either way the link's registers alone are set besides
  obtain ⟨u, l, hall, hu, hl, htrain⟩ : ∃ (u : State) (l : List (Fld × Nat)), u.SetsOnly (l ++ [(Reg.SCREEN_RETIME_STATE n, 2)]) t ∧
      ((∀ a, u.reg a = g.reg a) ∧ u.scr n = g.scr n) ∧ (∀ y ∈ l, y.1.addr = Reg.DPO_LINK_CTRL p ∨ y.1.addr = Reg.DPO_LINK_STATUS p) ∧
      (s.get (Reg.SCREEN_RETIME_CLASS n) = 3 → l = trainingFields p) := by
    rw [ht]
    split
    · exact ⟨_, _, setsOnly_trainAt hset p _ _ _, ⟨fun _ => rfl, rfl⟩, fun y hy => linkFields_addr p y (List.mem_append_right _ hy), fun _ => rfl⟩
    · next h => exact ⟨g, [], hset, ⟨fun _ => rfl, rfl⟩, by simp, fun h3 => absurd h3 h⟩
  obtain ⟨hureg, huscr⟩ := hu
  have hne : ∀ o < 0x10000, ∀ y ∈ l, y.1.addr ≠ reg 2 n o := by
    intro o ho y hy
    rcases hl y hy with h | h <;> rw [h] <;> simp only [Reg.DPO_LINK_CTRL, Reg.DPO_LINK_STATUS, reg] <;> omega
  have hkept : ∀ o < 0x10000, o ≠ 0x70 → t.reg (reg 2 n o) = g.reg (reg 2 n o) := by
    intro o ho h70
    refine (hall.reg_apart fun y hy => ?_).trans (hureg _)
    rcases List.mem_append.1 hy with hy | hy
    · exact hne o ho y hy
    · rw [List.mem_singleton.1 hy]
      simp only [Reg.SCREEN_RETIME, reg]
      omega
  refine ⟨?_, ?_, ?_, by rw [hall.scr, huscr, hgap], ?_, fun h3 => ?_⟩
  · rw [← hrun, State.running, State.bit, State.get, hkept _ (by omega) (by omega)]
    rfl
  · rw [← hframe, State.frame, State.get, hkept _ (by omega) (by omega)]
    rfl
  · rw [← hdrum, State.get, hkept _ (by omega) (by omega)]
    rfl
  · refine hall.get_mem (f := Reg.SCREEN_RETIME_STATE n) (v := 2) (by simp) (Nat.le_of_ble_eq_true rfl) fun y hy => ?_
    rcases List.mem_append.1 hy with hy | hy
    · exact .inr (.inl (hne _ (by omega) y hy))
    · exact .inl (List.mem_singleton.1 hy)
  · rw [htrain h3] at hall
    have hout : Reg.SCREEN_RETIME n ≠ Reg.DPO_LINK_STATUS p := by
      simp only [Reg.SCREEN_RETIME, Reg.DPO_LINK_STATUS, reg]
      omega
    have hon := hall.get_mem (f := Reg.DPO_LINK_STATUS_TRAINING p) (v := 1) (by simp [trainingFields]) (Nat.le_of_ble_eq_true rfl)
      (by simpa [trainingFields] using hout)
    have hok := hall.get_mem (f := Reg.DPO_LINK_STATUS_LINK_OK p) (v := 0) (by simp [trainingFields]) (Nat.le_of_ble_eq_true rfl)
      (by simp [trainingFields])
    exact ⟨(bit_eq_true rfl).2 hon, bit_eq_false.2 hok⟩

end

/-! ### Which latch it is -/

section
variable {s : State} {n : Nat}

theorem latch_idle (h : s.running n = false ∨ (s.scr n).gap = true) : s.latch n = s := by
  rw [State.latch, if_pos (by rcases h with h | h <;> simp [h])]

section
variable (hrun : s.running n = true) (hgap : (s.scr n).gap = false)
include hrun hgap

theorem latch_stop (hstop : (s.scr n).stopping = true) : s.latch n = ((s.frameEnds n false).latchClock n).screenHalt n := by
  rw [State.latch, if_neg (by simp [hrun, hgap]), if_pos hstop]

theorem latch_retime (hstop : (s.scr n).stopping = false) (h1 : s.get (Reg.SCREEN_RETIME_STATE n) = 1)
    (hc : s.get (Reg.SCREEN_RETIME_CLASS n) ≠ 1) : s.latch n = s.latchGap n true := by
  rw [State.latch, if_neg (by simp [hrun, hgap]), if_neg (by simp [hstop]), if_pos ⟨h1, hc⟩]

theorem latch_ordinary (hstop : (s.scr n).stopping = false) (h1 : s.get (Reg.SCREEN_RETIME_STATE n) ≠ 1) (hh : (s.scr n).halve = false) :
    s.latch n = s.screenLatch n false := by
  rw [State.latch, if_neg (by simp [hrun, hgap]), if_neg (by simp [hstop]), if_neg (fun h => h1 h.1), if_neg (by simp [hh])]

end

end

/-- Settles O51: each latch by which of its kinds it is, and each request by the laws above. -/
theorem latchTakesWhatIsDue : Obligations.LatchTakesWhatIsDue := by
  intro s n w v ok r st cls clocked p kept done retimeErr refused
  have hexec : ∀ {x : State}, s.latch n = x → exec (.latch n) s = .next (x.inOrder s) := fun hx => by rw [exec_latch, hx]
  refine ⟨fun h => ⟨_, hexec (latch_idle h), ?_⟩, fun hrun hgap hstop => ?_, fun hrun hgap hstop h1 hc => ?_, fun hrun hgap hstop h1 hh => ?_,
    fun ha => ?_, fun h => ⟨_, rfl, ?_⟩, fun h2 h3 => retimeComplete_seamless n ok h2 h3, fun h2 h3 => ?_, fun ha => outCommitGo_does n ha,
    hitMapSwap_does n⟩
  · rw [State.inOrder_eq (by simp)]
    exact setsOnly_refl s
  · have hlead := stopLatch_leads s n.isLt
    rw [← latch_stop hrun hgap hstop] at hlead
    obtain ⟨h1, h2, h3, h4, h5, h6, h7, h8⟩ := hlead
    exact ⟨_, exec_latch s n, h1, h2, h3, h4, h5, h6, h7, h8⟩
  · have hlead := gapLatch_leads s n.isLt
    rw [← latch_retime hrun hgap hstop h1 hc] at hlead
    obtain ⟨h1, h2, h3, h4, h5, h6⟩ := hlead
    exact ⟨_, exec_latch s n, h1.trans hrun, h2, h3, h4, h5, h6⟩
  · have hlead := screenLatch_leads s n.isLt h1
    rw [← latch_ordinary hrun hgap hstop h1 hh] at hlead
    obtain ⟨hsource, hrunning, hframe, hdrum, hhit, hout⟩ := hlead
    refine ⟨fun hk => ⟨_, exec_latch s n, hsource hk⟩, _, exec_latch s n, hrunning.trans hrun, hframe, hdrum, hhit, fun hcommit => ?_⟩
    obtain ⟨hstate, hnumber, hbank, hregs⟩ := latchApplied_output s n.isLt ((s.frame n + 1) % 2 ^ 32) hcommit
    have hget : ∀ f : Fld, f.addr = Reg.SCREEN_OUT_STATUS n ∨ f.addr = Reg.SCREEN_OUT_FRAME n →
        (s.latch n).get f = (s.latchApplied n ((s.frame n + 1) % 2 ^ 32)).get f := by
      intro f hf
      rcases hf with hf | hf <;> rw [State.get, State.get, hf]
      · rw [hout 0x124 (.inl rfl)]
      · rw [hout 0x128 (.inr (.inl rfl))]
    refine ⟨(hget _ (.inl rfl)).trans hstate, (hget _ (.inr rfl)).trans (hnumber.trans (Nat.mod_mod _ _)), (hget _ (.inl rfl)).trans hbank, fun i hi => ?_⟩
    have haddr : Reg.SCREEN_OUT_CTRL n + 0x80 + 4 * i = reg 2 n (0x180 + 4 * i) ∧ Reg.SCREEN_OUT_CTRL n + 4 * i = reg 2 n (0x100 + 4 * i) := by
      simp only [Reg.SCREEN_OUT_CTRL, reg]
      omega
    rw [haddr.1, haddr.2]
    exact (hout _ (by omega)).trans (hregs i hi)
  · obtain ⟨hlower, hlower'⟩ := lowerEnable_does (v := v) n ha
    obtain ⟨hbusy, hrefused, haccepted⟩ := retimeRequest_does (v := v) n ha
    exact ⟨hlower, hlower', hbusy, fun h0 hrun => hrefused 9 h0 (.inl ⟨hrun, rfl⟩), fun h0 hrun hd => hrefused 0xC h0 (.inr (.inl ⟨hrun, hd, rfl⟩)),
      fun h0 hrun hd => ⟨fun c hc => hrefused c h0 (.inr (.inr ⟨hrun, hd, hc⟩)), haccepted h0 hrun hd⟩⟩
  · rw [State.retimeComplete, if_pos h]
    exact setsOnly_refl s
  · exact ⟨_, rfl, retimeComplete_trained n ok h2 h3⟩

end Sys2Proof.Machine
end

section
/-! SUPPORT. What the composition of a line depends on: the registers of the layers, the protected layers, the scalers and the memory, and
the memory itself. So whether data of a line waits for a side's start is the same in states that differ elsewhere (R118, R213). -/

namespace Sys2Proof.Machine

-- one proof after another: each thread of a proof takes its share of the check's memory
set_option Elab.async false

/-- The places of the registers that composition reads, a layer's status aside: those of SYS but for the breaches', those of the layers,
the protected layers, the scalers and the video inputs, and MSIDE's. -/
def scenePlace (a : Nat) : Prop :=
  (a < 0x01000000 ∧ ¬ (0x100 ≤ a ∧ a < 0x140)) ∨ (0x06000000 ≤ a ∧ a < 0x0A000000 ∧ a % 0x10000 ≠ 0x74) ∨ (0x0B000000 ≤ a ∧ a < 0x0C000000)

/-- A state with only what composition reads of it beside its registers. -/
def State.scene (s : State) : State :=
  { memA := s.memA, memB := s.memB, sram := s.sram, flash := s.flash, sides := s.sides, layers := s.layers, prots := s.prots,
    fittedA := s.fittedA, fittedB := s.fittedB }

/-- Two states give composition the same: its registers, what a layer's status says of its source, and what it reads beside registers. -/
structure State.SameScene (s t : State) : Prop where
  reg : ∀ a, scenePlace a → t.reg a = s.reg a
  frozen : ∀ l < 64, t.get (Reg.LAYER_STATUS_FROZEN_SRC l) = s.get (Reg.LAYER_STATUS_FROZEN_SRC l)
  ready : ∀ l < 64, t.get (Reg.LAYER_STATUS_READY_STATE l) = s.get (Reg.LAYER_STATUS_READY_STATE l)
  rest : t.scene = s.scene

theorem scene_sys {o : Nat} (ho : o < 0x100 ∨ (0x140 ≤ o ∧ o < 0x10000)) : scenePlace (reg 0 0 o) := by
  simp only [scenePlace, reg]
  omega

theorem scene_mside {n o : Nat} (hn : n ≤ 1) (ho : o < 0x10000) : scenePlace (reg 11 n o) := by
  simp only [scenePlace, reg]
  omega

theorem scene_layer {l o : Nat} (hl : l < 64) (ho : o < 0x10000 ∧ o ≠ 0x74) : scenePlace (reg 6 l o) := by
  simp only [scenePlace, reg]
  omega

theorem scene_prot {n o : Nat} (hn : n < 8) (ho : o < 0x10000 ∧ o ≠ 0x74) : scenePlace (reg 7 n o) := by
  simp only [scenePlace, reg]
  omega

theorem scene_scaler {k o : Nat} (hk : k < 32) (ho : o < 0x10000 ∧ o ≠ 0x74) : scenePlace (reg 8 k o) := by
  simp only [scenePlace, reg]
  omega

/-- Two tests that agree on every element of a list hold of the same ones. -/
theorem any_eq_of_mem {α : Type} {l : List α} {p q : α → Bool} (h : ∀ x ∈ l, p x = q x) : l.any p = l.any q := by
  rw [Bool.eq_iff_iff, List.any_eq_true, List.any_eq_true]
  exact exists_congr fun x => and_congr_right fun hx => by rw [h x hx]

namespace State.SameScene
variable {s t : State} (h : s.SameScene t)
include h

theorem get {f : Fld} (hf : scenePlace f.addr) : t.get f = s.get f := by rw [State.get, State.get, h.reg _ hf]

theorem bit {f : Fld} (hf : scenePlace f.addr) : t.bit f = s.bit f := by rw [State.bit, State.bit, h.get hf]

theorem sides : t.sides = s.sides := (congrArg State.sides h.rest :)

theorem lay (l : Nat) : t.lay l = s.lay l := (congrArg (fun x : State => sget (fun _ => ({} : LayerState)) x.layers l) h.rest :)

theorem prot (n : Nat) : t.prot n = s.prot n := (congrArg (fun x : State => sget (fun _ => ({} : ProtState)) x.prots n) h.rest :)

/-! ### Memory -/

theorem side (n : Nat) : t.side n = s.side n := by rw [State.side, State.side, h.sides]

theorem sideMode {n : Nat} (hn : n ≤ 1) : t.sideMode n = s.sideMode n := h.get (scene_mside hn (by decide))

theorem sideDown {n : Nat} (hn : n ≤ 1) : t.sideDown n = s.sideDown n := by rw [State.sideDown, State.sideDown, h.sideMode hn, h.side]

theorem sideStarting {n : Nat} (hn : n ≤ 1) : t.sideStarting n = s.sideStarting n := by
  rw [State.sideStarting, State.sideStarting, h.sideMode hn, h.side]

theorem usable (n : Nat) : t.usable n = s.usable n := by
  have hA : t.fittedA = s.fittedA := (congrArg State.fittedA h.rest :)
  have hB : t.fittedB = s.fittedB := (congrArg State.fittedB h.rest :)
  rw [State.usable, State.usable, State.usableGranules, State.usableGranules, State.fittedGb, State.fittedGb, hA, hB]

theorem granuleMirrored : t.granuleMirrored = s.granuleMirrored := by
  funext g
  rw [State.granuleMirrored, State.granuleMirrored]
  refine any_eq_of_mem fun k hk => ?_
  have hk : k < 32 := List.mem_range.1 hk
  rw [h.bit (scene_mside (by decide) (by omega)), h.get (scene_mside (by decide) (by omega)), h.get (scene_mside (by decide) (by omega))]

theorem granuleSecure : t.granuleSecure = s.granuleSecure := by
  funext g
  rw [State.granuleSecure, State.granuleSecure]
  refine any_eq_of_mem fun k hk => ?_
  have hk : k < 16 := List.mem_range.1 hk
  rw [h.bit (scene_sys (by omega)), h.get (scene_sys (by omega)), h.get (scene_sys (by omega))]

theorem installed : t.installed = s.installed := by
  funext a len
  simp only [State.installed, State.mirrored, h.usable, h.granuleMirrored]

theorem secureMem : t.secureMem = s.secureMem := by
  funext a len
  rw [State.secureMem, State.secureMem, State.sramSplit, State.sramSplit, h.granuleSecure, h.get (scene_sys (by decide))]

theorem servingSide : t.servingSide = s.servingSide := by
  funext off
  have hn : stripeSide off < 2 := Nat.mod_lt _ (by decide)
  simp only [State.servingSide]
  rw [h.sideDown (by omega), h.sideDown (by omega)]

theorem sideBytes {n : Nat} (hn : n ≤ 1) (off len : Nat) : t.sideBytes n off len = s.sideBytes n off len := by
  have hA : t.memA = s.memA := (congrArg State.memA h.rest :)
  have hB : t.memB = s.memB := (congrArg State.memB h.rest :)
  have hb : t.sideByte = s.sideByte := by unfold State.sideByte; rw [hA, hB]
  have hw : t.writeWaits = s.writeWaits := by unfold State.writeWaits State.chan; simp only [h.side]
  rw [State.sideBytes, State.sideBytes, h.sideStarting hn, hb, hw]

theorem readMem : t.readMem = s.readMem := by
  funext w a len
  have hm : t.sram = s.sram := (congrArg State.sram h.rest :)
  have hb : t.sramByte = s.sramByte := by unfold State.sramByte; rw [hm]
  rw [State.readMem, State.readMem, h.installed, h.secureMem]
  cases hr : region a with
  | side n off => dsimp only; rw [h.sideDown (region_side_le hr), h.sideBytes (region_side_le hr)]
  | mirror off => simp only [h.servingSide, h.sideBytes servingSide_le]
  | sram off => dsimp only; rw [hb]
  | rom off => rfl
  | regs off => rfl
  | undecoded => rfl

theorem servingStarting (off : Nat) : (t.servingSide off).any t.sideStarting = (s.servingSide off).any s.sideStarting := by
  have hle : (s.servingSide off).getD 0 ≤ 1 := servingSide_le
  rw [h.servingSide]
  cases hn : s.servingSide off with
  | none => rfl
  | some n => exact h.sideStarting (by rwa [hn] at hle)

theorem startWaits : t.startWaits = s.startWaits := by
  funext a len
  rw [State.startWaits, State.startWaits, h.installed]
  cases hr : region a with
  | side n off => dsimp only; rw [h.sideStarting (region_side_le hr)]
  | mirror off => simp only [h.servingStarting]
  | sram off => rfl
  | rom off => rfl
  | regs off => rfl
  | undecoded => rfl

theorem fetch : t.fetch = s.fetch := by
  funext w a len
  simp only [State.fetch, State.readBytes, h.startWaits, h.readMem]

end State.SameScene

end Sys2Proof.Machine
end

section
/-! SUPPORT. What waits for a side's start is the same where composition finds the same (R112 to R154, R213). -/

namespace Sys2Proof.Machine

-- one proof after another: each thread of a proof takes its share of the check's memory
set_option Elab.async false

theorem length_of_mapM {α β : Type} {f : α → Option β} : ∀ {l : List α} {ps : List β}, l.mapM f = some ps → ps.length = l.length
  | [], _, h => by cases h; rfl
  | x :: xs, ps, h => by
    rw [List.mapM_cons] at h
    obtain ⟨y, -, h⟩ := Option.bind_eq_some_iff.1 h
    obtain ⟨ys, hys, h⟩ := Option.bind_eq_some_iff.1 h
    cases h
    exact congrArg (· + 1) (length_of_mapM hys)

/-- A filter reads the coefficients of its taps alone. -/
theorem filterSum_congr {taps : Nat} {c c' : Nat → Int} {g g' : Nat → Option Px} (hc : ∀ j < taps, c j = c' j) (hg : ∀ j, g j = g' j) :
    filterSum taps c g = filterSum taps c' g' := by
  have hg : g = g' := funext hg
  subst hg
  unfold filterSum
  cases hm : (List.range taps).mapM g with
  | none => rfl
  | some ps =>
    have hlen : ps.length = taps := (length_of_mapM hm).trans List.length_range
    change some _ = some _
    congr 2
    refine List.foldl_ext _ _ _ fun t q hq => ?_
    rw [hc _ (hlen ▸ (List.mem_zipIdx' hq).1)]

theorem mem_liveRects {s : State} {n k : Nat} (hk : k ∈ s.liveRects n) : k < 4 := by
  unfold State.liveRects at hk
  split at hk
  · exact List.mem_range.1 (List.mem_filter.1 hk).1
  · cases hk

theorem mem_layersOf {s : State} {n l : Nat} (hl : l ∈ s.layersOf n) : l < 64 := by
  obtain ⟨z, -, hz⟩ := List.mem_filterMap.1 hl
  rw [State.layerAt, firstBelow] at hz
  exact List.mem_range.1 (List.mem_of_find?_eq_some hz)

/-- R213: whether data of a line waits for a side's start, poison left aside. -/
def State.lineStarts (s : State) (n y : Nat) : Bool := ((s.layersOf n).any fun l => s.layStarts l y) || s.startRects n y

namespace State.SameScene
variable {s t : State} (h : s.SameScene t)
include h

/-! ### The pixels of a source -/

theorem lumaAt : t.lumaAt = s.lumaAt := by
  funext c x y
  simp only [State.lumaAt, h.fetch]

theorem chromaAt : t.chromaAt = s.chromaAt := by
  funext c v i j
  simp only [State.chromaAt, h.fetch]

theorem chromaFull : t.chromaFull = s.chromaFull := by
  funext c v x y
  simp only [State.chromaFull, h.chromaAt]

theorem rgbAt : t.rgbAt = s.rgbAt := by
  funext l c x y
  simp only [State.rgbAt, h.fetch, h.lay]

theorem srcPx : t.srcPx = s.srcPx := by
  funext l c x y
  simp only [State.srcPx, h.lumaAt, h.chromaFull, h.rgbAt]

theorem decPx : t.decPx = s.decPx := by
  funext l c nh nv x y
  simp only [State.decPx, h.srcPx]

theorem sclCoef {k phase tap : Nat} (hk : k < 32) (horiz : Bool) (hp : phase < 64) (ht : tap < 8) :
    t.sclCoef k horiz phase tap = s.sclCoef k horiz phase tap := by
  unfold State.sclCoef
  dsimp only
  rw [h.bit (scene_scaler hk (by decide))]
  congr 2
  refine h.reg _ ?_
  split
  · split <;> exact scene_scaler hk (by simp; omega)
  · split <;> exact scene_scaler hk (by simp; omega)

theorem scaledPx {k : Nat} (hk : k < 32) (l : Nat) (c : Source) (nh nv dw dh x y : Nat) :
    t.scaledPx l c k nh nv dw dh x y = s.scaledPx l c k nh nv dw dh x y := by
  have hphase : ∀ v : Int, (v % 64).toNat < 64 := fun v => by omega
  unfold State.scaledPx
  dsimp only
  refine filterSum_congr (fun j hj => h.sclCoef hk _ (hphase _) hj) fun i => ?_
  exact filterSum_congr (fun j hj => h.sclCoef hk _ (hphase _) (by omega)) fun j => by rw [h.decPx]

/-! ### A layer's line -/

section
variable {l : Nat} (hl : l < 64)
include hl

theorem layerSource : t.layerSource l = s.layerSource l := by
  unfold State.layerSource
  simp (disch := exact scene_layer hl (by decide)) only [h.lay, h.get, h.bit, List.map]

theorem layerColour (fmt : Nat) (p : Px) : t.layerColour l fmt p = s.layerColour l fmt p := by
  unfold State.layerColour matrixPx
  simp (disch := exact scene_layer hl (by decide)) only [h.bit, h.reg]

theorem layerPx (c : Source) (x y : Nat) : t.layerPx l c x y = s.layerPx l c x y := by
  have hcolour : t.layerColour l c.fmt = s.layerColour l c.fmt := funext (h.layerColour hl c.fmt)
  have hk : s.get (Reg.LAYER_ACT_SCALE_SCALER l) < 32 := State.get_lt s (Reg.LAYER_ACT_SCALE_SCALER l)
  unfold State.layerPx
  simp (disch := exact scene_layer hl (by decide)) only [h.bit, h.get, h.decPx, hcolour]
  rw [h.scaledPx hk]

theorem shows : t.shows l = s.shows l := by
  have hf : t.bit (Reg.LAYER_STATUS_FROZEN_SRC l) = s.bit (Reg.LAYER_STATUS_FROZEN_SRC l) := by rw [State.bit, State.bit, h.frozen l hl]
  rw [State.shows, State.shows, h.bit (scene_layer hl (by decide)), h.get (f := Reg.LAYER_READY_POLICY_ACTION l) (scene_layer hl (by decide)),
    hf, h.ready l hl]

theorem layerLine (y : Nat) : t.layerLine l y = s.layerLine l y := by
  unfold State.layerLine State.actDst
  rw [h.reg _ (scene_layer hl (by decide)), h.shows hl, h.layerSource hl]
  simp (disch := exact scene_layer hl (by decide)) only [h.get, h.layerPx hl]

end

theorem startOver {n : Nat} (hn : n ≤ 1) : (if s.sideStarting n then s.set (Reg.MSIDE_STATUS_STATE n) 3 else s).SameScene
    (if t.sideStarting n then t.set (Reg.MSIDE_STATUS_STATE n) 3 else t) := by
  rw [h.sideStarting hn]
  split
  · have hne : ∀ l < 64, Reg.LAYER_STATUS l ≠ Reg.MSIDE_STATUS n := fun l hl => by
      simp only [Reg.LAYER_STATUS, Reg.MSIDE_STATUS, Machine.reg]
      omega
    refine ⟨fun a ha => ?_, fun l hl => ?_, fun l hl => ?_, h.rest⟩
    · rw [State.reg_set, State.reg_set, h.reg a ha, h.reg _ (scene_mside hn (by decide))]
    · rw [State.get_set_other _ _ _ _ (hne l hl), State.get_set_other _ _ _ _ (hne l hl), h.frozen l hl]
    · rw [State.get_set_other _ _ _ _ (hne l hl), State.get_set_other _ _ _ _ (hne l hl), h.ready l hl]
  · exact h

theorem startsOver : s.startsOver.SameScene t.startsOver := (h.startOver (by decide)).startOver (by decide)

/-- R213: whether a layer's data for a line waits. -/
theorem layStarts {l : Nat} (hl : l < 64) (y : Nat) : t.layStarts l y = s.layStarts l y := by
  rw [State.layStarts, State.layStarts, h.sideStarting (by decide), h.sideStarting (by decide), h.layerLine hl, h.startsOver.layerLine hl]

theorem layersOf (n : Nat) : t.layersOf n = s.layersOf n := by
  have hat : t.layerAt n = s.layerAt n := by
    funext z
    rw [State.layerAt, State.layerAt, firstBelow, firstBelow]
    refine List.find?_congr fun l hl => ?_
    have hl : l < 64 := List.mem_range.1 hl
    rw [h.bit (scene_layer hl (by decide)), h.get (scene_layer hl (by decide)), h.get (scene_layer hl (by decide))]
  rw [State.layersOf, State.layersOf, hat]

/-! ### Protected rectangles -/

section
variable {n : Nat} (hn : n < 8)
include hn

theorem liveRects : t.liveRects n = s.liveRects n := by
  rw [State.liveRects, State.liveRects, h.bit (scene_prot hn (by decide)), h.get (scene_prot hn (by decide))]

/-- R213: whether protected data for a line waits. -/
theorem startRects (y : Nat) : t.startRects n y = s.startRects n y := by
  rw [State.startRects, State.startRects, h.liveRects hn]
  refine any_eq_of_mem fun k hk => ?_
  have hk : k < 4 := mem_liveRects hk
  unfold State.actRect State.protRow State.protBytes
  simp (disch := exact scene_prot hn (by omega)) only [h.get, h.bit, h.startWaits]

end

/-- R213: whether data of a line waits. -/
theorem lineStarts {n : Nat} (hn : n < 8) (y : Nat) : t.lineStarts n y = s.lineStarts n y := by
  rw [State.lineStarts, State.lineStarts, h.startRects hn, h.layersOf]
  exact congrArg (· || _) (any_eq_of_mem fun l hl => h.layStarts (mem_layersOf hl) y)

end State.SameScene

/-- R118, R213: a line none of whose data waits is composed. -/
theorem startLayers_of_lineStarts {s : State} {n y : Nat} (h : s.lineStarts n y = false) : s.startLayers n y = [] := by
  obtain ⟨hl, -⟩ := Bool.or_eq_false_iff.1 h
  refine List.filter_eq_nil_iff.2 fun l hm hw => ?_
  rw [List.any_eq_false] at hl
  exact hl l (List.mem_filter.1 hm).1 hw

end Sys2Proof.Machine
end

section
/-! SUPPORT. What the composition of a line leaves alone: its layers' marks, their breaches, and the lines it puts into the output buffer
(R37, R118 to R120, R185, R213). -/

namespace Sys2Proof.Machine

-- one proof after another: each thread of a proof takes its share of the check's memory
set_option Elab.async false

/-! ### Marks -/

/-- The places of the breaches' counts and of the layers' status. -/
def markPlace (a : Nat) : Prop := (0x100 ≤ a ∧ a < 0x140) ∨ (0x06000000 ≤ a ∧ a < 0x07000000 ∧ a % 0x10000 = 0x74)

/-- What the marking of late and poisoned layers keeps of a layer's status and of the count of the breaches of rank 4. -/
structure State.Marked (s t : State) : Prop where
  frozen : ∀ l < 64, t.get (Reg.LAYER_STATUS_FROZEN_SRC l) = s.get (Reg.LAYER_STATUS_FROZEN_SRC l)
  ready : ∀ l < 64, t.get (Reg.LAYER_STATUS_READY_STATE l) = s.get (Reg.LAYER_STATUS_READY_STATE l)
  late : ∀ l < 64, s.bit (Reg.LAYER_STATUS_LATE_LINE l) = true → t.bit (Reg.LAYER_STATUS_LATE_LINE l) = true
  breaches : s.get (Reg.SYS_BREACH_COUNT 4) ≤ t.get (Reg.SYS_BREACH_COUNT 4)

theorem markPlace_layer {l : Nat} (hl : l < 64) : markPlace (Reg.LAYER_STATUS l) := by
  simp only [markPlace, Reg.LAYER_STATUS, reg]
  omega

theorem markPlace_breach {k : Nat} (hk : k < 16) : markPlace (Reg.SYS_BREACH k) := by
  simp only [markPlace, Reg.SYS_BREACH, reg]
  omega

namespace State.Marked
variable {s t u : State}

theorem refl (s : State) : s.Marked s := ⟨fun _ _ => rfl, fun _ _ => rfl, fun _ _ h => h, Nat.le_refl _⟩

theorem trans (h : s.Marked t) (h' : t.Marked u) : s.Marked u :=
  ⟨fun l hl => (h'.frozen l hl).trans (h.frozen l hl), fun l hl => (h'.ready l hl).trans (h.ready l hl),
    fun l hl hb => h'.late l hl (h.late l hl hb), h.breaches.trans h'.breaches⟩

theorem of_reg (h : ∀ a, markPlace a → t.reg a = s.reg a) : s.Marked t := by
  have hget : ∀ {f : Fld}, markPlace f.addr → t.get f = s.get f := fun hf => by rw [State.get, State.get, h _ hf]
  refine ⟨fun l hl => hget (markPlace_layer hl), fun l hl => hget (markPlace_layer hl), fun l hl hb => ?_,
    Nat.le_of_eq (hget (markPlace_breach (by decide))).symm⟩
  rwa [State.bit, hget (markPlace_layer hl)]

/-- An event of a layer's status that is none of its source's. -/
theorem layEvent (s : State) (l : Nat) {flag : Fld} (hf : flag = Reg.LAYER_STATUS_POISON l ∨ flag = Reg.LAYER_STATUS_LATE_LINE l) :
    s.Marked (s.layEvent l flag) := by
  have hbits : 1 ≤ flag.lo ∧ flag.lo + flag.width ≤ 3 := by
    rcases hf with rfl | rfl <;> exact ⟨Nat.le_of_ble_eq_true rfl, Nat.le_of_ble_eq_true rfl⟩
  have hget : ∀ {f : Fld}, f.lo + f.width ≤ 24 → (s.layEvent l flag).get f = (s.set flag 1).get f := fun h =>
    State.get_set_apart _ _ _ _ (by omega) (.inl h)
  have hother : ∀ {f : Fld}, 3 ≤ f.lo → f.lo + f.width ≤ 24 → (s.layEvent l flag).get f = s.get f := fun h h' =>
    (hget h').trans (State.get_set_apart _ _ _ _ (by omega) (.inr (by omega)))
  refine ⟨fun _ _ => hother (Nat.le_of_ble_eq_true rfl) (Nat.le_of_ble_eq_true rfl),
    fun _ _ => hother (Nat.le_of_ble_eq_true rfl) (Nat.le_of_ble_eq_true rfl), fun k hk hb => ?_,
    Nat.le_of_eq ?_⟩
  · rw [State.bit, hget (Nat.le_of_ble_eq_true rfl)]
    rcases hf with rfl | rfl
    · rwa [State.get_set_apart _ _ _ _ (Nat.le_of_ble_eq_true rfl) (.inl (Nat.le_of_ble_eq_true rfl))]
    · by_cases hkl : k = l
      · subst hkl
        rw [State.get_set_same _ _ _ (Nat.le_of_ble_eq_true rfl)]
        rfl
      · rwa [State.get_set_other _ _ _ _ (by simp only [Reg.LAYER_STATUS, Machine.reg]; omega)]
  · have hne : Reg.SYS_BREACH 4 ≠ flag.addr := by
      rcases hf with rfl | rfl <;> simp only [Reg.SYS_BREACH, Reg.LAYER_STATUS, Machine.reg] <;> omega
    have hne' : Reg.SYS_BREACH 4 ≠ Reg.LAYER_STATUS l := by
      simp only [Reg.SYS_BREACH, Reg.LAYER_STATUS, Machine.reg]
      omega
    rw [State.layEvent, State.count_eq, State.get_set_other _ _ _ _ hne', State.get_set_other _ _ _ _ hne]

/-- A breach's count goes up. -/
theorem countBreach (s : State) {k : Nat} (hk : k < 16) (v : Nat) :
    s.Marked ((s.count (Reg.SYS_BREACH_COUNT k)).set (Reg.SYS_BREACH_LAST_PORT k) v) := by
  have hne : ∀ l, Reg.LAYER_STATUS l ≠ Reg.SYS_BREACH k := fun l => by
    simp only [Reg.SYS_BREACH, Reg.LAYER_STATUS, Machine.reg]
    omega
  have hget : ∀ (f : Fld) (l : Nat), f.addr = Reg.LAYER_STATUS l →
      ((s.count (Reg.SYS_BREACH_COUNT k)).set (Reg.SYS_BREACH_LAST_PORT k) v).get f = s.get f := fun f l hf => by
    rw [State.count_eq, State.get_set_other _ _ _ _ (by rw [hf]; exact hne l), State.get_set_other _ _ _ _ (by rw [hf]; exact hne l)]
  refine ⟨fun l _ => hget _ l rfl, fun l _ => hget _ l rfl, fun l _ hb => ?_, ?_⟩
  · rwa [State.bit, hget _ l rfl]
  · rw [State.count_eq, State.get_set_apart _ _ _ _ (Nat.le_of_ble_eq_true rfl) (.inr (Nat.le_of_ble_eq_true rfl))]
    by_cases hk4 : 4 = k
    · subst hk4
      have hlt := s.get_lt (Reg.SYS_BREACH_COUNT 4)
      rw [State.get_set_same _ _ _ (Nat.le_of_ble_eq_true rfl)]
      change _ ≤ min _ (2 ^ 16 - 1) % 2 ^ 16
      change _ < 2 ^ 16 at hlt
      omega
    · rw [State.get_set_other _ _ _ _ (by simp only [Reg.SYS_BREACH, Machine.reg]; omega)]

end State.Marked

/-! ### What composition leaves -/

/-- The places that a line's composition may write beside its marks: those of the pipes, of the sources and of the logbook's counts. -/
def quietPlace (a : Nat) : Prop := (0x03000000 ≤ a ∧ a < 0x04000000) ∨ (0x17000000 ≤ a ∧ a < 0x18000000) ∨ a = Reg.LOG_COUNTS

/-- The places that a line's composition may write. -/
def composePlace (a : Nat) : Prop := markPlace a ∨ quietPlace a

theorem quietPlace_not_mark {a : Nat} (h : quietPlace a) : ¬ markPlace a := by
  simp only [quietPlace, markPlace, Reg.LOG_COUNTS, reg] at h ⊢
  omega

theorem holdsLog_quiet : HoldsLog quietPlace := by
  refine ⟨fun k hk => .inr (.inl ?_), .inr (.inr rfl)⟩
  simp only [Reg.IC_SRC, reg]
  omega

/-- A state but for its screens and its free values, with a view of each screen. -/
def State.beside {β : Type} (g : ScreenState → β) (s : State) : State × (Nat → β) := ({ s with screens := [], drawn := 0 }, fun n => g (s.scr n))

theorem beside_setScr {β : Type} {g : ScreenState → β} (s : State) (n : Nat) {r : ScreenState} (hr : g r = g (s.scr n)) :
    (s.setScr n r).beside g = s.beside g := by
  refine Prod.ext rfl (funext fun k => ?_)
  change g ((s.setScr n r).scr k) = g (s.scr k)
  rw [scr_setScr]
  split
  · next e => rw [e, hr]
  · rfl

/-- A view of a screen that does not see which layers are poisoned, nor that the frame is not to be compared. -/
structure PoisonBlind {β : Type} (g : ScreenState → β) : Prop where
  marks : ∀ (r : ScreenState) (b : Bool) (p : List (Nat × Nat)), g { r with bad := b, poisoned := p } = g r

/-- A view of a screen that does not see the output buffer either. -/
structure ComposeBlind {β : Type} (g : ScreenState → β) : Prop extends PoisonBlind g where
  composed : ∀ (r : ScreenState) (l : List (Nat × List (Word × Bool))), g { r with composed := l } = g r

/-- A view of a screen that does not see the causes of the harbour image either. -/
structure MarkBlind {β : Type} (g : ScreenState → β) : Prop extends PoisonBlind g where
  causes : ∀ (r : ScreenState) (l : List RectCause), g { r with causes := l } = g r

/-- A view of a screen that sees nothing of what follows the sending of a line. -/
structure ScanBlind {β : Type} (g : ScreenState → β) : Prop extends ComposeBlind g, MarkBlind g where
  ahead : ∀ (r : ScreenState) (k : Nat), g { r with ahead := k } = g r
  watch : ∀ (r : ScreenState) (w : Option WatchState), g { r with watch := w } = g r

/-- State `t` follows `s`, with the marks kept. -/
structure State.Scan {β : Type} (A : Nat → Prop) (q : State → β) (s t : State) : Prop where
  within : s.Within A q t
  marked : s.Marked t

namespace State.Scan

section
variable {β γ : Type} {A B : Nat → Prop} {q : State → β} {s t u : State}

theorem refl (A : Nat → Prop) (q : State → β) (s : State) : s.Scan A q s := ⟨.refl A q s, .refl s⟩

theorem trans (h : s.Scan A q t) (h' : t.Scan A q u) : s.Scan A q u := ⟨h.within.trans h'.within, h.marked.trans h'.marked⟩

theorem mono (h : s.Scan A q t) (hA : ∀ a, A a → B a) : s.Scan B q t := ⟨h.within.mono hA, h.marked⟩

theorem view (h : s.Scan A q t) (g : β → γ) : s.Scan A (fun x => g (q x)) t := ⟨h.within.view g, h.marked⟩

theorem ite {c : Prop} [Decidable c] (h : c → s.Scan A q t) (h' : ¬ c → s.Scan A q u) : s.Scan A q (if c then t else u) := by
  split
  · next hc => exact h hc
  · next hc => exact h' hc

theorem each {α : Type} {f : α → State → State} (h : s.Scan A q t) (l : List α)
    (hf : ∀ x ∈ l, ∀ t : State, s.Scan A q t → s.Scan A q (f x t)) : s.Scan A q (t.each l f) := by
  induction l generalizing t with
  | nil => exact h
  | cons x xs ih => exact ih (hf x List.mem_cons_self t h) fun y hy => hf y (List.mem_cons_of_mem x hy)

/-- An operation that writes no mark. -/
theorem quiet (h : s.Scan A q t) (h' : t.Within B q u) (hA : ∀ a, B a → A a) (hB : ∀ a, B a → ¬ markPlace a) : s.Scan A q u :=
  ⟨h.within.trans (h'.mono hA), h.marked.trans (.of_reg fun a ha => h'.reg a fun hb => hB a hb ha)⟩

end

/-! ### The marking of layers and rectangles -/

section
variable {β : Type} {g : ScreenState → β} {s t : State} (h : s.Scan composePlace (State.beside g) t)
include h

theorem aside {u : State} (h' : t.Within quietPlace (State.beside g) u) : s.Scan composePlace (State.beside g) u :=
  h.quiet h' (fun _ => .inr) fun _ => quietPlace_not_mark

theorem unseen (n : Nat) {r : ScreenState} (hr : g r = g (t.scr n)) : s.Scan composePlace (State.beside g) (t.setScr n r) :=
  h.aside ((State.Within.refl _ _ t).setScr (beside_setScr t.calm n hr))

theorem layEvent {l : Nat} (hl : l < 64) {flag : Fld} (hf : flag = Reg.LAYER_STATUS_POISON l ∨ flag = Reg.LAYER_STATUS_LATE_LINE l) :
    s.Scan composePlace (State.beside g) (t.layEvent l flag) := by
  have haddr : flag.addr = Reg.LAYER_STATUS l := by rcases hf with rfl | rfl <;> rfl
  have hplace : composePlace (Reg.LAYER_STATUS l) := .inl (markPlace_layer hl)
  exact ⟨(h.within.set 1 (haddr ▸ hplace)).count 1 hplace, h.marked.trans (.layEvent t l hf)⟩

theorem breach {b : Breach} (hb : b.rank < 16) : s.Scan composePlace (State.beside g) (t.breach b) := by
  have hplace : composePlace (Reg.SYS_BREACH b.rank) := .inl (markPlace_breach hb)
  unfold State.breach
  dsimp only
  have hlog := h.aside ((State.Within.refl _ _ t).logEvent holdsLog_quiet 0x0001 b.unit b.inst
    ((b.port.getD 0xFF) * 2 ^ 16 + b.yielded * 2 ^ 8 + b.rank) (min b.mag 0xFFFFFFFF) (t.drumbeat % 2 ^ 32) (b.unit * 2 ^ 8 + b.inst))
  exact ⟨(hlog.within.count 1 hplace).set _ hplace, hlog.marked.trans (.countBreach _ hb _)⟩

theorem layPoison (hg : PoisonBlind g) {n l y : Nat} (hl : l < 64) : s.Scan composePlace (State.beside g) (t.layPoison n l y) := by
  unfold State.layPoison
  exact (h.unseen n (hg.marks _ true _)).layEvent hl (.inl rfl)

theorem layLate (hg : PoisonBlind g) {n : Nat} (d : LateLayer) : s.Scan composePlace (State.beside g) (t.layLate n d) := by
  unfold State.layLate
  exact ((h.unseen n (hg.marks _ true _)).layEvent d.layer.isLt (.inr rfl)).breach (Nat.le_of_ble_eq_true rfl)

theorem layWaits (hg : PoisonBlind g) (n l : Nat) : s.Scan composePlace (State.beside g) (t.layWaits n l) :=
  layLate (h.aside (State.Within.same (State.Within.refl _ _ t))) hg _

theorem addCause (hg : ∀ (r : ScreenState) (l : List RectCause), g { r with causes := l } = g r) (n : Nat) (c : RectCause) :
    s.Scan composePlace (State.beside g) (t.addCause n c) := by
  unfold State.addCause
  exact ite (fun _ => h.unseen n (hg _ _)) fun _ =>
    (h.unseen n (hg _ _)).aside ((State.Within.refl _ _ _).raiseIrq holdsLog_quiet.1 _)

theorem tilesLate (hg : MarkBlind g) (n y ns yielded : Nat) : s.Scan composePlace (State.beside g) (t.tilesLate n y ns yielded) := by
  unfold State.tilesLate
  split
  · exact h
  · exact ite (fun _ => h) fun _ => h.each _ fun k _ u hu => (hu.addCause hg.causes n _).breach (Nat.le_of_ble_eq_true rfl)

end

end State.Scan

end Sys2Proof.Machine
end

section
/-! SUPPORT. The lines that a screen's pipe composes into its output buffer, and what their composition leaves (R118 to R120, R154, R213). -/

namespace Sys2Proof.Machine

-- one proof after another: each thread of a proof takes its share of the check's memory
set_option Elab.async false

/-- State `t` follows `s` by the composition of line `y` of a screen, unless the line stands in the output buffer. -/
def State.Composes (s : State) (n y : Nat) (t : State) : Prop :=
  (s.composedLine n y = true ∧ (t.scr n).composed = (s.scr n).composed) ∨
    ∃ px, px.length = (s.timing n).hActive ∧ (t.scr n).composed = (s.scr n).composed.filter (·.1 != y) ++ [(y, px)]

namespace State.Composes
variable {s t : State} {n y : Nat} (h : s.Composes n y t)
include h

/-- The line stands in the output buffer. -/
theorem self : t.composedLine n y = true := by
  rcases h with ⟨hs, he⟩ | ⟨px, -, he⟩ <;> rw [State.composedLine, he]
  · exact hs
  · simp

/-- The other lines stand as they were. -/
theorem other {z : Nat} (hz : z ≠ y) : (t.scr n).composed.find? (·.1 == z) = (s.scr n).composed.find? (·.1 == z) := by
  rcases h with ⟨-, he⟩ | ⟨px, -, he⟩ <;> rw [he]
  rw [List.find?_append, List.find?_filter]
  have hy : ([(y, px)].find? (·.1 == z)) = none := by simp [hz.symm]
  rw [hy, Option.or_none]
  refine List.find?_congr fun p _ => ?_
  by_cases hp : p.1 = z
  · simp [hp, hz]
  · simp [hp]

/-- A line that did not stand has the pixels of the active width. -/
theorem length (hs : s.composedLine n y = false) :
    ((t.scr n).composed.find? (·.1 == y)).map (·.2.length) = some (s.timing n).hActive := by
  rcases h with ⟨hs', -⟩ | ⟨px, hlen, he⟩
  · rw [hs] at hs'
    cases hs'
  · rw [he, List.find?_append, List.find?_eq_none.2]
    · simp [hlen]
    · intro p hp
      simpa using (List.mem_filter.1 hp).2

end State.Composes

theorem composedLine_of_find {s t : State} {n y : Nat}
    (h : (t.scr n).composed.find? (·.1 == y) = (s.scr n).composed.find? (·.1 == y)) : t.composedLine n y = s.composedLine n y := by
  rw [State.composedLine, State.composedLine, ← List.isSome_find?, ← List.isSome_find?, h]

theorem scr_of_beside {β : Type} {g : ScreenState → β} {A : Nat → Prop} {s t : State} (h : s.Within A (State.beside g) t) (n : Nat) :
    g (t.scr n) = g (s.scr n) := congrFun (congrArg Prod.snd h.rest) n

theorem pipe_of_beside {β : Type} {g : ScreenState → β} {A : Nat → Prop} {s t : State} (h : s.Within A (State.beside g) t) (p : Nat) :
    t.pipe p = s.pipe p := (congrArg (fun x : State × (Nat → β) => x.1.pipe p) h.rest :)

theorem scene_of_beside {β : Type} {g : ScreenState → β} {A : Nat → Prop} {s t : State} (h : s.Scan A (State.beside g) t) :
    s.Scan A State.scene t := h.view fun x : State × (Nat → β) => x.1.scene

/-- The output buffer is a view that sees neither poison nor causes. -/
theorem composed_markBlind : MarkBlind ScreenState.composed := ⟨⟨fun _ _ _ => rfl⟩, fun _ _ => rfl⟩

theorem screen_not_compose {n o : Nat} (hn : n < 256) (ho : o < 0x10000) : ¬ composePlace (reg 2 n o) := by
  simp only [composePlace, markPlace, quietPlace, Reg.LOG_COUNTS, reg]
  omega

theorem timing_of_compose {β : Type} {q : State → β} {s t : State} (h : s.Within composePlace q t) {n : Nat} (hn : n < 8) :
    t.timing n = s.timing n := timing_congr fun o ho => h.reg _ (screen_not_compose (by omega) (by omega))

/-- What is composed after marks. -/
theorem State.Composes.after {s t u : State} {n y : Nat} (h : t.Composes n y u) (hm : s.Within composePlace (State.beside ScreenState.composed) t) (hn : n < 8) :
    s.Composes n y u := by
  have hc := scr_of_beside hm n
  unfold State.Composes State.composedLine at h ⊢
  rwa [hc, timing_of_compose hm hn] at h

section
variable (s : State) {n : Nat} (hn : n < 8) (y : Nat) (out : List Nat) (bare : Bool)

/-- The layers of a line that poison makes transparent. -/
def State.linePoison (s : State) (n y : Nat) (out : List Nat) : State :=
  s.each ((((s.layersAt n y).filter fun l => !out.contains l).map fun l => (l, s.layerLine l y)).filter fun p => p.2.isNone)
    fun p t => t.layPoison n p.1 y

theorem composeLine_eq : ∃ px, px.length = ((s.linePoison n y out).timing n).hActive ∧
    s.composeLine n y out bare = (s.linePoison n y out).setScr n { (s.linePoison n y out).scr n with
      composed := ((s.linePoison n y out).scr n).composed.filter (·.1 != y) ++ [(y, px)],
      bad := ((s.linePoison n y out).scr n).bad || px.any (·.2) } := by
  refine ⟨_, ?_, rfl⟩
  rw [List.length_map, List.length_range]
  rfl

theorem scan_linePoison {β : Type} {g : ScreenState → β} (hg : PoisonBlind g) :
    s.Scan composePlace (State.beside g) (s.linePoison n y out) := by
  refine (State.Scan.refl _ _ s).each _ fun p hp t ht => ht.layPoison hg ?_
  obtain ⟨l, hl, rfl⟩ := List.mem_map.1 (List.mem_filter.1 hp).1
  exact mem_layersOf (List.mem_filter.1 (List.mem_filter.1 hl).1).1

theorem scan_composeLine {β : Type} {g : ScreenState → β} (hg : ComposeBlind g) :
    s.Scan composePlace (State.beside g) (s.composeLine n y out bare) := by
  obtain ⟨px, -, he⟩ := composeLine_eq s (n := n) y out bare
  have hset : ∀ (r : ScreenState) l b, g { r with composed := l, bad := b } = g r := fun r l b =>
    (hg.composed { r with bad := b } l).trans (hg.marks r b r.poisoned)
  rw [he]
  exact (scan_linePoison s y out hg.toPoisonBlind).unseen n (hset _ _ _)

include hn in
theorem composeLine_composes : s.Composes n y (s.composeLine n y out bare) := by
  obtain ⟨px, hlen, he⟩ := composeLine_eq s (n := n) y out bare
  have hp := (scan_linePoison s (n := n) y out composed_markBlind.toPoisonBlind).within
  rw [timing_of_compose hp hn] at hlen
  refine .inr ⟨px, hlen, ?_⟩
  rw [he, scr_setScr, if_pos rfl]
  exact congrArg (fun l => List.filter _ l ++ _) (scr_of_beside hp n)

theorem scan_composeNow {β : Type} {g : ScreenState → β} (hg : ComposeBlind g) : s.Scan composePlace (State.beside g) (s.composeNow n y) := by
  unfold State.composeNow
  exact .ite (fun _ => .refl _ _ s) fun _ => scan_composeLine s y _ _ hg

include hn in
theorem composeNow_composes : s.Composes n y (s.composeNow n y) := by
  unfold State.composeNow
  split
  · next hc => exact .inl ⟨hc, rfl⟩
  · exact composeLine_composes s hn y _ _

theorem scan_composeAhead {β : Type} {g : ScreenState → β} (hg : ComposeBlind g) : s.Scan composePlace (State.beside g) (s.composeAhead n y) := by
  unfold State.composeAhead
  exact .ite (fun _ => .refl _ _ s) fun _ => scan_composeLine s y _ _ hg

include hn in
/-- R213: a line none of whose data waits for a side's start is composed. -/
theorem composeAhead_composes (hs : s.lineStarts n y = false) : s.Composes n y (s.composeAhead n y) := by
  have hr : s.startRects n y = false := (Bool.or_eq_false_iff.1 hs).2
  rw [State.composeAhead, startLayers_of_lineStarts hs, hr]
  split
  · next hc => exact .inl ⟨by simpa using hc, rfl⟩
  · exact composeLine_composes s hn y _ _

include hn in
/-- R213: a line some of whose data waits is not composed ahead. -/
theorem composeAhead_other {z : Nat} (hz : z ≠ y) :
    ((s.composeAhead n y).scr n).composed.find? (·.1 == z) = (s.scr n).composed.find? (·.1 == z) := by
  unfold State.composeAhead
  split
  · rfl
  · exact (composeLine_composes s hn y _ _).other hz

/-! ### The line that comes next (R119, R185) -/

variable (late : List LateLayer) (ns yi : Nat)

/-- The layers of a screen that are late for a line. -/
def State.lateOf (s : State) (n : Nat) (late : List LateLayer) : List LateLayer :=
  late.filter fun d => (s.layersOf n).contains d.layer.val

/-- The layers whose data for a line waits for a side's start. -/
def State.heldOf (s : State) (n y : Nat) (late : List LateLayer) : List Nat :=
  if s.composedLine n y then [] else (s.startLayers n y).filter fun l => !(s.lateOf n late).any (·.layer.val == l)

/-- The marks of what is late for a line. -/
def State.settleMarks (s : State) (n y : Nat) (late : List LateLayer) (ns yi : Nat) : State :=
  ((s.each (s.lateOf n late) fun d u => u.layLate n d).each (s.heldOf n y late) fun l u => u.layWaits n l).tilesLate n y ns yi

theorem settleLine_eq : s.settleLine n y late bare ns yi =
    if (s.lateOf n late).isEmpty && (s.heldOf n y late).isEmpty && !bare then (s.settleMarks n y late ns yi).composeNow n y
    else (s.settleMarks n y late ns yi).composeLine n y ((s.lateOf n late).map (·.layer.val) ++ s.heldOf n y late) bare := rfl

section
variable {β : Type} {g : ScreenState → β} (hg : MarkBlind g)
include hg

/-- The marks from the layers that are late on. -/
theorem scan_settleLate (u : State) (hu : s.Scan composePlace (State.beside g) u) (held : List Nat) :
    s.Scan composePlace (State.beside g) ((u.each held fun l u => u.layWaits n l).tilesLate n y ns yi) :=
  (hu.each _ fun l _ _ hu => hu.layWaits hg.toPoisonBlind n l).tilesLate hg n y ns yi

theorem scan_settleMarks : s.Scan composePlace (State.beside g) (s.settleMarks n y late ns yi) :=
  scan_settleLate s y ns yi hg _ ((State.Scan.refl _ _ s).each _ fun d _ _ hu => hu.layLate hg.toPoisonBlind d) _

end

theorem scan_settleLine {β : Type} {g : ScreenState → β} (hg : ScanBlind g) :
    s.Scan composePlace (State.beside g) (s.settleLine n y late bare ns yi) := by
  have hu := scan_settleMarks s (n := n) y late ns yi hg.toMarkBlind
  rw [settleLine_eq]
  exact .ite (fun _ => hu.trans (scan_composeNow _ y hg.toComposeBlind)) fun _ => hu.trans (scan_composeLine _ y _ bare hg.toComposeBlind)

include hn in
theorem settleLine_composes : s.Composes n y (s.settleLine n y late bare ns yi) := by
  have hu := (scan_settleMarks s (n := n) y late ns yi composed_markBlind).within
  rw [settleLine_eq]
  split
  · exact (composeNow_composes _ hn y).after hu hn
  · exact (composeLine_composes _ hn y _ bare).after hu hn

/-! ### The end of a frame, and the line eight ahead (R118, R200) -/

section
variable {β : Type} {g : ScreenState → β} (hg : ScanBlind g)
include hg

theorem scan_frameComplete : s.Scan composePlace (State.beside g) (s.frameComplete n) := by
  have hsig : s.Scan composePlace (State.beside g) (s.set (Reg.PIPE_SIG_SIG (s.pipeOf n)) (sigEnd (s.scr n).sig)) := by
    refine (State.Scan.refl _ _ s).aside ((State.Within.refl quietPlace _ s).set _ (.inl ?_))
    have hp : s.pipeOf n < 16 := State.get_lt s (Reg.XBAR_MAP_PIPE (s.portOf n))
    simp only [Reg.PIPE_SIG, reg]
    omega
  unfold State.frameComplete
  dsimp only
  generalize s.set (Reg.PIPE_SIG_SIG (s.pipeOf n)) (sigEnd (s.scr n).sig) = u at hsig
  split
  · exact .ite (fun _ => hsig) fun _ => hsig.unseen n (hg.watch _ _)
  · exact hsig

theorem scan_windowLine : s.Scan composePlace (State.beside g) (s.windowLine n y) := by
  have hahead := fun (u : State) y => scan_composeAhead u (n := n) y hg.toComposeBlind
  unfold State.windowLine
  dsimp only
  exact .ite (fun _ => .ite (fun _ => hahead s _) fun _ => .refl _ _ s) fun _ => .ite (fun _ => .refl _ _ s) fun _ =>
    ((State.Scan.refl _ _ s).unseen n (hg.ahead _ _)).trans (hahead _ _)

end

end

end Sys2Proof.Machine
end

section
/-! SUPPORT. The start of a line, and the line that the port sends (R69, R92, R184, R185, R193). -/

namespace Sys2Proof.Machine

-- one proof after another: each thread of a proof takes its share of the check's memory
set_option Elab.async false

/-! ### The stages of a line's scan-out -/

/-- LINE, and the frame's start at line 0. -/
def State.lineBegins (s : State) (n line : Nat) : State :=
  let s := s.set (Reg.SCREEN_STATUS_LINE n) line
  if line = 0 then s.frameStart n else s

/-- The line is sent. -/
def State.lineSent (s : State) (n line vActive : Nat) (faults : List (Nat × Word)) : State :=
  if line < vActive then s.sendLine n line faults else s.setScr n { s.scr n with sent := [] }

/-- The line that comes next is settled. -/
def State.lineSettled (s : State) (n line vActive : Nat) (last : Bool) (late : List LateLayer) (bare : Bool) (ns yi : Nat) : State :=
  let s := if line + 1 = vActive then s.frameComplete n else s
  if line + 1 < vActive then s.settleLine n (line + 1) late bare ns yi
  else if vActive ≤ line && last then s.settleLine n 0 late bare ns yi
  else s

theorem scanLine_eq (s : State) (n line : Nat) (last : Bool) (late : List LateLayer) (bare : Bool) (ns yi : Nat) (faults : List (Nat × Word)) :
    s.scanLine n line last late bare ns yi faults =
      if !s.running n || (s.scr n).gap then s
      else (((((s.lineBegins n line).lineSent n line (s.timing n).vActive faults).lineSettled n line (s.timing n).vActive last late bare ns yi).windowLine
        n line).inOrder s) := rfl

/-- What follows the sending of a line is composition. -/
theorem scan_lineSettled {β : Type} {g : ScreenState → β} (hg : ScanBlind g) (s : State) (n line vActive : Nat) (last : Bool) (late : List LateLayer)
    (bare : Bool) (ns yi : Nat) : s.Scan composePlace (State.beside g) (s.lineSettled n line vActive last late bare ns yi) := by
  have hend : s.Scan composePlace (State.beside g) (if line + 1 = vActive then s.frameComplete n else s) :=
    .ite (fun _ => scan_frameComplete s hg) fun _ => .refl _ _ s
  unfold State.lineSettled
  exact .ite (fun _ => hend.trans (scan_settleLine _ _ _ _ _ _ hg)) fun _ =>
    .ite (fun _ => hend.trans (scan_settleLine _ _ _ _ _ _ hg)) fun _ => hend

/-! ### The start of a line -/

/-- What the start of a line leaves of a state. -/
def State.opened (s : State) : State × (Nat → ScreenState) × (Nat → Option Nat) :=
  ({ s with screens := [], ports := [] }, fun n => { s.scr n with blanking := false, frameDrum := 0 }, fun p => (s.port p).forced)

theorem opened_setScr (s : State) (n : Nat) (b : Bool) (d : Nat) :
    (s.setScr n { s.scr n with blanking := b, frameDrum := d }).opened = s.opened := by
  refine Prod.ext rfl (Prod.ext (funext fun k => ?_) rfl)
  change ({ (s.setScr n { s.scr n with blanking := b, frameDrum := d }).scr k with blanking := false, frameDrum := 0 } : ScreenState) = _
  rw [scr_setScr]
  split
  · next e => rw [e]; rfl
  · rfl

theorem opened_setPort (s : State) (p : Nat) {r : PortState} (hr : r.forced = (s.port p).forced) : (s.setPort p r).opened = s.opened := by
  refine Prod.ext rfl (Prod.ext rfl (funext fun k => ?_))
  change ((s.setPort p r).port k).forced = _
  rw [State.port_setPort]
  split
  · next e => rw [e, hr]; rfl
  · rfl

theorem within_frameStart (s : State) (n : Nat) : s.Within (fun _ => False) State.opened (s.frameStart n) := by
  have h0 : s.Within (fun _ => False) State.opened (s.setScr n { s.scr n with
      blanking := false, frameDrum := s.drumbeat - (s.timing n).stagger * (s.timing n).beats / (s.timing n).vTotal }) :=
    (State.Within.refl _ _ s).setScr (opened_setScr s.calm n _ _)
  have h1 := h0.setPort (p := s.portOf n) (r := { s.port (s.portOf n) with video := s.bit (Reg.DPO_LINK_STATUS_LINK_OK (s.portOf n)) })
    (opened_setPort _ _ rfl)
  exact .ite (fun _ => h1.setPort (opened_setPort _ _ rfl)) fun _ => h1

theorem video_frameStart (s : State) (n : Nat) : ((s.frameStart n).port (s.portOf n)).video = s.bit (Reg.DPO_LINK_STATUS_LINK_OK (s.portOf n)) := by
  unfold State.frameStart
  dsimp only
  split
  · rw [State.port_setPort_same, State.port_setPort_same]
  · rw [State.port_setPort_same]

section
variable (s : State) {n : Nat} (hn : n < 8) (line : Nat)

theorem within_lineBegins : s.Within (· = Reg.SCREEN_STATUS n) State.opened (s.lineBegins n line) := by
  have hset := (State.Within.refl (· = Reg.SCREEN_STATUS n) State.opened s).set (f := Reg.SCREEN_STATUS_LINE n) line rfl
  unfold State.lineBegins
  exact .ite (fun _ => hset.trans ((within_frameStart _ n).mono fun _ => False.elim)) fun _ => hset

/-- R69: LINE shows the line. -/
theorem line_lineBegins : (s.lineBegins n line).get (Reg.SCREEN_STATUS_LINE n) = line % 2 ^ 14 := by
  have hset : (s.set (Reg.SCREEN_STATUS_LINE n) line).get (Reg.SCREEN_STATUS_LINE n) = line % 2 ^ 14 :=
    State.get_set_same _ _ _ (Nat.le_of_ble_eq_true rfl)
  unfold State.lineBegins
  dsimp only
  split
  · rw [(within_frameStart _ n).get not_false, hset]
  · exact hset

/-- R92: the port sends video from a frame's start on where its link is up. -/
theorem video_lineBegins : ((s.lineBegins n line).port (s.portOf n)).video =
    if line = 0 then s.bit (Reg.DPO_LINK_STATUS_LINK_OK (s.portOf n)) else (s.port (s.portOf n)).video := by
  have hport : (s.set (Reg.SCREEN_STATUS_LINE n) line).portOf n = s.portOf n :=
    State.get_set_other _ _ _ _ (by simp only [Reg.SCREEN_CTRL, Reg.SCREEN_STATUS, reg]; omega)
  have hlink : (s.set (Reg.SCREEN_STATUS_LINE n) line).bit (Reg.DPO_LINK_STATUS_LINK_OK (s.portOf n)) =
      s.bit (Reg.DPO_LINK_STATUS_LINK_OK (s.portOf n)) := by
    rw [State.bit, State.bit, State.get_set_other _ _ _ _ (by simp only [Reg.DPO_LINK_STATUS, Reg.SCREEN_STATUS, reg]; omega)]
  unfold State.lineBegins
  dsimp only
  split
  · rw [← hlink, ← hport, video_frameStart]
  · rfl

end

end Sys2Proof.Machine
end

section
/-! SUPPORT. What the port sends of a line, and the pixel at which the pipe disagrees with the sextant (R184, R185, R193). -/

namespace Sys2Proof.Machine

-- one proof after another: each thread of a proof takes its share of the check's memory
set_option Elab.async false

/-- A count reads one more than it read, up to its top. -/
theorem get_count_same (s : State) (f : Fld) (h : f.lo + f.width ≤ 32) : (s.count f).get f = s.more f := by
  have hpos : 0 < 2 ^ f.width := Nat.two_pow_pos _
  rw [State.count_eq, State.get_set_same _ _ _ h]
  refine Nat.mod_eq_of_lt ?_
  rw [satAdd]
  omega

/-! ### A mismatch -/

/-- The registers of a mismatch, but for those of its fault. -/
def State.mismatchShown (s : State) (n y x : Nat) : State :=
  let p := s.portOf n
  let s := if s.bit (Reg.DPO_CMP_STATUS_PIPE_MISMATCH p) then s
    else ((s.set (Reg.DPO_CMP_FIRST_LINE p) y).set (Reg.DPO_CMP_FIRST_X p) x).set (Reg.DPO_CMP_FIRST_FRAME_FRAME p) (s.frame n)
  (s.cmpEvent p (Reg.DPO_CMP_STATUS_PIPE_MISMATCH p)).count (Reg.DPO_CMP_COUNT_MISMATCH_FRAMES p)

/-- The records of a mismatch, of the screen and of its pipe. -/
def State.mismatchBlamed (s : State) (n : Nat) : State :=
  let s := s.setScr n { s.scr n with mode := 1, mismatch := true }
  (s.setPipe (s.pipeOf n) { s.pipe (s.pipeOf n) with mismatch := true }).needPipe n

theorem portMismatch_eq (s : State) (n y x : Nat) : s.portMismatch n y x =
    ((s.mismatchShown n y x).mismatchBlamed n).raiseFault (32 + (s.mismatchShown n y x).pipeOf n) := (rfl)

/-- The places that a mismatch shows. -/
def comparePlace (a : Nat) : Prop := (0x04000000 ≤ a ∧ a < 0x05000000) ∨ (0x17000000 ≤ a ∧ a < 0x18000000)

theorem comparePlace_port {p o : Nat} (hp : p < 8) (ho : o < 0x10000) : comparePlace (reg 4 p o) := by
  simp only [comparePlace, reg]
  omega

theorem screen_not_compare {n o : Nat} (hn : n < 8) (ho : o < 0x10000) : ¬ comparePlace (reg 2 n o) := by
  simp only [comparePlace, reg]
  omega

section
variable (s : State) {n : Nat} (hn : n < 8) (y x : Nat)

theorem within_mismatchShown {β : Type} (q : State → β) : s.Within comparePlace q (s.mismatchShown n y x) := by
  have hp : s.portOf n < 8 := State.get_lt s (Reg.SCREEN_CTRL_PORT n)
  have hdpo : ∀ {o : Nat}, o < 0x10000 → comparePlace (reg 4 (s.portOf n) o) := fun ho => comparePlace_port hp ho
  have hsrc : HoldsSources comparePlace := fun k hk => .inr (by simp only [Reg.IC_SRC, reg]; omega)
  have h0 := State.Within.refl comparePlace q s
  have h1 : s.Within comparePlace q (if s.bit (Reg.DPO_CMP_STATUS_PIPE_MISMATCH (s.portOf n)) then s
      else ((s.set (Reg.DPO_CMP_FIRST_LINE (s.portOf n)) y).set (Reg.DPO_CMP_FIRST_X (s.portOf n)) x).set
        (Reg.DPO_CMP_FIRST_FRAME_FRAME (s.portOf n)) (s.frame n)) :=
    .ite (fun _ => h0) fun _ => ((h0.set _ (hdpo (by decide))).set _ (hdpo (by decide))).set _ (hdpo (by decide))
  unfold State.mismatchShown State.cmpEvent
  exact (h1.event hsrc _ (hdpo (by decide)) (hdpo (by decide))).count 1 (hdpo (by decide))

theorem mismatchShown_shows :
    let t := s.mismatchShown n y x
    let p := s.portOf n
    t.bit (Reg.DPO_CMP_STATUS_PIPE_MISMATCH p) = true ∧
      t.get (Reg.DPO_CMP_COUNT_MISMATCH_FRAMES p) = s.more (Reg.DPO_CMP_COUNT_MISMATCH_FRAMES p) ∧
      (s.bit (Reg.DPO_CMP_STATUS_PIPE_MISMATCH p) = false → t.get (Reg.DPO_CMP_FIRST_LINE p) = y % 2 ^ 14 ∧
        t.get (Reg.DPO_CMP_FIRST_X p) = x % 2 ^ 13 ∧ t.get (Reg.DPO_CMP_FIRST_FRAME_FRAME p) = s.frame n % 2 ^ 32) := by
  intro t p
  have hunit : ∀ o < 0x10000, reg 4 p o / 0x10000 ≠ 0x1700 := fun o ho => by
    have hp : p < 8 := State.get_lt s (Reg.SCREEN_CTRL_PORT n)
    simp only [reg]
    omega
  obtain ⟨u, hu, ht⟩ : ∃ u, (if s.bit (Reg.DPO_CMP_STATUS_PIPE_MISMATCH p) then s
      else ((s.set (Reg.DPO_CMP_FIRST_LINE p) y).set (Reg.DPO_CMP_FIRST_X p) x).set (Reg.DPO_CMP_FIRST_FRAME_FRAME p) (s.frame n)) = u ∧
      t = (u.cmpEvent p (Reg.DPO_CMP_STATUS_PIPE_MISMATCH p)).count (Reg.DPO_CMP_COUNT_MISMATCH_FRAMES p) := ⟨_, rfl, rfl⟩
  -- a register of the port that is neither the event's nor the count's
  have hget : ∀ {f : Fld}, f.lo + f.width ≤ 32 → f.addr = Reg.DPO_CMP_FIRST p ∨ f.addr = Reg.DPO_CMP_FIRST_FRAME p → t.get f = u.get f := by
    intro f h32 hf
    have hne : f.addr ≠ Reg.DPO_CMP_COUNT p ∧ f.addr ≠ Reg.DPO_CMP_STATUS p ∧ f.addr / 0x10000 ≠ 0x1700 := by
      rcases hf with e | e <;> rw [e] <;> refine ⟨?_, ?_, hunit _ (by decide)⟩ <;>
        simp only [Reg.DPO_CMP_FIRST, Reg.DPO_CMP_FIRST_FRAME, Reg.DPO_CMP_COUNT, Reg.DPO_CMP_STATUS, reg] <;> omega
    rw [ht, State.count_eq, State.get_set_other _ _ _ _ hne.1, State.cmpEvent, get_event_ne _ _ h32 hne.2.2 (.inl hne.2.1) (.inl hne.2.1)]
  have hcount : u.get (Reg.DPO_CMP_COUNT_MISMATCH_FRAMES p) = s.get (Reg.DPO_CMP_COUNT_MISMATCH_FRAMES p) := by
    have hne : Reg.DPO_CMP_COUNT p ≠ Reg.DPO_CMP_FIRST p ∧ Reg.DPO_CMP_COUNT p ≠ Reg.DPO_CMP_FIRST_FRAME p := by
      simp only [Reg.DPO_CMP_FIRST, Reg.DPO_CMP_FIRST_FRAME, Reg.DPO_CMP_COUNT, reg]
      omega
    rw [← hu]
    split
    · rfl
    · rw [State.get_set_other _ _ _ _ hne.2, State.get_set_other _ _ _ _ hne.1, State.get_set_other _ _ _ _ hne.1]
  refine ⟨?_, ?_, fun hb => ?_⟩
  · have hne : Reg.DPO_CMP_STATUS p ≠ Reg.DPO_CMP_COUNT p := by
      simp only [Reg.DPO_CMP_COUNT, Reg.DPO_CMP_STATUS, reg]
      omega
    rw [ht, State.bit, State.count_eq, State.get_set_other _ _ _ _ hne, State.cmpEvent, State.event, get_raiseIrq_other _ _ (hunit _ (by decide)),
      State.count_eq, State.get_set_apart _ _ _ _ (Nat.le_of_ble_eq_true rfl) (.inl (Nat.le_of_ble_eq_true rfl)),
      State.get_set_same _ _ _ (Nat.le_of_ble_eq_true rfl)]
    rfl
  · have hne : Reg.DPO_CMP_COUNT p ≠ Reg.DPO_CMP_STATUS p := by
      simp only [Reg.DPO_CMP_COUNT, Reg.DPO_CMP_STATUS, reg]
      omega
    rw [ht, get_count_same _ _ (Nat.le_of_ble_eq_true rfl), State.more, State.more, State.cmpEvent,
      get_event_ne _ _ (Nat.le_of_ble_eq_true rfl) (hunit _ (by decide)) (.inl hne) (.inl hne), hcount]
  · have hne : Reg.DPO_CMP_FIRST p ≠ Reg.DPO_CMP_FIRST_FRAME p := by
      simp only [Reg.DPO_CMP_FIRST, Reg.DPO_CMP_FIRST_FRAME, reg]
      omega
    rw [hget (Nat.le_of_ble_eq_true rfl) (.inl rfl), hget (Nat.le_of_ble_eq_true rfl) (.inl rfl), hget (Nat.le_of_ble_eq_true rfl) (.inr rfl),
      ← hu, hb, if_neg Bool.false_ne_true]
    refine ⟨?_, ?_, State.get_set_same _ _ _ (Nat.le_of_ble_eq_true rfl)⟩
    · rw [State.get_set_other _ _ _ _ hne, State.get_set_apart _ _ _ _ (Nat.le_of_ble_eq_true rfl) (.inr (Nat.le_of_ble_eq_true rfl))]
      exact State.get_set_same _ _ _ (Nat.le_of_ble_eq_true rfl)
    · rw [State.get_set_other _ _ _ _ hne]
      exact State.get_set_same _ _ _ (Nat.le_of_ble_eq_true rfl)

theorem within_setScr_scene (u : State) (r : ScreenState) : u.Within (fun _ => False) State.scene (u.setScr n r) :=
  (State.Within.refl _ _ u).setScr rfl

theorem within_setPipe_scene (u : State) (p : Nat) (r : PipeState) : u.Within (fun _ => False) State.scene (u.setPipe p r) :=
  (State.Within.refl _ _ u).same

/-- The records that a mismatch leaves. -/
theorem mismatchBlamed_leads : (s.mismatchBlamed n).scr n = { s.scr n with mode := 1, mismatch := true, needPipe := true } ∧
    ((s.mismatchBlamed n).pipe (s.pipeOf n)).mismatch = true ∧ s.Within (fun _ => False) State.scene (s.mismatchBlamed n) := by
  unfold State.mismatchBlamed State.needPipe
  dsimp only
  have hscr := scr_setScr s n n { s.scr n with mode := 1, mismatch := true }
  have hw := within_setScr_scene (n := n) s { s.scr n with mode := 1, mismatch := true }
  have hpipe : (s.setScr n { s.scr n with mode := 1, mismatch := true }).pipeOf n = s.pipeOf n := rfl
  rw [if_pos rfl] at hscr
  generalize s.setScr n { s.scr n with mode := 1, mismatch := true } = u at hscr hw hpipe ⊢
  rw [hpipe]
  have hscr' : (u.setPipe (s.pipeOf n) { u.pipe (s.pipeOf n) with mismatch := true }).scr n = u.scr n := rfl
  have hpipe' : ((u.setPipe (s.pipeOf n) { u.pipe (s.pipeOf n) with mismatch := true }).pipe (s.pipeOf n)).mismatch = true :=
    (congrArg PipeState.mismatch (sget_sput_same u.pipes (s.pipeOf n) { u.pipe (s.pipeOf n) with mismatch := true }) :)
  have hw' := hw.trans (within_setPipe_scene u (s.pipeOf n) { u.pipe (s.pipeOf n) with mismatch := true })
  generalize u.setPipe (s.pipeOf n) { u.pipe (s.pipeOf n) with mismatch := true } = v at hscr' hpipe' hw' ⊢
  refine ⟨?_, hpipe', hw'.trans (within_setScr_scene v _)⟩
  rw [scr_setScr, if_pos rfl, hscr', hscr]

/-- The places that a mismatch may write. -/
def missPlace (a : Nat) : Prop := comparePlace a ∨ faultPlace a

/-- The low registers of a port, and those of a screen, are none of the places that a fault may write. -/
theorem compare_not_fault {p o : Nat} (hp : p < 8) (ho : o < 0x10000 ∧ o ≠ 0x64) : ¬ faultPlace (reg 4 p o) := by
  simp only [faultPlace, reg]
  omega

include hn in
/-- R185: what a mismatch leaves. -/
theorem portMismatch_leads :
    let t := s.portMismatch n y x
    let p := s.portOf n
    (t.bit (Reg.DPO_CMP_STATUS_PIPE_MISMATCH p) = true ∧
      t.get (Reg.DPO_CMP_COUNT_MISMATCH_FRAMES p) = s.more (Reg.DPO_CMP_COUNT_MISMATCH_FRAMES p) ∧
      (s.bit (Reg.DPO_CMP_STATUS_PIPE_MISMATCH p) = false → t.get (Reg.DPO_CMP_FIRST_LINE p) = y % 2 ^ 14 ∧
        t.get (Reg.DPO_CMP_FIRST_X p) = x % 2 ^ 13 ∧ t.get (Reg.DPO_CMP_FIRST_FRAME_FRAME p) = s.frame n % 2 ^ 32)) ∧
    (t.scr n).unharmed = { (s.scr n).unharmed with mode := 1, mismatch := true, needPipe := true } ∧
    (t.pipe (s.pipeOf n)).mismatch = true ∧ t.bit (Reg.FLT_IN_STATUS_CAUSE (32 + s.pipeOf n)) = true ∧
    s.Within missPlace State.scene t := by
  intro t p
  have hp : p < 8 := State.get_lt s (Reg.SCREEN_CTRL_PORT n)
  have ht : t = ((s.mismatchShown n y x).mismatchBlamed n).raiseFault (32 + (s.mismatchShown n y x).pipeOf n) := portMismatch_eq s n y x
  clear_value t
  have hshows := mismatchShown_shows s (n := n) y x
  have hshown := within_mismatchShown s (n := n) y x fun u => (u.scene, u.scr n)
  have hpipe : (s.mismatchShown n y x).pipeOf n = s.pipeOf n := by
    have hport : (s.mismatchShown n y x).portOf n = s.portOf n := hshown.get (screen_not_compare hn (by decide))
    rw [State.pipeOf, hport]
    exact hshown.get (by simp only [comparePlace, Reg.XBAR_MAP, reg]; omega)
  have hk : screenFault (32 + s.pipeOf n) := .inl (by have : s.pipeOf n < 16 := State.get_lt s (Reg.XBAR_MAP_PIPE (s.portOf n)); omega)
  rw [hpipe] at ht
  generalize s.mismatchShown n y x = u at ht hshows hshown hpipe
  obtain ⟨hscr, hbad, hblamed⟩ := mismatchBlamed_leads u (n := n)
  have hreg : ∀ a, (u.mismatchBlamed n).reg a = u.reg a := fun a => hblamed.reg a not_false
  have hfault := within_raiseFault (u.mismatchBlamed n) hk
  generalize u.mismatchBlamed n = v at ht hscr hbad hblamed hreg hfault
  rw [← ht] at hfault
  have hget : ∀ {f : Fld} {o : Nat}, f.addr = reg 4 p o → o < 0x10000 ∧ o ≠ 0x64 → t.get f = u.get f := fun hf ho => by
    rw [hfault.get (by rw [hf]; exact compare_not_fault hp ho), State.get, State.get, hreg]
  obtain ⟨hbit, hcount, hfirst⟩ := hshows
  refine ⟨⟨?_, (hget rfl (by decide)).trans hcount, fun hb => ?_⟩, ?_, ?_, ?_, ?_⟩
  · rw [State.bit, hget rfl (by decide)]
    exact hbit
  · rw [hget rfl (by decide), hget rfl (by decide), hget rfl (by decide)]
    exact hfirst hb
  · have hun : (t.scr n).unharmed = (v.scr n).unharmed := congrFun (congrArg Prod.snd hfault.rest) n
    have hu : u.scr n = s.scr n := congrArg Prod.snd hshown.rest
    rw [hun, hscr, hu]
    rfl
  · have hpipes : t.pipe (s.pipeOf n) = v.pipe (s.pipeOf n) :=
      congrArg (fun z : State × (Nat → ScreenState) => z.1.pipe (s.pipeOf n)) hfault.rest
    rw [hpipes, ← hpipe]
    exact hbad
  · have hlt : s.pipeOf n < 16 := State.get_lt s (Reg.XBAR_MAP_PIPE (s.portOf n))
    rw [ht, bit_cause_raiseFault v hk (by omega), decide_eq_true rfl, Bool.true_or]
  · exact ((hshown.view Prod.fst).mono fun _ => .inl).trans ((hblamed.mono fun _ => False.elim).trans
      ((hfault.view fun z : State × (Nat → ScreenState) => z.1.scene).mono fun _ => .inr))

end

end Sys2Proof.Machine
end

section
/-! SUPPORT. The line that the port sends, pixel by pixel (R184, R185, R193). -/

namespace Sys2Proof.Machine

-- one proof after another: each thread of a proof takes its share of the check's memory
set_option Elab.async false

/-- The pixels that the pipe hands over for a line, with the faults of a scan. -/
def State.handedOver (s : State) (n y : Nat) (faults : List (Nat × Word)) : List (Word × Bool) :=
  ((((s.scr n).composed.find? (·.1 == y)).map (·.2)).getD []).zipIdx.map fun p =>
    match faults.find? (fun f => f.1 == p.2) with | some f => (f.2, p.1.2) | none => p.1

/-- The pixels of a line at the port. -/
def State.portPixels (s : State) (n y : Nat) (faults : List (Nat × Word)) : List PortPixel :=
  (s.handedOver n y faults).zipIdx.map fun p => s.portPixel n y p.2 p.1.1 p.1.2

/-- The record of a screen that has sent a line. -/
def State.sentRecord (s : State) (n y : Nat) (faults : List (Nat × Word)) : State :=
  let r := s.scr n
  s.setScr n { r with sent := if (s.port (s.portOf n)).video then (s.portPixels n y faults).map (·.word) else [],
                      sig := sigLine r.sig ((s.handedOver n y faults).map (·.1)),
                      compared := r.compared && !(s.portPixels n y faults).any (·.skipped), composed := r.composed.filter (·.1 != y),
                      tiles := r.tiles.filter (fun t => decide (y < (s.actRect n (t.1 / 2 ^ 24)).y + t.1 % 2 ^ 24 / 64)) }

/-- The first pixel of a line at which the pipe disagrees. -/
def State.firstDiffers (s : State) (n y : Nat) (faults : List (Nat × Word)) : Option Nat :=
  ((s.portPixels n y faults).zipIdx.find? (·.1.differs)).map (·.2)

theorem sendLine_eq (s : State) (n y : Nat) (faults : List (Nat × Word)) : s.sendLine n y faults =
    match (s.composeNow n y).firstDiffers n y faults with
    | some x => if ((s.composeNow n y).scr n).mode = 0 then ((s.composeNow n y).sentRecord n y faults).portMismatch n y x
        else (s.composeNow n y).sentRecord n y faults
    | none => (s.composeNow n y).sentRecord n y faults := by
  have h : s.sendLine n y faults = match ((s.composeNow n y).portPixels n y faults).zipIdx.find? (·.1.differs) with
      | some (_, x) => if ((s.composeNow n y).scr n).mode = 0 then ((s.composeNow n y).sentRecord n y faults).portMismatch n y x
          else (s.composeNow n y).sentRecord n y faults
      | none => (s.composeNow n y).sentRecord n y faults := rfl
  rw [h, State.firstDiffers]
  cases ((s.composeNow n y).portPixels n y faults).zipIdx.find? (·.1.differs) <;> rfl

section
variable (s : State) {n : Nat} (hn : n < 8) (y : Nat) (faults : List (Nat × Word))

theorem scr_sentRecord : (s.sentRecord n y faults).scr n = { s.scr n with
    sent := if (s.port (s.portOf n)).video then (s.portPixels n y faults).map (·.word) else [],
    sig := sigLine (s.scr n).sig ((s.handedOver n y faults).map (·.1)),
    compared := (s.scr n).compared && !(s.portPixels n y faults).any (·.skipped), composed := (s.scr n).composed.filter (·.1 != y),
    tiles := (s.scr n).tiles.filter (fun t => decide (y < (s.actRect n (t.1 / 2 ^ 24)).y + t.1 % 2 ^ 24 / 64)) } := by
  rw [State.sentRecord, scr_setScr, if_pos rfl]

theorem within_sentRecord : s.Within (fun _ => False) State.scene (s.sentRecord n y faults) := within_setScr_scene s _

theorem sendLine_cases : s.sendLine n y faults = (s.composeNow n y).sentRecord n y faults ∨
    ∃ x, s.sendLine n y faults = ((s.composeNow n y).sentRecord n y faults).portMismatch n y x := by
  rw [sendLine_eq]
  split
  · next x _ =>
    split
    · exact .inr ⟨x, rfl⟩
    · exact .inl rfl
  · exact .inl rfl

include hn in
/-- What the sending of a line leaves of its composition: what is sent, and the line no longer stands in the output buffer. -/
theorem sendLine_leads :
    let a := s.composeNow n y
    let t := s.sendLine n y faults
    (t.scr n).sent = (if (a.port (a.portOf n)).video then (a.portPixels n y faults).map (·.word) else []) ∧
      (t.scr n).composed = (a.scr n).composed.filter (·.1 != y) ∧ a.Within missPlace State.scene t := by
  intro a t
  have ht : t = a.sentRecord n y faults ∨ ∃ x, t = (a.sentRecord n y faults).portMismatch n y x := sendLine_cases s y faults
  clear_value t a
  have hsent : ((a.sentRecord n y faults).scr n).sent = if (a.port (a.portOf n)).video then (a.portPixels n y faults).map (·.word) else [] :=
    congrArg ScreenState.sent (scr_sentRecord a (n := n) y faults)
  have hcomposed : ((a.sentRecord n y faults).scr n).composed = (a.scr n).composed.filter (·.1 != y) :=
    congrArg ScreenState.composed (scr_sentRecord a (n := n) y faults)
  have hscene := (within_sentRecord a (n := n) y faults).mono (B := missPlace) fun _ => False.elim
  rw [← hsent, ← hcomposed]
  generalize a.sentRecord n y faults = b at ht hscene
  rcases ht with rfl | ⟨x, rfl⟩
  · exact ⟨rfl, rfl, hscene⟩
  · obtain ⟨-, hun, -, -, hmiss⟩ := portMismatch_leads b hn y x
    exact ⟨(congrArg ScreenState.sent hun :), (congrArg ScreenState.composed hun :), hscene.trans hmiss⟩

end

/-! ### What the start of a line does not change -/

theorem screen_not_status {n o : Nat} (ho : o ≠ 0x30) : ¬ (reg 2 n o = Reg.SCREEN_STATUS n) := by
  simp only [Reg.SCREEN_STATUS, reg]
  omega

theorem high_not_status {n u i o : Nat} (hn : n < 8) (hu : 3 ≤ u) : ¬ (reg u i o = Reg.SCREEN_STATUS n) := by
  simp only [Reg.SCREEN_STATUS, reg]
  omega

namespace State.Within
variable {s t : State} {n : Nat} (h : s.Within (· = Reg.SCREEN_STATUS n) State.opened t)
include h

theorem scrOpened (k : Nat) : { t.scr k with blanking := false, frameDrum := 0 } = { s.scr k with blanking := false, frameDrum := 0 } :=
  (congrArg (fun x : State × (Nat → ScreenState) × (Nat → Option Nat) => x.2.1 k) h.rest :)

theorem forcedOpened (p : Nat) : (t.port p).forced = (s.port p).forced :=
  (congrArg (fun x : State × (Nat → ScreenState) × (Nat → Option Nat) => x.2.2 p) h.rest :)

theorem protOpened (k : Nat) : t.prot k = s.prot k :=
  (congrArg (fun x : State × (Nat → ScreenState) × (Nat → Option Nat) => x.1.prot k) h.rest :)

theorem linkBitsOpened : t.linkBits n = s.linkBits n := by
  rw [State.linkBits, State.linkBits, h.bit (screen_not_status (by decide))]

theorem portOpened : t.portOf n = s.portOf n := h.get (screen_not_status (by decide))

theorem frameOpened : t.frame n = s.frame n := h.get (screen_not_status (by decide))

theorem lutOpened (c k : Nat) : t.lut n c k = s.lut n c k := by
  unfold State.lut State.lutAddr
  rw [h.bit (screen_not_status (by decide))]
  split <;> rw [h.reg _ (screen_not_status (by omega))]

theorem gammaOpened (c : Nat) (v : Int) : t.gamma n c v = s.gamma n c v := by
  unfold State.gamma
  simp only [h.lutOpened, h.bit (f := Reg.SCREEN_ACT_OUT_CTRL_GAMMA_EN n) (screen_not_status (by decide))]

/-- R163 to R168: a pixel is put out the same. -/
theorem outPixelOpened (frame x line : Nat) (p : Px) : t.outPixel n frame x line p = s.outPixel n frame x line p := by
  unfold State.outPixel matrixPx
  simp (disch := exact screen_not_status (by omega)) only [h.gammaOpened, h.linkBitsOpened, h.bit, h.get, h.reg]

section
variable (hn : n < 8)
include hn

theorem liveRectsOpened (k : Nat) : t.liveRects k = s.liveRects k := by
  rw [State.liveRects, State.liveRects, h.bit (high_not_status hn (by decide)), h.get (high_not_status hn (by decide))]

theorem actRectOpened (m k : Nat) : t.actRect m k = s.actRect m k := by
  unfold State.actRect
  simp (disch := exact high_not_status hn (by decide)) only [h.get]

theorem rectAtOpened (x y : Nat) : t.rectAt n x y = s.rectAt n x y := by
  simp only [State.rectAt, h.liveRectsOpened hn, h.actRectOpened hn]

theorem wholeOpened : t.whole n = s.whole n := by
  have hscr := h.scrOpened n
  have hc2 : (t.scr n).c2 = (s.scr n).c2 := (congrArg ScreenState.c2 hscr :)
  have hc3 : (t.scr n).c3 = (s.scr n).c3 := (congrArg ScreenState.c3 hscr :)
  rw [State.whole, State.whole, h.bit (high_not_status hn (by decide)), hc2, hc3, h.portOpened, h.forcedOpened]

omit hn in
theorem rectReasonOpened (k line : Nat) : t.rectReason n k line = s.rectReason n k line := by
  have hcauses : (t.scr n).causes = (s.scr n).causes := (congrArg ScreenState.causes (h.scrOpened n) :)
  rw [State.rectReason, State.rectReason, hcauses]

/-- R181: the sextant's value of a pixel is the same. -/
theorem sextantPixelOpened (k x y : Nat) : t.sextantPixel n k x y = s.sextantPixel n k x y := by
  have htiles : (t.scr n).tiles = (s.scr n).tiles := (congrArg ScreenState.tiles (h.scrOpened n) :)
  have hformat := h.bit (f := Reg.PROT_ACT_CTRL_FORMAT n) (high_not_status hn (by decide))
  have hrow : t.tileRow n = s.tileRow n := by
    funext key
    rw [State.tileRow, State.tileRow, htiles]
  unfold State.sextantPixel State.protBytes State.protUnpack
  simp only [hrow, hformat, h.actRectOpened hn, h.frameOpened, h.protOpened, h.outPixelOpened]

end

end State.Within

/-! ### A pixel at the port -/

/-- R185: the sextant's value of a pixel that it verifies. -/
def State.verifiedPixel (s : State) (n y x : Nat) : Option Word :=
  match s.rectAt n x y with
  | some k => if (s.rectReason n k y).isNone && (s.scr n).mode != 2 then s.sextantPixel n k x y else none
  | none => none

/-- R185: whether the pipe's pixel is sent as it is. -/
def State.pipePixel (s : State) (n y x : Nat) : Prop :=
  s.rectAt n x y = none ∨ ((∃ k, s.rectAt n x y = some k ∧ s.rectReason n k y = none) ∧ (s.scr n).mode = 2)

section
variable {s : State} {n y x : Nat} (hw : s.whole n = .none) (pipe : Word) (lacks : Bool)
include hw

/-- R185: the pipe disagrees at the pixels that the sextant verifies alone. -/
theorem portPixel_differs : (s.portPixel n y x pipe lacks).differs = (s.verifiedPixel n y x).any fun w => !lacks && w != pipe := by
  unfold State.portPixel State.verifiedPixel
  rw [hw]
  cases hr : s.rectAt n x y with
  | none => rfl
  | some k =>
    cases hc : s.rectReason n k y with
    | some c => simp [hc]
    | none =>
      by_cases hm : (s.scr n).mode = 2
      · simp [hc, hm]
      · cases hv : s.sextantPixel n k x y <;> simp [hc, hm, hv]

/-- R185: the port sends the sextant's value of a pixel that it verifies. -/
theorem portPixel_verified {w : Word} (hv : s.verifiedPixel n y x = some w) : (s.portPixel n y x pipe lacks).word = w := by
  unfold State.verifiedPixel at hv
  unfold State.portPixel
  rw [hw]
  cases hr : s.rectAt n x y with
  | none => simp [hr] at hv
  | some k =>
    cases hc : s.rectReason n k y with
    | some c => simp [hr, hc] at hv
    | none =>
      by_cases hm : (s.scr n).mode = 2
      · simp [hr, hc, hm] at hv
      · cases hp : s.sextantPixel n k x y <;> simp [hr, hc, hm, hp] at hv ⊢
        exact hv

theorem portPixel_pipe (hp : s.pipePixel n y x) : (s.portPixel n y x pipe lacks).word = pipe := by
  unfold State.portPixel
  rw [hw]
  rcases hp with hr | ⟨⟨k, hr, hc⟩, hm⟩
  · rw [hr]
  · simp [hr, hc, hm]

end

namespace State.Within
variable {s t : State} {n : Nat} (h : s.Within (· = Reg.SCREEN_STATUS n) State.opened t) (hn : n < 8)
include h

theorem modeOpened : (t.scr n).mode = (s.scr n).mode := (congrArg ScreenState.mode (h.scrOpened n) :)

include hn

theorem verifiedOpened (y x : Nat) : t.verifiedPixel n y x = s.verifiedPixel n y x := by
  simp only [State.verifiedPixel, h.rectAtOpened hn, h.rectReasonOpened, h.modeOpened, h.sextantPixelOpened hn]

theorem pipePixelOpened (y x : Nat) : t.pipePixel n y x ↔ s.pipePixel n y x := by
  simp only [State.pipePixel, h.rectAtOpened hn, h.rectReasonOpened, h.modeOpened]

end State.Within

end Sys2Proof.Machine
end

section
/-! SUPPORT. The line that the port sends of a line that stands in the output buffer (R184, R185, R193). -/

namespace Sys2Proof.Machine

-- one proof after another: each thread of a proof takes its share of the check's memory
set_option Elab.async false

/-- A list that is read by the numbers of its places. -/
theorem map_zipIdx_eq_range {α β : Type} (l : List α) (d : α) (f : α × Nat → β) :
    l.zipIdx.map f = (List.range l.length).map fun i => f (l.getD i d, i) := by
  refine List.ext_getElem (by simp) fun i h _ => ?_
  simp only [List.length_map, List.length_zipIdx] at h
  simp [h]

theorem getD_map_range {β : Type} {N i : Nat} (f : Nat → β) (d : β) (h : i < N) : ((List.range N).map f).getD i d = f i := by
  simp [h]

section
variable {s : State} {n y : Nat} {px : List (Word × Bool)} (hc : (s.scr n).composed.find? (·.1 == y) = some (y, px)) (faults : List (Nat × Word))

/-- The pipe's value of a pixel, with the faults of a scan. -/
def faultyPixel (px : List (Word × Bool)) (faults : List (Nat × Word)) (x : Nat) : Word × Bool :=
  match faults.find? (fun f => f.1 == x) with
  | some f => (f.2, (px.getD x (0, false)).2)
  | none => px.getD x (0, false)

include hc

theorem composeNow_stands : s.composeNow n y = s := by
  have h : s.composedLine n y = true := by rw [State.composedLine, ← List.isSome_find?, hc]; rfl
  rw [State.composeNow, if_pos h]

theorem handedOver_eq : s.handedOver n y faults = (List.range px.length).map (faultyPixel px faults) := by
  rw [State.handedOver, hc, map_zipIdx_eq_range _ (0, false)]
  rfl

theorem portPixels_eq : s.portPixels n y faults =
    (List.range px.length).map fun x => s.portPixel n y x (faultyPixel px faults x).1 (faultyPixel px faults x).2 := by
  rw [State.portPixels, handedOver_eq hc, map_zipIdx_eq_range _ (0, false), List.length_map, List.length_range]
  refine List.map_congr_left fun x hx => ?_
  rw [getD_map_range _ _ (List.mem_range.1 hx)]

theorem firstDiffers_eq : s.firstDiffers n y faults = (List.range px.length).find? fun x =>
    (s.portPixel n y x (faultyPixel px faults x).1 (faultyPixel px faults x).2).differs := by
  have hlen : (s.portPixels n y faults).length = px.length := by rw [portPixels_eq hc, List.length_map, List.length_range]
  rw [State.firstDiffers, ← List.map_id (s.portPixels n y faults).zipIdx, map_zipIdx_eq_range _ ⟨0, false, false⟩, hlen, List.find?_map,
    Option.map_map]
  refine (Option.map_id' (x := List.find? _ _)).trans (List.find?_congr fun x hx => ?_)
  rw [Function.comp, portPixels_eq hc, id, getD_map_range _ _ (List.mem_range.1 hx)]

end

/-! ### The line sent -/

section
variable (s : State) {n y : Nat} {px : List (Word × Bool)} (hc : (s.scr n).composed.find? (·.1 == y) = some (y, px)) (faults : List (Nat × Word))
include hc

theorem sendLine_sent (hn : n < 8) : ((s.sendLine n y faults).scr n).sent =
    if (s.port (s.portOf n)).video then
      (List.range px.length).map fun x => (s.portPixel n y x (faultyPixel px faults x).1 (faultyPixel px faults x).2).word
    else [] := by
  have h := (sendLine_leads s hn y faults).1
  rw [composeNow_stands hc, portPixels_eq hc, List.map_map] at h
  exact h

/-- R185: where the pipe disagrees at no pixel that the sextant verifies, or not for the first time in the frame, no mismatch arises. -/
theorem sendLine_agrees (h : (List.range px.length).filter (fun x =>
      (s.portPixel n y x (faultyPixel px faults x).1 (faultyPixel px faults x).2).differs) = [] ∨ (s.scr n).mode ≠ 0) :
    s.sendLine n y faults = s.sentRecord n y faults := by
  rw [sendLine_eq, composeNow_stands hc]
  rcases h with h | h
  · rw [firstDiffers_eq hc, ← List.head?_filter, h]
    rfl
  · split
    · exact if_neg h
    · rfl

/-- R185: the first pixel at which the pipe disagrees. -/
theorem sendLine_differs (h : (List.range px.length).filter (fun x =>
      (s.portPixel n y x (faultyPixel px faults x).1 (faultyPixel px faults x).2).differs) ≠ []) (hm : (s.scr n).mode = 0) :
    s.sendLine n y faults = (s.sentRecord n y faults).portMismatch n y (((List.range px.length).filter fun x =>
      (s.portPixel n y x (faultyPixel px faults x).1 (faultyPixel px faults x).2).differs).headD 0) := by
  rw [sendLine_eq, composeNow_stands hc, firstDiffers_eq hc, ← List.head?_filter]
  generalize (List.range px.length).filter (fun x => (s.portPixel n y x (faultyPixel px faults x).1 (faultyPixel px faults x).2).differs) = l at h ⊢
  cases l with
  | nil => exact absurd rfl h
  | cons x xs => exact if_pos hm

end

end Sys2Proof.Machine
end

section
/-! SUPPORT. A line's scan-out as a whole: what it shows and sends (R69, R78, R92, R118, R184, R185, R193). -/

namespace Sys2Proof.Machine

-- one proof after another: each thread of a proof takes its share of the check's memory
set_option Elab.async false

/-- The places that the scan-out of a line may write, but for the screen's status. -/
def linePlace (a : Nat) : Prop := composePlace a ∨ missPlace a

theorem screen_not_line {n o : Nat} (hn : n < 8) (ho : o < 0x10000) : ¬ linePlace (reg 2 n o) := by
  simp only [linePlace, composePlace, markPlace, quietPlace, missPlace, comparePlace, faultPlace, Reg.LOG_COUNTS, reg]
  omega

theorem port_not_compose {p o : Nat} (hp : p < 8) (ho : o < 0x10000) : ¬ composePlace (reg 4 p o) := by
  simp only [composePlace, markPlace, quietPlace, Reg.LOG_COUNTS, reg]
  omega

theorem missPlace_not_mark {a : Nat} (h : missPlace a) : ¬ markPlace a := by
  simp only [missPlace, comparePlace, faultPlace, markPlace] at h ⊢
  omega

theorem linePlace_not_scene {a : Nat} (h : linePlace a) : ¬ scenePlace a := by
  simp only [linePlace, composePlace, markPlace, quietPlace, missPlace, comparePlace, faultPlace, scenePlace, Reg.LOG_COUNTS, reg] at h ⊢
  omega

/-- What is sent is a view that sees nothing of what follows. -/
theorem sent_scanBlind : ScanBlind ScreenState.sent :=
  ⟨⟨⟨fun _ _ _ => rfl⟩, fun _ _ => rfl⟩, fun _ _ => rfl, fun _ _ => rfl, fun _ _ => rfl⟩

/-- A screen's state in the comparison of a frame. -/
def ScreenState.comparison (r : ScreenState) : Nat × Bool × Bool := (r.mode, r.mismatch, r.needPipe)

theorem comparison_scanBlind : ScanBlind ScreenState.comparison :=
  ⟨⟨⟨fun _ _ _ => rfl⟩, fun _ _ => rfl⟩, fun _ _ => rfl, fun _ _ => rfl, fun _ _ => rfl⟩

section
variable (s : State) {n : Nat} (hn : n < 8) (y vActive : Nat) (last : Bool) (late : List LateLayer) (bare : Bool) (ns yi : Nat)
  (faults : List (Nat × Word))

include hn in
/-- The sending of a line, with its composition where it does not stand. -/
theorem scan_lineSent : s.Scan linePlace State.scene (s.lineSent n y vActive faults) := by
  unfold State.lineSent
  refine .ite (fun _ => ?_) fun _ => ?_
  · have hnow := (scene_of_beside (scan_composeNow s (n := n) y sent_scanBlind.toComposeBlind)).mono (B := linePlace) fun _ => .inl
    exact hnow.quiet (sendLine_leads s hn y faults).2.2 (fun _ => .inr) fun _ => missPlace_not_mark
  · exact (State.Scan.refl _ _ s).quiet (within_setScr_scene s _) (fun _ => False.elim) fun _ => False.elim

/-- What follows the sending of a line, up to its place in the logbook's queue. -/
theorem scan_lineAfter {β : Type} {g : ScreenState → β} (hg : ScanBlind g) (s0 : State) :
    s.Scan composePlace (State.beside g) (((s.lineSettled n y vActive last late bare ns yi).windowLine n y).inOrder s0) := by
  have h := (scan_lineSettled hg s n y vActive last late bare ns yi).trans (scan_windowLine _ (n := n) y hg)
  exact ⟨h.within.inOrder s0, h.marked.trans (.of_reg fun _ _ => rfl)⟩

end

section
variable (s : State) {n : Nat} (hn : n < 8) (hrun : s.running n = true) (hgap : (s.scr n).gap = false) (y : Nat) (last : Bool)
  (late : List LateLayer) (bare : Bool) (ns yi : Nat) (faults : List (Nat × Word))
include hrun hgap

/-- The sent line of a screen that runs, and what follows. -/
theorem scanLine_runs {β : Type} {g : ScreenState → β} (hg : ScanBlind g) :
    ((s.lineBegins n y).lineSent n y (s.timing n).vActive faults).Scan composePlace (State.beside g)
      (s.scanLine n y last late bare ns yi faults) := by
  have h : (!s.running n || (s.scr n).gap) = false := by rw [hrun, hgap]; rfl
  rw [scanLine_eq, h, if_neg Bool.false_ne_true]
  exact scan_lineAfter _ y _ last late bare ns yi hg s

/-- What is sent stands until the next line. -/
theorem scanLine_sent : ((s.scanLine n y last late bare ns yi faults).scr n).sent =
    (((s.lineBegins n y).lineSent n y (s.timing n).vActive faults).scr n).sent :=
  scr_of_beside (scanLine_runs s hrun hgap y last late bare ns yi faults sent_scanBlind).within n

/-- Nothing is sent in the blanking. -/
theorem scanLine_dark (hy : (s.timing n).vActive ≤ y) : ((s.scanLine n y last late bare ns yi faults).scr n).sent = [] := by
  rw [scanLine_sent s hrun hgap, State.lineSent, if_neg (Nat.not_lt.2 hy), scr_setScr, if_pos rfl]

include hn

/-- From a line's start on. -/
theorem scanLine_scan : (s.lineBegins n y).Scan linePlace State.scene (s.scanLine n y last late bare ns yi faults) :=
  (scan_lineSent _ hn y _ faults).trans ((scene_of_beside (scanLine_runs s hrun hgap y last late bare ns yi faults sent_scanBlind)).mono fun _ => .inl)

/-- R69, R78: LINE shows the line, FRAME stays, and no byte of memory changes. -/
theorem scanLine_shows : (s.scanLine n y last late bare ns yi faults).get (Reg.SCREEN_STATUS_LINE n) = y % 2 ^ 14 ∧
    (s.scanLine n y last late bare ns yi faults).frame n = s.frame n ∧ s.SameBytes (s.scanLine n y last late bare ns yi faults) := by
  have hopen := within_lineBegins s (n := n) y
  have h := (scanLine_scan s hn hrun hgap y last late bare ns yi faults).within
  have hscene : (s.scanLine n y last late bare ns yi faults).scene = s.scene :=
    h.rest.trans (congrArg (fun x : State × (Nat → ScreenState) × (Nat → Option Nat) => x.1.scene) hopen.rest :)
  refine ⟨(h.get (screen_not_line hn (by decide))).trans (line_lineBegins s y), ?_, ?_⟩
  · exact (h.get (screen_not_line hn (by decide))).trans (hopen.get (screen_not_status (by decide)))
  · exact sameBytes_of_eq (congrArg State.memA hscene :) (congrArg State.memB hscene :) (congrArg State.sram hscene :) (congrArg State.flash hscene :)

end

/-! ### A line that stands in the output buffer -/

/-- The pixels of a line at which the pipe's value, with the faults of a scan, is another than the sextant's. -/
def State.differsAt (s : State) (n y : Nat) (px : List (Word × Bool)) (faults : List (Nat × Word)) : List Nat :=
  (List.range px.length).filter fun x =>
    (s.verifiedPixel n y x).any fun w => !(faultyPixel px faults x).2 && w != (faultyPixel px faults x).1

section
variable (s : State) {n : Nat} (hn : n < 8) (hrun : s.running n = true) (hgap : (s.scr n).gap = false) {y : Nat} (last : Bool)
  (late : List LateLayer) (bare : Bool) (ns yi : Nat) (faults : List (Nat × Word)) (hy : y < (s.timing n).vActive)
  {px : List (Word × Bool)} (hc : (s.scr n).composed.find? (·.1 == y) = some (y, px)) (hw : s.whole n = .none)
include hc in
/-- The line stands where its scan-out starts. -/
theorem find?_lineBegins : ((s.lineBegins n y).scr n).composed.find? (·.1 == y) = some (y, px) := by
  have h : ((s.lineBegins n y).scr n).composed = (s.scr n).composed :=
    (congrArg ScreenState.composed ((within_lineBegins s (n := n) y).scrOpened n) :)
  rw [h, hc]

include hn hy hc in
/-- What is sent of a line that stands. -/
theorem lineSent_sent : (((s.lineBegins n y).lineSent n y (s.timing n).vActive faults).scr n).sent =
    if (if y = 0 then s.bit (Reg.DPO_LINK_STATUS_LINK_OK (s.portOf n)) else (s.port (s.portOf n)).video) then
      (List.range px.length).map fun x =>
        ((s.lineBegins n y).portPixel n y x (faultyPixel px faults x).1 (faultyPixel px faults x).2).word
    else [] := by
  rw [State.lineSent, if_pos hy, sendLine_sent _ (find?_lineBegins s hc) faults hn, (within_lineBegins s (n := n) y).portOpened,
    video_lineBegins]

include hn hw in
/-- The pixels at which the pipe disagrees at the port. -/
theorem portDiffers_eq : (List.range px.length).filter (fun x =>
      ((s.lineBegins n y).portPixel n y x (faultyPixel px faults x).1 (faultyPixel px faults x).2).differs) = s.differsAt n y px faults := by
  have hopen := within_lineBegins s (n := n) y
  refine List.filter_congr fun x _ => ?_
  rw [portPixel_differs ((hopen.wholeOpened hn).trans hw), hopen.verifiedOpened hn]

include hn hrun hgap hy hc hw

/-- R185: what the port sends of a line with no whole harbour image: the sextant's value of the pixels that it verifies, and the pipe's of
those that it leaves to the pipe. -/
theorem scanLine_pixels (hv : (if y = 0 then s.bit (Reg.DPO_LINK_STATUS_LINK_OK (s.portOf n)) else (s.port (s.portOf n)).video) = true) :
    ((s.scanLine n y last late bare ns yi faults).scr n).sent.length = px.length ∧ ∀ x < px.length,
      (∀ w, s.verifiedPixel n y x = some w → ((s.scanLine n y last late bare ns yi faults).scr n).sent.getD x 0 = w) ∧
      (s.pipePixel n y x → ((s.scanLine n y last late bare ns yi faults).scr n).sent.getD x 0 = (faultyPixel px faults x).1) := by
  have hopen := within_lineBegins s (n := n) y
  have hw' : (s.lineBegins n y).whole n = .none := (hopen.wholeOpened hn).trans hw
  rw [scanLine_sent s hrun hgap, lineSent_sent s hn faults hy hc, hv, if_pos rfl]
  refine ⟨by rw [List.length_map, List.length_range], fun x hx => ?_⟩
  rw [getD_map_range _ _ hx]
  refine ⟨fun w hver => portPixel_verified hw' _ _ ?_, fun hp => portPixel_pipe hw' _ _ ?_⟩
  · rw [hopen.verifiedOpened hn, hver]
  · exact (hopen.pipePixelOpened hn y x).2 hp

/-- R185: where the pipe disagrees at no pixel, or not for the first time in the frame, the port's comparison stays as it was. -/
theorem scanLine_agrees (h : s.differsAt n y px faults = [] ∨ (s.scr n).mode ≠ 0) {p : Nat} (hp : p < 8) :
    (∀ o < 0x10000, (s.scanLine n y last late bare ns yi faults).reg (reg 4 p o) = s.reg (reg 4 p o)) ∧
      ((s.scanLine n y last late bare ns yi faults).scr n).mode = (s.scr n).mode := by
  have hopen := within_lineBegins s (n := n) y
  have hafter := scanLine_runs s hrun hgap y last late bare ns yi faults comparison_scanBlind
  have hmode := congrArg Prod.fst (scr_of_beside hafter.within n)
  have hsent := sendLine_agrees (s.lineBegins n y) (find?_lineBegins s hc) faults
    (by rw [portDiffers_eq s hn faults hw, hopen.modeOpened]; exact h)
  rw [State.lineSent, if_pos hy, hsent] at hafter hmode
  refine ⟨fun o ho => ?_, Eq.trans hmode ?_⟩
  · rw [hafter.within.reg _ (port_not_compose hp ho), (within_sentRecord _ y faults).reg _ not_false,
      hopen.reg _ (high_not_status hn (by decide))]
  · exact (congrArg ScreenState.mode (scr_sentRecord _ y faults)).trans hopen.modeOpened

/-- R185, R196: the first mismatch of a frame. -/
theorem scanLine_differs (h : s.differsAt n y px faults ≠ []) (hm : (s.scr n).mode = 0) :
    let t := s.scanLine n y last late bare ns yi faults
    let p := s.portOf n
    t.bit (Reg.DPO_CMP_STATUS_PIPE_MISMATCH p) = true ∧ (t.scr n).mode = 1 ∧ (t.scr n).mismatch = true ∧ (t.scr n).needPipe = true ∧
      t.get (Reg.DPO_CMP_COUNT_MISMATCH_FRAMES p) = s.more (Reg.DPO_CMP_COUNT_MISMATCH_FRAMES p) ∧
      (t.pipe (s.pipeOf n)).mismatch = true ∧ t.bit (Reg.FLT_IN_STATUS_CAUSE (32 + s.pipeOf n)) = true ∧
      (s.bit (Reg.DPO_CMP_STATUS_PIPE_MISMATCH p) = false → t.get (Reg.DPO_CMP_FIRST_LINE p) = y % 2 ^ 14 ∧
        t.get (Reg.DPO_CMP_FIRST_X p) = (s.differsAt n y px faults).headD 0 % 2 ^ 13 ∧
        t.get (Reg.DPO_CMP_FIRST_FRAME_FRAME p) = s.frame n % 2 ^ 32) := by
  intro t p
  have hp : p < 8 := State.get_lt s (Reg.SCREEN_CTRL_PORT n)
  have hopen := within_lineBegins s (n := n) y
  have hafter := scanLine_runs s hrun hgap y last late bare ns yi faults comparison_scanBlind
  rw [State.lineSent, if_pos hy, sendLine_differs (s.lineBegins n y) (find?_lineBegins s hc) faults (by rwa [portDiffers_eq s hn faults hw])
    (hopen.modeOpened.trans hm), portDiffers_eq s hn faults hw] at hafter
  change State.Scan _ _ _ t at hafter
  clear_value t
  have hreg : ∀ a, ¬ (a = Reg.SCREEN_STATUS n) → ((s.lineBegins n y).sentRecord n y faults).reg a = s.reg a := fun a ha =>
    ((within_sentRecord _ y faults).reg a not_false).trans (hopen.reg a ha)
  generalize (s.lineBegins n y).sentRecord n y faults = b at hafter hreg
  have hget : ∀ {f : Fld}, ¬ (f.addr = Reg.SCREEN_STATUS n) → b.get f = s.get f := fun hf => by rw [State.get, State.get, hreg _ hf]
  have hport : b.portOf n = p := hget (screen_not_status (by decide))
  have hpipe : b.pipeOf n = s.pipeOf n := by
    rw [State.pipeOf, State.pipeOf, hport]
    exact hget (high_not_status hn (by decide))
  have hmiss := portMismatch_leads b hn y ((s.differsAt n y px faults).headD 0)
  dsimp only at hmiss
  have hmore : b.more (Reg.DPO_CMP_COUNT_MISMATCH_FRAMES p) = s.more (Reg.DPO_CMP_COUNT_MISMATCH_FRAMES p) := by
    rw [State.more, State.more, hget (high_not_status hn (by decide))]
  have hbefore : b.bit (Reg.DPO_CMP_STATUS_PIPE_MISMATCH p) = s.bit (Reg.DPO_CMP_STATUS_PIPE_MISMATCH p) := by
    rw [State.bit, State.bit, hget (high_not_status hn (by decide))]
  have hframe : b.frame n = s.frame n := hget (screen_not_status (by decide))
  rw [hport, hpipe, hmore, hbefore, hframe] at hmiss
  generalize b.portMismatch n y ((s.differsAt n y px faults).headD 0) = u at hafter hmiss
  obtain ⟨⟨hbit, hcount, hfirst⟩, hun, hbad, hcause, -⟩ := hmiss
  have hscr := scr_of_beside hafter.within n
  have hdpo : ∀ {f : Fld} {o : Nat}, f.addr = reg 4 p o → o < 0x10000 → t.get f = u.get f := fun hf ho =>
    hafter.within.get (by rw [hf]; exact port_not_compose hp ho)
  have hlt : s.pipeOf n < 16 := State.get_lt s (Reg.XBAR_MAP_PIPE (s.portOf n))
  have hin : ¬ composePlace (Reg.FLT_IN_STATUS (32 + s.pipeOf n)) := by
    simp only [composePlace, markPlace, quietPlace, Reg.LOG_COUNTS, Reg.FLT_IN_STATUS, reg]
    omega
  refine ⟨?_, ?_, ?_, ?_, (hdpo rfl (by decide)).trans hcount, ?_, ?_, fun hb => ?_⟩
  · rw [State.bit, hdpo rfl (by decide)]
    exact hbit
  · exact (congrArg Prod.fst hscr :).trans (congrArg ScreenState.mode hun :)
  · exact (congrArg (·.2.1) hscr :).trans (congrArg ScreenState.mismatch hun :)
  · exact (congrArg (·.2.2) hscr :).trans (congrArg ScreenState.needPipe hun :)
  · rw [pipe_of_beside hafter.within, hbad]
  · rw [hafter.within.bit hin, hcause]
  · rw [hdpo rfl (by decide), hdpo rfl (by decide), hdpo rfl (by decide)]
    exact hfirst hb

end

end Sys2Proof.Machine
end

section
/-! SUPPORT. The lines that stand in the output buffer after a line's scan-out, and a layer that is late (R37, R118, R119, R213). -/

namespace Sys2Proof.Machine

-- one proof after another: each thread of a proof takes its share of the check's memory
set_option Elab.async false

theorem State.SameScene.trans {s t u : State} (h : s.SameScene t) (h' : t.SameScene u) : s.SameScene u :=
  ⟨fun a ha => (h'.reg a ha).trans (h.reg a ha), fun l hl => (h'.frozen l hl).trans (h.frozen l hl),
    fun l hl => (h'.ready l hl).trans (h.ready l hl), h'.rest.trans h.rest⟩

theorem State.Scan.sameScene {A : Nat → Prop} {s t : State} (h : s.Scan A State.scene t) (hA : ∀ a, A a → ¬ scenePlace a) : s.SameScene t :=
  ⟨fun a ha => h.within.reg a fun hb => hA a hb ha, h.marked.frozen, h.marked.ready, h.within.rest⟩

section
variable (s : State) {n : Nat} (hn : n < 8) (y : Nat)

include hn in
theorem marked_lineBegins : s.Marked (s.lineBegins n y) := by
  refine .of_reg fun a ha => (within_lineBegins s (n := n) y).reg a fun e => ?_
  simp only [markPlace, e, Reg.SCREEN_STATUS, reg] at ha
  omega

include hn in
theorem scan_lineBegins : s.Scan (· = Reg.SCREEN_STATUS n) State.scene (s.lineBegins n y) :=
  ⟨(within_lineBegins s (n := n) y).view fun x : State × (Nat → ScreenState) × (Nat → Option Nat) => x.1.scene, marked_lineBegins s hn y⟩

include hn in
theorem sameScene_lineBegins : s.SameScene (s.lineBegins n y) :=
  (scan_lineBegins s hn y).sameScene fun a ha => by
    simp only [ha, scenePlace, Reg.SCREEN_STATUS, reg]
    omega

theorem timing_lineBegins : (s.lineBegins n y).timing n = s.timing n := by
  have hopen := within_lineBegins s (n := n) y
  unfold State.timing
  simp (disch := exact screen_not_status (by decide)) only [hopen.get]

theorem timing_of_line {β : Type} {q : State → β} {s t : State} (hn : n < 8) (h : s.Within linePlace q t) : t.timing n = s.timing n :=
  timing_congr fun o ho => h.reg _ (screen_not_line hn (by omega))

/-! ### The output buffer -/

theorem composed_lineBegins : ((s.lineBegins n y).scr n).composed = (s.scr n).composed :=
  (congrArg ScreenState.composed ((within_lineBegins s (n := n) y).scrOpened n) :)

include hn in
/-- A line that is sent no longer stands in the output buffer, and the others stand as they were. -/
theorem find?_sendLine (faults : List (Nat × Word)) (z : Nat) : ((s.sendLine n y faults).scr n).composed.find? (·.1 == z) =
    if z = y then none else (s.scr n).composed.find? (·.1 == z) := by
  rw [(sendLine_leads s hn y faults).2.1, List.find?_filter]
  split
  · next e =>
    refine List.find?_eq_none.2 fun p _ => ?_
    by_cases hp : p.1 = z <;> simp [hp, e]
  · next e =>
    rw [← (composeNow_composes s hn y).other e]
    refine List.find?_congr fun p _ => ?_
    by_cases hp : p.1 = z <;> simp [hp, e]

end

section
variable (s : State) {n : Nat} (hn : n < 8) (hrun : s.running n = true) (hgap : (s.scr n).gap = false) {y : Nat} (last : Bool)
  (late : List LateLayer) (bare : Bool) (ns yi : Nat) (faults : List (Nat × Word)) (hy : y + 1 < (s.timing n).vActive)

include hrun hgap hy in
/-- The scan-out of a line before the last: the line is sent, the next one is settled, and the one eight ahead is composed. -/
theorem scanLine_before : s.scanLine n y last late bare ns yi faults =
    ((((s.lineBegins n y).sendLine n y faults).settleLine n (y + 1) late bare ns yi).windowLine n y).inOrder s := by
  have h : (!s.running n || (s.scr n).gap) = false := by rw [hrun, hgap]; rfl
  rw [scanLine_eq, h, if_neg Bool.false_ne_true, State.lineSent, if_pos (by omega), State.lineSettled, if_pos hy,
    if_neg (by omega)]

include hn in
/-- Line `y` is sent: what stands in the output buffer then. -/
theorem find?_lineSent (z : Nat) : (((s.lineBegins n y).sendLine n y faults).scr n).composed.find? (·.1 == z) =
    if z = y then none else (s.scr n).composed.find? (·.1 == z) := by
  rw [find?_sendLine _ hn, composed_lineBegins]

include hn hrun hgap hy

/-- R118, R119: the lines that stand after a line's scan-out. -/
theorem scanLine_stands :
    let t := s.scanLine n y last late bare ns yi faults
    t.composedLine n (y + 1) = true ∧ t.composedLine n y = false ∧
      (s.composedLine n (y + 1) = false → ((t.scr n).composed.find? (·.1 == y + 1)).map (·.2.length) = some (s.timing n).hActive) ∧
      (y + 8 < (s.timing n).vActive → s.lineStarts n (y + 8) = false → t.composedLine n (y + 8) = true) := by
  intro t
  have ht : t = _ := scanLine_before s hrun hgap last late bare ns yi faults hy
  clear_value t
  have hfind := find?_lineSent s hn (y := y) faults
  have hsent : (s.lineBegins n y).Scan linePlace State.scene ((s.lineBegins n y).sendLine n y faults) := by
    have h := scan_lineSent (s.lineBegins n y) hn y (s.timing n).vActive faults
    rwa [State.lineSent, if_pos (by omega)] at h
  have hsettle := settleLine_composes ((s.lineBegins n y).sendLine n y faults) hn (y + 1) bare late ns yi
  have hscene := hsent.trans ((scene_of_beside (scan_settleLine ((s.lineBegins n y).sendLine n y faults) (n := n) (y + 1) bare late ns yi sent_scanBlind)).mono
    fun _ => .inl)
  have hstarts := ((sameScene_lineBegins s hn y).trans (hscene.sameScene fun _ => linePlace_not_scene)).lineStarts hn (y + 8)
  have htiming := (timing_of_line hn hscene.within).trans (timing_lineBegins s y)
  have htiming' := (timing_of_line hn hsent.within).trans (timing_lineBegins s y)
  generalize (s.lineBegins n y).sendLine n y faults = u at ht hfind hsettle hstarts htiming htiming'
  generalize u.settleLine n (y + 1) late bare ns yi = v at ht hsettle hstarts htiming
  have hwindow : v.windowLine n y = if y + 8 < (s.timing n).vActive then v.composeAhead n (y + 8) else v := by
    rw [State.windowLine, htiming, if_pos (by omega)]
  have hother : ∀ z ≠ y + 8, (t.scr n).composed.find? (·.1 == z) = (v.scr n).composed.find? (·.1 == z) := fun z hz => by
    rw [ht, hwindow]
    split
    · exact composeAhead_other v hn _ hz
    · rfl
  have hu : ∀ z ≠ y, u.composedLine n z = s.composedLine n z := fun z hz => composedLine_of_find ((hfind z).trans (if_neg hz))
  refine ⟨(composedLine_of_find (hother _ (by omega))).trans hsettle.self, ?_, fun hs => ?_, fun h8 hs => ?_⟩
  · have hnone := (hother y (by omega)).trans ((hsettle.other (by omega)).trans ((hfind y).trans (if_pos rfl)))
    rw [State.composedLine, ← List.isSome_find?, hnone]
    rfl
  · rw [hother _ (by omega), hsettle.length ((hu _ (by omega)).trans hs), htiming']
  · have hcomposes := composeAhead_composes v hn (y + 8) (hstarts.trans hs)
    rw [ht, hwindow, if_pos h8]
    exact hcomposes.self

end

/-! ### A late layer (R37, R119) -/

theorem queue_breach {s : State} (h : s.LogRoom) (b : Breach) : (s.breach b).log.queue.length = s.log.queue.length + 1 := by
  obtain ⟨e, he⟩ := breach_queue s b
  rw [he, if_pos (show s.log.queue.length < 64 from h), List.length_append]
  rfl

/-- A late layer is flagged, and its breach is recorded. -/
theorem layLate_leads (s : State) (n : Nat) (d : LateLayer) : (s.layLate n d).bit (Reg.LAYER_STATUS_LATE_LINE d.layer) = true ∧
    (s.LogRoom → (s.layLate n d).log.queue.length = s.log.queue.length + 1) := by
  have hunit : Reg.LAYER_STATUS d.layer / 0x10000 ∉ [0, 0x1A00, 0x1700] := by
    have := d.layer.isLt
    simp only [Reg.LAYER_STATUS, reg, List.mem_cons, List.not_mem_nil, or_false]
    omega
  unfold State.layLate
  dsimp only
  generalize hu : s.setScr n { s.scr n with bad := true } = u
  have hlog : (u.layEvent d.layer (Reg.LAYER_STATUS_LATE_LINE d.layer)).log = s.log := by rw [← hu]; rfl
  refine ⟨?_, fun h => (queue_breach (by rwa [State.LogRoom, hlog]) _).trans (by rw [hlog])⟩
  rw [State.bit, get_breach_other _ _ (Nat.le_of_ble_eq_true rfl) hunit, State.layEvent, State.count_eq,
    State.get_set_apart _ _ _ _ (Nat.le_of_ble_eq_true rfl) (.inl (Nat.le_of_ble_eq_true rfl)), State.get_set_same _ _ _ (Nat.le_of_ble_eq_true rfl)]
  rfl

/-- What follows the mark of a layer that is late alone. -/
theorem scan_settleLine_late (s : State) (n y : Nat) {d : LateLayer} (hd : (s.layersOf n).contains d.layer.val = true) (bare : Bool) (ns yi : Nat) :
    (s.layLate n d).Scan composePlace (State.beside ScreenState.sent) (s.settleLine n y [d] bare ns yi) := by
  have hlate : s.lateOf n [d] = [d] := by rw [State.lateOf, List.filter_singleton, hd]; rfl
  have hmarks : (s.layLate n d).Scan composePlace (State.beside ScreenState.sent) (s.settleMarks n y [d] ns yi) := by
    rw [State.settleMarks, hlate]
    exact scan_settleLate (s.layLate n d) y ns yi sent_scanBlind.toMarkBlind _ (.refl _ _ _) _
  rw [settleLine_eq]
  exact .ite (fun _ => hmarks.trans (scan_composeNow _ y sent_scanBlind.toComposeBlind))
    fun _ => hmarks.trans (scan_composeLine _ y _ bare sent_scanBlind.toComposeBlind)

/-- R37, R119: a late line of a layer is flagged, and is a breach of rank 4 that the logbook takes. -/
theorem scanLine_late (s : State) {n : Nat} (hn : n < 8) (hrun : s.running n = true) (hgap : (s.scr n).gap = false) {y : Nat} (last : Bool)
    {d : LateLayer} (hd : (s.layersOf n).contains d.layer.val = true) (bare : Bool) (ns yi : Nat) (faults : List (Nat × Word))
    (hy : y + 1 < (s.timing n).vActive) (hroom : s.LogRoom) :
    let t := s.scanLine n y last [d] bare ns yi faults
    t.bit (Reg.LAYER_STATUS_LATE_LINE d.layer) = true ∧ s.get (Reg.SYS_BREACH_COUNT 4) ≤ t.get (Reg.SYS_BREACH_COUNT 4) ∧
      s.log.queue.length < t.log.queue.length := by
  intro t
  have ht : t = _ := scanLine_before s hrun hgap last [d] bare ns yi faults hy
  have hmarked := (marked_lineBegins s hn y).trans (scanLine_scan s hn hrun hgap y last [d] bare ns yi faults).marked
  change s.Marked t at hmarked
  clear_value t
  have hbegin := scan_lineBegins s hn y
  have hsent : (s.lineBegins n y).Scan linePlace State.scene ((s.lineBegins n y).sendLine n y faults) := by
    have h := scan_lineSent (s.lineBegins n y) hn y (s.timing n).vActive faults
    rwa [State.lineSent, if_pos (by omega)] at h
  have hlayers := ((sameScene_lineBegins s hn y).trans (hsent.sameScene fun _ => linePlace_not_scene)).layersOf n
  have hqueue := hbegin.within.queue.trans hsent.within.queue
  generalize (s.lineBegins n y).sendLine n y faults = u at ht hlayers hqueue
  have hsettle := scan_settleLine_late u n (y + 1) (d := d) (by rw [hlayers]; exact hd) bare ns yi
  have hwindow := hsettle.trans (scan_windowLine _ (n := n) y sent_scanBlind)
  have hafter : (u.layLate n d).Scan composePlace (State.beside ScreenState.sent) t := by
    rw [ht]
    exact ⟨hwindow.within.inOrder s, hwindow.marked.trans (.of_reg fun _ _ => rfl)⟩
  obtain ⟨hbit, hgrows⟩ := layLate_leads u n d
  refine ⟨hafter.marked.late _ d.layer.isLt hbit, hmarked.breaches, Nat.lt_of_lt_of_le ?_ hafter.within.queue⟩
  have hkept := ((State.Scan.refl composePlace (State.beside ScreenState.sent) u).layLate sent_scanBlind.toPoisonBlind (n := n) d).within.queue
  rw [State.LogRoom] at hroom
  by_cases hu : u.LogRoom
  · rw [hgrows hu]
    omega
  · rw [State.LogRoom] at hu
    omega

end Sys2Proof.Machine
end

section
/-! SUPPORT. The start of a frame's fetch: the sextant that takes it, the harbour image where there is none, and line 0 (R78, R118, R179,
R186, R187, R199). -/

namespace Sys2Proof.Machine

-- one proof after another: each thread of a proof takes its share of the check's memory
set_option Elab.async false

/-! ### The stages of a fetch's start -/

/-- The record of a screen whose frame starts its fetch. -/
def State.fetchTaken (s : State) (n : Nat) : State :=
  s.setScr n { s.scr n with sextant := if (s.liveRects n).isEmpty then none else s.activeSextant, mode := 0, mismatch := false,
                            compared := true, poisoned := [], sig := 0xFFFFFFFF, bad := false, tiles := [], composed := [], ahead := 1 }

/-- Each sextant shows whether it verifies the screen. -/
def State.fetchShown (s : State) (n : Nat) (active : Option Nat) : State :=
  s.each [0, 1] fun j t =>
    t.set (Reg.SXT_STATUS_SCREENS j) (if active = some j then setBitOf (t.get (Reg.SXT_STATUS_SCREENS j)) n
      else clearBitOf (t.get (Reg.SXT_STATUS_SCREENS j)) n)

/-- The rectangles of a frame that no sextant verifies. -/
def State.fetchUnverified (s : State) (n : Nat) (rects : List Nat) : State :=
  s.each rects fun k t => t.addCause n { rect := k, reason := 5, frame := t.frame n, line := 0 }

/-- A fetch's start before its watch. -/
def State.fetchOpened (s : State) (n : Nat) : State :=
  let t := (s.fetchTaken n).fetchShown n s.activeSextant
  if s.activeSextant.isSome then t else t.fetchUnverified n (s.liveRects n)

theorem fetchStart_eq (s : State) (n : Nat) :
    s.fetchStart n = if !s.running n || (s.scr n).gap then s else ((s.fetchOpened n).watchStart n).composeAhead n 0 := (rfl)

/-! ### The sextants -/

/-- The places of the sextants' status. -/
def sextantPlace (a : Nat) : Prop := 0x0A000000 ≤ a ∧ a < 0x0B000000

theorem within_fetchShown {β : Type} (q : State → β) (s : State) (n : Nat) (active : Option Nat) :
    s.Within sextantPlace q (s.fetchShown n active) := by
  refine (State.Within.refl _ _ s).each _ fun j hj t ht => ht.set _ ?_
  simp only [List.mem_cons, List.not_mem_nil, or_false] at hj
  simp only [sextantPlace, Reg.SXT_STATUS, reg]
  omega

/-- R186: the sextant that is ACTIVE shows the screen, and the other does not. -/
theorem fetchShown_screens (s : State) {n x : Nat} (hn : n < 8) (hx : x < 2) (active : Option Nat) :
    bitOf ((s.fetchShown n active).get (Reg.SXT_STATUS_SCREENS x)) n = decide (active = some x) := by
  have hbit : ∀ v : Nat, bitOf ((if active = some x then setBitOf v n else clearBitOf v n) % 2 ^ 8) n = decide (active = some x) := by
    intro v
    rw [bitOf_testBit, Nat.testBit_mod_two_pow]
    split <;> simp [testBit_setBitOf, testBit_clearBitOf, *]
  have hne : Reg.SXT_STATUS 0 ≠ Reg.SXT_STATUS 1 := by decide
  have hx : x = 0 ∨ x = 1 := by omega
  rcases hx with rfl | rfl
  · change bitOf (((s.set _ _).set _ _).get _) n = _
    rw [State.get_set_other _ _ _ _ hne, State.get_set_same _ _ _ (Nat.le_of_ble_eq_true rfl)]
    exact hbit _
  · change bitOf (((s.set _ _).set _ _).get _) n = _
    rw [State.get_set_same _ _ _ (Nat.le_of_ble_eq_true rfl)]
    exact hbit _

/-! ### The rectangles that no sextant verifies -/

/-- Whether a rectangle of a screen shows the harbour image for a reason. -/
def State.caused (s : State) (n k reason : Nat) : Bool := (s.scr n).causes.any fun c => c.rect == k && c.reason == reason

theorem scr_addCause (s : State) (n : Nat) (c : RectCause) : ((s.addCause n c).scr n).causes =
    if (s.scr n).causes.any (fun d => d.rect == c.rect && d.reason == c.reason) then
      (s.scr n).causes.map fun d => if d.rect == c.rect && d.reason == c.reason then { d with line := min d.line c.line } else d
    else (s.scr n).causes ++ [c] := by
  unfold State.addCause
  dsimp only
  split
  · rw [scr_setScr, if_pos rfl]
  · have hirq : ∀ (u : State) (k : Nat), (u.raiseIrq k).scr n = u.scr n := fun u k => (congrArg (State.scr · n) (raiseIrq_calm u k) :)
    rw [hirq, scr_setScr, if_pos rfl]

theorem caused_addCause (s : State) (n : Nat) (c : RectCause) (k reason : Nat) :
    (s.addCause n c).caused n k reason = (s.caused n k reason || (c.rect == k && c.reason == reason)) := by
  rw [State.caused, scr_addCause]
  split
  · next hsame =>
    rw [List.any_map]
    have hkeep : ((fun d : RectCause => d.rect == k && d.reason == reason) ∘ fun d : RectCause =>
        if d.rect == c.rect && d.reason == c.reason then { d with line := min d.line c.line } else d) =
        fun d => d.rect == k && d.reason == reason := by
      funext d
      rw [Function.comp]
      split <;> rfl
    rw [hkeep, State.caused]
    cases hck : c.rect == k && c.reason == reason with
    | false => rw [Bool.or_false]
    | true =>
      obtain ⟨hr, hs⟩ := Bool.and_eq_true_iff.1 hck
      rw [Bool.or_true, ← eq_of_beq hr, ← eq_of_beq hs]
      exact hsame
  · rw [List.any_append, List.any_cons, List.any_nil, Bool.or_false]
    rfl

/-- R187: every live rectangle shows the harbour image. -/
theorem caused_fetchUnverified (s : State) (n : Nat) (rects : List Nat) {k : Nat} (hk : k ∈ rects ∨ s.caused n k 5 = true) :
    (s.fetchUnverified n rects).caused n k 5 = true := by
  induction rects generalizing s with
  | nil => exact hk.resolve_left (List.not_mem_nil)
  | cons j rects ih =>
    refine ih _ ?_
    rcases hk with hk | hk
    · rcases List.mem_cons.1 hk with rfl | hk
      · exact .inr (by rw [caused_addCause]; simp)
      · exact .inl hk
    · exact .inr (by rw [caused_addCause, hk]; rfl)

/-! ### The watch -/

/-- The places that the start of a watch may write: a screen's watch, the pipes' registers and their ports. -/
def watchPlace (a : Nat) : Prop := (0x02000000 ≤ a ∧ a < 0x04000000) ∨ (0x0C000000 ≤ a ∧ a < 0x0D000000)

theorem mem_watchLanes {s : State} {l : Nat × Nat × List Nat} (hl : l ∈ s.watchLanes) : l.1 < 10 := by
  unfold State.watchLanes at hl
  have hpipe : ∀ q : Nat → Bool, ∀ p ∈ allPipes.filter q, p < 10 := fun q p hp => List.mem_range.1 (List.mem_filter.1 hp).1
  split at hl
  · cases hl
  · split at hl
    · cases hl
    · next p hp =>
      have h := hpipe _ p (by rw [hp]; exact List.mem_cons_self)
      simp only [List.mem_cons, List.not_mem_nil, or_false] at hl
      rcases hl with rfl | rfl <;> exact h
    · next p q _ hp =>
      have h := hpipe _ p (by rw [hp]; exact List.mem_cons_self)
      have h' := hpipe _ q (by rw [hp]; exact List.mem_cons_of_mem _ List.mem_cons_self)
      simp only [List.mem_cons, List.not_mem_nil, or_false] at hl
      rcases hl with rfl | rfl | rfl | rfl <;> assumption

theorem State.Within.setPipeStateAt {β : Type} {A : Nat → Prop} {q : State → β} {s t : State} (h : s.Within A q t) {p : Nat}
    (hst : A (Reg.PIPE_STATUS p)) (hq : A (Reg.QOS_CFG p)) (st : Nat) : s.Within A q (t.setPipeState p st) := by
  have hs := h.set (f := Reg.PIPE_STATUS_STATE p) st hst
  unfold State.setPipeState
  exact .ite (fun _ => hs) fun _ => (hs.set _ hq).set _ hq

theorem within_watchStart (s : State) {n : Nat} (hn : n < 8) : s.Within watchPlace State.pipeless (s.watchStart n) := by
  have hwatch : watchPlace (Reg.SCREEN_WATCH n) := by
    simp only [watchPlace, Reg.SCREEN_WATCH, reg]
    omega
  have hset := (State.Within.refl watchPlace State.pipeless s).set (f := Reg.SCREEN_WATCH_SKIPPED n)
    (b2n (!((s.watchLanes.find? fun l => l.2.2.contains n).isSome && s.watchable n))) hwatch
  unfold State.watchStart
  dsimp only
  split
  · exact hset
  · next p k set hlane =>
    have hp : p < 10 := mem_watchLanes (List.mem_of_find?_eq_some hlane)
    have hst : watchPlace (Reg.PIPE_STATUS p) := by
      simp only [watchPlace, Reg.PIPE_STATUS, reg]
      omega
    have hq : watchPlace (Reg.QOS_CFG p) := by
      simp only [watchPlace, Reg.QOS_CFG, reg]
      omega
    have hwatching := fun r => ((hset.setPipe p r).setPipeStateAt hst hq 2).set (f := laneValid p k) 1 (by rw [laneValid_addr]; exact hst)
    refine .ite (fun _ => ?_) fun _ => hset
    exact ((hwatching _).set (f := laneScreen p k) n (by rw [laneScreen_addr]; exact hst)).setWatch n (by rfl)

/-! ### A fetch's start as a whole -/

/-- R213: a line some of whose data waits is not composed, with no layer poisoned. -/
theorem composeAhead_waits {s : State} {n y : Nat} (hp : (s.scr n).poisoned = []) (hs : s.lineStarts n y = true) : s.composeAhead n y = s := by
  have hat : s.layersAt n y = s.layersOf n := by simp [State.layersAt, hp]
  refine if_pos ?_
  rw [State.startLayers, hat]
  rcases Bool.or_eq_true_iff.1 hs with h | h
  · obtain ⟨l, hl, hw⟩ := List.any_eq_true.1 h
    have hne : (s.layersOf n).filter (fun l => s.layStarts l y) ≠ [] := List.ne_nil_of_mem (List.mem_filter.2 ⟨hl, hw⟩)
    simp [List.isEmpty_eq_false_iff.2 hne]
  · simp [h]

/-- The places that a fetch's start may write. -/
def fetchPlace (a : Nat) : Prop := sextantPlace a ∨ composePlace a ∨ watchPlace a

theorem fetchPlace_not_scene {a : Nat} (h : fetchPlace a) : ¬ scenePlace a := by
  simp only [fetchPlace, sextantPlace, composePlace, watchPlace, markPlace, quietPlace, scenePlace, Reg.LOG_COUNTS, reg] at h ⊢
  omega

/-- A screen's record in its frame's fetch. -/
def ScreenState.fetched (r : ScreenState) : Option Nat × Bool × Nat × Bool × List (Nat × TileRow) × Nat × List RectCause :=
  (r.sextant, r.compared, r.mode, r.mismatch, r.tiles, r.ahead, r.causes)

theorem fetched_composeBlind : ComposeBlind ScreenState.fetched := ⟨⟨fun _ _ _ => rfl⟩, fun _ _ => rfl⟩

section
variable (s : State) {n : Nat} (hn : n < 8)

theorem scr_fetchShown (active : Option Nat) : (s.fetchShown n active).scr n = s.scr n := (within_fetchShown (State.scr · n) s n active).rest

theorem scan_fetchUnverified (rects : List Nat) :
    s.Scan composePlace (State.beside fun r => { r with causes := [] }) (s.fetchUnverified n rects) :=
  (State.Scan.refl _ _ s).each rects fun k _ u hu => hu.addCause (fun _ _ => rfl) n
    { rect := k, reason := 5, frame := u.frame n, line := 0 }

/-- The record of a screen whose frame starts its fetch, but for the causes in its rectangles. -/
theorem scr_fetchOpened : { (s.fetchOpened n).scr n with causes := [] } = { (s.fetchTaken n).scr n with causes := [] } := by
  have hshown := scr_fetchShown (s.fetchTaken n) (n := n) s.activeSextant
  unfold State.fetchOpened
  dsimp only
  split
  · rw [hshown]
  · rw [← hshown]
    exact scr_of_beside (scan_fetchUnverified ((s.fetchTaken n).fetchShown n s.activeSextant) (n := n) (s.liveRects n)).within n

theorem scan_fetchOpened : s.Scan fetchPlace State.scene (s.fetchOpened n) := by
  have htaken : s.Scan fetchPlace State.scene (s.fetchTaken n) :=
    (State.Scan.refl _ _ s).quiet (within_setScr_scene s _) (fun _ => False.elim) fun _ => False.elim
  have hshown : s.Scan fetchPlace State.scene ((s.fetchTaken n).fetchShown n s.activeSextant) :=
    htaken.quiet (within_fetchShown _ _ n s.activeSextant) (fun _ => .inl) fun a ha => by
      simp only [sextantPlace, markPlace] at ha ⊢
      omega
  unfold State.fetchOpened
  exact .ite (fun _ => hshown) fun _ => hshown.trans ((scene_of_beside (scan_fetchUnverified _ (n := n) (s.liveRects n))).mono fun _ h => .inr (.inl h))

/-- The causes in a screen's rectangles once its fetch has started. -/
theorem causes_fetchOpened : (s.liveRects n = [] ∨ s.activeSextant ≠ none → ((s.fetchOpened n).scr n).causes = (s.scr n).causes) ∧
    ∀ k ∈ s.liveRects n, s.activeSextant = none → (s.fetchOpened n).caused n k 5 = true := by
  have hcauses : (((s.fetchTaken n).fetchShown n s.activeSextant).scr n).causes = (s.scr n).causes := by
    rw [scr_fetchShown, State.fetchTaken, scr_setScr, if_pos rfl]
  unfold State.fetchOpened
  dsimp only
  cases ha : s.activeSextant with
  | some j =>
    rw [ha] at hcauses
    exact ⟨fun _ => hcauses, fun _ _ h => nomatch h⟩
  | none =>
    rw [ha] at hcauses
    refine ⟨fun h => ?_, fun k hk _ => caused_fetchUnverified _ n _ (.inl hk)⟩
    rw [h.resolve_right fun h => h rfl]
    exact hcauses

include hn

theorem scan_fetchWatched : s.Scan fetchPlace State.scene ((s.fetchOpened n).watchStart n) :=
  (scan_fetchOpened s).quiet ((within_watchStart _ hn).view fun x : State × (Nat → ScreenState) => x.1.scene) (fun _ h => .inr (.inr h))
    fun a ha => by
      simp only [watchPlace, markPlace] at ha ⊢
      omega

/-- Once the sextants show the screen, a fetch's start writes no more of them. -/
theorem within_fetchKept : ((s.fetchTaken n).fetchShown n s.activeSextant).Within (fun a => composePlace a ∨ watchPlace a) State.scene
    ((s.fetchOpened n).watchStart n) := by
  have hopen : ((s.fetchTaken n).fetchShown n s.activeSextant).Within (fun a => composePlace a ∨ watchPlace a) State.scene (s.fetchOpened n) := by
    unfold State.fetchOpened
    exact .ite (fun _ => .refl _ _ _) fun _ =>
      (scene_of_beside (scan_fetchUnverified ((s.fetchTaken n).fetchShown n s.activeSextant) (n := n) (s.liveRects n))).within.mono fun _ => .inl
  exact hopen.trans (((within_watchStart _ hn).view fun x : State × (Nat → ScreenState) => x.1.scene).mono fun _ => .inr)

/-- A fetch's start keeps what the watch does not concern. -/
theorem scr_fetchWatched : (((s.fetchOpened n).watchStart n).scr n).unwatched = ((s.fetchOpened n).scr n).unwatched :=
  (congrArg (fun x : State × (Nat → ScreenState) => x.2 n) (within_watchStart (s.fetchOpened n) hn).rest :)

/-- A screen's record when its fetch has started. -/
theorem fetched_fetchWatched : (((s.fetchOpened n).watchStart n).scr n).fetched =
      (if (s.liveRects n).isEmpty then none else s.activeSextant, true, 0, false, [], 1, ((s.fetchOpened n).scr n).causes) ∧
    (((s.fetchOpened n).watchStart n).scr n).composed = [] ∧ (((s.fetchOpened n).watchStart n).scr n).poisoned = [] := by
  have hwatch := scr_fetchWatched s hn
  have hopen := scr_fetchOpened s (n := n)
  have htaken : (s.fetchTaken n).scr n = _ := scr_setScr s n n _
  rw [if_pos rfl] at htaken
  rw [htaken] at hopen
  generalize ((s.fetchOpened n).watchStart n).scr n = r at hwatch
  generalize (s.fetchOpened n).scr n = o at hwatch hopen
  refine ⟨?_, (congrArg ScreenState.composed hwatch).trans (congrArg ScreenState.composed hopen :),
    (congrArg ScreenState.poisoned hwatch).trans (congrArg ScreenState.poisoned hopen :)⟩
  have hfetched : r.fetched = o.fetched := (congrArg ScreenState.fetched hwatch :)
  rw [hfetched]
  exact (congrArg (fun r : ScreenState => (r.sextant, r.compared, r.mode, r.mismatch, r.tiles, r.ahead, o.causes)) hopen :)

variable (hrun : s.running n = true) (hgap : (s.scr n).gap = false)
include hrun hgap

/-- R78, R118, R179, R186, R187: what the start of a fetch leaves. -/
theorem fetchStart_leads :
    let t := s.fetchStart n
    (t.scr n).fetched = (if (s.liveRects n).isEmpty then none else s.activeSextant, true, 0, false, [], 1, ((s.fetchOpened n).scr n).causes) ∧
      (t.scr n).composed.map (·.1) = (if s.lineStarts n 0 then [] else [0]) ∧ s.SameBytes t ∧
      ∀ x < 2, bitOf (t.get (Reg.SXT_STATUS_SCREENS x)) n = decide (s.activeSextant = some x) := by
  intro t
  have ht : t = ((s.fetchOpened n).watchStart n).composeAhead n 0 := by
    have h : (!s.running n || (s.scr n).gap) = false := by rw [hrun, hgap]; rfl
    exact (fetchStart_eq s n).trans (by rw [h, if_neg Bool.false_ne_true])
  clear_value t
  obtain ⟨hrec, hcomp, hpois⟩ := fetched_fetchWatched s hn
  have hwatch := scan_fetchWatched s hn
  have hstarts := (hwatch.sameScene fun _ => fetchPlace_not_scene).lineStarts hn 0
  have hshown := fun x (hx : x < 2) => fetchShown_screens (s.fetchTaken n) hn hx s.activeSextant
  have hkept := within_fetchKept s hn
  generalize (s.fetchOpened n).watchStart n = w at ht hrec hcomp hpois hwatch hstarts hkept
  have hahead : w.Scan composePlace (State.beside ScreenState.fetched) t := ht ▸ scan_composeAhead w 0 fetched_composeBlind
  have hscene : t.scene = s.scene := (scene_of_beside hahead).within.rest.trans hwatch.within.rest
  refine ⟨(scr_of_beside hahead.within n).trans hrec, ?_,
    sameBytes_of_eq (congrArg State.memA hscene :) (congrArg State.memB hscene :) (congrArg State.sram hscene :) (congrArg State.flash hscene :),
    fun x hx => ?_⟩
  · cases hs : s.lineStarts n 0 with
    | true => rw [ht, composeAhead_waits hpois (hstarts.trans hs), hcomp]; rfl
    | false =>
      have hnot : w.composedLine n 0 = false := by rw [State.composedLine, hcomp]; rfl
      rcases composeAhead_composes w hn 0 (hstarts.trans hs) with ⟨h, -⟩ | ⟨px, -, h⟩
      · rw [hnot] at h
        cases h
      · rw [ht, h, hcomp]
        rfl
  · have hplace : ∀ a, sextantPlace a → t.reg a = ((s.fetchTaken n).fetchShown n s.activeSextant).reg a := fun a ha => by
      simp only [sextantPlace] at ha
      refine (hahead.within.reg a ?_).trans (hkept.reg a ?_) <;>
        simp only [composePlace, watchPlace, markPlace, quietPlace, Reg.LOG_COUNTS, reg] <;> omega
    have hget : t.get (Reg.SXT_STATUS_SCREENS x) = ((s.fetchTaken n).fetchShown n s.activeSextant).get (Reg.SXT_STATUS_SCREENS x) := by
      rw [State.get, State.get, hplace _ (by simp only [sextantPlace, Reg.SXT_STATUS, reg]; omega)]
    rw [hget]
    exact hshown x hx

end

end Sys2Proof.Machine
end

section
/-! SUPPORT. The comparison of a watched frame's signatures (R200 to R202). -/

namespace Sys2Proof.Machine

-- one proof after another: each thread of a proof takes its share of the check's memory
set_option Elab.async false

/-! ### The end of a watch -/

/-- The places that the end of a watch may write: those of the watching pipe. -/
def watchingPlace (p a : Nat) : Prop := a = Reg.PIPE_STATUS p ∨ a = Reg.QOS_CFG p

theorem screen_not_watching {p n o : Nat} (hn : n < 8) (ho : o < 0x10000) : ¬ watchingPlace p (reg 2 n o) := by
  simp only [watchingPlace, Reg.PIPE_STATUS, Reg.QOS_CFG, reg]
  omega

theorem map_not_watching {p q : Nat} (hp : p < 10) (hq : q < 8) : ¬ watchingPlace p (Reg.XBAR_MAP q) := by
  simp only [watchingPlace, Reg.PIPE_STATUS, Reg.QOS_CFG, Reg.XBAR_MAP, reg]
  omega

section
variable {s : State} {n : Nat} {w : WatchState} (hw : (s.scr n).watch = some w)
include hw

theorem within_watchEnd {β : Type} (q : State → β) :
    (s.setScr n { s.scr n with watch := none }).Within (watchingPlace w.pipe) q (s.watchEnd n) := by
  have hl := ((State.Within.refl (watchingPlace w.pipe) q (s.setScr n { s.scr n with watch := none })).set (f := laneValid w.pipe w.lane) 0
    (.inl (laneValid_addr _ _))).set (f := laneScreen w.pipe w.lane) 0 (.inl (laneScreen_addr _ _))
  unfold State.watchEnd
  rw [hw]
  exact .ite (fun _ => hl.setPipeStateAt (.inl rfl) (.inr rfl) 1) fun _ => hl

theorem reg_watchEnd {a : Nat} (ha : ¬ watchingPlace w.pipe a) : (s.watchEnd n).reg a = s.reg a :=
  (within_watchEnd hw fun _ => ()).reg a ha

theorem get_watchEnd {f : Fld} (hf : ¬ watchingPlace w.pipe f.addr) : (s.watchEnd n).get f = s.get f := by
  rw [State.get, State.get, reg_watchEnd hw hf]

theorem watch_watchEnd : ((s.watchEnd n).scr n).watch = none := by
  have h : (s.watchEnd n).scr n = _ := (within_watchEnd hw (State.scr · n)).rest
  rw [h]
  have hset := scr_setScr s n n { s.scr n with watch := none }
  rw [if_pos rfl] at hset
  exact (congrArg ScreenState.watch hset :)

/-- R201: a watch that was disturbed is void. -/
theorem watchVoid_leads (hn : n < 8) : ((s.watchVoid n).scr n).watch = none ∧
    (s.watchVoid n).get (Reg.SCREEN_WATCH_VOIDS n) = s.more (Reg.SCREEN_WATCH_VOIDS n) ∧
    (s.watchVoid n).get (Reg.SCREEN_WATCH_COMPARED n) = s.get (Reg.SCREEN_WATCH_COMPARED n) := by
  have hvoid : s.watchVoid n = (s.count (Reg.SCREEN_WATCH_VOIDS n)).watchEnd n := by
    rw [State.watchVoid, hw, Option.isSome_some, if_pos rfl]
  have hcount : ((s.count (Reg.SCREEN_WATCH_VOIDS n)).scr n).watch = some w := hw
  have hout := screen_not_watching (p := w.pipe) hn (o := 0x220) (by decide)
  rw [hvoid]
  refine ⟨watch_watchEnd hcount, ?_, ?_⟩
  · rw [get_watchEnd hcount hout, get_count_same _ _ (Nat.le_of_ble_eq_true rfl)]
  · rw [get_watchEnd hcount hout, State.count_eq, State.get_set_apart _ _ _ _ (Nat.le_of_ble_eq_true rfl) (.inr (Nat.le_of_ble_eq_true rfl))]

end

/-! ### The comparison -/

/-- A frame whose signatures were compared. -/
def State.watchCompared (s : State) (n frame : Nat) : State :=
  ((s.count (Reg.SCREEN_WATCH_COMPARED n)).set (Reg.SCREEN_WATCH_LAST_FRAME n) frame).watchEnd n

/-- The marks of a screen whose watching pipe disagrees, and of its pipe. -/
def State.watchBlamed (s : State) (n watching : Nat) : State :=
  let p := s.pipeOf n
  let s := s.set (Reg.SCREEN_WATCH_MISMATCH n) 1
  let s := s.setPipe p { s.pipe p with watchFail := true }
  s.setScr n { s.scr n with needPipe := true, exclude := watching :: (s.scr n).exclude }

theorem watchBlamed_leads (s : State) (n watching : Nat) : (s.watchBlamed n watching).bit (Reg.SCREEN_WATCH_MISMATCH n) = true ∧
    ((s.watchBlamed n watching).pipe (s.pipeOf n)).watchFail = true ∧ ((s.watchBlamed n watching).scr n).needPipe = true := by
  refine ⟨?_, (congrArg PipeState.watchFail (sget_sput_same s.pipes (s.pipeOf n) { s.pipe (s.pipeOf n) with watchFail := true }) :), ?_⟩
  · have hget : (s.watchBlamed n watching).get (Reg.SCREEN_WATCH_MISMATCH n) = _ :=
      State.get_set_same s (Reg.SCREEN_WATCH_MISMATCH n) 1 (Nat.le_of_ble_eq_true rfl)
    rw [State.bit, hget]
    rfl
  · have hset : (s.watchBlamed n watching).scr n = _ := scr_setScr _ n n _
    rw [if_pos rfl] at hset
    exact (congrArg ScreenState.needPipe hset :)

theorem watchCompare_unwatched {s : State} {n : Nat} (hw : (s.scr n).watch = none) (diff : Nat) (late : Bool) : s.watchCompare n diff late = s := by
  rw [State.watchCompare, hw]

section
variable {s : State} {n : Nat} {w : WatchState} (hw : (s.scr n).watch = some w)
include hw

theorem watchCompare_unsigned (hsig : w.sig = none) (diff : Nat) (late : Bool) : s.watchCompare n diff late = s := by
  rw [State.watchCompare, hw]
  dsimp only
  rw [hsig]

theorem watchCompare_eq (hsig : w.sig ≠ none) (diff : Nat) (late : Bool) : s.watchCompare n diff late =
    if w.bad || late then s.watchVoid n
    else if diff = 0 || !(s.watchCompared n w.frame).running n then s.watchCompared n w.frame
    else ((((s.watchCompared n w.frame).watchBlamed n w.pipe).raiseFault (42 + min ((s.watchCompared n w.frame).pipeOf n) w.pipe)).raiseFault
      (42 + max ((s.watchCompared n w.frame).pipeOf n) w.pipe)).inOrder s := by
  obtain ⟨sig, hsig⟩ := Option.ne_none_iff_exists'.1 hsig
  unfold State.watchCompare
  rw [hw]
  dsimp only
  rw [hsig]
  rfl

/-- A register that is neither the screen's watch nor its pipe's is as it was. -/
theorem get_watchCompared {f : Fld} (hf : ¬ watchingPlace w.pipe f.addr) (hc : f.addr ≠ Reg.SCREEN_WATCH n) (hl : f.addr ≠ Reg.SCREEN_WATCH_LAST n)
    (frame : Nat) : (s.watchCompared n frame).get f = s.get f := by
  rw [State.watchCompared, get_watchEnd (s := (s.count _).set _ _) hw hf, State.get_set_other _ _ _ _ hl, State.count_eq,
    State.get_set_other _ _ _ _ hc]

/-- R202: a comparison is counted, with its frame. -/
theorem watchCompared_leads (hn : n < 8) (frame : Nat) :
    ((s.watchCompared n frame).scr n).watch = none ∧
    (s.watchCompared n frame).get (Reg.SCREEN_WATCH_COMPARED n) = s.more (Reg.SCREEN_WATCH_COMPARED n) ∧
    (s.watchCompared n frame).get (Reg.SCREEN_WATCH_LAST_FRAME n) = frame % 2 ^ 32 ∧
    (s.watchCompared n frame).get (Reg.SCREEN_WATCH_MISMATCH n) = s.get (Reg.SCREEN_WATCH_MISMATCH n) := by
  have hset : ((((s.count (Reg.SCREEN_WATCH_COMPARED n)).set (Reg.SCREEN_WATCH_LAST_FRAME n) frame).scr n).watch = some w) := hw
  have hout := fun (o : Nat) (ho : o < 0x10000) => screen_not_watching (p := w.pipe) hn ho
  have hne : Reg.SCREEN_WATCH n ≠ Reg.SCREEN_WATCH_LAST n := by
    simp only [Reg.SCREEN_WATCH, Reg.SCREEN_WATCH_LAST, reg]
    omega
  refine ⟨watch_watchEnd hset, ?_, ?_, ?_⟩
  · rw [State.watchCompared, get_watchEnd hset (hout _ (by decide)), State.get_set_other _ _ _ _ hne, get_count_same _ _ (Nat.le_of_ble_eq_true rfl)]
  · rw [State.watchCompared, get_watchEnd hset (hout _ (by decide)), State.get_set_same _ _ _ (Nat.le_of_ble_eq_true rfl)]
  · rw [State.watchCompared, get_watchEnd hset (hout _ (by decide)), State.get_set_other _ _ _ _ hne, State.count_eq,
      State.get_set_apart _ _ _ _ (Nat.le_of_ble_eq_true rfl) (.inl (Nat.le_of_ble_eq_true rfl))]

/-- R202: signatures that differ raise the faults of both pipes, and have the screen's pipe replaced. -/
theorem watchCompare_differs (hn : n < 8) (hsig : w.sig ≠ none) (hbad : w.bad = false) {diff : Nat} (hd : diff ≠ 0) (hrun : s.running n = true)
    (hp : s.pipeOf n < 10) (hwp : w.pipe < 10) :
    let t := s.watchCompare n diff false
    t.bit (Reg.SCREEN_WATCH_MISMATCH n) = true ∧ t.bit (Reg.FLT_IN_STATUS_CAUSE (42 + s.pipeOf n)) = true ∧
      t.bit (Reg.FLT_IN_STATUS_CAUSE (42 + w.pipe)) = true ∧ (t.pipe (s.pipeOf n)).watchFail = true ∧ (t.scr n).needPipe = true := by
  intro t
  have hkept := fun {f : Fld} => get_watchCompared hw (f := f) (frame := w.frame)
  have hscreen : ∀ {f : Fld} {o : Nat}, f.addr = reg 2 n o → o < 0x220 → (s.watchCompared n w.frame).get f = s.get f := fun {f o} hf ho => by
    refine hkept ?_ ?_ ?_ <;> rw [hf]
    · exact screen_not_watching hn (by omega)
    · simp only [Reg.SCREEN_WATCH, reg]; omega
    · simp only [Reg.SCREEN_WATCH_LAST, reg]; omega
  have hport : (s.watchCompared n w.frame).portOf n = s.portOf n := hscreen rfl (by decide)
  have hpipe : (s.watchCompared n w.frame).pipeOf n = s.pipeOf n := by
    rw [State.pipeOf, hport]
    have hlt : s.portOf n < 8 := State.get_lt s (Reg.SCREEN_CTRL_PORT n)
    refine hkept (map_not_watching hwp hlt) ?_ ?_ <;> simp only [Reg.XBAR_MAP, Reg.SCREEN_WATCH, Reg.SCREEN_WATCH_LAST, reg] <;> omega
  have hrun' : (s.watchCompared n w.frame).running n = true := by
    rw [State.running, State.bit, hscreen rfl (by decide)]
    exact hrun
  have ht : t = _ := watchCompare_eq hw hsig diff false
  rw [hbad, hrun', hpipe, Bool.or_false, if_neg Bool.false_ne_true, if_neg (by simpa using hd)] at ht
  clear_value t
  obtain ⟨hmis, hfail, hneed⟩ := watchBlamed_leads (s.watchCompared n w.frame) n w.pipe
  rw [hpipe] at hfail
  generalize (s.watchCompared n w.frame).watchBlamed n w.pipe = v at ht hmis hfail hneed
  have hlow : screenFault (42 + min (s.pipeOf n) w.pipe) := .inl (by omega)
  have hhigh : screenFault (42 + max (s.pipeOf n) w.pipe) := .inl (by omega)
  have hfault : v.Within faultPlace State.faultless t := ht ▸ ((within_raiseFault v hlow).trans (within_raiseFault _ hhigh)).inOrder s
  have hcause : ∀ k < 448, t.bit (Reg.FLT_IN_STATUS_CAUSE k) =
      (decide (k = 42 + max (s.pipeOf n) w.pipe) || (decide (k = 42 + min (s.pipeOf n) w.pipe) || v.bit (Reg.FLT_IN_STATUS_CAUSE k))) :=
    fun k hk => by
      rw [ht, ← bit_cause_raiseFault v hlow hk, ← bit_cause_raiseFault _ hhigh hk]
      rfl
  refine ⟨?_, ?_, ?_, ?_, ?_⟩
  · rw [hfault.bit (by simp only [faultPlace, Reg.SCREEN_WATCH, reg]; omega)]
    exact hmis
  · rw [hcause _ (by omega)]
    rcases Nat.le_total (s.pipeOf n) w.pipe with h | h <;> simp [h]
  · rw [hcause _ (by omega)]
    rcases Nat.le_total (s.pipeOf n) w.pipe with h | h <;> simp [h]
  · have hpipes : t.pipe (s.pipeOf n) = v.pipe (s.pipeOf n) :=
      congrArg (fun z : State × (Nat → ScreenState) => z.1.pipe (s.pipeOf n)) hfault.rest
    rw [hpipes]
    exact hfail
  · have hun : (t.scr n).unharmed = (v.scr n).unharmed := congrFun (congrArg Prod.snd hfault.rest) n
    have hneed' : (t.scr n).needPipe = (v.scr n).needPipe := (congrArg ScreenState.needPipe hun :)
    rw [hneed']
    exact hneed

end

end Sys2Proof.Machine
end

section
/-! PROOF. O52: a frame on its way to the port (R69, R78, R118, R119, R184 to R187, R199 to R202). -/

namespace Sys2Proof.Machine

-- one proof after another: each thread of a proof takes its share of the check's memory
set_option Elab.async false

/-! ### A line's pixels -/

theorem faultyPixel_nil (px : List (Word × Bool)) (x : Nat) : faultyPixel px [] x = px.getD x (0, false) := rfl

theorem faultyPixel_one (px : List (Word × Bool)) (f : Nat) (w : Word) (x : Nat) :
    faultyPixel px [(f, w)] x = (if x = f then w else (px.getD x (0, false)).1, (px.getD x (0, false)).2) := by
  unfold faultyPixel
  by_cases h : x = f
  · simp [h]
  · simp [h, Ne.symm h]

theorem map_range_getD (px : List (Word × Bool)) : ((List.range px.length).map fun x => (px.getD x (0, false)).1) = px.map (·.1) := by
  refine List.ext_getElem (by simp) fun i _ hi => ?_
  have hi : i < px.length := by simpa using hi
  simp [hi]

theorem rectAt_of_liveRects {s : State} {n : Nat} (h : s.liveRects n = []) (x y : Nat) : s.rectAt n x y = none := by
  rw [State.rectAt, h]
  rfl

section
variable (s : State) {n : Nat} (hn : n < 8) (hrun : s.running n = true) (hgap : (s.scr n).gap = false) {y : Nat} (last : Bool)
  (late : List LateLayer) (bare : Bool) (ns yi : Nat) (faults : List (Nat × Word)) (hy : y < (s.timing n).vActive)
  {px : List (Word × Bool)} (hc : (s.scr n).composed.find? (·.1 == y) = some (y, px))
include hn hrun hgap hy hc

/-- A port that sends no video sends nothing of a line. -/
theorem scanLine_unsent (hv : (if y = 0 then s.bit (Reg.DPO_LINK_STATUS_LINK_OK (s.portOf n)) else (s.port (s.portOf n)).video) = false) :
    ((s.scanLine n y last late bare ns yi faults).scr n).sent = [] := by
  rw [scanLine_sent s hrun hgap, lineSent_sent s hn faults hy hc, hv, if_neg Bool.false_ne_true]

/-- A line of a screen with no protected rectangle, no fault and no harmless state is sent as the pipe composed it. -/
theorem scanLine_composed (hw : s.whole n = .none) (hrects : s.liveRects n = [])
    (hv : (if y = 0 then s.bit (Reg.DPO_LINK_STATUS_LINK_OK (s.portOf n)) else (s.port (s.portOf n)).video) = true) :
    ((s.scanLine n y last late bare ns yi []).scr n).sent = px.map (·.1) := by
  obtain ⟨hlen, hpx⟩ := scanLine_pixels s hn hrun hgap last late bare ns yi [] hy hc hw hv
  rw [← map_range_getD]
  refine List.ext_getElem (by simpa using hlen) fun x hx hx' => ?_
  have hx : x < px.length := by simpa using hx'
  have hsent := (hpx x hx).2 (.inl (rectAt_of_liveRects hrects x y))
  rw [faultyPixel_nil, List.getD_eq_getElem _ _ (hlen ▸ hx)] at hsent
  rw [hsent, List.getElem_map, List.getElem_range]

end

/-- Settles O52: each line by what its scan-out sends, composes and leaves alone, a fetch's start by its stages, and a watched frame by the
outcome of its comparison. -/
theorem scanOutSendsComparedLines : Obligations.ScanOutSendsComparedLines := by
  unfold Obligations.ScanOutSendsComparedLines
  intro s n line last bare late ll k ns yi px diff fx fw r t0 y idle starts video c
  have hn := n.isLt
  have hline : y % 2 ^ 14 = y := Nat.mod_eq_of_lt line.isLt
  have hp : s.portOf n < 8 := State.get_lt s (Reg.SCREEN_CTRL_PORT n)
  refine ⟨fun hidle => ⟨⟨s, ?_, setsOnly_refl s⟩, ⟨s, ?_, setsOnly_refl s⟩⟩, fun hrun hgap => ⟨?_, ?_, ?_, ?_, ?_, ?_, ?_⟩, ?_, ?_, ?_⟩
  · exact congrArg Host.Outcome.next ((scanLine_eq s n y last [ll] bare ns yi []).trans (if_pos hidle))
  · exact congrArg Host.Outcome.next ((fetchStart_eq s n).trans (if_pos hidle))
  · obtain ⟨hl, hframe, hbytes⟩ := scanLine_shows s hn hrun hgap y last [] bare ns yi []
    exact ⟨_, rfl, hl.trans hline, hframe, hbytes⟩
  · exact fun hy => ⟨_, rfl, scanLine_dark s hrun hgap y last [] bare ns yi [] hy⟩
  · exact fun hy hrects hw hc => ⟨fun hv => ⟨_, rfl, scanLine_composed s hn hrun hgap last [] bare ns yi hy hc hw hrects hv⟩,
      fun hv => ⟨_, rfl, scanLine_unsent s hn hrun hgap last [] bare ns yi [] hy hc hv⟩⟩
  · intro pipe port live verified differs hy hw hc hv
    have hpipe : ∀ x, (faultyPixel px [(fx.toNat, fw)] x).1 = pipe x := fun x => by rw [faultyPixel_one]
    have hlacks : ∀ x, (faultyPixel px [(fx.toNat, fw)] x).2 = (px.getD x (0, false)).2 := fun x => by rw [faultyPixel_one]
    have hverified : ∀ x, s.verifiedPixel n y x = verified x := fun x => by
      unfold State.verifiedPixel
      split
      · next j hj => simp only [verified, live, hj, r]
      · next hj => simp only [verified, hj]
    have hdiffers : s.differsAt n y px [(fx.toNat, fw)] = differs :=
      List.filter_congr fun x _ => by rw [hverified, hpipe, hlacks]
    refine ⟨?_, fun h => ?_, fun h hmode => ?_⟩
    · obtain ⟨hlen, hpx⟩ := scanLine_pixels s hn hrun hgap last [] bare ns yi [(fx.toNat, fw)] hy hc hw hv
      refine ⟨_, rfl, hlen, fun x hx => ⟨fun hver => ?_, fun hleft => ?_⟩⟩
      · obtain ⟨w, hver⟩ := Option.isSome_iff_exists.1 hver
        rw [hver]
        exact congrArg some ((hpx x hx).1 w ((hverified x).trans hver))
      · refine ((hpx x hx).2 (hleft.imp_right fun ⟨hlive, hmode⟩ => ⟨?_, hmode⟩)).trans (hpipe x)
        simp only [live] at hlive
        split at hlive
        · next j hj => exact ⟨j, hj, Option.isNone_iff_eq_none.1 hlive⟩
        · cases hlive
    · obtain ⟨hreg, hmode⟩ := scanLine_agrees s hn hrun hgap last [] bare ns yi [(fx.toNat, fw)] hy hc hw (by rwa [hdiffers]) hp
      exact ⟨_, rfl, hreg _ (by decide), hreg _ (by decide), hreg _ (by decide), hmode⟩
    · obtain ⟨hbit, hmode', hmis, hneed, hcount, hbad, hcause, hfirst⟩ :=
        scanLine_differs s hn hrun hgap last [] bare ns yi [(fx.toNat, fw)] hy hc hw (by rwa [hdiffers]) hmode
      refine ⟨_, rfl, hbit, hmode', hmis, hneed, hcount, hbad, fun _ => hcause, fun hb => ?_⟩
      obtain ⟨hl, hx, hframe⟩ := hfirst hb
      rw [hdiffers] at hx
      exact ⟨hl.trans hline, hx, hframe.trans (Nat.mod_eq_of_lt (State.get_lt s _))⟩
  · exact fun hy => ⟨_, rfl, scanLine_stands s hn hrun hgap last [] bare ns yi [] hy⟩
  · exact fun hy hl hroom => ⟨_, rfl, scanLine_late s hn hrun hgap last hl bare ns yi [] hy hroom⟩
  · obtain ⟨hrec, hcomp, hbytes, hsxt⟩ := fetchStart_leads s hn hrun hgap
    obtain ⟨hsame, hmarked⟩ := causes_fetchOpened s (n := n)
    simp only [ScreenState.fetched, Prod.mk.injEq] at hrec
    obtain ⟨hsextant, hcompared, hmode, hmis, htiles, hahead, hcauses⟩ := hrec
    refine ⟨_, rfl, ?_, hcompared, hmode, hmis, htiles, hcomp, hahead, hbytes, hsxt, fun h => hcauses.trans (hsame h), fun hk ha => ?_⟩
    · rw [hsextant]
      simp only [List.isEmpty_iff]
    · rw [hcauses]
      exact hmarked k hk ha
  · intro hw
    refine ⟨s, congrArg Host.Outcome.next ?_, setsOnly_refl s⟩
    exact watchCompare_unwatched hw diff.toNat late
  · intro hsome hsig
    obtain ⟨w, hw⟩ := Option.isSome_iff_exists.1 hsome
    have hcw : c = w := by simp only [c, hw, Option.getD_some]
    rw [hcw] at hsig
    exact ⟨s, congrArg Host.Outcome.next (watchCompare_unsigned hw hsig diff.toNat late), setsOnly_refl s⟩
  · intro hsome hsig
    obtain ⟨w, hw⟩ := Option.isSome_iff_exists.1 hsome
    have hcw : c = w := by simp only [c, hw, Option.getD_some]
    rw [hcw] at hsig ⊢
    have heq := watchCompare_eq hw hsig diff.toNat late
    refine ⟨fun hvoid => ⟨_, congrArg Host.Outcome.next (heq.trans (if_pos (by simpa using hvoid))), watchVoid_leads hw hn⟩,
      fun hbad hlate hd => ⟨_, congrArg Host.Outcome.next (heq.trans ?_), watchCompared_leads hw hn w.frame⟩,
      fun hbad hlate hd hrun hpipe hwp => ⟨_, rfl, ?_⟩⟩
    · rw [hbad, hlate, hd]
      rfl
    · rw [hlate]
      exact watchCompare_differs hw hn hsig hbad (fun h => hd (BitVec.eq_of_toNat_eq h)) hrun hpipe hwp

end Sys2Proof.Machine
end
